-- ==== Sys2Proof/Word.lean ====
section
/-! DEFINITION. The word types of the set-up space and of the byte-wide memories, and their plainest arithmetic. -/

namespace Sys2Proof

/-- A byte of buffer memory, of host memory or of the serial flash. -/
abbrev Byte := BitVec 8

/-- A register of the set-up space: every register is 32 bits wide (R12). -/
abbrev Word := BitVec 32

/-- A microword of a culture engine (R464). -/
abbrev MicroWord := BitVec 144

/-- Little-endian bytes to a number (R11): byte 0 is the least significant. -/
def leNat : List Byte → Nat
  | [] => 0
  | b :: bs => b.toNat + 256 * leNat bs

/-- A number as `n` little-endian bytes (R11). -/
def natLe : Nat → Nat → List Byte
  | 0, _ => []
  | n + 1, v => BitVec.ofNat 8 v :: natLe n (v / 256)

/-- A count that saturates at `top`, advanced by `n` (the RC counters of the register maps). -/
def satAdd (top a n : Nat) : Nat := min top (a + n)

/-- The value of `x` held within `lo` to `hi`: the nearer limit outside the range. -/
def clampNat (lo hi x : Nat) : Nat := max lo (min hi x)

/-- `a` lies ahead of `b` modulo `m` (the ahead rule of R79): by 1 to m / 2 - 1. -/
def aheadMod (m a b : Nat) : Bool :=
  let d := (a + m - b % m) % m
  decide (1 ≤ d ∧ d < m / 2)

/-- Ceiling of a quotient of naturals. -/
def ceilDiv (a b : Nat) : Nat := (a + b - 1) / b

end Sys2Proof
end

