-- ==== Sys2Proof/Syntax.lean ====
section
/-! DEFINITION. The commands of the block: the words the outside world, the timers of the block and its own engines use to move it, one
constructor for each row of the command table, with the data each carries. -/

namespace Sys2Proof

/-- A Rind slot (R2). -/
inductive RSlot where
  | f0
  | f1
  deriving DecidableEq, Repr

/-- A die of the package: a Rind slot, or Curd slot C`g` (R17). -/
inductive Die where
  | rind (d : RSlot)
  | curd (g : Nat)
  deriving DecidableEq, Repr

/-- Who makes a set-up access (R122): one function on a head, one logical device of a head, or the sideband. -/
inductive Requester where
  | head (h : Nat)
  | ld (h l : Nat)
  | sideband
  deriving DecidableEq, Repr

/-- A regulated rail (R46). -/
inductive Rail where
  | vcore
  | vana
  | vddq
  deriving DecidableEq, Repr

/-- What the regulator answered on the PMBus (R53). -/
inductive PmbResp where
  | ok
  | nack
  | badPec
  deriving DecidableEq, Repr

/-- The end of a Finvik link that receives (or sends): a Rind die's link `n` (0 to 5 to C`n`, 6 the step link), or C`g`'s port to a Rind
slot (R20, R41). -/
inductive LinkEnd where
  | rind (d : RSlot) (n : Nat)
  | curd (g : Nat) (d : RSlot)
  deriving DecidableEq, Repr

/-- A Finvik message (R24): CLASS, SRC, LSEQ and ESEQ of its header, and its payload of 0 to 128 words. -/
structure Msg where
  cls : Nat
  src : Nat
  lseq : Nat
  eseq : Nat
  payload : List Word
  deriving DecidableEq, Repr

/-- A unit that a function reset can name (R552, R553). -/
inductive RUnit where
  | portEngine
  | scheduler
  | translation
  | vat
  | cave
  | bmem
  | ladle
  | engine (e : Nat)
  | budget
  | channel (g : Nat)
  | formatter (g : Nat)
  | press (g : Nat)
  | spindle
  deriving DecidableEq, Repr

/-- A watched handshake stage (R37): a request port of a culture engine, the formatter's request ports of C`g`, a Ladle channel, a command of
a port, or a lane of a Finvik link. -/
inductive Stage where
  | enginePort (d : RSlot) (e port : Nat)
  | formatterPort (g port : Nat)
  | ladleChannel (d : RSlot) (ch : Nat)
  | command (d : RSlot) (port tag : Nat)
  | lane (e : LinkEnd)
  deriving DecidableEq, Repr

/-- What a head found when it trained (R101 to R105): the rate and width codes of LINK_HEADSTAT, whether the partner completed the CXL
alternate-protocol negotiation for what the head offered, how many logical devices the fabric manager has bound, and the credits of each
link layer pool (R4). -/
structure Partner where
  rate : Nat
  width : Nat
  cxl : Bool
  /-- A bit for each logical device that the fabric manager has bound (R111). -/
  lds : Nat
  credits : List Nat
  deriving DecidableEq, Repr

/-- The content of a FWD message (R494, R495). -/
inductive FwdBody where
  /-- A CXL.mem store: the buffer memory address and the bytes. -/
  | store (addr : Nat) (data : List Byte)
  /-- A set-up write of a word, by a requester of the other die. -/
  | setup (r : Requester) (addr : Nat) (v : Word)
  /-- The content of an input of KIND 0x05 or 0x06 that the junior lacks: KIND, SRC and the 32-bit digest. -/
  | relay (kind src digest : Nat)
  deriving DecidableEq, Repr

/-- One entry of a STEP message: KIND, FROMJ, SRC and DATA (R494). -/
structure StepEnt where
  kind : Nat
  fromJ : Bool
  src : Nat
  data : Nat
  deriving DecidableEq, Repr

/-- A STEP message (R494): FIRST, HELD and up to six entries, and whether its sender declares a digest overdue (R510). -/
structure StepMsg where
  first : Nat
  held : Nat
  entries : List StepEnt
  overdue : Bool
  deriving DecidableEq, Repr

/-- What training finds on one byte lane (R400): at each of the 16 reference codes, which of the 128 steps of the read sweep and of the write
sweep pass. -/
structure LaneEyes where
  read : List (BitVec 128)
  write : List (BitVec 128)
  deriving DecidableEq, Repr

/-- What the pins of the link heads show at their release (R68, R73): PERST#, and a running reference clock, at bit 4 x die + head. -/
structure HeadPins where
  perst : Nat
  refclk : Nat
  deriving DecidableEq, Repr

/-- Who makes a buffer memory access, for the Cave's classes (R433). -/
inductive AccWho where
  | xlat
  | host
  | engine (e : Nat)
  | ladle (ch : Nat)
  | port
  deriving DecidableEq, Repr

/-- A culture engine (R462): engine `e` of a Rind die, or the formatter of C`g`. -/
inductive Eng where
  | rind (d : RSlot) (e : Nat)
  | curd (g : Nat)
  deriving DecidableEq, Repr

/-- A request port with a response latch (R464, RSEL; R470): the Vat, the Ladle, a handshake port, or the memory port. -/
inductive RespPort where
  | vat
  | ladle
  | handshake (n : Nat)
  | memory
  deriving DecidableEq, Repr

/-- A change of the translation tables that the engine serving a group asks for (R248): a zero bit cleared or set, the fill of an open
band, a reassignment, a parity group made stale or clean, a relocation's switch, a band marked weak. -/
inductive TableChange where
  | zeroClear (vol blk : Nat)
  | zeroSet (vol blk : Nat)
  | fill (vol band pos : Nat)
  | reassign (head zone k index : Nat)
  | stale (head zone k track group : Nat)
  | clean (head zone k track group : Nat)
  | switch (g : Nat)
  | weak (head zone k : Nat)
  deriving DecidableEq, Repr

/-- A gate event (R305): the gate, open or close, the wedge and the bit offset after it, and the sector it is for: surface, track, position. -/
structure GateEv where
  write : Bool
  opens : Bool
  wedge : Nat
  bit : Nat
  surf : Nat
  track : Nat
  pos : Nat
  deriving DecidableEq, Repr

/-- What one reader's ADC gave over a sector (R265, R280): the reader (0 A, 1 B, 2 C), its samples, the low-pass baseline less its value
over the preamble wherever it changes (bit, ADC steps), and the gain and the offset at the end of the preamble. -/
structure ReaderCap where
  reader : Nat
  samples : List Int
  base : List (Nat × Int)
  gain : Int
  offset : Int
  deriving DecidableEq, Repr

/-- The capture of a sector: one entry a reader in use. -/
structure Capture where
  readers : List ReaderCap
  deriving DecidableEq, Repr

/-- What a servo wedge gives (R327 to R331): the bits that differ from the address mark at each position in the gate, as an offset from the
prediction; the wedge number and its check, the Gray track ID, the correlations of bursts N and Q and the preamble amplitude in one unit, the
RRO value and its check; the coil current at the servo sample (Q1.15); the interval to the last accepted mark in ns; the time of R338 in 40 ns;
and whether a stall watch drained its computation (R356). -/
structure Wedge where
  marks : List (Int × Nat)
  num : Nat
  numCheck : Nat
  gray : Nat
  n : Int
  q : Int
  amp : Nat
  rro : Nat
  rroCheck : Nat
  coil : Int
  interval : Nat
  lat40ns : Nat
  drained : Bool
  deriving DecidableEq, Repr

/-- What a PWM valley gives (R60, R363, R368): the three phase currents in mA, the converter's code of VMOT_SNS and the three phase voltages in mV, and what the observer
makes of them: speed in rpm, direction, back-EMF in mV line peak, the phase error of its loop and its angle less the open-loop angle, in
degrees, and the currents it expects; and whether the computation was drained (R383). -/
structure Valley where
  ia : Int
  ib : Int
  ic : Int
  vmot : Nat
  va : Nat
  vb : Nat
  vc : Nat
  rpm : Nat
  backward : Bool
  bemf : Nat
  err : Int
  lead : Int
  pa : Int
  pb : Int
  pc : Int
  drained : Bool
  deriving DecidableEq, Repr
/-- The commands of the block: one constructor for each row of the command table. -/
inductive Instr where
  /-- POWER_ON_RESET_RELEASE (R91): VIN rises above the power-on reset release threshold; the islands start the crystal, sense fuses and begin the start sequence at step 1. -/
  | powerOnResetRelease (vinMv : Nat) (strap : Bool)
  /-- POWER_ON_RESET_ENTRY (R72): VIN falls below the power-on reset entry threshold; the device takes the pin steps of R71 in order. -/
  | powerOnResetEntry (vinMv : Nat)
  /-- RESET_N_FALL (R71): RESET_N falls; retract, gates off, ALIVE stop, SF_CS_N high and REG_EN low follow in order. -/
  | resetNFall
  /-- RESET_N_RISE (R71): RESET_N rises and the device runs a full start. -/
  | resetNRise (lowUs : Nat)
  /-- VIN_SAMPLE (R96): The always-on island samples VIN every 100 µs and compares it with VSAG and the 4.5 V floor. -/
  | vinSample (vinMv : Nat)
  /-- SAG_PAUSE_END (R96): VIN has been at or above VSAG for 10 ms and the pause ends. -/
  | sagPauseEnd
  /-- SUPPLY_HOLD_EXPIRE (R97): VIN has stayed below 4.5 V longer than HOLD; writes end, actuators retract, the spindle coasts, source 0x026 is raised and REG_EN drops. -/
  | supplyHoldExpire
  /-- SUPPLY_RESTART (R97): VIN has been at or above 4.6 V for 100 ms after a hold expiry and the device starts again from step 2. -/
  | supplyRestart
  /-- PERST_ASSERT (R73): PERST# asserted on a head resets that head's link only. -/
  | perstAssert (d : RSlot) (h : Nat)
  /-- PERST_DEASSERT (R73): PERST# released on a head lets that head's link train again. -/
  | perstDeassert (d : RSlot) (h : Nat)
  /-- SHOCK_ASSERT (R322): SHOCK seen at its active level withdraws every open write gate in hardware and starts the write hold. -/
  | shockAssert
  /-- SHOCK_HOLD_EXPIRE (R323): SHOCK has been inactive for HOLDUS and, with the head within its write limit, writes are permitted again. -/
  | shockHoldExpire (g : Nat)
  /-- SHOCK_STUCK (R325): SHOCK held active for more than 1 s raises SHOCK stuck at Warn. -/
  | shockStuck (g : Nat)
  /-- SPDLIM_SAMPLE (R61): The SPDLIM input is sampled and the input fraction and computed ceiling are formed; a lower ceiling applies at once. -/
  | spdlimSample (level freq : Nat)
  /-- SPDLIM_OPEN (R61): SPDLIM has been outside its valid range for 100 ms; it is reported open and the ceiling becomes OPENCEIL. -/
  | spdlimOpen
  /-- SPDLIM_VALID_PERSIST (R380): A valid SPDLIM input has persisted 100 ms and ends the open state. -/
  | spdlimValidPersist
  /-- SPDLIM_CEILING_RAISE (R379): A higher computed ceiling has been computed continuously for 100 ms and takes effect. -/
  | spdlimCeilingRaise
  /-- TEST_PORT_ACTIVE (R66): an edge of TRST_N; TRST_N driven high while RESET_N is high raises the Fatal source test port active. -/
  | testPortActive
  /-- TIMEBASE_LOST (R67): The ring oscillator detects a stopped crystal timebase and raises the Fatal source timebase lost. -/
  | timebaseLost (d : RSlot)
  /-- ALIVE_TOGGLE (R63): ALIVE toggles at 1 kHz from the crystal while the device is healthy. -/
  | aliveToggle
  /-- ALIVE_TAKEOVER (R63): F1's island sees no ALIVE edge for 0.75 ms, claims the pin and drives the next edge. -/
  | aliveTakeover
  /-- RAIL_MONITOR_LOW (R352): VCORE or VANA below its monitor threshold for 10 µs makes the Curd islands retract and the C0 island turn the bridge off. -/
  | railMonitorLow (g : Nat) (r : Rail)
  /-- PMBUS_OPERATION (R50): An OPERATION transaction turning a rail on or off completes. -/
  | pmbusOperation (r : Rail) (on : Bool) (resp : PmbResp)
  /-- PMBUS_CLEAR_FAULTS (R50): A CLEAR_FAULTS transaction completes after a regulator fault was read. -/
  | pmbusClearFaults (r : Rail) (resp : PmbResp)
  /-- PMBUS_VOUT_COMMAND (R51): A VOUT_COMMAND moving VCORE by one 10 mV step completes. -/
  | pmbusVoutCommand (up : Bool) (resp : PmbResp)
  /-- PMBUS_STATUS_WORD (R50): A STATUS_WORD read of a regulator completes. -/
  | pmbusStatusWord (r : Rail) (resp : PmbResp) (fault : Bool)
  /-- PMBUS_READ_VOUT (R51): A READ_VOUT completes and confirms a rail or the previous VCORE step. -/
  | pmbusReadVout (r : Rail) (resp : PmbResp) (mv : Nat)
  /-- PMBUS_READ_IOUT (R50): A READ_IOUT read completes for the budget cycle. -/
  | pmbusReadIout (r : Rail) (resp : PmbResp) (tenMa : Nat)
  /-- PMBUS_TAKEOVER (R52): After a turning the bus has been idle 10 µs and the incoming senior may start its first transaction. -/
  | pmbusTakeover
  /-- SF_BUS_REQUEST (R65): A Rind island requests the serial-flash bus over the in-package ownership handshake. -/
  | sfBusRequest (d : RSlot)
  /-- SF_BUS_GRANT (R65): The owner finishes its flash command and the bus passes to the requesting island. -/
  | sfBusGrant
  /-- SB_SET_ADDRESS (R124): Sideband command 0x01 sets the transaction address. -/
  | sbSetAddress (at_ : Nat) (pec : Bool) (addr : Word)
  /-- SB_READ_WORD (R124): Sideband command 0x02 reads the word at the transaction address and adds 4. -/
  | sbReadWord (at_ : Nat) (pec : Bool)
  /-- SB_WRITE_WORD (R124): Sideband command 0x03 writes the word at the transaction address and adds 4. -/
  | sbWriteWord (at_ : Nat) (pec : Bool) (v : Word)
  /-- SB_READ_RESULT (R124): Sideband command 0x04 returns the result of the last read or write. -/
  | sbReadResult (at_ : Nat) (pec : Bool)
  /-- SB_CORE_TIMEOUT (R125): The core logic does not answer a passed sideband access within 50 µs; a read returns all ones, a write is dropped, result 0x01. -/
  | sbCoreTimeout (d : RSlot)
  /-- START_HEADER (R79): Step 2: F0 reads both header copies, chooses one and reads SFDP, or fails the start. -/
  | startHeader (d : RSlot)
  /-- LINK_FIRST_HANDSHAKE (R21): A Finvik link completes its first handshake and DEV_DIEPRES records the die. -/
  | linkFirstHandshake (d : RSlot) (n : Nat)
  /-- START_LOAD (R89): Step 6: the boot sequencer chooses and checks a slot, loads the Rind control store and sends the Curd image. -/
  | startLoad (d : RSlot)
  /-- CURD_IMAGE_LOAD (R475): A Curd die receives the Curd image over CTRL messages, clears its store, writes the base section and applies its patches. -/
  | curdImageLoad (g : Nat)
  /-- START_SETTINGS (R91): Step 7: settings, zone tables and calibration are checked and loaded into their blocks. -/
  | startSettings (d : RSlot)
  /-- START_DIGEST_EXCHANGE (R94): Before step 11 the two Rind dies exchange digests of their stores and settings; on mismatch or lateness F1 fences. -/
  | startDigestExchange (f1Here : Bool)
  /-- START_MEMORY_SPINDLE (R91): Step 8: DRAM training starts on both channels and the keeper measures resistance, cooks if needed and starts the spindle. -/
  | startMemorySpindle
  /-- DRAM_TRAINING_DONE (R400): Training of the channels ends and the fill of valid codewords starts. -/
  | dramTrainingDone (d : RSlot) (lanes : List LaneEyes)
  /-- DRAM_FILL_DONE (R402): The all-zero fill of every codeword ends. -/
  | dramFillDone (d : RSlot)
  /-- HEADS_RELEASE (R91): Step 12: the host link heads are released and PERST# is sampled. -/
  | headsRelease (pins : HeadPins)
  /-- START_READY (R91): Step 15: the translation tables are read, volumes reconciled and READY reported; the conservation guarantee begins. -/
  | startReady (elapsedMs : Nat)
  /-- START_WATCHDOG_EXPIRE (R92): The 60 s start watchdog expires; the cause is logged at Fatal and the start is retried from step 2 or FAILED is entered. -/
  | startWatchdogExpire
  /-- THERMAL_WAIT_END (R527): After a device thermal shutdown every die reads below shutdown minus hysteresis and the start runs from step 2. -/
  | thermalWaitEnd
  /-- HEADER_WRITE_DONE (R79): A header write into the other copy's block finishes erase, program and read-back. -/
  | headerWriteDone (good : Bool)
  /-- FINVIK_MESSAGE_RECEIVE (R28): A Finvik message is received whole, checked for CRC and code errors, and accepted into a buffer or discarded. -/
  | finvikMessageReceive (e : LinkEnd) (m : Msg) (crcOk codeOk : Bool)
  /-- LCW_CREDIT_ACK (R30): A credit and acknowledge link control word raises the sender's credits and releases acknowledged messages from the replay store. -/
  | lcwCreditAck (e : LinkEnd) (w0 w1 : Word)
  /-- LCW_REPLAY_REQUEST (R28): A replay request makes the sender resend every later message of the class in order. -/
  | lcwReplayRequest (e : LinkEnd) (w0 w1 : Word)
  /-- LCW_RESET_REPORT (R29): A reset report after a link reset sets the sender's credits and triggers replay. -/
  | lcwResetReport (e : LinkEnd) (w0 w1 : Word)
  /-- LCW_PERIODIC (R30): A receiver sends an LCW for every class at least every 10 µs while the link is up. -/
  | lcwPeriodic (e : LinkEnd)
  /-- LINK_DOWN (R31): Three failed link resets, or 1 ms without traffic while messages wait, declare the link down. -/
  | linkDown (d : RSlot) (n : Nat)
  /-- STEP_KEEPALIVE (R32): A STEP message is sent in each direction at least every 10 µs. -/
  | stepKeepalive (d : RSlot)
  /-- STEP_LINK_LOST (R32): 100 µs without step traffic declares the step link lost and the split rules begin. -/
  | stepLinkLost
  /-- STALL_WATCH_FIRE (R38): A handshake stage has waited LIMIT µs for its acknowledge; the stage is drained and the token returned to its owner. -/
  | stallWatchFire (s : Stage)
  /-- HEAD_TRAINED (R101): A host link head completes training as CXL or PCIe and held traffic is released. -/
  | headTrained (d : RSlot) (h : Nat) (p : Partner)
  /-- HEAD_DOWN (R107): A host link head goes down and traffic due on it is held. -/
  | headDown (d : RSlot) (h : Nat)
  /-- CXL_MEM_LOAD (R114): A CXL.mem load in a domain window is served through the Cave or refused with poison. -/
  | cxlMemLoad (d : RSlot) (r : Requester) (off len : Nat)
  /-- CXL_MEM_STORE (R115): A CXL.mem store is applied, forwarded in step, or completed and discarded as a refusal. -/
  | cxlMemStore (d : RSlot) (r : Requester) (off : Nat) (data : List Byte)
  /-- GLOBAL_PERSISTENT_FLUSH (R102): A global persistent flush is acknowledged with no data flushed. -/
  | globalPersistentFlush (d : RSlot) (h : Nat)
  /-- SETUP_WRITE (R119): A set-up write to a register without a row of its own is checked for rights and lock state and stored. -/
  | setupWrite (d : RSlot) (r : Requester) (addr width : Nat) (v : Word)
  /-- RC_READ (R13): A read of an RC field returns the count and clears it. -/
  | rcRead (d : RSlot) (r : Requester) (addr width : Nat)
  /-- UNLOCK_WRITE (R122): A write to BLOCK_UNLOCK arms the requester, opens the expert page or disarms. -/
  | unlockWrite (d : RSlot) (r : Requester) (addr : Nat) (key : Word)
  /-- UNLOCK_ARM_LAPSE (R122): 1 ms after its latest arming a requester is disarmed. -/
  | unlockArmLapse (d : RSlot) (r : Requester) (addr : Nat)
  /-- DOMCFG_WRITE (R109): A write to LINK_DOMCFG is checked against EN, enabled ports and attachment conflicts. -/
  | domcfgWrite (d : RSlot) (r : Requester) (dom : Nat) (v : Word)
  /-- PORT_ENABLE (R153): A write of PORT_CFG EN 1 runs the enable check and starts the port. -/
  | portEnable (d : RSlot) (r : Requester) (port : Nat) (v : Word)
  /-- PORT_DISABLE (R152): A write of PORT_CFG EN 0 moves the port to DRAINING. -/
  | portDisable (d : RSlot) (r : Requester) (port : Nat) (v : Word)
  /-- STATUS_LINE_ADDRESS_WRITE (R159): A write to PORT_SLLO or PORT_SLHI makes the next status line update at once at the new address. -/
  | statusLineAddressWrite (d : RSlot) (r : Requester) (dom : Nat) (hi : Bool) (v : Word)
  /-- CAVE_ENABLE (R437): A write of CAVE_CTL EN 1 enables the Cave when INVDONE is 1. -/
  | caveEnable (d : RSlot) (r : Requester) (v : Word)
  /-- CAVE_INV (R440): A GO with OP INV invalidates every line in the range. -/
  | caveInv (d : RSlot) (r : Requester) (spareLocked : Bool)
  /-- CAVE_CLEAN (R440): A GO with OP CLEAN writes back every dirty line in the range. -/
  | caveClean (d : RSlot) (r : Requester) (spareLocked : Bool)
  /-- CAVE_CLEANINV (R440): A GO with OP CLEANINV writes back and invalidates every line in the range. -/
  | caveCleaninv (d : RSlot) (r : Requester) (spareLocked : Bool)
  /-- CAVE_MAINT_DONE (R441): The maintenance engine passes its last set and issues its last write-back; BUSY clears. -/
  | caveMaintDone (d : RSlot)
  /-- STEP_TURNNOW (R509): A write of STEP_CTL TURNNOW proposes a turning at once. -/
  | stepTurnnow (d : RSlot) (r : Requester)
  /-- STEP_RESYNC (R516): A write of STEP_CTL RESYNC on the sole server starts a resync of the fenced peer. -/
  | stepResync (d : RSlot) (r : Requester)
  /-- FAULT_UNLATCH (R547): A write of FAULT_CTL UNLATCH ends a latch and clears the recovery count. -/
  | faultUnlatch (d : RSlot) (r : Requester)
  /-- FAULT_ABANDON (R555): A write of FAULT_CTL ABANDON ends a close-out in progress and raises source 0x0C8. -/
  | faultAbandon (d : RSlot) (r : Requester)
  /-- LOG_FREEZE (R561): A write of LOG_CTL FREEZE 1 freezes the log and restarts the lapse time. -/
  | logFreeze (d : RSlot) (r : Requester)
  /-- LOG_UNFREEZE (R561): A write of LOG_CTL FREEZE 0 unfreezes the log. -/
  | logUnfreeze (d : RSlot) (r : Requester)
  /-- LOG_FREEZE_LAPSE (R561): A freeze lapses 10 minutes after it was last set. -/
  | logFreezeLapse
  /-- FAULT_INJ_ARM (R568): A write changing FAULT_INJ ARM from 0 to 1 raises source 0x0C5, sets USED and suspends the guarantee. -/
  | faultInjArm (d : RSlot) (r : Requester) (v : Word)
  /-- FAULT_INJ_RAISE (R568): GO with MODE 0x1 raises SOURCE as an event at its configured severity. -/
  | faultInjRaise (d : RSlot) (r : Requester) (v : Word)
  /-- FAULT_INJ_CAVE_PARITY (R568): GO with MODE 0x2 inverts a data parity bit of the Cave line holding TARGET. -/
  | faultInjCaveParity (d : RSlot) (r : Requester) (v : Word)
  /-- FAULT_INJ_WITHHOLD_ACK (R568): GO with MODE 0x3 withholds once the acknowledge of the pending request on the named engine port. -/
  | faultInjWithholdAck (d : RSlot) (r : Requester) (v : Word)
  /-- FAULT_INJ_FINVIK_CRC (R568): GO with MODE 0x4 corrupts the CRC of the next message on the named Finvik link. -/
  | faultInjFinvikCrc (d : RSlot) (r : Requester) (v : Word)
  /-- FAULT_INJ_DRAM_SYMBOL (R568): GO with MODE 0x5 inverts one bit of symbol c0 of the codeword at TARGET. -/
  | faultInjDramSymbol (d : RSlot) (r : Requester) (v : Word)
  /-- DOORBELL_SNOOP (R147): A host store to a held doorbell line snoops the device, which answers and issues a new RdShared. -/
  | doorbellSnoop (d : RSlot) (port : Nat)
  /-- DOORBELL_READ_COMPLETE (R146): A doorbell line read returns; SQTAIL and CQHEAD are checked and applied. -/
  | doorbellReadComplete (d : RSlot) (port : Nat) (lo hi : List Byte)
  /-- DOORBELL_POLL (R149): Every POLLINT µs a switched head's doorbell line is read by CXL.io. -/
  | doorbellPoll (d : RSlot) (port : Nat)
  /-- DOORBELL_BACKSTOP (R148): Every held doorbell line is reread at the backstop interval. -/
  | doorbellBackstop (d : RSlot)
  /-- DOORBELL_READ_TIMEOUT (R150): A doorbell read unanswered within the completion timeout puts the port into ERROR with cause 3. -/
  | doorbellReadTimeout (d : RSlot) (port : Nat)
  /-- FETCH_GRANT (R203): The fetch arbiter grants a port and a burst of descriptors is fetched. -/
  | fetchGrant (descs : List (List Byte))
  /-- DESCRIPTOR_FETCH_TIMEOUT (R150): A descriptor fetch unanswered puts the port into ERROR with cause 4. -/
  | descriptorFetchTimeout (d : RSlot) (port : Nat)
  /-- STATUS_LINE_UPDATE (R157): The status line common part or die word is written on change or at least once a second. -/
  | statusLineUpdate (d : RSlot) (dom : Nat)
  /-- REWRITE_PASS (R143): 1 ms and 50 ms after becoming sole writer a die rewrites unreleased completion entries and the status line. -/
  | rewritePass (d : RSlot)
  /-- READ (R211): READ is admitted and returns the blocks' versions or media contents to host memory. -/
  | read (port : Nat)
  /-- WRITE (R209): WRITE is admitted and creates versions of its blocks in buffer memory. -/
  | write (port : Nat)
  /-- APPEND (R174): APPEND writes at WP of a Stream volume and advances WP. -/
  | append (port : Nat)
  /-- FENCE (R216): FENCE notes the outstanding commands of its ports and completes when they have completed. -/
  | fence (port : Nat)
  /-- FLUSH (R222): FLUSH completes when covered versions, table entries and parity are on the media. -/
  | flush (port : Nat)
  /-- TRIM (R181): TRIM sets zero bits on a Data volume or releases whole bands of a Stream volume. -/
  | trim (port : Nat)
  /-- COPY (R183): COPY moves blocks within the device to a Data-class destination. -/
  | copy (port : Nat)
  /-- WINMAP (R184): WINMAP copies blocks of a volume into the domain's CXL.mem window. -/
  | winmap (port : Nat)
  /-- ABORT (R219): ABORT decides against its target's completion and completes DONE or ALREADY_DONE. -/
  | abort (port : Nat)
  /-- INVALID_OPCODE (R168): A descriptor with an undefined opcode completes with INVALID_OPCODE. -/
  | invalidOpcode (port : Nat)
  /-- IDENTIFY (R192): IDENTIFY writes the device or volume structure to host memory. -/
  | identify (port : Nat)
  /-- GET_LOG (R193): GET_LOG writes a log page to host memory, freezing the ripening log while it reads page 0x01. -/
  | getLog (port : Nat)
  /-- GET_FEATURES (R195): GET_FEATURES returns the current, saved or default value of a feature. -/
  | getFeatures (port : Nat)
  /-- SET_FEATURES_POWERCAP (R195): SET_FEATURES POWERCAP sets the power ceiling, optionally saved. -/
  | setFeaturesPowercap (port : Nat)
  /-- SET_FEATURES_THERMAL (R195): SET_FEATURES THERMAL sets a die's thresholds and hystereses. -/
  | setFeaturesThermal (port : Nat)
  /-- SET_FEATURES_TURNING (R195): SET_FEATURES TURNING sets the turning interval. -/
  | setFeaturesTurning (port : Nat)
  /-- SET_FEATURES_WINDOW (R198): SET_FEATURES WINDOW saves a domain window for the next start. -/
  | setFeaturesWindow (port : Nat)
  /-- SET_FEATURES_RIDE (R195): SET_FEATURES RIDE sets VSAG and HOLD. -/
  | setFeaturesRide (port : Nat)
  /-- SET_FEATURES_FAULTSEV (R195): SET_FEATURES FAULTSEV sets a source's severity and counting. -/
  | setFeaturesFaultsev (port : Nat)
  /-- SET_FEATURES_FAULTCLR (R195): SET_FEATURES FAULTCLR clears a latched fault. -/
  | setFeaturesFaultclr (port : Nat)
  /-- VOLUME_CREATE (R197): SET_FEATURES VOLUME on an absent volume creates it and reserves its slots. -/
  | volumeCreate (port : Nat)
  /-- VOLUME_CHANGE (R197): SET_FEATURES VOLUME on a present volume changes its masks and label. -/
  | volumeChange (port : Nat)
  /-- VOLUME_DELETE (R197): SET_FEATURES VOLUME with CLASS 0 deletes a volume and discards its data. -/
  | volumeDelete (port : Nat)
  /-- SETTINGS_SAVE_DONE (R198): A settings copy write and read-back finish and the saved value is applied or SAVE_FAILED given. -/
  | settingsSaveDone (good : Bool)
  /-- FW_DOWNLOAD (R200): FW_DOWNLOAD opens or continues a download session and programs a chunk into the inactive slot. -/
  | fwDownload (port : Nat) (data : List Byte)
  /-- FW_CHUNK_PROGRAMMED (R200): A download chunk is erased, programmed and read back and DLOFF advances. -/
  | fwChunkProgrammed (good : Bool)
  /-- FW_SESSION_TIMEOUT (R200): A download session closes after 10 minutes with no chunk. -/
  | fwSessionTimeout
  /-- FW_ACTIVATE (R201): FW_ACTIVATE checks the target slot and marks it pending with three tries. -/
  | fwActivate (port : Nat)
  /-- COMMAND_TIMEOUT (R551): A command admitted longer than IOTO or ADMTO is ended with DEVICE_RECOVERED, INFO 3. -/
  | commandTimeout (port tag : Nat) (unit : Option RUnit)
  /-- JOURNAL_TIMER (R248): A journal sector is written 1 s after its first record. -/
  | journalTimer
  /-- CLEANING_START (R258): A group idle for IDLEMS with cleaning permitted begins a relocation or parity restore. -/
  | cleaningStart (g : Nat)
  /-- SECTOR_READ (R301): A READ sector command arrives at a Curd die and is queued for its run. -/
  | sectorRead (g : Nat) (src : RSlot) (m : Msg)
  /-- SECTOR_WRITE (R316): A WRITE sector command arrives at a Curd die and is queued for its run. -/
  | sectorWrite (g : Nat) (src : RSlot) (m : Msg)
  /-- SECTOR_VERIFY (R301): A VERIFY sector command reads and reports outcomes with no data. -/
  | sectorVerify (g : Nat) (src : RSlot) (m : Msg)
  /-- SECTOR_OLDREAD (R283): An OLDREAD sector command returns old contents from the vault or media for a parity update. -/
  | sectorOldread (g : Nat) (src : RSlot) (m : Msg)
  /-- SECTOR_PARITY (R316): A PARITY sector command writes only the two parity positions of one group. -/
  | sectorParity (g : Nat) (src : RSlot) (m : Msg)
  /-- DATA_MESSAGE (R25): A DATA message carrying part of a sector arrives at its receiver. -/
  | dataMessage (e : LinkEnd) (m : Msg)
  /-- RUN_START (R304): The formatter starts its next run in ESEQ order once the present run has passed its last gate. -/
  | runStart (g : Nat)
  /-- GATE_POST (R305): A gate event is posted to the gate unit, or discarded as late. -/
  | gatePost (g : Nat) (ev : GateEv) (late : Bool)
  /-- GATE_EVENT (R305): The gate unit reaches a posted event's bit and opens or closes a read or write gate. -/
  | gateEvent (g : Nat) (cap : Capture)
  /-- SECTOR_DECODE (R277): Rung 1 mark search and on-the-fly decode of a read sector end good or pass it to the ladder. -/
  | sectorDecode (g surf pos : Nat)
  /-- VAULT_RUNG (R282): The vault engine runs a vault rung on a failed sector's stored capture. -/
  | vaultRung (g pos : Nat)
  /-- REBUILD (R294): After the group's other positions are read, track parity rebuilds up to two lost sectors. -/
  | rebuild (g pos : Nat)
  /-- READER_SETTLED (R262): A powered-up reader has settled 20 µs later and the new mode may apply. -/
  | readerSettled (g : Nat)
  /-- RPT_SECTOR_OUTCOME (R303): A sector outcome report reaches the Rind die, which places data, marks weak bands or reassigns. -/
  | rptSectorOutcome (g : Nat) (eseq w0 w1 : Nat)
  /-- RPT_RUN_END (R303): A run end report reaches the Rind die. -/
  | rptRunEnd (g : Nat) (eseq : Nat)
  /-- RPT_SHOCK_EVENT (R325): A SHOCK event report reaches the Rind dies. -/
  | rptShockEvent (g : Nat) (ms : Nat)
  /-- RPT_SPINDLE (R389): A spindle report with speed, ceiling, VMOT and HDA estimate reaches the Rind dies. -/
  | rptSpindle (w0 w1 w2 w3 : Word)
  /-- RPT_CURD_MISMATCH (R505): A Curd mismatch report of duplicate copies reaches the Rind dies as a divergence. -/
  | rptCurdMismatch (g : Nat) (cls : Nat) (slot : RSlot) (eseq : Nat)
  /-- RPT_DIE_REPORT (R522): A Curd die report with temperature and readers reaches the Rind dies. -/
  | rptDieReport (g : Nat) (w0 : Word)
  /-- RPT_FAULT (R544): A Curd fault event report reaches the Rind collector, which applies severity and counting. -/
  | rptFault (g : Nat) (w0 w1 : Word)
  /-- CURD_DIE_REPORT_TIMER (R522): Every 10 ms a Curd die sends its die report. -/
  | curdDieReportTimer (g : Nat)
  /-- SPINDLE_REPORT_TIMER (R389): Every 10 ms, and at each state change, the keeper sends a spindle report. -/
  | spindleReportTimer
  /-- SPINDLE_SETPOINT (R378): A CTRL set-point with CTLOP 0x51 is rounded and applied as the spindle target. -/
  | spindleSetpoint (src : RSlot) (m : Msg)
  /-- GROUP_ORDER (R532): A CTRL group order with CTLOP 0x52 sets the reader count, ACTIVE and SEEKPCT of a group. -/
  | groupOrder (g : Nat) (src : RSlot) (m : Msg)
  /-- END_RUNS (R551): A CTRL message with CTLOP 0x53 ends every run of the named ESEQ and reports refused. -/
  | endRuns (g : Nat) (src : RSlot) (m : Msg)
  /-- RETRACT_ORDER (R352): A retract order in a CTRL message drives RET_N low. -/
  | retractOrder (g : Nat)
  /-- CURD_SETUP_ACCESS (R118): A set-up access to a Curd window arrives at the Curd die as a CTRL message and is answered. -/
  | curdSetupAccess (d : RSlot) (g : Nat) (isWrite : Bool) (off : Nat) (v : Word)
  /-- LEASE (R507): A LEASE message installs a lease record at the same or higher epoch. -/
  | lease (g : Nat) (src : RSlot) (w0 epoch : Nat)
  /-- LEASE_CONFIRM (R507): A CONFIRM message is answered granted if its sender holds the lease at that epoch. -/
  | leaseConfirm (g : Nat) (sender : RSlot) (epoch : Nat)
  /-- LEASE_CLAIM (R507): A CLAIM message is granted if the link to the holder is silent and the epoch is the next one. -/
  | leaseClaim (g : Nat) (sender : RSlot) (epoch : Nat)
  /-- LEASE_KEEPALIVE (R507): Each unfenced Rind die sends KEEPALIVE to every Curd die every 100 µs. -/
  | leaseKeepalive (d : RSlot)
  /-- LEASE_ANSWER (R507): A Curd ANSWER reaches a Rind die, which counts grants toward a quorum. -/
  | leaseAnswer (d : RSlot) (g : Nat) (w0 epoch : Nat)
  /-- CURD_LINK_SILENT (R507): No message for 1 ms on a Curd die's link to a Rind die makes that link silent. -/
  | curdLinkSilent (g : Nat) (d : RSlot)
  /-- SYNTH_LOCK (R312): The synthesiser reaches lock after a retune. -/
  | synthLock (g : Nat)
  /-- SYNTH_LOCK_LOSS (R313): Synthesiser lock is lost and any open write gate is withdrawn. -/
  | synthLockLoss (g : Nat)
  /-- PA_FAULT (R321): PA_FLT_N falls; a write gate is withdrawn and PAFLT is read and raised. -/
  | paFault (g : Nat) (paflt : Nat)
  /-- PA_FAULT_PERSIST (R321): PA_FLT_N low for 1 ms stops new writes on the group. -/
  | paFaultPersist (g : Nat)
  /-- PA_FAULT_CLEAR (R321): PA_FLT_N high for 10 ms and a fresh INIT let writing resume. -/
  | paFaultClear (g : Nat)
  /-- PREAMP_WRITE_FRAME (R312): A preamplifier write frame is sent over the preamplifier port. -/
  | preampWriteFrame (g addr val : Nat)
  /-- PREAMP_READ_FRAME (R312): A preamplifier read frame returns a register value. -/
  | preampReadFrame (g addr val : Nat)
  /-- WEDGE_SAMPLE (R336): At the servo sample of a wedge the estimator, outer loop and microactuator path run. -/
  | wedgeSample (g : Nat) (w : Wedge)
  /-- INNER_LOOP_INSTANT (R336): At each inner-loop instant the current is sampled and an ACT demand frame sent. -/
  | innerLoopInstant (g j : Nat) (isns : Int) (lat40ns : Nat)
  /-- SERVO_TARGET_REQUEST (R346): A target request starts or restarts a seek plan. -/
  | servoTargetRequest (g surf track : Nat)
  /-- SERVO_STATUS_READ (R470): A servo status request returns the servo state to the formatter. -/
  | servoStatusRead (g : Nat)
  /-- LOAD_START (R345): A command needs the group and the cause has cleared; RET_N rises and the arm leaves the ramp. -/
  | loadStart (g : Nat)
  /-- LOAD_TIMEOUT (R345): No four good wedges within LOADTO fails the load and retracts for RETHOLD. -/
  | loadTimeout (g : Nat)
  /-- LOAD_STABLE (R354): 10 s of loaded operation with no servo loss ends a run of load failures. -/
  | loadStable (g : Nat)
  /-- RETRACT_HOLD_EXPIRE (R353): RET_N has been low for RETHOLD and a load may start. -/
  | retractHoldExpire (g : Nat)
  /-- UNLOAD (R351): A normal unload seeks to track 0 and drives the arm onto the ramp. -/
  | unload (g : Nat)
  /-- UNLOAD_COMPLETE (R351): The arm rests against the stop or 50 ms pass; a disable frame is sent and RET_N goes low. -/
  | unloadComplete (g : Nat)
  /-- LINK_ABSENT_UNLOAD (R351): A Curd die with no Finvik link up for 10 ms unloads its actuator. -/
  | linkAbsentUnload (g : Nat)
  /-- PRESS_HEARTBEAT_LOSS (R352): No Press heartbeat for 100 µs while RET_N is high makes the island retract. -/
  | pressHeartbeatLoss (g : Nat)
  /-- PWM_VALLEY (R366): At each PWM valley currents and VMOT are converted, the observer and current loop run and new duties are set. -/
  | pwmValley (v : Valley)
  /-- OVERVOLTAGE_RELEASE (R388): VMOT below VBRK1 for 10 ms releases the overvoltage latch and a start decision follows. -/
  | overvoltageRelease
  /-- SPEED_LOOP_TICK (R367): Every millisecond the speed loop moves its reference toward the target and sets the q current reference. -/
  | speedLoopTick
  /-- RESISTANCE_MEASURED (R369): The three line-to-line resistances are measured at rest and the HDA temperature estimated. -/
  | resistanceMeasured (rab rbc rca : Nat)
  /-- HDA_REESTIMATE (R371): Every 10 s at steady speed the keeper re-estimates resistance and HDA temperature. -/
  | hdaReestimate (rphase : Nat)
  /-- COOK_PAIR_CHANGE (R372): Every 10 s of cooking the winding pair carrying current changes. -/
  | cookPairChange (rmeas : Nat)
  /-- COOK_CHECK (R372): Every 30 s of cooking the current stops for a resistance check; cooking ends when the estimate reaches TSTART. -/
  | cookCheck (rab rbc rca : Nat)
  /-- COOK_TIMEOUT (R373): Cooking time reaches COOKMAX and the start proceeds whatever the estimate. -/
  | cookTimeout
  /-- START_DECISION (R374): The keeper floats the phases for 2 ms to decide between catch, coast and standstill start. -/
  | startDecision
  /-- CHOPPER_TEST (R385): Three BRK pulses test the chopper and set or clear CHOPOK. -/
  | chopperTest (dips rets : List Nat)
  /-- FLOAT_END (R374): The 2 ms float ends and the observed rotor state selects the action. -/
  | floatEnd
  /-- COAST_DONE (R374): The back-EMF has stayed below the floor for 100 ms and a standstill start follows. -/
  | coastDone
  /-- POSITION_SENSED (R375): Six sensing pulses give the magnet axis and the open-loop ramp begins. -/
  | positionSensed (rises : List Nat)
  /-- HANDOVER_TIMEOUT (R376): No hand-over 0.5 s after 240 rpm fails the attempt, or FAILED after three. -/
  | handoverTimeout
  /-- OVERCURRENT (R383): A phase current above 1.25 × ILIM switches the outputs off for the period; three in 10 ms turn the bridge off. -/
  | overcurrent
  /-- VMOT_UNDERVOLTAGE (R383): VMOT below VMOTUV for 1 ms turns the bridge off and sets VMOTLOW. -/
  | vmotUndervoltage
  /-- VMOT_RECOVERED (R383): VMOT at VMOTUV + 1 V for 10 ms lets a start decision follow. -/
  | vmotRecovered
  /-- SPIN_HEARTBEAT_LOSS (R383): No keeper heartbeat for 100 µs while a gate output is driven makes the C0 island hold the gates low. -/
  | spinHeartbeatLoss
  /-- BMEM_READ_COMPLETE (R396): A DRAM burst read returns and each codeword is decoded clean, corrected or poisoned. -/
  | bmemReadComplete (d : RSlot) (cw : Nat) (syms : List Byte)
  /-- MARK_WINDOW_EXPIRE (R398): A marking window of WINMS ms ends and device counts restart. -/
  | markWindowExpire (d : RSlot) (c : Nat)
  /-- MERGE_AGE_EXPIRE (R403): A merge entry older than HOLDNS is written out by read-modify-write. -/
  | mergeAgeExpire (d : RSlot) (cw : Nat)
  /-- REFRESH_DUE (R410): A bank set owes a refresh each tREFI; it is issued when idle or forced at the fifth. -/
  | refreshDue (d : RSlot) (c set : Nat)
  /-- REFRESH_RATE_POLL (R411): Every 10 ms the devices' refresh rate indication sets tREFI for the channel. -/
  | refreshRatePoll (d : RSlot) (c : Nat) (hot : List Bool)
  /-- DRAM_ALERT (R412): A CA parity alert on ALERT_N replays the commands since the last good one. -/
  | dramAlert (d : RSlot) (c : Nat)
  /-- PAGE_IDLE (R408): A bank idle for IDLE ns is precharged. -/
  | pageIdle (d : RSlot) (c bank : Nat)
  /-- ALLOC (R421): A Vat ALLOC takes a buffer from a pool, queues, or is refused. -/
  | alloc (owner size : Nat) (promote wait : Bool)
  /-- SHARE (R425): A Vat SHARE adds a holding and may rename the last owner. -/
  | share (owner : Nat) (handle : Word) (rename : Bool)
  /-- RELEASE (R425): A Vat RELEASE removes a holding that is not the last owner's. -/
  | release (owner : Nat) (handle : Word)
  /-- FREE (R422): A Vat FREE returns a buffer to its pool or to the oldest eligible waiter. -/
  | free (owner : Nat) (handle : Word)
  /-- CANCEL (R423): A Vat CANCEL withdraws a waiting ALLOC. -/
  | cancel (owner ticket : Nat)
  /-- CAVE_READ (R430): A buffer memory read is looked up in the Cave and served or filled. -/
  | caveRead (d : RSlot) (who : AccWho) (addr : Nat) (noalloc : Bool)
  /-- CAVE_WRITE (R430): A buffer memory write is merged, allocated or passed to the controller. -/
  | caveWrite (d : RSlot) (who : AccWho) (addr : Nat) (data : List Byte)
  /-- CAVE_FILL_COMPLETE (R430): A line fill returns from buffer memory and is allocated or delivered poisoned. -/
  | caveFillComplete (d : RSlot) (line : Nat)
  /-- EVICTION_DRAIN (R435): An eviction buffer entry is written to buffer memory in entry order. -/
  | evictionDrain (d : RSlot)
  /-- LADLE_SHADOW_WRITE (R472): An engine writes descriptor words into a Ladle channel's shadow set. -/
  | ladleShadowWrite (d : RSlot) (eng ch pair : Nat) (v : BitVec 64)
  /-- LADLE_ARM (R453): An engine arms a channel's shadow set, which is copied at the next descriptor boundary. -/
  | ladleArm (d : RSlot) (eng ch : Nat)
  /-- LADLE_READ_STATE (R472): An engine reads a Ladle channel's state into its latch. -/
  | ladleReadState (d : RSlot) (eng ch : Nat)
  /-- SGL_ENTRY_FETCH (R451): A 64-byte read of scatter/gather list entries returns. -/
  | sglEntryFetch (d : RSlot) (ch : Nat) (block : List Byte)
  /-- LADLE_READ_DATA (R455): A host data read answers and its bytes are written to buffer memory and acknowledged. -/
  | ladleReadData (d : RSlot) (ch : Nat) (data : List Byte)
  /-- LADLE_DESCRIPTOR_END (R454): A channel finishes a descriptor and raises its event on EVTGT. -/
  | ladleDescriptorEnd (d : RSlot) (ch : Nat)
  /-- LADLE_BUS_ERROR (R457): A Ladle host read unanswered within the completion timeout stops all 32 channels. -/
  | ladleBusError (d : RSlot) (ch : Nat)
  /-- ISOLATION_PASS (R458): The recovery culture restarts the stopped channels one at a time to find the culprit. -/
  | isolationPass (d : RSlot) (skip : Bool)
  /-- NEXT (R466): A microword with NAC NEXT executes and falls through to PC + 1. -/
  | next (e : Eng)
  /-- JUMP (R466): A microword with NAC JUMP goes to NADDR. -/
  | jump (e : Eng)
  /-- BRANCH (R466): A microword with NAC BRANCH goes to NADDR if its condition holds. -/
  | branch (e : Eng)
  /-- CALL (R466): A microword with NAC CALL pushes PC + 1 and goes to NADDR. -/
  | call (e : Eng)
  /-- CALLC (R466): A microword with NAC CALLC calls NADDR if its condition holds. -/
  | callc (e : Eng)
  /-- RETURN (R466): A microword with NAC RETURN pops the call stack. -/
  | returnOp (e : Eng)
  /-- LOOP (R466): A microword with NAC LOOP decrements the loop counter and branches while it is not 0. -/
  | loop (e : Eng)
  /-- DISPATCH (R466): A microword with NAC DISPATCH goes to NADDR plus SRCA mod 16. -/
  | dispatch (e : Eng)
  /-- WAIT (R488): A microword with NAC WAIT holds until an event of a permitted class is queued. -/
  | waitOp (e : Eng)
  /-- END (R466): A microword with NAC END ends the routine and enters the dispatch vector. -/
  | endOp (e : Eng)
  /-- EVENT_POST (R487): An event of some class is queued at a culture engine. -/
  | eventPost (e : Eng) (cls : Nat) (data : BitVec 64)
  /-- RESPONSE_ARRIVAL (R469): A request port's response arrives in its latch and a waiting word proceeds. -/
  | responseArrival (e : Eng) (p : RespPort) (v : BitVec 64) (ok drained poisoned queued : Bool)
  /-- ENGINE_TIMER_EXPIRE (R487): An engine timer started by TMROP expires and posts a class 3 event. -/
  | engineTimerExpire (e : Eng)
  /-- ROUTINE_TIMEOUT (R485): The routine timer reaches RTOMS and causes a synchronous fault. -/
  | routineTimeout (e : Eng)
  /-- MEM_LOAD (R473): MEMOP load reads 8 bytes of buffer memory into the memory latch. -/
  | memLoad (e : Eng) (addr : Nat)
  /-- MEM_STORE (R473): MEMOP store writes 8 bytes to buffer memory. -/
  | memStore (e : Eng) (addr : Nat) (v : BitVec 64)
  /-- MAILBOX_POST (R470): An engine posts a value to another engine's mailbox as a class 6 event. -/
  | mailboxPost (d : RSlot) (target : Nat) (v : BitVec 64)
  /-- FINVIK_OPEN (R470): An engine opens a Finvik message to a slot and class. -/
  | finvikOpen (e : Eng) (v : BitVec 64)
  /-- FINVIK_APPEND (R470): An engine appends two words to an open Finvik message. -/
  | finvikAppend (e : Eng) (v : BitVec 64)
  /-- FINVIK_CLOSE (R470): An engine closes and sends a Finvik message. -/
  | finvikClose (e : Eng)
  /-- READ_COMMAND_RECORD (R470): The port engine returns a command record to an engine. -/
  | readCommandRecord (d : RSlot) (eng port tag : Nat)
  /-- GENERATE_COMPLETION (R470): The port engine generates a completion entry for a command. -/
  | generateCompletion (port tag : Nat)
  /-- TAKE_MEDIA_OPERATION (R208): The scheduler gives the next media operation of a group by age, class and access time. -/
  | takeMediaOperation (g : Nat) (times : List Nat)
  /-- RELEASE_HAZARD (R470): The scheduler releases a hazard held by a command. -/
  | releaseHazard (port tag : Nat)
  /-- XLAT_LOOKUP (R470): The translation engine looks up the media location of a block. -/
  | xlatLookup (eng vol blk : Nat)
  /-- XLAT_APPLY_CHANGE (R248): The translation engine applies a table change and journals it. -/
  | xlatApplyChange (c : TableChange)
  /-- CAVE_MAINT_START (R470): An engine starts a Cave maintenance operation. -/
  | caveMaintStart (d : RSlot) (op : Nat) (spareLocked : Bool)
  /-- STEP_STATE_READ (R470): The step interface returns the step state to an engine. -/
  | stepStateRead (d : RSlot) (eng : Nat)
  /-- BUDGET_READ (R470): The budget manager returns its decisions to an engine. -/
  | budgetRead (d : RSlot) (eng : Nat)
  /-- VAULT_RUNG_START (R282): The formatter asks the read channel to start a vault rung or re-decode. -/
  | vaultRungStart (g idx rung : Nat)
  /-- READ_OUTCOME (R470): The read channel returns a sector outcome to the formatter. -/
  | readOutcome (g pos : Nat)
  /-- STEP_MESSAGE (R494): A STEP message with entries or proposals and HELD arrives from the peer. -/
  | stepMessage (d : RSlot) (m : StepMsg)
  /-- STEP_PROCESS (R496): A die processes the next held step in ascending order. -/
  | stepProcess (d : RSlot)
  /-- FWD_MESSAGE (R495): A FWD message carrying a store, set-up write or relayed content arrives. -/
  | fwdMessage (d : RSlot) (lseq : Nat) (c : FwdBody)
  /-- CONTENT_REQUEST (R495): The junior lacks its own copy 20 µs after the entry and asks the senior for the content. -/
  | contentRequest (k : Nat)
  /-- DIGEST_BLOCK_CLOSE (R499): After 256 steps or CLOSEUS the senior closes a digest block. -/
  | digestBlockClose
  /-- DIGEST_MESSAGE (R500): A peer DIGEST message arrives and the two digests are compared. -/
  | digestMessage (d : RSlot) (block : Nat) (digest : BitVec 64) (flags : Nat)
  /-- DIGEST_OVERDUE (R500): A peer digest not arrived DIGTO after the die's own is a divergence. -/
  | digestOverdue (d : RSlot) (block : Nat)
  /-- TURNING (R509): Every TURNMIN minutes the senior proposes a turning step and the roles exchange. -/
  | turning
  /-- CLAIM_RETRY (R512): After a split the non-holder sends CLAIM 2 ms after the loss and every 1 ms. -/
  | claimRetry (d : RSlot)
  /-- SPLIT_DEADLINE (R512): A die without a quorum 20 ms after the step link loss fences. -/
  | splitDeadline (d : RSlot)
  /-- SPLIT_REINIT (R512): If neither die continues 25 ms after the loss, every actuator retracts and the device re-initialises. -/
  | splitReinit
  /-- COPY_MESSAGE (R516): A COPY message of buffer memory is applied in order by the resync target. -/
  | copyMessage (d : RSlot) (addr : Nat) (data : List Byte) (poison : Bool)
  /-- RESYNC_COPY_DONE (R516): The resync copy cursor reaches the top and the server stops proposing steps. -/
  | resyncCopyDone
  /-- RESYNC_STATE_COPY (R516): The server copies block, store, tally and step state and both dies resume in step. -/
  | resyncStateCopy
  /-- BUDGET_CYCLE (R529): Every 10 ms the budget manager sets level, VCORE target, readers, actuators, spindle target and weights. -/
  | budgetCycle
  /-- BUDGET_INPUT_WRITE (R521): Every 10 ms an island writes VIN and its temperature into BUDGET_IN as a forwarded write. -/
  | budgetInputWrite (d : RSlot)
  /-- DIODE_SAMPLE (R527): Every 1 ms an island reads its die's diode. -/
  | diodeSample (die : Die) (deciC : Int)
  /-- CURD_REPORT_MISSING (R523): A Curd die report missing for 50 ms counts the die at its throttle threshold. -/
  | curdReportMissing (g : Nat)
  /-- GRACE_EXPIRE (R538): The throttle grace reaches 0 and admission weights are enforced at depth 1. -/
  | graceExpire
  /-- THROTTLE_DEPTH_TICK (R538): Each second of enforcement the depth rises if the die is not cooling. -/
  | throttleDepthTick
  /-- ACTIVE_GROUP_RECHOOSE (R533): Every 500 ms the active groups are chosen again under ACTLIM. -/
  | activeGroupRechoose
  /-- SPINDLE_RAISE_WAIT (R536): Work other than appends has waited RAISEMS and the spindle target is raised to 7,200 rpm. -/
  | spindleRaiseWait
  /-- RAISE_HOLD_EXPIRE (R536): HOLDS seconds with no such work withdraw the raise. -/
  | raiseHoldExpire
  /-- FAULT_RAISE (R542): A fault source raises an event, which is counted, logged and acted on at its severity. -/
  | faultRaise (d : RSlot) (src : Nat) (detail : Nat)
  /-- COUNT_WINDOW_EXPIRE (R545): A counted source's window ends, or W ms pass with no event and the severity returns to Note. -/
  | countWindowExpire (d : RSlot) (src : Nat) (quiet : Bool)
  /-- QUIET_EXPIRE (R546): QUIET seconds pass with no Degrade or Fatal event and the device leaves the fault state. -/
  | quietExpire
  /-- WRITE_OUT_TIMEOUT (R223): The 30 s write-out before re-initialisation ends and unwritten versions are lost. -/
  | writeOutTimeout
  /-- CLOSEOUT_TIMEOUT (R555): 10 s with no completion written ends the close-out and raises source 0x0C8. -/
  | closeoutTimeout
  /-- LOG_RECORD_PROGRAMMED (R559): A staged log record is programmed and read back, or reprogrammed, or dropped after three failures. -/
  | logRecordProgrammed (good : Bool)
  /-- LOG_SECTOR_ERASED (R559): A victim or reserve sector of the log ring finishes its erase. -/
  | logSectorErased
  /-- LOG_SCAN_DONE (R559): The power-on scan of the log region rebuilds the summary, RSEQ and PCYC. -/
  | logScanDone (d : RSlot)
  /-- LOG_WRITER_TAKEOVER (R559): The other island takes the flash bus and the log writer role when the writer stops. -/
  | logWriterTakeover
  /-- OPERATING_MARK (R562): Every MARKMIN minutes a Note record of source 0x0C4 is raised. -/
  | operatingMark (d : RSlot)
  /-- TALLY_SNAPSHOT (R566): The core writes a consistent ledger snapshot into the island copy. -/
  | tallySnapshot (d : RSlot)
  /-- TALLY_CHECK (R567): The ledgers are checked against their invariants. -/
  | tallyCheck (d : RSlot)
  /-- SHOCK_RELEASE (R323): SHOCK returns to its inactive level, starting the HOLDUS write hold and ending the SHOCK stuck timing. -/
  | shockRelease
  /-- PA_FLT_N_RISE (R321): PA_FLT_N returns high, starting the 10 ms period after which a fresh INIT lets writing resume. -/
  | paFltNRise (g : Nat)
  /-- RAIL_RECOVERED (R383): VCORE or VANA returns above its monitor threshold after a low, so the die can be re-initialised and the bridge returned. -/
  | railRecovered (g : Nat)
  deriving DecidableEq, Repr

end Sys2Proof
end

