-- ==== Sys2Proof/Config.lean ====
section
/-! DEFINITION. What the spec leaves open and the model leaves free: constants without a body, so that no proof can see a value. Each is
named in a row of the assumption log. -/

namespace Sys2Proof

/-- A value the spec does not give, numbered by the counter State.free: the n-th use of an open value. -/
opaque Config.freeNat : Nat → Nat

/-- An open value that the operands determine: a tag for the computation, and its operands. -/
opaque Config.openNat : Nat → List Nat → Nat

/-- An open signed value that the operands determine. -/
opaque Config.openInt : Nat → List Int → Int

end Sys2Proof
end

