-- ==== Sys2Proof/Machine/RegMap.lean ====
section
/-! DEFINITION. The register map of the set-up space (R41, R75, R100, R121, R127, R161, R225, R260, R300, R326, R359, R360, R390, R414,
R446, R447, R461, R491, R519, R520, R540, R568, R572 to R579): every register's place, fields, access codes and reset values, and a name
for every field. The key of a register is its die's slot code of R24 times 0x100_0000 plus its offset: in the set-up space for a Rind
die, in its 1 MiB window for a Curd die. -/

namespace Sys2Proof.Machine

/-- Access codes of the register tables. -/
inductive Acc where
  /-- Read-only. -/
  | ro
  /-- Read-write. -/
  | rw
  /-- A counter cleared by a read. -/
  | rc
  /-- Write-only: reads 0. -/
  | wo
  /-- Cleared by writing 1. -/
  | w1c
  deriving DecidableEq, Repr

/-- What a written field is stored as, from the notes of the register tables. -/
inductive Clamp where
  /-- Stored as written. -/
  | none
  /-- Values outside the range are stored as the nearer limit. -/
  | range (lo hi : Nat)
  /-- Values above the limit are stored as 0. -/
  | zeroAbove (hi : Nat)
  /-- Signed, within plus or minus the limit. -/
  | srange (m : Nat)
  /-- Bit 0 is stored as 1 (CHAN_LADDER.EN). -/
  | setBit0
  /-- Stored as 0 in F1 parts (R110, LINK_DOMCFG.ONF1). -/
  | f2only
  /-- SPIN_LIM.ILIM: 100 mA to 0.8 of the full-scale current. -/
  | ilim
  /-- BUDGET_CAP.PCAP: 5.0 W to the ceiling of R3. -/
  | pcap
  /-- BUDGET_WAT.LOWAT: below HIWAT, a higher value is stored as HIWAT - 1. -/
  | belowHi
  deriving DecidableEq, Repr

/-- A named field of a register: the offset of its register and its bits. -/
structure Fld where
  off : Nat
  hi : Nat
  lo : Nat
  deriving DecidableEq, Repr

/-- One field of a register's table. -/
structure FieldDef where
  hi : Nat
  lo : Nat
  acc : Acc
  reset : Nat
  clamp : Clamp
  deriving DecidableEq, Repr

/-- One row of the register map: the first offset, the strides and counts of an array of registers, and the fields. -/
structure RegDef where
  base : Nat
  dims : List (Nat × Nat)
  fields : List FieldDef
  deriving DecidableEq, Repr

/-- The registers of the CDIE block. -/
def mapCDIE : List RegDef := [
  /- CDIE_LEASE -/ ⟨0x300, [], [⟨31, 31, .ro, 0x0, .none⟩, ⟨30, 30, .ro, 0x0, .none⟩, ⟨29, 29, .ro, 0x0, .none⟩, ⟨28, 28, .ro, 0x0, .none⟩]⟩,
  /- CDIE_EPOCH -/ ⟨0x304, [], [⟨31, 0, .ro, 0x0, .none⟩]⟩,
  /- CDIE_WHEY -/ ⟨0x308, [], [⟨31, 0, .rc, 0x0, .none⟩]⟩,
  /- CDIE_STEPCNT -/ ⟨0x30C, [], [⟨31, 16, .rc, 0x0, .none⟩, ⟨15, 0, .rc, 0x0, .none⟩]⟩,
  /- CDIE_STALLCNT -/ ⟨0x140, [], [⟨31, 0, .rc, 0x0, .none⟩]⟩,
  /- CDIE_STALLLIM -/ ⟨0x8100, [], [⟨7, 0, .rw, 0xA, .range 1 255⟩]⟩,
  /- CDIE_SHOCK -/ ⟨0x8104, [], [⟨0, 0, .ro, 0x0, .none⟩]⟩,
  /- CDIE_TRACE -/ ⟨0x1000, [(16, 256), (4, 4)], [⟨31, 0, .ro, 0x0, .none⟩]⟩,
  /- CDIE_FCENG -/ ⟨0x200, [], [⟨31, 30, .ro, 0x3, .none⟩, ⟨29, 16, .ro, 0x0, .none⟩, ⟨13, 0, .ro, 0x0, .none⟩]⟩,
  /- CDIE_FCCNT -/ ⟨0x204, [], [⟨31, 24, .rc, 0x0, .none⟩, ⟨23, 16, .rc, 0x0, .none⟩, ⟨4, 0, .ro, 0x0, .none⟩]⟩,
  /- CDIE_FCSTORE -/ ⟨0x208, [], [⟨31, 16, .rc, 0x0, .none⟩, ⟨0, 0, .ro, 0x0, .none⟩]⟩,
  /- CDIE_FCSFAULT -/ ⟨0x20C, [], [⟨31, 28, .ro, 0x0, .none⟩, ⟨26, 24, .ro, 0x0, .none⟩, ⟨11, 0, .ro, 0x0, .none⟩]⟩,
  /- CDIE_FCTRACECTL -/ ⟨0x210, [], [⟨31, 31, .rw, 0x0, .none⟩, ⟨30, 30, .rw, 0x0, .none⟩, ⟨29, 29, .rw, 0x0, .none⟩, ⟨0, 0, .rw, 0x1, .none⟩]⟩,
  /- CDIE_FCTRACEPTR -/ ⟨0x214, [], [⟨31, 31, .ro, 0x0, .none⟩, ⟨7, 0, .ro, 0x0, .none⟩]⟩,
  /- CDIE_FCCSADDR -/ ⟨0x220, [], [⟨11, 0, .rw, 0x0, .none⟩]⟩,
  /- CDIE_FCCSDATA -/ ⟨0x224, [(4, 5)], [⟨31, 0, .ro, 0x0, .none⟩]⟩,
  /- CDIE_FCCFG -/ ⟨0x8200, [], [⟨31, 16, .rw, 0xA, .range 1 65535⟩, ⟨3, 0, .rw, 0x3, .range 1 15⟩]⟩]

/-- The registers of the CHAN block. -/
def mapCHAN : List RegDef := [
  /- CHAN_STAT -/ ⟨0x10000, [], [⟨15, 11, .ro, 0x0, .none⟩, ⟨10, 9, .ro, 0x0, .none⟩, ⟨8, 6, .ro, 0x0, .none⟩, ⟨5, 4, .ro, 0x0, .none⟩, ⟨3, 3, .ro, 0x0, .none⟩]⟩,
  /- CHAN_VSTAT -/ ⟨0x10004, [], [⟨13, 8, .ro, 0x0, .none⟩, ⟨7, 4, .ro, 0x0, .none⟩]⟩,
  /- CHAN_RUNGCNT -/ ⟨0x10010, [(4, 8)], [⟨31, 0, .rc, 0x0, .none⟩]⟩,
  /- CHAN_FAILCNT -/ ⟨0x10030, [], [⟨31, 16, .rc, 0x0, .none⟩, ⟨15, 0, .rc, 0x0, .none⟩]⟩,
  /- CHAN_REBUILD -/ ⟨0x10034, [], [⟨31, 16, .rc, 0x0, .none⟩, ⟨15, 0, .rc, 0x0, .none⟩]⟩,
  /- CHAN_SLIPCNT -/ ⟨0x10038, [], [⟨31, 16, .rc, 0x0, .none⟩, ⟨15, 0, .rc, 0x0, .none⟩]⟩,
  /- CHAN_LASTFAIL_LO -/ ⟨0x10040, [], [⟨31, 0, .ro, 0x0, .none⟩]⟩,
  /- CHAN_LASTFAIL_HI -/ ⟨0x10044, [], [⟨25, 24, .ro, 0x0, .none⟩, ⟨9, 0, .ro, 0x0, .none⟩]⟩,
  /- CHAN_SYNC -/ ⟨0x18000, [], [⟨7, 4, .rw, 0x6, .none⟩, ⟨3, 0, .rw, 0x4, .none⟩]⟩,
  /- CHAN_SLIP -/ ⟨0x18004, [], [⟨15, 12, .rw, 0x8, .range 1 8⟩, ⟨11, 0, .rw, 0x578, .range 1 3936⟩]⟩,
  /- CHAN_LDPC -/ ⟨0x18008, [], [⟨19, 16, .rw, 0x4, .range 1 8⟩, ⟨15, 8, .rw, 0x3C, .range 1 255⟩, ⟨7, 0, .rw, 0xC, .range 1 24⟩]⟩,
  /- CHAN_LADDER -/ ⟨0x1800C, [], [⟨23, 16, .rw, 0x10, .range 1 64⟩, ⟨15, 12, .rw, 0x8, .none⟩, ⟨7, 0, .rw, 0xFF, .setBit0⟩]⟩,
  /- CHAN_TA -/ ⟨0x18010, [], [⟨15, 8, .rw, 0x30, .range 1 63⟩, ⟨7, 0, .rw, 0x40, .none⟩]⟩,
  /- CHAN_TRCFG -/ ⟨0x18014, [], [⟨15, 12, .rw, 0x6, .range 2 12⟩, ⟨11, 8, .rw, 0x9, .range 2 12⟩, ⟨7, 0, .rw, 0x40, .range 16 112⟩]⟩,
  /- CHAN_ALTEQ -/ ⟨0x18020, [(4, 4)], [⟨15, 15, .rw, 0x1, .none⟩, ⟨14, 14, .rw, 0x1, .none⟩, ⟨13, 8, .rw, 0x0, .none⟩, ⟨7, 4, .rw, 0x0, .none⟩, ⟨3, 0, .rw, 0x0, .none⟩]⟩]

/-- The registers of the FMT block. -/
def mapFMT : List RegDef := [
  /- FMT_STAT -/ ⟨0x20000, [], [⟨31, 29, .ro, 0x0, .none⟩, ⟨28, 24, .ro, 0x0, .none⟩, ⟨23, 22, .ro, 0x0, .none⟩, ⟨21, 16, .ro, 0x0, .none⟩, ⟨7, 7, .ro, 0x0, .none⟩, ⟨6, 6, .ro, 0x0, .none⟩, ⟨5, 5, .ro, 0x0, .none⟩, ⟨4, 4, .ro, 0x0, .none⟩, ⟨0, 0, .ro, 0x1, .none⟩]⟩,
  /- FMT_WRCNT -/ ⟨0x20010, [], [⟨31, 20, .rc, 0x0, .none⟩, ⟨19, 8, .rc, 0x0, .none⟩, ⟨7, 0, .rc, 0x0, .none⟩]⟩,
  /- FMT_SHOCKCNT -/ ⟨0x20014, [], [⟨31, 16, .rc, 0x0, .none⟩, ⟨15, 8, .rc, 0x0, .none⟩, ⟨7, 0, .rc, 0x0, .none⟩]⟩,
  /- FMT_PASTAT -/ ⟨0x20018, [], [⟨23, 16, .ro, 0x0, .none⟩, ⟨15, 0, .rc, 0x0, .none⟩]⟩,
  /- FMT_WRCFG -/ ⟨0x28000, [], [⟨31, 20, .rw, 0xC8, .none⟩, ⟨19, 12, .rw, 0x20, .none⟩, ⟨3, 0, .rw, 0x3, .range 1 15⟩]⟩,
  /- FMT_SHOCK -/ ⟨0x28004, [], [⟨31, 16, .rw, 0x1F4, .range 1 65535⟩, ⟨15, 8, .rw, 0x28, .none⟩, ⟨0, 0, .rw, 0x1, .none⟩]⟩]

/-- The registers of the SERVO block. -/
def mapSERVO : List RegDef := [
  /- SERVO_STAT -/ ⟨0x30000, [], [⟨31, 28, .ro, 0x0, .none⟩, ⟨27, 26, .ro, 0x0, .none⟩, ⟨25, 25, .ro, 0x0, .none⟩, ⟨24, 24, .ro, 0x0, .none⟩, ⟨23, 22, .ro, 0x0, .none⟩, ⟨21, 12, .ro, 0x0, .none⟩, ⟨11, 8, .ro, 0x0, .none⟩]⟩,
  /- SERVO_POS -/ ⟨0x30004, [], [⟨31, 8, .ro, 0x0, .none⟩, ⟨7, 0, .ro, 0x0, .none⟩]⟩,
  /- SERVO_PES -/ ⟨0x30008, [], [⟨23, 16, .ro, 0x0, .none⟩, ⟨15, 0, .ro, 0x0, .none⟩]⟩,
  /- SERVO_WCNT -/ ⟨0x30010, [], [⟨31, 16, .rc, 0x0, .none⟩, ⟨15, 0, .rc, 0x0, .none⟩]⟩,
  /- SERVO_ECNT -/ ⟨0x30014, [], [⟨31, 24, .rc, 0x0, .none⟩, ⟨23, 16, .rc, 0x0, .none⟩, ⟨15, 8, .rc, 0x0, .none⟩, ⟨7, 0, .rc, 0x0, .none⟩]⟩,
  /- SERVO_CFG -/ ⟨0x38000, [], [⟨26, 16, .rw, 0x200, .range 256 1024⟩, ⟨15, 12, .rw, 0x8, .range 2 15⟩, ⟨11, 0, .rw, 0x320, .range 200 1600⟩]⟩,
  /- SERVO_WIN -/ ⟨0x38004, [], [⟨15, 8, .rw, 0x10, .range 4 64⟩, ⟨7, 4, .rw, 0x2, .range 1 15⟩, ⟨3, 0, .rw, 0x4, .none⟩]⟩,
  /- SERVO_LIM -/ ⟨0x38008, [], [⟨31, 24, .rw, 0x26, .range 1 255⟩, ⟨23, 16, .rw, 0x1A, .range 1 255⟩, ⟨15, 8, .rw, 0x12, .range 1 255⟩, ⟨7, 4, .rw, 0x2, .range 1 15⟩, ⟨3, 0, .rw, 0x3, .range 1 15⟩]⟩,
  /- SERVO_LOAD -/ ⟨0x3800C, [], [⟨31, 16, .rw, 0xC8, .range 10 65535⟩, ⟨15, 8, .rw, 0x14, .range 1 255⟩]⟩]

/-- The registers of the PRESS block. -/
def mapPRESS : List RegDef := [
  /- PRESS_STAT -/ ⟨0x40000, [], [⟨3, 3, .w1c, 0x0, .none⟩, ⟨2, 2, .w1c, 0x0, .none⟩, ⟨1, 1, .w1c, 0x0, .none⟩, ⟨0, 0, .w1c, 0x0, .none⟩]⟩,
  /- PRESS_IO -/ ⟨0x40004, [], [⟨31, 16, .ro, 0x0, .none⟩, ⟨15, 0, .ro, 0x0, .none⟩]⟩,
  /- PRESS_MA -/ ⟨0x40008, [], [⟨15, 0, .ro, 0x0, .none⟩]⟩,
  /- PRESS_LAT -/ ⟨0x4000C, [], [⟨7, 0, .rc, 0x0, .none⟩]⟩,
  /- PRESS_DRAIN -/ ⟨0x40010, [], [⟨15, 8, .rc, 0x0, .none⟩, ⟨7, 0, .rc, 0x0, .none⟩]⟩,
  /- PRESS_SEEK -/ ⟨0x48000, [], [⟨31, 16, .rw, 0x0, .range 1 65535⟩, ⟨15, 0, .rw, 0x0, .range 1 65535⟩]⟩,
  /- PRESS_SETTLE -/ ⟨0x48004, [], [⟨19, 8, .rw, 0x200, .range 1 4095⟩, ⟨3, 0, .rw, 0x2, .range 1 15⟩]⟩,
  /- PRESS_RAMP -/ ⟨0x48008, [], [⟨8, 0, .rw, 0x20, .range 4 256⟩]⟩,
  /- PRESS_IMAX -/ ⟨0x4800C, [], [⟨15, 0, .rw, 0x0, .range 1 32767⟩]⟩,
  /- PRESS_MASTROKE -/ ⟨0x48010, [], [⟨15, 0, .rw, 0x7000, .range 1 32767⟩]⟩,
  /- PRESS_BANK -/ ⟨0x48400, [(1024, 3), (4, 80)], [⟨15, 0, .rw, 0x0, .none⟩]⟩,
  /- PRESS_BANKR -/ ⟨0x48540, [(1024, 3), (4, 176)], []⟩,
  /- PRESS_SURF -/ ⟨0x49000, [(256, 4), (4, 64)], [⟨15, 0, .rw, 0x0, .none⟩]⟩]

/-- The registers of the SPIN block. -/
def mapSPIN : List RegDef := [
  /- SPIN_STAT -/ ⟨0x50000, [], [⟨31, 28, .ro, 0x0, .none⟩, ⟨27, 27, .ro, 0x0, .none⟩, ⟨26, 26, .ro, 0x0, .none⟩, ⟨25, 25, .ro, 0x0, .none⟩, ⟨24, 24, .ro, 0x0, .none⟩, ⟨23, 23, .ro, 0x0, .none⟩, ⟨22, 22, .ro, 0x0, .none⟩, ⟨21, 21, .ro, 0x0, .none⟩, ⟨20, 20, .ro, 0x0, .none⟩, ⟨15, 0, .ro, 0x0, .none⟩]⟩,
  /- SPIN_TARGET -/ ⟨0x50004, [], [⟨31, 16, .ro, 0x0, .none⟩, ⟨15, 0, .ro, 0x0, .none⟩]⟩,
  /- SPIN_CEIL -/ ⟨0x50008, [], [⟨31, 16, .ro, 0x1C20, .none⟩, ⟨9, 0, .ro, 0x0, .none⟩]⟩,
  /- SPIN_HDA -/ ⟨0x5000C, [], [⟨31, 16, .ro, 0x0, .none⟩, ⟨15, 15, .ro, 0x0, .none⟩, ⟨14, 14, .ro, 0x0, .none⟩, ⟨13, 0, .ro, 0x0, .none⟩]⟩,
  /- SPIN_RES -/ ⟨0x50010, [], [⟨31, 0, .ro, 0x0, .none⟩]⟩,
  /- SPIN_VMOT -/ ⟨0x50014, [], [⟨31, 16, .ro, 0x0, .none⟩, ⟨15, 0, .ro, 0x0, .none⟩]⟩,
  /- SPIN_CNT -/ ⟨0x50018, [], [⟨31, 16, .rc, 0x0, .none⟩, ⟨15, 8, .rc, 0x0, .none⟩, ⟨7, 0, .rc, 0x0, .none⟩]⟩,
  /- SPIN_EVT -/ ⟨0x5001C, [], [⟨31, 24, .rc, 0x0, .none⟩, ⟨23, 16, .rc, 0x0, .none⟩, ⟨15, 8, .rc, 0x0, .none⟩, ⟨7, 0, .rc, 0x0, .none⟩]⟩,
  /- SPIN_CFG -/ ⟨0x58000, [], [⟨31, 31, .rw, 0x0, .none⟩, ⟨9, 8, .ro, 0x0, .none⟩, ⟨7, 4, .ro, 0x0, .none⟩]⟩,
  /- SPIN_PWM -/ ⟨0x58004, [], [⟨31, 24, .rw, 0x0, .range 16 50⟩, ⟨23, 16, .rw, 0x0, .range 5 100⟩, ⟨15, 8, .rw, 0x28, .range 0 100⟩]⟩,
  /- SPIN_LIM -/ ⟨0x58008, [], [⟨31, 16, .rw, 0x0, .ilim⟩, ⟨15, 0, .rw, 0x0, .range 60 2000⟩]⟩,
  /- SPIN_VTHR1 -/ ⟨0x5800C, [], [⟨31, 16, .rw, 0x0, .none⟩, ⟨15, 0, .rw, 0x0, .none⟩]⟩,
  /- SPIN_VTHR2 -/ ⟨0x58010, [], [⟨31, 16, .rw, 0x0, .none⟩, ⟨15, 0, .rw, 0x0, .none⟩]⟩,
  /- SPIN_COOK -/ ⟨0x58014, [], [⟨31, 20, .rw, 0x0, .range 0 3600⟩, ⟨19, 12, .rw, 0x0, .range 1 250⟩, ⟨11, 0, .rw, 0x0, .srange 400⟩]⟩]

/-- The registers of the DEV block. -/
def mapDEV : List RegDef := [
  /- DEV_DIEPRES -/ ⟨0x10, [], [⟨13, 8, .ro, 0x0, .none⟩, ⟨1, 1, .ro, 0x0, .none⟩, ⟨0, 0, .ro, 0x0, .none⟩]⟩,
  /- DEV_FVSTAT -/ ⟨0x100, [(4, 7)], [⟨31, 24, .rc, 0x0, .none⟩, ⟨23, 8, .ro, 0x0, .none⟩, ⟨1, 0, .ro, 0x0, .none⟩]⟩,
  /- DEV_FVERR -/ ⟨0x120, [(4, 7)], [⟨31, 16, .rc, 0x0, .none⟩, ⟨15, 0, .rc, 0x0, .none⟩]⟩,
  /- DEV_STALLCNT -/ ⟨0x140, [], [⟨31, 0, .rc, 0x0, .none⟩]⟩,
  /- DEV_STALLLIM -/ ⟨0x8100, [], [⟨7, 0, .rw, 0xA, .range 1 255⟩]⟩,
  /- DEV_PINSTAT -/ ⟨0x30, [], [⟨15, 12, .ro, 0x0, .none⟩, ⟨7, 7, .ro, 0x1, .none⟩, ⟨6, 6, .ro, 0x0, .none⟩, ⟨5, 5, .ro, 0x0, .none⟩, ⟨4, 4, .ro, 0x0, .none⟩, ⟨3, 3, .ro, 0x0, .none⟩, ⟨2, 2, .ro, 0x0, .none⟩, ⟨1, 1, .ro, 0x0, .none⟩]⟩,
  /- DEV_ID -/ ⟨0x0, [], [⟨31, 16, .ro, 0x7630, .none⟩, ⟨15, 12, .ro, 0x0, .none⟩, ⟨11, 8, .ro, 0x0, .none⟩]⟩]

/-- The registers of the BOOT block. -/
def mapBOOT : List RegDef := [
  /- BOOT_STAT -/ ⟨0x10000, [], [⟨31, 28, .ro, 0x0, .none⟩, ⟨25, 24, .ro, 0x0, .none⟩, ⟨23, 16, .ro, 0x0, .none⟩, ⟨7, 6, .ro, 0x0, .none⟩, ⟨5, 5, .ro, 0x0, .none⟩, ⟨4, 4, .ro, 0x0, .none⟩, ⟨3, 3, .ro, 0x0, .none⟩, ⟨2, 2, .ro, 0x0, .none⟩, ⟨1, 1, .ro, 0x0, .none⟩, ⟨0, 0, .ro, 0x0, .none⟩]⟩,
  /- BOOT_FUSE -/ ⟨0x10004, [], [⟨15, 8, .ro, 0x0, .none⟩, ⟨2, 2, .ro, 0x0, .none⟩, ⟨1, 1, .ro, 0x0, .none⟩, ⟨0, 0, .ro, 0x0, .none⟩]⟩,
  /- BOOT_STARTTIME -/ ⟨0x10008, [], [⟨31, 0, .ro, 0x0, .none⟩]⟩,
  /- BOOT_RIDE: R99's values until record 0x0002 is loaded (R98 compares VIN with VSAG before that) -/
  ⟨0x18000, [], [⟨31, 24, .rw, 0x14, .range 1 255⟩, ⟨23, 12, .rw, 0x2BC, .range 450 3200⟩]⟩]

/-- The registers of the LINK block. -/
def mapLINK : List RegDef := [
  /- LINK_HEADSTAT -/ ⟨0x20000, [(4, 4)], [⟨15, 11, .ro, 0x0, .none⟩, ⟨10, 8, .ro, 0x0, .none⟩, ⟨7, 5, .ro, 0x0, .none⟩, ⟨4, 3, .ro, 0x0, .none⟩, ⟨2, 1, .ro, 0x0, .none⟩]⟩,
  /- LINK_DOMCFG -/ ⟨0x20100, [(16, 16)], [⟨31, 31, .rw, 0x0, .none⟩, ⟨30, 29, .rw, 0x0, .zeroAbove 2⟩, ⟨28, 28, .rw, 0x0, .f2only⟩, ⟨27, 24, .rw, 0x0, .none⟩, ⟨21, 20, .rw, 0x0, .none⟩, ⟨19, 19, .rw, 0x0, .f2only⟩, ⟨18, 18, .rw, 0x0, .none⟩]⟩,
  /- LINK_DOMWIN -/ ⟨0x20104, [(16, 16)], [⟨17, 16, .ro, 0x0, .none⟩, ⟨15, 8, .ro, 0x0, .none⟩, ⟨7, 0, .ro, 0x0, .none⟩]⟩,
  /- LINK_WINREF -/ ⟨0x20200, [], [⟨31, 0, .rc, 0x0, .none⟩]⟩,
  /- LINK_HEADCFG -/ ⟨0x28000, [(4, 4)], [⟨3, 2, .rw, 0x0, .zeroAbove 2⟩, ⟨1, 0, .rw, 0x0, .range 1 3⟩]⟩]

/-- The registers of the PORT block. -/
def mapPORT : List RegDef := [
  /- PORT_CFG -/ ⟨0x30000, [(64, 256)], [⟨31, 31, .rw, 0x0, .none⟩, ⟨30, 30, .rw, 0x0, .none⟩, ⟨27, 24, .rw, 0x0, .none⟩, ⟨19, 10, .rw, 0x0, .range 1 1000⟩, ⟨8, 8, .ro, 0x0, .none⟩]⟩,
  /- PORT_SQLO -/ ⟨0x30004, [(64, 256)], [⟨31, 6, .rw, 0x0, .none⟩]⟩,
  /- PORT_SQHI -/ ⟨0x30008, [(64, 256)], [⟨31, 0, .rw, 0x0, .none⟩]⟩,
  /- PORT_CQLO -/ ⟨0x3000C, [(64, 256)], [⟨31, 6, .rw, 0x0, .none⟩]⟩,
  /- PORT_CQHI -/ ⟨0x30010, [(64, 256)], [⟨31, 0, .rw, 0x0, .none⟩]⟩,
  /- PORT_DBLO -/ ⟨0x30014, [(64, 256)], [⟨31, 6, .rw, 0x0, .none⟩]⟩,
  /- PORT_DBHI -/ ⟨0x30018, [(64, 256)], [⟨31, 0, .rw, 0x0, .none⟩]⟩,
  /- PORT_SIZE -/ ⟨0x3001C, [(64, 256)], [⟨28, 16, .rw, 0x0, .none⟩, ⟨12, 0, .rw, 0x0, .none⟩]⟩,
  /- PORT_STAT -/ ⟨0x30024, [(64, 256)], [⟨31, 29, .ro, 0x0, .none⟩, ⟨28, 24, .ro, 0x0, .none⟩, ⟨23, 12, .ro, 0x0, .none⟩, ⟨11, 0, .ro, 0x0, .none⟩]⟩,
  /- PORT_CQSTAT -/ ⟨0x30028, [(64, 256)], [⟨31, 31, .ro, 0x1, .none⟩, ⟨30, 16, .ro, 0x0, .none⟩, ⟨11, 0, .ro, 0x0, .none⟩]⟩,
  /- PORT_SEQ -/ ⟨0x3002C, [(64, 256)], [⟨31, 0, .ro, 0x1, .none⟩]⟩,
  /- PORT_OUT -/ ⟨0x30030, [(64, 256)], [⟨27, 16, .ro, 0x0, .none⟩, ⟨14, 0, .ro, 0x0, .none⟩]⟩,
  /- PORT_DBCNT -/ ⟨0x30034, [(64, 256)], [⟨31, 16, .rc, 0x0, .none⟩, ⟨15, 0, .rc, 0x0, .none⟩]⟩,
  /- PORT_SLLO -/ ⟨0x34000, [(16, 16)], [⟨31, 6, .rw, 0x0, .none⟩, ⟨0, 0, .rw, 0x0, .none⟩]⟩,
  /- PORT_SLHI -/ ⟨0x34004, [(16, 16)], [⟨31, 0, .rw, 0x0, .none⟩]⟩,
  /- PORT_BACKSTOP -/ ⟨0x38000, [], [⟨9, 0, .rw, 0xA, .range 1 1000⟩]⟩,
  /- PORT_SCHED -/ ⟨0x30020, [(64, 256)], [⟨10, 8, .rw, 0x0, .zeroAbove 3⟩, ⟨7, 0, .rw, 0x0, .range 1 255⟩]⟩]

/-- The registers of the SCHED block. -/
def mapSCHED : List RegDef := [
  /- SCHED_CLASSW -/ ⟨0x40000, [], [⟨23, 16, .rw, 0x0, .range 1 255⟩, ⟨15, 8, .rw, 0x0, .range 1 255⟩, ⟨7, 0, .rw, 0x0, .range 1 255⟩]⟩,
  /- SCHED_ADMIT -/ ⟨0x40004, [], [⟨31, 31, .ro, 0x0, .none⟩, ⟨23, 16, .ro, 0x0, .none⟩, ⟨15, 8, .ro, 0x0, .none⟩, ⟨7, 0, .ro, 0x0, .none⟩]⟩,
  /- SCHED_STAT -/ ⟨0x40008, [], [⟨31, 16, .ro, 0x0, .none⟩, ⟨15, 0, .ro, 0x0, .none⟩]⟩,
  /- SCHED_DIRTY -/ ⟨0x4000C, [], [⟨31, 0, .ro, 0x0, .none⟩]⟩,
  /- SCHED_GRANT -/ ⟨0x40020, [(4, 5)], [⟨31, 0, .rc, 0x0, .none⟩]⟩,
  /- SCHED_CFG -/ ⟨0x48000, [], [⟨23, 8, .rw, 0xC8, .range 1 65535⟩, ⟨3, 0, .rw, 0x8, .range 1 8⟩]⟩]

/-- The registers of the XLAT block. -/
def mapXLAT : List RegDef := [
  /- XLAT_STAT -/ ⟨0x50000, [], [⟨31, 28, .ro, 0x0, .none⟩, ⟨27, 24, .ro, 0x0, .none⟩, ⟨23, 20, .ro, 0x0, .none⟩, ⟨19, 14, .ro, 0x0, .none⟩, ⟨13, 7, .ro, 0x0, .none⟩]⟩,
  /- XLAT_FREE -/ ⟨0x50010, [(4, 6)], [⟨31, 16, .ro, 0x0, .none⟩, ⟨15, 0, .ro, 0x0, .none⟩]⟩,
  /- XLAT_SPARE -/ ⟨0x50030, [(4, 6)], [⟨31, 16, .ro, 0x0, .none⟩, ⟨15, 0, .ro, 0x0, .none⟩]⟩,
  /- XLAT_REASSIGN -/ ⟨0x50050, [], [⟨20, 0, .ro, 0x0, .none⟩]⟩,
  /- XLAT_CLEANCNT -/ ⟨0x50054, [], [⟨31, 24, .rc, 0x0, .none⟩, ⟨23, 12, .rc, 0x0, .none⟩, ⟨11, 0, .rc, 0x0, .none⟩]⟩,
  /- XLAT_CLEANCFG -/ ⟨0x58000, [], [⟨31, 24, .rw, 0x40, .range 1 255⟩, ⟨23, 20, .rw, 0x4, .range 1 15⟩, ⟨15, 0, .rw, 0x1F4, .range 1 65535⟩]⟩]

/-- The registers of the VAT block. -/
def mapVAT : List RegDef := [
  /- VAT_POOLCFG -/ ⟨0x60000, [(4, 4)], [⟨26, 22, .ro, 0x0, .none⟩, ⟨21, 0, .ro, 0x0, .none⟩]⟩,
  /- VAT_POOLSTAT -/ ⟨0x60010, [(4, 4)], [⟨28, 22, .ro, 0x0, .none⟩, ⟨21, 0, .ro, 0x0, .none⟩]⟩,
  /- VAT_REFUSE -/ ⟨0x60030, [], [⟨31, 16, .rc, 0x0, .none⟩, ⟨15, 12, .ro, 0x0, .none⟩, ⟨11, 0, .ro, 0x0, .none⟩]⟩,
  /- VAT_REFHANDLE -/ ⟨0x60034, [], [⟨31, 0, .ro, 0x0, .none⟩]⟩,
  /- VAT_EVT -/ ⟨0x60038, [], [⟨31, 16, .rc, 0x0, .none⟩, ⟨15, 0, .rc, 0x0, .none⟩]⟩,
  /- VAT_RESV -/ ⟨0x68000, [], [⟨31, 24, .rw, 0x0, .none⟩, ⟨23, 16, .rw, 0x0, .none⟩, ⟨15, 8, .rw, 0x0, .none⟩, ⟨7, 0, .rw, 0x0, .none⟩]⟩]

/-- The registers of the CAVE block. -/
def mapCAVE : List RegDef := [
  /- CAVE_STAT -/ ⟨0x70000, [], [⟨2, 2, .ro, 0x0, .none⟩, ⟨1, 1, .ro, 0x0, .none⟩, ⟨0, 0, .ro, 0x0, .none⟩]⟩,
  /- CAVE_HIT -/ ⟨0x70010, [], [⟨31, 0, .rc, 0x0, .none⟩]⟩,
  /- CAVE_MISS -/ ⟨0x70014, [], [⟨31, 0, .rc, 0x0, .none⟩]⟩,
  /- CAVE_ERR -/ ⟨0x70018, [], [⟨31, 16, .rc, 0x0, .none⟩, ⟨15, 8, .rc, 0x0, .none⟩, ⟨7, 0, .rc, 0x0, .none⟩]⟩,
  /- CAVE_MAINTCNT -/ ⟨0x7001C, [], [⟨31, 16, .rc, 0x0, .none⟩, ⟨15, 0, .rc, 0x0, .none⟩]⟩,
  /- CAVE_CTL -/ ⟨0x78000, [], [⟨0, 0, .rw, 0x0, .none⟩]⟩,
  /- CAVE_MAINT -/ ⟨0x78004, [], [⟨4, 4, .wo, 0x0, .none⟩, ⟨3, 3, .rw, 0x0, .none⟩, ⟨1, 0, .rw, 0x0, .none⟩]⟩,
  /- CAVE_MBASE -/ ⟨0x78008, [], [⟨28, 0, .rw, 0x0, .none⟩]⟩,
  /- CAVE_MLIMIT -/ ⟨0x7800C, [], [⟨28, 0, .rw, 0x0, .none⟩]⟩,
  /- CAVE_LOCK -/ ⟨0x78010, [], [⟨31, 31, .rw, 0x0, .none⟩, ⟨30, 28, .rw, 0x0, .none⟩, ⟨27, 27, .rw, 0x0, .none⟩, ⟨26, 24, .rw, 0x0, .none⟩, ⟨23, 23, .rw, 0x0, .none⟩, ⟨22, 20, .rw, 0x0, .none⟩, ⟨19, 19, .rw, 0x0, .none⟩, ⟨18, 16, .rw, 0x0, .none⟩, ⟨15, 15, .rw, 0x0, .none⟩, ⟨14, 12, .rw, 0x0, .none⟩, ⟨11, 11, .rw, 0x0, .none⟩, ⟨10, 8, .rw, 0x0, .none⟩, ⟨7, 7, .rw, 0x0, .none⟩, ⟨6, 4, .rw, 0x0, .none⟩, ⟨3, 3, .rw, 0x0, .none⟩, ⟨2, 0, .rw, 0x0, .none⟩]⟩]

/-- The registers of the BMEM block. -/
def mapBMEM : List RegDef := [
  /- BMEM_STAT -/ ⟨0x80000, [], [⟨31, 28, .ro, 0x0, .none⟩, ⟨27, 26, .ro, 0x0, .none⟩, ⟨25, 24, .ro, 0x0, .none⟩, ⟨23, 23, .ro, 0x0, .none⟩, ⟨15, 12, .ro, 0xF, .none⟩, ⟨11, 8, .ro, 0xF, .none⟩, ⟨1, 0, .ro, 0x0, .none⟩]⟩,
  /- BMEM_ECC -/ ⟨0x80010, [(4, 2)], [⟨31, 16, .rc, 0x0, .none⟩, ⟨15, 0, .rc, 0x0, .none⟩]⟩,
  /- BMEM_LASTERR_LO -/ ⟨0x80020, [], [⟨31, 4, .ro, 0x0, .none⟩]⟩,
  /- BMEM_LASTERR_HI -/ ⟨0x80024, [], [⟨3, 0, .ro, 0x0, .none⟩]⟩,
  /- BMEM_MERGE -/ ⟨0x80030, [], [⟨31, 16, .rc, 0x0, .none⟩, ⟨15, 0, .rc, 0x0, .none⟩]⟩,
  /- BMEM_ORDER -/ ⟨0x80034, [], [⟨31, 16, .rc, 0x0, .none⟩, ⟨15, 0, .rc, 0x0, .none⟩]⟩,
  /- BMEM_REF -/ ⟨0x80038, [], [⟨31, 16, .rc, 0x0, .none⟩, ⟨1, 0, .ro, 0x0, .none⟩]⟩,
  /- BMEM_TRAIN -/ ⟨0x80040, [(4, 2)], [⟨7, 4, .ro, 0x0, .none⟩, ⟨3, 0, .ro, 0xF, .none⟩]⟩,
  /- BMEM_DEVCNT -/ ⟨0x80100, [(64, 2), (4, 10)], [⟨31, 0, .rc, 0x0, .none⟩]⟩,
  /- BMEM_LANE -/ ⟨0x80200, [(64, 2), (4, 10)], [⟨31, 25, .ro, 0x0, .none⟩, ⟨24, 18, .ro, 0x0, .none⟩, ⟨17, 11, .ro, 0x0, .none⟩, ⟨10, 4, .ro, 0x0, .none⟩, ⟨3, 0, .ro, 0x0, .none⟩]⟩,
  /- BMEM_PAGE -/ ⟨0x88000, [], [⟨11, 0, .rw, 0xC8, .range 10 4095⟩]⟩,
  /- BMEM_MARKCFG -/ ⟨0x88004, [], [⟨31, 16, .rw, 0x3E8, .range 1 65535⟩, ⟨15, 0, .rw, 0x40, .range 1 65535⟩]⟩,
  /- BMEM_MERGECFG -/ ⟨0x88008, [], [⟨15, 0, .rw, 0x7D0, .range 100 65535⟩]⟩]

/-- The registers of the LADLE block. -/
def mapLADLE : List RegDef := [
  /- LADLE_CHSTAT -/ ⟨0x90000, [(64, 32)], [⟨31, 30, .ro, 0x0, .none⟩, ⟨29, 28, .ro, 0x0, .none⟩, ⟨15, 0, .ro, 0x0, .none⟩]⟩,
  /- LADLE_XFER -/ ⟨0x90004, [(64, 32)], [⟨31, 16, .ro, 0x0, .none⟩]⟩,
  /- LADLE_CHACK -/ ⟨0x90008, [(64, 32)], [⟨23, 0, .ro, 0x0, .none⟩]⟩,
  /- LADLE_STAT -/ ⟨0x91000, [], [⟨31, 31, .ro, 0x0, .none⟩, ⟨4, 0, .ro, 0x0, .none⟩]⟩,
  /- LADLE_SHADOW_PEND -/ ⟨0x91004, [], [⟨31, 0, .ro, 0x0, .none⟩]⟩,
  /- LADLE_ERRCNT -/ ⟨0x91008, [], [⟨31, 24, .rc, 0x0, .none⟩, ⟨23, 16, .rc, 0x0, .none⟩, ⟨15, 8, .rc, 0x0, .none⟩, ⟨7, 0, .rc, 0x0, .none⟩]⟩,
  /- LADLE_HOPMAX -/ ⟨0x98000, [], [⟨15, 0, .rw, 0x1000, .range 1 65535⟩]⟩,
  /- LADLE_ACT0 -/ ⟨0x90010, [(64, 32)], [⟨31, 0, .ro, 0x0, .none⟩]⟩,
  /- LADLE_ACT1 -/ ⟨0x90014, [(64, 32)], [⟨31, 0, .ro, 0x0, .none⟩]⟩,
  /- LADLE_ACT2 -/ ⟨0x90018, [(64, 32)], [⟨31, 0, .ro, 0x0, .none⟩]⟩,
  /- LADLE_ACT3 -/ ⟨0x9001C, [(64, 32)], [⟨31, 0, .ro, 0x0, .none⟩]⟩,
  /- LADLE_ACT4 -/ ⟨0x90020, [(64, 32)], [⟨31, 0, .ro, 0x0, .none⟩]⟩,
  /- LADLE_ACT5 -/ ⟨0x90024, [(64, 32)], [⟨31, 0, .ro, 0x0, .none⟩]⟩,
  /- LADLE_SHD0 -/ ⟨0x90028, [(64, 32)], [⟨31, 0, .ro, 0x0, .none⟩]⟩,
  /- LADLE_SHD1 -/ ⟨0x9002C, [(64, 32)], [⟨31, 0, .ro, 0x0, .none⟩]⟩,
  /- LADLE_SHD2 -/ ⟨0x90030, [(64, 32)], [⟨31, 0, .ro, 0x0, .none⟩]⟩,
  /- LADLE_SHD3 -/ ⟨0x90034, [(64, 32)], [⟨31, 0, .ro, 0x0, .none⟩]⟩,
  /- LADLE_SHD4 -/ ⟨0x90038, [(64, 32)], [⟨31, 0, .ro, 0x0, .none⟩]⟩,
  /- LADLE_SHD5 -/ ⟨0x9003C, [(64, 32)], [⟨31, 0, .ro, 0x0, .none⟩]⟩]

/-- The registers of the CULT block. -/
def mapCULT : List RegDef := [
  /- CULT_ENG -/ ⟨0xA0010, [(8, 8)], [⟨31, 30, .ro, 0x3, .none⟩, ⟨29, 16, .ro, 0x0, .none⟩, ⟨13, 0, .ro, 0x0, .none⟩]⟩,
  /- CULT_CNT -/ ⟨0xA0014, [(8, 8)], [⟨31, 24, .rc, 0x0, .none⟩, ⟨23, 16, .rc, 0x0, .none⟩, ⟨4, 0, .ro, 0x0, .none⟩]⟩,
  /- CULT_STORE -/ ⟨0xA0050, [], [⟨31, 16, .rc, 0x0, .none⟩, ⟨0, 0, .ro, 0x0, .none⟩]⟩,
  /- CULT_SFAULT -/ ⟨0xA0054, [], [⟨31, 28, .ro, 0x0, .none⟩, ⟨26, 24, .ro, 0x0, .none⟩, ⟨13, 0, .ro, 0x0, .none⟩]⟩,
  /- CULT_TRACECTL -/ ⟨0xA0060, [], [⟨31, 31, .rw, 0x0, .none⟩, ⟨30, 30, .rw, 0x0, .none⟩, ⟨29, 29, .rw, 0x0, .none⟩, ⟨7, 0, .rw, 0xFF, .none⟩]⟩,
  /- CULT_TRACEPTR -/ ⟨0xA0064, [], [⟨31, 31, .ro, 0x0, .none⟩, ⟨8, 0, .ro, 0x0, .none⟩]⟩,
  /- CULT_CSADDR -/ ⟨0xA0070, [], [⟨13, 0, .rw, 0x0, .none⟩]⟩,
  /- CULT_CSDATA -/ ⟨0xA0074, [(4, 5)], [⟨31, 0, .ro, 0x0, .none⟩]⟩,
  /- CULT_CFG -/ ⟨0xA8000, [], [⟨31, 16, .rw, 0xA, .range 1 65535⟩, ⟨3, 0, .rw, 0x3, .range 1 15⟩]⟩,
  /- CULT_TRACE -/ ⟨0xA4000, [(16, 512), (4, 4)], [⟨31, 0, .ro, 0x0, .none⟩]⟩]

/-- The registers of the STEP block. -/
def mapSTEP : List RegDef := [
  /- STEP_STAT -/ ⟨0xB0000, [], [⟨31, 29, .ro, 0x0, .none⟩, ⟨28, 27, .ro, 0x0, .none⟩, ⟨26, 26, .ro, 0x0, .none⟩, ⟨25, 25, .ro, 0x0, .none⟩, ⟨8, 0, .ro, 0x0, .none⟩]⟩,
  /- STEP_NUM_LO -/ ⟨0xB0004, [], [⟨31, 0, .ro, 0x0, .none⟩]⟩,
  /- STEP_NUM_HI -/ ⟨0xB0008, [], [⟨31, 0, .ro, 0x0, .none⟩]⟩,
  /- STEP_EPOCH -/ ⟨0xB000C, [], [⟨31, 0, .ro, 0x0, .none⟩]⟩,
  /- STEP_BLOCK -/ ⟨0xB0010, [], [⟨31, 0, .ro, 0x0, .none⟩]⟩,
  /- STEP_WHEY -/ ⟨0xB0014, [], [⟨31, 16, .rc, 0x0, .none⟩, ⟨15, 0, .rc, 0x0, .none⟩]⟩,
  /- STEP_DIV -/ ⟨0xB0018, [], [⟨31, 24, .rc, 0x0, .none⟩, ⟨23, 20, .ro, 0x0, .none⟩, ⟨19, 18, .ro, 0x0, .none⟩, ⟨17, 17, .ro, 0x0, .none⟩]⟩,
  /- STEP_EVT -/ ⟨0xB001C, [], [⟨31, 24, .rc, 0x0, .none⟩, ⟨23, 16, .rc, 0x0, .none⟩, ⟨15, 8, .rc, 0x0, .none⟩, ⟨7, 0, .rc, 0x0, .none⟩]⟩,
  /- STEP_RESYNC -/ ⟨0xB0020, [], [⟨31, 30, .ro, 0x0, .none⟩, ⟨16, 0, .ro, 0x0, .none⟩]⟩,
  /- STEP_NEXTTURN -/ ⟨0xB0024, [], [⟨31, 0, .ro, 0x0, .none⟩]⟩,
  /- STEP_CFG -/ ⟨0xB8000, [], [⟨31, 21, .rw, 0x0, .range 5 1440⟩, ⟨20, 20, .rw, 0x0, .none⟩, ⟨19, 19, .rw, 0x1, .none⟩, ⟨18, 16, .rw, 0x3, .range 1 7⟩, ⟨15, 8, .rw, 0xA, .range 1 255⟩, ⟨7, 0, .rw, 0x32, .range 10 255⟩]⟩,
  /- STEP_CTL -/ ⟨0xB8004, [], [⟨1, 1, .wo, 0x0, .none⟩, ⟨0, 0, .wo, 0x0, .none⟩]⟩]

/-- The registers of the BUDGET block. -/
def mapBUDGET : List RegDef := [
  /- BUDGET_STAT -/ ⟨0xC0000, [], [⟨31, 28, .ro, 0x0, .none⟩, ⟨27, 27, .ro, 0x0, .none⟩, ⟨26, 26, .ro, 0x0, .none⟩, ⟨25, 25, .ro, 0x0, .none⟩, ⟨24, 24, .ro, 0x0, .none⟩, ⟨23, 21, .ro, 0x0, .none⟩, ⟨15, 8, .ro, 0x50, .none⟩, ⟨7, 5, .ro, 0x0, .none⟩]⟩,
  /- BUDGET_TEMP -/ ⟨0xC0010, [(4, 14)], [⟨31, 16, .ro, 0x0, .none⟩, ⟨15, 14, .ro, 0x0, .none⟩, ⟨13, 12, .ro, 0x0, .none⟩]⟩,
  /- BUDGET_PWR -/ ⟨0xC0050, [], [⟨31, 16, .ro, 0x0, .none⟩, ⟨15, 0, .ro, 0x0, .none⟩]⟩,
  /- BUDGET_OUT -/ ⟨0xC0054, [], [⟨31, 16, .ro, 0x0, .none⟩, ⟨15, 15, .ro, 0x0, .none⟩, ⟨11, 0, .ro, 0x0, .none⟩]⟩,
  /- BUDGET_OUT2 -/ ⟨0xC0058, [], [⟨31, 24, .ro, 0x64, .none⟩, ⟨23, 12, .ro, 0x0, .none⟩, ⟨11, 0, .ro, 0x0, .none⟩]⟩,
  /- BUDGET_IN -/ ⟨0xC0060, [(4, 2)], [⟨31, 20, .ro, 0x0, .none⟩, ⟨19, 4, .ro, 0x0, .none⟩]⟩,
  /- BUDGET_PMB -/ ⟨0xC0068, [], [⟨31, 16, .ro, 0x0, .none⟩, ⟨15, 0, .ro, 0x0, .none⟩]⟩,
  /- BUDGET_EVT -/ ⟨0xC0070, [], [⟨31, 24, .rc, 0x0, .none⟩, ⟨23, 16, .rc, 0x0, .none⟩, ⟨15, 8, .rc, 0x0, .none⟩, ⟨7, 0, .rc, 0x0, .none⟩]⟩,
  /- BUDGET_CAP -/ ⟨0xC8000, [], [⟨31, 16, .rw, 0x0, .pcap⟩, ⟨15, 0, .rw, 0x0, .none⟩]⟩,
  /- BUDGET_POL -/ ⟨0xC8004, [], [⟨31, 30, .rw, 0x1, .none⟩, ⟨29, 20, .rw, 0x32, .range 1 1023⟩, ⟨19, 12, .rw, 0x5, .range 1 255⟩, ⟨7, 4, .rw, 0x2, .range 0 8⟩, ⟨3, 0, .rw, 0x5, .range 0 8⟩]⟩,
  /- BUDGET_POL2 -/ ⟨0xC8008, [], [⟨31, 24, .rw, 0x32, .range 1 255⟩, ⟨23, 20, .rw, 0x5, .range 0 8⟩, ⟨19, 12, .rw, 0x32, .range 1 100⟩, ⟨7, 0, .rw, 0xF, .none⟩]⟩,
  /- BUDGET_WAT -/ ⟨0xC800C, [], [⟨31, 20, .rw, 0x80, .range 1 4095⟩, ⟨19, 8, .rw, 0x10, .belowHi⟩, ⟨7, 0, .rw, 0x19, .none⟩]⟩,
  /- BUDGET_HDA -/ ⟨0xC8010, [], [⟨31, 16, .rw, 0x258, .none⟩, ⟨15, 0, .rw, 0x0, .none⟩]⟩,
  /- BUDGET_ACTPWR -/ ⟨0xC8014, [], [⟨31, 24, .rw, 0x1A, .none⟩, ⟨23, 16, .rw, 0x16, .none⟩, ⟨15, 8, .rw, 0x11, .none⟩, ⟨7, 0, .rw, 0x2, .none⟩]⟩,
  /- BUDGET_ECOST -/ ⟨0xC8018, [], [⟨31, 16, .rw, 0x12C, .none⟩, ⟨15, 0, .rw, 0xC8, .none⟩]⟩,
  /- BUDGET_ROR -/ ⟨0xC8040, [], [⟨31, 31, .rw, 0x0, .none⟩, ⟨23, 16, .rw, 0xA, .range 3 50⟩, ⟨15, 0, .rw, 0xC8, .none⟩]⟩,
  /- BUDGET_THR -/ ⟨0xC8100, [(16, 14), (4, 3)], [⟨31, 16, .rw, 0x0, .none⟩, ⟨15, 0, .rw, 0x0, .range 10 200⟩]⟩]

/-- The registers of the FAULT block. -/
def mapFAULT : List RegDef := [
  /- FAULT_INJ -/ ⟨0xD8010, [], [⟨31, 31, .rw, 0x0, .none⟩, ⟨30, 30, .wo, 0x0, .none⟩, ⟨29, 29, .ro, 0x0, .none⟩, ⟨28, 28, .rw, 0x0, .none⟩, ⟨27, 24, .rw, 0x0, .none⟩, ⟨23, 14, .rw, 0x0, .none⟩]⟩,
  /- FAULT_INJTGT -/ ⟨0xD8014, [], [⟨31, 0, .rw, 0x0, .none⟩]⟩,
  /- FAULT_STAT -/ ⟨0xD0000, [], [⟨31, 30, .ro, 0x0, .none⟩, ⟨23, 16, .ro, 0x0, .none⟩, ⟨15, 0, .ro, 0x0, .none⟩]⟩,
  /- FAULT_LAST -/ ⟨0xD0004, [], [⟨31, 16, .ro, 0x0, .none⟩, ⟨15, 12, .ro, 0x0, .none⟩, ⟨2, 0, .ro, 0x0, .none⟩]⟩,
  /- FAULT_RECOV -/ ⟨0xD0008, [], [⟨31, 0, .ro, 0x0, .none⟩]⟩,
  /- FAULT_RUNG -/ ⟨0xD0010, [(4, 6)], [⟨31, 0, .ro, 0x0, .none⟩]⟩,
  /- FAULT_CTL -/ ⟨0xD0030, [], [⟨1, 1, .wo, 0x0, .none⟩, ⟨0, 0, .wo, 0x0, .none⟩]⟩,
  /- FAULT_SRC -/ ⟨0xD1000, [(4, 640)], [⟨31, 16, .rc, 0x0, .none⟩, ⟨15, 13, .ro, 0x0, .none⟩]⟩,
  /- FAULT_CFG -/ ⟨0xD8000, [], [⟨31, 24, .rw, 0xA, .range 1 255⟩, ⟨23, 16, .rw, 0x6, .range 1 255⟩, ⟨15, 8, .rw, 0xA, .range 1 255⟩]⟩,
  /- FAULT_CMDTO -/ ⟨0xD8004, [], [⟨31, 16, .rw, 0x12C, .range 1 65535⟩, ⟨15, 0, .rw, 0x4B0, .range 1 65535⟩]⟩,
  /- FAULT_SRCCFG0 -/ ⟨0xD9000, [(8, 640)], [⟨31, 29, .rw, 0x0, .range 0 4⟩, ⟨28, 28, .rw, 0x0, .none⟩, ⟨15, 0, .rw, 0x0, .range 1 65535⟩]⟩,
  /- FAULT_SRCCFG1 -/ ⟨0xD9004, [(8, 640)], [⟨31, 0, .rw, 0x0, .range 1 4294967295⟩]⟩]

/-- The registers of the LOG block. -/
def mapLOG : List RegDef := [
  /- LOG_STAT -/ ⟨0xE0000, [], [⟨31, 31, .ro, 0x0, .none⟩, ⟨30, 30, .ro, 0x0, .none⟩, ⟨29, 29, .ro, 0x0, .none⟩, ⟨8, 0, .ro, 0x0, .none⟩]⟩,
  /- LOG_CTL -/ ⟨0xE0004, [], [⟨0, 0, .rw, 0x0, .none⟩]⟩,
  /- LOG_RSEQ -/ ⟨0xE0008, [], [⟨31, 0, .ro, 0x0, .none⟩]⟩,
  /- LOG_OPSEC -/ ⟨0xE000C, [], [⟨31, 0, .ro, 0x0, .none⟩]⟩,
  /- LOG_PCYC -/ ⟨0xE0010, [], [⟨23, 0, .ro, 0x0, .none⟩]⟩,
  /- LOG_CNT_RAISED -/ ⟨0xE0020, [(16, 4)], [⟨31, 0, .ro, 0x0, .none⟩]⟩,
  /- LOG_CNT_STORED -/ ⟨0xE0024, [(16, 4)], [⟨31, 0, .ro, 0x0, .none⟩]⟩,
  /- LOG_CNT_DROPPED -/ ⟨0xE0028, [(16, 4)], [⟨31, 0, .ro, 0x0, .none⟩]⟩,
  /- LOG_CNT_QUEUED -/ ⟨0xE002C, [(16, 4)], [⟨31, 0, .ro, 0x0, .none⟩]⟩,
  /- LOG_CFG -/ ⟨0xE8000, [], [⟨7, 0, .rw, 0xA, .range 1 255⟩]⟩]

/-- The registers of the TALLY block. -/
def mapTALLY : List RegDef := [
  /- TALLY_STAT -/ ⟨0xF0000, [], [⟨31, 31, .ro, 0x0, .none⟩, ⟨30, 30, .ro, 0x0, .none⟩, ⟨15, 0, .ro, 0x0, .none⟩]⟩,
  /- TALLY_SNAP_LO -/ ⟨0xF0004, [], [⟨31, 0, .ro, 0x0, .none⟩]⟩,
  /- TALLY_SNAP_HI -/ ⟨0xF0008, [], [⟨31, 0, .ro, 0x0, .none⟩]⟩,
  /- TALLY_CHECKS -/ ⟨0xF000C, [], [⟨31, 0, .rc, 0x0, .none⟩]⟩,
  /- TALLY_NLEDG -/ ⟨0xF0010, [], [⟨8, 0, .ro, 0x0, .none⟩]⟩,
  /- TALLY_LEDG -/ ⟨0xF1000, [(32, 512), (4, 8)], [⟨31, 0, .ro, 0x0, .none⟩]⟩]

/-- The registers of a Rind die's block, by its number (R117, "Set-up space map"). -/
def rindBlock : Nat → List RegDef
  | 0 => mapDEV
  | 1 => mapBOOT
  | 2 => mapLINK
  | 3 => mapPORT
  | 4 => mapSCHED
  | 5 => mapXLAT
  | 6 => mapVAT
  | 7 => mapCAVE
  | 8 => mapBMEM
  | 9 => mapLADLE
  | 10 => mapCULT
  | 11 => mapSTEP
  | 12 => mapBUDGET
  | 13 => mapFAULT
  | 14 => mapLOG
  | 15 => mapTALLY
  | _ => []

/-- The registers of a Curd die's block, by its number (R117, "Set-up space map"). -/
def curdBlock : Nat → List RegDef
  | 0 => mapCDIE
  | 1 => mapCHAN
  | 2 => mapFMT
  | 3 => mapSERVO
  | 4 => mapPRESS
  | 5 => mapSPIN
  | _ => []

namespace R

/-- DEV_DIEPRES.CPRES. -/
def DEV_DIEPRES_CPRES : Fld := ⟨0x10, 13, 8⟩
/-- DEV_DIEPRES.F1PRES. -/
def DEV_DIEPRES_F1PRES : Fld := ⟨0x10, 1, 1⟩
/-- DEV_DIEPRES.F0PRES. -/
def DEV_DIEPRES_F0PRES : Fld := ⟨0x10, 0, 0⟩
/-- DEV_FVSTAT.RESETS. -/
def DEV_FVSTAT_RESETS (n : Nat) : Fld := ⟨0x100 + 4 * n, 31, 24⟩
/-- DEV_FVSTAT.LSEQTX. -/
def DEV_FVSTAT_LSEQTX (n : Nat) : Fld := ⟨0x100 + 4 * n, 23, 8⟩
/-- DEV_FVSTAT.STATE. -/
def DEV_FVSTAT_STATE (n : Nat) : Fld := ⟨0x100 + 4 * n, 1, 0⟩
/-- DEV_FVERR.CODEERR. -/
def DEV_FVERR_CODEERR (n : Nat) : Fld := ⟨0x120 + 4 * n, 31, 16⟩
/-- DEV_FVERR.CRCERR. -/
def DEV_FVERR_CRCERR (n : Nat) : Fld := ⟨0x120 + 4 * n, 15, 0⟩
/-- DEV_STALLCNT.COUNT. -/
def DEV_STALLCNT_COUNT : Fld := ⟨0x140, 31, 0⟩
/-- DEV_STALLLIM.LIMIT. -/
def DEV_STALLLIM_LIMIT : Fld := ⟨0x8100, 7, 0⟩
/-- DEV_PINSTAT.PERST. -/
def DEV_PINSTAT_PERST : Fld := ⟨0x30, 15, 12⟩
/-- DEV_PINSTAT.SFOWN. -/
def DEV_PINSTAT_SFOWN : Fld := ⟨0x30, 7, 7⟩
/-- DEV_PINSTAT.PMBOWN. -/
def DEV_PINSTAT_PMBOWN : Fld := ⟨0x30, 6, 6⟩
/-- DEV_PINSTAT.REGEN. -/
def DEV_PINSTAT_REGEN : Fld := ⟨0x30, 5, 5⟩
/-- DEV_PINSTAT.SBADDR. -/
def DEV_PINSTAT_SBADDR : Fld := ⟨0x30, 4, 4⟩
/-- DEV_PINSTAT.SHOCK. -/
def DEV_PINSTAT_SHOCK : Fld := ⟨0x30, 3, 3⟩
/-- DEV_PINSTAT.TRSTN. -/
def DEV_PINSTAT_TRSTN : Fld := ⟨0x30, 2, 2⟩
/-- DEV_PINSTAT.VINOK. -/
def DEV_PINSTAT_VINOK : Fld := ⟨0x30, 1, 1⟩
/-- BOOT_STAT.PHASE. -/
def BOOT_STAT_PHASE : Fld := ⟨0x10000, 31, 28⟩
/-- BOOT_STAT.FAILS. -/
def BOOT_STAT_FAILS : Fld := ⟨0x10000, 25, 24⟩
/-- BOOT_STAT.SVN. -/
def BOOT_STAT_SVN : Fld := ⟨0x10000, 23, 16⟩
/-- BOOT_STAT.TRIES. -/
def BOOT_STAT_TRIES : Fld := ⟨0x10000, 7, 6⟩
/-- BOOT_STAT.PEND. -/
def BOOT_STAT_PEND : Fld := ⟨0x10000, 5, 5⟩
/-- BOOT_STAT.TRIAL. -/
def BOOT_STAT_TRIAL : Fld := ⟨0x10000, 4, 4⟩
/-- BOOT_STAT.SLOT. -/
def BOOT_STAT_SLOT : Fld := ⟨0x10000, 3, 3⟩
/-- BOOT_STAT.HDRCOPY. -/
def BOOT_STAT_HDRCOPY : Fld := ⟨0x10000, 2, 2⟩
/-- BOOT_STAT.SETCOPY. -/
def BOOT_STAT_SETCOPY : Fld := ⟨0x10000, 1, 1⟩
/-- BOOT_STAT.OWNKEY. -/
def BOOT_STAT_OWNKEY : Fld := ⟨0x10000, 0, 0⟩
/-- BOOT_FUSE.SVNFUSE. -/
def BOOT_FUSE_SVNFUSE : Fld := ⟨0x10004, 15, 8⟩
/-- BOOT_FUSE.KEYO. -/
def BOOT_FUSE_KEYO : Fld := ⟨0x10004, 2, 2⟩
/-- BOOT_FUSE.KEYV. -/
def BOOT_FUSE_KEYV : Fld := ⟨0x10004, 1, 1⟩
/-- BOOT_FUSE.FUSEOK. -/
def BOOT_FUSE_FUSEOK : Fld := ⟨0x10004, 0, 0⟩
/-- BOOT_STARTTIME.MS. -/
def BOOT_STARTTIME_MS : Fld := ⟨0x10008, 31, 0⟩
/-- BOOT_RIDE.HOLD. -/
def BOOT_RIDE_HOLD : Fld := ⟨0x18000, 31, 24⟩
/-- BOOT_RIDE.VSAG. -/
def BOOT_RIDE_VSAG : Fld := ⟨0x18000, 23, 12⟩
/-- LINK_HEADSTAT.LDACT. -/
def LINK_HEADSTAT_LDACT (n : Nat) : Fld := ⟨0x20000 + 4 * n, 15, 11⟩
/-- LINK_HEADSTAT.RATE. -/
def LINK_HEADSTAT_RATE (n : Nat) : Fld := ⟨0x20000 + 4 * n, 10, 8⟩
/-- LINK_HEADSTAT.WIDTH. -/
def LINK_HEADSTAT_WIDTH (n : Nat) : Fld := ⟨0x20000 + 4 * n, 7, 5⟩
/-- LINK_HEADSTAT.PROTO. -/
def LINK_HEADSTAT_PROTO (n : Nat) : Fld := ⟨0x20000 + 4 * n, 4, 3⟩
/-- LINK_HEADSTAT.STATE. -/
def LINK_HEADSTAT_STATE (n : Nat) : Fld := ⟨0x20000 + 4 * n, 2, 1⟩
/-- LINK_DOMCFG.EN. -/
def LINK_DOMCFG_EN (n : Nat) : Fld := ⟨0x20100 + 16 * n, 31, 31⟩
/-- LINK_DOMCFG.SETUP. -/
def LINK_DOMCFG_SETUP (n : Nat) : Fld := ⟨0x20100 + 16 * n, 30, 29⟩
/-- LINK_DOMCFG.HOME. -/
def LINK_DOMCFG_HOME (n : Nat) : Fld := ⟨0x20100 + 16 * n, 28, 28⟩
/-- LINK_DOMCFG.LDID. -/
def LINK_DOMCFG_LDID (n : Nat) : Fld := ⟨0x20100 + 16 * n, 27, 24⟩
/-- LINK_DOMCFG.HEAD. -/
def LINK_DOMCFG_HEAD (n : Nat) : Fld := ⟨0x20100 + 16 * n, 21, 20⟩
/-- LINK_DOMCFG.ONF1. -/
def LINK_DOMCFG_ONF1 (n : Nat) : Fld := ⟨0x20100 + 16 * n, 19, 19⟩
/-- LINK_DOMCFG.ONF0. -/
def LINK_DOMCFG_ONF0 (n : Nat) : Fld := ⟨0x20100 + 16 * n, 18, 18⟩
/-- LINK_DOMWIN.WACC. -/
def LINK_DOMWIN_WACC (n : Nat) : Fld := ⟨0x20104 + 16 * n, 17, 16⟩
/-- LINK_DOMWIN.BASE. -/
def LINK_DOMWIN_BASE (n : Nat) : Fld := ⟨0x20104 + 16 * n, 15, 8⟩
/-- LINK_DOMWIN.SIZE. -/
def LINK_DOMWIN_SIZE (n : Nat) : Fld := ⟨0x20104 + 16 * n, 7, 0⟩
/-- LINK_WINREF.COUNT. -/
def LINK_WINREF_COUNT : Fld := ⟨0x20200, 31, 0⟩
/-- LINK_HEADCFG.MODE. -/
def LINK_HEADCFG_MODE (n : Nat) : Fld := ⟨0x28000 + 4 * n, 3, 2⟩
/-- LINK_HEADCFG.MAXRATE. -/
def LINK_HEADCFG_MAXRATE (n : Nat) : Fld := ⟨0x28000 + 4 * n, 1, 0⟩
/-- PORT_CFG.EN. -/
def PORT_CFG_EN (n : Nat) : Fld := ⟨0x30000 + 64 * n, 31, 31⟩
/-- PORT_CFG.ADMIN. -/
def PORT_CFG_ADMIN (n : Nat) : Fld := ⟨0x30000 + 64 * n, 30, 30⟩
/-- PORT_CFG.DOMAIN. -/
def PORT_CFG_DOMAIN (n : Nat) : Fld := ⟨0x30000 + 64 * n, 27, 24⟩
/-- PORT_CFG.POLLINT. -/
def PORT_CFG_POLLINT (n : Nat) : Fld := ⟨0x30000 + 64 * n, 19, 10⟩
/-- PORT_CFG.DBMODE. -/
def PORT_CFG_DBMODE (n : Nat) : Fld := ⟨0x30000 + 64 * n, 8, 8⟩
/-- PORT_SQLO.ADDR. -/
def PORT_SQLO_ADDR (n : Nat) : Fld := ⟨0x30004 + 64 * n, 31, 6⟩
/-- PORT_SQHI.ADDR. -/
def PORT_SQHI_ADDR (n : Nat) : Fld := ⟨0x30008 + 64 * n, 31, 0⟩
/-- PORT_CQLO.ADDR. -/
def PORT_CQLO_ADDR (n : Nat) : Fld := ⟨0x3000C + 64 * n, 31, 6⟩
/-- PORT_CQHI.ADDR. -/
def PORT_CQHI_ADDR (n : Nat) : Fld := ⟨0x30010 + 64 * n, 31, 0⟩
/-- PORT_DBLO.ADDR. -/
def PORT_DBLO_ADDR (n : Nat) : Fld := ⟨0x30014 + 64 * n, 31, 6⟩
/-- PORT_DBHI.ADDR. -/
def PORT_DBHI_ADDR (n : Nat) : Fld := ⟨0x30018 + 64 * n, 31, 0⟩
/-- PORT_SIZE.CQSIZE. -/
def PORT_SIZE_CQSIZE (n : Nat) : Fld := ⟨0x3001C + 64 * n, 28, 16⟩
/-- PORT_SIZE.SQSIZE. -/
def PORT_SIZE_SQSIZE (n : Nat) : Fld := ⟨0x3001C + 64 * n, 12, 0⟩
/-- PORT_STAT.STATE. -/
def PORT_STAT_STATE (n : Nat) : Fld := ⟨0x30024 + 64 * n, 31, 29⟩
/-- PORT_STAT.ERRCAUSE. -/
def PORT_STAT_ERRCAUSE (n : Nat) : Fld := ⟨0x30024 + 64 * n, 28, 24⟩
/-- PORT_STAT.SQTAIL. -/
def PORT_STAT_SQTAIL (n : Nat) : Fld := ⟨0x30024 + 64 * n, 23, 12⟩
/-- PORT_STAT.SQHEAD. -/
def PORT_STAT_SQHEAD (n : Nat) : Fld := ⟨0x30024 + 64 * n, 11, 0⟩
/-- PORT_CQSTAT.PHASE. -/
def PORT_CQSTAT_PHASE (n : Nat) : Fld := ⟨0x30028 + 64 * n, 31, 31⟩
/-- PORT_CQSTAT.HELD. -/
def PORT_CQSTAT_HELD (n : Nat) : Fld := ⟨0x30028 + 64 * n, 30, 16⟩
/-- PORT_CQSTAT.CQTAIL. -/
def PORT_CQSTAT_CQTAIL (n : Nat) : Fld := ⟨0x30028 + 64 * n, 11, 0⟩
/-- PORT_SEQ.NEXT. -/
def PORT_SEQ_NEXT (n : Nat) : Fld := ⟨0x3002C + 64 * n, 31, 0⟩
/-- PORT_OUT.CQHEAD. -/
def PORT_OUT_CQHEAD (n : Nat) : Fld := ⟨0x30030 + 64 * n, 27, 16⟩
/-- PORT_OUT.OUT. -/
def PORT_OUT_OUT (n : Nat) : Fld := ⟨0x30030 + 64 * n, 14, 0⟩
/-- PORT_DBCNT.EMPTY. -/
def PORT_DBCNT_EMPTY (n : Nat) : Fld := ⟨0x30034 + 64 * n, 31, 16⟩
/-- PORT_DBCNT.RINGS. -/
def PORT_DBCNT_RINGS (n : Nat) : Fld := ⟨0x30034 + 64 * n, 15, 0⟩
/-- PORT_SLLO.ADDR. -/
def PORT_SLLO_ADDR (n : Nat) : Fld := ⟨0x34000 + 16 * n, 31, 6⟩
/-- PORT_SLLO.SLEN. -/
def PORT_SLLO_SLEN (n : Nat) : Fld := ⟨0x34000 + 16 * n, 0, 0⟩
/-- PORT_SLHI.ADDR. -/
def PORT_SLHI_ADDR (n : Nat) : Fld := ⟨0x34004 + 16 * n, 31, 0⟩
/-- PORT_BACKSTOP.MS. -/
def PORT_BACKSTOP_MS : Fld := ⟨0x38000, 9, 0⟩
/-- PORT_SCHED.CLASS. -/
def PORT_SCHED_CLASS (n : Nat) : Fld := ⟨0x30020 + 64 * n, 10, 8⟩
/-- PORT_SCHED.WEIGHT. -/
def PORT_SCHED_WEIGHT (n : Nat) : Fld := ⟨0x30020 + 64 * n, 7, 0⟩
/-- SCHED_CLASSW.WH. -/
def SCHED_CLASSW_WH : Fld := ⟨0x40000, 23, 16⟩
/-- SCHED_CLASSW.WM. -/
def SCHED_CLASSW_WM : Fld := ⟨0x40000, 15, 8⟩
/-- SCHED_CLASSW.WL. -/
def SCHED_CLASSW_WL : Fld := ⟨0x40000, 7, 0⟩
/-- SCHED_ADMIT.ENF. -/
def SCHED_ADMIT_ENF : Fld := ⟨0x40004, 31, 31⟩
/-- SCHED_ADMIT.EH. -/
def SCHED_ADMIT_EH : Fld := ⟨0x40004, 23, 16⟩
/-- SCHED_ADMIT.EM. -/
def SCHED_ADMIT_EM : Fld := ⟨0x40004, 15, 8⟩
/-- SCHED_ADMIT.EL. -/
def SCHED_ADMIT_EL : Fld := ⟨0x40004, 7, 0⟩
/-- SCHED_STAT.FENCEWAIT. -/
def SCHED_STAT_FENCEWAIT : Fld := ⟨0x40008, 31, 16⟩
/-- SCHED_STAT.HAZWAIT. -/
def SCHED_STAT_HAZWAIT : Fld := ⟨0x40008, 15, 0⟩
/-- SCHED_DIRTY.BLOCKS. -/
def SCHED_DIRTY_BLOCKS : Fld := ⟨0x4000C, 31, 0⟩
/-- SCHED_GRANT.COUNT. -/
def SCHED_GRANT_COUNT (n : Nat) : Fld := ⟨0x40020 + 4 * n, 31, 0⟩
/-- SCHED_CFG.AGEMS. -/
def SCHED_CFG_AGEMS : Fld := ⟨0x48000, 23, 8⟩
/-- SCHED_CFG.BURST. -/
def SCHED_CFG_BURST : Fld := ⟨0x48000, 3, 0⟩
/-- XLAT_STAT.STATE. -/
def XLAT_STAT_STATE : Fld := ⟨0x50000, 31, 28⟩
/-- XLAT_STAT.COPYG0. -/
def XLAT_STAT_COPYG0 : Fld := ⟨0x50000, 27, 24⟩
/-- XLAT_STAT.COPYG1. -/
def XLAT_STAT_COPYG1 : Fld := ⟨0x50000, 23, 20⟩
/-- XLAT_STAT.CLEANACT. -/
def XLAT_STAT_CLEANACT : Fld := ⟨0x50000, 19, 14⟩
/-- XLAT_STAT.JFILL. -/
def XLAT_STAT_JFILL : Fld := ⟨0x50000, 13, 7⟩
/-- XLAT_FREE.SHFREE. -/
def XLAT_FREE_SHFREE (n : Nat) : Fld := ⟨0x50010 + 4 * n, 31, 16⟩
/-- XLAT_FREE.CVFREE. -/
def XLAT_FREE_CVFREE (n : Nat) : Fld := ⟨0x50010 + 4 * n, 15, 0⟩
/-- XLAT_SPARE.SHSPARE. -/
def XLAT_SPARE_SHSPARE (n : Nat) : Fld := ⟨0x50030 + 4 * n, 31, 16⟩
/-- XLAT_SPARE.CVSPARE. -/
def XLAT_SPARE_CVSPARE (n : Nat) : Fld := ⟨0x50030 + 4 * n, 15, 0⟩
/-- XLAT_REASSIGN.USED. -/
def XLAT_REASSIGN_USED : Fld := ⟨0x50050, 20, 0⟩
/-- XLAT_CLEANCNT.FORCED. -/
def XLAT_CLEANCNT_FORCED : Fld := ⟨0x50054, 31, 24⟩
/-- XLAT_CLEANCNT.RELOC. -/
def XLAT_CLEANCNT_RELOC : Fld := ⟨0x50054, 23, 12⟩
/-- XLAT_CLEANCNT.PARITY. -/
def XLAT_CLEANCNT_PARITY : Fld := ⟨0x50054, 11, 0⟩
/-- XLAT_CLEANCFG.REFRESH. -/
def XLAT_CLEANCFG_REFRESH : Fld := ⟨0x58000, 31, 24⟩
/-- XLAT_CLEANCFG.WEAKRUNG. -/
def XLAT_CLEANCFG_WEAKRUNG : Fld := ⟨0x58000, 23, 20⟩
/-- XLAT_CLEANCFG.IDLEMS. -/
def XLAT_CLEANCFG_IDLEMS : Fld := ⟨0x58000, 15, 0⟩
/-- CHAN_STAT.ZONE. -/
def CHAN_STAT_ZONE : Fld := ⟨0x10000, 15, 11⟩
/-- CHAN_STAT.SURF. -/
def CHAN_STAT_SURF : Fld := ⟨0x10000, 10, 9⟩
/-- CHAN_STAT.RDON. -/
def CHAN_STAT_RDON : Fld := ⟨0x10000, 8, 6⟩
/-- CHAN_STAT.MODE. -/
def CHAN_STAT_MODE : Fld := ⟨0x10000, 5, 4⟩
/-- CHAN_STAT.VENG. -/
def CHAN_STAT_VENG : Fld := ⟨0x10000, 3, 3⟩
/-- CHAN_VSTAT.VALID. -/
def CHAN_VSTAT_VALID : Fld := ⟨0x10004, 13, 8⟩
/-- CHAN_VSTAT.PINNED. -/
def CHAN_VSTAT_PINNED : Fld := ⟨0x10004, 7, 4⟩
/-- CHAN_RUNGCNT.COUNT. -/
def CHAN_RUNGCNT_COUNT (n : Nat) : Fld := ⟨0x10010 + 4 * n, 31, 0⟩
/-- CHAN_FAILCNT.UNREAD. -/
def CHAN_FAILCNT_UNREAD : Fld := ⟨0x10030, 31, 16⟩
/-- CHAN_FAILCNT.OFFTRK. -/
def CHAN_FAILCNT_OFFTRK : Fld := ⟨0x10030, 15, 0⟩
/-- CHAN_REBUILD.OK. -/
def CHAN_REBUILD_OK : Fld := ⟨0x10034, 31, 16⟩
/-- CHAN_REBUILD.FAIL. -/
def CHAN_REBUILD_FAIL : Fld := ⟨0x10034, 15, 0⟩
/-- CHAN_SLIPCNT.SLIP. -/
def CHAN_SLIPCNT_SLIP : Fld := ⟨0x10038, 31, 16⟩
/-- CHAN_SLIPCNT.WIDE. -/
def CHAN_SLIPCNT_WIDE : Fld := ⟨0x10038, 15, 0⟩
/-- CHAN_LASTFAIL_LO.TRACK. -/
def CHAN_LASTFAIL_LO_TRACK : Fld := ⟨0x10040, 31, 0⟩
/-- CHAN_LASTFAIL_HI.SURF. -/
def CHAN_LASTFAIL_HI_SURF : Fld := ⟨0x10044, 25, 24⟩
/-- CHAN_LASTFAIL_HI.POS. -/
def CHAN_LASTFAIL_HI_POS : Fld := ⟨0x10044, 9, 0⟩
/-- CHAN_SYNC.SYNCTOLW. -/
def CHAN_SYNC_SYNCTOLW : Fld := ⟨0x18000, 7, 4⟩
/-- CHAN_SYNC.SYNCTOL. -/
def CHAN_SYNC_SYNCTOL : Fld := ⟨0x18000, 3, 0⟩
/-- CHAN_SLIP.SLIPMAX. -/
def CHAN_SLIP_SLIPMAX : Fld := ⟨0x18004, 15, 12⟩
/-- CHAN_SLIP.SLIPSW. -/
def CHAN_SLIP_SLIPSW : Fld := ⟨0x18004, 11, 0⟩
/-- CHAN_LDPC.GLOBAL. -/
def CHAN_LDPC_GLOBAL : Fld := ⟨0x18008, 19, 16⟩
/-- CHAN_LDPC.ITERMAX. -/
def CHAN_LDPC_ITERMAX : Fld := ⟨0x18008, 15, 8⟩
/-- CHAN_LDPC.ITEROTF. -/
def CHAN_LDPC_ITEROTF : Fld := ⟨0x18008, 7, 0⟩
/-- CHAN_LADDER.OTOFS. -/
def CHAN_LADDER_OTOFS : Fld := ⟨0x1800C, 23, 16⟩
/-- CHAN_LADDER.MAXREV. -/
def CHAN_LADDER_MAXREV : Fld := ⟨0x1800C, 15, 12⟩
/-- CHAN_LADDER.EN. -/
def CHAN_LADDER_EN : Fld := ⟨0x1800C, 7, 0⟩
/-- CHAN_TA.TATHR. -/
def CHAN_TA_TATHR : Fld := ⟨0x18010, 15, 8⟩
/-- CHAN_TA.TAEXT. -/
def CHAN_TA_TAEXT : Fld := ⟨0x18010, 7, 0⟩
/-- CHAN_TRCFG.ACQBW. -/
def CHAN_TRCFG_ACQBW : Fld := ⟨0x18014, 15, 12⟩
/-- CHAN_TRCFG.TRKBW. -/
def CHAN_TRCFG_TRKBW : Fld := ⟨0x18014, 11, 8⟩
/-- CHAN_TRCFG.ACQBITS. -/
def CHAN_TRCFG_ACQBITS : Fld := ⟨0x18014, 7, 0⟩
/-- CHAN_ALTEQ.EN. -/
def CHAN_ALTEQ_EN (n : Nat) : Fld := ⟨0x18020 + 4 * n, 15, 15⟩
/-- CHAN_ALTEQ.ADAPT. -/
def CHAN_ALTEQ_ADAPT (n : Nat) : Fld := ⟨0x18020 + 4 * n, 14, 14⟩
/-- CHAN_ALTEQ.EMPH. -/
def CHAN_ALTEQ_EMPH (n : Nat) : Fld := ⟨0x18020 + 4 * n, 13, 8⟩
/-- CHAN_ALTEQ.OFS. -/
def CHAN_ALTEQ_OFS (n : Nat) : Fld := ⟨0x18020 + 4 * n, 7, 4⟩
/-- CHAN_ALTEQ.ASY. -/
def CHAN_ALTEQ_ASY (n : Nat) : Fld := ⟨0x18020 + 4 * n, 3, 0⟩
/-- FMT_STAT.STATE. -/
def FMT_STAT_STATE : Fld := ⟨0x20000, 31, 29⟩
/-- FMT_STAT.ZONE. -/
def FMT_STAT_ZONE : Fld := ⟨0x20000, 28, 24⟩
/-- FMT_STAT.SURF. -/
def FMT_STAT_SURF : Fld := ⟨0x20000, 23, 22⟩
/-- FMT_STAT.QUEUED. -/
def FMT_STAT_QUEUED : Fld := ⟨0x20000, 21, 16⟩
/-- FMT_STAT.WINHSHK. -/
def FMT_STAT_WINHSHK : Fld := ⟨0x20000, 7, 7⟩
/-- FMT_STAT.WINHSRV. -/
def FMT_STAT_WINHSRV : Fld := ⟨0x20000, 6, 6⟩
/-- FMT_STAT.WINHLCK. -/
def FMT_STAT_WINHLCK : Fld := ⟨0x20000, 5, 5⟩
/-- FMT_STAT.WINHPA. -/
def FMT_STAT_WINHPA : Fld := ⟨0x20000, 4, 4⟩
/-- FMT_STAT.RETRACT. -/
def FMT_STAT_RETRACT : Fld := ⟨0x20000, 0, 0⟩
/-- FMT_WRCNT.RETRY. -/
def FMT_WRCNT_RETRY : Fld := ⟨0x20010, 31, 20⟩
/-- FMT_WRCNT.FAIL. -/
def FMT_WRCNT_FAIL : Fld := ⟨0x20010, 19, 8⟩
/-- FMT_WRCNT.LATE. -/
def FMT_WRCNT_LATE : Fld := ⟨0x20010, 7, 0⟩
/-- FMT_SHOCKCNT.EVENTS. -/
def FMT_SHOCKCNT_EVENTS : Fld := ⟨0x20014, 31, 16⟩
/-- FMT_SHOCKCNT.WDRAW. -/
def FMT_SHOCKCNT_WDRAW : Fld := ⟨0x20014, 15, 8⟩
/-- FMT_SHOCKCNT.VFAIL. -/
def FMT_SHOCKCNT_VFAIL : Fld := ⟨0x20014, 7, 0⟩
/-- FMT_PASTAT.LASTFLT. -/
def FMT_PASTAT_LASTFLT : Fld := ⟨0x20018, 23, 16⟩
/-- FMT_PASTAT.FAULTS. -/
def FMT_PASTAT_FAULTS : Fld := ⟨0x20018, 15, 0⟩
/-- FMT_WRCFG.HTRLEAD. -/
def FMT_WRCFG_HTRLEAD : Fld := ⟨0x28000, 31, 20⟩
/-- FMT_WRCFG.WLEAD. -/
def FMT_WRCFG_WLEAD : Fld := ⟨0x28000, 19, 12⟩
/-- FMT_WRCFG.WRETRY. -/
def FMT_WRCFG_WRETRY : Fld := ⟨0x28000, 3, 0⟩
/-- FMT_SHOCK.HOLDUS. -/
def FMT_SHOCK_HOLDUS : Fld := ⟨0x28004, 31, 16⟩
/-- FMT_SHOCK.LOOKBACK. -/
def FMT_SHOCK_LOOKBACK : Fld := ⟨0x28004, 15, 8⟩
/-- FMT_SHOCK.VERIFY. -/
def FMT_SHOCK_VERIFY : Fld := ⟨0x28004, 0, 0⟩
/-- SERVO_STAT.STATE. -/
def SERVO_STAT_STATE : Fld := ⟨0x30000, 31, 28⟩
/-- SERVO_STAT.SURF. -/
def SERVO_STAT_SURF : Fld := ⟨0x30000, 27, 26⟩
/-- SERVO_STAT.RDOK. -/
def SERVO_STAT_RDOK : Fld := ⟨0x30000, 25, 25⟩
/-- SERVO_STAT.WROK. -/
def SERVO_STAT_WROK : Fld := ⟨0x30000, 24, 24⟩
/-- SERVO_STAT.BANK. -/
def SERVO_STAT_BANK : Fld := ⟨0x30000, 23, 22⟩
/-- SERVO_STAT.WEDGE. -/
def SERVO_STAT_WEDGE : Fld := ⟨0x30000, 21, 12⟩
/-- SERVO_STAT.MISSRUN. -/
def SERVO_STAT_MISSRUN : Fld := ⟨0x30000, 11, 8⟩
/-- SERVO_POS.TRACK. -/
def SERVO_POS_TRACK : Fld := ⟨0x30004, 31, 8⟩
/-- SERVO_POS.FRAC. -/
def SERVO_POS_FRAC : Fld := ⟨0x30004, 7, 0⟩
/-- SERVO_PES.QUAL. -/
def SERVO_PES_QUAL : Fld := ⟨0x30008, 23, 16⟩
/-- SERVO_PES.PES. -/
def SERVO_PES_PES : Fld := ⟨0x30008, 15, 0⟩
/-- SERVO_WCNT.BAD. -/
def SERVO_WCNT_BAD : Fld := ⟨0x30010, 31, 16⟩
/-- SERVO_WCNT.WRINH. -/
def SERVO_WCNT_WRINH : Fld := ⟨0x30010, 15, 0⟩
/-- SERVO_ECNT.LOST. -/
def SERVO_ECNT_LOST : Fld := ⟨0x30014, 31, 24⟩
/-- SERVO_ECNT.LOADFAIL. -/
def SERVO_ECNT_LOADFAIL : Fld := ⟨0x30014, 23, 16⟩
/-- SERVO_ECNT.EMRET. -/
def SERVO_ECNT_EMRET : Fld := ⟨0x30014, 15, 8⟩
/-- SERVO_ECNT.SETTO. -/
def SERVO_ECNT_SETTO : Fld := ⟨0x30014, 7, 0⟩
/-- SERVO_CFG.WEDGES. -/
def SERVO_CFG_WEDGES : Fld := ⟨0x38000, 26, 16⟩
/-- SERVO_CFG.LOSTMAX. -/
def SERVO_CFG_LOSTMAX : Fld := ⟨0x38000, 15, 12⟩
/-- SERVO_CFG.SVRATE. -/
def SERVO_CFG_SVRATE : Fld := ⟨0x38000, 11, 0⟩
/-- SERVO_WIN.SAMWIN. -/
def SERVO_WIN_SAMWIN : Fld := ⟨0x38004, 15, 8⟩
/-- SERVO_WIN.IDTOL. -/
def SERVO_WIN_IDTOL : Fld := ⟨0x38004, 7, 4⟩
/-- SERVO_WIN.QMIN. -/
def SERVO_WIN_QMIN : Fld := ⟨0x38004, 3, 0⟩
/-- SERVO_LIM.RDLIM. -/
def SERVO_LIM_RDLIM : Fld := ⟨0x38008, 31, 24⟩
/-- SERVO_LIM.WRLIM. -/
def SERVO_LIM_WRLIM : Fld := ⟨0x38008, 23, 16⟩
/-- SERVO_LIM.SHOUT. -/
def SERVO_LIM_SHOUT : Fld := ⟨0x38008, 15, 8⟩
/-- SERVO_LIM.RDCNT. -/
def SERVO_LIM_RDCNT : Fld := ⟨0x38008, 7, 4⟩
/-- SERVO_LIM.WRCNT. -/
def SERVO_LIM_WRCNT : Fld := ⟨0x38008, 3, 0⟩
/-- SERVO_LOAD.LOADTO. -/
def SERVO_LOAD_LOADTO : Fld := ⟨0x3800C, 31, 16⟩
/-- SERVO_LOAD.RETHOLD. -/
def SERVO_LOAD_RETHOLD : Fld := ⟨0x3800C, 15, 8⟩
/-- PRESS_STAT.STORESAT. -/
def PRESS_STAT_STORESAT : Fld := ⟨0x40000, 3, 3⟩
/-- PRESS_STAT.ACCOVF. -/
def PRESS_STAT_ACCOVF : Fld := ⟨0x40000, 2, 2⟩
/-- PRESS_STAT.MASAT. -/
def PRESS_STAT_MASAT : Fld := ⟨0x40000, 1, 1⟩
/-- PRESS_STAT.VCMSAT. -/
def PRESS_STAT_VCMSAT : Fld := ⟨0x40000, 0, 0⟩
/-- PRESS_IO.VDMD. -/
def PRESS_IO_VDMD : Fld := ⟨0x40004, 31, 16⟩
/-- PRESS_IO.IMEAS. -/
def PRESS_IO_IMEAS : Fld := ⟨0x40004, 15, 0⟩
/-- PRESS_MA.MADMD. -/
def PRESS_MA_MADMD : Fld := ⟨0x40008, 15, 0⟩
/-- PRESS_LAT.WORST. -/
def PRESS_LAT_WORST : Fld := ⟨0x4000C, 7, 0⟩
/-- PRESS_DRAIN.RESETS. -/
def PRESS_DRAIN_RESETS : Fld := ⟨0x40010, 15, 8⟩
/-- PRESS_DRAIN.DRAINS. -/
def PRESS_DRAIN_DRAINS : Fld := ⟨0x40010, 7, 0⟩
/-- PRESS_SEEK.ACCMAX. -/
def PRESS_SEEK_ACCMAX : Fld := ⟨0x48000, 31, 16⟩
/-- PRESS_SEEK.VELMAX. -/
def PRESS_SEEK_VELMAX : Fld := ⟨0x48000, 15, 0⟩
/-- PRESS_SETTLE.SETTLETO. -/
def PRESS_SETTLE_SETTLETO : Fld := ⟨0x48004, 19, 8⟩
/-- PRESS_SETTLE.TRK. -/
def PRESS_SETTLE_TRK : Fld := ⟨0x48004, 3, 0⟩
/-- PRESS_RAMP.RAMPW. -/
def PRESS_RAMP_RAMPW : Fld := ⟨0x48008, 8, 0⟩
/-- PRESS_IMAX.IMAX. -/
def PRESS_IMAX_IMAX : Fld := ⟨0x4800C, 15, 0⟩
/-- PRESS_MASTROKE.MALIM. -/
def PRESS_MASTROKE_MALIM : Fld := ⟨0x48010, 15, 0⟩
/-- SPIN_STAT.STATE. -/
def SPIN_STAT_STATE : Fld := ⟨0x50000, 31, 28⟩
/-- SPIN_STAT.LOCK. -/
def SPIN_STAT_LOCK : Fld := ⟨0x50000, 27, 27⟩
/-- SPIN_STAT.DIR. -/
def SPIN_STAT_DIR : Fld := ⟨0x50000, 26, 26⟩
/-- SPIN_STAT.CHOPOK. -/
def SPIN_STAT_CHOPOK : Fld := ⟨0x50000, 25, 25⟩
/-- SPIN_STAT.BRKDIS. -/
def SPIN_STAT_BRKDIS : Fld := ⟨0x50000, 24, 24⟩
/-- SPIN_STAT.SPDOPEN. -/
def SPIN_STAT_SPDOPEN : Fld := ⟨0x50000, 23, 23⟩
/-- SPIN_STAT.VMOTLOW. -/
def SPIN_STAT_VMOTLOW : Fld := ⟨0x50000, 22, 22⟩
/-- SPIN_STAT.FW. -/
def SPIN_STAT_FW : Fld := ⟨0x50000, 21, 21⟩
/-- SPIN_STAT.VLIM. -/
def SPIN_STAT_VLIM : Fld := ⟨0x50000, 20, 20⟩
/-- SPIN_STAT.RPM. -/
def SPIN_STAT_RPM : Fld := ⟨0x50000, 15, 0⟩
/-- SPIN_TARGET.SETPT. -/
def SPIN_TARGET_SETPT : Fld := ⟨0x50004, 31, 16⟩
/-- SPIN_TARGET.APPLIED. -/
def SPIN_TARGET_APPLIED : Fld := ⟨0x50004, 15, 0⟩
/-- SPIN_CEIL.CEIL. -/
def SPIN_CEIL_CEIL : Fld := ⟨0x50008, 31, 16⟩
/-- SPIN_CEIL.XIN. -/
def SPIN_CEIL_XIN : Fld := ⟨0x50008, 9, 0⟩
/-- SPIN_HDA.TEMP. -/
def SPIN_HDA_TEMP : Fld := ⟨0x5000C, 31, 16⟩
/-- SPIN_HDA.VALID. -/
def SPIN_HDA_VALID : Fld := ⟨0x5000C, 15, 15⟩
/-- SPIN_HDA.SRC. -/
def SPIN_HDA_SRC : Fld := ⟨0x5000C, 14, 14⟩
/-- SPIN_HDA.AGE. -/
def SPIN_HDA_AGE : Fld := ⟨0x5000C, 13, 0⟩
/-- SPIN_RES.RES. -/
def SPIN_RES_RES : Fld := ⟨0x50010, 31, 0⟩
/-- SPIN_VMOT.VMOT. -/
def SPIN_VMOT_VMOT : Fld := ⟨0x50014, 31, 16⟩
/-- SPIN_VMOT.PWR. -/
def SPIN_VMOT_PWR : Fld := ⟨0x50014, 15, 0⟩
/-- SPIN_CNT.SKIP. -/
def SPIN_CNT_SKIP : Fld := ⟨0x50018, 31, 16⟩
/-- SPIN_CNT.CLAMP. -/
def SPIN_CNT_CLAMP : Fld := ⟨0x50018, 15, 8⟩
/-- SPIN_CNT.CATCH. -/
def SPIN_CNT_CATCH : Fld := ⟨0x50018, 7, 0⟩
/-- SPIN_EVT.STARTFAIL. -/
def SPIN_EVT_STARTFAIL : Fld := ⟨0x5001C, 31, 24⟩
/-- SPIN_EVT.OVC. -/
def SPIN_EVT_OVC : Fld := ⟨0x5001C, 23, 16⟩
/-- SPIN_EVT.OVV1. -/
def SPIN_EVT_OVV1 : Fld := ⟨0x5001C, 15, 8⟩
/-- SPIN_EVT.OVV2. -/
def SPIN_EVT_OVV2 : Fld := ⟨0x5001C, 7, 0⟩
/-- SPIN_CFG.BRKEN. -/
def SPIN_CFG_BRKEN : Fld := ⟨0x58000, 31, 31⟩
/-- SPIN_CFG.SPDFORM. -/
def SPIN_CFG_SPDFORM : Fld := ⟨0x58000, 9, 8⟩
/-- SPIN_CFG.POLEPAIRS. -/
def SPIN_CFG_POLEPAIRS : Fld := ⟨0x58000, 7, 4⟩
/-- SPIN_PWM.PWMKHZ. -/
def SPIN_PWM_PWMKHZ : Fld := ⟨0x58004, 31, 24⟩
/-- SPIN_PWM.DEAD. -/
def SPIN_PWM_DEAD : Fld := ⟨0x58004, 23, 16⟩
/-- SPIN_PWM.SETTLE. -/
def SPIN_PWM_SETTLE : Fld := ⟨0x58004, 15, 8⟩
/-- SPIN_LIM.ILIM. -/
def SPIN_LIM_ILIM : Fld := ⟨0x58008, 31, 16⟩
/-- SPIN_LIM.ACCLIM. -/
def SPIN_LIM_ACCLIM : Fld := ⟨0x58008, 15, 0⟩
/-- SPIN_VTHR1.VBRK2. -/
def SPIN_VTHR1_VBRK2 : Fld := ⟨0x5800C, 31, 16⟩
/-- SPIN_VTHR1.VBRK1. -/
def SPIN_VTHR1_VBRK1 : Fld := ⟨0x5800C, 15, 0⟩
/-- SPIN_VTHR2.VCHOP. -/
def SPIN_VTHR2_VCHOP : Fld := ⟨0x58010, 31, 16⟩
/-- SPIN_VTHR2.VMOTUV. -/
def SPIN_VTHR2_VMOTUV : Fld := ⟨0x58010, 15, 0⟩
/-- SPIN_COOK.COOKMAX. -/
def SPIN_COOK_COOKMAX : Fld := ⟨0x58014, 31, 20⟩
/-- SPIN_COOK.COOKPWR. -/
def SPIN_COOK_COOKPWR : Fld := ⟨0x58014, 19, 12⟩
/-- SPIN_COOK.TSTART. -/
def SPIN_COOK_TSTART : Fld := ⟨0x58014, 11, 0⟩
/-- BMEM_STAT.PHASE. -/
def BMEM_STAT_PHASE : Fld := ⟨0x80000, 31, 28⟩
/-- BMEM_STAT.RATE. -/
def BMEM_STAT_RATE : Fld := ⟨0x80000, 27, 26⟩
/-- BMEM_STAT.DENSITY. -/
def BMEM_STAT_DENSITY : Fld := ⟨0x80000, 25, 24⟩
/-- BMEM_STAT.RANK2. -/
def BMEM_STAT_RANK2 : Fld := ⟨0x80000, 23, 23⟩
/-- BMEM_STAT.MARK1. -/
def BMEM_STAT_MARK1 : Fld := ⟨0x80000, 15, 12⟩
/-- BMEM_STAT.MARK0. -/
def BMEM_STAT_MARK0 : Fld := ⟨0x80000, 11, 8⟩
/-- BMEM_STAT.CHRDY. -/
def BMEM_STAT_CHRDY : Fld := ⟨0x80000, 1, 0⟩
/-- BMEM_ECC.CORR. -/
def BMEM_ECC_CORR (n : Nat) : Fld := ⟨0x80010 + 4 * n, 31, 16⟩
/-- BMEM_ECC.UNCORR. -/
def BMEM_ECC_UNCORR (n : Nat) : Fld := ⟨0x80010 + 4 * n, 15, 0⟩
/-- BMEM_LASTERR_LO.ADDR. -/
def BMEM_LASTERR_LO_ADDR : Fld := ⟨0x80020, 31, 4⟩
/-- BMEM_LASTERR_HI.ADDR. -/
def BMEM_LASTERR_HI_ADDR : Fld := ⟨0x80024, 3, 0⟩
/-- BMEM_MERGE.FULL. -/
def BMEM_MERGE_FULL : Fld := ⟨0x80030, 31, 16⟩
/-- BMEM_MERGE.RMW. -/
def BMEM_MERGE_RMW : Fld := ⟨0x80030, 15, 0⟩
/-- BMEM_ORDER.INORDER. -/
def BMEM_ORDER_INORDER : Fld := ⟨0x80034, 31, 16⟩
/-- BMEM_ORDER.ALERT. -/
def BMEM_ORDER_ALERT : Fld := ⟨0x80034, 15, 0⟩
/-- BMEM_REF.FORCED. -/
def BMEM_REF_FORCED : Fld := ⟨0x80038, 31, 16⟩
/-- BMEM_REF.FAST. -/
def BMEM_REF_FAST : Fld := ⟨0x80038, 1, 0⟩
/-- BMEM_TRAIN.WRVREF. -/
def BMEM_TRAIN_WRVREF (n : Nat) : Fld := ⟨0x80040 + 4 * n, 7, 4⟩
/-- BMEM_TRAIN.FAILLANE. -/
def BMEM_TRAIN_FAILLANE (n : Nat) : Fld := ⟨0x80040 + 4 * n, 3, 0⟩
/-- BMEM_DEVCNT.COUNT. -/
def BMEM_DEVCNT_COUNT (n : Nat) (k : Nat) : Fld := ⟨0x80100 + 64 * n + 4 * k, 31, 0⟩
/-- BMEM_LANE.RDCTR. -/
def BMEM_LANE_RDCTR (n : Nat) (k : Nat) : Fld := ⟨0x80200 + 64 * n + 4 * k, 31, 25⟩
/-- BMEM_LANE.RDWID. -/
def BMEM_LANE_RDWID (n : Nat) (k : Nat) : Fld := ⟨0x80200 + 64 * n + 4 * k, 24, 18⟩
/-- BMEM_LANE.WRCTR. -/
def BMEM_LANE_WRCTR (n : Nat) (k : Nat) : Fld := ⟨0x80200 + 64 * n + 4 * k, 17, 11⟩
/-- BMEM_LANE.WRWID. -/
def BMEM_LANE_WRWID (n : Nat) (k : Nat) : Fld := ⟨0x80200 + 64 * n + 4 * k, 10, 4⟩
/-- BMEM_LANE.RDVREF. -/
def BMEM_LANE_RDVREF (n : Nat) (k : Nat) : Fld := ⟨0x80200 + 64 * n + 4 * k, 3, 0⟩
/-- BMEM_PAGE.IDLE. -/
def BMEM_PAGE_IDLE : Fld := ⟨0x88000, 11, 0⟩
/-- BMEM_MARKCFG.WINMS. -/
def BMEM_MARKCFG_WINMS : Fld := ⟨0x88004, 31, 16⟩
/-- BMEM_MARKCFG.THR. -/
def BMEM_MARKCFG_THR : Fld := ⟨0x88004, 15, 0⟩
/-- BMEM_MERGECFG.HOLDNS. -/
def BMEM_MERGECFG_HOLDNS : Fld := ⟨0x88008, 15, 0⟩
/-- VAT_POOLCFG.SIZELOG2. -/
def VAT_POOLCFG_SIZELOG2 (n : Nat) : Fld := ⟨0x60000 + 4 * n, 26, 22⟩
/-- VAT_POOLCFG.COUNT. -/
def VAT_POOLCFG_COUNT (n : Nat) : Fld := ⟨0x60000 + 4 * n, 21, 0⟩
/-- VAT_POOLSTAT.QUEUED. -/
def VAT_POOLSTAT_QUEUED (n : Nat) : Fld := ⟨0x60010 + 4 * n, 28, 22⟩
/-- VAT_POOLSTAT.FREE. -/
def VAT_POOLSTAT_FREE (n : Nat) : Fld := ⟨0x60010 + 4 * n, 21, 0⟩
/-- VAT_REFUSE.COUNT. -/
def VAT_REFUSE_COUNT : Fld := ⟨0x60030, 31, 16⟩
/-- VAT_REFUSE.OP. -/
def VAT_REFUSE_OP : Fld := ⟨0x60030, 15, 12⟩
/-- VAT_REFUSE.OWNER. -/
def VAT_REFUSE_OWNER : Fld := ⟨0x60030, 11, 0⟩
/-- VAT_REFHANDLE.HANDLE. -/
def VAT_REFHANDLE_HANDLE : Fld := ⟨0x60034, 31, 0⟩
/-- VAT_EVT.EMPTY. -/
def VAT_EVT_EMPTY : Fld := ⟨0x60038, 31, 16⟩
/-- VAT_EVT.QFULL. -/
def VAT_EVT_QFULL : Fld := ⟨0x60038, 15, 0⟩
/-- VAT_RESV.RESV3. -/
def VAT_RESV_RESV3 : Fld := ⟨0x68000, 31, 24⟩
/-- VAT_RESV.RESV2. -/
def VAT_RESV_RESV2 : Fld := ⟨0x68000, 23, 16⟩
/-- VAT_RESV.RESV1. -/
def VAT_RESV_RESV1 : Fld := ⟨0x68000, 15, 8⟩
/-- VAT_RESV.RESV0. -/
def VAT_RESV_RESV0 : Fld := ⟨0x68000, 7, 0⟩
/-- CAVE_STAT.BUSY. -/
def CAVE_STAT_BUSY : Fld := ⟨0x70000, 2, 2⟩
/-- CAVE_STAT.INVDONE. -/
def CAVE_STAT_INVDONE : Fld := ⟨0x70000, 1, 1⟩
/-- CAVE_STAT.EN. -/
def CAVE_STAT_EN : Fld := ⟨0x70000, 0, 0⟩
/-- CAVE_HIT.COUNT. -/
def CAVE_HIT_COUNT : Fld := ⟨0x70010, 31, 0⟩
/-- CAVE_MISS.COUNT. -/
def CAVE_MISS_COUNT : Fld := ⟨0x70014, 31, 0⟩
/-- CAVE_ERR.CLEANPE. -/
def CAVE_ERR_CLEANPE : Fld := ⟨0x70018, 31, 16⟩
/-- CAVE_ERR.PLRUPE. -/
def CAVE_ERR_PLRUPE : Fld := ⟨0x70018, 15, 8⟩
/-- CAVE_ERR.EVBFULL. -/
def CAVE_ERR_EVBFULL : Fld := ⟨0x70018, 7, 0⟩
/-- CAVE_MAINTCNT.DROPPED. -/
def CAVE_MAINTCNT_DROPPED : Fld := ⟨0x7001C, 31, 16⟩
/-- CAVE_MAINTCNT.REFUSED. -/
def CAVE_MAINTCNT_REFUSED : Fld := ⟨0x7001C, 15, 0⟩
/-- CAVE_CTL.EN. -/
def CAVE_CTL_EN : Fld := ⟨0x78000, 0, 0⟩
/-- CAVE_MAINT.GO. -/
def CAVE_MAINT_GO : Fld := ⟨0x78004, 4, 4⟩
/-- CAVE_MAINT.SPARE_LOCKED. -/
def CAVE_MAINT_SPARE_LOCKED : Fld := ⟨0x78004, 3, 3⟩
/-- CAVE_MAINT.OP. -/
def CAVE_MAINT_OP : Fld := ⟨0x78004, 1, 0⟩
/-- CAVE_MBASE.LINE. -/
def CAVE_MBASE_LINE : Fld := ⟨0x78008, 28, 0⟩
/-- CAVE_MLIMIT.LINE. -/
def CAVE_MLIMIT_LINE : Fld := ⟨0x7800C, 28, 0⟩
/-- CAVE_LOCK.L7. -/
def CAVE_LOCK_L7 : Fld := ⟨0x78010, 31, 31⟩
/-- CAVE_LOCK.CLASS7. -/
def CAVE_LOCK_CLASS7 : Fld := ⟨0x78010, 30, 28⟩
/-- CAVE_LOCK.L6. -/
def CAVE_LOCK_L6 : Fld := ⟨0x78010, 27, 27⟩
/-- CAVE_LOCK.CLASS6. -/
def CAVE_LOCK_CLASS6 : Fld := ⟨0x78010, 26, 24⟩
/-- CAVE_LOCK.L5. -/
def CAVE_LOCK_L5 : Fld := ⟨0x78010, 23, 23⟩
/-- CAVE_LOCK.CLASS5. -/
def CAVE_LOCK_CLASS5 : Fld := ⟨0x78010, 22, 20⟩
/-- CAVE_LOCK.L4. -/
def CAVE_LOCK_L4 : Fld := ⟨0x78010, 19, 19⟩
/-- CAVE_LOCK.CLASS4. -/
def CAVE_LOCK_CLASS4 : Fld := ⟨0x78010, 18, 16⟩
/-- CAVE_LOCK.L3. -/
def CAVE_LOCK_L3 : Fld := ⟨0x78010, 15, 15⟩
/-- CAVE_LOCK.CLASS3. -/
def CAVE_LOCK_CLASS3 : Fld := ⟨0x78010, 14, 12⟩
/-- CAVE_LOCK.L2. -/
def CAVE_LOCK_L2 : Fld := ⟨0x78010, 11, 11⟩
/-- CAVE_LOCK.CLASS2. -/
def CAVE_LOCK_CLASS2 : Fld := ⟨0x78010, 10, 8⟩
/-- CAVE_LOCK.L1. -/
def CAVE_LOCK_L1 : Fld := ⟨0x78010, 7, 7⟩
/-- CAVE_LOCK.CLASS1. -/
def CAVE_LOCK_CLASS1 : Fld := ⟨0x78010, 6, 4⟩
/-- CAVE_LOCK.L0. -/
def CAVE_LOCK_L0 : Fld := ⟨0x78010, 3, 3⟩
/-- CAVE_LOCK.CLASS0. -/
def CAVE_LOCK_CLASS0 : Fld := ⟨0x78010, 2, 0⟩
/-- LADLE_CHSTAT.STATE. -/
def LADLE_CHSTAT_STATE (n : Nat) : Fld := ⟨0x90000 + 64 * n, 31, 30⟩
/-- LADLE_CHSTAT.LASTEVT. -/
def LADLE_CHSTAT_LASTEVT (n : Nat) : Fld := ⟨0x90000 + 64 * n, 29, 28⟩
/-- LADLE_CHSTAT.DESCS. -/
def LADLE_CHSTAT_DESCS (n : Nat) : Fld := ⟨0x90000 + 64 * n, 15, 0⟩
/-- LADLE_XFER.HOPCNT. -/
def LADLE_XFER_HOPCNT (n : Nat) : Fld := ⟨0x90004 + 64 * n, 31, 16⟩
/-- LADLE_CHACK.BYTES. -/
def LADLE_CHACK_BYTES (n : Nat) : Fld := ⟨0x90008 + 64 * n, 23, 0⟩
/-- LADLE_STAT.STOPPED. -/
def LADLE_STAT_STOPPED : Fld := ⟨0x91000, 31, 31⟩
/-- LADLE_STAT.PASSCH. -/
def LADLE_STAT_PASSCH : Fld := ⟨0x91000, 4, 0⟩
/-- LADLE_SHADOW_PEND.PEND. -/
def LADLE_SHADOW_PEND_PEND : Fld := ⟨0x91004, 31, 0⟩
/-- LADLE_ERRCNT.BUSERR. -/
def LADLE_ERRCNT_BUSERR : Fld := ⟨0x91008, 31, 24⟩
/-- LADLE_ERRCNT.CULPRIT. -/
def LADLE_ERRCNT_CULPRIT : Fld := ⟨0x91008, 23, 16⟩
/-- LADLE_ERRCNT.NOCULP. -/
def LADLE_ERRCNT_NOCULP : Fld := ⟨0x91008, 15, 8⟩
/-- LADLE_ERRCNT.CHAIN. -/
def LADLE_ERRCNT_CHAIN : Fld := ⟨0x91008, 7, 0⟩
/-- LADLE_HOPMAX.MAX. -/
def LADLE_HOPMAX_MAX : Fld := ⟨0x98000, 15, 0⟩
/-- CULT_ENG.STATE. -/
def CULT_ENG_STATE (n : Nat) : Fld := ⟨0xA0010 + 8 * n, 31, 30⟩
/-- CULT_ENG.CPC. -/
def CULT_ENG_CPC (n : Nat) : Fld := ⟨0xA0010 + 8 * n, 29, 16⟩
/-- CULT_ENG.PC. -/
def CULT_ENG_PC (n : Nat) : Fld := ⟨0xA0010 + 8 * n, 13, 0⟩
/-- CULT_CNT.ABANDON. -/
def CULT_CNT_ABANDON (n : Nat) : Fld := ⟨0xA0014 + 8 * n, 31, 24⟩
/-- CULT_CNT.STOPPED. -/
def CULT_CNT_STOPPED (n : Nat) : Fld := ⟨0xA0014 + 8 * n, 23, 16⟩
/-- CULT_CNT.EVQ. -/
def CULT_CNT_EVQ (n : Nat) : Fld := ⟨0xA0014 + 8 * n, 4, 0⟩
/-- CULT_STORE.CORR. -/
def CULT_STORE_CORR : Fld := ⟨0xA0050, 31, 16⟩
/-- CULT_STORE.LOADED. -/
def CULT_STORE_LOADED : Fld := ⟨0xA0050, 0, 0⟩
/-- CULT_SFAULT.CAUSE. -/
def CULT_SFAULT_CAUSE : Fld := ⟨0xA0054, 31, 28⟩
/-- CULT_SFAULT.ENGINE. -/
def CULT_SFAULT_ENGINE : Fld := ⟨0xA0054, 26, 24⟩
/-- CULT_SFAULT.ADDR. -/
def CULT_SFAULT_ADDR : Fld := ⟨0xA0054, 13, 0⟩
/-- CULT_TRACECTL.EN. -/
def CULT_TRACECTL_EN : Fld := ⟨0xA0060, 31, 31⟩
/-- CULT_TRACECTL.FREEZE. -/
def CULT_TRACECTL_FREEZE : Fld := ⟨0xA0060, 30, 30⟩
/-- CULT_TRACECTL.ALL. -/
def CULT_TRACECTL_ALL : Fld := ⟨0xA0060, 29, 29⟩
/-- CULT_TRACECTL.MASK. -/
def CULT_TRACECTL_MASK : Fld := ⟨0xA0060, 7, 0⟩
/-- CULT_TRACEPTR.WRAP. -/
def CULT_TRACEPTR_WRAP : Fld := ⟨0xA0064, 31, 31⟩
/-- CULT_TRACEPTR.NEXT. -/
def CULT_TRACEPTR_NEXT : Fld := ⟨0xA0064, 8, 0⟩
/-- CULT_CSADDR.ADDR. -/
def CULT_CSADDR_ADDR : Fld := ⟨0xA0070, 13, 0⟩
/-- CULT_CSDATA.WORD. -/
def CULT_CSDATA_WORD (n : Nat) : Fld := ⟨0xA0074 + 4 * n, 31, 0⟩
/-- CULT_CFG.RTOMS. -/
def CULT_CFG_RTOMS : Fld := ⟨0xA8000, 31, 16⟩
/-- CULT_CFG.RETRYMAX. -/
def CULT_CFG_RETRYMAX : Fld := ⟨0xA8000, 3, 0⟩
/-- STEP_STAT.ROLE. -/
def STEP_STAT_ROLE : Fld := ⟨0xB0000, 31, 29⟩
/-- STEP_STAT.REDUND. -/
def STEP_STAT_REDUND : Fld := ⟨0xB0000, 28, 27⟩
/-- STEP_STAT.LEASE. -/
def STEP_STAT_LEASE : Fld := ⟨0xB0000, 26, 26⟩
/-- STEP_STAT.LINKUP. -/
def STEP_STAT_LINKUP : Fld := ⟨0xB0000, 25, 25⟩
/-- STEP_STAT.LAG. -/
def STEP_STAT_LAG : Fld := ⟨0xB0000, 8, 0⟩
/-- STEP_NUM_LO.STEP. -/
def STEP_NUM_LO_STEP : Fld := ⟨0xB0004, 31, 0⟩
/-- STEP_NUM_HI.STEP. -/
def STEP_NUM_HI_STEP : Fld := ⟨0xB0008, 31, 0⟩
/-- STEP_EPOCH.EPOCH. -/
def STEP_EPOCH_EPOCH : Fld := ⟨0xB000C, 31, 0⟩
/-- STEP_BLOCK.BLOCK. -/
def STEP_BLOCK_BLOCK : Fld := ⟨0xB0010, 31, 0⟩
/-- STEP_WHEY.PEER. -/
def STEP_WHEY_PEER : Fld := ⟨0xB0014, 31, 16⟩
/-- STEP_WHEY.RELAY. -/
def STEP_WHEY_RELAY : Fld := ⟨0xB0014, 15, 0⟩
/-- STEP_DIV.COUNT. -/
def STEP_DIV_COUNT : Fld := ⟨0xB0018, 31, 24⟩
/-- STEP_DIV.CAUSE. -/
def STEP_DIV_CAUSE : Fld := ⟨0xB0018, 23, 20⟩
/-- STEP_DIV.FLAGGED. -/
def STEP_DIV_FLAGGED : Fld := ⟨0xB0018, 19, 18⟩
/-- STEP_DIV.TARGET. -/
def STEP_DIV_TARGET : Fld := ⟨0xB0018, 17, 17⟩
/-- STEP_EVT.SPLITS. -/
def STEP_EVT_SPLITS : Fld := ⟨0xB001C, 31, 24⟩
/-- STEP_EVT.FENCES. -/
def STEP_EVT_FENCES : Fld := ⟨0xB001C, 23, 16⟩
/-- STEP_EVT.TURNS. -/
def STEP_EVT_TURNS : Fld := ⟨0xB001C, 15, 8⟩
/-- STEP_EVT.RESYNCS. -/
def STEP_EVT_RESYNCS : Fld := ⟨0xB001C, 7, 0⟩
/-- STEP_RESYNC.PHASE. -/
def STEP_RESYNC_PHASE : Fld := ⟨0xB0020, 31, 30⟩
/-- STEP_RESYNC.MIB. -/
def STEP_RESYNC_MIB : Fld := ⟨0xB0020, 16, 0⟩
/-- STEP_NEXTTURN.SECONDS. -/
def STEP_NEXTTURN_SECONDS : Fld := ⟨0xB0024, 31, 0⟩
/-- STEP_CFG.TURNMIN. -/
def STEP_CFG_TURNMIN : Fld := ⟨0xB8000, 31, 21⟩
/-- STEP_CFG.SWRITE. -/
def STEP_CFG_SWRITE : Fld := ⟨0xB8000, 20, 20⟩
/-- STEP_CFG.AUTORS. -/
def STEP_CFG_AUTORS : Fld := ⟨0xB8000, 19, 19⟩
/-- STEP_CFG.RSMAX. -/
def STEP_CFG_RSMAX : Fld := ⟨0xB8000, 18, 16⟩
/-- STEP_CFG.DIGTO. -/
def STEP_CFG_DIGTO : Fld := ⟨0xB8000, 15, 8⟩
/-- STEP_CFG.CLOSEUS. -/
def STEP_CFG_CLOSEUS : Fld := ⟨0xB8000, 7, 0⟩
/-- STEP_CTL.TURNNOW. -/
def STEP_CTL_TURNNOW : Fld := ⟨0xB8004, 1, 1⟩
/-- STEP_CTL.RESYNC. -/
def STEP_CTL_RESYNC : Fld := ⟨0xB8004, 0, 0⟩
/-- CDIE_LEASE.HOLDER. -/
def CDIE_LEASE_HOLDER : Fld := ⟨0x300, 31, 31⟩
/-- CDIE_LEASE.SINGLE. -/
def CDIE_LEASE_SINGLE : Fld := ⟨0x300, 30, 30⟩
/-- CDIE_LEASE.F1LIVE. -/
def CDIE_LEASE_F1LIVE : Fld := ⟨0x300, 29, 29⟩
/-- CDIE_LEASE.F0LIVE. -/
def CDIE_LEASE_F0LIVE : Fld := ⟨0x300, 28, 28⟩
/-- CDIE_EPOCH.EPOCH. -/
def CDIE_EPOCH_EPOCH : Fld := ⟨0x304, 31, 0⟩
/-- CDIE_WHEY.COUNT. -/
def CDIE_WHEY_COUNT : Fld := ⟨0x308, 31, 0⟩
/-- CDIE_STEPCNT.UNPAIRED. -/
def CDIE_STEPCNT_UNPAIRED : Fld := ⟨0x30C, 31, 16⟩
/-- CDIE_STEPCNT.MISMATCH. -/
def CDIE_STEPCNT_MISMATCH : Fld := ⟨0x30C, 15, 0⟩
/-- BUDGET_STAT.LEVEL. -/
def BUDGET_STAT_LEVEL : Fld := ⟨0xC0000, 31, 28⟩
/-- BUDGET_STAT.SAG. -/
def BUDGET_STAT_SAG : Fld := ⟨0xC0000, 27, 27⟩
/-- BUDGET_STAT.WARN. -/
def BUDGET_STAT_WARN : Fld := ⟨0xC0000, 26, 26⟩
/-- BUDGET_STAT.THROT. -/
def BUDGET_STAT_THROT : Fld := ⟨0xC0000, 25, 25⟩
/-- BUDGET_STAT.ENF. -/
def BUDGET_STAT_ENF : Fld := ⟨0xC0000, 24, 24⟩
/-- BUDGET_STAT.DEPTH. -/
def BUDGET_STAT_DEPTH : Fld := ⟨0xC0000, 23, 21⟩
/-- BUDGET_STAT.VTGT. -/
def BUDGET_STAT_VTGT : Fld := ⟨0xC0000, 15, 8⟩
/-- BUDGET_STAT.ACTLIM. -/
def BUDGET_STAT_ACTLIM : Fld := ⟨0xC0000, 7, 5⟩
/-- BUDGET_TEMP.TEMP. -/
def BUDGET_TEMP_TEMP (n : Nat) : Fld := ⟨0xC0010 + 4 * n, 31, 16⟩
/-- BUDGET_TEMP.STATE. -/
def BUDGET_TEMP_STATE (n : Nat) : Fld := ⟨0xC0010 + 4 * n, 15, 14⟩
/-- BUDGET_TEMP.SAMPLES. -/
def BUDGET_TEMP_SAMPLES (n : Nat) : Fld := ⟨0xC0010 + 4 * n, 13, 12⟩
/-- BUDGET_PWR.PMEAS. -/
def BUDGET_PWR_PMEAS : Fld := ⟨0xC0050, 31, 16⟩
/-- BUDGET_PWR.PPRED. -/
def BUDGET_PWR_PPRED : Fld := ⟨0xC0050, 15, 0⟩
/-- BUDGET_OUT.SPDTGT. -/
def BUDGET_OUT_SPDTGT : Fld := ⟨0xC0054, 31, 16⟩
/-- BUDGET_OUT.CLEANOK. -/
def BUDGET_OUT_CLEANOK : Fld := ⟨0xC0054, 15, 15⟩
/-- BUDGET_OUT.READERS. -/
def BUDGET_OUT_READERS : Fld := ⟨0xC0054, 11, 0⟩
/-- BUDGET_OUT2.SEEKPCT. -/
def BUDGET_OUT2_SEEKPCT : Fld := ⟨0xC0058, 31, 24⟩
/-- BUDGET_OUT2.RIN. -/
def BUDGET_OUT2_RIN : Fld := ⟨0xC0058, 23, 12⟩
/-- BUDGET_OUT2.STRBUF. -/
def BUDGET_OUT2_STRBUF : Fld := ⟨0xC0058, 11, 0⟩
/-- BUDGET_IN.VIN. -/
def BUDGET_IN_VIN (n : Nat) : Fld := ⟨0xC0060 + 4 * n, 31, 20⟩
/-- BUDGET_IN.TEMP. -/
def BUDGET_IN_TEMP (n : Nat) : Fld := ⟨0xC0060 + 4 * n, 19, 4⟩
/-- BUDGET_PMB.IVCORE. -/
def BUDGET_PMB_IVCORE : Fld := ⟨0xC0068, 31, 16⟩
/-- BUDGET_PMB.VVCORE. -/
def BUDGET_PMB_VVCORE : Fld := ⟨0xC0068, 15, 0⟩
/-- BUDGET_EVT.WARNS. -/
def BUDGET_EVT_WARNS : Fld := ⟨0xC0070, 31, 24⟩
/-- BUDGET_EVT.THROTS. -/
def BUDGET_EVT_THROTS : Fld := ⟨0xC0070, 23, 16⟩
/-- BUDGET_EVT.ENFS. -/
def BUDGET_EVT_ENFS : Fld := ⟨0xC0070, 15, 8⟩
/-- BUDGET_EVT.SHUTDN. -/
def BUDGET_EVT_SHUTDN : Fld := ⟨0xC0070, 7, 0⟩
/-- BUDGET_CAP.PCAP. -/
def BUDGET_CAP_PCAP : Fld := ⟨0xC8000, 31, 16⟩
/-- BUDGET_CAP.SYSCAP. -/
def BUDGET_CAP_SYSCAP : Fld := ⟨0xC8000, 15, 0⟩
/-- BUDGET_POL.RAISE. -/
def BUDGET_POL_RAISE : Fld := ⟨0xC8004, 31, 30⟩
/-- BUDGET_POL.RAISEMS. -/
def BUDGET_POL_RAISEMS : Fld := ⟨0xC8004, 29, 20⟩
/-- BUDGET_POL.HOLDS. -/
def BUDGET_POL_HOLDS : Fld := ⟨0xC8004, 19, 12⟩
/-- BUDGET_POL.WARNLVL. -/
def BUDGET_POL_WARNLVL : Fld := ⟨0xC8004, 7, 4⟩
/-- BUDGET_POL.THRLVL. -/
def BUDGET_POL_THRLVL : Fld := ⟨0xC8004, 3, 0⟩
/-- BUDGET_POL2.GRACE. -/
def BUDGET_POL2_GRACE : Fld := ⟨0xC8008, 31, 24⟩
/-- BUDGET_POL2.SAGLVL. -/
def BUDGET_POL2_SAGLVL : Fld := ⟨0xC8008, 23, 20⟩
/-- BUDGET_POL2.SEEKRED. -/
def BUDGET_POL2_SEEKRED : Fld := ⟨0xC8008, 19, 12⟩
/-- BUDGET_POL2.PFIX. -/
def BUDGET_POL2_PFIX : Fld := ⟨0xC8008, 7, 0⟩
/-- BUDGET_WAT.HIWAT. -/
def BUDGET_WAT_HIWAT : Fld := ⟨0xC800C, 31, 20⟩
/-- BUDGET_WAT.LOWAT. -/
def BUDGET_WAT_LOWAT : Fld := ⟨0xC800C, 19, 8⟩
/-- BUDGET_WAT.MARGIN. -/
def BUDGET_WAT_MARGIN : Fld := ⟨0xC800C, 7, 0⟩
/-- BUDGET_HDA.HDAHOT. -/
def BUDGET_HDA_HDAHOT : Fld := ⟨0xC8010, 31, 16⟩
/-- BUDGET_HDA.HDACOLD. -/
def BUDGET_HDA_HDACOLD : Fld := ⟨0xC8010, 15, 0⟩
/-- BUDGET_ACTPWR.P3. -/
def BUDGET_ACTPWR_P3 : Fld := ⟨0xC8014, 31, 24⟩
/-- BUDGET_ACTPWR.P2. -/
def BUDGET_ACTPWR_P2 : Fld := ⟨0xC8014, 23, 16⟩
/-- BUDGET_ACTPWR.P1. -/
def BUDGET_ACTPWR_P1 : Fld := ⟨0xC8014, 15, 8⟩
/-- BUDGET_ACTPWR.PIDLE. -/
def BUDGET_ACTPWR_PIDLE : Fld := ⟨0xC8014, 7, 0⟩
/-- BUDGET_ECOST.ESEEK. -/
def BUDGET_ECOST_ESEEK : Fld := ⟨0xC8018, 31, 16⟩
/-- BUDGET_ECOST.ESECT. -/
def BUDGET_ECOST_ESECT : Fld := ⟨0xC8018, 15, 0⟩
/-- BUDGET_ROR.EN. -/
def BUDGET_ROR_EN : Fld := ⟨0xC8040, 31, 31⟩
/-- BUDGET_ROR.WIN. -/
def BUDGET_ROR_WIN : Fld := ⟨0xC8040, 23, 16⟩
/-- BUDGET_ROR.LIMIT. -/
def BUDGET_ROR_LIMIT : Fld := ⟨0xC8040, 15, 0⟩
/-- BUDGET_THR.TEMP. -/
def BUDGET_THR_TEMP (n : Nat) (k : Nat) : Fld := ⟨0xC8100 + 16 * n + 4 * k, 31, 16⟩
/-- BUDGET_THR.HYST. -/
def BUDGET_THR_HYST (n : Nat) (k : Nat) : Fld := ⟨0xC8100 + 16 * n + 4 * k, 15, 0⟩
/-- FAULT_INJ.ARM. -/
def FAULT_INJ_ARM : Fld := ⟨0xD8010, 31, 31⟩
/-- FAULT_INJ.GO. -/
def FAULT_INJ_GO : Fld := ⟨0xD8010, 30, 30⟩
/-- FAULT_INJ.USED. -/
def FAULT_INJ_USED : Fld := ⟨0xD8010, 29, 29⟩
/-- FAULT_INJ.DIE. -/
def FAULT_INJ_DIE : Fld := ⟨0xD8010, 28, 28⟩
/-- FAULT_INJ.MODE. -/
def FAULT_INJ_MODE : Fld := ⟨0xD8010, 27, 24⟩
/-- FAULT_INJ.SOURCE. -/
def FAULT_INJ_SOURCE : Fld := ⟨0xD8010, 23, 14⟩
/-- FAULT_INJTGT.TARGET. -/
def FAULT_INJTGT_TARGET : Fld := ⟨0xD8014, 31, 0⟩
/-- FAULT_STAT.STATE. -/
def FAULT_STAT_STATE : Fld := ⟨0xD0000, 31, 30⟩
/-- FAULT_STAT.RECOV. -/
def FAULT_STAT_RECOV : Fld := ⟨0xD0000, 23, 16⟩
/-- FAULT_STAT.QUIET. -/
def FAULT_STAT_QUIET : Fld := ⟨0xD0000, 15, 0⟩
/-- FAULT_LAST.SOURCE. -/
def FAULT_LAST_SOURCE : Fld := ⟨0xD0004, 31, 16⟩
/-- FAULT_LAST.DIE. -/
def FAULT_LAST_DIE : Fld := ⟨0xD0004, 15, 12⟩
/-- FAULT_LAST.SEV. -/
def FAULT_LAST_SEV : Fld := ⟨0xD0004, 2, 0⟩
/-- FAULT_RECOV.COUNT. -/
def FAULT_RECOV_COUNT : Fld := ⟨0xD0008, 31, 0⟩
/-- FAULT_RUNG.COUNT. -/
def FAULT_RUNG_COUNT (n : Nat) : Fld := ⟨0xD0010 + 4 * n, 31, 0⟩
/-- FAULT_CTL.ABANDON. -/
def FAULT_CTL_ABANDON : Fld := ⟨0xD0030, 1, 1⟩
/-- FAULT_CTL.UNLATCH. -/
def FAULT_CTL_UNLATCH : Fld := ⟨0xD0030, 0, 0⟩
/-- FAULT_SRC.EVENTS. -/
def FAULT_SRC_EVENTS (n : Nat) : Fld := ⟨0xD1000 + 4 * n, 31, 16⟩
/-- FAULT_SRC.EFF. -/
def FAULT_SRC_EFF (n : Nat) : Fld := ⟨0xD1000 + 4 * n, 15, 13⟩
/-- FAULT_CFG.QUIET. -/
def FAULT_CFG_QUIET : Fld := ⟨0xD8000, 31, 24⟩
/-- FAULT_CFG.LATCHN. -/
def FAULT_CFG_LATCHN : Fld := ⟨0xD8000, 23, 16⟩
/-- FAULT_CFG.FUNCWIN. -/
def FAULT_CFG_FUNCWIN : Fld := ⟨0xD8000, 15, 8⟩
/-- FAULT_CMDTO.IOTO. -/
def FAULT_CMDTO_IOTO : Fld := ⟨0xD8004, 31, 16⟩
/-- FAULT_CMDTO.ADMTO. -/
def FAULT_CMDTO_ADMTO : Fld := ⟨0xD8004, 15, 0⟩
/-- FAULT_SRCCFG0.SEV. -/
def FAULT_SRCCFG_SEV (n : Nat) : Fld := ⟨0xD9000 + 8 * n, 31, 29⟩
/-- FAULT_SRCCFG0.COUNTED. -/
def FAULT_SRCCFG_COUNTED (n : Nat) : Fld := ⟨0xD9000 + 8 * n, 28, 28⟩
/-- FAULT_SRCCFG0.N. -/
def FAULT_SRCCFG_N (n : Nat) : Fld := ⟨0xD9000 + 8 * n, 15, 0⟩
/-- FAULT_SRCCFG1.W. -/
def FAULT_SRCCFG_W (n : Nat) : Fld := ⟨0xD9004 + 8 * n, 31, 0⟩
/-- LOG_STAT.FROZEN. -/
def LOG_STAT_FROZEN : Fld := ⟨0xE0000, 31, 31⟩
/-- LOG_STAT.SCANNED. -/
def LOG_STAT_SCANNED : Fld := ⟨0xE0000, 30, 30⟩
/-- LOG_STAT.RESERVE. -/
def LOG_STAT_RESERVE : Fld := ⟨0xE0000, 29, 29⟩
/-- LOG_STAT.QUEUED. -/
def LOG_STAT_QUEUED : Fld := ⟨0xE0000, 8, 0⟩
/-- LOG_CTL.FREEZE. -/
def LOG_CTL_FREEZE : Fld := ⟨0xE0004, 0, 0⟩
/-- LOG_RSEQ.NEXT. -/
def LOG_RSEQ_NEXT : Fld := ⟨0xE0008, 31, 0⟩
/-- LOG_OPSEC.SEC. -/
def LOG_OPSEC_SEC : Fld := ⟨0xE000C, 31, 0⟩
/-- LOG_PCYC.COUNT. -/
def LOG_PCYC_COUNT : Fld := ⟨0xE0010, 23, 0⟩
/-- LOG_CNT_RAISED.RAISED. -/
def LOG_CNT_RAISED (n : Nat) : Fld := ⟨0xE0020 + 16 * n, 31, 0⟩
/-- LOG_CNT_STORED.STORED. -/
def LOG_CNT_STORED (n : Nat) : Fld := ⟨0xE0024 + 16 * n, 31, 0⟩
/-- LOG_CNT_DROPPED.DROPPED. -/
def LOG_CNT_DROPPED (n : Nat) : Fld := ⟨0xE0028 + 16 * n, 31, 0⟩
/-- LOG_CNT_QUEUED.QUEUED. -/
def LOG_CNT_QUEUED (n : Nat) : Fld := ⟨0xE002C + 16 * n, 31, 0⟩
/-- LOG_CFG.MARKMIN. -/
def LOG_CFG_MARKMIN : Fld := ⟨0xE8000, 7, 0⟩
/-- TALLY_STAT.OK. -/
def TALLY_STAT_OK : Fld := ⟨0xF0000, 31, 31⟩
/-- TALLY_STAT.VIOL. -/
def TALLY_STAT_VIOL : Fld := ⟨0xF0000, 30, 30⟩
/-- TALLY_STAT.AGE. -/
def TALLY_STAT_AGE : Fld := ⟨0xF0000, 15, 0⟩
/-- TALLY_SNAP_LO.SNAP. -/
def TALLY_SNAP_LO_SNAP : Fld := ⟨0xF0004, 31, 0⟩
/-- TALLY_SNAP_HI.SNAP. -/
def TALLY_SNAP_HI_SNAP : Fld := ⟨0xF0008, 31, 0⟩
/-- TALLY_CHECKS.COUNT. -/
def TALLY_CHECKS_COUNT : Fld := ⟨0xF000C, 31, 0⟩
/-- TALLY_NLEDG.COUNT. -/
def TALLY_NLEDG_COUNT : Fld := ⟨0xF0010, 8, 0⟩
/-- TALLY_LEDG.WORD. -/
def TALLY_LEDG_WORD (n : Nat) (k : Nat) : Fld := ⟨0xF1000 + 32 * n + 4 * k, 31, 0⟩
/-- DEV_ID.PART. -/
def DEV_ID_PART : Fld := ⟨0x0, 31, 16⟩
/-- DEV_ID.FDIES. -/
def DEV_ID_FDIES : Fld := ⟨0x0, 15, 12⟩
/-- DEV_ID.CDIES. -/
def DEV_ID_CDIES : Fld := ⟨0x0, 11, 8⟩
/-- CDIE_STALLCNT.COUNT. -/
def CDIE_STALLCNT_COUNT : Fld := ⟨0x140, 31, 0⟩
/-- CDIE_STALLLIM.LIMIT. -/
def CDIE_STALLLIM_LIMIT : Fld := ⟨0x8100, 7, 0⟩
/-- CDIE_SHOCK.ACT. -/
def CDIE_SHOCK_ACT : Fld := ⟨0x8104, 0, 0⟩
/-- LADLE_ACT0.W. -/
def LADLE_ACT0_W (n : Nat) : Fld := ⟨0x90010 + 64 * n, 31, 0⟩
/-- LADLE_ACT1.W. -/
def LADLE_ACT1_W (n : Nat) : Fld := ⟨0x90014 + 64 * n, 31, 0⟩
/-- LADLE_ACT2.W. -/
def LADLE_ACT2_W (n : Nat) : Fld := ⟨0x90018 + 64 * n, 31, 0⟩
/-- LADLE_ACT3.W. -/
def LADLE_ACT3_W (n : Nat) : Fld := ⟨0x9001C + 64 * n, 31, 0⟩
/-- LADLE_ACT4.W. -/
def LADLE_ACT4_W (n : Nat) : Fld := ⟨0x90020 + 64 * n, 31, 0⟩
/-- LADLE_ACT5.W. -/
def LADLE_ACT5_W (n : Nat) : Fld := ⟨0x90024 + 64 * n, 31, 0⟩
/-- LADLE_SHD0.W. -/
def LADLE_SHD0_W (n : Nat) : Fld := ⟨0x90028 + 64 * n, 31, 0⟩
/-- LADLE_SHD1.W. -/
def LADLE_SHD1_W (n : Nat) : Fld := ⟨0x9002C + 64 * n, 31, 0⟩
/-- LADLE_SHD2.W. -/
def LADLE_SHD2_W (n : Nat) : Fld := ⟨0x90030 + 64 * n, 31, 0⟩
/-- LADLE_SHD3.W. -/
def LADLE_SHD3_W (n : Nat) : Fld := ⟨0x90034 + 64 * n, 31, 0⟩
/-- LADLE_SHD4.W. -/
def LADLE_SHD4_W (n : Nat) : Fld := ⟨0x90038 + 64 * n, 31, 0⟩
/-- LADLE_SHD5.W. -/
def LADLE_SHD5_W (n : Nat) : Fld := ⟨0x9003C + 64 * n, 31, 0⟩
/-- CULT_TRACE.W. -/
def CULT_TRACE_W (n : Nat) (k : Nat) : Fld := ⟨0xA4000 + 16 * n + 4 * k, 31, 0⟩
/-- CDIE_TRACE.W. -/
def CDIE_TRACE_W (n : Nat) (k : Nat) : Fld := ⟨0x1000 + 16 * n + 4 * k, 31, 0⟩
/-- CDIE_FCENG.STATE. -/
def CDIE_FCENG_STATE : Fld := ⟨0x200, 31, 30⟩
/-- CDIE_FCENG.CPC. -/
def CDIE_FCENG_CPC : Fld := ⟨0x200, 29, 16⟩
/-- CDIE_FCENG.PC. -/
def CDIE_FCENG_PC : Fld := ⟨0x200, 13, 0⟩
/-- CDIE_FCCNT.ABANDON. -/
def CDIE_FCCNT_ABANDON : Fld := ⟨0x204, 31, 24⟩
/-- CDIE_FCCNT.STOPPED. -/
def CDIE_FCCNT_STOPPED : Fld := ⟨0x204, 23, 16⟩
/-- CDIE_FCCNT.EVQ. -/
def CDIE_FCCNT_EVQ : Fld := ⟨0x204, 4, 0⟩
/-- CDIE_FCSTORE.CORR. -/
def CDIE_FCSTORE_CORR : Fld := ⟨0x208, 31, 16⟩
/-- CDIE_FCSTORE.LOADED. -/
def CDIE_FCSTORE_LOADED : Fld := ⟨0x208, 0, 0⟩
/-- CDIE_FCSFAULT.CAUSE. -/
def CDIE_FCSFAULT_CAUSE : Fld := ⟨0x20C, 31, 28⟩
/-- CDIE_FCSFAULT.ENGINE. -/
def CDIE_FCSFAULT_ENGINE : Fld := ⟨0x20C, 26, 24⟩
/-- CDIE_FCSFAULT.ADDR. -/
def CDIE_FCSFAULT_ADDR : Fld := ⟨0x20C, 11, 0⟩
/-- CDIE_FCTRACECTL.EN. -/
def CDIE_FCTRACECTL_EN : Fld := ⟨0x210, 31, 31⟩
/-- CDIE_FCTRACECTL.FREEZE. -/
def CDIE_FCTRACECTL_FREEZE : Fld := ⟨0x210, 30, 30⟩
/-- CDIE_FCTRACECTL.ALL. -/
def CDIE_FCTRACECTL_ALL : Fld := ⟨0x210, 29, 29⟩
/-- CDIE_FCTRACECTL.MASK. -/
def CDIE_FCTRACECTL_MASK : Fld := ⟨0x210, 0, 0⟩
/-- CDIE_FCTRACEPTR.WRAP. -/
def CDIE_FCTRACEPTR_WRAP : Fld := ⟨0x214, 31, 31⟩
/-- CDIE_FCTRACEPTR.NEXT. -/
def CDIE_FCTRACEPTR_NEXT : Fld := ⟨0x214, 7, 0⟩
/-- CDIE_FCCSADDR.ADDR. -/
def CDIE_FCCSADDR_ADDR : Fld := ⟨0x220, 11, 0⟩
/-- CDIE_FCCSDATA.WORD. -/
def CDIE_FCCSDATA_WORD (n : Nat) : Fld := ⟨0x224 + 4 * n, 31, 0⟩
/-- CDIE_FCCFG.RTOMS. -/
def CDIE_FCCFG_RTOMS : Fld := ⟨0x8200, 31, 16⟩
/-- CDIE_FCCFG.RETRYMAX. -/
def CDIE_FCCFG_RETRYMAX : Fld := ⟨0x8200, 3, 0⟩
/-- PRESS_BANK.V. -/
def PRESS_BANK_V (n : Nat) (k : Nat) : Fld := ⟨0x48400 + 1024 * n + 4 * k, 15, 0⟩
/-- PRESS_SURF.V. -/
def PRESS_SURF_V (n : Nat) (k : Nat) : Fld := ⟨0x49000 + 256 * n + 4 * k, 15, 0⟩

end R

end Sys2Proof.Machine
end

