-- ==== Sys2Proof/Machine/Sparse.lean ====
section
/-! DEFINITION. Sparse tables: a list of (key, value) pairs in one canonical form. Keys rise strictly and no entry equals what an unlisted
key reads as, so equal tables are equal lists. The register file and the buffer memory are such tables. -/

namespace Sys2Proof.Machine

/-- What key `k` reads as, where unlisted keys read as `dflt`. -/
def Sparse.get {α : Type} (dflt : Nat → α) (k : Nat) : List (Nat × α) → α
  | [] => dflt k
  | (j, w) :: l => if k = j then w else Sparse.get dflt k l

/-- The table after `v` is written at `k`: writing what an unlisted key reads as removes the entry. -/
def Sparse.put {α : Type} [DecidableEq α] (dflt : Nat → α) (k : Nat) (v : α) : List (Nat × α) → List (Nat × α)
  | [] => if v = dflt k then [] else [(k, v)]
  | (j, w) :: l =>
    if k < j then (if v = dflt k then (j, w) :: l else (k, v) :: (j, w) :: l)
    else if k = j then (if v = dflt k then l else (k, v) :: l)
    else (j, w) :: Sparse.put dflt k v l

/-- The canonical form, with every key at least `lo`. -/
def Sparse.wfFrom {α : Type} [DecidableEq α] (dflt : Nat → α) : Nat → List (Nat × α) → Bool
  | _, [] => true
  | lo, (j, w) :: l => decide (lo ≤ j) && decide (w ≠ dflt j) && Sparse.wfFrom dflt (j + 1) l

/-- The canonical form: keys rise strictly, and no entry equals what its key reads as unlisted. -/
def Sparse.wf {α : Type} [DecidableEq α] (dflt : Nat → α) (l : List (Nat × α)) : Bool :=
  Sparse.wfFrom dflt 0 l

/-- Write a run of values at rising keys from `k`. -/
def Sparse.putRun {α : Type} [DecidableEq α] (dflt : Nat → α) : Nat → List α → List (Nat × α) → List (Nat × α)
  | _, [], l => l
  | k, v :: vs, l => Sparse.putRun dflt (k + 1) vs (Sparse.put dflt k v l)

/-- Read `n` values at rising keys from `k`. -/
def Sparse.getRun {α : Type} (dflt : Nat → α) (k : Nat) : Nat → List (Nat × α) → List α
  | 0, _ => []
  | n + 1, l => Sparse.get dflt k l :: Sparse.getRun dflt (k + 1) n l

/-- Replace the element at an index, where it exists. -/
def modAt {α : Type} (i : Nat) (f : α → α) (l : List α) : List α := l.modify i f

/-- The value kept under a number in a list of pairs, newest first, or a default. -/
def assocGet {α : Type} (k : Nat) (d : α) (l : List (Nat × α)) : α :=
  match l.find? (fun p => p.1 = k) with
  | some p => p.2
  | none => d

/-- Keep a value under a number: one entry a number. -/
def assocPut {α : Type} (k : Nat) (v : α) (l : List (Nat × α)) : List (Nat × α) :=
  (k, v) :: l.filter (fun p => p.1 ≠ k)

/-- Drop the value kept under a number. -/
def assocDel {α : Type} (k : Nat) (l : List (Nat × α)) : List (Nat × α) := l.filter (fun p => p.1 ≠ k)

end Sys2Proof.Machine
end

