-- ==== Sys2Proof/Machine/State.lean ====
section
/-! DEFINITION. The state of the block, as plain data: every register (one sparse table), and what the spec gives the machine beside its
registers. The default value of a field is its value at reset. -/

namespace Sys2Proof.Machine

/-- The part (R1): the number of Rind dies, 1 or 2, and of Curd dies, 1 to 6. -/
structure Part where
  f : Nat := 2
  c : Nat := 6
  deriving DecidableEq, Repr

/-! ## Finvik links (R20 to R32) -/

/-- The sending side of one class of a Finvik link (R26, R28, R30). -/
structure TxClass where
  /-- LSEQ of the next message. -/
  lseq : Nat := 0
  credits : Nat := 0
  /-- FREED of the last link control word applied. -/
  freedApplied : Nat := 0
  /-- The replay store, oldest first. -/
  replay : List Msg := []
  /-- Messages that wait for a credit, oldest first. -/
  stalled : List Msg := []
  /-- The LSEQ last named by a replay request of the class, and how often in a row (R31). -/
  asked : Option (Nat × Nat) := none
  deriving DecidableEq, Repr

/-- The receiving side of one class of a Finvik link (R28 to R31). -/
structure RxClass where
  /-- The last LSEQ accepted in order. -/
  last : Nat := 0xFFFF
  /-- Buffers freed since the first handshake or the last reset report, modulo 65,536. -/
  freed : Nat := 0
  /-- Messages accepted into buffers and not yet taken, oldest first. -/
  held : List Msg := []
  /-- A buffer was freed or a message accepted since the last link control word. -/
  owed : Bool := false
  /-- Replay requests sent since the last message accepted (R31). -/
  requests : Nat := 0
  deriving DecidableEq, Repr

/-- One end of a Finvik link: four classes each way (R24, R30). -/
structure FvEnd where
  tx : List TxClass := [{}, {}, {}, {}]
  rx : List RxClass := [{}, {}, {}, {}]
  /-- The far slot has completed the first handshake (R21). -/
  up : Bool := false
  /-- The link has been declared down (R31). -/
  down : Bool := false
  /-- Link resets in a row that failed to restore message traffic (R31). -/
  failedResets : Nat := 0
  /-- The next message sent carries a wrong CRC (R568, MODE 0x4). -/
  corruptNext : Bool := false
  /-- No message has arrived for 1 ms (R507; kept by a Curd die). -/
  silent : Bool := true
  deriving DecidableEq, Repr

/-! ## The serial flash, the fuses and the pins (R42 to R90) -/

/-- A valid header copy (R78). -/
structure Header where
  hseq : Nat := 0
  flashLog2 : Nat := 26
  sfclk : Nat := 0
  sfdummy : Nat := 4
  logLog2 : Nat := 22
  active : Nat := 0
  /-- PENDING: the slot on trial, none for 0xFF. -/
  pending : Option Nat := none
  tries : Nat := 0
  pmbVcore : Nat := 0
  pmbVana : Nat := 0
  pmbVddq : Nat := 0
  deriving DecidableEq, Repr

/-- A volume descriptor (R196): CLASS 1 Data or 2 Stream. -/
structure VolDesc where
  cls : Nat
  ring : Bool
  tpar : Bool
  groups : Nat
  cap : Nat
  rdmask : Nat
  wrmask : Nat
  label : List Byte
  deriving DecidableEq, Repr

/-- A volume of settings record 0x0006 (R582). -/
structure VolumeRec where
  vol : Nat
  desc : VolDesc
  deriving DecidableEq, Repr

/-- The body of settings record 0x0001 (R361). -/
structure Board where
  vdiv : Nat := 0
  vphdiv : Nat := 0
  spdForm : Nat := 0
  shockAct : Nat := 0
  polePairs : Nat := 0
  pwmKhz : Nat := 0
  ke : Nat := 0
  ls : Nat := 0
  isnfs : Nat := 0
  ilim : Nat := 0
  istart : Nat := 0
  accLim : Nat := 0
  vmotUv : Nat := 0
  vchop : Nat := 0
  vbrk1 : Nat := 0
  vbrk2 : Nat := 0
  chopDip : Nat := 0
  openCeil : Nat := 0
  tStart : Int := 0
  cookPwr : Nat := 0
  deadNs : Nat := 0
  cookMax : Nat := 0
  deriving DecidableEq, Repr

/-- What a settings record says whose byte layout the spec does not give, all but 0x0001 and 0x0008 (R85, log entry 84): values for register fields, or
typed content. -/
inductive RecBody where
  /-- Values for register fields: the field and its value, of either Rind die or, where marked, of a Curd die. -/
  | fields (vals : List (Fld × Nat))
  /-- Record 0x0004: source, severity, counted, N, W. -/
  | severities (l : List (Nat × Nat × Bool × Nat × Nat))
  /-- Record 0x0006: the volume table. -/
  | volumes (l : List VolumeRec)
  deriving DecidableEq, Repr

/-- A settings record (R84): TYPE, the bytes of its body, and for a type without a stated layout what they say. -/
structure SetRec where
  typ : Nat
  raw : List Byte := []
  body : RecBody := .fields []
  deriving DecidableEq, Repr

/-- A settings copy (R84): the fields of its region header, and its records. The spec gives the owner key's hash alone, not where the key stands, so
whether SIG verifies against it is the copy's own (log entry 85). -/
structure Settings where
  magic : Nat := 0x54535453
  sseq : Nat := 0
  length : Nat := 0
  scrc : Nat := 0
  sig : List Byte := []
  sigVerifies : Bool := false
  records : List SetRec := []
  deriving DecidableEq, Repr

/-- HDA calibration (R87): winding resistances in micro-ohms, temperature in 0.01 degrees C, coefficient as written. -/
structure HdaCal where
  resab : Nat := 0
  resbc : Nat := 0
  resca : Nat := 0
  tcal : Int := 0
  alpha : Nat := 0
  deriving DecidableEq, Repr

/-- One zone entry of a surface (R228, R309); the read-side and write-side values go to the read channel and the preamplifier as they stand. -/
structure Zone where
  first : Nat
  tracks : Nat
  spt : Nat
  skew : Nat
  shingled : Bool
  guard : Nat
  /-- RATE at 7,200 rpm in Mb/s, PAIR, SYNCW and DUAL. -/
  rate : Nat := 0
  pair : Nat := 0
  syncw : Nat := 0
  dual : Bool := false
  /-- GAIN, OFFSET, ASYM and HPF of readers A, B and C; CTFC and CTFB (R263, R309). -/
  gain : List Nat := [0, 0, 0]
  offset : List Int := [0, 0, 0]
  asym : List Int := [0, 0, 0]
  hpf : List Nat := [0, 0, 0]
  ctfc : Nat := 20
  ctfb : Nat := 0
  /-- DELAYA and DELAYC in bits; COMB: the pair weights, then the triple weights; TARGET g1 to g4; TAPS of A, B and C, 16 each. -/
  delay : List Int := [0, 0]
  comb : List Int := [0, 0, 0, 0, 0, 0]
  target : List Int := [0, 0, 0, 0]
  taps : List (List Int) := [[], [], []]
  /-- PRECOMP: eight shifts in 1/64 bit (R317). -/
  precomp : List Int := [0, 0, 0, 0, 0, 0, 0, 0]
  /-- Preamplifier values WCUR, WOVS, WOVD, RBIASA, RBIASB, RBIASC, HTRRD, in that order (R311), and HTRWR. -/
  pa : List Nat := [0, 0, 0, 0, 0, 0, 0]
  htrwr : Nat := 0
  deriving DecidableEq, Repr

/-- The preamplifier part of a zone block's header (R308): register addresses HSEL, WCUR, WOVS, WOVD, RBIASA, RBIASB, RBIASC, HTR, FLT and RDEN, in that
order, the value for surface 0, and the INIT pairs. -/
structure PaMap where
  addrs : List Nat := [0, 0, 0, 0, 0, 0, 0, 0, 0, 0]
  hselBase : Nat := 0
  init : List (Nat × Nat) := []
  deriving DecidableEq, Repr

/-- A head's zone block (R86, R309). -/
structure ZoneBlock where
  pa : PaMap := {}
  systrk : Nat := 0
  zones : List Zone := []
  /-- Slipped tracks. -/
  slips : List Nat := []
  deriving DecidableEq, Repr

/-- A log record (R558). -/
structure LogRec where
  rseq : Nat
  opsec : Nat
  pcyc : Nat
  sev : Nat
  island : Bool
  frozen : Bool
  source : Nat
  die : Nat
  rung : Nat
  subms : Nat
  step : Nat
  wincnt : Nat
  detail : List Nat
  deriving DecidableEq, Repr

/-- One 4 KiB sector of the log ring (R559): the records stored in it, and how many of its 64 slots are used. -/
structure LogSector where
  recs : List LogRec := []
  used : Nat := 0
  /-- Its place in the ring, counted from the region's start (R77). -/
  pos : Nat := 0
  deriving DecidableEq, Repr

/-- One section of an image slot (R80, R81): TYPE, ORDER, whether TAG and HASH match under the image key, whether it fits its store, and the control
store words of its plaintext; for a patch, those it replaces. -/
structure ImgSection where
  typ : Nat
  order : Nat
  authentic : Bool
  fits : Bool
  words : List (Nat × MicroWord)
  deriving DecidableEq, Repr

/-- What the manifest and the sections of an image slot come to (R80, R81). -/
structure SlotImage where
  svn : Nat
  version : Nat
  keyMatches : Bool
  sigVerifies : Bool
  sections : List ImgSection
  deriving DecidableEq, Repr

/-- Why a header is written, and so what follows it. -/
inductive HdrWhy where
  /-- A trial start takes one of its tries (R89). -/
  | trial
  /-- PENDING is dropped and the start goes on with ACTIVE (R89, R90). -/
  | drop
  /-- The pending slot is committed after READY (R83). -/
  | commit
  /-- FW_ACTIVATE, for a command (R201). -/
  | activate (port tag : Nat)
  /-- A download at offset 0 whose target slot PENDING names (R200): its data, and the command. -/
  | download (data : List Byte) (port tag : Nat)
  deriving DecidableEq, Repr

/-- What the flash is doing (R79, R198, R200, R559): one erase or program at a time, with the writer's attempt. -/
inductive FlashOp where
  /-- A header write into copy k; the second attempt after a bad read-back. -/
  | header (k : Nat) (h : Header) (again : Bool) (why : HdrWhy)
  /-- A settings write into copy k, with the register values to apply when it is good, and the command that asked. -/
  | settings (k : Nat) (s : Settings) (apply : List (Fld × Nat)) (port tag : Nat) (again : Bool)
  /-- A firmware chunk: offset, data, and the command. -/
  | chunk (off : Nat) (data : List Byte) (port tag : Nat)
  deriving DecidableEq, Repr

/-- The serial flash (R77). A region holds its bytes from its start on; what is past them is erased. -/
structure Flash where
  /-- Header copies. -/
  hdr0 : List Byte := []
  hdr1 : List Byte := []
  /-- Settings copies: none for one whose MAGIC or records cannot be read. -/
  set0 : Option Settings := none
  set1 : Option Settings := none
  /-- Zone blocks of the 24 heads, in each copy. -/
  zone0 : List (List Byte) := []
  zone1 : List (List Byte) := []
  /-- Calibration copies. -/
  cal0 : List Byte := []
  cal1 : List Byte := []
  /-- Image slots. -/
  slotA : List Byte := []
  slotB : List Byte := []
  /-- The log ring, oldest sector first; a sector with no slot used is erased. -/
  log : List LogSector := []
  op : Option FlashOp := none
  /-- Header writes that wait, oldest first (R98), with what follows each. -/
  hdrQueue : List (Header × HdrWhy) := []
  /-- A second attempt after a bad read-back that waits for VIN (R79, R96). -/
  redo : Option FlashOp := none
  /-- VIN was below VSAG at some time since the operation in progress began (R191). -/
  sagged : Bool := false
  deriving DecidableEq, Repr

/-- The fuse array (R82). -/
structure Fuses where
  /-- Hashes of the vendor key and of the owner key, none where not programmed, and the image key. -/
  vendorHash : Option (List Byte) := none
  ownerHash : Option (List Byte) := none
  imageKey : List Byte := []
  svn : Nat := 0
  parityOk : Bool := false
  deriving DecidableEq, Repr

/-- The vendor key hash is programmed. -/
def Fuses.vendorKey (f : Fuses) : Bool := f.vendorHash.isSome

/-- The owner key hash is programmed. -/
def Fuses.ownerKey (f : Fuses) : Bool := f.ownerHash.isSome

/-- The pins and the supply (R42 to R75), beside what DEV_PINSTAT shows. -/
structure Pins where
  vinMv : Nat := 0
  /-- Power-on reset is released (R47). -/
  por : Bool := false
  /-- RESET_N is high. -/
  resetN : Bool := true
  sbAddr : Bool := false
  regEn : Bool := false
  alive : Bool := false
  /-- ALIVE is toggling (R549). -/
  aliveOn : Bool := false
  /-- The island that drives ALIVE (R63). -/
  aliveBy : RSlot := .f0
  sfCsN : Bool := true
  /-- SF_CLK, SF_IO and SF_CS_N are driven: not in NOIMAGE and FAILED (R90). -/
  sfDriven : Bool := true
  shock : Bool := false
  /-- Level of TRST_N (R66), and of PERST#: bit 4 x die + head (R73). -/
  trstN : Bool := false
  perst : Nat := 0
  /-- Heads whose reference clock runs: bit 4 x die + head, as the start sequence found them (R68). -/
  refclk : Nat := 0
  /-- Low time of RESET_N was under 100 µs: source 0x004 is due at this start (R71). -/
  shortReset : Bool := false
  /-- Rind islands that ask for the serial-flash bus (R65). -/
  sfReq : List RSlot := []
  /-- VIN is below VSAG, or the pause after it has not ended (R96). -/
  sagPause : Bool := false
  /-- VIN is below the operating floor (R97), since this time. -/
  lowSince : Option Nat := none
  /-- The hold has expired and the supply has not restarted (R97). -/
  holdOut : Bool := false
  deriving DecidableEq, Repr

/-- The PMBus port and the rails (R50 to R53). -/
structure Pmb where
  /-- Rails turned on by OPERATION: VCORE, VANA, VDDQ. -/
  on : List Rail := []
  /-- Rails confirmed by READ_VOUT (step 4 of R91). -/
  confirmed : List Rail := []
  /-- The VCORE set point commanded, in mV. -/
  setMv : Nat := 800
  /-- READ_VOUT has confirmed the present set point (R51). -/
  stepConfirmed : Bool := false
  /-- Reads failed in a row, for each rail (R53). -/
  fails : List (Nat × Nat) := []
  /-- Rails whose regulator fault has been read and not cleared (R50). -/
  faulted : List Rail := []
  /-- Currents read, by rail number, in 10 mA. -/
  iout : List (Nat × Nat) := []
  /-- Voltages read, by rail number, in mV; rails whose reads have failed three times in a row, until one is good (R523). -/
  vout : List (Nat × Nat) := []
  badReads : List Nat := []
  /-- A turning has happened and the incoming senior waits for the bus (R52). -/
  takeover : Bool := false
  deriving DecidableEq, Repr

/-- Stages of device re-initialisation (R555). -/
inductive Reinit where
  | writeOut
  | closeOut
  deriving DecidableEq, Repr

/-- The start sequence (R91 to R95), beside BOOT_STAT. -/
structure Boot where
  /-- Crystal time of the release of power-on reset. -/
  startAt : Nat := 0
  /-- The slot on trial in this start (R89). -/
  trial : Bool := false
  /-- Header in use by the start in progress. -/
  hdr : Header := {}
  /-- Rind dies whose store is loaded, and whose settings are loaded. -/
  loaded : List RSlot := []
  settled : List RSlot := []
  /-- The image and settings each die loaded, for the digest exchange of R94. -/
  image : List (RSlot × SlotImage × List SetRec) := []
  /-- The slot this start runs from (R89). -/
  slot : Option Nat := none
  /-- Slots that this start has checked against R81, and whether they passed (R194). -/
  checked : List (Nat × Bool) := []
  /-- Step 6 waits for a header write (R89, R98). -/
  waitHdr : Bool := false
  /-- Zone blocks in use for the 24 heads (R86), and the HDA calibration (R87). -/
  zones : List (Option ZoneBlock) := []
  cal : Option HdaCal := none
  /-- Links whose die the start reported missing (R21): the die and its link. -/
  absent : List (RSlot × Nat) := []
  /-- The heads have been released (step 12). -/
  released : Bool := false
  /-- Record 0x0001 in use (R361). -/
  board : Board := {}
  /-- Settings in use: their records (for page 0x02 of R85 and the saved values of R195). -/
  records : List SetRec := []
  /-- Settings copy and sequence number in use (R84). -/
  setCopy : Nat := 0
  sseq : Nat := 0
  /-- Restart by rung 6 in progress: until READY, Fatal events start no rung (R554). -/
  restarting : Bool := false
  /-- Stage of R555 before the core reset. -/
  reinit : Option Reinit := none
  /-- Ports stay DISABLED whatever the record says (R556). -/
  portsOff : Bool := false
  deriving DecidableEq, Repr

/-- A firmware download session (R200). -/
structure FwSession where
  port : Nat
  next : Nat
  since : Nat
  slot : Nat
  deriving DecidableEq, Repr

/-! ## The always-on island of a Rind die (R541 to R574) -/

/-- The fault collector, log writer and tally copy of an island, beside the FAULT, LOG and TALLY registers. -/
structure Island where
  /-- Staged records, oldest first (R561). -/
  queue : List LogRec := []
  /-- Failed programs of the record at the head (R559). -/
  tries : Nat := 0
  /-- Open counting windows: source and events in it (R545). -/
  windows : List (Nat × Nat) := []
  /-- Events since power-on, for page 0x02 (R569). -/
  totals : List (Nat × Nat) := []
  /-- Crystal times of the exits from the fault state (R546). -/
  exits : List Nat := []
  /-- The exit that follows the end of a latch is no recovery (R547). -/
  freeExit : Bool := false
  /-- Crystal time of the latest Degrade or Fatal event. -/
  lastBad : Nat := 0
  /-- Crystal time the freeze was last set (R561). -/
  frozenAt : Nat := 0
  /-- Crystal time of the last tally snapshot, and the count of F1 snapshots (R566). -/
  snapAt : Nat := 0
  snaps : Nat := 0
  /-- Units named by rung 3, with the time (R552). -/
  named : List (RUnit × Nat) := []
  /-- Units under function reset since rung 3 last named them (R550). -/
  resetUnits : List RUnit := []
  /-- Own-error flags of R510: in this digest block, in the one before, since the last confirmed block. -/
  ownNow : Bool := false
  ownPrev : Bool := false
  ownSince : Bool := false
  /-- The stall watches, timers and clocks of the die have stopped with the timebase (R67). -/
  timebaseLost : Bool := false
  /-- The scan of the log region has been made since power-on reset (R559, R562). -/
  scanned : Bool := false
  deriving DecidableEq, Repr

/-! ## The sideband and the lock state (R121 to R126) -/

/-- The sideband target of a Rind die (R124). -/
structure Sideband where
  addr : Nat := 0
  result : Nat := 0
  data : Nat := 0
  /-- An access passed to the core logic and not answered: a write, and its value. -/
  waiting : Option (Bool × Nat) := none
  deriving DecidableEq, Repr

/-! ## Two Rind dies in step (R493 to R520) -/

/-- An entry of the step order (R494). -/
structure StepEntry where
  step : Nat
  kind : Nat
  fromJ : Bool
  src : Nat
  data : Nat
  deriving DecidableEq, Repr

/-- The step logic of a Rind die, beside the STEP registers. -/
structure StepLogic where
  /-- The next step number to issue (senior). -/
  next : Nat := 0
  /-- The next step to process: every lower one has been processed. -/
  done : Nat := 0
  /-- Proposals of the junior that wait for room in the order (R496). -/
  props : List StepEnt := []
  /-- Entries received or issued and not processed, in step order. -/
  entries : List StepEntry := []
  /-- FWD contents received, by LSEQ (R495). -/
  fwd : List (Nat × FwdBody) := []
  /-- Own copies of inputs of KIND 0x05 and 0x06: kind, SRC, digest (R495). -/
  own : List (Nat × Nat × Nat) := []
  /-- The highest step number the peer holds (HELD). -/
  peerHeld : Nat := 0
  /-- Step time stamp: operating milliseconds of the latest KIND 0x0C entry (R497). -/
  stamp : Nat := 0
  /-- The digest of the block in progress: the CRC-64 register (R499), and the number of steps in the block. -/
  crc : BitVec 64 := BitVec.allOnes 64
  steps : Nat := 0
  /-- Number of the next block to close. -/
  block : Nat := 0
  /-- Closed blocks not confirmed: number and own digest. -/
  mine : List (Nat × BitVec 64) := []
  /-- Digests of the peer not yet compared: number, digest, flags. -/
  peers : List (Nat × BitVec 64 × Nat) := []
  /-- The split in progress: its start, and whether this die believed it held the lease (R512). -/
  split : Option (Nat × Bool) := none
  /-- Grants and refusals of the claim or confirm in progress, by Curd slot (R512). -/
  grants : List Nat := []
  refusals : List Nat := []
  /-- Epoch of the claim in progress. -/
  claim : Option Nat := none
  /-- Crystal times of failed resyncs within the hour (R517). -/
  failedResyncs : List Nat := []
  /-- Due time of the next turning (R509). -/
  turnAt : Option Nat := none
  /-- Crystal time at which redundancy was last restored (R509). -/
  restoredAt : Option Nat := none
  /-- The next ESEQ at the last resync's state copy: a mismatch report that names one before it is discarded (R518). -/
  resyncEseq : Option Nat := none
  /-- Content requests made (R495). -/
  asked : List Nat := []
  deriving DecidableEq, Repr
/-! ## Commands, ports and the write buffer (R128 to R225) -/

/-- Where an outstanding command stands (R202, the terms of chapter 7). -/
inductive CmdPhase where
  /-- Fetched, not yet admitted. -/
  | fetched
  /-- Admitted: it passed the checks of R188. -/
  | admitted
  deriving DecidableEq, Repr

/-- An outstanding command (R134): from fetch until its completion is generated. -/
structure Cmd where
  /-- Fetch number: the commands of a port lie in its order. -/
  uid : Nat
  port : Nat
  tag : Nat
  /-- Submission slot. -/
  sqidx : Nat
  desc : List Byte
  /-- The tag was outstanding on the port at fetch (R134). -/
  dup : Bool := false
  phase : CmdPhase := .fetched
  /-- Admission index (R209). -/
  index : Nat := 0
  /-- Crystal time of admission (R551). -/
  at_ : Nat := 0
  /-- Commands a FENCE noted (R216), by fetch number. -/
  noted : List Nat := []
  /-- First block assigned to an APPEND (R174). -/
  first : Nat := 0
  /-- Bands of ring volumes held by the command (R178): volume and band. -/
  holds : List (Nat × Nat) := []
  /-- Byte ranges of host data, and of metadata, moved so far: first byte and length. -/
  moved : List (Nat × Nat) := []
  movedMeta : List (Nat × Nat) := []
  /-- A failure that the completion will report: status and INFO. -/
  fail : Option (Nat × Nat) := none
  /-- Unreadable blocks found (R176), by index within the command. -/
  bad : List Nat := []
  /-- Blocks of the range whose media work the scheduler has handed out (R208). -/
  taken : List Nat := []
  /-- The engine has released the command's hazards (R470): no version is needed by it any more. -/
  freed : Bool := false
  /-- INFO of a success. -/
  info : Nat := 0
  /-- Contents of blocks read from the media, by index: 4,096 bytes of data and 16 of metadata (R171, R271). -/
  got : List (Nat × List Byte) := []
  /-- 64-byte pieces of a WINMAP's range that the host has stored to since its admission, by index (R185). -/
  stored : List Nat := []
  /-- The command waits for a flash write: its generation row does not complete it. -/
  flash : Bool := false
  /-- A drained token has come back to the command, whose stage issues it again (R38). -/
  drained : Bool := false
  deriving DecidableEq, Repr

/-- A completion entry generated and not yet written by every serving die (R136, R137). -/
structure Comp where
  uid : Nat
  port : Nat
  seq : Nat
  info : Nat
  tag : Nat
  status : Nat
  sqhead : Nat
  sqidx : Nat
  /-- Its digest block, while that is not confirmed (R501). -/
  block : Option Nat := none
  /-- Its slot and bytes, once it has a released slot. -/
  slot : Option (Nat × List Byte) := none
  /-- The dies that have written it. -/
  wrote : List RSlot := []
  deriving DecidableEq, Repr

/-- What the port engine holds for a port beside its PORT registers. -/
structure PortX where
  /-- Dies whose read of the doorbell line is outstanding. -/
  reading : List RSlot := []
  /-- Dies that hold the line in Shared state (R147). -/
  line : List RSlot := []
  /-- Entries written and not released, oldest first: slot and bytes (R143). -/
  slots : List (Nat × List Byte) := []
  deriving DecidableEq, Repr

/-- The status line of a domain (R156 to R159). -/
structure StatLine where
  lseq : Nat := 0
  dwseq0 : Nat := 0
  dwseq1 : Nat := 0
  /-- Bytes 0x00 to 0x2F as last formed, and the dies whose head was down then, which write them when it is up again (R107). -/
  last : List Byte := []
  held : List RSlot := []
  deriving DecidableEq, Repr

/-- A write version (R209, R210): one block of one volume. -/
structure Version where
  vol : Nat
  blk : Nat
  index : Nat
  port : Nat
  uid : Nat
  trim : Bool
  whole : Bool
  /-- It is on the media. -/
  media : Bool
  /-- Crystal time of its command's admission, and whether its write-out has been handed to an engine (R208). -/
  at_ : Nat := 0
  taken : Bool := false
  /-- Its contents as far as they are in buffer memory: 4,096 bytes of data and 16 of metadata, 0 beyond its end (R171, R173). -/
  data : List Byte := []
  /-- Its write-out has failed for good (R187, R239). -/
  failed : Bool := false
  deriving DecidableEq, Repr

/-- The arbiter and the order of media work (R202 to R208). -/
structure Sched where
  /-- Class deficits of R205: High, Medium, Low. -/
  dcH : Int := 0
  dcM : Int := 0
  dcL : Int := 0
  /-- Port deficits. -/
  dp : List (Nat × Int) := []
  /-- Last port served: High, Medium, Low, Urgent, admin. -/
  lastH : Nat := 255
  lastM : Nat := 255
  lastL : Nat := 255
  lastU : Nat := 255
  lastA : Nat := 255
  /-- Effective weights of the round in progress: High, Medium, Low (R206). -/
  ewH : Nat := 0
  ewM : Nat := 0
  ewL : Nat := 0
  /-- The position in a round: 0 High, 1 Medium, 2 Low; whether the class's weight has been added this visit, and the port in service. -/
  at_ : Nat := 0
  opened : Bool := false
  serving : Option Nat := none
  deriving DecidableEq, Repr

/-! ## Media organisation (R226 to R259) -/

/-- A slot number (R234): head, zone and slot within the zone. -/
structure SlotNo where
  head : Nat
  zone : Nat
  k : Nat
  deriving DecidableEq, Repr

/-- States of a band map entry (R246). -/
inductive BandState where
  | free
  | inUse
  | opened
  | releasedHeld
  | relocSource
  | relocTarget
  | retired
  | spare
  deriving DecidableEq, Repr

/-- A band map entry (R246), for a slot that is not free with COUNT 0. -/
structure Band where
  slot : SlotNo
  state : BandState
  vol : Nat := 0
  tpar : Bool := false
  weak : Bool := false
  refresh : Bool := false
  vband : Nat := 0
  count : Nat := 0
  /-- Data: the blocks of the unit whose zero bit is clear (R246). -/
  live : List Nat := []
  /-- Stream: the journalled fill (R254), in data positions. -/
  fill : Nat := 0
  deriving DecidableEq, Repr

/-- A volume (R163, R196, R246). -/
structure Volume where
  desc : VolDesc
  wp : Nat := 0
  retlo : Nat := 0
  /-- Quota of slots on each group (R242). -/
  quota : List Nat := [0, 0, 0, 0, 0, 0]
  /-- After a loss: the band that was open, and its journalled fill: its blocks at or beyond it are read at the first rung only (R255). -/
  gap : Option (Nat × Nat) := none
  /-- The group that its last band took (R244). -/
  last : Nat := 5
  deriving DecidableEq, Repr

/-- The translation tables (R246). -/
structure Tables where
  vols : List (Nat × Volume) := []
  bands : List Band := []
  /-- Reassignments: slot, data index, spare position index (R237). -/
  reassign : List (SlotNo × Nat × Nat) := []
  /-- Spare positions that have been taken (R237). -/
  spent : List (SlotNo × Nat) := []
  /-- Slots that ran out of spares, never to be allocated again (R239). -/
  worn : List SlotNo := []
  /-- Spare slots that have replaced retired ones (R241). -/
  promoted : List SlotNo := []
  /-- Blocks that an APPEND consumed and did not write: volume and block (R189, R220). -/
  lost : List (Nat × Nat) := []
  /-- Parity-stale groups: slot, slot track, group (R231). -/
  stale : List (SlotNo × Nat × Nat) := []
  deriving DecidableEq, Repr

/-- A relocation in progress on a group (R258, R259), or a parity restore in place. -/
structure Reloc where
  group : Nat
  source : SlotNo
  /-- None for a parity restore. -/
  target : Option SlotNo
  forced : Bool
  /-- Blocks written to the source during the copy. -/
  marked : List Nat := []
  /-- The copy pass has reached the last block of the band. -/
  passed : Bool := false
  deriving DecidableEq, Repr

/-- The translation engine (R246 to R259). -/
structure Xlat where
  t : Tables := {}
  /-- Journal records not yet written to the media, and the crystal time of the first. -/
  staged : Nat := 0
  stagedAt : Nat := 0
  /-- Records written since the newest checkpoint. -/
  ring : Nat := 0
  relocs : List Reloc := []
  /-- Groups offline until re-initialisation (R245). -/
  offline : List Nat := []
  /-- Crystal time of the last host media work of each group (R258). -/
  worked : List (Nat × Nat) := []
  /-- The flash record of a volume change is on its way: what the tables become when it is saved (R197). -/
  pendingVol : Option (Nat × Option Volume) := none
  deriving DecidableEq, Repr


/-! ## The budget manager (R521 to R539) -/

/-- What a Curd die last reported (R522): readers powered, loaded, temperature in 0.1 °C, and when. -/
structure DieReport where
  readers : Nat
  loaded : Bool
  temp : Int
  at_ : Nat
  deriving DecidableEq, Repr

/-- The budget manager beside the BUDGET registers; dies are named by their SRC codes. -/
structure Budget where
  /-- Latest diode readings (R523), in 0.1 °C. -/
  diodes : List (Nat × Int) := []
  /-- Consecutive samples at or above shutdown, and the dies shut down (R527). -/
  hot : List (Nat × Nat) := []
  shut : List Nat := []
  /-- The 100 ms series of R526, newest first, with when its newest was taken, and the dies that rise too fast. -/
  series : List (Nat × List Int) := []
  seriesAt : List (Nat × Nat) := []
  rising : List Nat := []
  /-- Dies in the warning state and in the throttle state of R524, each by its own hysteresis. -/
  warm : List Nat := []
  throttled : List Nat := []
  reports : List (Nat × DieReport) := []
  /-- Groups whose report has been missing for 50 ms (R523). -/
  missing : List Nat := []
  /-- Words of the latest spindle report (R389). -/
  spindle : List Word := []
  /-- Consecutive cycles: with the prediction low (R529), with no command waiting (R531), above and below the cap (R537). -/
  lowCycles : Nat := 0
  idleCycles : Nat := 0
  overCycles : Nat := 0
  underCycles : Nat := 0
  /-- The request of R537 for the cap; the requested throttle's grace: when it ends, and whether it has ended. -/
  capThrottle : Bool := false
  graceEnd : Option Nat := none
  /-- Readings at the last depth decision (R538), and its time. -/
  depthTemps : List (Nat × Int) := []
  depthAt : Nat := 0
  /-- Bytes appended in the last 100 cycles, newest first, and in the present one (R535). -/
  appended : List Nat := []
  appending : Nat := 0
  /-- A raise for work is in force (R536), one for buffered data, and since when no such work has been queued. -/
  raiseWork : Bool := false
  raiseData : Bool := false
  quietSince : Option Nat := none
  /-- Active groups (R533), and when they were chosen. -/
  active : List Nat := []
  chosenAt : Nat := 0
  /-- The first word of the last group order sent to each group (R532). -/
  orders : List (Nat × Nat) := []
  /-- The spindle set point last sent (R535, R381). -/
  setpoint : Nat := 0
  /-- Cycles drained in a row (R539). -/
  drained : Nat := 0
  /-- VCORE steps commanded since the last cycle (R531). -/
  vsteps : Nat := 0
  deriving DecidableEq, Repr
/-! ## Buffer memory (R391 to R413) -/

/-- An entry of the merge buffer (R403): a codeword, its 16 bytes and their mask. -/
structure MergeEntry where
  cw : Nat
  data : List Byte
  mask : List Bool
  deriving DecidableEq, Repr

/-- The buffer memory of a Rind die. -/
structure Bmem where
  /-- The data bytes: unlisted bytes are 0, as the fill leaves them (R402). -/
  cells : List Host.Cell := []
  /-- Symbol errors that the devices hold: codeword, and the 20 error values (R396). -/
  errs : List (Nat × List Byte) := []
  /-- The poison list (R405). -/
  poison : List Nat := []
  /-- The merge buffer, oldest entry first. -/
  merges : List MergeEntry := []
  /-- Corrections of each device in the marking window: 10 x channel + device (R398). -/
  window : List (Nat × Nat) := []
  /-- Codewords read by a burst that has returned and whose fill has not: data and poison (R396). -/
  arrived : List (Nat × List Byte × Bool) := []
  /-- Corrections that mark a device in the window in progress of a channel, where the register's value was taken at its start (R398, R414). -/
  thr : List (Nat × Nat) := []
  /-- The row that a bank's last write went to, while no read of that row has followed: the write may still be pending (R409). -/
  wrote : List (Nat × Nat) := []
  /-- Open rows: bank (64 x channel + 32 x rank + 8 x bank + bank group) and row (R408). -/
  rows : List (Nat × Nat) := []
  /-- Refreshes owed by each bank set: 8 x channel + 4 x rank + bank (R410). -/
  owed : List (Nat × Nat) := []
  /-- Channels whose commands are being replayed after an alert (R412). -/
  replay : List Nat := []
  deriving DecidableEq, Repr

/-! ## The Cave (R429 to R444) -/

/-- A valid line of the Cave: its tag and data, and which of its eight data parity bits are wrong: bit
i for bytes 16i to 16i + 15. -/
structure CaveLine where
  tag : Nat
  dirty : Bool
  data : List Byte
  bad : BitVec 8 := 0
  deriving DecidableEq, Repr

/-- An entry of the eviction buffer (R435, R436). -/
structure Evicted where
  line : Nat
  data : List Byte
  issued : Bool := false
  deriving DecidableEq, Repr

/-- A fill in flight (R430): its line, its class, whether a requester allows allocation, and the requesters that wait: whom, the byte
address. -/
structure Fill where
  line : Nat
  cls : Nat
  alloc : Bool
  waiters : List AccWho
  deriving DecidableEq, Repr

/-- A maintenance operation in progress (R440, R441): OP, range, SPARE_LOCKED, and the sets passed so far. -/
structure Maint where
  op : Nat
  base : Nat
  limit : Nat
  spare : Bool
  passed : Nat := 0
  deriving DecidableEq, Repr

/-- The Cave of a Rind die. -/
structure Cave where
  /-- Valid lines, by 16 x set + way. -/
  lines : List (Nat × CaveLine) := []
  /-- PLRU bits of each set, 0 where not listed. -/
  plru : List (Nat × BitVec 15) := []
  /-- Ways (16 x set + way) whose tag or state parity is wrong, and sets whose PLRU parity is (R429, R432, R438). -/
  tagBad : List Nat := []
  plruBad : List Nat := []
  /-- Fills, oldest first: the first 64 are in flight, the others wait (R430). -/
  fills : List Fill := []
  /-- The eviction buffer, oldest entry first. -/
  evict : List Evicted := []
  maint : Option Maint := none
  deriving DecidableEq, Repr

/-! ## The Vat (R415 to R428) -/

/-- A buffer that is allocated, or has been: its generation, and its holding while it is allocated (count and last owner). -/
structure VatBuf where
  pool : Nat
  index : Nat
  gen : Nat
  held : Option (Nat × Nat) := none
  deriving DecidableEq, Repr

/-- A waiting ALLOC (R422). -/
structure VatWait where
  pool : Nat
  owner : Nat
  ticket : Nat
  /-- The engine that asked: its grant comes as an event (R420, R487). -/
  eng : Option Nat := none
  deriving DecidableEq, Repr

/-- The Vat of a Rind die. -/
structure Vat where
  bufs : List VatBuf := []
  /-- Waiting ALLOCs, oldest first. -/
  waits : List VatWait := []
  /-- The next ticket. -/
  ticket : Nat := 0
  /-- Refusals since step 11, by term of class 0x08 (R564): ALLOC and CANCEL, SHARE, RELEASE, FREE. -/
  refused : List Nat := [0, 0, 0, 0]
  /-- Buffers handed to each requester by the latest response: owner and handle. -/
  granted : List (Nat × Word) := []
  deriving DecidableEq, Repr

/-! ## The Ladle (R448 to R460) -/

/-- A Ladle channel beside its registers. -/
structure LadleCh where
  /-- Host-side bytes covered by the finished descriptors of the transfer (R449). -/
  base : Nat := 0
  /-- HADDR word and SGL of the transfer's first descriptor. -/
  head : Nat := 0
  /-- List segments fetched and not yet consumed: address and bytes left (R450). -/
  segs : List (Nat × Nat) := []
  /-- Where the next list entry lies, none once END was consumed. -/
  nextEntry : Option Nat := none
  /-- Bytes of the list passed over when it is walked again (R458). -/
  skip : Nat := 0
  /-- LADLE_HOPMAX as the transfer found it: a write takes effect at the next transfer (R16, R461). -/
  hopMax : Nat := 0x1000
  /-- A drained token has come back to the channel, which issues it again (R38). -/
  drained : Bool := false
  deriving DecidableEq, Repr

/-- The Ladle of a Rind die: its channels, and the isolation pass: channels still to try, and whether a culprit was found. -/
structure Ladle where
  chans : List (Nat × LadleCh) := []
  pass : Option (List Nat × Bool) := none
  deriving DecidableEq, Repr

/-! ## Culture engines (R462 to R490) -/

/-- An event in an engine's queue (R487): class, data, step and time stamp. -/
structure EngEvent where
  cls : Nat
  data : BitVec 64
  step : Nat
  stamp : Nat
  deriving DecidableEq, Repr

/-- A request outstanding at a request port of an engine (R470): the port, its operation and its two words of data, and the address of the
word that issued it. -/
structure EngReq where
  port : Nat
  op : Nat
  a : BitVec 64
  b : BitVec 64
  flags : Nat
  pc : Nat
  irrev : Bool
  /-- Its acknowledge is withheld by injection (R568). -/
  withheld : Bool := false
  /-- Issued after a drain of the same request (R483). -/
  drained : Bool := false
  deriving DecidableEq, Repr

/-- A response latch (R469): its value, OK, drained, and poison of a memory load; QUEUED of the Vat. -/
structure Latch where
  port : Nat
  value : BitVec 64
  ok : Bool
  drained : Bool
  poisoned : Bool
  queued : Bool
  deriving DecidableEq, Repr

/-- What a commit saves (R479). -/
structure Saved where
  cpc : Nat := 0
  regs : List (Nat × BitVec 64) := []
  loop : Nat := 0
  stack : List Nat := []
  latch : BitVec 64 := 0
  timer : Option Nat := none
  /-- Its parity is wrong (R482). -/
  bad : Bool := false
  deriving DecidableEq, Repr

/-- A culture engine (R463), beside CULT_ENG and CULT_CNT, or CDIE_FCENG and CDIE_FCCNT. -/
structure Engine where
  /-- Registers r1 to r31: unlisted ones hold 0. -/
  regs : List (Nat × BitVec 64) := []
  /-- Registers, and the top stack entry, whose parity bit is wrong (R463). -/
  bad : List Nat := []
  badStack : Bool := false
  loop : Nat := 0
  /-- Call stack, top first. -/
  stack : List Nat := []
  /-- Queued events, oldest first. -/
  events : List EngEvent := []
  latch : BitVec 64 := 0
  /-- Time stamp and step of the last event taken. -/
  stamp : Nat := 0
  lastStep : Nat := 0
  reqs : List EngReq := []
  latches : List Latch := []
  /-- Due time of the engine timer. -/
  timer : Option Nat := none
  /-- A word whose request has been issued and whose completion waits for a response (R469). -/
  waiting : Option Nat := none
  saved : Saved := {}
  /-- Resumes of the commit address in a row (R486). -/
  resumes : Nat := 0
  /-- Ports drained since the last commit (R483), with the word's address. -/
  drains : List (Nat × Nat) := []
  /-- A Finvik message being built: slot, class, words (R470). -/
  message : Option (Nat × Nat × List Word) := none
  /-- Crystal time from which the routine timer runs. -/
  since : Nat := 0
  /-- The WAIT word that has completed and waits for an event (R466, R488). -/
  parked : Option Nat := none
  /-- Commands whose record the engine has read and not completed, by fetch number (R470). -/
  held : List Nat := []
  /-- Cause of a synchronous fault met while an irreversible operation's response was out: it is taken after the commit (R480). -/
  late : Option Nat := none
  deriving DecidableEq, Repr

/-- A control store (R475): words not zero, and words with an error that the check finds: address and number of wrong bits. -/
structure Store where
  words : List (Nat × MicroWord) := []
  wrong : List (Nat × Nat) := []
  deriving DecidableEq, Repr


/-! ## The read channel and the formatter of a Curd die (R261 to R326) -/

/-- The expert fields of CHAN as a read gate takes them (R300): a write takes effect at the next read gate. -/
structure ChanCfg where
  synctol : Nat := 4
  synctolw : Nat := 6
  slipmax : Nat := 8
  iterotf : Nat := 12
  itermax : Nat := 60
  global : Nat := 4
  tathr : Nat := 48
  taext : Nat := 64
  acqbw : Nat := 6
  trkbw : Nat := 9
  acqbits : Nat := 64
  maxrev : Nat := 8
  /-- CHAN_ALTEQ 1 to 4, each word whole. -/
  alteq : List Nat := [0xC000, 0x8400, 0xBC00, 0]
  deriving DecidableEq, Repr

/-- A reader's timing loop (R267): the phase in 1/4096 of an interpolator step, and the frequency in the same unit a bit, beside the synthesiser's. -/
structure Timing where
  reader : Nat
  phase : Int
  freq : Int
  deriving DecidableEq, Repr

/-- What one reader's front end starts a read gate from (R95, R265, R311): the zone's gain, offset, asymmetry, high-pass corner and taps. -/
structure FrontEnd where
  reader : Nat
  gain : Nat
  offset : Int
  asym : Int
  hpf : Nat
  taps : List Int
  deriving DecidableEq, Repr

/-- An entry of the sample vault (R280). -/
structure VEntry where
  id : Nat
  surf : Nat
  track : Nat
  pos : Nat
  zone : Nat
  /-- Mode (1 to 3) and spindle speed at the capture. -/
  mode : Nat
  rpm : Nat
  cap : Capture
  /-- Bits flagged by each reader: reader, first bit and the bit after the last (R266). -/
  flags : List (Nat × Nat × Nat) := []
  /-- The mark placement in force and its count. -/
  place : Option (Int × Nat) := none
  /-- The payload, where the sector was good. -/
  good : Option (List Byte) := none
  pinned : Bool := false
  deriving DecidableEq, Repr

/-- Where a sector of a run stands. -/
inductive SecStage where
  /-- It waits for its gate. -/
  | waiting
  /-- Its capture waits for rung 1. -/
  | captured
  /-- It waits for the vault engine. -/
  | vault
  /-- Its group is being read for a rebuild (R293). -/
  | rebuild
  /-- It has its outcome. -/
  | done
  deriving DecidableEq, Repr

/-- What a sector of a run is. -/
inductive SecKind where
  /-- A sector the command names. -/
  | own
  /-- A neighbour being verified after SHOCK (R324). -/
  | neighbour
  /-- A position read for the rebuild of another sector (R293). -/
  | helper
  deriving DecidableEq, Repr

/-- A sector of a run, with its ladder (R284 to R291). -/
structure Sec where
  kind : SecKind := .own
  write : Bool := false
  surf : Nat
  zone : Nat
  track : Nat
  pos : Nat
  /-- Its index within the run (ESEQ of its DATA messages, R301), or of a helper within its group. -/
  index : Nat
  limit : Nat := 1
  rebuild : Bool := false
  stage : SecStage := .waiting
  /-- The rung last tried, the rung tried on a reread's capture (0: none), and the rereads made in the rung. -/
  rung : Nat := 0
  inner : Nat := 0
  shots : Nat := 0
  revs : Nat := 0
  missed : Bool := false
  slipped : Bool := false
  place : Option Int := none
  /-- Its vault entries, newest first. -/
  entries : List Nat := []
  /-- Its order in the vault engine's queue. -/
  order : Nat := 0
  /-- Withdrawals that count (R320), and the gate has been withdrawn since. -/
  wdraws : Nat := 0
  again : Bool := false
  /-- WRETRY as its first write gate took it (R320). -/
  wretry : Option Nat := none
  /-- The rungs enabled for its ladder, from the ladder's start (CHAN_LADDER.EN takes effect at the next ladder). -/
  en : Option Nat := none
  good : Option (List Byte) := none
  outcome : Option Nat := none
  deriving DecidableEq, Repr

/-- A run held by the formatter (R301, R304): the messages whose buffers it holds, by Rind slot, and its sectors. -/
structure CRun where
  eseq : Nat
  op : Nat
  surf : Nat
  zone : Nat
  incl : Bool
  rebuild : Bool
  rlim : Nat
  track : Nat
  first : Nat
  count : Nat
  bandFirst : Bool
  msgs : List (RSlot × Msg)
  secs : List Sec
  deriving DecidableEq, Repr

/-- A gate event as the gate unit holds it (R305), with the readers in use when it was posted: a posted sector keeps its mode (R314). -/
structure Posted extends GateEv where
  mode : Nat
  deriving DecidableEq, Repr

/-- The formatter and the read channel of a Curd die beside its registers. -/
structure Fmt where
  /-- Commands held and not started, and runs started and not ended, oldest first. -/
  queue : List CRun := []
  runs : List CRun := []
  /-- Posted gate events, oldest first; the gate that is open. -/
  posted : List Posted := []
  gate : Option GateEv := none
  /-- Mode of the open read gate. -/
  gateMode : Nat := 0
  /-- What the last read gate took: the CHAN fields, the start of each reader's front end, and the cutoff and boost; and its timing loops. -/
  chan : ChanCfg := {}
  front : List FrontEnd := []
  ctf : Nat × Nat := (0, 0)
  loops : List Timing := []
  vault : List VEntry := []
  nextEntry : Nat := 0
  nextOrder : Nat := 0
  /-- DATA received for writes: slot, ESEQ, and the payload words of each message. -/
  data : List (RSlot × Nat × List (List Word)) := []
  /-- Copies applied, newest first (R504): class, ESEQ, digest, slot, and whether the second has come. -/
  seen : List (Nat × Nat × BitVec 64 × RSlot × Bool) := []
  /-- Values last written to preamplifier registers (R311); the preamplifier has answered its INIT sequence; PA_FLT_N is low. -/
  pa : List (Nat × Nat) := []
  paReady : Bool := false
  paLow : Bool := false
  /-- The preamplifier is taken as answering (R226, R321). -/
  answers : Bool := true
  /-- The surface and zone loaded, and the rate of the synthesiser. -/
  loaded : Option (Nat × Nat) := none
  rate : Nat := 0
  /-- The synthesiser reports lock. -/
  lock : Bool := false
  /-- Readers ordered (R532), readers of the mode in force, and the count whose readers are settling (R315). -/
  wanted : Nat := 3
  readers : Nat := 0
  settling : Option Nat := none
  /-- The group order: ACTIVE and SEEKPCT. -/
  active : Bool := true
  seekPct : Nat := 100
  /-- SHOCK is at its active level, since this time. -/
  shockSince : Option Nat := none
  /-- Sectors written with the time their gate closed: surface, track, position, time (R324). -/
  wlog : List (Nat × Nat × Nat × Nat) := []
  /-- WLEAD as the open write gate took it (R318). -/
  lead : Nat := 0
  /-- Crystal time until which the next gate waits for the heater: HTRLEAD after its write (R311, R318). -/
  heatAt : Option Nat := none
  deriving DecidableEq, Repr

/-! ## The servo and the Press (R327 to R360) -/

/-- The servo of a Curd die beside its registers; positions in 1/256 track. -/
structure Servo where
  /-- The target track and surface, and the offset in 1/256 track (R348). -/
  target : Nat := 0
  offset : Int := 0
  /-- The zone's kind is shingled. -/
  shingled : Bool := false
  /-- The estimator: position, speed per wedge and bias force. -/
  est : Int := 0
  vel : Int := 0
  bias : Int := 0
  /-- The seek plan: reference and planned speed, acceleration and speed limits in 1/256 track per wedge (R346). -/
  ref : Int := 0
  plan : Int := 0
  accMax : Nat := 0
  velMax : Nat := 0
  /-- Consecutive good wedges: in all, within the read limit, within the write limits. -/
  good : Nat := 0
  rdRun : Nat := 0
  wrRun : Nat := 0
  /-- Wedges of the settle in progress, and settle timeouts in a row. -/
  settle : Nat := 0
  timeouts : Nat := 0
  /-- The soft start in progress: wedge k, its first position and current, and its target (R344). -/
  ramp : Option (Nat × Int × Int × Int) := none
  /-- A soft start waits for a good wedge (R356). -/
  restart : Bool := false
  /-- A seek asked for during the soft start: its track. -/
  held : Option Nat := none
  /-- The predicted wedge number, none before a first good wedge; a wrap has been confirmed in this load (R330). -/
  expect : Option Nat := none
  wrapped : Bool := false
  /-- The last eight intervals between accepted marks, newest first, in ns (R329). -/
  intervals : List Nat := []
  bank : Nat := 0
  /-- Filter states of the sections: section number, x1, x2, y1, y2 (Q1.15). -/
  sections : List (Nat × Int × Int × Int × Int) := []
  /-- The excess of the microactuator demand to add to the error of the next wedge (R343); the current set-point. -/
  excess : Int := 0
  setp : Int := 0
  integ : Int := 0
  /-- Frame count (R341). -/
  fseq : Nat := 0
  /-- Drained wedges in a row (R356). -/
  drained : Nat := 0
  /-- Failures in a row (R354), the time of the last load, and whether the group may load after a retract (R353). -/
  fails : Nat := 0
  loadedAt : Nat := 0
  mayLoad : Bool := true
  /-- Wedges per revolution of the load in progress, and the length of the soft start in progress: a write of either register waits for the next
(R16, R359, R360). -/
  wedges : Nat := 0x200
  rampw : Nat := 0x20
  /-- The servo bit rate of the load in progress in Mb/s at 7,200 rpm (R328): a write of SVRATE waits for the next load. -/
  svrate : Nat := 0x320
  /-- A normal unload still seeks to track 0 (R351). -/
  homing : Bool := false
  /-- The reload after three settle timeouts is due (R347). -/
  reload : Bool := false
  deriving DecidableEq, Repr

/-! ## The spindle keeper (R361 to R390) -/

/-- The spindle block of C0 beside its registers. -/
structure Spin where
  /-- The bridge switches; BRK is driven; the island holds the outputs low (R383); the overvoltage latch (R388). -/
  bridge : Bool := false
  brk : Bool := false
  heldLow : Bool := true
  latched : Bool := false
  /-- Duties of the three phases in millionths, skipped periods in a row of each, and whether the next period is clamped (R364, R365). -/
  duties : List Nat := [0, 0, 0]
  skips : List Nat := [0, 0, 0]
  clamp : Bool := false
  /-- Periods with the phase error within 10 degrees, and with the angle within 30 degrees of the open loop. -/
  lockRun : Nat := 0
  leadRun : Nat := 0
  bemf : Nat := 0
  /-- Current references in mA: d and q; the speed reference in rpm/1000. -/
  idRef : Int := 0
  iqRef : Int := 0
  speedRef : Nat := 0
  /-- The keeper has reached step 8 of this start (R374). -/
  begun : Bool := false
  /-- A start decision is due (R374). -/
  due : Bool := false
  /-- PWM frequency in kHz and dead time in 10 ns in force: taken while the bridge is off (R390). -/
  pwm : Nat := 0
  dead : Nat := 0
  /-- A target has been stored, and the ESEQ of the last set-point applied. -/
  stored : Bool := false
  setEseq : Option Nat := none
  /-- Floats made in this decision, start attempts failed in a row, the sensed axis, the open-loop speed in rpm/1000. -/
  floats : Nat := 0
  attempts : Nat := 0
  axis : Option Nat := none
  openRpm : Nat := 0
  /-- Since when the back-EMF has been below the floor. -/
  belowSince : Option Nat := none
  /-- The pair that carries the cooking current, and the cooking power in 0.1 W in force, taken at each pair change (R390). -/
  pair : Nat := 0
  cookPwr : Nat := 0
  /-- The current of a stationary drive in mA. -/
  still : Nat := 0
  /-- Crystal times of overcurrent events; drained computations in a row. -/
  ovc : List Nat := []
  drained : Nat := 0
  /-- VMOT has passed VBRK1 in braking: the bridge goes off at the next valley (R387). -/
  brakeEnd : Bool := false
  /-- SPDLIM samples, newest first: level and frequency; the last computed ceiling; the first evaluation is made. -/
  spd : List (Nat × Nat) := []
  computed : Nat := 7200
  evaluated : Bool := false
  /-- Crystal time of the estimate. -/
  hdaAt : Nat := 0
  /-- Periods and power summed since the last report (R389), in 10 mW. -/
  pwrSum : Nat := 0
  pwrN : Nat := 0
  deriving DecidableEq, Repr


/-! ## Outputs -/

/-- What the block sends: recorded newest first. -/
inductive Out where
  /-- A write to host memory, by a Rind die through a head. -/
  | hostWrite (d : RSlot) (head addr : Nat) (data : List Byte)
  /-- A read of host memory asked for: doorbell lines, descriptors, lists, write data. -/
  | hostRead (d : RSlot) (head addr len : Nat)
  /-- A Finvik message, and whether its CRC was corrupted by injection (R568). -/
  | msg (e : LinkEnd) (m : Msg) (badCrc : Bool)
  /-- A link control word (R30). -/
  | lcw (e : LinkEnd) (w0 w1 : Word)
  /-- A content of the step link, beside the message that carries it. -/
  | fwd (d : RSlot) (lseq : Nat) (c : FwdBody)
  /-- A word returned to a set-up read. -/
  | word (w : Word)
  /-- A byte returned to the sideband. -/
  | byte (b : Nat)
  /-- Data returned to a CXL.mem load, with poison. -/
  | load (data : List Byte) (poison : Bool)
  /-- The completion of a CXL.mem store, or the acknowledge of a flush. -/
  | ack
  /-- A PMBus command code to the 7-bit address of a regulator, with its data (R50). -/
  | pmbus (addr code data : Nat)
  /-- The flash begins an operation at an address (R77). -/
  | flash (op : FlashOp) (addr : Nat)
  /-- A read of the flash (R76): quad I/O or one line, the clock in MHz, the dummy cycles, the address and the length. -/
  | flashRead (quad : Bool) (mhz dummy addr len : Nat)
  /-- The SFDP tables are read (R76, R91). -/
  | sfdpRead
  /-- A log record goes to a 64-byte slot of the flash (R559). -/
  | logProgram (r : LogRec) (addr : Nat)
  /-- A sector of the log ring is erased. -/
  | logErase (addr : Nat)
  /-- A sector is on the media at the close of its write gate (R270, R316 to R318): group, surface, track and position, its bits from preamble bit 0,
  and the transitions that the write gate put on WD, from the first lead bit, with their shifts in 1/64 bit. -/
  | media (g surf track pos : Nat) (bits : List Bool) (level : List (Nat × Int))
  /-- The synthesiser is retuned (R311). -/
  | retune (g rate : Nat)
  /-- A preamplifier frame (R312): group, write, address, value. -/
  | preamp (g : Nat) (write : Bool) (addr val : Nat)
  /-- A frame to an actuator amplifier (R341): group and 24-bit frame. -/
  | act (g frame : Nat)
  /-- A response to a request port of a culture engine. -/
  | response (v : Nat)
  deriving DecidableEq, Repr

/-- An action of R554 that a Fatal event calls for. -/
inductive Todo where
  | fatalRind (d : RSlot)
  | reinit
  | fatalCurd (g : Nat)
  /-- A unit has reset itself (R356, R383): what a function reset does beside its action is due (R550, R553). -/
  | unitReset (u : RUnit)
  /-- Rung 3 stops the routine of an engine: the unit named, and the commands it held, by fetch number (R486, R552). -/
  | stopped (d : RSlot) (e : Nat) (unit : Option RUnit) (held : List Nat)
  deriving DecidableEq, Repr

/-- What a Rind die holds beside its registers. -/
structure RindDie where
  links : List FvEnd := [{}, {}, {}, {}, {}, {}, {}]
  sb : Sideband := {}
  island : Island := {}
  step : StepLogic := {}
  /-- Blocks whose expert page is open, by block number (R123). -/
  opened : List Nat := []
  /-- Armed requesters: die and requester, block address, crystal time of the latest arming (R122). -/
  arms : List ((RSlot × Requester) × Nat × Nat) := []
  /-- MODE that each head took at its last link training (R105), and logical devices that the fabric manager has bound: head, and a bit for each
  (R111). -/
  modes : List Nat := [0, 0, 0, 0]
  bound : List (Nat × Nat) := []
  /-- Host data of commands that waits for the die's head: domain, address and bytes, oldest first (R107, R140). -/
  held : List (Nat × Nat × List Byte) := []
  /-- Domains of which the die has become the sole writer, with the rewrite passes still due (R143). -/
  sole : List (Nat × Nat) := []
  /-- The next end-to-end sequence number of a CMD or CTRL message (R24, R299). -/
  eseq : Nat := 0
  /-- Credits of the link layer's pools, by head, as of its last training (R4, R564). -/
  pools : List (Nat × List Nat) := []
  bmem : Bmem := {}
  cave : Cave := {}
  vat : Vat := {}
  ladle : Ladle := {}
  store : Store := {}
  engines : List Engine := [{}, {}, {}, {}, {}, {}, {}, {}]
  /-- DATA received from the Curd dies and not yet placed: group, ESEQ and the payload words of each message (R25). -/
  data : List (Nat × Nat × List (List Word)) := []
  deriving DecidableEq, Repr

/-- What a Curd die holds beside its registers. -/
structure CurdDie where
  ends : List FvEnd := [{}, {}]
  /-- Blocks of the window whose expert page is open (R575). -/
  opened : List Nat := []
  /-- Armed requesters of a block of the window: requester code, block number and crystal time of the latest arming (R122). -/
  arms : List (Nat × Nat × Nat) := []
  /-- Level of RET_N (R57). -/
  retN : Bool := false
  /-- The copy of the severities of the die's own sources, by j (R544). -/
  sevCopy : List (Nat × Nat) := []
  /-- A rail monitor of the island reads low (R352). -/
  railLow : Bool := false
  /-- Crystal time of the die's latest Fatal event (R554). -/
  fatalAt : Option Nat := none
  /-- The formatter: its engine, its control store and its 32 KiB scratch memory (R463, R473, R475). -/
  eng : Engine := {}
  store : Store := {}
  scratch : List Host.Cell := []
  fmt : Fmt := {}
  servo : Servo := {}
  /-- The die is held in core reset (R527). -/
  inReset : Bool := false
  deriving DecidableEq, Repr

/-- The state of the block. -/
structure State where
  part : Part := {}
  /-- Crystal time in microseconds. -/
  now : Nat := 0
  /-- How many open values have been used: the argument of Config.freeNat. The model's own field. -/
  free : Nat := 0
  /-- Commands that wait, first in, first out. -/
  pending : List Instr := []
  /-- Outputs, newest first. -/
  out : List Out := []
  /-- Actions of R554 called for by the command in progress: empty between commands. -/
  todo : List Todo := []
  /-- The registers: key and word, in the canonical form of Sparse.wf over resetWord. -/
  regs : List (Nat × Word) := []
  f0 : RindDie := {}
  f1 : RindDie := {}
  curds : List CurdDie := [{}, {}, {}, {}, {}, {}]
  flash : Flash := {}
  fuses : Fuses := {}
  pins : Pins := {}
  pmb : Pmb := {}
  boot : Boot := {}
  session : Option FwSession := none
  /-- Outstanding commands, in fetch order (R134, R135). -/
  cmds : List Cmd := []
  /-- Completions generated and not written by every serving die, in generation order (R137). -/
  comps : List Comp := []
  /-- The next fetch number, and the next admission index (R209). -/
  nextUid : Nat := 0
  nextIndex : Nat := 0
  ports : List (Nat × PortX) := []
  lines : List (Nat × StatLine) := []
  sched : Sched := {}
  versions : List Version := []
  xlat : Xlat := {}
  /-- What the system regions hold of the tables: the newest checkpoint with the journal after it (R248, R249); none on a drive without
  tables. -/
  mediaTables : Option Tables := none
  /-- Groups whose system regions hold the copies (R250), and whether the last re-initialisation wrote every version out (R223, R224). -/
  mediaCopies : List Nat := []
  mediaClean : Bool := false
  /-- Sector commands sent to the Curd dies whose runs have not ended: group, ESEQ and the words of R301. -/
  runs : List (Nat × Nat × List Word) := []
  /-- Host data written for commands whose completion is not written yet: fetch number, domain, address, data (R502). -/
  hostLog : List (Nat × Nat × Nat × List Byte) := []
  /-- The budget manager: one copy, which both dies hold alike (R521). -/
  budget : Budget := {}
  /-- The spindle keeper, in C0. -/
  spin : Spin := {}
  deriving DecidableEq, Repr

/-- Why the block stops: no rule of the spec stops it on a command, so no meaning ends so. -/
inductive Fault where
  /-- Raised by no meaning: kept so that the type is inhabited (safe). -/
  | none
  deriving DecidableEq, Repr

/-- Why a command has no meaning. -/
inductive Refusal where
  /-- Raised by the dispatch for a command without a meaning (safe: the model stops). -/
  | notModelled (mnemonic : String)
  deriving DecidableEq, Repr

/-- The block right after reset: every field at its default. -/
def State.reset : State := {}

end Sys2Proof.Machine
end

