-- ==== Sys2Proof/Machine/Regs.lean ====
section
/-! DEFINITION. The register file: reset values, reads and writes of words and of named fields, and the store of a software write with its
access codes and clamps (R11 to R16). -/

namespace Sys2Proof

/-- Slot code of a Rind die (SRC of R24). -/
def RSlot.code : RSlot → Nat
  | .f0 => 0
  | .f1 => 1

/-- The other Rind slot. -/
def RSlot.peer : RSlot → RSlot
  | .f0 => .f1
  | .f1 => .f0

end Sys2Proof

namespace Sys2Proof.Machine

/-- Slot code of Curd die C`g` (SRC of R24). -/
def curdCode (g : Nat) : Nat := 8 + g

/-- Key of the register at an offset of a die. -/
def regKey (die off : Nat) : Nat := die * 0x1000000 + off

/-! ## Fault sources (R541, R543) -/

/-- Sources of a Rind die: number, default severity, default N and W where counted (R543). -/
def rindSources : List (Nat × Nat × Option (Nat × Nat)) :=
  [(0x000, 3, none), (0x001, 3, some (8, 1000)), (0x002, 4, none), (0x003, 4, none), (0x004, 2, none), (0x005, 3, none), (0x006, 3, none),
   (0x007, 3, none), (0x008, 3, none), (0x009, 2, some (16, 1000)), (0x020, 4, none), (0x022, 1, none), (0x023, 2, none), (0x024, 1, none),
   (0x025, 2, none), (0x026, 3, none), (0x027, 2, none), (0x030, 2, none), (0x031, 2, none), (0x032, 1, none), (0x033, 1, none),
   (0x034, 1, none), (0x035, 2, none), (0x036, 2, none), (0x037, 1, none), (0x038, 2, none), (0x040, 1, none), (0x060, 3, none),
   (0x061, 4, none), (0x062, 2, none), (0x063, 2, none), (0x064, 2, none), (0x065, 2, none), (0x070, 1, none), (0x078, 4, none),
   (0x079, 2, some (32, 10000)), (0x080, 4, none), (0x081, 2, none), (0x082, 3, none), (0x083, 3, none), (0x084, 2, none), (0x085, 4, none),
   (0x086, 4, none), (0x090, 2, none), (0x098, 3, some (4, 1000)), (0x099, 4, none), (0x09A, 2, none), (0x0A0, 3, none), (0x0A1, 3, none),
   (0x0A2, 3, none), (0x0A3, 3, none), (0x0B0, 2, none), (0x0B1, 3, none), (0x0B2, 4, none), (0x0B3, 3, none), (0x0C0, 4, none),
   (0x0C1, 2, none), (0x0C2, 3, none), (0x0C3, 4, none), (0x0C4, 1, none), (0x0C5, 2, none), (0x0C6, 1, none), (0x0C7, 4, none),
   (0x0C8, 4, none)]

/-- Sources of a Curd die, by j (R543). -/
def curdSources : List (Nat × Nat × Option (Nat × Nat)) :=
  [(0x01, 3, some (8, 1000)), (0x02, 1, none), (0x10, 2, none), (0x11, 2, none), (0x12, 1, none), (0x18, 3, none), (0x19, 2, some (4, 60000)),
   (0x1A, 3, none), (0x28, 3, none), (0x29, 3, none), (0x2A, 2, none), (0x2B, 2, none), (0x2C, 2, none), (0x2D, 2, none)]

/-- The number of source `j` of Curd die C`g` (R541). -/
def curdSource (g j : Nat) : Nat := 0x100 + 0x40 * g + j

/-- The defaults of a source, none where the number is unused (R541). -/
def sourceDefault (src : Nat) : Option (Nat × Nat × Option (Nat × Nat)) :=
  if src < 0x100 then rindSources.find? (fun p => p.1 = src)
  else if src < 0x280 then curdSources.find? (fun p => p.1 = (src - 0x100) % 0x40)
  else none

/-- The number names a source (R541). -/
def sourceUsed (src : Nat) : Bool := (sourceDefault src).isSome

/-! ## Reset values -/

/-- A register of the map lies at this offset. -/
def RegDef.covers (r : RegDef) (off : Nat) : Bool :=
  decide (r.base ≤ off) &&
  (match r.dims with
   | [] => decide (off = r.base)
   | [(st, n)] => decide ((off - r.base) % st = 0 ∧ (off - r.base) / st < n)
   | (s1, n1) :: (s2, n2) :: _ => decide ((off - r.base) / s1 < n1 ∧ (off - r.base) % s1 % s2 = 0 ∧ (off - r.base) % s1 / s2 < n2))

/-- The row of the register map for an offset of a die. -/
def regDef (die off : Nat) : Option RegDef :=
  ((if die < 8 then rindBlock (off / 0x10000) else curdBlock (off / 0x10000)).find? (fun r => r.covers off))

/-- The word a row resets to. -/
def RegDef.resetNat (r : RegDef) : Nat := r.fields.foldl (fun a f => a + f.reset * 2 ^ f.lo) 0

/-- Reset words that the tables give by index or by die: FAULT_SRC, FAULT_SRCCFG (R543; the values of a source that no record
names), CHAN_ALTEQ (R300) and DEV_PINSTAT (R75); else the map's. -/
def resetNat (die off : Nat) : Nat :=
  if die < 8 ∧ 0xD1000 ≤ off ∧ off < 0xD1A00 then
    match sourceDefault ((off - 0xD1000) / 4) with
    | some (_, sev, c) => (if c.isSome then 1 else sev) * 2 ^ 13
    | none => 0
  else if die < 8 ∧ 0xD9000 ≤ off ∧ off < 0xDA400 then
    match sourceDefault ((off - 0xD9000) / 8) with
    | some (_, sev, c) =>
      if off % 8 = 0 then sev * 2 ^ 29 + (if c.isSome then 2 ^ 28 else 0) + (c.getD (1, 1)).1 else (c.getD (1, 1)).2
    | none => 0
  else if 8 ≤ die ∧ off = 0x18020 then 0xC000
  else if 8 ≤ die ∧ off = 0x18024 then 0x8400
  else if 8 ≤ die ∧ off = 0x18028 then 0xBC00
  else if 8 ≤ die ∧ off = 0x1802C then 0
  else if die = 1 ∧ off = 0x30 then 0
  else match regDef die off with
    | some r => r.resetNat
    | none => 0

/-- The word of a register at reset, by its key. -/
def resetWord (k : Nat) : Word := BitVec.ofNat 32 (resetNat (k / 0x1000000) (k % 0x1000000))

/-! ## Words and fields -/

/-- The bits of a field, as a mask from bit 0. -/
def Fld.mask (f : Fld) : Word := BitVec.ofNat 32 (2 ^ (f.hi + 1 - f.lo) - 1)

/-- The greatest value of a field. -/
def Fld.top (f : Fld) : Nat := 2 ^ (f.hi + 1 - f.lo) - 1

/-- A field of a word. -/
def Fld.get (f : Fld) (w : Word) : Nat := ((w >>> f.lo) &&& f.mask).toNat

/-- A word with a field replaced, the value taken modulo the field. -/
def Fld.put (f : Fld) (v : Nat) (w : Word) : Word :=
  (w &&& ~~~(f.mask <<< f.lo)) ||| ((BitVec.ofNat 32 v &&& f.mask) <<< f.lo)

/-- The register with a key. -/
def State.word (s : State) (k : Nat) : Word := Sparse.get resetWord k s.regs

/-- Store a whole register. -/
def State.setWord (s : State) (k : Nat) (w : Word) : State := { s with regs := Sparse.put resetWord k w s.regs }

/-- A field of a die's register. -/
def State.rd (s : State) (die : Nat) (f : Fld) : Nat := f.get (s.word (regKey die f.off))

/-- Store a field of a die's register. -/
def State.wr (s : State) (die : Nat) (f : Fld) (v : Nat) : State :=
  s.setWord (regKey die f.off) (f.put v (s.word (regKey die f.off)))

/-- Advance a counter field, saturating at its greatest value. -/
def State.inc (s : State) (die : Nat) (f : Fld) (n : Nat := 1) : State := s.wr die f (satAdd f.top (s.rd die f) n)

/-- A field of a Rind die's register. -/
def State.rdR (s : State) (d : RSlot) (f : Fld) : Nat := s.rd d.code f

/-- Store a field of a Rind die's register. -/
def State.wrR (s : State) (d : RSlot) (f : Fld) (v : Nat) : State := s.wr d.code f v

/-- Advance a counter of a Rind die. -/
def State.incR (s : State) (d : RSlot) (f : Fld) (n : Nat := 1) : State := s.inc d.code f n

/-- A field of a Curd die's register. -/
def State.rdC (s : State) (g : Nat) (f : Fld) : Nat := s.rd (curdCode g) f

/-- Store a field of a Curd die's register. -/
def State.wrC (s : State) (g : Nat) (f : Fld) (v : Nat) : State := s.wr (curdCode g) f v

/-- Advance a counter of a Curd die. -/
def State.incC (s : State) (g : Nat) (f : Fld) (n : Nat := 1) : State := s.inc (curdCode g) f n

/-- A one-bit field that reads 1. -/
def State.bitR (s : State) (d : RSlot) (f : Fld) : Bool := s.rdR d f ≠ 0

/-- A one-bit field of a Curd die that reads 1. -/
def State.bitC (s : State) (g : Nat) (f : Fld) : Bool := s.rdC g f ≠ 0

/-- A truth value as a bit. -/
def bit (b : Bool) : Nat := if b then 1 else 0

/-- A field of `n` bits read as a signed number. -/
def sgn (n v : Nat) : Int := if v % 2 ^ n < 2 ^ (n - 1) then (v % 2 ^ n : Nat) else (v % 2 ^ n : Nat) - (2 ^ n : Nat)

/-- A signed number as a field of `n` bits. -/
def unsgn (n : Nat) (v : Int) : Nat := (v % ((2 ^ n : Nat) : Int)).toNat

/-! ## Software accesses (R12 to R16) -/

/-- The value a written field is stored as (R3, R110, and the notes of the register tables). -/
def clampField (p : Part) (ilimTop hiwat : Nat) (c : Clamp) (width v : Nat) : Nat :=
  match c with
  | .none => v
  | .range lo hi => clampNat lo hi v
  | .zeroAbove hi => if hi < v then 0 else v
  | .srange m =>
    let i := sgn width v
    unsgn width (max (-(m : Int)) (min (m : Int) i))
  | .setBit0 => v ||| 1
  | .f2only => if p.f = 2 then v else 0
  | .ilim => clampNat 100 ilimTop v
  | .pcap => clampNat 50 (90 * p.f + 26 * p.c) v
  | .belowHi => if hiwat ≤ v then hiwat - 1 else v

/-- The word that software's write of `v` leaves in a register that held `old` (R13, R15). -/
def storeWord (p : Part) (ilimTop hiwat : Nat) (r : RegDef) (old v : Word) : Word :=
  r.fields.foldl (fun w fd =>
    let f : Fld := ⟨0, fd.hi, fd.lo⟩
    match fd.acc with
    | .rw => f.put (clampField p ilimTop hiwat fd.clamp (fd.hi + 1 - fd.lo) (f.get v)) w
    | .w1c => f.put (f.get w &&& (f.mask.toNat - f.get v)) w
    | .ro | .rc | .wo => w) old

/-- The word a read returns: write-only fields read 0 (R13). -/
def readWord (r : RegDef) (w : Word) : Word :=
  r.fields.foldl (fun a fd =>
    match fd.acc with
    | .wo => a
    | _ => let f : Fld := ⟨0, fd.hi, fd.lo⟩; f.put (f.get w) a) 0

/-- The word a read leaves: counters are cleared (R13). -/
def afterRead (r : RegDef) (w : Word) : Word :=
  r.fields.foldl (fun a fd =>
    match fd.acc with
    | .rc => let f : Fld := ⟨0, fd.hi, fd.lo⟩; f.put 0 a
    | _ => a) w

end Sys2Proof.Machine
end

