-- ==== Sys2Proof/Machine/Ops.lean ====
section
/-! DEFINITION. The shared operations: dies and roles, outputs, Finvik messages, and the fault collector (R24 to R31, R541 to R561). -/

namespace Sys2Proof

/-- The slot code a link end sends as (SRC of R24). -/
def LinkEnd.src : LinkEnd → Nat
  | .rind d _ => d.code
  | .curd g _ => 8 + g

/-- Buffers of a class at the receiver of what this end sends: the credits of R26. -/
def LinkEnd.credits (e : LinkEnd) (cidx : Nat) : Nat :=
  match e with
  | .rind _ n =>
    if n = 6 then [64, 16, 64, 32].getD cidx 0 else [32, 24, 0, 8].getD cidx 0
  | .curd _ _ => [0, 24, 32, 8].getD cidx 0

/-- Payload words that a buffer of a class holds at the receiver of what this end sends (R26). -/
def LinkEnd.room (e : LinkEnd) (cidx : Nat) : Nat :=
  match e with
  | .rind _ n => if n = 6 then [16, 5, 128, 128].getD cidx 0 else [16, 128, 16, 16].getD cidx 0
  | .curd _ _ => [16, 128, 16, 16].getD cidx 0

/-- The message's class belongs to the link's type (R24). -/
def LinkEnd.classOk (e : LinkEnd) (cls : Nat) : Bool :=
  match e with
  | .rind _ n => if n = 6 then decide (4 ≤ cls ∧ cls ≤ 7) else decide (cls < 4)
  | .curd _ _ => decide (cls < 4)

/-- The word of a CTRL message that names a requester of a die (DESIGN CHOICE 36, 122). -/
def Requester.code (d : RSlot) : Requester → Nat
  | .sideband => d.code
  | .head h => 2 + 4 * d.code + h
  | .ld h l => 16 + 64 * d.code + 16 * h + l

/-- A word of a message's payload, 0 beyond its end. -/
def Msg.w (m : Msg) (i : Nat) : Nat := (m.payload.getD i 0).toNat

end Sys2Proof

namespace Sys2Proof.Machine

/-! ## Dies and roles -/

/-- A Rind die's own state. -/
def State.rind (s : State) : RSlot → RindDie
  | .f0 => s.f0
  | .f1 => s.f1

/-- Change a Rind die's own state. -/
def State.modRind (s : State) (d : RSlot) (f : RindDie → RindDie) : State :=
  match d with
  | .f0 => { s with f0 := f s.f0 }
  | .f1 => { s with f1 := f s.f1 }

/-- A Curd die's own state. -/
def State.curd (s : State) (g : Nat) : CurdDie := s.curds.getD g {}

/-- Change a Curd die's own state. -/
def State.modCurd (s : State) (g : Nat) (f : CurdDie → CurdDie) : State := { s with curds := modAt g f s.curds }

/-- Record an output. -/
def State.emit (s : State) (o : Out) : State := { s with out := o :: s.out }

/-- The next open value (a free value: Config.freeNat), and the state with it used. -/
def State.fresh (s : State) : Nat × State := (Config.freeNat s.free, { s with free := s.free + 1 })

/-- Advance a counter that wraps. -/
def State.bump (s : State) (die : Nat) (f : Fld) (n : Nat := 1) : State := s.wr die f (s.rd die f + n)

/-- The Rind dies of the part (R2). -/
def State.rinds (s : State) : List RSlot := if s.part.f = 2 then [.f0, .f1] else [.f0]

/-- The slot holds a die (R2). -/
def State.hasRind (s : State) (d : RSlot) : Bool := decide (d = .f0 ∨ s.part.f = 2)

/-- Curd slot C`g` holds a die (R2). -/
def State.hasCurd (s : State) (g : Nat) : Bool := decide (g < s.part.c)

/-- The Curd slots that hold a die. -/
def State.groups (s : State) : List Nat := List.range s.part.c

/-- ROLE codes of the die word (R156). -/
def roleSenior : Nat := 0
/-- Junior in step. -/
def roleJunior : Nat := 1
/-- Serving alone. -/
def roleAlone : Nat := 2
/-- Fenced. -/
def roleFenced : Nat := 3
/-- Being resynced. -/
def roleResync : Nat := 4

/-- The ROLE of a Rind die: STEP_STAT.ROLE, and serving alone in an F1 part, where STEP reads 0 (R519). -/
def State.role (s : State) (d : RSlot) : Nat := if s.part.f = 2 then s.rdR d R.STEP_STAT_ROLE else roleAlone

/-- The die is fenced or being resynced (R515, R516). -/
def State.fenced (s : State) (d : RSlot) : Bool := decide (s.role d = roleFenced ∨ s.role d = roleResync)

/-- The Rind dies that serve: present, not fenced, not being resynced. -/
def State.serving (s : State) : List RSlot := s.rinds.filter (fun d => ! s.fenced d)

/-- The die that leads: the one that holds the lease, F0 where neither does (R94, R506). -/
def State.senior (s : State) : RSlot :=
  if s.part.f = 2 ∧ s.rdR .f1 R.STEP_STAT_LEASE = 1 ∧ ! s.fenced .f1 then .f1
  else if s.part.f = 2 ∧ s.fenced .f0 then .f1 else .f0

/-- Both Rind dies serve in step. -/
def State.inTwo (s : State) : Bool := decide (s.serving.length = 2)

/-- An input in step: what it does, done on every serving Rind die (R493). -/
def inStep (f : RSlot → State → State) (s : State) : State := s.serving.foldl (fun t d => f d t) s

/-- Do a thing on every Curd die of the part. -/
def onGroups (f : Nat → State → State) (s : State) : State := s.groups.foldl (fun t g => f g t) s

/-- The step number of the step in progress, 0 in F1 parts. -/
def State.stepNo (s : State) (d : RSlot) : Nat :=
  if s.part.f = 2 then s.rdR d R.STEP_NUM_LO_STEP + s.rdR d R.STEP_NUM_HI_STEP * 2 ^ 32 else 0

/-- Operating microseconds since the release of power-on reset. -/
def State.upUs (s : State) : Nat := s.now - s.boot.startAt

/-- Operating seconds (R562): LOG_OPSEC holds the base taken from the scan. -/
def State.opsec (s : State) (d : RSlot) : Nat := s.rdR d R.LOG_OPSEC_SEC + s.upUs / 1000000

/-- The start phase of a die (BOOT_STAT.PHASE). -/
def State.phase (s : State) (d : RSlot) : Nat := s.rdR d R.BOOT_STAT_PHASE

/-- The device is READY (step 15 of R91). -/
def State.isReady (s : State) : Bool := s.serving.any (fun d => s.phase d = 8)

/-! ## Finvik links (R24 to R31) -/

/-- A link end's state. -/
def State.fvEnd (s : State) : LinkEnd → FvEnd
  | .rind d n => (s.rind d).links.getD n {}
  | .curd g d => (s.curd g).ends.getD d.code {}

/-- Change a link end. -/
def State.modEnd (s : State) (e : LinkEnd) (f : FvEnd → FvEnd) : State :=
  match e with
  | .rind d n => s.modRind d (fun r => { r with links := modAt n f r.links })
  | .curd g d => s.modCurd g (fun c => { c with ends := modAt d.code f c.ends })

/-- Send the messages of a class that wait, while credits last (R26, R28). The LSEQ of each was given when it was made. -/
def TxClass.launch : Nat → TxClass → List Msg × TxClass
  | 0, t => ([], t)
  | n + 1, t =>
    match t.stalled with
    | [] => ([], t)
    | m :: ms =>
      if t.credits = 0 then ([], t)
      else
        let r := TxClass.launch n { t with credits := t.credits - 1, stalled := ms, replay := t.replay ++ [m] }
        (m :: r.1, r.2)

/-- Put messages of a link end on the wire, the first with a wrong CRC where injection asked for it (R568), recording LSEQTX of CMD and
STEP messages (R41). -/
def putOnWire (e : LinkEnd) (ms : List Msg) (s : State) : State :=
  ms.foldl (fun t m =>
    let bad := (t.fvEnd e).corruptNext
    let t := (t.modEnd e (fun x => { x with corruptNext := false })).emit (.msg e m bad)
    match e with
    | .rind d n => if m.cls % 4 = 0 then t.wrR d (R.DEV_FVSTAT_LSEQTX n) m.lseq else t
    | .curd _ _ => t) s

/-- Release what waits in a class of a link end. -/
def launchClass (e : LinkEnd) (cidx : Nat) (s : State) : State :=
  let t := (s.fvEnd e).tx.getD cidx {}
  let r := t.launch t.stalled.length
  putOnWire e r.1 (s.modEnd e (fun x => { x with tx := modAt cidx (fun _ => r.2) x.tx }))

/-- The link end can carry messages: its first handshake is complete and it is not down. -/
def State.linkUp (s : State) (e : LinkEnd) : Bool := (s.fvEnd e).up && ! (s.fvEnd e).down

/-- Send a message from a link end: it takes the next LSEQ of its class, and goes when a credit is there (R24, R26). A link that is not
up carries nothing (R20), and a fenced die sends nothing to a Curd die (R515). -/
def sendMsg (e : LinkEnd) (cls eseq : Nat) (payload : List Word) (s : State) : State :=
  let mute := match e with
    | .rind d n => decide (n ≠ 6) && s.fenced d
    | .curd _ _ => false
  if s.linkUp e && ! mute then
    let t := (s.fvEnd e).tx.getD (cls % 4) {}
    let m : Msg := ⟨cls, e.src, t.lseq, eseq, payload⟩
    launchClass e (cls % 4) (s.modEnd e (fun x => { x with
      tx := modAt (cls % 4) (fun t => { t with lseq := (t.lseq + 1) % 0x10000, stalled := t.stalled ++ [m] }) x.tx }))
  else s

/-- A CRC-64 step of the digest of R499 over one bit, least significant first. -/
def crc64Bit (c : BitVec 64) (b : Bool) : BitVec 64 :=
  let x := c.getLsbD 0 != b
  let c' := c >>> 1
  if x then c' ^^^ 0xC96C5795D7870F42#64 else c'

/-- The digest register over a byte (R499). -/
def crc64Byte (c : BitVec 64) (b : Byte) : BitVec 64 := (List.range 8).foldl (fun c i => crc64Bit c (b.getLsbD i)) c

/-- The digest register over bytes. -/
def crc64 (c : BitVec 64) (bs : List Byte) : BitVec 64 := bs.foldl crc64Byte c

/-- The bytes of a word, least significant first. -/
def wordBytes (w : Word) : List Byte := natLe 4 w.toNat

/-- The digest of a message: header word 1, then the payload (R499, R504). -/
def msgDigest (m : Msg) : BitVec 64 :=
  ~~~ (crc64 (BitVec.allOnes 64) (natLe 4 m.eseq ++ m.payload.flatMap wordBytes))

/-- Add bytes to the digest of the block in progress (R499). -/
def digestAdd (d : RSlot) (bs : List Byte) (s : State) : State :=
  if s.part.f = 2 then s.modRind d (fun r => { r with step := { r.step with crc := crc64 r.step.crc bs } }) else s

/-- A Rind die sends a message to C`g`; it counts in the digest (R499). -/
def toCurd (d : RSlot) (g cls eseq : Nat) (payload : List Word) (s : State) : State :=
  sendMsg (.rind d g) cls eseq payload (digestAdd d (natLe 4 eseq ++ payload.flatMap wordBytes) s)

/-- A Rind die's next end-to-end sequence number, and the state with it taken (R24). -/
def takeEseq (d : RSlot) (s : State) : Nat × State :=
  ((s.rind d).eseq, s.modRind d (fun r => { r with eseq := (r.eseq + 1) % 2 ^ 32 }))

/-- A Rind die sends a CTRL message with a new ESEQ to C`g`. -/
def ctrlTo (d : RSlot) (g : Nat) (payload : List Word) (s : State) : State :=
  let r := takeEseq d s
  toCurd d g 3 r.1 payload r.2

/-- A Curd die sends a message on each of its links (R24). -/
def fromCurd (g cls eseq : Nat) (payload : List Word) (s : State) : State :=
  sendMsg (.curd g .f1) cls eseq payload (sendMsg (.curd g .f0) cls eseq payload s)

/-- A receiver takes a message out of its buffer: the buffer is freed (R30). -/
def takeMsg (e : LinkEnd) (m : Msg) (s : State) : State :=
  s.modEnd e (fun x => { x with
    rx := modAt (m.cls % 4) (fun r =>
      if m ∈ r.held then { r with held := r.held.erase m, freed := (r.freed + 1) % 0x10000, owed := true } else r) x.rx })

/-- Take the oldest held message of a class that meets a condition out of its buffer. -/
def takeWhere (e : LinkEnd) (cidx : Nat) (p : Msg → Bool) (s : State) : State :=
  match ((s.fvEnd e).rx.getD cidx {}).held.find? p with
  | some m => takeMsg e m s
  | none => s

/-- The other end of a link. -/
def farEnd (e : LinkEnd) : LinkEnd :=
  match e with
  | .rind d n => if n = 6 then .rind d.peer 6 else .curd n d
  | .curd g d => .rind d g

/-- The two words of a link control word (R30), with its check byte. -/
def lcwWords (typ cidx alseq freed free : Nat) : Word × Word :=
  let w0 := 0xF0000000 + typ * 2 ^ 26 + cidx * 2 ^ 24 + alseq
  let w1 := freed * 2 ^ 16 + free
  let chk := ((natLe 4 w0 ++ natLe 4 w1).foldl (fun a b => a ^^^ b) (0 : Byte)).toNat
  (BitVec.ofNat 32 (w0 + chk * 2 ^ 16), BitVec.ofNat 32 w1)

/-- The check byte of a link control word holds (R30): the XOR of all eight bytes is 0, and the word carries MARK. -/
def lcwGood (w0 w1 : Word) : Bool :=
  decide ((natLe 4 w0.toNat ++ natLe 4 w1.toNat).foldl (fun a b => a ^^^ b) (0 : Byte) = 0 ∧ w0.toNat / 2 ^ 28 = 0xF)

/-- Send a link control word of a class: the last LSEQ accepted, the buffers freed, and in a reset report the buffers free. A reset report
restarts FREED, and the count last applied moves with it, so that the credits in flight stay what they are (R27, R29, R30). -/
def sendLcw (e : LinkEnd) (typ cidx : Nat) (s : State) : State :=
  let r := (s.fvEnd e).rx.getD cidx {}
  let w := lcwWords typ cidx r.last (if typ = 2 then 0 else r.freed) (if typ = 2 then (farEnd e).credits cidx - r.held.length else 0)
  let s := if typ = 2 then
      s.modEnd (farEnd e) (fun x => { x with tx := modAt cidx (fun y => { y with freedApplied := (y.freedApplied + 0x10000 - r.freed) % 0x10000 }) x.tx })
    else s
  (s.modEnd e (fun x => { x with rx := modAt cidx (fun r => { r with owed := false, freed := if typ = 2 then 0 else r.freed }) x.rx })).emit (.lcw e w.1 w.2)

/-- The ends of the links of the part. -/
def State.ends (s : State) : List LinkEnd :=
  s.rinds.flatMap (fun d => (List.range 7).map (LinkEnd.rind d)) ++ s.groups.flatMap (fun g => s.rinds.map (LinkEnd.curd g))

/-- Every receiver sends a link control word for each class in which it has freed a buffer or accepted a message since its last one, all that
waits in one word (R30). -/
def payLcws (s : State) : State :=
  s.ends.foldl (fun t e =>
    (List.range 4).foldl (fun t c => if t.linkUp e && ((t.fvEnd e).rx.getD c {}).owed then sendLcw e 0 c t else t) t) s

/-! ## The ripening log's staging queue (R558 to R561) -/

/-- The sequence number after `n`: 0xFFFF_FFFF is never used (R558). -/
def nextRseq (n : Nat) : Nat := if n + 1 ≥ 0xFFFFFFFF then 0 else n + 1

/-- Stage a record (R561): a full queue of 256 gives up its oldest record of equal or lower severity, or the new one is dropped. -/
def stageRec (d : RSlot) (r : LogRec) (s : State) : State :=
  let s := s.bump d.code (R.LOG_CNT_RAISED (r.sev - 1))
  let q := (s.rind d).island.queue
  let take (s : State) (q : List LogRec) : State :=
    let s := (s.modRind d (fun x => { x with island := { x.island with queue := q ++ [{ r with rseq := s.rdR d R.LOG_RSEQ_NEXT }] } }))
    (((s.wrR d R.LOG_RSEQ_NEXT (nextRseq (s.rdR d R.LOG_RSEQ_NEXT))).bump d.code (R.LOG_CNT_QUEUED (r.sev - 1)))).wrR d
      R.LOG_STAT_QUEUED (q.length + 1)
  if q.length < 256 then take s q
  else
    match q.find? (fun x => x.sev ≤ r.sev) with
    | some v =>
      let s := (s.bump d.code (R.LOG_CNT_DROPPED (v.sev - 1))).wrR d (R.LOG_CNT_QUEUED (v.sev - 1)) (s.rdR d (R.LOG_CNT_QUEUED (v.sev - 1)) - 1)
      take s (q.erase v)
    | none => s.bump d.code (R.LOG_CNT_DROPPED (r.sev - 1))

/-- The record of an event (R558). -/
def State.makeRec (s : State) (d : RSlot) (die src sev wincnt rung : Nat) (detail : List Nat) : LogRec :=
  { rseq := 0, opsec := s.opsec d, pcyc := s.rdR d R.LOG_PCYC_COUNT, sev := sev, island := ! s.isReady && decide (sev = 4)
    frozen := s.bitR d R.LOG_CTL_FREEZE, source := src, die := die, rung := rung, subms := s.upUs / 1000 % 1000
    step := s.stepNo d % 2 ^ 32, wincnt := wincnt, detail := detail }

/-! ## Fault events (R542 to R549) -/

/-- ALIVE stops and is driven low (R549). -/
def stopAlive (s : State) : State := { s with pins := { s.pins with alive := false, aliveOn := false } }

/-- The device enters the fault state, or restarts its quiet period, on an event of a die: both islands hold the state (R546). -/
def enterFault (die src sev : Nat) (s : State) : State :=
  stopAlive (s.rinds.foldl (fun t d =>
    let t := if t.rdR d R.FAULT_STAT_STATE = 0 then t.wrR d R.FAULT_STAT_STATE 1 else t
    let t := t.wrR d R.FAULT_STAT_QUIET (10 * t.rdR d R.FAULT_CFG_QUIET)
    let t := ((t.wrR d R.FAULT_LAST_SOURCE src).wrR d R.FAULT_LAST_DIE die).wrR d R.FAULT_LAST_SEV sev
    t.modRind d (fun r => { r with island := { r.island with lastBad := t.now } })) s)

/-- Sources whose event is an error of the die's own (R510). -/
def ownSources : List Nat := [0x001, 0x078, 0x079, 0x084, 0x085, 0x099]

/-- The action of R554 a Fatal event calls for: none during a rung 6 restart, none for a thermal shutdown (R527), an abandoned close-out
(R555), failed DRAM training (R401) or lost tables (R251), whose own rules say what follows. -/
def fatalAction (d : RSlot) (src : Nat) (s : State) : State :=
  if s.boot.restarting ∨ src ∈ [0x0B2, 0x0C8, 0x080, 0x061] then s
  else if src ∈ [0x002, 0x003, 0x020, 0x0C3] then { s with todo := s.todo ++ [.reinit] }
  else if src < 0x100 then { s with todo := s.todo ++ [.fatalRind d] }
  else s

/-- The rung that an event starts (R550, R554, R558): the source that goes with the use of a rung, else what a Fatal event calls for; 0 for none
(DEDUCED 136). -/
def State.rungOf (s : State) (src sev : Nat) : Nat :=
  if src = 0x001 ∨ (0x100 ≤ src ∧ src % 0x40 = 1) then 1
  else if src = 0x098 then 2
  else if src = 0x09A ∨ src = 0x0C1 then 3
  else if src = 0x0C2 then 4
  else if src = 0x0A0 then 5
  else if src = 0x0C3 then 6
  else if sev ≠ 4 ∨ s.boot.restarting ∨ src ∈ [0x0B2, 0x0C8, 0x080, 0x061] then 0
  else if 0x100 ≤ src then 4
  else if src ∈ [0x002, 0x003, 0x020] ∨ ! s.inTwo then 6
  else 5

/-- Raise an event on the collector of a Rind die (R542, R545): `die` is the die it arises on, `fix` a severity that a rule sets on its own
(R543). -/
def raiseFull (d : RSlot) (die src : Nat) (detail : List Nat) (fix : Option Nat) (s : State) : State :=
  if ! sourceUsed src then s
  else
    let conf := s.rdR d (R.FAULT_SRCCFG_SEV src)
    let counted := s.bitR d (R.FAULT_SRCCFG_COUNTED src) && decide (conf ≠ 0) && fix.isNone
    let s := s.incR d (R.FAULT_SRC_EVENTS src)
    let win := assocGet src 0 (s.rind d).island.windows + 1
    let full := counted && decide (s.rdR d (R.FAULT_SRCCFG_N src) ≤ win)
    let eff := if full then min conf (s.rdR d (R.FAULT_SRC_EFF src) + 1) else s.rdR d (R.FAULT_SRC_EFF src)
    let sev := match fix with
      | some v => v
      | none => if counted then eff else conf
    let s := s.modRind d (fun r => { r with island := { r.island with
      totals := assocPut src (satAdd 0xFFFFFFFF (assocGet src 0 r.island.totals) 1) r.island.totals
      windows := if counted then (if full then assocDel src r.island.windows else assocPut src win r.island.windows) else r.island.windows
      ownNow := r.island.ownNow || decide (src ∈ ownSources)
      ownSince := r.island.ownSince || decide (src ∈ ownSources) } })
    let s := if full then s.wrR d (R.FAULT_SRC_EFF src) eff else s
    let s := if sev = 0 then s else stageRec d (s.makeRec d die src sev (if counted then win else 0) (s.rungOf src sev) detail) s
    let s := if 3 ≤ sev then enterFault die src sev s else s
    if sev = 4 then fatalAction d src s else s

/-- The severity that a rule fixes for a source, whatever is configured (R543): thermal warning, throttle and shutdown, a violated ledger, a
first-threshold braking event. -/
def fixedSev (src : Nat) : Option Nat :=
  if src = 0x0B0 then some 2 else if src = 0x0B1 then some 3 else if src = 0x0B2 ∨ src = 0x0C0 then some 4
  else if 0x100 ≤ src ∧ src % 0x40 = 0x2D then some 2 else none

/-- Raise a source of a Rind die on its own collector. -/
def raise (d : RSlot) (src : Nat) (detail : List Nat) (s : State) : State := raiseFull d d.code src detail none s

/-- A Curd die reports an event to the Rind dies (R544): an RPT message of KIND 0x7; a source its own copy calls Fatal starts the die's
action at once. -/
def curdRaise (g j detail : Nat) (s : State) : State :=
  let s := fromCurd g 2 0 [BitVec.ofNat 32 (7 * 2 ^ 28 + curdSource g j), BitVec.ofNat 32 detail] s
  if assocGet j 0 (s.curd g).sevCopy = 4 then { s with todo := s.todo ++ [.fatalCurd g] } else s

/-- A use of a rung of the recovery ladder (R550). -/
def useRung (d : RSlot) (r : Nat) (s : State) : State := s.incR d (R.FAULT_RUNG_COUNT (r - 1))

end Sys2Proof.Machine
end

