-- ==== Sys2Proof/Machine/Geometry.lean ====
section
/-! DEFINITION. Where things lie on the media and in buffer memory: zones, band slots and block placement (R226 to R241), and the sizes of
buffer memory and of the translation region (R246, R391, R416). -/

namespace Sys2Proof.Machine

/-! ## Tracks and slots (R228 to R235) -/

/-- Parity groups of a track (R229). -/
def Zone.groups (z : Zone) : Nat := ceilDiv z.spt 64

/-- Data positions of a track (R229). -/
def Zone.dpt (z : Zone) : Nat := z.spt - 2 * z.groups

/-- Tracks of a slot (R234). -/
def Zone.nt (z : Zone) : Nat := ceilDiv 65600 z.dpt

/-- The track after the first `n` tracks from `t` on that are not slipped; the slip list rises. -/
def takeTracks (slips : List Nat) (t n : Nat) : Nat :=
  slips.foldl (fun e x => if t ≤ x ∧ x < e then e + 1 else e) (t + n)

/-- The track where the slot after the one at `t` starts: past its NT tracks and, in a shingled zone, its guard (R234). -/
def Zone.slotEnd (z : Zone) (slips : List Nat) (t : Nat) : Nat := takeTracks slips t z.nt + (if z.shingled then z.guard else 0)

/-- Slots cut from a zone from track `t` on, at most `fuel` (R234): tracks too few for one more are left. -/
def Zone.cutFrom (z : Zone) (slips : List Nat) : Nat → Nat → Nat
  | 0, _ => 0
  | n + 1, t =>
    let e := z.slotEnd slips t
    if e ≤ z.first + z.tracks then 1 + z.cutFrom slips n e else 0

/-- Slots cut from a zone. -/
def Zone.cut (z : Zone) (slips : List Nat) : Nat := z.cutFrom slips z.tracks z.first

/-- First track of slot `k` of a zone. -/
def Zone.slotStart (z : Zone) (slips : List Nat) : Nat → Nat
  | 0 => z.first
  | k + 1 => z.slotEnd slips (z.slotStart slips k)

/-- Track `j` of a slot: the j-th that is not slipped (R235). -/
def Zone.trackOf (z : Zone) (slips : List Nat) (k j : Nat) : Nat := takeTracks slips (z.slotStart slips k) (j + 1) - 1

/-- The position of data index `d` of a track: parity positions are passed over (R235). -/
def dataPos (d : Nat) : Nat := 64 * (d / 62) + d % 62

/-- The data index of a position of a zone's track, none for a parity position (R229, R235). -/
def Zone.dataIndex (z : Zone) (p : Nat) : Option Nat :=
  let i := p / 64
  let size := min 64 (z.spt - 64 * i)
  if p < z.spt ∧ p % 64 + 2 < size then some (62 * i + p % 64) else none

/-- A parity position of its group (R229). -/
def Zone.isParity (z : Zone) (p : Nat) : Bool := decide (p < z.spt) && (z.dataIndex p).isNone

/-- A place on the media. -/
structure Place where
  head : Nat
  track : Nat
  pos : Nat
  deriving DecidableEq, Repr

/-- The zone block in use on a head (R86). -/
def State.zoneBlock (s : State) (h : Nat) : Option ZoneBlock := s.boot.zones.getD h none

/-- A zone of a head. -/
def State.zoneOf (s : State) (h z : Nat) : Option Zone := (s.zoneBlock h).bind (fun b => b.zones[z]?)

/-- The slip list of a head. -/
def State.slipsOf (s : State) (h : Nat) : List Nat := ((s.zoneBlock h).map ZoneBlock.slips).getD []

/-- A surface's zone block checks and its Curd die is present (R226). -/
def State.surfaceThere (s : State) (h : Nat) : Bool :=
  (s.zoneBlock h).isSome && (s.rdR s.senior R.DEV_DIEPRES_CPRES).testBit (h / 4)

/-- A surface is in use (R226): its zone block checks, its Curd die is present and its preamplifier answers. -/
def State.surfaceUsed (s : State) (h : Nat) : Bool := s.surfaceThere h && (s.curd (h / 4)).fmt.answers

/-- Block offset `o` of a slot (R235). -/
def State.placeOf (s : State) (sl : SlotNo) (o : Nat) : Option Place :=
  (s.zoneOf sl.head sl.zone).map (fun z =>
    ⟨sl.head, z.trackOf (s.slipsOf sl.head) sl.k (o / z.dpt), dataPos (o % z.dpt)⟩)

/-- Angular start of a position after the index wedge, in positions (R227). -/
def Zone.angle (z : Zone) (t p : Nat) : Nat := (p + z.skew * t) % z.spt

/-- The zone a track of a head lies in, with its number. -/
def State.zoneAt (s : State) (h t : Nat) : Option (Nat × Zone) :=
  (((s.zoneBlock h).map ZoneBlock.zones).getD []).zipIdx.findSome? (fun p =>
    if p.1.first ≤ t ∧ t < p.1.first + p.1.tracks then some (p.2, p.1) else none)

/-- The slot and block offset (data index of the slot) of a place: the slot whose tracks hold it. -/
def State.slotAt (s : State) (p : Place) : Option (SlotNo × Nat) :=
  (s.zoneAt p.head p.track).bind (fun (zi, z) =>
    (z.dataIndex p.pos).bind (fun d =>
      let slips := s.slipsOf p.head
      (List.range (z.cut slips)).findSome? (fun k =>
        if z.slotStart slips k ≤ p.track ∧ p.track < z.slotEnd slips (z.slotStart slips k) then
          ((List.range z.nt).find? (fun j => z.trackOf slips k j = p.track)).map (fun j => (⟨p.head, zi, k⟩, j * z.dpt + d))
        else none)))

/-- Slots of a kind cut on a head, in (zone, slot) order. -/
def State.headSlots (s : State) (sh : Bool) (h : Nat) : List SlotNo :=
  if s.surfaceUsed h then
    (((s.zoneBlock h).map ZoneBlock.zones).getD []).zipIdx.flatMap (fun p =>
      if p.1.shingled = sh then (List.range (p.1.cut (s.slipsOf h))).map (fun k => ⟨h, p.2, k⟩) else [])
  else []

/-- Slots of a kind cut on a group, in (head, zone, slot) order (R241). -/
def State.groupSlots (s : State) (sh : Bool) (g : Nat) : List SlotNo := (List.range 4).flatMap (fun i => s.headSlots sh (4 * g + i))

/-- Slots held back on a group as spares (R241). -/
def spareCount (n : Nat) : Nat := ceilDiv n 200

/-- Counted slots of a kind on a group, before the device limit (R241). -/
def State.countedSlots (s : State) (sh : Bool) (g : Nat) : List SlotNo :=
  let l := s.groupSlots sh g
  l.take (l.length - spareCount l.length)

/-- Spare slots of a kind on a group (R241). -/
def State.spareSlots (s : State) (sh : Bool) (g : Nat) : List SlotNo :=
  let l := s.groupSlots sh g
  l.drop (l.length - spareCount l.length)

/-- (head, zone, slot) order. -/
def SlotNo.before (a b : SlotNo) : Bool :=
  decide (a.head < b.head ∨ (a.head = b.head ∧ (a.zone < b.zone ∨ (a.zone = b.zone ∧ a.k < b.k))))

/-- Counted slots of the whole drive, cut to the limit of 64 TB in (head, zone, slot) order (R241). -/
def State.allCounted (s : State) : List SlotNo :=
  let l := s.groups.flatMap (fun g => s.countedSlots false g ++ s.countedSlots true g)
  (l.mergeSort (fun a b => a.before b || decide (a = b))).take 238418

/-- The slot is counted and cut. -/
def State.isCounted (s : State) (a : SlotNo) : Bool := decide (a ∈ s.allCounted)

/-- Counted slots of a kind on a group, within the device limit (R241). -/
def State.cutSlots (s : State) (sh : Bool) (g : Nat) : List SlotNo :=
  let l := s.countedSlots sh g
  if (s.groups.map (fun g => (s.countedSlots false g).length + (s.countedSlots true g).length)).sum ≤ 238418 then l else l.filter s.isCounted

/-- The kind of a slot: shingled. -/
def State.slotShingled (s : State) (a : SlotNo) : Bool := ((s.zoneOf a.head a.zone).map Zone.shingled).getD false

/-- Formatted capacity in blocks (R241). -/
def State.capBlocks (s : State) : Nat := 65536 * s.allCounted.length

/-! ## Buffer memory (R246, R391, R413, R416) -/

/-- Data capacity of a Rind die's buffer memory in bytes (R391). -/
def State.dataBytes (s : State) (d : RSlot) : Nat :=
  ([32, 48, 64, 64].getD (s.rdR d R.BMEM_STAT_DENSITY) 0) * (if s.bitR d R.BMEM_STAT_RANK2 then 2 else 1) * 2 ^ 30

/-- Round up to a multiple of 8 MiB. -/
def round8M (n : Nat) : Nat := ceilDiv n (2 ^ 23) * 2 ^ 23

/-- Size of the translation region (R246), of every slot cut, spare slots included: it depends on the zone tables alone. -/
def State.xlatBytes (s : State) : Nat :=
  let cut (k : Bool) : Nat := (s.groups.map (fun g => (s.cutSlots k g).length + (s.spareSlots k g).length)).sum
  let cv := cut false
  let sh := cut true
  round8M (16 * (cv + sh) + 2 ^ 13 * cv + 2 ^ 23 + 2 ^ 13 + 2 ^ 19 + 2 ^ 20)

/-- Windows of the enabled sizes: base and size in bytes (R112). -/
def State.windows (s : State) (d : RSlot) : List (Nat × Nat) :=
  (List.range 16).filterMap (fun k =>
    let n := s.rdR d (R.LINK_DOMWIN_SIZE k)
    if n = 0 ∨ s.rdR d (R.LINK_DOMWIN_WACC k) = 0 then none else some (s.rdR d (R.LINK_DOMWIN_BASE k) * 2 ^ 28, n * 2 ^ 28))

/-- The top of the memory outside every window: the end of the highest gap that holds `n` bytes, found from the top of memory down. -/
def topOutside (wins : List (Nat × Nat)) (n : Nat) : Nat → Nat → Nat
  | 0, t => t
  | fuel + 1, t =>
    match wins.find? (fun w => decide (t - n < w.1 + w.2 ∧ w.1 < t)) with
    | some w => topOutside wins n fuel w.1
    | none => t

/-- First byte of the translation region (R246): taken from the top of the memory outside every window. -/
def State.xlatBase (s : State) (d : RSlot) : Nat := topOutside (s.windows d) s.xlatBytes 17 (s.dataBytes d) - s.xlatBytes

/-- The address lies in the translation region. -/
def State.inXlat (s : State) (d : RSlot) (a : Nat) : Bool := decide (s.xlatBase d ≤ a ∧ a < s.xlatBase d + s.xlatBytes)

end Sys2Proof.Machine
end

