-- ==== Sys2Proof/Machine/Crypto.lean ====
section
/-! DEFINITION. The checks that the serial flash uses (R78 to R87, R558): CRC-32C, SHA-384, ECDSA on P-384 and AES-256-GCM. The spec names these standards
and leaves their arithmetic to them: it is PRESUMED from FIPS 180-4, FIPS 186-5, FIPS 197 and SP 800-38D (log entry 134). -/

namespace Sys2Proof.Machine

/-! ## CRC-32C -/

/-- One bit shifted out of a reflected CRC-32C register. -/
def crcShift (c : Nat) : Nat := if c % 2 = 1 then 0x82F63B78 ^^^ (c / 2) else c / 2

/-- One byte taken into the register. -/
def crcByte (c : Nat) (b : Byte) : Nat := (List.range 8).foldl (fun c _ => crcShift c) (c ^^^ b.toNat)

/-- CRC-32C of a byte sequence: preset to all ones, inverted at the end (R272). -/
def crc32 (l : List Byte) : Nat := 0xFFFFFFFF ^^^ l.foldl crcByte 0xFFFFFFFF

/-! ## SHA-384 -/

/-- Bytes, most significant first, as a number. -/
def beNat (l : List Byte) : Nat := l.foldl (fun a b => 256 * a + b.toNat) 0

/-- A number as `n` bytes, most significant first. -/
def natBe (n v : Nat) : List Byte := (List.range n).map (fun i => BitVec.ofNat 8 (v / 256 ^ (n - 1 - i)))

/-- The round constants. -/
def shaK : List Nat :=
  [0x428A2F98D728AE22, 0x7137449123EF65CD, 0xB5C0FBCFEC4D3B2F, 0xE9B5DBA58189DBBC,
   0x3956C25BF348B538, 0x59F111F1B605D019, 0x923F82A4AF194F9B, 0xAB1C5ED5DA6D8118,
   0xD807AA98A3030242, 0x12835B0145706FBE, 0x243185BE4EE4B28C, 0x550C7DC3D5FFB4E2,
   0x72BE5D74F27B896F, 0x80DEB1FE3B1696B1, 0x9BDC06A725C71235, 0xC19BF174CF692694,
   0xE49B69C19EF14AD2, 0xEFBE4786384F25E3, 0x0FC19DC68B8CD5B5, 0x240CA1CC77AC9C65] ++
  [0x2DE92C6F592B0275, 0x4A7484AA6EA6E483, 0x5CB0A9DCBD41FBD4, 0x76F988DA831153B5,
   0x983E5152EE66DFAB, 0xA831C66D2DB43210, 0xB00327C898FB213F, 0xBF597FC7BEEF0EE4,
   0xC6E00BF33DA88FC2, 0xD5A79147930AA725, 0x06CA6351E003826F, 0x142929670A0E6E70,
   0x27B70A8546D22FFC, 0x2E1B21385C26C926, 0x4D2C6DFC5AC42AED, 0x53380D139D95B3DF,
   0x650A73548BAF63DE, 0x766A0ABB3C77B2A8, 0x81C2C92E47EDAEE6, 0x92722C851482353B] ++
  [0xA2BFE8A14CF10364, 0xA81A664BBC423001, 0xC24B8B70D0F89791, 0xC76C51A30654BE30,
   0xD192E819D6EF5218, 0xD69906245565A910, 0xF40E35855771202A, 0x106AA07032BBD1B8,
   0x19A4C116B8D2D0C8, 0x1E376C085141AB53, 0x2748774CDF8EEB99, 0x34B0BCB5E19B48A8,
   0x391C0CB3C5C95A63, 0x4ED8AA4AE3418ACB, 0x5B9CCA4F7763E373, 0x682E6FF3D6B2B8A3,
   0x748F82EE5DEFB2FC, 0x78A5636F43172F60, 0x84C87814A1F0AB72, 0x8CC702081A6439EC] ++
  [0x90BEFFFA23631E28, 0xA4506CEBDE82BDE9, 0xBEF9A3F7B2C67915, 0xC67178F2E372532B,
   0xCA273ECEEA26619C, 0xD186B8C721C0C207, 0xEADA7DD6CDE0EB1E, 0xF57D4F7FEE6ED178,
   0x06F067AA72176FBA, 0x0A637DC5A2C898A6, 0x113F9804BEF90DAE, 0x1B710B35131C471B,
   0x28DB77F523047D84, 0x32CAAB7B40C72493, 0x3C9EBE0A15C9BEBC, 0x431D67C49C100D4C,
   0x4CC5D4BECB3E42B6, 0x597F299CFC657E2A, 0x5FCB6FAB3AD6FAEC, 0x6C44198C4A475817]

/-- The initial hash value. -/
def shaInit : List Nat :=
  [0xCBBB9D5DC1059ED8, 0x629A292A367CD507, 0x9159015A3070DD17, 0x152FECD8F70E5939,
   0x67332667FFC00B31, 0x8EB44A8768581511, 0xDB0C2E0D64F98FA7, 0x47B5481DBEFA4FA4]

/-- Rotate a 64-bit word right. -/
def ror64 (n x : Nat) : Nat := x / 2 ^ n + x % 2 ^ n * 2 ^ (64 - n)

/-- The next word of the message schedule, from the 16 before it. -/
def shaNext (w : List Nat) : Nat :=
  let a := w.getD 1 0
  let b := w.getD 14 0
  (w.getD 0 0 + (ror64 1 a ^^^ ror64 8 a ^^^ a / 2 ^ 7) + w.getD 9 0 + (ror64 19 b ^^^ ror64 61 b ^^^ b / 2 ^ 6)) % 2 ^ 64

/-- One round, on the eight working words, with the window of the schedule. -/
def shaRound (acc : List Nat × List Nat) (k : Nat) : List Nat × List Nat :=
  match acc.1 with
  | [a, b, c, d, e, f, g, h] =>
    let t := h + (ror64 14 e ^^^ ror64 18 e ^^^ ror64 41 e) + ((e &&& f) ^^^ ((2 ^ 64 - 1 - e) &&& g)) + k + acc.2.headD 0
    let u := (ror64 28 a ^^^ ror64 34 a ^^^ ror64 39 a) + ((a &&& b) ^^^ (a &&& c) ^^^ (b &&& c))
    ([(t + u) % 2 ^ 64, a, b, c, (d + t) % 2 ^ 64, e, f, g], acc.2.tail ++ [shaNext acc.2])
  | _ => acc

/-- Take in one block of 128 bytes. -/
def shaBlock (h : List Nat) (blk : List Byte) : List Nat :=
  let w := (List.range 16).map (fun i => beNat ((blk.drop (8 * i)).take 8))
  (h.zip (shaK.foldl shaRound (h, w)).1).map (fun p => (p.1 + p.2) % 2 ^ 64)

/-- SHA-384 of a byte sequence. -/
def sha384 (l : List Byte) : List Byte :=
  let pad := 128 - (l.length + 17) % 128
  let m := l ++ [0x80] ++ List.replicate (pad % 128) 0 ++ natBe 16 (8 * l.length)
  let h := (List.range (m.length / 128)).foldl (fun h i => shaBlock h ((m.drop (128 * i)).take 128)) shaInit
  (h.take 6).flatMap (natBe 8)

/-! ## ECDSA on P-384 -/

/-- The field prime. -/
def p384 : Nat := 2 ^ 384 - 2 ^ 128 - 2 ^ 96 + 2 ^ 32 - 1

/-- The order of the base point. -/
def n384 : Nat := 0xFFFFFFFFFFFFFFFFFFFFFFFFFFFFFFFFFFFFFFFFFFFFFFFFC7634D81F4372DDF581A0DB248B0A77AECEC196ACCC52973

/-- The coefficient b of the curve y^2 = x^3 - 3x + b. -/
def b384 : Nat := 0xB3312FA7E23EE7E4988E056BE3F82D19181D9C6EFE8141120314088F5013875AC656398D8A2ED19D2A85C8EDD3EC2AEF

/-- The base point. -/
def g384 : Nat × Nat :=
  (0xAA87CA22BE8B05378EB1C71EF320AD746E1D3B628BA79B9859F741E082542A385502F25DBF55296C3A545E3872760AB7,
   0x3617DE4A96262C6F5D9E98BF9292DC29F8F41DBD289A147CE9DA3113B5F0B8C00A60B1CE1D7E819D7A431D7C90EA0E5F)

/-- The bits of a number below 2^384, most significant first. -/
def bits384 (e : Nat) : List Bool := (List.range 384).map (fun i => e.testBit (383 - i))

/-- b^e modulo m. -/
def powMod (b e m : Nat) : Nat := (bits384 e).foldl (fun a x => if x then a * a % m * b % m else a * a % m) 1

/-- The inverse modulo a prime. -/
def invMod (x m : Nat) : Nat := powMod x (m - 2) m

/-- Double a point in Jacobian coordinates: (X, Y, Z) is (X / Z^2, Y / Z^3), and Z = 0 the point at infinity. -/
def dblPt (a : Nat × Nat × Nat) : Nat × Nat × Nat :=
  let (x, y, z) := a
  let g := y * y % p384
  let b := x * g % p384
  let d := z * z % p384
  let m := 3 * (x + p384 - d) * (x + d) % p384
  let x3 := (m * m + 8 * (p384 - b)) % p384
  (x3, (m * (4 * b + p384 - x3) + 8 * (p384 - g) * g) % p384, 2 * y * z % p384)

/-- Add two points in Jacobian coordinates. -/
def addPt (a c : Nat × Nat × Nat) : Nat × Nat × Nat :=
  let (x1, y1, z1) := a
  let (x2, y2, z2) := c
  if z1 = 0 then c
  else if z2 = 0 then a
  else
    let u := x1 * (z2 * z2 % p384) % p384
    let h := (x2 * (z1 * z1 % p384) + (p384 - u)) % p384
    let s := y1 * (z2 * z2 % p384 * z2 % p384) % p384
    let r := (y2 * (z1 * z1 % p384 * z1 % p384) + (p384 - s)) % p384
    if h = 0 then (if r = 0 then dblPt a else (0, 1, 0))
    else
      let v := u * (h * h % p384) % p384
      let k := h * h % p384 * h % p384
      let x3 := (r * r + (p384 - k) + 2 * (p384 - v)) % p384
      (x3, (r * (v + p384 - x3) + (p384 - s) * k) % p384, z1 * z2 % p384 * h % p384)

/-- A multiple of a point. -/
def mulPt (k : Nat) (q : Nat × Nat × Nat) : Nat × Nat × Nat :=
  (bits384 k).foldl (fun a x => if x then addPt (dblPt a) q else dblPt a) (0, 1, 0)

/-- An ECDSA signature over SHA-384 of a message verifies against a public key. -/
def ecdsaVerify (key sig msg : List Byte) : Bool :=
  let x := beNat (key.take 48)
  let y := beNat ((key.drop 48).take 48)
  let r := beNat (sig.take 48)
  let t := beNat ((sig.drop 48).take 48)
  let w := invMod t n384
  let z := beNat (sha384 msg)
  decide (x < p384 ∧ y < p384 ∧ y * y % p384 = (x * x * x + (p384 - 3) * x + b384) % p384 ∧ 0 < r ∧ r < n384 ∧ 0 < t ∧ t < n384) &&
  (let q := addPt (mulPt (z * w % n384) (g384.1, g384.2, 1)) (mulPt (r * w % n384) (x, y, 1))
   decide (q.2.2 ≠ 0 ∧ q.1 * invMod (q.2.2 * q.2.2 % p384) p384 % p384 % n384 = r))

/-! ## AES-256-GCM -/

/-- Multiply by x in the field of AES. -/
def xtime (a : Nat) : Nat := if 128 ≤ a then (2 * a) ^^^ 0x11B else 2 * a

/-- Multiply in the field of AES. -/
def gmul (a b : Nat) : Nat :=
  ((List.range 8).foldl (fun (acc : Nat × Nat) i => (if b.testBit i then acc.1 ^^^ acc.2 else acc.1, xtime acc.2)) (0, a)).1

/-- The inverse in the field of AES, 0 for 0: the 254th power. -/
def ginv (a : Nat) : Nat :=
  let a2 := gmul a a
  let a4 := gmul a2 a2
  let a8 := gmul a4 a4
  let a16 := gmul a8 a8
  let a32 := gmul a16 a16
  let a64 := gmul a32 a32
  let a128 := gmul a64 a64
  gmul a2 (gmul a4 (gmul a8 (gmul a16 (gmul a32 (gmul a64 a128)))))

/-- Rotate a byte left. -/
def rol8 (n x : Nat) : Nat := (x * 2 ^ n + x / 2 ^ (8 - n)) % 256

/-- The substitution of a byte. -/
def sbox (a : Nat) : Nat :=
  let b := ginv a
  b ^^^ rol8 1 b ^^^ rol8 2 b ^^^ rol8 3 b ^^^ rol8 4 b ^^^ 0x63

/-- The substitution of each byte of a sequence. -/
def subBytes (l : List Nat) : List Nat := l.map sbox

/-- Exclusive or, byte by byte. -/
def xorBytes (a b : List Nat) : List Nat := (a.zip b).map (fun p => p.1 ^^^ p.2)

/-- The next eight bytes of the key schedule's words: word `i` from words i-1 and i-8, newest first. -/
def keyNext (ws : List (List Nat)) (i : Nat) : List (List Nat) :=
  let t := ws.headD []
  let t := if i % 8 = 0 then xorBytes (subBytes (t.tail ++ t.take 1)) [2 ^ (i / 8 - 1), 0, 0, 0] else if i % 8 = 4 then subBytes t else t
  xorBytes t (ws.getD 7 []) :: ws

/-- The fifteen round keys of a 32-byte key. -/
def roundKeys (key : List Byte) : List (List Nat) :=
  let k := key.map BitVec.toNat
  let first := (List.range 8).map (fun i => (k.drop (4 * i)).take 4)
  let ws := ((List.range 52).foldl (fun ws i => keyNext ws (i + 8)) first.reverse).reverse
  (List.range 15).map (fun r => ((ws.drop (4 * r)).take 4).flatMap id)

/-- Row `r` of the state shifts by `r` columns. -/
def shiftRows (l : List Nat) : List Nat := (List.range 16).map (fun i => l.getD ((i + 4 * (i % 4)) % 16) 0)

/-- Mix the columns of the state. -/
def mixColumns (l : List Nat) : List Nat :=
  (List.range 16).map (fun i =>
    let at' (j : Nat) : Nat := l.getD (i / 4 * 4 + (i + j) % 4) 0
    gmul 2 (at' 0) ^^^ gmul 3 (at' 1) ^^^ at' 2 ^^^ at' 3)

/-- AES-256 of one block of 16 bytes. -/
def aesBlock (ks : List (List Nat)) (blk : List Nat) : List Nat :=
  let s := (List.range 13).foldl (fun s i => xorBytes (mixColumns (shiftRows (subBytes s))) (ks.getD (i + 1) [])) (xorBytes blk (ks.getD 0 []))
  xorBytes (shiftRows (subBytes s)) (ks.getD 14 [])

/-- Multiply in the field of GHASH, whose bit 0 is the most significant. -/
def ghMul (x y : Nat) : Nat :=
  ((List.range 128).foldl (fun (acc : Nat × Nat) i =>
    (if x.testBit (127 - i) then acc.1 ^^^ acc.2 else acc.1, if acc.2 % 2 = 1 then (acc.2 / 2) ^^^ (0xE1 * 2 ^ 120) else acc.2 / 2)) (0, y)).1

/-- Blocks of 16 bytes, the last filled with zeros. -/
def blocks16 (l : List Byte) : List (List Byte) :=
  (List.range ((l.length + 15) / 16)).map (fun i => let b := (l.drop (16 * i)).take 16; b ++ List.replicate (16 - b.length) 0)

/-- AES-256-GCM with no additional data: the plaintext of a ciphertext, where the tag matches. -/
def gcmOpen (key iv tag ct : List Byte) : Option (List Byte) :=
  let ks := roundKeys key
  let enc (ctr : Nat) : Nat := ((aesBlock ks (iv.map BitVec.toNat ++ (natBe 4 ctr).map BitVec.toNat)).foldl (fun a b => 256 * a + b) 0)
  let h := (aesBlock ks (List.replicate 16 0)).foldl (fun a b => 256 * a + b) 0
  let bl := blocks16 ct
  let s := ghMul ((bl.foldl (fun a b => ghMul (a ^^^ beNat b) h) 0) ^^^ (8 * ct.length)) h
  if iv.length = 12 ∧ natBe 16 (s ^^^ enc 1) = tag then
    some (((bl.zipIdx).flatMap (fun p => natBe 16 (beNat p.1 ^^^ enc (p.2 + 2)))).take ct.length)
  else none

end Sys2Proof.Machine
end

