-- ==== Sys2Proof/Machine/Images.lean ====
section
/-! DEFINITION. The byte formats of the serial flash: header, settings, zone blocks, calibration, image slots and patches (R77 to R87, R307 to R310, R361,
R391, R392, R475 to R477). -/

namespace Sys2Proof.Machine

/-- `n` bytes of a region from an offset; what is past the bytes listed is erased. -/
def readRegion (l : List Byte) (off n : Nat) : List Byte :=
  let x := (l.drop off).take n
  x ++ List.replicate (n - x.length) 0xFF

/-- A little-endian field of a region. -/
def regionField (l : List Byte) (off n : Nat) : Nat := leNat (readRegion l off n)

/-- Bytes at their offsets, zeros between them, to a length. -/
def layBytes (n : Nat) (fields : List (Nat × List Byte)) : List Byte :=
  fields.foldl (fun l p => l.take p.1 ++ p.2 ++ l.drop (p.1 + p.2.length)) (List.replicate n 0)

/-! ## The header (R78) -/

/-- Every field of a header lies in its stated range (R78). -/
def Header.inRange (h : Header) : Bool :=
  decide (26 ≤ h.flashLog2 ∧ h.flashLog2 ≤ 28 ∧ h.sfclk ≤ 2 ∧ 4 ≤ h.sfdummy ∧ h.sfdummy ≤ 15 ∧ 20 ≤ h.logLog2 ∧ h.logLog2 ≤ 24 ∧
    h.active ≤ 1 ∧ h.pending.getD 0 ≤ 1 ∧ h.tries ≤ 3 ∧ h.pmbVcore < 128 ∧ h.pmbVana < 128 ∧ h.pmbVddq < 128)

/-- Bytes 0x00 to 0xFB of a header copy. -/
def Header.body (h : Header) : List Byte :=
  layBytes 0xFC [(0, natLe 4 0x444E4D41), (4, natLe 2 1), (6, natLe 2 h.hseq), (8, natLe 1 h.flashLog2), (9, natLe 1 h.sfclk), (0xA, natLe 1 h.sfdummy),
    (0xB, natLe 1 h.logLog2), (0xC, natLe 1 h.active), (0xD, natLe 1 (h.pending.getD 0xFF)), (0xE, natLe 1 h.tries), (0x10, natLe 1 h.pmbVcore),
    (0x11, natLe 1 h.pmbVana), (0x12, natLe 1 h.pmbVddq)]

/-- A header copy as it is programmed: HCRC covers what stands before it. -/
def Header.bytes (h : Header) : List Byte := h.body ++ natLe 4 (crc32 h.body)

/-- A header copy is valid where MAGIC, LAYOUT and HCRC check and every field, the reserved ones included, lies in its range (R78). -/
def Header.ofBytes (l : List Byte) : Option Header :=
  let f := regionField l
  let p := f 0xD 1
  let h : Header :=
    { hseq := f 6 2, flashLog2 := f 8 1, sfclk := f 9 1, sfdummy := f 0xA 1, logLog2 := f 0xB 1, active := f 0xC 1
      pending := if p = 0xFF then none else some p
      tries := f 0xE 1, pmbVcore := f 0x10 1, pmbVana := f 0x11 1, pmbVddq := f 0x12 1 }
  if f 0 4 ≠ 0x444E4D41 ∨ f 4 2 ≠ 1 then none
  else if f 0xF 1 ≠ 0 ∨ f 0x13 233 ≠ 0 ∨ ! h.inRange then none
  else if f 0xFC 4 = crc32 (readRegion l 0 0xFC) then some h
  else none

/-! ## Calibration (R87) -/

/-- The calibration record, where MAGIC and its CRC check. -/
def HdaCal.ofBytes (l : List Byte) : Option HdaCal :=
  let f := regionField l
  if f 0 4 ≠ 0x4C414341 then none
  else if f 28 4 = crc32 (readRegion l 0 28) then
    some { resab := f 4 4, resbc := f 8 4, resca := f 12 4, tcal := sgn 16 (f 16 2), alpha := f 18 2 }
  else none

/-! ## Settings (R84, R361, R391, R392) -/

/-- A record as it stands in a settings copy: its header of 8 bytes, and its body. -/
def SetRec.bytes (r : SetRec) : List Byte := natLe 2 r.typ ++ natLe 2 r.raw.length ++ natLe 4 0 ++ r.raw

/-- The records of a settings copy. -/
def Settings.recBytes (c : Settings) : List Byte := c.records.flatMap SetRec.bytes

/-- The 128 bytes of a region header, with an SCRC. -/
def Settings.head (c : Settings) (crc : Nat) : List Byte :=
  natLe 4 c.magic ++ natLe 4 c.sseq ++ natLe 4 c.length ++ natLe 4 crc ++ c.sig ++ List.replicate 16 0

/-- SCRC as the copy's contents give it. -/
def Settings.crc (c : Settings) : Nat := crc32 (c.head 0 ++ c.recBytes)

/-- A settings copy is valid (R84): MAGIC, LENGTH and SCRC check; SIG verifies where the owner key is programmed and is zero where it is not. -/
def Settings.valid (owner : Bool) (c : Settings) : Bool :=
  decide (c.magic = 0x54535453 ∧ c.length ≤ 524160 ∧ c.sig.length = 96 ∧ c.length = c.recBytes.length) &&
  c.records.all (fun r => decide (r.raw.length ≤ 4088 ∧ r.raw.length % 4 = 0)) &&
  decide (c.scrc = c.crc) && (if owner then c.sigVerifies else c.sig.all (· = 0))

/-- A settings copy as the device writes it (R84, R198): it cannot sign, so SIG is zero. -/
def Settings.make (sseq : Nat) (records : List SetRec) : Settings :=
  let c : Settings := { sseq := sseq, records := records, sig := List.replicate 96 0 }
  let c := { c with length := c.recBytes.length }
  { c with scrc := c.crc }

/-- The body of record 0x0001 (R361). -/
def Board.ofBytes (l : List Byte) : Board :=
  let f := regionField l
  { vdiv := f 0 4, vphdiv := f 4 4, spdForm := f 8 1, shockAct := f 9 1, polePairs := f 0xA 1, pwmKhz := f 0xB 1, ke := f 0xC 2, ls := f 0xE 2
    isnfs := f 0x10 2, ilim := f 0x12 2, istart := f 0x14 2, accLim := f 0x16 2, vmotUv := f 0x18 2, vchop := f 0x1A 2, vbrk1 := f 0x1C 2
    vbrk2 := f 0x1E 2, chopDip := f 0x20 2, openCeil := f 0x22 2, tStart := sgn 16 (f 0x24 2), cookPwr := f 0x26 1, deadNs := f 0x27 1
    cookMax := f 0x28 2 }

/-- Every field of record 0x0001 lies in its range, and its levels stand in order (R361). -/
def Board.ok (b : Board) : Bool :=
  decide (2000 ≤ b.vdiv ∧ b.vdiv ≤ 60000 ∧ 2000 ≤ b.vphdiv ∧ b.vphdiv ≤ 60000 ∧ b.spdForm ≤ 2 ∧ b.shockAct ≤ 1 ∧ 1 ≤ b.polePairs ∧ b.polePairs ≤ 12) &&
  decide (16 ≤ b.pwmKhz ∧ b.pwmKhz ≤ 50 ∧ 100 ≤ b.ke ∧ b.ke ≤ 20000 ∧ 10 ≤ b.ls ∧ b.ls ≤ 10000 ∧ 500 ≤ b.isnfs ∧ b.isnfs ≤ 30000) &&
  decide (100 ≤ b.ilim ∧ 10 * b.ilim ≤ 8 * b.isnfs ∧ 100 ≤ b.istart ∧ b.istart ≤ b.ilim ∧ 60 ≤ b.accLim ∧ b.accLim ≤ 2000) &&
  decide (7000 ≤ b.vmotUv ∧ b.vmotUv ≤ 30000 ∧ b.vmotUv < b.vchop ∧ b.vchop < b.vbrk1 ∧ b.vbrk1 < b.vbrk2 ∧ 1000 * b.vbrk2 ≤ 1764 * b.vdiv) &&
  decide (10 ≤ b.chopDip ∧ b.chopDip ≤ 2000 ∧ 3600 ≤ b.openCeil ∧ b.openCeil ≤ 7200 ∧ b.openCeil % 60 = 0 ∧ -400 ≤ b.tStart ∧ b.tStart ≤ 400) &&
  decide (1 ≤ b.cookPwr ∧ b.cookPwr ≤ 250 ∧ 5 ≤ b.deadNs ∧ b.deadNs ≤ 100 ∧ 10 ≤ b.cookMax ∧ b.cookMax ≤ 3600)

/-- Record 0x0001, where it counts as present (R361). -/
def SetRec.board (r : SetRec) : Option Board :=
  if r.typ = 1 ∧ r.raw.length = 44 ∧ regionField r.raw 0x2A 2 = 0 ∧ (Board.ofBytes r.raw).ok then some (Board.ofBytes r.raw) else none

/-- Record 0x0008, where it counts as present (R391, R392): DENSITY, RANKS, RATE. -/
def SetRec.dram (r : SetRec) : Option (Nat × Nat × Nat) :=
  let f := regionField r.raw
  let dens := f 0 1
  let ranks := f 1 1
  let rate := f 2 1
  if r.typ = 8 ∧ r.raw.length = 16 ∧ (dens ≤ 2 ∧ (ranks = 1 ∨ ranks = 2) ∧ rate ≤ 2) ∧ 22 ≤ f 3 1 ∧ f 3 1 ≤ 66 ∧ f 3 1 % 2 = 0 ∧
      (16 ≤ f 4 1 ∧ f 4 1 ≤ 64 ∧ 16 ≤ f 5 1 ∧ f 5 1 ≤ 64) ∧ (24 ≤ f 6 2 ∧ f 6 2 ≤ 80) ∧ (195 ≤ f 8 2 ∧ f 8 2 ≤ 410) ∧
      (115 ≤ f 0xA 2 ∧ f 0xA 2 ≤ 280) ∧ f 0xC 4 = 0 ∧
      (ranks = 1 ∧ (dens ≤ 1 ∨ rate = 2) ∨ ranks = 2 ∧ dens = 0 ∧ rate = 2) then
    some (dens, ranks, rate)
  else none

/-! ## Zone blocks (R307 to R310) -/

/-- `n` one-byte fields from an offset. -/
def byteFields (l : List Byte) (off n : Nat) : List Nat := (readRegion l off n).map BitVec.toNat

/-- `n` signed one-byte fields from an offset. -/
def signedFields (l : List Byte) (off n : Nat) : List Int := (readRegion l off n).map BitVec.toInt

/-- A zone entry (R309); KIND and DUAL must be 0 or 1. -/
def Zone.ofBytes (l : List Byte) : Option Zone :=
  let f := regionField l
  if 1 < f 0xC 1 ∨ 1 < f 0x12 1 then none
  else some
    { first := f 0 4, tracks := f 4 4, spt := f 8 2, skew := f 0xA 2, shingled := decide (f 0xC 1 = 1), guard := f 0xD 1, rate := f 0xE 2
      pair := f 0x10 1, syncw := f 0x11 1, dual := decide (f 0x12 1 = 1), gain := byteFields l 0x14 3, offset := signedFields l 0x17 3
      asym := signedFields l 0x1A 3, hpf := byteFields l 0x1D 3, ctfc := f 0x20 1, ctfb := f 0x21 1, delay := signedFields l 0x22 2
      comb := signedFields l 0x24 6, target := signedFields l 0x2A 4
      taps := [signedFields l 0x30 16, signedFields l 0x40 16, signedFields l 0x50 16]
      pa := byteFields l 0x60 7, htrwr := f 0x67 1, precomp := signedFields l 0x68 8 }

/-- Every field of a zone entry lies in its range (R228, R263, R309, R310). -/
def Zone.ok (z : Zone) : Bool :=
  let within (lo hi : Int) (l : List Int) : Bool := l.all (fun v => decide (lo ≤ v ∧ v ≤ hi))
  decide (64 ≤ z.spt ∧ z.spt ≤ 1024 ∧ (z.spt % 64 = 0 ∨ 3 ≤ z.spt % 64) ∧ z.skew < z.spt ∧ 0 < z.tracks) &&
  (if z.shingled then decide (1 ≤ z.guard ∧ z.guard ≤ 7) else decide (z.guard = 0)) &&
  decide (500 ≤ z.rate ∧ z.rate ≤ 4000 ∧ z.pair ≤ 1 ∧ z.syncw ≤ 15 ∧ 20 ≤ z.ctfc ∧ z.ctfc ≤ 50 ∧ z.ctfb ≤ 24) &&
  z.gain.all (· ≤ 240) && z.hpf.all (· ≤ 15) && within (-32) 31 z.offset && within (-16) 15 z.asym && within (-32) 31 z.delay &&
  within (-128) 127 z.comb && within (-128) 127 z.target && z.taps.all (within (-128) 127) && within (-16) 15 z.precomp &&
  z.pa.all (· < 256) && decide (z.htrwr < 256)

/-- Zones follow one another from a track on, without gaps (R228). -/
def zonesFollow : Nat → List Zone → Bool
  | _, [] => true
  | t, z :: l => decide (z.first = t) && zonesFollow (t + z.tracks) l

/-- The fields of a zone block lie in their ranges and fit together (R307, R308, R310). -/
def ZoneBlock.ok (b : ZoneBlock) : Bool :=
  decide (1 ≤ b.zones.length ∧ b.zones.length ≤ 32 ∧ b.slips.length ≤ 1983 ∧ b.pa.init.length ≤ 16) && b.zones.all Zone.ok &&
  zonesFollow b.systrk b.zones && b.pa.addrs.all (· < 128) && (b.slips.zip b.slips.tail).all (fun p => decide (p.1 < p.2)) &&
  b.slips.all (fun t => b.zones.any (fun z => decide (z.first ≤ t ∧ t < z.first + z.tracks)))

/-- A copy of the block of head `h`, where it is valid (R307 to R310). -/
def ZoneBlock.ofBytes (h : Nat) (l : List Byte) : Option ZoneBlock :=
  let f := regionField l
  let b : ZoneBlock :=
    { systrk := f 8 4
      pa := { addrs := byteFields l 0x10 1 ++ byteFields l 0x12 9, hselBase := f 0x11 1
              init := (List.range (f 0x1B 1)).map (fun i => (f (0x20 + 2 * i) 1, f (0x21 + 2 * i) 1)) }
      zones := (List.range (f 5 1)).filterMap (fun i => Zone.ofBytes (readRegion l (0x100 + 256 * i) 256))
      slips := (List.range (f 6 2)).map (fun i => f (0x2100 + 4 * i) 4) }
  if f 0 4 ≠ 0x454E4F5A ∨ f 4 1 ≠ h ∨ 32 < f 5 1 ∨ 1983 < f 6 2 ∨ 16 < f 0x1B 1 then none
  else if b.zones.length ≠ f 5 1 ∨ f 0xC 4 ≠ b.systrk + (b.zones.map Zone.tracks).sum ∨ ! b.ok ∨ b.pa.init.any (fun p => 128 ≤ p.1) then none
  else if f 0x3FFC 4 = crc32 (readRegion l 0 0x3FFC) then some b
  else none

/-! ## Image slots (R80 to R82, R475 to R477) -/

/-- Whole words of 18 bytes from a word address on. -/
def wordsAt (base : Nat) (l : List Byte) : List (Nat × MicroWord) :=
  (List.range (l.length / 18)).map (fun i => (base + i, BitVec.ofNat 144 (leNat ((l.drop (18 * i)).take 18))))

/-- The words of a base section, where it fits a store of `n` words (R81): whole words of 18 bytes. -/
def baseWords (n : Nat) (l : List Byte) : Option (List (Nat × MicroWord)) :=
  if l.length ≤ 18 * n ∧ l.length % 18 = 0 then some (wordsAt 0 l) else none

/-- The words of a patch (R477), where no record runs past the store or the end of the plaintext. -/
def patchWords (n : Nat) : Nat → List Byte → Option (List (Nat × MicroWord))
  | 0, l => if l.isEmpty then some [] else none
  | fuel + 1, l =>
    if l.isEmpty then some []
    else
      let start := leNat (l.take 4)
      let cnt := leNat ((l.drop 4).take 2)
      if 8 ≤ l.length ∧ 1 ≤ cnt ∧ cnt ≤ 4096 ∧ start + cnt ≤ n ∧ 8 + 18 * cnt ≤ l.length then
        (patchWords n fuel (l.drop (8 + 18 * cnt))).map (fun r => wordsAt start ((l.drop 8).take (18 * cnt)) ++ r)
      else none

/-- The plaintext of a section (R80, R81): OFFSET is a multiple of 256 within the slot, and TAG and HASH match under the image key. -/
def sectionPlain (fz : Fuses) (slot entry : List Byte) : Option (List Byte) :=
  let off := regionField entry 4 4
  let len := regionField entry 8 4
  if off % 256 = 0 ∧ off + len ≤ 0x1000000 then
    (gcmOpen fz.imageKey (readRegion entry 12 12) (readRegion entry 24 16) (readRegion slot off len)).filter
      (fun p => decide (sha384 p = readRegion entry 40 48))
  else none

/-- A section of a slot (R80). -/
def ImgSection.ofBytes (fz : Fuses) (slot entry : List Byte) : ImgSection :=
  let typ := regionField entry 0 2
  let plain := sectionPlain fz slot entry
  let n := if typ % 2 = 1 then 16384 else 4096
  let words := plain.bind (fun p => if typ ≤ 2 then baseWords n p else patchWords n p.length p)
  { typ := typ, order := regionField entry 2 2, authentic := plain.isSome, fits := plain.isNone || words.isSome, words := words.getD [] }

/-- The release in a slot, where it has a manifest (R80): MAGIC, FORMAT and NSECT check. -/
def SlotImage.ofBytes (fz : Fuses) (l : List Byte) : Option SlotImage :=
  let f := regionField l
  let key := readRegion l 0x10 96
  if f 0 4 = 0x54534E4D ∧ f 4 2 = 1 ∧ 1 ≤ f 0xC 2 ∧ f 0xC 2 ≤ 16 then
    some
      { svn := f 6 2, version := f 8 4, keyMatches := fz.vendorHash = some (sha384 key)
        sigVerifies := ecdsaVerify key (readRegion l 0x700 96) (readRegion l 0 0x700)
        sections := (List.range (f 0xC 2)).map (fun i => ImgSection.ofBytes fz l (readRegion l (0x70 + 96 * i) 96)) }
  else none

/-- What a slot holds once a chunk has been programmed (R200): each 64 KiB block was erased before its first program. -/
def programChunk (l : List Byte) (off : Nat) (data : List Byte) : List Byte :=
  let stop := (off + data.length + 0xFFFF) / 0x10000 * 0x10000
  let rest := l.drop stop
  readRegion l 0 off ++ data ++ (if rest.isEmpty then [] else List.replicate (stop - off - data.length) 0xFF ++ rest)

/-- The words that an image's sections of a type put into a store: the base, then the patches in ORDER (R475). -/
def storeWords (base patch : Nat) (img : SlotImage) : List (Nat × MicroWord) :=
  let ps := (img.sections.filter (fun x => x.typ = patch)).mergeSort (fun a b => decide (a.order ≤ b.order))
  ((img.sections.filter (fun x => x.typ = base)) ++ ps).foldl (fun acc x => x.words.foldl (fun a p => if p.2 = 0 then assocDel p.1 a else assocPut p.1 p.2 a) acc) []

/-- SHARE of the four pools in a pool table (R476). -/
def poolShares (w : MicroWord) : Nat := ((List.range 4).map (fun p => w.toNat / 2 ^ (32 * p + 8) % 64)).sum

/-- The orders of the patch sections of a type. -/
def patchOrders (typ : Nat) (l : List ImgSection) : List Nat := (l.filter (fun x => x.typ = typ)).map ImgSection.order

/-- Every section fits its control store, and the shares of the pool table sum to 64 or less (R81, R476). -/
def SlotImage.fits (img : SlotImage) : Bool :=
  img.sections.all ImgSection.fits && decide (poolShares (assocGet 16375 0 (storeWords 1 3 img)) ≤ 64)

/-- The conditions of R81 that a slot fails, by number. -/
def failedConditions (fz : Fuses) (img : SlotImage) : List Nat :=
  (if img.keyMatches then [] else [1]) ++ (if img.sigVerifies then [] else [2]) ++
  (if fz.svn ≤ img.svn ∧ img.svn ≤ 127 then [] else [3]) ++ (if img.sections.all ImgSection.authentic then [] else [4]) ++
  (if (img.sections.filter (fun x => x.typ = 1)).length = 1 ∧ (img.sections.filter (fun x => x.typ = 2)).length = 1 ∧
      img.sections.all (fun x => decide (1 ≤ x.typ ∧ x.typ ≤ 4)) ∧
      (patchOrders 3 img.sections).Nodup ∧ (patchOrders 4 img.sections).Nodup then [] else [5]) ++
  (if img.fits then [] else [6])

/-- A slot is accepted (R81, R82). -/
def slotAccepted (fz : Fuses) (img : SlotImage) : Bool := (failedConditions fz img).isEmpty

/-- The Press table of the Curd image (R360, R476), as register offsets of the PRESS block and their values. -/
def pressTable (img : SlotImage) : List (Nat × Nat) :=
  let st := storeWords 2 4 img
  let val (base i : Nat) : Nat := (assocGet (base + i / 8) 0 st).toNat / 2 ^ (16 * (i % 8)) % 2 ^ 16
  let top := (assocGet 4094 0 st).toNat
  (List.range 240).map (fun i => (0x8400 + 0x400 * (i / 80) + 4 * (i % 80), val 4032 i)) ++
  (List.range 256).map (fun i => (0x9000 + 0x100 * (i / 64) + 4 * (i % 64), val 4062 i)) ++
  [(0x8000, top % 2 ^ 16 * 2 ^ 16 + top / 2 ^ 16 % 2 ^ 16), (0x800C, top / 2 ^ 32 % 2 ^ 16)]

end Sys2Proof.Machine
end

