-- ==== Sys2Proof/Machine/BmemOps.lean ====
section
/-! DEFINITION. Buffer memory: the symbol code, reads and writes of codewords, the merge buffer, marking and training (R391 to R413). -/

namespace Sys2Proof.Machine

/-! ## The symbol code (R395 to R399) -/

/-- Double in GF(2^8) with polynomial x^8 + x^4 + x^3 + x^2 + 1 (R396). -/
def gfDouble (a : Nat) : Nat := if 256 ≤ 2 * a then (2 * a) ^^^ 0x11D else 2 * a

/-- Multiply in GF(2^8), over the bits of `b` from bit `n` down. -/
def gfMulFrom (a b : Nat) : Nat → Nat
  | 0 => 0
  | n + 1 => gfDouble (gfMulFrom a (b / 2) n) ^^^ (if b % 2 = 1 then a else 0)

/-- Multiply in GF(2^8). -/
def gfMul (a b : Nat) : Nat := gfMulFrom a b 8

/-- A power in GF(2^8). -/
def gfPow (a : Nat) : Nat → Nat
  | 0 => 1
  | n + 1 => gfMul a (gfPow a n)

/-- The inverse of a value other than 0. -/
def gfInv (a : Nat) : Nat := gfPow a 254

/-- A power of alpha = x. -/
def alpha (i : Nat) : Nat := gfPow 2 (i % 255)

/-- Syndrome `j` of a list of symbols (R396). -/
def syndrome (c : List Nat) (j : Nat) : Nat := c.zipIdx.foldl (fun a p => a ^^^ gfMul p.1 (alpha (p.2 * j))) 0

/-- The four syndromes. -/
def syndromes (c : List Nat) : List Nat := (List.range 4).map (syndrome c)

/-- Syndromes with the share of position `p` removed, one fewer. -/
def dropPos (p : Nat) (s : List Nat) : List Nat := (s.zip s.tail).map (fun q => q.2 ^^^ gfMul (alpha p) q.1)

/-- Error values at the given positions that account for the first syndromes. -/
def solveErrs : List Nat → List Nat → List Nat
  | [], _ => []
  | p :: ps, s =>
    let f := (ps.zip (solveErrs ps (dropPos p s))).map (fun q => gfMul q.2 (gfInv (alpha q.1 ^^^ alpha p)))
    f.foldl (fun a x => a ^^^ x) (s.headD 0) :: f

/-- The errors at these positions give exactly these syndromes. -/
def explains (ps es s : List Nat) : Bool :=
  decide (((List.range 4).map (fun j => (ps.zip es).foldl (fun a q => a ^^^ gfMul q.2 (alpha (q.1 * j))) 0)) = s)

/-- Sets of positions the decoder tries in order: none, one, two; with a device marked, its two symbols, then one more (R396, R399). -/
def errorSets (marked : List Nat) : List (List Nat) :=
  match marked with
  | [] => [] :: ((List.range 20).map (fun i => [i]) ++ (List.range 20).flatMap (fun i => ((List.range 20).filter (i < ·)).map (fun j => [i, j])))
  | m => m :: ((List.range 20).filter (· ∉ m)).map (fun i => m ++ [i])

/-- The corrections the decoder makes: positions and error values, none where the codeword is uncorrectable. -/
def decodeErrs (marked s : List Nat) : Option (List (Nat × Nat)) :=
  if s = [0, 0, 0, 0] then some []
  else ((errorSets marked).find? (fun ps => explains ps (solveErrs ps s) s)).map (fun ps => (ps.zip (solveErrs ps s)).filter (fun q => q.2 ≠ 0))

/-- The codeword of 16 data bytes: the check symbols make every syndrome zero (R396). -/
def encodeCw (data : List Nat) : List Nat := data ++ solveErrs [16, 17, 18, 19] (syndromes (data ++ [0, 0, 0, 0]))

/-- The device that holds a symbol (R395). -/
def symDevice (i : Nat) : Nat := if i < 8 then i / 2 else if i < 16 then i / 2 + 1 else if i < 18 then 4 else 9

/-- The symbols of a device, none for 0xF. -/
def deviceSyms (k : Nat) : List Nat := (List.range 20).filter (fun i => symDevice i = k)

/-! ## Codewords -/

/-- Change the buffer memory of a die. -/
def modBmem (d : RSlot) (f : Bmem → Bmem) (s : State) : State := s.modRind d (fun r => { r with bmem := f r.bmem })

/-- What an unlisted byte of buffer memory reads as (R402). -/
def zeroByte (_ : Nat) : Byte := 0

/-- The channel of a codeword: address bit 7 (R394). -/
def cwChan (cw : Nat) : Nat := cw / 8 % 2

/-- The marked device of a channel, 0xF for none. -/
def State.marked (s : State) (d : RSlot) (c : Nat) : Nat := s.rdR d (if c = 0 then R.BMEM_STAT_MARK0 else R.BMEM_STAT_MARK1)

/-- The bank of a codeword, and its row (R394): 64 x channel + 32 x rank + 8 x bank + bank group. -/
def State.bankRow (s : State) (d : RSlot) (cw : Nat) : Nat × Nat :=
  let o := cw / 16 * 128
  let two := s.bitR d R.BMEM_STAT_RANK2
  (64 * cwChan cw + 32 * (if two then o / 2 ^ 18 % 2 else 0) + 8 * (o / 2 ^ 16 % 4) + o / 2 ^ 13 % 8, if two then o / 2 ^ 19 else o / 2 ^ 18)

/-- An access opens the row of its codeword (R408). -/
def openRow (d : RSlot) (cw : Nat) (s : State) : State :=
  let b := s.bankRow d cw
  modBmem d (fun m => { m with rows := assocPut b.1 b.2 m.rows }) s

/-- A write of a codeword opens its row and may wait there (R408, R409). -/
def writeRow (d : RSlot) (cw : Nat) (s : State) : State :=
  let b := s.bankRow d cw
  modBmem d (fun m => { m with rows := assocPut b.1 b.2 m.rows, wrote := assocPut b.1 b.2 m.wrote }) s

/-- A read of a codeword opens its row; where it matches the row of an earlier write of its bank that is still pending the bank switches to
in-order mode, which is counted (R409). Whether that write is still pending is a matter of time: a free value. -/
def readRow (d : RSlot) (cw : Nat) (s : State) : State :=
  let b := s.bankRow d cw
  let met := decide ((b.1, b.2) ∈ (s.rind d).bmem.wrote)
  let s := modBmem d (fun m => { m with rows := assocPut b.1 b.2 m.rows, wrote := if met then assocDel b.1 m.wrote else m.wrote }) s
  if met then
    let r := s.fresh
    if Config.openNat 86 [r.1] % 2 = 1 then r.2.incR d R.BMEM_ORDER_INORDER else r.2
  else s

/-- The 16 data bytes stored in a codeword. -/
def State.cwData (s : State) (d : RSlot) (cw : Nat) : List Byte := Sparse.getRun zeroByte (16 * cw) 16 (s.rind d).bmem.cells

/-- The 20 symbols the devices return for a codeword. -/
def State.cwSyms (s : State) (d : RSlot) (cw : Nat) : List Nat :=
  let c := encodeCw ((s.cwData d cw).map BitVec.toNat)
  match (s.rind d).bmem.errs.find? (fun p => p.1 = cw) with
  | some p => (c.zip p.2).map (fun q => q.1 ^^^ q.2.toNat)
  | none => c

/-- Store the 16 bytes of a codeword whole: its errors and its poison are gone (R405). -/
def writeCw (d : RSlot) (cw : Nat) (data : List Byte) (s : State) : State :=
  writeRow d cw (modBmem d (fun m => { m with
    cells := Sparse.putRun zeroByte (16 * cw) data m.cells, errs := assocDel cw m.errs, poison := m.poison.filter (· ≠ cw) }) s)

/-- An uncorrectable codeword (R397): counted, its address kept, and raised: Fatal inside the translation region. -/
def uncorrectable (d : RSlot) (cw : Nat) (s : State) : State :=
  let s := s.incR d (R.BMEM_ECC_UNCORR (cwChan cw))
  let s := (s.wrR d R.BMEM_LASTERR_LO_ADDR (cw % 2 ^ 28)).wrR d R.BMEM_LASTERR_HI_ADDR (cw / 2 ^ 28)
  raise d (if s.inXlat d (16 * cw) then 0x085 else 0x084) [16 * cw] s

/-- One more correction of a device in its window (R398): at the threshold the device is marked, or a second one is reported. -/
def countDevice (d : RSlot) (c k : Nat) (s : State) : State :=
  let n := assocGet (10 * c + k) 0 (s.rind d).bmem.window + 1
  let s := modBmem d (fun m => { m with window := assocPut (10 * c + k) n m.window }) (s.incR d (R.BMEM_DEVCNT_COUNT c k))
  if n = assocGet c 0x40 (s.rind d).bmem.thr then
    if s.marked d c = 0xF then raise d 0x081 [c, k] (s.wrR d (if c = 0 then R.BMEM_STAT_MARK0 else R.BMEM_STAT_MARK1) k)
    else if s.marked d c = k then s
    else raise d 0x082 [c, k] s
  else s

/-- A corrected codeword (R398, R406): counted, and the corrected codeword written back. -/
def corrected (d : RSlot) (cw : Nat) (data : List Byte) (fix : List (Nat × Nat)) (s : State) : State :=
  let s := s.incR d (R.BMEM_ECC_CORR (cwChan cw))
  let s := ((fix.map (fun q => symDevice q.1)).dedup).foldl (fun t k => countDevice d (cwChan cw) k t) s
  writeRow d cw (modBmem d (fun m => { m with cells := Sparse.putRun zeroByte (16 * cw) data m.cells, errs := assocDel cw m.errs }) s)

/-- Decode the symbols a burst returns for a codeword (R396, R399, R405): the data bytes, poison, and the state with the counts. -/
def decodeCw (d : RSlot) (cw : Nat) (syms : List Nat) (s : State) : List Byte × Bool × State :=
  let raw := (syms.take 16).map (BitVec.ofNat 8)
  if cw ∈ (s.rind d).bmem.poison then (raw, true, uncorrectable d cw s)
  else
    match decodeErrs (deviceSyms (s.marked d (cwChan cw))) (syndromes syms) with
    | none => (raw, true, uncorrectable d cw s)
    | some [] => (raw, false, s)
    | some fix =>
      let data := (syms.take 16).zipIdx.map (fun p => BitVec.ofNat 8 (p.1 ^^^ (((fix.find? (fun q => q.1 = p.2)).map Prod.snd).getD 0)))
      (data, false, corrected d cw data fix s)

/-- The bytes of a merge entry over those of memory (R404). -/
def MergeEntry.over (e : MergeEntry) (data : List Byte) : List Byte :=
  (data.zip (e.data.zip e.mask)).map (fun p => if p.2.2 then p.2.1 else p.1)

/-- Read a codeword (R396, R404): memory, decoded, with the bytes of its merge entry over it. -/
def readCw (d : RSlot) (cw : Nat) (s : State) : List Byte × Bool × State :=
  let r := decodeCw d cw (s.cwSyms d cw) (readRow d cw s)
  match (s.rind d).bmem.merges.find? (fun e => e.cw = cw) with
  | some e => (e.over r.1, r.2.1, r.2.2)
  | none => r

/-- Read codewords from `cw` on. -/
def readCws (d : RSlot) : Nat → Nat → State → List Byte × Bool × State
  | _, 0, s => ([], false, s)
  | cw, n + 1, s =>
    let a := readCw d cw s
    let b := readCws d (cw + 1) n a.2.2
    (a.1 ++ b.1, a.2.1 || b.2.1, b.2.2)

/-- Read bytes of buffer memory below the Cave. -/
def bmemRead (d : RSlot) (addr len : Nat) (s : State) : List Byte × Bool × State :=
  let n := if len = 0 then 0 else (addr + len - 1) / 16 - addr / 16 + 1
  let r := readCws d (addr / 16) n s
  ((r.1.drop (addr % 16)).take len, r.2.1, r.2.2)

/-! ## The merge buffer (R403 to R405) -/

/-- Enter a codeword in the poison list of its channel (R405): a full list is Fatal. -/
def enterPoison (d : RSlot) (cw : Nat) (s : State) : State :=
  let p := (s.rind d).bmem.poison
  if cw ∈ p then s
  else if 256 ≤ p.countP (fun x => cwChan x = cwChan cw) then raise d 0x086 [cwChan cw] s
  else modBmem d (fun m => { m with poison := m.poison ++ [cw] }) s

/-- Write a merge entry out by read-modify-write (R403, R405). -/
def mergeOut (d : RSlot) (e : MergeEntry) (s : State) : State :=
  let s := modBmem d (fun m => { m with merges := m.merges.erase e }) (s.incR d R.BMEM_MERGE_RMW)
  let r := decodeCw d e.cw (s.cwSyms d e.cw) s
  let s := modBmem d (fun m => { m with
      cells := Sparse.putRun zeroByte (16 * e.cw) (e.over r.1) m.cells
      errs := if r.2.1 then assocPut e.cw (List.replicate 16 0 ++ List.replicate 4 0xFF) m.errs else assocDel e.cw m.errs })
    (writeRow d e.cw r.2.2)
  if r.2.1 then enterPoison d e.cw s else s

/-- A partial write of a codeword (R403): it joins the codeword's entry, or opens one; a full mask is written out without a read. -/
def mergeWrite (d : RSlot) (cw : Nat) (bytes : List (Option Byte)) (s : State) : State :=
  let put (e : MergeEntry) : MergeEntry :=
    { e with data := (e.data.zip bytes).map (fun p => p.2.getD p.1), mask := (e.mask.zip bytes).map (fun p => p.1 || p.2.isSome) }
  let old := (s.rind d).bmem.merges.find? (fun e => e.cw = cw)
  let e := put (old.getD ⟨cw, List.replicate 16 0, List.replicate 16 false⟩)
  if e.mask.all id then
    (writeCw d cw e.data (modBmem d (fun m => { m with merges := m.merges.filter (fun x => x.cw ≠ cw) }) s)).incR d R.BMEM_MERGE_FULL
  else
    match old with
    | some o => modBmem d (fun m => { m with merges := m.merges.map (fun x => if x = o then e else x) }) s
    | none =>
      let s := match (s.rind d).bmem.merges with
        | f :: rest => if 16 ≤ (f :: rest).length then mergeOut d f s else s
        | [] => s
      modBmem d (fun m => { m with merges := m.merges ++ [e] }) s

/-- Write bytes of one codeword: a whole block directly, discarding its merge entry (R404); a part through the merge buffer. A burst that has
returned the codeword and whose fill is still to come is read again (R409: a read sees every earlier write). -/
def writeBytes (d : RSlot) (cw : Nat) (bytes : List (Option Byte)) (s : State) : State :=
  let s := modBmem d (fun m => { m with arrived := m.arrived.filter (fun p => p.1 ≠ cw) }) s
  if bytes.all Option.isSome then
    writeCw d cw (bytes.map (fun b => b.getD 0)) (modBmem d (fun m => { m with merges := m.merges.filter (fun x => x.cw ≠ cw) }) s)
  else if bytes.any Option.isSome then mergeWrite d cw bytes s
  else s

/-- Write bytes of buffer memory below the Cave, codeword by codeword (R403). -/
def bmemWrite (d : RSlot) (addr : Nat) (data : List Byte) (s : State) : State :=
  let n := if data.isEmpty then 0 else (addr + data.length - 1) / 16 - addr / 16 + 1
  (List.range n).foldl (fun t i =>
    let cw := addr / 16 + i
    writeBytes d cw ((List.range 16).map (fun j => if addr ≤ 16 * cw + j then data[16 * cw + j - addr]? else none)) t) s

/-- A resync places a copied run, with its poison (R405, R516). -/
def bmemPlace (d : RSlot) (addr : Nat) (data : List Byte) (poison : Bool) (s : State) : State :=
  let s := bmemWrite d addr data s
  if poison then (List.range (data.length / 16)).foldl (fun t i => enterPoison d (addr / 16 + i) t) s else s

/-- Plant an error in symbol c0 of the codeword at an address (R568, MODE 0x5). -/
def plantSymbol (d : RSlot) (addr : Nat) (s : State) : State :=
  let cw := addr / 16
  let old := (((s.rind d).bmem.errs.find? (fun p => p.1 = cw)).map Prod.snd).getD (List.replicate 20 0)
  modBmem d (fun m => { m with errs := assocPut cw (modAt 0 (· ^^^ 1) old) m.errs }) s

/-- Function reset of the buffer memory controller (R412, R553): merge entries are kept and written out afterwards; the poison list stays. -/
def resetBmem (d : RSlot) (s : State) : State :=
  (s.rind d).bmem.merges.foldl (fun t e => mergeOut d e t) (modBmem d (fun m => { m with arrived := [], replay := [] }) s)

/-! ## Training (R400, R401) -/

/-- The longest run of passing steps of a sweep: its start and length, the lower start of two equal ones (R400). -/
def longestRun (b : BitVec 128) : Nat × Nat :=
  let r := (List.range 128).foldl (fun (acc : (Nat × Nat) × Nat × Nat) i =>
    if b.getLsbD i then
      let cur := (acc.2.1, acc.2.2 + 1)
      (if acc.1.2 < cur.2 then cur else acc.1, cur)
    else (acc.1, i + 1, 0)) ((0, 0), 0, 0)
  r.1

/-- The centre of an eye: its middle step, the lower one of an even length. -/
def eyeCentre (e : Nat × Nat) : Nat := e.1 + (e.2 - 1) / 2

/-- The first index with the greatest value. -/
def bestIndex (l : List Nat) : Nat :=
  (l.zipIdx.foldl (fun (acc : Nat × Nat) p => if acc.2 < p.1 then (p.2, p.1) else acc) (0, 0)).1

/-- The read eye of a lane: its reference code, start and length (R400). -/
def readEye (l : LaneEyes) : Nat × Nat × Nat :=
  let eyes := (l.read.take 16).map longestRun
  let k := bestIndex (eyes.map Prod.snd)
  (k, eyes.getD k (0, 0))

/-- The write reference code of a channel (R400): the one whose narrowest lane eye is widest. -/
def writeCode (lanes : List LaneEyes) : Nat :=
  bestIndex ((List.range 16).map (fun k => (lanes.map (fun l => (longestRun (l.write.getD k 0)).2)).foldl min 128))

/-- Train one channel (R400, R401): its lanes' results go to their registers; the first failed lane, 0xF for none. -/
def trainChannel (d : RSlot) (c : Nat) (lanes : List LaneEyes) (s : State) : State :=
  let wc := writeCode lanes
  let s := s.wrR d (R.BMEM_TRAIN_WRVREF c) wc
  let s := lanes.zipIdx.foldl (fun t p =>
    let re := readEye p.1
    let we := longestRun (p.1.write.getD wc 0)
    let t := ((t.wrR d (R.BMEM_LANE_RDCTR c p.2) (eyeCentre re.2)).wrR d (R.BMEM_LANE_RDWID c p.2) re.2.2).wrR d (R.BMEM_LANE_RDVREF c p.2) re.1
    (t.wrR d (R.BMEM_LANE_WRCTR c p.2) (eyeCentre we)).wrR d (R.BMEM_LANE_WRWID c p.2) we.2) s
  let fail := (List.range 10).find? (fun k =>
    match lanes[k]? with
    | some l => decide ((readEye l).2.2 < 16 ∨ (longestRun (l.write.getD wc 0)).2 < 16)
    | none => true)
  s.wrR d (R.BMEM_TRAIN_FAILLANE c) (fail.getD 0xF)

/-- Training begins on both channels (step 8 of R91). -/
def startTraining (d : RSlot) (s : State) : State := s.wrR d R.BMEM_STAT_PHASE 1

end Sys2Proof.Machine
end

