-- ==== Sys2Proof/Machine/CaveOps.lean ====
section
/-! DEFINITION. The Cave: lookup, replacement, the eviction buffer and range maintenance (R429 to R444). -/

namespace Sys2Proof

/-- The Cave class of a requester (R433). -/
def AccWho.cls : AccWho → Nat
  | .xlat => 0
  | .host => 1
  | .engine _ => 2
  | .ladle _ => 3
  | .port => 4

end Sys2Proof

namespace Sys2Proof.Machine

/-- Change the Cave of a die. -/
def modCave (d : RSlot) (f : Cave → Cave) (s : State) : State := s.modRind d (fun r => { r with cave := f r.cave })

/-- Set of a line number (R429). -/
def lineSet (line : Nat) : Nat := line % 8192

/-- Tag of a line number (R429). -/
def lineTag (line : Nat) : Nat := line / 8192

/-- The line number a table key and its tag name. -/
def keyLine (key tag : Nat) : Nat := tag * 8192 + key / 16

/-- The Cave is enabled. -/
def State.caveOn (s : State) (d : RSlot) : Bool := s.bitR d R.CAVE_STAT_EN

/-- The valid line that holds a line number: its key and contents. -/
def Cave.find (c : Cave) (line : Nat) : Option (Nat × CaveLine) :=
  c.lines.find? (fun p => p.1 / 16 = lineSet line ∧ p.2.tag = lineTag line)

/-! ## Replacement (R431 to R434) -/

/-- The four nodes on the path of a way, with the value that points away from it (R431). -/
def plruPath (w : Nat) : List (Nat × Bool) :=
  [(1, decide (w / 8 % 2 = 0)), (2 + w / 8, decide (w / 4 % 2 = 0)), (4 + w / 4, decide (w / 2 % 2 = 0)), (8 + w / 2, decide (w % 2 = 0))]

/-- Set bit `i` of the PLRU bits. -/
def plruSet (b : BitVec 15) (i : Nat) (v : Bool) : BitVec 15 :=
  if v then b ||| (BitVec.ofNat 15 (2 ^ i)) else b &&& ~~~ (BitVec.ofNat 15 (2 ^ i))

/-- The PLRU bits after a hit or a fill of a way (R431). -/
def plruTouch (b : BitVec 15) (w : Nat) : BitVec 15 := (plruPath w).foldl (fun b p => plruSet b (p.1 - 1) p.2) b

/-- The way a walk of the tree arrives at, from a node whose subtree is `size` ways from `lo` on, keeping to eligible ways (R432). -/
def plruWalk (b : BitVec 15) (elig : List Nat) : Nat → Nat → Nat → Nat
  | 0, _, lo => lo
  | n + 1, node, lo =>
    let half := 2 ^ n
    let low := elig.any (fun w => decide (lo ≤ w ∧ w < lo + half))
    let high := elig.any (fun w => decide (lo + half ≤ w ∧ w < lo + 2 * half))
    let up := if b.getLsbD (node - 1) then high else ! low
    if up then plruWalk b elig n (2 * node + 1) (lo + half) else plruWalk b elig n (2 * node) lo

/-- Way 8 + `i` is locked. -/
def State.wayLocked (s : State) (d : RSlot) (i : Nat) : Bool := s.bitR d ⟨0x78010, 4 * i + 3, 4 * i + 3⟩

/-- The class that owns way 8 + `i`. -/
def State.wayClass (s : State) (d : RSlot) (i : Nat) : Nat := s.rdR d ⟨0x78010, 4 * i + 2, 4 * i⟩

/-- The ways a fill of a class may use (R434). -/
def State.eligible (s : State) (d : RSlot) (cls : Nat) : List Nat :=
  let own := (List.range 8).filter (fun i => s.wayLocked d i && decide (s.wayClass d i = cls))
  if own.isEmpty then List.range 8 ++ ((List.range 8).filter (fun i => ! s.wayLocked d i)).map (8 + ·) else own.map (8 + ·)

/-- PLRU bits of a set. -/
def Cave.bits (c : Cave) (set : Nat) : BitVec 15 := assocGet set 0 c.plru

/-- A set is looked at: with wrong PLRU parity its bits go to 0, and that is counted (R432). -/
def checkPlru (d : RSlot) (set : Nat) (s : State) : State :=
  if set ∈ (s.rind d).cave.plruBad then
    (modCave d (fun c => { c with plru := assocDel set c.plru, plruBad := c.plruBad.filter (· ≠ set) }) s).incR d R.CAVE_ERR_PLRUPE
  else s

/-- Some way of the line's set has wrong tag or state parity: the set serves no access (R438). -/
def State.tagFault (s : State) (d : RSlot) (line : Nat) : Bool := (s.rind d).cave.tagBad.any (fun k => decide (k / 16 = lineSet line))

/-- A hit or a fill touches a way. -/
def touchWay (d : RSlot) (set w : Nat) (s : State) : State :=
  modCave d (fun c => { c with plru := assocPut set (plruTouch (c.bits set) w) c.plru }) s

/-- The way a fill takes in a set (R432): the lowest invalid eligible one, else by the tree. -/
def State.fillWay (s : State) (d : RSlot) (cls set : Nat) : Nat :=
  let c := (s.rind d).cave
  let elig := s.eligible d cls
  (elig.find? (fun w => ! c.lines.any (fun p => p.1 = 16 * set + w))).getD (plruWalk (c.bits set) elig 4 1 0)

/-! ## The eviction buffer (R435, R436) -/

/-- Write an eviction entry to buffer memory. -/
def evictIssue (d : RSlot) (e : Evicted) (s : State) : State := bmemWrite d (128 * e.line) e.data s

/-- EVICTION_DRAIN's operation (R435): entries already issued leave; the oldest other one is written. -/
def evictDrain (d : RSlot) (s : State) : State :=
  match ((s.rind d).cave.evict.filter (fun e => ! e.issued)) with
  | [] => modCave d (fun c => { c with evict := [] }) s
  | e :: rest => modCave d (fun c => { c with evict := { e with issued := true } :: rest }) (evictIssue d e s)

/-- Move a dirty line into the eviction buffer (R435): where all 32 entries are occupied the fill waits, is counted, and the oldest goes. -/
def evictPush (d : RSlot) (line : Nat) (data : List Byte) (s : State) : State :=
  let s := if 32 ≤ (s.rind d).cave.evict.length then
      let s := s.incR d R.CAVE_ERR_EVBFULL
      match (s.rind d).cave.evict with
      | e :: rest => modCave d (fun c => { c with evict := rest }) (if e.issued then s else evictIssue d e s)
      | [] => s
    else s
  modCave d (fun c => { c with evict := c.evict ++ [⟨line, data, false⟩] }) s

/-- Some 16-byte chunk of the line has a wrong parity bit (R429). -/
def CaveLine.wrong (l : CaveLine) : Bool := l.bad != 0

/-- A dirty line leaves its way: to the eviction buffer, or, with wrong parity, nowhere (R438). -/
def writeBack (d : RSlot) (line : Nat) (l : CaveLine) (s : State) : State :=
  if l.wrong then raise d 0x078 [128 * line] s else evictPush d line l.data s

/-- Allocate a line (R432, R435). -/
def allocLine (d : RSlot) (cls line : Nat) (data : List Byte) (dirty : Bool) (s : State) : State :=
  let set := lineSet line
  let w := s.fillWay d cls set
  let key := 16 * set + w
  let s := match (s.rind d).cave.lines.find? (fun p => p.1 = key) with
    | some p => if p.2.dirty then writeBack d (keyLine key p.2.tag) p.2 s else s
    | none => s
  touchWay d set w (modCave d (fun c => { c with lines := assocPut key ⟨lineTag line, dirty, data, 0⟩ c.lines }) s)

/-! ## Range maintenance (R440 to R444) -/

/-- Sets a maintenance operation visits (R441). -/
def Maint.total (m : Maint) : Nat := min (m.limit - m.base + 1) 8192

/-- Place of a set in the walk (R441). -/
def Maint.place (m : Maint) (set : Nat) : Nat := (set + 8192 - m.base % 8192) % 8192

/-- The line lies in the range. -/
def Maint.covers (m : Maint) (line : Nat) : Bool := decide (m.base ≤ line ∧ line ≤ m.limit)

/-- An INV or a CLEANINV whose engine has passed the line's set, with the line in its range (R443). -/
def State.shut (s : State) (d : RSlot) (line : Nat) : Bool :=
  match (s.rind d).cave.maint with
  | some m => decide (m.op ≠ 2) && m.covers line && decide (m.place (lineSet line) < m.passed)
  | none => false

/-- What a maintenance operation does to one valid line (R440): while the Cave is disabled nothing is written back and nothing counted. -/
def maintLine (d : RSlot) (m : Maint) (key : Nat) (l : CaveLine) (s : State) : State :=
  let line := keyLine key l.tag
  let drop (s : State) : State := modCave d (fun c => { c with lines := assocDel key c.lines }) s
  if ! s.caveOn d then (if m.op = 2 then s else drop s)
  else
    match m.op with
    | 1 => drop (if l.dirty then s.incR d R.CAVE_MAINTCNT_DROPPED else s)
    | 2 => if l.dirty then
        (if l.wrong then writeBack d line l s
         else modCave d (fun c => { c with lines := assocPut key { l with dirty := false } c.lines }) (writeBack d line l s)) else s
    | _ => drop (if l.dirty then writeBack d line l s else s)

/-- The engine passes `n` more sets (R441): lines of locked ways stay with SPARE_LOCKED set. -/
def maintAdvance (d : RSlot) (n : Nat) (s : State) : State :=
  match (s.rind d).cave.maint with
  | none => s
  | some m =>
    let top := min m.total (m.passed + n)
    let hit := (s.rind d).cave.lines.filter (fun p =>
      decide (m.passed ≤ m.place (p.1 / 16) ∧ m.place (p.1 / 16) < top) && m.covers (keyLine p.1 p.2.tag) &&
      ! (m.spare && decide (8 ≤ p.1 % 16) && s.wayLocked d (p.1 % 16 - 8)))
    let sorted := hit.mergeSort (fun a b => decide (m.place (a.1 / 16) < m.place (b.1 / 16) ∨ (a.1 / 16 = b.1 / 16 ∧ a.1 ≤ b.1)))
    let s := sorted.foldl (fun t p => maintLine d m p.1 p.2 t) s
    modCave d (fun c => { c with maint := some { m with passed := top } }) s

/-- Before an access the engine may have passed any number of further sets: a free value (R441 gives no pace). -/
def maintRun (d : RSlot) (s : State) : State :=
  if (s.rind d).cave.maint.isSome then
    let r := s.fresh
    maintAdvance d r.1 r.2
  else s

/-- Start a maintenance operation (R440, R442): refused while one runs; OP 0 and an empty range do nothing. -/
def maintStart (d : RSlot) (op : Nat) (spare : Bool) (s : State) : State :=
  if s.bitR d R.CAVE_STAT_BUSY then raise d 0x034 [0x78004] (s.incR d R.CAVE_MAINTCNT_REFUSED)
  else if op = 0 ∨ s.rdR d R.CAVE_MLIMIT_LINE < s.rdR d R.CAVE_MBASE_LINE then s
  else
    modCave d (fun c => { c with maint := some ⟨op, s.rdR d R.CAVE_MBASE_LINE, s.rdR d R.CAVE_MLIMIT_LINE, spare, 0⟩ })
      (s.wrR d R.CAVE_STAT_BUSY 1)

/-- Every write-back of an operation is issued, and so is every entry before it (R441, R435); an INV writes nothing back. -/
def maintIssue (d : RSlot) (m : Maint) (s : State) : State :=
  let q := (s.rind d).cave.evict
  let k := (q.reverse.dropWhile (fun e => ! m.covers e.line)).length
  if m.op = 1 then s
  else modCave d (fun c => { c with evict := (q.take k).map (fun e => { e with issued := true }) ++ q.drop k })
    (((q.take k).filter (fun e => ! e.issued)).foldl (fun t e => evictIssue d e t) s)

/-- The engine has passed its last set, and the operation's write-backs are issued (R441, R437). -/
def maintDone (d : RSlot) (s : State) : State :=
  match (s.rind d).cave.maint with
  | none => s
  | some m =>
    let s := maintIssue d m (maintAdvance d m.total s)
    let s := modCave d (fun c => { c with maint := none }) (s.wrR d R.CAVE_STAT_BUSY 0)
    if ! s.caveOn d ∧ m.op ≠ 2 ∧ m.base = 0 ∧ m.limit = 0x1FFFFFFF ∧ ! m.spare then s.wrR d R.CAVE_STAT_INVDONE 1 else s

/-- Enable the Cave. -/
def caveEnableNow (d : RSlot) (s : State) : State := (s.wrR d R.CAVE_STAT_EN 1).wrR d R.CAVE_CTL_EN 1

/-- A write of CAVE_CTL (R437): EN is taken once, and only after a full invalidation; what is refused is logged. -/
def caveCtlWrite (ts : List RSlot) (v : Word) (s : State) : State × Nat :=
  (ts.foldl (fun t d =>
    if R.CAVE_CTL_EN.get v = 1 then
      (if t.bitR d R.CAVE_STAT_INVDONE ∨ t.caveOn d then caveEnableNow d t else raise d 0x034 [0x78000] t)
    else if t.caveOn d then raise d 0x034 [0x78000] t else t) s, 0)

/-- A write of CAVE_MAINT (R440, R442). -/
def caveMaintWrite (ts : List RSlot) (_rd : RegDef) (v : Word) (s : State) : State × Nat :=
  (ts.foldl (fun t d =>
    if t.bitR d R.CAVE_STAT_BUSY then raise d 0x034 [0x78004] (t.incR d R.CAVE_MAINTCNT_REFUSED)
    else
      let t := (t.wrR d R.CAVE_MAINT_OP (R.CAVE_MAINT_OP.get v)).wrR d R.CAVE_MAINT_SPARE_LOCKED (R.CAVE_MAINT_SPARE_LOCKED.get v)
      if R.CAVE_MAINT_GO.get v = 1 then maintStart d (R.CAVE_MAINT_OP.get v) (R.CAVE_MAINT_SPARE_LOCKED.get v = 1) t else t) s, 0)

/-- A write of CAVE_MBASE or CAVE_MLIMIT (R442). -/
def caveRangeWrite (ts : List RSlot) (addr : Nat) (v : Word) (s : State) : State × Nat :=
  (ts.foldl (fun t d =>
    if t.bitR d R.CAVE_STAT_BUSY then raise d 0x034 [addr] (t.incR d R.CAVE_MAINTCNT_REFUSED)
    else t.wrR d ⟨addr, 28, 0⟩ (v.toNat % 2 ^ 29)) s, 0)

/-! ## Accesses (R430, R436, R438, R443) -/

/-- A valid line met by an access: clean data with wrong parity is invalidated, counted and refetched (R438). -/
def dropClean (d : RSlot) (key : Nat) (s : State) : State :=
  raise d 0x079 [key] (modCave d (fun c => { c with lines := assocDel key c.lines }) (s.incR d R.CAVE_ERR_CLEANPE))

/-- Fetch of a line from buffer memory. -/
def fetchLine (d : RSlot) (line : Nat) (s : State) : List Byte × Bool × State := bmemRead d (128 * line) 128 s

/-- Serve a read of a line that the Cave does not hold (R430, R436, R443): from the eviction buffer, or by a fill. -/
def missLine (d : RSlot) (cls line : Nat) (alloc : Bool) (fetch : State → List Byte × Bool × State) (s : State) : List Byte × Bool × State :=
  match (s.rind d).cave.evict.find? (fun e => e.line = line) with
  | some e =>
    if s.shut d line then (e.data, false, s)
    else if e.issued then (e.data, false, if alloc then allocLine d cls line e.data false s else s)
    else (e.data, false, allocLine d cls line e.data true (modCave d (fun c => { c with evict := c.evict.erase e }) s))
  | none =>
    let r := fetch s
    if r.2.1 ∨ ! alloc ∨ r.2.2.shut d line then r else (r.1, false, allocLine d cls line r.1 false r.2.2)

/-- Serve a read of a line (R430, R438): data, poison, state. A set with a wrong tag serves nothing: all ones, poisoned. -/
def readLine (d : RSlot) (cls line : Nat) (alloc : Bool) (fetch : State → List Byte × Bool × State) (s : State) : List Byte × Bool × State :=
  let s := checkPlru d (lineSet line) s
  if s.tagFault d line then (List.replicate 128 0xFF, true, raise d 0x078 [128 * line] s)
  else match (s.rind d).cave.find line with
  | some (key, l) =>
    if l.wrong ∧ l.dirty then (l.data, true, raise d 0x078 [128 * line] s)
    else if l.wrong then missLine d cls line alloc fetch (dropClean d key s)
    else (l.data, false, touchWay d (lineSet line) (key % 16) s)
  | none => missLine d cls line alloc fetch s

/-- The line is held with no clean parity error: a lookup that hits. -/
def State.caveHits (s : State) (d : RSlot) (line : Nat) : Bool :=
  match (s.rind d).cave.find line with
  | some (_, l) => ! l.wrong || l.dirty
  | none => false

/-- Count a lookup (CAVE_HIT, CAVE_MISS). -/
def countLookup (d : RSlot) (line : Nat) (s : State) : State :=
  s.incR d (if s.caveHits d line then R.CAVE_HIT_COUNT else R.CAVE_MISS_COUNT)

/-- Read a line at once, fill included. -/
def caveReadLine (d : RSlot) (cls line : Nat) (alloc : Bool) (s : State) : List Byte × Bool × State :=
  if s.caveOn d then readLine d cls line alloc (fetchLine d line) (countLookup d line (maintRun d s))
  else fetchLine d line s

/-- Read lines from `line` on. -/
def caveReadLines (d : RSlot) (cls : Nat) (alloc : Bool) : Nat → Nat → State → List Byte × Bool × State
  | _, 0, s => ([], false, s)
  | line, n + 1, s =>
    let a := caveReadLine d cls line alloc s
    let b := caveReadLines d cls alloc (line + 1) n a.2.2
    (a.1 ++ b.1, a.2.1 || b.2.1, b.2.2)

/-- Read bytes of buffer memory through the Cave (R430): data, poison, state. -/
def caveRead (d : RSlot) (who : AccWho) (addr len : Nat) (noalloc : Bool) (s : State) : List Byte × Bool × State :=
  let n := if len = 0 then 0 else (addr + len - 1) / 128 - addr / 128 + 1
  let r := caveReadLines d who.cls (! noalloc) (addr / 128) n s
  ((r.1.drop (addr % 128)).take len, r.2.1, r.2.2)

/-- Bytes of a line replaced from `off` on. -/
def overBytes (old : List Byte) (off : Nat) (new : List Byte) : List Byte := old.take off ++ new ++ old.drop (off + new.length)

/-- The wrong parity bits left after `n` bytes from `off` on are written: a chunk written whole gets a new parity bit (R429). -/
def renewed (off n : Nat) (bad : BitVec 8) : BitVec 8 :=
  (List.range 8).foldl (fun b i => if off ≤ 16 * i ∧ 16 * i + 16 ≤ off + n then b &&& ~~~ (1#8 <<< i) else b) bad

/-- Write bytes within one line, the Cave enabled (R430, R436, R443). A write whose request carries NOALLOC allocates no line on a miss (R448),
but for the entry it withdraws from the eviction buffer. -/
def writeLine (d : RSlot) (cls line off : Nat) (alloc : Bool) (bytes : List Byte) (s : State) : State :=
  let whole := decide (off = 0 ∧ bytes.length = 128)
  let miss (s : State) : State :=
    match (s.rind d).cave.evict.find? (fun e => e.line = line ∧ ! e.issued) with
    | some e =>
      if s.shut d line then
        modCave d (fun c => { c with evict := c.evict.map (fun x => if x = e then { e with data := overBytes e.data off bytes } else x) }) s
      else allocLine d cls line (overBytes e.data off bytes) true (modCave d (fun c => { c with evict := c.evict.erase e }) s)
    | none =>
      if whole && alloc && ! s.shut d line then allocLine d cls line bytes true s
      else bmemWrite d (128 * line + off) bytes s
  let s := checkPlru d (lineSet line) s
  if s.tagFault d line then raise d 0x078 [128 * line] s
  else match (s.rind d).cave.find line with
  | some (key, l) =>
    if l.wrong ∧ ! l.dirty ∧ ! whole then miss (dropClean d key s)
    else touchWay d (lineSet line) (key % 16) (modCave d (fun c => { c with
      lines := assocPut key { l with dirty := true, data := overBytes l.data off bytes, bad := renewed off bytes.length l.bad } c.lines }) s)
  | none => miss s

/-- Write bytes of buffer memory through the Cave, line by line (R430). -/
def caveWrite (d : RSlot) (who : AccWho) (addr : Nat) (data : List Byte) (noalloc : Bool) (s : State) : State :=
  let n := if data.isEmpty then 0 else (addr + data.length - 1) / 128 - addr / 128 + 1
  (List.range n).foldl (fun t i =>
    let line := addr / 128 + i
    let lo := max addr (128 * line)
    let bytes := (data.drop (lo - addr)).take (128 * (line + 1) - lo)
    if t.caveOn d then writeLine d who.cls line (lo - 128 * line) (! noalloc) bytes (countLookup d line (maintRun d t))
    else bmemWrite d lo bytes t) s

/-- Invert the data parity bit of the chunk that holds an address, in a line the Cave holds (R568, MODE 0x2; R429). -/
def plantCaveParity (d : RSlot) (addr : Nat) (s : State) : Option State :=
  ((s.rind d).cave.find (addr / 128)).map (fun p => modCave d (fun c => { c with lines := assocPut p.1 { p.2 with bad := p.2.bad ^^^ (1#8 <<< (addr % 128 / 16)) } c.lines }) s)

/-- Function reset of the Cave (R439): dirty lines are written back through the eviction buffer, every line is invalidated, and the Cave is
enabled again; locks are kept, and fills in flight still return. -/
def resetCave (d : RSlot) (s : State) : State :=
  let dirty := (s.rind d).cave.lines.filter (fun p => p.2.dirty)
  let s := dirty.foldl (fun t p => writeBack d (keyLine p.1 p.2.tag) p.2 t) s
  let s := (s.rind d).cave.evict.foldl (fun t e => if e.issued then t else evictIssue d e t) s
  caveEnableNow d (modCave d (fun c => { fills := c.fills }) (s.wrR d R.CAVE_STAT_BUSY 0))

end Sys2Proof.Machine
end

