-- ==== Sys2Proof/Machine/VatOps.lean ====
section
/-! DEFINITION. The Vat: pools, requests and ownership (R415 to R428). -/

namespace Sys2Proof.Machine

/-- Change the Vat of a die. -/
def modVat (d : RSlot) (f : Vat → Vat) (s : State) : State := s.modRind d (fun r => { r with vat := f r.vat })

/-- A response of the Vat (R420): its status code, and the handle or ticket it carries. -/
structure VatResp where
  status : Nat
  value : Nat
  deriving DecidableEq, Repr

/-- An owner identifier that R417 assigns. -/
def ownerOk (o : Nat) : Bool := decide (o ≤ 0x12A)

/-- An engine owner (R417). -/
def isEngineOwner (o : Nat) : Bool := decide (0x100 ≤ o)

/-- Buffers of a pool. -/
def State.poolCount (s : State) (d : RSlot) (p : Nat) : Nat := s.rdR d (R.VAT_POOLCFG_COUNT p)

/-- Buffer size of a pool. -/
def State.poolSize (s : State) (d : RSlot) (p : Nat) : Nat := 2 ^ s.rdR d (R.VAT_POOLCFG_SIZELOG2 p)

/-- Reserve of a pool (VAT_RESV). -/
def State.poolResv (s : State) (d : RSlot) (p : Nat) : Nat := s.rdR d ⟨0x68000, 8 * p + 7, 8 * p⟩

/-- The buffers of a pool that are allocated. -/
def Vat.allocated (v : Vat) (p : Nat) : List VatBuf := v.bufs.filter (fun b => b.pool = p ∧ b.held.isSome)

/-- Free buffers of a pool (R427). -/
def State.poolFree (s : State) (d : RSlot) (p : Nat) : Nat := s.poolCount d p - ((s.rind d).vat.allocated p).length

/-- ALLOCs that wait in a pool. -/
def Vat.waiting (v : Vat) (p : Nat) : List VatWait := v.waits.filter (fun w => w.pool = p)

/-- VAT_POOLSTAT follows the pools. -/
def showPools (d : RSlot) (s : State) : State :=
  (List.range 4).foldl (fun t p =>
    (t.wrR d (R.VAT_POOLSTAT_FREE p) (t.poolFree d p)).wrR d (R.VAT_POOLSTAT_QUEUED p) ((t.rind d).vat.waiting p).length) s

/-- The handle of a buffer (R418). -/
def vatHandle (p gen i : Nat) : Nat := p * 2 ^ 30 + gen * 2 ^ 22 + i

/-- Pool, generation and index of a handle (R418). -/
def handleParts (h : Nat) : Nat × Nat × Nat := (h / 2 ^ 30 % 4, h / 2 ^ 22 % 256, h % 2 ^ 22)

/-- The record of a buffer. -/
def Vat.buf (v : Vat) (p i : Nat) : VatBuf := (v.bufs.find? (fun b => b.pool = p ∧ b.index = i)).getD ⟨p, i, 0, none⟩

/-- Store the record of a buffer. -/
def putBuf (d : RSlot) (b : VatBuf) (s : State) : State :=
  modVat d (fun v => { v with bufs := b :: v.bufs.filter (fun x => ! decide (x.pool = b.pool ∧ x.index = b.index)) }) s

/-- A refused request (R426): it changes nothing but the refusal ledger and its registers, and is raised at Note. -/
def refuse (d : RSlot) (op owner handle status term : Nat) (s : State) : VatResp × State :=
  let s := s.incR d R.VAT_REFUSE_COUNT
  let s := ((s.wrR d R.VAT_REFUSE_OP op).wrR d R.VAT_REFUSE_OWNER owner).wrR d R.VAT_REFHANDLE_HANDLE handle
  let s := modVat d (fun v => { v with refused := modAt term (· + 1) v.refused }) s
  (⟨status, 0⟩, raise d 0x070 [op, owner, handle, status] s)

/-- Allocate a buffer to an owner (R418): its generation rises by 1 modulo 256, count 1. -/
def grantBuf (d : RSlot) (p i owner : Nat) (s : State) : Nat × State :=
  let gen := (((s.rind d).vat.buf p i).gen + 1) % 256
  (vatHandle p gen i, putBuf d ⟨p, i, gen, some (1, owner)⟩ s)

/-- The free buffer of a pool with the lowest index (R421). -/
def Vat.lowestFree (v : Vat) (p : Nat) : Nat :=
  ((List.range ((v.allocated p).length + 1)).find? (fun i => (v.buf p i).held.isNone)).getD 0

/-- A pool is available to a request of an owner (R421). -/
def State.poolAvail (s : State) (d : RSlot) (owner p : Nat) : Bool :=
  let w := (s.rind d).vat.waiting p
  if isEngineOwner owner then ! w.any (fun x => isEngineOwner x.owner) && decide (1 ≤ s.poolFree d p)
  else w.isEmpty && decide (s.poolResv d p < s.poolFree d p)

/-- Pools whose buffers hold SIZE bytes, smallest first (R421). -/
def State.poolsFor (s : State) (d : RSlot) (size : Nat) : List Nat :=
  ((List.range 4).filter (fun p => decide (size ≤ s.poolSize d p))).mergeSort
    (fun a b => decide (s.poolSize d a ≤ s.poolSize d b))

/-- ALLOC (R419 to R422). -/
def vatAlloc (d : RSlot) (owner size : Nat) (promote wait : Bool) (s : State) : VatResp × State :=
  if ! ownerOk owner ∨ size = 0 ∨ 8388608 < size then refuse d 1 owner 0 0x16 0 s
  else
    match s.poolsFor d size with
    | [] => refuse d 1 owner 0 0x16 0 s
    | p :: larger =>
      match (p :: (if promote then larger else [])).find? (s.poolAvail d owner) with
      | some q =>
        let r := grantBuf d q ((s.rind d).vat.lowestFree q) owner s
        (⟨0, r.1⟩, showPools d r.2)
      | none =>
        if wait then
          if 64 ≤ ((s.rind d).vat.waiting p).length then (⟨3, 0⟩, s.incR d R.VAT_EVT_QFULL)
          else
            let t := (s.rind d).vat.ticket
            (⟨1, t⟩, showPools d (modVat d (fun v => { v with waits := v.waits ++ [({ pool := p, owner := owner, ticket := t } : VatWait)], ticket := (t + 1) % 2 ^ 16 }) s))
        else (⟨2, 0⟩, s.incR d R.VAT_EVT_EMPTY)

/-- A request that names a handle: the checks REF_INVALID and REF_STALE, then its own (R420). -/
def withBuf (d : RSlot) (op owner handle term : Nat) (f : VatBuf → Nat → Nat → State → VatResp × State) (s : State) : VatResp × State :=
  let (p, gen, i) := handleParts handle
  if ! ownerOk owner ∨ s.poolCount d p ≤ i then refuse d op owner handle 0x16 term s
  else
    let b := (s.rind d).vat.buf p i
    match b.held with
    | none => refuse d op owner handle 0x10 term s
    | some (n, last) => if b.gen = gen then f b n last s else refuse d op owner handle 0x10 term s

/-- SHARE (R425). -/
def vatShare (d : RSlot) (owner handle : Nat) (rename : Bool) (s : State) : VatResp × State :=
  withBuf d 2 owner handle 1 (fun b n last s =>
    if n = 255 then refuse d 2 owner handle 0x15 1 s
    else (⟨0, handle⟩, putBuf d { b with held := some (n + 1, if rename then owner else last) } s)) s

/-- RELEASE (R425). -/
def vatRelease (d : RSlot) (owner handle : Nat) (s : State) : VatResp × State :=
  withBuf d 3 owner handle 2 (fun b n last s =>
    if last = owner then refuse d 3 owner handle 0x13 2 s
    else if n = 1 then refuse d 3 owner handle 0x14 2 s
    else (⟨0, handle⟩, putBuf d { b with held := some (n - 1, last) } s)) s

/-- The waiter that takes a buffer returned to a pool (R422): the oldest engine waiter; else the oldest port waiter, while the free count with
this buffer is above RESV. -/
def State.nextWaiter (s : State) (d : RSlot) (p free : Nat) : Option VatWait :=
  let w := (s.rind d).vat.waiting p
  (w.find? (fun x => isEngineOwner x.owner)).orElse (fun _ => if s.poolResv d p < free then w.head? else none)

/-- FREE (R422, R425): only the last owner, alone, returns a buffer; a waiter takes it at once. -/
def vatFree (d : RSlot) (owner handle : Nat) (s : State) : VatResp × State :=
  withBuf d 4 owner handle 3 (fun b n last s =>
    if last ≠ owner then refuse d 4 owner handle 0x11 3 s
    else if n ≠ 1 then refuse d 4 owner handle 0x12 3 s
    else
      let s := putBuf d { b with held := none } s
      match s.nextWaiter d b.pool (s.poolFree d b.pool) with
      | some w =>
        let r := grantBuf d b.pool b.index w.owner s
        (⟨0, handle⟩, showPools d (modVat d (fun v => { v with
          waits := v.waits.erase w, granted := (w.owner, BitVec.ofNat 32 r.1) :: v.granted }) r.2))
      | none => (⟨0, handle⟩, showPools d s)) s

/-- CANCEL (R419, R420, R423): the ALLOC of the ticket is withdrawn; a ticket that no longer waits is NOT_WAITING. -/
def vatCancel (d : RSlot) (owner ticket : Nat) (s : State) : VatResp × State :=
  if ! ownerOk owner then refuse d 5 owner 0 0x16 0 s
  else
    match (s.rind d).vat.waits.find? (fun w => w.ticket = ticket) with
    | some w => (⟨0, 0⟩, showPools d (modVat d (fun v => { v with waits := v.waits.erase w }) s))
    | none => refuse d 5 owner 0 0x17 0 s

/-- Function reset of the Vat (R428): every waiting ALLOC ends with EMPTY. -/
def resetVat (d : RSlot) (s : State) : State :=
  let n := (s.rind d).vat.waits.length
  showPools d (modVat d (fun v => { v with waits := [] }) (s.incR d R.VAT_EVT_EMPTY n))

/-! ## The pools (R415, R416) -/

/-- The pool table of the control store: SIZELOG2, SHARE and RESV of a pool (R476). -/
def poolTable (w : MicroWord) (p : Nat) : Nat × Nat × Nat :=
  let v := w.toNat / 2 ^ (32 * p)
  (v % 32, v / 2 ^ 8 % 64, v / 2 ^ 16 % 256)

/-- A word of a control store: words that no section wrote are zero (R475). -/
def Store.word (s : Store) (a : Nat) : MicroWord := assocGet a 0 s.words

/-- Buffer memory outside every window and below the translation region (R416). -/
def State.poolMemory (s : State) (d : RSlot) : Nat :=
  s.xlatBase d - ((s.windows d).map (fun w => if w.1 < s.xlatBase d then w.2 else 0)).sum

/-- Size of the Vat descriptor table (R416). -/
def State.vatTable (s : State) (d : RSlot) : Nat :=
  let w := (s.rind d).store.word 16375
  let m := s.poolMemory d
  round8M (8 * ((List.range 4).map (fun p => min ((poolTable w p).2.1 * m / 64 / 2 ^ (poolTable w p).1) 4194303)).sum)

/-- Build the pools at step 11 (R415, R416). -/
def buildPools (d : RSlot) (s : State) : State :=
  let w := (s.rind d).store.word 16375
  let m := s.poolMemory d - s.vatTable d
  let s := (List.range 4).foldl (fun t p =>
    let (lg, share, resv) := poolTable w p
    let t := (t.wrR d (R.VAT_POOLCFG_SIZELOG2 p) lg).wrR d (R.VAT_POOLCFG_COUNT p) (min (share * m / 64 / 2 ^ lg) 4194303)
    t.wrR d ⟨0x68000, 8 * p + 7, 8 * p⟩ resv) s
  showPools d (modVat d (fun _ => {}) s)

/-- An offset in the memory outside every window, as an address: windows at or below it are passed over, lowest first. -/
def passWindows (wins : List (Nat × Nat)) (off : Nat) : Nat :=
  (wins.mergeSort (fun a b => decide (a.1 ≤ b.1))).foldl (fun a w => if w.1 ≤ a then a + w.2 else a) off

/-- The buffer memory address of a buffer (R416): pools lie from address 0 upward in the order 3, 2, 1, 0. -/
def State.bufAddr (s : State) (d : RSlot) (p i : Nat) : Nat :=
  let below := ((List.range 4).map (fun q => if p < q then s.poolCount d q * s.poolSize d q else 0)).sum
  passWindows (s.windows d) (below + i * s.poolSize d p)

end Sys2Proof.Machine
end

