-- ==== Sys2Proof/Machine/CultOps.lean ====
section
/-! DEFINITION. Culture engines: the microword, its legality, its execution, commit points, faults and events (R462 to R490). -/

namespace Sys2Proof

/-- The die slot code of an engine's die (SRC of R24). -/
def Eng.die : Eng → Nat
  | .rind d _ => d.code
  | .curd g => 8 + g

/-- The engine number a microword reads (R469, BSEL 6): the formatter is 0x10. -/
def Eng.no : Eng → Nat
  | .rind _ e => e
  | .curd _ => 0x10

/-- The engine is a formatter. -/
def Eng.isCurd : Eng → Bool
  | .rind _ _ => false
  | .curd _ => true

/-- The number by which a response latch is kept: handshake ports by their own numbers. -/
def RespPort.no : RespPort → Nat
  | .handshake n => n
  | .vat => 0x20
  | .ladle => 0x21
  | .memory => 0x22

/-- Fields of an engine's registers: STATE, CPC, PC, ABANDON, STOPPED, EVQ. -/
def Eng.fState : Eng → Machine.Fld
  | .rind _ e => Machine.R.CULT_ENG_STATE e
  | .curd _ => Machine.R.CDIE_FCENG_STATE
/-- CPC. -/
def Eng.fCpc : Eng → Machine.Fld
  | .rind _ e => Machine.R.CULT_ENG_CPC e
  | .curd _ => Machine.R.CDIE_FCENG_CPC
/-- PC. -/
def Eng.fPc : Eng → Machine.Fld
  | .rind _ e => Machine.R.CULT_ENG_PC e
  | .curd _ => Machine.R.CDIE_FCENG_PC
/-- ABANDON. -/
def Eng.fAbandon : Eng → Machine.Fld
  | .rind _ e => Machine.R.CULT_CNT_ABANDON e
  | .curd _ => Machine.R.CDIE_FCCNT_ABANDON
/-- STOPPED. -/
def Eng.fStopped : Eng → Machine.Fld
  | .rind _ e => Machine.R.CULT_CNT_STOPPED e
  | .curd _ => Machine.R.CDIE_FCCNT_STOPPED
/-- EVQ. -/
def Eng.fEvq : Eng → Machine.Fld
  | .rind _ e => Machine.R.CULT_CNT_EVQ e
  | .curd _ => Machine.R.CDIE_FCCNT_EVQ

/-- The offset that takes a CULT register's field to the CDIE counterpart (R492): the same bits at another register. -/
def Eng.pick (e : Eng) (r c : Machine.Fld) : Machine.Fld :=
  match e with
  | .rind _ _ => r
  | .curd _ => c

end Sys2Proof

namespace Sys2Proof.Machine

/-! ## The microword (R464) -/

/-- Bits `hi` to `lo` of a microword. -/
def mwBits (w : MicroWord) (hi lo : Nat) : Nat := w.toNat / 2 ^ lo % 2 ^ (hi + 1 - lo)

/-- The fields of a microword (R464). -/
structure Micro where
  nac : Nat
  naddr : Nat
  cond : Nat
  cpol : Bool
  aluop : Nat
  srca : Nat
  srcb : Nat
  bsel : Nat
  dest : Nat
  imm : Nat
  mvsrc : Nat
  mvdst : Nat
  hsport : Nat
  hsop : Nat
  hsact : Nat
  vatop : Nat
  vatflg : Nat
  ldop : Nat
  memop : Nat
  rsel : Nat
  sample : Nat
  commit : Bool
  trace : Bool
  tmrop : Nat
  lcop : Nat
  shamt : Nat
  rsvd : Nat
  deriving DecidableEq, Repr

/-- The fields of a word. -/
def microFields (w : MicroWord) : Micro where
  nac := mwBits w 143 140
  naddr := mwBits w 139 126
  cond := mwBits w 125 120
  cpol := mwBits w 119 119 = 1
  aluop := mwBits w 118 114
  srca := mwBits w 113 109
  srcb := mwBits w 108 104
  bsel := mwBits w 103 101
  dest := mwBits w 100 96
  imm := mwBits w 95 80
  mvsrc := mwBits w 79 75
  mvdst := mwBits w 74 70
  hsport := mwBits w 69 65
  hsop := mwBits w 64 61
  hsact := mwBits w 60 59
  vatop := mwBits w 58 56
  vatflg := mwBits w 55 53
  ldop := mwBits w 52 50
  memop := mwBits w 49 47
  rsel := mwBits w 46 44
  sample := mwBits w 43 42
  commit := mwBits w 41 41 = 1
  trace := mwBits w 40 40 = 1
  tmrop := mwBits w 39 38
  lcop := mwBits w 37 36
  shamt := mwBits w 35 31
  rsvd := mwBits w 30 9

/-- The operations of the request ports (R470): port, operation, and whether it is irreversible, for a Rind die. -/
def rindPorts : List (Nat × Nat × Bool) :=
  (List.range 8).map (fun i => (i + 1, 1, true)) ++
  [(0x09, 1, false), (0x09, 2, false), (0x09, 3, true), (0x0A, 1, false), (0x0A, 2, true), (0x0B, 1, false), (0x0B, 2, true), (0x0C, 1, false),
   (0x0C, 2, true), (0x0D, 1, true), (0x0E, 1, true), (0x0F, 1, false), (0x10, 1, false), (0x11, 1, false)]

/-- The operations of the request ports of a Curd die (R470). -/
def curdPorts : List (Nat × Nat × Bool) :=
  [(0x09, 1, false), (0x09, 2, false), (0x09, 3, true), (0x0A, 1, true), (0x0B, 1, true), (0x0B, 2, false), (0x0C, 1, false), (0x0C, 2, false),
   (0x0D, 1, false), (0x0D, 2, false), (0x0E, 1, true)]

/-- The ports of an engine. -/
def portsOf (curd : Bool) : List (Nat × Nat × Bool) := if curd then curdPorts else rindPorts

/-- The word issues a handshake request. -/
def Micro.issues (m : Micro) : Bool := decide (m.hsact = 1 ∨ m.hsact = 3)

/-- The irreversible operations of a word (R480): every VATOP, the arm, and the operations marked in R470. -/
def Micro.irreversible (m : Micro) (curd : Bool) : Nat :=
  (if m.vatop ≠ 0 then 1 else 0) + (if m.ldop = 4 then 1 else 0) +
  (if m.issues ∧ (portsOf curd).any (fun p => decide (p = (m.hsport, m.hsop, true))) then 1 else 0)

/-- COND is defined (R467). -/
def condOk (c : Nat) : Bool := decide (c ≤ 0x0E ∨ 0x20 ≤ c)

/-- The word is illegal for its fields (R470 to R474). -/
def Micro.illegal (m : Micro) (curd : Bool) : Bool :=
  decide (9 < m.nac) || ! condOk m.cond || decide (0x12 < m.aluop) || decide (m.rsvd ≠ 0) ||
  (decide (m.hsport = 0) && decide (m.hsact ≠ 0)) ||
  (decide (m.hsport ≠ 0) && ! (portsOf curd).any (fun p => decide (p.1 = m.hsport ∧ p.2.1 = m.hsop))) ||
  decide (5 < m.vatop ∨ 5 < m.ldop ∨ 2 < m.memop ∨ 3 < m.rsel ∨ 2 < m.tmrop ∨ 2 < m.lcop) ||
  (curd && decide (m.vatop ≠ 0 ∨ m.ldop ≠ 0 ∨ 2 ^ 12 ≤ m.naddr)) ||
  decide (m.dest = m.mvdst ∧ m.mvdst ≠ 0) || decide (m.nac = 8 ∧ m.sample = 0) ||
  decide (1 < m.irreversible curd) || (decide (0 < m.irreversible curd) && ! m.commit)

/-- Words of the configuration area, never fetched (R476). -/
def configArea (curd : Bool) (a : Nat) : Bool := if curd then decide (4032 ≤ a) else decide (16352 ≤ a)

/-! ## Engines -/

/-- An engine's state. -/
def State.eng (s : State) : Eng → Engine
  | .rind d e => (s.rind d).engines.getD e {}
  | .curd g => (s.curd g).eng

/-- Change an engine. -/
def modEng (e : Eng) (f : Engine → Engine) (s : State) : State :=
  match e with
  | .rind d i => s.modRind d (fun r => { r with engines := modAt i f r.engines })
  | .curd g => s.modCurd g (fun c => { c with eng := f c.eng })

/-- The engine exists. -/
def State.hasEng (s : State) : Eng → Bool
  | .rind d e => s.hasRind d && decide (e < 8)
  | .curd g => s.hasCurd g

/-- The control store of an engine. -/
def State.storeOf (s : State) : Eng → Store
  | .rind d _ => (s.rind d).store
  | .curd g => (s.curd g).store

/-- Engine STATE codes (CULT_ENG). -/
def engIdle : Nat := 0
/-- Running. -/
def engRunning : Nat := 1
/-- Waiting. -/
def engWaiting : Nat := 2
/-- Halted, store not loaded. -/
def engHalted : Nat := 3

/-- Set an engine's STATE. -/
def setEngState (e : Eng) (v : Nat) (s : State) : State := s.wr e.die e.fState v

/-- Set an engine's program counter. -/
def setPc (e : Eng) (a : Nat) (s : State) : State := s.wr e.die e.fPc a

/-- A register of an engine: r0 reads as 0 (R463). -/
def Engine.reg (g : Engine) (i : Nat) : BitVec 64 := if i = 0 then 0 else assocGet i 0 g.regs

/-- Write a register: r0 discards writes (R463). -/
def Engine.setReg (g : Engine) (i : Nat) (v : BitVec 64) : Engine := if i = 0 then g else { g with regs := assocPut i v g.regs, bad := g.bad.filter (· ≠ i) }

/-- The vector of an event class (R476): class 7 is also the dispatch vector. -/
def State.vector (s : State) (e : Eng) (k : Nat) : Nat :=
  match e with
  | .rind d i => ((s.rind d).store.word (16376 + i)).toNat / 2 ^ (14 * k) % 2 ^ 14
  | .curd g => ((s.curd g).store.word 4095).toNat / 2 ^ (12 * k) % 2 ^ 12

/-! ## Traces (R490) -/

/-- Write a trace record where tracing is on and the engine is in MASK: entry words TIME, ADDR with ENGINE and KIND, DATA, STEP. -/
def traceRec (e : Eng) (kind addr data : Nat) (s : State) : State :=
  let k := e.die
  let rd (r c : Fld) : Nat := s.rd k (e.pick r c)
  let bitNo := if e.isCurd then 0 else e.no
  if rd R.CULT_TRACECTL_EN R.CDIE_FCTRACECTL_EN = 1 ∧ rd R.CULT_TRACECTL_FREEZE R.CDIE_FCTRACECTL_FREEZE = 0 ∧
      (rd R.CULT_TRACECTL_MASK R.CDIE_FCTRACECTL_MASK).testBit bitNo then
    let n := rd R.CULT_TRACEPTR_NEXT R.CDIE_FCTRACEPTR_NEXT
    let size := if e.isCurd then 256 else 512
    let step := if s.part.f = 2 then (s.eng e).lastStep % 2 ^ 32 else 0
    let put (i v : Nat) (t : State) : State := t.wr k (e.pick (R.CULT_TRACE_W n i) (R.CDIE_TRACE_W n i)) v
    let s := put 3 step (put 2 data (put 1 (addr + e.no * 2 ^ 16 + kind * 2 ^ 24) (put 0 (s.now % 2 ^ 32) s)))
    let s := if n + 1 = size then s.wr k (e.pick R.CULT_TRACEPTR_WRAP R.CDIE_FCTRACEPTR_WRAP) 1 else s
    s.wr k (e.pick R.CULT_TRACEPTR_NEXT R.CDIE_FCTRACEPTR_NEXT) ((n + 1) % size)
  else s

/-! ## Commit points (R479) -/

/-- Commit at an address (R479): what is saved, with a fresh routine timer (R485). -/
def commitAt (e : Eng) (a : Nat) (s : State) : State :=
  let s := modEng e (fun g => { g with
    saved := ⟨a, g.regs, g.loop, g.stack, g.latch, g.timer, false⟩, resumes := 0, drains := [], since := s.now }) s
  traceRec e 3 a 0 (s.wr e.die e.fCpc a)

/-- Enter a vector: an implied commit (R479). -/
def enterVector (e : Eng) (k : Nat) (s : State) : State :=
  let a := s.vector e k
  commitAt e a (setEngState e engRunning (setPc e a (modEng e (fun g => { g with waiting := none, parked := none }) s)))

/-- The unit behind a request port (R470, R552). -/
def portUnit (curd : Option Nat) (port : Nat) : Option RUnit :=
  match curd with
  | none =>
    if 1 ≤ port ∧ port ≤ 8 then some (.engine (port - 1))
    else match port with
      | 0x0A => some .portEngine
      | 0x0B => some .scheduler
      | 0x0C => some .translation
      | 0x0D => some .cave
      | 0x11 => some .budget
      | 0x20 => some .vat
      | 0x21 => some .ladle
      | 0x22 => some .bmem
      | _ => none
  | some g =>
    match port with
    | 0x0A => some (.formatter g)
    | 0x0B => some (.press g)
    | 0x0C => some (.channel g)
    | 0x0D => some (.formatter g)
    | _ => none

/-- Wrong parity in an engine's saved state is a Fatal fault of its die (R482, DESIGN CHOICE 133). -/
def savedFault (e : Eng) (cpc : Nat) (s : State) : State :=
  match e with
  | .rind d i => raise d 0x099 [i, cpc] s
  | .curd g => { s with todo := s.todo ++ [.fatalCurd g] }

/-- A synchronous fault (R482, R486): back to the last commit, requests that can be withdrawn dropped; counted, recorded, raised, rung 2
used. After RETRYMAX resumes of one commit address the routine is stopped and its work passes to rung 3. Wrong parity in the saved state is a Fatal
fault of the die; R482 names no source, so a Rind die raises 0x099 (DESIGN CHOICE, log entry 133). -/
def syncFault (e : Eng) (cause addr : Nat) (s : State) : State :=
  let s := s.inc e.die e.fAbandon
  let s := ((s.wr e.die (e.pick R.CULT_SFAULT_CAUSE R.CDIE_FCSFAULT_CAUSE) cause).wr e.die
    (e.pick R.CULT_SFAULT_ENGINE R.CDIE_FCSFAULT_ENGINE) (if e.isCurd then 0 else e.no)).wr e.die (e.pick R.CULT_SFAULT_ADDR R.CDIE_FCSFAULT_ADDR) addr
  let s := traceRec e 4 addr cause s
  let s := match e with
    | .rind d i => useRung d 2 (raise d 0x098 [i, cause, addr] s)
    | .curd _ => s
  let g := s.eng e
  let lim := s.rd e.die (e.pick R.CULT_CFG_RETRYMAX R.CDIE_FCCFG_RETRYMAX)
  if lim ≤ g.resumes then
    let s := traceRec e 6 addr 0 (s.inc e.die e.fStopped)
    let port := (g.drains.head?).map Prod.fst
    let s := match e with
      | .rind d i =>
        let u := port.bind (portUnit none)
        { raise d 0x09A [i] s with todo := (raise d 0x09A [i] s).todo ++ [.stopped d i u g.held] }
      | .curd _ => s
    enterVector e 7 (modEng e (fun g => { g with reqs := [], held := [], message := none, stack := [], late := none }) s)
  else
    let s := if g.saved.bad then savedFault e g.saved.cpc s else s
    let s := modEng e (fun g => { g with
      bad := [], badStack := false, regs := g.saved.regs, loop := g.saved.loop, stack := g.saved.stack, latch := g.saved.latch, timer := g.saved.timer
      reqs := g.reqs.filter EngReq.irrev, waiting := none, parked := none, resumes := g.resumes + 1, drains := [], message := none, since := s.now, late := none }) s
    traceRec e 5 (s.eng e).saved.cpc 0 (setEngState e engRunning (setPc e (s.eng e).saved.cpc s))

/-! ## Operands, the ALU and conditions (R467 to R469) -/

/-- The latch of a port: all zero before the first response. -/
def Engine.latchOf (g : Engine) (port : Nat) : Latch := (g.latches.find? (fun l => l.port = port)).getD ⟨port, 0, false, false, false, false⟩

/-- The latch a word's RSEL names (R464): the handshake latch is that of the word's own port, or, in a word with none, the latest. -/
def Micro.latch (m : Micro) (g : Engine) : Latch :=
  match m.rsel with
  | 0 => g.latchOf 0x20
  | 1 => g.latchOf 0x21
  | 2 => if m.hsport ≠ 0 then g.latchOf m.hsport else ((g.latches.find? (fun l => l.port < 0x20)).getD ⟨0, 0, false, false, false, false⟩)
  | _ => g.latchOf 0x22

/-- Operand B (R469). -/
def Micro.opB (m : Micro) (e : Eng) (g : Engine) : BitVec 64 :=
  match m.bsel with
  | 0 => g.reg m.srcb
  | 1 => (BitVec.ofNat 16 m.imm).signExtend 64
  | 2 => BitVec.ofNat 64 (m.imm * 2 ^ 16)
  | 3 => (m.latch g).value
  | 4 => g.latch
  | 5 => BitVec.ofNat 64 g.loop
  | 6 => BitVec.ofNat 64 (e.no + e.die * 2 ^ 8)
  | _ => BitVec.ofNat 64 g.stamp

/-- Zeros above the highest bit set, from bit `n` - 1 down. -/
def clzFrom (v : BitVec 64) : Nat → Nat
  | 0 => 0
  | n + 1 => if v.getLsbD n then 0 else 1 + clzFrom v n

/-- Bits set. -/
def popCount (v : BitVec 64) : Nat := (List.range 64).countP (fun i => v.getLsbD i)

/-- One bit of the reflected CRC-32C. -/
def crc32cBit (c : BitVec 32) (b : Bool) : BitVec 32 :=
  if c.getLsbD 0 != b then (c >>> 1) ^^^ 0x82F63B78#32 else c >>> 1

/-- Fold eight bytes into a CRC-32C value, least significant first (R468). -/
def crc32c (c : BitVec 32) (v : BitVec 64) : BitVec 32 := (List.range 64).foldl (fun c i => crc32cBit c (v.getLsbD i)) c

/-- Result and flags of the ALU: value, carry, overflow. -/
structure AluOut where
  value : BitVec 64
  carry : Bool
  ovf : Bool
  deriving DecidableEq, Repr

/-- A flag that the spec does not define for an operation (R467 names carry and overflow, R468 does not say them for it): a free value of
the operands. -/
def openFlag (tag op : Nat) (a b : BitVec 64) : Bool := decide (Config.openNat tag [op, a.toNat, b.toNat] % 2 = 1)

/-- The ALU (R468): `old` is the value DEST holds, for INS. -/
def alu (op shamt : Nat) (a b old : BitVec 64) : AluOut :=
  let free (v : BitVec 64) : AluOut := ⟨v, openFlag 1 op a b, openFlag 2 op a b⟩
  let k := b.toNat % 64
  let raw : AluOut := match op with
    | 0x01 => free a
    | 0x02 => free b
    | 0x03 => ⟨a + b, decide (2 ^ 64 ≤ a.toNat + b.toNat), decide ((a + b).toInt ≠ a.toInt + b.toInt)⟩
    | 0x04 => ⟨a - b, openFlag 1 op a b, decide ((a - b).toInt ≠ a.toInt - b.toInt)⟩
    | 0x05 => free (a &&& b)
    | 0x06 => free (a ||| b)
    | 0x07 => free (a ^^^ b)
    | 0x08 => free (a <<< k)
    | 0x09 => free (a >>> k)
    | 0x0A => free (a.sshiftRight k)
    | 0x0B => free (if a.toNat ≤ b.toNat then a else b)
    | 0x0C => free (if a.toNat ≤ b.toNat then b else a)
    | 0x0D => ⟨a - b, openFlag 1 op a b, decide ((a - b).toInt ≠ a.toInt - b.toInt)⟩
    | 0x0E => free (BitVec.ofNat 64 (a.toNat / 2 ^ shamt % 2 ^ k))
    | 0x0F => free (old - BitVec.ofNat 64 (old.toNat / 2 ^ shamt % 2 ^ k * 2 ^ shamt) + BitVec.ofNat 64 (a.toNat % 2 ^ k * 2 ^ shamt))
    | 0x10 => free (BitVec.ofNat 64 (clzFrom a 64))
    | 0x11 => free (BitVec.ofNat 64 (popCount a))
    | 0x12 => free ((crc32c (b.truncate 32) a).zeroExtend 64)
    | _ => free 0
  if op = 0x0E ∨ op = 0x0F then raw else { raw with value := raw.value <<< shamt }

/-- The condition of a word (R467), from the results of the word. -/
def Micro.holds (m : Micro) (e : Eng) (s : State) (g : Engine) (r : AluOut) (loop : Nat) : Bool :=
  let hs := if m.hsport ≠ 0 then g.latchOf m.hsport else ⟨0, 0, false, false, false, false⟩
  let c := match m.cond with
    | 0x00 => true
    | 0x01 => decide (r.value = 0)
    | 0x02 => r.value.msb
    | 0x03 => r.carry
    | 0x04 => r.ovf
    | 0x05 => decide (loop = 0)
    | 0x06 => hs.drained
    | 0x07 => (g.latchOf 0x20).ok
    | 0x08 => (g.latchOf 0x20).queued
    | 0x09 => (g.latchOf 0x21).ok
    | 0x0A => hs.ok
    | 0x0B => (g.latchOf 0x22).poisoned
    | 0x0C => ! g.events.isEmpty
    | 0x0D => decide (s.part.f = 2)
    | 0x0E => match e with
      | .rind d _ => decide (s.part.f = 1 ∨ s.rdR d R.STEP_STAT_LEASE = 1)
      | .curd _ => false
    | k => r.value.getLsbD (k - 0x20)
  c != m.cpol

/-! ## Events (R487 to R489) -/

/-- SAMPLE permits a class (R488). -/
def permits (sample cls : Nat) : Bool :=
  match sample with
  | 0 => false
  | 1 => decide (cls = 1 ∨ cls = 2 ∨ cls = 5)
  | 2 => decide (cls ≤ 5)
  | _ => decide (cls ≤ 7)

/-- The oldest queued event of a permitted class: the lowest step number; the queue is kept in arrival order (R488). -/
def Engine.nextEvent (g : Engine) (sample : Nat) : Option EngEvent :=
  (g.events.filter (fun v => permits sample v.cls)).foldl (fun best v =>
    match best with
    | none => some v
    | some b => if v.step < b.step then some v else some b) none

/-- Take an event at the word `pc` (R488): load the latch, push the next address, enter the class's vector. -/
def takeEvent (e : Eng) (v : EngEvent) (pc next : Nat) (s : State) : State :=
  if 8 ≤ (s.eng e).stack.length then syncFault e 1 pc s
  else
    let s := modEng e (fun g => { g with
      events := g.events.erase v, latch := v.data, stamp := v.stamp, lastStep := v.step, stack := next :: g.stack, since := s.now }) s
    let s := s.wr e.die e.fEvq (s.eng e).events.length
    let s := traceRec e 2 pc (v.cls * 2 ^ 29 + v.data.toNat % 2 ^ 29) s
    enterVector e v.cls s

/-- Time stamp of an event (R469, BSEL 7): the step's, or in F1 parts crystal milliseconds. -/
def State.eventStamp (s : State) (e : Eng) : Nat :=
  match e with
  | .rind d _ => if s.part.f = 2 then (s.rind d).step.stamp else s.now / 1000
  | .curd _ => s.now / 1000

/-- Queue an event at an engine (R487): a full queue of 16 stalls its sender, and nothing changes. -/
def postEvent (e : Eng) (cls : Nat) (data : BitVec 64) (s : State) : State :=
  if s.hasEng e ∧ (s.eng e).events.length < 16 then
    let step := match e with
      | .rind d _ => s.stepNo d
      | .curd _ => 0
    let s := modEng e (fun g => { g with events := g.events ++ [⟨cls, data, step, s.eventStamp e⟩] }) s
    s.wr e.die e.fEvq (s.eng e).events.length
  else s

/-! ## Executing a word -/

/-- The requests a word issues (R470 to R473): port, operation, the two data words, flags, irreversible. -/
def Micro.requests (m : Micro) (g : Engine) (curd : Bool) (pc : Nat) : List EngReq :=
  let a := g.reg m.srca
  let b := g.reg m.srcb
  (if m.issues then [⟨m.hsport, m.hsop, a, b, 0, pc, (portsOf curd).any (fun p => decide (p = (m.hsport, m.hsop, true))), false, false⟩] else []) ++
  (if m.vatop ≠ 0 then [⟨0x20, m.vatop, a, b, m.vatflg, pc, true, false, false⟩] else []) ++
  (if m.ldop ≠ 0 then [⟨0x21, m.ldop, a, b, 0, pc, decide (m.ldop = 4), false, false⟩] else []) ++
  (if m.memop ≠ 0 then [⟨0x22, m.memop, a, b, 0, pc, false, false, false⟩] else [])

/-- Ports whose response the word needs before it completes (R469, R479): a waited handshake, an irreversible operation's, a latch that it
reads. -/
def Micro.needs (m : Micro) (curd : Bool) : List Nat :=
  (if m.hsport ≠ 0 ∧ (m.hsact = 2 ∨ m.hsact = 3 ∨ m.cond = 6 ∨ m.cond = 0x0A ∨ (m.bsel = 3 ∧ m.rsel = 2)) then [m.hsport] else []) ++
  (if m.issues ∧ (portsOf curd).any (fun p => decide (p = (m.hsport, m.hsop, true))) then [m.hsport] else []) ++
  (if m.vatop ≠ 0 ∨ m.cond = 7 ∨ m.cond = 8 ∨ (m.bsel = 3 ∧ m.rsel = 0) then [0x20] else []) ++
  (if m.ldop = 4 ∨ m.cond = 9 ∨ (m.bsel = 3 ∧ m.rsel = 1) then [0x21] else []) ++
  (if m.cond = 0x0B ∨ (m.bsel = 3 ∧ m.rsel = 3) then [0x22] else [])

/-- The registers whose parity a word meets (R463, R482): those it names as sources, and DEST where it is inserted into. -/
def Micro.reads (m : Micro) : List Nat :=
  [m.srca, m.srcb] ++ (if m.mvdst ≠ 0 then [m.mvsrc] else []) ++ (if m.aluop = 0x0F then [m.dest] else [])

/-- The word meets wrong parity (R482): in a register that it reads, or in the return address that it pops. -/
def Micro.parity (m : Micro) (g : Engine) : Bool := g.bad.any (fun i => decide (i ∈ m.reads)) || (decide (m.nac = 5) && g.badStack)

/-- The stack is right for the word: a CALL has room, a RETURN has an address (R474). -/
def Micro.stackOk (m : Micro) (g : Engine) (taken : Bool) : Bool :=
  ! ((decide (m.nac = 3) || (decide (m.nac = 4) && taken)) && decide (8 ≤ g.stack.length)) && ! (decide (m.nac = 5) && g.stack.isEmpty)

/-- Where a completed word leads (R466, R479, R480, R488): its commit, its next address or the event it takes, and a fault that waited for the
commit. -/
def endWord (e : Eng) (pc next : Nat) (m : Micro) (s : State) : State :=
  let late := if m.commit then (s.eng e).late else none
  let event := if late.isNone ∧ (m.nac = 8 ∨ s.part.f = 1) then (s.eng e).nextEvent m.sample else none
  let commit (a : Nat) (s : State) : State := if m.commit then commitAt e a s else s
  let s := match m.nac, event with
    | 9, some v => takeEvent e v pc (s.vector e 7) (commit (s.vector e 7) (modEng e (fun g => { g with stack := [] }) s))
    | 9, none => enterVector e 7 (modEng e (fun g => { g with stack := [] }) s)
    | 8, some v => takeEvent e v pc next (commit next s)
    | 8, none => setEngState e engWaiting (setPc e pc (modEng e (fun g => { g with parked := some pc }) (commit next s)))
    | _, some v => takeEvent e v pc next (commit next (setPc e next s))
    | _, none => commit next (setPc e next s)
  match late with
  | some cause => syncFault e cause pc s
  | none => s

/-- Complete a word whose responses are all in (R466 to R469, R479, R488). A fault found in a word that has issued an irreversible operation is
taken after the word's commit (R480). -/
def finishWord (e : Eng) (pc : Nat) (m : Micro) (s : State) : State :=
  let g := s.eng e
  let a := g.reg m.srca
  let b := m.opB e g
  let r := alu m.aluop m.shamt a b (g.reg m.dest)
  let loop := match m.lcop with
    | 1 => (g.reg m.srcb).toNat % 2 ^ 16
    | 2 => (g.loop + 2 ^ 16 - 1) % 2 ^ 16
    | _ => g.loop
  let taken := m.holds e s g r loop
  if ! m.stackOk g taken then
    syncFault e 1 pc (if 0 < m.irreversible e.isCurd then commitAt e (m.naddr % (if e.isCurd then 2 ^ 12 else 2 ^ 14)) s else s)
  else
    let mv := g.reg m.mvsrc
    let g1 := if m.aluop = 0 ∨ m.aluop = 0x0D then g else g.setReg m.dest r.value
    let g2 := if m.mvdst = 0 then g1 else g1.setReg m.mvdst mv
    let loops := decide (m.nac = 6 ∧ loop ≠ 0)
    let next := match m.nac with
      | 1 => m.naddr
      | 2 => if taken then m.naddr else pc + 1
      | 3 => m.naddr
      | 4 => if taken then m.naddr else pc + 1
      | 5 => g.stack.headD 0
      | 6 => if loops then m.naddr else pc + 1
      | 7 => m.naddr + a.toNat % 16
      | _ => pc + 1
    let top := if e.isCurd then 2 ^ 12 else 2 ^ 14
    let next := next % top
    let stack := match m.nac with
      | 3 => (pc + 1) :: g.stack
      | 4 => if taken then (pc + 1) :: g.stack else g.stack
      | 5 => g.stack.tail
      | _ => g.stack
    let g3 := { g2 with
      loop := if loops then loop - 1 else loop, stack := stack, waiting := none
      timer := match m.tmrop with
        | 1 => some (s.now + (g.reg m.srcb).toNat)
        | 2 => none
        | _ => g.timer }
    let s := setEngState e engRunning (modEng e (fun _ => g3) s)
    let all := s.rd e.die (e.pick R.CULT_TRACECTL_ALL R.CDIE_FCTRACECTL_ALL) = 1
    let data := if m.hsport ≠ 0 ∧ m.hsact ≠ 0 then (g.latchOf m.hsport).value.toNat % 2 ^ 32 else r.value.toNat % 2 ^ 32
    let s := if m.trace ∨ all then traceRec e 1 pc data s else s
    endWord e pc next m s

/-- Execute the word at the program counter where its NAC is `nac` (R466, R470, R474, R484): issue its requests, then complete it, or wait
for a response. -/
def runWord (nac : Nat) (e : Eng) (s : State) : State :=
  let st := s.rd e.die e.fState
  let pc := s.rd e.die e.fPc
  let g := s.eng e
  let w := (s.storeOf e).word pc
  let m := microFields w
  if ! s.hasEng e ∨ st = engHalted ∨ g.waiting.isSome ∨ m.nac ≠ nac then s
  else if g.parked = some pc then
    match g.nextEvent m.sample with
    | some v => takeEvent e v pc ((pc + 1) % (if e.isCurd then 2 ^ 12 else 2 ^ 14)) s
    | none => s
  else
    let wrong := assocGet pc 0 (s.storeOf e).wrong
    let mend (s : State) : State := match e with
      | .rind d _ => s.modRind d (fun r => { r with store := { r.store with wrong := assocDel pc r.store.wrong } })
      | .curd c => s.modCurd c (fun r => { r with store := { r.store with wrong := assocDel pc r.store.wrong } })
    if 2 ≤ wrong then
      match e with
      | .rind d i => raise d 0x099 [i, pc] s
      | .curd c => { s with todo := s.todo ++ [.fatalCurd c] }
    else
      let s := if wrong = 1 then mend (s.inc e.die (e.pick R.CULT_STORE_CORR R.CDIE_FCSTORE_CORR)) else s
      if m.illegal e.isCurd ∨ configArea e.isCurd pc ∨ (m.memop ≠ 0 ∧ (g.reg m.srca).toNat % 8 ≠ 0) ∨ ! m.stackOk g false then syncFault e 1 pc s
      else if m.parity g then syncFault e 2 pc s
      else
        let rs := m.requests g e.isCurd pc
        if rs.any (fun r => g.reqs.any (fun q => q.port = r.port)) then setEngState e engWaiting s
        else
          let s := modEng e (fun g => { g with reqs := g.reqs ++ rs }) s
          if (m.needs e.isCurd).any (fun p => (s.eng e).reqs.any (fun q => q.port = p)) then
            setEngState e engWaiting (modEng e (fun g => { g with waiting := some pc }) s)
          else finishWord e pc m s

/-- A response reaches its latch (R469, R483): a waiting word that has all its responses completes. A second drain from one word before the
next commit is a synchronous fault. -/
def deliver (e : Eng) (l : Latch) (s : State) : State :=
  match (s.eng e).reqs.find? (fun q => q.port = l.port) with
  | none => s
  | some q =>
    if q.withheld ∧ ! l.drained then s
    else
      let again := decide ((l.port, q.pc) ∈ (s.eng e).drains)
      let s := modEng e (fun g => { g with
        reqs := g.reqs.erase q, latches := l :: g.latches.filter (fun x => x.port ≠ l.port)
        drains := if l.drained then (l.port, q.pc) :: g.drains else g.drains }) s
      let s := if l.drained then traceRec e 7 q.pc l.port s else s
      let s := if l.drained ∧ again ∧ (s.eng e).reqs.any EngReq.irrev then modEng e (fun g => { g with late := some 3 }) s else s
      if l.drained ∧ again ∧ ! (s.eng e).reqs.any EngReq.irrev then syncFault e 3 q.pc s
      else
        match (s.eng e).waiting with
        | none => s
        | some pc =>
          let m := microFields ((s.storeOf e).word pc)
          if (m.needs e.isCurd).any (fun p => (s.eng e).reqs.any (fun x => x.port = p)) then s else finishWord e pc m s

/-- A unit answers a request of an engine with OK and a value. -/
def answer (e : Eng) (port : Nat) (v : BitVec 64) (ok : Bool) (s : State) : State :=
  (deliver e ⟨port, v, ok, false, false, false⟩ s).emit (.response v.toNat)

/-- The value of a response that the spec gives no layout or no value: free, of the port, the operation and what they depend on. -/
def openReply (port op : Nat) (args : List Nat) : BitVec 64 := BitVec.ofNat 64 (Config.openNat 15 (port :: op :: args))

/-- A unit answers the request of an engine at a port, where that operation is outstanding there (R470). -/
def reply (e : Eng) (port op : Nat) (v : BitVec 64) (ok : Bool) (s : State) : State :=
  if (s.eng e).reqs.any (fun q => decide (q.port = port ∧ q.op = op)) then answer e port v ok s else s

/-- A unit of a die answers every engine whose request for an operation is outstanding (R470). -/
def answerAny (d : RSlot) (port op : Nat) (v : BitVec 64) (ok : Bool) (s : State) : State :=
  (List.range 8).foldl (fun t i => reply (.rind d i) port op v ok t) s

/-- The response to a drained request (R38, R483). -/
def drainReq (e : Eng) (port : Nat) (s : State) : State := deliver e ⟨port, 0, false, true, false, false⟩ s

/-- A stall watch drains a request port of a Rind engine. -/
def drainEngine (d : RSlot) (e p : Nat) (s : State) : State := drainReq (.rind d e) p s

/-- A stall watch drains a request port of a formatter. -/
def drainFormatter (g p : Nat) (s : State) : State := drainReq (.curd g) p s

/-- Withhold the acknowledge of a pending request (R568, MODE 0x3): none where no request is pending. -/
def plantWithhold (d : RSlot) (eng port : Nat) (s : State) : Option State :=
  if ((s.rind d).engines.getD eng {}).reqs.any (fun q => q.port = port) then
    some (modEng (.rind d eng) (fun g => { g with reqs := g.reqs.map (fun q => if q.port = port then { q with withheld := true } else q) }) s)
  else none

/-- Function reset of an engine (R553): its registers are cleared and it enters its dispatch vector. -/
def resetEngine (e : Eng) (s : State) : State :=
  enterVector e 7 (modEng e (fun g => { g with regs := [], bad := [], badStack := false, loop := 0, stack := [], reqs := [], latches := [], timer := none, message := none, held := [], drains := [], late := none }) s)

/-- Release an engine at step 11 (R91, R462): it enters its dispatch vector; an engine whose group is absent stays idle there. -/
def releaseEngine (d : RSlot) (i : Nat) (s : State) : State :=
  let s := enterVector (.rind d i) 7 (modEng (.rind d i) (fun _ => {}) s)
  if i < 6 ∧ ! (s.rdR d R.DEV_DIEPRES_CPRES).testBit i then setEngState (.rind d i) engIdle s else s

/-! ## The control store (R475 to R478, R491) -/

/-- Load the Rind control store (R475): its engines wait for step 11. -/
def loadRindStore (d : RSlot) (img : SlotImage) (s : State) : State :=
  (s.modRind d (fun r => { r with store := ⟨storeWords 1 3 img, []⟩ })).wrR d R.CULT_STORE_LOADED 1

/-- Load the store of a Curd die (R475): LOADED is set and the formatter enters its dispatch vector. -/
def loadCurdStore (g : Nat) (img : SlotImage) (s : State) : State :=
  let s := (s.modCurd g (fun c => { c with store := ⟨storeWords 2 4 img, []⟩, eng := {}, scratch := [] })).wrC g R.CDIE_FCSTORE_LOADED 1
  enterVector (.curd g) 7 s

/-- A word of a store as CULT_CSDATA `i` shows it (R491). -/
def storeWindow (w : MicroWord) (i : Nat) : Word := BitVec.ofNat 32 (w.toNat / 2 ^ (32 * i))

/-- CULT_CSDATA `i` of a die: the word at CULT_CSADDR. -/
def State.storeView (s : State) (d : RSlot) (i : Nat) : Word := storeWindow ((s.rind d).store.word (s.rdR d R.CULT_CSADDR_ADDR)) i

/-- CDIE_FCCSDATA `i` of a Curd die. -/
def State.curdStoreView (s : State) (g i : Nat) : Word := storeWindow ((s.curd g).store.word (s.rdC g R.CDIE_FCCSADDR_ADDR)) i

end Sys2Proof.Machine
end

