-- ==== Sys2Proof/Machine/LadleOps.lean ====
section
/-! DEFINITION. Heads and attachments (R107, R108), and the Ladle: descriptors, transfers, lists, hand-over, bus errors (R448 to R460). -/

namespace Sys2Proof.Machine

/-! ## Heads -/

/-- The domain is attached on die `d` (R108). -/
def State.attached (s : State) (d : RSlot) (dom : Nat) : Bool :=
  s.bitR d (if d = .f0 then R.LINK_DOMCFG_ONF0 dom else R.LINK_DOMCFG_ONF1 dom)

/-- The attachment a head works in (R105): a written MODE takes effect at the head's next link training; before the heads are released it is the
one they will train with (DEDUCED 144). -/
def State.modeOf (s : State) (d : RSlot) (h : Nat) : Nat :=
  if s.boot.released then (s.rind d).modes.getD h 0 else s.rdR d (R.LINK_HEADCFG_MODE h)

/-- Two domains, as die `d`'s registers describe them, name the same attachment on some die (R108): the same head, and the same logical
device where the head is switched. -/
def State.sameAttachment (s : State) (d : RSlot) (a b : Nat) : Bool :=
  let h := s.rdR d (R.LINK_DOMCFG_HEAD a)
  decide (h = s.rdR d (R.LINK_DOMCFG_HEAD b)) &&
  (decide (s.modeOf d h ≠ 2) || decide (s.rdR d (R.LINK_DOMCFG_LDID a) = s.rdR d (R.LINK_DOMCFG_LDID b))) &&
  ((s.bitR d (R.LINK_DOMCFG_ONF0 a) && s.bitR d (R.LINK_DOMCFG_ONF0 b)) || (s.bitR d (R.LINK_DOMCFG_ONF1 a) && s.bitR d (R.LINK_DOMCFG_ONF1 b)))

/-- The head of die `d` that carries a domain, where it is attached there and the head is up, and not as a PCIe link (R103, R107, R108). -/
def State.headOf (s : State) (d : RSlot) (dom : Nat) : Option Nat :=
  let h := s.rdR d (R.LINK_DOMCFG_HEAD dom)
  if s.bitR d (R.LINK_DOMCFG_EN dom) ∧ s.attached d dom ∧ s.rdR d (R.LINK_HEADSTAT_STATE h) = 2 ∧ s.rdR d (R.LINK_HEADSTAT_PROTO h) ≠ 1 then some h else none

/-- A write goes out on a die's head for a domain; while the head is down nothing goes (R107). -/
def hostPut (d : RSlot) (dom addr : Nat) (data : List Byte) (s : State) : State :=
  match s.headOf d dom with
  | none => s
  | some h => s.emit (.hostWrite d h addr data)

/-- Data of a command goes out on a die's head; while the head is down it is held (R107, R140). -/
def hostSend (d : RSlot) (dom addr : Nat) (data : List Byte) (s : State) : State :=
  match s.headOf d dom with
  | none => s.modRind d (fun r => { r with held := r.held ++ [(dom, addr, data)] })
  | some h => s.emit (.hostWrite d h addr data)

/-- A head is up again: the data held for it goes out, in order (R107). -/
def releaseHeld (d : RSlot) (s : State) : State :=
  let l := (s.rind d).held
  let s := s.modRind d (fun r => { r with held := r.held.filter (fun e => (s.headOf d e.1).isNone) })
  l.foldl (fun t e => hostPut d e.1 e.2.1 e.2.2 t) s

/-- Write data to host memory (R499, R501, R502): it enters the die's digest; with STEP_CFG.SWRITE only the senior writes; the data of a command
is kept until its completion is written. -/
def hostWrite (d : RSlot) (uid : Option Nat) (dom addr : Nat) (data : List Byte) (s : State) : State :=
  let s := digestAdd d (natLe 8 addr ++ data) s
  let s := if s.inTwo ∧ d ≠ s.senior ∧ s.rdR d R.STEP_CFG_SWRITE = 1 then s else hostSend d dom addr data s
  match uid with
  | some u => if d = s.senior then { s with hostLog := s.hostLog ++ [(u, dom, addr, data)] } else s
  | none => s

/-! ## Descriptors (R448) -/

/-- A Ladle descriptor. -/
structure LDesc where
  haddr : Nat
  baddr : Nat
  len : Nat
  sgl : Bool
  cont : Bool
  dir : Nat
  noalloc : Bool
  domain : Nat
  evtgt : Nat
  /-- Bits [63:36] of words 2 and 3, and the reserved bits of word 5. -/
  rsvd : Nat
  deriving DecidableEq, Repr

/-- The fields of six descriptor words. -/
def ldesc (w0 w1 w2 w3 w4 w5 : Nat) : LDesc where
  haddr := w0 + w1 * 2 ^ 32
  baddr := w2 + w3 % 16 * 2 ^ 32
  len := w4
  sgl := w5.testBit 31
  cont := w5.testBit 30
  dir := w5 / 2 ^ 28 % 4
  noalloc := w5.testBit 27
  domain := w5 / 2 ^ 23 % 16
  evtgt := w5 / 2 ^ 19 % 16
  rsvd := w3 / 16 + w5 % 2 ^ 19

/-- The active set of a channel. -/
def State.ladleAct (s : State) (d : RSlot) (c : Nat) : LDesc :=
  ldesc (s.rdR d (R.LADLE_ACT0_W c)) (s.rdR d (R.LADLE_ACT1_W c)) (s.rdR d (R.LADLE_ACT2_W c)) (s.rdR d (R.LADLE_ACT3_W c))
    (s.rdR d (R.LADLE_ACT4_W c)) (s.rdR d (R.LADLE_ACT5_W c))

/-- The shadow set of a channel. -/
def State.ladleShd (s : State) (d : RSlot) (c : Nat) : LDesc :=
  ldesc (s.rdR d (R.LADLE_SHD0_W c)) (s.rdR d (R.LADLE_SHD1_W c)) (s.rdR d (R.LADLE_SHD2_W c)) (s.rdR d (R.LADLE_SHD3_W c))
    (s.rdR d (R.LADLE_SHD4_W c)) (s.rdR d (R.LADLE_SHD5_W c))

/-- Words 4 and 5 hold fields in their ranges (R448, R454). -/
def LDesc.ctlOk (x : LDesc) : Bool :=
  decide (1 ≤ x.len ∧ x.len ≤ 8388608 ∧ x.dir ≠ 0 ∧ x.evtgt ≤ 0xA ∧ ! (x.dir = 3 ∧ (x.sgl ∨ x.cont)))

/-- The request port takes the descriptor (R448). -/
def LDesc.ok (x : LDesc) : Bool :=
  x.ctlOk && decide (x.rsvd = 0) && ! (x.sgl && ! x.cont && decide (x.haddr % 16 ≠ 0)) && ! decide (x.dir = 3 ∧ 2 ^ 36 ≤ x.haddr)

/-- Channel STATE codes (LADLE_CHSTAT). -/
def chIdle : Nat := 0
/-- ACTIVE. -/
def chActive : Nat := 1
/-- STOPPED (R457). -/
def chStopped : Nat := 2
/-- ERROR (R452, R458). -/
def chError : Nat := 3

/-- STATE of a channel. -/
def State.chState (s : State) (d : RSlot) (c : Nat) : Nat := s.rdR d (R.LADLE_CHSTAT_STATE c)

/-- A channel's own state. -/
def State.ladleCh (s : State) (d : RSlot) (c : Nat) : LadleCh := assocGet c {} (s.rind d).ladle.chans

/-- Change a channel's own state. -/
def modCh (d : RSlot) (c : Nat) (f : LadleCh → LadleCh) (s : State) : State :=
  s.modRind d (fun r => { r with ladle := { r.ladle with chans := assocPut c (f (assocGet c {} r.ladle.chans)) r.ladle.chans } })

/-- PEND of a channel. -/
def State.pend (s : State) (d : RSlot) (c : Nat) : Bool := (s.rdR d R.LADLE_SHADOW_PEND_PEND).testBit c

/-- Set or clear PEND of a channel. -/
def setPend (d : RSlot) (c : Nat) (on : Bool) (s : State) : State :=
  let p := s.rdR d R.LADLE_SHADOW_PEND_PEND
  s.wrR d R.LADLE_SHADOW_PEND_PEND (if on then p ||| 2 ^ c else if p.testBit c then p - 2 ^ c else p)

/-- The channels are stopped by a bus error, or the isolation pass runs (R457). -/
def State.ladleStopped (s : State) (d : RSlot) : Bool := s.bitR d R.LADLE_STAT_STOPPED

/-- The transfer of a channel is described by a list (R449, R450). -/
def LadleCh.listed (x : LadleCh) : Bool := decide (2 ^ 64 ≤ x.head)

/-! ## Events (R454) -/

/-- Room for a channel's event: a full event queue stalls the sender (R487). -/
def State.evtRoom (s : State) (d : RSlot) (tgt : Nat) : Bool :=
  if 1 ≤ tgt ∧ tgt ≤ 8 then decide ((s.eng (.rind d (tgt - 1))).events.length < 16) else true

/-- Raise a channel's event: the spec does not lay out its 64 bits, which are a free value of channel, status and bytes. -/
def ladleEvent (d : RSlot) (c status bytes : Nat) (s : State) : State :=
  let tgt := (s.ladleAct d c).evtgt
  let s := s.wrR d (R.LADLE_CHSTAT_LASTEVT c) status
  if 1 ≤ tgt ∧ tgt ≤ 8 then postEvent (.rind d (tgt - 1)) 1 (BitVec.ofNat 64 (Config.openNat 10 [c, status, bytes])) s else s

/-! ## Hand-over (R453) -/

/-- Bytes that the fetched list segments still cover. -/
def LadleCh.covered (x : LadleCh) : Nat := (x.segs.map Prod.snd).sum

/-- A channel enters ERROR (R452): a pending shadow set with CONT set is discarded. -/
def enterError (d : RSlot) (c status : Nat) (s : State) : State :=
  let s := s.wrR d (R.LADLE_CHSTAT_STATE c) chError
  let s := if s.pend d c ∧ (s.ladleShd d c).cont then setPend d c false s else s
  ladleEvent d c status (s.rdR d (R.LADLE_CHACK_BYTES c)) s

/-- A chain error (R452). -/
def chainError (d : RSlot) (c : Nat) (s : State) : State := enterError d c 1 (s.incR d R.LADLE_ERRCNT_CHAIN)

/-- Copy the shadow set to the active set and start the descriptor (R449, R453): a clear CONT begins a transfer. A list whose END has been
consumed with bytes still to cover is a chain error (R452). -/
def copyShadow (d : RSlot) (c : Nat) (s : State) : State :=
  let x := s.ladleShd d c
  let s := s.wrR d (R.LADLE_ACT0_W c) (s.rdR d (R.LADLE_SHD0_W c))
  let s := s.wrR d (R.LADLE_ACT1_W c) (s.rdR d (R.LADLE_SHD1_W c))
  let s := s.wrR d (R.LADLE_ACT2_W c) (s.rdR d (R.LADLE_SHD2_W c))
  let s := s.wrR d (R.LADLE_ACT3_W c) (s.rdR d (R.LADLE_SHD3_W c))
  let s := s.wrR d (R.LADLE_ACT4_W c) (s.rdR d (R.LADLE_SHD4_W c))
  let s := s.wrR d (R.LADLE_ACT5_W c) (s.rdR d (R.LADLE_SHD5_W c))
  let s := setPend d c false ((s.wrR d (R.LADLE_CHACK_BYTES c) 0).wrR d (R.LADLE_CHSTAT_STATE c) chActive)
  if x.cont then
    let y := s.ladleCh d c
    if y.listed ∧ y.nextEntry.isNone ∧ y.covered < x.len then chainError d c s else s
  else
    let s := (s.wrR d (R.LADLE_CHSTAT_DESCS c) 0).wrR d (R.LADLE_XFER_HOPCNT c) 0
    modCh d c (fun _ => { base := 0, head := x.haddr + (if x.sgl then 2 ^ 64 else 0), segs := [], nextEntry := if x.sgl then some x.haddr else none
                          skip := 0, hopMax := s.rdR d R.LADLE_HOPMAX_MAX }) s

/-- A channel that is IDLE, or in ERROR with a new transfer armed, starts (R452, R453); while the Ladle is stopped nothing starts (R457). -/
def tryStart (d : RSlot) (c : Nat) (s : State) : State :=
  if ! s.pend d c then s
  else if s.chState d c = chError ∧ (s.ladleShd d c).cont then setPend d c false s
  else if s.ladleStopped d then s
  else if s.chState d c = chIdle ∨ s.chState d c = chError then copyShadow d c s
  else s

/-- Write two descriptor words of the shadow set (R453, R472): pair 0 is words 0 and 1. A pair whose fields are out of range is refused. -/
def shadowWrite (d : RSlot) (c pair : Nat) (v : BitVec 64) (s : State) : Bool × State :=
  let lo := v.toNat % 2 ^ 32
  let hi := v.toNat / 2 ^ 32
  match pair with
  | 0 => (true, (s.wrR d (R.LADLE_SHD0_W c) lo).wrR d (R.LADLE_SHD1_W c) hi)
  | 1 => if (ldesc 0 0 lo hi 0 0).rsvd = 0 then (true, (s.wrR d (R.LADLE_SHD2_W c) lo).wrR d (R.LADLE_SHD3_W c) hi) else (false, s)
  | 2 =>
    let x := ldesc 0 0 0 0 lo hi
    if x.ctlOk ∧ x.rsvd = 0 then (true, (s.wrR d (R.LADLE_SHD4_W c) lo).wrR d (R.LADLE_SHD5_W c) hi) else (false, s)
  | _ => (false, s)

/-- Arm the shadow set (R453): refused where the descriptor is not a good one (R448). -/
def armChannel (d : RSlot) (c : Nat) (s : State) : Bool × State :=
  if (s.ladleShd d c).ok then (true, tryStart d c (setPend d c true s)) else (false, s)

/-! ## Lists (R450 to R452) -/

/-- What walking the entries of a block leaves: hops, the next entry, the segments, bytes to pass over, whether the list is bad. -/
structure Walk where
  hops : Nat
  next : Option Nat
  segs : List (Nat × Nat)
  skip : Nat
  bad : Bool := false
  deriving DecidableEq, Repr

/-- A segment with the bytes passed over taken off it. -/
def segAfter (addr len skip : Nat) : List (Nat × Nat) := if len ≤ skip then [] else [(addr + skip, len - skip)]

/-- Walk up to `n` entries of the block at `block` (R450 to R452): `need` bytes are to be covered, at most `top` entries fetched. -/
def walkList (top need block : Nat) (bytes : List Byte) : Nat → Walk → Walk
  | 0, w => w
  | n + 1, w =>
    match w.next with
    | none => if (w.segs.map Prod.snd).sum < need then { w with bad := true } else w
    | some a =>
      if need ≤ (w.segs.map Prod.snd).sum ∨ w.bad ∨ a / 64 * 64 ≠ block then w
      else if top < w.hops + 1 then { w with bad := true }
      else
        let e := bytes.drop (a - block)
        let addr := leNat (e.take 8)
        let len := leNat ((e.drop 8).take 4)
        let flags := leNat ((e.drop 12).take 4)
        let w := { w with hops := w.hops + 1 }
        let done := flags.testBit 1
        if 4 ≤ flags ∨ (flags.testBit 0 ∧ (len ≠ 0 ∨ addr % 16 ≠ 0)) then { w with bad := true }
        else if flags.testBit 0 then
          { w with next := if done then none else some addr, bad := done && decide ((w.segs.map Prod.snd).sum < need) }
        else
          let w := { w with next := if done then none else some (a + 16), segs := w.segs ++ segAfter addr len w.skip, skip := w.skip - len }
          if done ∧ (w.segs.map Prod.snd).sum < need then { w with bad := true }
          else walkList top need block bytes n w

/-- Bytes of the active descriptor not yet acknowledged. -/
def State.ladleLeft (s : State) (d : RSlot) (c : Nat) : Nat := (s.ladleAct d c).len - s.rdR d (R.LADLE_CHACK_BYTES c)

/-- The channel may move: ACTIVE, and alone where a pass runs (R458). -/
def State.chRuns (s : State) (d : RSlot) (c : Nat) : Bool :=
  decide (s.chState d c = chActive) && (! s.ladleStopped d || decide (s.rdR d R.LADLE_STAT_PASSCH = c))

/-- A 64-byte read of list entries returns (R451). -/
def listBlock (d : RSlot) (c : Nat) (bytes : List Byte) (s : State) : State :=
  let x := s.ladleCh d c
  let need := s.ladleLeft d c
  match x.nextEntry with
  | none => s
  | some a =>
    if ! s.chRuns d c ∨ ! x.listed ∨ need ≤ x.covered ∨ bytes.length ≠ 64 then s
    else
      let w := walkList x.hopMax need (a / 64 * 64) bytes 4 ⟨s.rdR d (R.LADLE_XFER_HOPCNT c), some a, x.segs, x.skip, false⟩
      let s := modCh d c (fun x => { x with segs := w.segs, nextEntry := w.next, skip := w.skip }) (s.wrR d (R.LADLE_XFER_HOPCNT c) w.hops)
      if w.bad then chainError d c s else s

/-! ## Moving data (R449, R454, R455) -/

/-- Segments with `n` bytes taken off their front. -/
def dropSegs : Nat → List (Nat × Nat) → List (Nat × Nat)
  | _, [] => []
  | n, (a, l) :: rest => if l ≤ n then dropSegs (n - l) rest else (a + n, l - n) :: rest

/-- The host addresses of the first `n` bytes of segments. -/
def takeSegs : Nat → List (Nat × Nat) → List (Nat × Nat)
  | _, [] => []
  | 0, _ => []
  | n, (a, l) :: rest => (a, min l n) :: takeSegs (n - l) rest

/-- The host pieces of the next `n` bytes of a channel: the list's segments, or the run that continues from HADDR (R448, R449). -/
def State.hostPieces (s : State) (d : RSlot) (c n : Nat) : List (Nat × Nat) :=
  let x := s.ladleCh d c
  if x.listed then takeSegs n x.segs else [(x.head + x.base + s.rdR d (R.LADLE_CHACK_BYTES c), n)]

/-- Acknowledge `n` more bytes of the active descriptor (R455). -/
def ladleAck (d : RSlot) (c n : Nat) (s : State) : State :=
  let s := modCh d c (fun x => { x with segs := dropSegs n x.segs, drained := false }) s
  s.wrR d (R.LADLE_CHACK_BYTES c) (s.rdR d (R.LADLE_CHACK_BYTES c) + n)

/-- Answered host bytes reach buffer memory (R455): as many as the descriptor, and for a list its fetched segments, cover. -/
def hostData (d : RSlot) (c : Nat) (data : List Byte) (s : State) : State :=
  let x := s.ladleAct d c
  let y := s.ladleCh d c
  if s.chRuns d c ∧ x.dir = 1 then
    let n := min (s.ladleLeft d c) (if y.listed then y.covered else data.length)
    let bytes := data.take n
    ladleAck d c bytes.length (caveWrite d (.ladle c) (x.baddr + s.rdR d (R.LADLE_CHACK_BYTES c)) bytes x.noalloc s)
  else s

/-- Write data to host memory over its pieces. -/
def writePieces (d : RSlot) (uid : Option Nat) (dom : Nat) : List (Nat × Nat) → List Byte → State → State
  | [], _, s => s
  | (a, l) :: rest, data, s => writePieces d uid dom rest (data.drop l) (hostWrite d uid dom a (data.take l) s)

/-- The descriptor can end (R454, R456): every byte from the host is in; for a move to the host the list covers it and the head is up; its
event has room. -/
def State.canEnd (s : State) (d : RSlot) (c : Nat) : Bool :=
  let x := s.ladleAct d c
  s.chRuns d c && s.evtRoom d x.evtgt &&
  (match x.dir with
   | 1 => decide (s.ladleLeft d c = 0)
   | 2 => (! (s.ladleCh d c).listed || decide (s.ladleLeft d c ≤ (s.ladleCh d c).covered)) && (s.headOf d x.domain).isSome
   | _ => true)

/-- Move what is left of a descriptor to the host, or within buffer memory: whether the data was poisoned, and the state. `deliver` makes the bytes that
the command delivers of those that buffer memory holds there, with what lies at the destination of a move within buffer memory. -/
def moveRest (d : RSlot) (uid : Option Nat) (c : Nat) (deliver : Nat → List Byte → List Byte → List Byte) (s : State) : Bool × State :=
  let x := s.ladleAct d c
  let n := s.ladleLeft d c
  let pos := s.rdR d (R.LADLE_CHACK_BYTES c)
  match x.dir with
  | 2 =>
    let r := caveRead d (.ladle c) (x.baddr + pos) n x.noalloc s
    (r.2.1, ladleAck d c n (writePieces d uid x.domain (s.hostPieces d c n) (deliver pos r.1 []) r.2.2))
  | 3 =>
    let r := caveRead d (.ladle c) (x.haddr + pos) n x.noalloc s
    let old := caveRead d (.ladle c) (x.baddr + pos) n x.noalloc r.2.2
    (r.2.1, ladleAck d c n (caveWrite d (.ladle c) (x.baddr + pos) (deliver pos r.1 old.1) x.noalloc old.2.2))
  | _ => (false, s)

/-- A descriptor ends with OK (R454), and the channel reaches its boundary (R453): the next set is copied, or the channel is IDLE. In a pass
it takes no hand-over (R458). -/
def endDescriptor (d : RSlot) (c : Nat) (s : State) : State :=
  let x := s.ladleAct d c
  let s := ladleEvent d c 0 x.len (s.incR d (R.LADLE_CHSTAT_DESCS c))
  let s := modCh d c (fun y => { y with base := y.base + x.len }) s
  tryStart d c (s.wrR d (R.LADLE_CHSTAT_STATE c) chIdle)

/-! ## Bus errors and the isolation pass (R457 to R460) -/

/-- Every channel stops (R457). -/
def stopChannels (d : RSlot) (s : State) : State :=
  let s := (List.range 32).foldl (fun t c => if t.chState d c = chActive then t.wrR d (R.LADLE_CHSTAT_STATE c) chStopped else t) s
  raise d 0x090 [] (s.modRind d (fun r => { r with ladle := { r.ladle with pass := none } }) |>.wrR d R.LADLE_STAT_STOPPED 1)

/-- A host read of a channel goes unanswered (R457, R458): alone in a pass, the channel is the culprit; otherwise every channel stops. -/
def busError (d : RSlot) (c : Nat) (s : State) : State :=
  if ! s.chRuns d c then s
  else
    let s := s.incR d R.LADLE_ERRCNT_BUSERR
    if s.ladleStopped d then
      let s := s.modRind d (fun r => { r with ladle := { r.ladle with pass := r.ladle.pass.map (fun p => (p.1, true)) } })
      enterError d c 2 (s.incR d R.LADLE_ERRCNT_CULPRIT)
    else stopChannels d s

/-- Restart a stopped channel alone (R458): a list is walked again from its first entry up to the acknowledged byte. -/
def resumeAlone (d : RSlot) (c : Nat) (s : State) : State :=
  let s := (s.wrR d R.LADLE_STAT_PASSCH c).wrR d (R.LADLE_CHSTAT_STATE c) chActive
  let x := s.ladleCh d c
  if x.listed then
    modCh d c (fun x => { x with segs := [], nextEntry := some (x.head - 2 ^ 64), skip := x.base + s.rdR d (R.LADLE_CHACK_BYTES c) })
      (s.wrR d (R.LADLE_XFER_HOPCNT c) 0)
  else s

/-- Every channel has been tried: they run together, and pending hand-overs take place (R458). -/
def endPass (d : RSlot) (found : Bool) (s : State) : State :=
  let s := s.modRind d (fun r => { r with ladle := { r.ladle with pass := none } })
  let s := (s.wrR d R.LADLE_STAT_STOPPED 0).wrR d R.LADLE_STAT_PASSCH 0
  let s := if found then s else s.incR d R.LADLE_ERRCNT_NOCULP
  (List.range 32).foldl (fun t c => tryStart d c t) s

/-- Try the next channel of the pass, or end it. -/
def nextTry (d : RSlot) (left : List Nat) (found : Bool) (s : State) : State :=
  match left with
  | c :: rest => resumeAlone d c (s.modRind d (fun r => { r with ladle := { r.ladle with pass := some (rest, found) } }))
  | [] => endPass d found s

/-- A step of the isolation pass (R458): it begins with the channels that were active, in ascending order, and goes on once the channel being
tried has ended. `skip` says that the command of the channel has timed out: it is stopped if it is running. -/
def passStep (d : RSlot) (skip : Bool) (s : State) : State :=
  if ! s.ladleStopped d then s
  else
    match (s.rind d).ladle.pass with
    | none => nextTry d ((List.range 32).filter (fun c => s.chState d c = chStopped)) false s
    | some (left, found) =>
      let c := s.rdR d R.LADLE_STAT_PASSCH
      if s.chState d c = chActive then
        if skip then nextTry d left found (s.wrR d (R.LADLE_CHSTAT_STATE c) chIdle) else s
      else
        match skip, left with
        | true, k :: rest => nextTry d rest found (s.wrR d (R.LADLE_CHSTAT_STATE k) chIdle)
        | _, _ => nextTry d left found s

/-- The channel waits on host memory (R40, R456): for host bytes, for list entries, or for a head that is down. -/
def State.onHost (s : State) (d : RSlot) (c : Nat) : Bool :=
  let x := s.ladleAct d c
  let y := s.ladleCh d c
  decide (x.dir = 1 ∧ s.ladleLeft d c ≠ 0) || (y.listed && decide (y.covered < s.ladleLeft d c)) ||
  (decide (x.dir = 2) && (s.headOf d x.domain).isNone)

/-- A drained stage of a channel (R38, R483): the token goes back, marked drained, to the channel, which issues it again; one that drains again
before the channel has moved passes upward, to the routine of the engine that owns the channel. -/
def drainLadle (d : RSlot) (c : Nat) (s : State) : State :=
  if (s.ladleCh d c).drained then
    syncFault (.rind d (c / 4)) 3 (s.rd d.code (Eng.fPc (.rind d (c / 4)))) (modCh d c (fun x => { x with drained := false }) s)
  else modCh d c (fun x => { x with drained := true }) s

/-- Function reset of the Ladle (R452, R553): channels in ERROR return to IDLE, active ones stop, and an isolation pass is due, which ends
with every channel IDLE. -/
def resetLadle (d : RSlot) (s : State) : State :=
  let s := (List.range 32).foldl (fun t c =>
    if t.chState d c = chError then t.wrR d (R.LADLE_CHSTAT_STATE c) chIdle
    else if t.chState d c = chActive then t.wrR d (R.LADLE_CHSTAT_STATE c) chStopped else t) s
  (s.modRind d (fun r => { r with ladle := { r.ladle with pass := none } })).wrR d R.LADLE_STAT_STOPPED 1

end Sys2Proof.Machine
end

