-- ==== Sys2Proof/Machine/XlatOps.lean ====
section
/-! DEFINITION. The translation engine: tables, slots, volumes, bands, the journal, relocation, and the version lists of the write buffer
(R209 to R215, R236 to R259, R582). -/

namespace Sys2Proof.Machine

/-! ## Fields that both dies hold alike -/

/-- Store a field on every serving die. -/
def wrAll (f : Fld) (v : Nat) (s : State) : State := inStep (fun d t => t.wrR d f v) s

/-- Advance a counter on every serving die. -/
def incAll (f : Fld) (n : Nat) (s : State) : State := inStep (fun d t => t.incR d f n) s

/-- A field as the senior holds it. -/
def State.rdS (s : State) (f : Fld) : Nat := s.rdR s.senior f

/-- Raise a source on every serving die. -/
def raiseAll (src : Nat) (detail : List Nat) (s : State) : State := inStep (fun d t => raise d src detail t) s

/-! ## Descriptors (R133, R171, R181, R183, R184) -/

/-- A little-endian field of a command's descriptor. -/
def Cmd.fld (c : Cmd) (off len : Nat) : Nat := leNat ((c.desc.drop off).take len)

/-- OPCODE. -/
def Cmd.op (c : Cmd) : Nat := c.fld 0 1

/-- A FLAGS bit (R170). -/
def Cmd.flag (c : Cmd) (i : Nat) : Bool := (c.fld 1 1).testBit i

/-- VOLUME. -/
def Cmd.vol (c : Cmd) : Nat := c.fld 4 1

/-- SLBA: an APPEND's assigned first block (R174). -/
def Cmd.slba (c : Cmd) : Nat := if c.op = 3 then c.first else c.fld 8 8

/-- NBLK. -/
def Cmd.nblk (c : Cmd) : Nat := c.fld 0x10 4

/-- The command's range holds a block of a volume (a COPY's source range). -/
def Cmd.covers (c : Cmd) (v blk : Nat) : Bool := decide (c.vol = v ∧ c.slba ≤ blk ∧ blk < c.slba + c.nblk)

/-! ## Tables (R246) -/

/-- Change the translation engine. -/
def modXlat (f : Xlat → Xlat) (s : State) : State := { s with xlat := f s.xlat }

/-- Change the tables. -/
def modT (f : Tables → Tables) (s : State) : State := modXlat (fun x => { x with t := f x.t }) s

/-- A volume, where present. -/
def Tables.vol? (t : Tables) (v : Nat) : Option Volume := (t.vols.find? (fun p => p.1 = v)).map Prod.snd

/-- Store a volume. -/
def Tables.putVol (t : Tables) (v : Nat) (x : Volume) : Tables := { t with vols := assocPut v x t.vols }

/-- The band map entry of a slot. -/
def Tables.bandAt (t : Tables) (sl : SlotNo) : Option Band := t.bands.find? (fun b => b.slot = sl)

/-- Store a band map entry. -/
def Tables.putBand (t : Tables) (b : Band) : Tables := { t with bands := b :: t.bands.filter (fun x => x.slot ≠ b.slot) }

/-- The entry maps a unit or band of a volume. -/
def Band.mapped (b : Band) : Bool := decide (b.state = .inUse ∨ b.state = .opened ∨ b.state = .releasedHeld ∨ b.state = .relocSource)

/-- The band that holds unit or band `i` of a volume: the source of a relocation until its switch (R259). -/
def Tables.bandOf (t : Tables) (v i : Nat) : Option Band := t.bands.find? (fun b => b.vol = v ∧ b.vband = i ∧ b.mapped)

/-- A volume of the Stream class. -/
def Volume.stream (x : Volume) : Bool := decide (x.desc.cls = 2)

/-- A Stream band is the open one: WP lies before its end (R254). -/
def Tables.bandOpen (t : Tables) (b : Band) : Bool :=
  match t.vol? b.vol with
  | some x => x.stream && decide (x.wp < 65536 * (b.vband + 1))
  | none => false

/-- The group of a slot (R226). -/
def SlotNo.group (a : SlotNo) : Nat := a.head / 4

/-! ## Slots (R241, R242) -/

/-- The slot holds nothing and may be allocated (R239). -/
def Tables.slotFree (t : Tables) (sl : SlotNo) : Bool :=
  decide (sl ∉ t.worn) && (match t.bandAt sl with
  | none => true
  | some b => decide (b.state = .free))

/-- Free counted slots of a kind on a group, in order; a spare slot that replaces a retired one is among them, after the others (R241, R242). -/
def State.freeSlots (s : State) (sh : Bool) (g : Nat) : List SlotNo :=
  (s.cutSlots sh g ++ (s.spareSlots sh g).filter (fun a => a ∈ s.xlat.t.promoted)).filter s.xlat.t.slotFree

/-- Spare slots of a kind left on a group. -/
def State.freeSpares (s : State) (sh : Bool) (g : Nat) : List SlotNo := (s.spareSlots sh g).filter (fun a => a ∉ s.xlat.t.promoted)

/-- Slots of a volume on a group. -/
def Tables.usedOn (t : Tables) (v g : Nat) : Nat := t.bands.countP (fun b => b.vol = v ∧ b.slot.group = g ∧ b.mapped)

/-- Quota room of a volume on a group. -/
def Tables.room (t : Tables) (v g : Nat) : Nat :=
  match t.vol? v with
  | some x => x.quota.getD g 0 - t.usedOn v g
  | none => 0

/-- Unreserved free slots of a kind on a group (R242): the free ones less the room that volumes hold. -/
def State.unreserved (s : State) (sh : Bool) (g : Nat) : Nat :=
  (s.freeSlots sh g).length - ((s.xlat.t.vols.filter (fun p => p.2.stream = sh)).map (fun p => s.xlat.t.room p.1 g)).sum

/-- A group is in use (R226) and online (R245). -/
def State.groupUsed (s : State) (g : Nat) : Bool := s.hasCurd g && (List.range 4).any (fun i => s.surfaceUsed (4 * g + i))

/-- The group can be reached (R245). -/
def State.groupOn (s : State) (g : Nat) : Bool := s.groupUsed g && decide (g ∉ s.xlat.offline)

/-- XLAT_FREE, XLAT_SPARE, XLAT_REASSIGN and XLAT_STAT follow the tables. -/
def showXlat (s : State) : State :=
  let s := (List.range 6).foldl (fun t g =>
    let on := t.hasCurd g
    let t1 := wrAll (R.XLAT_FREE_SHFREE g) (if on then t.unreserved true g else 0) t
    let t1 := wrAll (R.XLAT_FREE_CVFREE g) (if on then t.unreserved false g else 0) t1
    let t1 := wrAll (R.XLAT_SPARE_SHSPARE g) (if on then (t.freeSpares true g).length else 0) t1
    wrAll (R.XLAT_SPARE_CVSPARE g) (if on then (t.freeSpares false g).length else 0) t1) s
  let s := wrAll R.XLAT_REASSIGN_USED s.xlat.t.reassign.length s
  let s := wrAll R.XLAT_STAT_CLEANACT ((List.range 6).foldl (fun a g => if s.xlat.relocs.any (fun r => r.group = g) then a + 2 ^ g else a) 0) s
  wrAll R.XLAT_STAT_COPYG1 (s.mediaCopies.getD 1 0) (wrAll R.XLAT_STAT_COPYG0 (s.mediaCopies.getD 0 0) s)

/-! ## The journal (R248 to R250) -/

/-- The groups for the two copies (R250): the lowest two in use, or one group twice. -/
def State.copyGroups (s : State) : List Nat :=
  match s.groups.filter s.groupOn with
  | [] => []
  | [g] => [g, g]
  | a :: b :: _ => [a, b]

/-- The ring's fill in percent: the spec gives the ring no size, so a free value of the sectors written. -/
def ringFill (n : Nat) : Nat := Config.openNat 20 [n] % 101

/-- Write the staged journal sector to both copies (R248); a copy that cannot be written is given up under source 0x060 (R250). TRIM versions
it covers are on the media. -/
def writeJournal (s : State) : State :=
  if s.xlat.staged = 0 then s
  else
    let kept := s.mediaCopies.filter s.groupOn
    let s := if kept.length < s.mediaCopies.length then
        wrAll R.XLAT_STAT_STATE 3 (raiseAll 0x060 [kept.length] { s with mediaCopies := kept }) else s
    let s := { s with mediaTables := some s.xlat.t, versions := s.versions.map (fun v => if v.trim then { v with media := true } else v) }
    let s := modXlat (fun x => { x with staged := 0, ring := x.ring + 1 }) s
    if 75 ≤ ringFill s.xlat.ring then
      let s : State := { s with mediaCopies := s.copyGroups }
      let s := if s.mediaCopies.length = 2 then wrAll R.XLAT_STAT_STATE 2 s else s
      wrAll R.XLAT_STAT_JFILL 0 (modXlat (fun x => { x with ring := 0 }) s)
    else wrAll R.XLAT_STAT_JFILL (ringFill s.xlat.ring) s

/-- Stage a journal record (R248); the 63rd fills the sector. -/
def journal (s : State) : State :=
  let s := modXlat (fun x => { x with staged := x.staged + 1, stagedAt := if x.staged = 0 then s.now else x.stagedAt }) s
  if 63 ≤ s.xlat.staged then writeJournal s else s

/-! ## Blocks (R235, R237, R246) -/

/-- The place of a spare: slot track times SPT plus position. -/
def State.sparePlace (s : State) (sl : SlotNo) (n : Nat) : Option Place :=
  (s.zoneOf sl.head sl.zone).map (fun z => ⟨sl.head, z.trackOf (s.slipsOf sl.head) sl.k (n / z.spt), n % z.spt⟩)

/-- The place of data index `o` of a slot: its spare where it is reassigned (R237). -/
def State.placeIn (s : State) (sl : SlotNo) (o : Nat) : Option Place :=
  match s.xlat.t.reassign.find? (fun r => r.1 = sl ∧ r.2.1 = o) with
  | some r => s.sparePlace sl r.2.2
  | none => s.placeOf sl o

/-- The data index of a slot that a place holds: a spare holds the index reassigned to it. -/
def State.blockAt (s : State) (p : Place) : Option (SlotNo × Nat) :=
  match s.xlat.t.reassign.find? (fun r => s.sparePlace r.1 r.2.2 = some p) with
  | some r => some (r.1, r.2.1)
  | none => s.slotAt p

/-- A block of a volume reads as zero (R165): Data, its zero bit set. -/
def State.zeroBlock (s : State) (v blk : Nat) : Bool :=
  match s.xlat.t.vol? v, s.xlat.t.bandOf v (blk / 65536) with
  | some x, some b => ! x.stream && decide (blk % 65536 ∉ b.live)
  | _, _ => false

/-- Where a block of a volume lies. -/
def State.lookup (s : State) (v blk : Nat) : Option Place :=
  (s.xlat.t.bandOf v (blk / 65536)).bind (fun b => s.placeIn b.slot (blk % 65536))

/-- The group that holds a block. -/
def State.blockGroup (s : State) (v blk : Nat) : Option Nat := (s.xlat.t.bandOf v (blk / 65536)).map (fun b => b.slot.group)

/-! ## Volumes (R242, R243, R197) -/

/-- Share out `n` slots (R242): one at a time to the permitted group with the most unreserved slots, the lowest of equals. -/
def planQuota : Nat → List Nat → List Nat → Option (List Nat)
  | 0, _, q => some q
  | n + 1, left, q =>
    let m := left.foldl max 0
    if m = 0 then none
    else
      let g := left.findIdx (fun x => x = m)
      planQuota n (left.modify g (· - 1)) (q.modify g (· + 1))

/-- The groups a volume may use (R196, R242). -/
def State.permitted (s : State) (d : VolDesc) : List Nat := (List.range 6).filter (fun g => d.groups.testBit g && s.groupUsed g)

/-- Unreserved slots of a volume's kind on its permitted groups (R242). -/
def State.freeFor (s : State) (d : VolDesc) : Nat := ((s.permitted d).map (s.unreserved (decide (d.cls = 2)))).sum

/-- Take a slot for a unit or band (R242, R246). -/
def takeSlot (sl : SlotNo) (st : BandState) (v i : Nat) (tpar : Bool) (s : State) : State :=
  journal (modT (fun t => t.putBand { slot := sl, state := st, vol := v, tpar := tpar, vband := i }) s)

/-- The next group after `g` in ascending order, wrapping, that satisfies `p`. -/
def nextGroup (p : Nat → Bool) (g : Nat) : Option Nat := ((List.range 6).map (fun i => (g + 1 + i) % 6)).find? p

/-- Allocate the units of a Data volume (R243): each on the next group of the quota. -/
def takeUnits (v : Nat) (tpar : Bool) : Nat → Nat → Nat → State → State
  | 0, _, _, s => s
  | n + 1, u, g, s =>
    match nextGroup (fun g => decide (0 < s.xlat.t.room v g)) g with
    | none => s
    | some k =>
      match s.freeSlots false k with
      | sl :: _ => takeUnits v tpar n (u + 1) k (takeSlot sl .inUse v u tpar s)
      | [] => s

/-- Create a volume (R197, R242, R243), where its permitted groups have the slots. -/
def createVolume (v : Nat) (d : VolDesc) (s : State) : Option State :=
  let left := (List.range 6).map (fun g => if g ∈ s.permitted d then s.unreserved (decide (d.cls = 2)) g else 0)
  (planQuota d.cap left [0, 0, 0, 0, 0, 0]).map (fun q =>
    let s := journal (modT (fun t => t.putVol v { desc := d, quota := q }) s)
    if d.cls = 1 then takeUnits v (d.tpar) d.cap 0 5 s else s)

/-- A relocation from a slot is abandoned, its target freed (R259). -/
def abandonReloc (sl : SlotNo) (s : State) : State :=
  let gone := s.xlat.relocs.filter (fun r => r.source = sl)
  let s := modXlat (fun x => { x with relocs := x.relocs.filter (fun r => r.source ≠ sl) }) s
  modT (fun t => { t with bands := t.bands.filter (fun b => ! gone.any (fun r => r.target = some b.slot)) }) s

/-- Retire a slot that ran out of spares (R239, R240): its reassignment entries are dropped. -/
def retireSlot (sl : SlotNo) (s : State) : State :=
  let s := modT (fun t => { t with reassign := t.reassign.filter (fun r => r.1 ≠ sl), spent := t.spent.filter (fun r => r.1 ≠ sl) }) s
  modT (fun t => t.putBand { slot := sl, state := .retired }) s

/-- A slot that its band has left (R239, R256, R257): free with its COUNT kept, or retired. -/
def vacate (sl : SlotNo) (count : Nat) (s : State) : State :=
  if sl ∈ s.xlat.t.worn then retireSlot sl s else modT (fun t => t.putBand { slot := sl, state := .free, count := count }) s

/-- Free a slot (R256). A relocation of its band is abandoned (R259). -/
def freeSlot (sl : SlotNo) (s : State) : State :=
  let s := abandonReloc sl s
  match s.xlat.t.bandAt sl with
  | none => s
  | some b => journal (vacate sl b.count s)

/-- Delete a volume (R197): its slots are freed and its data and versions discarded. -/
def deleteVolume (v : Nat) (s : State) : State :=
  let slots := (s.xlat.t.bands.filter (fun b => b.vol = v ∧ b.mapped)).map Band.slot
  let s := slots.foldl (fun t sl => freeSlot sl t) s
  let s := journal (modT (fun t => { t with vols := assocDel v t.vols }) s)
  modT (fun t => { t with lost := t.lost.filter (fun p => p.1 ≠ v) }) { s with versions := s.versions.filter (fun x => x.vol ≠ v) }

/-- Change the masks and label of a volume (R197). -/
def changeVolume (v : Nat) (d : VolDesc) (s : State) : State :=
  match s.xlat.t.vol? v with
  | none => s
  | some x => journal (modT (fun t => t.putVol v { x with desc := { x.desc with rdmask := d.rdmask, wrmask := d.wrmask, label := d.label } }) s)

/-! ## Stream bands (R244, R245, R254 to R256) -/

/-- Where band `k` of a Stream volume goes (R244, R245): the next online group with quota room; else the first online permitted group after the
one skipped as offline whose unreserved slot it borrows, with the group whose quota moves. -/
def State.bandGroup (s : State) (v k : Nat) : Option (Nat × Option Nat) :=
  let start := if k = 0 then 5 else ((s.xlat.t.vol? v).map Volume.last).getD 5
  match nextGroup (fun g => s.groupOn g && decide (0 < s.xlat.t.room v g) && ! (s.freeSlots true g).isEmpty) start with
  | some g => some (g, none)
  | none =>
    match s.xlat.t.vol? v, nextGroup (fun g => decide (0 < s.xlat.t.room v g)) start with
    | some x, some skipped =>
      (nextGroup (fun g => s.groupOn g && x.desc.groups.testBit g && decide (0 < s.unreserved true g)) skipped).map (fun g => (g, some skipped))
    | _, _ => none

/-- The quota of one slot moves between groups (R245, R258). -/
def moveQuota (v a b : Nat) (s : State) : State :=
  match s.xlat.t.vol? v with
  | none => s
  | some x => modT (fun t => t.putVol v { x with quota := (x.quota.modify a (· - 1)).modify b (· + 1) }) s

/-- Open band `k` of a Stream volume (R254): none where no group can take it. -/
def openBand (v k : Nat) (s : State) : Option State :=
  match s.bandGroup v k with
  | none => none
  | some (g, from') =>
    let s := match from' with
      | some a => moveQuota v a g s
      | none => s
    match s.freeSlots true g with
    | [] => none
    | sl :: _ =>
      let s := modT (fun t => { t with vols := t.vols.map (fun p => if p.1 = v then (p.1, { p.2 with last := g }) else p) }) s
      some (takeSlot sl .opened v k (((s.xlat.t.vol? v).map (fun x => x.desc.tpar)).getD false) s)

/-- Some command holds a band (R178). -/
def State.bandHeld (s : State) (v k : Nat) : Bool := s.cmds.any (fun c => decide ((v, k) ∈ c.holds))

/-- The versions of a band that is freed are discarded, and its blocks that were never written with it (R256). -/
def dropBlocks (v k : Nat) (s : State) : State :=
  modT (fun t => { t with lost := t.lost.filter (fun p => ! decide (p.1 = v ∧ p.2 / 65536 = k)) })
    { s with versions := s.versions.filter (fun x => ! decide (x.vol = v ∧ x.blk / 65536 = k)) }

/-- Release a band (R256): free at once, or held until the last hold ends. -/
def releaseBand (v k : Nat) (s : State) : State :=
  match s.xlat.t.bandOf v k with
  | none => s
  | some b =>
    if s.bandHeld v k then journal (modT (fun t => t.putBand { b with state := .releasedHeld }) (abandonReloc b.slot s))
    else freeSlot b.slot (dropBlocks v k s)

/-- Free the released bands that no command holds any more (R178, R256). -/
def freeReleased (s : State) : State :=
  (s.xlat.t.bands.filter (fun b => b.state = .releasedHeld ∧ ! s.bandHeld b.vol b.vband)).foldl (fun t b => freeSlot b.slot (dropBlocks b.vol b.vband t)) s

/-! ## Versions (R209 to R215) -/

/-- Versions of a block. -/
def State.versionsOf (s : State) (v blk : Nat) : List Version := s.versions.filter (fun x => x.vol = v ∧ x.blk = blk)

/-- The version with the highest admission index. -/
def newest (l : List Version) : Option Version :=
  l.foldl (fun b x => match b with
    | none => some x
    | some y => if y.index < x.index then some x else some y) none

/-- What a read of a port returns for a block (R211, R213 to R215), `index` its admission index: the version it is served from, or the media
where none; and whether the read waits. A Stream block whose version is not whole is waited for. A command never reads what it writes itself. -/
def State.readSource (s : State) (port index v blk : Nat) : Option Version × Bool :=
  let l := s.versionsOf v blk
  match newest (l.filter (fun x => x.port = port ∧ x.index < index)) with
  | some own => (some own, ! own.whole)
  | none =>
    match newest (l.filter (fun x => x.whole ∧ ! (x.port = port ∧ index ≤ x.index))) with
    | some x => (some x, false)
    | none =>
      let stream := ((s.xlat.t.vol? v).map Volume.stream).getD false
      match newest (l.filter (fun x => ! x.whole ∧ ! (x.port = port ∧ index ≤ x.index))) with
      | some x => if stream then (some x, true) else (none, false)
      | none => (none, false)

/-- The version is on the media, or one with a higher index is (R210, R221). -/
def State.settled (s : State) (x : Version) : Bool :=
  x.media || (s.versionsOf x.vol x.blk).any (fun y => y.media && decide (x.index < y.index))

/-- A version with a higher index is on the media (R209). -/
def State.superseded (s : State) (x : Version) : Bool := (s.versionsOf x.vol x.blk).any (fun y => y.media && decide (x.index < y.index))

/-- A zero bit says what the version does (R252). -/
def State.recorded (s : State) (x : Version) : Bool :=
  match s.xlat.t.vol? x.vol with
  | none => true
  | some w => w.stream || (s.zeroBlock x.vol x.blk == x.trim)

/-- A read that is admitted may still need a version (R210). -/
def State.neededBy (s : State) (x : Version) : Bool :=
  s.cmds.any (fun c => decide (c.phase = .admitted ∧ ! c.freed ∧ (c.op = 1 ∨ c.op = 7 ∨ c.op = 8)) && c.covers x.vol x.blk)

/-- A version may go (R210): it is on the media, where the tables say so, or a later one is, and no admitted read needs it. -/
def State.mayRetire (s : State) (x : Version) : Bool := s.settled x && (s.superseded x || s.recorded x) && ! s.neededBy x

/-- Retire versions (R210), none before every older one of its block, so that the highest index remains (R209). -/
def retire (s : State) : State :=
  { s with versions := s.versions.filter (fun x => ! (s.mayRetire x &&
      (s.versionsOf x.vol x.blk).all (fun y => decide (x.index ≤ y.index) || s.mayRetire y))) }

/-- SCHED_DIRTY (R225): blocks whose newest version is whole and not on the media. -/
def State.dirty (s : State) : Nat :=
  s.versions.countP (fun x => x.whole && ! x.media && decide (newest (s.versionsOf x.vol x.blk) = some x))

/-- A block of a version is on the media (R237, R252): the newest version handed to an engine, or the newest whole one. -/
def noteWritten (v blk : Nat) (s : State) : State :=
  let l := s.versionsOf v blk
  match (newest (l.filter (fun x => x.taken ∧ x.whole))).orElse (fun _ => newest (l.filter (fun x => x.whole ∧ ! x.trim))) with
  | some x => { s with versions := s.versions.map (fun y => if y = x then { y with media := true } else y) }
  | none => s

/-! ## Changes of the tables (R237, R240, R252, R254, R258, R259) -/

/-- Change the entry of a band. -/
def modBand (sl : SlotNo) (f : Band → Band) (s : State) : State :=
  match s.xlat.t.bandAt sl with
  | some b => modT (fun t => t.putBand (f b)) s
  | none => s

/-- Add 1 to the COUNT of a conventional slot (R257); one that reaches REFRESH fills is due for refresh. -/
def bumpCount (sl : SlotNo) (s : State) : State :=
  if s.slotShingled sl then s
  else
    let b := (s.xlat.t.bandAt sl).getD { slot := sl, state := .free }
    modT (fun t => t.putBand { b with
      count := b.count + 1, refresh := b.refresh || decide (65536 * s.rdS R.XLAT_CLEANCFG_REFRESH ≤ b.count + 1) }) s

/-- Count a sector written out to a conventional slot (R257), and one more on the conventional slot of the adjacent track where it lies on the
slot's first or last track. -/
def countWrite (sl : SlotNo) (o : Nat) (s : State) : State :=
  match s.zoneOf sl.head sl.zone, s.placeIn sl o with
  | some z, some p =>
    if z.shingled then s
    else
      let slips := s.slipsOf sl.head
      let beside (t : Nat) : Option SlotNo := (s.slotAt ⟨sl.head, t, 0⟩).map Prod.fst
      let up := if p.track = z.trackOf slips sl.k 0 ∧ 0 < p.track then (beside (p.track - 1)).toList else []
      let down := if p.track = z.trackOf slips sl.k (z.nt - 1) then (beside (p.track + 1)).toList else []
      (sl :: (up ++ down)).foldl (fun t a => bumpCount a t) s
  | _, _ => s

/-- The spare position for a data index of a slot (R237): without TPAR a free parity position of the same track, else the lowest free spare
position. -/
def State.spareFor (s : State) (sl : SlotNo) (o : Nat) : Option Nat :=
  (s.zoneOf sl.head sl.zone).bind (fun z =>
    let free (n : Nat) : Bool := decide ((sl, n) ∉ s.xlat.t.spent)
    let tpar := ((s.xlat.t.bandAt sl).map Band.tpar).getD false
    let j := o / z.dpt
    let own := if tpar then none else (List.range z.spt).find? (fun p => z.isParity p && free (j * z.spt + p))
    match own with
    | some p => some (j * z.spt + p)
    | none =>
      (((List.range (z.nt * z.dpt - 65536)).map (fun i => ((65536 + i) / z.dpt) * z.spt + dataPos ((65536 + i) % z.dpt))).find? free))

/-- Take a target slot for a relocation (R258): on the same group, else on another permitted one, the quota moving with it. -/
def State.relocTarget (s : State) (b : Band) : Option (SlotNo × Nat) :=
  let sh := s.slotShingled b.slot
  match s.freeSlots sh b.slot.group with
  | sl :: _ => some (sl, b.slot.group)
  | [] =>
    match s.xlat.t.vol? b.vol with
    | none => none
    | some x =>
      match (s.permitted x.desc).find? (fun g => s.groupOn g && decide (0 < s.unreserved sh g)) with
      | some g => ((s.freeSlots sh g).head?).map (fun sl => (sl, g))
      | none => none

/-- Start a relocation (R258, R259): none where no slot is free. -/
def startReloc (b : Band) (forced : Bool) (s : State) : Option State :=
  match s.relocTarget b with
  | none => none
  | some (sl, g) =>
    let s := if g = b.slot.group then s else moveQuota b.vol b.slot.group g s
    let s := modT (fun t => (t.putBand { b with state := .relocSource }).putBand
      { slot := sl, state := .relocTarget, vol := b.vol, tpar := b.tpar, vband := b.vband }) s
    some (journal (modXlat (fun x => { x with relocs := x.relocs ++ [{ group := b.slot.group, source := b.slot, target := some sl, forced := forced }] }) s))

/-- A slot is to be retired (R239 to R242): it is never allocated again, and the first spare slot of its kind on its group replaces it. -/
def wearOut (sl : SlotNo) (s : State) : State :=
  if sl ∈ s.xlat.t.worn then s
  else
    let spare := (s.freeSpares (s.slotShingled sl) sl.group).head?.toList
    modT (fun t => { t with worn := sl :: t.worn, promoted := spare ++ t.promoted }) s

/-- Reassign a data index (R237): to a spare, or, with none left or the table full, by forced cleaning of the band, whose slot is retired (R239,
R240). Answers false where neither is possible: the write ends with WRITE_FAULT. -/
def reassign (sl : SlotNo) (o : Nat) (s : State) : Bool × State :=
  let full := decide (1048576 ≤ s.xlat.t.reassign.length)
  match (if full then none else s.spareFor sl o) with
  | some n =>
    let s := modT (fun t => { t with spent := (sl, n) :: t.spent, reassign := (sl, o, n) :: t.reassign.filter (fun r => ! decide (r.1 = sl ∧ r.2.1 = o)) }) s
    let s := if s.xlat.t.reassign.length = 943719 then raiseAll 0x062 [s.xlat.t.reassign.length] s else s
    (true, journal s)
  | none =>
    match s.xlat.t.bandAt sl with
    | none => (false, s)
    | some b =>
      let s := wearOut sl s
      if s.xlat.relocs.any (fun r => r.source = sl) then (true, s)
      else match startReloc b true s with
        | some s => (true, s)
        | none => (false, journal s)

/-- The switch of a relocation (R257, R259): the band moves to its target slot; the source is free with its COUNT kept, or retired
(R239, R240). A parity restore ends in place. -/
def endReloc (r : Reloc) (s : State) : State :=
  let s := modXlat (fun x => { x with relocs := x.relocs.erase r }) s
  match r.target, s.xlat.t.bandAt r.source with
  | none, _ =>
    incAll R.XLAT_CLEANCNT_PARITY 1 (journal (modT (fun t => { t with stale := t.stale.filter (fun x => x.1 ≠ r.source) }) s))
  | some sl, some b =>
    let wasOpen := s.xlat.t.bandOpen b
    let s := modT (fun t => t.putBand { b with slot := sl, state := if wasOpen then .opened else .inUse, weak := false, refresh := false, count := if wasOpen then b.fill else 0 }) s
    let s := vacate r.source b.count s
    incAll (if r.forced then R.XLAT_CLEANCNT_FORCED else R.XLAT_CLEANCNT_RELOC) 1 (journal s)
  | some _, none => s

/-- The switch of the relocation on a group that an engine asks for (R259). -/
def switchReloc (g : Nat) (s : State) : State :=
  match s.xlat.relocs.find? (fun r => r.group = g) with
  | none => s
  | some r => endReloc r s

/-- Mark a block written to the source of a relocation (R259). -/
def markReloc (sl : SlotNo) (o : Nat) (s : State) : State :=
  modXlat (fun x => { x with relocs := x.relocs.map (fun r => if r.source = sl then { r with marked := o :: r.marked.filter (· ≠ o) } else r) }) s

/-- A block has been copied to the target of a relocation (R259): it is marked no longer, and the last block that the band needs ends the copy
pass. -/
def notePass (sl : SlotNo) (o : Nat) (s : State) : State :=
  modXlat (fun x => { x with relocs := x.relocs.map (fun r =>
    if r.target = some sl then
      let last := match x.t.bandAt r.source with
        | some b => if b.live.isEmpty then b.fill - 1 else b.live.foldl max 0
        | none => 0
      { r with marked := r.marked.filter (· ≠ o), passed := r.passed || decide (last ≤ o) }
    else r) }) s

/-- A change that an engine asks for (R248, R252, R254, R231). -/
def applyChange (c : TableChange) (s : State) : State :=
  match c with
  | .zeroClear v blk =>
    match s.xlat.t.bandOf v (blk / 65536) with
    | some b => if blk % 65536 ∈ b.live then s else journal (modBand b.slot (fun b => { b with live := blk % 65536 :: b.live }) s)
    | none => s
  | .zeroSet v blk =>
    match s.xlat.t.bandOf v (blk / 65536) with
    | some b => if blk % 65536 ∈ b.live then journal (modBand b.slot (fun b => { b with live := b.live.erase (blk % 65536) }) s) else s
    | none => s
  | .fill v k pos =>
    match s.xlat.t.bandOf v k with
    | some b => journal (modBand b.slot (fun b => { b with
        fill := max b.fill (min 65536 pos), count := max b.fill (min 65536 pos), state := if 65536 ≤ pos ∧ b.state = .opened then .inUse else b.state }) s)
    | none => s
  | .reassign h z k o => (reassign ⟨h, z, k⟩ o s).2
  | .stale h z k t g =>
    if s.xlat.t.stale.length < 65536 ∧ (⟨h, z, k⟩, t, g) ∉ s.xlat.t.stale then
      journal (modT (fun x => { x with stale := (⟨h, z, k⟩, t, g) :: x.stale }) s) else s
  | .clean h z k t g =>
    if (⟨h, z, k⟩, t, g) ∈ s.xlat.t.stale then journal (modT (fun x => { x with stale := x.stale.erase (⟨h, z, k⟩, t, g) }) s) else s
  | .switch g => switchReloc g s
  | .weak h z k =>
    match s.xlat.t.bandAt ⟨h, z, k⟩ with
    | some b => if b.weak then s else journal (modBand b.slot (fun b => { b with weak := true }) s)
    | none => s

/-! ## Cleaning (R257, R258) -/

/-- Reassignment entries of a slot. -/
def Tables.entries (t : Tables) (sl : SlotNo) : Nat := t.reassign.countP (fun r => r.1 = sl)

/-- The band of a group that cleaning takes next, and whether it is a parity restore: weak bands, then refresh, then parity restores, then
reassignment pressure; the first slot in order. -/
def State.cleanChoice (s : State) (g : Nat) : Option (Band × Bool) :=
  let l := (s.xlat.t.bands.filter (fun b => b.slot.group = g ∧ b.state = .inUse)).mergeSort (fun a b => a.slot.before b.slot || decide (a.slot = b.slot))
  let most := (l.map (fun b => s.xlat.t.entries b.slot)).foldl max 0
  match l.find? Band.weak with
  | some b => some (b, false)
  | none => match l.find? Band.refresh with
    | some b => some (b, false)
    | none => match l.find? (fun b => s.xlat.t.stale.any (fun x => x.1 = b.slot)) with
      | some b => some (b, true)
      | none =>
        if 943718 < s.xlat.t.reassign.length then (l.find? (fun b => s.xlat.t.entries b.slot = most)).map (fun b => (b, false)) else none

/-- Start background cleaning on a group (R258). -/
def startCleaning (g : Nat) (s : State) : State :=
  let idle := decide (assocGet g 0 s.xlat.worked + 1000 * s.rdS R.XLAT_CLEANCFG_IDLEMS ≤ s.now)
  if s.rdS R.BUDGET_OUT_CLEANOK = 1 ∧ idle ∧ s.groupOn g ∧ ! s.xlat.relocs.any (fun r => r.group = g) then
    match s.cleanChoice g with
    | none => s
    | some (b, true) => modXlat (fun x => { x with relocs := x.relocs ++ [{ group := g, source := b.slot, target := none, forced := false }] }) s
    | some (b, false) =>
      let s := if b.weak ∨ b.refresh then s else wearOut b.slot s
      (startReloc b false s).getD s
  else s

/-! ## Loss, start and reconciliation (R245, R251, R255, R582) -/

/-- A block lies in the gap that a loss left (R255): it is read at the first rung only. -/
def State.inGap (s : State) (v blk : Nat) : Bool :=
  match (s.xlat.t.vol? v).bind Volume.gap with
  | some (k, fill) => decide (blk / 65536 = k ∧ fill ≤ blk % 65536)
  | none => false

/-- A group goes offline until re-initialisation (R245). -/
def groupOffline (g : Nat) (s : State) : State :=
  if g ∈ s.xlat.offline then s else modXlat (fun x => { x with offline := g :: x.offline }) s

/-- Close a Stream volume after a loss (R224, R255): WP resumes at the end of the last band opened, and the open band is closed. -/
def closeStream (t : Tables) (v : Nat) (x : Volume) : Tables :=
  let bands := t.bands.filter (fun b => b.vol = v ∧ b.mapped)
  let top := (bands.map (fun b => b.vband + 1)).foldl max (ceilDiv x.wp 65536)
  let x := { x with wp := 65536 * top, gap := ((bands.find? (fun b => b.state = .opened)).map (fun b => (b.vband, b.fill))).orElse (fun _ => x.gap) }
  { t.putVol v x with bands := t.bands.map (fun b => if b.vol = v ∧ b.state = .opened then { b with state := .inUse } else b) }

/-- The tables as the start takes them (R251, R255, R256, R259): relocations that had not switched are undone, released bands are free, and
after a loss the Stream volumes are closed. -/
def Tables.recovered (t : Tables) (clean : Bool) : Tables :=
  let bands := (t.bands.filter (fun b => b.state ≠ .relocTarget)).map (fun b =>
    match b.state with
    | .relocSource => { b with state := if t.bandOpen b then .opened else .inUse }
    | .releasedHeld => { slot := b.slot, state := .free, count := b.count }
    | _ => b)
  let t := { t with bands := bands }
  if clean then t else t.vols.foldl (fun t p => if p.2.stream then closeStream t p.1 p.2 else t) t

/-- Bring the tables into line with record 0x0006 (R582). -/
def reconcile (l : List VolumeRec) (s : State) : State :=
  let same (a b : VolDesc) : Bool := decide (a.cls = b.cls ∧ a.ring = b.ring ∧ a.tpar = b.tpar ∧ a.groups = b.groups ∧ a.cap = b.cap)
  let rec? (v : Nat) : Option VolDesc := (l.find? (fun r => r.vol = v)).map VolumeRec.desc
  let s := (List.range 64).foldl (fun t v =>
    match t.xlat.t.vol? v with
    | none => t
    | some x =>
      match rec? v with
      | some d => if same x.desc d then t else raiseAll 0x065 [v] (deleteVolume v t)
      | none => raiseAll 0x065 [v] (deleteVolume v t)) s
  (List.range 64).foldl (fun t v =>
    match rec? v with
    | none => t
    | some d =>
      match t.xlat.t.vol? v with
      | some x =>
        if x.desc.rdmask = d.rdmask ∧ x.desc.wrmask = d.wrmask ∧ x.desc.label = d.label then t else raiseAll 0x065 [v] (changeVolume v d t)
      | none => raiseAll 0x065 [v] ((if (t.permitted d).isEmpty then none else createVolume v d t).getD t)) s

/-- The tables are on media that no surface in use holds (R251). -/
def State.tablesLost (s : State) : Bool := s.mediaTables.isSome && ! s.mediaCopies.any s.groupUsed

/-- Read the tables at step 15 (R251, R582): a drive without tables gets an empty checkpoint; then record 0x0006 governs. -/
def loadTables (s : State) : State :=
  let t := ((s.mediaTables.map (fun t => t.recovered s.mediaClean))).getD {}
  let s : State := { s with xlat := { t := t }, versions := [], mediaClean := false, mediaCopies := s.copyGroups }
  let s : State := { s with mediaTables := some t }
  let s : State := match (s.boot.records.find? (fun r => r.typ = 6)).map SetRec.body with
    | some (.volumes l) => reconcile l s
    | _ => s
  showXlat (wrAll R.XLAT_STAT_STATE (if s.mediaCopies.length = 2 then 2 else 3) (writeJournal s))

end Sys2Proof.Machine
end

