-- ==== Sys2Proof/Machine/PortOps.lean ====
section
/-! DEFINITION. Command ports: doorbells, port states, completions and status lines (R128 to R160), and the numbering of steps (R493). -/

namespace Sys2Proof.Machine

/-! ## Steps (R493, R494) -/

/-- Change a die's step logic. -/
def modStep (d : RSlot) (f : StepLogic → StepLogic) (s : State) : State := s.modRind d (fun r => { r with step := f r.step })

/-- STEP_NUM shows the last step processed (R519). -/
def showStep (d : RSlot) (k : Nat) (s : State) : State :=
  (s.wrR d R.STEP_NUM_LO_STEP (k % 2 ^ 32)).wrR d R.STEP_NUM_HI_STEP (k / 2 ^ 32)

/-- An input takes the next step number and every serving die processes it at that step (R493): its KIND, SRC and DATA are those of R494. In
an F1 part nothing is numbered (R519). -/
def newStep (_kind _src _data : Nat) (s : State) : State :=
  if s.part.f = 1 then s
  else
    let k := (s.rind s.senior).step.next
    inStep (fun d t => showStep d k (modStep d (fun x => { x with next := k + 1, done := max x.done (k + 1), steps := x.steps + 1 }) t)) s

/-! ## Status codes (R187) -/

namespace St
/-- SUCCESS. -/
def success : Nat := 0x0000
/-- DONE. -/
def done : Nat := 0x0001
/-- ALREADY_DONE. -/
def alreadyDone : Nat := 0x0002
/-- ABORTED. -/
def aborted : Nat := 0x0003
/-- INVALID_OPCODE. -/
def invalidOpcode : Nat := 0x0100
/-- ADMIN_ONLY. -/
def adminOnly : Nat := 0x0101
/-- TAG_IN_USE. -/
def tagInUse : Nat := 0x0102
/-- INVALID_FIELD. -/
def invalidField : Nat := 0x0103
/-- NO_VOLUME. -/
def noVolume : Nat := 0x0104
/-- ACCESS_DENIED. -/
def accessDenied : Nat := 0x0105
/-- CLASS_MISMATCH. -/
def classMismatch : Nat := 0x0106
/-- OUT_OF_RANGE. -/
def outOfRange : Nat := 0x0107
/-- VOLUME_FULL. -/
def volumeFull : Nat := 0x0108
/-- VOLUME_BUSY. -/
def volumeBusy : Nat := 0x0109
/-- CAPACITY. -/
def capacity : Nat := 0x010A
/-- NO_WINDOW. -/
def noWindow : Nat := 0x010B
/-- HOST_MEMORY. -/
def hostMemory : Nat := 0x010C
/-- SGL_ERROR. -/
def sglError : Nat := 0x010D
/-- SETTINGS_LOCKED. -/
def settingsLocked : Nat := 0x0110
/-- RETRY_LATER. -/
def retryLater : Nat := 0x0111
/-- SINGLE_DIE. -/
def singleDie : Nat := 0x0112
/-- FW_SEQUENCE. -/
def fwSequence : Nat := 0x0113
/-- FW_BUSY. -/
def fwBusy : Nat := 0x0114
/-- IMAGE_INVALID. -/
def imageInvalid : Nat := 0x0115
/-- IMAGE_ROLLBACK. -/
def imageRollback : Nat := 0x0116
/-- UNRECOVERED_READ. -/
def unrecoveredRead : Nat := 0x0200
/-- WRITE_FAULT. -/
def writeFault : Nat := 0x0201
/-- GROUP_OFFLINE. -/
def groupOffline : Nat := 0x0202
/-- BUFFER_UNCORRECTABLE. -/
def bufferUncorrectable : Nat := 0x0203
/-- DEVICE_RECOVERED. -/
def deviceRecovered : Nat := 0x0300
/-- FAULT_LATCHED. -/
def faultLatched : Nat := 0x0301
/-- SAVE_FAILED. -/
def saveFailed : Nat := 0x0302
end St

/-! ## Ports -/

/-- What the port engine holds for a port beside its registers. -/
def State.portX (s : State) (p : Nat) : PortX := assocGet p {} s.ports

/-- Change it. -/
def modPort (p : Nat) (f : PortX → PortX) (s : State) : State := { s with ports := assocPut p (f (s.portX p)) s.ports }

/-- STATE of a port (R152): 0 DISABLED, 1 RUNNING, 2 DRAINING, 3 ERROR. -/
def State.portState (s : State) (p : Nat) : Nat := s.rdS (R.PORT_STAT_STATE p)

/-- The domain of a port (R128). -/
def State.portDomain (s : State) (p : Nat) : Nat := s.rdS (R.PORT_CFG_DOMAIN p)

/-- The port is the admin port of its domain. -/
def State.isAdmin (s : State) (p : Nat) : Bool := decide (s.rdS (R.PORT_CFG_ADMIN p) = 1)

/-- The port's doorbell is polled (R149, DBMODE): its domain's head is set to switched attachment. -/
def State.polled (s : State) (d : RSlot) (p : Nat) : Bool :=
  decide (s.modeOf d (s.rdR d (R.LINK_DOMCFG_HEAD (s.rdR d (R.PORT_CFG_DOMAIN p)))) = 2)

/-- A 64-bit address of two registers. -/
def State.addr64 (s : State) (lo hi : Fld) : Nat := s.rdS lo * 64 + s.rdS hi * 2 ^ 32

/-- SQBASE, CQBASE and DBADDR of a port. -/
def State.sqBase (s : State) (p : Nat) : Nat := s.addr64 (R.PORT_SQLO_ADDR p) (R.PORT_SQHI_ADDR p)
/-- CQBASE. -/
def State.cqBase (s : State) (p : Nat) : Nat := s.addr64 (R.PORT_CQLO_ADDR p) (R.PORT_CQHI_ADDR p)
/-- DBADDR. -/
def State.dbAddr (s : State) (p : Nat) : Nat := s.addr64 (R.PORT_DBLO_ADDR p) (R.PORT_DBHI_ADDR p)

/-- Entries written and not released: from CQHEAD to CQTAIL. -/
def State.cqUsed (s : State) (p : Nat) : Nat :=
  let n := s.rdS (R.PORT_SIZE_CQSIZE p)
  if n = 0 then 0 else (s.rdS (R.PORT_CQSTAT_CQTAIL p) + n - s.rdS (R.PORT_OUT_CQHEAD p)) % n

/-- Released slots (R137, R138). -/
def State.cqFree (s : State) (p : Nat) : Nat := s.rdS (R.PORT_SIZE_CQSIZE p) - 1 - s.cqUsed p

/-- Unfetched entries of the submission hoop (R131). -/
def State.sqUnfetched (s : State) (p : Nat) : Nat :=
  let n := s.rdS (R.PORT_SIZE_SQSIZE p)
  if n = 0 then 0 else (s.rdS (R.PORT_STAT_SQTAIL p) + n - s.rdS (R.PORT_STAT_SQHEAD p)) % n

/-- Entries of the outstanding table in use (R135). -/
def State.tableUsed (s : State) : Nat := s.cmds.length + s.comps.countP (fun c => c.wrote.isEmpty)

/-- Completions of a port for which no released slot is free (R137); one that only waits for its digest block is none. -/
def State.heldOn (s : State) (p : Nat) : Nat := s.comps.countP (fun c => c.port = p ∧ c.slot.isNone) - s.cqFree p

/-- OUT and HELD of a port. -/
def showPort (p : Nat) (s : State) : State :=
  wrAll (R.PORT_CQSTAT_HELD p) (s.heldOn p)
    (wrAll (R.PORT_OUT_OUT p) (s.cmds.countP (fun c => c.port = p)) s)

/-! ## SCHED_STAT and SCHED_DIRTY (R218, R225) -/

/-- The command waits behind a FENCE of its port (R217). -/
def State.behindFence (s : State) (c : Cmd) : Bool :=
  decide (c.phase = .fetched) && s.cmds.any (fun f => decide (f.port = c.port ∧ f.phase = .admitted ∧ f.op = 4 ∧ f.uid < c.uid))

/-- A command reads blocks: READ, COPY, WINMAP (R213). -/
def Cmd.reads (c : Cmd) : Bool := decide (c.op = 1 ∨ c.op = 7 ∨ c.op = 8)

/-- An admitted command has a block that waits (R212, R215). -/
def State.hazard (s : State) (c : Cmd) : Bool :=
  decide (c.phase = .admitted) && c.reads &&
  ((s.versions.filter (fun x => ! x.whole && decide (x.uid ≠ c.uid) && c.covers x.vol x.blk)).any (fun x => (s.readSource c.port c.index x.vol x.blk).2))

/-- SCHED_STAT and SCHED_DIRTY follow the commands. -/
def showSched (s : State) : State :=
  wrAll R.SCHED_DIRTY_BLOCKS s.dirty
    (wrAll R.SCHED_STAT_HAZWAIT (s.cmds.countP s.hazard) (wrAll R.SCHED_STAT_FENCEWAIT (s.cmds.countP s.behindFence) s))

/-! ## Completions (R136 to R143, R501) -/

/-- Die `d` may write a completion: its digest block is confirmed, or one die serves (R501). -/
def State.confirmed (s : State) (d : RSlot) (c : Comp) : Bool :=
  ! s.inTwo ||
  (match c.block with
   | none => true
   | some b => decide (b < (s.rind d).step.block) && ! (s.rind d).step.mine.any (fun p => p.1 = b))

/-- The 16 bytes of a completion entry (R136). -/
def Comp.bytes (c : Comp) (phase : Nat) : List Byte :=
  natLe 4 c.seq ++ natLe 4 c.info ++ natLe 2 c.tag ++ natLe 2 c.status ++ natLe 2 c.sqhead ++ natLe 2 (c.sqidx + phase * 2 ^ 15)

/-- Give the next waiting completion of a port its slot (R137, R139): CQTAIL advances, and PHASE turns over at the wrap. -/
def giveSlot (p : Nat) (s : State) : State :=
  match s.comps.find? (fun c => c.port = p ∧ c.slot.isNone) with
  | none => s
  | some c =>
    if s.cqFree p = 0 ∨ ! s.serving.any (fun d => s.confirmed d c) then s
    else
      let k := s.rdS (R.PORT_CQSTAT_CQTAIL p)
      let ph := s.rdS (R.PORT_CQSTAT_PHASE p)
      let bytes := c.bytes ph
      let next := (k + 1) % s.rdS (R.PORT_SIZE_CQSIZE p)
      let s := { s with comps := s.comps.map (fun x => if x = c then { x with slot := some (k, bytes) } else x) }
      let s := wrAll (R.PORT_CQSTAT_CQTAIL p) next (if next = 0 then wrAll (R.PORT_CQSTAT_PHASE p) (1 - ph) s else s)
      let s := modPort p (fun x => { x with slots := x.slots ++ [(k, bytes)] }) s
      inStep (fun d t => digestAdd d (natLe 8 (t.cqBase p + 16 * k) ++ bytes) t) s

/-- Every serving die has issued, or given up, its entry of the previous lap in the slot of a completion (R142): the report of the peer over the
step link, as the state holds it. -/
def State.lapDone (s : State) (c : Comp) : Bool :=
  s.comps.all (fun e => ! (decide (e.port = c.port ∧ e.slot.map Prod.fst = c.slot.map Prod.fst) && aheadMod (2 ^ 32) c.seq e.seq) ||
    s.serving.all (fun d => decide (d ∈ e.wrote)))

/-- The dies that write a completion now: serving, confirmed, their head up (R107), the slot's previous lap done with (R142). -/
def State.writers (s : State) (c : Comp) : List RSlot :=
  if c.slot.isNone ∨ ! s.lapDone c then []
  else s.serving.filter (fun d => decide (d ∉ c.wrote) && s.confirmed d c && (s.headOf d (s.portDomain c.port)).isSome)

/-- Write a completion on the dies that can. -/
def writeComp (c : Comp) (s : State) : State :=
  match c.slot with
  | none => s
  | some (k, bytes) =>
    let ds := s.writers c
    let s := ds.foldl (fun t d => hostPut d (t.portDomain c.port) (t.cqBase c.port + 16 * k) bytes t) s
    { s with comps := s.comps.map (fun x => if x = c then { x with wrote := x.wrote ++ ds } else x) }

/-- The dies that give up their copy of a completion (R142): the slot is released, and the copy is held because the die's head is down. -/
def State.lateDies (s : State) (c : Comp) : List RSlot :=
  match c.slot with
  | some x =>
    if x ∈ (s.portX c.port).slots then []
    else s.serving.filter (fun d => decide (d ∉ c.wrote) && (s.headOf d (s.portDomain c.port)).isNone)
  | none => []

/-- Copies held behind a head that is down, of entries whose slot is released, are discarded and counted as whey (R142); completions that every
serving die has written or given up leave the device. -/
def dropComps (p : Nat) (s : State) : State :=
  let late (c : Comp) : List RSlot := if c.port = p then s.lateDies c else []
  let s' := s.comps.foldl (fun t c => (late c).foldl (fun t d => t.incR d R.STEP_WHEY_PEER) t) s
  let comps := s.comps.map (fun c => { c with wrote := c.wrote ++ late c })
  let gone (c : Comp) : Bool := decide (c.port = p) && s.serving.all (fun d => decide (d ∈ c.wrote))
  { s' with comps := comps.filter (fun c => ! gone c), hostLog := s.hostLog.filter (fun e => ! comps.any (fun c => gone c && decide (c.uid = e.1))) }

/-- A DRAINING port with no outstanding command and no held completion becomes DISABLED (R152, R154): its line is given up. -/
def drainCheck (p : Nat) (s : State) : State :=
  if s.portState p = 2 ∧ ! s.cmds.any (fun c => c.port = p) ∧ ! s.comps.any (fun c => c.port = p) then
    modPort p (fun _ => {}) (wrAll (R.PORT_STAT_STATE p) 0 s)
  else s

/-- Move the completions of a port along: slots, writes, and the drain. -/
def pumpPort (p : Nat) (s : State) : State :=
  let s := (List.range (s.comps.countP (fun c => c.port = p ∧ c.slot.isNone))).foldl (fun t _ => giveSlot p t) s
  let s := (s.comps.filter (fun c => c.port = p)).foldl (fun t c => writeComp c t) s
  drainCheck p (showPort p (dropComps p s))

/-- Ports with completions that wait. -/
def State.waitingPorts (s : State) : List Nat := ((s.comps.map Comp.port).dedup)

/-- Move the completions of every port along. -/
def pumpAll (s : State) : State := s.waitingPorts.foldl (fun t p => pumpPort p t) s

/-- Generate the completion of an outstanding command (R134, R139, R154): it leaves the outstanding commands, its holds end, and its entry
waits for a slot. -/
def complete (c : Cmd) (status info : Nat) (s : State) : State :=
  let seq := s.rdS (R.PORT_SEQ_NEXT c.port)
  let e : Comp := {
    uid := c.uid, port := c.port, seq := seq, info := info % 2 ^ 32, tag := c.tag, status := status, sqhead := s.rdS (R.PORT_STAT_SQHEAD c.port)
    sqidx := c.sqidx, block := if s.inTwo then some (s.rind s.senior).step.block else none }
  let s := wrAll (R.PORT_SEQ_NEXT c.port) ((seq + 1) % 2 ^ 32) { s with cmds := s.cmds.filter (fun x => x.uid ≠ c.uid), comps := s.comps ++ [e] }
  let s := s.serving.foldl (fun t d => t.modRind d (fun r => { r with engines := r.engines.map (fun g => { g with held := g.held.filter (· ≠ c.uid) }) })) s
  pumpPort c.port (showSched (retire (freeReleased s)))

/-- The outstanding command of a key (R134): a descriptor whose tag was in use has none. -/
def State.cmdOf (s : State) (port tag : Nat) : Option Cmd := s.cmds.find? (fun c => c.port = port ∧ c.tag = tag ∧ ! c.dup)

/-- Complete the command of a key, where it is outstanding. -/
def endCommand (port tag status info : Nat) (s : State) : State :=
  match s.cmdOf port tag with
  | some c => complete c status info s
  | none => s

/-- Change an outstanding command. -/
def modCmd (uid : Nat) (f : Cmd → Cmd) (s : State) : State := { s with cmds := s.cmds.map (fun c => if c.uid = uid then f c else c) }

/-- Note the failure an outstanding command will report: the first one stands. -/
def failCmd (uid status info : Nat) (s : State) : State :=
  modCmd uid (fun c => if c.fail.isSome then c else { c with fail := some (status, info) }) s

/-! ## Port states (R129, R146, R150, R152, R153) -/

/-- A RUNNING port enters ERROR (R146, R150). -/
def portError (p cause : Nat) (s : State) : State :=
  if s.portState p = 1 then
    raiseAll 0x040 [p, cause] (wrAll (R.PORT_STAT_ERRCAUSE p) cause (wrAll (R.PORT_STAT_STATE p) 3 s))
  else s

/-- A die reads the doorbell line of a port (R147, R149); a die whose head is down reads nothing (R107). -/
def readLineOf (d : RSlot) (p : Nat) (s : State) : State :=
  match s.headOf d (s.portDomain p) with
  | none => s
  | some h => modPort p (fun x => { x with reading := if d ∈ x.reading then x.reading else x.reading ++ [d] }) (s.emit (.hostRead d h (s.dbAddr p) 64))

/-- The admin port of a domain is running (R129). -/
def State.adminRuns (s : State) (dom : Nat) : Bool := (List.range 256).any (fun q => s.isAdmin q && decide (s.portDomain q = dom ∧ s.portState q = 1))

/-- The enable check (R153, R128, R129). Doorbell addresses are compared as they stand, in domains of different hosts too (DESIGN CHOICE 118). -/
def State.enableOk (s : State) (p : Nat) : Bool :=
  let dom := s.portDomain p
  let sq := s.rdS (R.PORT_SIZE_SQSIZE p)
  let cq := s.rdS (R.PORT_SIZE_CQSIZE p)
  decide (2 ≤ sq ∧ sq ≤ 4096 ∧ 2 ≤ cq ∧ cq ≤ 4096 ∧ s.rdS (R.LINK_DOMCFG_EN dom) = 1) &&
  (s.isAdmin p || s.adminRuns dom) &&
  ! (List.range 256).any (fun q => decide (q ≠ p ∧ s.rdS (R.PORT_CFG_EN q) = 1 ∧ s.dbAddr q = s.dbAddr p))

/-- Enable a port (R153). -/
def enablePort (p : Nat) (s : State) : State :=
  if s.enableOk p then
    let s := wrAll (R.PORT_STAT_SQHEAD p) 0 (wrAll (R.PORT_STAT_SQTAIL p) 0 (wrAll (R.PORT_STAT_ERRCAUSE p) 0 (wrAll (R.PORT_STAT_STATE p) 1 s)))
    let s := wrAll (R.PORT_SEQ_NEXT p) 1 (wrAll (R.PORT_OUT_CQHEAD p) 0 (wrAll (R.PORT_CQSTAT_CQTAIL p) 0 (wrAll (R.PORT_CQSTAT_PHASE p) 1 s)))
    inStep (fun d t => readLineOf d p t) (modPort p (fun _ => {}) s)
  else
    raiseAll 0x040 [p, 6] (wrAll (R.PORT_STAT_ERRCAUSE p) 6 (wrAll (R.PORT_CFG_EN p) 0 s))

/-- At READY the ports that are marked enabled start (R130). -/
def startPorts (s : State) : State :=
  let on := (List.range 256).filter (fun p => s.rdS (R.PORT_CFG_EN p) = 1)
  let order := on.filter s.isAdmin ++ on.filter (fun p => ! s.isAdmin p)
  order.foldl (fun t p => if t.portState p = 0 then enablePort p t else t) s

/-- Disable a port (R152). -/
def disablePort (p : Nat) (s : State) : State :=
  drainCheck p (if s.portState p = 1 ∨ s.portState p = 3 then wrAll (R.PORT_STAT_STATE p) 2 s else s)

/-- A write to a port record or a status line address (R128 to R130, R152, R159); `full` says that the requester has set-up right 0b10. A write
of EN = 1 while the port is DRAINING is discarded with a Note, other fields are free to change then, and before READY EN is stored unchecked
(DESIGN CHOICE 119). A port that may not be enabled for want of a running admin port keeps its record (R129). -/
def portRegWrite (ts : List RSlot) (addr : Nat) (rd : RegDef) (v : Word) (full : Bool) (s : State) : State × Nat :=
  let d := s.senior
  let old := s.word (regKey d.code addr)
  let new := storeWord s.part 0 0 rd old v
  let no : State × Nat := (ts.foldl (fun t e => raise e 0x034 [addr] t) s, 2)
  let put (s : State) : State := ts.foldl (fun t e => t.setWord (regKey e.code addr) new) s
  if 0x34000 ≤ addr then (put s, 0)
  else
    let p := (addr - 0x30000) / 64
    let en := decide (s.rdS (R.PORT_CFG_EN p) = 1)
    if addr % 64 ≠ 0 then (if en ∧ new ≠ old then no else (put s, 0))
    else
      let dom (w : Word) : Nat := (R.PORT_CFG_DOMAIN p).get w
      let adm (w : Word) : Nat := (R.PORT_CFG_ADMIN p).get w
      let on (w : Word) : Bool := decide ((R.PORT_CFG_EN p).get w = 1)
      if (dom new ≠ dom old ∨ adm new ≠ adm old) ∧ ! full then no
      else if en ∧ (R.PORT_CFG_EN p).put 1 new ≠ old then no
      else if adm new = 1 ∧ (adm old = 0 ∨ dom new ≠ dom old) ∧
          (List.range 256).any (fun q => decide (q ≠ p) && s.isAdmin q && decide (s.portDomain q = dom new)) then no
      else if en ∧ ! on new ∧ adm old = 1 ∧
          (List.range 256).any (fun q => decide (q ≠ p ∧ s.rdS (R.PORT_CFG_EN q) = 1 ∧ s.portDomain q = dom old)) then no
      else if ! en ∧ on new ∧ s.portState p ≠ 0 then no
      else if ! en ∧ on new ∧ s.isReady ∧ adm new = 0 ∧ ! s.adminRuns (dom new) then
        (raiseAll 0x040 [p, 6] (wrAll (R.PORT_STAT_ERRCAUSE p) 6 s), 2)
      else
        let t := put s
        (if en ∧ ! on new then disablePort p t
         else if ! en ∧ on new ∧ t.isReady then enablePort p t else t, 0)

/-! ## Doorbells (R145 to R151) -/

/-- The slots from the old CQHEAD up to a new one are released (R137). -/
def releaseSlots (p newHead : Nat) (s : State) : State :=
  let n := s.rdS (R.PORT_SIZE_CQSIZE p)
  let k := if n = 0 then 0 else (newHead + n - s.rdS (R.PORT_OUT_CQHEAD p)) % n
  wrAll (R.PORT_OUT_CQHEAD p) newHead (modPort p (fun x => { x with slots := x.slots.drop k }) s)

/-- Apply doorbell values to a port (R145, R146). SQTAIL is checked first, and its failure stands where both values fail; a read whose changed
value fails counts in RINGS (DESIGN CHOICE 120). -/
def applyDoorbell (p sqtail cqhead : Nat) (s : State) : State :=
  if s.portState p = 0 then s
  else
    let sq0 := s.rdS (R.PORT_STAT_SQTAIL p)
    let cq0 := s.rdS (R.PORT_OUT_CQHEAD p)
    if sqtail = sq0 ∧ cqhead = cq0 then incAll (R.PORT_DBCNT_EMPTY p) 1 s
    else
      let n := s.rdS (R.PORT_SIZE_CQSIZE p)
      let sqOk := decide (sqtail < s.rdS (R.PORT_SIZE_SQSIZE p))
      let cqOk := decide (cqhead < n ∧ (cqhead + n - cq0) % n ≤ s.cqUsed p)
      let s := incAll (R.PORT_DBCNT_RINGS p) 1 s
      let s := if sqOk then wrAll (R.PORT_STAT_SQTAIL p) sqtail s else portError p 1 s
      let s := if cqOk then releaseSlots p cqhead s else portError p 2 s
      pumpPort p s

/-- A step entry that carries doorbell values (R151): both dies apply them at the same step, once for the device. -/
def doorbellValues (d : RSlot) (p sqtail cqhead : Nat) (s : State) : State :=
  if d = s.senior then applyDoorbell p sqtail cqhead s else s

/-- A new senior rereads the line of every enabled port (R151). -/
def rereadDoorbells (d : RSlot) (s : State) : State :=
  (List.range 256).foldl (fun t p => if t.portState p ≠ 0 then readLineOf d p t else t) s

/-- A die rereads the lines that it holds (R148). -/
def backstopReads (d : RSlot) (s : State) : State :=
  (List.range 256).foldl (fun t p => if d ∈ (t.portX p).line then readLineOf d p t else t) s

/-! ## Status lines (R156 to R159) -/

/-- The lowest port of a domain in ERROR, and how many (R156). -/
def State.portsInError (s : State) (dom : Nat) : List Nat := (List.range 256).filter (fun p => decide (s.portState p = 3 ∧ s.portDomain p = dom))

/-- DEVSTATE (R156). -/
def State.devState (s : State) : Nat :=
  if ! s.isReady then 0 else match s.rdS R.FAULT_STAT_STATE with
    | 0 => 1
    | 1 => 2
    | _ => 3

/-- Milliseconds left of the grace of a requested throttle (R537). -/
def State.graceLeft (s : State) : Nat :=
  match s.budget.graceEnd with
  | some t => min 0xFFFF (ceilDiv (t - s.now) 1000)
  | none => 0

/-- Bytes 0x00 to 0x2F of the status line (R156). -/
def State.commonPart (s : State) (dom lseq : Nat) : List Byte :=
  let err := s.portsInError dom
  let d := s.senior
  natLe 4 lseq ++ natLe 1 s.devState ++ natLe 1 (if s.part.f = 1 then 0 else s.rdR d R.STEP_STAT_REDUND) ++ natLe 1 d.code ++
  natLe 1 (s.rdR d R.BUDGET_STAT_THROT + 2 * s.rdR d R.BUDGET_STAT_ENF) ++ natLe 4 (s.opsec d) ++ natLe 2 (s.graceLeft) ++
  natLe 2 (err.headD 0xFFFF) ++ natLe 2 err.length ++ natLe 2 (s.rdC 0 R.SPIN_STAT_RPM) ++ natLe 1 (s.rdR d R.BUDGET_STAT_ACTLIM) ++ natLe 3 0 ++
  (List.range 6).flatMap (fun i => natLe 4 (s.rdR d (R.FAULT_RUNG_COUNT i)))

/-- HEADSUP of a die (R156). -/
def State.headsUp (s : State) (d : RSlot) : Nat :=
  (List.range 4).foldl (fun a h => if s.rdR d (R.LINK_HEADSTAT_STATE h) = 2 then a + 2 ^ h else a) 0

/-- A die word (R156). -/
def State.dieWord (s : State) (d : RSlot) (dwseq : Nat) : List Byte := natLe 4 dwseq ++ natLe 1 (s.role d) ++ natLe 1 (s.headsUp d) ++ natLe 2 0

/-- The status line record of a domain. -/
def State.lineOf (s : State) (dom : Nat) : StatLine := assocGet dom {} s.lines

/-- The status line of a domain is written (R159). -/
def State.lineOn (s : State) (dom : Nat) : Bool := decide (s.rdS (R.PORT_SLLO_SLEN dom) = 1)

/-- The address of a domain's status line. -/
def State.lineAddr (s : State) (dom : Nat) : Nat := s.addr64 (R.PORT_SLLO_ADDR dom) (R.PORT_SLHI_ADDR dom)

/-- Advance DWSEQ of a die for a domain and answer it. -/
def nextDw (d : RSlot) (dom : Nat) (s : State) : Nat × State :=
  let x := s.lineOf dom
  let n := (match d with
    | .f0 => x.dwseq0
    | .f1 => x.dwseq1) + 1
  (n % 2 ^ 32, { s with lines := assocPut dom (match d with
    | .f0 => { x with dwseq0 := n % 2 ^ 32 }
    | .f1 => { x with dwseq1 := n % 2 ^ 32 }) s.lines })

/-- A die writes its die word of a domain alone. -/
def writeDieWord (d : RSlot) (dom : Nat) (s : State) : State :=
  if s.lineOn dom ∧ (s.headOf d dom).isSome then
    let r := nextDw d dom s
    hostPut d dom (s.lineAddr dom + 0x30 + 8 * d.code) (s.dieWord d r.1) r.2
  else s

/-- A change of ROLE or HEADSUP: the die word is written for every domain (R157). -/
def dieWordDue (d : RSlot) (s : State) : State := (List.range 16).foldl (fun t dom => writeDieWord d dom t) s

/-- Change the status line record of a domain. -/
def modLine (dom : Nat) (f : StatLine → StatLine) (s : State) : State := { s with lines := assocPut dom (f (s.lineOf dom)) s.lines }

/-- A die writes the common part of a domain's status line as last formed, with its die word (R157): F0 as one write, F1 as two; with its head
down the common part is held (R107). -/
def writeCommon (d : RSlot) (dom : Nat) (s : State) : State :=
  let x := s.lineOf dom
  if (s.headOf d dom).isNone then modLine dom (fun y => { y with held := if d ∈ y.held then y.held else d :: y.held }) s
  else
    let r := nextDw d dom (modLine dom (fun y => { y with held := y.held.erase d }) s)
    let a := s.lineAddr dom
    match d with
    | .f0 => hostPut d dom a (x.last ++ s.dieWord d r.1) r.2
    | .f1 => hostPut d dom (a + 0x38) (s.dieWord d r.1) (hostPut d dom a x.last r.2)

/-- An update of a domain's status line (R157): every serving die writes the common part, with one LSEQ, and its die word. -/
def statusUpdate (dom : Nat) (s : State) : State :=
  if s.lineOn dom then
    let n := ((s.lineOf dom).lseq + 1) % 2 ^ 32
    let common := s.commonPart dom n
    let s := modLine dom (fun x => { x with lseq := n, last := common }) s
    s.serving.foldl (fun t d => writeCommon d dom (digestAdd d (natLe 8 (t.lineAddr dom) ++ common) t)) s
  else s

/-- A new status line address (R159): it is enabled or changed, and its first update goes out at once, numbered from 1 (DEDUCED 121). -/
def lineMoved (dom : Nat) (was : Bool × Nat) (s : State) : State :=
  if s.lineOn dom ∧ was ≠ (true, s.lineAddr dom) then statusUpdate dom (modLine dom (fun _ => {}) s) else s

/-! ## Sole writers and heads (R107, R142, R143, R148, R501, R502) -/

/-- The rewrite pass of a die for a domain (R143): every entry from CQHEAD to CQTAIL on every enabled port of it, then the common part of its
status line as last written. -/
def rewritePass (d : RSlot) (dom : Nat) (s : State) : State :=
  let s := (List.range 256).foldl (fun t p =>
    if t.portState p ≠ 0 ∧ t.portDomain p = dom then
      (t.portX p).slots.foldl (fun t e => hostPut d dom (t.cqBase p + 16 * e.1) e.2 t) t
    else t) s
  if s.lineOn dom then writeCommon d dom s else s

/-- The die becomes the sole writer for a domain that its peer shared (R143): two rewrite passes are due. -/
def soleWriter (d : RSlot) (dom : Nat) (s : State) : State :=
  if s.bitR d (R.LINK_DOMCFG_EN dom) ∧ s.attached d dom ∧ s.attached d.peer dom then
    s.modRind d (fun r => { r with sole := assocPut dom 2 r.sole })
  else s

/-- The die becomes the sole writer for every domain that its peer shared: the peer has fenced, or its resync starts (R143). -/
def soleWriterAll (d : RSlot) (s : State) : State := (List.range 16).foldl (fun t dom => soleWriter d dom t) s

/-- What a die held for its heads is given up with the die (R515): data, status lines and rewrite passes. -/
def dropHeld (d : RSlot) (s : State) : State :=
  let s := s.modRind d (fun r => { r with held := [], sole := [] })
  { s with lines := s.lines.map (fun e => (e.1, { e.2 with held := e.2.held.erase d })) }

/-- A die becomes the sole server (R502): it rewrites the host data of the commands whose completions it holds, then writes those. -/
def releaseUnconfirmed (d : RSlot) (s : State) : State :=
  let s := s.hostLog.foldl (fun t e => if t.comps.any (fun c => c.uid = e.1) then hostPut d e.2.1 e.2.2.1 e.2.2.2 t else t) s
  pumpAll s

/-- A digest block is confirmed (R501): the completions generated in it may be written. -/
def releaseConfirmed (_d : RSlot) (_b : Nat) (s : State) : State := pumpAll s

/-- A host link event takes a step (R494): training, down and PERST# of a head, with its new LINK_HEADSTAT. -/
def hostLinkStep (d : RSlot) (h : Nat) (s : State) : State :=
  if s.isReady then newStep 0x04 (16 * d.code + h) (s.word (regKey d.code (R.LINK_HEADSTAT_STATE h).off)).toNat s else s

/-- A head comes up (R107, R148, R155): held traffic is released (data before completions, R140, and the status lines), the line of every
enabled port on the head is read, those enabled while it was down among them (R153), and the die word changes. -/
def headUp (d : RSlot) (h : Nat) (s : State) : State :=
  let s := if d ∈ s.serving then pumpAll (releaseHeld d s) else s
  let s := (List.range 16).foldl (fun t dom => if d ∈ (t.lineOf dom).held ∧ t.lineOn dom ∧ (t.headOf d dom).isSome then writeCommon d dom t else t) s
  dieWordDue d ((List.range 256).foldl (fun t p =>
    if d ∈ s.serving ∧ t.portState p ≠ 0 ∧ s.headOf d (s.portDomain p) = some h then readLineOf d p t else t) s)

/-- Change what the port engine holds for every port whose domain names a head of a die. -/
def modHeadPorts (d : RSlot) (h : Nat) (f : PortX → PortX) (s : State) : State :=
  { s with ports := s.ports.map (fun e => if s.rdR d (R.LINK_DOMCFG_HEAD (s.rdR d (R.PORT_CFG_DOMAIN e.1))) = h then (e.1, f e.2) else e) }

/-- A head goes down or is held in PERST# (R73, R107): reads that are outstanding on it wait for its return, when every line is read again
(R155); the peer is the sole writer of the domains the head carried (R143). -/
def headLost (d : RSlot) (h st : Nat) (s : State) : State :=
  let was := (List.range 16).filter (fun dom => s.headOf d dom = some h)
  let s := ((s.wrR d (R.LINK_HEADSTAT_STATE h) st).wrR d (R.LINK_HEADSTAT_RATE h) 0).wrR d (R.LINK_HEADSTAT_WIDTH h) 0
  let s := modHeadPorts d h (fun x => { x with reading := x.reading.erase d }) s
  let s := if s.inTwo then was.foldl (fun t dom => soleWriter d.peer dom t) s else s
  dieWordDue d ((s.wrR d (R.LINK_HEADSTAT_PROTO h) 0).wrR d (R.LINK_HEADSTAT_LDACT h) 0)

end Sys2Proof.Machine
end

