-- ==== Sys2Proof/Machine/CmdOps.lean ====
section
/-! DEFINITION. Commands: the checks of admission, arbitration, admission and completion (R162 to R189, R202 to R222). -/

namespace Sys2Proof.Machine

/-! ## Values of descriptors -/

/-- The bytes from `off` to `off + len` are 0 (R169). -/
def Cmd.zero (c : Cmd) (off len : Nat) : Bool := decide (c.fld off len = 0)

/-- PORTMASK of a FENCE names a port (R179). -/
def Cmd.inMask (c : Cmd) (p : Nat) : Bool := (c.fld (8 + p / 8) 1).testBit (p % 8)

/-- The volume descriptor in VALUE (R195, R196). -/
def Cmd.volDesc (c : Cmd) : VolDesc where
  cls := c.fld 0x10 1
  ring := (c.fld 0x11 1).testBit 0
  tpar := (c.fld 0x11 1).testBit 1
  groups := c.fld 0x12 1
  cap := c.fld 0x14 4
  rdmask := c.fld 0x18 2
  wrmask := c.fld 0x1A 2
  label := (c.desc.drop 0x20).take 16

/-- FLAGS that an opcode defines (R170). -/
def flagsOf (op : Nat) : Nat :=
  match op with
  | 0x01 => 0x0B
  | 0x02 => 0x07
  | 0x03 => 0x17
  | 0x05 => 0x20
  | 0x07 => 0x04
  | 0x83 => 0x40
  | _ => 0

/-- The opcodes (R168). -/
def knownOps : List Nat := [1, 2, 3, 4, 5, 6, 7, 8, 9, 0x80, 0x81, 0x82, 0x83, 0x84, 0x85]

/-- The opcode names a volume in VOLUME (R168). -/
def Cmd.namesVolume (c : Cmd) : Bool := decide (c.op ∈ [1, 2, 3, 6, 7, 8]) || (decide (c.op = 5) && ! c.flag 5)

/-- Temperature thresholds and hystereses in VALUE (R195, R524): each pair signed threshold, hysteresis. -/
def Cmd.thermal (c : Cmd) (j : Nat) : Int × Nat := (sgn 16 (c.fld (0x10 + 4 * j) 2), c.fld (0x12 + 4 * j) 2)

/-- Thresholds in order and hystereses in range (R524). -/
def thermalOk (w t sd : Int) (hw ht hs : Nat) : Bool :=
  decide (w < t ∧ t < sd ∧ sd ≤ 1300 ∧ 10 ≤ hw ∧ hw ≤ 200 ∧ 10 ≤ ht ∧ ht ≤ 200 ∧ 10 ≤ hs ∧ hs ≤ 200)

/-- The die index of the THERMAL feature names a die of the part (R195); another is INVALID_FIELD (DESIGN CHOICE 139). -/
def State.dieIndex (s : State) (i : Nat) : Bool := decide (i < s.part.f ∨ (8 ≤ i ∧ i < 8 + s.part.c))

/-- INDEX is one the feature has (R195). -/
def State.indexOk (s : State) (fid i : Nat) : Bool :=
  match fid with
  | 0x02 => s.dieIndex i
  | 0x04 => decide (i < 16)
  | 0x06 => sourceUsed i
  | 0x10 => decide (i < 64)
  | _ => decide (i = 0)

/-- The features (R195): TURNING is none in F1 parts. -/
def State.fidOk (s : State) (fid : Nat) : Bool := decide (fid ∈ [1, 2, 4, 5, 6, 7, 0x10]) || (decide (fid = 3) && decide (s.part.f = 2))

/-- VALUE of a SET_FEATURES lies in its range, with unused bytes 0 (R195, R196); WACC 0b11 is out of it (DESIGN CHOICE 139). -/
def State.valueOk (s : State) (c : Cmd) : Bool :=
  match c.fld 8 1 with
  | 0x01 => decide (50 ≤ c.fld 0x10 2 ∧ c.fld 0x10 2 ≤ 90 * s.part.f + 26 * s.part.c) && c.zero 0x12 30
  | 0x02 => thermalOk (c.thermal 0).1 (c.thermal 1).1 (c.thermal 2).1 (c.thermal 0).2 (c.thermal 1).2 (c.thermal 2).2 && c.zero 0x1C 20
  | 0x03 => decide (5 ≤ c.fld 0x10 2 ∧ c.fld 0x10 2 ≤ 1440) && c.zero 0x12 30
  | 0x04 => decide (c.fld 0x10 2 ≤ 192 ∧ c.fld 0x12 2 ≤ 255 ∧ c.fld 0x14 1 ≤ 2) && c.zero 0x15 27
  | 0x05 => decide (450 ≤ c.fld 0x10 2 ∧ c.fld 0x10 2 ≤ 3200 ∧ 1 ≤ c.fld 0x12 1) && c.zero 0x13 29
  | 0x06 => decide (c.fld 0x10 1 ≤ 4 ∧ c.fld 0x11 1 ≤ 1 ∧ 1 ≤ c.fld 0x12 2 ∧ 1 ≤ c.fld 0x14 4) && c.zero 0x18 24
  | 0x07 => c.zero 0x10 32
  | 0x10 =>
    let d := c.volDesc
    decide (d.cls ≤ 2 ∧ c.fld 0x11 1 < 4 ∧ ! (d.ring ∧ d.cls ≠ 2) ∧ d.groups < 64) && c.zero 0x13 1 && c.zero 0x1C 4 &&
    (decide (d.cls = 0) || decide (1 ≤ d.cap))
  | _ => true

/-- SAVE is as the feature needs it (R195): required for WINDOW and VOLUME, clear for FAULTCLR. -/
def Cmd.saveOk (c : Cmd) : Bool :=
  match c.fld 8 1 with
  | 0x04 => c.flag 6
  | 0x10 => c.flag 6
  | 0x07 => ! c.flag 6
  | _ => true

/-- The fields of a descriptor in order of offset, and whether each is good (R169, R171 to R201). -/
def State.fieldChecks (s : State) (c : Cmd) : List (Nat × Bool) :=
  let op := c.op
  let flags := decide (c.fld 1 1 &&& (0xFF - flagsOf op) = 0)
  let head (fl : Bool) : List (Nat × Bool) := [(1, flags && fl), (4, ! c.namesVolume || decide (c.vol < 64)), (5, c.zero 5 3)]
  match op with
  | 0x04 =>
    head true ++ [(8, (List.range 256).all (fun p => ! c.inMask p || decide (s.portDomain p = s.portDomain c.port))), (0x28, c.zero 0x28 24)]
  | 0x05 => head true ++ [(8, c.zero 8 56)]
  | 0x06 => head true ++ [(0x10, decide (1 ≤ c.nblk)), (0x14, c.zero 0x14 44)]
  | 0x07 => head true ++ [(0x10, decide (1 ≤ c.nblk ∧ c.nblk ≤ 65536)), (0x14, decide (c.fld 0x14 1 < 64)), (0x15, c.zero 0x15 3), (0x20, c.zero 0x20 32)]
  | 0x08 => head true ++ [(0x10, decide (1 ≤ c.nblk ∧ c.nblk ≤ 65536)), (0x14, c.zero 0x14 4), (0x18, decide (c.fld 0x18 8 % 4096 = 0)), (0x20, c.zero 0x20 32)]
  | 0x09 =>
    head true ++ [(8, decide (c.fld 8 2 < 256 ∧ s.portDomain (c.fld 8 2) = s.portDomain c.port ∧ ! (c.fld 8 2 = c.port ∧ c.fld 0xA 2 = c.tag))),
      (0xC, c.zero 0xC 52)]
  | 0x80 =>
    head true ++ [(8, decide (c.fld 8 1 ≤ 1)), (9, c.zero 9 1), (0xA, decide (c.fld 8 1 ≠ 1 ∨ c.fld 0xA 2 < 64)), (0xC, c.zero 0xC 4), (0x18, c.zero 0x18 40)]
  | 0x81 =>
    head true ++ [(8, decide (1 ≤ c.fld 8 1 ∧ c.fld 8 1 ≤ 4)), (9, c.zero 9 3),
      (0xC, decide (64 ≤ c.fld 0xC 4 ∧ c.fld 0xC 4 ≤ 1048576 ∧ c.fld 0xC 4 % 64 = 0)), (0x20, c.zero 0x20 32)]
  | 0x82 =>
    head true ++ [(8, s.fidOk (c.fld 8 1) && decide (c.fld 8 1 ≠ 7)), (9, decide (c.fld 9 1 ≤ 2)), (0xA, s.indexOk (c.fld 8 1) (c.fld 0xA 2)),
      (0xC, c.zero 0xC 4), (0x10, c.zero 0x10 32), (0x38, c.zero 0x38 8)]
  | 0x83 =>
    head c.saveOk ++ [(8, s.fidOk (c.fld 8 1)), (9, c.zero 9 1), (0xA, s.indexOk (c.fld 8 1) (c.fld 0xA 2)), (0xC, c.zero 0xC 4),
      (0x10, s.valueOk c), (0x30, c.zero 0x30 8), (0x38, c.zero 0x38 8)]
  | 0x84 =>
    head true ++ [(8, decide (c.fld 8 4 % 4096 = 0 ∧ c.fld 8 4 ≤ 16777216)),
      (0xC, decide (c.fld 0xC 4 % 4096 = 0 ∧ 4096 ≤ c.fld 0xC 4 ∧ c.fld 0xC 4 ≤ 1048576 ∧ c.fld 8 4 + c.fld 0xC 4 ≤ 16777216)), (0x18, c.zero 0x18 40)]
  | 0x85 => head true ++ [(8, c.zero 8 56)]
  | _ =>
    let sgl := c.flag 0
    head true ++ [(8, decide (op ≠ 3 ∨ c.fld 8 8 = 0)), (0x10, decide (1 ≤ c.nblk ∧ c.nblk ≤ 2048)), (0x14, c.zero 0x14 4),
      (0x18, ! sgl || decide (c.fld 0x18 8 % 16 = 0)), (0x20, if sgl then c.zero 0x20 4 else decide (c.fld 0x20 4 = 4096 * c.nblk)), (0x24, c.zero 0x24 4),
      (0x28, c.flag 1 || c.zero 0x28 8), (0x30, if op = 3 ∧ c.flag 4 then decide (c.fld 0x30 8 % 8 = 0) else c.zero 0x30 8), (0x38, c.zero 0x38 8)]

/-- The byte offset of the first bad field (R187, R188). -/
def State.badField (s : State) (c : Cmd) : Option Nat := ((s.fieldChecks c).find? (fun p => ! p.2)).map Prod.fst

/-! ## Volumes, access, class and range (R163 to R167, R175, R182, R184, R247) -/

/-- The domain of a command. -/
def State.domOf (s : State) (c : Cmd) : Nat := s.portDomain c.port

/-- The volumes a command names. -/
def Cmd.volumes (c : Cmd) : List Nat := (if c.namesVolume then [c.vol] else []) ++ (if c.op = 7 then [c.fld 0x14 1] else [])

/-- A command is let at a volume by its masks (R167). -/
def State.accessOk (s : State) (c : Cmd) : Bool :=
  let rd (v : Nat) : Bool := ((s.xlat.t.vol? v).map (fun x => x.desc.rdmask.testBit (s.domOf c))).getD false
  let wr (v : Nat) : Bool := ((s.xlat.t.vol? v).map (fun x => x.desc.wrmask.testBit (s.domOf c))).getD false
  match c.op with
  | 1 => rd c.vol
  | 8 => rd c.vol
  | 7 => rd c.vol && wr (c.fld 0x14 1)
  | 2 => wr c.vol
  | 3 => wr c.vol
  | 6 => wr c.vol
  | 5 => c.flag 5 || rd c.vol || wr c.vol
  | 0x83 => decide (s.rdS (R.LINK_DOMCFG_SETUP (s.domOf c)) = 2)
  | _ => true

/-- The opcode applies to the class (R166). -/
def State.classOk (s : State) (c : Cmd) : Bool :=
  let stream (v : Nat) : Bool := ((s.xlat.t.vol? v).map Volume.stream).getD false
  match c.op with
  | 2 => ! stream c.vol
  | 3 => stream c.vol
  | 7 => ! stream (c.fld 0x14 1)
  | _ => true

/-- The addresses valid for reading (R163). -/
def Volume.valid (x : Volume) : Nat × Nat := if x.stream then (x.retlo, x.wp) else (0, x.desc.cap * 65536)

/-- The blocks lie in the volume. -/
def State.inRange (s : State) (v lo n : Nat) : Bool :=
  match s.xlat.t.vol? v with
  | some x => decide (x.valid.1 ≤ lo ∧ lo + n ≤ x.valid.2)
  | none => false

/-- Size of a domain's window in bytes (R184). -/
def State.windowSize (s : State) (dom : Nat) : Nat :=
  if s.rdS (R.LINK_DOMWIN_WACC dom) = 0 then 0 else s.rdS (R.LINK_DOMWIN_SIZE dom) * 2 ^ 28

/-- The range check (R164, R175, R181, R182, R184, R247): the status and INFO of a failure. -/
def State.rangeFail (s : State) (c : Cmd) : Option (Nat × Nat) :=
  let out : Option (Nat × Nat) := some (St.outOfRange, 0)
  match c.op with
  | 1 => if s.inRange c.vol c.slba c.nblk then none else out
  | 2 => if s.inRange c.vol c.slba c.nblk then none else out
  | 3 =>
    match s.xlat.t.vol? c.vol with
    | none => none
    | some x =>
      if 2 ^ 48 < x.wp + c.nblk ∨ (! x.desc.ring ∧ x.desc.cap * 65536 < x.wp + c.nblk - x.retlo) then some (St.volumeFull, 0) else none
  | 6 =>
    match s.xlat.t.vol? c.vol with
    | none => none
    | some x => if x.stream then (if c.slba = x.retlo then none else some (St.invalidField, 8)) else if s.inRange c.vol c.slba c.nblk then none else out
  | 7 => if s.inRange c.vol c.slba c.nblk ∧ s.inRange (c.fld 0x14 1) (c.fld 0x18 8) c.nblk then none else out
  | 8 =>
    if s.windowSize (s.domOf c) = 0 then some (St.noWindow, 0)
    else if s.inRange c.vol c.slba c.nblk ∧ c.fld 0x18 8 + 4096 * c.nblk ≤ s.windowSize (s.domOf c) then none else out
  | _ => none

/-- The checks of admission in the order of R188: status and INFO of the first that fails. -/
def State.admission (s : State) (c : Cmd) : Option (Nat × Nat) :=
  if c.op ∉ knownOps then some (St.invalidOpcode, 0)
  else if 0x80 ≤ c.op ∧ ! s.isAdmin c.port then some (St.adminOnly, 0)
  else if c.dup then some (St.tagInUse, 0)
  else if c.op < 0x80 ∧ s.rdS R.FAULT_STAT_STATE = 2 then some (St.faultLatched, 0)
  else match s.badField c with
    | some off => some (St.invalidField, off)
    | none =>
      if c.volumes.any (fun v => (s.xlat.t.vol? v).isNone) then some (St.noVolume, 0)
      else if ! s.accessOk c then some (St.accessDenied, 0)
      else if ! s.classOk c then some (St.classMismatch, 0)
      else s.rangeFail c

/-! ## Arbitration (R202 to R206) -/

/-- The cost of a descriptor (R204). -/
def State.cost (s : State) (c : Cmd) : Nat :=
  if c.op ∈ [1, 2, 3, 7, 8] ∧ (s.admission c).isNone then 1 + (c.nblk - 1) / 64 else 1

/-- A port is eligible (R202): its head is up on a serving die, for a head that is down is never used for host memory (R107, R155). -/
def State.portEligible (s : State) (p : Nat) : Bool :=
  decide (s.portState p = 1 ∧ 0 < s.sqUnfetched p ∧ s.tableUsed < 16384) && ! s.boot.restarting &&
  s.serving.any (fun d => (s.headOf d (s.portDomain p)).isSome)

/-- CLASS of a port: 0 Low, 1 Medium, 2 High, 3 Urgent, 4 admin (R202, R225). -/
def State.portClass (s : State) (p : Nat) : Nat := if s.isAdmin p then 4 else s.rdS (R.PORT_SCHED_CLASS p)

/-- The first eligible port of a class after `last`, round the 256 ports (R203). -/
def State.nextPort (s : State) (cls last : Nat) : Option Nat :=
  ((List.range 256).map (fun i => (last + 1 + i) % 256)).find? (fun p => s.portEligible p && decide (s.portClass p = cls))

/-- The class at a position of a round: High, Medium, Low. -/
def roundClass (i : Nat) : Nat := 2 - i

/-- The deficit, last port and effective weight of a position. -/
def Sched.dc (x : Sched) (i : Nat) : Int := if i = 0 then x.dcH else if i = 1 then x.dcM else x.dcL
/-- Last port of a position. -/
def Sched.last (x : Sched) (i : Nat) : Nat := if i = 0 then x.lastH else if i = 1 then x.lastM else x.lastL
/-- Effective weight of a position. -/
def Sched.ew (x : Sched) (i : Nat) : Nat := if i = 0 then x.ewH else if i = 1 then x.ewM else x.ewL
/-- Set a deficit. -/
def Sched.setDc (x : Sched) (i : Nat) (v : Int) : Sched := if i = 0 then { x with dcH := v } else if i = 1 then { x with dcM := v } else { x with dcL := v }
/-- Set a last port. -/
def Sched.setLast (x : Sched) (i v : Nat) : Sched := if i = 0 then { x with lastH := v } else if i = 1 then { x with lastM := v } else { x with lastL := v }
/-- The deficit of a port. -/
def Sched.portDc (x : Sched) (p : Nat) : Int := assocGet p 0 x.dp
/-- Set the deficit of a port. -/
def Sched.setPortDc (x : Sched) (p : Nat) (v : Int) : Sched := { x with dp := assocPut p v x.dp }

/-- Leave the port in service (R205). -/
def Sched.leavePort (x : Sched) (i p : Nat) (eligible : Bool) : Sched :=
  let x := if ! eligible ∧ 0 < x.portDc p then x.setPortDc p 0 else x
  { x.setLast i p with serving := none }

/-- The port that the deficit round-robin grants next (R205), with its position and the arbiter's state before the grant is charged. -/
def State.drr (s : State) : Nat → Sched → Option (Nat × Nat × Sched)
  | 0, _ => none
  | n + 1, x =>
    let i := x.at_
    let cls := roundClass i
    let someEligible := (s.nextPort cls (x.last i)).isSome
    if ! x.opened then
      let x := if i = 0 then { x with ewH := s.rdS R.SCHED_ADMIT_EH, ewM := s.rdS R.SCHED_ADMIT_EM, ewL := s.rdS R.SCHED_ADMIT_EL } else x
      if ! someEligible then
        s.drr n { (if 0 < x.dc i then x.setDc i 0 else x) with at_ := (i + 1) % 3 }
      else s.drr n { x.setDc i (x.dc i + (x.ew i : Int)) with opened := true }
    else
      match x.serving with
      | some p =>
        if 0 < x.portDc p ∧ s.portEligible p ∧ 0 < x.dc i then some (p, i, x) else s.drr n (x.leavePort i p (s.portEligible p))
      | none =>
        if 0 < x.dc i then
          match s.nextPort cls (x.last i) with
          | some p => s.drr n { x.setPortDc p (x.portDc p + (s.rdS (R.PORT_SCHED_WEIGHT p) : Int)) with serving := some p }
          | none => s.drr n { x with opened := false, at_ := (i + 1) % 3 }
        else s.drr n { x with opened := false, at_ := (i + 1) % 3 }

/-- The round in progress has yet to reach a position: its weight is the one that the round began with (R206). -/
def Sched.ahead (x : Sched) (i : Nat) : Bool :=
  decide ((x.at_ ≠ 0 ∨ x.opened) ∧ (x.at_ < i ∨ (x.at_ = i ∧ ! x.opened)))

/-- Some class can be served: an eligible port, and a weight above 0, of the round in progress where it has yet to come to the class or of the next
one, or a deficit left. -/
def State.canServe (s : State) : Bool :=
  (List.range 3).any (fun i => (s.nextPort (roundClass i) 255).isSome &&
    (decide (0 < s.rdS ([R.SCHED_ADMIT_EH, R.SCHED_ADMIT_EM, R.SCHED_ADMIT_EL].getD i R.SCHED_ADMIT_EH)) || decide (0 < s.sched.dc i ∧ s.sched.opened) ||
      (s.sched.ahead i && decide (0 < s.sched.ew i))))

/-- A positive deficit of a class with no eligible port is not banked (R205). -/
def Sched.unbank (x : Sched) (i : Nat) (eligible : Bool) : Sched := if ! eligible ∧ 0 < x.dc i then x.setDc i 0 else x

/-- The arbiter once a grant to a port of a class is charged (R205): the port is left where it can be served no further, and where no class can
be served the round ends, with no class banking a deficit; the next work starts a round. -/
def State.afterGrant (s : State) (i p : Nat) : Sched :=
  let x := s.sched
  let x := if 0 < x.portDc p ∧ s.portEligible p ∧ 0 < x.dc i then x else x.leavePort i p (s.portEligible p)
  if ({ s with sched := x } : State).canServe then x
  else
    let up (j : Nat) : Bool := (s.nextPort (roundClass j) 255).isSome
    { (((x.unbank 0 (up 0)).unbank 1 (up 1)).unbank 2 (up 2)) with at_ := 0, opened := false, serving := none }

/-- Steps that the round-robin takes at most before it grants: a deficit is at least -8,191 (8 COPYs of 65,536 blocks), every visit adds 1 or more to
that of one of 256 ports or, a round, of a class, and a visit takes three steps at most. -/
def drrSteps : Nat := 16777216

/-- The arbiter's choice (R203): admin, then Urgent, then the round-robin; the position is none for the first two. -/
def State.arbitrate (s : State) : Option (Nat × Option Nat × Sched) :=
  match s.nextPort 4 s.sched.lastA with
  | some p => some (p, none, { s.sched with lastA := p })
  | none =>
    match s.nextPort 3 s.sched.lastU with
    | some p => some (p, none, { s.sched with lastU := p })
    | none => if s.canServe then (s.drr drrSteps s.sched).map (fun r => (r.1, some r.2.1, r.2.2)) else none

/-- Entries that a grant to a port fetches (R204). -/
def State.burst (s : State) (p : Nat) : Nat := min (min 8 (s.rdS R.SCHED_CFG_BURST)) (min (s.sqUnfetched p) (16384 - s.tableUsed))

/-- Take fetched descriptors into the outstanding table (R132, R134, R135): consecutive slots from SQHEAD. -/
def takeDescs (p : Nat) : List (List Byte) → State → State
  | [], s => s
  | b :: rest, s =>
    let h := s.rdS (R.PORT_STAT_SQHEAD p)
    let tag := leNat ((b.drop 2).take 2)
    let c : Cmd := { uid := s.nextUid, port := p, tag := tag, sqidx := h, desc := b, dup := (s.cmdOf p tag).isSome }
    let s := wrAll (R.PORT_STAT_SQHEAD p) ((h + 1) % s.rdS (R.PORT_SIZE_SQSIZE p)) { s with cmds := s.cmds ++ [c], nextUid := s.nextUid + 1 }
    takeDescs p rest s

/-- A grant (R203 to R205): the port's descriptors are fetched, its class and itself charged. -/
def grant (descs : List (List Byte)) (s : State) : State :=
  match s.arbitrate with
  | none => s
  | some (p, pos, x) =>
    if descs.length ≠ s.burst p ∨ descs.any (fun b => b.length ≠ 64) then s
    else
      let uid := s.nextUid
      let s := takeDescs p descs { s with sched := x }
      let new := s.cmds.filter (fun c => uid ≤ c.uid)
      let k : Int := ((new.map s.cost).sum : Nat)
      let s := match pos with
        | some i =>
          let t : State := { s with sched := (s.sched.setPortDc p (s.sched.portDc p - k)).setDc i (s.sched.dc i - k) }
          { t with sched := t.afterGrant i p }
        | none => s
      showSched (showPort p (incAll (R.SCHED_GRANT_COUNT (s.portClass p)) new.length s))

/-- SCHED_ADMIT follows SCHED_CLASSW while no throttle is enforced (R206). -/
def showAdmit (s : State) : State :=
  s.rinds.foldl (fun t d =>
    if t.rdR d R.SCHED_ADMIT_ENF = 0 then
      ((t.wrR d R.SCHED_ADMIT_EH (t.rdR d R.SCHED_CLASSW_WH)).wrR d R.SCHED_ADMIT_EM (t.rdR d R.SCHED_CLASSW_WM)).wrR d R.SCHED_ADMIT_EL
        (t.rdR d R.SCHED_CLASSW_WL)
    else t) s

/-! ## Admission (R209, R213, R216 to R220) -/

/-- A command waits for a creation or deletion of a volume that it names or shows (R197): admitted, the change is applied once its record is
saved (R198), and a command fetched after it sees the new state. -/
def State.awaitsVolume (s : State) (c : Cmd) : Bool :=
  match s.xlat.pendingVol with
  | some (v, new) =>
    (new.isNone || (s.xlat.t.vol? v).isNone) &&
    (decide (v ∈ c.volumes) || decide ((c.op = 0x82 ∨ c.op = 0x83) ∧ c.fld 8 1 = 0x10 ∧ c.fld 0xA 2 = v) ||
      decide (c.op = 0x80 ∧ (c.fld 8 1 = 0 ∨ c.fld 0xA 2 = v)))
  | none => false

/-- The next command of a port for admission (R197, R202, R217): the oldest fetched one, unless it waits behind a FENCE or for a volume. -/
def State.nextFetched (s : State) (p : Nat) : Option Cmd :=
  match s.cmds.find? (fun c => c.port = p ∧ c.phase = .fetched) with
  | some c => if s.behindFence c || s.awaitsVolume c then none else some c
  | none => none

/-- The command is admitted (R209): it takes the next admission index. -/
def admitCmd (c : Cmd) (s : State) : State :=
  modCmd c.uid (fun x => { x with phase := .admitted, index := s.nextIndex, at_ := s.now }) { s with nextIndex := s.nextIndex + 1 }

/-- Admit the next command of a port where its opcode is `ops`'s: a check that fails completes it (R188), an aborted one completes ABORTED. -/
def admitWith (p : Nat) (ops : Nat → Bool) (f : Cmd → State → State) (s : State) : State :=
  match s.nextFetched p with
  | none => s
  | some c =>
    if ! ops c.op ∨ s.boot.restarting then s
    else match c.fail with
      | some (st, info) => complete c st info s
      | none =>
        match s.admission c with
        | some (st, info) => complete c st info s
        | none => showSched (showPort p (f c s))

/-- Bands of a ring volume that blocks lie in (R178). -/
def State.ringBands (s : State) (v lo n : Nat) : List (Nat × Nat) :=
  match s.xlat.t.vol? v with
  | some x =>
    if x.stream ∧ x.desc.ring ∧ 0 < n then (List.range ((lo + n - 1) / 65536 - lo / 65536 + 1)).map (fun i => (v, lo / 65536 + i)) else []
  | none => []

/-- Make the versions of a run of blocks (R209). -/
def makeVersions (c : Cmd) (v lo n : Nat) (s : State) : State :=
  let i := ((s.cmds.find? (fun x => x.uid = c.uid)).map Cmd.index).getD 0
  { s with versions := s.versions ++ (List.range n).map (fun k => (⟨v, lo + k, i, c.port, c.uid, false, false, false, s.now, false, [], false⟩ : Version)) }

/-- Make the versions of a TRIM (R181, R209): whole at once; a block that reads as zero and has no version needs none. -/
def makeTrims (c : Cmd) (s : State) : State :=
  let i := ((s.cmds.find? (fun x => x.uid = c.uid)).map Cmd.index).getD 0
  let live := (s.xlat.t.bands.filter (fun b => b.vol = c.vol ∧ b.mapped)).flatMap (fun b => b.live.map (fun o => 65536 * b.vband + o))
  let blks := ((live ++ (s.versions.filter (fun x => x.vol = c.vol)).map Version.blk).filter (fun b => c.covers c.vol b)).dedup
  { s with versions := s.versions ++ blks.map (fun b => (⟨c.vol, b, i, c.port, c.uid, true, true, false, s.now, false, [], false⟩ : Version)) }

/-- Admit a READ (R175, R178, R211). -/
def admitRead (c : Cmd) (s : State) : State := modCmd c.uid (fun x => { x with holds := s.ringBands c.vol c.slba c.nblk }) (admitCmd c s)

/-- Admit a WRITE (R209, R212). -/
def admitWrite (c : Cmd) (s : State) : State := makeVersions c c.vol c.slba c.nblk (admitCmd c s)

/-- A ring volume that an append would overfill releases its oldest bands (R164). -/
def ringAdvance (v wp : Nat) : Nat → State → State
  | 0, s => s
  | n + 1, s =>
    match s.xlat.t.vol? v with
    | none => s
    | some x =>
      if x.desc.ring ∧ x.desc.cap * 65536 < wp - x.retlo then
        let s := modT (fun t => t.putVol v { x with retlo := x.retlo + 65536 }) (releaseBand v (x.retlo / 65536) s)
        ringAdvance v wp n s
      else s

/-- Open the bands an append needs (R254): from `k` on, `n` of them that are not open. -/
def openBands (v : Nat) : Nat → Nat → State → Option State
  | _, 0, s => some s
  | k, n + 1, s =>
    if (s.xlat.t.bandOf v k).isSome then openBands v (k + 1) n s
    else (openBand v k s).bind (openBands v (k + 1) n)

/-- Admit an APPEND (R164, R174, R178, R244, R245): WP is taken, a ring's oldest band released, the bands it needs opened. Where a band could
open but for a held one, the append waits. -/
def admitAppend (c : Cmd) (s : State) : State :=
  match s.xlat.t.vol? c.vol with
  | none => s
  | some x =>
    let wp := x.wp + c.nblk
    let s1 := ringAdvance c.vol wp (c.nblk / 65536 + 2) s
    match openBands c.vol (x.wp / 65536) ((wp - 1) / 65536 - x.wp / 65536 + 1) s1 with
    | none =>
      if s1.xlat.t.bands.any (fun b => b.vol = c.vol ∧ b.state = .releasedHeld) then s1
      else complete c St.groupOffline 0 s
    | some s2 =>
      let s3 := modT (fun t => match t.vol? c.vol with
        | some y => t.putVol c.vol { y with wp := wp }
        | none => t) s2
      let s4 := { s3 with budget := { s3.budget with appending := s3.budget.appending + 4096 * c.nblk } }
      let s5 := modCmd c.uid (fun y => { y with first := x.wp, info := x.wp % 2 ^ 32 }) (admitCmd c s4)
      showXlat (makeVersions c c.vol x.wp c.nblk s5)

/-- Admit a FENCE (R216, R218): it notes the commands outstanding on the ports of its mask, FENCEs and what is held behind one apart: a FENCE that
waited for a command held behind another would wait for that FENCE (DEDUCED 129). -/
def admitFence (c : Cmd) (s : State) : State :=
  let all := c.zero 8 32
  let named (p : Nat) : Bool := if all then decide (s.portDomain p = s.portDomain c.port) else c.inMask p
  let noted := s.cmds.filter (fun x => named x.port && decide (x.op ≠ 4) && ! (decide (x.port = c.port) && decide (c.uid < x.uid)) && ! s.behindFence x &&
    (decide (s.portState x.port = 1) || decide (x.phase = .admitted)))
  modCmd c.uid (fun y => { y with noted := noted.map Cmd.uid }) (admitCmd c s)

/-- The volumes of a FLUSH (R180). -/
def State.flushes (s : State) (c : Cmd) (v : Nat) : Bool :=
  if c.flag 5 then ((s.xlat.t.vol? v).map (fun x => x.desc.wrmask.testBit (s.domOf c))).getD false else decide (v = c.vol)

/-- Admit a FLUSH (R222): it covers the versions of the commands completed before it, on its volumes. -/
def admitFlush (c : Cmd) (s : State) : State :=
  let done := ((s.versions.filter (fun x => s.flushes c x.vol && ! s.cmds.any (fun y => y.uid = x.uid))).map Version.uid).dedup
  modCmd c.uid (fun y => { y with noted := done }) (admitCmd c s)

/-- Release whole bands of a Stream volume from RETLO (R182). -/
def trimBands (v last : Nat) : Nat → Nat → State → Nat × State
  | 0, k, s => (k, s)
  | n + 1, k, s =>
    match s.xlat.t.vol? v with
    | none => (k, s)
    | some x =>
      if x.retlo + 65536 ≤ last then
        trimBands v last n (k + 1) (modT (fun t => t.putVol v { x with retlo := x.retlo + 65536 }) (releaseBand v (x.retlo / 65536) s))
      else (k, s)

/-- Admit a TRIM (R181, R182). -/
def admitTrim (c : Cmd) (s : State) : State :=
  match s.xlat.t.vol? c.vol with
  | none => s
  | some x =>
    if x.stream then
      let last := min x.wp (c.slba + c.nblk)
      let r := trimBands c.vol last (c.nblk / 65536) 0 (admitCmd c s)
      showXlat (modCmd c.uid (fun y => { y with info := r.1 }) r.2)
    else makeTrims c (admitCmd c s)

/-- Blocks of a command found unreadable (R176), or consumed by an APPEND that did not write them (R189, R220). -/
def State.badOf (s : State) (c : Cmd) : List Nat :=
  c.bad ++ (List.range c.nblk).filter (fun k => decide ((c.vol, c.slba + k) ∈ s.xlat.t.lost ∧ k ∉ c.bad))

/-- The contents of block `k` that a reading command returns (R165, R173, R176, R211 to R215): 4,096 bytes of data and 16 of metadata, 0 beyond
the list's end; none where the block waits, or its contents are not in hand. -/
def State.content (s : State) (c : Cmd) (k : Nat) : Option (List Byte) :=
  if k ∈ s.badOf c then (if c.flag 3 ∨ c.op = 8 then some [] else none)
  else match s.readSource c.port c.index c.vol (c.slba + k) with
    | (some x, false) => some x.data
    | (_, true) => none
    | (none, false) => if s.zeroBlock c.vol (c.slba + k) then some [] else (c.got.find? (fun p => p.1 = k)).map Prod.snd

/-- A source block of a COPY can be taken (R183, R213): a whole version, a zero block, or a block read. -/
def State.copyReady (s : State) (c : Cmd) (k : Nat) : Bool := decide (k ∉ s.badOf c) && (s.content c k).isSome

/-- Destination versions of COPYs become whole as their sources can be taken (R221). -/
def refreshCopies (s : State) : State :=
  (s.cmds.filter (fun c => c.op = 7 ∧ c.phase = .admitted ∧ c.fail.isNone)).foldl (fun t c =>
    { t with versions := t.versions.map (fun x =>
        if x.uid = c.uid ∧ ! x.whole ∧ t.copyReady c (x.blk - c.fld 0x18 8) then
          { x with whole := true, data := (t.content c (x.blk - c.fld 0x18 8)).getD [] } else x) }) s

/-- Admit a COPY (R183, R213). -/
def admitCopy (c : Cmd) (s : State) : State :=
  let s := modCmd c.uid (fun x => { x with holds := s.ringBands c.vol c.slba c.nblk }) (admitCmd c s)
  refreshCopies (makeVersions c (c.fld 0x14 1) (c.fld 0x18 8) c.nblk s)

/-- Withdraw the versions of an ended command that are not whole (R220). Blocks of an APPEND that stay unwritten so, or whose write-out failed, read
as UNRECOVERED_READ from then on (R189). -/
def withdraw (uid : Nat) (s : State) : State :=
  let out (x : Version) : Bool :=
    decide (x.uid = uid) && (! x.whole || (x.failed && ((s.xlat.t.vol? x.vol).map Volume.stream).getD false))
  let gone := (s.versions.filter (fun x => out x && ((s.xlat.t.vol? x.vol).map Volume.stream).getD false)).map (fun x => (x.vol, x.blk))
  let s := { s with versions := s.versions.filter (fun x => ! out x) }
  if gone.isEmpty then s else journal (modT (fun t => { t with lost := t.lost ++ gone }) s)

/-- The versions of a TRIM that ends are in the tables (R220, R221, R252): its blocks hold their new contents. -/
def recordTrim (uid : Nat) (s : State) : State :=
  (s.versions.filter (fun x => x.uid = uid ∧ x.trim ∧ newest (s.versionsOf x.vol x.blk) = some x)).foldl (fun t x => applyChange (.zeroSet x.vol x.blk) t) s

/-- The versions of a command that ends without success (R189, R220). -/
def endVersions (c : Cmd) (s : State) : State := if c.op = 6 then recordTrim c.uid s else withdraw c.uid s

/-- Admit an ABORT (R186, R219, R220): decided now against the target's completion; an engine that holds the target gets an event of class 4
(R487), its data a free value of port and tag. -/
def admitAbort (c : Cmd) (s : State) : State :=
  match s.cmdOf (c.fld 8 2) (c.fld 0xA 2) with
  | none => complete c St.alreadyDone 0 (admitCmd c s)
  | some t =>
    let s := modCmd c.uid (fun y => { y with noted := [t.uid] }) (admitCmd c s)
    let s := withdraw t.uid (modCmd t.uid (fun y => { y with fail := some (St.aborted, 0) }) s)
    inStep (fun d s => (List.range 8).foldl (fun s e =>
      if t.uid ∈ (s.eng (.rind d e)).held then postEvent (.rind d e) 4 (BitVec.ofNat 64 (Config.openNat 11 [t.port, t.tag])) s else s) s) s

/-! ## Completion (R176, R216, R219, R221, R222) -/

/-- The bytes from `a` up to `n` are covered by moved ranges. -/
def coveredFrom : Nat → List (Nat × Nat) → Nat → Nat → Bool
  | 0, _, a, n => decide (n ≤ a)
  | k + 1, l, a, n =>
    if n ≤ a then true
    else match l.find? (fun r => r.1 ≤ a ∧ a < r.1 + r.2) with
      | some r => coveredFrom k l (r.1 + r.2) n
      | none => false

/-- The first `n` bytes have been moved. -/
def movedAll (l : List (Nat × Nat)) (n : Nat) : Bool := coveredFrom (l.length + 1) l 0 n

/-- The least of a list. -/
def leastOf (l : List Nat) : Nat := l.foldl min (l.headD 0)

/-- Every version of a command meets a condition. -/
def State.allVersions (s : State) (uid : Nat) (p : Version → Bool) : Bool := s.versions.all (fun x => decide (x.uid ≠ uid) || p x)

/-- What a command completes with once it may (R176, R216, R219, R221, R222): none while it must go on. -/
def State.outcomeNow (s : State) (c : Cmd) : Option (Nat × Nat) :=
  match c.fail with
  | some r => some r
  | none =>
    if c.phase = .fetched ∨ c.flash then none
    else
      let ok : Option (Nat × Nat) := some (St.success, c.info)
      let gate (b : Bool) : Option (Nat × Nat) := if b then ok else none
      let onMedia (x : Version) : Bool := s.settled x && (s.superseded x || s.recorded x)
      let bad := s.badOf c
      match c.op with
      | 1 =>
        let metaOk (n : Nat) : Bool := ! c.flag 1 || movedAll c.movedMeta (16 * n)
        if s.hazard c then none
        else if bad.isEmpty then gate (movedAll c.moved (4096 * c.nblk) && metaOk c.nblk)
        else if c.flag 3 then
          (if movedAll c.moved (4096 * c.nblk) && metaOk c.nblk then some (St.unrecoveredRead, bad.length) else none)
        else
          let k := leastOf bad
          if movedAll c.moved (4096 * k) && metaOk k then some (St.unrecoveredRead, k) else none
      | 8 =>
        if s.hazard c then none
        else if movedAll c.moved (4096 * c.nblk) then some (if bad.isEmpty then St.success else St.unrecoveredRead, bad.length) else none
      | 4 => gate (c.noted.all (fun u => ! s.cmds.any (fun x => x.uid = u)))
      | 5 =>
        gate (s.versions.all (fun x => decide (x.uid ∉ c.noted) || ! s.flushes c x.vol || onMedia x) &&
          s.xlat.t.stale.all (fun x => match s.xlat.t.bandAt x.1 with
            | some b => ! (b.tpar && s.flushes c b.vol)
            | none => true))
      | 6 => ok
      | 7 =>
        if bad.isEmpty then gate (s.allVersions c.uid (fun x => x.whole && (! c.flag 2 || onMedia x)))
        else
          let k := leastOf bad
          if s.allVersions c.uid (fun x => x.whole || decide (c.fld 0x18 8 + k ≤ x.blk)) then some (St.unrecoveredRead, k) else none
      | 9 => if c.noted.all (fun u => ! s.cmds.any (fun x => x.uid = u)) then some (St.done, 0) else none
      | _ => gate (s.allVersions c.uid (fun x => x.whole && (! c.flag 2 || onMedia x)))

/-- A command waits on the media of a group that is offline (R245): a block to be read from it, or a version that a FUA write or a FLUSH waits
for to be written out to it. -/
def State.waitsOffline (s : State) (c : Cmd) : Bool :=
  let off (v blk : Nat) : Bool := match s.blockGroup v blk with
    | some g => decide (g ∈ s.xlat.offline)
    | none => false
  let stuck (x : Version) : Bool := ! s.settled x && ! x.trim && off x.vol x.blk
  let reads := (List.range c.nblk).any (fun k =>
    decide (s.readSource c.port c.index c.vol (c.slba + k) = (none, false)) && ! s.zeroBlock c.vol (c.slba + k) && off c.vol (c.slba + k))
  decide (c.phase = .admitted) &&
  (match c.op with
   | 1 => reads
   | 8 => reads
   | 7 => reads || (c.flag 2 && s.versions.any (fun x => decide (x.uid = c.uid) && stuck x))
   | 5 => s.versions.any (fun x => decide (x.uid ∈ c.noted) && s.flushes c x.vol && stuck x)
   | 2 => c.flag 2 && s.versions.any (fun x => decide (x.uid = c.uid) && stuck x)
   | 3 => c.flag 2 && s.versions.any (fun x => decide (x.uid = c.uid) && stuck x)
   | _ => false)

/-- What a command completes with once it may; one that can only wait on an offline group completes with GROUP_OFFLINE (R245). -/
def State.outcome (s : State) (c : Cmd) : Option (Nat × Nat) :=
  match s.outcomeNow c with
  | some r => some r
  | none => if s.waitsOffline c then some (St.groupOffline, 0) else none

/-- What is done as a command's completion is generated: a TRIM's zero bits (R221, R252), the journal that a FLUSH or FUA write waits on (R248),
an APPEND's RADDR (R174), versions of a COPY past an unreadable block (R183). -/
def finish (c : Cmd) (status : Nat) (s : State) : State :=
  match c.op with
  | 6 => recordTrim c.uid s
  | 5 => if status = St.success then writeJournal s else s
  | 2 => if c.flag 2 ∧ status = St.success then writeJournal s else withdraw c.uid s
  | 3 =>
    let s := if c.flag 2 ∧ status = St.success then writeJournal s else withdraw c.uid s
    if c.flag 4 ∧ status = St.success then inStep (fun d t => hostWrite d (some c.uid) (t.portDomain c.port) (c.fld 0x30 8) (natLe 8 c.first) t) s else s
  | 7 =>
    let s := if status = St.unrecoveredRead then
        { s with versions := s.versions.filter (fun x => ! decide (x.uid = c.uid ∧ c.fld 0x18 8 + leastOf (s.badOf c) ≤ x.blk)) }
      else s
    if c.flag 2 ∧ status = St.success then writeJournal s else withdraw c.uid s
  | _ => s

/-- Generate the completion of a command that may complete. -/
def tryComplete (port tag : Nat) (s : State) : State :=
  match s.cmdOf port tag with
  | none => s
  | some c =>
    match s.outcome c with
    | none => s
    | some (st, info) => complete c st info (finish c st s)

/-! ## Data moved by the Ladle (R171 to R173, R177, R209, R221) -/

/-- The command whose data or metadata a transfer of a channel moves: the oldest admitted one with that address, list form and domain. The
Boolean says metadata. -/
def State.transferCmd (s : State) (d : RSlot) (ch : Nat) : Option (Cmd × Bool) :=
  let x := s.ladleAct d ch
  let y := s.ladleCh d ch
  let a := y.head % 2 ^ 64
  let fits (c : Cmd) : Bool := decide (c.phase = .admitted ∧ c.fail.isNone ∧ s.domOf c = x.domain) &&
    (decide (x.dir = 2 ∧ c.op = 1) || decide (x.dir = 1 ∧ (c.op = 2 ∨ c.op = 3)))
  match s.cmds.find? (fun c => fits c && decide (c.fld 0x18 8 = a) && (c.flag 0 == y.listed)) with
  | some c => some (c, false)
  | none => (s.cmds.find? (fun c => fits c && c.flag 1 && ! y.listed && decide (c.fld 0x28 8 = a))).map (fun c => (c, true))

/-- A WINMAP that a move within buffer memory serves (R184): its destination lies in the command's part of the window. -/
def State.windowCmd (s : State) (d : RSlot) (addr : Nat) : Option (Cmd × Nat) :=
  s.cmds.findSome? (fun c =>
    let base := s.rdR d (R.LINK_DOMWIN_BASE (s.domOf c)) * 2 ^ 28 + c.fld 0x18 8
    if c.op = 8 ∧ c.phase = .admitted ∧ base ≤ addr ∧ addr < base + 4096 * c.nblk then some (c, addr - base) else none)

/-- The versions of a WRITE or APPEND whose data and metadata are in buffer memory are whole (R210). -/
def wholeNow (uid : Nat) (s : State) : State :=
  match s.cmds.find? (fun c => c.uid = uid) with
  | none => s
  | some c =>
    let ready (x : Version) : Bool :=
      let k := x.blk - c.slba
      let has (l : List (Nat × Nat)) (a n : Nat) : Bool := coveredFrom (l.length + 1) l a (a + n)
      has c.moved (4096 * k) 4096 && (! c.flag 1 || has c.movedMeta (16 * k) 16)
    refreshCopies { s with versions := s.versions.map (fun x => if x.uid = uid ∧ ready x then { x with whole := true } else x) }

/-- Bytes written over part of a block's contents. -/
def overContent (l : List Byte) (a : Nat) (bs : List Byte) : List Byte :=
  (l ++ List.replicate (a - l.length) 0).take a ++ bs ++ l.drop (a + bs.length)

/-- Host data of a WRITE or APPEND that has come in from byte `off` on goes into its versions (R171, R173, R209): metadata lies behind the data of
its block. A block whose metadata is not given keeps 0. -/
def storeMoved (uid : Nat) (isMeta : Bool) (off : Nat) (bytes : List Byte) (s : State) : State :=
  match s.cmds.find? (fun c => c.uid = uid) with
  | none => s
  | some c =>
    let u := if isMeta then 16 else 4096
    { s with versions := s.versions.map (fun x =>
        let lo := u * (x.blk - c.slba)
        if x.uid = uid ∧ lo < off + bytes.length ∧ off < lo + u then
          let a := max lo off
          { x with data := overContent x.data ((if isMeta then 4096 else 0) + (a - lo)) ((bytes.drop (a - off)).take (min (lo + u) (off + bytes.length) - a)) }
        else x) }

/-- What a command delivers from byte `off` of its data, or metadata, on (R165, R173, R176, R184): the contents of its blocks where they are known,
and what buffer memory holds of the others. -/
def State.deliver (s : State) (c : Cmd) (isMeta : Bool) : Nat → Nat → List Byte → List Byte
  | 0, _, bs => bs
  | n + 1, off, bs =>
    let u := if isMeta then 16 else 4096
    let k := off / u
    let m := min bs.length (u - off % u)
    if m = 0 then bs
    else
      let part := match s.content c k with
        | some l =>
          let l := l.drop ((if isMeta then 4096 else 0) + off % u)
          (l ++ List.replicate (m - l.length) 0).take m
        | none => bs.take m
      part ++ s.deliver c isMeta n (off + m) (bs.drop m)

/-- A block of a reading command exists only in buffer memory (R177): it is served from a version. -/
def State.onlyInBuffer (s : State) (c : Cmd) (k : Nat) : Bool :=
  decide (s.readSource c.port c.index c.vol (c.slba + k) ≠ (none, false))

/-- A clean cached copy of a block is fetched from the media again (R177): its media work goes out anew. -/
def refetch (uid : Nat) (ks : List Nat) (s : State) : State :=
  modCmd uid (fun c => { c with taken := c.taken.filter (· ∉ ks), got := c.got.filter (fun p => p.1 ∉ ks) }) s

/-- A transfer's descriptor has moved bytes `off` to `off + n` of a command (R209, R221); poisoned data to the host is R177's failure. -/
def noteMoved (uid : Nat) (isMeta : Bool) (off n : Nat) (poisoned : Bool) (s : State) : State :=
  let s := if poisoned then failCmd uid St.bufferUncorrectable (off / (if isMeta then 16 else 4096)) s else s
  let s := modCmd uid (fun c => if isMeta then { c with movedMeta := (off, n) :: c.movedMeta } else { c with moved := (off, n) :: c.moved }) s
  showSched (wholeNow uid s)

end Sys2Proof.Machine
end

