-- ==== Sys2Proof/Machine/MediaOps.lean ====
section
/-! DEFINITION. Media work that waits at a group, and the order it is taken in (R208). -/

namespace Sys2Proof.Machine

/-- A media operation (R208): what one command still wants of a group. Reads are not in any version; writes are whole versions not handed out. -/
structure MediaOp where
  uid : Nat
  write : Bool
  at_ : Nat
  /-- CLASS of the port, 4 for an admin port, raised by a FLUSH that waits. -/
  cls : Nat
  index : Nat
  /-- It writes appended blocks. -/
  append : Bool
  /-- Volume and block of each sector. -/
  blocks : List (Nat × Nat)
  /-- The highest rung its reads may use (R255, R285). -/
  rung : Nat := 8
  deriving DecidableEq, Repr

/-- The class of media work of a port (R208): raised to that of a FLUSH that waits on it. -/
def State.workClass (s : State) (port uid : Nat) : Nat :=
  ((s.cmds.filter (fun c => c.op = 5 ∧ c.phase = .admitted ∧ uid ∈ c.noted)).map (fun c => s.portClass c.port)).foldl max (s.portClass port)

/-- Blocks of a reading command whose media work on a group has not been handed out, by index within the command. -/
def State.readWork (s : State) (g : Nat) (c : Cmd) : List Nat :=
  (List.range c.nblk).filter (fun k =>
    decide (k ∉ c.taken) && decide ((c.vol, c.slba + k) ∉ s.xlat.t.lost) && decide (s.readSource c.port c.index c.vol (c.slba + k) = (none, false)) &&
    ! s.zeroBlock c.vol (c.slba + k) && decide (s.blockGroup c.vol (c.slba + k) = some g))

/-- The version is of a COPY that has yet to read the block it would write over (R183): the whole source is read first. -/
def State.copyPending (s : State) (x : Version) : Bool :=
  s.cmds.any (fun c => decide (c.uid = x.uid ∧ c.op = 7) && c.covers x.vol x.blk && decide ((c.got.find? (fun p => p.1 = x.blk - c.slba)).isNone) &&
    decide (s.readSource c.port c.index x.vol x.blk = (none, false)) && ! s.zeroBlock x.vol x.blk)

/-- A block of a Stream band waits for the blocks below it in its band (R236): a shingled band is written in ascending order. -/
def State.writeTurn (s : State) (x : Version) : Bool :=
  ! (((s.xlat.t.vol? x.vol).map Volume.stream).getD false) ||
  (s.versions.filter (fun y => decide (y.vol = x.vol ∧ y.blk / 65536 = x.blk / 65536 ∧ y.blk < x.blk))).all (fun y =>
    y.taken || y.media || y.failed || (y.whole && decide (y.uid = x.uid)))

/-- The version waits to be written out to a group. -/
def State.writeWork (s : State) (g : Nat) (x : Version) : Bool :=
  x.whole && s.writeTurn x && ! s.copyPending x && ! x.taken && ! x.trim && ! s.settled x && decide (s.blockGroup x.vol x.blk = some g)

/-- The media operations that wait at a group, oldest command first (R208). -/
def State.mediaOps (s : State) (g : Nat) : List MediaOp :=
  let reads := (s.cmds.filter (fun c => c.phase = .admitted ∧ c.fail.isNone ∧ ! c.freed ∧ (c.op = 1 ∨ c.op = 7 ∨ c.op = 8))).filterMap (fun c =>
    match s.readWork g c with
    | [] => none
    | l => some (⟨c.uid, false, c.at_, s.workClass c.port c.uid, c.index, false, l.map (fun k => (c.vol, c.slba + k)), if l.any (fun k => s.inGap c.vol (c.slba + k)) then 1 else 8⟩ : MediaOp))
  let vs := s.versions.filter (s.writeWork g)
  let writes := ((vs.map Version.uid).dedup).filterMap (fun u =>
    match vs.filter (fun x => x.uid = u) with
    | [] => none
    | x :: l => some (⟨u, true, x.at_, s.workClass x.port u, x.index, ((s.xlat.t.vol? x.vol).map Volume.stream).getD false,
        (x :: l).map (fun y => (y.vol, y.blk)), 8⟩ : MediaOp))
  (reads ++ writes).mergeSort (fun a b => decide (a.index ≤ b.index))

/-- The operation of a list that comes first in an order: the first of those that nothing precedes. -/
def firstBy {α : Type} (before : α → α → Bool) : List α → Option α
  | [] => none
  | a :: l => match firstBy before l with
    | none => some a
    | some b => some (if before b a then b else a)

/-- The operation the engine of a group takes (R208): aged work first, oldest first; else by class, by the estimated access time of the n-th
operation, and by admission order. -/
def State.nextMediaOp (s : State) (g : Nat) (times : List Nat) : Option MediaOp :=
  let ops := s.mediaOps g
  let aged := ops.filter (fun o => o.at_ + 1000 * s.rdS R.SCHED_CFG_AGEMS ≤ s.now)
  match firstBy (fun a b => decide (a.at_ < b.at_)) aged with
  | some o => some o
  | none =>
    (firstBy (fun a b => decide (b.1.cls < a.1.cls ∨ (a.1.cls = b.1.cls ∧ times.getD a.2 0 < times.getD b.2 0)))
      ((List.range ops.length).zipWith (fun i o => (o, i)) ops)).map Prod.fst

end Sys2Proof.Machine
end

