-- ==== Sys2Proof/Machine/BudgetOps.lean ====
section
/-! DEFINITION. The budget manager: thermal states, the level ladder, its outputs and the throttle (R521 to R539). Powers are in 10 mW,
temperatures in 0.1 °C. Quotients of the spec that do not come out whole round down, where the spec does not say. -/

namespace Sys2Proof.Machine

/-- Change the budget manager. -/
def modBudget (f : Budget → Budget) (s : State) : State := { s with budget := f s.budget }

/-! ## Thermal states (R523 to R526) -/

/-- A die has left the budget (R523): a Curd die whose link to each Rind die has been declared down. -/
def State.leftBudget (s : State) (i : Nat) : Bool :=
  decide (8 ≤ i) && s.rinds.all (fun d => (s.fvEnd (.rind d (i - 8))).down)

/-- A die, by SRC code, counts as being in the throttle state (R523, R524, R526), the assumed state of R525 apart. -/
def State.dieThrottled (s : State) (i : Nat) : Bool :=
  ! s.leftBudget i && (decide (i ∈ s.budget.throttled ∨ i ∈ s.budget.rising) || (decide (8 ≤ i) && decide (i - 8 ∈ s.budget.missing)))

/-- A die counts as being in the warning state. -/
def State.dieWarm (s : State) (i : Nat) : Bool := ! s.leftBudget i && decide (i ∈ s.budget.warm)

/-- Codes of the dies of the part. -/
def State.dieCodes (s : State) : List Nat := s.rinds.map RSlot.code ++ s.groups.map curdCode

/-- A die enters a state at its threshold and leaves it below the threshold less the hysteresis (R524). -/
def hystState (inside : Bool) (temp thr hyst : Int) : Bool := if inside then decide (thr - hyst ≤ temp) else decide (thr ≤ temp)

/-- A threshold of a die, and its hysteresis. -/
def State.threshold (s : State) (i j : Nat) : Int × Int :=
  if s.senior ∈ s.boot.settled then (sgn 16 (s.rdS (R.BUDGET_THR_TEMP i j)), (s.rdS (R.BUDGET_THR_HYST i j) : Int))
  else ([1120, 1180, 1260].getD j 1260, 40)

/-- Membership of a list, set. -/
def setMem (i : Nat) (on : Bool) (l : List Nat) : List Nat := if on then (if i ∈ l then l else i :: l) else l.filter (· ≠ i)

/-- The rate of rise of a die is above, or still not below half of, the limit (R526): temperatures in 0.1 °C at 100 ms, newest first. -/
def ratesHigh (was : Bool) (win limit : Nat) (l : List Int) : Bool :=
  let w := l.take win
  if w.length < 3 then false
  else
    let rise := 100 * (w.headD 0 - w.getLastD 0)
    let n : Int := (w.length : Int) - 1
    if was then decide ((limit : Int) * n ≤ 2 * rise) else decide ((limit : Int) * n < rise)

/-- STATE of BUDGET_TEMP follows a die's states (R540). -/
def showTemp (i : Nat) (s : State) : State :=
  wrAll (R.BUDGET_TEMP_STATE i) (if i ∈ s.budget.shut then 3 else if s.dieThrottled i then 2 else if s.dieWarm i then 1 else 0) s

/-- A reading of a die reaches the budget manager (R524 to R526): its states follow, and entries into the warning and the throttle state are
logged. -/
def takeReading (i : Nat) (temp : Int) (s : State) : State :=
  let w := s.threshold i 0
  let t := s.threshold i 1
  let warm := hystState (decide (i ∈ s.budget.warm)) temp w.1 w.2
  let hot := hystState (decide (i ∈ s.budget.throttled)) temp t.1 t.2
  let newWarm := warm && decide (i ∉ s.budget.warm)
  let newHot := hot && decide (i ∉ s.budget.throttled)
  let due := match s.budget.seriesAt.find? (fun p => p.1 = i) with
    | none => true
    | some p => decide (p.2 + 100000 ≤ s.now)
  let series := if due then (temp :: assocGet i [] s.budget.series).take 50 else assocGet i [] s.budget.series
  let rising := decide (s.rdS R.BUDGET_ROR_EN = 1) &&
    ratesHigh (decide (i ∈ s.budget.rising)) (s.rdS R.BUDGET_ROR_WIN) (s.rdS R.BUDGET_ROR_LIMIT) series
  let s := modBudget (fun b => { b with
    warm := setMem i warm b.warm, throttled := setMem i hot b.throttled, rising := setMem i rising b.rising
    series := assocPut i series b.series, seriesAt := if due then assocPut i s.now b.seriesAt else b.seriesAt }) s
  let s := wrAll (R.BUDGET_TEMP_TEMP i) (unsgn 16 temp) s
  let s := wrAll (R.BUDGET_TEMP_SAMPLES i) (min 3 (s.rdS (R.BUDGET_TEMP_SAMPLES i) + 1)) s
  let s := if newWarm then incAll R.BUDGET_EVT_WARNS 1 (inStep (fun d t => raiseFull d i 0x0B0 [i] (some 2) t) s) else s
  let s := if newHot then inStep (fun d t => raiseFull d i 0x0B1 [i] (some 3) t) s else s
  showTemp i s

/-- A write of a threshold register (R524): the order warning, throttle, shutdown up to 130.0 °C and the hystereses of 1.0 to 20.0 °C hold
after it, or it is discarded and logged. -/
def budgetThrWrite (ts : List RSlot) (addr : Nat) (rd : RegDef) (v : Word) (s : State) : State × Nat :=
  let i := (addr - 0xC8100) / 16
  let put (t : State) (d : RSlot) : State := t.setWord (regKey d.code addr) (storeWord t.part 0 0 rd (t.word (regKey d.code addr)) v)
  let ok (d : RSlot) : Bool :=
    let t := put s d
    let th (j : Nat) : Int := sgn 16 (t.rdR d (R.BUDGET_THR_TEMP i j))
    let hy (j : Nat) : Nat := t.rdR d (R.BUDGET_THR_HYST i j)
    decide (th 0 < th 1 ∧ th 1 < th 2 ∧ th 2 ≤ 1300) && (List.range 3).all (fun j => decide (10 ≤ hy j ∧ hy j ≤ 200))
  if ts.all ok then (ts.foldl put s, 0) else (ts.foldl (fun t d => raise d 0x034 [addr] t) s, 2)

/-! ## Power (R523, R530) -/

/-- The power cap in 10 mW. -/
def State.powerCap (s : State) : Nat :=
  if s.senior ∈ s.boot.settled then 10 * s.rdS R.BUDGET_CAP_PCAP else min 2500 (10 * (90 * s.part.f + 26 * s.part.c))

/-- P_meas (R523): the rails' voltage times current, and the allowance for the others; the cap while PMBus reads fail. -/
def State.pMeas (s : State) : Nat :=
  if s.pmb.badReads.isEmpty then
    ((List.range 3).map (fun r => assocGet r 0 s.pmb.vout * assocGet r 0 s.pmb.iout)).sum / 1000 + 10 * s.rdS R.BUDGET_POL2_PFIX
  else s.powerCap

/-- The reader limit of a level (R528). -/
def levelReaders (level : Nat) : Nat := if level < 3 then 3 else if level < 5 then 2 else 1

/-- The VCORE ceiling of a level in 10 mV (R528). -/
def levelCeil (level : Nat) : Nat := if level < 2 then 90 else if level < 4 then 80 else if level < 6 then 72 else 65

/-- The reader count of a group at a level (R532): the level's limit, reduced further by the group's own die. -/
def State.groupReaders (s : State) (level g : Nat) : Nat :=
  min (levelReaders level) (if s.dieThrottled (curdCode g) then 1 else if s.dieWarm (curdCode g) then 2 else 3)

/-- Curd power with `r` readers, in 10 mW. -/
def State.readerPower (s : State) (r : Nat) : Nat :=
  10 * (match r with
    | 0 => 0
    | 1 => s.rdS R.BUDGET_ACTPWR_P1
    | 2 => s.rdS R.BUDGET_ACTPWR_P2
    | _ => s.rdS R.BUDGET_ACTPWR_P3)

/-- The actuator of a group is loaded, by its die's last report. -/
def State.groupLoaded (s : State) (g : Nat) : Bool :=
  match s.budget.reports.find? (fun p => p.1 = g) with
  | some p => p.2.loaded
  | none => false

/-- Groups in use (R226, R245). -/
def State.usedGroups (s : State) : List Nat := s.groups.filter s.groupUsed

/-- A group is permitted to be active (R533). -/
def State.groupActive (s : State) (g : Nat) : Bool := decide (g ∈ s.budget.active) || s.budget.active.isEmpty

/-- x_g of a group that is not loaded and has queued media work, at a level (R530). -/
def State.startCost (s : State) (level g : Nat) : Nat :=
  let ops := s.mediaOps g
  if ops.isEmpty ∨ ! s.groupActive g ∨ s.groupLoaded g then 0
  else
    let e := (ops.map (fun o => o.blocks.length)).sum * s.rdS R.BUDGET_ECOST_ESECT + 100 * ops.length * s.rdS R.BUDGET_ECOST_ESEEK
    min (s.readerPower (s.groupReaders level g) - 10 * s.rdS R.BUDGET_ACTPWR_PIDLE) (e / 1000)

/-- P_pred at a level (R530). -/
def State.pPred (s : State) (level : Nat) : Nat := s.pMeas + (s.usedGroups.map (s.startCost level)).sum

/-- The prediction for the level below (R530): with the reader cost of each loaded group. -/
def State.predBelow (s : State) (level : Nat) : Nat :=
  s.pPred (level - 1) + ((s.usedGroups.filter s.groupLoaded).map (fun g =>
    s.readerPower (s.groupReaders (level - 1) g) - s.readerPower (s.groupReaders level g))).sum

/-! ## The level (R528, R529) -/

/-- A Rind die counts as throttled for the floors: also until it has three readings (R525). -/
def State.floorThrottled (s : State) (d : RSlot) : Bool := s.dieThrottled d.code || decide (s.rdS (R.BUDGET_TEMP_SAMPLES d.code) < 3)

/-- The floor of the level (R529). -/
def State.levelFloor (s : State) : Nat :=
  max (if s.rinds.any (fun d => s.dieWarm d.code) then s.rdS R.BUDGET_POL_WARNLVL else 0)
    (max (if s.rinds.any s.floorThrottled then s.rdS R.BUDGET_POL_THRLVL else 0) (if s.pins.sagPause then s.rdS R.BUDGET_POL2_SAGLVL else 0))

/-- The spindle's bus power in 10 mW, by its last report (R389). -/
def State.spinPower (s : State) : Nat := (s.budget.spindle.getD 2 0).toNat % 2 ^ 16

/-- The predicted power is over a cap (R529). -/
def State.overPower (s : State) (pred : Nat) : Bool :=
  decide (s.powerCap < pred) || (decide (s.rdS R.BUDGET_CAP_SYSCAP ≠ 0) && decide (10 * s.rdS R.BUDGET_CAP_SYSCAP < s.spinPower + pred))

/-- The level and the count of R529 after a cycle. -/
def State.nextLevel (s : State) : Nat × Nat :=
  let floor := s.levelFloor
  let l := max (s.rdS R.BUDGET_STAT_LEVEL) floor
  if s.overPower (s.pPred l) then (min 8 (l + 1), 0)
  else if floor < l ∧ 10 * s.predBelow l ≤ 9 * s.powerCap then
    (if 10 ≤ s.budget.lowCycles + 1 then (l - 1, 0) else (l, s.budget.lowCycles + 1))
  else (l, 0)

/-! ## Core voltage (R531) -/

/-- The VCORE target and the count of idle cycles after a cycle (R531). -/
def State.nextVtgt (s : State) (level pred : Nat) : Nat × Nat :=
  let top := levelCeil level
  let v := min top (s.rdS R.BUDGET_STAT_VTGT)
  let waits := s.cmds.any (fun c => c.phase = .admitted)
  let late := s.cmds.any (fun c => decide (c.phase = .admitted ∧ c.at_ + 20000 ≤ s.now))
  if late ∧ v + 1 ≤ top ∧ pred * (v + 1) * (v + 1) ≤ s.powerCap * v * v then (v + 1, 0)
  else if waits then (v, 0)
  else if 10 ≤ s.budget.idleCycles + 1 then (max 65 (v - 1), 0)
  else (v, s.budget.idleCycles + 1)

/-! ## Active groups (R533) -/

/-- Active groups permitted at a level (R528). -/
def actLimit (level used : Nat) : Nat := if level < 7 then used else if level = 7 then (used + 1) / 2 else min 1 used

/-- Rank of a group's queued work (R533): 0 for none, else 1 more than its highest class; then the age of its oldest operation. -/
def State.groupRank (s : State) (g : Nat) : Nat × Nat :=
  let ops := s.mediaOps g
  (if ops.isEmpty then 0 else 1 + (ops.map MediaOp.cls).foldl max 0, (ops.map (fun o => s.now - o.at_)).foldl max 0)

/-- Group `a` ranks before group `b` (R533). -/
def rankBefore (a b : Nat × (Nat × Nat)) : Bool :=
  decide (b.2.1 < a.2.1 ∨ (b.2.1 = a.2.1 ∧ (b.2.2 < a.2.2 ∨ (b.2.2 = a.2.2 ∧ a.1 ≤ b.1))))

/-- The groups that the budget manager makes active under a limit (R533). -/
def State.chooseActive (s : State) (lim : Nat) : List Nat :=
  if s.usedGroups.length ≤ lim then s.usedGroups
  else (((s.usedGroups.map (fun g => (g, s.groupRank g))).mergeSort rankBefore).take lim).map Prod.fst

/-- Work of a higher class has arrived for an inactive group (R533). -/
def State.activeStale (s : State) : Bool :=
  (s.usedGroups.filter (fun g => g ∉ s.budget.active)).any (fun g =>
    s.budget.active.any (fun a => decide ((s.groupRank a).1 < (s.groupRank g).1)))

/-! ## Group orders and the spindle (R532, R535, R536) -/

/-- The HDA estimate lies outside the range HDACOLD to HDAHOT (R532): 0.01 °C against 0.1 °C. -/
def State.hdaOutside (s : State) : Bool :=
  let w := (s.budget.spindle.getD 3 0).toNat
  let t := sgn 16 (w / 2 ^ 16)
  (w.testBit 15) && decide (t < 10 * sgn 16 (s.rdS R.BUDGET_HDA_HDACOLD) ∨ 10 * sgn 16 (s.rdS R.BUDGET_HDA_HDAHOT) < t)

/-- SEEKPCT of the whole device (R532): reduced during the R96 pause and while the HDA estimate is out of range. -/
def State.seekPct (s : State) : Nat := if s.pins.sagPause ∨ s.hdaOutside then s.rdS R.BUDGET_POL2_SEEKRED else 100

/-- SEEKPCT of a group. -/
def State.groupSeek (s : State) (g : Nat) : Nat :=
  if s.dieThrottled (curdCode g) then s.rdS R.BUDGET_POL2_SEEKRED else s.seekPct

/-- A group has runs in progress. -/
def State.groupRuns (s : State) (g : Nat) : Bool := s.runs.any (fun r => r.1 = g)

/-- Word 0 of the group order that a group is due (R532, R533): a group leaving the active set keeps ACTIVE until its runs have ended. -/
def State.orderFor (s : State) (g : Nat) : Nat :=
  let on := decide (g ∈ s.budget.active) || s.groupRuns g
  0x52 * 2 ^ 24 + s.groupReaders (s.rdS R.BUDGET_STAT_LEVEL) g * 2 ^ 22 + bit on * 2 ^ 21 + s.groupSeek g

/-- Send the group orders that have changed (R532): every serving die sends. -/
def sendOrders (s : State) : State :=
  s.usedGroups.foldl (fun t g =>
    let o := t.orderFor g
    if t.budget.orders.find? (fun p => p.1 = g) = some (g, o) then t
    else modBudget (fun b => { b with orders := assocPut g o b.orders }) (inStep (fun d u => ctrlTo d g [BitVec.ofNat 32 o, 0] u) t)) s

/-- READERS and ACTLIM follow (R534, R540). -/
def showOrders (s : State) : State :=
  let level := s.rdS R.BUDGET_STAT_LEVEL
  let r := (s.usedGroups.map (fun g => if g ∈ s.budget.active then s.groupReaders level g * 4 ^ g else 0)).sum
  wrAll R.BUDGET_OUT2_SEEKPCT s.seekPct (wrAll R.BUDGET_OUT_READERS r s)

/-- Choose the active groups again (R533) and send what changes. -/
def rechoose (s : State) : State :=
  let lim := s.rdS R.BUDGET_STAT_ACTLIM
  sendOrders (showOrders (modBudget (fun b => { b with active := s.chooseActive lim, chosenAt := s.now }) s))

/-- As work is admitted (R533): the active groups are chosen again where work of a higher class waits for an inactive one. -/
def workArrived (s : State) : State := if s.activeStale then rechoose s else s

/-- Bytes of Stream blocks whose newest version is whole and not on the media (R536). -/
def State.streamBytes (s : State) : Nat :=
  4096 * s.versions.countP (fun x => x.whole && ! x.media && ((s.xlat.t.vol? x.vol).map Volume.stream).getD false &&
    decide (newest (s.versionsOf x.vol x.blk) = some x))

/-- Operations other than appends that are queued (R536). -/
def State.otherOps (s : State) : List MediaOp := (s.usedGroups.flatMap s.mediaOps).filter (fun o => ! o.append)

/-- The spindle's speed, by its last report. -/
def State.reportedRpm (s : State) : Nat := (s.budget.spindle.getD 0 0).toNat % 2 ^ 16

/-- Bytes appended per second over the last 100 cycles (R535). -/
def State.rateIn (s : State) : Nat := (s.budget.appended.take 100).sum

/-- Bytes per second that the groups holding open Stream bands can write at 7,200 rpm (R535). -/
def State.streamRate (s : State) : Nat :=
  (s.groups.map (fun g =>
    match (s.xlat.t.bands.filter (fun b => b.state = .opened ∧ b.slot.group = g ∧ s.xlat.t.bandOpen b)).filterMap
        (fun b => (s.zoneOf b.slot.head b.slot.zone).map Zone.dpt) with
    | [] => 0
    | x :: l => (l.foldl min x) * 4096 * 120)).sum

/-- The spindle target (R535). -/
def State.spinTarget (s : State) : Nat :=
  let stream := s.xlat.t.vols.any (fun p => p.2.stream)
  if ! stream ∨ s.rdS R.BUDGET_POL_RAISE = 3 ∨ s.budget.raiseWork ∨ s.budget.raiseData then 7200
  else
    let c := s.streamRate
    let r := s.rateIn
    if c = 0 then (if 0 < r then 7200 else 3600)
    else clampNat 3600 7200 (60 * ceilDiv (7200 * r * (100 + s.rdS R.BUDGET_WAT_MARGIN)) (6000 * c))

/-- Send the spindle set-point where the target has changed (R378, R535). -/
def sendTarget (s : State) : State :=
  let n := s.spinTarget
  let s := wrAll R.BUDGET_OUT_SPDTGT n s
  if s.budget.setpoint = n then s
  else modBudget (fun b => { b with setpoint := n }) (inStep (fun d u => ctrlTo d 0 [BitVec.ofNat 32 (0x51 * 2 ^ 24 + n), 0] u) s)

/-- The raises of R536 after a cycle. -/
def nextRaises (s : State) : State :=
  let unit := 2 ^ 24
  let bytes := s.streamBytes
  let data := if s.budget.raiseData then decide (s.rdS R.BUDGET_WAT_LOWAT * unit ≤ bytes) else decide (s.rdS R.BUDGET_WAT_HIWAT * unit < bytes)
  let ops := s.otherOps
  let slow := decide (s.reportedRpm < 7200)
  let due := match s.rdS R.BUDGET_POL_RAISE with
    | 1 => slow && ops.any (fun o => decide (o.at_ + 1000 * s.rdS R.BUDGET_POL_RAISEMS ≤ s.now))
    | 2 => slow && ! ops.isEmpty
    | _ => false
  let quiet := if ops.isEmpty then some (s.budget.quietSince.getD s.now) else none
  let past := match quiet with
    | some t => decide (t + 1000000 * s.rdS R.BUDGET_POL_HOLDS ≤ s.now)
    | none => false
  modBudget (fun b => { b with raiseData := data, raiseWork := due || (b.raiseWork && ! past), quietSince := quiet }) s

/-! ## The throttle (R537, R538) -/

/-- Effective weights at a depth (R538), of the configured weights. -/
def throttleWeights (depth h m l : Nat) : Nat × Nat × Nat :=
  match depth with
  | 0 => (h, m, l)
  | 1 => (h, max 1 (m / 2), 0)
  | 2 => (max 1 (h / 2), max 1 (m / 4), 0)
  | 3 => (max 1 (h / 4), 0, 0)
  | _ => (1, 0, 0)

/-- Status lines of every domain follow (R157). -/
def allLines (s : State) : State := (List.range 16).foldl (fun t dom => statusUpdate dom t) s

/-- Enforce a throttle at a depth (R538); depth 0 ends the enforcement. -/
def setDepth (depth : Nat) (s : State) : State :=
  let w := throttleWeights depth (s.rdS R.SCHED_CLASSW_WH) (s.rdS R.SCHED_CLASSW_WM) (s.rdS R.SCHED_CLASSW_WL)
  let s := wrAll R.BUDGET_STAT_ENF (bit (depth ≠ 0)) (wrAll R.BUDGET_STAT_DEPTH depth s)
  let s := wrAll R.SCHED_ADMIT_ENF (bit (depth ≠ 0)) s
  wrAll R.SCHED_ADMIT_EL w.2.2 (wrAll R.SCHED_ADMIT_EM w.2.1 (wrAll R.SCHED_ADMIT_EH w.1 s))

/-- Readings of every die, by code. -/
def State.dieTemps (s : State) : List (Nat × Int) := s.dieCodes.map (fun i => (i, sgn 16 (s.rdS (R.BUDGET_TEMP_TEMP i))))

/-- GRACE has reached 0 (R538): enforcement begins at depth 1. -/
def enforce (s : State) : State :=
  if s.rdS R.BUDGET_STAT_THROT = 1 ∧ s.rdS R.BUDGET_STAT_ENF = 0 then
    let s := incAll R.BUDGET_EVT_ENFS 1 (setDepth 1 s)
    allLines (modBudget (fun b => { b with graceEnd := none, depthTemps := s.dieTemps, depthAt := s.now }) s)
  else s

/-- A second of enforcement has passed (R538): a die still in the throttle state that has not fallen by 0.5 °C raises the depth. -/
def depthTick (s : State) : State :=
  if s.rdS R.BUDGET_STAT_ENF = 1 then
    let stuck := s.dieCodes.any (fun i => s.dieThrottled i &&
      (match s.budget.depthTemps.find? (fun p => p.1 = i) with
       | some p => decide (p.2 - 5 < sgn 16 (s.rdS (R.BUDGET_TEMP_TEMP i)))
       | none => true))
    let s := if stuck then setDepth (min 4 (s.rdS R.BUDGET_STAT_DEPTH + 1)) s else s
    modBudget (fun b => { b with depthTemps := s.dieTemps, depthAt := s.now }) s
  else s

/-- A throttle is requested (R537). -/
def State.throttleWanted (s : State) : Bool := s.dieCodes.any s.dieThrottled || s.budget.capThrottle

/-- The throttle after a cycle (R537, R538). -/
def nextThrottle (s : State) : State :=
  let was := decide (s.rdS R.BUDGET_STAT_THROT = 1)
  if s.throttleWanted then
    if was then
      match s.budget.graceEnd with
      | some t => if t ≤ s.now then enforce s else s
      | none => if s.budget.depthAt + 1000000 ≤ s.now then depthTick s else s
    else
      let s := incAll R.BUDGET_EVT_THROTS 1 (wrAll R.BUDGET_STAT_THROT 1 s)
      allLines (modBudget (fun b => { b with graceEnd := some (s.now + 10000 * s.rdS R.BUDGET_POL2_GRACE) }) s)
  else if was then
    allLines (modBudget (fun b => { b with graceEnd := none }) (setDepth 0 (wrAll R.BUDGET_STAT_THROT 0 s)))
  else s

/-- The request of R537 for the cap: ten cycles at level 8 above it make it, ten at or below it end it. -/
def capRequest (level pred : Nat) (s : State) : State :=
  let past := decide (s.powerCap < pred)
  let up := if past ∧ level = 8 then s.budget.overCycles + 1 else 0
  let down := if past then 0 else s.budget.underCycles + 1
  modBudget (fun b => { b with
    overCycles := min 10 up, underCycles := min 10 down
    capThrottle := if b.capThrottle then decide (down < 10) else decide (10 ≤ up) }) s

/-! ## The cycle (R521, R529) -/

/-- One budget cycle (R529 to R538). -/
def cycle (s : State) : State :=
  let s := modBudget (fun b => { b with appended := (b.appending :: b.appended).take 100, appending := 0, vsteps := 0, drained := 0 }) s
  let lv := s.nextLevel
  let pred := s.pPred lv.1
  let vt := s.nextVtgt lv.1 pred
  let s := modBudget (fun b => { b with lowCycles := lv.2, idleCycles := vt.2 }) s
  let s := wrAll R.BUDGET_STAT_LEVEL lv.1 (wrAll R.BUDGET_STAT_VTGT vt.1 s)
  let s := wrAll R.BUDGET_STAT_SAG (bit s.pins.sagPause) (wrAll R.BUDGET_STAT_WARN (bit (s.dieCodes.any s.dieWarm)) s)
  let s := wrAll R.BUDGET_PWR_PMEAS (min 0xFFFF s.pMeas) (wrAll R.BUDGET_PWR_PPRED (min 0xFFFF pred) s)
  let s := wrAll R.BUDGET_OUT_CLEANOK (bit (lv.1 = 0)) s
  let lim := actLimit lv.1 s.usedGroups.length
  let s := wrAll R.BUDGET_STAT_ACTLIM lim s
  let again := decide (s.budget.active.length ≠ lim) || s.budget.active.any (fun g => g ∉ s.usedGroups) ||
    (decide (lim < s.usedGroups.length) && s.activeStale)
  let s := if again then rechoose s else sendOrders (showOrders s)
  let s := nextRaises s
  let s := wrAll R.BUDGET_OUT2_RIN (min 0xFFF (s.rateIn / 1000000)) (wrAll R.BUDGET_OUT2_STRBUF (min 0xFFF (s.streamBytes / 2 ^ 24)) s)
  nextThrottle (capRequest lv.1 pred (sendTarget s))

/-- Budget cycles run: settings are loaded, and no resync is in its third phase (R539). -/
def State.budgetRuns (s : State) : Bool :=
  decide (3 ≤ s.phase s.senior ∧ s.phase s.senior ≤ 8) && ! s.rinds.any (fun d => s.rdR d R.STEP_RESYNC_PHASE = 3)

/-- A cycle's computation is drained by a stall watch (R539): the outputs stand, and three in a row raise source 0x0B3. -/
def cycleDrained (s : State) : State :=
  if 3 ≤ s.budget.drained + 1 then raiseAll 0x0B3 [] (modBudget (fun b => { b with drained := 0 }) s)
  else modBudget (fun b => { b with drained := b.drained + 1 }) s

end Sys2Proof.Machine
end

