-- ==== Sys2Proof/Machine/FlashOps.lean ====
section
/-! DEFINITION. Operations on the serial flash: choosing copies, header writes, and the checks of an image slot (R78 to R90). -/

namespace Sys2Proof.Machine

/-! ## The layout (R77) -/

/-- Address of header copy k. -/
def hdrAddr (k : Nat) : Nat := 0x10000 * k
/-- Address of settings copy k. -/
def setAddr (k : Nat) : Nat := 0x20000 + 0x80000 * k
/-- Address of the zone block of head h in copy k (R86). -/
def zoneAddr (k h : Nat) : Nat := 0x120000 + 0x80000 * k + 0x4000 * h
/-- Address of calibration copy k. -/
def calAddr (k : Nat) : Nat := 0x220000 + 0x10000 * k
/-- Address of image slot i. -/
def slotAddr (i : Nat) : Nat := 0x400000 + 0x1000000 * i
/-- Start of the log ring, which ends at the top of the flash. -/
def Header.logBase (h : Header) : Nat := 2 ^ h.flashLog2 - 2 ^ h.logLog2
/-- 4 KiB sectors of the log ring. -/
def Header.logSectors (h : Header) : Nat := 2 ^ (h.logLog2 - 12)
/-- The clock of quad reads in MHz (R78). -/
def Header.mhz (h : Header) : Nat := 25 * 2 ^ h.sfclk

/-- Where a flash operation works, with the slot that a download writes. -/
def FlashOp.addr (slot : Nat) : FlashOp → Nat
  | .header k _ _ _ => hdrAddr k
  | .settings k _ _ _ _ _ => setAddr k
  | .chunk off _ _ _ => slotAddr slot + off

/-- The ring takes the size that the header gives it: sectors that the flash was not known to hold are erased ones (R77, R559). -/
def shapeLog (h : Header) (l : List LogSector) : List LogSector :=
  if l.length = h.logSectors then l
  else
    let old := l.filter (fun x => decide (x.pos < h.logSectors))
    old ++ ((List.range h.logSectors).filter (fun i => old.all (fun x => x.pos ≠ i))).map (fun i => { pos := i : LogSector })

/-- Choose between two copies by their sequence numbers (R79, R84): the one ahead, copy 0 where neither is. -/
def chooseCopy {α : Type} (m : Nat) (seq : α → Nat) (a b : Option α) : Option (Nat × α) :=
  match a, b with
  | some x, some y => if aheadMod m (seq y) (seq x) then some (1, y) else some (0, x)
  | some x, none => some (0, x)
  | none, some y => some (1, y)
  | none, none => none

/-- The header a start uses (R79). -/
def Flash.header (f : Flash) : Option (Nat × Header) :=
  chooseCopy 0x10000 Header.hseq (Header.ofBytes f.hdr0) (Header.ofBytes f.hdr1)

/-- The settings copy in use (R84). -/
def State.settings (s : State) : Option (Nat × Settings) :=
  chooseCopy (2 ^ 32) Settings.sseq (s.flash.set0.filter (Settings.valid s.fuses.ownerKey)) (s.flash.set1.filter (Settings.valid s.fuses.ownerKey))

/-- The bytes of a slot. -/
def Flash.slot (f : Flash) (i : Nat) : List Byte := if i = 0 then f.slotA else f.slotB

/-- The release in a slot (R80). -/
def State.slotImage (s : State) (i : Nat) : Option SlotImage := SlotImage.ofBytes s.fuses (s.flash.slot i)

/-- The release in a slot, where it is accepted (R81). -/
def State.accepted (s : State) (i : Nat) : Option SlotImage := (s.slotImage i).filter (slotAccepted s.fuses)

/-- The flash may begin an erase or a program now (R96). -/
def State.flashFree (s : State) : Bool := s.flash.op.isNone && s.flash.redo.isNone && ! s.pins.sagPause && s.pins.sfDriven

/-- The slot that downloads go to: the one not running (R200). -/
def State.targetSlot (s : State) : Nat := 1 - s.rdR s.senior R.BOOT_STAT_SLOT

/-- The bytes of a slot are replaced. -/
def Flash.putSlot (f : Flash) (i : Nat) (l : List Byte) : Flash := if i = 0 then { f with slotA := l } else { f with slotB := l }

/-- A slot is checked against R81 in this start (R194). -/
def noteChecked (i : Nat) (s : State) : State :=
  { s with boot := { s.boot with checked := (i, (s.accepted i).isSome) :: s.boot.checked.filter (fun p => p.1 ≠ i) } }

/-- The command that waits for a header write: port and tag. -/
def HdrWhy.cmd : HdrWhy → Option (Nat × Nat)
  | .activate port tag => some (port, tag)
  | .download _ port tag => some (port, tag)
  | .trial => none
  | .drop => none
  | .commit => none

/-- The command that waits for a flash operation. -/
def FlashOp.cmd : FlashOp → Option (Nat × Nat)
  | .header _ _ _ why => why.cmd
  | .settings _ _ _ port tag _ => some (port, tag)
  | .chunk _ _ port tag => some (port, tag)

/-- The flash begins an operation. -/
def startOp (op : FlashOp) (s : State) : State :=
  { s with flash := { s.flash with op := some op, sagged := s.pins.sagPause } }.emit (.flash op (op.addr s.targetSlot))

/-- Whether VIN below VSAG stopped a command's write before its last erase or program (R191): where VIN fell in its course, when it fell is open,
so a free value says; else it did not. -/
def State.sagStop (s : State) : Bool × State :=
  if s.flash.sagged then
    let r := s.fresh
    (decide (r.1 % 2 = 1), r.2)
  else (false, s)

/-- The second attempt after a bad read-back (R79): at once, or once VIN permits an erase (R96). -/
def againOp (op : FlashOp) (s : State) : State :=
  if s.pins.sagPause then { s with flash := { s.flash with op := none, redo := some op } } else startOp op s

/-- The second attempt that waits goes on (R96). -/
def resumeOp (s : State) : State :=
  match s.flash.redo with
  | some op => if s.pins.sagPause ∨ ! s.pins.sfDriven then s else startOp op { s with flash := { s.flash with redo := none } }
  | none => s

/-- Begin the oldest waiting header write (R79, R98): into the other copy, HSEQ one ahead of the copy in use. -/
def beginHeaderWrite (s : State) : State :=
  match s.flash.hdrQueue with
  | [] => s
  | (h, why) :: rest =>
    if s.flashFree then
      let k := 1 - s.rdR .f0 R.BOOT_STAT_HDRCOPY
      startOp (.header k { h with hseq := (s.boot.hdr.hseq + 1) % 0x10000 } false why) { s with flash := { s.flash with hdrQueue := rest } }
    else s

/-- Ask for a header write (R79). -/
def writeHeader (h : Header) (why : HdrWhy) (s : State) : State :=
  beginHeaderWrite { s with flash := { s.flash with hdrQueue := s.flash.hdrQueue ++ [(h, why)] } }

/-- BOOT_STAT shows the header in use (R100). -/
def showHeader (d : RSlot) (k : Nat) (h : Header) (s : State) : State :=
  ((s.wrR d R.BOOT_STAT_HDRCOPY k).wrR d R.BOOT_STAT_TRIES h.tries).wrR d R.BOOT_STAT_PEND (bit h.pending.isSome)

/-- The settings copy k. -/
def Flash.setCopy (f : Flash) (k : Nat) (c : Option Settings) : Flash := if k = 0 then { f with set0 := c } else { f with set1 := c }

/-- The bytes of header copy k: none for a copy that a failed or broken write leaves, which is no valid one (R79). -/
def Flash.hdrCopy (f : Flash) (k : Nat) (h : List Byte) : Flash := if k = 0 then { f with hdr0 := h } else { f with hdr1 := h }

/-! ## The log writer's choices (R559 to R561) -/

/-- The die whose island owns the flash bus, and so writes the log (R559). -/
def State.flashOwner (s : State) : RSlot := if s.part.f = 2 ∧ s.bitR .f1 R.DEV_PINSTAT_SFOWN ∧ ! s.bitR .f0 R.DEV_PINSTAT_SFOWN then .f1 else .f0

/-- Erased sectors of the ring. -/
def erasedSectors (l : List LogSector) : Nat := l.countP (fun x => x.used = 0)

/-- The sector that takes the next record: the one partly filled, else an erased one outside the reserve; a Fatal record may use the
reserve (R559). -/
def logSlot (fatal : Bool) (l : List LogSector) : Option Nat :=
  match l.findIdx? (fun x => decide (0 < x.used ∧ x.used < 64)) with
  | some i => some i
  | none => if 2 ≤ erasedSectors l ∨ (fatal ∧ 1 ≤ erasedSectors l) then l.findIdx? (fun x => decide (x.used = 0)) else none

/-- The record the writer takes next (R96, R559, R561): none before the region is scanned; the head of the queue; while frozen or below VSAG, the
first Fatal one. -/
def nextRecord (d : RSlot) (s : State) : Option LogRec :=
  let q := (s.rind d).island.queue
  if ! (s.rind d).island.scanned then none
  else if s.bitR d R.LOG_STAT_FROZEN || s.pins.sagPause then q.find? (fun r => r.sev = 4) else q.head?

/-- Address of a slot of a sector of the ring (R77). -/
def State.logAddr (s : State) (x : LogSector) (slot : Nat) : Nat := s.boot.hdr.logBase + 4096 * x.pos + 64 * slot

/-- The record that the writer is programming when the bus is cut (R71): its slot stays used and its CRC fails. The writer programs whenever
it has a record, a slot for it and the bus free (DEDUCED 123). -/
def cutRecord (s : State) : State :=
  match nextRecord s.flashOwner s with
  | none => s
  | some r =>
    match logSlot (r.sev = 4) s.flash.log with
    | none => s
    | some i => { s with flash := { s.flash with log := modAt i (fun x => { x with used := x.used + 1 }) s.flash.log } }

/-- A flash command is cut short by a reset (R71): a block being written is left invalid, a log record being programmed fails its CRC and its slot stays used. -/
def cutFlash (s : State) : State :=
  match s.flash.op with
  | some (.header k _ _ _) => { s with flash := { s.flash.hdrCopy k [] with op := none } }
  | some (.settings k _ _ _ _ _) => { s with flash := { s.flash.setCopy k none with op := none } }
  | some (.chunk _ _ _ _) => { s with flash := { s.flash with op := none } }
  | none => if s.pins.por ∧ s.pins.resetN ∧ s.pins.sfDriven then cutRecord s else s

end Sys2Proof.Machine
end

