-- ==== Sys2Proof/Machine/Tally.lean ====
section
/-! DEFINITION. The tallies (R564 to R567): the ledgers of a die, their snapshot and their check. -/

namespace Sys2Proof.Machine

/-- A ledger (R564): class and instance, TOTAL, T1 to T4 and AUX. -/
structure Ledger where
  cls : Nat
  inst : Nat
  total : Nat
  t1 : Nat
  t2 : Nat
  t3 : Nat := 0
  t4 : Nat := 0
  aux : Nat := 0
  deriving DecidableEq, Repr

/-- The ID of a ledger (R565). -/
def Ledger.id (l : Ledger) : Nat := l.cls * 2 ^ 24 + l.inst

/-- The sum of the terms. -/
def Ledger.sum (l : Ledger) : Nat := l.t1 + l.t2 + l.t3 + l.t4

/-- The invariant of a ledger (R564). -/
def Ledger.holds (l : Ledger) : Bool :=
  match l.cls with
  | 1 => decide (l.t1 + l.t2 = l.total ∧ l.t2 ≤ l.aux ∧ l.t3 ≤ 64)
  | 2 => decide (l.t1 + l.t2 = l.total ∧ l.aux = l.t2)
  | 3 => decide (l.t1 + l.t2 = l.total)
  | _ => decide (l.sum % 2 ^ 32 = l.total % 2 ^ 32)

/-- Vat pool `p`. -/
def vatLedger (d : RSlot) (s : State) (p : Nat) : Ledger :=
  let v := (s.rind d).vat
  { cls := 1, inst := p, total := s.poolCount d p, t1 := s.poolFree d p, t2 := (v.allocated p).length, t3 := (v.waiting p).length
    aux := ((v.allocated p).map (fun b => (b.held.getD (0, 0)).1)).sum }

/-- Command tags: entries of outstanding commands and of completions that wait for a slot. One that waits for its digest block alone is in neither
AUX term, so it is not counted (DESIGN CHOICE 135). -/
def tagLedger (d : RSlot) (s : State) : Ledger :=
  let used := s.cmds.length + ((List.range 256).map s.heldOn).sum
  { cls := 2, inst := 0, total := 16384, t1 := 16384 - used, t2 := used
    aux := ((List.range 256).map (fun n => s.rdR d (R.PORT_OUT_OUT n) + s.rdR d (R.PORT_CQSTAT_HELD n))).sum }

/-- Completion slots of port `p`. -/
def slotLedger (d : RSlot) (s : State) (p : Nat) : Ledger :=
  if s.rdR d (R.PORT_STAT_STATE p) = 0 then { cls := 3, inst := p, total := 0, t1 := 0, t2 := 0, aux := s.rdR d (R.PORT_CQSTAT_HELD p) }
  else { cls := 3, inst := p, total := s.rdR d (R.PORT_SIZE_CQSIZE p) - 1, t1 := s.cqFree p, t2 := s.cqUsed p, aux := s.rdR d (R.PORT_CQSTAT_HELD p) }

/-- Host link credits of the pools of a head, as its last training gave them: the model sends host traffic at once, so all are held. -/
def hostLedgers (d : RSlot) (s : State) : List Ledger :=
  (List.range 4).flatMap (fun h => (assocGet h [] (s.rind d).pools).mapIdx (fun i c => { cls := 4, inst := h * 2 ^ 8 + i, total := c, t1 := c, t2 := 0 }))

/-- Finvik credits of a class of a link, in one direction, `e` the sending end (R27). -/
def finvikLedger (inst c : Nat) (e : LinkEnd) (s : State) : Ledger :=
  let tx := (s.fvEnd e).tx.getD c {}
  let rx := (s.fvEnd (farEnd e)).rx.getD c {}
  { cls := 5, inst := inst, total := e.credits c, t1 := tx.credits, t2 := tx.replay.countP (fun m => aheadMod 0x10000 m.lseq rx.last)
    t3 := rx.held.length, t4 := (rx.freed + 0x10000 - tx.freedApplied) % 0x10000 }

/-- Finvik credits of the links that are present and up. -/
def finvikLedgers (d : RSlot) (s : State) : List Ledger :=
  (List.range 7).flatMap (fun n =>
    let e : LinkEnd := .rind d n
    if s.linkUp e then
      (List.range 4).flatMap (fun c =>
        let k := n * 2 ^ 8 + ((if n = 6 then 4 else 0) + c) * 2 ^ 4
        ([(e, k), (farEnd e, k + 1)].filter (fun p => p.1.credits c ≠ 0)).map (fun p => finvikLedger p.2 c p.1 s))
    else [])

/-- The seniority token. -/
def tokenLedger (d : RSlot) (s : State) : Ledger :=
  let mine := if s.part.f = 1 ∨ s.role d = roleAlone then 1 else s.rdR d R.STEP_STAT_LEASE
  { cls := 6, inst := 0, total := 1, t1 := mine, t2 := 1 - mine, aux := s.rdR d R.STEP_EPOCH_EPOCH }

/-- Event counts of severity `v`. -/
def eventLedger (d : RSlot) (s : State) (v : Nat) : Ledger :=
  { cls := 7, inst := v, total := s.rdR d (R.LOG_CNT_RAISED (v - 1)), t1 := s.rdR d (R.LOG_CNT_STORED (v - 1))
    t2 := s.rdR d (R.LOG_CNT_DROPPED (v - 1)), t3 := s.rdR d (R.LOG_CNT_QUEUED (v - 1)) }

/-- Vat refusals. -/
def refusalLedger (d : RSlot) (s : State) : Ledger :=
  let l := (s.rind d).vat.refused
  { cls := 8, inst := 0, total := l.sum, t1 := l.getD 0 0, t2 := l.getD 1 0, t3 := l.getD 2 0, t4 := l.getD 3 0 }

/-- The ledgers of a die, in ascending ID (R564, R565). -/
def ledgerList (d : RSlot) (s : State) : List Ledger :=
  (List.range 4).map (vatLedger d s) ++ [tagLedger d s] ++ (List.range 256).map (slotLedger d s) ++ hostLedgers d s ++ finvikLedgers d s ++
  [tokenLedger d s] ++ [1, 2, 3, 4].map (eventLedger d s) ++ [refusalLedger d s]

/-- The eight words of a ledger entry, the STATUS given (R565). -/
def Ledger.words (l : Ledger) (status : Nat) : List Nat := [l.id, l.total, l.t1, l.t2, l.t3, l.t4, l.aux, status]

/-- The ledgers as they enter the digest (R499): the Finvik and host link credits of one die and the token are its own, so the classes that
both dies hold alike. -/
def ledgers (d : RSlot) (s : State) : List (List Nat) :=
  ((ledgerList d s).filter (fun l => decide (l.cls = 1 ∨ l.cls = 2 ∨ l.cls = 3 ∨ l.cls = 8))).map (fun l => (l.words 0).take 7)

/-- Write words to registers from an offset of a die on. -/
def wrRun (die : Nat) : Nat → List Nat → State → State
  | _, [], s => s
  | off, w :: ws, s => wrRun die (off + 4) ws (s.setWord (regKey die off) (BitVec.ofNat 32 w))

/-- Write ledger entries with their STATUS into the island copy, and their count (R565, R566). Entries from COUNT on read 0. -/
def putLedgers (d : RSlot) (l : List (List Nat)) (s : State) : State :=
  let old := s.rdR d R.TALLY_NLEDG_COUNT
  let l := l.take 511
  let s := wrRun d.code 0xF1000 (l.flatMap id ++ List.replicate (8 * (old - l.length)) 0) s
  s.wrR d R.TALLY_NLEDG_COUNT l.length

/-- STATUS of each ledger as the last check left it, by ID. -/
def State.lastStatus (s : State) (d : RSlot) : List (Nat × Nat) :=
  (List.range (s.rdR d R.TALLY_NLEDG_COUNT)).map (fun k => (s.rdR d (R.TALLY_LEDG_WORD k 0), s.rdR d (R.TALLY_LEDG_WORD k 7)))

/-- A snapshot of the ledgers (R566), with its step, or in F1 parts a running count. -/
def tallySnapshot (d : RSlot) (s : State) : State :=
  let old := s.lastStatus d
  let s := putLedgers d ((ledgerList d s).map (fun l => l.words (assocGet l.id 0 old))) s
  let s := s.modRind d (fun r => { r with island := { r.island with snapAt := s.now, snaps := r.island.snaps + 1 } })
  let n := if s.part.f = 2 then s.stepNo d else (s.rind d).island.snaps
  (s.wrR d R.TALLY_SNAP_LO_SNAP (n % 2 ^ 32)).wrR d R.TALLY_SNAP_HI_SNAP (n / 2 ^ 32)

/-- Check the ledgers of a die (R567): a failed invariant raises source 0x0C0, always Fatal (R6, R543), with the ledger's
ID, TOTAL and terms. -/
def checkDie (d : RSlot) (s : State) : Bool × State :=
  let l := ledgerList d s
  let bad := l.filter (fun x => ! x.holds)
  let s := putLedgers d (l.map (fun x => x.words (if x.holds then 2 ^ 31 else 2 ^ 30))) s
  let s := s.incR d R.TALLY_CHECKS_COUNT
  let s := if bad.isEmpty then s.wrR d R.TALLY_STAT_OK 1 else (s.wrR d R.TALLY_STAT_OK 0).wrR d R.TALLY_STAT_VIOL 1
  (bad.isEmpty, bad.foldl (fun t x => raiseFull d d.code 0x0C0 [x.id, x.total, x.t1, x.t2, x.t3, x.t4] (some 4) t) s)

/-- Own-error flags of a die are set (R510). -/
def markOwn (d : RSlot) (s : State) : State :=
  s.modRind d (fun r => { r with island := { r.island with ownNow := true, ownSince := true } })

/-- The ledgers are checked (R567): both dies at the same step, a failure on one alone being that die's own error. -/
def tallyCheck (s : State) : Bool × State :=
  match s.serving with
  | [a, b] =>
    let x := checkDie a s
    let y := checkDie b x.2
    let s := y.2
    (x.1 && y.1, if x.1 = y.1 then s else if x.1 then markOwn b s else markOwn a s)
  | [a] => checkDie a s
  | _ => (true, s)

/-- TALLY_SNAPSHOT (R566): every 100 µs in F1 parts; in F2 parts at each digest block close, which takes its own. -/
def execTallySnapshot (d : RSlot) (s : State) : Host.Outcome State Fault Refusal :=
  .next (if s.hasRind d ∧ ! s.fenced d ∧ (s.part.f = 1 ∨ s.role d = roleAlone) then tallySnapshot d s else s)

end Sys2Proof.Machine
end

