-- ==== Sys2Proof/Machine/InStepOps.lean ====
section
/-! DEFINITION. Two Rind dies in step: the shared operations (R493 to R518). -/

namespace Sys2Proof.Machine

/-- Keep the registers whose key meets a condition; the others take their reset values. -/
def keepRegs (p : Nat → Bool) (s : State) : State := { s with regs := s.regs.filter (fun r => p r.1) }

/-- The die of a register key, and its offset. -/
def keyDie (k : Nat) : Nat := k / 0x1000000
/-- The offset of a key. -/
def keyOff (k : Nat) : Nat := k % 0x1000000

/-- Blocks of a die that phase 1 of a resync leaves: DEV and BOOT, and what is not core logic of the die's own: its heads, its DRAM training and
its island's blocks. -/
def resyncKeeps (off : Nat) : Bool :=
  decide (off < 0x20000 ∨ (0x20000 ≤ off ∧ off < 0x20010) ∨ (0x80000 ≤ off ∧ off < 0x90000) ∨ 0xD0000 ≤ off)

/-- Phase 1 at the target: engines halted, blocks reset, the Cave invalidated; failed DRAM is trained again. -/
def resetForResync (t : RSlot) (s : State) : State :=
  let lost := decide (s.rdR t R.BMEM_STAT_PHASE = 0xF)
  let s := keepRegs (fun k => decide (keyDie k ≠ t.code) || resyncKeeps (keyOff k)) s
  let s := s.modRind t (fun r => {
    links := r.links, sb := r.sb, island := r.island, pools := r.pools, bmem := r.bmem, modes := r.modes, bound := r.bound
    opened := r.opened.filter (· < 2), arms := r.arms.filter (fun a => decide (a.2.1 < 0x20000)) })
  let s := (s.wrR t R.STEP_STAT_REDUND 2).wrR t R.STEP_STAT_LINKUP 1
  if lost then startTraining t s else s

/-- The Curd dies a Rind die has found, as a list (DEV_DIEPRES.CPRES). -/
def State.presentCurds (s : State) (d : RSlot) : List Nat := (List.range 6).filter (fun g => (s.rdR d R.DEV_DIEPRES_CPRES).testBit g)

/-- A quorum (R508): more than half of the present Curd dies, or exactly half including C0. -/
def quorum (present l : List Nat) : Bool :=
  let n := present.countP (fun g => g ∈ l)
  decide (present.length < 2 * n ∨ (present.length = 2 * n ∧ 0 ∈ l ∧ 0 ∈ present))

/-- Lease traffic (R507): a CTRL message of two words to every Curd die the die reaches. LEASE (0x60) goes out in step and is numbered as
R504 asks; what one die sends alone has no pair, and carries ESEQ 0 outside that sequence. -/
def leaseTraffic (d : RSlot) (op low epoch : Nat) (s : State) : State :=
  let ws : List Word := [BitVec.ofNat 32 (op * 2 ^ 24 + low), BitVec.ofNat 32 epoch]
  (s.presentCurds d).foldl (fun t g => if op = 0x60 then ctrlTo d g ws t else sendMsg (.rind d g) 3 0 ws t) s

/-- The HOLDER bit of a die. -/
def RSlotBit (d : RSlot) : Nat := d.code

/-- The die fences itself (R515): its role, its ports on the PMBus and the flash, its claims; its own island logs source 0x0A3. -/
def fenceDie (d : RSlot) (s : State) : State :=
  if s.part.f = 2 ∧ s.role d ≠ roleFenced then
    let s := ((s.wrR d R.STEP_STAT_ROLE roleFenced).wrR d R.STEP_STAT_LEASE 0).incR d R.STEP_EVT_FENCES
    let s := s.rinds.foldl (fun t e => t.wrR e R.STEP_STAT_REDUND 2) s
    let s := modStep d (fun x => { x with split := none, claim := none, grants := [], refusals := [], turnAt := none }) s
    let own := s.bitR d R.DEV_PINSTAT_PMBOWN
    let s := s.wrR d R.DEV_PINSTAT_PMBOWN 0
    let s := if own ∧ ! s.fenced d.peer then { s with pmb := { s.pmb with takeover := true } } else s
    let s := if s.bitR d R.DEV_PINSTAT_SFOWN ∧ ! s.fenced d.peer then
        (s.wrR d R.DEV_PINSTAT_SFOWN 0).wrR d.peer R.DEV_PINSTAT_SFOWN 1 else s
    let s := if s.fenced d.peer then dropHeld d s else soleWriterAll d.peer (dropHeld d s)
    dieWordDue d (raise d 0x0A3 [] s)
  else s

/-- A resync in progress ends, its target fenced (R516); the attempt counts toward R517. -/
def endResync (s : State) : State :=
  match s.rinds.find? (fun d => s.role d = roleResync) with
  | none => s
  | some t =>
    let srv := t.peer
    let s := (s.wrR t R.STEP_STAT_ROLE roleFenced)
    let s := s.rinds.foldl (fun u d => u.wrR d R.STEP_RESYNC_PHASE 0) s
    let recent := s.now :: (s.rind srv).step.failedResyncs.filter (fun x => s.now < x + 3600000000)
    let s := modStep srv (fun x => { x with failedResyncs := recent }) s
    dieWordDue t (if s.rdR srv R.STEP_CFG_RSMAX ≤ recent.length then raise srv 0x0A2 [t.code] s else s)

/-- A resync begins (R516 phase 1): the target resets every block but DEV and BOOT and invalidates its Cave; the copy pass follows. -/
def startResync (s : State) : State :=
  match s.rinds.find? (fun d => s.role d = roleFenced), s.serving with
  | some t, [srv] =>
    if s.bitR srv R.STEP_STAT_LINKUP ∧ t.code ∉ s.budget.shut ∧
        ((s.rind srv).step.failedResyncs.filter (fun x => s.now < x + 3600000000)).length < s.rdR srv R.STEP_CFG_RSMAX then
      let s := resetForResync t s
      let s := soleWriterAll srv (s.wrR t R.STEP_STAT_ROLE roleResync)
      let s := s.rinds.foldl (fun u d => (u.wrR d R.STEP_RESYNC_PHASE 2).wrR d R.STEP_RESYNC_MIB 0) s
      dieWordDue t s
    else s
  | _, _ => s

/-- The die becomes the sole server (R502, R511, R512): it holds the lease alone, tells the Curd dies, rewrites the data of the commands
whose completions it holds and writes those, and starts the resync where it may; one that has taken the lease from its peer rereads every doorbell line
(R151). -/
def becomeSole (d : RSlot) (s : State) : State :=
  let took := (s.rind d).step.claim.isSome
  let epoch := ((s.rind d).step.claim).getD (s.rdR d R.STEP_EPOCH_EPOCH)
  let s := ((s.wrR d R.STEP_STAT_ROLE roleAlone).wrR d R.STEP_STAT_LEASE 1).wrR d R.STEP_EPOCH_EPOCH epoch
  let s := s.wrR d.peer R.STEP_STAT_LEASE 0
  let s := s.rinds.foldl (fun t e => t.wrR e R.STEP_STAT_REDUND 2) s
  let s := modStep d (fun x => { x with split := none, claim := none, grants := [], refusals := [], turnAt := none, mine := [], peers := [] }) s
  let s := leaseTraffic d 0x60 (2 + RSlotBit d) epoch s
  let s := if s.bitR d R.DEV_PINSTAT_PMBOWN then s else { (s.wrR d.peer R.DEV_PINSTAT_PMBOWN 0) with pmb := { s.pmb with takeover := true } }
  let s := dieWordDue d (releaseUnconfirmed d s)
  let s := if took then rereadDoorbells d s else s
  if s.fenced d.peer ∧ s.bitR d R.STEP_CFG_AUTORS then startResync s else s

/-- Record a divergence (R510, R519): count, cause, flags and the die to be resynced, and source 0x0A0 on the serving dies. -/
def noteDivergence (cause : Nat) (target : RSlot) (s : State) : State :=
  let fl (d : RSlot) : Nat := bit ((s.rind d).island.ownNow || (s.rind d).island.ownPrev || (decide (cause = 4) && (s.rind d).island.ownSince))
  let s := s.rinds.foldl (fun t d =>
    (((t.incR d R.STEP_DIV_COUNT).wrR d R.STEP_DIV_CAUSE cause).wrR d R.STEP_DIV_FLAGGED (fl .f0 + 2 * fl .f1)).wrR d R.STEP_DIV_TARGET target.code) s
  inStep (fun d t => raise d 0x0A0 [cause, target.code] t) s

/-- The die to be resynced after a divergence (R510): the one that flagged an error of its own, else the junior. -/
def divergenceTarget (f0 f1 : Bool) (s : State) : RSlot :=
  if f0 && ! f1 then .f0 else if f1 && ! f0 then .f1 else s.senior.peer

/-- A die of two in step fences itself and the other serves alone (R511): at once where it is the senior, else once it has claimed the lease
(R513). -/
def dropDie (target : RSlot) (s : State) : State :=
  let wasSenior := s.senior
  let s := fenceDie target s
  let d := target.peer
  if wasSenior = d then becomeSole d s
  else
    let e := s.rdR d R.STEP_EPOCH_EPOCH + 1
    let s := modStep d (fun x => { x with claim := some e, grants := [], refusals := [] }) s
    leaseTraffic d 0x62 (RSlotBit d) e s

/-- A divergence (R511): the target fences, and the other die serves alone. -/
def diverge (cause : Nat) (target : RSlot) (s : State) : State :=
  if s.part.f = 2 then
    if s.rinds.any (fun d => s.role d = roleResync) then endResync (noteDivergence cause target s)
    else if s.inTwo then dropDie target (noteDivergence cause target (s.serving.foldl (fun t e => useRung e 5 t) s))
    else s
  else s

/-- A rung 5 action (R554): a Fatal event on a Rind die whose peer is in step fences it. -/
def fenceForFatal (d : RSlot) (s : State) : State := diverge 1 d s

/-- Roles exchange at a turning step (R509): both dies send LEASE with the new senior and epoch, the new senior rereads every doorbell line
and waits for the PMBus, and the interval restarts. -/
def turnRoles (epoch : Nat) (s : State) : State :=
  let old := s.senior
  let new := old.peer
  let s := ((s.wrR new R.STEP_STAT_ROLE roleSenior).wrR new R.STEP_STAT_LEASE 1)
  let s := ((s.wrR old R.STEP_STAT_ROLE roleJunior).wrR old R.STEP_STAT_LEASE 0)
  let s := s.rinds.foldl (fun t d =>
    let t := (t.wrR d R.STEP_EPOCH_EPOCH epoch).incR d R.STEP_EVT_TURNS
    dieWordDue d (leaseTraffic d 0x60 (RSlotBit new) epoch t)) s
  let due := s.now + 60000000 * s.rdR new R.STEP_CFG_TURNMIN
  let s := (modStep old (fun x => { x with turnAt := none }) (modStep new (fun x => { x with turnAt := some due, next := max x.next (s.rind old).step.next }) s))
  let s := s.rinds.foldl (fun t d => t.wrR d R.DEV_PINSTAT_PMBOWN 0) { s with pmb := { s.pmb with takeover := true } }
  rereadDoorbells new s

/-- A turning is proposed (R509): not while redundancy is degraded, nor within a minute of its return. -/
def proposeTurning (s : State) : State :=
  let fresh := match (s.rind s.senior).step.restoredAt with
    | some t => decide (s.now < t + 60000000)
    | none => false
  if s.inTwo ∧ s.rdR s.senior R.STEP_STAT_REDUND = 1 ∧ ! fresh then
    let e := s.rdR s.senior R.STEP_EPOCH_EPOCH + 1
    turnRoles e (newStep 0x0B 0 e s)
  else s

/-- STEP_CTL (R509, R516): TURNNOW proposes a turning, RESYNC starts a resync of the fenced peer. F1 parts discard it (R519). -/
def stepCtlWrite (v : Word) (s : State) : State × Nat :=
  if s.part.f = 1 then (s, 0)
  else
    let s := if R.STEP_CTL_TURNNOW.get v = 1 then proposeTurning s else s
    (if R.STEP_CTL_RESYNC.get v = 1 then startResync s else s, 0)

/-- At READY of an F2 part the turning interval starts (R509). -/
def startTurning (s : State) : State :=
  if s.inTwo then
    modStep s.senior (fun x => { x with turnAt := some (s.now + 60000000 * s.rdR s.senior R.STEP_CFG_TURNMIN) }) s
  else s

/-- Close the digest block on a die (R499, R500): the ledgers enter the digest, the digest and the own-error flags go to the peer, and a
tally snapshot is taken (R566). -/
def closeBlock (d : RSlot) (s : State) : State :=
  let s := digestAdd d ((ledgers d s).flatMap (fun l => l.flatMap (fun n => natLe 4 n))) s
  let x := (s.rind d).step
  let i := (s.rind d).island
  let dg := ~~~ x.crc
  let flags := bit i.ownNow + 2 * bit i.ownPrev + 4 * bit i.ownSince
  let s := modStep d (fun x => { x with mine := x.mine ++ [(x.block, dg)], block := x.block + 1, crc := BitVec.allOnes 64, steps := 0 }) s
  let s := s.modRind d (fun r => { r with island := { r.island with ownPrev := r.island.ownNow, ownNow := false } })
  let w (n : Nat) : Word := BitVec.ofNat 32 n
  let s := sendMsg (.rind d 6) 5 0 [w x.block, w (x.block / 2 ^ 32), w dg.toNat, w (dg.toNat / 2 ^ 32), w flags] s
  tallySnapshot d s

/-- A block both dies agree on is confirmed (R500, R501): its completions may be written. -/
def confirmBlock (d : RSlot) (b : Nat) (s : State) : State :=
  let s := modStep d (fun x => { x with mine := x.mine.filter (fun p => p.1 ≠ b), peers := x.peers.filter (fun p => p.1 ≠ b) }) s
  let s := s.modRind d (fun r => { r with island := { r.island with ownSince := r.island.ownNow } })
  releaseConfirmed d b (s.wrR d R.STEP_BLOCK_BLOCK b)

end Sys2Proof.Machine
end

