-- ==== Sys2Proof/Machine/ReadChannel.lean ====
section
/-! DEFINITION. The sector on the media and the read channel between the ADC and the decoder: framing, precompensation, the code, timing
recovery, equalisation, the combiner, the detector and the LDPC decoder (R263 to R291, R317, R318). What the spec gives no number for in these
stages (filter constants, loop constants, the branch metric, the shifts of the code) is a free value (log entries 130 to 132). -/

namespace Sys2Proof.Machine

/-! ## The zone's read side (R263) -/

/-- DELAYA and DELAYC; reader B has none. -/
def Zone.delayOf (z : Zone) (k : Nat) : Int := if k = 0 then z.delay.getD 0 0 else if k = 2 then z.delay.getD 1 0 else 0

/-- The COMB weight of a reader in pair or triple mode: A, B and C in order (log entry 131). -/
def Zone.combOf (z : Zone) (mode k : Nat) : Int := z.comb.getD (if mode = 2 then k else 3 + k) 0

/-- The starting taps of a reader. -/
def Zone.tapsOf (z : Zone) (k : Nat) : List Int := z.taps.getD k []

/-- What the front end of a reader starts from (R95, R265). -/
def Zone.frontOf (z : Zone) (k : Nat) : FrontEnd :=
  { reader := k, gain := z.gain.getD k 0, offset := z.offset.getD k 0, asym := z.asym.getD k 0, hpf := z.hpf.getD k 0, taps := z.tapsOf k }

/-! ## The sector on the media (R270, R271) -/

/-- A byte as bits, bit 0 first (R271). -/
def byteBits (b : Byte) : List Bool := (List.range 8).map b.getLsbD

/-- Eight bits as a byte, bit 0 first. -/
def bitsByte (l : List Bool) : Byte := BitVec.ofNat 8 (l.foldr (fun b n => bit b + 2 * n) 0)

/-- Bits as `n` bytes. -/
def bitsBytes : Nat → List Bool → List Byte
  | 0, _ => []
  | n + 1, l => bitsByte (l.take 8) :: bitsBytes n (l.drop 8)

/-- A field of `n` bits, the highest first. -/
def highFirst (n v : Nat) : List Bool := (List.range n).map (fun i => v.testBit (n - 1 - i))

/-- The preamble: 1100, 32 times (R270). -/
def preambleBits : List Bool := (List.replicate 32 [true, true, false, false]).flatten

/-- The primary sync mark (R270). -/
def primaryMark : List Bool := highFirst 32 0x5E2B93C7

/-- The secondary sync mark of the dual-mark format (R270). -/
def secondaryMark : List Bool := highFirst 32 0xA7D14E39

/-- The pad (R270). -/
def padBits : List Bool := highFirst 16 0x3C3C

/-- A sector as it is written, bit by bit (R270): the dual-mark format puts the secondary mark behind codeword bit 127. -/
def frameSector (dual : Bool) (code : List Bool) : List Bool :=
  preambleBits ++ primaryMark ++ (if dual then code.take 128 ++ secondaryMark ++ code.drop 128 else code) ++ padBits

/-! ## Precompensation (R317, R318) -/

/-- The lead bits (R318): the preamble pattern, continued backwards from bit 0 in the phase that bit 0 requires. -/
def leadBits (n : Nat) : List Bool := (List.range n).map (fun i => decide ((n - 1 - i) % 4 ≥ 2))

/-- The transitions of the written level with their shifts in 1/64 bit (R317): the bit each lies at, from the first bit given, and the entry of
PRECOMP that the three bits before it choose. `h` holds whether a transition occurred one, two and three bits ago. -/
def transitions (pre : List Int) : Nat → Option Bool → Bool × Bool × Bool → List Bool → List (Nat × Int)
  | _, _, _, [] => []
  | t, prev, h, b :: l =>
    let x := decide (prev.any (· != b))
    let rest := transitions pre (t + 1) (some b) (x, h.1, h.2.1) l
    if x then (t, pre.getD (bit h.1 + 2 * bit h.2.1 + 4 * bit h.2.2) 0) :: rest else rest

/-- What a write gate puts on WD (R317, R318): the transitions of the lead bits and of the sector, with their shifts. -/
def writeLevel (pre : List Int) (lead : Nat) (sector : List Bool) : List (Nat × Int) :=
  transitions pre 0 none (false, false, false) (leadBits lead ++ sector)

/-! ## The code (R273) -/

/-- The shift of the circulant at a row and column of the base matrix, none where the block is zero: the code file that gives it is not in the
spec (log entry 130). -/
def codeShift (r c : Nat) : Option Nat :=
  let v := Config.openNat 71 [r, c] % 97
  if v < 96 then some v else none

/-- The codeword bits in check `i` of base row `r` (R273). -/
def layerBits (r i : Nat) : List Nat := (List.range 384).filterMap (fun c => (codeShift r c).map (fun v => 96 * c + (i + v) % 96))

/-- The 3,936 checks, layer by layer (R273). -/
def codeChecks : List (List Nat) := (List.range 41).flatMap (fun r => (List.range 96).map (layerBits r))

/-- The parity of some bits of a word. -/
def parityOf (word : List Bool) (l : List Nat) : Bool := l.foldl (fun p i => p ^^ word.getD i false) false

/-- The checks a word does not satisfy (R278). -/
def unsatisfied (word : List Bool) : Nat := codeChecks.countP (parityOf word)

/-- Solve equations over bits, each a list of coefficients with its right side last, by elimination of one unknown after another. -/
def solveBits : Nat → List (List Bool) → List Bool
  | 0, _ => []
  | n + 1, rows =>
    match rows.find? (fun r => r.headD false) with
    | none => decide (Config.openNat 84 [n] % 2 = 1) :: solveBits n (rows.map List.tail)
    | some p =>
      let rest := (rows.erase p).map (fun r => if r.headD false then (r.zipWith (· ^^ ·) p).tail else r.tail)
      let x := solveBits n rest
      ((p.tail.zipWith (· && ·) (x ++ [true])).foldl (· ^^ ·) false) :: x

/-- The parity bits 32,928 to 36,863 of a codeword (R271, R273): the code is systematic, so they are what satisfies every check (log entry 130). -/
def parityBits (payload : List Bool) : List Bool :=
  solveBits 3936 (codeChecks.map (fun l =>
    (List.range 3936).map (fun i => l.contains (32928 + i)) ++ [parityOf payload (l.filter (· < 32928))]))

/-- The codeword of a payload of 4,116 bytes (R271). -/
def codeword (payload : List Byte) : List Bool :=
  let u := payload.flatMap byteBits
  u ++ parityBits u

/-! ## Timing recovery (R267) -/

/-- The interpolator code of a loop: 64 steps to a bit (R265). -/
def Timing.code (t : Timing) : Nat := (t.phase / 2 ^ 12 % 64).toNat

/-- One bit of the timing loop (R267): second order, with proportional gain 2^-`bw`; the phase error and the integral gain are free values. `w`
is the newest sample and the one before. -/
def Timing.step (bw : Nat) (w : Int × Int) (t : Timing) : Timing :=
  let err := Config.openInt 72 [w.1, w.2, t.phase]
  { t with phase := t.phase + t.freq + 2 ^ 12 * err / 2 ^ bw, freq := t.freq + Config.openInt 73 [err, (bw : Int)] }

/-- The loop over a row of samples. -/
def Timing.run (bw : Nat) (l : List (Int × Int)) (t : Timing) : Timing := l.foldl (fun t w => t.step bw w) t

/-- The timing loop of a reader over a capture (R267): from the synthesiser's frequency and the first 16 samples of the preamble, through
acquisition, to the end of tracking. The capture leaves out a wedge inside the sector, over which the loop holds. -/
def timingOf (cfg : ChanCfg) (r : ReaderCap) : Timing :=
  let pre := r.samples.drop 64
  let start : Timing := { reader := r.reader, phase := Config.openInt 74 (pre.take 16), freq := 0 }
  let pairs := (pre.drop 16).zip (pre.drop 15)
  (start.run cfg.acqbw (pairs.take cfg.acqbits)).run cfg.trkbw (pairs.drop cfg.acqbits)

/-! ## Equalisation and combination (R265, R268, R269, R290) -/

/-- A detection of rung 4 (R290): the digital offset and asymmetry added, the emphasis, whether the taps are adapted over two passes first, and
the readers it uses. -/
structure Setting where
  ofs : Int := 0
  asy : Int := 0
  emph : Int := 0
  adapt : Bool := false
  readers : List Nat
  deriving DecidableEq, Repr

/-- Readers in use in a mode (R261): 0 A, 1 B, 2 C. -/
def usedReaders (mode pair : Nat) : List Nat := if mode = 3 then [0, 1, 2] else if mode = 2 then (if pair = 0 then [0, 1] else [1, 2]) else [1]

/-- The detection numbered `set` on an entry (R290): 0 the zone's settings, 1 to 4 a CHAN_ALTEQ set, 5 without A, 6 without C, 7 B alone. -/
def settingOf (cfg : ChanCfg) (mode pair set : Nat) : Setting :=
  let use := usedReaders mode pair
  if set = 5 then { readers := use.erase 0 }
  else if set = 6 then { readers := use.erase 2 }
  else if set = 7 then { readers := [1] }
  else if set = 0 then { readers := use }
  else
    let w := cfg.alteq.getD (set - 1) 0
    { ofs := sgn 4 (w / 16 % 16), asy := sgn 4 (w % 16), emph := sgn 6 (w / 256 % 64), adapt := w.testBit 14, readers := use }

/-- One sample after the digital offset and asymmetry correction (R290): the form of the correction is a free value. -/
def Setting.trim (q : Setting) (x : Int) : Int := if q.asy = 0 then x + q.ofs else Config.openInt 75 [q.asy, x + q.ofs]

/-- The taps a detection starts from (R265, R290): what an emphasis step adds to each is a free value. -/
def Setting.taps (q : Setting) (taps : List Int) : List Int :=
  if q.emph = 0 then taps else taps.zipIdx.map (fun p => p.1 + Config.openInt 76 [(p.2 : Int), p.1, q.emph])

/-- The FIR equaliser (R265): 16 taps, adapted by least mean squares over the data; the step of the adaptation is a free value. `win` holds the
newest samples first. -/
def fir (taps : List Int) : List Int → List Int → List Int × List Int
  | _, [] => ([], taps)
  | win, x :: l =>
    let w := (x :: win).take 16
    let y := (taps.zipWith (· * ·) w).foldl (· + ·) 0
    let r := fir (taps.zipWith (fun t v => t + Config.openInt 77 [y, v]) w) w l
    (y :: r.1, r.2)
  termination_by structural _ l => l

/-- One reader's equalised samples (R265, R290): with ADAPT, two passes adapt the taps first. -/
def equalise (q : Setting) (taps : List Int) (r : ReaderCap) : List Int :=
  let x := r.samples.map q.trim
  let t := q.taps taps
  let t := if q.adapt then (fir (fir t [] x).2 [] x).2 else t
  (fir t [] x).1

/-- Reader `k` carries the thermal asperity flag on bit `n`, counted with its delay (R266, R268). -/
def VEntry.flagged (e : VEntry) (z : Zone) (k n : Nat) : Bool :=
  let i : Int := n - z.delayOf k
  e.flags.any (fun f => decide (f.1 = k ∧ (f.2.1 : Int) ≤ i ∧ i < f.2.2))

/-- The weight of a reader on a bit (R268, R269): zero where that reader alone carries the flag. -/
def VEntry.weight (e : VEntry) (z : Zone) (use : List Nat) (k n : Nat) : Int :=
  if e.flagged z k n && ! (use.erase k).any (fun j => e.flagged z j n) then 0 else z.combOf e.mode k

/-- A bit is an erasure: every reader in use has it flagged (R266, R269). -/
def VEntry.erased (e : VEntry) (z : Zone) (use : List Nat) (n : Nat) : Bool := use.all (fun k => e.flagged z k n)

/-- The detector's input, bit by bit (R268): B alone, or the weighted sum of the readers, A and C delayed by DELAYA and DELAYC. -/
def VEntry.combined (e : VEntry) (z : Zone) (q : Setting) : List Int :=
  let rows := (e.cap.readers.filter (fun r => q.readers.contains r.reader)).map (fun r => (r.reader, equalise q (z.tapsOf r.reader) r))
  let n := (rows.map (fun p => p.2.length)).foldl max 0
  if q.readers = [1] then (rows.map Prod.snd).headD []
  else (List.range n).map (fun (i : Nat) => (rows.map (fun p =>
    let j : Int := (i : Int) - z.delayOf p.1
    if j < 0 then 0 else e.weight z q.readers p.1 i * p.2.getD j.toNat 0)).foldl (· + ·) 0)

/-! ## The detector (R268) -/

/-- The signal of the zone's target for a bit and the four before it (R263): 1 + g1 D + g2 D^2 + g3 D^3 + g4 D^4 over levels of +1 and -1, with the
unit of the leading 1 a free value. `b` holds the newest bit in bit 0. -/
def targetLevel (target : List Int) (b : Nat) : Int :=
  let v (i : Nat) : Int := if b.testBit i then 1 else -1
  Config.openInt 78 [] * v 0 + (target.zipIdx.map (fun p => p.1 * v (p.2 + 1))).foldl (· + ·) 0

/-- The metric of the branch that takes bit `b` from state `st` (the last four bits): how far the signal is from the target, with the noise
predicted in one of eight contexts, the last three bits. The metric is a free value of what it rests on. -/
def branchMetric (target : List Int) (win : List Int) (st b : Nat) : Int :=
  let w := 2 * st + b
  Config.openInt 79 ((w % 8 : Nat) :: win.map (· - targetLevel target w))

/-- The 32 branch metrics of each bit, with the decoder's extrinsic value of the bit as prior information (R268). -/
def branchTable (target : List Int) : List Int → List (Int × Int) → List (List Int)
  | _, [] => []
  | win, (y, prior) :: l =>
    let w := (y :: win).take 4
    (List.range 32).map (fun k => branchMetric target w (k / 2) (k % 2) - (if k % 2 = 1 then prior else 0)) :: branchTable target w l

/-- The least of a list. -/
def least (l : List Int) : Int := (l.tail).foldl min (l.headD 0)

/-- Forward metrics of the 16 states before each bit. -/
def forward : List Int → List (List Int) → List (List Int)
  | _, [] => []
  | a, t :: l =>
    a :: forward ((List.range 16).map (fun s => least ([s / 2, s / 2 + 8].map (fun p => a.getD p 0 + t.getD (2 * p + s % 2) 0)))) l

/-- Backward metrics of the 16 states after each bit. -/
def backward : List (List Int) → List (List Int)
  | [] => []
  | [_] => [List.replicate 16 0]
  | _ :: t :: l =>
    let r := backward (t :: l)
    let b := r.headD []
    (List.range 16).map (fun s => least ([0, 1].map (fun k => t.getD (2 * s + k) 0 + b.getD ((2 * s + k) % 16) 0))) :: r

/-- A soft value as 6 bits: its scale is a free value. -/
def quantise (d : Int) : Int := max (-32) (min 31 (Config.openInt 80 [d]))

/-- The detector (R268): a 16-state soft-output trellis; one 6-bit log-likelihood ratio a bit, positive for a 1. -/
def detect (target : List Int) (y prior : List Int) : List Int :=
  let t := branchTable target [] (y.zip (prior ++ List.replicate (y.length - prior.length) 0))
  ((forward (List.replicate 16 0) t).zip (t.zip (backward t))).map (fun p =>
    let m (b : Nat) : Int := least ((List.range 16).map (fun s => p.1.getD s 0 + p.2.1.getD (2 * s + b) 0 + p.2.2.getD ((2 * s + b) % 16) 0))
    quantise (m 0 - m 1))

/-- The soft decisions of a detection pass over an entry (R266, R268, R269, R282): an erasure is 0. -/
def VEntry.soft (e : VEntry) (z : Zone) (cfg : ChanCfg) (set : Nat) (prior : List Int) : List Int :=
  let q := settingOf cfg e.mode z.pair set
  ((detect z.target (e.combined z q) prior).zipIdx).map (fun p => if e.erased z q.readers p.2 then 0 else p.1)

/-! ## Marks (R274, R275) -/

/-- Bits that differ from a mark at each offset within ±`w` of a place in the hard decisions. -/
def markCounts (soft : List Int) (mark : List Bool) (at_ w : Nat) : List (Int × Nat) :=
  (List.range (2 * w + 1)).map (fun i =>
    let o : Int := i - w
    (o, ((soft.drop ((at_ : Int) + o).toNat).zip mark).countP (fun p => decide (decide (0 < p.1) ≠ p.2))))

/-- The primary mark's counts: it is predicted at sample 192 (R280). -/
def primaryCounts (soft : List Int) (w : Nat) : List (Int × Nat) := markCounts soft primaryMark 192 w

/-- The secondary mark's counts, around the predicted primary position plus 160 (R275). -/
def secondaryCounts (soft : List Int) (w : Nat) : List (Int × Nat) := markCounts soft secondaryMark 352 w

/-- The soft decisions of the codeword framed at an offset (R274, R275): in dual-mark format the secondary mark is left out. -/
def framed (dual : Bool) (soft : List Int) (off : Int) : List Int :=
  let l := soft.drop ((224 : Int) + off).toNat
  if dual then l.take 128 ++ (l.drop 160).take 36736 else l.take 36864

/-- Where the values of a codeword lie in the capture: the inverse of the framing, for the detector's prior information. -/
def unframed (dual : Bool) (code : List Int) (off : Int) : List Int :=
  List.replicate ((224 : Int) + off).toNat 0 ++ (if dual then code.take 128 ++ List.replicate 32 0 ++ code.drop 128 else code)

/-! ## The decoder (R273, R277, R278) -/

/-- The decoder's values: one a bit, and the messages of each check. -/
structure Soft where
  post : List Int
  msgs : List (List Int)
  deriving DecidableEq, Repr

/-- Hard decisions. -/
def hardOf (l : List Int) : List Bool := l.map (fun v => decide (0 < v))

/-- The message of a check to one of its bits: the signs of the others and the least of their magnitudes, normalised by a free value. -/
def checkMsg (others : List Int) : Int :=
  let mag := (others.map (fun q => (q.natAbs : Int))).foldl min ((others.headD 0).natAbs : Int)
  let ones := others.countP (fun q => decide (0 < q))
  (if ones % 2 = 1 then 1 else -1) * (Config.openNat 81 [mag.toNat] : Int)

/-- One check of a layer updates its bits (R273): min-sum. -/
def checkStep (bits : List Nat) (old : List Int) (post : List Int) : List Int × List Int :=
  let q := bits.zipIdx.map (fun p => post.getD p.1 0 - old.getD p.2 0)
  let new := q.zipIdx.map (fun p => checkMsg (q.eraseIdx p.2))
  (new, (bits.zip (q.zipWith (· + ·) new)).foldl (fun l p => l.set p.1 p.2) post)

/-- One iteration: every check in layer order, each on the values the ones before it left (R273). -/
def iteration (x : Soft) : Soft :=
  (codeChecks.zipIdx).foldl (fun y p =>
    let r := checkStep p.1 (x.msgs.getD p.2 []) y.post
    { post := r.2, msgs := y.msgs ++ [r.1] }) { post := x.post, msgs := [] }

/-- Iterate until every check is satisfied, at most `n` times: the iterations made, and whether it converged. -/
def iterations : Nat → Soft → Nat × Bool × Soft
  | 0, x => (0, false, x)
  | n + 1, x =>
    let y := iteration x
    if unsatisfied (hardOf y.post) = 0 then (1, true, y)
    else let r := iterations n y; (r.1 + 1, r.2)

/-- A decode of one framing, with up to `passes` detector passes and `iters` iterations in all (R277, R284): the payload where every check is
satisfied. How the iterations share out over the passes is a free value. -/
def decodePasses (e : VEntry) (z : Zone) (cfg : ChanCfg) (off : Int) (set : Nat) : Nat → Nat → List Int → Option (List Byte)
  | 0, _, _ => none
  | p + 1, iters, prior =>
    let llr := framed z.dual (e.soft z cfg set prior) off
    let n := if p = 0 then iters else min iters (Config.openNat 82 [p, iters])
    let r := iterations n { post := llr, msgs := [] }
    if r.2.1 then some (bitsBytes 4116 (hardOf r.2.2.post))
    else decodePasses e z cfg off set p (iters - r.1) (unframed z.dual (r.2.2.post.zipWith (· - ·) llr) off)

/-- Unsatisfied checks after the first iteration of a decode (R278). -/
def firstCount (e : VEntry) (z : Zone) (cfg : ChanCfg) (off : Int) (set : Nat) : Nat :=
  unsatisfied (hardOf (iteration { post := framed z.dual (e.soft z cfg set []) off, msgs := [] }).post)

/-! ## The averaged reread (R291) -/

/-- A capture's samples from where its codeword is placed, so that captures lie one upon another. -/
def VEntry.aligned (e : VEntry) (k : Nat) : List Int :=
  let off := (e.place.map Prod.fst).getD 0
  match e.cap.readers.find? (fun r => r.reader = k) with
  | some r => if off < 0 then List.replicate off.natAbs 0 ++ r.samples else r.samples.drop off.toNat
  | none => []

/-- The average of samples: which way it is rounded is a free value. -/
def average (l : List Int) : Int :=
  let sum := l.foldl (· + ·) 0
  sum / l.length + (if sum % (l.length : Int) = 0 then 0 else Config.openInt 83 [sum, (l.length : Int)] % 2)

/-- The average of captures (R291): the newest with those made at its spindle speed, or the two new ones alone where the speed has changed;
aligned by their placements, for each reader present in all. A bit flagged in one of them is flagged. -/
def averaged (new : VEntry) (more : List VEntry) : VEntry :=
  let l := new :: (if more.all (fun e => decide (e.rpm = new.rpm)) then more else more.take 1)
  let rs := new.cap.readers.filter (fun r => l.all (fun e => e.cap.readers.any (fun q => q.reader = r.reader)))
  { new with
    place := none
    flags := l.flatMap (fun e => let off := (e.place.map Prod.fst).getD 0
      e.flags.map (fun f => (f.1, ((f.2.1 : Int) - off).toNat, ((f.2.2 : Int) - off).toNat)))
    cap := { readers := rs.map (fun r =>
      let rows := l.map (fun e => e.aligned r.reader)
      { r with samples := (List.range ((rows.map List.length).foldl min r.samples.length)).map (fun i => average (rows.map (fun x => x.getD i 0))) }) } }

end Sys2Proof.Machine
end

