-- ==== Sys2Proof/Machine/SectorOps.lean ====
section
/-! DEFINITION. The formatter and the read channel of a Curd die: duplicate copies, runs, the preamplifier, the sample vault, the retry
ladder and the rebuild (R261 to R326, R504, R505). -/

namespace Sys2Proof.Machine

/-- The formatter of C`g`. -/
def State.fmt (s : State) (g : Nat) : Fmt := (s.curd g).fmt

/-- Change the formatter of C`g`. -/
def modFmt (g : Nat) (f : Fmt → Fmt) (s : State) : State := s.modCurd g (fun c => { c with fmt := f c.fmt })

/-! ## Copies of messages (R504 to R507) -/

/-- A message from a Rind die has arrived: its link is not silent (R507). -/
def markLive (g : Nat) (d : RSlot) (s : State) : State :=
  (s.modEnd (.curd g d) (fun e => { e with silent := false })).wrC g (if d = .f0 then R.CDIE_LEASE_F0LIVE else R.CDIE_LEASE_F1LIVE) 1

/-- The holder a Curd die honours (R506). -/
def State.holder (s : State) (g : Nat) : RSlot := if s.rdC g R.CDIE_LEASE_HOLDER = 1 then .f1 else .f0

/-- The lease record shows a die that serves alone (R506). -/
def State.single (s : State) (g : Nat) : Bool := s.bitC g R.CDIE_LEASE_SINGLE

/-- Report a mismatch of copies to both Rind dies (R505). -/
def reportMismatch (g cls : Nat) (slot : RSlot) (eseq : Nat) (s : State) : State :=
  fromCurd g 2 0 [BitVec.ofNat 32 (5 * 2 ^ 28 + cls * 2 ^ 24 + slot.code * 2 ^ 23), BitVec.ofNat 32 eseq] (s.incC g R.CDIE_STEPCNT_MISMATCH)

/-- A second copy is discarded as whey (R504). -/
def discardCopy (g : Nat) (src : RSlot) (m : Msg) (s : State) : State :=
  takeMsg (.curd g src) m (s.incC g R.CDIE_WHEY_COUNT)

/-- A CMD or CTRL message at a Curd die (R504, R506): true where it is the first copy and is to be applied. The records of the last 256
ESEQs of a class are kept; a copy behind them is unpaired. A CMD message of a die that is not the holder is not executed while SINGLE is
set. -/
def firstCopy (g : Nat) (src : RSlot) (m : Msg) (s : State) : Bool × State :=
  let s := markLive g src s
  let mine := (s.fmt g).seen.filter (fun r => r.1 = m.cls)
  match mine.find? (fun r => r.2.1 = m.eseq) with
  | some r =>
    let s := discardCopy g src m s
    let s := modFmt g (fun f => { f with seen := f.seen.map (fun x => if x = r then (r.1, r.2.1, r.2.2.1, r.2.2.2.1, true) else x) }) s
    (false, if r.2.2.1 = msgDigest m then s else reportMismatch g m.cls r.2.2.2.1 m.eseq s)
  | none =>
    match (if mine.length < 256 then none else mine.getLast?) with
    | some r =>
      if aheadMod (2 ^ 32) m.eseq r.2.1 then
        (true, modFmt g (fun f => { f with seen := (m.cls, m.eseq, msgDigest m, src, false) :: f.seen.erase r }) s)
      else (false, discardCopy g src m (s.incC g R.CDIE_STEPCNT_UNPAIRED))
    | none =>
      if m.cls = 0 ∧ s.single g ∧ s.holder g ≠ src then (false, takeMsg (.curd g src) m s)
      else (true, modFmt g (fun f => { f with seen := (m.cls, m.eseq, msgDigest m, src, false) :: f.seen }) s)

/-! ## Runs and sectors (R301 to R304) -/

/-- The zone of a surface of a group. -/
def State.groupZone (s : State) (g surf zone : Nat) : Option Zone := s.zoneOf (4 * g + surf) zone

/-- Positions of a group of a track (R229): 64, or what the track has left. -/
def Zone.groupSize (z : Zone) (i : Nat) : Nat := min 64 (z.spt - 64 * i)

/-- The run covers whole groups of positions only (R302, R316). -/
def Zone.wholeGroups (z : Zone) (first count : Nat) : Bool :=
  decide (first % 64 = 0 ∧ ((first + count) % 64 = 0 ∨ first + count = z.spt))

/-- The formatter executes the command (R302). -/
def State.runOk (s : State) (g op surf zone track first count : Nat) (incl : Bool) : Bool :=
  match s.groupZone g surf zone with
  | none => false
  | some z =>
    s.surfaceUsed (4 * g + surf) && decide (z.first ≤ track ∧ track < z.first + z.tracks) &&
    decide (0 < count ∧ first + count ≤ z.spt) && decide (1 ≤ op ∧ op ≤ 5) &&
    (decide (op ≠ 5) || (incl && decide (first % 64 = 0 ∧ count = z.groupSize (first / 64)))) &&
    (decide (op ≠ 2) || ! incl || z.wholeGroups first count)

/-- The sectors a run reads or writes (R301): parity positions with INCLPAR alone, and of a PARITY command the parity positions alone. -/
def runSecs (z : Zone) (op surf zone track first count rlim : Nat) (incl rebuild : Bool) : List Sec :=
  (List.range count).filterMap (fun i =>
    let p := first + i
    let par := z.isParity p
    if (if op = 5 then par else incl || ! par) then
      some { write := decide (op = 2 ∨ op = 5), surf := surf, zone := zone, track := track, pos := p, index := i, limit := max 1 (min 8 rlim), rebuild := rebuild }
    else none)

/-- The run a sector command names (R301). -/
def State.runOf (s : State) (g : Nat) (src : RSlot) (m : Msg) : CRun :=
  let w0 := m.w 0
  let op := w0 / 2 ^ 28
  let surf := w0 / 2 ^ 26 % 4
  let zone := w0 / 2 ^ 21 % 32
  let incl := (w0 / 2 ^ 20) % 2 = 1
  let rebuild := (w0 / 2 ^ 19) % 2 = 1
  let rlim := w0 / 2 ^ 15 % 16
  let first := w0 % 1024
  let count := m.w 2 / 2 ^ 21
  { eseq := m.eseq, op := op, surf := surf, zone := zone, incl := incl, rebuild := rebuild, rlim := rlim, track := m.w 1, first := first
    count := count, bandFirst := decide (2 ^ 31 ≤ m.w 3), msgs := [(src, m)]
    secs := match s.groupZone g surf zone with
      | some z => runSecs z op surf zone (m.w 1) first count rlim incl rebuild
      | none => [] }

/-- A sector report (R303). -/
def report (g eseq outcome rung revs pos track : Nat) (nbr : Bool) (s : State) : State :=
  fromCurd g 2 eseq [BitVec.ofNat 32 (2 ^ 28 + outcome * 2 ^ 24 + rung * 2 ^ 20 + min 15 revs * 2 ^ 16 + bit nbr * 2 ^ 15 + pos), BitVec.ofNat 32 track] s

/-- Every sector in a started run, with its run's ESEQ and its place in the run. -/
def Fmt.secs (f : Fmt) : List (Nat × Nat × Sec) := f.runs.flatMap (fun r => r.secs.zipIdx.map (fun q => (r.eseq, q.2, q.1)))

/-- Change sector `i` of a started run. -/
def modSec (g eseq i : Nat) (h : Sec → Sec) (s : State) : State :=
  modFmt g (fun f => { f with runs := f.runs.map (fun r => if r.eseq = eseq then { r with secs := modAt i h r.secs } else r) }) s

/-- Sector `i` of a started run. -/
def State.sec (s : State) (g eseq i : Nat) : Option Sec := ((s.fmt g).runs.find? (fun r => r.eseq = eseq)).bind (fun r => r.secs[i]?)

/-- The first sector of the started runs that meets a condition. -/
def State.findSec (s : State) (g : Nat) (p : Sec → Bool) : Option (Nat × Nat × Sec) := (s.fmt g).secs.find? (fun q => p q.2.2)

/-- The run in progress: the one started last. -/
def Fmt.current (f : Fmt) : Option CRun := f.runs.getLast?

/-- The run in progress writes. -/
def State.writing (s : State) (g : Nat) : Bool := ((s.fmt g).current.map (fun r => decide (r.op = 2 ∨ r.op = 5))).getD false

/-- Writes are permitted (R319 to R323): no inhibit of SHOCK, of a preamplifier fault, of the servo or of the synthesiser, PA_FLT_N and RET_N
high. -/
def State.mayWriteMedia (s : State) (g : Nat) : Bool :=
  ! s.bitC g R.FMT_STAT_WINHSHK && ! s.bitC g R.FMT_STAT_WINHPA && ! (s.fmt g).paLow && (s.fmt g).lock && s.bitC g R.SERVO_STAT_WROK && (s.curd g).retN

/-- FMT_STAT follows the formatter (R326). -/
def showFmt (g : Nat) (s : State) : State :=
  let f := s.fmt g
  let s := s.wrC g R.FMT_STAT_QUEUED (f.queue.length + f.runs.length)
  let s := match f.current with
    | some r => (s.wrC g R.FMT_STAT_ZONE r.zone).wrC g R.FMT_STAT_SURF r.surf
    | none => s
  let s := s.wrC g R.FMT_STAT_WINHSRV (bit (s.writing g && ! s.bitC g R.SERVO_STAT_WROK))
  let s := (s.wrC g R.FMT_STAT_WINHLCK (bit (decide (f.rate ≠ 0) && ! f.lock))).wrC g R.FMT_STAT_RETRACT (bit (! (s.curd g).retN))
  s.wrC g R.FMT_STAT_STATE (match f.current with
    | none => 0
    | some r =>
      match f.gate with
      | some e => if e.write then 3 else 2
      | none =>
        if r.secs.any (fun x => decide (x.kind = .neighbour ∧ x.stage ≠ .done)) then 5
        else if s.rdC g R.SERVO_STAT_STATE ≠ 4 then 1
        else if r.op = 2 ∨ r.op = 5 then (if s.mayWriteMedia g then 3 else 4)
        else 2)

/-! ## The preamplifier and zones (R308, R311, R312, R314, R321) -/

/-- The preamplifier part of the group's zone blocks: that of its lowest-numbered surface in use (R308). -/
def State.paMap (s : State) (g : Nat) : PaMap :=
  match (List.range 4).find? (fun i => s.surfaceThere (4 * g + i)) with
  | some i => ((s.zoneBlock (4 * g + i)).map ZoneBlock.pa).getD {}
  | none => {}

/-- Register `k` of the preamplifier: 0 head select, 1 to 7 the zone values of R311, 8 fault status, 9 reader enable. -/
def PaMap.addr (p : PaMap) (k : Nat) : Nat := p.addrs.getD k 0

/-- A preamplifier write frame (R312). A write of the heater is noted with its time. -/
def paWrite (g addr val : Nat) (s : State) : State :=
  let s := s.emit (.preamp g true addr val)
  modFmt g (fun f => { f with pa := assocPut addr val f.pa, heatAt := if addr = (s.paMap g).addr 7 then some (s.now + s.rdC g R.FMT_WRCFG_HTRLEAD) else f.heatAt }) s

/-- A frame that is sent only where the value differs from the one last written (R311). -/
def paSet (g addr val : Nat) (s : State) : State :=
  if (s.fmt g).pa.any (fun p => decide (p.1 = addr ∧ p.2 = val)) then s else paWrite g addr val s

/-- The INIT sequence (R321): its pairs in order; after it no value counts as written. -/
def paInit (g : Nat) (s : State) : State :=
  let s := (s.paMap g).init.foldl (fun t p => t.emit (.preamp g true p.1 p.2)) s
  let s := s.emit (.preamp g false ((s.paMap g).addr 8) 0)
  modFmt g (fun f => { f with pa := [], paReady := true }) s

/-- The readers of a mode (R261), as PARDEN bits: A 1, B 2, C 4. -/
def modeReaders (mode pair : Nat) : Nat :=
  if mode = 0 then 0 else if mode = 1 then 2 else if mode = 2 then (if pair = 0 then 3 else 6) else 7

/-- PAIR of the zone loaded. -/
def State.pairOf (s : State) (g : Nat) : Nat :=
  match (s.fmt g).loaded with
  | some (surf, zone) => ((s.groupZone g surf zone).map Zone.pair).getD 0
  | none => 0

/-- The greatest mode that needs its readers powered (R314): of the count in force or settling, of a posted read gate, and of the one open. -/
def Fmt.powered (f : Fmt) : Nat :=
  ((f.posted.filter (fun e => e.opens && ! e.write)).map Posted.mode).foldl max
    (max (max f.readers (f.settling.getD 0)) (if f.gate.any (fun e => ! e.write) then f.gateMode else 0))

/-- Power the readers of a count: PARDEN is written, CHAN_STAT shows what has settled (R262, R314). -/
def powerReaders (g : Nat) (s : State) : State :=
  let f := s.fmt g
  let need := modeReaders f.powered (s.pairOf g)
  let s := if f.paReady then paSet g ((s.paMap g).addr 9) need s else s
  (s.wrC g R.CHAN_STAT_RDON (modeReaders f.readers (s.pairOf g))).wrC g R.CHAN_STAT_MODE f.readers

/-- Load a zone (R311): head select on a change of surface, the values that differ on a change of surface or zone, and a retune on a change
of rate. -/
def loadZone (g surf zone : Nat) (s : State) : State :=
  match s.groupZone g surf zone with
  | none => s
  | some z =>
    let f := s.fmt g
    let pm := s.paMap g
    let s := if (f.loaded.map Prod.fst) = some surf then s else paWrite g (pm.addr 0) (pm.hselBase + surf) s
    let s := if f.loaded = some (surf, zone) then s
      else (z.pa.zipIdx.take 7).foldl (fun t p => paSet g (pm.addr (p.2 + 1)) p.1 t) s
    let s := if z.rate = f.rate then s
      else (modFmt g (fun f => { f with lock := false, rate := z.rate }) s).emit (.retune g z.rate)
    powerReaders g (modFmt g (fun f => { f with loaded := some (surf, zone) }) s)

/-- The heater for reading or for writing of the zone loaded (R318). -/
def heater (g : Nat) (write : Bool) (s : State) : State :=
  match (s.fmt g).loaded.bind (fun p => s.groupZone g p.1 p.2) with
  | none => s
  | some z => paSet g ((s.paMap g).addr 7) (if write then z.htrwr else z.pa.getD 6 0) s

/-- Reader biases of the zone, moved by a number of steps (R284, rung 7). -/
def setBias (g : Nat) (step : Int) (s : State) : State :=
  match (s.fmt g).loaded.bind (fun p => s.groupZone g p.1 p.2) with
  | none => s
  | some z => [4, 5, 6].foldl (fun t k => paSet g ((t.paMap g).addr k) (((z.pa.getD (k - 1) 0 : Nat) : Int) + step).toNat t) s

/-! ## The vault (R280 to R283) -/

/-- CHAN_VSTAT follows the vault. -/
def showVault (g : Nat) (s : State) : State :=
  (s.wrC g R.CHAN_VSTAT_VALID (s.fmt g).vault.length).wrC g R.CHAN_VSTAT_PINNED ((s.fmt g).vault.countP VEntry.pinned)

/-- Pinned entries. -/
def Fmt.pins (f : Fmt) : Nat := f.vault.countP VEntry.pinned

/-- An entry of the vault. -/
def Fmt.entry (f : Fmt) (id : Nat) : Option VEntry := f.vault.find? (fun e => e.id = id)

/-- Change an entry. -/
def modEntry (g id : Nat) (h : VEntry → VEntry) (s : State) : State :=
  showVault g (modFmt g (fun f => { f with vault := f.vault.map (fun e => if e.id = id then h e else e) }) s)

/-- Unpin the entries of a sector whose ladder ends (R281). -/
def unpin (g : Nat) (ids : List Nat) (s : State) : State := ids.foldl (fun t i => modEntry g i (fun e => { e with pinned := false }) t) s

/-- Drop the entries of a position that is written (R283). -/
def invalidate (g surf track pos : Nat) (s : State) : State :=
  showVault g (modFmt g (fun f => { f with vault := f.vault.filter (fun e => ! decide (e.surf = surf ∧ e.track = track ∧ e.pos = pos)) }) s)

/-- Bits flagged as a thermal asperity from a reader's baseline (R266): from the first bit beyond TATHR until the baseline has been within it
for TAEXT bits. `on` is where the flag now set began, `back` where the baseline returned. -/
def flagRuns (thr ext last : Nat) : List (Nat × Int) → Option Nat → Option Nat → List (Nat × Nat)
  | [], none, _ => []
  | [], some a, none => [(a, last)]
  | [], some a, some b => [(a, min last (b + ext))]
  | (x, v) :: l, on, back =>
    let out := decide (thr < v.natAbs)
    match on, back with
    | none, _ => if out then flagRuns thr ext last l (some x) none else flagRuns thr ext last l none none
    | some a, none => if out then flagRuns thr ext last l (some a) none else flagRuns thr ext last l (some a) (some x)
    | some a, some b =>
      if b + ext ≤ x then (a, b + ext) :: (if out then flagRuns thr ext last l (some x) none else flagRuns thr ext last l none none)
      else if out then flagRuns thr ext last l (some a) none
      else flagRuns thr ext last l (some a) (some b)

/-- The CHAN fields that a read gate takes (R300). -/
def State.chanCfg (s : State) (g : Nat) : ChanCfg :=
  { synctol := s.rdC g R.CHAN_SYNC_SYNCTOL, synctolw := s.rdC g R.CHAN_SYNC_SYNCTOLW, slipmax := s.rdC g R.CHAN_SLIP_SLIPMAX
    iterotf := s.rdC g R.CHAN_LDPC_ITEROTF, itermax := s.rdC g R.CHAN_LDPC_ITERMAX, global := s.rdC g R.CHAN_LDPC_GLOBAL
    tathr := s.rdC g R.CHAN_TA_TATHR, taext := s.rdC g R.CHAN_TA_TAEXT
    acqbw := s.rdC g R.CHAN_TRCFG_ACQBW, trkbw := s.rdC g R.CHAN_TRCFG_TRKBW, acqbits := s.rdC g R.CHAN_TRCFG_ACQBITS
    maxrev := s.rdC g R.CHAN_LADDER_MAXREV
    alteq := (List.range 4).map (fun k => bit (s.bitC g (R.CHAN_ALTEQ_EN k)) * 2 ^ 15 + s.rdC g (R.CHAN_ALTEQ_ADAPT k) * 2 ^ 14 +
      s.rdC g (R.CHAN_ALTEQ_EMPH k) * 2 ^ 8 + s.rdC g (R.CHAN_ALTEQ_OFS k) * 2 ^ 4 + s.rdC g (R.CHAN_ALTEQ_ASY k)) }

/-- Make a vault entry (R280, R281): it replaces the oldest entry that is not pinned. Answers its number. The timing loops of the readers have run
over the capture (R267). -/
def makeEntry (g : Nat) (x : Sec) (cap : Capture) (s : State) : Nat × State :=
  let f := s.fmt g
  let thr := f.chan.tathr
  let ext := f.chan.taext
  let fl := cap.readers.flatMap (fun r => (flagRuns thr ext r.samples.length r.base none none).map (fun p => (r.reader, p.1, p.2)))
  let e : VEntry := { id := f.nextEntry, surf := x.surf, track := x.track, pos := x.pos, zone := x.zone, mode := f.gateMode
                      rpm := s.rdC 0 R.SPIN_STAT_RPM, cap := cap, flags := fl }
  let kept := if f.vault.length < 32 then f.vault
    else match f.vault.find? (fun v => ! v.pinned) with
      | some v => f.vault.erase v
      | none => f.vault
  (e.id, showVault g (modFmt g (fun f => { f with vault := kept ++ [e], nextEntry := f.nextEntry + 1, loops := cap.readers.map (timingOf f.chan) }) s))

/-! ## The sector check and delivery (R25, R271, R272, R303) -/

/-- One byte into a CRC-32C register, least significant bit first. -/
def crc32cByte (c : BitVec 32) (b : Byte) : BitVec 32 := (List.range 8).foldl (fun c i => crc32cBit c (b.getLsbD i)) c

/-- The sector check (R272): the address, then 4,112 bytes of user data and metadata. -/
def sectorCheck (head track pos : Nat) (bytes : List Byte) : BitVec 32 :=
  ~~~ ((natLe 4 track ++ natLe 2 pos ++ natLe 1 head ++ natLe 1 0 ++ bytes).foldl crc32cByte (BitVec.allOnes 32))

/-- A payload passes its check at an address (R271, R272). -/
def checkOk (head track pos : Nat) (payload : List Byte) : Bool :=
  decide (payload.length = 4116 ∧ leNat (payload.drop 4112) = (sectorCheck head track pos (payload.take 4112)).toNat)

/-- Bytes as words, least significant byte first, `n` words. -/
def bytesWords : Nat → List Byte → List Word
  | 0, _ => []
  | n + 1, bs => BitVec.ofNat 32 (leNat (bs.take 4)) :: bytesWords n (bs.drop 4)

/-- ESEQ of the DATA messages of a sector (R301). -/
def dataEseq (eseq index : Nat) : Nat := eseq % 2 ^ 21 * 2 ^ 11 + index % 2 ^ 11

/-- Deliver a sector as nine DATA messages (R25). -/
def deliverSector (g eseq index : Nat) (payload : List Byte) (s : State) : State :=
  let e := dataEseq eseq index
  let s := (List.range 8).foldl (fun t k => fromCurd g 1 e (bytesWords 128 (payload.drop (512 * k))) t) s
  fromCurd g 1 e (bytesWords 4 (payload.drop 4096)) s

/-! ## Ends of sectors and runs (R286, R303, R304) -/

/-- A run whose sectors all have their outcomes ends: its report goes out, its buffers are freed and its data dropped; after a write run the
heater goes back to its reading value (R318). -/
def endIfDone (g eseq : Nat) (s : State) : State :=
  match (s.fmt g).runs.find? (fun r => r.eseq = eseq) with
  | none => s
  | some r =>
    if r.secs.all (fun x => decide (x.stage = .done)) then
      let s := fromCurd g 2 eseq [BitVec.ofNat 32 (2 * 2 ^ 28), BitVec.ofNat 32 r.track] s
      let s := r.msgs.foldl (fun t p => takeMsg (.curd g p.1) p.2 t) s
      let s := modFmt g (fun f => { f with
        runs := f.runs.filter (fun x => x.eseq ≠ eseq)
        data := f.data.filter (fun x => x.2.1 / 2 ^ 11 ≠ eseq % 2 ^ 21) }) s
      let s := if r.op = 2 ∨ r.op = 5 then modFmt g (fun f => { f with heatAt := none }) (heater g false s) else s
      showFmt g s
    else s

/-- A sector has its outcome (R286, R303): 0 good, 1 rebuilt, 2 unreadable, 3 written, 4 write failed, 5 refused. It is counted, delivered where
the command asks for data, reported, and its vault entries are unpinned. Helpers of a rebuild report nothing. -/
def settleSec (g eseq i outcome rung : Nat) (payload : Option (List Byte)) (s : State) : State :=
  match s.sec g eseq i with
  | none => s
  | some x =>
    if x.stage = .done then s
    else
      let op := (((s.fmt g).runs.find? (fun r => r.eseq = eseq)).map CRun.op).getD 0
      let s := unpin g x.entries s
      let s := modSec g eseq i (fun x => { x with stage := .done, outcome := some outcome, good := payload }) s
      let s := match outcome with
        | 0 => s.incC g (R.CHAN_RUNGCNT_COUNT (rung - 1))
        | 1 => s.incC g R.CHAN_REBUILD_OK
        | 2 => if x.kind = .helper then s else
            (((s.incC g R.CHAN_FAILCNT_UNREAD).wrC g R.CHAN_LASTFAIL_LO_TRACK x.track).wrC g R.CHAN_LASTFAIL_HI_SURF x.surf).wrC g R.CHAN_LASTFAIL_HI_POS x.pos
        | 4 => s.incC g R.FMT_WRCNT_FAIL
        | _ => s
      let s := match payload with
        | some p => if x.kind = .own ∧ (op = 1 ∨ op = 4) then deliverSector g eseq x.index p s else s
        | none => s
      match x.kind with
      | .own => endIfDone g eseq (report g eseq outcome (if outcome = 0 then rung else 0) x.revs x.pos x.track false s)
      | .neighbour =>
        if outcome = 0 then endIfDone g eseq s
        else endIfDone g eseq (report g eseq 2 0 x.revs x.pos x.track true (s.incC g R.FMT_SHOCKCNT_VFAIL))
      | .helper => endIfDone g eseq s

/-- End every sector of a run that has no outcome as refused, its ladder and its rebuild with it (R353, R551). -/
def refuseRun (g eseq : Nat) (p : Sec → Bool) (s : State) : State :=
  match (s.fmt g).runs.find? (fun r => r.eseq = eseq) with
  | none => s
  | some r =>
    let s := if r.secs.any p then modFmt g (fun f => { f with
      posted := f.posted.filter (fun e => ! r.secs.any (fun x => p x && decide (x.surf = e.surf ∧ x.track = e.track ∧ x.pos = e.pos)))
      runs := f.runs.map (fun q => if q.eseq = eseq then { q with secs := q.secs.filter (fun x => decide (x.kind = .own) || decide (x.stage = .done)) } else q) }) s
      else s
    let n := (((s.fmt g).runs.find? (fun r => r.eseq = eseq)).map (fun r => r.secs.length)).getD 0
    (List.range n).foldl (fun t i =>
      match t.sec g eseq i with
      | some x => if x.stage ≠ .done ∧ p x then settleSec g eseq i 5 0 none t else t
      | none => t) s

/-- Every run in progress or queued is refused (R353): no gate stays open. -/
def refuseAll (g : Nat) (s : State) : State :=
  let s := modFmt g (fun f => { f with runs := f.runs ++ f.queue, queue := [], posted := [], gate := none }) s
  showFmt g ((s.fmt g).runs.foldl (fun t r => refuseRun g r.eseq (fun _ => true) t) s)

/-- End the runs that wait on a pair of DATA copies (R505): each sector not yet written is refused. -/
def endPairWaits (g : Nat) (s : State) : State :=
  let waits := ((s.fmt g).runs ++ (s.fmt g).queue).filter (fun r => decide (r.op = 2 ∨ r.op = 5))
  let s := modFmt g (fun f => { f with
    runs := f.runs ++ f.queue.filter (fun r => decide (r.op = 2 ∨ r.op = 5)), queue := f.queue.filter (fun r => ! decide (r.op = 2 ∨ r.op = 5)) }) s
  showFmt g (waits.foldl (fun t r => refuseRun g r.eseq (fun _ => true) t) s)

/-- Accept a sector command (R301, R302, R304): it is queued in ESEQ order, or refused with source j 0x12. -/
def queueRun (g : Nat) (src : RSlot) (m : Msg) (s : State) : State :=
  let r := s.runOf g src m
  if ! s.runOk g r.op r.surf r.zone r.track r.first r.count r.incl then
    let s := report g m.eseq 5 0 0 r.first r.track false s
    let s := fromCurd g 2 m.eseq [BitVec.ofNat 32 (2 * 2 ^ 28), BitVec.ofNat 32 r.track] s
    curdRaise g 0x12 r.track (takeMsg (.curd g src) m s)
  else
    showFmt g (modFmt g (fun f => { f with
      queue := f.queue.filter (fun q => ! aheadMod (2 ^ 32) q.eseq r.eseq) ++ [r] ++ f.queue.filter (fun q => aheadMod (2 ^ 32) q.eseq r.eseq) }) s)

/-! ## DATA of writes (R301, R316, R504) -/

/-- The payload words received from a slot for a sector: none until all nine messages are here. -/
def Fmt.received (f : Fmt) (d : RSlot) (e : Nat) : Option (List (List Word)) :=
  match f.data.find? (fun x => x.1 = d ∧ x.2.1 = e) with
  | some x => if 9 ≤ x.2.2.length then some x.2.2 else none
  | none => none

/-- The digests of the messages of a sector. -/
def dataDigests (e : Nat) (l : List (List Word)) : List (BitVec 64) := l.map (fun p => msgDigest ⟨1, 0, 0, e, p⟩)

/-- The 4,112 bytes sent for a position of a run, where the sector may be written: both copies alike while two dies serve in step, else the
holder's (R504). -/
def State.writeData (s : State) (g eseq index : Nat) : Option (List Byte) :=
  let f := s.fmt g
  let e := dataEseq eseq index
  let bytes (l : List (List Word)) : List Byte := l.flatMap (fun p => p.flatMap wordBytes)
  if s.single g then (f.received (s.holder g) e).map bytes
  else
    match f.received .f0 e, f.received .f1 e with
    | some a, some b => if dataDigests e a = dataDigests e b then some (bytes a) else none
    | _, _ => none

/-! ## Track parity over GF(2^16) (R292, R294) -/

/-- Double in GF(2^16) with x^16 + x^12 + x^3 + x + 1. -/
def gf16Double (a : Nat) : Nat := if 65536 ≤ 2 * a then (2 * a) ^^^ 0x1100B else 2 * a

/-- Product from bit `n` - 1 of `b` down. -/
def gf16MulFrom (a b : Nat) : Nat → Nat
  | 0 => 0
  | n + 1 => gf16Double (gf16MulFrom a (b / 2) n) ^^^ (if b % 2 = 1 then a else 0)

/-- Product in GF(2^16). -/
def gf16Mul (a b : Nat) : Nat := gf16MulFrom a b 16

/-- Power in GF(2^16). -/
def gf16Pow (a : Nat) : Nat → Nat
  | 0 => 1
  | n + 1 => gf16Mul a (gf16Pow a n)

/-- Square `n` times. -/
def gf16Squares (a : Nat) : Nat → Nat
  | 0 => a
  | n + 1 => gf16Squares (gf16Mul a a) n

/-- Inverse in GF(2^16): a to the power 2^16 - 2, the product of the squares. -/
def gf16Inv (a : Nat) : Nat := (List.range 15).foldl (fun p i => gf16Mul p (gf16Squares a (i + 1))) 1

/-- The 16-bit symbols of bytes 0 to 4,111 of a payload. -/
def symbols : Nat → List Byte → List Nat
  | 0, _ => []
  | n + 1, bs => leNat (bs.take 2) :: symbols n (bs.drop 2)

/-- Symbols as bytes. -/
def symBytes (l : List Nat) : List Byte := l.flatMap (natLe 2)

/-- XOR of two rows of symbols. -/
def xorSyms (a b : List Nat) : List Nat := (a.zip b).map (fun p => p.1 ^^^ p.2)

/-- A row of symbols times a factor. -/
def mulSyms (k : Nat) (a : List Nat) : List Nat := a.map (gf16Mul k)

/-- The zero row: 2,056 symbols. -/
def zeroSyms : List Nat := List.replicate 2056 0

/-- The sums S0 and S1 of R292 over the positions given, by place within the group. -/
def paritySums (l : List (Nat × List Byte)) : List Nat × List Nat :=
  l.foldl (fun acc p =>
    let sy := symbols 2056 p.2
    (xorSyms acc.1 sy, xorSyms acc.2 (mulSyms (gf16Pow 2 p.1) sy))) (zeroSyms, zeroSyms)

/-- The two symbols rows at places `a` and `b` of a group whose other positions are given (R294). -/
def solveTwo (a b : Nat) (l : List (Nat × List Byte)) : List Byte × List Byte :=
  let s := paritySums l
  let den := gf16Inv (gf16Pow 2 a ^^^ gf16Pow 2 b)
  let x := mulSyms den (xorSyms s.2 (mulSyms (gf16Pow 2 b) s.1))
  (symBytes x, symBytes (xorSyms s.1 x))

/-- The row at place `a` of a group whose other positions are all given, where the test of R294 holds. -/
def solveOne (a : Nat) (l : List (Nat × List Byte)) : Option (List Byte) :=
  let s := paritySums l
  if xorSyms s.2 (mulSyms (gf16Pow 2 a) s.1) = zeroSyms then some (symBytes s.1) else none

/-- The 4,112 bytes that a sector of a write or PARITY run writes (R316): the data sent, or at a parity position the symbols of its group. -/
def State.secBytes (s : State) (g : Nat) (r : CRun) (x : Sec) : Option (List Byte) :=
  match s.groupZone g x.surf x.zone with
  | none => none
  | some z =>
    if z.isParity x.pos ∧ (r.op = 5 ∨ r.incl) then
      let gi := x.pos / 64
      let n := z.groupSize gi
      let parts := (List.range (n - 2)).map (fun j => (s.writeData g r.eseq (64 * gi + j - r.first)).map (fun b => (j, b)))
      if parts.all Option.isSome then
        let p := solveTwo (n - 2) (n - 1) (parts.filterMap id)
        some (if x.pos % 64 = n - 2 then p.1 else p.2)
      else none
    else s.writeData g r.eseq x.index

/-- The payload of a sector to be written (R271, R272). -/
def State.secPayload (s : State) (g : Nat) (r : CRun) (x : Sec) : Option (List Byte) :=
  (s.secBytes g r x).map (fun b => b ++ natLe 4 (sectorCheck (4 * g + x.surf) x.track x.pos b).toNat)

/-! ## The retry ladder (R274 to R294) -/

/-- The best position of a mark within ±`w` bits of the prediction: lowest count, at most `tol`; the nearer of equals, then the earlier
(R274). -/
def bestMark (w tol : Nat) (l : List (Int × Nat)) : Option (Int × Nat) :=
  let ok := l.filter (fun p => decide (p.1.natAbs ≤ w ∧ p.2 ≤ tol))
  ok.foldl (fun b p =>
    match b with
    | none => some p
    | some q => if p.2 < q.2 ∨ (p.2 = q.2 ∧ (p.1.natAbs < q.1.natAbs ∨ (p.1.natAbs = q.1.natAbs ∧ p.1 < q.1))) then some p else b) none

/-- The zone an entry was captured in: each entry carries its own (R296). -/
def State.entryZone (s : State) (g : Nat) (e : VEntry) : Zone :=
  (s.groupZone g e.surf e.zone).getD { first := 0, tracks := 0, spt := 0, skew := 0, shingled := false, guard := 0 }

/-- The framing of an entry shows the slip signature (R278). -/
def State.slipSign (s : State) (g : Nat) (e : VEntry) (off : Int) (set : Nat) : Bool :=
  decide (s.rdC g R.CHAN_SLIP_SLIPSW ≤ firstCount e (s.entryZone g e) (s.fmt g).chan off set)

/-- A decode of a framing of an entry gives a good sector (R277 to R279): no slip signature, every check satisfied within the iterations and passes
allowed, and the sector check passes. -/
def State.goodAt (s : State) (g : Nat) (x : Sec) (e : VEntry) (off : Int) (set iters passes : Nat) : Option (List Byte) :=
  if s.slipSign g e off set then none
  else (decodePasses e (s.entryZone g e) (s.fmt g).chan off set passes iters []).filter (checkOk (4 * g + x.surf) x.track x.pos)

/-- Rung `r` is enabled (CHAN_LADDER.EN as the ladder began) and within the sector's limit. -/
def State.rungOpen (s : State) (g : Nat) (x : Sec) (r : Nat) : Bool :=
  (x.en.getD (s.rdC g R.CHAN_LADDER_EN)).testBit (r - 1) && decide (r ≤ x.limit) && (decide (x.kind ≠ .helper) || decide (r ≤ 4))

/-- The sector's latest capture is still in the vault. -/
def State.captureOf (s : State) (g : Nat) (x : Sec) : Option VEntry := x.entries.head?.bind (s.fmt g).entry

/-- The condition of rung `r` holds (R284, R285). -/
def State.rungHolds (s : State) (g : Nat) (x : Sec) (r : Nat) : Bool :=
  let max := (s.fmt g).chan.maxrev
  match r with
  | 2 => (s.captureOf g x).isSome && (x.missed || x.slipped)
  | 3 | 4 => (s.captureOf g x).isSome && x.place.isSome
  | 8 => decide (x.revs + 2 ≤ max ∧ (s.fmt g).pins + 2 ≤ 8)
  | _ => decide (x.revs < max)

/-- Rebuild may be tried (R293): the command permits it, the band has TPAR, and the group is not parity-stale. -/
def State.mayRebuild (s : State) (g : Nat) (x : Sec) : Bool :=
  x.rebuild && decide (x.kind = .own) &&
  (match s.groupZone g x.surf x.zone with
   | none => false
   | some z =>
     match s.slotAt ⟨4 * g + x.surf, x.track, 64 * (x.pos / 64)⟩ with
     | none => false
     | some (sl, o) =>
       ((s.xlat.t.bandAt sl).map Band.tpar).getD false && ! s.xlat.t.stale.any (fun e => decide (e = (sl, o / z.dpt, x.pos / 64))))

/-- The positions of the sector's group other than its own, as helpers (R293): a reassigned data index is read at its spare. -/
def State.helpers (s : State) (g : Nat) (x : Sec) : List Sec :=
  match s.groupZone g x.surf x.zone with
  | none => []
  | some z =>
    let gi := x.pos / 64
    ((List.range (z.groupSize gi)).filter (fun j => decide (64 * gi + j ≠ x.pos))).map (fun j =>
      let p : Place := ⟨4 * g + x.surf, x.track, 64 * gi + j⟩
      let q := match (if z.isParity p.pos then none else s.slotAt p) with
        | some (sl, o) => (s.placeIn sl o).getD p
        | none => p
      { kind := .helper, surf := x.surf, zone := x.zone, track := q.track, pos := q.pos, index := j, limit := 4 })

/-- The ladder of a sector has ended without it (R285): the rebuild follows where it may, else the sector is unreadable. -/
def failSec (g eseq i : Nat) (s : State) : State :=
  match s.sec g eseq i with
  | none => s
  | some x =>
    if s.mayRebuild g x then
      let hs := s.helpers g x
      let s := modSec g eseq i (fun x => { x with stage := .rebuild }) s
      modFmt g (fun f => { f with runs := f.runs.map (fun r => if r.eseq = eseq then { r with secs := r.secs ++ hs } else r) }) s
    else settleSec g eseq i 2 0 none s

/-- The next rung of a sector after rung `r` (R284): a vault rung waits for the engine, a revolution rung for its gate. -/
def advance (g eseq i : Nat) (s : State) : State :=
  match s.sec g eseq i with
  | none => s
  | some x =>
    match ([2, 3, 4, 5, 6, 7, 8].filter (fun r => decide (x.rung < r))).find? (fun r => s.rungOpen g x r && s.rungHolds g x r) with
    | none => failSec g eseq i s
    | some r =>
      let s := if r = 7 then setBias g 1 s else if x.rung = 7 then setBias g 0 s else s
      modSec g eseq i (fun x => { x with rung := r, inner := 0, shots := 0, stage := if r ≤ 4 then .vault else .waiting }) s

/-- After a reread whose rungs 1 to 3 failed: the second reread of rung 6 or 7, else the next rung (R284, R285). -/
def nextShot (g eseq i : Nat) (s : State) : State :=
  match s.sec g eseq i with
  | none => s
  | some x =>
    if (x.rung = 6 ∨ x.rung = 7) ∧ x.shots < 2 ∧ x.revs < (s.fmt g).chan.maxrev then
      modSec g eseq i (fun x => { x with inner := 0, stage := .waiting }) (if x.rung = 7 then setBias g (-1) s else s)
    else advance g eseq i s

/-- The inner rungs of a reread's capture after inner rung `k` (R284): 2 and 3, as far as they are enabled and their conditions hold. -/
def innerAfter (g eseq i k : Nat) (s : State) : State :=
  match s.sec g eseq i with
  | none => s
  | some x =>
    match ([2, 3].filter (fun r => decide (k < r))).find? (fun r => s.rungOpen g x r && s.rungHolds g x r) with
    | some r => modSec g eseq i (fun x => { x with inner := r, stage := .vault }) s
    | none => nextShot g eseq i s

/-- A sector failed rung 1: its entry is pinned where fewer than eight are, its earlier pins but those of rung 8 dropped, and it takes its
place in the vault engine's queue (R281, R282). -/
def pinFailed (g eseq i : Nat) (s : State) : State :=
  match s.sec g eseq i with
  | none => s
  | some x =>
    let s := unpin g x.entries.tail s
    let s := match x.entries.head? with
      | some id => if (s.fmt g).pins < 8 then modEntry g id (fun e => { e with pinned := true }) s else s
      | none => s
    let n := (s.fmt g).nextOrder
    modSec g eseq i (fun x => { x with order := n }) (modFmt g (fun f => { f with nextOrder := f.nextOrder + 1 }) s)

/-- The sector is good at a rung: its entry keeps the payload for OLDREAD (R283). -/
def goodSec (g eseq i rung : Nat) (place : Int × Nat) (p : List Byte) (s : State) : State :=
  match s.sec g eseq i with
  | none => s
  | some x =>
    let s := match x.entries.head? with
      | some id => modEntry g id (fun e => { e with good := some p, place := some place }) s
      | none => s
    settleSec g eseq i 0 rung (some p) (if x.rung = 7 then setBias g 0 s else s)

/-- The ladder of a sector begins (R284): the rungs enabled now hold for it. -/
def beginLadder (g eseq i : Nat) (s : State) : State :=
  modSec g eseq i (fun x => { x with en := x.en.orElse (fun _ => some (s.rdC g R.CHAN_LADDER_EN)) }) s

/-- Rung 1 on a capture (R274 to R277): mark search and decode on the fly. -/
def rungOne (g eseq i : Nat) (s : State) : State :=
  match s.sec g eseq i with
  | none => s
  | some x =>
    let again (s : State) : State := if x.rung < 5 then advance g eseq i s else innerAfter g eseq i 1 s
    match s.captureOf g x with
    | none => again (pinFailed g eseq i (beginLadder g eseq i (modSec g eseq i (fun x => { x with
        missed := true, slipped := false, place := none, rung := max 1 x.rung }) s)))
    | some e =>
      let z := s.entryZone g e
      let cfg := (s.fmt g).chan
      let soft := e.soft z cfg 0 []
      let mark := match bestMark z.syncw cfg.synctol (primaryCounts soft z.syncw) with
        | some p => some p
        | none => if z.dual then bestMark z.syncw cfg.synctol (secondaryCounts soft z.syncw) else none
      match mark with
      | none => again (pinFailed g eseq i (beginLadder g eseq i (modSec g eseq i (fun x => { x with
          missed := true, slipped := false, place := none, rung := max 1 x.rung }) s)))
      | some p =>
        match s.goodAt g x e p.1 0 cfg.iterotf 1 with
        | some b => goodSec g eseq i (max 1 x.rung) p b s
        | none =>
          let slip := s.slipSign g e p.1 0
          again (pinFailed g eseq i (beginLadder g eseq i (modSec g eseq i (fun x => { x with
            missed := false, slipped := slip, place := some p.1, rung := max 1 x.rung }) (modEntry g e.id (fun e => { e with place := some p }) s))))

/-- Placements of the wide search (R288), best first: supported by both marks, then the lower count, the nearer, the earlier. -/
def widePlaces (cfg : ChanCfg) (z : Zone) (soft : List Int) : List (Int × Nat) :=
  let w := z.syncw + 64
  let ok (l : List (Int × Nat)) : List (Int × Nat) := l.filter (fun p => decide (p.2 ≤ cfg.synctolw))
  let a := ok (primaryCounts soft w)
  let b := if z.dual then ok (secondaryCounts soft w) else []
  let both (p : Int × Nat) : Bool := a.any (fun q => q.1 = p.1) && b.any (fun q => q.1 = p.1)
  let all := a ++ b.filter (fun p => ! a.any (fun q => q.1 = p.1))
  let lt (p q : Int × Nat) : Bool :=
    (both p && ! both q) || (both p == both q && (decide (p.2 < q.2) || (decide (p.2 = q.2) &&
      (decide (p.1.natAbs < q.1.natAbs) || (decide (p.1.natAbs = q.1.natAbs) && decide (p.1 ≤ q.1))))))
  all.mergeSort lt

/-- Offsets of the slip search: +1, -1, +2, -2 and so on (R289). -/
def slipOffsets (n : Nat) : List Int := (List.range n).flatMap (fun k => [((k + 1 : Nat) : Int), -((k + 1 : Nat) : Int)])

/-- The slip search from a placement (R289): the first framing whose decode gives a good sector. -/
def State.slipSearch (s : State) (g : Nat) (x : Sec) (e : VEntry) (p : Int) : Option (Int × List Byte) :=
  (slipOffsets (s.fmt g).chan.slipmax).findSome? (fun o => (s.goodAt g x e (p + o) 0 (s.fmt g).chan.iterotf 1).map (fun b => (p + o, b)))

/-- Rung 2 (R288, R289): the placement it settles on, the payload where one is good, and whether the slip search found it. -/
def State.rungTwo (s : State) (g : Nat) (x : Sec) (e : VEntry) : Option (Int × Nat) × Option (List Byte) × Bool :=
  let cfg := (s.fmt g).chan
  let z := s.entryZone g e
  if x.missed then
    let ps := widePlaces cfg z (e.soft z cfg 0 [])
    match (ps.take 4).findSome? (fun p => (s.goodAt g x e p.1 0 cfg.iterotf 1).map (fun b => (p, b))) with
    | some r => (some r.1, some r.2, false)
    | none =>
      match ps.head? with
      | none => (none, none, false)
      | some p =>
        if s.slipSign g e p.1 0 then
          match s.slipSearch g x e p.1 with
          | some r => (some (r.1, p.2), some r.2, true)
          | none => (some p, none, true)
        else (some p, none, false)
  else
    match x.place with
    | none => (none, none, true)
    | some p =>
      match s.slipSearch g x e p with
      | some r => (some (r.1, 0), some r.2, true)
      | none => (some (p, 0), none, true)

/-- The alternatives of rung 4, in order (R290): the enabled CHAN_ALTEQ sets, then the reader exclusions. -/
def alternatives (cfg : ChanCfg) (mode : Nat) : List Nat :=
  ((List.range 4).filter (fun k => (cfg.alteq.getD k 0).testBit 15)).map (· + 1) ++ (if mode = 3 then [5, 6] else if mode = 2 then [7] else [])

/-- Run the rung that a sector in the vault engine is at (R284, R288 to R291). -/
def runVault (g eseq i : Nat) (s : State) : State :=
  match s.sec g eseq i with
  | none => s
  | some x =>
    let r := if x.inner = 0 then x.rung else x.inner
    let onFail (s : State) : State := if x.inner = 0 then advance g eseq i s else innerAfter g eseq i x.inner s
    let cfg := (s.fmt g).chan
    match s.captureOf g x with
    | none =>
      if x.inner = 0 then advance g eseq i (modSec g eseq i (fun x => { x with rung := max 4 x.rung }) s) else nextShot g eseq i s
    | some e =>
      match r with
      | 2 =>
        let o := s.rungTwo g x e
        match o.1, o.2.1 with
        | some p, some b => goodSec g eseq i x.rung p b (s.incC g (if o.2.2 then R.CHAN_SLIPCNT_SLIP else R.CHAN_SLIPCNT_WIDE))
        | some p, none => onFail (modEntry g e.id (fun e => { e with place := some p }) (modSec g eseq i (fun x => { x with place := some p.1 }) s))
        | none, _ => onFail s
      | 3 =>
        match x.place.bind (fun p => (s.goodAt g x e p 0 cfg.itermax cfg.global).map (fun b => (p, b))) with
        | some q => goodSec g eseq i x.rung (q.1, 0) q.2 s
        | none => onFail s
      | 4 =>
        match x.place.bind (fun p => (alternatives cfg e.mode).findSome? (fun k => (s.goodAt g x e p k cfg.itermax cfg.global).map (fun b => (p, b)))) with
        | some q => goodSec g eseq i x.rung (q.1, 0) q.2 s
        | none => onFail s
      | 8 =>
        match s.goodAt g x (averaged e (((x.entries.tail.take 2).filterMap (s.fmt g).entry).filter VEntry.pinned)) 0 0 cfg.itermax cfg.global with
        | some b => goodSec g eseq i 8 (0, 0) b s
        | none => advance g eseq i s
      | _ =>
        match e.good with
        | some b => goodSec g eseq i 1 (e.place.getD (0, 0)) b s
        | none => modSec g eseq i (fun x => { x with stage := .waiting, entries := [], rung := 0 }) s

/-- The sector the vault engine takes (R281 to R283): the oldest in its queue whose entry is pinned, or any while fewer than eight are;
re-decodes for OLDREAD wait behind them. -/
def State.vaultNext (s : State) (g : Nat) : Option (Nat × Nat × Sec) :=
  let f := s.fmt g
  let l := f.secs.filter (fun q => decide (q.2.2.stage = .vault))
  let pinnedOk (x : Sec) : Bool := decide (f.pins < 8) || (x.entries.head?.bind f.entry).any VEntry.pinned
  let oldest (l : List (Nat × Nat × Sec)) : Option (Nat × Nat × Sec) :=
    l.foldl (fun b q => match b with
      | none => some q
      | some p => if q.2.2.order < p.2.2.order then some q else b) none
  match oldest (l.filter (fun q => decide (q.2.2.rung ≠ 0) && pinnedOk q.2.2)) with
  | some q => some q
  | none => oldest (l.filter (fun q => decide (q.2.2.rung = 0)))

/-- The vault engine runs its next rung (R282): the entry is pinned first; a sector whose capture is gone goes to rung 5. -/
def vaultStep (g : Nat) (s : State) : State :=
  match s.vaultNext g with
  | none => s
  | some q =>
    let s := match s.captureOf g q.2.2 with
      | some e => if q.2.2.rung ≠ 0 ∧ ! e.pinned ∧ (s.fmt g).pins < 8 then modEntry g e.id (fun e => { e with pinned := true }) s else s
      | none => s
    showFmt g (runVault g q.1 q.2.1 s)

/-- Rebuild a sector whose group has been read (R294). -/
def rebuildSec (g eseq i : Nat) (s : State) : State :=
  match s.sec g eseq i, (s.fmt g).runs.find? (fun r => r.eseq = eseq) with
  | some x, some r =>
    let hs := r.secs.filter (fun h => decide (h.kind = .helper))
    if x.stage = .rebuild ∧ hs.all (fun h => decide (h.stage = .done)) then
      let known := hs.filterMap (fun h => h.good.map (fun b => (h.index, b.take 4112)))
      let lost := hs.filter (fun h => h.good.isNone)
      let a := x.pos % 64
      let drop (s : State) : State := modFmt g (fun f => { f with runs := f.runs.map (fun q =>
        if q.eseq = eseq then { q with secs := q.secs.filter (fun h => decide (h.kind ≠ .helper)) } else q) }) s
      let sealed (p : Sec) (b : List Byte) : List Byte := b ++ natLe 4 (sectorCheck (4 * g + p.surf) p.track p.pos b).toNat
      let s := drop s
      match lost with
      | [] =>
        match solveOne a known with
        | some b => settleSec g eseq i 1 0 (some (sealed x b)) s
        | none => settleSec g eseq i 2 0 none (s.incC g R.CHAN_REBUILD_FAIL)
      | [h] =>
        let p := solveTwo a h.index known
        let other := (s.fmt g).secs.find? (fun q => decide (q.1 = eseq ∧ q.2.2.kind = .own ∧ q.2.2.pos = 64 * (x.pos / 64) + h.index ∧ q.2.2.stage ≠ .done))
        let s := settleSec g eseq i 1 0 (some (sealed x p.1)) s
        match other with
        | some q => settleSec g eseq q.2.1 1 0 (some (sealed q.2.2 p.2)) s
        | none => report g eseq 1 0 0 h.pos h.track false (s.incC g R.CHAN_REBUILD_OK)
      | _ => settleSec g eseq i 2 0 none (s.incC g R.CHAN_REBUILD_FAIL)
    else s
  | _, _ => s

/-! ## Gates (R287, R295, R305, R318 to R324) -/

/-- A gate event is for this sector. -/
def gateFor (e : GateEv) (x : Sec) : Bool := decide (e.surf = x.surf ∧ e.track = x.track ∧ e.pos = x.pos ∧ e.write = x.write)

/-- A sector of a started run waits for its gate. -/
def State.gateSec (s : State) (g : Nat) (e : GateEv) : Option (Nat × Nat × Sec) :=
  s.findSec g (fun x => decide (x.stage = .waiting) && gateFor e x)

/-- Drop the posted events of a sector. -/
def dropPosted (g : Nat) (p : GateEv → Bool) (s : State) : State :=
  modFmt g (fun f => { f with posted := f.posted.filter (fun e => ! p e.toGateEv) }) s

/-- A read deferred (R287): the revolution counts towards MAXREV. -/
def deferRead (g eseq i : Nat) (s : State) : State :=
  let s := modSec g eseq i (fun x => { x with revs := x.revs + 1 }) (s.incC g R.CHAN_FAILCNT_OFFTRK)
  match s.sec g eseq i with
  | some x => if (s.fmt g).chan.maxrev ≤ x.revs then failSec g eseq i s else s
  | none => s

/-- A ladder or a rebuild reads this position (R295). -/
def State.ladderOn (s : State) (g : Nat) (x : Sec) : Bool :=
  (s.fmt g).secs.any (fun q => ! q.2.2.write && decide (q.2.2.surf = x.surf ∧ q.2.2.track = x.track ∧ q.2.2.pos = x.pos ∧
    (q.2.2.stage = .captured ∨ q.2.2.stage = .vault ∨ q.2.2.stage = .rebuild ∨ (q.2.2.stage = .waiting ∧ (5 ≤ q.2.2.rung ∨ q.2.2.kind = .helper)))))

/-- A write may go to this sector now: in a shingled band every lower position of the run has its outcome (R319), and the neighbours have been
verified (R324). -/
def CRun.turnOf (r : CRun) (shingled : Bool) (x : Sec) : Bool :=
  ! r.secs.any (fun y => decide (y.kind = .neighbour ∧ y.stage ≠ .done)) &&
  (! shingled || ! r.secs.any (fun y => decide (y.kind = .own ∧ y.pos < x.pos ∧ y.stage ≠ .done)))

/-- The zone a sector of a group lies in is shingled. -/
def State.secShingled (s : State) (g : Nat) (x : Sec) : Bool := ((s.groupZone g x.surf x.zone).map Zone.shingled).getD false

/-- HTRLEAD has not passed since the heater write that the next gate waits on (R311, R318). -/
def State.heating (s : State) (g : Nat) : Bool :=
  match (s.fmt g).heatAt with
  | some t => decide (s.now < t)
  | none => false

/-- A gate opens (R264, R287, R305, R311, R314, R318); a read gate takes the CHAN fields (R300) and starts every reader's front end from the zone
(R95, R265). It does not open while the heater leads: its sector is then missed for the revolution. -/
def openGate (g : Nat) (e : Posted) (s : State) : State :=
  match s.gateSec g e.toGateEv with
  | none => s
  | some (eseq, i, x) =>
    let f := s.fmt g
    if s.heating g then dropPosted g (fun p => gateFor p x) s
    else if e.write then
      match f.runs.find? (fun r => r.eseq = eseq) with
      | none => s
      | some r =>
        if s.mayWriteMedia g ∧ ! s.ladderOn g x ∧ r.turnOf (s.secShingled g x) x ∧ (s.secPayload g r x).isSome then
          let s := if x.again then modSec g eseq i (fun x => { x with again := false }) (s.incC g R.FMT_WRCNT_RETRY) else s
          let s := modSec g eseq i (fun x => { x with wretry := x.wretry.orElse (fun _ => some (s.rdC g R.FMT_WRCFG_WRETRY)) }) s
          invalidate g x.surf x.track x.pos (modFmt g (fun f => { f with gate := some e.toGateEv, lead := s.rdC g R.FMT_WRCFG_WLEAD }) s)
        else dropPosted g (fun p => gateFor p x) s
    else
      let s := modFmt g (fun f => { f with chan := s.chanCfg g }) s
      if ! f.lock ∨ ! s.bitC g R.SERVO_STAT_RDOK then deferRead g eseq i (dropPosted g (fun p => gateFor p x) s)
      else if e.mode = 0 then dropPosted g (fun p => gateFor p x) s
      else
      let s := (s.wrC g R.CHAN_STAT_ZONE x.zone).wrC g R.CHAN_STAT_SURF x.surf
      let z := s.groupZone g x.surf x.zone
      modFmt g (fun f => { f with
        gate := some e.toGateEv, gateMode := e.mode
        front := (usedReaders e.mode (s.pairOf g)).filterMap (fun k => z.map (fun z => z.frontOf k))
        ctf := (z.map (fun z => (z.ctfc, z.ctfb))).getD (0, 0) }) s

/-- A read gate closes: the capture goes to the vault, and the sector waits for rung 1; the rereads of rung 8 are pinned and the second goes
to the vault engine (R280, R284, R291). -/
def closeRead (g : Nat) (cap : Capture) (e : GateEv) (s : State) : State :=
  match s.gateSec g e with
  | none => s
  | some (eseq, i, x) =>
    let m := makeEntry g x cap s
    let s := modSec g eseq i (fun x => { x with entries := m.1 :: x.entries }) m.2
    if x.rung < 5 then modSec g eseq i (fun x => { x with stage := .captured }) s
    else
      let s := modSec g eseq i (fun x => { x with shots := x.shots + 1, revs := x.revs + 1, stage := if x.rung = 8 then .waiting else .captured }) s
      if x.rung = 8 then
        let s := modEntry g m.1 (fun e => { e with pinned := true }) s
        if x.shots = 1 then modSec g eseq i (fun x => { x with stage := .vault }) s else s
      else s

/-- A write gate closes after the last pad bit: the sector is on the media (R270, R273, R316 to R318). -/
def closeWrite (g : Nat) (e : GateEv) (s : State) : State :=
  match s.gateSec g e with
  | none => s
  | some (eseq, i, x) =>
    match ((s.fmt g).runs.find? (fun r => r.eseq = eseq)).bind (fun r => s.secPayload g r x) with
    | none => s
    | some p =>
      let z := s.entryZone g { id := 0, surf := x.surf, track := x.track, pos := x.pos, zone := x.zone, mode := 0, rpm := 0, cap := ⟨[]⟩ }
      let bits := frameSector z.dual (codeword p)
      let s := s.emit (.media g x.surf x.track x.pos bits (writeLevel z.precomp (s.fmt g).lead bits))
      let s := modFmt g (fun f => { f with wlog := (x.surf, x.track, x.pos, s.now) :: f.wlog.filter (fun q => s.now ≤ q.2.2.2 + 255) }) s
      settleSec g eseq i 3 0 none s

/-- The gate unit reaches its oldest posted event (R305). -/
def gateAct (g : Nat) (cap : Capture) (s : State) : State :=
  match (s.fmt g).posted with
  | [] => s
  | e :: l =>
    let s := modFmt g (fun f => { f with posted := l }) s
    if e.opens then showFmt g (if (s.fmt g).gate.isSome then s else openGate g e s)
    else
      match (s.fmt g).gate with
      | none => s
      | some o =>
        if decide (o.write = e.write ∧ o.surf = e.surf ∧ o.track = e.track ∧ o.pos = e.pos) then
          let s := modFmt g (fun f => { f with gate := none }) s
          showFmt g (powerReaders g (if e.write then closeWrite g e.toGateEv s else closeRead g cap e.toGateEv s))
        else s

/-- An open write gate is withdrawn (R319, R320): its sector is written again on a later revolution; in a shingled band nothing beyond it is
written before. A withdrawal that SHOCK did not cause counts towards WRETRY. -/
def withdrawGate (g : Nat) (shock : Bool) (s : State) : State :=
  match (s.fmt g).gate with
  | none => s
  | some e =>
    if ! e.write then s
    else
      let s := modFmt g (fun f => { f with gate := none }) s
      match s.gateSec g e with
      | none => s
      | some (eseq, i, x) =>
        let sh := s.secShingled g x
        let s := dropPosted g (fun p => if sh then p.write else gateFor p x) s
        let s := modSec g eseq i (fun x => { x with again := true, wdraws := if shock then x.wdraws else x.wdraws + 1 }) s
        let s := if ! shock ∧ x.wretry.getD (s.rdC g R.FMT_WRCFG_WRETRY) ≤ x.wdraws + 1 then settleSec g eseq i 4 0 none s else s
        showFmt g s

/-- The nearest track on one side that is not slipped, lies outside the system region and on the surface (R324). -/
def State.neighbour (s : State) (h t : Nat) (up : Bool) : Option Nat :=
  let ok (u : Nat) : Bool := decide (u ∉ s.slipsOf h) && (s.zoneAt h u).isSome
  if up then (List.range 2000).findSome? (fun k => if ok (t + 1 + k) then some (t + 1 + k) else none)
  else (List.range 2000).findSome? (fun k => if k + 1 ≤ t ∧ ok (t - 1 - k) then some (t - 1 - k) else none)

/-- Positions of a track under which the disturbed positions of another passed, by angle (R227, R324). -/
def overlaps (z : Zone) (t : Nat) (span : List Nat) (z' : Zone) (t' : Nat) : List Nat :=
  (List.range z'.spt).filter (fun p' =>
    let a' := z'.angle t' p'
    span.any (fun p => let a := z.angle t p; decide (a * z'.spt < (a' + 1) * z.spt ∧ a' * z.spt < (a + 1) * z'.spt)))

/-- The neighbour sectors to verify after a SHOCK withdrawal (R324). -/
def State.disturbed (s : State) (g : Nat) (r : CRun) (x : Sec) : List Sec :=
  match s.groupZone g x.surf x.zone with
  | none => []
  | some z =>
    let span := x.pos :: ((s.fmt g).wlog.filter (fun q => decide (q.1 = x.surf ∧ q.2.1 = x.track ∧
      s.now ≤ q.2.2.2 + s.rdC g R.FMT_SHOCK_LOOKBACK))).map (fun q => q.2.2.1)
    let h := 4 * g + x.surf
    let tracks := if z.shingled then (if r.bandFirst then [] else (s.neighbour h x.track false).toList)
      else (s.neighbour h x.track false).toList ++ (s.neighbour h x.track true).toList
    tracks.flatMap (fun t =>
      match s.zoneAt h t with
      | none => []
      | some (zi, z') => (overlaps z x.track span z' t).map (fun p =>
        { kind := .neighbour, surf := x.surf, zone := zi, track := t, pos := p, index := 0, limit := 4 }))

/-- SHOCK is seen at its active level by C`g` (R322 to R325). -/
def shockSeen (g : Nat) (s : State) : State :=
  let s := fromCurd g 2 0 [BitVec.ofNat 32 (3 * 2 ^ 28), BitVec.ofNat 32 (s.upUs / 1000)] (s.incC g R.FMT_SHOCKCNT_EVENTS)
  let s := modFmt g (fun f => { f with shockSince := some s.now }) (s.wrC g R.FMT_STAT_WINHSHK 1)
  let open' := (s.fmt g).gate.bind (fun e => if e.write then s.gateSec g e else none)
  match open' with
  | none => showFmt g s
  | some (eseq, _, x) =>
    let s := s.incC g R.FMT_SHOCKCNT_WDRAW
    let extra := if s.bitC g R.FMT_SHOCK_VERIFY then
        (((s.fmt g).runs.find? (fun r => r.eseq = eseq)).map (fun r => s.disturbed g r x)).getD []
      else []
    let s := modFmt g (fun f => { f with runs := f.runs.map (fun r => if r.eseq = eseq then { r with secs := r.secs ++ extra } else r) }) s
    withdrawGate g true s

/-- A group whose preamplifier fault persists takes no further writes (R321): each write sector that waits is reported "write failed". -/
def failWrites (g : Nat) (s : State) : State :=
  if s.bitC g R.FMT_STAT_WINHPA then
    ((s.fmt g).secs.filter (fun q => q.2.2.write && decide (q.2.2.stage = .waiting))).foldl (fun t q => settleSec g q.1 q.2.1 4 0 none t)
      (dropPosted g (fun e => e.write) s)
  else s

/-- A reader count from a group order (R314, R315): fewer apply from the next read gate, more once they have settled. -/
def orderReaders (g n : Nat) (s : State) : State :=
  let f := s.fmt g
  let s := if n ≤ f.readers then modFmt g (fun f => { f with wanted := n, readers := n, settling := none }) s
    else modFmt g (fun f => { f with wanted := n, settling := some n }) s
  powerReaders g s

/-- A channel stage has been drained (R297): a sector waiting for rung 1 has no complete entry and goes to rung 5; a vault rung in progress
ends as failed. -/
def drainChannel (g : Nat) (s : State) : State :=
  match s.findSec g (fun x => decide (x.stage = .captured)) with
  | some (eseq, i, x) =>
    let s := modFmt g (fun f => { f with vault := f.vault.filter (fun e => some e.id ≠ x.entries.head?) }) s
    let s := modSec g eseq i (fun x => { x with entries := x.entries.tail, missed := false, slipped := false, place := none, rung := max 4 x.rung }) (beginLadder g eseq i (showVault g s))
    if x.rung < 5 then advance g eseq i s else nextShot g eseq i s
  | none =>
    match s.vaultNext g with
    | some (eseq, i, x) => if x.inner = 0 then advance g eseq i s else innerAfter g eseq i x.inner s
    | none => s

/-- Function reset of the read channel (R553): the vault is emptied and sectors in a ladder go on at rung 5. -/
def resetChannel (g : Nat) (s : State) : State :=
  let s := showVault g (modFmt g (fun f => { f with vault := [] }) s)
  ((s.fmt g).secs.filter (fun q => decide (q.2.2.stage = .captured ∨ q.2.2.stage = .vault))).foldl (fun t q =>
    advance g q.1 q.2.1 (modSec g q.1 q.2.1 (fun x => { x with entries := [], rung := max 4 x.rung, inner := 0 }) (beginLadder g q.1 q.2.1 t))) s

/-- Function reset of the formatter (R553): its runs end as refused, and its engine restarts. -/
def resetFormatter (g : Nat) (s : State) : State := resetEngine (.curd g) (refuseAll g s)

end Sys2Proof.Machine
end

