-- ==== Sys2Proof/Machine/ServoOps.lean ====
section
/-! DEFINITION. The servo demodulator and the Press control engine of a Curd die: wedges, Press arithmetic, seeks, permissions, loads and
retracts (R327 to R358). Positions and errors are in 1/256 track. -/

namespace Sys2Proof.Machine

/-- The servo of C`g`. -/
def State.servo (s : State) (g : Nat) : Servo := (s.curd g).servo

/-- Change the servo of C`g`. -/
def modServo (g : Nat) (f : Servo → Servo) (s : State) : State := s.modCurd g (fun c => { c with servo := f c.servo })

/-- SERVO_STAT.STATE codes (R359). -/
def svParked : Nat := 0
/-- Loading. -/
def svLoading : Nat := 1
/-- Seeking. -/
def svSeeking : Nat := 2
/-- Settling. -/
def svSettling : Nat := 3
/-- Following. -/
def svFollowing : Nat := 4
/-- Unloading. -/
def svUnloading : Nat := 5
/-- Emergency retract. -/
def svRetract : Nat := 6
/-- Offline. -/
def svOffline : Nat := 7

/-- The state of the servo. -/
def State.svState (s : State) (g : Nat) : Nat := s.rdC g R.SERVO_STAT_STATE

/-- Enter a servo state. -/
def setSv (g st : Nat) (s : State) : State := s.wrC g R.SERVO_STAT_STATE st

/-- The heads are loaded and the position loop runs. -/
def State.svLoaded (s : State) (g : Nat) : Bool := decide (svSeeking ≤ s.svState g ∧ s.svState g ≤ svFollowing)

/-- The position loop runs: the heads are loaded, or a normal unload still seeks to track 0 (R351). -/
def State.svMoves (s : State) (g : Nat) : Bool := s.svLoaded g || (decide (s.svState g = svUnloading) && (s.servo g).homing)

/-- The point the position loop goes to: the target with its offset (R348), or track 0 in an unload (R351). -/
def Servo.aim (v : Servo) : Int := if v.homing then 0 else 256 * (v.target : Int) + v.offset

/-! ## Press arithmetic (R333 to R335) -/

/-- The accumulator held to its 40-bit range, and whether it had to be. -/
def satAcc (x : Int) : Int × Bool :=
  if x < -(2 ^ 39) then (-(2 ^ 39), true) else if 2 ^ 39 ≤ x then (2 ^ 39 - 1, true) else (x, false)

/-- A multiply-accumulate of one product (R334). -/
def macc (a : Int × Bool) (p : Int) : Int × Bool :=
  let r := satAcc (a.1 + p)
  (r.1, a.2 || r.2)

/-- A store (R335): a quotient by 2^15 rounded to nearest with ties to even, held to Q1.15, and whether it had to be. -/
def storeQ (a : Int) : Int × Bool :=
  let q := a / 32768
  let r := a % 32768
  let v := if 16384 < r ∨ (r = 16384 ∧ q % 2 = 1) then q + 1 else q
  if v < -32768 then (-32768, true) else if 32767 < v then (32767, true) else (v, false)

/-- A filter section (R334): its coefficients b0, b1, b2, a1, a2, the shift, the input and the states x1, x2, y1, y2: the output, and the
accumulator and store saturation flags. -/
def section5 (c : List Int) (shift : Nat) (x : Int) (st : Int × Int × Int × Int) : Int × Bool × Bool :=
  let k (i : Nat) : Int := c.getD i 0
  let a := [k 0 * x, k 1 * st.1, k 2 * st.2.1, -(k 3 * st.2.2.1), -(k 4 * st.2.2.2)].foldl macc (0, false)
  let b := satAcc (a.1 * 2 ^ shift)
  let y := storeQ b.1
  (y.1, a.2 || b.2, y.2)

/-- The cosine of an angle, both in units of 2^-60, for angles of up to a half turn: its series, far past the precision of Q1.15. -/
def cosine (x : Int) : Int :=
  ((List.range 20).foldl (fun (a : Int × Int) i =>
    (a.1 + a.2, -(a.2 * x / 2 ^ 60 * x / 2 ^ 60) / ((2 * (i : Int) + 1) * (2 * (i : Int) + 2)))) (0, 2 ^ 60)).1

/-- atan(2^-i) for i = 0 to 23, in units of 2^-32 turn. -/
def atanTable : List Int :=
  [536870912, 316933406, 167458907, 85004756, 42667331, 21354465, 10679838, 5340245, 2670163, 1335087, 667544, 333772, 166886, 83443, 41722,
   20861, 10430, 5215, 2608, 1304, 652, 326, 163, 81]

/-- atan2 of two amplitudes in units of 2^-32 turn (R331), by rotations of the vector towards its axis; of (0, 0), which has no angle, 0. -/
def turnOf (n q : Int) : Int :=
  let start : Int := if 0 ≤ q then 0 else if 0 ≤ n then 2 ^ 31 else -(2 ^ 31)
  let x : Int := if 0 ≤ q then q * 2 ^ 32 else -(q * 2 ^ 32)
  let y : Int := if 0 ≤ q then n * 2 ^ 32 else -(n * 2 ^ 32)
  if n = 0 ∧ 0 ≤ q then 0
  else ((List.range 24).foldl (fun (a : Int × Int × Int) i =>
    let t := atanTable.getD i 0
    if 0 ≤ a.2.1 then (a.1 + a.2.1 / 2 ^ i, a.2.1 - a.1 / 2 ^ i, a.2.2 + t) else (a.1 - a.2.1 / 2 ^ i, a.2.1 + a.1 / 2 ^ i, a.2.2 - t)) (x, y, start)).2.2

/-- A coefficient of the bank in use, as a signed word. -/
def State.coef (s : State) (g k : Nat) : Int := sgn 16 (s.rdC g (R.PRESS_BANK_V (s.servo g).bank k))

/-- Words of the bank in use. -/
def State.coefs (s : State) (g k n : Nat) : List Int := (List.range n).map (fun i => s.coef g (k + i))

/-- The shift of a section: where the table keeps it among words 72 to 79 is not stated, so it is a free value of those words. -/
def State.sectionShift (s : State) (g sec : Nat) : Nat :=
  Config.openNat 50 (sec :: (s.coefs g 72 8).map Int.natAbs) % 9

/-- Run four sections in a row, from coefficient word `base` and section number `sec`; flags go to PRESS_STAT. -/
def runSections (g base sec : Nat) (x : Int) (s : State) : Int × State :=
  (List.range 4).foldl (fun (acc : Int × State) i =>
    let s := acc.2
    let st := assocGet (sec + i) (0, 0, 0, 0) (s.servo g).sections
    let r := section5 (s.coefs g (base + 5 * i) 5) (s.sectionShift g (sec + i)) acc.1 st
    let s := modServo g (fun v => { v with sections := assocPut (sec + i) (acc.1, st.1, r.1, st.2.2.1) v.sections }) s
    let s := if r.2.1 then s.wrC g R.PRESS_STAT_ACCOVF 1 else s
    let s := if r.2.2 then s.wrC g R.PRESS_STAT_STORESAT 1 else s
    (r.1, s)) (x, s)

/-- A number held within a limit either way, and whether it had to be. -/
def limit (m : Nat) (x : Int) : Int × Bool := if x < -(m : Int) then (-(m : Int), true) else if (m : Int) < x then ((m : Int), true) else (x, false)

/-! ## The ACT port (R341) -/

/-- Send a frame: TYPE, the frame count, VALUE. -/
def actFrame (g typ : Nat) (value : Int) (s : State) : State :=
  let n := (s.servo g).fseq
  (modServo g (fun v => { v with fseq := (n + 1) % 16 }) s).emit (.act g (typ * 2 ^ 20 + n * 2 ^ 16 + unsgn 16 value))

/-- Set RET_N (R57). -/
def setRetN (g : Nat) (high : Bool) (s : State) : State := (s.modCurd g (fun c => { c with retN := high })).wrC g R.FMT_STAT_RETRACT (bit (! high))

/-! ## Permissions (R347, R349) -/

/-- Clear the write permission: an open write gate is withdrawn; clearances during write runs are counted. -/
def clearWrok (g : Nat) (s : State) : State :=
  if s.bitC g R.SERVO_STAT_WROK then
    let s := s.wrC g R.SERVO_STAT_WROK 0
    showFmt g (withdrawGate g false (if s.writing g then s.incC g R.SERVO_WCNT_WRINH else s))
  else s

/-- Clear both permissions, with their counts. -/
def clearPermits (g : Nat) (s : State) : State :=
  clearWrok g ((modServo g (fun v => { v with rdRun := 0, wrRun := 0 }) s).wrC g R.SERVO_STAT_RDOK 0)

/-! ## Failures, unloads and retracts (R351 to R354) -/

/-- A failure of R354: the third in a row takes the group offline; an unload in progress is completed first. -/
def servoFailure (g : Nat) (s : State) : State :=
  let s := modServo g (fun v => { v with fails := v.fails + 1 }) s
  if 3 ≤ (s.servo g).fails then groupOffline g (curdRaise g 0x1A 0 (if s.svState g = svUnloading then s else setSv g svOffline s)) else s

/-- The heads leave the media: no permission, the microactuator at 0, and every run refused (R343, R353). -/
def leaveMedia (g : Nat) (s : State) : State :=
  let s := (clearPermits g s).wrC g R.PRESS_MA_MADMD 0
  let s := modServo g (fun v => { v with ramp := none, restart := false, held := none, good := 0, expect := none, wrapped := false, excess := 0, homing := false }) s
  refuseAll g s

/-- The Curd island drives RET_N low at once (R352): counted where the heads were off the ramp. -/
def emergencyRetract (g : Nat) (s : State) : State :=
  if (s.curd g).retN then
    let s := setRetN g false (leaveMedia g (s.incC g R.SERVO_ECNT_EMRET))
    setSv g svRetract (modServo g (fun v => { v with mayLoad := false, reload := false }) s)
  else s

/-- The servo is lost (R332, R354). -/
def servoLost (g : Nat) (s : State) : State :=
  let s := curdRaise g 0x19 (s.rdC g R.SERVO_POS_TRACK) (s.incC g R.SERVO_ECNT_LOST)
  let early := decide (s.now < (s.servo g).loadedAt + 10000000)
  let s := emergencyRetract g s
  if early then servoFailure g s else s

/-- The unload is complete: a disable frame, and RET_N low (R351); a group offline stays so (R354). -/
def endUnload (g : Nat) (s : State) : State :=
  let s := setRetN g false (actFrame g 3 0 s)
  setSv g (if 3 ≤ (s.servo g).fails then svOffline else svParked) (modServo g (fun v => { v with mayLoad := false, homing := false }) s)

/-- A load has failed, and is tried again (R345, R354). -/
def failLoad (g : Nat) (s : State) : State :=
  let s := setRetN g false (actFrame g 3 0 ((leaveMedia g s).incC g R.SERVO_ECNT_LOADFAIL))
  servoFailure g (setSv g svParked (modServo g (fun v => { v with mayLoad := false, reload := true }) s))

/-! ## Targets and seeks (R344, R346, R348, R355) -/

/-- Start a seek to a track: the planner starts from the present estimate, at its speed where a seek or settle is cut short (R355); the limits
are read now (R346). -/
def startSeek (g track : Nat) (s : State) : State :=
  let acc := s.rdC g R.PRESS_SEEK_ACCMAX
  let low := acc * (s.fmt g).seekPct / 100
  let vel := s.rdC g R.PRESS_SEEK_VELMAX
  let going := decide (s.svState g = svSeeking ∨ s.svState g = svSettling)
  let s := (clearPermits g s).wrC g R.PRESS_MA_MADMD 0
  setSv g svSeeking (modServo g (fun v => { v with
    target := track, ref := v.est, plan := if going then v.vel else 0, accMax := min acc low, velMax := vel, settle := 0, excess := 0 }) s)

/-- A normal unload begins (R351): no permission, every run refused (R353), and a seek to track 0; the arm then goes onto the ramp. -/
def startUnload (g : Nat) (s : State) : State :=
  if s.svLoaded g then
    let s := modServo g (fun v => { v with offset := 0, ramp := none, restart := false, held := none, homing := true }) (refuseAll g (clearPermits g s))
    setSv g svUnloading (startSeek g 0 s)
  else s

/-- Settle without a seek (R348): the counts start anew, the microactuator path with zero states (R343). -/
def startSettle (g : Nat) (s : State) : State :=
  setSv g svSettling (modServo g (fun v => { v with
    settle := 0, sections := v.sections.filter (fun x => x.1 < 8) }) (clearPermits g s))

/-- A target request (R346, R355): during a soft start it waits for its end. -/
def requestTarget (g surf track : Nat) (s : State) : State :=
  let s := s.wrC g R.SERVO_STAT_SURF surf
  if s.svLoaded g then
    if (s.servo g).ramp.isSome ∨ (s.servo g).restart then modServo g (fun v => { v with held := some track }) s else startSeek g track s
  else modServo g (fun v => { v with target := track }) s

/-- The offset of the target that the formatter's work asks for (R348): rung 6's, or the write jog of the zone during a write run. -/
def State.wantedOffset (s : State) (g : Nat) : Int :=
  match s.findSec g (fun x => decide (x.stage = .waiting ∧ x.rung = 6)) with
  | some q => if q.2.2.shots = 0 then (s.rdC g R.CHAN_LADDER_OTOFS : Int) else -(s.rdC g R.CHAN_LADDER_OTOFS : Int)
  | none =>
    match (s.fmt g).current with
    | some r => if r.op = 2 ∨ r.op = 5 then sgn 16 (s.rdC g (R.PRESS_SURF_V r.surf (32 + r.zone))) else 0
    | none => 0

/-- The servo follows the formatter's work: the offset, and which write limits hold (R348, R350). -/
def refreshServo (g : Nat) (s : State) : State :=
  let off := s.wantedOffset g
  let sh := match (s.fmt g).current with
    | some r => ((s.groupZone g r.surf r.zone).map Zone.shingled).getD false
    | none => false
  let was := (s.servo g).offset
  let s := modServo g (fun v => { v with offset := off, shingled := sh }) s
  if off ≠ was ∧ (s.svState g = svFollowing ∨ s.svState g = svSettling) then startSettle g s else s

/-- Mean interval of the last accepted marks in ns (R329). -/
def Servo.period (v : Servo) : Nat := if v.intervals.isEmpty then 0 else v.intervals.sum / v.intervals.length

/-- The spindle speed by wedge timing (R329). -/
def State.svRpm (s : State) (g : Nat) : Nat :=
  let p := (s.servo g).period
  if p = 0 then 0 else 60000000000 / ((s.servo g).wedges * p)

/-- Servo bits per second of the surfaces now (R328), in Mb/s times 7,200. -/
def State.servoRate (s : State) (g : Nat) : Nat := (s.servo g).svrate * s.svRpm g

/-- One step of the seek plan (R346): planned speed and reference. -/
def seekStep (v : Servo) : Int × Int :=
  let d := v.aim - v.ref
  let p := v.period
  let a := 256 * v.accMax * p * p / 10 ^ 12
  let vm := 256 * v.velMax * p / 10 ^ 6
  let n := min (min vm (Nat.sqrt (2 * a * d.natAbs))) (min (v.plan.natAbs + a) d.natAbs)
  let sp : Int := if d < 0 then -(n : Int) else n
  (sp, v.ref + sp)

/-- The bank for a speed (R340), kept until the speed is 120 rpm past the edge. -/
def nextBank (cur rpm : Nat) : Nat :=
  if cur = 0 then (if rpm ≤ 4680 then 2 else if rpm ≤ 5880 then 1 else 0)
  else if cur = 1 then (if 6120 ≤ rpm then 0 else if rpm ≤ 4680 then 2 else 1)
  else (if 6120 ≤ rpm then 0 else if 4920 ≤ rpm then 1 else 2)

/-- The weight w(k) = (1 - cos(pi k / K)) / 2 of a soft start (R344), to the nearest Q1.15 value. -/
def rampWeight (k n : Nat) : Nat :=
  if n ≤ k then 32768 else ((2 ^ 60 - cosine (3622009729038561421 * k / n) + 2 ^ 45) / 2 ^ 46).toNat

/-! ## A wedge (R327 to R332) -/

/-- The two check bits of a field of `n` bits (R327): bit 1 the XOR of its odd-numbered bits, bit 0 of its even-numbered ones. -/
def checkBits (n v : Nat) : Nat :=
  let par (r : Nat) : Nat := ((List.range n).filter (fun i => decide (i % 2 = r) && v.testBit i)).length % 2
  2 * par 1 + par 0

/-- A Gray code of 24 bits as a number: each bit is the XOR of the code's bits at and above it. -/
def grayNat (c : Nat) : Nat :=
  (List.range 24).foldl (fun a i => a + (if ((List.range (24 - i)).filter (fun j => c.testBit (i + j))).length % 2 = 1 then 2 ^ i else 0)) 0

/-- The fraction of a track that the bursts give (R331), -128 to 127: atan2 of the two bursts, corrected by the surface's table; where its 32
points lie and how they correct is not stated, so the corrected fraction is a free value of the angle and the table's words. -/
def State.burstFrac (s : State) (g : Nat) (w : Wedge) : Int :=
  Config.openInt 40 ([turnOf w.n w.q] ++ (List.range 32).map (fun i => sgn 16 (s.rdC g (R.PRESS_SURF_V (s.rdC g R.SERVO_STAT_SURF) i)))) % 256 - 128

/-- The measured position (R331): the candidate nearest the prediction, less the RRO value. -/
def State.measured (s : State) (g : Nat) (w : Wedge) (pred : Int) : Int :=
  let t := (grayNat w.gray : Int)
  let f := s.burstFrac g w
  let c (k : Int) : Int := 256 * (t + k) + f
  let best := if (c (-1) - pred).natAbs < (c 0 - pred).natAbs then c (-1) else c 0
  let best := if (c 1 - pred).natAbs < (best - pred).natAbs then c 1 else best
  best - sgn 16 w.rro

/-- The burst amplitude passes QMIN (R332). -/
def State.burstOk (s : State) (g : Nat) (w : Wedge) : Bool :=
  let m := s.rdC g R.SERVO_WIN_QMIN
  decide (m = 0 ∨ (m * w.amp) ^ 2 ≤ 256 * (w.n.natAbs ^ 2 + w.q.natAbs ^ 2))

/-- SERVO_PES.QUAL of a wedge (R359). -/
def wedgeQual (w : Wedge) : Nat := if w.amp = 0 then 0 else min 255 (Nat.sqrt (4096 * (w.n.natAbs ^ 2 + w.q.natAbs ^ 2) / w.amp ^ 2))

/-- The track the estimator predicts. -/
def predTrack (pred : Int) : Int := (pred + 128) / 256

/-- A wedge is good (R330, R332): the mark is accepted, the checks hold, the number is the predicted one, the track ID lies within its tolerance
(not tested before the position loop runs) and the bursts are strong enough; its computation was not drained (R356). -/
def State.wedgeGood (s : State) (g : Nat) (w : Wedge) (pred : Int) : Bool :=
  let v := s.servo g
  let tol := s.rdC g R.SERVO_WIN_IDTOL + (if s.svState g = svSeeking ∨ v.homing then ceilDiv v.vel.natAbs 16384 else 0)
  ! w.drained && (bestMark (s.rdC g R.SERVO_WIN_SAMWIN) 2 w.marks).isSome && decide (w.numCheck = checkBits 10 w.num) &&
  decide (w.rroCheck = checkBits 16 w.rro) && decide (w.num < (s.servo g).wedges) && decide (v.expect.getD w.num = w.num) &&
  (! s.svMoves g || decide (((grayNat w.gray : Int) - predTrack pred).natAbs ≤ tol)) && s.burstOk g w

/-- The wedge numbers do not wrap at WEDGES (R330): a number of WEDGES or more, or a 0 where another number was due, in a load whose wrap has
not been confirmed. -/
def State.formatMismatch (s : State) (g : Nat) (w : Wedge) : Bool :=
  let v := s.servo g
  ! w.drained && (bestMark (s.rdC g R.SERVO_WIN_SAMWIN) 2 w.marks).isSome && decide (w.numCheck = checkBits 10 w.num) && ! v.wrapped &&
  (decide ((s.servo g).wedges ≤ w.num) || (decide (w.num = 0) && decide (v.expect.getD 0 ≠ 0)))

/-- The estimator's prediction, and with a measurement its correction (R336): the equations are the Press table's own, so position, speed and bias
are free values of the bank's words and the inputs. -/
def estimate (g : Nat) (y : Option Int) (s : State) : State :=
  let v := s.servo g
  let ops := s.coefs g 0 8 ++ [v.est, v.vel, v.bias, v.setp] ++ y.toList
  let k (i : Nat) : Int := Config.openInt (i + if y.isSome then 3 else 0) ops
  modServo g (fun v => { v with est := k 41, vel := k 42, bias := k 43 }) s

/-- The outer loop and the microactuator path at a servo sample (R336, R343, R344): reference less estimate through the compensator and the
notches, feedforward, the soft start's blend, and the limits. The scale of the error, KFF and the microactuator's gain have no stated form:
free values of the bank's words. -/
def outerLoop (g : Nat) (reference ff : Int) (s : State) : State :=
  let v := s.servo g
  let words := s.coefs g 72 8
  let e := reference - v.est + v.excess
  let x := (limit 32767 (Config.openInt 55 (e :: words))).1
  let c := runSections g 8 0 x s
  let n := runSections g 28 4 c.1 c.2
  let u := n.1 + Config.openInt 51 (ff :: words)
  let u := match v.ramp with
    | some (k, _, i0, _) => i0 + (rampWeight k ((s.servo g).rampw) : Int) * (u - i0) / 32768
    | none => u
  let l := limit (s.rdC g R.PRESS_IMAX_IMAX) u
  let s := modServo g (fun v => { v with setp := l.1, excess := 0 }) n.2
  let s := if l.2 then s.wrC g R.PRESS_STAT_VCMSAT 1 else s
  if s.svState g = svSettling ∨ s.svState g = svFollowing then
    let m := runSections g 52 8 x s
    let r := limit (s.rdC g R.PRESS_MASTROKE_MALIM) m.1
    let s := m.2.wrC g R.PRESS_MA_MADMD (unsgn 16 r.1)
    if r.2 then modServo g (fun v => { v with excess := Config.openInt 56 ((m.1 - r.1) :: words) }) (s.wrC g R.PRESS_STAT_MASAT 1) else s
  else s.wrC g R.PRESS_MA_MADMD 0

/-- PES lies within the write limits (R350). -/
def State.withinWrite (s : State) (g : Nat) (pes : Int) : Bool :=
  let lo := s.rdC g (if (s.servo g).shingled then R.SERVO_LIM_SHOUT else R.SERVO_LIM_WRLIM)
  decide (-(lo : Int) ≤ pes ∧ pes ≤ (s.rdC g R.SERVO_LIM_WRLIM : Int))

/-- The permissions after a good wedge with this PES (R347, R349). -/
def permitWedge (g : Nat) (pes : Int) (s : State) : State :=
  let rd := decide (pes.natAbs ≤ s.rdC g R.SERVO_LIM_RDLIM)
  let wr := s.withinWrite g pes
  let s := modServo g (fun v => { v with rdRun := if rd then v.rdRun + 1 else 0, wrRun := if wr then v.wrRun + 1 else 0 }) s
  let v := s.servo g
  let s := if s.svState g = svSettling ∧ s.rdC g R.SERVO_LIM_RDCNT ≤ v.rdRun then
      modServo g (fun v => { v with timeouts := 0 }) (setSv g svFollowing (s.wrC g R.SERVO_STAT_RDOK 1))
    else if s.svState g = svFollowing then
      (if ! rd then s.wrC g R.SERVO_STAT_RDOK 0 else if s.rdC g R.SERVO_LIM_RDCNT ≤ v.rdRun then s.wrC g R.SERVO_STAT_RDOK 1 else s)
    else s
  if ! wr then clearWrok g s
  else if s.svState g = svFollowing ∧ s.rdC g R.SERVO_LIM_WRCNT ≤ v.wrRun then s.wrC g R.SERVO_STAT_WROK 1 else s

/-- The reference of this wedge (R336, R344, R346), and the change of planned speed it feeds forward. -/
def advanceRef (g : Nat) (s : State) : Int × Int × State :=
  let v := s.servo g
  let centre := v.aim
  match v.ramp with
  | some (k, y0, i0, t) =>
    let n := (s.servo g).rampw
    let r := y0 + (rampWeight k n : Int) * (t - y0) / 32768
    let s := modServo g (fun v => { v with ref := r, ramp := if n ≤ k then none else some (k + 1, y0, i0, t) }) s
    let s := if n ≤ k then
        (match v.held with
         | some tr => startSeek g tr (modServo g (fun v => { v with held := none }) s)
         | none => s)
      else s
    (r, 0, s)
  | none =>
    if s.svState g = svSeeking ∨ v.homing then
      let p := seekStep v
      let s := modServo g (fun v => { v with plan := p.1, ref := p.2 }) s
      let s := if p.2 = centre ∧ (v.est - centre).natAbs ≤ 256 * s.rdC g R.PRESS_SETTLE_TRK then
          (if v.homing then modServo g (fun v => { v with homing := false, good := 0, expect := none, wrapped := false }) s else startSettle g s)
        else s
      (p.2, p.1 - v.plan, s)
    else (centre, 0, s)

/-- A settle has run for SETTLETO wedges without RDOK (R347): it restarts as a seek, and the third in a row unloads and loads again. -/
def settleTimeout (g : Nat) (s : State) : State :=
  let s := modServo g (fun v => { v with timeouts := v.timeouts + 1 }) (s.incC g R.SERVO_ECNT_SETTO)
  if 3 ≤ (s.servo g).timeouts then
    servoFailure g (startUnload g (modServo g (fun v => { v with timeouts := 0, reload := true }) s))
  else startSeek g (s.servo g).target s

/-- The first good wedge after a load or a Press reset starts the soft start (R344, R356). -/
def startRamp (g : Nat) (y coil : Int) (load : Bool) (s : State) : State :=
  let near := predTrack y
  let s := modServo g (fun v => { v with
    est := y, vel := 0, bias := 0, integ := 0, sections := [], restart := false, reload := v.reload && ! load, rampw := s.rdC g R.PRESS_RAMP_RAMPW
    target := if load then near.toNat else v.target
    ramp := some (0, y, coil, if load then 256 * near else 256 * (v.target : Int) + v.offset) }) s
  if load then startSettle g (modServo g (fun v => { v with loadedAt := s.now }) s) else s

/-- A good wedge. -/
def goodWedge (g : Nat) (w : Wedge) (pred : Int) (s : State) : State :=
  let wedges := (s.servo g).wedges
  let loading := decide (s.svState g = svLoading)
  let y := s.measured g w (if loading then 256 * (grayNat w.gray : Int) else pred)
  let s := (s.wrC g R.SERVO_STAT_WEDGE w.num).wrC g R.SERVO_STAT_MISSRUN 0
  let s := ((s.wrC g R.SERVO_POS_TRACK (y / 256).toNat).wrC g R.SERVO_POS_FRAC (y % 256).toNat).wrC g R.SERVO_PES_QUAL (wedgeQual w)
  let s := modServo g (fun v => { v with
    expect := some ((w.num + 1) % wedges), wrapped := v.wrapped || decide (w.num = 0 ∧ v.expect = some 0)
    good := v.good + 1, drained := 0 }) s
  if loading then
    if 4 ≤ (s.servo g).good then startRamp g y w.coil true s else s
  else
    let s := if (s.servo g).restart then startRamp g y w.coil false s else estimate g (some y) s
    let v := s.servo g
    let pes := y - (256 * (v.target : Int) + v.offset)
    let s := s.wrC g R.SERVO_PES_PES (unsgn 16 pes)
    if s.svState g = svSettling ∨ s.svState g = svFollowing then 
      (if v.ramp.isNone then permitWedge g pes s
       else if s.rdC g R.SERVO_LIM_RDLIM < pes.natAbs then s.wrC g R.SERVO_STAT_RDOK 0 else s) else s

/-- A bad wedge (R332, R339, R349): the prediction stands, the write permission is cleared, and LOSTMAX in a row lose the servo. A drained one
repeats the last frame, and the second in a row resets the Press (R356). -/
def badWedge (g : Nat) (w : Wedge) (s : State) : State :=
  let wedges := (s.servo g).wedges
  let s := s.wrC g R.SERVO_STAT_MISSRUN (min 15 (s.rdC g R.SERVO_STAT_MISSRUN + 1))
  let s := if s.svMoves g then s.incC g R.SERVO_WCNT_BAD else s
  let s := clearWrok g (modServo g (fun v => { v with
    expect := v.expect.map (fun n => (n + 1) % wedges), good := 0, rdRun := 0, wrRun := 0, drained := if w.drained then v.drained + 1 else 0 }) s)
  let s := if w.drained then
      let s := actFrame g 1 (sgn 16 (s.rdC g R.PRESS_IO_VDMD)) (s.incC g R.PRESS_DRAIN_DRAINS)
      if 2 ≤ (s.servo g).drained then
        let s := modServo g (fun v => { v with drained := 0, restart := true, sections := [], integ := 0, ramp := none, excess := 0 }) (s.incC g R.PRESS_DRAIN_RESETS)
        { s with todo := s.todo ++ [.unitReset (.press g)] }
      else s
    else s
  if s.svMoves g ∧ s.rdC g R.SERVO_CFG_LOSTMAX ≤ s.rdC g R.SERVO_STAT_MISSRUN then servoLost g s else s

/-- WEDGE_SAMPLE (R329 to R350): the demodulator, the estimator, the outer loop and the microactuator path at the servo sample of a wedge. -/
def wedge (g : Nat) (w : Wedge) (s : State) : State :=
  if s.svState g = svLoading ∨ s.svMoves g then
    let s := s.wrC g R.PRESS_LAT_WORST (max (s.rdC g R.PRESS_LAT_WORST) (min 255 w.lat40ns))
    if s.formatMismatch g w then
      let s := curdRaise g 0x18 w.num s
      if s.svState g = svLoading then failLoad g s else servoFailure g (emergencyRetract g s)
    else
      let s := if (bestMark (s.rdC g R.SERVO_WIN_SAMWIN) 2 w.marks).isSome ∧ ! w.drained then
          modServo g (fun v => { v with intervals := (w.interval :: v.intervals).take 8 }) s
        else s
      let s := if s.svState g = svLoading then s else estimate g none s
      let pred := (s.servo g).est
      let s := if s.wedgeGood g w pred then goodWedge g w pred s else badWedge g w s
      if s.svMoves g then
        let b := nextBank (s.servo g).bank (s.svRpm g)
        let s := if s.svState g = svFollowing then (modServo g (fun v => { v with bank := b }) s).wrC g R.SERVO_STAT_BANK b else s
        let r := advanceRef g s
        let s := outerLoop g r.1 r.2.1 r.2.2
        let s := if s.svState g = svSettling ∧ (s.servo g).ramp.isNone then modServo g (fun v => { v with settle := v.settle + 1 }) s else s
        let s := if s.svState g = svSettling ∧ s.rdC g R.PRESS_SETTLE_SETTLETO ≤ (s.servo g).settle then settleTimeout g s else s
        showFmt g (if s.svRpm g < 3400 ∧ (s.servo g).intervals.length = 8 then startUnload g s else s)
      else showFmt g s
  else s

/-- An inner-loop instant (R336, R341, R342): the PI controller has no stated form, so its output and its integrator are free values of the bank's
words, the set-point and the current. Off the media (a load before its soft start, an unload past track 0) the demand is that of the velocity
control of R345 and R351, whose law is not stated either: a free value of the last demand, the current and the bank's words. -/
def innerLoop (g : Nat) (isns : Int) (lat40ns : Nat) (s : State) : State :=
  if (s.curd g).retN then
    let v := s.servo g
    let i := (limit 32767 isns).1
    let ops := s.coefs g 48 4 ++ [v.setp, i, v.integ]
    let ramp := ! s.svMoves g
    let u := (limit 32767 (if ramp then Config.openInt 85 ([sgn 16 (s.rdC g R.PRESS_IO_VDMD), i] ++ s.coefs g 51 1 ++ s.coefs g 72 8) else Config.openInt 53 ops)).1
    let s := if ramp then s else modServo g (fun v => { v with integ := Config.openInt 54 ops }) s
    let s := (s.wrC g R.PRESS_IO_VDMD (unsgn 16 u)).wrC g R.PRESS_IO_IMEAS (unsgn 16 i)
    let s := s.wrC g R.PRESS_LAT_WORST (max (s.rdC g R.PRESS_LAT_WORST) (min 255 lat40ns))
    actFrame g 1 u s
  else s

/-- A load may start (R345, R353, R354): parked with the hold over, its cause cleared, spindle at 3,600 rpm or more, the synthesiser locked, and the
group in the active count. -/
def State.canLoad (s : State) (g : Nat) : Bool :=
  decide (s.svState g = svParked) && (s.servo g).mayLoad && ! (s.curd g).railLow && ! (s.curd g).inReset && (s.fmt g).lock && (s.fmt g).active &&
  decide (3600 ≤ s.rdC 0 R.SPIN_STAT_RPM)

/-- A load starts (R345): RET_N high, an enable frame, and the arm leaves the ramp. The bank is chosen by speed while parked (R340). -/
def startLoad (g : Nat) (s : State) : State :=
  let b := nextBank (s.servo g).bank (s.rdC 0 R.SPIN_STAT_RPM)
  let s := (modServo g (fun v => { v with bank := b, wedges := s.rdC g R.SERVO_CFG_WEDGES, svrate := s.rdC g R.SERVO_CFG_SVRATE, good := 0, expect := none, wrapped := false, intervals := [], integ := 0, sections := [] }) s).wrC g
    R.SERVO_STAT_BANK b
  showFmt g (setSv g svLoading (actFrame g 2 0 (setRetN g true (s.wrC g R.SERVO_STAT_MISSRUN 0))))

/-- Function reset of the Press (R356, R553): loop states cleared, and a soft start at the next good wedge. -/
def resetPress (g : Nat) (s : State) : State :=
  modServo g (fun v => { v with restart := true, sections := [], integ := 0, ramp := none, excess := 0, drained := 0 }) (s.incC g R.PRESS_DRAIN_RESETS)

/-- Apply a group order (R532). -/
def applyOrder (g w0 : Nat) (s : State) : State :=
  let act := decide ((w0 / 2 ^ 21) % 2 = 1)
  let s := modFmt g (fun f => { f with active := act, seekPct := clampNat 1 100 (w0 % 256) }) s
  let s := orderReaders g (clampNat 1 3 (w0 / 2 ^ 22 % 4)) s
  if act then s else startUnload g s

end Sys2Proof.Machine
end

