-- ==== Sys2Proof/Machine/SpinOps.lean ====
section
/-! DEFINITION. The spindle keeper in C0: the observer, the bridge, starts, cooking, targets, ceilings and reports (R361 to R389). -/

namespace Sys2Proof.Machine

/-- Change the keeper. -/
def modSpin (f : Spin → Spin) (s : State) : State := { s with spin := f s.spin }

/-- SPIN_STAT.STATE codes (R390). -/
def spIdle : Nat := 0
/-- Measuring the windings. -/
def spMeasuring : Nat := 1
/-- Cooking. -/
def spCooking : Nat := 2
/-- Floating. -/
def spFloating : Nat := 3
/-- Sensing the position. -/
def spSensing : Nat := 4
/-- Open-loop ramp. -/
def spOpenLoop : Nat := 5
/-- Running. -/
def spRunning : Nat := 6
/-- Coasting. -/
def spCoasting : Nat := 7
/-- Braking. -/
def spBraking : Nat := 8
/-- Latched off (R388). -/
def spLatched : Nat := 9
/-- Failed (R376). -/
def spFailed : Nat := 10

/-- The keeper's state. -/
def State.spState (s : State) : Nat := s.rdC 0 R.SPIN_STAT_STATE

/-- Speed the observer reports. -/
def State.rpm (s : State) : Nat := s.rdC 0 R.SPIN_STAT_RPM

/-- The spindle report (R389): four words, on each link. -/
def spinReport (s : State) : State :=
  let r (f : Fld) : Nat := s.rdC 0 f
  let w0 := 4 * 2 ^ 28 + s.spState * 2 ^ 24 + r R.SPIN_STAT_LOCK * 2 ^ 23 + r R.SPIN_STAT_SPDOPEN * 2 ^ 22 + r R.SPIN_STAT_VMOTLOW * 2 ^ 21 +
    r R.SPIN_STAT_BRKDIS * 2 ^ 20 + s.rpm
  let w1 := r R.SPIN_TARGET_APPLIED * 2 ^ 16 + r R.SPIN_CEIL_CEIL
  let w2 := r R.SPIN_VMOT_VMOT * 2 ^ 16 + r R.SPIN_VMOT_PWR
  let w3 := r R.SPIN_HDA_TEMP * 2 ^ 16 + r R.SPIN_HDA_VALID * 2 ^ 15
  fromCurd 0 2 (s.spin.setEseq.getD 0) ([w0, w1, w2, w3].map (BitVec.ofNat 32)) s

/-- Enter a state of the keeper: a change is reported (R389). -/
def setSp (st : Nat) (s : State) : State := if s.spState = st then s else spinReport (s.wrC 0 R.SPIN_STAT_STATE st)

/-- Switch the bridge off and let the rotor coast. -/
def coast (s : State) : State := setSp spCoasting (modSpin (fun p => { p with bridge := false, brk := false, idRef := 0, iqRef := 0, brakeEnd := false }) s)

/-- A bridge-off that the keeper did not command: a start decision follows (R374, R383). -/
def loseBridge (s : State) : State := coast (modSpin (fun p => { p with due := true }) s)

/-- The C0 island holds the gate outputs and BRK low (R383). -/
def gatesOff (s : State) : State :=
  let s := modSpin (fun p => { p with bridge := false, brk := false, heldLow := true }) s
  if s.spState = spIdle ∨ s.spState = spLatched ∨ s.spState = spFailed then s else coast s

/-- Step 8 of the start (R374, R383): the bridge returns, and the start decision is due. -/
def keeperStart (s : State) : State := modSpin (fun p => { p with begun := true, due := true, heldLow := false, attempts := 0, floats := 0 }) s

/-! ## Current samples (R362 to R365) -/

/-- The PWM period in ns. -/
def Spin.period (p : Spin) : Nat := if p.pwm = 0 then 0 else 1000000 / p.pwm

/-- Acquisition time of a phase current in ns (R363). -/
def State.tAcq (s : State) : Nat := 600 + 10 * s.rdC 0 R.SPIN_PWM_SETTLE

/-- A phase's sampling window is too short (R363, R364). -/
def State.phaseSkipped (s : State) (duty : Nat) : Bool :=
  let t := s.spin.period
  decide (t * (1000000 - duty) < (s.tAcq + 20 * s.spin.dead) * 1000000)

/-- The clamp limit of the modulation depth in millionths (R365). -/
def State.depthClamp (s : State) : Nat :=
  let t := s.spin.period
  if t = 0 then 0 else (t - 2 * (s.tAcq + 20 * s.spin.dead)) * 1000000 / t

/-- The currents taken at a valley (R364): a skipped phase is minus the sum of the others, or with two skipped all are predictions. -/
def valleyCurrents (skip : List Bool) (v : Valley) : Int × Int × Int :=
  match skip with
  | [false, false, false] => (v.ia, v.ib, v.ic)
  | [true, false, false] => (-(v.ib + v.ic), v.ib, v.ic)
  | [false, true, false] => (v.ia, -(v.ia + v.ic), v.ic)
  | [false, false, true] => (v.ia, v.ib, -(v.ia + v.ib))
  | _ => (v.pa, v.pb, v.pc)

/-- Skips of a valley are counted (R364, R365): the third in a row of one phase clamps the next period; after a clamped period every count
restarts. -/
def countSkips (skip : List Bool) (s : State) : State :=
  let s := if skip.any id then s.incC 0 R.SPIN_CNT_SKIP else s
  let n := (skip.zip s.spin.skips).map (fun p => if p.1 then p.2 + 1 else 0)
  if s.spin.clamp then modSpin (fun p => { p with clamp := false, skips := [0, 0, 0] }) s
  else if n.any (fun k => decide (3 ≤ k)) then (modSpin (fun p => { p with clamp := true, skips := n }) s).incC 0 R.SPIN_CNT_CLAMP
  else modSpin (fun p => { p with skips := n }) s

/-! ## The observer's outputs (R368) -/

/-- The back-EMF is at or above the detection floor (R368). -/
def State.aboveFloor (s : State) (bemf : Nat) : Bool := decide (s.boot.board.ke * 60 ≤ bemf * 1000 ∧ 0 < bemf)

/-- LOCK, speed and direction (R368). -/
def observe (v : Valley) (s : State) : State :=
  let up := s.aboveFloor v.bemf
  let run := if up ∧ v.err.natAbs ≤ 10 then s.spin.lockRun + 1 else 0
  let lock := up && decide (v.err.natAbs ≤ 20) && (s.bitC 0 R.SPIN_STAT_LOCK || decide (32 ≤ run))
  let lead := if lock ∧ v.lead.natAbs ≤ 30 then s.spin.leadRun + 1 else 0
  let s := modSpin (fun p => { p with
    lockRun := run, leadRun := lead, bemf := v.bemf, belowSince := if up then none else some (p.belowSince.getD s.now) }) s
  let s := s.wrC 0 R.SPIN_STAT_LOCK (bit lock)
  let s := s.wrC 0 R.SPIN_STAT_DIR (bit (up && v.backward))
  s.wrC 0 R.SPIN_STAT_RPM (if up then min 0xFFFF v.rpm else 0)

/-! ## Targets (R378, R381) -/

/-- The rounding of a set-point (R378). -/
def roundSetpoint (v : Nat) : Nat := if v = 0 then 0 else if v < 3600 then 3600 else if 7200 < v then 7200 else v / 60 * 60

/-- The applied target (R378): the lower of the set-point and the ceiling. -/
def State.appliedTarget (s : State) : Nat := min (s.rdC 0 R.SPIN_TARGET_SETPT) (s.rdC 0 R.SPIN_CEIL_CEIL)

/-- Active braking is permitted (R384). -/
def State.mayBrake (s : State) : Bool := s.bitC 0 R.SPIN_CFG_BRKEN && s.bitC 0 R.SPIN_STAT_CHOPOK && ! s.bitC 0 R.SPIN_STAT_BRKDIS

/-- A flying catch (R377). -/
def catchRotor (s : State) : State :=
  let s := (modSpin (fun p => { p with bridge := true, idRef := 0, iqRef := 0, speedRef := 1000 * s.rpm, floats := 0, attempts := 0, still := 0 }) s).incC 0
    R.SPIN_CNT_CATCH
  setSp spRunning s

/-- A set-point (R373, R374, R378): rounded and stored; one whose ESEQ is behind the last is ignored; 0 ends cooking; a non-zero one to an idle or
failed spindle calls for a start decision. -/
def applySetpoint (eseq rpm : Nat) (s : State) : State :=
  let behind := match s.spin.setEseq with
    | some e => aheadMod (2 ^ 32) e eseq
    | none => false
  if behind then s
  else
    let v := roundSetpoint rpm
    let s := modSpin (fun p => { p with stored := true, setEseq := some eseq }) (s.wrC 0 R.SPIN_TARGET_SETPT v)
    if ! s.spin.begun then s
    else if v = 0 then
      (if s.spState = spCooking ∨ s.spState = spMeasuring ∨ s.spState = spSensing then setSp spIdle (modSpin (fun p => { p with still := 0, bridge := false, due := false }) s) else s)
    else if s.spState = spIdle ∨ s.spState = spFailed then modSpin (fun p => { p with due := true, attempts := 0 }) s
    else s

/-! ## A PWM valley (R363 to R368, R383 to R388) -/

/-- VMOT past VBRK2 (R388): all seven outputs low and latched. -/
def latchOff (s : State) : State :=
  let s := modSpin (fun p => { p with bridge := false, brk := false, latched := true, idRef := 0, iqRef := 0 }) (s.incC 0 R.SPIN_EVT_OVV2)
  setSp spLatched (curdRaise 0 0x29 (s.rdC 0 R.SPIN_VMOT_VMOT) s)

/-- VMOT past VBRK1 in braking (R387): the q reference goes to 0, the bridge off at the valley after, and BRKDIS is set. -/
def endBraking (s : State) : State :=
  let s := modSpin (fun p => { p with iqRef := 0, brakeEnd := true }) ((s.wrC 0 R.SPIN_STAT_BRKDIS 1).incC 0 R.SPIN_EVT_OVV1)
  curdRaise 0 0x2D (s.rdC 0 R.SPIN_VMOT_VMOT) s

/-- The chopper follows VMOT during braking, and is low otherwise (R386). -/
def chopper (s : State) : State :=
  let v := s.rdC 0 R.SPIN_VMOT_VMOT
  let c := s.rdC 0 R.SPIN_VTHR2_VCHOP
  modSpin (fun p => { p with brk := decide (s.spState = spBraking) && (decide (c < v) || (p.brk && decide (c ≤ v + 500))) }) s

/-- The cosine of an angle in millionths of a turn, in units of 2^-60. -/
def cosTurn (a : Nat) : Int :=
  let b := a % 1000000
  cosine (7244019458077122842 * (min b (1000000 - b) : Nat) / 1000000)

/-- The duties of a voltage vector (R365): its phase voltages, of a depth in millionths of VMOT over the root of 3 and at an angle in millionths of a
turn, centred about one half by the min-max zero sequence. -/
def dutiesOf (depth angle : Nat) : List Nat :=
  let u := [0, 666667, 333333].map (fun p => (depth : Int) * cosTurn (angle + p) / 1996930217371410432)
  let mid := (u.foldl max (u.getD 0 0) + u.foldl min (u.getD 0 0)) / 2
  u.map (fun x => (max 0 (min 1000000 (500000 + x - mid))).toNat)

/-- The current loop (R366, R367): duties for the next period. The controllers' gains are not stated, so the demanded depth and the angle are
free values of the currents, the references and VMOT, the depth held to what R365 and R366 allow; over 0.95 the field is weakened. -/
def currentLoop (i : Int × Int × Int) (s : State) : State :=
  let p := s.spin
  let ops := [i.1, i.2.1, i.2.2, p.idRef, p.iqRef, (s.rdC 0 R.SPIN_VMOT_VMOT : Int)].map (fun x => unsgn 32 x)
  let want := Config.openNat 60 ops % 1000001
  let depth := if p.clamp then min want s.depthClamp else want
  let angle := Config.openNat 61 ops % 1000000
  let half := s.rdC 0 R.SPIN_LIM_ILIM / 2
  let step := Config.openNat 64 ops % (half + 1)
  let idr : Int := if 950000 < want then max (-(half : Int)) (p.idRef - step) else min 0 (p.idRef + step)
  let s := modSpin (fun p => { p with duties := dutiesOf depth angle, idRef := if p.clamp then p.idRef else idr }) s
  let s := s.wrC 0 R.SPIN_STAT_FW (bit (s.spin.idRef < 0))
  s.wrC 0 R.SPIN_STAT_VLIM (bit (decide (s.spin.idRef = -(half : Int) ∧ 0 < half ∧ 1000 * s.rpm < s.spin.speedRef)))

/-- What the keeper's state does at a valley: hand-over (R376), the end of a coast (R381) and of braking (R384). -/
def valleyState (s : State) : State :=
  let t := s.rdC 0 R.SPIN_TARGET_APPLIED
  if s.spState = spOpenLoop then
    if 240000 ≤ s.spin.openRpm ∧ 32 ≤ s.spin.leadRun then
      setSp spRunning (modSpin (fun p => { p with iqRef := s.boot.board.istart, speedRef := 240000, attempts := 0, still := 0 }) s)
    else s
  else if s.spState = spCoasting then
    if t = 0 ∧ s.spin.stored then (if s.spin.belowSince.isSome then setSp spIdle s else s)
    else if ! s.spin.due ∧ ! s.spin.heldLow ∧ ! s.bitC 0 R.SPIN_STAT_VMOTLOW ∧ 300 ≤ s.rpm ∧ s.rpm ≤ t + 30 ∧ s.bitC 0 R.SPIN_STAT_LOCK ∧
        ! s.bitC 0 R.SPIN_STAT_DIR then catchRotor s
    else s
  else if s.spState = spBraking then
    if t = 0 then (if s.rpm ≤ 300 then coast s else s)
    else if s.rpm ≤ t then setSp spRunning (modSpin (fun p => { p with iqRef := 0, speedRef := 1000 * t }) s) else s
  else s

/-- VMOT in mV from the 12 bits of the sense converter over 1.8 V and the divider ratio in thousandths (R60, R361). -/
def State.vmotOf (s : State) (code : Nat) : Nat := min 4095 code * 1800 * s.boot.board.vdiv / 4096000

/-- The device is in reset (R70): power-on reset, or RESET_N low. -/
def State.inReset (s : State) : Bool := ! (s.pins.por && s.pins.resetN)

/-- PWM_VALLEY: samples, observer, thresholds, chopper, current loop (R363 to R368, R383 to R388). -/
def valley (v : Valley) (s : State) : State :=
  let vmot := s.vmotOf v.vmot
  let s := s.wrC 0 R.SPIN_VMOT_VMOT (min 0xFFFF vmot)
  let s := if s.spin.bridge then s else modSpin (fun p => { p with pwm := s.rdC 0 R.SPIN_PWM_PWMKHZ, dead := s.rdC 0 R.SPIN_PWM_DEAD }) s
  let turning := s.spin.bridge && decide (s.spState = spOpenLoop ∨ s.spState = spRunning ∨ s.spState = spBraking)
  let skip := if turning then s.spin.duties.map s.phaseSkipped else [false, false, false]
  let s := observe v (if turning then countSkips skip s else s)
  let i := valleyCurrents skip v
  let pw : Int := if s.spin.bridge then
      (((s.spin.duties.getD 0 0 : Nat) : Int) * i.1 + ((s.spin.duties.getD 1 0 : Nat) : Int) * i.2.1 + ((s.spin.duties.getD 2 0 : Nat) : Int) * i.2.2) *
        vmot / 10000000000
    else 0
  let s := modSpin (fun p => { p with pwrSum := p.pwrSum + pw.toNat, pwrN := p.pwrN + 1 }) s
  if s.spin.latched then s
  else if 0 < s.rdC 0 R.SPIN_VTHR1_VBRK2 ∧ s.rdC 0 R.SPIN_VTHR1_VBRK2 < vmot then latchOff s
  else if ! s.spin.begun then s
  else
    let s := if s.spin.brakeEnd then coast s
      else if s.spState = spBraking ∧ s.rdC 0 R.SPIN_VTHR1_VBRK1 < vmot then endBraking s else s
    let s := valleyState (chopper s)
    if s.spin.bridge ∧ (s.spState = spOpenLoop ∨ s.spState = spRunning ∨ s.spState = spBraking) then
      if v.drained then
        let s := modSpin (fun p => { p with drained := p.drained + 1 }) s
        if 2 ≤ s.spin.drained then
          let s := loseBridge (modSpin (fun p => { p with drained := 0 }) s)
          { s with todo := s.todo ++ [.unitReset .spindle] }
        else s
      else currentLoop i (modSpin (fun p => { p with drained := 0 }) s)
    else s

/-- The speed loop at a millisecond (R367, R375, R378, R381, R384). -/
def speedTick (s : State) : State :=
  let want := s.appliedTarget
  let had := s.rdC 0 R.SPIN_TARGET_APPLIED
  let t := if s.pins.sagPause ∧ had < want then had else want
  let s := s.wrC 0 R.SPIN_TARGET_APPLIED t
  let lim := s.rdC 0 R.SPIN_LIM_ILIM
  let acc := s.rdC 0 R.SPIN_LIM_ACCLIM
  if s.spState = spOpenLoop then (if s.pins.sagPause then s else modSpin (fun p => { p with openRpm := min 240000 (p.openRpm + 240) }) s)
  else if s.spState = spRunning ∨ s.spState = spBraking then
    if s.spin.stored ∧ (t = 0 ∨ t + 60 < s.rpm) ∧ s.spState = spRunning then
      (if s.mayBrake then setSp spBraking s else coast s)
    else
      let goal := if s.spin.stored then 1000 * t else s.spin.speedRef
      let p := s.spin
      let ref := if p.speedRef < goal then (if s.pins.sagPause then p.speedRef else min goal (p.speedRef + acc)) else max goal (p.speedRef - acc)
      let top := Nat.sqrt (lim * lim - p.idRef.natAbs * p.idRef.natAbs)
      let raw := Config.openInt 65 [(ref : Int), (s.rpm : Int), p.iqRef]
      let iq : Int := if p.brakeEnd then 0
        else if s.spState = spBraking then max (-(lim : Int)) (min (top : Int) raw) else max 0 (min (top : Int) raw)
      modSpin (fun p => { p with speedRef := ref, iqRef := iq }) s
  else s

/-! ## Resistance, temperature and cooking (R369 to R373) -/

/-- The temperature coefficient: 3,930 when written as 0 (R87). -/
def HdaCal.coeff (c : HdaCal) : Nat := if c.alpha = 0 then 3930 else c.alpha

/-- A temperature in 0.01 °C from a resistance and its calibration value (R370). -/
def pairTemp (c : HdaCal) (meas cal : Nat) : Int :=
  if cal = 0 then c.tcal else c.tcal + ((meas : Int) - cal) * 100000000 / ((cal * c.coeff : Nat) : Int)

/-- The middle of three. -/
def median (a b c : Int) : Int := max (min a b) (min (max a b) c)

/-- Store an estimate. -/
def storeEstimate (t : Int) (res src : Nat) (s : State) : State :=
  let s := (s.wrC 0 R.SPIN_HDA_TEMP (unsgn 16 t)).wrC 0 R.SPIN_HDA_VALID 1
  modSpin (fun p => { p with hdaAt := s.now }) ((s.wrC 0 R.SPIN_HDA_SRC src).wrC 0 R.SPIN_RES_RES res)

/-- A measurement at rest (R369, R370): the median of the pair estimates; without calibration none exists. -/
def restMeasure (rab rbc rca : Nat) (s : State) : State :=
  let res := (median rab rbc rca).toNat
  match s.boot.cal with
  | some c => storeEstimate (median (pairTemp c rab c.resab) (pairTemp c rbc c.resbc) (pairTemp c rca c.resca)) res 0 s
  | none => (s.wrC 0 R.SPIN_HDA_VALID 0).wrC 0 R.SPIN_RES_RES res

/-- The estimate exists and has reached TSTART (R372). -/
def State.warmEnough (s : State) : Bool :=
  s.bitC 0 R.SPIN_HDA_VALID && decide (10 * sgn 12 (s.rdC 0 R.SPIN_COOK_TSTART) ≤ sgn 16 (s.rdC 0 R.SPIN_HDA_TEMP))

/-- The cooking current of a pair with this resistance in µΩ, in mA (R372). -/
def State.cookCurrent (s : State) (r : Nat) : Nat :=
  if r = 0 then s.rdC 0 R.SPIN_LIM_ILIM else min (s.rdC 0 R.SPIN_LIM_ILIM) (Nat.sqrt (s.spin.cookPwr * 100000000000 / r))

/-- A start from standstill goes on (R374, R375): to sensing where a target above 0 is stored, else the spindle waits idle. -/
def standstill (s : State) : State :=
  let go := decide (s.spin.stored ∧ 0 < s.rdC 0 R.SPIN_TARGET_SETPT)
  setSp (if go then spSensing else spIdle) (modSpin (fun p => { p with still := 0, bridge := go }) s)

/-- The rotor is at rest below the floor: measure first, with half the start current in a pair, or after a failed attempt sense again (R369, R374,
R376). -/
def atRest (s : State) : State :=
  if 0 < s.spin.attempts then standstill s
  else setSp spMeasuring (modSpin (fun p => { p with bridge := true, still := s.boot.board.istart / 2 }) s)

/-! ## SPDLIM (R61, R379, R380) -/

/-- The last SPDLIM sample is valid in the form in use. -/
def State.spdValid (s : State) : Bool :=
  match s.spin.spd.head? with
  | none => false
  | some (lv, fr) =>
    match s.rdC 0 R.SPIN_CFG_SPDFORM with
    | 0 => let n := s.spin.spd.length; let sum := (s.spin.spd.map Prod.fst).sum; decide (100 * n ≤ sum ∧ sum ≤ 1600 * n)
    | 1 => decide (500 ≤ lv ∧ lv ≤ 9500 ∧ 100 ≤ fr ∧ fr ≤ 10000)
    | _ => decide (100 ≤ fr ∧ fr ≤ 10000)

/-- Numerator and denominator of the input fraction (R379), from the averaged samples. -/
def State.spdFraction (s : State) : Nat × Nat :=
  let n := s.spin.spd.length
  match s.rdC 0 R.SPIN_CFG_SPDFORM with
  | 0 => ((s.spin.spd.map Prod.fst).sum - 100 * n, 1500 * n)
  | 1 => ((s.spin.spd.map Prod.fst).sum - 500 * n, 9000 * n)
  | _ => ((s.spin.spd.map Prod.snd).sum - 100 * n, 9900 * n)

/-- Evaluate the SPDLIM samples (R379, R380). The first evaluation applies at once; later a lower ceiling does. -/
def spdEvaluate (s : State) : State :=
  let x := s.spdFraction
  let steps := if x.2 = 0 then 0 else min 60 (60 * x.1 / x.2)
  let xin := if x.2 = 0 then 0 else min 1000 (1000 * x.1 / x.2)
  let s := s.wrC 0 R.SPIN_CEIL_XIN xin
  let ok := s.spdValid
  let c := 3600 + 60 * steps
  let s := if ok then modSpin (fun p => { p with computed := c }) s else s
  if ! s.spin.evaluated then
    let s := modSpin (fun p => { p with evaluated := true }) s
    if ok then s.wrC 0 R.SPIN_CEIL_CEIL c else (s.wrC 0 R.SPIN_STAT_SPDOPEN 1).wrC 0 R.SPIN_CEIL_CEIL s.boot.board.openCeil
  else if ok ∧ ! s.bitC 0 R.SPIN_STAT_SPDOPEN ∧ c < s.rdC 0 R.SPIN_CEIL_CEIL then s.wrC 0 R.SPIN_CEIL_CEIL c
  else s

/-- Take an SPDLIM sample: level in mV (analogue) or 0.01 % (duty cycle), and frequency in Hz. The analogue level is averaged over 16 samples, the
other forms over four input periods. Until record 0x0001 has named the form, samples are kept and not evaluated (R74). -/
def spdSample (level freq : Nat) (s : State) : State :=
  let keep := if s.rdC 0 R.SPIN_CFG_SPDFORM = 0 then 16 else 4
  let s := modSpin (fun p => { p with spd := ((level, freq) :: p.spd).take keep }) s
  if s.boot.board.polePairs = 0 then s else spdEvaluate s

/-- With the form of record 0x0001 the value that SPDLIM had at the end of reset is the first one used (R74). -/
def firstCeiling (s : State) : State :=
  if s.spin.spd.isEmpty then s
  else spdEvaluate (modSpin (fun p => { p with spd := p.spd.take (if s.rdC 0 R.SPIN_CFG_SPDFORM = 0 then 16 else 4) }) s)

/-- Function reset of the spindle block (R383, R553): the bridge is off and a start decision follows. -/
def resetSpindle (s : State) : State := if s.spin.begun then loseBridge s else s

end Sys2Proof.Machine
end

