-- ==== Sys2Proof/Machine/Recovery.lean ====
section
/-! DEFINITION. Recovery: resets, function resets, device re-initialisation, and the actions that a Fatal event or a stopped routine calls
for (R71, R92, R223, R516, R550 to R556). Every meaning that can raise an event ends with `settle`. -/

namespace Sys2Proof.Machine

/-- Set a field on every Rind die of the part. -/
def wrBoth (f : Fld) (v : Nat) (s : State) : State := s.rinds.foldl (fun t d => t.wrR d f v) s

/-- Set BOOT_STAT.PHASE of a die. -/
def setPhase (d : RSlot) (p : Nat) (s : State) : State := s.wrR d R.BOOT_STAT_PHASE p

/-- Set the phase on every Rind die. -/
def setPhases (p : Nat) (s : State) : State := s.rinds.foldl (fun t d => setPhase d p t) s

/-- REG_EN (R48). -/
def setRegEn (on : Bool) (s : State) : State := wrBoth R.DEV_PINSTAT_REGEN (bit on) { s with pins := { s.pins with regEn := on } }

/-- SF_CLK, SF_IO and SF_CS_N go to high impedance in NOIMAGE and FAILED (R90). -/
def releaseFlash (s : State) : State := { s with pins := { s.pins with sfDriven := false } }

/-- The limit of the current limit register: 0.8 of ISNFS (R361). -/
def State.ilimTop (s : State) : Nat := 8 * s.boot.board.isnfs / 10

/-! ## Resets (R14, R71, R72, R95, R555) -/

/-- A key of SPIN_STAT, whose BRKDIS bit only a power-on reset clears (R95, R387). -/
def isSpinStat (k : Nat) : Bool := decide (k = regKey 8 0x50000)

/-- Keep BRKDIS of SPIN_STAT alone. -/
def onlyBrkdis (s : State) : State :=
  let v := s.rdC 0 R.SPIN_STAT_BRKDIS
  (keepRegs (fun k => ! isSpinStat k) s).wrC 0 R.SPIN_STAT_BRKDIS v

/-- Keep the failed-start count of BOOT_STAT alone (R93, R95). -/
def onlyFails (d : RSlot) (s : State) : State :=
  let v := s.rdR d R.BOOT_STAT_FAILS
  (keepRegs (fun k => decide (k ≠ regKey d.code 0x10000)) s).wrR d R.BOOT_STAT_FAILS v

/-- What no reset touches: the part, time, the flash, the fuses, the pins' levels and the media; what was only whole in buffer memory is
lost (R224). -/
def State.bare (s : State) : State :=
  { part := s.part, now := s.now, free := s.free, pending := s.pending, out := s.out, flash := s.flash, fuses := s.fuses
    pins := { resetN := s.pins.resetN, vinMv := s.pins.vinMv, sbAddr := s.pins.sbAddr, shock := s.pins.shock, trstN := s.pins.trstN
              perst := s.pins.perst, refclk := s.pins.refclk }
    mediaTables := s.mediaTables, mediaCopies := s.mediaCopies }

/-- Power is lost (R72): everything but what State.bare keeps. Header writes that wait go with it. -/
def powerLoss (s : State) : State := let t := s.bare; { t with flash := { t.flash with op := none, hdrQueue := [], redo := none } }

/-- DEV_PINSTAT shows the sampled inputs (R75). -/
def showPins (s : State) : State :=
  let p := s.pins
  s.rinds.foldl (fun t d =>
    let t := (t.wrR d R.DEV_PINSTAT_SBADDR (bit p.sbAddr)).wrR d R.DEV_PINSTAT_SHOCK (bit p.shock)
    let t := (t.wrR d R.DEV_PINSTAT_TRSTN (bit p.trstN)).wrR d R.DEV_PINSTAT_VINOK (bit (decide (4500 ≤ p.vinMv ∧ p.vinMv ≤ 32000)))
    t.wrR d R.DEV_PINSTAT_PERST (p.perst / 2 ^ (4 * d.code) % 16)) s

/-- The level of a head's PERST# changes (R73, R75). -/
def setPerst (d : RSlot) (h : Nat) (high : Bool) (s : State) : State :=
  let b := 2 ^ (4 * d.code + h)
  showPins { s with pins := { s.pins with perst := if high then s.pins.perst ||| b else s.pins.perst &&& (255 - b) } }

/-- STATE of a head as it is released, or released again (R68, R73, R105): held in PERST#, idle where it is off or its reference clock is absent, or in
training. -/
def State.headStart (s : State) (d : RSlot) (h : Nat) (high : Bool) : Nat :=
  if ! high then 3 else if s.rdR d (R.LINK_HEADCFG_MODE h) = 0 ∨ ! s.pins.refclk.testBit (4 * d.code + h) then 0 else 1

/-- Registers that RESET_N leaves: the numbers and counts of the log, whose staged records wait on (R559, R560, R562). The controls of LOG take
their reset values (R14, R573). -/
def isLog (k : Nat) : Bool := decide (keyDie k < 2 ∧ keyOff k / 0x10000 = 0xE ∧ keyOff k ∉ [0xE0000, 0xE0004, 0xE8000])

/-- LOG_STAT after RESET_N: the queue goes on, the freeze and the scan do not. -/
def restartLog (d : RSlot) (i : Island) (s : State) : State := s.wrR d R.LOG_STAT_QUEUED i.queue.length

/-- The registers and islands at RESET_N (R14, R95): reset values, but for BRKDIS, the failed-start count and the log. -/
def fullReset (s : State) : State :=
  let k := keepRegs (fun k => isLog k || isSpinStat k || decide (keyDie k < 2 ∧ keyOff k = 0x10000)) s
  let k := onlyBrkdis (onlyFails .f1 (onlyFails .f0 k))
  let log (i : Island) : Island := { queue := i.queue, tries := i.tries, scanned := i.scanned }
  let t := s.bare
  restartLog .f1 s.f1.island (restartLog .f0 s.f0.island { t with
    regs := k.regs
    f0 := { island := log s.f0.island }
    f1 := { island := log s.f1.island }
    flash := { t.flash with op := none, hdrQueue := [], redo := none }
    pins := { t.pins with por := s.pins.por }
    spin := { spd := s.spin.spd }
    boot := { startAt := s.boot.startAt } })

/-- What a reset of the core logic leaves of a Rind die: its island and its sideband target (R19, R555). -/
def RindDie.islandOnly (r : RindDie) : RindDie :=
  { island := { r.island with windows := [], ownNow := false, ownPrev := false, ownSince := false, named := [], resetUnits := [] }, sb := r.sb }

/-- The core logic of every die is reset (R555 step 5): the islands, the pins, the flash and the media stay; the bridge is off. -/
def coreReset (s : State) : State :=
  let keep (k : Nat) : Bool := decide (keyDie k < 2 ∧ (0xD0000 ≤ keyOff k ∨ keyOff k = 0x30 ∨ keyOff k = 0x10004 ∨ keyOff k = 0x10000)) || isSpinStat k
  let k := onlyBrkdis (onlyFails .f1 (onlyFails .f0 (keepRegs keep s)))
  let t := s.bare
  let t := { t with
    regs := k.regs
    f0 := s.f0.islandOnly
    f1 := s.f1.islandOnly
    curds := s.curds.map (fun (c : CurdDie) => { railLow := c.railLow, fatalAt := c.fatalAt })
    pins := { s.pins with alive := false, aliveOn := false, sfReq := [] }
    pmb := { s.pmb with confirmed := [], stepConfirmed := false, takeover := false }
    boot := { startAt := s.boot.startAt, restarting := s.boot.restarting, portsOff := s.boot.portsOff }
    mediaClean := s.mediaClean
    budget := { diodes := s.budget.diodes, hot := s.budget.hot, shut := s.budget.shut.filter (· < 8) } }
  let t := (t.wrR .f0 R.DEV_DIEPRES_F0PRES 1).wrR .f0 R.DEV_PINSTAT_PMBOWN 0
  let t := if t.part.f = 2 then t.wrR .f1 R.DEV_PINSTAT_PMBOWN 0 else t
  if t.part.f = 2 then ((t.wrR .f0 R.DEV_PINSTAT_SFOWN 1).wrR .f1 R.DEV_PINSTAT_SFOWN 0) else t

/-! ## Resync (R516) -/

/-- The target's buffer memory holds what the server's does; errors of the devices stay each die's own. -/
def copyBufferMemory (srv t : RSlot) (s : State) : State :=
  s.modRind t (fun r => { r with bmem := { (s.rind srv).bmem with errs := r.bmem.errs, window := r.bmem.window, arrived := [], replay := [] } })

/-- Registers that a state copy passes on: every block but those of the die's own hardware and its log. -/
def copied (off : Nat) : Bool := decide (0x20010 ≤ off) && ! resyncKeeps off || decide (0xD0000 ≤ off ∧ off < 0xE0000) || decide (0xF0000 ≤ off ∧ off < 0x100000)

/-- Phase 3: the state of every block, the control store, the tallies, the engines and the step state (R478, R516). -/
def copyDieState (srv t : RSlot) (s : State) : State :=
  let s := copyBufferMemory srv t s
  let mine := s.regs.filter (fun r => decide (keyDie r.1 = srv.code) && copied (keyOff r.1))
  let s := keepRegs (fun k => ! (decide (keyDie k = t.code) && copied (keyOff k))) s
  let s := mine.foldl (fun u r => u.setWord (regKey t.code (keyOff r.1)) r.2) s
  let v := s.rind srv
  s.modRind t (fun r => { r with
    island := { r.island with windows := v.island.windows, totals := v.island.totals, exits := v.island.exits, freeExit := v.island.freeExit
                              lastBad := v.island.lastBad, named := v.island.named, resetUnits := v.island.resetUnits, frozenAt := v.island.frozenAt }
    step := v.step, opened := r.opened.filter (· < 2) ++ v.opened.filter (2 ≤ ·)
    arms := r.arms.filter (fun a => decide (a.2.1 < 0x20000)) ++ v.arms.filter (fun a => decide (0x20000 ≤ a.2.1)), eseq := v.eseq, cave := v.cave, vat := v.vat, ladle := v.ladle, store := v.store
    engines := v.engines, data := v.data })

/-! ## Function resets (R553) -/

/-- The number a unit has in the detail of source 0x0C2 and 0x0C1. -/
def unitNo : RUnit → Nat
  | .portEngine => 0
  | .scheduler => 1
  | .translation => 2
  | .vat => 3
  | .cave => 4
  | .bmem => 5
  | .ladle => 6
  | .budget => 7
  | .engine e => 8 + e
  | .channel g => 0x10 + g
  | .formatter g => 0x20 + g
  | .press g => 0x30 + g
  | .spindle => 0x40

/-- End a command under the recovery ladder (R189, R551): whole versions stay, the others are withdrawn. One that an ABORT has ended already
completes with ABORTED (R219). -/
def recoverCmd (c : Cmd) (info : Nat) (s : State) : State :=
  if c.fail = some (St.aborted, 0) then complete c St.aborted 0 (endVersions c s) else complete c St.deviceRecovered info (endVersions c s)

/-- End the commands a routine held (R486, R551). -/
def recoverHeld (held : List Nat) (s : State) : State :=
  held.foldl (fun t u => match t.cmds.find? (fun c => c.uid = u) with
    | some c => raiseAll 0x0C1 [c.port, c.tag] (recoverCmd c 3 t)
    | none => t) s

/-- A drained stage of a command (R38, R550): the token goes back, marked drained, to the command; one that drains again passes upward, and
rung 3 ends the command (R551). -/
def drainCommand (d : RSlot) (port tag : Nat) (s : State) : State :=
  match s.cmds.find? (fun c => c.port = port ∧ c.tag = tag) with
  | none => s
  | some c =>
    if c.drained then raiseAll 0x0C1 [port, tag] (recoverCmd c 3 (useRung d 3 s))
    else modCmd c.uid (fun x => { x with drained := true }) s

/-- A function reset of the Vat ends its waiting ALLOCs with EMPTY (R428): the engines that asked are told (R487). -/
def endWaits (d : RSlot) (s : State) : State :=
  resetVat d ((s.rind d).vat.waits.foldl (fun t w =>
    match (if isEngineOwner w.owner ∧ w.owner < 0x108 then some (w.owner - 0x100) else w.eng) with
    | some i => postEvent (.rind d i) 5 (BitVec.ofNat 64 (Config.openNat 13 [w.ticket])) t
    | none => t) s)

/-- The reset action of a unit of a die (R553). -/
def resetUnit (d : RSlot) (u : RUnit) (s : State) : State :=
  match u with
  | .portEngine => pumpAll (rereadDoorbells d s)
  | .scheduler => { s with sched := { s.sched with dcH := 0, dcM := 0, dcL := 0, dp := [] } }
  | .translation => writeJournal s
  | .vat => endWaits d s
  | .cave => resetCave d s
  | .bmem => resetBmem d s
  | .ladle => resetLadle d s
  | .engine e => resetEngine (.rind d e) (recoverHeld ((s.rind d).engines.getD e {}).held s)
  | .budget => s
  | .channel g => resetChannel g s
  | .formatter g => resetFormatter g s
  | .press g => resetPress g s
  | .spindle => resetSpindle s

/-- A function reset (R550, R553): rung 4, source 0x0C2, the action, and the ledgers of the die. -/
def functionReset (d : RSlot) (u : RUnit) (s : State) : State :=
  (tallyCheck (resetUnit d u (useRung d 4 (raise d 0x0C2 [unitNo u] s)))).2

/-- A unit of a Curd die has reset itself: rung 4 and source 0x0C2 on the serving dies, and their ledgers (R6, R553, R567). -/
def noteReset (u : RUnit) (s : State) : State :=
  (tallyCheck (s.serving.foldl (fun t d => useRung d 4 (raise d 0x0C2 [unitNo u] t)) s)).2

/-- Rung 3 names a unit (R552): the second time within FUNCWIN it takes a function reset; named again after that, its cause passes upward
(R550). -/
def nameUnit (d : RSlot) (u : RUnit) (s : State) : State :=
  let i := (s.rind d).island
  let upd (f : Island → Island) (s : State) : State := s.modRind d (fun r => { r with island := f r.island })
  if u ∈ i.resetUnits then { upd (fun i => { i with resetUnits := i.resetUnits.erase u }) s with todo := s.todo ++ [.fatalRind d] }
  else if i.named.any (fun p => decide (p.1 = u ∧ s.now < p.2 + 1000000 * s.rdR d R.FAULT_CFG_FUNCWIN)) then
    functionReset d u (upd (fun i => { i with named := i.named.filter (fun p => p.1 ≠ u), resetUnits := u :: i.resetUnits }) s)
  else upd (fun i => { i with named := (u, s.now) :: i.named.filter (fun p => p.1 ≠ u) }) s

/-- A routine has been stopped (R486, R552): rung 3 ends its commands and names the unit whose port drained; a routine that held no command
held other work, and its engine takes a function reset. -/
def routineStopped (d : RSlot) (e : Nat) (unit : Option RUnit) (held : List Nat) (s : State) : State :=
  let s := recoverHeld held (useRung d 3 s)
  let s := match unit with
    | some u => nameUnit d u s
    | none => s
  if held.isEmpty then functionReset d (.engine e) s else s

/-! ## Rung 6 (R223, R555, R556) -/

/-- Versions that are whole and not on the media (R97, R223). -/
def dirtyCount (s : State) : Nat := s.versions.countP (fun x => x.whole && ! x.media)

/-- Some version still to be written out has its group reachable (R223). -/
def State.writeOutLeft (s : State) : Bool :=
  s.versions.any (fun x => x.whole && ! x.trim && ! s.settled x && (match s.blockGroup x.vol x.blk with
    | some g => s.groupOn g
    | none => false))

/-- The start that follows device re-initialisation: step 2, every port DISABLED (R555, R556). -/
def restart (s : State) : State :=
  let s := coreReset { s with boot := { s.boot with restarting := true, portsOff := true } }
  setPhases 1 s

/-- Close-out is over (R555 steps 4 and 5): the closing check, the closing snapshot logged at Note, and the reset. -/
def finishReinit (s : State) : State :=
  let s := (tallyCheck s).2
  let s := s.serving.foldl (fun t d =>
    let t := tallySnapshot d t
    stageRec d (t.makeRec d d.code 0x0C3 1 0 6 [t.rdR d R.TALLY_SNAP_LO_SNAP, t.rdR d R.TALLY_NLEDG_COUNT]) t) s
  restart s

/-- The write-out has ended (R223, R555): what is left is lost, the groups unload, and every outstanding command completes with
DEVICE_RECOVERED, INFO 6. -/
def endWriteOut (s : State) : State :=
  let lost := dirtyCount (writeJournal s)
  let s := writeJournal s
  let s := if lost = 0 then { s with mediaClean := true } else raiseAll 0x0C7 [lost] s
  let s := onGroups startUnload s
  let s := s.cmds.foldl (fun t c => recoverCmd c 6 t) s
  pumpAll { s with boot := { s.boot with reinit := some .closeOut } }

/-- ABANDON, or 10 s without a completion written (R555): the completions that are held are not written. -/
def abandonCloseOut (s : State) : State :=
  if s.boot.reinit = some .closeOut then
    finishReinit ({ raiseAll 0x0C8 [s.comps.length] s with comps := [] })
  else s

/-- The units of a Rind die. -/
def rindUnits : List RUnit :=
  [.portEngine, .scheduler, .translation, .vat, .cave, .bmem, .ladle] ++ (List.range 8).map RUnit.engine ++ [.budget]

/-- A control store with an error of two bits is loaded again from the running slot (R478, R484, R555). -/
def reloadStore (d : RSlot) (s : State) : State :=
  if (s.rind d).store.wrong.any (fun p => 2 ≤ p.2) then
    match s.boot.slot.bind s.accepted with
    | some img => loadRindStore d img s
    | none => s
  else s

/-- Device re-initialisation begins (R555). During a start it goes straight to the reset; a third failed start in a row is FAILED (R93). A Fatal
fault in a start that no rule calls a failed start (other than the watchdog, R79 and R88) restarts the device and raises no FAILS: DESIGN CHOICE
128. -/
def beginReinit (s : State) : State :=
  let ph := s.phase s.senior
  if ph = 8 then
    if s.boot.reinit.isSome then s
    else
      let s := endResync { s with boot := { s.boot with restarting := true, reinit := some .writeOut }, mediaClean := false }
      let s := s.serving.foldl (fun t d => useRung d 6 (raise d 0x0C3 [] t)) s
      let s := s.serving.foldl (fun t d => rindUnits.foldl (fun t u => resetUnit d u (raise d 0x0C2 [unitNo u] t)) (reloadStore d t)) s
      let s := (tallyCheck s).2
      s
  else if 1 ≤ ph ∧ ph ≤ 7 then
    let s := { s with boot := { s.boot with restarting := true } }
    let s := (tallyCheck (s.rinds.foldl (fun t d => useRung d 6 (raise d 0x0C3 [] t)) s)).2
    if 3 ≤ s.rdR .f0 R.BOOT_STAT_FAILS then setPhases 0xF (releaseFlash (setRegEn false (coreReset s))) else restart s
  else s

/-- The start has failed (R88, R92, R93): counted, logged at Fatal, and the device re-initialises itself. -/
def startFail (detail : List Nat) (s : State) : State :=
  let s := s.rinds.foldl (fun t d => t.incR d R.BOOT_STAT_FAILS) s
  let s := raise .f0 0x020 detail s
  { s with todo := s.todo.filter (· ≠ .reinit) ++ [.reinit] }

/-! ## A Fatal event of a Curd die (R554) -/

/-- The store of a Curd die is loaded again from the running slot (R478). -/
def reloadCurd (g : Nat) (s : State) : State :=
  match s.boot.slot.bind s.accepted with
  | some img => loadCurdStore g img s
  | none => s

/-- The action of a Curd die's Fatal event (R554): retract, C0's gates off, a function reset of every unit with the store loaded again; the
second within 3,600 s puts the group offline, and for C0 starts rung 6. -/
def fatalCurdAct (g : Nat) (s : State) : State :=
  let again := match (s.curd g).fatalAt with
    | some t => decide (s.now < t + 3600000000)
    | none => false
  let s := emergencyRetract g (s.modCurd g (fun c => { c with fatalAt := some s.now }))
  let s := if g = 0 then gatesOff s else s
  let s := resetPress g (resetChannel g (resetFormatter g s))
  let s := reloadCurd g (if g = 0 then resetSpindle s else s)
  let s := raiseAll 0x0C2 [curdCode g] s
  let s := s.serving.foldl (fun t d => useRung d 4 t) s
  let s := (tallyCheck s).2
  if again then
    let s := groupOffline g s
    if g = 0 then { s with todo := s.todo ++ [.reinit] } else s
  else s

/-! ## Settling -/

/-- One action that an event has called for. -/
def act (x : Todo) (s : State) : State :=
  match x with
  | .fatalRind d =>
    if s.fenced d then s
    else if s.inTwo then fenceForFatal d s
    else beginReinit s
  | .reinit => beginReinit s
  | .fatalCurd g => fatalCurdAct g s
  | .unitReset u => noteReset u s
  | .stopped d e u held => routineStopped d e u held s

/-- Take the actions called for, those that they call for included. -/
def actAll : Nat → State → State
  | 0, s => s
  | n + 1, s =>
    match s.todo with
    | [] => s
    | x :: rest => actAll n (act x { s with todo := rest })

/-- Move device re-initialisation along where a stage has ended (R555). -/
def advanceReinit (s : State) : State :=
  let s := if s.boot.reinit = some .writeOut ∧ ! s.writeOutLeft then endWriteOut s else s
  if s.boot.reinit = some .closeOut ∧ s.comps.isEmpty then finishReinit s else s

/-- While F0 is fenced or being resynced, a command whose flash write F0 was carrying out completes with SINGLE_DIE (R190). -/
def endSingleDie (s : State) : State :=
  if s.part.f = 2 ∧ s.fenced .f0 then
    let cmds := (s.flash.op.bind FlashOp.cmd).toList ++ s.flash.hdrQueue.filterMap (fun p => p.2.cmd)
    if cmds.isEmpty then s
    else
      let op := if (s.flash.op.bind FlashOp.cmd).isSome then none else s.flash.op
      let s := { s with flash := { s.flash with op := op, hdrQueue := s.flash.hdrQueue.filter (fun p => p.2.cmd.isNone) } }
      cmds.foldl (fun t c => endCommand c.1 c.2 St.singleDie 0 t) (modXlat (fun x => { x with pendingVol := none }) s)
  else s

/-- The end of every meaning: actions of R554 are taken, re-initialisation moves along, what the receivers of the links owe is sent (R30), and
nothing is left to do. -/
def settle (s : State) : State := { payLcws (endSingleDie (advanceReinit (actAll 64 s))) with todo := [] }

/-! ## Parts of the start that recovery shares -/

/-- The Curd dies take their copy of the severities of their own sources (R544). -/
def copySeverities (d : RSlot) (s : State) : State :=
  s.groups.foldl (fun t g => t.modCurd g (fun c => { c with
    sevCopy := curdSources.map (fun p => (p.1, s.rdR d (R.FAULT_SRCCFG_SEV (curdSource g p.1)))) })) s

/-- The Press tables of the Curd image go to every Curd die (R360). -/
def loadPressTables (img : SlotImage) (s : State) : State :=
  s.groups.foldl (fun t g => (pressTable img).foldl (fun t p => t.setWord (regKey (curdCode g) (0x40000 + p.1)) (BitVec.ofNat 32 p.2)) t) s

end Sys2Proof.Machine
end

