-- ==== Sys2Proof/Machine/Boot.lean ====
section
/-! DEFINITION. The start sequence and its flash traffic (R76 to R95). -/

namespace Sys2Proof.Machine

/-- The die has the flash bus (R65, R94). -/
def State.hasBus (s : State) (d : RSlot) : Bool := s.bitR d R.DEV_PINSTAT_SFOWN

/-- A region is read at the header's clock and dummy cycles over four lines (R76). -/
def quadRead (addr len : Nat) (s : State) : State := s.emit (.flashRead true s.boot.hdr.mhz s.boot.hdr.sfdummy addr len)

/-- START_HEADER (R76, R79, R91 steps 2 and 3): the header copies are read at 25 MHz on one line and one is chosen, SFDP is read; every Rind
island releases REG_EN and F0 drives the PMBus, whose OPERATION commands are PMBUS_OPERATION's. With no valid copy the start fails. F1 reads after F0,
with the bus, and writes nothing (R94). -/
def execStartHeader (d : RSlot) (s : State) : Host.Outcome State Fault Refusal :=
  if s.hasRind d ∧ s.pins.por ∧ s.pins.resetN ∧ ! s.pins.holdOut ∧ s.phase d ≤ 1 ∧ s.hasBus d ∧ (d = .f0 ∨ 2 ≤ s.phase .f0) then
    let s := ((s.emit (.flashRead false 25 0 (hdrAddr 0) 256)).emit (.flashRead false 25 0 (hdrAddr 1) 256)).emit .sfdpRead
    match s.flash.header with
    | none => .next (settle (if d = .f0 then startFail [2] s else s))
    | some (k, h) =>
      let s := showHeader d k h s
      if d = .f0 then
        let s := setPhase .f0 2 { s with
          boot := { s.boot with hdr := h }, pins := { s.pins with regEn := true }, pmb := { s.pmb with setMv := 800, takeover := false }
          flash := { s.flash with log := shapeLog h s.flash.log } }
        .next (s.wrR .f0 R.DEV_PINSTAT_PMBOWN 1 |> fun t => t.rinds.foldl (fun t e => t.wrR e R.DEV_PINSTAT_REGEN 1) t)
      else
        .next (setPhase d (if 3 ≤ s.phase .f0 ∧ s.phase .f0 ≤ 8 then 3 else 2) s)
  else .next s

/-- LINK_FIRST_HANDSHAKE (R21, R26, R94): the link comes up at both ends with full credits, DEV_DIEPRES and DEV_ID record the die, and at
F0's links the first lease is installed: epoch 1, SINGLE set in F1 parts. -/
def execLinkFirstHandshake (d : RSlot) (n : Nat) (s : State) : Host.Outcome State Fault Refusal :=
  let far := if n < 6 then s.hasCurd n else decide (n = 6 ∧ s.part.f = 2)
  if s.hasRind d ∧ far ∧ 3 ≤ s.phase d ∧ s.phase d ≤ 8 ∧ ! (s.fvEnd (.rind d n)).up ∧ (d, n) ∉ s.boot.absent then
    let e1 : LinkEnd := .rind d n
    let e2 : LinkEnd := if n = 6 then .rind d.peer 6 else .curd n d
    let fresh (e : LinkEnd) (x : FvEnd) : FvEnd := { x with
      up := true, down := false, silent := false, rx := [{}, {}, {}, {}]
      tx := (List.range 4).map (fun c => { credits := e.credits c : TxClass }) }
    let s := (s.modEnd e1 (fresh e1)).modEnd e2 (fresh e2)
    let s := s.wrR d (R.DEV_FVSTAT_STATE n) 1
    if n = 6 then
      let s := (s.wrR .f1 (R.DEV_FVSTAT_STATE 6) 1).wrR .f0 (R.DEV_FVSTAT_STATE 6) 1
      let s := s.rinds.foldl (fun t e => ((t.wrR e R.DEV_DIEPRES_F1PRES 1).wrR e R.DEV_ID_FDIES 2).wrR e R.STEP_STAT_LINKUP 1) s
      .next s
    else
      let s := s.wrR d R.DEV_DIEPRES_CPRES (s.rdR d R.DEV_DIEPRES_CPRES ||| 2 ^ n)
      let s := s.wrR d R.DEV_ID_CDIES ((List.range 6).countP (fun i => (s.rdR d R.DEV_DIEPRES_CPRES).testBit i))
      let s := if s.rdR d R.DEV_ID_FDIES = 0 then s.wrR d R.DEV_ID_FDIES 1 else s
      let s := s.wrC n (if d = .f0 then R.CDIE_LEASE_F0LIVE else R.CDIE_LEASE_F1LIVE) 1
      if d = .f0 then
        let s := if s.part.f = 2 then (s.wrR .f0 R.STEP_STAT_LEASE 1).wrR .f0 R.STEP_EPOCH_EPOCH 1 else s
        .next (sendMsg (.rind .f0 n) 3 0 [BitVec.ofNat 32 (0x60000000 + (if s.part.f = 1 then 2 else 0)), 1] s)
      else .next (s.wrR .f1 R.STEP_EPOCH_EPOCH 1 |> fun t => t.wrR .f1 R.STEP_STAT_ROLE roleJunior)
  else .next s

/-- The start runs from slot `i` (R89, R91 step 6): the store is loaded, BOOT_STAT shows the slot, and settings come next. -/
def runSlot (d : RSlot) (i : Nat) (trial : Bool) (img : SlotImage) (s : State) : State :=
  let s := loadRindStore d img s
  let s := ((s.wrR d R.BOOT_STAT_SLOT i).wrR d R.BOOT_STAT_SVN img.svn).wrR d R.BOOT_STAT_TRIAL (bit trial)
  let s := { s with boot := { s.boot with
    slot := some i, trial := trial, waitHdr := false
    loaded := d :: s.boot.loaded.filter (· ≠ d), image := (d, img, []) :: s.boot.image.filter (fun p => p.1 ≠ d) } }
  setPhase d 4 s

/-- No slot is accepted (R89, R90): NOIMAGE, with REG_EN low and the flash pins released. -/
def noImage (s : State) : State := setPhases 0xE (releaseFlash (setRegEn false s))

/-- Try ACTIVE, then the other slot (R89 steps 2 and 3). -/
def tryActive (s : State) : State :=
  let a := s.boot.hdr.active
  match s.accepted a with
  | some img => runSlot .f0 a false img (noteChecked a s)
  | none =>
    match s.accepted (1 - a) with
    | some img => runSlot .f0 (1 - a) false img (raise .f0 0x023 [1 - a] (noteChecked (1 - a) (noteChecked a s)))
    | none => noImage (noteChecked (1 - a) (noteChecked a s))

/-- Go on as in step 2 after a TRIES write that failed (R79, R89 step 1): the pending slot is not tried in this start, so the other slot is none
where PENDING names it. -/
def tryWithout (p : Option Nat) (s : State) : State :=
  let a := s.boot.hdr.active
  match s.accepted a with
  | some img => runSlot .f0 a false img (noteChecked a s)
  | none => if p = some (1 - a) then noImage (noteChecked a s) else tryActive s

/-- Try the pending slot once its try is counted; a slot that fails R81 drops PENDING and falls back to ACTIVE (R89 step 1). -/
def tryPending (s : State) : State :=
  match s.boot.hdr.pending with
  | none => tryActive s
  | some p =>
    match s.accepted p with
    | some img => runSlot .f0 p true img (noteChecked p s)
    | none => writeHeader { s.boot.hdr with pending := none } .drop (raise .f0 0x023 [p] (noteChecked p s))

/-- Bonded slots whose link never came up are reported missing, and stay out of this start (R21): Curd dies, and the peer on the step link. -/
def reportMissing (d : RSlot) (s : State) : State :=
  let s := s.groups.foldl (fun t g => if (t.fvEnd (.rind d g)).up then t
    else { (raise d 0x000 [curdCode g] t) with boot := { t.boot with absent := (d, g) :: t.boot.absent } }) s
  if s.part.f = 2 ∧ ! (s.fvEnd (.rind d 6)).up then
    { (raise d 0x000 [d.peer.code] s) with boot := { s.boot with absent := (d, 6) :: s.boot.absent } }
  else s

/-- START_LOAD (R76, R89, R94): F0 chooses the slot, first counting a trial's try in the header; F1 loads the slot F0 runs. Slots whose link
never came up are reported missing (R21). -/
def execStartLoad (d : RSlot) (s : State) : Host.Outcome State Fault Refusal :=
  if s.hasRind d ∧ s.phase d = 3 ∧ ! s.boot.waitHdr ∧ s.hasBus d then
    let s := quadRead (slotAddr 1) 0x1000000 (quadRead (slotAddr 0) 0x1000000 (reportMissing d s))
    if d = .f0 then
      match s.boot.hdr.pending with
      | some _ =>
        let s := { s with boot := { s.boot with waitHdr := true } }
        .next (settle (if 0 < s.boot.hdr.tries then writeHeader { s.boot.hdr with tries := s.boot.hdr.tries - 1 } .trial s
          else writeHeader { s.boot.hdr with pending := none } .drop s))
      | none => .next (settle (tryActive s))
    else
      match s.boot.slot.bind (fun i => (s.accepted i).map (fun img => (i, img))) with
      | some (i, img) => .next (settle (runSlot d i s.boot.trial img s))
      | none => .next (settle s)
  else .next s

/-- Begin to program a chunk of a slot (R191, R200): VIN below VSAG ends the command first, with no byte accepted. Each 64 KiB block
is erased before its first program, and holds nothing until the program ends. -/
def beginChunk (off : Nat) (data : List Byte) (port tag : Nat) (s : State) : State :=
  if s.pins.sagPause then endCommand port tag St.retryLater 0 s
  else
    let s := { s with boot := { s.boot with checked := s.boot.checked.filter (fun p => p.1 ≠ s.targetSlot) } }
    startOp (.chunk off data port tag) { s with
      flash := s.flash.putSlot s.targetSlot (programChunk (s.flash.slot s.targetSlot) off (List.replicate data.length 0xFF)) }

/-- A header write of a command that VIN stopped (R191): the copy is left invalid and the header as it was. -/
def stopHeader (k : Nat) (port tag : Nat) (s : State) : State :=
  beginHeaderWrite (endCommand port tag St.retryLater 0 { s with flash := { s.flash.hdrCopy k [] with op := none } })

/-- HEADER_WRITE_DONE (R79, R83, R89, R191): a good read-back makes the new copy the one in use and what waited goes on; a bad one is tried once
more, then raises source 0x027 and leaves the header as it was. -/
def execHeaderWriteDone (good : Bool) (s : State) : Host.Outcome State Fault Refusal :=
  match s.flash.op with
  | some (.header k h again why) =>
    let stop := if why.cmd.isSome then s.sagStop else (false, s)
    let s := stop.2
    if stop.1 ∨ (! good ∧ ! again ∧ why.cmd.isSome ∧ s.pins.sagPause) then
      .next (settle (match why.cmd with
        | some (port, tag) => stopHeader k port tag s
        | none => s))
    else if good then
      let s := { s with flash := { s.flash.hdrCopy k h.bytes with op := none }, boot := { s.boot with hdr := h } }
      let s := s.rinds.foldl (fun t d => showHeader d k h t) s
      let s := match why with
        | .trial => tryPending s
        | .drop => tryActive { s with boot := { s.boot with waitHdr := false } }
        | .commit =>
          let svn := s.rdR .f0 R.BOOT_STAT_SVN
          let s := { s with fuses := { s.fuses with svn := min 127 (max s.fuses.svn svn) }, boot := { s.boot with trial := false } }
          s.rinds.foldl (fun t d => (t.wrR d R.BOOT_FUSE_SVNFUSE s.fuses.svn).wrR d R.BOOT_STAT_TRIAL 0) s
        | .activate port tag => endCommand port tag St.success (match h.pending.bind s.slotImage with
            | some img => img.version
            | none => 0) s
        | .download data port tag => beginChunk 0 data port tag s
      .next (settle (beginHeaderWrite s))
    else if ! again then .next (againOp (.header k h true why) { s with flash := s.flash.hdrCopy k [] })
    else
      let s := raise s.senior 0x027 [k] { s with flash := { s.flash.hdrCopy k [] with op := none } }
      let s := match why with
        | .trial => tryWithout s.boot.hdr.pending { s with boot := { s.boot with waitHdr := false } }
        | .drop => tryActive { s with boot := { s.boot with waitHdr := false } }
        | .commit => s
        | .activate port tag => endCommand port tag St.saveFailed 0 s
        | .download _ port tag => endCommand port tag St.saveFailed 0 s
      .next (settle (beginHeaderWrite s))
  | _ => .next s

/-! ## Settings (R84 to R88, R108, R113, R580) -/

/-- The clamp the register map gives a field of a die. -/
def clampOf (die : Nat) (f : Fld) : Clamp :=
  match (regDef die f.off).bind (fun r => r.fields.find? (fun x => x.hi = f.hi ∧ x.lo = f.lo)) with
  | some x => x.clamp
  | none => .none

/-- Store a field with its clamp, as a software write does. -/
def wrClamped (die : Nat) (f : Fld) (v : Nat) (s : State) : State :=
  s.wr die f (clampField s.part s.ilimTop (s.rd die R.BUDGET_WAT_HIWAT) (clampOf die f) (f.hi + 1 - f.lo) v)

/-- The defaults of R580, R99, R524 and the owning chapters, for a Rind die's fields that a record gives no value for. -/
def settingDefaults (p : Part) : List (Fld × Nat) :=
  [(R.BOOT_RIDE_VSAG, 700), (R.BOOT_RIDE_HOLD, 20), (R.SCHED_CLASSW_WH, 16), (R.SCHED_CLASSW_WM, 4), (R.SCHED_CLASSW_WL, 1),
   (R.BUDGET_CAP_PCAP, min 250 (90 * p.f + 26 * p.c)), (R.STEP_CFG_TURNMIN, 15), (R.STEP_CFG_SWRITE, 0)] ++
  (List.range 4).flatMap (fun h => [(R.LINK_HEADCFG_MODE h, 1), (R.LINK_HEADCFG_MAXRATE h, 3)]) ++
  (List.range 256).flatMap (fun n => [(R.PORT_CFG_POLLINT n, 1), (R.PORT_SCHED_WEIGHT n, 1)]) ++
  (List.range 14).flatMap (fun i => [(R.BUDGET_THR_TEMP i 0, 1120), (R.BUDGET_THR_TEMP i 1, 1180), (R.BUDGET_THR_TEMP i 2, 1260),
    (R.BUDGET_THR_HYST i 0, 40), (R.BUDGET_THR_HYST i 1, 40), (R.BUDGET_THR_HYST i 2, 40)])

/-- A field that belongs to the STEP block, which an F1 part does not load (R519). -/
def isStepField (f : Fld) : Bool := decide (f.off / 0x10000 = 0xB)

/-- Registers that records 0x0004 and 0x0005 load, but the fields with a default other than the reset value (R85, R580): the port, link and source
configuration blocks. Before step 7 nothing but set-up writes has changed them. -/
def isSettingBlock (off : Nat) : Bool :=
  decide ((0x20010 ≤ off ∧ off < 0x2FFF0) ∨ (0x30000 ≤ off ∧ off < 0x3FFF0) ∨ (0xD9000 ≤ off ∧ off < 0xDFFF0))

/-- Every setting takes its default (R85, R580): zero, or the reset value, where the list of defaults names no other. -/
def loadDefaults (d : RSlot) (s : State) : State :=
  let s := keepRegs (fun k => ! (decide (keyDie k = d.code) && isSettingBlock (keyOff k))) s
  (settingDefaults s.part).foldl (fun t p => if isStepField p.1 && decide (t.part.f = 1) then t else t.wrR d p.1 p.2) s

/-- SHOCK at its active level as the level is known holds writes from the first (R74, R322). -/
def heldShock (s : State) : State :=
  if s.pins.shock then onGroups (fun g t => modFmt g (fun f => { f with shockSince := some t.now }) (t.wrC g R.FMT_STAT_WINHSHK 1)) s else s

/-- Record 0x0001 goes to C0's spindle block, and the SHOCK level to every Curd die (R62, R390). -/
def loadBoard (b : Board) (s : State) : State :=
  let s := s.groups.foldl (fun t g => t.wrC g R.CDIE_SHOCK_ACT b.shockAct) { s with boot := { s.boot with board := b } }
  [(R.SPIN_CFG_SPDFORM, b.spdForm), (R.SPIN_CFG_POLEPAIRS, b.polePairs), (R.SPIN_PWM_PWMKHZ, b.pwmKhz), (R.SPIN_PWM_DEAD, b.deadNs),
   (R.SPIN_LIM_ILIM, b.ilim), (R.SPIN_LIM_ACCLIM, b.accLim), (R.SPIN_VTHR1_VBRK2, b.vbrk2), (R.SPIN_VTHR1_VBRK1, b.vbrk1),
   (R.SPIN_VTHR2_VCHOP, b.vchop), (R.SPIN_VTHR2_VMOTUV, b.vmotUv), (R.SPIN_COOK_COOKMAX, b.cookMax), (R.SPIN_COOK_COOKPWR, b.cookPwr),
   (R.SPIN_COOK_TSTART, unsgn 12 b.tStart)].foldl (fun t p => t.wrC 0 p.1 p.2) s |> firstCeiling |> heldShock

/-- Load a record into a Rind die's registers (R85, R541), unchecked for a second admin port of a domain (DESIGN CHOICE 138). Records of other types
raise source 0x022. -/
def applyRecord (d : RSlot) (r : SetRec) (s : State) : State :=
  match r.typ, r.body with
  | 1, _ => match r.board with
    | some b => if d = .f0 then loadBoard b s else s
    | none => s
  | 4, .severities l =>
    l.foldl (fun t (src, sev, cnt, n, w) =>
      if sourceUsed src then
        let t := wrClamped d.code (R.FAULT_SRCCFG_SEV src) sev t
        let t := t.wrR d (R.FAULT_SRCCFG_COUNTED src) (bit cnt)
        let t := wrClamped d.code (R.FAULT_SRCCFG_N src) n t
        let t := wrClamped d.code (R.FAULT_SRCCFG_W src) w t
        t.wrR d (R.FAULT_SRC_EFF src) (if cnt then min 1 sev else min 4 sev)
      else raise d 0x022 [src] t) s
  | 6, .volumes _ => s
  | 8, _ => match r.dram with
    | some (dens, ranks, rate) => ((s.wrR d R.BMEM_STAT_DENSITY dens).wrR d R.BMEM_STAT_RANK2 (ranks - 1)).wrR d R.BMEM_STAT_RATE rate
    | none => s
  | t, .fields vals =>
    if t ∈ [2, 3, 5, 7] then
      vals.foldl (fun t p => if isStepField p.1 && decide (t.part.f = 1) then t else wrClamped d.code p.1 p.2 t) s
    else raise d 0x022 [t] s
  | t, _ => raise d 0x022 [t] s

/-- Check the domains in order (R108): a domain whose attachment an enabled lower one has taken is loaded disabled, with source 0x035. -/
def checkDomains (d : RSlot) (s : State) : State :=
  (List.range 16).foldl (fun t b =>
    if t.bitR d (R.LINK_DOMCFG_EN b) ∧ (List.range b).any (fun a => t.bitR d (R.LINK_DOMCFG_EN a) && t.sameAttachment d a b) then
      raise d 0x035 [b] (t.wrR d (R.LINK_DOMCFG_EN b) 0)
    else t) s

/-- Check the windows in domain order (R113): overlap, the DRAM set's data capacity, 48 GiB in total, 8 GiB left outside. -/
def checkWindows (d : RSlot) (s : State) : State :=
  let cap := s.dataBytes d / 2 ^ 28
  ((List.range 16).foldl (fun (acc : State × List (Nat × Nat) × Nat) b =>
    let t := acc.1
    let t := if t.rdR d (R.LINK_DOMWIN_WACC b) = 3 then t.wrR d (R.LINK_DOMWIN_WACC b) 1 else t
    let size := if t.rdR d (R.LINK_DOMWIN_WACC b) = 0 then 0 else t.rdR d (R.LINK_DOMWIN_SIZE b)
    let base := t.rdR d (R.LINK_DOMWIN_BASE b)
    let t := t.wrR d (R.LINK_DOMWIN_SIZE b) size
    if size = 0 then (t, acc.2)
    else
      let bad := acc.2.1.any (fun w => decide (base < w.1 + w.2 ∧ w.1 < base + size)) ||
        decide (cap < base + size ∨ 192 < acc.2.2 + size ∨ cap < acc.2.2 + size + 32)
      if bad then (raise d 0x036 [b] (t.wrR d (R.LINK_DOMWIN_SIZE b) 0), acc.2)
      else (t, (base, size) :: acc.2.1, acc.2.2 + size)) (s, [], 0)).1

/-- The bytes of copy `k` of a head's zone block (R86). -/
def Flash.zoneBytes (f : Flash) (k h : Nat) : List Byte := (if k = 0 then f.zone0 else f.zone1).getD h []

/-- Copy `k` of a head's zone block, where it is valid (R86, R310). -/
def Flash.zoneCopy (f : Flash) (k h : Nat) : Option ZoneBlock := ZoneBlock.ofBytes h (f.zoneBytes k h)

/-- The zone blocks in use, head by head: copy 0, else copy 1 (R86). -/
def Flash.zones (f : Flash) : List (Option ZoneBlock) := (List.range 24).map (fun h => (f.zoneCopy 0 h).orElse (fun _ => f.zoneCopy 1 h))

/-- Report heads without a zone block (R86), and copies that differ (R310). -/
def checkZones (d : RSlot) (s : State) : State :=
  (List.range (4 * s.part.c)).foldl (fun t h =>
    match t.flash.zoneCopy 0 h, t.flash.zoneCopy 1 h with
    | none, none => raise d 0x063 [h] t
    | some _, some _ => if readRegion (t.flash.zoneBytes 0 h) 0 0x4000 = readRegion (t.flash.zoneBytes 1 h) 0 0x4000 then t else raise d 0x064 [h] t
    | _, _ => t) s

/-- The first record of a type. -/
def findRec (typ : Nat) (l : List SetRec) : Option SetRec := l.find? (fun r => r.typ = typ)

/-- Both copies of the settings, the zone tables and the calibration are read (R76, R77, R86). -/
def readSettings (s : State) : State :=
  [(setAddr 0, 0x80000), (setAddr 1, 0x80000), (zoneAddr 0 0, 0x60000), (zoneAddr 1 0, 0x60000), (calAddr 0, 32), (calAddr 1, 32)].foldl
    (fun t p => quadRead p.1 p.2 t) s

/-- Settings carry records 0x0001 and 0x0008, each in range (R88, R361, R392). -/
def Settings.enough (c : Settings) : Bool :=
  ((findRec 1 c.records).bind SetRec.board).isSome && ((findRec 8 c.records).bind SetRec.dram).isSome

/-- Settings go to the blocks that own them, and zone tables and calibration follow (R84 to R87, R91 step 7). -/
def loadSettings (d : RSlot) (k : Nat) (c : Settings) (s : State) : State :=
  let s := loadDefaults d ((s.wrR d R.BOOT_STAT_SETCOPY k).wrR d R.BOOT_STAT_OWNKEY (bit s.fuses.ownerKey))
  let s := c.records.foldl (fun t r => applyRecord d r t) s
  let s := if s.boot.portsOff then (List.range 256).foldl (fun t n => t.wrR d (R.PORT_CFG_EN n) 0) s else s
  let s := checkZones d (checkWindows d (checkDomains d s))
  let s := showAdmit { s with boot := { s.boot with
    records := c.records, setCopy := k, sseq := c.sseq, zones := s.flash.zones
    cal := (HdaCal.ofBytes s.flash.cal0).orElse (fun _ => HdaCal.ofBytes s.flash.cal1), settled := d :: s.boot.settled.filter (· ≠ d)
    image := s.boot.image.map (fun p => if p.1 = d then (p.1, p.2.1, c.records) else p) } }
  if d = .f0 then
    let s := copySeverities d s
    let s := match (s.boot.image.find? (fun p => p.1 = .f0)).map (fun p => p.2.1) with
      | some img => loadPressTables img s
      | none => s
    onGroups (fun g t => modFmt g (fun f => { f with answers := f.answers && ! f.paLow }) (paInit g t)) s
  else s

/-- START_SETTINGS (R84 to R88, R91 step 7): both copies are read, and the one chosen is checked and loaded. Without a valid copy, or without records
0x0001 and 0x0008, the start fails (R88). F1 takes its step after F0, with the bus (R94). -/
def execStartSettings (d : RSlot) (s : State) : Host.Outcome State Fault Refusal :=
  if s.hasRind d ∧ s.phase d = 4 ∧ s.hasBus d ∧ (d = .f0 ∨ .f0 ∈ s.boot.settled) then
    let s := readSettings s
    match s.settings with
    | none => .next (settle (startFail [7] s))
    | some p => .next (settle (if p.2.enough then setPhase d 5 (loadSettings d p.1 p.2 s) else startFail [7] s))
  else .next s

/-- START_DIGEST_EXCHANGE (R94): the dies compare what they loaded; on a difference, or where F1 has not come this far, F1 fences and the
device goes on with redundancy degraded. -/
def execStartDigestExchange (f1Here : Bool) (s : State) : Host.Outcome State Fault Refusal :=
  if s.part.f = 2 ∧ s.phase .f0 = 5 ∧ ! s.fenced .f1 then
    let a := (s.boot.image.find? (fun p => p.1 = .f0)).map Prod.snd
    let b := (s.boot.image.find? (fun p => p.1 = .f1)).map Prod.snd
    if f1Here ∧ s.phase .f1 = 5 ∧ a = b then
      .next (s.rinds.foldl (fun t d => t.wrR d R.STEP_STAT_REDUND 1) s)
    else .next (settle (fenceDie .f1 (noteDivergence 5 .f1 s)))
  else .next s

/-- START_MEMORY_SPINDLE (R91 step 8): training starts on both channels; the keeper measures, cooks if the estimate is low, and starts. -/
def execStartMemorySpindle (s : State) : Host.Outcome State Fault Refusal :=
  if s.phase .f0 = 5 then
    let s := s.rinds.foldl (fun t d => startTraining d t) s
    .next (settle (keeperStart s))
  else .next s

/-- Head modes differ between the Rind dies of an F2 part (R105). -/
def State.modeMismatch (s : State) (h : Nat) : Bool :=
  decide (s.part.f = 2) && ! s.fenced .f1 && decide (s.rdR .f0 (R.LINK_HEADCFG_MODE h) ≠ s.rdR .f1 (R.LINK_HEADCFG_MODE h))

/-- HEADS_RELEASE (R68, R91 step 12, R73): PERST# is sampled and the reference clocks are found (bit 4 x die + head of each), and each head trains,
is held, or stays idle. -/
def execHeadsRelease (x : HeadPins) (s : State) : Host.Outcome State Fault Refusal :=
  if s.phase .f0 = 6 ∧ ! s.boot.released then
    let s := { s with boot := { s.boot with released := true }, pins := { s.pins with perst := x.perst, refclk := x.refclk } }
    let s := (List.range 4).foldl (fun t h =>
      if t.modeMismatch h then t.rinds.foldl (fun t d => raise d 0x031 [h] (t.wrR d (R.LINK_HEADCFG_MODE h) 0)) t else t) s
    let s := s.rinds.foldl (fun t d =>
      let lv := x.perst / 2 ^ (4 * d.code) % 16
      let t := (t.wrR d R.DEV_PINSTAT_PERST lv).modRind d (fun r => { r with modes := (List.range 4).map (fun h => s.rdR d (R.LINK_HEADCFG_MODE h)) })
      (List.range 4).foldl (fun t h =>
        t.wrR d (R.LINK_HEADSTAT_STATE h) (t.headStart d h (lv.testBit h))) t) s
    .next (settle (setPhases 7 s))
  else .next s

/-- The spindle has reached the target speed that the budget manager set (R91 step 13): it runs, in lock, no more than 30 rpm below its applied
target (DESIGN CHOICE 125). -/
def State.atSpeed (s : State) : Bool :=
  decide (s.spState = spRunning ∧ 0 < s.rdC 0 R.SPIN_TARGET_APPLIED ∧ s.rdC 0 R.SPIN_TARGET_APPLIED ≤ s.rpm + 30)

/-- Every die has loaded its heads (R91 step 14), but for groups that are offline, or that no Rind die reaches (R245, R354). -/
def State.headsLoaded (s : State) : Bool :=
  s.groups.all (fun g => s.svLoaded g || decide (s.svState g = svOffline ∨ g ∈ s.xlat.offline) || s.serving.all (fun d => ! s.linkUp (.rind d g)))

/-- START_READY (R91 steps 13 to 15, R83, R251, R582): with the spindle at speed and the heads loaded, the tables are read, the volumes follow record
0x0006, READY is reported and source 0x024 raised; a trial is committed. The blowing that a power loss interrupted is completed at READY of a
start that runs the ACTIVE slot (DESIGN CHOICE 126). -/
def execStartReady (elapsedMs : Nat) (s : State) : Host.Outcome State Fault Refusal :=
  if s.phase s.senior = 7 ∧ s.atSpeed ∧ s.headsLoaded then
    if s.tablesLost then .next (settle (startFail [15] (wrAll R.XLAT_STAT_STATE 0xF (raiseAll 0x061 [] s))))
    else
    let s := loadTables s
    let s := s.serving.foldl (fun t d => setPhase d 8 t) s
    let s := s.rinds.foldl (fun t d =>
      (((t.wrR d R.BOOT_STARTTIME_MS elapsedMs).wrR d R.BOOT_STAT_FAILS 0).wrR d R.FAULT_INJ_USED 0)) s
    let s := { s with boot := { s.boot with restarting := false, portsOff := false } }
    let s := inStep (fun d t => raise d 0x024 [elapsedMs] t) s
    let s := startPorts (startTurning s)
    let h := s.boot.hdr
    let s := if s.boot.trial then
        writeHeader { h with active := (h.pending.getD h.active), pending := none, tries := 0 } .commit s
      else
        let svn := s.rdR .f0 R.BOOT_STAT_SVN
        if s.boot.slot = some h.active ∧ s.fuses.svn < svn then
          let s := { s with fuses := { s.fuses with svn := min 127 (max s.fuses.svn svn) } }
          s.rinds.foldl (fun t d => t.wrR d R.BOOT_FUSE_SVNFUSE s.fuses.svn) s
        else s
    .next (settle s)
  else .next s

/-- START_WATCHDOG_EXPIRE (R92): the start has failed. The timer stands still while the keeper cooks and in the pause of R96. -/
def execStartWatchdogExpire (s : State) : Host.Outcome State Fault Refusal :=
  if s.phase .f0 ≤ 7 ∧ 1 ≤ s.phase .f0 ∧ s.spState ≠ spCooking ∧ ! s.pins.sagPause then .next (settle (startFail [s.phase .f0] s)) else .next s

/-- THERMAL_WAIT_END (R527): every die reads below shutdown less the hysteresis: the start runs from step 2. -/
def execThermalWaitEnd (s : State) : Host.Outcome State Fault Refusal :=
  if s.phase .f0 = 0xD ∧ s.budget.diodes.all (fun p => decide (p.2 < (s.threshold p.1 2).1 - (s.threshold p.1 2).2)) then
    .next (setPhases 1 { s with budget := { s.budget with shut := [], hot := [] } })
  else .next s

/-- CURD_IMAGE_LOAD (R475, R91 step 6): the Curd image of the running slot has reached a Curd die: its store is cleared, the base section and
the patches are written, LOADED is set and the formatter starts. -/
def execCurdImageLoad (g : Nat) (s : State) : Host.Outcome State Fault Refusal :=
  match (s.boot.image.find? (fun p => p.1 = .f0)).map (fun p => p.2.1) with
  | some img =>
    if s.hasCurd g ∧ s.linkUp (.curd g .f0) ∧ ! s.bitC g R.CDIE_FCSTORE_LOADED then .next (settle (loadCurdStore g img s)) else .next s
  | none => .next s

/-! ## Buffer memory at the start (R400 to R402) -/

/-- DRAM_TRAINING_DONE (R400, R401): the lanes of channel 0, then of channel 1; the fill starts. A failed lane raises source 0x080 and fails
the start, or fences F1 of an F2 part; in a resync it ends the resync. -/
def execDramTrainingDone (d : RSlot) (lanes : List LaneEyes) (s : State) : Host.Outcome State Fault Refusal :=
  if s.hasRind d ∧ s.rdR d R.BMEM_STAT_PHASE = 1 then
    let s := trainChannel d 1 (lanes.drop 10) (trainChannel d 0 (lanes.take 10) s)
    let bad := (List.range 2).filter (fun c => s.rdR d (R.BMEM_TRAIN_FAILLANE c) ≠ 0xF)
    if bad.isEmpty then .next (s.wrR d R.BMEM_STAT_PHASE 2)
    else
      let s := raise d 0x080 (bad.flatMap (fun c => [c, s.rdR d (R.BMEM_TRAIN_FAILLANE c)])) (s.wrR d R.BMEM_STAT_PHASE 0xF)
      .next (settle (if s.role d = roleResync ∧ s.part.f = 2 then endResync s else if d = .f0 then startFail [8] s else fenceDie d s))
  else .next s

/-- Step 11 of a die (R91): its Cave is invalidated and enabled, the pools are built, and the engines are released. -/
def releaseDie (d : RSlot) (s : State) : State :=
  let s := buildPools d (caveEnableNow d (modCave d (fun _ => {}) ((s.wrR d R.CAVE_STAT_INVDONE 1).wrR d R.CAVE_STAT_BUSY 0)))
  let s := (List.range 8).foldl (fun t i => releaseEngine d i t) s
  setPhase d 6 s

/-- DRAM_FILL_DONE (R402, R91 steps 10 and 11): every byte reads 0 and the channels are ready; the boot culture follows. Where the digests of
R94 have not been exchanged when F0 arrives here, F1 has not come this far and fences. -/
def execDramFillDone (d : RSlot) (s : State) : Host.Outcome State Fault Refusal :=
  if s.hasRind d ∧ s.rdR d R.BMEM_STAT_PHASE = 2 then
    let s := modBmem d (fun m => { m with cells := [], errs := [], poison := [], merges := [], arrived := [] }) s
    let s := (s.wrR d R.BMEM_STAT_PHASE 3).wrR d R.BMEM_STAT_CHRDY 3
    if s.role d = roleResync ∧ s.part.f = 2 then .next s
    else if s.phase d = 5 then
      let s := releaseDie d s
      .next (settle (if s.part.f = 2 ∧ d = .f0 ∧ s.rdR .f0 R.STEP_STAT_REDUND = 0 ∧ ! s.fenced .f1 then fenceDie .f1 (noteDivergence 5 .f1 s) else s))
    else .next s
  else .next s

end Sys2Proof.Machine
end

