-- ==== Sys2Proof/Machine/Fault.lean ====
section
/-! DEFINITION. The fault collector's commands, the ripening log's writer and fault injection (R541 to R573). -/

namespace Sys2Proof.Machine

/-- Change a die's island. -/
def modIsland (d : RSlot) (f : Island → Island) (s : State) : State := s.modRind d (fun r => { r with island := f r.island })

/-- TALLY_CHECK (R470, R567): the ledgers are checked for HSPORT 0x0F, whose answer says whether every one held. -/
def execTallyCheck (d : RSlot) (s : State) : Host.Outcome State Fault Refusal :=
  if s.hasRind d ∧ ! s.fenced d then
    let x := tallyCheck s
    .next (settle (answerAny d 0x0F 1 (openReply 0x0F 1 [bit x.1]) x.1 x.2))
  else .next s

/-- FAULT_RAISE (R542, R543): an event of a source reaches a collector. -/
def execFaultRaise (d : RSlot) (src : Nat) (detail : Nat) (s : State) : Host.Outcome State Fault Refusal :=
  if s.hasRind d then
    let s := answerAny d 0x0E 1 (openReply 0x0E 1 []) true s
    .next (settle (raiseFull d (if src < 0x100 then d.code else curdCode ((src - 0x100) / 0x40)) src [detail] (fixedSev src) s))
  else .next s

/-- COUNT_WINDOW_EXPIRE (R545): the window closes and the effective severity stands, or, W ms after the latest event, returns to Note. -/
def execCountWindowExpire (d : RSlot) (src : Nat) (quiet : Bool) (s : State) : Host.Outcome State Fault Refusal :=
  if s.hasRind d ∧ sourceUsed src ∧ s.bitR d (R.FAULT_SRCCFG_COUNTED src) then
    let s := modIsland d (fun i => { i with windows := assocDel src i.windows }) s
    .next (if quiet then s.wrR d (R.FAULT_SRC_EFF src) (min 1 (s.rdR d (R.FAULT_SRCCFG_SEV src))) else s)
  else .next s

/-- The device leaves the fault state on a die (R546, R547): a recovery, unless the exit follows a latch; the exit that would be one too
many within an hour latches instead. -/
def leaveFault (d : RSlot) (s : State) : State :=
  let i := (s.rind d).island
  let recent := i.exits.filter (fun t => s.now < t + 3600000000)
  if i.freeExit then modIsland d (fun i => { i with freeExit := false }) (s.wrR d R.FAULT_STAT_STATE 0)
  else if s.rdR d R.FAULT_CFG_LATCHN ≤ recent.length then s.wrR d R.FAULT_STAT_STATE 2
  else
    let s := (s.wrR d R.FAULT_STAT_STATE 0).incR d R.FAULT_RECOV_COUNT
    (modIsland d (fun i => { i with exits := s.now :: recent }) s).wrR d R.FAULT_STAT_RECOV (min 0xFF (recent.length + 1))

/-- QUIET_EXPIRE (R546): QUIET seconds have passed with no Degrade or Fatal event: the device leaves the fault state, or latches. -/
def execQuietExpire (s : State) : Host.Outcome State Fault Refusal :=
  .next (s.rinds.foldl (fun t d => if t.rdR d R.FAULT_STAT_STATE = 1 then leaveFault d t else t) s)

/-- End a latch (R547): the recovery count is cleared, and the fault state ends at once where QUIET seconds have passed, else when they
have. -/
def unlatch (d : RSlot) (s : State) : State :=
  if s.rdR d R.FAULT_STAT_STATE = 2 then
    let s := modIsland d (fun i => { i with exits := [], freeExit := true }) ((s.wrR d R.FAULT_STAT_STATE 1).wrR d R.FAULT_STAT_RECOV 0)
    if (s.rind d).island.lastBad + 1000000 * s.rdR d R.FAULT_CFG_QUIET ≤ s.now then leaveFault d s else s
  else s

/-- FAULT_CTL (R547, R555, R572). -/
def faultCtlWrite (ts : List RSlot) (v : Word) (s : State) : State × Nat :=
  let s := if R.FAULT_CTL_UNLATCH.get v = 1 then ts.foldl (fun t d => unlatch d t) s else s
  (if R.FAULT_CTL_ABANDON.get v = 1 then abandonCloseOut s else s, 0)

/-- LOG_CTL (R561): each write of 1 freezes and restarts the lapse time; 0 unfreezes. -/
def setFreeze (on : Bool) (d : RSlot) (s : State) : State :=
  let s := (s.wrR d R.LOG_CTL_FREEZE (bit on)).wrR d R.LOG_STAT_FROZEN (bit on)
  if on then modIsland d (fun i => { i with frozenAt := s.now }) s else s

/-- A write of LOG_CTL. -/
def logCtlWrite (ts : List RSlot) (v : Word) (s : State) : State × Nat :=
  (ts.foldl (fun t d => setFreeze (R.LOG_CTL_FREEZE.get v = 1) d t) s, 0)

/-- LOG_FREEZE_LAPSE (R561): 10 minutes after it was last set the freeze lapses. -/
def execLogFreezeLapse (s : State) : Host.Outcome State Fault Refusal :=
  .next (s.rinds.foldl (fun t d => setFreeze false d t) s)

/-- A write of FAULT_SRCCFG (R541, R572): an unused number's is discarded and logged; a severity shows in FAULT_SRC.EFF, a counted source
starting at Note. -/
def srcCfgWrite (ts : List RSlot) (addr : Nat) (rd : RegDef) (v : Word) (s : State) : State × Nat :=
  let src := (addr - 0xD9000) / 8
  if ! sourceUsed src then (ts.foldl (fun t d => raise d 0x034 [addr] t) s, 2)
  else
    (ts.foldl (fun t d =>
      let k := regKey d.code addr
      let t := t.setWord k (storeWord t.part 0 0 rd (t.word k) v)
      if addr % 8 = 0 then
        t.wrR d (R.FAULT_SRC_EFF src)
          (if t.bitR d (R.FAULT_SRCCFG_COUNTED src) then min 1 (t.rdR d (R.FAULT_SRCCFG_SEV src)) else t.rdR d (R.FAULT_SRCCFG_SEV src))
      else t) s, 0)

/-! ## Fault injection (R568) -/

/-- Plant the fault named by FAULT_INJ.MODE on a die (R568). -/
def plant (d : RSlot) (s : State) : State :=
  let target := s.rdR d R.FAULT_INJTGT_TARGET
  let missed (s : State) : State := raise d 0x0C6 [s.rdR d R.FAULT_INJ_MODE, target] s
  match s.rdR d R.FAULT_INJ_MODE with
  | 1 => let src := s.rdR d R.FAULT_INJ_SOURCE
         if src < 0x100 then raise d src [] s else raiseFull d (curdCode ((src - 0x100) / 0x40)) src [] none s
  | 2 => (plantCaveParity d (16 * target) s).getD (missed s)
  | 3 => (plantWithhold d (target / 32 % 8) (target % 32) s).getD (missed s)
  | 4 => s.modEnd (.rind d (target % 8)) (fun e => { e with corruptNext := true })
  | 5 => plantSymbol d (16 * target) s
  | _ => s

/-- A write of FAULT_INJ (R568): arming raises source 0x0C5 and sets USED; GO while ARM was 1 plants on the die named; GO while ARM was 0 is
discarded and logged. -/
def faultInjWrite (ts : List RSlot) (v : Word) (s : State) : State × Nat :=
  let was := s.bitR s.senior R.FAULT_INJ_ARM
  let go := R.FAULT_INJ_GO.get v = 1
  let arm := R.FAULT_INJ_ARM.get v
  let s := ts.foldl (fun t d =>
    let t := (((t.wrR d R.FAULT_INJ_ARM arm).wrR d R.FAULT_INJ_DIE (R.FAULT_INJ_DIE.get v)).wrR d R.FAULT_INJ_MODE (R.FAULT_INJ_MODE.get v)).wrR d
      R.FAULT_INJ_SOURCE (R.FAULT_INJ_SOURCE.get v)
    if arm = 1 ∧ ! was then (raise d 0x0C5 [] t).wrR d R.FAULT_INJ_USED 1 else t) s
  if ! go then (s, 0)
  else if ! was then (ts.foldl (fun t d => raise d 0x034 [0xD8010] t) s, 2)
  else
    let d := if s.part.f = 2 ∧ R.FAULT_INJ_DIE.get v = 1 then RSlot.f1 else .f0
    (if d ∈ ts then plant d s else s, 0)

/-! ## The log writer (R559 to R562) -/

/-- Take a record out of the staging queue, counting it as stored or dropped (R560). -/
def unstage (d : RSlot) (r : LogRec) (stored : Bool) (s : State) : State :=
  let s := modIsland d (fun i => { i with queue := i.queue.erase r, tries := 0 }) s
  let s := s.wrR d (R.LOG_CNT_QUEUED (r.sev - 1)) (s.rdR d (R.LOG_CNT_QUEUED (r.sev - 1)) - 1)
  let s := s.wrR d R.LOG_STAT_QUEUED (s.rind d).island.queue.length
  s.bump d.code (if stored then R.LOG_CNT_STORED (r.sev - 1) else R.LOG_CNT_DROPPED (r.sev - 1))

/-- LOG_RECORD_PROGRAMMED (R559): the writer's record is in its slot; a bad read-back takes the next slot, and after three the record is
dropped. -/
def execLogRecordProgrammed (good : Bool) (s : State) : Host.Outcome State Fault Refusal :=
  let d := s.flashOwner
  if ! s.pins.sfDriven then .next s
  else match nextRecord d s with
  | none => .next s
  | some r =>
    match logSlot (r.sev = 4) s.flash.log with
    | none => .next s
    | some i =>
      let log := modAt i (fun x => { x with used := x.used + 1, recs := if good then x.recs ++ [r] else x.recs }) s.flash.log
      let x := s.flash.log.getD i {}
      let s := { s with flash := { s.flash with log := log } }.emit (.logProgram r (s.logAddr x x.used))
      let s := s.wrR d R.LOG_STAT_RESERVE (bit (0 < erasedSectors log))
      if good then .next (unstage d r true s)
      else if 3 ≤ (s.rind d).island.tries + 1 then .next (unstage d r false s)
      else .next (modIsland d (fun i => { i with tries := i.tries + 1 }) s)

/-- The oldest sector of the ring, by its lowest RSEQ, among those that meet a condition (the ring is kept oldest first). -/
def oldestSector (p : LogSector → Bool) (l : List LogSector) : Option LogSector := l.find? (fun x => decide (x.used ≠ 0) && p x)

/-- LOG_SECTOR_ERASED (R559): the victim for the record that waits, or, with no erased sector, the new reserve, becomes erased; where no
victim qualifies, the record is dropped. A new reserve waits for VIN (R96), and for the end of a freeze that lets no record out (R561). -/
def execLogSectorErased (s : State) : Host.Outcome State Fault Refusal :=
  let d := s.flashOwner
  let erase (v : LogSector) (s : State) : State :=
    (({ s with flash := { s.flash with log := s.flash.log.erase v ++ [({ pos := v.pos } : LogSector)] } }).emit (.logErase (s.logAddr v 0))).wrR d
      R.LOG_STAT_RESERVE 1
  if ! s.pins.sfDriven then .next s
  else match nextRecord d s with
  | some r =>
    if (logSlot (r.sev = 4) s.flash.log).isSome then
      if erasedSectors s.flash.log = 0 ∧ ! s.pins.sagPause then
        match (oldestSector (fun x => x.recs.all (fun q => q.sev < 4)) s.flash.log).orElse (fun _ => oldestSector (fun _ => true) s.flash.log) with
        | some v => .next (erase v s)
        | none => .next s
      else .next s
    else
      match oldestSector (fun x => x.recs.all (fun q => q.sev ≤ r.sev)) s.flash.log with
      | some v => .next (erase v s)
      | none => .next (unstage d r false s)
  | none =>
    if erasedSectors s.flash.log = 0 ∧ ! s.pins.sagPause ∧ ! s.bitR d R.LOG_STAT_FROZEN then
      match (oldestSector (fun x => x.recs.all (fun q => q.sev < 4)) s.flash.log).orElse (fun _ => oldestSector (fun _ => true) s.flash.log) with
      | some v => .next (erase v s)
      | none => .next s
    else .next s

/-- LOG_SCAN_DONE (R559, R562): RSEQ, operating seconds and the power-cycle count go on from the highest found, the power cycle counted;
records staged before the scan follow in order; the writer marks the power-on. A second scan since power-on reset, after RESET_N, finds what the
island holds and counts no power cycle (DEDUCED 124). -/
def execLogScanDone (d : RSlot) (s : State) : Host.Outcome State Fault Refusal :=
  if s.hasRind d ∧ (s.rind d).island.scanned then
    .next ((s.wrR d R.LOG_STAT_SCANNED 1).wrR d R.LOG_STAT_RESERVE (bit (0 < erasedSectors s.flash.log)))
  else if s.hasRind d then
    let s := modIsland d (fun i => { i with scanned := true }) s
    let recs := s.flash.log.flatMap LogSector.recs
    let base := if recs.isEmpty then 0 else nextRseq ((recs.map LogRec.rseq).foldl max 0)
    let s := s.wrR d R.LOG_PCYC_COUNT ((recs.map LogRec.pcyc).foldl max 0 + 1)
    let s := s.wrR d R.LOG_OPSEC_SEC ((recs.map LogRec.opsec).foldl max 0)
    let s := modIsland d (fun i => { i with queue := i.queue.map (fun r => { r with rseq := r.rseq + base }) }) s
    let s := s.wrR d R.LOG_RSEQ_NEXT (s.rdR d R.LOG_RSEQ_NEXT + base)
    let s := (s.wrR d R.LOG_STAT_SCANNED 1).wrR d R.LOG_STAT_RESERVE (bit (0 < erasedSectors s.flash.log))
    .next (settle (if s.flashOwner = d then raise d 0x0C4 [] s else s))
  else .next s

/-- LOG_WRITER_TAKEOVER (R559): the writer's island has stopped; the other takes the bus and the role. -/
def execLogWriterTakeover (s : State) : Host.Outcome State Fault Refusal :=
  if s.part.f = 2 then
    let d := s.flashOwner.peer
    .next ((s.wrR d R.DEV_PINSTAT_SFOWN 1).wrR d.peer R.DEV_PINSTAT_SFOWN 0)
  else .next s

/-- OPERATING_MARK (R562): the writer raises a Note record. -/
def execOperatingMark (d : RSlot) (s : State) : Host.Outcome State Fault Refusal :=
  .next (settle (if s.hasRind d ∧ s.flashOwner = d then raise d 0x0C4 [] s else s))

/-- WRITE_OUT_TIMEOUT (R223): the write-out before re-initialisation ends; versions not on the media are lost. -/
def execWriteOutTimeout (s : State) : Host.Outcome State Fault Refusal :=
  if s.boot.reinit = some .writeOut then .next (settle (endWriteOut s)) else .next s

/-- CLOSEOUT_TIMEOUT (R555): 10 s without a completion written end the close-out. -/
def execCloseoutTimeout (s : State) : Host.Outcome State Fault Refusal := .next (settle (abandonCloseOut s))

end Sys2Proof.Machine
end

