-- ==== Sys2Proof/Machine/Admin.lean ====
section
/-! DEFINITION. Admin commands: Identify, log pages, features, volumes, settings and firmware (R190 to R201, R563, R569, R570). -/

namespace Sys2Proof.Machine

/-- Admit the next command of a port where it is the one a row is for. -/
def admitIf (p : Nat) (sel : Cmd → Bool) (f : Cmd → State → State) (s : State) : State :=
  match s.nextFetched p with
  | some c => if sel c then settle (admitWith p (fun _ => true) f s) else s
  | none => s

/-- A command that is done as it is admitted completes with a status. -/
def finishAt (c : Cmd) (status info : Nat) (s : State) : State := complete c status info (admitCmd c s)

/-- Data of a command goes to host memory, from every serving die (R499). -/
def toHost (c : Cmd) (addr : Nat) (data : List Byte) (s : State) : State :=
  inStep (fun d t => hostWrite d (some c.uid) (t.portDomain c.port) addr data t) s

/-! ## Structures of bytes (R192, R194, R196, R558, R569, R570) -/

/-- A page of `n` bytes with fields at their offsets: offset, length and value, the bytes of the rest 0. -/
def page (n : Nat) (fields : List (Nat × Nat × Nat)) : List Byte :=
  fields.foldl (fun l f => overBytes l f.1 (natLe f.2.1 f.2.2)) (List.replicate n 0)

/-- An ASCII string padded with spaces to `n` bytes. -/
def padText (n : Nat) (t : String) : List Byte :=
  ((t.toList.map (fun ch => BitVec.ofNat 8 ch.toNat)) ++ List.replicate n (0x20 : Byte)).take n

/-- The ordering code of the part (R1). -/
def Part.code (p : Part) : String :=
  "SNH7630-F" ++ (if p.f = 1 then "1" else "2") ++ "C" ++
    (match p.c with
     | 1 => "1"
     | 2 => "2"
     | 3 => "3"
     | 4 => "4"
     | 5 => "5"
     | _ => "6")

/-- The image of the running slot. -/
def State.running (s : State) : Option SlotImage := s.boot.slot.bind s.slotImage

/-- Volumes present, by number. -/
def State.volumeList (s : State) : List (Nat × Volume) := (List.range 64).filterMap (fun v => (s.xlat.t.vol? v).map (fun x => (v, x)))

/-- The device structure of Identify (R192); the serial number is the device's own, a free value. -/
def State.deviceStructure (s : State) : List Byte :=
  let units := s.capBlocks / 65536
  let l := page 4096 ([(0x034, 4, ((s.running).map SlotImage.version).getD 0), (0x038, 1, ((s.running).map SlotImage.svn).getD 0),
    (0x039, 1, s.rdS R.DEV_DIEPRES_F0PRES + s.rdS R.DEV_DIEPRES_F1PRES), (0x03A, 1, (s.presentCurds s.senior).length),
    (0x03B, 1, (List.range 24).countP s.surfaceUsed), (0x040, 8, s.capBlocks),
    (0x048, 4, units - (s.volumeList.map (fun v => v.2.desc.cap)).sum), (0x04C, 4, 2048), (0x050, 2, 256), (0x052, 2, 16384), (0x054, 1, 64),
    (0x055, 1, 16), (0x056, 2, 4096), (0x058, 2, 16), (0x060, 8, (s.volumeList.map (fun v => 2 ^ v.1)).sum)])
  let l := overBytes (overBytes l 0 (padText 16 "SYNHEHORN")) 0x10 (padText 16 s.part.code)
  overBytes l 0x20 ((List.range 20).map (fun i => BitVec.ofNat 8 (Config.openNat 21 [i])))

/-- The 32 bytes of a volume descriptor (R196). -/
def VolDesc.bytes (d : VolDesc) : List Byte :=
  overBytes (page 32 [(0, 1, d.cls), (1, 1, bit d.ring + 2 * bit d.tpar), (2, 1, d.groups), (4, 4, d.cap), (8, 2, d.rdmask), (0xA, 2, d.wrmask)])
    0x10 ((d.label ++ List.replicate 16 0).take 16)

/-- Units of a volume that hold data: Data units with a written block, Stream bands. -/
def State.usedUnits (s : State) (v : Nat) : Nat :=
  s.xlat.t.bands.countP (fun b => decide (b.vol = v) && b.mapped && decide (b.state ≠ .relocTarget) &&
    (((s.xlat.t.vol? v).map Volume.stream).getD false || ! b.live.isEmpty))

/-- The volume structure of Identify (R192). -/
def State.volumeStructure (s : State) (v : Nat) : List Byte :=
  match s.xlat.t.vol? v with
  | none => List.replicate 4096 0
  | some x => overBytes (page 4096 [(0x020, 8, if x.stream then x.wp else 0), (0x028, 8, if x.stream then x.retlo else 0),
      (0x030, 4, s.usedUnits v)]) 0 x.desc.bytes

/-- IDENTIFY (R192). -/
def execIdentify (port : Nat) (s : State) : Host.Outcome State Fault Refusal :=
  .next (admitIf port (fun c => decide (c.op = 0x80)) (fun c s =>
    finishAt c St.success 0 (toHost c (c.fld 0x10 8) (if c.fld 8 1 = 0 then s.deviceStructure else s.volumeStructure (c.fld 0xA 2)) s)) s)

/-- A log record as 64 bytes (R558); the layout of the detail is not stated, so its bytes are free values of what the record holds. -/
def LogRec.bytes (r : LogRec) : List Byte :=
  let l := page 60 [(0, 4, r.rseq), (4, 4, r.opsec), (8, 3, r.pcyc), (0xB, 1, r.sev + 8 * bit r.island + 16 * bit r.frozen), (0xC, 2, r.source),
    (0xE, 1, r.die), (0xF, 1, r.rung), (0x10, 4, r.subms), (0x14, 4, r.step), (0x18, 4, r.wincnt)]
  let l := overBytes l 0x1C ((List.range 32).map (fun i => BitVec.ofNat 8 (Config.openNat 22 (r.source :: i :: r.detail))))
  l ++ natLe 4 (~~~ (l.foldl crc32cByte (BitVec.allOnes 32))).toNat

/-- Page 0x01 (R563): the stored records in ascending RSEQ. -/
def State.logPage (s : State) : List Byte :=
  (((s.flash.log.flatMap LogSector.recs).mergeSort (fun a b => decide (a.rseq ≤ b.rseq))).flatMap LogRec.bytes)

/-- Page 0x02 (R569), as the senior's collector holds it. -/
def State.faultPage (s : State) : List Byte :=
  let d := s.senior
  let left := (s.rind d).island.lastBad + 1000000 * s.rdR d R.FAULT_CFG_QUIET - s.now
  let w := if s.rdR d R.FAULT_STAT_STATE = 0 then 0 else min 0xFFFF (ceilDiv left 100000)
  let head := page 64 ([(0, 1, s.rdR d R.FAULT_STAT_STATE), (1, 1, min 255 ((s.rind d).island.exits.countP (fun t => s.now < t + 3600000000))),
    (2, 2, w), (4, 4, s.rdR d R.FAULT_RECOV_COUNT), (0x20, 2, s.rdR d R.FAULT_LAST_SOURCE)] ++
    (List.range 6).map (fun i => (8 + 4 * i, 4, s.rdR d (R.FAULT_RUNG_COUNT i))))
  head ++ (List.range 0x280).flatMap (fun src =>
    natLe 2 src ++ natLe 1 (s.rdR d (R.FAULT_SRC_EFF src)) ++
    natLe 1 (s.rdR d (R.FAULT_SRCCFG_SEV src) + 128 * s.rdR d (R.FAULT_SRCCFG_COUNTED src)) ++
    natLe 4 (min (2 ^ 32 - 1) (assocGet src 0 (s.rind d).island.totals)))

/-- Page 0x03 (R570): the latest snapshot. -/
def State.tallyPage (s : State) : List Byte :=
  let d := s.senior
  let n := s.rdR d R.TALLY_NLEDG_COUNT
  let passed := (List.range n).all (fun i => (R.TALLY_LEDG_WORD i 7).get (s.word (regKey d.code (R.TALLY_LEDG_WORD i 7).off)) / 2 ^ 31 = 1)
  page 32 [(0, 8, s.rdR d R.TALLY_SNAP_LO_SNAP + 2 ^ 32 * s.rdR d R.TALLY_SNAP_HI_SNAP), (8, 4, n), (12, 1, bit passed)] ++
  (List.range n).flatMap (fun i => (List.range 8).flatMap (fun k => natLe 4 (s.rdR d (R.TALLY_LEDG_WORD i k))))

/-- STATE of a slot in page 0x04 (R194): 3 while a download into it is open; 1 or 2 where this start has checked it; else 0. -/
def State.slotState (s : State) (i : Nat) : Nat :=
  if (s.session.map FwSession.slot) = some i then 3
  else match s.boot.checked.find? (fun p => p.1 = i) with
    | some (_, true) => 1
    | some (_, false) => 2
    | none => 0

/-- Page 0x04 (R194). -/
def State.slotPage (s : State) : List Byte :=
  page 64 [(0, 1, s.rdS R.BOOT_STAT_SLOT), (1, 1, s.boot.hdr.active), (2, 1, s.boot.hdr.pending.getD 0xFF), (3, 1, s.boot.hdr.tries),
    (4, 1, s.fuses.svn), (8, 4, regionField (s.flash.slot 0) 8 4), (0xC, 2, regionField (s.flash.slot 0) 6 2),
    (0xE, 1, s.slotState 0), (0x10, 4, regionField (s.flash.slot 1) 8 4), (0x14, 2, regionField (s.flash.slot 1) 6 2),
    (0x16, 1, s.slotState 1), (0x18, 4, (s.session.map FwSession.next).getD 0),
    (0x1C, 1, match s.session with
      | some x => s.portDomain x.port
      | none => 0xFF)]

/-- GET_LOG (R193, R563, R569, R570): up to LEN bytes of a page from OFFSET, and INFO the bytes written. The log is read at one instant, so the
freeze of page 0x01 begins and ends within the command. -/
def execGetLog (port : Nat) (s : State) : Host.Outcome State Fault Refusal :=
  .next (admitIf port (fun c => decide (c.op = 0x81)) (fun c s =>
    let lid := c.fld 8 1
    let all := match lid with
      | 1 => s.logPage
      | 2 => s.faultPage
      | 3 => s.tallyPage
      | _ => s.slotPage
    let data := (all.drop ((if lid = 1 then 64 else 1) * c.fld 0x10 8)).take (c.fld 0xC 4)
    finishAt c St.success data.length (if data.isEmpty then s else toHost c (c.fld 0x18 8) data s)) s)

/-! ## Features (R195, R198, R199) -/

/-- The register fields of a feature: offset and length in the value, and the field. -/
def featureFields (fid i : Nat) : List (Nat × Nat × Fld) :=
  match fid with
  | 0x01 => [(0, 2, R.BUDGET_CAP_PCAP)]
  | 0x02 => (List.range 3).flatMap (fun j => [(4 * j, 2, R.BUDGET_THR_TEMP i j), (4 * j + 2, 2, R.BUDGET_THR_HYST i j)])
  | 0x03 => [(0, 2, R.STEP_CFG_TURNMIN)]
  | 0x04 => [(0, 2, R.LINK_DOMWIN_SIZE i), (2, 2, R.LINK_DOMWIN_BASE i), (4, 1, R.LINK_DOMWIN_WACC i)]
  | 0x05 => [(0, 2, R.BOOT_RIDE_VSAG), (2, 1, R.BOOT_RIDE_HOLD)]
  | 0x06 => [(0, 1, R.FAULT_SRCCFG_SEV i), (1, 1, R.FAULT_SRCCFG_COUNTED i), (2, 2, R.FAULT_SRCCFG_N i), (4, 4, R.FAULT_SRCCFG_W i)]
  | _ => []

/-- The settings record that saves a feature (R195). -/
def featureRecord (fid : Nat) : Nat :=
  match fid with
  | 0x03 => 7
  | 0x04 => 5
  | 0x05 => 2
  | 0x06 => 4
  | 0x10 => 6
  | _ => 3

/-- The default of a field: that of R580 and the owning chapters, else its reset value. -/
def State.fieldDefault (s : State) (f : Fld) : Nat :=
  match (settingDefaults s.part).find? (fun p => p.1 = f) with
  | some p => p.2
  | none => f.get (resetWord (regKey 0 f.off))

/-- The value of a field that a settings record of a type gives. -/
def recordField (typ : Nat) (f : Fld) (l : List SetRec) : Option Nat :=
  l.findSome? (fun r =>
    if r.typ ≠ typ then none
    else match r.body with
      | .fields vals => (vals.find? (fun p => p.1 = f)).map Prod.snd
      | .severities l =>
        l.findSome? (fun (src, sev, cnt, n, w) =>
          if f = R.FAULT_SRCCFG_SEV src then some sev
          else if f = R.FAULT_SRCCFG_COUNTED src then some (bit cnt)
          else if f = R.FAULT_SRCCFG_N src then some n
          else if f = R.FAULT_SRCCFG_W src then some w
          else none)
      | _ => none)

/-- The volume a settings record 0x0006 names (R582). -/
def recordVolume (v : Nat) (l : List SetRec) : Option VolDesc :=
  l.findSome? (fun r => match r.body with
    | .volumes vs => (vs.find? (fun x => x.vol = v)).map VolumeRec.desc
    | _ => none)

/-- The 32-byte value of a feature (R195): current, saved or default. -/
def State.featureValue (s : State) (fid i sel : Nat) : List Byte :=
  if fid = 0x10 then
    match (match sel with
      | 0 => (s.xlat.t.vol? i).map Volume.desc
      | 1 => recordVolume i s.boot.records
      | _ => none) with
    | some d => d.bytes
    | none => List.replicate 32 0
  else page 32 ((featureFields fid i).map (fun x => (x.1, x.2.1,
    match sel with
    | 0 => s.rdS x.2.2
    | 1 => (recordField (featureRecord fid) x.2.2 s.boot.records).getD (s.fieldDefault x.2.2)
    | _ => s.fieldDefault x.2.2)))

/-- GET_FEATURES (R195). -/
def execGetFeatures (port : Nat) (s : State) : Host.Outcome State Fault Refusal :=
  .next (admitIf port (fun c => decide (c.op = 0x82)) (fun c s =>
    let v := s.featureValue (c.fld 8 1) (c.fld 0xA 2) (c.fld 9 1)
    let s := if c.fld 0x30 8 = 0 then s else toHost c (c.fld 0x30 8) v s
    finishAt c St.success (leNat (v.take 4)) s) s)

/-- The record list with values of fields replaced in the record of a type. -/
def putFields (typ : Nat) (vals : List (Fld × Nat)) (l : List SetRec) : List SetRec :=
  let keep (old : List (Fld × Nat)) : List (Fld × Nat) := old.filter (fun p => ! vals.any (fun q => q.1 = p.1)) ++ vals
  let is (r : SetRec) : Bool := match r.body with
    | .fields _ => decide (r.typ = typ)
    | _ => false
  if l.any is then l.map (fun r => match r.body with
    | .fields old => if r.typ = typ then { r with body := .fields (keep old) } else r
    | _ => r)
  else l ++ [{ typ := typ, body := .fields vals }]

/-- The record list with a source's severity entry replaced. -/
def putSeverity (e : Nat × Nat × Bool × Nat × Nat) (l : List SetRec) : List SetRec :=
  if l.any (fun r => r.typ = 4) then l.map (fun r => match r.body with
    | .severities old => { r with body := .severities (old.filter (fun x => x.1 ≠ e.1) ++ [e]) }
    | _ => r)
  else l ++ [{ typ := 4, body := .severities [e] }]

/-- The record list with a volume put in, or taken out. -/
def putVolume (v : Nat) (d : Option VolDesc) (cur : List VolumeRec) (l : List SetRec) : List SetRec :=
  let new := cur.filter (fun x => x.vol ≠ v) ++ (match d with
    | some d => [⟨v, d⟩]
    | none => [])
  if l.any (fun r => r.typ = 6) then l.map (fun r => if r.typ = 6 then { r with body := .volumes new } else r) else l ++ [{ typ := 6, body := .volumes new }]

/-- Apply values to register fields on every serving die; a source's effective severity follows its configuration (R541). -/
def applyVals (vals : List (Fld × Nat)) (s : State) : State :=
  inStep (fun d t =>
    let t := vals.foldl (fun t p => t.wrR d p.1 p.2) t
    vals.foldl (fun t p =>
      if 0xD9000 ≤ p.1.off ∧ p.1.off < 0xDA400 ∧ p.1.off % 8 = 0 then
        let src := (p.1.off - 0xD9000) / 8
        let sev := t.rdR d (R.FAULT_SRCCFG_SEV src)
        t.wrR d (R.FAULT_SRC_EFF src) (if t.bitR d (R.FAULT_SRCCFG_COUNTED src) then min 1 sev else sev)
      else t) t) s

/-- Why a command that writes the flash cannot (R190, R191, R198): the settings are signed, F0 does not serve, or VIN is low. -/
def State.flashStop (s : State) (save : Bool) : Option Nat :=
  if save ∧ s.fuses.ownerKey then some St.settingsLocked
  else if RSlot.f0 ∉ s.serving then some St.singleDie
  else if s.pins.sagPause then some St.retryLater
  else none

/-- The bytes of a record whose layout the spec does not give, as the device writes it: free (log entry 84). -/
def openRaw (typ sseq : Nat) : List Byte := natLe (4 * (Config.openNat 87 [typ, sseq] % 1023)) (Config.openNat 88 [typ, sseq])

/-- Write a new settings copy for a command (R84, R198): into the other copy, SSEQ one ahead. The command completes with the write. -/
def saveRecords (c : Cmd) (records : List SetRec) (apply : List (Fld × Nat)) (s : State) : State :=
  let k := 1 - s.boot.setCopy
  let q := (s.boot.sseq + 1) % 2 ^ 32
  let st := Settings.make q (records.map (fun r => if r ∈ s.boot.records then r else { r with raw := openRaw r.typ q }))
  let op := FlashOp.settings k st apply c.port c.tag false
  let s := modCmd c.uid (fun x => { x with flash := true }) s
  startOp op { s with flash := s.flash.setCopy k none }

/-- A SET_FEATURES of a feature with register fields (R195, R198): without SAVE the value applies at once; with it, once saved. WINDOW takes
effect at the next start only. -/
def setFields (c : Cmd) (s : State) : State :=
  let fid := c.fld 8 1
  let i := c.fld 0xA 2
  let vals := (featureFields fid i).map (fun x => (x.2.2, c.fld (0x10 + x.1) x.2.1))
  let prev := leNat ((s.featureValue fid i 0).take 4)
  if ! c.flag 6 then finishAt c St.success prev (applyVals vals s)
  else match s.flashStop true with
    | some st => finishAt c st 0 s
    | none =>
      if s.flash.op.isSome then s
      else
        let records := if fid = 0x06 then
            putSeverity (i, c.fld 0x10 1, decide (c.fld 0x11 1 = 1), c.fld 0x12 2, c.fld 0x14 4) s.boot.records
          else putFields (featureRecord fid) vals s.boot.records
        saveRecords c records (if fid = 0x04 then [] else vals) (modCmd c.uid (fun x => { x with info := prev }) (admitCmd c s))

/-- The command is a SET_FEATURES of this feature, or of one that does not exist, which any of these rows completes. -/
def Cmd.sets (c : Cmd) (fid : Nat) : Bool := decide (c.op = 0x83 ∧ (c.fld 8 1 = fid ∨ c.fld 8 1 ∉ [1, 2, 3, 4, 5, 6, 7, 0x10]))

/-- SET_FEATURES_POWERCAP (R195, R198, R199). -/
def execSetFeaturesPowercap (port : Nat) (s : State) : Host.Outcome State Fault Refusal := .next (admitIf port (fun c => c.sets 1) setFields s)

/-- SET_FEATURES_THERMAL (R195, R198, R199, R524). -/
def execSetFeaturesThermal (port : Nat) (s : State) : Host.Outcome State Fault Refusal := .next (admitIf port (fun c => c.sets 2) setFields s)

/-- SET_FEATURES_TURNING (R195, R198, R199, R509). -/
def execSetFeaturesTurning (port : Nat) (s : State) : Host.Outcome State Fault Refusal := .next (admitIf port (fun c => c.sets 3) setFields s)

/-- SET_FEATURES_WINDOW (R112, R195, R198, R199). -/
def execSetFeaturesWindow (port : Nat) (s : State) : Host.Outcome State Fault Refusal := .next (admitIf port (fun c => c.sets 4) setFields s)

/-- SET_FEATURES_RIDE (R96, R195, R198, R199). -/
def execSetFeaturesRide (port : Nat) (s : State) : Host.Outcome State Fault Refusal := .next (admitIf port (fun c => c.sets 5) setFields s)

/-- SET_FEATURES_FAULTSEV (R195, R198, R199, R541). -/
def execSetFeaturesFaultsev (port : Nat) (s : State) : Host.Outcome State Fault Refusal := .next (admitIf port (fun c => c.sets 6) setFields s)

/-- SET_FEATURES_FAULTCLR (R195, R199, R547): a latched fault ends. -/
def execSetFeaturesFaultclr (port : Nat) (s : State) : Host.Outcome State Fault Refusal :=
  .next (admitIf port (fun c => c.sets 7) (fun c s => finishAt c St.success 0 (inStep unlatch s)) s)

/-! ## Volumes (R163, R196 to R198) -/

/-- An outstanding command other than this one names the volume (R197). -/
def State.volumeNamed (s : State) (c : Cmd) (v : Nat) : Bool :=
  s.cmds.any (fun x => decide (x.uid ≠ c.uid) && (decide (v ∈ x.volumes) || decide (x.op = 0x83 ∧ x.fld 8 1 = 0x10 ∧ x.fld 0xA 2 = v)))

/-- The volumes as record 0x0006 lists them. -/
def State.volumeRecs (s : State) : List VolumeRec := s.volumeList.map (fun v => ⟨v.1, v.2.desc⟩)

/-- Save a volume change (R197, R198): the record is written first, and the tables follow once it is good. -/
def saveVolume (c : Cmd) (v : Nat) (new : Option Volume) (s : State) : State :=
  match s.flashStop true with
  | some st => finishAt c st 0 s
  | none =>
    if s.flash.op.isSome ∨ s.xlat.pendingVol.isSome then s
    else
      let prev := leNat ((s.featureValue 0x10 v 0).take 4)
      let s := modCmd c.uid (fun x => { x with info := prev }) (admitCmd c s)
      saveRecords c (putVolume v (new.map Volume.desc) s.volumeRecs s.boot.records) [] (modXlat (fun x => { x with pendingVol := some (v, new) }) s)

/-- The command sets VOLUME, with CLASS 0 or not, on a volume that is present or absent. -/
def State.setsVolume (s : State) (c : Cmd) (clsZero present : Bool) : Bool :=
  decide (c.op = 0x83 ∧ c.fld 8 1 = 0x10 ∧ (c.fld 0x10 1 = 0) = clsZero ∧ (s.xlat.t.vol? (c.fld 0xA 2)).isSome = present)

/-- VOLUME_CREATE (R197, R242, R243): a permitted group must be populated, and the slots must be there. -/
def execVolumeCreate (port : Nat) (s : State) : Host.Outcome State Fault Refusal :=
  .next (admitIf port (fun c => s.setsVolume c false false) (fun c s =>
    let d := c.volDesc
    let v := c.fld 0xA 2
    if (s.permitted d).isEmpty then finishAt c St.invalidField 0x10 s
    else if (createVolume v d s).isNone then finishAt c St.capacity (s.freeFor d) s
    else saveVolume c v (some { desc := d }) s) s)

/-- VOLUME_CHANGE (R197): the masks and the label alone may change. -/
def execVolumeChange (port : Nat) (s : State) : Host.Outcome State Fault Refusal :=
  .next (admitIf port (fun c => s.setsVolume c false true) (fun c s =>
    let d := c.volDesc
    let v := c.fld 0xA 2
    match s.xlat.t.vol? v with
    | none => s
    | some x =>
      if { d with rdmask := x.desc.rdmask, wrmask := x.desc.wrmask, label := x.desc.label } ≠ x.desc then finishAt c St.invalidField 0x10 s
      else if s.volumeNamed c v then finishAt c St.volumeBusy 0 s
      else saveVolume c v (some { x with desc := d }) s) s)

/-- VOLUME_DELETE (R197): a present volume goes, with its data; an absent one is NO_VOLUME. -/
def execVolumeDelete (port : Nat) (s : State) : Host.Outcome State Fault Refusal :=
  .next (admitIf port (fun c => s.setsVolume c true true || s.setsVolume c true false) (fun c s =>
    let v := c.fld 0xA 2
    if (s.xlat.t.vol? v).isNone then finishAt c St.noVolume 0 s
    else if s.volumeNamed c v then finishAt c St.volumeBusy 0 s
    else saveVolume c v none s) s)

/-- The volume change whose record is good reaches the tables (R197), or is given up. -/
def applyVolume (good : Bool) (s : State) : Option (Nat × Nat) × State :=
  let clear (s : State) : State := modXlat (fun x => { x with pendingVol := none }) s
  match s.xlat.pendingVol with
  | none => (none, s)
  | some (v, new) =>
    if ! good then (none, clear s)
    else match new with
      | none => (none, writeJournal (deleteVolume v (clear s)))
      | some x =>
        if (s.xlat.t.vol? v).isSome then (none, writeJournal (changeVolume v x.desc (clear s)))
        else match createVolume v x.desc (clear s) with
          | some t => (none, writeJournal t)
          | none => (some (St.capacity, s.freeFor x.desc), clear s)

/-- SETTINGS_SAVE_DONE (R84, R190, R191, R197, R198): a good read-back makes the new copy the one in use, the saved value applies, and the command
completes; a bad one is tried once more, then SAVE_FAILED. -/
def execSettingsSaveDone (good : Bool) (s : State) : Host.Outcome State Fault Refusal :=
  match s.flash.op with
  | some (.settings k st vals port tag again) =>
    let info := ((s.cmdOf port tag).map Cmd.info).getD 0
    let stop := s.sagStop
    let s := stop.2
    if stop.1 ∨ (! good ∧ ! again ∧ s.pins.sagPause) then
      let s := (applyVolume false { s with flash := { s.flash with op := none } }).2
      .next (settle (beginHeaderWrite (endCommand port tag St.retryLater 0 s)))
    else if good then
      let s := { s with
        flash := { s.flash.setCopy k (some st) with op := none }
        boot := { s.boot with records := st.records, setCopy := k, sseq := st.sseq } }
      let s := s.rinds.foldl (fun t d => t.wrR d R.BOOT_STAT_SETCOPY k) s
      let r := applyVolume true (applyVals vals s)
      .next (settle (beginHeaderWrite (match r.1 with
        | some x => endCommand port tag x.1 x.2 r.2
        | none => endCommand port tag St.success info r.2)))
    else if ! again then
      let op := FlashOp.settings k st vals port tag true
      .next (againOp op s)
    else
      let s := (applyVolume false { s with flash := { s.flash with op := none } }).2
      .next (settle (beginHeaderWrite (endCommand port tag St.saveFailed 0 s)))
  | _ => .next s

/-! ## Firmware (R89, R190, R191, R200, R201) -/

/-- FW_DOWNLOAD (R190, R191, R200): `data` is what the host's memory holds at DADDR. -/
def execFwDownload (port : Nat) (data : List Byte) (s : State) : Host.Outcome State Fault Refusal :=
  .next (admitIf port (fun c => decide (c.op = 0x84)) (fun c s =>
    let off := c.fld 8 4
    let data := readRegion data 0 (c.fld 0xC 4)
    let other := s.session.any (fun x => decide (s.portDomain x.port ≠ s.domOf c))
    match s.flashStop false with
    | some st => finishAt c st 0 s
    | none =>
      if other then finishAt c St.fwBusy ((s.session.map (fun x => s.portDomain x.port)).getD 0) s
      else if off ≠ 0 ∧ (s.session.map FwSession.next) ≠ some off then
        finishAt c St.fwSequence ((s.session.map FwSession.next).getD 0) s
      else if s.flash.op.isSome then s
      else
        let s := modCmd c.uid (fun x => { x with flash := true }) (admitCmd c s)
        let s := if off = 0 then { s with session := some ⟨port, 0, s.now, s.targetSlot⟩ } else s
        if off = 0 ∧ s.boot.hdr.pending = some s.targetSlot then
          writeHeader { s.boot.hdr with pending := none } (.download data c.port c.tag) s
        else beginChunk off data c.port c.tag s) s)

/-- FW_CHUNK_PROGRAMMED (R191, R200): the chunk is in the slot and DLOFF advances; VIN that fell below VSAG in its course ends it part way, with the
bytes accepted, a free number of whole 64 KiB blocks, or not at all where the last block had begun; a bad read-back is SAVE_FAILED. -/
def execFwChunkProgrammed (good : Bool) (s : State) : Host.Outcome State Fault Refusal :=
  match s.flash.op with
  | some (.chunk off data port tag) =>
    let s := { s with flash := { s.flash with op := none } }
    let slot := (s.session.map FwSession.slot).getD s.targetSlot
    let len := data.length
    let put (n : Nat) (s : State) : State :=
      { s with flash := s.flash.putSlot slot (programChunk (s.flash.slot slot) off (data.take n ++ List.replicate (len - n) 0xFF))
               session := s.session.map (fun x => { x with next := off + n, since := s.now }) }
    let r := if s.flash.sagged then s.fresh else (len, s)
    let n := if s.flash.sagged then min len (65536 * (r.1 % (ceilDiv len 65536 + 1))) else len
    let s := r.2
    if n < len then .next (settle (beginHeaderWrite (endCommand port tag St.retryLater n (put n s))))
    else if good then .next (settle (beginHeaderWrite (endCommand port tag St.success 0 (put len s))))
    else .next (settle (beginHeaderWrite (endCommand port tag St.saveFailed 0 s)))
  | _ => .next s

/-- FW_SESSION_TIMEOUT (R200): 10 minutes with no chunk close the session. -/
def execFwSessionTimeout (s : State) : Host.Outcome State Fault Refusal := .next { s with session := none }

/-- FW_ACTIVATE (R81, R201): the target slot is checked; a good one becomes PENDING with three tries, and the session closes either way. -/
def execFwActivate (port : Nat) (s : State) : Host.Outcome State Fault Refusal :=
  .next (admitIf port (fun c => decide (c.op = 0x85)) (fun c s =>
    match s.flashStop false with
    | some st => finishAt c st 0 s
    | none =>
      let s := noteChecked s.targetSlot s
      let bad := match s.slotImage s.targetSlot with
        | some img => failedConditions s.fuses img
        | none => [1]
      if s.flash.op.isSome then s
      else if bad = [3] then finishAt c St.imageRollback s.fuses.svn { s with session := none }
      else match bad with
        | k :: _ => finishAt c St.imageInvalid k { s with session := none }
        | [] =>
          let s := modCmd c.uid (fun x => { x with flash := true }) (admitCmd c { s with session := none })
          writeHeader { s.boot.hdr with pending := some s.targetSlot, tries := 3 } (.activate c.port c.tag) s) s)

end Sys2Proof.Machine
end

