-- ==== Sys2Proof/Machine/Budget.lean ====
section
/-! DEFINITION. The budget manager and the thermal watch: the commands (R521 to R539), and the reports it takes from the Curd dies (R389,
R522). -/

namespace Sys2Proof.Machine

/-- A report of `C{g}` has been taken: each serving die frees the buffer that held it, and it is an input in step (R303, R493). -/
def takeRpt (g : Nat) (p : Msg → Bool) (s : State) : State :=
  inStep (fun d t =>
    match ((t.fvEnd (.rind d g)).rx.getD 2 {}).held.find? (fun m => m.cls = 2 && p m) with
    | some m => takeMsg (.rind d g) m t
    | none => t) (newStep 0x05 (curdCode g) 0 s)

/-- BUDGET_CYCLE (R521, R529): a cycle starts at a timer expiry in step. -/
def execBudgetCycle (s : State) : Host.Outcome State Fault Refusal :=
  .next (settle (if s.budgetRuns then cycle (newStep 0x08 0 0 s) else s))

/-- BUDGET_INPUT_WRITE (R521): an island writes VIN and its die's temperature into BUDGET_IN, a set-up write in step; a fenced die's own
changes its own copy alone. -/
def execBudgetInputWrite (d : RSlot) (s : State) : Host.Outcome State Fault Refusal :=
  if ! s.hasRind d then .next s
  else
    let ts := if s.fenced d then [d] else s.serving
    let s := if s.fenced d then s else newStep 0x03 d.code 0 s
    let s := ts.foldl (fun t e => t.wrR e (R.BUDGET_IN_VIN d.code) (min 0xFFF (t.pins.vinMv / 10))) s
    match s.budget.diodes.find? (fun p => p.1 = d.code) with
    | none => .next (settle s)
    | some p =>
      let s := ts.foldl (fun t e => t.wrR e (R.BUDGET_IN_TEMP d.code) (unsgn 16 p.2)) s
      .next (settle (if s.fenced d then s else takeReading d.code p.2 s))

/-! ## Thermal shutdown (R527) -/

/-- The shutdown of a die is raised as Fatal on the islands of the serving dies, on its own island where it is a Rind die, and counted. -/
def noteShutdown (i : Nat) (s : State) : State :=
  let s := modBudget (fun b => { b with shut := setMem i true b.shut }) s
  let on := s.rinds.filter (fun d => ! s.fenced d || decide (d.code = i))
  let s := on.foldl (fun t d => raiseFull d i 0x0B2 [i] (some 4) t) s
  showTemp i (incAll R.BUDGET_EVT_SHUTDN 1 s)

/-- Device thermal shutdown: every actuator retracts, the gates go low, REG_EN drops, and the device waits. -/
def deviceShutdown (s : State) : State :=
  let s := onGroups emergencyRetract (gatesOff s)
  let s := setRegEn false (coreReset { settle s with mediaClean := false })
  setPhases 0xD { s with boot := { s.boot with restarting := false, portsOff := false } }

/-- What follows a shutdown, by die. -/
def shutDie (die : Die) (s : State) : State :=
  match die with
  | .curd 0 =>
    let s := emergencyRetract 0 (gatesOff s)
    (s.groups.filter (· ≠ 0)).foldl (fun t g => startUnload g t) s
  | .curd g => groupOffline g ((emergencyRetract g s).modCurd g (fun c => { c with inReset := true }))
  | .rind d =>
    if s.fenced d then s
    else if s.part.f = 2 ∧ ! s.fenced d.peer then (if s.inTwo then dropDie d s else fenceDie d s)
    else deviceShutdown s

/-- What a die's return below its shutdown threshold less the hysteresis brings: C0's, the device's re-initialisation; a fenced Rind die's, its
resync. The other Curd dies wait for the next re-initialisation. -/
def coolDie (die : Die) (s : State) : State :=
  match die with
  | .curd 0 => { modBudget (fun b => { b with shut := setMem 8 false b.shut }) s with todo := s.todo ++ [.reinit] }
  | .curd _ => s
  | .rind d =>
    let s := showTemp d.code (modBudget (fun b => { b with shut := setMem d.code false b.shut }) s)
    match s.serving with
    | [srv] => if s.role d = roleFenced ∧ s.bitR srv R.STEP_CFG_AUTORS then startResync s else s
    | _ => s

/-- The code of a die. -/
def dieCode : Die → Nat
  | .rind d => d.code
  | .curd g => curdCode g

/-- The die is in the part. -/
def State.hasDie (s : State) : Die → Bool
  | .rind d => s.hasRind d
  | .curd g => s.hasCurd g

/-- DIODE_SAMPLE (R523, R527): an island reads its die's diode; the second sample in a row at or above the shutdown threshold shuts the die
down. During the thermal wait the readings alone are kept. -/
def execDiodeSample (die : Die) (deciC : Int) (s : State) : Host.Outcome State Fault Refusal :=
  if ! s.hasDie die ∨ ! s.pins.por then .next s
  else
    let i := dieCode die
    let th := s.threshold i 2
    let n := if th.1 ≤ deciC then min 2 (assocGet i 0 s.budget.hot + 1) else 0
    let s := modBudget (fun b => { b with diodes := assocPut i deciC b.diodes, hot := assocPut i n b.hot }) s
    if s.phase .f0 = 0xD then .next s
    else if 2 ≤ n ∧ i ∉ s.budget.shut then .next (settle (shutDie die (noteShutdown i s)))
    else if i ∈ s.budget.shut ∧ deciC < th.1 - th.2 then .next (settle (coolDie die s))
    else .next s

/-- CURD_REPORT_MISSING (R523): a Curd die's report has been missing for 50 ms: it counts as at its throttle threshold. -/
def execCurdReportMissing (g : Nat) (s : State) : Host.Outcome State Fault Refusal :=
  if s.hasCurd g ∧ ! s.leftBudget (curdCode g) then
    .next (settle (showTemp (curdCode g) (modBudget (fun b => { b with missing := setMem g true b.missing }) (newStep 0x08 (curdCode g) 0 s))))
  else .next s

/-! ## The throttle, the active groups and the raise (R533 to R538) -/

/-- GRACE_EXPIRE (R538): the grace has reached 0: admission weights are enforced at depth 1. -/
def execGraceExpire (s : State) : Host.Outcome State Fault Refusal :=
  if s.rdS R.BUDGET_STAT_THROT = 1 ∧ s.rdS R.BUDGET_STAT_ENF = 0 then .next (settle (enforce (newStep 0x08 0 0 s))) else .next s

/-- THROTTLE_DEPTH_TICK (R538): a second of enforcement has passed. -/
def execThrottleDepthTick (s : State) : Host.Outcome State Fault Refusal :=
  if s.rdS R.BUDGET_STAT_ENF = 1 then .next (settle (depthTick (newStep 0x08 0 0 s))) else .next s

/-- ACTIVE_GROUP_RECHOOSE (R533): 500 ms have passed since the active groups were chosen. -/
def execActiveGroupRechoose (s : State) : Host.Outcome State Fault Refusal :=
  .next (settle (if s.budgetRuns then rechoose (newStep 0x08 0 0 s) else s))

/-- SPINDLE_RAISE_WAIT (R536): work other than appends has waited for RAISEMS: the target is raised. -/
def execSpindleRaiseWait (s : State) : Host.Outcome State Fault Refusal :=
  .next (settle (if s.budgetRuns then sendTarget (nextRaises (newStep 0x08 0 0 s)) else s))

/-- RAISE_HOLD_EXPIRE (R536): HOLDS seconds without such work: the raise is withdrawn. -/
def execRaiseHoldExpire (s : State) : Host.Outcome State Fault Refusal :=
  if s.budgetRuns ∧ s.budget.raiseWork ∧ s.otherOps.isEmpty then
    .next (settle (sendTarget (modBudget (fun b => { b with raiseWork := false }) (nextRaises (newStep 0x08 0 0 s)))))
  else .next s

/-- BUDGET_READ (R470, R540): the budget manager's decisions go to an engine; the layout of the response is not stated. -/
def execBudgetRead (d : RSlot) (eng : Nat) (s : State) : Host.Outcome State Fault Refusal :=
  let w (o : Nat) : Nat := (s.word (regKey d.code o)).toNat
  .next (settle (reply (.rind d eng) 0x11 1 (openReply 0x11 1 [w 0xC0000, w 0xC0054, w 0xC0058]) true s))

/-! ## Reports (R389, R522) -/

/-- RPT_DIE_REPORT (R522): readers, load state and temperature of a Curd die. -/
def execRptDieReport (g : Nat) (w0 : Word) (s : State) : Host.Outcome State Fault Refusal :=
  if s.hasCurd g ∧ w0.toNat / 2 ^ 28 = 6 then
    let s := takeRpt g (fun m => m.payload.head? = some w0) s
    let temp := sgn 16 (w0.toNat % 2 ^ 16)
    let r : DieReport := ⟨w0.toNat / 2 ^ 26 % 4, w0.toNat.testBit 25, temp, s.now⟩
    let s := modBudget (fun b => { b with reports := assocPut g r b.reports, missing := setMem g false b.missing }) s
    .next (settle (takeReading (curdCode g) temp s))
  else .next s

/-- RPT_SPINDLE (R389): speed, ceiling, VMOT and HDA estimate. -/
def execRptSpindle (w0 w1 w2 w3 : Word) (s : State) : Host.Outcome State Fault Refusal :=
  if w0.toNat / 2 ^ 28 = 4 then
    .next (settle (modBudget (fun b => { b with spindle := [w0, w1, w2, w3] }) (takeRpt 0 (fun m => m.payload = [w0, w1, w2, w3]) s)))
  else .next s

end Sys2Proof.Machine
end

