-- ==== Sys2Proof/Machine/Buffer.lean ====
section
/-! DEFINITION. Commands of the buffer memory controller: reads returned, the marking window, the merge buffer, refresh, alerts and pages
(R396 to R413). -/

namespace Sys2Proof.Machine

/-- BMEM_READ_COMPLETE (R396 to R399, R405, R406, R412): a burst returns the 20 symbols of a codeword, and it is decoded clean, corrected or
poisoned; a fill in flight over it takes the result. A command completed without an alert ends a replay. -/
def execBmemReadComplete (d : RSlot) (cw : Nat) (syms : List Byte) (s : State) : Host.Outcome State Fault Refusal :=
  if ! s.hasRind d ∨ syms.length ≠ 20 ∨ s.dataBytes d ≤ 16 * cw then .next s
  else
    let r := decodeCw d cw (syms.map BitVec.toNat) (openRow d cw s)
    let s := modBmem d (fun m => { m with replay := m.replay.erase (cwChan cw) }) r.2.2
    .next (settle (if (s.rind d).cave.fills.any (fun f => f.line = cw / 8) then
      modBmem d (fun m => { m with arrived := (cw, r.1, r.2.1) :: m.arrived.filter (fun p => p.1 ≠ cw) }) s else s))

/-- MARK_WINDOW_EXPIRE (R398): a marking window of a channel ends and the counts of its devices start anew. -/
def execMarkWindowExpire (d : RSlot) (c : Nat) (s : State) : Host.Outcome State Fault Refusal :=
  let n := s.rdR d R.BMEM_MARKCFG_THR
  .next (modBmem d (fun m => { m with window := m.window.filter (fun p => p.1 / 10 ≠ c), thr := assocPut c n m.thr }) s)

/-- MERGE_AGE_EXPIRE (R403, R405): an entry older than HOLDNS is written out by read-modify-write. -/
def execMergeAgeExpire (d : RSlot) (cw : Nat) (s : State) : Host.Outcome State Fault Refusal :=
  match (s.rind d).bmem.merges.find? (fun e => e.cw = cw) with
  | some e => .next (settle (mergeOut d e s))
  | none => .next s

/-- The bank lies in a bank set (R410): the set is 8 x channel + 4 x rank + bank. -/
def inBankSet (key row : Nat) : Bool := decide (row / 64 = key / 8 ∧ row / 32 % 2 = key / 4 % 2 ∧ row / 8 % 4 = key % 4)

/-- Every bank of a bank set is idle. -/
def State.setIdle (s : State) (d : RSlot) (key : Nat) : Bool := (s.rind d).bmem.rows.all (fun p => ! inBankSet key p.1)

/-- REFRESH_DUE (R408, R410): a bank set owes one more refresh: issued where its banks are idle; the fifth is forced, its banks precharged. -/
def execRefreshDue (d : RSlot) (c set : Nat) (s : State) : Host.Outcome State Fault Refusal :=
  if ! s.hasRind d ∨ 2 ≤ c ∨ 8 ≤ set then .next s
  else
    let key := 8 * c + set
    if s.setIdle d key then .next s
    else
      let n := assocGet key 0 (s.rind d).bmem.owed
      if 4 ≤ n then .next ((modBmem d (fun m => { m with rows := m.rows.filter (fun p => ! inBankSet key p.1) }) s).incR d R.BMEM_REF_FORCED)
      else .next (modBmem d (fun m => { m with owed := assocPut key (n + 1) m.owed }) s)

/-- REFRESH_RATE_POLL (R411): while any device of the channel indicates a raised temperature, FAST is set. -/
def execRefreshRatePoll (d : RSlot) (c : Nat) (hot : List Bool) (s : State) : Host.Outcome State Fault Refusal :=
  if ! s.hasRind d ∨ 2 ≤ c then .next s
  else
    let old := s.rdR d R.BMEM_REF_FAST
    .next (s.wrR d R.BMEM_REF_FAST (if hot.any id then old ||| 2 ^ c else old &&& (3 - 2 ^ c)))

/-- DRAM_ALERT (R412): the commands since the last good one are replayed; a second alert during a replay raises source 0x083 and takes a
function reset of the controller. -/
def execDramAlert (d : RSlot) (c : Nat) (s : State) : Host.Outcome State Fault Refusal :=
  if ! s.hasRind d ∨ 2 ≤ c then .next s
  else
    let s := s.incR d R.BMEM_ORDER_ALERT
    if c ∈ (s.rind d).bmem.replay then .next (settle (functionReset d .bmem (raise d 0x083 [c] s)))
    else .next (modBmem d (fun m => { m with replay := c :: m.replay }) s)

/-- PAGE_IDLE (R408, R410): a bank of a channel (32 x rank + 8 x bank + bank group) has had no request for IDLE ns: its row is closed, and a
bank set all of whose banks are then idle takes the refreshes it owes. -/
def execPageIdle (d : RSlot) (c bank : Nat) (s : State) : Host.Outcome State Fault Refusal :=
  if 2 ≤ c ∨ 64 ≤ bank then .next s
  else
    let s := modBmem d (fun m => { m with rows := assocDel (64 * c + bank) m.rows, wrote := assocDel (64 * c + bank) m.wrote }) s
    let key := 8 * c + 4 * (bank / 32) + bank / 8 % 4
    .next (if s.setIdle d key then modBmem d (fun m => { m with owed := assocDel key m.owed }) s else s)

end Sys2Proof.Machine
end

