-- ==== Sys2Proof/Machine/Cave.lean ====
section
/-! DEFINITION. Commands of the Cave: reads, writes, fills, the eviction buffer and maintenance (R429 to R444). -/

namespace Sys2Proof.Machine

/-- Fills that may be in flight at once (R430). -/
def maxFills : Nat := 64

/-- A read miss (R430): it joins the fill of its line, or starts one; past 64 in flight the fill waits for its turn. -/
def joinFill (d : RSlot) (who : AccWho) (line : Nat) (noalloc : Bool) (s : State) : State :=
  let c := (s.rind d).cave
  if c.fills.any (fun f => f.line = line) then
    modCave d (fun c => { c with fills := c.fills.map (fun f =>
      if f.line = line then { f with alloc := f.alloc || ! noalloc, waiters := f.waiters ++ [who] } else f) }) s
  else modCave d (fun c => { c with fills := c.fills ++ [⟨line, who.cls, ! noalloc, [who]⟩] }) s

/-- The read can be served without a fill: the line is held, or waits in the eviction buffer (R430, R436). -/
def State.caveServes (s : State) (d : RSlot) (line : Nat) : Bool :=
  s.tagFault d line || s.caveHits d line || (s.rind d).cave.evict.any (fun e => e.line = line)

/-- CAVE_READ (R430, R431, R436, R438, R443): a hit is served from the line, a match from the eviction buffer; a miss waits on a fill. With
the Cave off the read goes to buffer memory. -/
def execCaveRead (d : RSlot) (who : AccWho) (addr : Nat) (noalloc : Bool) (s : State) : Host.Outcome State Fault Refusal :=
  let line := addr / 128
  if ! s.hasRind d ∨ s.dataBytes d ≤ addr then .next s
  else if ! s.caveOn d ∨ s.caveServes d line then
    let r := caveReadLine d who.cls line (! noalloc) s
    .next (settle (r.2.2.emit (.load r.1 r.2.1)))
  else .next (settle (joinFill d who line noalloc (countLookup d line (maintRun d s))))

/-- CAVE_WRITE (R430, R436, R443): a write of buffer memory through the Cave. -/
def execCaveWrite (d : RSlot) (who : AccWho) (addr : Nat) (data : List Byte) (s : State) : Host.Outcome State Fault Refusal :=
  if ! s.hasRind d ∨ s.dataBytes d < addr + data.length then .next s else .next (settle (caveWrite d who addr data false s))

/-- What a fill's read brings (R396, R430): the codewords whose burst has returned, the others read now, with merge entries over them. -/
def fillData (d : RSlot) (line : Nat) (s : State) : List Byte × Bool × State :=
  (List.range 8).foldl (fun acc i =>
    let t := acc.2.2
    let cw := 8 * line + i
    let r : List Byte × Bool × State :=
      match (t.rind d).bmem.arrived.find? (fun p => p.1 = cw) with
      | some (_, data, bad) =>
        (match (t.rind d).bmem.merges.find? (fun e => e.cw = cw) with
         | some e => (e.over data, bad, t)
         | none => (data, bad, t))
      | none => readCw d cw t
    (acc.1 ++ r.1, acc.2.1 || r.2.1, r.2.2)) ([], false, s)

/-- CAVE_FILL_COMPLETE (R396, R430 to R432, R434, R435, R443): a fill in flight returns: every requester that waits gets the line, poisoned
where its read was uncorrectable; a good line is allocated where a requester allows it. -/
def execCaveFillComplete (d : RSlot) (line : Nat) (s : State) : Host.Outcome State Fault Refusal :=
  match ((s.rind d).cave.fills.take maxFills).find? (fun f => f.line = line) with
  | none => .next s
  | some f =>
    let s := modCave d (fun c => { c with fills := c.fills.erase f }) (maintRun d s)
    let r := readLine d f.cls line f.alloc (fillData d line) s
    let s := modBmem d (fun m => { m with arrived := m.arrived.filter (fun p => p.1 / 8 ≠ line) }) r.2.2
    .next (settle (f.waiters.foldl (fun t _ => t.emit (.load r.1 r.2.1)) s))

/-- EVICTION_DRAIN (R435): the next entry, in the order they entered, is written to buffer memory. -/
def execEvictionDrain (d : RSlot) (s : State) : Host.Outcome State Fault Refusal :=
  .next (if s.hasRind d then settle (evictDrain d s) else s)

/-- CAVE_MAINT_START (R440, R442, R470): an engine starts a maintenance operation over the range of CAVE_MBASE and CAVE_MLIMIT; its request
is answered, with OK clear where one runs already. -/
def execCaveMaintStart (d : RSlot) (op : Nat) (spareLocked : Bool) (s : State) : Host.Outcome State Fault Refusal :=
  if ! s.hasRind d ∨ 4 ≤ op then .next s
  else
    let ok := ! s.bitR d R.CAVE_STAT_BUSY
    .next (settle (answerAny d 0x0D 1 (openReply 0x0D 1 [bit ok]) ok (maintStart d op spareLocked s)))

/-- CAVE_MAINT_DONE (R437, R441): the engine passes its last set and BUSY clears. -/
def execCaveMaintDone (d : RSlot) (s : State) : Host.Outcome State Fault Refusal := .next (settle (maintDone d s))

end Sys2Proof.Machine
end

