-- ==== Sys2Proof/Machine/Command.lean ====
section
/-! DEFINITION. I/O commands: admission, media work, hazards, completion and the command timeout (R166 to R189, R202 to R222, R551). -/

namespace Sys2Proof.Machine

/-- Admit the next command of a port of one opcode (R188, R209); the active groups follow new work (R533). -/
def admitOp (p op : Nat) (f : Cmd → State → State) (s : State) : State :=
  settle (workArrived (admitWith p (fun o => decide (o = op)) f s))

/-- READ (R171 to R178, R211). -/
def execRead (port : Nat) (s : State) : Host.Outcome State Fault Refusal := .next (admitOp port 0x01 admitRead s)

/-- WRITE (R171 to R173, R209, R212). -/
def execWrite (port : Nat) (s : State) : Host.Outcome State Fault Refusal := .next (admitOp port 0x02 admitWrite s)

/-- APPEND (R164, R174, R254, R256). -/
def execAppend (port : Nat) (s : State) : Host.Outcome State Fault Refusal := .next (admitOp port 0x03 admitAppend s)

/-- FENCE (R179, R216 to R218). -/
def execFence (port : Nat) (s : State) : Host.Outcome State Fault Refusal := .next (admitOp port 0x04 admitFence s)

/-- FLUSH (R180, R222). -/
def execFlush (port : Nat) (s : State) : Host.Outcome State Fault Refusal := .next (admitOp port 0x05 admitFlush s)

/-- TRIM (R181, R182). -/
def execTrim (port : Nat) (s : State) : Host.Outcome State Fault Refusal := .next (admitOp port 0x06 admitTrim s)

/-- COPY (R183, R213). -/
def execCopy (port : Nat) (s : State) : Host.Outcome State Fault Refusal := .next (admitOp port 0x07 admitCopy s)

/-- WINMAP (R184, R185): it reads as READ does, and its data goes to the window. -/
def execWinmap (port : Nat) (s : State) : Host.Outcome State Fault Refusal := .next (admitOp port 0x08 admitRead s)

/-- ABORT (R186, R219, R220). -/
def execAbort (port : Nat) (s : State) : Host.Outcome State Fault Refusal := .next (admitOp port 0x09 admitAbort s)

/-- INVALID_OPCODE (R168, R188): a command of no opcode completes so. -/
def execInvalidOpcode (port : Nat) (s : State) : Host.Outcome State Fault Refusal :=
  .next (settle (admitWith port (fun o => decide (o ∉ knownOps)) (fun _ t => t) s))

/-- Completion entry for a command that may complete (R136, R137, R221, R470): the request of an engine is answered then. -/
def generateCompletion (port tag : Nat) (s : State) : State :=
  match s.cmdOf port tag with
  | none => s
  | some c =>
    if (s.outcome c).isSome then inStep (fun d t => answerAny d 0x0A 2 (openReply 0x0A 2 [port, tag]) true t) (tryComplete port tag s) else s

/-- GENERATE_COMPLETION (R176, R216, R219, R221, R222, R470). -/
def execGenerateCompletion (port tag : Nat) (s : State) : Host.Outcome State Fault Refusal := .next (settle (generateCompletion port tag s))

/-- READ_COMMAND_RECORD (R470): an engine reads the record of a command, which it holds from then on; the record's layout in the latch is not
stated, so it is a free value of the descriptor. -/
def execReadCommandRecord (d : RSlot) (eng port tag : Nat) (s : State) : Host.Outcome State Fault Refusal :=
  match s.cmdOf port tag with
  | none => .next (settle (reply (.rind d eng) 0x0A 1 (openReply 0x0A 1 []) false s))
  | some c =>
    let s := modEng (.rind d eng) (fun g => { g with held := c.uid :: g.held.filter (· ≠ c.uid) }) s
    .next (settle (reply (.rind d eng) 0x0A 1 (openReply 0x0A 1 (c.desc.map BitVec.toNat)) true s))

/-- A media operation is handed out (R208): its blocks or versions are taken, and the group has worked for a host. -/
def takeOp (g : Nat) (o : MediaOp) (s : State) : State :=
  let s := if o.write then
      { s with versions := s.versions.map (fun x => if decide (x.uid = o.uid) && o.blocks.any (fun b => decide (b = (x.vol, x.blk))) then
        { x with taken := true } else x) }
    else modCmd o.uid (fun c => { c with taken := c.taken ++ o.blocks.map (fun b => b.2 - c.slba) }) s
  modXlat (fun x => { x with worked := assocPut g s.now x.worked }) s

/-- TAKE_MEDIA_OPERATION (R208, R533): the engine of a group takes its next operation, where the group is active; with none its request is
answered with OK clear. `times` are the estimated access times of the operations that wait, oldest command first. -/
def execTakeMediaOperation (g : Nat) (times : List Nat) (s : State) : Host.Outcome State Fault Refusal :=
  let tell (v : BitVec 64) (ok : Bool) (s : State) : State := inStep (fun d t => reply (.rind d g) 0x0B 1 v ok t) s
  match (if s.groupActive g then s.nextMediaOp g times else none) with
  | none => .next (settle (tell (openReply 0x0B 1 []) false s))
  | some o => .next (settle (tell (openReply 0x0B 1 (o.uid :: o.rung :: o.blocks.map Prod.snd)) true (takeOp g o s)))

/-- RELEASE_HAZARD (R210, R470): the command needs its versions no more; what is settled is retired. -/
def execReleaseHazard (port tag : Nat) (s : State) : Host.Outcome State Fault Refusal :=
  match s.cmdOf port tag with
  | none => .next s
  | some c =>
    let s := showSched (retire (modCmd c.uid (fun x => { x with freed := true }) s))
    .next (settle (inStep (fun d t => answerAny d 0x0B 2 (openReply 0x0B 2 []) true t) s))

/-- Runs of a group that serve a command (R551): one of their positions holds a block of its range. -/
def State.runsOf (s : State) (c : Cmd) : List (Nat × Nat) :=
  (s.runs.filter (fun r =>
    let w (i : Nat) : Nat := (r.2.2.getD i 0).toNat
    let first := w 0 % 1024
    (List.range (w 2 / 2 ^ 21)).any (fun i =>
      match s.blockAt ⟨4 * r.1 + w 0 / 2 ^ 26 % 4, w 1, first + i⟩ with
      | some (sl, o) =>
        (match s.xlat.t.bandAt sl with
         | some b => c.covers b.vol (65536 * b.vband + o)
         | none => false)
      | none => false))).map (fun r => (r.1, r.2.1))

/-- COMMAND_TIMEOUT (R549 to R553): the engines that hold the command get a class 7 event, its runs are ended at the Curd dies (CTLOP 0x53),
and it completes with DEVICE_RECOVERED, INFO 3: rung 3, source 0x0C1. `unit` is the unit that rung 3 names (R552). -/
def execCommandTimeout (port tag : Nat) (unit : Option RUnit) (s : State) : Host.Outcome State Fault Refusal :=
  match s.cmdOf port tag with
  | none => .next s
  | some c =>
    if c.phase = .fetched then .next s
    else
      let s := inStep (fun d t => (List.range 8).foldl (fun t e =>
        if c.uid ∈ (t.eng (.rind d e)).held then postEvent (.rind d e) 7 (BitVec.ofNat 64 (Config.openNat 18 [port, tag])) t else t) t) s
      let runs := s.runsOf c
      let s := inStep (fun d t => runs.foldl (fun t r => ctrlTo d r.1 [BitVec.ofNat 32 (0x53 * 2 ^ 24), BitVec.ofNat 32 r.2] t) t) s
      let s := inStep (fun d t => raise d 0x0C1 [port, tag] (useRung d 3 t)) (recoverCmd c 3 s)
      .next (settle (match unit with
        | some u => inStep (fun d t => nameUnit d u t) s
        | none => s))

end Sys2Proof.Machine
end

