-- ==== Sys2Proof/Machine/Cult.lean ====
section
/-! DEFINITION. Commands of the culture engines: microwords, events, responses, memory, mailboxes, Finvik messages (R462 to R492). -/

namespace Sys2Proof.Machine

/-- NEXT (R466): a word with this NAC executes and falls through. -/
def execNext (e : Eng) (s : State) : Host.Outcome State Fault Refusal := .next (settle (runWord 0 e s))

/-- JUMP (R466). -/
def execJump (e : Eng) (s : State) : Host.Outcome State Fault Refusal := .next (settle (runWord 1 e s))

/-- BRANCH (R466, R467). -/
def execBranch (e : Eng) (s : State) : Host.Outcome State Fault Refusal := .next (settle (runWord 2 e s))

/-- CALL (R466, R474). -/
def execCall (e : Eng) (s : State) : Host.Outcome State Fault Refusal := .next (settle (runWord 3 e s))

/-- CALLC (R466, R467, R474). -/
def execCallc (e : Eng) (s : State) : Host.Outcome State Fault Refusal := .next (settle (runWord 4 e s))

/-- RETURN (R466, R474). -/
def execReturnOp (e : Eng) (s : State) : Host.Outcome State Fault Refusal := .next (settle (runWord 5 e s))

/-- LOOP (R466). -/
def execLoop (e : Eng) (s : State) : Host.Outcome State Fault Refusal := .next (settle (runWord 6 e s))

/-- DISPATCH (R466). -/
def execDispatch (e : Eng) (s : State) : Host.Outcome State Fault Refusal := .next (settle (runWord 7 e s))

/-- WAIT (R466, R488): the engine stays on the word until it takes an event. -/
def execWaitOp (e : Eng) (s : State) : Host.Outcome State Fault Refusal := .next (settle (runWord 8 e s))

/-- END (R466, R476): the routine ends and the engine enters its dispatch vector. -/
def execEndOp (e : Eng) (s : State) : Host.Outcome State Fault Refusal := .next (settle (runWord 9 e s))

/-- EVENT_POST (R487): an event of a class is queued; a full queue stalls its sender. -/
def execEventPost (e : Eng) (cls : Nat) (data : BitVec 64) (s : State) : Host.Outcome State Fault Refusal :=
  .next (if cls < 8 then settle (postEvent e cls data s) else s)

/-- RESPONSE_ARRIVAL (R469, R483): a response reaches its latch. -/
def execResponseArrival (e : Eng) (p : RespPort) (v : BitVec 64) (ok drained poisoned queued : Bool) (s : State) :
    Host.Outcome State Fault Refusal := .next (settle (deliver e ⟨p.no, v, ok, drained, poisoned, queued⟩ s))

/-- The timer of an engine expires where it runs and its event queue has room: a class 3 event, whose data is not stated. -/
def timerEvent (e : Eng) (s : State) : State :=
  if (s.eng e).timer.isSome ∧ (s.eng e).events.length < 16 then
    postEvent e 3 (BitVec.ofNat 64 (Config.openNat 16 [e.no])) (modEng e (fun g => { g with timer := none }) s)
  else s

/-- ENGINE_TIMER_EXPIRE (R487, R494): a class 3 event; in F2 parts the senior proposes the expiry, and it is an input in step. -/
def execEngineTimerExpire (e : Eng) (s : State) : Host.Outcome State Fault Refusal :=
  match e with
  | .curd _ => .next (settle (timerEvent e s))
  | .rind d i =>
    if (s.eng e).timer.isNone ∨ d ≠ s.senior ∨ d ∉ s.serving then .next s
    else .next (settle (inStep (fun f t => timerEvent (.rind f i) t) (newStep 0x08 i 0 s)))

/-- ROUTINE_TIMEOUT (R485): a synchronous fault; the timer runs while the engine executes or waits on a response, not at a WAIT word and not
idle. While an irreversible operation's response is out, the fault waits for the commit (R480). -/
def execRoutineTimeout (e : Eng) (s : State) : Host.Outcome State Fault Refusal :=
  let st := s.rd e.die e.fState
  if s.hasEng e ∧ (s.eng e).parked.isNone ∧ (st = engRunning ∨ st = engWaiting) then
    if (s.eng e).reqs.any EngReq.irrev then .next (settle (modEng e (fun g => { g with late := some 4 }) s))
    else .next (settle (syncFault e 4 (s.rd e.die e.fPc) s))
  else .next s

/-- MEM_LOAD (R433, R473): 8 bytes of buffer memory, through the Cave, or of the formatter's scratch memory, reach the memory latch. -/
def execMemLoad (e : Eng) (addr : Nat) (s : State) : Host.Outcome State Fault Refusal :=
  if ! s.hasEng e ∨ addr % 8 ≠ 0 then .next s
  else
    match e with
    | .rind d i =>
      if s.dataBytes d < addr + 8 then .next s
      else
        let r := caveRead d (.engine i) addr 8 false s
        let v := BitVec.ofNat 64 (leNat r.1)
        .next (settle ((deliver e ⟨0x22, v, true, false, r.2.1, false⟩ r.2.2).emit (.response v.toNat)))
    | .curd g =>
      if 32768 < addr + 8 then .next s
      else
        let v := BitVec.ofNat 64 (leNat (Sparse.getRun zeroByte addr 8 (s.curd g).scratch))
        .next (settle ((deliver e ⟨0x22, v, true, false, false, false⟩ s).emit (.response v.toNat)))

/-- MEM_STORE (R433, R473): 8 bytes go to buffer memory, through the Cave, or to the formatter's scratch memory. -/
def execMemStore (e : Eng) (addr : Nat) (v : BitVec 64) (s : State) : Host.Outcome State Fault Refusal :=
  if ! s.hasEng e ∨ addr % 8 ≠ 0 then .next s
  else
    match e with
    | .rind d i =>
      if s.dataBytes d < addr + 8 then .next s
      else .next (settle (reply e 0x22 2 (openReply 0x22 2 []) true (caveWrite d (.engine i) addr (natLe 8 v.toNat) false s)))
    | .curd g =>
      if 32768 < addr + 8 then .next s
      else .next (settle (reply e 0x22 2 (openReply 0x22 2 []) true
        (s.modCurd g (fun c => { c with scratch := Sparse.putRun zeroByte addr (natLe 8 v.toNat) c.scratch }))))

/-- MAILBOX_POST (R470, R487): a class 6 event at another engine of the die; a full queue stalls the sender. -/
def execMailboxPost (d : RSlot) (target : Nat) (v : BitVec 64) (s : State) : Host.Outcome State Fault Refusal :=
  if s.hasEng (.rind d target) ∧ (s.eng (.rind d target)).events.length < 16 then
    .next (settle (answerAny d (target + 1) 1 (openReply (target + 1) 1 []) true (postEvent (.rind d target) 6 v s)))
  else .next s

/-! ## Finvik messages of an engine (R470) -/

/-- Slot and class of an opened message: their places in SRCA are not stated, so they are free functions of it. -/
def openSlotClass (v : BitVec 64) : Nat × Nat := (Config.openNat 17 [0, v.toNat] % 16, Config.openNat 17 [1, v.toNat] % 8)

/-- The link end on which an engine reaches a slot, none where it has no link there. -/
def engLink (e : Eng) (slot : Nat) : Option LinkEnd :=
  match e with
  | .rind d _ => if 8 ≤ slot ∧ slot < 14 then some (.rind d (slot - 8)) else if slot = d.peer.code then some (.rind d 6) else none
  | .curd g => if slot = 0 then some (.curd g .f0) else if slot = 1 then some (.curd g .f1) else none

/-- FINVIK_OPEN (R470): a message to a slot, of a class, is opened. -/
def execFinvikOpen (e : Eng) (v : BitVec 64) (s : State) : Host.Outcome State Fault Refusal :=
  if s.hasEng e then
    let x := openSlotClass v
    .next (settle (reply e 0x09 1 (openReply 0x09 1 []) true (modEng e (fun g => { g with message := some (x.1, x.2, []) }) s)))
  else .next s

/-- FINVIK_APPEND (R24, R26, R470): two words join the open message, the low one first, as far as a buffer of its class holds them. -/
def execFinvikAppend (e : Eng) (v : BitVec 64) (s : State) : Host.Outcome State Fault Refusal :=
  if ! s.hasEng e then .next s
  else
    match (s.eng e).message with
    | none => .next (settle (reply e 0x09 2 (openReply 0x09 2 []) false s))
    | some (slot, cls, ws) =>
      let room := ((engLink e slot).map (fun l => if l.classOk cls then l.room (cls % 4) else 128)).getD 128
      let ok := decide (ws.length + 2 ≤ room)
      let s := if ok then modEng e (fun g => { g with message := some (slot, cls, ws ++ [v.setWidth 32, (v >>> 32).setWidth 32]) }) s else s
      .next (settle (reply e 0x09 2 (openReply 0x09 2 []) ok s))

/-- The end-to-end number of an engine's message (R24, R301): the next one for CMD and CTRL; for DATA to a Curd die, the low 21 bits of the
last sector command's number with an index that the interface does not state, a free value; else 0. -/
def messageEseq (e : Eng) (slot cls : Nat) (s : State) : Nat × State :=
  match e with
  | .rind d _ =>
    if cls = 0 ∨ cls = 3 then takeEseq d s
    else if cls = 1 ∧ 8 ≤ slot then
      let r := s.fresh
      ((((s.runs.find? (fun x => x.1 = slot - 8)).map (fun x => x.2.1)).getD 0) % 2 ^ 21 * 2048 + r.1 % 2048, r.2)
    else (0, s)
  | .curd _ => (0, s)

/-- FINVIK_CLOSE (R24, R301, R470, R499): the message is sent on the link of its slot; a sector command is noted once for the device, by the
senior. A message that no link of the engine carries is dropped, with OK clear. -/
def execFinvikClose (e : Eng) (s : State) : Host.Outcome State Fault Refusal :=
  if ! s.hasEng e then .next s
  else
    match (s.eng e).message with
    | none => .next (settle (reply e 0x09 3 (openReply 0x09 3 []) false s))
    | some (slot, cls, ws) =>
      let s := modEng e (fun g => { g with message := none }) s
      match engLink e slot with
      | none => .next (settle (reply e 0x09 3 (openReply 0x09 3 []) false s))
      | some l =>
        if ! l.classOk cls then .next (settle (reply e 0x09 3 (openReply 0x09 3 []) false s))
        else
          let r := messageEseq e slot cls s
          let s := match e with
            | .rind d _ =>
              if 8 ≤ slot then
                let t := toCurd d (slot - 8) cls r.1 ws r.2
                if cls = 0 ∧ d = s.senior then { t with runs := (slot - 8, r.1, ws) :: t.runs } else t
              else sendMsg l cls r.1 ws r.2
            | .curd _ => sendMsg l cls r.1 ws r.2
          .next (settle (reply e 0x09 3 (openReply 0x09 3 []) true s))

/-- STEP_STATE_READ (R470): the step interface returns its state; its layout in the latch is not stated, so it is a free value of the STEP
registers. -/
def execStepStateRead (d : RSlot) (eng : Nat) (s : State) : Host.Outcome State Fault Refusal :=
  .next (settle (reply (.rind d eng) 0x10 1 (openReply 0x10 1 [s.role d, s.stepNo d, s.rdR d R.STEP_STAT_LEASE, s.rdR d R.STEP_STAT_REDUND,
    s.rdR d R.STEP_EPOCH_EPOCH, (s.rind d).step.stamp]) true s))

end Sys2Proof.Machine
end

