-- ==== Sys2Proof/Machine/Links.lean ====
section
/-! DEFINITION. Host link heads and the CXL.mem window (R101 to R115). -/

namespace Sys2Proof.Machine

/-- The enabled domain a requester of a die belongs to (R108, R111). -/
def State.domainOf (s : State) (d : RSlot) (r : Requester) : Option Nat :=
  (List.range 16).find? (fun dom =>
    s.bitR d (R.LINK_DOMCFG_EN dom) && s.bitR d (if d = .f0 then R.LINK_DOMCFG_ONF0 dom else R.LINK_DOMCFG_ONF1 dom) &&
    (match r with
     | .head h => decide (s.rdR d (R.LINK_DOMCFG_HEAD dom) = h ∧ s.rdR d (R.LINK_HEADSTAT_PROTO h) ≠ 1)
     | .ld h l => decide (s.rdR d (R.LINK_DOMCFG_HEAD dom) = h ∧ s.rdR d (R.LINK_DOMCFG_LDID dom) = l ∧ s.rdR d (R.LINK_HEADSTAT_PROTO h) ≠ 1) &&
       (assocGet h 0 (s.rind d).bound).testBit l
     | .sideband => false))

/-- HEAD_TRAINED (R101 to R107): the head is up at what both partners support, in the MODE that stands now; one that is now switched holds no
doorbell line; narrow widths raise source 0x030, a partner that does not
take the CXL offer leaves a PCIe link and raises source 0x038; held traffic is released. -/
def execHeadTrained (d : RSlot) (h : Nat) (p : Partner) (s : State) : Host.Outcome State Fault Refusal :=
  let mode := s.rdR d (R.LINK_HEADCFG_MODE h)
  if s.hasRind d ∧ h < 4 ∧ s.boot.released ∧ mode ≠ 0 ∧ s.rdR d (R.LINK_HEADSTAT_STATE h) ≠ 3 ∧ s.rdR d (R.LINK_HEADSTAT_STATE h) ≠ 2 ∧
      (s.rdR d R.DEV_PINSTAT_PERST).testBit h ∧ s.pins.refclk.testBit (4 * d.code + h) then
    let s := (s.wrR d (R.LINK_HEADSTAT_RATE h) (min p.rate (s.rdR d (R.LINK_HEADCFG_MAXRATE h)))).wrR d (R.LINK_HEADSTAT_WIDTH h) p.width
    let s := s.wrR d (R.LINK_HEADSTAT_PROTO h) (if p.cxl then mode + 1 else 1)
    let s := s.wrR d (R.LINK_HEADSTAT_LDACT h) (if mode = 2 then (if p.cxl then (List.range 16).countP p.lds.testBit else 0) else 1)
    let s := s.wrR d (R.LINK_HEADSTAT_STATE h) 2
    let s := s.modRind d (fun r => { r with
      pools := assocPut h p.credits r.pools, modes := modAt h (fun _ => mode) r.modes
      bound := assocPut h (if mode = 2 ∧ p.cxl then p.lds else 0) r.bound })
    let s := if mode = 2 then modHeadPorts d h (fun x => { x with line := x.line.erase d }) s else s
    let s := if p.width < 4 then raise d 0x030 [h] s else s
    let s := if p.cxl then s else raise d 0x038 [h] s
    .next (settle (hostLinkStep d h (headUp d h s)))
  else .next s

/-- HEAD_DOWN (R107): the head goes down; traffic due on it is held. -/
def execHeadDown (d : RSlot) (h : Nat) (s : State) : Host.Outcome State Fault Refusal :=
  if s.hasRind d ∧ h < 4 ∧ s.rdR d (R.LINK_HEADSTAT_STATE h) = 2 then .next (settle (hostLinkStep d h (headLost d h 1 s))) else .next s

/-- The buffer memory address of a run of bytes of a domain's window, where it lies inside (R114). -/
def State.windowAddr (s : State) (d : RSlot) (r : Requester) (off len : Nat) : Option (Nat × Nat) :=
  (s.domainOf d r).bind (fun dom =>
    if s.rdR d (R.LINK_DOMWIN_WACC dom) ≠ 0 ∧ off + len ≤ s.rdR d (R.LINK_DOMWIN_SIZE dom) * 2 ^ 28 then
      some (s.rdR d (R.LINK_DOMWIN_BASE dom) * 2 ^ 28 + off, s.rdR d (R.LINK_DOMWIN_WACC dom))
    else none)

/-- A window refusal (R114): counted on the die that received the access, and logged under source 0x037. -/
def windowRefusal (d : RSlot) (off : Nat) (s : State) : State := raise d 0x037 [off] (s.incR d R.LINK_WINREF_COUNT)

/-- CXL_MEM_LOAD (R114, R115): data of the window through the Cave, or a refusal of all ones with poison. A fenced die completes none. -/
def execCxlMemLoad (d : RSlot) (r : Requester) (off len : Nat) (s : State) : Host.Outcome State Fault Refusal :=
  if s.hasRind d ∧ ! s.fenced d then
    match s.windowAddr d r off len with
    | some (a, _) =>
      let x := caveRead d .host a len false s
      .next (settle (x.2.2.emit (.load x.1 x.2.1)))
    | none => .next (settle ((windowRefusal d off s).emit (.load (List.replicate len 0xFF) true)))
  else .next s

/-- A host store to buffer memory is later than every WINMAP admitted (R185): the 64-byte pieces of their ranges that it reaches are the host's. -/
def noteStore (d : RSlot) (a len : Nat) (s : State) : State :=
  { s with cmds := s.cmds.map (fun c =>
      let base := s.rdR d (R.LINK_DOMWIN_BASE (s.domOf c)) * 2 ^ 28 + c.fld 0x18 8
      if c.op = 8 ∧ c.phase = .admitted ∧ base < a + len ∧ a < base + 4096 * c.nblk then
        let lo := (max a base - base) / 64
        let hi := (min (a + len) (base + 4096 * c.nblk) - base + 63) / 64
        { c with stored := c.stored ++ ((List.range (hi - lo)).map (lo + ·)).filter (· ∉ c.stored) }
      else c) }

/-- CXL_MEM_STORE (R114, R115): an input in step, applied by every serving die and completed by the die that received it; a store the window
does not take is completed, discarded and counted. -/
def execCxlMemStore (d : RSlot) (r : Requester) (off : Nat) (data : List Byte) (s : State) : Host.Outcome State Fault Refusal :=
  if s.hasRind d ∧ ! s.fenced d then
    match s.windowAddr d r off data.length with
    | some (a, 2) =>
      let t := inStep (fun e t => caveWrite e .host a data false t) (newStep 0x02 0 0 s)
      .next (settle ((noteStore d a data.length t).emit .ack))
    | _ => .next (settle ((windowRefusal d off s).emit .ack))
  else .next s

/-- GLOBAL_PERSISTENT_FLUSH (R102): acknowledged; the window is volatile and no data is flushed. -/
def execGlobalPersistentFlush (_d : RSlot) (_h : Nat) (s : State) : Host.Outcome State Fault Refusal := .next (s.emit .ack)

end Sys2Proof.Machine
end

