-- ==== Sys2Proof/Machine/Port.lean ====
section
/-! DEFINITION. Command ports: doorbells, descriptor fetches, status lines and the rewrite pass (R131 to R159, R202 to R206). -/

namespace Sys2Proof.Machine

/-- SQTAIL and CQHEAD of the bytes of a doorbell line (R11, R144). -/
def doorbellLine (bytes : List Byte) : Nat × Nat := (leNat (bytes.take 2), leNat ((bytes.drop 4).take 2))

/-- A die's read of a doorbell line is no longer outstanding. -/
def endRead (d : RSlot) (p : Nat) (s : State) : State := modPort p (fun x => { x with reading := x.reading.erase d }) s

/-- DOORBELL_SNOOP (R147, R515): a die that holds the line in Shared state loses it and reads it again; a fenced die answers the snoop and acts
on nothing. -/
def execDoorbellSnoop (d : RSlot) (port : Nat) (s : State) : Host.Outcome State Fault Refusal :=
  if d ∈ (s.portX port).line then
    let s := modPort port (fun x => { x with line := x.line.erase d }) s
    .next (if s.fenced d then s else readLineOf d port s)
  else .next s

/-- DOORBELL_READ_COMPLETE (R144 to R147, R151): the 64 bytes of the line, in two halves, have been read; a direct head now holds the line in Shared state; the senior's values are an input in step,
which every serving die applies; the junior's are discarded. -/
def execDoorbellReadComplete (d : RSlot) (port : Nat) (lo hi : List Byte) (s : State) : Host.Outcome State Fault Refusal :=
  let (sqtail, cqhead) := doorbellLine (lo ++ hi)
  if d ∈ (s.portX port).reading then
    let s := endRead d port s
    if s.fenced d then .next s
    else
      let s := if s.polled d port then s else modPort port (fun x => { x with line := if d ∈ x.line then x.line else x.line ++ [d] }) s
      .next (settle (if d = s.senior then applyDoorbell port sqtail cqhead (newStep 0x01 port (sqtail * 0x10000 + cqhead) s) else s))
  else .next s

/-- DOORBELL_POLL (R149): the line of an enabled port on a switched head is read by CXL.io. -/
def execDoorbellPoll (d : RSlot) (port : Nat) (s : State) : Host.Outcome State Fault Refusal :=
  .next (if port < 256 ∧ d ∈ s.serving ∧ s.portState port ≠ 0 ∧ s.polled d port ∧ d ∉ (s.portX port).reading then readLineOf d port s else s)

/-- DOORBELL_BACKSTOP (R148): a die reads every line that it holds again. -/
def execDoorbellBackstop (d : RSlot) (s : State) : Host.Outcome State Fault Refusal :=
  .next (if d ∈ s.serving then backstopReads d s else s)

/-- DOORBELL_READ_TIMEOUT (R150, R151, R207): an unanswered read puts the port into ERROR, cause 3, an input in step; a read of the junior is
discarded. -/
def execDoorbellReadTimeout (d : RSlot) (port : Nat) (s : State) : Host.Outcome State Fault Refusal :=
  if d ∈ (s.portX port).reading then
    let s := endRead d port s
    .next (settle (if d = s.senior ∧ ! s.fenced d then portError port 3 (newStep 0x08 port 3 s) else s))
  else .next s

/-- FETCH_GRANT (R131, R132, R134, R203 to R205): the arbiter's port is served: `descs` are the descriptors its burst reads from host memory. -/
def execFetchGrant (descs : List (List Byte)) (s : State) : Host.Outcome State Fault Refusal := .next (settle (grant descs s))

/-- DESCRIPTOR_FETCH_TIMEOUT (R150, R207): a fetch of a port's descriptors by the senior goes unanswered: the port enters ERROR, cause 4, an input
in step; the junior's fetches only keep its copies current. -/
def execDescriptorFetchTimeout (d : RSlot) (port : Nat) (s : State) : Host.Outcome State Fault Refusal :=
  .next (settle (if d = s.senior ∧ d ∈ s.serving ∧ s.portEligible port then portError port 4 (newStep 0x08 port 4 s) else s))

/-- STATUS_LINE_UPDATE (R156 to R159): a fenced die writes its own die word alone; otherwise every serving die writes. -/
def execStatusLineUpdate (d : RSlot) (dom : Nat) (s : State) : Host.Outcome State Fault Refusal :=
  if s.hasRind d ∧ dom < 16 then .next (if s.fenced d then writeDieWord d dom s else statusUpdate dom s) else .next s

/-- REWRITE_PASS (R143): 1 ms after the die became the sole writer of domains, and again 50 ms after, it writes every unreleased entry of them
again, and their common parts. -/
def execRewritePass (d : RSlot) (s : State) : Host.Outcome State Fault Refusal :=
  .next (if d ∈ s.serving then
    let due := (s.rind d).sole
    let s := s.modRind d (fun r => { r with sole := (due.map (fun e => (e.1, e.2 - 1))).filter (fun e => e.2 ≠ 0) })
    due.foldl (fun t e => rewritePass d e.1 t) s
  else s)

end Sys2Proof.Machine
end

