-- ==== Sys2Proof/Machine/Setup.lean ====
section
/-! DEFINITION. The set-up space and the sideband (R12, R109, R111, R116 to R126, R575 to R577). -/

namespace Sys2Proof.Machine

/-- The requester's right to write the set-up space (R111): the sideband has full write, one of no enabled domain reads only. -/
def State.setupRight (s : State) (d : RSlot) (r : Requester) : Nat :=
  match r with
  | .sideband => 2
  | _ => match s.domainOf d r with
    | some dom => s.rdR d (R.LINK_DOMCFG_SETUP dom)
    | none => 0

/-- The requester may write this address (R111): with SETUP 0b01 its own port records and its own LINK_DOMCFG alone; the
status line addresses of the domain count as its port records (R130). -/
def State.mayWrite (s : State) (d : RSlot) (r : Requester) (addr : Nat) : Bool :=
  match s.setupRight d r with
  | 0 => false
  | 1 => match s.domainOf d r with
    | some dom => decide (addr = 0x20100 + 16 * dom ∨ addr = 0x34000 + 16 * dom ∨ addr = 0x34004 + 16 * dom) ||
        (decide (0x30000 ≤ addr ∧ addr < 0x34000) && decide (s.rdR d (R.PORT_CFG_DOMAIN ((addr - 0x30000) / 0x40)) = dom))
    | none => false
  | _ => true

/-- The Curd window an address lies in, with its offset there (R117). -/
def curdWindow (addr : Nat) : Option (Nat × Nat) :=
  if 0x100000 ≤ addr ∧ addr < 0x700000 then some (addr / 0x100000 - 1, addr % 0x100000) else none

/-- The block number of a Rind address. -/
def blockOf (addr : Nat) : Nat := addr / 0x10000

/-- The block's writes stay local to the die that receives them: DEV and BOOT (R119). -/
def localBlock (addr : Nat) : Bool := decide (addr < 0x20000)

/-- The dies a set-up write applies to (R119). -/
def State.targets (s : State) (d : RSlot) (addr : Nat) : List RSlot := if localBlock addr then [d] else s.serving

/-- A discarded access, logged at Note under source 0x034 on the dies it would have reached. -/
def discardAt (ts : List RSlot) (addr : Nat) (s : State) : State := ts.foldl (fun t e => raise e 0x034 [addr] t) s

/-- The key by which an arming is held: the address of the block's UNLOCK register. -/
def unlockKey (addr : Nat) : Nat := addr / 0x10000 * 0x10000

/-- Disarm a requester of a die on a block (R122). -/
def disarm (d : RSlot) (r : Requester) (addr : Nat) (e : RSlot) (s : State) : State :=
  s.modRind e (fun x => { x with arms := x.arms.filter (fun a => ! (decide (a.1 = (d, r) ∧ a.2.1 = unlockKey addr))) })

/-- The requester is armed on a block, as a die holds it (R121, R122). -/
def State.armed (s : State) (e d : RSlot) (r : Requester) (addr : Nat) : Bool :=
  (s.rind e).arms.any (fun a => decide (a.1 = (d, r) ∧ a.2.1 = unlockKey addr))

/-- UNLOCK (R122, R123) of a Rind block, on the dies that take the write: the rennet sequence of one requester on one block, with the requester
named in the record of an opening. -/
def unlockWrite (ts : List RSlot) (d : RSlot) (r : Requester) (addr : Nat) (key : Word) (s : State) : State × Nat :=
  let k := unlockKey addr
  if s.setupRight d r ≠ 2 then (discardAt ts addr s, 2)
  else
    (ts.foldl (fun t e =>
      let u := disarm d r addr e t
      if key = 0xC0A6 then u.modRind e (fun x => { x with arms := ((d, r), k, u.now) :: x.arms })
      else if key = 0x3F59 ∧ t.armed e d r addr then
        raise e 0x033 [addr, r.code d] (u.modRind e (fun x => { x with opened := k / 0x10000 :: x.opened.filter (· ≠ k / 0x10000) }))
      else u) s, 0)

/-- LINK_DOMCFG (R108, R109): fields other than EN change only while EN is 0; EN stays while a port of the domain is enabled; an attachment
an enabled domain holds is refused under source 0x035. -/
def domcfgWrite (ts : List RSlot) (dom : Nat) (v : Word) (s : State) : State × Nat :=
  let key := R.LINK_DOMCFG_EN dom
  let d := s.senior
  let old := s.word (regKey d.code key.off)
  let new := match regDef d.code key.off with
    | some r => storeWord s.part s.ilimTop 0 r old v
    | none => old
  let en := (R.LINK_DOMCFG_EN dom).get old
  let en' := (R.LINK_DOMCFG_EN dom).get new
  if en = 1 ∧ (R.LINK_DOMCFG_EN dom).put 1 new ≠ old then (discardAt ts key.off s, 2)
  else if en = 1 ∧ en' = 0 ∧ (List.range 256).any (fun n => s.bitR d (R.PORT_CFG_EN n) && decide (s.rdR d (R.PORT_CFG_DOMAIN n) = dom)) then
    (discardAt ts key.off s, 2)
  else
    let t := ts.foldl (fun t e => t.setWord (regKey e.code key.off) new) s
    if en' = 1 ∧ en = 0 ∧ (List.range 16).any (fun a => decide (a ≠ dom) && t.bitR d (R.LINK_DOMCFG_EN a) && t.sameAttachment d a dom) then
      (ts.foldl (fun t e => raise e 0x035 [dom] t) s, 2)
    else (t, 0)

/-- The expert page of the block is open on the die (R120, R123). -/
def State.pageOpen (s : State) (d : RSlot) (addr : Nat) : Bool := decide (blockOf addr ∈ (s.rind d).opened)

/-- The row of the map for an offset of a Curd window: the SPIN block is C0's alone (R390). -/
def curdDef (g off : Nat) : Option RegDef := if off / 0x10000 = 5 ∧ g ≠ 0 then none else regDef (curdCode g) off

/-- The UNLOCK register, or LOCKSTAT, of a block of a Curd window (R121): blocks 0 to 5, SPIN in C0 alone (R18, R117). -/
def lockReg (g off lo : Nat) : Bool := decide (off % 0x10000 = lo ∧ off / 0x10000 < 6 ∧ (off / 0x10000 = 5 → g = 0))

/-- The result of a sideband write to a Curd window (R124), which goes out with no answer: what the die will do with it. -/
def State.curdResult (s : State) (g off : Nat) : Nat :=
  if lockReg g off 0x7FF0 ∨ lockReg g off 0x7FF4 then 0
  else if (curdDef g off).isNone then 3
  else if 0x8000 ≤ off % 0x10000 ∧ off / 0x10000 ∉ (s.curd g).opened then 2 else 0

/-- A set-up write of a word (R111, R118 to R120, R576), by any path, on the dies `ts` that take it: the new state, and the sideband's result
code: 0 done, 2 refused, 3 unmapped. `d` received it from the requester. Registers with a rule of their own go to it. -/
def writeReg (ts : List RSlot) (d : RSlot) (r : Requester) (addr : Nat) (v : Word) (s : State) : State × Nat :=
  if s.fenced d then (s, 2)
  else if ! s.mayWrite d r addr then (discardAt ts addr s, 2)
  else match curdWindow addr with
    | some (g, off) =>
      if ! s.hasCurd g then (discardAt ts addr s, 3)
      else if (s.fvEnd (.rind d g)).down then (raise d 0x032 [addr] s, 1)
      else if lockReg g off 0x7FF0 ∧ s.setupRight d r ≠ 2 then (discardAt ts addr s, 2)
      else (ts.foldl (fun t e => ctrlTo e g [BitVec.ofNat 32 (0x01000000 + off), v, BitVec.ofNat 32 (r.code d)] t) s, s.curdResult g off)
    | none =>
      if addr % 0x10000 = 0x7FF0 ∧ addr < 0x100000 then unlockWrite ts d r addr v s
      else if addr % 0x10000 = 0x7FF4 ∧ addr < 0x100000 then (s, 0)
      else match regDef d.code addr with
        | none => (discardAt ts addr s, 3)
        | some rd =>
          if 0x8000 ≤ addr % 0x10000 ∧ ! s.pageOpen d addr then (discardAt ts addr s, 2)
          else if 0x20100 ≤ addr ∧ addr < 0x20200 ∧ addr % 16 = 0 then domcfgWrite ts ((addr - 0x20100) / 16) v s
          else if 0x30000 ≤ addr ∧ addr < 0x38000 then
            let x := portRegWrite ts addr rd v (decide (s.setupRight d r = 2)) s
            let dom := (addr - 0x34000) / 16
            (if 0x34000 ≤ addr then lineMoved dom (s.lineOn dom, s.lineAddr dom) x.1 else x.1, x.2)
          else if addr = 0x78000 then caveCtlWrite ts v s
          else if addr = 0x78004 then caveMaintWrite ts rd v s
          else if addr = 0x78008 ∨ addr = 0x7800C then caveRangeWrite ts addr v s
          else if addr = 0xB8004 then stepCtlWrite v s
          else if addr = 0xD0030 then faultCtlWrite ts v s
          else if addr = 0xE0004 then logCtlWrite ts v s
          else if addr = 0xD8010 then faultInjWrite ts v s
          else if 0xD9000 ≤ addr ∧ addr < 0xDA400 then srcCfgWrite ts addr rd v s
          else if 0xC8100 ≤ addr ∧ addr < 0xC8200 then budgetThrWrite ts addr rd v s
          else if s.part.f = 1 ∧ blockOf addr = 0xB then (s, 0)
          else
            let s := ts.foldl (fun t e =>
              let k := regKey e.code addr
              t.setWord k (storeWord t.part t.ilimTop (t.rdR e R.BUDGET_WAT_HIWAT) rd (t.word k) v)) s
            (if addr = 0x40000 then showAdmit s else s, 0)

/-- A set-up write of any width: a narrow or misaligned one is discarded (R12). -/
def setupWrite (d : RSlot) (r : Requester) (addr width : Nat) (v : Word) (s : State) : State × Nat :=
  if width ≠ 4 ∨ addr % 4 ≠ 0 then (discardAt [d] addr s, 2)
  else
    let s := if localBlock addr then s else newStep 0x03 0 0 s
    writeReg (s.targets d addr) d r addr v s

/-- SETUP_WRITE (R119). -/
def execSetupWrite (d : RSlot) (r : Requester) (addr width : Nat) (v : Word) (s : State) : Host.Outcome State Fault Refusal :=
  if s.hasRind d then .next (settle (setupWrite d r addr width v s).1) else .next s

/-- UNLOCK_WRITE (R119, R122): a write of a block's UNLOCK register. -/
def execUnlockWrite (d : RSlot) (r : Requester) (addr : Nat) (key : Word) (s : State) : Host.Outcome State Fault Refusal :=
  if s.hasRind d then .next (settle (setupWrite d r (unlockKey addr + 0x7FF0) 4 key s).1) else .next s

/-- UNLOCK_ARM_LAPSE (R122): 1 ms after the latest arming the requester is disarmed, on the dies, or the Curd die, that hold the arming. -/
def execUnlockArmLapse (d : RSlot) (r : Requester) (addr : Nat) (s : State) : Host.Outcome State Fault Refusal :=
  match curdWindow addr with
  | some (g, off) =>
    .next (s.modCurd g (fun c => { c with arms := c.arms.filter (fun a => ! decide (a.1 = r.code d ∧ a.2.1 = off / 0x10000)) }))
  | none => .next ((s.targets d addr).foldl (fun t e => disarm d r addr e t) s)

/-- DOMCFG_WRITE (R108, R109, R111). -/
def execDomcfgWrite (d : RSlot) (r : Requester) (dom : Nat) (v : Word) (s : State) : Host.Outcome State Fault Refusal :=
  if s.hasRind d ∧ dom < 16 then .next (settle (setupWrite d r (0x20100 + 16 * dom) 4 v s).1) else .next s

/-- Registers whose value is formed when they are read: quiet time and recoveries (R572), operating seconds (R562), the age of the
snapshot (R574), the time to the next turning (R519), control store words (R491), the doorbell mode of a port (R149). -/
def State.liveWord (s : State) (d : RSlot) (off : Nat) (w : Word) : Word :=
  if off = 0xD0000 then
    let left := (s.rind d).island.lastBad + 1000000 * s.rdR d R.FAULT_CFG_QUIET - s.now
    let w := R.FAULT_STAT_QUIET.put (if R.FAULT_STAT_STATE.get w = 0 then 0 else min 0xFFFF (ceilDiv left 100000)) w
    R.FAULT_STAT_RECOV.put (min 0xFF ((s.rind d).island.exits.countP (fun t => s.now < t + 3600000000))) w
  else if off = 0xE000C then BitVec.ofNat 32 (s.opsec d)
  else if off = 0xF0000 then R.TALLY_STAT_AGE.put (min 0xFFFF ((s.now - (s.rind d).island.snapAt) / 1000)) w
  else if off = 0xB0024 then
    match (s.rind d).step.turnAt with
    | some t => BitVec.ofNat 32 ((t - s.now) / 1000000)
    | none => 0
  else if 0x30000 ≤ off ∧ off < 0x34000 ∧ off % 64 = 0 then (R.PORT_CFG_DBMODE 0).put (bit (s.polled d ((off - 0x30000) / 64))) w
  else if 0xA0074 ≤ off ∧ off < 0xA0088 then s.storeView d ((off - 0xA0074) / 4)
  else w

/-- A set-up read of a word (R13, R118, R120, R576): the word, and the state with counters cleared. Reads of a Curd window go as CTRL
messages, from one die alone and so outside the numbering of R504, and are answered by CURD_SETUP_ACCESS. -/
def readReg (d : RSlot) (r : Requester) (addr : Nat) (s : State) : Option Word × State × Nat :=
  match curdWindow addr with
  | some (g, off) =>
    if ! s.hasCurd g then (some 0, s, 3)
    else if (s.fvEnd (.rind d g)).down then (some (BitVec.allOnes 32), raise d 0x032 [addr] s, 1)
    else (none, sendMsg (.rind d g) 3 0 [BitVec.ofNat 32 (0x02000000 + off), BitVec.ofNat 32 (r.code d)] s, 0)
  | none =>
    if addr < 0x100000 ∧ addr % 0x10000 = 0x7FF4 then (some (BitVec.ofNat 32 (2 * bit (s.armed d d r addr) + bit (s.pageOpen d addr))), s, 0)
    else if addr < 0x100000 ∧ addr % 0x10000 = 0x7FF0 then (some 0, s, 0)
    else match regDef d.code addr with
      | none => (some 0, s, 3)
      | some rd =>
        let k := regKey d.code addr
        let w := s.liveWord d addr (s.word k)
        (some (readWord rd w), s.setWord k (afterRead rd (s.word k)), 0)

/-- RC_READ (R12, R13, R577): a set-up read; a narrow or misaligned one returns all ones. -/
def execRcRead (d : RSlot) (r : Requester) (addr width : Nat) (s : State) : Host.Outcome State Fault Refusal :=
  if ! s.hasRind d then .next s
  else if width ≠ 4 ∨ addr % 4 ≠ 0 then .next (settle ((raise d 0x034 [addr] s).emit (.word (BitVec.allOnes 32))))
  else
    let x := readReg d r addr s
    .next (settle (match x.1 with
      | some w => x.2.1.emit (.word w)
      | none => x.2.1))

/-! ## The sideband (R124 to R126) -/

/-- Registers the island answers from its own copies (R125): identity, presence, link and stall registers of DEV's basic page, which are all that
page holds beside its lock pair, and the basic pages of BOOT, FAULT, TALLY and LOG. -/
def islandServed (addr : Nat) : Bool :=
  decide (addr % 0x10000 < 0x8000) && decide (addr < 0x100000) &&
  (decide (blockOf addr ∈ [1, 13, 14, 15]) || (decide (blockOf addr = 0) && (regDef 0 addr).isSome))

/-- The island accepts a write by itself: the basic pages of FAULT and LOG (R125). -/
def islandWrites (addr : Nat) : Bool := decide (addr % 0x10000 < 0x8000) && decide (blockOf addr ∈ [13, 14]) && decide (addr < 0x100000)

/-- The core logic answers the sideband (R126): from step 4 of the start on, and not in NOIMAGE or FAILED. -/
def State.coreUp (s : State) (d : RSlot) : Bool := decide (3 ≤ s.phase d ∧ s.phase d ≤ 8)

/-- Change the sideband of a die. -/
def modSb (d : RSlot) (f : Sideband → Sideband) (s : State) : State := s.modRind d (fun r => { r with sb := f r.sb })

/-- The die that answers at an SMBus address (R64): 0x4C and 0x4D with SB_ADDR low, 0x5C and 0x5D with it high, F1's in F2 parts alone; none before
power-on reset is released, when the port is silent (R54, R70). -/
def State.sbDie (s : State) (a : Nat) : Option RSlot :=
  let base := if s.pins.sbAddr then 0x5C else 0x4C
  if ! s.pins.por then none else if a = base then some .f0 else if a = base + 1 ∧ s.part.f = 2 then some .f1 else none

/-- SB_SET_ADDRESS (R64, R124): a transaction at SMBus address `a`; a bad PEC is not acted on; bits [1:0] are ignored. -/
def execSbSetAddress (a : Nat) (pec : Bool) (addr : Word) (s : State) : Host.Outcome State Fault Refusal :=
  match s.sbDie a with
  | some d => .next (if pec then modSb d (fun b => { b with addr := addr.toNat / 4 * 4 }) s else s)
  | none => .next s

/-- SB_READ_WORD (R124 to R126): a read of a Curd window waits for the die's answer (R118). -/
def execSbReadWord (at_ : Nat) (pec : Bool) (s : State) : Host.Outcome State Fault Refusal :=
  match s.sbDie at_ with
  | none => .next s
  | some d =>
  if pec then
    let a := (s.rind d).sb.addr
    if islandServed a || s.coreUp d then
      let x := readReg d .sideband a s
      match x.1 with
      | some w => .next (settle ((modSb d (fun b => { b with addr := (a + 4) % 2 ^ 32, result := x.2.2, data := w.toNat, waiting := none }) x.2.1).emit (.word w)))
      | none => .next (settle (modSb d (fun b => { b with waiting := some (false, 0) }) x.2.1))
    else .next (modSb d (fun b => { b with waiting := some (false, 0) }) s)
  else .next s

/-- SB_WRITE_WORD (R124 to R126). -/
def execSbWriteWord (at_ : Nat) (pec : Bool) (v : Word) (s : State) : Host.Outcome State Fault Refusal :=
  match s.sbDie at_ with
  | none => .next s
  | some d =>
  if pec then
    let a := (s.rind d).sb.addr
    if s.coreUp d || islandWrites a then
      let x := setupWrite d .sideband a 4 v s
      .next (settle (modSb d (fun b => { b with addr := (a + 4) % 2 ^ 32, result := x.2, waiting := none }) x.1))
    else .next (modSb d (fun b => { b with waiting := some (true, v.toNat) }) s)
  else .next s

/-- SB_READ_RESULT (R124). -/
def execSbReadResult (at_ : Nat) (pec : Bool) (s : State) : Host.Outcome State Fault Refusal :=
  match s.sbDie at_ with
  | some d => .next (if pec then s.emit (.byte (s.rind d).sb.result) else s)
  | none => .next s

/-- SB_CORE_TIMEOUT (R125): the core has not answered a passed access within 50 µs: a read returns all ones, a write is dropped, result
0x01. -/
def execSbCoreTimeout (d : RSlot) (s : State) : Host.Outcome State Fault Refusal :=
  match (s.rind d).sb.waiting with
  | none => .next s
  | some (isWrite, _) =>
    let s := modSb d (fun b => { b with addr := (b.addr + 4) % 2 ^ 32, result := 1, waiting := none, data := if isWrite then b.data else 0xFFFFFFFF }) s
    .next (if isWrite then s else s.emit (.word (BitVec.allOnes 32)))

end Sys2Proof.Machine
end

