-- ==== Sys2Proof/Machine/InStep.lean ====
section
/-! DEFINITION. Two Rind dies in step: the commands (R493 to R518), and the Curd dies' lease records (R506 to R508). -/

namespace Sys2Proof.Machine

/-- The 16 words of a STEP message that carries entries (R494). -/
def stepPayload (first held : Nat) (es : List StepEntry) : List Word :=
  let w (n : Nat) : Word := BitVec.ofNat 32 n
  let body := es.flatMap (fun e => [w (e.kind * 2 ^ 27 + (if e.fromJ then 2 ^ 26 else 0) + e.src % 2 ^ 26), w e.data])
  ([w first, w (first / 2 ^ 32), w held, w (held / 2 ^ 32)] ++ body ++ List.replicate 12 0).take 16

/-- The highest step number a die holds (HELD of R494): the steps processed and the run of held entries after them. -/
def State.heldNo (s : State) (d : RSlot) : Nat :=
  let x := (s.rind d).step
  (x.entries.foldl (fun k e => if e.step = k then k + 1 else k) x.done) - 1

/-- A die sends a STEP message with these entries. -/
def sendStep (d : RSlot) (es : List StepEntry) (s : State) : State :=
  sendMsg (.rind d 6) 4 0 (stepPayload (match es with
    | e :: _ => e.step
    | [] => 0) (s.heldNo d) es) s

/-- STEP_KEEPALIVE (R32): a STEP message goes out even with no step pending. -/
def execStepKeepalive (d : RSlot) (s : State) : Host.Outcome State Fault Refusal :=
  .next (if s.part.f = 2 then sendStep d [] s else s)

/-- STEP_LINK_LOST (R32, R512): both dies count a split; the holder asks the Curd dies to confirm its lease. A resync in progress ends. -/
def execStepLinkLost (s : State) : Host.Outcome State Fault Refusal :=
  if s.part.f = 2 ∧ s.bitR s.senior R.STEP_STAT_LINKUP then
    let both := s.inTwo
    let holder := s.senior
    let s := endResync s
    let s := s.rinds.foldl (fun t d => raise d 0x0A1 [] ((t.wrR d R.STEP_STAT_LINKUP 0).incR d R.STEP_EVT_SPLITS)) s
    if both then
      let s := s.rinds.foldl (fun t d => modStep d (fun x => { x with split := some (s.now, decide (d = holder)), grants := [], refusals := [], claim := none }) t) s
      .next (settle (leaseTraffic holder 0x61 (RSlotBit holder) (s.rdR holder R.STEP_EPOCH_EPOCH) s))
    else .next (settle s)
  else .next s

/-! ## The Curd die's lease record (R506, R507) -/

/-- The link of a Curd die to a Rind die is silent. -/
def State.silentLink (s : State) (g : Nat) (d : RSlot) : Bool := (s.fvEnd (.curd g d)).silent

/-- A lease message leaves its buffer: the oldest held CTRL message of its CTLOP (R30, R507). -/
def leaseTaken (e : LinkEnd) (op : Nat) (s : State) : State := takeWhere e 3 (fun m => m.w 0 / 2 ^ 24 = op) s

/-- Install a lease record. -/
def installLease (g holder single epoch : Nat) (s : State) : State :=
  ((s.wrC g R.CDIE_LEASE_HOLDER holder).wrC g R.CDIE_LEASE_SINGLE single).wrC g R.CDIE_EPOCH_EPOCH epoch

/-- ANSWER 0x68 (R507), to a sender, with the present record. -/
def leaseAnswer (g : Nat) (dst : RSlot) (granted : Bool) (s : State) : State :=
  sendMsg (.curd g dst) 3 0 [BitVec.ofNat 32 (0x68 * 2 ^ 24 + bit granted * 2 ^ 15 + bit (! s.silentLink g .f1) * 2 ^ 9 +
    bit (! s.silentLink g .f0) * 2 ^ 8 + s.rdC g R.CDIE_LEASE_HOLDER), BitVec.ofNat 32 (s.rdC g R.CDIE_EPOCH_EPOCH)] s

/-- LEASE (R504, R505, R507): installs a record of the same or a higher epoch; one with SINGLE set ends the runs that wait on a pair of
copies. A record that is there already is the second slot's copy, counted as whey. -/
def execLease (g : Nat) (src : RSlot) (w0 epoch : Nat) (s : State) : Host.Outcome State Fault Refusal :=
  if s.hasCurd g then
    let s := leaseTaken (.curd g src) 0x60 (markLive g src s)
    if s.rdC g R.CDIE_EPOCH_EPOCH ≤ epoch then
      let single := w0 / 2 % 2
      let again := decide (s.rdC g R.CDIE_LEASE_HOLDER = w0 % 2 ∧ s.rdC g R.CDIE_LEASE_SINGLE = single ∧ single = 0 ∧
        s.rdC g R.CDIE_EPOCH_EPOCH = epoch)
      let s := if again then s.incC g R.CDIE_WHEY_COUNT else s
      let s := installLease g (w0 % 2) single epoch s
      .next (settle (if single = 1 then endPairWaits g s else s))
    else .next (settle s)
  else .next s

/-- LEASE_CONFIRM (R507). -/
def execLeaseConfirm (g : Nat) (sender : RSlot) (epoch : Nat) (s : State) : Host.Outcome State Fault Refusal :=
  if s.hasCurd g then
    let s := leaseTaken (.curd g sender) 0x61 (markLive g sender s)
    .next (settle (leaseAnswer g sender (decide (s.holder g = sender ∧ s.rdC g R.CDIE_EPOCH_EPOCH = epoch)) s))
  else .next s

/-- LEASE_CLAIM (R507): granted where the link to the holder is silent and the epoch is the next one. -/
def execLeaseClaim (g : Nat) (sender : RSlot) (epoch : Nat) (s : State) : Host.Outcome State Fault Refusal :=
  if s.hasCurd g then
    let s := leaseTaken (.curd g sender) 0x62 (markLive g sender s)
    if s.silentLink g (s.holder g) ∧ epoch = s.rdC g R.CDIE_EPOCH_EPOCH + 1 then
      .next (settle (leaseAnswer g sender true (endPairWaits g (installLease g (RSlotBit sender) 1 epoch s))))
    else .next (settle (leaseAnswer g sender false s))
  else .next s

/-- LEASE_KEEPALIVE (R507): each die that is not fenced, to every Curd die. -/
def execLeaseKeepalive (d : RSlot) (s : State) : Host.Outcome State Fault Refusal :=
  .next (if s.hasRind d ∧ ! s.fenced d then leaseTraffic d 0x63 0 0 s else s)

/-- LEASE_ANSWER (R507, R508, R512): grants make a quorum; a higher epoch fences a holder at once; a claimer fences when no quorum is
possible. -/
def execLeaseAnswer (d : RSlot) (g : Nat) (w0 epoch : Nat) (s : State) : Host.Outcome State Fault Refusal :=
  if s.part.f = 2 ∧ s.hasRind d ∧ g < 6 ∧ ! s.fenced d then
    let s := leaseTaken (.rind d g) 0x68 s
    let had := s.rdR d R.STEP_EPOCH_EPOCH
    let x := (s.rind d).step
    let holder : Bool := match x.split with
      | some (_, h) => h
      | none => false
    let active := x.split.isSome || x.claim.isSome
    let s := if x.claim.isSome then s else s.wrR d R.STEP_EPOCH_EPOCH (max had epoch)
    if ! active then .next (settle s)
    else if (w0 / 2 ^ 15) % 2 = 1 then
      let s := modStep d (fun x => { x with grants := g :: x.grants.filter (· ≠ g) }) s
      .next (settle (if quorum (s.presentCurds d) (s.rind d).step.grants then becomeSole d s else s))
    else if holder ∧ had < epoch then .next (settle (fenceDie d s))
    else
      let s := modStep d (fun x => { x with refusals := g :: x.refusals.filter (· ≠ g) }) s
      let rest := (s.presentCurds d).filter (fun g => g ∉ (s.rind d).step.refusals)
      .next (settle (if ! holder ∧ x.split.isSome ∧ ! quorum (s.presentCurds d) rest then fenceDie d s else s))
  else .next s

/-- CURD_LINK_SILENT (R507): no message for 1 ms. -/
def execCurdLinkSilent (g : Nat) (d : RSlot) (s : State) : Host.Outcome State Fault Refusal :=
  if s.hasCurd g then
    .next ((s.modEnd (.curd g d) (fun e => { e with silent := true })).wrC g (if d = .f0 then R.CDIE_LEASE_F0LIVE else R.CDIE_LEASE_F1LIVE) 0)
  else .next s

/-- CLAIM_RETRY (R512, R513): a die that does not hold the lease claims the next epoch. -/
def execClaimRetry (d : RSlot) (s : State) : Host.Outcome State Fault Refusal :=
  let x := (s.rind d).step
  let claimer := x.claim.isSome || (match x.split with
    | some (_, h) => ! h
    | none => false)
  if s.part.f = 2 ∧ ! s.fenced d ∧ claimer then
    let e := s.rdR d R.STEP_EPOCH_EPOCH + 1
    let s := modStep d (fun x => { x with claim := some e, grants := [], refusals := [] }) s
    .next (leaseTraffic d 0x62 (RSlotBit d) e s)
  else .next s

/-- SPLIT_DEADLINE (R512): 20 ms after the loss a die without a quorum fences. -/
def execSplitDeadline (d : RSlot) (s : State) : Host.Outcome State Fault Refusal :=
  .next (settle (if (s.rind d).step.split.isSome then fenceDie d s else s))

/-- SPLIT_REINIT (R512): neither die has continued: every actuator retracts and the device re-initialises. -/
def execSplitReinit (s : State) : Host.Outcome State Fault Refusal :=
  if s.part.f = 2 ∧ s.rinds.all (fun d => s.fenced d || (s.rind d).step.split.isSome) then
    let s := onGroups emergencyRetract s
    .next (settle { s with todo := s.todo ++ [.reinit] })
  else .next s

/-! ## Steps (R493 to R497) -/

/-- The step link carries traffic again at a die that serves alone: with AUTORS set the fenced peer is resynced (R516). -/
def linkBack (d : RSlot) (was : Bool) (s : State) : State :=
  if ! was ∧ s.serving = [d] ∧ s.fenced d.peer ∧ s.bitR d R.STEP_CFG_AUTORS then startResync s else s

/-- STEP_MESSAGE (R494 to R496, R516): the junior takes the senior's entries; the senior numbers the junior's proposals and sends them back,
discarding those it already holds as peer whey; HELD is recorded; an overdue declared by the peer makes this die the late one (R510). -/
def execStepMessage (d : RSlot) (m : StepMsg) (s : State) : Host.Outcome State Fault Refusal :=
  if s.part.f = 2 then
    let was := s.bitR d R.STEP_STAT_LINKUP
    let s := takeWhere (.rind d 6) 0 (fun _ => true) s
    let s := modStep d (fun x => { x with peerHeld := max x.peerHeld m.held }) (s.wrR d R.STEP_STAT_LINKUP 1)
    if m.overdue then .next (settle (diverge 2 d s))
    else if s.senior = d then
      let r := (m.entries ++ (s.rind d).step.props).foldl (fun (acc : State × List StepEntry) e =>
        let t := acc.1
        let x := (t.rind d).step
        if x.entries.any (fun f => f.kind = e.kind ∧ f.src = e.src ∧ f.data = e.data) then (t.incR d R.STEP_WHEY_PEER, acc.2)
        else if 384 ≤ x.next - (x.peerHeld + 1) then (modStep d (fun x => { x with props := x.props ++ [e] }) t, acc.2)
        else
          let f : StepEntry := ⟨x.next, e.kind, true, e.src, e.data⟩
          (modStep d (fun x => { x with next := x.next + 1, entries := x.entries ++ [f] }) t, acc.2 ++ [f])) (modStep d (fun x => { x with props := [] }) s, [])
      let s := r.1.wrR d R.STEP_STAT_LAG (min 384 ((r.1.rind d).step.next - ((r.1.rind d).step.peerHeld + 1)))
      .next (settle (linkBack d was (if r.2.isEmpty then s else sendStep d r.2 s)))
    else
      let add (acc : Nat × List StepEntry) (e : StepEnt) : Nat × List StepEntry := (acc.1 + 1, acc.2 ++ [⟨acc.1, e.kind, e.fromJ, e.src, e.data⟩])
      let new := (m.entries.foldl add (m.first, [])).2
      .next (settle (modStep d (fun x => { x with
        entries := x.entries ++ new.filter (fun e => decide (x.done ≤ e.step) && ! x.entries.any (fun f => f.step = e.step))
        next := max x.next (m.first + m.entries.length) }) s))
  else .next s

/-- FWD_MESSAGE (R494, R495): the content is kept under its LSEQ; relayed content is the die's own copy. -/
def execFwdMessage (d : RSlot) (lseq : Nat) (c : FwdBody) (s : State) : Host.Outcome State Fault Refusal :=
  if s.part.f = 2 then
    let s := takeWhere (.rind d 6) 2 (fun m => m.lseq = lseq) s
    .next (settle (modStep d (fun x => { x with
      fwd := assocPut lseq c x.fwd
      own := match c with
        | .relay k src dg => (k, src, dg) :: x.own
        | _ => x.own }) s))
  else .next s

/-- CONTENT_REQUEST (R495): the junior lacks its own copy of step `k`: the request is counted and the senior sends the content. -/
def execContentRequest (k : Nat) (s : State) : Host.Outcome State Fault Refusal :=
  let j := s.senior.peer
  if s.inTwo then
    match (s.rind j).step.entries.find? (fun e => e.step = k) with
    | some e =>
      if (e.kind = 5 ∨ e.kind = 6) ∧ ! (s.rind j).step.own.any (fun o => decide (o.1 = e.kind ∧ o.2.1 = e.src)) then
        let s := modStep j (fun x => { x with asked := k :: x.asked }) (s.incR j R.STEP_WHEY_RELAY)
        .next (s.emit (.fwd s.senior k (.relay e.kind e.src e.data)))
      else .next s
    | none => .next s
  else .next s

/-- What a held step does to the die that processes it, by its KIND (R493). A set-up write acts on that die alone, its requester one of the die it
came from; port records and STEP_CTL, which the state holds once, are written for the device as the senior processes the step. -/
def applyEntry (d : RSlot) (e : StepEntry) (s : State) : State :=
  match e.kind with
  | 0x01 => doorbellValues d (e.src % 256) (e.data / 0x10000) (e.data % 0x10000) s
  | 0x02 => match ((s.rind d).step.fwd.find? (fun p => p.1 = e.src)).map Prod.snd with
    | some (.store a bytes) => caveWrite d .host a bytes false s
    | _ => s
  | 0x03 => match ((s.rind d).step.fwd.find? (fun p => p.1 = e.src)).map Prod.snd with
    | some (.setup r addr v) =>
      let origin := if e.fromJ then s.senior.peer else s.senior
      if 0x30000 ≤ addr ∧ addr < 0x38000 ∨ addr = 0xB8004 then (if d = s.senior then (writeReg s.serving origin r addr v s).1 else s)
      else (writeReg [d] origin r addr v s).1
    | _ => s
  | 0x0A => closeBlock d s
  | 0x0B => turnRoles e.data s
  | 0x0C => modStep d (fun x => { x with stamp := e.data }) s
  | _ => s

/-- STEP_PROCESS (R495, R496): the next step in order, once this die holds it and, at the senior, the junior holds it too; an own copy that
does not match the entry is a divergence. -/
def execStepProcess (d : RSlot) (s : State) : Host.Outcome State Fault Refusal :=
  let x := (s.rind d).step
  match x.entries.find? (fun e => e.step = x.done) with
  | none => .next s
  | some e =>
    let needFwd := decide (e.kind = 2 ∨ e.kind = 3)
    let needOwn := decide (e.kind = 5 ∨ e.kind = 6)
    let mine := x.own.find? (fun o => decide (o.1 = e.kind ∧ o.2.1 = e.src))
    if s.fenced d ∨ (needFwd ∧ ! x.fwd.any (fun p => p.1 = e.src)) ∨ (needOwn ∧ mine.isNone) ∨
        (s.inTwo ∧ s.senior = d ∧ x.peerHeld < e.step) then .next s
    else if needOwn ∧ (mine.map (fun o => o.2.2)) ≠ some e.data then
      .next (settle (diverge 3 (divergenceTarget ((s.f0.island.ownNow) || s.f0.island.ownPrev) (s.f1.island.ownNow || s.f1.island.ownPrev) s) s))
    else
      let s := modStep d (fun x => { x with
        done := e.step + 1, entries := x.entries.erase e, steps := x.steps + 1
        own := match mine with
          | some o => x.own.erase o
          | none => x.own }) (showStep d e.step s)
      .next (settle (applyEntry d e s))

/-! ## Digests (R499, R500) -/

/-- DIGEST_BLOCK_CLOSE (R499): the senior closes a block that has steps; both dies close it at that step. -/
def execDigestBlockClose (s : State) : Host.Outcome State Fault Refusal :=
  if s.inTwo ∧ 0 < (s.rind s.senior).step.steps then
    .next (settle (inStep closeBlock (newStep 0x0A 0 (s.rind s.senior).step.block s)))
  else .next s

/-- DIGEST_MESSAGE (R500, R510): the peer's digest; equal digests confirm the block, unequal ones are a divergence decided by the flags of
both dies. -/
def execDigestMessage (d : RSlot) (block : Nat) (digest : BitVec 64) (flags : Nat) (s : State) : Host.Outcome State Fault Refusal :=
  if s.inTwo then
    let s := takeWhere (.rind d 6) 1 (fun m => m.w 0 + m.w 1 * 2 ^ 32 = block) s
    match (s.rind d).step.mine.find? (fun p => p.1 = block) with
    | none => .next (settle (modStep d (fun x => { x with peers := x.peers ++ [(block, digest, flags)] }) s))
    | some (_, own) =>
      if own = digest then .next (settle (confirmBlock d block s))
      else
        let i := (s.rind d).island
        let mineFl := i.ownNow || i.ownPrev
        let peerFl := decide (flags % 4 ≠ 0)
        let f0 := if d = .f0 then mineFl else peerFl
        let f1 := if d = .f0 then peerFl else mineFl
        .next (settle (diverge 1 (divergenceTarget f0 f1 s) s))
  else .next s

/-- DIGEST_OVERDUE (R500, R510): the peer's digest has not come within DIGTO: the late die is taken as the one flagged. -/
def execDigestOverdue (d : RSlot) (block : Nat) (s : State) : Host.Outcome State Fault Refusal :=
  if s.inTwo ∧ (s.rind d).step.mine.any (fun p => p.1 = block) ∧ ! (s.rind d).step.peers.any (fun p => p.1 = block) then
    .next (settle (diverge 2 d.peer s))
  else .next s

/-- TURNING (R509): the interval has passed. -/
def execTurning (s : State) : Host.Outcome State Fault Refusal := .next (settle (proposeTurning s))

/-! ## Resync (R516, R517) -/

/-- COPY_MESSAGE (R516): the target of a resync applies 512 bytes of buffer memory, with their poison, and the cursor advances. -/
def execCopyMessage (d : RSlot) (addr : Nat) (data : List Byte) (poison : Bool) (s : State) : Host.Outcome State Fault Refusal :=
  if s.part.f = 2 ∧ s.role d = roleResync then
    let s := bmemPlace d addr data poison (takeWhere (.rind d 6) 3 (fun _ => true) s)
    .next (settle (s.rinds.foldl (fun t e => t.wrR e R.STEP_RESYNC_MIB (max (t.rdR e R.STEP_RESYNC_MIB) ((addr + data.length) / 2 ^ 20))) s))
  else .next s

/-- RESYNC_COPY_DONE (R516): every line has been sent and applied: phase 3, the server stops proposing steps. -/
def execResyncCopyDone (s : State) : Host.Outcome State Fault Refusal :=
  match s.rinds.find? (fun d => s.role d = roleResync) with
  | some t =>
    if s.rdR t R.STEP_RESYNC_PHASE = 2 then
      let s := copyBufferMemory t.peer t s
      .next (s.rinds.foldl (fun u d => (u.wrR d R.STEP_RESYNC_PHASE 3).wrR d R.STEP_RESYNC_MIB (s.dataBytes t / 2 ^ 20)) s)
    else .next s
  | none => .next s

/-- RESYNC_STATE_COPY (R516 phases 3 and 4): the target takes the server's state and both resume in step: the server senior, the target
junior, LEASE with SINGLE clear, and the target holds or polls each doorbell line again (R151). -/
def execResyncStateCopy (s : State) : Host.Outcome State Fault Refusal :=
  match s.rinds.find? (fun d => s.role d = roleResync) with
  | some t =>
    if s.rdR t R.STEP_RESYNC_PHASE = 3 then
      let srv := t.peer
      let s := copyDieState srv t s
      let s := ((s.wrR srv R.STEP_STAT_ROLE roleSenior).wrR srv R.STEP_STAT_LEASE 1)
      let s := ((s.wrR t R.STEP_STAT_ROLE roleJunior).wrR t R.STEP_STAT_LEASE 0)
      let s := s.rinds.foldl (fun u d =>
        (((u.wrR d R.STEP_STAT_REDUND 1).wrR d R.STEP_STAT_LINKUP 1).wrR d R.STEP_RESYNC_PHASE 0).incR d R.STEP_EVT_RESYNCS) s
      let s := s.wrR t R.STEP_EPOCH_EPOCH (s.rdR srv R.STEP_EPOCH_EPOCH)
      let s := modStep srv (fun x => { x with turnAt := some (s.now + 60000000 * max 1 (s.rdR srv R.STEP_CFG_TURNMIN)) }) s
      let s := (tallyCheck (setPhase t 8 (newStep 0x0C 0 (s.upUs / 1000) s))).2
      let s := s.rinds.foldl (fun u d => modStep d (fun x => { x with restoredAt := some s.now, resyncEseq := some (s.rind srv).eseq }) u) s
      .next (settle (rereadDoorbells t
        (s.rinds.foldl (fun u d => dieWordDue d (leaseTraffic d 0x60 (RSlotBit srv) (s.rdR srv R.STEP_EPOCH_EPOCH) u)) s)))
    else .next s
  | none => .next s

end Sys2Proof.Machine
end

