-- ==== Sys2Proof/Machine/Finvik.lean ====
section
/-! DEFINITION. Finvik links: messages, link control words, resets and stall watches (R20 to R40). -/

namespace Sys2Proof.Machine

/-- The Rind die and link number whose registers show a link, as this end sees it. -/
def linkRegs (e : LinkEnd) : RSlot × Nat :=
  match e with
  | .rind d n => (d, n)
  | .curd g d => (d, g)

/-- A code error or a CRC failure at a receiver (R23): counted on a Rind die, which raises source 0x009. -/
def linkError (e : LinkEnd) (code : Bool) (s : State) : State :=
  match e with
  | .rind d n => raise d 0x009 [n] (s.incR d (if code then R.DEV_FVERR_CODEERR n else R.DEV_FVERR_CRCERR n))
  | .curd _ _ => s

/-- Change both ends of a link. -/
def modLink (e : LinkEnd) (f : FvEnd → FvEnd) (s : State) : State := (s.modEnd e f).modEnd (farEnd e) f

/-- The link is declared down (R31): it stays down until re-initialisation; source 0x008. A group that no Rind die can reach goes offline
(R245). -/
def downLink (e : LinkEnd) (s : State) : State :=
  let (d, n) := linkRegs e
  let s := modLink e (fun x => { x with down := true }) s
  let s := raise d 0x008 [n] (s.wrR d (R.DEV_FVSTAT_STATE n) 3)
  let s := if n < 6 ∧ s.isReady then newStep 0x09 (8 * d.code + n) 3 s else s
  if n < 6 ∧ s.rinds.all (fun e => ! s.linkUp (.rind e n)) then groupOffline n s
  else if n = 6 then s.rinds.foldl (fun t e => t.wrR e (R.DEV_FVSTAT_STATE 6) 3) s else s

/-- The Rind dies whose registers show a link: both dies for the step link (R41). -/
def linkDies (e : LinkEnd) : List RSlot :=
  let (d, n) := linkRegs e
  if n = 6 then [d, d.peer] else [d]

/-- A link reset (R29, R31): both ends send a reset report for every class. Where three resets in a row have brought no message, the link is
declared down. -/
def linkReset (e : LinkEnd) (s : State) : State :=
  if 3 ≤ (s.fvEnd e).failedResets then downLink e s
  else
    let n := (linkRegs e).2
    let s := (linkDies e).foldl (fun t d => (t.incR d (R.DEV_FVSTAT_RESETS n)).wrR d (R.DEV_FVSTAT_STATE n) 2) s
    let s := modLink e (fun x => { x with failedResets := x.failedResets + 1, tx := x.tx.map (fun y => { y with asked := none }) }) s
    let s := (List.range 4).foldl (fun t c => sendLcw e 2 c t) s
    (List.range 4).foldl (fun t c => sendLcw (farEnd e) 2 c t) s

/-- A lease keepalive at a Curd die (R507): its arrival is all it says, and its buffer is free again. -/
def isKeepalive (e : LinkEnd) (m : Msg) : Bool :=
  match e with
  | .curd _ _ => decide (m.cls = 3 ∧ m.w 0 / 2 ^ 24 = 0x63)
  | .rind _ _ => false

/-- FINVIK_MESSAGE_RECEIVE (R23, R24, R26 to R28, R30): a whole message in order is accepted into a buffer, and acknowledged; one with a code
error, a class foreign to the link, a payload that no buffer of its class holds (DESIGN CHOICE 117) or a failing CRC is discarded, counted and
asked for again; any other copy is discarded. A message accepted is traffic restored (R31). -/
def execFinvikMessageReceive (e : LinkEnd) (m : Msg) (crcOk codeOk : Bool) (s : State) : Host.Outcome State Fault Refusal :=
  if s.linkUp e then
    let s := match e with
      | .curd g d => markLive g d s
      | .rind _ _ => s
    let code := ! codeOk || ! e.classOk m.cls || decide ((farEnd e).room (m.cls % 4) < m.payload.length)
    if code || ! crcOk then
      let s := linkError e code s
      let s := s.modEnd e (fun x => { x with rx := modAt (m.cls % 4) (fun r => { r with requests := r.requests + 1 }) x.rx })
      .next (settle (sendLcw e 1 (m.cls % 4) s))
    else
      let r := (s.fvEnd e).rx.getD (m.cls % 4) {}
      if m.lseq = (r.last + 1) % 0x10000 ∧ r.held.length < (farEnd e).credits (m.cls % 4) then
        let s := (modLink e (fun x => { x with failedResets := 0 }) s).modEnd e (fun x => { x with
          rx := modAt (m.cls % 4) (fun r => { r with last := m.lseq, held := r.held ++ [m], owed := true, requests := 0 }) x.rx })
        .next (settle (if isKeepalive e m then takeMsg e m s else s))
      else .next s
  else .next s

/-- The fields of a link control word: TYPE, CIDX, ALSEQ, FREED, FREE (R30). -/
def lcwFields (w0 w1 : Word) : Nat × Nat × Nat × Nat × Nat :=
  (w0.toNat / 2 ^ 26 % 4, w0.toNat / 2 ^ 24 % 4, w0.toNat % 2 ^ 16, w1.toNat / 2 ^ 16, w1.toNat % 2 ^ 16)

/-- `a` is at or behind `b`, modulo 65,536. -/
def notAfter (a b : Nat) : Bool := ! aheadMod 0x10000 a b

/-- A link control word of a type at a live link: one whose check fails, or of another type, is discarded and counted (R30). -/
def onLcw (typ : Nat) (e : LinkEnd) (w0 w1 : Word) (f : Nat → Nat → Nat → Nat → State → State) (s : State) : State :=
  let x := lcwFields w0 w1
  if ! s.linkUp e then s
  else if lcwGood w0 w1 && decide (x.1 = typ) then f x.2.1 x.2.2.1 x.2.2.2.1 x.2.2.2.2 s
  else linkError e true s

/-- Apply the counts of a link control word (R30): the credit of the class rises by FREED less the FREED last applied. -/
def TxClass.credited (freed : Nat) (y : TxClass) : TxClass :=
  { y with credits := y.credits + (freed + 0x10000 - y.freedApplied) % 0x10000, freedApplied := freed }

/-- LCW_CREDIT_ACK (R30): credit rises by FREED less the last FREED applied, and messages up to ALSEQ leave the replay store; requests for an LSEQ
that the receiver has passed count no more (R31). -/
def execLcwCreditAck (e : LinkEnd) (w0 w1 : Word) (s : State) : Host.Outcome State Fault Refusal :=
  .next (settle (onLcw 0 e w0 w1 (fun c alseq freed _ t =>
    launchClass e c (t.modEnd e (fun x => { x with
      tx := modAt c (fun y => { y.credited freed with
        replay := y.replay.filter (fun m => ! notAfter m.lseq alseq)
        asked := y.asked.filter (fun p => p.1 = alseq) }) x.tx }))) s))

/-- Resend every message of a class later than ALSEQ (R28): no second credit is taken. -/
def replayFrom (e : LinkEnd) (c alseq : Nat) (s : State) : State :=
  let ms := ((s.fvEnd e).tx.getD c {}).replay.filter (fun m => ! notAfter m.lseq alseq)
  ms.foldl (fun t m => t.emit (.msg e m false)) (s.modEnd e (fun x => { x with
    tx := modAt c (fun y => { y with replay := ms }) x.tx }))

/-- LCW_REPLAY_REQUEST (R28, R30, R31): the credit returns as with any link control word; later messages are sent again, and what waited for
a credit follows; three requests in a row for the same LSEQ of a class reset the link. -/
def execLcwReplayRequest (e : LinkEnd) (w0 w1 : Word) (s : State) : Host.Outcome State Fault Refusal :=
  .next (settle (onLcw 1 e w0 w1 (fun c alseq freed _ t =>
    let n := match ((t.fvEnd e).tx.getD c {}).asked with
      | some (a, k) => if a = alseq then k + 1 else 1
      | none => 1
    let t := t.modEnd e (fun x => { x with tx := modAt c (fun y => { y.credited freed with asked := some (alseq, n) }) x.tx })
    if 3 ≤ n then linkReset e t else launchClass e c (replayFrom e c alseq t)) s))

/-- LCW_RESET_REPORT (R29, R30): credits are the free buffers less the messages to replay, FREED restarts, and the replay follows. -/
def execLcwResetReport (e : LinkEnd) (w0 w1 : Word) (s : State) : Host.Outcome State Fault Refusal :=
  .next (settle (onLcw 2 e w0 w1 (fun c alseq _ free t =>
    let t := replayFrom e c alseq t
    let k := ((t.fvEnd e).tx.getD c {}).replay.length
    let n := (linkRegs e).2
    let t := (linkDies e).foldl (fun t d => if t.rdR d (R.DEV_FVSTAT_STATE n) = 2 then t.wrR d (R.DEV_FVSTAT_STATE n) 1 else t) t
    launchClass e c (t.modEnd e (fun x => { x with tx := modAt c (fun y => { y with credits := free - k, freedApplied := 0 }) x.tx }))) s))

/-- LCW_PERIODIC (R30): a receiver sends a link control word for every class. -/
def execLcwPeriodic (e : LinkEnd) (s : State) : Host.Outcome State Fault Refusal :=
  .next (if s.linkUp e then (List.range 4).foldl (fun t c => sendLcw e 0 c t) s else s)

/-- Something waits in the replay store of an end. -/
def FvEnd.waits (x : FvEnd) : Bool := x.tx.any (fun y => ! y.replay.isEmpty)

/-- LINK_DOWN (R31): the link is declared down where three resets in a row have failed, or messages wait in a replay store (the row stands for
the end of the 1 ms without traffic). -/
def execLinkDown (d : RSlot) (n : Nat) (s : State) : Host.Outcome State Fault Refusal :=
  let e : LinkEnd := .rind d n
  if s.linkUp e ∧ (3 ≤ (s.fvEnd e).failedResets ∨ (s.fvEnd e).waits ∨ (s.fvEnd (farEnd e)).waits) then .next (settle (downLink e s))
  else .next s

/-- A watch that fires on a stage with no request outstanding does nothing, as the acknowledge has stopped it (R37, R39); nor has a wait on the
outside world a watch (R40): the formatter's gate port, and a Ladle channel that waits on host memory. -/
def State.watched (s : State) : Stage → Bool
  | .enginePort d e p => s.hasRind d && (s.eng (.rind d e)).reqs.any (fun q => q.port = p)
  | .formatterPort g p => s.hasCurd g && decide (p ≠ 0x0A) && (s.curd g).eng.reqs.any (fun q => q.port = p)
  | .ladleChannel d ch => s.hasRind d && decide (ch < 32 ∧ s.chRuns d ch) && ! s.onHost d ch
  | .command d p t => s.hasRind d && s.cmds.any (fun c => decide (c.port = p ∧ c.tag = t))
  | .lane e => s.linkUp e

/-- STALL_WATCH_FIRE (R37 to R40): the firing is counted and raised, rung 1 is used, and the stage is drained: its token goes back to its
owner, and a stalled lane resets its link. A drained budget computation leaves its outputs (R539), a drained channel stage goes on in the ladder
(R297). -/
def execStallWatchFire (st : Stage) (s : State) : Host.Outcome State Fault Refusal :=
  let onRind (d : RSlot) (detail : List Nat) (s : State) : State := useRung d 1 (raise d 0x001 detail (s.incR d R.DEV_STALLCNT_COUNT))
  if ! s.watched st then .next s
  else .next (settle (match st with
    | .enginePort d e p =>
      let s := drainEngine d e p (onRind d [0, e, p] s)
      if portUnit none p = some .budget then cycleDrained s else s
    | .formatterPort g p =>
      let s := drainFormatter g p (curdRaise g 0x01 p (s.incC g R.CDIE_STALLCNT_COUNT))
      if p = 0x0C then drainChannel g s else s
    | .ladleChannel d ch => drainLadle d ch (onRind d [1, ch] s)
    | .command d p t => drainCommand d p t (onRind d [2, p, t] s)
    | .lane (.rind d n) => linkReset (.rind d n) (onRind d [3, n] s)
    | .lane (.curd g d) => linkReset (.curd g d) (curdRaise g 0x01 0 (s.incC g R.CDIE_STALLCNT_COUNT))))

end Sys2Proof.Machine
end

