-- ==== Sys2Proof/Machine/Ladle.lean ====
section
/-! DEFINITION. Commands of the Ladle: shadow sets, lists, data, descriptor ends, bus errors and the isolation pass (R448 to R460, R472). -/

namespace Sys2Proof.Machine

/-- The die and channel exist. -/
def State.hasCh (s : State) (d : RSlot) (ch : Nat) : Bool := s.hasRind d && decide (ch < 32)

/-- A channel has entered ERROR (R452, R458): its command fails with a status, noted once for the device, by the senior. -/
def noteError (d : RSlot) (status : Nat) (before after : State) : State :=
  if d ≠ before.senior then after
  else (List.range 32).foldl (fun t c =>
    if before.chState d c ≠ chError ∧ after.chState d c = chError then
      match after.transferCmd d c with
      | some (x, _) => failCmd x.uid status 0 t
      | none => t
    else t) after

/-- Engine e owns channels 4e to 4e + 3 (R581). -/
def ownsChannel (eng ch : Nat) : Bool := decide (ch / 4 = eng)

/-- LADLE_SHADOW_WRITE (R448, R453, R472, R581): an engine writes two words of the shadow set of a channel of its own; a refused pair, or another
engine's channel, answers with OK clear. The value of the response is not stated. -/
def execLadleShadowWrite (d : RSlot) (eng ch pair : Nat) (v : BitVec 64) (s : State) : Host.Outcome State Fault Refusal :=
  if s.hasCh d ch ∧ pair < 3 then
    if ownsChannel eng ch then
      let r := shadowWrite d ch pair v s
      .next (settle (reply (.rind d eng) 0x21 (pair + 1) (openReply 0x21 (pair + 1) [bit r.1]) r.1 r.2))
    else .next (settle (reply (.rind d eng) 0x21 (pair + 1) (openReply 0x21 (pair + 1) [0]) false s))
  else .next s

/-- LADLE_ARM (R448, R452, R453, R581): the shadow set is armed: an idle channel starts with it; a descriptor that is not good, or another
engine's channel, is refused. -/
def execLadleArm (d : RSlot) (eng ch : Nat) (s : State) : Host.Outcome State Fault Refusal :=
  if s.hasCh d ch then
    if ownsChannel eng ch then
      let r := armChannel d ch s
      .next (settle (reply (.rind d eng) 0x21 4 (openReply 0x21 4 [bit r.1]) r.1 (noteError d St.sglError s r.2)))
    else .next (settle (reply (.rind d eng) 0x21 4 (openReply 0x21 4 [0]) false s))
  else .next s

/-- LADLE_READ_STATE (R472): the channel's state goes to the Ladle latch: its layout there is not stated, so it is a free value of the channel
registers. -/
def execLadleReadState (d : RSlot) (eng ch : Nat) (s : State) : Host.Outcome State Fault Refusal :=
  if s.hasCh d ch then
    .next (settle (reply (.rind d eng) 0x21 5 (openReply 0x21 5
      [s.chState d ch, bit (s.pend d ch), s.rdR d (R.LADLE_CHACK_BYTES ch), s.rdR d (R.LADLE_CHSTAT_DESCS ch)]) true s))
  else .next s

/-- SGL_ENTRY_FETCH (R450 to R452, R458): a 64-byte block of list entries returns and is walked; a chain error ends the transfer, and its
command with SGL_ERROR. -/
def execSglEntryFetch (d : RSlot) (ch : Nat) (block : List Byte) (s : State) : Host.Outcome State Fault Refusal :=
  if s.hasCh d ch then .next (settle (noteError d St.sglError s (listBlock d ch block s))) else .next s

/-- LADLE_READ_DATA (R455): host bytes answer a read of a channel and go to buffer memory through the Cave. -/
def execLadleReadData (d : RSlot) (ch : Nat) (data : List Byte) (s : State) : Host.Outcome State Fault Refusal :=
  if s.hasCh d ch then .next (settle (hostData d ch data s)) else .next s

/-- Blocks of what a descriptor moves out for a command that hold poisoned data, by index within the command (R177): `u` bytes of each block lie in
the transfer, which covers its bytes `off` to `off + n` and starts at `src`. -/
def State.poisoned (s : State) (d : RSlot) (ch u src off n : Nat) : List Nat :=
  let x := s.ladleAct d ch
  (List.range ((off + n + u - 1) / u - off / u)).filterMap (fun i =>
    let k := off / u + i
    let lo := max off (u * k)
    let hi := min (off + n) (u * k + u)
    if (caveRead d (.ladle ch) (src + (lo - off)) (hi - lo) x.noalloc s).2.1 then some k else none)

/-- A block of the range waits for a version that is not whole (R212, R215). -/
def State.rangeWaits (s : State) (c : Cmd) (u off n : Nat) : Bool :=
  (List.range ((off + n + u - 1) / u - off / u)).any (fun i => (s.readSource c.port c.index c.vol (c.slba + (off / u + i))).2)

/-- Bytes `off` to `off + n` of a reading command have gone out (R177, R212, R221): what waits for a version is not delivered; a poisoned block that
exists only in buffer memory is the command's failure; a clean cached copy is fetched again, and its bytes moved again. -/
def noteOut (d : RSlot) (ch : Nat) (c : Cmd) (isMeta : Bool) (src off n : Nat) (before after : State) : State :=
  let u := if isMeta then 16 else 4096
  if before.rangeWaits c u off n then after
  else
    let bad := before.poisoned d ch u src off n
    match bad.filter (fun k => before.onlyInBuffer c k) with
    | k :: _ => noteMoved c.uid isMeta off n false (failCmd c.uid St.bufferUncorrectable k after)
    | [] => if bad.isEmpty then noteMoved c.uid isMeta off n false after else refetch c.uid bad after

/-- The bytes that a descriptor of a channel delivers, for the command it serves (R165, R176, R184, R185): to the host from byte `base` of the
command on; in a window range with the pieces kept that the host stored to later. -/
def State.delivers (s : State) (d : RSlot) (ch : Nat) (pos : Nat) (bytes old : List Byte) : List Byte :=
  let x := s.ladleAct d ch
  if x.dir = 3 then
    match s.windowCmd d x.baddr with
    | some (c, off) =>
      let new := s.deliver c false bytes.length (off + pos) bytes
      (List.range ((bytes.length + 63) / 64)).flatMap (fun i =>
        ((if (off + pos) / 64 + i ∈ c.stored then old else new).drop (64 * i)).take 64)
    | none => bytes
  else
    match s.transferCmd d ch with
    | some (c, isMeta) => s.deliver c isMeta bytes.length ((s.ladleCh d ch).base + pos) bytes
    | none => bytes

/-- What a descriptor's end says of its command (R177, R209, R221): its bytes have moved; poisoned data on the way out is its failure. -/
def noteDescriptor (d : RSlot) (ch : Nat) (before after : State) : State :=
  let x := before.ladleAct d ch
  let base := (before.ladleCh d ch).base
  if d ≠ before.senior then after
  else if x.dir = 3 then
    match before.windowCmd d x.baddr with
    | some (c, off) =>
      noteOut d ch c false x.haddr off x.len before after
    | none => after
  else
    match before.transferCmd d ch with
    | some (c, isMeta) =>
      if x.dir = 2 then noteOut d ch c isMeta x.baddr base x.len before after
      else noteMoved c.uid isMeta base x.len false (storeMoved c.uid isMeta base (caveRead d (.ladle ch) x.baddr x.len x.noalloc after).1 after)
    | none => after

/-- LADLE_DESCRIPTOR_END (R453 to R455): the rest of the descriptor moves, the channel raises its event, and takes the next set or is
IDLE. The end of a read of host memory is an input in step (R460, R494). -/
def execLadleDescriptorEnd (d : RSlot) (ch : Nat) (s : State) : Host.Outcome State Fault Refusal :=
  if s.hasCh d ch && s.canEnd d ch then
    let s := if d = s.senior ∧ (s.ladleAct d ch).dir = 1 then newStep 0x06 (32 * s.rdR d (R.LADLE_CHSTAT_DESCS ch) + ch) 0 s else s
    let r := moveRest d ((s.transferCmd d ch).map (fun p => p.1.uid)) ch (s.delivers d ch) s
    let t := endDescriptor d ch r.2
    .next (settle (noteError d St.sglError s (noteDescriptor d ch s t)))
  else .next s

/-- LADLE_BUS_ERROR (R457, R458, R460): a host read goes unanswered: an input in step. A channel alone in a pass is the culprit, and its
command fails with HOST_MEMORY; otherwise all 32 channels stop. -/
def execLadleBusError (d : RSlot) (ch : Nat) (s : State) : Host.Outcome State Fault Refusal :=
  if s.hasCh d ch ∧ d ∈ s.serving ∧ s.chRuns d ch then
    .next (settle (inStep (fun e t => noteError e St.hostMemory t (busError e ch t)) (newStep 0x07 ch 0 s)))
  else .next s

/-- ISOLATION_PASS (R458, R460): the recovery culture takes the pass one channel further. -/
def execIsolationPass (d : RSlot) (skip : Bool) (s : State) : Host.Outcome State Fault Refusal :=
  if d ∈ s.serving then .next (settle (inStep (fun e t => noteError e St.sglError t (passStep e skip t)) s)) else .next s

end Sys2Proof.Machine
end

