-- ==== Sys2Proof/Machine/Power.lean ====
section
/-! DEFINITION. Supply, pins and the PMBus: the commands of "Package, balls and electrical limits" and of the brown-out rules (R42 to R75,
R96, R97). -/

namespace Sys2Proof.Machine

/-- VIN lies in its operating range (R47). -/
def vinOk (mv : Nat) : Bool := decide (4500 ≤ mv ∧ mv ≤ 32000)

/-- The islands wake: fuses and strap are sensed, DEV_PINSTAT shows the pins, and the start sequence stands at step 1 (R91, R100). -/
def startIslands (s : State) : State :=
  let s := { s with boot := { s.boot with startAt := s.now } }
  let s := s.rinds.foldl (fun t d =>
    let t := ((t.wrR d R.BOOT_FUSE_SVNFUSE t.fuses.svn).wrR d R.BOOT_FUSE_KEYO (bit t.fuses.ownerKey)).wrR d R.BOOT_FUSE_KEYV (bit t.fuses.vendorKey)
    (t.wrR d R.BOOT_FUSE_FUSEOK (bit t.fuses.parityOk)).wrR d R.BOOT_STAT_PHASE 1) (showPins s)
  let s := s.wrR .f0 R.DEV_DIEPRES_F0PRES 1
  let s := if s.pins.trstN then s.rinds.foldl (fun t d => raise d 0x003 [] t) s else s
  if s.pins.shortReset then
    s.rinds.foldl (fun t d => raise d 0x004 [] t) { s with pins := { s.pins with shortReset := false } }
  else s

/-- POWER_ON_RESET_RELEASE (R47, R91): the islands start, sense the fuses and the strap, and the start sequence begins at step 1. -/
def execPowerOnResetRelease (vinMv : Nat) (strap : Bool) (s : State) : Host.Outcome State Fault Refusal :=
  if s.pins.por then .next s
  else
    let s := powerLoss s
    let s := { s with pins := { s.pins with por := true, vinMv := vinMv, sbAddr := strap, shortReset := false } }
    .next (settle (if s.pins.resetN then startIslands s else s))

/-- POWER_ON_RESET_ENTRY (R72): the pin steps of R71 in order; everything but the flash, the fuses and the pins' levels is lost. -/
def execPowerOnResetEntry (vinMv : Nat) (s : State) : Host.Outcome State Fault Refusal :=
  let s := powerLoss (cutFlash s)
  .next { s with pins := { s.pins with por := false, vinMv := vinMv } }

/-- RESET_N_FALL (R71): retract and gates off, ALIVE low, SF_CS_N high, REG_EN low; registers take their reset values. An edge during
power-on reset changes the level alone (R72). -/
def execResetNFall (s : State) : Host.Outcome State Fault Refusal :=
  if s.pins.por then
    let s := showPins (fullReset (cutFlash s))
    .next { s with pins := { s.pins with resetN := false } }
  else .next { s with pins := { s.pins with resetN := false } }

/-- RESET_N_RISE (R71): a full start; a pulse under 100 µs raises source 0x004 at it. -/
def execResetNRise (lowUs : Nat) (s : State) : Host.Outcome State Fault Refusal :=
  let s := { s with pins := { s.pins with resetN := true, shortReset := s.pins.por && decide (lowUs < 100) } }
  .next (settle (if s.pins.por then
    let start := s.boot.startAt
    let s := startIslands s
    { s with boot := { s.boot with startAt := start } } else s))

/-- Cooking pauses: no current flows (R96). -/
def pauseCooking (s : State) : State := if s.spState = spCooking then modSpin (fun p => { p with still := 0 }) s else s

/-- VIN_SAMPLE (R96, R97): below VSAG the pause begins; below 4.5 V the hold time runs; a dip that ends within HOLD raises source 0x025. -/
def execVinSample (vinMv : Nat) (s : State) : Host.Outcome State Fault Refusal :=
  let s := wrBoth R.DEV_PINSTAT_VINOK (bit (vinOk vinMv)) { s with pins := { s.pins with vinMv := vinMv } }
  let sag := decide (vinMv < 10 * s.rdR s.senior R.BOOT_RIDE_VSAG)
  let s := if sag then pauseCooking { s with pins := { s.pins with sagPause := true }, flash := { s.flash with sagged := s.flash.op.isSome } } else s
  if vinMv < 4500 then
    .next { s with pins := { s.pins with lowSince := some (s.pins.lowSince.getD s.now) } }
  else if s.pins.lowSince.isSome then
    let s' := { s with pins := { s.pins with lowSince := none } }
    .next (settle (if s.pins.holdOut then s' else inStep (fun d t => raise d 0x025 [vinMv] t) s'))
  else .next s

/-- Cooking goes on after the pause, at the current of the resistance last measured (R96, R372). -/
def resumeCooking (s : State) : State :=
  if s.spState = spCooking then modSpin (fun p => { p with still := s.cookCurrent (s.rdC 0 R.SPIN_RES_RES) }) s else s

/-- SAG_PAUSE_END (R96, R98): VIN has been at or above VSAG for 10 ms: the pause ends, what waited at the flash begins, and cooking resumes. -/
def execSagPauseEnd (s : State) : Host.Outcome State Fault Refusal :=
  if s.pins.sagPause ∧ 10 * s.rdR s.senior R.BOOT_RIDE_VSAG ≤ s.pins.vinMv then
    .next (resumeCooking (beginHeaderWrite (resumeOp { s with pins := { s.pins with sagPause := false } })))
  else .next s

/-- SUPPLY_HOLD_EXPIRE (R97): media writes end, every actuator retracts, the spindle coasts, source 0x026 gives the count of versions not
on the media, and REG_EN drops: buffer memory is lost. In the thermal wait, NOIMAGE and FAILED phases REG_EN is low already, and the device starts
again by its own rules alone (R90, R527): the source is raised. -/
def execSupplyHoldExpire (s : State) : Host.Outcome State Fault Refusal :=
  if s.pins.lowSince.isSome ∧ ! s.pins.holdOut ∧ 0xD ≤ s.phase .f0 then .next (settle (inStep (fun d t => raise d 0x026 [0] t) s))
  else if s.pins.lowSince.isSome ∧ ! s.pins.holdOut then
    let s := onGroups emergencyRetract (gatesOff s)
    let s := inStep (fun d t => raise d 0x026 [dirtyCount t] t) s
    let s := setRegEn false (coreReset { settle s with mediaClean := false })
    .next { s with pins := { s.pins with holdOut := true }, boot := { s.boot with restarting := false, portsOff := false } }
  else .next s

/-- SUPPLY_RESTART (R97): VIN has been at or above 4.6 V for 100 ms: the start runs from step 2. -/
def execSupplyRestart (s : State) : Host.Outcome State Fault Refusal :=
  if s.pins.holdOut ∧ 4600 ≤ s.pins.vinMv then
    .next (wrBoth R.BOOT_STAT_PHASE 1 { s with pins := { s.pins with holdOut := false, lowSince := none } })
  else .next s

/-- PERST_ASSERT (R73): the head's link is reset and held, and nothing else; while RESET_N is low the level alone changes. -/
def execPerstAssert (d : RSlot) (h : Nat) (s : State) : Host.Outcome State Fault Refusal :=
  if s.hasRind d ∧ h < 4 then
    let s := setPerst d h false s
    if ! s.pins.resetN then .next s else
    .next (settle (if s.boot.released then hostLinkStep d h (headLost d h 3 s) else s))
  else .next s

/-- PERST_DEASSERT (R73): the head's link may train again. -/
def execPerstDeassert (d : RSlot) (h : Nat) (s : State) : Host.Outcome State Fault Refusal :=
  if s.hasRind d ∧ h < 4 then
    let s := setPerst d h true s
    .next (if s.pins.resetN ∧ s.boot.released ∧ s.rdR d (R.LINK_HEADSTAT_STATE h) = 3 then
      hostLinkStep d h (s.wrR d (R.LINK_HEADSTAT_STATE h) (s.headStart d h true)) else s)
  else .next s

/-- TRST_N takes a level (R66, R75): high while RESET_N is high it raises the Fatal source 0x003. -/
def trstLevel (high : Bool) (s : State) : State :=
  let s := wrBoth R.DEV_PINSTAT_TRSTN (bit high) { s with pins := { s.pins with trstN := high } }
  if high ∧ ! s.inReset then s.rinds.foldl (fun t d => raise d 0x003 [] t) s else s

/-- TEST_PORT_ACTIVE (R66): the next edge of TRST_N (DESIGN CHOICE 146). -/
def execTestPortActive (s : State) : Host.Outcome State Fault Refusal := .next (settle (trstLevel (! s.pins.trstN) s))

/-- TIMEBASE_LOST (R67): the ring oscillator finds the crystal stopped: the Fatal source 0x002. -/
def execTimebaseLost (d : RSlot) (s : State) : Host.Outcome State Fault Refusal :=
  if s.hasRind d then
    .next (settle (raise d 0x002 [] (s.modRind d (fun r => { r with island := { r.island with timebaseLost := true } }))))
  else .next s

/-- The device is healthy for ALIVE (R549): READY and not in the fault state. -/
def State.healthy (s : State) : Bool := s.isReady && s.rinds.all (fun d => s.rdR d R.FAULT_STAT_STATE = 0)

/-- ALIVE_TOGGLE (R63, R549): the next edge of ALIVE while the device is healthy; otherwise ALIVE is driven low. -/
def execAliveToggle (s : State) : Host.Outcome State Fault Refusal :=
  .next (if s.healthy then { s with pins := { s.pins with alive := ! s.pins.alive, aliveOn := true } } else stopAlive s)

/-- ALIVE_TAKEOVER (R63): F1's island claims the pin and drives the next edge. -/
def execAliveTakeover (s : State) : Host.Outcome State Fault Refusal :=
  .next (if s.healthy && decide (s.part.f = 2 ∧ s.pins.aliveBy = .f0) then
    { s with pins := { s.pins with alive := ! s.pins.alive, aliveOn := true, aliveBy := .f1 } } else s)

/-- RAIL_MONITOR_LOW (R352, R383): VCORE or VANA below its threshold makes the Curd island retract; C0 also turns the bridge off. -/
def execRailMonitorLow (g : Nat) (r : Rail) (s : State) : Host.Outcome State Fault Refusal :=
  if s.hasCurd g ∧ r ≠ .vddq then
    let s := emergencyRetract g (s.modCurd g (fun c => { c with railLow := true }))
    .next (settle (if g = 0 then gatesOff s else s))
  else .next s

/-- RAIL_RECOVERED (R352, R383): the rail is back above its threshold and the die starts over: its Press and read channel afresh, and C0's
bridge returns with a start decision due. -/
def execRailRecovered (g : Nat) (s : State) : Host.Outcome State Fault Refusal :=
  if s.hasCurd g ∧ (s.curd g).railLow then
    let s := resetPress g (resetChannel g (resetFormatter g (s.modCurd g (fun c => { c with railLow := false }))))
    .next (settle (if g = 0 ∧ s.spin.begun ∧ curdCode 0 ∉ s.budget.shut then modSpin (fun p => { p with heldLow := false, due := true }) s else s))
  else .next s

/-! ## PMBus (R50 to R53) -/

/-- Number of a rail: VCORE 0, VANA 1, VDDQ 2, as the sources 0x005 to 0x007 run. -/
def railNo : Rail → Nat
  | .vcore => 0
  | .vana => 1
  | .vddq => 2

/-- Some die drives the PMBus (R52). -/
def State.pmbDriven (s : State) : Bool := s.rinds.any (fun d => s.bitR d R.DEV_PINSTAT_PMBOWN && ! s.fenced d)

/-- A regulator fault (R53): the rail's source, on every serving die's collector. -/
def regulatorFault (r : Rail) (s : State) : State :=
  inStep (fun d t => raise d (0x005 + railNo r) [railNo r] t) { s with pmb := { s.pmb with fails := assocPut (railNo r) 0 s.pmb.fails } }

/-- The regulator's 7-bit address, as the header gives it (R50, R78). -/
def State.pmbAddr (s : State) : Rail → Nat
  | .vcore => s.boot.hdr.pmbVcore
  | .vana => s.boot.hdr.pmbVana
  | .vddq => s.boot.hdr.pmbVddq

/-- The two bytes of a set point in the regulator's VOUT_MODE format (R50): the format is the regulator's, so the encoding is a free value of the
set point (DESIGN CHOICE 127). -/
def voutData (mv : Nat) : Nat := Config.openNat 70 [mv] % 65536

/-- A reading confirms its rail (R46, R91 step 4): within the rail's operating range. -/
def State.railGood (s : State) (r : Rail) (mv : Nat) : Bool :=
  match r with
  | .vcore => decide (98 * s.pmb.setMv ≤ 100 * mv ∧ 100 * mv ≤ 102 * s.pmb.setMv)
  | .vana => decide (1750 ≤ mv ∧ mv ≤ 1850)
  | .vddq => decide (1067 ≤ mv ∧ mv ≤ 1133)

/-- A PMBus write transaction (R53): a bad answer is a regulator fault; a good one takes effect. -/
def pmbWrite (r : Rail) (code data : Nat) (resp : PmbResp) (f : State → State) (s : State) : State :=
  if s.pmbDriven then
    let s := s.emit (.pmbus (s.pmbAddr r) code data)
    if resp = .ok then f s else regulatorFault r s
  else s

/-- A PMBus read transaction (R53): three failures in a row are a regulator fault. -/
def pmbRead (r : Rail) (code : Nat) (resp : PmbResp) (f : State → State) (s : State) : State :=
  if s.pmbDriven then
    let s := s.emit (.pmbus (s.pmbAddr r) code 0)
    if resp = .ok then f { s with pmb := { s.pmb with fails := assocPut (railNo r) 0 s.pmb.fails, badReads := s.pmb.badReads.filter (· ≠ railNo r) } }
    else
      let n := assocGet (railNo r) 0 s.pmb.fails + 1
      if 3 ≤ n then regulatorFault r { s with pmb := { s.pmb with badReads := railNo r :: s.pmb.badReads.filter (· ≠ railNo r) } } else { s with pmb := { s.pmb with fails := assocPut (railNo r) n s.pmb.fails } }
  else s

/-- PMBUS_OPERATION (R50): a rail is turned on or off. -/
def execPmbusOperation (r : Rail) (on : Bool) (resp : PmbResp) (s : State) : Host.Outcome State Fault Refusal :=
  .next (settle (pmbWrite r 0x01 (bit on) resp (fun t => { t with pmb := { t.pmb with
    on := if on then (if r ∈ t.pmb.on then t.pmb.on else t.pmb.on ++ [r]) else t.pmb.on.erase r
    confirmed := t.pmb.confirmed.erase r } }) s))

/-- PMBUS_CLEAR_FAULTS (R50). -/
def execPmbusClearFaults (r : Rail) (resp : PmbResp) (s : State) : Host.Outcome State Fault Refusal :=
  .next (settle (pmbWrite r 0x03 0 resp (fun t => { t with pmb := { t.pmb with faulted := t.pmb.faulted.erase r } }) s))

/-- PMBUS_VOUT_COMMAND (R51, R531): VCORE moves one step of 10 mV toward the budget manager's target, within 0.65 V to 0.90 V, once READ_VOUT
has confirmed the step before, at most five steps a cycle. -/
def execPmbusVoutCommand (up : Bool) (resp : PmbResp) (s : State) : Host.Outcome State Fault Refusal :=
  let mv := if up then s.pmb.setMv + 10 else s.pmb.setMv - 10
  let want := 10 * s.rdS R.BUDGET_STAT_VTGT
  if s.pmb.stepConfirmed ∧ 650 ≤ mv ∧ mv ≤ 900 ∧ s.budget.vsteps < 5 ∧ (if up then s.pmb.setMv < want else want < s.pmb.setMv) then
    let s := modBudget (fun b => { b with vsteps := b.vsteps + 1 }) s
    .next (settle (pmbWrite .vcore 0x21 (voutData mv) resp (fun t => { t with pmb := { t.pmb with setMv := mv, stepConfirmed := false } }) s))
  else .next s

/-- PMBUS_STATUS_WORD (R53): a fault the regulator reports raises its source. -/
def execPmbusStatusWord (r : Rail) (resp : PmbResp) (fault : Bool) (s : State) : Host.Outcome State Fault Refusal :=
  .next (settle (pmbRead r 0x79 resp (fun t =>
    if fault then regulatorFault r { t with pmb := { t.pmb with faulted := if r ∈ t.pmb.faulted then t.pmb.faulted else r :: t.pmb.faulted } }
    else t) s))

/-- Step 4 of R91: with every rail confirmed the core logic leaves reset, and step 6 may run. -/
def railsUp (s : State) : State :=
  if s.rinds.any (fun d => s.phase d = 2) ∧ [Rail.vcore, .vana, .vddq].all (fun r => decide (r ∈ s.pmb.confirmed)) then
    s.rinds.foldl (fun t d => if t.phase d = 2 then t.wrR d R.BOOT_STAT_PHASE 3 else t) s
  else s

/-- PMBUS_READ_VOUT (R51, R91): the measured voltage; within its operating range it confirms a rail that is on, and a VCORE reading within
2 % of the set point (R46) the step. -/
def execPmbusReadVout (r : Rail) (resp : PmbResp) (mv : Nat) (s : State) : Host.Outcome State Fault Refusal :=
  .next (settle (pmbRead r 0x8B resp (fun t =>
    let t := { t with pmb := { t.pmb with vout := assocPut (railNo r) mv t.pmb.vout } }
    let t := if r ∈ t.pmb.on ∧ r ∉ t.pmb.confirmed ∧ t.railGood r mv then { t with pmb := { t.pmb with confirmed := r :: t.pmb.confirmed } } else t
    let t := if r = .vcore then
        let t := t.rinds.foldl (fun t d => t.wrR d R.BUDGET_PMB_VVCORE mv) t
        { t with pmb := { t.pmb with stepConfirmed := t.railGood .vcore mv } }
      else t
    railsUp t) s))

/-- PMBUS_READ_IOUT (R50): the current of a rail, in 10 mA, for the budget cycle. -/
def execPmbusReadIout (r : Rail) (resp : PmbResp) (tenMa : Nat) (s : State) : Host.Outcome State Fault Refusal :=
  .next (settle (pmbRead r 0x8C resp (fun t =>
    let t := { t with pmb := { t.pmb with iout := assocPut (railNo r) tenMa t.pmb.iout } }
    if r = .vcore then t.rinds.foldl (fun t d => t.wrR d R.BUDGET_PMB_IVCORE tenMa) t else t) s))

/-- PMBUS_TAKEOVER (R52): the bus has been idle 10 µs after a turning, or since a fenced die left it: the die that holds the lease drives it. -/
def execPmbusTakeover (s : State) : Host.Outcome State Fault Refusal :=
  if s.pmb.takeover ∧ s.bitR s.senior R.STEP_STAT_LEASE then
    let s := wrBoth R.DEV_PINSTAT_PMBOWN 0 { s with pmb := { s.pmb with takeover := false } }
    .next (s.wrR s.senior R.DEV_PINSTAT_PMBOWN 1)
  else .next s

/-! ## The serial-flash bus (R65) -/

/-- SF_BUS_REQUEST (R65): an island asks for the bus; in F1 parts F0 always owns it. -/
def execSfBusRequest (d : RSlot) (s : State) : Host.Outcome State Fault Refusal :=
  if s.part.f = 2 ∧ ! s.bitR d R.DEV_PINSTAT_SFOWN ∧ d ∉ s.pins.sfReq ∧ ! s.fenced d then
    .next { s with pins := { s.pins with sfReq := s.pins.sfReq ++ [d] } }
  else .next s

/-- Hand the bus to a Rind die. -/
def giveBus (d : RSlot) (s : State) : State :=
  let s := (s.wrR d R.DEV_PINSTAT_SFOWN 1).wrR d.peer R.DEV_PINSTAT_SFOWN 0
  { s with pins := { s.pins with sfReq := s.pins.sfReq.erase d } }

/-- SF_BUS_GRANT (R65): the owner has finished its flash command; F0 is granted first. -/
def execSfBusGrant (s : State) : Host.Outcome State Fault Refusal :=
  if s.flash.op.isSome then .next s
  else if .f0 ∈ s.pins.sfReq then .next (giveBus .f0 s)
  else if .f1 ∈ s.pins.sfReq then .next (giveBus .f1 s)
  else .next s

end Sys2Proof.Machine
end

