-- ==== Sys2Proof/Machine/Sector.lean ====
section
/-! DEFINITION. The formatter, the gate unit, the read channel, the preamplifier and SHOCK: the commands (R261 to R326), and the reports of the
Curd dies as the Rind dies take them (R303, R505, R544). -/

namespace Sys2Proof.Machine

/-! ## Sector commands (R301 to R304) -/

/-- A sector command of an operation arrives at `C{g}`: its first copy is queued, or refused (R302, R504). An operation the list does not hold is
refused whichever row brings it. -/
def sectorCommand (op g : Nat) (src : RSlot) (m : Msg) (s : State) : Host.Outcome State Fault Refusal :=
  let k := m.w 0 / 2 ^ 28
  if s.hasCurd g ∧ m.cls = 0 ∧ (k = op ∨ ¬(1 ≤ k ∧ k ≤ 5)) then
    let r := firstCopy g src m s
    .next (settle (if r.1 then queueRun g src m r.2 else r.2))
  else .next s

/-- SECTOR_READ (R301). -/
def execSectorRead (g : Nat) (src : RSlot) (m : Msg) (s : State) : Host.Outcome State Fault Refusal := sectorCommand 1 g src m s

/-- SECTOR_WRITE (R301). -/
def execSectorWrite (g : Nat) (src : RSlot) (m : Msg) (s : State) : Host.Outcome State Fault Refusal := sectorCommand 2 g src m s

/-- SECTOR_VERIFY (R301). -/
def execSectorVerify (g : Nat) (src : RSlot) (m : Msg) (s : State) : Host.Outcome State Fault Refusal := sectorCommand 3 g src m s

/-- SECTOR_OLDREAD (R283, R301). -/
def execSectorOldread (g : Nat) (src : RSlot) (m : Msg) (s : State) : Host.Outcome State Fault Refusal := sectorCommand 4 g src m s

/-- SECTOR_PARITY (R231, R301). -/
def execSectorParity (g : Nat) (src : RSlot) (m : Msg) (s : State) : Host.Outcome State Fault Refusal := sectorCommand 5 g src m s

/-- Put the payload of a DATA message to those of its number. -/
def putData {α : Type} [DecidableEq α] (k : α) (e : Nat) (ws : List Word) (l : List (α × Nat × List (List Word))) : List (α × Nat × List (List Word)) :=
  if l.any (fun x => decide (x.1 = k ∧ x.2.1 = e)) then l.map (fun x => if x.1 = k ∧ x.2.1 = e then (x.1, x.2.1, x.2.2 ++ [ws]) else x)
  else l ++ [(k, e, [ws])]

/-- DATA_MESSAGE (R25, R301, R504, R505): the payload is kept for its sector; at a Curd die with two dies in step, the message that completes
the second copy has the copies compared. -/
def execDataMessage (e : LinkEnd) (m : Msg) (s : State) : Host.Outcome State Fault Refusal :=
  if m.cls ≠ 1 then .next s
  else
    match e with
    | .rind d n =>
      if s.hasRind d ∧ n < 6 then .next (settle ((takeMsg e m s).modRind d (fun r => { r with data := putData n m.eseq m.payload r.data }))) else .next s
    | .curd g d =>
      if ! s.hasCurd g then .next s
      else
        let s := takeMsg e m (markLive g d s)
        let s := modFmt g (fun f => { f with data := putData d m.eseq m.payload f.data }) s
        let f := s.fmt g
        .next (settle (
          match f.received d m.eseq, f.received d.peer m.eseq with
          | some a, some b =>
            if s.single g ∨ 9 < a.length ∨ dataDigests m.eseq a = dataDigests m.eseq b then s else reportMismatch g 1 (s.holder g) m.eseq s
          | _, _ => s))

/-- A run's sectors as it starts: an OLDREAD is served from a valid vault entry whose sector was good, where there is one (R231, R283). -/
def startSecs (f : Fmt) (op : Nat) (l : List Sec) : List Sec :=
  if op = 4 then l.map (fun x =>
    match f.vault.find? (fun e => e.good.isSome && decide (e.surf = x.surf ∧ e.track = x.track ∧ e.pos = x.pos)) with
    | some e => { x with stage := .vault, entries := [e.id] }
    | none => x)
  else l

/-- The run in progress has passed its last gate (R304). -/
def Fmt.pastGates (f : Fmt) : Bool :=
  f.gate.isNone && (match f.current with
    | none => true
    | some r => ! r.secs.any (fun x => decide (x.stage = .waiting ∧ x.kind ≠ .helper)))

/-- RUN_START (R304, R311, R318): the oldest command starts as the run in progress has passed its last gate: its zone is loaded, and the servo
asked for its track. -/
def execRunStart (g : Nat) (s : State) : Host.Outcome State Fault Refusal :=
  match (s.fmt g).queue with
  | [] => .next s
  | r :: q =>
    if ! s.hasCurd g ∨ ! s.svLoaded g ∨ ! (s.fmt g).pastGates then .next s
    else
      let s := modFmt g (fun f => { f with queue := q, runs := f.runs ++ [{ r with secs := startSecs f r.op r.secs }] }) s
      let s := loadZone g r.surf r.zone s
      let s := if r.op = 2 ∨ r.op = 5 then heater g true s else s
      let s := requestTarget g r.surf r.track s
      .next (settle (showFmt g (refreshServo g (failWrites g (endIfDone g r.eseq s)))))

/-! ## The gate unit (R305, R306) -/

/-- GATE_POST (R305, R314): the event joins the posted ones, up to eight; one that comes later than its bit is discarded and counted. With eight
posted, the request waits. -/
def execGatePost (g : Nat) (ev : GateEv) (late : Bool) (s : State) : Host.Outcome State Fault Refusal :=
  if ! s.hasCurd g then .next s
  else
    let tell (s : State) : State := reply (.curd g) 0x0A 1 (openReply 0x0A 1 []) true s
    if late then .next (settle (tell (s.incC g R.FMT_WRCNT_LATE)))
    else if (s.fmt g).posted.length < 8 then .next (settle (tell (modFmt g (fun f => { f with posted := f.posted ++ [⟨ev, f.readers⟩] }) s)))
    else .next s

/-- GATE_EVENT (R264, R280, R287, R305, R316, R318): the gate unit acts on its oldest event; `cap` is what a read gate that closes captured. -/
def execGateEvent (g : Nat) (cap : Capture) (s : State) : Host.Outcome State Fault Refusal :=
  if s.hasCurd g then .next (settle (refreshServo g (gateAct g cap s))) else .next s

/-! ## The read channel (R274 to R294) -/

/-- SECTOR_DECODE (R274 to R277): rung 1 on the capture of the sector at a surface and position. -/
def execSectorDecode (g surf pos : Nat) (s : State) : Host.Outcome State Fault Refusal :=
  match s.findSec g (fun x => decide (x.stage = .captured ∧ x.surf = surf ∧ x.pos = pos)) with
  | none => .next s
  | some q => .next (settle (refreshServo g (showFmt g (rungOne g q.1 q.2.1 s))))

/-- VAULT_RUNG (R282, R288 to R291): the vault engine runs the next rung of the sector that it takes, which is the one at this position. -/
def execVaultRung (g pos : Nat) (s : State) : Host.Outcome State Fault Refusal :=
  if s.hasCurd g ∧ (s.vaultNext g).all (fun q => decide (q.2.2.pos = pos)) = true then .next (settle (refreshServo g (vaultStep g (s.wrC g R.CHAN_STAT_VENG 0)))) else .next s

/-- VAULT_RUNG_START (R282, R300): the vault engine is asked for a rung or a re-decode, and is busy where a sector waits for it. -/
def execVaultRungStart (g idx rung : Nat) (s : State) : Host.Outcome State Fault Refusal :=
  if ! s.hasCurd g then .next s
  else
    let busy := (s.vaultNext g).isSome
    .next (settle (reply (.curd g) 0x0C 1 (openReply 0x0C 1 [idx, rung]) busy (if busy then s.wrC g R.CHAN_STAT_VENG 1 else s)))

/-- REBUILD (R293, R294): a sector whose group has been read is rebuilt from it. -/
def execRebuild (g pos : Nat) (s : State) : Host.Outcome State Fault Refusal :=
  match s.findSec g (fun x => decide (x.stage = .rebuild ∧ x.pos = pos)) with
  | none => .next s
  | some q => .next (settle (refreshServo g (showFmt g (rebuildSec g q.1 q.2.1 s))))

/-- READER_SETTLED (R262, R314): 20 µs have passed: the new mode applies from the next read gate. -/
def execReaderSettled (g : Nat) (s : State) : Host.Outcome State Fault Refusal :=
  match (s.fmt g).settling with
  | none => .next s
  | some n => .next (settle (powerReaders g (modFmt g (fun f => { f with readers := n, settling := none }) s)))

/-- READ_OUTCOME (R470): the outcome of a sector goes to the formatter's engine; the layout of the response is not stated. -/
def execReadOutcome (g pos : Nat) (s : State) : Host.Outcome State Fault Refusal :=
  let x := s.findSec g (fun x => decide (x.pos = pos ∧ x.kind = .own))
  let v := match x with
    | some q => [1 + (q.2.2.outcome.getD 15), q.2.2.rung, q.2.2.revs]
    | none => []
  .next (settle (if s.hasCurd g then reply (.curd g) 0x0C 2 (openReply 0x0C 2 v) x.isSome s else s))

/-! ## The synthesiser and the preamplifier (R264, R311 to R313, R319, R321) -/

/-- SYNTH_LOCK (R312). -/
def execSynthLock (g : Nat) (s : State) : Host.Outcome State Fault Refusal :=
  if s.hasCurd g then .next (settle (showFmt g (modFmt g (fun f => { f with lock := true }) s))) else .next s

/-- SYNTH_LOCK_LOSS (R313, R319): an open write gate is withdrawn. -/
def execSynthLockLoss (g : Nat) (s : State) : Host.Outcome State Fault Refusal :=
  if s.hasCurd g then .next (settle (showFmt g (withdrawGate g false (modFmt g (fun f => { f with lock := false }) s)))) else .next s

/-- Step 7 of the start is in progress (R91): settings are loaded, training and the spindle not yet begun. -/
def State.atStep7 (s : State) : Bool := decide (s.phase s.senior = 4 ∨ s.phase s.senior = 5) && ! s.spin.begun

/-- PA_FAULT (R226, R319, R321): PA_FLT_N falls: an open write gate is withdrawn, PAFLT is read and kept, and source `j` 0x10 raised. In step 7
of the start the preamplifier is not taken as answering. -/
def execPaFault (g paflt : Nat) (s : State) : Host.Outcome State Fault Refusal :=
  if s.hasCurd g ∧ ! s.inReset then
    let s := withdrawGate g false (modFmt g (fun f => { f with paLow := true, answers := f.answers && ! s.atStep7 }) (s.incC g R.FMT_PASTAT_FAULTS))
    let s := s.emit (.preamp g false ((s.paMap g).addr 8) (paflt % 256))
    .next (settle (showFmt g (curdRaise g 0x10 (paflt % 256) (s.wrC g R.FMT_PASTAT_LASTFLT (paflt % 256)))))
  else .next s

/-- PA_FAULT_PERSIST (R321): PA_FLT_N has been low for 1 ms: the group takes no further writes. -/
def execPaFaultPersist (g : Nat) (s : State) : Host.Outcome State Fault Refusal :=
  if s.hasCurd g ∧ (s.fmt g).paLow then .next (settle (showFmt g (failWrites g (s.wrC g R.FMT_STAT_WINHPA 1)))) else .next s

/-- PA_FLT_N_RISE (R321): PA_FLT_N is high again: 10 ms begin. -/
def execPaFltNRise (g : Nat) (s : State) : Host.Outcome State Fault Refusal :=
  if s.hasCurd g then .next (modFmt g (fun f => { f with paLow := false }) s) else .next s

/-- PA_FAULT_CLEAR (R321): PA_FLT_N has been high for 10 ms: a fresh INIT sequence goes out, and writing resumes. -/
def execPaFaultClear (g : Nat) (s : State) : Host.Outcome State Fault Refusal :=
  if s.hasCurd g ∧ ! (s.fmt g).paLow ∧ s.bitC g R.FMT_STAT_WINHPA then
    .next (settle (showFmt g (powerReaders g ((paInit g s).wrC g R.FMT_STAT_WINHPA 0))))
  else .next s

/-- PREAMP_WRITE_FRAME (R312, R470). -/
def execPreampWriteFrame (g addr val : Nat) (s : State) : Host.Outcome State Fault Refusal :=
  if s.hasCurd g ∧ addr < 128 ∧ val < 256 then .next (settle (reply (.curd g) 0x0D 1 (openReply 0x0D 1 [addr]) true (paWrite g addr val s)))
  else .next s

/-- PREAMP_READ_FRAME (R226, R312, R321, R470): `val` is what the preamplifier answers; a fault status other than 0 in step 7 of the start means
that it does not answer. -/
def execPreampReadFrame (g addr val : Nat) (s : State) : Host.Outcome State Fault Refusal :=
  if s.hasCurd g ∧ addr < 128 ∧ val < 256 then
    .next (settle (reply (.curd g) 0x0D 2 (openReply 0x0D 2 [addr, val]) true (modFmt g (fun f => { f with
      answers := f.answers && ! (s.atStep7 && decide (addr = (s.paMap g).addr 8 ∧ val ≠ 0)) }) (s.emit (.preamp g false addr val)))))
  else .next s

/-! ## SHOCK (R298, R322 to R325) -/

/-- SHOCK_ASSERT (R74, R75, R322, R324, R325): every die's open write gate is withdrawn, and the hold begins; in reset the level alone is sampled. -/
def execShockAssert (s : State) : Host.Outcome State Fault Refusal :=
  let t := { s with pins := { s.pins with shock := true } }
  if s.pins.shock then .next s
  else if s.inReset then .next t
  else .next (settle (onGroups (fun g t => refreshServo g (shockSeen g t)) (wrBoth R.DEV_PINSTAT_SHOCK 1 t)))

/-- SHOCK_RELEASE (R323, R325): HOLDUS begins, and the time of a stuck SHOCK ends. -/
def execShockRelease (s : State) : Host.Outcome State Fault Refusal :=
  .next (onGroups (fun g t => modFmt g (fun f => { f with shockSince := none }) t) (wrBoth R.DEV_PINSTAT_SHOCK 0 { s with pins := { s.pins with shock := false } }))

/-- SHOCK_HOLD_EXPIRE (R323): SHOCK has been inactive for HOLDUS. -/
def execShockHoldExpire (g : Nat) (s : State) : Host.Outcome State Fault Refusal :=
  if s.hasCurd g ∧ ! s.pins.shock then .next (settle (showFmt g (s.wrC g R.FMT_STAT_WINHSHK 0))) else .next s

/-- SHOCK_STUCK (R325): the level has been held for more than 1 s: source `j` 0x11. -/
def execShockStuck (g : Nat) (s : State) : Host.Outcome State Fault Refusal :=
  if s.hasCurd g ∧ s.pins.shock ∧ (s.fmt g).shockSince.isSome then .next (settle (curdRaise g 0x11 0 s)) else .next s

/-! ## Orders to a Curd die (R352, R522, R532, R551) -/

/-- END_RUNS (R504, R551): CTLOP 0x53 ends every run of an ESEQ: what is not written or delivered is reported refused. -/
def execEndRuns (g : Nat) (src : RSlot) (m : Msg) (s : State) : Host.Outcome State Fault Refusal :=
  if s.hasCurd g ∧ m.cls = 3 ∧ m.w 0 / 2 ^ 24 = 0x53 then
    let r := firstCopy g src m s
    if ! r.1 then .next (settle r.2)
    else
      let s := takeMsg (.curd g src) m r.2
      let e := m.w 1
      let mine : Bool := match (s.fmt g).gate.bind (fun o => s.gateSec g o) with
        | some q => decide (q.1 = e)
        | none => false
      let s := modFmt g (fun f => { f with
        gate := if mine then none else f.gate
        runs := f.runs ++ f.queue.filter (fun q => q.eseq = e), queue := f.queue.filter (fun q => q.eseq ≠ e) }) s
      .next (settle (refreshServo g (showFmt g (refuseRun g e (fun _ => true) s))))
  else .next s

/-- GROUP_ORDER (R314, R351, R504, R532): CTLOP 0x52: readers, ACTIVE and SEEKPCT. -/
def execGroupOrder (g : Nat) (src : RSlot) (m : Msg) (s : State) : Host.Outcome State Fault Refusal :=
  if s.hasCurd g ∧ m.cls = 3 ∧ m.w 0 / 2 ^ 24 = 0x52 then
    let r := firstCopy g src m s
    .next (settle (if r.1 then applyOrder g (m.w 0) (takeMsg (.curd g src) m r.2) else r.2))
  else .next s

/-- RETRACT_ORDER (R352, R358): whichever copy comes first. -/
def execRetractOrder (g : Nat) (s : State) : Host.Outcome State Fault Refusal :=
  if s.hasCurd g then .next (settle (emergencyRetract g s)) else .next s

/-- CURD_DIE_REPORT_TIMER (R522): the die report: readers powered, load state, temperature; before the island's first sample the temperature is
a free value. -/
def execCurdDieReportTimer (g : Nat) (s : State) : Host.Outcome State Fault Refusal :=
  if ! s.hasCurd g then .next s
  else
    let f := s.fmt g
    let r : Nat × State := match s.budget.diodes.find? (fun p => p.1 = curdCode g) with
      | some p => (unsgn 16 p.2, s)
      | none => (s.fresh.1 % 2 ^ 16, s.fresh.2)
    let w := 6 * 2 ^ 28 + max f.readers (f.settling.getD 0) * 2 ^ 26 + bit (s.svLoaded g) * 2 ^ 25 + r.1
    .next (settle (fromCurd g 2 0 [BitVec.ofNat 32 w, 0] r.2))

/-! ## Reports at the Rind dies (R303, R505, R544) -/

/-- The sector command of a run that the Rind dies wait for. -/
def State.runWords (s : State) (g eseq : Nat) : List Word := ((s.runs.find? (fun r => r.1 = g ∧ r.2.1 = eseq)).map (fun r => r.2.2)).getD []

/-- The place a report names: its surface comes with the run's command. -/
def State.reportPlace (s : State) (g eseq w0 w1 : Nat) : Place := ⟨4 * g + ((s.runWords g eseq).getD 0 0).toNat / 2 ^ 26 % 4, w1, w0 % 1024⟩

/-- Admitted commands that read a block of a volume and have its media work out, with the block's index. -/
def State.readers (s : State) (v blk : Nat) : List (Cmd × Nat) :=
  (s.cmds.filter (fun c => c.phase = .admitted && c.reads && c.covers v blk && decide (blk - c.slba ∈ c.taken))).map (fun c => (c, blk - c.slba))

/-- The contents that a sector's DATA brought (R25, R271): the first 4,112 bytes of its payload. -/
def State.payload (s : State) (g e : Nat) : List Byte :=
  (((((s.rind s.senior).data.find? (fun x => x.1 = g ∧ x.2.1 = e)).map (fun x => x.2.2.flatten)).getD []).flatMap wordBytes).take 4112

/-- A read has come good at a rung, or was rebuilt (R176, R183, R238, R303): its contents are in hand for the commands that read the block, and the
band is weak where the rung says so. -/
def readGood (sl : SlotNo) (v blk : Nat) (weak : Bool) (data : List Byte) (s : State) : State :=
  let s := if weak then applyChange (.weak sl.head sl.zone sl.k) s else s
  refreshCopies ((s.readers v blk).foldl (fun t r =>
    if r.1.op = 7 ∨ ! data.isEmpty then modCmd r.1.uid (fun c => { c with
      moved := if c.op = 7 then (4096 * r.2, 4096) :: c.moved else c.moved, got := (r.2, data) :: c.got.filter (fun p => p.1 ≠ r.2) }) t else t) s)

/-- A block has been written (R210, R237, R252, R257, R259). -/
def writeGood (sl : SlotNo) (o v blk : Nat) (s : State) : State := retire (markReloc sl o (countWrite sl o (noteWritten v blk s)))

/-- A command ends with WRITE_FAULT (R187): INFO is its first block not written, by index. -/
def noteWriteFault (blk uid : Nat) (s : State) : State :=
  match s.cmds.find? (fun c => c.uid = uid) with
  | none => s
  | some c =>
    let i := blk - (if c.op = 7 then c.fld 0x18 8 else c.slba)
    match c.fail with
    | none => failCmd uid St.writeFault i s
    | some (st, j) => if st = St.writeFault ∧ i < j then modCmd uid (fun c => { c with fail := some (st, i) }) s else s

/-- A write has failed (R237, R239): the index is reassigned, or the band cleaned by force, and the block handed out again; where neither is
possible, the commands whose versions wait there end with WRITE_FAULT. -/
def writeFailed (sl : SlotNo) (o v blk : Nat) (s : State) : State :=
  let r : Bool × State := reassign sl o s
  let out : List Nat := (r.2.versions.filter (fun (x : Version) => decide (x.vol = v ∧ x.blk = blk) && x.taken && ! x.media)).map Version.uid
  if r.1 then
    { r.2 with versions := r.2.versions.map (fun (x : Version) =>
        if decide (x.vol = v ∧ x.blk = blk) && ! x.media then { x with taken := false } else x) }
  else out.foldl (fun t u => noteWriteFault blk u t) { r.2 with versions := r.2.versions.map (fun (x : Version) =>
      if decide (x.vol = v ∧ x.blk = blk) && x.taken && ! x.media then { x with failed := true } else x) }

/-- A sector refused (R303, R353): its work is handed out again. -/
def workAgain (v blk : Nat) (s : State) : State :=
  let s : State := { s with versions := s.versions.map (fun (x : Version) => if decide (x.vol = v ∧ x.blk = blk) && ! x.media then { x with taken := false } else x) }
  (s.readers v blk).foldl (fun t r => modCmd r.1.uid (fun c => { c with taken := c.taken.erase r.2 }) t) s

/-- What a sector's outcome does at the Rind dies, in step (R176, R237, R238, R259, R303). -/
def sectorOutcome (g eseq w0 w1 : Nat) (s : State) : State :=
  let outcome := w0 / 2 ^ 24 % 16
  let rung := w0 / 2 ^ 20 % 16
  match s.blockAt (s.reportPlace g eseq w0 w1) with
  | none => s
  | some (sl, o) =>
    if w0.testBit 15 then applyChange (.weak sl.head sl.zone sl.k) s
    else
      let s := if outcome = 3 then notePass sl o s else s
      match s.xlat.t.bandAt sl with
      | none => s
      | some b =>
        if ! b.mapped then s
        else
          let blk := 65536 * b.vband + o
          match outcome with
          | 0 => readGood sl b.vol blk (decide (s.rdS R.XLAT_CLEANCFG_WEAKRUNG ≤ rung)) (s.payload g (dataEseq eseq (w0 % 1024 - ((s.runWords g eseq).getD 0 0).toNat % 1024))) s
          | 1 => readGood sl b.vol blk true (s.payload g (dataEseq eseq (w0 % 1024 - ((s.runWords g eseq).getD 0 0).toNat % 1024))) s
          | 2 => (s.readers b.vol blk).foldl (fun t r => modCmd r.1.uid (fun c => { c with bad := r.2 :: c.bad.filter (· ≠ r.2) }) t) s
          | 3 => writeGood sl o b.vol blk s
          | 4 => writeFailed sl o b.vol blk s
          | 5 => workAgain b.vol blk s
          | _ => s

/-- RPT_SECTOR_OUTCOME (R303): a sector's outcome reaches the Rind dies; the data held for it has been placed. -/
def execRptSectorOutcome (g : Nat) (eseq w0 w1 : Nat) (s : State) : Host.Outcome State Fault Refusal :=
  if s.hasCurd g ∧ w0 / 2 ^ 28 = 1 then
    let s := takeRpt g (fun m => m.eseq = eseq && decide (m.payload = [BitVec.ofNat 32 w0, BitVec.ofNat 32 w1])) s
    let first := ((s.runWords g eseq).getD 0 0).toNat % 1024
    let e := dataEseq eseq (w0 % 1024 - first)
    let s := sectorOutcome g eseq w0 w1 s
    .next (settle (showSched (s.rinds.foldl (fun t d => t.modRind d (fun r => { r with data := r.data.filter (fun x => ! decide (x.1 = g ∧ x.2.1 = e)) })) s)))
  else .next s

/-- The fill of an open Stream band after a write run (R254): the run wrote the last data position of a track. -/
def fillAfter (g : Nat) (ws : List Word) (s : State) : State :=
  let w (i : Nat) : Nat := (ws.getD i 0).toNat
  let count := w 2 / 2 ^ 21
  if w 0 / 2 ^ 28 ≠ 2 ∨ count = 0 then s
  else
    let h := 4 * g + w 0 / 2 ^ 26 % 4
    let places := (List.range count).filterMap (fun i => s.slotAt ⟨h, w 1, w 0 % 1024 + i⟩)
    match places.getLast? with
    | none => s
    | some (sl, o) =>
      match s.zoneOf sl.head sl.zone, s.xlat.t.bandAt sl with
      | some z, some b => if b.state = .opened ∧ (o + 1) % z.dpt = 0 then applyChange (.fill b.vol b.vband (o + 1)) s else s
      | _, _ => s

/-- RPT_RUN_END (R254, R259, R303): the run is over; a track of an open band that it completed is recorded, and a relocation whose copy is
complete switches. -/
def execRptRunEnd (g : Nat) (eseq : Nat) (s : State) : Host.Outcome State Fault Refusal :=
  if s.hasCurd g then
    let s := takeRpt g (fun m => m.eseq = eseq && decide (m.w 0 / 2 ^ 28 = 2)) s
    let ws := s.runWords g eseq
    let s := fillAfter g ws { s with runs := s.runs.filter (fun r => ! decide (r.1 = g ∧ r.2.1 = eseq)) }
    let s := match s.xlat.relocs.find? (fun r => r.passed && r.marked.isEmpty) with
      | some r => endReloc r s
      | none => s
    .next (settle (sendOrders s))
  else .next s

/-- RPT_SHOCK_EVENT (R303, R325): an input in step, with no effect of its own on the Rind dies. -/
def execRptShockEvent (g : Nat) (ms : Nat) (s : State) : Host.Outcome State Fault Refusal :=
  if s.hasCurd g then .next (settle (takeRpt g (fun m => decide (m.w 0 / 2 ^ 28 = 3 ∧ m.w 1 = ms)) s)) else .next s

/-- RPT_CURD_MISMATCH (R505, R510, R518): a mismatch of copies at a Curd die is a divergence, by the errors flagged since the last confirmed block;
one that names an ESEQ before the last resync is discarded. -/
def execRptCurdMismatch (g : Nat) (cls : Nat) (slot : RSlot) (eseq : Nat) (s : State) : Host.Outcome State Fault Refusal :=
  if s.hasCurd g ∧ s.part.f = 2 then
    let s := takeRpt g (fun m => decide (m.w 0 = 5 * 2 ^ 28 + cls * 2 ^ 24 + slot.code * 2 ^ 23 ∧ m.w 1 = eseq)) s
    if (s.rind s.senior).step.resyncEseq.any (fun n => aheadMod (2 ^ 32) n eseq) then .next (settle s)
    else .next (settle (diverge 4 (divergenceTarget s.f0.island.ownSince s.f1.island.ownSince s) s))
  else .next s

/-- RPT_FAULT (R543, R544): an event of a Curd die reaches the collectors of the serving dies. -/
def execRptFault (g : Nat) (w0 w1 : Word) (s : State) : Host.Outcome State Fault Refusal :=
  if s.hasCurd g ∧ w0.toNat / 2 ^ 28 = 7 then
    let s := takeRpt g (fun m => m.payload = [w0, w1]) s
    .next (settle (inStep (fun d t => raiseFull d (curdCode g) (w0.toNat % 2 ^ 16) [w1.toNat] (fixedSev (w0.toNat % 2 ^ 16)) t) s))
  else .next s

end Sys2Proof.Machine
end

