-- ==== Sys2Proof/Machine/Servo.lean ====
section
/-! DEFINITION. The servo and the Press: the commands (R327 to R359). -/

namespace Sys2Proof.Machine

/-- WEDGE_SAMPLE (R329 to R350). -/
def execWedgeSample (g : Nat) (w : Wedge) (s : State) : Host.Outcome State Fault Refusal :=
  .next (settle (if s.hasCurd g then wedge g w s else s))

/-- INNER_LOOP_INSTANT (R336, R341, R342): one of the four inner instants of a wedge. -/
def execInnerLoopInstant (g j : Nat) (isns : Int) (lat40ns : Nat) (s : State) : Host.Outcome State Fault Refusal :=
  .next (if s.hasCurd g ∧ j < 4 then innerLoop g isns lat40ns s else s)

/-- SERVO_TARGET_REQUEST (R346, R355, R470). -/
def execServoTargetRequest (g surf track : Nat) (s : State) : Host.Outcome State Fault Refusal :=
  if s.hasCurd g ∧ surf < 4 then
    .next (settle (reply (.curd g) 0x0B 1 (openReply 0x0B 1 [surf, track]) true (showFmt g (requestTarget g surf track s))))
  else .next s

/-- SERVO_STATUS_READ (R359, R470): the layout of the response is not stated: a free value of the status, position and PES registers. -/
def execServoStatusRead (g : Nat) (s : State) : Host.Outcome State Fault Refusal :=
  if s.hasCurd g then
    let w (o : Nat) : Nat := (s.word (regKey (curdCode g) o)).toNat
    .next (settle (reply (.curd g) 0x0B 2 (openReply 0x0B 2 [w 0x30000, w 0x30004, w 0x30008]) true s))
  else .next s

/-- The heads of the group are wanted: the start loads them (R91 step 14); a failed load is tried again, and an unload of R347 loads again; else
some command needs the group (R353), at the Curd die or as media work that waits for it. -/
def State.groupWanted (s : State) (g : Nat) : Bool :=
  decide (5 ≤ s.phase s.senior ∧ s.phase s.senior ≤ 7) || (s.servo g).reload || ! (s.fmt g).queue.isEmpty || ! (s.fmt g).runs.isEmpty ||
  ! (s.mediaOps g).isEmpty || s.groupRuns g

/-- LOAD_START (R345, R353): a load starts where a command needs the group and nothing stands against it. -/
def execLoadStart (g : Nat) (s : State) : Host.Outcome State Fault Refusal :=
  if s.hasCurd g ∧ s.canLoad g ∧ s.groupWanted g then .next (settle (startLoad g s)) else .next s

/-- LOAD_TIMEOUT (R345, R354): LOADTO has passed without four consecutive good wedges: the load has failed. -/
def execLoadTimeout (g : Nat) (s : State) : Host.Outcome State Fault Refusal :=
  if s.hasCurd g ∧ s.svState g = svLoading then .next (settle (failLoad g s)) else .next s

/-- LOAD_STABLE (R354): 10 s of loaded operation end a run of failures. -/
def execLoadStable (g : Nat) (s : State) : Host.Outcome State Fault Refusal :=
  if s.hasCurd g ∧ s.svLoaded g then .next (modServo g (fun v => { v with fails := 0 }) s) else .next s

/-- RETRACT_HOLD_EXPIRE (R353): RET_N has been low for RETHOLD: the actuator is parked and may load. -/
def execRetractHoldExpire (g : Nat) (s : State) : Host.Outcome State Fault Refusal :=
  if s.hasCurd g ∧ ! (s.curd g).retN then
    let s := modServo g (fun v => { v with mayLoad := true }) s
    .next (settle (if s.svState g = svRetract then showFmt g (setSv g svParked s) else s))
  else .next s

/-- UNLOAD (R351): a normal unload begins. -/
def execUnload (g : Nat) (s : State) : Host.Outcome State Fault Refusal :=
  .next (settle (if s.hasCurd g then startUnload g s else s))

/-- UNLOAD_COMPLETE (R351): the arm rests on the ramp: a disable frame, and RET_N low. -/
def execUnloadComplete (g : Nat) (s : State) : Host.Outcome State Fault Refusal :=
  if s.hasCurd g ∧ s.svState g = svUnloading then .next (settle (showFmt g (endUnload g s))) else .next s

/-- LINK_ABSENT_UNLOAD (R351): the die has had no Finvik link up for 10 ms. -/
def execLinkAbsentUnload (g : Nat) (s : State) : Host.Outcome State Fault Refusal :=
  if s.hasCurd g ∧ ! s.linkUp (.curd g .f0) ∧ ! s.linkUp (.curd g .f1) then .next (settle (startUnload g s)) else .next s

/-- PRESS_HEARTBEAT_LOSS (R352): no Press heartbeat for 100 µs while RET_N is high: the island retracts. -/
def execPressHeartbeatLoss (g : Nat) (s : State) : Host.Outcome State Fault Refusal :=
  if s.hasCurd g ∧ (s.curd g).retN then .next (settle (emergencyRetract g s)) else .next s

end Sys2Proof.Machine
end

