-- ==== Sys2Proof/Machine/SetupRows.lean ====
section
/-! DEFINITION. Set-up writes that have a row of their own in the command table: each is a set-up write of a word to the register its rule
names (R111, R119), with the value that the row stands for. -/

namespace Sys2Proof.Machine

/-- A set-up write of a word of a Rind die's own space. -/
def rowWrite (d : RSlot) (r : Requester) (addr : Nat) (v : Word) (s : State) : Host.Outcome State Fault Refusal :=
  if s.hasRind d then .next (settle (setupWrite d r addr 4 v s).1) else .next s

/-- PORT_ENABLE (R153): a write of PORT_CFG with EN 1. -/
def execPortEnable (d : RSlot) (r : Requester) (port : Nat) (v : Word) (s : State) : Host.Outcome State Fault Refusal :=
  if port < 256 then rowWrite d r (0x30000 + 0x40 * port) ((R.PORT_CFG_EN 0).put 1 v) s else .next s

/-- PORT_DISABLE (R152): a write of PORT_CFG with EN 0. -/
def execPortDisable (d : RSlot) (r : Requester) (port : Nat) (v : Word) (s : State) : Host.Outcome State Fault Refusal :=
  if port < 256 then rowWrite d r (0x30000 + 0x40 * port) ((R.PORT_CFG_EN 0).put 0 v) s else .next s

/-- STATUS_LINE_ADDRESS_WRITE (R159): a write of PORT_SLLO or PORT_SLHI of a domain. -/
def execStatusLineAddressWrite (d : RSlot) (r : Requester) (dom : Nat) (hi : Bool) (v : Word) (s : State) : Host.Outcome State Fault Refusal :=
  if dom < 16 then rowWrite d r (0x34000 + 16 * dom + 4 * bit hi) v s else .next s

/-- CAVE_ENABLE (R437): a write of CAVE_CTL with EN 1. -/
def execCaveEnable (d : RSlot) (r : Requester) (v : Word) (s : State) : Host.Outcome State Fault Refusal :=
  rowWrite d r 0x78000 (R.CAVE_CTL_EN.put 1 v) s

/-- The word of CAVE_MAINT with GO set, an operation and SPARE_LOCKED (R440, R442). -/
def maintWord (op : Nat) (spare : Bool) : Word := R.CAVE_MAINT_OP.put op (R.CAVE_MAINT_SPARE_LOCKED.put (bit spare) (R.CAVE_MAINT_GO.put 1 0))

/-- CAVE_INV (R440): GO with OP INV. -/
def execCaveInv (d : RSlot) (r : Requester) (spareLocked : Bool) (s : State) : Host.Outcome State Fault Refusal :=
  rowWrite d r 0x78004 (maintWord 1 spareLocked) s

/-- CAVE_CLEAN (R440): GO with OP CLEAN. -/
def execCaveClean (d : RSlot) (r : Requester) (spareLocked : Bool) (s : State) : Host.Outcome State Fault Refusal :=
  rowWrite d r 0x78004 (maintWord 2 spareLocked) s

/-- CAVE_CLEANINV (R440): GO with OP CLEANINV. -/
def execCaveCleaninv (d : RSlot) (r : Requester) (spareLocked : Bool) (s : State) : Host.Outcome State Fault Refusal :=
  rowWrite d r 0x78004 (maintWord 3 spareLocked) s

/-- STEP_TURNNOW (R509): a write of STEP_CTL with TURNNOW. -/
def execStepTurnnow (d : RSlot) (r : Requester) (s : State) : Host.Outcome State Fault Refusal := rowWrite d r 0xB8004 (R.STEP_CTL_TURNNOW.put 1 0) s

/-- STEP_RESYNC (R516): a write of STEP_CTL with RESYNC. -/
def execStepResync (d : RSlot) (r : Requester) (s : State) : Host.Outcome State Fault Refusal := rowWrite d r 0xB8004 (R.STEP_CTL_RESYNC.put 1 0) s

/-- FAULT_UNLATCH (R547): a write of FAULT_CTL with UNLATCH. -/
def execFaultUnlatch (d : RSlot) (r : Requester) (s : State) : Host.Outcome State Fault Refusal := rowWrite d r 0xD0030 (R.FAULT_CTL_UNLATCH.put 1 0) s

/-- FAULT_ABANDON (R555): a write of FAULT_CTL with ABANDON. -/
def execFaultAbandon (d : RSlot) (r : Requester) (s : State) : Host.Outcome State Fault Refusal := rowWrite d r 0xD0030 (R.FAULT_CTL_ABANDON.put 1 0) s

/-- LOG_FREEZE (R561): a write of LOG_CTL with FREEZE 1. -/
def execLogFreeze (d : RSlot) (r : Requester) (s : State) : Host.Outcome State Fault Refusal := rowWrite d r 0xE0004 (R.LOG_CTL_FREEZE.put 1 0) s

/-- LOG_UNFREEZE (R561): a write of LOG_CTL with FREEZE 0. -/
def execLogUnfreeze (d : RSlot) (r : Requester) (s : State) : Host.Outcome State Fault Refusal := rowWrite d r 0xE0004 0 s

/-! ## Fault injection (R568): a write of FAULT_INJ on the expert page -/

/-- FAULT_INJ_ARM (R568): a write with ARM 1. -/
def execFaultInjArm (d : RSlot) (r : Requester) (v : Word) (s : State) : Host.Outcome State Fault Refusal :=
  rowWrite d r 0xD8010 (R.FAULT_INJ_ARM.put 1 v) s

/-- A write with ARM and GO 1 and a MODE. -/
def injWord (mode : Nat) (v : Word) : Word := R.FAULT_INJ_ARM.put 1 (R.FAULT_INJ_GO.put 1 (R.FAULT_INJ_MODE.put mode v))

/-- FAULT_INJ_RAISE (R568): GO with MODE 0x1. -/
def execFaultInjRaise (d : RSlot) (r : Requester) (v : Word) (s : State) : Host.Outcome State Fault Refusal := rowWrite d r 0xD8010 (injWord 1 v) s

/-- FAULT_INJ_CAVE_PARITY (R568): GO with MODE 0x2. -/
def execFaultInjCaveParity (d : RSlot) (r : Requester) (v : Word) (s : State) : Host.Outcome State Fault Refusal := rowWrite d r 0xD8010 (injWord 2 v) s

/-- FAULT_INJ_WITHHOLD_ACK (R568): GO with MODE 0x3. -/
def execFaultInjWithholdAck (d : RSlot) (r : Requester) (v : Word) (s : State) : Host.Outcome State Fault Refusal := rowWrite d r 0xD8010 (injWord 3 v) s

/-- FAULT_INJ_FINVIK_CRC (R568): GO with MODE 0x4. -/
def execFaultInjFinvikCrc (d : RSlot) (r : Requester) (v : Word) (s : State) : Host.Outcome State Fault Refusal := rowWrite d r 0xD8010 (injWord 4 v) s

/-- FAULT_INJ_DRAM_SYMBOL (R568): GO with MODE 0x5. -/
def execFaultInjDramSymbol (d : RSlot) (r : Requester) (v : Word) (s : State) : Host.Outcome State Fault Refusal := rowWrite d r 0xD8010 (injWord 5 v) s

/-! ## Set-up accesses at a Curd die (R118, R340, R390, R575, R576) -/

/-- The message is that of a set-up access: a write of a word, or a read, at an offset of the window (DESIGN CHOICE 36). -/
def isAccess (isWrite : Bool) (off : Nat) (v : Word) (m : Msg) : Bool :=
  if isWrite then decide (m.payload.take 2 = [BitVec.ofNat 32 (0x01000000 + off), v])
  else decide (m.payload.take 1 = [BitVec.ofNat 32 (0x02000000 + off)])

/-- The message of a set-up access, where the Curd die holds it: it is taken. A write is a copy of R504: true where it is the first, or where
none is held. A read comes from one die alone and has no copy. -/
def takeAccess (g : Nat) (d : RSlot) (isWrite : Bool) (p : Msg → Bool) (s : State) : Bool × State :=
  match ((s.fvEnd (.curd g d)).rx.getD 3 {}).held.find? p with
  | some m =>
    let r := if isWrite then firstCopy g d m s else (true, markLive g d s)
    (r.1, if r.1 then takeMsg (.curd g d) m r.2 else r.2)
  | none => (true, markLive g d s)

/-- The requester that the message of a set-up access names; where the die holds none, the sideband of the Rind die it came from. -/
def State.accessCode (s : State) (g : Nat) (d : RSlot) (p : Msg → Bool) : Nat :=
  match ((s.fvEnd (.curd g d)).rx.getD 3 {}).held.find? p with
  | some m => m.w 2
  | none => d.code

/-- UNLOCK of a block of a Curd window (R122, R575): the rennet sequence of one requester, an opening logged on the Rind dies. -/
def curdUnlock (g code off : Nat) (key : Word) (s : State) : State :=
  let b := off / 0x10000
  let mine (a : Nat × Nat × Nat) : Bool := decide (a.1 = code ∧ a.2.1 = b)
  let u := s.modCurd g (fun c => { c with arms := c.arms.filter (fun a => ! mine a) })
  if key = 0xC0A6 then u.modCurd g (fun c => { c with arms := (code, b, s.now) :: c.arms })
  else if key = 0x3F59 ∧ (s.curd g).arms.any mine then
    inStep (fun d t => raise d 0x033 [0x100000 * (g + 1) + off, code] t) (u.modCurd g (fun c => { c with opened := b :: c.opened.filter (· ≠ b) }))
  else u

/-- The thresholds keep the order of R361. -/
def State.vthrOk (s : State) : Bool :=
  let uv := s.rdC 0 R.SPIN_VTHR2_VMOTUV
  let chop := s.rdC 0 R.SPIN_VTHR2_VCHOP
  let b1 := s.rdC 0 R.SPIN_VTHR1_VBRK1
  let b2 := s.rdC 0 R.SPIN_VTHR1_VBRK2
  decide (uv < chop ∧ chop < b1 ∧ b1 < b2 ∧ 1000000 * b2 ≤ 980 * 1800 * s.boot.board.vdiv)

/-- A discarded write to a Curd window, logged at Note on the Rind dies it came from (R118, R120, R576). -/
def curdDiscard (g off : Nat) (s : State) : State := inStep (fun d t => raise d 0x034 [0x100000 * (g + 1) + off] t) s

/-- A write to a register of a Curd die, by the requester with a code. -/
def curdWrite (g code off : Nat) (v : Word) (s : State) : State :=
  if lockReg g off 0x7FF0 then curdUnlock g code off v s
  else if lockReg g off 0x7FF4 then s
  else match curdDef g off with
  | none => curdDiscard g off s
  | some rd =>
    if 0x8000 ≤ off % 0x10000 ∧ off / 0x10000 ∉ (s.curd g).opened then curdDiscard g off s
    else
      let k := regKey (curdCode g) off
      let t := s.setWord k (storeWord s.part s.ilimTop 0 rd (s.word k) v)
      if 0x48400 ≤ off ∧ off < 0x49000 ∧ (off - 0x48400) / 1024 = (s.servo g).bank ∧ s.svState g ≠ svParked ∧ s.svState g ≠ svOffline then
        curdRaise g 0x02 off s
      else if (off = 0x5800C ∨ off = 0x58010) ∧ ! t.vthrOk then curdRaise g 0x02 off s
      else t

/-- The word a read of a Curd die's register finds: the age of the estimate (R390) and the control store window (R492) form as they are
read. -/
def State.curdLive (s : State) (g off : Nat) : Word :=
  let w := s.word (regKey (curdCode g) off)
  if off = 0x5000C then R.SPIN_HDA_AGE.put (if R.SPIN_HDA_VALID.get w = 1 then min 0x3FFF ((s.now - s.spin.hdaAt) / 1000000) else 0) w
  else if 0x224 ≤ off ∧ off < 0x238 then s.curdStoreView g ((off - 0x224) / 4)
  else w

/-- A read of a Curd die's register, by the requester with a code: the word, and the state with counters cleared. -/
def curdRead (g code off : Nat) (s : State) : Word × State :=
  if lockReg g off 0x7FF4 then
    let b := off / 0x10000
    (BitVec.ofNat 32 (2 * bit ((s.curd g).arms.any (fun a => decide (a.1 = code ∧ a.2.1 = b))) + bit (decide (b ∈ (s.curd g).opened))), s)
  else match curdDef g off with
  | none => (0, s)
  | some rd =>
    let k := regKey (curdCode g) off
    (readWord rd (s.curdLive g off), s.setWord k (afterRead rd (s.word k)))

/-- The answer of a read comes back: to the sideband where it waits for it, else to the requester that asked. -/
def returnWord (d : RSlot) (g off : Nat) (w : Word) (s : State) : State :=
  let b := (s.rind d).sb
  let s := if b.waiting = some (false, 0) ∧ curdWindow b.addr = some (g, off) then
      modSb d (fun x => { x with addr := (x.addr + 4) % 2 ^ 32, result := if lockReg g off 0x7FF0 ∨ lockReg g off 0x7FF4 ∨ (curdDef g off).isSome then 0 else 3, data := w.toNat, waiting := none }) s
    else s
  s.emit (.word w)

/-- CURD_SETUP_ACCESS (R118): a set-up access to a Curd window arrives at its die as a CTRL message; a read is answered with a CTRL message
to the die it came from. A duplicate copy of a write is whey (R504). -/
def execCurdSetupAccess (d : RSlot) (g : Nat) (isWrite : Bool) (off : Nat) (v : Word) (s : State) : Host.Outcome State Fault Refusal :=
  if ! s.hasCurd g ∨ ! s.hasRind d ∨ 0x100000 ≤ off ∨ off % 4 ≠ 0 then .next s
  else if isWrite then
    let r := takeAccess g d true (isAccess true off v) s
    .next (settle (if r.1 then curdWrite g (s.accessCode g d (isAccess true off v)) off v r.2 else r.2))
  else
    let r := takeAccess g d false (isAccess false off v) s
    let x := curdRead g (s.accessCode g d (isAccess false off v)) off r.2
    .next (settle (returnWord d g off x.1 (sendMsg (.curd g d) 3 0 [BitVec.ofNat 32 (0x02000000 + off), x.1] x.2)))

end Sys2Proof.Machine
end

