-- ==== Sys2Proof/Machine/Spindle.lean ====
section
/-! DEFINITION. The spindle keeper in C0: the commands (R61, R361 to R390). -/

namespace Sys2Proof.Machine

/-- The keeper may act on the bridge (R374, R383, R388): step 8 has been reached, the island does not hold the outputs, no latch, VMOT not low. -/
def State.spinFree (s : State) : Bool := s.spin.begun && ! s.spin.heldLow && ! s.spin.latched && ! s.bitC 0 R.SPIN_STAT_VMOTLOW

/-- PWM_VALLEY (R363 to R368, R383 to R388). VPH, ISN and VMOT_SNS are not converted in reset (R58). -/
def execPwmValley (v : Valley) (s : State) : Host.Outcome State Fault Refusal :=
  .next (if s.inReset then s else settle (valley v s))

/-- SPEED_LOOP_TICK (R367, R378): a millisecond of the speed loop. -/
def execSpeedLoopTick (s : State) : Host.Outcome State Fault Refusal := .next (settle (if s.spin.begun then speedTick s else s))

/-- SPINDLE_REPORT_TIMER (R389): every 10 ms: the bus power is averaged and the report sent. -/
def execSpindleReportTimer (s : State) : Host.Outcome State Fault Refusal :=
  let p := if s.spin.pwrN = 0 then 0 else s.spin.pwrSum / s.spin.pwrN
  .next (settle (spinReport (modSpin (fun x => { x with pwrSum := 0, pwrN := 0 }) (s.wrC 0 R.SPIN_VMOT_PWR (min 0xFFFF p)))))

/-- SPINDLE_SETPOINT (R374, R378, R504): CTLOP 0x51. -/
def execSpindleSetpoint (src : RSlot) (m : Msg) (s : State) : Host.Outcome State Fault Refusal :=
  if m.cls = 3 ∧ m.w 0 / 2 ^ 24 = 0x51 then
    let r := firstCopy 0 src m s
    .next (settle (if r.1 then applySetpoint m.eseq (m.w 0 % 2 ^ 16) (takeMsg (.curd 0 src) m r.2) else r.2))
  else .next s

/-! ## SPDLIM (R61, R379, R380) -/

/-- SPDLIM_SAMPLE (R61, R379, R380). -/
def execSpdlimSample (level freq : Nat) (s : State) : Host.Outcome State Fault Refusal := .next (settle (spdSample level freq s))

/-- SPDLIM_OPEN (R61, R380): 100 ms outside the valid range: the ceiling is OPENCEIL. -/
def execSpdlimOpen (s : State) : Host.Outcome State Fault Refusal :=
  if ! s.spdValid ∧ ! s.bitC 0 R.SPIN_STAT_SPDOPEN then
    .next (settle (curdRaise 0 0x2C 0 ((s.wrC 0 R.SPIN_STAT_SPDOPEN 1).wrC 0 R.SPIN_CEIL_CEIL s.boot.board.openCeil)))
  else .next s

/-- SPDLIM_VALID_PERSIST (R380): a valid input has persisted for 100 ms: the computed ceiling applies. -/
def execSpdlimValidPersist (s : State) : Host.Outcome State Fault Refusal :=
  if s.spdValid ∧ s.bitC 0 R.SPIN_STAT_SPDOPEN then
    .next (settle ((s.wrC 0 R.SPIN_STAT_SPDOPEN 0).wrC 0 R.SPIN_CEIL_CEIL s.spin.computed))
  else .next s

/-- SPDLIM_CEILING_RAISE (R379): a higher ceiling has been computed for 100 ms. -/
def execSpdlimCeilingRaise (s : State) : Host.Outcome State Fault Refusal :=
  if s.spdValid ∧ ! s.bitC 0 R.SPIN_STAT_SPDOPEN ∧ s.rdC 0 R.SPIN_CEIL_CEIL < s.spin.computed then
    .next (settle (s.wrC 0 R.SPIN_CEIL_CEIL s.spin.computed))
  else .next s

/-! ## Resistance, temperature and cooking (R369 to R373) -/

/-- RESISTANCE_MEASURED (R369, R372, R374): the estimate at rest; below TSTART, or without one, cooking begins on the first pair, but not for a
stored target of 0. -/
def execResistanceMeasured (rab rbc rca : Nat) (s : State) : Host.Outcome State Fault Refusal :=
  if s.spState = spMeasuring ∧ s.spinFree then
    let s := restMeasure rab rbc rca s
    if s.warmEnough ∨ (s.spin.stored ∧ s.rdC 0 R.SPIN_TARGET_SETPT = 0) then .next (settle (standstill s))
    else
      let s := modSpin (fun p => { p with cookPwr := s.rdC 0 R.SPIN_COOK_COOKPWR }) s
      .next (settle (setSp spCooking (modSpin (fun p => { p with pair := 0, bridge := true, still := if s.pins.sagPause then 0 else s.cookCurrent rab }) s)))
  else .next s

/-- HDA_REESTIMATE (R371): in steady running, doubled phase resistance against the mean of the calibration; `rphase` in µΩ. -/
def execHdaReestimate (rphase : Nat) (s : State) : Host.Outcome State Fault Refusal :=
  match s.boot.cal with
  | none => .next s
  | some c =>
    let steady := decide (s.spState = spRunning ∧ s.spin.speedRef = 1000 * s.rdC 0 R.SPIN_TARGET_APPLIED) && ! s.bitC 0 R.SPIN_STAT_FW
    .next (if steady then storeEstimate (pairTemp c (2 * rphase) ((c.resab + c.resbc + c.resca) / 3)) (2 * rphase) 1 s else s)

/-- COOK_PAIR_CHANGE (R372): after 10 s the next pair carries the current; `rmeas` is its resistance in µΩ. -/
def execCookPairChange (rmeas : Nat) (s : State) : Host.Outcome State Fault Refusal :=
  if s.spState = spCooking ∧ s.spinFree then
    let s := modSpin (fun p => { p with cookPwr := s.rdC 0 R.SPIN_COOK_COOKPWR }) s
    .next (modSpin (fun p => { p with pair := (p.pair + 1) % 3, still := if s.pins.sagPause then 0 else s.cookCurrent rmeas }) s)
  else .next s

/-- COOK_CHECK (R372): after 30 s the current stops and the resistances are measured: warm enough, the standstill start follows. -/
def execCookCheck (rab rbc rca : Nat) (s : State) : Host.Outcome State Fault Refusal :=
  if s.spState = spCooking ∧ s.spinFree then
    let s := restMeasure rab rbc rca s
    if s.warmEnough then .next (settle (standstill s))
    else .next (modSpin (fun p => { p with still := if s.pins.sagPause then 0 else s.cookCurrent ([rab, rbc, rca].getD p.pair rab) }) s)
  else .next s

/-- COOK_TIMEOUT (R373): cooking time has reached COOKMAX: the start proceeds; with an estimate the fault is raised. -/
def execCookTimeout (s : State) : Host.Outcome State Fault Refusal :=
  if s.spState = spCooking ∧ s.spinFree then
    let s := if s.bitC 0 R.SPIN_HDA_VALID then curdRaise 0 0x2A (s.rdC 0 R.SPIN_HDA_TEMP) s else s
    .next (settle (standstill s))
  else .next s

/-! ## Leaving rest (R374 to R377, R385) -/

/-- START_DECISION (R374): a decision that is due begins: the outputs float for 2 ms. -/
def execStartDecision (s : State) : Host.Outcome State Fault Refusal :=
  if s.spin.due ∧ s.spinFree then
    .next (settle (setSp spFloating (modSpin (fun p => { p with due := false, floats := 0, attempts := 0, bridge := false, brk := false, still := 0 }) s)))
  else .next s

/-- CHOPPER_TEST (R385): at step 8, before the float: what each of three pulses lowered VMOT by, and how far it then was from its value before, in
mV. -/
def execChopperTest (dips rets : List Nat) (s : State) : Host.Outcome State Fault Refusal :=
  if s.spin.due ∧ s.spinFree ∧ s.rdC 0 R.SPIN_VTHR2_VMOTUV ≤ s.rdC 0 R.SPIN_VMOT_VMOT then
    let d := s.boot.board.chopDip
    let pass := decide (dips.length = 3 ∧ rets.length = 3) && dips.all (fun x => decide (d ≤ x)) && rets.all (fun x => decide (x ≤ d))
    let s := s.wrC 0 R.SPIN_STAT_CHOPOK (bit pass)
    .next (settle (if pass then s else curdRaise 0 0x2B 0 s))
  else .next s

/-- FLOAT_END (R374): what the observer saw in the float decides. -/
def execFloatEnd (s : State) : Host.Outcome State Fault Refusal :=
  if s.spState = spFloating ∧ s.spinFree then
    let fast := decide (300 ≤ s.rpm) && ! s.bitC 0 R.SPIN_STAT_DIR
    .next (settle (
      if ! s.aboveFloor s.spin.bemf then atRest s
      else if fast && s.bitC 0 R.SPIN_STAT_LOCK then catchRotor s
      else if fast && decide (s.spin.floats < 4) then modSpin (fun p => { p with floats := p.floats + 1 }) s
      else coast s))
  else .next s

/-- COAST_DONE (R374, R376): the back-EMF has stayed below the floor: a standstill start follows. -/
def execCoastDone (s : State) : Host.Outcome State Fault Refusal :=
  if s.spState = spCoasting ∧ s.spin.belowSince.isSome ∧ ! s.spin.due ∧ s.spinFree then .next (settle (atRest s)) else .next s

/-- Index of the least of a list. -/
def leastIndex : List Nat → Nat
  | [] => 0
  | [_] => 0
  | x :: y :: l => if x ≤ (y :: l).foldl min y then 0 else 1 + leastIndex (y :: l)

/-- POSITION_SENSED (R375): the shortest of the six rises gives the axis, and the open-loop ramp begins. -/
def execPositionSensed (rises : List Nat) (s : State) : Host.Outcome State Fault Refusal :=
  if s.spState = spSensing ∧ s.spinFree ∧ rises.length = 6 then
    .next (settle (setSp spOpenLoop (modSpin (fun p => { p with
      axis := some (leastIndex rises), openRpm := 0, leadRun := 0, bridge := true, still := s.boot.board.istart }) s)))
  else .next s

/-- HANDOVER_TIMEOUT (R376): 0.5 s at 240 rpm without hand-over: the attempt fails, and the third stops the keeper. -/
def execHandoverTimeout (s : State) : Host.Outcome State Fault Refusal :=
  if s.spState = spOpenLoop ∧ 240000 ≤ s.spin.openRpm then
    let n := s.spin.attempts + 1
    let s := (modSpin (fun p => { p with attempts := n, bridge := false, still := 0 }) s).incC 0 R.SPIN_EVT_STARTFAIL
    .next (settle (if 3 ≤ n then curdRaise 0 0x28 n (setSp spFailed s) else coast s))
  else .next s

/-! ## Protection (R383, R388) -/

/-- OVERCURRENT (R383): the outputs are off for the period; the third event within 10 ms turns the bridge off. -/
def execOvercurrent (s : State) : Host.Outcome State Fault Refusal :=
  if s.spin.bridge then
    let l := s.now :: s.spin.ovc.filter (fun t => s.now < t + 10000)
    let s := s.incC 0 R.SPIN_EVT_OVC
    .next (settle (if 3 ≤ l.length then loseBridge (modSpin (fun p => { p with ovc := [] }) s) else modSpin (fun p => { p with ovc := l }) s))
  else .next s

/-- VMOT_UNDERVOLTAGE (R383): VMOT has been below VMOTUV for 1 ms. -/
def execVmotUndervoltage (s : State) : Host.Outcome State Fault Refusal :=
  let s := s.wrC 0 R.SPIN_STAT_VMOTLOW 1
  .next (settle (if s.spin.bridge then loseBridge s else s))

/-- VMOT_RECOVERED (R383): VMOT has been at VMOTUV + 1 V or more for 10 ms: what waits goes on. -/
def execVmotRecovered (s : State) : Host.Outcome State Fault Refusal := .next (settle (s.wrC 0 R.SPIN_STAT_VMOTLOW 0))

/-- SPIN_HEARTBEAT_LOSS (R383): no keeper heartbeat while a gate output is driven: the island holds the outputs low until the next start
decision, which is due. -/
def execSpinHeartbeatLoss (s : State) : Host.Outcome State Fault Refusal :=
  if s.spin.bridge ∨ s.spin.brk then .next (settle (loseBridge s)) else .next s

/-- OVERVOLTAGE_RELEASE (R388): VMOT has been below VBRK1 for 10 ms: the latch opens, and a start decision is due. -/
def execOvervoltageRelease (s : State) : Host.Outcome State Fault Refusal :=
  if s.spin.latched ∧ s.rdC 0 R.SPIN_VMOT_VMOT < s.rdC 0 R.SPIN_VTHR1_VBRK1 then
    .next (settle (loseBridge (modSpin (fun p => { p with latched := false }) s)))
  else .next s

end Sys2Proof.Machine
end

