-- ==== Sys2Proof/Machine/Vat.lean ====
section
/-! DEFINITION. Commands of the Vat: its five requests (R415 to R428). -/

namespace Sys2Proof.Machine

/-- The engine of a die whose Vat request is outstanding with this operation, owner and first field (R470, R471). -/
def State.vatAsker (s : State) (d : RSlot) (op owner arg : Nat) : Option Nat :=
  (List.range 8).find? (fun i => (s.eng (.rind d i)).reqs.any (fun q =>
    decide (q.port = 0x20 ∧ q.op = op ∧ q.b.toNat % 4096 = owner ∧ q.a.toNat = arg)))

/-- The value in the Vat latch: the handle, or of QUEUED the ticket (R420); with a refusal none is stated, so it is a free value. -/
def VatResp.latch (r : VatResp) : Nat := if r.status < 2 then r.value else Config.openNat 12 [r.status]

/-- A response of the Vat (R420): it goes to the engine that asked, and is an output. -/
def vatAnswer (d : RSlot) (asker : Option Nat) (r : VatResp) (s : State) : State :=
  let v := BitVec.ofNat 64 r.latch
  match asker with
  | some i => (deliver (.rind d i) ⟨0x20, v, decide (r.status = 0), false, false, decide (r.status = 1)⟩ s).emit (.response r.status)
  | none => s.emit (.response r.status)

/-- A Vat request on one die, with its response to whoever asked. An engine that names another engine owner than itself is refused (R471). -/
def vatRequest (op owner arg : Nat) (f : RSlot → State → VatResp × State) (d : RSlot) (s : State) : State :=
  let asker := s.vatAsker d op owner arg
  let foreign := decide (0x100 ≤ owner) && asker.any (fun i => decide (owner ≠ 0x100 + i))
  let r := if foreign then refuse d op owner (if op = 1 ∨ op = 5 then 0 else arg) 0x16 (if op = 5 then 0 else op - 1) s else f d s
  vatAnswer d asker r.1 r.2

/-- The engine that asked is noted with the ALLOC that now waits (R420). -/
def noteAsker (d : RSlot) (asker : Option Nat) (r : VatResp) (s : State) : State :=
  if r.status = 1 then
    modVat d (fun v => { v with waits := v.waits.map (fun w => if w.ticket = r.value then { w with eng := asker } else w) }) s
  else s

/-- A waiter has been granted a buffer by a FREE (R420, R422): the engine that asked gets an event of class 5 (R487); its data is a free
value of ticket and handle. -/
def tellGrant (d : RSlot) (before : List VatWait) (s : State) : State :=
  match before.find? (fun w => w ∉ (s.rind d).vat.waits), (s.rind d).vat.granted with
  | some w, (_, h) :: _ =>
    (match (if isEngineOwner w.owner ∧ w.owner < 0x108 then some (w.owner - 0x100) else w.eng) with
     | some i => postEvent (.rind d i) 5 (BitVec.ofNat 64 (Config.openNat 13 [w.ticket, h.toNat])) s
     | none => s)
  | _, _ => s

/-- ALLOC (R419 to R422, R424): a buffer, a place in the queue, or neither; a request in step, done alike on every serving die. -/
def execAlloc (owner size : Nat) (promote wait : Bool) (s : State) : Host.Outcome State Fault Refusal :=
  .next (settle (inStep (vatRequest 1 owner size (fun d t =>
    let asker := t.vatAsker d 1 owner size
    let r := vatAlloc d owner size promote wait t
    (r.1, noteAsker d asker r.1 r.2))) s))

/-- SHARE (R419, R420, R425). -/
def execShare (owner : Nat) (handle : Word) (rename : Bool) (s : State) : Host.Outcome State Fault Refusal :=
  .next (settle (inStep (vatRequest 2 owner handle.toNat (fun d t => vatShare d owner handle.toNat rename t)) s))

/-- RELEASE (R419, R420, R425). -/
def execRelease (owner : Nat) (handle : Word) (s : State) : Host.Outcome State Fault Refusal :=
  .next (settle (inStep (vatRequest 3 owner handle.toNat (fun d t => vatRelease d owner handle.toNat t)) s))

/-- FREE (R419, R420, R422, R425): the buffer goes to a waiter, or to the free list. -/
def execFree (owner : Nat) (handle : Word) (s : State) : Host.Outcome State Fault Refusal :=
  .next (settle (inStep (vatRequest 4 owner handle.toNat (fun d t =>
    let before := (t.rind d).vat.waits
    let r := vatFree d owner handle.toNat t
    (r.1, if r.1.status = 0 ∧ (r.2.rind d).vat.waits.length < before.length then tellGrant d before r.2 else r.2))) s))

/-- CANCEL (R419, R420, R423). -/
def execCancel (owner ticket : Nat) (s : State) : Host.Outcome State Fault Refusal :=
  .next (settle (inStep (vatRequest 5 owner ticket (fun d t => vatCancel d owner ticket t)) s))

end Sys2Proof.Machine
end

