-- ==== Sys2Proof/Machine/Xlat.lean ====
section
/-! DEFINITION. Commands of the translation engine: look-ups, table changes, the journal timer and background cleaning (R246 to R259). -/

namespace Sys2Proof.Machine

/-- XLAT_LOOKUP (R235, R237, R470): the engines that asked get the place of a block, OK clear where it has none; the layout of the latch is not
stated, so it is a free value of the place. -/
def execXlatLookup (eng vol blk : Nat) (s : State) : Host.Outcome State Fault Refusal :=
  let r : List Nat := match s.lookup vol blk with
    | some p => [p.head, p.track, p.pos]
    | none => []
  .next (settle (inStep (fun d t => reply (.rind d eng) 0x0C 1 (openReply 0x0C 1 r) (! r.isEmpty) t) s))

/-- A change waits (R231): it marks a group parity-stale, and the set is full. -/
def State.changeWaits (s : State) (c : TableChange) : Bool :=
  match c with
  | .stale h z k t g => decide (65536 ≤ s.xlat.t.stale.length ∧ (⟨h, z, k⟩, t, g) ∉ s.xlat.t.stale)
  | _ => false

/-- XLAT_APPLY_CHANGE (R231, R248, R249, R252, R254, R259): a change that an engine asks for is applied and journalled; one that waits is not
answered yet. -/
def execXlatApplyChange (c : TableChange) (s : State) : Host.Outcome State Fault Refusal :=
  if s.changeWaits c then .next s
  else .next (settle (inStep (fun d t => answerAny d 0x0C 2 (openReply 0x0C 2 []) true t) (applyChange c s)))

/-- JOURNAL_TIMER (R248, R249): a second after its first record the staged sector is written; a ring 75 % full takes a checkpoint. -/
def execJournalTimer (s : State) : Host.Outcome State Fault Refusal :=
  .next (if 0 < s.xlat.staged then settle (showSched (retire (writeJournal s))) else s)

/-- CLEANING_START (R258): an idle group begins a relocation or a parity restore. -/
def execCleaningStart (g : Nat) (s : State) : Host.Outcome State Fault Refusal :=
  .next (if s.hasCurd g then settle (startCleaning g s) else s)

end Sys2Proof.Machine
end

