-- ==== Sys2Proof/Machine/Dispatch.lean ====
section
/-! DEFINITION. The dispatch: one arm for each command, one direct call of its meaning. -/

namespace Sys2Proof.Machine

def exec (i : Instr) (s : State) : Host.Outcome State Fault Refusal :=
  match i with
  | .powerOnResetRelease vinMv strap => Sys2Proof.Machine.execPowerOnResetRelease vinMv strap s
  | .powerOnResetEntry vinMv => Sys2Proof.Machine.execPowerOnResetEntry vinMv s
  | .resetNFall => Sys2Proof.Machine.execResetNFall s
  | .resetNRise lowUs => Sys2Proof.Machine.execResetNRise lowUs s
  | .vinSample vinMv => Sys2Proof.Machine.execVinSample vinMv s
  | .sagPauseEnd => Sys2Proof.Machine.execSagPauseEnd s
  | .supplyHoldExpire => Sys2Proof.Machine.execSupplyHoldExpire s
  | .supplyRestart => Sys2Proof.Machine.execSupplyRestart s
  | .perstAssert d h => Sys2Proof.Machine.execPerstAssert d h s
  | .perstDeassert d h => Sys2Proof.Machine.execPerstDeassert d h s
  | .shockAssert => Sys2Proof.Machine.execShockAssert s
  | .shockHoldExpire g => Sys2Proof.Machine.execShockHoldExpire g s
  | .shockStuck g => Sys2Proof.Machine.execShockStuck g s
  | .spdlimSample level freq => Sys2Proof.Machine.execSpdlimSample level freq s
  | .spdlimOpen => Sys2Proof.Machine.execSpdlimOpen s
  | .spdlimValidPersist => Sys2Proof.Machine.execSpdlimValidPersist s
  | .spdlimCeilingRaise => Sys2Proof.Machine.execSpdlimCeilingRaise s
  | .testPortActive => Sys2Proof.Machine.execTestPortActive s
  | .timebaseLost d => Sys2Proof.Machine.execTimebaseLost d s
  | .aliveToggle => Sys2Proof.Machine.execAliveToggle s
  | .aliveTakeover => Sys2Proof.Machine.execAliveTakeover s
  | .railMonitorLow g r => Sys2Proof.Machine.execRailMonitorLow g r s
  | .pmbusOperation r on resp => Sys2Proof.Machine.execPmbusOperation r on resp s
  | .pmbusClearFaults r resp => Sys2Proof.Machine.execPmbusClearFaults r resp s
  | .pmbusVoutCommand up resp => Sys2Proof.Machine.execPmbusVoutCommand up resp s
  | .pmbusStatusWord r resp fault => Sys2Proof.Machine.execPmbusStatusWord r resp fault s
  | .pmbusReadVout r resp mv => Sys2Proof.Machine.execPmbusReadVout r resp mv s
  | .pmbusReadIout r resp tenMa => Sys2Proof.Machine.execPmbusReadIout r resp tenMa s
  | .pmbusTakeover => Sys2Proof.Machine.execPmbusTakeover s
  | .sfBusRequest d => Sys2Proof.Machine.execSfBusRequest d s
  | .sfBusGrant => Sys2Proof.Machine.execSfBusGrant s
  | .sbSetAddress at_ pec addr => Sys2Proof.Machine.execSbSetAddress at_ pec addr s
  | .sbReadWord at_ pec => Sys2Proof.Machine.execSbReadWord at_ pec s
  | .sbWriteWord at_ pec v => Sys2Proof.Machine.execSbWriteWord at_ pec v s
  | .sbReadResult at_ pec => Sys2Proof.Machine.execSbReadResult at_ pec s
  | .sbCoreTimeout d => Sys2Proof.Machine.execSbCoreTimeout d s
  | .startHeader d => Sys2Proof.Machine.execStartHeader d s
  | .linkFirstHandshake d n => Sys2Proof.Machine.execLinkFirstHandshake d n s
  | .startLoad d => Sys2Proof.Machine.execStartLoad d s
  | .curdImageLoad g => Sys2Proof.Machine.execCurdImageLoad g s
  | .startSettings d => Sys2Proof.Machine.execStartSettings d s
  | .startDigestExchange f1Here => Sys2Proof.Machine.execStartDigestExchange f1Here s
  | .startMemorySpindle => Sys2Proof.Machine.execStartMemorySpindle s
  | .dramTrainingDone d lanes => Sys2Proof.Machine.execDramTrainingDone d lanes s
  | .dramFillDone d => Sys2Proof.Machine.execDramFillDone d s
  | .headsRelease pins => Sys2Proof.Machine.execHeadsRelease pins s
  | .startReady elapsedMs => Sys2Proof.Machine.execStartReady elapsedMs s
  | .startWatchdogExpire => Sys2Proof.Machine.execStartWatchdogExpire s
  | .thermalWaitEnd => Sys2Proof.Machine.execThermalWaitEnd s
  | .headerWriteDone good => Sys2Proof.Machine.execHeaderWriteDone good s
  | .finvikMessageReceive e m crcOk codeOk => Sys2Proof.Machine.execFinvikMessageReceive e m crcOk codeOk s
  | .lcwCreditAck e w0 w1 => Sys2Proof.Machine.execLcwCreditAck e w0 w1 s
  | .lcwReplayRequest e w0 w1 => Sys2Proof.Machine.execLcwReplayRequest e w0 w1 s
  | .lcwResetReport e w0 w1 => Sys2Proof.Machine.execLcwResetReport e w0 w1 s
  | .lcwPeriodic e => Sys2Proof.Machine.execLcwPeriodic e s
  | .linkDown d n => Sys2Proof.Machine.execLinkDown d n s
  | .stepKeepalive d => Sys2Proof.Machine.execStepKeepalive d s
  | .stepLinkLost => Sys2Proof.Machine.execStepLinkLost s
  | .stallWatchFire stage => Sys2Proof.Machine.execStallWatchFire stage s
  | .headTrained d h p => Sys2Proof.Machine.execHeadTrained d h p s
  | .headDown d h => Sys2Proof.Machine.execHeadDown d h s
  | .cxlMemLoad d r off len => Sys2Proof.Machine.execCxlMemLoad d r off len s
  | .cxlMemStore d r off data => Sys2Proof.Machine.execCxlMemStore d r off data s
  | .globalPersistentFlush d h => Sys2Proof.Machine.execGlobalPersistentFlush d h s
  | .setupWrite d r addr width v => Sys2Proof.Machine.execSetupWrite d r addr width v s
  | .rcRead d r addr width => Sys2Proof.Machine.execRcRead d r addr width s
  | .unlockWrite d r addr key => Sys2Proof.Machine.execUnlockWrite d r addr key s
  | .unlockArmLapse d r addr => Sys2Proof.Machine.execUnlockArmLapse d r addr s
  | .domcfgWrite d r dom v => Sys2Proof.Machine.execDomcfgWrite d r dom v s
  | .portEnable d r port v => Sys2Proof.Machine.execPortEnable d r port v s
  | .portDisable d r port v => Sys2Proof.Machine.execPortDisable d r port v s
  | .statusLineAddressWrite d r dom hi v => Sys2Proof.Machine.execStatusLineAddressWrite d r dom hi v s
  | .caveEnable d r v => Sys2Proof.Machine.execCaveEnable d r v s
  | .caveInv d r spareLocked => Sys2Proof.Machine.execCaveInv d r spareLocked s
  | .caveClean d r spareLocked => Sys2Proof.Machine.execCaveClean d r spareLocked s
  | .caveCleaninv d r spareLocked => Sys2Proof.Machine.execCaveCleaninv d r spareLocked s
  | .caveMaintDone d => Sys2Proof.Machine.execCaveMaintDone d s
  | .stepTurnnow d r => Sys2Proof.Machine.execStepTurnnow d r s
  | .stepResync d r => Sys2Proof.Machine.execStepResync d r s
  | .faultUnlatch d r => Sys2Proof.Machine.execFaultUnlatch d r s
  | .faultAbandon d r => Sys2Proof.Machine.execFaultAbandon d r s
  | .logFreeze d r => Sys2Proof.Machine.execLogFreeze d r s
  | .logUnfreeze d r => Sys2Proof.Machine.execLogUnfreeze d r s
  | .logFreezeLapse => Sys2Proof.Machine.execLogFreezeLapse s
  | .faultInjArm d r v => Sys2Proof.Machine.execFaultInjArm d r v s
  | .faultInjRaise d r v => Sys2Proof.Machine.execFaultInjRaise d r v s
  | .faultInjCaveParity d r v => Sys2Proof.Machine.execFaultInjCaveParity d r v s
  | .faultInjWithholdAck d r v => Sys2Proof.Machine.execFaultInjWithholdAck d r v s
  | .faultInjFinvikCrc d r v => Sys2Proof.Machine.execFaultInjFinvikCrc d r v s
  | .faultInjDramSymbol d r v => Sys2Proof.Machine.execFaultInjDramSymbol d r v s
  | .doorbellSnoop d port => Sys2Proof.Machine.execDoorbellSnoop d port s
  | .doorbellReadComplete d port lo hi => Sys2Proof.Machine.execDoorbellReadComplete d port lo hi s
  | .doorbellPoll d port => Sys2Proof.Machine.execDoorbellPoll d port s
  | .doorbellBackstop d => Sys2Proof.Machine.execDoorbellBackstop d s
  | .doorbellReadTimeout d port => Sys2Proof.Machine.execDoorbellReadTimeout d port s
  | .fetchGrant descs => Sys2Proof.Machine.execFetchGrant descs s
  | .descriptorFetchTimeout d port => Sys2Proof.Machine.execDescriptorFetchTimeout d port s
  | .statusLineUpdate d dom => Sys2Proof.Machine.execStatusLineUpdate d dom s
  | .rewritePass d => Sys2Proof.Machine.execRewritePass d s
  | .read port => Sys2Proof.Machine.execRead port s
  | .write port => Sys2Proof.Machine.execWrite port s
  | .append port => Sys2Proof.Machine.execAppend port s
  | .fence port => Sys2Proof.Machine.execFence port s
  | .flush port => Sys2Proof.Machine.execFlush port s
  | .trim port => Sys2Proof.Machine.execTrim port s
  | .copy port => Sys2Proof.Machine.execCopy port s
  | .winmap port => Sys2Proof.Machine.execWinmap port s
  | .abort port => Sys2Proof.Machine.execAbort port s
  | .invalidOpcode port => Sys2Proof.Machine.execInvalidOpcode port s
  | .identify port => Sys2Proof.Machine.execIdentify port s
  | .getLog port => Sys2Proof.Machine.execGetLog port s
  | .getFeatures port => Sys2Proof.Machine.execGetFeatures port s
  | .setFeaturesPowercap port => Sys2Proof.Machine.execSetFeaturesPowercap port s
  | .setFeaturesThermal port => Sys2Proof.Machine.execSetFeaturesThermal port s
  | .setFeaturesTurning port => Sys2Proof.Machine.execSetFeaturesTurning port s
  | .setFeaturesWindow port => Sys2Proof.Machine.execSetFeaturesWindow port s
  | .setFeaturesRide port => Sys2Proof.Machine.execSetFeaturesRide port s
  | .setFeaturesFaultsev port => Sys2Proof.Machine.execSetFeaturesFaultsev port s
  | .setFeaturesFaultclr port => Sys2Proof.Machine.execSetFeaturesFaultclr port s
  | .volumeCreate port => Sys2Proof.Machine.execVolumeCreate port s
  | .volumeChange port => Sys2Proof.Machine.execVolumeChange port s
  | .volumeDelete port => Sys2Proof.Machine.execVolumeDelete port s
  | .settingsSaveDone good => Sys2Proof.Machine.execSettingsSaveDone good s
  | .fwDownload port content => Sys2Proof.Machine.execFwDownload port content s
  | .fwChunkProgrammed good => Sys2Proof.Machine.execFwChunkProgrammed good s
  | .fwSessionTimeout => Sys2Proof.Machine.execFwSessionTimeout s
  | .fwActivate port => Sys2Proof.Machine.execFwActivate port s
  | .commandTimeout port tag unit => Sys2Proof.Machine.execCommandTimeout port tag unit s
  | .journalTimer => Sys2Proof.Machine.execJournalTimer s
  | .cleaningStart g => Sys2Proof.Machine.execCleaningStart g s
  | .sectorRead g src m => Sys2Proof.Machine.execSectorRead g src m s
  | .sectorWrite g src m => Sys2Proof.Machine.execSectorWrite g src m s
  | .sectorVerify g src m => Sys2Proof.Machine.execSectorVerify g src m s
  | .sectorOldread g src m => Sys2Proof.Machine.execSectorOldread g src m s
  | .sectorParity g src m => Sys2Proof.Machine.execSectorParity g src m s
  | .dataMessage e m => Sys2Proof.Machine.execDataMessage e m s
  | .runStart g => Sys2Proof.Machine.execRunStart g s
  | .gatePost g ev late => Sys2Proof.Machine.execGatePost g ev late s
  | .gateEvent g cap => Sys2Proof.Machine.execGateEvent g cap s
  | .sectorDecode g surf pos => Sys2Proof.Machine.execSectorDecode g surf pos s
  | .vaultRung g pos => Sys2Proof.Machine.execVaultRung g pos s
  | .rebuild g pos => Sys2Proof.Machine.execRebuild g pos s
  | .readerSettled g => Sys2Proof.Machine.execReaderSettled g s
  | .rptSectorOutcome g eseq w0 w1 => Sys2Proof.Machine.execRptSectorOutcome g eseq w0 w1 s
  | .rptRunEnd g eseq => Sys2Proof.Machine.execRptRunEnd g eseq s
  | .rptShockEvent g ms => Sys2Proof.Machine.execRptShockEvent g ms s
  | .rptSpindle w0 w1 w2 w3 => Sys2Proof.Machine.execRptSpindle w0 w1 w2 w3 s
  | .rptCurdMismatch g cls slot eseq => Sys2Proof.Machine.execRptCurdMismatch g cls slot eseq s
  | .rptDieReport g w0 => Sys2Proof.Machine.execRptDieReport g w0 s
  | .rptFault g w0 w1 => Sys2Proof.Machine.execRptFault g w0 w1 s
  | .curdDieReportTimer g => Sys2Proof.Machine.execCurdDieReportTimer g s
  | .spindleReportTimer => Sys2Proof.Machine.execSpindleReportTimer s
  | .spindleSetpoint src m => Sys2Proof.Machine.execSpindleSetpoint src m s
  | .groupOrder g src m => Sys2Proof.Machine.execGroupOrder g src m s
  | .endRuns g src m => Sys2Proof.Machine.execEndRuns g src m s
  | .retractOrder g => Sys2Proof.Machine.execRetractOrder g s
  | .curdSetupAccess d g isWrite off v => Sys2Proof.Machine.execCurdSetupAccess d g isWrite off v s
  | .lease g src w0 epoch => Sys2Proof.Machine.execLease g src w0 epoch s
  | .leaseConfirm g sender epoch => Sys2Proof.Machine.execLeaseConfirm g sender epoch s
  | .leaseClaim g sender epoch => Sys2Proof.Machine.execLeaseClaim g sender epoch s
  | .leaseKeepalive d => Sys2Proof.Machine.execLeaseKeepalive d s
  | .leaseAnswer d g w0 epoch => Sys2Proof.Machine.execLeaseAnswer d g w0 epoch s
  | .curdLinkSilent g d => Sys2Proof.Machine.execCurdLinkSilent g d s
  | .synthLock g => Sys2Proof.Machine.execSynthLock g s
  | .synthLockLoss g => Sys2Proof.Machine.execSynthLockLoss g s
  | .paFault g paflt => Sys2Proof.Machine.execPaFault g paflt s
  | .paFaultPersist g => Sys2Proof.Machine.execPaFaultPersist g s
  | .paFaultClear g => Sys2Proof.Machine.execPaFaultClear g s
  | .preampWriteFrame g addr val => Sys2Proof.Machine.execPreampWriteFrame g addr val s
  | .preampReadFrame g addr val => Sys2Proof.Machine.execPreampReadFrame g addr val s
  | .wedgeSample g w => Sys2Proof.Machine.execWedgeSample g w s
  | .innerLoopInstant g j isns lat40ns => Sys2Proof.Machine.execInnerLoopInstant g j isns lat40ns s
  | .servoTargetRequest g surf track => Sys2Proof.Machine.execServoTargetRequest g surf track s
  | .servoStatusRead g => Sys2Proof.Machine.execServoStatusRead g s
  | .loadStart g => Sys2Proof.Machine.execLoadStart g s
  | .loadTimeout g => Sys2Proof.Machine.execLoadTimeout g s
  | .loadStable g => Sys2Proof.Machine.execLoadStable g s
  | .retractHoldExpire g => Sys2Proof.Machine.execRetractHoldExpire g s
  | .unload g => Sys2Proof.Machine.execUnload g s
  | .unloadComplete g => Sys2Proof.Machine.execUnloadComplete g s
  | .linkAbsentUnload g => Sys2Proof.Machine.execLinkAbsentUnload g s
  | .pressHeartbeatLoss g => Sys2Proof.Machine.execPressHeartbeatLoss g s
  | .pwmValley v => Sys2Proof.Machine.execPwmValley v s
  | .overvoltageRelease => Sys2Proof.Machine.execOvervoltageRelease s
  | .speedLoopTick => Sys2Proof.Machine.execSpeedLoopTick s
  | .resistanceMeasured rab rbc rca => Sys2Proof.Machine.execResistanceMeasured rab rbc rca s
  | .hdaReestimate rphase => Sys2Proof.Machine.execHdaReestimate rphase s
  | .cookPairChange rmeas => Sys2Proof.Machine.execCookPairChange rmeas s
  | .cookCheck rab rbc rca => Sys2Proof.Machine.execCookCheck rab rbc rca s
  | .cookTimeout => Sys2Proof.Machine.execCookTimeout s
  | .startDecision => Sys2Proof.Machine.execStartDecision s
  | .chopperTest dips rets => Sys2Proof.Machine.execChopperTest dips rets s
  | .floatEnd => Sys2Proof.Machine.execFloatEnd s
  | .coastDone => Sys2Proof.Machine.execCoastDone s
  | .positionSensed rises => Sys2Proof.Machine.execPositionSensed rises s
  | .handoverTimeout => Sys2Proof.Machine.execHandoverTimeout s
  | .overcurrent => Sys2Proof.Machine.execOvercurrent s
  | .vmotUndervoltage => Sys2Proof.Machine.execVmotUndervoltage s
  | .vmotRecovered => Sys2Proof.Machine.execVmotRecovered s
  | .spinHeartbeatLoss => Sys2Proof.Machine.execSpinHeartbeatLoss s
  | .bmemReadComplete d cw syms => Sys2Proof.Machine.execBmemReadComplete d cw syms s
  | .markWindowExpire d c => Sys2Proof.Machine.execMarkWindowExpire d c s
  | .mergeAgeExpire d cw => Sys2Proof.Machine.execMergeAgeExpire d cw s
  | .refreshDue d c set => Sys2Proof.Machine.execRefreshDue d c set s
  | .refreshRatePoll d c hot => Sys2Proof.Machine.execRefreshRatePoll d c hot s
  | .dramAlert d c => Sys2Proof.Machine.execDramAlert d c s
  | .pageIdle d c bank => Sys2Proof.Machine.execPageIdle d c bank s
  | .alloc owner size promote wait => Sys2Proof.Machine.execAlloc owner size promote wait s
  | .share owner handle rename => Sys2Proof.Machine.execShare owner handle rename s
  | .release owner handle => Sys2Proof.Machine.execRelease owner handle s
  | .free owner handle => Sys2Proof.Machine.execFree owner handle s
  | .cancel owner ticket => Sys2Proof.Machine.execCancel owner ticket s
  | .caveRead d who addr noalloc => Sys2Proof.Machine.execCaveRead d who addr noalloc s
  | .caveWrite d who addr data => Sys2Proof.Machine.execCaveWrite d who addr data s
  | .caveFillComplete d line => Sys2Proof.Machine.execCaveFillComplete d line s
  | .evictionDrain d => Sys2Proof.Machine.execEvictionDrain d s
  | .ladleShadowWrite d eng ch pair v => Sys2Proof.Machine.execLadleShadowWrite d eng ch pair v s
  | .ladleArm d eng ch => Sys2Proof.Machine.execLadleArm d eng ch s
  | .ladleReadState d eng ch => Sys2Proof.Machine.execLadleReadState d eng ch s
  | .sglEntryFetch d ch block => Sys2Proof.Machine.execSglEntryFetch d ch block s
  | .ladleReadData d ch data => Sys2Proof.Machine.execLadleReadData d ch data s
  | .ladleDescriptorEnd d ch => Sys2Proof.Machine.execLadleDescriptorEnd d ch s
  | .ladleBusError d ch => Sys2Proof.Machine.execLadleBusError d ch s
  | .isolationPass d skip => Sys2Proof.Machine.execIsolationPass d skip s
  | .next e => Sys2Proof.Machine.execNext e s
  | .jump e => Sys2Proof.Machine.execJump e s
  | .branch e => Sys2Proof.Machine.execBranch e s
  | .call e => Sys2Proof.Machine.execCall e s
  | .callc e => Sys2Proof.Machine.execCallc e s
  | .returnOp e => Sys2Proof.Machine.execReturnOp e s
  | .loop e => Sys2Proof.Machine.execLoop e s
  | .dispatch e => Sys2Proof.Machine.execDispatch e s
  | .waitOp e => Sys2Proof.Machine.execWaitOp e s
  | .endOp e => Sys2Proof.Machine.execEndOp e s
  | .eventPost e cls data => Sys2Proof.Machine.execEventPost e cls data s
  | .responseArrival e p v ok drained poisoned queued => Sys2Proof.Machine.execResponseArrival e p v ok drained poisoned queued s
  | .engineTimerExpire e => Sys2Proof.Machine.execEngineTimerExpire e s
  | .routineTimeout e => Sys2Proof.Machine.execRoutineTimeout e s
  | .memLoad e addr => Sys2Proof.Machine.execMemLoad e addr s
  | .memStore e addr v => Sys2Proof.Machine.execMemStore e addr v s
  | .mailboxPost d target v => Sys2Proof.Machine.execMailboxPost d target v s
  | .finvikOpen e v => Sys2Proof.Machine.execFinvikOpen e v s
  | .finvikAppend e v => Sys2Proof.Machine.execFinvikAppend e v s
  | .finvikClose e => Sys2Proof.Machine.execFinvikClose e s
  | .readCommandRecord d eng port tag => Sys2Proof.Machine.execReadCommandRecord d eng port tag s
  | .generateCompletion port tag => Sys2Proof.Machine.execGenerateCompletion port tag s
  | .takeMediaOperation g times => Sys2Proof.Machine.execTakeMediaOperation g times s
  | .releaseHazard port tag => Sys2Proof.Machine.execReleaseHazard port tag s
  | .xlatLookup eng vol blk => Sys2Proof.Machine.execXlatLookup eng vol blk s
  | .xlatApplyChange c => Sys2Proof.Machine.execXlatApplyChange c s
  | .caveMaintStart d op spareLocked => Sys2Proof.Machine.execCaveMaintStart d op spareLocked s
  | .stepStateRead d eng => Sys2Proof.Machine.execStepStateRead d eng s
  | .budgetRead d eng => Sys2Proof.Machine.execBudgetRead d eng s
  | .vaultRungStart g idx rung => Sys2Proof.Machine.execVaultRungStart g idx rung s
  | .readOutcome g pos => Sys2Proof.Machine.execReadOutcome g pos s
  | .stepMessage d m => Sys2Proof.Machine.execStepMessage d m s
  | .stepProcess d => Sys2Proof.Machine.execStepProcess d s
  | .fwdMessage d lseq c => Sys2Proof.Machine.execFwdMessage d lseq c s
  | .contentRequest k => Sys2Proof.Machine.execContentRequest k s
  | .digestBlockClose => Sys2Proof.Machine.execDigestBlockClose s
  | .digestMessage d block digest flags => Sys2Proof.Machine.execDigestMessage d block digest flags s
  | .digestOverdue d block => Sys2Proof.Machine.execDigestOverdue d block s
  | .turning => Sys2Proof.Machine.execTurning s
  | .claimRetry d => Sys2Proof.Machine.execClaimRetry d s
  | .splitDeadline d => Sys2Proof.Machine.execSplitDeadline d s
  | .splitReinit => Sys2Proof.Machine.execSplitReinit s
  | .copyMessage d addr data poison => Sys2Proof.Machine.execCopyMessage d addr data poison s
  | .resyncCopyDone => Sys2Proof.Machine.execResyncCopyDone s
  | .resyncStateCopy => Sys2Proof.Machine.execResyncStateCopy s
  | .budgetCycle => Sys2Proof.Machine.execBudgetCycle s
  | .budgetInputWrite d => Sys2Proof.Machine.execBudgetInputWrite d s
  | .diodeSample die deciC => Sys2Proof.Machine.execDiodeSample die deciC s
  | .curdReportMissing g => Sys2Proof.Machine.execCurdReportMissing g s
  | .graceExpire => Sys2Proof.Machine.execGraceExpire s
  | .throttleDepthTick => Sys2Proof.Machine.execThrottleDepthTick s
  | .activeGroupRechoose => Sys2Proof.Machine.execActiveGroupRechoose s
  | .spindleRaiseWait => Sys2Proof.Machine.execSpindleRaiseWait s
  | .raiseHoldExpire => Sys2Proof.Machine.execRaiseHoldExpire s
  | .faultRaise d src detail => Sys2Proof.Machine.execFaultRaise d src detail s
  | .countWindowExpire d src quiet => Sys2Proof.Machine.execCountWindowExpire d src quiet s
  | .quietExpire => Sys2Proof.Machine.execQuietExpire s
  | .writeOutTimeout => Sys2Proof.Machine.execWriteOutTimeout s
  | .closeoutTimeout => Sys2Proof.Machine.execCloseoutTimeout s
  | .logRecordProgrammed good => Sys2Proof.Machine.execLogRecordProgrammed good s
  | .logSectorErased => Sys2Proof.Machine.execLogSectorErased s
  | .logScanDone d => Sys2Proof.Machine.execLogScanDone d s
  | .logWriterTakeover => Sys2Proof.Machine.execLogWriterTakeover s
  | .operatingMark d => Sys2Proof.Machine.execOperatingMark d s
  | .tallySnapshot d => Sys2Proof.Machine.execTallySnapshot d s
  | .tallyCheck d => Sys2Proof.Machine.execTallyCheck d s
  | .shockRelease => Sys2Proof.Machine.execShockRelease s
  | .paFltNRise g => Sys2Proof.Machine.execPaFltNRise g s
  | .railRecovered g => Sys2Proof.Machine.execRailRecovered g s

end Sys2Proof.Machine
end

