-- ==== Sys2Proof/Machine/Pinout.lean ====
section
/-! DEFINITION. The output pins between commands, as the state determines them (R48, R54 to R59, R70, R90). -/

namespace Sys2Proof.Machine

/-- What an output shows. -/
inductive Level where
  /-- Not driven: high impedance, or released. -/
  | released
  | low
  | high
  /-- Electrical idle, or both legs at common mode. -/
  | idle
  /-- Traffic, a clock or an analogue value. -/
  | active
  deriving DecidableEq, Repr

/-- A driven digital level. -/
def Level.of (b : Bool) : Level := if b then .high else .low

/-- The transmitters of a head: unpowered with VIN, idle in reset and while the head is idle or held in PERST#. -/
def State.pinHostTx (s : State) (d : RSlot) (h : Nat) : Level :=
  if ! s.pins.por then .released
  else if s.inReset ∨ ! s.boot.released ∨ s.rdR d (R.LINK_HEADSTAT_STATE h) = 0 ∨ s.rdR d (R.LINK_HEADSTAT_STATE h) = 3 then .idle else .active

/-- RESET_N of the DRAM devices: low until READ_VOUT confirms VDDQ (R393). -/
def State.pinDramResetN (s : State) : Level :=
  if ! s.pins.por then .released else Level.of (! s.inReset && s.pins.regEn && decide (Rail.vddq ∈ s.pmb.confirmed))

/-- SF_CS_N: driven high, low during a flash operation, released in NOIMAGE and FAILED. -/
def State.pinSfCsN (s : State) : Level :=
  if ! s.pins.por ∨ (! s.inReset ∧ ! s.pins.sfDriven) then .released else Level.of (s.inReset || (s.pins.sfCsN && s.flash.op.isNone))

/-- SF_CLK: low, running during a flash operation, released in NOIMAGE and FAILED. -/
def State.pinSfClk (s : State) : Level :=
  if ! s.pins.por ∨ (! s.inReset ∧ ! s.pins.sfDriven) then .released else if s.inReset ∨ s.flash.op.isNone then .low else .active

/-- SF_IO: high impedance outside a flash operation. -/
def State.pinSfIo (s : State) : Level := if s.inReset ∨ ! s.pins.sfDriven ∨ s.flash.op.isNone then .released else .active

/-- REG_EN, open drain: low, or released to its pull-up. -/
def State.pinRegEn (s : State) : Level := if ! s.pins.por then .released else if s.inReset ∨ ! s.pins.regEn then .low else .released

/-- ALIVE. -/
def State.pinAlive (s : State) : Level := if ! s.pins.por then .released else Level.of (! s.inReset && s.pins.alive)

/-- The boundary-scan chain of the test access port (R66): F0, the populated Curd dies in order, F1. -/
def State.scanChain (s : State) : List Die :=
  .rind .f0 :: ((List.range 6).filter s.hasCurd).map Die.curd ++ (if s.hasRind .f1 then [.rind .f1] else [])

/-- Bits between TDI and TDO while instructions are shifted (R66): an instruction register of 8 bits in each die. -/
def State.scanLength (s : State) : Nat := 8 * s.scanChain.length

/-- TDO: the test access port is not in use in operation (R66). -/
def State.pinTdo (_ : State) : Level := .released

/-- SMB and PMBus lines: released between transactions. -/
def State.pinBus (_ : State) : Level := .released

/-- WD of a Curd die: transitions while its write gate is open. -/
def State.pinWd (s : State) (g : Nat) : Level :=
  if s.inReset then .idle
  else match (s.fmt g).gate with
    | some e => if e.write then .active else .idle
    | none => .idle

/-- PA_SEN of a Curd die: low between frames. -/
def State.pinPaSen (s : State) (_ : Nat) : Level := if ! s.pins.por then .released else .low

/-- ACT_CS_N of a Curd die: high between frames. -/
def State.pinActCsN (s : State) (_ : Nat) : Level := if ! s.pins.por then .released else .high

/-- MA_DMD of a Curd die: high impedance with VANA off, else the demand. -/
def State.pinMaDmd (s : State) (g : Nat) : Level :=
  if s.inReset ∨ Rail.vana ∉ s.pmb.on then .released else if s.rdC g R.PRESS_MA_MADMD = 0 then .idle else .active

/-- RET_N of a Curd die: high only while its servo permits the actuator to move (R57). -/
def State.pinRetN (s : State) (g : Nat) : Level := if ! s.pins.por then .released else Level.of (! s.inReset && (s.curd g).retN)

/-- Gate outputs of a phase as commanded: a command that would turn both on is discarded, and both are low (R59). -/
def driveGates (gh gl : Bool) : Bool × Bool := if gh && gl then (false, false) else (gh, gl)

/-- GH and GL of phase `p` (0 to 2) at an instant of the PWM period, in millionths of it: the high side for the phase's duty, the low side for the rest,
less a dead time at each edge, the period counted from a carrier valley and the high side centred on the peak; both low while the bridge is off
(R58, R59, R362). -/
def State.gates (s : State) (p at_ : Nat) : Bool × Bool :=
  if s.inReset ∨ ! s.spin.bridge ∨ s.spin.heldLow ∨ s.spin.latched then (false, false)
  else
    let duty := s.spin.duties.getD p 0
    let dead := if s.spin.period = 0 then 0 else 10 * s.spin.dead * 1000000 / s.spin.period
    let from_ := 500000 - duty / 2
    driveGates (decide (from_ ≤ at_ ∧ at_ < from_ + duty)) (decide (at_ + dead < from_ ∨ from_ + duty + dead ≤ at_))

/-- GH and GL of a phase as pins. -/
def State.pinGates (s : State) (p at_ : Nat) : Level × Level :=
  if ! s.pins.por then (.released, .released) else (Level.of (s.gates p at_).1, Level.of (s.gates p at_).2)

/-- BRK. -/
def State.pinBrk (s : State) : Level := if ! s.pins.por then .released else Level.of (! s.inReset && s.spin.brk && ! s.spin.heldLow && ! s.spin.latched)

end Sys2Proof.Machine
end

