-- ==== Sys2Proof/Safety.lean ====
section
/-! DEFINITION. What a state of the block keeps whatever commands come: the terms in which claims over every step are made. -/

namespace Sys2Proof.Machine

/-- The canonical form of a byte memory (Sparse.wf): addresses rise strictly, and no listed byte is one that an unlisted address reads as. -/
def Memory.wf (l : List Host.Cell) : Bool := Sparse.wf zeroByte l

/-- The register file is in its canonical form: no listed register holds its reset word. -/
def State.regsWf (s : State) : Bool := Sparse.wf resetWord s.regs

/-- Every byte memory is in its canonical form: the buffer memories of the two Rind dies, and the scratch memories of the formatters. -/
def State.memWf (s : State) : Bool :=
  Memory.wf s.f0.bmem.cells && Memory.wf s.f1.bmem.cells && s.curds.all (fun c => Memory.wf c.scratch)

/-- The stores of the block are in their canonical form: equal contents are equal data. -/
def State.Canonical (s : State) : Prop := s.regsWf = true ∧ s.memWf = true

/-- Nothing is left to do for a meaning's end: no action of R554 is called for, no re-initialisation of R555 is in a stage, no
receiver owes an LCW (R30), and no command waits on a flash that F0 has left (R190). -/
def State.Quiet (s : State) : Prop :=
  s.todo = [] ∧ s.boot.reinit = none ∧
  s.ends.all (fun e => (List.range 4).all (fun c => ! (s.linkUp e && ((s.fvEnd e).rx.getD c {}).owed))) = true ∧
  (! (decide (s.part.f = 2) && s.fenced .f0) ||
    ((s.flash.op.bind FlashOp.cmd).toList ++ s.flash.hdrQueue.filterMap (fun p => p.2.cmd)).isEmpty) = true

/-- Command `c` is the next of port `p` for admission: nothing stands before it, and no ABORT has ended it. -/
def State.NextIs (s : State) (p : Nat) (c : Cmd) : Prop := s.nextFetched p = some c ∧ s.boot.restarting = false ∧ c.fail = none

/-- Command `c` is the next of port `p`, and every check of admission passes (R188). -/
def State.Ready (s : State) (p : Nat) (c : Cmd) : Prop := s.NextIs p c ∧ s.admission c = none

/-- Command `c` of state `s` is admitted in state `t` (R209): it has the next admission index and the time, and the other commands are as they were. -/
def Admitted (c : Cmd) (s t : State) : Prop :=
  (∃ x ∈ t.cmds, x.uid = c.uid ∧ x.phase = .admitted ∧ x.index = s.nextIndex ∧ x.at_ = s.now ∧ x.desc = c.desc ∧ x.port = c.port ∧ x.tag = c.tag) ∧
  (∀ y ∈ s.cmds, y.uid ≠ c.uid → y ∈ t.cmds) ∧ t.nextIndex = s.nextIndex + 1

/-- The state holds a Finvik link end, with its four classes each way (R24). -/
def State.EndOk (s : State) (e : LinkEnd) : Prop :=
  (match e with
   | .rind d n => n < (s.rind d).links.length
   | .curd g d => g < s.curds.length ∧ d.code < (s.curd g).ends.length) ∧
  (s.fvEnd e).tx.length = 4 ∧ (s.fvEnd e).rx.length = 4

/-- The state holds an engine. -/
def State.EngHeld (s : State) (e : Eng) : Prop :=
  match e with
  | .rind d i => i < (s.rind d).engines.length
  | .curd g => g < s.curds.length

/-- Engine `e` stands at `pc` on a legal word `m` with this NAC that issues no request and makes no commit, and nothing else is due at the engine:
no response, no event, no trace (R464 to R474). -/
def State.PlainWord (s : State) (e : Eng) (nac pc : Nat) (m : Micro) : Prop :=
  s.Quiet ∧ s.regsWf = true ∧ s.hasEng e = true ∧ s.EngHeld e ∧ s.rd e.die e.fState ≠ engHalted ∧
  (s.eng e).waiting = none ∧ (s.eng e).parked = none ∧ (s.eng e).reqs = [] ∧ (s.eng e).events = [] ∧ (s.eng e).bad = [] ∧ (s.eng e).badStack = false ∧
  s.rd e.die (e.pick R.CULT_TRACECTL_EN R.CDIE_FCTRACECTL_EN) = 0 ∧
  pc = s.rd e.die e.fPc ∧ m = microFields ((s.storeOf e).word pc) ∧ assocGet pc 0 (s.storeOf e).wrong = 0 ∧ configArea e.isCurd pc = false ∧
  m.nac = nac ∧ m.illegal e.isCurd = false ∧ m.issues = false ∧ m.vatop = 0 ∧ m.ldop = 0 ∧ m.memop = 0 ∧ m.commit = false

/-- What the ALU gives for the word of an engine (R468, R469). -/
def State.wordOut (s : State) (e : Eng) (m : Micro) : AluOut :=
  alu m.aluop m.shamt ((s.eng e).reg m.srca) (m.opB e (s.eng e)) ((s.eng e).reg m.dest)

/-- The loop counter once a word has loaded or counted it (LCOP, R466). -/
def State.wordLoop (s : State) (e : Eng) (m : Micro) : Nat :=
  match m.lcop with
  | 1 => ((s.eng e).reg m.srcb).toNat % 2 ^ 16
  | 2 => ((s.eng e).loop + 2 ^ 16 - 1) % 2 ^ 16
  | _ => (s.eng e).loop

/-- The condition of the word of an engine holds (R467). -/
def State.wordTaken (s : State) (e : Eng) (m : Micro) : Bool := m.holds e s (s.eng e) (s.wordOut e m) (s.wordLoop e m)

/-- Words of an engine's control store. -/
def storeTop (e : Eng) : Nat := if e.isCurd then 2 ^ 12 else 2 ^ 14

end Sys2Proof.Machine
end

