-- ==== Sys2Proof/Certificates/Slice0/Obligations.lean ====
section
/-! DEFINITION. The statements for the provers. Every command completes: each family's statements give, for the state and the operands alone, the next
state that its own effect leads to. `settle` is the end of a meaning that may raise events; it changes nothing where none was raised that calls for an
action. -/

open Sys2Proof Sys2Proof.Machine


/-- R47, R71, R72, R91: power-on reset and RESET_N. Release of power-on reset senses the strap and the fuses and leaves the start sequence at step 1, with every
register, table and queue at its reset value before; entry and the fall of RESET_N lose the outstanding commands and drive the pins, and leave the
flash's content (where no operation was open and no log record was being programmed), the fuses and the media alone; the rise of RESET_N starts the device.
R54, R56, R58, R59: the pins while RESET_N is low stand at the levels of the pin tables; the two gates of a phase are never both on. -/
def Obligations.PowerAndResetPins : Prop :=
  (∀ (mv : Nat) (strap : Bool) (s : State), s.pins.por = false → s.pins.resetN = true →
    ∃ u, exec (.powerOnResetRelease mv strap) s = .next (settle u) ∧ u.pins.por = true ∧ u.pins.vinMv = mv ∧ u.pins.sbAddr = strap ∧
      u.boot.startAt = s.now ∧ u.cmds = [] ∧ u.versions = [] ∧ u.rdR .f0 R.BOOT_STAT_PHASE = 1 ∧ u.rdR .f0 R.DEV_PINSTAT_SBADDR = bit strap) ∧
  (∀ (mv : Nat) (s : State),
    ∃ t, exec (.powerOnResetEntry mv) s = .next t ∧ t.pins.por = false ∧ t.pins.vinMv = mv ∧ t.pins.aliveOn = false ∧ t.pins.regEn = false ∧
      t.pins.sfCsN = true ∧ t.regs = [] ∧ t.cmds = [] ∧ t.comps = [] ∧ t.versions = [] ∧ t.f0 = {} ∧ t.f1 = {} ∧ t.fuses = s.fuses ∧
      t.mediaTables = s.mediaTables ∧ t.flash.slotA = s.flash.slotA ∧ t.flash.slotB = s.flash.slotB ∧
      (s.flash.op.isSome = true ∨ nextRecord s.flashOwner s = none → t.flash.log = s.flash.log)) ∧
  (∀ s : State, s.pins.por = true →
    ∃ t, exec .resetNFall s = .next t ∧ t.pins.resetN = false ∧ t.pins.por = true ∧ t.pins.alive = false ∧ t.pins.aliveOn = false ∧ t.pins.sfCsN = true ∧
      t.pins.regEn = false ∧ t.cmds = [] ∧ t.comps = [] ∧ t.versions = [] ∧ t.f0.island.queue = s.f0.island.queue ∧ t.fuses = s.fuses ∧
      t.mediaTables = s.mediaTables ∧ t.boot.startAt = s.boot.startAt ∧
      (s.flash.op.isSome = true ∨ nextRecord s.flashOwner s = none → t.flash.log = s.flash.log) ∧
      (s.flash.op = none → t.flash.set0 = s.flash.set0 ∧ t.flash.set1 = s.flash.set1 ∧ t.flash.hdr0 = s.flash.hdr0 ∧ t.flash.hdr1 = s.flash.hdr1)) ∧
  (∀ s : State, s.pins.por = false → exec .resetNFall s = .next { s with pins := { s.pins with resetN := false } }) ∧
  (∀ (us : Nat) (s : State), s.pins.por = true → s.regsWf = true →
    ∃ u, exec (.resetNRise us) s = .next (settle u) ∧ u.pins.resetN = true ∧ u.boot.startAt = s.boot.startAt ∧ u.rdR .f0 R.BOOT_STAT_PHASE = 1) ∧
  (∀ (us : Nat) (s : State), s.pins.por = false →
    exec (.resetNRise us) s = .next (settle { s with pins := { s.pins with resetN := true, shortReset := false } })) ∧
  (∀ (d : RSlot) (h g p at_ : Nat) (s : State), s.pins.por = true → s.pins.resetN = false →
    s.pinHostTx d h = .idle ∧ s.pinDramResetN = .low ∧ s.pinSfCsN = .high ∧ s.pinSfClk = .low ∧ s.pinSfIo = .released ∧ s.pinRegEn = .low ∧
    s.pinAlive = .low ∧ s.pinTdo = .released ∧ s.pinWd g = .idle ∧ s.pinPaSen g = .low ∧ s.pinActCsN g = .high ∧ s.pinMaDmd g = .released ∧
    s.pinRetN g = .low ∧ s.pinGates p at_ = (.low, .low) ∧ s.pinBrk = .low) ∧
  (∀ (p at_ : Nat) (s : State), s.gates p at_ ≠ (true, true))

/-- R96, R97: the supply. A sample is kept with DEV_PINSTAT.VINOK; below 4.5 V the hold time runs from the first such sample, and a dip that ends before it
expires raises source 0x025; a rise past VSAG ends the pause when its 10 ms are over; when the hold expires the core loses its power and what only buffer
memory held is lost; at 4.6 V the start runs from step 2. In the thermal wait, NOIMAGE and FAILED phases the hold raises its source alone. -/
def Obligations.SupplySagAndHold : Prop :=
  (∀ (mv : Nat) (s : State), 4500 ≤ mv → s.pins.lowSince = none → s.regsWf = true →
    ∃ t, exec (.vinSample mv) s = .next t ∧ t.pins.vinMv = mv ∧ t.rdR .f0 R.DEV_PINSTAT_VINOK = bit (decide (mv ≤ 32000)) ∧
      t.pins.lowSince = none ∧ (s.pins.sagPause = true → t.pins.sagPause = true) ∧ t.cmds = s.cmds ∧ t.out = s.out) ∧
  (∀ (mv : Nat) (s : State), mv < 4500 → s.regsWf = true →
    ∃ t, exec (.vinSample mv) s = .next t ∧ t.pins.vinMv = mv ∧ t.rdR .f0 R.DEV_PINSTAT_VINOK = 0 ∧
      t.pins.lowSince = some (s.pins.lowSince.getD s.now) ∧ t.cmds = s.cmds ∧ t.out = s.out) ∧
  (∀ (mv : Nat) (s : State), 4500 ≤ mv → s.pins.lowSince.isSome = true → s.pins.holdOut = false →
    ∃ v, exec (.vinSample mv) s = .next (settle (inStep (fun d t => raise d 0x025 [mv] t) v)) ∧ v.pins.vinMv = mv ∧ v.pins.lowSince = none ∧ v.cmds = s.cmds) ∧
  (∀ s : State, s.pins.sagPause = true → 10 * s.rdR s.senior R.BOOT_RIDE_VSAG ≤ s.pins.vinMv →
    ∃ t, exec .sagPauseEnd s = .next t ∧ t.pins.sagPause = false ∧ t.regs = s.regs ∧ t.cmds = s.cmds ∧ (s.flash.hdrQueue = [] → s.flash.redo = none → t.flash = s.flash)) ∧
  (∀ s : State, s.pins.lowSince.isSome = true → s.pins.holdOut = false → s.phase .f0 < 0xD →
    ∃ t, exec .supplyHoldExpire s = .next t ∧ t.pins.holdOut = true ∧ t.pins.regEn = false ∧ t.cmds = [] ∧ t.versions = [] ∧ t.f0.bmem = {} ∧ t.f1.bmem = {} ∧
      t.spin.bridge = false ∧ t.mediaClean = false) ∧
  (∀ s : State, s.pins.lowSince.isSome = true → s.pins.holdOut = false → 0xD ≤ s.phase .f0 →
    exec .supplyHoldExpire s = .next (settle (inStep (fun d t => raise d 0x026 [0] t) s))) ∧
  (∀ s : State, s.pins.holdOut = true → 4600 ≤ s.pins.vinMv → s.regsWf = true →
    ∃ t, exec .supplyRestart s = .next t ∧ t.pins.holdOut = false ∧ t.pins.lowSince = none ∧ t.rdR .f0 R.BOOT_STAT_PHASE = 1 ∧ t.flash = s.flash ∧ t.cmds = s.cmds)

/-- R63, R66, R67, R352, R549: the safety pins. TRST_N driven high and a lost timebase raise their sources on the collector of each die that sees them; ALIVE toggles
while the device is healthy and stays low otherwise; F1 takes the pin over; a rail monitor makes the group retract and drops C0's gates.
R322 to R325: SHOCK. Every Curd die sees it and withdraws its write gate; the hold runs from its release; a level held longer than a second is source 0x11. -/
def Obligations.SafetyAndShockPins : Prop :=
  (∀ s : State, s.pins.trstN = false → s.inReset = false →
    ∃ v, v = wrBoth R.DEV_PINSTAT_TRSTN 1 { s with pins := { s.pins with trstN := true } } ∧
      exec .testPortActive s = .next (settle (v.rinds.foldl (fun t d => raise d 0x003 [] t) v))) ∧
  (∀ s : State, s.pins.trstN = false → s.inReset = true →
    exec .testPortActive s = .next (settle (wrBoth R.DEV_PINSTAT_TRSTN 1 { s with pins := { s.pins with trstN := true } }))) ∧
  (∀ s : State, s.pins.trstN = true →
    exec .testPortActive s = .next (settle (wrBoth R.DEV_PINSTAT_TRSTN 0 { s with pins := { s.pins with trstN := false } }))) ∧
  (∀ (d : RSlot) (s : State), s.hasRind d = true →
    ∃ v, (v.rind d).island.timebaseLost = true ∧ v.regs = s.regs ∧ v.cmds = s.cmds ∧ exec (.timebaseLost d) s = .next (settle (raise d 0x002 [] v))) ∧
  (∀ s : State, s.healthy = true → exec .aliveToggle s = .next { s with pins := { s.pins with alive := ! s.pins.alive, aliveOn := true } }) ∧
  (∀ s : State, s.healthy = false → exec .aliveToggle s = .next { s with pins := { s.pins with alive := false, aliveOn := false } }) ∧
  (∀ s : State, s.healthy = true → s.part.f = 2 → s.pins.aliveBy = .f0 →
    exec .aliveTakeover s = .next { s with pins := { s.pins with alive := ! s.pins.alive, aliveOn := true, aliveBy := .f1 } }) ∧
  (∀ (g : Nat) (r : Rail) (s : State), s.hasCurd g = true → r ≠ .vddq →
    ∃ v, v = s.modCurd g (fun c => { c with railLow := true }) ∧
      exec (.railMonitorLow g r) s = .next (settle (if g = 0 then gatesOff (emergencyRetract g v) else emergencyRetract g v))) ∧
  (∀ (g : Nat) (s : State), s.hasCurd g = true → (s.curd g).railLow = true →
    ∃ v, v = resetPress g (resetChannel g (resetFormatter g (s.modCurd g (fun c => { c with railLow := false })))) ∧
      exec (.railRecovered g) s = .next (settle (if g = 0 ∧ v.spin.begun = true ∧ curdCode 0 ∉ v.budget.shut then
        modSpin (fun p => { p with heldLow := false, due := true }) v else v))) ∧
  (∀ s : State, s.pins.shock = false → s.inReset = false →
    exec .shockAssert s = .next (settle (onGroups (fun g t => refreshServo g (shockSeen g t))
      (wrBoth R.DEV_PINSTAT_SHOCK 1 { s with pins := { s.pins with shock := true } })))) ∧
  (∀ s : State, s.pins.shock = false → s.inReset = true → exec .shockAssert s = .next { s with pins := { s.pins with shock := true } }) ∧
  (∀ s : State, s.pins.shock = true → exec .shockAssert s = .next s) ∧
  (∀ (g : Nat) (s : State), g < s.curds.length →
    ((shockSeen g s).fmt g).shockSince = some s.now ∧ (∀ e, (s.fmt g).gate = some e → e.write = true → (s.gateSec g e).isSome = true →
      ((shockSeen g s).fmt g).gate = none)) ∧
  (∀ s : State, ∃ t, exec .shockRelease s = .next t ∧ t.pins.shock = false ∧ (s.regsWf = true → t.rdR .f0 R.DEV_PINSTAT_SHOCK = 0) ∧ t.out = s.out ∧ t.cmds = s.cmds ∧
    (∀ g, s.hasCurd g = true → g < s.curds.length → (t.fmt g).shockSince = none)) ∧
  (∀ (g : Nat) (s : State), s.hasCurd g = true → s.pins.shock = false →
    exec (.shockHoldExpire g) s = .next (settle (showFmt g (s.wrC g R.FMT_STAT_WINHSHK 0)))) ∧
  (∀ (g : Nat) (s : State), s.hasCurd g = true → s.pins.shock = true → (s.fmt g).shockSince.isSome = true →
    exec (.shockStuck g) s = .next (settle (curdRaise g 0x11 0 s)))

/-- R46, R50 to R53, R91: the PMBus of a driving die. Each transaction goes out with its command code; a good answer has the effect of its command, and a write
with a bad one is a regulator fault, as is the third bad read in a row; a reading within its rail's range confirms a rail that is on. VCORE moves one confirmed step of 10 mV between 0.65 V and 0.90 V. -/
def Obligations.PmbusTransactions : Prop :=
  (∀ (r : Rail) (s : State), s.pmbDriven = true → r ∉ s.pmb.on →
    exec (.pmbusOperation r true .ok) s = .next (settle { s with out := .pmbus (s.pmbAddr r) 0x01 1 :: s.out, pmb := { s.pmb with on := s.pmb.on ++ [r], confirmed := s.pmb.confirmed.erase r } })) ∧
  (∀ (r : Rail) (s : State), s.pmbDriven = true →
    exec (.pmbusOperation r false .ok) s = .next (settle { s with out := .pmbus (s.pmbAddr r) 0x01 0 :: s.out, pmb := { s.pmb with on := s.pmb.on.erase r, confirmed := s.pmb.confirmed.erase r } })) ∧
  (∀ (r : Rail) (on : Bool) (resp : PmbResp) (s : State), s.pmbDriven = true → resp ≠ .ok →
    exec (.pmbusOperation r on resp) s = .next (settle (regulatorFault r { s with out := .pmbus (s.pmbAddr r) 0x01 (bit on) :: s.out }))) ∧
  (∀ (r : Rail) (s : State), s.pmbDriven = true →
    exec (.pmbusClearFaults r .ok) s = .next (settle { s with out := .pmbus (s.pmbAddr r) 0x03 0 :: s.out, pmb := { s.pmb with faulted := s.pmb.faulted.erase r } })) ∧
  (∀ s : State, s.pmbDriven = true → s.pmb.stepConfirmed = true → 640 ≤ s.pmb.setMv → s.pmb.setMv ≤ 890 → s.budget.vsteps < 5 →
      s.pmb.setMv < 10 * s.rdS R.BUDGET_STAT_VTGT →
    ∃ u, exec (.pmbusVoutCommand true .ok) s = .next (settle u) ∧ u.pmb.setMv = s.pmb.setMv + 10 ∧ u.pmb.stepConfirmed = false ∧
      u.out = .pmbus (s.pmbAddr .vcore) 0x21 (voutData (s.pmb.setMv + 10)) :: s.out ∧ u.budget.vsteps = s.budget.vsteps + 1 ∧ u.regs = s.regs) ∧
  (∀ (r : Rail) (s : State), s.pmbDriven = true →
    ∃ v, exec (.pmbusStatusWord r .ok true) s = .next (settle (regulatorFault r v)) ∧ r ∈ v.pmb.faulted ∧ v.out = .pmbus (s.pmbAddr r) 0x79 0 :: s.out ∧ v.regs = s.regs) ∧
  (∀ s : State, s.pmbDriven = true → s.pmb.stepConfirmed = true → 660 ≤ s.pmb.setMv → s.pmb.setMv ≤ 910 → s.budget.vsteps < 5 →
      10 * s.rdS R.BUDGET_STAT_VTGT < s.pmb.setMv →
    ∃ u, exec (.pmbusVoutCommand false .ok) s = .next (settle u) ∧ u.pmb.setMv = s.pmb.setMv - 10 ∧ u.pmb.stepConfirmed = false ∧
      u.out = .pmbus (s.pmbAddr .vcore) 0x21 (voutData (s.pmb.setMv - 10)) :: s.out ∧ u.budget.vsteps = s.budget.vsteps + 1) ∧
  (∀ (r : Rail) (mv : Nat) (s : State), s.pmbDriven = true →
    ∃ u, exec (.pmbusReadVout r .ok mv) s = .next (settle (railsUp u)) ∧ assocGet (railNo r) 0 u.pmb.vout = mv ∧
      (∀ q, q ∈ u.pmb.confirmed ↔ q ∈ s.pmb.confirmed ∨ (q = r ∧ r ∈ s.pmb.on ∧ s.railGood r mv = true)) ∧
      u.pmb.stepConfirmed = (if r = .vcore then s.railGood .vcore mv else s.pmb.stepConfirmed) ∧ u.pmb.setMv = s.pmb.setMv ∧
      u.out = .pmbus (s.pmbAddr r) 0x8B 0 :: s.out ∧ u.cmds = s.cmds) ∧
  (∀ (r : Rail) (ma : Nat) (resp : PmbResp) (s : State), s.pmbDriven = true → resp ≠ .ok →
    ∃ v, v.out = .pmbus (s.pmbAddr r) 0x8C 0 :: s.out ∧ v.regs = s.regs ∧ v.cmds = s.cmds ∧
      exec (.pmbusReadIout r resp ma) s = .next (settle (if 2 ≤ assocGet (railNo r) 0 s.pmb.fails then regulatorFault r v else v))) ∧
  (∀ (r : Rail) (ma : Nat) (s : State), s.pmbDriven = true → r ≠ .vcore →
    ∃ u, exec (.pmbusReadIout r .ok ma) s = .next (settle u) ∧ assocGet (railNo r) 0 u.pmb.iout = ma ∧ u.out = .pmbus (s.pmbAddr r) 0x8C 0 :: s.out)

/-- R52, R65: the buses of the two islands. The incoming senior drives the PMBus; an island of an F2 part that does not own the serial flash asks for it, and F0 is
granted first, once the owner's flash operation is over. -/
def Obligations.IslandBuses : Prop :=
  (∀ s : State, s.pmb.takeover = true → s.bitR s.senior R.STEP_STAT_LEASE = true → s.part.f = 2 → s.regsWf = true →
    ∃ t, exec .pmbusTakeover s = .next t ∧ t.pmb.takeover = false ∧ t.rdR t.senior R.DEV_PINSTAT_PMBOWN = 1 ∧ t.rdR t.senior.peer R.DEV_PINSTAT_PMBOWN = 0 ∧
      t.cmds = s.cmds ∧ t.out = s.out) ∧
  (∀ (d : RSlot) (s : State), s.part.f = 2 → s.bitR d R.DEV_PINSTAT_SFOWN = false → d ∉ s.pins.sfReq → s.fenced d = false →
    exec (.sfBusRequest d) s = .next { s with pins := { s.pins with sfReq := s.pins.sfReq ++ [d] } }) ∧
  (∀ s : State, s.flash.op = none → .f0 ∈ s.pins.sfReq → s.regsWf = true →
    ∃ t, exec .sfBusGrant s = .next t ∧ t.rdR .f0 R.DEV_PINSTAT_SFOWN = 1 ∧ t.rdR .f1 R.DEV_PINSTAT_SFOWN = 0 ∧ t.pins.sfReq = s.pins.sfReq.erase .f0 ∧
      t.flash = s.flash ∧ t.cmds = s.cmds) ∧
  (∀ s : State, s.flash.op = none → .f0 ∉ s.pins.sfReq → .f1 ∈ s.pins.sfReq → s.regsWf = true →
    ∃ t, exec .sfBusGrant s = .next t ∧ t.rdR .f1 R.DEV_PINSTAT_SFOWN = 1 ∧ t.rdR .f0 R.DEV_PINSTAT_SFOWN = 0 ∧ t.pins.sfReq = s.pins.sfReq.erase .f1)

/-- R73, R101 to R107, R114, R115: the host link heads and the window. PERST# resets and holds one head and nothing else; a head comes up at what both partners
support; a load of the window returns its bytes with their poison, and an access that the window does not take is refused, with poison and all ones for
a load; a flush is acknowledged and moves nothing. -/
def Obligations.HostHeadsAndWindow : Prop :=
  (∀ (d : RSlot) (h : Nat) (s : State), s.pins.resetN = true → s.hasRind d = true → h < 4 → s.regsWf = true →
    ∃ v, v = setPerst d h false s ∧ (v.rdR d R.DEV_PINSTAT_PERST).testBit h = false ∧ v.cmds = s.cmds ∧ v.out = s.out ∧ v.f0 = s.f0 ∧ v.f1 = s.f1 ∧
      exec (.perstAssert d h) s = .next (settle (if s.boot.released then hostLinkStep d h (headLost d h 3 v) else v))) ∧
  (∀ (d : RSlot) (h : Nat) (s : State), s.pins.resetN = true → s.hasRind d = true → h < 4 → s.boot.released = false → s.regsWf = true →
    ∃ t, exec (.perstDeassert d h) s = .next t ∧ (t.rdR d R.DEV_PINSTAT_PERST).testBit h = true ∧ t.cmds = s.cmds ∧ t.out = s.out ∧ t.f0 = s.f0) ∧
  (∀ (d : RSlot) (h : Nat) (s : State), s.pins.resetN = true → s.hasRind d = true → h < 4 → s.boot.released = true → s.rdR d (R.LINK_HEADSTAT_STATE h) = 3 →
    ∃ v, v = setPerst d h true s ∧ exec (.perstDeassert d h) s = .next (hostLinkStep d h (v.wrR d (R.LINK_HEADSTAT_STATE h) (v.headStart d h true)))) ∧
  (∀ (d : RSlot) (h : Nat) (s : State), s.pins.resetN = false → s.hasRind d = true → h < 4 →
    exec (.perstAssert d h) s = .next (setPerst d h false s) ∧ exec (.perstDeassert d h) s = .next (setPerst d h true s)) ∧
  (∀ (d : RSlot) (h : Nat) (p : Partner) (s : State), s.hasRind d = true → h < 4 → s.boot.released = true → s.rdR d (R.LINK_HEADCFG_MODE h) ≠ 0 →
      s.rdR d (R.LINK_HEADSTAT_STATE h) ≠ 3 → s.rdR d (R.LINK_HEADSTAT_STATE h) ≠ 2 → (s.rdR d R.DEV_PINSTAT_PERST).testBit h = true →
      s.pins.refclk.testBit (4 * d.code + h) = true → 4 ≤ p.width → p.cxl = true → s.regsWf = true →
    ∃ v, exec (.headTrained d h p) s = .next (settle (hostLinkStep d h (headUp d h v))) ∧ v.rdR d (R.LINK_HEADSTAT_STATE h) = 2 ∧
      v.rdR d (R.LINK_HEADSTAT_RATE h) = min p.rate (s.rdR d (R.LINK_HEADCFG_MAXRATE h)) ∧ assocGet h [] (v.rind d).pools = p.credits ∧ v.cmds = s.cmds) ∧
  (∀ (d : RSlot) (h : Nat) (s : State), s.hasRind d = true → h < 4 → s.rdR d (R.LINK_HEADSTAT_STATE h) = 2 →
    exec (.headDown d h) s = .next (settle (hostLinkStep d h (headLost d h 1 s)))) ∧
  (∀ (d : RSlot) (r : Requester) (off len a w : Nat) (s : State), s.hasRind d = true → s.fenced d = false → s.windowAddr d r off len = some (a, w) →
    ∃ u, exec (.cxlMemLoad d r off len) s = .next (settle u) ∧
      u.out.head? = some (.load (caveRead d .host a len false s).1 (caveRead d .host a len false s).2.1)) ∧
  (∀ (d : RSlot) (r : Requester) (off len : Nat) (s : State), s.hasRind d = true → s.fenced d = false → s.windowAddr d r off len = none →
    ∃ u, exec (.cxlMemLoad d r off len) s = .next (settle u) ∧ u.out.head? = some (.load (List.replicate len 0xFF) true)) ∧
  (∀ (d : RSlot) (r : Requester) (off a : Nat) (data : List Byte) (s : State), s.hasRind d = true → s.fenced d = false →
      s.windowAddr d r off data.length = some (a, 2) →
    exec (.cxlMemStore d r off data) s = .next (settle ((noteStore d a data.length (inStep (fun e t => caveWrite e .host a data false t) (newStep 0x02 0 0 s))).emit .ack))) ∧
  (∀ (d : RSlot) (r : Requester) (off : Nat) (data : List Byte) (s : State), s.hasRind d = true → s.fenced d = false →
      (∀ a, s.windowAddr d r off data.length ≠ some (a, 2)) →
    exec (.cxlMemStore d r off data) s = .next (settle ((windowRefusal d off s).emit .ack))) ∧
  (∀ (d : RSlot) (h : Nat) (s : State), exec (.globalPersistentFlush d h) s = .next { s with out := .ack :: s.out })

/-- R79, R89, R91 (steps 2, 3 and 6), R94: the flash part of the start. The chosen header goes into use, REG_EN rises and F0 drives the PMBus; with no valid
header the start fails. The accepted active slot runs, and the Curd image follows it to each Curd die. A header copy that reads back good is the one in use;
a bad one is programmed once more, and after a second bad one the header stays as it was. A header that is written is read back as it is. -/
def Obligations.StartFromFlash : Prop :=
  (∀ (k : Nat) (h : Header) (s : State), s.pins.por = true → s.pins.resetN = true → s.pins.holdOut = false → s.phase .f0 ≤ 1 → s.hasBus .f0 = true → s.flash.header = some (k, h) →
      s.regsWf = true →
    ∃ t, exec (.startHeader .f0) s = .next t ∧ t.boot.hdr = h ∧ t.pins.regEn = true ∧ t.pmb.setMv = 800 ∧ t.rdR .f0 R.BOOT_STAT_PHASE = 2 ∧
      t.rdR .f0 R.DEV_PINSTAT_PMBOWN = 1 ∧ t.rdR .f0 R.DEV_PINSTAT_REGEN = 1 ∧ t.flash = { s.flash with log := shapeLog h s.flash.log } ∧
      t.out = .sfdpRead :: .flashRead false 25 0 (hdrAddr 1) 256 :: .flashRead false 25 0 (hdrAddr 0) 256 :: s.out) ∧
  (∀ s : State, s.pins.por = true → s.pins.resetN = true → s.pins.holdOut = false → s.phase .f0 ≤ 1 → s.hasBus .f0 = true → s.flash.header = none →
    ∃ v, v = { s with out := .sfdpRead :: .flashRead false 25 0 (hdrAddr 1) 256 :: .flashRead false 25 0 (hdrAddr 0) 256 :: s.out } ∧
      exec (.startHeader .f0) s = .next (settle (startFail [2] v))) ∧
  (∀ (k : Nat) (h : Header) (s : State), s.part.f = 2 → s.pins.por = true → s.pins.resetN = true → s.pins.holdOut = false → s.phase .f1 ≤ 1 → 2 ≤ s.phase .f0 →
      s.hasBus .f1 = true → s.flash.header = some (k, h) → s.regsWf = true →
    ∃ t, exec (.startHeader .f1) s = .next t ∧ t.flash = s.flash ∧ t.boot = s.boot ∧
      t.rdR .f1 R.BOOT_STAT_PHASE = (if 3 ≤ s.phase .f0 ∧ s.phase .f0 ≤ 8 then 3 else 2)) ∧
  (∀ s : State, s.phase .f0 = 3 → s.boot.waitHdr = false → s.hasBus .f0 = true → s.boot.hdr.pending = none →
    ∃ v, v = quadRead (slotAddr 1) 0x1000000 (quadRead (slotAddr 0) 0x1000000 (reportMissing .f0 s)) ∧ exec (.startLoad .f0) s = .next (settle (tryActive v))) ∧
  (∀ (p : Nat) (s : State), s.phase .f0 = 3 → s.boot.waitHdr = false → s.hasBus .f0 = true → s.boot.hdr.pending = some p →
    ∃ v, v = quadRead (slotAddr 1) 0x1000000 (quadRead (slotAddr 0) 0x1000000 (reportMissing .f0 s)) ∧
      exec (.startLoad .f0) s = .next (settle (if 0 < v.boot.hdr.tries then
        writeHeader { v.boot.hdr with tries := v.boot.hdr.tries - 1 } .trial { v with boot := { v.boot with waitHdr := true } }
        else writeHeader { v.boot.hdr with pending := none } .drop { v with boot := { v.boot with waitHdr := true } }))) ∧
  (∀ (i : Nat) (s : State), s.part.f = 2 → s.phase .f1 = 3 → s.boot.waitHdr = false → s.hasBus .f1 = true → s.boot.slot = some i →
    ∃ v, v = quadRead (slotAddr 1) 0x1000000 (quadRead (slotAddr 0) 0x1000000 (reportMissing .f1 s)) ∧
      exec (.startLoad .f1) s = .next (settle (match s.accepted i with
        | some img => runSlot .f1 i v.boot.trial img v
        | none => v))) ∧
  (∀ (d : RSlot) (s : State), (∀ g ∈ s.groups, (s.fvEnd (.rind d g)).up = true) → (s.part.f = 2 → (s.fvEnd (.rind d 6)).up = true) → reportMissing d s = s) ∧
  (∀ s : State, match s.accepted s.boot.hdr.active, s.accepted (1 - s.boot.hdr.active) with
    | some img, _ => tryActive s = runSlot .f0 s.boot.hdr.active false img (noteChecked s.boot.hdr.active s)
    | none, some img => tryActive s = runSlot .f0 (1 - s.boot.hdr.active) false img
        (raise .f0 0x023 [1 - s.boot.hdr.active] (noteChecked (1 - s.boot.hdr.active) (noteChecked s.boot.hdr.active s)))
    | none, none => ∃ v, tryActive s = setPhases 0xE v ∧ v.pins.regEn = false ∧ v.pins.sfDriven = false) ∧
  (∀ (d : RSlot) (i : Nat) (trial : Bool) (img : SlotImage) (s : State), s.regsWf = true →
    ∃ u, runSlot d i trial img s = u ∧ u.boot.slot = some i ∧ u.boot.trial = trial ∧ d ∈ u.boot.loaded ∧ u.rdR d R.BOOT_STAT_PHASE = 4 ∧ u.flash = s.flash) ∧
  (∀ (g : Nat) (p : RSlot × SlotImage × List SetRec) (s : State), s.boot.image.find? (fun p => p.1 = .f0) = some p → s.hasCurd g = true →
      s.linkUp (.curd g .f0) = true → s.bitC g R.CDIE_FCSTORE_LOADED = false →
    exec (.curdImageLoad g) s = .next (settle (loadCurdStore g p.2.1 s))) ∧
  (∀ (k : Nat) (h : Header) (why : HdrWhy) (s : State), s.flash.op = some (.header k h false why) → s.flash.sagged = false → s.pins.sagPause = false →
    ∃ t, exec (.headerWriteDone false) s = .next t ∧ t.flash = { s.flash.hdrCopy k [] with op := some (.header k h true why), sagged := false } ∧
      t.out = .flash (.header k h true why) (hdrAddr k) :: s.out ∧ t.regs = s.regs ∧ t.boot = s.boot) ∧
  (∀ (k : Nat) (h : Header) (s : State), s.flash.op = some (.header k h true .commit) →
    ∃ v, v = raise s.senior 0x027 [k] { s with flash := { s.flash.hdrCopy k [] with op := none } } ∧
      exec (.headerWriteDone false) s = .next (settle (beginHeaderWrite v))) ∧
  (∀ (k : Nat) (h : Header) (again : Bool) (port tag : Nat) (s : State), s.flash.op = some (.header k h again (.activate port tag)) → s.flash.sagged = false →
    ∃ v, v.flash = { s.flash.hdrCopy k h.bytes with op := none } ∧ v.boot.hdr = h ∧ v.cmds = s.cmds ∧ v.out = s.out ∧
      exec (.headerWriteDone true) s = .next (settle (beginHeaderWrite (endCommand port tag St.success (((h.pending.bind v.slotImage).map SlotImage.version).getD 0) v)))) ∧
  (∀ (k port tag : Nat) (h : Header) (again : Bool) (s : State), s.flash.op = some (.header k h again (.activate port tag)) → s.flash.sagged = true →
    ∃ v, v.flash = { s.flash.hdrCopy k h.bytes with op := none } ∧ v.boot.hdr = h ∧ v.cmds = s.cmds ∧ v.out = s.out ∧ v.free = s.free + 1 ∧
      exec (.headerWriteDone true) s = .next (settle (if s.fresh.1 % 2 = 1 then stopHeader k port tag s.fresh.2
        else beginHeaderWrite (endCommand port tag St.success (((h.pending.bind v.slotImage).map SlotImage.version).getD 0) v)))) ∧
  (∀ (k port tag : Nat) (h : Header) (s : State), s.flash.op = some (.header k h false (.activate port tag)) → s.flash.sagged = true → s.pins.sagPause = true →
    exec (.headerWriteDone false) s = .next (settle (stopHeader k port tag s.fresh.2))) ∧
  (∀ h : Header, h.inRange = true → h.hseq < 0x10000 → Header.ofBytes h.bytes = some h) ∧
  (∀ (k : Nat) (h : Header) (again : Bool) (s : State), s.flash.op = some (.header k h again .trial) →
    ∃ v, v.flash = { s.flash.hdrCopy k h.bytes with op := none } ∧ v.boot.hdr = h ∧ v.cmds = s.cmds ∧ v.out = s.out ∧
      exec (.headerWriteDone true) s = .next (settle (beginHeaderWrite (tryPending v))))

/-- R21, R91 (steps 4 to 15), R93, R94, R400 to R402, R527: the start goes on. A first handshake with a Curd die is recorded and installs the first lease from F0;
settings, training, the fill and the heads each lead to the next phase; READY is reported with its time; the watchdog fails the start; the thermal wait ends in
a start from step 2. -/
def Obligations.StartSequencePhases : Prop :=
  (∀ (n : Nat) (s : State), n < 6 → s.hasCurd n = true → 3 ≤ s.phase .f0 → s.phase .f0 ≤ 8 → (s.fvEnd (.rind .f0 n)).up = false →
      (.f0, n) ∉ s.boot.absent → s.regsWf = true →
    ∃ v, (v.rdR .f0 R.DEV_DIEPRES_CPRES).testBit n = true ∧ v.rdR .f0 (R.DEV_FVSTAT_STATE n) = 1 ∧ v.cmds = s.cmds ∧
      exec (.linkFirstHandshake .f0 n) s =
        .next (sendMsg (.rind .f0 n) 3 0 [BitVec.ofNat 32 (0x60000000 + (if s.part.f = 1 then 2 else 0)), 1] v)) ∧
  (∀ (n : Nat) (s : State), n < 6 → s.part.f = 2 → s.hasCurd n = true → 3 ≤ s.phase .f1 → s.phase .f1 ≤ 8 → (s.fvEnd (.rind .f1 n)).up = false →
      (.f1, n) ∉ s.boot.absent → s.regsWf = true →
    ∃ t, exec (.linkFirstHandshake .f1 n) s = .next t ∧ (t.rdR .f1 R.DEV_DIEPRES_CPRES).testBit n = true ∧ t.rdR .f1 (R.DEV_FVSTAT_STATE n) = 1 ∧
      t.rdR .f1 R.STEP_EPOCH_EPOCH = 1 ∧ t.cmds = s.cmds ∧ t.out = s.out) ∧
  (∀ (d : RSlot) (s : State), s.part.f = 2 → 3 ≤ s.phase d → s.phase d ≤ 8 → (s.fvEnd (.rind d 6)).up = false → (d, 6) ∉ s.boot.absent → s.regsWf = true →
    ∃ t, exec (.linkFirstHandshake d 6) s = .next t ∧
      (∀ e, t.rdR e R.DEV_DIEPRES_F1PRES = 1 ∧ t.rdR e R.DEV_ID_FDIES = 2 ∧ t.rdR e R.STEP_STAT_LINKUP = 1 ∧ t.rdR e (R.DEV_FVSTAT_STATE 6) = 1 ∧
        (s.EndOk (.rind e 6) → t.linkUp (.rind e 6) = true)) ∧ t.cmds = s.cmds ∧ t.out = s.out) ∧
  (∀ (d : RSlot) (k : Nat) (c : Settings) (s : State), s.hasRind d = true → s.phase d = 4 → s.hasBus d = true → (d = .f0 ∨ .f0 ∈ s.boot.settled) →
      s.settings = some (k, c) → c.enough = true → s.regsWf = true →
    ∃ u, exec (.startSettings d) s = .next (settle u) ∧ u = setPhase d 5 (loadSettings d k c (readSettings s)) ∧ u.rdR d R.BOOT_STAT_PHASE = 5 ∧
      d ∈ u.boot.settled) ∧
  (∀ (d : RSlot) (s : State), s.hasRind d = true → s.phase d = 4 → s.hasBus d = true → (d = .f0 ∨ .f0 ∈ s.boot.settled) →
      (∀ p, s.settings = some p → p.2.enough = false) → exec (.startSettings d) s = .next (settle (startFail [7] (readSettings s)))) ∧
  (∀ (sseq : Nat) (l : List SetRec), l.all (fun r => decide (r.raw.length ≤ 4088 ∧ r.raw.length % 4 = 0)) = true → (l.flatMap SetRec.bytes).length ≤ 524160 →
    (Settings.make sseq l).valid false = true) ∧
  (∀ (here : Bool) (s : State), s.part.f = 2 → s.phase .f0 = 5 → s.fenced .f1 = false →
    exec (.startDigestExchange here) s = .next (if here = true ∧ s.phase .f1 = 5 ∧
        (s.boot.image.find? (fun p => p.1 = .f0)).map Prod.snd = (s.boot.image.find? (fun p => p.1 = .f1)).map Prod.snd then
      s.rinds.foldl (fun t d => t.wrR d R.STEP_STAT_REDUND 1) s else settle (fenceDie .f1 (noteDivergence 5 .f1 s)))) ∧
  (∀ s : State, s.part.f = 2 → s.phase .f0 = 5 → s.phase .f1 = 5 → s.fenced .f1 = false →
      (s.boot.image.find? (fun p => p.1 = .f0)).map Prod.snd = (s.boot.image.find? (fun p => p.1 = .f1)).map Prod.snd → s.regsWf = true →
    ∃ t, exec (.startDigestExchange true) s = .next t ∧ t.rdR .f0 R.STEP_STAT_REDUND = 1 ∧ t.rdR .f1 R.STEP_STAT_REDUND = 1 ∧ t.f1 = s.f1 ∧ t.cmds = s.cmds) ∧
  (∀ s : State, s.phase .f0 = 5 → exec .startMemorySpindle s = .next (settle (keeperStart (s.rinds.foldl (fun t d => startTraining d t) s)))) ∧
  (∀ (d : RSlot) (lanes : List LaneEyes) (s : State), s.hasRind d = true → s.rdR d R.BMEM_STAT_PHASE = 1 → s.regsWf = true →
      (∀ c < 2, (trainChannel d 1 (lanes.drop 10) (trainChannel d 0 (lanes.take 10) s)).rdR d (R.BMEM_TRAIN_FAILLANE c) = 0xF) →
    ∃ t, exec (.dramTrainingDone d lanes) s = .next t ∧ t.rdR d R.BMEM_STAT_PHASE = 2) ∧
  (∀ (lanes : List LaneEyes) (s : State), s.part.f = 1 → s.rdR .f0 R.BMEM_STAT_PHASE = 1 → s.regsWf = true →
      (∃ c < 2, (trainChannel .f0 1 (lanes.drop 10) (trainChannel .f0 0 (lanes.take 10) s)).rdR .f0 (R.BMEM_TRAIN_FAILLANE c) ≠ 0xF) →
    ∃ detail v, v.rdR .f0 R.BMEM_STAT_PHASE = 0xF ∧ exec (.dramTrainingDone .f0 lanes) s = .next (settle (startFail [8] (raise .f0 0x080 detail v)))) ∧
  (∀ (d : RSlot) (s : State), s.hasRind d = true → s.rdR d R.BMEM_STAT_PHASE = 2 → s.phase d = 5 → (s.part.f = 2 → s.role d ≠ roleResync) → s.regsWf = true →
    ∃ v, (v.rind d).bmem.cells = [] ∧ (v.rind d).bmem.poison = [] ∧ v.rdR d R.BMEM_STAT_CHRDY = 3 ∧ v.rdR d R.BMEM_STAT_PHASE = 3 ∧
      exec (.dramFillDone d) s = .next (settle (if s.part.f = 2 ∧ d = .f0 ∧ (releaseDie d v).rdR .f0 R.STEP_STAT_REDUND = 0 ∧ (releaseDie d v).fenced .f1 = false then
        fenceDie .f1 (noteDivergence 5 .f1 (releaseDie d v)) else releaseDie d v))) ∧
  (∀ (perst refclk : Nat) (s : State), s.phase .f0 = 6 → s.boot.released = false → s.regsWf = true →
    ∃ u, exec (.headsRelease ⟨perst, refclk⟩) s = .next (settle u) ∧ u.boot.released = true ∧ u.pins.perst = perst ∧ u.pins.refclk = refclk ∧
      u.rdR .f0 R.BOOT_STAT_PHASE = 7) ∧
  (∀ (ms : Nat) (s : State), s.phase s.senior = 7 → s.atSpeed = true → s.headsLoaded = true → s.tablesLost = true →
    exec (.startReady ms) s = .next (settle (startFail [15] (wrAll R.XLAT_STAT_STATE 0xF (raiseAll 0x061 [] s))))) ∧
  (∀ (ms : Nat) (s : State), s.phase s.senior = 7 → s.atSpeed = true → s.headsLoaded = true → s.tablesLost = false →
    ∃ v w, v = startPorts (startTurning (inStep (fun d t => raise d 0x024 [ms] t) w)) ∧ w.boot.restarting = false ∧ w.boot.portsOff = false ∧
      exec (.startReady ms) s = .next (settle (if v.boot.trial then
          writeHeader { v.boot.hdr with active := (v.boot.hdr.pending.getD v.boot.hdr.active), pending := none, tries := 0 } .commit v
        else if v.boot.slot = some v.boot.hdr.active ∧ v.fuses.svn < v.rdR .f0 R.BOOT_STAT_SVN then
          v.rinds.foldl (fun t d => t.wrR d R.BOOT_FUSE_SVNFUSE (min 127 (max v.fuses.svn (v.rdR .f0 R.BOOT_STAT_SVN))))
            { v with fuses := { v.fuses with svn := min 127 (max v.fuses.svn (v.rdR .f0 R.BOOT_STAT_SVN)) } }
        else v))) ∧
  (∀ s : State, 1 ≤ s.phase .f0 → s.phase .f0 ≤ 7 → s.spState ≠ spCooking → s.pins.sagPause = false → exec .startWatchdogExpire s = .next (settle (startFail [s.phase .f0] s))) ∧
  (∀ s : State, s.phase .f0 = 0xD →
      s.budget.diodes.all (fun p => decide (p.2 < (s.threshold p.1 2).1 - (s.threshold p.1 2).2)) = true → s.regsWf = true →
    ∃ t, exec .thermalWaitEnd s = .next t ∧ t.rdR .f0 R.BOOT_STAT_PHASE = 1 ∧ t.budget.shut = [] ∧ t.budget.hot = [] ∧ t.cmds = s.cmds)

/-- R12, R13, R111, R119, R122, R123: the set-up space. A word that the requester may write goes into the register of every serving die as its access codes
and clamps say, and no other register changes; one it may not write is discarded with its log. A read returns the readable fields and clears counters. The
rennet sequence arms one requester and opens the page of one block; an arming lapses. -/
def Obligations.SetupSpaceAccess : Prop :=
  (∀ (d : RSlot) (r : Requester) (addr : Nat) (v : Word) (rd : RegDef) (s n : State), n = newStep 0x03 0 0 s → s.hasRind d = true → s.regsWf = true →
      n.fenced d = false → n.mayWrite d r addr = true → addr % 4 = 0 → addr / 0x10000 ∈ [5, 6, 8, 9, 10] → addr % 0x10000 < 0x7FF0 → regDef d.code addr = some rd →
    ∃ u, exec (.setupWrite d r addr 4 v) s = .next (settle u) ∧
      (∀ e ∈ n.serving, u.word (regKey e.code addr) = storeWord n.part n.ilimTop (n.rdR e R.BUDGET_WAT_HIWAT) rd (n.word (regKey e.code addr)) v) ∧
      (∀ k, (∀ e ∈ n.serving, k ≠ regKey e.code addr) → u.word k = n.word k) ∧ u.out = n.out ∧ u.cmds = n.cmds ∧ u.f0 = n.f0 ∧ u.flash = n.flash) ∧
  (∀ (d : RSlot) (r : Requester) (addr : Nat) (v : Word) (s n : State), n = newStep 0x03 0 0 s → s.hasRind d = true → n.fenced d = false →
      n.mayWrite d r addr = false → addr % 4 = 0 → 0x20000 ≤ addr →
    exec (.setupWrite d r addr 4 v) s = .next (settle (inStep (fun e t => raise e 0x034 [addr] t) n))) ∧
  (∀ (d : RSlot) (r : Requester) (addr : Nat) (rd : RegDef) (s : State), s.hasRind d = true → s.regsWf = true → addr % 4 = 0 → addr < 0x100000 →
      addr % 0x10000 ≠ 0x7FF4 → addr % 0x10000 ≠ 0x7FF0 → regDef d.code addr = some rd →
    ∃ u, exec (.rcRead d r addr 4) s = .next (settle u) ∧ u.out = .word (readWord rd (s.liveWord d addr (s.word (regKey d.code addr)))) :: s.out ∧
      u.word (regKey d.code addr) = afterRead rd (s.word (regKey d.code addr)) ∧ (∀ k, k ≠ regKey d.code addr → u.word k = s.word k) ∧ u.cmds = s.cmds) ∧
  (∀ (d : RSlot) (r : Requester) (addr g off : Nat) (s : State), s.hasRind d = true → addr % 4 = 0 → curdWindow addr = some (g, off) → s.hasCurd g = true →
      (s.fvEnd (.rind d g)).down = false →
    exec (.rcRead d r addr 4) s = .next (settle (sendMsg (.rind d g) 3 0 [BitVec.ofNat 32 (0x02000000 + off), BitVec.ofNat 32 (r.code d)] s))) ∧
  (∀ (d : RSlot) (r : Requester) (addr width : Nat) (v : Word) (s : State), s.hasRind d = true → width ≠ 4 →
    exec (.setupWrite d r addr width v) s = .next (settle (raise d 0x034 [addr] s))) ∧
  (∀ (d : RSlot) (r : Requester) (addr width : Nat) (s : State), s.hasRind d = true → width ≠ 4 →
    exec (.rcRead d r addr width) s = .next (settle ((raise d 0x034 [addr] s).emit (.word (BitVec.allOnes 32))))) ∧
  (∀ (d : RSlot) (r : Requester) (addr : Nat) (s n : State), n = (if addr < 0x20000 then s else newStep 0x03 0 0 s) → s.hasRind d = true → addr < 0x100000 →
      n.fenced d = false → n.setupRight d r = 2 →
    ∃ u, exec (.unlockWrite d r addr 0xC0A6) s = .next (settle u) ∧ (∀ e ∈ n.targets d addr, ((d, r), unlockKey addr, n.now) ∈ (u.rind e).arms) ∧ u.regs = n.regs ∧
      u.out = n.out ∧ u.cmds = n.cmds) ∧
  (∀ (d : RSlot) (r : Requester) (addr : Nat) (s : State), s.hasRind d = true → s.fenced d = false → s.setupRight d r = 2 → addr < 0x20000 →
      s.armed d d r addr = true →
    ∃ v, blockOf addr ∈ (v.rind d).opened ∧ v.armed d d r addr = false ∧ v.regs = s.regs ∧
      exec (.unlockWrite d r addr 0x3F59) s = .next (settle (raise d 0x033 [unlockKey addr + 0x7FF0, r.code d] v))) ∧
  (∀ (d : RSlot) (r : Requester) (addr : Nat) (s : State), addr < 0x100000 →
    ∃ t, exec (.unlockArmLapse d r addr) s = .next t ∧ (∀ e ∈ s.targets d addr, t.armed e d r addr = false) ∧ t.regs = s.regs ∧
      t.out = s.out ∧ t.cmds = s.cmds ∧ t.f0.opened = s.f0.opened) ∧
  (∀ (d : RSlot) (r : Requester) (addr g off : Nat) (s : State), curdWindow addr = some (g, off) →
    exec (.unlockArmLapse d r addr) s =
      .next (s.modCurd g (fun c => { c with arms := c.arms.filter (fun a => ! decide (a.1 = r.code d ∧ a.2.1 = off / 0x10000)) })))

/-- R108, R109, R152, R153, R159: the set-up writes of domains, ports and status lines. -/
def Obligations.SetupRowsOfPorts : Prop :=
  (∀ (d : RSlot) (r : Requester) (dom : Nat) (v old new : Word) (rd : RegDef) (s n : State), n = newStep 0x03 0 0 s → s.hasRind d = true → dom < 16 →
      s.regsWf = true → n.fenced d = false → n.mayWrite d r (0x20100 + 16 * dom) = true → regDef d.code (0x20100 + 16 * dom) = some rd →
      regDef n.senior.code (0x20100 + 16 * dom) = some rd → old = n.word (regKey n.senior.code (0x20100 + 16 * dom)) →
      new = storeWord n.part n.ilimTop 0 rd old v → (R.LINK_DOMCFG_EN dom).get old = 0 → (R.LINK_DOMCFG_EN dom).get new = 0 →
    ∃ u, exec (.domcfgWrite d r dom v) s = .next (settle u) ∧ (∀ e ∈ n.serving, u.word (regKey e.code (0x20100 + 16 * dom)) = new) ∧
      (∀ k, (∀ e ∈ n.serving, k ≠ regKey e.code (0x20100 + 16 * dom)) → u.word k = n.word k) ∧ u.out = n.out ∧ u.cmds = n.cmds) ∧
  (∀ (d : RSlot) (r : Requester) (port : Nat) (v old new : Word) (rd : RegDef) (s n t : State), n = newStep 0x03 0 0 s → s.hasRind d = true → port < 256 →
      n.fenced d = false → n.mayWrite d r (0x30000 + 64 * port) = true → regDef d.code (0x30000 + 64 * port) = some rd →
      old = n.word (regKey n.senior.code (0x30000 + 64 * port)) → new = storeWord n.part 0 0 rd old ((R.PORT_CFG_EN 0).put 1 v) →
      (R.PORT_CFG_EN port).get old = 0 → ((R.PORT_CFG_ADMIN port).get old = 1 ∨ n.adminRuns ((R.PORT_CFG_DOMAIN port).get old) = true) →
      new = (R.PORT_CFG_EN port).put 1 old → n.portState port = 0 →
      t = n.serving.foldl (fun t e => t.setWord (regKey e.code (0x30000 + 64 * port)) new) n → t.isReady = true →
    exec (.portEnable d r port v) s = .next (settle (enablePort port t))) ∧
  (∀ (d : RSlot) (r : Requester) (port : Nat) (v old new : Word) (rd : RegDef) (s n t : State), n = newStep 0x03 0 0 s → s.hasRind d = true → port < 256 →
      n.fenced d = false → n.mayWrite d r (0x30000 + 64 * port) = true → regDef d.code (0x30000 + 64 * port) = some rd →
      old = n.word (regKey n.senior.code (0x30000 + 64 * port)) → new = storeWord n.part 0 0 rd old ((R.PORT_CFG_EN 0).put 0 v) →
      (R.PORT_CFG_EN port).get old = 1 → new = (R.PORT_CFG_EN port).put 0 old →
      ((R.PORT_CFG_ADMIN port).get old = 0 ∨
        ∀ q < 256, q ≠ port → n.rdS (R.PORT_CFG_EN q) = 1 → n.portDomain q ≠ (R.PORT_CFG_DOMAIN port).get old) →
      t = n.serving.foldl (fun t e => t.setWord (regKey e.code (0x30000 + 64 * port)) new) n →
    exec (.portDisable d r port v) s = .next (settle (disablePort port t))) ∧
  (∀ (d : RSlot) (r : Requester) (dom : Nat) (hi : Bool) (v : Word) (rd : RegDef) (s n : State), n = newStep 0x03 0 0 s → s.hasRind d = true → dom < 16 →
      n.fenced d = false → n.mayWrite d r (0x34000 + 16 * dom + 4 * bit hi) = true → regDef d.code (0x34000 + 16 * dom + 4 * bit hi) = some rd →
    exec (.statusLineAddressWrite d r dom hi v) s = .next (settle (lineMoved dom (n.lineOn dom, n.lineAddr dom) (n.serving.foldl (fun t e =>
      t.setWord (regKey e.code (0x34000 + 16 * dom + 4 * bit hi))
        (storeWord n.part 0 0 rd (n.word (regKey n.senior.code (0x34000 + 16 * dom + 4 * bit hi))) v)) n))))

/-- R437, R440, R509, R516, R547, R555, R561: the set-up writes that have a row of their own act on every serving die, at the input's step. -/
def Obligations.SetupRowsOfUnits : Prop :=
  (∀ (d : RSlot) (r : Requester) (v : Word) (s n : State), n = newStep 0x03 0 0 s → s.hasRind d = true → n.fenced d = false → n.mayWrite d r 0x78000 = true →
      n.pageOpen d 0x78000 = true →
    exec (.caveEnable d r v) s = .next (settle (inStep (fun e t =>
      if t.bitR e R.CAVE_STAT_INVDONE ∨ t.caveOn e then caveEnableNow e t else raise e 0x034 [0x78000] t) n))) ∧
  (∀ (d : RSlot) (r : Requester) (sp : Bool) (s n : State), n = newStep 0x03 0 0 s → s.hasRind d = true → n.fenced d = false → n.mayWrite d r 0x78004 = true →
      n.pageOpen d 0x78004 = true → s.regsWf = true → (∀ e ∈ n.serving, n.bitR e R.CAVE_STAT_BUSY = false) →
    exec (.caveInv d r sp) s =
        .next (settle (inStep (fun e t => maintStart e 1 sp ((t.wrR e R.CAVE_MAINT_OP 1).wrR e R.CAVE_MAINT_SPARE_LOCKED (bit sp))) n)) ∧
    exec (.caveClean d r sp) s =
        .next (settle (inStep (fun e t => maintStart e 2 sp ((t.wrR e R.CAVE_MAINT_OP 2).wrR e R.CAVE_MAINT_SPARE_LOCKED (bit sp))) n)) ∧
    exec (.caveCleaninv d r sp) s =
        .next (settle (inStep (fun e t => maintStart e 3 sp ((t.wrR e R.CAVE_MAINT_OP 3).wrR e R.CAVE_MAINT_SPARE_LOCKED (bit sp))) n))) ∧
  (∀ (d : RSlot) (r : Requester) (s n : State), n = newStep 0x03 0 0 s → n.part.f = 2 → s.hasRind d = true → n.fenced d = false → n.mayWrite d r 0xB8004 = true →
      n.pageOpen d 0xB8004 = true →
    exec (.stepTurnnow d r) s = .next (settle (proposeTurning n)) ∧ exec (.stepResync d r) s = .next (settle (startResync n))) ∧
  (∀ (d : RSlot) (r : Requester) (s n : State), n = newStep 0x03 0 0 s → s.hasRind d = true → n.fenced d = false → n.mayWrite d r 0xD0030 = true →
    exec (.faultUnlatch d r) s = .next (settle (inStep unlatch n)) ∧ exec (.faultAbandon d r) s = .next (settle (abandonCloseOut n))) ∧
  (∀ (d : RSlot) (r : Requester) (s n : State), n = newStep 0x03 0 0 s → s.hasRind d = true → s.regsWf = true → n.fenced d = false → n.mayWrite d r 0xE0004 = true →
    (∃ u, exec (.logFreeze d r) s = .next (settle u) ∧
      ∀ e ∈ n.serving, u.rdR e R.LOG_CTL_FREEZE = 1 ∧ u.rdR e R.LOG_STAT_FROZEN = 1 ∧ (u.rind e).island.frozenAt = s.now) ∧
    (∃ u, exec (.logUnfreeze d r) s = .next (settle u) ∧ ∀ e ∈ n.serving, u.rdR e R.LOG_CTL_FREEZE = 0 ∧ u.rdR e R.LOG_STAT_FROZEN = 0))

/-- R568: fault injection, on the open expert page. Arming marks every serving die used and raises source 0x0C5; with ARM already set, GO plants the error
of its mode on the die named; planting acts by the mode and the target. -/
def Obligations.FaultInjection : Prop :=
  (∀ (d : RSlot) (r : Requester) (v : Word) (s n : State), n = newStep 0x03 0 0 s → s.hasRind d = true → n.fenced d = false → n.mayWrite d r 0xD8010 = true →
      n.pageOpen d 0xD8010 = true → n.bitR n.senior R.FAULT_INJ_ARM = false → R.FAULT_INJ_GO.get v = 0 →
    exec (.faultInjArm d r v) s = .next (settle (inStep (fun e t => (raise e 0x0C5 [] ((((t.wrR e R.FAULT_INJ_ARM 1).wrR e R.FAULT_INJ_DIE
      (R.FAULT_INJ_DIE.get v)).wrR e R.FAULT_INJ_MODE (R.FAULT_INJ_MODE.get v)).wrR e R.FAULT_INJ_SOURCE (R.FAULT_INJ_SOURCE.get v))).wrR e R.FAULT_INJ_USED 1) n))) ∧
  (∀ (d : RSlot) (r : Requester) (v : Word) (s n : State), n = newStep 0x03 0 0 s → s.hasRind d = true → n.fenced d = false → n.mayWrite d r 0xD8010 = true →
      n.pageOpen d 0xD8010 = true → n.bitR n.senior R.FAULT_INJ_ARM = true → R.FAULT_INJ_DIE.get v = 0 → .f0 ∈ n.serving → s.regsWf = true →
    (∃ w, w.rdR .f0 R.FAULT_INJ_MODE = 1 ∧ w.f0 = n.f0 ∧ w.out = n.out ∧ exec (.faultInjRaise d r v) s = .next (settle (plant .f0 w))) ∧
    (∃ w, w.rdR .f0 R.FAULT_INJ_MODE = 2 ∧ w.f0 = n.f0 ∧ w.out = n.out ∧ exec (.faultInjCaveParity d r v) s = .next (settle (plant .f0 w))) ∧
    (∃ w, w.rdR .f0 R.FAULT_INJ_MODE = 3 ∧ w.f0 = n.f0 ∧ w.out = n.out ∧ exec (.faultInjWithholdAck d r v) s = .next (settle (plant .f0 w))) ∧
    (∃ w, w.rdR .f0 R.FAULT_INJ_MODE = 4 ∧ w.f0 = n.f0 ∧ w.out = n.out ∧ exec (.faultInjFinvikCrc d r v) s = .next (settle (plant .f0 w))) ∧
    (∃ w, w.rdR .f0 R.FAULT_INJ_MODE = 5 ∧ w.f0 = n.f0 ∧ w.out = n.out ∧ exec (.faultInjDramSymbol d r v) s = .next (settle (plant .f0 w)))) ∧
  (∀ (d : RSlot) (s : State),
    (s.rdR d R.FAULT_INJ_MODE = 1 → s.rdR d R.FAULT_INJ_SOURCE < 0x100 → plant d s = raise d (s.rdR d R.FAULT_INJ_SOURCE) [] s) ∧
    (s.rdR d R.FAULT_INJ_MODE = 4 → plant d s = s.modEnd (.rind d (s.rdR d R.FAULT_INJTGT_TARGET % 8)) (fun e => { e with corruptNext := true })) ∧
    (s.rdR d R.FAULT_INJ_MODE = 5 → plant d s = plantSymbol d (16 * s.rdR d R.FAULT_INJTGT_TARGET) s))

/-- R118, R124 to R126: the sideband and the Curd windows. The sideband's word access reads or writes at its address and moves it on by four; what the core
does not answer returns all ones with result 1; at an address that is no die's nothing happens. A Curd die answers a read with the register's word and stores a write. -/
def Obligations.SidebandAndCurdWindow : Prop :=
  (∀ (a : Nat) (d : RSlot) (addr : Word) (s : State), s.sbDie a = some d →
    ∃ t, exec (.sbSetAddress a true addr) s = .next t ∧ (t.rind d).sb.addr = addr.toNat / 4 * 4 ∧ t.regs = s.regs ∧ t.out = s.out ∧ t.cmds = s.cmds) ∧
  (∀ (b : Nat) (d : RSlot) (rd : RegDef) (a : Nat) (s : State), s.sbDie b = some d → (s.rind d).sb.addr = a → islandServed a = true → a % 0x10000 < 0x7FF0 →
      regDef d.code a = some rd →
    ∃ u, exec (.sbReadWord b true) s = .next (settle u) ∧ (u.rind d).sb.addr = a + 4 ∧ (u.rind d).sb.result = 0 ∧
      u.out = .word (readWord rd (s.liveWord d a (s.word (regKey d.code a)))) :: s.out) ∧
  (∀ (b : Nat) (d : RSlot) (s : State), s.sbDie b = some d → islandServed (s.rind d).sb.addr = false → s.coreUp d = false →
    ∃ t, exec (.sbReadWord b true) s = .next t ∧ (t.rind d).sb.waiting = some (false, 0) ∧ (t.rind d).sb.addr = (s.rind d).sb.addr ∧ t.regs = s.regs ∧ t.out = s.out) ∧
  (∀ (b : Nat) (pec : Bool) (v : Word) (s : State), s.sbDie b = none →
    exec (.sbSetAddress b pec v) s = .next s ∧ exec (.sbReadWord b pec) s = .next s ∧ exec (.sbWriteWord b pec v) s = .next s ∧ exec (.sbReadResult b pec) s = .next s) ∧
  (∀ (b : Nat) (d : RSlot) (v : Word) (s : State), s.sbDie b = some d → (s.coreUp d || islandWrites (s.rind d).sb.addr) = true →
    ∃ u, exec (.sbWriteWord b true v) s = .next (settle u) ∧ (u.rind d).sb.addr = ((s.rind d).sb.addr + 4) % 2 ^ 32 ∧
      (u.rind d).sb.result = (setupWrite d .sideband (s.rind d).sb.addr 4 v s).2 ∧ u.regs = (setupWrite d .sideband (s.rind d).sb.addr 4 v s).1.regs) ∧
  (∀ (b : Nat) (d : RSlot) (s : State), s.sbDie b = some d → exec (.sbReadResult b true) s = .next { s with out := .byte (s.rind d).sb.result :: s.out }) ∧
  (∀ (d : RSlot) (n : Nat) (s : State), (s.rind d).sb.waiting = some (false, n) →
    ∃ t, exec (.sbCoreTimeout d) s = .next t ∧ (t.rind d).sb.result = 1 ∧ (t.rind d).sb.waiting = none ∧ (t.rind d).sb.data = 0xFFFFFFFF ∧
      t.out = .word (BitVec.allOnes 32) :: s.out ∧ t.regs = s.regs) ∧
  (∀ (d : RSlot) (g off : Nat) (v : Word) (s : State), s.hasCurd g = true → s.hasRind d = true → off < 0x100000 → off % 4 = 0 →
      (takeAccess g d true (isAccess true off v) s).1 = true →
    exec (.curdSetupAccess d g true off v) s =
      .next (settle (curdWrite g (s.accessCode g d (isAccess true off v)) off v (takeAccess g d true (isAccess true off v) s).2))) ∧
  (∀ (d : RSlot) (g off : Nat) (v : Word) (s n : State), n = (takeAccess g d false (isAccess false off v) s).2 →
      s.hasCurd g = true → s.hasRind d = true → off < 0x100000 → off % 4 = 0 →
    ∃ u, exec (.curdSetupAccess d g false off v) s = .next (settle u) ∧ u.out.head? = some (.word (curdRead g (s.accessCode g d (isAccess false off v)) off n).1))

/-- R144 to R151: doorbell lines. SQTAIL and CQHEAD lie in the first and the third two bytes of a line. A die that loses a line reads it again; the senior's values are applied at the input's step, a junior's are discarded; values in
range become SQTAIL and CQHEAD, and those out of range, like a read that is never answered, put the port into ERROR with their cause. -/
def Obligations.DoorbellLines : Prop :=
  (∀ (d : RSlot) (p : Nat) (s : State), d ∈ (s.portX p).line → s.fenced d = false →
    exec (.doorbellSnoop d p) s = .next (readLineOf d p (modPort p (fun x => { x with line := x.line.erase d }) s))) ∧
  (∀ (d : RSlot) (p h : Nat) (s : State), s.headOf d (s.portDomain p) = some h →
    d ∈ ((readLineOf d p s).portX p).reading ∧ (readLineOf d p s).out = .hostRead d h (s.dbAddr p) 64 :: s.out ∧ (readLineOf d p s).regs = s.regs) ∧
  (∀ (a b : Nat) (x y : List Byte), a < 65536 → b < 65536 → x.length = 2 → doorbellLine (natLe 2 a ++ x ++ natLe 2 b ++ y) = (a, b)) ∧
  (∀ (d : RSlot) (p a b : Nat) (lo hi : List Byte) (s : State), d ∈ (s.portX p).reading → s.fenced d = false → doorbellLine (lo ++ hi) = (a, b) →
    ∃ v, (s.polled d p = false → d ∈ (v.portX p).line) ∧ (v.portX p).reading = (s.portX p).reading.erase d ∧ v.regs = s.regs ∧ v.cmds = s.cmds ∧ v.out = s.out ∧
      (d = s.senior → exec (.doorbellReadComplete d p lo hi) s = .next (settle (applyDoorbell p a b (newStep 0x01 p (a * 0x10000 + b) v)))) ∧
      (d ≠ s.senior → exec (.doorbellReadComplete d p lo hi) s = .next (settle v))) ∧
  (∀ (p a b : Nat) (s : State), s.portState p ≠ 0 → ¬ (a = s.rdS (R.PORT_STAT_SQTAIL p) ∧ b = s.rdS (R.PORT_OUT_CQHEAD p)) →
      (a < s.rdS (R.PORT_SIZE_SQSIZE p) → b < s.rdS (R.PORT_SIZE_CQSIZE p) →
        (b + s.rdS (R.PORT_SIZE_CQSIZE p) - s.rdS (R.PORT_OUT_CQHEAD p)) % s.rdS (R.PORT_SIZE_CQSIZE p) ≤ s.cqUsed p →
        applyDoorbell p a b s = pumpPort p (releaseSlots p b (wrAll (R.PORT_STAT_SQTAIL p) a (incAll (R.PORT_DBCNT_RINGS p) 1 s)))) ∧
      (s.rdS (R.PORT_SIZE_SQSIZE p) ≤ a → b < s.rdS (R.PORT_SIZE_CQSIZE p) →
        (b + s.rdS (R.PORT_SIZE_CQSIZE p) - s.rdS (R.PORT_OUT_CQHEAD p)) % s.rdS (R.PORT_SIZE_CQSIZE p) ≤ s.cqUsed p →
        applyDoorbell p a b s = pumpPort p (releaseSlots p b (portError p 1 (incAll (R.PORT_DBCNT_RINGS p) 1 s)))) ∧
      (a < s.rdS (R.PORT_SIZE_SQSIZE p) → s.rdS (R.PORT_SIZE_CQSIZE p) ≤ b →
        applyDoorbell p a b s = pumpPort p (portError p 2 (wrAll (R.PORT_STAT_SQTAIL p) a (incAll (R.PORT_DBCNT_RINGS p) 1 s))))) ∧
  (∀ (d : RSlot) (p : Nat) (s : State), p < 256 → d ∈ s.serving → s.portState p ≠ 0 → s.polled d p = true → d ∉ (s.portX p).reading →
    exec (.doorbellPoll d p) s = .next (readLineOf d p s)) ∧
  (∀ (d : RSlot) (s : State), d ∈ s.serving →
    ∃ t, exec (.doorbellBackstop d) s = .next t ∧ t.regs = s.regs ∧ t.cmds = s.cmds ∧ t.f0 = s.f0 ∧
      (∀ p < 256, d ∈ (s.portX p).line → (s.headOf d (s.portDomain p)).isSome = true → d ∈ (t.portX p).reading)) ∧
  (∀ (d : RSlot) (p : Nat) (s : State), d ∈ (s.portX p).reading → d = s.senior → s.fenced d = false →
    exec (.doorbellReadTimeout d p) s = .next (settle (portError p 3 (newStep 0x08 p 3 (endRead d p s))))) ∧
  (∀ (d : RSlot) (p : Nat) (s : State), d ∈ (s.portX p).reading → d ≠ s.senior →
    exec (.doorbellReadTimeout d p) s = .next (settle (endRead d p s))) ∧
  (∀ (p c : Nat) (s : State), s.portState p = 1 →
    portError p c s = raiseAll 0x040 [p, c] (wrAll (R.PORT_STAT_ERRCAUSE p) c (wrAll (R.PORT_STAT_STATE p) 3 s)))

/-- R131, R132, R134, R143, R150, R156 to R159, R203: a grant takes the burst's descriptors into the outstanding table in order; an unanswered fetch is cause 4; a
status line is written with its next LSEQ, by a fenced die its die word alone; a rewrite pass writes again each unreleased entry of the enabled ports of the domains that the die has become the sole writer of. -/
def Obligations.FetchesAndStatusLines : Prop :=
  (∀ (descs : List (List Byte)) (p : Nat) (pos : Option Nat) (x : Sched) (s : State), s.arbitrate = some (p, pos, x) → descs.length = s.burst p →
      (∀ b ∈ descs, b.length = 64) →
    ∃ u new, exec (.fetchGrant descs) s = .next (settle u) ∧ u.cmds = s.cmds ++ new ∧ new.map Cmd.desc = descs ∧
      (∀ c ∈ new, c.port = p ∧ c.phase = .fetched ∧ c.tag = leNat ((c.desc.drop 2).take 2) ∧ s.nextUid ≤ c.uid) ∧
      u.nextUid = s.nextUid + descs.length ∧ (pos = none → u.sched = x) ∧ u.flash = s.flash ∧ u.versions = s.versions) ∧
  (∀ (d : RSlot) (p : Nat) (s : State), d = s.senior → d ∈ s.serving → s.portEligible p = true →
    exec (.descriptorFetchTimeout d p) s = .next (settle (portError p 4 (newStep 0x08 p 4 s)))) ∧
  (∀ (d : RSlot) (p : Nat) (s : State), d ≠ s.senior → exec (.descriptorFetchTimeout d p) s = .next (settle s)) ∧
  (∀ (d : RSlot) (dom : Nat) (s : State), s.hasRind d = true → dom < 16 → s.fenced d = false → s.lineOn dom = true →
    ∃ t, exec (.statusLineUpdate d dom) s = .next t ∧ (t.lineOf dom).lseq = ((s.lineOf dom).lseq + 1) % 2 ^ 32 ∧ t.regs = s.regs ∧ t.cmds = s.cmds ∧
      (s.part.f = 1 → s.headOf .f0 dom ≠ none → ∃ h, t.out = .hostWrite .f0 h (s.lineAddr dom)
        (s.commonPart dom (((s.lineOf dom).lseq + 1) % 2 ^ 32) ++ s.dieWord .f0 (((s.lineOf dom).dwseq0 + 1) % 2 ^ 32)) :: s.out)) ∧
  (∀ (d : RSlot) (dom : Nat) (s : State), s.hasRind d = true → dom < 16 → s.fenced d = true →
    exec (.statusLineUpdate d dom) s = .next (writeDieWord d dom s)) ∧
  (∀ (d : RSlot) (dom : Nat) (s : State), s.hasRind d = true → dom < 16 → s.fenced d = false → s.lineOn dom = false →
    exec (.statusLineUpdate d dom) s = .next s) ∧
  (∀ (d : RSlot) (s : State), d ∈ s.serving →
    ∃ t, exec (.rewritePass d) s = .next t ∧ t.regs = s.regs ∧ t.cmds = s.cmds ∧
      (∀ x ∈ (s.rind d).sole, ∀ p < 256, s.portState p ≠ 0 → s.portDomain p = x.1 → ∀ h, s.headOf d x.1 = some h → ∀ e ∈ (s.portX p).slots,
        .hostWrite d h (s.cqBase p + 16 * e.1) e.2 ∈ t.out))

/-- R166 to R189, R209, R212, R213, R216, R217, R219: admission of I/O commands. The next command of the port's row that passes every check is admitted; a WRITE, an
APPEND and a COPY make the versions of their blocks; a command that fails a check completes with the check's status, and one of no opcode with INVALID_OPCODE. -/
def Obligations.CommandAdmission : Prop :=
  (∀ (p : Nat) (c : Cmd) (s : State), s.Ready p c →
    (c.op = 1 → ∃ u, exec (.read p) s = .next (settle (workArrived u)) ∧ Admitted c s u ∧ u.versions = s.versions) ∧
    (c.op = 8 → ∃ u, exec (.winmap p) s = .next (settle (workArrived u)) ∧ Admitted c s u ∧ u.versions = s.versions) ∧
    (c.op = 2 → ∃ u new, exec (.write p) s = .next (settle (workArrived u)) ∧ Admitted c s u ∧ u.versions = s.versions ++ new ∧
      new.map (fun x => (x.vol, x.blk)) = (List.range c.nblk).map (fun k => (c.vol, c.slba + k)) ∧
      (∀ x ∈ new, x.uid = c.uid ∧ x.port = c.port ∧ x.whole = false ∧ x.media = false)) ∧
    (c.op = 4 → ∃ u, exec (.fence p) s = .next (settle (workArrived u)) ∧ Admitted c s u ∧ u.versions = s.versions) ∧
    (c.op = 5 → ∃ u, exec (.flush p) s = .next (settle (workArrived u)) ∧ Admitted c s u ∧ u.versions = s.versions) ∧
    (c.op = 6 → ∃ u, exec (.trim p) s = .next (settle (workArrived u)) ∧ Admitted c s u) ∧
    (c.op = 7 → ∃ u, exec (.copy p) s = .next (settle (workArrived u)) ∧ Admitted c s u ∧ u.versions.length = s.versions.length + c.nblk)) ∧
  (∀ (p : Nat) (c : Cmd) (x : Volume) (s t v : State), s.Ready p c → c.op = 3 → s.xlat.t.vol? c.vol = some x →
      t = ringAdvance c.vol (x.wp + c.nblk) (c.nblk / 65536 + 2) s →
      openBands c.vol (x.wp / 65536) ((x.wp + c.nblk - 1) / 65536 - x.wp / 65536 + 1) t = some v →
    ∃ u, exec (.append p) s = .next (settle (workArrived u)) ∧ Admitted c s u ∧
      (∃ y ∈ u.cmds, y.uid = c.uid ∧ y.first = x.wp ∧ y.info = x.wp % 2 ^ 32) ∧ u.budget.appending = s.budget.appending + 4096 * c.nblk) ∧
  (∀ (p : Nat) (c t : Cmd) (s : State), s.Ready p c → c.op = 9 → s.cmdOf (c.fld 8 2) (c.fld 0xA 2) = some t → t.uid ≠ c.uid →
    ∃ u, exec (.abort p) s = .next (settle (workArrived u)) ∧
      (∃ x ∈ u.cmds, x.uid = c.uid ∧ x.phase = .admitted ∧ x.noted = [t.uid]) ∧
      (∃ x ∈ u.cmds, x.uid = t.uid ∧ x.fail = some (St.aborted, 0)) ∧ (∀ x ∈ u.versions, x.uid = t.uid → x.whole = true)) ∧
  (∀ (p : Nat) (c : Cmd) (s : State), s.Ready p c → c.op = 9 → s.cmdOf (c.fld 8 2) (c.fld 0xA 2) = none →
    exec (.abort p) s = .next (settle (workArrived (showSched (showPort p (complete c St.alreadyDone 0 (admitCmd c s))))))) ∧
  (∀ (p : Nat) (c : Cmd) (s : State), s.NextIs p c → c.op ∉ knownOps →
    exec (.invalidOpcode p) s = .next (settle (complete c St.invalidOpcode 0 s))) ∧
  (∀ (p st info : Nat) (c : Cmd) (s : State), s.NextIs p c → s.admission c = some (st, info) →
    (c.op = 1 → exec (.read p) s = .next (settle (workArrived (complete c st info s)))) ∧
    (c.op = 2 → exec (.write p) s = .next (settle (workArrived (complete c st info s)))) ∧
    (c.op = 3 → exec (.append p) s = .next (settle (workArrived (complete c st info s)))) ∧
    (c.op = 4 → exec (.fence p) s = .next (settle (workArrived (complete c st info s)))) ∧
    (c.op = 5 → exec (.flush p) s = .next (settle (workArrived (complete c st info s)))) ∧
    (c.op = 6 → exec (.trim p) s = .next (settle (workArrived (complete c st info s)))) ∧
    (c.op = 7 → exec (.copy p) s = .next (settle (workArrived (complete c st info s)))) ∧
    (c.op = 8 → exec (.winmap p) s = .next (settle (workArrived (complete c st info s)))) ∧
    (c.op = 9 → exec (.abort p) s = .next (settle (workArrived (complete c st info s)))))

/-- R136, R139, R176, R189, R208, R210, R221, R470, R549 to R553: the work of commands. A completion is generated as its conditions hold, with the port's next
sequence number; engines read records, take media operations and release hazards; a command that times out completes with DEVICE_RECOVERED, INFO 3. -/
def Obligations.CommandWorkAndCompletion : Prop :=
  (∀ (p tag st info : Nat) (c : Cmd) (s : State), s.cmdOf p tag = some c → s.outcome c = some (st, info) →
    exec (.generateCompletion p tag) s = .next (settle (inStep (fun d t => answerAny d 0x0A 2 (openReply 0x0A 2 [p, tag]) true t)
      (complete c st info (finish c st s))))) ∧
  (∀ (c : Cmd) (s : State), c.op = 1 → c.fail = none → c.phase = .admitted → c.flash = false → s.badOf c = [] → c.flag 1 = false → s.hazard c = false →
      movedAll c.moved (4096 * c.nblk) = true → s.outcome c = some (St.success, c.info)) ∧
  (∀ (c : Cmd) (st info : Nat) (s : State),
    ∃ v e, complete c st info s = pumpPort c.port (showSched (retire (freeReleased v))) ∧ v.cmds = s.cmds.filter (fun x => x.uid ≠ c.uid) ∧
      v.comps = s.comps ++ [e] ∧ e.port = c.port ∧ e.tag = c.tag ∧ e.status = st ∧ e.info = info % 2 ^ 32 ∧ e.sqidx = c.sqidx ∧
      e.seq = s.rdS (R.PORT_SEQ_NEXT c.port) ∧ e.slot = none ∧ v.versions = s.versions ∧ v.out = s.out) ∧
  (∀ (d : RSlot) (e p tag : Nat) (c : Cmd) (s : State), s.cmdOf p tag = some c →
    exec (.readCommandRecord d e p tag) s = .next (settle (reply (.rind d e) 0x0A 1 (openReply 0x0A 1 (c.desc.map BitVec.toNat)) true
      (modEng (.rind d e) (fun g => { g with held := c.uid :: g.held.filter (· ≠ c.uid) }) s)))) ∧
  (∀ (d : RSlot) (e p tag : Nat) (s : State), s.cmdOf p tag = none →
    exec (.readCommandRecord d e p tag) s = .next (settle (reply (.rind d e) 0x0A 1 (openReply 0x0A 1 []) false s))) ∧
  (∀ (g : Nat) (times : List Nat) (o : MediaOp) (s : State), s.groupActive g = true → s.nextMediaOp g times = some o →
    exec (.takeMediaOperation g times) s = .next (settle (inStep (fun d t => reply (.rind d g) 0x0B 1
      (openReply 0x0B 1 (o.uid :: o.rung :: o.blocks.map Prod.snd)) true t) (takeOp g o s)))) ∧
  (∀ (g : Nat) (o : MediaOp) (s : State), assocGet g 0 (takeOp g o s).xlat.worked = s.now ∧
    (o.write = true → ∀ x ∈ (takeOp g o s).versions, x.uid = o.uid → (x.vol, x.blk) ∈ o.blocks → x.taken = true)) ∧
  (∀ (p tag : Nat) (c : Cmd) (s : State), s.cmdOf p tag = some c →
    exec (.releaseHazard p tag) s = .next (settle (inStep (fun d t => answerAny d 0x0B 2 (openReply 0x0B 2 []) true t)
      (showSched (retire (modCmd c.uid (fun x => { x with freed := true }) s)))))) ∧
  (∀ (p tag : Nat) (c : Cmd) (unit : Option RUnit) (s : State), s.cmdOf p tag = some c → c.phase = .admitted →
    ∃ v w, v.cmds = s.cmds ∧ v.versions = s.versions ∧ v.comps = s.comps ∧
      w = inStep (fun d t => raise d 0x0C1 [p, tag] (useRung d 3 t)) (recoverCmd c 3 v) ∧
      exec (.commandTimeout p tag unit) s = .next (settle (match unit with
        | some u => inStep (fun d t => nameUnit d u t) w
        | none => w))) ∧
  (∀ (c : Cmd) (info : Nat) (s : State), c.fail ≠ some (St.aborted, 0) → recoverCmd c info s = complete c St.deviceRecovered info (endVersions c s))

/-- R188, R192 to R195, R563, R569, R570: the admin commands that report. The structures, pages and values go to host memory, and INFO says how much. -/
def Obligations.AdminReports : Prop :=
  (∀ (p : Nat) (c : Cmd) (s : State), s.Ready p c →
    (c.op = 0x80 → exec (.identify p) s = .next (settle (showSched (showPort p (finishAt c St.success 0
      (toHost c (c.fld 0x10 8) (if c.fld 8 1 = 0 then s.deviceStructure else s.volumeStructure (c.fld 0xA 2)) s)))))) ∧
    (c.op = 0x82 → exec (.getFeatures p) s = .next (settle (showSched (showPort p (finishAt c St.success
      (leNat ((s.featureValue (c.fld 8 1) (c.fld 0xA 2) (c.fld 9 1)).take 4))
      (if c.fld 0x30 8 = 0 then s else toHost c (c.fld 0x30 8) (s.featureValue (c.fld 8 1) (c.fld 0xA 2) (c.fld 9 1)) s)))))) ∧
    (∀ (l data : List Byte), c.op = 0x81 → l = (if c.fld 8 1 = 1 then s.logPage else if c.fld 8 1 = 2 then s.faultPage else if c.fld 8 1 = 3 then s.tallyPage else s.slotPage) →
      data = (l.drop ((if c.fld 8 1 = 1 then 64 else 1) * c.fld 0x10 8)).take (c.fld 0xC 4) →
      exec (.getLog p) s = .next (settle (showSched (showPort p (finishAt c St.success data.length
        (if data = [] then s else toHost c (c.fld 0x18 8) data s))))))) ∧
  (∀ s : State, s.deviceStructure.length = 4096) ∧ (∀ (v : Nat) (s : State), (s.volumeStructure v).length = 4096) ∧
  (∀ s : State, s.slotPage.length = 64) ∧ (∀ r : LogRec, r.bytes.length = 64) ∧
  (∀ (p st info : Nat) (c : Cmd) (s : State), s.NextIs p c → s.admission c = some (st, info) →
    (c.op = 0x80 → exec (.identify p) s = .next (settle (complete c st info s))) ∧
    (c.op = 0x81 → exec (.getLog p) s = .next (settle (complete c st info s))) ∧
    (c.op = 0x82 → exec (.getFeatures p) s = .next (settle (complete c st info s))))

/-- R84, R190, R195, R198, R199, R547: SET_FEATURES. Without SAVE the value applies at once; with it, the settings copy that is not in use is written first, and a
good read-back makes it the one in use. With the owner key programmed a SAVE is SETTINGS_LOCKED. FAULTCLR unlatches. -/
def Obligations.SettingFeatures : Prop :=
  (∀ (p : Nat) (c : Cmd) (s : State), s.Ready p c → c.op = 0x83 →
    (c.fld 8 1 = 1 → exec (.setFeaturesPowercap p) s = .next (settle (showSched (showPort p (setFields c s))))) ∧
    (c.fld 8 1 = 2 → exec (.setFeaturesThermal p) s = .next (settle (showSched (showPort p (setFields c s))))) ∧
    (c.fld 8 1 = 3 → exec (.setFeaturesTurning p) s = .next (settle (showSched (showPort p (setFields c s))))) ∧
    (c.fld 8 1 = 4 → exec (.setFeaturesWindow p) s = .next (settle (showSched (showPort p (setFields c s))))) ∧
    (c.fld 8 1 = 5 → exec (.setFeaturesRide p) s = .next (settle (showSched (showPort p (setFields c s))))) ∧
    (c.fld 8 1 = 6 → exec (.setFeaturesFaultsev p) s = .next (settle (showSched (showPort p (setFields c s))))) ∧
    (c.fld 8 1 = 7 → exec (.setFeaturesFaultclr p) s = .next (settle (showSched (showPort p (finishAt c St.success 0 (inStep unlatch s))))))) ∧
  (∀ (c : Cmd) (s : State),
    (c.flag 6 = false → ∃ vals prev, vals.map Prod.fst = (featureFields (c.fld 8 1) (c.fld 0xA 2)).map (fun x => x.2.2) ∧
      setFields c s = finishAt c St.success prev (applyVals vals s)) ∧
    (c.flag 6 = true → s.fuses.ownerKey = true → setFields c s = finishAt c St.settingsLocked 0 s) ∧
    (c.flag 6 = true → s.flashStop true = none → s.flash.op = none →
      ∃ st vals, (setFields c s).flash.op = some (.settings (1 - s.boot.setCopy) st vals c.port c.tag false) ∧ st.sseq = (s.boot.sseq + 1) % 2 ^ 32 ∧
        (setFields c s).regs = s.regs ∧ (c.fld 8 1 = 4 → vals = []) ∧ (setFields c s).boot = s.boot)) ∧
  (∀ (v : Nat) (s : State), s.regsWf = true → ∀ d ∈ s.serving, (applyVals [(R.BUDGET_CAP_PCAP, v)] s).rdR d R.BUDGET_CAP_PCAP = v % 2 ^ (R.BUDGET_CAP_PCAP.hi + 1 - R.BUDGET_CAP_PCAP.lo)) ∧
  (∀ (k : Nat) (st : Settings) (vals : List (Fld × Nat)) (port tag : Nat) (again : Bool) (s : State), s.flash.op = some (.settings k st vals port tag again) →
      s.xlat.pendingVol = none → s.flash.sagged = false →
    ∃ v, v.boot.records = st.records ∧ v.boot.setCopy = k ∧ v.boot.sseq = st.sseq ∧ v.flash = { s.flash.setCopy k (some st) with op := none } ∧ v.cmds = s.cmds ∧
      exec (.settingsSaveDone true) s =
        .next (settle (beginHeaderWrite (endCommand port tag St.success (((s.cmdOf port tag).map Cmd.info).getD 0) v)))) ∧
  (∀ (k : Nat) (st : Settings) (vals : List (Fld × Nat)) (port tag : Nat) (s : State), s.flash.op = some (.settings k st vals port tag false) →
      s.flash.sagged = false → s.pins.sagPause = false →
    exec (.settingsSaveDone false) s = .next { s with
      flash := { s.flash with op := some (.settings k st vals port tag true), sagged := false }, out := .flash (.settings k st vals port tag true) (setAddr k) :: s.out }) ∧
  (∀ (k : Nat) (st : Settings) (vals : List (Fld × Nat)) (port tag : Nat) (again : Bool) (s : State),
      s.flash.op = some (.settings k st vals port tag again) → s.xlat.pendingVol = none → s.flash.sagged = true →
    ∃ v w, v.cmds = s.cmds ∧ v.boot = s.boot ∧ v.flash = { s.flash with op := none } ∧ v.free = s.free + 1 ∧
      w.cmds = s.cmds ∧ w.boot.records = st.records ∧ w.boot.setCopy = k ∧ w.flash = { s.flash.setCopy k (some st) with op := none } ∧
      exec (.settingsSaveDone true) s = .next (settle (beginHeaderWrite (if s.fresh.1 % 2 = 1 then endCommand port tag St.retryLater 0 v
        else endCommand port tag St.success (((s.cmdOf port tag).map Cmd.info).getD 0) w)))) ∧
  (∀ (k : Nat) (st : Settings) (vals : List (Fld × Nat)) (port tag : Nat) (s : State), s.flash.op = some (.settings k st vals port tag true) →
      s.xlat.pendingVol = none → s.flash.sagged = true →
    ∃ v, v.cmds = s.cmds ∧ v.boot = s.boot ∧ v.flash = { s.flash with op := none } ∧ v.free = s.free + 1 ∧
      exec (.settingsSaveDone false) s =
        .next (settle (beginHeaderWrite (endCommand port tag (if s.fresh.1 % 2 = 1 then St.retryLater else St.saveFailed) 0 v)))) ∧
  (∀ (k : Nat) (st : Settings) (vals : List (Fld × Nat)) (port tag : Nat) (s : State), s.flash.op = some (.settings k st vals port tag true) →
      s.xlat.pendingVol = none → s.flash.sagged = false →
    exec (.settingsSaveDone false) s = .next (settle (beginHeaderWrite (endCommand port tag St.saveFailed 0 { s with flash := { s.flash with op := none } }))))

/-- R163, R197, R198, R242, R243: volumes. A creation needs a populated permitted group and the slots; a change moves masks and label alone; a deletion needs
the volume. A volume that an outstanding command names is busy. What passes is saved in settings record 0x0006 first. -/
def Obligations.VolumeChanges : Prop :=
  (∀ (p : Nat) (c : Cmd) (s : State), s.Ready p c → s.setsVolume c false false = true →
    (s.permitted c.volDesc = [] → exec (.volumeCreate p) s = .next (settle (showSched (showPort p (finishAt c St.invalidField 0x10 s))))) ∧
    (s.permitted c.volDesc ≠ [] → createVolume (c.fld 0xA 2) c.volDesc s = none →
      exec (.volumeCreate p) s = .next (settle (showSched (showPort p (finishAt c St.capacity (s.freeFor c.volDesc) s))))) ∧
    (s.permitted c.volDesc ≠ [] → createVolume (c.fld 0xA 2) c.volDesc s ≠ none →
      exec (.volumeCreate p) s = .next (settle (showSched (showPort p (saveVolume c (c.fld 0xA 2) (some { desc := c.volDesc }) s)))))) ∧
  (∀ (p : Nat) (c : Cmd) (x : Volume) (s : State), s.Ready p c → s.setsVolume c false true = true → s.xlat.t.vol? (c.fld 0xA 2) = some x →
    ({ c.volDesc with rdmask := x.desc.rdmask, wrmask := x.desc.wrmask, label := x.desc.label } ≠ x.desc →
      exec (.volumeChange p) s = .next (settle (showSched (showPort p (finishAt c St.invalidField 0x10 s))))) ∧
    ({ c.volDesc with rdmask := x.desc.rdmask, wrmask := x.desc.wrmask, label := x.desc.label } = x.desc → s.volumeNamed c (c.fld 0xA 2) = true →
      exec (.volumeChange p) s = .next (settle (showSched (showPort p (finishAt c St.volumeBusy 0 s))))) ∧
    ({ c.volDesc with rdmask := x.desc.rdmask, wrmask := x.desc.wrmask, label := x.desc.label } = x.desc → s.volumeNamed c (c.fld 0xA 2) = false →
      exec (.volumeChange p) s = .next (settle (showSched (showPort p (saveVolume c (c.fld 0xA 2) (some { x with desc := c.volDesc }) s)))))) ∧
  (∀ (p : Nat) (c : Cmd) (s : State), s.Ready p c → c.op = 0x83 → c.fld 8 1 = 0x10 → c.fld 0x10 1 = 0 →
    ((s.xlat.t.vol? (c.fld 0xA 2)) = none → exec (.volumeDelete p) s = .next (settle (showSched (showPort p (finishAt c St.noVolume 0 s))))) ∧
    ((s.xlat.t.vol? (c.fld 0xA 2)) ≠ none → s.volumeNamed c (c.fld 0xA 2) = true →
      exec (.volumeDelete p) s = .next (settle (showSched (showPort p (finishAt c St.volumeBusy 0 s))))) ∧
    ((s.xlat.t.vol? (c.fld 0xA 2)) ≠ none → s.volumeNamed c (c.fld 0xA 2) = false →
      exec (.volumeDelete p) s = .next (settle (showSched (showPort p (saveVolume c (c.fld 0xA 2) none s)))))) ∧
  (∀ (c : Cmd) (v : Nat) (new : Option Volume) (s : State), s.flashStop true = none → s.flash.op = none → s.xlat.pendingVol = none →
    ∃ st, (saveVolume c v new s).xlat.pendingVol = some (v, new) ∧ (saveVolume c v new s).xlat.t = s.xlat.t ∧
      (saveVolume c v new s).flash.op = some (.settings (1 - s.boot.setCopy) st [] c.port c.tag false) ∧ st.sseq = (s.boot.sseq + 1) % 2 ^ 32) ∧
  (∀ (v : Nat) (s : State), s.xlat.pendingVol = some (v, none) → ∃ t, (applyVolume true s) = (none, writeJournal (deleteVolume v t)) ∧ t.xlat.pendingVol = none) ∧
  (∀ (v : Nat) (s : State), (deleteVolume v s).xlat.t.vol? v = none ∧ ∀ x ∈ (deleteVolume v s).versions, x.vol ≠ v)

/-- R81, R89, R190, R191, R200, R201: firmware download and activation. -/
def Obligations.FirmwareUpdate : Prop :=
  (∀ (p : Nat) (c : Cmd) (data : List Byte) (s : State), s.Ready p c → c.op = 0x84 → s.flashStop false = none → s.flash.op = none → c.fld 8 4 = 0 →
      (∀ x, s.session = some x → s.portDomain x.port = s.domOf c) →
    ∃ v, v.session = some ⟨p, 0, s.now, s.targetSlot⟩ ∧ v.flash = s.flash ∧ v.boot = s.boot ∧
      exec (.fwDownload p data) s = .next (settle (showSched (showPort p (if s.boot.hdr.pending = some s.targetSlot then
        writeHeader { s.boot.hdr with pending := none } (.download (readRegion data 0 (c.fld 0xC 4)) c.port c.tag) v
        else beginChunk 0 (readRegion data 0 (c.fld 0xC 4)) c.port c.tag v))))) ∧
  (∀ (p : Nat) (c : Cmd) (data : List Byte) (x : FwSession) (s : State), s.Ready p c → c.op = 0x84 → s.flashStop false = none →
      s.session = some x →
    (s.portDomain x.port = s.domOf c → c.fld 8 4 ≠ 0 → x.next ≠ c.fld 8 4 →
      exec (.fwDownload p data) s = .next (settle (showSched (showPort p (finishAt c St.fwSequence x.next s))))) ∧
    (s.portDomain x.port = s.domOf c → c.fld 8 4 ≠ 0 → x.next = c.fld 8 4 → s.flash.op = none →
      ∃ v, v.session = s.session ∧ v.flash = s.flash ∧
        exec (.fwDownload p data) s =
          .next (settle (showSched (showPort p (beginChunk (c.fld 8 4) (readRegion data 0 (c.fld 0xC 4)) c.port c.tag v))))) ∧
    (s.portDomain x.port ≠ s.domOf c →
      exec (.fwDownload p data) s = .next (settle (showSched (showPort p (finishAt c St.fwBusy (s.portDomain x.port) s)))))) ∧
  (∀ (p st : Nat) (c : Cmd) (data : List Byte) (s : State), s.Ready p c → s.flashStop false = some st →
    (c.op = 0x84 → exec (.fwDownload p data) s = .next (settle (showSched (showPort p (finishAt c st 0 s))))) ∧
    (c.op = 0x85 → exec (.fwActivate p) s = .next (settle (showSched (showPort p (finishAt c st 0 s)))))) ∧
  (∀ (off port tag : Nat) (data : List Byte) (s : State), s.pins.sagPause = false →
    ∃ t, beginChunk off data port tag s = t ∧ t.flash.op = some (.chunk off data port tag) ∧ t.flash.sagged = false ∧
      t.out = .flash (.chunk off data port tag) (slotAddr s.targetSlot + off) :: s.out ∧
      t.flash.slot s.targetSlot = programChunk (s.flash.slot s.targetSlot) off (List.replicate data.length 0xFF)) ∧
  (∀ (off port tag : Nat) (data : List Byte) (x : FwSession) (s : State), s.flash.op = some (.chunk off data port tag) → s.session = some x →
      s.flash.sagged = false →
    ∃ v, v.session = some { x with next := off + data.length, since := s.now } ∧ v.cmds = s.cmds ∧
      v.flash = { s.flash.putSlot x.slot (programChunk (s.flash.slot x.slot) off data) with op := none } ∧
      exec (.fwChunkProgrammed true) s = .next (settle (beginHeaderWrite (endCommand port tag St.success 0 v)))) ∧
  (∀ (off port tag : Nat) (data : List Byte) (s : State), s.flash.op = some (.chunk off data port tag) → s.flash.sagged = false →
    exec (.fwChunkProgrammed false) s =
      .next (settle (beginHeaderWrite (endCommand port tag St.saveFailed 0 { s with flash := { s.flash with op := none } })))) ∧
  (∀ (off n port tag : Nat) (data : List Byte) (x : FwSession) (s : State), s.flash.op = some (.chunk off data port tag) → s.session = some x →
      s.flash.sagged = true → n = min data.length (65536 * (s.fresh.1 % (ceilDiv data.length 65536 + 1))) →
    ∃ v w, v.session = some { x with next := off + n, since := s.now } ∧ v.cmds = s.cmds ∧ v.free = s.free + 1 ∧ v.flash.op = none ∧
      v.flash.slot x.slot = programChunk (s.flash.slot x.slot) off (data.take n ++ List.replicate (data.length - n) 0xFF) ∧
      w.session = s.session ∧ w.cmds = s.cmds ∧ w.flash = { s.flash with op := none } ∧
      exec (.fwChunkProgrammed true) s = .next (settle (beginHeaderWrite (if n < data.length then endCommand port tag St.retryLater n v
        else endCommand port tag St.success 0 v))) ∧
      exec (.fwChunkProgrammed false) s = .next (settle (beginHeaderWrite (if n < data.length then endCommand port tag St.retryLater n v
        else endCommand port tag St.saveFailed 0 w)))) ∧
  (∀ s : State, exec .fwSessionTimeout s = .next { s with session := none }) ∧
  (∀ (p : Nat) (c : Cmd) (s v : State), s.Ready p c → c.op = 0x85 → s.flashStop false = none → s.flash.op = none →
      v = { noteChecked s.targetSlot s with session := none } →
    (∀ img, s.slotImage s.targetSlot = some img →
      (failedConditions s.fuses img = [] → ∃ w, w.session = none ∧ w.flash = s.flash ∧
        exec (.fwActivate p) s = .next (settle (showSched (showPort p
          (writeHeader { s.boot.hdr with pending := some s.targetSlot, tries := 3 } (.activate c.port c.tag) w))))) ∧
      (failedConditions s.fuses img = [3] →
        exec (.fwActivate p) s = .next (settle (showSched (showPort p (finishAt c St.imageRollback s.fuses.svn v))))) ∧
      (∀ (k : Nat) (rest : List Nat), failedConditions s.fuses img = k :: rest → k :: rest ≠ [3] →
        exec (.fwActivate p) s = .next (settle (showSched (showPort p (finishAt c St.imageInvalid k v)))))) ∧
    (s.slotImage s.targetSlot = none → exec (.fwActivate p) s = .next (settle (showSched (showPort p (finishAt c St.imageInvalid 1 v))))))

/-- R23, R24, R26 to R28, R30: messages of a Finvik link. A message takes the next LSEQ of its class and goes while a credit is there, else it waits; the receiver
accepts the next in order into a buffer, discards a copy, and asks for one that came wrong again; each end tells its class state in a link control word. -/
def Obligations.FinvikMessages : Prop :=
  (∀ (e : LinkEnd) (cls eseq : Nat) (ws : List Word) (t : TxClass) (m : Msg) (s : State), s.linkUp e = true → s.EndOk e →
      (∀ d n, e = .rind d n → n ≠ 6 → s.fenced d = false) → t = (s.fvEnd e).tx.getD (cls % 4) {} → t.stalled = [] →
      m = ⟨cls, e.src, t.lseq, eseq, ws⟩ →
    (0 < t.credits → (sendMsg e cls eseq ws s).out = .msg e m (s.fvEnd e).corruptNext :: s.out ∧
      ((sendMsg e cls eseq ws s).fvEnd e).tx.getD (cls % 4) {} =
        { t with lseq := (t.lseq + 1) % 0x10000, credits := t.credits - 1, replay := t.replay ++ [m] }) ∧
    (t.credits = 0 → (sendMsg e cls eseq ws s).out = s.out ∧
      ((sendMsg e cls eseq ws s).fvEnd e).tx.getD (cls % 4) {} = { t with lseq := (t.lseq + 1) % 0x10000, stalled := [m] })) ∧
  (∀ (e : LinkEnd) (m : Msg) (r : RxClass) (s : State), s.linkUp e = true → s.EndOk e → e.classOk m.cls = true →
      m.payload.length ≤ (farEnd e).room (m.cls % 4) →
      r = (s.fvEnd e).rx.getD (m.cls % 4) {} →
    (m.lseq = (r.last + 1) % 0x10000 → r.held.length < (farEnd e).credits (m.cls % 4) → isKeepalive e m = false →
      ∃ u, exec (.finvikMessageReceive e m true true) s = .next (settle u) ∧ u.cmds = s.cmds ∧ u.out = s.out ∧ (u.fvEnd e).failedResets = 0 ∧
        (u.fvEnd e).rx.getD (m.cls % 4) {} = { r with last := m.lseq, held := r.held ++ [m], owed := true, requests := 0 }) ∧
    (m.lseq = (r.last + 1) % 0x10000 → r.held.length < (farEnd e).credits (m.cls % 4) → isKeepalive e m = true →
      ∃ u, exec (.finvikMessageReceive e m true true) s = .next (settle u) ∧ u.cmds = s.cmds ∧ u.out = s.out ∧
        ((u.fvEnd e).rx.getD (m.cls % 4) {}).last = m.lseq ∧ ((u.fvEnd e).rx.getD (m.cls % 4) {}).freed = (r.freed + 1) % 0x10000) ∧
    (m.lseq ≠ (r.last + 1) % 0x10000 ∨ (farEnd e).credits (m.cls % 4) ≤ r.held.length →
      ∃ t, exec (.finvikMessageReceive e m true true) s = .next t ∧ t.cmds = s.cmds ∧ t.out = s.out ∧ (t.fvEnd e).rx = (s.fvEnd e).rx)) ∧
  (∀ (d : RSlot) (n : Nat) (m : Msg) (crc code : Bool) (s : State), s.linkUp (.rind d n) = true →
      crc = false ∨ code = false ∨ LinkEnd.classOk (.rind d n) m.cls = false ∨ (farEnd (.rind d n)).room (m.cls % 4) < m.payload.length →
    exec (.finvikMessageReceive (.rind d n) m crc code) s = .next (settle (sendLcw (.rind d n) 1 (m.cls % 4)
      ((raise d 0x009 [n] (s.incR d (if code = false ∨ LinkEnd.classOk (.rind d n) m.cls = false ∨ (farEnd (.rind d n)).room (m.cls % 4) < m.payload.length then R.DEV_FVERR_CODEERR n
          else R.DEV_FVERR_CRCERR n))).modEnd (.rind d n)
        (fun x => { x with rx := modAt (m.cls % 4) (fun r => { r with requests := r.requests + 1 }) x.rx }))))) ∧
  (∀ (g : Nat) (d : RSlot) (m : Msg) (crc code : Bool) (s : State), s.linkUp (.curd g d) = true →
      crc = false ∨ code = false ∨ LinkEnd.classOk (.curd g d) m.cls = false ∨ (farEnd (.curd g d)).room (m.cls % 4) < m.payload.length →
    exec (.finvikMessageReceive (.curd g d) m crc code) s = .next (settle (sendLcw (.curd g d) 1 (m.cls % 4) ((markLive g d s).modEnd (.curd g d)
      (fun x => { x with rx := modAt (m.cls % 4) (fun r => { r with requests := r.requests + 1 }) x.rx }))))) ∧
  (∀ (e : LinkEnd) (s : State), s.linkUp e = true →
    ∃ t l, exec (.lcwPeriodic e) s = .next t ∧ t.out = l ++ s.out ∧ l.length = 4 ∧ (∀ o ∈ l, ∃ w0 w1, o = .lcw e w0 w1) ∧ t.regs = s.regs ∧ t.cmds = s.cmds)

/-- R30: a link control word carries its fields, and its check byte makes the exclusive-or of its eight bytes 0. -/
def Obligations.LinkControlWordFields : Prop :=
  ∀ (typ cidx alseq freed free : Nat), typ < 3 → cidx < 4 → alseq < 0x10000 → freed < 0x10000 → free < 0x10000 →
    lcwGood (lcwWords typ cidx alseq freed free).1 (lcwWords typ cidx alseq freed free).2 = true ∧
    lcwFields (lcwWords typ cidx alseq freed free).1 (lcwWords typ cidx alseq freed free).2 = (typ, cidx, alseq, freed, free)

/-- R28 to R31: link control words received. Credit follows FREED and the replay store ALSEQ; a replay request sends later messages again and the third for
one LSEQ resets the link; a reset report sets the credit anew; a word whose check fails is a code error. A link that is declared down stays down. -/
def Obligations.LinkControlWords : Prop :=
  (∀ (e : LinkEnd) (w0 w1 : Word) (c a f r : Nat) (y : TxClass) (s : State), s.linkUp e = true → s.EndOk e → lcwGood w0 w1 = true →
      lcwFields w0 w1 = (0, c, a, f, r) → y = (s.fvEnd e).tx.getD c {} →
    ∃ v, exec (.lcwCreditAck e w0 w1) s = .next (settle (launchClass e c v)) ∧ (v.fvEnd e).tx.getD c {} = { y with
        credits := y.credits + (f + 0x10000 - y.freedApplied) % 0x10000, freedApplied := f, replay := y.replay.filter (fun m => ! notAfter m.lseq a)
        asked := y.asked.filter (fun p => p.1 = a) } ∧
      v.regs = s.regs ∧ v.cmds = s.cmds ∧ v.out = s.out) ∧
  (∀ (e : LinkEnd) (w0 w1 : Word) (c a f r : Nat) (s : State), s.linkUp e = true → s.EndOk e → lcwGood w0 w1 = true → lcwFields w0 w1 = (1, c, a, f, r) →
    (∀ n, ((s.fvEnd e).tx.getD c {}).asked = some (a, n) → 2 ≤ n → exec (.lcwReplayRequest e w0 w1) s =
      .next (settle (linkReset e (s.modEnd e (fun x => { x with tx := modAt c (fun y => { y.credited f with asked := some (a, n + 1) }) x.tx }))))) ∧
    ((∀ n, ((s.fvEnd e).tx.getD c {}).asked = some (a, n) → n < 2) → ∃ v k, exec (.lcwReplayRequest e w0 w1) s = .next (settle (launchClass e c v)) ∧
      ((v.fvEnd e).tx.getD c {}).asked = some (a, k) ∧ v.regs = s.regs ∧ v.cmds = s.cmds ∧
      ((v.fvEnd e).tx.getD c {}).credits = ((s.fvEnd e).tx.getD c {}).credits + (f + 0x10000 - ((s.fvEnd e).tx.getD c {}).freedApplied) % 0x10000 ∧
      v.out = (((s.fvEnd e).tx.getD c {}).replay.filter (fun m => ! notAfter m.lseq a)).reverse.map (fun m => .msg e m false) ++ s.out)) ∧
  (∀ (e : LinkEnd) (w0 w1 : Word) (c a f r : Nat) (s : State), s.linkUp e = true → s.EndOk e → lcwGood w0 w1 = true → lcwFields w0 w1 = (2, c, a, f, r) →
    ∃ v, exec (.lcwResetReport e w0 w1) s = .next (settle (launchClass e c v)) ∧ ((v.fvEnd e).tx.getD c {}).freedApplied = 0 ∧
      ((v.fvEnd e).tx.getD c {}).credits = r - ((v.fvEnd e).tx.getD c {}).replay.length ∧
      ((v.fvEnd e).tx.getD c {}).replay = ((s.fvEnd e).tx.getD c {}).replay.filter (fun m => ! notAfter m.lseq a) ∧ v.cmds = s.cmds) ∧
  (∀ (d : RSlot) (n : Nat) (w0 w1 : Word) (s : State), s.linkUp (.rind d n) = true → lcwGood w0 w1 = false →
    exec (.lcwCreditAck (.rind d n) w0 w1) s = .next (settle (raise d 0x009 [n] (s.incR d (R.DEV_FVERR_CODEERR n)))) ∧
    exec (.lcwReplayRequest (.rind d n) w0 w1) s = .next (settle (raise d 0x009 [n] (s.incR d (R.DEV_FVERR_CODEERR n)))) ∧
    exec (.lcwResetReport (.rind d n) w0 w1) s = .next (settle (raise d 0x009 [n] (s.incR d (R.DEV_FVERR_CODEERR n))))) ∧
  (∀ (d : RSlot) (n : Nat) (s : State), n < 7 → s.linkUp (.rind d n) = true → s.EndOk (.rind d n) → s.regsWf = true →
      3 ≤ (s.fvEnd (.rind d n)).failedResets ∨ (s.fvEnd (.rind d n)).waits = true ∨ (s.fvEnd (farEnd (.rind d n))).waits = true →
    ∃ w x, (w.fvEnd (.rind d n)).down = true ∧ w.rdR d (R.DEV_FVSTAT_STATE n) = 3 ∧ w.cmds = s.cmds ∧ w.out = s.out ∧
      x = (if n < 6 ∧ (raise d 0x008 [n] w).isReady = true then newStep 0x09 (8 * d.code + n) 3 (raise d 0x008 [n] w) else raise d 0x008 [n] w) ∧
      exec (.linkDown d n) s = .next (settle (if n < 6 ∧ x.rinds.all (fun e => ! x.linkUp (.rind e n)) = true then groupOffline n x
        else if n = 6 then x.rinds.foldl (fun t e => t.wrR e (R.DEV_FVSTAT_STATE 6) 3) x else x)))

/-- R37 to R40, R297, R539, R550: a stall watch on a stage whose request is pending counts, raises source 0x001, uses rung 1 and drains its stage, a command drained twice
passing upward to rung 3; where the acknowledge has come it does nothing. -/
def Obligations.StallWatches : Prop :=
  (∀ (d : RSlot) (e p : Nat) (w : State) (s : State), s.watched (.enginePort d e p) = true →
      w = drainEngine d e p (useRung d 1 (raise d 0x001 [0, e, p] (s.incR d R.DEV_STALLCNT_COUNT))) →
    exec (.stallWatchFire (.enginePort d e p)) s = .next (settle (if portUnit none p = some .budget then cycleDrained w else w))) ∧
  (∀ (g p : Nat) (w : State) (s : State), s.watched (.formatterPort g p) = true → w = drainFormatter g p (curdRaise g 0x01 p (s.incC g R.CDIE_STALLCNT_COUNT)) →
    exec (.stallWatchFire (.formatterPort g p)) s = .next (settle (if p = 0x0C then drainChannel g w else w))) ∧
  (∀ (d : RSlot) (ch : Nat) (s : State), s.watched (.ladleChannel d ch) = true →
    exec (.stallWatchFire (.ladleChannel d ch)) s =
      .next (settle (drainLadle d ch (useRung d 1 (raise d 0x001 [1, ch] (s.incR d R.DEV_STALLCNT_COUNT)))))) ∧
  (∀ (d : RSlot) (p t : Nat) (s : State), s.watched (.command d p t) = true →
    exec (.stallWatchFire (.command d p t)) s =
      .next (settle (drainCommand d p t (useRung d 1 (raise d 0x001 [2, p, t] (s.incR d R.DEV_STALLCNT_COUNT)))))) ∧
  (∀ (st : Stage) (s : State), s.watched st = false → exec (.stallWatchFire st) s = .next s) ∧
  (∀ (d : RSlot) (p t : Nat) (c : Cmd) (s : State), s.cmds.find? (fun c => c.port = p ∧ c.tag = t) = some c →
    (c.drained = false → drainCommand d p t s = modCmd c.uid (fun x => { x with drained := true }) s) ∧
    (c.drained = true → drainCommand d p t s = raiseAll 0x0C1 [p, t] (recoverCmd c 3 (useRung d 3 s)))) ∧
  (∀ (d : RSlot) (n : Nat) (s : State), s.linkUp (.rind d n) = true →
    exec (.stallWatchFire (.lane (.rind d n))) s =
      .next (settle (linkReset (.rind d n) (useRung d 1 (raise d 0x001 [3, n] (s.incR d R.DEV_STALLCNT_COUNT)))))) ∧
  (∀ (g : Nat) (d : RSlot) (s : State), s.linkUp (.curd g d) = true →
    exec (.stallWatchFire (.lane (.curd g d))) s = .next (settle (linkReset (.curd g d) (curdRaise g 0x01 0 (s.incC g R.CDIE_STALLCNT_COUNT))))) ∧
  (∀ (d : RSlot) (s : State), s.regsWf = true → s.rdR d R.DEV_STALLCNT_COUNT < 2 ^ 31 →
    (s.incR d R.DEV_STALLCNT_COUNT).rdR d R.DEV_STALLCNT_COUNT = s.rdR d R.DEV_STALLCNT_COUNT + 1)

/-- R32, R493 to R496, R512: steps. A STEP message goes out with none pending; the junior takes the senior's entries under their numbers and the senior numbers
a proposal; a held entry is processed in order, and an own copy that differs is a divergence; a lost link is counted as a split. -/
def Obligations.StepExchange : Prop :=
  (∀ (d : RSlot) (s : State), s.part.f = 2 → exec (.stepKeepalive d) s = .next (sendMsg (.rind d 6) 4 0 (stepPayload 0 (s.heldNo d) []) s)) ∧
  (∀ s : State, s.part.f = 2 → s.bitR s.senior R.STEP_STAT_LINKUP = true → s.inTwo = true →
    ∃ v, (∀ d, (v.rind d).step.split = some (s.now, decide (d = s.senior))) ∧ v.cmds = s.cmds ∧
      exec .stepLinkLost s = .next (settle (leaseTraffic s.senior 0x61 (RSlotBit s.senior) (v.rdR s.senior R.STEP_EPOCH_EPOCH) v))) ∧
  (∀ (d : RSlot) (m : StepMsg) (s : State), s.part.f = 2 → s.senior ≠ d → m.overdue = false → s.regsWf = true →
    ∃ t, exec (.stepMessage d m) s = .next (settle t) ∧ t.cmds = s.cmds ∧ t.out = s.out ∧ (t.rind d).step.peerHeld = max (s.rind d).step.peerHeld m.held ∧
      (t.rind d).step.next = max (s.rind d).step.next (m.first + m.entries.length) ∧
      (∀ i, i < m.entries.length → (s.rind d).step.done ≤ m.first + i → ∃ e ∈ (t.rind d).step.entries, e.step = m.first + i)) ∧
  (∀ (d : RSlot) (m : StepMsg) (e : StepEnt) (s : State), s.part.f = 2 → s.senior = d → m.overdue = false → s.regsWf = true → m.entries = [e] →
      (s.rind d).step.props = [] → (s.rind d).step.next ≤ m.held + 384 →
      (∀ f ∈ (s.rind d).step.entries, ¬ (f.kind = e.kind ∧ f.src = e.src ∧ f.data = e.data)) →
    ∃ v, exec (.stepMessage d m) s = .next (settle (linkBack d (s.bitR d R.STEP_STAT_LINKUP)
        (sendStep d [⟨(s.rind d).step.next, e.kind, true, e.src, e.data⟩] v))) ∧
      (v.rind d).step.entries = (s.rind d).step.entries ++ [⟨(s.rind d).step.next, e.kind, true, e.src, e.data⟩] ∧
      (v.rind d).step.next = (s.rind d).step.next + 1 ∧ v.cmds = s.cmds ∧ v.out = s.out) ∧
  (∀ (d : RSlot) (m : StepMsg) (s : State), s.part.f = 2 → m.overdue = true →
    exec (.stepMessage d m) s = .next (settle (diverge 2 d (modStep d (fun x => { x with peerHeld := max x.peerHeld m.held })
      ((takeWhere (.rind d 6) 0 (fun _ => true) s).wrR d R.STEP_STAT_LINKUP 1))))) ∧
  (∀ (d : RSlot) (x : StepLogic) (e : StepEntry) (s : State), x = (s.rind d).step → x.entries.find? (fun e => e.step = x.done) = some e → s.fenced d = false →
      (e.kind = 2 ∨ e.kind = 3 → x.fwd.any (fun p => p.1 = e.src) = true) → (s.inTwo = true → s.senior = d → e.step ≤ x.peerHeld) →
    (e.kind ≠ 5 → e.kind ≠ 6 → ∃ v, exec (.stepProcess d) s = .next (settle (applyEntry d e v)) ∧ (v.rind d).step.done = e.step + 1 ∧
      (v.rind d).step.entries = x.entries.erase e ∧ v.cmds = s.cmds ∧ v.out = s.out) ∧
    (∀ o, e.kind = 5 ∨ e.kind = 6 → x.own.find? (fun o => decide (o.1 = e.kind ∧ o.2.1 = e.src)) = some o → o.2.2 ≠ e.data →
      exec (.stepProcess d) s = .next (settle (diverge 3 (divergenceTarget ((s.f0.island.ownNow) || s.f0.island.ownPrev)
        (s.f1.island.ownNow || s.f1.island.ownPrev) s) s))) ∧
    (∀ o, e.kind = 5 ∨ e.kind = 6 → x.own.find? (fun o => decide (o.1 = e.kind ∧ o.2.1 = e.src)) = some o → o.2.2 = e.data →
      ∃ v, exec (.stepProcess d) s = .next (settle (applyEntry d e v)) ∧ (v.rind d).step.done = e.step + 1 ∧ (v.rind d).step.own = x.own.erase o ∧
        v.cmds = s.cmds ∧ v.out = s.out)) ∧
  (∀ (d : RSlot) (k : Nat) (c : FwdBody) (s : State), s.part.f = 2 →
    ∃ t, exec (.fwdMessage d k c) s = .next (settle t) ∧ (t.rind d).step.fwd.find? (fun p => p.1 = k) = some (k, c) ∧ t.regs = s.regs ∧ t.cmds = s.cmds ∧ t.out = s.out) ∧
  (∀ (k : Nat) (e : StepEntry) (s : State), s.inTwo = true → (s.rind s.senior.peer).step.entries.find? (fun e => e.step = k) = some e →
      e.kind = 5 ∨ e.kind = 6 → (∀ o ∈ (s.rind s.senior.peer).step.own, ¬ (o.1 = e.kind ∧ o.2.1 = e.src)) → s.regsWf = true →
    ∃ t, exec (.contentRequest k) s = .next t ∧ t.out = .fwd s.senior k (.relay e.kind e.src e.data) :: s.out ∧
      k ∈ (t.rind s.senior.peer).step.asked ∧ t.cmds = s.cmds)

/-- R499 to R501, R509, R510: digests and turnings. A block with steps closes on both dies; an equal digest confirms it and an unequal or an overdue one is a
divergence; at a turning the roles, the lease and the epoch change over. -/
def Obligations.DigestsAndTurnings : Prop :=
  (∀ s : State, s.inTwo = true → 0 < (s.rind s.senior).step.steps →
    exec .digestBlockClose s = .next (settle (inStep closeBlock (newStep 0x0A 0 (s.rind s.senior).step.block s)))) ∧
  (∀ (d : RSlot) (s : State),
    ((closeBlock d s).rind d).step.block = (s.rind d).step.block + 1 ∧ ((closeBlock d s).rind d).step.steps = 0 ∧
    ((closeBlock d s).rind d).step.crc = BitVec.allOnes 64 ∧ ((closeBlock d s).rind d).island.ownPrev = (s.rind d).island.ownNow ∧
    ∃ dg, ((closeBlock d s).rind d).step.mine = (s.rind d).step.mine ++ [((s.rind d).step.block, dg)]) ∧
  (∀ (d : RSlot) (b fl : Nat) (dg : BitVec 64) (s : State), s.inTwo = true → (s.rind d).step.mine.find? (fun p => p.1 = b) = none →
    ∃ t, exec (.digestMessage d b dg fl) s = .next (settle t) ∧ (t.rind d).step.peers = (s.rind d).step.peers ++ [(b, dg, fl)] ∧ t.regs = s.regs ∧ t.cmds = s.cmds) ∧
  (∀ (d : RSlot) (b fl : Nat) (dg : BitVec 64) (s : State), s.inTwo = true → (s.rind d).step.mine.find? (fun p => p.1 = b) = some (b, dg) →
    exec (.digestMessage d b dg fl) s = .next (settle (confirmBlock d b (takeWhere (.rind d 6) 1 (fun m => m.w 0 + m.w 1 * 2 ^ 32 = b) s)))) ∧
  (∀ (d : RSlot) (b fl : Nat) (dg own : BitVec 64) (s : State), s.inTwo = true → (s.rind d).step.mine.find? (fun p => p.1 = b) = some (b, own) → own ≠ dg →
    ∃ target, exec (.digestMessage d b dg fl) s = .next (settle (diverge 1 target (takeWhere (.rind d 6) 1 (fun m => m.w 0 + m.w 1 * 2 ^ 32 = b) s))) ∧
      (((s.rind d).island.ownNow || (s.rind d).island.ownPrev) = true → fl % 4 = 0 → target = d) ∧
      (((s.rind d).island.ownNow || (s.rind d).island.ownPrev) = false → fl % 4 ≠ 0 → target = d.peer) ∧
      (((s.rind d).island.ownNow || (s.rind d).island.ownPrev) = false → fl % 4 = 0 → target = s.senior.peer)) ∧
  (∀ (d : RSlot) (b : Nat) (s : State), s.inTwo = true → (s.rind d).step.mine.any (fun p => p.1 = b) = true →
      (s.rind d).step.peers.any (fun p => p.1 = b) = false → exec (.digestOverdue d b) s = .next (settle (diverge 2 d.peer s))) ∧
  (∀ (e : Nat) (s : State), s.inTwo = true → s.rdR s.senior R.STEP_STAT_REDUND = 1 → (s.rind s.senior).step.restoredAt = none →
      e = s.rdR s.senior R.STEP_EPOCH_EPOCH + 1 →
    exec .turning s = .next (settle (turnRoles e (newStep 0x0B 0 e s)))) ∧
  (∀ (e : Nat) (s : State), s.part.f = 2 → s.regsWf = true → e < 2 ^ 32 →
    (turnRoles e s).rdR s.senior.peer R.STEP_STAT_ROLE = roleSenior ∧ (turnRoles e s).rdR s.senior R.STEP_STAT_ROLE = roleJunior ∧
    (turnRoles e s).rdR s.senior.peer R.STEP_STAT_LEASE = 1 ∧ (turnRoles e s).rdR s.senior R.STEP_STAT_LEASE = 0 ∧
    (∀ d, (turnRoles e s).rdR d R.STEP_EPOCH_EPOCH = e) ∧ (turnRoles e s).pmb.takeover = true)

/-- R505 to R508, R512, R513, R515: leases and splits. A Curd die installs a record of no lower epoch, confirms its holder and grants the next epoch where the
holder is silent; a claimer claims the next epoch; a quorum of grants makes a sole server, and a die without one fences. -/
def Obligations.LeasesAndSplits : Prop :=
  (∀ (g : Nat) (src : RSlot) (w0 epoch : Nat) (s : State), s.hasCurd g = true → s.rdC g R.CDIE_EPOCH_EPOCH ≤ epoch → epoch < 2 ^ 32 → s.regsWf = true →
    ∃ v, v.rdC g R.CDIE_LEASE_HOLDER = w0 % 2 ∧ v.rdC g R.CDIE_LEASE_SINGLE = w0 / 2 % 2 ∧ v.rdC g R.CDIE_EPOCH_EPOCH = epoch ∧ v.cmds = s.cmds ∧ v.out = s.out ∧
      exec (.lease g src w0 epoch) s = .next (settle (if w0 / 2 % 2 = 1 then endPairWaits g v else v))) ∧
  (∀ (g : Nat) (src : RSlot) (w0 epoch : Nat) (s : State), s.hasCurd g = true → epoch < s.rdC g R.CDIE_EPOCH_EPOCH → s.regsWf = true →
    ∃ t, exec (.lease g src w0 epoch) s = .next (settle t) ∧ t.rdC g R.CDIE_LEASE_HOLDER = s.rdC g R.CDIE_LEASE_HOLDER ∧
      t.rdC g R.CDIE_LEASE_SINGLE = s.rdC g R.CDIE_LEASE_SINGLE ∧ t.rdC g R.CDIE_EPOCH_EPOCH = s.rdC g R.CDIE_EPOCH_EPOCH ∧ t.out = s.out) ∧
  (∀ (g : Nat) (d : RSlot) (epoch : Nat) (s : State), s.hasCurd g = true → s.regsWf = true →
    exec (.leaseConfirm g d epoch) s =
      .next (settle (leaseAnswer g d (decide (s.holder g = d ∧ s.rdC g R.CDIE_EPOCH_EPOCH = epoch)) (leaseTaken (.curd g d) 0x61 (markLive g d s))))) ∧
  (∀ (g : Nat) (d : RSlot) (epoch : Nat) (s n : State), s.hasCurd g = true → n = leaseTaken (.curd g d) 0x62 (markLive g d s) → epoch = n.rdC g R.CDIE_EPOCH_EPOCH + 1 →
    (n.silentLink g (n.holder g) = true → exec (.leaseClaim g d epoch) s =
      .next (settle (leaseAnswer g d true (endPairWaits g (installLease g (RSlotBit d) 1 epoch n))))) ∧
    (n.silentLink g (n.holder g) = false → exec (.leaseClaim g d epoch) s = .next (settle (leaseAnswer g d false n)))) ∧
  (∀ (d : RSlot) (s : State), s.hasRind d = true → s.fenced d = false → exec (.leaseKeepalive d) s = .next (leaseTraffic d 0x63 0 0 s)) ∧
  (∀ (d : RSlot) (g w0 epoch : Nat) (s : State), s.part.f = 2 → g < 6 → s.fenced d = false → (s.rind d).step.split.isSome = true →
      (w0 / 2 ^ 15) % 2 = 1 →
    ∃ v, (v.rind d).step.grants = g :: (s.rind d).step.grants.filter (· ≠ g) ∧ v.cmds = s.cmds ∧ v.out = s.out ∧
      exec (.leaseAnswer d g w0 epoch) s = .next (settle (if quorum (v.presentCurds d) (v.rind d).step.grants = true then becomeSole d v else v))) ∧
  (∀ (d : RSlot) (g w0 epoch at_ : Nat) (s : State), s.part.f = 2 → g < 6 → s.fenced d = false → (s.rind d).step.split = some (at_, true) →
      (s.rind d).step.claim = none → (w0 / 2 ^ 15) % 2 = 0 → s.rdR d R.STEP_EPOCH_EPOCH < epoch →
    exec (.leaseAnswer d g w0 epoch) s = .next (settle (fenceDie d ((leaseTaken (.rind d g) 0x68 s).wrR d R.STEP_EPOCH_EPOCH epoch)))) ∧
  (∀ (d : RSlot) (g w0 epoch at_ : Nat) (s : State), s.part.f = 2 → g < 6 → s.fenced d = false → (s.rind d).step.split = some (at_, false) →
      (w0 / 2 ^ 15) % 2 = 0 →
    ∃ v, (v.rind d).step.refusals = g :: (s.rind d).step.refusals.filter (· ≠ g) ∧ v.cmds = s.cmds ∧ v.out = s.out ∧
      exec (.leaseAnswer d g w0 epoch) s = .next (settle (if quorum (v.presentCurds d)
        ((v.presentCurds d).filter (fun g => g ∉ (v.rind d).step.refusals)) = true then v else fenceDie d v))) ∧
  (∀ (g : Nat) (d : RSlot) (s : State), s.hasCurd g = true → s.EndOk (.curd g d) → s.regsWf = true →
    ∃ t, exec (.curdLinkSilent g d) s = .next t ∧ t.silentLink g d = true ∧
      t.rdC g (if d = .f0 then R.CDIE_LEASE_F0LIVE else R.CDIE_LEASE_F1LIVE) = 0 ∧ t.cmds = s.cmds ∧ t.out = s.out) ∧
  (∀ (d : RSlot) (at_ : Nat) (s : State), s.part.f = 2 → s.fenced d = false → (s.rind d).step.split = some (at_, false) →
    ∃ v, (v.rind d).step.claim = some (s.rdR d R.STEP_EPOCH_EPOCH + 1) ∧ (v.rind d).step.grants = [] ∧ v.regs = s.regs ∧
      exec (.claimRetry d) s = .next (leaseTraffic d 0x62 (RSlotBit d) (s.rdR d R.STEP_EPOCH_EPOCH + 1) v)) ∧
  (∀ (d : RSlot) (s : State), (s.rind d).step.split.isSome = true → exec (.splitDeadline d) s = .next (settle (fenceDie d s))) ∧
  (∀ s : State, s.part.f = 2 → (∀ d, s.fenced d = true ∨ (s.rind d).step.split.isSome = true) →
    exec .splitReinit s = .next (settle { onGroups emergencyRetract s with todo := (onGroups emergencyRetract s).todo ++ [.reinit] }))

/-- R470, R516, R517, R540: resync, and the engines' reads of the step interface and the budget manager. The target takes copied memory and then the server's state,
and both resume in step. -/
def Obligations.ResyncAndStateReads : Prop :=
  (∀ (d : RSlot) (addr : Nat) (data : List Byte) (poison : Bool) (s : State), s.part.f = 2 → s.role d = roleResync →
    ∃ t, exec (.copyMessage d addr data poison) s = .next (settle t) ∧ (t.rind d).bmem = ((bmemPlace d addr data poison s).rind d).bmem ∧ t.cmds = s.cmds ∧ t.out = s.out) ∧
  (∀ (t : RSlot) (s : State), s.part.f = 2 → s.rinds.find? (fun d => s.role d = roleResync) = some t → s.rdR t R.STEP_RESYNC_PHASE = 2 → s.regsWf = true →
    ∃ u, exec .resyncCopyDone s = .next u ∧ (u.rind t).bmem.cells = (s.rind t.peer).bmem.cells ∧ (u.rind t).bmem.poison = (s.rind t.peer).bmem.poison ∧
      (∀ d, u.rdR d R.STEP_RESYNC_PHASE = 3) ∧ u.cmds = s.cmds ∧ u.out = s.out) ∧
  (∀ (t : RSlot) (s : State), s.part.f = 2 → s.rinds.find? (fun d => s.role d = roleResync) = some t → s.rdR t R.STEP_RESYNC_PHASE = 3 → s.regsWf = true →
    ∃ w x y, w.rdR t.peer R.STEP_STAT_ROLE = roleSenior ∧ w.rdR t.peer R.STEP_STAT_LEASE = 1 ∧ w.rdR t R.STEP_STAT_ROLE = roleJunior ∧
      w.rdR t R.STEP_STAT_LEASE = 0 ∧ (∀ d, w.rdR d R.STEP_RESYNC_PHASE = 0) ∧ (w.rind t).engines = (s.rind t.peer).engines ∧
      (w.rind t).cave = (s.rind t.peer).cave ∧ (w.rind t).vat = (s.rind t.peer).vat ∧ w.cmds = s.cmds ∧ w.out = s.out ∧
      x = (tallyCheck (setPhase t 8 (newStep 0x0C 0 (w.upUs / 1000) w))).2 ∧
      y = x.rinds.foldl (fun u d => modStep d (fun z => { z with restoredAt := some x.now, resyncEseq := some (x.rind t.peer).eseq }) u) x ∧
      exec .resyncStateCopy s = .next (settle (rereadDoorbells t (y.rinds.foldl
        (fun u d => dieWordDue d (leaseTraffic d 0x60 (RSlotBit t.peer) (y.rdR t.peer R.STEP_EPOCH_EPOCH) u)) y)))) ∧
  (∀ (d : RSlot) (e : Nat) (s : State), exec (.stepStateRead d e) s = .next (settle (reply (.rind d e) 0x10 1 (openReply 0x10 1
      [s.role d, s.stepNo d, s.rdR d R.STEP_STAT_LEASE, s.rdR d R.STEP_STAT_REDUND, s.rdR d R.STEP_EPOCH_EPOCH, (s.rind d).step.stamp]) true s))) ∧
  (∀ (d : RSlot) (e : Nat) (s : State), exec (.budgetRead d e) s = .next (settle (reply (.rind d e) 0x11 1 (openReply 0x11 1
      [(s.word (regKey d.code 0xC0000)).toNat, (s.word (regKey d.code 0xC0054)).toNat, (s.word (regKey d.code 0xC0058)).toNat]) true s))) ∧
  (∀ (e : Eng) (port op : Nat) (v : BitVec 64) (ok : Bool) (s : State), (∀ q ∈ (s.eng e).reqs, ¬ (q.port = port ∧ q.op = op)) → reply e port op v ok s = s)

/-- R25, R301, R302, R304, R311, R318, R504, R505: sector commands and their data. The first copy of a command is recorded and its run queued in the order of ESEQ, a
second copy is whey; DATA messages are kept for their sector, and copies that differ are a mismatch; the oldest run starts past the last gate. -/
def Obligations.SectorCommandsAndData : Prop :=
  (∀ (g : Nat) (src : RSlot) (m : Msg) (x : Bool × State) (s : State), s.hasCurd g = true → m.cls = 0 → x = firstCopy g src m s →
    (m.w 0 / 2 ^ 28 = 1 → exec (.sectorRead g src m) s = .next (settle (if x.1 = true then queueRun g src m x.2 else x.2))) ∧
    (m.w 0 / 2 ^ 28 = 2 → exec (.sectorWrite g src m) s = .next (settle (if x.1 = true then queueRun g src m x.2 else x.2))) ∧
    (m.w 0 / 2 ^ 28 = 3 → exec (.sectorVerify g src m) s = .next (settle (if x.1 = true then queueRun g src m x.2 else x.2))) ∧
    (m.w 0 / 2 ^ 28 = 4 → exec (.sectorOldread g src m) s = .next (settle (if x.1 = true then queueRun g src m x.2 else x.2))) ∧
    (m.w 0 / 2 ^ 28 = 5 → exec (.sectorParity g src m) s = .next (settle (if x.1 = true then queueRun g src m x.2 else x.2)))) ∧
  (∀ (g : Nat) (src : RSlot) (m : Msg) (s : State), g < s.curds.length → s.regsWf = true → (∀ r ∈ (s.fmt g).seen, ¬ (r.1 = m.cls ∧ r.2.1 = m.eseq)) →
      ((s.fmt g).seen.filter (fun r => r.1 = m.cls)).length < 256 → s.single g = false ∨ s.holder g = src ∨ m.cls ≠ 0 →
    (firstCopy g src m s).1 = true ∧ ((firstCopy g src m s).2.fmt g).seen = (m.cls, m.eseq, msgDigest m, src, false) :: (s.fmt g).seen ∧
    (firstCopy g src m s).2.out = s.out) ∧
  (∀ (g : Nat) (src first : RSlot) (m : Msg) (again : Bool) (s : State),
      ((s.fmt g).seen.filter (fun r => r.1 = m.cls)).find? (fun r => r.2.1 = m.eseq) = some (m.cls, m.eseq, msgDigest m, first, again) →
    (firstCopy g src m s).1 = false ∧ (firstCopy g src m s).2.out = s.out ∧ ((firstCopy g src m s).2.fmt g).queue = (s.fmt g).queue) ∧
  (∀ (g : Nat) (src : RSlot) (m : Msg) (r : CRun) (s : State), r = s.runOf g src m →
    (s.runOk g r.op r.surf r.zone r.track r.first r.count r.incl = true → g < s.curds.length →
      ((queueRun g src m s).fmt g).queue = (s.fmt g).queue.filter (fun q => ! aheadMod (2 ^ 32) q.eseq r.eseq) ++ [r] ++
        (s.fmt g).queue.filter (fun q => aheadMod (2 ^ 32) q.eseq r.eseq) ∧ (queueRun g src m s).out = s.out) ∧
    (s.runOk g r.op r.surf r.zone r.track r.first r.count r.incl = false →
      queueRun g src m s = curdRaise g 0x12 r.track (takeMsg (.curd g src) m
        (fromCurd g 2 m.eseq [BitVec.ofNat 32 (2 * 2 ^ 28), BitVec.ofNat 32 r.track] (report g m.eseq 5 0 0 r.first r.track false s))))) ∧
  (∀ (d : RSlot) (n : Nat) (m : Msg) (s : State), m.cls = 1 → s.hasRind d = true → n < 6 →
    exec (.dataMessage (.rind d n) m) s =
      .next (settle ((takeMsg (.rind d n) m s).modRind d (fun r => { r with data := putData n m.eseq m.payload r.data })))) ∧
  (∀ (g : Nat) (d : RSlot) (m : Msg) (s : State), m.cls = 1 → s.hasCurd g = true → g < s.curds.length →
    ∃ v, (v.fmt g).data = putData d m.eseq m.payload (s.fmt g).data ∧ v.cmds = s.cmds ∧ v.out = s.out ∧
      (v.single g = true ∨ (v.fmt g).received d.peer m.eseq = none → exec (.dataMessage (.curd g d) m) s = .next (settle v)) ∧
      (∀ a b, (v.fmt g).received d m.eseq = some a → (v.fmt g).received d.peer m.eseq = some b → v.single g = false → a.length = 9 →
        exec (.dataMessage (.curd g d) m) s = .next (settle (if dataDigests m.eseq a = dataDigests m.eseq b then v
          else reportMismatch g 1 (v.holder g) m.eseq v)))) ∧
  (∀ (g : Nat) (r : CRun) (q : List CRun) (s : State), (s.fmt g).queue = r :: q → s.hasCurd g = true → g < s.curds.length → s.svLoaded g = true →
      (s.fmt g).pastGates = true →
    ∃ v, (v.fmt g).queue = q ∧ (v.fmt g).runs = (s.fmt g).runs ++ [{ r with secs := startSecs (s.fmt g) r.op r.secs }] ∧ v.regs = s.regs ∧ v.out = s.out ∧
      exec (.runStart g) s = .next (settle (showFmt g (refreshServo g (failWrites g (endIfDone g r.eseq (requestTarget g r.surf r.track
        (if r.op = 2 ∨ r.op = 5 then heater g true (loadZone g r.surf r.zone v) else loadZone g r.surf r.zone v))))))))

/-- R262, R269, R274, R277, R281, R282, R287, R290, R294, R305, R319, R470: gates and the read channel. Events join the posted ones and the gate unit acts on the oldest; a write gate
never opens where writing is inhibited; captures are decoded, the vault engine runs its rungs, and a sector whose group has been read is rebuilt. A reader has weight zero on
a bit that it alone has flagged, and a bit that every reader in use has flagged is an erasure. -/
def Obligations.GatesAndReadChannel : Prop :=
  (∀ (g : Nat) (ev : GateEv) (s : State), s.hasCurd g = true →
    exec (.gatePost g ev true) s = .next (settle (reply (.curd g) 0x0A 1 (openReply 0x0A 1 []) true (s.incC g R.FMT_WRCNT_LATE)))) ∧
  (∀ (g : Nat) (ev : GateEv) (s : State), s.hasCurd g = true → g < s.curds.length → (s.fmt g).posted.length < 8 →
    ∃ v, (v.fmt g).posted = (s.fmt g).posted ++ [⟨ev, (s.fmt g).readers⟩] ∧ (v.fmt g).gate = (s.fmt g).gate ∧ v.regs = s.regs ∧ v.out = s.out ∧
      exec (.gatePost g ev false) s = .next (settle (reply (.curd g) 0x0A 1 (openReply 0x0A 1 []) true v))) ∧
  (∀ (g : Nat) (ev : GateEv) (s : State), s.hasCurd g = true → 8 ≤ (s.fmt g).posted.length → exec (.gatePost g ev false) s = .next s) ∧
  (∀ (g : Nat) (cap : Capture) (s : State), s.hasCurd g = true → exec (.gateEvent g cap) s = .next (settle (refreshServo g (gateAct g cap s)))) ∧
  (∀ (g : Nat) (cap : Capture) (e : Posted) (l : List Posted) (s : State), (s.fmt g).posted = e :: l → e.opens = true → (s.fmt g).gate = none →
      g < s.curds.length →
    ∃ v, (v.fmt g).posted = l ∧ v.regs = s.regs ∧ gateAct g cap s = showFmt g (openGate g e v)) ∧
  (∀ (g : Nat) (e : Posted) (s : State), e.write = true → s.mayWriteMedia g = false → ((openGate g e s).fmt g).gate = (s.fmt g).gate ∧ (openGate g e s).out = s.out) ∧
  (∀ (g surf pos : Nat) (q : Nat × Nat × Sec) (s : State), s.findSec g (fun x => decide (x.stage = .captured ∧ x.surf = surf ∧ x.pos = pos)) = some q →
    exec (.sectorDecode g surf pos) s = .next (settle (refreshServo g (showFmt g (rungOne g q.1 q.2.1 s))))) ∧
  (∀ (g pos : Nat) (s : State), s.hasCurd g = true → (s.vaultNext g).all (fun q => decide (q.2.2.pos = pos)) = true →
    exec (.vaultRung g pos) s = .next (settle (refreshServo g (vaultStep g (s.wrC g R.CHAN_STAT_VENG 0))))) ∧
  (∀ (g idx rung : Nat) (s : State), s.hasCurd g = true →
    exec (.vaultRungStart g idx rung) s = .next (settle (reply (.curd g) 0x0C 1 (openReply 0x0C 1 [idx, rung]) (s.vaultNext g).isSome
      (if (s.vaultNext g).isSome = true then s.wrC g R.CHAN_STAT_VENG 1 else s)))) ∧
  (∀ (g pos : Nat) (q : Nat × Nat × Sec) (s : State), s.findSec g (fun x => decide (x.stage = .rebuild ∧ x.pos = pos)) = some q →
    exec (.rebuild g pos) s = .next (settle (refreshServo g (showFmt g (rebuildSec g q.1 q.2.1 s))))) ∧
  (∀ (g n : Nat) (s : State), (s.fmt g).settling = some n → g < s.curds.length →
    ∃ v, (v.fmt g).readers = n ∧ (v.fmt g).settling = none ∧ v.regs = s.regs ∧ exec (.readerSettled g) s = .next (settle (powerReaders g v))) ∧
  (∀ (g pos : Nat) (q : Nat × Nat × Sec) (s : State), s.hasCurd g = true → s.findSec g (fun x => decide (x.pos = pos ∧ x.kind = .own)) = some q →
    exec (.readOutcome g pos) s = .next (settle (reply (.curd g) 0x0C 2 (openReply 0x0C 2 [1 + q.2.2.outcome.getD 15, q.2.2.rung, q.2.2.revs]) true s))) ∧
  (∀ (e : VEntry) (z : Zone) (use : List Nat) (k n : Nat), use.Nodup → e.flagged z k n = true → (∀ j ∈ use, j ≠ k → e.flagged z j n = false) →
    e.weight z use k n = 0) ∧
  (∀ (e : VEntry) (z : Zone) (cfg : ChanCfg) (set n : Nat) (prior : List Int),
    (∀ k ∈ (settingOf cfg e.mode z.pair set).readers, e.flagged z k n = true) → (e.soft z cfg set prior).getD n 0 = 0)

/-- R270, R271, R272, R316, R317, R318: what a write puts on the media passes the sector check at its own address, and at no other track. A sector
has 37,040 bits, in dual-mark format 37,072; a write gate that closes has put them on the media, each transition shifted by the entry of PRECOMP that
the three bits before it choose. -/
def Obligations.SectorCheckOfWrites : Prop :=
  (∀ (h t p : Nat) (b : List Byte), b.length = 4112 → checkOk h t p (b ++ natLe 4 (sectorCheck h t p b).toNat) = true) ∧
  (∀ (g : Nat) (r : CRun) (x : Sec) (b : List Byte) (s : State), s.secBytes g r x = some b → b.length = 4112 →
    ∃ p, s.secPayload g r x = some p ∧ p.take 4112 = b ∧ checkOk (4 * g + x.surf) x.track x.pos p = true) ∧
  (∀ (h t u p : Nat) (b : List Byte), b.length = 4112 → t < 2 ^ 32 → u < 2 ^ 32 → t ≠ u →
    checkOk h u p (b ++ natLe 4 (sectorCheck h t p b).toNat) = false) ∧
  (∀ (code : List Bool), code.length = 36864 → (frameSector false code).length = 37040 ∧ (frameSector true code).length = 37072) ∧
  (∀ (b : List Byte), b.length = 4116 → (codeword b).length = 36864 ∧ bitsBytes 4116 ((codeword b).take 32928) = b) ∧
  (∀ (pre : List Int) (a b c d e : Bool), d ≠ e →
    (4, pre.getD (bit (c != d) + 2 * bit (b != c) + 4 * bit (a != b)) 0) ∈ transitions pre 0 none (false, false, false) [a, b, c, d, e]) ∧
  (∀ (pre : List Int) (l : List Bool) (n : Nat), (∀ b ∈ l, b = l.headD false) → transitions pre n none (false, false, false) l = []) ∧
  (∀ (g eseq i : Nat) (e : GateEv) (x : Sec) (r : CRun) (z : Zone) (p : List Byte) (s : State), s.gateSec g e = some (eseq, i, x) →
      (s.fmt g).runs.find? (fun r => r.eseq = eseq) = some r → s.secPayload g r x = some p → s.groupZone g x.surf x.zone = some z →
    .media g x.surf x.track x.pos (frameSector z.dual (codeword p)) (writeLevel z.precomp (s.fmt g).lead (frameSector z.dual (codeword p)))
      ∈ (closeWrite g e s).out)

/-- R264, R312, R313, R319, R321, R470: the synthesiser and the preamplifier. A lost lock or PA_FLT_N low withdraws an open write gate; a fault that lasts 1 ms inhibits
writing, and 10 ms without it end in a fresh INIT sequence; frames go out with their register and value. -/
def Obligations.SynthesiserAndPreamplifier : Prop :=
  (∀ (g : Nat) (s : State), s.hasCurd g = true → g < s.curds.length →
    ∃ v, (v.fmt g).lock = true ∧ v.regs = s.regs ∧ v.out = s.out ∧ v.cmds = s.cmds ∧ exec (.synthLock g) s = .next (settle (showFmt g v))) ∧
  (∀ (g : Nat) (s : State), s.hasCurd g = true → g < s.curds.length →
    ∃ v, (v.fmt g).lock = false ∧ (v.fmt g).gate = (s.fmt g).gate ∧ v.regs = s.regs ∧
      exec (.synthLockLoss g) s = .next (settle (showFmt g (withdrawGate g false v)))) ∧
  (∀ (g : Nat) (shock : Bool) (e : GateEv) (s : State), g < s.curds.length → (s.fmt g).gate = some e → e.write = true →
    ((withdrawGate g shock s).fmt g).gate = none) ∧
  (∀ (g f : Nat) (s : State), s.hasCurd g = true → s.inReset = false → f < 256 → g < s.curds.length →
    ∃ v, (v.fmt g).paLow = true ∧ (v.fmt g).gate = (s.fmt g).gate ∧ v.out = s.out ∧
      exec (.paFault g f) s = .next (settle (showFmt g (curdRaise g 0x10 f ((((withdrawGate g false v).emit
        (.preamp g false (((withdrawGate g false v).paMap g).addr 8) f)).wrC g R.FMT_PASTAT_LASTFLT f)))))) ∧
  (∀ (g : Nat) (s : State), s.hasCurd g = true → (s.fmt g).paLow = true →
    exec (.paFaultPersist g) s = .next (settle (showFmt g (failWrites g (s.wrC g R.FMT_STAT_WINHPA 1))))) ∧
  (∀ (g : Nat) (s : State), s.hasCurd g = true → g < s.curds.length →
    ∃ t, exec (.paFltNRise g) s = .next t ∧ (t.fmt g).paLow = false ∧ t.regs = s.regs ∧ t.out = s.out ∧ t.cmds = s.cmds) ∧
  (∀ (g : Nat) (s : State), s.hasCurd g = true → (s.fmt g).paLow = false → s.bitC g R.FMT_STAT_WINHPA = true →
    exec (.paFaultClear g) s = .next (settle (showFmt g (powerReaders g ((paInit g s).wrC g R.FMT_STAT_WINHPA 0))))) ∧
  (∀ (g a v : Nat) (s : State), s.hasCurd g = true → a < 128 → v < 256 →
    exec (.preampWriteFrame g a v) s = .next (settle (reply (.curd g) 0x0D 1 (openReply 0x0D 1 [a]) true (paWrite g a v s))) ∧
    exec (.preampReadFrame g a v) s = .next (settle (reply (.curd g) 0x0D 2 (openReply 0x0D 2 [a, v]) true
      (modFmt g (fun f => { f with answers := f.answers && ! (s.atStep7 && decide (a = (s.paMap g).addr 8 ∧ v ≠ 0)) }) (s.emit (.preamp g false a v)))))) ∧
  (∀ (g a v : Nat) (s : State), g < s.curds.length → (paWrite g a v s).out = .preamp g true a v :: s.out ∧ assocGet a 0 ((paWrite g a v s).fmt g).pa = v)


/-- R314, R352, R504, R522, R532, R551: orders to a Curd die and its report. -/
def Obligations.CurdOrders : Prop :=
  (∀ (g : Nat) (src : RSlot) (m : Msg) (x : Bool × State) (s : State), s.hasCurd g = true → g < s.curds.length → m.cls = 3 → m.w 0 / 2 ^ 24 = 0x53 → x = firstCopy g src m s →
    (x.1 = false → exec (.endRuns g src m) s = .next (settle x.2)) ∧
    (x.1 = true → ∃ v, (∀ q ∈ (v.fmt g).queue, q.eseq ≠ m.w 1) ∧ v.regs = x.2.regs ∧ v.out = x.2.out ∧
      exec (.endRuns g src m) s = .next (settle (refreshServo g (showFmt g (refuseRun g (m.w 1) (fun _ => true) v)))))) ∧
  (∀ (g : Nat) (src : RSlot) (m : Msg) (x : Bool × State) (s : State), s.hasCurd g = true → m.cls = 3 → m.w 0 / 2 ^ 24 = 0x52 → x = firstCopy g src m s →
    exec (.groupOrder g src m) s = .next (settle (if x.1 = true then applyOrder g (m.w 0) (takeMsg (.curd g src) m x.2) else x.2))) ∧
  (∀ (g : Nat) (s : State), s.hasCurd g = true → exec (.retractOrder g) s = .next (settle (emergencyRetract g s))) ∧
  (∀ (g : Nat) (p : Nat × Int) (s : State), s.hasCurd g = true → s.budget.diodes.find? (fun p => p.1 = curdCode g) = some p →
    exec (.curdDieReportTimer g) s = .next (settle (fromCurd g 2 0 [BitVec.ofNat 32 (6 * 2 ^ 28 +
      max (s.fmt g).readers ((s.fmt g).settling.getD 0) * 2 ^ 26 + bit (s.svLoaded g) * 2 ^ 25 + unsgn 16 p.2), 0] s))) ∧
  (∀ (g : Nat) (s : State), s.hasCurd g = true → s.budget.diodes.find? (fun p => p.1 = curdCode g) = none →
    ∃ t, t < 2 ^ 16 ∧ exec (.curdDieReportTimer g) s = .next (settle (fromCurd g 2 0 [BitVec.ofNat 32 (6 * 2 ^ 28 +
      max (s.fmt g).readers ((s.fmt g).settling.getD 0) * 2 ^ 26 + bit (s.svLoaded g) * 2 ^ 25 + t), 0] { s with free := s.free + 1 })))

/-- R176, R210, R237, R254, R303, R389, R505, R510, R522, R544: reports of the Curd dies at the Rind dies. A report's buffer is freed, and its content takes effect on every
serving die: a sector's outcome, a run's end, a mismatch of copies, an event, the state and temperature of the die, the spindle's state. -/
def Obligations.CurdReports : Prop :=
  (∀ (g eseq w0 w1 : Nat) (n u : State) (s : State), s.hasCurd g = true → w0 / 2 ^ 28 = 1 →
      n = takeRpt g (fun m => m.eseq = eseq && decide (m.payload = [BitVec.ofNat 32 w0, BitVec.ofNat 32 w1])) s → u = sectorOutcome g eseq w0 w1 n →
    ∃ t, t.regs = u.regs ∧ t.cmds = u.cmds ∧ t.versions = u.versions ∧ t.out = u.out ∧ exec (.rptSectorOutcome g eseq w0 w1) s = .next (settle (showSched t))) ∧
  (∀ (g eseq w0 w1 o : Nat) (sl : SlotNo) (b : Band) (s : State), s.blockAt (s.reportPlace g eseq w0 w1) = some (sl, o) → s.xlat.t.bandAt sl = some b →
      b.mapped = true → w0.testBit 15 = false →
    (w0 / 2 ^ 24 % 16 = 2 → ∀ c ∈ s.cmds, c.phase = .admitted → c.reads = true → c.covers b.vol (65536 * b.vband + o) = true →
      65536 * b.vband + o - c.slba ∈ c.taken → (∀ y ∈ s.cmds, y.uid = c.uid → y = c) →
      ∃ x ∈ (sectorOutcome g eseq w0 w1 s).cmds, x.uid = c.uid ∧ 65536 * b.vband + o - c.slba ∈ x.bad) ∧
    (w0 / 2 ^ 24 % 16 = 4 → sectorOutcome g eseq w0 w1 s = writeFailed sl o b.vol (65536 * b.vband + o) s) ∧
    (w0 / 2 ^ 24 % 16 = 5 → sectorOutcome g eseq w0 w1 s = workAgain b.vol (65536 * b.vband + o) s)) ∧
  (∀ (g eseq : Nat) (n : State) (s : State), s.hasCurd g = true → n = takeRpt g (fun m => m.eseq = eseq && decide (m.w 0 / 2 ^ 28 = 2)) s →
    ∃ v, v = fillAfter g (n.runWords g eseq) { n with runs := n.runs.filter (fun r => ! decide (r.1 = g ∧ r.2.1 = eseq)) } ∧
      exec (.rptRunEnd g eseq) s = .next (settle (sendOrders (match v.xlat.relocs.find? (fun r => r.passed && r.marked.isEmpty) with
        | some r => endReloc r v
        | none => v)))) ∧
  (∀ (g ms : Nat) (s : State), s.hasCurd g = true →
    exec (.rptShockEvent g ms) s = .next (settle (takeRpt g (fun m => decide (m.w 0 / 2 ^ 28 = 3 ∧ m.w 1 = ms)) s))) ∧
  (∀ (g cls eseq : Nat) (slot : RSlot) (n : State) (s : State), s.hasCurd g = true → s.part.f = 2 →
      n = takeRpt g (fun m => decide (m.w 0 = 5 * 2 ^ 28 + cls * 2 ^ 24 + slot.code * 2 ^ 23 ∧ m.w 1 = eseq)) s →
    ((n.rind n.senior).step.resyncEseq.any (fun k => aheadMod (2 ^ 32) k eseq) = false →
      exec (.rptCurdMismatch g cls slot eseq) s = .next (settle (diverge 4 (divergenceTarget n.f0.island.ownSince n.f1.island.ownSince n) n))) ∧
    ((n.rind n.senior).step.resyncEseq.any (fun k => aheadMod (2 ^ 32) k eseq) = true → exec (.rptCurdMismatch g cls slot eseq) s = .next (settle n))) ∧
  (∀ (g : Nat) (w0 w1 : Word) (s : State), s.hasCurd g = true → w0.toNat / 2 ^ 28 = 7 →
    exec (.rptFault g w0 w1) s = .next (settle (inStep (fun d t => raiseFull d (curdCode g) (w0.toNat % 2 ^ 16) [w1.toNat] (fixedSev (w0.toNat % 2 ^ 16)) t)
      (takeRpt g (fun m => m.payload = [w0, w1]) s)))) ∧
  (∀ (g : Nat) (w0 : Word) (s : State), s.hasCurd g = true → w0.toNat / 2 ^ 28 = 6 →
    ∃ v, v.budget.reports.find? (fun p => p.1 = g) =
        some (g, ⟨w0.toNat / 2 ^ 26 % 4, w0.toNat.testBit 25, sgn 16 (w0.toNat % 2 ^ 16), s.now⟩) ∧ g ∉ v.budget.missing ∧ v.cmds = s.cmds ∧ v.out = s.out ∧
      exec (.rptDieReport g w0) s = .next (settle (takeReading (curdCode g) (sgn 16 (w0.toNat % 2 ^ 16)) v))) ∧
  (∀ (w0 w1 w2 w3 : Word) (s : State), w0.toNat / 2 ^ 28 = 4 →
    ∃ u, u.budget.spindle = [w0, w1, w2, w3] ∧ u.cmds = s.cmds ∧ u.out = s.out ∧ exec (.rptSpindle w0 w1 w2 w3) s = .next (settle u))

/-- R327, R331, R333 to R335: the arithmetic of the demodulator and the Press. A Gray code reads back as its number; the accumulator stays in 40 bits; a store rounds to
nearest and stays in Q1.15; a limited number stays within its limit. -/
def Obligations.ServoArithmetic : Prop :=
  (∀ n : Nat, n < 2 ^ 24 → grayNat (n ^^^ (n / 2)) = n) ∧
  (∀ x : Int, -(2 ^ 39) ≤ (satAcc x).1 ∧ (satAcc x).1 < 2 ^ 39 ∧ ((satAcc x).2 = false → (satAcc x).1 = x)) ∧
  (∀ a : Int, -32768 ≤ (storeQ a).1 ∧ (storeQ a).1 ≤ 32767 ∧ ((storeQ a).2 = false → 2 * (32768 * (storeQ a).1 - a).natAbs ≤ 32768) ∧
    ((storeQ a).2 = false → 2 * (32768 * (storeQ a).1 - a).natAbs = 32768 → (storeQ a).1 % 2 = 0)) ∧
  (∀ (m : Nat) (x : Int), (limit m x).1.natAbs ≤ m ∧ ((limit m x).2 = false → (limit m x).1 = x)) ∧
  (∀ (c : List Int) (k : Nat) (x : Int) (st : Int × Int × Int × Int), (section5 c k x st).1.natAbs ≤ 32768)

/-- R329 to R332, R336, R341, R342, R346, R349, R355, R359, R470: wedges, inner instants and target requests. A wedge with no position loop changes nothing; a lost
write permission stays lost; an inner instant sends one frame on the ACT port, and none while RET_N is low; a request starts a seek, or waits for a soft start. -/
def Obligations.ServoWedgesAndTargets : Prop :=
  (∀ (g : Nat) (w : Wedge) (s : State), s.hasCurd g = true → exec (.wedgeSample g w) s = .next (settle (wedge g w s))) ∧
  (∀ (g : Nat) (w : Wedge) (s : State), s.svState g ≠ svLoading → s.svMoves g = false → wedge g w s = s) ∧
  (∀ (g : Nat) (s : State), s.regsWf = true → (clearWrok g s).rdC g R.SERVO_STAT_WROK = 0) ∧
  (∀ (g j : Nat) (isns : Int) (lat : Nat) (s : State), s.hasCurd g = true → g < s.curds.length → j < 4 → (s.curd g).retN = true →
    ∃ t u, exec (.innerLoopInstant g j isns lat) s = .next t ∧ u.natAbs ≤ 32767 ∧ (t.servo g).fseq = ((s.servo g).fseq + 1) % 16 ∧
      t.out = .act g (2 ^ 20 + (s.servo g).fseq * 2 ^ 16 + unsgn 16 u) :: s.out ∧ t.cmds = s.cmds) ∧
  (∀ (g j : Nat) (isns : Int) (lat : Nat) (s : State), s.hasCurd g = true → j < 4 → (s.curd g).retN = false →
    exec (.innerLoopInstant g j isns lat) s = .next s) ∧
  (∀ (g surf track : Nat) (s : State), s.hasCurd g = true → surf < 4 →
    exec (.servoTargetRequest g surf track) s =
      .next (settle (reply (.curd g) 0x0B 1 (openReply 0x0B 1 [surf, track]) true (showFmt g (requestTarget g surf track s))))) ∧
  (∀ (g surf track : Nat) (n s : State), n = s.wrC g R.SERVO_STAT_SURF surf →
    (n.svLoaded g = true → (s.servo g).ramp = none → (s.servo g).restart = false → requestTarget g surf track s = startSeek g track n) ∧
    (n.svLoaded g = true → (s.servo g).ramp.isSome = true → requestTarget g surf track s = modServo g (fun v => { v with held := some track }) n) ∧
    (n.svLoaded g = false → requestTarget g surf track s = modServo g (fun v => { v with target := track }) n)) ∧
  (∀ (g : Nat) (s : State), s.hasCurd g = true →
    exec (.servoStatusRead g) s = .next (settle (reply (.curd g) 0x0B 2 (openReply 0x0B 2 [(s.word (regKey (curdCode g) 0x30000)).toNat,
      (s.word (regKey (curdCode g) 0x30004)).toNat, (s.word (regKey (curdCode g) 0x30008)).toNat]) true s)))

/-- R340, R344, R345, R351 to R354: loads, unloads and retracts. A load raises RET_N and enters Loading; an emergency retract and a failed load leave RET_N low. -/
def Obligations.ServoLoadsAndRetracts : Prop :=
  (∀ (g : Nat) (s : State), s.hasCurd g = true → s.canLoad g = true → s.groupWanted g = true → exec (.loadStart g) s = .next (settle (startLoad g s))) ∧
  (∀ (g : Nat) (s : State), g < s.curds.length → s.regsWf = true → ((startLoad g s).curd g).retN = true ∧ (startLoad g s).svState g = svLoading ∧
    ∃ f, (startLoad g s).out = .act g f :: s.out) ∧
  (∀ (g : Nat) (s : State), s.hasCurd g = true → s.svState g = svLoading → exec (.loadTimeout g) s = .next (settle (failLoad g s))) ∧
  (∀ (g : Nat) (s : State), g < s.curds.length → ((failLoad g s).curd g).retN = false ∧ ((failLoad g s).servo g).mayLoad = false) ∧
  (∀ (g : Nat) (s : State), s.hasCurd g = true → g < s.curds.length → s.svLoaded g = true →
    ∃ t, exec (.loadStable g) s = .next t ∧ (t.servo g).fails = 0 ∧ t.regs = s.regs ∧ t.out = s.out ∧ t.cmds = s.cmds) ∧
  (∀ (g : Nat) (s : State), s.hasCurd g = true → g < s.curds.length → (s.curd g).retN = false →
    ∃ v, (v.servo g).mayLoad = true ∧ v.regs = s.regs ∧ v.out = s.out ∧
      exec (.retractHoldExpire g) s = .next (settle (if s.svState g = svRetract then showFmt g (setSv g svParked v) else v))) ∧
  (∀ (g : Nat) (s : State), s.hasCurd g = true → exec (.unload g) s = .next (settle (startUnload g s))) ∧
  (∀ (g : Nat) (s : State), s.hasCurd g = true → s.svState g = svUnloading →
    exec (.unloadComplete g) s = .next (settle (showFmt g (endUnload g s)))) ∧
  (∀ (g : Nat) (s : State), s.hasCurd g = true → s.linkUp (.curd g .f0) = false → s.linkUp (.curd g .f1) = false →
    exec (.linkAbsentUnload g) s = .next (settle (startUnload g s))) ∧
  (∀ (g : Nat) (s : State), s.hasCurd g = true → (s.curd g).retN = true → exec (.pressHeartbeatLoss g) s = .next (settle (emergencyRetract g s))) ∧
  (∀ (g : Nat) (s : State), g < s.curds.length → s.regsWf = true → (s.curd g).retN = true →
    ((emergencyRetract g s).curd g).retN = false ∧ (emergencyRetract g s).svState g = svRetract ∧ ((emergencyRetract g s).servo g).mayLoad = false) ∧
  (∀ (g : Nat) (s : State), g < s.curds.length → s.regsWf = true → s.svState g = svUnloading →
    ((endUnload g s).curd g).retN = false ∧ (endUnload g s).svState g = (if 3 ≤ (s.servo g).fails then svOffline else svParked) ∧ ∃ f, (endUnload g s).out = .act g f :: s.out)

/-- R61, R363 to R368, R374, R378 to R380, R389, R504: the spindle's samples, targets and ceiling. The set-point is rounded into range; the ceiling lies between 3,600 and
7,200 rpm in valid steps of 60; the report goes to the Rind dies. -/
def Obligations.SpindleTargetsAndCeiling : Prop :=
  (∀ (v : Valley) (s : State), s.inReset = false → exec (.pwmValley v) s = .next (settle (valley v s))) ∧
  (∀ (v : Valley) (s : State), s.inReset = true → exec (.pwmValley v) s = .next s) ∧
  (∀ s : State, s.spin.begun = true → exec .speedLoopTick s = .next (settle (speedTick s))) ∧
  (∀ s : State, ∃ v, v.spin.pwrSum = 0 ∧ v.spin.pwrN = 0 ∧ v.cmds = s.cmds ∧ v.out = s.out ∧ exec .spindleReportTimer s = .next (settle (spinReport v))) ∧
  (∀ (src : RSlot) (m : Msg) (x : Bool × State) (s : State), m.cls = 3 → m.w 0 / 2 ^ 24 = 0x51 → x = firstCopy 0 src m s →
    exec (.spindleSetpoint src m) s =
      .next (settle (if x.1 = true then applySetpoint m.eseq (m.w 0 % 2 ^ 16) (takeMsg (.curd 0 src) m x.2) else x.2))) ∧
  (∀ v : Nat, roundSetpoint v = 0 ↔ v = 0) ∧
  (∀ v : Nat, v ≠ 0 → 3600 ≤ roundSetpoint v ∧ roundSetpoint v ≤ 7200 ∧ roundSetpoint v % 60 = 0 ∧ (3600 ≤ v → roundSetpoint v ≤ v)) ∧
  (∀ (e v : Nat) (s : State), s.regsWf = true → s.spin.setEseq = none → s.spin.begun = false →
    (applySetpoint e v s).rdC 0 R.SPIN_TARGET_SETPT = roundSetpoint v ∧ (applySetpoint e v s).spin.setEseq = some e) ∧
  (∀ (e v k : Nat) (s : State), s.spin.setEseq = some k → aheadMod (2 ^ 32) k e = true → applySetpoint e v s = s) ∧
  (∀ (level freq : Nat) (s : State), exec (.spdlimSample level freq) s = .next (settle (spdSample level freq s))) ∧
  (∀ (level freq : Nat) (s : State), s.regsWf = true → s.boot.board.polePairs ≠ 0 → (spdSample level freq s).spdValid = true →
    3600 ≤ (spdSample level freq s).spin.computed ∧ (spdSample level freq s).spin.computed ≤ 7200 ∧ (spdSample level freq s).spin.computed % 60 = 0) ∧
  (∀ s : State, s.spdValid = false → s.bitC 0 R.SPIN_STAT_SPDOPEN = false →
    exec .spdlimOpen s = .next (settle (curdRaise 0 0x2C 0 ((s.wrC 0 R.SPIN_STAT_SPDOPEN 1).wrC 0 R.SPIN_CEIL_CEIL s.boot.board.openCeil)))) ∧
  (∀ s : State, s.spdValid = true → s.bitC 0 R.SPIN_STAT_SPDOPEN = true →
    exec .spdlimValidPersist s = .next (settle ((s.wrC 0 R.SPIN_STAT_SPDOPEN 0).wrC 0 R.SPIN_CEIL_CEIL s.spin.computed))) ∧
  (∀ s : State, s.spdValid = true → s.bitC 0 R.SPIN_STAT_SPDOPEN = false → s.rdC 0 R.SPIN_CEIL_CEIL < s.spin.computed →
    exec .spdlimCeilingRaise s = .next (settle (s.wrC 0 R.SPIN_CEIL_CEIL s.spin.computed)))

/-- R369 to R377: leaving rest. Resistances give the estimate; a cold spindle is cooked first; the float decides between rest, a catch and a coast; the shortest rise gives the
axis; a hand-over that does not come fails the attempt, and the third fails the start. -/
def Obligations.SpindleStarts : Prop :=
  (∀ (a b c : Nat) (n s : State), s.spState = spMeasuring → s.spinFree = true → n = restMeasure a b c s →
    (n.warmEnough = true ∨ (n.spin.stored = true ∧ n.rdC 0 R.SPIN_TARGET_SETPT = 0) → exec (.resistanceMeasured a b c) s = .next (settle (standstill n))) ∧
    (n.warmEnough = false → n.spin.stored = false ∨ n.rdC 0 R.SPIN_TARGET_SETPT ≠ 0 → ∃ v, v.spin.bridge = true ∧ v.spin.pair = 0 ∧
      v.spin.cookPwr = n.rdC 0 R.SPIN_COOK_COOKPWR ∧ v.regs = n.regs ∧
      exec (.resistanceMeasured a b c) s = .next (settle (setSp spCooking v)))) ∧
  (∀ (rp : Nat) (c : HdaCal) (s : State), s.boot.cal = some c → s.spState = spRunning → s.spin.speedRef = 1000 * s.rdC 0 R.SPIN_TARGET_APPLIED →
      s.bitC 0 R.SPIN_STAT_FW = false →
    exec (.hdaReestimate rp) s = .next (storeEstimate (pairTemp c (2 * rp) ((c.resab + c.resbc + c.resca) / 3)) (2 * rp) 1 s)) ∧
  (∀ (t : Int) (r src : Nat) (s : State), s.regsWf = true → -32768 ≤ t → t < 32768 →
    sgn 16 ((storeEstimate t r src s).rdC 0 R.SPIN_HDA_TEMP) = t ∧ (storeEstimate t r src s).rdC 0 R.SPIN_HDA_VALID = 1 ∧ (storeEstimate t r src s).spin.hdaAt = s.now) ∧
  (∀ (r : Nat) (u s : State), s.spState = spCooking → s.spinFree = true → u = { s with spin := { s.spin with cookPwr := s.rdC 0 R.SPIN_COOK_COOKPWR } } →
    ∃ t, exec (.cookPairChange r) s = .next t ∧ t.spin.pair = (s.spin.pair + 1) % 3 ∧ (s.pins.sagPause = false → t.spin.still = u.cookCurrent r) ∧
      t.regs = s.regs ∧ t.out = s.out) ∧
  (∀ (r : Nat) (s : State), 0 < r → s.cookCurrent r ≤ s.rdC 0 R.SPIN_LIM_ILIM ∧
    s.cookCurrent r * s.cookCurrent r * r ≤ s.spin.cookPwr * 100000000000) ∧
  (∀ (a b c : Nat) (n s : State), s.spState = spCooking → s.spinFree = true → n = restMeasure a b c s →
    (n.warmEnough = true → exec (.cookCheck a b c) s = .next (settle (standstill n))) ∧
    (n.warmEnough = false → ∃ t, exec (.cookCheck a b c) s = .next t ∧ t.regs = n.regs ∧ t.out = n.out ∧ t.spin.pair = n.spin.pair)) ∧
  (∀ s : State, s.spState = spCooking → s.spinFree = true →
    exec .cookTimeout s = .next (settle (standstill (if s.bitC 0 R.SPIN_HDA_VALID = true then curdRaise 0 0x2A (s.rdC 0 R.SPIN_HDA_TEMP) s else s)))) ∧
  (∀ s : State, s.spin.due = true → s.spinFree = true →
    ∃ v, v.spin.due = false ∧ v.spin.bridge = false ∧ v.spin.floats = 0 ∧ v.regs = s.regs ∧ exec .startDecision s = .next (settle (setSp spFloating v))) ∧
  (∀ (dips rets : List Nat) (s : State), s.spin.due = true → s.spinFree = true → s.rdC 0 R.SPIN_VTHR2_VMOTUV ≤ s.rdC 0 R.SPIN_VMOT_VMOT →
      dips.length = 3 → rets.length = 3 →
    ((∀ x ∈ dips, s.boot.board.chopDip ≤ x) → (∀ x ∈ rets, x ≤ s.boot.board.chopDip) →
      exec (.chopperTest dips rets) s = .next (settle (s.wrC 0 R.SPIN_STAT_CHOPOK 1))) ∧
    ((∃ x ∈ dips, x < s.boot.board.chopDip) ∨ (∃ x ∈ rets, s.boot.board.chopDip < x) → exec (.chopperTest dips rets) s = .next (settle (curdRaise 0 0x2B 0 (s.wrC 0 R.SPIN_STAT_CHOPOK 0))))) ∧
  (∀ s : State, s.spState = spFloating → s.spinFree = true →
    (s.aboveFloor s.spin.bemf = false → exec .floatEnd s = .next (settle (atRest s))) ∧
    (s.aboveFloor s.spin.bemf = true → 300 ≤ s.rpm → s.bitC 0 R.SPIN_STAT_DIR = false → s.bitC 0 R.SPIN_STAT_LOCK = true →
      exec .floatEnd s = .next (settle (catchRotor s))) ∧
    (s.aboveFloor s.spin.bemf = true → 300 ≤ s.rpm → s.bitC 0 R.SPIN_STAT_DIR = false → s.bitC 0 R.SPIN_STAT_LOCK = false →
      exec .floatEnd s = .next (settle (if s.spin.floats < 4 then { s with spin := { s.spin with floats := s.spin.floats + 1 } } else coast s))) ∧
    (s.aboveFloor s.spin.bemf = true → s.rpm < 300 ∨ s.bitC 0 R.SPIN_STAT_DIR = true → exec .floatEnd s = .next (settle (coast s)))) ∧
  (∀ s : State, s.spState = spCoasting → s.spin.belowSince.isSome = true → s.spin.due = false → s.spinFree = true →
    exec .coastDone s = .next (settle (atRest s))) ∧
  (∀ (rises : List Nat) (s : State), s.spState = spSensing → s.spinFree = true → rises.length = 6 →
    ∃ v i, v.spin.axis = some i ∧ i < 6 ∧ (∀ x ∈ rises, rises.getD i 0 ≤ x) ∧ v.spin.openRpm = 0 ∧ v.spin.bridge = true ∧ v.regs = s.regs ∧
      exec (.positionSensed rises) s = .next (settle (setSp spOpenLoop v))) ∧
  (∀ s : State, s.spState = spOpenLoop → 240000 ≤ s.spin.openRpm →
    ∃ v, v.spin.attempts = s.spin.attempts + 1 ∧ v.spin.bridge = false ∧ v.out = s.out ∧
      exec .handoverTimeout s = .next (settle (if 2 ≤ s.spin.attempts then curdRaise 0 0x28 (s.spin.attempts + 1) (setSp spFailed v) else coast v)))

/-- R383, R387, R388: the spindle's protection. The third overcurrent event within 10 ms, a low VMOT or a lost heartbeat turns the bridge off and a start decision follows;
VMOT past VBRK2 latches the outputs low until it has recovered. -/
def Obligations.SpindleProtection : Prop :=
  (∀ s : State, s.spin.bridge = true → (s.spin.ovc.filter (fun t => s.now < t + 10000)).length < 2 →
    ∃ u, exec .overcurrent s = .next (settle u) ∧ u.spin.bridge = true ∧ s.now ∈ u.spin.ovc ∧ u.cmds = s.cmds ∧ u.out = s.out) ∧
  (∀ s : State, s.spin.bridge = true → 2 ≤ (s.spin.ovc.filter (fun t => s.now < t + 10000)).length →
    ∃ v, v.spin.ovc = [] ∧ v.cmds = s.cmds ∧ v.out = s.out ∧ exec .overcurrent s = .next (settle (loseBridge v))) ∧
  (∀ s : State, (loseBridge s).spin.bridge = false ∧ (loseBridge s).spin.brk = false ∧ (loseBridge s).spin.due = true ∧ (loseBridge s).spin.iqRef = 0) ∧
  (∀ s : State, s.spin.bridge = true → exec .vmotUndervoltage s = .next (settle (loseBridge (s.wrC 0 R.SPIN_STAT_VMOTLOW 1)))) ∧
  (∀ s : State, s.spin.bridge = false → exec .vmotUndervoltage s = .next (settle (s.wrC 0 R.SPIN_STAT_VMOTLOW 1))) ∧
  (∀ s : State, exec .vmotRecovered s = .next (settle (s.wrC 0 R.SPIN_STAT_VMOTLOW 0))) ∧
  (∀ s : State, s.spin.bridge = true ∨ s.spin.brk = true → exec .spinHeartbeatLoss s = .next (settle (loseBridge s))) ∧
  (∀ s : State, s.spin.latched = true → s.rdC 0 R.SPIN_VMOT_VMOT < s.rdC 0 R.SPIN_VTHR1_VBRK1 →
    ∃ v, v.spin.latched = false ∧ v.regs = s.regs ∧ exec .overvoltageRelease s = .next (settle (loseBridge v))) ∧
  (∀ s : State, (latchOff s).spin.bridge = false ∧ (latchOff s).spin.brk = false ∧ (latchOff s).spin.latched = true) ∧
  (∀ s : State, s.regsWf = true → (endBraking s).rdC 0 R.SPIN_STAT_BRKDIS = 1 ∧ (endBraking s).spin.iqRef = 0)

/-- R395, R396: the symbol code. A codeword's check symbols make its four syndromes zero and leave its data as they are, and a single symbol error, wherever it lies and
whatever its value, is found and corrected. -/
def Obligations.SymbolCode : Prop :=
  (∀ data : List Nat, data.length = 16 → (∀ x ∈ data, x < 256) →
    syndromes (encodeCw data) = [0, 0, 0, 0] ∧ (encodeCw data).length = 20 ∧ (encodeCw data).take 16 = data) ∧
  (∀ p e : Nat, p < 20 → 0 < e → e < 256 → decodeErrs [] ((List.range 4).map (fun j => gfMul e (alpha (p * j)))) = some [(p, e)]) ∧
  (∀ k : Nat, k < 10 → (deviceSyms k).length = 2 ∧ ∀ i ∈ deviceSyms k, i < 20)

/-- R396 to R399, R402 to R406: reads and writes of codewords. A codeword that is written whole reads back as it was written, unpoisoned; a read of a codeword that is on
the poison list is poisoned; a burst's codeword is decoded, and goes to the fill that waits for it; a merge entry leaves by its age.
R408, R410 to R412: refresh, pages and alerts. The fifth refresh that a bank set owes is forced, and leaves its banks idle; a channel's rate follows its devices; an
alert is replayed, and a second one resets the controller; a bank without requests closes its row, and an idle set takes what it owes. -/
def Obligations.BufferMemory : Prop :=
  (∀ (d : RSlot) (cw : Nat) (syms : List Byte) (s : State), s.hasRind d = true → syms.length = 20 → 16 * cw < s.dataBytes d →
    (s.rind d).cave.fills.any (fun f => f.line = cw / 8) = false →
    exec (.bmemReadComplete d cw syms) s = .next (settle (modBmem d (fun m => { m with replay := m.replay.erase (cwChan cw) })
      (decodeCw d cw (syms.map BitVec.toNat) (openRow d cw s)).2.2))) ∧
  (∀ (d : RSlot) (cw : Nat) (syms : List Byte) (s : State), s.hasRind d = true → syms.length = 20 → 16 * cw < s.dataBytes d →
    (s.rind d).cave.fills.any (fun f => f.line = cw / 8) = true →
    ∃ v, exec (.bmemReadComplete d cw syms) s = .next (settle v) ∧ v.regs = (decodeCw d cw (syms.map BitVec.toNat) (openRow d cw s)).2.2.regs ∧
      (v.rind d).bmem.arrived.head? = some (cw, (decodeCw d cw (syms.map BitVec.toNat) (openRow d cw s)).1,
        (decodeCw d cw (syms.map BitVec.toNat) (openRow d cw s)).2.1)) ∧
  (∀ (d : RSlot) (cw : Nat) (syms : List Nat) (s : State),
    (cw ∉ (s.rind d).bmem.poison → syndromes syms = [0, 0, 0, 0] → decodeCw d cw syms s = ((syms.take 16).map (BitVec.ofNat 8), false, s)) ∧
    (cw ∈ (s.rind d).bmem.poison → decodeCw d cw syms s = ((syms.take 16).map (BitVec.ofNat 8), true, uncorrectable d cw s))) ∧
  (∀ (d : RSlot) (cw : Nat) (data : List Byte) (s : State), data.length = 16 → Memory.wf (s.rind d).bmem.cells = true → (s.rind d).bmem.merges = [] →
    (writeCw d cw data s).cwData d cw = data ∧ cw ∉ ((writeCw d cw data s).rind d).bmem.poison ∧
    (readCw d cw (writeCw d cw data s)).1 = data ∧ (readCw d cw (writeCw d cw data s)).2.1 = false ∧
    ∀ x, x ≠ cw → (writeCw d cw data s).cwData d x = s.cwData d x) ∧
  (∀ (d : RSlot) (c : Nat) (s : State), ∃ t, exec (.markWindowExpire d c) s = .next t ∧ t.regs = s.regs ∧ t.out = s.out ∧
    assocGet c 0x40 (t.rind d).bmem.thr = s.rdR d R.BMEM_MARKCFG_THR ∧ ∀ k n, (k, n) ∈ (t.rind d).bmem.window ↔ (k, n) ∈ (s.rind d).bmem.window ∧ k / 10 ≠ c) ∧
  (∀ (d : RSlot) (cw : Nat) (e : MergeEntry) (s : State), (s.rind d).bmem.merges.find? (fun e => e.cw = cw) = some e →
    exec (.mergeAgeExpire d cw) s = .next (settle (mergeOut d e s)) ∧ ((mergeOut d e s).rind d).bmem.merges = (s.rind d).bmem.merges.erase e) ∧
  (∀ (d : RSlot) (cw : Nat) (s : State), (s.rind d).bmem.merges.find? (fun e => e.cw = cw) = none → exec (.mergeAgeExpire d cw) s = .next s) ∧
  (∀ (d : RSlot) (c set : Nat) (s : State), s.regsWf = true → s.hasRind d = true → c < 2 → set < 8 →
    (s.setIdle d (8 * c + set) = true → exec (.refreshDue d c set) s = .next s) ∧
    (s.setIdle d (8 * c + set) = false → assocGet (8 * c + set) 0 (s.rind d).bmem.owed < 4 →
      ∃ t, exec (.refreshDue d c set) s = .next t ∧ t.regs = s.regs ∧ (t.rind d).bmem.rows = (s.rind d).bmem.rows ∧
        assocGet (8 * c + set) 0 (t.rind d).bmem.owed = assocGet (8 * c + set) 0 (s.rind d).bmem.owed + 1) ∧
    (s.setIdle d (8 * c + set) = false → 4 ≤ assocGet (8 * c + set) 0 (s.rind d).bmem.owed →
      ∃ t, exec (.refreshDue d c set) s = .next t ∧ t.setIdle d (8 * c + set) = true ∧
        t.rdR d R.BMEM_REF_FORCED = satAdd R.BMEM_REF_FORCED.top (s.rdR d R.BMEM_REF_FORCED) 1 ∧
        ∀ k r, inBankSet (8 * c + set) k = false → ((k, r) ∈ (t.rind d).bmem.rows ↔ (k, r) ∈ (s.rind d).bmem.rows))) ∧
  (∀ (d : RSlot) (c : Nat) (hot : List Bool) (s : State), s.regsWf = true → s.hasRind d = true → c < 2 →
    ∃ t, exec (.refreshRatePoll d c hot) s = .next t ∧ (t.rdR d R.BMEM_REF_FAST).testBit c = hot.any id ∧
      (t.rdR d R.BMEM_REF_FAST).testBit (1 - c) = (s.rdR d R.BMEM_REF_FAST).testBit (1 - c) ∧ t.rdR d R.BMEM_REF_FORCED = s.rdR d R.BMEM_REF_FORCED) ∧
  (∀ (d : RSlot) (c : Nat) (s : State), s.hasRind d = true → c < 2 →
    (c ∉ (s.rind d).bmem.replay → ∃ t, exec (.dramAlert d c) s = .next t ∧ (t.rind d).bmem.replay = c :: (s.rind d).bmem.replay ∧
      t.regs = (s.incR d R.BMEM_ORDER_ALERT).regs ∧ (t.rind d).bmem.cells = (s.rind d).bmem.cells) ∧
    (c ∈ (s.rind d).bmem.replay →
      exec (.dramAlert d c) s = .next (settle (functionReset d .bmem (raise d 0x083 [c] (s.incR d R.BMEM_ORDER_ALERT)))))) ∧
  (∀ (d : RSlot) (c bank : Nat) (s : State), c < 2 → bank < 64 →
    ∃ t, exec (.pageIdle d c bank) s = .next t ∧ t.regs = s.regs ∧ (t.rind d).bmem.cells = (s.rind d).bmem.cells ∧
      (∀ k r, (k, r) ∈ (t.rind d).bmem.rows ↔ (k, r) ∈ (s.rind d).bmem.rows ∧ k ≠ 64 * c + bank) ∧
      (t.setIdle d (8 * c + 4 * (bank / 32) + bank / 8 % 4) = true → assocGet (8 * c + 4 * (bank / 32) + bank / 8 % 4) 0 (t.rind d).bmem.owed = 0))


/-- R418: a handle's fields, the generation of a buffer at an allocation, and a stale handle. -/
def Obligations.BufferHandles : Prop :=
  (∀ p gen i : Nat, p < 4 → gen < 256 → i < 2 ^ 22 →
    vatHandle p gen i < 2 ^ 32 ∧ handleParts (vatHandle p gen i) = (p, gen, i) ∧
    (BitVec.ofNat 32 (vatHandle p gen i)).extractLsb' 30 2 = BitVec.ofNat 2 p ∧
    (BitVec.ofNat 32 (vatHandle p gen i)).extractLsb' 22 8 = BitVec.ofNat 8 gen ∧
    (BitVec.ofNat 32 (vatHandle p gen i)).extractLsb' 0 22 = BitVec.ofNat 22 i) ∧
  (∀ (d : RSlot) (p i owner : Nat) (s : State),
    (((grantBuf d p i owner s).2.rind d).vat.buf p i).gen = (((s.rind d).vat.buf p i).gen + 1) % 256 ∧
    (((grantBuf d p i owner s).2.rind d).vat.buf p i).held = some (1, owner) ∧
    (grantBuf d p i owner s).1 = vatHandle p ((((s.rind d).vat.buf p i).gen + 1) % 256) i ∧
    ∀ q j, (q ≠ p ∨ j ≠ i) → ((grantBuf d p i owner s).2.rind d).vat.buf q j = (s.rind d).vat.buf q j) ∧
  (∀ (d : RSlot) (owner handle : Nat) (rename : Bool) (s : State), ownerOk owner = true → (handleParts handle).2.2 < s.poolCount d (handleParts handle).1 →
    ((s.rind d).vat.buf (handleParts handle).1 (handleParts handle).2.2).gen ≠ (handleParts handle).2.1 →
    (vatShare d owner handle rename s).1.status = 0x10 ∧ (vatRelease d owner handle s).1.status = 0x10 ∧ (vatFree d owner handle s).1.status = 0x10)

/-- R419 to R426: the five requests of the Vat, which are inputs in step. An ALLOC that is granted gives a buffer of the size that was free, and never the same one twice;
holdings rise and fall by one; a buffer returns only by its last owner, alone; a refused request changes no buffer and no queue. -/
def Obligations.VatRequests : Prop :=
  (∀ (owner size : Nat) (promote wait : Bool) (s : State), exec (.alloc owner size promote wait) s =
    .next (settle (inStep (vatRequest 1 owner size (fun d t => ((vatAlloc d owner size promote wait t).1,
      noteAsker d (t.vatAsker d 1 owner size) (vatAlloc d owner size promote wait t).1 (vatAlloc d owner size promote wait t).2))) s))) ∧
  (∀ (owner : Nat) (handle : Word) (rename : Bool) (s : State), exec (.share owner handle rename) s =
    .next (settle (inStep (vatRequest 2 owner handle.toNat (fun d t => vatShare d owner handle.toNat rename t)) s))) ∧
  (∀ (owner : Nat) (handle : Word) (s : State), exec (.release owner handle) s =
    .next (settle (inStep (vatRequest 3 owner handle.toNat (fun d t => vatRelease d owner handle.toNat t)) s))) ∧
  (∀ (owner : Nat) (handle : Word) (s : State), ∃ f, exec (.free owner handle) s = .next (settle (inStep (vatRequest 4 owner handle.toNat f) s)) ∧
    ∀ d t, (f d t).1 = (vatFree d owner handle.toNat t).1 ∧ ((f d t).2.rind d).vat = ((vatFree d owner handle.toNat t).2.rind d).vat) ∧
  (∀ (owner ticket : Nat) (s : State), exec (.cancel owner ticket) s =
    .next (settle (inStep (vatRequest 5 owner ticket (fun d t => vatCancel d owner ticket t)) s))) ∧
  (∀ (d : RSlot) (owner size : Nat) (promote wait : Bool) (s : State), (vatAlloc d owner size promote wait s).1.status = 0 →
    ∃ p gen i, (vatAlloc d owner size promote wait s).1.value = vatHandle p gen i ∧ p < 4 ∧ gen < 256 ∧ i < s.poolCount d p ∧ size ≤ s.poolSize d p ∧
      ((s.rind d).vat.buf p i).held = none ∧ (((vatAlloc d owner size promote wait s).2.rind d).vat.buf p i).held = some (1, owner) ∧
      ∀ q j, (q ≠ p ∨ j ≠ i) → ((vatAlloc d owner size promote wait s).2.rind d).vat.buf q j = (s.rind d).vat.buf q j) ∧
  (∀ (d : RSlot) (op owner handle status term : Nat) (s : State), (refuse d op owner handle status term s).1.status = status ∧
    ((refuse d op owner handle status term s).2.rind d).vat.bufs = (s.rind d).vat.bufs ∧
    ((refuse d op owner handle status term s).2.rind d).vat.waits = (s.rind d).vat.waits) ∧
  (∀ (d : RSlot) (owner p i gen n last : Nat) (rename : Bool) (s : State), ownerOk owner = true → p < 4 → gen < 256 → i < 2 ^ 22 → i < s.poolCount d p →
    (s.rind d).vat.buf p i = ⟨p, i, gen, some (n, last)⟩ →
    (n < 255 → (vatShare d owner (vatHandle p gen i) rename s).1.status = 0 ∧
      (((vatShare d owner (vatHandle p gen i) rename s).2.rind d).vat.buf p i).held = some (n + 1, if rename then owner else last)) ∧
    (n = 255 → (vatShare d owner (vatHandle p gen i) rename s).1.status = 0x15) ∧
    (owner = last → (vatRelease d owner (vatHandle p gen i) s).1.status = 0x13) ∧
    (owner ≠ last → n = 1 → (vatRelease d owner (vatHandle p gen i) s).1.status = 0x14) ∧
    (owner ≠ last → n ≠ 1 → (((vatRelease d owner (vatHandle p gen i) s).2.rind d).vat.buf p i).held = some (n - 1, last)) ∧
    (owner ≠ last → (vatFree d owner (vatHandle p gen i) s).1.status = 0x11) ∧
    (owner = last → n ≠ 1 → (vatFree d owner (vatHandle p gen i) s).1.status = 0x12) ∧
    (owner = last → n = 1 → (vatFree d owner (vatHandle p gen i) s).1.status = 0 ∧
      ((s.rind d).vat.waits = [] → (((vatFree d owner (vatHandle p gen i) s).2.rind d).vat.buf p i).held = none)))

/-- R429 to R436, R438: accesses through the Cave. The pseudo-LRU bits after a touch point away from the way, and the walk goes elsewhere; a read that the Cave serves is
answered at once; a miss joins a fill, and a fill in flight answers every requester; evictions leave in the order in which they entered.
R437, R440, R441, R470: an engine's maintenance operation, and its end. -/
def Obligations.CaveAccessesAndMaintenance : Prop :=
  (∀ (b : BitVec 15) (w : Nat), w < 16 → (∀ p ∈ plruPath w, (plruTouch b w).getLsbD (p.1 - 1) = p.2) ∧
    (∀ n, n < 15 → (∀ p ∈ plruPath w, p.1 - 1 ≠ n) → (plruTouch b w).getLsbD n = b.getLsbD n) ∧
    plruWalk (plruTouch b w) (List.range 16) 4 1 0 ≠ w) ∧
  (∀ (d : RSlot) (who : AccWho) (addr : Nat) (noalloc : Bool) (s : State), s.hasRind d = true → addr < s.dataBytes d →
    (s.caveOn d = false ∨ s.caveServes d (addr / 128) = true →
      exec (.caveRead d who addr noalloc) s = .next (settle ((caveReadLine d who.cls (addr / 128) (! noalloc) s).2.2.emit
        (.load (caveReadLine d who.cls (addr / 128) (! noalloc) s).1 (caveReadLine d who.cls (addr / 128) (! noalloc) s).2.1)))) ∧
    (s.caveOn d = true → s.caveServes d (addr / 128) = false →
      exec (.caveRead d who addr noalloc) s = .next (settle (joinFill d who (addr / 128) noalloc (countLookup d (addr / 128) (maintRun d s)))))) ∧
  (∀ (d : RSlot) (who : AccWho) (line : Nat) (noalloc : Bool) (s : State),
    ∃ f ∈ ((joinFill d who line noalloc s).rind d).cave.fills, f.line = line ∧ who ∈ f.waiters) ∧
  (∀ (d : RSlot) (who : AccWho) (addr : Nat) (data : List Byte) (s : State), s.hasRind d = true → addr + data.length ≤ s.dataBytes d →
    exec (.caveWrite d who addr data) s = .next (settle (caveWrite d who addr data false s))) ∧
  (∀ (d : RSlot) (line : Nat) (s : State), ((s.rind d).cave.fills.take maxFills).find? (fun f => f.line = line) = none → exec (.caveFillComplete d line) s = .next s) ∧
  (∀ (d : RSlot) (line : Nat) (f : Fill) (s : State), ((s.rind d).cave.fills.take maxFills).find? (fun f => f.line = line) = some f →
    ∃ u data bad, exec (.caveFillComplete d line) s = .next (settle u) ∧ ((u.rind d).bmem.arrived.all (fun p => p.1 / 8 ≠ line)) = true ∧
      ∃ pre, u.out = List.replicate f.waiters.length (.load data bad) ++ pre) ∧
  (∀ (d : RSlot) (s : State), s.hasRind d = true → exec (.evictionDrain d) s = .next (settle (evictDrain d s))) ∧
  (∀ (d : RSlot) (s : State), (s.rind d).cave.evict.all (fun e => e.issued) = true → ((evictDrain d s).rind d).cave.evict = []) ∧
  (∀ (d : RSlot) (e : Evicted) (rest : List Evicted) (s : State), (s.rind d).cave.evict = e :: rest → (∀ x ∈ e :: rest, x.issued = false) →
    ((evictDrain d s).rind d).cave.evict = { e with issued := true } :: rest) ∧
  (∀ (d : RSlot) (op : Nat) (spare : Bool) (s : State), s.hasRind d = true → op < 4 →
    exec (.caveMaintStart d op spare) s = .next (settle (answerAny d 0x0D 1 (openReply 0x0D 1 [bit (! s.bitR d R.CAVE_STAT_BUSY)])
      (! s.bitR d R.CAVE_STAT_BUSY) (maintStart d op spare s)))) ∧
  (∀ (d : RSlot) (op : Nat) (spare : Bool) (s : State), s.regsWf = true → s.bitR d R.CAVE_STAT_BUSY = false → op ≠ 0 →
    s.rdR d R.CAVE_MBASE_LINE ≤ s.rdR d R.CAVE_MLIMIT_LINE →
    (maintStart d op spare s).bitR d R.CAVE_STAT_BUSY = true ∧ ((maintStart d op spare s).rind d).cave.lines = (s.rind d).cave.lines ∧
    ((maintStart d op spare s).rind d).cave.maint = some ⟨op, s.rdR d R.CAVE_MBASE_LINE, s.rdR d R.CAVE_MLIMIT_LINE, spare, 0⟩) ∧
  (∀ (d : RSlot) (s : State), exec (.caveMaintDone d) s = .next (settle (maintDone d s))) ∧
  (∀ (d : RSlot) (m : Maint) (s : State), (s.rind d).cave.maint = some m → ((maintDone d s).rind d).cave.maint = none) ∧
  (∀ (d : RSlot) (s : State), (s.rind d).cave.maint = none → maintDone d s = s) ∧
  (∀ m : Maint, m.total ≤ 8192 ∧ ∀ set, set < 8192 → m.place set < 8192 ∧ (m.base % 8192 + m.place set) % 8192 = set)

/-- R442: a maintenance operation that is written while another runs. Source 0x034 is a Note at reset. -/
def Obligations.CaveMaintenanceWhileBusy : Prop :=
  (∀ (d : RSlot) (r : Requester) (addr : Nat) (v : Word) (s n : State), n = newStep 0x03 0 0 s → s.hasRind d = true → s.regsWf = true →
      addr ∈ [0x78004, 0x78008, 0x7800C] → n.fenced d = false → n.mayWrite d r addr = true → n.pageOpen d addr = true →
      (∀ e ∈ n.serving, n.bitR e R.CAVE_STAT_BUSY = true) →
    exec (.setupWrite d r addr 4 v) s = .next (settle (inStep (fun e t => raise e 0x034 [addr] (t.incR e R.CAVE_MAINTCNT_REFUSED)) n))) ∧
  (∀ (d : RSlot) (rd : RegDef) (v : Word) (s : State), s.bitR d R.CAVE_STAT_BUSY = true →
    caveMaintWrite [d] rd v s = (raise d 0x034 [0x78004] (s.incR d R.CAVE_MAINTCNT_REFUSED), 0)) ∧
  (∀ (d : RSlot) (addr : Nat) (v : Word) (s : State), s.bitR d R.CAVE_STAT_BUSY = true →
    caveRangeWrite [d] addr v s = (raise d 0x034 [addr] (s.incR d R.CAVE_MAINTCNT_REFUSED), 0)) ∧
  (∀ (d : RSlot) (detail : List Nat) (s : State), ((raise d 0x034 detail (s.incR d R.CAVE_MAINTCNT_REFUSED)).rind d).cave = (s.rind d).cave) ∧
  (∀ (d : RSlot) (s : State), s.regsWf = true →
    (s.incR d R.CAVE_MAINTCNT_REFUSED).rdR d R.CAVE_MAINTCNT_REFUSED = satAdd R.CAVE_MAINTCNT_REFUSED.top (s.rdR d R.CAVE_MAINTCNT_REFUSED) 1) ∧
  (∀ d : RSlot, State.reset.rdR d (R.FAULT_SRCCFG_SEV 0x034) = 1 ∧ State.reset.bitR d (R.FAULT_SRCCFG_COUNTED 0x034) = false) ∧
  (∀ (d : RSlot) (spare : Bool) (s : State), s.bitR d R.CAVE_STAT_BUSY = false → maintStart d 0 spare s = s)


/-- R448 to R455, R472, R581: a channel of the Ladle takes its shadow set from the engine that owns it, its list and its data. A shadow pair that
is out of range, or that another engine sends, is refused; a good set is armed, and starts an idle channel; the bytes that host memory answers are
acknowledged and lie in buffer memory.
R457 to R460, R494: the end of a descriptor, and bus errors. The end of a read of host memory, a bus error and a pass are inputs in step; the first
bus error stops every channel, and the channel that fails alone is the culprit. -/
def Obligations.LadleTransfers : Prop :=
  (∀ (d : RSlot) (eng ch pair : Nat) (v : BitVec 64) (s : State), s.hasCh d ch = true → pair < 3 → ch / 4 = eng →
    exec (.ladleShadowWrite d eng ch pair v) s = .next (settle (reply (.rind d eng) 0x21 (pair + 1)
      (openReply 0x21 (pair + 1) [bit (shadowWrite d ch pair v s).1]) (shadowWrite d ch pair v s).1 (shadowWrite d ch pair v s).2))) ∧
  (∀ (d : RSlot) (ch pair : Nat) (v : BitVec 64) (s : State), (shadowWrite d ch pair v s).1 = false → (shadowWrite d ch pair v s).2 = s) ∧
  (∀ (d : RSlot) (ch : Nat) (v : BitVec 64) (s : State), s.regsWf = true → ch < 32 →
    (shadowWrite d ch 0 v s).1 = true ∧ ((shadowWrite d ch 0 v s).2.ladleShd d ch).haddr = v.toNat ∧
    ((shadowWrite d ch 0 v s).2.ladleShd d ch).len = (s.ladleShd d ch).len ∧ (shadowWrite d ch 0 v s).2.ladleAct d ch = s.ladleAct d ch) ∧
  (∀ (d : RSlot) (eng ch : Nat) (s : State), s.hasCh d ch = true → ch / 4 = eng →
    exec (.ladleArm d eng ch) s = .next (settle (reply (.rind d eng) 0x21 4 (openReply 0x21 4 [bit (armChannel d ch s).1]) (armChannel d ch s).1
      (noteError d St.sglError s (armChannel d ch s).2)))) ∧
  (∀ (d : RSlot) (ch : Nat) (s : State), (s.ladleShd d ch).ok = false → armChannel d ch s = (false, s)) ∧
  (∀ (d : RSlot) (ch : Nat) (s : State), s.regsWf = true → ch < 32 → (s.ladleShd d ch).ok = true → (s.ladleShd d ch).cont = false → s.ladleStopped d = false →
    s.chState d ch = chIdle →
    (armChannel d ch s).1 = true ∧ (armChannel d ch s).2.chState d ch = chActive ∧ (armChannel d ch s).2.pend d ch = false ∧
    (armChannel d ch s).2.ladleAct d ch = s.ladleShd d ch ∧ (armChannel d ch s).2.rdR d (R.LADLE_CHACK_BYTES ch) = 0) ∧
  (∀ (d : RSlot) (eng ch : Nat) (s : State), s.hasCh d ch = true →
    exec (.ladleReadState d eng ch) s = .next (settle (reply (.rind d eng) 0x21 5 (openReply 0x21 5
      [s.chState d ch, bit (s.pend d ch), s.rdR d (R.LADLE_CHACK_BYTES ch), s.rdR d (R.LADLE_CHSTAT_DESCS ch)]) true s))) ∧
  (∀ (d : RSlot) (ch : Nat) (block : List Byte) (s : State), s.hasCh d ch = true →
    exec (.sglEntryFetch d ch block) s = .next (settle (noteError d St.sglError s (listBlock d ch block s)))) ∧
  (∀ (top need block : Nat) (bytes : List Byte) (n : Nat) (w : Walk), (walkList top need block bytes n w).hops ≤ w.hops + n ∧ w.hops ≤ (walkList top need block bytes n w).hops) ∧
  (∀ (d : RSlot) (ch : Nat) (data : List Byte) (s : State), s.hasCh d ch = true →
    exec (.ladleReadData d ch data) s = .next (settle (hostData d ch data s))) ∧
  (∀ (d : RSlot) (ch : Nat) (data : List Byte) (s : State), s.chRuns d ch = true → (s.ladleAct d ch).dir = 1 → (s.ladleCh d ch).listed = false →
    data.length ≤ s.ladleLeft d ch → ∃ u, hostData d ch data s = ladleAck d ch data.length u ∧
      u = caveWrite d (.ladle ch) ((s.ladleAct d ch).baddr + s.rdR d (R.LADLE_CHACK_BYTES ch)) data (s.ladleAct d ch).noalloc s) ∧
  (∀ (d : RSlot) (ch : Nat) (s : State), s.hasCh d ch = true → s.canEnd d ch = true →
    ∃ v, v = (if d = s.senior ∧ (s.ladleAct d ch).dir = 1 then newStep 0x06 (32 * s.rdR d (R.LADLE_CHSTAT_DESCS ch) + ch) 0 s else s) ∧
      exec (.ladleDescriptorEnd d ch) s = .next (settle (noteError d St.sglError v (noteDescriptor d ch v
        (endDescriptor d ch (moveRest d ((v.transferCmd d ch).map (fun p => p.1.uid)) ch (v.delivers d ch) v).2))))) ∧
  (∀ (d : RSlot) (ch : Nat) (s : State), s.canEnd d ch = false → exec (.ladleDescriptorEnd d ch) s = .next s) ∧
  (∀ (d : RSlot) (ch : Nat) (s : State), s.hasCh d ch = true → d ∈ s.serving → s.chRuns d ch = true →
    exec (.ladleBusError d ch) s = .next (settle (inStep (fun e t => noteError e St.hostMemory t (busError e ch t)) (newStep 0x07 ch 0 s)))) ∧
  (∀ (d : RSlot) (ch : Nat) (s : State), s.regsWf = true → s.chRuns d ch = true → s.ladleStopped d = false →
    busError d ch s = stopChannels d (s.incR d R.LADLE_ERRCNT_BUSERR) ∧ (busError d ch s).ladleStopped d = true ∧
    ∀ c, c < 32 → (busError d ch s).chState d c ≠ chActive) ∧
  (∀ (d : RSlot) (ch : Nat) (s : State), s.regsWf = true → ch < 32 → s.chRuns d ch = true → s.ladleStopped d = true →
    (busError d ch s).chState d ch = chError ∧ (busError d ch s).ladleStopped d = true) ∧
  (∀ (d : RSlot) (skip : Bool) (s : State), d ∈ s.serving → exec (.isolationPass d skip) s =
    .next (settle (inStep (fun e t => noteError e St.sglError t (passStep e skip t)) s))) ∧
  (∀ (d : RSlot) (skip : Bool) (s : State), s.ladleStopped d = false → passStep d skip s = s) ∧
  (∀ (d : RSlot) (eng ch pair : Nat) (v : BitVec 64) (s : State), s.hasCh d ch = true → pair < 3 → ch / 4 ≠ eng →
    exec (.ladleShadowWrite d eng ch pair v) s = .next (settle (reply (.rind d eng) 0x21 (pair + 1) (openReply 0x21 (pair + 1) [0]) false s))) ∧
  (∀ (d : RSlot) (eng ch : Nat) (s : State), s.hasCh d ch = true → ch / 4 ≠ eng →
    exec (.ladleArm d eng ch) s = .next (settle (reply (.rind d eng) 0x21 4 (openReply 0x21 4 [0]) false s)))

/-- R464 to R469, R474, R476, R488: the ten next-address codes. A legal word without requests completes at once; where the next word lies, what becomes of the stack and
the loop counter, and how WAIT and END leave the engine, are as R466 says. -/
def Obligations.EngineWords : Prop :=
  (∀ (e : Eng) (pc : Nat) (m : Micro) (s : State), s.PlainWord e 0 pc m →
    ∃ t, exec (.next e) s = .next t ∧ t.rd e.die e.fPc = (pc + 1) % storeTop e ∧ (t.eng e).stack = (s.eng e).stack ∧ (t.eng e).loop = s.wordLoop e m ∧
      t.out = s.out ∧ t.cmds = s.cmds) ∧
  (∀ (e : Eng) (pc : Nat) (m : Micro) (s : State), s.PlainWord e 1 pc m →
    ∃ t, exec (.jump e) s = .next t ∧ t.rd e.die e.fPc = m.naddr % storeTop e ∧ (t.eng e).stack = (s.eng e).stack ∧ t.out = s.out ∧ t.cmds = s.cmds) ∧
  (∀ (e : Eng) (pc : Nat) (m : Micro) (s : State), s.PlainWord e 2 pc m →
    ∃ t, exec (.branch e) s = .next t ∧ t.rd e.die e.fPc = (if s.wordTaken e m then m.naddr else pc + 1) % storeTop e ∧ (t.eng e).stack = (s.eng e).stack ∧
      t.out = s.out ∧ t.cmds = s.cmds) ∧
  (∀ (e : Eng) (pc : Nat) (m : Micro) (s : State), s.PlainWord e 3 pc m → (s.eng e).stack.length < 8 →
    ∃ t, exec (.call e) s = .next t ∧ t.rd e.die e.fPc = m.naddr % storeTop e ∧ (t.eng e).stack = (pc + 1) :: (s.eng e).stack ∧ t.out = s.out ∧ t.cmds = s.cmds) ∧
  (∀ (e : Eng) (pc : Nat) (m : Micro) (s : State), s.PlainWord e 4 pc m → (s.wordTaken e m = true → (s.eng e).stack.length < 8) →
    ∃ t, exec (.callc e) s = .next t ∧ t.rd e.die e.fPc = (if s.wordTaken e m then m.naddr else pc + 1) % storeTop e ∧
      (t.eng e).stack = (if s.wordTaken e m then [pc + 1] else []) ++ (s.eng e).stack ∧ t.out = s.out ∧ t.cmds = s.cmds) ∧
  (∀ (e : Eng) (pc a : Nat) (rest : List Nat) (m : Micro) (s : State), s.PlainWord e 5 pc m → (s.eng e).stack = a :: rest →
    ∃ t, exec (.returnOp e) s = .next t ∧ t.rd e.die e.fPc = a % storeTop e ∧ (t.eng e).stack = rest ∧ t.out = s.out ∧ t.cmds = s.cmds) ∧
  (∀ (e : Eng) (pc : Nat) (m : Micro) (s : State), s.PlainWord e 6 pc m →
    ∃ t, exec (.loop e) s = .next t ∧ t.rd e.die e.fPc = (if s.wordLoop e m ≠ 0 then m.naddr else pc + 1) % storeTop e ∧
      (t.eng e).loop = s.wordLoop e m - 1 ∧ (t.eng e).stack = (s.eng e).stack ∧ t.out = s.out ∧ t.cmds = s.cmds) ∧
  (∀ (e : Eng) (pc : Nat) (m : Micro) (s : State), s.PlainWord e 7 pc m →
    ∃ t, exec (.dispatch e) s = .next t ∧ t.rd e.die e.fPc = (m.naddr + ((s.eng e).reg m.srca).toNat % 16) % storeTop e ∧ (t.eng e).stack = (s.eng e).stack ∧
      t.out = s.out ∧ t.cmds = s.cmds) ∧
  (∀ (e : Eng) (pc : Nat) (m : Micro) (s : State), s.PlainWord e 8 pc m →
    ∃ t, exec (.waitOp e) s = .next t ∧ t.rd e.die e.fState = engWaiting ∧ t.rd e.die e.fPc = pc ∧ (t.eng e).parked = some pc ∧ t.out = s.out ∧ t.cmds = s.cmds) ∧
  (∀ (e : Eng) (pc : Nat) (m : Micro) (s : State), s.PlainWord e 9 pc m →
    ∃ t, exec (.endOp e) s = .next t ∧ t.rd e.die e.fPc = s.vector e 7 ∧ t.rd e.die e.fCpc = s.vector e 7 ∧ t.rd e.die e.fState = engRunning ∧
      (t.eng e).stack = [] ∧ t.out = s.out ∧ t.cmds = s.cmds) ∧
  (∀ (e : Eng) (nac pc : Nat) (m : Micro) (s : State), s.PlainWord e nac pc m → m.stackOk (s.eng e) (s.wordTaken e m) = false →
    runWord nac e s = syncFault e 1 pc s) ∧
  (∀ (e : Eng) (nac pc : Nat) (m : Micro) (s : State), nac < 8 → s.PlainWord e nac pc m → m.stackOk (s.eng e) (s.wordTaken e m) = true →
    m.dest ≠ 0 → m.aluop ≠ 0 → m.aluop ≠ 0x0D → ((runWord nac e s).eng e).reg m.dest = (s.wordOut e m).value ∧
      ∀ i, i ≠ m.dest → i ≠ m.mvdst → ((runWord nac e s).eng e).reg i = (s.eng e).reg i)

/-- R467, R468: the ALU. The sum and the difference wrap, a carry and an overflow are those of the exact sum, and the logic, shift, least, greatest, field and
leading-zero operations are as the table says,
shifted by SHAMT. A flag the spec does not define is free (log entry 6). -/
def Obligations.EngineArithmetic : Prop :=
  (∀ (sh : Nat) (a b old : BitVec 64), (alu 0x03 sh a b old).value = (a + b) <<< sh ∧
    ((alu 0x03 sh a b old).carry = true ↔ 2 ^ 64 ≤ a.toNat + b.toNat) ∧
    ((alu 0x03 sh a b old).ovf = true ↔ a.toInt + b.toInt < -(2 ^ 63) ∨ 2 ^ 63 ≤ a.toInt + b.toInt)) ∧
  (∀ (sh : Nat) (a b old : BitVec 64), (alu 0x04 sh a b old).value = (a - b) <<< sh ∧
    ((alu 0x04 sh a b old).ovf = true ↔ a.toInt - b.toInt < -(2 ^ 63) ∨ 2 ^ 63 ≤ a.toInt - b.toInt)) ∧
  (∀ (sh : Nat) (a b old : BitVec 64), (alu 0x05 sh a b old).value = (a &&& b) <<< sh ∧ (alu 0x06 sh a b old).value = (a ||| b) <<< sh ∧
    (alu 0x07 sh a b old).value = (a ^^^ b) <<< sh ∧ (alu 0x01 sh a b old).value = a <<< sh ∧ (alu 0x02 sh a b old).value = b <<< sh) ∧
  (∀ a b old : BitVec 64, (alu 0x08 0 a b old).value = a <<< (b.toNat % 64) ∧ (alu 0x09 0 a b old).value = a >>> (b.toNat % 64) ∧
    (alu 0x0A 0 a b old).value = a.sshiftRight (b.toNat % 64)) ∧
  (∀ a b old : BitVec 64, (alu 0x0B 0 a b old).value.toNat = min a.toNat b.toNat ∧ (alu 0x0C 0 a b old).value.toNat = max a.toNat b.toNat) ∧
  (∀ (sh : Nat) (a b old : BitVec 64) (i : Nat), i < 64 →
    (alu 0x0E sh a b old).value.getLsbD i = (decide (i < b.toNat % 64) && a.getLsbD (i + sh))) ∧
  (∀ (sh : Nat) (a b old : BitVec 64) (i : Nat), i < 64 → sh + b.toNat % 64 ≤ 64 →
    (alu 0x0F sh a b old).value.getLsbD i = if sh ≤ i ∧ i < sh + b.toNat % 64 then a.getLsbD (i - sh) else old.getLsbD i) ∧
  (∀ a b old : BitVec 64, (alu 0x10 0 a b old).value.toNat ≤ 64 ∧
    ∀ n, (alu 0x10 0 a b old).value.toNat = n → n < 64 → a.getLsbD (63 - n) = true ∧ ∀ i, 63 - n < i → a.getLsbD i = false) ∧
  (∀ (g : Engine) (i j : Nat) (v : BitVec 64), g.reg 0 = 0 ∧ (g.setReg 0 v) = g ∧ (i ≠ 0 → (g.setReg i v).reg i = v) ∧ (j ≠ i → (g.setReg i v).reg j = g.reg j))

/-- R473, R485, R487: events, responses, timers, memory and mailboxes. An event is queued while the queue holds fewer than 16, and a full queue changes nothing; a response
reaches the latch of its port where a request waits for it; a store to formatter memory reads back; a routine's timer expires as a synchronous fault.
R24, R301, R470, R499: the messages of an engine. A message is opened to a slot and a class, two words join it at a time, low word first, and at its close it goes out
on the link of its slot, with the next end-to-end number where its class has one. Where the slot and the class lie in the operand is not stated (log entry 91, a free
value). -/
def Obligations.EngineEventsMemoryAndMessages : Prop :=
  (∀ (e : Eng) (cls : Nat) (data : BitVec 64) (s : State), s.Quiet → s.hasEng e = true → s.EngHeld e → cls < 8 → (s.eng e).events.length < 16 →
    ∃ t, exec (.eventPost e cls data) s = .next t ∧ (∃ v, (t.eng e).events = (s.eng e).events ++ [v] ∧ v.cls = cls ∧ v.data = data) ∧
      (t.eng e).regs = (s.eng e).regs ∧ t.out = s.out ∧ t.cmds = s.cmds) ∧
  (∀ (e : Eng) (cls : Nat) (data : BitVec 64) (s : State), s.Quiet → 16 ≤ (s.eng e).events.length → exec (.eventPost e cls data) s = .next s) ∧
  (∀ (e : Eng) (p : RespPort) (v : BitVec 64) (ok poisoned queued : Bool) (q : EngReq) (s : State), s.Quiet → s.EngHeld e → (s.eng e).waiting = none →
      (s.eng e).reqs.find? (fun q => q.port = p.no) = some q → q.withheld = false →
    ∃ t, exec (.responseArrival e p v ok false poisoned queued) s = .next t ∧ (t.eng e).latchOf p.no = ⟨p.no, v, ok, false, poisoned, queued⟩ ∧
      (t.eng e).reqs = (s.eng e).reqs.erase q ∧ t.regs = s.regs ∧ t.out = s.out) ∧
  (∀ (e : Eng) (p : RespPort) (v : BitVec 64) (ok dr poisoned queued : Bool) (s : State), s.Quiet → (s.eng e).reqs.find? (fun q => q.port = p.no) = none →
    exec (.responseArrival e p v ok dr poisoned queued) s = .next s) ∧
  (∀ (g : Nat) (s : State), exec (.engineTimerExpire (.curd g)) s = .next (settle (timerEvent (.curd g) s))) ∧
  (∀ (d : RSlot) (i : Nat) (s : State), (s.eng (.rind d i)).timer.isSome = true → d = s.senior → d ∈ s.serving →
    exec (.engineTimerExpire (.rind d i)) s = .next (settle (inStep (fun f t => timerEvent (.rind f i) t) (newStep 0x08 i 0 s)))) ∧
  (∀ (e : Eng) (s : State), s.hasEng e = true → (s.eng e).parked = none → s.rd e.die e.fState = engRunning ∨ s.rd e.die e.fState = engWaiting →
    exec (.routineTimeout e) s = .next (settle (if (s.eng e).reqs.any EngReq.irrev then modEng e (fun g => { g with late := some 4 }) s
      else syncFault e 4 (s.rd e.die e.fPc) s))) ∧
  (∀ (d : RSlot) (i addr : Nat) (s : State), s.hasEng (.rind d i) = true → addr % 8 = 0 → addr + 8 ≤ s.dataBytes d →
    ∃ data bad u, caveRead d (.engine i) addr 8 false s = (data, bad, u) ∧
      exec (.memLoad (.rind d i) addr) s = .next (settle ((deliver (.rind d i) ⟨0x22, BitVec.ofNat 64 (leNat data), true, false, bad, false⟩ u).emit
        (.response (BitVec.ofNat 64 (leNat data)).toNat)))) ∧
  (∀ (g addr : Nat) (s : State), s.hasEng (.curd g) = true → addr % 8 = 0 → addr + 8 ≤ 32768 →
    exec (.memLoad (.curd g) addr) s = .next (settle ((deliver (.curd g) ⟨0x22, BitVec.ofNat 64 (leNat (Sparse.getRun zeroByte addr 8 (s.curd g).scratch)), true, false,
      false, false⟩ s).emit (.response (BitVec.ofNat 64 (leNat (Sparse.getRun zeroByte addr 8 (s.curd g).scratch))).toNat)))) ∧
  (∀ (d : RSlot) (i addr : Nat) (v : BitVec 64) (s : State), s.hasEng (.rind d i) = true → addr % 8 = 0 → addr + 8 ≤ s.dataBytes d →
    exec (.memStore (.rind d i) addr v) s = .next (settle (reply (.rind d i) 0x22 2 (openReply 0x22 2 []) true (caveWrite d (.engine i) addr (natLe 8 v.toNat) false s)))) ∧
  (∀ (g addr : Nat) (v : BitVec 64) (s : State), s.Quiet → s.hasEng (.curd g) = true → s.EngHeld (.curd g) → addr % 8 = 0 → addr + 8 ≤ 32768 →
      Memory.wf (s.curd g).scratch = true → (s.curd g).eng.reqs = [] →
    ∃ t, exec (.memStore (.curd g) addr v) s = .next t ∧ BitVec.ofNat 64 (leNat (Sparse.getRun zeroByte addr 8 (t.curd g).scratch)) = v ∧
      (∀ a, a < addr ∨ addr + 8 ≤ a → Sparse.get zeroByte a (t.curd g).scratch = Sparse.get zeroByte a (s.curd g).scratch) ∧
      (∀ h, h ≠ g → t.curd h = s.curd h) ∧ t.regs = s.regs ∧ t.f0 = s.f0 ∧ t.f1 = s.f1 ∧ t.out = s.out) ∧
  (∀ (d : RSlot) (target : Nat) (v : BitVec 64) (s : State), s.hasEng (.rind d target) = true → (s.eng (.rind d target)).events.length < 16 →
    exec (.mailboxPost d target v) s = .next (settle (answerAny d (target + 1) 1 (openReply (target + 1) 1 []) true (postEvent (.rind d target) 6 v s)))) ∧
  (∀ (e : Eng) (v : BitVec 64) (s : State), s.hasEng e = true → s.EngHeld e →
    ∃ u, exec (.finvikOpen e v) s = .next (settle (reply e 0x09 1 (openReply 0x09 1 []) true u)) ∧
      (u.eng e).message = some ((openSlotClass v).1, (openSlotClass v).2, []) ∧ (u.eng e).regs = (s.eng e).regs ∧ u.regs = s.regs ∧ u.out = s.out) ∧
  (∀ (e : Eng) (v : BitVec 64) (slot cls : Nat) (ws : List Word) (s : State), s.hasEng e = true → s.EngHeld e → (s.eng e).message = some (slot, cls, ws) →
    (∀ n, n = ((engLink e slot).map (fun l => if l.classOk cls = true then l.room (cls % 4) else 128)).getD 128 → ws.length + 2 ≤ n →
      ∃ u, exec (.finvikAppend e v) s = .next (settle (reply e 0x09 2 (openReply 0x09 2 []) true u)) ∧
      (u.eng e).message = some (slot, cls, ws ++ [v.extractLsb' 0 32, v.extractLsb' 32 32]) ∧ u.regs = s.regs ∧ u.out = s.out) ∧
    (∀ n, n = ((engLink e slot).map (fun l => if l.classOk cls = true then l.room (cls % 4) else 128)).getD 128 → n < ws.length + 2 →
      exec (.finvikAppend e v) s = .next (settle (reply e 0x09 2 (openReply 0x09 2 []) false s)))) ∧
  (∀ (e : Eng) (s : State), s.hasEng e = true → (s.eng e).message = none →
    exec (.finvikClose e) s = .next (settle (reply e 0x09 3 (openReply 0x09 3 []) false s)) ∧
    ∀ v, exec (.finvikAppend e v) s = .next (settle (reply e 0x09 2 (openReply 0x09 2 []) false s))) ∧
  (∀ (g slot cls : Nat) (ws : List Word) (l : LinkEnd) (s : State), s.hasEng (.curd g) = true → s.EngHeld (.curd g) → (s.eng (.curd g)).message = some (slot, cls, ws) →
      engLink (.curd g) slot = some l → l.classOk cls = true →
    ∃ u, (u.eng (.curd g)).message = none ∧ u.regs = s.regs ∧ u.out = s.out ∧
      exec (.finvikClose (.curd g)) s = .next (settle (reply (.curd g) 0x09 3 (openReply 0x09 3 []) true (sendMsg l cls 0 ws u)))) ∧
  (∀ (d : RSlot) (i slot : Nat) (ws : List Word) (s : State), s.hasEng (.rind d i) = true → s.EngHeld (.rind d i) → (s.eng (.rind d i)).message = some (slot, 3, ws) →
      8 ≤ slot → slot < 14 →
    ∃ u, (u.eng (.rind d i)).message = none ∧ u.regs = s.regs ∧ u.out = s.out ∧ (u.rind d).eseq = ((s.rind d).eseq + 1) % 2 ^ 32 ∧
      exec (.finvikClose (.rind d i)) s = .next (settle (reply (.rind d i) 0x09 3 (openReply 0x09 3 []) true (toCurd d (slot - 8) 3 (s.rind d).eseq ws u))))


/-- R235, R237, R246 to R250, R254, R258, R259: look-ups, changes, the journal timer and cleaning. The timer writes the staged sector, and nothing is then staged; a change
that says what the tables hold already is not journalled; an idle group cleans only where the budget permits. -/
def Obligations.TranslationTables : Prop :=
  (∀ (eng vol blk : Nat) (s : State),
    (∀ p, s.lookup vol blk = some p → exec (.xlatLookup eng vol blk) s =
      .next (settle (inStep (fun d t => reply (.rind d eng) 0x0C 1 (openReply 0x0C 1 [p.head, p.track, p.pos]) true t) s))) ∧
    (s.lookup vol blk = none → exec (.xlatLookup eng vol blk) s = .next (settle (inStep (fun d t => reply (.rind d eng) 0x0C 1 (openReply 0x0C 1 []) false t) s)))) ∧
  (∀ (c : TableChange) (s : State), exec (.xlatApplyChange c) s =
    .next (settle (inStep (fun d t => answerAny d 0x0C 2 (openReply 0x0C 2 []) true t) (applyChange c s)))) ∧
  (∀ (v blk : Nat) (b : Band) (s : State), s.xlat.t.bandOf v (blk / 65536) = some b →
    (blk % 65536 ∈ b.live → applyChange (.zeroClear v blk) s = s) ∧ (blk % 65536 ∉ b.live → applyChange (.zeroSet v blk) s = s)) ∧
  (∀ s : State, (s.xlat.staged = 0 → exec .journalTimer s = .next s) ∧
    (0 < s.xlat.staged → exec .journalTimer s = .next (settle (showSched (retire (writeJournal s)))))) ∧
  (∀ s : State, (writeJournal s).xlat.staged = 0 ∧ (writeJournal s).xlat.t = s.xlat.t ∧ (0 < s.xlat.staged → (writeJournal s).mediaTables = some s.xlat.t)) ∧
  (∀ s : State, s.xlat.staged < 62 → (journal s).xlat.staged = s.xlat.staged + 1 ∧ (journal s).regs = s.regs) ∧
  (∀ s : State, 62 ≤ s.xlat.staged → (journal s).xlat.staged = 0 ∧ (journal s).mediaTables = some s.xlat.t) ∧
  (∀ (g : Nat) (s : State), s.hasCurd g = true → exec (.cleaningStart g) s = .next (settle (startCleaning g s))) ∧
  (∀ (g : Nat) (s : State), s.rdS R.BUDGET_OUT_CLEANOK ≠ 1 ∨ s.groupOn g = false → startCleaning g s = s)

/-- R521 to R539: the budget manager's clock. A cycle keeps the level between its floor and 8, the spindle target between 3,600 and 7,200, and no more groups active than
the limit; a diode sample that is the second in a row at the threshold shuts its die down; the throttle's weights fall with its depth. -/
def Obligations.BudgetClock : Prop :=
  (∀ s : State, (s.budgetRuns = true → exec .budgetCycle s = .next (settle (cycle (newStep 0x08 0 0 s)))) ∧ (s.budgetRuns = false → exec .budgetCycle s = .next (settle s))) ∧
  (∀ s : State, s.rdS R.BUDGET_STAT_LEVEL ≤ 8 → s.levelFloor ≤ 8 → s.levelFloor ≤ s.nextLevel.1 ∧ s.nextLevel.1 ≤ 8) ∧
  (∀ s : State, 3600 ≤ s.spinTarget ∧ s.spinTarget ≤ 7200) ∧
  (∀ (lim : Nat) (s : State), (s.chooseActive lim).length ≤ lim ∧ (∀ g ∈ s.chooseActive lim, g ∈ s.usedGroups)) ∧
  (∀ (s : State), s.regsWf = true → s.hasRind .f0 = true → s.serving = [.f0] → ∀ p, s.budget.diodes.find? (fun p => p.1 = 0) = some p →
    ∃ u, exec (.budgetInputWrite .f0) s = .next (settle (takeReading 0 p.2 u)) ∧ u.rdR .f0 (R.BUDGET_IN_VIN 0) = min 0xFFF (s.pins.vinMv / 10) ∧
      u.rdR .f0 (R.BUDGET_IN_TEMP 0) = unsgn 16 p.2 ∧ u.budget = s.budget) ∧
  (∀ (die : Die) (t : Int) (s : State), s.hasDie die = true → s.pins.por = true → s.phase .f0 ≠ 0xD → t < (s.threshold (dieCode die) 2).1 → dieCode die ∉ s.budget.shut →
    ∃ u, exec (.diodeSample die t) s = .next u ∧ assocGet (dieCode die) 0 u.budget.diodes = t ∧ assocGet (dieCode die) 0 u.budget.hot = 0 ∧ u.regs = s.regs ∧
      u.out = s.out) ∧
  (∀ (die : Die) (t : Int) (s : State), s.hasDie die = true → s.pins.por = true → s.phase .f0 ≠ 0xD → (s.threshold (dieCode die) 2).1 ≤ t →
      1 ≤ assocGet (dieCode die) 0 s.budget.hot → dieCode die ∉ s.budget.shut →
    ∃ v, v.regs = s.regs ∧ v.cmds = s.cmds ∧ assocGet (dieCode die) 0 v.budget.diodes = t ∧
      exec (.diodeSample die t) s = .next (settle (shutDie die (noteShutdown (dieCode die) v)))) ∧
  (∀ (g : Nat) (s : State), s.hasCurd g = true → s.leftBudget (curdCode g) = false →
    ∃ v, exec (.curdReportMissing g) s = .next (settle (showTemp (curdCode g) v)) ∧ g ∈ v.budget.missing ∧ v.cmds = s.cmds ∧ v.budget.reports = s.budget.reports) ∧
  (∀ s : State, s.rdS R.BUDGET_STAT_THROT = 1 → s.rdS R.BUDGET_STAT_ENF = 0 → exec .graceExpire s = .next (settle (enforce (newStep 0x08 0 0 s)))) ∧
  (∀ s : State, s.rdS R.BUDGET_STAT_ENF = 1 → exec .throttleDepthTick s = .next (settle (depthTick (newStep 0x08 0 0 s)))) ∧
  (∀ depth h m l : Nat, throttleWeights 0 h m l = (h, m, l) ∧ (1 ≤ depth → (throttleWeights depth h m l).2.2 = 0) ∧ (3 ≤ depth → (throttleWeights depth h m l).2.1 = 0) ∧
    (1 ≤ h → 1 ≤ (throttleWeights depth h m l).1 ∧ (throttleWeights (depth + 1) h m l).1 ≤ (throttleWeights depth h m l).1)) ∧
  (∀ s : State, s.budgetRuns = true → exec .activeGroupRechoose s = .next (settle (rechoose (newStep 0x08 0 0 s))) ∧
    exec .spindleRaiseWait s = .next (settle (sendTarget (nextRaises (newStep 0x08 0 0 s)))) ∧
    (s.budget.raiseWork = true → s.otherOps = [] → ∃ v, v.budget.raiseWork = false ∧ exec .raiseHoldExpire s = .next (settle (sendTarget v))))

/-- R541 to R549, R555: events and their windows. An event of a used source is counted; one that is Degrade or Fatal stops ALIVE; a closed window returns a counted source
to Note once it has been quiet; the quiet period ends the fault state, or latches it; the close-out ends by its timers. -/
def Obligations.FaultsAndWindows : Prop :=
  (∀ (d : RSlot) (src detail : Nat) (s : State), s.hasRind d = true → src < 0x100 →
    exec (.faultRaise d src detail) s = .next (settle (raiseFull d d.code src [detail] (fixedSev src) (answerAny d 0x0E 1 (openReply 0x0E 1 []) true s)))) ∧
  (∀ (d : RSlot) (src detail : Nat) (s : State), s.hasRind d = true → 0x100 ≤ src →
    exec (.faultRaise d src detail) s = .next (settle (raiseFull d (curdCode ((src - 0x100) / 0x40)) src [detail] (fixedSev src) (answerAny d 0x0E 1 (openReply 0x0E 1 []) true s)))) ∧
  (∀ (d : RSlot) (die src : Nat) (detail : List Nat) (fix : Option Nat) (s : State), sourceUsed src = false → raiseFull d die src detail fix s = s) ∧
  (∀ (d : RSlot) (src : Nat) (detail : List Nat) (s : State), s.regsWf = true → sourceUsed src = true → s.bitR d (R.FAULT_SRCCFG_COUNTED src) = false →
    (raise d src detail s).rdR d (R.FAULT_SRC_EVENTS src) = satAdd (R.FAULT_SRC_EVENTS src).top (s.rdR d (R.FAULT_SRC_EVENTS src)) 1 ∧
    (s.rdR d (R.FAULT_SRCCFG_SEV src) = 0 → ((raise d src detail s).rind d).island.queue = (s.rind d).island.queue) ∧
    (1 ≤ s.rdR d (R.FAULT_SRCCFG_SEV src) → (s.rind d).island.queue.length < 256 →
      ∃ r, ((raise d src detail s).rind d).island.queue = (s.rind d).island.queue ++ [r] ∧ r.source = src ∧ r.sev = s.rdR d (R.FAULT_SRCCFG_SEV src) ∧ r.detail = detail) ∧
    (s.rdR d (R.FAULT_SRCCFG_SEV src) ≤ 3 → (raise d src detail s).todo = s.todo) ∧
    (3 ≤ s.rdR d (R.FAULT_SRCCFG_SEV src) → (raise d src detail s).pins.aliveOn = false ∧
      (s.hasRind d = true → s.rdR d R.FAULT_STAT_STATE = 0 → (raise d src detail s).rdR d R.FAULT_STAT_STATE = 1))) ∧
  (∀ (d : RSlot) (src : Nat) (quiet : Bool) (s : State), s.regsWf = true → s.hasRind d = true → sourceUsed src = true → s.bitR d (R.FAULT_SRCCFG_COUNTED src) = true →
    ∃ t, exec (.countWindowExpire d src quiet) s = .next t ∧ assocGet src 0 (t.rind d).island.windows = 0 ∧
      t.rdR d (R.FAULT_SRC_EFF src) = (if quiet then min 1 (s.rdR d (R.FAULT_SRCCFG_SEV src)) else s.rdR d (R.FAULT_SRC_EFF src)) ∧
      t.rdR d (R.FAULT_SRC_EVENTS src) = s.rdR d (R.FAULT_SRC_EVENTS src) ∧ t.out = s.out) ∧
  (∀ s : State, s.regsWf = true →
    ∃ t, exec .quietExpire s = .next t ∧ ∀ d ∈ s.rinds, (s.rdR d R.FAULT_STAT_STATE ≠ 1 → t.rdR d R.FAULT_STAT_STATE = s.rdR d R.FAULT_STAT_STATE) ∧
      (s.rdR d R.FAULT_STAT_STATE = 1 → t.rdR d R.FAULT_STAT_STATE = (if (s.rind d).island.freeExit then 0
        else if s.rdR d R.FAULT_CFG_LATCHN ≤ ((s.rind d).island.exits.filter (fun x => s.now < x + 3600000000)).length then 2 else 0))) ∧
  (∀ s : State, (s.boot.reinit = some .writeOut → exec .writeOutTimeout s = .next (settle (endWriteOut s))) ∧
    (s.boot.reinit ≠ some .writeOut → exec .writeOutTimeout s = .next s)) ∧
  (∀ s : State, exec .closeoutTimeout s = .next (settle (abandonCloseOut s)) ∧ (s.boot.reinit ≠ some .closeOut → abandonCloseOut s = s))

/-- R558 to R567: the ripening log's writer and the tallies. A record that is programmed leaves the queue and enters the ring; a bad read-back takes the next slot, three
of them drop the record; raised, stored, dropped and queued records agree; a frozen log takes only Fatal records. -/
def Obligations.RipeningLogAndTallies : Prop :=
  (∀ (r : LogRec) (i : Nat) (s : State), s.pins.sfDriven = true → nextRecord s.flashOwner s = some r → logSlot (r.sev = 4) s.flash.log = some i →
    ∃ t, exec (.logRecordProgrammed true) s = .next t ∧ t.out = .logProgram r (s.logAddr (s.flash.log.getD i {}) (s.flash.log.getD i {}).used) :: s.out ∧ (t.rind s.flashOwner).island.queue = (s.rind s.flashOwner).island.queue.erase r ∧
      t.flash.log = modAt i (fun x => { x with used := x.used + 1, recs := x.recs ++ [r] }) s.flash.log ∧ t.cmds = s.cmds) ∧
  (∀ (r : LogRec) (i : Nat) (s : State), s.pins.sfDriven = true → nextRecord s.flashOwner s = some r → logSlot (r.sev = 4) s.flash.log = some i →
    ∃ t, exec (.logRecordProgrammed false) s = .next t ∧ t.out = .logProgram r (s.logAddr (s.flash.log.getD i {}) (s.flash.log.getD i {}).used) :: s.out ∧
      t.flash.log = modAt i (fun x => { x with used := x.used + 1 }) s.flash.log ∧
      ((s.rind s.flashOwner).island.tries + 1 < 3 → (t.rind s.flashOwner).island.queue = (s.rind s.flashOwner).island.queue ∧
        (t.rind s.flashOwner).island.tries = (s.rind s.flashOwner).island.tries + 1) ∧
      (3 ≤ (s.rind s.flashOwner).island.tries + 1 → (t.rind s.flashOwner).island.queue = (s.rind s.flashOwner).island.queue.erase r)) ∧
  (∀ (r : LogRec) (v : LogSector) (s : State), s.pins.sfDriven = true → nextRecord s.flashOwner s = some r → logSlot (r.sev = 4) s.flash.log = none →
      oldestSector (fun x => x.recs.all (fun q => q.sev ≤ r.sev)) s.flash.log = some v →
    ∃ t, exec .logSectorErased s = .next t ∧ t.out = .logErase (s.logAddr v 0) :: s.out ∧ t.flash.log = s.flash.log.erase v ++ [({ pos := v.pos } : LogSector)] ∧
      (t.rind s.flashOwner).island.queue = (s.rind s.flashOwner).island.queue) ∧
  (∀ (d : RSlot) (s : State), s.hasRind d = true → (s.rind d).island.scanned = true →
    exec (.logScanDone d) s = .next ((s.wrR d R.LOG_STAT_SCANNED 1).wrR d R.LOG_STAT_RESERVE (bit (0 < erasedSectors s.flash.log)))) ∧
  (∀ (d : RSlot) (s : State), s.regsWf = true → s.hasRind d = true → (s.rind d).island.scanned = false →
    ∃ v, v.cmds = s.cmds ∧ v.bitR d R.LOG_STAT_SCANNED = true ∧ (v.rind d).island.queue.map LogRec.source = (s.rind d).island.queue.map LogRec.source ∧
      exec (.logScanDone d) s = .next (settle (if s.flashOwner = d then raise d 0x0C4 [] v else v))) ∧
  (∀ s : State, s.regsWf = true → s.part.f = 2 → ∃ t, exec .logWriterTakeover s = .next t ∧ t.bitR s.flashOwner.peer R.DEV_PINSTAT_SFOWN = true ∧
    t.bitR s.flashOwner R.DEV_PINSTAT_SFOWN = false ∧ t.flashOwner = s.flashOwner.peer ∧ t.flash = s.flash) ∧
  (∀ (d : RSlot) (s : State), s.hasRind d = true → s.flashOwner = d → exec (.operatingMark d) s = .next (settle (raise d 0x0C4 [] s))) ∧
  (∀ s : State, s.regsWf = true → ∃ t, exec .logFreezeLapse s = .next t ∧ (∀ d ∈ s.rinds, t.bitR d R.LOG_STAT_FROZEN = false ∧ t.bitR d R.LOG_CTL_FREEZE = false) ∧
    t.flash = s.flash ∧ t.out = s.out) ∧
  (∀ (d : RSlot) (r : LogRec) (s : State), s.bitR d R.LOG_STAT_FROZEN = true → nextRecord d s = some r → r.sev = 4) ∧
  (∀ (d : RSlot) (r : LogRec) (s : State), s.regsWf = true → 1 ≤ r.sev → r.sev ≤ 4 → (s.rind d).island.queue.length < 256 → s.rdR d (R.LOG_CNT_QUEUED (r.sev - 1)) < 256 →
      (eventLedger d s r.sev).holds = true → (eventLedger d (stageRec d r s) r.sev).holds = true) ∧
  (∀ (d : RSlot) (s : State), s.hasRind d = true → s.fenced d = false → s.part.f = 1 ∨ s.role d = roleAlone →
    exec (.tallySnapshot d) s = .next (tallySnapshot d s)) ∧
  (∀ (d : RSlot) (s : State), s.hasRind d = true → s.fenced d = false →
    exec (.tallyCheck d) s = .next (settle (answerAny d 0x0F 1 (openReply 0x0F 1 [bit (tallyCheck s).1]) (tallyCheck s).1 (tallyCheck s).2))) ∧
  (∀ (d : RSlot) (s : State), ((tallySnapshot d s).rind d).island.snaps = (s.rind d).island.snaps + 1 ∧ (tallySnapshot d s).cmds = s.cmds)

/-- A step runs the command at the front of the queue, with the queue's rest; an empty queue idles (DESIGN CHOICE: log entry 2), which takes a microsecond and changes
nothing else. The end of a meaning changes nothing where nothing is left to do. Every command completes on every state: none is refused, and none faults. -/
def Obligations.StepTakesTheFront : Prop :=
  (∀ (c : Instr) (rest : List Instr) (s : State), step { s with pending := c :: rest } = exec c { s with pending := rest }) ∧
  (∀ s : State, s.pending = [] → step s = .next { s with now := s.now + 1 }) ∧
  (∀ s : State, s.Quiet → settle s = s) ∧
  (∀ s : State, (settle s).todo = []) ∧
  (∀ (c : Instr) (s : State), ∃ t, exec c s = .next t)

/-- R13, R71, R75, R82 (log entries 1, 13, 14): right after reset the stores are in their form, nothing waits, nothing is left to do, the power-on reset is asserted, every actuator is
retracted, and the counter of the fuses is within its 128. -/
def Obligations.ResetState : Prop :=
  State.reset.Canonical ∧ State.reset.Quiet ∧ State.reset.pending = [] ∧ State.reset.out = [] ∧ State.reset.cmds = [] ∧ State.reset.curds.length = 6 ∧
  State.reset.regs = [] ∧ State.reset.f0.bmem.cells = [] ∧ State.reset.fuses.svn ≤ 127 ∧
  (∀ g, g < 6 → (State.reset.curd g).retN = false) ∧ State.reset.pins.por = false ∧ State.reset.isReady = false ∧
  (∀ k, State.reset.word k = resetWord k)

/-- An invariant that every step keeps, from every state: the register file and the byte memories stay in their canonical form, so that equal contents are equal data. -/
def Obligations.StepKeepsTheForm : Prop :=
  ∀ s t : State, s.Canonical → step s = .next t → t.Canonical

/-- R1, R2, R82, R83: what no step changes. The part and its six Curd slots stay; the key hashes and the image key in the fuses stay, and the security version neither falls nor passes 127,
so that no older slot is accepted again; what has gone out is never taken back; time does not run backwards; no command enters the queue. And there is always a next state: no command is refused, and none faults. -/
def Obligations.StepKeepsWhatIsFixed : Prop :=
  ∀ s : State, ∃ t : State, step s = .next t ∧
    t.part = s.part ∧ (s.curds.length = 6 → t.curds.length = 6) ∧
    t.fuses.vendorHash = s.fuses.vendorHash ∧ t.fuses.ownerHash = s.fuses.ownerHash ∧ t.fuses.imageKey = s.fuses.imageKey ∧
    (s.fuses.svn ≤ 127 → s.fuses.svn ≤ t.fuses.svn ∧ t.fuses.svn ≤ 127) ∧
    s.out <:+ t.out ∧ s.now ≤ t.now ∧ s.free ≤ t.free ∧ t.pending = s.pending.tail

/-- R11 to R16: registers and bytes of memory, read back. A field that is written reads as the value, modulo its width; every other field, of that register or another,
reads as before; a byte that is written reads back, and the others read as before; a counter saturates. -/
def Obligations.ReadBack : Prop :=
  (∀ (die v : Nat) (f : Fld) (s : State), s.regsWf = true → f.lo ≤ f.hi → f.hi < 32 →
    (s.wr die f v).rd die f = v % 2 ^ (f.hi + 1 - f.lo) ∧ (s.wr die f v).regsWf = true ∧
    ∀ (d : Nat) (g : Fld), g.lo ≤ g.hi → g.hi < 32 → (regKey d g.off ≠ regKey die f.off ∨ g.hi < f.lo ∨ f.hi < g.lo) → (s.wr die f v).rd d g = s.rd d g) ∧
  (∀ (die n : Nat) (f : Fld) (s : State), s.regsWf = true → f.lo ≤ f.hi → f.hi < 32 → (s.inc die f n).rd die f = min f.top (s.rd die f + n)) ∧
  (∀ (k a : Nat) (b : Byte) (l : List Host.Cell), Memory.wf l = true →
    Memory.wf (Sparse.put zeroByte k b l) = true ∧ Sparse.get zeroByte k (Sparse.put zeroByte k b l) = b ∧
    (a ≠ k → Sparse.get zeroByte a (Sparse.put zeroByte k b l) = Sparse.get zeroByte a l)) ∧
  (∀ l m : List Host.Cell, Memory.wf l = true → Memory.wf m = true → (∀ a, Sparse.get zeroByte a l = Sparse.get zeroByte a m) → l = m)
end

