-- ==== Sys2Proof/Laws/Sparse.lean ====
section
/-! SUPPORT. Laws of sparse tables: a read after a write, and the canonical form. -/

namespace Sys2Proof.Machine

variable {α : Type} [DecidableEq α] {dflt : Nat → α}

/-- Below its first key, a table in canonical form lists nothing. -/
theorem Sparse.get_below {lo k : Nat} (hk : k < lo) : ∀ {l : List (Nat × α)}, Sparse.wfFrom dflt lo l = true → Sparse.get dflt k l = dflt k
  | [], _ => rfl
  | (j, w) :: l, h => by
    simp only [Sparse.wfFrom, Bool.and_eq_true, decide_eq_true_eq] at h
    have : k ≠ j := by omega
    simp only [Sparse.get, this, if_false]
    exact Sparse.get_below (by omega) h.2

/-- Lowering the bound keeps the form. -/
theorem Sparse.wfFrom_mono {lo lo' : Nat} (h : lo' ≤ lo) : ∀ {l : List (Nat × α)}, Sparse.wfFrom dflt lo l = true → Sparse.wfFrom dflt lo' l = true
  | [], _ => rfl
  | (j, w) :: l, hl => by
    simp only [Sparse.wfFrom, Bool.and_eq_true, decide_eq_true_eq] at hl ⊢
    exact ⟨⟨by omega, hl.1.2⟩, hl.2⟩

/-- A write keeps the form. -/
theorem Sparse.wfFrom_put {lo k : Nat} (v : α) (hk : lo ≤ k) :
    ∀ {l : List (Nat × α)}, Sparse.wfFrom dflt lo l = true → Sparse.wfFrom dflt lo (Sparse.put dflt k v l) = true
  | [], _ => by
    unfold Sparse.put
    split
    · rfl
    · simp_all [Sparse.wfFrom]
  | (j, w) :: l, h => by
    simp only [Sparse.wfFrom, Bool.and_eq_true, decide_eq_true_eq] at h
    unfold Sparse.put
    split
    · rename_i hkj
      split
      · simp only [Sparse.wfFrom, Bool.and_eq_true, decide_eq_true_eq]; exact h
      · rename_i hv
        simp only [Sparse.wfFrom, Bool.and_eq_true, decide_eq_true_eq]
        exact ⟨⟨hk, hv⟩, ⟨by omega, h.1.2⟩, h.2⟩
    · split
      · rename_i hkj
        subst hkj
        split
        · exact Sparse.wfFrom_mono (by omega) h.2
        · rename_i hv
          simp only [Sparse.wfFrom, Bool.and_eq_true, decide_eq_true_eq]
          exact ⟨⟨hk, hv⟩, h.2⟩
      · simp only [Sparse.wfFrom, Bool.and_eq_true, decide_eq_true_eq]
        exact ⟨h.1, Sparse.wfFrom_put v (by omega) h.2⟩

theorem Sparse.wf_put {l : List (Nat × α)} (k : Nat) (v : α) (h : Sparse.wf dflt l = true) : Sparse.wf dflt (Sparse.put dflt k v l) = true :=
  Sparse.wfFrom_put v (Nat.zero_le k) h

theorem Sparse.wf_putRun : ∀ (vs : List α) (k : Nat) {l : List (Nat × α)}, Sparse.wf dflt l = true → Sparse.wf dflt (Sparse.putRun dflt k vs l) = true
  | [], _, _, h => h
  | v :: vs, k, _, h => Sparse.wf_putRun vs (k + 1) (Sparse.wf_put k v h)

/-- Dropping entries keeps the form. -/
theorem Sparse.wfFrom_filter (p : Nat × α → Bool) :
    ∀ {lo : Nat} {l : List (Nat × α)}, Sparse.wfFrom dflt lo l = true → Sparse.wfFrom dflt lo (l.filter p) = true
  | _, [], _ => rfl
  | lo, (j, w) :: l, h => by
    simp only [Sparse.wfFrom, Bool.and_eq_true, decide_eq_true_eq] at h
    rw [List.filter_cons]
    split
    · simp only [Sparse.wfFrom, Bool.and_eq_true, decide_eq_true_eq]
      exact ⟨h.1, Sparse.wfFrom_filter p h.2⟩
    · exact Sparse.wfFrom_filter p (Sparse.wfFrom_mono (by omega) h.2)

theorem Sparse.wf_filter (p : Nat × α → Bool) {l : List (Nat × α)} (h : Sparse.wf dflt l = true) : Sparse.wf dflt (l.filter p) = true :=
  Sparse.wfFrom_filter p h

/-- A key reads as it was last written. -/
theorem Sparse.get_put_self (k : Nat) (v : α) :
    ∀ {lo : Nat} {l : List (Nat × α)}, Sparse.wfFrom dflt lo l = true → Sparse.get dflt k (Sparse.put dflt k v l) = v
  | _, [], _ => by
    unfold Sparse.put
    split
    · simp_all [Sparse.get]
    · simp [Sparse.get]
  | lo, (j, w) :: l, h => by
    simp only [Sparse.wfFrom, Bool.and_eq_true, decide_eq_true_eq] at h
    unfold Sparse.put
    split
    · rename_i hkj
      split
      · rename_i hv
        have : k ≠ j := by omega
        simp only [Sparse.get, this, if_false]
        rw [Sparse.get_below (by omega) h.2, hv]
      · simp [Sparse.get]
    · split
      · rename_i hkj
        subst hkj
        split
        · rename_i hv
          rw [Sparse.get_below (by omega) h.2, hv]
        · simp [Sparse.get]
      · rename_i hkj
        simp only [Sparse.get, hkj, if_false]
        exact Sparse.get_put_self k v h.2

/-- Other keys read as before a write. -/
theorem Sparse.get_put_other {k i : Nat} (v : α) (hi : i ≠ k) :
    ∀ {l : List (Nat × α)}, Sparse.get dflt i (Sparse.put dflt k v l) = Sparse.get dflt i l
  | [] => by
    unfold Sparse.put
    split
    · rfl
    · simp [Sparse.get, hi]
  | (j, w) :: l => by
    unfold Sparse.put
    split
    · split
      · rfl
      · simp [Sparse.get, hi]
    · split
      · rename_i hkj
        subst hkj
        split <;> simp [Sparse.get, hi]
      · simp only [Sparse.get]
        split
        · rfl
        · exact Sparse.get_put_other v hi

end Sys2Proof.Machine
end

