-- ==== Sys2Proof/Laws/Kept.lean ====
section
/-! SUPPORT. What every operation keeps, as one relation between the state a command finds and the states on its way: the part, the queue, the
time, and the canonical form of the register file and of the byte memories. -/

namespace Sys2Proof.Machine

/-- The fuses only gain: the keys stay, and the security version never goes down nor beyond its 127 fuses (R82, R83). -/
structure Fuses.Gain (a s : Fuses) : Prop where
  vendorKey : s.vendorKey = a.vendorKey
  ownerKey : s.ownerKey = a.ownerKey
  parityOk : s.parityOk = a.parityOk
  svn : a.svn ≤ 127 → a.svn ≤ s.svn ∧ s.svn ≤ 127

theorem Fuses.Gain.refl (a : Fuses) : Fuses.Gain a a := ⟨rfl, rfl, rfl, fun h => ⟨le_refl _, h⟩⟩

theorem Fuses.Gain.trans {a b c : Fuses} (h : Fuses.Gain a b) (k : Fuses.Gain b c) : Fuses.Gain a c :=
  ⟨k.vendorKey.trans h.vendorKey, k.ownerKey.trans h.ownerKey, k.parityOk.trans h.parityOk,
   fun w => ⟨(h.svn w).1.trans (k.svn (h.svn w).2).1, (k.svn (h.svn w).2).2⟩⟩

/-- `s` lies on the way of a command that began at `a`. -/
structure Kept (a s : State) : Prop where
  part : s.part = a.part
  pending : s.pending = a.pending
  now : s.now = a.now
  regs : a.regsWf = true → s.regsWf = true
  mem0 : a.memWf = true → Memory.wf s.f0.bmem.cells = true
  mem1 : a.memWf = true → Memory.wf s.f1.bmem.cells = true
  scratch : a.memWf = true → ∀ c ∈ s.curds, Memory.wf c.scratch = true
  six : a.curds.length = 6 → s.curds.length = 6
  fuses : Fuses.Gain a.fuses s.fuses
  free : a.free ≤ s.free
  out : a.out <:+ s.out

theorem State.memWf_iff {s : State} : s.memWf = true ↔
    Memory.wf s.f0.bmem.cells = true ∧ Memory.wf s.f1.bmem.cells = true ∧ ∀ c ∈ s.curds, Memory.wf c.scratch = true := by
  simp [State.memWf, and_assoc]

theorem Kept.refl (a : State) : Kept a a :=
  ⟨rfl, rfl, rfl, id, fun h => (State.memWf_iff.mp h).1, fun h => (State.memWf_iff.mp h).2.1, fun h => (State.memWf_iff.mp h).2.2, id,
   Fuses.Gain.refl _, le_refl _, List.suffix_refl _⟩

theorem Kept.mem {a s : State} (h : Kept a s) (ha : a.memWf = true) : s.memWf = true :=
  State.memWf_iff.mpr ⟨h.mem0 ha, h.mem1 ha, h.scratch ha⟩

theorem Kept.canonical {a s : State} (h : Kept a s) (ha : a.Canonical) : s.Canonical := ⟨h.regs ha.1, h.mem ha.2⟩

theorem Kept.trans {a b c : State} (h : Kept a b) (k : Kept b c) : Kept a c :=
  ⟨k.part.trans h.part, k.pending.trans h.pending, k.now.trans h.now, fun w => k.regs (h.regs w), fun w => k.mem0 (h.mem w),
   fun w => k.mem1 (h.mem w), fun w => k.scratch (h.mem w), fun w => k.six (h.six w), h.fuses.trans k.fuses, h.free.trans k.free,
   h.out.trans k.out⟩

/-- A change of fields that the relation does not look at. -/
theorem Kept.upd {a s t : State} (h1 : t.part = s.part) (h2 : t.pending = s.pending) (h3 : t.now = s.now) (h4 : t.regs = s.regs)
    (h5 : t.f0.bmem.cells = s.f0.bmem.cells) (h6 : t.f1.bmem.cells = s.f1.bmem.cells) (h7 : t.curds = s.curds) (h8 : t.fuses = s.fuses)
    (h9 : t.free = s.free) (h10 : t.out = s.out) (h : Kept a s) : Kept a t :=
  ⟨h1.trans h.part, h2.trans h.pending, h3.trans h.now, fun w => by simpa [State.regsWf, h4] using h.regs w, fun w => by rw [h5]; exact h.mem0 w,
   fun w => by rw [h6]; exact h.mem1 w, fun w => by rw [h7]; exact h.scratch w, fun w => by rw [h7]; exact h.six w, by rw [h8]; exact h.fuses,
   by rw [h9]; exact h.free, by rw [h10]; exact h.out⟩

/-- The same, for a state written out field by field. -/
theorem Kept.mk' {a s : State} {p n f pe o t r f0 f1 cu fl fu pi pm b se cm co nu ni po li sc ve x mt mc ml ru hl bu sp}
    (h1 : p = s.part) (h2 : pe = s.pending) (h3 : n = s.now) (h4 : r = s.regs) (h5 : f0.bmem.cells = s.f0.bmem.cells)
    (h6 : f1.bmem.cells = s.f1.bmem.cells) (h7 : cu = s.curds) (h8 : fu = s.fuses) (h9 : f = s.free) (h10 : o = s.out) (h : Kept a s) :
    Kept a (State.mk p n f pe o t r f0 f1 cu fl fu pi pm b se cm co nu ni po li sc ve x mt mc ml ru hl bu sp) :=
  Kept.upd h1 h2 h3 h4 h5 h6 h7 h8 h9 h10 h

theorem Kept.emit {a s : State} {o : Out} (h : Kept a s) : Kept a (s.emit o) :=
  ⟨h.part, h.pending, h.now, h.regs, h.mem0, h.mem1, h.scratch, h.six, h.fuses, h.free, h.out.trans (List.suffix_cons _ _)⟩

theorem Kept.fresh {a s : State} (h : Kept a s) : Kept a s.fresh.2 :=
  ⟨h.part, h.pending, h.now, h.regs, h.mem0, h.mem1, h.scratch, h.six, h.fuses, h.free.trans (Nat.le_succ _), h.out⟩

/-- The same, where the fuses gain (R83). -/
theorem Kept.burn' {a s : State} {p n f pe o t r f0 f1 cu fl fu pi pm b se cm co nu ni po li sc ve x mt mc ml ru hl bu sp}
    (h1 : p = s.part) (h2 : pe = s.pending) (h3 : n = s.now) (h4 : r = s.regs) (h5 : f0.bmem.cells = s.f0.bmem.cells)
    (h6 : f1.bmem.cells = s.f1.bmem.cells) (h7 : cu = s.curds) (h8 : Fuses.Gain s.fuses fu) (h9 : f = s.free) (h10 : o = s.out) (h : Kept a s) :
    Kept a (State.mk p n f pe o t r f0 f1 cu fl fu pi pm b se cm co nu ni po li sc ve x mt mc ml ru hl bu sp) := by
  subst h1 h2 h3 h4 h7 h9 h10
  exact ⟨h.part, h.pending, h.now, h.regs, fun w => by show Memory.wf f0.bmem.cells = true; rw [h5]; exact h.mem0 w,
    fun w => by show Memory.wf f1.bmem.cells = true; rw [h6]; exact h.mem1 w, h.scratch, h.six, h.fuses.trans h8, h.free, h.out⟩

theorem Kept.ite {a s t : State} {c : Prop} [Decidable c] (h : Kept a s) (k : Kept a t) : Kept a (if c then s else t) := by split <;> assumption

theorem Kept.getD {a s : State} {o : Option State} (h : ∀ t, o = some t → Kept a t) (k : Kept a s) : Kept a (o.getD s) := by
  cases o
  · exact k
  · exact h _ rfl

/-- The next state of an outcome lies on the way. -/
def OutKept (a : State) (o : Host.Outcome State Fault Refusal) : Prop := ∀ t, o = .next t → Kept a t

theorem OutKept.next {a s : State} (h : Kept a s) : OutKept a (.next s) := fun t ht => by cases ht; exact h

theorem OutKept.ite {a : State} {o p : Host.Outcome State Fault Refusal} {c : Prop} [Decidable c] (h : OutKept a o) (k : OutKept a p) :
    OutKept a (if c then o else p) := by split <;> assumption

theorem Kept.ite_fst {a : State} {β : Type} {p q : State × β} {c : Prop} [Decidable c] (h : Kept a p.1) (k : Kept a q.1) :
    Kept a (if c then p else q).1 := by split <;> assumption

theorem Kept.ite_snd {a : State} {β : Type} {p q : β × State} {c : Prop} [Decidable c] (h : Kept a p.2) (k : Kept a q.2) :
    Kept a (if c then p else q).2 := by split <;> assumption

theorem Kept.ite_snd_snd {a : State} {β γ : Type} {p q : β × γ × State} {c : Prop} [Decidable c] (h : Kept a p.2.2) (k : Kept a q.2.2) :
    Kept a (if c then p else q).2.2 := by split <;> assumption

theorem Kept.foldl {a s : State} {β : Type} {f : State → β → State} {l : List β} (hf : ∀ t x, Kept a t → Kept a (f t x)) (h : Kept a s) :
    Kept a (l.foldl f s) := by
  induction l generalizing s with
  | nil => exact h
  | cons x l ih => exact ih (hf s x h)

theorem Kept.foldl_fst {a : State} {β γ : Type} {f : State × γ → β → State × γ} {l : List β} {p : State × γ}
    (hf : ∀ q x, Kept a q.1 → Kept a (f q x).1) (h : Kept a p.1) : Kept a (l.foldl f p).1 := by
  induction l generalizing p with
  | nil => exact h
  | cons x l ih => exact ih (hf p x h)

theorem Kept.foldl_snd {a : State} {β γ : Type} {f : γ × State → β → γ × State} {l : List β} {p : γ × State}
    (hf : ∀ q x, Kept a q.2 → Kept a (f q x).2) (h : Kept a p.2) : Kept a (l.foldl f p).2 := by
  induction l generalizing p with
  | nil => exact h
  | cons x l ih => exact ih (hf p x h)

theorem Kept.foldl_snd_snd {a : State} {β γ δ : Type} {f : γ × δ × State → β → γ × δ × State} {l : List β} {p : γ × δ × State}
    (hf : ∀ q x, Kept a q.2.2 → Kept a (f q x).2.2) (h : Kept a p.2.2) : Kept a (l.foldl f p).2.2 := by
  induction l generalizing p with
  | nil => exact h
  | cons x l ih => exact ih (hf p x h)

theorem Kept.modRind {a s : State} {d : RSlot} {f : RindDie → RindDie}
    (hf : ∀ r, Memory.wf r.bmem.cells = true → Memory.wf (f r).bmem.cells = true) (h : Kept a s) : Kept a (s.modRind d f) := by
  cases d
  · exact ⟨h.part, h.pending, h.now, h.regs, fun w => hf _ (h.mem0 w), h.mem1, h.scratch, h.six, h.fuses, h.free, h.out⟩
  · exact ⟨h.part, h.pending, h.now, h.regs, h.mem0, fun w => hf _ (h.mem1 w), h.scratch, h.six, h.fuses, h.free, h.out⟩

theorem mem_modAt {α : Type} {f : α → α} {x : α} : ∀ {l : List α} {i : Nat}, x ∈ modAt i f l → x ∈ l ∨ ∃ y ∈ l, x = f y
  | [], i, h => by cases i <;> simp [modAt] at h
  | y :: l, 0, h => by
    simp only [modAt, List.modify_cons, if_true, List.mem_cons] at h
    rcases h with rfl | h
    · exact .inr ⟨y, by simp, rfl⟩
    · exact .inl (by simp [h])
  | y :: l, i + 1, h => by
    simp only [modAt, List.modify_succ_cons, List.mem_cons] at h
    rcases h with rfl | h
    · exact .inl (by simp)
    · rcases mem_modAt h with h | ⟨z, hz, rfl⟩
      · exact .inl (by simp [h])
      · exact .inr ⟨z, by simp [hz], rfl⟩

theorem Kept.modCurd {a s : State} {g : Nat} {f : CurdDie → CurdDie}
    (hf : ∀ c, Memory.wf c.scratch = true → Memory.wf (f c).scratch = true) (h : Kept a s) : Kept a (s.modCurd g f) :=
  ⟨h.part, h.pending, h.now, h.regs, h.mem0, h.mem1, fun w c hc => by
    rcases mem_modAt hc with hc | ⟨y, hy, rfl⟩
    · exact h.scratch w c hc
    · exact hf y (h.scratch w y hy), fun w => by simpa [State.modCurd, modAt] using h.six w, h.fuses, h.free, h.out⟩

theorem Kept.setWord {a s : State} {k : Nat} {v : Word} (h : Kept a s) : Kept a (s.setWord k v) :=
  ⟨h.part, h.pending, h.now, fun w => Sparse.wf_put k v (h.regs w), h.mem0, h.mem1, h.scratch, h.six, h.fuses, h.free, h.out⟩

theorem Kept.modBmem {a s : State} {d : RSlot} {f : Bmem → Bmem} (hf : ∀ m, Memory.wf m.cells = true → Memory.wf (f m).cells = true)
    (h : Kept a s) : Kept a (modBmem d f s) := Kept.modRind (fun r hr => hf r.bmem hr) h

theorem Kept.keepRegs {a s : State} {p : Nat → Bool} (h : Kept a s) : Kept a (keepRegs p s) :=
  ⟨h.part, h.pending, h.now, fun w => Sparse.wf_filter _ (h.regs w), h.mem0, h.mem1, h.scratch, h.six, h.fuses, h.free, h.out⟩

end Sys2Proof.Machine
end

