-- ==== Sys2Proof/Laws/KeptOps1.lean ====
section
/-! SUPPORT. What the operations keep (the relation of Laws/Kept.lean), one lemma each: CmdOps, LadleOps, Ops, PortOps, Recovery, Regs, SectorOps, ServoOps, Tally, XlatOps. -/

set_option linter.all false

namespace Sys2Proof.Machine

theorem State.modEnd_kept {a' : State} {s : State} {e : LinkEnd} {f : FvEnd → FvEnd} (hk : Kept a' s) :
    Kept a' (State.modEnd s e f) := by
  unfold State.modEnd
  split
  · rename_i z0 z1 z2
    with_reducible apply Kept.modRind
    · intro y3 y4
      exact y4
    · exact hk
  · rename_i z5 z6 z7
    with_reducible apply Kept.modCurd
    · intro y8 y9
      exact y9
    · exact hk

theorem sendLcw_kept {a' : State} {e : LinkEnd} {typ : Nat} {cidx : Nat} {s : State} (hk : Kept a' s) :
    Kept a' (sendLcw e typ cidx s) := by
  unfold sendLcw
  lift_lets
  intro x0
  clear_value x0
  intro x1
  clear_value x1
  intro x2
  have h3 : Kept a' x2 := by
    subst x2
    apply Kept.ite
    · with_reducible apply State.modEnd_kept
      exact hk
    · exact hk
  clear_value x2
  with_reducible apply Kept.emit
  with_reducible apply State.modEnd_kept
  exact h3

theorem payLcws_kept {a' : State} {s : State} (hk : Kept a' s) :
    Kept a' (payLcws s) := by
  unfold payLcws
  with_reducible apply Kept.foldl
  · intro t0 y1 h2
    with_reducible apply Kept.foldl
    · intro t3 y4 h5
      apply Kept.ite
      · with_reducible apply sendLcw_kept
        exact h5
      · exact h5
    · exact h2
  · exact hk

theorem inStep_kept {a' : State} {f : RSlot → State → State} {s : State} (hf : ∀ y0 t, Kept a' t → Kept a' (f y0 t)) (hk : Kept a' s) :
    Kept a' (inStep f s) := by
  unfold inStep
  with_reducible apply Kept.foldl
  · intro t0 y1 h2
    apply hf
    exact h2
  · exact hk

theorem State.wr_kept {a' : State} {s : State} {die : Nat} {f : Fld} {v : Nat} (hk : Kept a' s) :
    Kept a' (State.wr s die f v) := by
  unfold State.wr
  with_reducible apply Kept.setWord
  exact hk

theorem State.wrR_kept {a' : State} {s : State} {d : RSlot} {f : Fld} {v : Nat} (hk : Kept a' s) :
    Kept a' (State.wrR s d f v) := by
  unfold State.wrR
  with_reducible apply State.wr_kept
  exact hk

theorem wrAll_kept {a' : State} {f : Fld} {v : Nat} {s : State} (hk : Kept a' s) :
    Kept a' (wrAll f v s) := by
  unfold wrAll
  with_reducible apply inStep_kept
  · intro y0 t1 h2
    with_reducible apply State.wrR_kept
    exact h2
  · exact hk

theorem modPort_kept {a' : State} {p : Nat} {f : PortX → PortX} {s : State} (hk : Kept a' s) :
    Kept a' (modPort p f s) := by
  unfold modPort
  with_reducible refine Kept.mk' rfl rfl rfl rfl rfl rfl rfl rfl rfl rfl ?_
  exact hk

theorem digestAdd_kept {a' : State} {d : RSlot} {bs : List Byte} {s : State} (hk : Kept a' s) :
    Kept a' (digestAdd d bs s) := by
  unfold digestAdd
  apply Kept.ite
  · with_reducible apply Kept.modRind
    · intro y0 y1
      exact y1
    · exact hk
  · exact hk

theorem giveSlot_kept {a' : State} {p : Nat} {s : State} (hk : Kept a' s) :
    Kept a' (giveSlot p s) := by
  unfold giveSlot
  split
  · rename_i z0 z1
    exact hk
  · rename_i z2 z3 z4
    apply Kept.ite
    · exact hk
    · lift_lets
      intro x5
      clear_value x5
      intro x6
      clear_value x6
      intro x7
      clear_value x7
      intro x8
      clear_value x8
      intro x9
      have h10 : Kept a' x9 := by
        subst x9
        with_reducible refine Kept.mk' rfl rfl rfl rfl rfl rfl rfl rfl rfl rfl ?_
        exact hk
      clear_value x9
      intro x11
      have h12 : Kept a' x11 := by
        subst x11
        with_reducible apply wrAll_kept
        apply Kept.ite
        · with_reducible apply wrAll_kept
          exact h10
        · exact h10
      clear_value x11
      intro x13
      have h14 : Kept a' x13 := by
        subst x13
        with_reducible apply modPort_kept
        exact h12
      clear_value x13
      with_reducible apply inStep_kept
      · intro y15 t16 h17
        with_reducible apply digestAdd_kept
        exact h17
      · exact h14

theorem hostPut_kept {a' : State} {d : RSlot} {dom : Nat} {addr : Nat} {data : List Byte} {s : State} (hk : Kept a' s) :
    Kept a' (hostPut d dom addr data s) := by
  unfold hostPut
  split
  · rename_i z0 z1
    exact hk
  · rename_i z2 z3 z4
    with_reducible apply Kept.emit
    exact hk

theorem writeComp_kept {a' : State} {c : Comp} {s : State} (hk : Kept a' s) :
    Kept a' (writeComp c s) := by
  unfold writeComp
  split
  · rename_i z0 z1
    exact hk
  · rename_i z2 z3 z4 z5
    lift_lets
    intro x6
    clear_value x6
    intro x7
    have h8 : Kept a' x7 := by
      subst x7
      with_reducible apply Kept.foldl
      · intro t9 y10 h11
        with_reducible apply hostPut_kept
        exact h11
      · exact hk
    clear_value x7
    with_reducible refine Kept.mk' rfl rfl rfl rfl rfl rfl rfl rfl rfl rfl ?_
    exact h8

theorem drainCheck_kept {a' : State} {p : Nat} {s : State} (hk : Kept a' s) :
    Kept a' (drainCheck p s) := by
  unfold drainCheck
  apply Kept.ite
  · with_reducible apply modPort_kept
    with_reducible apply wrAll_kept
    exact hk
  · exact hk

theorem showPort_kept {a' : State} {p : Nat} {s : State} (hk : Kept a' s) :
    Kept a' (showPort p s) := by
  unfold showPort
  with_reducible apply wrAll_kept
  with_reducible apply wrAll_kept
  exact hk

theorem State.inc_kept {a' : State} {s : State} {die : Nat} {f : Fld} {n : Nat} (hk : Kept a' s) :
    Kept a' (State.inc s die f n) := by
  unfold State.inc
  with_reducible apply State.wr_kept
  exact hk

theorem State.incR_kept {a' : State} {s : State} {d : RSlot} {f : Fld} {n : Nat} (hk : Kept a' s) :
    Kept a' (State.incR s d f n) := by
  unfold State.incR
  with_reducible apply State.inc_kept
  exact hk

theorem dropComps_kept {a' : State} {p : Nat} {s : State} (hk : Kept a' s) :
    Kept a' (dropComps p s) := by
  unfold dropComps
  lift_lets
  intro x0
  clear_value x0
  intro x1
  have h2 : Kept a' x1 := by
    subst x1
    with_reducible apply Kept.foldl
    · intro t3 y4 h5
      with_reducible apply Kept.foldl
      · intro t6 y7 h8
        with_reducible apply State.incR_kept
        exact h8
      · exact h5
    · exact hk
  clear_value x1
  intro x9
  clear_value x9
  intro x10
  clear_value x10
  with_reducible refine Kept.mk' rfl rfl rfl rfl rfl rfl rfl rfl rfl rfl ?_
  exact h2

theorem pumpPort_kept {a' : State} {p : Nat} {s : State} (hk : Kept a' s) :
    Kept a' (pumpPort p s) := by
  unfold pumpPort
  lift_lets
  intro x0
  have h1 : Kept a' x0 := by
    subst x0
    with_reducible apply Kept.foldl
    · intro t2 y3 h4
      with_reducible apply giveSlot_kept
      exact h4
    · exact hk
  clear_value x0
  intro x5
  have h6 : Kept a' x5 := by
    subst x5
    with_reducible apply Kept.foldl
    · intro t7 y8 h9
      with_reducible apply writeComp_kept
      exact h9
    · exact h1
  clear_value x5
  with_reducible apply drainCheck_kept
  with_reducible apply showPort_kept
  with_reducible apply dropComps_kept
  exact h6

theorem showSched_kept {a' : State} {s : State} (hk : Kept a' s) :
    Kept a' (showSched s) := by
  unfold showSched
  with_reducible apply wrAll_kept
  with_reducible apply wrAll_kept
  with_reducible apply wrAll_kept
  exact hk

theorem retire_kept {a' : State} {s : State} (hk : Kept a' s) :
    Kept a' (retire s) := by
  unfold retire
  with_reducible refine Kept.mk' rfl rfl rfl rfl rfl rfl rfl rfl rfl rfl ?_
  exact hk

theorem modXlat_kept {a' : State} {f : Xlat → Xlat} {s : State} (hk : Kept a' s) :
    Kept a' (modXlat f s) := by
  unfold modXlat
  with_reducible refine Kept.mk' rfl rfl rfl rfl rfl rfl rfl rfl rfl rfl ?_
  exact hk

theorem modT_kept {a' : State} {f : Tables → Tables} {s : State} (hk : Kept a' s) :
    Kept a' (modT f s) := by
  unfold modT
  with_reducible apply modXlat_kept
  exact hk

theorem abandonReloc_kept {a' : State} {sl : SlotNo} {s : State} (hk : Kept a' s) :
    Kept a' (abandonReloc sl s) := by
  unfold abandonReloc
  lift_lets
  intro x0
  clear_value x0
  intro x1
  have h2 : Kept a' x1 := by
    subst x1
    with_reducible apply modXlat_kept
    exact hk
  clear_value x1
  with_reducible apply modT_kept
  exact h2

theorem State.bump_kept {a' : State} {s : State} {die : Nat} {f : Fld} {n : Nat} (hk : Kept a' s) :
    Kept a' (State.bump s die f n) := by
  unfold State.bump
  with_reducible apply State.wr_kept
  exact hk

theorem stageRec_kept {a' : State} {d : RSlot} {r : LogRec} {s : State} (hk : Kept a' s) :
    Kept a' (stageRec d r s) := by
  unfold stageRec
  lift_lets
  intro x0
  have h1 : Kept a' x0 := by
    subst x0
    with_reducible apply State.bump_kept
    exact hk
  clear_value x0
  intro x2
  clear_value x2
  intro x3
  have h4 : ∀ y0 y1, Kept a' y0 → Kept a' (x3 y0 y1) := by
    subst x3
    intro t5 y6 h7
    beta_reduce
    lift_lets
    intro x8
    have h9 : Kept a' x8 := by
      subst x8
      with_reducible apply Kept.modRind
      · intro y10 y11
        exact y11
      · exact h7
    clear_value x8
    with_reducible apply State.wrR_kept
    with_reducible apply State.bump_kept
    with_reducible apply State.wrR_kept
    exact h9
  clear_value x3
  apply Kept.ite
  · apply h4
    exact h1
  · split
    · rename_i z12 z13 z14
      lift_lets
      intro x15
      have h16 : Kept a' x15 := by
        subst x15
        with_reducible apply State.wrR_kept
        with_reducible apply State.bump_kept
        exact h1
      clear_value x15
      apply h4
      exact h16
    · rename_i z17 z18
      with_reducible apply State.bump_kept
      exact h1

theorem stopAlive_kept {a' : State} {s : State} (hk : Kept a' s) :
    Kept a' (stopAlive s) := by
  unfold stopAlive
  with_reducible refine Kept.mk' rfl rfl rfl rfl rfl rfl rfl rfl rfl rfl ?_
  exact hk

theorem enterFault_kept {a' : State} {die : Nat} {src : Nat} {sev : Nat} {s : State} (hk : Kept a' s) :
    Kept a' (enterFault die src sev s) := by
  unfold enterFault
  with_reducible apply stopAlive_kept
  with_reducible apply Kept.foldl
  · intro t0 y1 h2
    lift_lets
    intro x3
    have h4 : Kept a' x3 := by
      subst x3
      apply Kept.ite
      · with_reducible apply State.wrR_kept
        exact h2
      · exact h2
    clear_value x3
    intro x5
    have h6 : Kept a' x5 := by
      subst x5
      with_reducible apply State.wrR_kept
      exact h4
    clear_value x5
    intro x7
    have h8 : Kept a' x7 := by
      subst x7
      with_reducible apply State.wrR_kept
      with_reducible apply State.wrR_kept
      with_reducible apply State.wrR_kept
      exact h6
    clear_value x7
    with_reducible apply Kept.modRind
    · intro y9 y10
      exact y10
    · exact h8
  · exact hk

theorem fatalAction_kept {a' : State} {d : RSlot} {src : Nat} {s : State} (hk : Kept a' s) :
    Kept a' (fatalAction d src s) := by
  unfold fatalAction
  apply Kept.ite
  · exact hk
  · apply Kept.ite
    · with_reducible refine Kept.mk' rfl rfl rfl rfl rfl rfl rfl rfl rfl rfl ?_
      exact hk
    · apply Kept.ite
      · with_reducible refine Kept.mk' rfl rfl rfl rfl rfl rfl rfl rfl rfl rfl ?_
        exact hk
      · exact hk

theorem raiseFull_kept {a' : State} {d : RSlot} {die : Nat} {src : Nat} {detail : List Nat} {fix : Option Nat} {s : State} (hk : Kept a' s) :
    Kept a' (raiseFull d die src detail fix s) := by
  unfold raiseFull
  apply Kept.ite
  · exact hk
  · lift_lets
    intro x0
    clear_value x0
    intro x1
    clear_value x1
    intro x2
    have h3 : Kept a' x2 := by
      subst x2
      with_reducible apply State.incR_kept
      exact hk
    clear_value x2
    intro x4
    clear_value x4
    intro x5
    clear_value x5
    intro x6
    clear_value x6
    intro x7
    clear_value x7
    intro x8
    have h9 : Kept a' x8 := by
      subst x8
      with_reducible apply Kept.modRind
      · intro y10 y11
        exact y11
      · exact h3
    clear_value x8
    intro x12
    have h13 : Kept a' x12 := by
      subst x12
      apply Kept.ite
      · with_reducible apply State.wrR_kept
        exact h9
      · exact h9
    clear_value x12
    intro x14
    have h15 : Kept a' x14 := by
      subst x14
      apply Kept.ite
      · exact h13
      · with_reducible apply stageRec_kept
        exact h13
    clear_value x14
    intro x16
    have h17 : Kept a' x16 := by
      subst x16
      apply Kept.ite
      · with_reducible apply enterFault_kept
        exact h15
      · exact h15
    clear_value x16
    apply Kept.ite
    · with_reducible apply fatalAction_kept
      exact h17
    · exact h17

theorem raise_kept {a' : State} {d : RSlot} {src : Nat} {detail : List Nat} {s : State} (hk : Kept a' s) :
    Kept a' (raise d src detail s) := by
  unfold raise
  with_reducible apply raiseFull_kept
  exact hk

theorem raiseAll_kept {a' : State} {src : Nat} {detail : List Nat} {s : State} (hk : Kept a' s) :
    Kept a' (raiseAll src detail s) := by
  unfold raiseAll
  with_reducible apply inStep_kept
  · intro y0 t1 h2
    with_reducible apply raise_kept
    exact h2
  · exact hk

theorem writeJournal_kept {a' : State} {s : State} (hk : Kept a' s) :
    Kept a' (writeJournal s) := by
  unfold writeJournal
  apply Kept.ite
  · exact hk
  · lift_lets
    intro x0
    clear_value x0
    intro x1
    have h2 : Kept a' x1 := by
      subst x1
      apply Kept.ite
      · with_reducible apply wrAll_kept
        with_reducible apply raiseAll_kept
        with_reducible refine Kept.mk' rfl rfl rfl rfl rfl rfl rfl rfl rfl rfl ?_
        exact hk
      · exact hk
    clear_value x1
    intro x3
    have h4 : Kept a' x3 := by
      subst x3
      with_reducible refine Kept.mk' rfl rfl rfl rfl rfl rfl rfl rfl rfl rfl ?_
      exact h2
    clear_value x3
    intro x5
    have h6 : Kept a' x5 := by
      subst x5
      with_reducible apply modXlat_kept
      exact h4
    clear_value x5
    intro x7
    have h8 : Kept a' x7 := by
      subst x7
      with_reducible refine Kept.mk' rfl rfl rfl rfl rfl rfl rfl rfl rfl rfl ?_
      exact h6
    clear_value x7
    intro x9
    have h10 : Kept a' x9 := by
      subst x9
      apply Kept.ite
      · with_reducible apply wrAll_kept
        exact h8
      · exact h8
    clear_value x9
    apply Kept.ite
    · with_reducible apply wrAll_kept
      with_reducible apply modXlat_kept
      exact h10
    · with_reducible apply wrAll_kept
      exact h6

theorem journal_kept {a' : State} {s : State} (hk : Kept a' s) :
    Kept a' (journal s) := by
  unfold journal
  lift_lets
  intro x0
  have h1 : Kept a' x0 := by
    subst x0
    with_reducible apply modXlat_kept
    exact hk
  clear_value x0
  apply Kept.ite
  · with_reducible apply writeJournal_kept
    exact h1
  · exact h1

theorem retireSlot_kept {a' : State} {sl : SlotNo} {s : State} (hk : Kept a' s) :
    Kept a' (retireSlot sl s) := by
  unfold retireSlot
  lift_lets
  intro x0
  have h1 : Kept a' x0 := by
    subst x0
    with_reducible apply modT_kept
    exact hk
  clear_value x0
  with_reducible apply modT_kept
  exact h1

theorem vacate_kept {a' : State} {sl : SlotNo} {count : Nat} {s : State} (hk : Kept a' s) :
    Kept a' (vacate sl count s) := by
  unfold vacate
  apply Kept.ite
  · with_reducible apply retireSlot_kept
    exact hk
  · with_reducible apply modT_kept
    exact hk

theorem freeSlot_kept {a' : State} {sl : SlotNo} {s : State} (hk : Kept a' s) :
    Kept a' (freeSlot sl s) := by
  unfold freeSlot
  lift_lets
  intro x0
  have h1 : Kept a' x0 := by
    subst x0
    with_reducible apply abandonReloc_kept
    exact hk
  clear_value x0
  split
  · rename_i z2 z3
    exact h1
  · rename_i z4 z5 z6
    with_reducible apply journal_kept
    with_reducible apply vacate_kept
    exact h1

theorem dropBlocks_kept {a' : State} {v : Nat} {k : Nat} {s : State} (hk : Kept a' s) :
    Kept a' (dropBlocks v k s) := by
  unfold dropBlocks
  with_reducible apply modT_kept
  with_reducible refine Kept.mk' rfl rfl rfl rfl rfl rfl rfl rfl rfl rfl ?_
  exact hk

theorem freeReleased_kept {a' : State} {s : State} (hk : Kept a' s) :
    Kept a' (freeReleased s) := by
  unfold freeReleased
  with_reducible apply Kept.foldl
  · intro t0 y1 h2
    with_reducible apply freeSlot_kept
    with_reducible apply dropBlocks_kept
    exact h2
  · exact hk

theorem complete_kept {a' : State} {c : Cmd} {status : Nat} {info : Nat} {s : State} (hk : Kept a' s) :
    Kept a' (complete c status info s) := by
  unfold complete
  lift_lets
  intro x0
  clear_value x0
  intro x1
  clear_value x1
  intro x2
  have h3 : Kept a' x2 := by
    subst x2
    with_reducible apply wrAll_kept
    with_reducible refine Kept.mk' rfl rfl rfl rfl rfl rfl rfl rfl rfl rfl ?_
    exact hk
  clear_value x2
  intro x4
  have h5 : Kept a' x4 := by
    subst x4
    with_reducible apply Kept.foldl
    · intro t6 y7 h8
      with_reducible apply Kept.modRind
      · intro y9 y10
        exact y10
      · exact h8
    · exact h3
  clear_value x4
  with_reducible apply pumpPort_kept
  with_reducible apply showSched_kept
  with_reducible apply retire_kept
  with_reducible apply freeReleased_kept
  exact h5

theorem endCommand_kept {a' : State} {port : Nat} {tag : Nat} {status : Nat} {info : Nat} {s : State} (hk : Kept a' s) :
    Kept a' (endCommand port tag status info s) := by
  unfold endCommand
  split
  · rename_i z0 z1 z2
    with_reducible apply complete_kept
    exact hk
  · rename_i z3 z4
    exact hk

theorem endSingleDie_kept {a' : State} {s : State} (hk : Kept a' s) :
    Kept a' (endSingleDie s) := by
  unfold endSingleDie
  apply Kept.ite
  · lift_lets
    intro x0
    clear_value x0
    intro x1
    clear_value x1
    intro x2
    clear_value x2
    intro x3
    have h4 : Kept a' x3 := by
      subst x3
      with_reducible refine Kept.mk' rfl rfl rfl rfl rfl rfl rfl rfl rfl rfl ?_
      exact hk
    clear_value x3
    apply Kept.ite
    · exact hk
    · with_reducible apply Kept.foldl
      · intro t5 y6 h7
        with_reducible apply endCommand_kept
        exact h7
      · with_reducible apply modXlat_kept
        exact h4
  · exact hk

theorem onGroups_kept {a' : State} {f : Nat → State → State} {s : State} (hf : ∀ y0 t, Kept a' t → Kept a' (f y0 t)) (hk : Kept a' s) :
    Kept a' (onGroups f s) := by
  unfold onGroups
  with_reducible apply Kept.foldl
  · intro t0 y1 h2
    apply hf
    exact h2
  · exact hk

theorem modServo_kept {a' : State} {g : Nat} {f : Servo → Servo} {s : State} (hk : Kept a' s) :
    Kept a' (modServo g f s) := by
  unfold modServo
  with_reducible apply Kept.modCurd
  · intro y0 y1
    exact y1
  · exact hk

theorem modFmt_kept {a' : State} {g : Nat} {f : Fmt → Fmt} {s : State} (hk : Kept a' s) :
    Kept a' (modFmt g f s) := by
  unfold modFmt
  with_reducible apply Kept.modCurd
  · intro y0 y1
    exact y1
  · exact hk

theorem State.wrC_kept {a' : State} {s : State} {g : Nat} {f : Fld} {v : Nat} (hk : Kept a' s) :
    Kept a' (State.wrC s g f v) := by
  unfold State.wrC
  with_reducible apply State.wr_kept
  exact hk

theorem showFmt_kept {a' : State} {g : Nat} {s : State} (hk : Kept a' s) :
    Kept a' (showFmt g s) := by
  unfold showFmt
  lift_lets
  intro x0
  clear_value x0
  intro x1
  have h2 : Kept a' x1 := by
    subst x1
    with_reducible apply State.wrC_kept
    exact hk
  clear_value x1
  intro x3
  have h4 : Kept a' x3 := by
    subst x3
    split
    · rename_i z5 z6 z7
      with_reducible apply State.wrC_kept
      with_reducible apply State.wrC_kept
      exact h2
    · rename_i z8 z9
      exact h2
  clear_value x3
  intro x10
  have h11 : Kept a' x10 := by
    subst x10
    with_reducible apply State.wrC_kept
    exact h4
  clear_value x10
  intro x12
  have h13 : Kept a' x12 := by
    subst x12
    with_reducible apply State.wrC_kept
    with_reducible apply State.wrC_kept
    exact h11
  clear_value x12
  with_reducible apply State.wrC_kept
  exact h13

theorem showVault_kept {a' : State} {g : Nat} {s : State} (hk : Kept a' s) :
    Kept a' (showVault g s) := by
  unfold showVault
  with_reducible apply State.wrC_kept
  with_reducible apply State.wrC_kept
  exact hk

theorem modEntry_kept {a' : State} {g : Nat} {id : Nat} {h : VEntry → VEntry} {s : State} (hk : Kept a' s) :
    Kept a' (modEntry g id h s) := by
  unfold modEntry
  with_reducible apply showVault_kept
  with_reducible apply modFmt_kept
  exact hk

theorem unpin_kept {a' : State} {g : Nat} {ids : List Nat} {s : State} (hk : Kept a' s) :
    Kept a' (unpin g ids s) := by
  unfold unpin
  with_reducible apply Kept.foldl
  · intro t0 y1 h2
    with_reducible apply modEntry_kept
    exact h2
  · exact hk

theorem modSec_kept {a' : State} {g : Nat} {eseq : Nat} {i : Nat} {h : Sec → Sec} {s : State} (hk : Kept a' s) :
    Kept a' (modSec g eseq i h s) := by
  unfold modSec
  with_reducible apply modFmt_kept
  exact hk

theorem State.incC_kept {a' : State} {s : State} {g : Nat} {f : Fld} {n : Nat} (hk : Kept a' s) :
    Kept a' (State.incC s g f n) := by
  unfold State.incC
  with_reducible apply State.inc_kept
  exact hk

theorem putOnWire_kept {a' : State} {e : LinkEnd} {ms : List Msg} {s : State} (hk : Kept a' s) :
    Kept a' (putOnWire e ms s) := by
  unfold putOnWire
  with_reducible apply Kept.foldl
  · intro t0 y1 h2
    lift_lets
    intro x3
    clear_value x3
    intro x4
    have h5 : Kept a' x4 := by
      subst x4
      with_reducible apply Kept.emit
      with_reducible apply State.modEnd_kept
      exact h2
    clear_value x4
    split
    · rename_i z6 z7 z8
      apply Kept.ite
      · with_reducible apply State.wrR_kept
        exact h5
      · exact h5
    · rename_i z9 z10 z11
      exact h5
  · exact hk

theorem launchClass_kept {a' : State} {e : LinkEnd} {cidx : Nat} {s : State} (hk : Kept a' s) :
    Kept a' (launchClass e cidx s) := by
  unfold launchClass
  lift_lets
  intro x0
  clear_value x0
  intro x1
  clear_value x1
  with_reducible apply putOnWire_kept
  with_reducible apply State.modEnd_kept
  exact hk

theorem sendMsg_kept {a' : State} {e : LinkEnd} {cls : Nat} {eseq : Nat} {payload : List Word} {s : State} (hk : Kept a' s) :
    Kept a' (sendMsg e cls eseq payload s) := by
  unfold sendMsg
  lift_lets
  intro x0
  clear_value x0
  intro x1
  clear_value x1
  intro x2
  clear_value x2
  apply Kept.ite
  · with_reducible apply launchClass_kept
    with_reducible apply State.modEnd_kept
    exact hk
  · exact hk

theorem fromCurd_kept {a' : State} {g : Nat} {cls : Nat} {eseq : Nat} {payload : List Word} {s : State} (hk : Kept a' s) :
    Kept a' (fromCurd g cls eseq payload s) := by
  unfold fromCurd
  with_reducible apply sendMsg_kept
  with_reducible apply sendMsg_kept
  exact hk

theorem deliverSector_kept {a' : State} {g : Nat} {eseq : Nat} {index : Nat} {payload : List Byte} {s : State} (hk : Kept a' s) :
    Kept a' (deliverSector g eseq index payload s) := by
  unfold deliverSector
  lift_lets
  intro x0
  clear_value x0
  intro x1
  have h2 : Kept a' x1 := by
    subst x1
    with_reducible apply Kept.foldl
    · intro t3 y4 h5
      with_reducible apply fromCurd_kept
      exact h5
    · exact hk
  clear_value x1
  with_reducible apply fromCurd_kept
  exact h2

theorem takeMsg_kept {a' : State} {e : LinkEnd} {m : Msg} {s : State} (hk : Kept a' s) :
    Kept a' (takeMsg e m s) := by
  unfold takeMsg
  with_reducible apply State.modEnd_kept
  exact hk

theorem paWrite_kept {a' : State} {g : Nat} {addr : Nat} {val : Nat} {s : State} (hk : Kept a' s) :
    Kept a' (paWrite g addr val s) := by
  unfold paWrite
  lift_lets
  intro x0
  have h1 : Kept a' x0 := by
    subst x0
    with_reducible apply Kept.emit
    exact hk
  clear_value x0
  with_reducible apply modFmt_kept
  exact h1

theorem paSet_kept {a' : State} {g : Nat} {addr : Nat} {val : Nat} {s : State} (hk : Kept a' s) :
    Kept a' (paSet g addr val s) := by
  unfold paSet
  apply Kept.ite
  · exact hk
  · with_reducible apply paWrite_kept
    exact hk

theorem heater_kept {a' : State} {g : Nat} {write : Bool} {s : State} (hk : Kept a' s) :
    Kept a' (heater g write s) := by
  unfold heater
  split
  · rename_i z0 z1
    exact hk
  · rename_i z2 z3 z4
    with_reducible apply paSet_kept
    exact hk

theorem endIfDone_kept {a' : State} {g : Nat} {eseq : Nat} {s : State} (hk : Kept a' s) :
    Kept a' (endIfDone g eseq s) := by
  unfold endIfDone
  split
  · rename_i z0 z1
    exact hk
  · rename_i z2 z3 z4
    apply Kept.ite
    · lift_lets
      intro x5
      have h6 : Kept a' x5 := by
        subst x5
        with_reducible apply fromCurd_kept
        exact hk
      clear_value x5
      intro x7
      have h8 : Kept a' x7 := by
        subst x7
        with_reducible apply Kept.foldl
        · intro t9 y10 h11
          with_reducible apply takeMsg_kept
          exact h11
        · exact h6
      clear_value x7
      intro x12
      have h13 : Kept a' x12 := by
        subst x12
        with_reducible apply modFmt_kept
        exact h8
      clear_value x12
      intro x14
      have h15 : Kept a' x14 := by
        subst x14
        apply Kept.ite
        · with_reducible apply modFmt_kept
          with_reducible apply heater_kept
          exact h13
        · exact h13
      clear_value x14
      with_reducible apply showFmt_kept
      exact h15
    · exact hk

theorem report_kept {a' : State} {g : Nat} {eseq : Nat} {outcome : Nat} {rung : Nat} {revs : Nat} {pos : Nat} {track : Nat} {nbr : Bool} {s : State} (hk : Kept a' s) :
    Kept a' (report g eseq outcome rung revs pos track nbr s) := by
  unfold report
  with_reducible apply fromCurd_kept
  exact hk

theorem settleSec_kept {a' : State} {g : Nat} {eseq : Nat} {i : Nat} {outcome : Nat} {rung : Nat} {payload : Option (List Byte)} {s : State} (hk : Kept a' s) :
    Kept a' (settleSec g eseq i outcome rung payload s) := by
  unfold settleSec
  split
  · rename_i z0 z1
    exact hk
  · rename_i z2 z3 z4
    apply Kept.ite
    · exact hk
    · lift_lets
      intro x5
      clear_value x5
      intro x6
      have h7 : Kept a' x6 := by
        subst x6
        with_reducible apply unpin_kept
        exact hk
      clear_value x6
      intro x8
      have h9 : Kept a' x8 := by
        subst x8
        with_reducible apply modSec_kept
        exact h7
      clear_value x8
      intro x10
      have h11 : Kept a' x10 := by
        subst x10
        split
        · rename_i z12
          with_reducible apply State.incC_kept
          exact h9
        · rename_i z13
          with_reducible apply State.incC_kept
          exact h9
        · rename_i z14
          apply Kept.ite
          · exact h9
          · with_reducible apply State.wrC_kept
            with_reducible apply State.wrC_kept
            with_reducible apply State.wrC_kept
            with_reducible apply State.incC_kept
            exact h9
        · rename_i z15
          with_reducible apply State.incC_kept
          exact h9
        · rename_i z16 z17 z18 z19 z20
          exact h9
      clear_value x10
      intro x21
      have h22 : Kept a' x21 := by
        subst x21
        split
        · rename_i z23 z24
          apply Kept.ite
          · with_reducible apply deliverSector_kept
            exact h11
          · exact h11
        · rename_i z25
          exact h11
      clear_value x21
      split
      · rename_i z26 z27
        with_reducible apply endIfDone_kept
        with_reducible apply report_kept
        exact h22
      · rename_i z28 z29
        apply Kept.ite
        · with_reducible apply endIfDone_kept
          exact h22
        · with_reducible apply endIfDone_kept
          with_reducible apply report_kept
          with_reducible apply State.incC_kept
          exact h22
      · rename_i z30 z31
        with_reducible apply endIfDone_kept
        exact h22

theorem refuseRun_kept {a' : State} {g : Nat} {eseq : Nat} {p : Sec → Bool} {s : State} (hk : Kept a' s) :
    Kept a' (refuseRun g eseq p s) := by
  unfold refuseRun
  split
  · rename_i z0 z1
    exact hk
  · rename_i z2 z3 z4
    lift_lets
    intro x5
    have h6 : Kept a' x5 := by
      subst x5
      apply Kept.ite
      · with_reducible apply modFmt_kept
        exact hk
      · exact hk
    clear_value x5
    intro x7
    clear_value x7
    with_reducible apply Kept.foldl
    · intro t8 y9 h10
      split
      · rename_i z11 z12 z13
        apply Kept.ite
        · with_reducible apply settleSec_kept
          exact h10
        · exact h10
      · rename_i z14 z15
        exact h10
    · exact h6

theorem refuseAll_kept {a' : State} {g : Nat} {s : State} (hk : Kept a' s) :
    Kept a' (refuseAll g s) := by
  unfold refuseAll
  lift_lets
  intro x0
  have h1 : Kept a' x0 := by
    subst x0
    with_reducible apply modFmt_kept
    exact hk
  clear_value x0
  with_reducible apply showFmt_kept
  with_reducible apply Kept.foldl
  · intro t2 y3 h4
    with_reducible apply refuseRun_kept
    exact h4
  · exact h1

theorem dropPosted_kept {a' : State} {g : Nat} {p : GateEv → Bool} {s : State} (hk : Kept a' s) :
    Kept a' (dropPosted g p s) := by
  unfold dropPosted
  with_reducible apply modFmt_kept
  exact hk

theorem withdrawGate_kept {a' : State} {g : Nat} {shock : Bool} {s : State} (hk : Kept a' s) :
    Kept a' (withdrawGate g shock s) := by
  unfold withdrawGate
  split
  · rename_i z0 z1
    exact hk
  · rename_i z2 z3 z4
    apply Kept.ite
    · exact hk
    · lift_lets
      intro x5
      have h6 : Kept a' x5 := by
        subst x5
        with_reducible apply modFmt_kept
        exact hk
      clear_value x5
      split
      · rename_i z7 z8
        exact h6
      · rename_i z9 z10 z11 z12 z13
        lift_lets
        intro x14
        clear_value x14
        intro x15
        have h16 : Kept a' x15 := by
          subst x15
          with_reducible apply dropPosted_kept
          exact h6
        clear_value x15
        intro x17
        have h18 : Kept a' x17 := by
          subst x17
          with_reducible apply modSec_kept
          exact h16
        clear_value x17
        intro x19
        have h20 : Kept a' x19 := by
          subst x19
          apply Kept.ite
          · with_reducible apply settleSec_kept
            exact h18
          · exact h18
        clear_value x19
        with_reducible apply showFmt_kept
        exact h20

theorem clearWrok_kept {a' : State} {g : Nat} {s : State} (hk : Kept a' s) :
    Kept a' (clearWrok g s) := by
  unfold clearWrok
  apply Kept.ite
  · lift_lets
    intro x0
    have h1 : Kept a' x0 := by
      subst x0
      with_reducible apply State.wrC_kept
      exact hk
    clear_value x0
    with_reducible apply showFmt_kept
    with_reducible apply withdrawGate_kept
    apply Kept.ite
    · with_reducible apply State.incC_kept
      exact h1
    · exact h1
  · exact hk

theorem clearPermits_kept {a' : State} {g : Nat} {s : State} (hk : Kept a' s) :
    Kept a' (clearPermits g s) := by
  unfold clearPermits
  with_reducible apply clearWrok_kept
  with_reducible apply State.wrC_kept
  with_reducible apply modServo_kept
  exact hk

theorem setSv_kept {a' : State} {g : Nat} {st : Nat} {s : State} (hk : Kept a' s) :
    Kept a' (setSv g st s) := by
  unfold setSv
  with_reducible apply State.wrC_kept
  exact hk

theorem startSeek_kept {a' : State} {g : Nat} {track : Nat} {s : State} (hk : Kept a' s) :
    Kept a' (startSeek g track s) := by
  unfold startSeek
  lift_lets
  intro x0
  clear_value x0
  intro x1
  clear_value x1
  intro x2
  clear_value x2
  intro x3
  clear_value x3
  intro x4
  have h5 : Kept a' x4 := by
    subst x4
    with_reducible apply State.wrC_kept
    with_reducible apply clearPermits_kept
    exact hk
  clear_value x4
  with_reducible apply setSv_kept
  with_reducible apply modServo_kept
  exact h5

theorem startUnload_kept {a' : State} {g : Nat} {s : State} (hk : Kept a' s) :
    Kept a' (startUnload g s) := by
  unfold startUnload
  apply Kept.ite
  · lift_lets
    intro x0
    have h1 : Kept a' x0 := by
      subst x0
      with_reducible apply modServo_kept
      with_reducible apply refuseAll_kept
      with_reducible apply clearPermits_kept
      exact hk
    clear_value x0
    with_reducible apply setSv_kept
    with_reducible apply startSeek_kept
    exact h1
  · exact hk

theorem modBand_kept {a' : State} {sl : SlotNo} {f : Band → Band} {s : State} (hk : Kept a' s) :
    Kept a' (modBand sl f s) := by
  unfold modBand
  split
  · rename_i z0 z1 z2
    with_reducible apply modT_kept
    exact hk
  · rename_i z3 z4
    exact hk

theorem wearOut_kept {a' : State} {sl : SlotNo} {s : State} (hk : Kept a' s) :
    Kept a' (wearOut sl s) := by
  unfold wearOut
  apply Kept.ite
  · exact hk
  · lift_lets
    intro x0
    clear_value x0
    with_reducible apply modT_kept
    exact hk

theorem moveQuota_kept {a' : State} {v : Nat} {a : Nat} {b : Nat} {s : State} (hk : Kept a' s) :
    Kept a' (moveQuota v a b s) := by
  unfold moveQuota
  split
  · rename_i z0 z1
    exact hk
  · rename_i z2 z3 z4
    with_reducible apply modT_kept
    exact hk

theorem startReloc_kept {a' : State} {b : Band} {forced : Bool} {s : State} (hk : Kept a' s) :
    ∀ t, (startReloc b forced s) = some t → Kept a' t := by
  unfold startReloc
  intro t ht
  split at ht
  · exact absurd ht (by simp)
  · rw [Option.some.injEq] at ht
    subst ht
    exact journal_kept (modXlat_kept (modT_kept (Kept.ite hk (moveQuota_kept hk))))

theorem reassign_kept {a' : State} {sl : SlotNo} {o : Nat} {s : State} (hk : Kept a' s) :
    Kept a' (reassign sl o s).2 := by
  unfold reassign
  lift_lets
  intro x0
  clear_value x0
  intro x1
  have h2 : Kept a' x1 := by
    subst x1
    with_reducible apply wearOut_kept
    exact hk
  clear_value x1
  split
  · rename_i z3 z4 z5
    lift_lets
    intro x6
    have h7 : Kept a' x6 := by
      subst x6
      with_reducible apply modT_kept
      exact hk
    clear_value x6
    intro x8
    have h9 : Kept a' x8 := by
      subst x8
      apply Kept.ite
      · with_reducible apply raiseAll_kept
        exact h7
      · exact h7
    clear_value x8
    dsimp only
    with_reducible apply journal_kept
    exact h9
  · rename_i z10 z11
    split
    · rename_i z12 z13
      dsimp only
      exact hk
    · rename_i z14 z15 z16
      apply Kept.ite_snd
      · dsimp only
        exact h2
      · split
        · rename_i z17 z18 z19
          dsimp only
          with_reducible refine startReloc_kept ?_ _ z19
          exact h2
        · rename_i z20 z21
          dsimp only
          with_reducible apply journal_kept
          exact h2

theorem incAll_kept {a' : State} {f : Fld} {n : Nat} {s : State} (hk : Kept a' s) :
    Kept a' (incAll f n s) := by
  unfold incAll
  with_reducible apply inStep_kept
  · intro y0 t1 h2
    with_reducible apply State.incR_kept
    exact h2
  · exact hk

theorem endReloc_kept {a' : State} {r : Reloc} {s : State} (hk : Kept a' s) :
    Kept a' (endReloc r s) := by
  unfold endReloc
  lift_lets
  intro x0
  have h1 : Kept a' x0 := by
    subst x0
    with_reducible apply modXlat_kept
    exact hk
  clear_value x0
  split
  · rename_i z2 z3 z4
    with_reducible apply incAll_kept
    with_reducible apply journal_kept
    with_reducible apply modT_kept
    exact h1
  · rename_i z5 z6 z7 z8 z9 z10
    lift_lets
    intro x11
    clear_value x11
    intro x12
    have h13 : Kept a' x12 := by
      subst x12
      with_reducible apply modT_kept
      exact h1
    clear_value x12
    intro x14
    have h15 : Kept a' x14 := by
      subst x14
      with_reducible apply vacate_kept
      exact h13
    clear_value x14
    with_reducible apply incAll_kept
    with_reducible apply journal_kept
    exact h15
  · rename_i z16 z17 z18 z19 z20
    exact h1

theorem switchReloc_kept {a' : State} {g : Nat} {s : State} (hk : Kept a' s) :
    Kept a' (switchReloc g s) := by
  unfold switchReloc
  split
  · rename_i z0 z1
    exact hk
  · rename_i z2 z3 z4
    with_reducible apply endReloc_kept
    exact hk

theorem applyChange_kept {a' : State} {c : TableChange} {s : State} (hk : Kept a' s) :
    Kept a' (applyChange c s) := by
  unfold applyChange
  split
  · rename_i z0 z1 z2
    split
    · rename_i z3 z4 z5
      apply Kept.ite
      · exact hk
      · with_reducible apply journal_kept
        with_reducible apply modBand_kept
        exact hk
    · rename_i z6 z7
      exact hk
  · rename_i z8 z9 z10
    split
    · rename_i z11 z12 z13
      apply Kept.ite
      · with_reducible apply journal_kept
        with_reducible apply modBand_kept
        exact hk
      · exact hk
    · rename_i z14 z15
      exact hk
  · rename_i z16 z17 z18 z19
    split
    · rename_i z20 z21 z22
      with_reducible apply journal_kept
      with_reducible apply modBand_kept
      exact hk
    · rename_i z23 z24
      exact hk
  · rename_i z25 z26 z27 z28 z29
    with_reducible apply reassign_kept
    exact hk
  · rename_i z30 z31 z32 z33 z34 z35
    apply Kept.ite
    · with_reducible apply journal_kept
      with_reducible apply modT_kept
      exact hk
    · exact hk
  · rename_i z36 z37 z38 z39 z40 z41
    apply Kept.ite
    · with_reducible apply journal_kept
      with_reducible apply modT_kept
      exact hk
    · exact hk
  · rename_i z42 z43
    with_reducible apply switchReloc_kept
    exact hk
  · rename_i z44 z45 z46 z47
    split
    · rename_i z48 z49 z50
      apply Kept.ite
      · exact hk
      · with_reducible apply journal_kept
        with_reducible apply modBand_kept
        exact hk
    · rename_i z51 z52
      exact hk

theorem recordTrim_kept {a' : State} {uid : Nat} {s : State} (hk : Kept a' s) :
    Kept a' (recordTrim uid s) := by
  unfold recordTrim
  with_reducible apply Kept.foldl
  · intro t0 y1 h2
    with_reducible apply applyChange_kept
    exact h2
  · exact hk

theorem withdraw_kept {a' : State} {uid : Nat} {s : State} (hk : Kept a' s) :
    Kept a' (withdraw uid s) := by
  unfold withdraw
  lift_lets
  intro x0
  clear_value x0
  intro x1
  clear_value x1
  intro x2
  have h3 : Kept a' x2 := by
    subst x2
    with_reducible refine Kept.mk' rfl rfl rfl rfl rfl rfl rfl rfl rfl rfl ?_
    exact hk
  clear_value x2
  apply Kept.ite
  · exact h3
  · with_reducible apply journal_kept
    with_reducible apply modT_kept
    exact h3

theorem endVersions_kept {a' : State} {c : Cmd} {s : State} (hk : Kept a' s) :
    Kept a' (endVersions c s) := by
  unfold endVersions
  apply Kept.ite
  · with_reducible apply recordTrim_kept
    exact hk
  · with_reducible apply withdraw_kept
    exact hk

theorem recoverCmd_kept {a' : State} {c : Cmd} {info : Nat} {s : State} (hk : Kept a' s) :
    Kept a' (recoverCmd c info s) := by
  unfold recoverCmd
  apply Kept.ite
  · with_reducible apply complete_kept
    with_reducible apply endVersions_kept
    exact hk
  · with_reducible apply complete_kept
    with_reducible apply endVersions_kept
    exact hk

theorem pumpAll_kept {a' : State} {s : State} (hk : Kept a' s) :
    Kept a' (pumpAll s) := by
  unfold pumpAll
  with_reducible apply Kept.foldl
  · intro t0 y1 h2
    with_reducible apply pumpPort_kept
    exact h2
  · exact hk

theorem endWriteOut_kept {a' : State} {s : State} (hk : Kept a' s) :
    Kept a' (endWriteOut s) := by
  unfold endWriteOut
  lift_lets
  intro x0
  clear_value x0
  intro x1
  have h2 : Kept a' x1 := by
    subst x1
    with_reducible apply writeJournal_kept
    exact hk
  clear_value x1
  intro x3
  have h4 : Kept a' x3 := by
    subst x3
    apply Kept.ite
    · with_reducible refine Kept.mk' rfl rfl rfl rfl rfl rfl rfl rfl rfl rfl ?_
      exact h2
    · with_reducible apply raiseAll_kept
      exact h2
  clear_value x3
  intro x5
  have h6 : Kept a' x5 := by
    subst x5
    with_reducible apply onGroups_kept
    · intro y7 t8 h9
      with_reducible apply startUnload_kept
      exact h9
    · exact h4
  clear_value x5
  intro x10
  have h11 : Kept a' x10 := by
    subst x10
    with_reducible apply Kept.foldl
    · intro t12 y13 h14
      with_reducible apply recoverCmd_kept
      exact h14
    · exact h6
  clear_value x10
  intro x15
  clear_value x15
  with_reducible apply pumpAll_kept
  with_reducible refine Kept.mk' rfl rfl rfl rfl rfl rfl rfl rfl rfl rfl ?_
  exact h11

theorem wrRun_kept {a' : State} {die : Nat} {p1 : Nat} {p2 : List Nat} {p3 : State} (hk : Kept a' p3) :
    Kept a' (wrRun die p1 p2 p3) := by
  induction p2 generalizing p1 p3 with
  | nil => exact hk
  | cons w ws ih => exact ih (Kept.setWord hk)

theorem putLedgers_kept {a' : State} {d : RSlot} {l : List (List Nat)} {s : State} (hk : Kept a' s) :
    Kept a' (putLedgers d l s) := by
  unfold putLedgers
  lift_lets
  intro x0
  clear_value x0
  intro x1
  clear_value x1
  intro x2
  have h3 : Kept a' x2 := by
    subst x2
    with_reducible apply wrRun_kept
    exact hk
  clear_value x2
  with_reducible apply State.wrR_kept
  exact h3

theorem checkDie_kept {a' : State} {d : RSlot} {s : State} (hk : Kept a' s) :
    Kept a' (checkDie d s).2 := by
  unfold checkDie
  lift_lets
  intro x0
  clear_value x0
  intro x1
  clear_value x1
  intro x2
  have h3 : Kept a' x2 := by
    subst x2
    with_reducible apply putLedgers_kept
    exact hk
  clear_value x2
  intro x4
  have h5 : Kept a' x4 := by
    subst x4
    with_reducible apply State.incR_kept
    exact h3
  clear_value x4
  intro x6
  have h7 : Kept a' x6 := by
    subst x6
    apply Kept.ite
    · with_reducible apply State.wrR_kept
      exact h5
    · with_reducible apply State.wrR_kept
      with_reducible apply State.wrR_kept
      exact h5
  clear_value x6
  dsimp only
  with_reducible apply Kept.foldl
  · intro t8 y9 h10
    with_reducible apply raiseFull_kept
    exact h10
  · exact h7

theorem markOwn_kept {a' : State} {d : RSlot} {s : State} (hk : Kept a' s) :
    Kept a' (markOwn d s) := by
  unfold markOwn
  with_reducible apply Kept.modRind
  · intro y0 y1
    exact y1
  · exact hk

theorem tallyCheck_kept {a' : State} {s : State} (hk : Kept a' s) :
    Kept a' (tallyCheck s).2 := by
  unfold tallyCheck
  split
  · rename_i z0 z1 z2 z3
    lift_lets
    intro x4
    have h5 : Kept a' x4.2 := by
      subst x4
      with_reducible apply checkDie_kept
      exact hk
    clear_value x4
    intro x6
    have h7 : Kept a' x6.2 := by
      subst x6
      with_reducible apply checkDie_kept
      exact h5
    clear_value x6
    intro x8
    have h9 : Kept a' x8 := by
      subst x8
      exact h7
    clear_value x8
    dsimp only
    apply Kept.ite
    · exact h9
    · apply Kept.ite
      · with_reducible apply markOwn_kept
        exact h9
      · with_reducible apply markOwn_kept
        exact h9
  · rename_i z10 z11 z12
    with_reducible apply checkDie_kept
    exact hk
  · rename_i z13 z14 z15
    dsimp only
    exact hk

theorem tallySnapshot_kept {a' : State} {d : RSlot} {s : State} (hk : Kept a' s) :
    Kept a' (tallySnapshot d s) := by
  unfold tallySnapshot
  lift_lets
  intro x0
  clear_value x0
  intro x1
  have h2 : Kept a' x1 := by
    subst x1
    with_reducible apply putLedgers_kept
    exact hk
  clear_value x1
  intro x3
  have h4 : Kept a' x3 := by
    subst x3
    with_reducible apply Kept.modRind
    · intro y5 y6
      exact y6
    · exact h2
  clear_value x3
  intro x7
  clear_value x7
  with_reducible apply State.wrR_kept
  with_reducible apply State.wrR_kept
  exact h4

theorem onlyBrkdis_kept {a' : State} {s : State} (hk : Kept a' s) :
    Kept a' (onlyBrkdis s) := by
  unfold onlyBrkdis
  lift_lets
  intro x0
  clear_value x0
  with_reducible apply State.wrC_kept
  with_reducible apply Kept.keepRegs
  exact hk

theorem onlyFails_kept {a' : State} {d : RSlot} {s : State} (hk : Kept a' s) :
    Kept a' (onlyFails d s) := by
  unfold onlyFails
  lift_lets
  intro x0
  clear_value x0
  with_reducible apply State.wrR_kept
  with_reducible apply Kept.keepRegs
  exact hk

theorem State.bare_kept {a' : State} {s : State} (hk : Kept a' s) :
    Kept a' (State.bare s) := by
  exact ⟨hk.part, hk.pending, hk.now, fun _ => rfl, fun _ => rfl, fun _ => rfl, fun _ c hc => by
    simp only [State.bare, List.mem_cons, List.not_mem_nil, or_false, or_self] at hc; subst hc; rfl, fun _ => rfl, hk.fuses, hk.free, hk.out⟩

theorem coreReset_kept {a' : State} {s : State} (hk : Kept a' s) :
    Kept a' (coreReset s) := by
  unfold coreReset
  lift_lets
  intro keep k t x1 x2 t2 t3 t4
  have h1 : Kept a' k := onlyBrkdis_kept (onlyFails_kept (onlyFails_kept (Kept.keepRegs hk)))
  have h2 : Kept a' t2 := ⟨hk.part, hk.pending, hk.now, h1.regs, fun _ => rfl, fun _ => rfl, fun _ c hc => by
    obtain ⟨x, -, rfl⟩ := List.mem_map.mp hc
    rfl, fun w => by simpa [t2] using hk.six w, hk.fuses, hk.free, hk.out⟩
  have h3 : Kept a' t3 := State.wrR_kept (State.wrR_kept h2)
  have h4 : Kept a' t4 := Kept.ite (State.wrR_kept h3) h3
  exact Kept.ite (State.wrR_kept (State.wrR_kept h4)) h4

theorem setPhase_kept {a' : State} {d : RSlot} {p : Nat} {s : State} (hk : Kept a' s) :
    Kept a' (setPhase d p s) := by
  unfold setPhase
  with_reducible apply State.wrR_kept
  exact hk

theorem setPhases_kept {a' : State} {p : Nat} {s : State} (hk : Kept a' s) :
    Kept a' (setPhases p s) := by
  unfold setPhases
  with_reducible apply Kept.foldl
  · intro t0 y1 h2
    with_reducible apply setPhase_kept
    exact h2
  · exact hk

theorem restart_kept {a' : State} {s : State} (hk : Kept a' s) :
    Kept a' (restart s) := by
  unfold restart
  lift_lets
  intro x0
  clear_value x0
  intro x1
  have h2 : Kept a' x1 := by
    subst x1
    with_reducible apply coreReset_kept
    with_reducible refine Kept.mk' rfl rfl rfl rfl rfl rfl rfl rfl rfl rfl ?_
    exact hk
  clear_value x1
  with_reducible apply setPhases_kept
  exact h2

end Sys2Proof.Machine
end

