-- ==== Sys2Proof/Laws/KeptOps2.lean ====
section
/-! SUPPORT. What the operations keep (the relation of Laws/Kept.lean), one lemma each: Admin, BmemOps, CaveOps, CmdOps, CultOps, InStepOps, LadleOps, Ops, PortOps, Recovery, SectorOps, ServoOps, SpinOps, VatOps, XlatOps. -/

set_option linter.all false

namespace Sys2Proof.Machine

theorem finishReinit_kept {a' : State} {s : State} (hk : Kept a' s) :
    Kept a' (finishReinit s) := by
  unfold finishReinit
  lift_lets
  intro x0
  have h1 : Kept a' x0 := by
    subst x0
    with_reducible apply tallyCheck_kept
    exact hk
  clear_value x0
  intro x2
  have h3 : Kept a' x2 := by
    subst x2
    with_reducible apply Kept.foldl
    · intro t4 y5 h6
      lift_lets
      intro x7
      have h8 : Kept a' x7 := by
        subst x7
        with_reducible apply tallySnapshot_kept
        exact h6
      clear_value x7
      with_reducible apply stageRec_kept
      exact h8
    · exact h1
  clear_value x2
  with_reducible apply restart_kept
  exact h3

theorem advanceReinit_kept {a' : State} {s : State} (hk : Kept a' s) :
    Kept a' (advanceReinit s) := by
  unfold advanceReinit
  lift_lets
  intro x0
  have h1 : Kept a' x0 := by
    subst x0
    apply Kept.ite
    · with_reducible apply endWriteOut_kept
      exact hk
    · exact hk
  clear_value x0
  apply Kept.ite
  · with_reducible apply finishReinit_kept
    exact h1
  · exact h1

theorem modStep_kept {a' : State} {d : RSlot} {f : StepLogic → StepLogic} {s : State} (hk : Kept a' s) :
    Kept a' (modStep d f s) := by
  unfold modStep
  with_reducible apply Kept.modRind
  · intro y0 y1
    exact y1
  · exact hk

theorem nextDw_kept {a' : State} {d : RSlot} {dom : Nat} {s : State} (hk : Kept a' s) :
    Kept a' (nextDw d dom s).2 := by
  unfold nextDw
  lift_lets
  intro x0
  clear_value x0
  intro x1
  clear_value x1
  dsimp only
  with_reducible refine Kept.mk' rfl rfl rfl rfl rfl rfl rfl rfl rfl rfl ?_
  exact hk

theorem writeDieWord_kept {a' : State} {d : RSlot} {dom : Nat} {s : State} (hk : Kept a' s) :
    Kept a' (writeDieWord d dom s) := by
  unfold writeDieWord
  apply Kept.ite
  · lift_lets
    intro x0
    have h1 : Kept a' x0.2 := by
      subst x0
      with_reducible apply nextDw_kept
      exact hk
    clear_value x0
    with_reducible apply hostPut_kept
    exact h1
  · exact hk

theorem dieWordDue_kept {a' : State} {d : RSlot} {s : State} (hk : Kept a' s) :
    Kept a' (dieWordDue d s) := by
  unfold dieWordDue
  with_reducible apply Kept.foldl
  · intro t0 y1 h2
    with_reducible apply writeDieWord_kept
    exact h2
  · exact hk

theorem endResync_kept {a' : State} {s : State} (hk : Kept a' s) :
    Kept a' (endResync s) := by
  unfold endResync
  split
  · rename_i z0 z1
    exact hk
  · rename_i z2 z3 z4
    lift_lets
    intro x5
    clear_value x5
    intro x6
    have h7 : Kept a' x6 := by
      subst x6
      with_reducible apply State.wrR_kept
      exact hk
    clear_value x6
    intro x8
    have h9 : Kept a' x8 := by
      subst x8
      with_reducible apply Kept.foldl
      · intro t10 y11 h12
        with_reducible apply State.wrR_kept
        exact h12
      · exact h7
    clear_value x8
    intro x13
    clear_value x13
    intro x14
    have h15 : Kept a' x14 := by
      subst x14
      with_reducible apply modStep_kept
      exact h9
    clear_value x14
    with_reducible apply dieWordDue_kept
    apply Kept.ite
    · with_reducible apply raise_kept
      exact h15
    · exact h15

theorem noteDivergence_kept {a' : State} {cause : Nat} {target : RSlot} {s : State} (hk : Kept a' s) :
    Kept a' (noteDivergence cause target s) := by
  unfold noteDivergence
  lift_lets
  intro x0
  clear_value x0
  intro x1
  have h2 : Kept a' x1 := by
    subst x1
    with_reducible apply Kept.foldl
    · intro t3 y4 h5
      with_reducible apply State.wrR_kept
      with_reducible apply State.wrR_kept
      with_reducible apply State.wrR_kept
      with_reducible apply State.incR_kept
      exact h5
    · exact hk
  clear_value x1
  with_reducible apply inStep_kept
  · intro y6 t7 h8
    with_reducible apply raise_kept
    exact h8
  · exact h2

theorem dropHeld_kept {a' : State} {d : RSlot} {s : State} (hk : Kept a' s) :
    Kept a' (dropHeld d s) := by
  unfold dropHeld
  lift_lets
  intro x0
  have h1 : Kept a' x0 := by
    subst x0
    with_reducible apply Kept.modRind
    · intro y2 y3
      exact y3
    · exact hk
  clear_value x0
  with_reducible refine Kept.mk' rfl rfl rfl rfl rfl rfl rfl rfl rfl rfl ?_
  exact h1

theorem soleWriter_kept {a' : State} {d : RSlot} {dom : Nat} {s : State} (hk : Kept a' s) :
    Kept a' (soleWriter d dom s) := by
  unfold soleWriter
  apply Kept.ite
  · with_reducible apply Kept.modRind
    · intro y0 y1
      exact y1
    · exact hk
  · exact hk

theorem soleWriterAll_kept {a' : State} {d : RSlot} {s : State} (hk : Kept a' s) :
    Kept a' (soleWriterAll d s) := by
  unfold soleWriterAll
  with_reducible apply Kept.foldl
  · intro t0 y1 h2
    with_reducible apply soleWriter_kept
    exact h2
  · exact hk

theorem fenceDie_kept {a' : State} {d : RSlot} {s : State} (hk : Kept a' s) :
    Kept a' (fenceDie d s) := by
  unfold fenceDie
  apply Kept.ite
  · lift_lets
    intro x0
    have h1 : Kept a' x0 := by
      subst x0
      with_reducible apply State.incR_kept
      with_reducible apply State.wrR_kept
      with_reducible apply State.wrR_kept
      exact hk
    clear_value x0
    intro x2
    have h3 : Kept a' x2 := by
      subst x2
      with_reducible apply Kept.foldl
      · intro t4 y5 h6
        with_reducible apply State.wrR_kept
        exact h6
      · exact h1
    clear_value x2
    intro x7
    have h8 : Kept a' x7 := by
      subst x7
      with_reducible apply modStep_kept
      exact h3
    clear_value x7
    intro x9
    clear_value x9
    intro x10
    have h11 : Kept a' x10 := by
      subst x10
      with_reducible apply State.wrR_kept
      exact h8
    clear_value x10
    intro x12
    clear_value x12
    intro x13
    have h14 : Kept a' x13 := by
      subst x13
      apply Kept.ite
      · with_reducible refine Kept.mk' rfl rfl rfl rfl rfl rfl rfl rfl rfl rfl ?_
        exact h11
      · exact h11
    clear_value x13
    intro x15
    have h16 : Kept a' x15 := by
      subst x15
      apply Kept.ite
      · with_reducible apply State.wrR_kept
        with_reducible apply State.wrR_kept
        exact h14
      · exact h14
    clear_value x15
    intro x17
    have h18 : Kept a' x17 := by
      subst x17
      apply Kept.ite
      · with_reducible apply dropHeld_kept
        exact h16
      · with_reducible apply soleWriterAll_kept
        with_reducible apply dropHeld_kept
        exact h16
    clear_value x17
    with_reducible apply dieWordDue_kept
    with_reducible apply raise_kept
    exact h18
  · exact hk

theorem takeEseq_kept {a' : State} {d : RSlot} {s : State} (hk : Kept a' s) :
    Kept a' (takeEseq d s).2 := by
  unfold takeEseq
  dsimp only
  with_reducible apply Kept.modRind
  · intro y0 y1
    exact y1
  · exact hk

theorem toCurd_kept {a' : State} {d : RSlot} {g : Nat} {cls : Nat} {eseq : Nat} {payload : List Word} {s : State} (hk : Kept a' s) :
    Kept a' (toCurd d g cls eseq payload s) := by
  unfold toCurd
  with_reducible apply sendMsg_kept
  with_reducible apply digestAdd_kept
  exact hk

theorem ctrlTo_kept {a' : State} {d : RSlot} {g : Nat} {payload : List Word} {s : State} (hk : Kept a' s) :
    Kept a' (ctrlTo d g payload s) := by
  unfold ctrlTo
  lift_lets
  intro x0
  have h1 : Kept a' x0.2 := by
    subst x0
    with_reducible apply takeEseq_kept
    exact hk
  clear_value x0
  with_reducible apply toCurd_kept
  exact h1

theorem leaseTraffic_kept {a' : State} {d : RSlot} {op : Nat} {low : Nat} {epoch : Nat} {s : State} (hk : Kept a' s) :
    Kept a' (leaseTraffic d op low epoch s) := by
  unfold leaseTraffic
  lift_lets
  intro x0
  clear_value x0
  with_reducible apply Kept.foldl
  · intro t1 y2 h3
    apply Kept.ite
    · with_reducible apply ctrlTo_kept
      exact h3
    · with_reducible apply sendMsg_kept
      exact h3
  · exact hk

theorem releaseUnconfirmed_kept {a' : State} {d : RSlot} {s : State} (hk : Kept a' s) :
    Kept a' (releaseUnconfirmed d s) := by
  unfold releaseUnconfirmed
  lift_lets
  intro x0
  have h1 : Kept a' x0 := by
    subst x0
    with_reducible apply Kept.foldl
    · intro t2 y3 h4
      apply Kept.ite
      · with_reducible apply hostPut_kept
        exact h4
      · exact h4
    · exact hk
  clear_value x0
  with_reducible apply pumpAll_kept
  exact h1

theorem readLineOf_kept {a' : State} {d : RSlot} {p : Nat} {s : State} (hk : Kept a' s) :
    Kept a' (readLineOf d p s) := by
  unfold readLineOf
  split
  · rename_i z0 z1
    exact hk
  · rename_i z2 z3 z4
    with_reducible apply modPort_kept
    with_reducible apply Kept.emit
    exact hk

theorem rereadDoorbells_kept {a' : State} {d : RSlot} {s : State} (hk : Kept a' s) :
    Kept a' (rereadDoorbells d s) := by
  unfold rereadDoorbells
  with_reducible apply Kept.foldl
  · intro t0 y1 h2
    apply Kept.ite
    · with_reducible apply readLineOf_kept
      exact h2
    · exact h2
  · exact hk

theorem startTraining_kept {a' : State} {d : RSlot} {s : State} (hk : Kept a' s) :
    Kept a' (startTraining d s) := by
  unfold startTraining
  with_reducible apply State.wrR_kept
  exact hk

theorem resetForResync_kept {a' : State} {t : RSlot} {s : State} (hk : Kept a' s) :
    Kept a' (resetForResync t s) := by
  unfold resetForResync
  lift_lets
  intro x0
  clear_value x0
  intro x1
  have h2 : Kept a' x1 := by
    subst x1
    with_reducible apply Kept.keepRegs
    exact hk
  clear_value x1
  intro x3
  have h4 : Kept a' x3 := by
    subst x3
    with_reducible apply Kept.modRind
    · intro y5 y6
      exact y6
    · exact h2
  clear_value x3
  intro x7
  have h8 : Kept a' x7 := by
    subst x7
    with_reducible apply State.wrR_kept
    with_reducible apply State.wrR_kept
    exact h4
  clear_value x7
  apply Kept.ite
  · with_reducible apply startTraining_kept
    exact h8
  · exact h8

theorem startResync_kept {a' : State} {s : State} (hk : Kept a' s) :
    Kept a' (startResync s) := by
  unfold startResync
  split
  · rename_i z0 z1 z2 z3 z4 z5
    apply Kept.ite
    · lift_lets
      intro x6
      have h7 : Kept a' x6 := by
        subst x6
        with_reducible apply resetForResync_kept
        exact hk
      clear_value x6
      intro x8
      have h9 : Kept a' x8 := by
        subst x8
        with_reducible apply soleWriterAll_kept
        with_reducible apply State.wrR_kept
        exact h7
      clear_value x8
      intro x10
      have h11 : Kept a' x10 := by
        subst x10
        with_reducible apply Kept.foldl
        · intro t12 y13 h14
          with_reducible apply State.wrR_kept
          with_reducible apply State.wrR_kept
          exact h14
        · exact h9
      clear_value x10
      with_reducible apply dieWordDue_kept
      exact h11
    · exact hk
  · rename_i z15 z16 z17
    exact hk

theorem becomeSole_kept {a' : State} {d : RSlot} {s : State} (hk : Kept a' s) :
    Kept a' (becomeSole d s) := by
  unfold becomeSole
  lift_lets
  intro x0
  clear_value x0
  intro x1
  clear_value x1
  intro x2
  have h3 : Kept a' x2 := by
    subst x2
    with_reducible apply State.wrR_kept
    with_reducible apply State.wrR_kept
    with_reducible apply State.wrR_kept
    exact hk
  clear_value x2
  intro x4
  have h5 : Kept a' x4 := by
    subst x4
    with_reducible apply State.wrR_kept
    exact h3
  clear_value x4
  intro x6
  have h7 : Kept a' x6 := by
    subst x6
    with_reducible apply Kept.foldl
    · intro t8 y9 h10
      with_reducible apply State.wrR_kept
      exact h10
    · exact h5
  clear_value x6
  intro x11
  have h12 : Kept a' x11 := by
    subst x11
    with_reducible apply modStep_kept
    exact h7
  clear_value x11
  intro x13
  have h14 : Kept a' x13 := by
    subst x13
    with_reducible apply leaseTraffic_kept
    exact h12
  clear_value x13
  intro x15
  have h16 : Kept a' x15 := by
    subst x15
    with_reducible apply State.wrR_kept
    exact h14
  clear_value x15
  intro x17
  clear_value x17
  intro x18
  have h19 : Kept a' x18 := by
    subst x18
    apply Kept.ite
    · exact h14
    · with_reducible refine Kept.mk' rfl rfl rfl rfl rfl rfl rfl rfl rfl rfl ?_
      exact h16
  clear_value x18
  intro x20
  have h21 : Kept a' x20 := by
    subst x20
    with_reducible apply dieWordDue_kept
    with_reducible apply releaseUnconfirmed_kept
    exact h19
  clear_value x20
  intro x22
  have h23 : Kept a' x22 := by
    subst x22
    apply Kept.ite
    · with_reducible apply rereadDoorbells_kept
      exact h21
    · exact h21
  clear_value x22
  apply Kept.ite
  · with_reducible apply startResync_kept
    exact h23
  · exact h23

theorem dropDie_kept {a' : State} {target : RSlot} {s : State} (hk : Kept a' s) :
    Kept a' (dropDie target s) := by
  unfold dropDie
  lift_lets
  intro x0
  clear_value x0
  intro x1
  have h2 : Kept a' x1 := by
    subst x1
    with_reducible apply fenceDie_kept
    exact hk
  clear_value x1
  intro x3
  clear_value x3
  intro x4
  clear_value x4
  intro x5
  have h6 : Kept a' x5 := by
    subst x5
    with_reducible apply modStep_kept
    exact h2
  clear_value x5
  apply Kept.ite
  · with_reducible apply becomeSole_kept
    exact h2
  · with_reducible apply leaseTraffic_kept
    exact h6

theorem useRung_kept {a' : State} {d : RSlot} {r : Nat} {s : State} (hk : Kept a' s) :
    Kept a' (useRung d r s) := by
  unfold useRung
  with_reducible apply State.incR_kept
  exact hk

theorem diverge_kept {a' : State} {cause : Nat} {target : RSlot} {s : State} (hk : Kept a' s) :
    Kept a' (diverge cause target s) := by
  unfold diverge
  apply Kept.ite
  · apply Kept.ite
    · with_reducible apply endResync_kept
      with_reducible apply noteDivergence_kept
      exact hk
    · apply Kept.ite
      · with_reducible apply dropDie_kept
        with_reducible apply noteDivergence_kept
        with_reducible apply Kept.foldl
        · intro t0 y1 h2
          with_reducible apply useRung_kept
          exact h2
        · exact hk
      · exact hk
  · exact hk

theorem fenceForFatal_kept {a' : State} {d : RSlot} {s : State} (hk : Kept a' s) :
    Kept a' (fenceForFatal d s) := by
  unfold fenceForFatal
  with_reducible apply diverge_kept
  exact hk

theorem showPools_kept {a' : State} {d : RSlot} {s : State} (hk : Kept a' s) :
    Kept a' (showPools d s) := by
  unfold showPools
  with_reducible apply Kept.foldl
  · intro t0 y1 h2
    with_reducible apply State.wrR_kept
    with_reducible apply State.wrR_kept
    exact h2
  · exact hk

theorem modVat_kept {a' : State} {d : RSlot} {f : Vat → Vat} {s : State} (hk : Kept a' s) :
    Kept a' (modVat d f s) := by
  unfold modVat
  with_reducible apply Kept.modRind
  · intro y0 y1
    exact y1
  · exact hk

theorem resetVat_kept {a' : State} {d : RSlot} {s : State} (hk : Kept a' s) :
    Kept a' (resetVat d s) := by
  unfold resetVat
  lift_lets
  intro x0
  clear_value x0
  with_reducible apply showPools_kept
  with_reducible apply modVat_kept
  with_reducible apply State.incR_kept
  exact hk

theorem modEng_kept {a' : State} {e : Eng} {f : Engine → Engine} {s : State} (hk : Kept a' s) :
    Kept a' (modEng e f s) := by
  unfold modEng
  split
  · rename_i z0 z1 z2
    with_reducible apply Kept.modRind
    · intro y3 y4
      exact y4
    · exact hk
  · rename_i z5 z6
    with_reducible apply Kept.modCurd
    · intro y7 y8
      exact y8
    · exact hk

theorem postEvent_kept {a' : State} {e : Eng} {cls : Nat} {data : BitVec 64} {s : State} (hk : Kept a' s) :
    Kept a' (postEvent e cls data s) := by
  unfold postEvent
  apply Kept.ite
  · lift_lets
    intro x0
    clear_value x0
    intro x1
    have h2 : Kept a' x1 := by
      subst x1
      with_reducible apply modEng_kept
      exact hk
    clear_value x1
    with_reducible apply State.wr_kept
    exact h2
  · exact hk

theorem endWaits_kept {a' : State} {d : RSlot} {s : State} (hk : Kept a' s) :
    Kept a' (endWaits d s) := by
  unfold endWaits
  with_reducible apply resetVat_kept
  with_reducible apply Kept.foldl
  · intro t0 y1 h2
    split
    · rename_i z3 z4 z5
      with_reducible apply postEvent_kept
      exact h2
    · rename_i z6 z7
      exact h2
  · exact hk

theorem modCave_kept {a' : State} {d : RSlot} {f : Cave → Cave} {s : State} (hk : Kept a' s) :
    Kept a' (modCave d f s) := by
  unfold modCave
  with_reducible apply Kept.modRind
  · intro y0 y1
    exact y1
  · exact hk

theorem writeRow_kept {a' : State} {d : RSlot} {cw : Nat} {s : State} (hk : Kept a' s) :
    Kept a' (writeRow d cw s) := by
  unfold writeRow
  lift_lets
  intro x0
  clear_value x0
  with_reducible apply Kept.modBmem
  · intro y1 y2
    exact y2
  · exact hk

theorem writeCw_kept {a' : State} {d : RSlot} {cw : Nat} {data : List Byte} {s : State} (hk : Kept a' s) :
    Kept a' (writeCw d cw data s) := by
  unfold writeCw
  with_reducible apply writeRow_kept
  with_reducible apply Kept.modBmem
  · intro y0 y1
    exact Sparse.wf_putRun _ _ (by assumption)
  · exact hk

theorem uncorrectable_kept {a' : State} {d : RSlot} {cw : Nat} {s : State} (hk : Kept a' s) :
    Kept a' (uncorrectable d cw s) := by
  unfold uncorrectable
  lift_lets
  intro x0
  have h1 : Kept a' x0 := by
    subst x0
    with_reducible apply State.incR_kept
    exact hk
  clear_value x0
  intro x2
  have h3 : Kept a' x2 := by
    subst x2
    with_reducible apply State.wrR_kept
    with_reducible apply State.wrR_kept
    exact h1
  clear_value x2
  with_reducible apply raise_kept
  exact h3

theorem countDevice_kept {a' : State} {d : RSlot} {c : Nat} {k : Nat} {s : State} (hk : Kept a' s) :
    Kept a' (countDevice d c k s) := by
  unfold countDevice
  lift_lets
  intro x0
  clear_value x0
  intro x1
  have h2 : Kept a' x1 := by
    subst x1
    with_reducible apply Kept.modBmem
    · intro y3 y4
      exact y4
    · with_reducible apply State.incR_kept
      exact hk
  clear_value x1
  apply Kept.ite
  · apply Kept.ite
    · with_reducible apply raise_kept
      with_reducible apply State.wrR_kept
      exact h2
    · apply Kept.ite
      · exact h2
      · with_reducible apply raise_kept
        exact h2
  · exact h2

theorem corrected_kept {a' : State} {d : RSlot} {cw : Nat} {data : List Byte} {fix : List (Nat × Nat)} {s : State} (hk : Kept a' s) :
    Kept a' (corrected d cw data fix s) := by
  unfold corrected
  lift_lets
  intro x0
  have h1 : Kept a' x0 := by
    subst x0
    with_reducible apply State.incR_kept
    exact hk
  clear_value x0
  intro x2
  have h3 : Kept a' x2 := by
    subst x2
    with_reducible apply Kept.foldl
    · intro t4 y5 h6
      with_reducible apply countDevice_kept
      exact h6
    · exact h1
  clear_value x2
  with_reducible apply writeRow_kept
  with_reducible apply Kept.modBmem
  · intro y7 y8
    exact Sparse.wf_putRun _ _ (by assumption)
  · exact h3

theorem decodeCw_kept {a' : State} {d : RSlot} {cw : Nat} {syms : List Nat} {s : State} (hk : Kept a' s) :
    Kept a' (decodeCw d cw syms s).2.2 := by
  unfold decodeCw
  lift_lets
  intro x0
  clear_value x0
  apply Kept.ite_snd_snd
  · dsimp only
    with_reducible apply uncorrectable_kept
    exact hk
  · split
    · rename_i z1 z2
      dsimp only
      with_reducible apply uncorrectable_kept
      exact hk
    · rename_i z3 z4
      dsimp only
      exact hk
    · rename_i z5 z6 z7 z8
      lift_lets
      intro x9
      clear_value x9
      dsimp only
      with_reducible apply corrected_kept
      exact hk

theorem enterPoison_kept {a' : State} {d : RSlot} {cw : Nat} {s : State} (hk : Kept a' s) :
    Kept a' (enterPoison d cw s) := by
  unfold enterPoison
  lift_lets
  intro x0
  clear_value x0
  apply Kept.ite
  · exact hk
  · apply Kept.ite
    · with_reducible apply raise_kept
      exact hk
    · with_reducible apply Kept.modBmem
      · intro y1 y2
        exact y2
      · exact hk

theorem mergeOut_kept {a' : State} {d : RSlot} {e : MergeEntry} {s : State} (hk : Kept a' s) :
    Kept a' (mergeOut d e s) := by
  unfold mergeOut
  lift_lets
  intro x0
  have h1 : Kept a' x0 := by
    subst x0
    with_reducible apply Kept.modBmem
    · intro y2 y3
      exact y3
    · with_reducible apply State.incR_kept
      exact hk
  clear_value x0
  intro x4
  have h5 : Kept a' x4.2.2 := by
    subst x4
    with_reducible apply decodeCw_kept
    exact h1
  clear_value x4
  intro x6
  have h7 : Kept a' x6 := by
    subst x6
    with_reducible apply Kept.modBmem
    · intro y8 y9
      exact Sparse.wf_putRun _ _ (by assumption)
    · with_reducible apply writeRow_kept
      exact h5
  clear_value x6
  apply Kept.ite
  · with_reducible apply enterPoison_kept
    exact h7
  · exact h7

theorem mergeWrite_kept {a' : State} {d : RSlot} {cw : Nat} {bytes : List (Option Byte)} {s : State} (hk : Kept a' s) :
    Kept a' (mergeWrite d cw bytes s) := by
  unfold mergeWrite
  lift_lets
  intro x0
  clear_value x0
  intro x1
  clear_value x1
  intro x2
  clear_value x2
  intro x3
  have h4 : Kept a' x3 := by
    subst x3
    split
    · rename_i z5 z6 z7 z8
      apply Kept.ite
      · with_reducible apply mergeOut_kept
        exact hk
      · exact hk
    · rename_i z9 z10
      exact hk
  clear_value x3
  apply Kept.ite
  · with_reducible apply State.incR_kept
    with_reducible apply writeCw_kept
    with_reducible apply Kept.modBmem
    · intro y11 y12
      exact y12
    · exact hk
  · split
    · rename_i z13 z14
      with_reducible apply Kept.modBmem
      · intro y15 y16
        exact y16
      · exact hk
    · rename_i z17
      with_reducible apply Kept.modBmem
      · intro y18 y19
        exact y19
      · exact h4

theorem writeBytes_kept {a' : State} {d : RSlot} {cw : Nat} {bytes : List (Option Byte)} {s : State} (hk : Kept a' s) :
    Kept a' (writeBytes d cw bytes s) := by
  unfold writeBytes
  lift_lets
  intro x0
  have h1 : Kept a' x0 := by
    subst x0
    with_reducible apply Kept.modBmem
    · intro y2 y3
      exact y3
    · exact hk
  clear_value x0
  apply Kept.ite
  · with_reducible apply writeCw_kept
    with_reducible apply Kept.modBmem
    · intro y4 y5
      exact y5
    · exact h1
  · apply Kept.ite
    · with_reducible apply mergeWrite_kept
      exact h1
    · exact h1

theorem bmemWrite_kept {a' : State} {d : RSlot} {addr : Nat} {data : List Byte} {s : State} (hk : Kept a' s) :
    Kept a' (bmemWrite d addr data s) := by
  unfold bmemWrite
  lift_lets
  intro x0
  clear_value x0
  with_reducible apply Kept.foldl
  · intro t1 y2 h3
    lift_lets
    intro x4
    clear_value x4
    with_reducible apply writeBytes_kept
    exact h3
  · exact hk

theorem evictIssue_kept {a' : State} {d : RSlot} {e : Evicted} {s : State} (hk : Kept a' s) :
    Kept a' (evictIssue d e s) := by
  unfold evictIssue
  with_reducible apply bmemWrite_kept
  exact hk

theorem evictPush_kept {a' : State} {d : RSlot} {line : Nat} {data : List Byte} {s : State} (hk : Kept a' s) :
    Kept a' (evictPush d line data s) := by
  unfold evictPush
  lift_lets
  intro x0
  have h1 : Kept a' x0 := by
    subst x0
    with_reducible apply State.incR_kept
    exact hk
  clear_value x0
  intro x2
  have h3 : Kept a' x2 := by
    subst x2
    apply Kept.ite
    · split
      · rename_i z4 z5 z6 z7
        with_reducible apply modCave_kept
        apply Kept.ite
        · exact h1
        · with_reducible apply evictIssue_kept
          exact h1
      · rename_i z8 z9
        exact h1
    · exact hk
  clear_value x2
  with_reducible apply modCave_kept
  exact h3

theorem writeBack_kept {a' : State} {d : RSlot} {line : Nat} {l : CaveLine} {s : State} (hk : Kept a' s) :
    Kept a' (writeBack d line l s) := by
  unfold writeBack
  apply Kept.ite
  · with_reducible apply raise_kept
    exact hk
  · with_reducible apply evictPush_kept
    exact hk

theorem caveEnableNow_kept {a' : State} {d : RSlot} {s : State} (hk : Kept a' s) :
    Kept a' (caveEnableNow d s) := by
  unfold caveEnableNow
  with_reducible apply State.wrR_kept
  with_reducible apply State.wrR_kept
  exact hk

theorem resetCave_kept {a' : State} {d : RSlot} {s : State} (hk : Kept a' s) :
    Kept a' (resetCave d s) := by
  unfold resetCave
  lift_lets
  intro x0
  clear_value x0
  intro x1
  have h2 : Kept a' x1 := by
    subst x1
    with_reducible apply Kept.foldl
    · intro t3 y4 h5
      with_reducible apply writeBack_kept
      exact h5
    · exact hk
  clear_value x1
  intro x6
  have h7 : Kept a' x6 := by
    subst x6
    with_reducible apply Kept.foldl
    · intro t8 y9 h10
      apply Kept.ite
      · exact h10
      · with_reducible apply evictIssue_kept
        exact h10
    · exact h2
  clear_value x6
  with_reducible apply caveEnableNow_kept
  with_reducible apply modCave_kept
  with_reducible apply State.wrR_kept
  exact h7

theorem resetBmem_kept {a' : State} {d : RSlot} {s : State} (hk : Kept a' s) :
    Kept a' (resetBmem d s) := by
  unfold resetBmem
  with_reducible apply Kept.foldl
  · intro t0 y1 h2
    with_reducible apply mergeOut_kept
    exact h2
  · with_reducible apply Kept.modBmem
    · intro y3 y4
      exact y4
    · exact hk

theorem resetLadle_kept {a' : State} {d : RSlot} {s : State} (hk : Kept a' s) :
    Kept a' (resetLadle d s) := by
  unfold resetLadle
  lift_lets
  intro x0
  have h1 : Kept a' x0 := by
    subst x0
    with_reducible apply Kept.foldl
    · intro t2 y3 h4
      apply Kept.ite
      · with_reducible apply State.wrR_kept
        exact h4
      · apply Kept.ite
        · with_reducible apply State.wrR_kept
          exact h4
        · exact h4
    · exact hk
  clear_value x0
  with_reducible apply State.wrR_kept
  with_reducible apply Kept.modRind
  · intro y5 y6
    exact y6
  · exact h1

theorem traceRec_kept {a' : State} {e : Eng} {kind : Nat} {addr : Nat} {data : Nat} {s : State} (hk : Kept a' s) :
    Kept a' (traceRec e kind addr data s) := by
  unfold traceRec
  lift_lets
  intro x0
  clear_value x0
  intro x1
  clear_value x1
  intro x2
  clear_value x2
  intro x3
  clear_value x3
  intro x4
  clear_value x4
  intro x5
  clear_value x5
  intro x6
  have h7 : ∀ y0 y1 y2, Kept a' y2 → Kept a' (x6 y0 y1 y2) := by
    subst x6
    intro y8 y9 t10 h11
    beta_reduce
    with_reducible apply State.wr_kept
    exact h11
  clear_value x6
  intro x12
  have h13 : Kept a' x12 := by
    subst x12
    apply h7
    apply h7
    apply h7
    apply h7
    exact hk
  clear_value x12
  intro x14
  have h15 : Kept a' x14 := by
    subst x14
    apply Kept.ite
    · with_reducible apply State.wr_kept
      exact h13
    · exact h13
  clear_value x14
  apply Kept.ite
  · with_reducible apply State.wr_kept
    exact h15
  · exact hk

theorem commitAt_kept {a' : State} {e : Eng} {a : Nat} {s : State} (hk : Kept a' s) :
    Kept a' (commitAt e a s) := by
  unfold commitAt
  lift_lets
  intro x0
  have h1 : Kept a' x0 := by
    subst x0
    with_reducible apply modEng_kept
    exact hk
  clear_value x0
  with_reducible apply traceRec_kept
  with_reducible apply State.wr_kept
  exact h1

theorem setEngState_kept {a' : State} {e : Eng} {v : Nat} {s : State} (hk : Kept a' s) :
    Kept a' (setEngState e v s) := by
  unfold setEngState
  with_reducible apply State.wr_kept
  exact hk

theorem setPc_kept {a' : State} {e : Eng} {a : Nat} {s : State} (hk : Kept a' s) :
    Kept a' (setPc e a s) := by
  unfold setPc
  with_reducible apply State.wr_kept
  exact hk

theorem enterVector_kept {a' : State} {e : Eng} {k : Nat} {s : State} (hk : Kept a' s) :
    Kept a' (enterVector e k s) := by
  unfold enterVector
  lift_lets
  intro x0
  clear_value x0
  with_reducible apply commitAt_kept
  with_reducible apply setEngState_kept
  with_reducible apply setPc_kept
  with_reducible apply modEng_kept
  exact hk

theorem resetEngine_kept {a' : State} {e : Eng} {s : State} (hk : Kept a' s) :
    Kept a' (resetEngine e s) := by
  unfold resetEngine
  with_reducible apply enterVector_kept
  with_reducible apply modEng_kept
  exact hk

theorem recoverHeld_kept {a' : State} {held : List Nat} {s : State} (hk : Kept a' s) :
    Kept a' (recoverHeld held s) := by
  unfold recoverHeld
  with_reducible apply Kept.foldl
  · intro t0 y1 h2
    split
    · rename_i z3 z4 z5
      with_reducible apply raiseAll_kept
      with_reducible apply recoverCmd_kept
      exact h2
    · rename_i z6 z7
      exact h2
  · exact hk

theorem failSec_kept {a' : State} {g : Nat} {eseq : Nat} {i : Nat} {s : State} (hk : Kept a' s) :
    Kept a' (failSec g eseq i s) := by
  unfold failSec
  split
  · rename_i z0 z1
    exact hk
  · rename_i z2 z3 z4
    apply Kept.ite
    · lift_lets
      intro x5
      clear_value x5
      intro x6
      have h7 : Kept a' x6 := by
        subst x6
        with_reducible apply modSec_kept
        exact hk
      clear_value x6
      with_reducible apply modFmt_kept
      exact h7
    · with_reducible apply settleSec_kept
      exact hk

theorem setBias_kept {a' : State} {g : Nat} {step : Int} {s : State} (hk : Kept a' s) :
    Kept a' (setBias g step s) := by
  unfold setBias
  split
  · rename_i z0 z1
    exact hk
  · rename_i z2 z3 z4
    with_reducible apply Kept.foldl
    · intro t5 y6 h7
      with_reducible apply paSet_kept
      exact h7
    · exact hk

theorem advance_kept {a' : State} {g : Nat} {eseq : Nat} {i : Nat} {s : State} (hk : Kept a' s) :
    Kept a' (advance g eseq i s) := by
  unfold advance
  split
  · rename_i z0 z1
    exact hk
  · rename_i z2 z3 z4
    split
    · rename_i z5 z6
      with_reducible apply failSec_kept
      exact hk
    · rename_i z7 z8 z9
      lift_lets
      intro x10
      have h11 : Kept a' x10 := by
        subst x10
        apply Kept.ite
        · with_reducible apply setBias_kept
          exact hk
        · apply Kept.ite
          · with_reducible apply setBias_kept
            exact hk
          · exact hk
      clear_value x10
      with_reducible apply modSec_kept
      exact h11

theorem beginLadder_kept {a' : State} {g : Nat} {eseq : Nat} {i : Nat} {s : State} (hk : Kept a' s) :
    Kept a' (beginLadder g eseq i s) := by
  unfold beginLadder
  with_reducible apply modSec_kept
  exact hk

theorem resetChannel_kept {a' : State} {g : Nat} {s : State} (hk : Kept a' s) :
    Kept a' (resetChannel g s) := by
  unfold resetChannel
  lift_lets
  intro x0
  have h1 : Kept a' x0 := by
    subst x0
    with_reducible apply showVault_kept
    with_reducible apply modFmt_kept
    exact hk
  clear_value x0
  with_reducible apply Kept.foldl
  · intro t2 y3 h4
    with_reducible apply advance_kept
    with_reducible apply modSec_kept
    with_reducible apply beginLadder_kept
    exact h4
  · exact h1

theorem resetFormatter_kept {a' : State} {g : Nat} {s : State} (hk : Kept a' s) :
    Kept a' (resetFormatter g s) := by
  unfold resetFormatter
  with_reducible apply resetEngine_kept
  with_reducible apply refuseAll_kept
  exact hk

theorem resetPress_kept {a' : State} {g : Nat} {s : State} (hk : Kept a' s) :
    Kept a' (resetPress g s) := by
  unfold resetPress
  with_reducible apply modServo_kept
  with_reducible apply State.incC_kept
  exact hk

theorem spinReport_kept {a' : State} {s : State} (hk : Kept a' s) :
    Kept a' (spinReport s) := by
  unfold spinReport
  lift_lets
  intro x0
  clear_value x0
  intro x1
  clear_value x1
  intro x2
  clear_value x2
  intro x3
  clear_value x3
  intro x4
  clear_value x4
  with_reducible apply fromCurd_kept
  exact hk

theorem setSp_kept {a' : State} {st : Nat} {s : State} (hk : Kept a' s) :
    Kept a' (setSp st s) := by
  unfold setSp
  apply Kept.ite
  · exact hk
  · with_reducible apply spinReport_kept
    with_reducible apply State.wrC_kept
    exact hk

theorem modSpin_kept {a' : State} {f : Spin → Spin} {s : State} (hk : Kept a' s) :
    Kept a' (modSpin f s) := by
  unfold modSpin
  with_reducible refine Kept.mk' rfl rfl rfl rfl rfl rfl rfl rfl rfl rfl ?_
  exact hk

theorem coast_kept {a' : State} {s : State} (hk : Kept a' s) :
    Kept a' (coast s) := by
  unfold coast
  with_reducible apply setSp_kept
  with_reducible apply modSpin_kept
  exact hk

theorem loseBridge_kept {a' : State} {s : State} (hk : Kept a' s) :
    Kept a' (loseBridge s) := by
  unfold loseBridge
  with_reducible apply coast_kept
  with_reducible apply modSpin_kept
  exact hk

theorem resetSpindle_kept {a' : State} {s : State} (hk : Kept a' s) :
    Kept a' (resetSpindle s) := by
  unfold resetSpindle
  apply Kept.ite
  · with_reducible apply loseBridge_kept
    exact hk
  · exact hk

theorem resetUnit_kept {a' : State} {d : RSlot} {u : RUnit} {s : State} (hk : Kept a' s) :
    Kept a' (resetUnit d u s) := by
  unfold resetUnit
  split
  · rename_i z0
    with_reducible apply pumpAll_kept
    with_reducible apply rereadDoorbells_kept
    exact hk
  · rename_i z1
    with_reducible refine Kept.mk' rfl rfl rfl rfl rfl rfl rfl rfl rfl rfl ?_
    exact hk
  · rename_i z2
    with_reducible apply writeJournal_kept
    exact hk
  · rename_i z3
    with_reducible apply endWaits_kept
    exact hk
  · rename_i z4
    with_reducible apply resetCave_kept
    exact hk
  · rename_i z5
    with_reducible apply resetBmem_kept
    exact hk
  · rename_i z6
    with_reducible apply resetLadle_kept
    exact hk
  · rename_i z7 z8
    with_reducible apply resetEngine_kept
    with_reducible apply recoverHeld_kept
    exact hk
  · rename_i z9
    exact hk
  · rename_i z10 z11
    with_reducible apply resetChannel_kept
    exact hk
  · rename_i z12 z13
    with_reducible apply resetFormatter_kept
    exact hk
  · rename_i z14 z15
    with_reducible apply resetPress_kept
    exact hk
  · rename_i z16
    with_reducible apply resetSpindle_kept
    exact hk

theorem loadRindStore_kept {a' : State} {d : RSlot} {img : SlotImage} {s : State} (hk : Kept a' s) :
    Kept a' (loadRindStore d img s) := by
  unfold loadRindStore
  with_reducible apply State.wrR_kept
  with_reducible apply Kept.modRind
  · intro y0 y1
    exact y1
  · exact hk

theorem reloadStore_kept {a' : State} {d : RSlot} {s : State} (hk : Kept a' s) :
    Kept a' (reloadStore d s) := by
  unfold reloadStore
  apply Kept.ite
  · split
    · rename_i z0 z1 z2
      with_reducible apply loadRindStore_kept
      exact hk
    · rename_i z3 z4
      exact hk
  · exact hk

theorem releaseFlash_kept {a' : State} {s : State} (hk : Kept a' s) :
    Kept a' (releaseFlash s) := by
  unfold releaseFlash
  with_reducible refine Kept.mk' rfl rfl rfl rfl rfl rfl rfl rfl rfl rfl ?_
  exact hk

theorem wrBoth_kept {a' : State} {f : Fld} {v : Nat} {s : State} (hk : Kept a' s) :
    Kept a' (wrBoth f v s) := by
  unfold wrBoth
  with_reducible apply Kept.foldl
  · intro t0 y1 h2
    with_reducible apply State.wrR_kept
    exact h2
  · exact hk

theorem setRegEn_kept {a' : State} {on : Bool} {s : State} (hk : Kept a' s) :
    Kept a' (setRegEn on s) := by
  unfold setRegEn
  with_reducible apply wrBoth_kept
  with_reducible refine Kept.mk' rfl rfl rfl rfl rfl rfl rfl rfl rfl rfl ?_
  exact hk

theorem beginReinit_kept {a' : State} {s : State} (hk : Kept a' s) :
    Kept a' (beginReinit s) := by
  have h6 : ∀ t d, Kept a' t → Kept a' (useRung d 6 (raise d 0x0C3 [] t)) := fun t d h => useRung_kept (raise_kept h)
  have h4 : ∀ t d, Kept a' t → Kept a' (rindUnits.foldl (fun t u => resetUnit d u (raise d 0x0C2 [unitNo u] t)) (reloadStore d t)) :=
    fun t d h => Kept.foldl (fun t u h => resetUnit_kept (raise_kept h)) (reloadStore_kept h)
  have h0 : Kept a' { s with boot := { s.boot with restarting := true } } := Kept.upd (s := s) rfl rfl rfl rfl rfl rfl rfl rfl rfl rfl hk
  have h1 : Kept a' (endResync { s with boot := { s.boot with restarting := true, reinit := some .writeOut }, mediaClean := false }) :=
    endResync_kept (Kept.upd (s := s) rfl rfl rfl rfl rfl rfl rfl rfl rfl rfl hk)
  have h2 := Kept.foldl (l := State.serving (endResync { s with boot := { s.boot with restarting := true, reinit := some .writeOut }, mediaClean := false })) h6 h1
  have h3 := Kept.foldl (l := State.rinds { s with boot := { s.boot with restarting := true } }) h6 h0
  exact Kept.ite (Kept.ite hk (tallyCheck_kept (Kept.foldl h4 h2))) (Kept.ite (Kept.ite (setPhases_kept (releaseFlash_kept (setRegEn_kept (coreReset_kept (tallyCheck_kept h3)))))
    (restart_kept (tallyCheck_kept h3))) hk)

theorem setRetN_kept {a' : State} {g : Nat} {high : Bool} {s : State} (hk : Kept a' s) :
    Kept a' (setRetN g high s) := by
  unfold setRetN
  with_reducible apply State.wrC_kept
  with_reducible apply Kept.modCurd
  · intro y0 y1
    exact y1
  · exact hk

theorem leaveMedia_kept {a' : State} {g : Nat} {s : State} (hk : Kept a' s) :
    Kept a' (leaveMedia g s) := by
  unfold leaveMedia
  lift_lets
  intro x0
  have h1 : Kept a' x0 := by
    subst x0
    with_reducible apply State.wrC_kept
    with_reducible apply clearPermits_kept
    exact hk
  clear_value x0
  intro x2
  have h3 : Kept a' x2 := by
    subst x2
    with_reducible apply modServo_kept
    exact h1
  clear_value x2
  with_reducible apply refuseAll_kept
  exact h3

theorem emergencyRetract_kept {a' : State} {g : Nat} {s : State} (hk : Kept a' s) :
    Kept a' (emergencyRetract g s) := by
  unfold emergencyRetract
  apply Kept.ite
  · lift_lets
    intro x0
    have h1 : Kept a' x0 := by
      subst x0
      with_reducible apply setRetN_kept
      with_reducible apply leaveMedia_kept
      with_reducible apply State.incC_kept
      exact hk
    clear_value x0
    with_reducible apply setSv_kept
    with_reducible apply modServo_kept
    exact h1
  · exact hk

theorem gatesOff_kept {a' : State} {s : State} (hk : Kept a' s) :
    Kept a' (gatesOff s) := by
  unfold gatesOff
  lift_lets
  intro x0
  have h1 : Kept a' x0 := by
    subst x0
    with_reducible apply modSpin_kept
    exact hk
  clear_value x0
  apply Kept.ite
  · exact h1
  · with_reducible apply coast_kept
    exact h1

theorem loadCurdStore_kept {a' : State} {g : Nat} {img : SlotImage} {s : State} (hk : Kept a' s) :
    Kept a' (loadCurdStore g img s) := by
  unfold loadCurdStore
  lift_lets
  intro x0
  have h1 : Kept a' x0 := by
    subst x0
    with_reducible apply State.wrC_kept
    with_reducible apply Kept.modCurd
    · intro y2 y3
      exact rfl
    · exact hk
  clear_value x0
  with_reducible apply enterVector_kept
  exact h1

theorem reloadCurd_kept {a' : State} {g : Nat} {s : State} (hk : Kept a' s) :
    Kept a' (reloadCurd g s) := by
  unfold reloadCurd
  split
  · rename_i z0 z1 z2
    with_reducible apply loadCurdStore_kept
    exact hk
  · rename_i z3 z4
    exact hk

theorem groupOffline_kept {a' : State} {g : Nat} {s : State} (hk : Kept a' s) :
    Kept a' (groupOffline g s) := by
  unfold groupOffline
  apply Kept.ite
  · exact hk
  · with_reducible apply modXlat_kept
    exact hk

theorem fatalCurdAct_kept {a' : State} {g : Nat} {s : State} (hk : Kept a' s) :
    Kept a' (fatalCurdAct g s) := by
  unfold fatalCurdAct
  lift_lets
  intro x0
  clear_value x0
  intro x1
  have h2 : Kept a' x1 := by
    subst x1
    with_reducible apply emergencyRetract_kept
    with_reducible apply Kept.modCurd
    · intro y3 y4
      exact y4
    · exact hk
  clear_value x1
  intro x5
  have h6 : Kept a' x5 := by
    subst x5
    apply Kept.ite
    · with_reducible apply gatesOff_kept
      exact h2
    · exact h2
  clear_value x5
  intro x7
  have h8 : Kept a' x7 := by
    subst x7
    with_reducible apply resetPress_kept
    with_reducible apply resetChannel_kept
    with_reducible apply resetFormatter_kept
    exact h6
  clear_value x7
  intro x9
  have h10 : Kept a' x9 := by
    subst x9
    with_reducible apply reloadCurd_kept
    apply Kept.ite
    · with_reducible apply resetSpindle_kept
      exact h8
    · exact h8
  clear_value x9
  intro x11
  have h12 : Kept a' x11 := by
    subst x11
    with_reducible apply raiseAll_kept
    exact h10
  clear_value x11
  intro x13
  have h14 : Kept a' x13 := by
    subst x13
    with_reducible apply Kept.foldl
    · intro t15 y16 h17
      with_reducible apply useRung_kept
      exact h17
    · exact h12
  clear_value x13
  intro x18
  have h19 : Kept a' x18 := by
    subst x18
    with_reducible apply tallyCheck_kept
    exact h14
  clear_value x18
  intro x20
  have h21 : Kept a' x20 := by
    subst x20
    with_reducible apply groupOffline_kept
    exact h19
  clear_value x20
  apply Kept.ite
  · apply Kept.ite
    · with_reducible refine Kept.mk' rfl rfl rfl rfl rfl rfl rfl rfl rfl rfl ?_
      exact h21
    · exact h21
  · exact h19

theorem noteReset_kept {a' : State} {u : RUnit} {s : State} (hk : Kept a' s) :
    Kept a' (noteReset u s) := by
  unfold noteReset
  with_reducible apply tallyCheck_kept
  with_reducible apply Kept.foldl
  · intro t0 y1 h2
    with_reducible apply useRung_kept
    with_reducible apply raise_kept
    exact h2
  · exact hk

theorem functionReset_kept {a' : State} {d : RSlot} {u : RUnit} {s : State} (hk : Kept a' s) :
    Kept a' (functionReset d u s) := by
  unfold functionReset
  with_reducible apply tallyCheck_kept
  with_reducible apply resetUnit_kept
  with_reducible apply useRung_kept
  with_reducible apply raise_kept
  exact hk

theorem nameUnit_kept {a' : State} {d : RSlot} {u : RUnit} {s : State} (hk : Kept a' s) :
    Kept a' (nameUnit d u s) := by
  unfold nameUnit
  lift_lets
  intro x0
  clear_value x0
  intro x1
  have h2 : ∀ y0 y1, Kept a' y1 → Kept a' (x1 y0 y1) := by
    subst x1
    intro y3 t4 h5
    beta_reduce
    with_reducible apply Kept.modRind
    · intro y6 y7
      exact y7
    · exact h5
  clear_value x1
  intro x8
  have h9 : Kept a' x8 := by
    subst x8
    apply h2
    exact hk
  clear_value x8
  apply Kept.ite
  · with_reducible refine Kept.mk' rfl rfl rfl rfl rfl rfl rfl rfl rfl rfl ?_
    exact h9
  · apply Kept.ite
    · with_reducible apply functionReset_kept
      apply h2
      exact hk
    · apply h2
      exact hk

theorem routineStopped_kept {a' : State} {d : RSlot} {e : Nat} {unit : Option RUnit} {held : List Nat} {s : State} (hk : Kept a' s) :
    Kept a' (routineStopped d e unit held s) := by
  unfold routineStopped
  lift_lets
  intro x0
  have h1 : Kept a' x0 := by
    subst x0
    with_reducible apply recoverHeld_kept
    with_reducible apply useRung_kept
    exact hk
  clear_value x0
  intro x2
  have h3 : Kept a' x2 := by
    subst x2
    split
    · rename_i z4 z5
      with_reducible apply nameUnit_kept
      exact h1
    · rename_i z6
      exact h1
  clear_value x2
  apply Kept.ite
  · with_reducible apply functionReset_kept
    exact h3
  · exact h3

theorem act_kept {a' : State} {x : Todo} {s : State} (hk : Kept a' s) :
    Kept a' (act x s) := by
  unfold act
  split
  · rename_i z0 z1
    apply Kept.ite
    · exact hk
    · apply Kept.ite
      · with_reducible apply fenceForFatal_kept
        exact hk
      · with_reducible apply beginReinit_kept
        exact hk
  · rename_i z2
    with_reducible apply beginReinit_kept
    exact hk
  · rename_i z3 z4
    with_reducible apply fatalCurdAct_kept
    exact hk
  · rename_i z5 z6
    with_reducible apply noteReset_kept
    exact hk
  · rename_i z7 z8 z9 z10 z11
    with_reducible apply routineStopped_kept
    exact hk

theorem actAll_kept {a' : State} {p0 : Nat} {p1 : State} (hk : Kept a' p1) :
    Kept a' (actAll p0 p1) := by
  induction p0 generalizing p1 with
  | zero => exact hk
  | succ n ih =>
    unfold actAll
    split
    · exact hk
    · exact ih (act_kept (Kept.mk' rfl rfl rfl rfl rfl rfl rfl rfl rfl rfl hk))

theorem settle_kept {a' : State} {s : State} (hk : Kept a' s) :
    Kept a' (settle s) := by
  unfold settle
  lift_lets
  intro x0
  have h1 : Kept a' x0 := by
    subst x0
    with_reducible apply payLcws_kept
    with_reducible apply endSingleDie_kept
    with_reducible apply advanceReinit_kept
    with_reducible apply actAll_kept
    exact hk
  clear_value x0
  with_reducible refine Kept.mk' rfl rfl rfl rfl rfl rfl rfl rfl rfl rfl ?_
  exact h1

theorem admitWith_kept {a' : State} {p : Nat} {ops : Nat → Bool} {f : Cmd → State → State} {s : State} (hf : ∀ y0 t, Kept a' t → Kept a' (f y0 t)) (hk : Kept a' s) :
    Kept a' (admitWith p ops f s) := by
  unfold admitWith
  split
  · rename_i z0 z1
    exact hk
  · rename_i z2 z3 z4
    apply Kept.ite
    · exact hk
    · split
      · rename_i z5 z6 z7 z8
        with_reducible apply complete_kept
        exact hk
      · rename_i z9 z10
        split
        · rename_i z11 z12 z13 z14
          with_reducible apply complete_kept
          exact hk
        · rename_i z15 z16
          with_reducible apply showSched_kept
          with_reducible apply showPort_kept
          apply hf
          exact hk

theorem admitIf_kept {a' : State} {p : Nat} {sel : Cmd → Bool} {f : Cmd → State → State} {s : State} (hf : ∀ y0 t, Kept a' t → Kept a' (f y0 t)) (hk : Kept a' s) :
    Kept a' (admitIf p sel f s) := by
  unfold admitIf
  split
  · rename_i z0 z1 z2
    apply Kept.ite
    · with_reducible apply settle_kept
      with_reducible apply admitWith_kept
      · intro y3 t4 h5
        apply hf
        exact h5
      · exact hk
    · exact hk
  · rename_i z6 z7
    exact hk

theorem modCmd_kept {a' : State} {uid : Nat} {f : Cmd → Cmd} {s : State} (hk : Kept a' s) :
    Kept a' (modCmd uid f s) := by
  unfold modCmd
  with_reducible refine Kept.mk' rfl rfl rfl rfl rfl rfl rfl rfl rfl rfl ?_
  exact hk

theorem admitCmd_kept {a' : State} {c : Cmd} {s : State} (hk : Kept a' s) :
    Kept a' (admitCmd c s) := by
  unfold admitCmd
  with_reducible apply modCmd_kept
  with_reducible refine Kept.mk' rfl rfl rfl rfl rfl rfl rfl rfl rfl rfl ?_
  exact hk

theorem finishAt_kept {a' : State} {c : Cmd} {status : Nat} {info : Nat} {s : State} (hk : Kept a' s) :
    Kept a' (finishAt c status info s) := by
  unfold finishAt
  with_reducible apply complete_kept
  with_reducible apply admitCmd_kept
  exact hk

theorem hostSend_kept {a' : State} {d : RSlot} {dom : Nat} {addr : Nat} {data : List Byte} {s : State} (hk : Kept a' s) :
    Kept a' (hostSend d dom addr data s) := by
  unfold hostSend
  split
  · rename_i z0 z1
    with_reducible apply Kept.modRind
    · intro y2 y3
      exact y3
    · exact hk
  · rename_i z4 z5 z6
    with_reducible apply Kept.emit
    exact hk

end Sys2Proof.Machine
end

