-- ==== Sys2Proof/Laws/KeptOps3.lean ====
section
/-! SUPPORT. What the operations keep (the relation of Laws/Kept.lean), one lemma each: Admin, BmemOps, Boot, Budget, BudgetOps, Cave, CaveOps, CmdOps, CultOps, FlashOps, LadleOps, PortOps, Recovery, SectorOps, SpinOps, VatOps, XlatOps. -/

set_option linter.all false

namespace Sys2Proof.Machine

theorem hostWrite_kept {a' : State} {d : RSlot} {uid : Option Nat} {dom : Nat} {addr : Nat} {data : List Byte} {s : State} (hk : Kept a' s) :
    Kept a' (hostWrite d uid dom addr data s) := by
  unfold hostWrite
  lift_lets
  intro x0
  have h1 : Kept a' x0 := by
    subst x0
    with_reducible apply digestAdd_kept
    exact hk
  clear_value x0
  intro x2
  have h3 : Kept a' x2 := by
    subst x2
    apply Kept.ite
    · exact h1
    · with_reducible apply hostSend_kept
      exact h1
  clear_value x2
  split
  · rename_i z4 z5
    apply Kept.ite
    · with_reducible refine Kept.mk' rfl rfl rfl rfl rfl rfl rfl rfl rfl rfl ?_
      exact h3
    · exact h3
  · rename_i z6
    exact h3

theorem toHost_kept {a' : State} {c : Cmd} {addr : Nat} {data : List Byte} {s : State} (hk : Kept a' s) :
    Kept a' (toHost c addr data s) := by
  unfold toHost
  with_reducible apply inStep_kept
  · intro y0 t1 h2
    with_reducible apply hostWrite_kept
    exact h2
  · exact hk

theorem applyVals_kept {a' : State} {vals : List (Fld × Nat)} {s : State} (hk : Kept a' s) :
    Kept a' (applyVals vals s) := by
  unfold applyVals
  with_reducible apply inStep_kept
  · intro y0 t1 h2
    lift_lets
    intro x3
    have h4 : Kept a' x3 := by
      subst x3
      with_reducible apply Kept.foldl
      · intro t5 y6 h7
        with_reducible apply State.wrR_kept
        exact h7
      · exact h2
    clear_value x3
    with_reducible apply Kept.foldl
    · intro t8 y9 h10
      lift_lets
      intro x11
      clear_value x11
      intro x12
      clear_value x12
      apply Kept.ite
      · with_reducible apply State.wrR_kept
        exact h10
      · exact h10
    · exact h4
  · exact hk

theorem startOp_kept {a' : State} {op : FlashOp} {s : State} (hk : Kept a' s) :
    Kept a' (startOp op s) := by
  unfold startOp
  with_reducible apply Kept.emit
  with_reducible refine Kept.mk' rfl rfl rfl rfl rfl rfl rfl rfl rfl rfl ?_
  exact hk

theorem saveRecords_kept {a' : State} {c : Cmd} {records : List SetRec} {apply : List (Fld × Nat)} {s : State} (hk : Kept a' s) :
    Kept a' (saveRecords c records apply s) := by
  unfold saveRecords
  lift_lets
  intro x0
  clear_value x0
  intro x1
  clear_value x1
  intro x2
  clear_value x2
  intro x3
  clear_value x3
  intro x4
  have h5 : Kept a' x4 := by
    subst x4
    with_reducible apply modCmd_kept
    exact hk
  clear_value x4
  with_reducible apply startOp_kept
  with_reducible refine Kept.mk' rfl rfl rfl rfl rfl rfl rfl rfl rfl rfl ?_
  exact h5

theorem setFields_kept {a' : State} {c : Cmd} {s : State} (hk : Kept a' s) :
    Kept a' (setFields c s) := by
  unfold setFields
  lift_lets
  intro x0
  clear_value x0
  intro x1
  clear_value x1
  intro x2
  clear_value x2
  intro x3
  clear_value x3
  intro x4
  clear_value x4
  apply Kept.ite
  · with_reducible apply finishAt_kept
    with_reducible apply applyVals_kept
    exact hk
  · split
    · rename_i z5 z6 z7
      with_reducible apply finishAt_kept
      exact hk
    · rename_i z8 z9
      apply Kept.ite
      · exact hk
      · with_reducible apply saveRecords_kept
        with_reducible apply modCmd_kept
        with_reducible apply admitCmd_kept
        exact hk

theorem saveVolume_kept {a' : State} {c : Cmd} {v : Nat} {new : Option Volume} {s : State} (hk : Kept a' s) :
    Kept a' (saveVolume c v new s) := by
  unfold saveVolume
  split
  · rename_i z0 z1 z2
    with_reducible apply finishAt_kept
    exact hk
  · rename_i z3 z4
    apply Kept.ite
    · exact hk
    · lift_lets
      intro x5
      clear_value x5
      intro x6
      have h7 : Kept a' x6 := by
        subst x6
        with_reducible apply modCmd_kept
        with_reducible apply admitCmd_kept
        exact hk
      clear_value x6
      with_reducible apply saveRecords_kept
      with_reducible apply modXlat_kept
      exact h7

theorem deleteVolume_kept {a' : State} {v : Nat} {s : State} (hk : Kept a' s) :
    Kept a' (deleteVolume v s) := by
  unfold deleteVolume
  lift_lets
  intro x0
  clear_value x0
  intro x1
  have h2 : Kept a' x1 := by
    subst x1
    with_reducible apply Kept.foldl
    · intro t3 y4 h5
      with_reducible apply freeSlot_kept
      exact h5
    · exact hk
  clear_value x1
  intro x6
  have h7 : Kept a' x6 := by
    subst x6
    with_reducible apply journal_kept
    with_reducible apply modT_kept
    exact h2
  clear_value x6
  with_reducible apply modT_kept
  with_reducible refine Kept.mk' rfl rfl rfl rfl rfl rfl rfl rfl rfl rfl ?_
  exact h7

theorem changeVolume_kept {a' : State} {v : Nat} {d : VolDesc} {s : State} (hk : Kept a' s) :
    Kept a' (changeVolume v d s) := by
  unfold changeVolume
  split
  · rename_i z0 z1
    exact hk
  · rename_i z2 z3 z4
    with_reducible apply journal_kept
    with_reducible apply modT_kept
    exact hk

theorem takeSlot_kept {a' : State} {sl : SlotNo} {st : BandState} {v : Nat} {i : Nat} {tpar : Bool} {s : State} (hk : Kept a' s) :
    Kept a' (takeSlot sl st v i tpar s) := by
  unfold takeSlot
  with_reducible apply journal_kept
  with_reducible apply modT_kept
  exact hk

theorem takeUnits_kept {a' : State} {v : Nat} {tpar : Bool} {p2 : Nat} {p3 : Nat} {p4 : Nat} {p5 : State} (hk : Kept a' p5) :
    Kept a' (takeUnits v tpar p2 p3 p4 p5) := by
  induction p2 generalizing p3 p4 p5 with
  | zero => exact hk
  | succ n ih =>
    unfold takeUnits
    split
    · exact hk
    · split
      · exact ih (takeSlot_kept hk)
      · exact hk

theorem createVolume_kept {a' : State} {v : Nat} {d : VolDesc} {s : State} (hk : Kept a' s) :
    ∀ t, (createVolume v d s) = some t → Kept a' t := by
  unfold createVolume
  intro t ht
  simp only [Option.map_eq_some_iff] at ht
  obtain ⟨q, -, rfl⟩ := ht
  split
  · exact takeUnits_kept (journal_kept (modT_kept hk))
  · exact journal_kept (modT_kept hk)

theorem applyVolume_kept {a' : State} {good : Bool} {s : State} (hk : Kept a' s) :
    Kept a' (applyVolume good s).2 := by
  have hc : Kept a' (modXlat (fun x => { x with pendingVol := none }) s) := modXlat_kept hk
  unfold applyVolume
  dsimp only
  split
  · exact hk
  · split
    · exact hc
    · split
      · exact writeJournal_kept (deleteVolume_kept hc)
      · split
        · exact writeJournal_kept (changeVolume_kept hc)
        · split
          · rename_i t ht
            exact writeJournal_kept (createVolume_kept hc t ht)
          · exact hc

theorem openRow_kept {a' : State} {d : RSlot} {cw : Nat} {s : State} (hk : Kept a' s) :
    Kept a' (openRow d cw s) := by
  unfold openRow
  lift_lets
  intro x0
  clear_value x0
  with_reducible apply Kept.modBmem
  · intro y1 y2
    exact y2
  · exact hk

theorem readRow_kept {a' : State} {d : RSlot} {cw : Nat} {s : State} (hk : Kept a' s) :
    Kept a' (readRow d cw s) := by
  unfold readRow
  lift_lets
  intro x0
  clear_value x0
  intro x1
  clear_value x1
  intro x2
  have h3 : Kept a' x2 := by
    subst x2
    with_reducible apply Kept.modBmem
    · intro y4 y5
      exact y5
    · exact hk
  clear_value x2
  intro x6
  have h7 : Kept a' x6.2 := by
    subst x6
    with_reducible apply Kept.fresh
    exact h3
  clear_value x6
  apply Kept.ite
  · apply Kept.ite
    · with_reducible apply State.incR_kept
      exact h7
    · exact h7
  · exact h3

theorem readCw_kept {a' : State} {d : RSlot} {cw : Nat} {s : State} (hk : Kept a' s) :
    Kept a' (readCw d cw s).2.2 := by
  unfold readCw
  lift_lets
  intro x0
  have h1 : Kept a' x0.2.2 := by
    subst x0
    with_reducible apply decodeCw_kept
    with_reducible apply readRow_kept
    exact hk
  clear_value x0
  split
  · rename_i z2 z3 z4
    dsimp only
    exact h1
  · rename_i z5 z6
    exact h1

theorem readCws_kept {a' : State} {d : RSlot} {p1 : Nat} {p2 : Nat} {p3 : State} (hk : Kept a' p3) :
    Kept a' (readCws d p1 p2 p3).2.2 := by
  induction p2 generalizing p1 p3 with
  | zero => exact hk
  | succ n ih => exact ih (readCw_kept hk)

theorem bmemRead_kept {a' : State} {d : RSlot} {addr : Nat} {len : Nat} {s : State} (hk : Kept a' s) :
    Kept a' (bmemRead d addr len s).2.2 := by
  unfold bmemRead
  lift_lets
  intro x0
  clear_value x0
  intro x1
  have h2 : Kept a' x1.2.2 := by
    subst x1
    with_reducible apply readCws_kept
    exact hk
  clear_value x1
  dsimp only
  exact h2

theorem bmemPlace_kept {a' : State} {d : RSlot} {addr : Nat} {data : List Byte} {poison : Bool} {s : State} (hk : Kept a' s) :
    Kept a' (bmemPlace d addr data poison s) := by
  unfold bmemPlace
  lift_lets
  intro x0
  have h1 : Kept a' x0 := by
    subst x0
    with_reducible apply bmemWrite_kept
    exact hk
  clear_value x0
  apply Kept.ite
  · with_reducible apply Kept.foldl
    · intro t2 y3 h4
      with_reducible apply enterPoison_kept
      exact h4
    · exact h1
  · exact h1

theorem plantSymbol_kept {a' : State} {d : RSlot} {addr : Nat} {s : State} (hk : Kept a' s) :
    Kept a' (plantSymbol d addr s) := by
  unfold plantSymbol
  lift_lets
  intro x0
  clear_value x0
  intro x1
  clear_value x1
  with_reducible apply Kept.modBmem
  · intro y2 y3
    exact y3
  · exact hk

theorem trainChannel_kept {a' : State} {d : RSlot} {c : Nat} {lanes : List LaneEyes} {s : State} (hk : Kept a' s) :
    Kept a' (trainChannel d c lanes s) := by
  unfold trainChannel
  lift_lets
  intro x0
  clear_value x0
  intro x1
  have h2 : Kept a' x1 := by
    subst x1
    with_reducible apply State.wrR_kept
    exact hk
  clear_value x1
  intro x3
  have h4 : Kept a' x3 := by
    subst x3
    with_reducible apply Kept.foldl
    · intro t5 y6 h7
      lift_lets
      intro x8
      clear_value x8
      intro x9
      clear_value x9
      intro x10
      have h11 : Kept a' x10 := by
        subst x10
        with_reducible apply State.wrR_kept
        with_reducible apply State.wrR_kept
        with_reducible apply State.wrR_kept
        exact h7
      clear_value x10
      with_reducible apply State.wrR_kept
      with_reducible apply State.wrR_kept
      exact h11
    · exact h2
  clear_value x3
  intro x12
  clear_value x12
  with_reducible apply State.wrR_kept
  exact h4

theorem quadRead_kept {a' : State} {addr : Nat} {len : Nat} {s : State} (hk : Kept a' s) :
    Kept a' (quadRead addr len s) := by
  unfold quadRead
  with_reducible apply Kept.emit
  exact hk

theorem runSlot_kept {a' : State} {d : RSlot} {i : Nat} {trial : Bool} {img : SlotImage} {s : State} (hk : Kept a' s) :
    Kept a' (runSlot d i trial img s) := by
  unfold runSlot
  lift_lets
  intro x0
  have h1 : Kept a' x0 := by
    subst x0
    with_reducible apply loadRindStore_kept
    exact hk
  clear_value x0
  intro x2
  have h3 : Kept a' x2 := by
    subst x2
    with_reducible apply State.wrR_kept
    with_reducible apply State.wrR_kept
    with_reducible apply State.wrR_kept
    exact h1
  clear_value x2
  intro x4
  clear_value x4
  intro x5
  have h6 : Kept a' x5 := by
    subst x5
    with_reducible refine Kept.mk' rfl rfl rfl rfl rfl rfl rfl rfl rfl rfl ?_
    exact h3
  clear_value x5
  with_reducible apply setPhase_kept
  exact h6

theorem noImage_kept {a' : State} {s : State} (hk : Kept a' s) :
    Kept a' (noImage s) := by
  unfold noImage
  with_reducible apply setPhases_kept
  with_reducible apply releaseFlash_kept
  with_reducible apply setRegEn_kept
  exact hk

theorem noteChecked_kept {a' : State} {i : Nat} {s : State} (hk : Kept a' s) :
    Kept a' (noteChecked i s) := by
  unfold noteChecked
  with_reducible refine Kept.mk' rfl rfl rfl rfl rfl rfl rfl rfl rfl rfl ?_
  exact hk

theorem tryActive_kept {a' : State} {s : State} (hk : Kept a' s) :
    Kept a' (tryActive s) := by
  unfold tryActive
  lift_lets
  intro x0
  clear_value x0
  split
  · rename_i z1 z2 z3
    with_reducible apply runSlot_kept
    with_reducible apply noteChecked_kept
    exact hk
  · rename_i z4 z5
    split
    · rename_i z6 z7 z8
      with_reducible apply runSlot_kept
      with_reducible apply raise_kept
      with_reducible apply noteChecked_kept
      with_reducible apply noteChecked_kept
      exact hk
    · rename_i z9 z10
      with_reducible apply noImage_kept
      with_reducible apply noteChecked_kept
      with_reducible apply noteChecked_kept
      exact hk

theorem tryWithout_kept {a' : State} {p : Option Nat} {s : State} (hk : Kept a' s) :
    Kept a' (tryWithout p s) := by
  unfold tryWithout
  lift_lets
  intro x0
  clear_value x0
  split
  · rename_i z1 z2 z3
    with_reducible apply runSlot_kept
    with_reducible apply noteChecked_kept
    exact hk
  · rename_i z4 z5
    apply Kept.ite
    · with_reducible apply noImage_kept
      with_reducible apply noteChecked_kept
      exact hk
    · with_reducible apply tryActive_kept
      exact hk

theorem beginHeaderWrite_kept {a' : State} {s : State} (hk : Kept a' s) :
    Kept a' (beginHeaderWrite s) := by
  unfold beginHeaderWrite
  split
  · rename_i z0 z1
    exact hk
  · rename_i z2 z3 z4 z5 z6
    apply Kept.ite
    · lift_lets
      intro x7
      clear_value x7
      intro x8
      clear_value x8
      with_reducible apply startOp_kept
      with_reducible refine Kept.mk' rfl rfl rfl rfl rfl rfl rfl rfl rfl rfl ?_
      exact hk
    · exact hk

theorem writeHeader_kept {a' : State} {h : Header} {why : HdrWhy} {s : State} (hk : Kept a' s) :
    Kept a' (writeHeader h why s) := by
  unfold writeHeader
  with_reducible apply beginHeaderWrite_kept
  with_reducible refine Kept.mk' rfl rfl rfl rfl rfl rfl rfl rfl rfl rfl ?_
  exact hk

theorem tryPending_kept {a' : State} {s : State} (hk : Kept a' s) :
    Kept a' (tryPending s) := by
  unfold tryPending
  split
  · rename_i z0 z1
    with_reducible apply tryActive_kept
    exact hk
  · rename_i z2 z3 z4
    split
    · rename_i z5 z6 z7
      with_reducible apply runSlot_kept
      with_reducible apply noteChecked_kept
      exact hk
    · rename_i z8 z9
      with_reducible apply writeHeader_kept
      with_reducible apply raise_kept
      with_reducible apply noteChecked_kept
      exact hk

theorem reportMissing_kept {a' : State} {d : RSlot} {s : State} (hk : Kept a' s) :
    Kept a' (reportMissing d s) := by
  unfold reportMissing
  lift_lets
  intro x0
  have h1 : Kept a' x0 := by
    subst x0
    with_reducible apply Kept.foldl
    · intro t2 y3 h4
      lift_lets
      intro x5
      have h6 : Kept a' x5 := by
        subst x5
        with_reducible apply raise_kept
        exact h4
      clear_value x5
      apply Kept.ite
      · exact h4
      · with_reducible refine Kept.mk' rfl rfl rfl rfl rfl rfl rfl rfl rfl rfl ?_
        exact h6
    · exact hk
  clear_value x0
  intro x7
  have h8 : Kept a' x7 := by
    subst x7
    with_reducible apply raise_kept
    exact h1
  clear_value x7
  intro x9
  clear_value x9
  apply Kept.ite
  · with_reducible refine Kept.mk' rfl rfl rfl rfl rfl rfl rfl rfl rfl rfl ?_
    exact h8
  · exact h1

theorem beginChunk_kept {a' : State} {off : Nat} {data : List Byte} {port : Nat} {tag : Nat} {s : State} (hk : Kept a' s) :
    Kept a' (beginChunk off data port tag s) := by
  unfold beginChunk
  apply Kept.ite
  · with_reducible apply endCommand_kept
    exact hk
  · lift_lets
    intro x0
    clear_value x0
    intro x1
    have h2 : Kept a' x1 := by
      subst x1
      with_reducible refine Kept.mk' rfl rfl rfl rfl rfl rfl rfl rfl rfl rfl ?_
      exact hk
    clear_value x1
    with_reducible apply startOp_kept
    with_reducible refine Kept.mk' rfl rfl rfl rfl rfl rfl rfl rfl rfl rfl ?_
    exact h2

theorem stopHeader_kept {a' : State} {k : Nat} {port : Nat} {tag : Nat} {s : State} (hk : Kept a' s) :
    Kept a' (stopHeader k port tag s) := by
  unfold stopHeader
  with_reducible apply beginHeaderWrite_kept
  with_reducible apply endCommand_kept
  with_reducible refine Kept.mk' rfl rfl rfl rfl rfl rfl rfl rfl rfl rfl ?_
  exact hk

theorem wrClamped_kept {a' : State} {die : Nat} {f : Fld} {v : Nat} {s : State} (hk : Kept a' s) :
    Kept a' (wrClamped die f v s) := by
  unfold wrClamped
  with_reducible apply State.wr_kept
  exact hk

theorem loadDefaults_kept {a' : State} {d : RSlot} {s : State} (hk : Kept a' s) :
    Kept a' (loadDefaults d s) := by
  unfold loadDefaults
  lift_lets
  intro x0
  have h1 : Kept a' x0 := by
    subst x0
    with_reducible apply Kept.keepRegs
    exact hk
  clear_value x0
  with_reducible apply Kept.foldl
  · intro t2 y3 h4
    apply Kept.ite
    · exact h4
    · with_reducible apply State.wrR_kept
      exact h4
  · exact h1

theorem heldShock_kept {a' : State} {s : State} (hk : Kept a' s) :
    Kept a' (heldShock s) := by
  unfold heldShock
  apply Kept.ite
  · with_reducible apply onGroups_kept
    · intro y0 t1 h2
      with_reducible apply modFmt_kept
      with_reducible apply State.wrC_kept
      exact h2
    · exact hk
  · exact hk

theorem spdEvaluate_kept {a' : State} {s : State} (hk : Kept a' s) :
    Kept a' (spdEvaluate s) := by
  unfold spdEvaluate
  lift_lets
  intro x0
  clear_value x0
  intro x1
  clear_value x1
  intro x2
  clear_value x2
  intro x3
  have h4 : Kept a' x3 := by
    subst x3
    with_reducible apply State.wrC_kept
    exact hk
  clear_value x3
  intro x5
  clear_value x5
  intro x6
  clear_value x6
  intro x7
  have h8 : Kept a' x7 := by
    subst x7
    apply Kept.ite
    · with_reducible apply modSpin_kept
      exact h4
    · exact h4
  clear_value x7
  intro x9
  have h10 : Kept a' x9 := by
    subst x9
    with_reducible apply modSpin_kept
    exact h8
  clear_value x9
  apply Kept.ite
  · apply Kept.ite
    · with_reducible apply State.wrC_kept
      exact h10
    · with_reducible apply State.wrC_kept
      with_reducible apply State.wrC_kept
      exact h10
  · apply Kept.ite
    · with_reducible apply State.wrC_kept
      exact h8
    · exact h8

theorem firstCeiling_kept {a' : State} {s : State} (hk : Kept a' s) :
    Kept a' (firstCeiling s) := by
  unfold firstCeiling
  apply Kept.ite
  · exact hk
  · with_reducible apply spdEvaluate_kept
    with_reducible apply modSpin_kept
    exact hk

theorem loadBoard_kept {a' : State} {b : Board} {s : State} (hk : Kept a' s) :
    Kept a' (loadBoard b s) := by
  unfold loadBoard
  lift_lets
  intro x0
  clear_value x0
  intro x1
  have h2 : Kept a' x1 := by
    subst x1
    with_reducible apply Kept.foldl
    · intro t3 y4 h5
      with_reducible apply State.wrC_kept
      exact h5
    · with_reducible refine Kept.mk' rfl rfl rfl rfl rfl rfl rfl rfl rfl rfl ?_
      exact hk
  clear_value x1
  with_reducible apply heldShock_kept
  with_reducible apply firstCeiling_kept
  with_reducible apply Kept.foldl
  · intro t6 y7 h8
    with_reducible apply State.wrC_kept
    exact h8
  · exact h2

theorem applyRecord_kept {a' : State} {d : RSlot} {r : SetRec} {s : State} (hk : Kept a' s) :
    Kept a' (applyRecord d r s) := by
  unfold applyRecord
  split
  · rename_i z0 z1 z2
    split
    · rename_i z3 z4 z5
      apply Kept.ite
      · with_reducible apply loadBoard_kept
        exact hk
      · exact hk
    · rename_i z6 z7
      exact hk
  · rename_i z8 z9 z10 z11 z12
    with_reducible apply Kept.foldl
    · intro t13 y14 h15
      split
      · rename_i z16 z17 z18 z19 z20 z21
        apply Kept.ite
        · lift_lets
          intro x22
          have h23 : Kept a' x22 := by
            subst x22
            with_reducible apply wrClamped_kept
            exact h15
          clear_value x22
          intro x24
          have h25 : Kept a' x24 := by
            subst x24
            with_reducible apply State.wrR_kept
            exact h23
          clear_value x24
          intro x26
          have h27 : Kept a' x26 := by
            subst x26
            with_reducible apply wrClamped_kept
            exact h25
          clear_value x26
          intro x28
          have h29 : Kept a' x28 := by
            subst x28
            with_reducible apply wrClamped_kept
            exact h27
          clear_value x28
          with_reducible apply State.wrR_kept
          exact h29
        · with_reducible apply raise_kept
          exact h15
    · exact hk
  · rename_i z30 z31 z32 z33 z34
    exact hk
  · rename_i z35 z36 z37
    split
    · rename_i z38 z39 z40 z41 z42
      with_reducible apply State.wrR_kept
      with_reducible apply State.wrR_kept
      with_reducible apply State.wrR_kept
      exact hk
    · rename_i z43 z44
      exact hk
  · rename_i z45 z46 z47 z48 z49 z50
    apply Kept.ite
    · with_reducible apply Kept.foldl
      · intro t51 y52 h53
        apply Kept.ite
        · exact h53
        · with_reducible apply wrClamped_kept
          exact h53
      · exact hk
    · with_reducible apply raise_kept
      exact hk
  · rename_i z54 z55 z56 z57 z58 z59 z60
    with_reducible apply raise_kept
    exact hk

theorem checkDomains_kept {a' : State} {d : RSlot} {s : State} (hk : Kept a' s) :
    Kept a' (checkDomains d s) := by
  unfold checkDomains
  with_reducible apply Kept.foldl
  · intro t0 y1 h2
    apply Kept.ite
    · with_reducible apply raise_kept
      with_reducible apply State.wrR_kept
      exact h2
    · exact h2
  · exact hk

theorem checkWindows_kept {a' : State} {d : RSlot} {s : State} (hk : Kept a' s) :
    Kept a' (checkWindows d s) := by
  unfold checkWindows
  lift_lets
  intro x0
  clear_value x0
  with_reducible apply Kept.foldl_fst
  · intro y1 y2 h3
    lift_lets
    intro x4
    have h5 : Kept a' x4 := by
      subst x4
      apply Kept.ite
      · with_reducible apply State.wrR_kept
        exact h3
      · exact h3
    clear_value x4
    intro x6
    clear_value x6
    intro x7
    clear_value x7
    intro x8
    have h9 : Kept a' x8 := by
      subst x8
      with_reducible apply State.wrR_kept
      exact h5
    clear_value x8
    intro x10
    clear_value x10
    apply Kept.ite_fst
    · dsimp only
      exact h9
    · apply Kept.ite_fst
      · dsimp only
        with_reducible apply raise_kept
        with_reducible apply State.wrR_kept
        exact h9
      · dsimp only
        exact h9
  · dsimp only
    exact hk

theorem checkZones_kept {a' : State} {d : RSlot} {s : State} (hk : Kept a' s) :
    Kept a' (checkZones d s) := by
  unfold checkZones
  with_reducible apply Kept.foldl
  · intro t0 y1 h2
    split
    · rename_i z3 z4 z5 z6
      with_reducible apply raise_kept
      exact h2
    · rename_i z7 z8 z9 z10 z11 z12
      apply Kept.ite
      · exact h2
      · with_reducible apply raise_kept
        exact h2
    · rename_i z13 z14 z15 z16
      exact h2
  · exact hk

theorem readSettings_kept {a' : State} {s : State} (hk : Kept a' s) :
    Kept a' (readSettings s) := by
  unfold readSettings
  with_reducible apply Kept.foldl
  · intro t0 y1 h2
    with_reducible apply quadRead_kept
    exact h2
  · exact hk

theorem showAdmit_kept {a' : State} {s : State} (hk : Kept a' s) :
    Kept a' (showAdmit s) := by
  unfold showAdmit
  with_reducible apply Kept.foldl
  · intro t0 y1 h2
    apply Kept.ite
    · with_reducible apply State.wrR_kept
      with_reducible apply State.wrR_kept
      with_reducible apply State.wrR_kept
      exact h2
    · exact h2
  · exact hk

theorem copySeverities_kept {a' : State} {d : RSlot} {s : State} (hk : Kept a' s) :
    Kept a' (copySeverities d s) := by
  unfold copySeverities
  with_reducible apply Kept.foldl
  · intro t0 y1 h2
    with_reducible apply Kept.modCurd
    · intro y3 y4
      exact y4
    · exact h2
  · exact hk

theorem loadPressTables_kept {a' : State} {img : SlotImage} {s : State} (hk : Kept a' s) :
    Kept a' (loadPressTables img s) := by
  unfold loadPressTables
  with_reducible apply Kept.foldl
  · intro t0 y1 h2
    with_reducible apply Kept.foldl
    · intro t3 y4 h5
      with_reducible apply Kept.setWord
      exact h5
    · exact h2
  · exact hk

theorem paInit_kept {a' : State} {g : Nat} {s : State} (hk : Kept a' s) :
    Kept a' (paInit g s) := by
  unfold paInit
  lift_lets
  intro x0
  have h1 : Kept a' x0 := by
    subst x0
    with_reducible apply Kept.foldl
    · intro t2 y3 h4
      with_reducible apply Kept.emit
      exact h4
    · exact hk
  clear_value x0
  intro x5
  have h6 : Kept a' x5 := by
    subst x5
    with_reducible apply Kept.emit
    exact h1
  clear_value x5
  with_reducible apply modFmt_kept
  exact h6

theorem loadSettings_kept {a' : State} {d : RSlot} {k : Nat} {c : Settings} {s : State} (hk : Kept a' s) :
    Kept a' (loadSettings d k c s) := by
  unfold loadSettings
  lift_lets
  intro x0
  have h1 : Kept a' x0 := by
    subst x0
    with_reducible apply loadDefaults_kept
    with_reducible apply State.wrR_kept
    with_reducible apply State.wrR_kept
    exact hk
  clear_value x0
  intro x2
  have h3 : Kept a' x2 := by
    subst x2
    with_reducible apply Kept.foldl
    · intro t4 y5 h6
      with_reducible apply applyRecord_kept
      exact h6
    · exact h1
  clear_value x2
  intro x7
  have h8 : Kept a' x7 := by
    subst x7
    apply Kept.ite
    · with_reducible apply Kept.foldl
      · intro t9 y10 h11
        with_reducible apply State.wrR_kept
        exact h11
      · exact h3
    · exact h3
  clear_value x7
  intro x12
  have h13 : Kept a' x12 := by
    subst x12
    with_reducible apply checkZones_kept
    with_reducible apply checkWindows_kept
    with_reducible apply checkDomains_kept
    exact h8
  clear_value x12
  intro x14
  clear_value x14
  intro x15
  have h16 : Kept a' x15 := by
    subst x15
    with_reducible apply showAdmit_kept
    with_reducible refine Kept.mk' rfl rfl rfl rfl rfl rfl rfl rfl rfl rfl ?_
    exact h13
  clear_value x15
  intro x17
  have h18 : Kept a' x17 := by
    subst x17
    with_reducible apply copySeverities_kept
    exact h16
  clear_value x17
  intro x19
  have h20 : Kept a' x19 := by
    subst x19
    split
    · rename_i z21 z22 z23
      with_reducible apply loadPressTables_kept
      exact h18
    · rename_i z24 z25
      exact h18
  clear_value x19
  apply Kept.ite
  · with_reducible apply onGroups_kept
    · intro y26 t27 h28
      with_reducible apply modFmt_kept
      with_reducible apply paInit_kept
      exact h28
    · exact h20
  · exact h16

theorem buildPools_kept {a' : State} {d : RSlot} {s : State} (hk : Kept a' s) :
    Kept a' (buildPools d s) := by
  unfold buildPools
  refine showPools_kept (modVat_kept (Kept.foldl (fun t p h => ?_) hk))
  exact State.wrR_kept (State.wrR_kept (State.wrR_kept h))

theorem releaseEngine_kept {a' : State} {d : RSlot} {i : Nat} {s : State} (hk : Kept a' s) :
    Kept a' (releaseEngine d i s) := by
  unfold releaseEngine
  lift_lets
  intro x0
  have h1 : Kept a' x0 := by
    subst x0
    with_reducible apply enterVector_kept
    with_reducible apply modEng_kept
    exact hk
  clear_value x0
  apply Kept.ite
  · with_reducible apply setEngState_kept
    exact h1
  · exact h1

theorem releaseDie_kept {a' : State} {d : RSlot} {s : State} (hk : Kept a' s) :
    Kept a' (releaseDie d s) := by
  unfold releaseDie
  lift_lets
  intro x0
  have h1 : Kept a' x0 := by
    subst x0
    with_reducible apply buildPools_kept
    with_reducible apply caveEnableNow_kept
    with_reducible apply modCave_kept
    with_reducible apply State.wrR_kept
    with_reducible apply State.wrR_kept
    exact hk
  clear_value x0
  intro x2
  have h3 : Kept a' x2 := by
    subst x2
    with_reducible apply Kept.foldl
    · intro t4 y5 h6
      with_reducible apply releaseEngine_kept
      exact h6
    · exact h1
  clear_value x2
  with_reducible apply setPhase_kept
  exact h3

theorem showStep_kept {a' : State} {d : RSlot} {k : Nat} {s : State} (hk : Kept a' s) :
    Kept a' (showStep d k s) := by
  unfold showStep
  with_reducible apply State.wrR_kept
  with_reducible apply State.wrR_kept
  exact hk

theorem newStep_kept {a' : State} {_kind : Nat} {_src : Nat} {_data : Nat} {s : State} (hk : Kept a' s) :
    Kept a' (newStep _kind _src _data s) := by
  unfold newStep
  apply Kept.ite
  · exact hk
  · lift_lets
    intro x0
    clear_value x0
    with_reducible apply inStep_kept
    · intro y1 t2 h3
      with_reducible apply showStep_kept
      with_reducible apply modStep_kept
      exact h3
    · exact hk

theorem takeRpt_kept {a' : State} {g : Nat} {p : Msg → Bool} {s : State} (hk : Kept a' s) :
    Kept a' (takeRpt g p s) := by
  unfold takeRpt
  with_reducible apply inStep_kept
  · intro y0 t1 h2
    split
    · rename_i z3 z4 z5
      with_reducible apply takeMsg_kept
      exact h2
    · rename_i z6 z7
      exact h2
  · with_reducible apply newStep_kept
    exact hk

theorem modBudget_kept {a' : State} {f : Budget → Budget} {s : State} (hk : Kept a' s) :
    Kept a' (modBudget f s) := by
  unfold modBudget
  with_reducible refine Kept.mk' rfl rfl rfl rfl rfl rfl rfl rfl rfl rfl ?_
  exact hk

theorem showTemp_kept {a' : State} {i : Nat} {s : State} (hk : Kept a' s) :
    Kept a' (showTemp i s) := by
  unfold showTemp
  with_reducible apply wrAll_kept
  exact hk

theorem noteShutdown_kept {a' : State} {i : Nat} {s : State} (hk : Kept a' s) :
    Kept a' (noteShutdown i s) := by
  unfold noteShutdown
  lift_lets
  intro x0
  have h1 : Kept a' x0 := by
    subst x0
    with_reducible apply modBudget_kept
    exact hk
  clear_value x0
  intro x2
  clear_value x2
  intro x3
  have h4 : Kept a' x3 := by
    subst x3
    with_reducible apply Kept.foldl
    · intro t5 y6 h7
      with_reducible apply raiseFull_kept
      exact h7
    · exact h1
  clear_value x3
  with_reducible apply showTemp_kept
  with_reducible apply incAll_kept
  exact h4

theorem deviceShutdown_kept {a' : State} {s : State} (hk : Kept a' s) :
    Kept a' (deviceShutdown s) := by
  unfold deviceShutdown
  lift_lets
  intro x0
  have h1 : Kept a' x0 := by
    subst x0
    with_reducible apply onGroups_kept
    · intro y2 t3 h4
      with_reducible apply emergencyRetract_kept
      exact h4
    · with_reducible apply gatesOff_kept
      exact hk
  clear_value x0
  intro x5
  have h6 : Kept a' x5 := by
    subst x5
    with_reducible apply settle_kept
    exact h1
  clear_value x5
  intro x7
  have h8 : Kept a' x7 := by
    subst x7
    with_reducible apply setRegEn_kept
    with_reducible apply coreReset_kept
    with_reducible refine Kept.mk' rfl rfl rfl rfl rfl rfl rfl rfl rfl rfl ?_
    exact h6
  clear_value x7
  intro x9
  clear_value x9
  with_reducible apply setPhases_kept
  with_reducible refine Kept.mk' rfl rfl rfl rfl rfl rfl rfl rfl rfl rfl ?_
  exact h8

theorem shutDie_kept {a' : State} {die : Die} {s : State} (hk : Kept a' s) :
    Kept a' (shutDie die s) := by
  unfold shutDie
  split
  · rename_i z0
    lift_lets
    intro x1
    have h2 : Kept a' x1 := by
      subst x1
      with_reducible apply emergencyRetract_kept
      with_reducible apply gatesOff_kept
      exact hk
    clear_value x1
    with_reducible apply Kept.foldl
    · intro t3 y4 h5
      with_reducible apply startUnload_kept
      exact h5
    · exact h2
  · rename_i z6 z7 z8
    with_reducible apply groupOffline_kept
    with_reducible apply Kept.modCurd
    · intro y9 y10
      exact y10
    · with_reducible apply emergencyRetract_kept
      exact hk
  · rename_i z11 z12
    apply Kept.ite
    · exact hk
    · apply Kept.ite
      · apply Kept.ite
        · with_reducible apply dropDie_kept
          exact hk
        · with_reducible apply fenceDie_kept
          exact hk
      · with_reducible apply deviceShutdown_kept
        exact hk

theorem coolDie_kept {a' : State} {die : Die} {s : State} (hk : Kept a' s) :
    Kept a' (coolDie die s) := by
  unfold coolDie
  split
  · rename_i z0
    lift_lets
    intro x1
    have h2 : Kept a' x1 := by
      subst x1
      with_reducible apply modBudget_kept
      exact hk
    clear_value x1
    with_reducible refine Kept.mk' rfl rfl rfl rfl rfl rfl rfl rfl rfl rfl ?_
    exact h2
  · rename_i z3 z4 z5
    exact hk
  · rename_i z6 z7
    lift_lets
    intro x8
    have h9 : Kept a' x8 := by
      subst x8
      with_reducible apply showTemp_kept
      with_reducible apply modBudget_kept
      exact hk
    clear_value x8
    split
    · rename_i z10 z11 z12
      apply Kept.ite
      · with_reducible apply startResync_kept
        exact h9
      · exact h9
    · rename_i z13 z14
      exact h9

theorem takeReading_kept {a' : State} {i : Nat} {temp : Int} {s : State} (hk : Kept a' s) :
    Kept a' (takeReading i temp s) := by
  unfold takeReading
  lift_lets
  intro x0
  clear_value x0
  intro x1
  clear_value x1
  intro x2
  clear_value x2
  intro x3
  clear_value x3
  intro x4
  clear_value x4
  intro x5
  clear_value x5
  intro x6
  clear_value x6
  intro x7
  clear_value x7
  intro x8
  clear_value x8
  intro x9
  have h10 : Kept a' x9 := by
    subst x9
    with_reducible apply modBudget_kept
    exact hk
  clear_value x9
  intro x11
  have h12 : Kept a' x11 := by
    subst x11
    with_reducible apply wrAll_kept
    exact h10
  clear_value x11
  intro x13
  have h14 : Kept a' x13 := by
    subst x13
    with_reducible apply wrAll_kept
    exact h12
  clear_value x13
  intro x15
  have h16 : Kept a' x15 := by
    subst x15
    apply Kept.ite
    · with_reducible apply incAll_kept
      with_reducible apply inStep_kept
      · intro y17 t18 h19
        with_reducible apply raiseFull_kept
        exact h19
      · exact h14
    · exact h14
  clear_value x15
  intro x20
  have h21 : Kept a' x20 := by
    subst x20
    apply Kept.ite
    · with_reducible apply inStep_kept
      · intro y22 t23 h24
        with_reducible apply raiseFull_kept
        exact h24
      · exact h16
    · exact h16
  clear_value x20
  with_reducible apply showTemp_kept
  exact h21

theorem budgetThrWrite_kept {a' : State} {ts : List RSlot} {addr : Nat} {rd : RegDef} {v : Word} {s : State} (hk : Kept a' s) :
    Kept a' (budgetThrWrite ts addr rd v s).1 := by
  unfold budgetThrWrite
  lift_lets
  intro x0
  clear_value x0
  intro x1
  have h2 : ∀ y0 y1, Kept a' y0 → Kept a' (x1 y0 y1) := by
    subst x1
    intro t3 y4 h5
    beta_reduce
    with_reducible apply Kept.setWord
    exact h5
  clear_value x1
  intro x6
  clear_value x6
  apply Kept.ite_fst
  · dsimp only
    with_reducible apply Kept.foldl
    · intro t7 y8 h9
      apply h2
      exact h9
    · exact hk
  · dsimp only
    with_reducible apply Kept.foldl
    · intro t10 y11 h12
      with_reducible apply raise_kept
      exact h12
    · exact hk

theorem sendOrders_kept {a' : State} {s : State} (hk : Kept a' s) :
    Kept a' (sendOrders s) := by
  unfold sendOrders
  with_reducible apply Kept.foldl
  · intro t0 y1 h2
    lift_lets
    intro x3
    clear_value x3
    apply Kept.ite
    · exact h2
    · with_reducible apply modBudget_kept
      with_reducible apply inStep_kept
      · intro y4 t5 h6
        with_reducible apply ctrlTo_kept
        exact h6
      · exact h2
  · exact hk

theorem showOrders_kept {a' : State} {s : State} (hk : Kept a' s) :
    Kept a' (showOrders s) := by
  unfold showOrders
  lift_lets
  intro x0
  clear_value x0
  intro x1
  clear_value x1
  with_reducible apply wrAll_kept
  with_reducible apply wrAll_kept
  exact hk

theorem rechoose_kept {a' : State} {s : State} (hk : Kept a' s) :
    Kept a' (rechoose s) := by
  unfold rechoose
  lift_lets
  intro x0
  clear_value x0
  with_reducible apply sendOrders_kept
  with_reducible apply showOrders_kept
  with_reducible apply modBudget_kept
  exact hk

theorem workArrived_kept {a' : State} {s : State} (hk : Kept a' s) :
    Kept a' (workArrived s) := by
  unfold workArrived
  apply Kept.ite
  · with_reducible apply rechoose_kept
    exact hk
  · exact hk

theorem sendTarget_kept {a' : State} {s : State} (hk : Kept a' s) :
    Kept a' (sendTarget s) := by
  unfold sendTarget
  lift_lets
  intro x0
  clear_value x0
  intro x1
  have h2 : Kept a' x1 := by
    subst x1
    with_reducible apply wrAll_kept
    exact hk
  clear_value x1
  apply Kept.ite
  · exact h2
  · with_reducible apply modBudget_kept
    with_reducible apply inStep_kept
    · intro y3 t4 h5
      with_reducible apply ctrlTo_kept
      exact h5
    · exact h2

theorem nextRaises_kept {a' : State} {s : State} (hk : Kept a' s) :
    Kept a' (nextRaises s) := by
  unfold nextRaises
  lift_lets
  intro x0
  clear_value x0
  intro x1
  clear_value x1
  intro x2
  clear_value x2
  intro x3
  clear_value x3
  intro x4
  clear_value x4
  intro x5
  clear_value x5
  intro x6
  clear_value x6
  intro x7
  clear_value x7
  with_reducible apply modBudget_kept
  exact hk

theorem modLine_kept {a' : State} {dom : Nat} {f : StatLine → StatLine} {s : State} (hk : Kept a' s) :
    Kept a' (modLine dom f s) := by
  unfold modLine
  with_reducible refine Kept.mk' rfl rfl rfl rfl rfl rfl rfl rfl rfl rfl ?_
  exact hk

theorem writeCommon_kept {a' : State} {d : RSlot} {dom : Nat} {s : State} (hk : Kept a' s) :
    Kept a' (writeCommon d dom s) := by
  unfold writeCommon
  lift_lets
  intro x0
  clear_value x0
  intro x1
  have h2 : Kept a' x1.2 := by
    subst x1
    with_reducible apply nextDw_kept
    with_reducible apply modLine_kept
    exact hk
  clear_value x1
  intro x3
  clear_value x3
  apply Kept.ite
  · with_reducible apply modLine_kept
    exact hk
  · split
    · rename_i z4
      with_reducible apply hostPut_kept
      exact h2
    · rename_i z5
      with_reducible apply hostPut_kept
      with_reducible apply hostPut_kept
      exact h2

theorem statusUpdate_kept {a' : State} {dom : Nat} {s : State} (hk : Kept a' s) :
    Kept a' (statusUpdate dom s) := by
  unfold statusUpdate
  apply Kept.ite
  · lift_lets
    intro x0
    clear_value x0
    intro x1
    clear_value x1
    intro x2
    have h3 : Kept a' x2 := by
      subst x2
      with_reducible apply modLine_kept
      exact hk
    clear_value x2
    with_reducible apply Kept.foldl
    · intro t4 y5 h6
      with_reducible apply writeCommon_kept
      with_reducible apply digestAdd_kept
      exact h6
    · exact h3
  · exact hk

theorem allLines_kept {a' : State} {s : State} (hk : Kept a' s) :
    Kept a' (allLines s) := by
  unfold allLines
  with_reducible apply Kept.foldl
  · intro t0 y1 h2
    with_reducible apply statusUpdate_kept
    exact h2
  · exact hk

theorem setDepth_kept {a' : State} {depth : Nat} {s : State} (hk : Kept a' s) :
    Kept a' (setDepth depth s) := by
  unfold setDepth
  lift_lets
  intro x0
  clear_value x0
  intro x1
  have h2 : Kept a' x1 := by
    subst x1
    with_reducible apply wrAll_kept
    with_reducible apply wrAll_kept
    exact hk
  clear_value x1
  intro x3
  have h4 : Kept a' x3 := by
    subst x3
    with_reducible apply wrAll_kept
    exact h2
  clear_value x3
  with_reducible apply wrAll_kept
  with_reducible apply wrAll_kept
  with_reducible apply wrAll_kept
  exact h4

theorem enforce_kept {a' : State} {s : State} (hk : Kept a' s) :
    Kept a' (enforce s) := by
  unfold enforce
  apply Kept.ite
  · lift_lets
    intro x0
    have h1 : Kept a' x0 := by
      subst x0
      with_reducible apply incAll_kept
      with_reducible apply setDepth_kept
      exact hk
    clear_value x0
    with_reducible apply allLines_kept
    with_reducible apply modBudget_kept
    exact h1
  · exact hk

theorem depthTick_kept {a' : State} {s : State} (hk : Kept a' s) :
    Kept a' (depthTick s) := by
  unfold depthTick
  apply Kept.ite
  · lift_lets
    intro x0
    clear_value x0
    intro x1
    have h2 : Kept a' x1 := by
      subst x1
      apply Kept.ite
      · with_reducible apply setDepth_kept
        exact hk
      · exact hk
    clear_value x1
    with_reducible apply modBudget_kept
    exact h2
  · exact hk

theorem nextThrottle_kept {a' : State} {s : State} (hk : Kept a' s) :
    Kept a' (nextThrottle s) := by
  unfold nextThrottle
  lift_lets
  intro x0
  clear_value x0
  intro x1
  have h2 : Kept a' x1 := by
    subst x1
    with_reducible apply incAll_kept
    with_reducible apply wrAll_kept
    exact hk
  clear_value x1
  apply Kept.ite
  · apply Kept.ite
    · split
      · rename_i z3 z4 z5
        apply Kept.ite
        · with_reducible apply enforce_kept
          exact hk
        · exact hk
      · rename_i z6 z7
        apply Kept.ite
        · with_reducible apply depthTick_kept
          exact hk
        · exact hk
    · with_reducible apply allLines_kept
      with_reducible apply modBudget_kept
      exact h2
  · apply Kept.ite
    · with_reducible apply allLines_kept
      with_reducible apply modBudget_kept
      with_reducible apply setDepth_kept
      with_reducible apply wrAll_kept
      exact hk
    · exact hk

theorem capRequest_kept {a' : State} {level : Nat} {pred : Nat} {s : State} (hk : Kept a' s) :
    Kept a' (capRequest level pred s) := by
  unfold capRequest
  lift_lets
  intro x0
  clear_value x0
  intro x1
  clear_value x1
  intro x2
  clear_value x2
  with_reducible apply modBudget_kept
  exact hk

theorem cycle_kept {a' : State} {s : State} (hk : Kept a' s) :
    Kept a' (cycle s) := by
  unfold cycle
  lift_lets
  intro x0
  have h1 : Kept a' x0 := by
    subst x0
    with_reducible apply modBudget_kept
    exact hk
  clear_value x0
  intro x2
  clear_value x2
  intro x3
  clear_value x3
  intro x4
  clear_value x4
  intro x5
  have h6 : Kept a' x5 := by
    subst x5
    with_reducible apply modBudget_kept
    exact h1
  clear_value x5
  intro x7
  have h8 : Kept a' x7 := by
    subst x7
    with_reducible apply wrAll_kept
    with_reducible apply wrAll_kept
    exact h6
  clear_value x7
  intro x9
  have h10 : Kept a' x9 := by
    subst x9
    with_reducible apply wrAll_kept
    with_reducible apply wrAll_kept
    exact h8
  clear_value x9
  intro x11
  have h12 : Kept a' x11 := by
    subst x11
    with_reducible apply wrAll_kept
    with_reducible apply wrAll_kept
    exact h10
  clear_value x11
  intro x13
  have h14 : Kept a' x13 := by
    subst x13
    with_reducible apply wrAll_kept
    exact h12
  clear_value x13
  intro x15
  clear_value x15
  intro x16
  have h17 : Kept a' x16 := by
    subst x16
    with_reducible apply wrAll_kept
    exact h14
  clear_value x16
  intro x18
  clear_value x18
  intro x19
  have h20 : Kept a' x19 := by
    subst x19
    apply Kept.ite
    · with_reducible apply rechoose_kept
      exact h17
    · with_reducible apply sendOrders_kept
      with_reducible apply showOrders_kept
      exact h17
  clear_value x19
  intro x21
  have h22 : Kept a' x21 := by
    subst x21
    with_reducible apply nextRaises_kept
    exact h20
  clear_value x21
  intro x23
  have h24 : Kept a' x23 := by
    subst x23
    with_reducible apply wrAll_kept
    with_reducible apply wrAll_kept
    exact h22
  clear_value x23
  with_reducible apply nextThrottle_kept
  with_reducible apply capRequest_kept
  with_reducible apply sendTarget_kept
  exact h24

theorem cycleDrained_kept {a' : State} {s : State} (hk : Kept a' s) :
    Kept a' (cycleDrained s) := by
  unfold cycleDrained
  apply Kept.ite
  · with_reducible apply raiseAll_kept
    with_reducible apply modBudget_kept
    exact hk
  · with_reducible apply modBudget_kept
    exact hk

theorem joinFill_kept {a' : State} {d : RSlot} {who : AccWho} {line : Nat} {noalloc : Bool} {s : State} (hk : Kept a' s) :
    Kept a' (joinFill d who line noalloc s) := by
  unfold joinFill
  lift_lets
  intro x0
  clear_value x0
  apply Kept.ite
  · with_reducible apply modCave_kept
    exact hk
  · with_reducible apply modCave_kept
    exact hk

theorem fillData_kept {a' : State} {d : RSlot} {line : Nat} {s : State} (hk : Kept a' s) :
    Kept a' (fillData d line s).2.2 := by
  unfold fillData
  with_reducible apply Kept.foldl_snd_snd
  · intro y0 y1 h2
    lift_lets
    intro x3
    have h4 : Kept a' x3 := by
      subst x3
      exact h2
    clear_value x3
    intro x5
    clear_value x5
    intro x6
    have h7 : Kept a' x6.2.2 := by
      subst x6
      split
      · rename_i z8 z9 z10 z11 z12
        split
        · rename_i z13 z14 z15
          dsimp only
          exact h4
        · rename_i z16 z17
          dsimp only
          exact h4
      · rename_i z18 z19
        with_reducible apply readCw_kept
        exact h4
    clear_value x6
    dsimp only
    exact h7
  · dsimp only
    exact hk

theorem checkPlru_kept {a' : State} {d : RSlot} {set : Nat} {s : State} (hk : Kept a' s) :
    Kept a' (checkPlru d set s) := by
  unfold checkPlru
  apply Kept.ite
  · with_reducible apply State.incR_kept
    with_reducible apply modCave_kept
    exact hk
  · exact hk

theorem touchWay_kept {a' : State} {d : RSlot} {set : Nat} {w : Nat} {s : State} (hk : Kept a' s) :
    Kept a' (touchWay d set w s) := by
  unfold touchWay
  with_reducible apply modCave_kept
  exact hk

theorem evictDrain_kept {a' : State} {d : RSlot} {s : State} (hk : Kept a' s) :
    Kept a' (evictDrain d s) := by
  unfold evictDrain
  split
  · rename_i z0 z1
    with_reducible apply modCave_kept
    exact hk
  · rename_i z2 z3 z4 z5
    with_reducible apply modCave_kept
    with_reducible apply evictIssue_kept
    exact hk

theorem allocLine_kept {a' : State} {d : RSlot} {cls : Nat} {line : Nat} {data : List Byte} {dirty : Bool} {s : State} (hk : Kept a' s) :
    Kept a' (allocLine d cls line data dirty s) := by
  unfold allocLine
  lift_lets
  intro x0
  clear_value x0
  intro x1
  clear_value x1
  intro x2
  clear_value x2
  intro x3
  have h4 : Kept a' x3 := by
    subst x3
    split
    · rename_i z5 z6 z7
      apply Kept.ite
      · with_reducible apply writeBack_kept
        exact hk
      · exact hk
    · rename_i z8 z9
      exact hk
  clear_value x3
  with_reducible apply touchWay_kept
  with_reducible apply modCave_kept
  exact h4

theorem maintLine_kept {a' : State} {d : RSlot} {m : Maint} {key : Nat} {l : CaveLine} {s : State} (hk : Kept a' s) :
    Kept a' (maintLine d m key l s) := by
  unfold maintLine
  lift_lets
  intro x0
  clear_value x0
  intro x1
  have h2 : ∀ y0, Kept a' y0 → Kept a' (x1 y0) := by
    subst x1
    intro t3 h4
    beta_reduce
    with_reducible apply modCave_kept
    exact h4
  clear_value x1
  apply Kept.ite
  · apply Kept.ite
    · exact hk
    · apply h2
      exact hk
  · split
    · rename_i z5 z6
      apply h2
      apply Kept.ite
      · with_reducible apply State.incR_kept
        exact hk
      · exact hk
    · rename_i z7 z8
      apply Kept.ite
      · apply Kept.ite
        · with_reducible apply writeBack_kept
          exact hk
        · with_reducible apply modCave_kept
          with_reducible apply writeBack_kept
          exact hk
      · exact hk
    · rename_i z9 z10 z11
      apply h2
      apply Kept.ite
      · with_reducible apply writeBack_kept
        exact hk
      · exact hk

theorem maintAdvance_kept {a' : State} {d : RSlot} {n : Nat} {s : State} (hk : Kept a' s) :
    Kept a' (maintAdvance d n s) := by
  unfold maintAdvance
  split
  · rename_i z0 z1
    exact hk
  · rename_i z2 z3 z4
    lift_lets
    intro x5
    clear_value x5
    intro x6
    clear_value x6
    intro x7
    clear_value x7
    intro x8
    have h9 : Kept a' x8 := by
      subst x8
      with_reducible apply Kept.foldl
      · intro t10 y11 h12
        with_reducible apply maintLine_kept
        exact h12
      · exact hk
    clear_value x8
    with_reducible apply modCave_kept
    exact h9

theorem maintRun_kept {a' : State} {d : RSlot} {s : State} (hk : Kept a' s) :
    Kept a' (maintRun d s) := by
  unfold maintRun
  apply Kept.ite
  · lift_lets
    intro x0
    have h1 : Kept a' x0.2 := by
      subst x0
      with_reducible apply Kept.fresh
      exact hk
    clear_value x0
    with_reducible apply maintAdvance_kept
    exact h1
  · exact hk

theorem maintStart_kept {a' : State} {d : RSlot} {op : Nat} {spare : Bool} {s : State} (hk : Kept a' s) :
    Kept a' (maintStart d op spare s) := by
  unfold maintStart
  apply Kept.ite
  · with_reducible apply raise_kept
    with_reducible apply State.incR_kept
    exact hk
  · apply Kept.ite
    · exact hk
    · with_reducible apply modCave_kept
      with_reducible apply State.wrR_kept
      exact hk

theorem maintIssue_kept {a' : State} {d : RSlot} {m : Maint} {s : State} (hk : Kept a' s) :
    Kept a' (maintIssue d m s) := by
  unfold maintIssue
  lift_lets
  intro x0
  clear_value x0
  intro x1
  clear_value x1
  apply Kept.ite
  · exact hk
  · with_reducible apply modCave_kept
    with_reducible apply Kept.foldl
    · intro t2 y3 h4
      with_reducible apply evictIssue_kept
      exact h4
    · exact hk

theorem maintDone_kept {a' : State} {d : RSlot} {s : State} (hk : Kept a' s) :
    Kept a' (maintDone d s) := by
  unfold maintDone
  split
  · rename_i z0 z1
    exact hk
  · rename_i z2 z3 z4
    lift_lets
    intro x5
    have h6 : Kept a' x5 := by
      subst x5
      with_reducible apply maintIssue_kept
      with_reducible apply maintAdvance_kept
      exact hk
    clear_value x5
    intro x7
    have h8 : Kept a' x7 := by
      subst x7
      with_reducible apply modCave_kept
      with_reducible apply State.wrR_kept
      exact h6
    clear_value x7
    apply Kept.ite
    · with_reducible apply State.wrR_kept
      exact h8
    · exact h8

theorem caveCtlWrite_kept {a' : State} {ts : List RSlot} {v : Word} {s : State} (hk : Kept a' s) :
    Kept a' (caveCtlWrite ts v s).1 := by
  unfold caveCtlWrite
  dsimp only
  with_reducible apply Kept.foldl
  · intro t0 y1 h2
    apply Kept.ite
    · apply Kept.ite
      · with_reducible apply caveEnableNow_kept
        exact h2
      · with_reducible apply raise_kept
        exact h2
    · apply Kept.ite
      · with_reducible apply raise_kept
        exact h2
      · exact h2
  · exact hk

theorem caveMaintWrite_kept {a' : State} {ts : List RSlot} {_rd : RegDef} {v : Word} {s : State} (hk : Kept a' s) :
    Kept a' (caveMaintWrite ts _rd v s).1 := by
  unfold caveMaintWrite
  dsimp only
  with_reducible apply Kept.foldl
  · intro t0 y1 h2
    apply Kept.ite
    · with_reducible apply raise_kept
      with_reducible apply State.incR_kept
      exact h2
    · apply Kept.ite
      · with_reducible apply maintStart_kept
        with_reducible apply State.wrR_kept
        with_reducible apply State.wrR_kept
        exact h2
      · with_reducible apply State.wrR_kept
        with_reducible apply State.wrR_kept
        exact h2
  · exact hk

theorem caveRangeWrite_kept {a' : State} {ts : List RSlot} {addr : Nat} {v : Word} {s : State} (hk : Kept a' s) :
    Kept a' (caveRangeWrite ts addr v s).1 := by
  unfold caveRangeWrite
  dsimp only
  with_reducible apply Kept.foldl
  · intro t0 y1 h2
    apply Kept.ite
    · with_reducible apply raise_kept
      with_reducible apply State.incR_kept
      exact h2
    · with_reducible apply State.wrR_kept
      exact h2
  · exact hk

theorem dropClean_kept {a' : State} {d : RSlot} {key : Nat} {s : State} (hk : Kept a' s) :
    Kept a' (dropClean d key s) := by
  unfold dropClean
  with_reducible apply raise_kept
  with_reducible apply modCave_kept
  with_reducible apply State.incR_kept
  exact hk

theorem fetchLine_kept {a' : State} {d : RSlot} {line : Nat} {s : State} (hk : Kept a' s) :
    Kept a' (fetchLine d line s).2.2 := by
  unfold fetchLine
  with_reducible apply bmemRead_kept
  exact hk

theorem missLine_kept {a' : State} {d : RSlot} {cls : Nat} {line : Nat} {alloc : Bool} {fetch : State → List Byte × Bool × State} {s : State} (hfetch : ∀ t, Kept a' t → Kept a' (fetch t).2.2) (hk : Kept a' s) :
    Kept a' (missLine d cls line alloc fetch s).2.2 := by
  unfold missLine
  split
  · rename_i z0 z1 z2
    apply Kept.ite_snd_snd
    · dsimp only
      exact hk
    · apply Kept.ite_snd_snd
      · dsimp only
        apply Kept.ite
        · with_reducible apply allocLine_kept
          exact hk
        · exact hk
      · dsimp only
        with_reducible apply allocLine_kept
        with_reducible apply modCave_kept
        exact hk
  · rename_i z3 z4
    lift_lets
    intro x5
    have h6 : Kept a' x5.2.2 := by
      subst x5
      apply hfetch
      exact hk
    clear_value x5
    apply Kept.ite_snd_snd
    · exact h6
    · dsimp only
      with_reducible apply allocLine_kept
      exact h6

theorem readLine_kept {a' : State} {d : RSlot} {cls : Nat} {line : Nat} {alloc : Bool} {fetch : State → List Byte × Bool × State} {s : State} (hfetch : ∀ t, Kept a' t → Kept a' (fetch t).2.2) (hk : Kept a' s) :
    Kept a' (readLine d cls line alloc fetch s).2.2 := by
  unfold readLine
  lift_lets
  intro x0
  have h1 : Kept a' x0 := by
    subst x0
    with_reducible apply checkPlru_kept
    exact hk
  clear_value x0
  apply Kept.ite_snd_snd
  · dsimp only
    with_reducible apply raise_kept
    exact h1
  · split
    · rename_i z2 z3 z4 z5
      apply Kept.ite_snd_snd
      · dsimp only
        with_reducible apply raise_kept
        exact h1
      · apply Kept.ite_snd_snd
        · with_reducible apply missLine_kept
          · intro t6 h7
            apply hfetch
            exact h7
          · with_reducible apply dropClean_kept
            exact h1
        · dsimp only
          with_reducible apply touchWay_kept
          exact h1
    · rename_i z8 z9
      with_reducible apply missLine_kept
      · intro t10 h11
        apply hfetch
        exact h11
      · exact h1

theorem countLookup_kept {a' : State} {d : RSlot} {line : Nat} {s : State} (hk : Kept a' s) :
    Kept a' (countLookup d line s) := by
  unfold countLookup
  with_reducible apply State.incR_kept
  exact hk

end Sys2Proof.Machine
end

