-- ==== Sys2Proof/Laws/KeptOps4.lean ====
section
/-! SUPPORT. What the operations keep (the relation of Laws/Kept.lean), one lemma each: CaveOps, CmdOps, Command, Cult, CultOps, Fault, Finvik, FlashOps, InStep, InStepOps, Ops, PortOps, Recovery, Setup, XlatOps. -/

set_option linter.all false

namespace Sys2Proof.Machine

theorem caveReadLine_kept {a' : State} {d : RSlot} {cls : Nat} {line : Nat} {alloc : Bool} {s : State} (hk : Kept a' s) :
    Kept a' (caveReadLine d cls line alloc s).2.2 := by
  unfold caveReadLine
  apply Kept.ite_snd_snd
  · with_reducible apply readLine_kept
    · intro t0 h1
      with_reducible apply fetchLine_kept
      exact h1
    · with_reducible apply countLookup_kept
      with_reducible apply maintRun_kept
      exact hk
  · with_reducible apply fetchLine_kept
    exact hk

theorem caveReadLines_kept {a' : State} {d : RSlot} {cls : Nat} {alloc : Bool} {p3 : Nat} {p4 : Nat} {p5 : State} (hk : Kept a' p5) :
    Kept a' (caveReadLines d cls alloc p3 p4 p5).2.2 := by
  induction p4 generalizing p3 p5 with
  | zero => exact hk
  | succ n ih => exact ih (caveReadLine_kept hk)

theorem caveRead_kept {a' : State} {d : RSlot} {who : AccWho} {addr : Nat} {len : Nat} {noalloc : Bool} {s : State} (hk : Kept a' s) :
    Kept a' (caveRead d who addr len noalloc s).2.2 := by
  unfold caveRead
  lift_lets
  intro x0
  clear_value x0
  intro x1
  have h2 : Kept a' x1.2.2 := by
    subst x1
    with_reducible apply caveReadLines_kept
    exact hk
  clear_value x1
  dsimp only
  exact h2

theorem writeLine_kept {a' : State} {d : RSlot} {cls : Nat} {line : Nat} {off : Nat} {alloc : Bool} {bytes : List Byte} {s : State} (hk : Kept a' s) :
    Kept a' (writeLine d cls line off alloc bytes s) := by
  unfold writeLine
  lift_lets
  intro x0
  clear_value x0
  intro x1
  have h2 : ∀ y0, Kept a' y0 → Kept a' (x1 y0) := by
    subst x1
    intro t3 h4
    beta_reduce
    split
    · rename_i z5 z6 z7
      apply Kept.ite
      · with_reducible apply modCave_kept
        exact h4
      · with_reducible apply allocLine_kept
        with_reducible apply modCave_kept
        exact h4
    · rename_i z8 z9
      apply Kept.ite
      · with_reducible apply allocLine_kept
        exact h4
      · with_reducible apply bmemWrite_kept
        exact h4
  clear_value x1
  intro x10
  have h11 : Kept a' x10 := by
    subst x10
    with_reducible apply checkPlru_kept
    exact hk
  clear_value x10
  apply Kept.ite
  · with_reducible apply raise_kept
    exact h11
  · split
    · rename_i z12 z13 z14 z15
      apply Kept.ite
      · apply h2
        with_reducible apply dropClean_kept
        exact h11
      · with_reducible apply touchWay_kept
        with_reducible apply modCave_kept
        exact h11
    · rename_i z16 z17
      apply h2
      exact h11

theorem caveWrite_kept {a' : State} {d : RSlot} {who : AccWho} {addr : Nat} {data : List Byte} {noalloc : Bool} {s : State} (hk : Kept a' s) :
    Kept a' (caveWrite d who addr data noalloc s) := by
  unfold caveWrite
  lift_lets
  intro x0
  clear_value x0
  with_reducible apply Kept.foldl
  · intro t1 y2 h3
    lift_lets
    intro x4
    clear_value x4
    intro x5
    clear_value x5
    intro x6
    clear_value x6
    apply Kept.ite
    · with_reducible apply writeLine_kept
      with_reducible apply countLookup_kept
      with_reducible apply maintRun_kept
      exact h3
    · with_reducible apply bmemWrite_kept
      exact h3
  · exact hk

theorem plantCaveParity_kept {a' : State} {d : RSlot} {addr : Nat} {s : State} (hk : Kept a' s) :
    ∀ t, (plantCaveParity d addr s) = some t → Kept a' t := by
  unfold plantCaveParity
  intro t ht
  simp only [Option.map_eq_some_iff] at ht
  obtain ⟨q, -, rfl⟩ := ht
  exact modCave_kept hk

theorem takeDescs_kept {a' : State} {p : Nat} {p1 : List (List Byte)} {p2 : State} (hk : Kept a' p2) :
    Kept a' (takeDescs p p1 p2) := by
  induction p1 generalizing p2 with
  | nil => exact hk
  | cons b l ih => exact ih (wrAll_kept (Kept.upd (s := p2) rfl rfl rfl rfl rfl rfl rfl rfl rfl rfl hk))

theorem grant_kept {a' : State} {descs : List (List Byte)} {s : State} (hk : Kept a' s) :
    Kept a' (grant descs s) := by
  unfold grant
  split
  · rename_i z0 z1
    exact hk
  · rename_i z2 z3 z4 z5 z6
    apply Kept.ite
    · exact hk
    · lift_lets
      intro x7
      clear_value x7
      intro x8
      have h9 : Kept a' x8 := by
        subst x8
        with_reducible apply takeDescs_kept
        with_reducible refine Kept.mk' rfl rfl rfl rfl rfl rfl rfl rfl rfl rfl ?_
        exact hk
      clear_value x8
      intro x10
      clear_value x10
      intro x11
      clear_value x11
      intro x12
      have h13 : Kept a' x12 := by
        subst x12
        split
        · rename_i z14 z15
          lift_lets
          intro x16
          have h17 : Kept a' x16 := by
            subst x16
            with_reducible refine Kept.mk' rfl rfl rfl rfl rfl rfl rfl rfl rfl rfl ?_
            exact h9
          clear_value x16
          with_reducible refine Kept.mk' rfl rfl rfl rfl rfl rfl rfl rfl rfl rfl ?_
          exact h17
        · rename_i z18
          exact h9
      clear_value x12
      with_reducible apply showSched_kept
      with_reducible apply showPort_kept
      with_reducible apply incAll_kept
      exact h13

theorem makeVersions_kept {a' : State} {c : Cmd} {v : Nat} {lo : Nat} {n : Nat} {s : State} (hk : Kept a' s) :
    Kept a' (makeVersions c v lo n s) := by
  unfold makeVersions
  lift_lets
  intro x0
  clear_value x0
  with_reducible refine Kept.mk' rfl rfl rfl rfl rfl rfl rfl rfl rfl rfl ?_
  exact hk

theorem makeTrims_kept {a' : State} {c : Cmd} {s : State} (hk : Kept a' s) :
    Kept a' (makeTrims c s) := by
  unfold makeTrims
  lift_lets
  intro x0
  clear_value x0
  intro x1
  clear_value x1
  intro x2
  clear_value x2
  with_reducible refine Kept.mk' rfl rfl rfl rfl rfl rfl rfl rfl rfl rfl ?_
  exact hk

theorem admitRead_kept {a' : State} {c : Cmd} {s : State} (hk : Kept a' s) :
    Kept a' (admitRead c s) := by
  unfold admitRead
  with_reducible apply modCmd_kept
  with_reducible apply admitCmd_kept
  exact hk

theorem admitWrite_kept {a' : State} {c : Cmd} {s : State} (hk : Kept a' s) :
    Kept a' (admitWrite c s) := by
  unfold admitWrite
  with_reducible apply makeVersions_kept
  with_reducible apply admitCmd_kept
  exact hk

theorem releaseBand_kept {a' : State} {v : Nat} {k : Nat} {s : State} (hk : Kept a' s) :
    Kept a' (releaseBand v k s) := by
  unfold releaseBand
  split
  · rename_i z0 z1
    exact hk
  · rename_i z2 z3 z4
    apply Kept.ite
    · with_reducible apply journal_kept
      with_reducible apply modT_kept
      with_reducible apply abandonReloc_kept
      exact hk
    · with_reducible apply freeSlot_kept
      with_reducible apply dropBlocks_kept
      exact hk

theorem ringAdvance_kept {a' : State} {v : Nat} {wp : Nat} {p2 : Nat} {p3 : State} (hk : Kept a' p3) :
    Kept a' (ringAdvance v wp p2 p3) := by
  induction p2 generalizing p3 with
  | zero => exact hk
  | succ n ih =>
    unfold ringAdvance
    split
    · exact hk
    · exact Kept.ite (ih (modT_kept (releaseBand_kept hk))) hk

theorem openBand_kept {a' : State} {v : Nat} {k : Nat} {s : State} (hk : Kept a' s) :
    ∀ t, (openBand v k s) = some t → Kept a' t := by
  have hm : ∀ (g : Nat) (o : Option Nat), Kept a' (match o with
      | some a => moveQuota v a g s
      | none => s) := by
    intro g o
    exact match o with
      | some a => moveQuota_kept hk
      | none => hk
  unfold openBand
  intro t ht
  split at ht
  · exact absurd ht (by simp)
  · rename_i g borrow hb
    have h1 := hm g borrow
    clear hb
    dsimp only at ht
    split at ht
    · exact absurd ht (by simp)
    · rw [Option.some.injEq] at ht
      subst ht
      exact takeSlot_kept (modT_kept h1)

theorem openBands_kept {a' : State} {v : Nat} {p1 : Nat} {p2 : Nat} {p3 : State} (hk : Kept a' p3) :
    ∀ t, (openBands v p1 p2 p3) = some t → Kept a' t := by
  induction p2 generalizing p1 p3 with
  | zero => intro t ht; cases ht; exact hk
  | succ n ih =>
    intro t ht
    unfold openBands at ht
    split at ht
    · exact ih hk t ht
    · rw [Option.bind_eq_some_iff] at ht
      obtain ⟨u, hu, ht⟩ := ht
      exact ih (openBand_kept hk u hu) t ht

theorem showXlat_kept {a' : State} {s : State} (hk : Kept a' s) :
    Kept a' (showXlat s) := by
  unfold showXlat
  lift_lets
  intro x0
  have h1 : Kept a' x0 := by
    subst x0
    with_reducible apply Kept.foldl
    · intro t2 y3 h4
      lift_lets
      intro x5
      clear_value x5
      intro x6
      have h7 : Kept a' x6 := by
        subst x6
        with_reducible apply wrAll_kept
        exact h4
      clear_value x6
      intro x8
      have h9 : Kept a' x8 := by
        subst x8
        with_reducible apply wrAll_kept
        exact h7
      clear_value x8
      intro x10
      have h11 : Kept a' x10 := by
        subst x10
        with_reducible apply wrAll_kept
        exact h9
      clear_value x10
      with_reducible apply wrAll_kept
      exact h11
    · exact hk
  clear_value x0
  intro x12
  have h13 : Kept a' x12 := by
    subst x12
    with_reducible apply wrAll_kept
    exact h1
  clear_value x12
  intro x14
  have h15 : Kept a' x14 := by
    subst x14
    with_reducible apply wrAll_kept
    exact h13
  clear_value x14
  with_reducible apply wrAll_kept
  with_reducible apply wrAll_kept
  exact h15

theorem admitAppend_kept {a' : State} {c : Cmd} {s : State} (hk : Kept a' s) :
    Kept a' (admitAppend c s) := by
  unfold admitAppend
  split
  · rename_i z0 z1
    exact hk
  · rename_i z2 z3 z4
    lift_lets
    intro x5
    clear_value x5
    intro x6
    have h7 : Kept a' x6 := by
      subst x6
      with_reducible apply ringAdvance_kept
      exact hk
    clear_value x6
    split
    · rename_i z8 z9
      apply Kept.ite
      · exact h7
      · with_reducible apply complete_kept
        exact hk
    · rename_i z10 z11 z12
      lift_lets
      intro x13
      have h14 : Kept a' x13 := by
        subst x13
        with_reducible apply modT_kept
        with_reducible refine openBands_kept ?_ _ z12
        exact h7
      clear_value x13
      intro x15
      clear_value x15
      intro x16
      have h17 : Kept a' x16 := by
        subst x16
        with_reducible refine Kept.mk' rfl rfl rfl rfl rfl rfl rfl rfl rfl rfl ?_
        exact h14
      clear_value x16
      intro x18
      have h19 : Kept a' x18 := by
        subst x18
        with_reducible apply modCmd_kept
        with_reducible apply admitCmd_kept
        exact h17
      clear_value x18
      with_reducible apply showXlat_kept
      with_reducible apply makeVersions_kept
      exact h19

theorem admitFence_kept {a' : State} {c : Cmd} {s : State} (hk : Kept a' s) :
    Kept a' (admitFence c s) := by
  unfold admitFence
  lift_lets
  intro x0
  clear_value x0
  intro x1
  clear_value x1
  intro x2
  clear_value x2
  with_reducible apply modCmd_kept
  with_reducible apply admitCmd_kept
  exact hk

theorem admitFlush_kept {a' : State} {c : Cmd} {s : State} (hk : Kept a' s) :
    Kept a' (admitFlush c s) := by
  unfold admitFlush
  lift_lets
  intro x0
  clear_value x0
  with_reducible apply modCmd_kept
  with_reducible apply admitCmd_kept
  exact hk

theorem trimBands_kept {a' : State} {v : Nat} {last : Nat} {p2 : Nat} {p3 : Nat} {p4 : State} (hk : Kept a' p4) :
    Kept a' (trimBands v last p2 p3 p4).2 := by
  induction p2 generalizing p3 p4 with
  | zero => exact hk
  | succ n ih =>
    unfold trimBands
    split
    · exact hk
    · split
      · exact ih (modT_kept (releaseBand_kept hk))
      · exact hk

theorem admitTrim_kept {a' : State} {c : Cmd} {s : State} (hk : Kept a' s) :
    Kept a' (admitTrim c s) := by
  unfold admitTrim
  split
  · rename_i z0 z1
    exact hk
  · rename_i z2 z3 z4
    apply Kept.ite
    · lift_lets
      intro x5
      clear_value x5
      intro x6
      have h7 : Kept a' x6.2 := by
        subst x6
        with_reducible apply trimBands_kept
        with_reducible apply admitCmd_kept
        exact hk
      clear_value x6
      with_reducible apply showXlat_kept
      with_reducible apply modCmd_kept
      exact h7
    · with_reducible apply makeTrims_kept
      with_reducible apply admitCmd_kept
      exact hk

theorem refreshCopies_kept {a' : State} {s : State} (hk : Kept a' s) :
    Kept a' (refreshCopies s) := by
  unfold refreshCopies
  with_reducible apply Kept.foldl
  · intro t0 y1 h2
    with_reducible refine Kept.mk' rfl rfl rfl rfl rfl rfl rfl rfl rfl rfl ?_
    exact h2
  · exact hk

theorem admitCopy_kept {a' : State} {c : Cmd} {s : State} (hk : Kept a' s) :
    Kept a' (admitCopy c s) := by
  unfold admitCopy
  lift_lets
  intro x0
  have h1 : Kept a' x0 := by
    subst x0
    with_reducible apply modCmd_kept
    with_reducible apply admitCmd_kept
    exact hk
  clear_value x0
  with_reducible apply refreshCopies_kept
  with_reducible apply makeVersions_kept
  exact h1

theorem admitAbort_kept {a' : State} {c : Cmd} {s : State} (hk : Kept a' s) :
    Kept a' (admitAbort c s) := by
  unfold admitAbort
  split
  · rename_i z0 z1
    with_reducible apply complete_kept
    with_reducible apply admitCmd_kept
    exact hk
  · rename_i z2 z3 z4
    lift_lets
    intro x5
    have h6 : Kept a' x5 := by
      subst x5
      with_reducible apply modCmd_kept
      with_reducible apply admitCmd_kept
      exact hk
    clear_value x5
    intro x7
    have h8 : Kept a' x7 := by
      subst x7
      with_reducible apply withdraw_kept
      with_reducible apply modCmd_kept
      exact h6
    clear_value x7
    with_reducible apply inStep_kept
    · intro y9 t10 h11
      with_reducible apply Kept.foldl
      · intro t12 y13 h14
        apply Kept.ite
        · with_reducible apply postEvent_kept
          exact h14
        · exact h14
      · exact h11
    · exact h8

theorem finish_kept {a' : State} {c : Cmd} {status : Nat} {s : State} (hk : Kept a' s) :
    Kept a' (finish c status s) := by
  unfold finish
  split
  · rename_i z0 z1
    with_reducible apply recordTrim_kept
    exact hk
  · rename_i z2 z3
    apply Kept.ite
    · with_reducible apply writeJournal_kept
      exact hk
    · exact hk
  · rename_i z4 z5
    apply Kept.ite
    · with_reducible apply writeJournal_kept
      exact hk
    · with_reducible apply withdraw_kept
      exact hk
  · rename_i z6 z7
    lift_lets
    intro x8
    have h9 : Kept a' x8 := by
      subst x8
      apply Kept.ite
      · with_reducible apply writeJournal_kept
        exact hk
      · with_reducible apply withdraw_kept
        exact hk
    clear_value x8
    apply Kept.ite
    · with_reducible apply inStep_kept
      · intro y10 t11 h12
        with_reducible apply hostWrite_kept
        exact h12
      · exact h9
    · exact h9
  · rename_i z13 z14
    lift_lets
    intro x15
    have h16 : Kept a' x15 := by
      subst x15
      apply Kept.ite
      · with_reducible refine Kept.mk' rfl rfl rfl rfl rfl rfl rfl rfl rfl rfl ?_
        exact hk
      · exact hk
    clear_value x15
    apply Kept.ite
    · with_reducible apply writeJournal_kept
      exact h16
    · with_reducible apply withdraw_kept
      exact h16
  · rename_i z17 z18 z19 z20 z21 z22
    exact hk

theorem tryComplete_kept {a' : State} {port : Nat} {tag : Nat} {s : State} (hk : Kept a' s) :
    Kept a' (tryComplete port tag s) := by
  unfold tryComplete
  split
  · rename_i z0 z1
    exact hk
  · rename_i z2 z3 z4
    split
    · rename_i z5 z6
      exact hk
    · rename_i z7 z8 z9 z10
      with_reducible apply complete_kept
      with_reducible apply finish_kept
      exact hk

theorem wholeNow_kept {a' : State} {uid : Nat} {s : State} (hk : Kept a' s) :
    Kept a' (wholeNow uid s) := by
  unfold wholeNow
  split
  · rename_i z0 z1
    exact hk
  · rename_i z2 z3 z4
    lift_lets
    intro x5
    clear_value x5
    intro x6
    clear_value x6
    with_reducible apply refreshCopies_kept
    with_reducible refine Kept.mk' rfl rfl rfl rfl rfl rfl rfl rfl rfl rfl ?_
    exact hk

theorem storeMoved_kept {a' : State} {uid : Nat} {isMeta : Bool} {off : Nat} {bytes : List Byte} {s : State} (hk : Kept a' s) :
    Kept a' (storeMoved uid isMeta off bytes s) := by
  unfold storeMoved
  split
  · rename_i z0 z1
    exact hk
  · rename_i z2 z3 z4
    lift_lets
    intro x5
    clear_value x5
    with_reducible refine Kept.mk' rfl rfl rfl rfl rfl rfl rfl rfl rfl rfl ?_
    exact hk

theorem refetch_kept {a' : State} {uid : Nat} {ks : List Nat} {s : State} (hk : Kept a' s) :
    Kept a' (refetch uid ks s) := by
  unfold refetch
  with_reducible apply modCmd_kept
  exact hk

theorem failCmd_kept {a' : State} {uid : Nat} {status : Nat} {info : Nat} {s : State} (hk : Kept a' s) :
    Kept a' (failCmd uid status info s) := by
  unfold failCmd
  with_reducible apply modCmd_kept
  exact hk

theorem noteMoved_kept {a' : State} {uid : Nat} {isMeta : Bool} {off : Nat} {n : Nat} {poisoned : Bool} {s : State} (hk : Kept a' s) :
    Kept a' (noteMoved uid isMeta off n poisoned s) := by
  unfold noteMoved
  lift_lets
  intro x0
  have h1 : Kept a' x0 := by
    subst x0
    apply Kept.ite
    · with_reducible apply failCmd_kept
      exact hk
    · exact hk
  clear_value x0
  intro x2
  have h3 : Kept a' x2 := by
    subst x2
    with_reducible apply modCmd_kept
    exact h1
  clear_value x2
  with_reducible apply showSched_kept
  with_reducible apply wholeNow_kept
  exact h3

theorem admitOp_kept {a' : State} {p : Nat} {op : Nat} {f : Cmd → State → State} {s : State} (hf : ∀ y0 t, Kept a' t → Kept a' (f y0 t)) (hk : Kept a' s) :
    Kept a' (admitOp p op f s) := by
  unfold admitOp
  with_reducible apply settle_kept
  with_reducible apply workArrived_kept
  with_reducible apply admitWith_kept
  · intro y0 t1 h2
    apply hf
    exact h2
  · exact hk

theorem savedFault_kept {a' : State} {e : Eng} {cpc : Nat} {s : State} (hk : Kept a' s) :
    Kept a' (savedFault e cpc s) := by
  unfold savedFault
  split
  · rename_i z0 z1 z2
    with_reducible apply raise_kept
    exact hk
  · rename_i z3 z4
    with_reducible refine Kept.mk' rfl rfl rfl rfl rfl rfl rfl rfl rfl rfl ?_
    exact hk

theorem syncFault_kept {a' : State} {e : Eng} {cause : Nat} {addr : Nat} {s : State} (hk : Kept a' s) :
    Kept a' (syncFault e cause addr s) := by
  obtain ⟨hA, hB⟩ : (∀ t, Kept a' t → Kept a' (match e with | .rind d i => useRung d 2 (raise d 0x098 [i, cause, addr] t) | .curd _ => t)) ∧
      (∀ (p : Option Nat) (l : List Nat) t, Kept a' t → Kept a' (match e with
        | .rind d i => { raise d 0x09A [i] t with todo := (raise d 0x09A [i] t).todo ++ [.stopped d i (p.bind (portUnit none)) l] }
        | .curd _ => t)) := by
    cases e
    · exact ⟨fun t h => useRung_kept (raise_kept h), fun p l t h =>
        Kept.upd (s := raise _ 0x09A [_] t) rfl rfl rfl rfl rfl rfl rfl rfl rfl rfl (raise_kept h)⟩
    · exact ⟨fun t h => h, fun p l t h => h⟩
  have h1 := hA _ (traceRec_kept (e := e) (kind := 4) (addr := addr) (data := cause) (State.wr_kept (die := e.die)
    (f := e.pick R.CULT_SFAULT_ADDR R.CDIE_FCSFAULT_ADDR) (v := addr) (State.wr_kept (die := e.die)
    (f := e.pick R.CULT_SFAULT_ENGINE R.CDIE_FCSFAULT_ENGINE) (v := if e.isCurd then 0 else e.no) (State.wr_kept (die := e.die)
    (f := e.pick R.CULT_SFAULT_CAUSE R.CDIE_FCSFAULT_CAUSE) (v := cause) (State.inc_kept (die := e.die) (f := e.fAbandon) (n := 1) hk)))))
  unfold syncFault
  refine Kept.ite ?_ ?_
  · exact enterVector_kept (modEng_kept (hB _ _ _ (traceRec_kept (State.inc_kept h1))))
  · exact traceRec_kept (setEngState_kept (setPc_kept (modEng_kept (Kept.ite (savedFault_kept h1) h1))))

theorem takeEvent_kept {a' : State} {e : Eng} {v : EngEvent} {pc : Nat} {next : Nat} {s : State} (hk : Kept a' s) :
    Kept a' (takeEvent e v pc next s) := by
  unfold takeEvent
  apply Kept.ite
  · with_reducible apply syncFault_kept
    exact hk
  · lift_lets
    intro x0
    have h1 : Kept a' x0 := by
      subst x0
      with_reducible apply modEng_kept
      exact hk
    clear_value x0
    intro x2
    have h3 : Kept a' x2 := by
      subst x2
      with_reducible apply State.wr_kept
      exact h1
    clear_value x2
    intro x4
    have h5 : Kept a' x4 := by
      subst x4
      with_reducible apply traceRec_kept
      exact h3
    clear_value x4
    with_reducible apply enterVector_kept
    exact h5

theorem endWord_kept {a' : State} {e : Eng} {pc : Nat} {next : Nat} {m : Micro} {s : State} (hk : Kept a' s) :
    Kept a' (endWord e pc next m s) := by
  unfold endWord
  lift_lets
  intro x0
  clear_value x0
  intro x1
  clear_value x1
  intro x2
  have h3 : ∀ y0 y1, Kept a' y1 → Kept a' (x2 y0 y1) := by
    subst x2
    intro y4 t5 h6
    beta_reduce
    apply Kept.ite
    · with_reducible apply commitAt_kept
      exact h6
    · exact h6
  clear_value x2
  intro x7
  have h8 : Kept a' x7 := by
    subst x7
    split
    · rename_i z9 z10 z11 z12
      with_reducible apply takeEvent_kept
      apply h3
      with_reducible apply modEng_kept
      exact hk
    · rename_i z13 z14 z15
      with_reducible apply enterVector_kept
      with_reducible apply modEng_kept
      exact hk
    · rename_i z16 z17 z18 z19
      with_reducible apply takeEvent_kept
      apply h3
      exact hk
    · rename_i z20 z21 z22
      with_reducible apply setEngState_kept
      with_reducible apply setPc_kept
      with_reducible apply modEng_kept
      apply h3
      exact hk
    · rename_i z23 z24 z25 z26 z27
      with_reducible apply takeEvent_kept
      apply h3
      with_reducible apply setPc_kept
      exact hk
    · rename_i z28 z29 z30 z31
      apply h3
      with_reducible apply setPc_kept
      exact hk
  clear_value x7
  split
  · rename_i z32 z33
    with_reducible apply syncFault_kept
    exact h8
  · rename_i z34
    exact h8

theorem finishWord_kept {a' : State} {e : Eng} {pc : Nat} {m : Micro} {s : State} (hk : Kept a' s) :
    Kept a' (finishWord e pc m s) := by
  unfold finishWord
  lift_lets
  intro x0
  clear_value x0
  intro x1
  clear_value x1
  intro x2
  clear_value x2
  intro x3
  clear_value x3
  intro x4
  clear_value x4
  intro x5
  clear_value x5
  intro x6
  clear_value x6
  intro x7
  clear_value x7
  intro x8
  clear_value x8
  intro x9
  clear_value x9
  intro x10
  clear_value x10
  intro x11
  clear_value x11
  intro x12
  clear_value x12
  intro x13
  clear_value x13
  intro x14
  clear_value x14
  intro x15
  have h16 : Kept a' x15 := by
    subst x15
    with_reducible apply setEngState_kept
    with_reducible apply modEng_kept
    exact hk
  clear_value x15
  intro x17
  intro x18
  clear_value x18
  intro x19
  have h20 : Kept a' x19 := by
    subst x19
    apply Kept.ite
    · with_reducible apply traceRec_kept
      exact h16
    · exact h16
  clear_value x19
  apply Kept.ite
  · with_reducible apply syncFault_kept
    apply Kept.ite
    · with_reducible apply commitAt_kept
      exact hk
    · exact hk
  · with_reducible apply endWord_kept
    exact h20

theorem deliver_kept {a' : State} {e : Eng} {l : Latch} {s : State} (hk : Kept a' s) :
    Kept a' (deliver e l s) := by
  unfold deliver
  split
  · rename_i z0 z1
    exact hk
  · rename_i z2 z3 z4
    apply Kept.ite
    · exact hk
    · lift_lets
      intro x5
      clear_value x5
      intro x6
      have h7 : Kept a' x6 := by
        subst x6
        with_reducible apply modEng_kept
        exact hk
      clear_value x6
      intro x8
      have h9 : Kept a' x8 := by
        subst x8
        apply Kept.ite
        · with_reducible apply traceRec_kept
          exact h7
        · exact h7
      clear_value x8
      intro x10
      have h11 : Kept a' x10 := by
        subst x10
        apply Kept.ite
        · with_reducible apply modEng_kept
          exact h9
        · exact h9
      clear_value x10
      apply Kept.ite
      · with_reducible apply syncFault_kept
        exact h11
      · split
        · rename_i z12 z13
          exact h11
        · rename_i z14 z15 z16
          lift_lets
          intro x17
          clear_value x17
          apply Kept.ite
          · exact h11
          · with_reducible apply finishWord_kept
            exact h11

theorem answer_kept {a' : State} {e : Eng} {port : Nat} {v : BitVec 64} {ok : Bool} {s : State} (hk : Kept a' s) :
    Kept a' (answer e port v ok s) := by
  unfold answer
  with_reducible apply Kept.emit
  with_reducible apply deliver_kept
  exact hk

theorem reply_kept {a' : State} {e : Eng} {port : Nat} {op : Nat} {v : BitVec 64} {ok : Bool} {s : State} (hk : Kept a' s) :
    Kept a' (reply e port op v ok s) := by
  unfold reply
  apply Kept.ite
  · with_reducible apply answer_kept
    exact hk
  · exact hk

theorem answerAny_kept {a' : State} {d : RSlot} {port : Nat} {op : Nat} {v : BitVec 64} {ok : Bool} {s : State} (hk : Kept a' s) :
    Kept a' (answerAny d port op v ok s) := by
  unfold answerAny
  with_reducible apply Kept.foldl
  · intro t0 y1 h2
    with_reducible apply reply_kept
    exact h2
  · exact hk

theorem generateCompletion_kept {a' : State} {port : Nat} {tag : Nat} {s : State} (hk : Kept a' s) :
    Kept a' (generateCompletion port tag s) := by
  unfold generateCompletion
  split
  · rename_i z0 z1
    exact hk
  · rename_i z2 z3 z4
    apply Kept.ite
    · with_reducible apply inStep_kept
      · intro y5 t6 h7
        with_reducible apply answerAny_kept
        exact h7
      · with_reducible apply tryComplete_kept
        exact hk
    · exact hk

theorem takeOp_kept {a' : State} {g : Nat} {o : MediaOp} {s : State} (hk : Kept a' s) :
    Kept a' (takeOp g o s) := by
  unfold takeOp
  lift_lets
  intro x0
  have h1 : Kept a' x0 := by
    subst x0
    apply Kept.ite
    · with_reducible refine Kept.mk' rfl rfl rfl rfl rfl rfl rfl rfl rfl rfl ?_
      exact hk
    · with_reducible apply modCmd_kept
      exact hk
  clear_value x0
  with_reducible apply modXlat_kept
  exact h1

theorem timerEvent_kept {a' : State} {e : Eng} {s : State} (hk : Kept a' s) :
    Kept a' (timerEvent e s) := by
  unfold timerEvent
  apply Kept.ite
  · with_reducible apply postEvent_kept
    with_reducible apply modEng_kept
    exact hk
  · exact hk

theorem messageEseq_kept {a' : State} {e : Eng} {slot : Nat} {cls : Nat} {s : State} (hk : Kept a' s) :
    Kept a' (messageEseq e slot cls s).2 := by
  unfold messageEseq
  split
  · rename_i z0 z1 z2
    apply Kept.ite_snd
    · with_reducible apply takeEseq_kept
      exact hk
    · apply Kept.ite_snd
      · lift_lets
        intro x3
        have h4 : Kept a' x3.2 := by
          subst x3
          with_reducible apply Kept.fresh
          exact hk
        clear_value x3
        dsimp only
        exact h4
      · dsimp only
        exact hk
  · rename_i z5 z6
    dsimp only
    exact hk

theorem runWord_kept {a' : State} {nac : Nat} {e : Eng} {s : State} (hk : Kept a' s) :
    Kept a' (runWord nac e s) := by
  unfold runWord
  lift_lets
  intro x0
  clear_value x0
  intro x1
  clear_value x1
  intro x2
  clear_value x2
  intro x3
  clear_value x3
  intro x4
  clear_value x4
  intro x5
  clear_value x5
  intro x6
  have h7 : ∀ y0, Kept a' y0 → Kept a' (x6 y0) := by
    subst x6
    intro t8 h9
    beta_reduce
    split
    · rename_i z10 z11 z12
      with_reducible apply Kept.modRind
      · intro y13 y14
        exact y14
      · exact h9
    · rename_i z15 z16
      with_reducible apply Kept.modCurd
      · intro y17 y18
        exact y18
      · exact h9
  clear_value x6
  intro x19
  have h20 : Kept a' x19 := by
    subst x19
    apply Kept.ite
    · apply h7
      with_reducible apply State.inc_kept
      exact hk
    · exact hk
  clear_value x19
  intro x21
  clear_value x21
  intro x22
  have h23 : Kept a' x22 := by
    subst x22
    with_reducible apply modEng_kept
    exact h20
  clear_value x22
  apply Kept.ite
  · exact hk
  · apply Kept.ite
    · split
      · rename_i z24 z25 z26
        with_reducible apply takeEvent_kept
        exact hk
      · rename_i z27 z28
        exact hk
    · apply Kept.ite
      · split
        · rename_i z29 z30 z31
          with_reducible apply raise_kept
          exact hk
        · rename_i z32 z33
          with_reducible refine Kept.mk' rfl rfl rfl rfl rfl rfl rfl rfl rfl rfl ?_
          exact hk
      · apply Kept.ite
        · with_reducible apply syncFault_kept
          exact h20
        · apply Kept.ite
          · with_reducible apply syncFault_kept
            exact h20
          · apply Kept.ite
            · with_reducible apply setEngState_kept
              exact h20
            · apply Kept.ite
              · with_reducible apply setEngState_kept
                with_reducible apply modEng_kept
                exact h23
              · with_reducible apply finishWord_kept
                exact h23

theorem drainReq_kept {a' : State} {e : Eng} {port : Nat} {s : State} (hk : Kept a' s) :
    Kept a' (drainReq e port s) := by
  unfold drainReq
  with_reducible apply deliver_kept
  exact hk

theorem drainEngine_kept {a' : State} {d : RSlot} {e : Nat} {p : Nat} {s : State} (hk : Kept a' s) :
    Kept a' (drainEngine d e p s) := by
  unfold drainEngine
  with_reducible apply drainReq_kept
  exact hk

theorem drainFormatter_kept {a' : State} {g : Nat} {p : Nat} {s : State} (hk : Kept a' s) :
    Kept a' (drainFormatter g p s) := by
  unfold drainFormatter
  with_reducible apply drainReq_kept
  exact hk

theorem plantWithhold_kept {a' : State} {d : RSlot} {eng : Nat} {port : Nat} {s : State} (hk : Kept a' s) :
    ∀ t, (plantWithhold d eng port s) = some t → Kept a' t := by
  unfold plantWithhold
  intro t ht
  split at ht
  · rw [Option.some.injEq] at ht
    subst ht
    exact modEng_kept hk
  · exact absurd ht (by simp)

theorem modIsland_kept {a' : State} {d : RSlot} {f : Island → Island} {s : State} (hk : Kept a' s) :
    Kept a' (modIsland d f s) := by
  unfold modIsland
  with_reducible apply Kept.modRind
  · intro y0 y1
    exact y1
  · exact hk

theorem leaveFault_kept {a' : State} {d : RSlot} {s : State} (hk : Kept a' s) :
    Kept a' (leaveFault d s) := by
  unfold leaveFault
  lift_lets
  intro x0
  clear_value x0
  intro x1
  clear_value x1
  intro x2
  have h3 : Kept a' x2 := by
    subst x2
    with_reducible apply State.incR_kept
    with_reducible apply State.wrR_kept
    exact hk
  clear_value x2
  apply Kept.ite
  · with_reducible apply modIsland_kept
    with_reducible apply State.wrR_kept
    exact hk
  · apply Kept.ite
    · with_reducible apply State.wrR_kept
      exact hk
    · with_reducible apply State.wrR_kept
      with_reducible apply modIsland_kept
      exact h3

theorem unlatch_kept {a' : State} {d : RSlot} {s : State} (hk : Kept a' s) :
    Kept a' (unlatch d s) := by
  unfold unlatch
  apply Kept.ite
  · lift_lets
    intro x0
    have h1 : Kept a' x0 := by
      subst x0
      with_reducible apply modIsland_kept
      with_reducible apply State.wrR_kept
      with_reducible apply State.wrR_kept
      exact hk
    clear_value x0
    apply Kept.ite
    · with_reducible apply leaveFault_kept
      exact h1
    · exact h1
  · exact hk

theorem abandonCloseOut_kept {a' : State} {s : State} (hk : Kept a' s) :
    Kept a' (abandonCloseOut s) := by
  unfold abandonCloseOut
  apply Kept.ite
  · with_reducible apply finishReinit_kept
    lift_lets
    intro x0
    have h1 : Kept a' x0 := by
      subst x0
      with_reducible apply raiseAll_kept
      exact hk
    clear_value x0
    with_reducible refine Kept.mk' rfl rfl rfl rfl rfl rfl rfl rfl rfl rfl ?_
    exact h1
  · exact hk

theorem faultCtlWrite_kept {a' : State} {ts : List RSlot} {v : Word} {s : State} (hk : Kept a' s) :
    Kept a' (faultCtlWrite ts v s).1 := by
  unfold faultCtlWrite
  lift_lets
  intro x0
  have h1 : Kept a' x0 := by
    subst x0
    apply Kept.ite
    · with_reducible apply Kept.foldl
      · intro t2 y3 h4
        with_reducible apply unlatch_kept
        exact h4
      · exact hk
    · exact hk
  clear_value x0
  dsimp only
  apply Kept.ite
  · with_reducible apply abandonCloseOut_kept
    exact h1
  · exact h1

theorem setFreeze_kept {a' : State} {on : Bool} {d : RSlot} {s : State} (hk : Kept a' s) :
    Kept a' (setFreeze on d s) := by
  unfold setFreeze
  lift_lets
  intro x0
  have h1 : Kept a' x0 := by
    subst x0
    with_reducible apply State.wrR_kept
    with_reducible apply State.wrR_kept
    exact hk
  clear_value x0
  apply Kept.ite
  · with_reducible apply modIsland_kept
    exact h1
  · exact h1

theorem logCtlWrite_kept {a' : State} {ts : List RSlot} {v : Word} {s : State} (hk : Kept a' s) :
    Kept a' (logCtlWrite ts v s).1 := by
  unfold logCtlWrite
  dsimp only
  with_reducible apply Kept.foldl
  · intro t0 y1 h2
    with_reducible apply setFreeze_kept
    exact h2
  · exact hk

theorem srcCfgWrite_kept {a' : State} {ts : List RSlot} {addr : Nat} {rd : RegDef} {v : Word} {s : State} (hk : Kept a' s) :
    Kept a' (srcCfgWrite ts addr rd v s).1 := by
  have h2 : ∀ (src : Nat) (t : State) (d : RSlot), Kept a' t → Kept a' (
      let k := regKey d.code addr
      let t := t.setWord k (storeWord t.part 0 0 rd (t.word k) v)
      if addr % 8 = 0 then
        t.wrR d (R.FAULT_SRC_EFF src)
          (if t.bitR d (R.FAULT_SRCCFG_COUNTED src) then min 1 (t.rdR d (R.FAULT_SRCCFG_SEV src)) else t.rdR d (R.FAULT_SRCCFG_SEV src))
      else t) := fun src t d h => Kept.ite (State.wrR_kept (Kept.setWord h)) (Kept.setWord h)
  unfold srcCfgWrite
  exact Kept.ite_fst (Kept.foldl (fun t d h => raise_kept h) hk) (Kept.foldl (h2 _) hk)

theorem plant_kept {a' : State} {d : RSlot} {s : State} (hk : Kept a' s) :
    Kept a' (plant d s) := by
  have hm : Kept a' (raise d 0x0C6 [s.rdR d R.FAULT_INJ_MODE, s.rdR d R.FAULT_INJTGT_TARGET] s) := raise_kept hk
  have hg : ∀ o : Option State, (∀ t, o = some t → Kept a' t) →
      Kept a' (o.getD (raise d 0x0C6 [s.rdR d R.FAULT_INJ_MODE, s.rdR d R.FAULT_INJTGT_TARGET] s)) := by
    intro o h
    cases o
    · exact hm
    · exact h _ rfl
  unfold plant
  split
  · exact Kept.ite (raise_kept hk) (raiseFull_kept hk)
  · exact hg _ (plantCaveParity_kept hk)
  · exact hg _ (plantWithhold_kept hk)
  · exact State.modEnd_kept hk
  · exact plantSymbol_kept hk
  · exact hk

theorem faultInjWrite_kept {a' : State} {ts : List RSlot} {v : Word} {s : State} (hk : Kept a' s) :
    Kept a' (faultInjWrite ts v s).1 := by
  unfold faultInjWrite
  lift_lets
  intro x0
  clear_value x0
  intro x1
  intro x2
  clear_value x2
  intro x3
  have h4 : Kept a' x3 := by
    subst x3
    with_reducible apply Kept.foldl
    · intro t5 y6 h7
      lift_lets
      intro x8
      have h9 : Kept a' x8 := by
        subst x8
        with_reducible apply State.wrR_kept
        with_reducible apply State.wrR_kept
        with_reducible apply State.wrR_kept
        with_reducible apply State.wrR_kept
        exact h7
      clear_value x8
      apply Kept.ite
      · with_reducible apply State.wrR_kept
        with_reducible apply raise_kept
        exact h9
      · exact h9
    · exact hk
  clear_value x3
  intro x10
  clear_value x10
  apply Kept.ite_fst
  · dsimp only
    exact h4
  · apply Kept.ite_fst
    · dsimp only
      with_reducible apply Kept.foldl
      · intro t11 y12 h13
        with_reducible apply raise_kept
        exact h13
      · exact h4
    · dsimp only
      apply Kept.ite
      · with_reducible apply plant_kept
        exact h4
      · exact h4

theorem unstage_kept {a' : State} {d : RSlot} {r : LogRec} {stored : Bool} {s : State} (hk : Kept a' s) :
    Kept a' (unstage d r stored s) := by
  unfold unstage
  lift_lets
  intro x0
  have h1 : Kept a' x0 := by
    subst x0
    with_reducible apply modIsland_kept
    exact hk
  clear_value x0
  intro x2
  have h3 : Kept a' x2 := by
    subst x2
    with_reducible apply State.wrR_kept
    exact h1
  clear_value x2
  intro x4
  have h5 : Kept a' x4 := by
    subst x4
    with_reducible apply State.wrR_kept
    exact h3
  clear_value x4
  with_reducible apply State.bump_kept
  exact h5

theorem linkError_kept {a' : State} {e : LinkEnd} {code : Bool} {s : State} (hk : Kept a' s) :
    Kept a' (linkError e code s) := by
  unfold linkError
  split
  · rename_i z0 z1 z2
    with_reducible apply raise_kept
    with_reducible apply State.incR_kept
    exact hk
  · rename_i z3 z4 z5
    exact hk

theorem modLink_kept {a' : State} {e : LinkEnd} {f : FvEnd → FvEnd} {s : State} (hk : Kept a' s) :
    Kept a' (modLink e f s) := by
  unfold modLink
  with_reducible apply State.modEnd_kept
  with_reducible apply State.modEnd_kept
  exact hk

theorem downLink_kept {a' : State} {e : LinkEnd} {s : State} (hk : Kept a' s) :
    Kept a' (downLink e s) := by
  unfold downLink
  split
  · rename_i z0 z1 z2 z3
    lift_lets
    intro x4
    have h5 : Kept a' x4 := by
      subst x4
      with_reducible apply modLink_kept
      exact hk
    clear_value x4
    intro x6
    have h7 : Kept a' x6 := by
      subst x6
      with_reducible apply raise_kept
      with_reducible apply State.wrR_kept
      exact h5
    clear_value x6
    intro x8
    have h9 : Kept a' x8 := by
      subst x8
      apply Kept.ite
      · with_reducible apply newStep_kept
        exact h7
      · exact h7
    clear_value x8
    apply Kept.ite
    · with_reducible apply groupOffline_kept
      exact h9
    · apply Kept.ite
      · with_reducible apply Kept.foldl
        · intro t10 y11 h12
          with_reducible apply State.wrR_kept
          exact h12
        · exact h9
      · exact h9

theorem linkReset_kept {a' : State} {e : LinkEnd} {s : State} (hk : Kept a' s) :
    Kept a' (linkReset e s) := by
  unfold linkReset
  apply Kept.ite
  · with_reducible apply downLink_kept
    exact hk
  · lift_lets
    intro x0
    clear_value x0
    intro x1
    have h2 : Kept a' x1 := by
      subst x1
      with_reducible apply Kept.foldl
      · intro t3 y4 h5
        with_reducible apply State.wrR_kept
        with_reducible apply State.incR_kept
        exact h5
      · exact hk
    clear_value x1
    intro x6
    have h7 : Kept a' x6 := by
      subst x6
      with_reducible apply modLink_kept
      exact h2
    clear_value x6
    intro x8
    have h9 : Kept a' x8 := by
      subst x8
      with_reducible apply Kept.foldl
      · intro t10 y11 h12
        with_reducible apply sendLcw_kept
        exact h12
      · exact h7
    clear_value x8
    with_reducible apply Kept.foldl
    · intro t13 y14 h15
      with_reducible apply sendLcw_kept
      exact h15
    · exact h9

theorem onLcw_kept {a' : State} {typ : Nat} {e : LinkEnd} {w0 : Word} {w1 : Word} {f : Nat → Nat → Nat → Nat → State → State} {s : State} (hf : ∀ y0 y1 y2 y3 t, Kept a' t → Kept a' (f y0 y1 y2 y3 t)) (hk : Kept a' s) :
    Kept a' (onLcw typ e w0 w1 f s) := by
  unfold onLcw
  lift_lets
  intro x0
  clear_value x0
  apply Kept.ite
  · exact hk
  · apply Kept.ite
    · apply hf
      exact hk
    · with_reducible apply linkError_kept
      exact hk

theorem replayFrom_kept {a' : State} {e : LinkEnd} {c : Nat} {alseq : Nat} {s : State} (hk : Kept a' s) :
    Kept a' (replayFrom e c alseq s) := by
  unfold replayFrom
  lift_lets
  intro x0
  clear_value x0
  with_reducible apply Kept.foldl
  · intro t1 y2 h3
    with_reducible apply Kept.emit
    exact h3
  · with_reducible apply State.modEnd_kept
    exact hk

theorem State.sagStop_kept {a' : State} {s : State} (hk : Kept a' s) :
    Kept a' (State.sagStop s).2 := by
  unfold State.sagStop
  apply Kept.ite_snd
  · lift_lets
    intro x0
    have h1 : Kept a' x0.2 := by
      subst x0
      with_reducible apply Kept.fresh
      exact hk
    clear_value x0
    dsimp only
    exact h1
  · dsimp only
    exact hk

theorem againOp_kept {a' : State} {op : FlashOp} {s : State} (hk : Kept a' s) :
    Kept a' (againOp op s) := by
  unfold againOp
  apply Kept.ite
  · with_reducible refine Kept.mk' rfl rfl rfl rfl rfl rfl rfl rfl rfl rfl ?_
    exact hk
  · with_reducible apply startOp_kept
    exact hk

theorem resumeOp_kept {a' : State} {s : State} (hk : Kept a' s) :
    Kept a' (resumeOp s) := by
  unfold resumeOp
  split
  · rename_i z0 z1 z2
    apply Kept.ite
    · exact hk
    · with_reducible apply startOp_kept
      with_reducible refine Kept.mk' rfl rfl rfl rfl rfl rfl rfl rfl rfl rfl ?_
      exact hk
  · rename_i z3 z4
    exact hk

theorem showHeader_kept {a' : State} {d : RSlot} {k : Nat} {h : Header} {s : State} (hk : Kept a' s) :
    Kept a' (showHeader d k h s) := by
  unfold showHeader
  with_reducible apply State.wrR_kept
  with_reducible apply State.wrR_kept
  with_reducible apply State.wrR_kept
  exact hk

theorem cutRecord_kept {a' : State} {s : State} (hk : Kept a' s) :
    Kept a' (cutRecord s) := by
  unfold cutRecord
  split
  · rename_i z0 z1
    exact hk
  · rename_i z2 z3 z4
    split
    · rename_i z5 z6
      exact hk
    · rename_i z7 z8 z9
      with_reducible refine Kept.mk' rfl rfl rfl rfl rfl rfl rfl rfl rfl rfl ?_
      exact hk

theorem cutFlash_kept {a' : State} {s : State} (hk : Kept a' s) :
    Kept a' (cutFlash s) := by
  unfold cutFlash
  split
  · rename_i z0 z1 z2 z3 z4 z5
    with_reducible refine Kept.mk' rfl rfl rfl rfl rfl rfl rfl rfl rfl rfl ?_
    exact hk
  · rename_i z6 z7 z8 z9 z10 z11 z12 z13
    with_reducible refine Kept.mk' rfl rfl rfl rfl rfl rfl rfl rfl rfl rfl ?_
    exact hk
  · rename_i z14 z15 z16 z17 z18 z19
    with_reducible refine Kept.mk' rfl rfl rfl rfl rfl rfl rfl rfl rfl rfl ?_
    exact hk
  · rename_i z20 z21
    apply Kept.ite
    · with_reducible apply cutRecord_kept
      exact hk
    · exact hk

theorem sendStep_kept {a' : State} {d : RSlot} {es : List StepEntry} {s : State} (hk : Kept a' s) :
    Kept a' (sendStep d es s) := by
  unfold sendStep
  with_reducible apply sendMsg_kept
  exact hk

theorem takeWhere_kept {a' : State} {e : LinkEnd} {cidx : Nat} {p : Msg → Bool} {s : State} (hk : Kept a' s) :
    Kept a' (takeWhere e cidx p s) := by
  unfold takeWhere
  split
  · rename_i z0 z1 z2
    with_reducible apply takeMsg_kept
    exact hk
  · rename_i z3 z4
    exact hk

theorem leaseTaken_kept {a' : State} {e : LinkEnd} {op : Nat} {s : State} (hk : Kept a' s) :
    Kept a' (leaseTaken e op s) := by
  unfold leaseTaken
  with_reducible apply takeWhere_kept
  exact hk

theorem installLease_kept {a' : State} {g : Nat} {holder : Nat} {single : Nat} {epoch : Nat} {s : State} (hk : Kept a' s) :
    Kept a' (installLease g holder single epoch s) := by
  unfold installLease
  with_reducible apply State.wrC_kept
  with_reducible apply State.wrC_kept
  with_reducible apply State.wrC_kept
  exact hk

theorem leaseAnswer_kept {a' : State} {g : Nat} {dst : RSlot} {granted : Bool} {s : State} (hk : Kept a' s) :
    Kept a' (leaseAnswer g dst granted s) := by
  unfold leaseAnswer
  with_reducible apply sendMsg_kept
  exact hk

theorem linkBack_kept {a' : State} {d : RSlot} {was : Bool} {s : State} (hk : Kept a' s) :
    Kept a' (linkBack d was s) := by
  unfold linkBack
  apply Kept.ite
  · with_reducible apply startResync_kept
    exact hk
  · exact hk

theorem portError_kept {a' : State} {p : Nat} {cause : Nat} {s : State} (hk : Kept a' s) :
    Kept a' (portError p cause s) := by
  unfold portError
  apply Kept.ite
  · with_reducible apply raiseAll_kept
    with_reducible apply wrAll_kept
    with_reducible apply wrAll_kept
    exact hk
  · exact hk

theorem releaseSlots_kept {a' : State} {p : Nat} {newHead : Nat} {s : State} (hk : Kept a' s) :
    Kept a' (releaseSlots p newHead s) := by
  unfold releaseSlots
  lift_lets
  intro x0
  clear_value x0
  intro x1
  clear_value x1
  with_reducible apply wrAll_kept
  with_reducible apply modPort_kept
  exact hk

theorem applyDoorbell_kept {a' : State} {p : Nat} {sqtail : Nat} {cqhead : Nat} {s : State} (hk : Kept a' s) :
    Kept a' (applyDoorbell p sqtail cqhead s) := by
  unfold applyDoorbell
  apply Kept.ite
  · exact hk
  · lift_lets
    intro x0
    clear_value x0
    intro x1
    clear_value x1
    intro x2
    clear_value x2
    intro x3
    clear_value x3
    intro x4
    clear_value x4
    intro x5
    have h6 : Kept a' x5 := by
      subst x5
      with_reducible apply incAll_kept
      exact hk
    clear_value x5
    intro x7
    have h8 : Kept a' x7 := by
      subst x7
      apply Kept.ite
      · with_reducible apply wrAll_kept
        exact h6
      · with_reducible apply portError_kept
        exact h6
    clear_value x7
    intro x9
    have h10 : Kept a' x9 := by
      subst x9
      apply Kept.ite
      · with_reducible apply releaseSlots_kept
        exact h8
      · with_reducible apply portError_kept
        exact h8
    clear_value x9
    apply Kept.ite
    · with_reducible apply incAll_kept
      exact hk
    · with_reducible apply pumpPort_kept
      exact h10

theorem doorbellValues_kept {a' : State} {d : RSlot} {p : Nat} {sqtail : Nat} {cqhead : Nat} {s : State} (hk : Kept a' s) :
    Kept a' (doorbellValues d p sqtail cqhead s) := by
  unfold doorbellValues
  apply Kept.ite
  · with_reducible apply applyDoorbell_kept
    exact hk
  · exact hk

theorem discardAt_kept {a' : State} {ts : List RSlot} {addr : Nat} {s : State} (hk : Kept a' s) :
    Kept a' (discardAt ts addr s) := by
  unfold discardAt
  with_reducible apply Kept.foldl
  · intro t0 y1 h2
    with_reducible apply raise_kept
    exact h2
  · exact hk

theorem disarm_kept {a' : State} {d : RSlot} {r : Requester} {addr : Nat} {e : RSlot} {s : State} (hk : Kept a' s) :
    Kept a' (disarm d r addr e s) := by
  unfold disarm
  with_reducible apply Kept.modRind
  · intro y0 y1
    exact y1
  · exact hk

theorem unlockWrite_kept {a' : State} {ts : List RSlot} {d : RSlot} {r : Requester} {addr : Nat} {key : Word} {s : State} (hk : Kept a' s) :
    Kept a' (unlockWrite ts d r addr key s).1 := by
  unfold unlockWrite
  lift_lets
  intro x0
  clear_value x0
  apply Kept.ite_fst
  · dsimp only
    with_reducible apply discardAt_kept
    exact hk
  · dsimp only
    with_reducible apply Kept.foldl
    · intro t1 y2 h3
      apply Kept.ite
      · with_reducible apply Kept.modRind
        · intro y4 y5
          exact y5
        · with_reducible apply disarm_kept
          exact h3
      · apply Kept.ite
        · with_reducible apply raise_kept
          with_reducible apply Kept.modRind
          · intro y6 y7
            exact y7
          · with_reducible apply disarm_kept
            exact h3
        · with_reducible apply disarm_kept
          exact h3
    · exact hk

theorem domcfgWrite_kept {a' : State} {ts : List RSlot} {dom : Nat} {v : Word} {s : State} (hk : Kept a' s) :
    Kept a' (domcfgWrite ts dom v s).1 := by
  unfold domcfgWrite
  lift_lets
  intro x0
  clear_value x0
  intro x1
  clear_value x1
  intro x2
  clear_value x2
  intro x3
  clear_value x3
  intro x4
  clear_value x4
  intro x5
  clear_value x5
  intro x6
  have h7 : Kept a' x6 := by
    subst x6
    with_reducible apply Kept.foldl
    · intro t8 y9 h10
      with_reducible apply Kept.setWord
      exact h10
    · exact hk
  clear_value x6
  apply Kept.ite_fst
  · dsimp only
    with_reducible apply discardAt_kept
    exact hk
  · apply Kept.ite_fst
    · dsimp only
      with_reducible apply discardAt_kept
      exact hk
    · apply Kept.ite_fst
      · dsimp only
        with_reducible apply Kept.foldl
        · intro t11 y12 h13
          with_reducible apply raise_kept
          exact h13
        · exact hk
      · dsimp only
        exact h7

theorem disablePort_kept {a' : State} {p : Nat} {s : State} (hk : Kept a' s) :
    Kept a' (disablePort p s) := by
  unfold disablePort
  with_reducible apply drainCheck_kept
  apply Kept.ite
  · with_reducible apply wrAll_kept
    exact hk
  · exact hk

theorem enablePort_kept {a' : State} {p : Nat} {s : State} (hk : Kept a' s) :
    Kept a' (enablePort p s) := by
  unfold enablePort
  apply Kept.ite
  · lift_lets
    intro x0
    have h1 : Kept a' x0 := by
      subst x0
      with_reducible apply wrAll_kept
      with_reducible apply wrAll_kept
      with_reducible apply wrAll_kept
      with_reducible apply wrAll_kept
      exact hk
    clear_value x0
    intro x2
    have h3 : Kept a' x2 := by
      subst x2
      with_reducible apply wrAll_kept
      with_reducible apply wrAll_kept
      with_reducible apply wrAll_kept
      with_reducible apply wrAll_kept
      exact h1
    clear_value x2
    with_reducible apply inStep_kept
    · intro y4 t5 h6
      with_reducible apply readLineOf_kept
      exact h6
    · with_reducible apply modPort_kept
      exact h3
  · with_reducible apply raiseAll_kept
    with_reducible apply wrAll_kept
    with_reducible apply wrAll_kept
    exact hk

theorem portRegWrite_kept {a' : State} {ts : List RSlot} {addr : Nat} {rd : RegDef} {v : Word} {full : Bool} {s : State} (hk : Kept a' s) :
    Kept a' (portRegWrite ts addr rd v full s).1 := by
  unfold portRegWrite
  lift_lets
  intro x0
  clear_value x0
  intro x1
  clear_value x1
  intro x2
  clear_value x2
  intro x3
  have h4 : Kept a' x3.1 := by
    subst x3
    dsimp only
    with_reducible apply Kept.foldl
    · intro t5 y6 h7
      with_reducible apply raise_kept
      exact h7
    · exact hk
  clear_value x3
  intro x8
  have h9 : ∀ y0, Kept a' y0 → Kept a' (x8 y0) := by
    subst x8
    intro t10 h11
    beta_reduce
    with_reducible apply Kept.foldl
    · intro t12 y13 h14
      with_reducible apply Kept.setWord
      exact h14
    · exact h11
  clear_value x8
  intro x15
  clear_value x15
  intro x16
  clear_value x16
  intro x17
  clear_value x17
  intro x18
  clear_value x18
  intro x19
  clear_value x19
  intro x20
  have h21 : Kept a' x20 := by
    subst x20
    apply h9
    exact hk
  clear_value x20
  apply Kept.ite_fst
  · dsimp only
    apply h9
    exact hk
  · apply Kept.ite_fst
    · apply Kept.ite_fst
      · exact h4
      · dsimp only
        apply h9
        exact hk
    · apply Kept.ite_fst
      · exact h4
      · apply Kept.ite_fst
        · exact h4
        · apply Kept.ite_fst
          · exact h4
          · apply Kept.ite_fst
            · exact h4
            · apply Kept.ite_fst
              · exact h4
              · apply Kept.ite_fst
                · dsimp only
                  with_reducible apply raiseAll_kept
                  with_reducible apply wrAll_kept
                  exact hk
                · dsimp only
                  apply Kept.ite
                  · with_reducible apply disablePort_kept
                    exact h21
                  · apply Kept.ite
                    · with_reducible apply enablePort_kept
                      exact h21
                    · exact h21

theorem lineMoved_kept {a' : State} {dom : Nat} {was : Bool × Nat} {s : State} (hk : Kept a' s) :
    Kept a' (lineMoved dom was s) := by
  unfold lineMoved
  apply Kept.ite
  · with_reducible apply statusUpdate_kept
    with_reducible apply modLine_kept
    exact hk
  · exact hk

theorem turnRoles_kept {a' : State} {epoch : Nat} {s : State} (hk : Kept a' s) :
    Kept a' (turnRoles epoch s) := by
  unfold turnRoles
  lift_lets
  intro x0
  clear_value x0
  intro x1
  clear_value x1
  intro x2
  have h3 : Kept a' x2 := by
    subst x2
    with_reducible apply State.wrR_kept
    with_reducible apply State.wrR_kept
    exact hk
  clear_value x2
  intro x4
  have h5 : Kept a' x4 := by
    subst x4
    with_reducible apply State.wrR_kept
    with_reducible apply State.wrR_kept
    exact h3
  clear_value x4
  intro x6
  have h7 : Kept a' x6 := by
    subst x6
    with_reducible apply Kept.foldl
    · intro t8 y9 h10
      lift_lets
      intro x11
      have h12 : Kept a' x11 := by
        subst x11
        with_reducible apply State.incR_kept
        with_reducible apply State.wrR_kept
        exact h10
      clear_value x11
      with_reducible apply dieWordDue_kept
      with_reducible apply leaseTraffic_kept
      exact h12
    · exact h5
  clear_value x6
  intro x13
  clear_value x13
  intro x14
  have h15 : Kept a' x14 := by
    subst x14
    with_reducible apply modStep_kept
    with_reducible apply modStep_kept
    exact h7
  clear_value x14
  intro x16
  clear_value x16
  intro x17
  have h18 : Kept a' x17 := by
    subst x17
    with_reducible apply Kept.foldl
    · intro t19 y20 h21
      with_reducible apply State.wrR_kept
      exact h21
    · with_reducible refine Kept.mk' rfl rfl rfl rfl rfl rfl rfl rfl rfl rfl ?_
      exact h15
  clear_value x17
  with_reducible apply rereadDoorbells_kept
  exact h18

theorem proposeTurning_kept {a' : State} {s : State} (hk : Kept a' s) :
    Kept a' (proposeTurning s) := by
  unfold proposeTurning
  lift_lets
  intro x0
  clear_value x0
  intro x1
  clear_value x1
  apply Kept.ite
  · with_reducible apply turnRoles_kept
    with_reducible apply newStep_kept
    exact hk
  · exact hk

theorem stepCtlWrite_kept {a' : State} {v : Word} {s : State} (hk : Kept a' s) :
    Kept a' (stepCtlWrite v s).1 := by
  unfold stepCtlWrite
  apply Kept.ite_fst
  · dsimp only
    exact hk
  · lift_lets
    intro x0
    have h1 : Kept a' x0 := by
      subst x0
      apply Kept.ite
      · with_reducible apply proposeTurning_kept
        exact hk
      · exact hk
    clear_value x0
    dsimp only
    apply Kept.ite
    · with_reducible apply startResync_kept
      exact h1
    · exact h1

theorem writeReg_kept {a' : State} {ts : List RSlot} {d : RSlot} {r : Requester} {addr : Nat} {v : Word} {s : State} (hk : Kept a' s) :
    Kept a' (writeReg ts d r addr v s).1 := by
  unfold writeReg
  apply Kept.ite_fst
  · dsimp only
    exact hk
  · apply Kept.ite_fst
    · dsimp only
      with_reducible apply discardAt_kept
      exact hk
    · split
      · rename_i z0 z1 z2 z3
        apply Kept.ite_fst
        · dsimp only
          with_reducible apply discardAt_kept
          exact hk
        · apply Kept.ite_fst
          · dsimp only
            with_reducible apply raise_kept
            exact hk
          · apply Kept.ite_fst
            · dsimp only
              with_reducible apply discardAt_kept
              exact hk
            · dsimp only
              with_reducible apply Kept.foldl
              · intro t4 y5 h6
                with_reducible apply ctrlTo_kept
                exact h6
              · exact hk
      · rename_i z7 z8
        apply Kept.ite_fst
        · with_reducible apply unlockWrite_kept
          exact hk
        · apply Kept.ite_fst
          · dsimp only
            exact hk
          · split
            · rename_i z9 z10
              dsimp only
              with_reducible apply discardAt_kept
              exact hk
            · rename_i z11 z12 z13
              apply Kept.ite_fst
              · dsimp only
                with_reducible apply discardAt_kept
                exact hk
              · apply Kept.ite_fst
                · with_reducible apply domcfgWrite_kept
                  exact hk
                · apply Kept.ite_fst
                  · lift_lets
                    intro x14
                    have h15 : Kept a' x14.1 := by
                      subst x14
                      with_reducible apply portRegWrite_kept
                      exact hk
                    clear_value x14
                    intro x16
                    clear_value x16
                    dsimp only
                    apply Kept.ite
                    · with_reducible apply lineMoved_kept
                      exact h15
                    · exact h15
                  · apply Kept.ite_fst
                    · with_reducible apply caveCtlWrite_kept
                      exact hk
                    · apply Kept.ite_fst
                      · with_reducible apply caveMaintWrite_kept
                        exact hk
                      · apply Kept.ite_fst
                        · with_reducible apply caveRangeWrite_kept
                          exact hk
                        · apply Kept.ite_fst
                          · with_reducible apply stepCtlWrite_kept
                            exact hk
                          · apply Kept.ite_fst
                            · with_reducible apply faultCtlWrite_kept
                              exact hk
                            · apply Kept.ite_fst
                              · with_reducible apply logCtlWrite_kept
                                exact hk
                              · apply Kept.ite_fst
                                · with_reducible apply faultInjWrite_kept
                                  exact hk
                                · apply Kept.ite_fst
                                  · with_reducible apply srcCfgWrite_kept
                                    exact hk
                                  · apply Kept.ite_fst
                                    · with_reducible apply budgetThrWrite_kept
                                      exact hk
                                    · apply Kept.ite_fst
                                      · dsimp only
                                        exact hk
                                      · lift_lets
                                        intro x17
                                        have h18 : Kept a' x17 := by
                                          subst x17
                                          with_reducible apply Kept.foldl
                                          · intro t19 y20 h21
                                            lift_lets
                                            intro x22
                                            clear_value x22
                                            with_reducible apply Kept.setWord
                                            exact h21
                                          · exact hk
                                        clear_value x17
                                        dsimp only
                                        apply Kept.ite
                                        · with_reducible apply showAdmit_kept
                                          exact h18
                                        · exact h18

theorem closeBlock_kept {a' : State} {d : RSlot} {s : State} (hk : Kept a' s) :
    Kept a' (closeBlock d s) := by
  unfold closeBlock
  lift_lets
  intro x0
  have h1 : Kept a' x0 := by
    subst x0
    with_reducible apply digestAdd_kept
    exact hk
  clear_value x0
  intro x2
  clear_value x2
  intro x3
  clear_value x3
  intro x4
  clear_value x4
  intro x5
  clear_value x5
  intro x6
  have h7 : Kept a' x6 := by
    subst x6
    with_reducible apply modStep_kept
    exact h1
  clear_value x6
  intro x8
  have h9 : Kept a' x8 := by
    subst x8
    with_reducible apply Kept.modRind
    · intro y10 y11
      exact y11
    · exact h7
  clear_value x8
  intro x12
  clear_value x12
  intro x13
  have h14 : Kept a' x13 := by
    subst x13
    with_reducible apply sendMsg_kept
    exact h9
  clear_value x13
  with_reducible apply tallySnapshot_kept
  exact h14

theorem applyEntry_kept {a' : State} {d : RSlot} {e : StepEntry} {s : State} (hk : Kept a' s) :
    Kept a' (applyEntry d e s) := by
  unfold applyEntry
  split
  · rename_i z0 z1
    with_reducible apply doorbellValues_kept
    exact hk
  · rename_i z2 z3
    split
    · rename_i z4 z5 z6 z7
      with_reducible apply caveWrite_kept
      exact hk
    · rename_i z8 z9
      exact hk
  · rename_i z10 z11
    split
    · rename_i z12 z13 z14 z15 z16
      lift_lets
      intro x17
      clear_value x17
      apply Kept.ite
      · apply Kept.ite
        · with_reducible apply writeReg_kept
          exact hk
        · exact hk
      · with_reducible apply writeReg_kept
        exact hk
    · rename_i z18 z19
      exact hk
  · rename_i z20 z21
    with_reducible apply closeBlock_kept
    exact hk
  · rename_i z22 z23
    with_reducible apply turnRoles_kept
    exact hk
  · rename_i z24 z25
    with_reducible apply modStep_kept
    exact hk
  · rename_i z26 z27 z28 z29 z30 z31 z32
    exact hk

theorem startTurning_kept {a' : State} {s : State} (hk : Kept a' s) :
    Kept a' (startTurning s) := by
  unfold startTurning
  apply Kept.ite
  · with_reducible apply modStep_kept
    exact hk
  · exact hk

theorem releaseConfirmed_kept {a' : State} {_d : RSlot} {_b : Nat} {s : State} (hk : Kept a' s) :
    Kept a' (releaseConfirmed _d _b s) := by
  unfold releaseConfirmed
  with_reducible apply pumpAll_kept
  exact hk

end Sys2Proof.Machine
end

