-- ==== Sys2Proof/Laws/KeptOps5.lean ====
section
/-! SUPPORT. What the operations keep (the relation of Laws/Kept.lean), one lemma each: InStepOps, Ladle, LadleOps, Links, Ops, Port, PortOps, Power, Recovery, Sector, SectorOps, ServoOps, XlatOps. -/

set_option linter.all false

namespace Sys2Proof.Machine

theorem confirmBlock_kept {a' : State} {d : RSlot} {b : Nat} {s : State} (hk : Kept a' s) :
    Kept a' (confirmBlock d b s) := by
  unfold confirmBlock
  lift_lets
  intro x0
  have h1 : Kept a' x0 := by
    subst x0
    with_reducible apply modStep_kept
    exact hk
  clear_value x0
  intro x2
  have h3 : Kept a' x2 := by
    subst x2
    with_reducible apply Kept.modRind
    · intro y4 y5
      exact y5
    · exact h1
  clear_value x2
  with_reducible apply releaseConfirmed_kept
  with_reducible apply State.wrR_kept
  exact h3

theorem noteError_kept {a' : State} {d : RSlot} {status : Nat} {before : State} {after : State} (hk : Kept a' after) :
    Kept a' (noteError d status before after) := by
  unfold noteError
  apply Kept.ite
  · exact hk
  · with_reducible apply Kept.foldl
    · intro t0 y1 h2
      apply Kept.ite
      · split
        · rename_i z3 z4 z5 z6
          with_reducible apply failCmd_kept
          exact h2
        · rename_i z7 z8
          exact h2
      · exact h2
    · exact hk

theorem noteOut_kept {a' : State} {d : RSlot} {ch : Nat} {c : Cmd} {isMeta : Bool} {src : Nat} {off : Nat} {n : Nat} {before : State} {after : State} (hk : Kept a' after) :
    Kept a' (noteOut d ch c isMeta src off n before after) := by
  unfold noteOut
  lift_lets
  intro x0
  clear_value x0
  intro x1
  clear_value x1
  apply Kept.ite
  · exact hk
  · split
    · rename_i z2 z3 z4 z5
      with_reducible apply noteMoved_kept
      with_reducible apply failCmd_kept
      exact hk
    · rename_i z6 z7
      apply Kept.ite
      · with_reducible apply noteMoved_kept
        exact hk
      · with_reducible apply refetch_kept
        exact hk

theorem noteDescriptor_kept {a' : State} {d : RSlot} {ch : Nat} {before : State} {after : State} (hk : Kept a' after) :
    Kept a' (noteDescriptor d ch before after) := by
  unfold noteDescriptor
  lift_lets
  intro x0
  clear_value x0
  intro x1
  clear_value x1
  apply Kept.ite
  · exact hk
  · apply Kept.ite
    · split
      · rename_i z2 z3 z4 z5
        with_reducible apply noteOut_kept
        exact hk
      · rename_i z6 z7
        exact hk
    · split
      · rename_i z8 z9 z10 z11
        apply Kept.ite
        · with_reducible apply noteOut_kept
          exact hk
        · with_reducible apply noteMoved_kept
          with_reducible apply storeMoved_kept
          exact hk
      · rename_i z12 z13
        exact hk

theorem releaseHeld_kept {a' : State} {d : RSlot} {s : State} (hk : Kept a' s) :
    Kept a' (releaseHeld d s) := by
  unfold releaseHeld
  lift_lets
  intro x0
  clear_value x0
  intro x1
  have h2 : Kept a' x1 := by
    subst x1
    with_reducible apply Kept.modRind
    · intro y3 y4
      exact y4
    · exact hk
  clear_value x1
  with_reducible apply Kept.foldl
  · intro t5 y6 h7
    with_reducible apply hostPut_kept
    exact h7
  · exact h2

theorem modCh_kept {a' : State} {d : RSlot} {c : Nat} {f : LadleCh → LadleCh} {s : State} (hk : Kept a' s) :
    Kept a' (modCh d c f s) := by
  unfold modCh
  with_reducible apply Kept.modRind
  · intro y0 y1
    exact y1
  · exact hk

theorem setPend_kept {a' : State} {d : RSlot} {c : Nat} {on : Bool} {s : State} (hk : Kept a' s) :
    Kept a' (setPend d c on s) := by
  unfold setPend
  lift_lets
  intro x0
  clear_value x0
  with_reducible apply State.wrR_kept
  exact hk

theorem ladleEvent_kept {a' : State} {d : RSlot} {c : Nat} {status : Nat} {bytes : Nat} {s : State} (hk : Kept a' s) :
    Kept a' (ladleEvent d c status bytes s) := by
  unfold ladleEvent
  lift_lets
  intro x0
  clear_value x0
  intro x1
  have h2 : Kept a' x1 := by
    subst x1
    with_reducible apply State.wrR_kept
    exact hk
  clear_value x1
  apply Kept.ite
  · with_reducible apply postEvent_kept
    exact h2
  · exact h2

theorem enterError_kept {a' : State} {d : RSlot} {c : Nat} {status : Nat} {s : State} (hk : Kept a' s) :
    Kept a' (enterError d c status s) := by
  unfold enterError
  lift_lets
  intro x0
  have h1 : Kept a' x0 := by
    subst x0
    with_reducible apply State.wrR_kept
    exact hk
  clear_value x0
  intro x2
  have h3 : Kept a' x2 := by
    subst x2
    apply Kept.ite
    · with_reducible apply setPend_kept
      exact h1
    · exact h1
  clear_value x2
  with_reducible apply ladleEvent_kept
  exact h3

theorem chainError_kept {a' : State} {d : RSlot} {c : Nat} {s : State} (hk : Kept a' s) :
    Kept a' (chainError d c s) := by
  unfold chainError
  with_reducible apply enterError_kept
  with_reducible apply State.incR_kept
  exact hk

theorem copyShadow_kept {a' : State} {d : RSlot} {c : Nat} {s : State} (hk : Kept a' s) :
    Kept a' (copyShadow d c s) := by
  unfold copyShadow
  lift_lets
  intro x0
  clear_value x0
  intro x1
  have h2 : Kept a' x1 := by
    subst x1
    with_reducible apply State.wrR_kept
    exact hk
  clear_value x1
  intro x3
  have h4 : Kept a' x3 := by
    subst x3
    with_reducible apply State.wrR_kept
    exact h2
  clear_value x3
  intro x5
  have h6 : Kept a' x5 := by
    subst x5
    with_reducible apply State.wrR_kept
    exact h4
  clear_value x5
  intro x7
  have h8 : Kept a' x7 := by
    subst x7
    with_reducible apply State.wrR_kept
    exact h6
  clear_value x7
  intro x9
  have h10 : Kept a' x9 := by
    subst x9
    with_reducible apply State.wrR_kept
    exact h8
  clear_value x9
  intro x11
  have h12 : Kept a' x11 := by
    subst x11
    with_reducible apply State.wrR_kept
    exact h10
  clear_value x11
  intro x13
  have h14 : Kept a' x13 := by
    subst x13
    with_reducible apply setPend_kept
    with_reducible apply State.wrR_kept
    with_reducible apply State.wrR_kept
    exact h12
  clear_value x13
  intro x15
  clear_value x15
  intro x16
  have h17 : Kept a' x16 := by
    subst x16
    with_reducible apply State.wrR_kept
    with_reducible apply State.wrR_kept
    exact h14
  clear_value x16
  apply Kept.ite
  · apply Kept.ite
    · with_reducible apply chainError_kept
      exact h14
    · exact h14
  · with_reducible apply modCh_kept
    exact h17

theorem tryStart_kept {a' : State} {d : RSlot} {c : Nat} {s : State} (hk : Kept a' s) :
    Kept a' (tryStart d c s) := by
  unfold tryStart
  apply Kept.ite
  · exact hk
  · apply Kept.ite
    · with_reducible apply setPend_kept
      exact hk
    · apply Kept.ite
      · exact hk
      · apply Kept.ite
        · with_reducible apply copyShadow_kept
          exact hk
        · exact hk

theorem shadowWrite_kept {a' : State} {d : RSlot} {c : Nat} {pair : Nat} {v : BitVec 64} {s : State} (hk : Kept a' s) :
    Kept a' (shadowWrite d c pair v s).2 := by
  unfold shadowWrite
  lift_lets
  intro x0
  clear_value x0
  intro x1
  clear_value x1
  intro x2
  clear_value x2
  split
  · rename_i z3
    dsimp only
    with_reducible apply State.wrR_kept
    with_reducible apply State.wrR_kept
    exact hk
  · rename_i z4
    apply Kept.ite_snd
    · dsimp only
      with_reducible apply State.wrR_kept
      with_reducible apply State.wrR_kept
      exact hk
    · dsimp only
      exact hk
  · rename_i z5
    apply Kept.ite_snd
    · dsimp only
      with_reducible apply State.wrR_kept
      with_reducible apply State.wrR_kept
      exact hk
    · dsimp only
      exact hk
  · rename_i z6 z7 z8 z9
    dsimp only
    exact hk

theorem armChannel_kept {a' : State} {d : RSlot} {c : Nat} {s : State} (hk : Kept a' s) :
    Kept a' (armChannel d c s).2 := by
  unfold armChannel
  apply Kept.ite_snd
  · dsimp only
    with_reducible apply tryStart_kept
    with_reducible apply setPend_kept
    exact hk
  · dsimp only
    exact hk

theorem listBlock_kept {a' : State} {d : RSlot} {c : Nat} {bytes : List Byte} {s : State} (hk : Kept a' s) :
    Kept a' (listBlock d c bytes s) := by
  unfold listBlock
  lift_lets
  intro x0
  clear_value x0
  intro x1
  clear_value x1
  split
  · rename_i z2 z3
    exact hk
  · rename_i z4 z5 z6
    lift_lets
    intro x7
    clear_value x7
    intro x8
    have h9 : Kept a' x8 := by
      subst x8
      with_reducible apply modCh_kept
      with_reducible apply State.wrR_kept
      exact hk
    clear_value x8
    apply Kept.ite
    · exact hk
    · apply Kept.ite
      · with_reducible apply chainError_kept
        exact h9
      · exact h9

theorem ladleAck_kept {a' : State} {d : RSlot} {c : Nat} {n : Nat} {s : State} (hk : Kept a' s) :
    Kept a' (ladleAck d c n s) := by
  unfold ladleAck
  lift_lets
  intro x0
  have h1 : Kept a' x0 := by
    subst x0
    with_reducible apply modCh_kept
    exact hk
  clear_value x0
  with_reducible apply State.wrR_kept
  exact h1

theorem hostData_kept {a' : State} {d : RSlot} {c : Nat} {data : List Byte} {s : State} (hk : Kept a' s) :
    Kept a' (hostData d c data s) := by
  unfold hostData
  lift_lets
  intro x0
  clear_value x0
  intro x1
  clear_value x1
  intro x2
  clear_value x2
  intro x3
  clear_value x3
  apply Kept.ite
  · with_reducible apply ladleAck_kept
    with_reducible apply caveWrite_kept
    exact hk
  · exact hk

theorem writePieces_kept {a' : State} {d : RSlot} {uid : Option Nat} {dom : Nat} {p3 : List (Nat × Nat)} {p4 : List Byte} {p5 : State} (hk : Kept a' p5) :
    Kept a' (writePieces d uid dom p3 p4 p5) := by
  induction p3 generalizing p4 p5 with
  | nil => exact hk
  | cons x l ih => exact ih (hostWrite_kept hk)

theorem moveRest_kept {a' : State} {d : RSlot} {uid : Option Nat} {c : Nat} {deliver : Nat → List Byte → List Byte → List Byte} {s : State} (hk : Kept a' s) :
    Kept a' (moveRest d uid c deliver s).2 := by
  unfold moveRest
  lift_lets
  intro x0
  clear_value x0
  intro x1
  clear_value x1
  intro x2
  clear_value x2
  intro x3
  have h4 : Kept a' x3.2.2 := by
    subst x3
    with_reducible apply caveRead_kept
    exact hk
  clear_value x3
  intro x5
  have h6 : Kept a' x5.2.2 := by
    subst x5
    with_reducible apply caveRead_kept
    exact hk
  clear_value x5
  intro x7
  have h8 : Kept a' x7.2.2 := by
    subst x7
    with_reducible apply caveRead_kept
    exact h6
  clear_value x7
  split
  · rename_i z9 z10
    dsimp only
    with_reducible apply ladleAck_kept
    with_reducible apply writePieces_kept
    exact h4
  · rename_i z11 z12
    dsimp only
    with_reducible apply ladleAck_kept
    with_reducible apply caveWrite_kept
    exact h8
  · rename_i z13 z14 z15
    dsimp only
    exact hk

theorem endDescriptor_kept {a' : State} {d : RSlot} {c : Nat} {s : State} (hk : Kept a' s) :
    Kept a' (endDescriptor d c s) := by
  unfold endDescriptor
  lift_lets
  intro x0
  clear_value x0
  intro x1
  have h2 : Kept a' x1 := by
    subst x1
    with_reducible apply ladleEvent_kept
    with_reducible apply State.incR_kept
    exact hk
  clear_value x1
  intro x3
  have h4 : Kept a' x3 := by
    subst x3
    with_reducible apply modCh_kept
    exact h2
  clear_value x3
  with_reducible apply tryStart_kept
  with_reducible apply State.wrR_kept
  exact h4

theorem stopChannels_kept {a' : State} {d : RSlot} {s : State} (hk : Kept a' s) :
    Kept a' (stopChannels d s) := by
  unfold stopChannels
  lift_lets
  intro x0
  have h1 : Kept a' x0 := by
    subst x0
    with_reducible apply Kept.foldl
    · intro t2 y3 h4
      apply Kept.ite
      · with_reducible apply State.wrR_kept
        exact h4
      · exact h4
    · exact hk
  clear_value x0
  with_reducible apply raise_kept
  with_reducible apply State.wrR_kept
  with_reducible apply Kept.modRind
  · intro y5 y6
    exact y6
  · exact h1

theorem busError_kept {a' : State} {d : RSlot} {c : Nat} {s : State} (hk : Kept a' s) :
    Kept a' (busError d c s) := by
  unfold busError
  apply Kept.ite
  · exact hk
  · lift_lets
    intro x0
    have h1 : Kept a' x0 := by
      subst x0
      with_reducible apply State.incR_kept
      exact hk
    clear_value x0
    intro x2
    have h3 : Kept a' x2 := by
      subst x2
      with_reducible apply Kept.modRind
      · intro y4 y5
        exact y5
      · exact h1
    clear_value x2
    apply Kept.ite
    · with_reducible apply enterError_kept
      with_reducible apply State.incR_kept
      exact h3
    · with_reducible apply stopChannels_kept
      exact h1

theorem resumeAlone_kept {a' : State} {d : RSlot} {c : Nat} {s : State} (hk : Kept a' s) :
    Kept a' (resumeAlone d c s) := by
  unfold resumeAlone
  lift_lets
  intro x0
  have h1 : Kept a' x0 := by
    subst x0
    with_reducible apply State.wrR_kept
    with_reducible apply State.wrR_kept
    exact hk
  clear_value x0
  intro x2
  clear_value x2
  apply Kept.ite
  · with_reducible apply modCh_kept
    with_reducible apply State.wrR_kept
    exact h1
  · exact h1

theorem endPass_kept {a' : State} {d : RSlot} {found : Bool} {s : State} (hk : Kept a' s) :
    Kept a' (endPass d found s) := by
  unfold endPass
  lift_lets
  intro x0
  have h1 : Kept a' x0 := by
    subst x0
    with_reducible apply Kept.modRind
    · intro y2 y3
      exact y3
    · exact hk
  clear_value x0
  intro x4
  have h5 : Kept a' x4 := by
    subst x4
    with_reducible apply State.wrR_kept
    with_reducible apply State.wrR_kept
    exact h1
  clear_value x4
  intro x6
  have h7 : Kept a' x6 := by
    subst x6
    apply Kept.ite
    · exact h5
    · with_reducible apply State.incR_kept
      exact h5
  clear_value x6
  with_reducible apply Kept.foldl
  · intro t8 y9 h10
    with_reducible apply tryStart_kept
    exact h10
  · exact h7

theorem nextTry_kept {a' : State} {d : RSlot} {left : List Nat} {found : Bool} {s : State} (hk : Kept a' s) :
    Kept a' (nextTry d left found s) := by
  unfold nextTry
  split
  · rename_i z0 z1 z2
    with_reducible apply resumeAlone_kept
    with_reducible apply Kept.modRind
    · intro y3 y4
      exact y4
    · exact hk
  · rename_i z5
    with_reducible apply endPass_kept
    exact hk

theorem passStep_kept {a' : State} {d : RSlot} {skip : Bool} {s : State} (hk : Kept a' s) :
    Kept a' (passStep d skip s) := by
  unfold passStep
  apply Kept.ite
  · exact hk
  · split
    · rename_i z0 z1
      with_reducible apply nextTry_kept
      exact hk
    · rename_i z2 z3 z4 z5
      lift_lets
      intro x6
      clear_value x6
      apply Kept.ite
      · apply Kept.ite
        · with_reducible apply nextTry_kept
          with_reducible apply State.wrR_kept
          exact hk
        · exact hk
      · split
        · rename_i z7 z8 z9 z10
          with_reducible apply nextTry_kept
          with_reducible apply State.wrR_kept
          exact hk
        · rename_i z11 z12 z13
          with_reducible apply nextTry_kept
          exact hk

theorem drainLadle_kept {a' : State} {d : RSlot} {c : Nat} {s : State} (hk : Kept a' s) :
    Kept a' (drainLadle d c s) := by
  unfold drainLadle
  apply Kept.ite
  · with_reducible apply syncFault_kept
    with_reducible apply modCh_kept
    exact hk
  · with_reducible apply modCh_kept
    exact hk

theorem windowRefusal_kept {a' : State} {d : RSlot} {off : Nat} {s : State} (hk : Kept a' s) :
    Kept a' (windowRefusal d off s) := by
  unfold windowRefusal
  with_reducible apply raise_kept
  with_reducible apply State.incR_kept
  exact hk

theorem noteStore_kept {a' : State} {d : RSlot} {a : Nat} {len : Nat} {s : State} (hk : Kept a' s) :
    Kept a' (noteStore d a len s) := by
  unfold noteStore
  with_reducible refine Kept.mk' rfl rfl rfl rfl rfl rfl rfl rfl rfl rfl ?_
  exact hk

theorem curdRaise_kept {a' : State} {g : Nat} {j : Nat} {detail : Nat} {s : State} (hk : Kept a' s) :
    Kept a' (curdRaise g j detail s) := by
  unfold curdRaise
  lift_lets
  intro x0
  have h1 : Kept a' x0 := by
    subst x0
    with_reducible apply fromCurd_kept
    exact hk
  clear_value x0
  apply Kept.ite
  · with_reducible refine Kept.mk' rfl rfl rfl rfl rfl rfl rfl rfl rfl rfl ?_
    exact h1
  · exact h1

theorem endRead_kept {a' : State} {d : RSlot} {p : Nat} {s : State} (hk : Kept a' s) :
    Kept a' (endRead d p s) := by
  unfold endRead
  with_reducible apply modPort_kept
  exact hk

theorem startPorts_kept {a' : State} {s : State} (hk : Kept a' s) :
    Kept a' (startPorts s) := by
  unfold startPorts
  lift_lets
  intro x0
  clear_value x0
  intro x1
  clear_value x1
  with_reducible apply Kept.foldl
  · intro t2 y3 h4
    apply Kept.ite
    · with_reducible apply enablePort_kept
      exact h4
    · exact h4
  · exact hk

theorem backstopReads_kept {a' : State} {d : RSlot} {s : State} (hk : Kept a' s) :
    Kept a' (backstopReads d s) := by
  unfold backstopReads
  with_reducible apply Kept.foldl
  · intro t0 y1 h2
    apply Kept.ite
    · with_reducible apply readLineOf_kept
      exact h2
    · exact h2
  · exact hk

theorem rewritePass_kept {a' : State} {d : RSlot} {dom : Nat} {s : State} (hk : Kept a' s) :
    Kept a' (rewritePass d dom s) := by
  unfold rewritePass
  lift_lets
  intro x0
  have h1 : Kept a' x0 := by
    subst x0
    with_reducible apply Kept.foldl
    · intro t2 y3 h4
      apply Kept.ite
      · with_reducible apply Kept.foldl
        · intro t5 y6 h7
          with_reducible apply hostPut_kept
          exact h7
        · exact h4
      · exact h4
    · exact hk
  clear_value x0
  apply Kept.ite
  · with_reducible apply writeCommon_kept
    exact h1
  · exact h1

theorem hostLinkStep_kept {a' : State} {d : RSlot} {h : Nat} {s : State} (hk : Kept a' s) :
    Kept a' (hostLinkStep d h s) := by
  unfold hostLinkStep
  apply Kept.ite
  · with_reducible apply newStep_kept
    exact hk
  · exact hk

theorem headUp_kept {a' : State} {d : RSlot} {h : Nat} {s : State} (hk : Kept a' s) :
    Kept a' (headUp d h s) := by
  unfold headUp
  lift_lets
  intro x0
  have h1 : Kept a' x0 := by
    subst x0
    apply Kept.ite
    · with_reducible apply pumpAll_kept
      with_reducible apply releaseHeld_kept
      exact hk
    · exact hk
  clear_value x0
  intro x2
  have h3 : Kept a' x2 := by
    subst x2
    with_reducible apply Kept.foldl
    · intro t4 y5 h6
      apply Kept.ite
      · with_reducible apply writeCommon_kept
        exact h6
      · exact h6
    · exact h1
  clear_value x2
  with_reducible apply dieWordDue_kept
  with_reducible apply Kept.foldl
  · intro t7 y8 h9
    apply Kept.ite
    · with_reducible apply readLineOf_kept
      exact h9
    · exact h9
  · exact h3

theorem modHeadPorts_kept {a' : State} {d : RSlot} {h : Nat} {f : PortX → PortX} {s : State} (hk : Kept a' s) :
    Kept a' (modHeadPorts d h f s) := by
  unfold modHeadPorts
  with_reducible refine Kept.mk' rfl rfl rfl rfl rfl rfl rfl rfl rfl rfl ?_
  exact hk

theorem headLost_kept {a' : State} {d : RSlot} {h : Nat} {st : Nat} {s : State} (hk : Kept a' s) :
    Kept a' (headLost d h st s) := by
  unfold headLost
  lift_lets
  intro x0
  clear_value x0
  intro x1
  have h2 : Kept a' x1 := by
    subst x1
    with_reducible apply State.wrR_kept
    with_reducible apply State.wrR_kept
    with_reducible apply State.wrR_kept
    exact hk
  clear_value x1
  intro x3
  have h4 : Kept a' x3 := by
    subst x3
    with_reducible apply modHeadPorts_kept
    exact h2
  clear_value x3
  intro x5
  have h6 : Kept a' x5 := by
    subst x5
    apply Kept.ite
    · with_reducible apply Kept.foldl
      · intro t7 y8 h9
        with_reducible apply soleWriter_kept
        exact h9
      · exact h4
    · exact h4
  clear_value x5
  with_reducible apply dieWordDue_kept
  with_reducible apply State.wrR_kept
  with_reducible apply State.wrR_kept
  exact h6

theorem showPins_kept {a' : State} {s : State} (hk : Kept a' s) :
    Kept a' (showPins s) := by
  unfold showPins
  lift_lets
  intro x0
  clear_value x0
  with_reducible apply Kept.foldl
  · intro t1 y2 h3
    lift_lets
    intro x4
    have h5 : Kept a' x4 := by
      subst x4
      with_reducible apply State.wrR_kept
      with_reducible apply State.wrR_kept
      exact h3
    clear_value x4
    intro x6
    have h7 : Kept a' x6 := by
      subst x6
      with_reducible apply State.wrR_kept
      with_reducible apply State.wrR_kept
      exact h5
    clear_value x6
    with_reducible apply State.wrR_kept
    exact h7
  · exact hk

theorem startIslands_kept {a' : State} {s : State} (hk : Kept a' s) :
    Kept a' (startIslands s) := by
  unfold startIslands
  lift_lets
  intro x0
  clear_value x0
  intro x1
  have h2 : Kept a' x1 := by
    subst x1
    with_reducible refine Kept.mk' rfl rfl rfl rfl rfl rfl rfl rfl rfl rfl ?_
    exact hk
  clear_value x1
  intro x3
  have h4 : Kept a' x3 := by
    subst x3
    with_reducible apply Kept.foldl
    · intro t5 y6 h7
      lift_lets
      intro x8
      have h9 : Kept a' x8 := by
        subst x8
        with_reducible apply State.wrR_kept
        with_reducible apply State.wrR_kept
        with_reducible apply State.wrR_kept
        exact h7
      clear_value x8
      with_reducible apply State.wrR_kept
      with_reducible apply State.wrR_kept
      exact h9
    · with_reducible apply showPins_kept
      exact h2
  clear_value x3
  intro x10
  have h11 : Kept a' x10 := by
    subst x10
    with_reducible apply State.wrR_kept
    exact h4
  clear_value x10
  intro x12
  have h13 : Kept a' x12 := by
    subst x12
    apply Kept.ite
    · with_reducible apply Kept.foldl
      · intro t14 y15 h16
        with_reducible apply raise_kept
        exact h16
      · exact h11
    · exact h11
  clear_value x12
  intro x17
  clear_value x17
  apply Kept.ite
  · with_reducible apply Kept.foldl
    · intro t18 y19 h20
      with_reducible apply raise_kept
      exact h20
    · with_reducible refine Kept.mk' rfl rfl rfl rfl rfl rfl rfl rfl rfl rfl ?_
      exact h13
  · exact h13

theorem pauseCooking_kept {a' : State} {s : State} (hk : Kept a' s) :
    Kept a' (pauseCooking s) := by
  unfold pauseCooking
  apply Kept.ite
  · with_reducible apply modSpin_kept
    exact hk
  · exact hk

theorem resumeCooking_kept {a' : State} {s : State} (hk : Kept a' s) :
    Kept a' (resumeCooking s) := by
  unfold resumeCooking
  apply Kept.ite
  · with_reducible apply modSpin_kept
    exact hk
  · exact hk

theorem regulatorFault_kept {a' : State} {r : Rail} {s : State} (hk : Kept a' s) :
    Kept a' (regulatorFault r s) := by
  unfold regulatorFault
  with_reducible apply inStep_kept
  · intro y0 t1 h2
    with_reducible apply raise_kept
    exact h2
  · with_reducible refine Kept.mk' rfl rfl rfl rfl rfl rfl rfl rfl rfl rfl ?_
    exact hk

theorem pmbWrite_kept {a' : State} {r : Rail} {code : Nat} {data : Nat} {resp : PmbResp} {f : State → State} {s : State} (hf : ∀ t, Kept a' t → Kept a' (f t)) (hk : Kept a' s) :
    Kept a' (pmbWrite r code data resp f s) := by
  unfold pmbWrite
  apply Kept.ite
  · lift_lets
    intro x0
    have h1 : Kept a' x0 := by
      subst x0
      with_reducible apply Kept.emit
      exact hk
    clear_value x0
    apply Kept.ite
    · apply hf
      exact h1
    · with_reducible apply regulatorFault_kept
      exact h1
  · exact hk

theorem pmbRead_kept {a' : State} {r : Rail} {code : Nat} {resp : PmbResp} {f : State → State} {s : State} (hf : ∀ t, Kept a' t → Kept a' (f t)) (hk : Kept a' s) :
    Kept a' (pmbRead r code resp f s) := by
  unfold pmbRead
  apply Kept.ite
  · lift_lets
    intro x0
    have h1 : Kept a' x0 := by
      subst x0
      with_reducible apply Kept.emit
      exact hk
    clear_value x0
    intro x2
    clear_value x2
    intro x3
    clear_value x3
    apply Kept.ite
    · apply hf
      with_reducible refine Kept.mk' rfl rfl rfl rfl rfl rfl rfl rfl rfl rfl ?_
      exact h1
    · apply Kept.ite
      · with_reducible apply regulatorFault_kept
        with_reducible refine Kept.mk' rfl rfl rfl rfl rfl rfl rfl rfl rfl rfl ?_
        exact h1
      · with_reducible refine Kept.mk' rfl rfl rfl rfl rfl rfl rfl rfl rfl rfl ?_
        exact h1
  · exact hk

theorem railsUp_kept {a' : State} {s : State} (hk : Kept a' s) :
    Kept a' (railsUp s) := by
  unfold railsUp
  apply Kept.ite
  · with_reducible apply Kept.foldl
    · intro t0 y1 h2
      apply Kept.ite
      · with_reducible apply State.wrR_kept
        exact h2
      · exact h2
    · exact hk
  · exact hk

theorem giveBus_kept {a' : State} {d : RSlot} {s : State} (hk : Kept a' s) :
    Kept a' (giveBus d s) := by
  unfold giveBus
  lift_lets
  intro x0
  have h1 : Kept a' x0 := by
    subst x0
    with_reducible apply State.wrR_kept
    with_reducible apply State.wrR_kept
    exact hk
  clear_value x0
  intro x2
  clear_value x2
  with_reducible refine Kept.mk' rfl rfl rfl rfl rfl rfl rfl rfl rfl rfl ?_
  exact h1

theorem powerLoss_kept {a' : State} {s : State} (hk : Kept a' s) :
    Kept a' (powerLoss s) := by
  unfold powerLoss
  lift_lets
  intro x0
  have h1 : Kept a' x0 := by
    subst x0
    with_reducible apply State.bare_kept
    exact hk
  clear_value x0
  intro x2
  clear_value x2
  with_reducible refine Kept.mk' rfl rfl rfl rfl rfl rfl rfl rfl rfl rfl ?_
  exact h1

theorem setPerst_kept {a' : State} {d : RSlot} {h : Nat} {high : Bool} {s : State} (hk : Kept a' s) :
    Kept a' (setPerst d h high s) := by
  unfold setPerst
  lift_lets
  intro x0
  clear_value x0
  intro x1
  clear_value x1
  with_reducible apply showPins_kept
  with_reducible refine Kept.mk' rfl rfl rfl rfl rfl rfl rfl rfl rfl rfl ?_
  exact hk

theorem restartLog_kept {a' : State} {d : RSlot} {i : Island} {s : State} (hk : Kept a' s) :
    Kept a' (restartLog d i s) := by
  unfold restartLog
  with_reducible apply State.wrR_kept
  exact hk

theorem fullReset_kept {a' : State} {s : State} (hk : Kept a' s) :
    Kept a' (fullReset s) := by
  have h1 : Kept a' (onlyBrkdis (onlyFails .f1 (onlyFails .f0
      (keepRegs (fun k => isLog k || isSpinStat k || decide (keyDie k < 2 ∧ keyOff k = 0x10000)) s)))) :=
    onlyBrkdis_kept (onlyFails_kept (onlyFails_kept (Kept.keepRegs hk)))
  unfold fullReset
  dsimp only
  refine restartLog_kept (restartLog_kept ?_)
  exact ⟨hk.part, hk.pending, hk.now, h1.regs, fun _ => rfl, fun _ => rfl, fun _ c hc => by
    simp only [State.bare, List.mem_cons, List.not_mem_nil, or_false, or_self] at hc
    subst hc
    rfl, fun _ => rfl, hk.fuses, hk.free, hk.out⟩

theorem copyBufferMemory_kept {a' : State} {srv : RSlot} {t : RSlot} {s : State} (hk : Kept a' s) :
    Kept a' (copyBufferMemory srv t s) := by
  have hs : a'.memWf = true → Memory.wf (s.rind srv).bmem.cells = true := fun w => by
    cases srv
    · exact hk.mem0 w
    · exact hk.mem1 w
  cases t
  · exact ⟨hk.part, hk.pending, hk.now, hk.regs, hs, hk.mem1, hk.scratch, hk.six, hk.fuses, hk.free, hk.out⟩
  · exact ⟨hk.part, hk.pending, hk.now, hk.regs, hk.mem0, hs, hk.scratch, hk.six, hk.fuses, hk.free, hk.out⟩

theorem copyDieState_kept {a' : State} {srv : RSlot} {t : RSlot} {s : State} (hk : Kept a' s) :
    Kept a' (copyDieState srv t s) := by
  unfold copyDieState
  lift_lets
  intro x0
  have h1 : Kept a' x0 := by
    subst x0
    with_reducible apply copyBufferMemory_kept
    exact hk
  clear_value x0
  intro x2
  clear_value x2
  intro x3
  have h4 : Kept a' x3 := by
    subst x3
    with_reducible apply Kept.keepRegs
    exact h1
  clear_value x3
  intro x5
  have h6 : Kept a' x5 := by
    subst x5
    with_reducible apply Kept.foldl
    · intro t7 y8 h9
      with_reducible apply Kept.setWord
      exact h9
    · exact h4
  clear_value x5
  intro x10
  clear_value x10
  with_reducible apply Kept.modRind
  · intro y11 y12
    exact y12
  · exact h6

theorem drainCommand_kept {a' : State} {d : RSlot} {port : Nat} {tag : Nat} {s : State} (hk : Kept a' s) :
    Kept a' (drainCommand d port tag s) := by
  unfold drainCommand
  split
  · rename_i z0 z1
    exact hk
  · rename_i z2 z3 z4
    apply Kept.ite
    · with_reducible apply raiseAll_kept
      with_reducible apply recoverCmd_kept
      with_reducible apply useRung_kept
      exact hk
    · with_reducible apply modCmd_kept
      exact hk

theorem startFail_kept {a' : State} {detail : List Nat} {s : State} (hk : Kept a' s) :
    Kept a' (startFail detail s) := by
  unfold startFail
  lift_lets
  intro x0
  have h1 : Kept a' x0 := by
    subst x0
    with_reducible apply Kept.foldl
    · intro t2 y3 h4
      with_reducible apply State.incR_kept
      exact h4
    · exact hk
  clear_value x0
  intro x5
  have h6 : Kept a' x5 := by
    subst x5
    with_reducible apply raise_kept
    exact h1
  clear_value x5
  with_reducible refine Kept.mk' rfl rfl rfl rfl rfl rfl rfl rfl rfl rfl ?_
  exact h6

theorem readGood_kept {a' : State} {sl : SlotNo} {v : Nat} {blk : Nat} {weak : Bool} {data : List Byte} {s : State} (hk : Kept a' s) :
    Kept a' (readGood sl v blk weak data s) := by
  unfold readGood
  lift_lets
  intro x0
  have h1 : Kept a' x0 := by
    subst x0
    apply Kept.ite
    · with_reducible apply applyChange_kept
      exact hk
    · exact hk
  clear_value x0
  with_reducible apply refreshCopies_kept
  with_reducible apply Kept.foldl
  · intro t2 y3 h4
    apply Kept.ite
    · with_reducible apply modCmd_kept
      exact h4
    · exact h4
  · exact h1

theorem markReloc_kept {a' : State} {sl : SlotNo} {o : Nat} {s : State} (hk : Kept a' s) :
    Kept a' (markReloc sl o s) := by
  unfold markReloc
  with_reducible apply modXlat_kept
  exact hk

theorem bumpCount_kept {a' : State} {sl : SlotNo} {s : State} (hk : Kept a' s) :
    Kept a' (bumpCount sl s) := by
  unfold bumpCount
  apply Kept.ite
  · exact hk
  · lift_lets
    intro x0
    clear_value x0
    with_reducible apply modT_kept
    exact hk

theorem countWrite_kept {a' : State} {sl : SlotNo} {o : Nat} {s : State} (hk : Kept a' s) :
    Kept a' (countWrite sl o s) := by
  unfold countWrite
  split
  · rename_i z0 z1 z2 z3 z4 z5
    apply Kept.ite
    · exact hk
    · lift_lets
      intro x6
      clear_value x6
      intro x7
      clear_value x7
      intro x8
      clear_value x8
      intro x9
      clear_value x9
      with_reducible apply Kept.foldl
      · intro t10 y11 h12
        with_reducible apply bumpCount_kept
        exact h12
      · exact hk
  · rename_i z13 z14 z15
    exact hk

theorem noteWritten_kept {a' : State} {v : Nat} {blk : Nat} {s : State} (hk : Kept a' s) :
    Kept a' (noteWritten v blk s) := by
  unfold noteWritten
  lift_lets
  intro x0
  clear_value x0
  split
  · rename_i z1 z2 z3
    with_reducible refine Kept.mk' rfl rfl rfl rfl rfl rfl rfl rfl rfl rfl ?_
    exact hk
  · rename_i z4 z5
    exact hk

theorem writeGood_kept {a' : State} {sl : SlotNo} {o : Nat} {v : Nat} {blk : Nat} {s : State} (hk : Kept a' s) :
    Kept a' (writeGood sl o v blk s) := by
  unfold writeGood
  with_reducible apply retire_kept
  with_reducible apply markReloc_kept
  with_reducible apply countWrite_kept
  with_reducible apply noteWritten_kept
  exact hk

theorem noteWriteFault_kept {a' : State} {blk : Nat} {uid : Nat} {s : State} (hk : Kept a' s) :
    Kept a' (noteWriteFault blk uid s) := by
  unfold noteWriteFault
  split
  · rename_i z0 z1
    exact hk
  · rename_i z2 z3 z4
    lift_lets
    intro x5
    clear_value x5
    split
    · rename_i z6 z7
      with_reducible apply failCmd_kept
      exact hk
    · rename_i z8 z9 z10 z11
      apply Kept.ite
      · with_reducible apply modCmd_kept
        exact hk
      · exact hk

theorem writeFailed_kept {a' : State} {sl : SlotNo} {o : Nat} {v : Nat} {blk : Nat} {s : State} (hk : Kept a' s) :
    Kept a' (writeFailed sl o v blk s) := by
  unfold writeFailed
  lift_lets
  intro x0
  have h1 : Kept a' x0.2 := by
    subst x0
    with_reducible apply reassign_kept
    exact hk
  clear_value x0
  intro x2
  clear_value x2
  intro x3
  have h4 : Kept a' x3 := by
    subst x3
    exact h1
  clear_value x3
  apply Kept.ite
  · with_reducible refine Kept.mk' rfl rfl rfl rfl rfl rfl rfl rfl rfl rfl ?_
    exact h4
  · with_reducible apply Kept.foldl
    · intro t5 y6 h7
      with_reducible apply noteWriteFault_kept
      exact h7
    · with_reducible refine Kept.mk' rfl rfl rfl rfl rfl rfl rfl rfl rfl rfl ?_
      exact h4

theorem workAgain_kept {a' : State} {v : Nat} {blk : Nat} {s : State} (hk : Kept a' s) :
    Kept a' (workAgain v blk s) := by
  unfold workAgain
  lift_lets
  intro x0
  have h1 : Kept a' x0 := by
    subst x0
    with_reducible refine Kept.mk' rfl rfl rfl rfl rfl rfl rfl rfl rfl rfl ?_
    exact hk
  clear_value x0
  with_reducible apply Kept.foldl
  · intro t2 y3 h4
    with_reducible apply modCmd_kept
    exact h4
  · exact h1

theorem notePass_kept {a' : State} {sl : SlotNo} {o : Nat} {s : State} (hk : Kept a' s) :
    Kept a' (notePass sl o s) := by
  unfold notePass
  with_reducible apply modXlat_kept
  exact hk

theorem sectorOutcome_kept {a' : State} {g : Nat} {eseq : Nat} {w0 : Nat} {w1 : Nat} {s : State} (hk : Kept a' s) :
    Kept a' (sectorOutcome g eseq w0 w1 s) := by
  unfold sectorOutcome
  lift_lets
  intro x0
  clear_value x0
  intro x1
  clear_value x1
  split
  · rename_i z2 z3
    exact hk
  · rename_i z4 z5 z6 z7
    lift_lets
    intro x8
    have h9 : Kept a' x8 := by
      subst x8
      apply Kept.ite
      · with_reducible apply notePass_kept
        exact hk
      · exact hk
    clear_value x8
    apply Kept.ite
    · with_reducible apply applyChange_kept
      exact hk
    · split
      · rename_i z10 z11
        exact h9
      · rename_i z12 z13 z14
        lift_lets
        intro x15
        clear_value x15
        apply Kept.ite
        · exact h9
        · split
          · rename_i z16
            with_reducible apply readGood_kept
            exact h9
          · rename_i z17
            with_reducible apply readGood_kept
            exact h9
          · rename_i z18
            with_reducible apply Kept.foldl
            · intro t19 y20 h21
              with_reducible apply modCmd_kept
              exact h21
            · exact h9
          · rename_i z22
            with_reducible apply writeGood_kept
            exact h9
          · rename_i z23
            with_reducible apply writeFailed_kept
            exact h9
          · rename_i z24
            with_reducible apply workAgain_kept
            exact h9
          · rename_i z25 z26 z27 z28 z29 z30 z31
            exact h9

theorem fillAfter_kept {a' : State} {g : Nat} {ws : List Word} {s : State} (hk : Kept a' s) :
    Kept a' (fillAfter g ws s) := by
  unfold fillAfter
  lift_lets
  intro x0
  clear_value x0
  intro x1
  clear_value x1
  intro x2
  clear_value x2
  intro x3
  clear_value x3
  apply Kept.ite
  · exact hk
  · split
    · rename_i z4 z5
      exact hk
    · rename_i z6 z7 z8 z9
      split
      · rename_i z10 z11 z12 z13 z14 z15
        apply Kept.ite
        · with_reducible apply applyChange_kept
          exact hk
        · exact hk
      · rename_i z16 z17 z18
        exact hk

theorem markLive_kept {a' : State} {g : Nat} {d : RSlot} {s : State} (hk : Kept a' s) :
    Kept a' (markLive g d s) := by
  unfold markLive
  with_reducible apply State.wrC_kept
  with_reducible apply State.modEnd_kept
  exact hk

theorem reportMismatch_kept {a' : State} {g : Nat} {cls : Nat} {slot : RSlot} {eseq : Nat} {s : State} (hk : Kept a' s) :
    Kept a' (reportMismatch g cls slot eseq s) := by
  unfold reportMismatch
  with_reducible apply fromCurd_kept
  with_reducible apply State.incC_kept
  exact hk

theorem discardCopy_kept {a' : State} {g : Nat} {src : RSlot} {m : Msg} {s : State} (hk : Kept a' s) :
    Kept a' (discardCopy g src m s) := by
  unfold discardCopy
  with_reducible apply takeMsg_kept
  with_reducible apply State.incC_kept
  exact hk

theorem firstCopy_kept {a' : State} {g : Nat} {src : RSlot} {m : Msg} {s : State} (hk : Kept a' s) :
    Kept a' (firstCopy g src m s).2 := by
  unfold firstCopy
  lift_lets
  intro x0
  have h1 : Kept a' x0 := by
    subst x0
    with_reducible apply markLive_kept
    exact hk
  clear_value x0
  intro x2
  clear_value x2
  intro x3
  have h4 : Kept a' x3 := by
    subst x3
    with_reducible apply discardCopy_kept
    exact h1
  clear_value x3
  split
  · rename_i z5 z6 z7
    lift_lets
    intro x8
    have h9 : Kept a' x8 := by
      subst x8
      with_reducible apply modFmt_kept
      exact h4
    clear_value x8
    dsimp only
    apply Kept.ite
    · exact h9
    · with_reducible apply reportMismatch_kept
      exact h9
  · rename_i z10 z11
    split
    · rename_i z12 z13 z14
      apply Kept.ite_snd
      · dsimp only
        with_reducible apply modFmt_kept
        exact h1
      · dsimp only
        with_reducible apply discardCopy_kept
        with_reducible apply State.incC_kept
        exact h1
    · rename_i z15 z16
      apply Kept.ite_snd
      · dsimp only
        with_reducible apply takeMsg_kept
        exact h1
      · dsimp only
        with_reducible apply modFmt_kept
        exact h1

theorem powerReaders_kept {a' : State} {g : Nat} {s : State} (hk : Kept a' s) :
    Kept a' (powerReaders g s) := by
  unfold powerReaders
  lift_lets
  intro x0
  clear_value x0
  intro x1
  clear_value x1
  intro x2
  have h3 : Kept a' x2 := by
    subst x2
    apply Kept.ite
    · with_reducible apply paSet_kept
      exact hk
    · exact hk
  clear_value x2
  with_reducible apply State.wrC_kept
  with_reducible apply State.wrC_kept
  exact h3

theorem loadZone_kept {a' : State} {g : Nat} {surf : Nat} {zone : Nat} {s : State} (hk : Kept a' s) :
    Kept a' (loadZone g surf zone s) := by
  unfold loadZone
  split
  · rename_i z0 z1
    exact hk
  · rename_i z2 z3 z4
    lift_lets
    intro x5
    clear_value x5
    intro x6
    clear_value x6
    intro x7
    have h8 : Kept a' x7 := by
      subst x7
      apply Kept.ite
      · exact hk
      · with_reducible apply paWrite_kept
        exact hk
    clear_value x7
    intro x9
    have h10 : Kept a' x9 := by
      subst x9
      apply Kept.ite
      · exact h8
      · with_reducible apply Kept.foldl
        · intro t11 y12 h13
          with_reducible apply paSet_kept
          exact h13
        · exact h8
    clear_value x9
    intro x14
    have h15 : Kept a' x14 := by
      subst x14
      apply Kept.ite
      · exact h10
      · with_reducible apply Kept.emit
        with_reducible apply modFmt_kept
        exact h10
    clear_value x14
    with_reducible apply powerReaders_kept
    with_reducible apply modFmt_kept
    exact h15

theorem invalidate_kept {a' : State} {g : Nat} {surf : Nat} {track : Nat} {pos : Nat} {s : State} (hk : Kept a' s) :
    Kept a' (invalidate g surf track pos s) := by
  unfold invalidate
  with_reducible apply showVault_kept
  with_reducible apply modFmt_kept
  exact hk

theorem makeEntry_kept {a' : State} {g : Nat} {x : Sec} {cap : Capture} {s : State} (hk : Kept a' s) :
    Kept a' (makeEntry g x cap s).2 := by
  unfold makeEntry
  lift_lets
  intro x0
  clear_value x0
  intro x1
  clear_value x1
  intro x2
  clear_value x2
  intro x3
  clear_value x3
  intro x4
  clear_value x4
  intro x5
  clear_value x5
  dsimp only
  with_reducible apply showVault_kept
  with_reducible apply modFmt_kept
  exact hk

theorem endPairWaits_kept {a' : State} {g : Nat} {s : State} (hk : Kept a' s) :
    Kept a' (endPairWaits g s) := by
  unfold endPairWaits
  lift_lets
  intro x0
  clear_value x0
  intro x1
  have h2 : Kept a' x1 := by
    subst x1
    with_reducible apply modFmt_kept
    exact hk
  clear_value x1
  with_reducible apply showFmt_kept
  with_reducible apply Kept.foldl
  · intro t3 y4 h5
    with_reducible apply refuseRun_kept
    exact h5
  · exact h2

theorem queueRun_kept {a' : State} {g : Nat} {src : RSlot} {m : Msg} {s : State} (hk : Kept a' s) :
    Kept a' (queueRun g src m s) := by
  unfold queueRun
  lift_lets
  intro x0
  clear_value x0
  intro x1
  have h2 : Kept a' x1 := by
    subst x1
    with_reducible apply report_kept
    exact hk
  clear_value x1
  intro x3
  have h4 : Kept a' x3 := by
    subst x3
    with_reducible apply fromCurd_kept
    exact h2
  clear_value x3
  apply Kept.ite
  · with_reducible apply curdRaise_kept
    with_reducible apply takeMsg_kept
    exact h4
  · with_reducible apply showFmt_kept
    with_reducible apply modFmt_kept
    exact hk

theorem nextShot_kept {a' : State} {g : Nat} {eseq : Nat} {i : Nat} {s : State} (hk : Kept a' s) :
    Kept a' (nextShot g eseq i s) := by
  unfold nextShot
  split
  · rename_i z0 z1
    exact hk
  · rename_i z2 z3 z4
    apply Kept.ite
    · with_reducible apply modSec_kept
      apply Kept.ite
      · with_reducible apply setBias_kept
        exact hk
      · exact hk
    · with_reducible apply advance_kept
      exact hk

theorem innerAfter_kept {a' : State} {g : Nat} {eseq : Nat} {i : Nat} {k : Nat} {s : State} (hk : Kept a' s) :
    Kept a' (innerAfter g eseq i k s) := by
  unfold innerAfter
  split
  · rename_i z0 z1
    exact hk
  · rename_i z2 z3 z4
    split
    · rename_i z5 z6 z7
      with_reducible apply modSec_kept
      exact hk
    · rename_i z8 z9
      with_reducible apply nextShot_kept
      exact hk

theorem pinFailed_kept {a' : State} {g : Nat} {eseq : Nat} {i : Nat} {s : State} (hk : Kept a' s) :
    Kept a' (pinFailed g eseq i s) := by
  unfold pinFailed
  split
  · rename_i z0 z1
    exact hk
  · rename_i z2 z3 z4
    lift_lets
    intro x5
    have h6 : Kept a' x5 := by
      subst x5
      with_reducible apply unpin_kept
      exact hk
    clear_value x5
    intro x7
    have h8 : Kept a' x7 := by
      subst x7
      split
      · rename_i z9 z10 z11
        apply Kept.ite
        · with_reducible apply modEntry_kept
          exact h6
        · exact h6
      · rename_i z12 z13
        exact h6
    clear_value x7
    intro x14
    clear_value x14
    with_reducible apply modSec_kept
    with_reducible apply modFmt_kept
    exact h8

theorem goodSec_kept {a' : State} {g : Nat} {eseq : Nat} {i : Nat} {rung : Nat} {place : Int × Nat} {p : List Byte} {s : State} (hk : Kept a' s) :
    Kept a' (goodSec g eseq i rung place p s) := by
  unfold goodSec
  split
  · rename_i z0 z1
    exact hk
  · rename_i z2 z3 z4
    lift_lets
    intro x5
    have h6 : Kept a' x5 := by
      subst x5
      split
      · rename_i z7 z8 z9
        with_reducible apply modEntry_kept
        exact hk
      · rename_i z10 z11
        exact hk
    clear_value x5
    with_reducible apply settleSec_kept
    apply Kept.ite
    · with_reducible apply setBias_kept
      exact h6
    · exact h6

theorem rungOne_kept {a' : State} {g : Nat} {eseq : Nat} {i : Nat} {s : State} (hk : Kept a' s) :
    Kept a' (rungOne g eseq i s) := by
  unfold rungOne
  split
  · rename_i z0 z1
    exact hk
  · rename_i z2 z3 z4
    lift_lets
    intro x5
    have h6 : ∀ y0, Kept a' y0 → Kept a' (x5 y0) := by
      subst x5
      intro t7 h8
      beta_reduce
      apply Kept.ite
      · with_reducible apply advance_kept
        exact h8
      · with_reducible apply innerAfter_kept
        exact h8
    clear_value x5
    intro x9
    clear_value x9
    split
    · rename_i z10 z11
      apply h6
      with_reducible apply pinFailed_kept
      with_reducible apply beginLadder_kept
      with_reducible apply modSec_kept
      exact hk
    · rename_i z12 z13 z14
      lift_lets
      intro x15
      clear_value x15
      intro x16
      clear_value x16
      intro x17
      clear_value x17
      split
      · rename_i z18
        apply h6
        with_reducible apply pinFailed_kept
        with_reducible apply beginLadder_kept
        with_reducible apply modSec_kept
        exact hk
      · rename_i z19 z20
        lift_lets
        intro x21
        clear_value x21
        split
        · rename_i z22 z23 z24
          with_reducible apply goodSec_kept
          exact hk
        · rename_i z25 z26
          apply h6
          with_reducible apply pinFailed_kept
          with_reducible apply beginLadder_kept
          with_reducible apply modSec_kept
          with_reducible apply modEntry_kept
          exact hk

theorem runVault_kept {a' : State} {g : Nat} {eseq : Nat} {i : Nat} {s : State} (hk : Kept a' s) :
    Kept a' (runVault g eseq i s) := by
  unfold runVault
  split
  · rename_i z0 z1
    exact hk
  · rename_i z2 z3 z4
    lift_lets
    intro x5
    clear_value x5
    intro x6
    have h7 : ∀ y0, Kept a' y0 → Kept a' (x6 y0) := by
      subst x6
      intro t8 h9
      beta_reduce
      apply Kept.ite
      · with_reducible apply advance_kept
        exact h9
      · with_reducible apply innerAfter_kept
        exact h9
    clear_value x6
    intro x10
    clear_value x10
    split
    · rename_i z11 z12
      apply Kept.ite
      · with_reducible apply advance_kept
        with_reducible apply modSec_kept
        exact hk
      · with_reducible apply nextShot_kept
        exact hk
    · rename_i z13 z14 z15
      lift_lets
      intro x16
      clear_value x16
      split
      · rename_i z17
        split
        · rename_i z18 z19 z20 z21 z22 z23
          with_reducible apply goodSec_kept
          with_reducible apply State.incC_kept
          exact hk
        · rename_i z24 z25 z26 z27 z28
          apply h7
          with_reducible apply modEntry_kept
          with_reducible apply modSec_kept
          exact hk
        · rename_i z29 z30 z31
          apply h7
          exact hk
      · rename_i z32
        split
        · rename_i z33 z34 z35
          with_reducible apply goodSec_kept
          exact hk
        · rename_i z36 z37
          apply h7
          exact hk
      · rename_i z38
        split
        · rename_i z39 z40 z41
          with_reducible apply goodSec_kept
          exact hk
        · rename_i z42 z43
          apply h7
          exact hk
      · rename_i z44
        split
        · rename_i z45 z46 z47
          with_reducible apply goodSec_kept
          exact hk
        · rename_i z48 z49
          with_reducible apply advance_kept
          exact hk
      · rename_i z50 z51 z52 z53 z54
        split
        · rename_i z55 z56 z57
          with_reducible apply goodSec_kept
          exact hk
        · rename_i z58 z59
          with_reducible apply modSec_kept
          exact hk

theorem vaultStep_kept {a' : State} {g : Nat} {s : State} (hk : Kept a' s) :
    Kept a' (vaultStep g s) := by
  unfold vaultStep
  split
  · rename_i z0 z1
    exact hk
  · rename_i z2 z3 z4
    lift_lets
    intro x5
    have h6 : Kept a' x5 := by
      subst x5
      split
      · rename_i z7 z8 z9
        apply Kept.ite
        · with_reducible apply modEntry_kept
          exact hk
        · exact hk
      · rename_i z10 z11
        exact hk
    clear_value x5
    with_reducible apply showFmt_kept
    with_reducible apply runVault_kept
    exact h6

theorem rebuildSec_kept {a' : State} {g : Nat} {eseq : Nat} {i : Nat} {s : State} (hk : Kept a' s) :
    Kept a' (rebuildSec g eseq i s) := by
  unfold rebuildSec
  split
  · rename_i z0 z1 z2 z3 z4 z5
    lift_lets
    intro x6
    clear_value x6
    intro x7
    clear_value x7
    intro x8
    clear_value x8
    intro x9
    clear_value x9
    intro x10
    have h11 : ∀ y0, Kept a' y0 → Kept a' (x10 y0) := by
      subst x10
      intro t12 h13
      beta_reduce
      with_reducible apply modFmt_kept
      exact h13
    clear_value x10
    intro x14
    clear_value x14
    intro x15
    have h16 : Kept a' x15 := by
      subst x15
      apply h11
      exact hk
    clear_value x15
    apply Kept.ite
    · split
      · rename_i z17
        split
        · rename_i z18 z19 z20
          with_reducible apply settleSec_kept
          exact h16
        · rename_i z21 z22
          with_reducible apply settleSec_kept
          with_reducible apply State.incC_kept
          exact h16
      · rename_i z23 z24
        lift_lets
        intro x25
        clear_value x25
        intro x26
        clear_value x26
        intro x27
        have h28 : Kept a' x27 := by
          subst x27
          with_reducible apply settleSec_kept
          exact h16
        clear_value x27
        split
        · rename_i z29 z30
          with_reducible apply settleSec_kept
          exact h28
        · rename_i z31
          with_reducible apply report_kept
          with_reducible apply State.incC_kept
          exact h28
      · rename_i z32 z33 z34
        with_reducible apply settleSec_kept
        with_reducible apply State.incC_kept
        exact h16
    · exact hk
  · rename_i z35 z36 z37
    exact hk

theorem deferRead_kept {a' : State} {g : Nat} {eseq : Nat} {i : Nat} {s : State} (hk : Kept a' s) :
    Kept a' (deferRead g eseq i s) := by
  unfold deferRead
  lift_lets
  intro x0
  have h1 : Kept a' x0 := by
    subst x0
    with_reducible apply modSec_kept
    with_reducible apply State.incC_kept
    exact hk
  clear_value x0
  split
  · rename_i z2 z3 z4
    apply Kept.ite
    · with_reducible apply failSec_kept
      exact h1
    · exact h1
  · rename_i z5 z6
    exact h1

theorem openGate_kept {a' : State} {g : Nat} {e : Posted} {s : State} (hk : Kept a' s) :
    Kept a' (openGate g e s) := by
  unfold openGate
  split
  · rename_i z0 z1
    exact hk
  · rename_i z2 z3 z4 z5 z6
    lift_lets
    intro x7
    clear_value x7
    intro x8
    have h9 : Kept a' x8 := by
      subst x8
      apply Kept.ite
      · with_reducible apply modSec_kept
        with_reducible apply State.incC_kept
        exact hk
      · exact hk
    clear_value x8
    intro x10
    have h11 : Kept a' x10 := by
      subst x10
      with_reducible apply modSec_kept
      exact h9
    clear_value x10
    intro x12
    have h13 : Kept a' x12 := by
      subst x12
      with_reducible apply modFmt_kept
      exact hk
    clear_value x12
    intro x14
    have h15 : Kept a' x14 := by
      subst x14
      with_reducible apply State.wrC_kept
      with_reducible apply State.wrC_kept
      exact h13
    clear_value x14
    intro x16
    clear_value x16
    apply Kept.ite
    · with_reducible apply dropPosted_kept
      exact hk
    · apply Kept.ite
      · split
        · rename_i z17 z18
          exact hk
        · rename_i z19 z20 z21
          apply Kept.ite
          · with_reducible apply invalidate_kept
            with_reducible apply modFmt_kept
            exact h11
          · with_reducible apply dropPosted_kept
            exact hk
      · apply Kept.ite
        · with_reducible apply deferRead_kept
          with_reducible apply dropPosted_kept
          exact h13
        · apply Kept.ite
          · with_reducible apply dropPosted_kept
            exact h13
          · with_reducible apply modFmt_kept
            exact h15

theorem closeRead_kept {a' : State} {g : Nat} {cap : Capture} {e : GateEv} {s : State} (hk : Kept a' s) :
    Kept a' (closeRead g cap e s) := by
  unfold closeRead
  split
  · rename_i z0 z1
    exact hk
  · rename_i z2 z3 z4 z5 z6
    lift_lets
    intro x7
    have h8 : Kept a' x7.2 := by
      subst x7
      with_reducible apply makeEntry_kept
      exact hk
    clear_value x7
    intro x9
    have h10 : Kept a' x9 := by
      subst x9
      with_reducible apply modSec_kept
      exact h8
    clear_value x9
    intro x11
    have h12 : Kept a' x11 := by
      subst x11
      with_reducible apply modSec_kept
      exact h10
    clear_value x11
    intro x13
    have h14 : Kept a' x13 := by
      subst x13
      with_reducible apply modEntry_kept
      exact h12
    clear_value x13
    apply Kept.ite
    · with_reducible apply modSec_kept
      exact h10
    · apply Kept.ite
      · apply Kept.ite
        · with_reducible apply modSec_kept
          exact h14
        · exact h14
      · exact h12

theorem closeWrite_kept {a' : State} {g : Nat} {e : GateEv} {s : State} (hk : Kept a' s) :
    Kept a' (closeWrite g e s) := by
  unfold closeWrite
  split
  · rename_i z0 z1
    exact hk
  · rename_i z2 z3 z4 z5 z6
    split
    · rename_i z7 z8
      exact hk
    · rename_i z9 z10 z11
      lift_lets
      intro x12
      clear_value x12
      intro x13
      clear_value x13
      intro x14
      have h15 : Kept a' x14 := by
        subst x14
        with_reducible apply Kept.emit
        exact hk
      clear_value x14
      intro x16
      have h17 : Kept a' x16 := by
        subst x16
        with_reducible apply modFmt_kept
        exact h15
      clear_value x16
      with_reducible apply settleSec_kept
      exact h17

theorem gateAct_kept {a' : State} {g : Nat} {cap : Capture} {s : State} (hk : Kept a' s) :
    Kept a' (gateAct g cap s) := by
  unfold gateAct
  split
  · rename_i z0 z1
    exact hk
  · rename_i z2 z3 z4 z5
    lift_lets
    intro x6
    have h7 : Kept a' x6 := by
      subst x6
      with_reducible apply modFmt_kept
      exact hk
    clear_value x6
    intro x8
    have h9 : Kept a' x8 := by
      subst x8
      with_reducible apply modFmt_kept
      exact h7
    clear_value x8
    apply Kept.ite
    · with_reducible apply showFmt_kept
      apply Kept.ite
      · exact h7
      · with_reducible apply openGate_kept
        exact h7
    · split
      · rename_i z10 z11
        exact h7
      · rename_i z12 z13 z14
        apply Kept.ite
        · with_reducible apply showFmt_kept
          with_reducible apply powerReaders_kept
          apply Kept.ite
          · with_reducible apply closeWrite_kept
            exact h9
          · with_reducible apply closeRead_kept
            exact h9
        · exact h7

theorem shockSeen_kept {a' : State} {g : Nat} {s : State} (hk : Kept a' s) :
    Kept a' (shockSeen g s) := by
  unfold shockSeen
  lift_lets
  intro x0
  have h1 : Kept a' x0 := by
    subst x0
    with_reducible apply fromCurd_kept
    with_reducible apply State.incC_kept
    exact hk
  clear_value x0
  intro x2
  have h3 : Kept a' x2 := by
    subst x2
    with_reducible apply modFmt_kept
    with_reducible apply State.wrC_kept
    exact h1
  clear_value x2
  intro x4
  clear_value x4
  intro x5
  have h6 : Kept a' x5 := by
    subst x5
    with_reducible apply State.incC_kept
    exact h3
  clear_value x5
  split
  · rename_i z7
    with_reducible apply showFmt_kept
    exact h3
  · rename_i z8 z9 z10 z11
    lift_lets
    intro x12
    clear_value x12
    intro x13
    have h14 : Kept a' x13 := by
      subst x13
      with_reducible apply modFmt_kept
      exact h6
    clear_value x13
    with_reducible apply withdrawGate_kept
    exact h14

theorem failWrites_kept {a' : State} {g : Nat} {s : State} (hk : Kept a' s) :
    Kept a' (failWrites g s) := by
  unfold failWrites
  apply Kept.ite
  · with_reducible apply Kept.foldl
    · intro t0 y1 h2
      with_reducible apply settleSec_kept
      exact h2
    · with_reducible apply dropPosted_kept
      exact hk
  · exact hk

theorem orderReaders_kept {a' : State} {g : Nat} {n : Nat} {s : State} (hk : Kept a' s) :
    Kept a' (orderReaders g n s) := by
  unfold orderReaders
  lift_lets
  intro x0
  clear_value x0
  intro x1
  have h2 : Kept a' x1 := by
    subst x1
    apply Kept.ite
    · with_reducible apply modFmt_kept
      exact hk
    · with_reducible apply modFmt_kept
      exact hk
  clear_value x1
  with_reducible apply powerReaders_kept
  exact h2

theorem drainChannel_kept {a' : State} {g : Nat} {s : State} (hk : Kept a' s) :
    Kept a' (drainChannel g s) := by
  unfold drainChannel
  split
  · rename_i z0 z1 z2 z3 z4
    lift_lets
    intro x5
    have h6 : Kept a' x5 := by
      subst x5
      with_reducible apply modFmt_kept
      exact hk
    clear_value x5
    intro x7
    have h8 : Kept a' x7 := by
      subst x7
      with_reducible apply modSec_kept
      with_reducible apply beginLadder_kept
      with_reducible apply showVault_kept
      exact h6
    clear_value x7
    apply Kept.ite
    · with_reducible apply advance_kept
      exact h8
    · with_reducible apply nextShot_kept
      exact h8
  · rename_i z9 z10
    split
    · rename_i z11 z12 z13 z14 z15
      apply Kept.ite
      · with_reducible apply advance_kept
        exact hk
      · with_reducible apply innerAfter_kept
        exact hk
    · rename_i z16 z17
      exact hk

theorem runSections_kept {a' : State} {g : Nat} {base : Nat} {sec : Nat} {x : Int} {s : State} (hk : Kept a' s) :
    Kept a' (runSections g base sec x s).2 := by
  unfold runSections
  with_reducible apply Kept.foldl_snd
  · intro y0 y1 h2
    lift_lets
    intro x3
    have h4 : Kept a' x3 := by
      subst x3
      exact h2
    clear_value x3
    intro x5
    clear_value x5
    intro x6
    clear_value x6
    intro x7
    have h8 : Kept a' x7 := by
      subst x7
      with_reducible apply modServo_kept
      exact h4
    clear_value x7
    intro x9
    have h10 : Kept a' x9 := by
      subst x9
      apply Kept.ite
      · with_reducible apply State.wrC_kept
        exact h8
      · exact h8
    clear_value x9
    intro x11
    have h12 : Kept a' x11 := by
      subst x11
      apply Kept.ite
      · with_reducible apply State.wrC_kept
        exact h10
      · exact h10
    clear_value x11
    dsimp only
    exact h12
  · dsimp only
    exact hk

theorem actFrame_kept {a' : State} {g : Nat} {typ : Nat} {value : Int} {s : State} (hk : Kept a' s) :
    Kept a' (actFrame g typ value s) := by
  unfold actFrame
  lift_lets
  intro x0
  clear_value x0
  with_reducible apply Kept.emit
  with_reducible apply modServo_kept
  exact hk

theorem servoFailure_kept {a' : State} {g : Nat} {s : State} (hk : Kept a' s) :
    Kept a' (servoFailure g s) := by
  unfold servoFailure
  lift_lets
  intro x0
  have h1 : Kept a' x0 := by
    subst x0
    with_reducible apply modServo_kept
    exact hk
  clear_value x0
  apply Kept.ite
  · with_reducible apply groupOffline_kept
    with_reducible apply curdRaise_kept
    apply Kept.ite
    · exact h1
    · with_reducible apply setSv_kept
      exact h1
  · exact h1

theorem servoLost_kept {a' : State} {g : Nat} {s : State} (hk : Kept a' s) :
    Kept a' (servoLost g s) := by
  unfold servoLost
  lift_lets
  intro x0
  have h1 : Kept a' x0 := by
    subst x0
    with_reducible apply curdRaise_kept
    with_reducible apply State.incC_kept
    exact hk
  clear_value x0
  intro x2
  clear_value x2
  intro x3
  have h4 : Kept a' x3 := by
    subst x3
    with_reducible apply emergencyRetract_kept
    exact h1
  clear_value x3
  apply Kept.ite
  · with_reducible apply servoFailure_kept
    exact h4
  · exact h4

theorem endUnload_kept {a' : State} {g : Nat} {s : State} (hk : Kept a' s) :
    Kept a' (endUnload g s) := by
  unfold endUnload
  lift_lets
  intro x0
  have h1 : Kept a' x0 := by
    subst x0
    with_reducible apply setRetN_kept
    with_reducible apply actFrame_kept
    exact hk
  clear_value x0
  with_reducible apply setSv_kept
  with_reducible apply modServo_kept
  exact h1

theorem failLoad_kept {a' : State} {g : Nat} {s : State} (hk : Kept a' s) :
    Kept a' (failLoad g s) := by
  unfold failLoad
  lift_lets
  intro x0
  have h1 : Kept a' x0 := by
    subst x0
    with_reducible apply setRetN_kept
    with_reducible apply actFrame_kept
    with_reducible apply State.incC_kept
    with_reducible apply leaveMedia_kept
    exact hk
  clear_value x0
  with_reducible apply servoFailure_kept
  with_reducible apply setSv_kept
  with_reducible apply modServo_kept
  exact h1

end Sys2Proof.Machine
end

