-- ==== Sys2Proof/Laws/KeptOps6.lean ====
section
/-! SUPPORT. What the operations keep (the relation of Laws/Kept.lean), one lemma each: ServoOps, Setup, SetupRows, SpinOps, Vat, VatOps, XlatOps. -/

set_option linter.all false

namespace Sys2Proof.Machine

theorem startSettle_kept {a' : State} {g : Nat} {s : State} (hk : Kept a' s) :
    Kept a' (startSettle g s) := by
  unfold startSettle
  with_reducible apply setSv_kept
  with_reducible apply modServo_kept
  with_reducible apply clearPermits_kept
  exact hk

theorem requestTarget_kept {a' : State} {g : Nat} {surf : Nat} {track : Nat} {s : State} (hk : Kept a' s) :
    Kept a' (requestTarget g surf track s) := by
  unfold requestTarget
  lift_lets
  intro x0
  have h1 : Kept a' x0 := by
    subst x0
    with_reducible apply State.wrC_kept
    exact hk
  clear_value x0
  apply Kept.ite
  · apply Kept.ite
    · with_reducible apply modServo_kept
      exact h1
    · with_reducible apply startSeek_kept
      exact h1
  · with_reducible apply modServo_kept
    exact h1

theorem refreshServo_kept {a' : State} {g : Nat} {s : State} (hk : Kept a' s) :
    Kept a' (refreshServo g s) := by
  unfold refreshServo
  lift_lets
  intro x0
  clear_value x0
  intro x1
  clear_value x1
  intro x2
  clear_value x2
  intro x3
  have h4 : Kept a' x3 := by
    subst x3
    with_reducible apply modServo_kept
    exact hk
  clear_value x3
  apply Kept.ite
  · with_reducible apply startSettle_kept
    exact h4
  · exact h4

theorem estimate_kept {a' : State} {g : Nat} {y : Option Int} {s : State} (hk : Kept a' s) :
    Kept a' (estimate g y s) := by
  unfold estimate
  lift_lets
  intro x0
  clear_value x0
  intro x1
  clear_value x1
  intro x2
  clear_value x2
  with_reducible apply modServo_kept
  exact hk

theorem outerLoop_kept {a' : State} {g : Nat} {reference : Int} {ff : Int} {s : State} (hk : Kept a' s) :
    Kept a' (outerLoop g reference ff s) := by
  unfold outerLoop
  lift_lets
  intro x0
  clear_value x0
  intro x1
  clear_value x1
  intro x2
  clear_value x2
  intro x3
  clear_value x3
  intro x4
  have h5 : Kept a' x4.2 := by
    subst x4
    with_reducible apply runSections_kept
    exact hk
  clear_value x4
  intro x6
  have h7 : Kept a' x6.2 := by
    subst x6
    with_reducible apply runSections_kept
    exact h5
  clear_value x6
  intro x8
  clear_value x8
  intro x9
  clear_value x9
  intro x10
  clear_value x10
  intro x11
  have h12 : Kept a' x11 := by
    subst x11
    with_reducible apply modServo_kept
    exact h7
  clear_value x11
  intro x13
  have h14 : Kept a' x13 := by
    subst x13
    apply Kept.ite
    · with_reducible apply State.wrC_kept
      exact h12
    · exact h12
  clear_value x13
  intro x15
  have h16 : Kept a' x15.2 := by
    subst x15
    with_reducible apply runSections_kept
    exact h14
  clear_value x15
  intro x17
  clear_value x17
  intro x18
  have h19 : Kept a' x18 := by
    subst x18
    with_reducible apply State.wrC_kept
    exact h16
  clear_value x18
  apply Kept.ite
  · apply Kept.ite
    · with_reducible apply modServo_kept
      with_reducible apply State.wrC_kept
      exact h19
    · exact h19
  · with_reducible apply State.wrC_kept
    exact h14

theorem permitWedge_kept {a' : State} {g : Nat} {pes : Int} {s : State} (hk : Kept a' s) :
    Kept a' (permitWedge g pes s) := by
  unfold permitWedge
  lift_lets
  intro x0
  clear_value x0
  intro x1
  clear_value x1
  intro x2
  have h3 : Kept a' x2 := by
    subst x2
    with_reducible apply modServo_kept
    exact hk
  clear_value x2
  intro x4
  clear_value x4
  intro x5
  have h6 : Kept a' x5 := by
    subst x5
    apply Kept.ite
    · with_reducible apply modServo_kept
      with_reducible apply setSv_kept
      with_reducible apply State.wrC_kept
      exact h3
    · apply Kept.ite
      · apply Kept.ite
        · with_reducible apply State.wrC_kept
          exact h3
        · apply Kept.ite
          · with_reducible apply State.wrC_kept
            exact h3
          · exact h3
      · exact h3
  clear_value x5
  apply Kept.ite
  · with_reducible apply clearWrok_kept
    exact h6
  · apply Kept.ite
    · with_reducible apply State.wrC_kept
      exact h6
    · exact h6

theorem advanceRef_kept {a' : State} {g : Nat} {s : State} (hk : Kept a' s) :
    Kept a' (advanceRef g s).2.2 := by
  unfold advanceRef
  lift_lets
  intro x0
  clear_value x0
  intro x1
  clear_value x1
  intro x2
  clear_value x2
  intro x3
  clear_value x3
  intro x4
  have h5 : Kept a' x4 := by
    subst x4
    with_reducible apply modServo_kept
    exact hk
  clear_value x4
  intro x6
  have h7 : Kept a' x6 := by
    subst x6
    apply Kept.ite
    · apply Kept.ite
      · with_reducible apply modServo_kept
        exact h5
      · with_reducible apply startSettle_kept
        exact h5
    · exact h5
  clear_value x6
  split
  · rename_i z8 z9 z10 z11 z12 z13
    lift_lets
    intro x14
    clear_value x14
    intro x15
    have h16 : Kept a' x15 := by
      subst x15
      with_reducible apply modServo_kept
      exact hk
    clear_value x15
    intro x17
    have h18 : Kept a' x17 := by
      subst x17
      apply Kept.ite
      · split
        · rename_i z19 z20 z21
          with_reducible apply startSeek_kept
          with_reducible apply modServo_kept
          exact h16
        · rename_i z22 z23
          exact h16
      · exact h16
    clear_value x17
    dsimp only
    exact h18
  · rename_i z24 z25
    apply Kept.ite_snd_snd
    · dsimp only
      exact h7
    · dsimp only
      exact hk

theorem settleTimeout_kept {a' : State} {g : Nat} {s : State} (hk : Kept a' s) :
    Kept a' (settleTimeout g s) := by
  unfold settleTimeout
  lift_lets
  intro x0
  have h1 : Kept a' x0 := by
    subst x0
    with_reducible apply modServo_kept
    with_reducible apply State.incC_kept
    exact hk
  clear_value x0
  apply Kept.ite
  · with_reducible apply servoFailure_kept
    with_reducible apply startUnload_kept
    with_reducible apply modServo_kept
    exact h1
  · with_reducible apply startSeek_kept
    exact h1

theorem startRamp_kept {a' : State} {g : Nat} {y : Int} {coil : Int} {load : Bool} {s : State} (hk : Kept a' s) :
    Kept a' (startRamp g y coil load s) := by
  unfold startRamp
  lift_lets
  intro x0
  clear_value x0
  intro x1
  have h2 : Kept a' x1 := by
    subst x1
    with_reducible apply modServo_kept
    exact hk
  clear_value x1
  apply Kept.ite
  · with_reducible apply startSettle_kept
    with_reducible apply modServo_kept
    exact h2
  · exact h2

theorem goodWedge_kept {a' : State} {g : Nat} {w : Wedge} {pred : Int} {s : State} (hk : Kept a' s) :
    Kept a' (goodWedge g w pred s) := by
  unfold goodWedge
  lift_lets
  intro x0
  clear_value x0
  intro x1
  clear_value x1
  intro x2
  clear_value x2
  intro x3
  have h4 : Kept a' x3 := by
    subst x3
    with_reducible apply State.wrC_kept
    with_reducible apply State.wrC_kept
    exact hk
  clear_value x3
  intro x5
  have h6 : Kept a' x5 := by
    subst x5
    with_reducible apply State.wrC_kept
    with_reducible apply State.wrC_kept
    with_reducible apply State.wrC_kept
    exact h4
  clear_value x5
  intro x7
  have h8 : Kept a' x7 := by
    subst x7
    with_reducible apply modServo_kept
    exact h6
  clear_value x7
  intro x9
  have h10 : Kept a' x9 := by
    subst x9
    apply Kept.ite
    · with_reducible apply startRamp_kept
      exact h8
    · with_reducible apply estimate_kept
      exact h8
  clear_value x9
  intro x11
  clear_value x11
  intro x12
  clear_value x12
  intro x13
  have h14 : Kept a' x13 := by
    subst x13
    with_reducible apply State.wrC_kept
    exact h10
  clear_value x13
  apply Kept.ite
  · apply Kept.ite
    · with_reducible apply startRamp_kept
      exact h8
    · exact h8
  · apply Kept.ite
    · apply Kept.ite
      · with_reducible apply permitWedge_kept
        exact h14
      · apply Kept.ite
        · with_reducible apply State.wrC_kept
          exact h14
        · exact h14
    · exact h14

theorem badWedge_kept {a' : State} {g : Nat} {w : Wedge} {s : State} (hk : Kept a' s) :
    Kept a' (badWedge g w s) := by
  unfold badWedge
  lift_lets
  intro x0
  clear_value x0
  intro x1
  have h2 : Kept a' x1 := by
    subst x1
    with_reducible apply State.wrC_kept
    exact hk
  clear_value x1
  intro x3
  have h4 : Kept a' x3 := by
    subst x3
    apply Kept.ite
    · with_reducible apply State.incC_kept
      exact h2
    · exact h2
  clear_value x3
  intro x5
  have h6 : Kept a' x5 := by
    subst x5
    with_reducible apply clearWrok_kept
    with_reducible apply modServo_kept
    exact h4
  clear_value x5
  intro x7
  have h8 : Kept a' x7 := by
    subst x7
    with_reducible apply actFrame_kept
    with_reducible apply State.incC_kept
    exact h6
  clear_value x7
  intro x9
  have h10 : Kept a' x9 := by
    subst x9
    with_reducible apply modServo_kept
    with_reducible apply State.incC_kept
    exact h8
  clear_value x9
  intro x11
  have h12 : Kept a' x11 := by
    subst x11
    apply Kept.ite
    · apply Kept.ite
      · with_reducible refine Kept.mk' rfl rfl rfl rfl rfl rfl rfl rfl rfl rfl ?_
        exact h10
      · exact h8
    · exact h6
  clear_value x11
  apply Kept.ite
  · with_reducible apply servoLost_kept
    exact h12
  · exact h12

theorem wedge_kept {a' : State} {g : Nat} {w : Wedge} {s : State} (hk : Kept a' s) :
    Kept a' (wedge g w s) := by
  unfold wedge
  apply Kept.ite
  · lift_lets
    intro x0
    have h1 : Kept a' x0 := by
      subst x0
      with_reducible apply State.wrC_kept
      exact hk
    clear_value x0
    intro x2
    have h3 : Kept a' x2 := by
      subst x2
      with_reducible apply curdRaise_kept
      exact h1
    clear_value x2
    intro x4
    have h5 : Kept a' x4 := by
      subst x4
      apply Kept.ite
      · with_reducible apply modServo_kept
        exact h1
      · exact h1
    clear_value x4
    intro x6
    have h7 : Kept a' x6 := by
      subst x6
      apply Kept.ite
      · exact h5
      · with_reducible apply estimate_kept
        exact h5
    clear_value x6
    intro x8
    clear_value x8
    intro x9
    have h10 : Kept a' x9 := by
      subst x9
      apply Kept.ite
      · with_reducible apply goodWedge_kept
        exact h7
      · with_reducible apply badWedge_kept
        exact h7
    clear_value x9
    intro x11
    clear_value x11
    intro x12
    have h13 : Kept a' x12 := by
      subst x12
      apply Kept.ite
      · with_reducible apply State.wrC_kept
        with_reducible apply modServo_kept
        exact h10
      · exact h10
    clear_value x12
    intro x14
    have h15 : Kept a' x14.2.2 := by
      subst x14
      with_reducible apply advanceRef_kept
      exact h13
    clear_value x14
    intro x16
    have h17 : Kept a' x16 := by
      subst x16
      with_reducible apply outerLoop_kept
      exact h15
    clear_value x16
    intro x18
    have h19 : Kept a' x18 := by
      subst x18
      apply Kept.ite
      · with_reducible apply modServo_kept
        exact h17
      · exact h17
    clear_value x18
    intro x20
    have h21 : Kept a' x20 := by
      subst x20
      apply Kept.ite
      · with_reducible apply settleTimeout_kept
        exact h19
      · exact h19
    clear_value x20
    apply Kept.ite
    · apply Kept.ite
      · with_reducible apply failLoad_kept
        exact h3
      · with_reducible apply servoFailure_kept
        with_reducible apply emergencyRetract_kept
        exact h3
    · apply Kept.ite
      · with_reducible apply showFmt_kept
        apply Kept.ite
        · with_reducible apply startUnload_kept
          exact h21
        · exact h21
      · with_reducible apply showFmt_kept
        exact h10
  · exact hk

theorem innerLoop_kept {a' : State} {g : Nat} {isns : Int} {lat40ns : Nat} {s : State} (hk : Kept a' s) :
    Kept a' (innerLoop g isns lat40ns s) := by
  unfold innerLoop
  apply Kept.ite
  · lift_lets
    intro x0
    clear_value x0
    intro x1
    clear_value x1
    intro x2
    clear_value x2
    intro x3
    clear_value x3
    intro x4
    clear_value x4
    intro x5
    have h6 : Kept a' x5 := by
      subst x5
      apply Kept.ite
      · exact hk
      · with_reducible apply modServo_kept
        exact hk
    clear_value x5
    intro x7
    have h8 : Kept a' x7 := by
      subst x7
      with_reducible apply State.wrC_kept
      with_reducible apply State.wrC_kept
      exact h6
    clear_value x7
    intro x9
    have h10 : Kept a' x9 := by
      subst x9
      with_reducible apply State.wrC_kept
      exact h8
    clear_value x9
    with_reducible apply actFrame_kept
    exact h10
  · exact hk

theorem startLoad_kept {a' : State} {g : Nat} {s : State} (hk : Kept a' s) :
    Kept a' (startLoad g s) := by
  unfold startLoad
  lift_lets
  intro x0
  clear_value x0
  intro x1
  have h2 : Kept a' x1 := by
    subst x1
    with_reducible apply State.wrC_kept
    with_reducible apply modServo_kept
    exact hk
  clear_value x1
  with_reducible apply showFmt_kept
  with_reducible apply setSv_kept
  with_reducible apply actFrame_kept
  with_reducible apply setRetN_kept
  with_reducible apply State.wrC_kept
  exact h2

theorem applyOrder_kept {a' : State} {g : Nat} {w0 : Nat} {s : State} (hk : Kept a' s) :
    Kept a' (applyOrder g w0 s) := by
  unfold applyOrder
  lift_lets
  intro x0
  clear_value x0
  intro x1
  have h2 : Kept a' x1 := by
    subst x1
    with_reducible apply modFmt_kept
    exact hk
  clear_value x1
  intro x3
  have h4 : Kept a' x3 := by
    subst x3
    with_reducible apply orderReaders_kept
    exact h2
  clear_value x3
  apply Kept.ite
  · exact h4
  · with_reducible apply startUnload_kept
    exact h4

theorem setupWrite_kept {a' : State} {d : RSlot} {r : Requester} {addr : Nat} {width : Nat} {v : Word} {s : State} (hk : Kept a' s) :
    Kept a' (setupWrite d r addr width v s).1 := by
  unfold setupWrite
  apply Kept.ite_fst
  · dsimp only
    with_reducible apply discardAt_kept
    exact hk
  · lift_lets
    intro x0
    have h1 : Kept a' x0 := by
      subst x0
      apply Kept.ite
      · exact hk
      · with_reducible apply newStep_kept
        exact hk
    clear_value x0
    with_reducible apply writeReg_kept
    exact h1

theorem readReg_kept {a' : State} {d : RSlot} {r : Requester} {addr : Nat} {s : State} (hk : Kept a' s) :
    Kept a' (readReg d r addr s).2.1 := by
  unfold readReg
  split
  · rename_i z0 z1 z2 z3
    split
    · rename_i z4
      dsimp only
      exact hk
    · rename_i z5
      split
      · rename_i z6
        dsimp only
        with_reducible apply raise_kept
        exact hk
      · rename_i z7
        dsimp only
        with_reducible apply sendMsg_kept
        exact hk
  · rename_i z8 z9
    split
    · rename_i z10
      dsimp only
      exact hk
    · rename_i z11
      split
      · rename_i z12
        dsimp only
        exact hk
      · rename_i z13
        split
        · rename_i z14 z15
          dsimp only
          exact hk
        · rename_i z16 z17 z18
          lift_lets
          intro x19
          clear_value x19
          intro x20
          clear_value x20
          dsimp only
          with_reducible apply Kept.setWord
          exact hk

theorem modSb_kept {a' : State} {d : RSlot} {f : Sideband → Sideband} {s : State} (hk : Kept a' s) :
    Kept a' (modSb d f s) := by
  unfold modSb
  with_reducible apply Kept.modRind
  · intro y0 y1
    exact y1
  · exact hk

theorem takeAccess_kept {a' : State} {g : Nat} {d : RSlot} {isWrite : Bool} {p : Msg → Bool} {s : State} (hk : Kept a' s) :
    Kept a' (takeAccess g d isWrite p s).2 := by
  unfold takeAccess
  split
  · rename_i z0 z1 z2
    lift_lets
    intro x3
    have h4 : Kept a' x3.2 := by
      subst x3
      apply Kept.ite_snd
      · with_reducible apply firstCopy_kept
        exact hk
      · dsimp only
        with_reducible apply markLive_kept
        exact hk
    clear_value x3
    dsimp only
    apply Kept.ite
    · with_reducible apply takeMsg_kept
      exact h4
    · exact h4
  · rename_i z5 z6
    dsimp only
    with_reducible apply markLive_kept
    exact hk

theorem curdUnlock_kept {a' : State} {g : Nat} {code : Nat} {off : Nat} {key : Word} {s : State} (hk : Kept a' s) :
    Kept a' (curdUnlock g code off key s) := by
  unfold curdUnlock
  lift_lets
  intro x0
  clear_value x0
  intro x1
  clear_value x1
  intro x2
  have h3 : Kept a' x2 := by
    subst x2
    with_reducible apply Kept.modCurd
    · intro y4 y5
      exact y5
    · exact hk
  clear_value x2
  apply Kept.ite
  · with_reducible apply Kept.modCurd
    · intro y6 y7
      exact y7
    · exact h3
  · apply Kept.ite
    · with_reducible apply inStep_kept
      · intro y8 t9 h10
        with_reducible apply raise_kept
        exact h10
      · with_reducible apply Kept.modCurd
        · intro y11 y12
          exact y12
        · exact h3
    · exact h3

theorem curdDiscard_kept {a' : State} {g : Nat} {off : Nat} {s : State} (hk : Kept a' s) :
    Kept a' (curdDiscard g off s) := by
  unfold curdDiscard
  with_reducible apply inStep_kept
  · intro y0 t1 h2
    with_reducible apply raise_kept
    exact h2
  · exact hk

theorem curdWrite_kept {a' : State} {g : Nat} {code : Nat} {off : Nat} {v : Word} {s : State} (hk : Kept a' s) :
    Kept a' (curdWrite g code off v s) := by
  unfold curdWrite
  apply Kept.ite
  · with_reducible apply curdUnlock_kept
    exact hk
  · apply Kept.ite
    · exact hk
    · split
      · rename_i z0 z1
        with_reducible apply curdDiscard_kept
        exact hk
      · rename_i z2 z3 z4
        apply Kept.ite
        · with_reducible apply curdDiscard_kept
          exact hk
        · lift_lets
          intro x5
          clear_value x5
          intro x6
          have h7 : Kept a' x6 := by
            subst x6
            with_reducible apply Kept.setWord
            exact hk
          clear_value x6
          apply Kept.ite
          · with_reducible apply curdRaise_kept
            exact hk
          · apply Kept.ite
            · with_reducible apply curdRaise_kept
              exact hk
            · exact h7

theorem curdRead_kept {a' : State} {g : Nat} {code : Nat} {off : Nat} {s : State} (hk : Kept a' s) :
    Kept a' (curdRead g code off s).2 := by
  unfold curdRead
  apply Kept.ite_snd
  · lift_lets
    intro x0
    clear_value x0
    dsimp only
    exact hk
  · split
    · rename_i z1 z2
      dsimp only
      exact hk
    · rename_i z3 z4 z5
      lift_lets
      intro x6
      clear_value x6
      dsimp only
      with_reducible apply Kept.setWord
      exact hk

theorem returnWord_kept {a' : State} {d : RSlot} {g : Nat} {off : Nat} {w : Word} {s : State} (hk : Kept a' s) :
    Kept a' (returnWord d g off w s) := by
  unfold returnWord
  lift_lets
  intro x0
  clear_value x0
  intro x1
  have h2 : Kept a' x1 := by
    subst x1
    apply Kept.ite
    · with_reducible apply modSb_kept
      exact hk
    · exact hk
  clear_value x1
  with_reducible apply Kept.emit
  exact h2

theorem keeperStart_kept {a' : State} {s : State} (hk : Kept a' s) :
    Kept a' (keeperStart s) := by
  unfold keeperStart
  with_reducible apply modSpin_kept
  exact hk

theorem countSkips_kept {a' : State} {skip : List Bool} {s : State} (hk : Kept a' s) :
    Kept a' (countSkips skip s) := by
  unfold countSkips
  lift_lets
  intro x0
  have h1 : Kept a' x0 := by
    subst x0
    apply Kept.ite
    · with_reducible apply State.incC_kept
      exact hk
    · exact hk
  clear_value x0
  intro x2
  clear_value x2
  apply Kept.ite
  · with_reducible apply modSpin_kept
    exact h1
  · apply Kept.ite
    · with_reducible apply State.incC_kept
      with_reducible apply modSpin_kept
      exact h1
    · with_reducible apply modSpin_kept
      exact h1

theorem observe_kept {a' : State} {v : Valley} {s : State} (hk : Kept a' s) :
    Kept a' (observe v s) := by
  unfold observe
  lift_lets
  intro x0
  clear_value x0
  intro x1
  clear_value x1
  intro x2
  clear_value x2
  intro x3
  clear_value x3
  intro x4
  have h5 : Kept a' x4 := by
    subst x4
    with_reducible apply modSpin_kept
    exact hk
  clear_value x4
  intro x6
  have h7 : Kept a' x6 := by
    subst x6
    with_reducible apply State.wrC_kept
    exact h5
  clear_value x6
  intro x8
  have h9 : Kept a' x8 := by
    subst x8
    with_reducible apply State.wrC_kept
    exact h7
  clear_value x8
  with_reducible apply State.wrC_kept
  exact h9

theorem catchRotor_kept {a' : State} {s : State} (hk : Kept a' s) :
    Kept a' (catchRotor s) := by
  unfold catchRotor
  lift_lets
  intro x0
  have h1 : Kept a' x0 := by
    subst x0
    with_reducible apply State.incC_kept
    with_reducible apply modSpin_kept
    exact hk
  clear_value x0
  with_reducible apply setSp_kept
  exact h1

theorem applySetpoint_kept {a' : State} {eseq : Nat} {rpm : Nat} {s : State} (hk : Kept a' s) :
    Kept a' (applySetpoint eseq rpm s) := by
  unfold applySetpoint
  lift_lets
  intro x0
  clear_value x0
  intro x1
  clear_value x1
  intro x2
  have h3 : Kept a' x2 := by
    subst x2
    with_reducible apply modSpin_kept
    with_reducible apply State.wrC_kept
    exact hk
  clear_value x2
  apply Kept.ite
  · exact hk
  · apply Kept.ite
    · exact h3
    · apply Kept.ite
      · apply Kept.ite
        · with_reducible apply setSp_kept
          with_reducible apply modSpin_kept
          exact h3
        · exact h3
      · apply Kept.ite
        · with_reducible apply modSpin_kept
          exact h3
        · exact h3

theorem latchOff_kept {a' : State} {s : State} (hk : Kept a' s) :
    Kept a' (latchOff s) := by
  unfold latchOff
  lift_lets
  intro x0
  have h1 : Kept a' x0 := by
    subst x0
    with_reducible apply modSpin_kept
    with_reducible apply State.incC_kept
    exact hk
  clear_value x0
  with_reducible apply setSp_kept
  with_reducible apply curdRaise_kept
  exact h1

theorem endBraking_kept {a' : State} {s : State} (hk : Kept a' s) :
    Kept a' (endBraking s) := by
  unfold endBraking
  lift_lets
  intro x0
  have h1 : Kept a' x0 := by
    subst x0
    with_reducible apply modSpin_kept
    with_reducible apply State.incC_kept
    with_reducible apply State.wrC_kept
    exact hk
  clear_value x0
  with_reducible apply curdRaise_kept
  exact h1

theorem chopper_kept {a' : State} {s : State} (hk : Kept a' s) :
    Kept a' (chopper s) := by
  unfold chopper
  lift_lets
  intro x0
  clear_value x0
  intro x1
  clear_value x1
  with_reducible apply modSpin_kept
  exact hk

theorem currentLoop_kept {a' : State} {i : Int × Int × Int} {s : State} (hk : Kept a' s) :
    Kept a' (currentLoop i s) := by
  unfold currentLoop
  lift_lets
  intro x0
  clear_value x0
  intro x1
  clear_value x1
  intro x2
  clear_value x2
  intro x3
  clear_value x3
  intro x4
  clear_value x4
  intro x5
  clear_value x5
  intro x6
  clear_value x6
  intro x7
  clear_value x7
  intro x8
  have h9 : Kept a' x8 := by
    subst x8
    with_reducible apply modSpin_kept
    exact hk
  clear_value x8
  intro x10
  have h11 : Kept a' x10 := by
    subst x10
    with_reducible apply State.wrC_kept
    exact h9
  clear_value x10
  with_reducible apply State.wrC_kept
  exact h11

theorem valleyState_kept {a' : State} {s : State} (hk : Kept a' s) :
    Kept a' (valleyState s) := by
  unfold valleyState
  lift_lets
  intro x0
  clear_value x0
  apply Kept.ite
  · apply Kept.ite
    · with_reducible apply setSp_kept
      with_reducible apply modSpin_kept
      exact hk
    · exact hk
  · apply Kept.ite
    · apply Kept.ite
      · apply Kept.ite
        · with_reducible apply setSp_kept
          exact hk
        · exact hk
      · apply Kept.ite
        · with_reducible apply catchRotor_kept
          exact hk
        · exact hk
    · apply Kept.ite
      · apply Kept.ite
        · apply Kept.ite
          · with_reducible apply coast_kept
            exact hk
          · exact hk
        · apply Kept.ite
          · with_reducible apply setSp_kept
            with_reducible apply modSpin_kept
            exact hk
          · exact hk
      · exact hk

theorem valley_kept {a' : State} {v : Valley} {s : State} (hk : Kept a' s) :
    Kept a' (valley v s) := by
  unfold valley
  lift_lets
  intro x0
  clear_value x0
  intro x1
  have h2 : Kept a' x1 := by
    subst x1
    with_reducible apply State.wrC_kept
    exact hk
  clear_value x1
  intro x3
  have h4 : Kept a' x3 := by
    subst x3
    apply Kept.ite
    · exact h2
    · with_reducible apply modSpin_kept
      exact h2
  clear_value x3
  intro x5
  clear_value x5
  intro x6
  clear_value x6
  intro x7
  have h8 : Kept a' x7 := by
    subst x7
    with_reducible apply observe_kept
    apply Kept.ite
    · with_reducible apply countSkips_kept
      exact h4
    · exact h4
  clear_value x7
  intro x9
  clear_value x9
  intro x10
  clear_value x10
  intro x11
  have h12 : Kept a' x11 := by
    subst x11
    with_reducible apply modSpin_kept
    exact h8
  clear_value x11
  intro x13
  have h14 : Kept a' x13 := by
    subst x13
    apply Kept.ite
    · with_reducible apply coast_kept
      exact h12
    · apply Kept.ite
      · with_reducible apply endBraking_kept
        exact h12
      · exact h12
  clear_value x13
  intro x15
  have h16 : Kept a' x15 := by
    subst x15
    with_reducible apply valleyState_kept
    with_reducible apply chopper_kept
    exact h14
  clear_value x15
  intro x17
  have h18 : Kept a' x17 := by
    subst x17
    with_reducible apply modSpin_kept
    exact h16
  clear_value x17
  intro x19
  have h20 : Kept a' x19 := by
    subst x19
    with_reducible apply loseBridge_kept
    with_reducible apply modSpin_kept
    exact h18
  clear_value x19
  apply Kept.ite
  · exact h12
  · apply Kept.ite
    · with_reducible apply latchOff_kept
      exact h12
    · apply Kept.ite
      · exact h12
      · apply Kept.ite
        · apply Kept.ite
          · apply Kept.ite
            · with_reducible refine Kept.mk' rfl rfl rfl rfl rfl rfl rfl rfl rfl rfl ?_
              exact h20
            · exact h18
          · with_reducible apply currentLoop_kept
            with_reducible apply modSpin_kept
            exact h16
        · exact h16

theorem speedTick_kept {a' : State} {s : State} (hk : Kept a' s) :
    Kept a' (speedTick s) := by
  unfold speedTick
  lift_lets
  intro x0
  clear_value x0
  intro x1
  clear_value x1
  intro x2
  clear_value x2
  intro x3
  have h4 : Kept a' x3 := by
    subst x3
    with_reducible apply State.wrC_kept
    exact hk
  clear_value x3
  intro x5
  clear_value x5
  intro x6
  clear_value x6
  intro x7
  clear_value x7
  intro x8
  clear_value x8
  intro x9
  clear_value x9
  intro x10
  clear_value x10
  intro x11
  clear_value x11
  intro x12
  clear_value x12
  apply Kept.ite
  · apply Kept.ite
    · exact h4
    · with_reducible apply modSpin_kept
      exact h4
  · apply Kept.ite
    · apply Kept.ite
      · apply Kept.ite
        · with_reducible apply setSp_kept
          exact h4
        · with_reducible apply coast_kept
          exact h4
      · with_reducible apply modSpin_kept
        exact h4
    · exact h4

theorem storeEstimate_kept {a' : State} {t : Int} {res : Nat} {src : Nat} {s : State} (hk : Kept a' s) :
    Kept a' (storeEstimate t res src s) := by
  unfold storeEstimate
  lift_lets
  intro x0
  have h1 : Kept a' x0 := by
    subst x0
    with_reducible apply State.wrC_kept
    with_reducible apply State.wrC_kept
    exact hk
  clear_value x0
  with_reducible apply modSpin_kept
  with_reducible apply State.wrC_kept
  with_reducible apply State.wrC_kept
  exact h1

theorem restMeasure_kept {a' : State} {rab : Nat} {rbc : Nat} {rca : Nat} {s : State} (hk : Kept a' s) :
    Kept a' (restMeasure rab rbc rca s) := by
  unfold restMeasure
  lift_lets
  intro x0
  clear_value x0
  split
  · rename_i z1 z2 z3
    with_reducible apply storeEstimate_kept
    exact hk
  · rename_i z4 z5
    with_reducible apply State.wrC_kept
    with_reducible apply State.wrC_kept
    exact hk

theorem standstill_kept {a' : State} {s : State} (hk : Kept a' s) :
    Kept a' (standstill s) := by
  unfold standstill
  lift_lets
  intro x0
  clear_value x0
  with_reducible apply setSp_kept
  with_reducible apply modSpin_kept
  exact hk

theorem atRest_kept {a' : State} {s : State} (hk : Kept a' s) :
    Kept a' (atRest s) := by
  unfold atRest
  apply Kept.ite
  · with_reducible apply standstill_kept
    exact hk
  · with_reducible apply setSp_kept
    with_reducible apply modSpin_kept
    exact hk

theorem spdSample_kept {a' : State} {level : Nat} {freq : Nat} {s : State} (hk : Kept a' s) :
    Kept a' (spdSample level freq s) := by
  unfold spdSample
  lift_lets
  intro x0
  clear_value x0
  intro x1
  have h2 : Kept a' x1 := by
    subst x1
    with_reducible apply modSpin_kept
    exact hk
  clear_value x1
  apply Kept.ite
  · exact h2
  · with_reducible apply spdEvaluate_kept
    exact h2

theorem vatAnswer_kept {a' : State} {d : RSlot} {asker : Option Nat} {r : VatResp} {s : State} (hk : Kept a' s) :
    Kept a' (vatAnswer d asker r s) := by
  unfold vatAnswer
  lift_lets
  intro x0
  clear_value x0
  split
  · rename_i z1 z2
    with_reducible apply Kept.emit
    with_reducible apply deliver_kept
    exact hk
  · rename_i z3
    with_reducible apply Kept.emit
    exact hk

theorem refuse_kept {a' : State} {d : RSlot} {op : Nat} {owner : Nat} {handle : Nat} {status : Nat} {term : Nat} {s : State} (hk : Kept a' s) :
    Kept a' (refuse d op owner handle status term s).2 := by
  unfold refuse
  lift_lets
  intro x0
  have h1 : Kept a' x0 := by
    subst x0
    with_reducible apply State.incR_kept
    exact hk
  clear_value x0
  intro x2
  have h3 : Kept a' x2 := by
    subst x2
    with_reducible apply State.wrR_kept
    with_reducible apply State.wrR_kept
    with_reducible apply State.wrR_kept
    exact h1
  clear_value x2
  intro x4
  have h5 : Kept a' x4 := by
    subst x4
    with_reducible apply modVat_kept
    exact h3
  clear_value x4
  dsimp only
  with_reducible apply raise_kept
  exact h5

theorem vatRequest_kept {a' : State} {op : Nat} {owner : Nat} {arg : Nat} {f : RSlot → State → VatResp × State} {d : RSlot} {s : State} (hf : ∀ y0 t, Kept a' t → Kept a' (f y0 t).2) (hk : Kept a' s) :
    Kept a' (vatRequest op owner arg f d s) := by
  unfold vatRequest
  lift_lets
  intro x0
  clear_value x0
  intro x1
  clear_value x1
  intro x2
  have h3 : Kept a' x2.2 := by
    subst x2
    apply Kept.ite_snd
    · with_reducible apply refuse_kept
      exact hk
    · apply hf
      exact hk
  clear_value x2
  with_reducible apply vatAnswer_kept
  exact h3

theorem noteAsker_kept {a' : State} {d : RSlot} {asker : Option Nat} {r : VatResp} {s : State} (hk : Kept a' s) :
    Kept a' (noteAsker d asker r s) := by
  unfold noteAsker
  apply Kept.ite
  · with_reducible apply modVat_kept
    exact hk
  · exact hk

theorem tellGrant_kept {a' : State} {d : RSlot} {before : List VatWait} {s : State} (hk : Kept a' s) :
    Kept a' (tellGrant d before s) := by
  unfold tellGrant
  split
  · rename_i z0 z1 z2 z3 z4 z5 z6 z7
    split
    · rename_i z8 z9 z10
      with_reducible apply postEvent_kept
      exact hk
    · rename_i z11 z12
      exact hk
  · rename_i z13 z14 z15
    exact hk

theorem putBuf_kept {a' : State} {d : RSlot} {b : VatBuf} {s : State} (hk : Kept a' s) :
    Kept a' (putBuf d b s) := by
  unfold putBuf
  with_reducible apply modVat_kept
  exact hk

theorem grantBuf_kept {a' : State} {d : RSlot} {p : Nat} {i : Nat} {owner : Nat} {s : State} (hk : Kept a' s) :
    Kept a' (grantBuf d p i owner s).2 := by
  unfold grantBuf
  lift_lets
  intro x0
  clear_value x0
  dsimp only
  with_reducible apply putBuf_kept
  exact hk

theorem vatAlloc_kept {a' : State} {d : RSlot} {owner : Nat} {size : Nat} {promote : Bool} {wait : Bool} {s : State} (hk : Kept a' s) :
    Kept a' (vatAlloc d owner size promote wait s).2 := by
  unfold vatAlloc
  apply Kept.ite_snd
  · with_reducible apply refuse_kept
    exact hk
  · split
    · rename_i z0 z1
      with_reducible apply refuse_kept
      exact hk
    · rename_i z2 z3 z4 z5
      split
      · rename_i z6 z7 z8
        lift_lets
        intro x9
        have h10 : Kept a' x9.2 := by
          subst x9
          with_reducible apply grantBuf_kept
          exact hk
        clear_value x9
        dsimp only
        with_reducible apply showPools_kept
        exact h10
      · rename_i z11 z12
        apply Kept.ite_snd
        · apply Kept.ite_snd
          · dsimp only
            with_reducible apply State.incR_kept
            exact hk
          · lift_lets
            intro x13
            clear_value x13
            dsimp only
            with_reducible apply showPools_kept
            with_reducible apply modVat_kept
            exact hk
        · dsimp only
          with_reducible apply State.incR_kept
          exact hk

theorem withBuf_kept {a' : State} {d : RSlot} {op : Nat} {owner : Nat} {handle : Nat} {term : Nat} {f : VatBuf → Nat → Nat → State → VatResp × State} {s : State} (hf : ∀ y0 y1 y2 t, Kept a' t → Kept a' (f y0 y1 y2 t).2) (hk : Kept a' s) :
    Kept a' (withBuf d op owner handle term f s).2 := by
  unfold withBuf
  split
  · rename_i z0 z1 z2 z3 z4
    apply Kept.ite_snd
    · with_reducible apply refuse_kept
      exact hk
    · lift_lets
      intro x5
      clear_value x5
      split
      · rename_i z6 z7
        with_reducible apply refuse_kept
        exact hk
      · rename_i z8 z9 z10 z11
        apply Kept.ite_snd
        · apply hf
          exact hk
        · with_reducible apply refuse_kept
          exact hk

theorem vatShare_kept {a' : State} {d : RSlot} {owner : Nat} {handle : Nat} {rename : Bool} {s : State} (hk : Kept a' s) :
    Kept a' (vatShare d owner handle rename s).2 := by
  unfold vatShare
  with_reducible apply withBuf_kept
  · intro y0 y1 y2 t3 h4
    apply Kept.ite_snd
    · with_reducible apply refuse_kept
      exact h4
    · dsimp only
      with_reducible apply putBuf_kept
      exact h4
  · exact hk

theorem vatRelease_kept {a' : State} {d : RSlot} {owner : Nat} {handle : Nat} {s : State} (hk : Kept a' s) :
    Kept a' (vatRelease d owner handle s).2 := by
  unfold vatRelease
  with_reducible apply withBuf_kept
  · intro y0 y1 y2 t3 h4
    apply Kept.ite_snd
    · with_reducible apply refuse_kept
      exact h4
    · apply Kept.ite_snd
      · with_reducible apply refuse_kept
        exact h4
      · dsimp only
        with_reducible apply putBuf_kept
        exact h4
  · exact hk

theorem vatFree_kept {a' : State} {d : RSlot} {owner : Nat} {handle : Nat} {s : State} (hk : Kept a' s) :
    Kept a' (vatFree d owner handle s).2 := by
  unfold vatFree
  with_reducible apply withBuf_kept
  · intro y0 y1 y2 t3 h4
    apply Kept.ite_snd
    · with_reducible apply refuse_kept
      exact h4
    · apply Kept.ite_snd
      · with_reducible apply refuse_kept
        exact h4
      · lift_lets
        intro x5
        have h6 : Kept a' x5 := by
          subst x5
          with_reducible apply putBuf_kept
          exact h4
        clear_value x5
        split
        · rename_i z7 z8 z9
          lift_lets
          intro x10
          have h11 : Kept a' x10.2 := by
            subst x10
            with_reducible apply grantBuf_kept
            exact h6
          clear_value x10
          dsimp only
          with_reducible apply showPools_kept
          with_reducible apply modVat_kept
          exact h11
        · rename_i z12 z13
          dsimp only
          with_reducible apply showPools_kept
          exact h6
  · exact hk

theorem vatCancel_kept {a' : State} {d : RSlot} {owner : Nat} {ticket : Nat} {s : State} (hk : Kept a' s) :
    Kept a' (vatCancel d owner ticket s).2 := by
  unfold vatCancel
  apply Kept.ite_snd
  · with_reducible apply refuse_kept
    exact hk
  · split
    · rename_i z0 z1 z2
      dsimp only
      with_reducible apply showPools_kept
      with_reducible apply modVat_kept
      exact hk
    · rename_i z3 z4
      with_reducible apply refuse_kept
      exact hk

theorem startCleaning_kept {a' : State} {g : Nat} {s : State} (hk : Kept a' s) :
    Kept a' (startCleaning g s) := by
  unfold startCleaning
  lift_lets
  intro x0
  clear_value x0
  apply Kept.ite
  · split
    · rename_i z1 z2
      exact hk
    · rename_i z3 z4 z5
      with_reducible apply modXlat_kept
      exact hk
    · rename_i z6 z7 z8
      lift_lets
      intro x9
      have h10 : Kept a' x9 := by
        subst x9
        apply Kept.ite
        · exact hk
        · with_reducible apply wearOut_kept
          exact hk
      clear_value x9
      with_reducible apply Kept.getD
      · intro t11 y12
        with_reducible refine startReloc_kept ?_ _ y12
        exact h10
      · exact h10
  · exact hk

theorem reconcile_kept {a' : State} {l : List VolumeRec} {s : State} (hk : Kept a' s) :
    Kept a' (reconcile l s) := by
  unfold reconcile
  refine Kept.foldl (fun t v h => ?_) (Kept.foldl (fun t v h => ?_) hk)
  · split
    · exact h
    · split
      · exact Kept.ite h (raiseAll_kept (changeVolume_kept h))
      · refine raiseAll_kept (Kept.getD (fun u hu => ?_) h)
        split at hu
        · exact absurd hu (by simp)
        · exact createVolume_kept h u hu
  · split
    · exact h
    · split
      · exact Kept.ite h (raiseAll_kept (deleteVolume_kept h))
      · exact raiseAll_kept (deleteVolume_kept h)

theorem loadTables_kept {a' : State} {s : State} (hk : Kept a' s) :
    Kept a' (loadTables s) := by
  unfold loadTables
  lift_lets
  intro x0
  clear_value x0
  intro x1
  have h2 : Kept a' x1 := by
    subst x1
    with_reducible refine Kept.mk' rfl rfl rfl rfl rfl rfl rfl rfl rfl rfl ?_
    exact hk
  clear_value x1
  intro x3
  have h4 : Kept a' x3 := by
    subst x3
    with_reducible refine Kept.mk' rfl rfl rfl rfl rfl rfl rfl rfl rfl rfl ?_
    exact h2
  clear_value x3
  intro x5
  have h6 : Kept a' x5 := by
    subst x5
    split
    · rename_i z7 z8 z9
      with_reducible apply reconcile_kept
      exact h4
    · rename_i z10 z11
      exact h4
  clear_value x5
  with_reducible apply showXlat_kept
  with_reducible apply wrAll_kept
  with_reducible apply writeJournal_kept
  exact h6

end Sys2Proof.Machine
end

