-- ==== Sys2Proof/Laws/KeptExec1.lean ====
section
/-! SUPPORT. What the meanings keep (the relation of Laws/Kept.lean), one lemma each: Admin, Boot, Budget, Buffer, Cave, Command, Cult, Fault. -/

set_option linter.all false

namespace Sys2Proof.Machine

theorem execIdentify_kept {a' : State} {port : Nat} {s : State} (hk : Kept a' s) :
    OutKept a' (execIdentify port s) := by
  unfold execIdentify
  with_reducible apply OutKept.next
  with_reducible apply admitIf_kept
  · intro y0 t1 h2
    with_reducible apply finishAt_kept
    with_reducible apply toHost_kept
    exact h2
  · exact hk

theorem execGetLog_kept {a' : State} {port : Nat} {s : State} (hk : Kept a' s) :
    OutKept a' (execGetLog port s) := by
  unfold execGetLog
  with_reducible apply OutKept.next
  with_reducible apply admitIf_kept
  · intro y0 t1 h2
    lift_lets
    intro x3
    clear_value x3
    intro x4
    clear_value x4
    intro x5
    clear_value x5
    with_reducible apply finishAt_kept
    apply Kept.ite
    · exact h2
    · with_reducible apply toHost_kept
      exact h2
  · exact hk

theorem execGetFeatures_kept {a' : State} {port : Nat} {s : State} (hk : Kept a' s) :
    OutKept a' (execGetFeatures port s) := by
  unfold execGetFeatures
  with_reducible apply OutKept.next
  with_reducible apply admitIf_kept
  · intro y0 t1 h2
    lift_lets
    intro x3
    clear_value x3
    intro x4
    have h5 : Kept a' x4 := by
      subst x4
      apply Kept.ite
      · exact h2
      · with_reducible apply toHost_kept
        exact h2
    clear_value x4
    with_reducible apply finishAt_kept
    exact h5
  · exact hk

theorem execSetFeaturesPowercap_kept {a' : State} {port : Nat} {s : State} (hk : Kept a' s) :
    OutKept a' (execSetFeaturesPowercap port s) := by
  unfold execSetFeaturesPowercap
  with_reducible apply OutKept.next
  with_reducible apply admitIf_kept
  · intro y0 t1 h2
    with_reducible apply setFields_kept
    exact h2
  · exact hk

theorem execSetFeaturesThermal_kept {a' : State} {port : Nat} {s : State} (hk : Kept a' s) :
    OutKept a' (execSetFeaturesThermal port s) := by
  unfold execSetFeaturesThermal
  with_reducible apply OutKept.next
  with_reducible apply admitIf_kept
  · intro y0 t1 h2
    with_reducible apply setFields_kept
    exact h2
  · exact hk

theorem execSetFeaturesTurning_kept {a' : State} {port : Nat} {s : State} (hk : Kept a' s) :
    OutKept a' (execSetFeaturesTurning port s) := by
  unfold execSetFeaturesTurning
  with_reducible apply OutKept.next
  with_reducible apply admitIf_kept
  · intro y0 t1 h2
    with_reducible apply setFields_kept
    exact h2
  · exact hk

theorem execSetFeaturesWindow_kept {a' : State} {port : Nat} {s : State} (hk : Kept a' s) :
    OutKept a' (execSetFeaturesWindow port s) := by
  unfold execSetFeaturesWindow
  with_reducible apply OutKept.next
  with_reducible apply admitIf_kept
  · intro y0 t1 h2
    with_reducible apply setFields_kept
    exact h2
  · exact hk

theorem execSetFeaturesRide_kept {a' : State} {port : Nat} {s : State} (hk : Kept a' s) :
    OutKept a' (execSetFeaturesRide port s) := by
  unfold execSetFeaturesRide
  with_reducible apply OutKept.next
  with_reducible apply admitIf_kept
  · intro y0 t1 h2
    with_reducible apply setFields_kept
    exact h2
  · exact hk

theorem execSetFeaturesFaultsev_kept {a' : State} {port : Nat} {s : State} (hk : Kept a' s) :
    OutKept a' (execSetFeaturesFaultsev port s) := by
  unfold execSetFeaturesFaultsev
  with_reducible apply OutKept.next
  with_reducible apply admitIf_kept
  · intro y0 t1 h2
    with_reducible apply setFields_kept
    exact h2
  · exact hk

theorem execSetFeaturesFaultclr_kept {a' : State} {port : Nat} {s : State} (hk : Kept a' s) :
    OutKept a' (execSetFeaturesFaultclr port s) := by
  unfold execSetFeaturesFaultclr
  with_reducible apply OutKept.next
  with_reducible apply admitIf_kept
  · intro y0 t1 h2
    with_reducible apply finishAt_kept
    with_reducible apply inStep_kept
    · intro y3 t4 h5
      with_reducible apply unlatch_kept
      exact h5
    · exact h2
  · exact hk

theorem execVolumeCreate_kept {a' : State} {port : Nat} {s : State} (hk : Kept a' s) :
    OutKept a' (execVolumeCreate port s) := by
  unfold execVolumeCreate
  with_reducible apply OutKept.next
  with_reducible apply admitIf_kept
  · intro y0 t1 h2
    lift_lets
    intro x3
    clear_value x3
    intro x4
    clear_value x4
    apply Kept.ite
    · with_reducible apply finishAt_kept
      exact h2
    · apply Kept.ite
      · with_reducible apply finishAt_kept
        exact h2
      · with_reducible apply saveVolume_kept
        exact h2
  · exact hk

theorem execVolumeChange_kept {a' : State} {port : Nat} {s : State} (hk : Kept a' s) :
    OutKept a' (execVolumeChange port s) := by
  unfold execVolumeChange
  with_reducible apply OutKept.next
  with_reducible apply admitIf_kept
  · intro y0 t1 h2
    lift_lets
    intro x3
    clear_value x3
    intro x4
    clear_value x4
    split
    · rename_i z5 z6
      exact h2
    · rename_i z7 z8 z9
      apply Kept.ite
      · with_reducible apply finishAt_kept
        exact h2
      · apply Kept.ite
        · with_reducible apply finishAt_kept
          exact h2
        · with_reducible apply saveVolume_kept
          exact h2
  · exact hk

theorem execVolumeDelete_kept {a' : State} {port : Nat} {s : State} (hk : Kept a' s) :
    OutKept a' (execVolumeDelete port s) := by
  unfold execVolumeDelete
  with_reducible apply OutKept.next
  with_reducible apply admitIf_kept
  · intro y0 t1 h2
    lift_lets
    intro x3
    clear_value x3
    apply Kept.ite
    · with_reducible apply finishAt_kept
      exact h2
    · apply Kept.ite
      · with_reducible apply finishAt_kept
        exact h2
      · with_reducible apply saveVolume_kept
        exact h2
  · exact hk

theorem execSettingsSaveDone_kept {a' : State} {good : Bool} {s : State} (hk : Kept a' s) :
    OutKept a' (execSettingsSaveDone good s) := by
  unfold execSettingsSaveDone
  split
  · rename_i z0 z1 z2 z3 z4 z5 z6 z7
    lift_lets
    intro x8
    clear_value x8
    intro x9
    have h10 : Kept a' x9.2 := by
      subst x9
      with_reducible apply State.sagStop_kept
      exact hk
    clear_value x9
    intro x11
    have h12 : Kept a' x11 := by
      subst x11
      exact h10
    clear_value x11
    intro x13
    clear_value x13
    intro x14
    have h15 : Kept a' x14 := by
      subst x14
      with_reducible apply applyVolume_kept
      with_reducible refine Kept.mk' rfl rfl rfl rfl rfl rfl rfl rfl rfl rfl ?_
      exact h12
    clear_value x14
    intro x16
    clear_value x16
    intro x17
    clear_value x17
    intro x18
    have h19 : Kept a' x18 := by
      subst x18
      with_reducible refine Kept.mk' rfl rfl rfl rfl rfl rfl rfl rfl rfl rfl ?_
      exact h12
    clear_value x18
    intro x20
    have h21 : Kept a' x20 := by
      subst x20
      with_reducible apply Kept.foldl
      · intro t22 y23 h24
        with_reducible apply State.wrR_kept
        exact h24
      · exact h19
    clear_value x20
    intro x25
    have h26 : Kept a' x25.2 := by
      subst x25
      with_reducible apply applyVolume_kept
      with_reducible apply applyVals_kept
      exact h21
    clear_value x25
    intro x27
    clear_value x27
    apply OutKept.ite
    · with_reducible apply OutKept.next
      with_reducible apply settle_kept
      with_reducible apply beginHeaderWrite_kept
      with_reducible apply endCommand_kept
      exact h15
    · apply OutKept.ite
      · with_reducible apply OutKept.next
        with_reducible apply settle_kept
        with_reducible apply beginHeaderWrite_kept
        split
        · rename_i z28 z29 z30
          with_reducible apply endCommand_kept
          exact h26
        · rename_i z31 z32
          with_reducible apply endCommand_kept
          exact h26
      · apply OutKept.ite
        · with_reducible apply OutKept.next
          with_reducible apply againOp_kept
          exact h12
        · with_reducible apply OutKept.next
          with_reducible apply settle_kept
          with_reducible apply beginHeaderWrite_kept
          with_reducible apply endCommand_kept
          exact h15
  · rename_i z33 z34
    with_reducible apply OutKept.next
    exact hk

theorem execFwDownload_kept {a' : State} {port : Nat} {data : List Byte} {s : State} (hk : Kept a' s) :
    OutKept a' (execFwDownload port data s) := by
  unfold execFwDownload
  with_reducible apply OutKept.next
  with_reducible apply admitIf_kept
  · intro y0 t1 h2
    lift_lets
    intro x3
    clear_value x3
    intro x4
    clear_value x4
    intro x5
    clear_value x5
    intro x6
    have h7 : Kept a' x6 := by
      subst x6
      with_reducible apply modCmd_kept
      with_reducible apply admitCmd_kept
      exact h2
    clear_value x6
    intro x8
    have h9 : Kept a' x8 := by
      subst x8
      apply Kept.ite
      · with_reducible refine Kept.mk' rfl rfl rfl rfl rfl rfl rfl rfl rfl rfl ?_
        exact h7
      · exact h7
    clear_value x8
    intro x10
    clear_value x10
    split
    · rename_i z11 z12 z13
      with_reducible apply finishAt_kept
      exact h2
    · rename_i z14 z15
      apply Kept.ite
      · with_reducible apply finishAt_kept
        exact h2
      · apply Kept.ite
        · with_reducible apply finishAt_kept
          exact h2
        · apply Kept.ite
          · exact h2
          · apply Kept.ite
            · with_reducible apply writeHeader_kept
              exact h9
            · with_reducible apply beginChunk_kept
              exact h9
  · exact hk

theorem execFwChunkProgrammed_kept {a' : State} {good : Bool} {s : State} (hk : Kept a' s) :
    OutKept a' (execFwChunkProgrammed good s) := by
  unfold execFwChunkProgrammed
  split
  · rename_i z0 z1 z2 z3 z4 z5
    lift_lets
    intro x6
    clear_value x6
    intro x7
    have h8 : Kept a' x7 := by
      subst x7
      with_reducible refine Kept.mk' rfl rfl rfl rfl rfl rfl rfl rfl rfl rfl ?_
      exact hk
    clear_value x7
    intro x9
    clear_value x9
    intro x10
    clear_value x10
    intro x11
    have h12 : ∀ y0 y1, Kept a' y1 → Kept a' (x11 y0 y1) := by
      subst x11
      intro y13 t14 h15
      beta_reduce
      with_reducible refine Kept.mk' rfl rfl rfl rfl rfl rfl rfl rfl rfl rfl ?_
      exact h15
    clear_value x11
    intro x16
    have h17 : Kept a' x16.2 := by
      subst x16
      apply Kept.ite_snd
      · with_reducible apply Kept.fresh
        exact h8
      · dsimp only
        exact h8
    clear_value x16
    intro x18
    clear_value x18
    intro x19
    have h20 : Kept a' x19 := by
      subst x19
      exact h17
    clear_value x19
    apply OutKept.ite
    · with_reducible apply OutKept.next
      with_reducible apply settle_kept
      with_reducible apply beginHeaderWrite_kept
      with_reducible apply endCommand_kept
      apply h12
      exact h20
    · apply OutKept.ite
      · with_reducible apply OutKept.next
        with_reducible apply settle_kept
        with_reducible apply beginHeaderWrite_kept
        with_reducible apply endCommand_kept
        apply h12
        exact h20
      · with_reducible apply OutKept.next
        with_reducible apply settle_kept
        with_reducible apply beginHeaderWrite_kept
        with_reducible apply endCommand_kept
        exact h20
  · rename_i z21 z22
    with_reducible apply OutKept.next
    exact hk

theorem execFwSessionTimeout_kept {a' : State} {s : State} (hk : Kept a' s) :
    OutKept a' (execFwSessionTimeout s) := by
  unfold execFwSessionTimeout
  with_reducible apply OutKept.next
  with_reducible refine Kept.mk' rfl rfl rfl rfl rfl rfl rfl rfl rfl rfl ?_
  exact hk

theorem execFwActivate_kept {a' : State} {port : Nat} {s : State} (hk : Kept a' s) :
    OutKept a' (execFwActivate port s) := by
  unfold execFwActivate
  with_reducible apply OutKept.next
  with_reducible apply admitIf_kept
  · intro y0 t1 h2
    split
    · rename_i z3 z4 z5
      with_reducible apply finishAt_kept
      exact h2
    · rename_i z6 z7
      lift_lets
      intro x8
      have h9 : Kept a' x8 := by
        subst x8
        with_reducible apply noteChecked_kept
        exact h2
      clear_value x8
      intro x10
      clear_value x10
      intro x11
      have h12 : Kept a' x11 := by
        subst x11
        with_reducible apply modCmd_kept
        with_reducible apply admitCmd_kept
        with_reducible refine Kept.mk' rfl rfl rfl rfl rfl rfl rfl rfl rfl rfl ?_
        exact h9
      clear_value x11
      intro x13
      clear_value x13
      apply Kept.ite
      · exact h9
      · apply Kept.ite
        · with_reducible apply finishAt_kept
          with_reducible refine Kept.mk' rfl rfl rfl rfl rfl rfl rfl rfl rfl rfl ?_
          exact h9
        · split
          · rename_i z14 z15 z16
            with_reducible apply finishAt_kept
            with_reducible refine Kept.mk' rfl rfl rfl rfl rfl rfl rfl rfl rfl rfl ?_
            exact h9
          · rename_i z17
            with_reducible apply writeHeader_kept
            exact h12
  · exact hk

theorem execStartHeader_kept {a' : State} {d : RSlot} {s : State} (hk : Kept a' s) :
    OutKept a' (execStartHeader d s) := by
  unfold execStartHeader
  apply OutKept.ite
  · lift_lets
    intro x0
    have h1 : Kept a' x0 := by
      subst x0
      with_reducible apply Kept.emit
      with_reducible apply Kept.emit
      with_reducible apply Kept.emit
      exact hk
    clear_value x0
    split
    · rename_i z2 z3
      with_reducible apply OutKept.next
      with_reducible apply settle_kept
      apply Kept.ite
      · with_reducible apply startFail_kept
        exact h1
      · exact h1
    · rename_i z4 z5 z6 z7
      lift_lets
      intro x8
      have h9 : Kept a' x8 := by
        subst x8
        with_reducible apply showHeader_kept
        exact h1
      clear_value x8
      intro x10
      clear_value x10
      intro x11
      clear_value x11
      intro x12
      clear_value x12
      intro x13
      clear_value x13
      intro x14
      have h15 : Kept a' x14 := by
        subst x14
        with_reducible apply setPhase_kept
        with_reducible refine Kept.mk' rfl rfl rfl rfl rfl rfl rfl rfl rfl rfl ?_
        exact h9
      clear_value x14
      apply OutKept.ite
      · with_reducible apply OutKept.next
        beta_reduce
        with_reducible apply Kept.foldl
        · intro t16 y17 h18
          with_reducible apply State.wrR_kept
          exact h18
        · with_reducible apply State.wrR_kept
          exact h15
      · with_reducible apply OutKept.next
        with_reducible apply setPhase_kept
        exact h9
  · with_reducible apply OutKept.next
    exact hk

theorem execLinkFirstHandshake_kept {a' : State} {d : RSlot} {n : Nat} {s : State} (hk : Kept a' s) :
    OutKept a' (execLinkFirstHandshake d n s) := by
  unfold execLinkFirstHandshake
  lift_lets
  intro x0
  clear_value x0
  intro x1
  clear_value x1
  intro x2
  clear_value x2
  intro x3
  clear_value x3
  intro x4
  have h5 : Kept a' x4 := by
    subst x4
    with_reducible apply State.modEnd_kept
    with_reducible apply State.modEnd_kept
    exact hk
  clear_value x4
  intro x6
  have h7 : Kept a' x6 := by
    subst x6
    with_reducible apply State.wrR_kept
    exact h5
  clear_value x6
  intro x8
  have h9 : Kept a' x8 := by
    subst x8
    with_reducible apply State.wrR_kept
    with_reducible apply State.wrR_kept
    exact h7
  clear_value x8
  intro x10
  have h11 : Kept a' x10 := by
    subst x10
    with_reducible apply Kept.foldl
    · intro t12 y13 h14
      with_reducible apply State.wrR_kept
      with_reducible apply State.wrR_kept
      with_reducible apply State.wrR_kept
      exact h14
    · exact h9
  clear_value x10
  intro x15
  have h16 : Kept a' x15 := by
    subst x15
    with_reducible apply State.wrR_kept
    exact h7
  clear_value x15
  intro x17
  have h18 : Kept a' x17 := by
    subst x17
    with_reducible apply State.wrR_kept
    exact h16
  clear_value x17
  intro x19
  have h20 : Kept a' x19 := by
    subst x19
    apply Kept.ite
    · with_reducible apply State.wrR_kept
      exact h18
    · exact h18
  clear_value x19
  intro x21
  have h22 : Kept a' x21 := by
    subst x21
    with_reducible apply State.wrC_kept
    exact h20
  clear_value x21
  intro x23
  have h24 : Kept a' x23 := by
    subst x23
    apply Kept.ite
    · with_reducible apply State.wrR_kept
      with_reducible apply State.wrR_kept
      exact h22
    · exact h22
  clear_value x23
  apply OutKept.ite
  · apply OutKept.ite
    · with_reducible apply OutKept.next
      exact h11
    · apply OutKept.ite
      · with_reducible apply OutKept.next
        with_reducible apply sendMsg_kept
        exact h24
      · with_reducible apply OutKept.next
        beta_reduce
        with_reducible apply State.wrR_kept
        with_reducible apply State.wrR_kept
        exact h22
  · with_reducible apply OutKept.next
    exact hk

theorem execStartLoad_kept {a' : State} {d : RSlot} {s : State} (hk : Kept a' s) :
    OutKept a' (execStartLoad d s) := by
  unfold execStartLoad
  apply OutKept.ite
  · lift_lets
    intro x0
    have h1 : Kept a' x0 := by
      subst x0
      with_reducible apply quadRead_kept
      with_reducible apply quadRead_kept
      with_reducible apply reportMissing_kept
      exact hk
    intro x2
    intro x3
    have h4 : Kept a' x3 := by
      subst x3
      with_reducible refine Kept.mk' rfl rfl rfl rfl rfl rfl rfl rfl rfl rfl ?_
      exact h1
    intro x5
    clear_value x5
    apply OutKept.ite
    · split
      · rename_i z6 z7 z8
        with_reducible apply OutKept.next
        with_reducible apply settle_kept
        apply Kept.ite
        · with_reducible apply writeHeader_kept
          exact h4
        · with_reducible apply writeHeader_kept
          exact h4
      · rename_i z9 z10
        with_reducible apply OutKept.next
        with_reducible apply settle_kept
        with_reducible apply tryActive_kept
        exact h1
    · split
      · rename_i z11 z12 z13 z14
        with_reducible apply OutKept.next
        with_reducible apply settle_kept
        with_reducible apply runSlot_kept
        exact h1
      · rename_i z15 z16
        with_reducible apply OutKept.next
        with_reducible apply settle_kept
        exact h1
  · with_reducible apply OutKept.next
    exact hk

theorem execHeaderWriteDone_kept {a' : State} {good : Bool} {s : State} (hk : Kept a' s) :
    OutKept a' (execHeaderWriteDone good s) := by
  unfold execHeaderWriteDone
  split
  · rename_i z0 z1 z2 z3 z4 z5
    lift_lets
    intro x6
    have h7 : Kept a' x6.2 := by
      subst x6
      apply Kept.ite_snd
      · with_reducible apply State.sagStop_kept
        exact hk
      · dsimp only
        exact hk
    clear_value x6
    intro x8
    have h9 : Kept a' x8 := by
      subst x8
      exact h7
    clear_value x8
    intro x10
    clear_value x10
    intro x11
    clear_value x11
    intro x12
    have h13 : Kept a' x12 := by
      subst x12
      with_reducible refine Kept.mk' rfl rfl rfl rfl rfl rfl rfl rfl rfl rfl ?_
      exact h9
    clear_value x12
    intro x14
    have h15 : Kept a' x14 := by
      subst x14
      with_reducible apply Kept.foldl
      · intro t16 y17 h18
        with_reducible apply showHeader_kept
        exact h18
      · exact h13
    clear_value x14
    intro x19
    clear_value x19
    intro x20
    clear_value x20
    intro x21
    subst x21
    intro x22
    have h23 : Kept a' x22 := by
      subst x22
      with_reducible refine Kept.burn' rfl rfl rfl rfl rfl rfl rfl ⟨rfl, rfl, rfl, fun w => by dsimp only at *; omega⟩ rfl rfl ?_
      exact h15
    clear_value x22
    intro x24
    have h25 : Kept a' x24 := by
      subst x24
      split
      · rename_i z26
        with_reducible apply tryPending_kept
        exact h15
      · rename_i z27
        with_reducible apply tryActive_kept
        with_reducible refine Kept.mk' rfl rfl rfl rfl rfl rfl rfl rfl rfl rfl ?_
        exact h15
      · rename_i z28
        with_reducible apply Kept.foldl
        · intro t29 y30 h31
          with_reducible apply State.wrR_kept
          with_reducible apply State.wrR_kept
          exact h31
        · exact h23
      · rename_i z32 z33 z34
        with_reducible apply endCommand_kept
        exact h15
      · rename_i z35 z36 z37 z38
        with_reducible apply beginChunk_kept
        exact h15
    clear_value x24
    intro x39
    clear_value x39
    intro x40
    have h41 : Kept a' x40 := by
      subst x40
      with_reducible apply raise_kept
      with_reducible refine Kept.mk' rfl rfl rfl rfl rfl rfl rfl rfl rfl rfl ?_
      exact h9
    clear_value x40
    intro x42
    clear_value x42
    intro x43
    have h44 : Kept a' x43 := by
      subst x43
      split
      · rename_i z45
        with_reducible apply tryWithout_kept
        with_reducible refine Kept.mk' rfl rfl rfl rfl rfl rfl rfl rfl rfl rfl ?_
        exact h41
      · rename_i z46
        with_reducible apply tryActive_kept
        with_reducible refine Kept.mk' rfl rfl rfl rfl rfl rfl rfl rfl rfl rfl ?_
        exact h41
      · rename_i z47
        exact h41
      · rename_i z48 z49 z50
        with_reducible apply endCommand_kept
        exact h41
      · rename_i z51 z52 z53 z54
        with_reducible apply endCommand_kept
        exact h41
    clear_value x43
    apply OutKept.ite
    · with_reducible apply OutKept.next
      with_reducible apply settle_kept
      split
      · rename_i z55 z56 z57 z58
        with_reducible apply stopHeader_kept
        exact h9
      · rename_i z59 z60
        exact h9
    · apply OutKept.ite
      · with_reducible apply OutKept.next
        with_reducible apply settle_kept
        with_reducible apply beginHeaderWrite_kept
        exact h25
      · apply OutKept.ite
        · with_reducible apply OutKept.next
          with_reducible apply againOp_kept
          with_reducible refine Kept.mk' rfl rfl rfl rfl rfl rfl rfl rfl rfl rfl ?_
          exact h9
        · with_reducible apply OutKept.next
          with_reducible apply settle_kept
          with_reducible apply beginHeaderWrite_kept
          exact h44
  · rename_i z61 z62
    with_reducible apply OutKept.next
    exact hk

theorem execStartSettings_kept {a' : State} {d : RSlot} {s : State} (hk : Kept a' s) :
    OutKept a' (execStartSettings d s) := by
  unfold execStartSettings
  apply OutKept.ite
  · lift_lets
    intro x0
    have h1 : Kept a' x0 := by
      subst x0
      with_reducible apply readSettings_kept
      exact hk
    clear_value x0
    split
    · rename_i z2 z3
      with_reducible apply OutKept.next
      with_reducible apply settle_kept
      with_reducible apply startFail_kept
      exact h1
    · rename_i z4 z5 z6
      with_reducible apply OutKept.next
      with_reducible apply settle_kept
      apply Kept.ite
      · with_reducible apply setPhase_kept
        with_reducible apply loadSettings_kept
        exact h1
      · with_reducible apply startFail_kept
        exact h1
  · with_reducible apply OutKept.next
    exact hk

theorem execStartDigestExchange_kept {a' : State} {f1Here : Bool} {s : State} (hk : Kept a' s) :
    OutKept a' (execStartDigestExchange f1Here s) := by
  unfold execStartDigestExchange
  apply OutKept.ite
  · lift_lets
    intro x0
    clear_value x0
    intro x1
    clear_value x1
    apply OutKept.ite
    · with_reducible apply OutKept.next
      with_reducible apply Kept.foldl
      · intro t2 y3 h4
        with_reducible apply State.wrR_kept
        exact h4
      · exact hk
    · with_reducible apply OutKept.next
      with_reducible apply settle_kept
      with_reducible apply fenceDie_kept
      with_reducible apply noteDivergence_kept
      exact hk
  · with_reducible apply OutKept.next
    exact hk

theorem execStartMemorySpindle_kept {a' : State} {s : State} (hk : Kept a' s) :
    OutKept a' (execStartMemorySpindle s) := by
  unfold execStartMemorySpindle
  apply OutKept.ite
  · lift_lets
    intro x0
    have h1 : Kept a' x0 := by
      subst x0
      with_reducible apply Kept.foldl
      · intro t2 y3 h4
        with_reducible apply startTraining_kept
        exact h4
      · exact hk
    clear_value x0
    with_reducible apply OutKept.next
    with_reducible apply settle_kept
    with_reducible apply keeperStart_kept
    exact h1
  · with_reducible apply OutKept.next
    exact hk

theorem execHeadsRelease_kept {a' : State} {x : HeadPins} {s : State} (hk : Kept a' s) :
    OutKept a' (execHeadsRelease x s) := by
  unfold execHeadsRelease
  apply OutKept.ite
  · lift_lets
    intro x0
    clear_value x0
    intro x1
    clear_value x1
    intro x2
    have h3 : Kept a' x2 := by
      subst x2
      with_reducible refine Kept.mk' rfl rfl rfl rfl rfl rfl rfl rfl rfl rfl ?_
      exact hk
    clear_value x2
    intro x4
    have h5 : Kept a' x4 := by
      subst x4
      with_reducible apply Kept.foldl
      · intro t6 y7 h8
        apply Kept.ite
        · with_reducible apply Kept.foldl
          · intro t9 y10 h11
            with_reducible apply raise_kept
            with_reducible apply State.wrR_kept
            exact h11
          · exact h8
        · exact h8
      · exact h3
    clear_value x4
    intro x12
    have h13 : Kept a' x12 := by
      subst x12
      with_reducible apply Kept.foldl
      · intro t14 y15 h16
        lift_lets
        intro x17
        clear_value x17
        intro x18
        have h19 : Kept a' x18 := by
          subst x18
          with_reducible apply Kept.modRind
          · intro y20 y21
            exact y21
          · with_reducible apply State.wrR_kept
            exact h16
        clear_value x18
        with_reducible apply Kept.foldl
        · intro t22 y23 h24
          with_reducible apply State.wrR_kept
          exact h24
        · exact h19
      · exact h5
    clear_value x12
    with_reducible apply OutKept.next
    with_reducible apply settle_kept
    with_reducible apply setPhases_kept
    exact h13
  · with_reducible apply OutKept.next
    exact hk

theorem execStartReady_kept {a' : State} {elapsedMs : Nat} {s : State} (hk : Kept a' s) :
    OutKept a' (execStartReady elapsedMs s) := by
  unfold execStartReady
  apply OutKept.ite
  · apply OutKept.ite
    · with_reducible apply OutKept.next
      with_reducible apply settle_kept
      with_reducible apply startFail_kept
      with_reducible apply wrAll_kept
      with_reducible apply raiseAll_kept
      exact hk
    · lift_lets
      intro x0
      have h1 : Kept a' x0 := by
        subst x0
        with_reducible apply loadTables_kept
        exact hk
      clear_value x0
      intro x2
      have h3 : Kept a' x2 := by
        subst x2
        with_reducible apply Kept.foldl
        · intro t4 y5 h6
          with_reducible apply setPhase_kept
          exact h6
        · exact h1
      clear_value x2
      intro x7
      have h8 : Kept a' x7 := by
        subst x7
        with_reducible apply Kept.foldl
        · intro t9 y10 h11
          with_reducible apply State.wrR_kept
          with_reducible apply State.wrR_kept
          with_reducible apply State.wrR_kept
          exact h11
        · exact h3
      clear_value x7
      intro x12
      clear_value x12
      intro x13
      have h14 : Kept a' x13 := by
        subst x13
        with_reducible refine Kept.mk' rfl rfl rfl rfl rfl rfl rfl rfl rfl rfl ?_
        exact h8
      clear_value x13
      intro x15
      have h16 : Kept a' x15 := by
        subst x15
        with_reducible apply inStep_kept
        · intro y17 t18 h19
          with_reducible apply raise_kept
          exact h19
        · exact h14
      clear_value x15
      intro x20
      have h21 : Kept a' x20 := by
        subst x20
        with_reducible apply startPorts_kept
        with_reducible apply startTurning_kept
        exact h16
      clear_value x20
      intro x22
      clear_value x22
      intro x23
      clear_value x23
      intro x24
      subst x24
      intro x25
      have h26 : Kept a' x25 := by
        subst x25
        with_reducible refine Kept.burn' rfl rfl rfl rfl rfl rfl rfl ⟨rfl, rfl, rfl, fun w => by dsimp only at *; omega⟩ rfl rfl ?_
        exact h21
      clear_value x25
      intro x27
      have h28 : Kept a' x27 := by
        subst x27
        apply Kept.ite
        · with_reducible apply writeHeader_kept
          exact h21
        · apply Kept.ite
          · with_reducible apply Kept.foldl
            · intro t29 y30 h31
              with_reducible apply State.wrR_kept
              exact h31
            · exact h26
          · exact h21
      clear_value x27
      with_reducible apply OutKept.next
      with_reducible apply settle_kept
      exact h28
  · with_reducible apply OutKept.next
    exact hk

theorem execStartWatchdogExpire_kept {a' : State} {s : State} (hk : Kept a' s) :
    OutKept a' (execStartWatchdogExpire s) := by
  unfold execStartWatchdogExpire
  apply OutKept.ite
  · with_reducible apply OutKept.next
    with_reducible apply settle_kept
    with_reducible apply startFail_kept
    exact hk
  · with_reducible apply OutKept.next
    exact hk

theorem execThermalWaitEnd_kept {a' : State} {s : State} (hk : Kept a' s) :
    OutKept a' (execThermalWaitEnd s) := by
  unfold execThermalWaitEnd
  apply OutKept.ite
  · with_reducible apply OutKept.next
    with_reducible apply setPhases_kept
    with_reducible refine Kept.mk' rfl rfl rfl rfl rfl rfl rfl rfl rfl rfl ?_
    exact hk
  · with_reducible apply OutKept.next
    exact hk

theorem execCurdImageLoad_kept {a' : State} {g : Nat} {s : State} (hk : Kept a' s) :
    OutKept a' (execCurdImageLoad g s) := by
  unfold execCurdImageLoad
  split
  · rename_i z0 z1 z2
    apply OutKept.ite
    · with_reducible apply OutKept.next
      with_reducible apply settle_kept
      with_reducible apply loadCurdStore_kept
      exact hk
    · with_reducible apply OutKept.next
      exact hk
  · rename_i z3 z4
    with_reducible apply OutKept.next
    exact hk

theorem execDramTrainingDone_kept {a' : State} {d : RSlot} {lanes : List LaneEyes} {s : State} (hk : Kept a' s) :
    OutKept a' (execDramTrainingDone d lanes s) := by
  unfold execDramTrainingDone
  apply OutKept.ite
  · lift_lets
    intro x0
    have h1 : Kept a' x0 := by
      subst x0
      with_reducible apply trainChannel_kept
      with_reducible apply trainChannel_kept
      exact hk
    clear_value x0
    intro x2
    clear_value x2
    intro x3
    have h4 : Kept a' x3 := by
      subst x3
      with_reducible apply raise_kept
      with_reducible apply State.wrR_kept
      exact h1
    clear_value x3
    apply OutKept.ite
    · with_reducible apply OutKept.next
      with_reducible apply State.wrR_kept
      exact h1
    · with_reducible apply OutKept.next
      with_reducible apply settle_kept
      apply Kept.ite
      · with_reducible apply endResync_kept
        exact h4
      · apply Kept.ite
        · with_reducible apply startFail_kept
          exact h4
        · with_reducible apply fenceDie_kept
          exact h4
  · with_reducible apply OutKept.next
    exact hk

theorem execDramFillDone_kept {a' : State} {d : RSlot} {s : State} (hk : Kept a' s) :
    OutKept a' (execDramFillDone d s) := by
  unfold execDramFillDone
  apply OutKept.ite
  · lift_lets
    intro x0
    have h1 : Kept a' x0 := by
      subst x0
      with_reducible apply Kept.modBmem
      · intro y2 y3
        exact rfl
      · exact hk
    clear_value x0
    intro x4
    have h5 : Kept a' x4 := by
      subst x4
      with_reducible apply State.wrR_kept
      with_reducible apply State.wrR_kept
      exact h1
    clear_value x4
    intro x6
    have h7 : Kept a' x6 := by
      subst x6
      with_reducible apply releaseDie_kept
      exact h5
    clear_value x6
    apply OutKept.ite
    · with_reducible apply OutKept.next
      exact h5
    · apply OutKept.ite
      · with_reducible apply OutKept.next
        with_reducible apply settle_kept
        apply Kept.ite
        · with_reducible apply fenceDie_kept
          with_reducible apply noteDivergence_kept
          exact h7
        · exact h7
      · with_reducible apply OutKept.next
        exact h5
  · with_reducible apply OutKept.next
    exact hk

theorem execBudgetCycle_kept {a' : State} {s : State} (hk : Kept a' s) :
    OutKept a' (execBudgetCycle s) := by
  unfold execBudgetCycle
  with_reducible apply OutKept.next
  with_reducible apply settle_kept
  apply Kept.ite
  · with_reducible apply cycle_kept
    with_reducible apply newStep_kept
    exact hk
  · exact hk

theorem execBudgetInputWrite_kept {a' : State} {d : RSlot} {s : State} (hk : Kept a' s) :
    OutKept a' (execBudgetInputWrite d s) := by
  unfold execBudgetInputWrite
  apply OutKept.ite
  · with_reducible apply OutKept.next
    exact hk
  · lift_lets
    intro x0
    clear_value x0
    intro x1
    have h2 : Kept a' x1 := by
      subst x1
      apply Kept.ite
      · exact hk
      · with_reducible apply newStep_kept
        exact hk
    clear_value x1
    intro x3
    have h4 : Kept a' x3 := by
      subst x3
      with_reducible apply Kept.foldl
      · intro t5 y6 h7
        with_reducible apply State.wrR_kept
        exact h7
      · exact h2
    clear_value x3
    split
    · rename_i z8 z9
      with_reducible apply OutKept.next
      with_reducible apply settle_kept
      exact h4
    · rename_i z10 z11 z12
      lift_lets
      intro x13
      have h14 : Kept a' x13 := by
        subst x13
        with_reducible apply Kept.foldl
        · intro t15 y16 h17
          with_reducible apply State.wrR_kept
          exact h17
        · exact h4
      clear_value x13
      with_reducible apply OutKept.next
      with_reducible apply settle_kept
      apply Kept.ite
      · exact h14
      · with_reducible apply takeReading_kept
        exact h14

theorem execDiodeSample_kept {a' : State} {die : Die} {deciC : Int} {s : State} (hk : Kept a' s) :
    OutKept a' (execDiodeSample die deciC s) := by
  unfold execDiodeSample
  apply OutKept.ite
  · with_reducible apply OutKept.next
    exact hk
  · lift_lets
    intro x0
    clear_value x0
    intro x1
    clear_value x1
    intro x2
    clear_value x2
    intro x3
    have h4 : Kept a' x3 := by
      subst x3
      with_reducible apply modBudget_kept
      exact hk
    clear_value x3
    apply OutKept.ite
    · with_reducible apply OutKept.next
      exact h4
    · apply OutKept.ite
      · with_reducible apply OutKept.next
        with_reducible apply settle_kept
        with_reducible apply shutDie_kept
        with_reducible apply noteShutdown_kept
        exact h4
      · apply OutKept.ite
        · with_reducible apply OutKept.next
          with_reducible apply settle_kept
          with_reducible apply coolDie_kept
          exact h4
        · with_reducible apply OutKept.next
          exact h4

theorem execCurdReportMissing_kept {a' : State} {g : Nat} {s : State} (hk : Kept a' s) :
    OutKept a' (execCurdReportMissing g s) := by
  unfold execCurdReportMissing
  apply OutKept.ite
  · with_reducible apply OutKept.next
    with_reducible apply settle_kept
    with_reducible apply showTemp_kept
    with_reducible apply modBudget_kept
    with_reducible apply newStep_kept
    exact hk
  · with_reducible apply OutKept.next
    exact hk

theorem execGraceExpire_kept {a' : State} {s : State} (hk : Kept a' s) :
    OutKept a' (execGraceExpire s) := by
  unfold execGraceExpire
  apply OutKept.ite
  · with_reducible apply OutKept.next
    with_reducible apply settle_kept
    with_reducible apply enforce_kept
    with_reducible apply newStep_kept
    exact hk
  · with_reducible apply OutKept.next
    exact hk

theorem execThrottleDepthTick_kept {a' : State} {s : State} (hk : Kept a' s) :
    OutKept a' (execThrottleDepthTick s) := by
  unfold execThrottleDepthTick
  apply OutKept.ite
  · with_reducible apply OutKept.next
    with_reducible apply settle_kept
    with_reducible apply depthTick_kept
    with_reducible apply newStep_kept
    exact hk
  · with_reducible apply OutKept.next
    exact hk

theorem execActiveGroupRechoose_kept {a' : State} {s : State} (hk : Kept a' s) :
    OutKept a' (execActiveGroupRechoose s) := by
  unfold execActiveGroupRechoose
  with_reducible apply OutKept.next
  with_reducible apply settle_kept
  apply Kept.ite
  · with_reducible apply rechoose_kept
    with_reducible apply newStep_kept
    exact hk
  · exact hk

theorem execSpindleRaiseWait_kept {a' : State} {s : State} (hk : Kept a' s) :
    OutKept a' (execSpindleRaiseWait s) := by
  unfold execSpindleRaiseWait
  with_reducible apply OutKept.next
  with_reducible apply settle_kept
  apply Kept.ite
  · with_reducible apply sendTarget_kept
    with_reducible apply nextRaises_kept
    with_reducible apply newStep_kept
    exact hk
  · exact hk

theorem execRaiseHoldExpire_kept {a' : State} {s : State} (hk : Kept a' s) :
    OutKept a' (execRaiseHoldExpire s) := by
  unfold execRaiseHoldExpire
  apply OutKept.ite
  · with_reducible apply OutKept.next
    with_reducible apply settle_kept
    with_reducible apply sendTarget_kept
    with_reducible apply modBudget_kept
    with_reducible apply nextRaises_kept
    with_reducible apply newStep_kept
    exact hk
  · with_reducible apply OutKept.next
    exact hk

theorem execBudgetRead_kept {a' : State} {d : RSlot} {eng : Nat} {s : State} (hk : Kept a' s) :
    OutKept a' (execBudgetRead d eng s) := by
  unfold execBudgetRead
  lift_lets
  intro x0
  clear_value x0
  with_reducible apply OutKept.next
  with_reducible apply settle_kept
  with_reducible apply reply_kept
  exact hk

theorem execRptDieReport_kept {a' : State} {g : Nat} {w0 : Word} {s : State} (hk : Kept a' s) :
    OutKept a' (execRptDieReport g w0 s) := by
  unfold execRptDieReport
  apply OutKept.ite
  · lift_lets
    intro x0
    have h1 : Kept a' x0 := by
      subst x0
      with_reducible apply takeRpt_kept
      exact hk
    clear_value x0
    intro x2
    clear_value x2
    intro x3
    clear_value x3
    intro x4
    have h5 : Kept a' x4 := by
      subst x4
      with_reducible apply modBudget_kept
      exact h1
    clear_value x4
    with_reducible apply OutKept.next
    with_reducible apply settle_kept
    with_reducible apply takeReading_kept
    exact h5
  · with_reducible apply OutKept.next
    exact hk

theorem execRptSpindle_kept {a' : State} {w0 : Word} {w1 : Word} {w2 : Word} {w3 : Word} {s : State} (hk : Kept a' s) :
    OutKept a' (execRptSpindle w0 w1 w2 w3 s) := by
  unfold execRptSpindle
  apply OutKept.ite
  · with_reducible apply OutKept.next
    with_reducible apply settle_kept
    with_reducible apply modBudget_kept
    with_reducible apply takeRpt_kept
    exact hk
  · with_reducible apply OutKept.next
    exact hk

theorem execBmemReadComplete_kept {a' : State} {d : RSlot} {cw : Nat} {syms : List Byte} {s : State} (hk : Kept a' s) :
    OutKept a' (execBmemReadComplete d cw syms s) := by
  unfold execBmemReadComplete
  apply OutKept.ite
  · with_reducible apply OutKept.next
    exact hk
  · lift_lets
    intro x0
    have h1 : Kept a' x0.2.2 := by
      subst x0
      with_reducible apply decodeCw_kept
      with_reducible apply openRow_kept
      exact hk
    clear_value x0
    intro x2
    have h3 : Kept a' x2 := by
      subst x2
      with_reducible apply Kept.modBmem
      · intro y4 y5
        exact y5
      · exact h1
    clear_value x2
    with_reducible apply OutKept.next
    with_reducible apply settle_kept
    apply Kept.ite
    · with_reducible apply Kept.modBmem
      · intro y6 y7
        exact y7
      · exact h3
    · exact h3

theorem execMarkWindowExpire_kept {a' : State} {d : RSlot} {c : Nat} {s : State} (hk : Kept a' s) :
    OutKept a' (execMarkWindowExpire d c s) := by
  unfold execMarkWindowExpire
  lift_lets
  intro x0
  clear_value x0
  with_reducible apply OutKept.next
  with_reducible apply Kept.modBmem
  · intro y1 y2
    exact y2
  · exact hk

theorem execMergeAgeExpire_kept {a' : State} {d : RSlot} {cw : Nat} {s : State} (hk : Kept a' s) :
    OutKept a' (execMergeAgeExpire d cw s) := by
  unfold execMergeAgeExpire
  split
  · rename_i z0 z1 z2
    with_reducible apply OutKept.next
    with_reducible apply settle_kept
    with_reducible apply mergeOut_kept
    exact hk
  · rename_i z3 z4
    with_reducible apply OutKept.next
    exact hk

theorem execRefreshDue_kept {a' : State} {d : RSlot} {c : Nat} {set : Nat} {s : State} (hk : Kept a' s) :
    OutKept a' (execRefreshDue d c set s) := by
  unfold execRefreshDue
  apply OutKept.ite
  · with_reducible apply OutKept.next
    exact hk
  · lift_lets
    intro x0
    clear_value x0
    intro x1
    clear_value x1
    apply OutKept.ite
    · with_reducible apply OutKept.next
      exact hk
    · apply OutKept.ite
      · with_reducible apply OutKept.next
        with_reducible apply State.incR_kept
        with_reducible apply Kept.modBmem
        · intro y2 y3
          exact y3
        · exact hk
      · with_reducible apply OutKept.next
        with_reducible apply Kept.modBmem
        · intro y4 y5
          exact y5
        · exact hk

theorem execRefreshRatePoll_kept {a' : State} {d : RSlot} {c : Nat} {hot : List Bool} {s : State} (hk : Kept a' s) :
    OutKept a' (execRefreshRatePoll d c hot s) := by
  unfold execRefreshRatePoll
  apply OutKept.ite
  · with_reducible apply OutKept.next
    exact hk
  · lift_lets
    intro x0
    clear_value x0
    with_reducible apply OutKept.next
    with_reducible apply State.wrR_kept
    exact hk

theorem execDramAlert_kept {a' : State} {d : RSlot} {c : Nat} {s : State} (hk : Kept a' s) :
    OutKept a' (execDramAlert d c s) := by
  unfold execDramAlert
  apply OutKept.ite
  · with_reducible apply OutKept.next
    exact hk
  · lift_lets
    intro x0
    have h1 : Kept a' x0 := by
      subst x0
      with_reducible apply State.incR_kept
      exact hk
    clear_value x0
    apply OutKept.ite
    · with_reducible apply OutKept.next
      with_reducible apply settle_kept
      with_reducible apply functionReset_kept
      with_reducible apply raise_kept
      exact h1
    · with_reducible apply OutKept.next
      with_reducible apply Kept.modBmem
      · intro y2 y3
        exact y3
      · exact h1

theorem execPageIdle_kept {a' : State} {d : RSlot} {c : Nat} {bank : Nat} {s : State} (hk : Kept a' s) :
    OutKept a' (execPageIdle d c bank s) := by
  unfold execPageIdle
  apply OutKept.ite
  · with_reducible apply OutKept.next
    exact hk
  · lift_lets
    intro x0
    have h1 : Kept a' x0 := by
      subst x0
      with_reducible apply Kept.modBmem
      · intro y2 y3
        exact y3
      · exact hk
    clear_value x0
    intro x4
    clear_value x4
    with_reducible apply OutKept.next
    apply Kept.ite
    · with_reducible apply Kept.modBmem
      · intro y5 y6
        exact y6
      · exact h1
    · exact h1

theorem execCaveRead_kept {a' : State} {d : RSlot} {who : AccWho} {addr : Nat} {noalloc : Bool} {s : State} (hk : Kept a' s) :
    OutKept a' (execCaveRead d who addr noalloc s) := by
  unfold execCaveRead
  lift_lets
  intro x0
  clear_value x0
  intro x1
  have h2 : Kept a' x1.2.2 := by
    subst x1
    with_reducible apply caveReadLine_kept
    exact hk
  clear_value x1
  apply OutKept.ite
  · with_reducible apply OutKept.next
    exact hk
  · apply OutKept.ite
    · with_reducible apply OutKept.next
      with_reducible apply settle_kept
      with_reducible apply Kept.emit
      exact h2
    · with_reducible apply OutKept.next
      with_reducible apply settle_kept
      with_reducible apply joinFill_kept
      with_reducible apply countLookup_kept
      with_reducible apply maintRun_kept
      exact hk

theorem execCaveWrite_kept {a' : State} {d : RSlot} {who : AccWho} {addr : Nat} {data : List Byte} {s : State} (hk : Kept a' s) :
    OutKept a' (execCaveWrite d who addr data s) := by
  unfold execCaveWrite
  apply OutKept.ite
  · with_reducible apply OutKept.next
    exact hk
  · with_reducible apply OutKept.next
    with_reducible apply settle_kept
    with_reducible apply caveWrite_kept
    exact hk

theorem execCaveFillComplete_kept {a' : State} {d : RSlot} {line : Nat} {s : State} (hk : Kept a' s) :
    OutKept a' (execCaveFillComplete d line s) := by
  unfold execCaveFillComplete
  split
  · rename_i z0 z1
    with_reducible apply OutKept.next
    exact hk
  · rename_i z2 z3 z4
    lift_lets
    intro x5
    have h6 : Kept a' x5 := by
      subst x5
      with_reducible apply modCave_kept
      with_reducible apply maintRun_kept
      exact hk
    clear_value x5
    intro x7
    have h8 : Kept a' x7.2.2 := by
      subst x7
      with_reducible apply readLine_kept
      · intro t9 h10
        with_reducible apply fillData_kept
        exact h10
      · exact h6
    clear_value x7
    intro x11
    have h12 : Kept a' x11 := by
      subst x11
      with_reducible apply Kept.modBmem
      · intro y13 y14
        exact y14
      · exact h8
    clear_value x11
    with_reducible apply OutKept.next
    with_reducible apply settle_kept
    with_reducible apply Kept.foldl
    · intro t15 y16 h17
      with_reducible apply Kept.emit
      exact h17
    · exact h12

theorem execEvictionDrain_kept {a' : State} {d : RSlot} {s : State} (hk : Kept a' s) :
    OutKept a' (execEvictionDrain d s) := by
  unfold execEvictionDrain
  with_reducible apply OutKept.next
  apply Kept.ite
  · with_reducible apply settle_kept
    with_reducible apply evictDrain_kept
    exact hk
  · exact hk

theorem execCaveMaintStart_kept {a' : State} {d : RSlot} {op : Nat} {spareLocked : Bool} {s : State} (hk : Kept a' s) :
    OutKept a' (execCaveMaintStart d op spareLocked s) := by
  unfold execCaveMaintStart
  apply OutKept.ite
  · with_reducible apply OutKept.next
    exact hk
  · lift_lets
    intro x0
    clear_value x0
    with_reducible apply OutKept.next
    with_reducible apply settle_kept
    with_reducible apply answerAny_kept
    with_reducible apply maintStart_kept
    exact hk

theorem execCaveMaintDone_kept {a' : State} {d : RSlot} {s : State} (hk : Kept a' s) :
    OutKept a' (execCaveMaintDone d s) := by
  unfold execCaveMaintDone
  with_reducible apply OutKept.next
  with_reducible apply settle_kept
  with_reducible apply maintDone_kept
  exact hk

theorem execRead_kept {a' : State} {port : Nat} {s : State} (hk : Kept a' s) :
    OutKept a' (execRead port s) := by
  unfold execRead
  with_reducible apply OutKept.next
  with_reducible apply admitOp_kept
  · intro y0 t1 h2
    with_reducible apply admitRead_kept
    exact h2
  · exact hk

theorem execWrite_kept {a' : State} {port : Nat} {s : State} (hk : Kept a' s) :
    OutKept a' (execWrite port s) := by
  unfold execWrite
  with_reducible apply OutKept.next
  with_reducible apply admitOp_kept
  · intro y0 t1 h2
    with_reducible apply admitWrite_kept
    exact h2
  · exact hk

theorem execAppend_kept {a' : State} {port : Nat} {s : State} (hk : Kept a' s) :
    OutKept a' (execAppend port s) := by
  unfold execAppend
  with_reducible apply OutKept.next
  with_reducible apply admitOp_kept
  · intro y0 t1 h2
    with_reducible apply admitAppend_kept
    exact h2
  · exact hk

theorem execFence_kept {a' : State} {port : Nat} {s : State} (hk : Kept a' s) :
    OutKept a' (execFence port s) := by
  unfold execFence
  with_reducible apply OutKept.next
  with_reducible apply admitOp_kept
  · intro y0 t1 h2
    with_reducible apply admitFence_kept
    exact h2
  · exact hk

theorem execFlush_kept {a' : State} {port : Nat} {s : State} (hk : Kept a' s) :
    OutKept a' (execFlush port s) := by
  unfold execFlush
  with_reducible apply OutKept.next
  with_reducible apply admitOp_kept
  · intro y0 t1 h2
    with_reducible apply admitFlush_kept
    exact h2
  · exact hk

theorem execTrim_kept {a' : State} {port : Nat} {s : State} (hk : Kept a' s) :
    OutKept a' (execTrim port s) := by
  unfold execTrim
  with_reducible apply OutKept.next
  with_reducible apply admitOp_kept
  · intro y0 t1 h2
    with_reducible apply admitTrim_kept
    exact h2
  · exact hk

theorem execCopy_kept {a' : State} {port : Nat} {s : State} (hk : Kept a' s) :
    OutKept a' (execCopy port s) := by
  unfold execCopy
  with_reducible apply OutKept.next
  with_reducible apply admitOp_kept
  · intro y0 t1 h2
    with_reducible apply admitCopy_kept
    exact h2
  · exact hk

theorem execWinmap_kept {a' : State} {port : Nat} {s : State} (hk : Kept a' s) :
    OutKept a' (execWinmap port s) := by
  unfold execWinmap
  with_reducible apply OutKept.next
  with_reducible apply admitOp_kept
  · intro y0 t1 h2
    with_reducible apply admitRead_kept
    exact h2
  · exact hk

theorem execAbort_kept {a' : State} {port : Nat} {s : State} (hk : Kept a' s) :
    OutKept a' (execAbort port s) := by
  unfold execAbort
  with_reducible apply OutKept.next
  with_reducible apply admitOp_kept
  · intro y0 t1 h2
    with_reducible apply admitAbort_kept
    exact h2
  · exact hk

theorem execInvalidOpcode_kept {a' : State} {port : Nat} {s : State} (hk : Kept a' s) :
    OutKept a' (execInvalidOpcode port s) := by
  unfold execInvalidOpcode
  with_reducible apply OutKept.next
  with_reducible apply settle_kept
  with_reducible apply admitWith_kept
  · intro y0 t1 h2
    exact h2
  · exact hk

theorem execGenerateCompletion_kept {a' : State} {port : Nat} {tag : Nat} {s : State} (hk : Kept a' s) :
    OutKept a' (execGenerateCompletion port tag s) := by
  unfold execGenerateCompletion
  with_reducible apply OutKept.next
  with_reducible apply settle_kept
  with_reducible apply generateCompletion_kept
  exact hk

theorem execReadCommandRecord_kept {a' : State} {d : RSlot} {eng : Nat} {port : Nat} {tag : Nat} {s : State} (hk : Kept a' s) :
    OutKept a' (execReadCommandRecord d eng port tag s) := by
  unfold execReadCommandRecord
  split
  · rename_i z0 z1
    with_reducible apply OutKept.next
    with_reducible apply settle_kept
    with_reducible apply reply_kept
    exact hk
  · rename_i z2 z3 z4
    lift_lets
    intro x5
    have h6 : Kept a' x5 := by
      subst x5
      with_reducible apply modEng_kept
      exact hk
    clear_value x5
    with_reducible apply OutKept.next
    with_reducible apply settle_kept
    with_reducible apply reply_kept
    exact h6

theorem execTakeMediaOperation_kept {a' : State} {g : Nat} {times : List Nat} {s : State} (hk : Kept a' s) :
    OutKept a' (execTakeMediaOperation g times s) := by
  unfold execTakeMediaOperation
  lift_lets
  intro x0
  have h1 : ∀ y0 y1 y2, Kept a' y2 → Kept a' (x0 y0 y1 y2) := by
    subst x0
    intro y2 y3 t4 h5
    beta_reduce
    with_reducible apply inStep_kept
    · intro y6 t7 h8
      with_reducible apply reply_kept
      exact h8
    · exact h5
  clear_value x0
  split
  · rename_i z9 z10
    with_reducible apply OutKept.next
    with_reducible apply settle_kept
    apply h1
    exact hk
  · rename_i z11 z12 z13
    with_reducible apply OutKept.next
    with_reducible apply settle_kept
    apply h1
    with_reducible apply takeOp_kept
    exact hk

theorem execReleaseHazard_kept {a' : State} {port : Nat} {tag : Nat} {s : State} (hk : Kept a' s) :
    OutKept a' (execReleaseHazard port tag s) := by
  unfold execReleaseHazard
  split
  · rename_i z0 z1
    with_reducible apply OutKept.next
    exact hk
  · rename_i z2 z3 z4
    lift_lets
    intro x5
    have h6 : Kept a' x5 := by
      subst x5
      with_reducible apply showSched_kept
      with_reducible apply retire_kept
      with_reducible apply modCmd_kept
      exact hk
    clear_value x5
    with_reducible apply OutKept.next
    with_reducible apply settle_kept
    with_reducible apply inStep_kept
    · intro y7 t8 h9
      with_reducible apply answerAny_kept
      exact h9
    · exact h6

theorem execCommandTimeout_kept {a' : State} {port : Nat} {tag : Nat} {unit : Option RUnit} {s : State} (hk : Kept a' s) :
    OutKept a' (execCommandTimeout port tag unit s) := by
  unfold execCommandTimeout
  split
  · rename_i z0 z1
    with_reducible apply OutKept.next
    exact hk
  · rename_i z2 z3 z4
    apply OutKept.ite
    · with_reducible apply OutKept.next
      exact hk
    · lift_lets
      intro x5
      have h6 : Kept a' x5 := by
        subst x5
        with_reducible apply inStep_kept
        · intro y7 t8 h9
          with_reducible apply Kept.foldl
          · intro t10 y11 h12
            apply Kept.ite
            · with_reducible apply postEvent_kept
              exact h12
            · exact h12
          · exact h9
        · exact hk
      clear_value x5
      intro x13
      clear_value x13
      intro x14
      have h15 : Kept a' x14 := by
        subst x14
        with_reducible apply inStep_kept
        · intro y16 t17 h18
          with_reducible apply Kept.foldl
          · intro t19 y20 h21
            with_reducible apply ctrlTo_kept
            exact h21
          · exact h18
        · exact h6
      clear_value x14
      intro x22
      have h23 : Kept a' x22 := by
        subst x22
        with_reducible apply inStep_kept
        · intro y24 t25 h26
          with_reducible apply raise_kept
          with_reducible apply useRung_kept
          exact h26
        · with_reducible apply recoverCmd_kept
          exact h15
      clear_value x22
      with_reducible apply OutKept.next
      with_reducible apply settle_kept
      split
      · rename_i z27 z28
        with_reducible apply inStep_kept
        · intro y29 t30 h31
          with_reducible apply nameUnit_kept
          exact h31
        · exact h23
      · rename_i z32
        exact h23

theorem execNext_kept {a' : State} {e : Eng} {s : State} (hk : Kept a' s) :
    OutKept a' (execNext e s) := by
  unfold execNext
  with_reducible apply OutKept.next
  with_reducible apply settle_kept
  with_reducible apply runWord_kept
  exact hk

theorem execJump_kept {a' : State} {e : Eng} {s : State} (hk : Kept a' s) :
    OutKept a' (execJump e s) := by
  unfold execJump
  with_reducible apply OutKept.next
  with_reducible apply settle_kept
  with_reducible apply runWord_kept
  exact hk

theorem execBranch_kept {a' : State} {e : Eng} {s : State} (hk : Kept a' s) :
    OutKept a' (execBranch e s) := by
  unfold execBranch
  with_reducible apply OutKept.next
  with_reducible apply settle_kept
  with_reducible apply runWord_kept
  exact hk

theorem execCall_kept {a' : State} {e : Eng} {s : State} (hk : Kept a' s) :
    OutKept a' (execCall e s) := by
  unfold execCall
  with_reducible apply OutKept.next
  with_reducible apply settle_kept
  with_reducible apply runWord_kept
  exact hk

theorem execCallc_kept {a' : State} {e : Eng} {s : State} (hk : Kept a' s) :
    OutKept a' (execCallc e s) := by
  unfold execCallc
  with_reducible apply OutKept.next
  with_reducible apply settle_kept
  with_reducible apply runWord_kept
  exact hk

theorem execReturnOp_kept {a' : State} {e : Eng} {s : State} (hk : Kept a' s) :
    OutKept a' (execReturnOp e s) := by
  unfold execReturnOp
  with_reducible apply OutKept.next
  with_reducible apply settle_kept
  with_reducible apply runWord_kept
  exact hk

theorem execLoop_kept {a' : State} {e : Eng} {s : State} (hk : Kept a' s) :
    OutKept a' (execLoop e s) := by
  unfold execLoop
  with_reducible apply OutKept.next
  with_reducible apply settle_kept
  with_reducible apply runWord_kept
  exact hk

theorem execDispatch_kept {a' : State} {e : Eng} {s : State} (hk : Kept a' s) :
    OutKept a' (execDispatch e s) := by
  unfold execDispatch
  with_reducible apply OutKept.next
  with_reducible apply settle_kept
  with_reducible apply runWord_kept
  exact hk

theorem execWaitOp_kept {a' : State} {e : Eng} {s : State} (hk : Kept a' s) :
    OutKept a' (execWaitOp e s) := by
  unfold execWaitOp
  with_reducible apply OutKept.next
  with_reducible apply settle_kept
  with_reducible apply runWord_kept
  exact hk

theorem execEndOp_kept {a' : State} {e : Eng} {s : State} (hk : Kept a' s) :
    OutKept a' (execEndOp e s) := by
  unfold execEndOp
  with_reducible apply OutKept.next
  with_reducible apply settle_kept
  with_reducible apply runWord_kept
  exact hk

theorem execEventPost_kept {a' : State} {e : Eng} {cls : Nat} {data : BitVec 64} {s : State} (hk : Kept a' s) :
    OutKept a' (execEventPost e cls data s) := by
  unfold execEventPost
  with_reducible apply OutKept.next
  apply Kept.ite
  · with_reducible apply settle_kept
    with_reducible apply postEvent_kept
    exact hk
  · exact hk

theorem execResponseArrival_kept {a' : State} {e : Eng} {p : RespPort} {v : BitVec 64} {ok : Bool} {drained : Bool} {poisoned : Bool} {queued : Bool} {s : State} (hk : Kept a' s) :
    OutKept a' (execResponseArrival e p v ok drained poisoned queued s) := by
  unfold execResponseArrival
  with_reducible apply OutKept.next
  with_reducible apply settle_kept
  with_reducible apply deliver_kept
  exact hk

theorem execEngineTimerExpire_kept {a' : State} {e : Eng} {s : State} (hk : Kept a' s) :
    OutKept a' (execEngineTimerExpire e s) := by
  unfold execEngineTimerExpire
  split
  · rename_i z0 z1
    with_reducible apply OutKept.next
    with_reducible apply settle_kept
    with_reducible apply timerEvent_kept
    exact hk
  · rename_i z2 z3 z4
    apply OutKept.ite
    · with_reducible apply OutKept.next
      exact hk
    · with_reducible apply OutKept.next
      with_reducible apply settle_kept
      with_reducible apply inStep_kept
      · intro y5 t6 h7
        with_reducible apply timerEvent_kept
        exact h7
      · with_reducible apply newStep_kept
        exact hk

theorem execRoutineTimeout_kept {a' : State} {e : Eng} {s : State} (hk : Kept a' s) :
    OutKept a' (execRoutineTimeout e s) := by
  unfold execRoutineTimeout
  lift_lets
  intro x0
  clear_value x0
  apply OutKept.ite
  · apply OutKept.ite
    · with_reducible apply OutKept.next
      with_reducible apply settle_kept
      with_reducible apply modEng_kept
      exact hk
    · with_reducible apply OutKept.next
      with_reducible apply settle_kept
      with_reducible apply syncFault_kept
      exact hk
  · with_reducible apply OutKept.next
    exact hk

theorem execMemLoad_kept {a' : State} {e : Eng} {addr : Nat} {s : State} (hk : Kept a' s) :
    OutKept a' (execMemLoad e addr s) := by
  unfold execMemLoad
  apply OutKept.ite
  · with_reducible apply OutKept.next
    exact hk
  · split
    · rename_i z0 z1 z2
      apply OutKept.ite
      · with_reducible apply OutKept.next
        exact hk
      · lift_lets
        intro x3
        have h4 : Kept a' x3.2.2 := by
          subst x3
          with_reducible apply caveRead_kept
          exact hk
        clear_value x3
        intro x5
        clear_value x5
        with_reducible apply OutKept.next
        with_reducible apply settle_kept
        with_reducible apply Kept.emit
        with_reducible apply deliver_kept
        exact h4
    · rename_i z6 z7
      apply OutKept.ite
      · with_reducible apply OutKept.next
        exact hk
      · lift_lets
        intro x8
        clear_value x8
        with_reducible apply OutKept.next
        with_reducible apply settle_kept
        with_reducible apply Kept.emit
        with_reducible apply deliver_kept
        exact hk

theorem execMemStore_kept {a' : State} {e : Eng} {addr : Nat} {v : BitVec 64} {s : State} (hk : Kept a' s) :
    OutKept a' (execMemStore e addr v s) := by
  unfold execMemStore
  apply OutKept.ite
  · with_reducible apply OutKept.next
    exact hk
  · split
    · rename_i z0 z1 z2
      apply OutKept.ite
      · with_reducible apply OutKept.next
        exact hk
      · with_reducible apply OutKept.next
        with_reducible apply settle_kept
        with_reducible apply reply_kept
        with_reducible apply caveWrite_kept
        exact hk
    · rename_i z3 z4
      apply OutKept.ite
      · with_reducible apply OutKept.next
        exact hk
      · with_reducible apply OutKept.next
        with_reducible apply settle_kept
        with_reducible apply reply_kept
        with_reducible apply Kept.modCurd
        · intro y5 y6
          exact Sparse.wf_putRun _ _ (by assumption)
        · exact hk

theorem execMailboxPost_kept {a' : State} {d : RSlot} {target : Nat} {v : BitVec 64} {s : State} (hk : Kept a' s) :
    OutKept a' (execMailboxPost d target v s) := by
  unfold execMailboxPost
  apply OutKept.ite
  · with_reducible apply OutKept.next
    with_reducible apply settle_kept
    with_reducible apply answerAny_kept
    with_reducible apply postEvent_kept
    exact hk
  · with_reducible apply OutKept.next
    exact hk

theorem execFinvikOpen_kept {a' : State} {e : Eng} {v : BitVec 64} {s : State} (hk : Kept a' s) :
    OutKept a' (execFinvikOpen e v s) := by
  unfold execFinvikOpen
  apply OutKept.ite
  · lift_lets
    intro x0
    clear_value x0
    with_reducible apply OutKept.next
    with_reducible apply settle_kept
    with_reducible apply reply_kept
    with_reducible apply modEng_kept
    exact hk
  · with_reducible apply OutKept.next
    exact hk

theorem execFinvikAppend_kept {a' : State} {e : Eng} {v : BitVec 64} {s : State} (hk : Kept a' s) :
    OutKept a' (execFinvikAppend e v s) := by
  unfold execFinvikAppend
  apply OutKept.ite
  · with_reducible apply OutKept.next
    exact hk
  · split
    · rename_i z0 z1
      with_reducible apply OutKept.next
      with_reducible apply settle_kept
      with_reducible apply reply_kept
      exact hk
    · rename_i z2 z3 z4 z5 z6
      lift_lets
      intro x7
      clear_value x7
      intro x8
      clear_value x8
      intro x9
      have h10 : Kept a' x9 := by
        subst x9
        apply Kept.ite
        · with_reducible apply modEng_kept
          exact hk
        · exact hk
      clear_value x9
      with_reducible apply OutKept.next
      with_reducible apply settle_kept
      with_reducible apply reply_kept
      exact h10

theorem execFinvikClose_kept {a' : State} {e : Eng} {s : State} (hk : Kept a' s) :
    OutKept a' (execFinvikClose e s) := by
  unfold execFinvikClose
  apply OutKept.ite
  · with_reducible apply OutKept.next
    exact hk
  · split
    · rename_i z0 z1
      with_reducible apply OutKept.next
      with_reducible apply settle_kept
      with_reducible apply reply_kept
      exact hk
    · rename_i z2 z3 z4 z5 z6
      lift_lets
      intro x7
      have h8 : Kept a' x7 := by
        subst x7
        with_reducible apply modEng_kept
        exact hk
      clear_value x7
      intro x9
      have h10 : Kept a' x9.2 := by
        subst x9
        with_reducible apply messageEseq_kept
        exact h8
      clear_value x9
      split
      · rename_i z11 z12
        with_reducible apply OutKept.next
        with_reducible apply settle_kept
        with_reducible apply reply_kept
        exact h8
      · rename_i z13 z14 z15
        lift_lets
        intro x16
        have h17 : Kept a' x16 := by
          subst x16
          split
          · rename_i z18 z19 z20
            lift_lets
            intro x21
            have h22 : Kept a' x21 := by
              subst x21
              with_reducible apply toCurd_kept
              exact h10
            clear_value x21
            beta_reduce
            apply Kept.ite
            · apply Kept.ite
              · with_reducible refine Kept.mk' rfl rfl rfl rfl rfl rfl rfl rfl rfl rfl ?_
                exact h22
              · exact h22
            · with_reducible apply sendMsg_kept
              exact h10
          · rename_i z23 z24
            with_reducible apply sendMsg_kept
            exact h10
        clear_value x16
        apply OutKept.ite
        · with_reducible apply OutKept.next
          with_reducible apply settle_kept
          with_reducible apply reply_kept
          exact h8
        · with_reducible apply OutKept.next
          with_reducible apply settle_kept
          with_reducible apply reply_kept
          exact h17

theorem execStepStateRead_kept {a' : State} {d : RSlot} {eng : Nat} {s : State} (hk : Kept a' s) :
    OutKept a' (execStepStateRead d eng s) := by
  unfold execStepStateRead
  with_reducible apply OutKept.next
  with_reducible apply settle_kept
  with_reducible apply reply_kept
  exact hk

theorem execTallyCheck_kept {a' : State} {d : RSlot} {s : State} (hk : Kept a' s) :
    OutKept a' (execTallyCheck d s) := by
  unfold execTallyCheck
  apply OutKept.ite
  · lift_lets
    intro x0
    have h1 : Kept a' x0.2 := by
      subst x0
      with_reducible apply tallyCheck_kept
      exact hk
    clear_value x0
    with_reducible apply OutKept.next
    with_reducible apply settle_kept
    with_reducible apply answerAny_kept
    exact h1
  · with_reducible apply OutKept.next
    exact hk

theorem execFaultRaise_kept {a' : State} {d : RSlot} {src : Nat} {detail : Nat} {s : State} (hk : Kept a' s) :
    OutKept a' (execFaultRaise d src detail s) := by
  unfold execFaultRaise
  apply OutKept.ite
  · lift_lets
    intro x0
    have h1 : Kept a' x0 := by
      subst x0
      with_reducible apply answerAny_kept
      exact hk
    clear_value x0
    with_reducible apply OutKept.next
    with_reducible apply settle_kept
    with_reducible apply raiseFull_kept
    exact h1
  · with_reducible apply OutKept.next
    exact hk

theorem execCountWindowExpire_kept {a' : State} {d : RSlot} {src : Nat} {quiet : Bool} {s : State} (hk : Kept a' s) :
    OutKept a' (execCountWindowExpire d src quiet s) := by
  unfold execCountWindowExpire
  apply OutKept.ite
  · lift_lets
    intro x0
    have h1 : Kept a' x0 := by
      subst x0
      with_reducible apply modIsland_kept
      exact hk
    clear_value x0
    with_reducible apply OutKept.next
    apply Kept.ite
    · with_reducible apply State.wrR_kept
      exact h1
    · exact h1
  · with_reducible apply OutKept.next
    exact hk

theorem execQuietExpire_kept {a' : State} {s : State} (hk : Kept a' s) :
    OutKept a' (execQuietExpire s) := by
  unfold execQuietExpire
  with_reducible apply OutKept.next
  with_reducible apply Kept.foldl
  · intro t0 y1 h2
    apply Kept.ite
    · with_reducible apply leaveFault_kept
      exact h2
    · exact h2
  · exact hk

theorem execLogFreezeLapse_kept {a' : State} {s : State} (hk : Kept a' s) :
    OutKept a' (execLogFreezeLapse s) := by
  unfold execLogFreezeLapse
  with_reducible apply OutKept.next
  with_reducible apply Kept.foldl
  · intro t0 y1 h2
    with_reducible apply setFreeze_kept
    exact h2
  · exact hk

theorem execLogRecordProgrammed_kept {a' : State} {good : Bool} {s : State} (hk : Kept a' s) :
    OutKept a' (execLogRecordProgrammed good s) := by
  unfold execLogRecordProgrammed
  lift_lets
  intro x0
  clear_value x0
  intro x1
  clear_value x1
  apply OutKept.ite
  · with_reducible apply OutKept.next
    exact hk
  · split
    · rename_i z2 z3
      with_reducible apply OutKept.next
      exact hk
    · rename_i z4 z5 z6
      split
      · rename_i z7 z8
        with_reducible apply OutKept.next
        exact hk
      · rename_i z9 z10 z11
        lift_lets
        intro x12
        clear_value x12
        intro x13
        clear_value x13
        intro x14
        have h15 : Kept a' x14 := by
          subst x14
          with_reducible apply Kept.emit
          with_reducible refine Kept.mk' rfl rfl rfl rfl rfl rfl rfl rfl rfl rfl ?_
          exact hk
        clear_value x14
        intro x16
        have h17 : Kept a' x16 := by
          subst x16
          with_reducible apply State.wrR_kept
          exact h15
        clear_value x16
        apply OutKept.ite
        · with_reducible apply OutKept.next
          with_reducible apply unstage_kept
          exact h17
        · apply OutKept.ite
          · with_reducible apply OutKept.next
            with_reducible apply unstage_kept
            exact h17
          · with_reducible apply OutKept.next
            with_reducible apply modIsland_kept
            exact h17

theorem execLogSectorErased_kept {a' : State} {s : State} (hk : Kept a' s) :
    OutKept a' (execLogSectorErased s) := by
  unfold execLogSectorErased
  lift_lets
  intro x0
  clear_value x0
  intro x1
  have h2 : ∀ y0 y1, Kept a' y1 → Kept a' (x1 y0 y1) := by
    subst x1
    intro y3 t4 h5
    beta_reduce
    lift_lets
    intro x6
    clear_value x6
    with_reducible apply State.wrR_kept
    with_reducible apply Kept.emit
    with_reducible refine Kept.mk' rfl rfl rfl rfl rfl rfl rfl rfl rfl rfl ?_
    exact h5
  clear_value x1
  apply OutKept.ite
  · with_reducible apply OutKept.next
    exact hk
  · split
    · rename_i z7 z8 z9
      apply OutKept.ite
      · apply OutKept.ite
        · split
          · rename_i z10 z11 z12
            with_reducible apply OutKept.next
            apply h2
            exact hk
          · rename_i z13 z14
            with_reducible apply OutKept.next
            exact hk
        · with_reducible apply OutKept.next
          exact hk
      · split
        · rename_i z15 z16 z17
          with_reducible apply OutKept.next
          apply h2
          exact hk
        · rename_i z18 z19
          with_reducible apply OutKept.next
          with_reducible apply unstage_kept
          exact hk
    · rename_i z20 z21
      apply OutKept.ite
      · split
        · rename_i z22 z23 z24
          with_reducible apply OutKept.next
          apply h2
          exact hk
        · rename_i z25 z26
          with_reducible apply OutKept.next
          exact hk
      · with_reducible apply OutKept.next
        exact hk

end Sys2Proof.Machine
end

