-- ==== Sys2Proof/Laws/KeptExec2.lean ====
section
/-! SUPPORT. What the meanings keep (the relation of Laws/Kept.lean), one lemma each: Fault, Finvik, InStep, Ladle, Links, Port, Power, Sector. -/

set_option linter.all false

namespace Sys2Proof.Machine

theorem execLogScanDone_kept {a' : State} {d : RSlot} {s : State} (hk : Kept a' s) :
    OutKept a' (execLogScanDone d s) := by
  unfold execLogScanDone
  apply OutKept.ite
  · with_reducible apply OutKept.next
    with_reducible apply State.wrR_kept
    with_reducible apply State.wrR_kept
    exact hk
  · apply OutKept.ite
    · lift_lets
      intro x0
      have h1 : Kept a' x0 := by
        subst x0
        with_reducible apply modIsland_kept
        exact hk
      clear_value x0
      intro x2
      clear_value x2
      intro x3
      clear_value x3
      intro x4
      have h5 : Kept a' x4 := by
        subst x4
        with_reducible apply State.wrR_kept
        exact h1
      clear_value x4
      intro x6
      have h7 : Kept a' x6 := by
        subst x6
        with_reducible apply State.wrR_kept
        exact h5
      clear_value x6
      intro x8
      have h9 : Kept a' x8 := by
        subst x8
        with_reducible apply modIsland_kept
        exact h7
      clear_value x8
      intro x10
      have h11 : Kept a' x10 := by
        subst x10
        with_reducible apply State.wrR_kept
        exact h9
      clear_value x10
      intro x12
      have h13 : Kept a' x12 := by
        subst x12
        with_reducible apply State.wrR_kept
        with_reducible apply State.wrR_kept
        exact h11
      clear_value x12
      with_reducible apply OutKept.next
      with_reducible apply settle_kept
      apply Kept.ite
      · with_reducible apply raise_kept
        exact h13
      · exact h13
    · with_reducible apply OutKept.next
      exact hk

theorem execLogWriterTakeover_kept {a' : State} {s : State} (hk : Kept a' s) :
    OutKept a' (execLogWriterTakeover s) := by
  unfold execLogWriterTakeover
  apply OutKept.ite
  · lift_lets
    intro x0
    clear_value x0
    with_reducible apply OutKept.next
    with_reducible apply State.wrR_kept
    with_reducible apply State.wrR_kept
    exact hk
  · with_reducible apply OutKept.next
    exact hk

theorem execOperatingMark_kept {a' : State} {d : RSlot} {s : State} (hk : Kept a' s) :
    OutKept a' (execOperatingMark d s) := by
  unfold execOperatingMark
  with_reducible apply OutKept.next
  with_reducible apply settle_kept
  apply Kept.ite
  · with_reducible apply raise_kept
    exact hk
  · exact hk

theorem execWriteOutTimeout_kept {a' : State} {s : State} (hk : Kept a' s) :
    OutKept a' (execWriteOutTimeout s) := by
  unfold execWriteOutTimeout
  apply OutKept.ite
  · with_reducible apply OutKept.next
    with_reducible apply settle_kept
    with_reducible apply endWriteOut_kept
    exact hk
  · with_reducible apply OutKept.next
    exact hk

theorem execCloseoutTimeout_kept {a' : State} {s : State} (hk : Kept a' s) :
    OutKept a' (execCloseoutTimeout s) := by
  unfold execCloseoutTimeout
  with_reducible apply OutKept.next
  with_reducible apply settle_kept
  with_reducible apply abandonCloseOut_kept
  exact hk

theorem execFinvikMessageReceive_kept {a' : State} {e : LinkEnd} {m : Msg} {crcOk : Bool} {codeOk : Bool} {s : State} (hk : Kept a' s) :
    OutKept a' (execFinvikMessageReceive e m crcOk codeOk s) := by
  unfold execFinvikMessageReceive
  apply OutKept.ite
  · lift_lets
    intro x0
    have h1 : Kept a' x0 := by
      subst x0
      split
      · rename_i z2 z3 z4
        with_reducible apply markLive_kept
        exact hk
      · rename_i z5 z6 z7
        exact hk
    clear_value x0
    intro x8
    clear_value x8
    intro x9
    have h10 : Kept a' x9 := by
      subst x9
      with_reducible apply linkError_kept
      exact h1
    clear_value x9
    intro x11
    have h12 : Kept a' x11 := by
      subst x11
      with_reducible apply State.modEnd_kept
      exact h10
    clear_value x11
    intro x13
    clear_value x13
    intro x14
    have h15 : Kept a' x14 := by
      subst x14
      with_reducible apply State.modEnd_kept
      with_reducible apply modLink_kept
      exact h1
    clear_value x14
    apply OutKept.ite
    · with_reducible apply OutKept.next
      with_reducible apply settle_kept
      with_reducible apply sendLcw_kept
      exact h12
    · apply OutKept.ite
      · with_reducible apply OutKept.next
        with_reducible apply settle_kept
        apply Kept.ite
        · with_reducible apply takeMsg_kept
          exact h15
        · exact h15
      · with_reducible apply OutKept.next
        exact h1
  · with_reducible apply OutKept.next
    exact hk

theorem execLcwCreditAck_kept {a' : State} {e : LinkEnd} {w0 : Word} {w1 : Word} {s : State} (hk : Kept a' s) :
    OutKept a' (execLcwCreditAck e w0 w1 s) := by
  unfold execLcwCreditAck
  with_reducible apply OutKept.next
  with_reducible apply settle_kept
  with_reducible apply onLcw_kept
  · intro y0 y1 y2 y3 t4 h5
    with_reducible apply launchClass_kept
    with_reducible apply State.modEnd_kept
    exact h5
  · exact hk

theorem execLcwReplayRequest_kept {a' : State} {e : LinkEnd} {w0 : Word} {w1 : Word} {s : State} (hk : Kept a' s) :
    OutKept a' (execLcwReplayRequest e w0 w1 s) := by
  unfold execLcwReplayRequest
  with_reducible apply OutKept.next
  with_reducible apply settle_kept
  with_reducible apply onLcw_kept
  · intro y0 y1 y2 y3 t4 h5
    lift_lets
    intro x6
    clear_value x6
    intro x7
    have h8 : Kept a' x7 := by
      subst x7
      with_reducible apply State.modEnd_kept
      exact h5
    clear_value x7
    apply Kept.ite
    · with_reducible apply linkReset_kept
      exact h8
    · with_reducible apply launchClass_kept
      with_reducible apply replayFrom_kept
      exact h8
  · exact hk

theorem execLcwResetReport_kept {a' : State} {e : LinkEnd} {w0 : Word} {w1 : Word} {s : State} (hk : Kept a' s) :
    OutKept a' (execLcwResetReport e w0 w1 s) := by
  unfold execLcwResetReport
  with_reducible apply OutKept.next
  with_reducible apply settle_kept
  with_reducible apply onLcw_kept
  · intro y0 y1 y2 y3 t4 h5
    lift_lets
    intro x6
    have h7 : Kept a' x6 := by
      subst x6
      with_reducible apply replayFrom_kept
      exact h5
    clear_value x6
    intro x8
    clear_value x8
    intro x9
    intro x10
    have h11 : Kept a' x10 := by
      subst x10
      with_reducible apply Kept.foldl
      · intro t12 y13 h14
        apply Kept.ite
        · with_reducible apply State.wrR_kept
          exact h14
        · exact h14
      · exact h7
    clear_value x10
    with_reducible apply launchClass_kept
    with_reducible apply State.modEnd_kept
    exact h11
  · exact hk

theorem execLcwPeriodic_kept {a' : State} {e : LinkEnd} {s : State} (hk : Kept a' s) :
    OutKept a' (execLcwPeriodic e s) := by
  unfold execLcwPeriodic
  with_reducible apply OutKept.next
  apply Kept.ite
  · with_reducible apply Kept.foldl
    · intro t0 y1 h2
      with_reducible apply sendLcw_kept
      exact h2
    · exact hk
  · exact hk

theorem execLinkDown_kept {a' : State} {d : RSlot} {n : Nat} {s : State} (hk : Kept a' s) :
    OutKept a' (execLinkDown d n s) := by
  unfold execLinkDown
  lift_lets
  intro x0
  clear_value x0
  apply OutKept.ite
  · with_reducible apply OutKept.next
    with_reducible apply settle_kept
    with_reducible apply downLink_kept
    exact hk
  · with_reducible apply OutKept.next
    exact hk

theorem execStallWatchFire_kept {a' : State} {st : Stage} {s : State} (hk : Kept a' s) :
    OutKept a' (execStallWatchFire st s) := by
  unfold execStallWatchFire
  lift_lets
  intro x0
  have h1 : ∀ y0 y1 y2, Kept a' y2 → Kept a' (x0 y0 y1 y2) := by
    subst x0
    intro y2 y3 t4 h5
    beta_reduce
    with_reducible apply useRung_kept
    with_reducible apply raise_kept
    with_reducible apply State.incR_kept
    exact h5
  clear_value x0
  apply OutKept.ite
  · with_reducible apply OutKept.next
    exact hk
  · with_reducible apply OutKept.next
    with_reducible apply settle_kept
    split
    · rename_i z6 z7 z8 z9
      lift_lets
      intro x10
      have h11 : Kept a' x10 := by
        subst x10
        with_reducible apply drainEngine_kept
        apply h1
        exact hk
      clear_value x10
      apply Kept.ite
      · with_reducible apply cycleDrained_kept
        exact h11
      · exact h11
    · rename_i z12 z13 z14
      lift_lets
      intro x15
      have h16 : Kept a' x15 := by
        subst x15
        with_reducible apply drainFormatter_kept
        with_reducible apply curdRaise_kept
        with_reducible apply State.incC_kept
        exact hk
      clear_value x15
      apply Kept.ite
      · with_reducible apply drainChannel_kept
        exact h16
      · exact h16
    · rename_i z17 z18 z19
      with_reducible apply drainLadle_kept
      apply h1
      exact hk
    · rename_i z20 z21 z22 z23
      with_reducible apply drainCommand_kept
      apply h1
      exact hk
    · rename_i z24 z25 z26
      with_reducible apply linkReset_kept
      apply h1
      exact hk
    · rename_i z27 z28 z29
      with_reducible apply linkReset_kept
      with_reducible apply curdRaise_kept
      with_reducible apply State.incC_kept
      exact hk

theorem execStepKeepalive_kept {a' : State} {d : RSlot} {s : State} (hk : Kept a' s) :
    OutKept a' (execStepKeepalive d s) := by
  unfold execStepKeepalive
  with_reducible apply OutKept.next
  apply Kept.ite
  · with_reducible apply sendStep_kept
    exact hk
  · exact hk

theorem execStepLinkLost_kept {a' : State} {s : State} (hk : Kept a' s) :
    OutKept a' (execStepLinkLost s) := by
  unfold execStepLinkLost
  apply OutKept.ite
  · lift_lets
    intro x0
    clear_value x0
    intro x1
    clear_value x1
    intro x2
    have h3 : Kept a' x2 := by
      subst x2
      with_reducible apply endResync_kept
      exact hk
    clear_value x2
    intro x4
    have h5 : Kept a' x4 := by
      subst x4
      with_reducible apply Kept.foldl
      · intro t6 y7 h8
        with_reducible apply raise_kept
        with_reducible apply State.incR_kept
        with_reducible apply State.wrR_kept
        exact h8
      · exact h3
    clear_value x4
    intro x9
    have h10 : Kept a' x9 := by
      subst x9
      with_reducible apply Kept.foldl
      · intro t11 y12 h13
        with_reducible apply modStep_kept
        exact h13
      · exact h5
    clear_value x9
    apply OutKept.ite
    · with_reducible apply OutKept.next
      with_reducible apply settle_kept
      with_reducible apply leaseTraffic_kept
      exact h10
    · with_reducible apply OutKept.next
      with_reducible apply settle_kept
      exact h5
  · with_reducible apply OutKept.next
    exact hk

theorem execLease_kept {a' : State} {g : Nat} {src : RSlot} {w0 : Nat} {epoch : Nat} {s : State} (hk : Kept a' s) :
    OutKept a' (execLease g src w0 epoch s) := by
  unfold execLease
  apply OutKept.ite
  · lift_lets
    intro x0
    have h1 : Kept a' x0 := by
      subst x0
      with_reducible apply leaseTaken_kept
      with_reducible apply markLive_kept
      exact hk
    clear_value x0
    intro x2
    clear_value x2
    intro x3
    clear_value x3
    intro x4
    have h5 : Kept a' x4 := by
      subst x4
      apply Kept.ite
      · with_reducible apply State.incC_kept
        exact h1
      · exact h1
    clear_value x4
    intro x6
    have h7 : Kept a' x6 := by
      subst x6
      with_reducible apply installLease_kept
      exact h5
    clear_value x6
    apply OutKept.ite
    · with_reducible apply OutKept.next
      with_reducible apply settle_kept
      apply Kept.ite
      · with_reducible apply endPairWaits_kept
        exact h7
      · exact h7
    · with_reducible apply OutKept.next
      with_reducible apply settle_kept
      exact h1
  · with_reducible apply OutKept.next
    exact hk

theorem execLeaseConfirm_kept {a' : State} {g : Nat} {sender : RSlot} {epoch : Nat} {s : State} (hk : Kept a' s) :
    OutKept a' (execLeaseConfirm g sender epoch s) := by
  unfold execLeaseConfirm
  apply OutKept.ite
  · lift_lets
    intro x0
    have h1 : Kept a' x0 := by
      subst x0
      with_reducible apply leaseTaken_kept
      with_reducible apply markLive_kept
      exact hk
    clear_value x0
    with_reducible apply OutKept.next
    with_reducible apply settle_kept
    with_reducible apply leaseAnswer_kept
    exact h1
  · with_reducible apply OutKept.next
    exact hk

theorem execLeaseClaim_kept {a' : State} {g : Nat} {sender : RSlot} {epoch : Nat} {s : State} (hk : Kept a' s) :
    OutKept a' (execLeaseClaim g sender epoch s) := by
  unfold execLeaseClaim
  apply OutKept.ite
  · lift_lets
    intro x0
    have h1 : Kept a' x0 := by
      subst x0
      with_reducible apply leaseTaken_kept
      with_reducible apply markLive_kept
      exact hk
    clear_value x0
    apply OutKept.ite
    · with_reducible apply OutKept.next
      with_reducible apply settle_kept
      with_reducible apply leaseAnswer_kept
      with_reducible apply endPairWaits_kept
      with_reducible apply installLease_kept
      exact h1
    · with_reducible apply OutKept.next
      with_reducible apply settle_kept
      with_reducible apply leaseAnswer_kept
      exact h1
  · with_reducible apply OutKept.next
    exact hk

theorem execLeaseKeepalive_kept {a' : State} {d : RSlot} {s : State} (hk : Kept a' s) :
    OutKept a' (execLeaseKeepalive d s) := by
  unfold execLeaseKeepalive
  with_reducible apply OutKept.next
  apply Kept.ite
  · with_reducible apply leaseTraffic_kept
    exact hk
  · exact hk

theorem execLeaseAnswer_kept {a' : State} {d : RSlot} {g : Nat} {w0 : Nat} {epoch : Nat} {s : State} (hk : Kept a' s) :
    OutKept a' (execLeaseAnswer d g w0 epoch s) := by
  unfold execLeaseAnswer
  apply OutKept.ite
  · lift_lets
    intro x0
    have h1 : Kept a' x0 := by
      subst x0
      with_reducible apply leaseTaken_kept
      exact hk
    clear_value x0
    intro x2
    clear_value x2
    intro x3
    clear_value x3
    intro x4
    clear_value x4
    intro x5
    clear_value x5
    intro x6
    have h7 : Kept a' x6 := by
      subst x6
      apply Kept.ite
      · exact h1
      · with_reducible apply State.wrR_kept
        exact h1
    clear_value x6
    intro x8
    have h9 : Kept a' x8 := by
      subst x8
      with_reducible apply modStep_kept
      exact h7
    clear_value x8
    intro x10
    have h11 : Kept a' x10 := by
      subst x10
      with_reducible apply modStep_kept
      exact h7
    clear_value x10
    intro x12
    clear_value x12
    apply OutKept.ite
    · with_reducible apply OutKept.next
      with_reducible apply settle_kept
      exact h7
    · apply OutKept.ite
      · with_reducible apply OutKept.next
        with_reducible apply settle_kept
        apply Kept.ite
        · with_reducible apply becomeSole_kept
          exact h9
        · exact h9
      · apply OutKept.ite
        · with_reducible apply OutKept.next
          with_reducible apply settle_kept
          with_reducible apply fenceDie_kept
          exact h7
        · with_reducible apply OutKept.next
          with_reducible apply settle_kept
          apply Kept.ite
          · with_reducible apply fenceDie_kept
            exact h11
          · exact h11
  · with_reducible apply OutKept.next
    exact hk

theorem execCurdLinkSilent_kept {a' : State} {g : Nat} {d : RSlot} {s : State} (hk : Kept a' s) :
    OutKept a' (execCurdLinkSilent g d s) := by
  unfold execCurdLinkSilent
  apply OutKept.ite
  · with_reducible apply OutKept.next
    with_reducible apply State.wrC_kept
    with_reducible apply State.modEnd_kept
    exact hk
  · with_reducible apply OutKept.next
    exact hk

theorem execClaimRetry_kept {a' : State} {d : RSlot} {s : State} (hk : Kept a' s) :
    OutKept a' (execClaimRetry d s) := by
  unfold execClaimRetry
  lift_lets
  intro x0
  clear_value x0
  intro x1
  clear_value x1
  intro x2
  clear_value x2
  intro x3
  have h4 : Kept a' x3 := by
    subst x3
    with_reducible apply modStep_kept
    exact hk
  clear_value x3
  apply OutKept.ite
  · with_reducible apply OutKept.next
    with_reducible apply leaseTraffic_kept
    exact h4
  · with_reducible apply OutKept.next
    exact hk

theorem execSplitDeadline_kept {a' : State} {d : RSlot} {s : State} (hk : Kept a' s) :
    OutKept a' (execSplitDeadline d s) := by
  unfold execSplitDeadline
  with_reducible apply OutKept.next
  with_reducible apply settle_kept
  apply Kept.ite
  · with_reducible apply fenceDie_kept
    exact hk
  · exact hk

theorem execSplitReinit_kept {a' : State} {s : State} (hk : Kept a' s) :
    OutKept a' (execSplitReinit s) := by
  unfold execSplitReinit
  apply OutKept.ite
  · lift_lets
    intro x0
    have h1 : Kept a' x0 := by
      subst x0
      with_reducible apply onGroups_kept
      · intro y2 t3 h4
        with_reducible apply emergencyRetract_kept
        exact h4
      · exact hk
    clear_value x0
    with_reducible apply OutKept.next
    with_reducible apply settle_kept
    with_reducible refine Kept.mk' rfl rfl rfl rfl rfl rfl rfl rfl rfl rfl ?_
    exact h1
  · with_reducible apply OutKept.next
    exact hk

theorem execStepMessage_kept {a' : State} {d : RSlot} {m : StepMsg} {s : State} (hk : Kept a' s) :
    OutKept a' (execStepMessage d m s) := by
  unfold execStepMessage
  apply OutKept.ite
  · lift_lets
    intro x0
    clear_value x0
    intro x1
    have h2 : Kept a' x1 := by
      subst x1
      with_reducible apply takeWhere_kept
      exact hk
    clear_value x1
    intro x3
    have h4 : Kept a' x3 := by
      subst x3
      with_reducible apply modStep_kept
      with_reducible apply State.wrR_kept
      exact h2
    clear_value x3
    intro x5
    have h6 : Kept a' x5.1 := by
      subst x5
      with_reducible apply Kept.foldl_fst
      · intro y7 y8 h9
        lift_lets
        intro x10
        clear_value x10
        apply Kept.ite_fst
        · dsimp only
          with_reducible apply State.incR_kept
          exact h9
        · apply Kept.ite_fst
          · dsimp only
            with_reducible apply modStep_kept
            exact h9
          · dsimp only
            with_reducible apply modStep_kept
            exact h9
      · dsimp only
        with_reducible apply modStep_kept
        exact h4
    clear_value x5
    intro x11
    have h12 : Kept a' x11 := by
      subst x11
      with_reducible apply State.wrR_kept
      exact h6
    clear_value x11
    intro x13
    clear_value x13
    intro x14
    clear_value x14
    apply OutKept.ite
    · with_reducible apply OutKept.next
      with_reducible apply settle_kept
      with_reducible apply diverge_kept
      exact h4
    · apply OutKept.ite
      · with_reducible apply OutKept.next
        with_reducible apply settle_kept
        with_reducible apply linkBack_kept
        apply Kept.ite
        · exact h12
        · with_reducible apply sendStep_kept
          exact h12
      · with_reducible apply OutKept.next
        with_reducible apply settle_kept
        with_reducible apply modStep_kept
        exact h4
  · with_reducible apply OutKept.next
    exact hk

theorem execFwdMessage_kept {a' : State} {d : RSlot} {lseq : Nat} {c : FwdBody} {s : State} (hk : Kept a' s) :
    OutKept a' (execFwdMessage d lseq c s) := by
  unfold execFwdMessage
  apply OutKept.ite
  · lift_lets
    intro x0
    have h1 : Kept a' x0 := by
      subst x0
      with_reducible apply takeWhere_kept
      exact hk
    clear_value x0
    with_reducible apply OutKept.next
    with_reducible apply settle_kept
    with_reducible apply modStep_kept
    exact h1
  · with_reducible apply OutKept.next
    exact hk

theorem execContentRequest_kept {a' : State} {k : Nat} {s : State} (hk : Kept a' s) :
    OutKept a' (execContentRequest k s) := by
  unfold execContentRequest
  lift_lets
  intro x0
  clear_value x0
  intro x1
  have h2 : Kept a' x1 := by
    subst x1
    with_reducible apply modStep_kept
    with_reducible apply State.incR_kept
    exact hk
  clear_value x1
  apply OutKept.ite
  · split
    · rename_i z3 z4 z5
      apply OutKept.ite
      · with_reducible apply OutKept.next
        with_reducible apply Kept.emit
        exact h2
      · with_reducible apply OutKept.next
        exact hk
    · rename_i z6 z7
      with_reducible apply OutKept.next
      exact hk
  · with_reducible apply OutKept.next
    exact hk

theorem execStepProcess_kept {a' : State} {d : RSlot} {s : State} (hk : Kept a' s) :
    OutKept a' (execStepProcess d s) := by
  unfold execStepProcess
  lift_lets
  intro x0
  clear_value x0
  split
  · rename_i z1 z2
    with_reducible apply OutKept.next
    exact hk
  · rename_i z3 z4 z5
    lift_lets
    intro x6
    clear_value x6
    intro x7
    clear_value x7
    intro x8
    clear_value x8
    intro x9
    have h10 : Kept a' x9 := by
      subst x9
      with_reducible apply modStep_kept
      with_reducible apply showStep_kept
      exact hk
    clear_value x9
    apply OutKept.ite
    · with_reducible apply OutKept.next
      exact hk
    · apply OutKept.ite
      · with_reducible apply OutKept.next
        with_reducible apply settle_kept
        with_reducible apply diverge_kept
        exact hk
      · with_reducible apply OutKept.next
        with_reducible apply settle_kept
        with_reducible apply applyEntry_kept
        exact h10

theorem execDigestBlockClose_kept {a' : State} {s : State} (hk : Kept a' s) :
    OutKept a' (execDigestBlockClose s) := by
  unfold execDigestBlockClose
  apply OutKept.ite
  · with_reducible apply OutKept.next
    with_reducible apply settle_kept
    with_reducible apply inStep_kept
    · intro y0 t1 h2
      with_reducible apply closeBlock_kept
      exact h2
    · with_reducible apply newStep_kept
      exact hk
  · with_reducible apply OutKept.next
    exact hk

theorem execDigestMessage_kept {a' : State} {d : RSlot} {block : Nat} {digest : BitVec 64} {flags : Nat} {s : State} (hk : Kept a' s) :
    OutKept a' (execDigestMessage d block digest flags s) := by
  unfold execDigestMessage
  apply OutKept.ite
  · lift_lets
    intro x0
    have h1 : Kept a' x0 := by
      subst x0
      with_reducible apply takeWhere_kept
      exact hk
    clear_value x0
    intro x2
    clear_value x2
    intro x3
    clear_value x3
    intro x4
    clear_value x4
    intro x5
    clear_value x5
    intro x6
    clear_value x6
    split
    · rename_i z7 z8
      with_reducible apply OutKept.next
      with_reducible apply settle_kept
      with_reducible apply modStep_kept
      exact h1
    · rename_i z9 z10 z11 z12
      apply OutKept.ite
      · with_reducible apply OutKept.next
        with_reducible apply settle_kept
        with_reducible apply confirmBlock_kept
        exact h1
      · with_reducible apply OutKept.next
        with_reducible apply settle_kept
        with_reducible apply diverge_kept
        exact h1
  · with_reducible apply OutKept.next
    exact hk

theorem execDigestOverdue_kept {a' : State} {d : RSlot} {block : Nat} {s : State} (hk : Kept a' s) :
    OutKept a' (execDigestOverdue d block s) := by
  unfold execDigestOverdue
  apply OutKept.ite
  · with_reducible apply OutKept.next
    with_reducible apply settle_kept
    with_reducible apply diverge_kept
    exact hk
  · with_reducible apply OutKept.next
    exact hk

theorem execTurning_kept {a' : State} {s : State} (hk : Kept a' s) :
    OutKept a' (execTurning s) := by
  unfold execTurning
  with_reducible apply OutKept.next
  with_reducible apply settle_kept
  with_reducible apply proposeTurning_kept
  exact hk

theorem execCopyMessage_kept {a' : State} {d : RSlot} {addr : Nat} {data : List Byte} {poison : Bool} {s : State} (hk : Kept a' s) :
    OutKept a' (execCopyMessage d addr data poison s) := by
  unfold execCopyMessage
  apply OutKept.ite
  · lift_lets
    intro x0
    have h1 : Kept a' x0 := by
      subst x0
      with_reducible apply bmemPlace_kept
      with_reducible apply takeWhere_kept
      exact hk
    clear_value x0
    with_reducible apply OutKept.next
    with_reducible apply settle_kept
    with_reducible apply Kept.foldl
    · intro t2 y3 h4
      with_reducible apply State.wrR_kept
      exact h4
    · exact h1
  · with_reducible apply OutKept.next
    exact hk

theorem execResyncCopyDone_kept {a' : State} {s : State} (hk : Kept a' s) :
    OutKept a' (execResyncCopyDone s) := by
  unfold execResyncCopyDone
  split
  · rename_i z0 z1 z2
    apply OutKept.ite
    · lift_lets
      intro x3
      have h4 : Kept a' x3 := by
        subst x3
        with_reducible apply copyBufferMemory_kept
        exact hk
      clear_value x3
      with_reducible apply OutKept.next
      with_reducible apply Kept.foldl
      · intro t5 y6 h7
        with_reducible apply State.wrR_kept
        with_reducible apply State.wrR_kept
        exact h7
      · exact h4
    · with_reducible apply OutKept.next
      exact hk
  · rename_i z8 z9
    with_reducible apply OutKept.next
    exact hk

theorem execResyncStateCopy_kept {a' : State} {s : State} (hk : Kept a' s) :
    OutKept a' (execResyncStateCopy s) := by
  unfold execResyncStateCopy
  split
  · rename_i z0 z1 z2
    apply OutKept.ite
    · lift_lets
      intro x3
      clear_value x3
      intro x4
      have h5 : Kept a' x4 := by
        subst x4
        with_reducible apply copyDieState_kept
        exact hk
      clear_value x4
      intro x6
      have h7 : Kept a' x6 := by
        subst x6
        with_reducible apply State.wrR_kept
        with_reducible apply State.wrR_kept
        exact h5
      clear_value x6
      intro x8
      have h9 : Kept a' x8 := by
        subst x8
        with_reducible apply State.wrR_kept
        with_reducible apply State.wrR_kept
        exact h7
      clear_value x8
      intro x10
      have h11 : Kept a' x10 := by
        subst x10
        with_reducible apply Kept.foldl
        · intro t12 y13 h14
          with_reducible apply State.incR_kept
          with_reducible apply State.wrR_kept
          with_reducible apply State.wrR_kept
          with_reducible apply State.wrR_kept
          exact h14
        · exact h9
      clear_value x10
      intro x15
      have h16 : Kept a' x15 := by
        subst x15
        with_reducible apply State.wrR_kept
        exact h11
      clear_value x15
      intro x17
      have h18 : Kept a' x17 := by
        subst x17
        with_reducible apply modStep_kept
        exact h16
      clear_value x17
      intro x19
      have h20 : Kept a' x19 := by
        subst x19
        with_reducible apply tallyCheck_kept
        with_reducible apply setPhase_kept
        with_reducible apply newStep_kept
        exact h18
      clear_value x19
      intro x21
      have h22 : Kept a' x21 := by
        subst x21
        with_reducible apply Kept.foldl
        · intro t23 y24 h25
          with_reducible apply modStep_kept
          exact h25
        · exact h20
      clear_value x21
      with_reducible apply OutKept.next
      with_reducible apply settle_kept
      with_reducible apply rereadDoorbells_kept
      with_reducible apply Kept.foldl
      · intro t26 y27 h28
        with_reducible apply dieWordDue_kept
        with_reducible apply leaseTraffic_kept
        exact h28
      · exact h22
    · with_reducible apply OutKept.next
      exact hk
  · rename_i z29 z30
    with_reducible apply OutKept.next
    exact hk

theorem execLadleShadowWrite_kept {a' : State} {d : RSlot} {eng : Nat} {ch : Nat} {pair : Nat} {v : BitVec 64} {s : State} (hk : Kept a' s) :
    OutKept a' (execLadleShadowWrite d eng ch pair v s) := by
  unfold execLadleShadowWrite
  apply OutKept.ite
  · apply OutKept.ite
    · lift_lets
      intro x0
      have h1 : Kept a' x0.2 := by
        subst x0
        with_reducible apply shadowWrite_kept
        exact hk
      clear_value x0
      with_reducible apply OutKept.next
      with_reducible apply settle_kept
      with_reducible apply reply_kept
      exact h1
    · with_reducible apply OutKept.next
      with_reducible apply settle_kept
      with_reducible apply reply_kept
      exact hk
  · with_reducible apply OutKept.next
    exact hk

theorem execLadleArm_kept {a' : State} {d : RSlot} {eng : Nat} {ch : Nat} {s : State} (hk : Kept a' s) :
    OutKept a' (execLadleArm d eng ch s) := by
  unfold execLadleArm
  apply OutKept.ite
  · apply OutKept.ite
    · lift_lets
      intro x0
      have h1 : Kept a' x0.2 := by
        subst x0
        with_reducible apply armChannel_kept
        exact hk
      clear_value x0
      with_reducible apply OutKept.next
      with_reducible apply settle_kept
      with_reducible apply reply_kept
      with_reducible apply noteError_kept
      exact h1
    · with_reducible apply OutKept.next
      with_reducible apply settle_kept
      with_reducible apply reply_kept
      exact hk
  · with_reducible apply OutKept.next
    exact hk

theorem execLadleReadState_kept {a' : State} {d : RSlot} {eng : Nat} {ch : Nat} {s : State} (hk : Kept a' s) :
    OutKept a' (execLadleReadState d eng ch s) := by
  unfold execLadleReadState
  apply OutKept.ite
  · with_reducible apply OutKept.next
    with_reducible apply settle_kept
    with_reducible apply reply_kept
    exact hk
  · with_reducible apply OutKept.next
    exact hk

theorem execSglEntryFetch_kept {a' : State} {d : RSlot} {ch : Nat} {block : List Byte} {s : State} (hk : Kept a' s) :
    OutKept a' (execSglEntryFetch d ch block s) := by
  unfold execSglEntryFetch
  apply OutKept.ite
  · with_reducible apply OutKept.next
    with_reducible apply settle_kept
    with_reducible apply noteError_kept
    with_reducible apply listBlock_kept
    exact hk
  · with_reducible apply OutKept.next
    exact hk

theorem execLadleReadData_kept {a' : State} {d : RSlot} {ch : Nat} {data : List Byte} {s : State} (hk : Kept a' s) :
    OutKept a' (execLadleReadData d ch data s) := by
  unfold execLadleReadData
  apply OutKept.ite
  · with_reducible apply OutKept.next
    with_reducible apply settle_kept
    with_reducible apply hostData_kept
    exact hk
  · with_reducible apply OutKept.next
    exact hk

theorem execLadleDescriptorEnd_kept {a' : State} {d : RSlot} {ch : Nat} {s : State} (hk : Kept a' s) :
    OutKept a' (execLadleDescriptorEnd d ch s) := by
  unfold execLadleDescriptorEnd
  apply OutKept.ite
  · lift_lets
    intro x0
    have h1 : Kept a' x0 := by
      subst x0
      apply Kept.ite
      · with_reducible apply newStep_kept
        exact hk
      · exact hk
    clear_value x0
    intro x2
    have h3 : Kept a' x2.2 := by
      subst x2
      with_reducible apply moveRest_kept
      exact h1
    clear_value x2
    intro x4
    have h5 : Kept a' x4 := by
      subst x4
      with_reducible apply endDescriptor_kept
      exact h3
    clear_value x4
    with_reducible apply OutKept.next
    with_reducible apply settle_kept
    with_reducible apply noteError_kept
    with_reducible apply noteDescriptor_kept
    exact h5
  · with_reducible apply OutKept.next
    exact hk

theorem execLadleBusError_kept {a' : State} {d : RSlot} {ch : Nat} {s : State} (hk : Kept a' s) :
    OutKept a' (execLadleBusError d ch s) := by
  unfold execLadleBusError
  apply OutKept.ite
  · with_reducible apply OutKept.next
    with_reducible apply settle_kept
    with_reducible apply inStep_kept
    · intro y0 t1 h2
      with_reducible apply noteError_kept
      with_reducible apply busError_kept
      exact h2
    · with_reducible apply newStep_kept
      exact hk
  · with_reducible apply OutKept.next
    exact hk

theorem execIsolationPass_kept {a' : State} {d : RSlot} {skip : Bool} {s : State} (hk : Kept a' s) :
    OutKept a' (execIsolationPass d skip s) := by
  unfold execIsolationPass
  apply OutKept.ite
  · with_reducible apply OutKept.next
    with_reducible apply settle_kept
    with_reducible apply inStep_kept
    · intro y0 t1 h2
      with_reducible apply noteError_kept
      with_reducible apply passStep_kept
      exact h2
    · exact hk
  · with_reducible apply OutKept.next
    exact hk

theorem execHeadTrained_kept {a' : State} {d : RSlot} {h : Nat} {p : Partner} {s : State} (hk : Kept a' s) :
    OutKept a' (execHeadTrained d h p s) := by
  unfold execHeadTrained
  lift_lets
  intro x0
  clear_value x0
  intro x1
  have h2 : Kept a' x1 := by
    subst x1
    with_reducible apply State.wrR_kept
    with_reducible apply State.wrR_kept
    exact hk
  clear_value x1
  intro x3
  have h4 : Kept a' x3 := by
    subst x3
    with_reducible apply State.wrR_kept
    exact h2
  clear_value x3
  intro x5
  have h6 : Kept a' x5 := by
    subst x5
    with_reducible apply State.wrR_kept
    exact h4
  clear_value x5
  intro x7
  have h8 : Kept a' x7 := by
    subst x7
    with_reducible apply State.wrR_kept
    exact h6
  clear_value x7
  intro x9
  have h10 : Kept a' x9 := by
    subst x9
    with_reducible apply Kept.modRind
    · intro y11 y12
      exact y12
    · exact h8
  clear_value x9
  intro x13
  have h14 : Kept a' x13 := by
    subst x13
    apply Kept.ite
    · with_reducible apply modHeadPorts_kept
      exact h10
    · exact h10
  clear_value x13
  intro x15
  have h16 : Kept a' x15 := by
    subst x15
    apply Kept.ite
    · with_reducible apply raise_kept
      exact h14
    · exact h14
  clear_value x15
  intro x17
  have h18 : Kept a' x17 := by
    subst x17
    apply Kept.ite
    · exact h16
    · with_reducible apply raise_kept
      exact h16
  clear_value x17
  apply OutKept.ite
  · with_reducible apply OutKept.next
    with_reducible apply settle_kept
    with_reducible apply hostLinkStep_kept
    with_reducible apply headUp_kept
    exact h18
  · with_reducible apply OutKept.next
    exact hk

theorem execHeadDown_kept {a' : State} {d : RSlot} {h : Nat} {s : State} (hk : Kept a' s) :
    OutKept a' (execHeadDown d h s) := by
  unfold execHeadDown
  apply OutKept.ite
  · with_reducible apply OutKept.next
    with_reducible apply settle_kept
    with_reducible apply hostLinkStep_kept
    with_reducible apply headLost_kept
    exact hk
  · with_reducible apply OutKept.next
    exact hk

theorem execCxlMemLoad_kept {a' : State} {d : RSlot} {r : Requester} {off : Nat} {len : Nat} {s : State} (hk : Kept a' s) :
    OutKept a' (execCxlMemLoad d r off len s) := by
  unfold execCxlMemLoad
  apply OutKept.ite
  · split
    · rename_i z0 z1 z2 z3
      lift_lets
      intro x4
      have h5 : Kept a' x4.2.2 := by
        subst x4
        with_reducible apply caveRead_kept
        exact hk
      clear_value x4
      with_reducible apply OutKept.next
      with_reducible apply settle_kept
      with_reducible apply Kept.emit
      exact h5
    · rename_i z6 z7
      with_reducible apply OutKept.next
      with_reducible apply settle_kept
      with_reducible apply Kept.emit
      with_reducible apply windowRefusal_kept
      exact hk
  · with_reducible apply OutKept.next
    exact hk

theorem execCxlMemStore_kept {a' : State} {d : RSlot} {r : Requester} {off : Nat} {data : List Byte} {s : State} (hk : Kept a' s) :
    OutKept a' (execCxlMemStore d r off data s) := by
  unfold execCxlMemStore
  apply OutKept.ite
  · split
    · rename_i z0 z1 z2
      lift_lets
      intro x3
      have h4 : Kept a' x3 := by
        subst x3
        with_reducible apply inStep_kept
        · intro y5 t6 h7
          with_reducible apply caveWrite_kept
          exact h7
        · with_reducible apply newStep_kept
          exact hk
      clear_value x3
      with_reducible apply OutKept.next
      with_reducible apply settle_kept
      with_reducible apply Kept.emit
      with_reducible apply noteStore_kept
      exact h4
    · rename_i z8 z9
      with_reducible apply OutKept.next
      with_reducible apply settle_kept
      with_reducible apply Kept.emit
      with_reducible apply windowRefusal_kept
      exact hk
  · with_reducible apply OutKept.next
    exact hk

theorem execGlobalPersistentFlush_kept {a' : State} {_d : RSlot} {_h : Nat} {s : State} (hk : Kept a' s) :
    OutKept a' (execGlobalPersistentFlush _d _h s) := by
  unfold execGlobalPersistentFlush
  with_reducible apply OutKept.next
  with_reducible apply Kept.emit
  exact hk

theorem execDoorbellSnoop_kept {a' : State} {d : RSlot} {port : Nat} {s : State} (hk : Kept a' s) :
    OutKept a' (execDoorbellSnoop d port s) := by
  unfold execDoorbellSnoop
  apply OutKept.ite
  · lift_lets
    intro x0
    have h1 : Kept a' x0 := by
      subst x0
      with_reducible apply modPort_kept
      exact hk
    clear_value x0
    with_reducible apply OutKept.next
    apply Kept.ite
    · exact h1
    · with_reducible apply readLineOf_kept
      exact h1
  · with_reducible apply OutKept.next
    exact hk

theorem execDoorbellReadComplete_kept {a' : State} {d : RSlot} {port : Nat} {lo hi : List Byte} {s : State} (hk : Kept a' s) :
    OutKept a' (execDoorbellReadComplete d port lo hi s) := by
  unfold execDoorbellReadComplete
  split
  · rename_i z0 z1 z2 z3
    apply OutKept.ite
    · lift_lets
      intro x4
      have h5 : Kept a' x4 := by
        subst x4
        with_reducible apply endRead_kept
        exact hk
      clear_value x4
      intro x6
      have h7 : Kept a' x6 := by
        subst x6
        apply Kept.ite
        · exact h5
        · with_reducible apply modPort_kept
          exact h5
      clear_value x6
      apply OutKept.ite
      · with_reducible apply OutKept.next
        exact h5
      · with_reducible apply OutKept.next
        with_reducible apply settle_kept
        apply Kept.ite
        · with_reducible apply applyDoorbell_kept
          with_reducible apply newStep_kept
          exact h7
        · exact h7
    · with_reducible apply OutKept.next
      exact hk

theorem execDoorbellPoll_kept {a' : State} {d : RSlot} {port : Nat} {s : State} (hk : Kept a' s) :
    OutKept a' (execDoorbellPoll d port s) := by
  unfold execDoorbellPoll
  with_reducible apply OutKept.next
  apply Kept.ite
  · with_reducible apply readLineOf_kept
    exact hk
  · exact hk

theorem execDoorbellBackstop_kept {a' : State} {d : RSlot} {s : State} (hk : Kept a' s) :
    OutKept a' (execDoorbellBackstop d s) := by
  unfold execDoorbellBackstop
  with_reducible apply OutKept.next
  apply Kept.ite
  · with_reducible apply backstopReads_kept
    exact hk
  · exact hk

theorem execDoorbellReadTimeout_kept {a' : State} {d : RSlot} {port : Nat} {s : State} (hk : Kept a' s) :
    OutKept a' (execDoorbellReadTimeout d port s) := by
  unfold execDoorbellReadTimeout
  apply OutKept.ite
  · lift_lets
    intro x0
    have h1 : Kept a' x0 := by
      subst x0
      with_reducible apply endRead_kept
      exact hk
    clear_value x0
    with_reducible apply OutKept.next
    with_reducible apply settle_kept
    apply Kept.ite
    · with_reducible apply portError_kept
      with_reducible apply newStep_kept
      exact h1
    · exact h1
  · with_reducible apply OutKept.next
    exact hk

theorem execFetchGrant_kept {a' : State} {descs : List (List Byte)} {s : State} (hk : Kept a' s) :
    OutKept a' (execFetchGrant descs s) := by
  unfold execFetchGrant
  with_reducible apply OutKept.next
  with_reducible apply settle_kept
  with_reducible apply grant_kept
  exact hk

theorem execDescriptorFetchTimeout_kept {a' : State} {d : RSlot} {port : Nat} {s : State} (hk : Kept a' s) :
    OutKept a' (execDescriptorFetchTimeout d port s) := by
  unfold execDescriptorFetchTimeout
  with_reducible apply OutKept.next
  with_reducible apply settle_kept
  apply Kept.ite
  · with_reducible apply portError_kept
    with_reducible apply newStep_kept
    exact hk
  · exact hk

theorem execStatusLineUpdate_kept {a' : State} {d : RSlot} {dom : Nat} {s : State} (hk : Kept a' s) :
    OutKept a' (execStatusLineUpdate d dom s) := by
  unfold execStatusLineUpdate
  apply OutKept.ite
  · with_reducible apply OutKept.next
    apply Kept.ite
    · with_reducible apply writeDieWord_kept
      exact hk
    · with_reducible apply statusUpdate_kept
      exact hk
  · with_reducible apply OutKept.next
    exact hk

theorem execRewritePass_kept {a' : State} {d : RSlot} {s : State} (hk : Kept a' s) :
    OutKept a' (execRewritePass d s) := by
  unfold execRewritePass
  with_reducible apply OutKept.next
  apply Kept.ite
  · lift_lets
    intro x0
    clear_value x0
    intro x1
    have h2 : Kept a' x1 := by
      subst x1
      with_reducible apply Kept.modRind
      · intro y3 y4
        exact y4
      · exact hk
    clear_value x1
    with_reducible apply Kept.foldl
    · intro t5 y6 h7
      with_reducible apply rewritePass_kept
      exact h7
    · exact h2
  · exact hk

theorem execPowerOnResetRelease_kept {a' : State} {vinMv : Nat} {strap : Bool} {s : State} (hk : Kept a' s) :
    OutKept a' (execPowerOnResetRelease vinMv strap s) := by
  unfold execPowerOnResetRelease
  apply OutKept.ite
  · with_reducible apply OutKept.next
    exact hk
  · lift_lets
    intro x0
    have h1 : Kept a' x0 := by
      subst x0
      with_reducible apply powerLoss_kept
      exact hk
    clear_value x0
    intro x2
    clear_value x2
    intro x3
    have h4 : Kept a' x3 := by
      subst x3
      with_reducible refine Kept.mk' rfl rfl rfl rfl rfl rfl rfl rfl rfl rfl ?_
      exact h1
    clear_value x3
    with_reducible apply OutKept.next
    with_reducible apply settle_kept
    apply Kept.ite
    · with_reducible apply startIslands_kept
      exact h4
    · exact h4

theorem execPowerOnResetEntry_kept {a' : State} {vinMv : Nat} {s : State} (hk : Kept a' s) :
    OutKept a' (execPowerOnResetEntry vinMv s) := by
  unfold execPowerOnResetEntry
  lift_lets
  intro x0
  have h1 : Kept a' x0 := by
    subst x0
    with_reducible apply powerLoss_kept
    with_reducible apply cutFlash_kept
    exact hk
  clear_value x0
  intro x2
  clear_value x2
  with_reducible apply OutKept.next
  with_reducible refine Kept.mk' rfl rfl rfl rfl rfl rfl rfl rfl rfl rfl ?_
  exact h1

theorem execResetNFall_kept {a' : State} {s : State} (hk : Kept a' s) :
    OutKept a' (execResetNFall s) := by
  unfold execResetNFall
  apply OutKept.ite
  · lift_lets
    intro x0
    have h1 : Kept a' x0 := by
      subst x0
      with_reducible apply showPins_kept
      with_reducible apply fullReset_kept
      with_reducible apply cutFlash_kept
      exact hk
    clear_value x0
    intro x2
    clear_value x2
    with_reducible apply OutKept.next
    with_reducible refine Kept.mk' rfl rfl rfl rfl rfl rfl rfl rfl rfl rfl ?_
    exact h1
  · with_reducible apply OutKept.next
    with_reducible refine Kept.mk' rfl rfl rfl rfl rfl rfl rfl rfl rfl rfl ?_
    exact hk

theorem execResetNRise_kept {a' : State} {lowUs : Nat} {s : State} (hk : Kept a' s) :
    OutKept a' (execResetNRise lowUs s) := by
  unfold execResetNRise
  lift_lets
  intro x0
  clear_value x0
  intro x1
  have h2 : Kept a' x1 := by
    subst x1
    with_reducible refine Kept.mk' rfl rfl rfl rfl rfl rfl rfl rfl rfl rfl ?_
    exact hk
  clear_value x1
  intro x3
  clear_value x3
  intro x4
  have h5 : Kept a' x4 := by
    subst x4
    with_reducible apply startIslands_kept
    exact h2
  clear_value x4
  intro x6
  clear_value x6
  with_reducible apply OutKept.next
  with_reducible apply settle_kept
  apply Kept.ite
  · with_reducible refine Kept.mk' rfl rfl rfl rfl rfl rfl rfl rfl rfl rfl ?_
    exact h5
  · exact h2

theorem execVinSample_kept {a' : State} {vinMv : Nat} {s : State} (hk : Kept a' s) :
    OutKept a' (execVinSample vinMv s) := by
  unfold execVinSample
  lift_lets
  intro x0
  clear_value x0
  intro x1
  have h2 : Kept a' x1 := by
    subst x1
    with_reducible apply wrBoth_kept
    with_reducible refine Kept.mk' rfl rfl rfl rfl rfl rfl rfl rfl rfl rfl ?_
    exact hk
  clear_value x1
  intro x3
  clear_value x3
  intro x4
  clear_value x4
  intro x5
  clear_value x5
  intro x6
  have h7 : Kept a' x6 := by
    subst x6
    apply Kept.ite
    · with_reducible apply pauseCooking_kept
      with_reducible refine Kept.mk' rfl rfl rfl rfl rfl rfl rfl rfl rfl rfl ?_
      exact h2
    · exact h2
  clear_value x6
  intro x8
  clear_value x8
  intro x9
  have h10 : Kept a' x9 := by
    subst x9
    with_reducible refine Kept.mk' rfl rfl rfl rfl rfl rfl rfl rfl rfl rfl ?_
    exact h7
  clear_value x9
  apply OutKept.ite
  · with_reducible apply OutKept.next
    with_reducible refine Kept.mk' rfl rfl rfl rfl rfl rfl rfl rfl rfl rfl ?_
    exact h7
  · apply OutKept.ite
    · with_reducible apply OutKept.next
      with_reducible apply settle_kept
      apply Kept.ite
      · exact h10
      · with_reducible apply inStep_kept
        · intro y11 t12 h13
          with_reducible apply raise_kept
          exact h13
        · exact h10
    · with_reducible apply OutKept.next
      exact h7

theorem execSagPauseEnd_kept {a' : State} {s : State} (hk : Kept a' s) :
    OutKept a' (execSagPauseEnd s) := by
  unfold execSagPauseEnd
  apply OutKept.ite
  · with_reducible apply OutKept.next
    with_reducible apply resumeCooking_kept
    with_reducible apply beginHeaderWrite_kept
    with_reducible apply resumeOp_kept
    with_reducible refine Kept.mk' rfl rfl rfl rfl rfl rfl rfl rfl rfl rfl ?_
    exact hk
  · with_reducible apply OutKept.next
    exact hk

theorem execSupplyHoldExpire_kept {a' : State} {s : State} (hk : Kept a' s) :
    OutKept a' (execSupplyHoldExpire s) := by
  unfold execSupplyHoldExpire
  apply OutKept.ite
  · with_reducible apply OutKept.next
    with_reducible apply settle_kept
    with_reducible apply inStep_kept
    · intro y0 t1 h2
      with_reducible apply raise_kept
      exact h2
    · exact hk
  · apply OutKept.ite
    · lift_lets
      intro x3
      have h4 : Kept a' x3 := by
        subst x3
        with_reducible apply onGroups_kept
        · intro y5 t6 h7
          with_reducible apply emergencyRetract_kept
          exact h7
        · with_reducible apply gatesOff_kept
          exact hk
      clear_value x3
      intro x8
      have h9 : Kept a' x8 := by
        subst x8
        with_reducible apply inStep_kept
        · intro y10 t11 h12
          with_reducible apply raise_kept
          exact h12
        · exact h4
      clear_value x8
      intro x13
      have h14 : Kept a' x13 := by
        subst x13
        with_reducible apply settle_kept
        exact h9
      clear_value x13
      intro x15
      have h16 : Kept a' x15 := by
        subst x15
        with_reducible apply setRegEn_kept
        with_reducible apply coreReset_kept
        with_reducible refine Kept.mk' rfl rfl rfl rfl rfl rfl rfl rfl rfl rfl ?_
        exact h14
      clear_value x15
      intro x17
      clear_value x17
      intro x18
      clear_value x18
      with_reducible apply OutKept.next
      with_reducible refine Kept.mk' rfl rfl rfl rfl rfl rfl rfl rfl rfl rfl ?_
      exact h16
    · with_reducible apply OutKept.next
      exact hk

theorem execSupplyRestart_kept {a' : State} {s : State} (hk : Kept a' s) :
    OutKept a' (execSupplyRestart s) := by
  unfold execSupplyRestart
  apply OutKept.ite
  · with_reducible apply OutKept.next
    with_reducible apply wrBoth_kept
    with_reducible refine Kept.mk' rfl rfl rfl rfl rfl rfl rfl rfl rfl rfl ?_
    exact hk
  · with_reducible apply OutKept.next
    exact hk

theorem execPerstAssert_kept {a' : State} {d : RSlot} {h : Nat} {s : State} (hk : Kept a' s) :
    OutKept a' (execPerstAssert d h s) := by
  unfold execPerstAssert
  apply OutKept.ite
  · lift_lets
    intro x0
    have h1 : Kept a' x0 := by
      subst x0
      with_reducible apply setPerst_kept
      exact hk
    clear_value x0
    apply OutKept.ite
    · with_reducible apply OutKept.next
      exact h1
    · with_reducible apply OutKept.next
      with_reducible apply settle_kept
      apply Kept.ite
      · with_reducible apply hostLinkStep_kept
        with_reducible apply headLost_kept
        exact h1
      · exact h1
  · with_reducible apply OutKept.next
    exact hk

theorem execPerstDeassert_kept {a' : State} {d : RSlot} {h : Nat} {s : State} (hk : Kept a' s) :
    OutKept a' (execPerstDeassert d h s) := by
  unfold execPerstDeassert
  apply OutKept.ite
  · lift_lets
    intro x0
    have h1 : Kept a' x0 := by
      subst x0
      with_reducible apply setPerst_kept
      exact hk
    clear_value x0
    with_reducible apply OutKept.next
    apply Kept.ite
    · with_reducible apply hostLinkStep_kept
      with_reducible apply State.wrR_kept
      exact h1
    · exact h1
  · with_reducible apply OutKept.next
    exact hk

theorem trstLevel_kept {a' : State} {high : Bool} {s : State} (hk : Kept a' s) : Kept a' (trstLevel high s) := by
  unfold trstLevel
  lift_lets
  intro x0
  clear_value x0
  intro x1
  have h2 : Kept a' x1 := by
    subst x1
    with_reducible apply wrBoth_kept
    with_reducible refine Kept.mk' rfl rfl rfl rfl rfl rfl rfl rfl rfl rfl ?_
    exact hk
  clear_value x1
  apply Kept.ite
  · with_reducible apply Kept.foldl
    · intro t3 y4 h5
      with_reducible apply raise_kept
      exact h5
    · exact h2
  · exact h2

theorem execTestPortActive_kept {a' : State} {s : State} (hk : Kept a' s) :
    OutKept a' (execTestPortActive s) := by
  unfold execTestPortActive
  with_reducible apply OutKept.next
  with_reducible apply settle_kept
  with_reducible apply trstLevel_kept
  exact hk

theorem execTimebaseLost_kept {a' : State} {d : RSlot} {s : State} (hk : Kept a' s) :
    OutKept a' (execTimebaseLost d s) := by
  unfold execTimebaseLost
  apply OutKept.ite
  · with_reducible apply OutKept.next
    with_reducible apply settle_kept
    with_reducible apply raise_kept
    with_reducible apply Kept.modRind
    · intro y0 y1
      exact y1
    · exact hk
  · with_reducible apply OutKept.next
    exact hk

theorem execAliveToggle_kept {a' : State} {s : State} (hk : Kept a' s) :
    OutKept a' (execAliveToggle s) := by
  unfold execAliveToggle
  with_reducible apply OutKept.next
  apply Kept.ite
  · with_reducible refine Kept.mk' rfl rfl rfl rfl rfl rfl rfl rfl rfl rfl ?_
    exact hk
  · with_reducible apply stopAlive_kept
    exact hk

theorem execAliveTakeover_kept {a' : State} {s : State} (hk : Kept a' s) :
    OutKept a' (execAliveTakeover s) := by
  unfold execAliveTakeover
  with_reducible apply OutKept.next
  apply Kept.ite
  · with_reducible refine Kept.mk' rfl rfl rfl rfl rfl rfl rfl rfl rfl rfl ?_
    exact hk
  · exact hk

theorem execRailMonitorLow_kept {a' : State} {g : Nat} {r : Rail} {s : State} (hk : Kept a' s) :
    OutKept a' (execRailMonitorLow g r s) := by
  unfold execRailMonitorLow
  apply OutKept.ite
  · lift_lets
    intro x0
    have h1 : Kept a' x0 := by
      subst x0
      with_reducible apply emergencyRetract_kept
      with_reducible apply Kept.modCurd
      · intro y2 y3
        exact y3
      · exact hk
    clear_value x0
    with_reducible apply OutKept.next
    with_reducible apply settle_kept
    apply Kept.ite
    · with_reducible apply gatesOff_kept
      exact h1
    · exact h1
  · with_reducible apply OutKept.next
    exact hk

theorem execRailRecovered_kept {a' : State} {g : Nat} {s : State} (hk : Kept a' s) :
    OutKept a' (execRailRecovered g s) := by
  unfold execRailRecovered
  apply OutKept.ite
  · lift_lets
    intro x0
    have h1 : Kept a' x0 := by
      subst x0
      with_reducible apply resetPress_kept
      with_reducible apply resetChannel_kept
      with_reducible apply resetFormatter_kept
      with_reducible apply Kept.modCurd
      · intro y2 y3
        exact y3
      · exact hk
    clear_value x0
    with_reducible apply OutKept.next
    with_reducible apply settle_kept
    apply Kept.ite
    · with_reducible apply modSpin_kept
      exact h1
    · exact h1
  · with_reducible apply OutKept.next
    exact hk

theorem execPmbusOperation_kept {a' : State} {r : Rail} {on : Bool} {resp : PmbResp} {s : State} (hk : Kept a' s) :
    OutKept a' (execPmbusOperation r on resp s) := by
  unfold execPmbusOperation
  with_reducible apply OutKept.next
  with_reducible apply settle_kept
  with_reducible apply pmbWrite_kept
  · intro t0 h1
    with_reducible refine Kept.mk' rfl rfl rfl rfl rfl rfl rfl rfl rfl rfl ?_
    exact h1
  · exact hk

theorem execPmbusClearFaults_kept {a' : State} {r : Rail} {resp : PmbResp} {s : State} (hk : Kept a' s) :
    OutKept a' (execPmbusClearFaults r resp s) := by
  unfold execPmbusClearFaults
  with_reducible apply OutKept.next
  with_reducible apply settle_kept
  with_reducible apply pmbWrite_kept
  · intro t0 h1
    with_reducible refine Kept.mk' rfl rfl rfl rfl rfl rfl rfl rfl rfl rfl ?_
    exact h1
  · exact hk

theorem execPmbusVoutCommand_kept {a' : State} {up : Bool} {resp : PmbResp} {s : State} (hk : Kept a' s) :
    OutKept a' (execPmbusVoutCommand up resp s) := by
  unfold execPmbusVoutCommand
  lift_lets
  intro x0
  clear_value x0
  intro x1
  clear_value x1
  intro x2
  have h3 : Kept a' x2 := by
    subst x2
    with_reducible apply modBudget_kept
    exact hk
  clear_value x2
  apply OutKept.ite
  · with_reducible apply OutKept.next
    with_reducible apply settle_kept
    with_reducible apply pmbWrite_kept
    · intro t4 h5
      lift_lets
      intro x6
      clear_value x6
      with_reducible refine Kept.mk' rfl rfl rfl rfl rfl rfl rfl rfl rfl rfl ?_
      exact h5
    · exact h3
  · with_reducible apply OutKept.next
    exact hk

theorem execPmbusStatusWord_kept {a' : State} {r : Rail} {resp : PmbResp} {fault : Bool} {s : State} (hk : Kept a' s) :
    OutKept a' (execPmbusStatusWord r resp fault s) := by
  unfold execPmbusStatusWord
  with_reducible apply OutKept.next
  with_reducible apply settle_kept
  with_reducible apply pmbRead_kept
  · intro t0 h1
    apply Kept.ite
    · with_reducible apply regulatorFault_kept
      with_reducible refine Kept.mk' rfl rfl rfl rfl rfl rfl rfl rfl rfl rfl ?_
      exact h1
    · exact h1
  · exact hk

theorem execPmbusReadVout_kept {a' : State} {r : Rail} {resp : PmbResp} {mv : Nat} {s : State} (hk : Kept a' s) :
    OutKept a' (execPmbusReadVout r resp mv s) := by
  unfold execPmbusReadVout
  with_reducible apply OutKept.next
  with_reducible apply settle_kept
  with_reducible apply pmbRead_kept
  · intro t0 h1
    lift_lets
    intro x2
    intro x3
    have h4 : Kept a' x3 := by
      subst x3
      with_reducible refine Kept.mk' rfl rfl rfl rfl rfl rfl rfl rfl rfl rfl ?_
      exact h1
    intro x5
    clear_value x5
    intro x6
    have h7 : Kept a' x6 := by
      subst x6
      apply Kept.ite
      · with_reducible refine Kept.mk' rfl rfl rfl rfl rfl rfl rfl rfl rfl rfl ?_
        exact h4
      · exact h4
    clear_value x6
    intro x8
    have h9 : Kept a' x8 := by
      subst x8
      with_reducible apply Kept.foldl
      · intro t10 y11 h12
        with_reducible apply State.wrR_kept
        exact h12
      · exact h7
    clear_value x8
    intro x13
    clear_value x13
    intro x14
    have h15 : Kept a' x14 := by
      subst x14
      apply Kept.ite
      · with_reducible refine Kept.mk' rfl rfl rfl rfl rfl rfl rfl rfl rfl rfl ?_
        exact h9
      · exact h7
    clear_value x14
    with_reducible apply railsUp_kept
    exact h15
  · exact hk

theorem execPmbusReadIout_kept {a' : State} {r : Rail} {resp : PmbResp} {tenMa : Nat} {s : State} (hk : Kept a' s) :
    OutKept a' (execPmbusReadIout r resp tenMa s) := by
  unfold execPmbusReadIout
  with_reducible apply OutKept.next
  with_reducible apply settle_kept
  with_reducible apply pmbRead_kept
  · intro t0 h1
    lift_lets
    intro x2
    clear_value x2
    intro x3
    have h4 : Kept a' x3 := by
      subst x3
      with_reducible refine Kept.mk' rfl rfl rfl rfl rfl rfl rfl rfl rfl rfl ?_
      exact h1
    clear_value x3
    apply Kept.ite
    · with_reducible apply Kept.foldl
      · intro t5 y6 h7
        with_reducible apply State.wrR_kept
        exact h7
      · exact h4
    · exact h4
  · exact hk

theorem execPmbusTakeover_kept {a' : State} {s : State} (hk : Kept a' s) :
    OutKept a' (execPmbusTakeover s) := by
  unfold execPmbusTakeover
  apply OutKept.ite
  · lift_lets
    intro x0
    clear_value x0
    intro x1
    have h2 : Kept a' x1 := by
      subst x1
      with_reducible apply wrBoth_kept
      with_reducible refine Kept.mk' rfl rfl rfl rfl rfl rfl rfl rfl rfl rfl ?_
      exact hk
    clear_value x1
    with_reducible apply OutKept.next
    with_reducible apply State.wrR_kept
    exact h2
  · with_reducible apply OutKept.next
    exact hk

theorem execSfBusRequest_kept {a' : State} {d : RSlot} {s : State} (hk : Kept a' s) :
    OutKept a' (execSfBusRequest d s) := by
  unfold execSfBusRequest
  apply OutKept.ite
  · with_reducible apply OutKept.next
    with_reducible refine Kept.mk' rfl rfl rfl rfl rfl rfl rfl rfl rfl rfl ?_
    exact hk
  · with_reducible apply OutKept.next
    exact hk

theorem execSfBusGrant_kept {a' : State} {s : State} (hk : Kept a' s) :
    OutKept a' (execSfBusGrant s) := by
  unfold execSfBusGrant
  apply OutKept.ite
  · with_reducible apply OutKept.next
    exact hk
  · apply OutKept.ite
    · with_reducible apply OutKept.next
      with_reducible apply giveBus_kept
      exact hk
    · apply OutKept.ite
      · with_reducible apply OutKept.next
        with_reducible apply giveBus_kept
        exact hk
      · with_reducible apply OutKept.next
        exact hk

theorem sectorCommand_kept {a' : State} {op : Nat} {g : Nat} {src : RSlot} {m : Msg} {s : State} (hk : Kept a' s) :
    OutKept a' (sectorCommand op g src m s) := by
  unfold sectorCommand
  lift_lets
  intro x0
  clear_value x0
  intro x1
  have h2 : Kept a' x1.2 := by
    subst x1
    with_reducible apply firstCopy_kept
    exact hk
  clear_value x1
  apply OutKept.ite
  · with_reducible apply OutKept.next
    with_reducible apply settle_kept
    apply Kept.ite
    · with_reducible apply queueRun_kept
      exact h2
    · exact h2
  · with_reducible apply OutKept.next
    exact hk

theorem execSectorRead_kept {a' : State} {g : Nat} {src : RSlot} {m : Msg} {s : State} (hk : Kept a' s) :
    OutKept a' (execSectorRead g src m s) := by
  unfold execSectorRead
  with_reducible apply sectorCommand_kept
  exact hk

theorem execSectorWrite_kept {a' : State} {g : Nat} {src : RSlot} {m : Msg} {s : State} (hk : Kept a' s) :
    OutKept a' (execSectorWrite g src m s) := by
  unfold execSectorWrite
  with_reducible apply sectorCommand_kept
  exact hk

theorem execSectorVerify_kept {a' : State} {g : Nat} {src : RSlot} {m : Msg} {s : State} (hk : Kept a' s) :
    OutKept a' (execSectorVerify g src m s) := by
  unfold execSectorVerify
  with_reducible apply sectorCommand_kept
  exact hk

theorem execSectorOldread_kept {a' : State} {g : Nat} {src : RSlot} {m : Msg} {s : State} (hk : Kept a' s) :
    OutKept a' (execSectorOldread g src m s) := by
  unfold execSectorOldread
  with_reducible apply sectorCommand_kept
  exact hk

theorem execSectorParity_kept {a' : State} {g : Nat} {src : RSlot} {m : Msg} {s : State} (hk : Kept a' s) :
    OutKept a' (execSectorParity g src m s) := by
  unfold execSectorParity
  with_reducible apply sectorCommand_kept
  exact hk

theorem execDataMessage_kept {a' : State} {e : LinkEnd} {m : Msg} {s : State} (hk : Kept a' s) :
    OutKept a' (execDataMessage e m s) := by
  unfold execDataMessage
  apply OutKept.ite
  · with_reducible apply OutKept.next
    exact hk
  · split
    · rename_i z0 z1 z2
      apply OutKept.ite
      · with_reducible apply OutKept.next
        with_reducible apply settle_kept
        with_reducible apply Kept.modRind
        · intro y3 y4
          exact y4
        · with_reducible apply takeMsg_kept
          exact hk
      · with_reducible apply OutKept.next
        exact hk
    · rename_i z5 z6 z7
      apply OutKept.ite
      · with_reducible apply OutKept.next
        exact hk
      · lift_lets
        intro x8
        have h9 : Kept a' x8 := by
          subst x8
          with_reducible apply takeMsg_kept
          with_reducible apply markLive_kept
          exact hk
        clear_value x8
        intro x10
        have h11 : Kept a' x10 := by
          subst x10
          with_reducible apply modFmt_kept
          exact h9
        clear_value x10
        intro x12
        clear_value x12
        with_reducible apply OutKept.next
        with_reducible apply settle_kept
        split
        · rename_i z13 z14 z15 z16 z17 z18
          apply Kept.ite
          · exact h11
          · with_reducible apply reportMismatch_kept
            exact h11
        · rename_i z19 z20 z21
          exact h11

theorem execRunStart_kept {a' : State} {g : Nat} {s : State} (hk : Kept a' s) :
    OutKept a' (execRunStart g s) := by
  unfold execRunStart
  split
  · rename_i z0 z1
    with_reducible apply OutKept.next
    exact hk
  · rename_i z2 z3 z4 z5
    apply OutKept.ite
    · with_reducible apply OutKept.next
      exact hk
    · lift_lets
      intro x6
      have h7 : Kept a' x6 := by
        subst x6
        with_reducible apply modFmt_kept
        exact hk
      clear_value x6
      intro x8
      have h9 : Kept a' x8 := by
        subst x8
        with_reducible apply loadZone_kept
        exact h7
      clear_value x8
      intro x10
      have h11 : Kept a' x10 := by
        subst x10
        apply Kept.ite
        · with_reducible apply heater_kept
          exact h9
        · exact h9
      clear_value x10
      intro x12
      have h13 : Kept a' x12 := by
        subst x12
        with_reducible apply requestTarget_kept
        exact h11
      clear_value x12
      with_reducible apply OutKept.next
      with_reducible apply settle_kept
      with_reducible apply showFmt_kept
      with_reducible apply refreshServo_kept
      with_reducible apply failWrites_kept
      with_reducible apply endIfDone_kept
      exact h13

theorem execGatePost_kept {a' : State} {g : Nat} {ev : GateEv} {late : Bool} {s : State} (hk : Kept a' s) :
    OutKept a' (execGatePost g ev late s) := by
  unfold execGatePost
  apply OutKept.ite
  · with_reducible apply OutKept.next
    exact hk
  · lift_lets
    intro x0
    have h1 : ∀ y0, Kept a' y0 → Kept a' (x0 y0) := by
      subst x0
      intro t2 h3
      beta_reduce
      with_reducible apply reply_kept
      exact h3
    clear_value x0
    apply OutKept.ite
    · with_reducible apply OutKept.next
      with_reducible apply settle_kept
      apply h1
      with_reducible apply State.incC_kept
      exact hk
    · apply OutKept.ite
      · with_reducible apply OutKept.next
        with_reducible apply settle_kept
        apply h1
        with_reducible apply modFmt_kept
        exact hk
      · with_reducible apply OutKept.next
        exact hk

theorem execGateEvent_kept {a' : State} {g : Nat} {cap : Capture} {s : State} (hk : Kept a' s) :
    OutKept a' (execGateEvent g cap s) := by
  unfold execGateEvent
  apply OutKept.ite
  · with_reducible apply OutKept.next
    with_reducible apply settle_kept
    with_reducible apply refreshServo_kept
    with_reducible apply gateAct_kept
    exact hk
  · with_reducible apply OutKept.next
    exact hk

theorem execSectorDecode_kept {a' : State} {g : Nat} {surf : Nat} {pos : Nat} {s : State} (hk : Kept a' s) :
    OutKept a' (execSectorDecode g surf pos s) := by
  unfold execSectorDecode
  split
  · rename_i z0 z1
    with_reducible apply OutKept.next
    exact hk
  · rename_i z2 z3 z4
    with_reducible apply OutKept.next
    with_reducible apply settle_kept
    with_reducible apply refreshServo_kept
    with_reducible apply showFmt_kept
    with_reducible apply rungOne_kept
    exact hk

theorem execVaultRung_kept {a' : State} {g : Nat} {pos : Nat} {s : State} (hk : Kept a' s) :
    OutKept a' (execVaultRung g pos s) := by
  unfold execVaultRung
  apply OutKept.ite
  · with_reducible apply OutKept.next
    with_reducible apply settle_kept
    with_reducible apply refreshServo_kept
    with_reducible apply vaultStep_kept
    with_reducible apply State.wrC_kept
    exact hk
  · with_reducible apply OutKept.next
    exact hk

theorem execVaultRungStart_kept {a' : State} {g : Nat} {idx : Nat} {rung : Nat} {s : State} (hk : Kept a' s) :
    OutKept a' (execVaultRungStart g idx rung s) := by
  unfold execVaultRungStart
  apply OutKept.ite
  · with_reducible apply OutKept.next
    exact hk
  · lift_lets
    intro x0
    clear_value x0
    with_reducible apply OutKept.next
    with_reducible apply settle_kept
    with_reducible apply reply_kept
    apply Kept.ite
    · with_reducible apply State.wrC_kept
      exact hk
    · exact hk

theorem execRebuild_kept {a' : State} {g : Nat} {pos : Nat} {s : State} (hk : Kept a' s) :
    OutKept a' (execRebuild g pos s) := by
  unfold execRebuild
  split
  · rename_i z0 z1
    with_reducible apply OutKept.next
    exact hk
  · rename_i z2 z3 z4
    with_reducible apply OutKept.next
    with_reducible apply settle_kept
    with_reducible apply refreshServo_kept
    with_reducible apply showFmt_kept
    with_reducible apply rebuildSec_kept
    exact hk

theorem execReaderSettled_kept {a' : State} {g : Nat} {s : State} (hk : Kept a' s) :
    OutKept a' (execReaderSettled g s) := by
  unfold execReaderSettled
  split
  · rename_i z0 z1
    with_reducible apply OutKept.next
    exact hk
  · rename_i z2 z3 z4
    with_reducible apply OutKept.next
    with_reducible apply settle_kept
    with_reducible apply powerReaders_kept
    with_reducible apply modFmt_kept
    exact hk

theorem execReadOutcome_kept {a' : State} {g : Nat} {pos : Nat} {s : State} (hk : Kept a' s) :
    OutKept a' (execReadOutcome g pos s) := by
  unfold execReadOutcome
  lift_lets
  intro x0
  clear_value x0
  intro x1
  clear_value x1
  with_reducible apply OutKept.next
  with_reducible apply settle_kept
  apply Kept.ite
  · with_reducible apply reply_kept
    exact hk
  · exact hk

theorem execSynthLock_kept {a' : State} {g : Nat} {s : State} (hk : Kept a' s) :
    OutKept a' (execSynthLock g s) := by
  unfold execSynthLock
  apply OutKept.ite
  · with_reducible apply OutKept.next
    with_reducible apply settle_kept
    with_reducible apply showFmt_kept
    with_reducible apply modFmt_kept
    exact hk
  · with_reducible apply OutKept.next
    exact hk

theorem execSynthLockLoss_kept {a' : State} {g : Nat} {s : State} (hk : Kept a' s) :
    OutKept a' (execSynthLockLoss g s) := by
  unfold execSynthLockLoss
  apply OutKept.ite
  · with_reducible apply OutKept.next
    with_reducible apply settle_kept
    with_reducible apply showFmt_kept
    with_reducible apply withdrawGate_kept
    with_reducible apply modFmt_kept
    exact hk
  · with_reducible apply OutKept.next
    exact hk

theorem execPaFault_kept {a' : State} {g : Nat} {paflt : Nat} {s : State} (hk : Kept a' s) :
    OutKept a' (execPaFault g paflt s) := by
  unfold execPaFault
  apply OutKept.ite
  · lift_lets
    intro x0
    have h1 : Kept a' x0 := by
      subst x0
      with_reducible apply withdrawGate_kept
      with_reducible apply modFmt_kept
      with_reducible apply State.incC_kept
      exact hk
    clear_value x0
    intro x2
    have h3 : Kept a' x2 := by
      subst x2
      with_reducible apply Kept.emit
      exact h1
    clear_value x2
    with_reducible apply OutKept.next
    with_reducible apply settle_kept
    with_reducible apply showFmt_kept
    with_reducible apply curdRaise_kept
    with_reducible apply State.wrC_kept
    exact h3
  · with_reducible apply OutKept.next
    exact hk

end Sys2Proof.Machine
end

