-- ==== Sys2Proof/Laws/KeptExec3.lean ====
section
/-! SUPPORT. What the meanings keep (the relation of Laws/Kept.lean), one lemma each: Sector, Servo, Setup, SetupRows, Spindle, Tally, Vat, Xlat. -/

set_option linter.all false

namespace Sys2Proof.Machine

theorem execPaFaultPersist_kept {a' : State} {g : Nat} {s : State} (hk : Kept a' s) :
    OutKept a' (execPaFaultPersist g s) := by
  unfold execPaFaultPersist
  apply OutKept.ite
  · with_reducible apply OutKept.next
    with_reducible apply settle_kept
    with_reducible apply showFmt_kept
    with_reducible apply failWrites_kept
    with_reducible apply State.wrC_kept
    exact hk
  · with_reducible apply OutKept.next
    exact hk

theorem execPaFltNRise_kept {a' : State} {g : Nat} {s : State} (hk : Kept a' s) :
    OutKept a' (execPaFltNRise g s) := by
  unfold execPaFltNRise
  apply OutKept.ite
  · with_reducible apply OutKept.next
    with_reducible apply modFmt_kept
    exact hk
  · with_reducible apply OutKept.next
    exact hk

theorem execPaFaultClear_kept {a' : State} {g : Nat} {s : State} (hk : Kept a' s) :
    OutKept a' (execPaFaultClear g s) := by
  unfold execPaFaultClear
  apply OutKept.ite
  · with_reducible apply OutKept.next
    with_reducible apply settle_kept
    with_reducible apply showFmt_kept
    with_reducible apply powerReaders_kept
    with_reducible apply State.wrC_kept
    with_reducible apply paInit_kept
    exact hk
  · with_reducible apply OutKept.next
    exact hk

theorem execPreampWriteFrame_kept {a' : State} {g : Nat} {addr : Nat} {val : Nat} {s : State} (hk : Kept a' s) :
    OutKept a' (execPreampWriteFrame g addr val s) := by
  unfold execPreampWriteFrame
  apply OutKept.ite
  · with_reducible apply OutKept.next
    with_reducible apply settle_kept
    with_reducible apply reply_kept
    with_reducible apply paWrite_kept
    exact hk
  · with_reducible apply OutKept.next
    exact hk

theorem execPreampReadFrame_kept {a' : State} {g : Nat} {addr : Nat} {val : Nat} {s : State} (hk : Kept a' s) :
    OutKept a' (execPreampReadFrame g addr val s) := by
  unfold execPreampReadFrame
  apply OutKept.ite
  · with_reducible apply OutKept.next
    with_reducible apply settle_kept
    with_reducible apply reply_kept
    with_reducible apply modFmt_kept
    with_reducible apply Kept.emit
    exact hk
  · with_reducible apply OutKept.next
    exact hk

theorem execShockAssert_kept {a' : State} {s : State} (hk : Kept a' s) :
    OutKept a' (execShockAssert s) := by
  unfold execShockAssert
  lift_lets
  intro x0
  clear_value x0
  intro x1
  have h2 : Kept a' x1 := by
    subst x1
    with_reducible refine Kept.mk' rfl rfl rfl rfl rfl rfl rfl rfl rfl rfl ?_
    exact hk
  clear_value x1
  apply OutKept.ite
  · with_reducible apply OutKept.next
    exact hk
  · apply OutKept.ite
    · with_reducible apply OutKept.next
      exact h2
    · with_reducible apply OutKept.next
      with_reducible apply settle_kept
      with_reducible apply onGroups_kept
      · intro y3 t4 h5
        with_reducible apply refreshServo_kept
        with_reducible apply shockSeen_kept
        exact h5
      · with_reducible apply wrBoth_kept
        exact h2

theorem execShockRelease_kept {a' : State} {s : State} (hk : Kept a' s) :
    OutKept a' (execShockRelease s) := by
  unfold execShockRelease
  with_reducible apply OutKept.next
  with_reducible apply onGroups_kept
  · intro y0 t1 h2
    with_reducible apply modFmt_kept
    exact h2
  · with_reducible apply wrBoth_kept
    with_reducible refine Kept.mk' rfl rfl rfl rfl rfl rfl rfl rfl rfl rfl ?_
    exact hk

theorem execShockHoldExpire_kept {a' : State} {g : Nat} {s : State} (hk : Kept a' s) :
    OutKept a' (execShockHoldExpire g s) := by
  unfold execShockHoldExpire
  apply OutKept.ite
  · with_reducible apply OutKept.next
    with_reducible apply settle_kept
    with_reducible apply showFmt_kept
    with_reducible apply State.wrC_kept
    exact hk
  · with_reducible apply OutKept.next
    exact hk

theorem execShockStuck_kept {a' : State} {g : Nat} {s : State} (hk : Kept a' s) :
    OutKept a' (execShockStuck g s) := by
  unfold execShockStuck
  apply OutKept.ite
  · with_reducible apply OutKept.next
    with_reducible apply settle_kept
    with_reducible apply curdRaise_kept
    exact hk
  · with_reducible apply OutKept.next
    exact hk

theorem execEndRuns_kept {a' : State} {g : Nat} {src : RSlot} {m : Msg} {s : State} (hk : Kept a' s) :
    OutKept a' (execEndRuns g src m s) := by
  unfold execEndRuns
  apply OutKept.ite
  · lift_lets
    intro x0
    have h1 : Kept a' x0.2 := by
      subst x0
      with_reducible apply firstCopy_kept
      exact hk
    clear_value x0
    intro x2
    have h3 : Kept a' x2 := by
      subst x2
      with_reducible apply takeMsg_kept
      exact h1
    clear_value x2
    intro x4
    clear_value x4
    intro x5
    clear_value x5
    intro x6
    have h7 : Kept a' x6 := by
      subst x6
      with_reducible apply modFmt_kept
      exact h3
    clear_value x6
    apply OutKept.ite
    · with_reducible apply OutKept.next
      with_reducible apply settle_kept
      exact h1
    · with_reducible apply OutKept.next
      with_reducible apply settle_kept
      with_reducible apply refreshServo_kept
      with_reducible apply showFmt_kept
      with_reducible apply refuseRun_kept
      exact h7
  · with_reducible apply OutKept.next
    exact hk

theorem execGroupOrder_kept {a' : State} {g : Nat} {src : RSlot} {m : Msg} {s : State} (hk : Kept a' s) :
    OutKept a' (execGroupOrder g src m s) := by
  unfold execGroupOrder
  apply OutKept.ite
  · lift_lets
    intro x0
    have h1 : Kept a' x0.2 := by
      subst x0
      with_reducible apply firstCopy_kept
      exact hk
    clear_value x0
    with_reducible apply OutKept.next
    with_reducible apply settle_kept
    apply Kept.ite
    · with_reducible apply applyOrder_kept
      with_reducible apply takeMsg_kept
      exact h1
    · exact h1
  · with_reducible apply OutKept.next
    exact hk

theorem execRetractOrder_kept {a' : State} {g : Nat} {s : State} (hk : Kept a' s) :
    OutKept a' (execRetractOrder g s) := by
  unfold execRetractOrder
  apply OutKept.ite
  · with_reducible apply OutKept.next
    with_reducible apply settle_kept
    with_reducible apply emergencyRetract_kept
    exact hk
  · with_reducible apply OutKept.next
    exact hk

theorem execCurdDieReportTimer_kept {a' : State} {g : Nat} {s : State} (hk : Kept a' s) :
    OutKept a' (execCurdDieReportTimer g s) := by
  unfold execCurdDieReportTimer
  apply OutKept.ite
  · with_reducible apply OutKept.next
    exact hk
  · lift_lets
    intro x0
    clear_value x0
    intro x1
    have h2 : Kept a' x1.2 := by
      subst x1
      split
      · rename_i z3 z4 z5
        dsimp only
        exact hk
      · rename_i z6 z7
        dsimp only
        with_reducible apply Kept.fresh
        exact hk
    clear_value x1
    intro x8
    clear_value x8
    with_reducible apply OutKept.next
    with_reducible apply settle_kept
    with_reducible apply fromCurd_kept
    exact h2

theorem execRptSectorOutcome_kept {a' : State} {g : Nat} {eseq : Nat} {w0 : Nat} {w1 : Nat} {s : State} (hk : Kept a' s) :
    OutKept a' (execRptSectorOutcome g eseq w0 w1 s) := by
  unfold execRptSectorOutcome
  apply OutKept.ite
  · lift_lets
    intro x0
    have h1 : Kept a' x0 := by
      subst x0
      with_reducible apply takeRpt_kept
      exact hk
    clear_value x0
    intro x2
    clear_value x2
    intro x3
    clear_value x3
    intro x4
    have h5 : Kept a' x4 := by
      subst x4
      with_reducible apply sectorOutcome_kept
      exact h1
    clear_value x4
    with_reducible apply OutKept.next
    with_reducible apply settle_kept
    with_reducible apply showSched_kept
    with_reducible apply Kept.foldl
    · intro t6 y7 h8
      with_reducible apply Kept.modRind
      · intro y9 y10
        exact y10
      · exact h8
    · exact h5
  · with_reducible apply OutKept.next
    exact hk

theorem execRptRunEnd_kept {a' : State} {g : Nat} {eseq : Nat} {s : State} (hk : Kept a' s) :
    OutKept a' (execRptRunEnd g eseq s) := by
  unfold execRptRunEnd
  apply OutKept.ite
  · lift_lets
    intro x0
    have h1 : Kept a' x0 := by
      subst x0
      with_reducible apply takeRpt_kept
      exact hk
    clear_value x0
    intro x2
    clear_value x2
    intro x3
    have h4 : Kept a' x3 := by
      subst x3
      with_reducible apply fillAfter_kept
      with_reducible refine Kept.mk' rfl rfl rfl rfl rfl rfl rfl rfl rfl rfl ?_
      exact h1
    clear_value x3
    intro x5
    have h6 : Kept a' x5 := by
      subst x5
      split
      · rename_i z7 z8 z9
        with_reducible apply endReloc_kept
        exact h4
      · rename_i z10 z11
        exact h4
    clear_value x5
    with_reducible apply OutKept.next
    with_reducible apply settle_kept
    with_reducible apply sendOrders_kept
    exact h6
  · with_reducible apply OutKept.next
    exact hk

theorem execRptShockEvent_kept {a' : State} {g : Nat} {ms : Nat} {s : State} (hk : Kept a' s) :
    OutKept a' (execRptShockEvent g ms s) := by
  unfold execRptShockEvent
  apply OutKept.ite
  · with_reducible apply OutKept.next
    with_reducible apply settle_kept
    with_reducible apply takeRpt_kept
    exact hk
  · with_reducible apply OutKept.next
    exact hk

theorem execRptCurdMismatch_kept {a' : State} {g : Nat} {cls : Nat} {slot : RSlot} {eseq : Nat} {s : State} (hk : Kept a' s) :
    OutKept a' (execRptCurdMismatch g cls slot eseq s) := by
  unfold execRptCurdMismatch
  apply OutKept.ite
  · lift_lets
    intro x0
    have h1 : Kept a' x0 := by
      subst x0
      with_reducible apply takeRpt_kept
      exact hk
    clear_value x0
    apply OutKept.ite
    · with_reducible apply OutKept.next
      with_reducible apply settle_kept
      exact h1
    · with_reducible apply OutKept.next
      with_reducible apply settle_kept
      with_reducible apply diverge_kept
      exact h1
  · with_reducible apply OutKept.next
    exact hk

theorem execRptFault_kept {a' : State} {g : Nat} {w0 : Word} {w1 : Word} {s : State} (hk : Kept a' s) :
    OutKept a' (execRptFault g w0 w1 s) := by
  unfold execRptFault
  apply OutKept.ite
  · lift_lets
    intro x0
    have h1 : Kept a' x0 := by
      subst x0
      with_reducible apply takeRpt_kept
      exact hk
    clear_value x0
    with_reducible apply OutKept.next
    with_reducible apply settle_kept
    with_reducible apply inStep_kept
    · intro y2 t3 h4
      with_reducible apply raiseFull_kept
      exact h4
    · exact h1
  · with_reducible apply OutKept.next
    exact hk

theorem execWedgeSample_kept {a' : State} {g : Nat} {w : Wedge} {s : State} (hk : Kept a' s) :
    OutKept a' (execWedgeSample g w s) := by
  unfold execWedgeSample
  with_reducible apply OutKept.next
  with_reducible apply settle_kept
  apply Kept.ite
  · with_reducible apply wedge_kept
    exact hk
  · exact hk

theorem execInnerLoopInstant_kept {a' : State} {g : Nat} {j : Nat} {isns : Int} {lat40ns : Nat} {s : State} (hk : Kept a' s) :
    OutKept a' (execInnerLoopInstant g j isns lat40ns s) := by
  unfold execInnerLoopInstant
  with_reducible apply OutKept.next
  apply Kept.ite
  · with_reducible apply innerLoop_kept
    exact hk
  · exact hk

theorem execServoTargetRequest_kept {a' : State} {g : Nat} {surf : Nat} {track : Nat} {s : State} (hk : Kept a' s) :
    OutKept a' (execServoTargetRequest g surf track s) := by
  unfold execServoTargetRequest
  apply OutKept.ite
  · with_reducible apply OutKept.next
    with_reducible apply settle_kept
    with_reducible apply reply_kept
    with_reducible apply showFmt_kept
    with_reducible apply requestTarget_kept
    exact hk
  · with_reducible apply OutKept.next
    exact hk

theorem execServoStatusRead_kept {a' : State} {g : Nat} {s : State} (hk : Kept a' s) :
    OutKept a' (execServoStatusRead g s) := by
  unfold execServoStatusRead
  apply OutKept.ite
  · lift_lets
    intro x0
    clear_value x0
    with_reducible apply OutKept.next
    with_reducible apply settle_kept
    with_reducible apply reply_kept
    exact hk
  · with_reducible apply OutKept.next
    exact hk

theorem execLoadStart_kept {a' : State} {g : Nat} {s : State} (hk : Kept a' s) :
    OutKept a' (execLoadStart g s) := by
  unfold execLoadStart
  apply OutKept.ite
  · with_reducible apply OutKept.next
    with_reducible apply settle_kept
    with_reducible apply startLoad_kept
    exact hk
  · with_reducible apply OutKept.next
    exact hk

theorem execLoadTimeout_kept {a' : State} {g : Nat} {s : State} (hk : Kept a' s) :
    OutKept a' (execLoadTimeout g s) := by
  unfold execLoadTimeout
  apply OutKept.ite
  · with_reducible apply OutKept.next
    with_reducible apply settle_kept
    with_reducible apply failLoad_kept
    exact hk
  · with_reducible apply OutKept.next
    exact hk

theorem execLoadStable_kept {a' : State} {g : Nat} {s : State} (hk : Kept a' s) :
    OutKept a' (execLoadStable g s) := by
  unfold execLoadStable
  apply OutKept.ite
  · with_reducible apply OutKept.next
    with_reducible apply modServo_kept
    exact hk
  · with_reducible apply OutKept.next
    exact hk

theorem execRetractHoldExpire_kept {a' : State} {g : Nat} {s : State} (hk : Kept a' s) :
    OutKept a' (execRetractHoldExpire g s) := by
  unfold execRetractHoldExpire
  apply OutKept.ite
  · lift_lets
    intro x0
    have h1 : Kept a' x0 := by
      subst x0
      with_reducible apply modServo_kept
      exact hk
    clear_value x0
    with_reducible apply OutKept.next
    with_reducible apply settle_kept
    apply Kept.ite
    · with_reducible apply showFmt_kept
      with_reducible apply setSv_kept
      exact h1
    · exact h1
  · with_reducible apply OutKept.next
    exact hk

theorem execUnload_kept {a' : State} {g : Nat} {s : State} (hk : Kept a' s) :
    OutKept a' (execUnload g s) := by
  unfold execUnload
  with_reducible apply OutKept.next
  with_reducible apply settle_kept
  apply Kept.ite
  · with_reducible apply startUnload_kept
    exact hk
  · exact hk

theorem execUnloadComplete_kept {a' : State} {g : Nat} {s : State} (hk : Kept a' s) :
    OutKept a' (execUnloadComplete g s) := by
  unfold execUnloadComplete
  apply OutKept.ite
  · with_reducible apply OutKept.next
    with_reducible apply settle_kept
    with_reducible apply showFmt_kept
    with_reducible apply endUnload_kept
    exact hk
  · with_reducible apply OutKept.next
    exact hk

theorem execLinkAbsentUnload_kept {a' : State} {g : Nat} {s : State} (hk : Kept a' s) :
    OutKept a' (execLinkAbsentUnload g s) := by
  unfold execLinkAbsentUnload
  apply OutKept.ite
  · with_reducible apply OutKept.next
    with_reducible apply settle_kept
    with_reducible apply startUnload_kept
    exact hk
  · with_reducible apply OutKept.next
    exact hk

theorem execPressHeartbeatLoss_kept {a' : State} {g : Nat} {s : State} (hk : Kept a' s) :
    OutKept a' (execPressHeartbeatLoss g s) := by
  unfold execPressHeartbeatLoss
  apply OutKept.ite
  · with_reducible apply OutKept.next
    with_reducible apply settle_kept
    with_reducible apply emergencyRetract_kept
    exact hk
  · with_reducible apply OutKept.next
    exact hk

theorem execSetupWrite_kept {a' : State} {d : RSlot} {r : Requester} {addr : Nat} {width : Nat} {v : Word} {s : State} (hk : Kept a' s) :
    OutKept a' (execSetupWrite d r addr width v s) := by
  unfold execSetupWrite
  apply OutKept.ite
  · with_reducible apply OutKept.next
    with_reducible apply settle_kept
    with_reducible apply setupWrite_kept
    exact hk
  · with_reducible apply OutKept.next
    exact hk

theorem execUnlockWrite_kept {a' : State} {d : RSlot} {r : Requester} {addr : Nat} {key : Word} {s : State} (hk : Kept a' s) :
    OutKept a' (execUnlockWrite d r addr key s) := by
  unfold execUnlockWrite
  apply OutKept.ite
  · with_reducible apply OutKept.next
    with_reducible apply settle_kept
    with_reducible apply setupWrite_kept
    exact hk
  · with_reducible apply OutKept.next
    exact hk

theorem execUnlockArmLapse_kept {a' : State} {d : RSlot} {r : Requester} {addr : Nat} {s : State} (hk : Kept a' s) :
    OutKept a' (execUnlockArmLapse d r addr s) := by
  unfold execUnlockArmLapse
  split
  · rename_i z0 z1 z2 z3
    with_reducible apply OutKept.next
    with_reducible apply Kept.modCurd
    · intro y4 y5
      exact y5
    · exact hk
  · rename_i z6 z7
    with_reducible apply OutKept.next
    with_reducible apply Kept.foldl
    · intro t8 y9 h10
      with_reducible apply disarm_kept
      exact h10
    · exact hk

theorem execDomcfgWrite_kept {a' : State} {d : RSlot} {r : Requester} {dom : Nat} {v : Word} {s : State} (hk : Kept a' s) :
    OutKept a' (execDomcfgWrite d r dom v s) := by
  unfold execDomcfgWrite
  apply OutKept.ite
  · with_reducible apply OutKept.next
    with_reducible apply settle_kept
    with_reducible apply setupWrite_kept
    exact hk
  · with_reducible apply OutKept.next
    exact hk

theorem execRcRead_kept {a' : State} {d : RSlot} {r : Requester} {addr : Nat} {width : Nat} {s : State} (hk : Kept a' s) :
    OutKept a' (execRcRead d r addr width s) := by
  unfold execRcRead
  apply OutKept.ite
  · with_reducible apply OutKept.next
    exact hk
  · apply OutKept.ite
    · with_reducible apply OutKept.next
      with_reducible apply settle_kept
      with_reducible apply Kept.emit
      with_reducible apply raise_kept
      exact hk
    · lift_lets
      intro x0
      have h1 : Kept a' x0.2.1 := by
        subst x0
        with_reducible apply readReg_kept
        exact hk
      clear_value x0
      with_reducible apply OutKept.next
      with_reducible apply settle_kept
      split
      · rename_i z2 z3 z4
        with_reducible apply Kept.emit
        exact h1
      · rename_i z5 z6
        exact h1

theorem execSbSetAddress_kept {a' : State} {a : Nat} {pec : Bool} {addr : Word} {s : State} (hk : Kept a' s) :
    OutKept a' (execSbSetAddress a pec addr s) := by
  unfold execSbSetAddress
  split
  · rename_i z0 z1 z2
    with_reducible apply OutKept.next
    apply Kept.ite
    · with_reducible apply modSb_kept
      exact hk
    · exact hk
  · rename_i z3 z4
    with_reducible apply OutKept.next
    exact hk

theorem execSbReadWord_kept {a' : State} {at_ : Nat} {pec : Bool} {s : State} (hk : Kept a' s) :
    OutKept a' (execSbReadWord at_ pec s) := by
  unfold execSbReadWord
  split
  · rename_i z0 z1
    with_reducible apply OutKept.next
    exact hk
  · rename_i z2 z3 z4
    apply OutKept.ite
    · lift_lets
      intro x5
      clear_value x5
      intro x6
      have h7 : Kept a' x6.2.1 := by
        subst x6
        with_reducible apply readReg_kept
        exact hk
      clear_value x6
      apply OutKept.ite
      · split
        · rename_i z8 z9 z10
          with_reducible apply OutKept.next
          with_reducible apply settle_kept
          with_reducible apply Kept.emit
          with_reducible apply modSb_kept
          exact h7
        · rename_i z11 z12
          with_reducible apply OutKept.next
          with_reducible apply settle_kept
          with_reducible apply modSb_kept
          exact h7
      · with_reducible apply OutKept.next
        with_reducible apply modSb_kept
        exact hk
    · with_reducible apply OutKept.next
      exact hk

theorem execSbWriteWord_kept {a' : State} {at_ : Nat} {pec : Bool} {v : Word} {s : State} (hk : Kept a' s) :
    OutKept a' (execSbWriteWord at_ pec v s) := by
  unfold execSbWriteWord
  split
  · rename_i z0 z1
    with_reducible apply OutKept.next
    exact hk
  · rename_i z2 z3 z4
    apply OutKept.ite
    · lift_lets
      intro x5
      clear_value x5
      intro x6
      have h7 : Kept a' x6.1 := by
        subst x6
        with_reducible apply setupWrite_kept
        exact hk
      clear_value x6
      apply OutKept.ite
      · with_reducible apply OutKept.next
        with_reducible apply settle_kept
        with_reducible apply modSb_kept
        exact h7
      · with_reducible apply OutKept.next
        with_reducible apply modSb_kept
        exact hk
    · with_reducible apply OutKept.next
      exact hk

theorem execSbReadResult_kept {a' : State} {at_ : Nat} {pec : Bool} {s : State} (hk : Kept a' s) :
    OutKept a' (execSbReadResult at_ pec s) := by
  unfold execSbReadResult
  split
  · rename_i z0 z1 z2
    with_reducible apply OutKept.next
    apply Kept.ite
    · with_reducible apply Kept.emit
      exact hk
    · exact hk
  · rename_i z3 z4
    with_reducible apply OutKept.next
    exact hk

theorem execSbCoreTimeout_kept {a' : State} {d : RSlot} {s : State} (hk : Kept a' s) :
    OutKept a' (execSbCoreTimeout d s) := by
  unfold execSbCoreTimeout
  split
  · rename_i z0 z1
    with_reducible apply OutKept.next
    exact hk
  · rename_i z2 z3 z4 z5
    lift_lets
    intro x6
    have h7 : Kept a' x6 := by
      subst x6
      with_reducible apply modSb_kept
      exact hk
    clear_value x6
    with_reducible apply OutKept.next
    apply Kept.ite
    · exact h7
    · with_reducible apply Kept.emit
      exact h7

theorem rowWrite_kept {a' : State} {d : RSlot} {r : Requester} {addr : Nat} {v : Word} {s : State} (hk : Kept a' s) :
    OutKept a' (rowWrite d r addr v s) := by
  unfold rowWrite
  apply OutKept.ite
  · with_reducible apply OutKept.next
    with_reducible apply settle_kept
    with_reducible apply setupWrite_kept
    exact hk
  · with_reducible apply OutKept.next
    exact hk

theorem execPortEnable_kept {a' : State} {d : RSlot} {r : Requester} {port : Nat} {v : Word} {s : State} (hk : Kept a' s) :
    OutKept a' (execPortEnable d r port v s) := by
  unfold execPortEnable
  apply OutKept.ite
  · with_reducible apply rowWrite_kept
    exact hk
  · with_reducible apply OutKept.next
    exact hk

theorem execPortDisable_kept {a' : State} {d : RSlot} {r : Requester} {port : Nat} {v : Word} {s : State} (hk : Kept a' s) :
    OutKept a' (execPortDisable d r port v s) := by
  unfold execPortDisable
  apply OutKept.ite
  · with_reducible apply rowWrite_kept
    exact hk
  · with_reducible apply OutKept.next
    exact hk

theorem execStatusLineAddressWrite_kept {a' : State} {d : RSlot} {r : Requester} {dom : Nat} {hi : Bool} {v : Word} {s : State} (hk : Kept a' s) :
    OutKept a' (execStatusLineAddressWrite d r dom hi v s) := by
  unfold execStatusLineAddressWrite
  apply OutKept.ite
  · with_reducible apply rowWrite_kept
    exact hk
  · with_reducible apply OutKept.next
    exact hk

theorem execCaveEnable_kept {a' : State} {d : RSlot} {r : Requester} {v : Word} {s : State} (hk : Kept a' s) :
    OutKept a' (execCaveEnable d r v s) := by
  unfold execCaveEnable
  with_reducible apply rowWrite_kept
  exact hk

theorem execCaveInv_kept {a' : State} {d : RSlot} {r : Requester} {spareLocked : Bool} {s : State} (hk : Kept a' s) :
    OutKept a' (execCaveInv d r spareLocked s) := by
  unfold execCaveInv
  with_reducible apply rowWrite_kept
  exact hk

theorem execCaveClean_kept {a' : State} {d : RSlot} {r : Requester} {spareLocked : Bool} {s : State} (hk : Kept a' s) :
    OutKept a' (execCaveClean d r spareLocked s) := by
  unfold execCaveClean
  with_reducible apply rowWrite_kept
  exact hk

theorem execCaveCleaninv_kept {a' : State} {d : RSlot} {r : Requester} {spareLocked : Bool} {s : State} (hk : Kept a' s) :
    OutKept a' (execCaveCleaninv d r spareLocked s) := by
  unfold execCaveCleaninv
  with_reducible apply rowWrite_kept
  exact hk

theorem execStepTurnnow_kept {a' : State} {d : RSlot} {r : Requester} {s : State} (hk : Kept a' s) :
    OutKept a' (execStepTurnnow d r s) := by
  unfold execStepTurnnow
  with_reducible apply rowWrite_kept
  exact hk

theorem execStepResync_kept {a' : State} {d : RSlot} {r : Requester} {s : State} (hk : Kept a' s) :
    OutKept a' (execStepResync d r s) := by
  unfold execStepResync
  with_reducible apply rowWrite_kept
  exact hk

theorem execFaultUnlatch_kept {a' : State} {d : RSlot} {r : Requester} {s : State} (hk : Kept a' s) :
    OutKept a' (execFaultUnlatch d r s) := by
  unfold execFaultUnlatch
  with_reducible apply rowWrite_kept
  exact hk

theorem execFaultAbandon_kept {a' : State} {d : RSlot} {r : Requester} {s : State} (hk : Kept a' s) :
    OutKept a' (execFaultAbandon d r s) := by
  unfold execFaultAbandon
  with_reducible apply rowWrite_kept
  exact hk

theorem execLogFreeze_kept {a' : State} {d : RSlot} {r : Requester} {s : State} (hk : Kept a' s) :
    OutKept a' (execLogFreeze d r s) := by
  unfold execLogFreeze
  with_reducible apply rowWrite_kept
  exact hk

theorem execLogUnfreeze_kept {a' : State} {d : RSlot} {r : Requester} {s : State} (hk : Kept a' s) :
    OutKept a' (execLogUnfreeze d r s) := by
  unfold execLogUnfreeze
  with_reducible apply rowWrite_kept
  exact hk

theorem execFaultInjArm_kept {a' : State} {d : RSlot} {r : Requester} {v : Word} {s : State} (hk : Kept a' s) :
    OutKept a' (execFaultInjArm d r v s) := by
  unfold execFaultInjArm
  with_reducible apply rowWrite_kept
  exact hk

theorem execFaultInjRaise_kept {a' : State} {d : RSlot} {r : Requester} {v : Word} {s : State} (hk : Kept a' s) :
    OutKept a' (execFaultInjRaise d r v s) := by
  unfold execFaultInjRaise
  with_reducible apply rowWrite_kept
  exact hk

theorem execFaultInjCaveParity_kept {a' : State} {d : RSlot} {r : Requester} {v : Word} {s : State} (hk : Kept a' s) :
    OutKept a' (execFaultInjCaveParity d r v s) := by
  unfold execFaultInjCaveParity
  with_reducible apply rowWrite_kept
  exact hk

theorem execFaultInjWithholdAck_kept {a' : State} {d : RSlot} {r : Requester} {v : Word} {s : State} (hk : Kept a' s) :
    OutKept a' (execFaultInjWithholdAck d r v s) := by
  unfold execFaultInjWithholdAck
  with_reducible apply rowWrite_kept
  exact hk

theorem execFaultInjFinvikCrc_kept {a' : State} {d : RSlot} {r : Requester} {v : Word} {s : State} (hk : Kept a' s) :
    OutKept a' (execFaultInjFinvikCrc d r v s) := by
  unfold execFaultInjFinvikCrc
  with_reducible apply rowWrite_kept
  exact hk

theorem execFaultInjDramSymbol_kept {a' : State} {d : RSlot} {r : Requester} {v : Word} {s : State} (hk : Kept a' s) :
    OutKept a' (execFaultInjDramSymbol d r v s) := by
  unfold execFaultInjDramSymbol
  with_reducible apply rowWrite_kept
  exact hk

theorem execCurdSetupAccess_kept {a' : State} {d : RSlot} {g : Nat} {isWrite : Bool} {off : Nat} {v : Word} {s : State} (hk : Kept a' s) :
    OutKept a' (execCurdSetupAccess d g isWrite off v s) := by
  unfold execCurdSetupAccess
  apply OutKept.ite
  · with_reducible apply OutKept.next
    exact hk
  · apply OutKept.ite
    · lift_lets
      intro x0
      have h1 : Kept a' x0.2 := by
        subst x0
        with_reducible apply takeAccess_kept
        exact hk
      clear_value x0
      with_reducible apply OutKept.next
      with_reducible apply settle_kept
      apply Kept.ite
      · with_reducible apply curdWrite_kept
        exact h1
      · exact h1
    · lift_lets
      intro x2
      have h3 : Kept a' x2.2 := by
        subst x2
        with_reducible apply takeAccess_kept
        exact hk
      clear_value x2
      intro x4
      have h5 : Kept a' x4.2 := by
        subst x4
        with_reducible apply curdRead_kept
        exact h3
      clear_value x4
      with_reducible apply OutKept.next
      with_reducible apply settle_kept
      with_reducible apply returnWord_kept
      with_reducible apply sendMsg_kept
      exact h5

theorem execPwmValley_kept {a' : State} {v : Valley} {s : State} (hk : Kept a' s) :
    OutKept a' (execPwmValley v s) := by
  unfold execPwmValley
  with_reducible apply OutKept.next
  apply Kept.ite
  · exact hk
  · with_reducible apply settle_kept
    with_reducible apply valley_kept
    exact hk

theorem execSpeedLoopTick_kept {a' : State} {s : State} (hk : Kept a' s) :
    OutKept a' (execSpeedLoopTick s) := by
  unfold execSpeedLoopTick
  with_reducible apply OutKept.next
  with_reducible apply settle_kept
  apply Kept.ite
  · with_reducible apply speedTick_kept
    exact hk
  · exact hk

theorem execSpindleReportTimer_kept {a' : State} {s : State} (hk : Kept a' s) :
    OutKept a' (execSpindleReportTimer s) := by
  unfold execSpindleReportTimer
  lift_lets
  intro x0
  clear_value x0
  with_reducible apply OutKept.next
  with_reducible apply settle_kept
  with_reducible apply spinReport_kept
  with_reducible apply modSpin_kept
  with_reducible apply State.wrC_kept
  exact hk

theorem execSpindleSetpoint_kept {a' : State} {src : RSlot} {m : Msg} {s : State} (hk : Kept a' s) :
    OutKept a' (execSpindleSetpoint src m s) := by
  unfold execSpindleSetpoint
  apply OutKept.ite
  · lift_lets
    intro x0
    have h1 : Kept a' x0.2 := by
      subst x0
      with_reducible apply firstCopy_kept
      exact hk
    clear_value x0
    with_reducible apply OutKept.next
    with_reducible apply settle_kept
    apply Kept.ite
    · with_reducible apply applySetpoint_kept
      with_reducible apply takeMsg_kept
      exact h1
    · exact h1
  · with_reducible apply OutKept.next
    exact hk

theorem execSpdlimSample_kept {a' : State} {level : Nat} {freq : Nat} {s : State} (hk : Kept a' s) :
    OutKept a' (execSpdlimSample level freq s) := by
  unfold execSpdlimSample
  with_reducible apply OutKept.next
  with_reducible apply settle_kept
  with_reducible apply spdSample_kept
  exact hk

theorem execSpdlimOpen_kept {a' : State} {s : State} (hk : Kept a' s) :
    OutKept a' (execSpdlimOpen s) := by
  unfold execSpdlimOpen
  apply OutKept.ite
  · with_reducible apply OutKept.next
    with_reducible apply settle_kept
    with_reducible apply curdRaise_kept
    with_reducible apply State.wrC_kept
    with_reducible apply State.wrC_kept
    exact hk
  · with_reducible apply OutKept.next
    exact hk

theorem execSpdlimValidPersist_kept {a' : State} {s : State} (hk : Kept a' s) :
    OutKept a' (execSpdlimValidPersist s) := by
  unfold execSpdlimValidPersist
  apply OutKept.ite
  · with_reducible apply OutKept.next
    with_reducible apply settle_kept
    with_reducible apply State.wrC_kept
    with_reducible apply State.wrC_kept
    exact hk
  · with_reducible apply OutKept.next
    exact hk

theorem execSpdlimCeilingRaise_kept {a' : State} {s : State} (hk : Kept a' s) :
    OutKept a' (execSpdlimCeilingRaise s) := by
  unfold execSpdlimCeilingRaise
  apply OutKept.ite
  · with_reducible apply OutKept.next
    with_reducible apply settle_kept
    with_reducible apply State.wrC_kept
    exact hk
  · with_reducible apply OutKept.next
    exact hk

theorem execResistanceMeasured_kept {a' : State} {rab : Nat} {rbc : Nat} {rca : Nat} {s : State} (hk : Kept a' s) :
    OutKept a' (execResistanceMeasured rab rbc rca s) := by
  unfold execResistanceMeasured
  apply OutKept.ite
  · lift_lets
    intro x0
    have h1 : Kept a' x0 := by
      subst x0
      with_reducible apply restMeasure_kept
      exact hk
    clear_value x0
    intro x2
    have h3 : Kept a' x2 := by
      subst x2
      with_reducible apply modSpin_kept
      exact h1
    clear_value x2
    apply OutKept.ite
    · with_reducible apply OutKept.next
      with_reducible apply settle_kept
      with_reducible apply standstill_kept
      exact h1
    · with_reducible apply OutKept.next
      with_reducible apply settle_kept
      with_reducible apply setSp_kept
      with_reducible apply modSpin_kept
      exact h3
  · with_reducible apply OutKept.next
    exact hk

theorem execHdaReestimate_kept {a' : State} {rphase : Nat} {s : State} (hk : Kept a' s) :
    OutKept a' (execHdaReestimate rphase s) := by
  unfold execHdaReestimate
  split
  · rename_i z0 z1
    with_reducible apply OutKept.next
    exact hk
  · rename_i z2 z3 z4
    lift_lets
    intro x5
    clear_value x5
    with_reducible apply OutKept.next
    apply Kept.ite
    · with_reducible apply storeEstimate_kept
      exact hk
    · exact hk

theorem execCookPairChange_kept {a' : State} {rmeas : Nat} {s : State} (hk : Kept a' s) :
    OutKept a' (execCookPairChange rmeas s) := by
  unfold execCookPairChange
  apply OutKept.ite
  · lift_lets
    intro x0
    have h1 : Kept a' x0 := by
      subst x0
      with_reducible apply modSpin_kept
      exact hk
    clear_value x0
    with_reducible apply OutKept.next
    with_reducible apply modSpin_kept
    exact h1
  · with_reducible apply OutKept.next
    exact hk

theorem execCookCheck_kept {a' : State} {rab : Nat} {rbc : Nat} {rca : Nat} {s : State} (hk : Kept a' s) :
    OutKept a' (execCookCheck rab rbc rca s) := by
  unfold execCookCheck
  apply OutKept.ite
  · lift_lets
    intro x0
    have h1 : Kept a' x0 := by
      subst x0
      with_reducible apply restMeasure_kept
      exact hk
    clear_value x0
    apply OutKept.ite
    · with_reducible apply OutKept.next
      with_reducible apply settle_kept
      with_reducible apply standstill_kept
      exact h1
    · with_reducible apply OutKept.next
      with_reducible apply modSpin_kept
      exact h1
  · with_reducible apply OutKept.next
    exact hk

theorem execCookTimeout_kept {a' : State} {s : State} (hk : Kept a' s) :
    OutKept a' (execCookTimeout s) := by
  unfold execCookTimeout
  apply OutKept.ite
  · lift_lets
    intro x0
    have h1 : Kept a' x0 := by
      subst x0
      apply Kept.ite
      · with_reducible apply curdRaise_kept
        exact hk
      · exact hk
    clear_value x0
    with_reducible apply OutKept.next
    with_reducible apply settle_kept
    with_reducible apply standstill_kept
    exact h1
  · with_reducible apply OutKept.next
    exact hk

theorem execStartDecision_kept {a' : State} {s : State} (hk : Kept a' s) :
    OutKept a' (execStartDecision s) := by
  unfold execStartDecision
  apply OutKept.ite
  · with_reducible apply OutKept.next
    with_reducible apply settle_kept
    with_reducible apply setSp_kept
    with_reducible apply modSpin_kept
    exact hk
  · with_reducible apply OutKept.next
    exact hk

theorem execChopperTest_kept {a' : State} {dips : List Nat} {rets : List Nat} {s : State} (hk : Kept a' s) :
    OutKept a' (execChopperTest dips rets s) := by
  unfold execChopperTest
  apply OutKept.ite
  · lift_lets
    intro x0
    clear_value x0
    intro x1
    clear_value x1
    intro x2
    have h3 : Kept a' x2 := by
      subst x2
      with_reducible apply State.wrC_kept
      exact hk
    clear_value x2
    with_reducible apply OutKept.next
    with_reducible apply settle_kept
    apply Kept.ite
    · exact h3
    · with_reducible apply curdRaise_kept
      exact h3
  · with_reducible apply OutKept.next
    exact hk

theorem execFloatEnd_kept {a' : State} {s : State} (hk : Kept a' s) :
    OutKept a' (execFloatEnd s) := by
  unfold execFloatEnd
  apply OutKept.ite
  · lift_lets
    intro x0
    clear_value x0
    with_reducible apply OutKept.next
    with_reducible apply settle_kept
    apply Kept.ite
    · with_reducible apply atRest_kept
      exact hk
    · apply Kept.ite
      · with_reducible apply catchRotor_kept
        exact hk
      · apply Kept.ite
        · with_reducible apply modSpin_kept
          exact hk
        · with_reducible apply coast_kept
          exact hk
  · with_reducible apply OutKept.next
    exact hk

theorem execCoastDone_kept {a' : State} {s : State} (hk : Kept a' s) :
    OutKept a' (execCoastDone s) := by
  unfold execCoastDone
  apply OutKept.ite
  · with_reducible apply OutKept.next
    with_reducible apply settle_kept
    with_reducible apply atRest_kept
    exact hk
  · with_reducible apply OutKept.next
    exact hk

theorem execPositionSensed_kept {a' : State} {rises : List Nat} {s : State} (hk : Kept a' s) :
    OutKept a' (execPositionSensed rises s) := by
  unfold execPositionSensed
  apply OutKept.ite
  · with_reducible apply OutKept.next
    with_reducible apply settle_kept
    with_reducible apply setSp_kept
    with_reducible apply modSpin_kept
    exact hk
  · with_reducible apply OutKept.next
    exact hk

theorem execHandoverTimeout_kept {a' : State} {s : State} (hk : Kept a' s) :
    OutKept a' (execHandoverTimeout s) := by
  unfold execHandoverTimeout
  apply OutKept.ite
  · lift_lets
    intro x0
    clear_value x0
    intro x1
    have h2 : Kept a' x1 := by
      subst x1
      with_reducible apply State.incC_kept
      with_reducible apply modSpin_kept
      exact hk
    clear_value x1
    with_reducible apply OutKept.next
    with_reducible apply settle_kept
    apply Kept.ite
    · with_reducible apply curdRaise_kept
      with_reducible apply setSp_kept
      exact h2
    · with_reducible apply coast_kept
      exact h2
  · with_reducible apply OutKept.next
    exact hk

theorem execOvercurrent_kept {a' : State} {s : State} (hk : Kept a' s) :
    OutKept a' (execOvercurrent s) := by
  unfold execOvercurrent
  apply OutKept.ite
  · lift_lets
    intro x0
    clear_value x0
    intro x1
    have h2 : Kept a' x1 := by
      subst x1
      with_reducible apply State.incC_kept
      exact hk
    clear_value x1
    with_reducible apply OutKept.next
    with_reducible apply settle_kept
    apply Kept.ite
    · with_reducible apply loseBridge_kept
      with_reducible apply modSpin_kept
      exact h2
    · with_reducible apply modSpin_kept
      exact h2
  · with_reducible apply OutKept.next
    exact hk

theorem execVmotUndervoltage_kept {a' : State} {s : State} (hk : Kept a' s) :
    OutKept a' (execVmotUndervoltage s) := by
  unfold execVmotUndervoltage
  lift_lets
  intro x0
  have h1 : Kept a' x0 := by
    subst x0
    with_reducible apply State.wrC_kept
    exact hk
  clear_value x0
  with_reducible apply OutKept.next
  with_reducible apply settle_kept
  apply Kept.ite
  · with_reducible apply loseBridge_kept
    exact h1
  · exact h1

theorem execVmotRecovered_kept {a' : State} {s : State} (hk : Kept a' s) :
    OutKept a' (execVmotRecovered s) := by
  unfold execVmotRecovered
  with_reducible apply OutKept.next
  with_reducible apply settle_kept
  with_reducible apply State.wrC_kept
  exact hk

theorem execSpinHeartbeatLoss_kept {a' : State} {s : State} (hk : Kept a' s) :
    OutKept a' (execSpinHeartbeatLoss s) := by
  unfold execSpinHeartbeatLoss
  apply OutKept.ite
  · with_reducible apply OutKept.next
    with_reducible apply settle_kept
    with_reducible apply loseBridge_kept
    exact hk
  · with_reducible apply OutKept.next
    exact hk

theorem execOvervoltageRelease_kept {a' : State} {s : State} (hk : Kept a' s) :
    OutKept a' (execOvervoltageRelease s) := by
  unfold execOvervoltageRelease
  apply OutKept.ite
  · with_reducible apply OutKept.next
    with_reducible apply settle_kept
    with_reducible apply loseBridge_kept
    with_reducible apply modSpin_kept
    exact hk
  · with_reducible apply OutKept.next
    exact hk

theorem execTallySnapshot_kept {a' : State} {d : RSlot} {s : State} (hk : Kept a' s) :
    OutKept a' (execTallySnapshot d s) := by
  unfold execTallySnapshot
  with_reducible apply OutKept.next
  apply Kept.ite
  · with_reducible apply tallySnapshot_kept
    exact hk
  · exact hk

theorem execAlloc_kept {a' : State} {owner : Nat} {size : Nat} {promote : Bool} {wait : Bool} {s : State} (hk : Kept a' s) :
    OutKept a' (execAlloc owner size promote wait s) := by
  unfold execAlloc
  with_reducible apply OutKept.next
  with_reducible apply settle_kept
  with_reducible apply inStep_kept
  · intro y0 t1 h2
    with_reducible apply vatRequest_kept
    · intro y3 t4 h5
      lift_lets
      intro x6
      clear_value x6
      intro x7
      have h8 : Kept a' x7.2 := by
        subst x7
        with_reducible apply vatAlloc_kept
        exact h5
      clear_value x7
      dsimp only
      with_reducible apply noteAsker_kept
      exact h8
    · exact h2
  · exact hk

theorem execShare_kept {a' : State} {owner : Nat} {handle : Word} {rename : Bool} {s : State} (hk : Kept a' s) :
    OutKept a' (execShare owner handle rename s) := by
  unfold execShare
  with_reducible apply OutKept.next
  with_reducible apply settle_kept
  with_reducible apply inStep_kept
  · intro y0 t1 h2
    with_reducible apply vatRequest_kept
    · intro y3 t4 h5
      with_reducible apply vatShare_kept
      exact h5
    · exact h2
  · exact hk

theorem execRelease_kept {a' : State} {owner : Nat} {handle : Word} {s : State} (hk : Kept a' s) :
    OutKept a' (execRelease owner handle s) := by
  unfold execRelease
  with_reducible apply OutKept.next
  with_reducible apply settle_kept
  with_reducible apply inStep_kept
  · intro y0 t1 h2
    with_reducible apply vatRequest_kept
    · intro y3 t4 h5
      with_reducible apply vatRelease_kept
      exact h5
    · exact h2
  · exact hk

theorem execFree_kept {a' : State} {owner : Nat} {handle : Word} {s : State} (hk : Kept a' s) :
    OutKept a' (execFree owner handle s) := by
  unfold execFree
  with_reducible apply OutKept.next
  with_reducible apply settle_kept
  with_reducible apply inStep_kept
  · intro y0 t1 h2
    with_reducible apply vatRequest_kept
    · intro y3 t4 h5
      lift_lets
      intro x6
      clear_value x6
      intro x7
      have h8 : Kept a' x7.2 := by
        subst x7
        with_reducible apply vatFree_kept
        exact h5
      clear_value x7
      dsimp only
      apply Kept.ite
      · with_reducible apply tellGrant_kept
        exact h8
      · exact h8
    · exact h2
  · exact hk

theorem execCancel_kept {a' : State} {owner : Nat} {ticket : Nat} {s : State} (hk : Kept a' s) :
    OutKept a' (execCancel owner ticket s) := by
  unfold execCancel
  with_reducible apply OutKept.next
  with_reducible apply settle_kept
  with_reducible apply inStep_kept
  · intro y0 t1 h2
    with_reducible apply vatRequest_kept
    · intro y3 t4 h5
      with_reducible apply vatCancel_kept
      exact h5
    · exact h2
  · exact hk

theorem execXlatLookup_kept {a' : State} {eng : Nat} {vol : Nat} {blk : Nat} {s : State} (hk : Kept a' s) :
    OutKept a' (execXlatLookup eng vol blk s) := by
  unfold execXlatLookup
  lift_lets
  intro x0
  clear_value x0
  with_reducible apply OutKept.next
  with_reducible apply settle_kept
  with_reducible apply inStep_kept
  · intro y1 t2 h3
    with_reducible apply reply_kept
    exact h3
  · exact hk

theorem execXlatApplyChange_kept {a' : State} {c : TableChange} {s : State} (hk : Kept a' s) :
    OutKept a' (execXlatApplyChange c s) := by
  unfold execXlatApplyChange
  apply OutKept.ite
  · with_reducible apply OutKept.next
    exact hk
  · with_reducible apply OutKept.next
    with_reducible apply settle_kept
    with_reducible apply inStep_kept
    · intro y0 t1 h2
      with_reducible apply answerAny_kept
      exact h2
    · with_reducible apply applyChange_kept
      exact hk

theorem execJournalTimer_kept {a' : State} {s : State} (hk : Kept a' s) :
    OutKept a' (execJournalTimer s) := by
  unfold execJournalTimer
  with_reducible apply OutKept.next
  apply Kept.ite
  · with_reducible apply settle_kept
    with_reducible apply showSched_kept
    with_reducible apply retire_kept
    with_reducible apply writeJournal_kept
    exact hk
  · exact hk

theorem execCleaningStart_kept {a' : State} {g : Nat} {s : State} (hk : Kept a' s) :
    OutKept a' (execCleaningStart g s) := by
  unfold execCleaningStart
  with_reducible apply OutKept.next
  apply Kept.ite
  · with_reducible apply settle_kept
    with_reducible apply startCleaning_kept
    exact hk
  · exact hk

end Sys2Proof.Machine
end

