-- ==== Sys2Proof/Laws/PerInstr.lean ====
section
/-! SUPPORT. The family NoWord, one lemma a command: no word spells the command, for no row of the command table gives bits. -/

namespace Sys2Proof.Laws.NoWord

/-- No word of the table's bits spells the command. -/
def Statement (i : Instr) : Prop := ∀ nbits w : Nat, decodeTableWord nbits w ≠ some i

theorem powerOnResetRelease (vinMv : Nat) (strap : Bool) : Statement (.powerOnResetRelease vinMv strap) := fun _ _ h => nomatch h
theorem powerOnResetEntry (vinMv : Nat) : Statement (.powerOnResetEntry vinMv) := fun _ _ h => nomatch h
theorem resetNFall : Statement (.resetNFall) := fun _ _ h => nomatch h
theorem resetNRise (lowUs : Nat) : Statement (.resetNRise lowUs) := fun _ _ h => nomatch h
theorem vinSample (vinMv : Nat) : Statement (.vinSample vinMv) := fun _ _ h => nomatch h
theorem sagPauseEnd : Statement (.sagPauseEnd) := fun _ _ h => nomatch h
theorem supplyHoldExpire : Statement (.supplyHoldExpire) := fun _ _ h => nomatch h
theorem supplyRestart : Statement (.supplyRestart) := fun _ _ h => nomatch h
theorem perstAssert (d : RSlot) (h : Nat) : Statement (.perstAssert d h) := fun _ _ h => nomatch h
theorem perstDeassert (d : RSlot) (h : Nat) : Statement (.perstDeassert d h) := fun _ _ h => nomatch h
theorem shockAssert : Statement (.shockAssert) := fun _ _ h => nomatch h
theorem shockHoldExpire (g : Nat) : Statement (.shockHoldExpire g) := fun _ _ h => nomatch h
theorem shockStuck (g : Nat) : Statement (.shockStuck g) := fun _ _ h => nomatch h
theorem spdlimSample (level freq : Nat) : Statement (.spdlimSample level freq) := fun _ _ h => nomatch h
theorem spdlimOpen : Statement (.spdlimOpen) := fun _ _ h => nomatch h
theorem spdlimValidPersist : Statement (.spdlimValidPersist) := fun _ _ h => nomatch h
theorem spdlimCeilingRaise : Statement (.spdlimCeilingRaise) := fun _ _ h => nomatch h
theorem testPortActive : Statement (.testPortActive) := fun _ _ h => nomatch h
theorem timebaseLost (d : RSlot) : Statement (.timebaseLost d) := fun _ _ h => nomatch h
theorem aliveToggle : Statement (.aliveToggle) := fun _ _ h => nomatch h
theorem aliveTakeover : Statement (.aliveTakeover) := fun _ _ h => nomatch h
theorem railMonitorLow (g : Nat) (r : Rail) : Statement (.railMonitorLow g r) := fun _ _ h => nomatch h
theorem pmbusOperation (r : Rail) (on : Bool) (resp : PmbResp) : Statement (.pmbusOperation r on resp) := fun _ _ h => nomatch h
theorem pmbusClearFaults (r : Rail) (resp : PmbResp) : Statement (.pmbusClearFaults r resp) := fun _ _ h => nomatch h
theorem pmbusVoutCommand (up : Bool) (resp : PmbResp) : Statement (.pmbusVoutCommand up resp) := fun _ _ h => nomatch h
theorem pmbusStatusWord (r : Rail) (resp : PmbResp) (fault : Bool) : Statement (.pmbusStatusWord r resp fault) := fun _ _ h => nomatch h
theorem pmbusReadVout (r : Rail) (resp : PmbResp) (mv : Nat) : Statement (.pmbusReadVout r resp mv) := fun _ _ h => nomatch h
theorem pmbusReadIout (r : Rail) (resp : PmbResp) (tenMa : Nat) : Statement (.pmbusReadIout r resp tenMa) := fun _ _ h => nomatch h
theorem pmbusTakeover : Statement (.pmbusTakeover) := fun _ _ h => nomatch h
theorem sfBusRequest (d : RSlot) : Statement (.sfBusRequest d) := fun _ _ h => nomatch h
theorem sfBusGrant : Statement (.sfBusGrant) := fun _ _ h => nomatch h
theorem sbSetAddress (at_ : Nat) (pec : Bool) (addr : Word) : Statement (.sbSetAddress at_ pec addr) := fun _ _ h => nomatch h
theorem sbReadWord (at_ : Nat) (pec : Bool) : Statement (.sbReadWord at_ pec) := fun _ _ h => nomatch h
theorem sbWriteWord (at_ : Nat) (pec : Bool) (v : Word) : Statement (.sbWriteWord at_ pec v) := fun _ _ h => nomatch h
theorem sbReadResult (at_ : Nat) (pec : Bool) : Statement (.sbReadResult at_ pec) := fun _ _ h => nomatch h
theorem sbCoreTimeout (d : RSlot) : Statement (.sbCoreTimeout d) := fun _ _ h => nomatch h
theorem startHeader (d : RSlot) : Statement (.startHeader d) := fun _ _ h => nomatch h
theorem linkFirstHandshake (d : RSlot) (n : Nat) : Statement (.linkFirstHandshake d n) := fun _ _ h => nomatch h
theorem startLoad (d : RSlot) : Statement (.startLoad d) := fun _ _ h => nomatch h
theorem curdImageLoad (g : Nat) : Statement (.curdImageLoad g) := fun _ _ h => nomatch h
theorem startSettings (d : RSlot) : Statement (.startSettings d) := fun _ _ h => nomatch h
theorem startDigestExchange (f1Here : Bool) : Statement (.startDigestExchange f1Here) := fun _ _ h => nomatch h
theorem startMemorySpindle : Statement (.startMemorySpindle) := fun _ _ h => nomatch h
theorem dramTrainingDone (d : RSlot) (lanes : List LaneEyes) : Statement (.dramTrainingDone d lanes) := fun _ _ h => nomatch h
theorem dramFillDone (d : RSlot) : Statement (.dramFillDone d) := fun _ _ h => nomatch h
theorem headsRelease (pins : HeadPins) : Statement (.headsRelease pins) := fun _ _ h => nomatch h
theorem startReady (elapsedMs : Nat) : Statement (.startReady elapsedMs) := fun _ _ h => nomatch h
theorem startWatchdogExpire : Statement (.startWatchdogExpire) := fun _ _ h => nomatch h
theorem thermalWaitEnd : Statement (.thermalWaitEnd) := fun _ _ h => nomatch h
theorem headerWriteDone (good : Bool) : Statement (.headerWriteDone good) := fun _ _ h => nomatch h
theorem finvikMessageReceive (e : LinkEnd) (m : Msg) (crcOk codeOk : Bool) : Statement (.finvikMessageReceive e m crcOk codeOk) := fun _ _ h => nomatch h
theorem lcwCreditAck (e : LinkEnd) (w0 w1 : Word) : Statement (.lcwCreditAck e w0 w1) := fun _ _ h => nomatch h
theorem lcwReplayRequest (e : LinkEnd) (w0 w1 : Word) : Statement (.lcwReplayRequest e w0 w1) := fun _ _ h => nomatch h
theorem lcwResetReport (e : LinkEnd) (w0 w1 : Word) : Statement (.lcwResetReport e w0 w1) := fun _ _ h => nomatch h
theorem lcwPeriodic (e : LinkEnd) : Statement (.lcwPeriodic e) := fun _ _ h => nomatch h
theorem linkDown (d : RSlot) (n : Nat) : Statement (.linkDown d n) := fun _ _ h => nomatch h
theorem stepKeepalive (d : RSlot) : Statement (.stepKeepalive d) := fun _ _ h => nomatch h
theorem stepLinkLost : Statement (.stepLinkLost) := fun _ _ h => nomatch h
theorem stallWatchFire (s : Stage) : Statement (.stallWatchFire s) := fun _ _ h => nomatch h
theorem headTrained (d : RSlot) (h : Nat) (p : Partner) : Statement (.headTrained d h p) := fun _ _ h => nomatch h
theorem headDown (d : RSlot) (h : Nat) : Statement (.headDown d h) := fun _ _ h => nomatch h
theorem cxlMemLoad (d : RSlot) (r : Requester) (off len : Nat) : Statement (.cxlMemLoad d r off len) := fun _ _ h => nomatch h
theorem cxlMemStore (d : RSlot) (r : Requester) (off : Nat) (data : List Byte) : Statement (.cxlMemStore d r off data) := fun _ _ h => nomatch h
theorem globalPersistentFlush (d : RSlot) (h : Nat) : Statement (.globalPersistentFlush d h) := fun _ _ h => nomatch h
theorem setupWrite (d : RSlot) (r : Requester) (addr width : Nat) (v : Word) : Statement (.setupWrite d r addr width v) := fun _ _ h => nomatch h
theorem rcRead (d : RSlot) (r : Requester) (addr width : Nat) : Statement (.rcRead d r addr width) := fun _ _ h => nomatch h
theorem unlockWrite (d : RSlot) (r : Requester) (addr : Nat) (key : Word) : Statement (.unlockWrite d r addr key) := fun _ _ h => nomatch h
theorem unlockArmLapse (d : RSlot) (r : Requester) (addr : Nat) : Statement (.unlockArmLapse d r addr) := fun _ _ h => nomatch h
theorem domcfgWrite (d : RSlot) (r : Requester) (dom : Nat) (v : Word) : Statement (.domcfgWrite d r dom v) := fun _ _ h => nomatch h
theorem portEnable (d : RSlot) (r : Requester) (port : Nat) (v : Word) : Statement (.portEnable d r port v) := fun _ _ h => nomatch h
theorem portDisable (d : RSlot) (r : Requester) (port : Nat) (v : Word) : Statement (.portDisable d r port v) := fun _ _ h => nomatch h
theorem statusLineAddressWrite (d : RSlot) (r : Requester) (dom : Nat) (hi : Bool) (v : Word) : Statement (.statusLineAddressWrite d r dom hi v) := fun _ _ h => nomatch h
theorem caveEnable (d : RSlot) (r : Requester) (v : Word) : Statement (.caveEnable d r v) := fun _ _ h => nomatch h
theorem caveInv (d : RSlot) (r : Requester) (spareLocked : Bool) : Statement (.caveInv d r spareLocked) := fun _ _ h => nomatch h
theorem caveClean (d : RSlot) (r : Requester) (spareLocked : Bool) : Statement (.caveClean d r spareLocked) := fun _ _ h => nomatch h
theorem caveCleaninv (d : RSlot) (r : Requester) (spareLocked : Bool) : Statement (.caveCleaninv d r spareLocked) := fun _ _ h => nomatch h
theorem caveMaintDone (d : RSlot) : Statement (.caveMaintDone d) := fun _ _ h => nomatch h
theorem stepTurnnow (d : RSlot) (r : Requester) : Statement (.stepTurnnow d r) := fun _ _ h => nomatch h
theorem stepResync (d : RSlot) (r : Requester) : Statement (.stepResync d r) := fun _ _ h => nomatch h
theorem faultUnlatch (d : RSlot) (r : Requester) : Statement (.faultUnlatch d r) := fun _ _ h => nomatch h
theorem faultAbandon (d : RSlot) (r : Requester) : Statement (.faultAbandon d r) := fun _ _ h => nomatch h
theorem logFreeze (d : RSlot) (r : Requester) : Statement (.logFreeze d r) := fun _ _ h => nomatch h
theorem logUnfreeze (d : RSlot) (r : Requester) : Statement (.logUnfreeze d r) := fun _ _ h => nomatch h
theorem logFreezeLapse : Statement (.logFreezeLapse) := fun _ _ h => nomatch h
theorem faultInjArm (d : RSlot) (r : Requester) (v : Word) : Statement (.faultInjArm d r v) := fun _ _ h => nomatch h
theorem faultInjRaise (d : RSlot) (r : Requester) (v : Word) : Statement (.faultInjRaise d r v) := fun _ _ h => nomatch h
theorem faultInjCaveParity (d : RSlot) (r : Requester) (v : Word) : Statement (.faultInjCaveParity d r v) := fun _ _ h => nomatch h
theorem faultInjWithholdAck (d : RSlot) (r : Requester) (v : Word) : Statement (.faultInjWithholdAck d r v) := fun _ _ h => nomatch h
theorem faultInjFinvikCrc (d : RSlot) (r : Requester) (v : Word) : Statement (.faultInjFinvikCrc d r v) := fun _ _ h => nomatch h
theorem faultInjDramSymbol (d : RSlot) (r : Requester) (v : Word) : Statement (.faultInjDramSymbol d r v) := fun _ _ h => nomatch h
theorem doorbellSnoop (d : RSlot) (port : Nat) : Statement (.doorbellSnoop d port) := fun _ _ h => nomatch h
theorem doorbellReadComplete (d : RSlot) (port : Nat) (lo hi : List Byte) : Statement (.doorbellReadComplete d port lo hi) := fun _ _ h => nomatch h
theorem doorbellPoll (d : RSlot) (port : Nat) : Statement (.doorbellPoll d port) := fun _ _ h => nomatch h
theorem doorbellBackstop (d : RSlot) : Statement (.doorbellBackstop d) := fun _ _ h => nomatch h
theorem doorbellReadTimeout (d : RSlot) (port : Nat) : Statement (.doorbellReadTimeout d port) := fun _ _ h => nomatch h
theorem fetchGrant (descs : List (List Byte)) : Statement (.fetchGrant descs) := fun _ _ h => nomatch h
theorem descriptorFetchTimeout (d : RSlot) (port : Nat) : Statement (.descriptorFetchTimeout d port) := fun _ _ h => nomatch h
theorem statusLineUpdate (d : RSlot) (dom : Nat) : Statement (.statusLineUpdate d dom) := fun _ _ h => nomatch h
theorem rewritePass (d : RSlot) : Statement (.rewritePass d) := fun _ _ h => nomatch h
theorem read (port : Nat) : Statement (.read port) := fun _ _ h => nomatch h
theorem write (port : Nat) : Statement (.write port) := fun _ _ h => nomatch h
theorem append (port : Nat) : Statement (.append port) := fun _ _ h => nomatch h
theorem fence (port : Nat) : Statement (.fence port) := fun _ _ h => nomatch h
theorem flush (port : Nat) : Statement (.flush port) := fun _ _ h => nomatch h
theorem trim (port : Nat) : Statement (.trim port) := fun _ _ h => nomatch h
theorem copy (port : Nat) : Statement (.copy port) := fun _ _ h => nomatch h
theorem winmap (port : Nat) : Statement (.winmap port) := fun _ _ h => nomatch h
theorem abort (port : Nat) : Statement (.abort port) := fun _ _ h => nomatch h
theorem invalidOpcode (port : Nat) : Statement (.invalidOpcode port) := fun _ _ h => nomatch h
theorem identify (port : Nat) : Statement (.identify port) := fun _ _ h => nomatch h
theorem getLog (port : Nat) : Statement (.getLog port) := fun _ _ h => nomatch h
theorem getFeatures (port : Nat) : Statement (.getFeatures port) := fun _ _ h => nomatch h
theorem setFeaturesPowercap (port : Nat) : Statement (.setFeaturesPowercap port) := fun _ _ h => nomatch h
theorem setFeaturesThermal (port : Nat) : Statement (.setFeaturesThermal port) := fun _ _ h => nomatch h
theorem setFeaturesTurning (port : Nat) : Statement (.setFeaturesTurning port) := fun _ _ h => nomatch h
theorem setFeaturesWindow (port : Nat) : Statement (.setFeaturesWindow port) := fun _ _ h => nomatch h
theorem setFeaturesRide (port : Nat) : Statement (.setFeaturesRide port) := fun _ _ h => nomatch h
theorem setFeaturesFaultsev (port : Nat) : Statement (.setFeaturesFaultsev port) := fun _ _ h => nomatch h
theorem setFeaturesFaultclr (port : Nat) : Statement (.setFeaturesFaultclr port) := fun _ _ h => nomatch h
theorem volumeCreate (port : Nat) : Statement (.volumeCreate port) := fun _ _ h => nomatch h
theorem volumeChange (port : Nat) : Statement (.volumeChange port) := fun _ _ h => nomatch h
theorem volumeDelete (port : Nat) : Statement (.volumeDelete port) := fun _ _ h => nomatch h
theorem settingsSaveDone (good : Bool) : Statement (.settingsSaveDone good) := fun _ _ h => nomatch h
theorem fwDownload (port : Nat) (data : List Byte) : Statement (.fwDownload port data) := fun _ _ h => nomatch h
theorem fwChunkProgrammed (good : Bool) : Statement (.fwChunkProgrammed good) := fun _ _ h => nomatch h
theorem fwSessionTimeout : Statement (.fwSessionTimeout) := fun _ _ h => nomatch h
theorem fwActivate (port : Nat) : Statement (.fwActivate port) := fun _ _ h => nomatch h
theorem commandTimeout (port tag : Nat) (unit : Option RUnit) : Statement (.commandTimeout port tag unit) := fun _ _ h => nomatch h
theorem journalTimer : Statement (.journalTimer) := fun _ _ h => nomatch h
theorem cleaningStart (g : Nat) : Statement (.cleaningStart g) := fun _ _ h => nomatch h
theorem sectorRead (g : Nat) (src : RSlot) (m : Msg) : Statement (.sectorRead g src m) := fun _ _ h => nomatch h
theorem sectorWrite (g : Nat) (src : RSlot) (m : Msg) : Statement (.sectorWrite g src m) := fun _ _ h => nomatch h
theorem sectorVerify (g : Nat) (src : RSlot) (m : Msg) : Statement (.sectorVerify g src m) := fun _ _ h => nomatch h
theorem sectorOldread (g : Nat) (src : RSlot) (m : Msg) : Statement (.sectorOldread g src m) := fun _ _ h => nomatch h
theorem sectorParity (g : Nat) (src : RSlot) (m : Msg) : Statement (.sectorParity g src m) := fun _ _ h => nomatch h
theorem dataMessage (e : LinkEnd) (m : Msg) : Statement (.dataMessage e m) := fun _ _ h => nomatch h
theorem runStart (g : Nat) : Statement (.runStart g) := fun _ _ h => nomatch h
theorem gatePost (g : Nat) (ev : GateEv) (late : Bool) : Statement (.gatePost g ev late) := fun _ _ h => nomatch h
theorem gateEvent (g : Nat) (cap : Capture) : Statement (.gateEvent g cap) := fun _ _ h => nomatch h
theorem sectorDecode (g surf pos : Nat) : Statement (.sectorDecode g surf pos) := fun _ _ h => nomatch h
theorem vaultRung (g pos : Nat) : Statement (.vaultRung g pos) := fun _ _ h => nomatch h
theorem rebuild (g pos : Nat) : Statement (.rebuild g pos) := fun _ _ h => nomatch h
theorem readerSettled (g : Nat) : Statement (.readerSettled g) := fun _ _ h => nomatch h
theorem rptSectorOutcome (g : Nat) (eseq w0 w1 : Nat) : Statement (.rptSectorOutcome g eseq w0 w1) := fun _ _ h => nomatch h
theorem rptRunEnd (g : Nat) (eseq : Nat) : Statement (.rptRunEnd g eseq) := fun _ _ h => nomatch h
theorem rptShockEvent (g : Nat) (ms : Nat) : Statement (.rptShockEvent g ms) := fun _ _ h => nomatch h
theorem rptSpindle (w0 w1 w2 w3 : Word) : Statement (.rptSpindle w0 w1 w2 w3) := fun _ _ h => nomatch h
theorem rptCurdMismatch (g : Nat) (cls : Nat) (slot : RSlot) (eseq : Nat) : Statement (.rptCurdMismatch g cls slot eseq) := fun _ _ h => nomatch h
theorem rptDieReport (g : Nat) (w0 : Word) : Statement (.rptDieReport g w0) := fun _ _ h => nomatch h
theorem rptFault (g : Nat) (w0 w1 : Word) : Statement (.rptFault g w0 w1) := fun _ _ h => nomatch h
theorem curdDieReportTimer (g : Nat) : Statement (.curdDieReportTimer g) := fun _ _ h => nomatch h
theorem spindleReportTimer : Statement (.spindleReportTimer) := fun _ _ h => nomatch h
theorem spindleSetpoint (src : RSlot) (m : Msg) : Statement (.spindleSetpoint src m) := fun _ _ h => nomatch h
theorem groupOrder (g : Nat) (src : RSlot) (m : Msg) : Statement (.groupOrder g src m) := fun _ _ h => nomatch h
theorem endRuns (g : Nat) (src : RSlot) (m : Msg) : Statement (.endRuns g src m) := fun _ _ h => nomatch h
theorem retractOrder (g : Nat) : Statement (.retractOrder g) := fun _ _ h => nomatch h
theorem curdSetupAccess (d : RSlot) (g : Nat) (isWrite : Bool) (off : Nat) (v : Word) : Statement (.curdSetupAccess d g isWrite off v) := fun _ _ h => nomatch h
theorem lease (g : Nat) (src : RSlot) (w0 epoch : Nat) : Statement (.lease g src w0 epoch) := fun _ _ h => nomatch h
theorem leaseConfirm (g : Nat) (sender : RSlot) (epoch : Nat) : Statement (.leaseConfirm g sender epoch) := fun _ _ h => nomatch h
theorem leaseClaim (g : Nat) (sender : RSlot) (epoch : Nat) : Statement (.leaseClaim g sender epoch) := fun _ _ h => nomatch h
theorem leaseKeepalive (d : RSlot) : Statement (.leaseKeepalive d) := fun _ _ h => nomatch h
theorem leaseAnswer (d : RSlot) (g : Nat) (w0 epoch : Nat) : Statement (.leaseAnswer d g w0 epoch) := fun _ _ h => nomatch h
theorem curdLinkSilent (g : Nat) (d : RSlot) : Statement (.curdLinkSilent g d) := fun _ _ h => nomatch h
theorem synthLock (g : Nat) : Statement (.synthLock g) := fun _ _ h => nomatch h
theorem synthLockLoss (g : Nat) : Statement (.synthLockLoss g) := fun _ _ h => nomatch h
theorem paFault (g : Nat) (paflt : Nat) : Statement (.paFault g paflt) := fun _ _ h => nomatch h
theorem paFaultPersist (g : Nat) : Statement (.paFaultPersist g) := fun _ _ h => nomatch h
theorem paFaultClear (g : Nat) : Statement (.paFaultClear g) := fun _ _ h => nomatch h
theorem preampWriteFrame (g addr val : Nat) : Statement (.preampWriteFrame g addr val) := fun _ _ h => nomatch h
theorem preampReadFrame (g addr val : Nat) : Statement (.preampReadFrame g addr val) := fun _ _ h => nomatch h
theorem wedgeSample (g : Nat) (w : Wedge) : Statement (.wedgeSample g w) := fun _ _ h => nomatch h
theorem innerLoopInstant (g j : Nat) (isns : Int) (lat40ns : Nat) : Statement (.innerLoopInstant g j isns lat40ns) := fun _ _ h => nomatch h
theorem servoTargetRequest (g surf track : Nat) : Statement (.servoTargetRequest g surf track) := fun _ _ h => nomatch h
theorem servoStatusRead (g : Nat) : Statement (.servoStatusRead g) := fun _ _ h => nomatch h
theorem loadStart (g : Nat) : Statement (.loadStart g) := fun _ _ h => nomatch h
theorem loadTimeout (g : Nat) : Statement (.loadTimeout g) := fun _ _ h => nomatch h
theorem loadStable (g : Nat) : Statement (.loadStable g) := fun _ _ h => nomatch h
theorem retractHoldExpire (g : Nat) : Statement (.retractHoldExpire g) := fun _ _ h => nomatch h
theorem unload (g : Nat) : Statement (.unload g) := fun _ _ h => nomatch h
theorem unloadComplete (g : Nat) : Statement (.unloadComplete g) := fun _ _ h => nomatch h
theorem linkAbsentUnload (g : Nat) : Statement (.linkAbsentUnload g) := fun _ _ h => nomatch h
theorem pressHeartbeatLoss (g : Nat) : Statement (.pressHeartbeatLoss g) := fun _ _ h => nomatch h
theorem pwmValley (v : Valley) : Statement (.pwmValley v) := fun _ _ h => nomatch h
theorem overvoltageRelease : Statement (.overvoltageRelease) := fun _ _ h => nomatch h
theorem speedLoopTick : Statement (.speedLoopTick) := fun _ _ h => nomatch h
theorem resistanceMeasured (rab rbc rca : Nat) : Statement (.resistanceMeasured rab rbc rca) := fun _ _ h => nomatch h
theorem hdaReestimate (rphase : Nat) : Statement (.hdaReestimate rphase) := fun _ _ h => nomatch h
theorem cookPairChange (rmeas : Nat) : Statement (.cookPairChange rmeas) := fun _ _ h => nomatch h
theorem cookCheck (rab rbc rca : Nat) : Statement (.cookCheck rab rbc rca) := fun _ _ h => nomatch h
theorem cookTimeout : Statement (.cookTimeout) := fun _ _ h => nomatch h
theorem startDecision : Statement (.startDecision) := fun _ _ h => nomatch h
theorem chopperTest (dips rets : List Nat) : Statement (.chopperTest dips rets) := fun _ _ h => nomatch h
theorem floatEnd : Statement (.floatEnd) := fun _ _ h => nomatch h
theorem coastDone : Statement (.coastDone) := fun _ _ h => nomatch h
theorem positionSensed (rises : List Nat) : Statement (.positionSensed rises) := fun _ _ h => nomatch h
theorem handoverTimeout : Statement (.handoverTimeout) := fun _ _ h => nomatch h
theorem overcurrent : Statement (.overcurrent) := fun _ _ h => nomatch h
theorem vmotUndervoltage : Statement (.vmotUndervoltage) := fun _ _ h => nomatch h
theorem vmotRecovered : Statement (.vmotRecovered) := fun _ _ h => nomatch h
theorem spinHeartbeatLoss : Statement (.spinHeartbeatLoss) := fun _ _ h => nomatch h
theorem bmemReadComplete (d : RSlot) (cw : Nat) (syms : List Byte) : Statement (.bmemReadComplete d cw syms) := fun _ _ h => nomatch h
theorem markWindowExpire (d : RSlot) (c : Nat) : Statement (.markWindowExpire d c) := fun _ _ h => nomatch h
theorem mergeAgeExpire (d : RSlot) (cw : Nat) : Statement (.mergeAgeExpire d cw) := fun _ _ h => nomatch h
theorem refreshDue (d : RSlot) (c set : Nat) : Statement (.refreshDue d c set) := fun _ _ h => nomatch h
theorem refreshRatePoll (d : RSlot) (c : Nat) (hot : List Bool) : Statement (.refreshRatePoll d c hot) := fun _ _ h => nomatch h
theorem dramAlert (d : RSlot) (c : Nat) : Statement (.dramAlert d c) := fun _ _ h => nomatch h
theorem pageIdle (d : RSlot) (c bank : Nat) : Statement (.pageIdle d c bank) := fun _ _ h => nomatch h
theorem alloc (owner size : Nat) (promote wait : Bool) : Statement (.alloc owner size promote wait) := fun _ _ h => nomatch h
theorem share (owner : Nat) (handle : Word) (rename : Bool) : Statement (.share owner handle rename) := fun _ _ h => nomatch h
theorem release (owner : Nat) (handle : Word) : Statement (.release owner handle) := fun _ _ h => nomatch h
theorem free (owner : Nat) (handle : Word) : Statement (.free owner handle) := fun _ _ h => nomatch h
theorem cancel (owner ticket : Nat) : Statement (.cancel owner ticket) := fun _ _ h => nomatch h
theorem caveRead (d : RSlot) (who : AccWho) (addr : Nat) (noalloc : Bool) : Statement (.caveRead d who addr noalloc) := fun _ _ h => nomatch h
theorem caveWrite (d : RSlot) (who : AccWho) (addr : Nat) (data : List Byte) : Statement (.caveWrite d who addr data) := fun _ _ h => nomatch h
theorem caveFillComplete (d : RSlot) (line : Nat) : Statement (.caveFillComplete d line) := fun _ _ h => nomatch h
theorem evictionDrain (d : RSlot) : Statement (.evictionDrain d) := fun _ _ h => nomatch h
theorem ladleShadowWrite (d : RSlot) (eng ch pair : Nat) (v : BitVec 64) : Statement (.ladleShadowWrite d eng ch pair v) := fun _ _ h => nomatch h
theorem ladleArm (d : RSlot) (eng ch : Nat) : Statement (.ladleArm d eng ch) := fun _ _ h => nomatch h
theorem ladleReadState (d : RSlot) (eng ch : Nat) : Statement (.ladleReadState d eng ch) := fun _ _ h => nomatch h
theorem sglEntryFetch (d : RSlot) (ch : Nat) (block : List Byte) : Statement (.sglEntryFetch d ch block) := fun _ _ h => nomatch h
theorem ladleReadData (d : RSlot) (ch : Nat) (data : List Byte) : Statement (.ladleReadData d ch data) := fun _ _ h => nomatch h
theorem ladleDescriptorEnd (d : RSlot) (ch : Nat) : Statement (.ladleDescriptorEnd d ch) := fun _ _ h => nomatch h
theorem ladleBusError (d : RSlot) (ch : Nat) : Statement (.ladleBusError d ch) := fun _ _ h => nomatch h
theorem isolationPass (d : RSlot) (skip : Bool) : Statement (.isolationPass d skip) := fun _ _ h => nomatch h
theorem next (e : Eng) : Statement (.next e) := fun _ _ h => nomatch h
theorem jump (e : Eng) : Statement (.jump e) := fun _ _ h => nomatch h
theorem branch (e : Eng) : Statement (.branch e) := fun _ _ h => nomatch h
theorem call (e : Eng) : Statement (.call e) := fun _ _ h => nomatch h
theorem callc (e : Eng) : Statement (.callc e) := fun _ _ h => nomatch h
theorem returnOp (e : Eng) : Statement (.returnOp e) := fun _ _ h => nomatch h
theorem loop (e : Eng) : Statement (.loop e) := fun _ _ h => nomatch h
theorem dispatch (e : Eng) : Statement (.dispatch e) := fun _ _ h => nomatch h
theorem waitOp (e : Eng) : Statement (.waitOp e) := fun _ _ h => nomatch h
theorem endOp (e : Eng) : Statement (.endOp e) := fun _ _ h => nomatch h
theorem eventPost (e : Eng) (cls : Nat) (data : BitVec 64) : Statement (.eventPost e cls data) := fun _ _ h => nomatch h
theorem responseArrival (e : Eng) (p : RespPort) (v : BitVec 64) (ok drained poisoned queued : Bool) : Statement (.responseArrival e p v ok drained poisoned queued) := fun _ _ h => nomatch h
theorem engineTimerExpire (e : Eng) : Statement (.engineTimerExpire e) := fun _ _ h => nomatch h
theorem routineTimeout (e : Eng) : Statement (.routineTimeout e) := fun _ _ h => nomatch h
theorem memLoad (e : Eng) (addr : Nat) : Statement (.memLoad e addr) := fun _ _ h => nomatch h
theorem memStore (e : Eng) (addr : Nat) (v : BitVec 64) : Statement (.memStore e addr v) := fun _ _ h => nomatch h
theorem mailboxPost (d : RSlot) (target : Nat) (v : BitVec 64) : Statement (.mailboxPost d target v) := fun _ _ h => nomatch h
theorem finvikOpen (e : Eng) (v : BitVec 64) : Statement (.finvikOpen e v) := fun _ _ h => nomatch h
theorem finvikAppend (e : Eng) (v : BitVec 64) : Statement (.finvikAppend e v) := fun _ _ h => nomatch h
theorem finvikClose (e : Eng) : Statement (.finvikClose e) := fun _ _ h => nomatch h
theorem readCommandRecord (d : RSlot) (eng port tag : Nat) : Statement (.readCommandRecord d eng port tag) := fun _ _ h => nomatch h
theorem generateCompletion (port tag : Nat) : Statement (.generateCompletion port tag) := fun _ _ h => nomatch h
theorem takeMediaOperation (g : Nat) (times : List Nat) : Statement (.takeMediaOperation g times) := fun _ _ h => nomatch h
theorem releaseHazard (port tag : Nat) : Statement (.releaseHazard port tag) := fun _ _ h => nomatch h
theorem xlatLookup (eng vol blk : Nat) : Statement (.xlatLookup eng vol blk) := fun _ _ h => nomatch h
theorem xlatApplyChange (c : TableChange) : Statement (.xlatApplyChange c) := fun _ _ h => nomatch h
theorem caveMaintStart (d : RSlot) (op : Nat) (spareLocked : Bool) : Statement (.caveMaintStart d op spareLocked) := fun _ _ h => nomatch h
theorem stepStateRead (d : RSlot) (eng : Nat) : Statement (.stepStateRead d eng) := fun _ _ h => nomatch h
theorem budgetRead (d : RSlot) (eng : Nat) : Statement (.budgetRead d eng) := fun _ _ h => nomatch h
theorem vaultRungStart (g idx rung : Nat) : Statement (.vaultRungStart g idx rung) := fun _ _ h => nomatch h
theorem readOutcome (g pos : Nat) : Statement (.readOutcome g pos) := fun _ _ h => nomatch h
theorem stepMessage (d : RSlot) (m : StepMsg) : Statement (.stepMessage d m) := fun _ _ h => nomatch h
theorem stepProcess (d : RSlot) : Statement (.stepProcess d) := fun _ _ h => nomatch h
theorem fwdMessage (d : RSlot) (lseq : Nat) (c : FwdBody) : Statement (.fwdMessage d lseq c) := fun _ _ h => nomatch h
theorem contentRequest (k : Nat) : Statement (.contentRequest k) := fun _ _ h => nomatch h
theorem digestBlockClose : Statement (.digestBlockClose) := fun _ _ h => nomatch h
theorem digestMessage (d : RSlot) (block : Nat) (digest : BitVec 64) (flags : Nat) : Statement (.digestMessage d block digest flags) := fun _ _ h => nomatch h
theorem digestOverdue (d : RSlot) (block : Nat) : Statement (.digestOverdue d block) := fun _ _ h => nomatch h
theorem turning : Statement (.turning) := fun _ _ h => nomatch h
theorem claimRetry (d : RSlot) : Statement (.claimRetry d) := fun _ _ h => nomatch h
theorem splitDeadline (d : RSlot) : Statement (.splitDeadline d) := fun _ _ h => nomatch h
theorem splitReinit : Statement (.splitReinit) := fun _ _ h => nomatch h
theorem copyMessage (d : RSlot) (addr : Nat) (data : List Byte) (poison : Bool) : Statement (.copyMessage d addr data poison) := fun _ _ h => nomatch h
theorem resyncCopyDone : Statement (.resyncCopyDone) := fun _ _ h => nomatch h
theorem resyncStateCopy : Statement (.resyncStateCopy) := fun _ _ h => nomatch h
theorem budgetCycle : Statement (.budgetCycle) := fun _ _ h => nomatch h
theorem budgetInputWrite (d : RSlot) : Statement (.budgetInputWrite d) := fun _ _ h => nomatch h
theorem diodeSample (die : Die) (deciC : Int) : Statement (.diodeSample die deciC) := fun _ _ h => nomatch h
theorem curdReportMissing (g : Nat) : Statement (.curdReportMissing g) := fun _ _ h => nomatch h
theorem graceExpire : Statement (.graceExpire) := fun _ _ h => nomatch h
theorem throttleDepthTick : Statement (.throttleDepthTick) := fun _ _ h => nomatch h
theorem activeGroupRechoose : Statement (.activeGroupRechoose) := fun _ _ h => nomatch h
theorem spindleRaiseWait : Statement (.spindleRaiseWait) := fun _ _ h => nomatch h
theorem raiseHoldExpire : Statement (.raiseHoldExpire) := fun _ _ h => nomatch h
theorem faultRaise (d : RSlot) (src : Nat) (detail : Nat) : Statement (.faultRaise d src detail) := fun _ _ h => nomatch h
theorem countWindowExpire (d : RSlot) (src : Nat) (quiet : Bool) : Statement (.countWindowExpire d src quiet) := fun _ _ h => nomatch h
theorem quietExpire : Statement (.quietExpire) := fun _ _ h => nomatch h
theorem writeOutTimeout : Statement (.writeOutTimeout) := fun _ _ h => nomatch h
theorem closeoutTimeout : Statement (.closeoutTimeout) := fun _ _ h => nomatch h
theorem logRecordProgrammed (good : Bool) : Statement (.logRecordProgrammed good) := fun _ _ h => nomatch h
theorem logSectorErased : Statement (.logSectorErased) := fun _ _ h => nomatch h
theorem logScanDone (d : RSlot) : Statement (.logScanDone d) := fun _ _ h => nomatch h
theorem logWriterTakeover : Statement (.logWriterTakeover) := fun _ _ h => nomatch h
theorem operatingMark (d : RSlot) : Statement (.operatingMark d) := fun _ _ h => nomatch h
theorem tallySnapshot (d : RSlot) : Statement (.tallySnapshot d) := fun _ _ h => nomatch h
theorem tallyCheck (d : RSlot) : Statement (.tallyCheck d) := fun _ _ h => nomatch h
theorem shockRelease : Statement (.shockRelease) := fun _ _ h => nomatch h
theorem paFltNRise (g : Nat) : Statement (.paFltNRise g) := fun _ _ h => nomatch h
theorem railRecovered (g : Nat) : Statement (.railRecovered g) := fun _ _ h => nomatch h

end Sys2Proof.Laws.NoWord
end

