-- ==== Sys2Proof/Laws/State.lean ====
section
/-! SUPPORT. Laws of State: each update leaves every other field, a register reads back what was stored, and what settling does to a state with
nothing left to do. -/

namespace Sys2Proof.Machine

@[simp] theorem State.part_setWord (s : State) (k : Nat) (w : Word) : (s.setWord k w).part = s.part := rfl
@[simp] theorem State.now_setWord (s : State) (k : Nat) (w : Word) : (s.setWord k w).now = s.now := rfl
@[simp] theorem State.free_setWord (s : State) (k : Nat) (w : Word) : (s.setWord k w).free = s.free := rfl
@[simp] theorem State.pending_setWord (s : State) (k : Nat) (w : Word) : (s.setWord k w).pending = s.pending := rfl
@[simp] theorem State.out_setWord (s : State) (k : Nat) (w : Word) : (s.setWord k w).out = s.out := rfl
@[simp] theorem State.todo_setWord (s : State) (k : Nat) (w : Word) : (s.setWord k w).todo = s.todo := rfl
@[simp] theorem State.f0_setWord (s : State) (k : Nat) (w : Word) : (s.setWord k w).f0 = s.f0 := rfl
@[simp] theorem State.f1_setWord (s : State) (k : Nat) (w : Word) : (s.setWord k w).f1 = s.f1 := rfl
@[simp] theorem State.curds_setWord (s : State) (k : Nat) (w : Word) : (s.setWord k w).curds = s.curds := rfl
@[simp] theorem State.flash_setWord (s : State) (k : Nat) (w : Word) : (s.setWord k w).flash = s.flash := rfl
@[simp] theorem State.fuses_setWord (s : State) (k : Nat) (w : Word) : (s.setWord k w).fuses = s.fuses := rfl
@[simp] theorem State.pins_setWord (s : State) (k : Nat) (w : Word) : (s.setWord k w).pins = s.pins := rfl
@[simp] theorem State.pmb_setWord (s : State) (k : Nat) (w : Word) : (s.setWord k w).pmb = s.pmb := rfl
@[simp] theorem State.boot_setWord (s : State) (k : Nat) (w : Word) : (s.setWord k w).boot = s.boot := rfl
@[simp] theorem State.session_setWord (s : State) (k : Nat) (w : Word) : (s.setWord k w).session = s.session := rfl
@[simp] theorem State.cmds_setWord (s : State) (k : Nat) (w : Word) : (s.setWord k w).cmds = s.cmds := rfl
@[simp] theorem State.comps_setWord (s : State) (k : Nat) (w : Word) : (s.setWord k w).comps = s.comps := rfl
@[simp] theorem State.nextUid_setWord (s : State) (k : Nat) (w : Word) : (s.setWord k w).nextUid = s.nextUid := rfl
@[simp] theorem State.nextIndex_setWord (s : State) (k : Nat) (w : Word) : (s.setWord k w).nextIndex = s.nextIndex := rfl
@[simp] theorem State.ports_setWord (s : State) (k : Nat) (w : Word) : (s.setWord k w).ports = s.ports := rfl
@[simp] theorem State.lines_setWord (s : State) (k : Nat) (w : Word) : (s.setWord k w).lines = s.lines := rfl
@[simp] theorem State.sched_setWord (s : State) (k : Nat) (w : Word) : (s.setWord k w).sched = s.sched := rfl
@[simp] theorem State.versions_setWord (s : State) (k : Nat) (w : Word) : (s.setWord k w).versions = s.versions := rfl
@[simp] theorem State.xlat_setWord (s : State) (k : Nat) (w : Word) : (s.setWord k w).xlat = s.xlat := rfl
@[simp] theorem State.mediaTables_setWord (s : State) (k : Nat) (w : Word) : (s.setWord k w).mediaTables = s.mediaTables := rfl
@[simp] theorem State.mediaCopies_setWord (s : State) (k : Nat) (w : Word) : (s.setWord k w).mediaCopies = s.mediaCopies := rfl
@[simp] theorem State.mediaClean_setWord (s : State) (k : Nat) (w : Word) : (s.setWord k w).mediaClean = s.mediaClean := rfl
@[simp] theorem State.runs_setWord (s : State) (k : Nat) (w : Word) : (s.setWord k w).runs = s.runs := rfl
@[simp] theorem State.hostLog_setWord (s : State) (k : Nat) (w : Word) : (s.setWord k w).hostLog = s.hostLog := rfl
@[simp] theorem State.budget_setWord (s : State) (k : Nat) (w : Word) : (s.setWord k w).budget = s.budget := rfl
@[simp] theorem State.spin_setWord (s : State) (k : Nat) (w : Word) : (s.setWord k w).spin = s.spin := rfl
@[simp] theorem State.part_wr (s : State) (die : Nat) (f : Fld) (v : Nat) : (s.wr die f v).part = s.part := rfl
@[simp] theorem State.now_wr (s : State) (die : Nat) (f : Fld) (v : Nat) : (s.wr die f v).now = s.now := rfl
@[simp] theorem State.free_wr (s : State) (die : Nat) (f : Fld) (v : Nat) : (s.wr die f v).free = s.free := rfl
@[simp] theorem State.pending_wr (s : State) (die : Nat) (f : Fld) (v : Nat) : (s.wr die f v).pending = s.pending := rfl
@[simp] theorem State.out_wr (s : State) (die : Nat) (f : Fld) (v : Nat) : (s.wr die f v).out = s.out := rfl
@[simp] theorem State.todo_wr (s : State) (die : Nat) (f : Fld) (v : Nat) : (s.wr die f v).todo = s.todo := rfl
@[simp] theorem State.f0_wr (s : State) (die : Nat) (f : Fld) (v : Nat) : (s.wr die f v).f0 = s.f0 := rfl
@[simp] theorem State.f1_wr (s : State) (die : Nat) (f : Fld) (v : Nat) : (s.wr die f v).f1 = s.f1 := rfl
@[simp] theorem State.curds_wr (s : State) (die : Nat) (f : Fld) (v : Nat) : (s.wr die f v).curds = s.curds := rfl
@[simp] theorem State.flash_wr (s : State) (die : Nat) (f : Fld) (v : Nat) : (s.wr die f v).flash = s.flash := rfl
@[simp] theorem State.fuses_wr (s : State) (die : Nat) (f : Fld) (v : Nat) : (s.wr die f v).fuses = s.fuses := rfl
@[simp] theorem State.pins_wr (s : State) (die : Nat) (f : Fld) (v : Nat) : (s.wr die f v).pins = s.pins := rfl
@[simp] theorem State.pmb_wr (s : State) (die : Nat) (f : Fld) (v : Nat) : (s.wr die f v).pmb = s.pmb := rfl
@[simp] theorem State.boot_wr (s : State) (die : Nat) (f : Fld) (v : Nat) : (s.wr die f v).boot = s.boot := rfl
@[simp] theorem State.session_wr (s : State) (die : Nat) (f : Fld) (v : Nat) : (s.wr die f v).session = s.session := rfl
@[simp] theorem State.cmds_wr (s : State) (die : Nat) (f : Fld) (v : Nat) : (s.wr die f v).cmds = s.cmds := rfl
@[simp] theorem State.comps_wr (s : State) (die : Nat) (f : Fld) (v : Nat) : (s.wr die f v).comps = s.comps := rfl
@[simp] theorem State.nextUid_wr (s : State) (die : Nat) (f : Fld) (v : Nat) : (s.wr die f v).nextUid = s.nextUid := rfl
@[simp] theorem State.nextIndex_wr (s : State) (die : Nat) (f : Fld) (v : Nat) : (s.wr die f v).nextIndex = s.nextIndex := rfl
@[simp] theorem State.ports_wr (s : State) (die : Nat) (f : Fld) (v : Nat) : (s.wr die f v).ports = s.ports := rfl
@[simp] theorem State.lines_wr (s : State) (die : Nat) (f : Fld) (v : Nat) : (s.wr die f v).lines = s.lines := rfl
@[simp] theorem State.sched_wr (s : State) (die : Nat) (f : Fld) (v : Nat) : (s.wr die f v).sched = s.sched := rfl
@[simp] theorem State.versions_wr (s : State) (die : Nat) (f : Fld) (v : Nat) : (s.wr die f v).versions = s.versions := rfl
@[simp] theorem State.xlat_wr (s : State) (die : Nat) (f : Fld) (v : Nat) : (s.wr die f v).xlat = s.xlat := rfl
@[simp] theorem State.mediaTables_wr (s : State) (die : Nat) (f : Fld) (v : Nat) : (s.wr die f v).mediaTables = s.mediaTables := rfl
@[simp] theorem State.mediaCopies_wr (s : State) (die : Nat) (f : Fld) (v : Nat) : (s.wr die f v).mediaCopies = s.mediaCopies := rfl
@[simp] theorem State.mediaClean_wr (s : State) (die : Nat) (f : Fld) (v : Nat) : (s.wr die f v).mediaClean = s.mediaClean := rfl
@[simp] theorem State.runs_wr (s : State) (die : Nat) (f : Fld) (v : Nat) : (s.wr die f v).runs = s.runs := rfl
@[simp] theorem State.hostLog_wr (s : State) (die : Nat) (f : Fld) (v : Nat) : (s.wr die f v).hostLog = s.hostLog := rfl
@[simp] theorem State.budget_wr (s : State) (die : Nat) (f : Fld) (v : Nat) : (s.wr die f v).budget = s.budget := rfl
@[simp] theorem State.spin_wr (s : State) (die : Nat) (f : Fld) (v : Nat) : (s.wr die f v).spin = s.spin := rfl
@[simp] theorem State.part_wrR (s : State) (d : RSlot) (f : Fld) (v : Nat) : (s.wrR d f v).part = s.part := rfl
@[simp] theorem State.now_wrR (s : State) (d : RSlot) (f : Fld) (v : Nat) : (s.wrR d f v).now = s.now := rfl
@[simp] theorem State.free_wrR (s : State) (d : RSlot) (f : Fld) (v : Nat) : (s.wrR d f v).free = s.free := rfl
@[simp] theorem State.pending_wrR (s : State) (d : RSlot) (f : Fld) (v : Nat) : (s.wrR d f v).pending = s.pending := rfl
@[simp] theorem State.out_wrR (s : State) (d : RSlot) (f : Fld) (v : Nat) : (s.wrR d f v).out = s.out := rfl
@[simp] theorem State.todo_wrR (s : State) (d : RSlot) (f : Fld) (v : Nat) : (s.wrR d f v).todo = s.todo := rfl
@[simp] theorem State.f0_wrR (s : State) (d : RSlot) (f : Fld) (v : Nat) : (s.wrR d f v).f0 = s.f0 := rfl
@[simp] theorem State.f1_wrR (s : State) (d : RSlot) (f : Fld) (v : Nat) : (s.wrR d f v).f1 = s.f1 := rfl
@[simp] theorem State.curds_wrR (s : State) (d : RSlot) (f : Fld) (v : Nat) : (s.wrR d f v).curds = s.curds := rfl
@[simp] theorem State.flash_wrR (s : State) (d : RSlot) (f : Fld) (v : Nat) : (s.wrR d f v).flash = s.flash := rfl
@[simp] theorem State.fuses_wrR (s : State) (d : RSlot) (f : Fld) (v : Nat) : (s.wrR d f v).fuses = s.fuses := rfl
@[simp] theorem State.pins_wrR (s : State) (d : RSlot) (f : Fld) (v : Nat) : (s.wrR d f v).pins = s.pins := rfl
@[simp] theorem State.pmb_wrR (s : State) (d : RSlot) (f : Fld) (v : Nat) : (s.wrR d f v).pmb = s.pmb := rfl
@[simp] theorem State.boot_wrR (s : State) (d : RSlot) (f : Fld) (v : Nat) : (s.wrR d f v).boot = s.boot := rfl
@[simp] theorem State.session_wrR (s : State) (d : RSlot) (f : Fld) (v : Nat) : (s.wrR d f v).session = s.session := rfl
@[simp] theorem State.cmds_wrR (s : State) (d : RSlot) (f : Fld) (v : Nat) : (s.wrR d f v).cmds = s.cmds := rfl
@[simp] theorem State.comps_wrR (s : State) (d : RSlot) (f : Fld) (v : Nat) : (s.wrR d f v).comps = s.comps := rfl
@[simp] theorem State.nextUid_wrR (s : State) (d : RSlot) (f : Fld) (v : Nat) : (s.wrR d f v).nextUid = s.nextUid := rfl
@[simp] theorem State.nextIndex_wrR (s : State) (d : RSlot) (f : Fld) (v : Nat) : (s.wrR d f v).nextIndex = s.nextIndex := rfl
@[simp] theorem State.ports_wrR (s : State) (d : RSlot) (f : Fld) (v : Nat) : (s.wrR d f v).ports = s.ports := rfl
@[simp] theorem State.lines_wrR (s : State) (d : RSlot) (f : Fld) (v : Nat) : (s.wrR d f v).lines = s.lines := rfl
@[simp] theorem State.sched_wrR (s : State) (d : RSlot) (f : Fld) (v : Nat) : (s.wrR d f v).sched = s.sched := rfl
@[simp] theorem State.versions_wrR (s : State) (d : RSlot) (f : Fld) (v : Nat) : (s.wrR d f v).versions = s.versions := rfl
@[simp] theorem State.xlat_wrR (s : State) (d : RSlot) (f : Fld) (v : Nat) : (s.wrR d f v).xlat = s.xlat := rfl
@[simp] theorem State.mediaTables_wrR (s : State) (d : RSlot) (f : Fld) (v : Nat) : (s.wrR d f v).mediaTables = s.mediaTables := rfl
@[simp] theorem State.mediaCopies_wrR (s : State) (d : RSlot) (f : Fld) (v : Nat) : (s.wrR d f v).mediaCopies = s.mediaCopies := rfl
@[simp] theorem State.mediaClean_wrR (s : State) (d : RSlot) (f : Fld) (v : Nat) : (s.wrR d f v).mediaClean = s.mediaClean := rfl
@[simp] theorem State.runs_wrR (s : State) (d : RSlot) (f : Fld) (v : Nat) : (s.wrR d f v).runs = s.runs := rfl
@[simp] theorem State.hostLog_wrR (s : State) (d : RSlot) (f : Fld) (v : Nat) : (s.wrR d f v).hostLog = s.hostLog := rfl
@[simp] theorem State.budget_wrR (s : State) (d : RSlot) (f : Fld) (v : Nat) : (s.wrR d f v).budget = s.budget := rfl
@[simp] theorem State.spin_wrR (s : State) (d : RSlot) (f : Fld) (v : Nat) : (s.wrR d f v).spin = s.spin := rfl
@[simp] theorem State.part_wrC (s : State) (g : Nat) (f : Fld) (v : Nat) : (s.wrC g f v).part = s.part := rfl
@[simp] theorem State.now_wrC (s : State) (g : Nat) (f : Fld) (v : Nat) : (s.wrC g f v).now = s.now := rfl
@[simp] theorem State.free_wrC (s : State) (g : Nat) (f : Fld) (v : Nat) : (s.wrC g f v).free = s.free := rfl
@[simp] theorem State.pending_wrC (s : State) (g : Nat) (f : Fld) (v : Nat) : (s.wrC g f v).pending = s.pending := rfl
@[simp] theorem State.out_wrC (s : State) (g : Nat) (f : Fld) (v : Nat) : (s.wrC g f v).out = s.out := rfl
@[simp] theorem State.todo_wrC (s : State) (g : Nat) (f : Fld) (v : Nat) : (s.wrC g f v).todo = s.todo := rfl
@[simp] theorem State.f0_wrC (s : State) (g : Nat) (f : Fld) (v : Nat) : (s.wrC g f v).f0 = s.f0 := rfl
@[simp] theorem State.f1_wrC (s : State) (g : Nat) (f : Fld) (v : Nat) : (s.wrC g f v).f1 = s.f1 := rfl
@[simp] theorem State.curds_wrC (s : State) (g : Nat) (f : Fld) (v : Nat) : (s.wrC g f v).curds = s.curds := rfl
@[simp] theorem State.flash_wrC (s : State) (g : Nat) (f : Fld) (v : Nat) : (s.wrC g f v).flash = s.flash := rfl
@[simp] theorem State.fuses_wrC (s : State) (g : Nat) (f : Fld) (v : Nat) : (s.wrC g f v).fuses = s.fuses := rfl
@[simp] theorem State.pins_wrC (s : State) (g : Nat) (f : Fld) (v : Nat) : (s.wrC g f v).pins = s.pins := rfl
@[simp] theorem State.pmb_wrC (s : State) (g : Nat) (f : Fld) (v : Nat) : (s.wrC g f v).pmb = s.pmb := rfl
@[simp] theorem State.boot_wrC (s : State) (g : Nat) (f : Fld) (v : Nat) : (s.wrC g f v).boot = s.boot := rfl
@[simp] theorem State.session_wrC (s : State) (g : Nat) (f : Fld) (v : Nat) : (s.wrC g f v).session = s.session := rfl
@[simp] theorem State.cmds_wrC (s : State) (g : Nat) (f : Fld) (v : Nat) : (s.wrC g f v).cmds = s.cmds := rfl
@[simp] theorem State.comps_wrC (s : State) (g : Nat) (f : Fld) (v : Nat) : (s.wrC g f v).comps = s.comps := rfl
@[simp] theorem State.nextUid_wrC (s : State) (g : Nat) (f : Fld) (v : Nat) : (s.wrC g f v).nextUid = s.nextUid := rfl
@[simp] theorem State.nextIndex_wrC (s : State) (g : Nat) (f : Fld) (v : Nat) : (s.wrC g f v).nextIndex = s.nextIndex := rfl
@[simp] theorem State.ports_wrC (s : State) (g : Nat) (f : Fld) (v : Nat) : (s.wrC g f v).ports = s.ports := rfl
@[simp] theorem State.lines_wrC (s : State) (g : Nat) (f : Fld) (v : Nat) : (s.wrC g f v).lines = s.lines := rfl
@[simp] theorem State.sched_wrC (s : State) (g : Nat) (f : Fld) (v : Nat) : (s.wrC g f v).sched = s.sched := rfl
@[simp] theorem State.versions_wrC (s : State) (g : Nat) (f : Fld) (v : Nat) : (s.wrC g f v).versions = s.versions := rfl
@[simp] theorem State.xlat_wrC (s : State) (g : Nat) (f : Fld) (v : Nat) : (s.wrC g f v).xlat = s.xlat := rfl
@[simp] theorem State.mediaTables_wrC (s : State) (g : Nat) (f : Fld) (v : Nat) : (s.wrC g f v).mediaTables = s.mediaTables := rfl
@[simp] theorem State.mediaCopies_wrC (s : State) (g : Nat) (f : Fld) (v : Nat) : (s.wrC g f v).mediaCopies = s.mediaCopies := rfl
@[simp] theorem State.mediaClean_wrC (s : State) (g : Nat) (f : Fld) (v : Nat) : (s.wrC g f v).mediaClean = s.mediaClean := rfl
@[simp] theorem State.runs_wrC (s : State) (g : Nat) (f : Fld) (v : Nat) : (s.wrC g f v).runs = s.runs := rfl
@[simp] theorem State.hostLog_wrC (s : State) (g : Nat) (f : Fld) (v : Nat) : (s.wrC g f v).hostLog = s.hostLog := rfl
@[simp] theorem State.budget_wrC (s : State) (g : Nat) (f : Fld) (v : Nat) : (s.wrC g f v).budget = s.budget := rfl
@[simp] theorem State.spin_wrC (s : State) (g : Nat) (f : Fld) (v : Nat) : (s.wrC g f v).spin = s.spin := rfl
@[simp] theorem State.part_emit (s : State) (o : Out) : (s.emit o).part = s.part := rfl
@[simp] theorem State.now_emit (s : State) (o : Out) : (s.emit o).now = s.now := rfl
@[simp] theorem State.free_emit (s : State) (o : Out) : (s.emit o).free = s.free := rfl
@[simp] theorem State.pending_emit (s : State) (o : Out) : (s.emit o).pending = s.pending := rfl
@[simp] theorem State.todo_emit (s : State) (o : Out) : (s.emit o).todo = s.todo := rfl
@[simp] theorem State.regs_emit (s : State) (o : Out) : (s.emit o).regs = s.regs := rfl
@[simp] theorem State.f0_emit (s : State) (o : Out) : (s.emit o).f0 = s.f0 := rfl
@[simp] theorem State.f1_emit (s : State) (o : Out) : (s.emit o).f1 = s.f1 := rfl
@[simp] theorem State.curds_emit (s : State) (o : Out) : (s.emit o).curds = s.curds := rfl
@[simp] theorem State.flash_emit (s : State) (o : Out) : (s.emit o).flash = s.flash := rfl
@[simp] theorem State.fuses_emit (s : State) (o : Out) : (s.emit o).fuses = s.fuses := rfl
@[simp] theorem State.pins_emit (s : State) (o : Out) : (s.emit o).pins = s.pins := rfl
@[simp] theorem State.pmb_emit (s : State) (o : Out) : (s.emit o).pmb = s.pmb := rfl
@[simp] theorem State.boot_emit (s : State) (o : Out) : (s.emit o).boot = s.boot := rfl
@[simp] theorem State.session_emit (s : State) (o : Out) : (s.emit o).session = s.session := rfl
@[simp] theorem State.cmds_emit (s : State) (o : Out) : (s.emit o).cmds = s.cmds := rfl
@[simp] theorem State.comps_emit (s : State) (o : Out) : (s.emit o).comps = s.comps := rfl
@[simp] theorem State.nextUid_emit (s : State) (o : Out) : (s.emit o).nextUid = s.nextUid := rfl
@[simp] theorem State.nextIndex_emit (s : State) (o : Out) : (s.emit o).nextIndex = s.nextIndex := rfl
@[simp] theorem State.ports_emit (s : State) (o : Out) : (s.emit o).ports = s.ports := rfl
@[simp] theorem State.lines_emit (s : State) (o : Out) : (s.emit o).lines = s.lines := rfl
@[simp] theorem State.sched_emit (s : State) (o : Out) : (s.emit o).sched = s.sched := rfl
@[simp] theorem State.versions_emit (s : State) (o : Out) : (s.emit o).versions = s.versions := rfl
@[simp] theorem State.xlat_emit (s : State) (o : Out) : (s.emit o).xlat = s.xlat := rfl
@[simp] theorem State.mediaTables_emit (s : State) (o : Out) : (s.emit o).mediaTables = s.mediaTables := rfl
@[simp] theorem State.mediaCopies_emit (s : State) (o : Out) : (s.emit o).mediaCopies = s.mediaCopies := rfl
@[simp] theorem State.mediaClean_emit (s : State) (o : Out) : (s.emit o).mediaClean = s.mediaClean := rfl
@[simp] theorem State.runs_emit (s : State) (o : Out) : (s.emit o).runs = s.runs := rfl
@[simp] theorem State.hostLog_emit (s : State) (o : Out) : (s.emit o).hostLog = s.hostLog := rfl
@[simp] theorem State.budget_emit (s : State) (o : Out) : (s.emit o).budget = s.budget := rfl
@[simp] theorem State.spin_emit (s : State) (o : Out) : (s.emit o).spin = s.spin := rfl
@[simp] theorem State.part_modRind (s : State) (d : RSlot) (h : RindDie → RindDie) : (s.modRind d h).part = s.part := by cases d <;> rfl
@[simp] theorem State.now_modRind (s : State) (d : RSlot) (h : RindDie → RindDie) : (s.modRind d h).now = s.now := by cases d <;> rfl
@[simp] theorem State.free_modRind (s : State) (d : RSlot) (h : RindDie → RindDie) : (s.modRind d h).free = s.free := by cases d <;> rfl
@[simp] theorem State.pending_modRind (s : State) (d : RSlot) (h : RindDie → RindDie) : (s.modRind d h).pending = s.pending := by cases d <;> rfl
@[simp] theorem State.out_modRind (s : State) (d : RSlot) (h : RindDie → RindDie) : (s.modRind d h).out = s.out := by cases d <;> rfl
@[simp] theorem State.todo_modRind (s : State) (d : RSlot) (h : RindDie → RindDie) : (s.modRind d h).todo = s.todo := by cases d <;> rfl
@[simp] theorem State.regs_modRind (s : State) (d : RSlot) (h : RindDie → RindDie) : (s.modRind d h).regs = s.regs := by cases d <;> rfl
@[simp] theorem State.curds_modRind (s : State) (d : RSlot) (h : RindDie → RindDie) : (s.modRind d h).curds = s.curds := by cases d <;> rfl
@[simp] theorem State.flash_modRind (s : State) (d : RSlot) (h : RindDie → RindDie) : (s.modRind d h).flash = s.flash := by cases d <;> rfl
@[simp] theorem State.fuses_modRind (s : State) (d : RSlot) (h : RindDie → RindDie) : (s.modRind d h).fuses = s.fuses := by cases d <;> rfl
@[simp] theorem State.pins_modRind (s : State) (d : RSlot) (h : RindDie → RindDie) : (s.modRind d h).pins = s.pins := by cases d <;> rfl
@[simp] theorem State.pmb_modRind (s : State) (d : RSlot) (h : RindDie → RindDie) : (s.modRind d h).pmb = s.pmb := by cases d <;> rfl
@[simp] theorem State.boot_modRind (s : State) (d : RSlot) (h : RindDie → RindDie) : (s.modRind d h).boot = s.boot := by cases d <;> rfl
@[simp] theorem State.session_modRind (s : State) (d : RSlot) (h : RindDie → RindDie) : (s.modRind d h).session = s.session := by cases d <;> rfl
@[simp] theorem State.cmds_modRind (s : State) (d : RSlot) (h : RindDie → RindDie) : (s.modRind d h).cmds = s.cmds := by cases d <;> rfl
@[simp] theorem State.comps_modRind (s : State) (d : RSlot) (h : RindDie → RindDie) : (s.modRind d h).comps = s.comps := by cases d <;> rfl
@[simp] theorem State.nextUid_modRind (s : State) (d : RSlot) (h : RindDie → RindDie) : (s.modRind d h).nextUid = s.nextUid := by cases d <;> rfl
@[simp] theorem State.nextIndex_modRind (s : State) (d : RSlot) (h : RindDie → RindDie) : (s.modRind d h).nextIndex = s.nextIndex := by cases d <;> rfl
@[simp] theorem State.ports_modRind (s : State) (d : RSlot) (h : RindDie → RindDie) : (s.modRind d h).ports = s.ports := by cases d <;> rfl
@[simp] theorem State.lines_modRind (s : State) (d : RSlot) (h : RindDie → RindDie) : (s.modRind d h).lines = s.lines := by cases d <;> rfl
@[simp] theorem State.sched_modRind (s : State) (d : RSlot) (h : RindDie → RindDie) : (s.modRind d h).sched = s.sched := by cases d <;> rfl
@[simp] theorem State.versions_modRind (s : State) (d : RSlot) (h : RindDie → RindDie) : (s.modRind d h).versions = s.versions := by cases d <;> rfl
@[simp] theorem State.xlat_modRind (s : State) (d : RSlot) (h : RindDie → RindDie) : (s.modRind d h).xlat = s.xlat := by cases d <;> rfl
@[simp] theorem State.mediaTables_modRind (s : State) (d : RSlot) (h : RindDie → RindDie) : (s.modRind d h).mediaTables = s.mediaTables := by cases d <;> rfl
@[simp] theorem State.mediaCopies_modRind (s : State) (d : RSlot) (h : RindDie → RindDie) : (s.modRind d h).mediaCopies = s.mediaCopies := by cases d <;> rfl
@[simp] theorem State.mediaClean_modRind (s : State) (d : RSlot) (h : RindDie → RindDie) : (s.modRind d h).mediaClean = s.mediaClean := by cases d <;> rfl
@[simp] theorem State.runs_modRind (s : State) (d : RSlot) (h : RindDie → RindDie) : (s.modRind d h).runs = s.runs := by cases d <;> rfl
@[simp] theorem State.hostLog_modRind (s : State) (d : RSlot) (h : RindDie → RindDie) : (s.modRind d h).hostLog = s.hostLog := by cases d <;> rfl
@[simp] theorem State.budget_modRind (s : State) (d : RSlot) (h : RindDie → RindDie) : (s.modRind d h).budget = s.budget := by cases d <;> rfl
@[simp] theorem State.spin_modRind (s : State) (d : RSlot) (h : RindDie → RindDie) : (s.modRind d h).spin = s.spin := by cases d <;> rfl
@[simp] theorem State.part_modCurd (s : State) (g : Nat) (h : CurdDie → CurdDie) : (s.modCurd g h).part = s.part := rfl
@[simp] theorem State.now_modCurd (s : State) (g : Nat) (h : CurdDie → CurdDie) : (s.modCurd g h).now = s.now := rfl
@[simp] theorem State.free_modCurd (s : State) (g : Nat) (h : CurdDie → CurdDie) : (s.modCurd g h).free = s.free := rfl
@[simp] theorem State.pending_modCurd (s : State) (g : Nat) (h : CurdDie → CurdDie) : (s.modCurd g h).pending = s.pending := rfl
@[simp] theorem State.out_modCurd (s : State) (g : Nat) (h : CurdDie → CurdDie) : (s.modCurd g h).out = s.out := rfl
@[simp] theorem State.todo_modCurd (s : State) (g : Nat) (h : CurdDie → CurdDie) : (s.modCurd g h).todo = s.todo := rfl
@[simp] theorem State.regs_modCurd (s : State) (g : Nat) (h : CurdDie → CurdDie) : (s.modCurd g h).regs = s.regs := rfl
@[simp] theorem State.f0_modCurd (s : State) (g : Nat) (h : CurdDie → CurdDie) : (s.modCurd g h).f0 = s.f0 := rfl
@[simp] theorem State.f1_modCurd (s : State) (g : Nat) (h : CurdDie → CurdDie) : (s.modCurd g h).f1 = s.f1 := rfl
@[simp] theorem State.flash_modCurd (s : State) (g : Nat) (h : CurdDie → CurdDie) : (s.modCurd g h).flash = s.flash := rfl
@[simp] theorem State.fuses_modCurd (s : State) (g : Nat) (h : CurdDie → CurdDie) : (s.modCurd g h).fuses = s.fuses := rfl
@[simp] theorem State.pins_modCurd (s : State) (g : Nat) (h : CurdDie → CurdDie) : (s.modCurd g h).pins = s.pins := rfl
@[simp] theorem State.pmb_modCurd (s : State) (g : Nat) (h : CurdDie → CurdDie) : (s.modCurd g h).pmb = s.pmb := rfl
@[simp] theorem State.boot_modCurd (s : State) (g : Nat) (h : CurdDie → CurdDie) : (s.modCurd g h).boot = s.boot := rfl
@[simp] theorem State.session_modCurd (s : State) (g : Nat) (h : CurdDie → CurdDie) : (s.modCurd g h).session = s.session := rfl
@[simp] theorem State.cmds_modCurd (s : State) (g : Nat) (h : CurdDie → CurdDie) : (s.modCurd g h).cmds = s.cmds := rfl
@[simp] theorem State.comps_modCurd (s : State) (g : Nat) (h : CurdDie → CurdDie) : (s.modCurd g h).comps = s.comps := rfl
@[simp] theorem State.nextUid_modCurd (s : State) (g : Nat) (h : CurdDie → CurdDie) : (s.modCurd g h).nextUid = s.nextUid := rfl
@[simp] theorem State.nextIndex_modCurd (s : State) (g : Nat) (h : CurdDie → CurdDie) : (s.modCurd g h).nextIndex = s.nextIndex := rfl
@[simp] theorem State.ports_modCurd (s : State) (g : Nat) (h : CurdDie → CurdDie) : (s.modCurd g h).ports = s.ports := rfl
@[simp] theorem State.lines_modCurd (s : State) (g : Nat) (h : CurdDie → CurdDie) : (s.modCurd g h).lines = s.lines := rfl
@[simp] theorem State.sched_modCurd (s : State) (g : Nat) (h : CurdDie → CurdDie) : (s.modCurd g h).sched = s.sched := rfl
@[simp] theorem State.versions_modCurd (s : State) (g : Nat) (h : CurdDie → CurdDie) : (s.modCurd g h).versions = s.versions := rfl
@[simp] theorem State.xlat_modCurd (s : State) (g : Nat) (h : CurdDie → CurdDie) : (s.modCurd g h).xlat = s.xlat := rfl
@[simp] theorem State.mediaTables_modCurd (s : State) (g : Nat) (h : CurdDie → CurdDie) : (s.modCurd g h).mediaTables = s.mediaTables := rfl
@[simp] theorem State.mediaCopies_modCurd (s : State) (g : Nat) (h : CurdDie → CurdDie) : (s.modCurd g h).mediaCopies = s.mediaCopies := rfl
@[simp] theorem State.mediaClean_modCurd (s : State) (g : Nat) (h : CurdDie → CurdDie) : (s.modCurd g h).mediaClean = s.mediaClean := rfl
@[simp] theorem State.runs_modCurd (s : State) (g : Nat) (h : CurdDie → CurdDie) : (s.modCurd g h).runs = s.runs := rfl
@[simp] theorem State.hostLog_modCurd (s : State) (g : Nat) (h : CurdDie → CurdDie) : (s.modCurd g h).hostLog = s.hostLog := rfl
@[simp] theorem State.budget_modCurd (s : State) (g : Nat) (h : CurdDie → CurdDie) : (s.modCurd g h).budget = s.budget := rfl
@[simp] theorem State.spin_modCurd (s : State) (g : Nat) (h : CurdDie → CurdDie) : (s.modCurd g h).spin = s.spin := rfl

@[simp] theorem State.out_emit (s : State) (o : Out) : (s.emit o).out = o :: s.out := rfl
@[simp] theorem State.curds_modCurd (s : State) (g : Nat) (h : CurdDie → CurdDie) : (s.modCurd g h).curds = modAt g h s.curds := rfl
@[simp] theorem State.rind_modRind (s : State) (d : RSlot) (h : RindDie → RindDie) : (s.modRind d h).rind d = h (s.rind d) := by cases d <;> rfl
@[simp] theorem State.rind_setWord (s : State) (k : Nat) (w : Word) (d : RSlot) : (s.setWord k w).rind d = s.rind d := by cases d <;> rfl
@[simp] theorem State.rind_wr (s : State) (die : Nat) (f : Fld) (v : Nat) (d : RSlot) : (s.wr die f v).rind d = s.rind d := by cases d <;> rfl
@[simp] theorem State.rind_wrR (s : State) (e : RSlot) (f : Fld) (v : Nat) (d : RSlot) : (s.wrR e f v).rind d = s.rind d := by cases d <;> rfl
@[simp] theorem State.rind_wrC (s : State) (g : Nat) (f : Fld) (v : Nat) (d : RSlot) : (s.wrC g f v).rind d = s.rind d := by cases d <;> rfl
@[simp] theorem State.rind_emit (s : State) (o : Out) (d : RSlot) : (s.emit o).rind d = s.rind d := by cases d <;> rfl
@[simp] theorem State.curd_setWord (s : State) (k : Nat) (w : Word) (g : Nat) : (s.setWord k w).curd g = s.curd g := rfl
@[simp] theorem State.curd_wr (s : State) (die : Nat) (f : Fld) (v g : Nat) : (s.wr die f v).curd g = s.curd g := rfl
@[simp] theorem State.curd_wrR (s : State) (d : RSlot) (f : Fld) (v g : Nat) : (s.wrR d f v).curd g = s.curd g := rfl
@[simp] theorem State.curd_wrC (s : State) (h : Nat) (f : Fld) (v g : Nat) : (s.wrC h f v).curd g = s.curd g := rfl
@[simp] theorem State.curd_emit (s : State) (o : Out) (g : Nat) : (s.emit o).curd g = s.curd g := rfl

theorem State.curd_modCurd (s : State) (g : Nat) (h : CurdDie → CurdDie) (hg : g < s.curds.length) : (s.modCurd g h).curd g = h (s.curd g) := by
  simp [State.curd, State.modCurd, modAt, List.getD, hg]

/-! ## Registers -/

theorem State.word_setWord_self {s : State} {k : Nat} {w : Word} (h : s.regsWf = true) : (s.setWord k w).word k = w :=
  Sparse.get_put_self k w h

theorem State.word_setWord_other {s : State} {k j : Nat} {w : Word} (h : j ≠ k) : (s.setWord k w).word j = s.word j :=
  Sparse.get_put_other w h

theorem State.regsWf_setWord {s : State} {k : Nat} {w : Word} (h : s.regsWf = true) : (s.setWord k w).regsWf = true :=
  Sparse.wf_put k w h

theorem State.regsWf_wr {s : State} {die : Nat} {f : Fld} {v : Nat} (h : s.regsWf = true) : (s.wr die f v).regsWf = true :=
  State.regsWf_setWord h

theorem State.regsWf_wrR {s : State} {d : RSlot} {f : Fld} {v : Nat} (h : s.regsWf = true) : (s.wrR d f v).regsWf = true :=
  State.regsWf_setWord h

theorem State.regsWf_wrC {s : State} {g : Nat} {f : Fld} {v : Nat} (h : s.regsWf = true) : (s.wrC g f v).regsWf = true :=
  State.regsWf_setWord h

theorem Fld.getLsbD_mask (f : Fld) (hf : f.lo ≤ f.hi ∧ f.hi < 32) (i : Nat) : f.mask.getLsbD i = decide (i < f.hi + 1 - f.lo) := by
  simp only [Fld.mask, BitVec.getLsbD_ofNat, Nat.testBit_two_pow_sub_one]
  by_cases h : i < f.hi + 1 - f.lo
  · simp [h]; omega
  · simp [h]

theorem Fld.testBit_get (f : Fld) (w : Word) (hf : f.lo ≤ f.hi ∧ f.hi < 32) (i : Nat) :
    (f.get w).testBit i = (decide (i < f.hi + 1 - f.lo) && w.getLsbD (f.lo + i)) := by
  rw [Fld.get, ← BitVec.getLsbD, BitVec.getLsbD_and, BitVec.getLsbD_ushiftRight, Fld.getLsbD_mask f hf, Bool.and_comm]

theorem Fld.getLsbD_put (f : Fld) (v : Nat) (w : Word) (hf : f.lo ≤ f.hi ∧ f.hi < 32) (i : Nat) :
    (f.put v w).getLsbD i = if f.lo ≤ i ∧ i ≤ f.hi then v.testBit (i - f.lo) else w.getLsbD i := by
  simp only [Fld.put, BitVec.getLsbD_or, BitVec.getLsbD_and, BitVec.getLsbD_not, BitVec.getLsbD_shiftLeft, Fld.getLsbD_mask f hf,
    BitVec.getLsbD_ofNat]
  by_cases h32 : i < 32
  · by_cases h : f.lo ≤ i ∧ i ≤ f.hi
    · have h1 : ¬ i < f.lo := by omega
      have h2 : i - f.lo < f.hi + 1 - f.lo := by omega
      have h3 : i - f.lo < 32 := by omega
      simp [h, h1, h2, h3, h32]
    · by_cases h1 : i < f.lo
      · simp [h, h1, h32]
      · have h2 : ¬ i - f.lo < f.hi + 1 - f.lo := by omega
        simp [h, h1, h2, h32]
  · have h : ¬ (f.lo ≤ i ∧ i ≤ f.hi) := by omega
    simp [h, h32, BitVec.getLsbD_of_ge w i (by omega)]

/-- A field reads back what was put into it, modulo its width. -/
theorem Fld.get_put_self (f : Fld) (v : Nat) (w : Word) (hf : f.lo ≤ f.hi ∧ f.hi < 32) : f.get (f.put v w) = v % 2 ^ (f.hi + 1 - f.lo) := by
  refine Nat.eq_of_testBit_eq fun i => ?_
  rw [Fld.testBit_get f _ hf, Fld.getLsbD_put f v w hf, Nat.testBit_mod_two_pow]
  by_cases h : i < f.hi + 1 - f.lo
  · have h1 : f.lo + i ≤ f.hi := by omega
    simp [h, h1]
  · simp [h]

/-- A field keeps its value when another field of its register is put. -/
theorem Fld.get_put_other (f g : Fld) (v : Nat) (w : Word) (hf : f.lo ≤ f.hi ∧ f.hi < 32) (hg : g.lo ≤ g.hi ∧ g.hi < 32)
    (h : f.hi < g.lo ∨ g.hi < f.lo) : g.get (f.put v w) = g.get w := by
  refine Nat.eq_of_testBit_eq fun i => ?_
  rw [Fld.testBit_get g _ hg, Fld.testBit_get g _ hg, Fld.getLsbD_put f v w hf]
  by_cases hi : i < g.hi + 1 - g.lo
  · have h1 : ¬ (f.lo ≤ g.lo + i ∧ g.lo + i ≤ f.hi) := by omega
    simp [h1]
  · simp [hi]
theorem Fld.get_lt (f : Fld) (w : Word) (hf : f.lo ≤ f.hi ∧ f.hi < 32) : f.get w < 2 ^ (f.hi + 1 - f.lo) := by
  refine Nat.lt_pow_two_of_testBit _ fun i hi => ?_
  rw [Fld.testBit_get f _ hf]
  have : ¬ i < f.hi + 1 - f.lo := by omega
  simp [this]

/-- The field lies in a 32-bit register at an offset of a die. -/
abbrev Fld.Ok (f : Fld) : Prop := f.lo ≤ f.hi ∧ f.hi < 32 ∧ f.off < 0x1000000

theorem regKey_inj {a b x y : Nat} (hx : x < 0x1000000) (hy : y < 0x1000000) (h : regKey a x = regKey b y) : a = b ∧ x = y := by
  unfold regKey at h
  omega

theorem State.rd_wr_self {s : State} {die : Nat} {f : Fld} {v : Nat} (h : s.regsWf = true) (hf : f.Ok) :
    (s.wr die f v).rd die f = v % 2 ^ (f.hi + 1 - f.lo) := by
  rw [State.rd, State.wr, State.word_setWord_self h, Fld.get_put_self f v _ ⟨hf.1, hf.2.1⟩]

/-- A field of another register, or of another die. -/
theorem State.rd_wr_other {s : State} {a b : Nat} {f g : Fld} {v : Nat} (hf : f.Ok) (hg : g.Ok) (h : a ≠ b ∨ f.off ≠ g.off) :
    (s.wr a f v).rd b g = s.rd b g := by
  rw [State.rd, State.wr, State.word_setWord_other, ← State.rd]
  intro e
  have := regKey_inj hg.2.2 hf.2.2 e
  omega

/-- Another field of any register. -/
theorem State.rd_wr_apart {s : State} {a b : Nat} {f g : Fld} {v : Nat} (w : s.regsWf = true) (hf : f.Ok) (hg : g.Ok)
    (h : f.off ≠ g.off ∨ f.hi < g.lo ∨ g.hi < f.lo) : (s.wr a f v).rd b g = s.rd b g := by
  by_cases e : a ≠ b ∨ f.off ≠ g.off
  · exact State.rd_wr_other hf hg e
  · obtain ⟨rfl, e'⟩ : a = b ∧ f.off = g.off := by omega
    rw [State.rd, State.wr, e', State.word_setWord_self w, Fld.get_put_other f g v _ ⟨hf.1, hf.2.1⟩ ⟨hg.1, hg.2.1⟩ (by omega), ← State.rd]

theorem RSlot.code_lt (d : RSlot) : d.code < 8 := by cases d <;> decide

theorem State.rdR_wrR_self {s : State} {d : RSlot} {f : Fld} {v : Nat} (h : s.regsWf = true) (hf : f.Ok) :
    (s.wrR d f v).rdR d f = v % 2 ^ (f.hi + 1 - f.lo) := State.rd_wr_self h hf

theorem State.rdR_wrR_apart {s : State} {d e : RSlot} {f g : Fld} {v : Nat} (w : s.regsWf = true) (hf : f.Ok) (hg : g.Ok)
    (h : f.off ≠ g.off ∨ f.hi < g.lo ∨ g.hi < f.lo) : (s.wrR d f v).rdR e g = s.rdR e g := State.rd_wr_apart w hf hg h

theorem State.rdR_wrR_die {s : State} {d e : RSlot} {f g : Fld} {v : Nat} (hf : f.Ok) (hg : g.Ok) (h : d ≠ e) :
    (s.wrR d f v).rdR e g = s.rdR e g := State.rd_wr_other hf hg (.inl (by cases d <;> cases e <;> simp_all [RSlot.code]))

theorem State.rdC_wrC_self {s : State} {i : Nat} {f : Fld} {v : Nat} (h : s.regsWf = true) (hf : f.Ok) :
    (s.wrC i f v).rdC i f = v % 2 ^ (f.hi + 1 - f.lo) := State.rd_wr_self h hf

theorem State.rdC_wrC_apart {s : State} {i j : Nat} {f g : Fld} {v : Nat} (w : s.regsWf = true) (hf : f.Ok) (hg : g.Ok)
    (h : f.off ≠ g.off ∨ f.hi < g.lo ∨ g.hi < f.lo) : (s.wrC i f v).rdC j g = s.rdC j g := State.rd_wr_apart w hf hg h

theorem State.rdR_wrC {s : State} {d : RSlot} {i : Nat} {f g : Fld} {v : Nat} (hf : f.Ok) (hg : g.Ok) : (s.wrC i f v).rdR d g = s.rdR d g :=
  State.rd_wr_other hf hg (.inl (by have := RSlot.code_lt d; unfold curdCode; omega))

theorem State.rdC_wrR {s : State} {d : RSlot} {i : Nat} {f g : Fld} {v : Nat} (hf : f.Ok) (hg : g.Ok) : (s.wrR d f v).rdC i g = s.rdC i g :=
  State.rd_wr_other hf hg (.inl (by have := RSlot.code_lt d; unfold curdCode; omega))

@[simp] theorem State.rd_emit (s : State) (o : Out) (die : Nat) (f : Fld) : (s.emit o).rd die f = s.rd die f := rfl
@[simp] theorem State.rdR_emit (s : State) (o : Out) (d : RSlot) (f : Fld) : (s.emit o).rdR d f = s.rdR d f := rfl
@[simp] theorem State.rdC_emit (s : State) (o : Out) (g : Nat) (f : Fld) : (s.emit o).rdC g f = s.rdC g f := rfl
@[simp] theorem State.rd_modRind (s : State) (d : RSlot) (h : RindDie → RindDie) (die : Nat) (f : Fld) :
    (s.modRind d h).rd die f = s.rd die f := by cases d <;> rfl
@[simp] theorem State.rdR_modRind (s : State) (d : RSlot) (h : RindDie → RindDie) (e : RSlot) (f : Fld) :
    (s.modRind d h).rdR e f = s.rdR e f := by cases d <;> rfl
@[simp] theorem State.rdC_modRind (s : State) (d : RSlot) (h : RindDie → RindDie) (g : Nat) (f : Fld) :
    (s.modRind d h).rdC g f = s.rdC g f := by cases d <;> rfl
@[simp] theorem State.rd_modCurd (s : State) (i : Nat) (h : CurdDie → CurdDie) (die : Nat) (f : Fld) :
    (s.modCurd i h).rd die f = s.rd die f := rfl
@[simp] theorem State.rdR_modCurd (s : State) (i : Nat) (h : CurdDie → CurdDie) (e : RSlot) (f : Fld) :
    (s.modCurd i h).rdR e f = s.rdR e f := rfl
@[simp] theorem State.rdC_modCurd (s : State) (i : Nat) (h : CurdDie → CurdDie) (g : Nat) (f : Fld) :
    (s.modCurd i h).rdC g f = s.rdC g f := rfl

/-! ## Settling -/

/-- A fold whose every step leaves the start as it is. -/
theorem foldl_fixed {α β : Type} {f : β → α → β} {b : β} {l : List α} (h : ∀ a ∈ l, f b a = b) : l.foldl f b = b := by
  induction l with
  | nil => rfl
  | cons a l ih =>
    rw [List.foldl_cons, h a (List.mem_cons_self ..)]
    exact ih (fun x hx => h x (List.mem_cons_of_mem a hx))

/-- Nothing is left to do: settling changes nothing. -/
theorem settle_quiet {s : State} (h : s.Quiet) : settle s = s := by
  obtain ⟨h1, h2, h3, h4⟩ := h
  have a : actAll 64 s = s := by simp [actAll, h1]
  have b : advanceReinit s = s := by simp [advanceReinit, h2]
  have c : endSingleDie s = s := by
    unfold endSingleDie
    split
    · next hf =>
      simp only [hf.1, hf.2, decide_true, Bool.and_self, Bool.not_true, Bool.false_or] at h4
      simp only [h4, if_true]
    · rfl
  have d : payLcws s = s := by
    unfold payLcws
    refine foldl_fixed (fun e he => foldl_fixed (fun n hn => ?_))
    have := List.all_eq_true.mp (List.all_eq_true.mp h3 e he) n hn
    simp only [Bool.not_eq_true'] at this
    simp only [this, Bool.false_eq_true, if_false]
  rw [settle, a, b, c, d, ← h1]

/-- A meaning leaves nothing to do. -/
theorem settle_todo (s : State) : (settle s).todo = [] := rfl

end Sys2Proof.Machine
end

