-- ==== Sys2Proof/WellFormed.lean ====
section
/-! DEFINITION. Which commands are well formed: every operand names a structure that the block has. A meaning is total all the same: a command
that names no structure changes nothing. -/

namespace Sys2Proof

/-- A head group, and the Curd slot that serves it (R1, R2). -/
def okGroup (g : Nat) : Bool := decide (g < 6)

/-- A host link head (R101). -/
def okHead (h : Nat) : Bool := decide (h < 4)

/-- A port (R128). -/
def okPort (p : Nat) : Bool := decide (p < 256)

/-- A tag: 16 bits of the descriptor. -/
def okTag (t : Nat) : Bool := decide (t < 65536)

/-- A host domain (R108). -/
def okDom (m : Nat) : Bool := decide (m < 16)

/-- A culture engine of a Rind die (R462). -/
def okEngine (e : Nat) : Bool := decide (e < 8)

/-- A Ladle channel of the 32 (R581). -/
def okChannel (c : Nat) : Bool := decide (c < 32)

/-- A DRAM channel of a Rind die (R394). -/
def okDram (c : Nat) : Bool := decide (c < 2)

/-- A Finvik link of a Rind die: 0 to 5 to the Curd dies, 6 the step link (R20). -/
def okLinkNo (n : Nat) : Bool := decide (n < 7)

/-- The width of a set-up access in bytes (R118). -/
def okWidth (w : Nat) : Bool := decide (w = 1 ∨ w = 2 ∨ w = 4 ∨ w = 8)

/-- A requester of set-up accesses (R122). -/
def okReq : Requester → Bool
  | .head h => okHead h
  | .ld h l => okHead h && decide (l < 16)
  | .sideband => true

/-- A culture engine of either kind (R462). -/
def okEng : Eng → Bool
  | .rind _ e => okEngine e
  | .curd g => okGroup g

/-- An end of a Finvik link (R20). -/
def okLink : LinkEnd → Bool
  | .rind _ n => okLinkNo n
  | .curd g _ => okGroup g

/-- A Finvik message: the widths of its header, and 0 to 128 words of payload (R24). -/
def okMsg (m : Msg) : Bool :=
  decide (m.cls < 15 ∧ m.src < 16 ∧ m.lseq < 65536 ∧ m.eseq < 2 ^ 32 ∧ m.payload.length ≤ 128)

/-- A STEP message carries up to six entries (R494). -/
def okStepMsg (m : StepMsg) : Bool := decide (m.entries.length ≤ 6)

/-- A die of the package (R2). -/
def okDie : Die → Bool
  | .rind _ => true
  | .curd g => okGroup g

/-- A requester of buffer memory (R433). -/
def okWho : AccWho → Bool
  | .engine e => okEngine e
  | .ladle c => okChannel c
  | .xlat | .host | .port => true

/-- A request port of a culture engine with a response (R470). -/
def okResp : RespPort → Bool
  | .handshake n => decide (n < 32)
  | .vat | .ladle | .memory => true

/-- A gate event names a surface of its group (R305). -/
def okGate (x : GateEv) : Bool := decide (x.surf < 4)

/-- A unit of the device (R552, R553). -/
def okUnit : RUnit → Bool
  | .engine e => okEngine e
  | .channel g | .formatter g | .press g => okGroup g
  | .portEngine | .scheduler | .translation | .vat | .cave | .bmem | .ladle | .budget | .spindle => true

/-- A watched handshake stage (R37). -/
def okStage : Stage → Bool
  | .enginePort _ e port => okEngine e && decide (port < 64)
  | .formatterPort g port => okGroup g && decide (port < 64)
  | .ladleChannel _ ch => okChannel ch
  | .command _ port tag => okPort port && okTag tag
  | .lane e => okLink e

/-- What a head found when it trained: the codes of LINK_HEADSTAT, and up to 16 logical devices (R4). -/
def okPartner (p : Partner) : Bool := decide (p.rate < 8 ∧ p.width < 8 ∧ p.lds < 65536)

/-- The operands of a command lie in the ranges of the structures they name. -/
def Instr.wf : Instr → Bool
  | .powerOnResetRelease _ _ => true
  | .powerOnResetEntry _ => true
  | .resetNFall => true
  | .resetNRise _ => true
  | .vinSample _ => true
  | .sagPauseEnd => true
  | .supplyHoldExpire => true
  | .supplyRestart => true
  | .perstAssert _ h => okHead h
  | .perstDeassert _ h => okHead h
  | .shockAssert => true
  | .shockHoldExpire g => okGroup g
  | .shockStuck g => okGroup g
  | .spdlimSample _ _ => true
  | .spdlimOpen => true
  | .spdlimValidPersist => true
  | .spdlimCeilingRaise => true
  | .testPortActive => true
  | .timebaseLost _ => true
  | .aliveToggle => true
  | .aliveTakeover => true
  | .railMonitorLow g _ => okGroup g
  | .pmbusOperation _ _ _ => true
  | .pmbusClearFaults _ _ => true
  | .pmbusVoutCommand _ _ => true
  | .pmbusStatusWord _ _ _ => true
  | .pmbusReadVout _ _ _ => true
  | .pmbusReadIout _ _ _ => true
  | .pmbusTakeover => true
  | .sfBusRequest _ => true
  | .sfBusGrant => true
  | .sbSetAddress at_ _ _ => decide (at_ < 128)
  | .sbReadWord at_ _ => decide (at_ < 128)
  | .sbWriteWord at_ _ _ => decide (at_ < 128)
  | .sbReadResult at_ _ => decide (at_ < 128)
  | .sbCoreTimeout _ => true
  | .startHeader _ => true
  | .linkFirstHandshake _ n => okLinkNo n
  | .startLoad _ => true
  | .curdImageLoad g => okGroup g
  | .startSettings _ => true
  | .startDigestExchange _ => true
  | .startMemorySpindle => true
  | .dramTrainingDone _ lanes => lanes.all (fun x => decide (x.read.length = 16 ∧ x.write.length = 16))
  | .dramFillDone _ => true
  | .headsRelease pins => decide (pins.perst < 256 ∧ pins.refclk < 256)
  | .startReady _ => true
  | .startWatchdogExpire => true
  | .thermalWaitEnd => true
  | .headerWriteDone _ => true
  | .finvikMessageReceive e m _ _ => okLink e && okMsg m
  | .lcwCreditAck e _ _ => okLink e
  | .lcwReplayRequest e _ _ => okLink e
  | .lcwResetReport e _ _ => okLink e
  | .lcwPeriodic e => okLink e
  | .linkDown _ n => okLinkNo n
  | .stepKeepalive _ => true
  | .stepLinkLost => true
  | .stallWatchFire s => okStage s
  | .headTrained _ h p => okHead h && okPartner p
  | .headDown _ h => okHead h
  | .cxlMemLoad _ r _ len => okReq r && decide (len ≤ 64)
  | .cxlMemStore _ r _ data => okReq r && decide (data.length ≤ 64)
  | .globalPersistentFlush _ h => okHead h
  | .setupWrite _ r _ width _ => okReq r && okWidth width
  | .rcRead _ r _ width => okReq r && okWidth width
  | .unlockWrite _ r addr _ => okReq r && decide (addr % 4 = 0)
  | .unlockArmLapse _ r addr => okReq r && decide (addr % 4 = 0)
  | .domcfgWrite _ r dom _ => okReq r && okDom dom
  | .portEnable _ r port _ => okReq r && okPort port
  | .portDisable _ r port _ => okReq r && okPort port
  | .statusLineAddressWrite _ r dom _ _ => okReq r && okDom dom
  | .caveEnable _ r _ => okReq r
  | .caveInv _ r _ => okReq r
  | .caveClean _ r _ => okReq r
  | .caveCleaninv _ r _ => okReq r
  | .caveMaintDone _ => true
  | .stepTurnnow _ r => okReq r
  | .stepResync _ r => okReq r
  | .faultUnlatch _ r => okReq r
  | .faultAbandon _ r => okReq r
  | .logFreeze _ r => okReq r
  | .logUnfreeze _ r => okReq r
  | .logFreezeLapse => true
  | .faultInjArm _ r _ => okReq r
  | .faultInjRaise _ r _ => okReq r
  | .faultInjCaveParity _ r _ => okReq r
  | .faultInjWithholdAck _ r _ => okReq r
  | .faultInjFinvikCrc _ r _ => okReq r
  | .faultInjDramSymbol _ r _ => okReq r
  | .doorbellSnoop _ port => okPort port
  | .doorbellReadComplete _ port lo hi => okPort port && decide (lo.length = 32 ∧ hi.length = 32)
  | .doorbellPoll _ port => okPort port
  | .doorbellBackstop _ => true
  | .doorbellReadTimeout _ port => okPort port
  | .fetchGrant descs => descs.all (fun x => decide (x.length = 64))
  | .descriptorFetchTimeout _ port => okPort port
  | .statusLineUpdate _ dom => okDom dom
  | .rewritePass _ => true
  | .read port => okPort port
  | .write port => okPort port
  | .append port => okPort port
  | .fence port => okPort port
  | .flush port => okPort port
  | .trim port => okPort port
  | .copy port => okPort port
  | .winmap port => okPort port
  | .abort port => okPort port
  | .invalidOpcode port => okPort port
  | .identify port => okPort port
  | .getLog port => okPort port
  | .getFeatures port => okPort port
  | .setFeaturesPowercap port => okPort port
  | .setFeaturesThermal port => okPort port
  | .setFeaturesTurning port => okPort port
  | .setFeaturesWindow port => okPort port
  | .setFeaturesRide port => okPort port
  | .setFeaturesFaultsev port => okPort port
  | .setFeaturesFaultclr port => okPort port
  | .volumeCreate port => okPort port
  | .volumeChange port => okPort port
  | .volumeDelete port => okPort port
  | .settingsSaveDone _ => true
  | .fwDownload port _ => okPort port
  | .fwChunkProgrammed _ => true
  | .fwSessionTimeout => true
  | .fwActivate port => okPort port
  | .commandTimeout port tag unit => okPort port && okTag tag && unit.all okUnit
  | .journalTimer => true
  | .cleaningStart g => okGroup g
  | .sectorRead g _ m => okGroup g && okMsg m
  | .sectorWrite g _ m => okGroup g && okMsg m
  | .sectorVerify g _ m => okGroup g && okMsg m
  | .sectorOldread g _ m => okGroup g && okMsg m
  | .sectorParity g _ m => okGroup g && okMsg m
  | .dataMessage e m => okLink e && okMsg m
  | .runStart g => okGroup g
  | .gatePost g ev _ => okGroup g && okGate ev
  | .gateEvent g _ => okGroup g
  | .sectorDecode g surf _ => okGroup g && decide (surf < 4)
  | .vaultRung g _ => okGroup g
  | .rebuild g _ => okGroup g
  | .readerSettled g => okGroup g
  | .rptSectorOutcome g eseq w0 w1 => okGroup g && decide (eseq < 2 ^ 32) && decide (w0 < 2 ^ 32) && decide (w1 < 2 ^ 32)
  | .rptRunEnd g eseq => okGroup g && decide (eseq < 2 ^ 32)
  | .rptShockEvent g _ => okGroup g
  | .rptSpindle _ _ _ _ => true
  | .rptCurdMismatch g cls _ eseq => okGroup g && decide (cls < 4) && decide (eseq < 2 ^ 32)
  | .rptDieReport g _ => okGroup g
  | .rptFault g _ _ => okGroup g
  | .curdDieReportTimer g => okGroup g
  | .spindleReportTimer => true
  | .spindleSetpoint _ m => okMsg m
  | .groupOrder g _ m => okGroup g && okMsg m
  | .endRuns g _ m => okGroup g && okMsg m
  | .retractOrder g => okGroup g
  | .curdSetupAccess _ g _ off _ => okGroup g && decide (off % 4 = 0)
  | .lease g _ w0 epoch => okGroup g && decide (w0 < 2 ^ 32) && decide (epoch < 2 ^ 32)
  | .leaseConfirm g _ epoch => okGroup g && decide (epoch < 2 ^ 32)
  | .leaseClaim g _ epoch => okGroup g && decide (epoch < 2 ^ 32)
  | .leaseKeepalive _ => true
  | .leaseAnswer _ g w0 epoch => okGroup g && decide (w0 < 2 ^ 32) && decide (epoch < 2 ^ 32)
  | .curdLinkSilent g _ => okGroup g
  | .synthLock g => okGroup g
  | .synthLockLoss g => okGroup g
  | .paFault g _ => okGroup g
  | .paFaultPersist g => okGroup g
  | .paFaultClear g => okGroup g
  | .preampWriteFrame g addr val => okGroup g && decide (addr < 128 ∧ val < 65536)
  | .preampReadFrame g addr val => okGroup g && decide (addr < 128 ∧ val < 65536)
  | .wedgeSample g _ => okGroup g
  | .innerLoopInstant g j _ _ => okGroup g && decide (j < 4)
  | .servoTargetRequest g surf _ => okGroup g && decide (surf < 4)
  | .servoStatusRead g => okGroup g
  | .loadStart g => okGroup g
  | .loadTimeout g => okGroup g
  | .loadStable g => okGroup g
  | .retractHoldExpire g => okGroup g
  | .unload g => okGroup g
  | .unloadComplete g => okGroup g
  | .linkAbsentUnload g => okGroup g
  | .pressHeartbeatLoss g => okGroup g
  | .pwmValley v => decide (v.vmot < 4096)
  | .overvoltageRelease => true
  | .speedLoopTick => true
  | .resistanceMeasured _ _ _ => true
  | .hdaReestimate _ => true
  | .cookPairChange _ => true
  | .cookCheck _ _ _ => true
  | .cookTimeout => true
  | .startDecision => true
  | .chopperTest dips rets => decide (dips.length = rets.length)
  | .floatEnd => true
  | .coastDone => true
  | .positionSensed _ => true
  | .handoverTimeout => true
  | .overcurrent => true
  | .vmotUndervoltage => true
  | .vmotRecovered => true
  | .spinHeartbeatLoss => true
  | .bmemReadComplete _ _ syms => decide (syms.length = 20)
  | .markWindowExpire _ c => okDram c
  | .mergeAgeExpire _ _ => true
  | .refreshDue _ c _ => okDram c
  | .refreshRatePoll _ c hot => okDram c && decide (hot.length ≤ 20)
  | .dramAlert _ c => okDram c
  | .pageIdle _ c _ => okDram c
  | .alloc _ _ _ _ => true
  | .share _ _ _ => true
  | .release _ _ => true
  | .free _ _ => true
  | .cancel _ _ => true
  | .caveRead _ who _ _ => okWho who
  | .caveWrite _ who _ _ => okWho who
  | .caveFillComplete _ _ => true
  | .evictionDrain _ => true
  | .ladleShadowWrite _ eng ch pair _ => okEngine eng && okChannel ch && decide (pair < 3)
  | .ladleArm _ eng ch => okEngine eng && okChannel ch
  | .ladleReadState _ eng ch => okEngine eng && okChannel ch
  | .sglEntryFetch _ ch block => okChannel ch && decide (block.length ≤ 64)
  | .ladleReadData _ ch _ => okChannel ch
  | .ladleDescriptorEnd _ ch => okChannel ch
  | .ladleBusError _ ch => okChannel ch
  | .isolationPass _ _ => true
  | .next e => okEng e
  | .jump e => okEng e
  | .branch e => okEng e
  | .call e => okEng e
  | .callc e => okEng e
  | .returnOp e => okEng e
  | .loop e => okEng e
  | .dispatch e => okEng e
  | .waitOp e => okEng e
  | .endOp e => okEng e
  | .eventPost e cls _ => okEng e && decide (cls < 16)
  | .responseArrival e p _ _ _ _ _ => okEng e && okResp p
  | .engineTimerExpire e => okEng e
  | .routineTimeout e => okEng e
  | .memLoad e _ => okEng e
  | .memStore e _ _ => okEng e
  | .mailboxPost _ _ _ => true
  | .finvikOpen e _ => okEng e
  | .finvikAppend e _ => okEng e
  | .finvikClose e => okEng e
  | .readCommandRecord _ eng port tag => okEngine eng && okPort port && okTag tag
  | .generateCompletion port tag => okPort port && okTag tag
  | .takeMediaOperation g _ => okGroup g
  | .releaseHazard port tag => okPort port && okTag tag
  | .xlatLookup eng vol _ => okEngine eng && decide (vol < 65536)
  | .xlatApplyChange _ => true
  | .caveMaintStart _ op _ => decide (op < 4)
  | .stepStateRead _ eng => okEngine eng
  | .budgetRead _ eng => okEngine eng
  | .vaultRungStart g _ rung => okGroup g && decide (rung < 9)
  | .readOutcome g _ => okGroup g
  | .stepMessage _ m => okStepMsg m
  | .stepProcess _ => true
  | .fwdMessage _ _ _ => true
  | .contentRequest _ => true
  | .digestBlockClose => true
  | .digestMessage _ block _ _ => decide (block < 2 ^ 32)
  | .digestOverdue _ block => decide (block < 2 ^ 32)
  | .turning => true
  | .claimRetry _ => true
  | .splitDeadline _ => true
  | .splitReinit => true
  | .copyMessage _ _ _ _ => true
  | .resyncCopyDone => true
  | .resyncStateCopy => true
  | .budgetCycle => true
  | .budgetInputWrite _ => true
  | .diodeSample die _ => okDie die
  | .curdReportMissing g => okGroup g
  | .graceExpire => true
  | .throttleDepthTick => true
  | .activeGroupRechoose => true
  | .spindleRaiseWait => true
  | .raiseHoldExpire => true
  | .faultRaise _ src _ => decide (src < 640)
  | .countWindowExpire _ src _ => decide (src < 640)
  | .quietExpire => true
  | .writeOutTimeout => true
  | .closeoutTimeout => true
  | .logRecordProgrammed _ => true
  | .logSectorErased => true
  | .logScanDone _ => true
  | .logWriterTakeover => true
  | .operatingMark _ => true
  | .tallySnapshot _ => true
  | .tallyCheck _ => true
  | .shockRelease => true
  | .paFltNRise g => okGroup g
  | .railRecovered g => okGroup g

end Sys2Proof
end

