-- ==== Sys2Proof/Tests/Slice0.lean ====
section
/-! SUPPORT. Tests: ill-formed commands that each check refuses, one small example of each family with values of the spec, and, for each
statement, states and operands that meet the hypotheses of each of its clauses, at the ends of their ranges. -/

namespace Sys2Proof.Tests

set_option Elab.async false

open Sys2Proof Sys2Proof.Machine

/-! ## States -/

abbrev Z : State := State.reset
/-- Power-on reset is released. -/
def powered : State := { Z with pins := { por := true } }
/-- A die has the flash bus at a phase of its start. -/
def starting (d : RSlot) (n : Nat) : State := (Z.wrR d R.BOOT_STAT_PHASE n).wrR d R.DEV_PINSTAT_SFOWN 1
/-- Both dies at READY. -/
def ready : State := (Z.wrR .f0 R.BOOT_STAT_PHASE 8).wrR .f1 R.BOOT_STAT_PHASE 8
/-- F0 drives the PMBus. -/
def pmbOwned : State := Z.wrR .f0 R.DEV_PINSTAT_PMBOWN 1
/-- A write gate on surface 0, track 0, position 0. -/
def gateW : GateEv := ⟨true, true, 0, 0, 0, 0, 0⟩
/-- A run of one sector. -/
def runOne (write : Bool) (st : SecStage) : CRun :=
  ⟨0, if write then 2 else 1, 0, 0, false, false, 1, 0, 0, 1, false, [],
   [{ surf := 0, zone := 0, track := 0, pos := 0, index := 0, write := write, stage := st }]⟩
/-- Domain 0 lies on head `h` of F0, which is up. -/
def headed (h : Nat) : State :=
  [(R.LINK_DOMCFG_EN 0, 1), (R.LINK_DOMCFG_ONF0 0, 1), (R.LINK_DOMCFG_HEAD 0, h), (R.LINK_HEADSTAT_STATE h, 2), (R.LINK_HEADCFG_MODE h, 1)].foldl
    (fun t p => t.wrR .f0 p.1 p.2) { Z with boot := { released := true } }
/-- Domain 0 has a window of 256 MiB from 256 MiB on, with access `w`. -/
def windowed (w : Nat) : State :=
  (((headed 0).wrR .f0 (R.LINK_DOMWIN_WACC 0) w).wrR .f0 (R.LINK_DOMWIN_SIZE 0) 1).wrR .f0 (R.LINK_DOMWIN_BASE 0) 1
/-- A signed image of one store section of each kind. -/
def imageOk : SlotImage := ⟨1, 1, true, true, [⟨1, 0, true, true, []⟩, ⟨2, 0, true, true, []⟩]⟩
/-- A section of an image, of a type: 2,048 bytes into the slot, empty, with the tag and the hash of an empty plaintext under a zero key and IV. -/
def secEntry (typ : Nat) : List Byte :=
  layBytes 96 [(0, natLe 2 typ), (4, natLe 4 0x800), 
    (24, natBe 16 0x530f8afbc74536b9a963b4f1c4cb738b), 
    (40, natBe 48 0x38b060a751ac96384cd9327eb1b1e36a21fdb71114be07434c0cc7bf63f6e1da274edebfe76f65fbd51ad2f14898b95b)]
/-- An image signed with the key 1, and so with the base point as its public key. -/
def imageBytes : List Byte :=
  layBytes 0x760 [(0, natLe 4 0x54534E4D), (4, natLe 2 1), (6, natLe 2 1), (8, natLe 4 1), (12, natLe 2 2), (0x10, natBe 48 g384.1), (0x40, natBe 48 g384.2),
    (0x70, secEntry 1), (0xD0, secEntry 2), 
    (0x700, natBe 48 0x08d999057ba3d2d969260045c55b97f089025959a6f434d651d207d19fb96e9e4fe0e86ebe0e64f85b96a9c75295df61),
    (0x730, natBe 48 0xd8712c8e28ded73b48951ffe7bcc54ef77c2606baa25888a1a7fe877b4c4b5cbec7f8267d93912f321a257881a597b6d)]
/-- Fuses with the hash of that key, a zero image key and a security version. -/
def fusesOf (svn : Nat) : Fuses :=
  { vendorHash := some (natBe 48
      0xa19d4db171b582eb8052b0cfe555e17894aa22d1c8a9770950697dd8f796d2fa4bf0a56ad80006b7ea08e1191f814b65)
    imageKey := List.replicate 32 0, svn := svn, parityOk := true }
theorem ofBytes_congr (f k : Fuses) (l : List Byte) (h : f.vendorHash = k.vendorHash) (h' : f.imageKey = k.imageKey) :
    SlotImage.ofBytes f l = SlotImage.ofBytes k l := by
  have hs (e : List Byte) : ImgSection.ofBytes f l e = ImgSection.ofBytes k l e := by simp only [ImgSection.ofBytes, sectionPlain, h']
  simp only [SlotImage.ofBytes, h, hs]
theorem image_read_zero : SlotImage.ofBytes (fusesOf 0) imageBytes = some imageOk := by decide +kernel
theorem image_read (n : Nat) : SlotImage.ofBytes (fusesOf n) imageBytes = some imageOk :=
  (ofBytes_congr (fusesOf n) (fusesOf 0) imageBytes rfl rfl).trans image_read_zero
/-- An image whose sections lie outside the rules, under a key that is not the vendor's. -/
def imageBadBytes : List Byte := layBytes 0x70 [(0, natLe 4 0x54534E4D), (4, natLe 2 1), (6, natLe 2 1), (12, natLe 2 1)]
def imageBad : SlotImage := ⟨1, 0, false, false, [⟨65535, 65535, false, true, []⟩]⟩
/-- Every Finvik link is up. -/
def linked : State :=
  let up (l : List FvEnd) := l.map (fun e => { e with up := true })
  { Z with f0 := { Z.f0 with links := up Z.f0.links }, f1 := { Z.f1 with links := up Z.f1.links },
           curds := Z.curds.map (fun c => { c with ends := up c.ends }) }
/-- A board record at the edges of its ranges. -/
def boardOk : Board :=
  { vdiv := 60000, vphdiv := 2000, polePairs := 12, pwmKhz := 50, ke := 100, ls := 10, isnfs := 500, ilim := 400, istart := 100, accLim := 60,
    vmotUv := 7000, vchop := 7001, vbrk1 := 7002, vbrk2 := 7003, chopDip := 10, openCeil := 7200, tStart := -400, cookPwr := 1, deadNs := 5,
    cookMax := 10 }
/-- The records that a start needs. -/
def startRecs : List SetRec :=
  [{ typ := 1, raw := layBytes 44 [(0, natLe 4 60000), (4, natLe 4 2000), (10, natLe 1 12), (11, natLe 1 50), (12, natLe 2 100), (14, natLe 2 10), (16, natLe 2 500),
      (18, natLe 2 400), (20, natLe 2 100), (22, natLe 2 60), (24, natLe 2 7000), (26, natLe 2 7001), (28, natLe 2 7002), (30, natLe 2 7003), (32, natLe 2 10),
      (34, natLe 2 7200), (36, natLe 2 (65536 - 400)), (38, natLe 1 1), (39, natLe 1 5), (40, natLe 2 10)] },
   { typ := 8, raw := layBytes 16 [(1, natLe 1 1), (3, natLe 1 22), (4, natLe 1 16), (5, natLe 1 16), (6, natLe 2 24), (8, natLe 2 195), (10, natLe 2 115)] }]
/-- A settings copy with those records. -/
def settingsOk : Settings := Settings.make 0 startRecs
/-- FW_DOWNLOAD of 4 KiB at an offset. -/
def dlAt (off : Nat) : List (Nat × Nat × Nat) := [(0, 1, 0x84), (8, 4, off), (0xC, 4, 4096)]
/-- The expert pages of blocks are open on both dies. -/
def opened (l : List Nat) : State := (Z.modRind .f0 (fun r => { r with opened := l })).modRind .f1 (fun r => { r with opened := l })
/-- A port runs, with hoops of 64 slots; eight completions of it are released. -/
def running (p : Nat) : State :=
  [(R.PORT_STAT_STATE p, 1), (R.PORT_SIZE_SQSIZE p, 64), (R.PORT_SIZE_CQSIZE p, 64), (R.PORT_CQSTAT_CQTAIL p, 63)].foldl
    (fun t x => (t.wrR .f0 x.1 x.2).wrR .f1 x.1 x.2) Z
/-- A Curd die holds a message of a Rind slot. -/
def heldC (g : Nat) (d : RSlot) (m : Msg) (s : State) : State :=
  s.modCurd g (fun c => { c with ends := c.ends.modify d.code (fun e => { e with rx := e.rx.modify m.cls (fun r => { r with held := [m] }) }) })
def cLinked (s : State) : State := { s with curds := s.curds.map (fun c => { c with ends := c.ends.map (fun e => { e with up := true }) }) }
/-- A descriptor: values of a length at offsets, 0 elsewhere. -/
def descOf (l : List (Nat × Nat × Nat)) : List Byte := l.foldl (fun b x => overBytes b x.1 (natLe x.2.1 x.2.2)) (List.replicate 64 0)
/-- A fetched command of port 0. -/
def cmdOf (l : List (Nat × Nat × Nat)) : Cmd := { uid := 0, port := 0, tag := 0, sqidx := 0, desc := descOf l }
def zone0 : Zone := { first := 0, tracks := 5, spt := 70000, skew := 0, shingled := false, guard := 0 }
/-- Volume 0 is a Data volume of one unit, volume 1 a Stream volume of two bands whose first is open; group 0 has four slots, port 0 is an admin
port, and domain 0 may set up the device and has a window. -/
def stored : State :=
  let s : State := { windowed 2 with
    boot := { zones := [some { zones := [zone0] }], released := true }
    xlat := { t := { vols := [(0, { desc := ⟨1, false, false, 63, 1, 1, 1, []⟩ }), (1, { desc := ⟨2, false, false, 63, 2, 1, 1, []⟩ })],
                     bands := [{ slot := ⟨0, 0, 0⟩, state := .inUse, vol := 0, live := [65535] }, { slot := ⟨0, 0, 1⟩, state := .opened, vol := 1 }] } } }
  [(R.PORT_CFG_ADMIN 0, 1), (R.LINK_DOMCFG_SETUP 0, 2), (R.DEV_DIEPRES_CPRES, 1)].foldl (fun t p => (t.wrR .f0 p.1 p.2).wrR .f1 p.1 p.2) s
/-- Commands of port 0 wait for admission. -/
def fetched (l : List Cmd) : State := { stored with cmds := l }
def readC : Cmd := cmdOf [(0, 1, 1), (8, 8, 65535), (0x10, 4, 1), (0x20, 4, 4096)]
/-- The same command whose tag was outstanding at fetch. -/
def dupOf (op : Nat) : Cmd := { cmdOf [(0, 1, op)] with dup := true }
/-- SET_FEATURES of a feature, with an index and bytes of VALUE; SAVE is set. -/
def setF (fid i : Nat) (l : List (Nat × Nat × Nat)) : Cmd := cmdOf ([(0, 1, 0x83), (1, 1, 0x40), (8, 1, fid), (0xA, 2, i)] ++ l)
/-- A READ whose data have all been moved. -/
def readDone : Cmd := { readC with phase := .admitted, moved := [(0, 4096)] }
/-- A version of block 65535 of volume 0. -/
def oneVersion : Version := ⟨0, 65535, 0, 0, 0, false, true, false, 0, false, [], false⟩
/-- An admin port runs with one descriptor to fetch. -/
def adminPort (p : Nat) : State :=
  [(R.PORT_CFG_ADMIN p, 1), (R.PORT_STAT_STATE p, 1), (R.PORT_SIZE_SQSIZE p, 2), (R.PORT_STAT_SQTAIL p, 1), (R.SCHED_CFG_BURST, 8),
   (R.LINK_DOMCFG_EN 0, 1), (R.LINK_DOMCFG_ONF0 0, 1), (R.LINK_HEADSTAT_STATE 0, 2)].foldl
    (fun t x => (t.wrR .f0 x.1 x.2).wrR .f1 x.1 x.2) Z
/-- Every Finvik link is up, and every class has a credit. -/
def credited : State :=
  let give (l : List FvEnd) := l.map (fun e => { e with up := true, tx := e.tx.map (fun t => { t with credits := 1 }) })
  { Z with f0 := { Z.f0 with links := give Z.f0.links }, f1 := { Z.f1 with links := give Z.f1.links },
           curds := Z.curds.map (fun c => { c with ends := give c.ends }) }
/-- A message of a sector command, with its command in the first word. -/
def sectorMsg (op : Nat) : Msg := ⟨0, 0, 0, 0, [BitVec.ofNat 32 (op * 2 ^ 28), 0, 0x00200000, 0]⟩
def secOne (write : Bool) (st : SecStage) : Sec := { surf := 0, zone := 0, track := 0, pos := 0, index := 0, write := write, stage := st }
/-- The formatter of C0 runs one sector. -/
def runningSec (write : Bool) (st : SecStage) : State := modFmt 0 (fun f => { f with runs := [runOne write st] }) Z
/-- The step logic of a die. -/
def stepAt (d : RSlot) (x : StepLogic) : State := modStep d (fun _ => x) Z
def wedge0 : Wedge := ⟨[], 0, 0, 0, 0, 0, 0, 0, 0, 0, 0, 0, false⟩
/-- The spindle keeper of C0 is free to drive, in a state. -/
def spun (st : Nat) (p : Spin) : State := { Z.wrC 0 R.SPIN_STAT_STATE st with spin := { p with begun := true, heldLow := false } }
/-- A calibration whose resistances are measured at 25 degrees. -/
def cal0 : HdaCal := { resab := 1000000, resbc := 1000000, resca := 1000000, tcal := 2500, alpha := 3930 }
/-- Buffer 0 of pool 3 of F0 is held `n` times. -/
def buffered (n last : Nat) : State :=
  (Z.wrR .f0 (R.VAT_POOLCFG_COUNT 3) 1).modRind .f0 (fun r => { r with vat := { bufs := [⟨3, 0, 255, some (n, last)⟩] } })
/-- A channel of F0 runs a descriptor with this control word and length. -/
def ladling (ch ctl len : Nat) : State :=
  [(R.LADLE_CHSTAT_STATE ch, chActive), (R.LADLE_ACT5_W ch, ctl), (R.LADLE_ACT4_W ch, len), (R.LADLE_SHD5_W ch, ctl), (R.LADLE_SHD4_W ch, len)].foldl
    (fun t p => t.wrR .f0 p.1 p.2) Z
/-- An engine of F0 stands on a word, with a call stack. -/
def onWord (pc : Nat) (w : MicroWord) (l : List Nat) : State :=
  setEngState (.rind .f0 7) engRunning <| setPc (.rind .f0 7) pc (modEng (.rind .f0 7) (fun g => { g with stack := l }) (Z.modRind .f0 (fun r => { r with store := { words := [(pc, w)] } })))
/-- The formatter of C5 stands on a word, with a call stack. -/
def onWordC (pc : Nat) (w : MicroWord) (l : List Nat) : State :=
  setEngState (.curd 5) engRunning <| setPc (.curd 5) pc (modEng (.curd 5) (fun g => { g with stack := l }) (Z.modCurd 5 (fun c => { c with store := { words := [(pc, w)] } })))
/-- A word with this NAC. -/
def wordNac (n : Nat) : MicroWord := BitVec.ofNat 144 (n * 2 ^ 140)
def oneEvent : EngEvent := ⟨0, 0, 0, 0⟩
def recOf (sev : Nat) : LogRec := ⟨0, 0, 0, sev, true, false, 1, 0, 0, 0, 0, 0, []⟩
/-- A staged record on the flash owner, and a log ring. -/
def staging (sev : Nat) (l : List LogSector) : State :=
  Z.modRind .f0 (fun r => { r with island := { queue := [recOf sev], scanned := true } }) |> fun s => { s with flash := { log := l } }
/-- Source 1 of the fault collector on F0: severity and counting. -/
def sourced (sev cnt : Nat) : State := (Z.wrR .f0 (R.FAULT_SRCCFG_SEV 1) sev).wrR .f0 (R.FAULT_SRCCFG_COUNTED 1) cnt
/-- The payload words of a sector's nine DATA messages. -/
def writtenData : List (List Word) := List.replicate 8 (List.replicate 128 0) ++ [[0, 0, 0, 0]]
/-- C0 has received the data of one sector to be written, under a single lease. -/
def written : State := modFmt 0 (fun f => { f with data := [(.f0, 0, writtenData)], runs := [runOne true .waiting] }) (stored.wrC 0 R.CDIE_LEASE_SINGLE 1)
theorem written_zone : written.groupZone 0 0 0 = some zone0 := by decide +kernel
theorem written_single : written.single 0 = true := by decide +kernel
theorem written_holder : written.holder 0 = .f0 := by decide +kernel
theorem written_bytes :
    written.secBytes 0 (runOne true .waiting) (secOne true .waiting) = some (writtenData.flatMap (fun p => p.flatMap wordBytes)) := by
  have hr : (written.fmt 0).received .f0 (dataEseq 0 0) = some writtenData := by decide +kernel
  have hw : written.writeData 0 0 0 = some (writtenData.flatMap (fun p => p.flatMap wordBytes)) := by
    simp [State.writeData, written_single, written_holder, hr]
  have hp : ¬ (zone0.isParity 0 = true ∧ ((2 : Nat) = 5 ∨ false = true)) := by decide +kernel
  unfold State.secBytes
  rw [show written.groupZone 0 (secOne true .waiting).surf (secOne true .waiting).zone = _ from written_zone]
  exact (if_neg hp).trans hw
theorem written_length : (writtenData.flatMap (fun p => p.flatMap wordBytes)).length = 4112 := by
  have h (w : Word) : (wordBytes w).length = 4 := rfl
  have g (p : List Word) : (p.flatMap wordBytes).length = 4 * p.length := by
    induction p with
    | nil => rfl
    | cons a l ih => simp [List.flatMap_cons, h, ih]; omega
  rw [List.length_flatMap]
  simp only [g]
  decide +kernel
/-- Port 255 is enabled. -/
def enabled255 : State :=
  [(R.PORT_CFG_EN 255, 1), (R.PORT_CFG_POLLINT 255, 1)].foldl (fun t x => (t.wrR .f0 x.1 x.2).wrR .f1 x.1 x.2) Z
/-- An entry of the vault whose reader 0 carries a flag on bit 1. -/
def flaggedEntry (readers : List Nat) : VEntry :=
  { id := 0, surf := 0, track := 0, pos := 0, zone := 0, mode := 3, rpm := 0, cap := ⟨[]⟩, flags := readers.map (fun k => (k, 1, 2)) }
/-- Step 15 may follow: the spindle at speed, and no Rind die reaches a Curd die. -/
def atReady : State :=
  ((Z.wrR .f0 R.BOOT_STAT_PHASE 7).wrC 0 R.SPIN_STAT_STATE spRunning |> fun s => (s.wrC 0 R.SPIN_TARGET_APPLIED 7200).wrC 0 R.SPIN_STAT_RPM 7170)
/-- FW_ACTIVATE waits, with the image in slot B and a security version in the fuses. -/
def withImage (n : Nat) : State := { fetched [cmdOf [(0, 1, 0x85)]] with flash := { slotB := imageBytes }, fuses := fusesOf n }
theorem slot_image (n : Nat) : (withImage n).slotImage (withImage n).targetSlot = some imageOk := by
  have h : (withImage n).targetSlot = 1 := by
    have e : (withImage 0).targetSlot = 1 := by decide +kernel
    exact e
  rw [h]
  exact image_read n

/-! ## Ill-formed commands -/

theorem test_wf_group : (Instr.shockHoldExpire 6).wf = false := by decide +kernel
theorem test_wf_head : (Instr.perstAssert .f0 4).wf = false := by decide +kernel
theorem test_wf_port : (Instr.doorbellSnoop .f0 256).wf = false := by decide +kernel
theorem test_wf_tag : (Instr.releaseHazard 0 65536).wf = false := by decide +kernel
theorem test_wf_domain : (Instr.statusLineUpdate .f0 16).wf = false := by decide +kernel
theorem test_wf_engine : (Instr.next (.rind .f0 8)).wf = false := by decide +kernel
theorem test_wf_engine_curd : (Instr.next (.curd 6)).wf = false := by decide +kernel
theorem test_wf_channel : (Instr.ladleReadData .f0 32 []).wf = false := by decide +kernel
theorem test_wf_dram : (Instr.dramAlert .f0 2).wf = false := by decide +kernel
theorem test_wf_link : (Instr.linkDown .f0 7).wf = false := by decide +kernel
theorem test_wf_width : (Instr.setupWrite .f0 .sideband 0 3 0).wf = false := by decide +kernel
theorem test_wf_requester : (Instr.setupWrite .f0 (.head 4) 0 4 0).wf = false := by decide +kernel
theorem test_wf_logical_device : (Instr.setupWrite .f0 (.ld 0 16) 0 4 0).wf = false := by decide +kernel
theorem test_wf_link_end : (Instr.lcwPeriodic (.rind .f0 7)).wf = false := by decide +kernel
theorem test_wf_link_end_curd : (Instr.lcwPeriodic (.curd 6 .f0)).wf = false := by decide +kernel
theorem test_wf_message_class : (Instr.sectorRead 0 .f0 ⟨15, 0, 0, 0, []⟩).wf = false := by decide +kernel
theorem test_wf_message_length : (Instr.sectorRead 0 .f0 ⟨0, 0, 0, 0, List.replicate 129 0⟩).wf = false := by decide +kernel
theorem test_wf_step_message : (Instr.stepMessage .f0 ⟨0, 0, List.replicate 7 ⟨0, false, 0, 0⟩, false⟩).wf = false := by decide +kernel
theorem test_wf_die : (Instr.diodeSample (.curd 6) 0).wf = false := by decide +kernel
theorem test_wf_buffer_requester : (Instr.caveRead .f0 (.ladle 32) 0 false).wf = false := by decide +kernel
theorem test_wf_response_port : (Instr.responseArrival (.rind .f0 0) (.handshake 32) 0 true false false false).wf = false := by decide +kernel
theorem test_wf_gate : (Instr.gatePost 0 ⟨true, true, 0, 0, 4, 0, 0⟩ false).wf = false := by decide +kernel
theorem test_wf_unit : (Instr.commandTimeout 0 0 (some (.press 6))).wf = false := by decide +kernel
theorem test_wf_stage : (Instr.stallWatchFire (.enginePort .f0 0 64)).wf = false := by decide +kernel
theorem test_wf_partner : (Instr.headTrained .f0 0 ⟨8, 0, true, 0, []⟩).wf = false := by decide +kernel
theorem test_wf_smbus : (Instr.sbReadWord 128 true).wf = false := by decide +kernel
theorem test_wf_lanes : (Instr.dramTrainingDone .f0 [⟨[], []⟩]).wf = false := by decide +kernel
theorem test_wf_perst : (Instr.headsRelease ⟨256, 0⟩).wf = false := by decide +kernel
theorem test_wf_load_length : (Instr.cxlMemLoad .f0 (.head 0) 0 65).wf = false := by decide +kernel
theorem test_wf_store_length : (Instr.cxlMemStore .f0 (.head 0) 0 (List.replicate 65 0)).wf = false := by decide +kernel
theorem test_wf_unlock_address : (Instr.unlockWrite .f0 .sideband 2 0).wf = false := by decide +kernel
theorem test_wf_doorbell_line : (Instr.doorbellReadComplete .f0 0 [0] []).wf = false := by decide +kernel
theorem test_wf_descriptor : (Instr.fetchGrant [[0]]).wf = false := by decide +kernel
theorem test_wf_report_word : (Instr.rptSectorOutcome 0 0 (2 ^ 32) 0).wf = false := by decide +kernel
theorem test_wf_report_class : (Instr.rptCurdMismatch 0 4 .f0 0).wf = false := by decide +kernel
theorem test_wf_window_offset : (Instr.curdSetupAccess .f0 0 true 2 0).wf = false := by decide +kernel
theorem test_wf_lease_epoch : (Instr.lease 0 .f0 0 (2 ^ 32)).wf = false := by decide +kernel
theorem test_wf_preamp_address : (Instr.preampWriteFrame 0 128 0).wf = false := by decide +kernel
theorem test_wf_inner_loop : (Instr.innerLoopInstant 0 4 0 0).wf = false := by decide +kernel
theorem test_wf_surface : (Instr.servoTargetRequest 0 4 0).wf = false := by decide +kernel
theorem test_wf_chopper : (Instr.chopperTest [1] []).wf = false := by decide +kernel
theorem test_wf_symbols : (Instr.bmemReadComplete .f0 0 []).wf = false := by decide +kernel
theorem test_wf_devices : (Instr.refreshRatePoll .f0 0 (List.replicate 21 true)).wf = false := by decide +kernel
theorem test_wf_shadow_pair : (Instr.ladleShadowWrite .f0 0 0 3 0).wf = false := by decide +kernel
theorem test_wf_list_block : (Instr.sglEntryFetch .f0 0 (List.replicate 65 0)).wf = false := by decide +kernel
theorem test_wf_event_class : (Instr.eventPost (.rind .f0 0) 16 0).wf = false := by decide +kernel
theorem test_wf_volume : (Instr.xlatLookup 0 65536 0).wf = false := by decide +kernel
theorem test_wf_maintenance : (Instr.caveMaintStart .f0 4 false).wf = false := by decide +kernel
theorem test_wf_rung : (Instr.vaultRungStart 0 0 9).wf = false := by decide +kernel
theorem test_wf_block : (Instr.digestOverdue .f0 (2 ^ 32)).wf = false := by decide +kernel
theorem test_wf_source : (Instr.faultRaise .f0 640 0).wf = false := by decide +kernel

/-! ## Examples with values of the spec -/

/-- The state that a command leads to. -/
def after (o : Host.Outcome State Fault Refusal) : State := match o with | .next t => t | _ => Z
/-- A zone of the capacity example ("Capacity of a 24-surface drive"), from a first track on. -/
def zoneEx (spt first skew : Nat) : Zone := { first := first, tracks := 200000, spt := spt, skew := skew, shingled := false, guard := 0 }

/-- The groups, data positions and slot tracks of the six zones of the capacity example. -/
theorem test_zone_table :
    ([866, 781, 690, 600, 500, 392].map (fun n => ((zoneEx n 0 0).groups, (zoneEx n 0 0).dpt, (zoneEx n 0 0).nt))) =
      [(14, 838, 79), (13, 755, 87), (11, 668, 99), (10, 580, 114), (8, 484, 136), (7, 378, 174)] := by decide +kernel
/-- "Example: finding a block": offset 16,960 of slot 37 of zone 4 lies at track 598,091, position 20, 204 positions after the index. -/
theorem test_find_block :
    (zoneEx 500 593024 24).trackOf [] 37 (16960 / 484) = 598091 ∧ dataPos (16960 % 484) = 20 ∧ (zoneEx 500 593024 24).angle 598091 20 = 204 := by
  decide +kernel
/-- Spares of a group of the capacity example. -/
theorem test_spares : spareCount 24400 = 122 ∧ spareCount 8800 = 44 := by decide +kernel
/-- The case "Hot roof": weights 16, 4 and 1 at depths 1 and 2. -/
theorem test_hot_roof : throttleWeights 1 16 4 1 = (16, 2, 0) ∧ throttleWeights 2 16 4 1 = (8, 1, 0) := by decide +kernel
/-- Step 9 of the worked bring-up: 0xC200_0400 is EN 1, ADMIN 1, DOMAIN 2, POLLINT 1. -/
theorem test_port_word :
    (R.PORT_CFG_EN 32).get 0xC2000400 = 1 ∧ (R.PORT_CFG_ADMIN 32).get 0xC2000400 = 1 ∧ (R.PORT_CFG_DOMAIN 32).get 0xC2000400 = 2 ∧
    (R.PORT_CFG_POLLINT 32).get 0xC2000400 = 1 ∧ (R.PORT_CFG_EN 32).off = 0x30800 := by decide +kernel
/-- The F1 part of the worked bring-up after step 8. -/
def bringUp : State :=
  [(R.BOOT_STAT_PHASE, 8), (R.LINK_DOMCFG_EN 2, 1), (R.LINK_DOMCFG_ONF0 2, 1), (R.LINK_DOMCFG_HEAD 2, 1), (R.LINK_DOMCFG_SETUP 2, 1),
   (R.LINK_HEADSTAT_STATE 1, 2), (R.LINK_HEADCFG_MODE 1, 1), (R.PORT_CFG_ADMIN 32, 1), (R.PORT_CFG_DOMAIN 32, 2), (R.PORT_CFG_POLLINT 32, 1)].foldl
    (fun t p => t.wrR .f0 p.1 p.2) { Z with part := ⟨1, 1⟩, boot := { released := true } }
  |> fun s => ([(0x34020, 0x23402041), (0x34024, 1), (0x30804, 0x23400000), (0x30808, 1), (0x3080C, 0x23401000), (0x30810, 1), (0x30814, 0x23402000),
    (0x30818, 1), (0x3081C, 0x00400040)] : List (Nat × Word)).foldl (fun t p => t.setWord (regKey 0 p.1) p.2) s
/-- Steps 9 and 10 of the worked bring-up: the write of PORT_CFG32 sets the port running, with both hoops empty, and asks for its doorbell line. -/
theorem test_bring_up :
    (after (exec (.setupWrite .f0 (.head 1) 0x30800 4 0xC2000400) bringUp)).portState 32 = 1 ∧
    (after (exec (.setupWrite .f0 (.head 1) 0x30800 4 0xC2000400) bringUp)).rdS (R.PORT_STAT_SQTAIL 32) = 0 ∧
    (after (exec (.setupWrite .f0 (.head 1) 0x30800 4 0xC2000400) bringUp)).out.any (fun x => decide (x = .hostRead .f0 1 0x123402000 64)) = true := by
  decide +kernel
/-- Step 13 of the worked bring-up: the first completion, SEQ 1, TAG 1, SQHEAD 1, SQIDX 0x8000. -/
theorem test_completion_entry :
    (Comp.bytes { uid := 0, port := 32, seq := 1, info := 0, tag := 1, status := 0, sqhead := 1, sqidx := 0 } 1) =
      [1, 0, 0, 0, 0, 0, 0, 0, 1, 0, 0, 0, 1, 0, 0, 0x80] := by decide +kernel
/-- The digest register (R499) is CRC-64/XZ, whose published check value for the text 123456789 is 0x995DC9BBDF1939FA. -/
theorem test_crc64 : ~~~ (crc64 (BitVec.allOnes 64) [0x31, 0x32, 0x33, 0x34, 0x35, 0x36, 0x37, 0x38, 0x39]) = 0x995DC9BBDF1939FA#64 := by decide +kernel
/-- CRC-32C (R468), whose published check value for the text 123456789 is 0xE3069283. -/
theorem test_crc32c :
    ~~~ (([0x31, 0x32, 0x33, 0x34, 0x35, 0x36, 0x37, 0x38, 0x39] : List Byte).foldl crc32cByte (BitVec.allOnes 32)) = 0xE3069283#32 := by decide +kernel
/-- CRC-32C of the flash (R78, R272): the same published check value. -/
theorem test_crc32 : crc32 ([0x31, 0x32, 0x33, 0x34, 0x35, 0x36, 0x37, 0x38, 0x39] : List Byte) = 0xE3069283 := by decide +kernel
/-- SHA-384 (R80, R81): the published digest of the text abc. -/
theorem test_sha384_abc : beNat (sha384 [0x61, 0x62, 0x63]) =
    0xCB00753F45A35E8BB5A03D699AC65007272C32AB0EDED1631A8B605A43FF5BED8086072BA1E7CC2358BAECA134C825A7 := by decide +kernel
/-- AES-256 (R80, R81): the published example with key bytes 0 to 31. -/
theorem test_aes256 : aesBlock (roundKeys ((List.range 32).map (BitVec.ofNat 8))) ((List.range 16).map (fun i => 17 * i)) =
    [0x8E, 0xA2, 0xB7, 0xCA, 0x51, 0x67, 0x45, 0xBF, 0xEA, 0xFC, 0x49, 0x90, 0x4B, 0x49, 0x60, 0x89] := by decide +kernel
/-- R30: TYPE 0, CIDX 1, ALSEQ 0x1234, FREED 5, FREE 8; the check byte makes the XOR of the eight bytes 0. -/
theorem test_link_control_word : lcwWords 0 1 0x1234 5 8 = (0xF1DA1234#32, 0x00050008#32) := by decide +kernel
/-- R418: the fields of a handle: pool [31:30], generation [29:22], index [21:0]. -/
theorem test_handle : handleParts 0xC0400005 = (3, 1, 5) := by decide +kernel
/-- R97: VIN below 4.5 V is recorded; at 4.5 V it is not. -/
theorem test_vin_floor :
    (after (exec (.vinSample 4499) Z)).pins.lowSince.isSome = true ∧ (after (exec (.vinSample 4500) Z)).pins.lowSince = none := by decide +kernel
/-- R331: the Gray code of 5 is 111. -/
theorem test_gray : grayNat 7 = 5 := by decide +kernel
/-- R335: a stored value rounds to the nearest, a tie to even. -/
theorem test_rounding : (storeQ 16384).1 = 0 ∧ (storeQ 49152).1 = 2 ∧ (storeQ (2 ^ 30)).1 = 32767 := by decide +kernel
/-- R468: an addition that wraps carries. -/
theorem test_alu_wrap : (alu 0x03 0 (BitVec.allOnes 64) 1 0).value = 0 ∧ (alu 0x03 0 (BitVec.allOnes 64) 1 0).carry = true := by decide +kernel
/-- R466: JUMP to NADDR 5. -/
theorem test_jump :
    (after (exec (.jump (.rind .f0 7)) (onWord 0 (BitVec.ofNat 144 (2 ^ 140 + 5 * 2 ^ 126)) []))).rdR .f0 (R.CULT_ENG_PC 7) = 5 := by decide +kernel
/-- R466: RETURN pops. -/
theorem test_return : (after (exec (.returnOp (.rind .f0 7)) (onWord 0 (wordNac 5) [9]))).rdR .f0 (R.CULT_ENG_PC 7) = 9 := by decide +kernel
/-- R301: READ of surface 1, zone 2, from position 7, three positions, rebuild permitted, rung limit 4, parity skipped. -/
theorem test_sector_command :
    let r := Z.runOf 0 .f0 ⟨0, 0, 0, 9, [0x144A0007, 100, 0x00600000, 0x80000000]⟩
    r.op = 1 ∧ r.surf = 1 ∧ r.zone = 2 ∧ r.incl = false ∧ r.rebuild = true ∧ r.rlim = 4 ∧ r.first = 7 ∧ r.count = 3 ∧ r.track = 100 ∧ r.bandFirst = true := by
  decide +kernel
/-- R235: parity positions of a track of 500: the last two of each group. -/
theorem test_parity_positions :
    (List.range 500).filter (zoneEx 500 0 0).isParity = [62, 63, 126, 127, 190, 191, 254, 255, 318, 319, 382, 383, 446, 447, 498, 499] := by decide +kernel
/-- R175: a READ of one block past the end of a Data volume of one unit is out of range, one of the last block is not. -/
theorem test_read_range :
    stored.admission (cmdOf [(0, 1, 1), (8, 8, 65536), (0x10, 4, 1), (0x20, 4, 4096)]) = some (St.outOfRange, 0) ∧ stored.admission readC = none := by
  decide +kernel
/-- R420, R421: an ALLOC of the pool's size succeeds, and one above the size of every pool is REF_INVALID. -/
theorem test_alloc :
    (vatAlloc .f0 0 64 false false ((Z.wrR .f0 (R.VAT_POOLCFG_COUNT 3) 1).wrR .f0 (R.VAT_POOLCFG_SIZELOG2 3) 6)).1.status = 0 ∧
    (vatAlloc .f0 0 65 false false ((Z.wrR .f0 (R.VAT_POOLCFG_COUNT 3) 1).wrR .f0 (R.VAT_POOLCFG_SIZELOG2 3) 6)).1.status = 0x16 := by decide +kernel
/-- R122: 0x0000_C0A6 arms, and 0x0000_3F59 then opens the page. -/
theorem test_unlock :
    blockOf 0x7FFF0 ∈ ((after (exec (.unlockWrite .f0 .sideband 0x7FFF0 0x3F59) (after (exec (.unlockWrite .f0 .sideband 0x7FFF0 0xC0A6)
      { Z with part := ⟨1, 1⟩ })))).rind .f0).opened := by decide +kernel
/-- An empty queue: one microsecond passes. -/
theorem test_idle : (after (step Z)).now = 1 ∧ (after (step Z)).regs = [] := by decide +kernel
/-- The command at the front of the queue runs, and the rest waits. -/
theorem test_front : (after (step { Z with pending := [.resetNFall, .synthLock 0] })).pending = [.synthLock 0] := by decide +kernel
/-- No word spells a command. -/
theorem test_no_word : decodeTableWord 32 0 = none := rfl

/-- The premises of StepKeepsWhatIsFixed about one field: six Curd slots, and a security version at its end. -/
theorem test_witness_StepKeepsWhatIsFixed : ∃ s : State, s.curds.length = 6 ∧ s.fuses.svn ≤ 127 := ⟨{ Z with fuses := { svn := 127 } }, by decide +kernel⟩


/-! ## Deciding the named conditions -/

theorem by_dec {p : Prop} (i : Decidable p) (h : @decide p i = true) : p := @of_decide_eq_true p i h

def decQuiet (s : State) : Decidable s.Quiet := inferInstanceAs (Decidable (_ ∧ _ ∧ _ ∧ _))
def decNextIs (s : State) (p : Nat) (c : Cmd) : Decidable (s.NextIs p c) :=
  inferInstanceAs (Decidable (s.nextFetched p = some c ∧ s.boot.restarting = false ∧ c.fail = none))
def decReady (s : State) (p : Nat) (c : Cmd) : Decidable (s.Ready p c) :=
  @instDecidableAnd _ _ (decNextIs s p c) (inferInstanceAs (Decidable (s.admission c = none)))
def decEngHeld (s : State) (e : Eng) : Decidable (s.EngHeld e) :=
  match e with
  | .rind d i => inferInstanceAs (Decidable (i < (s.rind d).engines.length))
  | .curd g => inferInstanceAs (Decidable (g < s.curds.length))
def decEndOk (s : State) (e : LinkEnd) : Decidable (s.EndOk e) :=
  match e with
  | .rind d n => inferInstanceAs (Decidable (n < (s.rind d).links.length ∧ (s.fvEnd (.rind d n)).tx.length = 4 ∧ (s.fvEnd (.rind d n)).rx.length = 4))
  | .curd g d => inferInstanceAs (Decidable ((g < s.curds.length ∧ d.code < (s.curd g).ends.length) ∧ (s.fvEnd (.curd g d)).tx.length = 4 ∧
      (s.fvEnd (.curd g d)).rx.length = 4))
def decPlainWord (s : State) (e : Eng) (nac pc : Nat) (m : Micro) : Decidable (s.PlainWord e nac pc m) :=
  @instDecidableAnd _ _ (decQuiet s) (@instDecidableAnd _ _ inferInstance (@instDecidableAnd _ _ inferInstance
    (@instDecidableAnd _ _ (decEngHeld s e) inferInstance)))
def decCanonical (s : State) : Decidable s.Canonical := inferInstanceAs (Decidable (s.regsWf = true ∧ s.memWf = true))

/-! ## The hypotheses of the statements are met -/

theorem test_witness_PowerAndResetPins :
    (∃ _mv : Nat, ∃ _strap : Bool, ∃ s : State, s.pins.por = false ∧ s.pins.resetN = true) ∧
    (∃ _us : Nat, ∃ s : State, s.pins.por = true ∧ s.regsWf = true) ∧
    (∃ _d : RSlot, ∃ _h : Nat, ∃ _g : Nat, ∃ _p : Nat, ∃ _at_ : Nat, ∃ s : State, s.pins.por = true ∧ s.pins.resetN = false) :=
  ⟨⟨4500, true, Z, (by decide +kernel)⟩,
   ⟨100, powered, (by decide +kernel)⟩,
   ⟨.f0, 0, 5, 2, 999999, { Z with pins := { por := true, resetN := false } }, (by decide +kernel)⟩⟩

theorem test_witness_SupplySagAndHold :
    (∃ mv : Nat, ∃ s : State, 4500 ≤ mv ∧ s.pins.lowSince = none ∧ s.regsWf = true) ∧
    (∃ mv : Nat, ∃ s : State, mv < 4500 ∧ s.regsWf = true) ∧
    (∃ mv : Nat, ∃ s : State, 4500 ≤ mv ∧ s.pins.lowSince.isSome = true ∧ s.pins.holdOut = false) ∧
    (∃ s : State, s.pins.sagPause = true ∧ 10 * s.rdR s.senior R.BOOT_RIDE_VSAG ≤ s.pins.vinMv) ∧
    (∃ s : State, s.pins.lowSince.isSome = true ∧ s.pins.holdOut = false ∧ s.phase .f0 < 0xD) ∧
    (∃ s : State, s.pins.lowSince.isSome = true ∧ s.pins.holdOut = false ∧ 0xD ≤ s.phase .f0) ∧
    (∃ s : State, s.pins.holdOut = true ∧ 4600 ≤ s.pins.vinMv ∧ s.regsWf = true) :=
  ⟨⟨4500, Z, (by decide +kernel)⟩,
   ⟨4499, Z, (by decide +kernel)⟩,
   ⟨4500, { Z with pins := { lowSince := some 0 } }, (by decide +kernel)⟩,
   ⟨{ Z with pins := { sagPause := true, vinMv := 10 * Z.rdR .f0 R.BOOT_RIDE_VSAG } }, (by decide +kernel)⟩,
   ⟨{ Z with pins := { lowSince := some 0 } }, (by decide +kernel)⟩,
   ⟨{ Z.wrR .f0 R.BOOT_STAT_PHASE 0xD with pins := { lowSince := some 0 } }, (by decide +kernel)⟩,
   ⟨{ Z with pins := { holdOut := true, vinMv := 4600 } }, (by decide +kernel)⟩⟩

theorem test_witness_SafetyAndShockPins :
    (∃ s : State, s.pins.trstN = false ∧ s.inReset = false) ∧
    (∃ s : State, s.pins.trstN = false ∧ s.inReset = true) ∧
    (∃ s : State, s.pins.trstN = true) ∧
    (∃ d : RSlot, ∃ s : State, s.hasRind d = true) ∧
    (∃ s : State, s.healthy = false) ∧
    (∃ s : State, s.healthy = true ∧ s.part.f = 2 ∧ s.pins.aliveBy = .f0) ∧
    (∃ g : Nat, ∃ r : Rail, ∃ s : State, s.hasCurd g = true ∧ r ≠ .vddq) ∧
    (∃ g : Nat, ∃ s : State, s.hasCurd g = true ∧ (s.curd g).railLow = true) ∧
    (∃ s : State, s.pins.shock = false ∧ s.inReset = false) ∧
    (∃ s : State, s.pins.shock = false ∧ s.inReset = true) ∧
    (∃ g : Nat, ∃ s : State, ∃ e, g < s.curds.length ∧ (s.fmt g).gate = some e ∧ e.write = true ∧ (s.gateSec g e).isSome = true) ∧
    (∃ g : Nat, ∃ s : State, s.hasCurd g = true ∧ s.pins.shock = false) ∧
    (∃ g : Nat, ∃ s : State, s.hasCurd g = true ∧ s.pins.shock = true ∧ (s.fmt g).shockSince.isSome = true) :=
  ⟨⟨powered, (by decide +kernel)⟩,
   ⟨{ Z with pins := { resetN := false } }, (by decide +kernel)⟩,
   ⟨{ Z with pins := { trstN := true } }, (by decide +kernel)⟩,
   ⟨.f1, Z, (by decide +kernel)⟩,
   ⟨Z, (by decide +kernel)⟩,
   ⟨ready, (by decide +kernel)⟩,
   ⟨5, .vana, Z, (by decide +kernel)⟩,
   ⟨5, Z.modCurd 5 (fun c => { c with railLow := true }), (by decide +kernel)⟩,
   ⟨powered, (by decide +kernel)⟩,
   ⟨Z, (by decide +kernel)⟩,
   ⟨0, modFmt 0 (fun f => { f with gate := some gateW, runs := [runOne true .waiting] }) Z, gateW, (by decide +kernel)⟩,
   ⟨5, Z, (by decide +kernel)⟩,
   ⟨0, modFmt 0 (fun f => { f with shockSince := some 0 }) { Z with pins := { shock := true } }, (by decide +kernel)⟩⟩

theorem test_witness_PmbusTransactions :
    (∃ r : Rail, ∃ s : State, s.pmbDriven = true ∧ r ∉ s.pmb.on) ∧
    (∃ _r : Rail, ∃ _on : Bool, ∃ resp : PmbResp, ∃ s : State, s.pmbDriven = true ∧ resp ≠ .ok) ∧
    (∃ s : State, s.pmbDriven = true ∧ s.pmb.stepConfirmed = true ∧ 640 ≤ s.pmb.setMv ∧ s.pmb.setMv ≤ 890 ∧ s.budget.vsteps < 5 ∧
      s.pmb.setMv < 10 * s.rdS R.BUDGET_STAT_VTGT) ∧
    (∃ s : State, s.pmbDriven = true ∧ s.pmb.stepConfirmed = true ∧ 660 ≤ s.pmb.setMv ∧ s.pmb.setMv ≤ 910 ∧ s.budget.vsteps < 5 ∧
      10 * s.rdS R.BUDGET_STAT_VTGT < s.pmb.setMv) ∧
    (∃ r : Rail, ∃ _ma : Nat, ∃ s : State, s.pmbDriven = true ∧ r ≠ .vcore) :=
  ⟨⟨.vana, pmbOwned, (by decide +kernel)⟩,
   ⟨.vddq, true, .nack, pmbOwned, (by decide +kernel)⟩,
   ⟨{ pmbOwned.wrR .f0 R.BUDGET_STAT_VTGT 90 with pmb := { setMv := 890, stepConfirmed := true }, budget := { vsteps := 4 } },
     (by decide +kernel)⟩,
   ⟨{ pmbOwned.wrR .f0 R.BUDGET_STAT_VTGT 65 with pmb := { setMv := 660, stepConfirmed := true }, budget := { vsteps := 4 } },
     (by decide +kernel)⟩,
   ⟨.vana, 0, pmbOwned, (by decide +kernel)⟩⟩

theorem test_witness_IslandBuses :
    (∃ s : State, s.pmb.takeover = true ∧ s.bitR s.senior R.STEP_STAT_LEASE = true ∧ s.part.f = 2 ∧ s.regsWf = true) ∧
    (∃ d : RSlot, ∃ s : State, s.part.f = 2 ∧ s.bitR d R.DEV_PINSTAT_SFOWN = false ∧ d ∉ s.pins.sfReq ∧ s.fenced d = false) ∧
    (∃ s : State, s.flash.op = none ∧ .f0 ∈ s.pins.sfReq ∧ s.regsWf = true) ∧
    (∃ s : State, s.flash.op = none ∧ .f0 ∉ s.pins.sfReq ∧ .f1 ∈ s.pins.sfReq ∧ s.regsWf = true) :=
  ⟨⟨{ Z.wrR .f0 R.STEP_STAT_LEASE 1 with pmb := { takeover := true } }, (by decide +kernel)⟩,
   ⟨.f1, Z, (by decide +kernel)⟩,
   ⟨{ Z with pins := { sfReq := [.f0, .f1] } }, (by decide +kernel)⟩,
   ⟨{ Z with pins := { sfReq := [.f1] } }, (by decide +kernel)⟩⟩

theorem test_witness_HostHeadsAndWindow :
    (∃ d : RSlot, ∃ h : Nat, ∃ s : State, s.pins.resetN = true ∧ s.hasRind d = true ∧ h < 4 ∧ s.boot.released = false ∧ s.regsWf = true) ∧
    (∃ d : RSlot, ∃ h : Nat, ∃ s : State, s.pins.resetN = true ∧ s.hasRind d = true ∧ h < 4 ∧ s.boot.released = true ∧
      s.rdR d (R.LINK_HEADSTAT_STATE h) = 3) ∧
    (∃ d : RSlot, ∃ h : Nat, ∃ s : State, s.pins.resetN = false ∧ s.hasRind d = true ∧ h < 4) ∧
    (∃ d : RSlot, ∃ h : Nat, ∃ p : Partner, ∃ s : State, s.hasRind d = true ∧ h < 4 ∧ s.boot.released = true ∧ s.rdR d (R.LINK_HEADCFG_MODE h) ≠ 0 ∧
      s.rdR d (R.LINK_HEADSTAT_STATE h) ≠ 3 ∧ s.rdR d (R.LINK_HEADSTAT_STATE h) ≠ 2 ∧ (s.rdR d R.DEV_PINSTAT_PERST).testBit h = true ∧
      s.pins.refclk.testBit (4 * d.code + h) = true ∧ 4 ≤ p.width ∧ p.cxl = true ∧ s.regsWf = true) ∧
    (∃ d : RSlot, ∃ h : Nat, ∃ s : State, s.hasRind d = true ∧ h < 4 ∧ s.rdR d (R.LINK_HEADSTAT_STATE h) = 2) ∧
    (∃ d : RSlot, ∃ r : Requester, ∃ off : Nat, ∃ len : Nat, ∃ a : Nat, ∃ w : Nat, ∃ s : State, s.hasRind d = true ∧ s.fenced d = false ∧
      s.windowAddr d r off len = some (a, w)) ∧
    (∃ d : RSlot, ∃ r : Requester, ∃ off : Nat, ∃ len : Nat, ∃ s : State, s.hasRind d = true ∧ s.fenced d = false ∧ s.windowAddr d r off len = none) ∧
    (∃ d : RSlot, ∃ r : Requester, ∃ off : Nat, ∃ a : Nat, ∃ data : List Byte, ∃ s : State, s.hasRind d = true ∧ s.fenced d = false ∧
      s.windowAddr d r off data.length = some (a, 2)) ∧
    (∃ d : RSlot, ∃ r : Requester, ∃ off : Nat, ∃ data : List Byte, ∃ s : State, s.hasRind d = true ∧ s.fenced d = false ∧ (∀ a,
      s.windowAddr d r off data.length ≠ some (a, 2))) :=
  ⟨⟨.f1, 3, Z, (by decide +kernel)⟩,
   ⟨.f0, 3, (headed 3).wrR .f0 (R.LINK_HEADSTAT_STATE 3) 3, (by decide +kernel)⟩,
   ⟨.f1, 3, { Z with pins := { resetN := false } }, (by decide +kernel)⟩,
   ⟨.f0, 3, ⟨4, 4, true, 0, []⟩,
     { ((headed 3).wrR .f0 (R.LINK_HEADSTAT_STATE 3) 1).wrR .f0 R.DEV_PINSTAT_PERST 8 with pins := { refclk := 8 } },
     (by decide +kernel)⟩,
   ⟨.f0, 0, headed 0, (by decide +kernel)⟩,
   ⟨.f0, .head 0, 2 ^ 28 - 64, 64, 2 ^ 29 - 64, 1, windowed 1, (by decide +kernel)⟩,
   ⟨.f0, .head 0, 2 ^ 28 - 63, 64, windowed 1, (by decide +kernel)⟩,
   ⟨.f0, .head 0, 2 ^ 28 - 1, 2 ^ 29 - 1, [0xFF], windowed 2, (by decide +kernel)⟩,
   ⟨.f0, .head 0, 0, [0xFF], Z, (by decide +kernel), (by decide +kernel),
     (by intro a h; exact nomatch ((show Z.windowAddr .f0 (.head 0) 0 1 = none from by decide +kernel).symm.trans h))⟩⟩

theorem test_witness_StartFromFlash :
    (∃ k : Nat, ∃ h : Header, ∃ s : State, s.pins.por = true ∧ s.pins.resetN = true ∧ s.pins.holdOut = false ∧ s.phase .f0 ≤ 1 ∧
      s.hasBus .f0 = true ∧ s.flash.header = some (k, h) ∧ s.regsWf = true) ∧
    (∃ s : State, s.pins.por = true ∧ s.pins.resetN = true ∧ s.pins.holdOut = false ∧ s.phase .f0 ≤ 1 ∧ s.hasBus .f0 = true ∧ s.flash.header = none) ∧
    (∃ k : Nat, ∃ h : Header, ∃ s : State, s.part.f = 2 ∧ s.pins.por = true ∧ s.pins.resetN = true ∧ s.pins.holdOut = false ∧ s.phase .f1 ≤ 1 ∧
      2 ≤ s.phase .f0 ∧ s.hasBus .f1 = true ∧ s.flash.header = some (k, h) ∧ s.regsWf = true) ∧
    (∃ s : State, s.phase .f0 = 3 ∧ s.boot.waitHdr = false ∧ s.hasBus .f0 = true ∧ s.boot.hdr.pending = none) ∧
    (∃ p : Nat, ∃ s : State, s.phase .f0 = 3 ∧ s.boot.waitHdr = false ∧ s.hasBus .f0 = true ∧ s.boot.hdr.pending = some p) ∧
    (∃ i : Nat, ∃ s : State, s.part.f = 2 ∧ s.phase .f1 = 3 ∧ s.boot.waitHdr = false ∧ s.hasBus .f1 = true ∧ s.boot.slot = some i) ∧
    (∃ d : RSlot, ∃ s : State, (∀ g ∈ s.groups, (s.fvEnd (.rind d g)).up = true) ∧ (s.part.f = 2 → (s.fvEnd (.rind d 6)).up = true)) ∧
    (∃ g : Nat, ∃ p : RSlot × SlotImage × List SetRec, ∃ s : State, s.boot.image.find? (fun p => p.1 = .f0) = some p ∧ s.hasCurd g = true ∧
      s.linkUp (.curd g .f0) = true ∧ s.bitC g R.CDIE_FCSTORE_LOADED = false) ∧
    (∃ k : Nat, ∃ h : Header, ∃ why : HdrWhy, ∃ s : State, s.flash.op = some (.header k h false why) ∧ s.flash.sagged = false ∧
      s.pins.sagPause = false) ∧
    (∃ k : Nat, ∃ h : Header, ∃ s : State, s.flash.op = some (.header k h true .commit)) ∧
    (∃ k : Nat, ∃ h : Header, ∃ again : Bool, ∃ port : Nat, ∃ tag : Nat, ∃ s : State, s.flash.op = some (.header k h again (.activate port tag)) ∧
      s.flash.sagged = false) ∧
    (∃ k : Nat, ∃ port : Nat, ∃ tag : Nat, ∃ h : Header, ∃ again : Bool, ∃ s : State, s.flash.op = some (.header k h again (.activate port tag)) ∧
      s.flash.sagged = true) ∧
    (∃ k : Nat, ∃ port : Nat, ∃ tag : Nat, ∃ h : Header, ∃ s : State, s.flash.op = some (.header k h false (.activate port tag)) ∧
      s.flash.sagged = true ∧ s.pins.sagPause = true) ∧
    (∃ h : Header, h.inRange = true ∧ h.hseq < 0x10000) ∧
    (∃ k : Nat, ∃ h : Header, ∃ again : Bool, ∃ s : State, s.flash.op = some (.header k h again .trial)) :=
  ⟨⟨0, {}, { starting .f0 1 with pins := { por := true }, flash := { hdr0 := Header.bytes {} } }, (by decide +kernel)⟩,
   ⟨{ starting .f0 1 with pins := { por := true } }, (by decide +kernel)⟩,
   ⟨1, {},
     { (starting .f1 1).wrR .f0 R.BOOT_STAT_PHASE 2 with pins := { por := true }, flash := { hdr1 := Header.bytes {} } },
     (by decide +kernel)⟩,
   ⟨starting .f0 3, (by decide +kernel)⟩,
   ⟨1, { starting .f0 3 with boot := { hdr := { pending := some 1 } } }, (by decide +kernel)⟩,
   ⟨1, { starting .f1 3 with boot := { slot := some 1 } }, (by decide +kernel)⟩,
   ⟨.f1, linked, (by decide +kernel)⟩,
   ⟨5, (.f0, imageOk, []), { linked with boot := { image := [(.f0, imageOk, [])] } }, (by decide +kernel)⟩,
   ⟨1, {}, .commit, { Z with flash := { op := some (.header 1 {} false .commit) } }, (by decide +kernel)⟩,
   ⟨1, {}, { Z with flash := { op := some (.header 1 {} true .commit) } }, (by decide +kernel)⟩,
   ⟨0, {}, true, 0, 65535, { Z with flash := { op := some (.header 0 {} true (.activate 0 65535)) } }, (by decide +kernel)⟩,
   ⟨0, 255, 0, {}, true, { Z with flash := { op := some (.header 0 {} true (.activate 255 0)), sagged := true } },
     (by decide +kernel)⟩,
   ⟨0, 255, 0, {},
     { Z with flash := { op := some (.header 0 {} false (.activate 255 0)), sagged := true }, pins := { sagPause := true } }, (by decide +kernel)⟩,
   ⟨{ hseq := 65535, flashLog2 := 28, sfclk := 2, sfdummy := 15, logLog2 := 24, active := 1, pending := some 1, tries := 3, pmbVcore := 127 }, (by decide +kernel)⟩,
   ⟨1, {}, true, { Z with flash := { op := some (.header 1 {} true .trial) } }, (by decide +kernel)⟩⟩

theorem test_witness_StartSequencePhases :
    (∃ n : Nat, ∃ s : State, n < 6 ∧ s.hasCurd n = true ∧ 3 ≤ s.phase .f0 ∧ s.phase .f0 ≤ 8 ∧ (s.fvEnd (.rind .f0 n)).up = false ∧ (.f0,
      n) ∉ s.boot.absent ∧ s.regsWf = true) ∧
    (∃ n : Nat, ∃ s : State, n < 6 ∧ s.part.f = 2 ∧ s.hasCurd n = true ∧ 3 ≤ s.phase .f1 ∧ s.phase .f1 ≤ 8 ∧ (s.fvEnd (.rind .f1 n)).up = false ∧
      (.f1, n) ∉ s.boot.absent ∧ s.regsWf = true) ∧
    (∃ d : RSlot, ∃ s : State, s.part.f = 2 ∧ 3 ≤ s.phase d ∧ s.phase d ≤ 8 ∧ (s.fvEnd (.rind d 6)).up = false ∧ (d, 6) ∉ s.boot.absent ∧
      s.regsWf = true) ∧
    (∃ d : RSlot, ∃ k : Nat, ∃ c : Settings, ∃ s : State, s.hasRind d = true ∧ s.phase d = 4 ∧ s.hasBus d = true ∧ (d = .f0 ∨ .f0 ∈ s.boot.settled) ∧
      s.settings = some (k, c) ∧ c.enough = true ∧ s.regsWf = true) ∧
    (∃ d : RSlot, ∃ s : State, s.hasRind d = true ∧ s.phase d = 4 ∧ s.hasBus d = true ∧ (d = .f0 ∨ .f0 ∈ s.boot.settled) ∧ (∀ p,
      s.settings = some p → p.2.enough = false)) ∧
    (∃ _sseq : Nat, ∃ l : List SetRec, l.all (fun r => decide (r.raw.length ≤ 4088 ∧ r.raw.length % 4 = 0)) = true ∧
      (l.flatMap SetRec.bytes).length ≤ 524160) ∧
    (∃ s : State, s.part.f = 2 ∧ s.phase .f0 = 5 ∧ s.phase .f1 = 5 ∧ s.fenced .f1 = false ∧
      (s.boot.image.find? (fun p => p.1 = .f0)).map Prod.snd = (s.boot.image.find? (fun p => p.1 = .f1)).map Prod.snd ∧ s.regsWf = true) ∧
    (∃ d : RSlot, ∃ lanes : List LaneEyes, ∃ s : State, s.hasRind d = true ∧ s.rdR d R.BMEM_STAT_PHASE = 1 ∧ s.regsWf = true ∧ (∀ c < 2,
      (trainChannel d 1 (lanes.drop 10) (trainChannel d 0 (lanes.take 10) s)).rdR d (R.BMEM_TRAIN_FAILLANE c) = 0xF)) ∧
    (∃ lanes : List LaneEyes, ∃ s : State, s.part.f = 1 ∧ s.rdR .f0 R.BMEM_STAT_PHASE = 1 ∧ s.regsWf = true ∧ (∃ c < 2,
      (trainChannel .f0 1 (lanes.drop 10) (trainChannel .f0 0 (lanes.take 10) s)).rdR .f0 (R.BMEM_TRAIN_FAILLANE c) ≠ 0xF)) ∧
    (∃ d : RSlot, ∃ s : State, s.hasRind d = true ∧ s.rdR d R.BMEM_STAT_PHASE = 2 ∧ s.phase d = 5 ∧ (s.part.f = 2 → s.role d ≠ roleResync) ∧
      s.regsWf = true) ∧
    (∃ _perst : Nat, ∃ _refclk : Nat, ∃ s : State, s.phase .f0 = 6 ∧ s.boot.released = false ∧ s.regsWf = true) ∧
    (∃ _ms : Nat, ∃ s : State, s.phase s.senior = 7 ∧ s.atSpeed = true ∧ s.headsLoaded = true ∧ s.tablesLost = true) ∧
    (∃ _ms : Nat, ∃ s : State, s.phase s.senior = 7 ∧ s.atSpeed = true ∧ s.headsLoaded = true ∧ s.tablesLost = false) ∧
    (∃ s : State, 1 ≤ s.phase .f0 ∧ s.phase .f0 ≤ 7 ∧ s.spState ≠ spCooking ∧ s.pins.sagPause = false) ∧
    (∃ s : State, s.phase .f0 = 0xD ∧ s.budget.diodes.all (fun p => decide (p.2 < (s.threshold p.1 2).1 - (s.threshold p.1 2).2)) = true ∧
      s.regsWf = true) :=
  ⟨⟨5, Z.wrR .f0 R.BOOT_STAT_PHASE 3, (by decide +kernel)⟩,
   ⟨5, Z.wrR .f1 R.BOOT_STAT_PHASE 8, (by decide +kernel)⟩,
   ⟨.f1, Z.wrR .f1 R.BOOT_STAT_PHASE 8, (by decide +kernel)⟩,
   ⟨.f0, 1, settingsOk, { starting .f0 4 with flash := { set1 := some settingsOk } }, (by decide +kernel)⟩,
   ⟨.f0, starting .f0 4, (by decide +kernel), (by decide +kernel), (by decide +kernel), (by decide +kernel),
     (by intro p h; exact nomatch ((show (starting .f0 4).settings = none from by decide +kernel).symm.trans h))⟩,
   ⟨7, startRecs, (by decide +kernel)⟩,
   ⟨(Z.wrR .f0 R.BOOT_STAT_PHASE 5).wrR .f1 R.BOOT_STAT_PHASE 5, (by decide +kernel)⟩,
   ⟨.f0, List.replicate 20 ⟨List.replicate 16 (BitVec.allOnes 128), List.replicate 16 (BitVec.allOnes 128)⟩, Z.wrR .f0 R.BMEM_STAT_PHASE 1,
     (by decide +kernel)⟩,
   ⟨List.replicate 20 ⟨List.replicate 16 0, List.replicate 16 0⟩, { Z with part := ⟨1, 1⟩ }.wrR .f0 R.BMEM_STAT_PHASE 1,
     (by decide +kernel), (by decide +kernel), (by decide +kernel), (by exact ⟨0, by decide +kernel, by decide +kernel⟩)⟩,
   ⟨.f1, (Z.wrR .f1 R.BMEM_STAT_PHASE 2).wrR .f1 R.BOOT_STAT_PHASE 5, (by decide +kernel)⟩,
   ⟨0xFF, 0xFF, Z.wrR .f0 R.BOOT_STAT_PHASE 6, (by decide +kernel)⟩,
   ⟨0, { atReady with mediaTables := some {} }, (by decide +kernel)⟩,
   ⟨0, atReady, (by decide +kernel)⟩,
   ⟨Z.wrR .f0 R.BOOT_STAT_PHASE 7, (by decide +kernel)⟩,
   ⟨Z.wrR .f0 R.BOOT_STAT_PHASE 0xD, (by decide +kernel)⟩⟩

theorem test_witness_SetupSpaceAccess :
    (∃ d : RSlot, ∃ r : Requester, ∃ addr : Nat, ∃ _v : Word, ∃ rd : RegDef, ∃ s : State, ∃ n : State, n = newStep 0x03 0 0 s ∧ s.hasRind d = true ∧
      s.regsWf = true ∧ n.fenced d = false ∧ n.mayWrite d r addr = true ∧ addr % 4 = 0 ∧ addr / 0x10000 ∈ [5, 6, 8, 9, 10] ∧
      addr % 0x10000 < 0x7FF0 ∧ regDef d.code addr = some rd) ∧
    (∃ d : RSlot, ∃ r : Requester, ∃ addr : Nat, ∃ _v : Word, ∃ s : State, ∃ n : State, n = newStep 0x03 0 0 s ∧ s.hasRind d = true ∧
      n.fenced d = false ∧ n.mayWrite d r addr = false ∧ addr % 4 = 0 ∧ 0x20000 ≤ addr) ∧
    (∃ d : RSlot, ∃ _r : Requester, ∃ addr : Nat, ∃ rd : RegDef, ∃ s : State, s.hasRind d = true ∧ s.regsWf = true ∧ addr % 4 = 0 ∧ addr < 0x100000 ∧
      addr % 0x10000 ≠ 0x7FF4 ∧ addr % 0x10000 ≠ 0x7FF0 ∧ regDef d.code addr = some rd) ∧
    (∃ d : RSlot, ∃ _r : Requester, ∃ addr : Nat, ∃ g : Nat, ∃ off : Nat, ∃ s : State, s.hasRind d = true ∧ addr % 4 = 0 ∧ curdWindow addr = some (g,
      off) ∧ s.hasCurd g = true ∧ (s.fvEnd (.rind d g)).down = false) ∧
    (∃ d : RSlot, ∃ _r : Requester, ∃ _addr : Nat, ∃ width : Nat, ∃ _v : Word, ∃ s : State, s.hasRind d = true ∧ width ≠ 4) ∧
    (∃ d : RSlot, ∃ r : Requester, ∃ addr : Nat, ∃ s : State, ∃ n : State, n = (if addr < 0x20000 then s else newStep 0x03 0 0 s) ∧
      s.hasRind d = true ∧ addr < 0x100000 ∧ n.fenced d = false ∧ n.setupRight d r = 2) ∧
    (∃ d : RSlot, ∃ r : Requester, ∃ addr : Nat, ∃ s : State, s.hasRind d = true ∧ s.fenced d = false ∧ s.setupRight d r = 2 ∧ addr < 0x20000 ∧
      s.armed d d r addr = true) :=
  ⟨⟨.f0, .sideband, 0x80000, 1, (regDef 0 0x80000).getD ⟨0, [], []⟩, Z, _, rfl, (by decide +kernel)⟩,
   ⟨.f1, .head 3, 0x20000, 0, Z, _, rfl, (by decide +kernel)⟩,
   ⟨.f0, .sideband, 0x00000, (regDef 0 0).getD ⟨0, [], []⟩, Z, (by decide +kernel)⟩,
   ⟨.f1, .head 3, 0x6FFFFC, 5, 0xFFFFC, Z, (by decide +kernel)⟩,
   ⟨.f1, .sideband, 0xFFFFC, 8, 0xFFFFFFFF, Z, (by decide +kernel)⟩,
   ⟨.f0, .sideband, 0x17FF0, Z, _, rfl, (by decide +kernel)⟩,
   ⟨.f0, .sideband, 0x17FF0, Z.modRind .f0 (fun r => { r with arms := [((.f0, .sideband), 0x10000, 0)] }), (by decide +kernel)⟩⟩

theorem test_witness_SetupRowsOfPorts :
    (∃ d : RSlot, ∃ r : Requester, ∃ dom : Nat, ∃ v : Word, ∃ old : Word, ∃ new : Word, ∃ rd : RegDef, ∃ s : State, ∃ n : State,
      n = newStep 0x03 0 0 s ∧ s.hasRind d = true ∧ dom < 16 ∧ s.regsWf = true ∧ n.fenced d = false ∧ n.mayWrite d r (0x20100 + 16 * dom) = true ∧
      regDef d.code (0x20100 + 16 * dom) = some rd ∧ regDef n.senior.code (0x20100 + 16 * dom) = some rd ∧
      old = n.word (regKey n.senior.code (0x20100 + 16 * dom)) ∧ new = storeWord n.part n.ilimTop 0 rd old v ∧ (R.LINK_DOMCFG_EN dom).get old = 0 ∧
      (R.LINK_DOMCFG_EN dom).get new = 0) ∧
    (∃ d : RSlot, ∃ r : Requester, ∃ port : Nat, ∃ v : Word, ∃ old : Word, ∃ new : Word, ∃ rd : RegDef, ∃ s : State, ∃ n : State, ∃ t : State,
      n = newStep 0x03 0 0 s ∧ s.hasRind d = true ∧ port < 256 ∧ n.fenced d = false ∧ n.mayWrite d r (0x30000 + 64 * port) = true ∧
      regDef d.code (0x30000 + 64 * port) = some rd ∧ old = n.word (regKey n.senior.code (0x30000 + 64 * port)) ∧
      new = storeWord n.part 0 0 rd old ((R.PORT_CFG_EN 0).put 1 v) ∧ (R.PORT_CFG_EN port).get old = 0 ∧
      ((R.PORT_CFG_ADMIN port).get old = 1 ∨ n.adminRuns ((R.PORT_CFG_DOMAIN port).get old) = true) ∧ new = (R.PORT_CFG_EN port).put 1 old ∧
      n.portState port = 0 ∧ t = n.serving.foldl (fun t e => t.setWord (regKey e.code (0x30000 + 64 * port)) new) n ∧ t.isReady = true) ∧
    (∃ d : RSlot, ∃ r : Requester, ∃ port : Nat, ∃ v : Word, ∃ old : Word, ∃ new : Word, ∃ rd : RegDef, ∃ s : State, ∃ n : State, ∃ t : State,
      n = newStep 0x03 0 0 s ∧ s.hasRind d = true ∧ port < 256 ∧ n.fenced d = false ∧ n.mayWrite d r (0x30000 + 64 * port) = true ∧
      regDef d.code (0x30000 + 64 * port) = some rd ∧ old = n.word (regKey n.senior.code (0x30000 + 64 * port)) ∧
      new = storeWord n.part 0 0 rd old ((R.PORT_CFG_EN 0).put 0 v) ∧ (R.PORT_CFG_EN port).get old = 1 ∧ new = (R.PORT_CFG_EN port).put 0 old ∧
      ((R.PORT_CFG_ADMIN port).get old = 0 ∨ ∀ q < 256, q ≠ port → n.rdS (R.PORT_CFG_EN q) = 1 → n.portDomain q ≠ (R.PORT_CFG_DOMAIN port).get old) ∧
      t = n.serving.foldl (fun t e => t.setWord (regKey e.code (0x30000 + 64 * port)) new) n) ∧
    (∃ d : RSlot, ∃ r : Requester, ∃ dom : Nat, ∃ hi : Bool, ∃ _v : Word, ∃ rd : RegDef, ∃ s : State, ∃ n : State, n = newStep 0x03 0 0 s ∧
      s.hasRind d = true ∧ dom < 16 ∧ n.fenced d = false ∧ n.mayWrite d r (0x34000 + 16 * dom + 4 * bit hi) = true ∧
      regDef d.code (0x34000 + 16 * dom + 4 * bit hi) = some rd) :=
  ⟨⟨.f0, .sideband, 15, 0, _, _, (regDef 0 (0x20100 + 16 * 15)).getD ⟨0, [], []⟩, Z, _, rfl, (by decide +kernel), (by decide +kernel),
    (by decide +kernel), (by decide +kernel), (by decide +kernel), (by decide +kernel), (by decide +kernel), rfl, rfl,
    (by decide +kernel)⟩,
   ⟨.f0, .sideband, 255, 0x40000400, _, _, (regDef 0 (0x30000 + 64 * 255)).getD ⟨0, [], []⟩,
     ((ready.wrR .f0 (R.PORT_CFG_POLLINT 255) 1).wrR .f1 (R.PORT_CFG_POLLINT 255) 1 |> fun s => (s.wrR .f0 (R.PORT_CFG_ADMIN 255) 1).wrR .f1
     (R.PORT_CFG_ADMIN 255) 1), _, _, rfl, (by decide +kernel), (by decide +kernel), (by decide +kernel), (by decide +kernel),
     (by decide +kernel), rfl, rfl, (by decide +kernel), (by decide +kernel), (by decide +kernel), (by decide +kernel), rfl,
     (by decide +kernel)⟩,
   ⟨.f0, .sideband, 255, 0x400, _, _, (regDef 0 (0x30000 + 64 * 255)).getD ⟨0, [], []⟩, enabled255, _, _, rfl, (by decide +kernel),
     (by decide +kernel), (by decide +kernel), (by decide +kernel), (by decide +kernel), rfl, rfl, (by decide +kernel),
     (by decide +kernel), (by decide +kernel), rfl⟩,
   ⟨.f1, .sideband, 15, true, 0, (regDef 1 (0x34000 + 16 * 15 + 4)).getD ⟨0, [], []⟩, Z, _, rfl, (by decide +kernel)⟩⟩

theorem test_witness_SetupRowsOfUnits :
    (∃ d : RSlot, ∃ r : Requester, ∃ _v : Word, ∃ s : State, ∃ n : State, n = newStep 0x03 0 0 s ∧ s.hasRind d = true ∧ n.fenced d = false ∧
      n.mayWrite d r 0x78000 = true ∧ n.pageOpen d 0x78000 = true) ∧
    (∃ d : RSlot, ∃ r : Requester, ∃ _sp : Bool, ∃ s : State, ∃ n : State, n = newStep 0x03 0 0 s ∧ s.hasRind d = true ∧ n.fenced d = false ∧
      n.mayWrite d r 0x78004 = true ∧ n.pageOpen d 0x78004 = true ∧ s.regsWf = true ∧ (∀ e ∈ n.serving, n.bitR e R.CAVE_STAT_BUSY = false)) ∧
    (∃ d : RSlot, ∃ r : Requester, ∃ s : State, ∃ n : State, n = newStep 0x03 0 0 s ∧ n.part.f = 2 ∧ s.hasRind d = true ∧ n.fenced d = false ∧
      n.mayWrite d r 0xB8004 = true ∧ n.pageOpen d 0xB8004 = true) ∧
    (∃ d : RSlot, ∃ r : Requester, ∃ s : State, ∃ n : State, n = newStep 0x03 0 0 s ∧ s.hasRind d = true ∧ n.fenced d = false ∧
      n.mayWrite d r 0xD0030 = true) ∧
    (∃ d : RSlot, ∃ r : Requester, ∃ s : State, ∃ n : State, n = newStep 0x03 0 0 s ∧ s.hasRind d = true ∧ s.regsWf = true ∧ n.fenced d = false ∧
      n.mayWrite d r 0xE0004 = true) :=
  ⟨⟨.f0, .sideband, 1, opened [7], _, rfl, (by decide +kernel)⟩,
   ⟨.f0, .sideband, true, opened [7], _, rfl, (by decide +kernel)⟩,
   ⟨.f0, .sideband, opened [11], _, rfl, (by decide +kernel)⟩,
   ⟨.f0, .sideband, Z, _, rfl, (by decide +kernel)⟩,
   ⟨.f0, .sideband, Z, _, rfl, (by decide +kernel)⟩⟩

theorem test_witness_FaultInjection :
    (∃ d : RSlot, ∃ r : Requester, ∃ v : Word, ∃ s : State, ∃ n : State, n = newStep 0x03 0 0 s ∧ s.hasRind d = true ∧ n.fenced d = false ∧
      n.mayWrite d r 0xD8010 = true ∧ n.pageOpen d 0xD8010 = true ∧ n.bitR n.senior R.FAULT_INJ_ARM = false ∧ R.FAULT_INJ_GO.get v = 0) ∧
    (∃ d : RSlot, ∃ r : Requester, ∃ v : Word, ∃ s : State, ∃ n : State, n = newStep 0x03 0 0 s ∧ s.hasRind d = true ∧ n.fenced d = false ∧
      n.mayWrite d r 0xD8010 = true ∧ n.pageOpen d 0xD8010 = true ∧ n.bitR n.senior R.FAULT_INJ_ARM = true ∧ R.FAULT_INJ_DIE.get v = 0 ∧
      .f0 ∈ n.serving ∧ s.regsWf = true) ∧
    (∃ d : RSlot, ∃ s : State, s.rdR d R.FAULT_INJ_MODE = 1 ∧ s.rdR d R.FAULT_INJ_SOURCE < 0x100) ∧
    (∃ d : RSlot, ∃ s : State, s.rdR d R.FAULT_INJ_MODE = 4) ∧
    (∃ d : RSlot, ∃ s : State, s.rdR d R.FAULT_INJ_MODE = 5) :=
  ⟨⟨.f0, .sideband, 0x80000000, opened [13], _, rfl, (by decide +kernel)⟩,
   ⟨.f0, .sideband, 0x40000000, (opened [13]).wrR .f0 R.FAULT_INJ_ARM 1, _, rfl, (by decide +kernel)⟩,
   ⟨.f0, (Z.wrR .f0 R.FAULT_INJ_MODE 1).wrR .f0 R.FAULT_INJ_SOURCE 0xFF, (by decide +kernel)⟩,
   ⟨.f1, Z.wrR .f1 R.FAULT_INJ_MODE 4, (by decide +kernel)⟩,
   ⟨.f0, Z.wrR .f0 R.FAULT_INJ_MODE 5, (by decide +kernel)⟩⟩

theorem test_witness_SidebandAndCurdWindow :
    (∃ a : Nat, ∃ d : RSlot, ∃ _addr : Word, ∃ s : State, s.sbDie a = some d) ∧
    (∃ b : Nat, ∃ d : RSlot, ∃ rd : RegDef, ∃ a : Nat, ∃ s : State, s.sbDie b = some d ∧ (s.rind d).sb.addr = a ∧ islandServed a = true ∧
      a % 0x10000 < 0x7FF0 ∧ regDef d.code a = some rd) ∧
    (∃ b : Nat, ∃ d : RSlot, ∃ s : State, s.sbDie b = some d ∧ islandServed (s.rind d).sb.addr = false ∧ s.coreUp d = false) ∧
    (∃ b : Nat, ∃ _pec : Bool, ∃ _v : Word, ∃ s : State, s.sbDie b = none) ∧
    (∃ b : Nat, ∃ d : RSlot, ∃ _v : Word, ∃ s : State, s.sbDie b = some d ∧ (s.coreUp d || islandWrites (s.rind d).sb.addr) = true) ∧
    (∃ d : RSlot, ∃ n : Nat, ∃ s : State, (s.rind d).sb.waiting = some (false, n)) ∧
    (∃ d : RSlot, ∃ g : Nat, ∃ off : Nat, ∃ v : Word, ∃ s : State, s.hasCurd g = true ∧ s.hasRind d = true ∧ off < 0x100000 ∧ off % 4 = 0 ∧
      (takeAccess g d true (isAccess true off v) s).1 = true) ∧
    (∃ d : RSlot, ∃ g : Nat, ∃ off : Nat, ∃ v : Word, ∃ s : State, ∃ n : State, n = (takeAccess g d false (isAccess false off v) s).2 ∧
      s.hasCurd g = true ∧ s.hasRind d = true ∧ off < 0x100000 ∧ off % 4 = 0) :=
  ⟨⟨0x4C, .f0, 0xFFFFFFFF, powered, (by decide +kernel)⟩,
   ⟨0x5D, .f1, (regDef 1 0).getD ⟨0, [], []⟩, 0, { Z with pins := { por := true, sbAddr := true } }, (by decide +kernel)⟩,
   ⟨0x4C, .f0, powered.modRind .f0 (fun r => { r with sb := { addr := 0x30000 } }), (by decide +kernel)⟩,
   ⟨0x5C, true, 0, powered, (by decide +kernel)⟩,
   ⟨0x4C, .f0, 0, powered.wrR .f0 R.BOOT_STAT_PHASE 8, (by decide +kernel)⟩,
   ⟨.f0, 0, Z.modRind .f0 (fun r => { r with sb := { waiting := some (false, 0) } }), (by decide +kernel)⟩,
   ⟨.f0, 0, 0xFFFFC, 7, heldC 0 .f0 ⟨3, 0, 0, 0, [0x010FFFFC, 7, 0]⟩ linked, (by decide +kernel)⟩,
   ⟨.f0, 0, 0xFFFFC, 0, Z, _, rfl, (by decide +kernel)⟩⟩

theorem test_witness_DoorbellLines :
    (∃ d : RSlot, ∃ p : Nat, ∃ s : State, d ∈ (s.portX p).line ∧ s.fenced d = false) ∧
    (∃ d : RSlot, ∃ p : Nat, ∃ h : Nat, ∃ s : State, s.headOf d (s.portDomain p) = some h) ∧
    (∃ a : Nat, ∃ b : Nat, ∃ x : List Byte, ∃ _y : List Byte, a < 65536 ∧ b < 65536 ∧ x.length = 2) ∧
    (∃ d : RSlot, ∃ p : Nat, ∃ a : Nat, ∃ b : Nat, ∃ lo : List Byte, ∃ hi : List Byte, ∃ s : State, d ∈ (s.portX p).reading ∧ s.fenced d = false ∧
      doorbellLine (lo ++ hi) = (a, b)) ∧
    (∃ p : Nat, ∃ a : Nat, ∃ b : Nat, ∃ s : State, s.portState p ≠ 0 ∧ ¬ (a = s.rdS (R.PORT_STAT_SQTAIL p) ∧ b = s.rdS (R.PORT_OUT_CQHEAD p)) ∧
      a < s.rdS (R.PORT_SIZE_SQSIZE p) ∧ b < s.rdS (R.PORT_SIZE_CQSIZE p) ∧
      (b + s.rdS (R.PORT_SIZE_CQSIZE p) - s.rdS (R.PORT_OUT_CQHEAD p)) % s.rdS (R.PORT_SIZE_CQSIZE p) ≤ s.cqUsed p) ∧
    (∃ p : Nat, ∃ a : Nat, ∃ b : Nat, ∃ s : State, s.portState p ≠ 0 ∧ ¬ (a = s.rdS (R.PORT_STAT_SQTAIL p) ∧ b = s.rdS (R.PORT_OUT_CQHEAD p)) ∧
      s.rdS (R.PORT_SIZE_SQSIZE p) ≤ a ∧ b < s.rdS (R.PORT_SIZE_CQSIZE p) ∧
      (b + s.rdS (R.PORT_SIZE_CQSIZE p) - s.rdS (R.PORT_OUT_CQHEAD p)) % s.rdS (R.PORT_SIZE_CQSIZE p) ≤ s.cqUsed p) ∧
    (∃ p : Nat, ∃ a : Nat, ∃ b : Nat, ∃ s : State, s.portState p ≠ 0 ∧ ¬ (a = s.rdS (R.PORT_STAT_SQTAIL p) ∧ b = s.rdS (R.PORT_OUT_CQHEAD p)) ∧
      a < s.rdS (R.PORT_SIZE_SQSIZE p) ∧ s.rdS (R.PORT_SIZE_CQSIZE p) ≤ b) ∧
    (∃ d : RSlot, ∃ p : Nat, ∃ s : State, p < 256 ∧ d ∈ s.serving ∧ s.portState p ≠ 0 ∧ s.polled d p = true ∧ d ∉ (s.portX p).reading) ∧
    (∃ d : RSlot, ∃ p : Nat, ∃ s : State, d ∈ (s.portX p).reading ∧ d = s.senior ∧ s.fenced d = false) ∧
    (∃ d : RSlot, ∃ p : Nat, ∃ s : State, d ∈ (s.portX p).reading ∧ d ≠ s.senior) ∧
    (∃ p : Nat, ∃ _c : Nat, ∃ s : State, s.portState p = 1) :=
  ⟨⟨.f0, 255, { Z with ports := [(255, { line := [.f0] })] }, (by decide +kernel)⟩,
   ⟨.f0, 0, 3, headed 3, (by decide +kernel)⟩,
   ⟨65535, 65535, [1, 2], [3], (by decide +kernel)⟩,
   ⟨.f0, 0, 1, 2, [1, 0, 0, 0, 2, 0], [], { Z with ports := [(0, { reading := [.f0] })] }, (by decide +kernel)⟩,
   ⟨255, 63, 63, running 255, (by decide +kernel)⟩,
   ⟨255, 64, 63, running 255, (by decide +kernel)⟩,
   ⟨255, 63, 64, running 255, (by decide +kernel)⟩,
   ⟨.f0, 255, (running 255).wrR .f0 (R.LINK_HEADCFG_MODE 0) 2, (by decide +kernel)⟩,
   ⟨.f0, 0, { Z with ports := [(0, { reading := [.f0] })] }, (by decide +kernel)⟩,
   ⟨.f1, 0, { Z with ports := [(0, { reading := [.f1] })] }, (by decide +kernel)⟩,
   ⟨0, 0, running 0, (by decide +kernel)⟩⟩

theorem test_witness_FetchesAndStatusLines :
    (∃ descs : List (List Byte), ∃ p : Nat, ∃ pos : Option Nat, ∃ x : Sched, ∃ s : State, s.arbitrate = some (p, pos, x) ∧ descs.length = s.burst p ∧
      (∀ b ∈ descs, b.length = 64)) ∧
    (∃ d : RSlot, ∃ p : Nat, ∃ s : State, d = s.senior ∧ d ∈ s.serving ∧ s.portEligible p = true) ∧
    (∃ d : RSlot, ∃ _p : Nat, ∃ s : State, d ≠ s.senior) ∧
    (∃ d : RSlot, ∃ dom : Nat, ∃ s : State, s.hasRind d = true ∧ dom < 16 ∧ s.fenced d = false ∧ s.lineOn dom = true) ∧
    (∃ d : RSlot, ∃ dom : Nat, ∃ s : State, s.hasRind d = true ∧ dom < 16 ∧ s.fenced d = true) ∧
    (∃ d : RSlot, ∃ dom : Nat, ∃ s : State, s.hasRind d = true ∧ dom < 16 ∧ s.fenced d = false ∧ s.lineOn dom = false) :=
  ⟨⟨[descOf []], 255, none, { lastA := 255 }, adminPort 255, (by decide +kernel)⟩,
   ⟨.f0, 255, adminPort 255, (by decide +kernel)⟩,
   ⟨.f1, 255, adminPort 255, (by decide +kernel)⟩,
   ⟨.f1, 15, (Z.wrR .f0 (R.PORT_SLLO_SLEN 15) 1).wrR .f1 (R.PORT_SLLO_SLEN 15) 1, (by decide +kernel)⟩,
   ⟨.f1, 15, Z.wrR .f1 R.STEP_STAT_ROLE 3, (by decide +kernel)⟩,
   ⟨.f0, 15, Z, (by decide +kernel)⟩⟩

theorem test_witness_CommandAdmission :
    (∃ p : Nat, ∃ c : Cmd, ∃ s : State, s.Ready p c ∧ c.op = 1) ∧
    (∃ p : Nat, ∃ c : Cmd, ∃ s : State, s.Ready p c ∧ c.op = 8) ∧
    (∃ p : Nat, ∃ c : Cmd, ∃ s : State, s.Ready p c ∧ c.op = 2) ∧
    (∃ p : Nat, ∃ c : Cmd, ∃ s : State, s.Ready p c ∧ c.op = 4) ∧
    (∃ p : Nat, ∃ c : Cmd, ∃ s : State, s.Ready p c ∧ c.op = 5) ∧
    (∃ p : Nat, ∃ c : Cmd, ∃ s : State, s.Ready p c ∧ c.op = 6) ∧
    (∃ p : Nat, ∃ c : Cmd, ∃ s : State, s.Ready p c ∧ c.op = 7) ∧
    (∃ p : Nat, ∃ c : Cmd, ∃ x : Volume, ∃ s : State, ∃ t : State, ∃ v : State, s.Ready p c ∧ c.op = 3 ∧ s.xlat.t.vol? c.vol = some x ∧
      t = ringAdvance c.vol (x.wp + c.nblk) (c.nblk / 65536 + 2) s ∧
      openBands c.vol (x.wp / 65536) ((x.wp + c.nblk - 1) / 65536 - x.wp / 65536 + 1) t = some v) ∧
    (∃ p : Nat, ∃ c : Cmd, ∃ t : Cmd, ∃ s : State, s.Ready p c ∧ c.op = 9 ∧ s.cmdOf (c.fld 8 2) (c.fld 0xA 2) = some t ∧ t.uid ≠ c.uid) ∧
    (∃ p : Nat, ∃ c : Cmd, ∃ s : State, s.Ready p c ∧ c.op = 9 ∧ s.cmdOf (c.fld 8 2) (c.fld 0xA 2) = none) ∧
    (∃ p : Nat, ∃ c : Cmd, ∃ s : State, s.NextIs p c ∧ c.op ∉ knownOps) ∧
    (∃ p : Nat, ∃ st : Nat, ∃ info : Nat, ∃ c : Cmd, ∃ s : State, s.NextIs p c ∧ s.admission c = some (st, info) ∧ c.op = 1) ∧
    (∃ p : Nat, ∃ st : Nat, ∃ info : Nat, ∃ c : Cmd, ∃ s : State, s.NextIs p c ∧ s.admission c = some (st, info) ∧ c.op = 2) ∧
    (∃ p : Nat, ∃ st : Nat, ∃ info : Nat, ∃ c : Cmd, ∃ s : State, s.NextIs p c ∧ s.admission c = some (st, info) ∧ c.op = 3) ∧
    (∃ p : Nat, ∃ st : Nat, ∃ info : Nat, ∃ c : Cmd, ∃ s : State, s.NextIs p c ∧ s.admission c = some (st, info) ∧ c.op = 4) ∧
    (∃ p : Nat, ∃ st : Nat, ∃ info : Nat, ∃ c : Cmd, ∃ s : State, s.NextIs p c ∧ s.admission c = some (st, info) ∧ c.op = 5) ∧
    (∃ p : Nat, ∃ st : Nat, ∃ info : Nat, ∃ c : Cmd, ∃ s : State, s.NextIs p c ∧ s.admission c = some (st, info) ∧ c.op = 6) ∧
    (∃ p : Nat, ∃ st : Nat, ∃ info : Nat, ∃ c : Cmd, ∃ s : State, s.NextIs p c ∧ s.admission c = some (st, info) ∧ c.op = 7) ∧
    (∃ p : Nat, ∃ st : Nat, ∃ info : Nat, ∃ c : Cmd, ∃ s : State, s.NextIs p c ∧ s.admission c = some (st, info) ∧ c.op = 8) ∧
    (∃ p : Nat, ∃ st : Nat, ∃ info : Nat, ∃ c : Cmd, ∃ s : State, s.NextIs p c ∧ s.admission c = some (st, info) ∧ c.op = 9) :=
  ⟨⟨0, readC, fetched [readC], by_dec (decReady _ _ _) (by decide +kernel), (by decide +kernel)⟩,
   ⟨0, cmdOf [(0, 1, 8), (8, 8, 0), (0x10, 4, 65536)], fetched [cmdOf [(0, 1, 8), (8, 8, 0), (0x10, 4, 65536)]],
     by_dec (decReady _ _ _) (by decide +kernel), (by decide +kernel)⟩,
   ⟨0, cmdOf [(0, 1, 2), (8, 8, 63488), (0x10, 4, 2048), (0x20, 4, 8388608)], fetched [cmdOf [(0, 1, 2), (8, 8, 63488), (0x10, 4, 2048), (0x20, 4,
     8388608)]], by_dec (decReady _ _ _) (by decide +kernel), (by decide +kernel)⟩,
   ⟨0, cmdOf [(0, 1, 4), (0x27, 1, 0x80)], fetched [cmdOf [(0, 1, 4), (0x27, 1, 0x80)]], by_dec (decReady _ _ _) (by decide +kernel),
     (by decide +kernel)⟩,
   ⟨0, cmdOf [(0, 1, 5), (1, 1, 0x20)], fetched [cmdOf [(0, 1, 5), (1, 1, 0x20)]], by_dec (decReady _ _ _) (by decide +kernel),
     (by decide +kernel)⟩,
   ⟨0, cmdOf [(0, 1, 6), (8, 8, 65535), (0x10, 4, 1)], fetched [cmdOf [(0, 1, 6), (8, 8, 65535), (0x10, 4, 1)]],
     by_dec (decReady _ _ _) (by decide +kernel), (by decide +kernel)⟩,
   ⟨0, cmdOf [(0, 1, 7), (0x10, 4, 65536)], fetched [cmdOf [(0, 1, 7), (0x10, 4, 65536)]], by_dec (decReady _ _ _) (by decide +kernel),
     (by decide +kernel)⟩,
   ⟨0, cmdOf [(0, 1, 3), (4, 1, 1), (0x10, 4, 2048), (0x20, 4, 8388608)], { desc := ⟨2, false, false, 63, 2, 1, 1, []⟩ },
     fetched [cmdOf [(0, 1, 3), (4, 1, 1), (0x10, 4, 2048), (0x20, 4, 8388608)]], _, fetched [cmdOf [(0, 1, 3), (4, 1, 1), (0x10, 4, 2048), (0x20, 4,
     8388608)]], by_dec (decReady _ _ _) (by decide +kernel), (by decide +kernel), (by decide +kernel), rfl, (by decide +kernel)⟩,
   ⟨0, cmdOf [(0, 1, 9), (0xA, 2, 1)], { readC with uid := 1, tag := 1 }, fetched [cmdOf [(0, 1, 9), (0xA, 2, 1)],
     { readC with uid := 1, tag := 1 }], by_dec (decReady _ _ _) (by decide +kernel), (by decide +kernel)⟩,
   ⟨0, cmdOf [(0, 1, 9), (0xA, 2, 0xFFFF)], fetched [cmdOf [(0, 1, 9), (0xA, 2, 0xFFFF)]], by_dec (decReady _ _ _) (by decide +kernel),
     (by decide +kernel)⟩,
   ⟨0, cmdOf [(0, 1, 0)], fetched [cmdOf [(0, 1, 0)]], by_dec (decNextIs _ _ _) (by decide +kernel), (by decide +kernel)⟩,
   ⟨0, St.tagInUse, 0, dupOf 1, fetched [dupOf 1], by_dec (decNextIs _ _ _) (by decide +kernel), (by decide +kernel)⟩,
   ⟨0, St.tagInUse, 0, dupOf 2, fetched [dupOf 2], by_dec (decNextIs _ _ _) (by decide +kernel), (by decide +kernel)⟩,
   ⟨0, St.tagInUse, 0, dupOf 3, fetched [dupOf 3], by_dec (decNextIs _ _ _) (by decide +kernel), (by decide +kernel)⟩,
   ⟨0, St.tagInUse, 0, dupOf 4, fetched [dupOf 4], by_dec (decNextIs _ _ _) (by decide +kernel), (by decide +kernel)⟩,
   ⟨0, St.tagInUse, 0, dupOf 5, fetched [dupOf 5], by_dec (decNextIs _ _ _) (by decide +kernel), (by decide +kernel)⟩,
   ⟨0, St.tagInUse, 0, dupOf 6, fetched [dupOf 6], by_dec (decNextIs _ _ _) (by decide +kernel), (by decide +kernel)⟩,
   ⟨0, St.tagInUse, 0, dupOf 7, fetched [dupOf 7], by_dec (decNextIs _ _ _) (by decide +kernel), (by decide +kernel)⟩,
   ⟨0, St.tagInUse, 0, dupOf 8, fetched [dupOf 8], by_dec (decNextIs _ _ _) (by decide +kernel), (by decide +kernel)⟩,
   ⟨0, St.invalidField, 8, cmdOf [(0, 1, 9)], fetched [cmdOf [(0, 1, 9)]], by_dec (decNextIs _ _ _) (by decide +kernel),
     (by decide +kernel)⟩⟩

theorem test_witness_CommandWorkAndCompletion :
    (∃ p : Nat, ∃ tag : Nat, ∃ st : Nat, ∃ info : Nat, ∃ c : Cmd, ∃ s : State, s.cmdOf p tag = some c ∧ s.outcome c = some (st, info)) ∧
    (∃ c : Cmd, ∃ s : State, c.op = 1 ∧ c.fail = none ∧ c.phase = .admitted ∧ c.flash = false ∧ s.badOf c = [] ∧ c.flag 1 = false ∧
      s.hazard c = false ∧ movedAll c.moved (4096 * c.nblk) = true) ∧
    (∃ _d : RSlot, ∃ _e : Nat, ∃ p : Nat, ∃ tag : Nat, ∃ s : State, s.cmdOf p tag = none) ∧
    (∃ g : Nat, ∃ times : List Nat, ∃ o : MediaOp, ∃ s : State, s.groupActive g = true ∧ s.nextMediaOp g times = some o) ∧
    (∃ g : Nat, ∃ o : MediaOp, ∃ s : State, ∃ x, x ∈ (takeOp g o s).versions ∧ o.write = true ∧ x.uid = o.uid ∧ (x.vol, x.blk) ∈ o.blocks) ∧
    (∃ p : Nat, ∃ tag : Nat, ∃ c : Cmd, ∃ _unit : Option RUnit, ∃ s : State, s.cmdOf p tag = some c ∧ c.phase = .admitted) ∧
    (∃ c : Cmd, ∃ _info : Nat, ∃ _s : State, c.fail ≠ some (St.aborted, 0)) :=
  ⟨⟨0, 0, St.success, 0, readDone, fetched [readDone], (by decide +kernel)⟩,
   ⟨readDone, fetched [readDone], (by decide +kernel)⟩,
   ⟨.f0, 7, 255, 65535, Z, (by decide +kernel)⟩,
   ⟨0, [], ⟨0, false, 0, 4, 0, false, [(0, 65535)], 8⟩, fetched [{ readC with phase := .admitted }], (by decide +kernel)⟩,
   ⟨0, ⟨0, true, 0, 0, 0, false, [(0, 65535)], 8⟩, { stored with versions := [oneVersion] }, { oneVersion with taken := true },
     (by decide +kernel)⟩,
   ⟨0, 0, { readC with phase := .admitted }, some .portEngine, fetched [{ readC with phase := .admitted }], (by decide +kernel)⟩,
   ⟨readC, 0, Z, (by decide +kernel)⟩⟩

theorem test_witness_AdminReports :
    (∃ p : Nat, ∃ c : Cmd, ∃ s : State, s.Ready p c ∧ c.op = 0x80) ∧
    (∃ p : Nat, ∃ c : Cmd, ∃ s : State, s.Ready p c ∧ c.op = 0x82) ∧
    (∃ p : Nat, ∃ c : Cmd, ∃ s : State, ∃ l : List Byte, ∃ data : List Byte, s.Ready p c ∧ c.op = 0x81 ∧
      l = (if c.fld 8 1 = 1 then s.logPage else if c.fld 8 1 = 2 then s.faultPage else if c.fld 8 1 = 3 then s.tallyPage else s.slotPage) ∧
      data = (l.drop ((if c.fld 8 1 = 1 then 64 else 1) * c.fld 0x10 8)).take (c.fld 0xC 4)) ∧
    (∃ p : Nat, ∃ st : Nat, ∃ info : Nat, ∃ c : Cmd, ∃ s : State, s.NextIs p c ∧ s.admission c = some (st, info) ∧ c.op = 0x80) ∧
    (∃ p : Nat, ∃ st : Nat, ∃ info : Nat, ∃ c : Cmd, ∃ s : State, s.NextIs p c ∧ s.admission c = some (st, info) ∧ c.op = 0x81) ∧
    (∃ p : Nat, ∃ st : Nat, ∃ info : Nat, ∃ c : Cmd, ∃ s : State, s.NextIs p c ∧ s.admission c = some (st, info) ∧ c.op = 0x82) :=
  ⟨⟨0, cmdOf [(0, 1, 0x80), (8, 1, 1), (0xA, 2, 63)], fetched [cmdOf [(0, 1, 0x80), (8, 1, 1), (0xA, 2, 63)]],
    by_dec (decReady _ _ _) (by decide +kernel), (by decide +kernel)⟩,
   ⟨0, cmdOf [(0, 1, 0x82), (8, 1, 1), (9, 1, 2)], fetched [cmdOf [(0, 1, 0x82), (8, 1, 1), (9, 1, 2)]],
     by_dec (decReady _ _ _) (by decide +kernel), (by decide +kernel)⟩,
   ⟨0, cmdOf [(0, 1, 0x81), (8, 1, 4), (0xC, 4, 64)], fetched [cmdOf [(0, 1, 0x81), (8, 1, 4), (0xC, 4, 64)]], _, _,
     by_dec (decReady _ _ _) (by decide +kernel), (by decide +kernel), rfl, rfl⟩,
   ⟨0, St.tagInUse, 0, dupOf 0x80, fetched [dupOf 0x80], by_dec (decNextIs _ _ _) (by decide +kernel), (by decide +kernel)⟩,
   ⟨0, St.invalidField, 8, cmdOf [(0, 1, 0x81), (8, 1, 5)], fetched [cmdOf [(0, 1, 0x81), (8, 1, 5)]],
     by_dec (decNextIs _ _ _) (by decide +kernel), (by decide +kernel)⟩,
   ⟨0, St.invalidField, 8, cmdOf [(0, 1, 0x82), (8, 1, 7)], fetched [cmdOf [(0, 1, 0x82), (8, 1, 7)]],
     by_dec (decNextIs _ _ _) (by decide +kernel), (by decide +kernel)⟩⟩

theorem test_witness_SettingFeatures :
    (∃ p : Nat, ∃ c : Cmd, ∃ s : State, s.Ready p c ∧ c.op = 0x83 ∧ c.fld 8 1 = 1) ∧
    (∃ p : Nat, ∃ c : Cmd, ∃ s : State, s.Ready p c ∧ c.op = 0x83 ∧ c.fld 8 1 = 2) ∧
    (∃ p : Nat, ∃ c : Cmd, ∃ s : State, s.Ready p c ∧ c.op = 0x83 ∧ c.fld 8 1 = 3) ∧
    (∃ p : Nat, ∃ c : Cmd, ∃ s : State, s.Ready p c ∧ c.op = 0x83 ∧ c.fld 8 1 = 4) ∧
    (∃ p : Nat, ∃ c : Cmd, ∃ s : State, s.Ready p c ∧ c.op = 0x83 ∧ c.fld 8 1 = 5) ∧
    (∃ p : Nat, ∃ c : Cmd, ∃ s : State, s.Ready p c ∧ c.op = 0x83 ∧ c.fld 8 1 = 6) ∧
    (∃ p : Nat, ∃ c : Cmd, ∃ s : State, s.Ready p c ∧ c.op = 0x83 ∧ c.fld 8 1 = 7) ∧
    (∃ c : Cmd, ∃ _s : State, c.flag 6 = false) ∧
    (∃ c : Cmd, ∃ s : State, c.flag 6 = true ∧ s.fuses.ownerKey = true) ∧
    (∃ c : Cmd, ∃ s : State, c.flag 6 = true ∧ s.flashStop true = none ∧ s.flash.op = none) ∧
    (∃ _v : Nat, ∃ s : State, ∃ d, d ∈ s.serving ∧ s.regsWf = true) ∧
    (∃ k : Nat, ∃ st : Settings, ∃ vals : List (Fld × Nat), ∃ port : Nat, ∃ tag : Nat, ∃ again : Bool, ∃ s : State,
      s.flash.op = some (.settings k st vals port tag again) ∧ s.xlat.pendingVol = none ∧ s.flash.sagged = false) ∧
    (∃ k : Nat, ∃ st : Settings, ∃ vals : List (Fld × Nat), ∃ port : Nat, ∃ tag : Nat, ∃ s : State,
      s.flash.op = some (.settings k st vals port tag false) ∧ s.flash.sagged = false ∧ s.pins.sagPause = false) ∧
    (∃ k : Nat, ∃ st : Settings, ∃ vals : List (Fld × Nat), ∃ port : Nat, ∃ tag : Nat, ∃ again : Bool, ∃ s : State,
      s.flash.op = some (.settings k st vals port tag again) ∧ s.xlat.pendingVol = none ∧ s.flash.sagged = true) ∧
    (∃ k : Nat, ∃ st : Settings, ∃ vals : List (Fld × Nat), ∃ port : Nat, ∃ tag : Nat, ∃ s : State,
      s.flash.op = some (.settings k st vals port tag true) ∧ s.xlat.pendingVol = none ∧ s.flash.sagged = true) ∧
    (∃ k : Nat, ∃ st : Settings, ∃ vals : List (Fld × Nat), ∃ port : Nat, ∃ tag : Nat, ∃ s : State,
      s.flash.op = some (.settings k st vals port tag true) ∧ s.xlat.pendingVol = none ∧ s.flash.sagged = false) :=
  ⟨⟨0, setF 1 0 [(0x10, 2, 50)], fetched [setF 1 0 [(0x10, 2, 50)]], by_dec (decReady _ _ _) (by decide +kernel), (by decide +kernel)⟩,
   ⟨0, setF 2 13 [(0x10, 2, 1298), (0x12, 2, 10), (0x14, 2, 1299), (0x16, 2, 200), (0x18, 2, 1300), (0x1A, 2, 10)], fetched [setF 2 13 [(0x10, 2,
     1298), (0x12, 2, 10), (0x14, 2, 1299), (0x16, 2, 200), (0x18, 2, 1300), (0x1A, 2, 10)]], by_dec (decReady _ _ _) (by decide +kernel),
     (by decide +kernel)⟩,
   ⟨0, setF 3 0 [(0x10, 2, 5)], fetched [setF 3 0 [(0x10, 2, 5)]], by_dec (decReady _ _ _) (by decide +kernel), (by decide +kernel)⟩,
   ⟨0, setF 4 15 [(0x10, 2, 192), (0x12, 2, 255), (0x14, 1, 2)], fetched [setF 4 15 [(0x10, 2, 192), (0x12, 2, 255), (0x14, 1, 2)]],
     by_dec (decReady _ _ _) (by decide +kernel), (by decide +kernel)⟩,
   ⟨0, setF 5 0 [(0x10, 2, 3200), (0x12, 1, 255)], fetched [setF 5 0 [(0x10, 2, 3200), (0x12, 1, 255)]],
     by_dec (decReady _ _ _) (by decide +kernel), (by decide +kernel)⟩,
   ⟨0, setF 6 1 [(0x10, 1, 4), (0x11, 1, 1), (0x12, 2, 1), (0x14, 4, 1)], fetched [setF 6 1 [(0x10, 1, 4), (0x11, 1, 1), (0x12, 2, 1), (0x14, 4,
     1)]], by_dec (decReady _ _ _) (by decide +kernel), (by decide +kernel)⟩,
   ⟨0, cmdOf [(0, 1, 0x83), (8, 1, 7)], fetched [cmdOf [(0, 1, 0x83), (8, 1, 7)]], by_dec (decReady _ _ _) (by decide +kernel),
     (by decide +kernel)⟩,
   ⟨cmdOf [(0, 1, 0x83), (8, 1, 7)], Z, (by decide +kernel)⟩,
   ⟨setF 1 0 [], { Z with fuses := { ownerHash := some [] } }, (by decide +kernel)⟩,
   ⟨setF 1 0 [], Z, (by decide +kernel)⟩,
   ⟨5, Z, .f1, (by decide +kernel)⟩,
   ⟨1, {}, [], 0, 0, true, { Z with flash := { op := some (.settings 1 {} [] 0 0 true) } }, (by decide +kernel)⟩,
   ⟨0, {}, [], 0, 0, { Z with flash := { op := some (.settings 0 {} [] 0 0 false) } }, (by decide +kernel)⟩,
   ⟨1, {}, [], 0, 0, true, { Z with flash := { op := some (.settings 1 {} [] 0 0 true), sagged := true } },
     (by decide +kernel)⟩,
   ⟨1, {}, [], 0, 0, { Z with flash := { op := some (.settings 1 {} [] 0 0 true), sagged := true } }, (by decide +kernel)⟩,
   ⟨0, {}, [], 0, 0, { Z with flash := { op := some (.settings 0 {} [] 0 0 true) } }, (by decide +kernel)⟩⟩

theorem test_witness_VolumeChanges :
    (∃ p : Nat, ∃ c : Cmd, ∃ s : State, s.Ready p c ∧ s.setsVolume c false false = true ∧ s.permitted c.volDesc = []) ∧
    (∃ p : Nat, ∃ c : Cmd, ∃ s : State, s.Ready p c ∧ s.setsVolume c false false = true ∧ s.permitted c.volDesc ≠ [] ∧
      createVolume (c.fld 0xA 2) c.volDesc s = none) ∧
    (∃ p : Nat, ∃ c : Cmd, ∃ s : State, s.Ready p c ∧ s.setsVolume c false false = true ∧ s.permitted c.volDesc ≠ [] ∧
      createVolume (c.fld 0xA 2) c.volDesc s ≠ none) ∧
    (∃ p : Nat, ∃ c : Cmd, ∃ x : Volume, ∃ s : State, s.Ready p c ∧ s.setsVolume c false true = true ∧ s.xlat.t.vol? (c.fld 0xA 2) = some x ∧
      { c.volDesc with rdmask := x.desc.rdmask, wrmask := x.desc.wrmask, label := x.desc.label } ≠ x.desc) ∧
    (∃ p : Nat, ∃ c : Cmd, ∃ x : Volume, ∃ s : State, s.Ready p c ∧ s.setsVolume c false true = true ∧ s.xlat.t.vol? (c.fld 0xA 2) = some x ∧
      { c.volDesc with rdmask := x.desc.rdmask, wrmask := x.desc.wrmask, label := x.desc.label } = x.desc ∧ s.volumeNamed c (c.fld 0xA 2) = true) ∧
    (∃ p : Nat, ∃ c : Cmd, ∃ x : Volume, ∃ s : State, s.Ready p c ∧ s.setsVolume c false true = true ∧ s.xlat.t.vol? (c.fld 0xA 2) = some x ∧
      { c.volDesc with rdmask := x.desc.rdmask, wrmask := x.desc.wrmask, label := x.desc.label } = x.desc ∧ s.volumeNamed c (c.fld 0xA 2) = false) ∧
    (∃ p : Nat, ∃ c : Cmd, ∃ s : State, s.Ready p c ∧ c.op = 0x83 ∧ c.fld 8 1 = 0x10 ∧ c.fld 0x10 1 = 0 ∧ (s.xlat.t.vol? (c.fld 0xA 2)) = none) ∧
    (∃ p : Nat, ∃ c : Cmd, ∃ s : State, s.Ready p c ∧ c.op = 0x83 ∧ c.fld 8 1 = 0x10 ∧ c.fld 0x10 1 = 0 ∧ (s.xlat.t.vol? (c.fld 0xA 2)) ≠ none ∧
      s.volumeNamed c (c.fld 0xA 2) = true) ∧
    (∃ p : Nat, ∃ c : Cmd, ∃ s : State, s.Ready p c ∧ c.op = 0x83 ∧ c.fld 8 1 = 0x10 ∧ c.fld 0x10 1 = 0 ∧ (s.xlat.t.vol? (c.fld 0xA 2)) ≠ none ∧
      s.volumeNamed c (c.fld 0xA 2) = false) ∧
    (∃ _c : Cmd, ∃ _v : Nat, ∃ _new : Option Volume, ∃ s : State, s.flashStop true = none ∧ s.flash.op = none ∧ s.xlat.pendingVol = none) ∧
    (∃ v : Nat, ∃ s : State, s.xlat.pendingVol = some (v, none)) :=
  ⟨⟨0, setF 0x10 63 [(0x10, 1, 2), (0x14, 4, 1)], fetched [setF 0x10 63 [(0x10, 1, 2), (0x14, 4, 1)]],
    by_dec (decReady _ _ _) (by decide +kernel), (by decide +kernel)⟩,
   ⟨0, setF 0x10 63 [(0x10, 1, 1), (0x12, 1, 1), (0x14, 4, 3)], fetched [setF 0x10 63 [(0x10, 1, 1), (0x12, 1, 1), (0x14, 4, 3)]],
     by_dec (decReady _ _ _) (by decide +kernel), (by decide +kernel)⟩,
   ⟨0, setF 0x10 63 [(0x10, 1, 1), (0x12, 1, 1), (0x14, 4, 2)], fetched [setF 0x10 63 [(0x10, 1, 1), (0x12, 1, 1), (0x14, 4, 2)]],
     by_dec (decReady _ _ _) (by decide +kernel), (by decide +kernel)⟩,
   ⟨0, setF 0x10 0 [(0x10, 1, 1), (0x12, 1, 63), (0x14, 4, 2)], { desc := ⟨1, false, false, 63, 1, 1, 1, []⟩ },
     fetched [setF 0x10 0 [(0x10, 1, 1), (0x12, 1, 63), (0x14, 4, 2)]], by_dec (decReady _ _ _) (by decide +kernel), (by decide +kernel)⟩,
   ⟨0, setF 0x10 0 [(0x10, 1, 1), (0x12, 1, 63), (0x14, 4, 1)], { desc := ⟨1, false, false, 63, 1, 1, 1, []⟩ },
     fetched [setF 0x10 0 [(0x10, 1, 1), (0x12, 1, 63), (0x14, 4, 1)], { readC with uid := 1 }],
     by_dec (decReady _ _ _) (by decide +kernel), (by decide +kernel)⟩,
   ⟨0, setF 0x10 0 [(0x10, 1, 1), (0x12, 1, 63), (0x14, 4, 1)], { desc := ⟨1, false, false, 63, 1, 1, 1, []⟩ },
     fetched [setF 0x10 0 [(0x10, 1, 1), (0x12, 1, 63), (0x14, 4, 1)]], by_dec (decReady _ _ _) (by decide +kernel), (by decide +kernel)⟩,
   ⟨0, setF 0x10 63 [], fetched [setF 0x10 63 []], by_dec (decReady _ _ _) (by decide +kernel), (by decide +kernel)⟩,
   ⟨0, setF 0x10 0 [], fetched [setF 0x10 0 [], { readC with uid := 1 }], by_dec (decReady _ _ _) (by decide +kernel),
     (by decide +kernel)⟩,
   ⟨0, setF 0x10 0 [], fetched [setF 0x10 0 []], by_dec (decReady _ _ _) (by decide +kernel), (by decide +kernel)⟩,
   ⟨setF 0x10 0 [], 0, none, fetched [setF 0x10 0 []], (by decide +kernel)⟩,
   ⟨0, { stored with xlat := { stored.xlat with pendingVol := some (0, none) } }, (by decide +kernel)⟩⟩

theorem test_witness_FirmwareUpdate :
    (∃ p : Nat, ∃ c : Cmd, ∃ _data : List Byte, ∃ s : State, s.Ready p c ∧ c.op = 0x84 ∧ s.flashStop false = none ∧ s.flash.op = none ∧
      c.fld 8 4 = 0 ∧ (∀ x, s.session = some x → s.portDomain x.port = s.domOf c)) ∧
    (∃ p : Nat, ∃ c : Cmd, ∃ _data : List Byte, ∃ x : FwSession, ∃ s : State, s.Ready p c ∧ c.op = 0x84 ∧ s.flashStop false = none ∧
      s.session = some x ∧ s.portDomain x.port = s.domOf c ∧ c.fld 8 4 ≠ 0 ∧ x.next ≠ c.fld 8 4) ∧
    (∃ p : Nat, ∃ c : Cmd, ∃ _data : List Byte, ∃ x : FwSession, ∃ s : State, s.Ready p c ∧ c.op = 0x84 ∧ s.flashStop false = none ∧
      s.session = some x ∧ s.portDomain x.port = s.domOf c ∧ c.fld 8 4 ≠ 0 ∧ x.next = c.fld 8 4 ∧ s.flash.op = none) ∧
    (∃ p : Nat, ∃ c : Cmd, ∃ _data : List Byte, ∃ x : FwSession, ∃ s : State, s.Ready p c ∧ c.op = 0x84 ∧ s.flashStop false = none ∧
      s.session = some x ∧ s.portDomain x.port ≠ s.domOf c) ∧
    (∃ p : Nat, ∃ st : Nat, ∃ c : Cmd, ∃ _data : List Byte, ∃ s : State, s.Ready p c ∧ s.flashStop false = some st ∧ c.op = 0x84) ∧
    (∃ p : Nat, ∃ st : Nat, ∃ c : Cmd, ∃ _data : List Byte, ∃ s : State, s.Ready p c ∧ s.flashStop false = some st ∧ c.op = 0x85) ∧
    (∃ _off : Nat, ∃ _port : Nat, ∃ _tag : Nat, ∃ _data : List Byte, ∃ s : State, s.pins.sagPause = false) ∧
    (∃ off : Nat, ∃ port : Nat, ∃ tag : Nat, ∃ data : List Byte, ∃ x : FwSession, ∃ s : State, s.flash.op = some (.chunk off data port tag) ∧
      s.session = some x ∧ s.flash.sagged = false) ∧
    (∃ off : Nat, ∃ n : Nat, ∃ port : Nat, ∃ tag : Nat, ∃ data : List Byte, ∃ x : FwSession, ∃ s : State,
      s.flash.op = some (.chunk off data port tag) ∧ s.session = some x ∧ s.flash.sagged = true ∧
      n = min data.length (65536 * (s.fresh.1 % (ceilDiv data.length 65536 + 1)))) ∧
    (∃ p : Nat, ∃ c : Cmd, ∃ s : State, ∃ v : State, ∃ img, s.Ready p c ∧ c.op = 0x85 ∧ s.flashStop false = none ∧ s.flash.op = none ∧
      v = { noteChecked s.targetSlot s with session := none } ∧ s.slotImage s.targetSlot = some img ∧ failedConditions s.fuses img = []) ∧
    (∃ p : Nat, ∃ c : Cmd, ∃ s : State, ∃ v : State, ∃ img, s.Ready p c ∧ c.op = 0x85 ∧ s.flashStop false = none ∧ s.flash.op = none ∧
      v = { noteChecked s.targetSlot s with session := none } ∧ s.slotImage s.targetSlot = some img ∧ failedConditions s.fuses img = [3]) ∧
    (∃ p : Nat, ∃ c : Cmd, ∃ s : State, ∃ v : State, ∃ img, ∃ k : Nat, ∃ rest : List Nat, s.Ready p c ∧ c.op = 0x85 ∧ s.flashStop false = none ∧
      s.flash.op = none ∧ v = { noteChecked s.targetSlot s with session := none } ∧ s.slotImage s.targetSlot = some img ∧
      failedConditions s.fuses img = k :: rest ∧ k :: rest ≠ [3]) ∧
    (∃ p : Nat, ∃ c : Cmd, ∃ s : State, ∃ v : State, s.Ready p c ∧ c.op = 0x85 ∧ s.flashStop false = none ∧ s.flash.op = none ∧
      v = { noteChecked s.targetSlot s with session := none } ∧ s.slotImage s.targetSlot = none) :=
  ⟨⟨0, cmdOf (dlAt 0), [], fetched [cmdOf (dlAt 0)], by_dec (decReady _ _ _) (by decide +kernel), (by decide +kernel),
    (by decide +kernel), (by decide +kernel), (by decide +kernel), (by intro x h; cases h)⟩,
   ⟨0, cmdOf (dlAt 8192), [], ⟨0, 4096, 0, 1⟩, { fetched [cmdOf (dlAt 8192)] with session := some ⟨0, 4096, 0, 1⟩ },
     by_dec (decReady _ _ _) (by decide +kernel), (by decide +kernel)⟩,
   ⟨0, cmdOf (dlAt 16773120), [], ⟨0, 16773120, 0, 1⟩, { fetched [cmdOf (dlAt 16773120)] with session := some ⟨0, 16773120, 0, 1⟩ },
     by_dec (decReady _ _ _) (by decide +kernel), (by decide +kernel)⟩,
   ⟨0, cmdOf (dlAt 4096), [], ⟨255, 4096, 0, 1⟩,
     { (fetched [cmdOf (dlAt 4096)]).wrR .f0 (R.PORT_CFG_DOMAIN 255) 15 with session := some ⟨255, 4096, 0, 1⟩ },
     by_dec (decReady _ _ _) (by decide +kernel), (by decide +kernel)⟩,
   ⟨0, St.retryLater, cmdOf (dlAt 0), [], { fetched [cmdOf (dlAt 0)] with pins := { sagPause := true } },
     by_dec (decReady _ _ _) (by decide +kernel), (by decide +kernel)⟩,
   ⟨0, St.retryLater, cmdOf [(0, 1, 0x85)], [], { fetched [cmdOf [(0, 1, 0x85)]] with pins := { sagPause := true } },
     by_dec (decReady _ _ _) (by decide +kernel), (by decide +kernel)⟩,
   ⟨16777215, 0, 0, [0], Z, (by decide +kernel)⟩,
   ⟨0, 0, 0, [1], ⟨0, 0, 0, 1⟩, { Z with flash := { op := some (.chunk 0 [1] 0 0) }, session := some ⟨0, 0, 0, 1⟩ },
     (by decide +kernel)⟩,
   ⟨0, _, 0, 0, [1], ⟨0, 0, 0, 1⟩,
     { Z with flash := { op := some (.chunk 0 [1] 0 0), sagged := true }, session := some ⟨0, 0, 0, 1⟩ },
     (by decide +kernel), (by decide +kernel), (by decide +kernel), rfl⟩,
   ⟨0, cmdOf [(0, 1, 0x85)], withImage 1, _, imageOk, by_dec (decReady _ _ _) (by decide +kernel), (by decide +kernel),
     (by decide +kernel), (by decide +kernel), rfl, (by exact slot_image 1), (by decide +kernel)⟩,
   ⟨0, cmdOf [(0, 1, 0x85)], withImage 2, _, imageOk, by_dec (decReady _ _ _) (by decide +kernel), (by decide +kernel),
     (by decide +kernel), (by decide +kernel), rfl, (by exact slot_image 2), (by decide +kernel)⟩,
   ⟨0, cmdOf [(0, 1, 0x85)], { fetched [cmdOf [(0, 1, 0x85)]] with flash := { slotB := imageBadBytes } }, _, imageBad, 1, [2, 4, 5],
     by_dec (decReady _ _ _) (by decide +kernel), (by decide +kernel), (by decide +kernel), (by decide +kernel), rfl,
     (by decide +kernel)⟩,
   ⟨0, cmdOf [(0, 1, 0x85)], fetched [cmdOf [(0, 1, 0x85)]], _, by_dec (decReady _ _ _) (by decide +kernel), (by decide +kernel),
     (by decide +kernel), (by decide +kernel), rfl, (by decide +kernel)⟩⟩

theorem test_witness_FinvikMessages :
    (∃ e : LinkEnd, ∃ cls : Nat, ∃ eseq : Nat, ∃ ws : List Word, ∃ t : TxClass, ∃ m : Msg, ∃ s : State, s.linkUp e = true ∧ s.EndOk e ∧ (∀ d n,
      e = .rind d n → n ≠ 6 → s.fenced d = false) ∧ t = (s.fvEnd e).tx.getD (cls % 4) {} ∧ t.stalled = [] ∧ m = ⟨cls, e.src, t.lseq, eseq, ws⟩ ∧
      0 < t.credits) ∧
    (∃ e : LinkEnd, ∃ cls : Nat, ∃ eseq : Nat, ∃ ws : List Word, ∃ t : TxClass, ∃ m : Msg, ∃ s : State, s.linkUp e = true ∧ s.EndOk e ∧ (∀ d n,
      e = .rind d n → n ≠ 6 → s.fenced d = false) ∧ t = (s.fvEnd e).tx.getD (cls % 4) {} ∧ t.stalled = [] ∧ m = ⟨cls, e.src, t.lseq, eseq, ws⟩ ∧
      t.credits = 0) ∧
    (∃ e : LinkEnd, ∃ m : Msg, ∃ r : RxClass, ∃ s : State, s.linkUp e = true ∧ s.EndOk e ∧ e.classOk m.cls = true ∧
      m.payload.length ≤ (farEnd e).room (m.cls % 4) ∧ r = (s.fvEnd e).rx.getD (m.cls % 4) {} ∧ m.lseq = (r.last + 1) % 0x10000 ∧
      r.held.length < (farEnd e).credits (m.cls % 4) ∧ isKeepalive e m = false) ∧
    (∃ e : LinkEnd, ∃ m : Msg, ∃ r : RxClass, ∃ s : State, s.linkUp e = true ∧ s.EndOk e ∧ e.classOk m.cls = true ∧
      m.payload.length ≤ (farEnd e).room (m.cls % 4) ∧ r = (s.fvEnd e).rx.getD (m.cls % 4) {} ∧ m.lseq = (r.last + 1) % 0x10000 ∧
      r.held.length < (farEnd e).credits (m.cls % 4) ∧ isKeepalive e m = true) ∧
    (∃ e : LinkEnd, ∃ m : Msg, ∃ r : RxClass, ∃ s : State, s.linkUp e = true ∧ s.EndOk e ∧ e.classOk m.cls = true ∧
      m.payload.length ≤ (farEnd e).room (m.cls % 4) ∧ r = (s.fvEnd e).rx.getD (m.cls % 4) {} ∧
      (m.lseq ≠ (r.last + 1) % 0x10000 ∨ (farEnd e).credits (m.cls % 4) ≤ r.held.length)) ∧
    (∃ d : RSlot, ∃ n : Nat, ∃ m : Msg, ∃ crc : Bool, ∃ code : Bool, ∃ s : State, s.linkUp (.rind d n) = true ∧
      (crc = false ∨ code = false ∨ LinkEnd.classOk (.rind d n) m.cls = false ∨ (farEnd (.rind d n)).room (m.cls % 4) < m.payload.length)) ∧
    (∃ g : Nat, ∃ d : RSlot, ∃ m : Msg, ∃ crc : Bool, ∃ code : Bool, ∃ s : State, s.linkUp (.curd g d) = true ∧
      (crc = false ∨ code = false ∨ LinkEnd.classOk (.curd g d) m.cls = false ∨ (farEnd (.curd g d)).room (m.cls % 4) < m.payload.length)) :=
  ⟨⟨.curd 5 .f1, 3, 0, [0], _, _, credited, (by decide +kernel), by_dec (decEndOk _ _) (by decide +kernel), (by intro d n h; cases h),
    rfl, (by decide +kernel), rfl, (by decide +kernel)⟩,
   ⟨.curd 5 .f1, 3, 0, [0], _, _, linked, (by decide +kernel), by_dec (decEndOk _ _) (by decide +kernel), (by intro d n h; cases h),
     rfl, (by decide +kernel), rfl, (by decide +kernel)⟩,
   ⟨.rind .f0 5, ⟨2, 13, 0, 0, List.replicate 16 0⟩, _, linked, (by decide +kernel), by_dec (decEndOk _ _) (by decide +kernel),
     (by decide +kernel), (by decide +kernel), rfl, (by decide +kernel)⟩,
   ⟨.curd 5 .f1, ⟨3, 1, 0, 0, [0x63000000]⟩, _, linked, (by decide +kernel), by_dec (decEndOk _ _) (by decide +kernel),
     (by decide +kernel), (by decide +kernel), rfl, (by decide +kernel)⟩,
   ⟨.rind .f0 5, ⟨2, 13, 1, 0, List.replicate 16 0⟩, _, linked, (by decide +kernel), by_dec (decEndOk _ _) (by decide +kernel),
     (by decide +kernel), (by decide +kernel), rfl, (by decide +kernel)⟩,
   ⟨.f0, 6, ⟨4, 1, 0, 0, List.replicate 17 0⟩, true, true, linked, (by decide +kernel)⟩,
   ⟨5, .f1, ⟨8, 1, 0, 0, []⟩, true, true, linked, (by decide +kernel)⟩⟩

theorem test_witness_LinkControlWordFields :
    (∃ typ : Nat, ∃ cidx : Nat, ∃ alseq : Nat, ∃ freed : Nat, ∃ free : Nat, typ < 3 ∧ cidx < 4 ∧ alseq < 0x10000 ∧ freed < 0x10000 ∧
      free < 0x10000) :=
  ⟨2, 3, 0xFFFF, 0xFFFF, 0xFFFF, (by decide +kernel)⟩

theorem test_witness_LinkControlWords :
    (∃ e : LinkEnd, ∃ w0 : Word, ∃ w1 : Word, ∃ c : Nat, ∃ a : Nat, ∃ f : Nat, ∃ r : Nat, ∃ y : TxClass, ∃ s : State, s.linkUp e = true ∧ s.EndOk e ∧
      lcwGood w0 w1 = true ∧ lcwFields w0 w1 = (0, c, a, f, r) ∧ y = (s.fvEnd e).tx.getD c {}) ∧
    (∃ e : LinkEnd, ∃ w0 : Word, ∃ w1 : Word, ∃ c : Nat, ∃ a : Nat, ∃ f : Nat, ∃ r : Nat, ∃ s : State, ∃ n, s.linkUp e = true ∧ s.EndOk e ∧
      lcwGood w0 w1 = true ∧ lcwFields w0 w1 = (1, c, a, f, r) ∧ ((s.fvEnd e).tx.getD c {}).asked = some (a, n) ∧ 2 ≤ n) ∧
    (∃ e : LinkEnd, ∃ w0 : Word, ∃ w1 : Word, ∃ c : Nat, ∃ a : Nat, ∃ f : Nat, ∃ r : Nat, ∃ s : State, s.linkUp e = true ∧ s.EndOk e ∧
      lcwGood w0 w1 = true ∧ lcwFields w0 w1 = (1, c, a, f, r) ∧ (∀ n, ((s.fvEnd e).tx.getD c {}).asked = some (a, n) → n < 2)) ∧
    (∃ e : LinkEnd, ∃ w0 : Word, ∃ w1 : Word, ∃ c : Nat, ∃ a : Nat, ∃ f : Nat, ∃ r : Nat, ∃ s : State, s.linkUp e = true ∧ s.EndOk e ∧
      lcwGood w0 w1 = true ∧ lcwFields w0 w1 = (2, c, a, f, r)) ∧
    (∃ d : RSlot, ∃ n : Nat, ∃ w0 : Word, ∃ w1 : Word, ∃ s : State, s.linkUp (.rind d n) = true ∧ lcwGood w0 w1 = false) ∧
    (∃ d : RSlot, ∃ n : Nat, ∃ s : State, n < 7 ∧ s.linkUp (.rind d n) = true ∧ s.EndOk (.rind d n) ∧ s.regsWf = true ∧
      (3 ≤ (s.fvEnd (.rind d n)).failedResets ∨ (s.fvEnd (.rind d n)).waits = true ∨ (s.fvEnd (farEnd (.rind d n))).waits = true)) :=
  ⟨⟨.curd 0 .f0, (lcwWords 0 1 0 0 8).1, (lcwWords 0 1 0 0 8).2, 1, 0, 0, 8, _, linked, (by decide +kernel),
    by_dec (decEndOk _ _) (by decide +kernel), (by decide +kernel), (by decide +kernel), rfl⟩,
   ⟨.rind .f0 0, (lcwWords 1 1 7 0 0).1, (lcwWords 1 1 7 0 0).2, 1, 7, 0, 0,
     linked.modEnd (.rind .f0 0) (fun e => { e with tx := modAt 1 (fun y => { y with asked := some (7, 2) }) e.tx }), 2,
     (by decide +kernel), by_dec (decEndOk _ _) (by decide +kernel), (by decide +kernel)⟩,
   ⟨.rind .f0 0, (lcwWords 1 1 7 0 0).1, (lcwWords 1 1 7 0 0).2, 1, 7, 0, 0, linked, (by decide +kernel),
     by_dec (decEndOk _ _) (by decide +kernel), (by decide +kernel), (by decide +kernel),
     (by intro n h; cases (show (none : Option (Nat × Nat)) = some (7, n) from h))⟩,
   ⟨.rind .f1 6, (lcwWords 2 3 0xFFFF 0 0).1, (lcwWords 2 3 0xFFFF 0 0).2, 3, 0xFFFF, 0, 0, linked, (by decide +kernel),
     by_dec (decEndOk _ _) (by decide +kernel), (by decide +kernel)⟩,
   ⟨.f0, 6, 0, 0, linked, (by decide +kernel)⟩,
   ⟨.f0, 6, linked.modEnd (.rind .f0 6) (fun e => { e with failedResets := 3 }), (by decide +kernel), (by decide +kernel),
     by_dec (decEndOk _ _) (by decide +kernel), (by decide +kernel)⟩⟩

theorem test_witness_StallWatches :
    (∃ d : RSlot, ∃ e : Nat, ∃ p : Nat, ∃ w : State, ∃ s : State, s.watched (.enginePort d e p) = true ∧
      w = drainEngine d e p (useRung d 1 (raise d 0x001 [0, e, p] (s.incR d R.DEV_STALLCNT_COUNT)))) ∧
    (∃ g : Nat, ∃ p : Nat, ∃ w : State, ∃ s : State, s.watched (.formatterPort g p) = true ∧
      w = drainFormatter g p (curdRaise g 0x01 p (s.incC g R.CDIE_STALLCNT_COUNT))) ∧
    (∃ d : RSlot, ∃ ch : Nat, ∃ s : State, s.watched (.ladleChannel d ch) = true) ∧
    (∃ d : RSlot, ∃ p : Nat, ∃ t : Nat, ∃ s : State, s.watched (.command d p t) = true) ∧
    (∃ st : Stage, ∃ s : State, s.watched st = false) ∧
    (∃ _d : RSlot, ∃ p : Nat, ∃ t : Nat, ∃ c : Cmd, ∃ s : State, s.cmds.find? (fun c => c.port = p ∧ c.tag = t) = some c ∧ c.drained = false) ∧
    (∃ _d : RSlot, ∃ p : Nat, ∃ t : Nat, ∃ c : Cmd, ∃ s : State, s.cmds.find? (fun c => c.port = p ∧ c.tag = t) = some c ∧ c.drained = true) ∧
    (∃ d : RSlot, ∃ n : Nat, ∃ s : State, s.linkUp (.rind d n) = true) ∧
    (∃ g : Nat, ∃ d : RSlot, ∃ s : State, s.linkUp (.curd g d) = true) ∧
    (∃ d : RSlot, ∃ s : State, s.regsWf = true ∧ s.rdR d R.DEV_STALLCNT_COUNT < 2 ^ 31) :=
  ⟨⟨.f1, 7, 31, _, modEng (.rind .f1 7) (fun g => { g with reqs := [⟨31, 0, 0, 0, 0, 0, false, false, false⟩] }) Z,
    (by decide +kernel), rfl⟩,
   ⟨5, 31, _, modEng (.curd 5) (fun g => { g with reqs := [⟨31, 0, 0, 0, 0, 0, false, false, false⟩] }) Z, (by decide +kernel), rfl⟩,
   ⟨.f1, 31, Z.wrR .f1 (R.LADLE_CHSTAT_STATE 31) chActive, (by decide +kernel)⟩,
   ⟨.f1, 0, 0, fetched [readC], (by decide +kernel)⟩,
   ⟨.formatterPort 5 0x0A, modEng (.curd 5) (fun g => { g with reqs := [⟨10, 0, 0, 0, 0, 0, false, false, false⟩] }) Z,
     (by decide +kernel)⟩,
   ⟨.f1, 0, 0, readC, fetched [readC], (by decide +kernel)⟩,
   ⟨.f1, 0, 0, { readC with drained := true }, fetched [{ readC with drained := true }], (by decide +kernel)⟩,
   ⟨.f1, 6, linked, (by decide +kernel)⟩,
   ⟨5, .f1, linked, (by decide +kernel)⟩,
   ⟨.f0, Z.wrR .f0 R.DEV_STALLCNT_COUNT 0x7FFFFFFF, (by decide +kernel)⟩⟩

theorem test_witness_StepExchange :
    (∃ s : State, s.part.f = 2 ∧ s.bitR s.senior R.STEP_STAT_LINKUP = true ∧ s.inTwo = true) ∧
    (∃ d : RSlot, ∃ m : StepMsg, ∃ s : State, s.part.f = 2 ∧ s.senior ≠ d ∧ m.overdue = false ∧ s.regsWf = true) ∧
    (∃ d : RSlot, ∃ m : StepMsg, ∃ e : StepEnt, ∃ s : State, s.part.f = 2 ∧ s.senior = d ∧ m.overdue = false ∧ s.regsWf = true ∧ m.entries = [e] ∧
      (s.rind d).step.props = [] ∧ (s.rind d).step.next ≤ m.held + 384 ∧ (∀ f ∈ (s.rind d).step.entries, ¬ (f.kind = e.kind ∧ f.src = e.src ∧
      f.data = e.data))) ∧
    (∃ _d : RSlot, ∃ m : StepMsg, ∃ s : State, s.part.f = 2 ∧ m.overdue = true) ∧
    (∃ d : RSlot, ∃ x : StepLogic, ∃ e : StepEntry, ∃ s : State, x = (s.rind d).step ∧ x.entries.find? (fun e => e.step = x.done) = some e ∧
      s.fenced d = false ∧ (e.kind = 2 ∨ e.kind = 3 → x.fwd.any (fun p => p.1 = e.src) = true) ∧
      (s.inTwo = true → s.senior = d → e.step ≤ x.peerHeld) ∧ e.kind ≠ 5 ∧ e.kind ≠ 6) ∧
    (∃ d : RSlot, ∃ x : StepLogic, ∃ e : StepEntry, ∃ s : State, ∃ o, x = (s.rind d).step ∧ x.entries.find? (fun e => e.step = x.done) = some e ∧
      s.fenced d = false ∧ (e.kind = 2 ∨ e.kind = 3 → x.fwd.any (fun p => p.1 = e.src) = true) ∧
      (s.inTwo = true → s.senior = d → e.step ≤ x.peerHeld) ∧ (e.kind = 5 ∨ e.kind = 6) ∧ x.own.find? (fun o => decide (o.1 = e.kind ∧
      o.2.1 = e.src)) = some o ∧ o.2.2 ≠ e.data) ∧
    (∃ d : RSlot, ∃ x : StepLogic, ∃ e : StepEntry, ∃ s : State, ∃ o, x = (s.rind d).step ∧ x.entries.find? (fun e => e.step = x.done) = some e ∧
      s.fenced d = false ∧ (e.kind = 2 ∨ e.kind = 3 → x.fwd.any (fun p => p.1 = e.src) = true) ∧
      (s.inTwo = true → s.senior = d → e.step ≤ x.peerHeld) ∧ (e.kind = 5 ∨ e.kind = 6) ∧ x.own.find? (fun o => decide (o.1 = e.kind ∧
      o.2.1 = e.src)) = some o ∧ o.2.2 = e.data) ∧
    (∃ k : Nat, ∃ e : StepEntry, ∃ s : State, s.inTwo = true ∧ (s.rind s.senior.peer).step.entries.find? (fun e => e.step = k) = some e ∧
      (e.kind = 5 ∨ e.kind = 6) ∧ (∀ o ∈ (s.rind s.senior.peer).step.own, ¬ (o.1 = e.kind ∧ o.2.1 = e.src)) ∧ s.regsWf = true) :=
  ⟨⟨Z.wrR .f0 R.STEP_STAT_LINKUP 1, (by decide +kernel)⟩,
   ⟨.f1, ⟨0, 0, [], false⟩, Z, (by decide +kernel)⟩,
   ⟨.f0, ⟨0, 0, [⟨5, true, 0, 0⟩], false⟩, ⟨5, true, 0, 0⟩, stepAt .f0 { next := 384 }, (by decide +kernel)⟩,
   ⟨.f1, ⟨0, 0, [], true⟩, Z, (by decide +kernel)⟩,
   ⟨.f0, _, ⟨3, 4, false, 0, 0⟩, stepAt .f0 { done := 3, peerHeld := 3, entries := [⟨3, 4, false, 0, 0⟩] }, rfl, (by decide +kernel)⟩,
   ⟨.f0, _, ⟨3, 5, false, 0, 8⟩, stepAt .f0 { done := 3, peerHeld := 3, entries := [⟨3, 5, false, 0, 8⟩], own := [(5, 0, 7)] },
     (5, 0, 7), rfl, (by decide +kernel)⟩,
   ⟨.f0, _, ⟨3, 6, false, 0, 7⟩, stepAt .f0 { done := 3, peerHeld := 3, entries := [⟨3, 6, false, 0, 7⟩], own := [(6, 0, 7)] },
     (6, 0, 7), rfl, (by decide +kernel)⟩,
   ⟨3, ⟨3, 6, false, 0, 7⟩, stepAt .f1 { entries := [⟨3, 6, false, 0, 7⟩] }, (by decide +kernel)⟩⟩

theorem test_witness_DigestsAndTurnings :
    (∃ s : State, s.inTwo = true ∧ 0 < (s.rind s.senior).step.steps) ∧
    (∃ d : RSlot, ∃ b : Nat, ∃ _fl : Nat, ∃ _dg : BitVec 64, ∃ s : State, s.inTwo = true ∧ (s.rind d).step.mine.find? (fun p => p.1 = b) = none) ∧
    (∃ d : RSlot, ∃ b : Nat, ∃ _fl : Nat, ∃ dg : BitVec 64, ∃ s : State, s.inTwo = true ∧ (s.rind d).step.mine.find? (fun p => p.1 = b) = some (b,
      dg)) ∧
    (∃ d : RSlot, ∃ b : Nat, ∃ _fl : Nat, ∃ dg : BitVec 64, ∃ own : BitVec 64, ∃ s : State, s.inTwo = true ∧
      (s.rind d).step.mine.find? (fun p => p.1 = b) = some (b, own) ∧ own ≠ dg) ∧
    (∃ d : RSlot, ∃ b : Nat, ∃ s : State, s.inTwo = true ∧ (s.rind d).step.mine.any (fun p => p.1 = b) = true ∧
      (s.rind d).step.peers.any (fun p => p.1 = b) = false) ∧
    (∃ e : Nat, ∃ s : State, s.inTwo = true ∧ s.rdR s.senior R.STEP_STAT_REDUND = 1 ∧ (s.rind s.senior).step.restoredAt = none ∧
      e = s.rdR s.senior R.STEP_EPOCH_EPOCH + 1) ∧
    (∃ e : Nat, ∃ s : State, s.part.f = 2 ∧ s.regsWf = true ∧ e < 2 ^ 32) :=
  ⟨⟨stepAt .f0 { steps := 1 }, (by decide +kernel)⟩,
   ⟨.f1, 0, 3, 0, Z, (by decide +kernel)⟩,
   ⟨.f1, 0, 0, 5, stepAt .f1 { mine := [(0, 5)] }, (by decide +kernel)⟩,
   ⟨.f1, 0, 0, 5, 6, stepAt .f1 { mine := [(0, 6)] }, (by decide +kernel)⟩,
   ⟨.f1, 0, stepAt .f1 { mine := [(0, 6)] }, (by decide +kernel)⟩,
   ⟨_, Z.wrR .f0 R.STEP_STAT_REDUND 1, (by decide +kernel), (by decide +kernel), (by decide +kernel), rfl⟩,
   ⟨0xFFFFFFFF, Z, (by decide +kernel)⟩⟩

theorem test_witness_LeasesAndSplits :
    (∃ g : Nat, ∃ _src : RSlot, ∃ _w0 : Nat, ∃ epoch : Nat, ∃ s : State, s.hasCurd g = true ∧ s.rdC g R.CDIE_EPOCH_EPOCH ≤ epoch ∧ epoch < 2 ^ 32 ∧
      s.regsWf = true) ∧
    (∃ g : Nat, ∃ _src : RSlot, ∃ _w0 : Nat, ∃ epoch : Nat, ∃ s : State, s.hasCurd g = true ∧ epoch < s.rdC g R.CDIE_EPOCH_EPOCH ∧ s.regsWf = true) ∧
    (∃ g : Nat, ∃ d : RSlot, ∃ epoch : Nat, ∃ s : State, ∃ n : State, s.hasCurd g = true ∧ n = leaseTaken (.curd g d) 0x62 (markLive g d s) ∧
      epoch = n.rdC g R.CDIE_EPOCH_EPOCH + 1 ∧ n.silentLink g (n.holder g) = true) ∧
    (∃ g : Nat, ∃ d : RSlot, ∃ epoch : Nat, ∃ s : State, ∃ n : State, s.hasCurd g = true ∧ n = leaseTaken (.curd g d) 0x62 (markLive g d s) ∧
      epoch = n.rdC g R.CDIE_EPOCH_EPOCH + 1 ∧ n.silentLink g (n.holder g) = false) ∧
    (∃ d : RSlot, ∃ s : State, s.hasRind d = true ∧ s.fenced d = false) ∧
    (∃ d : RSlot, ∃ g : Nat, ∃ w0 : Nat, ∃ _epoch : Nat, ∃ s : State, s.part.f = 2 ∧ g < 6 ∧ s.fenced d = false ∧
      (s.rind d).step.split.isSome = true ∧ (w0 / 2 ^ 15) % 2 = 1) ∧
    (∃ d : RSlot, ∃ g : Nat, ∃ w0 : Nat, ∃ epoch : Nat, ∃ at_ : Nat, ∃ s : State, s.part.f = 2 ∧ g < 6 ∧ s.fenced d = false ∧
      (s.rind d).step.split = some (at_, true) ∧ (s.rind d).step.claim = none ∧ (w0 / 2 ^ 15) % 2 = 0 ∧ s.rdR d R.STEP_EPOCH_EPOCH < epoch) ∧
    (∃ d : RSlot, ∃ g : Nat, ∃ w0 : Nat, ∃ _epoch : Nat, ∃ at_ : Nat, ∃ s : State, s.part.f = 2 ∧ g < 6 ∧ s.fenced d = false ∧
      (s.rind d).step.split = some (at_, false) ∧ (w0 / 2 ^ 15) % 2 = 0) ∧
    (∃ g : Nat, ∃ d : RSlot, ∃ s : State, s.hasCurd g = true ∧ s.EndOk (.curd g d) ∧ s.regsWf = true) ∧
    (∃ s : State, s.part.f = 2 ∧ (∀ d, s.fenced d = true ∨ (s.rind d).step.split.isSome = true)) :=
  ⟨⟨5, .f1, 0, 0xFFFFFFFF, Z.wrC 5 R.CDIE_EPOCH_EPOCH 0xFFFFFFFF, (by decide +kernel)⟩,
   ⟨5, .f1, 0, 0, Z.wrC 5 R.CDIE_EPOCH_EPOCH 1, (by decide +kernel)⟩,
   ⟨5, .f1, _, Z, _, (by decide +kernel), rfl, rfl, (by decide +kernel)⟩,
   ⟨5, .f0, _, Z, _, (by decide +kernel), rfl, rfl, (by decide +kernel)⟩,
   ⟨.f1, Z, (by decide +kernel)⟩,
   ⟨.f1, 5, 0x8000, 0, stepAt .f1 { split := some (0, false) }, (by decide +kernel)⟩,
   ⟨.f1, 5, 0x7FFF, 1, 0, stepAt .f1 { split := some (0, true) }, (by decide +kernel)⟩,
   ⟨.f1, 5, 0, 0, 0, stepAt .f1 { split := some (0, false) }, (by decide +kernel)⟩,
   ⟨5, .f1, Z, (by decide +kernel), by_dec (decEndOk _ _) (by decide +kernel), (by decide +kernel)⟩,
   ⟨modStep .f1 (fun x => { x with split := some (0, false) }) (stepAt .f0 { split := some (0, true) }), (by decide +kernel),
     (by intro d; cases d <;> exact Or.inr (by decide +kernel))⟩⟩

theorem test_witness_ResyncAndStateReads :
    (∃ d : RSlot, ∃ _addr : Nat, ∃ _data : List Byte, ∃ _poison : Bool, ∃ s : State, s.part.f = 2 ∧ s.role d = roleResync) ∧
    (∃ t : RSlot, ∃ s : State, s.part.f = 2 ∧ s.rinds.find? (fun d => s.role d = roleResync) = some t ∧ s.rdR t R.STEP_RESYNC_PHASE = 2 ∧
      s.regsWf = true) ∧
    (∃ t : RSlot, ∃ s : State, s.part.f = 2 ∧ s.rinds.find? (fun d => s.role d = roleResync) = some t ∧ s.rdR t R.STEP_RESYNC_PHASE = 3 ∧
      s.regsWf = true) ∧
    (∃ e : Eng, ∃ port : Nat, ∃ op : Nat, ∃ _v : BitVec 64, ∃ _ok : Bool, ∃ s : State, (∀ q ∈ (s.eng e).reqs, ¬ (q.port = port ∧ q.op = op))) :=
  ⟨⟨.f1, 0, [], true, Z.wrR .f1 R.STEP_STAT_ROLE 4, (by decide +kernel)⟩,
   ⟨.f1, (Z.wrR .f1 R.STEP_STAT_ROLE 4).wrR .f1 R.STEP_RESYNC_PHASE 2, (by decide +kernel)⟩,
   ⟨.f0, (Z.wrR .f0 R.STEP_STAT_ROLE 4).wrR .f0 R.STEP_RESYNC_PHASE 3, (by decide +kernel)⟩,
   ⟨.curd 5, 31, 1, 0, true, Z, (by decide +kernel)⟩⟩

theorem test_witness_SectorCommandsAndData :
    (∃ g : Nat, ∃ src : RSlot, ∃ m : Msg, ∃ x : Bool × State, ∃ s : State, s.hasCurd g = true ∧ m.cls = 0 ∧ x = firstCopy g src m s ∧
      m.w 0 / 2 ^ 28 = 1) ∧
    (∃ g : Nat, ∃ src : RSlot, ∃ m : Msg, ∃ x : Bool × State, ∃ s : State, s.hasCurd g = true ∧ m.cls = 0 ∧ x = firstCopy g src m s ∧
      m.w 0 / 2 ^ 28 = 2) ∧
    (∃ g : Nat, ∃ src : RSlot, ∃ m : Msg, ∃ x : Bool × State, ∃ s : State, s.hasCurd g = true ∧ m.cls = 0 ∧ x = firstCopy g src m s ∧
      m.w 0 / 2 ^ 28 = 3) ∧
    (∃ g : Nat, ∃ src : RSlot, ∃ m : Msg, ∃ x : Bool × State, ∃ s : State, s.hasCurd g = true ∧ m.cls = 0 ∧ x = firstCopy g src m s ∧
      m.w 0 / 2 ^ 28 = 4) ∧
    (∃ g : Nat, ∃ src : RSlot, ∃ m : Msg, ∃ x : Bool × State, ∃ s : State, s.hasCurd g = true ∧ m.cls = 0 ∧ x = firstCopy g src m s ∧
      m.w 0 / 2 ^ 28 = 5) ∧
    (∃ g : Nat, ∃ src : RSlot, ∃ m : Msg, ∃ s : State, g < s.curds.length ∧ s.regsWf = true ∧ (∀ r ∈ (s.fmt g).seen, ¬ (r.1 = m.cls ∧
      r.2.1 = m.eseq)) ∧ ((s.fmt g).seen.filter (fun r => r.1 = m.cls)).length < 256 ∧ (s.single g = false ∨ s.holder g = src ∨ m.cls ≠ 0)) ∧
    (∃ g : Nat, ∃ _src : RSlot, ∃ first : RSlot, ∃ m : Msg, ∃ again : Bool, ∃ s : State,
      ((s.fmt g).seen.filter (fun r => r.1 = m.cls)).find? (fun r => r.2.1 = m.eseq) = some (m.cls, m.eseq, msgDigest m, first, again)) ∧
    (∃ g : Nat, ∃ src : RSlot, ∃ m : Msg, ∃ r : CRun, ∃ s : State, r = s.runOf g src m ∧
      s.runOk g r.op r.surf r.zone r.track r.first r.count r.incl = true ∧ g < s.curds.length) ∧
    (∃ g : Nat, ∃ src : RSlot, ∃ m : Msg, ∃ r : CRun, ∃ s : State, r = s.runOf g src m ∧
      s.runOk g r.op r.surf r.zone r.track r.first r.count r.incl = false) ∧
    (∃ d : RSlot, ∃ n : Nat, ∃ m : Msg, ∃ s : State, m.cls = 1 ∧ s.hasRind d = true ∧ n < 6) ∧
    (∃ g : Nat, ∃ _d : RSlot, ∃ m : Msg, ∃ s : State, m.cls = 1 ∧ s.hasCurd g = true ∧ g < s.curds.length) ∧
    (∃ g : Nat, ∃ r : CRun, ∃ q : List CRun, ∃ s : State, (s.fmt g).queue = r :: q ∧ s.hasCurd g = true ∧ g < s.curds.length ∧ s.svLoaded g = true ∧
      (s.fmt g).pastGates = true) :=
  ⟨⟨5, .f1, sectorMsg 1, _, Z, (by decide +kernel), (by decide +kernel), rfl, (by decide +kernel)⟩,
   ⟨5, .f1, sectorMsg 2, _, Z, (by decide +kernel), (by decide +kernel), rfl, (by decide +kernel)⟩,
   ⟨5, .f1, sectorMsg 3, _, Z, (by decide +kernel), (by decide +kernel), rfl, (by decide +kernel)⟩,
   ⟨5, .f1, sectorMsg 4, _, Z, (by decide +kernel), (by decide +kernel), rfl, (by decide +kernel)⟩,
   ⟨5, .f1, sectorMsg 5, _, Z, (by decide +kernel), (by decide +kernel), rfl, (by decide +kernel)⟩,
   ⟨5, .f1, sectorMsg 1, modFmt 5 (fun f => { f with seen := List.replicate 255 (0, 1, 0, .f0, false) }) Z, (by decide +kernel)⟩,
   ⟨0, .f1, .f0, sectorMsg 1, false, modFmt 0 (fun f => { f with seen := [(0, 0, msgDigest (sectorMsg 1), .f0, false)] }) Z,
     (by decide +kernel)⟩,
   ⟨0, .f0, ⟨0, 0, 0, 0, [0x100003FF, 4, 0x00200000, 0]⟩, _, stored, rfl, (by decide +kernel)⟩,
   ⟨0, .f0, ⟨0, 0, 0, 0, [0x100003FF, 5, 0x00200000, 0]⟩, _, stored, rfl, (by decide +kernel)⟩,
   ⟨.f1, 5, ⟨1, 13, 0, 0, []⟩, Z, (by decide +kernel)⟩,
   ⟨5, .f1, ⟨1, 1, 0, 0, []⟩, Z, (by decide +kernel)⟩,
   ⟨0, runOne true .waiting, [], modFmt 0 (fun f => { f with queue := [runOne true .waiting] }) (Z.wrC 0 R.SERVO_STAT_STATE 4),
     (by decide +kernel)⟩⟩

theorem test_witness_GatesAndReadChannel :
    (∃ g : Nat, ∃ _ev : GateEv, ∃ s : State, s.hasCurd g = true ∧ g < s.curds.length ∧ (s.fmt g).posted.length < 8) ∧
    (∃ g : Nat, ∃ _ev : GateEv, ∃ s : State, s.hasCurd g = true ∧ 8 ≤ (s.fmt g).posted.length) ∧
    (∃ g : Nat, ∃ _cap : Capture, ∃ e : Posted, ∃ l : List Posted, ∃ s : State, (s.fmt g).posted = e :: l ∧ e.opens = true ∧ (s.fmt g).gate = none ∧
      g < s.curds.length) ∧
    (∃ g : Nat, ∃ e : Posted, ∃ s : State, e.write = true ∧ s.mayWriteMedia g = false) ∧
    (∃ g : Nat, ∃ surf : Nat, ∃ pos : Nat, ∃ q : Nat × Nat × Sec, ∃ s : State, s.findSec g (fun x => decide (x.stage = .captured ∧ x.surf = surf ∧
      x.pos = pos)) = some q) ∧
    (∃ g : Nat, ∃ pos : Nat, ∃ s : State, s.hasCurd g = true ∧ (s.vaultNext g).all (fun q => decide (q.2.2.pos = pos)) = true) ∧
    (∃ g : Nat, ∃ pos : Nat, ∃ q : Nat × Nat × Sec, ∃ s : State, s.findSec g (fun x => decide (x.stage = .rebuild ∧ x.pos = pos)) = some q) ∧
    (∃ g : Nat, ∃ n : Nat, ∃ s : State, (s.fmt g).settling = some n ∧ g < s.curds.length) ∧
    (∃ g : Nat, ∃ pos : Nat, ∃ q : Nat × Nat × Sec, ∃ s : State, s.hasCurd g = true ∧ s.findSec g (fun x => decide (x.pos = pos ∧
      x.kind = .own)) = some q) ∧
    (∃ e : VEntry, ∃ z : Zone, ∃ use : List Nat, ∃ k : Nat, ∃ n : Nat, use.Nodup ∧ e.flagged z k n = true ∧ (∀ j ∈ use,
      j ≠ k → e.flagged z j n = false)) ∧
    (∃ e : VEntry, ∃ z : Zone, ∃ cfg : ChanCfg, ∃ set : Nat, ∃ n : Nat, ∃ _prior : List Int, (∀ k ∈ (settingOf cfg e.mode z.pair set).readers,
      e.flagged z k n = true)) :=
  ⟨⟨5, gateW, modFmt 5 (fun f => { f with posted := List.replicate 7 ⟨gateW, 0⟩ }) Z, (by decide +kernel)⟩,
   ⟨5, gateW, modFmt 5 (fun f => { f with posted := List.replicate 8 ⟨gateW, 0⟩ }) Z, (by decide +kernel)⟩,
   ⟨5, ⟨[]⟩, ⟨gateW, 0⟩, [], modFmt 5 (fun f => { f with posted := [⟨gateW, 0⟩] }) Z, (by decide +kernel)⟩,
   ⟨0, ⟨gateW, 0⟩, Z, (by decide +kernel)⟩,
   ⟨0, 0, 0, (0, 0, secOne false .captured), runningSec false .captured, (by decide +kernel)⟩,
   ⟨0, 0, runningSec false .vault, (by decide +kernel)⟩,
   ⟨0, 0, (0, 0, secOne false .rebuild), runningSec false .rebuild, (by decide +kernel)⟩,
   ⟨5, 1, modFmt 5 (fun f => { f with settling := some 1 }) Z, (by decide +kernel)⟩,
   ⟨0, 0, (0, 0, secOne false .vault), runningSec false .vault, (by decide +kernel)⟩,
   ⟨flaggedEntry [0], zone0, [0, 1, 2], 0, 1, (by decide +kernel)⟩,
   ⟨flaggedEntry [0, 1, 2], zone0, {}, 0, 1, [], (by decide +kernel)⟩⟩

theorem test_witness_SectorCheckOfWrites :
    (∃ g : Nat, ∃ r : CRun, ∃ x : Sec, ∃ b : List Byte, ∃ s : State, s.secBytes g r x = some b ∧ b.length = 4112) ∧
    (∃ _h : Nat, ∃ t : Nat, ∃ u : Nat, ∃ _p : Nat, ∃ b : List Byte, b.length = 4112 ∧ t < 2 ^ 32 ∧ u < 2 ^ 32 ∧ t ≠ u) ∧
    (∃ code : List Bool, code.length = 36864) ∧
    (∃ b : List Byte, b.length = 4116) ∧
    (∃ _pre : List Int, ∃ _a : Bool, ∃ _b : Bool, ∃ _c : Bool, ∃ d : Bool, ∃ e : Bool, d ≠ e) ∧
    (∃ _pre : List Int, ∃ l : List Bool, ∃ _n : Nat, (∀ b ∈ l, b = l.headD false)) ∧
    (∃ g : Nat, ∃ eseq : Nat, ∃ i : Nat, ∃ e : GateEv, ∃ x : Sec, ∃ r : CRun, ∃ z : Zone, ∃ p : List Byte, ∃ s : State, s.gateSec g e = some (eseq,
      i, x) ∧ (s.fmt g).runs.find? (fun r => r.eseq = eseq) = some r ∧ s.secPayload g r x = some p ∧ s.groupZone g x.surf x.zone = some z) :=
  ⟨⟨0, runOne true .waiting, secOne true .waiting, writtenData.flatMap (fun p => p.flatMap wordBytes), written, (by exact written_bytes),
    (by exact written_length)⟩,
   ⟨0, 0, 0xFFFFFFFF, 0, List.replicate 4112 0, (by exact List.length_replicate), (by decide +kernel)⟩,
   ⟨List.replicate 36864 true, (by exact List.length_replicate)⟩,
   ⟨List.replicate 4116 0, (by exact List.length_replicate)⟩,
   ⟨[0, 0, 0, 0, 0, 0, 0, -16], true, false, true, false, true, (by decide +kernel)⟩,
   ⟨[], [true, true], 0, (by decide +kernel)⟩,
   ⟨0, 0, 0, gateW, secOne true .waiting, runOne true .waiting, zone0,
     writtenData.flatMap (fun p => p.flatMap wordBytes) ++ natLe 4 (sectorCheck (4 * 0 + (secOne true .waiting).surf) (secOne true .waiting).track
     (secOne true .waiting).pos (writtenData.flatMap (fun p => p.flatMap wordBytes))).toNat, written, (by decide +kernel), (by decide +kernel),
     (by simp only [State.secPayload, written_bytes]; rfl), (by decide +kernel)⟩⟩

theorem test_witness_SynthesiserAndPreamplifier :
    (∃ g : Nat, ∃ _shock : Bool, ∃ e : GateEv, ∃ s : State, g < s.curds.length ∧ (s.fmt g).gate = some e ∧ e.write = true) ∧
    (∃ g : Nat, ∃ f : Nat, ∃ s : State, s.hasCurd g = true ∧ s.inReset = false ∧ f < 256 ∧ g < s.curds.length) ∧
    (∃ g : Nat, ∃ s : State, s.hasCurd g = true ∧ (s.fmt g).paLow = true) ∧
    (∃ g : Nat, ∃ s : State, s.hasCurd g = true ∧ (s.fmt g).paLow = false ∧ s.bitC g R.FMT_STAT_WINHPA = true) ∧
    (∃ g : Nat, ∃ a : Nat, ∃ v : Nat, ∃ s : State, s.hasCurd g = true ∧ a < 128 ∧ v < 256) :=
  ⟨⟨5, true, gateW, modFmt 5 (fun f => { f with gate := some gateW }) Z, (by decide +kernel)⟩,
   ⟨5, 255, powered, (by decide +kernel)⟩,
   ⟨5, modFmt 5 (fun f => { f with paLow := true }) Z, (by decide +kernel)⟩,
   ⟨5, Z.wrC 5 R.FMT_STAT_WINHPA 1, (by decide +kernel)⟩,
   ⟨5, 127, 255, Z, (by decide +kernel)⟩⟩

theorem test_witness_CurdOrders :
    (∃ g : Nat, ∃ src : RSlot, ∃ m : Msg, ∃ x : Bool × State, ∃ s : State, s.hasCurd g = true ∧ g < s.curds.length ∧ m.cls = 3 ∧
      m.w 0 / 2 ^ 24 = 0x53 ∧ x = firstCopy g src m s ∧ x.1 = false) ∧
    (∃ g : Nat, ∃ src : RSlot, ∃ m : Msg, ∃ x : Bool × State, ∃ s : State, s.hasCurd g = true ∧ g < s.curds.length ∧ m.cls = 3 ∧
      m.w 0 / 2 ^ 24 = 0x53 ∧ x = firstCopy g src m s ∧ x.1 = true) ∧
    (∃ g : Nat, ∃ src : RSlot, ∃ m : Msg, ∃ x : Bool × State, ∃ s : State, s.hasCurd g = true ∧ m.cls = 3 ∧ m.w 0 / 2 ^ 24 = 0x52 ∧
      x = firstCopy g src m s) ∧
    (∃ g : Nat, ∃ p : Nat × Int, ∃ s : State, s.hasCurd g = true ∧ s.budget.diodes.find? (fun p => p.1 = curdCode g) = some p) ∧
    (∃ g : Nat, ∃ s : State, s.hasCurd g = true ∧ s.budget.diodes.find? (fun p => p.1 = curdCode g) = none) :=
  ⟨⟨5, .f1, ⟨3, 1, 0, 0, [0x53000000, 0]⟩, _, modFmt 5 (fun f => { f with seen := [(3, 0, 0, .f0, false)] }) Z, (by decide +kernel),
    (by decide +kernel), (by decide +kernel), (by decide +kernel), rfl, (by decide +kernel)⟩,
   ⟨5, .f1, ⟨3, 1, 0, 0, [0x53000000, 0]⟩, _, Z, (by decide +kernel), (by decide +kernel), (by decide +kernel), (by decide +kernel), rfl,
     (by decide +kernel)⟩,
   ⟨5, .f1, ⟨3, 1, 0, 0, [0x52000000, 0]⟩, _, Z, (by decide +kernel), (by decide +kernel), (by decide +kernel), rfl⟩,
   ⟨5, (13, 250), { Z with budget := { diodes := [(13, 250)] } }, (by decide +kernel)⟩,
   ⟨5, Z, (by decide +kernel)⟩⟩

theorem test_witness_CurdReports :
    (∃ g : Nat, ∃ eseq : Nat, ∃ w0 : Nat, ∃ w1 : Nat, ∃ n : State, ∃ u : State, ∃ s : State, s.hasCurd g = true ∧ w0 / 2 ^ 28 = 1 ∧
      n = takeRpt g (fun m => m.eseq = eseq && decide (m.payload = [BitVec.ofNat 32 w0, BitVec.ofNat 32 w1])) s ∧ u = sectorOutcome g eseq w0 w1 n) ∧
    (∃ g : Nat, ∃ eseq : Nat, ∃ w0 : Nat, ∃ w1 : Nat, ∃ o : Nat, ∃ sl : SlotNo, ∃ b : Band, ∃ s : State, ∃ c, c ∈ s.cmds ∧
      s.blockAt (s.reportPlace g eseq w0 w1) = some (sl, o) ∧ s.xlat.t.bandAt sl = some b ∧ b.mapped = true ∧ w0.testBit 15 = false ∧
      w0 / 2 ^ 24 % 16 = 2 ∧ c.phase = .admitted ∧ c.reads = true ∧ c.covers b.vol (65536 * b.vband + o) = true ∧
      65536 * b.vband + o - c.slba ∈ c.taken ∧ (∀ y ∈ s.cmds, y.uid = c.uid → y = c)) ∧
    (∃ g : Nat, ∃ eseq : Nat, ∃ w0 : Nat, ∃ w1 : Nat, ∃ o : Nat, ∃ sl : SlotNo, ∃ b : Band, ∃ s : State,
      s.blockAt (s.reportPlace g eseq w0 w1) = some (sl, o) ∧ s.xlat.t.bandAt sl = some b ∧ b.mapped = true ∧ w0.testBit 15 = false ∧
      w0 / 2 ^ 24 % 16 = 4) ∧
    (∃ g : Nat, ∃ eseq : Nat, ∃ w0 : Nat, ∃ w1 : Nat, ∃ o : Nat, ∃ sl : SlotNo, ∃ b : Band, ∃ s : State,
      s.blockAt (s.reportPlace g eseq w0 w1) = some (sl, o) ∧ s.xlat.t.bandAt sl = some b ∧ b.mapped = true ∧ w0.testBit 15 = false ∧
      w0 / 2 ^ 24 % 16 = 5) ∧
    (∃ g : Nat, ∃ eseq : Nat, ∃ n : State, ∃ s : State, s.hasCurd g = true ∧
      n = takeRpt g (fun m => m.eseq = eseq && decide (m.w 0 / 2 ^ 28 = 2)) s) ∧
    (∃ g : Nat, ∃ cls : Nat, ∃ eseq : Nat, ∃ slot : RSlot, ∃ n : State, ∃ s : State, s.hasCurd g = true ∧ s.part.f = 2 ∧
      n = takeRpt g (fun m => decide (m.w 0 = 5 * 2 ^ 28 + cls * 2 ^ 24 + slot.code * 2 ^ 23 ∧ m.w 1 = eseq)) s ∧
      (n.rind n.senior).step.resyncEseq.any (fun k => aheadMod (2 ^ 32) k eseq) = false) ∧
    (∃ g : Nat, ∃ cls : Nat, ∃ eseq : Nat, ∃ slot : RSlot, ∃ n : State, ∃ s : State, s.hasCurd g = true ∧ s.part.f = 2 ∧
      n = takeRpt g (fun m => decide (m.w 0 = 5 * 2 ^ 28 + cls * 2 ^ 24 + slot.code * 2 ^ 23 ∧ m.w 1 = eseq)) s ∧
      (n.rind n.senior).step.resyncEseq.any (fun k => aheadMod (2 ^ 32) k eseq) = true) ∧
    (∃ g : Nat, ∃ w0 : Word, ∃ _w1 : Word, ∃ s : State, s.hasCurd g = true ∧ w0.toNat / 2 ^ 28 = 7) ∧
    (∃ g : Nat, ∃ w0 : Word, ∃ s : State, s.hasCurd g = true ∧ w0.toNat / 2 ^ 28 = 6) ∧
    (∃ w0 : Word, ∃ _w1 : Word, ∃ _w2 : Word, ∃ _w3 : Word, ∃ _s : State, w0.toNat / 2 ^ 28 = 4) :=
  ⟨⟨5, 0, 0x10000000, 0, _, _, Z, (by decide +kernel), (by decide +kernel), rfl, rfl⟩,
   ⟨0, 0, 0x12000000, 0, 0, ⟨0, 0, 0⟩, { slot := ⟨0, 0, 0⟩, state := .inUse, vol := 0, live := [65535] },
     fetched [{ cmdOf [(0, 1, 1), (0x10, 4, 1)] with phase := .admitted, taken := [0] }],
     { cmdOf [(0, 1, 1), (0x10, 4, 1)] with phase := .admitted, taken := [0] }, (by decide +kernel)⟩,
   ⟨0, 0, 0x140003FD, 0, 991, ⟨0, 0, 0⟩, { slot := ⟨0, 0, 0⟩, state := .inUse, vol := 0, live := [65535] }, stored,
     (by decide +kernel)⟩,
   ⟨0, 0, 0x15000000, 0, 0, ⟨0, 0, 0⟩, { slot := ⟨0, 0, 0⟩, state := .inUse, vol := 0, live := [65535] }, stored,
     (by decide +kernel)⟩,
   ⟨5, 0, _, Z, (by decide +kernel), rfl⟩,
   ⟨5, 3, 0xFFFFFFFF, .f1, _, Z, (by decide +kernel), (by decide +kernel), rfl, (by decide +kernel)⟩,
   ⟨5, 3, 0xFFFFFFFF, .f1, _, stepAt .f0 { resyncEseq := some 0 }, (by decide +kernel), (by decide +kernel), rfl, (by decide +kernel)⟩,
   ⟨5, 0x70000000, 0, Z, (by decide +kernel)⟩,
   ⟨5, 0x60000000, Z, (by decide +kernel)⟩,
   ⟨0x4FFFFFFF, 0, 0, 0, Z, (by decide +kernel)⟩⟩

theorem test_witness_ServoArithmetic :
    (∃ n : Nat, n < 2 ^ 24) ∧
    (∃ x : Int, (satAcc x).2 = false) ∧
    (∃ a : Int, (storeQ a).2 = false ∧ 2 * (32768 * (storeQ a).1 - a).natAbs = 32768) ∧
    (∃ m : Nat, ∃ x : Int, (limit m x).2 = false) :=
  ⟨⟨2 ^ 24 - 1, (by decide +kernel)⟩,
   ⟨2 ^ 39 - 1, (by decide +kernel)⟩,
   ⟨-16384, (by decide +kernel)⟩,
   ⟨32767, -32767, (by decide +kernel)⟩⟩

theorem test_witness_ServoWedgesAndTargets :
    (∃ g : Nat, ∃ _w : Wedge, ∃ s : State, s.svState g ≠ svLoading ∧ s.svMoves g = false) ∧
    (∃ _g : Nat, ∃ s : State, s.regsWf = true) ∧
    (∃ g : Nat, ∃ j : Nat, ∃ _isns : Int, ∃ _lat : Nat, ∃ s : State, s.hasCurd g = true ∧ g < s.curds.length ∧ j < 4 ∧ (s.curd g).retN = true) ∧
    (∃ g : Nat, ∃ j : Nat, ∃ _isns : Int, ∃ _lat : Nat, ∃ s : State, s.hasCurd g = true ∧ j < 4 ∧ (s.curd g).retN = false) ∧
    (∃ g : Nat, ∃ surf : Nat, ∃ _track : Nat, ∃ s : State, s.hasCurd g = true ∧ surf < 4) ∧
    (∃ g : Nat, ∃ surf : Nat, ∃ _track : Nat, ∃ n : State, ∃ s : State, n = s.wrC g R.SERVO_STAT_SURF surf ∧ n.svLoaded g = true ∧
      (s.servo g).ramp = none ∧ (s.servo g).restart = false) ∧
    (∃ g : Nat, ∃ surf : Nat, ∃ _track : Nat, ∃ n : State, ∃ s : State, n = s.wrC g R.SERVO_STAT_SURF surf ∧ n.svLoaded g = true ∧
      (s.servo g).ramp.isSome = true) ∧
    (∃ g : Nat, ∃ surf : Nat, ∃ _track : Nat, ∃ n : State, ∃ s : State, n = s.wrC g R.SERVO_STAT_SURF surf ∧ n.svLoaded g = false) :=
  ⟨⟨5, wedge0, Z, (by decide +kernel)⟩,
   ⟨5, Z, (by decide +kernel)⟩,
   ⟨5, 3, 0, 0, Z.modCurd 5 (fun c => { c with retN := true }), (by decide +kernel)⟩,
   ⟨5, 3, 0, 0, Z, (by decide +kernel)⟩,
   ⟨5, 3, 0, Z, (by decide +kernel)⟩,
   ⟨5, 3, 0, _, Z.wrC 5 R.SERVO_STAT_STATE 4, rfl, (by decide +kernel)⟩,
   ⟨5, 3, 0, _, modServo 5 (fun v => { v with ramp := some (0, 0, 0, 0) }) (Z.wrC 5 R.SERVO_STAT_STATE 2), rfl, (by decide +kernel)⟩,
   ⟨5, 3, 0, _, Z.wrC 5 R.SERVO_STAT_STATE 1, rfl, (by decide +kernel)⟩⟩

theorem test_witness_ServoLoadsAndRetracts :
    (∃ g : Nat, ∃ s : State, s.hasCurd g = true ∧ s.canLoad g = true ∧ s.groupWanted g = true) ∧
    (∃ g : Nat, ∃ s : State, s.hasCurd g = true ∧ s.svState g = svLoading) ∧
    (∃ g : Nat, ∃ s : State, s.hasCurd g = true ∧ g < s.curds.length ∧ s.svLoaded g = true) ∧
    (∃ g : Nat, ∃ s : State, s.hasCurd g = true ∧ g < s.curds.length ∧ (s.curd g).retN = false) ∧
    (∃ g : Nat, ∃ s : State, s.hasCurd g = true ∧ s.svState g = svUnloading) ∧
    (∃ g : Nat, ∃ s : State, s.hasCurd g = true ∧ s.linkUp (.curd g .f0) = false ∧ s.linkUp (.curd g .f1) = false) ∧
    (∃ g : Nat, ∃ s : State, s.hasCurd g = true ∧ (s.curd g).retN = true) ∧
    (∃ g : Nat, ∃ s : State, g < s.curds.length ∧ s.regsWf = true ∧ (s.curd g).retN = true) ∧
    (∃ g : Nat, ∃ s : State, g < s.curds.length ∧ s.regsWf = true ∧ s.svState g = svUnloading) :=
  ⟨⟨5, modFmt 5 (fun f => { f with lock := true, queue := [runOne true .waiting] }) (Z.wrC 0 R.SPIN_STAT_RPM 3600), (by decide +kernel)⟩,
   ⟨5, Z.wrC 5 R.SERVO_STAT_STATE 1, (by decide +kernel)⟩,
   ⟨5, Z.wrC 5 R.SERVO_STAT_STATE 2, (by decide +kernel)⟩,
   ⟨5, Z, (by decide +kernel)⟩,
   ⟨5, Z.wrC 5 R.SERVO_STAT_STATE 5, (by decide +kernel)⟩,
   ⟨5, Z, (by decide +kernel)⟩,
   ⟨5, Z.modCurd 5 (fun c => { c with retN := true }), (by decide +kernel)⟩,
   ⟨5, Z.modCurd 5 (fun c => { c with retN := true }), (by decide +kernel)⟩,
   ⟨5, Z.wrC 5 R.SERVO_STAT_STATE 5, (by decide +kernel)⟩⟩

theorem test_witness_SpindleTargetsAndCeiling :
    (∃ _v : Valley, ∃ s : State, s.inReset = false) ∧
    (∃ _v : Valley, ∃ s : State, s.inReset = true) ∧
    (∃ s : State, s.spin.begun = true) ∧
    (∃ src : RSlot, ∃ m : Msg, ∃ x : Bool × State, ∃ s : State, m.cls = 3 ∧ m.w 0 / 2 ^ 24 = 0x51 ∧ x = firstCopy 0 src m s) ∧
    (∃ v : Nat, v ≠ 0 ∧ 3600 ≤ v) ∧
    (∃ _e : Nat, ∃ _v : Nat, ∃ s : State, s.regsWf = true ∧ s.spin.setEseq = none ∧ s.spin.begun = false) ∧
    (∃ e : Nat, ∃ _v : Nat, ∃ k : Nat, ∃ s : State, s.spin.setEseq = some k ∧ aheadMod (2 ^ 32) k e = true) ∧
    (∃ level : Nat, ∃ freq : Nat, ∃ s : State, s.regsWf = true ∧ s.boot.board.polePairs ≠ 0 ∧ (spdSample level freq s).spdValid = true) ∧
    (∃ s : State, s.spdValid = false ∧ s.bitC 0 R.SPIN_STAT_SPDOPEN = false) ∧
    (∃ s : State, s.spdValid = true ∧ s.bitC 0 R.SPIN_STAT_SPDOPEN = true) ∧
    (∃ s : State, s.spdValid = true ∧ s.bitC 0 R.SPIN_STAT_SPDOPEN = false ∧ s.rdC 0 R.SPIN_CEIL_CEIL < s.spin.computed) :=
  ⟨⟨⟨0, 0, 0, 4095, 0, 0, 0, 0, false, 0, 0, 0, 0, 0, 0, false⟩, { spun 0 {} with pins := { por := true } }, (by decide +kernel)⟩,
   ⟨⟨0, 0, 0, 4095, 0, 0, 0, 0, false, 0, 0, 0, 0, 0, 0, false⟩, spun 0 {}, (by decide +kernel)⟩,
   ⟨spun 0 {}, (by decide +kernel)⟩,
   ⟨.f1, ⟨3, 1, 0, 0, [0x51000000]⟩, _, Z, (by decide +kernel), (by decide +kernel), rfl⟩,
   ⟨3600, (by decide +kernel)⟩,
   ⟨0, 7200, Z, (by decide +kernel)⟩,
   ⟨0, 7200, 1, { Z with spin := { setEseq := some 1 } }, (by decide +kernel)⟩,
   ⟨1600, 0, { Z with boot := { board := boardOk } }, (by decide +kernel)⟩,
   ⟨Z, (by decide +kernel)⟩,
   ⟨{ Z.wrC 0 R.SPIN_STAT_SPDOPEN 1 with spin := { spd := [(100, 0)] } }, (by decide +kernel)⟩,
   ⟨{ Z.wrC 0 R.SPIN_CEIL_CEIL 7140 with spin := { spd := [(1600, 0)] } }, (by decide +kernel)⟩⟩

theorem test_witness_SpindleStarts :
    (∃ a : Nat, ∃ b : Nat, ∃ c : Nat, ∃ n : State, ∃ s : State, s.spState = spMeasuring ∧ s.spinFree = true ∧ n = restMeasure a b c s ∧
      (n.warmEnough = true ∨ (n.spin.stored = true ∧ n.rdC 0 R.SPIN_TARGET_SETPT = 0))) ∧
    (∃ a : Nat, ∃ b : Nat, ∃ c : Nat, ∃ n : State, ∃ s : State, s.spState = spMeasuring ∧ s.spinFree = true ∧ n = restMeasure a b c s ∧
      n.warmEnough = false ∧ (n.spin.stored = false ∨ n.rdC 0 R.SPIN_TARGET_SETPT ≠ 0)) ∧
    (∃ _rp : Nat, ∃ c : HdaCal, ∃ s : State, s.boot.cal = some c ∧ s.spState = spRunning ∧ s.spin.speedRef = 1000 * s.rdC 0 R.SPIN_TARGET_APPLIED ∧
      s.bitC 0 R.SPIN_STAT_FW = false) ∧
    (∃ t : Int, ∃ _r : Nat, ∃ _src : Nat, ∃ s : State, s.regsWf = true ∧ -32768 ≤ t ∧ t < 32768) ∧
    (∃ _r : Nat, ∃ u : State, ∃ s : State, s.spState = spCooking ∧ s.spinFree = true ∧
      u = { s with spin := { s.spin with cookPwr := s.rdC 0 R.SPIN_COOK_COOKPWR } }) ∧
    (∃ r : Nat, ∃ _s : State, 0 < r) ∧
    (∃ a : Nat, ∃ b : Nat, ∃ c : Nat, ∃ n : State, ∃ s : State, s.spState = spCooking ∧ s.spinFree = true ∧ n = restMeasure a b c s ∧
      n.warmEnough = true) ∧
    (∃ a : Nat, ∃ b : Nat, ∃ c : Nat, ∃ n : State, ∃ s : State, s.spState = spCooking ∧ s.spinFree = true ∧ n = restMeasure a b c s ∧
      n.warmEnough = false) ∧
    (∃ dips : List Nat, ∃ rets : List Nat, ∃ s : State, s.spin.due = true ∧ s.spinFree = true ∧
      s.rdC 0 R.SPIN_VTHR2_VMOTUV ≤ s.rdC 0 R.SPIN_VMOT_VMOT ∧ dips.length = 3 ∧ rets.length = 3 ∧ (∀ x ∈ dips, s.boot.board.chopDip ≤ x) ∧
      (∀ x ∈ rets, x ≤ s.boot.board.chopDip)) ∧
    (∃ dips : List Nat, ∃ rets : List Nat, ∃ s : State, s.spin.due = true ∧ s.spinFree = true ∧
      s.rdC 0 R.SPIN_VTHR2_VMOTUV ≤ s.rdC 0 R.SPIN_VMOT_VMOT ∧ dips.length = 3 ∧ rets.length = 3 ∧ ((∃ x ∈ dips,
      x < s.boot.board.chopDip) ∨ (∃ x ∈ rets, s.boot.board.chopDip < x))) ∧
    (∃ s : State, s.spState = spFloating ∧ s.spinFree = true ∧ s.aboveFloor s.spin.bemf = false) ∧
    (∃ s : State, s.spState = spFloating ∧ s.spinFree = true ∧ s.aboveFloor s.spin.bemf = true ∧ 300 ≤ s.rpm ∧ s.bitC 0 R.SPIN_STAT_DIR = false ∧
      s.bitC 0 R.SPIN_STAT_LOCK = true) ∧
    (∃ s : State, s.spState = spFloating ∧ s.spinFree = true ∧ s.aboveFloor s.spin.bemf = true ∧ 300 ≤ s.rpm ∧ s.bitC 0 R.SPIN_STAT_DIR = false ∧
      s.bitC 0 R.SPIN_STAT_LOCK = false) ∧
    (∃ s : State, s.spState = spFloating ∧ s.spinFree = true ∧ s.aboveFloor s.spin.bemf = true ∧ (s.rpm < 300 ∨ s.bitC 0 R.SPIN_STAT_DIR = true)) ∧
    (∃ s : State, s.spState = spCoasting ∧ s.spin.belowSince.isSome = true ∧ s.spin.due = false ∧ s.spinFree = true) ∧
    (∃ rises : List Nat, ∃ s : State, s.spState = spSensing ∧ s.spinFree = true ∧ rises.length = 6) ∧
    (∃ s : State, s.spState = spOpenLoop ∧ 240000 ≤ s.spin.openRpm) :=
  ⟨⟨0, 0, 0, _, spun 1 { stored := true }, (by decide +kernel), (by decide +kernel), rfl, (by decide +kernel)⟩,
   ⟨0, 0, 0, _, spun 1 {}, (by decide +kernel), (by decide +kernel), rfl, (by decide +kernel)⟩,
   ⟨0, cal0, { spun 6 { speedRef := 1000 * Z.rdC 0 R.SPIN_TARGET_APPLIED } with boot := { cal := some cal0 } },
     (by decide +kernel)⟩,
   ⟨-32768, 0, 0, Z, (by decide +kernel)⟩,
   ⟨0, _, spun 2 {}, (by decide +kernel), (by decide +kernel), rfl⟩,
   ⟨1, Z, (by decide +kernel)⟩,
   ⟨1000000, 1000000, 1000000, _, { spun 2 {} with boot := { cal := some cal0 } }, (by decide +kernel), (by decide +kernel), rfl,
     (by decide +kernel)⟩,
   ⟨0, 0, 0, _, spun 2 {}, (by decide +kernel), (by decide +kernel), rfl, (by decide +kernel)⟩,
   ⟨[10, 10, 10], [10, 10, 10], { spun 0 { due := true } with boot := { board := boardOk } }, (by decide +kernel)⟩,
   ⟨[10, 10, 9], [10, 10, 10], { spun 0 { due := true } with boot := { board := boardOk } }, (by decide +kernel)⟩,
   ⟨spun 3 {}, (by decide +kernel)⟩,
   ⟨(spun 3 { bemf := 1 }).wrC 0 R.SPIN_STAT_RPM 300 |>.wrC 0 R.SPIN_STAT_LOCK 1, (by decide +kernel)⟩,
   ⟨(spun 3 { bemf := 1 }).wrC 0 R.SPIN_STAT_RPM 300, (by decide +kernel)⟩,
   ⟨(spun 3 { bemf := 1 }).wrC 0 R.SPIN_STAT_RPM 299, (by decide +kernel)⟩,
   ⟨spun 7 { belowSince := some 0 }, (by decide +kernel)⟩,
   ⟨[0, 0, 0, 0, 0, 0], spun 4 {}, (by decide +kernel)⟩,
   ⟨spun 5 { openRpm := 240000 }, (by decide +kernel)⟩⟩

theorem test_witness_SpindleProtection :
    (∃ s : State, s.spin.bridge = true ∧ (s.spin.ovc.filter (fun t => s.now < t + 10000)).length < 2) ∧
    (∃ s : State, s.spin.bridge = true ∧ 2 ≤ (s.spin.ovc.filter (fun t => s.now < t + 10000)).length) ∧
    (∃ s : State, s.spin.bridge = false) ∧
    (∃ s : State, (s.spin.bridge = true ∨ s.spin.brk = true)) ∧
    (∃ s : State, s.spin.latched = true ∧ s.rdC 0 R.SPIN_VMOT_VMOT < s.rdC 0 R.SPIN_VTHR1_VBRK1) ∧
    (∃ s : State, s.regsWf = true) :=
  ⟨⟨spun 6 { bridge := true, ovc := [0] }, (by decide +kernel)⟩,
   ⟨spun 6 { bridge := true, ovc := [0, 0] }, (by decide +kernel)⟩,
   ⟨Z, (by decide +kernel)⟩,
   ⟨spun 8 { brk := true }, (by decide +kernel)⟩,
   ⟨{ Z.wrC 0 R.SPIN_VTHR1_VBRK1 1 with spin := { latched := true } }, (by decide +kernel)⟩,
   ⟨Z, (by decide +kernel)⟩⟩

theorem test_witness_SymbolCode :
    (∃ data : List Nat, data.length = 16 ∧ (∀ x ∈ data, x < 256)) ∧
    (∃ p : Nat, ∃ e : Nat, p < 20 ∧ 0 < e ∧ e < 256) ∧
    (∃ k : Nat, k < 10) :=
  ⟨⟨List.replicate 16 255, (by decide +kernel)⟩,
   ⟨19, 255, (by decide +kernel)⟩,
   ⟨9, (by decide +kernel)⟩⟩

theorem test_witness_BufferMemory :
    (∃ d : RSlot, ∃ cw : Nat, ∃ syms : List Byte, ∃ s : State, s.hasRind d = true ∧ syms.length = 20 ∧ 16 * cw < s.dataBytes d ∧
      (s.rind d).cave.fills.any (fun f => f.line = cw / 8) = false) ∧
    (∃ d : RSlot, ∃ cw : Nat, ∃ syms : List Byte, ∃ s : State, s.hasRind d = true ∧ syms.length = 20 ∧ 16 * cw < s.dataBytes d ∧
      (s.rind d).cave.fills.any (fun f => f.line = cw / 8) = true) ∧
    (∃ d : RSlot, ∃ cw : Nat, ∃ syms : List Nat, ∃ s : State, cw ∉ (s.rind d).bmem.poison ∧ syndromes syms = [0, 0, 0, 0]) ∧
    (∃ d : RSlot, ∃ cw : Nat, ∃ _syms : List Nat, ∃ s : State, cw ∈ (s.rind d).bmem.poison) ∧
    (∃ d : RSlot, ∃ cw : Nat, ∃ data : List Byte, ∃ s : State, ∃ x, data.length = 16 ∧ Memory.wf (s.rind d).bmem.cells = true ∧
      (s.rind d).bmem.merges = [] ∧ x ≠ cw) ∧
    (∃ d : RSlot, ∃ cw : Nat, ∃ e : MergeEntry, ∃ s : State, (s.rind d).bmem.merges.find? (fun e => e.cw = cw) = some e) ∧
    (∃ d : RSlot, ∃ cw : Nat, ∃ s : State, (s.rind d).bmem.merges.find? (fun e => e.cw = cw) = none) ∧
    (∃ d : RSlot, ∃ c : Nat, ∃ set : Nat, ∃ s : State, s.regsWf = true ∧ s.hasRind d = true ∧ c < 2 ∧ set < 8 ∧ s.setIdle d (8 * c + set) = true) ∧
    (∃ d : RSlot, ∃ c : Nat, ∃ set : Nat, ∃ s : State, s.regsWf = true ∧ s.hasRind d = true ∧ c < 2 ∧ set < 8 ∧ s.setIdle d (8 * c + set) = false ∧
      assocGet (8 * c + set) 0 (s.rind d).bmem.owed < 4) ∧
    (∃ d : RSlot, ∃ c : Nat, ∃ set : Nat, ∃ s : State, s.regsWf = true ∧ s.hasRind d = true ∧ c < 2 ∧ set < 8 ∧ s.setIdle d (8 * c + set) = false ∧
      4 ≤ assocGet (8 * c + set) 0 (s.rind d).bmem.owed) ∧
    (∃ d : RSlot, ∃ c : Nat, ∃ s : State, s.hasRind d = true ∧ c < 2 ∧ c ∉ (s.rind d).bmem.replay) ∧
    (∃ d : RSlot, ∃ c : Nat, ∃ s : State, s.hasRind d = true ∧ c < 2 ∧ c ∈ (s.rind d).bmem.replay) ∧
    (∃ _d : RSlot, ∃ c : Nat, ∃ bank : Nat, ∃ _s : State, c < 2 ∧ bank < 64) :=
  ⟨⟨.f0, 2147483647, List.replicate 20 0, Z, (by decide +kernel)⟩,
   ⟨.f0, 7, List.replicate 20 0, modCave .f0 (fun c => { c with fills := [⟨0, 0, true, []⟩] }) Z, (by decide +kernel)⟩,
   ⟨.f0, 0, List.replicate 20 0, Z, (by decide +kernel)⟩,
   ⟨.f0, 0, List.replicate 20 0, modBmem .f0 (fun b => { b with poison := [0] }) Z, (by decide +kernel)⟩,
   ⟨.f0, 1, List.replicate 16 0xFF, Z, 0, (by decide +kernel)⟩,
   ⟨.f0, 0, ⟨0, List.replicate 16 0, List.replicate 16 true⟩,
     modBmem .f0 (fun b => { b with merges := [⟨0, List.replicate 16 0, List.replicate 16 true⟩] }) Z, (by decide +kernel)⟩,
   ⟨.f0, 0, Z, (by decide +kernel)⟩,
   ⟨.f1, 1, 7, Z, (by decide +kernel)⟩,
   ⟨.f1, 1, 7, modBmem .f1 (fun b => { b with rows := [(127, 0)], owed := [(15, 3)] }) Z, (by decide +kernel)⟩,
   ⟨.f1, 1, 7, modBmem .f1 (fun b => { b with rows := [(127, 0)], owed := [(15, 4)] }) Z, (by decide +kernel)⟩,
   ⟨.f1, 1, Z, (by decide +kernel)⟩,
   ⟨.f1, 1, modBmem .f1 (fun b => { b with replay := [1] }) Z, (by decide +kernel)⟩,
   ⟨.f1, 1, 63, Z, (by decide +kernel)⟩⟩

theorem test_witness_BufferHandles :
    (∃ p : Nat, ∃ gen : Nat, ∃ i : Nat, p < 4 ∧ gen < 256 ∧ i < 2 ^ 22) ∧
    (∃ _d : RSlot, ∃ p : Nat, ∃ i : Nat, ∃ _owner : Nat, ∃ _s : State, ∃ q, ∃ j, (q ≠ p ∨ j ≠ i)) ∧
    (∃ d : RSlot, ∃ owner : Nat, ∃ handle : Nat, ∃ _rename : Bool, ∃ s : State, ownerOk owner = true ∧
      (handleParts handle).2.2 < s.poolCount d (handleParts handle).1 ∧
      ((s.rind d).vat.buf (handleParts handle).1 (handleParts handle).2.2).gen ≠ (handleParts handle).2.1) :=
  ⟨⟨3, 255, 4194303, (by decide +kernel)⟩,
   ⟨.f0, 3, 0, 0, Z, 3, 1, (by decide +kernel)⟩,
   ⟨.f0, 0x12A, vatHandle 3 254 0, true, buffered 1 0, (by decide +kernel)⟩⟩

theorem test_witness_VatRequests :
    (∃ d : RSlot, ∃ owner : Nat, ∃ size : Nat, ∃ promote : Bool, ∃ wait : Bool, ∃ s : State, (vatAlloc d owner size promote wait s).1.status = 0) ∧
    (∃ d : RSlot, ∃ owner : Nat, ∃ p : Nat, ∃ i : Nat, ∃ gen : Nat, ∃ n : Nat, ∃ last : Nat, ∃ _rename : Bool, ∃ s : State, ownerOk owner = true ∧
      p < 4 ∧ gen < 256 ∧ i < 2 ^ 22 ∧ i < s.poolCount d p ∧ (s.rind d).vat.buf p i = ⟨p, i, gen, some (n, last)⟩ ∧ n < 255) ∧
    (∃ d : RSlot, ∃ owner : Nat, ∃ p : Nat, ∃ i : Nat, ∃ gen : Nat, ∃ n : Nat, ∃ last : Nat, ∃ _rename : Bool, ∃ s : State, ownerOk owner = true ∧
      p < 4 ∧ gen < 256 ∧ i < 2 ^ 22 ∧ i < s.poolCount d p ∧ (s.rind d).vat.buf p i = ⟨p, i, gen, some (n, last)⟩ ∧ n = 255) ∧
    (∃ d : RSlot, ∃ owner : Nat, ∃ p : Nat, ∃ i : Nat, ∃ gen : Nat, ∃ n : Nat, ∃ last : Nat, ∃ _rename : Bool, ∃ s : State, ownerOk owner = true ∧
      p < 4 ∧ gen < 256 ∧ i < 2 ^ 22 ∧ i < s.poolCount d p ∧ (s.rind d).vat.buf p i = ⟨p, i, gen, some (n, last)⟩ ∧ owner ≠ last ∧ n = 1) ∧
    (∃ d : RSlot, ∃ owner : Nat, ∃ p : Nat, ∃ i : Nat, ∃ gen : Nat, ∃ n : Nat, ∃ last : Nat, ∃ _rename : Bool, ∃ s : State, ownerOk owner = true ∧
      p < 4 ∧ gen < 256 ∧ i < 2 ^ 22 ∧ i < s.poolCount d p ∧ (s.rind d).vat.buf p i = ⟨p, i, gen, some (n, last)⟩ ∧ owner ≠ last ∧ n ≠ 1) ∧
    (∃ d : RSlot, ∃ owner : Nat, ∃ p : Nat, ∃ i : Nat, ∃ gen : Nat, ∃ n : Nat, ∃ last : Nat, ∃ _rename : Bool, ∃ s : State, ownerOk owner = true ∧
      p < 4 ∧ gen < 256 ∧ i < 2 ^ 22 ∧ i < s.poolCount d p ∧ (s.rind d).vat.buf p i = ⟨p, i, gen, some (n, last)⟩ ∧ owner = last ∧ n ≠ 1) ∧
    (∃ d : RSlot, ∃ owner : Nat, ∃ p : Nat, ∃ i : Nat, ∃ gen : Nat, ∃ n : Nat, ∃ last : Nat, ∃ _rename : Bool, ∃ s : State, ownerOk owner = true ∧
      p < 4 ∧ gen < 256 ∧ i < 2 ^ 22 ∧ i < s.poolCount d p ∧ (s.rind d).vat.buf p i = ⟨p, i, gen, some (n, last)⟩ ∧ owner = last ∧ n = 1 ∧
      (s.rind d).vat.waits = []) :=
  ⟨⟨.f0, 0x12A, 8388608, false, false, (Z.wrR .f0 (R.VAT_POOLCFG_COUNT 3) 1).wrR .f0 (R.VAT_POOLCFG_SIZELOG2 3) 23, (by decide +kernel)⟩,
   ⟨.f0, 0x12A, 3, 0, 255, 254, 0, true, buffered 254 0, (by decide +kernel)⟩,
   ⟨.f0, 0x12A, 3, 0, 255, 255, 0, true, buffered 255 0, (by decide +kernel)⟩,
   ⟨.f0, 1, 3, 0, 255, 1, 0, true, buffered 1 0, (by decide +kernel)⟩,
   ⟨.f0, 1, 3, 0, 255, 2, 0, true, buffered 2 0, (by decide +kernel)⟩,
   ⟨.f0, 0, 3, 0, 255, 255, 0, true, buffered 255 0, (by decide +kernel)⟩,
   ⟨.f0, 0, 3, 0, 255, 1, 0, true, buffered 1 0, (by decide +kernel)⟩⟩

theorem test_witness_CaveAccessesAndMaintenance :
    (∃ _b : BitVec 15, ∃ w : Nat, ∃ n, w < 16 ∧ n < 15 ∧ (∀ p ∈ plruPath w, p.1 - 1 ≠ n)) ∧
    (∃ d : RSlot, ∃ _who : AccWho, ∃ addr : Nat, ∃ _noalloc : Bool, ∃ s : State, s.hasRind d = true ∧ addr < s.dataBytes d ∧
      (s.caveOn d = false ∨ s.caveServes d (addr / 128) = true)) ∧
    (∃ d : RSlot, ∃ _who : AccWho, ∃ addr : Nat, ∃ _noalloc : Bool, ∃ s : State, s.hasRind d = true ∧ addr < s.dataBytes d ∧ s.caveOn d = true ∧
      s.caveServes d (addr / 128) = false) ∧
    (∃ d : RSlot, ∃ _who : AccWho, ∃ addr : Nat, ∃ data : List Byte, ∃ s : State, s.hasRind d = true ∧ addr + data.length ≤ s.dataBytes d) ∧
    (∃ d : RSlot, ∃ line : Nat, ∃ s : State, ((s.rind d).cave.fills.take maxFills).find? (fun f => f.line = line) = none) ∧
    (∃ d : RSlot, ∃ line : Nat, ∃ f : Fill, ∃ s : State, ((s.rind d).cave.fills.take maxFills).find? (fun f => f.line = line) = some f) ∧
    (∃ d : RSlot, ∃ s : State, (s.rind d).cave.evict.all (fun e => e.issued) = true) ∧
    (∃ d : RSlot, ∃ e : Evicted, ∃ rest : List Evicted, ∃ s : State, (s.rind d).cave.evict = e :: rest ∧ (∀ x ∈ e :: rest, x.issued = false)) ∧
    (∃ d : RSlot, ∃ op : Nat, ∃ _spare : Bool, ∃ s : State, s.hasRind d = true ∧ op < 4) ∧
    (∃ d : RSlot, ∃ op : Nat, ∃ _spare : Bool, ∃ s : State, s.regsWf = true ∧ s.bitR d R.CAVE_STAT_BUSY = false ∧ op ≠ 0 ∧
      s.rdR d R.CAVE_MBASE_LINE ≤ s.rdR d R.CAVE_MLIMIT_LINE) ∧
    (∃ d : RSlot, ∃ m : Maint, ∃ s : State, (s.rind d).cave.maint = some m) ∧
    (∃ d : RSlot, ∃ s : State, (s.rind d).cave.maint = none) ∧
    (∃ _m : Maint, ∃ set, set < 8192) :=
  ⟨⟨0, 15, 13, (by decide +kernel)⟩,
   ⟨.f1, .port, 34359738367, true, Z, (by decide +kernel)⟩,
   ⟨.f1, .engine 7, 34359738367, true, Z.wrR .f1 R.CAVE_STAT_EN 1, (by decide +kernel)⟩,
   ⟨.f0, .ladle 31, 34359738366, [1, 2], Z, (by decide +kernel)⟩,
   ⟨.f0, 0, Z, (by decide +kernel)⟩,
   ⟨.f0, 1, ⟨1, 0, true, [.xlat]⟩, modCave .f0 (fun c => { c with fills := [⟨1, 0, true, [.xlat]⟩] }) Z, (by decide +kernel)⟩,
   ⟨.f0, modCave .f0 (fun c => { c with evict := [⟨0, [], true⟩] }) Z, (by decide +kernel)⟩,
   ⟨.f0, ⟨0, [], false⟩, [], modCave .f0 (fun c => { c with evict := [⟨0, [], false⟩] }) Z, (by decide +kernel)⟩,
   ⟨.f1, 3, true, Z, (by decide +kernel)⟩,
   ⟨.f0, 3, true, Z, (by decide +kernel)⟩,
   ⟨.f0, { op := 3, base := 0, limit := 0, spare := false },
     modCave .f0 (fun c => { c with maint := some { op := 3, base := 0, limit := 0, spare := false } }) Z, (by decide +kernel)⟩,
   ⟨.f0, Z, (by decide +kernel)⟩,
   ⟨{ op := 3, base := 0, limit := 0, spare := false }, 8191, (by decide +kernel)⟩⟩

theorem test_witness_CaveMaintenanceWhileBusy :
    (∃ d : RSlot, ∃ r : Requester, ∃ addr : Nat, ∃ _v : Word, ∃ s : State, ∃ n : State, n = newStep 0x03 0 0 s ∧ s.hasRind d = true ∧
      s.regsWf = true ∧ addr ∈ [0x78004, 0x78008, 0x7800C] ∧ n.fenced d = false ∧ n.mayWrite d r addr = true ∧ n.pageOpen d addr = true ∧
      (∀ e ∈ n.serving, n.bitR e R.CAVE_STAT_BUSY = true)) ∧
    (∃ d : RSlot, ∃ _rd : RegDef, ∃ _v : Word, ∃ s : State, s.bitR d R.CAVE_STAT_BUSY = true) ∧
    (∃ d : RSlot, ∃ _spare : Bool, ∃ s : State, s.bitR d R.CAVE_STAT_BUSY = false) :=
  ⟨⟨.f0, .sideband, 0x7800C, 1, ((opened [7]).wrR .f0 R.CAVE_STAT_BUSY 1).wrR .f1 R.CAVE_STAT_BUSY 1, _, rfl, (by decide +kernel)⟩,
   ⟨.f0, ⟨0x7800C, [], []⟩, 1, Z.wrR .f0 R.CAVE_STAT_BUSY 1, (by decide +kernel)⟩,
   ⟨.f1, true, Z, (by decide +kernel)⟩⟩

theorem test_witness_LadleTransfers :
    (∃ d : RSlot, ∃ eng : Nat, ∃ ch : Nat, ∃ pair : Nat, ∃ _v : BitVec 64, ∃ s : State, s.hasCh d ch = true ∧ pair < 3 ∧ ch / 4 = eng) ∧
    (∃ d : RSlot, ∃ ch : Nat, ∃ pair : Nat, ∃ v : BitVec 64, ∃ s : State, (shadowWrite d ch pair v s).1 = false) ∧
    (∃ d : RSlot, ∃ ch : Nat, ∃ s : State, (s.ladleShd d ch).ok = false) ∧
    (∃ d : RSlot, ∃ ch : Nat, ∃ s : State, s.regsWf = true ∧ ch < 32 ∧ (s.ladleShd d ch).ok = true ∧ (s.ladleShd d ch).cont = false ∧
      s.ladleStopped d = false ∧ s.chState d ch = chIdle) ∧
    (∃ d : RSlot, ∃ ch : Nat, ∃ data : List Byte, ∃ s : State, s.chRuns d ch = true ∧ (s.ladleAct d ch).dir = 1 ∧ (s.ladleCh d ch).listed = false ∧
      data.length ≤ s.ladleLeft d ch) ∧
    (∃ d : RSlot, ∃ ch : Nat, ∃ s : State, s.hasCh d ch = true ∧ s.canEnd d ch = true) ∧
    (∃ d : RSlot, ∃ ch : Nat, ∃ s : State, s.canEnd d ch = false) ∧
    (∃ d : RSlot, ∃ ch : Nat, ∃ s : State, s.hasCh d ch = true ∧ d ∈ s.serving ∧ s.chRuns d ch = true) ∧
    (∃ d : RSlot, ∃ ch : Nat, ∃ s : State, ∃ c, s.regsWf = true ∧ s.chRuns d ch = true ∧ s.ladleStopped d = false ∧ c < 32) ∧
    (∃ d : RSlot, ∃ ch : Nat, ∃ s : State, s.regsWf = true ∧ ch < 32 ∧ s.chRuns d ch = true ∧ s.ladleStopped d = true) ∧
    (∃ d : RSlot, ∃ eng : Nat, ∃ ch : Nat, ∃ pair : Nat, ∃ _v : BitVec 64, ∃ s : State, s.hasCh d ch = true ∧ pair < 3 ∧ ch / 4 ≠ eng) :=
  ⟨⟨.f1, 7, 31, 2, 0, Z, (by decide +kernel)⟩,
   ⟨.f0, 31, 1, 0x0000001000000000, Z, (by decide +kernel)⟩,
   ⟨.f0, 31, Z.wrR .f0 (R.LADLE_SHD3_W 31) 0x10, (by decide +kernel)⟩,
   ⟨.f0, 31, (ladling 31 0x10000000 64).wrR .f0 (R.LADLE_CHSTAT_STATE 31) 0, (by decide +kernel)⟩,
   ⟨.f0, 31, [1], ladling 31 0x10000000 1, (by decide +kernel)⟩,
   ⟨.f0, 31, (ladling 31 0x10000000 1).wrR .f0 (R.LADLE_CHACK_BYTES 31) 1, (by decide +kernel)⟩,
   ⟨.f0, 31, ladling 31 0x10000000 1, (by decide +kernel)⟩,
   ⟨.f0, 31, ladling 31 0x10000000 1, (by decide +kernel)⟩,
   ⟨.f0, 31, ladling 31 0x10000000 1, 31, (by decide +kernel)⟩,
   ⟨.f0, 31, ((ladling 31 0x10000000 1).wrR .f0 R.LADLE_STAT_STOPPED 1).wrR .f0 R.LADLE_STAT_PASSCH 31, (by decide +kernel)⟩,
   ⟨.f0, 0, 31, 2, 0, Z, (by decide +kernel)⟩⟩

theorem test_witness_EngineWords :
    (∃ e : Eng, ∃ pc : Nat, ∃ m : Micro, ∃ s : State, s.PlainWord e 0 pc m) ∧
    (∃ e : Eng, ∃ pc : Nat, ∃ m : Micro, ∃ s : State, s.PlainWord e 1 pc m) ∧
    (∃ e : Eng, ∃ pc : Nat, ∃ m : Micro, ∃ s : State, s.PlainWord e 2 pc m) ∧
    (∃ e : Eng, ∃ pc : Nat, ∃ m : Micro, ∃ s : State, s.PlainWord e 3 pc m ∧ (s.eng e).stack.length < 8) ∧
    (∃ e : Eng, ∃ pc : Nat, ∃ m : Micro, ∃ s : State, s.PlainWord e 4 pc m ∧ (s.wordTaken e m = true → (s.eng e).stack.length < 8)) ∧
    (∃ e : Eng, ∃ pc : Nat, ∃ a : Nat, ∃ rest : List Nat, ∃ m : Micro, ∃ s : State, s.PlainWord e 5 pc m ∧ (s.eng e).stack = a :: rest) ∧
    (∃ e : Eng, ∃ pc : Nat, ∃ m : Micro, ∃ s : State, s.PlainWord e 6 pc m) ∧
    (∃ e : Eng, ∃ pc : Nat, ∃ m : Micro, ∃ s : State, s.PlainWord e 7 pc m) ∧
    (∃ e : Eng, ∃ pc : Nat, ∃ m : Micro, ∃ s : State, s.PlainWord e 8 pc m) ∧
    (∃ e : Eng, ∃ pc : Nat, ∃ m : Micro, ∃ s : State, s.PlainWord e 9 pc m) ∧
    (∃ e : Eng, ∃ nac : Nat, ∃ pc : Nat, ∃ m : Micro, ∃ s : State, s.PlainWord e nac pc m ∧ m.stackOk (s.eng e) (s.wordTaken e m) = false) ∧
    (∃ e : Eng, ∃ nac : Nat, ∃ pc : Nat, ∃ m : Micro, ∃ s : State, ∃ i, nac < 8 ∧ s.PlainWord e nac pc m ∧
      m.stackOk (s.eng e) (s.wordTaken e m) = true ∧ m.dest ≠ 0 ∧ m.aluop ≠ 0 ∧ m.aluop ≠ 0x0D ∧ i ≠ m.dest ∧ i ≠ m.mvdst) :=
  ⟨⟨.rind .f0 7, 16351, microFields (wordNac 0), onWord 16351 (wordNac 0) [], by_dec (decPlainWord _ _ _ _ _) (by decide +kernel)⟩,
   ⟨.rind .f0 7, 16351, microFields (wordNac 1), onWord 16351 (wordNac 1) [], by_dec (decPlainWord _ _ _ _ _) (by decide +kernel)⟩,
   ⟨.curd 5, 4031, microFields (wordNac 2), onWordC 4031 (wordNac 2) [], by_dec (decPlainWord _ _ _ _ _) (by decide +kernel)⟩,
   ⟨.curd 5, 4031, microFields (wordNac 3), onWordC 4031 (wordNac 3) [0, 0, 0, 0, 0, 0, 0],
     by_dec (decPlainWord _ _ _ _ _) (by decide +kernel), (by decide +kernel)⟩,
   ⟨.curd 5, 4031, microFields (wordNac 4), onWordC 4031 (wordNac 4) [0, 0, 0, 0, 0, 0, 0],
     by_dec (decPlainWord _ _ _ _ _) (by decide +kernel), (by decide +kernel)⟩,
   ⟨.curd 5, 4031, 9, [], microFields (wordNac 5), onWordC 4031 (wordNac 5) [9], by_dec (decPlainWord _ _ _ _ _) (by decide +kernel),
     (by decide +kernel)⟩,
   ⟨.curd 5, 4031, microFields (wordNac 6), onWordC 4031 (wordNac 6) [], by_dec (decPlainWord _ _ _ _ _) (by decide +kernel)⟩,
   ⟨.curd 5, 4031, microFields (wordNac 7), onWordC 4031 (wordNac 7) [], by_dec (decPlainWord _ _ _ _ _) (by decide +kernel)⟩,
   ⟨.curd 5, 4031, microFields (BitVec.ofNat 144 (8 * 2 ^ 140 + 2 ^ 42)), onWordC 4031 (BitVec.ofNat 144 (8 * 2 ^ 140 + 2 ^ 42)) [],
     by_dec (decPlainWord _ _ _ _ _) (by decide +kernel)⟩,
   ⟨.curd 5, 4031, microFields (wordNac 9), onWordC 4031 (wordNac 9) [], by_dec (decPlainWord _ _ _ _ _) (by decide +kernel)⟩,
   ⟨.rind .f0 7, 5, 0, microFields (wordNac 5), onWord 0 (wordNac 5) [], by_dec (decPlainWord _ _ _ _ _) (by decide +kernel),
     (by decide +kernel)⟩,
   ⟨.rind .f0 7, 7, 0, microFields (BitVec.ofNat 144 (7 * 2 ^ 140 + 0x12 * 2 ^ 114 + 31 * 2 ^ 96)),
     onWord 0 (BitVec.ofNat 144 (7 * 2 ^ 140 + 0x12 * 2 ^ 114 + 31 * 2 ^ 96)) [], 30, (by decide +kernel),
     by_dec (decPlainWord _ _ _ _ _) (by decide +kernel), (by decide +kernel)⟩⟩

theorem test_witness_EngineArithmetic :
    (∃ sh : Nat, ∃ _a : BitVec 64, ∃ b : BitVec 64, ∃ _old : BitVec 64, ∃ i : Nat, i < 64 ∧ sh + b.toNat % 64 ≤ 64) ∧
    (∃ a : BitVec 64, ∃ b : BitVec 64, ∃ old : BitVec 64, ∃ n, ∃ i, (alu 0x10 0 a b old).value.toNat = n ∧ n < 64 ∧ 63 - n < i) ∧
    (∃ _g : Engine, ∃ i : Nat, ∃ _j : Nat, ∃ _v : BitVec 64, i ≠ 0) ∧
    (∃ _g : Engine, ∃ i : Nat, ∃ j : Nat, ∃ _v : BitVec 64, j ≠ i) :=
  ⟨⟨1, 0, 63, 0, 63, (by decide +kernel)⟩,
   ⟨1, 0, 0, 63, 1, (by decide +kernel)⟩,
   ⟨{}, 31, 0, 0, (by decide +kernel)⟩,
   ⟨{}, 31, 30, 0, (by decide +kernel)⟩⟩

theorem test_witness_EngineEventsMemoryAndMessages :
    (∃ e : Eng, ∃ cls : Nat, ∃ _data : BitVec 64, ∃ s : State, s.Quiet ∧ s.hasEng e = true ∧ s.EngHeld e ∧ cls < 8 ∧ (s.eng e).events.length < 16) ∧
    (∃ e : Eng, ∃ _cls : Nat, ∃ _data : BitVec 64, ∃ s : State, s.Quiet ∧ 16 ≤ (s.eng e).events.length) ∧
    (∃ e : Eng, ∃ p : RespPort, ∃ _v : BitVec 64, ∃ _ok : Bool, ∃ _poisoned : Bool, ∃ _queued : Bool, ∃ q : EngReq, ∃ s : State, s.Quiet ∧
      s.EngHeld e ∧ (s.eng e).waiting = none ∧ (s.eng e).reqs.find? (fun q => q.port = p.no) = some q ∧ q.withheld = false) ∧
    (∃ e : Eng, ∃ p : RespPort, ∃ _v : BitVec 64, ∃ _ok : Bool, ∃ _dr : Bool, ∃ _poisoned : Bool, ∃ _queued : Bool, ∃ s : State, s.Quiet ∧
      (s.eng e).reqs.find? (fun q => q.port = p.no) = none) ∧
    (∃ d : RSlot, ∃ i : Nat, ∃ s : State, (s.eng (.rind d i)).timer.isSome = true ∧ d = s.senior ∧ d ∈ s.serving) ∧
    (∃ e : Eng, ∃ s : State, s.hasEng e = true ∧ (s.eng e).parked = none ∧ (s.rd e.die e.fState = engRunning ∨ s.rd e.die e.fState = engWaiting)) ∧
    (∃ d : RSlot, ∃ i : Nat, ∃ addr : Nat, ∃ s : State, s.hasEng (.rind d i) = true ∧ addr % 8 = 0 ∧ addr + 8 ≤ s.dataBytes d) ∧
    (∃ g : Nat, ∃ addr : Nat, ∃ _v : BitVec 64, ∃ s : State, s.Quiet ∧ s.hasEng (.curd g) = true ∧ s.EngHeld (.curd g) ∧ addr % 8 = 0 ∧
      addr + 8 ≤ 32768 ∧ Memory.wf (s.curd g).scratch = true ∧ (s.curd g).eng.reqs = []) ∧
    (∃ d : RSlot, ∃ target : Nat, ∃ _v : BitVec 64, ∃ s : State, s.hasEng (.rind d target) = true ∧ (s.eng (.rind d target)).events.length < 16) ∧
    (∃ e : Eng, ∃ _v : BitVec 64, ∃ slot : Nat, ∃ cls : Nat, ∃ ws : List Word, ∃ s : State, ∃ n, s.hasEng e = true ∧ s.EngHeld e ∧
      (s.eng e).message = some (slot, cls, ws) ∧
      n = ((engLink e slot).map (fun l => if l.classOk cls = true then l.room (cls % 4) else 128)).getD 128 ∧ ws.length + 2 ≤ n) ∧
    (∃ e : Eng, ∃ _v : BitVec 64, ∃ slot : Nat, ∃ cls : Nat, ∃ ws : List Word, ∃ s : State, ∃ n, s.hasEng e = true ∧ s.EngHeld e ∧
      (s.eng e).message = some (slot, cls, ws) ∧
      n = ((engLink e slot).map (fun l => if l.classOk cls = true then l.room (cls % 4) else 128)).getD 128 ∧ n < ws.length + 2) ∧
    (∃ e : Eng, ∃ s : State, s.hasEng e = true ∧ (s.eng e).message = none) ∧
    (∃ g : Nat, ∃ slot : Nat, ∃ cls : Nat, ∃ ws : List Word, ∃ l : LinkEnd, ∃ s : State, s.hasEng (.curd g) = true ∧ s.EngHeld (.curd g) ∧
      (s.eng (.curd g)).message = some (slot, cls, ws) ∧ engLink (.curd g) slot = some l ∧ l.classOk cls = true) ∧
    (∃ d : RSlot, ∃ i : Nat, ∃ slot : Nat, ∃ ws : List Word, ∃ s : State, s.hasEng (.rind d i) = true ∧ s.EngHeld (.rind d i) ∧
      (s.eng (.rind d i)).message = some (slot, 3, ws) ∧ 8 ≤ slot ∧ slot < 14) :=
  ⟨⟨.rind .f0 7, 7, 0, modEng (.rind .f0 7) (fun g => { g with events := List.replicate 15 oneEvent }) Z,
    by_dec (decQuiet _) (by decide +kernel), (by decide +kernel), by_dec (decEngHeld _ _) (by decide +kernel), (by decide +kernel)⟩,
   ⟨.curd 5, 0, 0, modEng (.curd 5) (fun g => { g with events := List.replicate 16 oneEvent }) Z,
     by_dec (decQuiet _) (by decide +kernel), (by decide +kernel)⟩,
   ⟨.curd 5, .handshake 14, 0, true, false, false, ⟨14, 1, 0, 0, 0, 0, true, false, false⟩,
     modEng (.curd 5) (fun g => { g with reqs := [⟨14, 1, 0, 0, 0, 0, true, false, false⟩] }) Z,
     by_dec (decQuiet _) (by decide +kernel), by_dec (decEngHeld _ _) (by decide +kernel), (by decide +kernel)⟩,
   ⟨.rind .f1 0, .vat, 0, true, false, false, false, Z, by_dec (decQuiet _) (by decide +kernel), (by decide +kernel)⟩,
   ⟨.f0, 7, modEng (.rind .f0 7) (fun g => { g with timer := some 0 }) Z, (by decide +kernel)⟩,
   ⟨.curd 5, setEngState (.curd 5) engWaiting Z, (by decide +kernel)⟩,
   ⟨.f1, 7, 34359738360, Z, (by decide +kernel)⟩,
   ⟨5, 32760, 1, Z, by_dec (decQuiet _) (by decide +kernel), (by decide +kernel), by_dec (decEngHeld _ _) (by decide +kernel),
     (by decide +kernel)⟩,
   ⟨.f1, 7, 0, modEng (.rind .f1 7) (fun g => { g with events := List.replicate 15 oneEvent }) Z, (by decide +kernel)⟩,
   ⟨.curd 5, 0, 1, 3, List.replicate 14 0, modEng (.curd 5) (fun g => { g with message := some (1, 3, List.replicate 14 0) }) Z, 16,
     (by decide +kernel), by_dec (decEngHeld _ _) (by decide +kernel), (by decide +kernel)⟩,
   ⟨.curd 5, 0, 1, 3, List.replicate 15 0, modEng (.curd 5) (fun g => { g with message := some (1, 3, List.replicate 15 0) }) Z, 16,
     (by decide +kernel), by_dec (decEngHeld _ _) (by decide +kernel), (by decide +kernel)⟩,
   ⟨.rind .f1 7, Z, (by decide +kernel)⟩,
   ⟨5, 1, 3, [], .curd 5 .f1, modEng (.curd 5) (fun g => { g with message := some (1, 3, []) }) Z, (by decide +kernel),
     by_dec (decEngHeld _ _) (by decide +kernel), (by decide +kernel)⟩,
   ⟨.f1, 7, 13, [], modEng (.rind .f1 7) (fun g => { g with message := some (13, 3, []) }) Z, (by decide +kernel),
     by_dec (decEngHeld _ _) (by decide +kernel), (by decide +kernel)⟩⟩

theorem test_witness_TranslationTables :
    (∃ _eng : Nat, ∃ vol : Nat, ∃ blk : Nat, ∃ s : State, ∃ p, s.lookup vol blk = some p) ∧
    (∃ _eng : Nat, ∃ vol : Nat, ∃ blk : Nat, ∃ s : State, s.lookup vol blk = none) ∧
    (∃ v : Nat, ∃ blk : Nat, ∃ b : Band, ∃ s : State, s.xlat.t.bandOf v (blk / 65536) = some b ∧ blk % 65536 ∈ b.live) ∧
    (∃ v : Nat, ∃ blk : Nat, ∃ b : Band, ∃ s : State, s.xlat.t.bandOf v (blk / 65536) = some b ∧ blk % 65536 ∉ b.live) ∧
    (∃ s : State, s.xlat.staged = 0) ∧
    (∃ s : State, 0 < s.xlat.staged) ∧
    (∃ s : State, s.xlat.staged < 62) ∧
    (∃ s : State, 62 ≤ s.xlat.staged) ∧
    (∃ g : Nat, ∃ s : State, s.hasCurd g = true) ∧
    (∃ g : Nat, ∃ s : State, (s.rdS R.BUDGET_OUT_CLEANOK ≠ 1 ∨ s.groupOn g = false)) :=
  ⟨⟨0, 0, 65535, stored, ⟨0, 0, 67649⟩, (by decide +kernel)⟩,
   ⟨7, 63, 0, stored, (by decide +kernel)⟩,
   ⟨0, 65535, { slot := ⟨0, 0, 0⟩, state := .inUse, vol := 0, live := [65535] }, stored, (by decide +kernel)⟩,
   ⟨0, 65534, { slot := ⟨0, 0, 0⟩, state := .inUse, vol := 0, live := [65535] }, stored, (by decide +kernel)⟩,
   ⟨Z, (by decide +kernel)⟩,
   ⟨{ Z with xlat := { staged := 1 } }, (by decide +kernel)⟩,
   ⟨{ Z with xlat := { staged := 61 } }, (by decide +kernel)⟩,
   ⟨{ Z with xlat := { staged := 62 } }, (by decide +kernel)⟩,
   ⟨5, Z, (by decide +kernel)⟩,
   ⟨5, Z, (by decide +kernel)⟩⟩

theorem test_witness_BudgetClock :
    (∃ s : State, s.budgetRuns = false) ∧
    (∃ s : State, s.rdS R.BUDGET_STAT_LEVEL ≤ 8 ∧ s.levelFloor ≤ 8) ∧
    (∃ s : State, ∃ p, s.regsWf = true ∧ s.hasRind .f0 = true ∧ s.serving = [.f0] ∧ s.budget.diodes.find? (fun p => p.1 = 0) = some p) ∧
    (∃ die : Die, ∃ t : Int, ∃ s : State, s.hasDie die = true ∧ s.pins.por = true ∧ s.phase .f0 ≠ 0xD ∧ t < (s.threshold (dieCode die) 2).1 ∧
      dieCode die ∉ s.budget.shut) ∧
    (∃ die : Die, ∃ t : Int, ∃ s : State, s.hasDie die = true ∧ s.pins.por = true ∧ s.phase .f0 ≠ 0xD ∧ (s.threshold (dieCode die) 2).1 ≤ t ∧
      1 ≤ assocGet (dieCode die) 0 s.budget.hot ∧ dieCode die ∉ s.budget.shut) ∧
    (∃ g : Nat, ∃ s : State, s.hasCurd g = true ∧ s.leftBudget (curdCode g) = false) ∧
    (∃ s : State, s.rdS R.BUDGET_STAT_THROT = 1 ∧ s.rdS R.BUDGET_STAT_ENF = 0) ∧
    (∃ s : State, s.rdS R.BUDGET_STAT_ENF = 1) ∧
    (∃ depth : Nat, ∃ _h : Nat, ∃ _m : Nat, ∃ _l : Nat, 1 ≤ depth) ∧
    (∃ depth : Nat, ∃ _h : Nat, ∃ _m : Nat, ∃ _l : Nat, 3 ≤ depth) ∧
    (∃ _depth : Nat, ∃ h : Nat, ∃ _m : Nat, ∃ _l : Nat, 1 ≤ h) ∧
    (∃ s : State, s.budgetRuns = true ∧ s.budget.raiseWork = true ∧ s.otherOps = []) :=
  ⟨⟨Z, (by decide +kernel)⟩,
   ⟨Z.wrR .f0 R.BUDGET_STAT_LEVEL 8, (by decide +kernel)⟩,
   ⟨{ Z with part := ⟨1, 1⟩, budget := { diodes := [(0, 250)] } }, (0, 250), (by decide +kernel)⟩,
   ⟨.rind .f1, 1259, { Z with pins := { por := true } }, (by decide +kernel)⟩,
   ⟨.curd 5, 1260, { Z with pins := { por := true }, budget := { hot := [(13, 1)] } }, (by decide +kernel)⟩,
   ⟨5, Z, (by decide +kernel)⟩,
   ⟨Z.wrR .f0 R.BUDGET_STAT_THROT 1, (by decide +kernel)⟩,
   ⟨Z.wrR .f0 R.BUDGET_STAT_ENF 1, (by decide +kernel)⟩,
   ⟨1, 1, 1, 1, (by decide +kernel)⟩,
   ⟨3, 1, 1, 1, (by decide +kernel)⟩,
   ⟨4, 1, 0, 0, (by decide +kernel)⟩,
   ⟨{ ready with budget := { raiseWork := true } }, (by decide +kernel)⟩⟩

theorem test_witness_FaultsAndWindows :
    (∃ d : RSlot, ∃ src : Nat, ∃ _detail : Nat, ∃ s : State, s.hasRind d = true ∧ src < 0x100) ∧
    (∃ d : RSlot, ∃ src : Nat, ∃ _detail : Nat, ∃ s : State, s.hasRind d = true ∧ 0x100 ≤ src) ∧
    (∃ _d : RSlot, ∃ _die : Nat, ∃ src : Nat, ∃ _detail : List Nat, ∃ _fix : Option Nat, ∃ _s : State, sourceUsed src = false) ∧
    (∃ d : RSlot, ∃ src : Nat, ∃ _detail : List Nat, ∃ s : State, s.regsWf = true ∧ sourceUsed src = true ∧
      s.bitR d (R.FAULT_SRCCFG_COUNTED src) = false ∧ s.rdR d (R.FAULT_SRCCFG_SEV src) = 0) ∧
    (∃ d : RSlot, ∃ src : Nat, ∃ _detail : List Nat, ∃ s : State, s.regsWf = true ∧ sourceUsed src = true ∧
      s.bitR d (R.FAULT_SRCCFG_COUNTED src) = false ∧ 1 ≤ s.rdR d (R.FAULT_SRCCFG_SEV src) ∧ (s.rind d).island.queue.length < 256) ∧
    (∃ d : RSlot, ∃ src : Nat, ∃ _detail : List Nat, ∃ s : State, s.regsWf = true ∧ sourceUsed src = true ∧
      s.bitR d (R.FAULT_SRCCFG_COUNTED src) = false ∧ s.rdR d (R.FAULT_SRCCFG_SEV src) ≤ 3) ∧
    (∃ d : RSlot, ∃ src : Nat, ∃ _detail : List Nat, ∃ s : State, s.regsWf = true ∧ sourceUsed src = true ∧
      s.bitR d (R.FAULT_SRCCFG_COUNTED src) = false ∧ 3 ≤ s.rdR d (R.FAULT_SRCCFG_SEV src) ∧ s.hasRind d = true ∧ s.rdR d R.FAULT_STAT_STATE = 0) ∧
    (∃ d : RSlot, ∃ src : Nat, ∃ _quiet : Bool, ∃ s : State, s.regsWf = true ∧ s.hasRind d = true ∧ sourceUsed src = true ∧
      s.bitR d (R.FAULT_SRCCFG_COUNTED src) = true) ∧
    (∃ s : State, s.boot.reinit = some .writeOut) ∧
    (∃ s : State, s.boot.reinit ≠ some .writeOut) ∧
    (∃ s : State, s.boot.reinit ≠ some .closeOut) :=
  ⟨⟨.f1, 0xFF, 0, Z, (by decide +kernel)⟩,
   ⟨.f1, 0x100, 0, Z, (by decide +kernel)⟩,
   ⟨.f0, 0, 0x3FF, [], none, Z, (by decide +kernel)⟩,
   ⟨.f0, 1, [], sourced 0 0, (by decide +kernel)⟩,
   ⟨.f0, 1, [], sourced 1 0, (by decide +kernel)⟩,
   ⟨.f0, 1, [], sourced 3 0, (by decide +kernel)⟩,
   ⟨.f0, 1, [], sourced 3 0, (by decide +kernel)⟩,
   ⟨.f0, 1, true, sourced 1 1, (by decide +kernel)⟩,
   ⟨{ Z with boot := { reinit := some .writeOut } }, (by decide +kernel)⟩,
   ⟨Z, (by decide +kernel)⟩,
   ⟨Z, (by decide +kernel)⟩⟩

theorem test_witness_RipeningLogAndTallies :
    (∃ r : LogRec, ∃ i : Nat, ∃ s : State, s.pins.sfDriven = true ∧ nextRecord s.flashOwner s = some r ∧ logSlot (r.sev = 4) s.flash.log = some i) ∧
    (∃ r : LogRec, ∃ v : LogSector, ∃ s : State, s.pins.sfDriven = true ∧ nextRecord s.flashOwner s = some r ∧
      logSlot (r.sev = 4) s.flash.log = none ∧ oldestSector (fun x => x.recs.all (fun q => q.sev ≤ r.sev)) s.flash.log = some v) ∧
    (∃ d : RSlot, ∃ s : State, s.hasRind d = true ∧ (s.rind d).island.scanned = true) ∧
    (∃ d : RSlot, ∃ s : State, s.regsWf = true ∧ s.hasRind d = true ∧ (s.rind d).island.scanned = false) ∧
    (∃ s : State, s.regsWf = true ∧ s.part.f = 2) ∧
    (∃ d : RSlot, ∃ s : State, s.hasRind d = true ∧ s.flashOwner = d) ∧
    (∃ d : RSlot, ∃ r : LogRec, ∃ s : State, s.bitR d R.LOG_STAT_FROZEN = true ∧ nextRecord d s = some r) ∧
    (∃ d : RSlot, ∃ r : LogRec, ∃ s : State, s.regsWf = true ∧ 1 ≤ r.sev ∧ r.sev ≤ 4 ∧ (s.rind d).island.queue.length < 256 ∧
      s.rdR d (R.LOG_CNT_QUEUED (r.sev - 1)) < 256 ∧ (eventLedger d s r.sev).holds = true) ∧
    (∃ d : RSlot, ∃ s : State, s.hasRind d = true ∧ s.fenced d = false ∧ (s.part.f = 1 ∨ s.role d = roleAlone)) :=
  ⟨⟨recOf 1, 0, staging 1 [{ used := 63 }], (by decide +kernel)⟩,
   ⟨recOf 4, { used := 64, recs := [recOf 4] }, staging 4 [{ used := 64, recs := [recOf 4] }], (by decide +kernel)⟩,
   ⟨.f1, Z.modRind .f1 (fun r => { r with island := { scanned := true } }), (by decide +kernel)⟩,
   ⟨.f1, Z, (by decide +kernel)⟩,
   ⟨Z, (by decide +kernel)⟩,
   ⟨.f0, Z, (by decide +kernel)⟩,
   ⟨.f0, recOf 4, (staging 4 []).wrR .f0 R.LOG_STAT_FROZEN 1, (by decide +kernel)⟩,
   ⟨.f0, recOf 4, Z.wrR .f0 (R.LOG_CNT_QUEUED 0) 255, (by decide +kernel)⟩,
   ⟨.f0, { Z with part := ⟨1, 1⟩ }, (by decide +kernel)⟩⟩

theorem test_witness_StepTakesTheFront :
    (∃ s : State, s.pending = []) ∧
    (∃ s : State, s.Quiet) :=
  ⟨⟨Z, (by decide +kernel)⟩,
   ⟨Z, by_dec (decQuiet _) (by decide +kernel)⟩⟩

theorem test_witness_ResetState :
    (∃ g, g < 6) :=
  ⟨5, (by decide +kernel)⟩

theorem test_witness_StepKeepsTheForm :
    (∃ s : State, ∃ t : State, s.Canonical ∧ step s = .next t) :=
  ⟨Z, { Z with now := 1 }, by_dec (decCanonical _) (by decide +kernel), (by rfl)⟩

theorem test_witness_ReadBack :
    (∃ die : Nat, ∃ _v : Nat, ∃ f : Fld, ∃ s : State, ∃ d : Nat, ∃ g : Fld, s.regsWf = true ∧ f.lo ≤ f.hi ∧ f.hi < 32 ∧ g.lo ≤ g.hi ∧ g.hi < 32 ∧
      (regKey d g.off ≠ regKey die f.off ∨ g.hi < f.lo ∨ f.hi < g.lo)) ∧
    (∃ k : Nat, ∃ a : Nat, ∃ _b : Byte, ∃ l : List Host.Cell, Memory.wf l = true ∧ a ≠ k) ∧
    (∃ l : List Host.Cell, ∃ m : List Host.Cell, Memory.wf l = true ∧ Memory.wf m = true ∧ (∀ a,
      Sparse.get zeroByte a l = Sparse.get zeroByte a m)) :=
  ⟨⟨0, 0xFFFF, ⟨0, 31, 16⟩, Z, 0, ⟨0, 15, 0⟩, (by decide +kernel)⟩,
   ⟨1, 2, 0xFF, [(0, 1)], (by decide +kernel)⟩,
   ⟨[(0, 1)], [(0, 1)], (by decide +kernel), (by decide +kernel), (by intro a; rfl)⟩⟩

end Sys2Proof.Tests
end

section
/-! What no operation changes: the fuses. One frame lemma per operation of the model, in the order of the definitions (R82, R83). -/

namespace Sys2Proof.Machine

/-- A fold keeps what each of its steps keeps. -/
theorem foldl_field {σ α β : Type} (π : σ → β) {f : σ → α → σ} {l : List α} {s : σ} (h : ∀ t x, π (f t x) = π t) : π (l.foldl f s) = π s := by
  induction l generalizing s with
  | nil => rfl
  | cons x l ih => exact ih.trans (h s x)

@[simp] theorem State.fuses_ite {a b : State} {c : Prop} [Decidable c] :
    (if c then a else b).fuses = if c then a.fuses else b.fuses := apply_ite State.fuses c a b

@[simp] theorem State.fuses_ite_fst {β : Type} {p q : State × β} {c : Prop} [Decidable c] :
    (if c then p else q).1.fuses = if c then p.1.fuses else q.1.fuses := apply_ite (fun x => x.1.fuses) c p q

@[simp] theorem State.fuses_ite_snd {β : Type} {p q : β × State} {c : Prop} [Decidable c] :
    (if c then p else q).2.fuses = if c then p.2.fuses else q.2.fuses := apply_ite (fun x => x.2.fuses) c p q

@[simp] theorem State.fuses_ite_snd_snd {β γ : Type} {p q : β × γ × State} {c : Prop} [Decidable c] :
    (if c then p else q).2.2.fuses = if c then p.2.2.fuses else q.2.2.fuses := apply_ite (fun x => x.2.2.fuses) c p q

@[simp] theorem State.fuses_foldl {β : Type} {f : State → β → State} {l : List β} {s : State}
    (h : ∀ t x, (f t x).fuses = t.fuses) : (l.foldl f s).fuses = s.fuses := foldl_field State.fuses h

/-- A fold with the state carried in a larger accumulator, at the place `π` of it. -/
theorem State.fuses_foldl_in {α β : Type} (π : α → State) {f : α → β → α} {l : List β} {p : α}
    (h : ∀ q x, (π (f q x)).fuses = (π q).fuses) : (π (l.foldl f p)).fuses = (π p).fuses := foldl_field (fun q => (π q).fuses) h

@[simp] theorem fuses_modBmem {d : RSlot} {f : Bmem → Bmem} {s : State} : (modBmem d f s).fuses = s.fuses := by simp [modBmem]

@[simp] theorem State.fuses_fresh {s : State} : s.fresh.2.fuses = s.fuses := rfl

@[simp] theorem fuses_keepRegs {p : Nat → Bool} {s : State} : (keepRegs p s).fuses = s.fuses := rfl

theorem State.fuses_getD {s u : State} {o : Option State} (k : u.fuses = s.fuses) (h : ∀ t, o = some t → t.fuses = s.fuses) :
    (o.getD u).fuses = s.fuses := by
  cases o
  · exact k
  · exact h _ rfl

@[simp] theorem State.fuses_modEnd {s : State} {e : LinkEnd} {f : FvEnd → FvEnd} : (State.modEnd s e f).fuses = s.fuses := by
  fun_cases State.modEnd <;> simp

@[simp] theorem fuses_sendLcw {e : LinkEnd} {typ cidx : Nat} {s : State} : (sendLcw e typ cidx s).fuses = s.fuses := by
  simp [sendLcw]

@[simp] theorem fuses_payLcws {s : State} : (payLcws s).fuses = s.fuses :=
  State.fuses_foldl fun _ _ => State.fuses_foldl fun _ _ => by simp

@[simp] theorem fuses_inStep {f : RSlot → State → State} {s : State} (hf : ∀ y0 t, (f y0 t).fuses = t.fuses) : (inStep f s).fuses = s.fuses := by
  simp [inStep, hf]

@[simp] theorem fuses_wrAll {f : Fld} {v : Nat} {s : State} : (wrAll f v s).fuses = s.fuses := by
  simp -implicitDefEqProofs [wrAll]

@[simp] theorem fuses_modPort {p : Nat} {f : PortX → PortX} {s : State} : (modPort p f s).fuses = s.fuses := rfl

@[simp] theorem fuses_digestAdd {d : RSlot} {bs : List Byte} {s : State} : (digestAdd d bs s).fuses = s.fuses := by
  simp [digestAdd]

@[simp] theorem fuses_giveSlot {p : Nat} {s : State} : (giveSlot p s).fuses = s.fuses := by
  fun_cases giveSlot <;> simp +zetaDelta

@[simp] theorem fuses_hostPut {d : RSlot} {dom addr : Nat} {data : List Byte} {s : State} : (hostPut d dom addr data s).fuses = s.fuses := by
  fun_cases hostPut <;> simp

@[simp] theorem fuses_writeComp {c : Comp} {s : State} : (writeComp c s).fuses = s.fuses := by
  fun_cases writeComp <;> simp +zetaDelta

@[simp] theorem fuses_drainCheck {p : Nat} {s : State} : (drainCheck p s).fuses = s.fuses := by
  simp [drainCheck]

@[simp] theorem fuses_showPort {p : Nat} {s : State} : (showPort p s).fuses = s.fuses := by
  simp [showPort]

@[simp] theorem State.fuses_inc {s : State} {die : Nat} {f : Fld} {n : Nat} : (State.inc s die f n).fuses = s.fuses := rfl

@[simp] theorem State.fuses_incR {s : State} {d : RSlot} {f : Fld} {n : Nat} : (State.incR s d f n).fuses = s.fuses := rfl

@[simp] theorem fuses_dropComps {p : Nat} {s : State} : (dropComps p s).fuses = s.fuses := by
  simp -implicitDefEqProofs [dropComps]

@[simp] theorem fuses_pumpPort {p : Nat} {s : State} : (pumpPort p s).fuses = s.fuses := by
  simp [pumpPort]

@[simp] theorem fuses_showSched {s : State} : (showSched s).fuses = s.fuses := by
  simp [showSched]

@[simp] theorem fuses_retire {s : State} : (retire s).fuses = s.fuses := rfl

@[simp] theorem fuses_modXlat {f : Xlat → Xlat} {s : State} : (modXlat f s).fuses = s.fuses := rfl

@[simp] theorem fuses_modT {f : Tables → Tables} {s : State} : (modT f s).fuses = s.fuses := rfl

@[simp] theorem fuses_abandonReloc {sl : SlotNo} {s : State} : (abandonReloc sl s).fuses = s.fuses := rfl

@[simp] theorem State.fuses_bump {s : State} {die : Nat} {f : Fld} {n : Nat} : (State.bump s die f n).fuses = s.fuses := rfl

@[simp] theorem fuses_stageRec {d : RSlot} {r : LogRec} {s : State} : (stageRec d r s).fuses = s.fuses := by
  fun_cases stageRec <;> simp +zetaDelta

@[simp] theorem fuses_stopAlive {s : State} : (stopAlive s).fuses = s.fuses := rfl

@[simp] theorem fuses_enterFault {die src sev : Nat} {s : State} : (enterFault die src sev s).fuses = s.fuses := by
  simp [enterFault]

@[simp] theorem fuses_fatalAction {d : RSlot} {src : Nat} {s : State} : (fatalAction d src s).fuses = s.fuses := by
  simp [fatalAction]

@[simp] theorem fuses_raiseFull {d : RSlot} {die src : Nat} {detail : List Nat} {fix : Option Nat} {s : State} :
    (raiseFull d die src detail fix s).fuses = s.fuses := by
  simp [raiseFull]

@[simp] theorem fuses_raise {d : RSlot} {src : Nat} {detail : List Nat} {s : State} : (raise d src detail s).fuses = s.fuses := by
  simp [raise]

@[simp] theorem fuses_raiseAll {src : Nat} {detail : List Nat} {s : State} : (raiseAll src detail s).fuses = s.fuses := by
  simp [raiseAll]

@[simp] theorem fuses_writeJournal {s : State} : (writeJournal s).fuses = s.fuses := by
  simp [writeJournal]

@[simp] theorem fuses_journal {s : State} : (journal s).fuses = s.fuses := by
  simp [journal]

@[simp] theorem fuses_retireSlot {sl : SlotNo} {s : State} : (retireSlot sl s).fuses = s.fuses := rfl

@[simp] theorem fuses_vacate {sl : SlotNo} {count : Nat} {s : State} : (vacate sl count s).fuses = s.fuses := by
  simp [vacate]

@[simp] theorem fuses_freeSlot {sl : SlotNo} {s : State} : (freeSlot sl s).fuses = s.fuses := by
  fun_cases freeSlot <;> simp +zetaDelta

@[simp] theorem fuses_dropBlocks {v k : Nat} {s : State} : (dropBlocks v k s).fuses = s.fuses := rfl

@[simp] theorem fuses_freeReleased {s : State} : (freeReleased s).fuses = s.fuses := by
  simp [freeReleased]

@[simp] theorem fuses_complete {c : Cmd} {status info : Nat} {s : State} : (complete c status info s).fuses = s.fuses := by
  simp [complete]

@[simp] theorem fuses_endCommand {port tag status info : Nat} {s : State} : (endCommand port tag status info s).fuses = s.fuses := by
  fun_cases endCommand <;> simp

@[simp] theorem fuses_endSingleDie {s : State} : (endSingleDie s).fuses = s.fuses := by
  fun_cases endSingleDie
  · rfl
  · exact State.fuses_foldl fun _ _ => by simp
  · rfl

@[simp] theorem fuses_onGroups {f : Nat → State → State} {s : State} (hf : ∀ y0 t, (f y0 t).fuses = t.fuses) : (onGroups f s).fuses = s.fuses := by
  simp [onGroups, hf]

@[simp] theorem fuses_modServo {g : Nat} {f : Servo → Servo} {s : State} : (modServo g f s).fuses = s.fuses := rfl

@[simp] theorem fuses_modFmt {g : Nat} {f : Fmt → Fmt} {s : State} : (modFmt g f s).fuses = s.fuses := rfl

@[simp] theorem fuses_showFmt {g : Nat} {s : State} : (showFmt g s).fuses = s.fuses := by
  fun_cases showFmt
  simp +zetaDelta
  split <;> simp

@[simp] theorem fuses_showVault {g : Nat} {s : State} : (showVault g s).fuses = s.fuses := rfl

@[simp] theorem fuses_modEntry {g id : Nat} {h : VEntry → VEntry} {s : State} : (modEntry g id h s).fuses = s.fuses := rfl

@[simp] theorem fuses_unpin {g : Nat} {ids : List Nat} {s : State} : (unpin g ids s).fuses = s.fuses := by
  simp -implicitDefEqProofs [unpin]

@[simp] theorem fuses_modSec {g eseq i : Nat} {h : Sec → Sec} {s : State} : (modSec g eseq i h s).fuses = s.fuses := rfl

@[simp] theorem State.fuses_incC {s : State} {g : Nat} {f : Fld} {n : Nat} : (State.incC s g f n).fuses = s.fuses := rfl

@[simp] theorem fuses_putOnWire {e : LinkEnd} {ms : List Msg} {s : State} : (putOnWire e ms s).fuses = s.fuses := by
  unfold putOnWire
  split <;> simp

@[simp] theorem fuses_launchClass {e : LinkEnd} {cidx : Nat} {s : State} : (launchClass e cidx s).fuses = s.fuses := by
  simp [launchClass]

@[simp] theorem fuses_sendMsg {e : LinkEnd} {cls eseq : Nat} {payload : List Word} {s : State} : (sendMsg e cls eseq payload s).fuses = s.fuses := by
  simp [sendMsg]

@[simp] theorem fuses_fromCurd {g cls eseq : Nat} {payload : List Word} {s : State} : (fromCurd g cls eseq payload s).fuses = s.fuses := by
  simp [fromCurd]

@[simp] theorem fuses_deliverSector {g eseq index : Nat} {payload : List Byte} {s : State} :
    (deliverSector g eseq index payload s).fuses = s.fuses := by
  simp [deliverSector]

@[simp] theorem fuses_takeMsg {e : LinkEnd} {m : Msg} {s : State} : (takeMsg e m s).fuses = s.fuses := by
  simp [takeMsg]

@[simp] theorem fuses_paWrite {g addr val : Nat} {s : State} : (paWrite g addr val s).fuses = s.fuses := rfl

@[simp] theorem fuses_paSet {g addr val : Nat} {s : State} : (paSet g addr val s).fuses = s.fuses := by
  simp [paSet]

@[simp] theorem fuses_heater {g : Nat} {write : Bool} {s : State} : (heater g write s).fuses = s.fuses := by
  fun_cases heater <;> simp

@[simp] theorem fuses_endIfDone {g eseq : Nat} {s : State} : (endIfDone g eseq s).fuses = s.fuses := by
  fun_cases endIfDone <;> simp +zetaDelta

@[simp] theorem fuses_report {g eseq outcome rung revs pos track : Nat} {nbr : Bool} {s : State} :
    (report g eseq outcome rung revs pos track nbr s).fuses = s.fuses := by
  simp [report]

@[simp] theorem fuses_settleSec {g eseq i outcome rung : Nat} {payload : Option (List Byte)} {s : State} :
    (settleSec g eseq i outcome rung payload s).fuses = s.fuses := by
  fun_cases settleSec <;> simp +zetaDelta
  all_goals (repeat' split) <;> simp

@[simp] theorem fuses_refuseRun {g eseq : Nat} {p : Sec → Bool} {s : State} : (refuseRun g eseq p s).fuses = s.fuses := by
  fun_cases refuseRun
  · rfl
  · refine (State.fuses_foldl fun t i => ?_).trans (by simp +zetaDelta)
    split <;> simp

@[simp] theorem fuses_refuseAll {g : Nat} {s : State} : (refuseAll g s).fuses = s.fuses := by
  simp [refuseAll]

@[simp] theorem fuses_dropPosted {g : Nat} {p : GateEv → Bool} {s : State} : (dropPosted g p s).fuses = s.fuses := rfl

@[simp] theorem fuses_withdrawGate {g : Nat} {shock : Bool} {s : State} : (withdrawGate g shock s).fuses = s.fuses := by
  fun_cases withdrawGate <;> simp +zetaDelta

@[simp] theorem fuses_clearWrok {g : Nat} {s : State} : (clearWrok g s).fuses = s.fuses := by
  simp [clearWrok]

@[simp] theorem fuses_clearPermits {g : Nat} {s : State} : (clearPermits g s).fuses = s.fuses := by
  simp [clearPermits]

@[simp] theorem fuses_setSv {g st : Nat} {s : State} : (setSv g st s).fuses = s.fuses := rfl

@[simp] theorem fuses_startSeek {g track : Nat} {s : State} : (startSeek g track s).fuses = s.fuses := by
  simp [startSeek]

@[simp] theorem fuses_startUnload {g : Nat} {s : State} : (startUnload g s).fuses = s.fuses := by
  simp -implicitDefEqProofs [startUnload]

@[simp] theorem fuses_modBand {sl : SlotNo} {f : Band → Band} {s : State} : (modBand sl f s).fuses = s.fuses := by
  fun_cases modBand <;> simp

@[simp] theorem fuses_wearOut {sl : SlotNo} {s : State} : (wearOut sl s).fuses = s.fuses := by
  simp [wearOut]

@[simp] theorem fuses_moveQuota {v a b : Nat} {s : State} : (moveQuota v a b s).fuses = s.fuses := by
  fun_cases moveQuota <;> simp

theorem fuses_startReloc {b : Band} {forced : Bool} {s t : State} (h : startReloc b forced s = some t) : t.fuses = s.fuses := by
  unfold startReloc at h
  split at h
  · cases h
  · obtain rfl := Option.some.inj h
    simp

@[simp] theorem fuses_reassign {sl : SlotNo} {o : Nat} {s : State} : (reassign sl o s).2.fuses = s.fuses := by
  fun_cases reassign
  case case4 h => exact (fuses_startReloc h).trans (fuses_wearOut ..)
  all_goals simp +zetaDelta

@[simp] theorem fuses_incAll {f : Fld} {n : Nat} {s : State} : (incAll f n s).fuses = s.fuses := by
  simp -implicitDefEqProofs [incAll]

@[simp] theorem fuses_endReloc {r : Reloc} {s : State} : (endReloc r s).fuses = s.fuses := by
  fun_cases endReloc <;> simp +zetaDelta

@[simp] theorem fuses_switchReloc {g : Nat} {s : State} : (switchReloc g s).fuses = s.fuses := by
  fun_cases switchReloc <;> simp

@[simp] theorem fuses_applyChange {c : TableChange} {s : State} : (applyChange c s).fuses = s.fuses := by
  fun_cases applyChange <;> simp

@[simp] theorem fuses_recordTrim {uid : Nat} {s : State} : (recordTrim uid s).fuses = s.fuses := by
  simp [recordTrim]

@[simp] theorem fuses_withdraw {uid : Nat} {s : State} : (withdraw uid s).fuses = s.fuses := by
  simp [withdraw]

@[simp] theorem fuses_endVersions {c : Cmd} {s : State} : (endVersions c s).fuses = s.fuses := by
  simp [endVersions]

@[simp] theorem fuses_recoverCmd {c : Cmd} {info : Nat} {s : State} : (recoverCmd c info s).fuses = s.fuses := by
  simp [recoverCmd]

@[simp] theorem fuses_pumpAll {s : State} : (pumpAll s).fuses = s.fuses := by
  simp [pumpAll]

@[simp] theorem fuses_endWriteOut {s : State} : (endWriteOut s).fuses = s.fuses := by
  simp [endWriteOut]

@[simp] theorem fuses_wrRun {die off : Nat} {ws : List Nat} {s : State} : (wrRun die off ws s).fuses = s.fuses := by
  induction ws generalizing off s with
  | nil => rfl
  | cons w ws ih => exact ih

@[simp] theorem fuses_putLedgers {d : RSlot} {l : List (List Nat)} {s : State} : (putLedgers d l s).fuses = s.fuses := by
  simp [putLedgers]

@[simp] theorem fuses_checkDie {d : RSlot} {s : State} : (checkDie d s).2.fuses = s.fuses := by
  simp -implicitDefEqProofs [checkDie]

@[simp] theorem fuses_markOwn {d : RSlot} {s : State} : (markOwn d s).fuses = s.fuses := by
  simp [markOwn]

@[simp] theorem fuses_tallyCheck {s : State} : (tallyCheck s).2.fuses = s.fuses := by
  fun_cases tallyCheck <;> simp +zetaDelta

@[simp] theorem fuses_tallySnapshot {d : RSlot} {s : State} : (tallySnapshot d s).fuses = s.fuses := by
  simp [tallySnapshot]

@[simp] theorem fuses_onlyBrkdis {s : State} : (onlyBrkdis s).fuses = s.fuses := rfl

@[simp] theorem fuses_onlyFails {d : RSlot} {s : State} : (onlyFails d s).fuses = s.fuses := rfl

@[simp] theorem State.fuses_bare {s : State} : (State.bare s).fuses = s.fuses := rfl

@[simp] theorem fuses_coreReset {s : State} : (coreReset s).fuses = s.fuses := by
  simp [coreReset]

@[simp] theorem fuses_setPhase {d : RSlot} {p : Nat} {s : State} : (setPhase d p s).fuses = s.fuses := rfl

@[simp] theorem fuses_setPhases {p : Nat} {s : State} : (setPhases p s).fuses = s.fuses := by
  simp -implicitDefEqProofs [setPhases]

@[simp] theorem fuses_restart {s : State} : (restart s).fuses = s.fuses := by
  simp [restart]

@[simp] theorem fuses_finishReinit {s : State} : (finishReinit s).fuses = s.fuses := by
  simp [finishReinit]

@[simp] theorem fuses_advanceReinit {s : State} : (advanceReinit s).fuses = s.fuses := by
  simp [advanceReinit]

@[simp] theorem fuses_modStep {d : RSlot} {f : StepLogic → StepLogic} {s : State} : (modStep d f s).fuses = s.fuses := by
  simp [modStep]

@[simp] theorem fuses_nextDw {d : RSlot} {dom : Nat} {s : State} : (nextDw d dom s).2.fuses = s.fuses := rfl

@[simp] theorem fuses_writeDieWord {d : RSlot} {dom : Nat} {s : State} : (writeDieWord d dom s).fuses = s.fuses := by
  simp [writeDieWord]

@[simp] theorem fuses_dieWordDue {d : RSlot} {s : State} : (dieWordDue d s).fuses = s.fuses := by
  simp [dieWordDue]

@[simp] theorem fuses_endResync {s : State} : (endResync s).fuses = s.fuses := by
  fun_cases endResync <;> simp -implicitDefEqProofs +zetaDelta

@[simp] theorem fuses_noteDivergence {cause : Nat} {target : RSlot} {s : State} : (noteDivergence cause target s).fuses = s.fuses := by
  simp -implicitDefEqProofs [noteDivergence]

@[simp] theorem fuses_dropHeld {d : RSlot} {s : State} : (dropHeld d s).fuses = s.fuses := by
  simp [dropHeld]

@[simp] theorem fuses_soleWriter {d : RSlot} {dom : Nat} {s : State} : (soleWriter d dom s).fuses = s.fuses := by
  simp [soleWriter]

@[simp] theorem fuses_soleWriterAll {d : RSlot} {s : State} : (soleWriterAll d s).fuses = s.fuses := by
  simp [soleWriterAll]

@[simp] theorem fuses_fenceDie {d : RSlot} {s : State} : (fenceDie d s).fuses = s.fuses := by
  simp -implicitDefEqProofs [fenceDie]

@[simp] theorem fuses_takeEseq {d : RSlot} {s : State} : (takeEseq d s).2.fuses = s.fuses := by
  simp [takeEseq]

@[simp] theorem fuses_toCurd {d : RSlot} {g cls eseq : Nat} {payload : List Word} {s : State} : (toCurd d g cls eseq payload s).fuses = s.fuses := by
  simp [toCurd]

@[simp] theorem fuses_ctrlTo {d : RSlot} {g : Nat} {payload : List Word} {s : State} : (ctrlTo d g payload s).fuses = s.fuses := by
  simp [ctrlTo]

@[simp] theorem fuses_leaseTraffic {d : RSlot} {op low epoch : Nat} {s : State} : (leaseTraffic d op low epoch s).fuses = s.fuses := by
  simp [leaseTraffic]

@[simp] theorem fuses_releaseUnconfirmed {d : RSlot} {s : State} : (releaseUnconfirmed d s).fuses = s.fuses := by
  simp [releaseUnconfirmed]

@[simp] theorem fuses_readLineOf {d : RSlot} {p : Nat} {s : State} : (readLineOf d p s).fuses = s.fuses := by
  fun_cases readLineOf <;> simp

@[simp] theorem fuses_rereadDoorbells {d : RSlot} {s : State} : (rereadDoorbells d s).fuses = s.fuses := by
  simp [rereadDoorbells]

@[simp] theorem fuses_startTraining {d : RSlot} {s : State} : (startTraining d s).fuses = s.fuses := rfl

@[simp] theorem fuses_resetForResync {t : RSlot} {s : State} : (resetForResync t s).fuses = s.fuses := by
  simp [resetForResync]

@[simp] theorem fuses_startResync {s : State} : (startResync s).fuses = s.fuses := by
  fun_cases startResync <;> simp -implicitDefEqProofs +zetaDelta

@[simp] theorem fuses_becomeSole {d : RSlot} {s : State} : (becomeSole d s).fuses = s.fuses := by
  simp -implicitDefEqProofs [becomeSole]

@[simp] theorem fuses_dropDie {target : RSlot} {s : State} : (dropDie target s).fuses = s.fuses := by
  simp [dropDie]

@[simp] theorem fuses_useRung {d : RSlot} {r : Nat} {s : State} : (useRung d r s).fuses = s.fuses := rfl

@[simp] theorem fuses_diverge {cause : Nat} {target : RSlot} {s : State} : (diverge cause target s).fuses = s.fuses := by
  simp -implicitDefEqProofs [diverge]

@[simp] theorem fuses_fenceForFatal {d : RSlot} {s : State} : (fenceForFatal d s).fuses = s.fuses := by
  simp [fenceForFatal]

@[simp] theorem fuses_showPools {d : RSlot} {s : State} : (showPools d s).fuses = s.fuses := by
  simp -implicitDefEqProofs [showPools]

@[simp] theorem fuses_modVat {d : RSlot} {f : Vat → Vat} {s : State} : (modVat d f s).fuses = s.fuses := by
  simp [modVat]

@[simp] theorem fuses_resetVat {d : RSlot} {s : State} : (resetVat d s).fuses = s.fuses := by
  simp [resetVat]

@[simp] theorem fuses_modEng {e : Eng} {f : Engine → Engine} {s : State} : (modEng e f s).fuses = s.fuses := by
  fun_cases modEng <;> simp

@[simp] theorem fuses_postEvent {e : Eng} {cls : Nat} {data : BitVec 64} {s : State} : (postEvent e cls data s).fuses = s.fuses := by
  simp [postEvent]

@[simp] theorem fuses_endWaits {d : RSlot} {s : State} : (endWaits d s).fuses = s.fuses := by
  refine (fuses_resetVat ..).trans (State.fuses_foldl fun t w => ?_)
  split <;> simp

@[simp] theorem fuses_modCave {d : RSlot} {f : Cave → Cave} {s : State} : (modCave d f s).fuses = s.fuses := by
  simp [modCave]

@[simp] theorem fuses_writeRow {d : RSlot} {cw : Nat} {s : State} : (writeRow d cw s).fuses = s.fuses := by
  simp [writeRow]

@[simp] theorem fuses_writeCw {d : RSlot} {cw : Nat} {data : List Byte} {s : State} : (writeCw d cw data s).fuses = s.fuses := by
  simp [writeCw]

@[simp] theorem fuses_uncorrectable {d : RSlot} {cw : Nat} {s : State} : (uncorrectable d cw s).fuses = s.fuses := by
  simp [uncorrectable]

@[simp] theorem fuses_countDevice {d : RSlot} {c k : Nat} {s : State} : (countDevice d c k s).fuses = s.fuses := by
  simp [countDevice]

@[simp] theorem fuses_corrected {d : RSlot} {cw : Nat} {data : List Byte} {fix : List (Nat × Nat)} {s : State} :
    (corrected d cw data fix s).fuses = s.fuses := by
  simp [corrected]

@[simp] theorem fuses_decodeCw {d : RSlot} {cw : Nat} {syms : List Nat} {s : State} : (decodeCw d cw syms s).2.2.fuses = s.fuses := by
  fun_cases decodeCw <;> simp

@[simp] theorem fuses_enterPoison {d : RSlot} {cw : Nat} {s : State} : (enterPoison d cw s).fuses = s.fuses := by
  simp [enterPoison]

@[simp] theorem fuses_mergeOut {d : RSlot} {e : MergeEntry} {s : State} : (mergeOut d e s).fuses = s.fuses := by
  simp [mergeOut]

@[simp] theorem fuses_mergeWrite {d : RSlot} {cw : Nat} {bytes : List (Option Byte)} {s : State} : (mergeWrite d cw bytes s).fuses = s.fuses := by
  fun_cases mergeWrite <;> simp -implicitDefEqProofs +zetaDelta <;> split <;> simp

@[simp] theorem fuses_writeBytes {d : RSlot} {cw : Nat} {bytes : List (Option Byte)} {s : State} : (writeBytes d cw bytes s).fuses = s.fuses := by
  simp [writeBytes]

@[simp] theorem fuses_bmemWrite {d : RSlot} {addr : Nat} {data : List Byte} {s : State} : (bmemWrite d addr data s).fuses = s.fuses := by
  simp [bmemWrite]

@[simp] theorem fuses_evictIssue {d : RSlot} {e : Evicted} {s : State} : (evictIssue d e s).fuses = s.fuses := by
  simp [evictIssue]

@[simp] theorem fuses_evictPush {d : RSlot} {line : Nat} {data : List Byte} {s : State} : (evictPush d line data s).fuses = s.fuses := by
  fun_cases evictPush
  all_goals (try simp +zetaDelta)
  all_goals (repeat' split)
  all_goals simp

@[simp] theorem fuses_writeBack {d : RSlot} {line : Nat} {l : CaveLine} {s : State} : (writeBack d line l s).fuses = s.fuses := by
  simp [writeBack]

@[simp] theorem fuses_caveEnableNow {d : RSlot} {s : State} : (caveEnableNow d s).fuses = s.fuses := rfl

@[simp] theorem fuses_resetCave {d : RSlot} {s : State} : (resetCave d s).fuses = s.fuses := by
  simp [resetCave]

@[simp] theorem fuses_resetBmem {d : RSlot} {s : State} : (resetBmem d s).fuses = s.fuses := by
  simp [resetBmem]

@[simp] theorem fuses_resetLadle {d : RSlot} {s : State} : (resetLadle d s).fuses = s.fuses := by
  simp -implicitDefEqProofs [resetLadle]

@[simp] theorem fuses_traceRec {e : Eng} {kind addr data : Nat} {s : State} : (traceRec e kind addr data s).fuses = s.fuses := by
  simp [traceRec]

@[simp] theorem fuses_commitAt {e : Eng} {a : Nat} {s : State} : (commitAt e a s).fuses = s.fuses := by
  simp [commitAt]

@[simp] theorem fuses_setEngState {e : Eng} {v : Nat} {s : State} : (setEngState e v s).fuses = s.fuses := rfl

@[simp] theorem fuses_setPc {e : Eng} {a : Nat} {s : State} : (setPc e a s).fuses = s.fuses := rfl

@[simp] theorem fuses_enterVector {e : Eng} {k : Nat} {s : State} : (enterVector e k s).fuses = s.fuses := by
  simp [enterVector]

@[simp] theorem fuses_resetEngine {e : Eng} {s : State} : (resetEngine e s).fuses = s.fuses := by
  simp [resetEngine]

@[simp] theorem fuses_recoverHeld {held : List Nat} {s : State} : (recoverHeld held s).fuses = s.fuses :=
  State.fuses_foldl fun t u => by split <;> simp

@[simp] theorem fuses_failSec {g eseq i : Nat} {s : State} : (failSec g eseq i s).fuses = s.fuses := by
  fun_cases failSec <;> simp +zetaDelta

@[simp] theorem fuses_setBias {g : Nat} {step : Int} {s : State} : (setBias g step s).fuses = s.fuses := by
  fun_cases setBias <;> simp

@[simp] theorem fuses_advance {g eseq i : Nat} {s : State} : (advance g eseq i s).fuses = s.fuses := by
  fun_cases advance <;> simp +zetaDelta

@[simp] theorem fuses_beginLadder {g eseq i : Nat} {s : State} : (beginLadder g eseq i s).fuses = s.fuses := rfl

@[simp] theorem fuses_resetChannel {g : Nat} {s : State} : (resetChannel g s).fuses = s.fuses := by
  simp [resetChannel]

@[simp] theorem fuses_resetFormatter {g : Nat} {s : State} : (resetFormatter g s).fuses = s.fuses := by
  simp [resetFormatter]

@[simp] theorem fuses_resetPress {g : Nat} {s : State} : (resetPress g s).fuses = s.fuses := rfl

@[simp] theorem fuses_spinReport {s : State} : (spinReport s).fuses = s.fuses := by
  simp [spinReport]

@[simp] theorem fuses_setSp {st : Nat} {s : State} : (setSp st s).fuses = s.fuses := by
  simp [setSp]

@[simp] theorem fuses_modSpin {f : Spin → Spin} {s : State} : (modSpin f s).fuses = s.fuses := rfl

@[simp] theorem fuses_coast {s : State} : (coast s).fuses = s.fuses := by
  simp [coast]

@[simp] theorem fuses_loseBridge {s : State} : (loseBridge s).fuses = s.fuses := by
  simp [loseBridge]

@[simp] theorem fuses_resetSpindle {s : State} : (resetSpindle s).fuses = s.fuses := by
  simp [resetSpindle]

@[simp] theorem fuses_resetUnit {d : RSlot} {u : RUnit} {s : State} : (resetUnit d u s).fuses = s.fuses := by
  fun_cases resetUnit <;> simp

@[simp] theorem fuses_loadRindStore {d : RSlot} {img : SlotImage} {s : State} : (loadRindStore d img s).fuses = s.fuses := by
  simp [loadRindStore]

@[simp] theorem fuses_reloadStore {d : RSlot} {s : State} : (reloadStore d s).fuses = s.fuses := by
  fun_cases reloadStore <;> simp

@[simp] theorem fuses_releaseFlash {s : State} : (releaseFlash s).fuses = s.fuses := rfl

@[simp] theorem fuses_wrBoth {f : Fld} {v : Nat} {s : State} : (wrBoth f v s).fuses = s.fuses := by
  simp -implicitDefEqProofs [wrBoth]

@[simp] theorem fuses_setRegEn {on : Bool} {s : State} : (setRegEn on s).fuses = s.fuses := by
  simp [setRegEn]

@[simp] theorem fuses_beginReinit {s : State} : (beginReinit s).fuses = s.fuses := by
  simp [beginReinit]

@[simp] theorem fuses_setRetN {g : Nat} {high : Bool} {s : State} : (setRetN g high s).fuses = s.fuses := rfl

@[simp] theorem fuses_leaveMedia {g : Nat} {s : State} : (leaveMedia g s).fuses = s.fuses := by
  simp [leaveMedia]

@[simp] theorem fuses_emergencyRetract {g : Nat} {s : State} : (emergencyRetract g s).fuses = s.fuses := by
  simp -implicitDefEqProofs [emergencyRetract]

@[simp] theorem fuses_gatesOff {s : State} : (gatesOff s).fuses = s.fuses := by
  simp [gatesOff]

@[simp] theorem fuses_loadCurdStore {g : Nat} {img : SlotImage} {s : State} : (loadCurdStore g img s).fuses = s.fuses := by
  simp [loadCurdStore]

@[simp] theorem fuses_reloadCurd {g : Nat} {s : State} : (reloadCurd g s).fuses = s.fuses := by
  fun_cases reloadCurd <;> simp

@[simp] theorem fuses_groupOffline {g : Nat} {s : State} : (groupOffline g s).fuses = s.fuses := by
  simp [groupOffline]

@[simp] theorem fuses_fatalCurdAct {g : Nat} {s : State} : (fatalCurdAct g s).fuses = s.fuses := by
  simp -implicitDefEqProofs [fatalCurdAct]

@[simp] theorem fuses_noteReset {u : RUnit} {s : State} : (noteReset u s).fuses = s.fuses := by
  simp [noteReset]

@[simp] theorem fuses_functionReset {d : RSlot} {u : RUnit} {s : State} : (functionReset d u s).fuses = s.fuses := by
  simp [functionReset]

@[simp] theorem fuses_nameUnit {d : RSlot} {u : RUnit} {s : State} : (nameUnit d u s).fuses = s.fuses := by
  simp [nameUnit]

@[simp] theorem fuses_routineStopped {d : RSlot} {e : Nat} {unit : Option RUnit} {held : List Nat} {s : State} :
    (routineStopped d e unit held s).fuses = s.fuses := by
  unfold routineStopped
  split <;> simp

@[simp] theorem fuses_act {x : Todo} {s : State} : (act x s).fuses = s.fuses := by
  fun_cases act <;> simp

@[simp] theorem fuses_actAll {n : Nat} {s : State} : (actAll n s).fuses = s.fuses := by
  induction n generalizing s with
  | zero => rfl
  | succ n ih =>
    unfold actAll
    split
    · rfl
    · simp [ih]

@[simp] theorem fuses_settle {s : State} : (settle s).fuses = s.fuses := by
  simp [settle]

@[simp] theorem fuses_admitWith {p : Nat} {ops : Nat → Bool} {f : Cmd → State → State} {s : State} (hf : ∀ y0 t, (f y0 t).fuses = t.fuses) :
    (admitWith p ops f s).fuses = s.fuses := by
  fun_cases admitWith <;> simp [hf]

@[simp] theorem fuses_admitIf {p : Nat} {sel : Cmd → Bool} {f : Cmd → State → State} {s : State} (hf : ∀ y0 t, (f y0 t).fuses = t.fuses) :
    (admitIf p sel f s).fuses = s.fuses := by
  fun_cases admitIf <;> simp [hf]

@[simp] theorem fuses_modCmd {uid : Nat} {f : Cmd → Cmd} {s : State} : (modCmd uid f s).fuses = s.fuses := rfl

@[simp] theorem fuses_admitCmd {c : Cmd} {s : State} : (admitCmd c s).fuses = s.fuses := rfl

@[simp] theorem fuses_finishAt {c : Cmd} {status info : Nat} {s : State} : (finishAt c status info s).fuses = s.fuses := by
  simp [finishAt]

@[simp] theorem fuses_hostSend {d : RSlot} {dom addr : Nat} {data : List Byte} {s : State} : (hostSend d dom addr data s).fuses = s.fuses := by
  fun_cases hostSend <;> simp

@[simp] theorem fuses_hostWrite {d : RSlot} {uid : Option Nat} {dom addr : Nat} {data : List Byte} {s : State} :
    (hostWrite d uid dom addr data s).fuses = s.fuses := by
  fun_cases hostWrite <;> simp +zetaDelta

@[simp] theorem fuses_toHost {c : Cmd} {addr : Nat} {data : List Byte} {s : State} : (toHost c addr data s).fuses = s.fuses := by
  simp [toHost]

@[simp] theorem fuses_applyVals {vals : List (Fld × Nat)} {s : State} : (applyVals vals s).fuses = s.fuses :=
  fuses_inStep fun d t => by
    simp -implicitDefEqProofs

@[simp] theorem fuses_startOp {op : FlashOp} {s : State} : (startOp op s).fuses = s.fuses := rfl

@[simp] theorem fuses_saveRecords {c : Cmd} {records : List SetRec} {apply : List (Fld × Nat)} {s : State} :
    (saveRecords c records apply s).fuses = s.fuses := rfl

@[simp] theorem fuses_setFields {c : Cmd} {s : State} : (setFields c s).fuses = s.fuses := by
  fun_cases setFields <;> simp

@[simp] theorem fuses_saveVolume {c : Cmd} {v : Nat} {new : Option Volume} {s : State} : (saveVolume c v new s).fuses = s.fuses := by
  fun_cases saveVolume <;> simp +zetaDelta

@[simp] theorem fuses_deleteVolume {v : Nat} {s : State} : (deleteVolume v s).fuses = s.fuses := by
  simp [deleteVolume]

@[simp] theorem fuses_changeVolume {v : Nat} {d : VolDesc} {s : State} : (changeVolume v d s).fuses = s.fuses := by
  fun_cases changeVolume <;> simp

@[simp] theorem fuses_takeSlot {sl : SlotNo} {st : BandState} {v i : Nat} {tpar : Bool} {s : State} :
    (takeSlot sl st v i tpar s).fuses = s.fuses := by
  simp [takeSlot]

@[simp] theorem fuses_takeUnits {v : Nat} {tpar : Bool} {n u g : Nat} {s : State} : (takeUnits v tpar n u g s).fuses = s.fuses := by
  induction n generalizing u g s with
  | zero => rfl
  | succ n ih =>
    unfold takeUnits
    repeat' split
    all_goals simp [ih]

theorem fuses_createVolume {v : Nat} {d : VolDesc} {s t : State} (h : createVolume v d s = some t) : t.fuses = s.fuses := by
  obtain ⟨q, -, rfl⟩ := Option.map_eq_some_iff.mp h
  simp

@[simp] theorem fuses_applyVolume {good : Bool} {s : State} : (applyVolume good s).2.fuses = s.fuses := by
  fun_cases applyVolume
  case case5 =>
    exact (fuses_writeJournal ..).trans ((fuses_createVolume ‹createVolume _ _ _ = some _›).trans (fuses_modXlat ..))
  all_goals simp +zetaDelta

@[simp] theorem fuses_openRow {d : RSlot} {cw : Nat} {s : State} : (openRow d cw s).fuses = s.fuses := by
  simp [openRow]

@[simp] theorem fuses_readRow {d : RSlot} {cw : Nat} {s : State} : (readRow d cw s).fuses = s.fuses := by
  simp [readRow]

@[simp] theorem fuses_readCw {d : RSlot} {cw : Nat} {s : State} : (readCw d cw s).2.2.fuses = s.fuses := by
  fun_cases readCw <;> simp +zetaDelta

@[simp] theorem fuses_readCws {d : RSlot} {cw n : Nat} {s : State} : (readCws d cw n s).2.2.fuses = s.fuses := by
  induction n generalizing cw s with
  | zero => rfl
  | succ n ih => simp [readCws, ih]

@[simp] theorem fuses_bmemRead {d : RSlot} {addr len : Nat} {s : State} : (bmemRead d addr len s).2.2.fuses = s.fuses := by
  simp [bmemRead]

@[simp] theorem fuses_bmemPlace {d : RSlot} {addr : Nat} {data : List Byte} {poison : Bool} {s : State} :
    (bmemPlace d addr data poison s).fuses = s.fuses := by
  simp [bmemPlace]

@[simp] theorem fuses_plantSymbol {d : RSlot} {addr : Nat} {s : State} : (plantSymbol d addr s).fuses = s.fuses := by
  simp [plantSymbol]

@[simp] theorem fuses_trainChannel {d : RSlot} {c : Nat} {lanes : List LaneEyes} {s : State} : (trainChannel d c lanes s).fuses = s.fuses := by
  simp -implicitDefEqProofs [trainChannel]

@[simp] theorem fuses_quadRead {addr len : Nat} {s : State} : (quadRead addr len s).fuses = s.fuses := rfl

@[simp] theorem fuses_runSlot {d : RSlot} {i : Nat} {trial : Bool} {img : SlotImage} {s : State} : (runSlot d i trial img s).fuses = s.fuses := by
  simp -implicitDefEqProofs [runSlot]

@[simp] theorem fuses_noImage {s : State} : (noImage s).fuses = s.fuses := by
  simp [noImage]

@[simp] theorem fuses_noteChecked {i : Nat} {s : State} : (noteChecked i s).fuses = s.fuses := rfl

@[simp] theorem fuses_tryActive {s : State} : (tryActive s).fuses = s.fuses := by
  fun_cases tryActive <;> simp

@[simp] theorem fuses_tryWithout {p : Option Nat} {s : State} : (tryWithout p s).fuses = s.fuses := by
  fun_cases tryWithout <;> simp

@[simp] theorem fuses_beginHeaderWrite {s : State} : (beginHeaderWrite s).fuses = s.fuses := by
  fun_cases beginHeaderWrite <;> simp

@[simp] theorem fuses_writeHeader {h : Header} {why : HdrWhy} {s : State} : (writeHeader h why s).fuses = s.fuses := by
  simp [writeHeader]

@[simp] theorem fuses_tryPending {s : State} : (tryPending s).fuses = s.fuses := by
  fun_cases tryPending <;> simp

@[simp] theorem fuses_reportMissing {d : RSlot} {s : State} : (reportMissing d s).fuses = s.fuses := by
  simp [reportMissing]

@[simp] theorem fuses_beginChunk {off : Nat} {data : List Byte} {port tag : Nat} {s : State} : (beginChunk off data port tag s).fuses = s.fuses := by
  simp [beginChunk]

@[simp] theorem fuses_stopHeader {k port tag : Nat} {s : State} : (stopHeader k port tag s).fuses = s.fuses := by
  simp [stopHeader]

@[simp] theorem fuses_wrClamped {die : Nat} {f : Fld} {v : Nat} {s : State} : (wrClamped die f v s).fuses = s.fuses := rfl

@[simp] theorem fuses_loadDefaults {d : RSlot} {s : State} : (loadDefaults d s).fuses = s.fuses := by
  simp [loadDefaults]

@[simp] theorem fuses_heldShock {s : State} : (heldShock s).fuses = s.fuses := by
  simp -implicitDefEqProofs [heldShock]

@[simp] theorem fuses_spdEvaluate {s : State} : (spdEvaluate s).fuses = s.fuses := by
  simp [spdEvaluate]

@[simp] theorem fuses_firstCeiling {s : State} : (firstCeiling s).fuses = s.fuses := by
  simp [firstCeiling]

@[simp] theorem fuses_loadBoard {b : Board} {s : State} : (loadBoard b s).fuses = s.fuses := by
  simp -implicitDefEqProofs [loadBoard]

@[simp] theorem fuses_applyRecord {d : RSlot} {r : SetRec} {s : State} : (applyRecord d r s).fuses = s.fuses := by
  fun_cases applyRecord <;> simp

@[simp] theorem fuses_checkDomains {d : RSlot} {s : State} : (checkDomains d s).fuses = s.fuses := by
  simp [checkDomains]

@[simp] theorem fuses_checkWindows {d : RSlot} {s : State} : (checkWindows d s).fuses = s.fuses :=
  State.fuses_foldl_in Prod.fst fun q b => by simp -implicitDefEqProofs

@[simp] theorem fuses_checkZones {d : RSlot} {s : State} : (checkZones d s).fuses = s.fuses :=
  State.fuses_foldl fun t h => by split <;> simp

@[simp] theorem fuses_readSettings {s : State} : (readSettings s).fuses = s.fuses := rfl

@[simp] theorem fuses_showAdmit {s : State} : (showAdmit s).fuses = s.fuses := by
  simp [showAdmit]

@[simp] theorem fuses_copySeverities {d : RSlot} {s : State} : (copySeverities d s).fuses = s.fuses := by
  simp -implicitDefEqProofs [copySeverities]

@[simp] theorem fuses_loadPressTables {img : SlotImage} {s : State} : (loadPressTables img s).fuses = s.fuses := by
  simp -implicitDefEqProofs [loadPressTables]

@[simp] theorem fuses_paInit {g : Nat} {s : State} : (paInit g s).fuses = s.fuses := by
  simp -implicitDefEqProofs [paInit]

@[simp] theorem fuses_loadSettings {d : RSlot} {k : Nat} {c : Settings} {s : State} : (loadSettings d k c s).fuses = s.fuses := by
  fun_cases loadSettings <;> simp -implicitDefEqProofs +zetaDelta <;> split <;> simp

@[simp] theorem fuses_buildPools {d : RSlot} {s : State} : (buildPools d s).fuses = s.fuses := by
  simp -implicitDefEqProofs [buildPools]

@[simp] theorem fuses_releaseEngine {d : RSlot} {i : Nat} {s : State} : (releaseEngine d i s).fuses = s.fuses := by
  simp [releaseEngine]

@[simp] theorem fuses_releaseDie {d : RSlot} {s : State} : (releaseDie d s).fuses = s.fuses := by
  simp [releaseDie]

@[simp] theorem fuses_showStep {d : RSlot} {k : Nat} {s : State} : (showStep d k s).fuses = s.fuses := rfl

@[simp] theorem fuses_newStep {_kind _src _data : Nat} {s : State} : (newStep _kind _src _data s).fuses = s.fuses := by
  simp [newStep]

@[simp] theorem fuses_takeRpt {g : Nat} {p : Msg → Bool} {s : State} : (takeRpt g p s).fuses = s.fuses := by
  refine (fuses_inStep fun d t => ?_).trans (by simp)
  split <;> simp

@[simp] theorem fuses_modBudget {f : Budget → Budget} {s : State} : (modBudget f s).fuses = s.fuses := rfl

@[simp] theorem fuses_showTemp {i : Nat} {s : State} : (showTemp i s).fuses = s.fuses := by
  simp [showTemp]

@[simp] theorem fuses_noteShutdown {i : Nat} {s : State} : (noteShutdown i s).fuses = s.fuses := by
  simp [noteShutdown]

@[simp] theorem fuses_deviceShutdown {s : State} : (deviceShutdown s).fuses = s.fuses := by
  simp [deviceShutdown]

@[simp] theorem fuses_shutDie {die : Die} {s : State} : (shutDie die s).fuses = s.fuses := by
  fun_cases shutDie <;> simp +zetaDelta

@[simp] theorem fuses_coolDie {die : Die} {s : State} : (coolDie die s).fuses = s.fuses := by
  fun_cases coolDie <;> simp +zetaDelta

@[simp] theorem fuses_takeReading {i : Nat} {temp : Int} {s : State} : (takeReading i temp s).fuses = s.fuses := by
  simp [takeReading]

@[simp] theorem fuses_budgetThrWrite {ts : List RSlot} {addr : Nat} {rd : RegDef} {v : Word} {s : State} :
    (budgetThrWrite ts addr rd v s).1.fuses = s.fuses := by
  simp -implicitDefEqProofs [budgetThrWrite]

@[simp] theorem fuses_sendOrders {s : State} : (sendOrders s).fuses = s.fuses :=
  State.fuses_foldl fun t g => by simp

@[simp] theorem fuses_showOrders {s : State} : (showOrders s).fuses = s.fuses := by
  simp [showOrders]

@[simp] theorem fuses_rechoose {s : State} : (rechoose s).fuses = s.fuses := by
  simp [rechoose]

@[simp] theorem fuses_workArrived {s : State} : (workArrived s).fuses = s.fuses := by
  simp [workArrived]

@[simp] theorem fuses_sendTarget {s : State} : (sendTarget s).fuses = s.fuses := by
  simp [sendTarget]

@[simp] theorem fuses_nextRaises {s : State} : (nextRaises s).fuses = s.fuses := rfl

@[simp] theorem fuses_modLine {dom : Nat} {f : StatLine → StatLine} {s : State} : (modLine dom f s).fuses = s.fuses := rfl

@[simp] theorem fuses_writeCommon {d : RSlot} {dom : Nat} {s : State} : (writeCommon d dom s).fuses = s.fuses := by
  fun_cases writeCommon <;> simp +zetaDelta

@[simp] theorem fuses_statusUpdate {dom : Nat} {s : State} : (statusUpdate dom s).fuses = s.fuses := by
  simp [statusUpdate]

@[simp] theorem fuses_allLines {s : State} : (allLines s).fuses = s.fuses := by
  simp [allLines]

@[simp] theorem fuses_setDepth {depth : Nat} {s : State} : (setDepth depth s).fuses = s.fuses := by
  simp [setDepth]

@[simp] theorem fuses_enforce {s : State} : (enforce s).fuses = s.fuses := by
  simp [enforce]

@[simp] theorem fuses_depthTick {s : State} : (depthTick s).fuses = s.fuses := by
  simp [depthTick]

@[simp] theorem fuses_nextThrottle {s : State} : (nextThrottle s).fuses = s.fuses := by
  fun_cases nextThrottle <;> simp +zetaDelta

@[simp] theorem fuses_capRequest {level pred : Nat} {s : State} : (capRequest level pred s).fuses = s.fuses := rfl

@[simp] theorem fuses_cycle {s : State} : (cycle s).fuses = s.fuses := by
  simp [cycle]

@[simp] theorem fuses_cycleDrained {s : State} : (cycleDrained s).fuses = s.fuses := by
  simp [cycleDrained]

@[simp] theorem fuses_joinFill {d : RSlot} {who : AccWho} {line : Nat} {noalloc : Bool} {s : State} :
    (joinFill d who line noalloc s).fuses = s.fuses := by
  simp [joinFill]

@[simp] theorem fuses_fillData {d : RSlot} {line : Nat} {s : State} : (fillData d line s).2.2.fuses = s.fuses :=
  State.fuses_foldl_in (fun a : List Byte × Bool × State => a.2.2) fun q i => by
    dsimp only
    repeat' split
    all_goals simp

@[simp] theorem fuses_checkPlru {d : RSlot} {set : Nat} {s : State} : (checkPlru d set s).fuses = s.fuses := by
  simp [checkPlru]

@[simp] theorem fuses_touchWay {d : RSlot} {set w : Nat} {s : State} : (touchWay d set w s).fuses = s.fuses := by
  simp [touchWay]

@[simp] theorem fuses_evictDrain {d : RSlot} {s : State} : (evictDrain d s).fuses = s.fuses := by
  fun_cases evictDrain <;> simp

@[simp] theorem fuses_allocLine {d : RSlot} {cls line : Nat} {data : List Byte} {dirty : Bool} {s : State} :
    (allocLine d cls line data dirty s).fuses = s.fuses := by
  fun_cases allocLine
  simp +zetaDelta
  split <;> simp

@[simp] theorem fuses_maintLine {d : RSlot} {m : Maint} {key : Nat} {l : CaveLine} {s : State} : (maintLine d m key l s).fuses = s.fuses := by
  fun_cases maintLine <;> simp +zetaDelta

@[simp] theorem fuses_maintAdvance {d : RSlot} {n : Nat} {s : State} : (maintAdvance d n s).fuses = s.fuses := by
  fun_cases maintAdvance <;> simp +zetaDelta

@[simp] theorem fuses_maintRun {d : RSlot} {s : State} : (maintRun d s).fuses = s.fuses := by
  simp [maintRun]

@[simp] theorem fuses_maintStart {d : RSlot} {op : Nat} {spare : Bool} {s : State} : (maintStart d op spare s).fuses = s.fuses := by
  simp [maintStart]

@[simp] theorem fuses_maintIssue {d : RSlot} {m : Maint} {s : State} : (maintIssue d m s).fuses = s.fuses := by
  simp [maintIssue]

@[simp] theorem fuses_maintDone {d : RSlot} {s : State} : (maintDone d s).fuses = s.fuses := by
  fun_cases maintDone <;> simp +zetaDelta

@[simp] theorem fuses_caveCtlWrite {ts : List RSlot} {v : Word} {s : State} : (caveCtlWrite ts v s).1.fuses = s.fuses :=
  State.fuses_foldl fun t d => by simp

@[simp] theorem fuses_caveMaintWrite {ts : List RSlot} {_rd : RegDef} {v : Word} {s : State} : (caveMaintWrite ts _rd v s).1.fuses = s.fuses :=
  State.fuses_foldl fun t d => by simp

@[simp] theorem fuses_caveRangeWrite {ts : List RSlot} {addr : Nat} {v : Word} {s : State} : (caveRangeWrite ts addr v s).1.fuses = s.fuses := by
  simp [caveRangeWrite]

@[simp] theorem fuses_dropClean {d : RSlot} {key : Nat} {s : State} : (dropClean d key s).fuses = s.fuses := by
  simp [dropClean]

@[simp] theorem fuses_fetchLine {d : RSlot} {line : Nat} {s : State} : (fetchLine d line s).2.2.fuses = s.fuses := by
  simp [fetchLine]

@[simp] theorem fuses_missLine {d : RSlot} {cls line : Nat} {alloc : Bool} {fetch : State → List Byte × Bool × State} {s : State} (hfetch : ∀ t, (fetch t).2.2.fuses = t.fuses) :
    (missLine d cls line alloc fetch s).2.2.fuses = s.fuses := by
  fun_cases missLine <;> simp +zetaDelta [hfetch]

@[simp] theorem fuses_readLine {d : RSlot} {cls line : Nat} {alloc : Bool} {fetch : State → List Byte × Bool × State} {s : State} (hfetch : ∀ t, (fetch t).2.2.fuses = t.fuses) :
    (readLine d cls line alloc fetch s).2.2.fuses = s.fuses := by
  fun_cases readLine <;> simp +zetaDelta [hfetch]

@[simp] theorem fuses_countLookup {d : RSlot} {line : Nat} {s : State} : (countLookup d line s).fuses = s.fuses := rfl

@[simp] theorem fuses_caveReadLine {d : RSlot} {cls line : Nat} {alloc : Bool} {s : State} :
    (caveReadLine d cls line alloc s).2.2.fuses = s.fuses := by
  simp [caveReadLine]

@[simp] theorem fuses_caveReadLines {d : RSlot} {cls : Nat} {alloc : Bool} {line n : Nat} {s : State} :
    (caveReadLines d cls alloc line n s).2.2.fuses = s.fuses := by
  induction n generalizing line s with
  | zero => rfl
  | succ n ih => simp [caveReadLines, ih]

@[simp] theorem fuses_caveRead {d : RSlot} {who : AccWho} {addr len : Nat} {noalloc : Bool} {s : State} :
    (caveRead d who addr len noalloc s).2.2.fuses = s.fuses := by
  simp [caveRead]

@[simp] theorem fuses_writeLine {d : RSlot} {cls line off : Nat} {alloc : Bool} {bytes : List Byte} {s : State} :
    (writeLine d cls line off alloc bytes s).fuses = s.fuses := by
  fun_cases writeLine <;> simp +zetaDelta <;> split <;> simp

@[simp] theorem fuses_caveWrite {d : RSlot} {who : AccWho} {addr : Nat} {data : List Byte} {noalloc : Bool} {s : State} :
    (caveWrite d who addr data noalloc s).fuses = s.fuses := by
  simp [caveWrite]

theorem fuses_plantCaveParity {d : RSlot} {addr : Nat} {s t : State} (h : plantCaveParity d addr s = some t) : t.fuses = s.fuses := by
  obtain ⟨p, -, rfl⟩ := Option.map_eq_some_iff.mp h
  simp

@[simp] theorem fuses_takeDescs {p : Nat} {bs : List (List Byte)} {s : State} : (takeDescs p bs s).fuses = s.fuses := by
  induction bs generalizing s with
  | nil => rfl
  | cons b rest ih => simp [takeDescs, ih]

@[simp] theorem fuses_grant {descs : List (List Byte)} {s : State} : (grant descs s).fuses = s.fuses := by
  fun_cases grant <;> simp +zetaDelta <;> split <;> simp

@[simp] theorem fuses_makeVersions {c : Cmd} {v lo n : Nat} {s : State} : (makeVersions c v lo n s).fuses = s.fuses := rfl

@[simp] theorem fuses_makeTrims {c : Cmd} {s : State} : (makeTrims c s).fuses = s.fuses := rfl

@[simp] theorem fuses_admitRead {c : Cmd} {s : State} : (admitRead c s).fuses = s.fuses := rfl

@[simp] theorem fuses_admitWrite {c : Cmd} {s : State} : (admitWrite c s).fuses = s.fuses := rfl

@[simp] theorem fuses_releaseBand {v k : Nat} {s : State} : (releaseBand v k s).fuses = s.fuses := by
  fun_cases releaseBand <;> simp

@[simp] theorem fuses_ringAdvance {v wp n : Nat} {s : State} : (ringAdvance v wp n s).fuses = s.fuses := by
  induction n generalizing s with
  | zero => rfl
  | succ n ih =>
    unfold ringAdvance
    split
    · rfl
    · simp [ih]

theorem fuses_openBand {v k : Nat} {s t : State} (h : openBand v k s = some t) : t.fuses = s.fuses := by
  revert h
  fun_cases openBand
  · nofun
  · nofun
  · rintro ⟨⟩
    simp +zetaDelta
    split <;> simp

theorem fuses_openBands {v k n : Nat} {s t : State} (h : openBands v k n s = some t) : t.fuses = s.fuses := by
  induction n generalizing k s with
  | zero => cases h; rfl
  | succ n ih =>
    unfold openBands at h
    split at h
    · exact ih h
    · obtain ⟨u, hu, ht⟩ := Option.bind_eq_some_iff.mp h
      exact (ih ht).trans (fuses_openBand hu)

@[simp] theorem fuses_showXlat {s : State} : (showXlat s).fuses = s.fuses := by
  simp [showXlat]

@[simp] theorem fuses_admitAppend {c : Cmd} {s : State} : (admitAppend c s).fuses = s.fuses := by
  fun_cases admitAppend
  case case4 h _ _ _ => exact Eq.trans (by simp +zetaDelta) ((fuses_openBands h).trans fuses_ringAdvance)
  all_goals simp +zetaDelta

@[simp] theorem fuses_admitFence {c : Cmd} {s : State} : (admitFence c s).fuses = s.fuses := rfl

@[simp] theorem fuses_admitFlush {c : Cmd} {s : State} : (admitFlush c s).fuses = s.fuses := rfl

@[simp] theorem fuses_trimBands {v last n k : Nat} {s : State} : (trimBands v last n k s).2.fuses = s.fuses := by
  induction n generalizing k s with
  | zero => rfl
  | succ n ih =>
    unfold trimBands
    split
    · rfl
    · simp [ih]

@[simp] theorem fuses_admitTrim {c : Cmd} {s : State} : (admitTrim c s).fuses = s.fuses := by
  fun_cases admitTrim <;> simp +zetaDelta

@[simp] theorem fuses_refreshCopies {s : State} : (refreshCopies s).fuses = s.fuses := by
  simp [refreshCopies]

@[simp] theorem fuses_admitCopy {c : Cmd} {s : State} : (admitCopy c s).fuses = s.fuses := by
  simp [admitCopy]

@[simp] theorem fuses_admitAbort {c : Cmd} {s : State} : (admitAbort c s).fuses = s.fuses := by
  fun_cases admitAbort
  · simp
  · exact (fuses_inStep fun d t => by simp).trans (by simp +zetaDelta)

@[simp] theorem fuses_finish {c : Cmd} {status : Nat} {s : State} : (finish c status s).fuses = s.fuses := by
  fun_cases finish <;> simp +zetaDelta

@[simp] theorem fuses_tryComplete {port tag : Nat} {s : State} : (tryComplete port tag s).fuses = s.fuses := by
  fun_cases tryComplete <;> simp

@[simp] theorem fuses_wholeNow {uid : Nat} {s : State} : (wholeNow uid s).fuses = s.fuses := by
  fun_cases wholeNow <;> simp

@[simp] theorem fuses_storeMoved {uid : Nat} {isMeta : Bool} {off : Nat} {bytes : List Byte} {s : State} :
    (storeMoved uid isMeta off bytes s).fuses = s.fuses := by
  fun_cases storeMoved <;> simp

@[simp] theorem fuses_refetch {uid : Nat} {ks : List Nat} {s : State} : (refetch uid ks s).fuses = s.fuses := rfl

@[simp] theorem fuses_failCmd {uid status info : Nat} {s : State} : (failCmd uid status info s).fuses = s.fuses := rfl

@[simp] theorem fuses_noteMoved {uid : Nat} {isMeta : Bool} {off n : Nat} {poisoned : Bool} {s : State} :
    (noteMoved uid isMeta off n poisoned s).fuses = s.fuses := by
  simp [noteMoved]

@[simp] theorem fuses_admitOp {p op : Nat} {f : Cmd → State → State} {s : State} (hf : ∀ y0 t, (f y0 t).fuses = t.fuses) :
    (admitOp p op f s).fuses = s.fuses := by
  simp [admitOp, hf]

@[simp] theorem fuses_savedFault {e : Eng} {cpc : Nat} {s : State} : (savedFault e cpc s).fuses = s.fuses := by
  fun_cases savedFault <;> simp

@[simp] theorem fuses_syncFault {e : Eng} {cause addr : Nat} {s : State} : (syncFault e cause addr s).fuses = s.fuses := by
  fun_cases syncFault <;> simp -implicitDefEqProofs +zetaDelta <;> split <;> simp

@[simp] theorem fuses_takeEvent {e : Eng} {v : EngEvent} {pc next : Nat} {s : State} : (takeEvent e v pc next s).fuses = s.fuses := by
  simp [takeEvent]

@[simp] theorem fuses_endWord {e : Eng} {pc next : Nat} {m : Micro} {s : State} : (endWord e pc next m s).fuses = s.fuses := by
  fun_cases endWord <;> simp +zetaDelta
  all_goals (split <;> simp)

@[simp] theorem fuses_finishWord {e : Eng} {pc : Nat} {m : Micro} {s : State} : (finishWord e pc m s).fuses = s.fuses := by
  simp [finishWord]

@[simp] theorem fuses_deliver {e : Eng} {l : Latch} {s : State} : (deliver e l s).fuses = s.fuses := by
  fun_cases deliver <;> simp +zetaDelta

@[simp] theorem fuses_answer {e : Eng} {port : Nat} {v : BitVec 64} {ok : Bool} {s : State} : (answer e port v ok s).fuses = s.fuses := by
  simp [answer]

@[simp] theorem fuses_reply {e : Eng} {port op : Nat} {v : BitVec 64} {ok : Bool} {s : State} : (reply e port op v ok s).fuses = s.fuses := by
  simp [reply]

@[simp] theorem fuses_answerAny {d : RSlot} {port op : Nat} {v : BitVec 64} {ok : Bool} {s : State} :
    (answerAny d port op v ok s).fuses = s.fuses := by
  simp [answerAny]

@[simp] theorem fuses_generateCompletion {port tag : Nat} {s : State} : (generateCompletion port tag s).fuses = s.fuses := by
  fun_cases generateCompletion <;> simp

@[simp] theorem fuses_takeOp {g : Nat} {o : MediaOp} {s : State} : (takeOp g o s).fuses = s.fuses := by
  simp [takeOp]

@[simp] theorem fuses_timerEvent {e : Eng} {s : State} : (timerEvent e s).fuses = s.fuses := by
  simp [timerEvent]

@[simp] theorem fuses_messageEseq {e : Eng} {slot cls : Nat} {s : State} : (messageEseq e slot cls s).2.fuses = s.fuses := by
  fun_cases messageEseq <;> simp +zetaDelta

@[simp] theorem fuses_runWord {nac : Nat} {e : Eng} {s : State} : (runWord nac e s).fuses = s.fuses := by
  fun_cases runWord
  all_goals (try simp +zetaDelta)
  all_goals (repeat' split)
  all_goals simp

@[simp] theorem fuses_drainReq {e : Eng} {port : Nat} {s : State} : (drainReq e port s).fuses = s.fuses := by
  simp [drainReq]

@[simp] theorem fuses_drainEngine {d : RSlot} {e p : Nat} {s : State} : (drainEngine d e p s).fuses = s.fuses := by
  simp [drainEngine]

@[simp] theorem fuses_drainFormatter {g p : Nat} {s : State} : (drainFormatter g p s).fuses = s.fuses := by
  simp [drainFormatter]

theorem fuses_plantWithhold {d : RSlot} {eng port : Nat} {s t : State} (h : plantWithhold d eng port s = some t) : t.fuses = s.fuses := by
  unfold plantWithhold at h
  split at h
  · obtain rfl := Option.some.inj h
    simp
  · cases h

@[simp] theorem fuses_modIsland {d : RSlot} {f : Island → Island} {s : State} : (modIsland d f s).fuses = s.fuses := by
  simp [modIsland]

@[simp] theorem fuses_leaveFault {d : RSlot} {s : State} : (leaveFault d s).fuses = s.fuses := by
  simp [leaveFault]

@[simp] theorem fuses_unlatch {d : RSlot} {s : State} : (unlatch d s).fuses = s.fuses := by
  simp [unlatch]

@[simp] theorem fuses_abandonCloseOut {s : State} : (abandonCloseOut s).fuses = s.fuses := by
  simp [abandonCloseOut]

@[simp] theorem fuses_faultCtlWrite {ts : List RSlot} {v : Word} {s : State} : (faultCtlWrite ts v s).1.fuses = s.fuses := by
  simp [faultCtlWrite]

@[simp] theorem fuses_setFreeze {on : Bool} {d : RSlot} {s : State} : (setFreeze on d s).fuses = s.fuses := by
  simp [setFreeze]

@[simp] theorem fuses_logCtlWrite {ts : List RSlot} {v : Word} {s : State} : (logCtlWrite ts v s).1.fuses = s.fuses := by
  simp [logCtlWrite]

@[simp] theorem fuses_srcCfgWrite {ts : List RSlot} {addr : Nat} {rd : RegDef} {v : Word} {s : State} :
    (srcCfgWrite ts addr rd v s).1.fuses = s.fuses := by
  simp [srcCfgWrite]

@[simp] theorem fuses_plant {d : RSlot} {s : State} : (plant d s).fuses = s.fuses := by
  fun_cases plant
  case case3 => exact State.fuses_getD (by simp +zetaDelta) fun t h => fuses_plantCaveParity h
  case case4 => exact State.fuses_getD (by simp +zetaDelta) fun t h => fuses_plantWithhold h
  all_goals simp +zetaDelta

@[simp] theorem fuses_faultInjWrite {ts : List RSlot} {v : Word} {s : State} : (faultInjWrite ts v s).1.fuses = s.fuses := by
  simp [faultInjWrite]

@[simp] theorem fuses_unstage {d : RSlot} {r : LogRec} {stored : Bool} {s : State} : (unstage d r stored s).fuses = s.fuses := by
  simp [unstage]

@[simp] theorem fuses_linkError {e : LinkEnd} {code : Bool} {s : State} : (linkError e code s).fuses = s.fuses := by
  fun_cases linkError <;> simp

@[simp] theorem fuses_modLink {e : LinkEnd} {f : FvEnd → FvEnd} {s : State} : (modLink e f s).fuses = s.fuses := by
  simp [modLink]

@[simp] theorem fuses_downLink {e : LinkEnd} {s : State} : (downLink e s).fuses = s.fuses := by
  simp -implicitDefEqProofs [downLink]

@[simp] theorem fuses_linkReset {e : LinkEnd} {s : State} : (linkReset e s).fuses = s.fuses := by
  simp -implicitDefEqProofs [linkReset]

@[simp] theorem fuses_onLcw {typ : Nat} {e : LinkEnd} {w0 w1 : Word} {f : Nat → Nat → Nat → Nat → State → State} {s : State} (hf : ∀ y0 y1 y2 y3 t, (f y0 y1 y2 y3 t).fuses = t.fuses) :
    (onLcw typ e w0 w1 f s).fuses = s.fuses := by
  simp [onLcw, hf]

@[simp] theorem fuses_replayFrom {e : LinkEnd} {c alseq : Nat} {s : State} : (replayFrom e c alseq s).fuses = s.fuses := by
  simp -implicitDefEqProofs [replayFrom]

@[simp] theorem State.fuses_sagStop {s : State} : (State.sagStop s).2.fuses = s.fuses := by
  simp [State.sagStop]

@[simp] theorem fuses_againOp {op : FlashOp} {s : State} : (againOp op s).fuses = s.fuses := by
  simp [againOp]

@[simp] theorem fuses_resumeOp {s : State} : (resumeOp s).fuses = s.fuses := by
  fun_cases resumeOp <;> simp

@[simp] theorem fuses_showHeader {d : RSlot} {k : Nat} {h : Header} {s : State} : (showHeader d k h s).fuses = s.fuses := rfl

@[simp] theorem fuses_cutRecord {s : State} : (cutRecord s).fuses = s.fuses := by
  fun_cases cutRecord <;> simp

@[simp] theorem fuses_cutFlash {s : State} : (cutFlash s).fuses = s.fuses := by
  fun_cases cutFlash <;> simp

@[simp] theorem fuses_sendStep {d : RSlot} {es : List StepEntry} {s : State} : (sendStep d es s).fuses = s.fuses := by
  simp [sendStep]

@[simp] theorem fuses_takeWhere {e : LinkEnd} {cidx : Nat} {p : Msg → Bool} {s : State} : (takeWhere e cidx p s).fuses = s.fuses := by
  fun_cases takeWhere <;> simp

@[simp] theorem fuses_leaseTaken {e : LinkEnd} {op : Nat} {s : State} : (leaseTaken e op s).fuses = s.fuses := by
  simp [leaseTaken]

@[simp] theorem fuses_installLease {g holder single epoch : Nat} {s : State} : (installLease g holder single epoch s).fuses = s.fuses := rfl

@[simp] theorem fuses_leaseAnswer {g : Nat} {dst : RSlot} {granted : Bool} {s : State} : (leaseAnswer g dst granted s).fuses = s.fuses := by
  simp [leaseAnswer]

@[simp] theorem fuses_linkBack {d : RSlot} {was : Bool} {s : State} : (linkBack d was s).fuses = s.fuses := by
  simp [linkBack]

@[simp] theorem fuses_portError {p cause : Nat} {s : State} : (portError p cause s).fuses = s.fuses := by
  simp [portError]

@[simp] theorem fuses_releaseSlots {p newHead : Nat} {s : State} : (releaseSlots p newHead s).fuses = s.fuses := by
  simp [releaseSlots]

@[simp] theorem fuses_applyDoorbell {p sqtail cqhead : Nat} {s : State} : (applyDoorbell p sqtail cqhead s).fuses = s.fuses := by
  simp [applyDoorbell]

@[simp] theorem fuses_doorbellValues {d : RSlot} {p sqtail cqhead : Nat} {s : State} : (doorbellValues d p sqtail cqhead s).fuses = s.fuses := by
  simp [doorbellValues]

@[simp] theorem fuses_discardAt {ts : List RSlot} {addr : Nat} {s : State} : (discardAt ts addr s).fuses = s.fuses := by
  simp [discardAt]

@[simp] theorem fuses_disarm {d : RSlot} {r : Requester} {addr : Nat} {e : RSlot} {s : State} : (disarm d r addr e s).fuses = s.fuses := by
  simp [disarm]

@[simp] theorem fuses_unlockWrite {ts : List RSlot} {d : RSlot} {r : Requester} {addr : Nat} {key : Word} {s : State} :
    (unlockWrite ts d r addr key s).1.fuses = s.fuses := by
  simp [unlockWrite]

@[simp] theorem fuses_domcfgWrite {ts : List RSlot} {dom : Nat} {v : Word} {s : State} : (domcfgWrite ts dom v s).1.fuses = s.fuses := by
  simp -implicitDefEqProofs [domcfgWrite]

@[simp] theorem fuses_disablePort {p : Nat} {s : State} : (disablePort p s).fuses = s.fuses := by
  simp [disablePort]

@[simp] theorem fuses_enablePort {p : Nat} {s : State} : (enablePort p s).fuses = s.fuses := by
  simp [enablePort]

@[simp] theorem fuses_portRegWrite {ts : List RSlot} {addr : Nat} {rd : RegDef} {v : Word} {full : Bool} {s : State} :
    (portRegWrite ts addr rd v full s).1.fuses = s.fuses := by
  simp -implicitDefEqProofs [portRegWrite]

@[simp] theorem fuses_lineMoved {dom : Nat} {was : Bool × Nat} {s : State} : (lineMoved dom was s).fuses = s.fuses := by
  simp [lineMoved]

@[simp] theorem fuses_turnRoles {epoch : Nat} {s : State} : (turnRoles epoch s).fuses = s.fuses := by
  simp -implicitDefEqProofs [turnRoles]

@[simp] theorem fuses_proposeTurning {s : State} : (proposeTurning s).fuses = s.fuses := by
  simp [proposeTurning]

@[simp] theorem fuses_stepCtlWrite {v : Word} {s : State} : (stepCtlWrite v s).1.fuses = s.fuses := by
  simp [stepCtlWrite]

@[simp] theorem fuses_writeReg {ts : List RSlot} {d : RSlot} {r : Requester} {addr : Nat} {v : Word} {s : State} :
    (writeReg ts d r addr v s).1.fuses = s.fuses := by
  fun_cases writeReg <;> simp -implicitDefEqProofs +zetaDelta

@[simp] theorem fuses_closeBlock {d : RSlot} {s : State} : (closeBlock d s).fuses = s.fuses := by
  simp [closeBlock]

@[simp] theorem fuses_applyEntry {d : RSlot} {e : StepEntry} {s : State} : (applyEntry d e s).fuses = s.fuses := by
  fun_cases applyEntry <;> simp

@[simp] theorem fuses_startTurning {s : State} : (startTurning s).fuses = s.fuses := by
  simp [startTurning]

@[simp] theorem fuses_releaseConfirmed {_d : RSlot} {_b : Nat} {s : State} : (releaseConfirmed _d _b s).fuses = s.fuses := by
  simp [releaseConfirmed]

@[simp] theorem fuses_confirmBlock {d : RSlot} {b : Nat} {s : State} : (confirmBlock d b s).fuses = s.fuses := by
  simp [confirmBlock]

@[simp] theorem fuses_noteError {d : RSlot} {status : Nat} {before after : State} : (noteError d status before after).fuses = after.fuses := by
  fun_cases noteError
  · rfl
  · refine State.fuses_foldl fun t c => ?_
    split
    · split <;> simp
    · rfl

@[simp] theorem fuses_noteOut {d : RSlot} {ch : Nat} {c : Cmd} {isMeta : Bool} {src off n : Nat} {before after : State} :
    (noteOut d ch c isMeta src off n before after).fuses = after.fuses := by
  fun_cases noteOut <;> simp

@[simp] theorem fuses_noteDescriptor {d : RSlot} {ch : Nat} {before after : State} : (noteDescriptor d ch before after).fuses = after.fuses := by
  fun_cases noteDescriptor <;> simp

@[simp] theorem fuses_releaseHeld {d : RSlot} {s : State} : (releaseHeld d s).fuses = s.fuses := by
  simp [releaseHeld]

@[simp] theorem fuses_modCh {d : RSlot} {c : Nat} {f : LadleCh → LadleCh} {s : State} : (modCh d c f s).fuses = s.fuses := by
  simp [modCh]

@[simp] theorem fuses_setPend {d : RSlot} {c : Nat} {on : Bool} {s : State} : (setPend d c on s).fuses = s.fuses := rfl

@[simp] theorem fuses_ladleEvent {d : RSlot} {c status bytes : Nat} {s : State} : (ladleEvent d c status bytes s).fuses = s.fuses := by
  simp [ladleEvent]

@[simp] theorem fuses_enterError {d : RSlot} {c status : Nat} {s : State} : (enterError d c status s).fuses = s.fuses := by
  simp [enterError]

@[simp] theorem fuses_chainError {d : RSlot} {c : Nat} {s : State} : (chainError d c s).fuses = s.fuses := by
  simp [chainError]

@[simp] theorem fuses_copyShadow {d : RSlot} {c : Nat} {s : State} : (copyShadow d c s).fuses = s.fuses := by
  simp [copyShadow]

@[simp] theorem fuses_tryStart {d : RSlot} {c : Nat} {s : State} : (tryStart d c s).fuses = s.fuses := by
  simp [tryStart]

@[simp] theorem fuses_shadowWrite {d : RSlot} {c pair : Nat} {v : BitVec 64} {s : State} : (shadowWrite d c pair v s).2.fuses = s.fuses := by
  fun_cases shadowWrite <;> simp

@[simp] theorem fuses_armChannel {d : RSlot} {c : Nat} {s : State} : (armChannel d c s).2.fuses = s.fuses := by
  simp [armChannel]

@[simp] theorem fuses_listBlock {d : RSlot} {c : Nat} {bytes : List Byte} {s : State} : (listBlock d c bytes s).fuses = s.fuses := by
  fun_cases listBlock <;> simp +zetaDelta

@[simp] theorem fuses_ladleAck {d : RSlot} {c n : Nat} {s : State} : (ladleAck d c n s).fuses = s.fuses := by
  simp [ladleAck]

@[simp] theorem fuses_hostData {d : RSlot} {c : Nat} {data : List Byte} {s : State} : (hostData d c data s).fuses = s.fuses := by
  simp [hostData]

@[simp] theorem fuses_writePieces {d : RSlot} {uid : Option Nat} {dom : Nat} {ps : List (Nat × Nat)} {data : List Byte} {s : State} :
    (writePieces d uid dom ps data s).fuses = s.fuses := by
  induction ps generalizing data s with
  | nil => rfl
  | cons x rest ih => simp [writePieces, ih]

@[simp] theorem fuses_moveRest {d : RSlot} {uid : Option Nat} {c : Nat} {deliver : Nat → List Byte → List Byte → List Byte} {s : State} :
    (moveRest d uid c deliver s).2.fuses = s.fuses := by
  fun_cases moveRest <;> simp +zetaDelta

@[simp] theorem fuses_endDescriptor {d : RSlot} {c : Nat} {s : State} : (endDescriptor d c s).fuses = s.fuses := by
  simp [endDescriptor]

@[simp] theorem fuses_stopChannels {d : RSlot} {s : State} : (stopChannels d s).fuses = s.fuses := by
  simp [stopChannels]

@[simp] theorem fuses_busError {d : RSlot} {c : Nat} {s : State} : (busError d c s).fuses = s.fuses := by
  simp [busError]

@[simp] theorem fuses_resumeAlone {d : RSlot} {c : Nat} {s : State} : (resumeAlone d c s).fuses = s.fuses := by
  simp [resumeAlone]

@[simp] theorem fuses_endPass {d : RSlot} {found : Bool} {s : State} : (endPass d found s).fuses = s.fuses := by
  simp [endPass]

@[simp] theorem fuses_nextTry {d : RSlot} {left : List Nat} {found : Bool} {s : State} : (nextTry d left found s).fuses = s.fuses := by
  fun_cases nextTry <;> simp

@[simp] theorem fuses_passStep {d : RSlot} {skip : Bool} {s : State} : (passStep d skip s).fuses = s.fuses := by
  fun_cases passStep <;> simp

@[simp] theorem fuses_drainLadle {d : RSlot} {c : Nat} {s : State} : (drainLadle d c s).fuses = s.fuses := by
  simp [drainLadle]

@[simp] theorem fuses_windowRefusal {d : RSlot} {off : Nat} {s : State} : (windowRefusal d off s).fuses = s.fuses := by
  simp [windowRefusal]

@[simp] theorem fuses_noteStore {d : RSlot} {a len : Nat} {s : State} : (noteStore d a len s).fuses = s.fuses := rfl

@[simp] theorem fuses_curdRaise {g j detail : Nat} {s : State} : (curdRaise g j detail s).fuses = s.fuses := by
  simp [curdRaise]

@[simp] theorem fuses_endRead {d : RSlot} {p : Nat} {s : State} : (endRead d p s).fuses = s.fuses := rfl

@[simp] theorem fuses_startPorts {s : State} : (startPorts s).fuses = s.fuses := by
  simp [startPorts]

@[simp] theorem fuses_backstopReads {d : RSlot} {s : State} : (backstopReads d s).fuses = s.fuses := by
  simp [backstopReads]

@[simp] theorem fuses_rewritePass {d : RSlot} {dom : Nat} {s : State} : (rewritePass d dom s).fuses = s.fuses := by
  simp -implicitDefEqProofs [rewritePass]

@[simp] theorem fuses_hostLinkStep {d : RSlot} {h : Nat} {s : State} : (hostLinkStep d h s).fuses = s.fuses := by
  simp [hostLinkStep]

@[simp] theorem fuses_headUp {d : RSlot} {h : Nat} {s : State} : (headUp d h s).fuses = s.fuses := by
  simp [headUp]

@[simp] theorem fuses_modHeadPorts {d : RSlot} {h : Nat} {f : PortX → PortX} {s : State} : (modHeadPorts d h f s).fuses = s.fuses := rfl

@[simp] theorem fuses_headLost {d : RSlot} {h st : Nat} {s : State} : (headLost d h st s).fuses = s.fuses := by
  simp [headLost]

@[simp] theorem fuses_showPins {s : State} : (showPins s).fuses = s.fuses := by
  simp -implicitDefEqProofs [showPins]

@[simp] theorem fuses_startIslands {s : State} : (startIslands s).fuses = s.fuses := by
  simp -implicitDefEqProofs [startIslands]

@[simp] theorem fuses_pauseCooking {s : State} : (pauseCooking s).fuses = s.fuses := by
  simp [pauseCooking]

@[simp] theorem fuses_resumeCooking {s : State} : (resumeCooking s).fuses = s.fuses := by
  simp [resumeCooking]

@[simp] theorem fuses_regulatorFault {r : Rail} {s : State} : (regulatorFault r s).fuses = s.fuses := by
  simp [regulatorFault]

@[simp] theorem fuses_pmbWrite {r : Rail} {code data : Nat} {resp : PmbResp} {f : State → State} {s : State} (hf : ∀ t, (f t).fuses = t.fuses) :
    (pmbWrite r code data resp f s).fuses = s.fuses := by
  simp [pmbWrite, hf]

@[simp] theorem fuses_pmbRead {r : Rail} {code : Nat} {resp : PmbResp} {f : State → State} {s : State} (hf : ∀ t, (f t).fuses = t.fuses) :
    (pmbRead r code resp f s).fuses = s.fuses := by
  simp [pmbRead, hf]

@[simp] theorem fuses_railsUp {s : State} : (railsUp s).fuses = s.fuses := by
  simp [railsUp]

@[simp] theorem fuses_giveBus {d : RSlot} {s : State} : (giveBus d s).fuses = s.fuses := rfl

@[simp] theorem fuses_powerLoss {s : State} : (powerLoss s).fuses = s.fuses := rfl

@[simp] theorem fuses_setPerst {d : RSlot} {h : Nat} {high : Bool} {s : State} : (setPerst d h high s).fuses = s.fuses := by
  simp [setPerst]

@[simp] theorem fuses_restartLog {d : RSlot} {i : Island} {s : State} : (restartLog d i s).fuses = s.fuses := rfl

@[simp] theorem fuses_fullReset {s : State} : (fullReset s).fuses = s.fuses := rfl

@[simp] theorem fuses_copyBufferMemory {srv t : RSlot} {s : State} : (copyBufferMemory srv t s).fuses = s.fuses := by
  simp [copyBufferMemory]

@[simp] theorem fuses_copyDieState {srv t : RSlot} {s : State} : (copyDieState srv t s).fuses = s.fuses := by
  simp -implicitDefEqProofs [copyDieState]

@[simp] theorem fuses_drainCommand {d : RSlot} {port tag : Nat} {s : State} : (drainCommand d port tag s).fuses = s.fuses := by
  fun_cases drainCommand <;> simp

@[simp] theorem fuses_startFail {detail : List Nat} {s : State} : (startFail detail s).fuses = s.fuses := by
  simp -implicitDefEqProofs [startFail]

@[simp] theorem fuses_readGood {sl : SlotNo} {v blk : Nat} {weak : Bool} {data : List Byte} {s : State} :
    (readGood sl v blk weak data s).fuses = s.fuses := by
  simp [readGood]

@[simp] theorem fuses_markReloc {sl : SlotNo} {o : Nat} {s : State} : (markReloc sl o s).fuses = s.fuses := rfl

@[simp] theorem fuses_bumpCount {sl : SlotNo} {s : State} : (bumpCount sl s).fuses = s.fuses := by
  simp [bumpCount]

@[simp] theorem fuses_countWrite {sl : SlotNo} {o : Nat} {s : State} : (countWrite sl o s).fuses = s.fuses := by
  fun_cases countWrite <;> simp

@[simp] theorem fuses_noteWritten {v blk : Nat} {s : State} : (noteWritten v blk s).fuses = s.fuses := by
  fun_cases noteWritten <;> simp

@[simp] theorem fuses_writeGood {sl : SlotNo} {o v blk : Nat} {s : State} : (writeGood sl o v blk s).fuses = s.fuses := by
  simp [writeGood]

@[simp] theorem fuses_noteWriteFault {blk uid : Nat} {s : State} : (noteWriteFault blk uid s).fuses = s.fuses := by
  fun_cases noteWriteFault <;> simp

@[simp] theorem fuses_writeFailed {sl : SlotNo} {o v blk : Nat} {s : State} : (writeFailed sl o v blk s).fuses = s.fuses := by
  simp [writeFailed]

@[simp] theorem fuses_workAgain {v blk : Nat} {s : State} : (workAgain v blk s).fuses = s.fuses := by
  simp -implicitDefEqProofs [workAgain]

@[simp] theorem fuses_notePass {sl : SlotNo} {o : Nat} {s : State} : (notePass sl o s).fuses = s.fuses := rfl

@[simp] theorem fuses_sectorOutcome {g eseq w0 w1 : Nat} {s : State} : (sectorOutcome g eseq w0 w1 s).fuses = s.fuses := by
  fun_cases sectorOutcome <;> simp -implicitDefEqProofs +zetaDelta

@[simp] theorem fuses_fillAfter {g : Nat} {ws : List Word} {s : State} : (fillAfter g ws s).fuses = s.fuses := by
  fun_cases fillAfter <;> simp

@[simp] theorem fuses_markLive {g : Nat} {d : RSlot} {s : State} : (markLive g d s).fuses = s.fuses := rfl

@[simp] theorem fuses_reportMismatch {g cls : Nat} {slot : RSlot} {eseq : Nat} {s : State} : (reportMismatch g cls slot eseq s).fuses = s.fuses := by
  simp [reportMismatch]

@[simp] theorem fuses_discardCopy {g : Nat} {src : RSlot} {m : Msg} {s : State} : (discardCopy g src m s).fuses = s.fuses := rfl

@[simp] theorem fuses_firstCopy {g : Nat} {src : RSlot} {m : Msg} {s : State} : (firstCopy g src m s).2.fuses = s.fuses := by
  fun_cases firstCopy <;> simp +zetaDelta

@[simp] theorem fuses_powerReaders {g : Nat} {s : State} : (powerReaders g s).fuses = s.fuses := by
  simp [powerReaders]

@[simp] theorem fuses_loadZone {g surf zone : Nat} {s : State} : (loadZone g surf zone s).fuses = s.fuses := by
  fun_cases loadZone <;> simp +zetaDelta

@[simp] theorem fuses_invalidate {g surf track pos : Nat} {s : State} : (invalidate g surf track pos s).fuses = s.fuses := rfl

@[simp] theorem fuses_makeEntry {g : Nat} {x : Sec} {cap : Capture} {s : State} : (makeEntry g x cap s).2.fuses = s.fuses := rfl

@[simp] theorem fuses_endPairWaits {g : Nat} {s : State} : (endPairWaits g s).fuses = s.fuses := by
  simp [endPairWaits]

@[simp] theorem fuses_queueRun {g : Nat} {src : RSlot} {m : Msg} {s : State} : (queueRun g src m s).fuses = s.fuses := by
  simp [queueRun]

@[simp] theorem fuses_nextShot {g eseq i : Nat} {s : State} : (nextShot g eseq i s).fuses = s.fuses := by
  fun_cases nextShot <;> simp

@[simp] theorem fuses_innerAfter {g eseq i k : Nat} {s : State} : (innerAfter g eseq i k s).fuses = s.fuses := by
  fun_cases innerAfter <;> simp

@[simp] theorem fuses_pinFailed {g eseq i : Nat} {s : State} : (pinFailed g eseq i s).fuses = s.fuses := by
  fun_cases pinFailed <;> simp +zetaDelta <;> split <;> simp

@[simp] theorem fuses_goodSec {g eseq i rung : Nat} {place : Int × Nat} {p : List Byte} {s : State} :
    (goodSec g eseq i rung place p s).fuses = s.fuses := by
  fun_cases goodSec <;> simp +zetaDelta <;> split <;> simp

@[simp] theorem fuses_rungOne {g eseq i : Nat} {s : State} : (rungOne g eseq i s).fuses = s.fuses := by
  fun_cases rungOne <;> simp +zetaDelta

@[simp] theorem fuses_runVault {g eseq i : Nat} {s : State} : (runVault g eseq i s).fuses = s.fuses := by
  fun_cases runVault <;> simp +zetaDelta

@[simp] theorem fuses_vaultStep {g : Nat} {s : State} : (vaultStep g s).fuses = s.fuses := by
  fun_cases vaultStep
  · rfl
  · simp +zetaDelta
    split <;> simp

@[simp] theorem fuses_rebuildSec {g eseq i : Nat} {s : State} : (rebuildSec g eseq i s).fuses = s.fuses := by
  fun_cases rebuildSec <;> simp +zetaDelta

@[simp] theorem fuses_deferRead {g eseq i : Nat} {s : State} : (deferRead g eseq i s).fuses = s.fuses := by
  fun_cases deferRead <;> simp +zetaDelta

@[simp] theorem fuses_openGate {g : Nat} {e : Posted} {s : State} : (openGate g e s).fuses = s.fuses := by
  fun_cases openGate <;> simp +zetaDelta

@[simp] theorem fuses_closeRead {g : Nat} {cap : Capture} {e : GateEv} {s : State} : (closeRead g cap e s).fuses = s.fuses := by
  fun_cases closeRead <;> simp +zetaDelta

@[simp] theorem fuses_closeWrite {g : Nat} {e : GateEv} {s : State} : (closeWrite g e s).fuses = s.fuses := by
  fun_cases closeWrite <;> simp +zetaDelta

@[simp] theorem fuses_gateAct {g : Nat} {cap : Capture} {s : State} : (gateAct g cap s).fuses = s.fuses := by
  fun_cases gateAct <;> simp +zetaDelta

@[simp] theorem fuses_shockSeen {g : Nat} {s : State} : (shockSeen g s).fuses = s.fuses := by
  fun_cases shockSeen <;> simp +zetaDelta

@[simp] theorem fuses_failWrites {g : Nat} {s : State} : (failWrites g s).fuses = s.fuses := by
  simp [failWrites]

@[simp] theorem fuses_orderReaders {g n : Nat} {s : State} : (orderReaders g n s).fuses = s.fuses := by
  simp [orderReaders]

@[simp] theorem fuses_drainChannel {g : Nat} {s : State} : (drainChannel g s).fuses = s.fuses := by
  fun_cases drainChannel <;> simp +zetaDelta

@[simp] theorem fuses_runSections {g base sec : Nat} {x : Int} {s : State} : (runSections g base sec x s).2.fuses = s.fuses :=
  State.fuses_foldl_in Prod.snd fun q i => by simp -implicitDefEqProofs

@[simp] theorem fuses_actFrame {g typ : Nat} {value : Int} {s : State} : (actFrame g typ value s).fuses = s.fuses := rfl

@[simp] theorem fuses_servoFailure {g : Nat} {s : State} : (servoFailure g s).fuses = s.fuses := by
  simp [servoFailure]

@[simp] theorem fuses_servoLost {g : Nat} {s : State} : (servoLost g s).fuses = s.fuses := by
  simp [servoLost]

@[simp] theorem fuses_endUnload {g : Nat} {s : State} : (endUnload g s).fuses = s.fuses := rfl

@[simp] theorem fuses_failLoad {g : Nat} {s : State} : (failLoad g s).fuses = s.fuses := by
  simp -implicitDefEqProofs [failLoad]

@[simp] theorem fuses_startSettle {g : Nat} {s : State} : (startSettle g s).fuses = s.fuses := by
  simp [startSettle]

@[simp] theorem fuses_requestTarget {g surf track : Nat} {s : State} : (requestTarget g surf track s).fuses = s.fuses := by
  simp [requestTarget]

@[simp] theorem fuses_refreshServo {g : Nat} {s : State} : (refreshServo g s).fuses = s.fuses := by
  simp [refreshServo]

@[simp] theorem fuses_estimate {g : Nat} {y : Option Int} {s : State} : (estimate g y s).fuses = s.fuses := rfl

@[simp] theorem fuses_outerLoop {g : Nat} {reference ff : Int} {s : State} : (outerLoop g reference ff s).fuses = s.fuses := by
  simp [outerLoop]

@[simp] theorem fuses_permitWedge {g : Nat} {pes : Int} {s : State} : (permitWedge g pes s).fuses = s.fuses := by
  simp [permitWedge]

@[simp] theorem fuses_advanceRef {g : Nat} {s : State} : (advanceRef g s).2.2.fuses = s.fuses := by
  fun_cases advanceRef
  all_goals (try simp +zetaDelta)
  all_goals (repeat' split)
  all_goals simp

@[simp] theorem fuses_settleTimeout {g : Nat} {s : State} : (settleTimeout g s).fuses = s.fuses := by
  simp [settleTimeout]

@[simp] theorem fuses_startRamp {g : Nat} {y coil : Int} {load : Bool} {s : State} : (startRamp g y coil load s).fuses = s.fuses := by
  simp [startRamp]

@[simp] theorem fuses_goodWedge {g : Nat} {w : Wedge} {pred : Int} {s : State} : (goodWedge g w pred s).fuses = s.fuses := by
  simp [goodWedge]

@[simp] theorem fuses_badWedge {g : Nat} {w : Wedge} {s : State} : (badWedge g w s).fuses = s.fuses := by
  simp [badWedge]

@[simp] theorem fuses_wedge {g : Nat} {w : Wedge} {s : State} : (wedge g w s).fuses = s.fuses := by
  simp [wedge]

@[simp] theorem fuses_innerLoop {g : Nat} {isns : Int} {lat40ns : Nat} {s : State} : (innerLoop g isns lat40ns s).fuses = s.fuses := by
  simp [innerLoop]

@[simp] theorem fuses_startLoad {g : Nat} {s : State} : (startLoad g s).fuses = s.fuses := by
  simp [startLoad]

@[simp] theorem fuses_applyOrder {g w0 : Nat} {s : State} : (applyOrder g w0 s).fuses = s.fuses := by
  simp [applyOrder]

@[simp] theorem fuses_setupWrite {d : RSlot} {r : Requester} {addr width : Nat} {v : Word} {s : State} :
    (setupWrite d r addr width v s).1.fuses = s.fuses := by
  simp [setupWrite]

@[simp] theorem fuses_readReg {d : RSlot} {r : Requester} {addr : Nat} {s : State} : (readReg d r addr s).2.1.fuses = s.fuses := by
  fun_cases readReg <;> simp

@[simp] theorem fuses_modSb {d : RSlot} {f : Sideband → Sideband} {s : State} : (modSb d f s).fuses = s.fuses := by
  simp [modSb]

@[simp] theorem fuses_takeAccess {g : Nat} {d : RSlot} {isWrite : Bool} {p : Msg → Bool} {s : State} :
    (takeAccess g d isWrite p s).2.fuses = s.fuses := by
  fun_cases takeAccess <;> simp +zetaDelta

@[simp] theorem fuses_curdUnlock {g code off : Nat} {key : Word} {s : State} : (curdUnlock g code off key s).fuses = s.fuses := by
  simp [curdUnlock]

@[simp] theorem fuses_curdDiscard {g off : Nat} {s : State} : (curdDiscard g off s).fuses = s.fuses := by
  simp [curdDiscard]

@[simp] theorem fuses_curdWrite {g code off : Nat} {v : Word} {s : State} : (curdWrite g code off v s).fuses = s.fuses := by
  fun_cases curdWrite <;> simp +zetaDelta

@[simp] theorem fuses_curdRead {g code off : Nat} {s : State} : (curdRead g code off s).2.fuses = s.fuses := by
  fun_cases curdRead <;> simp

@[simp] theorem fuses_returnWord {d : RSlot} {g off : Nat} {w : Word} {s : State} : (returnWord d g off w s).fuses = s.fuses := by
  simp [returnWord]

@[simp] theorem fuses_keeperStart {s : State} : (keeperStart s).fuses = s.fuses := rfl

@[simp] theorem fuses_countSkips {skip : List Bool} {s : State} : (countSkips skip s).fuses = s.fuses := by
  simp [countSkips]

@[simp] theorem fuses_observe {v : Valley} {s : State} : (observe v s).fuses = s.fuses := rfl

@[simp] theorem fuses_catchRotor {s : State} : (catchRotor s).fuses = s.fuses := by
  simp [catchRotor]

@[simp] theorem fuses_applySetpoint {eseq rpm : Nat} {s : State} : (applySetpoint eseq rpm s).fuses = s.fuses := by
  simp [applySetpoint]

@[simp] theorem fuses_latchOff {s : State} : (latchOff s).fuses = s.fuses := by
  simp [latchOff]

@[simp] theorem fuses_endBraking {s : State} : (endBraking s).fuses = s.fuses := by
  simp [endBraking]

@[simp] theorem fuses_chopper {s : State} : (chopper s).fuses = s.fuses := rfl

@[simp] theorem fuses_currentLoop {i : Int × Int × Int} {s : State} : (currentLoop i s).fuses = s.fuses := rfl

@[simp] theorem fuses_valleyState {s : State} : (valleyState s).fuses = s.fuses := by
  simp [valleyState]

@[simp] theorem fuses_valley {v : Valley} {s : State} : (valley v s).fuses = s.fuses := by
  simp -implicitDefEqProofs [valley]

@[simp] theorem fuses_speedTick {s : State} : (speedTick s).fuses = s.fuses := by
  fun_cases speedTick <;> simp +zetaDelta

@[simp] theorem fuses_storeEstimate {t : Int} {res src : Nat} {s : State} : (storeEstimate t res src s).fuses = s.fuses := rfl

@[simp] theorem fuses_restMeasure {rab rbc rca : Nat} {s : State} : (restMeasure rab rbc rca s).fuses = s.fuses := by
  fun_cases restMeasure <;> simp

@[simp] theorem fuses_standstill {s : State} : (standstill s).fuses = s.fuses := by
  simp [standstill]

@[simp] theorem fuses_atRest {s : State} : (atRest s).fuses = s.fuses := by
  simp [atRest]

@[simp] theorem fuses_spdSample {level freq : Nat} {s : State} : (spdSample level freq s).fuses = s.fuses := by
  simp [spdSample]

@[simp] theorem fuses_vatAnswer {d : RSlot} {asker : Option Nat} {r : VatResp} {s : State} : (vatAnswer d asker r s).fuses = s.fuses := by
  fun_cases vatAnswer <;> simp

@[simp] theorem fuses_refuse {d : RSlot} {op owner handle status term : Nat} {s : State} :
    (refuse d op owner handle status term s).2.fuses = s.fuses := by
  simp [refuse]

@[simp] theorem fuses_vatRequest {op owner arg : Nat} {f : RSlot → State → VatResp × State} {d : RSlot} {s : State} (hf : ∀ y0 t, (f y0 t).2.fuses = t.fuses) :
    (vatRequest op owner arg f d s).fuses = s.fuses := by
  simp [vatRequest, hf]

@[simp] theorem fuses_noteAsker {d : RSlot} {asker : Option Nat} {r : VatResp} {s : State} : (noteAsker d asker r s).fuses = s.fuses := by
  simp [noteAsker]

@[simp] theorem fuses_tellGrant {d : RSlot} {before : List VatWait} {s : State} : (tellGrant d before s).fuses = s.fuses := by
  fun_cases tellGrant <;> simp

@[simp] theorem fuses_putBuf {d : RSlot} {b : VatBuf} {s : State} : (putBuf d b s).fuses = s.fuses := by
  simp [putBuf]

@[simp] theorem fuses_grantBuf {d : RSlot} {p i owner : Nat} {s : State} : (grantBuf d p i owner s).2.fuses = s.fuses := by
  simp [grantBuf]

@[simp] theorem fuses_vatAlloc {d : RSlot} {owner size : Nat} {promote wait : Bool} {s : State} :
    (vatAlloc d owner size promote wait s).2.fuses = s.fuses := by
  fun_cases vatAlloc <;> simp +zetaDelta

@[simp] theorem fuses_withBuf {d : RSlot} {op owner handle term : Nat} {f : VatBuf → Nat → Nat → State → VatResp × State} {s : State} (hf : ∀ y0 y1 y2 t, (f y0 y1 y2 t).2.fuses = t.fuses) :
    (withBuf d op owner handle term f s).2.fuses = s.fuses := by
  fun_cases withBuf <;> simp [hf]

@[simp] theorem fuses_vatShare {d : RSlot} {owner handle : Nat} {rename : Bool} {s : State} :
    (vatShare d owner handle rename s).2.fuses = s.fuses := by
  simp [vatShare]

@[simp] theorem fuses_vatRelease {d : RSlot} {owner handle : Nat} {s : State} : (vatRelease d owner handle s).2.fuses = s.fuses :=
  fuses_withBuf fun b n last t => by simp

@[simp] theorem fuses_vatFree {d : RSlot} {owner handle : Nat} {s : State} : (vatFree d owner handle s).2.fuses = s.fuses :=
  fuses_withBuf fun b n last t => by
    dsimp only
    repeat' split
    all_goals simp

@[simp] theorem fuses_vatCancel {d : RSlot} {owner ticket : Nat} {s : State} : (vatCancel d owner ticket s).2.fuses = s.fuses := by
  fun_cases vatCancel <;> simp

@[simp] theorem fuses_startCleaning {g : Nat} {s : State} : (startCleaning g s).fuses = s.fuses := by
  fun_cases startCleaning
  case case3 => exact State.fuses_getD (by simp +zetaDelta) fun t h => (fuses_startReloc h).trans (by simp +zetaDelta)
  all_goals simp +zetaDelta

@[simp] theorem fuses_reconcile {l : List VolumeRec} {s : State} : (reconcile l s).fuses = s.fuses := by
  refine (State.fuses_foldl fun t v => ?_).trans (State.fuses_foldl fun t v => ?_)
  · dsimp only
    split
    · rfl
    · split
      · simp
      · exact (fuses_raiseAll ..).trans (State.fuses_getD rfl fun u h => by
          split at h
          · cases h
          · exact fuses_createVolume h)
  · dsimp only
    split
    · rfl
    · split <;> simp

@[simp] theorem fuses_loadTables {s : State} : (loadTables s).fuses = s.fuses := by
  simp [loadTables]
  split <;> simp

@[simp] theorem fuses_trstLevel {high : Bool} {s : State} : (trstLevel high s).fuses = s.fuses := by
  simp [trstLevel]

end Sys2Proof.Machine
end

section
/-! Every command completes, and leaves the keys in the fuses as they were (R82, R83). -/

namespace Sys2Proof.Machine

/-- The hashes and the image key in the fuses: what is burned once (R82, R83). -/
def Fuses.keys (f : Fuses) : Option (List Byte) × Option (List Byte) × List Byte := (f.vendorHash, f.ownerHash, f.imageKey)

@[simp] theorem Fuses.keys_burn {f : Fuses} {n : Nat} : ({ f with svn := n } : Fuses).keys = f.keys := rfl

/-- The outcome is a next state, with the keys that `a` has. -/
def Completes (a : State) (o : Host.Outcome State Fault Refusal) : Prop := ∃ t, o = .next t ∧ t.fuses.keys = a.fuses.keys

theorem Completes.next {a t : State} (h : t.fuses = a.fuses) : Completes a (.next t) := ⟨t, rfl, by rw [h]⟩

/-- For the two commands that burn the security version. -/
theorem Completes.burn {a t : State} (h : t.fuses.keys = a.fuses.keys) : Completes a (.next t) := ⟨t, rfl, h⟩

theorem Completes.ite {a : State} {o p : Host.Outcome State Fault Refusal} {c : Prop} [Decidable c] (h : Completes a o) (k : Completes a p) :
    Completes a (if c then o else p) := by split <;> assumption

theorem rowWrite_completes {d : RSlot} {r : Requester} {addr : Nat} {v : Word} {s : State} : Completes s (rowWrite d r addr v s) :=
  .ite (.next (by simp)) (.next rfl)

theorem sectorCommand_completes {op g : Nat} {src : RSlot} {m : Msg} {s : State} : Completes s (sectorCommand op g src m s) :=
  .ite (.next (by simp)) (.next rfl)

theorem execPowerOnResetRelease_completes {vinMv : Nat} {strap : Bool} {s : State} : Completes s (execPowerOnResetRelease vinMv strap s) :=
  .ite (.next rfl) (.next (by simp))

theorem execPowerOnResetEntry_completes {vinMv : Nat} {s : State} : Completes s (execPowerOnResetEntry vinMv s) :=
  .next (by simp)

theorem execResetNFall_completes {s : State} : Completes s (execResetNFall s) :=
  .ite (.next (by simp)) (.next (by simp))

theorem execResetNRise_completes {lowUs : Nat} {s : State} : Completes s (execResetNRise lowUs s) :=
  .next (by simp)

theorem execVinSample_completes {vinMv : Nat} {s : State} : Completes s (execVinSample vinMv s) :=
  .ite (.next (by simp)) (.ite (.next (by simp)) (.next (by simp)))

theorem execSagPauseEnd_completes {s : State} : Completes s (execSagPauseEnd s) :=
  .ite (.next (by simp)) (.next rfl)

theorem execSupplyHoldExpire_completes {s : State} : Completes s (execSupplyHoldExpire s) :=
  .ite (.next (by simp)) (.ite (.next (by simp)) (.next rfl))

theorem execSupplyRestart_completes {s : State} : Completes s (execSupplyRestart s) :=
  .ite (.next (by simp)) (.next rfl)

theorem execPerstAssert_completes {d : RSlot} {h : Nat} {s : State} : Completes s (execPerstAssert d h s) :=
  .ite (.ite (.next (by simp)) (.next (by simp))) (.next rfl)

theorem execPerstDeassert_completes {d : RSlot} {h : Nat} {s : State} : Completes s (execPerstDeassert d h s) :=
  .ite (.next (by simp)) (.next rfl)

theorem execShockAssert_completes {s : State} : Completes s (execShockAssert s) :=
  .ite (.next (by simp)) (.ite (.next (by simp)) (.next (by simp)))

theorem execShockHoldExpire_completes {g : Nat} {s : State} : Completes s (execShockHoldExpire g s) :=
  .ite (.next (by simp)) (.next rfl)

theorem execShockStuck_completes {g : Nat} {s : State} : Completes s (execShockStuck g s) :=
  .ite (.next (by simp)) (.next rfl)

theorem execSpdlimSample_completes {level freq : Nat} {s : State} : Completes s (execSpdlimSample level freq s) :=
  .next (by simp)

theorem execSpdlimOpen_completes {s : State} : Completes s (execSpdlimOpen s) :=
  .ite (.next (by simp)) (.next rfl)

theorem execSpdlimValidPersist_completes {s : State} : Completes s (execSpdlimValidPersist s) :=
  .ite (.next (by simp)) (.next rfl)

theorem execSpdlimCeilingRaise_completes {s : State} : Completes s (execSpdlimCeilingRaise s) :=
  .ite (.next (by simp)) (.next rfl)

theorem execTestPortActive_completes {s : State} : Completes s (execTestPortActive s) :=
  .next (by simp)

theorem execTimebaseLost_completes {d : RSlot} {s : State} : Completes s (execTimebaseLost d s) :=
  .ite (.next (by simp)) (.next rfl)

theorem execAliveToggle_completes {s : State} : Completes s (execAliveToggle s) :=
  .next (by simp)

theorem execAliveTakeover_completes {s : State} : Completes s (execAliveTakeover s) :=
  .next (by simp)

theorem execRailMonitorLow_completes {g : Nat} {r : Rail} {s : State} : Completes s (execRailMonitorLow g r s) :=
  .ite (.next (by simp)) (.next rfl)

theorem execPmbusOperation_completes {r : Rail} {on : Bool} {resp : PmbResp} {s : State} : Completes s (execPmbusOperation r on resp s) :=
  .next (by simp)

theorem execPmbusClearFaults_completes {r : Rail} {resp : PmbResp} {s : State} : Completes s (execPmbusClearFaults r resp s) :=
  .next (by simp)

theorem execPmbusVoutCommand_completes {up : Bool} {resp : PmbResp} {s : State} : Completes s (execPmbusVoutCommand up resp s) :=
  .ite (.next (by simp)) (.next rfl)

theorem execPmbusStatusWord_completes {r : Rail} {resp : PmbResp} {fault : Bool} {s : State} : Completes s (execPmbusStatusWord r resp fault s) :=
  .next (by simp)

theorem execPmbusReadVout_completes {r : Rail} {resp : PmbResp} {mv : Nat} {s : State} : Completes s (execPmbusReadVout r resp mv s) :=
  .next (by simp -implicitDefEqProofs)

theorem execPmbusReadIout_completes {r : Rail} {resp : PmbResp} {tenMa : Nat} {s : State} : Completes s (execPmbusReadIout r resp tenMa s) :=
  .next (by simp -implicitDefEqProofs)

theorem execPmbusTakeover_completes {s : State} : Completes s (execPmbusTakeover s) :=
  .ite (.next (by simp)) (.next rfl)

theorem execSfBusRequest_completes {d : RSlot} {s : State} : Completes s (execSfBusRequest d s) :=
  .ite (.next (by simp)) (.next rfl)

theorem execSfBusGrant_completes {s : State} : Completes s (execSfBusGrant s) :=
  .ite (.next rfl) (.ite (.next (by simp)) (.ite (.next (by simp)) (.next rfl)))

theorem execSbSetAddress_completes {a : Nat} {pec : Bool} {addr : Word} {s : State} : Completes s (execSbSetAddress a pec addr s) := by
  fun_cases execSbSetAddress <;> exact .next (by simp +zetaDelta)

theorem execSbReadWord_completes {at_ : Nat} {pec : Bool} {s : State} : Completes s (execSbReadWord at_ pec s) := by
  fun_cases execSbReadWord <;> exact .next (by simp +zetaDelta)

theorem execSbWriteWord_completes {at_ : Nat} {pec : Bool} {v : Word} {s : State} : Completes s (execSbWriteWord at_ pec v s) := by
  fun_cases execSbWriteWord <;> exact .next (by simp +zetaDelta)

theorem execSbReadResult_completes {at_ : Nat} {pec : Bool} {s : State} : Completes s (execSbReadResult at_ pec s) := by
  fun_cases execSbReadResult <;> exact .next (by simp +zetaDelta)

theorem execSbCoreTimeout_completes {d : RSlot} {s : State} : Completes s (execSbCoreTimeout d s) := by
  fun_cases execSbCoreTimeout <;> exact .next (by simp +zetaDelta)

theorem execStartHeader_completes {d : RSlot} {s : State} : Completes s (execStartHeader d s) := by
  fun_cases execStartHeader
  · exact .next (by simp +zetaDelta)
  · exact .next (by simp -implicitDefEqProofs +zetaDelta)
  · exact .next (by simp +zetaDelta)
  · exact .next rfl

theorem execLinkFirstHandshake_completes {d : RSlot} {n : Nat} {s : State} : Completes s (execLinkFirstHandshake d n s) := by
  fun_cases execLinkFirstHandshake <;> exact .next (by simp -implicitDefEqProofs +zetaDelta)

theorem execStartLoad_completes {d : RSlot} {s : State} : Completes s (execStartLoad d s) := by
  fun_cases execStartLoad <;> exact .next (by simp +zetaDelta)

theorem execCurdImageLoad_completes {g : Nat} {s : State} : Completes s (execCurdImageLoad g s) := by
  fun_cases execCurdImageLoad <;> exact .next (by simp +zetaDelta)

theorem execStartSettings_completes {d : RSlot} {s : State} : Completes s (execStartSettings d s) := by
  fun_cases execStartSettings <;> exact .next (by simp +zetaDelta)

theorem execStartDigestExchange_completes {f1Here : Bool} {s : State} : Completes s (execStartDigestExchange f1Here s) := by
  exact .ite (.ite (.next (State.fuses_foldl fun _ _ => by simp)) (.next (by simp))) (.next rfl)

theorem execStartMemorySpindle_completes {s : State} : Completes s (execStartMemorySpindle s) := by
  fun_cases execStartMemorySpindle <;> exact .next (by simp -implicitDefEqProofs +zetaDelta)

theorem execDramTrainingDone_completes {d : RSlot} {lanes : List LaneEyes} {s : State} : Completes s (execDramTrainingDone d lanes s) := by
  fun_cases execDramTrainingDone with
  | case1 _ u bad => exact .next (by simp -implicitDefEqProofs [u])
  | case2 _ u bad _ v =>
    have hv : v.fuses = s.fuses := by simp -implicitDefEqProofs [v, u]
    clear_value v
    refine .next (fuses_settle.trans ?_)
    repeat' split
    all_goals simp [hv]
  | case3 => exact .next rfl

theorem execDramFillDone_completes {d : RSlot} {s : State} : Completes s (execDramFillDone d s) :=
  .ite (.ite (.next (by simp)) (.ite (.next (by simp)) (.next (by simp)))) (.next rfl)

theorem execHeadsRelease_completes {x : HeadPins} {s : State} : Completes s (execHeadsRelease x s) := by
  fun_cases execHeadsRelease <;> exact .next (by simp -implicitDefEqProofs +zetaDelta)

theorem execStartReady_completes {elapsedMs : Nat} {s : State} : Completes s (execStartReady elapsedMs s) := by
  fun_cases execStartReady with
  | case1 => exact .next (by simp)
  | case2 h1 h2 s1 s2 s3 s4 s5 s6 h s7 =>
    have h6 : s6.fuses = s.fuses := by simp -implicitDefEqProofs [s6, s5, s4, s3, s2, s1]
    clear_value s6
    have h7 : s7.fuses.keys = s.fuses.keys := by
      simp only [s7]
      repeat' split
      all_goals simp -implicitDefEqProofs [h6]
    exact .burn (by simp [h7])
  | case3 => exact .next rfl

theorem execStartWatchdogExpire_completes {s : State} : Completes s (execStartWatchdogExpire s) :=
  .ite (.next (by simp)) (.next rfl)

theorem execThermalWaitEnd_completes {s : State} : Completes s (execThermalWaitEnd s) :=
  .ite (.next (by simp)) (.next rfl)

theorem execHeaderWriteDone_completes {good : Bool} {s : State} : Completes s (execHeaderWriteDone good s) := by
  fun_cases execHeaderWriteDone with
  | case1 k h again why _ stop u =>
    have hu : u.fuses = s.fuses := by simp [u, stop]
    clear_value u
    exact .next (by simp; split <;> simp [hu])
  | case2 k h again why _ stop u _ _ v w x =>
    have hw : w.fuses = s.fuses := by simp -implicitDefEqProofs [w, v, u, stop]
    clear_value w
    have hx : x.fuses.keys = s.fuses.keys := by
      simp only [x]
      split
      · simp [hw]
      · simp [hw]
      · simp -implicitDefEqProofs [hw]
      · simp [hw]
      · simp [hw]
    exact .burn (by simp [hx])
  | case3 k h again why _ stop u => exact .next (by simp [u, stop])
  | case4 k h again why _ stop u _ _ _ w x =>
    have hw : w.fuses = s.fuses := by simp [w, u, stop]
    clear_value w
    have hx : x.fuses = s.fuses := by simp only [x]; split <;> simp [hw]
    exact .next (by simp [hx])
  | case5 => exact .next rfl

theorem execFinvikMessageReceive_completes {e : LinkEnd} {m : Msg} {crcOk codeOk : Bool} {s : State} : Completes s (execFinvikMessageReceive e m crcOk codeOk s) := by
  fun_cases execFinvikMessageReceive
  · exact .next (by simp +zetaDelta; split <;> simp)
  · exact .next (by simp +zetaDelta; split <;> simp)
  · exact .next (by simp +zetaDelta; split <;> simp)
  · exact .next rfl

theorem execLcwCreditAck_completes {e : LinkEnd} {w0 w1 : Word} {s : State} : Completes s (execLcwCreditAck e w0 w1 s) :=
  .next (by simp)

theorem execLcwReplayRequest_completes {e : LinkEnd} {w0 w1 : Word} {s : State} : Completes s (execLcwReplayRequest e w0 w1 s) :=
  .next (by simp)

theorem execLcwResetReport_completes {e : LinkEnd} {w0 w1 : Word} {s : State} : Completes s (execLcwResetReport e w0 w1 s) :=
  .next (by simp)

theorem execLcwPeriodic_completes {e : LinkEnd} {s : State} : Completes s (execLcwPeriodic e s) :=
  .next (by simp)

theorem execLinkDown_completes {d : RSlot} {n : Nat} {s : State} : Completes s (execLinkDown d n s) :=
  .ite (.next (by simp)) (.next rfl)

theorem execStepKeepalive_completes {d : RSlot} {s : State} : Completes s (execStepKeepalive d s) :=
  .next (by simp)

theorem execStepLinkLost_completes {s : State} : Completes s (execStepLinkLost s) :=
  .ite (.ite (.next (by simp)) (.next (by simp))) (.next rfl)

theorem execStallWatchFire_completes {st : Stage} {s : State} : Completes s (execStallWatchFire st s) := by
  fun_cases execStallWatchFire
  · exact .next rfl
  · exact .next (by simp; split <;> (try split) <;> simp +zetaDelta)

theorem execHeadTrained_completes {d : RSlot} {h : Nat} {p : Partner} {s : State} : Completes s (execHeadTrained d h p s) :=
  .ite (.next (by simp)) (.next rfl)

theorem execHeadDown_completes {d : RSlot} {h : Nat} {s : State} : Completes s (execHeadDown d h s) :=
  .ite (.next (by simp)) (.next rfl)

theorem execCxlMemLoad_completes {d : RSlot} {r : Requester} {off len : Nat} {s : State} : Completes s (execCxlMemLoad d r off len s) := by
  fun_cases execCxlMemLoad <;> exact .next (by simp +zetaDelta)

theorem execCxlMemStore_completes {d : RSlot} {r : Requester} {off : Nat} {data : List Byte} {s : State} : Completes s (execCxlMemStore d r off data s) := by
  fun_cases execCxlMemStore <;> exact .next (by simp +zetaDelta)

theorem execGlobalPersistentFlush_completes {_d : RSlot} {_h : Nat} {s : State} : Completes s (execGlobalPersistentFlush _d _h s) :=
  .next (by simp)

theorem execSetupWrite_completes {d : RSlot} {r : Requester} {addr width : Nat} {v : Word} {s : State} : Completes s (execSetupWrite d r addr width v s) :=
  .ite (.next (by simp)) (.next rfl)

theorem execRcRead_completes {d : RSlot} {r : Requester} {addr width : Nat} {s : State} : Completes s (execRcRead d r addr width s) := by
  fun_cases execRcRead
  · exact .next rfl
  · exact .next (by simp)
  · exact .next (by simp +zetaDelta; split <;> simp)

theorem execUnlockWrite_completes {d : RSlot} {r : Requester} {addr : Nat} {key : Word} {s : State} : Completes s (execUnlockWrite d r addr key s) :=
  .ite (.next (by simp)) (.next rfl)

theorem execUnlockArmLapse_completes {d : RSlot} {r : Requester} {addr : Nat} {s : State} : Completes s (execUnlockArmLapse d r addr s) := by
  fun_cases execUnlockArmLapse <;> exact .next (by simp +zetaDelta)

theorem execDomcfgWrite_completes {d : RSlot} {r : Requester} {dom : Nat} {v : Word} {s : State} : Completes s (execDomcfgWrite d r dom v s) :=
  .ite (.next (by simp)) (.next rfl)

theorem execPortEnable_completes {d : RSlot} {r : Requester} {port : Nat} {v : Word} {s : State} : Completes s (execPortEnable d r port v s) :=
  .ite rowWrite_completes (.next rfl)

theorem execPortDisable_completes {d : RSlot} {r : Requester} {port : Nat} {v : Word} {s : State} : Completes s (execPortDisable d r port v s) :=
  .ite rowWrite_completes (.next rfl)

theorem execStatusLineAddressWrite_completes {d : RSlot} {r : Requester} {dom : Nat} {hi : Bool} {v : Word} {s : State} : Completes s (execStatusLineAddressWrite d r dom hi v s) :=
  .ite rowWrite_completes (.next rfl)

theorem execCaveEnable_completes {d : RSlot} {r : Requester} {v : Word} {s : State} : Completes s (execCaveEnable d r v s) :=
  rowWrite_completes

theorem execCaveInv_completes {d : RSlot} {r : Requester} {spareLocked : Bool} {s : State} : Completes s (execCaveInv d r spareLocked s) :=
  rowWrite_completes

theorem execCaveClean_completes {d : RSlot} {r : Requester} {spareLocked : Bool} {s : State} : Completes s (execCaveClean d r spareLocked s) :=
  rowWrite_completes

theorem execCaveCleaninv_completes {d : RSlot} {r : Requester} {spareLocked : Bool} {s : State} : Completes s (execCaveCleaninv d r spareLocked s) :=
  rowWrite_completes

theorem execCaveMaintDone_completes {d : RSlot} {s : State} : Completes s (execCaveMaintDone d s) :=
  .next (by simp)

theorem execStepTurnnow_completes {d : RSlot} {r : Requester} {s : State} : Completes s (execStepTurnnow d r s) :=
  rowWrite_completes

theorem execStepResync_completes {d : RSlot} {r : Requester} {s : State} : Completes s (execStepResync d r s) :=
  rowWrite_completes

theorem execFaultUnlatch_completes {d : RSlot} {r : Requester} {s : State} : Completes s (execFaultUnlatch d r s) :=
  rowWrite_completes

theorem execFaultAbandon_completes {d : RSlot} {r : Requester} {s : State} : Completes s (execFaultAbandon d r s) :=
  rowWrite_completes

theorem execLogFreeze_completes {d : RSlot} {r : Requester} {s : State} : Completes s (execLogFreeze d r s) :=
  rowWrite_completes

theorem execLogUnfreeze_completes {d : RSlot} {r : Requester} {s : State} : Completes s (execLogUnfreeze d r s) :=
  rowWrite_completes

theorem execLogFreezeLapse_completes {s : State} : Completes s (execLogFreezeLapse s) :=
  .next (by simp)

theorem execFaultInjArm_completes {d : RSlot} {r : Requester} {v : Word} {s : State} : Completes s (execFaultInjArm d r v s) :=
  rowWrite_completes

theorem execFaultInjRaise_completes {d : RSlot} {r : Requester} {v : Word} {s : State} : Completes s (execFaultInjRaise d r v s) :=
  rowWrite_completes

theorem execFaultInjCaveParity_completes {d : RSlot} {r : Requester} {v : Word} {s : State} : Completes s (execFaultInjCaveParity d r v s) :=
  rowWrite_completes

theorem execFaultInjWithholdAck_completes {d : RSlot} {r : Requester} {v : Word} {s : State} : Completes s (execFaultInjWithholdAck d r v s) :=
  rowWrite_completes

theorem execFaultInjFinvikCrc_completes {d : RSlot} {r : Requester} {v : Word} {s : State} : Completes s (execFaultInjFinvikCrc d r v s) :=
  rowWrite_completes

theorem execFaultInjDramSymbol_completes {d : RSlot} {r : Requester} {v : Word} {s : State} : Completes s (execFaultInjDramSymbol d r v s) :=
  rowWrite_completes

theorem execDoorbellSnoop_completes {d : RSlot} {port : Nat} {s : State} : Completes s (execDoorbellSnoop d port s) :=
  .ite (.next (by simp)) (.next rfl)

theorem execDoorbellReadComplete_completes {d : RSlot} {port : Nat} {lo hi : List Byte} {s : State} : Completes s (execDoorbellReadComplete d port lo hi s) := by
  fun_cases execDoorbellReadComplete <;> exact .next (by simp +zetaDelta)

theorem execDoorbellPoll_completes {d : RSlot} {port : Nat} {s : State} : Completes s (execDoorbellPoll d port s) :=
  .next (by simp)

theorem execDoorbellBackstop_completes {d : RSlot} {s : State} : Completes s (execDoorbellBackstop d s) :=
  .next (by simp)

theorem execDoorbellReadTimeout_completes {d : RSlot} {port : Nat} {s : State} : Completes s (execDoorbellReadTimeout d port s) :=
  .ite (.next (by simp)) (.next rfl)

theorem execFetchGrant_completes {descs : List (List Byte)} {s : State} : Completes s (execFetchGrant descs s) :=
  .next (by simp)

theorem execDescriptorFetchTimeout_completes {d : RSlot} {port : Nat} {s : State} : Completes s (execDescriptorFetchTimeout d port s) :=
  .next (by simp)

theorem execStatusLineUpdate_completes {d : RSlot} {dom : Nat} {s : State} : Completes s (execStatusLineUpdate d dom s) :=
  .ite (.next (by simp)) (.next rfl)

theorem execRewritePass_completes {d : RSlot} {s : State} : Completes s (execRewritePass d s) :=
  .next (by simp)

theorem execRead_completes {port : Nat} {s : State} : Completes s (execRead port s) :=
  .next (fuses_admitOp fun _ _ => rfl)

theorem execWrite_completes {port : Nat} {s : State} : Completes s (execWrite port s) :=
  .next (fuses_admitOp fun _ _ => rfl)

theorem execAppend_completes {port : Nat} {s : State} : Completes s (execAppend port s) :=
  .next (by simp)

theorem execFence_completes {port : Nat} {s : State} : Completes s (execFence port s) :=
  .next (fuses_admitOp fun _ _ => rfl)

theorem execFlush_completes {port : Nat} {s : State} : Completes s (execFlush port s) :=
  .next (fuses_admitOp fun _ _ => rfl)

theorem execTrim_completes {port : Nat} {s : State} : Completes s (execTrim port s) :=
  .next (by simp)

theorem execCopy_completes {port : Nat} {s : State} : Completes s (execCopy port s) :=
  .next (by simp)

theorem execWinmap_completes {port : Nat} {s : State} : Completes s (execWinmap port s) :=
  .next (fuses_admitOp fun _ _ => rfl)

theorem execAbort_completes {port : Nat} {s : State} : Completes s (execAbort port s) :=
  .next (by simp)

theorem execInvalidOpcode_completes {port : Nat} {s : State} : Completes s (execInvalidOpcode port s) :=
  .next (by simp)

theorem execIdentify_completes {port : Nat} {s : State} : Completes s (execIdentify port s) :=
  .next (by simp)

theorem execGetLog_completes {port : Nat} {s : State} : Completes s (execGetLog port s) :=
  .next (by simp)

theorem execGetFeatures_completes {port : Nat} {s : State} : Completes s (execGetFeatures port s) :=
  .next (by simp)

theorem execSetFeaturesPowercap_completes {port : Nat} {s : State} : Completes s (execSetFeaturesPowercap port s) :=
  .next (by simp)

theorem execSetFeaturesThermal_completes {port : Nat} {s : State} : Completes s (execSetFeaturesThermal port s) :=
  .next (by simp)

theorem execSetFeaturesTurning_completes {port : Nat} {s : State} : Completes s (execSetFeaturesTurning port s) :=
  .next (by simp)

theorem execSetFeaturesWindow_completes {port : Nat} {s : State} : Completes s (execSetFeaturesWindow port s) :=
  .next (by simp)

theorem execSetFeaturesRide_completes {port : Nat} {s : State} : Completes s (execSetFeaturesRide port s) :=
  .next (by simp)

theorem execSetFeaturesFaultsev_completes {port : Nat} {s : State} : Completes s (execSetFeaturesFaultsev port s) :=
  .next (by simp)

theorem execSetFeaturesFaultclr_completes {port : Nat} {s : State} : Completes s (execSetFeaturesFaultclr port s) :=
  .next (by simp)

theorem execVolumeCreate_completes {port : Nat} {s : State} : Completes s (execVolumeCreate port s) :=
  .next (by simp)

theorem execVolumeChange_completes {port : Nat} {s : State} : Completes s (execVolumeChange port s) := by
  exact .next (fuses_admitIf fun c t => by dsimp only; split <;> simp +zetaDelta)

theorem execVolumeDelete_completes {port : Nat} {s : State} : Completes s (execVolumeDelete port s) :=
  .next (by simp)

theorem execSettingsSaveDone_completes {good : Bool} {s : State} : Completes s (execSettingsSaveDone good s) := by
  fun_cases execSettingsSaveDone
  · exact .next (by simp +zetaDelta)
  · exact .next (by simp +zetaDelta; split <;> simp -implicitDefEqProofs)
  · exact .next (by simp +zetaDelta)
  · exact .next (by simp +zetaDelta)
  · exact .next rfl

theorem execFwDownload_completes {port : Nat} {data : List Byte} {s : State} : Completes s (execFwDownload port data s) := by
  refine .next (fuses_admitIf fun c t => ?_)
  dsimp only
  split
  · simp
  · repeat' split
    all_goals simp [*]

theorem execFwChunkProgrammed_completes {good : Bool} {s : State} : Completes s (execFwChunkProgrammed good s) := by
  fun_cases execFwChunkProgrammed <;> exact .next (by simp +zetaDelta)

theorem execFwSessionTimeout_completes {s : State} : Completes s (execFwSessionTimeout s) :=
  .next (by simp)

theorem execFwActivate_completes {port : Nat} {s : State} : Completes s (execFwActivate port s) := by
  refine .next (fuses_admitIf fun c t => ?_)
  dsimp only
  split
  · simp
  · have h : (noteChecked t.targetSlot t).fuses = t.fuses := by simp
    generalize noteChecked t.targetSlot t = u at h ⊢
    repeat' split
    all_goals simp -implicitDefEqProofs [h]

theorem execCommandTimeout_completes {port tag : Nat} {unit : Option RUnit} {s : State} : Completes s (execCommandTimeout port tag unit s) := by
  fun_cases execCommandTimeout with
  | case1 => exact .next rfl
  | case2 => exact .next rfl
  | case3 c _ _ u runs v w =>
    have hu : u.fuses = s.fuses := fuses_inStep fun d t => State.fuses_foldl fun t e => by split <;> simp
    have hv : v.fuses = u.fuses := fuses_inStep fun d t => State.fuses_foldl fun t e => by simp
    have hw : w.fuses = v.fuses := by simp -implicitDefEqProofs [w]
    clear_value w
    refine .next (fuses_settle.trans ?_)
    split
    · exact (fuses_inStep fun d t => by simp).trans (hw.trans (hv.trans hu))
    · exact hw.trans (hv.trans hu)

theorem execJournalTimer_completes {s : State} : Completes s (execJournalTimer s) :=
  .next (by simp)

theorem execCleaningStart_completes {g : Nat} {s : State} : Completes s (execCleaningStart g s) :=
  .next (by simp)

theorem execSectorRead_completes {g : Nat} {src : RSlot} {m : Msg} {s : State} : Completes s (execSectorRead g src m s) :=
  sectorCommand_completes

theorem execSectorWrite_completes {g : Nat} {src : RSlot} {m : Msg} {s : State} : Completes s (execSectorWrite g src m s) :=
  sectorCommand_completes

theorem execSectorVerify_completes {g : Nat} {src : RSlot} {m : Msg} {s : State} : Completes s (execSectorVerify g src m s) :=
  sectorCommand_completes

theorem execSectorOldread_completes {g : Nat} {src : RSlot} {m : Msg} {s : State} : Completes s (execSectorOldread g src m s) :=
  sectorCommand_completes

theorem execSectorParity_completes {g : Nat} {src : RSlot} {m : Msg} {s : State} : Completes s (execSectorParity g src m s) :=
  sectorCommand_completes

theorem execDataMessage_completes {e : LinkEnd} {m : Msg} {s : State} : Completes s (execDataMessage e m s) := by
  fun_cases execDataMessage with
  | case1 => exact .next rfl
  | case2 d n _ => exact .next (by simp)
  | case3 => exact .next rfl
  | case4 => exact .next rfl
  | case5 _ g d _ =>
    refine .next (fuses_settle.trans ?_)
    repeat' split
    all_goals simp

theorem execRunStart_completes {g : Nat} {s : State} : Completes s (execRunStart g s) := by
  fun_cases execRunStart <;> exact .next (by simp +zetaDelta)

theorem execGatePost_completes {g : Nat} {ev : GateEv} {late : Bool} {s : State} : Completes s (execGatePost g ev late s) :=
  .ite (.next rfl) (.ite (.next (by simp)) (.ite (.next (by simp)) (.next rfl)))

theorem execGateEvent_completes {g : Nat} {cap : Capture} {s : State} : Completes s (execGateEvent g cap s) :=
  .ite (.next (by simp)) (.next rfl)

theorem execSectorDecode_completes {g surf pos : Nat} {s : State} : Completes s (execSectorDecode g surf pos s) := by
  fun_cases execSectorDecode <;> exact .next (by simp +zetaDelta)

theorem execVaultRung_completes {g pos : Nat} {s : State} : Completes s (execVaultRung g pos s) :=
  .ite (.next (by simp)) (.next rfl)

theorem execRebuild_completes {g pos : Nat} {s : State} : Completes s (execRebuild g pos s) := by
  fun_cases execRebuild <;> exact .next (by simp +zetaDelta)

theorem execReaderSettled_completes {g : Nat} {s : State} : Completes s (execReaderSettled g s) := by
  fun_cases execReaderSettled <;> exact .next (by simp +zetaDelta)

theorem execRptSectorOutcome_completes {g : Nat} {eseq w0 w1 : Nat} {s : State} : Completes s (execRptSectorOutcome g eseq w0 w1 s) :=
  .ite (.next (by simp)) (.next rfl)

theorem execRptRunEnd_completes {g : Nat} {eseq : Nat} {s : State} : Completes s (execRptRunEnd g eseq s) := by
  fun_cases execRptRunEnd
  · exact .next (by simp +zetaDelta; split <;> simp)
  · exact .next rfl

theorem execRptShockEvent_completes {g : Nat} {ms : Nat} {s : State} : Completes s (execRptShockEvent g ms s) :=
  .ite (.next (by simp)) (.next rfl)

theorem execRptSpindle_completes {w0 w1 w2 w3 : Word} {s : State} : Completes s (execRptSpindle w0 w1 w2 w3 s) :=
  .ite (.next (by simp)) (.next rfl)

theorem execRptCurdMismatch_completes {g : Nat} {cls : Nat} {slot : RSlot} {eseq : Nat} {s : State} : Completes s (execRptCurdMismatch g cls slot eseq s) :=
  .ite (.ite (.next (by simp)) (.next (by simp))) (.next rfl)

theorem execRptDieReport_completes {g : Nat} {w0 : Word} {s : State} : Completes s (execRptDieReport g w0 s) :=
  .ite (.next (by simp)) (.next rfl)

theorem execRptFault_completes {g : Nat} {w0 w1 : Word} {s : State} : Completes s (execRptFault g w0 w1 s) :=
  .ite (.next (by simp)) (.next rfl)

theorem execCurdDieReportTimer_completes {g : Nat} {s : State} : Completes s (execCurdDieReportTimer g s) := by
  fun_cases execCurdDieReportTimer
  · exact .next rfl
  · exact .next (by simp +zetaDelta; split <;> simp)

theorem execSpindleReportTimer_completes {s : State} : Completes s (execSpindleReportTimer s) :=
  .next (by simp)

theorem execSpindleSetpoint_completes {src : RSlot} {m : Msg} {s : State} : Completes s (execSpindleSetpoint src m s) :=
  .ite (.next (by simp)) (.next rfl)

theorem execGroupOrder_completes {g : Nat} {src : RSlot} {m : Msg} {s : State} : Completes s (execGroupOrder g src m s) :=
  .ite (.next (by simp)) (.next rfl)

theorem execEndRuns_completes {g : Nat} {src : RSlot} {m : Msg} {s : State} : Completes s (execEndRuns g src m s) :=
  .ite (.ite (.next (by simp)) (.next (by simp))) (.next rfl)

theorem execRetractOrder_completes {g : Nat} {s : State} : Completes s (execRetractOrder g s) :=
  .ite (.next (by simp)) (.next rfl)

theorem execCurdSetupAccess_completes {d : RSlot} {g : Nat} {isWrite : Bool} {off : Nat} {v : Word} {s : State} : Completes s (execCurdSetupAccess d g isWrite off v s) :=
  .ite (.next rfl) (.ite (.next (by simp)) (.next (by simp)))

theorem execLease_completes {g : Nat} {src : RSlot} {w0 epoch : Nat} {s : State} : Completes s (execLease g src w0 epoch s) :=
  .ite (.ite (.next (by simp)) (.next (by simp))) (.next rfl)

theorem execLeaseConfirm_completes {g : Nat} {sender : RSlot} {epoch : Nat} {s : State} : Completes s (execLeaseConfirm g sender epoch s) :=
  .ite (.next (by simp)) (.next rfl)

theorem execLeaseClaim_completes {g : Nat} {sender : RSlot} {epoch : Nat} {s : State} : Completes s (execLeaseClaim g sender epoch s) :=
  .ite (.ite (.next (by simp)) (.next (by simp))) (.next rfl)

theorem execLeaseKeepalive_completes {d : RSlot} {s : State} : Completes s (execLeaseKeepalive d s) :=
  .next (by simp)

theorem execLeaseAnswer_completes {d : RSlot} {g : Nat} {w0 epoch : Nat} {s : State} : Completes s (execLeaseAnswer d g w0 epoch s) :=
  .ite (.ite (.next (by simp)) (.ite (.next (by simp)) (.ite (.next (by simp)) (.next (by simp))))) (.next rfl)

theorem execCurdLinkSilent_completes {g : Nat} {d : RSlot} {s : State} : Completes s (execCurdLinkSilent g d s) :=
  .ite (.next (by simp)) (.next rfl)

theorem execSynthLock_completes {g : Nat} {s : State} : Completes s (execSynthLock g s) :=
  .ite (.next (by simp)) (.next rfl)

theorem execSynthLockLoss_completes {g : Nat} {s : State} : Completes s (execSynthLockLoss g s) :=
  .ite (.next (by simp)) (.next rfl)

theorem execPaFault_completes {g paflt : Nat} {s : State} : Completes s (execPaFault g paflt s) :=
  .ite (.next (by simp)) (.next rfl)

theorem execPaFaultPersist_completes {g : Nat} {s : State} : Completes s (execPaFaultPersist g s) :=
  .ite (.next (by simp)) (.next rfl)

theorem execPaFaultClear_completes {g : Nat} {s : State} : Completes s (execPaFaultClear g s) :=
  .ite (.next (by simp)) (.next rfl)

theorem execPreampWriteFrame_completes {g addr val : Nat} {s : State} : Completes s (execPreampWriteFrame g addr val s) :=
  .ite (.next (by simp)) (.next rfl)

theorem execPreampReadFrame_completes {g addr val : Nat} {s : State} : Completes s (execPreampReadFrame g addr val s) :=
  .ite (.next (by simp)) (.next rfl)

theorem execWedgeSample_completes {g : Nat} {w : Wedge} {s : State} : Completes s (execWedgeSample g w s) :=
  .next (by simp)

theorem execInnerLoopInstant_completes {g j : Nat} {isns : Int} {lat40ns : Nat} {s : State} : Completes s (execInnerLoopInstant g j isns lat40ns s) :=
  .next (by simp)

theorem execServoTargetRequest_completes {g surf track : Nat} {s : State} : Completes s (execServoTargetRequest g surf track s) :=
  .ite (.next (by simp)) (.next rfl)

theorem execServoStatusRead_completes {g : Nat} {s : State} : Completes s (execServoStatusRead g s) :=
  .ite (.next (by simp)) (.next rfl)

theorem execLoadStart_completes {g : Nat} {s : State} : Completes s (execLoadStart g s) :=
  .ite (.next (by simp)) (.next rfl)

theorem execLoadTimeout_completes {g : Nat} {s : State} : Completes s (execLoadTimeout g s) :=
  .ite (.next (by simp)) (.next rfl)

theorem execLoadStable_completes {g : Nat} {s : State} : Completes s (execLoadStable g s) :=
  .ite (.next (by simp)) (.next rfl)

theorem execRetractHoldExpire_completes {g : Nat} {s : State} : Completes s (execRetractHoldExpire g s) :=
  .ite (.next (by simp)) (.next rfl)

theorem execUnload_completes {g : Nat} {s : State} : Completes s (execUnload g s) :=
  .next (by simp)

theorem execUnloadComplete_completes {g : Nat} {s : State} : Completes s (execUnloadComplete g s) :=
  .ite (.next (by simp)) (.next rfl)

theorem execLinkAbsentUnload_completes {g : Nat} {s : State} : Completes s (execLinkAbsentUnload g s) :=
  .ite (.next (by simp)) (.next rfl)

theorem execPressHeartbeatLoss_completes {g : Nat} {s : State} : Completes s (execPressHeartbeatLoss g s) :=
  .ite (.next (by simp)) (.next rfl)

theorem execPwmValley_completes {v : Valley} {s : State} : Completes s (execPwmValley v s) :=
  .next (by simp)

theorem execOvervoltageRelease_completes {s : State} : Completes s (execOvervoltageRelease s) :=
  .ite (.next (by simp)) (.next rfl)

theorem execSpeedLoopTick_completes {s : State} : Completes s (execSpeedLoopTick s) :=
  .next (by simp)

theorem execResistanceMeasured_completes {rab rbc rca : Nat} {s : State} : Completes s (execResistanceMeasured rab rbc rca s) :=
  .ite (.ite (.next (by simp)) (.next (by simp))) (.next rfl)

theorem execHdaReestimate_completes {rphase : Nat} {s : State} : Completes s (execHdaReestimate rphase s) := by
  fun_cases execHdaReestimate <;> exact .next (by simp +zetaDelta)

theorem execCookPairChange_completes {rmeas : Nat} {s : State} : Completes s (execCookPairChange rmeas s) :=
  .ite (.next (by simp)) (.next rfl)

theorem execCookCheck_completes {rab rbc rca : Nat} {s : State} : Completes s (execCookCheck rab rbc rca s) :=
  .ite (.ite (.next (by simp)) (.next (by simp))) (.next rfl)

theorem execCookTimeout_completes {s : State} : Completes s (execCookTimeout s) :=
  .ite (.next (by simp)) (.next rfl)

theorem execStartDecision_completes {s : State} : Completes s (execStartDecision s) :=
  .ite (.next (by simp)) (.next rfl)

theorem execChopperTest_completes {dips rets : List Nat} {s : State} : Completes s (execChopperTest dips rets s) :=
  .ite (.next (by simp)) (.next rfl)

theorem execFloatEnd_completes {s : State} : Completes s (execFloatEnd s) :=
  .ite (.next (by simp)) (.next rfl)

theorem execCoastDone_completes {s : State} : Completes s (execCoastDone s) :=
  .ite (.next (by simp)) (.next rfl)

theorem execPositionSensed_completes {rises : List Nat} {s : State} : Completes s (execPositionSensed rises s) :=
  .ite (.next (by simp)) (.next rfl)

theorem execHandoverTimeout_completes {s : State} : Completes s (execHandoverTimeout s) :=
  .ite (.next (by simp)) (.next rfl)

theorem execOvercurrent_completes {s : State} : Completes s (execOvercurrent s) :=
  .ite (.next (by simp)) (.next rfl)

theorem execVmotUndervoltage_completes {s : State} : Completes s (execVmotUndervoltage s) :=
  .next (by simp -implicitDefEqProofs)

theorem execVmotRecovered_completes {s : State} : Completes s (execVmotRecovered s) :=
  .next (by simp)

theorem execSpinHeartbeatLoss_completes {s : State} : Completes s (execSpinHeartbeatLoss s) :=
  .ite (.next (by simp)) (.next rfl)

theorem execBmemReadComplete_completes {d : RSlot} {cw : Nat} {syms : List Byte} {s : State} : Completes s (execBmemReadComplete d cw syms s) :=
  .ite (.next rfl) (.next (by simp))

theorem execMarkWindowExpire_completes {d : RSlot} {c : Nat} {s : State} : Completes s (execMarkWindowExpire d c s) :=
  .next (by simp)

theorem execMergeAgeExpire_completes {d : RSlot} {cw : Nat} {s : State} : Completes s (execMergeAgeExpire d cw s) := by
  fun_cases execMergeAgeExpire <;> exact .next (by simp +zetaDelta)

theorem execRefreshDue_completes {d : RSlot} {c set : Nat} {s : State} : Completes s (execRefreshDue d c set s) :=
  .ite (.next rfl) (.ite (.next (by simp)) (.ite (.next (by simp)) (.next (by simp))))

theorem execRefreshRatePoll_completes {d : RSlot} {c : Nat} {hot : List Bool} {s : State} : Completes s (execRefreshRatePoll d c hot s) :=
  .ite (.next rfl) (.next (by simp))

theorem execDramAlert_completes {d : RSlot} {c : Nat} {s : State} : Completes s (execDramAlert d c s) :=
  .ite (.next rfl) (.ite (.next (by simp)) (.next (by simp)))

theorem execPageIdle_completes {d : RSlot} {c bank : Nat} {s : State} : Completes s (execPageIdle d c bank s) :=
  .ite (.next rfl) (.next (by simp))

theorem execAlloc_completes {owner size : Nat} {promote wait : Bool} {s : State} : Completes s (execAlloc owner size promote wait s) :=
  .next (by simp)

theorem execShare_completes {owner : Nat} {handle : Word} {rename : Bool} {s : State} : Completes s (execShare owner handle rename s) :=
  .next (by simp)

theorem execRelease_completes {owner : Nat} {handle : Word} {s : State} : Completes s (execRelease owner handle s) :=
  .next (by simp)

theorem execFree_completes {owner : Nat} {handle : Word} {s : State} : Completes s (execFree owner handle s) :=
  .next (by simp)

theorem execCancel_completes {owner ticket : Nat} {s : State} : Completes s (execCancel owner ticket s) :=
  .next (by simp)

theorem execCaveRead_completes {d : RSlot} {who : AccWho} {addr : Nat} {noalloc : Bool} {s : State} : Completes s (execCaveRead d who addr noalloc s) :=
  .ite (.next (by simp)) (.ite (.next (by simp)) (.next (by simp)))

theorem execCaveWrite_completes {d : RSlot} {who : AccWho} {addr : Nat} {data : List Byte} {s : State} : Completes s (execCaveWrite d who addr data s) :=
  .ite (.next (by simp)) (.next (by simp))

theorem execCaveFillComplete_completes {d : RSlot} {line : Nat} {s : State} : Completes s (execCaveFillComplete d line s) := by
  fun_cases execCaveFillComplete <;> exact .next (by simp -implicitDefEqProofs +zetaDelta)

theorem execEvictionDrain_completes {d : RSlot} {s : State} : Completes s (execEvictionDrain d s) :=
  .next (by simp)

theorem execLadleShadowWrite_completes {d : RSlot} {eng ch pair : Nat} {v : BitVec 64} {s : State} : Completes s (execLadleShadowWrite d eng ch pair v s) :=
  .ite (.ite (.next (by simp)) (.next (by simp))) (.next rfl)

theorem execLadleArm_completes {d : RSlot} {eng ch : Nat} {s : State} : Completes s (execLadleArm d eng ch s) :=
  .ite (.ite (.next (by simp)) (.next (by simp))) (.next rfl)

theorem execLadleReadState_completes {d : RSlot} {eng ch : Nat} {s : State} : Completes s (execLadleReadState d eng ch s) :=
  .ite (.next (by simp)) (.next rfl)

theorem execSglEntryFetch_completes {d : RSlot} {ch : Nat} {block : List Byte} {s : State} : Completes s (execSglEntryFetch d ch block s) :=
  .ite (.next (by simp)) (.next rfl)

theorem execLadleReadData_completes {d : RSlot} {ch : Nat} {data : List Byte} {s : State} : Completes s (execLadleReadData d ch data s) :=
  .ite (.next (by simp)) (.next rfl)

theorem execLadleDescriptorEnd_completes {d : RSlot} {ch : Nat} {s : State} : Completes s (execLadleDescriptorEnd d ch s) :=
  .ite (.next (by simp)) (.next rfl)

theorem execLadleBusError_completes {d : RSlot} {ch : Nat} {s : State} : Completes s (execLadleBusError d ch s) :=
  .ite (.next (by simp)) (.next rfl)

theorem execIsolationPass_completes {d : RSlot} {skip : Bool} {s : State} : Completes s (execIsolationPass d skip s) :=
  .ite (.next (by simp)) (.next rfl)

theorem execNext_completes {e : Eng} {s : State} : Completes s (execNext e s) :=
  .next (by simp)

theorem execJump_completes {e : Eng} {s : State} : Completes s (execJump e s) :=
  .next (by simp)

theorem execBranch_completes {e : Eng} {s : State} : Completes s (execBranch e s) :=
  .next (by simp)

theorem execCall_completes {e : Eng} {s : State} : Completes s (execCall e s) :=
  .next (by simp)

theorem execCallc_completes {e : Eng} {s : State} : Completes s (execCallc e s) :=
  .next (by simp)

theorem execReturnOp_completes {e : Eng} {s : State} : Completes s (execReturnOp e s) :=
  .next (by simp)

theorem execLoop_completes {e : Eng} {s : State} : Completes s (execLoop e s) :=
  .next (by simp)

theorem execDispatch_completes {e : Eng} {s : State} : Completes s (execDispatch e s) :=
  .next (by simp)

theorem execWaitOp_completes {e : Eng} {s : State} : Completes s (execWaitOp e s) :=
  .next (by simp)

theorem execEndOp_completes {e : Eng} {s : State} : Completes s (execEndOp e s) :=
  .next (by simp)

theorem execEventPost_completes {e : Eng} {cls : Nat} {data : BitVec 64} {s : State} : Completes s (execEventPost e cls data s) :=
  .next (by simp)

theorem execResponseArrival_completes {e : Eng} {p : RespPort} {v : BitVec 64} {ok drained poisoned queued : Bool} {s : State} : Completes s (execResponseArrival e p v ok drained poisoned queued s) :=
  .next (by simp)

theorem execEngineTimerExpire_completes {e : Eng} {s : State} : Completes s (execEngineTimerExpire e s) := by
  cases e with
  | curd g => exact .next (by simp)
  | rind d i => exact .ite (.next rfl) (.next (by simp -implicitDefEqProofs))

theorem execRoutineTimeout_completes {e : Eng} {s : State} : Completes s (execRoutineTimeout e s) :=
  .ite (.ite (.next (by simp)) (.next (by simp))) (.next rfl)

theorem execMemLoad_completes {e : Eng} {addr : Nat} {s : State} : Completes s (execMemLoad e addr s) := by
  fun_cases execMemLoad <;> exact .next (by simp +zetaDelta)

theorem execMemStore_completes {e : Eng} {addr : Nat} {v : BitVec 64} {s : State} : Completes s (execMemStore e addr v s) := by
  fun_cases execMemStore <;> exact .next (by simp +zetaDelta)

theorem execMailboxPost_completes {d : RSlot} {target : Nat} {v : BitVec 64} {s : State} : Completes s (execMailboxPost d target v s) :=
  .ite (.next (by simp)) (.next rfl)

theorem execFinvikOpen_completes {e : Eng} {v : BitVec 64} {s : State} : Completes s (execFinvikOpen e v s) :=
  .ite (.next (by simp)) (.next rfl)

theorem execFinvikAppend_completes {e : Eng} {v : BitVec 64} {s : State} : Completes s (execFinvikAppend e v s) := by
  fun_cases execFinvikAppend <;> exact .next (by simp +zetaDelta)

theorem execFinvikClose_completes {e : Eng} {s : State} : Completes s (execFinvikClose e s) := by
  fun_cases execFinvikClose with
  | case1 => exact .next rfl
  | case2 => exact .next (by simp)
  | case3 _ slot cls ws _ u => exact .next (by simp [u])
  | case4 _ slot cls ws _ u => exact .next (by simp [u])
  | case5 _ slot cls ws _ u l _ _ r v =>
    have hr : r.2.fuses = s.fuses := by simp [r, u]
    clear_value r
    have hv : v.fuses = s.fuses := by
      simp only [v]
      repeat' split
      all_goals simp [hr]
    exact .next (by simp [hv])

theorem execReadCommandRecord_completes {d : RSlot} {eng port tag : Nat} {s : State} : Completes s (execReadCommandRecord d eng port tag s) := by
  fun_cases execReadCommandRecord <;> exact .next (by simp +zetaDelta)

theorem execGenerateCompletion_completes {port tag : Nat} {s : State} : Completes s (execGenerateCompletion port tag s) :=
  .next (by simp)

theorem execTakeMediaOperation_completes {g : Nat} {times : List Nat} {s : State} : Completes s (execTakeMediaOperation g times s) := by
  fun_cases execTakeMediaOperation <;> exact .next (by simp +zetaDelta)

theorem execReleaseHazard_completes {port tag : Nat} {s : State} : Completes s (execReleaseHazard port tag s) := by
  fun_cases execReleaseHazard <;> exact .next (by simp +zetaDelta)

theorem execXlatLookup_completes {eng vol blk : Nat} {s : State} : Completes s (execXlatLookup eng vol blk s) :=
  .next (by simp)

theorem execXlatApplyChange_completes {c : TableChange} {s : State} : Completes s (execXlatApplyChange c s) :=
  .ite (.next rfl) (.next (by simp))

theorem execCaveMaintStart_completes {d : RSlot} {op : Nat} {spareLocked : Bool} {s : State} : Completes s (execCaveMaintStart d op spareLocked s) :=
  .ite (.next rfl) (.next (by simp))

theorem execStepStateRead_completes {d : RSlot} {eng : Nat} {s : State} : Completes s (execStepStateRead d eng s) :=
  .next (by simp)

theorem execBudgetRead_completes {d : RSlot} {eng : Nat} {s : State} : Completes s (execBudgetRead d eng s) :=
  .next (by simp)

theorem execVaultRungStart_completes {g idx rung : Nat} {s : State} : Completes s (execVaultRungStart g idx rung s) :=
  .ite (.next rfl) (.next (by simp))

theorem execReadOutcome_completes {g pos : Nat} {s : State} : Completes s (execReadOutcome g pos s) :=
  .next (by simp)

theorem execStepMessage_completes {d : RSlot} {m : StepMsg} {s : State} : Completes s (execStepMessage d m s) := by
  fun_cases execStepMessage with
  | case1 _ u v => exact .next (by simp [v, u])
  | case2 _ was u v _ _ r w =>
    have hr : r.1.fuses = s.fuses := by
      refine (State.fuses_foldl_in Prod.fst fun q e => ?_).trans (by simp [v, u])
      dsimp only
      repeat' split
      all_goals simp
    have hw : w.fuses = s.fuses := by simp [w, hr]
    exact .next (by simp [hw])
  | case3 _ u v => exact .next (by simp [v, u])
  | case4 => exact .next rfl

theorem execStepProcess_completes {d : RSlot} {s : State} : Completes s (execStepProcess d s) := by
  fun_cases execStepProcess <;> exact .next (by simp +zetaDelta)

theorem execFwdMessage_completes {d : RSlot} {lseq : Nat} {c : FwdBody} {s : State} : Completes s (execFwdMessage d lseq c s) :=
  .ite (.next (by simp)) (.next rfl)

theorem execContentRequest_completes {k : Nat} {s : State} : Completes s (execContentRequest k s) := by
  fun_cases execContentRequest <;> exact .next (by simp +zetaDelta)

theorem execDigestBlockClose_completes {s : State} : Completes s (execDigestBlockClose s) :=
  .ite (.next (by simp)) (.next rfl)

theorem execDigestMessage_completes {d : RSlot} {block : Nat} {digest : BitVec 64} {flags : Nat} {s : State} : Completes s (execDigestMessage d block digest flags s) := by
  fun_cases execDigestMessage <;> exact .next (by simp +zetaDelta)

theorem execDigestOverdue_completes {d : RSlot} {block : Nat} {s : State} : Completes s (execDigestOverdue d block s) :=
  .ite (.next (by simp)) (.next rfl)

theorem execTurning_completes {s : State} : Completes s (execTurning s) :=
  .next (by simp)

theorem execClaimRetry_completes {d : RSlot} {s : State} : Completes s (execClaimRetry d s) :=
  .ite (.next (by simp)) (.next rfl)

theorem execSplitDeadline_completes {d : RSlot} {s : State} : Completes s (execSplitDeadline d s) :=
  .next (by simp)

theorem execSplitReinit_completes {s : State} : Completes s (execSplitReinit s) :=
  .ite (.next (by simp)) (.next rfl)

theorem execCopyMessage_completes {d : RSlot} {addr : Nat} {data : List Byte} {poison : Bool} {s : State} : Completes s (execCopyMessage d addr data poison s) := by
  fun_cases execCopyMessage <;> exact .next (by simp -implicitDefEqProofs +zetaDelta)

theorem execResyncCopyDone_completes {s : State} : Completes s (execResyncCopyDone s) := by
  fun_cases execResyncCopyDone <;> exact .next (by simp -implicitDefEqProofs +zetaDelta)

theorem execResyncStateCopy_completes {s : State} : Completes s (execResyncStateCopy s) := by
  fun_cases execResyncStateCopy <;> exact .next (by simp -implicitDefEqProofs +zetaDelta)

theorem execBudgetCycle_completes {s : State} : Completes s (execBudgetCycle s) :=
  .next (by simp)

theorem execBudgetInputWrite_completes {d : RSlot} {s : State} : Completes s (execBudgetInputWrite d s) := by
  fun_cases execBudgetInputWrite <;> exact .next (by simp -implicitDefEqProofs +zetaDelta)

theorem execDiodeSample_completes {die : Die} {deciC : Int} {s : State} : Completes s (execDiodeSample die deciC s) :=
  .ite (.next rfl) (.ite (.next (by simp)) (.ite (.next (by simp)) (.ite (.next (by simp)) (.next rfl))))

theorem execCurdReportMissing_completes {g : Nat} {s : State} : Completes s (execCurdReportMissing g s) :=
  .ite (.next (by simp)) (.next rfl)

theorem execGraceExpire_completes {s : State} : Completes s (execGraceExpire s) :=
  .ite (.next (by simp)) (.next rfl)

theorem execThrottleDepthTick_completes {s : State} : Completes s (execThrottleDepthTick s) :=
  .ite (.next (by simp)) (.next rfl)

theorem execActiveGroupRechoose_completes {s : State} : Completes s (execActiveGroupRechoose s) :=
  .next (by simp)

theorem execSpindleRaiseWait_completes {s : State} : Completes s (execSpindleRaiseWait s) :=
  .next (by simp)

theorem execRaiseHoldExpire_completes {s : State} : Completes s (execRaiseHoldExpire s) :=
  .ite (.next (by simp)) (.next rfl)

theorem execFaultRaise_completes {d : RSlot} {src : Nat} {detail : Nat} {s : State} : Completes s (execFaultRaise d src detail s) :=
  .ite (.next (by simp)) (.next rfl)

theorem execCountWindowExpire_completes {d : RSlot} {src : Nat} {quiet : Bool} {s : State} : Completes s (execCountWindowExpire d src quiet s) :=
  .ite (.next (by simp)) (.next rfl)

theorem execQuietExpire_completes {s : State} : Completes s (execQuietExpire s) :=
  .next (by simp)

theorem execWriteOutTimeout_completes {s : State} : Completes s (execWriteOutTimeout s) :=
  .ite (.next (by simp)) (.next rfl)

theorem execCloseoutTimeout_completes {s : State} : Completes s (execCloseoutTimeout s) :=
  .next (by simp)

theorem execLogRecordProgrammed_completes {good : Bool} {s : State} : Completes s (execLogRecordProgrammed good s) := by
  fun_cases execLogRecordProgrammed <;> exact .next (by simp +zetaDelta)

theorem execLogSectorErased_completes {s : State} : Completes s (execLogSectorErased s) := by
  fun_cases execLogSectorErased <;> exact .next (by simp +zetaDelta)

theorem execLogScanDone_completes {d : RSlot} {s : State} : Completes s (execLogScanDone d s) :=
  .ite (.next (by simp)) (.ite (.next (by simp)) (.next rfl))

theorem execLogWriterTakeover_completes {s : State} : Completes s (execLogWriterTakeover s) :=
  .ite (.next (by simp)) (.next rfl)

theorem execOperatingMark_completes {d : RSlot} {s : State} : Completes s (execOperatingMark d s) :=
  .next (by simp)

theorem execTallySnapshot_completes {d : RSlot} {s : State} : Completes s (execTallySnapshot d s) :=
  .next (by simp)

theorem execTallyCheck_completes {d : RSlot} {s : State} : Completes s (execTallyCheck d s) :=
  .ite (.next (by simp)) (.next rfl)

theorem execShockRelease_completes {s : State} : Completes s (execShockRelease s) :=
  .next (by simp -implicitDefEqProofs)

theorem execPaFltNRise_completes {g : Nat} {s : State} : Completes s (execPaFltNRise g s) :=
  .ite (.next (by simp)) (.next rfl)

theorem execRailRecovered_completes {g : Nat} {s : State} : Completes s (execRailRecovered g s) :=
  .ite (.next (by simp)) (.next rfl)

/-- What no command can do, said once for all of them: take back or unmake what `Kept` names, burn another key, refuse, or fault. -/
theorem exec_completes : ∀ (c : Instr) (s : State), OutKept s (exec c s) ∧ Completes s (exec c s)
  | .powerOnResetRelease _ _, s => ⟨execPowerOnResetRelease_kept (.refl s), execPowerOnResetRelease_completes⟩
  | .powerOnResetEntry _, s => ⟨execPowerOnResetEntry_kept (.refl s), execPowerOnResetEntry_completes⟩
  | .resetNFall, s => ⟨execResetNFall_kept (.refl s), execResetNFall_completes⟩
  | .resetNRise _, s => ⟨execResetNRise_kept (.refl s), execResetNRise_completes⟩
  | .vinSample _, s => ⟨execVinSample_kept (.refl s), execVinSample_completes⟩
  | .sagPauseEnd, s => ⟨execSagPauseEnd_kept (.refl s), execSagPauseEnd_completes⟩
  | .supplyHoldExpire, s => ⟨execSupplyHoldExpire_kept (.refl s), execSupplyHoldExpire_completes⟩
  | .supplyRestart, s => ⟨execSupplyRestart_kept (.refl s), execSupplyRestart_completes⟩
  | .perstAssert _ _, s => ⟨execPerstAssert_kept (.refl s), execPerstAssert_completes⟩
  | .perstDeassert _ _, s => ⟨execPerstDeassert_kept (.refl s), execPerstDeassert_completes⟩
  | .shockAssert, s => ⟨execShockAssert_kept (.refl s), execShockAssert_completes⟩
  | .shockHoldExpire _, s => ⟨execShockHoldExpire_kept (.refl s), execShockHoldExpire_completes⟩
  | .shockStuck _, s => ⟨execShockStuck_kept (.refl s), execShockStuck_completes⟩
  | .spdlimSample _ _, s => ⟨execSpdlimSample_kept (.refl s), execSpdlimSample_completes⟩
  | .spdlimOpen, s => ⟨execSpdlimOpen_kept (.refl s), execSpdlimOpen_completes⟩
  | .spdlimValidPersist, s => ⟨execSpdlimValidPersist_kept (.refl s), execSpdlimValidPersist_completes⟩
  | .spdlimCeilingRaise, s => ⟨execSpdlimCeilingRaise_kept (.refl s), execSpdlimCeilingRaise_completes⟩
  | .testPortActive, s => ⟨execTestPortActive_kept (.refl s), execTestPortActive_completes⟩
  | .timebaseLost _, s => ⟨execTimebaseLost_kept (.refl s), execTimebaseLost_completes⟩
  | .aliveToggle, s => ⟨execAliveToggle_kept (.refl s), execAliveToggle_completes⟩
  | .aliveTakeover, s => ⟨execAliveTakeover_kept (.refl s), execAliveTakeover_completes⟩
  | .railMonitorLow _ _, s => ⟨execRailMonitorLow_kept (.refl s), execRailMonitorLow_completes⟩
  | .pmbusOperation _ _ _, s => ⟨execPmbusOperation_kept (.refl s), execPmbusOperation_completes⟩
  | .pmbusClearFaults _ _, s => ⟨execPmbusClearFaults_kept (.refl s), execPmbusClearFaults_completes⟩
  | .pmbusVoutCommand _ _, s => ⟨execPmbusVoutCommand_kept (.refl s), execPmbusVoutCommand_completes⟩
  | .pmbusStatusWord _ _ _, s => ⟨execPmbusStatusWord_kept (.refl s), execPmbusStatusWord_completes⟩
  | .pmbusReadVout _ _ _, s => ⟨execPmbusReadVout_kept (.refl s), execPmbusReadVout_completes⟩
  | .pmbusReadIout _ _ _, s => ⟨execPmbusReadIout_kept (.refl s), execPmbusReadIout_completes⟩
  | .pmbusTakeover, s => ⟨execPmbusTakeover_kept (.refl s), execPmbusTakeover_completes⟩
  | .sfBusRequest _, s => ⟨execSfBusRequest_kept (.refl s), execSfBusRequest_completes⟩
  | .sfBusGrant, s => ⟨execSfBusGrant_kept (.refl s), execSfBusGrant_completes⟩
  | .sbSetAddress _ _ _, s => ⟨execSbSetAddress_kept (.refl s), execSbSetAddress_completes⟩
  | .sbReadWord _ _, s => ⟨execSbReadWord_kept (.refl s), execSbReadWord_completes⟩
  | .sbWriteWord _ _ _, s => ⟨execSbWriteWord_kept (.refl s), execSbWriteWord_completes⟩
  | .sbReadResult _ _, s => ⟨execSbReadResult_kept (.refl s), execSbReadResult_completes⟩
  | .sbCoreTimeout _, s => ⟨execSbCoreTimeout_kept (.refl s), execSbCoreTimeout_completes⟩
  | .startHeader _, s => ⟨execStartHeader_kept (.refl s), execStartHeader_completes⟩
  | .linkFirstHandshake _ _, s => ⟨execLinkFirstHandshake_kept (.refl s), execLinkFirstHandshake_completes⟩
  | .startLoad _, s => ⟨execStartLoad_kept (.refl s), execStartLoad_completes⟩
  | .curdImageLoad _, s => ⟨execCurdImageLoad_kept (.refl s), execCurdImageLoad_completes⟩
  | .startSettings _, s => ⟨execStartSettings_kept (.refl s), execStartSettings_completes⟩
  | .startDigestExchange _, s => ⟨execStartDigestExchange_kept (.refl s), execStartDigestExchange_completes⟩
  | .startMemorySpindle, s => ⟨execStartMemorySpindle_kept (.refl s), execStartMemorySpindle_completes⟩
  | .dramTrainingDone _ _, s => ⟨execDramTrainingDone_kept (.refl s), execDramTrainingDone_completes⟩
  | .dramFillDone _, s => ⟨execDramFillDone_kept (.refl s), execDramFillDone_completes⟩
  | .headsRelease _, s => ⟨execHeadsRelease_kept (.refl s), execHeadsRelease_completes⟩
  | .startReady _, s => ⟨execStartReady_kept (.refl s), execStartReady_completes⟩
  | .startWatchdogExpire, s => ⟨execStartWatchdogExpire_kept (.refl s), execStartWatchdogExpire_completes⟩
  | .thermalWaitEnd, s => ⟨execThermalWaitEnd_kept (.refl s), execThermalWaitEnd_completes⟩
  | .headerWriteDone _, s => ⟨execHeaderWriteDone_kept (.refl s), execHeaderWriteDone_completes⟩
  | .finvikMessageReceive _ _ _ _, s => ⟨execFinvikMessageReceive_kept (.refl s), execFinvikMessageReceive_completes⟩
  | .lcwCreditAck _ _ _, s => ⟨execLcwCreditAck_kept (.refl s), execLcwCreditAck_completes⟩
  | .lcwReplayRequest _ _ _, s => ⟨execLcwReplayRequest_kept (.refl s), execLcwReplayRequest_completes⟩
  | .lcwResetReport _ _ _, s => ⟨execLcwResetReport_kept (.refl s), execLcwResetReport_completes⟩
  | .lcwPeriodic _, s => ⟨execLcwPeriodic_kept (.refl s), execLcwPeriodic_completes⟩
  | .linkDown _ _, s => ⟨execLinkDown_kept (.refl s), execLinkDown_completes⟩
  | .stepKeepalive _, s => ⟨execStepKeepalive_kept (.refl s), execStepKeepalive_completes⟩
  | .stepLinkLost, s => ⟨execStepLinkLost_kept (.refl s), execStepLinkLost_completes⟩
  | .stallWatchFire _, s => ⟨execStallWatchFire_kept (.refl s), execStallWatchFire_completes⟩
  | .headTrained _ _ _, s => ⟨execHeadTrained_kept (.refl s), execHeadTrained_completes⟩
  | .headDown _ _, s => ⟨execHeadDown_kept (.refl s), execHeadDown_completes⟩
  | .cxlMemLoad _ _ _ _, s => ⟨execCxlMemLoad_kept (.refl s), execCxlMemLoad_completes⟩
  | .cxlMemStore _ _ _ _, s => ⟨execCxlMemStore_kept (.refl s), execCxlMemStore_completes⟩
  | .globalPersistentFlush d h, s => ⟨@execGlobalPersistentFlush_kept s d h s (.refl s), @execGlobalPersistentFlush_completes d h s⟩
  | .setupWrite _ _ _ _ _, s => ⟨execSetupWrite_kept (.refl s), execSetupWrite_completes⟩
  | .rcRead _ _ _ _, s => ⟨execRcRead_kept (.refl s), execRcRead_completes⟩
  | .unlockWrite _ _ _ _, s => ⟨execUnlockWrite_kept (.refl s), execUnlockWrite_completes⟩
  | .unlockArmLapse _ _ _, s => ⟨execUnlockArmLapse_kept (.refl s), execUnlockArmLapse_completes⟩
  | .domcfgWrite _ _ _ _, s => ⟨execDomcfgWrite_kept (.refl s), execDomcfgWrite_completes⟩
  | .portEnable _ _ _ _, s => ⟨execPortEnable_kept (.refl s), execPortEnable_completes⟩
  | .portDisable _ _ _ _, s => ⟨execPortDisable_kept (.refl s), execPortDisable_completes⟩
  | .statusLineAddressWrite _ _ _ _ _, s => ⟨execStatusLineAddressWrite_kept (.refl s), execStatusLineAddressWrite_completes⟩
  | .caveEnable _ _ _, s => ⟨execCaveEnable_kept (.refl s), execCaveEnable_completes⟩
  | .caveInv _ _ _, s => ⟨execCaveInv_kept (.refl s), execCaveInv_completes⟩
  | .caveClean _ _ _, s => ⟨execCaveClean_kept (.refl s), execCaveClean_completes⟩
  | .caveCleaninv _ _ _, s => ⟨execCaveCleaninv_kept (.refl s), execCaveCleaninv_completes⟩
  | .caveMaintDone _, s => ⟨execCaveMaintDone_kept (.refl s), execCaveMaintDone_completes⟩
  | .stepTurnnow _ _, s => ⟨execStepTurnnow_kept (.refl s), execStepTurnnow_completes⟩
  | .stepResync _ _, s => ⟨execStepResync_kept (.refl s), execStepResync_completes⟩
  | .faultUnlatch _ _, s => ⟨execFaultUnlatch_kept (.refl s), execFaultUnlatch_completes⟩
  | .faultAbandon _ _, s => ⟨execFaultAbandon_kept (.refl s), execFaultAbandon_completes⟩
  | .logFreeze _ _, s => ⟨execLogFreeze_kept (.refl s), execLogFreeze_completes⟩
  | .logUnfreeze _ _, s => ⟨execLogUnfreeze_kept (.refl s), execLogUnfreeze_completes⟩
  | .logFreezeLapse, s => ⟨execLogFreezeLapse_kept (.refl s), execLogFreezeLapse_completes⟩
  | .faultInjArm _ _ _, s => ⟨execFaultInjArm_kept (.refl s), execFaultInjArm_completes⟩
  | .faultInjRaise _ _ _, s => ⟨execFaultInjRaise_kept (.refl s), execFaultInjRaise_completes⟩
  | .faultInjCaveParity _ _ _, s => ⟨execFaultInjCaveParity_kept (.refl s), execFaultInjCaveParity_completes⟩
  | .faultInjWithholdAck _ _ _, s => ⟨execFaultInjWithholdAck_kept (.refl s), execFaultInjWithholdAck_completes⟩
  | .faultInjFinvikCrc _ _ _, s => ⟨execFaultInjFinvikCrc_kept (.refl s), execFaultInjFinvikCrc_completes⟩
  | .faultInjDramSymbol _ _ _, s => ⟨execFaultInjDramSymbol_kept (.refl s), execFaultInjDramSymbol_completes⟩
  | .doorbellSnoop _ _, s => ⟨execDoorbellSnoop_kept (.refl s), execDoorbellSnoop_completes⟩
  | .doorbellReadComplete _ _ _ _, s => ⟨execDoorbellReadComplete_kept (.refl s), execDoorbellReadComplete_completes⟩
  | .doorbellPoll _ _, s => ⟨execDoorbellPoll_kept (.refl s), execDoorbellPoll_completes⟩
  | .doorbellBackstop _, s => ⟨execDoorbellBackstop_kept (.refl s), execDoorbellBackstop_completes⟩
  | .doorbellReadTimeout _ _, s => ⟨execDoorbellReadTimeout_kept (.refl s), execDoorbellReadTimeout_completes⟩
  | .fetchGrant _, s => ⟨execFetchGrant_kept (.refl s), execFetchGrant_completes⟩
  | .descriptorFetchTimeout _ _, s => ⟨execDescriptorFetchTimeout_kept (.refl s), execDescriptorFetchTimeout_completes⟩
  | .statusLineUpdate _ _, s => ⟨execStatusLineUpdate_kept (.refl s), execStatusLineUpdate_completes⟩
  | .rewritePass _, s => ⟨execRewritePass_kept (.refl s), execRewritePass_completes⟩
  | .read _, s => ⟨execRead_kept (.refl s), execRead_completes⟩
  | .write _, s => ⟨execWrite_kept (.refl s), execWrite_completes⟩
  | .append _, s => ⟨execAppend_kept (.refl s), execAppend_completes⟩
  | .fence _, s => ⟨execFence_kept (.refl s), execFence_completes⟩
  | .flush _, s => ⟨execFlush_kept (.refl s), execFlush_completes⟩
  | .trim _, s => ⟨execTrim_kept (.refl s), execTrim_completes⟩
  | .copy _, s => ⟨execCopy_kept (.refl s), execCopy_completes⟩
  | .winmap _, s => ⟨execWinmap_kept (.refl s), execWinmap_completes⟩
  | .abort _, s => ⟨execAbort_kept (.refl s), execAbort_completes⟩
  | .invalidOpcode _, s => ⟨execInvalidOpcode_kept (.refl s), execInvalidOpcode_completes⟩
  | .identify _, s => ⟨execIdentify_kept (.refl s), execIdentify_completes⟩
  | .getLog _, s => ⟨execGetLog_kept (.refl s), execGetLog_completes⟩
  | .getFeatures _, s => ⟨execGetFeatures_kept (.refl s), execGetFeatures_completes⟩
  | .setFeaturesPowercap _, s => ⟨execSetFeaturesPowercap_kept (.refl s), execSetFeaturesPowercap_completes⟩
  | .setFeaturesThermal _, s => ⟨execSetFeaturesThermal_kept (.refl s), execSetFeaturesThermal_completes⟩
  | .setFeaturesTurning _, s => ⟨execSetFeaturesTurning_kept (.refl s), execSetFeaturesTurning_completes⟩
  | .setFeaturesWindow _, s => ⟨execSetFeaturesWindow_kept (.refl s), execSetFeaturesWindow_completes⟩
  | .setFeaturesRide _, s => ⟨execSetFeaturesRide_kept (.refl s), execSetFeaturesRide_completes⟩
  | .setFeaturesFaultsev _, s => ⟨execSetFeaturesFaultsev_kept (.refl s), execSetFeaturesFaultsev_completes⟩
  | .setFeaturesFaultclr _, s => ⟨execSetFeaturesFaultclr_kept (.refl s), execSetFeaturesFaultclr_completes⟩
  | .volumeCreate _, s => ⟨execVolumeCreate_kept (.refl s), execVolumeCreate_completes⟩
  | .volumeChange _, s => ⟨execVolumeChange_kept (.refl s), execVolumeChange_completes⟩
  | .volumeDelete _, s => ⟨execVolumeDelete_kept (.refl s), execVolumeDelete_completes⟩
  | .settingsSaveDone _, s => ⟨execSettingsSaveDone_kept (.refl s), execSettingsSaveDone_completes⟩
  | .fwDownload _ _, s => ⟨execFwDownload_kept (.refl s), execFwDownload_completes⟩
  | .fwChunkProgrammed _, s => ⟨execFwChunkProgrammed_kept (.refl s), execFwChunkProgrammed_completes⟩
  | .fwSessionTimeout, s => ⟨execFwSessionTimeout_kept (.refl s), execFwSessionTimeout_completes⟩
  | .fwActivate _, s => ⟨execFwActivate_kept (.refl s), execFwActivate_completes⟩
  | .commandTimeout _ _ _, s => ⟨execCommandTimeout_kept (.refl s), execCommandTimeout_completes⟩
  | .journalTimer, s => ⟨execJournalTimer_kept (.refl s), execJournalTimer_completes⟩
  | .cleaningStart _, s => ⟨execCleaningStart_kept (.refl s), execCleaningStart_completes⟩
  | .sectorRead _ _ _, s => ⟨execSectorRead_kept (.refl s), execSectorRead_completes⟩
  | .sectorWrite _ _ _, s => ⟨execSectorWrite_kept (.refl s), execSectorWrite_completes⟩
  | .sectorVerify _ _ _, s => ⟨execSectorVerify_kept (.refl s), execSectorVerify_completes⟩
  | .sectorOldread _ _ _, s => ⟨execSectorOldread_kept (.refl s), execSectorOldread_completes⟩
  | .sectorParity _ _ _, s => ⟨execSectorParity_kept (.refl s), execSectorParity_completes⟩
  | .dataMessage _ _, s => ⟨execDataMessage_kept (.refl s), execDataMessage_completes⟩
  | .runStart _, s => ⟨execRunStart_kept (.refl s), execRunStart_completes⟩
  | .gatePost _ _ _, s => ⟨execGatePost_kept (.refl s), execGatePost_completes⟩
  | .gateEvent _ _, s => ⟨execGateEvent_kept (.refl s), execGateEvent_completes⟩
  | .sectorDecode _ _ _, s => ⟨execSectorDecode_kept (.refl s), execSectorDecode_completes⟩
  | .vaultRung _ _, s => ⟨execVaultRung_kept (.refl s), execVaultRung_completes⟩
  | .rebuild _ _, s => ⟨execRebuild_kept (.refl s), execRebuild_completes⟩
  | .readerSettled _, s => ⟨execReaderSettled_kept (.refl s), execReaderSettled_completes⟩
  | .rptSectorOutcome _ _ _ _, s => ⟨execRptSectorOutcome_kept (.refl s), execRptSectorOutcome_completes⟩
  | .rptRunEnd _ _, s => ⟨execRptRunEnd_kept (.refl s), execRptRunEnd_completes⟩
  | .rptShockEvent _ _, s => ⟨execRptShockEvent_kept (.refl s), execRptShockEvent_completes⟩
  | .rptSpindle _ _ _ _, s => ⟨execRptSpindle_kept (.refl s), execRptSpindle_completes⟩
  | .rptCurdMismatch _ _ _ _, s => ⟨execRptCurdMismatch_kept (.refl s), execRptCurdMismatch_completes⟩
  | .rptDieReport _ _, s => ⟨execRptDieReport_kept (.refl s), execRptDieReport_completes⟩
  | .rptFault _ _ _, s => ⟨execRptFault_kept (.refl s), execRptFault_completes⟩
  | .curdDieReportTimer _, s => ⟨execCurdDieReportTimer_kept (.refl s), execCurdDieReportTimer_completes⟩
  | .spindleReportTimer, s => ⟨execSpindleReportTimer_kept (.refl s), execSpindleReportTimer_completes⟩
  | .spindleSetpoint _ _, s => ⟨execSpindleSetpoint_kept (.refl s), execSpindleSetpoint_completes⟩
  | .groupOrder _ _ _, s => ⟨execGroupOrder_kept (.refl s), execGroupOrder_completes⟩
  | .endRuns _ _ _, s => ⟨execEndRuns_kept (.refl s), execEndRuns_completes⟩
  | .retractOrder _, s => ⟨execRetractOrder_kept (.refl s), execRetractOrder_completes⟩
  | .curdSetupAccess _ _ _ _ _, s => ⟨execCurdSetupAccess_kept (.refl s), execCurdSetupAccess_completes⟩
  | .lease _ _ _ _, s => ⟨execLease_kept (.refl s), execLease_completes⟩
  | .leaseConfirm _ _ _, s => ⟨execLeaseConfirm_kept (.refl s), execLeaseConfirm_completes⟩
  | .leaseClaim _ _ _, s => ⟨execLeaseClaim_kept (.refl s), execLeaseClaim_completes⟩
  | .leaseKeepalive _, s => ⟨execLeaseKeepalive_kept (.refl s), execLeaseKeepalive_completes⟩
  | .leaseAnswer _ _ _ _, s => ⟨execLeaseAnswer_kept (.refl s), execLeaseAnswer_completes⟩
  | .curdLinkSilent _ _, s => ⟨execCurdLinkSilent_kept (.refl s), execCurdLinkSilent_completes⟩
  | .synthLock _, s => ⟨execSynthLock_kept (.refl s), execSynthLock_completes⟩
  | .synthLockLoss _, s => ⟨execSynthLockLoss_kept (.refl s), execSynthLockLoss_completes⟩
  | .paFault _ _, s => ⟨execPaFault_kept (.refl s), execPaFault_completes⟩
  | .paFaultPersist _, s => ⟨execPaFaultPersist_kept (.refl s), execPaFaultPersist_completes⟩
  | .paFaultClear _, s => ⟨execPaFaultClear_kept (.refl s), execPaFaultClear_completes⟩
  | .preampWriteFrame _ _ _, s => ⟨execPreampWriteFrame_kept (.refl s), execPreampWriteFrame_completes⟩
  | .preampReadFrame _ _ _, s => ⟨execPreampReadFrame_kept (.refl s), execPreampReadFrame_completes⟩
  | .wedgeSample _ _, s => ⟨execWedgeSample_kept (.refl s), execWedgeSample_completes⟩
  | .innerLoopInstant _ _ _ _, s => ⟨execInnerLoopInstant_kept (.refl s), execInnerLoopInstant_completes⟩
  | .servoTargetRequest _ _ _, s => ⟨execServoTargetRequest_kept (.refl s), execServoTargetRequest_completes⟩
  | .servoStatusRead _, s => ⟨execServoStatusRead_kept (.refl s), execServoStatusRead_completes⟩
  | .loadStart _, s => ⟨execLoadStart_kept (.refl s), execLoadStart_completes⟩
  | .loadTimeout _, s => ⟨execLoadTimeout_kept (.refl s), execLoadTimeout_completes⟩
  | .loadStable _, s => ⟨execLoadStable_kept (.refl s), execLoadStable_completes⟩
  | .retractHoldExpire _, s => ⟨execRetractHoldExpire_kept (.refl s), execRetractHoldExpire_completes⟩
  | .unload _, s => ⟨execUnload_kept (.refl s), execUnload_completes⟩
  | .unloadComplete _, s => ⟨execUnloadComplete_kept (.refl s), execUnloadComplete_completes⟩
  | .linkAbsentUnload _, s => ⟨execLinkAbsentUnload_kept (.refl s), execLinkAbsentUnload_completes⟩
  | .pressHeartbeatLoss _, s => ⟨execPressHeartbeatLoss_kept (.refl s), execPressHeartbeatLoss_completes⟩
  | .pwmValley _, s => ⟨execPwmValley_kept (.refl s), execPwmValley_completes⟩
  | .overvoltageRelease, s => ⟨execOvervoltageRelease_kept (.refl s), execOvervoltageRelease_completes⟩
  | .speedLoopTick, s => ⟨execSpeedLoopTick_kept (.refl s), execSpeedLoopTick_completes⟩
  | .resistanceMeasured _ _ _, s => ⟨execResistanceMeasured_kept (.refl s), execResistanceMeasured_completes⟩
  | .hdaReestimate _, s => ⟨execHdaReestimate_kept (.refl s), execHdaReestimate_completes⟩
  | .cookPairChange _, s => ⟨execCookPairChange_kept (.refl s), execCookPairChange_completes⟩
  | .cookCheck _ _ _, s => ⟨execCookCheck_kept (.refl s), execCookCheck_completes⟩
  | .cookTimeout, s => ⟨execCookTimeout_kept (.refl s), execCookTimeout_completes⟩
  | .startDecision, s => ⟨execStartDecision_kept (.refl s), execStartDecision_completes⟩
  | .chopperTest _ _, s => ⟨execChopperTest_kept (.refl s), execChopperTest_completes⟩
  | .floatEnd, s => ⟨execFloatEnd_kept (.refl s), execFloatEnd_completes⟩
  | .coastDone, s => ⟨execCoastDone_kept (.refl s), execCoastDone_completes⟩
  | .positionSensed _, s => ⟨execPositionSensed_kept (.refl s), execPositionSensed_completes⟩
  | .handoverTimeout, s => ⟨execHandoverTimeout_kept (.refl s), execHandoverTimeout_completes⟩
  | .overcurrent, s => ⟨execOvercurrent_kept (.refl s), execOvercurrent_completes⟩
  | .vmotUndervoltage, s => ⟨execVmotUndervoltage_kept (.refl s), execVmotUndervoltage_completes⟩
  | .vmotRecovered, s => ⟨execVmotRecovered_kept (.refl s), execVmotRecovered_completes⟩
  | .spinHeartbeatLoss, s => ⟨execSpinHeartbeatLoss_kept (.refl s), execSpinHeartbeatLoss_completes⟩
  | .bmemReadComplete _ _ _, s => ⟨execBmemReadComplete_kept (.refl s), execBmemReadComplete_completes⟩
  | .markWindowExpire _ _, s => ⟨execMarkWindowExpire_kept (.refl s), execMarkWindowExpire_completes⟩
  | .mergeAgeExpire _ _, s => ⟨execMergeAgeExpire_kept (.refl s), execMergeAgeExpire_completes⟩
  | .refreshDue _ _ _, s => ⟨execRefreshDue_kept (.refl s), execRefreshDue_completes⟩
  | .refreshRatePoll _ _ _, s => ⟨execRefreshRatePoll_kept (.refl s), execRefreshRatePoll_completes⟩
  | .dramAlert _ _, s => ⟨execDramAlert_kept (.refl s), execDramAlert_completes⟩
  | .pageIdle _ _ _, s => ⟨execPageIdle_kept (.refl s), execPageIdle_completes⟩
  | .alloc _ _ _ _, s => ⟨execAlloc_kept (.refl s), execAlloc_completes⟩
  | .share _ _ _, s => ⟨execShare_kept (.refl s), execShare_completes⟩
  | .release _ _, s => ⟨execRelease_kept (.refl s), execRelease_completes⟩
  | .free _ _, s => ⟨execFree_kept (.refl s), execFree_completes⟩
  | .cancel _ _, s => ⟨execCancel_kept (.refl s), execCancel_completes⟩
  | .caveRead _ _ _ _, s => ⟨execCaveRead_kept (.refl s), execCaveRead_completes⟩
  | .caveWrite _ _ _ _, s => ⟨execCaveWrite_kept (.refl s), execCaveWrite_completes⟩
  | .caveFillComplete _ _, s => ⟨execCaveFillComplete_kept (.refl s), execCaveFillComplete_completes⟩
  | .evictionDrain _, s => ⟨execEvictionDrain_kept (.refl s), execEvictionDrain_completes⟩
  | .ladleShadowWrite _ _ _ _ _, s => ⟨execLadleShadowWrite_kept (.refl s), execLadleShadowWrite_completes⟩
  | .ladleArm _ _ _, s => ⟨execLadleArm_kept (.refl s), execLadleArm_completes⟩
  | .ladleReadState _ _ _, s => ⟨execLadleReadState_kept (.refl s), execLadleReadState_completes⟩
  | .sglEntryFetch _ _ _, s => ⟨execSglEntryFetch_kept (.refl s), execSglEntryFetch_completes⟩
  | .ladleReadData _ _ _, s => ⟨execLadleReadData_kept (.refl s), execLadleReadData_completes⟩
  | .ladleDescriptorEnd _ _, s => ⟨execLadleDescriptorEnd_kept (.refl s), execLadleDescriptorEnd_completes⟩
  | .ladleBusError _ _, s => ⟨execLadleBusError_kept (.refl s), execLadleBusError_completes⟩
  | .isolationPass _ _, s => ⟨execIsolationPass_kept (.refl s), execIsolationPass_completes⟩
  | .next _, s => ⟨execNext_kept (.refl s), execNext_completes⟩
  | .jump _, s => ⟨execJump_kept (.refl s), execJump_completes⟩
  | .branch _, s => ⟨execBranch_kept (.refl s), execBranch_completes⟩
  | .call _, s => ⟨execCall_kept (.refl s), execCall_completes⟩
  | .callc _, s => ⟨execCallc_kept (.refl s), execCallc_completes⟩
  | .returnOp _, s => ⟨execReturnOp_kept (.refl s), execReturnOp_completes⟩
  | .loop _, s => ⟨execLoop_kept (.refl s), execLoop_completes⟩
  | .dispatch _, s => ⟨execDispatch_kept (.refl s), execDispatch_completes⟩
  | .waitOp _, s => ⟨execWaitOp_kept (.refl s), execWaitOp_completes⟩
  | .endOp _, s => ⟨execEndOp_kept (.refl s), execEndOp_completes⟩
  | .eventPost _ _ _, s => ⟨execEventPost_kept (.refl s), execEventPost_completes⟩
  | .responseArrival _ _ _ _ _ _ _, s => ⟨execResponseArrival_kept (.refl s), execResponseArrival_completes⟩
  | .engineTimerExpire _, s => ⟨execEngineTimerExpire_kept (.refl s), execEngineTimerExpire_completes⟩
  | .routineTimeout _, s => ⟨execRoutineTimeout_kept (.refl s), execRoutineTimeout_completes⟩
  | .memLoad _ _, s => ⟨execMemLoad_kept (.refl s), execMemLoad_completes⟩
  | .memStore _ _ _, s => ⟨execMemStore_kept (.refl s), execMemStore_completes⟩
  | .mailboxPost _ _ _, s => ⟨execMailboxPost_kept (.refl s), execMailboxPost_completes⟩
  | .finvikOpen _ _, s => ⟨execFinvikOpen_kept (.refl s), execFinvikOpen_completes⟩
  | .finvikAppend _ _, s => ⟨execFinvikAppend_kept (.refl s), execFinvikAppend_completes⟩
  | .finvikClose _, s => ⟨execFinvikClose_kept (.refl s), execFinvikClose_completes⟩
  | .readCommandRecord _ _ _ _, s => ⟨execReadCommandRecord_kept (.refl s), execReadCommandRecord_completes⟩
  | .generateCompletion _ _, s => ⟨execGenerateCompletion_kept (.refl s), execGenerateCompletion_completes⟩
  | .takeMediaOperation _ _, s => ⟨execTakeMediaOperation_kept (.refl s), execTakeMediaOperation_completes⟩
  | .releaseHazard _ _, s => ⟨execReleaseHazard_kept (.refl s), execReleaseHazard_completes⟩
  | .xlatLookup _ _ _, s => ⟨execXlatLookup_kept (.refl s), execXlatLookup_completes⟩
  | .xlatApplyChange _, s => ⟨execXlatApplyChange_kept (.refl s), execXlatApplyChange_completes⟩
  | .caveMaintStart _ _ _, s => ⟨execCaveMaintStart_kept (.refl s), execCaveMaintStart_completes⟩
  | .stepStateRead _ _, s => ⟨execStepStateRead_kept (.refl s), execStepStateRead_completes⟩
  | .budgetRead _ _, s => ⟨execBudgetRead_kept (.refl s), execBudgetRead_completes⟩
  | .vaultRungStart _ _ _, s => ⟨execVaultRungStart_kept (.refl s), execVaultRungStart_completes⟩
  | .readOutcome _ _, s => ⟨execReadOutcome_kept (.refl s), execReadOutcome_completes⟩
  | .stepMessage _ _, s => ⟨execStepMessage_kept (.refl s), execStepMessage_completes⟩
  | .stepProcess _, s => ⟨execStepProcess_kept (.refl s), execStepProcess_completes⟩
  | .fwdMessage _ _ _, s => ⟨execFwdMessage_kept (.refl s), execFwdMessage_completes⟩
  | .contentRequest _, s => ⟨execContentRequest_kept (.refl s), execContentRequest_completes⟩
  | .digestBlockClose, s => ⟨execDigestBlockClose_kept (.refl s), execDigestBlockClose_completes⟩
  | .digestMessage _ _ _ _, s => ⟨execDigestMessage_kept (.refl s), execDigestMessage_completes⟩
  | .digestOverdue _ _, s => ⟨execDigestOverdue_kept (.refl s), execDigestOverdue_completes⟩
  | .turning, s => ⟨execTurning_kept (.refl s), execTurning_completes⟩
  | .claimRetry _, s => ⟨execClaimRetry_kept (.refl s), execClaimRetry_completes⟩
  | .splitDeadline _, s => ⟨execSplitDeadline_kept (.refl s), execSplitDeadline_completes⟩
  | .splitReinit, s => ⟨execSplitReinit_kept (.refl s), execSplitReinit_completes⟩
  | .copyMessage _ _ _ _, s => ⟨execCopyMessage_kept (.refl s), execCopyMessage_completes⟩
  | .resyncCopyDone, s => ⟨execResyncCopyDone_kept (.refl s), execResyncCopyDone_completes⟩
  | .resyncStateCopy, s => ⟨execResyncStateCopy_kept (.refl s), execResyncStateCopy_completes⟩
  | .budgetCycle, s => ⟨execBudgetCycle_kept (.refl s), execBudgetCycle_completes⟩
  | .budgetInputWrite _, s => ⟨execBudgetInputWrite_kept (.refl s), execBudgetInputWrite_completes⟩
  | .diodeSample _ _, s => ⟨execDiodeSample_kept (.refl s), execDiodeSample_completes⟩
  | .curdReportMissing _, s => ⟨execCurdReportMissing_kept (.refl s), execCurdReportMissing_completes⟩
  | .graceExpire, s => ⟨execGraceExpire_kept (.refl s), execGraceExpire_completes⟩
  | .throttleDepthTick, s => ⟨execThrottleDepthTick_kept (.refl s), execThrottleDepthTick_completes⟩
  | .activeGroupRechoose, s => ⟨execActiveGroupRechoose_kept (.refl s), execActiveGroupRechoose_completes⟩
  | .spindleRaiseWait, s => ⟨execSpindleRaiseWait_kept (.refl s), execSpindleRaiseWait_completes⟩
  | .raiseHoldExpire, s => ⟨execRaiseHoldExpire_kept (.refl s), execRaiseHoldExpire_completes⟩
  | .faultRaise _ _ _, s => ⟨execFaultRaise_kept (.refl s), execFaultRaise_completes⟩
  | .countWindowExpire _ _ _, s => ⟨execCountWindowExpire_kept (.refl s), execCountWindowExpire_completes⟩
  | .quietExpire, s => ⟨execQuietExpire_kept (.refl s), execQuietExpire_completes⟩
  | .writeOutTimeout, s => ⟨execWriteOutTimeout_kept (.refl s), execWriteOutTimeout_completes⟩
  | .closeoutTimeout, s => ⟨execCloseoutTimeout_kept (.refl s), execCloseoutTimeout_completes⟩
  | .logRecordProgrammed _, s => ⟨execLogRecordProgrammed_kept (.refl s), execLogRecordProgrammed_completes⟩
  | .logSectorErased, s => ⟨execLogSectorErased_kept (.refl s), execLogSectorErased_completes⟩
  | .logScanDone _, s => ⟨execLogScanDone_kept (.refl s), execLogScanDone_completes⟩
  | .logWriterTakeover, s => ⟨execLogWriterTakeover_kept (.refl s), execLogWriterTakeover_completes⟩
  | .operatingMark _, s => ⟨execOperatingMark_kept (.refl s), execOperatingMark_completes⟩
  | .tallySnapshot _, s => ⟨execTallySnapshot_kept (.refl s), execTallySnapshot_completes⟩
  | .tallyCheck _, s => ⟨execTallyCheck_kept (.refl s), execTallyCheck_completes⟩
  | .shockRelease, s => ⟨execShockRelease_kept (.refl s), execShockRelease_completes⟩
  | .paFltNRise _, s => ⟨execPaFltNRise_kept (.refl s), execPaFltNRise_completes⟩
  | .railRecovered _, s => ⟨execRailRecovered_kept (.refl s), execRailRecovered_completes⟩

end Sys2Proof.Machine
end

section
/-! What every step keeps: O58 and O59. -/

namespace Sys2Proof.Machine

/-- A step idles where nothing waits; otherwise it runs the front command from the state with the queue's rest, keeps what `Kept` names and leaves the keys. -/
theorem step_cases (s : State) :
    (s.pending = [] ∧ step s = .next (idle s)) ∨
    ∃ t, step s = .next t ∧ Kept { s with pending := s.pending.tail } t ∧ t.fuses.keys = s.fuses.keys := by
  cases h : s.pending with
  | nil => exact .inl ⟨rfl, by simp [step, h]⟩
  | cons c rest =>
    obtain ⟨hkept, t, ht, hkeys⟩ := exec_completes c { s with pending := rest }
    exact .inr ⟨t, by simp [step, h, ht], hkept t ht, hkeys⟩

/-- Settles O58: each command keeps the form from the state it starts on (`exec_completes`), and idling touches the clock alone. -/
theorem stepKeepsTheForm : Obligations.StepKeepsTheForm := by
  intro s t hs ht
  obtain ⟨-, hidle⟩ | ⟨u, hu, hkept, -⟩ := step_cases s
  · cases hidle.symm.trans ht
    exact hs
  · cases hu.symm.trans ht
    exact hkept.canonical hs

/-- Settles O59: `Kept` and the keys for a command, by `exec_completes`; idling moves the clock forward. -/
theorem stepKeepsWhatIsFixed : Obligations.StepKeepsWhatIsFixed := by
  intro s
  obtain ⟨hnil, hidle⟩ | ⟨t, ht, hkept, hkeys⟩ := step_cases s
  · exact ⟨idle s, hidle, rfl, id, rfl, rfl, rfl, fun h => ⟨le_refl _, h⟩, List.suffix_refl _, Nat.le_succ _, le_refl _, by simp [idle, hnil]⟩
  · obtain ⟨hvendor, howner, himage⟩ : t.fuses.vendorHash = s.fuses.vendorHash ∧ t.fuses.ownerHash = s.fuses.ownerHash ∧
        t.fuses.imageKey = s.fuses.imageKey := by simpa [Fuses.keys] using hkeys
    exact ⟨t, ht, hkept.part, hkept.six, hvendor, howner, himage, hkept.fuses.svn, hkept.out, hkept.now.ge, hkept.free, hkept.pending⟩

end Sys2Proof.Machine
end

section
/-! The reset state and reading back: O57 and O60. -/

namespace Sys2Proof.Machine

/-! ## Reset -/

theorem reset_quiet : State.reset.Quiet := by
  refine ⟨rfl, rfl, ?_, ?_⟩ <;> decide

theorem retN_reset (g : Nat) : (State.reset.curd g).retN = false := by
  rcases lt_or_ge g 6 with h | h
  · interval_cases g <;> rfl
  · rw [State.curd, List.getD_eq_default _ _ h]

/-- Settles O57: each part by evaluating the reset state; a register of it reads as its reset value because none is listed. -/
theorem resetState : Obligations.ResetState :=
  ⟨⟨rfl, rfl⟩, reset_quiet, rfl, rfl, rfl, rfl, rfl, rfl, by decide, fun g _ => retN_reset g, rfl, by decide, fun _ => rfl⟩

/-! ## Reading back -/

/-- A field read after a write of another field of the same register, or of any field of a register with another key. -/
theorem State.rd_wr_of_key_ne_or_apart {s : State} {die d v : Nat} {f g : Fld} (hs : s.regsWf = true) (hf : f.lo ≤ f.hi ∧ f.hi < 32)
    (hg : g.lo ≤ g.hi ∧ g.hi < 32) (h : regKey d g.off ≠ regKey die f.off ∨ g.hi < f.lo ∨ f.hi < g.lo) : (s.wr die f v).rd d g = s.rd d g := by
  unfold State.rd State.wr
  by_cases hk : regKey d g.off = regKey die f.off
  · rw [hk, State.word_setWord_self hs, Fld.get_put_other f g v _ hf hg (by tauto)]
  · rw [State.word_setWord_other hk]

theorem State.rd_wr_mod {s : State} {die v : Nat} {f : Fld} (hs : s.regsWf = true) (hf : f.lo ≤ f.hi ∧ f.hi < 32) :
    (s.wr die f v).rd die f = v % 2 ^ (f.hi + 1 - f.lo) := by
  rw [State.rd, State.wr, State.word_setWord_self hs, Fld.get_put_self f v _ hf]

theorem satAdd_top_lt (f : Fld) (a n : Nat) : satAdd f.top a n < 2 ^ (f.hi + 1 - f.lo) :=
  (Nat.min_le_left ..).trans_lt (Nat.sub_lt (Nat.two_pow_pos _) Nat.one_pos)

theorem State.rd_inc {s : State} {die n : Nat} {f : Fld} (hs : s.regsWf = true) (hf : f.lo ≤ f.hi ∧ f.hi < 32) :
    (s.inc die f n).rd die f = min f.top (s.rd die f + n) := by
  rw [State.inc, State.rd_wr_mod hs hf, Nat.mod_eq_of_lt (satAdd_top_lt ..), satAdd]

section
variable {α : Type} [DecidableEq α] {dflt : Nat → α}

/-- The first key of a table in form is the least that reads off its default, so tables that read alike begin alike. -/
theorem Sparse.eq_of_get_eq : ∀ {lo lo' : Nat} {l m : List (Nat × α)}, Sparse.wfFrom dflt lo l = true → Sparse.wfFrom dflt lo' m = true →
    (∀ a, Sparse.get dflt a l = Sparse.get dflt a m) → l = m
  | _, _, [], [], _, _, _ => rfl
  | _, _, [], (k, w) :: m, _, hm, h => by
    simp only [Sparse.wfFrom, Bool.and_eq_true, decide_eq_true_eq] at hm
    exact absurd (by simpa [Sparse.get] using (h k).symm) hm.1.2
  | _, _, (j, v) :: l, [], hl, _, h => by
    simp only [Sparse.wfFrom, Bool.and_eq_true, decide_eq_true_eq] at hl
    exact absurd (by simpa [Sparse.get] using h j) hl.1.2
  | _, _, (j, v) :: l, (k, w) :: m, hl, hm, h => by
    simp only [Sparse.wfFrom, Bool.and_eq_true, decide_eq_true_eq] at hl hm
    obtain ⟨⟨-, hv⟩, hl⟩ := hl
    obtain ⟨⟨-, hw⟩, hm⟩ := hm
    have hj := h j
    have hk := h k
    simp only [Sparse.get, if_true] at hj hk
    obtain hlt | rfl | hgt := lt_trichotomy j k
    · rw [if_neg hlt.ne, Sparse.get_below (by omega) hm] at hj
      exact absurd hj hv
    · obtain rfl : v = w := by simpa using hj
      refine congrArg _ (Sparse.eq_of_get_eq hl hm fun a => ?_)
      by_cases ha : a ≤ j
      · rw [Sparse.get_below (by omega) hl, Sparse.get_below (by omega) hm]
      · have := h a
        simpa [Sparse.get, show a ≠ j by omega] using this
    · rw [if_neg hgt.ne, Sparse.get_below (by omega) hl] at hk
      exact absurd hk.symm hw

end

/-- Settles O60: a register's field by the laws of a put into a word, a memory's byte by the laws of sparse tables. -/
theorem readBack : Obligations.ReadBack := by
  refine ⟨fun die v f s hs hlo hhi => ⟨State.rd_wr_mod hs ⟨hlo, hhi⟩, State.regsWf_wr hs, fun d g glo ghi h => ?_⟩,
    fun die n f s hs hlo hhi => State.rd_inc hs ⟨hlo, hhi⟩,
    fun k a b l hl => ⟨Sparse.wf_put k b hl, Sparse.get_put_self k b hl, fun ha => Sparse.get_put_other b ha⟩,
    fun l m hl hm h => Sparse.eq_of_get_eq hl hm h⟩
  exact State.rd_wr_of_key_ne_or_apart hs ⟨hlo, hhi⟩ ⟨glo, ghi⟩ h

end Sys2Proof.Machine
end

section
/-! The set-up space: O9. -/

namespace Sys2Proof.Machine

/-! ## The dies that serve -/

theorem State.serving_nodup (s : State) : s.serving.Nodup := by
  refine List.Nodup.filter _ ?_
  unfold State.rinds
  split <;> decide

theorem RSlot.code_inj {d e : RSlot} (h : d.code = e.code) : d = e := by
  cases d <;> cases e <;> simp_all [RSlot.code]

theorem regKey_code_inj {d e : RSlot} {off : Nat} (h : regKey d.code off = regKey e.code off) : d = e :=
  RSlot.code_inj (by unfold regKey at h; omega)

theorem State.regsWf_newStep {s : State} {kind src data : Nat} (h : s.regsWf = true) : (newStep kind src data s).regsWf = true :=
  (newStep_kept (.refl s)).regs h

theorem State.rind_modRind_other {s : State} {d e : RSlot} {h : RindDie → RindDie} (hde : e ≠ d) : (s.modRind d h).rind e = s.rind e := by
  cases d <;> cases e <;> simp_all [State.modRind, State.rind]

/-! ## A register stored on each of several dies -/

section
variable {key : RSlot → Nat} {W : State → RSlot → Word}

/-- Store on each die of a list the word that `W` makes of the state so far. -/
def storeOn (key : RSlot → Nat) (W : State → RSlot → Word) (ts : List RSlot) (s : State) : State :=
  ts.foldl (fun t e => t.setWord (key e) (W t e)) s

theorem storeOn_word_other {ts : List RSlot} {s : State} {k : Nat} (h : ∀ e ∈ ts, k ≠ key e) : (storeOn key W ts s).word k = s.word k := by
  induction ts generalizing s with
  | nil => rfl
  | cons d ts ih =>
    exact (ih fun e he => h e (List.mem_cons_of_mem d he)).trans (State.word_setWord_other (h d List.mem_cons_self))

/-- Where `W` at one die does not look at the register of another, the dies hold what `W` makes of the first state. -/
theorem storeOn_word_of_mem {ts : List RSlot} {s : State} {e : RSlot} (hkey : ∀ d e, key d = key e → d = e)
    (hW : ∀ t d e w, e ≠ d → W (t.setWord (key d) w) e = W t e) (hs : s.regsWf = true) (hts : ts.Nodup) (he : e ∈ ts) :
    (storeOn key W ts s).word (key e) = W s e := by
  induction ts generalizing s with
  | nil => cases he
  | cons d ts ih =>
    obtain ⟨hd, hts⟩ := List.nodup_cons.mp hts
    obtain rfl | he := List.mem_cons.mp he
    · exact (storeOn_word_other fun x hx hk => hd (hkey e x hk ▸ hx)).trans (State.word_setWord_self hs)
    · have hed : e ≠ d := fun h => hd (h ▸ he)
      exact (ih (State.regsWf_setWord hs) hts he).trans (hW s d e _ hed)

/-- Storing words changes the registers alone. -/
theorem storeOn_field {γ : Type} (π : State → γ) (h : ∀ t k w, π (t.setWord k w) = π t) {ts : List RSlot} {s : State} :
    π (storeOn key W ts s) = π s := foldl_field π fun t e => h t (key e) (W t e)

end

/-! ## Writes -/

/-- The word that a write of `v` leaves in a die's register at `addr`, as the access codes and clamps say (R12, R13). -/
def writtenWord (addr : Nat) (rd : RegDef) (v : Word) (t : State) (e : RSlot) : Word :=
  storeWord t.part t.ilimTop (t.rdR e R.BUDGET_WAT_HIWAT) rd (t.word (regKey e.code addr)) v

/-- The word on one die reads that die's register and the high-water mark, neither of them another die's register at `addr`. -/
theorem writtenWord_setWord {addr : Nat} {rd : RegDef} {v : Word} (haddr : addr < 0xB0000) (t : State) (d e : RSlot) (w : Word) (h : e ≠ d) :
    writtenWord addr rd v (t.setWord (regKey d.code addr) w) e = writtenWord addr rd v t e := by
  have hwat : regKey e.code R.BUDGET_WAT_HIWAT.off ≠ regKey d.code addr := by
    simp only [regKey, R.BUDGET_WAT_HIWAT]
    omega
  have hown : regKey e.code addr ≠ regKey d.code addr := fun hk => h (regKey_code_inj hk)
  simp only [writtenWord, State.rdR, State.rd, State.word_setWord_other hwat, State.word_setWord_other hown]
  rfl

theorem curdWindow_eq_none {addr : Nat} (h : addr < 0x100000) : curdWindow addr = none := if_neg (by omega)

theorem setupWrite_shared {d : RSlot} {r : Requester} {addr : Nat} {v : Word} {s : State} (h4 : addr % 4 = 0) (h : 0x20000 ≤ addr) :
    setupWrite d r addr 4 v s = writeReg (newStep 0x03 0 0 s).serving d r addr v (newStep 0x03 0 0 s) := by
  have hloc : localBlock addr = false := decide_eq_false (by omega)
  simp [setupWrite, State.targets, h4, hloc]

theorem setupWrite_local {d : RSlot} {r : Requester} {addr : Nat} {v : Word} {s : State} (h4 : addr % 4 = 0) (h : addr < 0x20000) :
    setupWrite d r addr 4 v s = writeReg [d] d r addr v s := by
  have hloc : localBlock addr = true := decide_eq_true h
  simp [setupWrite, State.targets, h4, hloc]

theorem writeReg_refused {ts : List RSlot} {d : RSlot} {r : Requester} {addr : Nat} {v : Word} {s : State} (hf : s.fenced d = false)
    (hw : s.mayWrite d r addr = false) : writeReg ts d r addr v s = (discardAt ts addr s, 2) := by
  simp [writeReg, hf, hw]

/-- A register of the blocks without effects of their own takes the word on every die named. -/
theorem writeReg_plain {ts : List RSlot} {d : RSlot} {r : Requester} {addr : Nat} {v : Word} {rd : RegDef} {s : State} (hf : s.fenced d = false)
    (hw : s.mayWrite d r addr = true) (hblk : addr / 0x10000 ∈ [5, 6, 8, 9, 10]) (hoff : addr % 0x10000 < 0x7FF0)
    (hrd : regDef d.code addr = some rd) :
    writeReg ts d r addr v s = (storeOn (fun e => regKey e.code addr) (writtenWord addr rd v) ts s, 0) := by
  simp only [List.mem_cons, List.not_mem_nil, or_false] at hblk
  have hwin : curdWindow addr = none := curdWindow_eq_none (by omega)
  have hB : ¬ (s.part.f = 1 ∧ blockOf addr = 0xB) := by unfold blockOf; omega
  simp only [writeReg, hf, hw, hwin, hrd]
  rw [if_neg (by decide), if_neg (by decide), if_neg (by omega), if_neg (by omega), if_neg (by omega), if_neg (by omega), if_neg (by omega),
    if_neg (by omega), if_neg (by omega), if_neg (by omega), if_neg (by omega), if_neg (by omega), if_neg (by omega), if_neg (by omega),
    if_neg (by omega), if_neg (by omega), if_neg hB, if_neg (by omega)]
  rfl

/-! ## Reads -/

theorem readReg_plain {d : RSlot} {r : Requester} {addr : Nat} {rd : RegDef} {s : State} (h : addr < 0x100000) (h4 : addr % 0x10000 ≠ 0x7FF4)
    (h0 : addr % 0x10000 ≠ 0x7FF0) (hrd : regDef d.code addr = some rd) :
    readReg d r addr s = (some (readWord rd (s.liveWord d addr (s.word (regKey d.code addr)))),
      s.setWord (regKey d.code addr) (afterRead rd (s.word (regKey d.code addr))), 0) := by
  simp [readReg, curdWindow_eq_none h, h4, h0, hrd]

theorem readReg_window {d : RSlot} {r : Requester} {addr g off : Nat} {s : State} (hwin : curdWindow addr = some (g, off)) (hg : s.hasCurd g = true)
    (hup : (s.fvEnd (.rind d g)).down = false) :
    readReg d r addr s = (none, sendMsg (.rind d g) 3 0 [BitVec.ofNat 32 (0x02000000 + off), BitVec.ofNat 32 (r.code d)] s, 0) := by
  simp [readReg, hwin, hg, hup]

/-! ## The rennet sequence -/

/-- A property that the step at `a` makes and every step keeps holds after a fold that passes `a`. -/
theorem foldl_of_mem {σ α : Type} {motive : σ → Prop} (f : σ → α → σ) {a : α} (hmake : ∀ t, motive (f t a)) (hstay : ∀ t x, motive t → motive (f t x)) :
    ∀ {l : List α} {s : σ}, a ∈ l → motive (l.foldl f s)
  | x :: l, s, h => by
    obtain rfl | h := List.mem_cons.mp h
    · exact List.foldlRecOn l f (hmake s) fun t ht y _ => hstay t y ht
    · show motive (l.foldl f (f s x))
      exact foldl_of_mem f hmake hstay h

theorem unlockKey_register (addr : Nat) : unlockKey (unlockKey addr + 0x7FF0) = unlockKey addr := by
  unfold unlockKey
  omega

/-- The mark that arms a requester at the block of `addr` on die `e`, in place of an older one (R122). -/
def arm (d : RSlot) (r : Requester) (addr : Nat) (e : RSlot) (s : State) : State :=
  (disarm d r addr e s).modRind e (fun x => { x with arms := ((d, r), unlockKey addr, s.now) :: x.arms })

/-- The page of the block of `addr` open on die `e`, and the arming spent (R122). -/
def openPage (d : RSlot) (r : Requester) (addr : Nat) (e : RSlot) (s : State) : State :=
  (disarm d r addr e s).modRind e (fun x => { x with opened := blockOf addr :: x.opened.filter (· ≠ blockOf addr) })

theorem State.armed_disarm_self {d e : RSlot} {r : Requester} {addr : Nat} {s : State} : (disarm d r addr e s).armed e d r addr = false := by
  simp only [State.armed, disarm, State.rind_modRind, List.any_filter, List.any_eq_false]
  intro a _
  cases decide (a.1 = (d, r) ∧ a.2.1 = unlockKey addr) <;> decide

theorem State.armed_disarm_other {d e x : RSlot} {r : Requester} {addr : Nat} {s : State} (h : e ≠ x) :
    (disarm d r addr x s).armed e d r addr = s.armed e d r addr := by
  simp only [State.armed, disarm, State.rind_modRind_other h]

theorem State.armed_foldl_disarm {d e : RSlot} {r : Requester} {addr : Nat} {ts : List RSlot} {s : State} (he : e ∈ ts) :
    (ts.foldl (fun t x => disarm d r addr x t) s).armed e d r addr = false :=
  foldl_of_mem (motive := fun t : State => t.armed e d r addr = false) (fun t x => disarm d r addr x t) (fun _ => State.armed_disarm_self) (fun t x ht => by
    by_cases h : e = x
    · exact h ▸ State.armed_disarm_self
    · exact (State.armed_disarm_other h).trans ht) he

theorem arms_foldl_arm {d e : RSlot} {r : Requester} {addr : Nat} {ts : List RSlot} {s : State} (he : e ∈ ts) :
    ((d, r), unlockKey addr, s.now) ∈ ((ts.foldl (fun t x => arm d r addr x t) s).rind e).arms := by
  have hnow : (ts.foldl (fun t x => arm d r addr x t) s).now = s.now := foldl_field State.now fun t x => by simp [arm, disarm]
  have harms : ((d, r), unlockKey addr, (ts.foldl (fun t x => arm d r addr x t) s).now) ∈ ((ts.foldl (fun t x => arm d r addr x t) s).rind e).arms :=
    foldl_of_mem (motive := fun t : State => ((d, r), unlockKey addr, t.now) ∈ (t.rind e).arms) (fun t x => arm d r addr x t)
      (fun t => by simp [arm, disarm]) (fun t x ht => by
      by_cases h : e = x
      · simp [h, arm, disarm]
      · simpa [arm, disarm, State.rind_modRind_other h] using ht) he
  rwa [hnow] at harms

theorem writeReg_unlock {ts : List RSlot} {d : RSlot} {r : Requester} {addr : Nat} {key : Word} {s : State} (h : addr < 0x100000)
    (hf : s.fenced d = false) (hr : s.setupRight d r = 2) :
    writeReg ts d r (unlockKey addr + 0x7FF0) key s = unlockWrite ts d r (unlockKey addr + 0x7FF0) key s := by
  have hlt : unlockKey addr + 0x7FF0 < 0x100000 ∧ (unlockKey addr + 0x7FF0) % 0x10000 = 0x7FF0 := by unfold unlockKey; omega
  have hw : s.mayWrite d r (unlockKey addr + 0x7FF0) = true := by simp [State.mayWrite, hr]
  simp [writeReg, hf, hw, curdWindow_eq_none hlt.1, hlt.1, hlt.2]

theorem disarm_register {d e : RSlot} {r : Requester} {addr : Nat} {s : State} :
    disarm d r (unlockKey addr + 0x7FF0) e s = disarm d r addr e s := by
  unfold disarm
  rw [unlockKey_register]

theorem unlockWrite_arms {ts : List RSlot} {d : RSlot} {r : Requester} {addr : Nat} {s : State} (hr : s.setupRight d r = 2) :
    unlockWrite ts d r (unlockKey addr + 0x7FF0) 0xC0A6 s = (ts.foldl (fun t e => arm d r addr e t) s, 0) := by
  simp [unlockWrite, hr, arm, unlockKey_register, disarm]

theorem unlockWrite_opens {d : RSlot} {r : Requester} {addr : Nat} {s : State} (hr : s.setupRight d r = 2) (harmed : s.armed d d r addr = true) :
    unlockWrite [d] d r (unlockKey addr + 0x7FF0) 0x3F59 s =
      (raise d 0x033 [unlockKey addr + 0x7FF0, r.code d] (openPage d r addr d s), 0) := by
  have hblock : unlockKey addr / 0x10000 = blockOf addr := by unfold unlockKey blockOf; omega
  have harmed' : s.armed d d r (unlockKey addr + 0x7FF0) = true := by
    unfold State.armed at harmed ⊢
    rwa [unlockKey_register]
  simp [unlockWrite, hr, openPage, disarm_register, unlockKey_register, hblock, harmed']

/-! ## The commands -/

theorem execSetupWrite_of_hasRind {d : RSlot} {r : Requester} {addr width : Nat} {v : Word} {s : State} (h : s.hasRind d = true) :
    execSetupWrite d r addr width v s = .next (settle (setupWrite d r addr width v s).1) := if_pos h

theorem execRcRead_answered {d : RSlot} {r : Requester} {addr k : Nat} {w : Word} {s t : State} (h : s.hasRind d = true) (h4 : addr % 4 = 0)
    (hread : readReg d r addr s = (some w, t, k)) : execRcRead d r addr 4 s = .next (settle (t.emit (.word w))) := by
  simp [execRcRead, h, h4, hread]

theorem execRcRead_asked {d : RSlot} {r : Requester} {addr k : Nat} {s t : State} (h : s.hasRind d = true) (h4 : addr % 4 = 0)
    (hread : readReg d r addr s = (none, t, k)) : execRcRead d r addr 4 s = .next (settle t) := by
  simp [execRcRead, h, h4, hread]

theorem execUnlockWrite_of_hasRind {d : RSlot} {r : Requester} {addr : Nat} {key : Word} {s : State} (h : s.hasRind d = true) :
    execUnlockWrite d r addr key s = .next (settle (setupWrite d r (unlockKey addr + 0x7FF0) 4 key s).1) := if_pos h

/-- The unlock register of a block is reached as the block is: on the one die where it is local, else on all that serve, at an input's step. -/
theorem setupWrite_unlock {d : RSlot} {r : Requester} {addr : Nat} {key : Word} {s n : State} (hn : n = if addr < 0x20000 then s else newStep 0x03 0 0 s)
    (h : addr < 0x100000) (hf : n.fenced d = false) (hr : n.setupRight d r = 2) :
    setupWrite d r (unlockKey addr + 0x7FF0) 4 key s = unlockWrite (n.targets d addr) d r (unlockKey addr + 0x7FF0) key n := by
  have h4 : (unlockKey addr + 0x7FF0) % 4 = 0 := by unfold unlockKey; omega
  by_cases hloc : addr < 0x20000
  · rw [if_pos hloc] at hn
    subst hn
    rw [setupWrite_local h4 (by unfold unlockKey; omega), writeReg_unlock h hf hr]
    simp [State.targets, localBlock, hloc]
  · rw [if_neg hloc] at hn
    subst hn
    rw [setupWrite_shared h4 (by unfold unlockKey; omega), writeReg_unlock h hf hr]
    simp [State.targets, localBlock, hloc]

theorem setupWrite_stores {d : RSlot} {r : Requester} {addr : Nat} {v : Word} {rd : RegDef} {s n : State} (hn : n = newStep 0x03 0 0 s)
    (hd : s.hasRind d = true) (hs : s.regsWf = true) (hf : n.fenced d = false) (hw : n.mayWrite d r addr = true) (h4 : addr % 4 = 0)
    (hblk : addr / 0x10000 ∈ [5, 6, 8, 9, 10]) (hoff : addr % 0x10000 < 0x7FF0) (hrd : regDef d.code addr = some rd) :
    ∃ u, exec (.setupWrite d r addr 4 v) s = .next (settle u) ∧
      (∀ e ∈ n.serving, u.word (regKey e.code addr) = storeWord n.part n.ilimTop (n.rdR e R.BUDGET_WAT_HIWAT) rd (n.word (regKey e.code addr)) v) ∧
      (∀ k, (∀ e ∈ n.serving, k ≠ regKey e.code addr) → u.word k = n.word k) ∧ u.out = n.out ∧ u.cmds = n.cmds ∧ u.f0 = n.f0 ∧ u.flash = n.flash := by
  have hlt : 0x20000 ≤ addr ∧ addr < 0xB0000 := by
    simp only [List.mem_cons, List.not_mem_nil, or_false] at hblk
    omega
  have hreg : n.regsWf = true := hn ▸ State.regsWf_newStep hs
  refine ⟨storeOn (fun e => regKey e.code addr) (writtenWord addr rd v) n.serving n, ?_,
    fun e he => storeOn_word_of_mem (fun _ _ => regKey_code_inj) (writtenWord_setWord hlt.2) hreg n.serving_nodup he,
    fun k hk => storeOn_word_other hk, storeOn_field State.out fun _ _ _ => rfl, storeOn_field State.cmds fun _ _ _ => rfl,
    storeOn_field State.f0 fun _ _ _ => rfl, storeOn_field State.flash fun _ _ _ => rfl⟩
  subst hn
  show execSetupWrite d r addr 4 v s = _
  rw [execSetupWrite_of_hasRind hd, setupWrite_shared h4 hlt.1, writeReg_plain hf hw hblk hoff hrd]

theorem setupWrite_discards {d : RSlot} {r : Requester} {addr : Nat} {v : Word} {s n : State} (hn : n = newStep 0x03 0 0 s) (hd : s.hasRind d = true)
    (hf : n.fenced d = false) (hw : n.mayWrite d r addr = false) (h4 : addr % 4 = 0) (hlo : 0x20000 ≤ addr) :
    exec (.setupWrite d r addr 4 v) s = .next (settle (inStep (fun e t => raise e 0x034 [addr] t) n)) := by
  subst hn
  show execSetupWrite d r addr 4 v s = _
  rw [execSetupWrite_of_hasRind hd, setupWrite_shared h4 hlo, writeReg_refused hf hw]
  rfl

theorem rcRead_returns {d : RSlot} {r : Requester} {addr : Nat} {rd : RegDef} {s : State} (hd : s.hasRind d = true) (hs : s.regsWf = true)
    (h4 : addr % 4 = 0) (hlt : addr < 0x100000) (hpage : addr % 0x10000 ≠ 0x7FF4) (hkey : addr % 0x10000 ≠ 0x7FF0) (hrd : regDef d.code addr = some rd) :
    ∃ u, exec (.rcRead d r addr 4) s = .next (settle u) ∧ u.out = .word (readWord rd (s.liveWord d addr (s.word (regKey d.code addr)))) :: s.out ∧
      u.word (regKey d.code addr) = afterRead rd (s.word (regKey d.code addr)) ∧ (∀ k, k ≠ regKey d.code addr → u.word k = s.word k) ∧ u.cmds = s.cmds := by
  refine ⟨(s.setWord (regKey d.code addr) (afterRead rd (s.word (regKey d.code addr)))).emit
    (.word (readWord rd (s.liveWord d addr (s.word (regKey d.code addr))))), ?_, rfl, State.word_setWord_self hs,
    fun k hk => State.word_setWord_other hk, rfl⟩
  exact execRcRead_answered hd h4 (readReg_plain hlt hpage hkey hrd)

theorem rcRead_asks_window {d : RSlot} {r : Requester} {addr g off : Nat} {s : State} (hd : s.hasRind d = true) (h4 : addr % 4 = 0)
    (hwin : curdWindow addr = some (g, off)) (hg : s.hasCurd g = true) (hup : (s.fvEnd (.rind d g)).down = false) :
    exec (.rcRead d r addr 4) s =
      .next (settle (sendMsg (.rind d g) 3 0 [BitVec.ofNat 32 (0x02000000 + off), BitVec.ofNat 32 (r.code d)] s)) :=
  execRcRead_asked hd h4 (readReg_window hwin hg hup)

theorem unlockWrite_arms_targets {d : RSlot} {r : Requester} {addr : Nat} {s n : State} (hn : n = if addr < 0x20000 then s else newStep 0x03 0 0 s)
    (hd : s.hasRind d = true) (hlt : addr < 0x100000) (hf : n.fenced d = false) (hr : n.setupRight d r = 2) :
    ∃ u, exec (.unlockWrite d r addr 0xC0A6) s = .next (settle u) ∧ (∀ e ∈ n.targets d addr, ((d, r), unlockKey addr, n.now) ∈ (u.rind e).arms) ∧
      u.regs = n.regs ∧ u.out = n.out ∧ u.cmds = n.cmds := by
  refine ⟨(n.targets d addr).foldl (fun t e => arm d r addr e t) n, ?_, fun e he => arms_foldl_arm he,
    foldl_field State.regs fun t x => by simp [arm, disarm], foldl_field State.out fun t x => by simp [arm, disarm],
    foldl_field State.cmds fun t x => by simp [arm, disarm]⟩
  show execUnlockWrite d r addr 0xC0A6 s = _
  rw [execUnlockWrite_of_hasRind hd, setupWrite_unlock hn hlt hf hr, unlockWrite_arms hr]

theorem unlockWrite_opens_page {d : RSlot} {r : Requester} {addr : Nat} {s : State} (hd : s.hasRind d = true) (hf : s.fenced d = false)
    (hr : s.setupRight d r = 2) (hloc : addr < 0x20000) (harmed : s.armed d d r addr = true) :
    ∃ v, blockOf addr ∈ (v.rind d).opened ∧ v.armed d d r addr = false ∧ v.regs = s.regs ∧
      exec (.unlockWrite d r addr 0x3F59) s = .next (settle (raise d 0x033 [unlockKey addr + 0x7FF0, r.code d] v)) := by
  refine ⟨openPage d r addr d s, by simp [openPage], ?_, by simp [openPage, disarm], ?_⟩
  · have hdis : (disarm d r addr d s).armed d d r addr = false := State.armed_disarm_self
    simpa [State.armed, openPage] using hdis
  · have htargets : s.targets d addr = [d] := by simp [State.targets, localBlock, hloc]
    show execUnlockWrite d r addr 0x3F59 s = _
    rw [execUnlockWrite_of_hasRind hd, setupWrite_unlock (if_pos hloc).symm (by omega) hf hr, htargets, unlockWrite_opens hr harmed]

theorem unlockArmLapse_disarms {d : RSlot} {r : Requester} {addr : Nat} {s : State} (hlt : addr < 0x100000) :
    ∃ t, exec (.unlockArmLapse d r addr) s = .next t ∧ (∀ e ∈ s.targets d addr, t.armed e d r addr = false) ∧ t.regs = s.regs ∧
      t.out = s.out ∧ t.cmds = s.cmds ∧ t.f0.opened = s.f0.opened := by
  refine ⟨(s.targets d addr).foldl (fun t e => disarm d r addr e t) s, ?_, fun e he => State.armed_foldl_disarm he,
    foldl_field State.regs fun t x => by simp [disarm], foldl_field State.out fun t x => by simp [disarm],
    foldl_field State.cmds fun t x => by simp [disarm], foldl_field (fun t : State => t.f0.opened) fun t x => by cases x <;> rfl⟩
  show execUnlockArmLapse d r addr s = _
  simp [execUnlockArmLapse, curdWindow_eq_none hlt]

/-- Settles O9: the clauses are the lemmas above, one for each way into the set-up space. -/
theorem setupSpaceAccess : Obligations.SetupSpaceAccess := by
  refine ⟨fun d r addr v rd s n hn hd hs hf hw h4 hblk hoff hrd => setupWrite_stores hn hd hs hf hw h4 hblk hoff hrd,
    fun d r addr v s n hn hd hf hw h4 hlo => setupWrite_discards hn hd hf hw h4 hlo,
    fun d r addr rd s hd hs h4 hlt hpage hkey hrd => rcRead_returns hd hs h4 hlt hpage hkey hrd,
    fun d r addr g off s hd h4 hwin hg hup => rcRead_asks_window hd h4 hwin hg hup,
    fun d r addr width v s hd hwidth => ?narrowWrite, fun d r addr width s hd hwidth => ?narrowRead,
    fun d r addr s n hn hd hlt hf hr => unlockWrite_arms_targets hn hd hlt hf hr,
    fun d r addr s hd hf hr hloc harmed => unlockWrite_opens_page hd hf hr hloc harmed,
    fun d r addr s hlt => unlockArmLapse_disarms hlt, fun d r addr g off s hwin => ?window⟩
  case narrowWrite =>
    show execSetupWrite d r addr width v s = _
    simp [execSetupWrite_of_hasRind hd, setupWrite, hwidth, discardAt]
  case narrowRead =>
    show execRcRead d r addr width s = _
    simp [execRcRead, hd, hwidth]
  case window =>
    show execUnlockArmLapse d r addr s = _
    simp [execUnlockArmLapse, hwin]

end Sys2Proof.Machine
end

section
/-! The words of a link control word: O23. -/

namespace Sys2Proof.Machine

/-- The exclusive-or of bytes: the check of a link control word (R30). -/
def byteXor (l : List Byte) : Byte := l.foldl (fun a b => a ^^^ b) 0

theorem natLe_four (v : Nat) :
    natLe 4 v = [BitVec.ofNat 8 v, BitVec.ofNat 8 (v / 2 ^ 8), BitVec.ofNat 8 (v / 2 ^ 16), BitVec.ofNat 8 (v / 2 ^ 24)] := by
  simp [natLe, Nat.div_div_eq_div_mul]

theorem ofNat_eight_eq {a b : Nat} : BitVec.ofNat 8 a = BitVec.ofNat 8 b ↔ a % 2 ^ 8 = b % 2 ^ 8 := by
  rw [← BitVec.toNat_inj, BitVec.toNat_ofNat, BitVec.toNat_ofNat]

/-- A byte put where the third byte of a number was 0 leaves the other bytes. -/
theorem natLe_four_add_third {v c : Nat} (hv : v / 2 ^ 16 % 2 ^ 8 = 0) (hc : c < 2 ^ 8) :
    natLe 4 (v + c * 2 ^ 16) = [BitVec.ofNat 8 v, BitVec.ofNat 8 (v / 2 ^ 8), BitVec.ofNat 8 c, BitVec.ofNat 8 (v / 2 ^ 24)] := by
  have h0 : (v + c * 2 ^ 16) % 2 ^ 8 = v % 2 ^ 8 := by omega
  have h1 : (v + c * 2 ^ 16) / 2 ^ 8 % 2 ^ 8 = v / 2 ^ 8 % 2 ^ 8 := by omega
  have h2 : (v + c * 2 ^ 16) / 2 ^ 16 % 2 ^ 8 = c % 2 ^ 8 := by omega
  have h3 : (v + c * 2 ^ 16) / 2 ^ 24 % 2 ^ 8 = v / 2 ^ 24 % 2 ^ 8 := by omega
  simp only [natLe_four, List.cons.injEq, and_true, ofNat_eight_eq]
  exact ⟨h0, h1, h2, h3⟩

theorem byteXor_third (a b k c e f g h : Byte) : byteXor [a, b, k, c, e, f, g, h] = byteXor [a, b, 0, c, e, f, g, h] ^^^ k := by
  simp only [byteXor, List.foldl_cons, List.foldl_nil]
  ac_rfl

/-- A byte that holds the exclusive-or of the others makes the whole come to 0. -/
theorem byteXor_check {v w : Nat} (hv : v / 2 ^ 16 % 2 ^ 8 = 0) :
    byteXor (natLe 4 (v + (byteXor (natLe 4 v ++ natLe 4 w)).toNat * 2 ^ 16) ++ natLe 4 w) = 0 := by
  have hz : BitVec.ofNat 8 (v / 2 ^ 16) = 0 := ofNat_eight_eq.mpr hv
  rw [natLe_four_add_third hv (BitVec.isLt _), BitVec.ofNat_toNat, BitVec.setWidth_eq, natLe_four v, natLe_four w, hz]
  exact (byteXor_third ..).trans BitVec.xor_self

/-- Word 0 before its check byte (R30): MARK, TYPE, CIDX, ALSEQ. -/
def lcwHead (typ cidx alseq : Nat) : Nat := 0xF0000000 + typ * 2 ^ 26 + cidx * 2 ^ 24 + alseq

theorem lcwWords_eq (typ cidx alseq freed free : Nat) : lcwWords typ cidx alseq freed free =
    (BitVec.ofNat 32 (lcwHead typ cidx alseq + (byteXor (natLe 4 (lcwHead typ cidx alseq) ++ natLe 4 (freed * 2 ^ 16 + free))).toNat * 2 ^ 16),
      BitVec.ofNat 32 (freed * 2 ^ 16 + free)) := by
  simp only [lcwWords, lcwHead, byteXor]

theorem lcwGood_iff {w0 w1 : Word} : lcwGood w0 w1 = true ↔ byteXor (natLe 4 w0.toNat ++ natLe 4 w1.toNat) = 0 ∧ w0.toNat / 2 ^ 28 = 0xF :=
  decide_eq_true_iff

/-- Settles O23: the check byte lies where word 0 held 0, so it touches no field and cancels the other bytes. -/
theorem linkControlWordFields : Obligations.LinkControlWordFields := by
  intro typ cidx alseq freed free htyp hcidx halseq hfreed hfree
  have hthird : lcwHead typ cidx alseq / 2 ^ 16 % 2 ^ 8 = 0 := by unfold lcwHead; omega
  have hchk := (byteXor (natLe 4 (lcwHead typ cidx alseq) ++ natLe 4 (freed * 2 ^ 16 + free))).isLt
  have hzero := byteXor_check (w := freed * 2 ^ 16 + free) hthird
  rw [lcwWords_eq]
  generalize (byteXor (natLe 4 (lcwHead typ cidx alseq) ++ natLe 4 (freed * 2 ^ 16 + free))).toNat = chk at hchk hzero
  have h0 : (lcwHead typ cidx alseq + chk * 2 ^ 16) % 2 ^ 32 = lcwHead typ cidx alseq + chk * 2 ^ 16 := by unfold lcwHead; omega
  have h1 : (freed * 2 ^ 16 + free) % 2 ^ 32 = freed * 2 ^ 16 + free := by omega
  rw [lcwGood_iff, lcwFields, BitVec.toNat_ofNat, BitVec.toNat_ofNat, h0, h1]
  have hmark : (lcwHead typ cidx alseq + chk * 2 ^ 16) / 2 ^ 28 = 0xF := by unfold lcwHead; omega
  refine ⟨⟨hzero, hmark⟩, ?_⟩
  unfold lcwHead
  simp only [Prod.mk.injEq]
  omega

end Sys2Proof.Machine
end

section
/-! The ends of the Finvik links: reads after writes, and what the operations of a link do (R24 to R30). -/

namespace Sys2Proof.Machine

/-! ## Lists changed at an index -/

theorem length_modAt {α : Type} {i : Nat} {f : α → α} {l : List α} : (modAt i f l).length = l.length := List.length_modify ..

theorem getD_modAt_self {α : Type} {i : Nat} {f : α → α} {l : List α} {d : α} (h : i < l.length) : (modAt i f l).getD i d = f (l.getD i d) := by
  simp [modAt, List.getD, h]

theorem getD_modAt_other {α : Type} {i j : Nat} {f : α → α} {l : List α} {d : α} (h : i ≠ j) : (modAt i f l).getD j d = l.getD j d := by
  simp [modAt, List.getD, h]

/-- What a change leaves of each element it leaves of the element at an index. -/
theorem getD_modAt_field {α β : Type} (π : α → β) {i j : Nat} {f : α → α} {l : List α} {d : α} (h : ∀ x, π (f x) = π x) :
    π ((modAt i f l).getD j d) = π (l.getD j d) := by
  by_cases hij : i = j
  · subst hij
    by_cases hi : i < l.length
    · rw [getD_modAt_self hi, h]
    · rw [List.getD_eq_default _ _ (by rw [length_modAt]; omega), List.getD_eq_default _ _ (by omega)]
  · rw [getD_modAt_other hij]

/-! ## An end read after a change of an end -/

/-- The state has a place for the link end. -/
def State.EndHeld (s : State) : LinkEnd → Prop
  | .rind d n => n < (s.rind d).links.length
  | .curd g d => g < s.curds.length ∧ d.code < (s.curd g).ends.length

theorem State.EndOk.endHeld {s : State} {e : LinkEnd} (h : s.EndOk e) : s.EndHeld e := by
  cases e <;> exact h.1

theorem farEnd_ne (e : LinkEnd) : farEnd e ≠ e := by
  cases e with
  | curd g d => simp [farEnd]
  | rind d n =>
    simp only [farEnd]
    split
    · cases d <;> simp [RSlot.peer]
    · simp

/-- A link end lies in the die's own state. -/
theorem State.fvEnd_congr {s t : State} (h0 : t.f0 = s.f0) (h1 : t.f1 = s.f1) (hc : t.curds = s.curds) (e : LinkEnd) : t.fvEnd e = s.fvEnd e := by
  cases e with
  | rind d n => cases d <;> simp [State.fvEnd, State.rind, h0, h1]
  | curd g d => simp [State.fvEnd, State.curd, hc]

@[simp] theorem State.fvEnd_wrR (s : State) (d : RSlot) (f : Fld) (v : Nat) (e : LinkEnd) : (s.wrR d f v).fvEnd e = s.fvEnd e :=
  State.fvEnd_congr rfl rfl rfl e

@[simp] theorem State.fvEnd_wrC (s : State) (g : Nat) (f : Fld) (v : Nat) (e : LinkEnd) : (s.wrC g f v).fvEnd e = s.fvEnd e :=
  State.fvEnd_congr rfl rfl rfl e

@[simp] theorem State.fvEnd_emit (s : State) (o : Out) (e : LinkEnd) : (s.emit o).fvEnd e = s.fvEnd e := State.fvEnd_congr rfl rfl rfl e

theorem State.curd_modCurd_other {s : State} {g h : Nat} {f : CurdDie → CurdDie} (hgh : g ≠ h) : (s.modCurd g f).curd h = s.curd h :=
  getD_modAt_other hgh

theorem State.fvEnd_modEnd_self {s : State} {e : LinkEnd} {f : FvEnd → FvEnd} (h : s.EndHeld e) : (s.modEnd e f).fvEnd e = f (s.fvEnd e) := by
  cases e with
  | rind d n =>
    simp only [State.modEnd, State.fvEnd, State.rind_modRind]
    exact getD_modAt_self h
  | curd g d =>
    simp only [State.modEnd, State.fvEnd, State.curd_modCurd _ _ _ h.1]
    exact getD_modAt_self h.2

theorem State.fvEnd_modEnd_other {s : State} {e x : LinkEnd} {f : FvEnd → FvEnd} (h : x ≠ e) : (s.modEnd e f).fvEnd x = s.fvEnd x := by
  cases e with
  | rind d n =>
    cases x with
    | rind c m =>
      by_cases hd : c = d
      · subst hd
        simp only [State.modEnd, State.fvEnd, State.rind_modRind]
        exact getD_modAt_other fun hn => h (by rw [hn])
      · simp only [State.modEnd, State.fvEnd, State.rind_modRind_other hd]
    | curd g c => simp [State.modEnd, State.fvEnd, State.curd]
  | curd g d =>
    cases x with
    | rind c m => cases c <;> rfl
    | curd k c =>
      by_cases hg : g = k
      · subst hg
        have hd : d.code ≠ c.code := fun hd => h (by rw [RSlot.code_inj hd])
        exact getD_modAt_field (fun x : CurdDie => x.ends.getD c.code {}) fun _ => getD_modAt_other hd
      · simp only [State.modEnd, State.fvEnd, State.curd_modCurd_other hg]

/-- What a change leaves of each end it leaves of every end. -/
theorem State.fvEnd_modEnd_field {β : Type} (π : FvEnd → β) {s : State} {e x : LinkEnd} {f : FvEnd → FvEnd} (h : ∀ y, π (f y) = π y) :
    π ((s.modEnd e f).fvEnd x) = π (s.fvEnd x) := by
  by_cases hx : x = e
  · subst hx
    cases x with
    | rind d n =>
      simp only [State.modEnd, State.fvEnd, State.rind_modRind]
      exact getD_modAt_field π h
    | curd g d => exact getD_modAt_field (fun c : CurdDie => π (c.ends.getD d.code {})) fun _ => getD_modAt_field π h
  · rw [State.fvEnd_modEnd_other hx]

@[simp] theorem State.cmds_modEnd (s : State) (e : LinkEnd) (f : FvEnd → FvEnd) : (s.modEnd e f).cmds = s.cmds := by cases e <;> simp [State.modEnd]

@[simp] theorem State.out_modEnd (s : State) (e : LinkEnd) (f : FvEnd → FvEnd) : (s.modEnd e f).out = s.out := by cases e <;> simp [State.modEnd]

@[simp] theorem State.regs_modEnd (s : State) (e : LinkEnd) (f : FvEnd → FvEnd) : (s.modEnd e f).regs = s.regs := by cases e <;> simp [State.modEnd]

@[simp] theorem State.part_modEnd (s : State) (e : LinkEnd) (f : FvEnd → FvEnd) : (s.modEnd e f).part = s.part := by cases e <;> simp [State.modEnd]

/-! ## One class of an end -/

/-- Change the sending side of a class. -/
def FvEnd.modTx (c : Nat) (f : TxClass → TxClass) (x : FvEnd) : FvEnd := { x with tx := modAt c f x.tx }

/-- Change the receiving side of a class. -/
def FvEnd.modRx (c : Nat) (f : RxClass → RxClass) (x : FvEnd) : FvEnd := { x with rx := modAt c f x.rx }

/-- The sending side of a class of an end. -/
def State.txOf (s : State) (e : LinkEnd) (c : Nat) : TxClass := (s.fvEnd e).tx.getD c {}

/-- The receiving side of a class of an end. -/
def State.rxOf (s : State) (e : LinkEnd) (c : Nat) : RxClass := (s.fvEnd e).rx.getD c {}

theorem State.txOf_modTx_self {s : State} {e : LinkEnd} {c : Nat} {f : TxClass → TxClass} (h : s.EndHeld e) (hc : c < (s.fvEnd e).tx.length) :
    (s.modEnd e (FvEnd.modTx c f)).txOf e c = f (s.txOf e c) := by
  rw [State.txOf, State.fvEnd_modEnd_self h]
  exact getD_modAt_self hc

theorem State.rxOf_modRx_self {s : State} {e : LinkEnd} {c : Nat} {f : RxClass → RxClass} (h : s.EndHeld e) (hc : c < (s.fvEnd e).rx.length) :
    (s.modEnd e (FvEnd.modRx c f)).rxOf e c = f (s.rxOf e c) := by
  rw [State.rxOf, State.fvEnd_modEnd_self h]
  exact getD_modAt_self hc

theorem State.EndOk.tx_lt {s : State} {e : LinkEnd} (h : s.EndOk e) {c : Nat} (hc : c < 4) : c < (s.fvEnd e).tx.length := by
  rw [h.2.1]
  exact hc

theorem State.EndOk.rx_lt {s : State} {e : LinkEnd} (h : s.EndOk e) {c : Nat} (hc : c < 4) : c < (s.fvEnd e).rx.length := by
  rw [h.2.2]
  exact hc

theorem State.rind_links_length_modEnd {s : State} {x : LinkEnd} {f : FvEnd → FvEnd} {d : RSlot} :
    ((s.modEnd x f).rind d).links.length = (s.rind d).links.length := by
  cases x with
  | curd g c => cases d <;> rfl
  | rind c n =>
    by_cases hd : d = c
    · subst hd
      simp [State.modEnd, length_modAt]
    · simp [State.modEnd, State.rind_modRind_other hd]

theorem State.curds_length_modEnd {s : State} {x : LinkEnd} {f : FvEnd → FvEnd} : (s.modEnd x f).curds.length = s.curds.length := by
  cases x with
  | curd g c => exact length_modAt
  | rind c n => cases c <;> rfl

theorem State.curd_ends_length_modEnd {s : State} {x : LinkEnd} {f : FvEnd → FvEnd} {g : Nat} :
    ((s.modEnd x f).curd g).ends.length = (s.curd g).ends.length := by
  cases x with
  | curd k c => exact getD_modAt_field (fun c : CurdDie => c.ends.length) fun _ => length_modAt
  | rind c n => cases c <;> rfl

theorem State.EndHeld.modEnd {s : State} {e x : LinkEnd} {f : FvEnd → FvEnd} (h : s.EndHeld e) : (s.modEnd x f).EndHeld e := by
  cases e with
  | rind d n => exact lt_of_lt_of_eq h State.rind_links_length_modEnd.symm
  | curd g d =>
    obtain ⟨hg, hd⟩ := h
    exact ⟨lt_of_lt_of_eq hg State.curds_length_modEnd.symm, lt_of_lt_of_eq hd State.curd_ends_length_modEnd.symm⟩

/-- A change that keeps the number of classes keeps an end's form. -/
theorem State.EndOk.modEnd {s : State} {e x : LinkEnd} {f : FvEnd → FvEnd} (htx : ∀ y, (f y).tx.length = y.tx.length)
    (hrx : ∀ y, (f y).rx.length = y.rx.length) (h : s.EndOk e) : (s.modEnd x f).EndOk e := by
  refine ⟨?_, (State.fvEnd_modEnd_field (fun y => y.tx.length) htx).trans h.2.1, (State.fvEnd_modEnd_field (fun y => y.rx.length) hrx).trans h.2.2⟩
  have := h.endHeld.modEnd (x := x) (f := f)
  cases e <;> exact this

/-! ## Messages on the wire -/

@[simp] theorem putOnWire_nil (e : LinkEnd) (s : State) : putOnWire e [] s = s := rfl

theorem out_putOnWire_one (e : LinkEnd) (m : Msg) (s : State) : (putOnWire e [m] s).out = .msg e m (s.fvEnd e).corruptNext :: s.out := by
  cases e with
  | curd g d => simp [putOnWire]
  | rind d n =>
    simp only [putOnWire, List.foldl_cons, List.foldl_nil]
    split <;> simp

theorem txOf_putOnWire_one (e : LinkEnd) (m : Msg) (c : Nat) (s : State) : (putOnWire e [m] s).txOf e c = s.txOf e c := by
  have hmod : (s.modEnd e (fun x => { x with corruptNext := false })).txOf e c = s.txOf e c :=
    State.fvEnd_modEnd_field (fun x => x.tx.getD c {}) fun _ => rfl
  cases e with
  | curd g d => exact hmod
  | rind d n =>
    rw [← hmod]
    simp only [putOnWire, List.foldl_cons, List.foldl_nil, State.txOf]
    split <;> simp

@[simp] theorem State.corruptNext_modTx (s : State) (e x : LinkEnd) (c : Nat) (f : TxClass → TxClass) :
    ((s.modEnd e (FvEnd.modTx c f)).fvEnd x).corruptNext = (s.fvEnd x).corruptNext := State.fvEnd_modEnd_field FvEnd.corruptNext fun _ => rfl

/-- The one message that waits goes where a credit is there, and takes it. -/
theorem launch_one {t : TxClass} {m : Msg} (h : t.stalled = [m]) :
    t.launch 1 = if t.credits = 0 then ([], t) else ([m], { t with credits := t.credits - 1, stalled := [], replay := t.replay ++ [m] }) := by
  simp [TxClass.launch, h]

theorem launchClass_one {e : LinkEnd} {c : Nat} {m : Msg} {s : State} (h : (s.txOf e c).stalled = [m]) :
    launchClass e c s = putOnWire e ((s.txOf e c).launch 1).1 (s.modEnd e (FvEnd.modTx c fun _ => ((s.txOf e c).launch 1).2)) := by
  have h1 : ((s.fvEnd e).tx.getD c {}).stalled.length = 1 := by
    rw [show (s.fvEnd e).tx.getD c {} = s.txOf e c from rfl, h, List.length_singleton]
  rw [launchClass, h1]
  rfl

/-- On a link that carries messages, one more message of a class waits behind the others for the credits (R24, R26). -/
theorem sendMsg_live {e : LinkEnd} {cls eseq : Nat} {ws : List Word} {s : State} (hup : s.linkUp e = true)
    (hmute : ∀ d n, e = .rind d n → n ≠ 6 → s.fenced d = false) :
    sendMsg e cls eseq ws s = launchClass e (cls % 4) (s.modEnd e (FvEnd.modTx (cls % 4) fun t =>
      { t with lseq := (t.lseq + 1) % 0x10000, stalled := t.stalled ++ [⟨cls, e.src, (s.txOf e (cls % 4)).lseq, eseq, ws⟩] })) := by
  cases e with
  | curd g d => exact if_pos (by simp [hup])
  | rind d n =>
    have hlive : (decide (n ≠ 6) && s.fenced d) = false := by
      by_cases hn : n = 6
      · simp [hn]
      · simp [hmute d n rfl hn]
    exact if_pos (by simp only [hup, hlive]; decide)

/-- A message sent with none waiting before it. -/
theorem sendMsg_alone {e : LinkEnd} {cls eseq : Nat} {ws : List Word} {t : TxClass} {m : Msg} {s : State} (hup : s.linkUp e = true)
    (hok : s.EndOk e) (hmute : ∀ d n, e = .rind d n → n ≠ 6 → s.fenced d = false) (ht : t = s.txOf e (cls % 4)) (hnone : t.stalled = [])
    (hm : m = ⟨cls, e.src, t.lseq, eseq, ws⟩) :
    (0 < t.credits → (sendMsg e cls eseq ws s).out = .msg e m (s.fvEnd e).corruptNext :: s.out ∧
      (sendMsg e cls eseq ws s).txOf e (cls % 4) =
        { t with lseq := (t.lseq + 1) % 0x10000, credits := t.credits - 1, replay := t.replay ++ [m] }) ∧
    (t.credits = 0 → (sendMsg e cls eseq ws s).out = s.out ∧
      (sendMsg e cls eseq ws s).txOf e (cls % 4) = { t with lseq := (t.lseq + 1) % 0x10000, stalled := [m] }) := by
  have hc : cls % 4 < 4 := Nat.mod_lt _ (by decide)
  subst ht
  rw [sendMsg_live hup hmute, ← hm]
  generalize hu : s.modEnd e _ = u
  have hut : u.txOf e (cls % 4) = { s.txOf e (cls % 4) with lseq := ((s.txOf e (cls % 4)).lseq + 1) % 0x10000, stalled := [m] } := by
    rw [← hu, State.txOf_modTx_self hok.endHeld (hok.tx_lt hc), hnone, List.nil_append]
  have huok : u.EndOk e := hu ▸ hok.modEnd (fun _ => length_modAt) fun _ => rfl
  have hcorrupt : (u.fvEnd e).corruptNext = (s.fvEnd e).corruptNext := by rw [← hu, State.corruptNext_modTx]
  have hout : u.out = s.out := by rw [← hu, State.out_modEnd]
  have hstalled : (u.txOf e (cls % 4)).stalled = [m] := by rw [hut]
  rw [launchClass_one hstalled, launch_one hstalled]
  refine ⟨fun hpos => ?_, fun hzero => ?_⟩
  · have hne : (u.txOf e (cls % 4)).credits ≠ 0 := by rw [hut]; exact hpos.ne'
    rw [if_neg hne, out_putOnWire_one, txOf_putOnWire_one, State.txOf_modTx_self huok.endHeld (huok.tx_lt hc), State.out_modEnd,
      State.corruptNext_modTx, hcorrupt, hout, hut]
    simp [hnone]
  · have hz : (u.txOf e (cls % 4)).credits = 0 := by rw [hut]; exact hzero
    rw [if_pos hz, putOnWire_nil, State.out_modEnd, State.txOf_modTx_self huok.endHeld (huok.tx_lt hc), hout, hut]
    exact ⟨rfl, rfl⟩

/-! ## Link control words sent -/

theorem sendLcw_eq (e : LinkEnd) (typ c : Nat) (s : State) : ∃ w0 w1 u, sendLcw e typ c s = (u : State).emit (.lcw e w0 w1) ∧ u.out = s.out ∧
    u.regs = s.regs ∧ u.cmds = s.cmds := by
  unfold sendLcw
  exact ⟨_, _, _, rfl, by split <;> simp, by split <;> simp, by split <;> simp⟩

/-- A list of classes, a word each: so many outputs, and the registers and the commands as they were. -/
theorem sendLcw_each (e : LinkEnd) (typ : Nat) (cs : List Nat) (s : State) :
    ∃ l, (cs.foldl (fun t c => sendLcw e typ c t) s).out = l ++ s.out ∧ l.length = cs.length ∧ (∀ o ∈ l, ∃ w0 w1, o = .lcw e w0 w1) ∧
      (cs.foldl (fun t c => sendLcw e typ c t) s).regs = s.regs ∧ (cs.foldl (fun t c => sendLcw e typ c t) s).cmds = s.cmds := by
  induction cs generalizing s with
  | nil => exact ⟨[], rfl, rfl, by simp, rfl, rfl⟩
  | cons c cs ih =>
    obtain ⟨w0, w1, u, hu, hout, hregs, hcmds⟩ := sendLcw_eq e typ c s
    obtain ⟨l, hl, hlen, hlcw, hlregs, hlcmds⟩ := ih (sendLcw e typ c s)
    refine ⟨l ++ [.lcw e w0 w1], ?_, by simp [hlen], fun o ho => ?_, ?_, ?_⟩
    · rw [List.foldl_cons, hl, hu, State.out_emit, hout, List.append_assoc, List.singleton_append]
    · obtain ho | ho := List.mem_append.mp ho
      · exact hlcw o ho
      · exact ⟨w0, w1, List.mem_singleton.mp ho⟩
    · rw [List.foldl_cons, hlregs, hu, State.regs_emit, hregs]
    · rw [List.foldl_cons, hlcmds, hu, State.cmds_emit, hcmds]

/-! ## Messages received -/

/-- A message has arrived at the end: a Curd die notes that its link is not silent (R507). -/
def arrived : LinkEnd → State → State
  | .curd g d, s => markLive g d s
  | .rind _ _, s => s

/-- Traffic is restored: no reset has failed since (R31). -/
def FvEnd.restored (x : FvEnd) : FvEnd := { x with failedResets := 0 }

/-- The next message in order is accepted into a buffer, and traffic is restored (R28, R31). -/
def accept (e : LinkEnd) (m : Msg) (s : State) : State :=
  (modLink e FvEnd.restored s).modEnd e (FvEnd.modRx (m.cls % 4) fun r =>
    { r with last := m.lseq, held := r.held ++ [m], owed := true, requests := 0 })

/-- The receiver counts an error, and a request for the message again is due (R23, R28). -/
def refuseMsg (e : LinkEnd) (m : Msg) (code : Bool) (s : State) : State :=
  (linkError e code s).modEnd e (FvEnd.modRx (m.cls % 4) fun r => { r with requests := r.requests + 1 })

/-- The message is a code error: marked so, of a class foreign to the link, or longer than a buffer of its class (R23). -/
def codeError (e : LinkEnd) (m : Msg) (codeOk : Bool) : Bool := ! codeOk || ! e.classOk m.cls || decide ((farEnd e).room (m.cls % 4) < m.payload.length)

theorem codeError_iff {e : LinkEnd} {m : Msg} {codeOk : Bool} :
    codeError e m codeOk = true ↔ codeOk = false ∨ e.classOk m.cls = false ∨ (farEnd e).room (m.cls % 4) < m.payload.length := by
  simp [codeError, or_assoc]

theorem cmds_arrived (e : LinkEnd) (s : State) : (arrived e s).cmds = s.cmds := by cases e <;> simp [arrived, markLive]

theorem out_arrived (e : LinkEnd) (s : State) : (arrived e s).out = s.out := by cases e <;> simp [arrived, markLive]

theorem rx_arrived (e : LinkEnd) (s : State) : ((arrived e s).fvEnd e).rx = (s.fvEnd e).rx := by
  cases e with
  | rind d n => rfl
  | curd g d =>
    rw [arrived, markLive, State.fvEnd_wrC]
    exact State.fvEnd_modEnd_field FvEnd.rx fun _ => rfl

theorem State.EndOk.congr {s t : State} {e : LinkEnd} (h0 : t.f0 = s.f0) (h1 : t.f1 = s.f1) (hc : t.curds = s.curds) (h : s.EndOk e) : t.EndOk e := by
  have hrind (d : RSlot) : t.rind d = s.rind d := by cases d <;> simp [State.rind, h0, h1]
  cases e with
  | rind d n => simpa [State.EndOk, State.fvEnd_congr h0 h1 hc, hrind] using h
  | curd g d => simpa [State.EndOk, State.fvEnd_congr h0 h1 hc, State.curd, hc] using h

theorem State.EndOk.arrived {s : State} {e : LinkEnd} (h : s.EndOk e) : (arrived e s).EndOk e := by
  cases e with
  | rind d n => exact h
  | curd g d => exact State.EndOk.congr rfl rfl rfl (h.modEnd (x := .curd g d) (f := fun e => { e with silent := false }) (fun _ => rfl) fun _ => rfl)

theorem receive_error {e : LinkEnd} {m : Msg} {crc code : Bool} {s : State} (hup : s.linkUp e = true) (h : crc = false ∨ codeError e m code = true) :
    exec (.finvikMessageReceive e m crc code) s =
      .next (settle (sendLcw e 1 (m.cls % 4) (refuseMsg e m (codeError e m code) (arrived e s)))) := by
  show execFinvikMessageReceive e m crc code s = _
  refine (if_pos hup).trans ?_
  have hor : (codeError e m code || ! crc) = true := by simpa using h.symm
  cases e <;> exact if_pos hor

theorem receive_good {e : LinkEnd} {m : Msg} {s : State} (hup : s.linkUp e = true) (h : codeError e m true = false) :
    exec (.finvikMessageReceive e m true true) s =
      if m.lseq = ((s.rxOf e (m.cls % 4)).last + 1) % 0x10000 ∧ (s.rxOf e (m.cls % 4)).held.length < (farEnd e).credits (m.cls % 4) then
        .next (settle (if isKeepalive e m = true then takeMsg e m (accept e m (arrived e s)) else accept e m (arrived e s)))
      else .next (arrived e s) := by
  show execFinvikMessageReceive e m true true s = _
  refine (if_pos hup).trans ?_
  have hrx : s.rxOf e (m.cls % 4) = ((arrived e s).fvEnd e).rx.getD (m.cls % 4) {} := by rw [State.rxOf, rx_arrived]
  rw [hrx]
  have hor : ¬ (codeError e m true || ! true) = true := by simp [h]
  cases e <;> exact if_neg hor

theorem State.EndOk.restored {s : State} {e : LinkEnd} (h : s.EndOk e) : (modLink e FvEnd.restored s).EndOk e :=
  State.EndOk.modEnd (fun _ => rfl) (fun _ => rfl) (State.EndOk.modEnd (f := FvEnd.restored) (fun _ => rfl) (fun _ => rfl) h)

theorem State.EndOk.modRx {s : State} {e x : LinkEnd} {c : Nat} {f : RxClass → RxClass} (h : s.EndOk e) : (s.modEnd x (FvEnd.modRx c f)).EndOk e :=
  State.EndOk.modEnd (fun _ => rfl) (fun _ => length_modAt) h

theorem State.rxOf_restored (s : State) (e x : LinkEnd) (c : Nat) : (modLink e FvEnd.restored s).rxOf x c = s.rxOf x c := by
  have hfield (t : State) (y : LinkEnd) : (t.modEnd y FvEnd.restored).rxOf x c = t.rxOf x c :=
    State.fvEnd_modEnd_field (fun x => x.rx.getD c {}) fun _ => rfl
  rw [modLink, hfield, hfield]

theorem State.rxOf_accept {e : LinkEnd} {m : Msg} {s : State} (h : s.EndOk e) : (accept e m s).rxOf e (m.cls % 4) =
    { s.rxOf e (m.cls % 4) with last := m.lseq, held := (s.rxOf e (m.cls % 4)).held ++ [m], owed := true, requests := 0 } := by
  rw [accept, State.rxOf_modRx_self h.restored.endHeld (h.restored.rx_lt (Nat.mod_lt _ (by decide))), State.rxOf_restored]

theorem failedResets_accept {e : LinkEnd} {m : Msg} {s : State} (h : s.EndHeld e) : ((accept e m s).fvEnd e).failedResets = 0 := by
  have hrx (t : State) (c : Nat) (f : RxClass → RxClass) : ((t.modEnd e (FvEnd.modRx c f)).fvEnd e).failedResets = (t.fvEnd e).failedResets :=
    State.fvEnd_modEnd_field FvEnd.failedResets fun _ => rfl
  rw [accept, hrx, modLink, State.fvEnd_modEnd_other (farEnd_ne e).symm, State.fvEnd_modEnd_self h, FvEnd.restored]

theorem State.EndOk.accept {s : State} {e : LinkEnd} {m : Msg} (h : s.EndOk e) : (accept e m s).EndOk e := h.restored.modRx

theorem cmds_accept (e : LinkEnd) (m : Msg) (s : State) : (accept e m s).cmds = s.cmds := by simp [accept, modLink]

theorem out_accept (e : LinkEnd) (m : Msg) (s : State) : (accept e m s).out = s.out := by simp [accept, modLink]

/-- A message that is held leaves its buffer, which is freed (R30). -/
theorem State.rxOf_takeMsg {e : LinkEnd} {m : Msg} {s : State} (h : s.EndOk e) (hm : m ∈ (s.rxOf e (m.cls % 4)).held) :
    (takeMsg e m s).rxOf e (m.cls % 4) = { s.rxOf e (m.cls % 4) with
      held := (s.rxOf e (m.cls % 4)).held.erase m, freed := ((s.rxOf e (m.cls % 4)).freed + 1) % 0x10000, owed := true } :=
  (State.rxOf_modRx_self h.endHeld (h.rx_lt (Nat.mod_lt _ (by decide)))).trans (if_pos hm)

@[simp] theorem cmds_takeMsg (e : LinkEnd) (m : Msg) (s : State) : (takeMsg e m s).cmds = s.cmds := State.cmds_modEnd ..

@[simp] theorem out_takeMsg (e : LinkEnd) (m : Msg) (s : State) : (takeMsg e m s).out = s.out := State.out_modEnd ..

@[simp] theorem regs_takeMsg (e : LinkEnd) (m : Msg) (s : State) : (takeMsg e m s).regs = s.regs := State.regs_modEnd ..

/-- Settles O22: a message sent by what launching one message does, one received by the three ways a receiver takes it, and the periodic words class by class. -/
theorem finvikMessages : Obligations.FinvikMessages := by
  refine ⟨fun e cls eseq ws t m s hup hok hmute ht hnone hm => sendMsg_alone hup hok hmute ht hnone hm, ?_, ?_, ?_, ?_⟩
  · intro e m r s hup hok hcls hlen hr
    have hgood : codeError e m true = false := by simpa [codeError, hcls] using hlen
    have hacc := State.rxOf_accept (m := m) hok.arrived
    have hrx : (arrived e s).rxOf e (m.cls % 4) = r := by rw [hr, State.rxOf, rx_arrived]
    rw [hrx] at hacc
    rw [receive_good hup hgood, show s.rxOf e (m.cls % 4) = r from hr.symm]
    refine ⟨fun hseq hroom hka => ⟨accept e m (arrived e s), by simp [hseq, hroom, hka], ?_, ?_, failedResets_accept hok.arrived.endHeld, hacc⟩,
      fun hseq hroom hka => ?_, fun h => ⟨arrived e s, if_neg (by omega), cmds_arrived e s, out_arrived e s, rx_arrived e s⟩⟩
    · rw [cmds_accept, cmds_arrived]
    · rw [out_accept, out_arrived]
    · have htake := State.rxOf_takeMsg (m := m) hok.arrived.accept (by rw [hacc]; simp)
      rw [hacc] at htake
      refine ⟨takeMsg e m (accept e m (arrived e s)), by simp [hseq, hroom, hka], ?_, ?_, ?_, ?_⟩
      · rw [cmds_takeMsg, cmds_accept, cmds_arrived]
      · rw [out_takeMsg, out_accept, out_arrived]
      · exact congrArg RxClass.last htake
      · exact congrArg RxClass.freed htake
  · intro d n m crc code s hup h
    rw [receive_error hup (by rw [codeError_iff]; tauto)]
    simp only [refuseMsg, linkError, arrived, codeError_iff]
    rfl
  · intro g d m crc code s hup h
    rw [receive_error hup (by rw [codeError_iff]; tauto)]
    rfl
  · intro e s hup
    obtain ⟨l, hout, hlen, hlcw, hregs, hcmds⟩ := sendLcw_each e 0 (List.range 4) s
    exact ⟨_, l, congrArg Host.Outcome.next (if_pos hup), hout, hlen, hlcw, hregs, hcmds⟩

end Sys2Proof.Machine
end

section
/-! Link control words received, and a link that goes down: O24. -/

namespace Sys2Proof.Machine

/-! ## Words received -/

theorem lcwFields_class_lt {w0 w1 : Word} {typ c a f r : Nat} (h : lcwFields w0 w1 = (typ, c, a, f, r)) : c < 4 := by
  have hc : w0.toNat / 2 ^ 24 % 4 = c := congrArg (fun x => x.2.1) h
  omega

section
variable {typ : Nat} {e : LinkEnd} {w0 w1 : Word} {s : State} {F : Nat → Nat → Nat → Nat → State → State}

theorem onLcw_good {c a f r : Nat} (hup : s.linkUp e = true) (hgood : lcwGood w0 w1 = true) (hfields : lcwFields w0 w1 = (typ, c, a, f, r)) :
    onLcw typ e w0 w1 F s = F c a f r s := by
  simp [onLcw, hup, hgood, hfields]

theorem onLcw_bad (hup : s.linkUp e = true) (hbad : lcwGood w0 w1 = false) : onLcw typ e w0 w1 F s = linkError e true s := by
  simp [onLcw, hup, hbad]

end

theorem State.EndOk.modTx {s : State} {e x : LinkEnd} {c : Nat} {f : TxClass → TxClass} (h : s.EndOk e) : (s.modEnd x (FvEnd.modTx c f)).EndOk e :=
  State.EndOk.modEnd (fun _ => length_modAt) (fun _ => rfl) h

/-! ## The replay -/

/-- Messages put out one after the other (R28). -/
def resend (e : LinkEnd) (ms : List Msg) (s : State) : State := ms.foldl (fun t m => t.emit (.msg e m false)) s

theorem out_resend (e : LinkEnd) (ms : List Msg) (s : State) : (resend e ms s).out = ms.reverse.map (fun m => .msg e m false) ++ s.out := by
  induction ms generalizing s with
  | nil => rfl
  | cons m ms ih =>
    show (resend e ms (s.emit (.msg e m false))).out = _
    rw [ih]
    simp

/-- Putting messages out again changes the outputs alone. -/
theorem resend_field {β : Type} (π : State → β) (h : ∀ t o, π (State.emit t o) = π t) {e : LinkEnd} {ms : List Msg} {s : State} :
    π (resend e ms s) = π s := foldl_field π fun t m => h t (.msg e m false)

/-- What the replay store of a class holds after `a` (R28). -/
def State.later (s : State) (e : LinkEnd) (c a : Nat) : List Msg := (s.txOf e c).replay.filter (fun m => ! notAfter m.lseq a)

theorem replayFrom_eq (e : LinkEnd) (c a : Nat) (s : State) :
    replayFrom e c a s = resend e (s.later e c a) (s.modEnd e (FvEnd.modTx c fun y => { y with replay := s.later e c a })) := rfl

theorem txOf_replayFrom {e : LinkEnd} {c a : Nat} {s : State} (hok : s.EndOk e) (hc : c < 4) :
    (replayFrom e c a s).txOf e c = { s.txOf e c with replay := s.later e c a } := by
  rw [replayFrom_eq, resend_field (fun t => t.txOf e c) fun t o => by rw [State.txOf, State.fvEnd_emit]; rfl]
  exact State.txOf_modTx_self hok.endHeld (hok.tx_lt hc)

theorem out_replayFrom (e : LinkEnd) (c a : Nat) (s : State) :
    (replayFrom e c a s).out = (s.later e c a).reverse.map (fun m => .msg e m false) ++ s.out := by
  rw [replayFrom_eq, out_resend, State.out_modEnd]

theorem regs_replayFrom (e : LinkEnd) (c a : Nat) (s : State) : (replayFrom e c a s).regs = s.regs := by
  rw [replayFrom_eq, resend_field State.regs fun _ _ => rfl, State.regs_modEnd]

theorem cmds_replayFrom (e : LinkEnd) (c a : Nat) (s : State) : (replayFrom e c a s).cmds = s.cmds := by
  rw [replayFrom_eq, resend_field State.cmds fun _ _ => rfl, State.cmds_modEnd]

theorem State.EndOk.replayFrom {s : State} {e : LinkEnd} {c a : Nat} (h : s.EndOk e) : (replayFrom e c a s).EndOk e := by
  have hmod : (s.modEnd e (FvEnd.modTx c fun y => { y with replay := s.later e c a })).EndOk e := h.modTx
  exact State.EndOk.congr (resend_field State.f0 fun _ _ => rfl) (resend_field State.f1 fun _ _ => rfl) (resend_field State.curds fun _ _ => rfl) hmod

/-! ## The three words -/

section
variable {e : LinkEnd} {w0 w1 : Word} {c a f r : Nat} {s : State}

theorem creditAck_applied (hup : s.linkUp e = true) (hgood : lcwGood w0 w1 = true) (hfields : lcwFields w0 w1 = (0, c, a, f, r)) :
    exec (.lcwCreditAck e w0 w1) s = .next (settle (launchClass e c (s.modEnd e (FvEnd.modTx c fun y => { y.credited f with
      replay := y.replay.filter (fun m => ! notAfter m.lseq a), asked := y.asked.filter (fun p => p.1 = a) })))) := by
  show Host.Outcome.next (settle (onLcw 0 e w0 w1 _ s)) = _
  rw [onLcw_good hup hgood hfields]
  rfl

/-- How often in a row a replay request names LSEQ `a` of a class, this one included (R31). -/
def State.askedTimes (s : State) (e : LinkEnd) (c a : Nat) : Nat :=
  match (s.txOf e c).asked with
  | some (b, k) => if b = a then k + 1 else 1
  | none => 1

theorem State.askedTimes_again {n : Nat} (h : (s.txOf e c).asked = some (a, n)) : s.askedTimes e c a = n + 1 := by
  rw [State.askedTimes, h]
  exact if_pos rfl

theorem State.askedTimes_lt (h : ∀ n, (s.txOf e c).asked = some (a, n) → n < 2) : s.askedTimes e c a < 3 := by
  unfold State.askedTimes
  split
  · next b k hasked =>
    split
    · next hb =>
      have := h k (hb ▸ hasked)
      omega
    · omega
  · omega

theorem replayRequest_applied (hup : s.linkUp e = true) (hgood : lcwGood w0 w1 = true) (hfields : lcwFields w0 w1 = (1, c, a, f, r)) :
    ∃ u, u = s.modEnd e (FvEnd.modTx c fun y => { y.credited f with asked := some (a, s.askedTimes e c a) }) ∧
      exec (.lcwReplayRequest e w0 w1) s =
        .next (settle (if 3 ≤ s.askedTimes e c a then linkReset e u else launchClass e c (replayFrom e c a u))) := by
  refine ⟨_, rfl, ?_⟩
  show Host.Outcome.next (settle (onLcw 1 e w0 w1 _ s)) = _
  rw [onLcw_good hup hgood hfields]
  rfl

/-- A link that was being reset is up again, as its dies show it (R29, R41). -/
def showReset (e : LinkEnd) (s : State) : State :=
  (linkDies e).foldl (fun t d => if t.rdR d (R.DEV_FVSTAT_STATE (linkRegs e).2) = 2 then t.wrR d (R.DEV_FVSTAT_STATE (linkRegs e).2) 1 else t) s

/-- Showing the link's state changes the registers alone. -/
theorem showReset_field {β : Type} (π : State → β) (h : ∀ t d f v, π (State.wrR t d f v) = π t) : π (showReset e s) = π s :=
  foldl_field π fun t d => by
    split
    · exact h ..
    · rfl

/-- A class after a reset report (R29): replayed, with the credits that the free buffers give beside the replay. -/
def afterReset (e : LinkEnd) (c a r : Nat) (s : State) : State :=
  (showReset e (replayFrom e c a s)).modEnd e (FvEnd.modTx c fun y =>
    { y with credits := r - ((replayFrom e c a s).txOf e c).replay.length, freedApplied := 0 })

theorem resetReport_applied (hup : s.linkUp e = true) (hgood : lcwGood w0 w1 = true) (hfields : lcwFields w0 w1 = (2, c, a, f, r)) :
    exec (.lcwResetReport e w0 w1) s = .next (settle (launchClass e c (afterReset e c a r s))) := by
  show Host.Outcome.next (settle (onLcw 2 e w0 w1 _ s)) = _
  rw [onLcw_good hup hgood hfields]
  rfl

theorem txOf_afterReset (hok : s.EndOk e) (hc : c < 4) : (afterReset e c a r s).txOf e c =
    { s.txOf e c with credits := r - (s.later e c a).length, freedApplied := 0, replay := s.later e c a } := by
  have hok' : (showReset e (replayFrom e c a s)).EndOk e :=
    hok.replayFrom.congr (showReset_field State.f0 fun _ _ _ _ => rfl) (showReset_field State.f1 fun _ _ _ _ => rfl)
      (showReset_field State.curds fun _ _ _ _ => rfl)
  rw [afterReset, State.txOf_modTx_self hok'.endHeld (hok'.tx_lt hc),
    showReset_field (fun t => t.txOf e c) fun t d f v => by rw [State.txOf, State.fvEnd_wrR]; rfl, txOf_replayFrom hok hc]

theorem cmds_afterReset : (afterReset e c a r s).cmds = s.cmds := by
  rw [afterReset, State.cmds_modEnd, showReset_field State.cmds fun _ _ _ _ => rfl, cmds_replayFrom]

end

/-! ## A link that goes down -/

theorem linkDown_declared {d : RSlot} {n : Nat} {s : State} (hup : s.linkUp (.rind d n) = true)
    (h : 3 ≤ (s.fvEnd (.rind d n)).failedResets ∨ (s.fvEnd (.rind d n)).waits = true ∨ (s.fvEnd (farEnd (.rind d n))).waits = true) :
    exec (.linkDown d n) s = .next (settle (downLink (.rind d n) s)) := by
  show execLinkDown d n s = _
  exact if_pos ⟨hup, h⟩

/-- Both ends of the link marked down. -/
def markDown (e : LinkEnd) (s : State) : State := modLink e (fun x => { x with down := true }) s

theorem down_markDown {e : LinkEnd} {s : State} (h : s.EndHeld e) : ((markDown e s).fvEnd e).down = true := by
  rw [markDown, modLink, State.fvEnd_modEnd_other (farEnd_ne e).symm, State.fvEnd_modEnd_self h]

/-- Settles O24: each word by what it applies to its class; a word whose check fails is an error of the link; a link declared down is marked at both ends. -/
theorem linkControlWords : Obligations.LinkControlWords := by
  refine ⟨?_, ?_, ?_, ?_, ?_⟩
  · rintro e w0 w1 c a f r y s hup hok hgood hfields rfl
    have hc := lcwFields_class_lt hfields
    exact ⟨_, creditAck_applied hup hgood hfields, State.txOf_modTx_self hok.endHeld (hok.tx_lt hc), State.regs_modEnd .., State.cmds_modEnd ..,
      State.out_modEnd ..⟩
  · intro e w0 w1 c a f r s hup hok hgood hfields
    have hc := lcwFields_class_lt hfields
    obtain ⟨u, hu, hexec⟩ := replayRequest_applied hup hgood hfields
    refine ⟨fun n hn h2 => ?_, fun h => ?_⟩
    · have htimes := State.askedTimes_again hn
      rw [hexec, if_pos (by omega), hu, htimes]
      rfl
    · have htimes : ¬ 3 ≤ s.askedTimes e c a := not_le.mpr (State.askedTimes_lt h)
      have hok' : u.EndOk e := hu ▸ hok.modTx
      have hut : u.txOf e c = { (s.txOf e c).credited f with asked := some (a, s.askedTimes e c a) } := by
        rw [hu]
        exact State.txOf_modTx_self hok.endHeld (hok.tx_lt hc)
      have hreplay := txOf_replayFrom (a := a) hok' hc
      have hlater : u.later e c a = s.later e c a := by simp [State.later, hut, TxClass.credited]
      rw [hut] at hreplay
      refine ⟨replayFrom e c a u, s.askedTimes e c a, by rw [hexec, if_neg htimes], congrArg TxClass.asked hreplay, ?_, ?_,
        congrArg TxClass.credits hreplay, ?_⟩
      · rw [regs_replayFrom, hu, State.regs_modEnd]
      · rw [cmds_replayFrom, hu, State.cmds_modEnd]
      · rw [out_replayFrom, hlater, hu, State.out_modEnd]
        rfl
  · intro e w0 w1 c a f r s hup hok hgood hfields
    have htx := txOf_afterReset (a := a) (r := r) hok (lcwFields_class_lt hfields)
    have hreplay := congrArg TxClass.replay htx
    refine ⟨_, resetReport_applied hup hgood hfields, congrArg TxClass.freedApplied htx, ?_, hreplay, cmds_afterReset⟩
    exact (congrArg TxClass.credits htx).trans (congrArg (fun l => r - l.length) hreplay.symm)
  · intro d n w0 w1 s hup hbad
    refine ⟨?_, ?_, ?_⟩
    · show Host.Outcome.next (settle (onLcw 0 (.rind d n) w0 w1 _ s)) = _
      rw [onLcw_bad hup hbad]
      rfl
    · show Host.Outcome.next (settle (onLcw 1 (.rind d n) w0 w1 _ s)) = _
      rw [onLcw_bad hup hbad]
      rfl
    · show Host.Outcome.next (settle (onLcw 2 (.rind d n) w0 w1 _ s)) = _
      rw [onLcw_bad hup hbad]
      rfl
  · intro d n s hn hup hok hs h
    refine ⟨(markDown (.rind d n) s).wrR d (R.DEV_FVSTAT_STATE n) 3, _, ?_, ?_, ?_, ?_, rfl, ?_⟩
    · rw [State.fvEnd_wrR, down_markDown hok.endHeld]
    · have hregs : (markDown (.rind d n) s).regsWf = true := by simpa [markDown, modLink, State.regsWf] using hs
      exact State.rdR_wrR_self hregs ⟨by simp [R.DEV_FVSTAT_STATE], by simp [R.DEV_FVSTAT_STATE], by simp [R.DEV_FVSTAT_STATE]; omega⟩
    · simp [markDown, modLink]
    · simp [markDown, modLink]
    · rw [linkDown_declared hup h]
      rfl

end Sys2Proof.Machine
end

section
/-! Stall watches: O25. -/

namespace Sys2Proof.Machine

/-- What a firing leaves on the collector of a Rind die: the count, source 0x001, and a use of rung 1 (R37, R38, R550). -/
def stallNoted (d : RSlot) (detail : List Nat) (s : State) : State := useRung d 1 (raise d 0x001 detail (s.incR d R.DEV_STALLCNT_COUNT))

/-- What a firing leaves for a Curd die's stage: the count, and source 0x001 of the die, reported. -/
def curdStallNoted (g detail : Nat) (s : State) : State := curdRaise g 0x01 detail (s.incC g R.CDIE_STALLCNT_COUNT)

/-- The stage drained, once the firing is noted (R38, R39): its token goes back to its owner; a stalled lane resets its link. -/
def drainStage : Stage → State → State
  | .enginePort d e p, s =>
    if portUnit none p = some .budget then cycleDrained (drainEngine d e p (stallNoted d [0, e, p] s)) else drainEngine d e p (stallNoted d [0, e, p] s)
  | .formatterPort g p, s =>
    if p = 0x0C then drainChannel g (drainFormatter g p (curdStallNoted g p s)) else drainFormatter g p (curdStallNoted g p s)
  | .ladleChannel d ch, s => drainLadle d ch (stallNoted d [1, ch] s)
  | .command d p t, s => drainCommand d p t (stallNoted d [2, p, t] s)
  | .lane (.rind d n), s => linkReset (.rind d n) (stallNoted d [3, n] s)
  | .lane (.curd g d), s => linkReset (.curd g d) (curdStallNoted g 0 s)

theorem stallWatchFire_watched {st : Stage} {s : State} (h : s.watched st = true) :
    exec (.stallWatchFire st) s = .next (settle (drainStage st s)) := by
  show execStallWatchFire st s = _
  refine (if_neg (by simp [h])).trans ?_
  cases st with
  | lane e => cases e <;> rfl
  | _ => rfl

theorem stallWatchFire_unwatched {st : Stage} {s : State} (h : s.watched st = false) : exec (.stallWatchFire st) s = .next s := by
  show execStallWatchFire st s = _
  exact if_pos (by simp [h])

/-- A drained command goes back marked; one that is marked already passes upward (R550, R551). -/
theorem drainCommand_found {d : RSlot} {p t : Nat} {c : Cmd} {s : State} (h : s.cmds.find? (fun c => c.port = p ∧ c.tag = t) = some c) :
    drainCommand d p t s = if c.drained then raiseAll 0x0C1 [p, t] (recoverCmd c 3 (useRung d 3 s))
      else modCmd c.uid (fun x => { x with drained := true }) s := by
  rw [drainCommand, h]

/-- Below its top the count rises by one. -/
theorem rdR_incR_stallCount {d : RSlot} {s : State} (hs : s.regsWf = true) (h : s.rdR d R.DEV_STALLCNT_COUNT < 2 ^ 31) :
    (s.incR d R.DEV_STALLCNT_COUNT).rdR d R.DEV_STALLCNT_COUNT = s.rdR d R.DEV_STALLCNT_COUNT + 1 := by
  refine (State.rd_inc hs (by decide)).trans (Nat.min_eq_right ?_)
  have htop : R.DEV_STALLCNT_COUNT.top = 2 ^ 32 - 1 := rfl
  unfold State.rdR at h
  omega

/-- Settles O25: a firing on a pending stage notes itself and drains the stage; the clauses are the stages of `drainStage` in turn. -/
theorem stallWatches : Obligations.StallWatches := by
  refine ⟨?_, ?_, fun d ch s h => stallWatchFire_watched h, fun d p t s h => stallWatchFire_watched h, fun st s h => stallWatchFire_unwatched h,
    fun d p t c s h => ⟨fun hc => ?_, fun hc => ?_⟩, fun d n s h => stallWatchFire_watched h, fun g d s h => stallWatchFire_watched h,
    fun d s hs h => rdR_incR_stallCount hs h⟩
  · rintro d e p w s h rfl
    exact stallWatchFire_watched h
  · rintro g p w s h rfl
    exact stallWatchFire_watched h
  · simp [drainCommand_found h, hc]
  · simp [drainCommand_found h, hc]

end Sys2Proof.Machine
end

section
/-! What the outside sees of a state, and what fault events leave (R542 to R549). A rule of this file for a function on states is proved by `(rfl)` and
not by `rfl`: used as a definitional equation on a long chain of updates it makes the kernel unfold the chain. -/

namespace Sys2Proof.Machine

/-- The commands and the outputs of a state: what the outside has asked and has been told. -/
def State.host (s : State) : List Cmd × List Out := (s.cmds, s.out)

theorem State.host_eq {s t : State} : t.host = s.host ↔ t.cmds = s.cmds ∧ t.out = s.out := Prod.mk_inj

@[simp] theorem State.host_wr (s : State) (die : Nat) (f : Fld) (v : Nat) : (s.wr die f v).host = s.host := (rfl)

@[simp] theorem State.host_wrR (s : State) (d : RSlot) (f : Fld) (v : Nat) : (s.wrR d f v).host = s.host := (rfl)

@[simp] theorem State.host_wrC (s : State) (g : Nat) (f : Fld) (v : Nat) : (s.wrC g f v).host = s.host := (rfl)

@[simp] theorem State.host_incR (s : State) (d : RSlot) (f : Fld) (n : Nat) : (s.incR d f n).host = s.host := (rfl)

@[simp] theorem State.host_modRind (s : State) (d : RSlot) (h : RindDie → RindDie) : (s.modRind d h).host = s.host := by cases d <;> rfl

@[simp] theorem State.host_modCurd (s : State) (g : Nat) (h : CurdDie → CurdDie) : (s.modCurd g h).host = s.host := (rfl)

@[simp] theorem State.host_modEnd (s : State) (e : LinkEnd) (f : FvEnd → FvEnd) : (s.modEnd e f).host = s.host := by simp [State.host]

@[simp] theorem host_takeMsg (e : LinkEnd) (m : Msg) (s : State) : (takeMsg e m s).host = s.host := State.host_modEnd ..

@[simp] theorem State.host_ite {a b : State} {c : Prop} [Decidable c] : (if c then a else b).host = if c then a.host else b.host :=
  apply_ite State.host c a b

@[simp] theorem host_modStep (d : RSlot) (f : StepLogic → StepLogic) (s : State) : (modStep d f s).host = s.host := State.host_modRind ..

@[simp] theorem host_showStep (d : RSlot) (k : Nat) (s : State) : (showStep d k s).host = s.host := (rfl)

/-! ## What an event leaves -/

/-- A part of the state that no event reaches: events write registers, islands, ALIVE and the actions due, and nothing else. -/
structure EventFree {β : Type} (π : State → β) : Prop where
  wr : ∀ s die f v, π (State.wr s die f v) = π s
  modRind : ∀ s d h, π (State.modRind s d h) = π s
  stopAlive : ∀ s, π (stopAlive s) = π s
  todo : ∀ (s : State) l, π { s with todo := l } = π s

section
variable {β : Type} {π : State → β} (hπ : EventFree π)
include hπ

theorem EventFree.wrR (s : State) (d : RSlot) (f : Fld) (v : Nat) : π (s.wrR d f v) = π s := hπ.wr ..

theorem EventFree.incR (s : State) (d : RSlot) (f : Fld) (n : Nat) : π (s.incR d f n) = π s := hπ.wr ..

theorem EventFree.bump (s : State) (die : Nat) (f : Fld) (n : Nat) : π (s.bump die f n) = π s := hπ.wr ..

theorem EventFree.stageRec (d : RSlot) (r : LogRec) (s : State) : π (stageRec d r s) = π s := by
  fun_cases Machine.stageRec <;> simp +zetaDelta [hπ.wrR, hπ.bump, hπ.modRind]

theorem EventFree.enterFault (die src sev : Nat) (s : State) : π (enterFault die src sev s) = π s := by
  rw [Machine.enterFault, hπ.stopAlive]
  exact foldl_field π fun t d => by
    rw [hπ.modRind, hπ.wrR, hπ.wrR, hπ.wrR, hπ.wrR]
    split
    · exact hπ.wrR ..
    · rfl

theorem EventFree.fatalAction (d : RSlot) (src : Nat) (s : State) : π (fatalAction d src s) = π s := by
  unfold Machine.fatalAction
  split
  · rfl
  · split
    · exact hπ.todo ..
    · split
      · exact hπ.todo ..
      · rfl

theorem EventFree.raiseFull (d : RSlot) (die src : Nat) (detail : List Nat) (fix : Option Nat) (s : State) : π (raiseFull d die src detail fix s) = π s := by
  simp [Machine.raiseFull, apply_ite π, hπ.fatalAction, hπ.enterFault, hπ.stageRec, hπ.wrR, hπ.modRind, hπ.incR]

theorem EventFree.raise (d : RSlot) (src : Nat) (detail : List Nat) (s : State) : π (raise d src detail s) = π s := hπ.raiseFull ..

end

theorem eventFree_host : EventFree State.host := ⟨fun _ _ _ _ => (rfl), State.host_modRind, fun _ => (rfl), fun _ _ => (rfl)⟩

@[simp] theorem host_raise (d : RSlot) (src : Nat) (detail : List Nat) (s : State) : (raise d src detail s).host = s.host := eventFree_host.raise ..

end Sys2Proof.Machine
end

section
/-! The step exchange: O26. -/

namespace Sys2Proof.Machine

/-! ## Who serves and who leads -/

theorem State.inTwo_iff {s : State} : s.inTwo = true ↔ s.part.f = 2 ∧ s.fenced .f0 = false ∧ s.fenced .f1 = false := by
  unfold State.inTwo State.serving State.rinds
  by_cases hf : s.part.f = 2 <;> cases h0 : s.fenced .f0 <;> cases h1 : s.fenced .f1 <;> simp [hf, h0, h1]

theorem State.rinds_two {s : State} (h : s.part.f = 2) : s.rinds = [.f0, .f1] := if_pos h

section
variable {s t : State} (hpart : t.part = s.part) (hrole : ∀ d, t.rdR d R.STEP_STAT_ROLE = s.rdR d R.STEP_STAT_ROLE)
include hpart hrole

theorem State.fenced_congr (d : RSlot) : t.fenced d = s.fenced d := by
  have hd : t.role d = s.role d := by simp [State.role, hpart, hrole]
  rw [State.fenced, State.fenced, hd]

theorem State.serving_congr : t.serving = s.serving := by
  simp [State.serving, State.rinds, State.fenced_congr hpart hrole, hpart]

theorem State.senior_congr (hlease : t.rdR .f1 R.STEP_STAT_LEASE = s.rdR .f1 R.STEP_STAT_LEASE) : t.senior = s.senior := by
  simp [State.senior, State.fenced_congr hpart hrole, hpart, hlease]

end

/-! ## The step logic -/

theorem rind_modStep (d : RSlot) (f : StepLogic → StepLogic) (s : State) : ((modStep d f s).rind d).step = f (s.rind d).step := by
  simp [modStep]

@[simp] theorem regs_modStep (d : RSlot) (f : StepLogic → StepLogic) (s : State) : (modStep d f s).regs = s.regs := by cases d <;> rfl

@[simp] theorem part_modStep (d : RSlot) (f : StepLogic → StepLogic) (s : State) : (modStep d f s).part = s.part := by cases d <;> rfl

@[simp] theorem rdR_modStep (d e : RSlot) (g : Fld) (f : StepLogic → StepLogic) (s : State) : (modStep d f s).rdR e g = s.rdR e g := by cases d <;> rfl

/-- The messages taken out of a buffer leave the rest of the state. -/
theorem takeWhere_field {β : Type} (π : State → β) (h : ∀ e m t, π (takeMsg e m t) = π t) {e : LinkEnd} {c : Nat} {p : Msg → Bool} {s : State} :
    π (takeWhere e c p s) = π s := by
  unfold takeWhere
  split
  · exact h ..
  · rfl

@[simp] theorem host_takeWhere (e : LinkEnd) (c : Nat) (p : Msg → Bool) (s : State) : (takeWhere e c p s).host = s.host :=
  takeWhere_field State.host fun _ _ _ => host_takeMsg ..

@[simp] theorem regs_takeWhere (e : LinkEnd) (c : Nat) (p : Msg → Bool) (s : State) : (takeWhere e c p s).regs = s.regs :=
  takeWhere_field State.regs fun _ _ _ => regs_takeMsg ..

@[simp] theorem part_takeWhere (e : LinkEnd) (c : Nat) (p : Msg → Bool) (s : State) : (takeWhere e c p s).part = s.part :=
  takeWhere_field State.part fun _ _ _ => State.part_modEnd ..

theorem State.rdR_congr {s t : State} (h : t.regs = s.regs) (d : RSlot) (f : Fld) : t.rdR d f = s.rdR d f := by
  simp [State.rdR, State.rd, State.word, h]

@[simp] theorem rdR_takeWhere (e : LinkEnd) (c : Nat) (p : Msg → Bool) (s : State) (d : RSlot) (f : Fld) : (takeWhere e c p s).rdR d f = s.rdR d f :=
  State.rdR_congr (regs_takeWhere ..) d f

/-- A link end is no part of the step logic. -/
@[simp] theorem State.step_modEnd (s : State) (e : LinkEnd) (f : FvEnd → FvEnd) (d : RSlot) : ((s.modEnd e f).rind d).step = (s.rind d).step := by
  cases e with
  | curd g c => cases d <;> rfl
  | rind c n => cases c <;> cases d <;> rfl

@[simp] theorem step_takeWhere (e : LinkEnd) (c : Nat) (p : Msg → Bool) (s : State) (d : RSlot) : ((takeWhere e c p s).rind d).step = (s.rind d).step :=
  takeWhere_field (fun t => (t.rind d).step) fun _ _ _ => State.step_modEnd ..

/-! ## STEP messages -/

/-- A STEP message has come: it leaves its buffer, the link is up, and HELD is noted (R32, R494). -/
def stepNoted (d : RSlot) (held : Nat) (s : State) : State :=
  modStep d (fun x => { x with peerHeld := max x.peerHeld held }) ((takeWhere (.rind d 6) 0 (fun _ => true) s).wrR d R.STEP_STAT_LINKUP 1)

@[simp] theorem host_stepNoted (d : RSlot) (held : Nat) (s : State) : (stepNoted d held s).host = s.host := by simp [stepNoted]

theorem step_stepNoted (d : RSlot) (held : Nat) (s : State) :
    ((stepNoted d held s).rind d).step = { (s.rind d).step with peerHeld := max (s.rind d).step.peerHeld held } := by
  simp [stepNoted, rind_modStep]

/-- LINKUP is neither the role nor the lease. -/
theorem senior_stepNoted {d : RSlot} {held : Nat} {s : State} (hs : s.regsWf = true) : (stepNoted d held s).senior = s.senior := by
  have hregs : (takeWhere (.rind d 6) 0 (fun _ => true) s).regsWf = true := by simpa [State.regsWf] using hs
  have hfield (e : RSlot) (g : Fld) (hg : g.Ok) (h : 25 < g.lo) : (stepNoted d held s).rdR e g = s.rdR e g := by
    rw [stepNoted, rdR_modStep, State.rdR_wrR_apart hregs (by decide) hg (.inr (.inl h)), rdR_takeWhere]
  exact State.senior_congr (by simp [stepNoted]) (fun e => hfield e _ (by decide) (by decide)) (hfield .f1 _ (by decide) (by decide))

/-- The senior's entries under their numbers (R494). -/
def numbered (first : Nat) (es : List StepEnt) : Nat × List StepEntry :=
  es.foldl (fun acc e => (acc.1 + 1, acc.2 ++ [⟨acc.1, e.kind, e.fromJ, e.src, e.data⟩])) (first, [])

theorem numbered_steps (es : List StepEnt) (first : Nat) : (numbered first es).1 = first + es.length ∧
    (numbered first es).2.map StepEntry.step = List.range' first es.length := by
  induction es using List.reverseRecOn with
  | nil => exact ⟨rfl, rfl⟩
  | append_singleton es e ih =>
    obtain ⟨hnext, hsteps⟩ := ih
    have hsnoc : numbered first (es ++ [e]) = ((numbered first es).1 + 1, (numbered first es).2 ++ [⟨(numbered first es).1, e.kind, e.fromJ, e.src, e.data⟩]) :=
      List.foldl_append ..
    rw [hsnoc]
    refine ⟨by simp [hnext, Nat.add_assoc], ?_⟩
    simp [hsteps, hnext, List.range'_concat]

/-- What the junior holds of a message once it has taken it (R494, R496). -/
def tookEntries (m : StepMsg) (x : StepLogic) : StepLogic :=
  { x with
    entries := x.entries ++ (numbered m.first m.entries).2.filter (fun e => decide (x.done ≤ e.step) && ! x.entries.any (fun f => f.step = e.step))
    next := max x.next (m.first + m.entries.length) }

/-- Every step of the message that is not processed is held. -/
theorem tookEntries_holds {m : StepMsg} {x : StepLogic} {i : Nat} (hi : i < m.entries.length) (hdone : x.done ≤ m.first + i) :
    ∃ e ∈ (tookEntries m x).entries, e.step = m.first + i := by
  have hmem : m.first + i ∈ (numbered m.first m.entries).2.map StepEntry.step := by
    rw [(numbered_steps m.entries m.first).2]
    simp [List.mem_range'_1, hi]
  obtain ⟨e, he, hstep⟩ := List.mem_map.mp hmem
  by_cases hheld : ∃ f ∈ x.entries, f.step = m.first + i
  · obtain ⟨f, hf, hfs⟩ := hheld
    exact ⟨f, List.mem_append_left _ hf, hfs⟩
  · refine ⟨e, List.mem_append_right _ (List.mem_filter.mpr ⟨he, ?_⟩), hstep⟩
    rw [hstep]
    simpa [hdone] using hheld

section
variable {d : RSlot} {m : StepMsg} {s : State} (hf : s.part.f = 2)
include hf

theorem stepMessage_overdue (h : m.overdue = true) : exec (.stepMessage d m) s = .next (settle (diverge 2 d (stepNoted d m.held s))) := by
  show execStepMessage d m s = _
  exact (if_pos hf).trans (if_pos h)

theorem stepMessage_junior (h : m.overdue = false) (hs : s.regsWf = true) (hjunior : s.senior ≠ d) :
    exec (.stepMessage d m) s = .next (settle (modStep d (tookEntries m) (stepNoted d m.held s))) := by
  show execStepMessage d m s = _
  refine (if_pos hf).trans ((if_neg (by simp [h])).trans ?_)
  exact if_neg (show (stepNoted d m.held s).senior ≠ d by rwa [senior_stepNoted hs])

/-- The senior numbers a proposal of the junior, unless it holds it already, or the order has no room for it (R494, R496). -/
def numberProposal (d : RSlot) (acc : State × List StepEntry) (e : StepEnt) : State × List StepEntry :=
  let x := (acc.1.rind d).step
  if x.entries.any (fun f => f.kind = e.kind ∧ f.src = e.src ∧ f.data = e.data) then (acc.1.incR d R.STEP_WHEY_PEER, acc.2)
  else if 384 ≤ x.next - (x.peerHeld + 1) then (modStep d (fun x => { x with props := x.props ++ [e] }) acc.1, acc.2)
  else
    let f : StepEntry := ⟨x.next, e.kind, true, e.src, e.data⟩
    (modStep d (fun x => { x with next := x.next + 1, entries := x.entries ++ [f] }) acc.1, acc.2 ++ [f])

/-- STEP_STAT shows how far the junior is behind (R519). -/
def showLag (d : RSlot) (s : State) : State := s.wrR d R.STEP_STAT_LAG (min 384 ((s.rind d).step.next - ((s.rind d).step.peerHeld + 1)))

theorem stepMessage_senior {r : State × List StepEntry} (h : m.overdue = false) (hs : s.regsWf = true) (hsenior : s.senior = d)
    (hr : r = (m.entries ++ (s.rind d).step.props).foldl (numberProposal d) (modStep d (fun x => { x with props := [] }) (stepNoted d m.held s), [])) :
    exec (.stepMessage d m) s = .next (settle (linkBack d (s.bitR d R.STEP_STAT_LINKUP)
      (if r.2.isEmpty then showLag d r.1 else sendStep d r.2 (showLag d r.1)))) := by
  subst hr
  show execStepMessage d m s = _
  refine (if_pos hf).trans ((if_neg (by simp [h])).trans ?_)
  have hprops : (s.rind d).step.props = ((stepNoted d m.held s).rind d).step.props := by rw [step_stepNoted]
  rw [hprops]
  exact if_pos (show (stepNoted d m.held s).senior = d by rw [senior_stepNoted hs, hsenior])

end

theorem numberProposal_new {d : RSlot} {s : State} {l : List StepEntry} {e : StepEnt} {x : StepLogic} (hx : x = (s.rind d).step)
    (hnew : ∀ f ∈ x.entries, ¬ (f.kind = e.kind ∧ f.src = e.src ∧ f.data = e.data)) (hroom : x.next - (x.peerHeld + 1) < 384) :
    numberProposal d (s, l) e = (modStep d (fun y => { y with next := y.next + 1, entries := y.entries ++ [⟨x.next, e.kind, true, e.src, e.data⟩] }) s,
      l ++ [⟨x.next, e.kind, true, e.src, e.data⟩]) := by
  subst hx
  refine (if_neg ?_).trans (if_neg (not_le.mpr hroom))
  simpa using hnew

/-! ## Steps processed -/

/-- The die has processed a step, and used up its own copy of the input (R495). -/
def processed (e : StepEntry) (mine : Option (Nat × Nat × Nat)) (x : StepLogic) : StepLogic :=
  { x with
    done := e.step + 1, entries := x.entries.erase e, steps := x.steps + 1
    own := match mine with
      | some o => x.own.erase o
      | none => x.own }

/-- The die's own copy of a step's input. -/
def StepLogic.ownCopy (x : StepLogic) (e : StepEntry) : Option (Nat × Nat × Nat) := x.own.find? (fun o => decide (o.1 = e.kind ∧ o.2.1 = e.src))

section
variable {d : RSlot} {x : StepLogic} {e : StepEntry} {s : State} (hx : x = (s.rind d).step) (he : x.entries.find? (fun e => e.step = x.done) = some e)
  (hserves : s.fenced d = false) (hfwd : e.kind = 2 ∨ e.kind = 3 → x.fwd.any (fun p => p.1 = e.src) = true)
  (hheld : s.inTwo = true → s.senior = d → e.step ≤ x.peerHeld)
include hx he hserves hfwd hheld

/-- The next entry in order, once the die has what it needs for it: a divergence where the own copy differs, else it is applied. -/
theorem stepProcess_due (hown : e.kind = 5 ∨ e.kind = 6 → (x.ownCopy e).isSome = true) : exec (.stepProcess d) s =
    if (e.kind = 5 ∨ e.kind = 6) ∧ (x.ownCopy e).map (fun o => o.2.2) ≠ some e.data then
      .next (settle (diverge 3 (divergenceTarget (s.f0.island.ownNow || s.f0.island.ownPrev) (s.f1.island.ownNow || s.f1.island.ownPrev) s) s))
    else .next (settle (applyEntry d e (modStep d (processed e (x.ownCopy e)) (showStep d e.step s)))) := by
  show execStepProcess d s = _
  unfold execStepProcess
  subst hx
  simp only [he]
  refine (if_neg ?_).trans ?_
  · rintro (hfenced | ⟨hneed, hnone⟩ | ⟨hneed, hnone⟩ | ⟨htwo, hsenior, hlt⟩)
    · simp [hserves] at hfenced
    · simp [hfwd (by simpa using hneed)] at hnone
    · have := hown (by simpa using hneed)
      rw [StepLogic.ownCopy, ← Option.not_isNone, hnone] at this
      simp at this
    · have := hheld htwo hsenior
      omega
  · simp only [decide_eq_true_eq]
    rfl

end

/-! ## Content asked for -/

/-- The junior has asked for the content of step `k` (R495). -/
def contentAsked (k : Nat) (s : State) : State :=
  modStep s.senior.peer (fun x => { x with asked := k :: x.asked }) (s.incR s.senior.peer R.STEP_WHEY_RELAY)

theorem host_contentAsked (k : Nat) (s : State) : (contentAsked k s).host = s.host := by simp [contentAsked]

/-- STEP_WHEY is another register than STEP_STAT. -/
theorem senior_contentAsked {k : Nat} {s : State} (hs : s.regsWf = true) : (contentAsked k s).senior = s.senior := by
  have hfield (e : RSlot) (g : Fld) (hg : g.Ok) (h : g.off ≠ R.STEP_WHEY_RELAY.off) : (contentAsked k s).rdR e g = s.rdR e g := by
    rw [contentAsked, rdR_modStep]
    exact State.rdR_wrR_apart hs (by decide) hg (.inl h.symm)
  exact State.senior_congr (by rw [contentAsked, part_modStep]; rfl) (fun e => hfield e _ (by decide) (by decide)) (hfield .f1 _ (by decide) (by decide))

theorem contentRequest_lacked {k : Nat} {e : StepEntry} {s : State} (htwo : s.inTwo = true)
    (he : (s.rind s.senior.peer).step.entries.find? (fun e => e.step = k) = some e) (hkind : e.kind = 5 ∨ e.kind = 6)
    (hown : ∀ o ∈ (s.rind s.senior.peer).step.own, ¬ (o.1 = e.kind ∧ o.2.1 = e.src)) :
    exec (.contentRequest k) s =
      .next ((contentAsked k s).emit (.fwd (contentAsked k s).senior k (.relay e.kind e.src e.data))) := by
  have hlacks : (s.rind s.senior.peer).step.own.any (fun o => decide (o.1 = e.kind ∧ o.2.1 = e.src)) = false := by simpa using hown
  show execContentRequest k s = _
  unfold execContentRequest
  simp only [he]
  exact (if_pos htwo).trans (if_pos ⟨hkind, by rw [hlacks]; rfl⟩)

/-! ## A link lost -/

theorem endResync_inTwo {s : State} (h : s.inTwo = true) : endResync s = s := by
  obtain ⟨hf, h0, h1⟩ := State.inTwo_iff.mp h
  have hnone : s.rinds.find? (fun d => s.role d = roleResync) = none := by
    have h0' : s.role .f0 ≠ roleResync := fun hr => by simp [State.fenced, hr] at h0
    have h1' : s.role .f1 ≠ roleResync := fun hr => by simp [State.fenced, hr] at h1
    simp [State.rinds_two hf, h0', h1']
  rw [endResync, hnone]

/-- Each die counts the split and raises source 0x0A1 (R512). -/
def splitNoted (s : State) : State := s.rinds.foldl (fun t d => raise d 0x0A1 [] ((t.wrR d R.STEP_STAT_LINKUP 0).incR d R.STEP_EVT_SPLITS)) s

/-- Each die notes when the split began and whether it believed it held the lease (R512). -/
def splitBegun (holder : RSlot) (s : State) : State :=
  s.rinds.foldl (fun t d => modStep d (fun x => { x with split := some (s.now, decide (d = holder)), grants := [], refusals := [], claim := none }) t) s

theorem host_splitNoted (s : State) : (splitNoted s).host = s.host := foldl_field State.host fun _ _ => by simp

theorem part_splitNoted (s : State) : (splitNoted s).part = s.part := foldl_field State.part fun _ _ => (raise_kept (.refl _)).part

theorem now_splitNoted (s : State) : (splitNoted s).now = s.now := foldl_field State.now fun _ _ => (raise_kept (.refl _)).now

theorem host_splitBegun (holder : RSlot) (s : State) : (splitBegun holder s).host = s.host := foldl_field State.host fun _ _ => host_modStep ..

theorem split_splitBegun {holder : RSlot} {s : State} (hf : s.part.f = 2) (d : RSlot) :
    ((splitBegun holder s).rind d).step.split = some (s.now, decide (d = holder)) := by
  rw [splitBegun, State.rinds_two hf]
  cases d <;> rfl

/-- Settles O26: each message by what it notes at the die it reaches, and a held step by what the die must have before it is applied. -/
theorem stepExchange : Obligations.StepExchange := by
  refine ⟨fun d s hf => congrArg Host.Outcome.next (if_pos hf), ?lost, ?junior, ?senior, fun d m s hf h => stepMessage_overdue hf h, ?process, ?fwd,
    ?content⟩
  case lost =>
    intro s hf hup htwo
    have hhost : (splitBegun s.senior (splitNoted s)).host = s.host := (host_splitBegun ..).trans (host_splitNoted s)
    have hf' : (splitNoted s).part.f = 2 := by rw [part_splitNoted, hf]
    refine ⟨splitBegun s.senior (splitNoted s), fun d => ?_, (State.host_eq.mp hhost).1, ?_⟩
    · rw [split_splitBegun hf', now_splitNoted]
    · show execStepLinkLost s = _
      refine (if_pos ⟨hf, hup⟩).trans ((if_pos htwo).trans ?_)
      rw [endResync_inTwo htwo]
      rfl
  case junior =>
    intro d m s hf hjunior hdue hs
    have hhost : (modStep d (tookEntries m) (stepNoted d m.held s)).host = s.host := by simp
    have hstep : ((modStep d (tookEntries m) (stepNoted d m.held s)).rind d).step = tookEntries m ((stepNoted d m.held s).rind d).step := rind_modStep ..
    rw [step_stepNoted] at hstep
    refine ⟨_, stepMessage_junior hf hdue hs hjunior, (State.host_eq.mp hhost).1, (State.host_eq.mp hhost).2, ?_, ?_, fun i hi hdone => ?_⟩
    · exact congrArg StepLogic.peerHeld hstep
    · exact congrArg StepLogic.next hstep
    · rw [hstep]
      exact tookEntries_holds hi hdone
  case senior =>
    intro d m e s hf hsenior hdue hs hentries hprops hroom hnew
    have hx : ((modStep d (fun x => { x with props := [] }) (stepNoted d m.held s)).rind d).step =
        { (s.rind d).step with props := [], peerHeld := max (s.rind d).step.peerHeld m.held } := by rw [rind_modStep, step_stepNoted]
    have hfold := numberProposal_new (l := []) (e := e) hx.symm hnew (show (s.rind d).step.next - (max (s.rind d).step.peerHeld m.held + 1) < 384 by omega)
    refine ⟨showLag d (modStep d (fun y => { y with next := y.next + 1, entries := y.entries ++ [⟨(s.rind d).step.next, e.kind, true, e.src, e.data⟩] })
      (modStep d (fun x => { x with props := [] }) (stepNoted d m.held s))), ?_, ?_, ?_, ?_⟩
    · rw [stepMessage_senior hf hdue hs hsenior (by rw [hentries, hprops, List.append_nil, List.foldl_cons, List.foldl_nil, hfold])]
      rfl
    · simp [showLag, rind_modStep, step_stepNoted]
    · simp [showLag, rind_modStep, step_stepNoted]
    · exact State.host_eq.mp (by simp [showLag])
  case process =>
    intro d x e s hx he hserves hfwd hheld
    have hdue := stepProcess_due hx he hserves hfwd hheld
    have hstep : ((modStep d (processed e (x.ownCopy e)) (showStep d e.step s)).rind d).step = processed e (x.ownCopy e) x := by
      rw [rind_modStep, hx]
      simp [showStep]
    have hhost := State.host_eq.mp (show (modStep d (processed e (x.ownCopy e)) (showStep d e.step s)).host = s.host by simp)
    refine ⟨fun h5 h6 => ?_, fun o hkind ho hne => ?_, fun o hkind ho heq => ?_⟩
    · rw [hdue (by simp [h5, h6]), if_neg (by simp [h5, h6])]
      exact ⟨_, rfl, congrArg StepLogic.done hstep, congrArg StepLogic.entries hstep, hhost⟩
    · have hcopy : x.ownCopy e = some o := ho
      rw [hdue (by simp [hcopy]), if_pos ⟨hkind, by simp [hcopy, hne]⟩]
    · have hcopy : x.ownCopy e = some o := ho
      rw [hdue (by simp [hcopy]), if_neg (by simp [hcopy, heq])]
      refine ⟨_, rfl, congrArg StepLogic.done hstep, ?_, hhost⟩
      rw [hstep, hcopy]
      rfl
  case fwd =>
    intro d k c s hf
    have hexec : ∃ f, exec (.fwdMessage d k c) s = .next (settle (modStep d f (takeWhere (.rind d 6) 2 (fun m => m.lseq = k) s))) ∧
        ∀ x, (f x).fwd = assocPut k c x.fwd := ⟨_, if_pos hf, fun _ => rfl⟩
    obtain ⟨f, hexec, hfwd⟩ := hexec
    refine ⟨_, hexec, ?_, by simp, State.host_eq.mp (by simp)⟩
    rw [rind_modStep, hfwd]
    simp [assocPut]
  case content =>
    intro k e s htwo he hkind hown hs
    have hexec := contentRequest_lacked htwo he hkind hown
    rw [senior_contentAsked hs] at hexec
    refine ⟨_, hexec, ?_, ?_, ?_⟩
    · rw [State.out_emit, (State.host_eq.mp (host_contentAsked k s)).2]
    · rw [State.rind_emit, contentAsked, rind_modStep]
      exact List.mem_cons_self
    · rw [State.cmds_emit, (State.host_eq.mp (host_contentAsked k s)).1]

end Sys2Proof.Machine
end

section
/-! Sector commands and their data at a Curd die: O30. -/

namespace Sys2Proof.Machine

/-! ## The formatter -/

@[simp] theorem State.fmt_modEnd (s : State) (e : LinkEnd) (f : FvEnd → FvEnd) (g : Nat) : (s.modEnd e f).fmt g = s.fmt g := by
  cases e with
  | curd k d => exact getD_modAt_field CurdDie.fmt fun _ => rfl
  | rind d n => cases d <;> rfl

@[simp] theorem State.fmt_incC (s : State) (h : Nat) (f : Fld) (n g : Nat) : (s.incC h f n).fmt g = s.fmt g := (rfl)

@[simp] theorem fmt_takeMsg (e : LinkEnd) (m : Msg) (s : State) (g : Nat) : (takeMsg e m s).fmt g = s.fmt g := State.fmt_modEnd ..

@[simp] theorem fmt_markLive (k : Nat) (d : RSlot) (s : State) (g : Nat) : (markLive k d s).fmt g = s.fmt g := State.fmt_modEnd ..

theorem fmt_modFmt_self {g : Nat} {f : Fmt → Fmt} {s : State} (h : g < s.curds.length) : (modFmt g f s).fmt g = f (s.fmt g) := by
  rw [State.fmt, modFmt, State.curd_modCurd _ _ _ h]
  rfl

/-- What a change leaves of each formatter it leaves of every formatter. -/
theorem fmt_modFmt_field {β : Type} (π : Fmt → β) {k g : Nat} {f : Fmt → Fmt} {s : State} (h : ∀ x, π (f x) = π x) :
    π ((modFmt k f s).fmt g) = π (s.fmt g) := getD_modAt_field (fun c : CurdDie => π c.fmt) fun _ => h _

@[simp] theorem host_modFmt (g : Nat) (f : Fmt → Fmt) (s : State) : (modFmt g f s).host = s.host := (rfl)

@[simp] theorem host_markLive (g : Nat) (d : RSlot) (s : State) : (markLive g d s).host = s.host := by simp [markLive]

@[simp] theorem State.host_incC (s : State) (g : Nat) (f : Fld) (n : Nat) : (s.incC g f n).host = s.host := (rfl)

@[simp] theorem host_discardCopy (g : Nat) (src : RSlot) (m : Msg) (s : State) : (discardCopy g src m s).host = s.host := by simp [discardCopy]

@[simp] theorem fmt_discardCopy (k : Nat) (src : RSlot) (m : Msg) (s : State) (g : Nat) : (discardCopy k src m s).fmt g = s.fmt g := by
  simp [discardCopy]

@[simp] theorem curds_length_markLive (g : Nat) (d : RSlot) (s : State) : (markLive g d s).curds.length = s.curds.length :=
  State.curds_length_modEnd

@[simp] theorem curds_length_takeMsg (e : LinkEnd) (m : Msg) (s : State) : (takeMsg e m s).curds.length = s.curds.length :=
  State.curds_length_modEnd

/-- FMT_STAT shows the formatter and changes registers alone. -/
theorem showFmt_field {β : Type} (π : State → β) (h : ∀ t g f v, π (State.wrC t g f v) = π t) (g : Nat) (s : State) : π (showFmt g s) = π s := by
  unfold showFmt
  simp only [h]
  split <;> simp only [h]

@[simp] theorem host_showFmt (g : Nat) (s : State) : (showFmt g s).host = s.host := showFmt_field State.host (fun _ _ _ _ => rfl) g s

@[simp] theorem fmt_showFmt (k : Nat) (s : State) (g : Nat) : (showFmt k s).fmt g = s.fmt g :=
  showFmt_field (fun t => t.fmt g) (fun _ _ _ _ => rfl) k s

/-! ## The lease record -/

/-- LIVE of a link is neither the holder nor SINGLE. -/
theorem rdC_markLive {g k : Nat} {d : RSlot} {s : State} {f : Fld} (hs : s.regsWf = true) (hf : f.Ok) (h : 29 < f.lo) :
    (markLive g d s).rdC k f = s.rdC k f := by
  have hregs : (s.modEnd (.curd g d) (fun e => { e with silent := false })).regsWf = true := by simpa [State.regsWf] using hs
  have hlive : (if d = .f0 then R.CDIE_LEASE_F0LIVE else R.CDIE_LEASE_F1LIVE).hi ≤ 29 := by cases d <;> decide
  exact State.rdC_wrC_apart hregs (by cases d <;> decide) hf (.inr (.inl (by omega)))

theorem single_markLive {g k : Nat} {d : RSlot} {s : State} (hs : s.regsWf = true) : (markLive g d s).single k = s.single k := by
  rw [State.single, State.bitC, rdC_markLive hs (by decide) (by decide)]
  rfl

theorem holder_markLive {g k : Nat} {d : RSlot} {s : State} (hs : s.regsWf = true) : (markLive g d s).holder k = s.holder k := by
  rw [State.holder, rdC_markLive hs (by decide) (by decide)]
  rfl

/-! ## First and second copies -/

/-- The first copy of a message, where the record has room, and its sender's lease lets it be executed (R504, R506). -/
theorem firstCopy_new {g : Nat} {src : RSlot} {m : Msg} {s : State} (hs : s.regsWf = true) (hnew : ∀ r ∈ (s.fmt g).seen, ¬ (r.1 = m.cls ∧ r.2.1 = m.eseq))
    (hroom : ((s.fmt g).seen.filter (fun r => r.1 = m.cls)).length < 256) (hlease : s.single g = false ∨ s.holder g = src ∨ m.cls ≠ 0) :
    firstCopy g src m s = (true, modFmt g (fun f => { f with seen := (m.cls, m.eseq, msgDigest m, src, false) :: f.seen }) (markLive g src s)) := by
  have hnone : ((s.fmt g).seen.filter (fun r => r.1 = m.cls)).find? (fun r => r.2.1 = m.eseq) = none := by
    simp only [List.find?_eq_none, List.mem_filter, decide_eq_true_eq]
    exact fun r hr he => hnew r hr.1 ⟨hr.2, he⟩
  unfold firstCopy
  simp only [fmt_markLive, hnone, hroom, if_true]
  refine if_neg ?_
  rw [single_markLive hs, holder_markLive hs]
  rintro ⟨hcls, hsingle, hholder⟩
  obtain h | h | h := hlease
  · simp [h] at hsingle
  · exact hholder h
  · exact h hcls

/-- The record of a message shows that its second copy has come (R504). -/
def seenAgain (r : Nat × Nat × BitVec 64 × RSlot × Bool) (f : Fmt) : Fmt :=
  { f with seen := f.seen.map (fun x => if x = r then (r.1, r.2.1, r.2.2.1, r.2.2.2.1, true) else x) }

/-- A second copy like the first is whey (R504). -/
theorem firstCopy_again {g : Nat} {src : RSlot} {m : Msg} {s : State} {r : Nat × Nat × BitVec 64 × RSlot × Bool}
    (h : ((s.fmt g).seen.filter (fun r => r.1 = m.cls)).find? (fun r => r.2.1 = m.eseq) = some r) (hdg : r.2.2.1 = msgDigest m) :
    firstCopy g src m s = (false, modFmt g (seenAgain r) (discardCopy g src m (markLive g src s))) := by
  unfold firstCopy
  simp only [fmt_markLive, h]
  exact congrArg (Prod.mk false) (if_pos hdg)

/-! ## Sector commands -/

theorem sectorCommand_taken {op g : Nat} {src : RSlot} {m : Msg} {s : State} (hg : s.hasCurd g = true) (hcls : m.cls = 0) (hop : m.w 0 / 2 ^ 28 = op) :
    sectorCommand op g src m s =
      .next (settle (if (firstCopy g src m s).1 = true then queueRun g src m (firstCopy g src m s).2 else (firstCopy g src m s).2)) :=
  if_pos ⟨hg, hcls, .inl hop⟩

/-- A run joins the queue before the runs ahead of it in ESEQ order (R304). -/
def enqueue (r : CRun) (f : Fmt) : Fmt :=
  { f with queue := f.queue.filter (fun q => ! aheadMod (2 ^ 32) q.eseq r.eseq) ++ [r] ++ f.queue.filter (fun q => aheadMod (2 ^ 32) q.eseq r.eseq) }

theorem queueRun_accepted {g : Nat} {src : RSlot} {m : Msg} {r : CRun} {s : State} (hr : r = s.runOf g src m)
    (h : s.runOk g r.op r.surf r.zone r.track r.first r.count r.incl = true) : queueRun g src m s = showFmt g (modFmt g (enqueue r) s) := by
  subst hr
  exact if_neg (by rw [h]; decide)

theorem queueRun_refused {g : Nat} {src : RSlot} {m : Msg} {r : CRun} {s : State} (hr : r = s.runOf g src m)
    (h : s.runOk g r.op r.surf r.zone r.track r.first r.count r.incl = false) :
    queueRun g src m s = curdRaise g 0x12 r.track (takeMsg (.curd g src) m
      (fromCurd g 2 m.eseq [BitVec.ofNat 32 (2 * 2 ^ 28), BitVec.ofNat 32 r.track] (report g m.eseq 5 0 0 r.first r.track false s))) := by
  subst hr
  exact if_pos (by rw [h]; decide)

/-! ## DATA messages -/

/-- A Curd die has the payload of a DATA message for its sector (R301, R504). -/
def dataKept (g : Nat) (d : RSlot) (m : Msg) (s : State) : State :=
  modFmt g (fun f => { f with data := putData d m.eseq m.payload f.data }) (takeMsg (.curd g d) m (markLive g d s))

theorem fmt_dataKept {g : Nat} {d : RSlot} {m : Msg} {s : State} (hg : g < s.curds.length) :
    (dataKept g d m s).fmt g = { s.fmt g with data := putData d m.eseq m.payload (s.fmt g).data } := by
  rw [dataKept, fmt_modFmt_self (by simpa using hg), fmt_takeMsg, fmt_markLive]

/-- What the copies of a sector's data come to once both are there: nothing where they need not be compared or are alike, else a mismatch (R505). -/
def compareCopies (g : Nat) (d : RSlot) (eseq : Nat) (s : State) : State :=
  match (s.fmt g).received d eseq, (s.fmt g).received d.peer eseq with
  | some a, some b => if s.single g ∨ 9 < a.length ∨ dataDigests eseq a = dataDigests eseq b then s else reportMismatch g 1 (s.holder g) eseq s
  | _, _ => s

theorem dataMessage_rind {d : RSlot} {n : Nat} {m : Msg} {s : State} (hcls : m.cls = 1) (hd : s.hasRind d = true) (hn : n < 6) :
    exec (.dataMessage (.rind d n) m) s =
      .next (settle ((takeMsg (.rind d n) m s).modRind d (fun r => { r with data := putData n m.eseq m.payload r.data }))) := by
  show execDataMessage (.rind d n) m s = _
  exact (if_neg (not_not.mpr hcls)).trans (if_pos ⟨hd, hn⟩)

theorem dataMessage_curd {g : Nat} {d : RSlot} {m : Msg} {s : State} (hcls : m.cls = 1) (hg : s.hasCurd g = true) :
    exec (.dataMessage (.curd g d) m) s = .next (settle (compareCopies g d m.eseq (dataKept g d m s))) := by
  show execDataMessage (.curd g d) m s = _
  exact (if_neg (not_not.mpr hcls)).trans (if_neg (by rw [hg]; decide))

/-! ## Runs -/

/-- The oldest run leaves the queue and starts (R304). -/
def startOldest (r : CRun) (q : List CRun) (f : Fmt) : Fmt := { f with queue := q, runs := f.runs ++ [{ r with secs := startSecs f r.op r.secs }] }

theorem runStart_oldest {g : Nat} {r : CRun} {q : List CRun} {s : State} (hq : (s.fmt g).queue = r :: q) (hg : s.hasCurd g = true)
    (hsv : s.svLoaded g = true) (hpast : (s.fmt g).pastGates = true) :
    exec (.runStart g) s = .next (settle (showFmt g (refreshServo g (failWrites g (endIfDone g r.eseq (requestTarget g r.surf r.track
      (if r.op = 2 ∨ r.op = 5 then heater g true (loadZone g r.surf r.zone (modFmt g (startOldest r q) s))
        else loadZone g r.surf r.zone (modFmt g (startOldest r q) s)))))))) := by
  show execRunStart g s = _
  unfold execRunStart
  simp only [hq]
  exact if_neg (by rw [hg, hsv, hpast]; decide)

/-- Settles O30: a command by whether it is a first copy and whether its run may be executed, data by what is kept and compared, a start by the run it takes. -/
theorem sectorCommandsAndData : Obligations.SectorCommandsAndData := by
  refine ⟨?commands, ?first, ?second, ?queue, fun d n m s hcls hd hn => dataMessage_rind hcls hd hn, ?data, ?start⟩
  case commands =>
    rintro g src m x s hg hcls rfl
    exact ⟨sectorCommand_taken hg hcls, sectorCommand_taken hg hcls, sectorCommand_taken hg hcls, sectorCommand_taken hg hcls,
      sectorCommand_taken hg hcls⟩
  case first =>
    intro g src m s hg hs hnew hroom hlease
    rw [firstCopy_new hs hnew hroom hlease]
    refine ⟨rfl, ?_, (State.host_eq.mp (by simp)).2⟩
    rw [fmt_modFmt_self (by simpa using hg), fmt_markLive]
  case second =>
    intro g src first m again s h
    rw [firstCopy_again h rfl]
    refine ⟨rfl, (State.host_eq.mp (by simp)).2, ?_⟩
    refine (fmt_modFmt_field (f := seenAgain (m.cls, m.eseq, msgDigest m, first, again)) Fmt.queue fun _ => rfl).trans ?_
    rw [fmt_discardCopy, fmt_markLive]
  case queue =>
    intro g src m r s hr
    refine ⟨fun h hg => ?_, fun h => queueRun_refused hr h⟩
    rw [queueRun_accepted hr h]
    refine ⟨?_, (State.host_eq.mp (by simp)).2⟩
    rw [fmt_showFmt, fmt_modFmt_self hg, enqueue]
  case data =>
    intro g d m s hcls hg hlt
    have hhost := State.host_eq.mp (show (dataKept g d m s).host = s.host by simp [dataKept])
    refine ⟨dataKept g d m s, congrArg Fmt.data (fmt_dataKept hlt), hhost.1, hhost.2, fun h => ?_, fun a b ha hb hsingle hlen => ?_⟩
    · rw [dataMessage_curd hcls hg, compareCopies]
      obtain hsingle | hnone := h
      · split
        · rw [if_pos (.inl hsingle)]
        · rfl
      · simp [hnone]
    · rw [dataMessage_curd hcls hg, compareCopies]
      simp [ha, hb, hsingle, hlen]
  case start =>
    intro g r q s hq hg hlt hsv hpast
    have hfmt : (modFmt g (startOldest r q) s).fmt g = startOldest r q (s.fmt g) := fmt_modFmt_self hlt
    exact ⟨modFmt g (startOldest r q) s, congrArg Fmt.queue hfmt, congrArg Fmt.runs hfmt, rfl, rfl, runStart_oldest hq hg hsv hpast⟩

end Sys2Proof.Machine
end

section
/-! Engines: their events, responses, timers, memory and messages: O51. -/

namespace Sys2Proof.Machine

/-! ## Nothing left to do -/

/-- What a state has left to do hangs on its actions, its start, its roles, its links and its flash. -/
theorem State.Quiet.congr {s t : State} (htodo : t.todo = s.todo) (hboot : t.boot = s.boot) (hpart : t.part = s.part)
    (hrole : ∀ d, t.rdR d R.STEP_STAT_ROLE = s.rdR d R.STEP_STAT_ROLE) (hlinks : ∀ e, t.fvEnd e = s.fvEnd e) (hflash : t.flash = s.flash)
    (h : s.Quiet) : t.Quiet := by
  obtain ⟨h1, h2, h3, h4⟩ := h
  have hends : t.ends = s.ends := by simp [State.ends, State.rinds, State.groups, hpart]
  refine ⟨htodo.trans h1, (congrArg Boot.reinit hboot).trans h2, ?_, ?_⟩
  · simpa [hends, State.linkUp, hlinks] using h3
  · rw [State.fenced_congr hpart hrole, hpart, hflash]
    exact h4

/-! ## An engine read after a change of an engine -/

theorem eng_modEng_self {e : Eng} {f : Engine → Engine} {s : State} (h : s.EngHeld e) : (modEng e f s).eng e = f (s.eng e) := by
  cases e with
  | rind d i =>
    simp only [modEng, State.eng, State.rind_modRind]
    exact getD_modAt_self h
  | curd g =>
    simp only [modEng, State.eng, State.curd_modCurd _ _ _ h]

@[simp] theorem eng_wr (s : State) (die : Nat) (f : Fld) (v : Nat) (e : Eng) : (s.wr die f v).eng e = s.eng e := by
  cases e with
  | rind d i => simp [State.eng]
  | curd g => rfl

@[simp] theorem host_modEng (e : Eng) (f : Engine → Engine) (s : State) : (modEng e f s).host = s.host := by cases e <;> simp [modEng]

@[simp] theorem regs_modEng (e : Eng) (f : Engine → Engine) (s : State) : (modEng e f s).regs = s.regs := by
  cases e with
  | rind d i => cases d <;> rfl
  | curd g => rfl

theorem State.fvEnd_modEng (e : Eng) (f : Engine → Engine) (s : State) (x : LinkEnd) : (modEng e f s).fvEnd x = s.fvEnd x := by
  cases e with
  | rind d i =>
    cases x with
    | rind c n => cases c <;> cases d <;> rfl
    | curd g c => cases d <;> rfl
  | curd g =>
    cases x with
    | rind c n => cases c <;> rfl
    | curd k c => exact getD_modAt_field (fun c' : CurdDie => c'.ends.getD c.code {}) fun _ => rfl

theorem State.Quiet.modEng {e : Eng} {f : Engine → Engine} {s : State} (h : s.Quiet) : (modEng e f s).Quiet := by
  refine State.Quiet.congr ?_ ?_ ?_ (fun d => State.rdR_congr (regs_modEng e f s) d _) (State.fvEnd_modEng e f s) ?_ h
  all_goals
    cases e with
    | rind d i => cases d <;> rfl
    | curd g => rfl

/-- A register that is not STEP_STAT leaves nothing to do. -/
theorem State.Quiet.wr {die : Nat} {f : Fld} {v : Nat} {s : State} (hf : f.Ok) (hoff : f.off ≠ R.STEP_STAT_ROLE.off) (h : s.Quiet) :
    (s.wr die f v).Quiet :=
  have hrole (d : RSlot) : (s.wr die f v).rdR d R.STEP_STAT_ROLE = s.rdR d R.STEP_STAT_ROLE := State.rd_wr_other hf (by decide) (.inr hoff)
  State.Quiet.congr (s := s) rfl rfl rfl hrole (State.fvEnd_congr rfl rfl rfl) rfl h

/-! ## Events -/

theorem fEvq_ok {e : Eng} {s : State} (h : s.hasEng e = true) : e.fEvq.Ok ∧ e.fEvq.off ≠ R.STEP_STAT_ROLE.off := by
  cases e with
  | curd g =>
    show R.CDIE_FCCNT_EVQ.Ok ∧ R.CDIE_FCCNT_EVQ.off ≠ R.STEP_STAT_ROLE.off
    decide
  | rind d i =>
    have hi : i < 8 := by simpa [State.hasEng] using (Bool.and_eq_true_iff.mp h).2
    show (0 ≤ 4 ∧ 4 < 32 ∧ 0xA0014 + 8 * i < 0x1000000) ∧ 0xA0014 + 8 * i ≠ 0xB0000
    omega

/-- The event that an engine queues: its class and its data, and the step and the time of its coming (R487). -/
def State.eventOf (s : State) (e : Eng) (cls : Nat) (data : BitVec 64) : EngEvent :=
  ⟨cls, data, match e with
    | .rind d _ => s.stepNo d
    | .curd _ => 0, s.eventStamp e⟩

theorem postEvent_room {e : Eng} {cls : Nat} {data : BitVec 64} {s : State} (he : s.hasEng e = true) (h : (s.eng e).events.length < 16) :
    ∃ n, postEvent e cls data s = (modEng e (fun g => { g with events := g.events ++ [s.eventOf e cls data] }) s).wr e.die e.fEvq n :=
  ⟨_, if_pos ⟨he, h⟩⟩

theorem postEvent_full {e : Eng} {cls : Nat} {data : BitVec 64} {s : State} (h : 16 ≤ (s.eng e).events.length) : postEvent e cls data s = s :=
  if_neg fun hroom => absurd hroom.2 (not_lt.mpr h)

theorem eventPost_queued {e : Eng} {cls : Nat} {data : BitVec 64} {s : State} (hq : s.Quiet) (he : s.hasEng e = true) (hheld : s.EngHeld e)
    (hcls : cls < 8) (hroom : (s.eng e).events.length < 16) :
    ∃ t, exec (.eventPost e cls data) s = .next t ∧ t.eng e = { s.eng e with events := (s.eng e).events ++ [s.eventOf e cls data] } ∧ t.host = s.host := by
  obtain ⟨n, hpost⟩ := postEvent_room (cls := cls) (data := data) he hroom
  obtain ⟨hok, hoff⟩ := fEvq_ok he
  have hquiet : (postEvent e cls data s).Quiet := hpost ▸ hq.modEng.wr hok hoff
  refine ⟨postEvent e cls data s, ?_, ?_, ?_⟩
  · show Host.Outcome.next (if cls < 8 then settle (postEvent e cls data s) else s) = _
    rw [if_pos hcls, settle_quiet hquiet]
  · rw [hpost, eng_wr, eng_modEng_self hheld]
  · rw [hpost, State.host_wr, host_modEng]

theorem eventPost_stalled {e : Eng} {cls : Nat} {data : BitVec 64} {s : State} (hq : s.Quiet) (h : 16 ≤ (s.eng e).events.length) :
    exec (.eventPost e cls data) s = .next s := by
  show Host.Outcome.next (if cls < 8 then settle (postEvent e cls data s) else s) = _
  rw [postEvent_full h, settle_quiet hq, ite_self]

/-! ## Responses -/

/-- A response that is no drain takes its request's place in the latches (R469). -/
def latched (l : Latch) (q : EngReq) (g : Engine) : Engine :=
  { g with reqs := g.reqs.erase q, latches := l :: g.latches.filter (fun x => x.port ≠ l.port) }

theorem deliver_latched {e : Eng} {l : Latch} {q : EngReq} {s : State} (hheld : s.EngHeld e) (hwait : (s.eng e).waiting = none)
    (hq : (s.eng e).reqs.find? (fun q => q.port = l.port) = some q) (hack : q.withheld = false) (hdrain : l.drained = false) :
    deliver e l s = modEng e (latched l q) s := by
  have hmod : (modEng e (latched l q) s).eng e = latched l q (s.eng e) := eng_modEng_self hheld
  have hwait' : ((modEng e (latched l q) s).eng e).waiting = none := by rw [hmod]; exact hwait
  unfold latched at hwait' ⊢
  unfold deliver
  simp only [hq, hack, hdrain, hwait', Bool.false_eq_true, false_and, if_false]

theorem deliver_unasked {e : Eng} {l : Latch} {s : State} (h : (s.eng e).reqs.find? (fun q => q.port = l.port) = none) : deliver e l s = s := by
  unfold deliver
  simp only [h]

/-- No request is out for the operation: the answer has no place to go. -/
theorem reply_unasked {e : Eng} {port op : Nat} {v : BitVec 64} {ok : Bool} {s : State} (h : (s.eng e).reqs = []) : reply e port op v ok s = s :=
  if_neg (by simp [h])

/-! ## Scratch memory -/

theorem Sparse.get_putRun_other {α : Type} [DecidableEq α] {dflt : Nat → α} (vs : List α) {k a : Nat} {l : List (Nat × α)}
    (h : a < k ∨ k + vs.length ≤ a) : Sparse.get dflt a (Sparse.putRun dflt k vs l) = Sparse.get dflt a l := by
  induction vs generalizing k l with
  | nil => rfl
  | cons v vs ih =>
    simp only [List.length_cons] at h
    show Sparse.get dflt a (Sparse.putRun dflt (k + 1) vs (Sparse.put dflt k v l)) = _
    rw [ih (by omega), Sparse.get_put_other v (by omega)]

theorem Sparse.getRun_putRun_self {α : Type} [DecidableEq α] {dflt : Nat → α} (vs : List α) {k : Nat} {l : List (Nat × α)}
    (hl : Sparse.wf dflt l = true) : Sparse.getRun dflt k vs.length (Sparse.putRun dflt k vs l) = vs := by
  induction vs generalizing k l with
  | nil => rfl
  | cons v vs ih =>
    show Sparse.get dflt k (Sparse.putRun dflt (k + 1) vs (Sparse.put dflt k v l)) ::
      Sparse.getRun dflt (k + 1) vs.length (Sparse.putRun dflt (k + 1) vs (Sparse.put dflt k v l)) = _
    rw [ih (Sparse.wf_put k v hl), Sparse.get_putRun_other vs (by omega), Sparse.get_put_self k v hl]

theorem length_natLe (n v : Nat) : (natLe n v).length = n := by
  induction n generalizing v with
  | zero => rfl
  | succ n ih => simp [natLe, ih]

theorem leNat_natLe (n v : Nat) : leNat (natLe n v) = v % 256 ^ n := by
  induction n generalizing v with
  | zero => simp [natLe, leNat, Nat.mod_one]
  | succ n ih =>
    rw [natLe, leNat, ih, BitVec.toNat_ofNat, pow_succ' 256 n]
    exact (Nat.mod_mul ..).symm

/-- Eight bytes stored in a byte memory read back as the number stored. -/
theorem Memory.load_store {l : List Host.Cell} (addr : Nat) (v : BitVec 64) (hl : Memory.wf l = true) :
    BitVec.ofNat 64 (leNat (Sparse.getRun zeroByte addr 8 (Sparse.putRun zeroByte addr (natLe 8 v.toNat) l))) = v := by
  have hrun := Sparse.getRun_putRun_self (natLe 8 v.toNat) (k := addr) hl
  rw [length_natLe] at hrun
  rw [hrun, leNat_natLe]
  exact BitVec.eq_of_toNat_eq (by simp [Nat.mod_eq_of_lt v.isLt])

/-! ## Memory -/

section
variable {addr : Nat} {v : BitVec 64} {s : State} (halign : addr % 8 = 0)
include halign

theorem memLoad_rind {d : RSlot} {i : Nat} {data : List Byte} {bad : Bool} {u : State} (he : s.hasEng (.rind d i) = true)
    (hlt : addr + 8 ≤ s.dataBytes d) (hread : caveRead d (.engine i) addr 8 false s = (data, bad, u)) : exec (.memLoad (.rind d i) addr) s =
      .next (settle ((deliver (.rind d i) ⟨0x22, BitVec.ofNat 64 (leNat data), true, false, bad, false⟩ u).emit
        (.response (BitVec.ofNat 64 (leNat data)).toNat))) := by
  show execMemLoad (.rind d i) addr s = _
  refine (if_neg (by simp [he, halign])).trans ((if_neg (by omega)).trans ?_)
  rw [hread]

theorem memLoad_curd {g : Nat} (he : s.hasEng (.curd g) = true) (hlt : addr + 8 ≤ 32768) : exec (.memLoad (.curd g) addr) s =
    .next (settle ((deliver (.curd g) ⟨0x22, BitVec.ofNat 64 (leNat (Sparse.getRun zeroByte addr 8 (s.curd g).scratch)), true, false, false, false⟩ s).emit
      (.response (BitVec.ofNat 64 (leNat (Sparse.getRun zeroByte addr 8 (s.curd g).scratch))).toNat))) := by
  show execMemLoad (.curd g) addr s = _
  exact (if_neg (by simp [he, halign])).trans (if_neg (by omega))

theorem memStore_rind {d : RSlot} {i : Nat} (he : s.hasEng (.rind d i) = true) (hlt : addr + 8 ≤ s.dataBytes d) :
    exec (.memStore (.rind d i) addr v) s =
      .next (settle (reply (.rind d i) 0x22 2 (openReply 0x22 2 []) true (caveWrite d (.engine i) addr (natLe 8 v.toNat) false s))) := by
  show execMemStore (.rind d i) addr v s = _
  exact (if_neg (by simp [he, halign])).trans (if_neg (by omega))

/-- The scratch memory of a formatter with a store made in it (R473). -/
def scratchStored (g addr : Nat) (v : BitVec 64) (s : State) : State :=
  s.modCurd g (fun c => { c with scratch := Sparse.putRun zeroByte addr (natLe 8 v.toNat) c.scratch })

theorem memStore_curd {g : Nat} (he : s.hasEng (.curd g) = true) (hlt : addr + 8 ≤ 32768) : exec (.memStore (.curd g) addr v) s =
    .next (settle (reply (.curd g) 0x22 2 (openReply 0x22 2 []) true (scratchStored g addr v s))) := by
  show execMemStore (.curd g) addr v s = _
  exact (if_neg (by simp [he, halign])).trans (if_neg (by omega))

end

theorem State.fvEnd_modCurd {g : Nat} {f : CurdDie → CurdDie} {s : State} (h : ∀ c, (f c).ends = c.ends) (e : LinkEnd) :
    (s.modCurd g f).fvEnd e = s.fvEnd e := by
  cases e with
  | rind d n => cases d <;> rfl
  | curd k d => exact getD_modAt_field (fun c : CurdDie => c.ends.getD d.code {}) fun c => by rw [h]

theorem quiet_scratchStored {g addr : Nat} {v : BitVec 64} {s : State} (h : s.Quiet) : (scratchStored g addr v s).Quiet :=
  State.Quiet.congr (s := s) rfl rfl rfl (fun _ => rfl) (State.fvEnd_modCurd fun _ => rfl) rfl h

theorem curd_scratchStored {g addr : Nat} {v : BitVec 64} {s : State} (h : g < s.curds.length) : (scratchStored g addr v s).curd g =
    { s.curd g with scratch := Sparse.putRun zeroByte addr (natLe 8 v.toNat) (s.curd g).scratch } := State.curd_modCurd _ _ _ h

/-! ## Messages of an engine -/

/-- The engine has opened a message to the slot and of the class that the operand names. -/
def opened (v : BitVec 64) (g : Engine) : Engine := { g with message := some ((openSlotClass v).1, (openSlotClass v).2, []) }

section
variable {e : Eng} {s : State} (he : s.hasEng e = true)
include he

theorem finvikOpen_opens (v : BitVec 64) :
    exec (.finvikOpen e v) s = .next (settle (reply e 0x09 1 (openReply 0x09 1 []) true (modEng e (opened v) s))) := by
  show execFinvikOpen e v s = _
  exact if_pos he

theorem finvikAppend_none {v : BitVec 64} (h : (s.eng e).message = none) :
    exec (.finvikAppend e v) s = .next (settle (reply e 0x09 2 (openReply 0x09 2 []) false s)) := by
  show execFinvikAppend e v s = _
  simp [execFinvikAppend, he, h]

theorem finvikClose_none (h : (s.eng e).message = none) :
    exec (.finvikClose e) s = .next (settle (reply e 0x09 3 (openReply 0x09 3 []) false s)) := by
  show execFinvikClose e s = _
  simp [execFinvikClose, he, h]

/-- The words that a message of a class to a slot may hold (R26, R470). -/
def messageRoom (e : Eng) (slot cls : Nat) : Nat :=
  ((engLink e slot).map (fun l => if l.classOk cls = true then l.room (cls % 4) else 128)).getD 128

/-- Two words more in the engine's open message, the low one first. -/
def appended (slot cls : Nat) (ws : List Word) (v : BitVec 64) (g : Engine) : Engine :=
  { g with message := some (slot, cls, ws ++ [v.extractLsb' 0 32, v.extractLsb' 32 32]) }

theorem finvikAppend_open {v : BitVec 64} {slot cls : Nat} {ws : List Word} (h : (s.eng e).message = some (slot, cls, ws)) :
    exec (.finvikAppend e v) s = .next (settle (reply e 0x09 2 (openReply 0x09 2 []) (decide (ws.length + 2 ≤ messageRoom e slot cls))
      (if ws.length + 2 ≤ messageRoom e slot cls then modEng e (appended slot cls ws v) s else s))) := by
  have hlow : v.setWidth 32 = v.extractLsb' 0 32 := by simp [BitVec.extractLsb']
  have hhigh : (v >>> 32).setWidth 32 = v.extractLsb' 32 32 := by ext i hi; simp
  show execFinvikAppend e v s = _
  simp only [execFinvikAppend, he, h, hlow, hhigh, Bool.not_true, Bool.false_eq_true, if_false, decide_eq_true_eq]
  rfl

end

/-- The engine has no message open. -/
def closed (g : Engine) : Engine := { g with message := none }

theorem finvikClose_curd {g slot cls : Nat} {ws : List Word} {l : LinkEnd} {s : State} (he : s.hasEng (.curd g) = true)
    (h : (s.eng (.curd g)).message = some (slot, cls, ws)) (hl : engLink (.curd g) slot = some l) (hcls : l.classOk cls = true) :
    exec (.finvikClose (.curd g)) s =
      .next (settle (reply (.curd g) 0x09 3 (openReply 0x09 3 []) true (sendMsg l cls 0 ws (modEng (.curd g) closed s)))) := by
  show execFinvikClose (.curd g) s = _
  unfold execFinvikClose
  simp only [he, h, hl, hcls, messageEseq, Bool.not_true, Bool.false_eq_true, if_false]
  rfl

/-- A CTRL message of a Rind engine to a Curd die takes the die's next end-to-end number (R24). -/
theorem finvikClose_ctrl {d : RSlot} {i slot : Nat} {ws : List Word} {s : State} (he : s.hasEng (.rind d i) = true)
    (h : (s.eng (.rind d i)).message = some (slot, 3, ws)) (hlo : 8 ≤ slot) (hhi : slot < 14) :
    exec (.finvikClose (.rind d i)) s = .next (settle (reply (.rind d i) 0x09 3 (openReply 0x09 3 []) true
      (toCurd d (slot - 8) 3 (takeEseq d (modEng (.rind d i) closed s)).1 ws (takeEseq d (modEng (.rind d i) closed s)).2))) := by
  have hlink : engLink (.rind d i) slot = some (.rind d (slot - 8)) := if_pos ⟨hlo, hhi⟩
  have hcls : LinkEnd.classOk (.rind d (slot - 8)) 3 = true := by simp [LinkEnd.classOk, show slot - 8 ≠ 6 by omega]
  show execFinvikClose (.rind d i) s = _
  unfold execFinvikClose
  simp only [he, h, hlink, hcls, hlo, messageEseq, Bool.not_true, Bool.false_eq_true, if_false, if_true, or_true]
  rfl

/-- What a Rind die's next number leaves of its engines, and that the number goes up by one. -/
theorem rind_takeEseq (d : RSlot) (s : State) : ((takeEseq d s).2.rind d) = { s.rind d with eseq := ((s.rind d).eseq + 1) % 2 ^ 32 } :=
  State.rind_modRind ..

theorem eseq_modEng (e : Eng) (f : Engine → Engine) (s : State) (d : RSlot) : ((modEng e f s).rind d).eseq = (s.rind d).eseq := by
  cases e with
  | rind c i => cases c <;> cases d <;> rfl
  | curd g => cases d <;> rfl

/-- Settles O51: each input by the one change it makes at its engine, and the answer that goes back; where nothing was left to do, nothing is. -/
theorem engineEventsMemoryAndMessages : Obligations.EngineEventsMemoryAndMessages := by
  refine ⟨?event, fun e cls data s hq h => eventPost_stalled hq h, ?response, ?unasked, fun g s => rfl, ?timer, ?timeout, ?load,
    fun g addr s he halign hlt => memLoad_curd halign he hlt, fun d i addr v s he halign hlt => memStore_rind halign he hlt, ?store, ?mailbox, ?opened,
    ?appended, fun e s he h => ⟨finvikClose_none he h, fun v => finvikAppend_none he h⟩, ?closedCurd, ?closedRind⟩
  case event =>
    intro e cls data s hq he hheld hcls hroom
    obtain ⟨t, hexec, heng, hhost⟩ := eventPost_queued (data := data) hq he hheld hcls hroom
    have hhost := State.host_eq.mp hhost
    exact ⟨t, hexec, ⟨_, congrArg Engine.events heng, rfl, rfl⟩, by rw [heng], hhost.2, hhost.1⟩
  case response =>
    intro e p v ok poisoned queued q s hq hheld hwait hreq hack
    have hmod := eng_modEng_self (f := latched ⟨p.no, v, ok, false, poisoned, queued⟩ q) hheld
    refine ⟨modEng e (latched ⟨p.no, v, ok, false, poisoned, queued⟩ q) s, ?_, ?_, congrArg Engine.reqs hmod, regs_modEng .., ?_⟩
    · show Host.Outcome.next (settle (deliver e ⟨p.no, v, ok, false, poisoned, queued⟩ s)) = _
      rw [deliver_latched hheld hwait hreq hack rfl, settle_quiet hq.modEng]
    · rw [hmod]
      simp [Engine.latchOf, latched]
    · exact (State.host_eq.mp (host_modEng ..)).2
  case unasked =>
    intro e p v ok dr poisoned queued s hq h
    show Host.Outcome.next (settle (deliver e ⟨p.no, v, ok, dr, poisoned, queued⟩ s)) = _
    rw [deliver_unasked h, settle_quiet hq]
  case timer =>
    intro d i s htimer hsenior hserves
    show execEngineTimerExpire (.rind d i) s = _
    refine if_neg ?_
    rintro (hnone | hne | hout)
    · rw [← Option.not_isSome, htimer] at hnone
      simp at hnone
    · exact hne hsenior
    · exact hout hserves
  case timeout =>
    intro e s he hparked hstate
    show execRoutineTimeout e s = _
    refine (if_pos ⟨he, by rw [hparked]; rfl, hstate⟩).trans ?_
    exact (apply_ite (fun t => Host.Outcome.next (settle t)) _ _ _).symm
  case load =>
    intro d i addr s he halign hlt
    rcases hread : caveRead d (.engine i) addr 8 false s with ⟨data, bad, u⟩
    exact ⟨data, bad, u, rfl, memLoad_rind halign he hlt hread⟩
  case store =>
    intro g addr v s hq he hheld halign hlt hwf hnone
    have hcurd := curd_scratchStored (addr := addr) (v := v) hheld
    have hunasked : ((scratchStored g addr v s).eng (.curd g)).reqs = [] := by
      rw [State.eng, hcurd]
      exact hnone
    refine ⟨scratchStored g addr v s, ?_, ?_, fun a ha => ?_, fun h hne => State.curd_modCurd_other hne.symm, rfl, rfl, rfl, rfl⟩
    · rw [memStore_curd halign he hlt, reply_unasked hunasked, settle_quiet (quiet_scratchStored hq)]
    · rw [hcurd]
      exact Memory.load_store addr v hwf
    · rw [hcurd]
      exact Sparse.get_putRun_other _ (by rw [length_natLe]; exact ha)
  case mailbox =>
    intro d target v s he hroom
    show execMailboxPost d target v s = _
    exact if_pos ⟨he, hroom⟩
  case opened =>
    intro e v s he hheld
    have hmod := eng_modEng_self (f := opened v) hheld
    exact ⟨_, finvikOpen_opens he v, congrArg Engine.message hmod, by rw [hmod]; rfl, regs_modEng .., (State.host_eq.mp (host_modEng ..)).2⟩
  case appended =>
    intro e v slot cls ws s he hheld hmsg
    have hexec := finvikAppend_open he (v := v) hmsg
    have hmod := eng_modEng_self (f := appended slot cls ws v) hheld
    refine ⟨fun n hn hle => ?_, fun n hn hlt => ?_⟩
    · have hle : ws.length + 2 ≤ messageRoom e slot cls := le_of_le_of_eq hle hn
      rw [if_pos hle, decide_eq_true hle] at hexec
      exact ⟨_, hexec, congrArg Engine.message hmod, regs_modEng .., (State.host_eq.mp (host_modEng ..)).2⟩
    · have hlt : ¬ ws.length + 2 ≤ messageRoom e slot cls := not_le.mpr (lt_of_eq_of_lt hn.symm hlt)
      rwa [if_neg hlt, decide_eq_false hlt] at hexec
  case closedCurd =>
    intro g slot cls ws l s he hheld hmsg hl hcls
    exact ⟨_, congrArg Engine.message (eng_modEng_self (f := closed) hheld), regs_modEng .., (State.host_eq.mp (host_modEng ..)).2,
      finvikClose_curd he hmsg hl hcls⟩
  case closedRind =>
    intro d i slot ws s he hheld hmsg hlo hhi
    have hrind := rind_takeEseq d (modEng (.rind d i) closed s)
    have hmod : ((takeEseq d (modEng (.rind d i) closed s)).2.eng (.rind d i)) = closed (s.eng (.rind d i)) := by
      rw [State.eng, hrind]
      exact eng_modEng_self hheld
    have hhost : (takeEseq d (modEng (.rind d i) closed s)).2.host = s.host := (State.host_modRind ..).trans (host_modEng ..)
    have heseq := eseq_modEng (.rind d i) closed s d
    have hexec := finvikClose_ctrl he hmsg hlo hhi
    rw [show (takeEseq d (modEng (.rind d i) closed s)).1 = (s.rind d).eseq from heseq] at hexec
    refine ⟨_, congrArg Engine.message hmod, ?_, (State.host_eq.mp hhost).2, ?_, hexec⟩
    · exact (State.regs_modRind ..).trans (regs_modEng ..)
    · rw [hrind, heseq]

end Sys2Proof.Machine
end

section
/-! The start sequence: O8. -/

namespace Sys2Proof.Machine

/-! ## The first handshake (R21, R26) -/

/-- A link end as training leaves it: up, with full credits and empty receivers (R26). -/
def FvEnd.fresh (e : LinkEnd) (x : FvEnd) : FvEnd :=
  { x with
    up := true, down := false, silent := false, rx := [{}, {}, {}, {}]
    tx := (List.range 4).map (fun c => { credits := e.credits c : TxClass }) }

/-- The link of die `d`'s slot `n`, whose other end is `e`, has trained, and the die shows it. -/
def linkTrained (d : RSlot) (n : Nat) (e : LinkEnd) (s : State) : State :=
  ((s.modEnd (.rind d n) (FvEnd.fresh (.rind d n))).modEnd e (FvEnd.fresh e)).wrR d (R.DEV_FVSTAT_STATE n) 1

@[simp] theorem part_linkTrained (d : RSlot) (n : Nat) (e : LinkEnd) (s : State) : (linkTrained d n e s).part = s.part := by simp [linkTrained]

@[simp] theorem host_linkTrained (d : RSlot) (n : Nat) (e : LinkEnd) (s : State) : (linkTrained d n e s).host = s.host := by simp [linkTrained]

theorem fvstat_ok {n : Nat} (h : n < 7) : (R.DEV_FVSTAT_STATE n).Ok := by
  show 0 ≤ 1 ∧ 1 < 32 ∧ 0x100 + 4 * n < 0x1000000
  omega

theorem regsWf_linkTrained {d : RSlot} {n : Nat} {e : LinkEnd} {s : State} (h : s.regsWf = true) : (linkTrained d n e s).regsWf = true :=
  State.regsWf_wrR (by simpa [State.regsWf] using h)

theorem state_linkTrained {d : RSlot} {n : Nat} {e : LinkEnd} {s : State} (hn : n < 7) (h : s.regsWf = true) :
    (linkTrained d n e s).rdR d (R.DEV_FVSTAT_STATE n) = 1 :=
  State.rdR_wrR_self (by simpa [State.regsWf] using h) (fvstat_ok hn)

/-- Both ends are up. -/
theorem linkUp_linkTrained {d : RSlot} {n : Nat} {e x : LinkEnd} {s : State} (hx : x = .rind d n ∨ x = e) (h : s.EndHeld x) :
    (linkTrained d n e s).linkUp x = true := by
  have hlive : ∀ (y : LinkEnd) (t : State), t.EndHeld y → (t.modEnd y (FvEnd.fresh y)).linkUp y = true := fun y t hy => by
    simp [State.linkUp, State.fvEnd_modEnd_self hy, FvEnd.fresh]
  by_cases hxe : x = e
  · subst hxe
    simpa [linkTrained, State.linkUp] using hlive x _ h.modEnd
  · obtain rfl := hx.resolve_right hxe
    simpa [linkTrained, State.linkUp, State.fvEnd_modEnd_other hxe] using hlive _ s h

/-- DEV_DIEPRES, DEV_ID and the lease register record the Curd die that has shaken hands (R21). -/
def curdMet (d : RSlot) (n : Nat) (s : State) : State :=
  let s := s.wrR d R.DEV_DIEPRES_CPRES (s.rdR d R.DEV_DIEPRES_CPRES ||| 2 ^ n)
  let s := s.wrR d R.DEV_ID_CDIES ((List.range 6).countP (fun i => (s.rdR d R.DEV_DIEPRES_CPRES).testBit i))
  let s := if s.rdR d R.DEV_ID_FDIES = 0 then s.wrR d R.DEV_ID_FDIES 1 else s
  s.wrC n (if d = .f0 then R.CDIE_LEASE_F0LIVE else R.CDIE_LEASE_F1LIVE) 1

@[simp] theorem part_curdMet (d : RSlot) (n : Nat) (s : State) : (curdMet d n s).part = s.part := by
  unfold curdMet
  dsimp only
  split <;> rfl

@[simp] theorem host_curdMet (d : RSlot) (n : Nat) (s : State) : (curdMet d n s).host = s.host := by
  unfold curdMet
  dsimp only
  split <;> simp

/-- What stands in a register of the die other than DEV_ID, once DEV_DIEPRES is written. -/
theorem rdR_curdMet {d : RSlot} {n : Nat} {s : State} {g : Fld} (hs : s.regsWf = true) (hg : g.Ok) (hid : g.off ≠ 0) :
    (curdMet d n s).regsWf = true ∧
      (curdMet d n s).rdR d g = (s.wrR d R.DEV_DIEPRES_CPRES (s.rdR d R.DEV_DIEPRES_CPRES ||| 2 ^ n)).rdR d g := by
  have hlease : (if d = .f0 then R.CDIE_LEASE_F0LIVE else R.CDIE_LEASE_F1LIVE).Ok := by cases d <;> decide
  have hdevId (t : State) (f : Fld) (v : Nat) (hf : f.Ok) (h0 : f.off = 0) : (t.wrR d f v).rdR d g = t.rdR d g :=
    State.rd_wr_other hf hg (.inr (by omega))
  have hmet (v : Nat) := State.regsWf_wrR (d := d) (f := R.DEV_ID_CDIES) (v := v)
    (State.regsWf_wrR (d := d) (f := R.DEV_DIEPRES_CPRES) (v := s.rdR d R.DEV_DIEPRES_CPRES ||| 2 ^ n) hs)
  unfold curdMet
  dsimp only
  rw [State.rdR_wrC hlease hg]
  split
  · exact ⟨State.regsWf_wrC (State.regsWf_wrR (hmet _)), (hdevId _ _ _ (by decide) rfl).trans (hdevId _ _ _ (by decide) rfl)⟩
  · exact ⟨State.regsWf_wrC (hmet _), hdevId _ _ _ (by decide) rfl⟩

theorem cpres_curdMet {d : RSlot} {n : Nat} {s : State} (hn : n < 6) (hs : s.regsWf = true) :
    ((curdMet d n s).rdR d R.DEV_DIEPRES_CPRES).testBit n = true := by
  rw [(rdR_curdMet hs (by decide) (by decide)).2, State.rdR_wrR_self hs (by decide)]
  show (_ % 2 ^ 6).testBit n = true
  rw [Nat.testBit_mod_two_pow, Nat.testBit_or, Nat.testBit_two_pow_self, Bool.or_true, Bool.and_true, decide_eq_true hn]

theorem state_curdMet {d : RSlot} {n : Nat} {s : State} (hn : n < 6) (hs : s.regsWf = true) :
    (curdMet d n s).rdR d (R.DEV_FVSTAT_STATE n) = s.rdR d (R.DEV_FVSTAT_STATE n) := by
  have hoff : (R.DEV_FVSTAT_STATE n).off = 0x100 + 4 * n := rfl
  rw [(rdR_curdMet hs (fvstat_ok (by omega)) (by omega)).2]
  exact State.rd_wr_other (by decide) (fvstat_ok (by omega)) (.inr (by change 0x10 ≠ _; omega))

/-- The links at which a first handshake is expected (R91). -/
def State.awaited (s : State) (d : RSlot) (n : Nat) : Prop :=
  3 ≤ s.phase d ∧ s.phase d ≤ 8 ∧ (s.fvEnd (.rind d n)).up = false ∧ (d, n) ∉ s.boot.absent

/-- F0 of an F2 part shows the first lease, of epoch 1. -/
def leaseShown (s : State) : State := if s.part.f = 2 then (s.wrR .f0 R.STEP_STAT_LEASE 1).wrR .f0 R.STEP_EPOCH_EPOCH 1 else s

/-- F1 shows that epoch, and that it is the junior. -/
def juniorShown (s : State) : State := (s.wrR .f1 R.STEP_EPOCH_EPOCH 1).wrR .f1 R.STEP_STAT_ROLE roleJunior

theorem exec_handshakeCurd {d : RSlot} {n : Nat} {s : State} (hd : s.hasRind d = true) (hn : n < 6) (hc : s.hasCurd n = true) (h : s.awaited d n) :
    exec (.linkFirstHandshake d n) s =
      let t := curdMet d n (linkTrained d n (.curd n d) s)
      if d = .f0 then
        .next (sendMsg (.rind .f0 n) 3 0 [BitVec.ofNat 32 (0x60000000 + (if (leaseShown t).part.f = 1 then 2 else 0)), 1] (leaseShown t))
      else .next (juniorShown t) := by
  obtain ⟨hlo, hhi, hup, habs⟩ := h
  have hn6 : n ≠ 6 := by omega
  show execLinkFirstHandshake d n s = _
  unfold execLinkFirstHandshake
  refine (if_pos (by simp [hd, hn, hc, hlo, hhi, hup, habs])).trans ?_
  simp only [if_neg hn6]
  rfl

/-- What both first handshakes of a Curd die leave. -/
theorem curd_shown {d : RSlot} {n : Nat} {s t : State} (hn : n < 6) (hs : s.regsWf = true) (ht : t = curdMet d n (linkTrained d n (.curd n d) s)) :
    t.regsWf = true ∧ (t.rdR d R.DEV_DIEPRES_CPRES).testBit n = true ∧ t.rdR d (R.DEV_FVSTAT_STATE n) = 1 ∧ t.host = s.host ∧ t.part = s.part := by
  have hlink := regsWf_linkTrained (d := d) (n := n) (e := .curd n d) hs
  subst ht
  exact ⟨(rdR_curdMet (g := R.STEP_EPOCH_EPOCH) hlink (by decide) (by decide)).1, cpres_curdMet hn hlink,
    (state_curdMet hn hlink).trans (state_linkTrained (by omega) hs), by simp, by simp⟩

/-- Two stores in the step block leave what the device block shows. -/
theorem rdR_stepBlock {d : RSlot} {f g h : Fld} {v w : Nat} {s : State} (hf : f.Ok ∧ 0xB0000 ≤ f.off) (hg : g.Ok ∧ 0xB0000 ≤ g.off)
    (hh : h.Ok ∧ h.off < 0xB0000) : ((s.wrR d f v).wrR d g w).rdR d h = s.rdR d h :=
  (State.rd_wr_other hg.1 hh.1 (.inr (by omega))).trans (State.rd_wr_other hf.1 hh.1 (.inr (by omega)))

theorem fvstat_low {n : Nat} (h : n < 7) : (R.DEV_FVSTAT_STATE n).Ok ∧ (R.DEV_FVSTAT_STATE n).off < 0xB0000 :=
  ⟨fvstat_ok h, by change 0x100 + 4 * n < _; omega⟩

theorem leaseShown_keeps (s : State) : (leaseShown s).part = s.part ∧ (leaseShown s).host = s.host ∧
    ∀ g : Fld, g.Ok ∧ g.off < 0xB0000 → (leaseShown s).rdR .f0 g = s.rdR .f0 g := by
  unfold leaseShown
  split
  · exact ⟨by simp, by simp, fun g hg => rdR_stepBlock (by decide) (by decide) hg⟩
  · exact ⟨rfl, rfl, fun g hg => rfl⟩

@[simp] theorem host_juniorShown (s : State) : (juniorShown s).host = s.host := by simp [juniorShown]

/-- The first handshake of a Curd die with F0. -/
theorem handshake_curd_f0 {n : Nat} {s : State} (hn : n < 6) (hc : s.hasCurd n = true) (h : s.awaited .f0 n) (hs : s.regsWf = true) :
    ∃ v, (v.rdR .f0 R.DEV_DIEPRES_CPRES).testBit n = true ∧ v.rdR .f0 (R.DEV_FVSTAT_STATE n) = 1 ∧ v.cmds = s.cmds ∧
      exec (.linkFirstHandshake .f0 n) s =
        .next (sendMsg (.rind .f0 n) 3 0 [BitVec.ofNat 32 (0x60000000 + (if s.part.f = 1 then 2 else 0)), 1] v) := by
  rw [exec_handshakeCurd (by simp [State.hasRind]) hn hc h]
  generalize ht : curdMet .f0 n (linkTrained .f0 n (.curd n .f0) s) = t
  obtain ⟨-, hpres, hstate, hhost, hpart⟩ := curd_shown hn hs ht.symm
  obtain ⟨hpart', hhost', hfar⟩ := leaseShown_keeps t
  refine ⟨leaseShown t, ?_, ?_, (State.host_eq.mp (hhost'.trans hhost)).1, ?_⟩
  · rw [hfar _ (by decide), hpres]
  · rw [hfar _ (fvstat_low (by omega)), hstate]
  · rw [if_pos rfl, hpart', hpart]

/-- The first handshake of a Curd die with F1. -/
theorem handshake_curd_f1 {n : Nat} {s : State} (hn : n < 6) (hpart : s.part.f = 2) (hc : s.hasCurd n = true) (h : s.awaited .f1 n) (hs : s.regsWf = true) :
    ∃ t, exec (.linkFirstHandshake .f1 n) s = .next t ∧ (t.rdR .f1 R.DEV_DIEPRES_CPRES).testBit n = true ∧ t.rdR .f1 (R.DEV_FVSTAT_STATE n) = 1 ∧
      t.rdR .f1 R.STEP_EPOCH_EPOCH = 1 ∧ t.cmds = s.cmds ∧ t.out = s.out := by
  rw [exec_handshakeCurd (by simp [State.hasRind, hpart]) hn hc h]
  generalize ht : curdMet .f1 n (linkTrained .f1 n (.curd n .f1) s) = t
  obtain ⟨hregs, hpres, hstate, hhost, -⟩ := curd_shown hn hs ht.symm
  refine ⟨juniorShown t, if_neg (by decide), ?_, ?_, ?_, State.host_eq.mp ((host_juniorShown t).trans hhost)⟩
  · rw [juniorShown, rdR_stepBlock (by decide) (by decide) (by decide), hpres]
  · rw [juniorShown, rdR_stepBlock (by decide) (by decide) (fvstat_low (by omega)), hstate]
  · exact (State.rd_wr_other (by decide) (by decide) (.inr (by decide))).trans (State.rdR_wrR_self hregs (by decide))

/-- What one die shows once the Rind link has trained. -/
def peerMet (e : RSlot) (s : State) : State := ((s.wrR e R.DEV_DIEPRES_F1PRES 1).wrR e R.DEV_ID_FDIES 2).wrR e R.STEP_STAT_LINKUP 1

theorem peerMet_self {e : RSlot} {s : State} (hs : s.regsWf = true) :
    (peerMet e s).regsWf = true ∧ (peerMet e s).rdR e R.DEV_DIEPRES_F1PRES = 1 ∧ (peerMet e s).rdR e R.DEV_ID_FDIES = 2 ∧
      (peerMet e s).rdR e R.STEP_STAT_LINKUP = 1 ∧ (peerMet e s).rdR e (R.DEV_FVSTAT_STATE 6) = s.rdR e (R.DEV_FVSTAT_STATE 6) := by
  have hpres := State.regsWf_wrR (d := e) (f := R.DEV_DIEPRES_F1PRES) (v := 1) hs
  have hid := State.regsWf_wrR (d := e) (f := R.DEV_ID_FDIES) (v := 2) hpres
  have hreg (t : State) (f g : Fld) (v : Nat) (h : f.Ok ∧ g.Ok ∧ f.off ≠ g.off) : (t.wrR e f v).rdR e g = t.rdR e g :=
    State.rd_wr_other h.1 h.2.1 (.inr h.2.2)
  refine ⟨State.regsWf_wrR hid, ?_, ?_, State.rdR_wrR_self hid (by decide), ?_⟩
  · rw [peerMet, hreg _ _ _ _ (by decide), hreg _ _ _ _ (by decide)]
    exact State.rdR_wrR_self hs (by decide)
  · rw [peerMet, hreg _ _ _ _ (by decide)]
    exact State.rdR_wrR_self hpres (by decide)
  · rw [peerMet, hreg _ _ _ _ (by decide), hreg _ _ _ _ (by decide), hreg _ _ _ _ (by decide)]

theorem peerMet_other {d e : RSlot} {g : Fld} {s : State} (hg : g.Ok) (h : d ≠ e) : (peerMet d s).rdR e g = s.rdR e g := by
  rw [peerMet, State.rdR_wrR_die (by decide) hg h, State.rdR_wrR_die (by decide) hg h, State.rdR_wrR_die (by decide) hg h]

@[simp] theorem linkUp_peerMet (d : RSlot) (s : State) (e : LinkEnd) : (peerMet d s).linkUp e = s.linkUp e := by simp [peerMet, State.linkUp]

@[simp] theorem host_peerMet (d : RSlot) (s : State) : (peerMet d s).host = s.host := by simp [peerMet]

/-- Both dies show the link whose ends have trained. -/
def bothShow (s : State) : State := (s.wrR .f1 (R.DEV_FVSTAT_STATE 6) 1).wrR .f0 (R.DEV_FVSTAT_STATE 6) 1

@[simp] theorem linkUp_bothShow (s : State) (e : LinkEnd) : (bothShow s).linkUp e = s.linkUp e := by simp [bothShow, State.linkUp]

@[simp] theorem host_bothShow (s : State) : (bothShow s).host = s.host := by simp [bothShow]

@[simp] theorem part_bothShow (s : State) : (bothShow s).part = s.part := by simp [bothShow]

theorem bothShow_state {s : State} (hs : s.regsWf = true) (e : RSlot) :
    (bothShow s).regsWf = true ∧ (bothShow s).rdR e (R.DEV_FVSTAT_STATE 6) = 1 := by
  have h1 := State.regsWf_wrR (d := .f1) (f := R.DEV_FVSTAT_STATE 6) (v := 1) hs
  refine ⟨State.regsWf_wrR h1, ?_⟩
  cases e with
  | f0 => exact State.rdR_wrR_self h1 (by decide)
  | f1 => exact (State.rdR_wrR_die (by decide) (by decide) (by decide)).trans (State.rdR_wrR_self hs (by decide))

theorem peersMet_shown {s : State} (hs : s.regsWf = true) (hfv : ∀ e, s.rdR e (R.DEV_FVSTAT_STATE 6) = 1) (e : RSlot) :
    (peerMet .f1 (peerMet .f0 s)).rdR e R.DEV_DIEPRES_F1PRES = 1 ∧ (peerMet .f1 (peerMet .f0 s)).rdR e R.DEV_ID_FDIES = 2 ∧
      (peerMet .f1 (peerMet .f0 s)).rdR e R.STEP_STAT_LINKUP = 1 ∧ (peerMet .f1 (peerMet .f0 s)).rdR e (R.DEV_FVSTAT_STATE 6) = 1 := by
  obtain ⟨hregs, hpres0, hid0, hlink0, hfv0⟩ := peerMet_self (e := .f0) hs
  obtain ⟨-, hpres1, hid1, hlink1, hfv1⟩ := peerMet_self (e := .f1) hregs
  cases e with
  | f0 =>
    have hkeep (g : Fld) (hg : g.Ok) : (peerMet .f1 (peerMet .f0 s)).rdR .f0 g = (peerMet .f0 s).rdR .f0 g := peerMet_other hg (by decide)
    rw [hkeep _ (by decide), hkeep _ (by decide), hkeep _ (by decide), hkeep _ (by decide)]
    exact ⟨hpres0, hid0, hlink0, hfv0.trans (hfv .f0)⟩
  | f1 => exact ⟨hpres1, hid1, hlink1, hfv1.trans ((peerMet_other (by decide) (by decide)).trans (hfv .f1))⟩

theorem exec_handshakeRind {d : RSlot} {s : State} (hpart : s.part.f = 2) (h : s.awaited d 6) :
    exec (.linkFirstHandshake d 6) s = .next
      ((bothShow (linkTrained d 6 (.rind d.peer 6) s)).rinds.foldl (fun t e => peerMet e t) (bothShow (linkTrained d 6 (.rind d.peer 6) s))) := by
  obtain ⟨hlo, hhi, hup, habs⟩ := h
  show execLinkFirstHandshake d 6 s = _
  unfold execLinkFirstHandshake
  exact if_pos (by simp [State.hasRind, hpart, hlo, hhi, hup, habs])

/-- The first handshake of the two Rind dies. -/
theorem handshake_rind {d : RSlot} {s : State} (hpart : s.part.f = 2) (h : s.awaited d 6) (hs : s.regsWf = true) :
    ∃ t, exec (.linkFirstHandshake d 6) s = .next t ∧
      (∀ e, t.rdR e R.DEV_DIEPRES_F1PRES = 1 ∧ t.rdR e R.DEV_ID_FDIES = 2 ∧ t.rdR e R.STEP_STAT_LINKUP = 1 ∧ t.rdR e (R.DEV_FVSTAT_STATE 6) = 1 ∧
        (s.EndOk (.rind e 6) → t.linkUp (.rind e 6) = true)) ∧ t.cmds = s.cmds ∧ t.out = s.out := by
  have hlink := regsWf_linkTrained (d := d) (n := 6) (e := .rind d.peer 6) hs
  have hup (e : RSlot) (hok : s.EndOk (.rind e 6)) : (linkTrained d 6 (.rind d.peer 6) s).linkUp (.rind e 6) = true :=
    linkUp_linkTrained (by cases d <;> cases e <;> simp [RSlot.peer]) hok.endHeld
  have hshow := bothShow_state hlink
  have hrinds : (bothShow (linkTrained d 6 (.rind d.peer 6) s)).rinds = [.f0, .f1] := State.rinds_two (by simp [hpart])
  have hhost : (peerMet .f1 (peerMet .f0 (bothShow (linkTrained d 6 (.rind d.peer 6) s)))).host = s.host := by simp
  refine ⟨peerMet .f1 (peerMet .f0 (bothShow (linkTrained d 6 (.rind d.peer 6) s))), ?_, fun e => ?_, State.host_eq.mp hhost⟩
  · rw [exec_handshakeRind hpart h, hrinds, List.foldl_cons, List.foldl_cons, List.foldl_nil]
  · obtain ⟨hpres, hid, hstep, hfv⟩ := peersMet_shown (hshow e).1 (fun x => (hshow x).2) e
    exact ⟨hpres, hid, hstep, hfv, fun hok => by simpa using hup e hok⟩

/-! ## Settings -/

/-- Reading the settings tells the outside and changes nothing else. -/
theorem readSettings_field {β : Type} (π : State → β) (h : ∀ t o, π (State.emit t o) = π t) (s : State) : π (readSettings s) = π s :=
  foldl_field π fun t _ => h t _

/-- The phases, the bus, and the settings stay as they are while the copies are read. -/
theorem settings_readSettings (s : State) : (readSettings s).settings = s.settings := readSettings_field State.settings (fun _ _ => rfl) s

section
variable {d : RSlot} {s : State} (hd : s.hasRind d = true) (hph : s.phase d = 4) (hbus : s.hasBus d = true) (hf0 : d = .f0 ∨ .f0 ∈ s.boot.settled)
include hd hph hbus hf0

theorem startSettings_none (h : s.settings = none) : exec (.startSettings d) s = .next (settle (startFail [7] (readSettings s))) := by
  show execStartSettings d s = _
  refine (if_pos ⟨hd, hph, hbus, hf0⟩).trans ?_
  dsimp only
  rw [settings_readSettings, h]

theorem startSettings_some {p : Nat × Settings} (h : s.settings = some p) :
    exec (.startSettings d) s =
      .next (settle (if p.2.enough then setPhase d 5 (loadSettings d p.1 p.2 (readSettings s)) else startFail [7] (readSettings s))) := by
  show execStartSettings d s = _
  refine (if_pos ⟨hd, hph, hbus, hf0⟩).trans ?_
  dsimp only
  rw [settings_readSettings, h]

theorem startSettings_fails (h : ∀ p, s.settings = some p → p.2.enough = false) :
    exec (.startSettings d) s = .next (settle (startFail [7] (readSettings s))) := by
  cases hset : s.settings with
  | none => exact startSettings_none hd hph hbus hf0 hset
  | some p => rw [startSettings_some hd hph hbus hf0 hset, if_neg (by simp [h p hset])]

end

/-- A settings copy as the device writes it is valid without an owner key (R84). -/
theorem valid_make {sseq : Nat} {l : List SetRec} (hrec : l.all (fun r => decide (r.raw.length ≤ 4088 ∧ r.raw.length % 4 = 0)) = true)
    (hlen : (l.flatMap SetRec.bytes).length ≤ 524160) : (Settings.make sseq l).valid false = true := by
  simp only [Settings.valid, Bool.and_eq_true, decide_eq_true_eq]
  exact ⟨⟨⟨⟨rfl, hlen, by simp [Settings.make], rfl⟩, hrec⟩, rfl⟩, by simp [Settings.make]⟩

theorem modFmt_boot (g : Nat) (f : Fmt → Fmt) (s : State) : (modFmt g f s).boot = s.boot := (rfl)

theorem boot_paInit (g : Nat) (s : State) : (paInit g s).boot = s.boot := by
  rw [paInit, modFmt_boot]
  exact foldl_field State.boot fun _ _ => rfl

theorem boot_loadPressTables (img : SlotImage) (s : State) : (loadPressTables img s).boot = s.boot :=
  foldl_field State.boot fun _ _ => foldl_field State.boot fun _ _ => rfl

theorem boot_copySeverities (d : RSlot) (s : State) : (copySeverities d s).boot = s.boot := foldl_field State.boot fun _ _ => rfl

theorem boot_showAdmit (s : State) : (showAdmit s).boot = s.boot :=
  foldl_field State.boot fun t d => by
    split <;> rfl

/-- A die whose settings are loaded is settled: what F0 passes on to the Curd dies leaves that. -/
theorem settled_loadSettings (d : RSlot) (k : Nat) (c : Settings) (s : State) : d ∈ (loadSettings d k c s).boot.settled := by
  unfold loadSettings
  extract_lets loaded applied closed checked boot taken severe pressed
  have htaken : d ∈ taken.boot.settled := by
    rw [boot_showAdmit]
    exact List.mem_cons_self
  split
  · have hpressed : pressed.boot = taken.boot := by
      unfold pressed
      split
      · rw [boot_loadPressTables, boot_copySeverities]
      · exact boot_copySeverities ..
    have hinit : (onGroups (fun g t => modFmt g (fun f => { f with answers := f.answers && ! f.paLow }) (paInit g t)) pressed).boot = pressed.boot :=
      foldl_field State.boot fun t g => (modFmt_boot ..).trans (boot_paInit ..)
    rwa [hinit, hpressed]
  · exact htaken

/-- Settings lead to phase 5. -/
theorem startSettings_leads {d : RSlot} {k : Nat} {c : Settings} {s : State} (hd : s.hasRind d = true) (hph : s.phase d = 4) (hbus : s.hasBus d = true)
    (hf0 : d = .f0 ∨ .f0 ∈ s.boot.settled) (hset : s.settings = some (k, c)) (hc : c.enough = true) (hs : s.regsWf = true) :
    ∃ u, exec (.startSettings d) s = .next (settle u) ∧ u = setPhase d 5 (loadSettings d k c (readSettings s)) ∧ u.rdR d R.BOOT_STAT_PHASE = 5 ∧
      d ∈ u.boot.settled := by
  have hregs : (loadSettings d k c (readSettings s)).regsWf = true := (loadSettings_kept (readSettings_kept (.refl s))).regs hs
  refine ⟨_, (startSettings_some hd hph hbus hf0 hset).trans (by rw [if_pos hc]), rfl, State.rdR_wrR_self hregs (by decide), ?_⟩
  rw [setPhase, State.boot_wrR]
  exact settled_loadSettings ..

/-! ## The digests (R94) -/

/-- What die `d` has loaded: the image and the records that the digests are made of. -/
def State.loadedBy (s : State) (d : RSlot) : Option (SlotImage × List SetRec) := (s.boot.image.find? (fun p => p.1 = d)).map Prod.snd

theorem exec_digestExchange {here : Bool} {s : State} (hpart : s.part.f = 2) (hph : s.phase .f0 = 5) (hf : s.fenced .f1 = false) :
    exec (.startDigestExchange here) s = .next (if here = true ∧ s.phase .f1 = 5 ∧ s.loadedBy .f0 = s.loadedBy .f1 then
      s.rinds.foldl (fun t d => t.wrR d R.STEP_STAT_REDUND 1) s else settle (fenceDie .f1 (noteDivergence 5 .f1 s))) := by
  show execStartDigestExchange here s = _
  refine (if_pos (by simp [hpart, hph, hf])).trans ?_
  exact (apply_ite Host.Outcome.next _ _ _).symm

theorem digests_agree {s : State} (hpart : s.part.f = 2) (h0 : s.phase .f0 = 5) (h1 : s.phase .f1 = 5) (hf : s.fenced .f1 = false)
    (heq : s.loadedBy .f0 = s.loadedBy .f1) (hs : s.regsWf = true) :
    ∃ t, exec (.startDigestExchange true) s = .next t ∧ t.rdR .f0 R.STEP_STAT_REDUND = 1 ∧ t.rdR .f1 R.STEP_STAT_REDUND = 1 ∧
      t.f1 = s.f1 ∧ t.cmds = s.cmds := by
  refine ⟨(s.wrR .f0 R.STEP_STAT_REDUND 1).wrR .f1 R.STEP_STAT_REDUND 1, ?_, ?_, State.rdR_wrR_self (State.regsWf_wrR hs) (by decide), (rfl), (rfl)⟩
  · rw [exec_digestExchange hpart h0 hf, if_pos ⟨rfl, h1, heq⟩, State.rinds_two hpart, List.foldl_cons, List.foldl_cons, List.foldl_nil]
  · exact (State.rdR_wrR_die (by decide) (by decide) (by decide)).trans (State.rdR_wrR_self hs (by decide))

/-! ## Buffer memory (R400 to R402) -/

/-- The state after both channels have trained. -/
def bothTrained (d : RSlot) (lanes : List LaneEyes) (s : State) : State := trainChannel d 1 (lanes.drop 10) (trainChannel d 0 (lanes.take 10) s)

theorem bothTrained_kept (d : RSlot) (lanes : List LaneEyes) (s : State) : Kept s (bothTrained d lanes s) := trainChannel_kept (trainChannel_kept (.refl s))

/-- The channels that have a failed lane (R401). -/
def State.failedChannels (s : State) (d : RSlot) : List Nat := (List.range 2).filter (fun c => s.rdR d (R.BMEM_TRAIN_FAILLANE c) ≠ 0xF)

theorem failedChannels_isEmpty {d : RSlot} {s : State} :
    (s.failedChannels d).isEmpty = true ↔ ∀ c < 2, s.rdR d (R.BMEM_TRAIN_FAILLANE c) = 0xF := by
  simp [State.failedChannels, List.filter_eq_nil_iff]

theorem dramTraining_good {d : RSlot} {lanes : List LaneEyes} {s : State} (hd : s.hasRind d = true) (hph : s.rdR d R.BMEM_STAT_PHASE = 1)
    (hs : s.regsWf = true) (h : ∀ c < 2, (bothTrained d lanes s).rdR d (R.BMEM_TRAIN_FAILLANE c) = 0xF) :
    ∃ t, exec (.dramTrainingDone d lanes) s = .next t ∧ t.rdR d R.BMEM_STAT_PHASE = 2 := by
  refine ⟨(bothTrained d lanes s).wrR d R.BMEM_STAT_PHASE 2, ?_, State.rdR_wrR_self ((bothTrained_kept ..).regs hs) (by decide)⟩
  show execDramTrainingDone d lanes s = _
  exact (if_pos ⟨hd, hph⟩).trans (if_pos (failedChannels_isEmpty.mpr h))

theorem dramTraining_failed {lanes : List LaneEyes} {s : State} (hpart : s.part.f = 1) (hph : s.rdR .f0 R.BMEM_STAT_PHASE = 1)
    (hs : s.regsWf = true) (h : ∃ c < 2, (bothTrained .f0 lanes s).rdR .f0 (R.BMEM_TRAIN_FAILLANE c) ≠ 0xF) :
    ∃ detail v, v.rdR .f0 R.BMEM_STAT_PHASE = 0xF ∧ exec (.dramTrainingDone .f0 lanes) s = .next (settle (startFail [8] (raise .f0 0x080 detail v))) := by
  have hbad : ¬ ((bothTrained .f0 lanes s).failedChannels .f0).isEmpty = true := fun he => by
    obtain ⟨c, hc, hne⟩ := h
    exact hne (failedChannels_isEmpty.mp he c hc)
  have hf1 (detail : List Nat) : (raise .f0 0x080 detail ((bothTrained .f0 lanes s).wrR .f0 R.BMEM_STAT_PHASE 0xF)).part.f = 1 := by
    rw [(raise_kept (.refl _)).part, State.part_wrR, (bothTrained_kept ..).part, hpart]
  refine ⟨((bothTrained .f0 lanes s).failedChannels .f0).flatMap (fun c => [c, (bothTrained .f0 lanes s).rdR .f0 (R.BMEM_TRAIN_FAILLANE c)]),
    (bothTrained .f0 lanes s).wrR .f0 R.BMEM_STAT_PHASE 0xF, State.rdR_wrR_self ((bothTrained_kept ..).regs hs) (by decide), ?_⟩
  show execDramTrainingDone .f0 lanes s = _
  refine (if_pos ⟨by simp [State.hasRind], hph⟩).trans ((if_neg hbad).trans ?_)
  exact congrArg (fun u => Host.Outcome.next (settle u)) ((if_neg (fun hr => absurd ((hf1 _).symm.trans hr.2) (by decide))).trans (if_pos rfl))

/-- Every byte of a memory that has been filled reads 0 (R402). -/
def Bmem.filled (m : Bmem) : Bmem := { m with cells := [], errs := [], poison := [], merges := [], arrived := [] }

/-- The fill has ended: the channels are ready. -/
def memoryFilled (d : RSlot) (s : State) : State := ((modBmem d Bmem.filled s).wrR d R.BMEM_STAT_PHASE 3).wrR d R.BMEM_STAT_CHRDY 3

theorem bmem_memoryFilled (d : RSlot) (s : State) : ((memoryFilled d s).rind d).bmem = (s.rind d).bmem.filled := by
  simp [memoryFilled, modBmem]

theorem rdR_memoryFilled {d : RSlot} {s : State} (hs : s.regsWf = true) :
    (memoryFilled d s).rdR d R.BMEM_STAT_CHRDY = 3 ∧ (memoryFilled d s).rdR d R.BMEM_STAT_PHASE = 3 ∧
      ∀ g : Fld, g.Ok ∧ g.off ≠ 0x80000 → (memoryFilled d s).rdR d g = s.rdR d g := by
  have hmod : (modBmem d Bmem.filled s).regsWf = true := by simpa [State.regsWf, modBmem] using hs
  have hph := State.regsWf_wrR (d := d) (f := R.BMEM_STAT_PHASE) (v := 3) hmod
  refine ⟨State.rdR_wrR_self hph (by decide), ?_, fun g hg => ?_⟩
  · exact (State.rdR_wrR_apart hph (by decide) (by decide) (by decide)).trans (State.rdR_wrR_self hmod (by decide))
  · exact (State.rd_wr_other (by decide) hg.1 (.inr hg.2.symm)).trans ((State.rd_wr_other (by decide) hg.1 (.inr hg.2.symm)).trans
      (State.rdR_modRind ..))

theorem part_memoryFilled (d : RSlot) (s : State) : (memoryFilled d s).part = s.part := by simp [memoryFilled, modBmem]

theorem exec_dramFill {d : RSlot} {s : State} (hd : s.hasRind d = true) (hmem : s.rdR d R.BMEM_STAT_PHASE = 2) (hph : s.phase d = 5)
    (hrole : s.part.f = 2 → s.role d ≠ roleResync) (hs : s.regsWf = true) :
    exec (.dramFillDone d) s = .next (settle (if s.part.f = 2 ∧ d = .f0 ∧ (releaseDie d (memoryFilled d s)).rdR .f0 R.STEP_STAT_REDUND = 0 ∧
        (releaseDie d (memoryFilled d s)).fenced .f1 = false then
      fenceDie .f1 (noteDivergence 5 .f1 (releaseDie d (memoryFilled d s))) else releaseDie d (memoryFilled d s))) := by
  obtain ⟨-, -, hkeep⟩ := rdR_memoryFilled (d := d) hs
  have hpart := part_memoryFilled d s
  have hrole' : ¬ ((memoryFilled d s).role d = roleResync ∧ (memoryFilled d s).part.f = 2) := fun ⟨hr, hf⟩ =>
    hrole (hpart ▸ hf) (by rwa [State.role, hkeep _ (by decide), hpart] at hr)
  have hph' : (memoryFilled d s).phase d = 5 := (hkeep _ (by decide)).trans hph
  have hrel : (releaseDie d (memoryFilled d s)).part.f = s.part.f := by rw [(releaseDie_kept (.refl _)).part, hpart]
  show execDramFillDone d s = _
  refine (if_pos ⟨hd, hmem⟩).trans ((if_neg hrole').trans ((if_pos hph').trans ?_))
  refine congrArg (fun u => Host.Outcome.next (settle u)) (if_congr ?_ rfl rfl)
  change (releaseDie d (memoryFilled d s)).part.f = 2 ∧ _ ∧
    (releaseDie d (memoryFilled d s)).rdR .f0 R.STEP_STAT_REDUND = 0 ∧ (! (releaseDie d (memoryFilled d s)).fenced .f1) = true ↔ _
  rw [hrel, Bool.not_eq_true']

theorem dramFill_releases {d : RSlot} {s : State} (hd : s.hasRind d = true) (hmem : s.rdR d R.BMEM_STAT_PHASE = 2) (hph : s.phase d = 5)
    (hrole : s.part.f = 2 → s.role d ≠ roleResync) (hs : s.regsWf = true) :
    ∃ v, (v.rind d).bmem.cells = [] ∧ (v.rind d).bmem.poison = [] ∧ v.rdR d R.BMEM_STAT_CHRDY = 3 ∧ v.rdR d R.BMEM_STAT_PHASE = 3 ∧
      exec (.dramFillDone d) s = .next (settle (if s.part.f = 2 ∧ d = .f0 ∧ (releaseDie d v).rdR .f0 R.STEP_STAT_REDUND = 0 ∧
          (releaseDie d v).fenced .f1 = false then
        fenceDie .f1 (noteDivergence 5 .f1 (releaseDie d v)) else releaseDie d v)) := by
  obtain ⟨hready, hphase, -⟩ := rdR_memoryFilled (d := d) hs
  exact ⟨memoryFilled d s, by rw [bmem_memoryFilled]; rfl, by rw [bmem_memoryFilled]; rfl, hready, hphase, exec_dramFill hd hmem hph hrole hs⟩

/-! ## The heads and READY -/

/-- F0 is among the dies that get the phase. -/
theorem phase_setPhases {p : Nat} {s : State} (hs : s.regsWf = true) : (setPhases p s).rdR .f0 R.BOOT_STAT_PHASE = p % 16 := by
  unfold setPhases State.rinds
  split
  · exact (State.rdR_wrR_die (by decide) (by decide) (by decide)).trans (State.rdR_wrR_self hs (by decide))
  · exact State.rdR_wrR_self hs (by decide)

/-- What step 12 samples: that the heads are released, PERST# and the reference clocks. -/
def State.headLevels (s : State) : Bool × Nat × Nat := (s.boot.released, s.pins.perst, s.pins.refclk)

theorem State.headLevels_eq {s : State} {a : Bool} {b c : Nat} : s.headLevels = (a, b, c) ↔ s.boot.released = a ∧ s.pins.perst = b ∧ s.pins.refclk = c := by
  simp [State.headLevels]

theorem eventFree_headLevels : EventFree State.headLevels :=
  ⟨fun _ _ _ _ => (rfl), fun _ d _ => by cases d <;> rfl, fun _ => (rfl), fun _ _ => (rfl)⟩

theorem headLevels_setPhases (p : Nat) (s : State) : (setPhases p s).headLevels = s.headLevels :=
  foldl_field State.headLevels fun _ _ => eventFree_headLevels.wrR ..

/-- Step 12 as the pins are sampled. -/
def pinsSampled (x : HeadPins) (s : State) : State :=
  { s with boot := { s.boot with released := true }, pins := { s.pins with perst := x.perst, refclk := x.refclk } }

/-- A head whose mode differs between the dies is off (R105). -/
def modesChecked (s : State) : State :=
  (List.range 4).foldl (fun t h =>
    if t.modeMismatch h then t.rinds.foldl (fun t d => raise d 0x031 [h] (t.wrR d (R.LINK_HEADCFG_MODE h) 0)) t else t) s

/-- Each head of each die takes the state that its pins give it (R68, R73). -/
def headsStarted (x : HeadPins) (s : State) : State :=
  s.rinds.foldl (fun t d =>
    let lv := x.perst / 2 ^ (4 * d.code) % 16
    let t := (t.wrR d R.DEV_PINSTAT_PERST lv).modRind d (fun r => { r with modes := (List.range 4).map (fun h => s.rdR d (R.LINK_HEADCFG_MODE h)) })
    (List.range 4).foldl (fun t h => t.wrR d (R.LINK_HEADSTAT_STATE h) (t.headStart d h (lv.testBit h))) t) s

theorem headLevels_modesChecked (s : State) : (modesChecked s).headLevels = s.headLevels :=
  foldl_field State.headLevels fun t h => by
    split
    · exact foldl_field State.headLevels fun _ _ => (eventFree_headLevels.raise ..).trans (eventFree_headLevels.wrR ..)
    · rfl

theorem headLevels_headsStarted (x : HeadPins) (s : State) : (headsStarted x s).headLevels = s.headLevels :=
  foldl_field State.headLevels fun _ _ => (foldl_field State.headLevels fun _ _ => eventFree_headLevels.wrR ..).trans
    ((eventFree_headLevels.modRind ..).trans (eventFree_headLevels.wrR ..))

theorem exec_headsRelease {x : HeadPins} {s : State} (hph : s.phase .f0 = 6) (hrel : s.boot.released = false) :
    exec (.headsRelease x) s = .next (settle (setPhases 7 (headsStarted x (modesChecked (pinsSampled x s))))) := by
  show execHeadsRelease x s = _
  exact if_pos (by simp [hph, hrel])

theorem regsWf_modesChecked {s : State} (hs : s.regsWf = true) : (modesChecked s).regsWf = true := by
  refine List.foldlRecOn (motive := fun t : State => t.regsWf = true) _ _ hs fun t ht h _ => ?_
  split
  · exact List.foldlRecOn (motive := fun t : State => t.regsWf = true) _ _ ht fun _ hu _ _ => (raise_kept (.refl _)).regs (State.regsWf_wrR hu)
  · exact ht

theorem regsWf_headsStarted {x : HeadPins} {s : State} (hs : s.regsWf = true) : (headsStarted x s).regsWf = true := by
  refine List.foldlRecOn (motive := fun t : State => t.regsWf = true) _ _ hs fun t ht d _ => ?_
  refine List.foldlRecOn (motive := fun t : State => t.regsWf = true) _ _ ?_ fun _ hu _ _ => State.regsWf_wrR hu
  simpa [State.regsWf] using State.regsWf_wrR ht

theorem headsRelease_leads {perst refclk : Nat} {s : State} (hph : s.phase .f0 = 6) (hrel : s.boot.released = false) (hs : s.regsWf = true) :
    ∃ u, exec (.headsRelease ⟨perst, refclk⟩) s = .next (settle u) ∧ u.boot.released = true ∧ u.pins.perst = perst ∧ u.pins.refclk = refclk ∧
      u.rdR .f0 R.BOOT_STAT_PHASE = 7 := by
  have hlevels : (setPhases 7 (headsStarted ⟨perst, refclk⟩ (modesChecked (pinsSampled ⟨perst, refclk⟩ s)))).headLevels = (true, perst, refclk) := by
    rw [headLevels_setPhases, headLevels_headsStarted, headLevels_modesChecked]
    rfl
  obtain ⟨hreleased, hperst, hclock⟩ := State.headLevels_eq.mp hlevels
  refine ⟨_, exec_headsRelease hph hrel, hreleased, hperst, hclock, ?_⟩
  exact phase_setPhases (regsWf_headsStarted (regsWf_modesChecked hs))

/-! ## The rest of the start, and the obligation -/

theorem exec_memorySpindle {s : State} (hph : s.phase .f0 = 5) :
    exec .startMemorySpindle s = .next (settle (keeperStart (s.rinds.foldl (fun t d => startTraining d t) s))) := by
  show execStartMemorySpindle s = _
  exact if_pos hph

section
variable {ms : Nat} {s : State} (hph : s.phase s.senior = 7) (hspeed : s.atSpeed = true) (hheads : s.headsLoaded = true)
include hph hspeed hheads

theorem startReady_lost (hlost : s.tablesLost = true) :
    exec (.startReady ms) s = .next (settle (startFail [15] (wrAll R.XLAT_STAT_STATE 0xF (raiseAll 0x061 [] s)))) := by
  show execStartReady ms s = _
  exact (if_pos ⟨hph, hspeed, hheads⟩).trans (if_pos hlost)

/-- The state in which READY is reported: the tables are read, and phase, time and counts are shown. -/
def readyShown (ms : Nat) (s : State) : State :=
  let s := loadTables s
  let s := s.serving.foldl (fun t d => setPhase d 8 t) s
  let s := s.rinds.foldl (fun t d => (((t.wrR d R.BOOT_STARTTIME_MS ms).wrR d R.BOOT_STAT_FAILS 0).wrR d R.FAULT_INJ_USED 0)) s
  { s with boot := { s.boot with restarting := false, portsOff := false } }

/-- The device at READY (R91 step 15): source 0x024 is raised, turning and the ports begin. -/
def madeReady (ms : Nat) (s : State) : State := startPorts (startTurning (inStep (fun d t => raise d 0x024 [ms] t) (readyShown ms s)))

/-- What READY writes: a trial is committed, and an interrupted blowing of the fuses is completed (R83, DESIGN CHOICE 126). -/
def readyWrites (v : State) : State :=
  if v.boot.trial then
    writeHeader { v.boot.hdr with active := (v.boot.hdr.pending.getD v.boot.hdr.active), pending := none, tries := 0 } .commit v
  else if v.boot.slot = some v.boot.hdr.active ∧ v.fuses.svn < v.rdR .f0 R.BOOT_STAT_SVN then
    v.rinds.foldl (fun t d => t.wrR d R.BOOT_FUSE_SVNFUSE (min 127 (max v.fuses.svn (v.rdR .f0 R.BOOT_STAT_SVN))))
      { v with fuses := { v.fuses with svn := min 127 (max v.fuses.svn (v.rdR .f0 R.BOOT_STAT_SVN)) } }
  else v

theorem startReady_found (hlost : s.tablesLost = false) : exec (.startReady ms) s = .next (settle (readyWrites (madeReady ms s))) := by
  show execStartReady ms s = _
  refine (if_pos ⟨hph, hspeed, hheads⟩).trans ((if_neg (by simp [hlost])).trans ?_)
  rfl

end

theorem exec_watchdog {s : State} (hlo : 1 ≤ s.phase .f0) (hhi : s.phase .f0 ≤ 7) (hcook : s.spState ≠ spCooking) (hsag : s.pins.sagPause = false) :
    exec .startWatchdogExpire s = .next (settle (startFail [s.phase .f0] s)) := by
  show execStartWatchdogExpire s = _
  exact if_pos ⟨hhi, hlo, hcook, by simp [hsag]⟩

theorem thermalWait_restarts {s : State} (hph : s.phase .f0 = 0xD)
    (hcool : s.budget.diodes.all (fun p => decide (p.2 < (s.threshold p.1 2).1 - (s.threshold p.1 2).2)) = true) (hs : s.regsWf = true) :
    ∃ t, exec .thermalWaitEnd s = .next t ∧ t.rdR .f0 R.BOOT_STAT_PHASE = 1 ∧ t.budget.shut = [] ∧ t.budget.hot = [] ∧ t.cmds = s.cmds := by
  have hcold : ({ s with budget := { s.budget with shut := [], hot := [] } } : State).regsWf = true := hs
  have hbudget : (setPhases 1 { s with budget := { s.budget with shut := [], hot := [] } }).budget = { s.budget with shut := [], hot := [] } :=
    foldl_field State.budget fun _ _ => rfl
  refine ⟨setPhases 1 { s with budget := { s.budget with shut := [], hot := [] } }, ?_, phase_setPhases hcold, by rw [hbudget], by rw [hbudget], ?_⟩
  · show execThermalWaitEnd s = _
    exact if_pos ⟨hph, hcool⟩
  · exact foldl_field State.cmds fun _ _ => rfl

/-- Settles O8: each step by the one change of the state it makes; what it shows is read back store by store, and outlasts the events raised after it. -/
theorem startSequencePhases : Obligations.StartSequencePhases := by
  refine ⟨fun n s hn hc hlo hhi hup habs hs => handshake_curd_f0 hn hc ⟨hlo, hhi, hup, habs⟩ hs,
    fun n s hn hpart hc hlo hhi hup habs hs => handshake_curd_f1 hn hpart hc ⟨hlo, hhi, hup, habs⟩ hs,
    fun d s hpart hlo hhi hup habs hs => handshake_rind hpart ⟨hlo, hhi, hup, habs⟩ hs,
    fun d k c s hd hph hbus hf0 hset hc hs => startSettings_leads hd hph hbus hf0 hset hc hs,
    fun d s hd hph hbus hf0 h => startSettings_fails hd hph hbus hf0 h,
    fun sseq l hrec hlen => valid_make hrec hlen,
    fun here s hpart hph hf => exec_digestExchange hpart hph hf,
    fun s hpart h0 h1 hf heq hs => digests_agree hpart h0 h1 hf heq hs,
    fun s hph => exec_memorySpindle hph,
    fun d lanes s hd hph hs h => dramTraining_good hd hph hs h,
    fun lanes s hpart hph hs h => dramTraining_failed hpart hph hs h,
    fun d s hd hmem hph hrole hs => dramFill_releases hd hmem hph hrole hs,
    fun perst refclk s hph hrel hs => headsRelease_leads hph hrel hs,
    fun ms s hph hspeed hheads hlost => startReady_lost hph hspeed hheads hlost,
    fun ms s hph hspeed hheads hlost => ⟨madeReady ms s, readyShown ms s, rfl, rfl, rfl, startReady_found hph hspeed hheads hlost⟩,
    fun s hlo hhi hcook hsag => exec_watchdog hlo hhi hcook hsag,
    fun s hph hcool hs => thermalWait_restarts hph hcool hs⟩

end Sys2Proof.Machine
end

section
/-! Stores that go to every Rind die, and the buses of the two islands: O5. -/

namespace Sys2Proof.Machine

/-! ## A field stored on every Rind die -/

theorem RSlot.ne_peer (d : RSlot) : d ≠ d.peer := by cases d <;> decide

/-- A store on every die changes registers alone. -/
theorem wrBoth_field {β : Type} (π : State → β) (h : ∀ t d f v, π (State.wrR t d f v) = π t) (f : Fld) (v : Nat) (s : State) :
    π (wrBoth f v s) = π s := foldl_field π fun _ _ => h ..

theorem regsWf_wrBoth {f : Fld} {v : Nat} {s : State} (hs : s.regsWf = true) : (wrBoth f v s).regsWf = true :=
  List.foldlRecOn (motive := fun t : State => t.regsWf = true) _ _ hs fun _ ht _ _ => State.regsWf_wrR ht

/-- What a step over the Rind dies leaves in a register of a die is what the step on that die leaves. -/
theorem rdR_foldl_rinds {F : State → RSlot → State} {g : Fld} {s u : State} {d : RSlot} (hu : u.regsWf = true) (hd : s.hasRind d = true)
    (hwf : ∀ t e, t.regsWf = true → (F t e).regsWf = true) (hother : ∀ t e x, e ≠ x → (F t e).rdR x g = t.rdR x g) :
    ∃ t, t.regsWf = true ∧ (s.rinds.foldl F u).rdR d g = (F t d).rdR d g := by
  unfold State.rinds
  split
  · cases d with
    | f0 => exact ⟨u, hu, hother _ _ _ (by decide)⟩
    | f1 => exact ⟨F u .f0, hwf _ _ hu, rfl⟩
  · next hpart =>
    obtain rfl : d = .f0 := by simpa [State.hasRind, hpart] using hd
    exact ⟨u, hu, rfl⟩

theorem rdR_wrBoth_self {f : Fld} {v : Nat} {s : State} {d : RSlot} (hs : s.regsWf = true) (hd : s.hasRind d = true) (hf : f.Ok) :
    (wrBoth f v s).rdR d f = v % 2 ^ (f.hi + 1 - f.lo) := by
  obtain ⟨t, ht, hread⟩ := rdR_foldl_rinds (F := fun t d => t.wrR d f v) hs hd (fun _ _ h => State.regsWf_wrR h)
    (fun _ _ _ hne => State.rdR_wrR_die hf hf hne)
  exact hread.trans (State.rdR_wrR_self ht hf)

/-! ## The two buses (R52, R65) -/

/-- The waiting is over, and no die drives the PMBus yet. -/
def pmbusLeft (s : State) : State := wrBoth R.DEV_PINSTAT_PMBOWN 0 { s with pmb := { s.pmb with takeover := false } }

theorem pmbusLeft_field {β : Type} (π : State → β) (h : ∀ t d f v, π (State.wrR t d f v) = π t) (s : State) :
    π (pmbusLeft s) = π { s with pmb := { s.pmb with takeover := false } } := wrBoth_field π h ..

/-- The owner bit is none of the registers that say who leads. -/
theorem senior_wrR_pmbown (d : RSlot) (v : Nat) (s : State) : (s.wrR d R.DEV_PINSTAT_PMBOWN v).senior = s.senior :=
  State.senior_congr (State.part_wrR ..) (fun _ => State.rd_wr_other (by decide) (by decide) (.inr (by decide)))
    (State.rd_wr_other (by decide) (by decide) (.inr (by decide)))

theorem pmbusTakeover_moves {s : State} (htake : s.pmb.takeover = true) (hlease : s.bitR s.senior R.STEP_STAT_LEASE = true) (hpart : s.part.f = 2)
    (hs : s.regsWf = true) :
    ∃ t, exec .pmbusTakeover s = .next t ∧ t.pmb.takeover = false ∧ t.rdR t.senior R.DEV_PINSTAT_PMBOWN = 1 ∧
      t.rdR t.senior.peer R.DEV_PINSTAT_PMBOWN = 0 ∧ t.cmds = s.cmds ∧ t.out = s.out := by
  have hleft : (pmbusLeft s).regsWf = true := regsWf_wrBoth hs
  have hhost : (pmbusLeft s).host = s.host := pmbusLeft_field State.host State.host_wrR s
  refine ⟨(pmbusLeft s).wrR (pmbusLeft s).senior R.DEV_PINSTAT_PMBOWN 1, ?_, ?_, ?_, ?_, State.host_eq.mp ((State.host_wrR ..).trans hhost)⟩
  · show execPmbusTakeover s = _
    exact if_pos ⟨htake, hlease⟩
  · exact congrArg Pmb.takeover (pmbusLeft_field State.pmb (fun _ _ _ _ => rfl) s)
  · rw [senior_wrR_pmbown]
    exact State.rdR_wrR_self hleft (by decide)
  · rw [senior_wrR_pmbown, State.rdR_wrR_die (by decide) (by decide) (RSlot.ne_peer _)]
    exact rdR_wrBoth_self hs (by simp [State.hasRind, hpart]) (by decide)

theorem sfBusRequest_asks {d : RSlot} {s : State} (hpart : s.part.f = 2) (hown : s.bitR d R.DEV_PINSTAT_SFOWN = false) (hreq : d ∉ s.pins.sfReq)
    (hf : s.fenced d = false) : exec (.sfBusRequest d) s = .next { s with pins := { s.pins with sfReq := s.pins.sfReq ++ [d] } } := by
  show execSfBusRequest d s = _
  exact if_pos (by simp [hpart, hown, hreq, hf])

theorem rdR_giveBus (d e : RSlot) (g : Fld) (s : State) :
    (giveBus d s).rdR e g = ((s.wrR d R.DEV_PINSTAT_SFOWN 1).wrR d.peer R.DEV_PINSTAT_SFOWN 0).rdR e g :=
  State.rdR_congr (by dsimp only [giveBus]) e g

theorem sfown_giveBus {d : RSlot} {s : State} (hs : s.regsWf = true) :
    (giveBus d s).rdR d R.DEV_PINSTAT_SFOWN = 1 ∧ (giveBus d s).rdR d.peer R.DEV_PINSTAT_SFOWN = 0 := by
  rw [rdR_giveBus, rdR_giveBus]
  exact ⟨(State.rdR_wrR_die (by decide) (by decide) (RSlot.ne_peer d).symm).trans (State.rdR_wrR_self hs (by decide)),
    State.rdR_wrR_self (State.regsWf_wrR hs) (by decide)⟩

theorem sfBusGrant_f0 {s : State} (hop : s.flash.op = none) (h : .f0 ∈ s.pins.sfReq) : exec .sfBusGrant s = .next (giveBus .f0 s) := by
  show execSfBusGrant s = _
  exact (if_neg (by simp [hop])).trans (if_pos h)

theorem sfBusGrant_f1 {s : State} (hop : s.flash.op = none) (h0 : .f0 ∉ s.pins.sfReq) (h1 : .f1 ∈ s.pins.sfReq) :
    exec .sfBusGrant s = .next (giveBus .f1 s) := by
  show execSfBusGrant s = _
  exact (if_neg (by simp [hop])).trans ((if_neg h0).trans (if_pos h1))

/-- Settles O5: each bus goes to one die by two stores of its owner bit, and the bit of the other die reads 0. -/
theorem islandBuses : Obligations.IslandBuses := by
  refine ⟨fun s htake hlease hpart hs => pmbusTakeover_moves htake hlease hpart hs,
    fun d s hpart hown hreq hf => sfBusRequest_asks hpart hown hreq hf,
    fun s hop h hs => ?_, fun s hop h0 h1 hs => ?_⟩
  · obtain ⟨hown, hpeer⟩ := sfown_giveBus (d := .f0) hs
    exact ⟨_, sfBusGrant_f0 hop h, hown, hpeer, rfl, rfl, rfl⟩
  · obtain ⟨hown, hpeer⟩ := sfown_giveBus (d := .f1) hs
    exact ⟨_, sfBusGrant_f1 hop h0 h1, hown, hpeer, rfl⟩

end Sys2Proof.Machine
end

section
/-! The spindle's targets and its ceiling: O39. -/

namespace Sys2Proof.Machine

/-! ## Set-points (R374, R378, R504) -/

theorem roundSetpoint_zero : roundSetpoint 0 = 0 := rfl

/-- A set-point other than 0 is rounded into range, down where it is in range already (R378). -/
theorem roundSetpoint_range {v : Nat} (h : v ≠ 0) :
    3600 ≤ roundSetpoint v ∧ roundSetpoint v ≤ 7200 ∧ roundSetpoint v % 60 = 0 ∧ (3600 ≤ v → roundSetpoint v ≤ v) := by
  unfold roundSetpoint
  rw [if_neg h]
  split
  · omega
  · split <;> omega

theorem roundSetpoint_eq_zero {v : Nat} : roundSetpoint v = 0 ↔ v = 0 := by
  refine ⟨fun h => by_contra fun hv => ?_, fun h => h ▸ roundSetpoint_zero⟩
  have := (roundSetpoint_range hv).1
  omega

theorem roundSetpoint_le (v : Nat) : roundSetpoint v ≤ 7200 := by
  by_cases h : v = 0
  · simp [h, roundSetpoint_zero]
  · exact (roundSetpoint_range h).2.1

theorem exec_spindleSetpoint {src : RSlot} {m : Msg} {s : State} (hcls : m.cls = 3) (hop : m.w 0 / 2 ^ 24 = 0x51) :
    exec (.spindleSetpoint src m) s = .next (settle (if (firstCopy 0 src m s).1 = true then
      applySetpoint m.eseq (m.w 0 % 2 ^ 16) (takeMsg (.curd 0 src) m (firstCopy 0 src m s).2) else (firstCopy 0 src m s).2)) := by
  show execSpindleSetpoint src m s = _
  exact if_pos ⟨hcls, hop⟩

/-- The target that a set-point stores, and its number in the order of set-points. -/
def setpointStored (e v : Nat) (s : State) : State :=
  modSpin (fun p => { p with stored := true, setEseq := some e }) (s.wrC 0 R.SPIN_TARGET_SETPT (roundSetpoint v))

/-- Before step 8 of the start a first set-point is stored, and nothing follows from it. -/
theorem applySetpoint_first {e v : Nat} {s : State} (hnone : s.spin.setEseq = none) (hbegun : s.spin.begun = false) :
    applySetpoint e v s = setpointStored e v s := by
  unfold applySetpoint
  exact (if_neg (by simp [hnone])).trans (if_pos (by simp [modSpin, hbegun]))

theorem setpt_setpointStored {e v : Nat} {s : State} (hs : s.regsWf = true) : (setpointStored e v s).rdC 0 R.SPIN_TARGET_SETPT = roundSetpoint v := by
  have hread : (s.wrC 0 R.SPIN_TARGET_SETPT (roundSetpoint v)).rdC 0 R.SPIN_TARGET_SETPT = roundSetpoint v % 2 ^ 16 := State.rdC_wrC_self hs (by decide)
  exact hread.trans (Nat.mod_eq_of_lt (by have := roundSetpoint_le v; omega))

theorem applySetpoint_behind {e v k : Nat} {s : State} (hk : s.spin.setEseq = some k) (h : aheadMod (2 ^ 32) k e = true) :
    applySetpoint e v s = s := by
  unfold applySetpoint
  exact if_pos (by simpa only [hk] using h)

/-! ## The ceiling (R61, R379, R380) -/

/-- Validity looks at the samples and at the form alone. -/
theorem spdValid_congr {s t : State} (hspd : t.spin.spd = s.spin.spd) (hform : t.rdC 0 R.SPIN_CFG_SPDFORM = s.rdC 0 R.SPIN_CFG_SPDFORM) :
    t.spdValid = s.spdValid := by
  simp only [State.spdValid, hspd, hform]

/-- A store in SPIN_CEIL or SPIN_STAT is none in SPIN_CFG. -/
theorem spdform_wrC {f : Fld} {v : Nat} {s : State} (hf : f.Ok) (h : f.off ≠ R.SPIN_CFG_SPDFORM.off) :
    (s.wrC 0 f v).rdC 0 R.SPIN_CFG_SPDFORM = s.rdC 0 R.SPIN_CFG_SPDFORM := State.rd_wr_other hf (by decide) (.inr h)

/-- The steps of 60 rpm that the input fraction gives (R379). -/
def State.ceilingSteps (s : State) : Nat := if s.spdFraction.2 = 0 then 0 else min 60 (60 * s.spdFraction.1 / s.spdFraction.2)

theorem State.ceilingSteps_le (s : State) : s.ceilingSteps ≤ 60 := by
  unfold State.ceilingSteps
  split <;> omega

/-- What evaluating the samples leaves: the samples, the form, and the computed ceiling, which a valid input sets. -/
theorem spdEvaluate_leaves (s : State) :
    (spdEvaluate s).spin.spd = s.spin.spd ∧ (spdEvaluate s).rdC 0 R.SPIN_CFG_SPDFORM = s.rdC 0 R.SPIN_CFG_SPDFORM ∧
      (s.spdValid = true → (spdEvaluate s).spin.computed = 3600 + 60 * s.ceilingSteps) := by
  have hxin (n : Nat) : (s.wrC 0 R.SPIN_CEIL_XIN n).rdC 0 R.SPIN_CFG_SPDFORM = s.rdC 0 R.SPIN_CFG_SPDFORM := spdform_wrC (by decide) (by decide)
  have hvalid (n : Nat) : (s.wrC 0 R.SPIN_CEIL_XIN n).spdValid = s.spdValid := spdValid_congr rfl (hxin n)
  have hceil (t : State) (n : Nat) : (t.wrC 0 R.SPIN_CEIL_CEIL n).rdC 0 R.SPIN_CFG_SPDFORM = t.rdC 0 R.SPIN_CFG_SPDFORM :=
    spdform_wrC (by decide) (by decide)
  have hopen (t : State) (n : Nat) : (t.wrC 0 R.SPIN_STAT_SPDOPEN n).rdC 0 R.SPIN_CFG_SPDFORM = t.rdC 0 R.SPIN_CFG_SPDFORM :=
    spdform_wrC (by decide) (by decide)
  unfold spdEvaluate
  extract_lets x steps xin sampled ok c computed evaluated
  have hok : ok = s.spdValid := hvalid xin
  have hcomputed : computed.spin.spd = s.spin.spd ∧ computed.rdC 0 R.SPIN_CFG_SPDFORM = s.rdC 0 R.SPIN_CFG_SPDFORM ∧
      (s.spdValid = true → computed.spin.computed = 3600 + 60 * s.ceilingSteps) := by
    unfold computed
    split
    · exact ⟨rfl, hxin xin, fun _ => rfl⟩
    · next h => exact ⟨rfl, hxin xin, fun hv => absurd (hok.trans hv) h⟩
  obtain ⟨hspd, hform, hc⟩ := hcomputed
  split
  · split
    · exact ⟨hspd, (hceil ..).trans hform, hc⟩
    · exact ⟨hspd, (hceil ..).trans ((hopen ..).trans hform), hc⟩
  · split
    · exact ⟨hspd, (hceil ..).trans hform, hc⟩
    · exact ⟨hspd, hform, hc⟩

/-- The computed ceiling of a valid input lies in valid steps of 60 rpm between 3,600 and 7,200 rpm. -/
theorem spdSample_ceiling {level freq : Nat} {s : State} (hboard : s.boot.board.polePairs ≠ 0) (hvalid : (spdSample level freq s).spdValid = true) :
    3600 ≤ (spdSample level freq s).spin.computed ∧ (spdSample level freq s).spin.computed ≤ 7200 ∧
      (spdSample level freq s).spin.computed % 60 = 0 := by
  obtain ⟨t, ht⟩ : ∃ t, spdSample level freq s = spdEvaluate t := ⟨_, if_neg hboard⟩
  obtain ⟨hspd, hform, hcomputed⟩ := spdEvaluate_leaves t
  rw [ht] at hvalid ⊢
  rw [spdValid_congr hspd hform] at hvalid
  have := t.ceilingSteps_le
  rw [hcomputed hvalid]
  omega

/-! ## The commands -/

/-- The bus power since the last report is averaged, and a new sum begins (R389). -/
def powerAveraged (s : State) : State :=
  modSpin (fun x => { x with pwrSum := 0, pwrN := 0 })
    (s.wrC 0 R.SPIN_VMOT_PWR (min 0xFFFF (if s.spin.pwrN = 0 then 0 else s.spin.pwrSum / s.spin.pwrN)))

theorem exec_spindleReportTimer (s : State) : exec .spindleReportTimer s = .next (settle (spinReport (powerAveraged s))) := by
  show execSpindleReportTimer s = _
  rfl

theorem exec_spdlimOpen {s : State} (hvalid : s.spdValid = false) (hopen : s.bitC 0 R.SPIN_STAT_SPDOPEN = false) :
    exec .spdlimOpen s = .next (settle (curdRaise 0 0x2C 0 ((s.wrC 0 R.SPIN_STAT_SPDOPEN 1).wrC 0 R.SPIN_CEIL_CEIL s.boot.board.openCeil))) := by
  show execSpdlimOpen s = _
  exact if_pos (by simp [hvalid, hopen])

theorem exec_spdlimValidPersist {s : State} (hvalid : s.spdValid = true) (hopen : s.bitC 0 R.SPIN_STAT_SPDOPEN = true) :
    exec .spdlimValidPersist s = .next (settle ((s.wrC 0 R.SPIN_STAT_SPDOPEN 0).wrC 0 R.SPIN_CEIL_CEIL s.spin.computed)) := by
  show execSpdlimValidPersist s = _
  exact if_pos ⟨hvalid, hopen⟩

theorem exec_spdlimCeilingRaise {s : State} (hvalid : s.spdValid = true) (hopen : s.bitC 0 R.SPIN_STAT_SPDOPEN = false)
    (hlt : s.rdC 0 R.SPIN_CEIL_CEIL < s.spin.computed) :
    exec .spdlimCeilingRaise s = .next (settle (s.wrC 0 R.SPIN_CEIL_CEIL s.spin.computed)) := by
  show execSpdlimCeilingRaise s = _
  exact if_pos ⟨hvalid, by simp [hopen], hlt⟩

theorem exec_pwmValley (v : Valley) (s : State) : exec (.pwmValley v) s = .next (if s.inReset then s else settle (valley v s)) := by
  show execPwmValley v s = _
  rfl

theorem exec_speedLoopTick (s : State) : exec .speedLoopTick s = .next (settle (if s.spin.begun then speedTick s else s)) := by
  show execSpeedLoopTick s = _
  rfl

theorem exec_spdlimSample (level freq : Nat) (s : State) : exec (.spdlimSample level freq) s = .next (settle (spdSample level freq s)) := by
  show execSpdlimSample level freq s = _
  rfl

/-- Settles O39: the set-point by the branches of its rounding, the ceiling by the number of steps that a valid input gives, at most 60. -/
theorem spindleTargetsAndCeiling : Obligations.SpindleTargetsAndCeiling := by
  refine ⟨fun v s h => by simp [exec_pwmValley, h], fun v s h => by simp [exec_pwmValley, h], fun s h => by simp [exec_speedLoopTick, h],
    fun s => ⟨powerAveraged s, rfl, rfl, rfl, rfl, exec_spindleReportTimer s⟩,
    fun src m x s hcls hop hx => ?_, fun v => roundSetpoint_eq_zero, fun v h => roundSetpoint_range h,
    fun e v s hs hnone hbegun => ?_, fun e v k s hk h => applySetpoint_behind hk h,
    fun level freq s => exec_spdlimSample level freq s, fun level freq s _ hboard hvalid => spdSample_ceiling hboard hvalid,
    fun s hvalid hopen => exec_spdlimOpen hvalid hopen, fun s hvalid hopen => exec_spdlimValidPersist hvalid hopen,
    fun s hvalid hopen hlt => exec_spdlimCeilingRaise hvalid hopen hlt⟩
  · rw [hx]
    exact exec_spindleSetpoint hcls hop
  · rw [applySetpoint_first hnone hbegun]
    exact ⟨setpt_setpointStored hs, rfl⟩

end Sys2Proof.Machine
end

section
/-! The PMBus: O4. -/

namespace Sys2Proof.Machine

/-! ## Transactions (R50, R53) -/

theorem assocGet_assocPut_self {α : Type} (k : Nat) (v d : α) (l : List (Nat × α)) : assocGet k d (assocPut k v l) = v := by
  simp [assocGet, assocPut]

section
variable {r : Rail} {code : Nat} {s : State} (hdriven : s.pmbDriven = true)
include hdriven

theorem pmbWrite_ok {data : Nat} {f : State → State} : pmbWrite r code data .ok f s = f (s.emit (.pmbus (s.pmbAddr r) code data)) :=
  (if_pos hdriven).trans (if_pos rfl)

theorem pmbWrite_bad {data : Nat} {resp : PmbResp} {f : State → State} (h : resp ≠ .ok) :
    pmbWrite r code data resp f s = regulatorFault r (s.emit (.pmbus (s.pmbAddr r) code data)) :=
  (if_pos hdriven).trans (if_neg h)

end

/-- A read has been answered: its rail has no failed read any more. -/
def readAnswered (r : Rail) (code : Nat) (s : State) : State :=
  { s.emit (.pmbus (s.pmbAddr r) code 0) with
    pmb := { s.pmb with fails := assocPut (railNo r) 0 s.pmb.fails, badReads := s.pmb.badReads.filter (· ≠ railNo r) } }

/-- A read has failed: counted, or noted as the third in a row. -/
def readFailed (r : Rail) (code : Nat) (s : State) : State :=
  { s.emit (.pmbus (s.pmbAddr r) code 0) with
    pmb := if 2 ≤ assocGet (railNo r) 0 s.pmb.fails then { s.pmb with badReads := railNo r :: s.pmb.badReads.filter (· ≠ railNo r) }
      else { s.pmb with fails := assocPut (railNo r) (assocGet (railNo r) 0 s.pmb.fails + 1) s.pmb.fails } }

section
variable {r : Rail} {code : Nat} {s : State} (hdriven : s.pmbDriven = true)
include hdriven

theorem pmbRead_ok {f : State → State} : pmbRead r code .ok f s = f (readAnswered r code s) := (if_pos hdriven).trans (if_pos rfl)

theorem pmbRead_bad {resp : PmbResp} {f : State → State} (h : resp ≠ .ok) : pmbRead r code resp f s =
    if 2 ≤ assocGet (railNo r) 0 s.pmb.fails then regulatorFault r (readFailed r code s) else readFailed r code s := by
  refine (if_pos hdriven).trans ((if_neg h).trans ?_)
  by_cases hthird : 2 ≤ assocGet (railNo r) 0 s.pmb.fails
  · rw [if_pos hthird, readFailed, if_pos hthird]
    exact if_pos (Nat.succ_le_succ hthird)
  · rw [if_neg hthird, readFailed, if_neg hthird]
    exact if_neg fun h3 => hthird (Nat.le_of_succ_le_succ h3)

/-! ## OPERATION, CLEAR_FAULTS and VOUT_COMMAND -/

theorem exec_pmbusOperation {on : Bool} : exec (.pmbusOperation r on .ok) s = .next (settle { s with
    out := .pmbus (s.pmbAddr r) 0x01 (bit on) :: s.out
    pmb := { s.pmb with on := if on then (if r ∈ s.pmb.on then s.pmb.on else s.pmb.on ++ [r]) else s.pmb.on.erase r
                        confirmed := s.pmb.confirmed.erase r } }) := by
  show execPmbusOperation r on .ok s = _
  rw [execPmbusOperation, pmbWrite_ok hdriven]
  rfl

theorem exec_pmbusOperation_bad {on : Bool} {resp : PmbResp} (h : resp ≠ .ok) : exec (.pmbusOperation r on resp) s =
    .next (settle (regulatorFault r { s with out := .pmbus (s.pmbAddr r) 0x01 (bit on) :: s.out })) := by
  show execPmbusOperation r on resp s = _
  rw [execPmbusOperation, pmbWrite_bad hdriven h]
  rfl

theorem exec_pmbusClearFaults : exec (.pmbusClearFaults r .ok) s = .next (settle { s with
    out := .pmbus (s.pmbAddr r) 0x03 0 :: s.out, pmb := { s.pmb with faulted := s.pmb.faulted.erase r } }) := by
  show execPmbusClearFaults r .ok s = _
  rw [execPmbusClearFaults, pmbWrite_ok hdriven]
  rfl

end

/-- VCORE is set to `mv`, one more step of this cycle, and not confirmed yet (R51). -/
def vcoreStepped (mv : Nat) (s : State) : State :=
  { s with
    out := .pmbus (s.pmbAddr .vcore) 0x21 (voutData mv) :: s.out, budget := { s.budget with vsteps := s.budget.vsteps + 1 }
    pmb := { s.pmb with setMv := mv, stepConfirmed := false } }

/-- The set point one step up or down. -/
def State.nextMv (s : State) (up : Bool) : Nat := if up then s.pmb.setMv + 10 else s.pmb.setMv - 10

theorem exec_pmbusVoutCommand {up : Bool} {s : State} (hdriven : s.pmbDriven = true) (hstep : s.pmb.stepConfirmed = true)
    (hlo : 650 ≤ s.nextMv up) (hhi : s.nextMv up ≤ 900) (hn : s.budget.vsteps < 5)
    (hwant : if up then s.pmb.setMv < 10 * s.rdS R.BUDGET_STAT_VTGT else 10 * s.rdS R.BUDGET_STAT_VTGT < s.pmb.setMv) :
    exec (.pmbusVoutCommand up .ok) s = .next (settle (vcoreStepped (s.nextMv up) s)) := by
  have hdriven' : (modBudget (fun b => { b with vsteps := b.vsteps + 1 }) s).pmbDriven = true := hdriven
  show execPmbusVoutCommand up .ok s = _
  refine (if_pos ⟨hstep, hlo, hhi, hn, hwant⟩).trans ?_
  rw [pmbWrite_ok hdriven']
  rfl

/-! ## STATUS_WORD, READ_VOUT and READ_IOUT -/

/-- The regulator of the rail has reported a fault that is not cleared yet (R50). -/
def faultReported (r : Rail) (s : State) : State :=
  { s with pmb := { s.pmb with faulted := if r ∈ s.pmb.faulted then s.pmb.faulted else r :: s.pmb.faulted } }

theorem mem_faultReported (r : Rail) (s : State) : r ∈ (faultReported r s).pmb.faulted := by
  show r ∈ if r ∈ s.pmb.faulted then s.pmb.faulted else r :: s.pmb.faulted
  split
  · assumption
  · exact List.mem_cons_self

theorem exec_pmbusStatusWord {r : Rail} {s : State} (hdriven : s.pmbDriven = true) :
    exec (.pmbusStatusWord r .ok true) s = .next (settle (regulatorFault r (faultReported r (readAnswered r 0x79 s)))) := by
  show execPmbusStatusWord r .ok true s = _
  rw [execPmbusStatusWord, pmbRead_ok hdriven]
  rfl

/-- A voltage is noted (R51). -/
def voutNoted (r : Rail) (mv : Nat) (s : State) : State := { s with pmb := { s.pmb with vout := assocPut (railNo r) mv s.pmb.vout } }

/-- A reading in its rail's range confirms a rail that is on (R91 step 4). -/
def railConfirmed (r : Rail) (mv : Nat) (s : State) : State :=
  if r ∈ s.pmb.on ∧ r ∉ s.pmb.confirmed ∧ s.railGood r mv then { s with pmb := { s.pmb with confirmed := r :: s.pmb.confirmed } } else s

/-- A reading of VCORE is shown, and confirms the step or not (R46, R51). -/
def vcoreRead (mv : Nat) (s : State) : State :=
  let s := wrBoth R.BUDGET_PMB_VVCORE mv s
  { s with pmb := { s.pmb with stepConfirmed := s.railGood .vcore mv } }

/-- What a reading of any rail does to the step of VCORE. -/
def stepRead (r : Rail) (mv : Nat) (s : State) : State := if r = .vcore then vcoreRead mv s else s

theorem exec_pmbusReadVout {r : Rail} {mv : Nat} {s : State} (hdriven : s.pmbDriven = true) :
    exec (.pmbusReadVout r .ok mv) s = .next (settle (railsUp (stepRead r mv (railConfirmed r mv (voutNoted r mv (readAnswered r 0x8B s)))))) := by
  show execPmbusReadVout r .ok mv s = _
  rw [execPmbusReadVout, pmbRead_ok hdriven]
  rfl

/-- The set point alone decides whether a voltage is good. -/
theorem railGood_congr {s t : State} (h : t.pmb.setMv = s.pmb.setMv) (r : Rail) (mv : Nat) : t.railGood r mv = s.railGood r mv := by
  cases r <;> simp only [State.railGood, h]

theorem railConfirmed_leaves (r : Rail) (mv : Nat) (s : State) :
    (railConfirmed r mv s).pmb.vout = s.pmb.vout ∧ (railConfirmed r mv s).pmb.setMv = s.pmb.setMv ∧
      (railConfirmed r mv s).pmb.stepConfirmed = s.pmb.stepConfirmed ∧ (railConfirmed r mv s).host = s.host := by
  unfold railConfirmed
  split <;> exact ⟨rfl, rfl, rfl, rfl⟩

theorem mem_railConfirmed {r q : Rail} {mv : Nat} {s : State} :
    q ∈ (railConfirmed r mv s).pmb.confirmed ↔ q ∈ s.pmb.confirmed ∨ (q = r ∧ r ∈ s.pmb.on ∧ s.railGood r mv = true) := by
  unfold railConfirmed
  split
  · next h =>
    obtain ⟨hon, -, hgood⟩ := h
    simp [hon, hgood, or_comm]
  · next h =>
    refine ⟨.inl, fun hq => hq.elim id fun ⟨hqr, hon, hgood⟩ => by_contra fun hne => h ⟨hon, hqr ▸ hne, hgood⟩⟩

theorem pmb_vcoreRead (mv : Nat) (s : State) : (vcoreRead mv s).pmb = { s.pmb with stepConfirmed := s.railGood .vcore mv } := by
  have hpmb : (wrBoth R.BUDGET_PMB_VVCORE mv s).pmb = s.pmb := wrBoth_field State.pmb (fun _ _ _ _ => rfl) ..
  have hgood : (wrBoth R.BUDGET_PMB_VVCORE mv s).railGood .vcore mv = s.railGood .vcore mv := railGood_congr (congrArg Pmb.setMv hpmb) ..
  simp only [vcoreRead, hpmb, hgood]

theorem stepRead_leaves (r : Rail) (mv : Nat) (s : State) :
    (stepRead r mv s).pmb.vout = s.pmb.vout ∧ (stepRead r mv s).pmb.setMv = s.pmb.setMv ∧ (stepRead r mv s).pmb.confirmed = s.pmb.confirmed ∧
      (stepRead r mv s).host = s.host ∧
      (stepRead r mv s).pmb.stepConfirmed = if r = .vcore then s.railGood .vcore mv else s.pmb.stepConfirmed := by
  have hhost : (vcoreRead mv s).host = s.host := wrBoth_field State.host State.host_wrR ..
  unfold stepRead
  split
  · rw [pmb_vcoreRead]
    exact ⟨rfl, rfl, rfl, hhost, rfl⟩
  · exact ⟨rfl, rfl, rfl, rfl, rfl⟩

/-- What a good reading of a voltage leaves. -/
theorem pmbusReadVout_notes {r : Rail} {mv : Nat} {s : State} (hdriven : s.pmbDriven = true) :
    ∃ u, exec (.pmbusReadVout r .ok mv) s = .next (settle (railsUp u)) ∧ assocGet (railNo r) 0 u.pmb.vout = mv ∧
      (∀ q, q ∈ u.pmb.confirmed ↔ q ∈ s.pmb.confirmed ∨ (q = r ∧ r ∈ s.pmb.on ∧ s.railGood r mv = true)) ∧
      u.pmb.stepConfirmed = (if r = .vcore then s.railGood .vcore mv else s.pmb.stepConfirmed) ∧ u.pmb.setMv = s.pmb.setMv ∧
      u.out = .pmbus (s.pmbAddr r) 0x8B 0 :: s.out ∧ u.cmds = s.cmds := by
  generalize hn : voutNoted r mv (readAnswered r 0x8B s) = n
  have hpmb : n.pmb.vout = assocPut (railNo r) mv s.pmb.vout ∧ n.pmb.confirmed = s.pmb.confirmed ∧ n.pmb.on = s.pmb.on ∧
      n.pmb.setMv = s.pmb.setMv ∧ n.pmb.stepConfirmed = s.pmb.stepConfirmed := hn ▸ ⟨rfl, rfl, rfl, rfl, rfl⟩
  have hhost : n.host = (s.cmds, .pmbus (s.pmbAddr r) 0x8B 0 :: s.out) := hn ▸ rfl
  obtain ⟨hvout, hconf, hon, hset, hstep⟩ := hpmb
  obtain ⟨hvout1, hset1, hstep1, hhost1⟩ := railConfirmed_leaves r mv n
  obtain ⟨hvout2, hset2, hconf2, hhost2, hstep2⟩ := stepRead_leaves r mv (railConfirmed r mv n)
  obtain ⟨hcmds, hout⟩ := Prod.mk.inj (hhost2.trans (hhost1.trans hhost))
  refine ⟨stepRead r mv (railConfirmed r mv n), hn ▸ exec_pmbusReadVout hdriven, ?_, fun q => ?_, ?_, ?_, hout, hcmds⟩
  · rw [hvout2, hvout1, hvout, assocGet_assocPut_self]
  · rw [hconf2, mem_railConfirmed, hconf, hon, railGood_congr hset]
  · rw [hstep2, hstep1, hstep, railGood_congr (hset1.trans hset)]
  · rw [hset2, hset1, hset]

theorem exec_pmbusReadIout_bad {r : Rail} {ma : Nat} {resp : PmbResp} {s : State} (hdriven : s.pmbDriven = true) (h : resp ≠ .ok) :
    exec (.pmbusReadIout r resp ma) s = .next (settle (if 2 ≤ assocGet (railNo r) 0 s.pmb.fails then
      regulatorFault r (readFailed r 0x8C s) else readFailed r 0x8C s)) := by
  show execPmbusReadIout r resp ma s = _
  rw [execPmbusReadIout, pmbRead_bad hdriven h]

/-- A current is noted (R50). -/
def ioutNoted (r : Rail) (ma : Nat) (s : State) : State := { s with pmb := { s.pmb with iout := assocPut (railNo r) ma s.pmb.iout } }

theorem exec_pmbusReadIout {r : Rail} {ma : Nat} {s : State} (hdriven : s.pmbDriven = true) (h : r ≠ .vcore) :
    exec (.pmbusReadIout r .ok ma) s = .next (settle (ioutNoted r ma (readAnswered r 0x8C s))) := by
  show execPmbusReadIout r .ok ma s = _
  rw [execPmbusReadIout, pmbRead_ok hdriven]
  exact congrArg (fun t => Host.Outcome.next (settle t)) (if_neg h)

/-- Settles O4: a transaction goes out, and what its answer leaves is given by what a write or a read does with a good and with a bad one. -/
theorem pmbusTransactions : Obligations.PmbusTransactions := by
  refine ⟨fun r s hdriven hoff => ?_, fun r s hdriven => ?_, fun r on resp s hdriven h => exec_pmbusOperation_bad hdriven h,
    fun r s hdriven => exec_pmbusClearFaults hdriven, fun s hdriven hstep hlo hhi hn hwant => ?_,
    fun r s hdriven => ⟨_, exec_pmbusStatusWord hdriven, mem_faultReported .., rfl, rfl⟩, fun s hdriven hstep hlo hhi hn hwant => ?_,
    fun r mv s hdriven => pmbusReadVout_notes hdriven,
    fun r ma resp s hdriven h => ⟨readFailed r 0x8C s, rfl, rfl, rfl, exec_pmbusReadIout_bad hdriven h⟩,
    fun r ma s hdriven h => ⟨_, exec_pmbusReadIout hdriven h, assocGet_assocPut_self .., rfl⟩⟩
  · rw [exec_pmbusOperation hdriven, if_pos rfl, if_neg hoff]
    rfl
  · rw [exec_pmbusOperation hdriven]
    rfl
  · refine ⟨vcoreStepped (s.nextMv true) s, exec_pmbusVoutCommand hdriven hstep ?_ ?_ hn hwant, rfl, rfl, rfl, rfl, rfl⟩
    · exact Nat.add_le_add_right hlo 10
    · exact Nat.add_le_add_right hhi 10
  · refine ⟨vcoreStepped (s.nextMv false) s, exec_pmbusVoutCommand hdriven hstep ?_ ?_ hn hwant, rfl, rfl, rfl, rfl⟩
    · exact Nat.sub_le_sub_right hlo 10
    · exact Nat.sub_le_sub_right hhi 10

end Sys2Proof.Machine
end

section
/-! The safety pins and SHOCK: O3. -/

namespace Sys2Proof.Machine

/-! ## TRST_N, the timebase and ALIVE (R63, R66, R67, R549) -/

/-- TRST_N stands at a level and DEV_PINSTAT shows it (R75). -/
def trstShown (high : Bool) (s : State) : State := wrBoth R.DEV_PINSTAT_TRSTN (bit high) { s with pins := { s.pins with trstN := high } }

theorem inReset_trstShown (high : Bool) (s : State) : (trstShown high s).inReset = s.inReset :=
  wrBoth_field State.inReset (fun _ _ _ _ => rfl) _ _ { s with pins := { s.pins with trstN := high } }

theorem exec_testPortActive (s : State) : exec .testPortActive s = .next (settle (if (! s.pins.trstN) ∧ ! s.inReset then
    (trstShown (! s.pins.trstN) s).rinds.foldl (fun t d => raise d 0x003 [] t) (trstShown (! s.pins.trstN) s) else trstShown (! s.pins.trstN) s)) := by
  show execTestPortActive s = _
  rw [← inReset_trstShown (! s.pins.trstN) s]
  rfl

theorem exec_timebaseLost {d : RSlot} {s : State} (h : s.hasRind d = true) : exec (.timebaseLost d) s =
    .next (settle (raise d 0x002 [] (s.modRind d (fun r => { r with island := { r.island with timebaseLost := true } })))) := by
  show execTimebaseLost d s = _
  exact if_pos h

theorem exec_aliveToggle (s : State) : exec .aliveToggle s = .next (if s.healthy then
    { s with pins := { s.pins with alive := ! s.pins.alive, aliveOn := true } } else stopAlive s) := by
  show execAliveToggle s = _
  rfl

theorem exec_aliveTakeover {s : State} (hh : s.healthy = true) (hpart : s.part.f = 2) (hby : s.pins.aliveBy = .f0) :
    exec .aliveTakeover s = .next { s with pins := { s.pins with alive := ! s.pins.alive, aliveOn := true, aliveBy := .f1 } } := by
  show execAliveTakeover s = _
  exact congrArg Host.Outcome.next (if_pos (by simp [hh, hpart, hby]))

/-! ## The rail monitors (R352, R383) -/

theorem exec_railMonitorLow {g : Nat} {r : Rail} {s : State} (hg : s.hasCurd g = true) (hr : r ≠ .vddq) :
    exec (.railMonitorLow g r) s = .next (settle (if g = 0 then
      gatesOff (emergencyRetract g (s.modCurd g (fun c => { c with railLow := true }))) else
      emergencyRetract g (s.modCurd g (fun c => { c with railLow := true })))) := by
  show execRailMonitorLow g r s = _
  exact if_pos ⟨hg, hr⟩

/-- The die starts over: its formatter, its read channel and its Press afresh. -/
def railBack (g : Nat) (s : State) : State :=
  resetPress g (resetChannel g (resetFormatter g (s.modCurd g (fun c => { c with railLow := false }))))

theorem exec_railRecovered {g : Nat} {s : State} (hg : s.hasCurd g = true) (hlow : (s.curd g).railLow = true) :
    exec (.railRecovered g) s = .next (settle (if g = 0 ∧ (railBack g s).spin.begun = true ∧ curdCode 0 ∉ (railBack g s).budget.shut then
      modSpin (fun p => { p with heldLow := false, due := true }) (railBack g s) else railBack g s)) := by
  show execRailRecovered g s = _
  exact if_pos ⟨hg, hlow⟩

/-! ## What a message leaves -/

section
variable {β : Type} {π : State → β} (hend : ∀ t e f, π (State.modEnd t e f) = π t) (hemit : ∀ t o, π (State.emit t o) = π t)
  (hwr : ∀ t d f v, π (State.wrR t d f v) = π t)
include hend hemit hwr

/-- A message sent reaches link ends, outputs and registers of Rind dies alone. -/
theorem sendMsg_field (e : LinkEnd) (cls eseq : Nat) (ws : List Word) (s : State) : π (sendMsg e cls eseq ws s) = π s := by
  have hwire (ms : List Msg) (t : State) : π (putOnWire e ms t) = π t := foldl_field π fun u m => by
    dsimp only
    split
    · split
      · rw [hwr, hemit, hend]
      · rw [hemit, hend]
    · rw [hemit, hend]
  unfold sendMsg
  extract_lets mute t m
  split
  · rw [launchClass, hwire, hend, hend]
  · rfl

theorem fromCurd_field (g cls eseq : Nat) (ws : List Word) (s : State) : π (fromCurd g cls eseq ws s) = π s := by
  rw [fromCurd, sendMsg_field hend hemit hwr, sendMsg_field hend hemit hwr]

end

theorem fmt_fromCurd (k cls eseq : Nat) (ws : List Word) (s : State) (g : Nat) : (fromCurd k cls eseq ws s).fmt g = s.fmt g :=
  fromCurd_field (π := fun t => t.fmt g) (fun _ _ _ => State.fmt_modEnd ..) (fun _ _ => rfl) (fun _ _ _ _ => rfl) ..

theorem curds_length_fromCurd (k cls eseq : Nat) (ws : List Word) (s : State) : (fromCurd k cls eseq ws s).curds.length = s.curds.length :=
  fromCurd_field (π := fun t => t.curds.length) (fun _ _ _ => State.curds_length_modEnd) (fun _ _ => rfl) (fun _ _ _ _ => rfl) ..

/-! ## SHOCK at a Curd die (R322 to R325) -/

theorem curds_length_modFmt (g : Nat) (f : Fmt → Fmt) (s : State) : (modFmt g f s).curds.length = s.curds.length := length_modAt

/-- The report of SHOCK (R324). -/
def shockReported (g : Nat) (s : State) : State :=
  fromCurd g 2 0 [BitVec.ofNat 32 (3 * 2 ^ 28), BitVec.ofNat 32 ((s.incC g R.FMT_SHOCKCNT_EVENTS).upUs / 1000)] (s.incC g R.FMT_SHOCKCNT_EVENTS)

/-- SHOCK is reported and its hold begins. -/
def shockNoted (g : Nat) (s : State) : State :=
  modFmt g (fun f => { f with shockSince := some (shockReported g s).now }) ((shockReported g s).wrC g R.FMT_STAT_WINHSHK 1)

theorem curds_length_shockNoted (g : Nat) (s : State) : (shockNoted g s).curds.length = s.curds.length :=
  (curds_length_modFmt ..).trans (curds_length_fromCurd ..)

theorem fmt_shockNoted {g : Nat} {s : State} (hg : g < s.curds.length) : (shockNoted g s).fmt g = { s.fmt g with shockSince := some s.now } := by
  have hheld : g < ((shockReported g s).wrC g R.FMT_STAT_WINHSHK 1).curds.length := (curds_length_fromCurd ..).symm ▸ hg
  have hfmt : ((shockReported g s).wrC g R.FMT_STAT_WINHSHK 1).fmt g = s.fmt g := fmt_fromCurd ..
  have hnow : (shockReported g s).now = s.now := (fromCurd_kept (.refl (s.incC g R.FMT_SHOCKCNT_EVENTS))).now
  rw [shockNoted, fmt_modFmt_self hheld, hfmt, hnow]

/-- Whose gate event is open for a sector that waits is seen in the runs alone. -/
theorem gateSec_congr {s t : State} {g : Nat} (h : (t.fmt g).runs = (s.fmt g).runs) (e : GateEv) : t.gateSec g e = s.gateSec g e := by
  simp only [State.gateSec, State.findSec, Fmt.secs, h]

/-- The open gate of a formatter, and since when SHOCK holds it. -/
def Fmt.gateHold (f : Fmt) : Option GateEv × Option Nat := (f.gate, f.shockSince)

theorem gateHold_modSec (k eseq i : Nat) (h : Sec → Sec) (s : State) (g : Nat) : ((modSec k eseq i h s).fmt g).gateHold = (s.fmt g).gateHold :=
  fmt_modFmt_field Fmt.gateHold fun _ => rfl

theorem gateHold_dropPosted (k : Nat) (p : GateEv → Bool) (s : State) (g : Nat) : ((dropPosted k p s).fmt g).gateHold = (s.fmt g).gateHold :=
  fmt_modFmt_field Fmt.gateHold fun _ => rfl

/-- A gate withdrawn by SHOCK is closed, and the hold goes on. -/
theorem withdrawGate_shock {g : Nat} {e : GateEv} {s : State} (hg : g < s.curds.length) (hgate : (s.fmt g).gate = some e) (hwrite : e.write = true) :
    ((withdrawGate g true s).fmt g).gateHold = (none, (s.fmt g).shockSince) := by
  have hclosed : ((modFmt g (fun f => { f with gate := none }) s).fmt g).gateHold = (none, (s.fmt g).shockSince) :=
    congrArg Fmt.gateHold (fmt_modFmt_self hg)
  unfold withdrawGate
  simp only [hgate, hwrite, Bool.not_true, Bool.false_eq_true, if_false, false_and]
  split
  · exact hclosed
  · rw [fmt_showFmt, gateHold_modSec, gateHold_dropPosted, hclosed]

/-- The sector that an open write gate is for. -/
def State.gateWrites (s : State) (g : Nat) : Option (Nat × Nat × Sec) := (s.fmt g).gate.bind (fun e => if e.write then s.gateSec g e else none)

/-- Neighbours to verify join the run of the sector whose gate is withdrawn (R324). -/
def verifyAdded (g eseq : Nat) (x : Sec) (s : State) : State :=
  let s := s.incC g R.FMT_SHOCKCNT_WDRAW
  let extra := if s.bitC g R.FMT_SHOCK_VERIFY then
      (((s.fmt g).runs.find? (fun r => r.eseq = eseq)).map (fun r => s.disturbed g r x)).getD []
    else []
  modFmt g (fun f => { f with runs := f.runs.map (fun r => if r.eseq = eseq then { r with secs := r.secs ++ extra } else r) }) s

theorem shockSeen_eq (g : Nat) (s : State) : shockSeen g s = match (shockNoted g s).gateWrites g with
    | none => showFmt g (shockNoted g s)
    | some (eseq, _, x) => withdrawGate g true (verifyAdded g eseq x (shockNoted g s)) := by
  rfl

theorem gateHold_verifyAdded (k eseq : Nat) (x : Sec) (s : State) (g : Nat) : ((verifyAdded k eseq x s).fmt g).gateHold = (s.fmt g).gateHold :=
  fmt_modFmt_field Fmt.gateHold fun _ => rfl

/-- The hold begins, and a gate open for a sector to be written is withdrawn. -/
theorem shockSeen_holds {g : Nat} {s : State} (hg : g < s.curds.length) :
    ((shockSeen g s).fmt g).shockSince = some s.now ∧ ∀ e, (s.fmt g).gate = some e → e.write = true → (s.gateSec g e).isSome = true →
      ((shockSeen g s).fmt g).gate = none := by
  have hfmt := fmt_shockNoted hg
  have hsec (e : GateEv) : (shockNoted g s).gateSec g e = s.gateSec g e := gateSec_congr (by rw [hfmt]) e
  have hwrites : (shockNoted g s).gateWrites g = s.gateWrites g := by simp only [State.gateWrites, hfmt, hsec]
  rw [shockSeen_eq, hwrites]
  split
  · next hnone =>
    rw [fmt_showFmt, hfmt]
    refine ⟨rfl, fun e hgate hwrite hsome => ?_⟩
    rw [State.gateWrites, hgate, Option.bind_some, if_pos hwrite] at hnone
    simp [hnone] at hsome
  · next eseq i x hopen =>
    obtain ⟨e, hgate, he⟩ := Option.bind_eq_some_iff.mp hopen
    have hwrite : e.write = true := by_contra fun hw => by simp [hw] at he
    obtain ⟨hgate', hsince'⟩ := Prod.mk.inj ((gateHold_verifyAdded g eseq x (shockNoted g s) g).trans (congrArg Fmt.gateHold hfmt))
    have hheld : g < (verifyAdded g eseq x (shockNoted g s)).curds.length := by
      rw [verifyAdded, curds_length_modFmt]
      exact (curds_length_shockNoted g s).symm ▸ hg
    obtain ⟨hclosed, hsince⟩ := Prod.mk.inj (withdrawGate_shock hheld (hgate'.trans hgate) hwrite)
    exact ⟨hsince.trans hsince', fun _ _ _ _ => hclosed⟩

/-! ## The SHOCK commands -/

/-- SHOCK stands at a level. -/
def shockLevel (high : Bool) (s : State) : State := { s with pins := { s.pins with shock := high } }

theorem exec_shockAssert {s : State} (hlow : s.pins.shock = false) (hreset : s.inReset = false) : exec .shockAssert s =
    .next (settle (onGroups (fun g t => refreshServo g (shockSeen g t)) (wrBoth R.DEV_PINSTAT_SHOCK 1 (shockLevel true s)))) := by
  show execShockAssert s = _
  exact (if_neg (by simp [hlow])).trans (if_neg (by simp [hreset]))

theorem exec_shockAssert_inReset {s : State} (hlow : s.pins.shock = false) (hreset : s.inReset = true) :
    exec .shockAssert s = .next (shockLevel true s) := by
  show execShockAssert s = _
  exact (if_neg (by simp [hlow])).trans (if_pos hreset)

theorem exec_shockAssert_again {s : State} (hhigh : s.pins.shock = true) : exec .shockAssert s = .next s := by
  show execShockAssert s = _
  exact if_pos hhigh

/-- SHOCK is inactive: no die counts it as held. -/
def shockReleased (s : State) : State :=
  onGroups (fun g t => modFmt g (fun f => { f with shockSince := none }) t) (wrBoth R.DEV_PINSTAT_SHOCK 0 (shockLevel false s))

/-- The formatters change alone, beside the level and its bit in DEV_PINSTAT. -/
theorem shockReleased_field {β : Type} (π : State → β) (hmod : ∀ t g f, π (modFmt g f t) = π t) (hwr : ∀ t d f v, π (State.wrR t d f v) = π t)
    (s : State) : π (shockReleased s) = π (shockLevel false s) := (foldl_field π fun _ _ => hmod ..).trans (wrBoth_field π hwr ..)

theorem shock_shockReleased {s : State} (hs : s.regsWf = true) : (shockReleased s).rdR .f0 R.DEV_PINSTAT_SHOCK = 0 := by
  have hfmt : (shockReleased s).rdR .f0 R.DEV_PINSTAT_SHOCK = (wrBoth R.DEV_PINSTAT_SHOCK 0 (shockLevel false s)).rdR .f0 R.DEV_PINSTAT_SHOCK :=
    foldl_field (fun t => State.rdR t .f0 R.DEV_PINSTAT_SHOCK) fun _ _ => State.rdR_modCurd ..
  exact hfmt.trans (rdR_wrBoth_self (show (shockLevel false s).regsWf = true from hs) (by simp [State.hasRind]) (by decide))

/-- One die's count is cleared, and no die's is set. -/
theorem shockSince_cleared {g k : Nat} {t : State} (hg : g < t.curds.length) (h : k = g ∨ (t.fmt g).shockSince = none) :
    ((modFmt k (fun f => { f with shockSince := none }) t).fmt g).shockSince = none := by
  by_cases hk : k = g
  · subst hk
    exact congrArg Fmt.shockSince (fmt_modFmt_self hg)
  · exact (congrArg (fun c : CurdDie => c.fmt.shockSince) (State.curd_modCurd_other hk)).trans (h.resolve_left hk)

theorem shockSince_shockReleased {g : Nat} {s : State} (hg : s.hasCurd g = true) (hlt : g < s.curds.length) :
    ((shockReleased s).fmt g).shockSince = none := by
  have hpart : (wrBoth R.DEV_PINSTAT_SHOCK 0 (shockLevel false s)).part = s.part := wrBoth_field State.part (fun _ _ _ _ => rfl) ..
  have hmem : g ∈ (wrBoth R.DEV_PINSTAT_SHOCK 0 (shockLevel false s)).groups := by
    rw [State.groups, hpart]
    simpa [State.hasCurd] using hg
  have hlen : (shockReleased s).curds.length = s.curds.length :=
    shockReleased_field (fun t => (State.curds t).length) (fun _ _ _ => curds_length_modFmt ..) (fun _ _ _ _ => rfl) s
  refine foldl_of_mem (motive := fun t : State => g < t.curds.length → (t.fmt g).shockSince = none) _ (fun t ht => ?_) (fun t k hnone ht => ?_) hmem
    (hlen.symm ▸ hlt)
  · exact shockSince_cleared (curds_length_modFmt g _ t ▸ ht) (.inl rfl)
  · have ht' : g < t.curds.length := curds_length_modFmt k _ t ▸ ht
    exact shockSince_cleared ht' (.inr (hnone ht'))

theorem shockRelease_ends (s : State) : exec .shockRelease s = .next (shockReleased s) := by
  show execShockRelease s = _
  rfl

theorem exec_shockHoldExpire {g : Nat} {s : State} (hg : s.hasCurd g = true) (hlow : s.pins.shock = false) :
    exec (.shockHoldExpire g) s = .next (settle (showFmt g (s.wrC g R.FMT_STAT_WINHSHK 0))) := by
  show execShockHoldExpire g s = _
  exact if_pos (by simp [hg, hlow])

theorem exec_shockStuck {g : Nat} {s : State} (hg : s.hasCurd g = true) (hhigh : s.pins.shock = true) (hsince : (s.fmt g).shockSince.isSome = true) :
    exec (.shockStuck g) s = .next (settle (curdRaise g 0x11 0 s)) := by
  show execShockStuck g s = _
  exact if_pos ⟨hg, hhigh, hsince⟩

/-- Settles O3: each pin by the level it takes and what its die does then; SHOCK by the hold that begins at every Curd die, and the gate it closes. -/
theorem safetyAndShockPins : Obligations.SafetyAndShockPins := by
  refine ⟨fun s hlow hreset => ⟨trstShown true s, rfl, ?_⟩, fun s hlow hreset => ?_, fun s hhigh => ?_,
    fun d s hd => ⟨_, ?_, State.regs_modRind .., State.cmds_modRind .., exec_timebaseLost hd⟩, fun s hh => ?_, fun s hh => ?_,
    fun s hh hpart hby => exec_aliveTakeover hh hpart hby, fun g r s hg hr => ⟨_, rfl, exec_railMonitorLow hg hr⟩,
    fun g s hg hlow => ⟨railBack g s, rfl, exec_railRecovered hg hlow⟩, fun s hlow hreset => exec_shockAssert hlow hreset,
    fun s hlow hreset => exec_shockAssert_inReset hlow hreset, fun s hhigh => exec_shockAssert_again hhigh,
    fun g s hg => shockSeen_holds hg, fun s => ⟨shockReleased s, shockRelease_ends s, ?_, shock_shockReleased, ?_, ?_, fun g hg hlt => ?_⟩,
    fun g s hg hlow => exec_shockHoldExpire hg hlow, fun g s hg hhigh hsince => exec_shockStuck hg hhigh hsince⟩
  · rw [exec_testPortActive, hlow]
    exact congrArg (fun t => Host.Outcome.next (settle t)) (if_pos (by simp [hreset]))
  · rw [exec_testPortActive, hlow]
    exact congrArg (fun t => Host.Outcome.next (settle t)) (if_neg (by simp [hreset]))
  · rw [exec_testPortActive, hhigh]
    exact congrArg (fun t => Host.Outcome.next (settle t)) (if_neg (by simp))
  · rw [State.rind_modRind]
  · rw [exec_aliveToggle, if_pos hh]
  · rw [exec_aliveToggle, if_neg (by simp [hh])]
    rfl
  · exact congrArg Pins.shock (shockReleased_field State.pins (fun _ _ _ => rfl) (fun _ _ _ _ => rfl) s)
  · exact shockReleased_field State.out (fun _ _ _ => rfl) (fun _ _ _ _ => rfl) s
  · exact shockReleased_field State.cmds (fun _ _ _ => rfl) (fun _ _ _ _ => rfl) s
  · exact shockSince_shockReleased hg hlt

end Sys2Proof.Machine
end

section
/-! The pins as DEV_PINSTAT shows them, and the host link heads with the window: O6. -/

namespace Sys2Proof.Machine

/-! ## DEV_PINSTAT (R75) -/

/-- The inputs that one die shows. -/
def dieShown (p : Pins) (t : State) (d : RSlot) : State :=
  ((((t.wrR d R.DEV_PINSTAT_SBADDR (bit p.sbAddr)).wrR d R.DEV_PINSTAT_SHOCK (bit p.shock)).wrR d R.DEV_PINSTAT_TRSTN (bit p.trstN)).wrR d
    R.DEV_PINSTAT_VINOK (bit (decide (4500 ≤ p.vinMv ∧ p.vinMv ≤ 32000)))).wrR d R.DEV_PINSTAT_PERST (p.perst / 2 ^ (4 * d.code) % 16)

theorem showPins_eq (s : State) : showPins s = s.rinds.foldl (dieShown s.pins) s := rfl

theorem regsWf_dieShown {p : Pins} {t : State} {d : RSlot} (h : t.regsWf = true) : (dieShown p t d).regsWf = true :=
  State.regsWf_wrR (State.regsWf_wrR (State.regsWf_wrR (State.regsWf_wrR (State.regsWf_wrR h))))

/-- A register of another die, or at another offset. -/
theorem rdR_dieShown_other {p : Pins} {t : State} {d e : RSlot} {g : Fld} (hg : g.Ok) (h : d ≠ e ∨ g.off ≠ R.DEV_PINSTAT_PERST.off) :
    (dieShown p t d).rdR e g = t.rdR e g := by
  have hkeep (u : State) (f : Fld) (v : Nat) (hf : f.Ok ∧ f.off = R.DEV_PINSTAT_PERST.off) : (u.wrR d f v).rdR e g = u.rdR e g :=
    h.elim (fun hne => State.rdR_wrR_die hf.1 hg hne) fun hoff => State.rd_wr_other hf.1 hg (.inr (hf.2 ▸ hoff.symm))
  rw [dieShown, hkeep _ _ _ (by decide), hkeep _ _ _ (by decide), hkeep _ _ _ (by decide), hkeep _ _ _ (by decide), hkeep _ _ _ (by decide)]

theorem showPins_field {β : Type} (π : State → β) (h : ∀ t d f v, π (State.wrR t d f v) = π t) (s : State) : π (showPins s) = π s :=
  foldl_field π fun t d => by rw [h, h, h, h, h]

theorem regsWf_showPins {s : State} (hs : s.regsWf = true) : (showPins s).regsWf = true :=
  List.foldlRecOn (motive := fun t : State => t.regsWf = true) _ _ hs fun _ ht _ _ => regsWf_dieShown ht

theorem rdR_showPins_other {s : State} {d : RSlot} {g : Fld} (hg : g.Ok) (h : g.off ≠ R.DEV_PINSTAT_PERST.off) :
    (showPins s).rdR d g = s.rdR d g := foldl_field (fun t => State.rdR t d g) fun _ _ => rdR_dieShown_other (p := s.pins) hg (.inr h)

theorem perst_showPins {s : State} {d : RSlot} (hs : s.regsWf = true) (hd : s.hasRind d = true) :
    (showPins s).rdR d R.DEV_PINSTAT_PERST = s.pins.perst / 2 ^ (4 * d.code) % 16 := by
  obtain ⟨t, ht, hread⟩ := rdR_foldl_rinds (F := dieShown s.pins) (g := R.DEV_PINSTAT_PERST) hs hd (fun _ _ => regsWf_dieShown)
    (fun _ _ _ hne => rdR_dieShown_other (by decide) (.inl hne))
  rw [showPins_eq, hread, dieShown, State.rdR_wrR_self (State.regsWf_wrR (State.regsWf_wrR (State.regsWf_wrR (State.regsWf_wrR ht)))) (by decide)]
  exact Nat.mod_mod _ 16

theorem sbAddr_showPins {s : State} {d : RSlot} (hs : s.regsWf = true) (hd : s.hasRind d = true) :
    (showPins s).rdR d R.DEV_PINSTAT_SBADDR = bit s.pins.sbAddr := by
  obtain ⟨t, ht, hread⟩ := rdR_foldl_rinds (F := dieShown s.pins) (g := R.DEV_PINSTAT_SBADDR) hs hd (fun _ _ => regsWf_dieShown)
    (fun _ _ _ hne => rdR_dieShown_other (by decide) (.inl hne))
  have h1 := State.regsWf_wrR (d := d) (f := R.DEV_PINSTAT_SBADDR) (v := bit s.pins.sbAddr) ht
  have h2 := State.regsWf_wrR (d := d) (f := R.DEV_PINSTAT_SHOCK) (v := bit s.pins.shock) h1
  have h3 := State.regsWf_wrR (d := d) (f := R.DEV_PINSTAT_TRSTN) (v := bit s.pins.trstN) h2
  have h4 := State.regsWf_wrR (d := d) (f := R.DEV_PINSTAT_VINOK) (v := bit (decide (4500 ≤ s.pins.vinMv ∧ s.pins.vinMv ≤ 32000))) h3
  rw [showPins_eq, hread, dieShown, State.rdR_wrR_apart h4 (by decide) (by decide) (by decide),
    State.rdR_wrR_apart h3 (by decide) (by decide) (by decide), State.rdR_wrR_apart h2 (by decide) (by decide) (by decide),
    State.rdR_wrR_apart h1 (by decide) (by decide) (by decide), State.rdR_wrR_self ht (by decide)]
  cases s.pins.sbAddr <;> rfl

/-- A field of LINK_HEADSTAT. -/
theorem headstat_ok {h lo hi : Nat} (hh : h < 4) (hbits : lo ≤ hi ∧ hi < 32) : Fld.Ok ⟨0x20000 + 4 * h, hi, lo⟩ := by
  refine ⟨hbits.1, hbits.2, ?_⟩
  dsimp only
  omega

/-! ## PERST# (R73) -/

/-- The levels of PERST# with one changed. -/
def perstLevels (d : RSlot) (h : Nat) (high : Bool) (levels : Nat) : Nat :=
  if high then levels ||| 2 ^ (4 * d.code + h) else levels &&& (255 - 2 ^ (4 * d.code + h))

theorem testBit_perstLevels {d : RSlot} {h levels : Nat} {high : Bool} (hh : h < 4) :
    (perstLevels d h high levels / 2 ^ (4 * d.code) % 16).testBit h = high := by
  have hbit : (perstLevels d h high levels).testBit (4 * d.code + h) = high := by
    have hlt : 4 * d.code + h < 8 := by cases d <;> (simp only [RSlot.code]; omega)
    have hmask : ∀ j < 8, (255 - 2 ^ j).testBit j = false := by decide
    cases high
    · exact (Nat.testBit_and ..).trans (by rw [hmask _ hlt, Bool.and_false])
    · exact (Nat.testBit_or ..).trans (by rw [Nat.testBit_two_pow_self, Bool.or_true])
  rw [show 16 = 2 ^ 4 from rfl, Nat.testBit_mod_two_pow, Nat.testBit_div_two_pow, Nat.add_comm, hbit]
  simp [hh]

/-- The level changes, and DEV_PINSTAT shows it; nothing else does. -/
theorem setPerst_field {β : Type} (π : State → β) (h : ∀ t d f v, π (State.wrR t d f v) = π t) (d : RSlot) (k : Nat) (high : Bool) (s : State) :
    π (setPerst d k high s) = π { s with pins := { s.pins with perst := perstLevels d k high s.pins.perst } } := showPins_field π h _

theorem setPerst_shows {d : RSlot} {h : Nat} {high : Bool} {s : State} (hd : s.hasRind d = true) (hh : h < 4) (hs : s.regsWf = true) :
    ((setPerst d h high s).rdR d R.DEV_PINSTAT_PERST).testBit h = high := by
  have hread := perst_showPins (s := { s with pins := { s.pins with perst := perstLevels d h high s.pins.perst } }) (d := d) hs hd
  exact (congrArg (fun v => Nat.testBit v h) hread).trans (testBit_perstLevels hh)

theorem setPerst_leaves (d : RSlot) (h : Nat) (high : Bool) (s : State) :
    (setPerst d h high s).host = s.host ∧ (setPerst d h high s).f0 = s.f0 ∧ (setPerst d h high s).f1 = s.f1 ∧ (setPerst d h high s).boot = s.boot ∧
      (setPerst d h high s).pins.resetN = s.pins.resetN :=
  ⟨setPerst_field State.host State.host_wrR .., setPerst_field State.f0 (fun _ _ _ _ => rfl) .., setPerst_field State.f1 (fun _ _ _ _ => rfl) ..,
    setPerst_field State.boot (fun _ _ _ _ => rfl) .., setPerst_field (fun t => (State.pins t).resetN) (fun _ _ _ _ => rfl) ..⟩

section
variable {d : RSlot} {h : Nat} {s : State} (hd : s.hasRind d = true) (hh : h < 4)
include hd hh

theorem exec_perstAssert (hreset : s.pins.resetN = true) : exec (.perstAssert d h) s = .next (settle (if s.boot.released then
    hostLinkStep d h (headLost d h 3 (setPerst d h false s)) else setPerst d h false s)) := by
  obtain ⟨-, -, -, hboot, hresetN⟩ := setPerst_leaves d h false s
  show execPerstAssert d h s = _
  refine (if_pos ⟨hd, hh⟩).trans ((if_neg (by simp [hresetN, hreset])).trans ?_)
  rw [hboot]

theorem exec_perstAssert_inReset (hreset : s.pins.resetN = false) : exec (.perstAssert d h) s = .next (setPerst d h false s) := by
  obtain ⟨-, -, -, -, hresetN⟩ := setPerst_leaves d h false s
  show execPerstAssert d h s = _
  exact (if_pos ⟨hd, hh⟩).trans (if_pos (by simp [hresetN, hreset]))

theorem exec_perstDeassert : exec (.perstDeassert d h) s = .next (if s.pins.resetN ∧ s.boot.released ∧ s.rdR d (R.LINK_HEADSTAT_STATE h) = 3 then
    hostLinkStep d h ((setPerst d h true s).wrR d (R.LINK_HEADSTAT_STATE h) ((setPerst d h true s).headStart d h true)) else setPerst d h true s) := by
  obtain ⟨-, -, -, hboot, hresetN⟩ := setPerst_leaves d h true s
  have hoff : 0x20000 + 4 * h ≠ 0x30 := by omega
  have hstate : (setPerst d h true s).rdR d (R.LINK_HEADSTAT_STATE h) = s.rdR d (R.LINK_HEADSTAT_STATE h) :=
    rdR_showPins_other (headstat_ok hh (by decide)) hoff
  show execPerstDeassert d h s = _
  refine (if_pos ⟨hd, hh⟩).trans ?_
  dsimp only
  rw [hboot, hresetN, hstate]

end

/-! ## Heads that train and go down (R101 to R107) -/

/-- LINK_HEADSTAT of a head that has trained. -/
def headShown (d : RSlot) (h : Nat) (p : Partner) (s : State) : State :=
  let mode := s.rdR d (R.LINK_HEADCFG_MODE h)
  ((((s.wrR d (R.LINK_HEADSTAT_RATE h) (min p.rate (s.rdR d (R.LINK_HEADCFG_MAXRATE h)))).wrR d (R.LINK_HEADSTAT_WIDTH h) p.width).wrR d
    (R.LINK_HEADSTAT_PROTO h) (if p.cxl then mode + 1 else 1)).wrR d (R.LINK_HEADSTAT_LDACT h)
      (if mode = 2 then (if p.cxl then (List.range 16).countP p.lds.testBit else 0) else 1)).wrR d (R.LINK_HEADSTAT_STATE h) 2

/-- What the die keeps of the training: the credits, the mode, and the logical devices bound. -/
def trainingKept (h mode : Nat) (p : Partner) (r : RindDie) : RindDie :=
  { r with
    pools := assocPut h p.credits r.pools, modes := modAt h (fun _ => mode) r.modes
    bound := assocPut h (if mode = 2 ∧ p.cxl then p.lds else 0) r.bound }

/-- A head is linked; one that is now switched holds no doorbell line. -/
def headLinked (d : RSlot) (h : Nat) (p : Partner) (s : State) : State :=
  let t := (headShown d h p s).modRind d (trainingKept h (s.rdR d (R.LINK_HEADCFG_MODE h)) p)
  if s.rdR d (R.LINK_HEADCFG_MODE h) = 2 then modHeadPorts d h (fun x => { x with line := x.line.erase d }) t else t

theorem headLinked_leaves (d : RSlot) (h : Nat) (p : Partner) (s : State) :
    (headLinked d h p s).cmds = s.cmds ∧ assocGet h [] ((headLinked d h p s).rind d).pools = p.credits ∧
      ∀ g : Fld, (headLinked d h p s).rdR d g = (headShown d h p s).rdR d g := by
  generalize ht : (headShown d h p s).modRind d (trainingKept h (s.rdR d (R.LINK_HEADCFG_MODE h)) p) = t
  have hcmds : t.cmds = s.cmds := by
    rw [← ht, State.cmds_modRind]
    exact State.cmds_wrR ..
  have hpools : assocGet h [] (t.rind d).pools = p.credits := by
    rw [← ht, State.rind_modRind]
    exact assocGet_assocPut_self ..
  have hregs (g : Fld) : t.rdR d g = (headShown d h p s).rdR d g := by rw [← ht, State.rdR_modRind]
  unfold headLinked
  simp only [ht]
  split
  · exact ⟨hcmds, by cases d <;> exact hpools, hregs⟩
  · exact ⟨hcmds, hpools, hregs⟩

theorem headShown_reads {d : RSlot} {h : Nat} {p : Partner} {s : State} (hh : h < 4) (hs : s.regsWf = true) :
    (headShown d h p s).rdR d (R.LINK_HEADSTAT_STATE h) = 2 ∧
      (headShown d h p s).rdR d (R.LINK_HEADSTAT_RATE h) = min p.rate (s.rdR d (R.LINK_HEADCFG_MAXRATE h)) := by
  have hrate : (R.LINK_HEADSTAT_RATE h).Ok := headstat_ok hh (by decide)
  have hwidth : (R.LINK_HEADSTAT_WIDTH h).Ok := headstat_ok hh (by decide)
  have hproto : (R.LINK_HEADSTAT_PROTO h).Ok := headstat_ok hh (by decide)
  have hldact : (R.LINK_HEADSTAT_LDACT h).Ok := headstat_ok hh (by decide)
  have hstate : (R.LINK_HEADSTAT_STATE h).Ok := headstat_ok hh (by decide)
  have hmax : s.rdR d (R.LINK_HEADCFG_MAXRATE h) < 4 := Fld.get_lt _ _ (show 0 ≤ 1 ∧ 1 < 32 by decide)
  have hbelow (t : State) (f : Fld) (v : Nat) (ht : t.regsWf = true) (hf : f.Ok) (hlt : f.hi < 8) :
      (t.wrR d f v).rdR d (R.LINK_HEADSTAT_RATE h) = t.rdR d (R.LINK_HEADSTAT_RATE h) := State.rdR_wrR_apart ht hf hrate (.inr (.inl hlt))
  have habove (t : State) (v : Nat) (ht : t.regsWf = true) :
      (t.wrR d (R.LINK_HEADSTAT_LDACT h) v).rdR d (R.LINK_HEADSTAT_RATE h) = t.rdR d (R.LINK_HEADSTAT_RATE h) :=
    State.rdR_wrR_apart ht hldact hrate (.inr (.inr (show 10 < 11 by decide)))
  unfold headShown
  extract_lets mode
  generalize hr : min p.rate (s.rdR d (R.LINK_HEADCFG_MAXRATE h)) = rate
  have h1 := State.regsWf_wrR (d := d) (f := R.LINK_HEADSTAT_RATE h) (v := rate) hs
  have h2 := State.regsWf_wrR (d := d) (f := R.LINK_HEADSTAT_WIDTH h) (v := p.width) h1
  have h3 := State.regsWf_wrR (d := d) (f := R.LINK_HEADSTAT_PROTO h) (v := if p.cxl then mode + 1 else 1) h2
  have h4 := State.regsWf_wrR (d := d) (f := R.LINK_HEADSTAT_LDACT h)
    (v := if mode = 2 then (if p.cxl then (List.range 16).countP p.lds.testBit else 0) else 1) h3
  refine ⟨State.rdR_wrR_self h4 hstate, ?_⟩
  rw [hbelow _ _ _ h4 hstate (show 2 < 8 by decide), habove _ _ h3, hbelow _ _ _ h2 hproto (show 4 < 8 by decide),
    hbelow _ _ _ h1 hwidth (show 7 < 8 by decide), State.rdR_wrR_self hs hrate]
  exact Nat.mod_eq_of_lt (show rate < 8 by omega)

theorem exec_headTrained {d : RSlot} {h : Nat} {p : Partner} {s : State} (hd : s.hasRind d = true) (hh : h < 4) (hrel : s.boot.released = true)
    (hmode : s.rdR d (R.LINK_HEADCFG_MODE h) ≠ 0) (hheld : s.rdR d (R.LINK_HEADSTAT_STATE h) ≠ 3) (hdown : s.rdR d (R.LINK_HEADSTAT_STATE h) ≠ 2)
    (hperst : (s.rdR d R.DEV_PINSTAT_PERST).testBit h = true) (hclock : s.pins.refclk.testBit (4 * d.code + h) = true) (hwidth : 4 ≤ p.width)
    (hcxl : p.cxl = true) : exec (.headTrained d h p) s = .next (settle (hostLinkStep d h (headUp d h (headLinked d h p s)))) := by
  show execHeadTrained d h p s = _
  refine (if_pos ⟨hd, hh, hrel, hmode, hheld, hdown, hperst, hclock⟩).trans ?_
  show Host.Outcome.next (settle (hostLinkStep d h (headUp d h (if p.cxl then
    (if p.width < 4 then raise d 0x030 [h] (headLinked d h p s) else headLinked d h p s) else
    raise d 0x038 [h] (if p.width < 4 then raise d 0x030 [h] (headLinked d h p s) else headLinked d h p s))))) = _
  rw [if_pos hcxl, if_neg (Nat.not_lt.mpr hwidth)]

theorem exec_headDown {d : RSlot} {h : Nat} {s : State} (hd : s.hasRind d = true) (hh : h < 4) (hup : s.rdR d (R.LINK_HEADSTAT_STATE h) = 2) :
    exec (.headDown d h) s = .next (settle (hostLinkStep d h (headLost d h 1 s))) := by
  show execHeadDown d h s = _
  exact if_pos ⟨hd, hh, hup⟩

/-! ## The window (R114, R115) -/

section
variable {d : RSlot} {r : Requester} {off : Nat} {s : State} (hd : s.hasRind d = true) (hf : s.fenced d = false)
include hd hf

theorem exec_cxlMemLoad_taken {len a w : Nat} (h : s.windowAddr d r off len = some (a, w)) : exec (.cxlMemLoad d r off len) s =
    .next (settle ((caveRead d .host a len false s).2.2.emit (.load (caveRead d .host a len false s).1 (caveRead d .host a len false s).2.1))) := by
  show execCxlMemLoad d r off len s = _
  refine (if_pos ⟨hd, by simp [hf]⟩).trans ?_
  rw [h]

theorem exec_cxlMemLoad_refused {len : Nat} (h : s.windowAddr d r off len = none) : exec (.cxlMemLoad d r off len) s =
    .next (settle ((windowRefusal d off s).emit (.load (List.replicate len 0xFF) true))) := by
  show execCxlMemLoad d r off len s = _
  refine (if_pos ⟨hd, by simp [hf]⟩).trans ?_
  rw [h]

theorem exec_cxlMemStore_taken {a : Nat} {data : List Byte} (h : s.windowAddr d r off data.length = some (a, 2)) : exec (.cxlMemStore d r off data) s =
    .next (settle ((noteStore d a data.length (inStep (fun e t => caveWrite e .host a data false t) (newStep 0x02 0 0 s))).emit .ack)) := by
  show execCxlMemStore d r off data s = _
  refine (if_pos ⟨hd, by simp [hf]⟩).trans ?_
  rw [h]
  rfl

theorem exec_cxlMemStore_refused {data : List Byte} (h : ∀ a, s.windowAddr d r off data.length ≠ some (a, 2)) : exec (.cxlMemStore d r off data) s =
    .next (settle ((windowRefusal d off s).emit .ack)) := by
  show execCxlMemStore d r off data s = _
  refine (if_pos ⟨hd, by simp [hf]⟩).trans ?_
  split
  · next a heq => exact absurd heq (h a)
  · rfl

end

/-- Settles O6: a head by its PERST# bit and the trained link's row, an access by whether the window takes it. -/
theorem hostHeadsAndWindow : Obligations.HostHeadsAndWindow := by
  refine ⟨fun d h s hreset hd hh hs => ?_, fun d h s hreset hd hh hrel hs => ?_, fun d h s hreset hd hh hrel hstate => ⟨_, rfl, ?_⟩,
    fun d h s hreset hd hh => ⟨exec_perstAssert_inReset hd hh hreset, ?_⟩,
    fun d h p s hd hh hrel hmode hheld hdown hperst hclock hwidth hcxl hs => ?_, fun d h s hd hh hup => exec_headDown hd hh hup,
    fun d r off len a w s hd hf h => ⟨_, exec_cxlMemLoad_taken hd hf h, rfl⟩,
    fun d r off len s hd hf h => ⟨_, exec_cxlMemLoad_refused hd hf h, rfl⟩,
    fun d r off a data s hd hf h => exec_cxlMemStore_taken hd hf h, fun d r off data s hd hf h => exec_cxlMemStore_refused hd hf h,
    fun d h s => ?_⟩
  · obtain ⟨hhost, hf0, hf1, -, -⟩ := setPerst_leaves d h false s
    obtain ⟨hcmds, hout⟩ := State.host_eq.mp hhost
    exact ⟨_, rfl, setPerst_shows hd hh hs, hcmds, hout, hf0, hf1, exec_perstAssert hd hh hreset⟩
  · obtain ⟨hhost, hf0, -, -, -⟩ := setPerst_leaves d h true s
    obtain ⟨hcmds, hout⟩ := State.host_eq.mp hhost
    exact ⟨setPerst d h true s, by rw [exec_perstDeassert hd hh, if_neg (by simp [hrel])], setPerst_shows hd hh hs, hcmds, hout, hf0⟩
  · rw [exec_perstDeassert hd hh, if_pos ⟨hreset, hrel, hstate⟩]
  · rw [exec_perstDeassert hd hh, if_neg (by simp [hreset])]
  · obtain ⟨hcmds, hpools, hregs⟩ := headLinked_leaves d h p s
    obtain ⟨hstate, hrate⟩ := headShown_reads (d := d) (p := p) hh hs
    exact ⟨headLinked d h p s, exec_headTrained hd hh hrel hmode hheld hdown hperst hclock hwidth hcxl, (hregs _).trans hstate, (hregs _).trans hrate,
      hpools, hcmds⟩
  · show execGlobalPersistentFlush d h s = _
    rfl

end Sys2Proof.Machine
end

section
/-! Power-on reset, RESET_N, and the levels of the output pins: O1. -/

namespace Sys2Proof.Machine

/-! ## Registers that no event reaches (R542 to R545, R561)

Events write the fault and log blocks alone, from 0xD0000 on. -/

/-- A field of the fault and log blocks. -/
abbrev Fld.OfEvents (f : Fld) : Prop := f.Ok ∧ 0xD0000 ≤ f.off

/-- A counter of the log, of one of the severities. -/
theorem logCounter_ofEvents {k n : Nat} (hk : 0xE0000 ≤ k ∧ k < 0xF0000) (hn : n ≤ 7) : Fld.OfEvents ⟨k + 16 * (n - 1), 31, 0⟩ := by
  refine ⟨⟨Nat.zero_le _, Nat.le_refl 32, ?_⟩, ?_⟩ <;> (dsimp only; omega)

/-- A field of a source's FAULT_SRC. -/
theorem faultSrc_ofEvents {src lo hi : Nat} (h : lo ≤ hi ∧ hi < 32) (hsrc : src < 0x280) : Fld.OfEvents ⟨0xD1000 + 4 * src, hi, lo⟩ :=
  ⟨⟨h.1, h.2, by dsimp only; omega⟩, by dsimp only; omega⟩

theorem rdR_fatalAction (d : RSlot) (src : Nat) (s : State) (e : RSlot) (g : Fld) : (fatalAction d src s).rdR e g = s.rdR e g := by
  unfold fatalAction
  split
  · rfl
  · split
    · rfl
    · split <;> rfl

section
variable {e : RSlot} {g : Fld} (hg : g.Ok ∧ g.off < 0xD0000)
include hg

theorem rdR_wrR_events {f : Fld} (hf : f.OfEvents) (d : RSlot) (v : Nat) (s : State) : (s.wrR d f v).rdR e g = s.rdR e g :=
  State.rd_wr_other hf.1 hg.1 (.inr (by have := hf.2; omega))

theorem rdR_stageRec (d : RSlot) {r : LogRec} (hr : r.sev ≤ 7) (s : State) : (stageRec d r s).rdR e g = s.rdR e g := by
  have hkeep (f : Fld) (hf : f.OfEvents) (v : Nat) (t : State) : (t.wrR d f v).rdR e g = t.rdR e g := rdR_wrR_events hg hf d v t
  have hbump (f : Fld) (hf : f.OfEvents) (n : Nat) (t : State) : (t.bump d.code f n).rdR e g = t.rdR e g := hkeep f hf _ t
  have hraised : (R.LOG_CNT_RAISED (r.sev - 1)).OfEvents := logCounter_ofEvents (by decide) hr
  have hqueued {n : Nat} (hn : n ≤ 7) : (R.LOG_CNT_QUEUED (n - 1)).OfEvents := logCounter_ofEvents (by decide) hn
  have hdropped {n : Nat} (hn : n ≤ 7) : (R.LOG_CNT_DROPPED (n - 1)).OfEvents := logCounter_ofEvents (by decide) hn
  unfold stageRec
  extract_lets counted q take
  have hcounted : counted.rdR e g = s.rdR e g := hbump _ hraised 1 s
  have htake (t : State) (l : List LogRec) : (take t l).rdR e g = t.rdR e g := by
    dsimp only [take]
    rw [hkeep _ (by decide), hbump _ (hqueued hr), hkeep _ (by decide), State.rdR_modRind]
  split
  · rw [htake, hcounted]
  · split
    · next v hv =>
      have hsev : v.sev ≤ 7 := Nat.le_trans (by simpa using List.find?_some hv) hr
      rw [htake, hkeep _ (hqueued hsev), hbump _ (hdropped hsev), hcounted]
    · rw [hbump _ (hdropped hr), hcounted]

theorem rdR_enterFault (die src sev : Nat) (s : State) : (enterFault die src sev s).rdR e g = s.rdR e g := by
  have hkeep (t : State) (d : RSlot) (f : Fld) (v : Nat) (hf : f.OfEvents) : (t.wrR d f v).rdR e g = t.rdR e g := rdR_wrR_events hg hf d v t
  refine foldl_field (fun t => State.rdR t e g) fun t d => ?_
  dsimp only
  rw [State.rdR_modRind, hkeep _ _ _ _ (by decide), hkeep _ _ _ _ (by decide), hkeep _ _ _ _ (by decide), hkeep _ _ _ _ (by decide)]
  split
  · exact hkeep _ _ _ _ (by decide)
  · rfl

/-- An event leaves the registers of the other blocks. -/
theorem rdR_raise (d : RSlot) {src : Nat} (hsrc : src < 0x280) (detail : List Nat) (s : State) : (raise d src detail s).rdR e g = s.rdR e g := by
  have hkeep (f : Fld) (hf : f.OfEvents) (v : Nat) (t : State) : (t.wrR d f v).rdR e g = t.rdR e g := rdR_wrR_events hg hf d v t
  have hinc (f : Fld) (hf : f.OfEvents) (n : Nat) (t : State) : (t.incR d f n).rdR e g = t.rdR e g := hkeep f hf _ t
  have hevents : (R.FAULT_SRC_EVENTS src).OfEvents := faultSrc_ofEvents (by decide) hsrc
  have heff : (R.FAULT_SRC_EFF src).OfEvents := faultSrc_ofEvents (by decide) hsrc
  unfold raise raiseFull
  split
  · rfl
  · extract_lets conf counted counted1 win full eff sev noted shown staged entered
    have hconf : conf < 8 := Fld.get_lt _ _ (show 29 ≤ 31 ∧ 31 < 32 by decide)
    have hread : counted1.rdR d (R.FAULT_SRC_EFF src) < 8 := Fld.get_lt _ _ (show 13 ≤ 15 ∧ 15 < 32 by decide)
    have heff8 : eff < 8 := by
      dsimp only [eff]
      split
      · exact Nat.lt_of_le_of_lt (Nat.min_le_left ..) hconf
      · exact hread
    have hsev : sev ≤ 7 := by
      dsimp only [sev]
      split <;> omega
    have hnoted : noted.rdR e g = s.rdR e g := (State.rdR_modRind ..).trans (hinc _ hevents 1 s)
    have hshown : shown.rdR e g = s.rdR e g := by
      dsimp only [shown]
      split
      · exact (hkeep _ heff _ _).trans hnoted
      · exact hnoted
    have hstaged : staged.rdR e g = s.rdR e g := by
      dsimp only [staged]
      split
      · exact hshown
      · exact (rdR_stageRec hg d hsev shown).trans hshown
    have hentered : entered.rdR e g = s.rdR e g := by
      dsimp only [entered]
      split
      · exact (rdR_enterFault hg ..).trans hstaged
      · exact hstaged
    split
    · exact (rdR_fatalAction ..).trans hentered
    · exact hentered

end

/-! ## The islands wake (R91, R100) -/

/-- The fuses as a die senses them, and its start sequence at step 1. -/
def dieWoken (t : State) (d : RSlot) : State :=
  ((((t.wrR d R.BOOT_FUSE_SVNFUSE t.fuses.svn).wrR d R.BOOT_FUSE_KEYO (bit t.fuses.ownerKey)).wrR d R.BOOT_FUSE_KEYV (bit t.fuses.vendorKey)).wrR d
    R.BOOT_FUSE_FUSEOK (bit t.fuses.parityOk)).wrR d R.BOOT_STAT_PHASE 1

/-- Every island has sensed its inputs and stands at step 1. -/
def islandsWoken (s : State) : State :=
  ((s.rinds.foldl dieWoken (showPins { s with boot := { s.boot with startAt := s.now } })).wrR .f0 R.DEV_DIEPRES_F0PRES 1)

/-- TRST_N stands high: source 0x003. -/
def trstNoted (s : State) : State := if s.pins.trstN then s.rinds.foldl (fun t d => raise d 0x003 [] t) s else s

/-- The low time of RESET_N was short: source 0x004 (R71). -/
def shortNoted (s : State) : State :=
  if s.pins.shortReset then s.rinds.foldl (fun t d => raise d 0x004 [] t) { s with pins := { s.pins with shortReset := false } } else s

theorem startIslands_eq (s : State) : startIslands s = shortNoted (trstNoted (islandsWoken s)) := rfl

section
variable {β : Type} {π : State → β} (hπ : EventFree π)
include hπ

theorem EventFree.dieWoken (s : State) (d : RSlot) : π (dieWoken s d) = π s := by
  rw [Machine.dieWoken, hπ.wrR, hπ.wrR, hπ.wrR, hπ.wrR, hπ.wrR]

theorem EventFree.startIslands (hshort : ∀ s : State, π { s with pins := { s.pins with shortReset := false } } = π s) (s : State) :
    π (startIslands s) = π { s with boot := { s.boot with startAt := s.now } } := by
  have hwoken : π (islandsWoken s) = π { s with boot := { s.boot with startAt := s.now } } := by
    rw [islandsWoken, hπ.wrR, foldl_field π hπ.dieWoken, showPins_field π hπ.wrR]
  have htrst (t : State) : π (trstNoted t) = π t := by
    unfold trstNoted
    split
    · exact foldl_field π fun _ _ => hπ.raise ..
    · rfl
  have hnoted (t : State) : π (shortNoted t) = π t := by
    unfold shortNoted
    split
    · exact (foldl_field π fun _ _ => hπ.raise ..).trans (hshort t)
    · rfl
  rw [startIslands_eq, hnoted, htrst, hwoken]

end

theorem rdR_startIslands {d : RSlot} {g : Fld} (hg : g.Ok ∧ g.off < 0xD0000) (s : State) : (startIslands s).rdR d g = (islandsWoken s).rdR d g := by
  have htrst (t : State) : (trstNoted t).rdR d g = t.rdR d g := by
    unfold trstNoted
    split
    · exact foldl_field (fun t => State.rdR t d g) fun _ _ => rdR_raise hg _ (by decide) ..
    · rfl
  have hshort (t : State) : (shortNoted t).rdR d g = t.rdR d g := by
    unfold shortNoted
    split
    · exact foldl_field (fun t => State.rdR t d g) fun _ _ => rdR_raise hg _ (by decide) ..
    · rfl
  rw [startIslands_eq, hshort, htrst]

theorem regsWf_dieWoken {t : State} {d : RSlot} (h : t.regsWf = true) : (dieWoken t d).regsWf = true :=
  State.regsWf_wrR (State.regsWf_wrR (State.regsWf_wrR (State.regsWf_wrR (State.regsWf_wrR h))))

/-- A register outside the boot block, or of another die. -/
theorem rdR_dieWoken_other {t : State} {d e : RSlot} {g : Fld} (hg : g.Ok) (h : d ≠ e ∨ g.off < 0x10000) : (dieWoken t d).rdR e g = t.rdR e g := by
  have hkeep (u : State) (f : Fld) (v : Nat) (hf : f.Ok ∧ 0x10000 ≤ f.off) : (u.wrR d f v).rdR e g = u.rdR e g :=
    h.elim (fun hne => State.rdR_wrR_die hf.1 hg hne) fun hoff => State.rd_wr_other hf.1 hg (.inr (by have := hf.2; omega))
  rw [dieWoken, hkeep _ _ _ (by decide), hkeep _ _ _ (by decide), hkeep _ _ _ (by decide), hkeep _ _ _ (by decide), hkeep _ _ _ (by decide)]

theorem phase_startIslands {s : State} (hs : s.regsWf = true) : (startIslands s).rdR .f0 R.BOOT_STAT_PHASE = 1 := by
  have hshown : (showPins { s with boot := { s.boot with startAt := s.now } }).regsWf = true := regsWf_showPins hs
  obtain ⟨t, ht, hread⟩ := rdR_foldl_rinds (s := s) (F := dieWoken) (g := R.BOOT_STAT_PHASE) (d := .f0) hshown (by simp [State.hasRind])
    (fun _ _ => regsWf_dieWoken) (fun _ _ _ hne => rdR_dieWoken_other (by decide) (.inl hne))
  rw [rdR_startIslands (by decide), islandsWoken]
  refine (State.rd_wr_other (by decide) (by decide) (.inr (by decide))).trans (hread.trans ?_)
  exact State.rdR_wrR_self (State.regsWf_wrR (State.regsWf_wrR (State.regsWf_wrR (State.regsWf_wrR ht)))) (by decide)

theorem sbAddr_startIslands {s : State} (hs : s.regsWf = true) : (startIslands s).rdR .f0 R.DEV_PINSTAT_SBADDR = bit s.pins.sbAddr := by
  have hsensed : (s.rinds.foldl dieWoken (showPins { s with boot := { s.boot with startAt := s.now } })).rdR .f0 R.DEV_PINSTAT_SBADDR =
      (showPins { s with boot := { s.boot with startAt := s.now } }).rdR .f0 R.DEV_PINSTAT_SBADDR :=
    foldl_field (fun t => State.rdR t .f0 R.DEV_PINSTAT_SBADDR) fun _ _ => rdR_dieWoken_other (by decide) (.inr (by decide))
  rw [rdR_startIslands (by decide), islandsWoken]
  refine (State.rd_wr_other (by decide) (by decide) (.inr (by decide))).trans (hsensed.trans ?_)
  exact sbAddr_showPins (s := { s with boot := { s.boot with startAt := s.now } }) hs (by simp [State.hasRind])

/-- The supply, the strap, the levels of power-on reset and RESET_N, the start's time, and what was outstanding. -/
def State.startFacts (s : State) : (Nat × Bool × Bool × Bool) × Nat × List Cmd × List Version :=
  ((s.pins.vinMv, s.pins.sbAddr, s.pins.por, s.pins.resetN), s.boot.startAt, s.cmds, s.versions)

theorem eventFree_startFacts : EventFree State.startFacts :=
  ⟨fun _ _ _ _ => (rfl), fun _ d _ => by cases d <;> rfl, fun _ => (rfl), fun _ _ => (rfl)⟩

theorem startFacts_startIslands (s : State) : (startIslands s).startFacts = ((s.pins.vinMv, s.pins.sbAddr, s.pins.por, s.pins.resetN), s.now, s.cmds, s.versions) :=
  eventFree_startFacts.startIslands (fun _ => rfl) s

/-! ## Power-on reset (R47, R72, R91) -/

/-- The state in which power-on reset is released: nothing is left but what no reset touches. -/
def porReleased (mv : Nat) (strap : Bool) (s : State) : State :=
  let s := powerLoss s
  { s with pins := { s.pins with por := true, vinMv := mv, sbAddr := strap, shortReset := false } }

theorem exec_powerOnResetRelease {mv : Nat} {strap : Bool} {s : State} (hpor : s.pins.por = false) (hreset : s.pins.resetN = true) :
    exec (.powerOnResetRelease mv strap) s = .next (settle (startIslands (porReleased mv strap s))) := by
  show execPowerOnResetRelease mv strap s = _
  refine (if_neg (by simp [hpor])).trans ?_
  exact congrArg (fun t => Host.Outcome.next (settle t)) (if_pos hreset)

theorem powerOnResetRelease_starts {mv : Nat} {strap : Bool} {s : State} (hpor : s.pins.por = false) (hreset : s.pins.resetN = true) :
    ∃ u, exec (.powerOnResetRelease mv strap) s = .next (settle u) ∧ u.pins.por = true ∧ u.pins.vinMv = mv ∧ u.pins.sbAddr = strap ∧
      u.boot.startAt = s.now ∧ u.cmds = [] ∧ u.versions = [] ∧ u.rdR .f0 R.BOOT_STAT_PHASE = 1 ∧ u.rdR .f0 R.DEV_PINSTAT_SBADDR = bit strap := by
  have hfacts := startFacts_startIslands (porReleased mv strap s)
  obtain ⟨hpins, hstart, hcmds, hversions⟩ := by simpa only [State.startFacts, Prod.mk.injEq] using hfacts
  exact ⟨_, exec_powerOnResetRelease hpor hreset, hpins.2.2.1, hpins.1, hpins.2.1, hstart, hcmds, hversions, phase_startIslands rfl, sbAddr_startIslands rfl⟩

/-! ## A flash operation that a reset cuts (R71) -/

/-- A record that is cut takes its slot of the log, and nothing else changes. -/
theorem cutRecord_log (s : State) : ∃ l, cutRecord s = { s with flash := { s.flash with log := l } } := by
  fun_cases cutRecord s
  · exact ⟨_, rfl⟩
  · exact ⟨_, rfl⟩
  · exact ⟨_, rfl⟩

theorem cutRecord_none {s : State} (h : nextRecord s.flashOwner s = none) : cutRecord s = s := by
  rw [cutRecord, h]

theorem cutFlash_idle {s : State} (hop : s.flash.op = none) : cutFlash s = s ∨ cutFlash s = cutRecord s := by
  rw [cutFlash, hop]
  dsimp only
  split
  · exact .inr rfl
  · exact .inl rfl

theorem cutFlash_copies (s : State) (h : s.flash.op = none) : (cutFlash s).flash.set0 = s.flash.set0 ∧ (cutFlash s).flash.set1 = s.flash.set1 ∧
    (cutFlash s).flash.hdr0 = s.flash.hdr0 ∧ (cutFlash s).flash.hdr1 = s.flash.hdr1 := by
  obtain ⟨l, hl⟩ := cutRecord_log s
  rcases cutFlash_idle h with hc | hc
  · rw [hc]; exact ⟨rfl, rfl, rfl, rfl⟩
  · rw [hc, hl]; exact ⟨rfl, rfl, rfl, rfl⟩

/-- A cut changes the header copy, the settings copy or the log slot that was being written. -/
theorem cutFlash_kept_parts (s : State) : (cutFlash s).mediaTables = s.mediaTables ∧ (cutFlash s).flash.slotA = s.flash.slotA ∧
    (cutFlash s).flash.slotB = s.flash.slotB ∧ (cutFlash s).f0.island.queue = s.f0.island.queue ∧ (cutFlash s).boot.startAt = s.boot.startAt ∧
    (cutFlash s).pins.por = s.pins.por := by
  obtain ⟨l, hl⟩ := cutRecord_log s
  fun_cases cutFlash s with
  | case1 k => by_cases hk : k = 0 <;> simp [Flash.hdrCopy, hk]
  | case2 k => by_cases hk : k = 0 <;> simp [Flash.setCopy, hk]
  | case3 => simp
  | case4 => simp [hl]
  | case5 => simp

/-- The log is left where another operation was open, or no record was being programmed. -/
theorem cutFlash_log (s : State) (h : s.flash.op.isSome = true ∨ nextRecord s.flashOwner s = none) : (cutFlash s).flash.log = s.flash.log := by
  fun_cases cutFlash s with
  | case1 k => by_cases hk : k = 0 <;> simp [Flash.hdrCopy, hk]
  | case2 k => by_cases hk : k = 0 <;> simp [Flash.setCopy, hk]
  | case3 => rfl
  | case4 hop =>
    rw [cutRecord_none (h.resolve_left (by simp [hop]))]
  | case5 => rfl

/-! ## Entry to power-on reset, and RESET_N (R71, R72) -/

theorem powerOnResetEntry_loses (mv : Nat) (s : State) :
    ∃ t, exec (.powerOnResetEntry mv) s = .next t ∧ t.pins.por = false ∧ t.pins.vinMv = mv ∧ t.pins.aliveOn = false ∧ t.pins.regEn = false ∧
      t.pins.sfCsN = true ∧ t.regs = [] ∧ t.cmds = [] ∧ t.comps = [] ∧ t.versions = [] ∧ t.f0 = {} ∧ t.f1 = {} ∧ t.fuses = s.fuses ∧
      t.mediaTables = s.mediaTables ∧ t.flash.slotA = s.flash.slotA ∧ t.flash.slotB = s.flash.slotB ∧
      (s.flash.op.isSome = true ∨ nextRecord s.flashOwner s = none → t.flash.log = s.flash.log) := by
  obtain ⟨hmedia, hslotA, hslotB, -⟩ := cutFlash_kept_parts s
  exact ⟨_, rfl, rfl, rfl, rfl, rfl, rfl, rfl, rfl, rfl, rfl, rfl, rfl, fuses_cutFlash, hmedia, hslotA, hslotB, cutFlash_log s⟩

theorem resetNFall_loses {s : State} (hpor : s.pins.por = true) :
    ∃ t, exec .resetNFall s = .next t ∧ t.pins.resetN = false ∧ t.pins.por = true ∧ t.pins.alive = false ∧ t.pins.aliveOn = false ∧ t.pins.sfCsN = true ∧
      t.pins.regEn = false ∧ t.cmds = [] ∧ t.comps = [] ∧ t.versions = [] ∧ t.f0.island.queue = s.f0.island.queue ∧ t.fuses = s.fuses ∧
      t.mediaTables = s.mediaTables ∧ t.boot.startAt = s.boot.startAt ∧
      (s.flash.op.isSome = true ∨ nextRecord s.flashOwner s = none → t.flash.log = s.flash.log) ∧
      (s.flash.op = none → t.flash.set0 = s.flash.set0 ∧ t.flash.set1 = s.flash.set1 ∧ t.flash.hdr0 = s.flash.hdr0 ∧ t.flash.hdr1 = s.flash.hdr1) := by
  obtain ⟨hmedia, -, -, hqueue, hstart, hporKept⟩ := cutFlash_kept_parts s
  have hexec : exec .resetNFall s = .next (let t := showPins (fullReset (cutFlash s)); { t with pins := { t.pins with resetN := false } }) := if_pos hpor
  have hshow {β : Type} (π : State → β) (hπ : ∀ t d f v, π (State.wrR t d f v) = π t) : π (showPins (fullReset (cutFlash s))) = π (fullReset (cutFlash s)) :=
    showPins_field π hπ _
  have hpins : (showPins (fullReset (cutFlash s))).pins = (fullReset (cutFlash s)).pins := hshow State.pins fun _ _ _ _ => (rfl)
  have hboot : (showPins (fullReset (cutFlash s))).boot = (fullReset (cutFlash s)).boot := hshow State.boot fun _ _ _ _ => (rfl)
  have hflash : (showPins (fullReset (cutFlash s))).flash = (fullReset (cutFlash s)).flash := hshow State.flash fun _ _ _ _ => (rfl)
  refine ⟨_, hexec, rfl, ?_, ?_, ?_, ?_, ?_, ?_, ?_, ?_, ?_, ?_, ?_, ?_, ?_, ?_⟩ <;> dsimp only
  · exact (congrArg Pins.por hpins).trans (hporKept.trans hpor)
  · exact congrArg Pins.alive hpins
  · exact congrArg Pins.aliveOn hpins
  · exact congrArg Pins.sfCsN hpins
  · exact congrArg Pins.regEn hpins
  · exact hshow State.cmds fun _ _ _ _ => (rfl)
  · exact hshow State.comps fun _ _ _ _ => (rfl)
  · exact hshow State.versions fun _ _ _ _ => (rfl)
  · exact (hshow (fun t => t.f0.island.queue) fun _ _ _ _ => (rfl)).trans hqueue
  · exact (hshow State.fuses fun _ _ _ _ => (rfl)).trans fuses_cutFlash
  · exact (hshow State.mediaTables fun _ _ _ _ => (rfl)).trans hmedia
  · exact (congrArg Boot.startAt hboot).trans hstart
  · exact fun h => (congrArg Flash.log hflash).trans (cutFlash_log s h)
  · intro hop
    rw [hflash]
    exact cutFlash_copies s hop

theorem resetNRise_starts (us : Nat) {s : State} (hpor : s.pins.por = true) (hs : s.regsWf = true) :
    ∃ u, exec (.resetNRise us) s = .next (settle u) ∧ u.pins.resetN = true ∧ u.boot.startAt = s.boot.startAt ∧ u.rdR .f0 R.BOOT_STAT_PHASE = 1 := by
  let r : State := { s with pins := { s.pins with resetN := true, shortReset := s.pins.por && decide (us < 100) } }
  obtain ⟨hpins, -⟩ := by simpa only [State.startFacts, Prod.mk.injEq] using startFacts_startIslands r
  exact ⟨_, congrArg (fun t => Host.Outcome.next (settle t)) (if_pos hpor), hpins.2.2.2, rfl, phase_startIslands hs⟩

/-! ## The pins in reset, and the gates (R54 to R59) -/

theorem driveGates_not_both (gh gl : Bool) : driveGates gh gl ≠ (true, true) := by
  unfold driveGates
  split
  · simp
  · next h => simpa using h

theorem gates_not_both (p at_ : Nat) (s : State) : s.gates p at_ ≠ (true, true) := by
  unfold State.gates
  split
  · simp
  · exact driveGates_not_both _ _

theorem pins_in_reset (d : RSlot) (h g p at_ : Nat) {s : State} (hpor : s.pins.por = true) (hreset : s.pins.resetN = false) :
    s.pinHostTx d h = .idle ∧ s.pinDramResetN = .low ∧ s.pinSfCsN = .high ∧ s.pinSfClk = .low ∧ s.pinSfIo = .released ∧ s.pinRegEn = .low ∧
      s.pinAlive = .low ∧ s.pinTdo = .released ∧ s.pinWd g = .idle ∧ s.pinPaSen g = .low ∧ s.pinActCsN g = .high ∧ s.pinMaDmd g = .released ∧
      s.pinRetN g = .low ∧ s.pinGates p at_ = (.low, .low) ∧ s.pinBrk = .low := by
  have hin : s.inReset = true := by simp [State.inReset, hreset]
  have hgates : s.gates p at_ = (false, false) := by simp [State.gates, hin]
  refine ⟨?_, ?_, ?_, ?_, ?_, ?_, ?_, rfl, ?_, ?_, ?_, ?_, ?_, ?_, ?_⟩
  · simp [State.pinHostTx, hin, hpor]
  · simp [State.pinDramResetN, hin, hpor, Level.of]
  · simp [State.pinSfCsN, hin, hpor, Level.of]
  · simp [State.pinSfClk, hin, hpor]
  · simp [State.pinSfIo, hin]
  · simp [State.pinRegEn, hin, hpor]
  · simp [State.pinAlive, hin, hpor, Level.of]
  · simp [State.pinWd, hin]
  · simp [State.pinPaSen, hpor]
  · simp [State.pinActCsN, hpor]
  · simp [State.pinMaDmd, hin]
  · simp [State.pinRetN, hin, hpor, Level.of]
  · simp [State.pinGates, hgates, hpor, Level.of]
  · simp [State.pinBrk, hin, hpor, Level.of]

/-- Settles O1: power-on reset, RESET_N, and the levels of the pins in reset. -/
theorem powerAndResetPins : Obligations.PowerAndResetPins :=
  ⟨fun _ _ _ => powerOnResetRelease_starts, powerOnResetEntry_loses, fun _ => resetNFall_loses, fun _ hpor => if_neg (by simp [hpor]),
    fun us _ => resetNRise_starts us, fun us s hpor => by
      show execResetNRise us s = _
      simp [execResetNRise, hpor],
    fun d h g p at_ _ => pins_in_reset d h g p at_, gates_not_both⟩

end Sys2Proof.Machine
end

section
/-! The serial flash as operations begin on it, and the supply: O2. -/

namespace Sys2Proof.Machine

/-! ## What an operation on the flash leaves (R79, R96) -/

/-- A part of the state that no operation beginning on the flash reaches: one changes the flash and tells the outside. -/
structure FlashFree {β : Type} (π : State → β) : Prop where
  flash : ∀ (s : State) fl, π { s with flash := fl } = π s
  emit : ∀ s o, π (State.emit s o) = π s

section
variable {β : Type} {π : State → β} (hπ : FlashFree π)
include hπ

theorem FlashFree.startOp (op : FlashOp) (s : State) : π (startOp op s) = π s := (hπ.emit ..).trans (hπ.flash ..)

theorem FlashFree.resumeOp (s : State) : π (resumeOp s) = π s := by
  unfold Machine.resumeOp
  split
  · split
    · rfl
    · exact (hπ.startOp ..).trans (hπ.flash ..)
  · rfl

theorem FlashFree.beginHeaderWrite (s : State) : π (beginHeaderWrite s) = π s := by
  unfold Machine.beginHeaderWrite
  split
  · rfl
  · split
    · exact (hπ.startOp ..).trans (hπ.flash ..)
    · rfl

end

theorem resumeOp_none {s : State} (h : s.flash.redo = none) : resumeOp s = s := by
  rw [resumeOp, h]

theorem beginHeaderWrite_none {s : State} (h : s.flash.hdrQueue = []) : beginHeaderWrite s = s := by
  rw [beginHeaderWrite, h]

/-! ## A sample of VIN (R96) -/

theorem bit_mod_two (b : Bool) : bit b % 2 ^ 1 = bit b := by cases b <;> rfl

theorem pauseCooking_field {β : Type} (π : State → β) (h : ∀ f t, π (modSpin f t) = π t) (s : State) : π (pauseCooking s) = π s := by
  unfold pauseCooking
  split
  · exact h ..
  · rfl

theorem resumeCooking_field {β : Type} (π : State → β) (h : ∀ f t, π (modSpin f t) = π t) (s : State) : π (resumeCooking s) = π s := by
  unfold resumeCooking
  split
  · exact h ..
  · rfl

/-- DEV_PINSTAT shows a sample of VIN. -/
def vinShown (mv : Nat) (s : State) : State := wrBoth R.DEV_PINSTAT_VINOK (bit (vinOk mv)) { s with pins := { s.pins with vinMv := mv } }

/-- A sample below VSAG pauses cooking, and every erase and program of the flash. -/
def sagSeen (s : State) : State :=
  pauseCooking { s with pins := { s.pins with sagPause := true }, flash := { s.flash with sagged := s.flash.op.isSome } }

/-- What every sample does, whatever the hold time then says. -/
def vinTaken (mv : Nat) (s : State) : State :=
  if mv < 10 * (vinShown mv s).rdR (vinShown mv s).senior R.BOOT_RIDE_VSAG then sagSeen (vinShown mv s) else vinShown mv s

/-- The time from which VIN has been low. -/
def lowFrom (t : Option Nat) (s : State) : State := { s with pins := { s.pins with lowSince := t } }

theorem exec_vinSample (mv : Nat) (s : State) : exec (.vinSample mv) s =
    if mv < 4500 then .next (lowFrom (some ((vinTaken mv s).pins.lowSince.getD (vinTaken mv s).now)) (vinTaken mv s))
    else if (vinTaken mv s).pins.lowSince.isSome then
      .next (settle (if (vinTaken mv s).pins.holdOut then lowFrom none (vinTaken mv s)
        else inStep (fun d t => raise d 0x025 [mv] t) (lowFrom none (vinTaken mv s))))
    else .next (vinTaken mv s) := by
  show execVinSample mv s = _
  simp only [execVinSample, vinTaken, decide_eq_true_eq]
  rfl

theorem pins_vinShown (mv : Nat) (s : State) : (vinShown mv s).pins = { s.pins with vinMv := mv } :=
  wrBoth_field State.pins (fun _ _ _ _ => rfl) ..

/-- A sample changes the level of VIN, and begins the pause or leaves it. -/
theorem pins_vinTaken (mv : Nat) (s : State) : ∃ b, (vinTaken mv s).pins = { s.pins with vinMv := mv, sagPause := b } ∧ (s.pins.sagPause = true → b = true) := by
  unfold vinTaken
  split
  · refine ⟨true, ?_, fun _ => rfl⟩
    rw [sagSeen, pauseCooking_field State.pins fun _ _ => rfl]
    simp [pins_vinShown]
  · exact ⟨s.pins.sagPause, pins_vinShown mv s, id⟩

theorem vinTaken_field {β : Type} (π : State → β) (hspin : ∀ f t, π (modSpin f t) = π t)
    (hpause : ∀ (t : State) p fl, π { t with pins := p, flash := fl } = π t) (mv : Nat) (s : State) : π (vinTaken mv s) = π (vinShown mv s) := by
  unfold vinTaken
  split
  · rw [sagSeen, pauseCooking_field π hspin, hpause]
  · rfl

theorem host_vinTaken (mv : Nat) (s : State) : (vinTaken mv s).host = s.host :=
  (vinTaken_field State.host (fun _ _ => rfl) (fun _ _ _ => rfl) mv s).trans (wrBoth_field State.host State.host_wrR ..)

theorem now_vinTaken (mv : Nat) (s : State) : (vinTaken mv s).now = s.now :=
  (vinTaken_field State.now (fun _ _ => rfl) (fun _ _ _ => rfl) mv s).trans (wrBoth_field State.now State.now_wrR ..)

theorem vinok_vinTaken {mv : Nat} {s : State} (hs : s.regsWf = true) : (vinTaken mv s).rdR .f0 R.DEV_PINSTAT_VINOK = bit (vinOk mv) := by
  have hregs : (vinTaken mv s).regs = (vinShown mv s).regs := vinTaken_field State.regs (fun _ _ => rfl) (fun _ _ _ => rfl) mv s
  rw [State.rdR_congr hregs, vinShown]
  refine (rdR_wrBoth_self (d := .f0) ?_ (by simp [State.hasRind]) (by decide)).trans (bit_mod_two _)
  exact hs

theorem vinSample_keeps {mv : Nat} {s : State} (hmv : 4500 ≤ mv) (hlow : s.pins.lowSince = none) (hs : s.regsWf = true) :
    ∃ t, exec (.vinSample mv) s = .next t ∧ t.pins.vinMv = mv ∧ t.rdR .f0 R.DEV_PINSTAT_VINOK = bit (decide (mv ≤ 32000)) ∧
      t.pins.lowSince = none ∧ (s.pins.sagPause = true → t.pins.sagPause = true) ∧ t.cmds = s.cmds ∧ t.out = s.out := by
  obtain ⟨b, hpins, hb⟩ := pins_vinTaken mv s
  have hok : vinOk mv = decide (mv ≤ 32000) := by simp [vinOk, hmv]
  refine ⟨vinTaken mv s, ?_, by rw [hpins], ?_, by rw [hpins, hlow], fun h => by rw [hpins]; exact hb h, State.host_eq.mp (host_vinTaken mv s)⟩
  · rw [exec_vinSample, if_neg (by omega), hpins, if_neg (by simp [hlow])]
  · rw [vinok_vinTaken hs, hok]

theorem vinSample_low {mv : Nat} {s : State} (hmv : mv < 4500) (hs : s.regsWf = true) :
    ∃ t, exec (.vinSample mv) s = .next t ∧ t.pins.vinMv = mv ∧ t.rdR .f0 R.DEV_PINSTAT_VINOK = 0 ∧
      t.pins.lowSince = some (s.pins.lowSince.getD s.now) ∧ t.cmds = s.cmds ∧ t.out = s.out := by
  obtain ⟨b, hpins, -⟩ := pins_vinTaken mv s
  have hok : vinOk mv = false := decide_eq_false (by omega)
  refine ⟨_, (exec_vinSample mv s).trans (if_pos hmv), by simp [lowFrom, hpins], ?_, by simp [lowFrom, hpins, now_vinTaken],
    State.host_eq.mp (host_vinTaken mv s)⟩
  exact (vinok_vinTaken hs).trans (congrArg bit hok)

/-- A dip that ends before the hold expires. -/
theorem vinSample_dip {mv : Nat} {s : State} (hmv : 4500 ≤ mv) (hlow : s.pins.lowSince.isSome = true) (hhold : s.pins.holdOut = false) :
    ∃ v, exec (.vinSample mv) s = .next (settle (inStep (fun d t => raise d 0x025 [mv] t) v)) ∧ v.pins.vinMv = mv ∧ v.pins.lowSince = none ∧
      v.cmds = s.cmds := by
  obtain ⟨b, hpins, -⟩ := pins_vinTaken mv s
  have hend : (vinTaken mv s).pins.lowSince.isSome = true := by rw [hpins]; exact hlow
  have hin : ¬ (vinTaken mv s).pins.holdOut = true := by rw [hpins]; simp [hhold]
  refine ⟨lowFrom none (vinTaken mv s), ?_, by simp [lowFrom, hpins], rfl, (State.host_eq.mp (host_vinTaken mv s)).1⟩
  rw [exec_vinSample, if_neg (by omega), if_pos hend, if_neg hin]

/-! ## The pause ends (R96) -/

/-- VIN permits erases and programs again. -/
def sagOver (s : State) : State := { s with pins := { s.pins with sagPause := false } }

theorem sagPauseEnd_ends {s : State} (hsag : s.pins.sagPause = true) (hvin : 10 * s.rdR s.senior R.BOOT_RIDE_VSAG ≤ s.pins.vinMv) :
    ∃ t, exec .sagPauseEnd s = .next t ∧ t.pins.sagPause = false ∧ t.regs = s.regs ∧ t.cmds = s.cmds ∧
      (s.flash.hdrQueue = [] → s.flash.redo = none → t.flash = s.flash) := by
  have hkeep {β : Type} (π : State → β) (hspin : ∀ f t, π (modSpin f t) = π t) (hπ : FlashFree π) :
      π (resumeCooking (beginHeaderWrite (resumeOp (sagOver s)))) = π (sagOver s) :=
    (resumeCooking_field π hspin _).trans ((hπ.beginHeaderWrite _).trans (hπ.resumeOp _))
  refine ⟨resumeCooking (beginHeaderWrite (resumeOp (sagOver s))), if_pos ⟨hsag, hvin⟩, ?_, ?_, ?_, fun hqueue hredo => ?_⟩
  · exact congrArg Pins.sagPause (hkeep State.pins (fun _ _ => rfl) ⟨fun _ _ => rfl, fun _ _ => rfl⟩)
  · exact hkeep State.regs (fun _ _ => rfl) ⟨fun _ _ => rfl, fun _ _ => rfl⟩
  · exact hkeep State.cmds (fun _ _ => rfl) ⟨fun _ _ => rfl, fun _ _ => rfl⟩
  · rw [resumeOp_none (s := sagOver s) hredo, beginHeaderWrite_none (s := sagOver s) hqueue, resumeCooking_field State.flash fun _ _ => rfl]
    rfl

/-! ## The hold expires (R97) -/

/-- What the core logic alone holds: the commands, the versions, buffer memory, the bridge, and whether the media are clean. -/
def State.coreFacts (s : State) : List Cmd × List Version × Bmem × Bmem × Bool × Bool :=
  (s.cmds, s.versions, s.f0.bmem, s.f1.bmem, s.spin.bridge, s.mediaClean)

theorem coreFacts_coreReset (s : State) : (coreReset s).coreFacts = ([], [], {}, {}, false, s.mediaClean) := by
  unfold coreReset
  extract_lets keep k bare pins pmb reset owned left
  have hkeep (t : State) (d : RSlot) (f : Fld) (v : Nat) : (t.wrR d f v).coreFacts = t.coreFacts := rfl
  have hleft : left.coreFacts = reset.coreFacts := by
    unfold left
    split
    · exact (hkeep ..).trans ((hkeep ..).trans (hkeep ..))
    · exact (hkeep ..).trans (hkeep ..)
  split
  · exact (hkeep ..).trans ((hkeep ..).trans hleft)
  · exact hleft

/-- REG_EN is low until VIN is back (R97). -/
def powerDropped (s : State) : State :=
  let s := setRegEn false s
  { s with pins := { s.pins with holdOut := true }, boot := { s.boot with restarting := false, portsOff := false } }

theorem coreFacts_powerDropped (s : State) : (powerDropped s).coreFacts = s.coreFacts := wrBoth_field State.coreFacts (fun _ _ _ _ => rfl) ..

theorem pins_powerDropped (s : State) : (powerDropped s).pins = { s.pins with regEn := false, holdOut := true } :=
  congrArg (fun p : Pins => { p with holdOut := true })
    (wrBoth_field State.pins (fun _ _ _ _ => rfl) R.DEV_PINSTAT_REGEN (bit false) { s with pins := { s.pins with regEn := false } })

/-- What the end of the hold does while the core still runs: actuators retract, the spindle coasts, and source 0x026 counts the versions that go. -/
def holdEnded (s : State) : State := settle (inStep (fun d t => raise d 0x026 [dirtyCount t] t) (onGroups emergencyRetract (gatesOff s)))

/-- The state without its core logic: what was only in buffer memory is lost, so the media are not clean. -/
def coreLost (s : State) : State := coreReset { s with mediaClean := false }

section
variable {s : State} (hlow : s.pins.lowSince.isSome = true) (hhold : s.pins.holdOut = false)
include hlow hhold

theorem exec_supplyHoldExpire (hph : s.phase .f0 < 0xD) : exec .supplyHoldExpire s = .next (powerDropped (coreLost (holdEnded s))) := by
  show execSupplyHoldExpire s = _
  unfold execSupplyHoldExpire
  rw [if_neg (fun h => by omega), if_pos (by simp [hlow, hhold])]
  simp only [powerDropped, coreLost, holdEnded]

theorem exec_supplyHoldExpire_waiting (hph : 0xD ≤ s.phase .f0) :
    exec .supplyHoldExpire s = .next (settle (inStep (fun d t => raise d 0x026 [0] t) s)) := by
  show execSupplyHoldExpire s = _
  exact if_pos (by simp [hlow, hhold, hph])

theorem supplyHoldExpire_loses (hph : s.phase .f0 < 0xD) :
    ∃ t, exec .supplyHoldExpire s = .next t ∧ t.pins.holdOut = true ∧ t.pins.regEn = false ∧ t.cmds = [] ∧ t.versions = [] ∧ t.f0.bmem = {} ∧
      t.f1.bmem = {} ∧ t.spin.bridge = false ∧ t.mediaClean = false := by
  rw [exec_supplyHoldExpire hlow hhold hph]
  generalize holdEnded s = u
  have hfacts : (powerDropped (coreLost u)).coreFacts = ([], [], {}, {}, false, false) := (coreFacts_powerDropped _).trans (coreFacts_coreReset _)
  generalize hw : powerDropped (coreLost u) = w at hfacts
  have hpins : w.pins = { (coreLost u).pins with regEn := false, holdOut := true } := by rw [← hw, pins_powerDropped]
  simp only [State.coreFacts, Prod.mk.injEq] at hfacts
  exact ⟨w, rfl, by rw [hpins], by rw [hpins], hfacts⟩

end

/-! ## The supply is back (R97) -/

/-- VIN has been high enough for long enough. -/
def supplyBack (s : State) : State := { s with pins := { s.pins with holdOut := false, lowSince := none } }

theorem supplyRestart_starts {s : State} (hhold : s.pins.holdOut = true) (hvin : 4600 ≤ s.pins.vinMv) (hs : s.regsWf = true) :
    ∃ t, exec .supplyRestart s = .next t ∧ t.pins.holdOut = false ∧ t.pins.lowSince = none ∧ t.rdR .f0 R.BOOT_STAT_PHASE = 1 ∧ t.flash = s.flash ∧
      t.cmds = s.cmds := by
  have hkeep {β : Type} (π : State → β) (h : ∀ t d f v, π (State.wrR t d f v) = π t) : π (wrBoth R.BOOT_STAT_PHASE 1 (supplyBack s)) = π (supplyBack s) :=
    wrBoth_field π h ..
  have hpins : (wrBoth R.BOOT_STAT_PHASE 1 (supplyBack s)).pins = (supplyBack s).pins := hkeep State.pins fun _ _ _ _ => rfl
  refine ⟨wrBoth R.BOOT_STAT_PHASE 1 (supplyBack s), if_pos ⟨hhold, hvin⟩, by rw [hpins]; rfl, by rw [hpins]; rfl, ?_, ?_, ?_⟩
  · exact rdR_wrBoth_self (s := supplyBack s) hs (by simp [State.hasRind]) (by decide)
  · exact hkeep State.flash fun _ _ _ _ => rfl
  · exact hkeep State.cmds fun _ _ _ _ => rfl

/-- Settles O2: a sample by what it shows and whether VIN is low; the pause ends with what waited at the flash; the hold's end by the reset of the core. -/
theorem supplySagAndHold : Obligations.SupplySagAndHold :=
  ⟨fun _ _ => vinSample_keeps, fun _ _ => vinSample_low, fun _ _ => vinSample_dip, fun _ => sagPauseEnd_ends, fun _ => supplyHoldExpire_loses,
    fun _ => exec_supplyHoldExpire_waiting, fun _ => supplyRestart_starts⟩

end Sys2Proof.Machine
end

section
/-! The bytes of a header copy of the serial flash (R78). -/

namespace Sys2Proof.Machine

/-! ## CRC-32C -/

theorem foldl_crcShift_lt {l : List Nat} {c : Nat} (h : c < 2 ^ 32) : l.foldl (fun c _ => crcShift c) c < 2 ^ 32 := by
  refine List.foldlRecOn (motive := fun c : Nat => c < 2 ^ 32) _ _ h fun c hc _ _ => ?_
  unfold crcShift
  split
  · exact Nat.xor_lt_two_pow (by decide) (by omega)
  · omega

/-- The register of a CRC holds 32 bits. -/
theorem crc32_lt (l : List Byte) : crc32 l < 2 ^ 32 := by
  refine Nat.xor_lt_two_pow (by decide) ?_
  refine List.foldlRecOn (motive := fun c : Nat => c < 2 ^ 32) _ _ (by decide) fun c hc b _ => ?_
  exact foldl_crcShift_lt (Nat.xor_lt_two_pow hc (by have := b.isLt; omega))

theorem leNat_replicate_zero (n : Nat) : leNat (List.replicate n 0) = 0 := by
  induction n with
  | zero => rfl
  | succ n ih => rw [List.replicate_succ, leNat, ih]; rfl

/-! ## Fields laid one after the other -/

/-- The bytes from `pos` to `n`: fields at their offsets, zeros between them. -/
def laidFrom (n : Nat) : Nat → List (Nat × List Byte) → List Byte
  | pos, [] => List.replicate (n - pos) 0
  | pos, (off, b) :: fs => List.replicate (off - pos) 0 ++ (b ++ laidFrom n (off + b.length) fs)

/-- The fields stand in order from `pos` on, none past `n`. -/
def inOrder (n : Nat) : Nat → List (Nat × List Byte) → Prop
  | pos, [] => pos ≤ n
  | pos, (off, b) :: fs => pos ≤ off ∧ off + b.length ≤ n ∧ inOrder n (off + b.length) fs

theorem foldl_laid {n : Nat} {fs : List (Nat × List Byte)} {pre : List Byte} (h : inOrder n pre.length fs) :
    fs.foldl (fun l p => l.take p.1 ++ p.2 ++ l.drop (p.1 + p.2.length)) (pre ++ List.replicate (n - pre.length) 0) = pre ++ laidFrom n pre.length fs := by
  induction fs generalizing pre with
  | nil => rfl
  | cons f fs ih =>
    obtain ⟨off, b⟩ := f
    obtain ⟨hpos, hn, hrest⟩ := h
    have hput : (pre ++ List.replicate (n - pre.length) 0).take off ++ b ++ (pre ++ List.replicate (n - pre.length) 0).drop (off + b.length) =
        (pre ++ List.replicate (off - pre.length) 0 ++ b) ++ List.replicate (n - (off + b.length)) 0 := by
      rw [List.take_append, List.take_of_length_le hpos, List.take_replicate, List.drop_append, List.drop_of_length_le (by omega), List.drop_replicate,
        List.nil_append, Nat.min_eq_left (by omega), show n - pre.length - (off + b.length - pre.length) = n - (off + b.length) by omega]
    have hlen : (pre ++ List.replicate (off - pre.length) 0 ++ b).length = off + b.length := by
      simp only [List.length_append, List.length_replicate]
      omega
    rw [List.foldl_cons, hput, ← hlen, ih (by rw [hlen]; exact hrest), hlen, laidFrom]
    simp only [List.append_assoc]

theorem layBytes_eq {n : Nat} {fs : List (Nat × List Byte)} (h : inOrder n 0 fs) : layBytes n fs = laidFrom n 0 fs := foldl_laid (pre := []) h

/-! ## Fields read -/

theorem readRegion_skip {a l : List Byte} {off n : Nat} (h : a.length ≤ off) : readRegion (a ++ l) off n = readRegion l (off - a.length) n := by
  simp only [readRegion, List.drop_append, List.drop_of_length_le h, List.nil_append]

theorem readRegion_head (a l : List Byte) : readRegion (a ++ l) 0 a.length = a := by
  simp [readRegion]

theorem regionField_skip {k v : Nat} {l : List Byte} {off n : Nat} (h : k ≤ off) : regionField (natLe k v ++ l) off n = regionField l (off - k) n := by
  rw [regionField, readRegion_skip (by rwa [length_natLe]), length_natLe, regionField]

theorem regionField_head (k v : Nat) (l : List Byte) : regionField (natLe k v ++ l) 0 k = v % 256 ^ k := by
  have h := readRegion_head (natLe k v) l
  rw [length_natLe] at h
  rw [regionField, h, leNat_natLe]

theorem regionField_skip_zeros {k : Nat} {l : List Byte} {off n : Nat} (h : k ≤ off) :
    regionField (List.replicate k 0 ++ l) off n = regionField l (off - k) n := by
  rw [regionField, readRegion_skip (by rwa [List.length_replicate]), List.length_replicate, regionField]

theorem regionField_zeros (k : Nat) (l : List Byte) : regionField (List.replicate k 0 ++ l) 0 k = 0 := by
  have h := readRegion_head (List.replicate k 0) l
  rw [List.length_replicate] at h
  rw [regionField, h, leNat_replicate_zero]

/-! ## A header copy (R78) -/

/-- A header copy field by field, and what stands after its 252 bytes. -/
def Header.fields (h : Header) (rest : List Byte) : List Byte :=
  natLe 4 0x444E4D41 ++ (natLe 2 1 ++ (natLe 2 h.hseq ++ (natLe 1 h.flashLog2 ++ (natLe 1 h.sfclk ++ (natLe 1 h.sfdummy ++ (natLe 1 h.logLog2 ++
    (natLe 1 h.active ++ (natLe 1 (h.pending.getD 0xFF) ++ (natLe 1 h.tries ++ (List.replicate 1 0 ++ (natLe 1 h.pmbVcore ++ (natLe 1 h.pmbVana ++
    (natLe 1 h.pmbVddq ++ (List.replicate 233 0 ++ rest))))))))))))))

theorem Header.fields_append (h : Header) (rest : List Byte) : h.fields rest = h.body ++ rest := by
  rw [Header.body, layBytes_eq (by simp [inOrder, length_natLe])]
  simp only [Header.fields, laidFrom, length_natLe, Nat.reduceAdd, Nat.reduceSub, List.replicate_zero, List.nil_append, List.append_assoc]

theorem Header.length_body (h : Header) : h.body.length = 0xFC := by
  rw [← List.append_nil h.body, ← Header.fields_append]
  simp only [Header.fields, List.length_append, length_natLe, List.length_replicate, List.length_nil]

section
variable {h : Header}

/-- Each field is read where it stands. -/
theorem Header.regionField_fields (rest : List Byte) :
    regionField (h.fields rest) 0 4 = 0x444E4D41 ∧ regionField (h.fields rest) 4 2 = 1 ∧ regionField (h.fields rest) 6 2 = h.hseq % 256 ^ 2 ∧
    regionField (h.fields rest) 8 1 = h.flashLog2 % 256 ^ 1 ∧ regionField (h.fields rest) 9 1 = h.sfclk % 256 ^ 1 ∧
    regionField (h.fields rest) 0xA 1 = h.sfdummy % 256 ^ 1 ∧ regionField (h.fields rest) 0xB 1 = h.logLog2 % 256 ^ 1 ∧
    regionField (h.fields rest) 0xC 1 = h.active % 256 ^ 1 ∧ regionField (h.fields rest) 0xD 1 = h.pending.getD 0xFF % 256 ^ 1 ∧
    regionField (h.fields rest) 0xE 1 = h.tries % 256 ^ 1 ∧ regionField (h.fields rest) 0xF 1 = 0 ∧
    regionField (h.fields rest) 0x10 1 = h.pmbVcore % 256 ^ 1 ∧ regionField (h.fields rest) 0x11 1 = h.pmbVana % 256 ^ 1 ∧
    regionField (h.fields rest) 0x12 1 = h.pmbVddq % 256 ^ 1 ∧ regionField (h.fields rest) 0x13 233 = 0 ∧
    regionField (h.fields rest) 0xFC 4 = regionField rest 0 4 := by
  simp only [Header.fields, regionField_skip, regionField_skip_zeros, regionField_head, regionField_zeros, Nat.reduceLeDiff, Nat.reduceSub, Nat.reducePow,
    Nat.reduceMod, and_self]

/-- Every field of a header in range fits its bytes. -/
theorem Header.inRange_fits (hr : h.inRange = true) : h.flashLog2 < 256 ∧ h.sfclk < 256 ∧ h.sfdummy < 256 ∧ h.logLog2 < 256 ∧ h.active < 256 ∧
    h.tries < 256 ∧ h.pmbVcore < 256 ∧ h.pmbVana < 256 ∧ h.pmbVddq < 256 := by
  simp only [Header.inRange, decide_eq_true_eq] at hr
  omega

/-- 0xFF in the byte of PENDING stands for none: a slot in range is another value. -/
theorem Header.inRange_pending (hr : h.inRange = true) : h.pending.getD 0xFF < 256 ∧
    (if h.pending.getD 0xFF = 0xFF then none else some (h.pending.getD 0xFF)) = h.pending := by
  cases hp : h.pending with
  | none => exact ⟨by decide, rfl⟩
  | some p =>
    have hle : p ≤ 1 := by
      simp only [Header.inRange, decide_eq_true_eq, hp, Option.getD_some] at hr
      omega
    simp only [Option.getD_some]
    exact ⟨by omega, if_neg (by omega)⟩

/-- A header that is written is read back as it is. -/
theorem Header.ofBytes_bytes (hr : h.inRange = true) (hseq : h.hseq < 0x10000) : Header.ofBytes h.bytes = some h := by
  have hbytes : h.bytes = h.fields (natLe 4 (crc32 h.body) ++ []) := by rw [Header.fields_append, List.append_nil, Header.bytes]
  have hbody : readRegion h.bytes 0 0xFC = h.body := by rw [Header.bytes, ← h.length_body, readRegion_head]
  have hcrc : regionField (natLe 4 (crc32 h.body) ++ []) 0 4 = crc32 h.body :=
    (regionField_head ..).trans (Nat.mod_eq_of_lt (crc32_lt _))
  obtain ⟨hmagic, hlayout, h6, h8, h9, hA, hB, hC, hD, hE, hF, h10, h11, h12, h13, hFC⟩ := h.regionField_fields (natLe 4 (crc32 h.body) ++ [])
  obtain ⟨hflash, hclk, hdummy, hlog, hactive, htries, hcore, hana, hddq⟩ := Header.inRange_fits hr
  obtain ⟨hpend, hpending⟩ := Header.inRange_pending hr
  rw [← hbytes] at *
  rw [Nat.mod_eq_of_lt (by assumption)] at h6 h8 h9 hA hB hC hD hE h10 h11 h12
  unfold Header.ofBytes
  simp only [hmagic, hlayout, h6, h8, h9, hA, hB, hC, hD, hE, hF, h10, h11, h12, h13, hFC, hcrc, hbody, hpending, hr]
  simp
end

end Sys2Proof.Machine
end

section
/-! The part of the start that reads the serial flash, and the writes of its header: O7. -/

namespace Sys2Proof.Machine

/-! ## The header is read (R76, R79, R91) -/

theorem rdR_wrBoth_apart {f g : Fld} {v : Nat} {s : State} {d : RSlot} (hs : s.regsWf = true) (hf : f.Ok) (hg : g.Ok)
    (h : f.off ≠ g.off ∨ f.hi < g.lo ∨ g.hi < f.lo) : (wrBoth f v s).rdR d g = s.rdR d g :=
  (List.foldlRecOn (motive := fun t : State => t.regsWf = true ∧ t.rdR d g = s.rdR d g) _ _ ⟨hs, rfl⟩ fun _ ⟨ht, hread⟩ _ _ =>
    ⟨State.regsWf_wrR ht, (State.rdR_wrR_apart ht hf hg h).trans hread⟩).2

theorem showHeader_field {β : Type} (π : State → β) (hwr : ∀ t d f v, π (State.wrR t d f v) = π t) (d : RSlot) (k : Nat) (h : Header) (s : State) :
    π (showHeader d k h s) = π s := (hwr ..).trans ((hwr ..).trans (hwr ..))

theorem regsWf_showHeader {d : RSlot} {k : Nat} {h : Header} {s : State} (hs : s.regsWf = true) : (showHeader d k h s).regsWf = true :=
  State.regsWf_wrR (State.regsWf_wrR (State.regsWf_wrR hs))

/-- The two header copies and SFDP are read. -/
def headersRead (s : State) : State := ((s.emit (.flashRead false 25 0 (hdrAddr 0) 256)).emit (.flashRead false 25 0 (hdrAddr 1) 256)).emit .sfdpRead

/-- F0 uses the header: REG_EN is released, VCORE is to start at 800 mV, and the log ring has the header's size. -/
def headerChosen (h : Header) (s : State) : State :=
  { s with
    boot := { s.boot with hdr := h }, pins := { s.pins with regEn := true }, pmb := { s.pmb with setMv := 800, takeover := false }
    flash := { s.flash with log := shapeLog h s.flash.log } }

theorem regsWf_headerChosen {h : Header} {s : State} (hs : s.regsWf = true) : (headerChosen h s).regsWf = true := hs

/-- F0 is at phase 2 and drives the PMBus, and both dies show REG_EN. -/
def railsAsked (s : State) : State := wrBoth R.DEV_PINSTAT_REGEN 1 ((setPhase .f0 2 s).wrR .f0 R.DEV_PINSTAT_PMBOWN 1)

/-- F1 shows the header; F0's rails may be up already (R94). -/
def headerFollowed (k : Nat) (h : Header) (s : State) : State :=
  let s := showHeader .f1 k h s
  setPhase .f1 (if 3 ≤ s.phase .f0 ∧ s.phase .f0 ≤ 8 then 3 else 2) s

section
variable {k : Nat} {h : Header} {s : State} (hpor : s.pins.por = true) (hreset : s.pins.resetN = true) (hhold : s.pins.holdOut = false)
include hpor hreset hhold

theorem exec_startHeader_f0 (hph : s.phase .f0 ≤ 1) (hbus : s.hasBus .f0 = true) (hhdr : s.flash.header = some (k, h)) :
    exec (.startHeader .f0) s = .next (railsAsked (headerChosen h (showHeader .f0 k h (headersRead s)))) := by
  show execStartHeader .f0 s = _
  unfold execStartHeader
  rw [if_pos (by simp [State.hasRind, hpor, hreset, hhold, hph, hbus])]
  simp only [State.flash_emit, hhdr]
  rfl

theorem exec_startHeader_none (hph : s.phase .f0 ≤ 1) (hbus : s.hasBus .f0 = true) (hhdr : s.flash.header = none) :
    exec (.startHeader .f0) s = .next (settle (startFail [2] (headersRead s))) := by
  show execStartHeader .f0 s = _
  unfold execStartHeader
  rw [if_pos (by simp [State.hasRind, hpor, hreset, hhold, hph, hbus])]
  simp only [State.flash_emit, hhdr]
  rfl

theorem exec_startHeader_f1 (hpart : s.part.f = 2) (hph : s.phase .f1 ≤ 1) (hf0 : 2 ≤ s.phase .f0) (hbus : s.hasBus .f1 = true)
    (hhdr : s.flash.header = some (k, h)) : exec (.startHeader .f1) s = .next (headerFollowed k h (headersRead s)) := by
  show execStartHeader .f1 s = _
  unfold execStartHeader
  rw [if_pos (by simp [State.hasRind, hpart, hpor, hreset, hhold, hph, hf0, hbus])]
  simp only [State.flash_emit, hhdr]
  rfl

end

theorem railsAsked_field {β : Type} (π : State → β) (hwr : ∀ t d f v, π (State.wrR t d f v) = π t) (s : State) : π (railsAsked s) = π s :=
  (wrBoth_field π hwr ..).trans ((hwr ..).trans (hwr ..))

theorem railsAsked_shows {s : State} (hs : s.regsWf = true) : (railsAsked s).rdR .f0 R.BOOT_STAT_PHASE = 2 ∧
    (railsAsked s).rdR .f0 R.DEV_PINSTAT_PMBOWN = 1 ∧ (railsAsked s).rdR .f0 R.DEV_PINSTAT_REGEN = 1 := by
  have hphase : (setPhase .f0 2 s).regsWf = true := State.regsWf_wrR hs
  have hown := State.regsWf_wrR (d := .f0) (f := R.DEV_PINSTAT_PMBOWN) (v := 1) hphase
  refine ⟨?_, ?_, rdR_wrBoth_self hown (by simp [State.hasRind]) (by decide)⟩
  · rw [railsAsked, rdR_wrBoth_apart hown (by decide) (by decide) (by decide), State.rdR_wrR_apart hphase (by decide) (by decide) (by decide)]
    exact State.rdR_wrR_self hs (by decide)
  · rw [railsAsked, rdR_wrBoth_apart hown (by decide) (by decide) (by decide)]
    exact State.rdR_wrR_self hphase (by decide)

/-- What the choice of a header changes, but for the registers. -/
theorem headerChosen_shown (k : Nat) (h : Header) (s : State) : (headerChosen h (showHeader .f0 k h s)).boot.hdr = h ∧
    (headerChosen h (showHeader .f0 k h s)).pins.regEn = true ∧ (headerChosen h (showHeader .f0 k h s)).pmb.setMv = 800 ∧
    (headerChosen h (showHeader .f0 k h s)).flash = { s.flash with log := shapeLog h s.flash.log } ∧
    (headerChosen h (showHeader .f0 k h s)).out = s.out := by
  have hflash : (showHeader .f0 k h s).flash = s.flash := showHeader_field State.flash (fun _ _ _ _ => rfl) ..
  have hout : (showHeader .f0 k h s).out = s.out := showHeader_field State.out (fun _ _ _ _ => rfl) ..
  rw [← hflash, ← hout]
  exact ⟨rfl, rfl, rfl, rfl, rfl⟩

/-- F0 goes to phase 2 with the header chosen. -/
theorem startHeader_f0 {k : Nat} {h : Header} {s : State} (hpor : s.pins.por = true) (hreset : s.pins.resetN = true) (hhold : s.pins.holdOut = false)
    (hph : s.phase .f0 ≤ 1) (hbus : s.hasBus .f0 = true) (hhdr : s.flash.header = some (k, h)) (hs : s.regsWf = true) :
    ∃ t, exec (.startHeader .f0) s = .next t ∧ t.boot.hdr = h ∧ t.pins.regEn = true ∧ t.pmb.setMv = 800 ∧ t.rdR .f0 R.BOOT_STAT_PHASE = 2 ∧
      t.rdR .f0 R.DEV_PINSTAT_PMBOWN = 1 ∧ t.rdR .f0 R.DEV_PINSTAT_REGEN = 1 ∧ t.flash = { s.flash with log := shapeLog h s.flash.log } ∧
      t.out = .sfdpRead :: .flashRead false 25 0 (hdrAddr 1) 256 :: .flashRead false 25 0 (hdrAddr 0) 256 :: s.out := by
  obtain ⟨hboot, hpins, hpmb, hflash, hout⟩ := headerChosen_shown k h (headersRead s)
  obtain ⟨hphase, hown, hregen⟩ := railsAsked_shows (regsWf_headerChosen (h := h) (regsWf_showHeader (d := .f0) (k := k) (h := h) (s := headersRead s) hs))
  rw [exec_startHeader_f0 hpor hreset hhold hph hbus hhdr]
  generalize headerChosen h (showHeader .f0 k h (headersRead s)) = t at *
  have hkeep {β : Type} (π : State → β) (hwr : ∀ t d f v, π (State.wrR t d f v) = π t) : π (railsAsked t) = π t := railsAsked_field π hwr t
  refine ⟨railsAsked t, rfl, ?_, ?_, ?_, hphase, hown, hregen, ?_, ?_⟩
  · rw [hkeep State.boot fun _ _ _ _ => rfl, hboot]
  · rw [hkeep State.pins fun _ _ _ _ => rfl, hpins]
  · rw [hkeep State.pmb fun _ _ _ _ => rfl, hpmb]
  · rw [hkeep State.flash fun _ _ _ _ => rfl, hflash]
    rfl
  · rw [hkeep State.out fun _ _ _ _ => rfl, hout]
    rfl

theorem headerFollowed_shows {k : Nat} {h : Header} {s : State} (hs : s.regsWf = true) : (headerFollowed k h s).flash = s.flash ∧
    (headerFollowed k h s).boot = s.boot ∧
    (headerFollowed k h s).rdR .f1 R.BOOT_STAT_PHASE = (if 3 ≤ s.phase .f0 ∧ s.phase .f0 ≤ 8 then 3 else 2) := by
  have hf0 : (showHeader .f1 k h s).phase .f0 = s.phase .f0 :=
    (State.rdR_wrR_die (by decide) (by decide) (by decide)).trans
      ((State.rdR_wrR_die (by decide) (by decide) (by decide)).trans (State.rdR_wrR_die (by decide) (by decide) (by decide)))
  refine ⟨(rfl), (rfl), ?_⟩
  rw [headerFollowed, hf0]
  refine (State.rdR_wrR_self (regsWf_showHeader hs) (by decide)).trans (Nat.mod_eq_of_lt ?_)
  show _ < 16
  split <;> omega

/-! ## The slot is chosen (R21, R81, R89) -/

/-- What the choice of a slot looks at. -/
def State.slotFacts (s : State) : Header × Option Nat × Bool × Fuses × Flash := (s.boot.hdr, s.boot.slot, s.boot.trial, s.fuses, s.flash)

theorem eventFree_slotFacts : EventFree State.slotFacts :=
  ⟨fun _ _ _ _ => (rfl), fun _ d _ => by cases d <;> rfl, fun _ => (rfl), fun _ _ => (rfl)⟩

theorem slotFacts_reportMissing (d : RSlot) (s : State) : (reportMissing d s).slotFacts = s.slotFacts := by
  have hmiss (t : State) (k : Nat) (l : List (RSlot × Nat)) :
      ({ raise d 0x000 [k] t with boot := { t.boot with absent := l } } : State).slotFacts = t.slotFacts :=
    congrArg (fun p => (t.boot.hdr, t.boot.slot, t.boot.trial, p.2.2.2)) (eventFree_slotFacts.raise d 0x000 [k] t)
  have hgroups : (s.groups.foldl (fun t g => if (t.fvEnd (.rind d g)).up then t
      else { (raise d 0x000 [curdCode g] t) with boot := { t.boot with absent := (d, g) :: t.boot.absent } }) s).slotFacts = s.slotFacts :=
    foldl_field State.slotFacts fun t g => by
      split
      · rfl
      · exact hmiss ..
  unfold reportMissing
  dsimp only
  split
  · exact (hmiss ..).trans hgroups
  · exact hgroups

theorem reportMissing_none {d : RSlot} {s : State} (hgroups : ∀ g ∈ s.groups, (s.fvEnd (.rind d g)).up = true)
    (hpeer : s.part.f = 2 → (s.fvEnd (.rind d 6)).up = true) : reportMissing d s = s := by
  unfold reportMissing
  rw [foldl_fixed fun g hg => if_pos (hgroups g hg)]
  exact if_neg fun ⟨hf, hup⟩ => by simp [hpeer hf] at hup

/-- Missing dies are reported, and both slots are read. -/
def slotsRead (d : RSlot) (s : State) : State := quadRead (slotAddr 1) 0x1000000 (quadRead (slotAddr 0) 0x1000000 (reportMissing d s))

theorem slotsRead_leaves (d : RSlot) (s : State) : (slotsRead d s).boot.hdr = s.boot.hdr ∧ (slotsRead d s).boot.slot = s.boot.slot ∧
    ∀ i, (slotsRead d s).accepted i = s.accepted i := by
  have h := slotFacts_reportMissing d s
  simp only [State.slotFacts, Prod.mk.injEq] at h
  obtain ⟨hhdr, hslot, htrial, hfuses, hflash⟩ := h
  refine ⟨hhdr, hslot, fun i => ?_⟩
  simp only [State.accepted, State.slotImage, show (slotsRead d s).fuses = s.fuses from hfuses, show (slotsRead d s).flash = s.flash from hflash]

/-- The header is written before the slot is loaded: the try is counted, or PENDING is dropped where none is left (R89). -/
def tryCounted (s : State) : State :=
  if 0 < s.boot.hdr.tries then
    writeHeader { s.boot.hdr with tries := s.boot.hdr.tries - 1 } .trial { s with boot := { s.boot with waitHdr := true } }
  else writeHeader { s.boot.hdr with pending := none } .drop { s with boot := { s.boot with waitHdr := true } }

section
variable {s : State} (hwait : s.boot.waitHdr = false)
include hwait

theorem exec_startLoad_active (hph : s.phase .f0 = 3) (hbus : s.hasBus .f0 = true) (hpend : s.boot.hdr.pending = none) :
    exec (.startLoad .f0) s = .next (settle (tryActive (slotsRead .f0 s))) := by
  have hread : (slotsRead .f0 s).boot.hdr.pending = none := by rw [(slotsRead_leaves .f0 s).1, hpend]
  show execStartLoad .f0 s = _
  refine (if_pos (by simp [State.hasRind, hph, hwait, hbus])).trans ((if_pos rfl).trans ?_)
  rw [show quadRead (slotAddr 1) 0x1000000 (quadRead (slotAddr 0) 0x1000000 (reportMissing .f0 s)) = slotsRead .f0 s from rfl, hread]

theorem exec_startLoad_pending {p : Nat} (hph : s.phase .f0 = 3) (hbus : s.hasBus .f0 = true) (hpend : s.boot.hdr.pending = some p) :
    exec (.startLoad .f0) s = .next (settle (tryCounted (slotsRead .f0 s))) := by
  have hread : (slotsRead .f0 s).boot.hdr.pending = some p := by rw [(slotsRead_leaves .f0 s).1, hpend]
  show execStartLoad .f0 s = _
  refine (if_pos (by simp [State.hasRind, hph, hwait, hbus])).trans ((if_pos rfl).trans ?_)
  rw [show quadRead (slotAddr 1) 0x1000000 (quadRead (slotAddr 0) 0x1000000 (reportMissing .f0 s)) = slotsRead .f0 s from rfl, hread]
  rfl

/-- F1 loads the slot that F0 runs. -/
theorem exec_startLoad_f1 {i : Nat} (hpart : s.part.f = 2) (hph : s.phase .f1 = 3) (hbus : s.hasBus .f1 = true) (hslot : s.boot.slot = some i) :
    exec (.startLoad .f1) s = .next (settle (match s.accepted i with
      | some img => runSlot .f1 i (slotsRead .f1 s).boot.trial img (slotsRead .f1 s)
      | none => slotsRead .f1 s)) := by
  obtain ⟨-, hread, hacc⟩ := slotsRead_leaves .f1 s
  show execStartLoad .f1 s = _
  refine (if_pos (by simp [State.hasRind, hpart, hph, hwait, hbus])).trans ((if_neg (by decide)).trans ?_)
  rw [show quadRead (slotAddr 1) 0x1000000 (quadRead (slotAddr 0) 0x1000000 (reportMissing .f1 s)) = slotsRead .f1 s from rfl, hread, hslot]
  simp only [Option.bind_some, hacc]
  cases s.accepted i <;> rfl

end

theorem tryActive_active {img : SlotImage} {s : State} (h : s.accepted s.boot.hdr.active = some img) :
    tryActive s = runSlot .f0 s.boot.hdr.active false img (noteChecked s.boot.hdr.active s) := by
  simp only [tryActive, h]

theorem tryActive_other {img : SlotImage} {s : State} (h : s.accepted s.boot.hdr.active = none) (hother : s.accepted (1 - s.boot.hdr.active) = some img) :
    tryActive s = runSlot .f0 (1 - s.boot.hdr.active) false img
      (raise .f0 0x023 [1 - s.boot.hdr.active] (noteChecked (1 - s.boot.hdr.active) (noteChecked s.boot.hdr.active s))) := by
  simp only [tryActive, h, hother]

theorem tryActive_none {s : State} (h : s.accepted s.boot.hdr.active = none) (hother : s.accepted (1 - s.boot.hdr.active) = none) :
    tryActive s = noImage (noteChecked (1 - s.boot.hdr.active) (noteChecked s.boot.hdr.active s)) := by
  simp only [tryActive, h, hother]

/-- In NOIMAGE REG_EN is low and the flash pins are released (R90). -/
theorem noImage_pins (s : State) : ∃ v, noImage s = setPhases 0xE v ∧ v.pins.regEn = false ∧ v.pins.sfDriven = false := by
  have hpins : (setRegEn false s).pins = { s.pins with regEn := false } := wrBoth_field State.pins (fun _ _ _ _ => rfl) ..
  exact ⟨releaseFlash (setRegEn false s), rfl, congrArg Pins.regEn hpins, rfl⟩

/-- The slots are tried in the order of R89: ACTIVE, then the other one, then none. -/
theorem tryActive_cases (s : State) : match s.accepted s.boot.hdr.active, s.accepted (1 - s.boot.hdr.active) with
    | some img, _ => tryActive s = runSlot .f0 s.boot.hdr.active false img (noteChecked s.boot.hdr.active s)
    | none, some img => tryActive s = runSlot .f0 (1 - s.boot.hdr.active) false img
        (raise .f0 0x023 [1 - s.boot.hdr.active] (noteChecked (1 - s.boot.hdr.active) (noteChecked s.boot.hdr.active s)))
    | none, none => ∃ v, tryActive s = setPhases 0xE v ∧ v.pins.regEn = false ∧ v.pins.sfDriven = false := by
  cases h : s.accepted s.boot.hdr.active with
  | some img => exact tryActive_active h
  | none =>
    cases hother : s.accepted (1 - s.boot.hdr.active) with
    | some img => exact tryActive_other h hother
    | none => rw [tryActive_none h hother]; exact noImage_pins _

/-- The slot that runs, as the start remembers it. -/
def slotTaken (d : RSlot) (i : Nat) (trial : Bool) (img : SlotImage) (s : State) : State :=
  { s with boot := { s.boot with
      slot := some i, trial := trial, waitHdr := false
      loaded := d :: s.boot.loaded.filter (· ≠ d), image := (d, img, []) :: s.boot.image.filter (fun p => p.1 ≠ d) } }

/-- The slot that runs, as BOOT_STAT shows it. -/
def slotShown (d : RSlot) (i : Nat) (trial : Bool) (img : SlotImage) (s : State) : State :=
  ((s.wrR d R.BOOT_STAT_SLOT i).wrR d R.BOOT_STAT_SVN img.svn).wrR d R.BOOT_STAT_TRIAL (bit trial)

theorem runSlot_eq (d : RSlot) (i : Nat) (trial : Bool) (img : SlotImage) (s : State) :
    runSlot d i trial img s = setPhase d 4 (slotTaken d i trial img (slotShown d i trial img (loadRindStore d img s))) := rfl

theorem regsWf_slotTaken {d : RSlot} {i : Nat} {trial : Bool} {img : SlotImage} {s : State} (hs : s.regsWf = true) :
    (slotTaken d i trial img s).regsWf = true := hs

theorem flash_slotTaken (d : RSlot) (i : Nat) (trial : Bool) (img : SlotImage) (s : State) : (slotTaken d i trial img s).flash = s.flash := rfl

theorem loadRindStore_leaves {d : RSlot} {img : SlotImage} {s : State} (hs : s.regsWf = true) :
    (loadRindStore d img s).regsWf = true ∧ (loadRindStore d img s).flash = s.flash :=
  ⟨State.regsWf_wrR (by simpa [State.regsWf] using hs), by cases d <;> rfl⟩

theorem slotShown_leaves {d : RSlot} {i : Nat} {trial : Bool} {img : SlotImage} {s : State} (hs : s.regsWf = true) :
    (slotShown d i trial img s).regsWf = true ∧ (slotShown d i trial img s).flash = s.flash :=
  ⟨State.regsWf_wrR (State.regsWf_wrR (State.regsWf_wrR hs)), rfl⟩

theorem runSlot_leads {d : RSlot} {i : Nat} {trial : Bool} {img : SlotImage} {s : State} (hs : s.regsWf = true) :
    (runSlot d i trial img s).boot.slot = some i ∧ (runSlot d i trial img s).boot.trial = trial ∧ d ∈ (runSlot d i trial img s).boot.loaded ∧
      (runSlot d i trial img s).rdR d R.BOOT_STAT_PHASE = 4 ∧ (runSlot d i trial img s).flash = s.flash := by
  obtain ⟨hload, hflash⟩ := loadRindStore_leaves (d := d) (img := img) hs
  obtain ⟨hshown, hkeep⟩ := slotShown_leaves (d := d) (i := i) (trial := trial) (img := img) hload
  rw [runSlot_eq]
  generalize slotShown d i trial img (loadRindStore d img s) = t at *
  refine ⟨rfl, rfl, List.mem_cons_self, State.rdR_wrR_self (regsWf_slotTaken hshown) (by decide), ?_⟩
  rw [setPhase, State.flash_wrR, flash_slotTaken, hkeep, hflash]

theorem exec_curdImageLoad {g : Nat} {p : RSlot × SlotImage × List SetRec} {s : State} (himg : s.boot.image.find? (fun p => p.1 = .f0) = some p)
    (hg : s.hasCurd g = true) (hup : s.linkUp (.curd g .f0) = true) (hload : s.bitC g R.CDIE_FCSTORE_LOADED = false) :
    exec (.curdImageLoad g) s = .next (settle (loadCurdStore g p.2.1 s)) := by
  show execCurdImageLoad g s = _
  unfold execCurdImageLoad
  rw [himg]
  exact if_pos ⟨hg, hup, by simp [hload]⟩

/-! ## A header is written (R79, R83, R191) -/

theorem sagStop_clean {s : State} (h : s.flash.sagged = false) : s.sagStop = (false, s) := by simp [State.sagStop, h]

theorem sagStop_sagged {s : State} (h : s.flash.sagged = true) : s.sagStop = (decide (s.fresh.1 % 2 = 1), s.fresh.2) := by simp [State.sagStop, h]

/-- The header copy is good, and the header is the one in use. -/
def headerTaken (k : Nat) (h : Header) (s : State) : State :=
  { s with flash := { s.flash.hdrCopy k h.bytes with op := none }, boot := { s.boot with hdr := h } }

/-- BOOT_STAT of every die shows the header written last (R100). -/
def headerInUse (k : Nat) (h : Header) (s : State) : State :=
  (headerTaken k h s).rinds.foldl (fun t d => showHeader d k h t) (headerTaken k h s)

theorem headerInUse_field {β : Type} (π : State → β) (hwr : ∀ t d f v, π (State.wrR t d f v) = π t) (k : Nat) (h : Header) (s : State) :
    π (headerInUse k h s) = π (headerTaken k h s) := foldl_field π fun _ _ => showHeader_field π hwr ..

theorem headerInUse_leaves (k : Nat) (h : Header) (s : State) : (headerInUse k h s).flash = { s.flash.hdrCopy k h.bytes with op := none } ∧
    (headerInUse k h s).boot.hdr = h ∧ (headerInUse k h s).cmds = s.cmds ∧ (headerInUse k h s).out = s.out ∧ (headerInUse k h s).free = s.free :=
  ⟨headerInUse_field State.flash (fun _ _ _ _ => rfl) .., congrArg Boot.hdr (headerInUse_field State.boot (fun _ _ _ _ => rfl) ..),
    headerInUse_field State.cmds (fun _ _ _ _ => rfl) .., headerInUse_field State.out (fun _ _ _ _ => rfl) ..,
    headerInUse_field State.free (fun _ _ _ _ => rfl) ..⟩

/-- The activation that waited for the header completes, with the version that it has made pending (R201). -/
def activated (h : Header) (port tag : Nat) (s : State) : State :=
  endCommand port tag St.success (((h.pending.bind s.slotImage).map SlotImage.version).getD 0) s

section
variable {k port tag : Nat} {h : Header} {again : Bool} {why : HdrWhy} {s : State}

theorem exec_headerWriteDone_activate (hop : s.flash.op = some (.header k h again (.activate port tag))) :
    exec (.headerWriteDone true) s = .next (settle (if s.sagStop.1 = true then stopHeader k port tag s.sagStop.2
      else beginHeaderWrite (activated h port tag (headerInUse k h s.sagStop.2)))) := by
  have hversion (t : State) : (match h.pending.bind t.slotImage with
      | some img => img.version
      | none => 0) = ((h.pending.bind t.slotImage).map SlotImage.version).getD 0 := by cases h.pending.bind t.slotImage <;> rfl
  show execHeaderWriteDone true s = _
  unfold execHeaderWriteDone activated
  rw [hop, ← hversion]
  cases hstop : s.sagStop.1 with
  | true => exact (if_pos (.inl hstop)).trans rfl
  | false => exact (if_neg (by simp [HdrWhy.cmd, hstop])).trans rfl

/-- VIN is still low where the first attempt reads back bad: there is no second. -/
theorem exec_headerWriteDone_stopped (hop : s.flash.op = some (.header k h false (.activate port tag))) (hsag : s.pins.sagPause = true) :
    exec (.headerWriteDone false) s = .next (settle (stopHeader k port tag s.sagStop.2)) := by
  have hpins : s.sagStop.2.pins = s.pins := by unfold State.sagStop; split <;> rfl
  show execHeaderWriteDone false s = _
  unfold execHeaderWriteDone
  rw [hop]
  exact (if_pos (.inr ⟨rfl, rfl, rfl, (congrArg Pins.sagPause hpins).trans hsag⟩)).trans rfl

theorem exec_headerWriteDone_trial (hop : s.flash.op = some (.header k h again .trial)) :
    exec (.headerWriteDone true) s = .next (settle (beginHeaderWrite (tryPending (headerInUse k h s)))) := by
  show execHeaderWriteDone true s = _
  unfold execHeaderWriteDone
  rw [hop]
  exact (if_neg (by simp [HdrWhy.cmd])).trans rfl

/-- The second attempt of a commit reads back bad. -/
theorem exec_headerWriteDone_commit (hop : s.flash.op = some (.header k h true .commit)) :
    exec (.headerWriteDone false) s =
      .next (settle (beginHeaderWrite (raise s.senior 0x027 [k] { s with flash := { s.flash.hdrCopy k [] with op := none } }))) := by
  show execHeaderWriteDone false s = _
  unfold execHeaderWriteDone
  rw [hop]
  exact (if_neg (by simp [HdrWhy.cmd])).trans rfl

/-- A first attempt that reads back bad is made again at once where VIN permits it. -/
theorem exec_headerWriteDone_again (hop : s.flash.op = some (.header k h false why)) (hsag : s.flash.sagged = false) (hpause : s.pins.sagPause = false) :
    exec (.headerWriteDone false) s = .next (startOp (.header k h true why) { s with flash := s.flash.hdrCopy k [] }) := by
  have hstop : (if why.cmd.isSome then s.sagStop else (false, s)) = (false, s) := by rw [sagStop_clean hsag, ite_self]
  show execHeaderWriteDone false s = _
  unfold execHeaderWriteDone
  rw [hop]
  simp only [hstop, hpause, againOp]
  simp

end

theorem headerWriteDone_activates {k port tag : Nat} {h : Header} {again : Bool} {s : State}
    (hop : s.flash.op = some (.header k h again (.activate port tag))) (hsag : s.flash.sagged = false) :
    ∃ v, v.flash = { s.flash.hdrCopy k h.bytes with op := none } ∧ v.boot.hdr = h ∧ v.cmds = s.cmds ∧ v.out = s.out ∧
      exec (.headerWriteDone true) s = .next (settle (beginHeaderWrite (endCommand port tag St.success
        (((h.pending.bind v.slotImage).map SlotImage.version).getD 0) v))) := by
  obtain ⟨hflash, hhdr, hcmds, hout, -⟩ := headerInUse_leaves k h s
  refine ⟨headerInUse k h s, hflash, hhdr, hcmds, hout, ?_⟩
  rw [exec_headerWriteDone_activate hop, sagStop_clean hsag]
  rfl

/-- VIN fell while the header was written: a free value says whether before the last erase or program. -/
theorem headerWriteDone_sagged {k port tag : Nat} {h : Header} {again : Bool} {s : State}
    (hop : s.flash.op = some (.header k h again (.activate port tag))) (hsag : s.flash.sagged = true) :
    ∃ v, v.flash = { s.flash.hdrCopy k h.bytes with op := none } ∧ v.boot.hdr = h ∧ v.cmds = s.cmds ∧ v.out = s.out ∧ v.free = s.free + 1 ∧
      exec (.headerWriteDone true) s = .next (settle (if s.fresh.1 % 2 = 1 then stopHeader k port tag s.fresh.2
        else beginHeaderWrite (endCommand port tag St.success (((h.pending.bind v.slotImage).map SlotImage.version).getD 0) v))) := by
  obtain ⟨hflash, hhdr, hcmds, hout, hfree⟩ := headerInUse_leaves k h s.fresh.2
  refine ⟨headerInUse k h s.fresh.2, hflash, hhdr, hcmds, hout, hfree, ?_⟩
  rw [exec_headerWriteDone_activate hop, sagStop_sagged hsag]
  simp only [decide_eq_true_eq, activated]

theorem headerWriteDone_trial {k : Nat} {h : Header} {again : Bool} {s : State} (hop : s.flash.op = some (.header k h again .trial)) :
    ∃ v, v.flash = { s.flash.hdrCopy k h.bytes with op := none } ∧ v.boot.hdr = h ∧ v.cmds = s.cmds ∧ v.out = s.out ∧
      exec (.headerWriteDone true) s = .next (settle (beginHeaderWrite (tryPending v))) := by
  obtain ⟨hflash, hhdr, hcmds, hout, -⟩ := headerInUse_leaves k h s
  exact ⟨headerInUse k h s, hflash, hhdr, hcmds, hout, exec_headerWriteDone_trial hop⟩

theorem headerWriteDone_again {k : Nat} {h : Header} {why : HdrWhy} {s : State} (hop : s.flash.op = some (.header k h false why))
    (hsag : s.flash.sagged = false) (hpause : s.pins.sagPause = false) :
    ∃ t, exec (.headerWriteDone false) s = .next t ∧ t.flash = { s.flash.hdrCopy k [] with op := some (.header k h true why), sagged := false } ∧
      t.out = .flash (.header k h true why) (hdrAddr k) :: s.out ∧ t.regs = s.regs ∧ t.boot = s.boot :=
  ⟨_, exec_headerWriteDone_again hop hsag hpause, by rw [← hpause]; rfl, rfl, rfl, rfl⟩

/-- Settles O7: the header and the slot by what is read and what a die then shows; a header write by whether it reads back, and whether VIN stopped it. -/
theorem startFromFlash : Obligations.StartFromFlash := by
  refine ⟨fun _ _ _ => startHeader_f0, fun s hpor hreset hhold hph hbus hhdr => ⟨headersRead s, rfl, exec_startHeader_none hpor hreset hhold hph hbus hhdr⟩,
    fun k h s hpart hpor hreset hhold hph hf0 hbus hhdr hs => ?_,
    fun s hph hwait hbus hpend => ⟨slotsRead .f0 s, rfl, exec_startLoad_active hwait hph hbus hpend⟩,
    fun p s hph hwait hbus hpend => ⟨slotsRead .f0 s, rfl, exec_startLoad_pending hwait hph hbus hpend⟩,
    fun i s hpart hph hwait hbus hslot => ⟨slotsRead .f1 s, rfl, exec_startLoad_f1 hwait hpart hph hbus hslot⟩,
    fun _ _ => reportMissing_none, tryActive_cases, fun d i trial img s hs => ⟨_, rfl, runSlot_leads hs⟩, fun _ _ _ => exec_curdImageLoad,
    fun _ _ _ _ => headerWriteDone_again, fun k h s hop => ⟨_, rfl, exec_headerWriteDone_commit hop⟩, fun _ _ _ _ _ _ => headerWriteDone_activates,
    fun _ _ _ _ _ _ => headerWriteDone_sagged, fun k port tag h s hop hsag hpause => ?_, fun _ => Header.ofBytes_bytes,
    fun _ _ _ _ => headerWriteDone_trial⟩
  · exact ⟨_, exec_startHeader_f1 hpor hreset hhold hpart hph hf0 hbus hhdr, headerFollowed_shows hs⟩
  · rw [exec_headerWriteDone_stopped hop hpause, sagStop_sagged hsag]

end Sys2Proof.Machine
end

section
/-! A command that is admitted, and SET_FEATURES with the settings copies it writes: O19. -/

namespace Sys2Proof.Machine

/-! ## A command that is admitted (R188, R209) -/

theorem admitIf_ready {p : Nat} {sel : Cmd → Bool} {f : Cmd → State → State} {c : Cmd} {s : State} (h : s.Ready p c) (hsel : sel c = true) :
    admitIf p sel f s = settle (showSched (showPort p (f c s))) := by
  obtain ⟨⟨hnext, hrun, hfail⟩, hadm⟩ := h
  simp only [admitIf, admitWith, hnext, hsel, if_true, hrun, hfail, hadm]
  simp

/-! ## SET_FEATURES (R195, R198, R199) -/

theorem Cmd.sets_of_fid {c : Cmd} {fid : Nat} (hop : c.op = 0x83) (hfid : c.fld 8 1 = fid) : c.sets fid = true := by
  simp [Cmd.sets, hop, hfid]

/-- The fields of a feature with the values that a command gives them. -/
def Cmd.featureVals (c : Cmd) : List (Fld × Nat) := (featureFields (c.fld 8 1) (c.fld 0xA 2)).map (fun x => (x.2.2, c.fld (0x10 + x.1) x.2.1))

/-- The first four bytes of the value that the feature has, which the command reports. -/
def State.featureBefore (s : State) (c : Cmd) : Nat := leNat ((s.featureValue (c.fld 8 1) (c.fld 0xA 2) 0).take 4)

theorem setFields_now {c : Cmd} {s : State} (h : c.flag 6 = false) :
    setFields c s = finishAt c St.success (s.featureBefore c) (applyVals c.featureVals s) := by
  unfold setFields
  exact if_pos (by simp [h])

theorem setFields_locked {c : Cmd} {s : State} (h : c.flag 6 = true) (hkey : s.fuses.ownerKey = true) : setFields c s = finishAt c St.settingsLocked 0 s := by
  have hstop : s.flashStop true = some St.settingsLocked := by simp [State.flashStop, hkey]
  unfold setFields
  dsimp only
  rw [if_neg (by simp [h]), hstop]

/-- The records with the new values in them. -/
def featureRecords (c : Cmd) (s : State) : List SetRec :=
  if c.fld 8 1 = 0x06 then putSeverity (c.fld 0xA 2, c.fld 0x10 1, decide (c.fld 0x11 1 = 1), c.fld 0x12 2, c.fld 0x14 4) s.boot.records
  else putFields (featureRecord (c.fld 8 1)) c.featureVals s.boot.records

/-- The command is admitted, and remembers what it will report. -/
def saveAdmitted (c : Cmd) (s : State) : State := modCmd c.uid (fun x => { x with info := s.featureBefore c }) (admitCmd c s)

theorem setFields_saves {c : Cmd} {s : State} (h : c.flag 6 = true) (hstop : s.flashStop true = none) (hop : s.flash.op = none) :
    setFields c s = saveRecords c (featureRecords c s) (if c.fld 8 1 = 0x04 then [] else c.featureVals) (saveAdmitted c s) := by
  unfold setFields
  dsimp only
  rw [if_neg (by simp [h]), hstop]
  simp only [hop]
  rfl

/-- The new copy is programmed into the place that is not in use, its number one ahead (R84). -/
theorem saveRecords_begins (c : Cmd) (records : List SetRec) (vals : List (Fld × Nat)) (s : State) :
    ∃ st, (saveRecords c records vals s).flash.op = some (.settings (1 - s.boot.setCopy) st vals c.port c.tag false) ∧
      st.sseq = (s.boot.sseq + 1) % 2 ^ 32 ∧ (saveRecords c records vals s).regs = s.regs ∧ (saveRecords c records vals s).boot = s.boot :=
  ⟨_, rfl, rfl, rfl, rfl⟩

theorem setFields_begins {c : Cmd} {s : State} (h : c.flag 6 = true) (hstop : s.flashStop true = none) (hop : s.flash.op = none) :
    ∃ st vals, (setFields c s).flash.op = some (.settings (1 - s.boot.setCopy) st vals c.port c.tag false) ∧ st.sseq = (s.boot.sseq + 1) % 2 ^ 32 ∧
      (setFields c s).regs = s.regs ∧ (c.fld 8 1 = 4 → vals = []) ∧ (setFields c s).boot = s.boot := by
  obtain ⟨st, hflash, hseq, hregs, hboot⟩ := saveRecords_begins c (featureRecords c s) (if c.fld 8 1 = 0x04 then [] else c.featureVals) (saveAdmitted c s)
  rw [setFields_saves h hstop hop]
  exact ⟨st, _, hflash, hseq, hregs, fun hwin => if_pos hwin, hboot⟩

/-- A field stored on each die of a list is read on each of them. -/
theorem rdR_foldl_wrR {f : Fld} {v : Nat} {ts : List RSlot} {s : State} {d : RSlot} (hs : s.regsWf = true) (hf : f.Ok) (hts : ts.Nodup) (hd : d ∈ ts) :
    (ts.foldl (fun t e => t.wrR e f v) s).rdR d f = v % 2 ^ (f.hi + 1 - f.lo) := by
  have hword : (storeOn (fun e => regKey e.code f.off) (fun t e => f.put v (t.word (regKey e.code f.off))) ts s).word (regKey d.code f.off) =
      f.put v (s.word (regKey d.code f.off)) :=
    storeOn_word_of_mem (fun _ _ h => regKey_code_inj h)
      (fun t _ _ w hne => congrArg (f.put v) (State.word_setWord_other fun hkey => hne (regKey_code_inj hkey))) hs hts hd
  exact (congrArg f.get hword).trans (Fld.get_put_self f v _ ⟨hf.1, hf.2.1⟩)

/-! ## The settings copy is written (R84, R191, R198) -/

theorem applyVolume_none {good : Bool} {s : State} (h : s.xlat.pendingVol = none) : applyVolume good s = (none, s) := by
  rw [applyVolume, h]

/-- The new copy is the one in use. -/
def settingsTaken (k : Nat) (st : Settings) (s : State) : State :=
  { s with flash := { s.flash.setCopy k (some st) with op := none }, boot := { s.boot with records := st.records, setCopy := k, sseq := st.sseq } }

/-- The new copy is shown, and its values apply. -/
def settingsInUse (k : Nat) (st : Settings) (vals : List (Fld × Nat)) (s : State) : State :=
  applyVals vals (wrBoth R.BOOT_STAT_SETCOPY k (settingsTaken k st s))

theorem applyVals_field {β : Type} (π : State → β) (hwr : ∀ t d f v, π (State.wrR t d f v) = π t) (vals : List (Fld × Nat)) (s : State) :
    π (applyVals vals s) = π s :=
  foldl_field π fun _ _ => (foldl_field π fun _ _ => by
    split
    · exact hwr ..
    · rfl).trans (foldl_field π fun _ _ => hwr ..)

theorem settingsInUse_field {β : Type} (π : State → β) (hwr : ∀ t d f v, π (State.wrR t d f v) = π t) (k : Nat) (st : Settings) (vals : List (Fld × Nat))
    (s : State) : π (settingsInUse k st vals s) = π (settingsTaken k st s) := (applyVals_field π hwr ..).trans (wrBoth_field π hwr ..)

/-- What a write that has gone well answers: a volume change may have no room left (R197). -/
def saveAnswered (port tag info : Nat) (r : Option (Nat × Nat) × State) : State :=
  match r.1 with
  | some x => endCommand port tag x.1 x.2 r.2
  | none => endCommand port tag St.success info r.2

/-- The flash is free again, and the settings are as they were. -/
def saveOver (s : State) : State := { s with flash := { s.flash with op := none } }

/-- A write that went wrong: the settings stay, and a volume change that waited is given up. -/
def saveLost (s : State) : State := (applyVolume false (saveOver s)).2

theorem saveLost_none {s : State} (hvol : s.xlat.pendingVol = none) : saveLost s = saveOver s := by
  rw [saveLost, applyVolume_none (s := saveOver s) hvol]

theorem applyVolume_settingsInUse {k : Nat} {st : Settings} {vals : List (Fld × Nat)} {s : State} (hvol : s.xlat.pendingVol = none) :
    applyVolume true (settingsInUse k st vals s) = (none, settingsInUse k st vals s) :=
  applyVolume_none ((congrArg Xlat.pendingVol (settingsInUse_field State.xlat (fun _ _ _ _ => rfl) ..)).trans hvol)

section
variable {k port tag : Nat} {st : Settings} {vals : List (Fld × Nat)} {again : Bool} {s : State}

/-- A good read-back: the write counts, unless VIN stopped it. -/
theorem exec_settingsSaveDone_good (hop : s.flash.op = some (.settings k st vals port tag again)) :
    exec (.settingsSaveDone true) s = .next (settle (beginHeaderWrite (if s.sagStop.1 = true then endCommand port tag St.retryLater 0 (saveLost s.sagStop.2)
      else saveAnswered port tag (((s.cmdOf port tag).map Cmd.info).getD 0) (applyVolume true (settingsInUse k st vals s.sagStop.2))))) := by
  show execSettingsSaveDone true s = _
  unfold execSettingsSaveDone
  rw [hop]
  cases hstop : s.sagStop.1 with
  | true => exact (if_pos (.inl hstop)).trans rfl
  | false => exact (if_neg (by simp [hstop])).trans rfl

/-- The second attempt reads back bad. -/
theorem exec_settingsSaveDone_failed (hop : s.flash.op = some (.settings k st vals port tag true)) :
    exec (.settingsSaveDone false) s = .next (settle (beginHeaderWrite
      (endCommand port tag (if s.sagStop.1 = true then St.retryLater else St.saveFailed) 0 (saveLost s.sagStop.2)))) := by
  show execSettingsSaveDone false s = _
  unfold execSettingsSaveDone
  rw [hop]
  cases hstop : s.sagStop.1 with
  | true => exact (if_pos (.inl hstop)).trans rfl
  | false => exact (if_neg (by simp [hstop])).trans rfl

theorem settingsSaveDone_succeeds (hop : s.flash.op = some (.settings k st vals port tag again)) (hvol : s.xlat.pendingVol = none)
    (hsag : s.flash.sagged = false) :
    ∃ v, v.boot.records = st.records ∧ v.boot.setCopy = k ∧ v.boot.sseq = st.sseq ∧ v.flash = { s.flash.setCopy k (some st) with op := none } ∧
      v.cmds = s.cmds ∧ exec (.settingsSaveDone true) s =
        .next (settle (beginHeaderWrite (endCommand port tag St.success (((s.cmdOf port tag).map Cmd.info).getD 0) v))) := by
  have hboot : (settingsInUse k st vals s).boot = (settingsTaken k st s).boot := settingsInUse_field State.boot (fun _ _ _ _ => rfl) ..
  refine ⟨settingsInUse k st vals s, by rw [hboot]; rfl, by rw [hboot]; rfl, by rw [hboot]; rfl,
    settingsInUse_field State.flash (fun _ _ _ _ => rfl) .., settingsInUse_field State.cmds (fun _ _ _ _ => rfl) .., ?_⟩
  rw [exec_settingsSaveDone_good hop, sagStop_clean hsag, applyVolume_settingsInUse hvol]
  rfl

/-- A first attempt that reads back bad is made again at once where VIN permits it. -/
theorem settingsSaveDone_again (hop : s.flash.op = some (.settings k st vals port tag false)) (hsag : s.flash.sagged = false)
    (hpause : s.pins.sagPause = false) : exec (.settingsSaveDone false) s = .next { s with
      flash := { s.flash with op := some (.settings k st vals port tag true), sagged := false }
      out := .flash (.settings k st vals port tag true) (setAddr k) :: s.out } := by
  show execSettingsSaveDone false s = _
  unfold execSettingsSaveDone
  rw [hop]
  simp only [sagStop_clean hsag, hpause, againOp, startOp]
  simp [State.emit, FlashOp.addr]

/-- VIN fell while the copy was written: a free value says whether before the last erase or program. -/
theorem settingsSaveDone_sagged (hop : s.flash.op = some (.settings k st vals port tag again)) (hvol : s.xlat.pendingVol = none)
    (hsag : s.flash.sagged = true) :
    ∃ v w, v.cmds = s.cmds ∧ v.boot = s.boot ∧ v.flash = { s.flash with op := none } ∧ v.free = s.free + 1 ∧
      w.cmds = s.cmds ∧ w.boot.records = st.records ∧ w.boot.setCopy = k ∧ w.flash = { s.flash.setCopy k (some st) with op := none } ∧
      exec (.settingsSaveDone true) s = .next (settle (beginHeaderWrite (if s.fresh.1 % 2 = 1 then endCommand port tag St.retryLater 0 v
        else endCommand port tag St.success (((s.cmdOf port tag).map Cmd.info).getD 0) w))) := by
  have hboot : (settingsInUse k st vals s.fresh.2).boot = (settingsTaken k st s.fresh.2).boot := settingsInUse_field State.boot (fun _ _ _ _ => rfl) ..
  refine ⟨saveOver s.fresh.2, settingsInUse k st vals s.fresh.2, rfl, rfl, rfl, rfl, settingsInUse_field State.cmds (fun _ _ _ _ => rfl) ..,
    by rw [hboot]; rfl, by rw [hboot]; rfl, settingsInUse_field State.flash (fun _ _ _ _ => rfl) .., ?_⟩
  rw [exec_settingsSaveDone_good hop, sagStop_sagged hsag, applyVolume_settingsInUse (s := s.fresh.2) hvol, saveLost_none (s := s.fresh.2) hvol]
  simp only [decide_eq_true_eq, saveAnswered]

end

/-- Settles O19: a value applies at once or by way of a settings copy; a copy counts by whether it reads back, and whether VIN stopped its write. -/
theorem settingFeatures : Obligations.SettingFeatures := by
  refine ⟨fun p c s h hop => ?_, fun c s => ⟨fun hflag => ⟨c.featureVals, _, by simp [Cmd.featureVals], setFields_now hflag⟩, setFields_locked, setFields_begins⟩,
    fun v s hs d hd => rdR_foldl_wrR (f := R.BUDGET_CAP_PCAP) hs (by decide) s.serving_nodup hd, fun _ _ _ _ _ _ _ => settingsSaveDone_succeeds,
    fun _ _ _ _ _ _ => settingsSaveDone_again, fun _ _ _ _ _ _ _ => settingsSaveDone_sagged,
    fun k st vals port tag s hop hvol hsag => ⟨saveOver s.fresh.2, rfl, rfl, rfl, rfl, ?_⟩, fun k st vals port tag s hop hvol hsag => ?_⟩
  · have hready {fid : Nat} (f : Cmd → State → State) (hfid : c.fld 8 1 = fid) :
        Host.Outcome.next (admitIf p (fun c => c.sets fid) f s) = (.next (settle (showSched (showPort p (f c s)))) : Host.Outcome State Fault Refusal) :=
      congrArg Host.Outcome.next (admitIf_ready h (Cmd.sets_of_fid hop hfid))
    exact ⟨hready setFields, hready setFields, hready setFields, hready setFields, hready setFields, hready setFields,
      hready fun c s => finishAt c St.success 0 (inStep unlatch s)⟩
  · rw [exec_settingsSaveDone_failed hop, sagStop_sagged hsag, saveLost_none (s := s.fresh.2) hvol]
    simp only [decide_eq_true_eq]
  · rw [exec_settingsSaveDone_failed hop, sagStop_clean hsag, saveLost_none hvol]
    rfl

end Sys2Proof.Machine
end

section
/-! Firmware download and activation: O21. -/

namespace Sys2Proof.Machine

/-! ## FW_DOWNLOAD (R190, R191, R200) -/

section
variable {p : Nat} {c : Cmd} {data : List Byte} {s : State}

/-- FW_DOWNLOAD that is next in line for its port: what the command itself does, by the checks it makes. -/
def downloadBody (port : Nat) (data : List Byte) (c : Cmd) (s : State) : State :=
  match s.flashStop false with
  | some st => finishAt c st 0 s
  | none =>
    if s.session.any (fun x => decide (s.portDomain x.port ≠ s.domOf c)) = true then
      finishAt c St.fwBusy ((s.session.map (fun x => s.portDomain x.port)).getD 0) s
    else if c.fld 8 4 ≠ 0 ∧ s.session.map FwSession.next ≠ some (c.fld 8 4) then
      finishAt c St.fwSequence ((s.session.map FwSession.next).getD 0) s
    else if s.flash.op.isSome = true then s
    else
      let s := modCmd c.uid (fun x => { x with flash := true }) (admitCmd c s)
      let s := if c.fld 8 4 = 0 then { s with session := some ⟨port, 0, s.now, s.targetSlot⟩ } else s
      if c.fld 8 4 = 0 ∧ s.boot.hdr.pending = some s.targetSlot then
        writeHeader { s.boot.hdr with pending := none } (.download (readRegion data 0 (c.fld 0xC 4)) c.port c.tag) s
      else beginChunk (c.fld 8 4) (readRegion data 0 (c.fld 0xC 4)) c.port c.tag s

theorem exec_fwDownload (h : s.Ready p c) (hop : c.op = 0x84) :
    exec (.fwDownload p data) s = .next (settle (showSched (showPort p (downloadBody p data c s)))) :=
  congrArg Host.Outcome.next (admitIf_ready (f := downloadBody p data) h (by simp [hop]))

theorem downloadBody_stopped {st : Nat} (hstop : s.flashStop false = some st) : downloadBody p data c s = finishAt c st 0 s := by
  simp only [downloadBody, hstop]

/-- The command is admitted, and may write the flash. -/
def flashAdmitted (c : Cmd) (s : State) : State := modCmd c.uid (fun x => { x with flash := true }) (admitCmd c s)

/-- The first chunk opens a session on the slot that is not running. -/
def sessionOpened (port : Nat) (c : Cmd) (s : State) : State := { flashAdmitted c s with session := some ⟨port, 0, s.now, s.targetSlot⟩ }

theorem downloadBody_opens (hstop : s.flashStop false = none) (hop : s.flash.op = none) (hoff : c.fld 8 4 = 0)
    (hdom : ∀ x, s.session = some x → s.portDomain x.port = s.domOf c) :
    downloadBody p data c s = if s.boot.hdr.pending = some s.targetSlot then
      writeHeader { s.boot.hdr with pending := none } (.download (readRegion data 0 (c.fld 0xC 4)) c.port c.tag) (sessionOpened p c s)
      else beginChunk 0 (readRegion data 0 (c.fld 0xC 4)) c.port c.tag (sessionOpened p c s) := by
  have hown : s.session.any (fun x => decide (s.portDomain x.port ≠ s.domOf c)) = false := by
    cases hx : s.session with
    | none => rfl
    | some x => simp [hdom x hx]
  unfold downloadBody
  simp only [hstop, hown, hop]
  rw [if_neg (by simp), if_neg (by simp [hoff]), if_neg (by simp), hoff]
  simp only [if_true, true_and]
  rfl

section
variable {x : FwSession} (hstop : s.flashStop false = none) (hx : s.session = some x)
include hstop hx

theorem downloadBody_busy (hdom : s.portDomain x.port ≠ s.domOf c) :
    downloadBody p data c s = finishAt c St.fwBusy (s.portDomain x.port) s := by
  simp [downloadBody, hstop, hx, hdom]

theorem downloadBody_sequence (hdom : s.portDomain x.port = s.domOf c) (hoff : c.fld 8 4 ≠ 0) (hnext : x.next ≠ c.fld 8 4) :
    downloadBody p data c s = finishAt c St.fwSequence x.next s := by
  simp [downloadBody, hstop, hx, hdom, hoff, hnext]

theorem downloadBody_continues (hdom : s.portDomain x.port = s.domOf c) (hoff : c.fld 8 4 ≠ 0) (hnext : x.next = c.fld 8 4) (hop : s.flash.op = none) :
    downloadBody p data c s = beginChunk (c.fld 8 4) (readRegion data 0 (c.fld 0xC 4)) c.port c.tag (flashAdmitted c s) := by
  simp [downloadBody, flashAdmitted, hstop, hx, hdom, hoff, hnext, hop]

end

end

/-! ## A chunk is programmed (R191, R200) -/

theorem Flash.slot_putSlot (f : Flash) (i : Nat) (l : List Byte) : (f.putSlot i l).slot i = l := by
  by_cases h : i = 0 <;> simp [Flash.putSlot, Flash.slot, h]

/-- Where VIN permits it the chunk's blocks are erased and its program begins. -/
theorem beginChunk_begins {off port tag : Nat} {data : List Byte} {s : State} (hpause : s.pins.sagPause = false) :
    (beginChunk off data port tag s).flash.op = some (.chunk off data port tag) ∧ (beginChunk off data port tag s).flash.sagged = false ∧
      (beginChunk off data port tag s).out = .flash (.chunk off data port tag) (slotAddr s.targetSlot + off) :: s.out ∧
      (beginChunk off data port tag s).flash.slot s.targetSlot =
        programChunk (s.flash.slot s.targetSlot) off (List.replicate data.length 0xFF) := by
  unfold beginChunk
  rw [if_neg (by simp [hpause])]
  exact ⟨rfl, hpause, rfl, Flash.slot_putSlot ..⟩

/-- The slot that the session's chunks go to. -/
def State.chunkSlot (s : State) : Nat := (s.session.map FwSession.slot).getD s.targetSlot

/-- The first `n` bytes of a chunk are in the slot, and the session goes on after them. -/
def chunkPut (slot off n : Nat) (data : List Byte) (s : State) : State :=
  { s with
    flash := s.flash.putSlot slot (programChunk (s.flash.slot slot) off (data.take n ++ List.replicate (data.length - n) 0xFF))
    session := s.session.map (fun x => { x with next := off + n, since := s.now }) }

/-- The bytes that were accepted: all of them, or where VIN fell in the chunk's course as many as a free value says. -/
def chunkAccepted (len : Nat) (s : State) : Nat × State :=
  let r := if s.flash.sagged then s.fresh else (len, s)
  (if s.flash.sagged then min len (65536 * (r.1 % (ceilDiv len 65536 + 1))) else len, r.2)

theorem chunkAccepted_clean {len : Nat} {s : State} (hsag : s.flash.sagged = false) : chunkAccepted len s = (len, s) := by
  simp [chunkAccepted, hsag]

theorem chunkAccepted_sagged {len : Nat} {s : State} (hsag : s.flash.sagged = true) :
    chunkAccepted len s = (min len (65536 * (s.fresh.1 % (ceilDiv len 65536 + 1))), s.fresh.2) := by
  simp [chunkAccepted, hsag]

/-- How a chunk ends of which `r.1` bytes were accepted. -/
def chunkEnds (good : Bool) (slot off port tag : Nat) (data : List Byte) (r : Nat × State) : Host.Outcome State Fault Refusal :=
  if r.1 < data.length then .next (settle (beginHeaderWrite (endCommand port tag St.retryLater r.1 (chunkPut slot off r.1 data r.2))))
  else if good then .next (settle (beginHeaderWrite (endCommand port tag St.success 0 (chunkPut slot off data.length data r.2))))
  else .next (settle (beginHeaderWrite (endCommand port tag St.saveFailed 0 r.2)))

section
variable {off port tag : Nat} {data : List Byte} {x : FwSession} {s : State}

theorem exec_fwChunkProgrammed (good : Bool) (hop : s.flash.op = some (.chunk off data port tag)) :
    exec (.fwChunkProgrammed good) s = chunkEnds good s.chunkSlot off port tag data (chunkAccepted data.length (saveOver s)) := by
  show execFwChunkProgrammed good s = _
  unfold execFwChunkProgrammed
  rw [hop]
  rfl

theorem State.chunkSlot_session (hx : s.session = some x) : s.chunkSlot = x.slot := by
  simp [State.chunkSlot, hx]

theorem chunkPut_session {slot n : Nat} (hx : s.session = some x) :
    (chunkPut slot off n data s).session = some { x with next := off + n, since := s.now } := by
  simp [chunkPut, hx]

/-- The whole chunk in the slot, with the flash free again. -/
theorem chunkPut_flash {slot : Nat} : (chunkPut slot off data.length data (saveOver s)).flash =
    { s.flash.putSlot slot (programChunk (s.flash.slot slot) off data) with op := none } := by
  have hdata : data.take data.length ++ List.replicate (data.length - data.length) 0xFF = data := by simp
  simp only [chunkPut, hdata]
  by_cases h : slot = 0 <;> simp [Flash.putSlot, Flash.slot, saveOver, h]

theorem chunkPut_slot {slot n : Nat} : (chunkPut slot off n data s).flash.slot slot =
    programChunk (s.flash.slot slot) off (data.take n ++ List.replicate (data.length - n) 0xFF) := Flash.slot_putSlot ..

theorem chunkPut_op {slot n : Nat} : (chunkPut slot off n data s).flash.op = s.flash.op := by
  by_cases h : slot = 0 <;> simp [chunkPut, Flash.putSlot, h]

theorem fwChunkProgrammed_succeeds (hop : s.flash.op = some (.chunk off data port tag)) (hx : s.session = some x) (hsag : s.flash.sagged = false) :
    ∃ v, v.session = some { x with next := off + data.length, since := s.now } ∧ v.cmds = s.cmds ∧
      v.flash = { s.flash.putSlot x.slot (programChunk (s.flash.slot x.slot) off data) with op := none } ∧
      exec (.fwChunkProgrammed true) s = .next (settle (beginHeaderWrite (endCommand port tag St.success 0 v))) := by
  refine ⟨chunkPut x.slot off data.length data (saveOver s), chunkPut_session (s := saveOver s) hx, rfl, chunkPut_flash, ?_⟩
  rw [exec_fwChunkProgrammed true hop, chunkAccepted_clean (s := saveOver s) hsag, State.chunkSlot_session hx]
  exact if_neg (Nat.lt_irrefl _)

theorem fwChunkProgrammed_fails (hop : s.flash.op = some (.chunk off data port tag)) (hsag : s.flash.sagged = false) :
    exec (.fwChunkProgrammed false) s = .next (settle (beginHeaderWrite (endCommand port tag St.saveFailed 0 (saveOver s)))) := by
  rw [exec_fwChunkProgrammed false hop, chunkAccepted_clean (s := saveOver s) hsag]
  exact if_neg (Nat.lt_irrefl _)

/-- A chunk in whose course VIN fell: it ends part way, or goes by its read-back where the last block had begun. -/
theorem chunkEnds_part (slot n : Nat) (hn : n ≤ data.length) (good : Bool) :
    chunkEnds good slot off port tag data (n, s) = .next (settle (beginHeaderWrite (
      if n < data.length then endCommand port tag St.retryLater n (chunkPut slot off n data s)
      else if good then endCommand port tag St.success 0 (chunkPut slot off n data s) else endCommand port tag St.saveFailed 0 s))) := by
  rcases hn.lt_or_eq with h | rfl
  · rw [chunkEnds, if_pos h, if_pos h]
  · rw [chunkEnds, if_neg (Nat.lt_irrefl _), if_neg (Nat.lt_irrefl _)]
    cases good <;> rfl

theorem fwChunkProgrammed_sagged {n : Nat} (hop : s.flash.op = some (.chunk off data port tag)) (hx : s.session = some x)
    (hsag : s.flash.sagged = true) (hn : n = min data.length (65536 * (s.fresh.1 % (ceilDiv data.length 65536 + 1)))) :
    ∃ v w, v.session = some { x with next := off + n, since := s.now } ∧ v.cmds = s.cmds ∧ v.free = s.free + 1 ∧ v.flash.op = none ∧
      v.flash.slot x.slot = programChunk (s.flash.slot x.slot) off (data.take n ++ List.replicate (data.length - n) 0xFF) ∧
      w.session = s.session ∧ w.cmds = s.cmds ∧ w.flash = { s.flash with op := none } ∧
      exec (.fwChunkProgrammed true) s = .next (settle (beginHeaderWrite (if n < data.length then endCommand port tag St.retryLater n v
        else endCommand port tag St.success 0 v))) ∧
      exec (.fwChunkProgrammed false) s = .next (settle (beginHeaderWrite (if n < data.length then endCommand port tag St.retryLater n v
        else endCommand port tag St.saveFailed 0 w))) := by
  have hends (good : Bool) : exec (.fwChunkProgrammed good) s = chunkEnds good x.slot off port tag data (n, (saveOver s).fresh.2) := by
    rw [exec_fwChunkProgrammed good hop, chunkAccepted_sagged (s := saveOver s) hsag, State.chunkSlot_session hx, hn]
    rfl
  have hle : n ≤ data.length := hn.trans_le (Nat.min_le_left ..)
  exact ⟨chunkPut x.slot off n data (saveOver s).fresh.2, (saveOver s).fresh.2, chunkPut_session (s := (saveOver s).fresh.2) hx, rfl, rfl,
    chunkPut_op, chunkPut_slot, rfl, rfl, rfl, (hends true).trans (chunkEnds_part _ _ hle true), (hends false).trans (chunkEnds_part _ _ hle false)⟩

end

/-! ## FW_ACTIVATE (R81, R201) -/

section
variable {p : Nat} {c : Cmd} {s : State}

/-- The conditions of R81 that the target slot fails: a slot without a manifest fails the first. -/
def State.targetFails (s : State) : List Nat :=
  match s.slotImage s.targetSlot with
  | some img => failedConditions s.fuses img
  | none => [1]

/-- The session closes once the target slot is checked. -/
def targetChecked (s : State) : State := { noteChecked s.targetSlot s with session := none }

/-- FW_ACTIVATE that is next in line for its port, where it may write the flash. -/
def activateBody (c : Cmd) (s : State) : State :=
  match s.flashStop false with
  | some st => finishAt c st 0 s
  | none =>
    let s := noteChecked s.targetSlot s
    let bad := match s.slotImage s.targetSlot with
      | some img => failedConditions s.fuses img
      | none => [1]
    if s.flash.op.isSome then s
    else if bad = [3] then finishAt c St.imageRollback s.fuses.svn { s with session := none }
    else match bad with
      | k :: _ => finishAt c St.imageInvalid k { s with session := none }
      | [] =>
        let s := modCmd c.uid (fun x => { x with flash := true }) (admitCmd c { s with session := none })
        writeHeader { s.boot.hdr with pending := some s.targetSlot, tries := 3 } (.activate c.port c.tag) s

theorem exec_fwActivate (h : s.Ready p c) (hop : c.op = 0x85) : exec (.fwActivate p) s = .next (settle (showSched (showPort p (activateBody c s)))) :=
  congrArg Host.Outcome.next (admitIf_ready (f := activateBody) h (by simp [hop]))

theorem activateBody_stopped {st : Nat} (hstop : s.flashStop false = some st) : activateBody c s = finishAt c st 0 s := by
  simp only [activateBody, hstop]

section
variable (hstop : s.flashStop false = none) (hop : s.flash.op = none)
include hstop hop

/-- What the checks of the target slot answer. -/
theorem activateBody_checked : activateBody c s =
    if s.targetFails = [3] then finishAt c St.imageRollback s.fuses.svn (targetChecked s)
    else match s.targetFails with
      | k :: _ => finishAt c St.imageInvalid k (targetChecked s)
      | [] => writeHeader { s.boot.hdr with pending := some s.targetSlot, tries := 3 } (.activate c.port c.tag) (flashAdmitted c (targetChecked s)) := by
  have hfree : ¬ (noteChecked s.targetSlot s).flash.op.isSome = true := by simp [noteChecked, hop]
  unfold activateBody
  rw [hstop]
  exact (if_neg hfree).trans rfl

theorem activateBody_good (hgood : s.targetFails = []) : activateBody c s =
    writeHeader { s.boot.hdr with pending := some s.targetSlot, tries := 3 } (.activate c.port c.tag) (flashAdmitted c (targetChecked s)) := by
  rw [activateBody_checked hstop hop, hgood]
  rfl

/-- An image whose only fault is its security version. -/
theorem activateBody_rollback (hbad : s.targetFails = [3]) : activateBody c s = finishAt c St.imageRollback s.fuses.svn (targetChecked s) := by
  rw [activateBody_checked hstop hop, if_pos hbad]

theorem activateBody_invalid {k : Nat} {rest : List Nat} (hbad : s.targetFails = k :: rest) (hne : k :: rest ≠ [3]) :
    activateBody c s = finishAt c St.imageInvalid k (targetChecked s) := by
  rw [activateBody_checked hstop hop, hbad, if_neg hne]

end

theorem State.targetFails_image {img : SlotImage} (himg : s.slotImage s.targetSlot = some img) : s.targetFails = failedConditions s.fuses img := by
  rw [State.targetFails, himg]

theorem State.targetFails_none (hnone : s.slotImage s.targetSlot = none) : s.targetFails = [1] := by
  rw [State.targetFails, hnone]

end

/-- Settles O21: the checks of each command one by one, and a chunk's end by its read-back and by whether VIN fell in its course. -/
theorem firmwareUpdate : Obligations.FirmwareUpdate := by
  refine ⟨fun p c data s h hop hstop hfree hoff hdom => ⟨sessionOpened p c s, rfl, rfl, rfl, ?_⟩, fun p c data x s h hop hstop hx => ⟨?_, ?_, ?_⟩,
    fun p st c data s h hstop => ⟨fun hop => ?_, fun hop => ?_⟩, fun off port tag data s hpause => ⟨_, rfl, beginChunk_begins hpause⟩,
    fun _ _ _ _ _ _ => fwChunkProgrammed_succeeds, fun _ _ _ _ _ => fwChunkProgrammed_fails, fun _ _ _ _ _ _ _ => fwChunkProgrammed_sagged,
    fun _ => rfl, fun p c s v h hop hstop hfree hv => ?_⟩
  · rw [exec_fwDownload h hop, downloadBody_opens hstop hfree hoff hdom]
  · intro hdom hoff hnext
    rw [exec_fwDownload h hop, downloadBody_sequence hstop hx hdom hoff hnext]
  · intro hdom hoff hnext hfree
    exact ⟨flashAdmitted c s, rfl, rfl, by rw [exec_fwDownload h hop, downloadBody_continues hstop hx hdom hoff hnext hfree]⟩
  · intro hdom
    rw [exec_fwDownload h hop, downloadBody_busy hstop hx hdom]
  · rw [exec_fwDownload h hop, downloadBody_stopped hstop]
  · rw [exec_fwActivate h hop, activateBody_stopped hstop]
  · rw [exec_fwActivate h hop, hv]
    refine ⟨fun img himg => ⟨fun hgood => ⟨flashAdmitted c (targetChecked s), rfl, rfl, ?_⟩, fun hbad => ?_, fun k rest hbad hne => ?_⟩, fun hnone => ?_⟩
    · rw [activateBody_good hstop hfree ((State.targetFails_image himg).trans hgood)]
    · rw [activateBody_rollback hstop hfree ((State.targetFails_image himg).trans hbad)]
      rfl
    · rw [activateBody_invalid hstop hfree ((State.targetFails_image himg).trans hbad) hne]
      rfl
    · rw [activateBody_invalid hstop hfree (State.targetFails_none hnone) (by decide)]
      rfl

end Sys2Proof.Machine
end

section
/-! The set-up writes of domains, ports and status lines: O10. -/

namespace Sys2Proof.Machine

/-! ## A field put back -/

theorem Fld.put_put (f : Fld) (a b : Nat) (w : Word) (hf : f.lo ≤ f.hi ∧ f.hi < 32) : f.put a (f.put b w) = f.put a w := by
  refine BitVec.eq_of_getLsbD_eq fun i _ => ?_
  simp only [Fld.getLsbD_put f _ _ hf]
  split <;> rfl

theorem Fld.put_get (f : Fld) (w : Word) (hf : f.lo ≤ f.hi ∧ f.hi < 32) : f.put (f.get w) w = w := by
  refine BitVec.eq_of_getLsbD_eq fun i _ => ?_
  rw [Fld.getLsbD_put f _ _ hf]
  split
  · next hi => rw [Fld.testBit_get f _ hf, Nat.add_sub_cancel' hi.1, decide_eq_true (by omega), Bool.true_and]
  · rfl

/-! ## Which rule a register of the LINK or the PORT block goes to -/

section
variable {ts : List RSlot} {d : RSlot} {r : Requester} {addr dom : Nat} {v : Word} {rd : RegDef} {s : State} (hf : s.fenced d = false)
include hf

theorem writeReg_domcfg (hdom : dom < 16) (hw : s.mayWrite d r (0x20100 + 16 * dom) = true) (hrd : regDef d.code (0x20100 + 16 * dom) = some rd) :
    writeReg ts d r (0x20100 + 16 * dom) v s = domcfgWrite ts dom v s := by
  have hidx : (0x20100 + 16 * dom - 0x20100) / 16 = dom := by omega
  simp only [writeReg, hf, hw, curdWindow_eq_none (show 0x20100 + 16 * dom < 0x100000 by omega), hrd, hidx]
  rw [if_neg (by decide), if_neg (by decide), if_neg (by omega), if_neg (by omega), if_neg (by omega), if_pos (by omega)]

theorem writeReg_portRecord (hw : s.mayWrite d r addr = true) (hrd : regDef d.code addr = some rd) (hlo : 0x30000 ≤ addr) (hhi : addr < 0x34000) :
    writeReg ts d r addr v s = portRegWrite ts addr rd v (decide (s.setupRight d r = 2)) s := by
  simp only [writeReg, hf, hw, curdWindow_eq_none (show addr < 0x100000 by omega), hrd]
  rw [if_neg (by decide), if_neg (by decide), if_neg (by omega), if_neg (by omega), if_neg (by omega), if_neg (by omega), if_pos (by omega),
    if_neg (by omega)]

/-- A status line address is stored on the dies named, and the line goes out where it has moved (R159). -/
theorem writeReg_statusLine (hdom : dom < 16) {k : Nat} (hk : k < 2) (hw : s.mayWrite d r (0x34000 + 16 * dom + 4 * k) = true)
    (hrd : regDef d.code (0x34000 + 16 * dom + 4 * k) = some rd) : writeReg ts d r (0x34000 + 16 * dom + 4 * k) v s =
      (lineMoved dom (s.lineOn dom, s.lineAddr dom) (storeOn (fun e => regKey e.code (0x34000 + 16 * dom + 4 * k))
        (fun _ _ => storeWord s.part 0 0 rd (s.word (regKey s.senior.code (0x34000 + 16 * dom + 4 * k))) v) ts s), 0) := by
  have hidx : (0x34000 + 16 * dom + 4 * k - 0x34000) / 16 = dom := by omega
  simp only [writeReg, hf, hw, curdWindow_eq_none (show 0x34000 + 16 * dom + 4 * k < 0x100000 by omega), hrd, hidx]
  rw [if_neg (by decide), if_neg (by decide), if_neg (by omega), if_neg (by omega), if_neg (by omega), if_neg (by omega), if_pos (by omega),
    if_pos (by omega), portRegWrite, if_pos (by omega)]
  rfl

end

/-! ## LINK_DOMCFG (R108, R109) -/

/-- A disabled domain that stays disabled takes the word on every die named. -/
theorem domcfgWrite_disabled {ts : List RSlot} {dom : Nat} {v old new : Word} {rd : RegDef} {s : State}
    (hrd : regDef s.senior.code (0x20100 + 16 * dom) = some rd) (hold : old = s.word (regKey s.senior.code (0x20100 + 16 * dom)))
    (hnew : new = storeWord s.part s.ilimTop 0 rd old v) (hoff : (R.LINK_DOMCFG_EN dom).get old = 0) (hstay : (R.LINK_DOMCFG_EN dom).get new = 0) :
    domcfgWrite ts dom v s = (storeOn (fun e => regKey e.code (0x20100 + 16 * dom)) (fun _ _ => new) ts s, 0) := by
  subst hnew hold
  unfold domcfgWrite
  simp only [show (R.LINK_DOMCFG_EN dom).off = 0x20100 + 16 * dom from rfl, hrd, hoff, hstay]
  rw [if_neg (by simp), if_neg (by simp), if_neg (by simp)]
  rfl

/-! ## PORT_CFG (R152, R153) -/

/-- A put into EN leaves the fields that say whose port it is. -/
theorem portCfg_put_en (port k : Nat) (w : Word) : (R.PORT_CFG_EN port).get ((R.PORT_CFG_EN port).put k w) = k % 2 ∧
    (R.PORT_CFG_DOMAIN port).get ((R.PORT_CFG_EN port).put k w) = (R.PORT_CFG_DOMAIN port).get w ∧
    (R.PORT_CFG_ADMIN port).get ((R.PORT_CFG_EN port).put k w) = (R.PORT_CFG_ADMIN port).get w :=
  have hen : 31 ≤ 31 ∧ 31 < 32 := by decide
  ⟨Fld.get_put_self (R.PORT_CFG_EN port) k w hen,
    Fld.get_put_other (R.PORT_CFG_EN port) (R.PORT_CFG_DOMAIN port) k w hen (show 24 ≤ 27 ∧ 27 < 32 by decide) (.inr (show 27 < 31 by decide)),
    Fld.get_put_other (R.PORT_CFG_EN port) (R.PORT_CFG_ADMIN port) k w hen (show 30 ≤ 30 ∧ 30 < 32 by decide) (.inr (show 30 < 31 by decide))⟩

section
variable {ts : List RSlot} {port : Nat} {rd : RegDef} {v old new : Word} {full : Bool} {s : State}
  (hport : port < 256) (hold : old = s.word (regKey s.senior.code (0x30000 + 64 * port))) (hnew : new = storeWord s.part 0 0 rd old v)
include hport hold hnew

/-- A write that changes EN alone enables a disabled port, where the domain has its admin port. -/
theorem portRegWrite_enables (hoff : (R.PORT_CFG_EN port).get old = 0)
    (hadm : (R.PORT_CFG_ADMIN port).get old = 1 ∨ s.adminRuns ((R.PORT_CFG_DOMAIN port).get old) = true) (hput : new = (R.PORT_CFG_EN port).put 1 old)
    (hstate : s.portState port = 0)
    (hready : (storeOn (fun e => regKey e.code (0x30000 + 64 * port)) (fun _ _ => new) ts s).isReady = true) :
    portRegWrite ts (0x30000 + 64 * port) rd v full s =
      (enablePort port (storeOn (fun e => regKey e.code (0x30000 + 64 * port)) (fun _ _ => new) ts s), 0) := by
  obtain ⟨hon, hdom, hadmin⟩ := portCfg_put_en port 1 old
  rw [← hput] at hon hdom hadmin
  have hen : s.rdS (R.PORT_CFG_EN port) = 0 := (congrArg _ hold.symm).trans hoff
  have hidx : (0x30000 + 64 * port - 0x30000) / 64 = port := by omega
  unfold portRegWrite
  simp only [← hold, ← hnew, hidx, hen, hon, hdom, hadmin, hstate]
  rw [if_neg (by omega), if_neg (by omega), if_neg (by simp), if_neg (by simp), if_neg (by omega), if_neg (by simp), if_neg (by simp),
    if_neg ?adminRuns, if_neg (by simp), if_pos ⟨rfl, rfl, hready⟩]
  · rfl
  case adminRuns =>
    rintro ⟨-, -, -, hplain, hnone⟩
    rcases hadm with h | h
    · omega
    · simp [h] at hnone

/-- A write that changes EN alone disables an enabled port; an admin port must be the last of its domain. -/
theorem portRegWrite_disables (hon : (R.PORT_CFG_EN port).get old = 1) (hput : new = (R.PORT_CFG_EN port).put 0 old)
    (hlast : (R.PORT_CFG_ADMIN port).get old = 0 ∨
      ∀ q < 256, q ≠ port → s.rdS (R.PORT_CFG_EN q) = 1 → s.portDomain q ≠ (R.PORT_CFG_DOMAIN port).get old) :
    portRegWrite ts (0x30000 + 64 * port) rd v full s =
      (disablePort port (storeOn (fun e => regKey e.code (0x30000 + 64 * port)) (fun _ _ => new) ts s), 0) := by
  obtain ⟨hoff, hdom, hadmin⟩ := portCfg_put_en port 0 old
  have hback : (R.PORT_CFG_EN port).put 1 ((R.PORT_CFG_EN port).put 0 old) = old := by
    have hen : 31 ≤ 31 ∧ 31 < 32 := by decide
    rw [Fld.put_put (R.PORT_CFG_EN port) 1 0 old hen, ← hon, Fld.put_get (R.PORT_CFG_EN port) old hen]
  rw [← hput] at hoff hdom hadmin hback
  have hen : s.rdS (R.PORT_CFG_EN port) = 1 := (congrArg _ hold.symm).trans hon
  have hidx : (0x30000 + 64 * port - 0x30000) / 64 = port := by omega
  unfold portRegWrite
  simp only [← hold, ← hnew, hidx, hen, hoff, hdom, hadmin, hback]
  rw [if_neg (by omega), if_neg (by omega), if_neg (by simp), if_neg (by simp), if_neg (by omega), if_neg ?lastAdmin, if_neg (by simp),
    if_neg (by simp), if_pos ⟨rfl, rfl⟩]
  · rfl
  case lastAdmin =>
    rintro ⟨-, -, hadm, hother⟩
    obtain ⟨q, hq, hmem⟩ := List.any_eq_true.mp hother
    obtain ⟨hne, hqon, hqdom⟩ := of_decide_eq_true hmem
    rcases hlast with h | h
    · omega
    · exact h q (List.mem_range.mp hq) hne hqon hqdom

end

/-! ## The commands -/

/-- A set-up write of a register beyond DEV and BOOT, as a row of the command table, is taken at an input's step (R119). -/
theorem rowWrite_shared {d : RSlot} {r : Requester} {addr : Nat} {v : Word} {s : State} (hd : s.hasRind d = true) (h4 : addr % 4 = 0)
    (hlo : 0x20000 ≤ addr) :
    rowWrite d r addr v s = .next (settle (writeReg (newStep 0x03 0 0 s).serving d r addr v (newStep 0x03 0 0 s)).1) := by
  rw [rowWrite, if_pos hd, setupWrite_shared h4 hlo]

theorem domcfgWrite_stores {d : RSlot} {r : Requester} {dom : Nat} {v old new : Word} {rd : RegDef} {s n : State} (hn : n = newStep 0x03 0 0 s)
    (hd : s.hasRind d = true) (hdom : dom < 16) (hs : s.regsWf = true) (hf : n.fenced d = false) (hw : n.mayWrite d r (0x20100 + 16 * dom) = true)
    (hrd : regDef d.code (0x20100 + 16 * dom) = some rd) (hsen : regDef n.senior.code (0x20100 + 16 * dom) = some rd)
    (hold : old = n.word (regKey n.senior.code (0x20100 + 16 * dom))) (hnew : new = storeWord n.part n.ilimTop 0 rd old v)
    (hoff : (R.LINK_DOMCFG_EN dom).get old = 0) (hstay : (R.LINK_DOMCFG_EN dom).get new = 0) :
    ∃ u, exec (.domcfgWrite d r dom v) s = .next (settle u) ∧ (∀ e ∈ n.serving, u.word (regKey e.code (0x20100 + 16 * dom)) = new) ∧
      (∀ k, (∀ e ∈ n.serving, k ≠ regKey e.code (0x20100 + 16 * dom)) → u.word k = n.word k) ∧ u.out = n.out ∧ u.cmds = n.cmds := by
  have hreg : n.regsWf = true := hn ▸ State.regsWf_newStep hs
  refine ⟨storeOn (fun e => regKey e.code (0x20100 + 16 * dom)) (fun _ _ => new) n.serving n, ?_,
    fun e he => storeOn_word_of_mem (fun _ _ => regKey_code_inj) (fun _ _ _ _ _ => rfl) hreg n.serving_nodup he, fun k hk => storeOn_word_other hk,
    storeOn_field State.out fun _ _ _ => rfl, storeOn_field State.cmds fun _ _ _ => rfl⟩
  subst hn
  show execDomcfgWrite d r dom v s = _
  rw [execDomcfgWrite, if_pos ⟨hd, hdom⟩, setupWrite_shared (by omega) (by omega), writeReg_domcfg hf hdom hw hrd,
    domcfgWrite_disabled hsen hold hnew hoff hstay]

/-- Settles O10: each row is a write of one register at the input's step; what it stores, and the rule that follows, is the register's own. -/
theorem setupRowsOfPorts : Obligations.SetupRowsOfPorts := by
  refine ⟨fun d r dom v old new rd s n hn hd hdom hs hf hw hrd hsen hold hnew hoff hstay =>
      domcfgWrite_stores hn hd hdom hs hf hw hrd hsen hold hnew hoff hstay,
    fun d r port v old new rd s n t hn hd hport hf hw hrd hold hnew hoff hadm hput hstate ht hready => ?enable,
    fun d r port v old new rd s n t hn hd hport hf hw hrd hold hnew hon hput hlast ht => ?disable,
    fun d r dom hi v rd s n hn hd hdom hf hw hrd => ?line⟩
  case enable =>
    subst hn ht
    show execPortEnable d r port v s = _
    rw [execPortEnable, if_pos hport, rowWrite_shared hd (by omega) (by omega), writeReg_portRecord hf hw hrd (by omega) (by omega),
      portRegWrite_enables hport hold hnew hoff hadm hput hstate hready]
    rfl
  case disable =>
    subst hn ht
    show execPortDisable d r port v s = _
    rw [execPortDisable, if_pos hport, rowWrite_shared hd (by omega) (by omega), writeReg_portRecord hf hw hrd (by omega) (by omega),
      portRegWrite_disables hport hold hnew hon hput hlast]
    rfl
  case line =>
    subst hn
    have hk : bit hi < 2 := by cases hi <;> decide
    show execStatusLineAddressWrite d r dom hi v s = _
    rw [execStatusLineAddressWrite, if_pos hdom, rowWrite_shared hd (by omega) (by omega), writeReg_statusLine hf hdom hk hw hrd]
    rfl

end Sys2Proof.Machine
end

section
/-! The sideband and the Curd windows: O13. -/

namespace Sys2Proof.Machine

@[simp] theorem sb_modSb (d : RSlot) (f : Sideband → Sideband) (s : State) : ((modSb d f s).rind d).sb = f (s.rind d).sb := by
  simp [modSb]

@[simp] theorem regs_modSb (d : RSlot) (f : Sideband → Sideband) (s : State) : (modSb d f s).regs = s.regs := State.regs_modRind ..
@[simp] theorem out_modSb (d : RSlot) (f : Sideband → Sideband) (s : State) : (modSb d f s).out = s.out := State.out_modRind ..
@[simp] theorem cmds_modSb (d : RSlot) (f : Sideband → Sideband) (s : State) : (modSb d f s).cmds = s.cmds := State.cmds_modRind ..

/-! ## The sideband's commands (R124 to R126) -/

section
variable {b : Nat} {d : RSlot} {v : Word} {s : State} (hdie : s.sbDie b = some d)
include hdie

theorem sbSetAddress_sets : exec (.sbSetAddress b true v) s = .next (modSb d (fun x => { x with addr := v.toNat / 4 * 4 }) s) := by
  show execSbSetAddress b true v s = _
  simp [execSbSetAddress, hdie]

/-- The access has been answered: the address moves on, the result and the word read are kept, and nothing waits. -/
theorem sbReadWord_answered {w : Word} {k : Nat} {t : State} (hserved : (islandServed (s.rind d).sb.addr || s.coreUp d) = true)
    (hread : readReg d .sideband (s.rind d).sb.addr s = (some w, t, k)) : exec (.sbReadWord b true) s = .next (settle ((modSb d (fun x =>
      { x with addr := ((s.rind d).sb.addr + 4) % 2 ^ 32, result := k, data := w.toNat, waiting := none }) t).emit (.word w))) := by
  show execSbReadWord b true s = _
  simp [execSbReadWord, hdie, hserved, hread]

/-- Neither the island nor the core answers: the access waits. -/
theorem sbReadWord_waits (hserved : islandServed (s.rind d).sb.addr = false) (hcore : s.coreUp d = false) :
    exec (.sbReadWord b true) s = .next (modSb d (fun x => { x with waiting := some (false, 0) }) s) := by
  show execSbReadWord b true s = _
  simp [execSbReadWord, hdie, hserved, hcore]

theorem sbWriteWord_writes (hserved : (s.coreUp d || islandWrites (s.rind d).sb.addr) = true) :
    exec (.sbWriteWord b true v) s = .next (settle (modSb d (fun x => { x with
      addr := ((s.rind d).sb.addr + 4) % 2 ^ 32, result := (setupWrite d .sideband (s.rind d).sb.addr 4 v s).2, waiting := none })
      (setupWrite d .sideband (s.rind d).sb.addr 4 v s).1)) := by
  show execSbWriteWord b true v s = _
  simp [execSbWriteWord, hdie, hserved]

theorem sbReadResult_returns : exec (.sbReadResult b true) s = .next (s.emit (.byte (s.rind d).sb.result)) := by
  show execSbReadResult b true s = _
  simp [execSbReadResult, hdie]

end

theorem sideband_silent {b : Nat} {pec : Bool} {v : Word} {s : State} (hdie : s.sbDie b = none) :
    exec (.sbSetAddress b pec v) s = .next s ∧ exec (.sbReadWord b pec) s = .next s ∧ exec (.sbWriteWord b pec v) s = .next s ∧
      exec (.sbReadResult b pec) s = .next s := by
  refine ⟨?_, ?_, ?_, ?_⟩
  · show execSbSetAddress b pec v s = _
    rw [execSbSetAddress, hdie]
  · show execSbReadWord b pec s = _
    rw [execSbReadWord, hdie]
  · show execSbWriteWord b pec v s = _
    rw [execSbWriteWord, hdie]
  · show execSbReadResult b pec s = _
    rw [execSbReadResult, hdie]

theorem sbCoreTimeout_read {d : RSlot} {k : Nat} {s : State} (hwait : (s.rind d).sb.waiting = some (false, k)) :
    exec (.sbCoreTimeout d) s = .next ((modSb d (fun x => { x with
      addr := (x.addr + 4) % 2 ^ 32, result := 1, waiting := none, data := 0xFFFFFFFF }) s).emit (.word (BitVec.allOnes 32))) := by
  show execSbCoreTimeout d s = _
  simp [execSbCoreTimeout, hwait]

theorem islandServed_lt {addr : Nat} (h : islandServed addr = true) : addr < 0x100000 := by
  simp only [islandServed, Bool.and_eq_true, decide_eq_true_eq] at h
  obtain ⟨⟨-, hlt⟩, -⟩ := h
  exact hlt

/-! ## An access at a Curd die (R118) -/

section
variable {d : RSlot} {g off : Nat} {v : Word} {s : State} (hg : s.hasCurd g = true) (hd : s.hasRind d = true) (hlt : off < 0x100000) (h4 : off % 4 = 0)
include hg hd hlt h4

/-- The first copy of a write is stored by the register's rule. -/
theorem curdSetupAccess_write (hfirst : (takeAccess g d true (isAccess true off v) s).1 = true) : exec (.curdSetupAccess d g true off v) s =
    .next (settle (curdWrite g (s.accessCode g d (isAccess true off v)) off v (takeAccess g d true (isAccess true off v) s).2)) := by
  show execCurdSetupAccess d g true off v s = _
  simp [execCurdSetupAccess, hg, hd, hlt, h4, hfirst]

/-- A read is answered with a message to the die it came from, which returns the word. -/
theorem curdSetupAccess_read {n : State} {x : Word × State} (hn : n = (takeAccess g d false (isAccess false off v) s).2)
    (hx : x = curdRead g (s.accessCode g d (isAccess false off v)) off n) : exec (.curdSetupAccess d g false off v) s =
      .next (settle (returnWord d g off x.1 (sendMsg (.curd g d) 3 0 [BitVec.ofNat 32 (0x02000000 + off), x.1] x.2))) := by
  subst hx hn
  show execCurdSetupAccess d g false off v s = _
  simp [execCurdSetupAccess, hg, hd, hlt, h4]

end

/-- Settles O13: each command of the sideband by whether its die answers and who serves the access; a Curd die by what its register's rules say. -/
theorem sidebandAndCurdWindow : Obligations.SidebandAndCurdWindow := by
  refine ⟨fun a d addr s hdie => ⟨_, sbSetAddress_sets hdie, by rw [sb_modSb], regs_modSb .., out_modSb .., cmds_modSb ..⟩,
    fun b d rd a s hdie ha hserved hoff hrd => ?read,
    fun b d s hdie hserved hcore => ⟨_, sbReadWord_waits hdie hserved hcore, by rw [sb_modSb], by rw [sb_modSb], regs_modSb .., out_modSb ..⟩,
    fun b pec v s hdie => sideband_silent hdie,
    fun b d v s hdie hserved => ⟨_, sbWriteWord_writes hdie hserved, by rw [sb_modSb], by rw [sb_modSb], regs_modSb ..⟩,
    fun b d s hdie => sbReadResult_returns hdie, fun d k s hwait => ⟨_, sbCoreTimeout_read hwait, ?timeout⟩,
    fun d g off v s hg hd hlt h4 hfirst => curdSetupAccess_write hg hd hlt h4 hfirst,
    fun d g off v s n hn hg hd hlt h4 => ⟨_, curdSetupAccess_read hg hd hlt h4 hn rfl, rfl⟩⟩
  case timeout =>
    simp
  case read =>
    subst ha
    have hlt := islandServed_lt hserved
    have hread := readReg_plain (r := .sideband) (s := s) hlt (by omega) (by omega) hrd
    refine ⟨_, sbReadWord_answered hdie (by rw [hserved, Bool.true_or]) hread, ?_, by rw [State.rind_emit, sb_modSb], ?_⟩
    · rw [State.rind_emit, sb_modSb]
      exact Nat.mod_eq_of_lt (by omega)
    · simp

end Sys2Proof.Machine
end

section
/-! Doorbell lines: O14. -/

namespace Sys2Proof.Machine

/-! ## Fields that every serving die holds -/

/-- What a step leaves alone on each die, it leaves alone. -/
theorem inStep_field {β : Type} (π : State → β) {f : RSlot → State → State} (h : ∀ d t, π (f d t) = π t) (s : State) : π (inStep f s) = π s :=
  foldl_field π fun t d => h d t

section
variable {β : Type} (π : State → β) (h : ∀ t die f v, π (State.wr t die f v) = π t)
include h

theorem wrAll_field (f : Fld) (v : Nat) (s : State) : π (wrAll f v s) = π s := inStep_field π (fun d t => h t d.code f v) s

theorem incAll_field (f : Fld) (n : Nat) (s : State) : π (incAll f n s) = π s := inStep_field π (fun _ _ => h ..) s

end

/-! ## What the port engine holds for a port -/

theorem assocGet_assocPut_other {α : Type} {j k : Nat} (v d : α) (l : List (Nat × α)) (h : j ≠ k) : assocGet j d (assocPut k v l) = assocGet j d l := by
  have hfind : (l.filter (fun p => p.1 ≠ k)).find? (fun p => p.1 = j) = l.find? (fun p => p.1 = j) := by
    rw [List.find?_filter]
    congr 1
    funext p
    by_cases hp : p.1 = j <;> simp [hp, h]
  unfold assocGet assocPut
  rw [List.find?_cons_of_neg (by simpa using h.symm), hfind]

@[simp] theorem portX_modPort_self (p : Nat) (f : PortX → PortX) (s : State) : (modPort p f s).portX p = f (s.portX p) := assocGet_assocPut_self ..

theorem portX_modPort_other {p q : Nat} (f : PortX → PortX) (s : State) (h : q ≠ p) : (modPort p f s).portX q = s.portX q :=
  assocGet_assocPut_other _ _ _ h

/-- A part of the record that a change leaves alone is as it was, whichever port changed. -/
theorem portX_modPort_field {β : Type} (π : PortX → β) {f : PortX → PortX} (h : ∀ x, π (f x) = π x) (p q : Nat) (s : State) :
    π ((modPort p f s).portX q) = π (s.portX q) := by
  by_cases hq : q = p
  · subst hq
    rw [portX_modPort_self, h]
  · rw [portX_modPort_other f s hq]

/-! ## The read of a line (R147) -/

/-- The die is among those whose read is outstanding. -/
def PortX.read (d : RSlot) (x : PortX) : PortX := { x with reading := if d ∈ x.reading then x.reading else x.reading ++ [d] }

theorem PortX.mem_read_self (d : RSlot) (x : PortX) : d ∈ (x.read d).reading := by
  unfold PortX.read
  dsimp only
  split
  · assumption
  · simp

theorem PortX.mem_read_of_mem {d e : RSlot} {x : PortX} (h : d ∈ x.reading) : d ∈ (x.read e).reading := by
  unfold PortX.read
  dsimp only
  split
  · exact h
  · simp [h]

theorem readLineOf_up {d : RSlot} {p h : Nat} {s : State} (hup : s.headOf d (s.portDomain p) = some h) :
    readLineOf d p s = modPort p (PortX.read d) (s.emit (.hostRead d h (s.dbAddr p) 64)) := by
  rw [readLineOf, hup]
  rfl

theorem readLineOf_down {d : RSlot} {p : Nat} {s : State} (hdown : s.headOf d (s.portDomain p) = none) : readLineOf d p s = s := by
  rw [readLineOf, hdown]

/-- A read reaches the port engine and the outside alone. -/
theorem readLineOf_field {β : Type} (π : State → β) (hports : ∀ (s : State) l, π { s with ports := l } = π s) (hemit : ∀ s o, π (State.emit s o) = π s)
    (d : RSlot) (p : Nat) (s : State) : π (readLineOf d p s) = π s := by
  cases hup : s.headOf d (s.portDomain p) with
  | none => rw [readLineOf_down hup]
  | some h => rw [readLineOf_up hup, modPort, hports, hemit]

theorem line_readLineOf (d : RSlot) (p q : Nat) (s : State) : ((readLineOf d p s).portX q).line = (s.portX q).line := by
  cases hup : s.headOf d (s.portDomain p) with
  | none => rw [readLineOf_down hup]
  | some h =>
    rw [readLineOf_up hup]
    exact portX_modPort_field (f := PortX.read d) PortX.line (fun _ => rfl) ..

/-- A read that is outstanding stays so. -/
theorem reading_readLineOf {d e : RSlot} {p q : Nat} {s : State} (h : e ∈ (s.portX q).reading) : e ∈ ((readLineOf d p s).portX q).reading := by
  cases hup : s.headOf d (s.portDomain p) with
  | none => rwa [readLineOf_down hup]
  | some h =>
    rw [readLineOf_up hup]
    by_cases hq : q = p
    · subst hq
      rw [portX_modPort_self]
      exact PortX.mem_read_of_mem (by assumption)
    · rwa [portX_modPort_other _ _ hq]

theorem mem_reading_readLineOf {d : RSlot} {p : Nat} {s : State} (hup : (s.headOf d (s.portDomain p)).isSome = true) :
    d ∈ ((readLineOf d p s).portX p).reading := by
  obtain ⟨h, hh⟩ := Option.isSome_iff_exists.mp hup
  rw [readLineOf_up hh, portX_modPort_self]
  exact PortX.mem_read_self ..

/-! ## The backstop (R148) -/

/-- The die reads the line of one port again where it holds it. -/
def reread (d : RSlot) (s : State) (p : Nat) : State := if d ∈ (s.portX p).line then readLineOf d p s else s

theorem backstopReads_eq (d : RSlot) (s : State) : backstopReads d s = (List.range 256).foldl (reread d) s := rfl

theorem reread_field {β : Type} (π : State → β) (hports : ∀ (s : State) l, π { s with ports := l } = π s) (hemit : ∀ s o, π (State.emit s o) = π s)
    (d : RSlot) (s : State) (p : Nat) : π (reread d s p) = π s := by
  unfold reread
  split
  · exact readLineOf_field π hports hemit ..
  · rfl

theorem backstopReads_field {β : Type} (π : State → β) (hports : ∀ (s : State) l, π { s with ports := l } = π s) (hemit : ∀ s o, π (State.emit s o) = π s)
    (d : RSlot) (s : State) : π (backstopReads d s) = π s := foldl_field π (reread_field π hports hemit d)

theorem line_reread (d : RSlot) (s : State) (p q : Nat) : ((reread d s p).portX q).line = (s.portX q).line := by
  unfold reread
  split
  · exact line_readLineOf ..
  · rfl

theorem reading_reread {d e : RSlot} {p q : Nat} {s : State} (h : e ∈ (s.portX q).reading) : e ∈ ((reread d s p).portX q).reading := by
  unfold reread
  split
  · exact reading_readLineOf h
  · exact h

/-- What the step at a member of a list makes of a state with an invariant, the fold makes, where no step undoes it. -/
theorem foldl_of_mem_kept {σ α : Type} {I motive : σ → Prop} (f : σ → α → σ) {a : α} (hkept : ∀ t x, I t → I (f t x)) (hmake : ∀ t, I t → motive (f t a))
    (hstay : ∀ t x, motive t → motive (f t x)) : ∀ {l : List α} {s : σ}, a ∈ l → I s → motive (l.foldl f s)
  | x :: l, s, hmem, hs => by
    obtain rfl | hmem := List.mem_cons.mp hmem
    · exact List.foldlRecOn l f (hmake s hs) fun t ht y _ => hstay t y ht
    · show motive (l.foldl f (f s x))
      exact foldl_of_mem_kept f hkept hmake hstay hmem (hkept s x hs)

/-- The die holds the line of a port whose head is up. -/
def State.holdsLine (d : RSlot) (p : Nat) (s : State) : Prop := d ∈ (s.portX p).line ∧ (s.headOf d (s.portDomain p)).isSome = true

theorem holdsLine_reread {d : RSlot} {p : Nat} {s : State} (q : Nat) (h : s.holdsLine d p) : (reread d s q).holdsLine d p := by
  unfold State.holdsLine
  rw [line_reread, reread_field (fun t => t.headOf d (t.portDomain p)) (fun _ _ => (rfl)) (fun _ _ => (rfl))]
  exact h

theorem reading_backstopReads {d : RSlot} {p : Nat} {s : State} (hp : p < 256) (h : s.holdsLine d p) : d ∈ ((backstopReads d s).portX p).reading := by
  rw [backstopReads_eq]
  refine foldl_of_mem_kept (motive := fun t => d ∈ (t.portX p).reading) (reread d) (fun t q => holdsLine_reread q) (fun t ht => ?_)
    (fun t q => reading_reread) (List.mem_range.mpr hp) h
  obtain ⟨hline, hup⟩ := ht
  rw [reread, if_pos hline]
  exact mem_reading_readLineOf hup

/-! ## The values of a line (R144 to R147) -/

theorem doorbellLine_fields {a b : Nat} {x y : List Byte} (ha : a < 65536) (hb : b < 65536) (hx : x.length = 2) :
    doorbellLine (natLe 2 a ++ x ++ natLe 2 b ++ y) = (a, b) := by
  have hlen (v : Nat) : (natLe 2 v).length = 2 := length_natLe 2 v
  have hfirst : (natLe 2 a ++ x ++ natLe 2 b ++ y).take 2 = natLe 2 a := by
    rw [List.append_assoc, List.append_assoc, List.take_left' (hlen a)]
  have hthird : ((natLe 2 a ++ x ++ natLe 2 b ++ y).drop 4).take 2 = natLe 2 b := by
    rw [List.append_assoc, List.drop_left' (by simp [hlen, hx]), List.take_left' (hlen b)]
  rw [doorbellLine, hfirst, hthird, leNat_natLe, leNat_natLe, Nat.mod_eq_of_lt (by omega), Nat.mod_eq_of_lt (by omega)]

/-- A direct head holds the line that it has read in Shared state (R147). -/
def lineHeld (d : RSlot) (p : Nat) (s : State) : State :=
  if s.polled d p then s else modPort p (fun x => { x with line := if d ∈ x.line then x.line else x.line ++ [d] }) s

theorem lineHeld_field {β : Type} (π : State → β) (hports : ∀ (s : State) l, π { s with ports := l } = π s) (d : RSlot) (p : Nat) (s : State) :
    π (lineHeld d p s) = π s := by
  unfold lineHeld
  split
  · rfl
  · exact hports ..

theorem mem_line_lineHeld {d : RSlot} {p : Nat} {s : State} (h : s.polled d p = false) : d ∈ ((lineHeld d p s).portX p).line := by
  rw [lineHeld, if_neg (by simp [h]), portX_modPort_self]
  dsimp only
  split
  · assumption
  · simp

theorem reading_lineHeld (d : RSlot) (p : Nat) (s : State) : ((lineHeld d p s).portX p).reading = (s.portX p).reading := by
  unfold lineHeld
  split
  · rfl
  · rw [portX_modPort_self]

theorem reading_endRead (d : RSlot) (p : Nat) (s : State) : ((endRead d p s).portX p).reading = (s.portX p).reading.erase d := by
  rw [endRead, portX_modPort_self]

section
variable {d : RSlot} {p a b : Nat} {lo hi : List Byte} {s : State} (hread : d ∈ (s.portX p).reading)
include hread

theorem doorbellReadComplete_answered (hf : s.fenced d = false) (hline : doorbellLine (lo ++ hi) = (a, b)) :
    exec (.doorbellReadComplete d p lo hi) s = .next (settle (if d = s.senior then
      applyDoorbell p a b (newStep 0x01 p (a * 0x10000 + b) (lineHeld d p (endRead d p s))) else lineHeld d p (endRead d p s))) := by
  have hsenior : (lineHeld d p (endRead d p s)).senior = s.senior := lineHeld_field State.senior (fun _ _ => (rfl)) ..
  show execDoorbellReadComplete d p lo hi s = _
  unfold execDoorbellReadComplete
  simp only [hline, hread, if_true]
  rw [if_neg (show ¬ (endRead d p s).fenced d = true from fun h => Bool.false_ne_true (hf.symm.trans h)), ← hsenior]
  rfl

theorem doorbellReadTimeout_unanswered : exec (.doorbellReadTimeout d p) s = .next (settle (if d = s.senior ∧ ! s.fenced d then
    portError p 3 (newStep 0x08 p 3 (endRead d p s)) else endRead d p s)) := by
  show execDoorbellReadTimeout d p s = _
  exact if_pos hread

end

/-! ## The values applied (R145, R146) -/

/-- A changed line counts as rung, and each of its values is applied or puts the port into ERROR. -/
theorem applyDoorbell_changed {p a b : Nat} {s t : State} (hrun : s.portState p ≠ 0)
    (hnew : ¬ (a = s.rdS (R.PORT_STAT_SQTAIL p) ∧ b = s.rdS (R.PORT_OUT_CQHEAD p)))
    (ht : t = if a < s.rdS (R.PORT_SIZE_SQSIZE p) then wrAll (R.PORT_STAT_SQTAIL p) a (incAll (R.PORT_DBCNT_RINGS p) 1 s)
      else portError p 1 (incAll (R.PORT_DBCNT_RINGS p) 1 s)) :
    applyDoorbell p a b s = pumpPort p (if b < s.rdS (R.PORT_SIZE_CQSIZE p) ∧
      (b + s.rdS (R.PORT_SIZE_CQSIZE p) - s.rdS (R.PORT_OUT_CQHEAD p)) % s.rdS (R.PORT_SIZE_CQSIZE p) ≤ s.cqUsed p then releaseSlots p b t
      else portError p 2 t) := by
  subst ht
  unfold applyDoorbell
  simp only [if_neg hrun, if_neg hnew, decide_eq_true_eq]

/-! ## The commands, and the obligation -/

theorem doorbellSnoop_loses {d : RSlot} {p : Nat} {s : State} (hline : d ∈ (s.portX p).line) (hf : s.fenced d = false) :
    exec (.doorbellSnoop d p) s = .next (readLineOf d p (modPort p (fun x => { x with line := x.line.erase d }) s)) := by
  show execDoorbellSnoop d p s = _
  refine (if_pos hline).trans (congrArg Host.Outcome.next (if_neg fun h => ?_))
  exact Bool.false_ne_true (hf.symm.trans h)

theorem doorbellPoll_reads {d : RSlot} {p : Nat} {s : State} (hp : p < 256) (hd : d ∈ s.serving) (hrun : s.portState p ≠ 0)
    (hpoll : s.polled d p = true) (hnot : d ∉ (s.portX p).reading) : exec (.doorbellPoll d p) s = .next (readLineOf d p s) := by
  show execDoorbellPoll d p s = _
  exact congrArg Host.Outcome.next (if_pos ⟨hp, hd, hrun, hpoll, hnot⟩)

theorem doorbellBackstop_rereads {d : RSlot} {s : State} (hd : d ∈ s.serving) : exec (.doorbellBackstop d) s = .next (backstopReads d s) := by
  show execDoorbellBackstop d s = _
  exact congrArg Host.Outcome.next (if_pos hd)

/-- Settles O14: who reads a line and when; whose values count; and what values in and out of range do. -/
theorem doorbellLines : Obligations.DoorbellLines := by
  refine ⟨fun d p s hline hf => doorbellSnoop_loses hline hf, fun d p h s hup => ?read, fun a b x y ha hb hx => doorbellLine_fields ha hb hx,
    fun d p a b lo hi s hread hf hline => ⟨lineHeld d p (endRead d p s), ?complete⟩,
    fun p a b s hrun hnew => ⟨fun ha hb hrel => ?good, fun ha hb hrel => ?badTail, fun ha hb => ?badHead⟩,
    fun d p s hp hd hrun hpoll hnot => doorbellPoll_reads hp hd hrun hpoll hnot,
    fun d s hd => ⟨_, doorbellBackstop_rereads hd, ?backstop⟩, fun d p s hread hsenior hf => ?timeout, fun d p s hread hjunior => ?discarded,
    fun p c s hrun => if_pos hrun⟩
  case read =>
    refine ⟨mem_reading_readLineOf (by rw [hup]; rfl), ?_, ?_⟩
    · rw [readLineOf_up hup]
      rfl
    · exact readLineOf_field State.regs (fun _ _ => rfl) (fun _ _ => rfl) ..
  case complete =>
    refine ⟨mem_line_lineHeld (s := endRead d p s), ?_, lineHeld_field State.regs (fun _ _ => rfl) .., lineHeld_field State.cmds (fun _ _ => rfl) ..,
      lineHeld_field State.out (fun _ _ => rfl) .., fun hsenior => ?_, fun hjunior => ?_⟩
    · rw [reading_lineHeld, reading_endRead]
    · rw [doorbellReadComplete_answered hread hf hline, if_pos hsenior]
    · rw [doorbellReadComplete_answered hread hf hline, if_neg hjunior]
  case good => rw [applyDoorbell_changed hrun hnew rfl, if_pos ha, if_pos ⟨hb, hrel⟩]
  case badTail => rw [applyDoorbell_changed hrun hnew rfl, if_neg (Nat.not_lt.mpr ha), if_pos ⟨hb, hrel⟩]
  case badHead => rw [applyDoorbell_changed hrun hnew rfl, if_pos ha, if_neg fun h => Nat.not_lt.mpr hb h.1]
  case backstop =>
    exact ⟨backstopReads_field State.regs (fun _ _ => rfl) (fun _ _ => rfl) .., backstopReads_field State.cmds (fun _ _ => rfl) (fun _ _ => rfl) ..,
      backstopReads_field State.f0 (fun _ _ => rfl) (fun _ _ => rfl) .., fun p hp hline hup => reading_backstopReads hp ⟨hline, hup⟩⟩
  case timeout => rw [doorbellReadTimeout_unanswered hread, if_pos ⟨hsenior, by simp [hf]⟩]
  case discarded => rw [doorbellReadTimeout_unanswered hread, if_neg fun h => hjunior h.1]

end Sys2Proof.Machine
end

section
/-! Fetches and status lines: O15. -/

namespace Sys2Proof.Machine

/-! ## Registers that show the commands -/

section
variable {β : Type} (π : State → β) (hwr : ∀ t die f v, π (State.wr t die f v) = π t)
include hwr

theorem showPort_field (p : Nat) (s : State) : π (showPort p s) = π s := by
  rw [showPort, wrAll_field π hwr, wrAll_field π hwr]

theorem showSched_field (s : State) : π (showSched s) = π s := by
  rw [showSched, wrAll_field π hwr, wrAll_field π hwr, wrAll_field π hwr]

end

/-! ## Descriptors fetched (R132, R134) -/

/-- The command that a descriptor from the slot at SQHEAD makes. -/
def State.fetchedCmd (s : State) (p : Nat) (b : List Byte) : Cmd :=
  { uid := s.nextUid, port := p, tag := leNat ((b.drop 2).take 2), sqidx := s.rdS (R.PORT_STAT_SQHEAD p), desc := b
    dup := (s.cmdOf p (leNat ((b.drop 2).take 2))).isSome }

/-- One descriptor is taken into the outstanding table, and SQHEAD moves on. -/
def takeDesc (p : Nat) (b : List Byte) (s : State) : State :=
  wrAll (R.PORT_STAT_SQHEAD p) ((s.rdS (R.PORT_STAT_SQHEAD p) + 1) % s.rdS (R.PORT_SIZE_SQSIZE p))
    { s with cmds := s.cmds ++ [s.fetchedCmd p b], nextUid := s.nextUid + 1 }

theorem takeDescs_cons (p : Nat) (b : List Byte) (rest : List (List Byte)) (s : State) :
    takeDescs p (b :: rest) s = takeDescs p rest (takeDesc p b s) := (rfl)

theorem takeDescs_field {β : Type} (π : State → β) (hwr : ∀ t die f v, π (State.wr t die f v) = π t)
    (hcmds : ∀ (s : State) l n, π { s with cmds := l, nextUid := n } = π s) (p : Nat) (descs : List (List Byte)) (s : State) :
    π (takeDescs p descs s) = π s := by
  induction descs generalizing s with
  | nil => rfl
  | cons b rest ih => rw [takeDescs_cons, ih, takeDesc, wrAll_field π hwr, hcmds]

/-- The commands that a fetch of a port adds: one for each descriptor, in order, numbered on. -/
structure Fetched (p : Nat) (descs : List (List Byte)) (new : List Cmd) (s u : State) : Prop where
  cmds : u.cmds = s.cmds ++ new
  desc : new.map Cmd.desc = descs
  each : ∀ c ∈ new, c.port = p ∧ c.phase = .fetched ∧ c.tag = leNat ((c.desc.drop 2).take 2) ∧ s.nextUid ≤ c.uid
  nextUid : u.nextUid = s.nextUid + descs.length

theorem takeDescs_fetched (p : Nat) (descs : List (List Byte)) (s : State) : ∃ new, Fetched p descs new s (takeDescs p descs s) := by
  induction descs generalizing s with
  | nil => exact ⟨[], (List.append_nil _).symm, rfl, fun _ h => absurd h List.not_mem_nil, rfl⟩
  | cons b rest ih =>
    have hcmds : (takeDesc p b s).cmds = s.cmds ++ [s.fetchedCmd p b] := wrAll_field State.cmds (fun _ _ _ _ => rfl) ..
    have huid : (takeDesc p b s).nextUid = s.nextUid + 1 := wrAll_field State.nextUid (fun _ _ _ _ => rfl) ..
    rw [takeDescs_cons]
    obtain ⟨new, hnew⟩ := ih (takeDesc p b s)
    refine ⟨s.fetchedCmd p b :: new, ?_, ?_, fun x hx => ?_, ?_⟩
    · rw [hnew.cmds, hcmds, List.append_assoc, List.singleton_append]
    · rw [List.map_cons, hnew.desc]
      rfl
    · obtain rfl | hx := List.mem_cons.mp hx
      · exact ⟨rfl, rfl, rfl, Nat.le_refl _⟩
      · obtain ⟨hport, hphase, htag, hle⟩ := hnew.each x hx
        exact ⟨hport, hphase, htag, by omega⟩
    · rw [hnew.nextUid, huid, List.length_cons]
      omega

/-! ## The grant (R203 to R205) -/

/-- The descriptors fetched from a number on. -/
def State.fetchedFrom (s : State) (uid : Nat) : List Cmd := s.cmds.filter (fun c => uid ≤ c.uid)

/-- A grant of the round-robin is charged to its class and its port; one to an admin or an Urgent port is not (R205). -/
def chargeGrant (p uid : Nat) (pos : Option Nat) (s : State) : State :=
  let k : Int := (((s.fetchedFrom uid).map s.cost).sum : Nat)
  match pos with
  | some i =>
    let t : State := { s with sched := (s.sched.setPortDc p (s.sched.portDc p - k)).setDc i (s.sched.dc i - k) }
    { t with sched := t.afterGrant i p }
  | none => s

theorem chargeGrant_field {β : Type} (π : State → β) (hsched : ∀ (s : State) x, π { s with sched := x } = π s) (p uid : Nat) (pos : Option Nat) (s : State) :
    π (chargeGrant p uid pos s) = π s := by
  cases pos with
  | none => rfl
  | some i => exact (hsched ..).trans (hsched ..)

/-- The fetch and its charge, before the registers show them. -/
def granted (p : Nat) (pos : Option Nat) (x : Sched) (descs : List (List Byte)) (s : State) : State :=
  chargeGrant p s.nextUid pos (takeDescs p descs { s with sched := x })

theorem grant_eq {descs : List (List Byte)} {p : Nat} {pos : Option Nat} {x : Sched} {s t : State} (harb : s.arbitrate = some (p, pos, x))
    (hburst : descs.length = s.burst p) (hlen : ∀ b ∈ descs, b.length = 64) (ht : t = granted p pos x descs s) :
    ∃ n, grant descs s = showSched (showPort p (incAll (R.SCHED_GRANT_COUNT (t.portClass p)) n t)) := by
  have hgood : ¬ (descs.length ≠ s.burst p ∨ descs.any (fun b => b.length ≠ 64) = true) := by simpa [hburst] using hlen
  subst ht
  refine ⟨((takeDescs p descs { s with sched := x }).fetchedFrom s.nextUid).length, ?_⟩
  rw [grant, harb]
  exact if_neg hgood

/-- What the registers do not show of a grant is as the fetch and the charge left it. -/
theorem grant_field {β : Type} (π : State → β) (hwr : ∀ t die f v, π (State.wr t die f v) = π t) {descs : List (List Byte)} {p : Nat} {pos : Option Nat}
    {x : Sched} {s : State} (harb : s.arbitrate = some (p, pos, x)) (hburst : descs.length = s.burst p) (hlen : ∀ b ∈ descs, b.length = 64) :
    π (grant descs s) = π (granted p pos x descs s) := by
  obtain ⟨n, hgrant⟩ := grant_eq harb hburst hlen rfl
  rw [hgrant, showSched_field π hwr, showPort_field π hwr, incAll_field π hwr]

theorem granted_field {β : Type} (π : State → β) (hwr : ∀ t die f v, π (State.wr t die f v) = π t)
    (hcmds : ∀ (s : State) l n, π { s with cmds := l, nextUid := n } = π s) (hsched : ∀ (s : State) x, π { s with sched := x } = π s)
    (p : Nat) (pos : Option Nat) (x : Sched) (descs : List (List Byte)) (s : State) : π (granted p pos x descs s) = π s := by
  rw [granted, chargeGrant_field π hsched, takeDescs_field π hwr hcmds, hsched]

theorem granted_fetched (p : Nat) (pos : Option Nat) (x : Sched) (descs : List (List Byte)) (s : State) :
    ∃ new, Fetched p descs new s (granted p pos x descs s) := by
  obtain ⟨new, hcmds, hdesc, heach, huid⟩ := takeDescs_fetched p descs { s with sched := x }
  refine ⟨new, ?_, hdesc, heach, ?_⟩
  · rw [granted, chargeGrant_field State.cmds fun _ _ => rfl, hcmds]
  · rw [granted, chargeGrant_field State.nextUid fun _ _ => rfl, huid]

/-! ## The status line (R156 to R159) -/

/-- The write of a die for a domain reaches the outside alone. -/
theorem hostPut_field {β : Type} (π : State → β) (hemit : ∀ s o, π (State.emit s o) = π s) (d : RSlot) (dom addr : Nat) (data : List Byte) (s : State) :
    π (hostPut d dom addr data s) = π s := by
  unfold hostPut
  split
  · rfl
  · exact hemit ..

@[simp] theorem lineOf_modLine_self (dom : Nat) (f : StatLine → StatLine) (s : State) : (modLine dom f s).lineOf dom = f (s.lineOf dom) :=
  assocGet_assocPut_self ..

/-- The die word takes its next number, and the common part is held for the die no more. -/
def lineTaken (d : RSlot) (dom : Nat) (s : State) : State := (nextDw d dom (modLine dom (fun y => { y with held := y.held.erase d }) s)).2

/-- The number that a die word takes. -/
def State.nextDwseq (s : State) (d : RSlot) (dom : Nat) : Nat :=
  ((match d with
    | .f0 => (s.lineOf dom).dwseq0
    | .f1 => (s.lineOf dom).dwseq1) + 1) % 2 ^ 32

theorem nextDw_held (d : RSlot) (dom : Nat) (s : State) :
    (nextDw d dom (modLine dom (fun y => { y with held := y.held.erase d }) s)).1 = s.nextDwseq d dom := by
  cases d <;> simp only [nextDw, State.nextDwseq, lineOf_modLine_self]

theorem writeCommon_down {d : RSlot} {dom : Nat} {s : State} (hdown : s.headOf d dom = none) :
    writeCommon d dom s = modLine dom (fun y => { y with held := if d ∈ y.held then y.held else d :: y.held }) s := if_pos (by simp [hdown])

/-- F0 makes one write of the common part and its die word. -/
theorem writeCommon_up_f0 {dom h : Nat} {s : State} (hup : s.headOf .f0 dom = some h) : writeCommon .f0 dom s =
    hostPut .f0 dom (s.lineAddr dom) ((s.lineOf dom).last ++ s.dieWord .f0 (s.nextDwseq .f0 dom)) (lineTaken .f0 dom s) := by
  rw [← nextDw_held]
  exact if_neg (by simp [hup])

/-- F1 makes two. -/
theorem writeCommon_up_f1 {dom h : Nat} {s : State} (hup : s.headOf .f1 dom = some h) : writeCommon .f1 dom s =
    hostPut .f1 dom (s.lineAddr dom + 0x38) (s.dieWord .f1 (s.nextDwseq .f1 dom))
      (hostPut .f1 dom (s.lineAddr dom) (s.lineOf dom).last (lineTaken .f1 dom s)) := by
  rw [← nextDw_held]
  exact if_neg (by simp [hup])

/-- What no write to the host and no line's number reaches, a common part written leaves alone. -/
theorem writeCommon_field {β : Type} (π : State → β) (hemit : ∀ s o, π (State.emit s o) = π s) (d : RSlot) (dom : Nat)
    (hheld : ∀ (s : State) (f : StatLine → List RSlot), π (modLine dom (fun y => { y with held := f y }) s) = π s) (htaken : ∀ s, π (lineTaken d dom s) = π s) (s : State) :
    π (writeCommon d dom s) = π s := by
  cases hup : s.headOf d dom with
  | none => rw [writeCommon_down hup, hheld]
  | some h =>
    cases d with
    | f0 => rw [writeCommon_up_f0 hup, hostPut_field π hemit, htaken]
    | f1 => rw [writeCommon_up_f1 hup, hostPut_field π hemit, hostPut_field π hemit, htaken]

theorem writeCommon_line_field {β : Type} (π : State → β) (hlines : ∀ (s : State) l, π { s with lines := l } = π s)
    (hemit : ∀ s o, π (State.emit s o) = π s) (d : RSlot) (dom : Nat) (s : State) : π (writeCommon d dom s) = π s :=
  writeCommon_field π hemit d dom (fun _ _ => hlines ..) (fun _ => (hlines ..).trans (hlines ..)) s

/-- Writing the common part gives no new LSEQ. -/
theorem lseq_writeCommon (d : RSlot) (dom : Nat) (s : State) : ((writeCommon d dom s).lineOf dom).lseq = (s.lineOf dom).lseq := by
  refine writeCommon_field (fun t => (t.lineOf dom).lseq) (fun _ _ => rfl) d dom (fun t f => ?_) (fun t => ?_) s
  · rw [lineOf_modLine_self]
  · have hnext : (lineTaken d dom t).lineOf dom = _ := assocGet_assocPut_self ..
    rw [hnext, lineOf_modLine_self]
    cases d <;> rfl

/-- F0 with its head up writes the common part and its die word at once. -/
theorem out_writeCommon_f0 {dom h : Nat} {s : State} (hup : s.headOf .f0 dom = some h) : (writeCommon .f0 dom s).out =
    .hostWrite .f0 h (s.lineAddr dom) ((s.lineOf dom).last ++ s.dieWord .f0 (s.nextDwseq .f0 dom)) :: s.out := by
  have hup' : (lineTaken .f0 dom s).headOf .f0 dom = some h := hup
  rw [writeCommon_up_f0 hup, hostPut, hup']
  rfl

/-- The LSEQ that the next update of a domain carries. -/
def State.nextLseq (s : State) (dom : Nat) : Nat := ((s.lineOf dom).lseq + 1) % 2 ^ 32

/-- The common part is formed afresh, with its next LSEQ. -/
def formCommon (dom : Nat) (s : State) : State :=
  modLine dom (fun x => { x with lseq := s.nextLseq dom, last := s.commonPart dom (s.nextLseq dom) }) s

/-- A die takes the common part into its digest, and writes it. -/
def updateOn (dom : Nat) (common : List Byte) (s : State) (d : RSlot) : State := writeCommon d dom (digestAdd d (natLe 8 (s.lineAddr dom) ++ common) s)

theorem statusUpdate_on {dom : Nat} {s : State} (hon : s.lineOn dom = true) :
    statusUpdate dom s = s.serving.foldl (updateOn dom (s.commonPart dom (s.nextLseq dom))) (formCommon dom s) := if_pos hon

theorem statusUpdate_off {dom : Nat} {s : State} (hoff : s.lineOn dom = false) : statusUpdate dom s = s := if_neg (by simp [hoff])

theorem digestAdd_field {β : Type} (π : State → β) (hmod : ∀ s d f, π (State.modRind s d f) = π s) (d : RSlot) (bs : List Byte) (s : State) :
    π (digestAdd d bs s) = π s := by
  unfold digestAdd
  split
  · exact hmod ..
  · rfl

theorem statusUpdate_field {β : Type} (π : State → β) (hlines : ∀ (s : State) l, π { s with lines := l } = π s) (hemit : ∀ s o, π (State.emit s o) = π s)
    (hmod : ∀ s d f, π (State.modRind s d f) = π s) (dom : Nat) (s : State) : π (statusUpdate dom s) = π s := by
  cases hon : s.lineOn dom with
  | false => rw [statusUpdate_off hon]
  | true =>
    rw [statusUpdate_on hon]
    exact (foldl_field π fun t d => (writeCommon_line_field π hlines hemit ..).trans (digestAdd_field π hmod ..)).trans (hlines ..)

theorem lseq_statusUpdate {dom : Nat} {s : State} (hon : s.lineOn dom = true) : ((statusUpdate dom s).lineOf dom).lseq = s.nextLseq dom := by
  have hdigest (d : RSlot) (bs : List Byte) (t : State) : ((digestAdd d bs t).lineOf dom).lseq = (t.lineOf dom).lseq :=
    digestAdd_field (fun t => (t.lineOf dom).lseq) (fun t d f => by simp [State.lineOf]) ..
  rw [statusUpdate_on hon]
  have hfold : ((s.serving.foldl (updateOn dom (s.commonPart dom (s.nextLseq dom))) (formCommon dom s)).lineOf dom).lseq =
      ((formCommon dom s).lineOf dom).lseq :=
    foldl_field (fun t : State => (t.lineOf dom).lseq) fun t d => (lseq_writeCommon ..).trans (hdigest ..)
  rw [hfold, formCommon, lineOf_modLine_self]

/-- An F1 part has the one die, which serves. -/
theorem State.serving_one {s : State} (h : s.part.f = 1) : s.serving = [.f0] := by
  have hserves : s.fenced .f0 = false := by
    rw [State.fenced, State.role, if_neg (by omega)]
    decide
  simp [State.serving, State.rinds, h, hserves]

theorem out_statusUpdate_one {dom h : Nat} {s : State} (hon : s.lineOn dom = true) (hpart : s.part.f = 1) (hup : s.headOf .f0 dom = some h) :
    (statusUpdate dom s).out = .hostWrite .f0 h (s.lineAddr dom)
      (s.commonPart dom (s.nextLseq dom) ++ s.dieWord .f0 (s.nextDwseq .f0 dom)) :: s.out := by
  have hdigest (bs : List Byte) : digestAdd .f0 bs (formCommon dom s) = formCommon dom s := if_neg (show s.part.f ≠ 2 by omega)
  have hnext : (formCommon dom s).nextDwseq .f0 dom = s.nextDwseq .f0 dom := by
    rw [State.nextDwseq, formCommon, lineOf_modLine_self]
    rfl
  rw [statusUpdate_on hon, State.serving_one hpart, List.foldl_cons, List.foldl_nil, updateOn, hdigest,
    out_writeCommon_f0 (s := formCommon dom s) (h := h) hup, hnext, formCommon, lineOf_modLine_self]
  rfl

/-! ## The rewrite pass (R143) -/

/-- An unreleased entry of an enabled port of a domain that a head of the die carries: the write that a rewrite pass makes of it. -/
def State.EntryDue (d : RSlot) (dom p : Nat) (e : Nat × List Byte) (o : Out) (s : State) : Prop :=
  s.portState p ≠ 0 ∧ s.portDomain p = dom ∧ e ∈ (s.portX p).slots ∧ ∃ h, s.headOf d dom = some h ∧ o = .hostWrite d h (s.cqBase p + 16 * e.1) e.2

/-- The entries of a port are written again, where it is an enabled one of the domain. -/
def rewritePort (d : RSlot) (dom : Nat) (s : State) (p : Nat) : State :=
  if s.portState p ≠ 0 ∧ s.portDomain p = dom then (s.portX p).slots.foldl (fun t e => hostPut d dom (t.cqBase p + 16 * e.1) e.2 t) s else s

theorem rewritePass_eq (d : RSlot) (dom : Nat) (s : State) : rewritePass d dom s =
    if ((List.range 256).foldl (rewritePort d dom) s).lineOn dom then writeCommon d dom ((List.range 256).foldl (rewritePort d dom) s)
    else (List.range 256).foldl (rewritePort d dom) s := rfl

theorem rewritePort_field {β : Type} (π : State → β) (hemit : ∀ s o, π (State.emit s o) = π s) (d : RSlot) (dom : Nat) (s : State) (p : Nat) :
    π (rewritePort d dom s p) = π s := by
  unfold rewritePort
  split
  · exact foldl_field π fun t e => hostPut_field π hemit ..
  · rfl

theorem rewritePass_field {β : Type} (π : State → β) (hlines : ∀ (s : State) l, π { s with lines := l } = π s) (hemit : ∀ s o, π (State.emit s o) = π s)
    (d : RSlot) (dom : Nat) (s : State) : π (rewritePass d dom s) = π s := by
  have hports : π ((List.range 256).foldl (rewritePort d dom) s) = π s := foldl_field π (rewritePort_field π hemit d dom)
  rw [rewritePass_eq]
  split
  · exact (writeCommon_line_field π hlines hemit ..).trans hports
  · exact hports

/-- The pass that is due for a domain. -/
def rewriteDue (d : RSlot) (s : State) (x : Nat × Nat) : State := rewritePass d x.1 s

theorem rewriteDue_field {β : Type} (π : State → β) (hlines : ∀ (s : State) l, π { s with lines := l } = π s) (hemit : ∀ s o, π (State.emit s o) = π s)
    (d : RSlot) (s : State) (x : Nat × Nat) : π (rewriteDue d s x) = π s := rewritePass_field π hlines hemit d x.1 s

section
variable {d : RSlot} {dom p : Nat} {e : Nat × List Byte} {o : Out}

theorem entryDue_hostPut {c : RSlot} {k a : Nat} {bs : List Byte} {s : State} :
    (hostPut c k a bs s).EntryDue d dom p e o ↔ s.EntryDue d dom p e o := iff_of_eq (hostPut_field (State.EntryDue d dom p e o) (fun _ _ => rfl) ..)

theorem entryDue_rewritePort {k q : Nat} {s : State} : (rewritePort d k s q).EntryDue d dom p e o ↔ s.EntryDue d dom p e o :=
  iff_of_eq (rewritePort_field (State.EntryDue d dom p e o) (fun _ _ => rfl) ..)

theorem entryDue_modRind {f : RindDie → RindDie} {c : RSlot} {s : State} : (s.modRind c f).EntryDue d dom p e o ↔ s.EntryDue d dom p e o := by
  cases c <;> rfl

theorem mem_out_hostPut {c : RSlot} {k a : Nat} {bs : List Byte} {s : State} (h : o ∈ s.out) : o ∈ (hostPut c k a bs s).out :=
  (hostPut_kept (.refl s)).out.subset h

theorem mem_out_rewritePort {k q : Nat} {s : State} (h : o ∈ s.out) : o ∈ (rewritePort d k s q).out := by
  unfold rewritePort
  split
  · exact List.foldlRecOn (motive := fun t : State => o ∈ t.out) _ _ h fun t ht _ _ => mem_out_hostPut ht
  · exact h

theorem mem_out_rewritePass {k : Nat} {s : State} (h : o ∈ s.out) : o ∈ (rewritePass d k s).out := (rewritePass_kept (.refl s)).out.subset h

theorem rewritePort_writes {s : State} (h : s.EntryDue d dom p e o) : o ∈ (rewritePort d dom s p).out := by
  obtain ⟨hrun, hdom, hentry, -⟩ := id h
  rw [rewritePort, if_pos ⟨hrun, hdom⟩]
  refine foldl_of_mem_kept (I := State.EntryDue d dom p e o) (motive := fun t => o ∈ t.out) _ (fun t x => entryDue_hostPut.mpr)
    (fun t ht => ?_) (fun t x => mem_out_hostPut) hentry h
  obtain ⟨-, -, -, head, hup, rfl⟩ := ht
  rw [hostPut, hup]
  exact List.mem_cons_self

theorem rewritePass_writes {s : State} (hp : p < 256) (h : s.EntryDue d dom p e o) : o ∈ (rewritePass d dom s).out := by
  have hports : o ∈ ((List.range 256).foldl (rewritePort d dom) s).out :=
    foldl_of_mem_kept (I := State.EntryDue d dom p e o) (motive := fun t => o ∈ t.out) (rewritePort d dom) (a := p)
      (fun t q => entryDue_rewritePort.mpr) (fun t => rewritePort_writes) (fun t q => mem_out_rewritePort) (List.mem_range.mpr hp) h
  rw [rewritePass_eq]
  split
  · exact (writeCommon_kept (.refl _)).out.subset hports
  · exact hports

theorem entryDue_rewriteDue {x : Nat × Nat} {s : State} : (rewriteDue d s x).EntryDue d dom p e o ↔ s.EntryDue d dom p e o :=
  iff_of_eq (rewriteDue_field (State.EntryDue d dom p e o) (fun _ _ => rfl) (fun _ _ => rfl) ..)

/-- The passes over several domains write the entries of each. -/
theorem rewritePasses_write {due : List (Nat × Nat)} {x : Nat × Nat} {s : State} (hx : x ∈ due) (hp : p < 256) (h : s.EntryDue d x.1 p e o) :
    o ∈ (due.foldl (rewriteDue d) s).out :=
  foldl_of_mem_kept (I := State.EntryDue d x.1 p e o) (motive := fun t => o ∈ t.out) (rewriteDue d) (a := x) (fun _ _ => entryDue_rewriteDue.mpr)
    (fun _ => rewritePass_writes hp) (fun _ _ => mem_out_rewritePass) hx h

end

/-! ## The commands, and the obligation -/

/-- One pass fewer is due for each domain. -/
def passTaken (d : RSlot) (s : State) : State :=
  s.modRind d (fun r => { r with sole := ((s.rind d).sole.map (fun e => (e.1, e.2 - 1))).filter (fun e => e.2 ≠ 0) })

theorem rewritePass_due {d : RSlot} {s : State} (hd : d ∈ s.serving) :
    exec (.rewritePass d) s = .next ((s.rind d).sole.foldl (rewriteDue d) (passTaken d s)) := by
  show execRewritePass d s = _
  exact congrArg Host.Outcome.next (if_pos hd)

theorem descriptorFetchTimeout_eq (d : RSlot) (p : Nat) (s : State) : exec (.descriptorFetchTimeout d p) s =
    .next (settle (if d = s.senior ∧ d ∈ s.serving ∧ s.portEligible p then portError p 4 (newStep 0x08 p 4 s) else s)) := (rfl)

theorem statusLineUpdate_eq {d : RSlot} {dom : Nat} {s : State} (hd : s.hasRind d = true) (hdom : dom < 16) :
    exec (.statusLineUpdate d dom) s = .next (if s.fenced d then writeDieWord d dom s else statusUpdate dom s) := by
  show execStatusLineUpdate d dom s = _
  exact if_pos ⟨hd, hdom⟩

theorem statusLineUpdate_serving {d : RSlot} {dom : Nat} {s : State} (hd : s.hasRind d = true) (hdom : dom < 16) (hf : s.fenced d = false) :
    exec (.statusLineUpdate d dom) s = .next (statusUpdate dom s) := by
  rw [statusLineUpdate_eq hd hdom, if_neg (by simp [hf])]

/-- Settles O15: the commands that a grant adds, the fetch that goes unanswered, the writes of a status line and those of a rewrite pass. -/
theorem fetchesAndStatusLines : Obligations.FetchesAndStatusLines := by
  refine ⟨fun descs p pos x s harb hburst hlen => ?grant, fun d p s hsenior hd heligible => ?timeout, fun d p s hjunior => ?junior,
    fun d dom s hd hdom hf hon => ⟨_, statusLineUpdate_serving hd hdom hf, lseq_statusUpdate hon, ?_, ?_, fun hpart hup => ?line⟩,
    fun d dom s hd hdom hf => ?fenced, fun d dom s hd hdom hf hoff => ?off,
    fun d s hd => ⟨_, rewritePass_due hd, ?_, ?_, fun x hx p hp hrun hdom h hup e he => ?rewrite⟩⟩
  case grant =>
    obtain ⟨new, hcmds, hdesc, heach, huid⟩ := granted_fetched p pos x descs s
    have hshown {β : Type} (π : State → β) (hwr : ∀ t die f v, π (State.wr t die f v) = π t) : π (grant descs s) = π (granted p pos x descs s) :=
      grant_field π hwr harb hburst hlen
    refine ⟨grant descs s, new, rfl, (hshown State.cmds fun _ _ _ _ => rfl).trans hcmds, hdesc, heach, (hshown State.nextUid fun _ _ _ _ => rfl).trans huid,
      ?_, ?_, ?_⟩
    · rintro rfl
      exact (hshown State.sched fun _ _ _ _ => rfl).trans (takeDescs_field State.sched (fun _ _ _ _ => rfl) (fun _ _ _ => rfl) ..)
    · exact (hshown State.flash fun _ _ _ _ => rfl).trans (granted_field State.flash (fun _ _ _ _ => rfl) (fun _ _ _ => rfl) (fun _ _ => rfl) ..)
    · exact (hshown State.versions fun _ _ _ _ => rfl).trans (granted_field State.versions (fun _ _ _ _ => rfl) (fun _ _ _ => rfl) (fun _ _ => rfl) ..)
  case timeout => rw [descriptorFetchTimeout_eq, if_pos ⟨hsenior, hd, heligible⟩]
  case junior => rw [descriptorFetchTimeout_eq, if_neg fun h => hjunior h.1]
  · exact statusUpdate_field State.regs (fun _ _ => rfl) (fun _ _ => rfl) State.regs_modRind ..
  · exact statusUpdate_field State.cmds (fun _ _ => rfl) (fun _ _ => rfl) State.cmds_modRind ..
  case line =>
    obtain ⟨h, hh⟩ := Option.ne_none_iff_exists'.mp hup
    exact ⟨h, out_statusUpdate_one hon hpart hh⟩
  case fenced => rw [statusLineUpdate_eq hd hdom, if_pos hf]
  case off => rw [statusLineUpdate_serving hd hdom hf, statusUpdate_off hoff]
  · exact (foldl_field State.regs (rewriteDue_field State.regs (fun _ _ => rfl) (fun _ _ => rfl) d)).trans (State.regs_modRind ..)
  · exact (foldl_field State.cmds (rewriteDue_field State.cmds (fun _ _ => rfl) (fun _ _ => rfl) d)).trans (State.cmds_modRind ..)
  case rewrite =>
    exact rewritePasses_write hx hp (e := e) (entryDue_modRind.mpr ⟨hrun, hdom, he, h, hup, rfl⟩)

end Sys2Proof.Machine
end

section
/-! The work of commands, and their completion: O17. -/

namespace Sys2Proof.Machine

/-! ## Completions (R134, R136, R139) -/

/-- The entry that the completion of a command writes, before it has a slot (R136). -/
def State.compOf (s : State) (c : Cmd) (status info : Nat) : Comp :=
  { uid := c.uid, port := c.port, seq := s.rdS (R.PORT_SEQ_NEXT c.port), info := info % 2 ^ 32, tag := c.tag, status := status
    sqhead := s.rdS (R.PORT_STAT_SQHEAD c.port), sqidx := c.sqidx, block := if s.inTwo then some (s.rind s.senior).step.block else none }

/-- No engine holds a command any more. -/
def engineHoldsEnd (uid : Nat) (s : State) : State :=
  s.serving.foldl (fun t d => t.modRind d (fun r => { r with engines := r.engines.map (fun g => { g with held := g.held.filter (· ≠ uid) }) })) s

/-- The command has left the outstanding commands, its entry waits, and the port's next number is taken. -/
def completed (c : Cmd) (status info : Nat) (s : State) : State :=
  engineHoldsEnd c.uid (wrAll (R.PORT_SEQ_NEXT c.port) ((s.rdS (R.PORT_SEQ_NEXT c.port) + 1) % 2 ^ 32)
    { s with cmds := s.cmds.filter (fun x => x.uid ≠ c.uid), comps := s.comps ++ [s.compOf c status info] })

theorem complete_eq (c : Cmd) (status info : Nat) (s : State) :
    complete c status info s = pumpPort c.port (showSched (retire (freeReleased (completed c status info s)))) := (rfl)

/-- Beside the commands and the waiting entries, a completion generated reaches registers and the Rind dies' own state alone. -/
theorem completed_field {β : Type} (π : State → β) (hwr : ∀ t die f v, π (State.wr t die f v) = π t) (hmod : ∀ t d f, π (State.modRind t d f) = π t)
    (c : Cmd) (status info : Nat) (s : State) : π (completed c status info s) =
      π { s with cmds := s.cmds.filter (fun x => x.uid ≠ c.uid), comps := s.comps ++ [s.compOf c status info] } :=
  (foldl_field π fun _ _ => hmod ..).trans (wrAll_field π hwr ..)

/-! ## What a command may complete with (R176, R221) -/

theorem outcome_now {c : Cmd} {r : Nat × Nat} {s : State} (h : s.outcomeNow c = some r) : s.outcome c = some r := by
  rw [State.outcome, h]

/-- A READ whose blocks are all there and whose data has all gone to the host may complete. -/
theorem outcomeNow_read {c : Cmd} {s : State} (hop : c.op = 1) (hfail : c.fail = none) (hphase : c.phase = .admitted) (hflash : c.flash = false)
    (hbad : s.badOf c = []) (hmeta : c.flag 1 = false) (hhaz : s.hazard c = false) (hmoved : movedAll c.moved (4096 * c.nblk) = true) :
    s.outcomeNow c = some (St.success, c.info) := by
  have hgo : ¬ (c.phase = .fetched ∨ c.flash = true) := by simp [hphase, hflash]
  unfold State.outcomeNow
  simp only [hfail, if_neg hgo, hop]
  simp [hbad, hmeta, hhaz, hmoved]

theorem generateCompletion_may {p tag st info : Nat} {c : Cmd} {s : State} (hc : s.cmdOf p tag = some c) (hout : s.outcome c = some (st, info)) :
    exec (.generateCompletion p tag) s =
      .next (settle (inStep (fun d t => answerAny d 0x0A 2 (openReply 0x0A 2 [p, tag]) true t) (complete c st info (finish c st s)))) := by
  show Host.Outcome.next (settle (generateCompletion p tag s)) = _
  simp [generateCompletion, tryComplete, hc, hout]

/-! ## The engines of a command (R208, R210, R470) -/

theorem readCommandRecord_held {d : RSlot} {e p tag : Nat} {c : Cmd} {s : State} (hc : s.cmdOf p tag = some c) :
    exec (.readCommandRecord d e p tag) s = .next (settle (reply (.rind d e) 0x0A 1 (openReply 0x0A 1 (c.desc.map BitVec.toNat)) true
      (modEng (.rind d e) (fun g => { g with held := c.uid :: g.held.filter (· ≠ c.uid) }) s))) := by
  show execReadCommandRecord d e p tag s = _
  rw [execReadCommandRecord, hc]

theorem readCommandRecord_none {d : RSlot} {e p tag : Nat} {s : State} (hc : s.cmdOf p tag = none) :
    exec (.readCommandRecord d e p tag) s = .next (settle (reply (.rind d e) 0x0A 1 (openReply 0x0A 1 []) false s)) := by
  show execReadCommandRecord d e p tag s = _
  rw [execReadCommandRecord, hc]

theorem takeMediaOperation_taken {g : Nat} {times : List Nat} {o : MediaOp} {s : State} (hact : s.groupActive g = true)
    (hop : s.nextMediaOp g times = some o) : exec (.takeMediaOperation g times) s = .next (settle (inStep (fun d t => reply (.rind d g) 0x0B 1
      (openReply 0x0B 1 (o.uid :: o.rung :: o.blocks.map Prod.snd)) true t) (takeOp g o s))) := by
  show execTakeMediaOperation g times s = _
  simp only [execTakeMediaOperation, hact, if_true, hop]

theorem worked_takeOp (g : Nat) (o : MediaOp) (s : State) : assocGet g 0 (takeOp g o s).xlat.worked = s.now := by
  refine (assocGet_assocPut_self ..).trans ?_
  split <;> rfl

/-- The operation writes the version out. -/
def MediaOp.takes (o : MediaOp) (x : Version) : Bool := decide (x.uid = o.uid) && o.blocks.any (fun b => decide (b = (x.vol, x.blk)))

theorem versions_takeOp {g : Nat} {o : MediaOp} {s : State} (hwrite : o.write = true) :
    (takeOp g o s).versions = s.versions.map (fun x => if o.takes x then { x with taken := true } else x) := by
  rw [takeOp, if_pos hwrite]
  rfl

/-- The versions that a write operation stands for are in its hands. -/
theorem taken_takeOp {g : Nat} {o : MediaOp} {s : State} (hwrite : o.write = true) {x : Version} (hx : x ∈ (takeOp g o s).versions)
    (huid : x.uid = o.uid) (hblk : (x.vol, x.blk) ∈ o.blocks) : x.taken = true := by
  rw [versions_takeOp hwrite] at hx
  obtain ⟨y, -, rfl⟩ := List.mem_map.mp hx
  by_cases hy : o.takes y = true
  · rw [if_pos hy]
  · rw [if_neg hy] at huid hblk
    exact absurd (by simpa [MediaOp.takes, huid] using hblk) hy

theorem releaseHazard_freed {p tag : Nat} {c : Cmd} {s : State} (hc : s.cmdOf p tag = some c) :
    exec (.releaseHazard p tag) s = .next (settle (inStep (fun d t => answerAny d 0x0B 2 (openReply 0x0B 2 []) true t)
      (showSched (retire (modCmd c.uid (fun x => { x with freed := true }) s))))) := by
  show execReleaseHazard p tag s = _
  rw [execReleaseHazard, hc]

/-! ## The command timeout (R549 to R553) -/

/-- The commands, the versions and the waiting entries of a state: what hosts have asked and what is owed to them. -/
def State.work (s : State) : List Cmd × List Version × List Comp := (s.cmds, s.versions, s.comps)

theorem work_postEvent (e : Eng) (cls : Nat) (data : BitVec 64) (s : State) : (postEvent e cls data s).work = s.work := by
  have hmod (f : Engine → Engine) : (modEng e f s).work = s.work := by cases e <;> simp [modEng, State.work]
  unfold postEvent
  split
  · exact hmod _
  · rfl

theorem work_ctrlTo (d : RSlot) (g : Nat) (ws : List Word) (s : State) : (ctrlTo d g ws s).work = s.work := by
  have hmod (t : State) (c : RSlot) (f : RindDie → RindDie) : (t.modRind c f).work = t.work := by simp [State.work]
  have hend (t : State) (e : LinkEnd) (f : FvEnd → FvEnd) : (t.modEnd e f).work = t.work := by cases e <;> simp [State.modEnd, State.work]
  rw [ctrlTo, toCurd, sendMsg_field hend (fun _ _ => rfl) fun _ _ _ _ => rfl, digestAdd_field State.work hmod]
  exact hmod ..

/-- The engines that hold the command are told, and its runs are ended at the Curd dies (R551). -/
def timeoutTold (port tag : Nat) (c : Cmd) (s : State) : State :=
  let s := inStep (fun d t => (List.range 8).foldl (fun t e =>
    if c.uid ∈ (t.eng (.rind d e)).held then postEvent (.rind d e) 7 (BitVec.ofNat 64 (Config.openNat 18 [port, tag])) t else t) t) s
  inStep (fun d t => (s.runsOf c).foldl (fun t r => ctrlTo d r.1 [BitVec.ofNat 32 (0x53 * 2 ^ 24), BitVec.ofNat 32 r.2] t) t) s

theorem work_timeoutTold (port tag : Nat) (c : Cmd) (s : State) : (timeoutTold port tag c s).work = s.work := by
  refine (inStep_field State.work (fun d t => foldl_field State.work fun t r => work_ctrlTo ..) _).trans ?_
  refine inStep_field State.work (fun d t => foldl_field State.work fun t e => ?_) s
  split
  · exact work_postEvent ..
  · rfl

/-- The command completes, and rung 3 notes its use on each die (R550, R551). -/
def timeoutRecovered (port tag : Nat) (c : Cmd) (s : State) : State :=
  inStep (fun d t => raise d 0x0C1 [port, tag] (useRung d 3 t)) (recoverCmd c 3 (timeoutTold port tag c s))

/-- Rung 3 names the unit that it resets, where there is one (R552). -/
def unitNamed (unit : Option RUnit) (s : State) : State :=
  match unit with
  | some u => inStep (fun d t => nameUnit d u t) s
  | none => s

theorem commandTimeout_recovers {p tag : Nat} {c : Cmd} {unit : Option RUnit} {s : State} (hc : s.cmdOf p tag = some c) (hphase : c.phase = .admitted) :
    exec (.commandTimeout p tag unit) s = .next (settle (unitNamed unit (timeoutRecovered p tag c s))) := by
  have hgo : ¬ c.phase = .fetched := by simp [hphase]
  show execCommandTimeout p tag unit s = _
  rw [execCommandTimeout, hc]
  cases unit <;> exact if_neg hgo

/-- Settles O17: when a command completes and what its entry says; what engines take and give back; and what a timeout does. -/
theorem commandWorkAndCompletion : Obligations.CommandWorkAndCompletion := by
  refine ⟨fun p tag st info c s hc hout => generateCompletion_may hc hout,
    fun c s hop hfail hphase hflash hbad hmeta hhaz hmoved => outcome_now (outcomeNow_read hop hfail hphase hflash hbad hmeta hhaz hmoved),
    fun c st info s => ⟨completed c st info s, s.compOf c st info, complete_eq .., ?_, ?_, rfl, rfl, rfl, rfl, rfl, rfl, rfl, ?_, ?_⟩,
    fun d e p tag c s hc => readCommandRecord_held hc, fun d e p tag s hc => readCommandRecord_none hc,
    fun g times o s hact hop => takeMediaOperation_taken hact hop,
    fun g o s => ⟨worked_takeOp g o s, fun hwrite x hx huid hblk => taken_takeOp hwrite hx huid hblk⟩,
    fun p tag c s hc => releaseHazard_freed hc, fun p tag c unit s hc hphase => ?timeout, fun c info s hlive => if_neg hlive⟩
  · exact completed_field State.cmds (fun _ _ _ _ => rfl) State.cmds_modRind ..
  · exact completed_field State.comps (fun _ _ _ _ => rfl) State.comps_modRind ..
  · exact completed_field State.versions (fun _ _ _ _ => rfl) State.versions_modRind ..
  · exact completed_field State.out (fun _ _ _ _ => rfl) State.out_modRind ..
  case timeout =>
    obtain ⟨hcmds, hrest⟩ := Prod.mk.inj (work_timeoutTold p tag c s)
    obtain ⟨hversions, hcomps⟩ := Prod.mk.inj hrest
    refine ⟨timeoutTold p tag c s, timeoutRecovered p tag c s, hcmds, hversions, hcomps, rfl, ?_⟩
    rw [commandTimeout_recovers hc hphase]
    cases unit <;> rfl

end Sys2Proof.Machine
end

section
/-! The admin commands that report: O18. -/

namespace Sys2Proof.Machine

/-! ## A command that a row admits or refuses (R188) -/

section
variable {p st info : Nat} {ops : Nat → Bool} {sel : Cmd → Bool} {f : Cmd → State → State} {c : Cmd} {s : State}

theorem admitWith_ready (h : s.Ready p c) (hops : ops c.op = true) : admitWith p ops f s = showSched (showPort p (f c s)) := by
  obtain ⟨⟨hnext, hrun, hfail⟩, hadm⟩ := h
  simp [admitWith, hnext, hops, hrun, hfail, hadm]

/-- A command that fails a check completes with the check's status, whatever the row. -/
theorem admitWith_refused (h : s.NextIs p c) (hadm : s.admission c = some (st, info)) (hops : ops c.op = true) :
    admitWith p ops f s = complete c st info s := by
  obtain ⟨hnext, hrun, hfail⟩ := h
  simp [admitWith, hnext, hops, hrun, hfail, hadm]

theorem admitIf_refused (h : s.NextIs p c) (hadm : s.admission c = some (st, info)) (hsel : sel c = true) :
    admitIf p sel f s = settle (complete c st info s) := by
  rw [admitIf, h.1]
  dsimp only
  rw [if_pos hsel, admitWith_refused h hadm rfl]

end

/-! ## Structures of bytes (R192, R194, R558) -/

/-- Bytes that lie within a line leave its length. -/
theorem length_overBytes {l b : List Byte} {off n : Nat} (hl : l.length = n) (h : off + b.length ≤ n) : (overBytes l off b).length = n := by
  simp only [overBytes, List.length_append, List.length_take, List.length_drop]
  omega

/-- Fields that lie within the page leave it as long as it is. -/
theorem length_page {n : Nat} {fields : List (Nat × Nat × Nat)} (h : ∀ f ∈ fields, f.1 + f.2.1 ≤ n) : (page n fields).length = n := by
  have hfold (l : List Byte) (hl : l.length = n) : (fields.foldl (fun l f => overBytes l f.1 (natLe f.2.1 f.2.2)) l).length = n := by
    induction fields generalizing l with
    | nil => exact hl
    | cons f fields ih =>
      obtain ⟨hf, hfields⟩ := List.forall_mem_cons.mp h
      exact ih hfields _ (length_overBytes hl (by rw [length_natLe]; exact hf))
  exact hfold _ List.length_replicate

theorem length_padText (n : Nat) (t : String) : (padText n t).length = n := by
  simp [padText]

theorem State.length_deviceStructure (s : State) : s.deviceStructure.length = 4096 := by
  refine length_overBytes (length_overBytes (length_overBytes (length_page ?_) ?_) ?_) ?_
  · simp
  · simp [length_padText]
  · simp [length_padText]
  · simp

theorem VolDesc.length_bytes (d : VolDesc) : d.bytes.length = 32 := length_overBytes (length_page (by simp)) (by simp)

theorem State.length_volumeStructure (v : Nat) (s : State) : (s.volumeStructure v).length = 4096 := by
  unfold State.volumeStructure
  split
  · exact List.length_replicate
  · exact length_overBytes (length_page (by simp)) (by simp [VolDesc.length_bytes])

theorem State.length_slotPage (s : State) : s.slotPage.length = 64 := length_page (by simp)

theorem LogRec.length_bytes (r : LogRec) : r.bytes.length = 64 := by
  unfold LogRec.bytes
  rw [List.length_append, length_natLe, length_overBytes (length_page (by simp)) (by simp)]

/-! ## The commands -/

section
variable {p : Nat} {c : Cmd} {s : State} (h : s.Ready p c)
include h

theorem identify_ready (hop : c.op = 0x80) : exec (.identify p) s = .next (settle (showSched (showPort p (finishAt c St.success 0
    (toHost c (c.fld 0x10 8) (if c.fld 8 1 = 0 then s.deviceStructure else s.volumeStructure (c.fld 0xA 2)) s))))) :=
  congrArg Host.Outcome.next (admitIf_ready h (decide_eq_true hop))

theorem getFeatures_ready (hop : c.op = 0x82) : exec (.getFeatures p) s = .next (settle (showSched (showPort p (finishAt c St.success
    (leNat ((s.featureValue (c.fld 8 1) (c.fld 0xA 2) (c.fld 9 1)).take 4))
    (if c.fld 0x30 8 = 0 then s else toHost c (c.fld 0x30 8) (s.featureValue (c.fld 8 1) (c.fld 0xA 2) (c.fld 9 1)) s))))) :=
  congrArg Host.Outcome.next (admitIf_ready h (decide_eq_true hop))

theorem getLog_ready {l data : List Byte} (hop : c.op = 0x81)
    (hl : l = (if c.fld 8 1 = 1 then s.logPage else if c.fld 8 1 = 2 then s.faultPage else if c.fld 8 1 = 3 then s.tallyPage else s.slotPage))
    (hdata : data = (l.drop ((if c.fld 8 1 = 1 then 64 else 1) * c.fld 0x10 8)).take (c.fld 0xC 4)) :
    exec (.getLog p) s = .next (settle (showSched (showPort p (finishAt c St.success data.length
      (if data = [] then s else toHost c (c.fld 0x18 8) data s))))) := by
  refine (congrArg Host.Outcome.next (admitIf_ready h (decide_eq_true hop))).trans ?_
  generalize c.fld 8 1 = lid at hl hdata ⊢
  rcases lid with _ | _ | _ | _ | lid <;> simp [hdata, hl]

end

/-- Settles O18: each report by what its row admits or refuses, each structure by fields that lie within its page. -/
theorem adminReports : Obligations.AdminReports :=
  ⟨fun _ _ _ h => ⟨identify_ready h, getFeatures_ready h, fun _ _ => getLog_ready h⟩, State.length_deviceStructure, State.length_volumeStructure,
    State.length_slotPage, LogRec.length_bytes, fun _ _ _ _ _ h hadm =>
      ⟨fun hop => congrArg Host.Outcome.next (admitIf_refused h hadm (decide_eq_true hop)),
        fun hop => congrArg Host.Outcome.next (admitIf_refused h hadm (decide_eq_true hop)),
        fun hop => congrArg Host.Outcome.next (admitIf_refused h hadm (decide_eq_true hop))⟩⟩

end Sys2Proof.Machine
end

section
/-! What staging and writing journal records leaves alone (R248 to R250). -/

namespace Sys2Proof.Machine

/-- A part of the state that no journal record reaches: staging one moves the ring and the copies on the media, marks TRIM versions as written out,
and may raise an event. -/
structure JournalFree {β : Type} (π : State → β) : Prop extends EventFree π where
  staging : ∀ (s : State) (f : Xlat → Xlat), (∀ x, (f x).t = x.t) → π (modXlat f s) = π s
  copies : ∀ (s : State) l, π { s with mediaCopies := l } = π s
  written : ∀ (s : State) m, π { s with mediaTables := m, versions := s.versions.map (fun v => if v.trim then { v with media := true } else v) } = π s

section
variable {β : Type} {π : State → β}

theorem EventFree.raiseAll (hπ : EventFree π) (src : Nat) (detail : List Nat) (s : State) : π (raiseAll src detail s) = π s :=
  inStep_field π (fun _ _ => hπ.raise ..) s

/-- A copy that cannot be written is given up (R250). -/
def copiesKept (s : State) : State :=
  if (s.mediaCopies.filter s.groupOn).length < s.mediaCopies.length then
    wrAll R.XLAT_STAT_STATE 3 (raiseAll 0x060 [(s.mediaCopies.filter s.groupOn).length] { s with mediaCopies := s.mediaCopies.filter s.groupOn })
  else s

/-- The tables are on the media, and so are the TRIM versions that they tell of (R248, R252). -/
def sectorWritten (s : State) : State :=
  modXlat (fun x => { x with staged := 0, ring := x.ring + 1 })
    { s with mediaTables := some s.xlat.t, versions := s.versions.map (fun v => if v.trim then { v with media := true } else v) }

/-- The ring's fill is shown; a ring that is full enough starts anew from a checkpoint in two copies (R249, R250). -/
def ringShown (s : State) : State :=
  if 75 ≤ ringFill s.xlat.ring then
    let s : State := { s with mediaCopies := s.copyGroups }
    let s := if s.mediaCopies.length = 2 then wrAll R.XLAT_STAT_STATE 2 s else s
    wrAll R.XLAT_STAT_JFILL 0 (modXlat (fun x => { x with ring := 0 }) s)
  else wrAll R.XLAT_STAT_JFILL (ringFill s.xlat.ring) s

theorem writeJournal_eq {s : State} (h : s.xlat.staged ≠ 0) : writeJournal s = ringShown (sectorWritten (copiesKept s)) := if_neg h

section
variable (hπ : JournalFree π)
include hπ

theorem JournalFree.wrAll (f : Fld) (v : Nat) (s : State) : π (wrAll f v s) = π s := wrAll_field π hπ.wr ..

theorem JournalFree.copiesKept (s : State) : π (copiesKept s) = π s := by
  unfold Machine.copiesKept
  split
  · rw [hπ.wrAll, hπ.raiseAll, hπ.copies]
  · rfl

theorem JournalFree.sectorWritten (s : State) : π (sectorWritten s) = π s := by
  rw [Machine.sectorWritten, hπ.staging _ _ (by intro; rfl), hπ.written]

theorem JournalFree.ringShown (s : State) : π (ringShown s) = π s := by
  unfold Machine.ringShown
  split
  · dsimp only
    rw [hπ.wrAll, hπ.staging _ _ (by intro; rfl)]
    split
    · rw [hπ.wrAll, hπ.copies]
    · exact hπ.copies ..
  · exact hπ.wrAll ..

theorem JournalFree.writeJournal (s : State) : π (writeJournal s) = π s := by
  by_cases h : s.xlat.staged = 0
  · exact congrArg π (if_pos h)
  · rw [writeJournal_eq h, hπ.ringShown, hπ.sectorWritten, hπ.copiesKept]

theorem JournalFree.journal (s : State) : π (journal s) = π s := by
  unfold Machine.journal
  dsimp only
  split
  · rw [hπ.writeJournal, hπ.staging _ _ (by intro; rfl)]
  · exact hπ.staging _ _ (by intro; rfl)

end

end

/-- The tables themselves stay: a record tells of a change made before it. -/
theorem journalFree_tables : JournalFree (fun s => s.xlat.t) where
  wr _ _ _ _ := rfl
  modRind _ _ _ := by simp
  stopAlive _ := rfl
  todo _ _ := rfl
  staging _ _ h := h _
  copies _ _ := rfl
  written _ _ := rfl

end Sys2Proof.Machine
end

section
/-! Volumes created, changed and deleted: O20. -/

namespace Sys2Proof.Machine

/-! ## What passes is saved first (R197, R198) -/

theorem saveVolume_begins {c : Cmd} {v : Nat} {new : Option Volume} {s : State} (hstop : s.flashStop true = none) (hop : s.flash.op = none)
    (hvol : s.xlat.pendingVol = none) :
    ∃ st, (saveVolume c v new s).xlat.pendingVol = some (v, new) ∧ (saveVolume c v new s).xlat.t = s.xlat.t ∧
      (saveVolume c v new s).flash.op = some (.settings (1 - s.boot.setCopy) st [] c.port c.tag false) ∧ st.sseq = (s.boot.sseq + 1) % 2 ^ 32 := by
  have hfree : ¬ (s.flash.op.isSome = true ∨ s.xlat.pendingVol.isSome = true) := by simp [hop, hvol]
  unfold saveVolume
  rw [hstop]
  dsimp only
  rw [if_neg hfree]
  exact ⟨_, rfl, rfl, rfl, rfl⟩

/-! ## The commands (R197, R242, R243) -/

section
variable {p : Nat} {c : Cmd} {s : State} (h : s.Ready p c)
include h

theorem volumeCreate_ready (hsel : s.setsVolume c false false = true) :
    exec (.volumeCreate p) s = .next (settle (showSched (showPort p (if s.permitted c.volDesc = [] then finishAt c St.invalidField 0x10 s
      else if createVolume (c.fld 0xA 2) c.volDesc s = none then finishAt c St.capacity (s.freeFor c.volDesc) s
      else saveVolume c (c.fld 0xA 2) (some { desc := c.volDesc }) s)))) := by
  refine (congrArg Host.Outcome.next (admitIf_ready h hsel)).trans ?_
  simp only [List.isEmpty_iff, Option.isNone_iff_eq_none]

theorem volumeChange_ready {x : Volume} (hsel : s.setsVolume c false true = true) (hx : s.xlat.t.vol? (c.fld 0xA 2) = some x) :
    exec (.volumeChange p) s = .next (settle (showSched (showPort p
      (if { c.volDesc with rdmask := x.desc.rdmask, wrmask := x.desc.wrmask, label := x.desc.label } ≠ x.desc then finishAt c St.invalidField 0x10 s
      else if s.volumeNamed c (c.fld 0xA 2) = true then finishAt c St.volumeBusy 0 s
      else saveVolume c (c.fld 0xA 2) (some { x with desc := c.volDesc }) s)))) := by
  refine (congrArg Host.Outcome.next (admitIf_ready h hsel)).trans ?_
  dsimp only
  rw [hx]

theorem volumeDelete_ready (hop : c.op = 0x83) (hfid : c.fld 8 1 = 0x10) (hcls : c.fld 0x10 1 = 0) :
    exec (.volumeDelete p) s = .next (settle (showSched (showPort p (if s.xlat.t.vol? (c.fld 0xA 2) = none then finishAt c St.noVolume 0 s
      else if s.volumeNamed c (c.fld 0xA 2) = true then finishAt c St.volumeBusy 0 s
      else saveVolume c (c.fld 0xA 2) none s)))) := by
  have hsel : (s.setsVolume c true true || s.setsVolume c true false) = true := by
    cases hx : (s.xlat.t.vol? (c.fld 0xA 2)).isSome <;> simp [State.setsVolume, hop, hfid, hcls, hx]
  refine (congrArg Host.Outcome.next (admitIf_ready h hsel)).trans ?_
  simp only [Option.isNone_iff_eq_none]

end

/-! ## The change reaches the tables (R197) -/

theorem applyVolume_deletes {v : Nat} {s : State} (h : s.xlat.pendingVol = some (v, none)) :
    applyVolume true s = (none, writeJournal (deleteVolume v (modXlat (fun x => { x with pendingVol := none }) s))) := by
  rw [applyVolume, h]
  rfl

theorem vol?_assocDel (t : Tables) (v : Nat) (lost : List (Nat × Nat)) : ({ t with vols := assocDel v t.vols, lost := lost } : Tables).vol? v = none := by
  simp [Tables.vol?, assocDel]

theorem tables_deleteVolume (v : Nat) (s : State) :
    ∃ t : Tables, (deleteVolume v s).xlat.t = { t with vols := assocDel v t.vols, lost := t.lost.filter (fun p => p.1 ≠ v) } :=
  ⟨_, congrArg (fun t : Tables => { t with lost := t.lost.filter (fun p => p.1 ≠ v) }) (journalFree_tables.journal _)⟩

theorem vol?_deleteVolume (v : Nat) (s : State) : (deleteVolume v s).xlat.t.vol? v = none := by
  obtain ⟨t, ht⟩ := tables_deleteVolume v s
  rw [ht, vol?_assocDel]

theorem vol_of_mem_deleteVolume {v : Nat} {s : State} {x : Version} (hx : x ∈ (deleteVolume v s).versions) : x.vol ≠ v := by
  simpa using List.of_mem_filter hx

/-- Settles O20: each command by the branches of its row, a change that passes by the copy of the settings it waits for, a deletion by what it drops. -/
theorem volumeChanges : Obligations.VolumeChanges := by
  refine ⟨fun p c s h hsel => ?create, fun p c x s h hsel hx => ?change, fun p c s h hop hfid hcls => ?delete,
    fun c v new s => saveVolume_begins, fun v s h => ⟨_, applyVolume_deletes h, rfl⟩,
    fun v s => ⟨vol?_deleteVolume v s, fun _ => vol_of_mem_deleteVolume⟩⟩
  case create =>
    rw [volumeCreate_ready h hsel]
    exact ⟨fun hnone => by rw [if_pos hnone], fun hsome hfull => by rw [if_neg hsome, if_pos hfull],
      fun hsome hroom => by rw [if_neg hsome, if_neg hroom]⟩
  case change =>
    rw [volumeChange_ready h hsel hx]
    exact ⟨fun hdiff => by rw [if_pos hdiff], fun hsame hbusy => by rw [if_neg (not_not.mpr hsame), if_pos hbusy],
      fun hsame hidle => by rw [if_neg (not_not.mpr hsame), if_neg (by simp [hidle])]⟩
  case delete =>
    rw [volumeDelete_ready h hop hfid hcls]
    exact ⟨fun hnone => by rw [if_pos hnone], fun hsome hbusy => by rw [if_neg hsome, if_pos hbusy],
      fun hsome hidle => by rw [if_neg hsome, if_neg (by simp [hidle])]⟩

end Sys2Proof.Machine
end

section
/-! What a change of the tables leaves alone (R237 to R256). -/

namespace Sys2Proof.Machine

/-- A part of the state that no change of the tables reaches: the tables, the write buffer's versions, the copies on the media and what an event
writes are apart from it. -/
structure TablesFree {β : Type} (π : State → β) : Prop extends EventFree π where
  xlat : ∀ (s : State) f, π (modXlat f s) = π s
  versions : ∀ (s : State) l, π { s with versions := l } = π s
  media : ∀ (s : State) m l, π { s with mediaTables := m, mediaCopies := l } = π s

section
variable {β : Type} {π : State → β} (hπ : TablesFree π)
include hπ

theorem TablesFree.journalFree : JournalFree π where
  toEventFree := hπ.toEventFree
  staging s f _ := hπ.xlat s f
  copies s l := hπ.media s s.mediaTables l
  written s m := (hπ.versions { s with mediaTables := m } _).trans (hπ.media s m s.mediaCopies)

theorem TablesFree.journal (s : State) : π (journal s) = π s := hπ.journalFree.journal s

theorem TablesFree.modT (f : Tables → Tables) (s : State) : π (modT f s) = π s := hπ.xlat ..

theorem TablesFree.showXlat (s : State) : π (showXlat s) = π s := by
  have hwr (f : Fld) (v : Nat) (t : State) : π (wrAll f v t) = π t := wrAll_field π hπ.wr ..
  unfold Machine.showXlat
  simp only [hwr]
  exact foldl_field π fun t g => by simp only [hwr]

/-! ## Slots and bands (R244, R254, R256, R259) -/

theorem TablesFree.abandonReloc (sl : SlotNo) (s : State) : π (abandonReloc sl s) = π s := by
  rw [Machine.abandonReloc, hπ.modT, hπ.xlat]

theorem TablesFree.vacate (sl : SlotNo) (count : Nat) (s : State) : π (vacate sl count s) = π s := by
  unfold Machine.vacate
  split
  · rw [retireSlot, hπ.modT, hπ.modT]
  · exact hπ.modT ..

theorem TablesFree.freeSlot (sl : SlotNo) (s : State) : π (freeSlot sl s) = π s := by
  unfold Machine.freeSlot
  dsimp only
  split
  · exact hπ.abandonReloc ..
  · rw [hπ.journal, hπ.vacate, hπ.abandonReloc]

theorem TablesFree.dropBlocks (v k : Nat) (s : State) : π (dropBlocks v k s) = π s := (hπ.modT ..).trans (hπ.versions ..)

theorem TablesFree.releaseBand (v k : Nat) (s : State) : π (releaseBand v k s) = π s := by
  unfold Machine.releaseBand
  split
  · rfl
  · split
    · rw [hπ.journal, hπ.modT, hπ.abandonReloc]
    · rw [hπ.freeSlot, hπ.dropBlocks]

theorem TablesFree.moveQuota (v a b : Nat) (s : State) : π (moveQuota v a b s) = π s := by
  unfold Machine.moveQuota
  split
  · rfl
  · exact hπ.modT ..

theorem TablesFree.takeSlot (sl : SlotNo) (st : BandState) (v i : Nat) (tpar : Bool) (s : State) : π (takeSlot sl st v i tpar s) = π s :=
  (hπ.journal _).trans (hπ.modT ..)

theorem TablesFree.openBand {v k : Nat} {s t : State} (h : openBand v k s = some t) : π t = π s := by
  unfold Machine.openBand at h
  split at h
  · cases h
  · next g from' _ =>
    dsimp only at h
    split at h
    · cases h
    · obtain rfl := Option.some.inj h
      rw [hπ.takeSlot, hπ.modT]
      split
      · exact hπ.moveQuota ..
      · rfl

theorem TablesFree.openBands {v n k : Nat} {s t : State} (h : openBands v k n s = some t) : π t = π s := by
  induction n generalizing k s with
  | zero => rw [Option.some.inj h]
  | succ n ih =>
    rw [Machine.openBands] at h
    split at h
    · exact ih h
    · obtain ⟨u, hu, ht⟩ := Option.bind_eq_some_iff.mp h
      exact (ih ht).trans (hπ.openBand hu)

/-! ## Stream volumes (R164, R182) -/

theorem TablesFree.ringAdvance (v wp n : Nat) (s : State) : π (ringAdvance v wp n s) = π s := by
  induction n generalizing s with
  | zero => rfl
  | succ n ih =>
    rw [Machine.ringAdvance]
    split
    · rfl
    · split
      · dsimp only
        rw [ih, hπ.modT, hπ.releaseBand]
      · rfl

theorem TablesFree.trimBands (v last n k : Nat) (s : State) : π (trimBands v last n k s).2 = π s := by
  induction n generalizing k s with
  | zero => rfl
  | succ n ih =>
    rw [Machine.trimBands]
    split
    · rfl
    · split
      · rw [ih, hπ.modT, hπ.releaseBand]
      · rfl

theorem TablesFree.withdraw (uid : Nat) (s : State) : π (withdraw uid s) = π s := by
  unfold Machine.withdraw
  dsimp only
  split
  · exact hπ.versions ..
  · rw [hπ.journal, hπ.modT, hπ.versions]

end

end Sys2Proof.Machine
end

section
/-! Admission of I/O commands: O16. -/

namespace Sys2Proof.Machine

/-! ## The outstanding commands (R209) -/

/-- What admission goes by: the outstanding commands, the next admission index and the time. -/
def State.queue (s : State) : List Cmd × Nat × Nat := (s.cmds, s.nextIndex, s.now)

/-- What admission gives a command, and what it leaves it (R209). -/
def Cmd.admittedPart (x : Cmd) : Nat × CmdPhase × Nat × Nat × List Byte × Nat × Nat := (x.uid, x.phase, x.index, x.at_, x.desc, x.port, x.tag)

theorem cmds_of_queue {s t : State} (h : t.queue = s.queue) : t.cmds = s.cmds := congrArg Prod.fst h

theorem tablesFree_queue : TablesFree State.queue where
  wr _ _ _ _ := (rfl)
  modRind _ d _ := by cases d <;> rfl
  stopAlive _ := (rfl)
  todo _ _ := (rfl)
  xlat _ _ := (rfl)
  versions _ _ := (rfl)
  media _ _ _ := (rfl)

theorem tablesFree_budget : TablesFree State.budget where
  wr _ _ _ _ := (rfl)
  modRind _ d _ := by cases d <;> rfl
  stopAlive _ := (rfl)
  todo _ _ := (rfl)
  xlat _ _ := (rfl)
  versions _ _ := (rfl)
  media _ _ _ := (rfl)

theorem mem_modCmd_other {uid : Nat} {f : Cmd → Cmd} {y : Cmd} {s : State} (hy : y ∈ s.cmds) (h : y.uid ≠ uid) : y ∈ (modCmd uid f s).cmds :=
  List.mem_map.mpr ⟨y, hy, if_neg h⟩

theorem mem_modCmd_self {uid : Nat} {f : Cmd → Cmd} {y : Cmd} {s : State} (hy : y ∈ s.cmds) (h : y.uid = uid) : f y ∈ (modCmd uid f s).cmds :=
  List.mem_map.mpr ⟨y, hy, if_pos h⟩

theorem State.mem_of_nextFetched {p : Nat} {c : Cmd} {s : State} (h : s.nextFetched p = some c) : c ∈ s.cmds := by
  unfold State.nextFetched at h
  split at h
  · next x hx =>
    split at h
    · cases h
    · obtain rfl := Option.some.inj h
      exact List.mem_of_find?_eq_some hx
  · cases h

theorem State.Ready.mem {p : Nat} {c : Cmd} {s : State} (h : s.Ready p c) : c ∈ s.cmds := State.mem_of_nextFetched h.1.1

section
variable {c : Cmd} {s t : State}

theorem mem_admitCmd (hc : c ∈ s.cmds) : { c with phase := .admitted, index := s.nextIndex, at_ := s.now } ∈ (admitCmd c s).cmds :=
  mem_modCmd_self hc rfl

theorem admitted_admitCmd (hc : c ∈ s.cmds) : Admitted c s (admitCmd c s) :=
  ⟨⟨_, mem_admitCmd hc, rfl, rfl, rfl, rfl, rfl, rfl, rfl⟩, fun _ hy hne => mem_modCmd_other hy hne, rfl⟩

/-- Admission depends on the queue alone. -/
theorem Admitted.congr {s' t' : State} (h : Admitted c s t) (hs : s'.queue = s.queue) (ht : t'.queue = t.queue) : Admitted c s' t' := by
  obtain ⟨hcmds, hindex, hnow⟩ : s'.cmds = s.cmds ∧ s'.nextIndex = s.nextIndex ∧ s'.now = s.now := by simpa [State.queue] using hs
  obtain ⟨hcmds', hindex', -⟩ : t'.cmds = t.cmds ∧ t'.nextIndex = t.nextIndex ∧ t'.now = t.now := by simpa [State.queue] using ht
  simpa only [Admitted, hcmds, hindex, hnow, hcmds', hindex'] using h

/-- What the admitted command notes for itself leaves it admitted. -/
theorem Admitted.modCmd {f : Cmd → Cmd} (h : Admitted c s t) (hf : ∀ x, (f x).admittedPart = x.admittedPart) : Admitted c s (modCmd c.uid f t) := by
  obtain ⟨⟨x, hx, huid, hentry⟩, hothers, hnext⟩ := h
  obtain ⟨fuid, fphase, findex, fat, fdesc, fport, ftag⟩ : (f x).uid = x.uid ∧ (f x).phase = x.phase ∧ (f x).index = x.index ∧ (f x).at_ = x.at_ ∧
      (f x).desc = x.desc ∧ (f x).port = x.port ∧ (f x).tag = x.tag := by simpa [Cmd.admittedPart] using hf x
  refine ⟨⟨f x, mem_modCmd_self hx huid, ?_⟩, fun y hy hne => mem_modCmd_other (hothers y hy hne) hne, hnext⟩
  rw [fuid, fphase, findex, fat, fdesc, fport, ftag]
  exact ⟨huid, hentry⟩

end

/-! ## What the operations of admission leave alone -/

theorem queue_shown (p : Nat) (s : State) : (showSched (showPort p s)).queue = s.queue :=
  (showSched_field State.queue tablesFree_queue.wr _).trans (showPort_field State.queue tablesFree_queue.wr p s)

theorem budget_shown (p : Nat) (s : State) : (showSched (showPort p s)).budget = s.budget :=
  (showSched_field State.budget (fun _ _ _ _ => rfl) _).trans (showPort_field State.budget (fun _ _ _ _ => rfl) p s)

theorem versions_shown (p : Nat) (s : State) : (showSched (showPort p s)).versions = s.versions :=
  (showSched_field State.versions (fun _ _ _ _ => rfl) _).trans (showPort_field State.versions (fun _ _ _ _ => rfl) p s)

theorem queue_refreshCopies (s : State) : (refreshCopies s).queue = s.queue := foldl_field State.queue fun _ _ => (rfl)

theorem length_versions_refreshCopies (s : State) : (refreshCopies s).versions.length = s.versions.length :=
  foldl_field (fun t : State => t.versions.length) fun _ _ => List.length_map _

theorem length_versions_makeVersions (c : Cmd) (v lo n : Nat) (s : State) : (makeVersions c v lo n s).versions.length = s.versions.length + n := by
  simp [makeVersions]

/-- Whose each version is, and whether it is whole. -/
def State.versionMarks (s : State) : List (Nat × Bool) := s.versions.map (fun x => (x.uid, x.whole))

theorem journalFree_versionMarks : JournalFree State.versionMarks where
  wr _ _ _ _ := (rfl)
  modRind _ d _ := by cases d <;> rfl
  stopAlive _ := (rfl)
  todo _ _ := (rfl)
  staging _ _ _ := (rfl)
  copies _ _ := (rfl)
  written s _ := by
    simp only [State.versionMarks, List.map_map]
    refine List.map_congr_left fun x _ => ?_
    dsimp only [Function.comp]
    split <;> rfl

/-- A version goes with its command (R189, R220): it is not whole, or it is a Stream block whose write-out failed. -/
def State.withdrawn (s : State) (uid : Nat) (x : Version) : Bool :=
  decide (x.uid = uid) && (! x.whole || (x.failed && ((s.xlat.t.vol? x.vol).map Volume.stream).getD false))

theorem versionMarks_withdraw (uid : Nat) (s : State) :
    (withdraw uid s).versionMarks = (s.versions.filter (fun x => ! s.withdrawn uid x)).map (fun x => (x.uid, x.whole)) := by
  unfold withdraw
  dsimp only
  split
  · rfl
  · exact journalFree_versionMarks.journal _

/-- No version of a withdrawn command stays unless it is whole (R220). -/
theorem whole_of_mem_withdraw {uid : Nat} {s : State} {x : Version} (hx : x ∈ (withdraw uid s).versions) (huid : x.uid = uid) : x.whole = true := by
  have hmark : (x.uid, x.whole) ∈ (withdraw uid s).versionMarks := List.mem_map_of_mem hx
  rw [versionMarks_withdraw] at hmark
  obtain ⟨y, hy, hyx⟩ := List.mem_map.mp hmark
  obtain ⟨hyuid, hywhole⟩ := Prod.mk.inj hyx
  have hstays : s.withdrawn uid y = false := by simpa using List.of_mem_filter hy
  rw [← hywhole]
  by_contra hpart
  exact absurd hstays (by simp [State.withdrawn, hyuid, huid, hpart])

/-! ## The rows (R166, R168, R188) -/

section
variable {p op st info : Nat} {f : Cmd → State → State} {c : Cmd} {s : State}

theorem admitOp_ready (h : s.Ready p c) (hop : c.op = op) : admitOp p op f s = settle (workArrived (showSched (showPort p (f c s)))) := by
  rw [admitOp, admitWith_ready h (decide_eq_true hop)]

theorem admitOp_refused (h : s.NextIs p c) (hadm : s.admission c = some (st, info)) (hop : c.op = op) :
    Host.Outcome.next (admitOp p op f s) = (.next (settle (workArrived (complete c st info s))) : Host.Outcome State Fault Refusal) := by
  rw [admitOp, admitWith_refused h hadm (decide_eq_true hop)]

/-- What a row's own work leaves admitted is admitted once the registers show it. -/
theorem admitOp_admits (h : s.Ready p c) (hop : c.op = op) (hadm : Admitted c s (f c s)) :
    ∃ u, Host.Outcome.next (admitOp p op f s) = (.next (settle (workArrived u)) : Host.Outcome State Fault Refusal) ∧ Admitted c s u ∧
      u.versions = (f c s).versions :=
  ⟨_, congrArg Host.Outcome.next (admitOp_ready h hop), hadm.congr rfl (queue_shown ..), versions_shown ..⟩

/-- A command that passes its checks names volumes that are present. -/
theorem State.vol?_of_admission {v : Nat} (h : s.admission c = none) (hv : v ∈ c.volumes) : ∃ x, s.xlat.t.vol? v = some x := by
  unfold State.admission at h
  iterate 6
    split at h
    · cases h
  next hvol => exact Option.ne_none_iff_exists'.mp fun hx => hvol (List.any_eq_true.mpr ⟨v, hv, by rw [hx]; rfl⟩)

theorem State.admission_unknown (h : c.op ∉ knownOps) : s.admission c = some (St.invalidOpcode, 0) := if_pos h

end

/-! ## READ, WINMAP, FENCE and FLUSH (R171, R184, R216, R222) -/

section
variable {c : Cmd} {s : State} (hc : c ∈ s.cmds)
include hc

theorem admitted_admitRead : Admitted c s (admitRead c s) := (admitted_admitCmd hc).modCmd fun _ => rfl

theorem admitted_admitFence : Admitted c s (admitFence c s) := (admitted_admitCmd hc).modCmd fun _ => rfl

theorem admitted_admitFlush : Admitted c s (admitFlush c s) := (admitted_admitCmd hc).modCmd fun _ => rfl

/-! ## WRITE, TRIM and COPY (R181 to R183, R209) -/

theorem admitted_admitWrite : Admitted c s (admitWrite c s) := (admitted_admitCmd hc).congr rfl rfl

theorem admitted_admitTrim {x : Volume} (hx : s.xlat.t.vol? c.vol = some x) : Admitted c s (admitTrim c s) := by
  unfold admitTrim
  rw [hx]
  dsimp only
  split
  · have hbands := (admitted_admitCmd hc).congr rfl (tablesFree_queue.trimBands c.vol (min x.wp (c.slba + c.nblk)) (c.nblk / 65536) 0 (admitCmd c s))
    refine Admitted.congr (hbands.modCmd ?_) rfl (tablesFree_queue.showXlat _)
    exact fun _ => rfl
  · exact (admitted_admitCmd hc).congr rfl rfl

theorem admitted_admitCopy : Admitted c s (admitCopy c s) :=
  (admitted_admitRead hc).congr rfl (queue_refreshCopies _)

end

theorem length_versions_admitCopy (c : Cmd) (s : State) : (admitCopy c s).versions.length = s.versions.length + c.nblk :=
  (length_versions_refreshCopies _).trans (length_versions_makeVersions ..)

/-! ## APPEND (R164, R174, R254) -/

/-- The state once a ring has released the bands that the append would overfill and the bands it needs are open, where they can be. -/
def State.appendBands (s : State) (c : Cmd) (x : Volume) : Option State :=
  openBands c.vol (x.wp / 65536) ((x.wp + c.nblk - 1) / 65536 - x.wp / 65536 + 1) (ringAdvance c.vol (x.wp + c.nblk) (c.nblk / 65536 + 2) s)

theorem TablesFree.appendBands {β : Type} {π : State → β} (hπ : TablesFree π) {c : Cmd} {x : Volume} {s v : State} (hv : s.appendBands c x = some v) :
    π v = π s := (hπ.openBands hv).trans (hπ.ringAdvance ..)

/-- WP is taken and the bytes are counted, once the bands are open. -/
def wpTaken (c : Cmd) (x : Volume) (v : State) : State :=
  let t := modT (fun t => match t.vol? c.vol with
    | some y => t.putVol c.vol { y with wp := x.wp + c.nblk }
    | none => t) v
  { t with budget := { t.budget with appending := t.budget.appending + 4096 * c.nblk } }

/-- The command is admitted with the blocks that it is given. -/
def appendAdmitted (c : Cmd) (x : Volume) (v : State) : State :=
  modCmd c.uid (fun y => { y with first := x.wp, info := x.wp % 2 ^ 32 }) (admitCmd c (wpTaken c x v))

theorem admitAppend_opens {c : Cmd} {x : Volume} {s v : State} (hx : s.xlat.t.vol? c.vol = some x)
    (hv : s.appendBands c x = some v) :
    admitAppend c s = showXlat (makeVersions c c.vol x.wp c.nblk (appendAdmitted c x v)) := by
  unfold admitAppend
  rw [hx]
  dsimp only
  rw [show openBands .. = some v from hv]
  rfl

theorem wp_appendAdmitted {c : Cmd} {x : Volume} {v : State} (hc : c ∈ v.cmds) :
    ∃ y ∈ (appendAdmitted c x v).cmds, y.uid = c.uid ∧ y.first = x.wp ∧ y.info = x.wp % 2 ^ 32 :=
  ⟨_, mem_modCmd_self (mem_admitCmd (s := wpTaken c x v) hc) rfl, rfl, rfl, rfl⟩

theorem append_admits {p : Nat} {c : Cmd} {x : Volume} {s v : State} (h : s.Ready p c) (hop : c.op = 3) (hx : s.xlat.t.vol? c.vol = some x)
    (hv : s.appendBands c x = some v) :
    ∃ u, exec (.append p) s = .next (settle (workArrived u)) ∧ Admitted c s u ∧
      (∃ y ∈ u.cmds, y.uid = c.uid ∧ y.first = x.wp ∧ y.info = x.wp % 2 ^ 32) ∧ u.budget.appending = s.budget.appending + 4096 * c.nblk := by
  have hqueue : v.queue = s.queue := tablesFree_queue.appendBands hv
  have hbudget : v.budget = s.budget := tablesFree_budget.appendBands hv
  have hmem : c ∈ v.cmds := by
    rw [cmds_of_queue hqueue]
    exact h.mem
  have hadm : Admitted c (wpTaken c x v) (appendAdmitted c x v) := (admitted_admitCmd (s := wpTaken c x v) hmem).modCmd fun _ => rfl
  have hshown : (showSched (showPort p (admitAppend c s))).queue = (appendAdmitted c x v).queue := by
    rw [queue_shown, admitAppend_opens hx hv, tablesFree_queue.showXlat]
    rfl
  have hcounted : (showSched (showPort p (admitAppend c s))).budget = (wpTaken c x v).budget := by
    rw [budget_shown, admitAppend_opens hx hv, tablesFree_budget.showXlat]
    rfl
  refine ⟨_, congrArg Host.Outcome.next (admitOp_ready h hop), hadm.congr hqueue.symm hshown, ?_, ?_⟩
  · rw [cmds_of_queue hshown]
    exact wp_appendAdmitted hmem
  · rw [hcounted, ← hbudget]
    rfl

/-! ## ABORT (R186, R219, R220) -/

/-- The ABORT is admitted and notes its target, and the target is to complete ABORTED. -/
def targetFailed (c t : Cmd) (s : State) : State :=
  modCmd t.uid (fun y => { y with fail := some (St.aborted, 0) }) (modCmd c.uid (fun y => { y with noted := [t.uid] }) (admitCmd c s))

/-- The engines that hold the target are told. -/
def abortTold (t : Cmd) (s : State) : State :=
  inStep (fun d s => (List.range 8).foldl (fun s e =>
    if t.uid ∈ (s.eng (.rind d e)).held then postEvent (.rind d e) 4 (BitVec.ofNat 64 (Config.openNat 11 [t.port, t.tag])) s else s) s) s

theorem work_abortTold (t : Cmd) (s : State) : (abortTold t s).work = s.work :=
  inStep_field State.work (fun d u => foldl_field State.work fun u e => by
    split
    · exact work_postEvent ..
    · rfl) s

theorem admitAbort_target {c t : Cmd} {s : State} (ht : s.cmdOf (c.fld 8 2) (c.fld 0xA 2) = some t) :
    admitAbort c s = abortTold t (withdraw t.uid (targetFailed c t s)) := by
  rw [admitAbort, ht]
  rfl

theorem admitAbort_none {c : Cmd} {s : State} (ht : s.cmdOf (c.fld 8 2) (c.fld 0xA 2) = none) :
    admitAbort c s = complete c St.alreadyDone 0 (admitCmd c s) := by
  rw [admitAbort, ht]

theorem abort_admits {p : Nat} {c t : Cmd} {s : State} (h : s.Ready p c) (hop : c.op = 9) (ht : s.cmdOf (c.fld 8 2) (c.fld 0xA 2) = some t)
    (hne : t.uid ≠ c.uid) :
    ∃ u, exec (.abort p) s = .next (settle (workArrived u)) ∧ (∃ x ∈ u.cmds, x.uid = c.uid ∧ x.phase = .admitted ∧ x.noted = [t.uid]) ∧
      (∃ x ∈ u.cmds, x.uid = t.uid ∧ x.fail = some (St.aborted, 0)) ∧ (∀ x ∈ u.versions, x.uid = t.uid → x.whole = true) := by
  obtain ⟨hcmds, hrest⟩ := Prod.mk.inj (work_abortTold t (withdraw t.uid (targetFailed c t s)))
  obtain ⟨hversions, -⟩ := Prod.mk.inj hrest
  refine ⟨_, congrArg Host.Outcome.next (admitOp_ready h hop), ?_⟩
  rw [admitAbort_target ht, cmds_of_queue (queue_shown ..), versions_shown, hcmds, hversions, cmds_of_queue (tablesFree_queue.withdraw ..)]
  exact ⟨⟨_, mem_modCmd_other (mem_modCmd_self (mem_admitCmd h.mem) rfl) hne.symm, rfl, rfl, rfl⟩,
    ⟨_, mem_modCmd_self (mem_modCmd_other (mem_modCmd_other (List.mem_of_find?_eq_some ht) hne) hne) rfl, rfl, rfl⟩, fun _ => whole_of_mem_withdraw⟩

/-! ## The rows together -/

theorem write_admits {p : Nat} {c : Cmd} {s : State} (h : s.Ready p c) (hop : c.op = 2) :
    ∃ u new, exec (.write p) s = .next (settle (workArrived u)) ∧ Admitted c s u ∧ u.versions = s.versions ++ new ∧
      new.map (fun x => (x.vol, x.blk)) = (List.range c.nblk).map (fun k => (c.vol, c.slba + k)) ∧
      (∀ x ∈ new, x.uid = c.uid ∧ x.port = c.port ∧ x.whole = false ∧ x.media = false) := by
  obtain ⟨u, hexec, hadm, hversions⟩ := admitOp_admits h hop (admitted_admitWrite h.mem)
  refine ⟨u, _, hexec, hadm, hversions, by simp, fun x hx => ?_⟩
  obtain ⟨k, -, rfl⟩ := List.mem_map.mp hx
  exact ⟨rfl, rfl, rfl, rfl⟩

theorem trim_admits {p : Nat} {c : Cmd} {s : State} (h : s.Ready p c) (hop : c.op = 6) :
    ∃ u, exec (.trim p) s = .next (settle (workArrived u)) ∧ Admitted c s u := by
  obtain ⟨x, hx⟩ := State.vol?_of_admission (v := c.vol) h.2 (by simp [Cmd.volumes, Cmd.namesVolume, hop])
  obtain ⟨u, hexec, hadm, -⟩ := admitOp_admits h hop (admitted_admitTrim h.mem hx)
  exact ⟨u, hexec, hadm⟩

theorem copy_admits {p : Nat} {c : Cmd} {s : State} (h : s.Ready p c) (hop : c.op = 7) :
    ∃ u, exec (.copy p) s = .next (settle (workArrived u)) ∧ Admitted c s u ∧ u.versions.length = s.versions.length + c.nblk := by
  obtain ⟨u, hexec, hadm, hversions⟩ := admitOp_admits h hop (admitted_admitCopy h.mem)
  exact ⟨u, hexec, hadm, (congrArg List.length hversions).trans (length_versions_admitCopy c s)⟩

/-- Settles O16: a row's next command is admitted with what its opcode notes and makes, or completes with the status of the check that it fails. -/
theorem commandAdmission : Obligations.CommandAdmission :=
  ⟨fun _ _ _ h => ⟨fun hop => admitOp_admits h hop (admitted_admitRead h.mem), fun hop => admitOp_admits h hop (admitted_admitRead h.mem), write_admits h,
      fun hop => admitOp_admits h hop (admitted_admitFence h.mem), fun hop => admitOp_admits h hop (admitted_admitFlush h.mem), trim_admits h, copy_admits h⟩,
    fun _ _ _ _ _ _ h hop hx ht hv => append_admits h hop hx (ht ▸ hv),
    fun _ _ _ _ h hop ht hne => abort_admits h hop ht hne,
    fun _ _ _ h hop ht => congrArg Host.Outcome.next ((admitOp_ready h hop).trans (by rw [admitAbort_none ht])),
    fun _ _ _ h hop => congrArg (fun t => Host.Outcome.next (settle t)) (admitWith_refused h (State.admission_unknown hop) (decide_eq_true hop)),
    fun _ _ _ _ _ h hadm => ⟨admitOp_refused h hadm, admitOp_refused h hadm, admitOp_refused h hadm, admitOp_refused h hadm, admitOp_refused h hadm,
      admitOp_refused h hadm, admitOp_refused h hadm, admitOp_refused h hadm, admitOp_refused h hadm⟩⟩

end Sys2Proof.Machine
end

section
/-! The reports of the Curd dies at the Rind dies: O35. -/

namespace Sys2Proof.Machine

/-! ## A report is taken (R303, R494) -/

section
variable {β : Type} (π : State → β) (hwr : ∀ t die f v, π (State.wr t die f v) = π t) (hmod : ∀ t d f, π (State.modRind t d f) = π t)
include hwr hmod

theorem newStep_field (kind src data : Nat) (s : State) : π (newStep kind src data s) = π s := by
  unfold newStep
  split
  · rfl
  · exact inStep_field π (fun d t => by rw [showStep, State.wrR, hwr, State.wrR, hwr, modStep, hmod]) s

/-- A report taken numbers a step and frees a buffer, and nothing else. -/
theorem takeRpt_field (hend : ∀ t e f, π (State.modEnd t e f) = π t) (g : Nat) (p : Msg → Bool) (s : State) : π (takeRpt g p s) = π s := by
  refine (inStep_field π (fun d t => ?_) _).trans (newStep_field π hwr hmod ..)
  split
  · exact hend ..
  · rfl

end

theorem host_takeRpt (g : Nat) (p : Msg → Bool) (s : State) : (takeRpt g p s).host = s.host :=
  takeRpt_field State.host State.host_wr State.host_modRind State.host_modEnd g p s

theorem now_takeRpt (g : Nat) (p : Msg → Bool) (s : State) : (takeRpt g p s).now = s.now :=
  takeRpt_field State.now (fun _ _ _ _ => rfl) State.now_modRind (fun _ e _ => by cases e <;> simp [State.modEnd]) g p s

/-! ## A sector's outcome (R176, R237, R303) -/

/-- A command that has a property has, once a command is changed, what the change leaves of it. -/
theorem exists_modCmd {P Q : Cmd → Prop} {uid : Nat} {f : Cmd → Cmd} {s : State} (h : ∃ x ∈ s.cmds, P x)
    (hself : ∀ x, P x → x.uid = uid → Q (f x)) (hother : ∀ x, P x → x.uid ≠ uid → Q x) : ∃ x ∈ (modCmd uid f s).cmds, Q x := by
  obtain ⟨x, hx, hP⟩ := h
  by_cases hu : x.uid = uid
  · exact ⟨f x, mem_modCmd_self hx hu, hself x hP hu⟩
  · exact ⟨x, mem_modCmd_other hx hu, hother x hP hu⟩

/-- A command that reads a block notes its index as bad (R176). -/
def markBad (r : Cmd × Nat) (s : State) : State := modCmd r.1.uid (fun c => { c with bad := r.2 :: c.bad.filter (· ≠ r.2) }) s

theorem markBad_keeps {r : Cmd × Nat} {uid i : Nat} {s : State} (h : ∃ x ∈ s.cmds, x.uid = uid ∧ i ∈ x.bad) :
    ∃ x ∈ (markBad r s).cmds, x.uid = uid ∧ i ∈ x.bad := by
  refine exists_modCmd h (fun x hx _ => ⟨hx.1, ?_⟩) fun x hx _ => hx
  by_cases hi : i = r.2 <;> simp [hi, hx.2]

theorem markBad_notes {r : Cmd × Nat} {s : State} (h : ∃ x ∈ s.cmds, x.uid = r.1.uid) : ∃ x ∈ (markBad r s).cmds, x.uid = r.1.uid ∧ r.2 ∈ x.bad :=
  exists_modCmd h (fun _ hx _ => ⟨hx, List.mem_cons_self ..⟩) fun _ hx hne => absurd hx hne

theorem markBads_keep {rs : List (Cmd × Nat)} {uid i : Nat} {s : State} (h : ∃ x ∈ s.cmds, x.uid = uid ∧ i ∈ x.bad) :
    ∃ x ∈ (rs.foldl (fun t r => markBad r t) s).cmds, x.uid = uid ∧ i ∈ x.bad := by
  induction rs generalizing s with
  | nil => exact h
  | cons r rs ih => exact ih (markBad_keeps h)

/-- An index that any of the readers notes is noted once all have. -/
theorem bad_markBads {rs : List (Cmd × Nat)} {r : Cmd × Nat} {s : State} (h : ∃ x ∈ s.cmds, x.uid = r.1.uid) (hr : r ∈ rs) :
    ∃ x ∈ (rs.foldl (fun t r => markBad r t) s).cmds, x.uid = r.1.uid ∧ r.2 ∈ x.bad := by
  induction rs generalizing s with
  | nil => cases hr
  | cons r' rs ih =>
    rcases List.mem_cons.mp hr with rfl | hrs
    · exact markBads_keep (rs := rs) (markBad_notes h)
    · exact ih (exists_modCmd h (fun _ hx _ => hx) fun _ hx _ => hx) hrs

section
variable {g eseq w0 w1 o : Nat} {sl : SlotNo} {b : Band} {s : State} (hblock : s.blockAt (s.reportPlace g eseq w0 w1) = some (sl, o))
  (hb : s.xlat.t.bandAt sl = some b) (hmapped : b.mapped = true) (hweak : w0.testBit 15 = false)
include hblock hb hmapped hweak

/-- A sector that could not be read is bad for the commands that read its block. -/
theorem sectorOutcome_unread (hout : w0 / 2 ^ 24 % 16 = 2) :
    sectorOutcome g eseq w0 w1 s = (s.readers b.vol (65536 * b.vband + o)).foldl (fun t r => markBad r t) s := by
  have hout : w0 / 16777216 % 16 = 2 := hout
  simp [sectorOutcome, hblock, hb, hmapped, hweak, hout, markBad]

theorem sectorOutcome_unwritten (hout : w0 / 2 ^ 24 % 16 = 4) : sectorOutcome g eseq w0 w1 s = writeFailed sl o b.vol (65536 * b.vband + o) s := by
  have hout : w0 / 16777216 % 16 = 4 := hout
  simp [sectorOutcome, hblock, hb, hmapped, hweak, hout]

theorem sectorOutcome_refused (hout : w0 / 2 ^ 24 % 16 = 5) : sectorOutcome g eseq w0 w1 s = workAgain b.vol (65536 * b.vband + o) s := by
  have hout : w0 / 16777216 % 16 = 5 := hout
  simp [sectorOutcome, hblock, hb, hmapped, hweak, hout]

theorem sectorOutcome_bad (hout : w0 / 2 ^ 24 % 16 = 2) {c : Cmd} (hc : c ∈ s.cmds) (hphase : c.phase = .admitted) (hreads : c.reads = true)
    (hcovers : c.covers b.vol (65536 * b.vband + o) = true) (htaken : 65536 * b.vband + o - c.slba ∈ c.taken) :
    ∃ x ∈ (sectorOutcome g eseq w0 w1 s).cmds, x.uid = c.uid ∧ 65536 * b.vband + o - c.slba ∈ x.bad := by
  have hreader : (c, 65536 * b.vband + o - c.slba) ∈ s.readers b.vol (65536 * b.vband + o) :=
    List.mem_map_of_mem (List.mem_filter.mpr ⟨hc, by simp [hphase, hreads, hcovers, htaken]⟩)
  rw [sectorOutcome_unread hblock hb hmapped hweak hout]
  exact bad_markBads ⟨c, hc, rfl⟩ hreader

end

/-- The data held for a sector has been placed. -/
def dataPlaced (g e : Nat) (s : State) : State :=
  s.rinds.foldl (fun t d => t.modRind d (fun r => { r with data := r.data.filter (fun x => ! decide (x.1 = g ∧ x.2.1 = e)) })) s

theorem dataPlaced_field {β : Type} (π : State → β) (hmod : ∀ t d f, π (State.modRind t d f) = π t) (g e : Nat) (s : State) :
    π (dataPlaced g e s) = π s := foldl_field π fun _ _ => hmod ..

theorem rptSectorOutcome_placed {g eseq w0 w1 : Nat} {n : State} {s : State} (hg : s.hasCurd g = true) (hw : w0 / 2 ^ 28 = 1)
    (hn : n = takeRpt g (fun m => m.eseq = eseq && decide (m.payload = [BitVec.ofNat 32 w0, BitVec.ofNat 32 w1])) s) :
    ∃ e, exec (.rptSectorOutcome g eseq w0 w1) s = .next (settle (showSched (dataPlaced g e (sectorOutcome g eseq w0 w1 n)))) := by
  subst hn
  exact ⟨_, if_pos ⟨hg, hw⟩⟩

/-! ## The other reports (R303, R389, R505, R510, R522, R544) -/

section
variable {g : Nat} {s : State} (hg : s.hasCurd g = true)
include hg

theorem rptRunEnd_taken {eseq : Nat} {n : State} (hn : n = takeRpt g (fun m => m.eseq = eseq && decide (m.w 0 / 2 ^ 28 = 2)) s) :
    ∃ v, v = fillAfter g (n.runWords g eseq) { n with runs := n.runs.filter (fun r => ! decide (r.1 = g ∧ r.2.1 = eseq)) } ∧
      exec (.rptRunEnd g eseq) s = .next (settle (sendOrders (match v.xlat.relocs.find? (fun r => r.passed && r.marked.isEmpty) with
        | some r => endReloc r v
        | none => v))) := by
  subst hn
  exact ⟨_, rfl, if_pos hg⟩

theorem rptCurdMismatch_taken {cls eseq : Nat} {slot : RSlot} {n : State} (hf : s.part.f = 2)
    (hn : n = takeRpt g (fun m => decide (m.w 0 = 5 * 2 ^ 28 + cls * 2 ^ 24 + slot.code * 2 ^ 23 ∧ m.w 1 = eseq)) s) :
    exec (.rptCurdMismatch g cls slot eseq) s =
      if (n.rind n.senior).step.resyncEseq.any (fun k => aheadMod (2 ^ 32) k eseq) = true then .next (settle n)
      else .next (settle (diverge 4 (divergenceTarget n.f0.island.ownSince n.f1.island.ownSince n) n)) := by
  subst hn
  exact if_pos ⟨hg, hf⟩

end

/-- The report of a Curd die is kept, and is missing no more (R522, R523). -/
def dieReported (g : Nat) (w0 : Word) (s : State) : State :=
  modBudget (fun b => { b with
    reports := assocPut g ⟨w0.toNat / 2 ^ 26 % 4, w0.toNat.testBit 25, sgn 16 (w0.toNat % 2 ^ 16), s.now⟩ b.reports
    missing := setMem g false b.missing }) s

theorem rptDieReport_taken {g : Nat} {w0 : Word} {s : State} (hg : s.hasCurd g = true) (hw : w0.toNat / 2 ^ 28 = 6) :
    ∃ v, v.budget.reports.find? (fun p => p.1 = g) =
        some (g, ⟨w0.toNat / 2 ^ 26 % 4, w0.toNat.testBit 25, sgn 16 (w0.toNat % 2 ^ 16), s.now⟩) ∧ g ∉ v.budget.missing ∧
      v.cmds = s.cmds ∧ v.out = s.out ∧ exec (.rptDieReport g w0) s = .next (settle (takeReading (curdCode g) (sgn 16 (w0.toNat % 2 ^ 16)) v)) := by
  obtain ⟨hcmds, hout⟩ := State.host_eq.mp (host_takeRpt g (fun m => m.payload.head? = some w0) s)
  refine ⟨dieReported g w0 (takeRpt g (fun m => m.payload.head? = some w0) s), ?_, ?_, hcmds, hout, if_pos ⟨hg, hw⟩⟩
  · rw [← now_takeRpt g (fun m => m.payload.head? = some w0) s]
    exact List.find?_cons_of_pos (by simp)
  · simp [dieReported, modBudget, setMem]

theorem rptSpindle_taken {w0 w1 w2 w3 : Word} {s : State} (hw : w0.toNat / 2 ^ 28 = 4) :
    ∃ u, u.budget.spindle = [w0, w1, w2, w3] ∧ u.cmds = s.cmds ∧ u.out = s.out ∧ exec (.rptSpindle w0 w1 w2 w3) s = .next (settle u) := by
  obtain ⟨hcmds, hout⟩ := State.host_eq.mp (host_takeRpt 0 (fun m => m.payload = [w0, w1, w2, w3]) s)
  exact ⟨modBudget (fun b => { b with spindle := [w0, w1, w2, w3] }) (takeRpt 0 (fun m => m.payload = [w0, w1, w2, w3]) s), rfl, hcmds, hout, if_pos hw⟩

/-- Settles O35: each report by the message it takes from the die's link and by what its words then do on every serving die. -/
theorem curdReports : Obligations.CurdReports := by
  refine ⟨fun g eseq w0 w1 n u s hg hw hn hu => ?outcome, fun g eseq w0 w1 o sl b s hblock hb hmapped hweak =>
      ⟨fun hout c hc hphase hreads hcovers htaken _ => sectorOutcome_bad hblock hb hmapped hweak hout hc hphase hreads hcovers htaken,
        sectorOutcome_unwritten hblock hb hmapped hweak, sectorOutcome_refused hblock hb hmapped hweak⟩,
    fun _ _ _ _ hg hn => rptRunEnd_taken hg hn, fun _ _ _ hg => if_pos hg, fun g cls eseq slot n s hg hf hn => ?mismatch,
    fun _ _ _ _ hg hw => if_pos ⟨hg, hw⟩, fun _ _ _ => rptDieReport_taken, fun _ _ _ _ _ => rptSpindle_taken⟩
  case outcome =>
    obtain ⟨e, hexec⟩ := rptSectorOutcome_placed hg hw hn
    subst hu
    exact ⟨_, dataPlaced_field State.regs State.regs_modRind .., dataPlaced_field State.cmds State.cmds_modRind ..,
      dataPlaced_field State.versions State.versions_modRind .., dataPlaced_field State.out State.out_modRind .., hexec⟩
  case mismatch =>
    rw [rptCurdMismatch_taken hg hf hn]
    exact ⟨fun hnew => if_neg (Bool.eq_false_iff.mp hnew), fun hold => if_pos hold⟩

end Sys2Proof.Machine
end

section
/-! The synthesiser and the preamplifier of a Curd die: O33. -/

namespace Sys2Proof.Machine

/-! ## What the operations on a sector leave of an open gate (R303, R319) -/

theorem gateHold_paWrite (k a v : Nat) (s : State) (g : Nat) : ((paWrite k a v s).fmt g).gateHold = (s.fmt g).gateHold :=
  fmt_modFmt_field Fmt.gateHold fun _ => rfl

theorem gateHold_paSet (k a v : Nat) (s : State) (g : Nat) : ((paSet k a v s).fmt g).gateHold = (s.fmt g).gateHold := by
  unfold paSet
  split
  · rfl
  · exact gateHold_paWrite ..

theorem gateHold_heater (k : Nat) (write : Bool) (s : State) (g : Nat) : ((heater k write s).fmt g).gateHold = (s.fmt g).gateHold := by
  unfold heater
  split
  · rfl
  · exact gateHold_paSet ..

theorem fmt_showVault (k : Nat) (s : State) (g : Nat) : (showVault k s).fmt g = s.fmt g := (rfl)

theorem gateHold_modEntry (k id : Nat) (h : VEntry → VEntry) (s : State) (g : Nat) : ((modEntry k id h s).fmt g).gateHold = (s.fmt g).gateHold := by
  rw [modEntry, fmt_showVault]
  exact fmt_modFmt_field Fmt.gateHold fun _ => rfl

theorem gateHold_unpin (k : Nat) (ids : List Nat) (s : State) (g : Nat) : ((unpin k ids s).fmt g).gateHold = (s.fmt g).gateHold :=
  foldl_field (fun t : State => (t.fmt g).gateHold) fun _ _ => gateHold_modEntry ..

theorem fmt_deliverSector (k eseq i : Nat) (p : List Byte) (s : State) (g : Nat) : (deliverSector k eseq i p s).fmt g = s.fmt g := by
  rw [deliverSector, fmt_fromCurd]
  exact foldl_field (fun t : State => t.fmt g) fun _ _ => fmt_fromCurd ..

theorem fmt_report (k eseq outcome rung revs pos track : Nat) (nbr : Bool) (s : State) (g : Nat) :
    (report k eseq outcome rung revs pos track nbr s).fmt g = s.fmt g := fmt_fromCurd ..

theorem gateHold_endIfDone (k eseq : Nat) (s : State) (g : Nat) : ((endIfDone k eseq s).fmt g).gateHold = (s.fmt g).gateHold := by
  unfold endIfDone
  split
  · rfl
  · next r _ =>
    split
    · extract_lets told freed dropped cooled
      have hfreed : freed.fmt g = s.fmt g := (foldl_field (fun t : State => t.fmt g) fun _ _ => fmt_takeMsg ..).trans (fmt_fromCurd ..)
      have hdropped : (dropped.fmt g).gateHold = (freed.fmt g).gateHold := fmt_modFmt_field Fmt.gateHold fun _ => rfl
      have hcooled : (cooled.fmt g).gateHold = (dropped.fmt g).gateHold := by
        unfold cooled
        split
        · refine (fmt_modFmt_field Fmt.gateHold ?_).trans (gateHold_heater ..)
          exact fun _ => rfl
        · rfl
      rw [fmt_showFmt, hcooled, hdropped, hfreed]
    · rfl

/-- A sector that has its outcome opens no gate, and closes none. -/
theorem gateHold_settleSec (k eseq i outcome rung : Nat) (p : Option (List Byte)) (s : State) (g : Nat) :
    ((settleSec k eseq i outcome rung p s).fmt g).gateHold = (s.fmt g).gateHold := by
  unfold settleSec
  split
  · rfl
  · next x _ =>
    split
    · rfl
    · extract_lets op unpinned noted counted delivered
      have hnoted : (noted.fmt g).gateHold = (s.fmt g).gateHold := (gateHold_modSec ..).trans (gateHold_unpin ..)
      have hcounted : counted.fmt g = noted.fmt g := by
        unfold counted
        split
        · rfl
        · rfl
        · split <;> rfl
        · rfl
        · rfl
      have hdelivered : delivered.fmt g = noted.fmt g := by
        unfold delivered
        split
        · split
          · exact (fmt_deliverSector ..).trans hcounted
          · exact hcounted
        · exact hcounted
      have hkept : (delivered.fmt g).gateHold = (s.fmt g).gateHold := (congrArg Fmt.gateHold hdelivered).trans hnoted
      split
      · rw [gateHold_endIfDone, fmt_report, hkept]
      · split
        · rw [gateHold_endIfDone, hkept]
        · rw [gateHold_endIfDone, fmt_report, State.fmt_incC, hkept]
      · rw [gateHold_endIfDone, hkept]

/-! ## A write gate withdrawn (R319) -/

/-- An open write gate that is withdrawn is closed, and SHOCK holds the die as before. -/
theorem withdrawGate_closed {g : Nat} {shock : Bool} {e : GateEv} {s : State} (hg : g < s.curds.length) (hgate : (s.fmt g).gate = some e)
    (hwrite : e.write = true) : ((withdrawGate g shock s).fmt g).gateHold = (none, (s.fmt g).shockSince) := by
  have hclosed : ((modFmt g (fun f => { f with gate := none }) s).fmt g).gateHold = (none, (s.fmt g).shockSince) :=
    congrArg Fmt.gateHold (fmt_modFmt_self hg)
  unfold withdrawGate
  split
  · next hnone => simp [hnone] at hgate
  · next e' hsome =>
    obtain rfl : e = e' := Option.some.inj (hgate.symm.trans hsome)
    rw [if_neg (by simp [hwrite])]
    extract_lets closed
    split
    · exact hclosed
    · extract_lets shingled dropped again counted
      have hagain : (again.fmt g).gateHold = (none, (s.fmt g).shockSince) := (gateHold_modSec ..).trans ((gateHold_dropPosted ..).trans hclosed)
      rw [fmt_showFmt]
      unfold counted
      split
      · exact (gateHold_settleSec ..).trans hagain
      · exact hagain

/-! ## The commands (R264, R312, R313, R321) -/

section
variable {g : Nat} {s : State} (hg : s.hasCurd g = true)
include hg

theorem synthLock_shown (hheld : g < s.curds.length) : ∃ v, (v.fmt g).lock = true ∧ v.regs = s.regs ∧ v.out = s.out ∧ v.cmds = s.cmds ∧
    exec (.synthLock g) s = .next (settle (showFmt g v)) :=
  ⟨modFmt g (fun f => { f with lock := true }) s, congrArg Fmt.lock (fmt_modFmt_self hheld), rfl, rfl, rfl, if_pos hg⟩

theorem synthLockLoss_withdraws (hheld : g < s.curds.length) : ∃ v, (v.fmt g).lock = false ∧ (v.fmt g).gate = (s.fmt g).gate ∧ v.regs = s.regs ∧
    exec (.synthLockLoss g) s = .next (settle (showFmt g (withdrawGate g false v))) :=
  ⟨modFmt g (fun f => { f with lock := false }) s, congrArg Fmt.lock (fmt_modFmt_self hheld), fmt_modFmt_field Fmt.gate fun _ => rfl, rfl, if_pos hg⟩

/-- PA_FLT_N is low, and the edge is counted (R321). -/
theorem paFault_withdraws {f : Nat} (hreset : s.inReset = false) (hf : f < 256) (hheld : g < s.curds.length) :
    ∃ v, (v.fmt g).paLow = true ∧ (v.fmt g).gate = (s.fmt g).gate ∧ v.out = s.out ∧
      exec (.paFault g f) s = .next (settle (showFmt g (curdRaise g 0x10 f ((((withdrawGate g false v).emit
        (.preamp g false (((withdrawGate g false v).paMap g).addr 8) f)).wrC g R.FMT_PASTAT_LASTFLT f))))) := by
  have hcounted : g < (s.incC g R.FMT_PASTAT_FAULTS).curds.length := hheld
  refine ⟨modFmt g (fun x => { x with paLow := true, answers := x.answers && ! s.atStep7 }) (s.incC g R.FMT_PASTAT_FAULTS),
    congrArg Fmt.paLow (fmt_modFmt_self hcounted), fmt_modFmt_field Fmt.gate fun _ => rfl, rfl, ?_⟩
  refine (if_pos ⟨hg, by simp [hreset]⟩).trans ?_
  rw [Nat.mod_eq_of_lt hf]

theorem paFltNRise_shown (hheld : g < s.curds.length) :
    ∃ t, exec (.paFltNRise g) s = .next t ∧ (t.fmt g).paLow = false ∧ t.regs = s.regs ∧ t.out = s.out ∧ t.cmds = s.cmds :=
  ⟨modFmt g (fun f => { f with paLow := false }) s, if_pos hg, congrArg Fmt.paLow (fmt_modFmt_self hheld), rfl, rfl, rfl⟩

end

/-- A register of the preamplifier reads back as the last frame wrote it. -/
theorem pa_paWrite_self {g a v : Nat} {s : State} (hheld : g < s.curds.length) : assocGet a 0 ((paWrite g a v s).fmt g).pa = v := by
  have hemit : g < (s.emit (.preamp g true a v)).curds.length := hheld
  rw [paWrite, fmt_modFmt_self hemit]
  exact assocGet_assocPut_self ..

/-- Settles O33: the commands by the one change each makes before what its pins call for; an open write gate is closed by a withdrawal, and a sector
that then gets its outcome opens none. -/
theorem synthesiserAndPreamplifier : Obligations.SynthesiserAndPreamplifier := by
  refine ⟨fun _ _ => synthLock_shown, fun _ _ => synthLockLoss_withdraws,
    fun _ _ _ _ hheld hgate hwrite => congrArg Prod.fst (withdrawGate_closed hheld hgate hwrite),
    fun _ _ _ hg => paFault_withdraws hg, fun _ _ hg hlow => if_pos ⟨hg, hlow⟩, fun _ _ => paFltNRise_shown,
    fun _ _ hg hhigh hinhibited => if_pos ⟨hg, by simp [hhigh], hinhibited⟩,
    fun _ _ _ _ hg ha hv => ⟨if_pos ⟨hg, ha, hv⟩, if_pos ⟨hg, ha, hv⟩⟩, fun _ _ _ _ hheld => ⟨rfl, pa_paWrite_self hheld⟩⟩

end Sys2Proof.Machine
end

section
/-! Gates and the read channel of a Curd die: O31. -/

namespace Sys2Proof.Machine

/-! ## Gate events (R262, R305, R319, R470) -/

section
variable {g : Nat} {s : State} (hg : s.hasCurd g = true)
include hg

theorem gatePost_late (ev : GateEv) : exec (.gatePost g ev true) s =
    .next (settle (reply (.curd g) 0x0A 1 (openReply 0x0A 1 []) true (s.incC g R.FMT_WRCNT_LATE))) :=
  if_neg (by simp [hg])

theorem gatePost_joins {ev : GateEv} (hheld : g < s.curds.length) (hroom : (s.fmt g).posted.length < 8) :
    ∃ v, (v.fmt g).posted = (s.fmt g).posted ++ [⟨ev, (s.fmt g).readers⟩] ∧ (v.fmt g).gate = (s.fmt g).gate ∧ v.regs = s.regs ∧ v.out = s.out ∧
      exec (.gatePost g ev false) s = .next (settle (reply (.curd g) 0x0A 1 (openReply 0x0A 1 []) true v)) :=
  ⟨modFmt g (fun f => { f with posted := f.posted ++ [⟨ev, f.readers⟩] }) s, congrArg Fmt.posted (fmt_modFmt_self hheld),
    fmt_modFmt_field Fmt.gate fun _ => rfl, rfl, rfl, (if_neg (by simp [hg])).trans (if_pos hroom)⟩

theorem gatePost_waits {ev : GateEv} (hfull : 8 ≤ (s.fmt g).posted.length) : exec (.gatePost g ev false) s = .next s :=
  (if_neg (by simp [hg])).trans (if_neg (Nat.not_lt.mpr hfull))

end

/-- An event that opens a gate, reached while none is open. -/
theorem gateAct_opens {g : Nat} {cap : Capture} {e : Posted} {l : List Posted} {s : State} (hposted : (s.fmt g).posted = e :: l) (hopens : e.opens = true)
    (hclosed : (s.fmt g).gate = none) (hheld : g < s.curds.length) :
    ∃ v, (v.fmt g).posted = l ∧ v.regs = s.regs ∧ gateAct g cap s = showFmt g (openGate g e v) := by
  have hgate : ((modFmt g (fun f => { f with posted := l }) s).fmt g).gate = none := by rw [fmt_modFmt_self hheld, hclosed]
  refine ⟨modFmt g (fun f => { f with posted := l }) s, congrArg Fmt.posted (fmt_modFmt_self hheld), rfl, ?_⟩
  simp only [gateAct, hposted, hopens, hgate, if_true, Option.isSome_none, Bool.false_eq_true, if_false]

/-- Where writing is inhibited, the most an event of a write gate does is to drop the posted events of its sector (R319). -/
theorem openGate_inhibited {g : Nat} {e : Posted} {s : State} (hwrite : e.write = true) (hinhibited : s.mayWriteMedia g = false) :
    openGate g e s = s ∨ ∃ p, openGate g e s = dropPosted g p s := by
  unfold openGate
  split
  · exact .inl rfl
  · extract_lets f
    rw [if_pos hwrite]
    split
    · exact .inr ⟨_, rfl⟩
    · split
      · exact .inl rfl
      · rw [if_neg (by simp [hinhibited])]
        exact .inr ⟨_, rfl⟩

theorem openGate_inhibited_gate {g : Nat} {e : Posted} {s : State} (hwrite : e.write = true) (hinhibited : s.mayWriteMedia g = false) :
    ((openGate g e s).fmt g).gate = (s.fmt g).gate ∧ (openGate g e s).out = s.out := by
  obtain hsame | ⟨p, hdrop⟩ := openGate_inhibited hwrite hinhibited
  · rw [hsame]
    exact ⟨rfl, rfl⟩
  · rw [hdrop]
    exact ⟨congrArg Prod.fst (gateHold_dropPosted g p s g), rfl⟩

/-! ## Captures, the vault engine and the rebuild (R274, R282, R294) -/

theorem sectorDecode_found {g surf pos : Nat} {q : Nat × Nat × Sec} {s : State}
    (hq : s.findSec g (fun x => decide (x.stage = .captured ∧ x.surf = surf ∧ x.pos = pos)) = some q) :
    exec (.sectorDecode g surf pos) s = .next (settle (refreshServo g (showFmt g (rungOne g q.1 q.2.1 s)))) := by
  show execSectorDecode g surf pos s = _
  rw [execSectorDecode, hq]

theorem rebuild_found {g pos : Nat} {q : Nat × Nat × Sec} {s : State} (hq : s.findSec g (fun x => decide (x.stage = .rebuild ∧ x.pos = pos)) = some q) :
    exec (.rebuild g pos) s = .next (settle (refreshServo g (showFmt g (rebuildSec g q.1 q.2.1 s)))) := by
  show execRebuild g pos s = _
  rw [execRebuild, hq]

theorem readerSettled_counts {g n : Nat} {s : State} (hn : (s.fmt g).settling = some n) (hheld : g < s.curds.length) :
    ∃ v, (v.fmt g).readers = n ∧ (v.fmt g).settling = none ∧ v.regs = s.regs ∧ exec (.readerSettled g) s = .next (settle (powerReaders g v)) := by
  have hfmt := fmt_modFmt_self (f := fun f => { f with readers := n, settling := none }) hheld
  refine ⟨modFmt g (fun f => { f with readers := n, settling := none }) s, congrArg Fmt.readers hfmt, congrArg Fmt.settling hfmt, rfl, ?_⟩
  show execReaderSettled g s = _
  rw [execReaderSettled, hn]

theorem readOutcome_found {g pos : Nat} {q : Nat × Nat × Sec} {s : State} (hg : s.hasCurd g = true)
    (hq : s.findSec g (fun x => decide (x.pos = pos ∧ x.kind = .own)) = some q) : exec (.readOutcome g pos) s =
      .next (settle (reply (.curd g) 0x0C 2 (openReply 0x0C 2 [1 + q.2.2.outcome.getD 15, q.2.2.rung, q.2.2.revs]) true s)) := by
  show execReadOutcome g pos s = _
  rw [execReadOutcome, hq, if_pos hg]
  rfl

/-! ## Thermal asperities (R269) -/

/-- A reader that alone has a bit flagged has no weight there. -/
theorem VEntry.weight_alone {e : VEntry} {z : Zone} {use : List Nat} {k n : Nat} (huse : use.Nodup) (hflag : e.flagged z k n = true)
    (halone : ∀ j ∈ use, j ≠ k → e.flagged z j n = false) : e.weight z use k n = 0 := by
  have hothers : (use.erase k).any (fun j => e.flagged z j n) = false := by
    simp only [List.any_eq_false, Bool.not_eq_true]
    intro j hj
    obtain ⟨hne, hmem⟩ := huse.mem_erase_iff.mp hj
    exact halone j hmem hne
  simp [VEntry.weight, hflag, hothers]

/-- A bit that every reader in use has flagged is an erasure: its soft decision is 0. -/
theorem VEntry.soft_erased {e : VEntry} {z : Zone} {cfg : ChanCfg} {set n : Nat} {prior : List Int}
    (hall : ∀ k ∈ (settingOf cfg e.mode z.pair set).readers, e.flagged z k n = true) : (e.soft z cfg set prior).getD n 0 = 0 := by
  have herased : e.erased z (settingOf cfg e.mode z.pair set).readers n = true := List.all_eq_true.mpr hall
  simp only [VEntry.soft, List.getD_eq_getElem?_getD, List.getElem?_map, List.getElem?_zipIdx]
  cases (detect z.target (e.combined z (settingOf cfg e.mode z.pair set)) prior)[n]? with
  | none => rfl
  | some d => simp [herased]

/-- Settles O31: an event posted or reached by the branch it takes, a sector by the one that is found for the command; a reader's weight and a bit's
erasure by who has flagged the bit. -/
theorem gatesAndReadChannel : Obligations.GatesAndReadChannel := by
  refine ⟨fun _ ev _ hg => gatePost_late hg ev, fun _ _ _ hg => gatePost_joins hg, fun _ _ _ hg => gatePost_waits hg, fun _ _ _ hg => if_pos hg,
    fun _ _ _ _ _ => gateAct_opens, fun _ _ _ => openGate_inhibited_gate, fun _ _ _ _ _ => sectorDecode_found, fun _ _ _ hg hnext => if_pos ⟨hg, hnext⟩,
    fun _ _ _ _ hg => if_neg (by simp [hg]), fun _ _ _ _ => rebuild_found, fun _ _ _ => readerSettled_counts,
    fun _ _ _ _ => readOutcome_found, fun _ _ _ _ _ => VEntry.weight_alone, fun _ _ _ _ _ _ => VEntry.soft_erased⟩

end Sys2Proof.Machine
end

section
/-! The sector check, the framing and the precompensation of what is written: O32. -/

namespace Sys2Proof.Machine

/-! ## CRC-32C bit by bit (R272)

The polynomial has its highest bit set, and a register shifted has it clear: the highest bit of a register tells whether the polynomial was added last. -/

theorem crc32cBit_eq (c : BitVec 32) (b : Bool) : crc32cBit c b = (c >>> 1) ^^^ (if c.getLsbD 0 != b then 0x82F63B78#32 else 0) := by
  unfold crc32cBit
  split <;> simp

theorem getLsbD_crc32cBit_top (c : BitVec 32) (b : Bool) : (crc32cBit c b).getLsbD 31 = (c.getLsbD 0 != b) := by
  rw [crc32cBit_eq]
  cases c.getLsbD 0 != b <;> simp

/-- Two registers that agree in their bits from `n` on, for an `n` of at most 31, agree from `n + 1` on one step before, and both steps added the
polynomial or neither did. -/
theorem crc32cBit_agree {n : Nat} {c d : BitVec 32} {a b : Bool} (hn : n < 32) (h : crc32cBit c a >>> n = crc32cBit d b >>> n) :
    (c.getLsbD 0 != a) = (d.getLsbD 0 != b) ∧ c >>> (n + 1) = d >>> (n + 1) := by
  have hadded : (c.getLsbD 0 != a) = (d.getLsbD 0 != b) := by
    have hbit := congrArg (fun v => v.getLsbD (31 - n)) h
    simp only [BitVec.getLsbD_ushiftRight, show n + (31 - n) = 31 by omega, getLsbD_crc32cBit_top] at hbit
    exact hbit
  rw [crc32cBit_eq, crc32cBit_eq, hadded, BitVec.ushiftRight_xor_distrib, BitVec.ushiftRight_xor_distrib] at h
  refine ⟨hadded, ?_⟩
  rw [Nat.add_comm, BitVec.shiftRight_add, BitVec.shiftRight_add]
  exact (BitVec.xor_left_inj _).mp h

/-- Rows of at most 32 bits that take two registers to the same one were added to registers that agree above them; from one register, only a row itself
takes it there. -/
theorem foldl_crc32cBit_agree {u v : List Bool} {c d : BitVec 32} (hlen : u.length = v.length) (hu : u.length ≤ 32)
    (h : u.foldl crc32cBit c = v.foldl crc32cBit d) : c >>> u.length = d >>> u.length ∧ (c = d → u = v) := by
  induction u generalizing v c d with
  | nil =>
    obtain rfl : v = [] := List.length_eq_zero_iff.mp hlen.symm
    exact ⟨congrArg (fun r : BitVec 32 => r >>> 0) h, fun _ => rfl⟩
  | cons a u ih =>
    cases v with
    | nil => simp at hlen
    | cons b v =>
      simp only [List.length_cons] at hlen hu
      obtain ⟨hregs, hrows⟩ := ih (v := v) (by omega) (by omega) h
      obtain ⟨hadded, habove⟩ := crc32cBit_agree (n := u.length) (by omega) hregs
      refine ⟨habove, fun hcd => ?_⟩
      subst hcd
      obtain rfl : a = b := by simpa using hadded
      rw [hrows rfl]

theorem crc32cBit_injective (b : Bool) : Function.Injective (fun c => crc32cBit c b) := fun c d h => by
  obtain ⟨hadded, habove⟩ := crc32cBit_agree (n := 0) (by decide) (congrArg (fun r : BitVec 32 => r >>> 0) h)
  have hlow : c.getLsbD 0 = d.getLsbD 0 := by simpa using hadded
  refine BitVec.eq_of_getLsbD_eq fun i _ => ?_
  cases i with
  | zero => exact hlow
  | succ i =>
    have hbit := congrArg (fun v => v.getLsbD i) habove
    simpa [BitVec.getLsbD_ushiftRight, Nat.add_comm] using hbit

/-! ## CRC-32C of bytes -/

theorem crc32cByte_eq (c : BitVec 32) (b : Byte) : crc32cByte c b = (byteBits b).foldl crc32cBit c := by
  rw [byteBits, List.foldl_map]
  rfl

theorem foldl_crc32cByte (l : List Byte) (c : BitVec 32) : l.foldl crc32cByte c = (l.flatMap byteBits).foldl crc32cBit c := by
  rw [List.foldl_flatMap]
  exact congrArg (fun f => l.foldl f c) (funext fun c => funext fun b => crc32cByte_eq c b)

theorem foldl_crc32cBit_injective (l : List Bool) : Function.Injective (fun c => l.foldl crc32cBit c) := by
  induction l with
  | nil => exact fun _ _ h => h
  | cons b l ih => exact ih.comp (crc32cBit_injective b)

theorem foldl_crc32cByte_injective (l : List Byte) : Function.Injective (fun c => l.foldl crc32cByte c) := by
  simpa only [foldl_crc32cByte] using foldl_crc32cBit_injective (l.flatMap byteBits)

/-! ## Bytes and their bits (R271) -/

theorem length_byteBits (b : Byte) : (byteBits b).length = 8 := by simp [byteBits]

theorem length_flatMap_byteBits (l : List Byte) : (l.flatMap byteBits).length = 8 * l.length := by
  simp [List.length_flatMap, length_byteBits, Nat.mul_comm]

/-- Bits as a number, the lowest first. -/
theorem testBit_foldr_bit (l : List Bool) (i : Nat) : (l.foldr (fun b n => bit b + 2 * n) 0).testBit i = l.getD i false := by
  induction l generalizing i with
  | nil => simp
  | cons b l ih =>
    cases i with
    | zero => cases b <;> simp [bit, Nat.testBit_zero]
    | succ i =>
      have hbit : bit b < 2 := by cases b <;> decide
      have hhalf (n : Nat) : (bit b + 2 * n) / 2 = n := by omega
      rw [List.foldr_cons, Nat.testBit_succ, hhalf, ih, List.getD_cons_succ]

theorem bitsByte_byteBits (b : Byte) : bitsByte (byteBits b) = b := by
  refine BitVec.eq_of_getLsbD_eq fun i hi => ?_
  rw [bitsByte, BitVec.getLsbD_ofNat, testBit_foldr_bit]
  simp [byteBits, hi]

theorem bitsBytes_flatMap (l : List Byte) : bitsBytes l.length (l.flatMap byteBits) = l := by
  induction l with
  | nil => rfl
  | cons b l ih =>
    have hlen : (byteBits b).length = 8 := length_byteBits b
    rw [List.flatMap_cons, List.length_cons, bitsBytes, List.take_left' hlen, List.drop_left' hlen, bitsByte_byteBits, ih]

theorem flatMap_byteBits_injective {l m : List Byte} (h : l.flatMap byteBits = m.flatMap byteBits) : l = m := by
  have hlen : l.length = m.length := by
    have := congrArg List.length h
    simp only [length_flatMap_byteBits] at this
    omega
  rw [← bitsBytes_flatMap l, ← bitsBytes_flatMap m, h, hlen]

/-! ## The sector check (R272) -/

theorem leNat_natLe_four {v : Nat} (hv : v < 2 ^ 32) : leNat (natLe 4 v) = v := (leNat_natLe 4 v).trans (Nat.mod_eq_of_lt hv)

/-- Sectors that differ in their tracks alone have different checks. -/
theorem sectorCheck_track {h t u p : Nat} {b : List Byte} (ht : t < 2 ^ 32) (hu : u < 2 ^ 32) (hcheck : sectorCheck h t p b = sectorCheck h u p b) :
    t = u := by
  have hregs : (natLe 4 t).foldl crc32cByte (BitVec.allOnes 32) = (natLe 4 u).foldl crc32cByte (BitVec.allOnes 32) := by
    simp only [sectorCheck, List.append_assoc] at hcheck
    simp only [List.foldl_append (l := natLe 4 t), List.foldl_append (l := natLe 4 u)] at hcheck
    exact foldl_crc32cByte_injective _ (BitVec.not_inj.mp hcheck)
  simp only [foldl_crc32cByte] at hregs
  have hbits (v : Nat) : ((natLe 4 v).flatMap byteBits).length = 32 := by rw [length_flatMap_byteBits, length_natLe]
  have hbytes := flatMap_byteBits_injective ((foldl_crc32cBit_agree ((hbits t).trans (hbits u).symm) (hbits t).le hregs).2 rfl)
  have hvals := congrArg leNat hbytes
  rwa [leNat_natLe_four ht, leNat_natLe_four hu] at hvals

/-- A payload made of its user data and a check passes at an address exactly if the check is that of the address. -/
theorem checkOk_append {h t p : Nat} {b : List Byte} (c : BitVec 32) (hb : b.length = 4112) :
    checkOk h t p (b ++ natLe 4 c.toNat) = true ↔ c = sectorCheck h t p b := by
  have hlen : (b ++ natLe 4 c.toNat).length = 4116 := by rw [List.length_append, hb, length_natLe]
  have hval : leNat (natLe 4 c.toNat) = c.toNat := leNat_natLe_four c.isLt
  rw [checkOk, List.take_left' hb, List.drop_left' hb, hval]
  simp [hlen, BitVec.toNat_inj]

theorem secPayload_checks {g : Nat} {r : CRun} {x : Sec} {b : List Byte} {s : State} (hbytes : s.secBytes g r x = some b) (hb : b.length = 4112) :
    ∃ p, s.secPayload g r x = some p ∧ p.take 4112 = b ∧ checkOk (4 * g + x.surf) x.track x.pos p = true :=
  ⟨_, congrArg (Option.map _) hbytes, List.take_left' hb, (checkOk_append _ hb).mpr rfl⟩

/-! ## Framing and the code (R270, R271) -/

theorem length_highFirst (n v : Nat) : (highFirst n v).length = n := by simp [highFirst]

theorem length_frameSector (dual : Bool) {code : List Bool} (hcode : code.length = 36864) :
    (frameSector dual code).length = if dual then 37072 else 37040 := by
  have hpreamble : preambleBits.length = 128 := by simp [preambleBits]
  have hfirst : (code.take 128).length = 128 := by rw [List.length_take, hcode]; decide
  have hrest : (code.drop 128).length = 36736 := by rw [List.length_drop, hcode]
  cases dual with
  | false => simp only [frameSector, List.length_append, hpreamble, primaryMark, padBits, length_highFirst, hcode, Bool.false_eq_true, if_false]
  | true =>
    simp only [frameSector, List.length_append, hpreamble, primaryMark, secondaryMark, padBits, length_highFirst, hfirst, hrest, if_true]

theorem length_solveBits (n : Nat) (rows : List (List Bool)) : (solveBits n rows).length = n := by
  induction n generalizing rows with
  | zero => rfl
  | succ n ih =>
    unfold solveBits
    split <;> simp [ih]

theorem codeword_systematic {b : List Byte} (hb : b.length = 4116) :
    (codeword b).length = 36864 ∧ bitsBytes 4116 ((codeword b).take 32928) = b := by
  have hlen : (b.flatMap byteBits).length = 32928 := by rw [length_flatMap_byteBits, hb]
  refine ⟨?_, ?_⟩
  · rw [codeword, List.length_append, hlen, parityBits, length_solveBits]
  · rw [codeword, List.take_left' hlen, ← hb, bitsBytes_flatMap]

/-! ## Precompensation (R317) -/

section
variable {pre : List Int} {n : Nat} {prev : Option Bool} {hist : Bool × Bool × Bool} {b : Bool} {l : List Bool}

/-- A bit that differs from the one before it is a transition, with the shift that the history chooses. -/
theorem transitions_of_change (h : prev.any (· != b) = true) : transitions pre n prev hist (b :: l) =
    (n, pre.getD (bit hist.1 + 2 * bit hist.2.1 + 4 * bit hist.2.2) 0) :: transitions pre (n + 1) (some b) (true, hist.1, hist.2.1) l := by
  simp only [transitions, h, decide_true, if_true]

theorem transitions_of_same (h : prev.any (· != b) = false) :
    transitions pre n prev hist (b :: l) = transitions pre (n + 1) (some b) (false, hist.1, hist.2.1) l := by
  simp only [transitions, h, Bool.false_eq_true, decide_false, if_false]

/-- What lies after a bit lies after it with that bit in its history. -/
theorem mem_transitions_tail {x : Nat × Int} (hx : x ∈ transitions pre (n + 1) (some b) (prev.any (· != b), hist.1, hist.2.1) l) :
    x ∈ transitions pre n prev hist (b :: l) := by
  cases h : prev.any (· != b) with
  | false =>
    rw [transitions_of_same h]
    rwa [h] at hx
  | true =>
    rw [transitions_of_change h]
    rw [h] at hx
    exact List.mem_cons_of_mem _ hx

theorem transitions_constant (hprev : prev.any (· != b) = false) (hl : ∀ c ∈ l, c = b) : transitions pre n prev hist l = [] := by
  induction l generalizing n prev hist with
  | nil => rfl
  | cons c l ih =>
    obtain ⟨rfl, hl⟩ := List.forall_mem_cons.mp hl
    rw [transitions_of_same hprev]
    exact ih (by simp) hl

end

theorem transitions_fifth (pre : List Int) {a b c d e : Bool} (hde : d ≠ e) :
    (4, pre.getD (bit (c != d) + 2 * bit (b != c) + 4 * bit (a != b)) 0) ∈ transitions pre 0 none (false, false, false) [a, b, c, d, e] := by
  have hlast : (some d).any (· != e) = true := by simpa using hde
  refine mem_transitions_tail (mem_transitions_tail (mem_transitions_tail (mem_transitions_tail ?_)))
  rw [transitions_of_change hlast]
  exact List.mem_cons_self

/-! ## A write gate closes (R270, R316 to R318) -/

theorem closeWrite_media {g eseq i : Nat} {e : GateEv} {x : Sec} {r : CRun} {z : Zone} {p : List Byte} {s : State}
    (hsec : s.gateSec g e = some (eseq, i, x)) (hrun : (s.fmt g).runs.find? (fun r => r.eseq = eseq) = some r)
    (hpayload : s.secPayload g r x = some p) (hzone : s.groupZone g x.surf x.zone = some z) :
    .media g x.surf x.track x.pos (frameSector z.dual (codeword p)) (writeLevel z.precomp (s.fmt g).lead (frameSector z.dual (codeword p)))
      ∈ (closeWrite g e s).out := by
  have hentry (v : VEntry) (hv : v.surf = x.surf ∧ v.zone = x.zone) : s.entryZone g v = z := by
    rw [State.entryZone, hv.1, hv.2, hzone]
    rfl
  unfold closeWrite
  simp only [hsec, hrun, Option.bind_some, hpayload]
  rw [hentry _ ⟨rfl, rfl⟩]
  refine (settleSec_kept (Kept.refl _)).out.subset ?_
  exact List.mem_cons_self ..

/-- Settles O32: a check is that of the address it was made for, and of no other track, as 32 bits lead a CRC register to different ones; framing and the
code by their lengths; the transitions bit by bit; and a write gate that closes by what it puts out before its sector gets its outcome. -/
theorem sectorCheckOfWrites : Obligations.SectorCheckOfWrites := by
  refine ⟨fun _ _ _ _ hb => (checkOk_append _ hb).mpr rfl, fun _ _ _ _ _ => secPayload_checks, fun h t u p b hb ht hu htu => ?track,
    fun _ hcode => ⟨length_frameSector false hcode, length_frameSector true hcode⟩, fun _ => codeword_systematic,
    fun pre _ _ _ _ _ => transitions_fifth pre, fun _ _ _ hl => transitions_constant rfl hl, fun _ _ _ _ _ _ _ _ _ => closeWrite_media⟩
  case track =>
    rw [Bool.eq_false_iff]
    exact fun hok => htu (sectorCheck_track ht hu ((checkOk_append _ hb).mp hok))

end Sys2Proof.Machine
end

section
/-! Orders to a Curd die and its report: O34. -/

namespace Sys2Proof.Machine

/-! ## First copies (R504) -/

theorem State.curds_length_incC (s : State) (g : Nat) (f : Fld) (n : Nat) : (s.incC g f n).curds.length = s.curds.length := (rfl)

theorem curds_length_reportMismatch (g cls : Nat) (slot : RSlot) (eseq : Nat) (s : State) :
    (reportMismatch g cls slot eseq s).curds.length = s.curds.length := curds_length_fromCurd ..

theorem curds_length_discardCopy (g : Nat) (src : RSlot) (m : Msg) (s : State) : (discardCopy g src m s).curds.length = s.curds.length :=
  curds_length_takeMsg ..

/-- Whatever becomes of a copy, no die comes or goes. -/
theorem curds_length_firstCopy (g : Nat) (src : RSlot) (m : Msg) (s : State) : (firstCopy g src m s).2.curds.length = s.curds.length := by
  fun_cases firstCopy <;>
    simp +zetaDelta [apply_ite, curds_length_modFmt, curds_length_reportMismatch, curds_length_discardCopy, State.curds_length_incC]

/-! ## END_RUNS, GROUP_ORDER and RETRACT_ORDER (R352, R504, R532, R551) -/

/-- The open gate is of a sector of the run. -/
def State.gateInRun (s : State) (g eseq : Nat) : Bool :=
  match (s.fmt g).gate.bind (fun o => s.gateSec g o) with
  | some q => decide (q.1 = eseq)
  | none => false

/-- The queued runs of an ESEQ count as started, so that they are ended with the ones in progress, and a gate of theirs closes. -/
def takeRuns (eseq : Nat) (closes : Bool) (f : Fmt) : Fmt :=
  { f with
    gate := if closes then none else f.gate
    runs := f.runs ++ f.queue.filter (fun q => q.eseq = eseq), queue := f.queue.filter (fun q => q.eseq ≠ eseq) }

/-- The state in which an END_RUNS order finds the runs it ends. -/
def runsTaken (g : Nat) (src : RSlot) (m : Msg) (s : State) : State :=
  modFmt g (takeRuns (m.w 1) ((takeMsg (.curd g src) m s).gateInRun g (m.w 1))) (takeMsg (.curd g src) m s)

theorem eseq_of_mem_takeRuns {eseq : Nat} {closes : Bool} {f : Fmt} {q : CRun} (h : q ∈ (takeRuns eseq closes f).queue) : q.eseq ≠ eseq :=
  of_decide_eq_true (List.mem_filter.mp h).2

theorem eseq_of_mem_runsTaken {g : Nat} {src : RSlot} {m : Msg} {s : State} {q : CRun} (hg : g < s.curds.length)
    (h : q ∈ ((runsTaken g src m s).fmt g).queue) : q.eseq ≠ m.w 1 := by
  rw [runsTaken, fmt_modFmt_self (by simpa using hg)] at h
  exact eseq_of_mem_takeRuns h

theorem regs_runsTaken (g : Nat) (src : RSlot) (m : Msg) (s : State) : (runsTaken g src m s).regs = s.regs := regs_takeMsg ..

theorem out_runsTaken (g : Nat) (src : RSlot) (m : Msg) (s : State) : (runsTaken g src m s).out = s.out := out_takeMsg ..

section
variable {g : Nat} {src : RSlot} {m : Msg} {s : State} (hg : s.hasCurd g = true) (hcls : m.cls = 3)
include hg hcls

theorem exec_endRuns_later (hop : m.w 0 / 2 ^ 24 = 0x53) (hcopy : (firstCopy g src m s).1 = false) :
    exec (.endRuns g src m) s = .next (settle (firstCopy g src m s).2) := by
  show execEndRuns g src m s = _
  exact (if_pos ⟨hg, hcls, hop⟩).trans (if_pos (by rw [hcopy]; rfl))

theorem exec_endRuns_first (hop : m.w 0 / 2 ^ 24 = 0x53) (hcopy : (firstCopy g src m s).1 = true) :
    exec (.endRuns g src m) s = .next (settle (refreshServo g (showFmt g (refuseRun g (m.w 1) (fun _ => true)
      (runsTaken g src m (firstCopy g src m s).2))))) := by
  show execEndRuns g src m s = _
  exact (if_pos ⟨hg, hcls, hop⟩).trans (if_neg (by rw [hcopy]; decide))

theorem exec_groupOrder (hop : m.w 0 / 2 ^ 24 = 0x52) :
    exec (.groupOrder g src m) s = .next (settle (if (firstCopy g src m s).1 = true then
      applyOrder g (m.w 0) (takeMsg (.curd g src) m (firstCopy g src m s).2) else (firstCopy g src m s).2)) := by
  show execGroupOrder g src m s = _
  exact if_pos ⟨hg, hcls, hop⟩

end

theorem exec_retractOrder {g : Nat} {s : State} (hg : s.hasCurd g = true) : exec (.retractOrder g) s = .next (settle (emergencyRetract g s)) := by
  show execRetractOrder g s = _
  exact if_pos hg

/-! ## The die report (R522) -/

/-- The first word of a die report: the readers powered or settling, whether the heads are loaded, and the temperature. -/
def State.dieReportWord (s : State) (g temp : Nat) : Word :=
  BitVec.ofNat 32 (6 * 2 ^ 28 + max (s.fmt g).readers ((s.fmt g).settling.getD 0) * 2 ^ 26 + bit (s.svLoaded g) * 2 ^ 25 + temp)

theorem exec_curdDieReportTimer_sampled {g : Nat} {p : Nat × Int} {s : State} (hg : s.hasCurd g = true)
    (htemp : s.budget.diodes.find? (fun p => p.1 = curdCode g) = some p) :
    exec (.curdDieReportTimer g) s = .next (settle (fromCurd g 2 0 [s.dieReportWord g (unsgn 16 p.2), 0] s)) := by
  show execCurdDieReportTimer g s = _
  unfold execCurdDieReportTimer
  simp only [htemp]
  exact if_neg (by rw [hg]; decide)

/-- Before the first sample the temperature is a free value. -/
theorem exec_curdDieReportTimer_unsampled {g : Nat} {s : State} (hg : s.hasCurd g = true)
    (htemp : s.budget.diodes.find? (fun p => p.1 = curdCode g) = none) :
    exec (.curdDieReportTimer g) s = .next (settle (fromCurd g 2 0 [s.dieReportWord g (s.fresh.1 % 2 ^ 16), 0] s.fresh.2)) := by
  show execCurdDieReportTimer g s = _
  unfold execCurdDieReportTimer
  simp only [htemp]
  exact if_neg (by rw [hg]; decide)

/-- Settles O34: each order by whether its copy is the first, with END_RUNS split into the runs it takes from the queue and their refusal; the report by
whether the island has a sample of the die's temperature. -/
theorem curdOrders : Obligations.CurdOrders := by
  refine ⟨fun g src m x s hg hlt hcls hop hx => ⟨fun hcopy => ?later, fun hcopy => ?first⟩, fun g src m x s hg hcls hop hx => ?order,
    fun _ _ => exec_retractOrder, fun _ _ _ => exec_curdDieReportTimer_sampled, fun g s hg htemp => ?unsampled⟩
  case later =>
    subst hx
    exact exec_endRuns_later hg hcls hop hcopy
  case first =>
    subst hx
    have hheld : g < (firstCopy g src m s).2.curds.length := curds_length_firstCopy g src m s ▸ hlt
    exact ⟨runsTaken g src m (firstCopy g src m s).2, fun _ => eseq_of_mem_runsTaken hheld, regs_runsTaken .., out_runsTaken ..,
      exec_endRuns_first hg hcls hop hcopy⟩
  case order =>
    subst hx
    exact exec_groupOrder hg hcls hop
  case unsampled =>
    exact ⟨s.fresh.1 % 2 ^ 16, Nat.mod_lt _ (by decide), exec_curdDieReportTimer_unsampled hg htemp⟩

end Sys2Proof.Machine
end

section
/-! The arithmetic of the demodulator and the Press: O36. -/

namespace Sys2Proof.Machine

/-! ## Gray codes (R327, R331) -/

/-- Each bit of a Gray code is the exclusive or of two neighbouring bits of its number: the code bits of a stretch add up, modulo 2, to the number's
bits at its two ends. -/
theorem grayBits_mod_two (n i m : Nat) : ((List.range m).filter (fun j => (n ^^^ (n / 2)).testBit (i + j))).length % 2 =
    ((n.testBit i).toNat + (n.testBit (i + m)).toNat) % 2 := by
  induction m with
  | zero => cases n.testBit i <;> simp
  | succ m ih =>
    have hcode : (n ^^^ (n / 2)).testBit (i + m) = (n.testBit (i + m) ^^ n.testBit (i + (m + 1))) := by
      rw [Nat.testBit_xor, Nat.testBit_div_two, Nat.add_assoc]
    rw [List.range_succ, List.filter_append, List.length_append, Nat.add_mod, ih, List.filter_singleton, hcode]
    cases n.testBit i <;> cases n.testBit (i + m) <;> cases n.testBit (i + (m + 1)) <;> simp

/-- The bits of a number below a place, added up. -/
theorem foldl_bits (n k : Nat) : (List.range k).foldl (fun a i => a + if n.testBit i = true then 2 ^ i else 0) 0 = n % 2 ^ k := by
  induction k with
  | zero => simp [Nat.mod_one]
  | succ k ih =>
    have hbit : (if n.testBit k = true then 2 ^ k else 0) = 2 ^ k * (n / 2 ^ k % 2) := by
      rw [← Nat.toNat_testBit]
      cases n.testBit k <;> simp
    rw [List.range_succ, List.foldl_append, ih, Nat.mod_pow_succ, ← hbit]
    rfl

theorem grayNat_code {n : Nat} (hn : n < 2 ^ 24) : grayNat (n ^^^ (n / 2)) = n := by
  have htop : n.testBit 24 = false := Nat.testBit_lt_two_pow hn
  have hread (i : Nat) (hi : i ∈ List.range 24) : ((List.range (24 - i)).filter (fun j => (n ^^^ (n / 2)).testBit (i + j))).length % 2 = 1 ↔
      n.testBit i = true := by
    have hend : i + (24 - i) = 24 := by have := List.mem_range.mp hi; omega
    rw [grayBits_mod_two, hend, htop]
    cases n.testBit i <;> decide
  calc grayNat (n ^^^ (n / 2))
    _ = (List.range 24).foldl (fun a i => a + if n.testBit i = true then 2 ^ i else 0) 0 :=
      List.foldl_ext _ _ _ fun a i hi => by simp only [hread i hi]
    _ = n % 2 ^ 24 := foldl_bits n 24
    _ = n := Nat.mod_eq_of_lt hn

/-! ## Sums, stores and limits (R333 to R335) -/

theorem satAcc_range (x : Int) : -(2 ^ 39) ≤ (satAcc x).1 ∧ (satAcc x).1 < 2 ^ 39 ∧ ((satAcc x).2 = false → (satAcc x).1 = x) := by
  fun_cases satAcc x with
  | case1 => exact ⟨by simp, by simp, by simp⟩
  | case2 => exact ⟨by simp, by simp, by simp⟩
  | case3 hlow hhigh => exact ⟨not_lt.mp hlow, not_le.mp hhigh, fun _ => rfl⟩

/-- A quotient by 32,768 rounded to nearest, ties to even. -/
def roundQ (a : Int) : Int := if 16384 < a % 32768 ∨ (a % 32768 = 16384 ∧ a / 32768 % 2 = 1) then a / 32768 + 1 else a / 32768

theorem roundQ_nearest (a : Int) : 2 * (32768 * roundQ a - a).natAbs ≤ 32768 ∧ (2 * (32768 * roundQ a - a).natAbs = 32768 → roundQ a % 2 = 0) := by
  unfold roundQ
  split <;> constructor <;> omega

theorem storeQ_eq (a : Int) : storeQ a = if roundQ a < -32768 then (-32768, true) else if 32767 < roundQ a then (32767, true) else (roundQ a, false) := rfl

theorem storeQ_range (a : Int) : -32768 ≤ (storeQ a).1 ∧ (storeQ a).1 ≤ 32767 := by
  rw [storeQ_eq]
  split
  · decide
  · split
    · decide
    · dsimp only; omega

theorem storeQ_round {a : Int} (h : (storeQ a).2 = false) : (storeQ a).1 = roundQ a := by
  rw [storeQ_eq] at h ⊢
  split at h
  · cases h
  · split at h
    · cases h
    · next hlow hhigh => rw [if_neg hlow, if_neg hhigh]

theorem limit_within (m : Nat) (x : Int) : (limit m x).1.natAbs ≤ m ∧ ((limit m x).2 = false → (limit m x).1 = x) := by
  fun_cases limit m x with
  | case1 => exact ⟨by simp, by simp⟩
  | case2 => exact ⟨by simp, by simp⟩
  | case3 hlow hhigh => exact ⟨by omega, fun _ => rfl⟩

/-- A filter section puts out what is stored of its sum. -/
theorem section5_range (c : List Int) (k : Nat) (x : Int) (st : Int × Int × Int × Int) : (section5 c k x st).1.natAbs ≤ 32768 := by
  have hstored (a : Int) : (storeQ a).1.natAbs ≤ 32768 := by
    obtain ⟨hlow, hhigh⟩ := storeQ_range a
    omega
  exact hstored _

/-- Settles O36: a Gray code by its bits, each the parity of a stretch of code bits; a store by the rounded quotient it holds to range. -/
theorem servoArithmetic : Obligations.ServoArithmetic := by
  refine ⟨fun _ => grayNat_code, satAcc_range, fun a => ?store, limit_within, section5_range⟩
  case store =>
    obtain ⟨hlow, hhigh⟩ := storeQ_range a
    obtain ⟨hnear, htie⟩ := roundQ_nearest a
    exact ⟨hlow, hhigh, fun h => storeQ_round h ▸ hnear, fun h => storeQ_round h ▸ htie⟩

end Sys2Proof.Machine
end

section
/-! What the formatter's operations leave of a state, and the servo of a Curd die read after its updates (R341 to R354). -/

namespace Sys2Proof.Machine

/-! ## What the formatter's operations leave

Runs, gates and the preamplifier change formatters, link ends and outputs, and write registers of the CHAN and FMT blocks, which lie below SERVO. -/

/-- A part of the state that the formatter's operations do not reach. -/
structure MediaFree {β : Type} (π : State → β) : Prop where
  wrC : ∀ s g f v, f.off < 0x30000 → π (State.wrC s g f v) = π s
  modEnd : ∀ s e f, π (State.modEnd s e f) = π s
  modFmt : ∀ s g f, π (Machine.modFmt g f s) = π s
  emit : ∀ s o, π (State.emit s o) = π s

section
variable {β : Type} {π : State → β} (hπ : MediaFree π)
include hπ

theorem MediaFree.incC (s : State) (g : Nat) (f : Fld) (n : Nat) (hf : f.off < 0x30000) : π (s.incC g f n) = π s := hπ.wrC s g f _ hf

theorem MediaFree.sendMsg_curd (g : Nat) (d : RSlot) (cls eseq : Nat) (ws : List Word) (s : State) :
    π (sendMsg (.curd g d) cls eseq ws s) = π s := by
  have hwire (ms : List Msg) (t : State) : π (putOnWire (.curd g d) ms t) = π t :=
    foldl_field π fun u m => (hπ.emit ..).trans (hπ.modEnd ..)
  unfold sendMsg
  extract_lets mute t m
  split
  · rw [launchClass, hwire, hπ.modEnd, hπ.modEnd]
  · rfl

theorem MediaFree.fromCurd (g cls eseq : Nat) (ws : List Word) (s : State) : π (fromCurd g cls eseq ws s) = π s := by
  rw [Machine.fromCurd, hπ.sendMsg_curd, hπ.sendMsg_curd]

theorem MediaFree.showFmt (g : Nat) (s : State) : π (showFmt g s) = π s := by
  unfold Machine.showFmt
  simp (disch := decide) only [hπ.wrC]
  split <;> simp (disch := decide) only [hπ.wrC]

theorem MediaFree.modEntry (g id : Nat) (h : VEntry → VEntry) (s : State) : π (modEntry g id h s) = π s := by
  rw [Machine.modEntry, showVault, hπ.wrC _ _ _ _ (by decide), hπ.wrC _ _ _ _ (by decide), hπ.modFmt]

theorem MediaFree.paSet (g addr val : Nat) (s : State) : π (paSet g addr val s) = π s := by
  unfold Machine.paSet
  split
  · rfl
  · rw [paWrite, hπ.modFmt, hπ.emit]

theorem MediaFree.heater (g : Nat) (write : Bool) (s : State) : π (heater g write s) = π s := by
  unfold Machine.heater
  split
  · rfl
  · exact hπ.paSet ..

theorem MediaFree.endIfDone (g eseq : Nat) (s : State) : π (endIfDone g eseq s) = π s := by
  unfold Machine.endIfDone
  split
  · rfl
  · next r _ =>
    split
    · extract_lets told freed dropped cooled
      have hfreed : π freed = π s := (foldl_field π fun _ _ => hπ.modEnd ..).trans (hπ.fromCurd ..)
      have hdropped : π dropped = π s := (hπ.modFmt ..).trans hfreed
      have hcooled : π cooled = π s := by
        unfold cooled
        split
        · exact (hπ.modFmt ..).trans ((hπ.heater ..).trans hdropped)
        · exact hdropped
      exact (hπ.showFmt ..).trans hcooled
    · rfl

/-- A sector settled without data, with an outcome that counts no rung: refused, or failed. -/
theorem MediaFree.settleSec {outcome : Nat} (hrung : outcome ≠ 0) (g eseq i rung : Nat) (s : State) :
    π (settleSec g eseq i outcome rung none s) = π s := by
  unfold Machine.settleSec
  split
  · rfl
  · next x _ =>
    split
    · rfl
    · extract_lets op unpinned noted counted delivered
      have hnoted : π noted = π s := (hπ.modFmt ..).trans (foldl_field π fun _ _ => hπ.modEntry ..)
      have hcounted : π counted = π s := by
        unfold counted
        split
        · exact absurd rfl hrung
        · exact (hπ.incC _ _ _ _ (by decide)).trans hnoted
        · split
          · exact hnoted
          · rw [hπ.wrC _ _ _ _ (by decide), hπ.wrC _ _ _ _ (by decide), hπ.wrC _ _ _ _ (by decide), hπ.incC _ _ _ _ (by decide), hnoted]
        · exact (hπ.incC _ _ _ _ (by decide)).trans hnoted
        · exact hnoted
      split
      · exact (hπ.endIfDone ..).trans ((hπ.fromCurd ..).trans hcounted)
      · exact (hπ.endIfDone ..).trans ((hπ.fromCurd ..).trans ((hπ.incC _ _ _ _ (by decide)).trans hcounted))
      · exact (hπ.endIfDone ..).trans hcounted

theorem MediaFree.refuseRun (g eseq : Nat) (p : Sec → Bool) (s : State) : π (refuseRun g eseq p s) = π s := by
  unfold Machine.refuseRun
  split
  · rfl
  · extract_lets dropped n
    have hdropped : π dropped = π s := by
      unfold dropped
      split
      · exact hπ.modFmt ..
      · rfl
    refine (foldl_field π fun t i => ?_).trans hdropped
    split
    · split
      · exact hπ.settleSec (by decide) ..
      · rfl
    · rfl

theorem MediaFree.refuseAll (g : Nat) (s : State) : π (refuseAll g s) = π s :=
  (hπ.showFmt ..).trans ((foldl_field π fun _ _ => hπ.refuseRun ..).trans (hπ.modFmt ..))

theorem MediaFree.withdrawGate (g : Nat) (shock : Bool) (s : State) : π (withdrawGate g shock s) = π s := by
  unfold Machine.withdrawGate
  split
  · rfl
  · split
    · rfl
    · extract_lets closed
      have hclosed : π closed = π s := hπ.modFmt ..
      split
      · exact hclosed
      · extract_lets shingled dropped again counted
        have hagain : π again = π s := (hπ.modFmt ..).trans ((hπ.modFmt ..).trans hclosed)
        have hcounted : π counted = π s := by
          unfold counted
          split
          · exact (hπ.settleSec (by decide) ..).trans hagain
          · exact hagain
        exact (hπ.showFmt ..).trans hcounted

end

theorem mediaFree_curds_length : MediaFree (fun s => s.curds.length) where
  wrC _ _ _ _ _ := rfl
  modEnd _ _ _ := State.curds_length_modEnd
  modFmt _ _ _ := curds_length_modFmt ..
  emit _ _ := rfl

/-- The fields of the SERVO block and of the blocks above it. -/
theorem mediaFree_rdC {g : Nat} {f : Fld} (hf : 0x30000 ≤ f.off ∧ f.off < 0x1000000) : MediaFree (fun s => s.rdC g f) where
  wrC s k x v hx := congrArg f.get (State.word_setWord_other (by unfold regKey; omega))
  modEnd s e x := congrArg (fun l => f.get (Sparse.get resetWord (regKey (curdCode g) f.off) l)) (State.regs_modEnd s e x)
  modFmt _ _ _ := rfl
  emit _ _ := rfl

/-! ## The servo read after a change -/

theorem servo_modServo_self {g : Nat} {f : Servo → Servo} {s : State} (hg : g < s.curds.length) : (modServo g f s).servo g = f (s.servo g) :=
  congrArg CurdDie.servo (State.curd_modCurd _ _ _ hg)

/-- What a change leaves of each servo it leaves of every servo. -/
theorem servo_modServo_field {β : Type} (π : Servo → β) {k g : Nat} {f : Servo → Servo} {s : State} (h : ∀ v, π (f v) = π v) :
    π ((modServo k f s).servo g) = π (s.servo g) := getD_modAt_field (fun c : CurdDie => π c.servo) fun _ => h _

theorem curds_length_modServo (g : Nat) (f : Servo → Servo) (s : State) : (modServo g f s).curds.length = s.curds.length := length_modAt

theorem svState_setSv {g st : Nat} {s : State} (hs : s.regsWf = true) (hst : st < 16) : (setSv g st s).svState g = st :=
  (State.rdC_wrC_self hs (by decide)).trans (Nat.mod_eq_of_lt hst)

theorem curd_setSv (k st : Nat) (s : State) (g : Nat) : (setSv k st s).curd g = s.curd g := (rfl)

theorem out_setSv (g st : Nat) (s : State) : (setSv g st s).out = s.out := (rfl)

theorem svState_showFmt (k : Nat) (s : State) (g : Nat) : (showFmt k s).svState g = s.svState g := (mediaFree_rdC (by decide)).showFmt ..

/-! ## RET_N and the frames of the ACT port (R57, R341) -/

theorem curd_showFmt (k : Nat) (s : State) (g : Nat) : (showFmt k s).curd g = s.curd g := showFmt_field (fun t => t.curd g) (fun _ _ _ _ => rfl) k s

theorem out_showFmt (g : Nat) (s : State) : (showFmt g s).out = s.out := showFmt_field State.out (fun _ _ _ _ => rfl) g s

theorem retN_modServo (k : Nat) (f : Servo → Servo) (s : State) (g : Nat) : ((modServo k f s).curd g).retN = (s.curd g).retN :=
  getD_modAt_field CurdDie.retN fun _ => rfl

theorem retN_setRetN {g : Nat} {high : Bool} {s : State} (hg : g < s.curds.length) : ((setRetN g high s).curd g).retN = high :=
  congrArg CurdDie.retN (State.curd_modCurd _ _ _ hg)

theorem servo_setRetN (k : Nat) (high : Bool) (s : State) (g : Nat) : (setRetN k high s).servo g = s.servo g :=
  getD_modAt_field CurdDie.servo fun _ => rfl

theorem regsWf_setRetN {g : Nat} {high : Bool} {s : State} (hs : s.regsWf = true) : (setRetN g high s).regsWf = true := State.regsWf_wrC hs

theorem curds_length_setRetN (g : Nat) (high : Bool) (s : State) : (setRetN g high s).curds.length = s.curds.length := length_modAt

theorem retN_actFrame (k typ : Nat) (value : Int) (s : State) (g : Nat) : ((actFrame k typ value s).curd g).retN = (s.curd g).retN :=
  getD_modAt_field CurdDie.retN fun _ => rfl

theorem regsWf_actFrame {g typ : Nat} {value : Int} {s : State} (hs : s.regsWf = true) : (actFrame g typ value s).regsWf = true := hs

theorem curds_length_actFrame (g typ : Nat) (value : Int) (s : State) : (actFrame g typ value s).curds.length = s.curds.length := length_modAt

theorem out_actFrame (g typ : Nat) (value : Int) (s : State) :
    (actFrame g typ value s).out = .act g (typ * 2 ^ 20 + (s.servo g).fseq * 2 ^ 16 + unsgn 16 value) :: s.out := (rfl)

theorem fseq_actFrame {g typ : Nat} {value : Int} {s : State} (hg : g < s.curds.length) :
    ((actFrame g typ value s).servo g).fseq = ((s.servo g).fseq + 1) % 16 := congrArg (fun c : CurdDie => c.servo.fseq) (State.curd_modCurd _ _ _ hg)

theorem fails_actFrame (k typ : Nat) (value : Int) (s : State) (g : Nat) : ((actFrame k typ value s).servo g).fails = (s.servo g).fails :=
  getD_modAt_field (fun c : CurdDie => c.servo.fails) fun _ => rfl

/-! ## Permissions, and the heads off the media (R349, R353) -/

/-- A lost write permission stays lost: what is done of the gate it withdraws gives none. -/
theorem wrok_clearWrok {g : Nat} {s : State} (hs : s.regsWf = true) : (clearWrok g s).rdC g R.SERVO_STAT_WROK = 0 := by
  have hfree : MediaFree (fun t => t.rdC g R.SERVO_STAT_WROK) := mediaFree_rdC (by decide)
  have hcleared : (s.wrC g R.SERVO_STAT_WROK 0).rdC g R.SERVO_STAT_WROK = 0 := State.rdC_wrC_self hs (by decide)
  unfold clearWrok
  split
  · extract_lets cleared
    refine (hfree.showFmt ..).trans ((hfree.withdrawGate ..).trans ?_)
    split
    · exact (State.rd_wr_other (by decide) (by decide) (.inr (by decide))).trans hcleared
    · exact hcleared
  · next hclear => simpa [State.bitC] using hclear

theorem curds_length_clearWrok (g : Nat) (s : State) : (clearWrok g s).curds.length = s.curds.length := by
  unfold clearWrok
  split
  · refine (mediaFree_curds_length.showFmt ..).trans ((mediaFree_curds_length.withdrawGate ..).trans ?_)
    split <;> rfl
  · rfl

theorem curds_length_clearPermits (g : Nat) (s : State) : (clearPermits g s).curds.length = s.curds.length :=
  (curds_length_clearWrok ..).trans length_modAt

theorem curds_length_leaveMedia (g : Nat) (s : State) : (leaveMedia g s).curds.length = s.curds.length := by
  unfold leaveMedia
  extract_lets still released
  have hrefused : (refuseAll g released).curds.length = released.curds.length := mediaFree_curds_length.refuseAll ..
  have hreleased : released.curds.length = still.curds.length := curds_length_modServo ..
  exact hrefused.trans (hreleased.trans (curds_length_clearPermits g s))

theorem regsWf_leaveMedia {g : Nat} {s : State} (hs : s.regsWf = true) : (leaveMedia g s).regsWf = true := (leaveMedia_kept (.refl s)).regs hs

end Sys2Proof.Machine
end

section
/-! Wedges, inner instants and target requests: O37. -/

namespace Sys2Proof.Machine

/-! ## Inner instants (R336, R341, R342) -/

/-- An inner instant at which RET_N is high ends with one frame, whose value is the limited demand. -/
theorem innerLoop_sends {g : Nat} {isns : Int} {lat : Nat} {s : State} (hret : (s.curd g).retN = true) :
    ∃ u v, innerLoop g isns lat s = actFrame g 1 u v ∧ u.natAbs ≤ 32767 ∧ (v.servo g).fseq = (s.servo g).fseq ∧
      v.curds.length = s.curds.length ∧ v.host = s.host := by
  unfold innerLoop
  rw [if_pos hret]
  extract_lets v i ops ramp u driven shown worst
  have hdriven : (driven.servo g).fseq = (s.servo g).fseq ∧ driven.curds.length = s.curds.length ∧ driven.host = s.host := by
    unfold driven
    split
    · exact ⟨rfl, rfl, rfl⟩
    · exact ⟨servo_modServo_field Servo.fseq fun _ => rfl, curds_length_modServo .., State.host_modCurd ..⟩
  have hu : u.natAbs ≤ 32767 := (limit_within 32767 _).1
  have hhost : worst.host = driven.host := (State.host_wrC ..).trans ((State.host_wrC ..).trans (State.host_wrC ..))
  obtain ⟨hfseq, hlength, hkept⟩ := hdriven
  exact ⟨u, worst, rfl, hu, hfseq, hlength, hhost.trans hkept⟩

theorem innerLoopInstant_sends {g j : Nat} {isns : Int} {lat : Nat} {s : State} (hg : s.hasCurd g = true) (hheld : g < s.curds.length) (hj : j < 4)
    (hret : (s.curd g).retN = true) :
    ∃ t u, exec (.innerLoopInstant g j isns lat) s = .next t ∧ u.natAbs ≤ 32767 ∧ (t.servo g).fseq = ((s.servo g).fseq + 1) % 16 ∧
      t.out = .act g (2 ^ 20 + (s.servo g).fseq * 2 ^ 16 + unsgn 16 u) :: s.out ∧ t.cmds = s.cmds := by
  obtain ⟨u, v, hsent, hu, hfseq, hlength, hhost⟩ := innerLoop_sends (isns := isns) (lat := lat) hret
  obtain ⟨hcmds, hout⟩ := State.host_eq.mp hhost
  refine ⟨actFrame g 1 u v, u, ?_, hu, ?_, ?_, hcmds⟩
  · show Host.Outcome.next _ = _
    rw [if_pos ⟨hg, hj⟩, hsent]
  · rw [fseq_actFrame (hlength ▸ hheld), hfseq]
  · rw [out_actFrame, hfseq, hout, Nat.one_mul]

theorem innerLoopInstant_low {g j : Nat} {isns : Int} {lat : Nat} {s : State} (hg : s.hasCurd g = true) (hj : j < 4) (hret : (s.curd g).retN = false) :
    exec (.innerLoopInstant g j isns lat) s = .next s := by
  have hidle : innerLoop g isns lat s = s := if_neg (by simp [hret])
  show Host.Outcome.next _ = _
  rw [if_pos ⟨hg, hj⟩, hidle]

/-! ## Target requests (R346, R355) -/

section
variable {g surf track : Nat} {s : State}

theorem requestTarget_seeks (hloaded : (s.wrC g R.SERVO_STAT_SURF surf).svLoaded g = true) (hramp : (s.servo g).ramp = none)
    (hrestart : (s.servo g).restart = false) : requestTarget g surf track s = startSeek g track (s.wrC g R.SERVO_STAT_SURF surf) := by
  have hsoft : ¬ (((s.wrC g R.SERVO_STAT_SURF surf).servo g).ramp.isSome = true ∨ ((s.wrC g R.SERVO_STAT_SURF surf).servo g).restart = true) := by
    show ¬ ((s.servo g).ramp.isSome = true ∨ (s.servo g).restart = true)
    simp [hramp, hrestart]
  exact (if_pos hloaded).trans (if_neg hsoft)

theorem requestTarget_waits (hloaded : (s.wrC g R.SERVO_STAT_SURF surf).svLoaded g = true) (hramp : (s.servo g).ramp.isSome = true) :
    requestTarget g surf track s = modServo g (fun v => { v with held := some track }) (s.wrC g R.SERVO_STAT_SURF surf) :=
  (if_pos hloaded).trans (if_pos (.inl hramp))

theorem requestTarget_unloaded (hloaded : (s.wrC g R.SERVO_STAT_SURF surf).svLoaded g = false) :
    requestTarget g surf track s = modServo g (fun v => { v with target := track }) (s.wrC g R.SERVO_STAT_SURF surf) :=
  if_neg (by simp [hloaded])

end

/-! ## The commands -/

theorem exec_wedgeSample {g : Nat} {s : State} (w : Wedge) (hg : s.hasCurd g = true) : exec (.wedgeSample g w) s = .next (settle (wedge g w s)) := by
  show Host.Outcome.next (settle _) = _
  rw [if_pos hg]

/-- Settles O37: a wedge and a request by the branch of the servo's state they take, an inner instant by the one frame it ends with, and the write
permission by what a withdrawn gate leaves of SERVO_STAT. -/
theorem servoWedgesAndTargets : Obligations.ServoWedgesAndTargets := by
  refine ⟨fun _ w _ => exec_wedgeSample w, fun g w s hparked hstill => if_neg (by simp [hparked, hstill]), fun _ _ => wrok_clearWrok,
    fun _ _ _ _ _ => innerLoopInstant_sends, fun _ _ _ _ _ => innerLoopInstant_low, fun _ _ _ _ hg hsurf => if_pos ⟨hg, hsurf⟩,
    fun g surf track n s hn => ?request, fun _ _ hg => if_pos hg⟩
  case request =>
    subst hn
    exact ⟨requestTarget_seeks, requestTarget_waits, requestTarget_unloaded⟩

end Sys2Proof.Machine
end

section
/-! Loads, unloads and retracts: O38. -/

namespace Sys2Proof.Machine

/-! ## A load starts (R340, R345) -/

/-- The state in which RET_N goes high: the bank and the settings of the load are taken. -/
def loadTaken (g : Nat) (s : State) : State :=
  let b := nextBank (s.servo g).bank (s.rdC 0 R.SPIN_STAT_RPM)
  ((modServo g (fun v => { v with
    bank := b, wedges := s.rdC g R.SERVO_CFG_WEDGES, svrate := s.rdC g R.SERVO_CFG_SVRATE, good := 0, expect := none, wrapped := false
    intervals := [], integ := 0, sections := [] }) s).wrC g R.SERVO_STAT_BANK b).wrC g R.SERVO_STAT_MISSRUN 0

theorem startLoad_eq (g : Nat) (s : State) : startLoad g s = showFmt g (setSv g svLoading (actFrame g 2 0 (setRetN g true (loadTaken g s)))) := rfl

theorem out_loadTaken (g : Nat) (s : State) : (setRetN g true (loadTaken g s)).out = s.out := (rfl)

theorem startLoad_raises {g : Nat} {s : State} (hheld : g < s.curds.length) (hs : s.regsWf = true) :
    ((startLoad g s).curd g).retN = true ∧ (startLoad g s).svState g = svLoading ∧ ∃ f, (startLoad g s).out = .act g f :: s.out := by
  have htaken : g < (loadTaken g s).curds.length := Nat.lt_of_lt_of_eq hheld length_modAt.symm
  have hwf : (loadTaken g s).regsWf = true := State.regsWf_wrC (State.regsWf_wrC hs)
  rw [startLoad_eq, curd_showFmt, curd_setSv, retN_actFrame, svState_showFmt]
  refine ⟨retN_setRetN htaken, svState_setSv (regsWf_actFrame (regsWf_setRetN hwf)) (by decide), ?_⟩
  exact ⟨_, (out_showFmt ..).trans ((out_setSv ..).trans ((out_actFrame ..).trans (congrArg _ (out_loadTaken g s))))⟩

/-! ## RET_N falls (R352, R353) -/

/-- RET_N, and whether the group may load. -/
def CurdDie.hold (c : CurdDie) : Bool × Bool := (c.retN, c.servo.mayLoad)

section
variable {g st : Nat} {f : Servo → Servo} {t : State}

/-- RET_N is lowered and a servo state entered from which no load starts. -/
theorem hold_lowered (hg : g < t.curds.length) (hf : ∀ v, (f v).mayLoad = false) :
    ((setSv g st (modServo g f (setRetN g false t))).curd g).hold = (false, false) := by
  have hlow : g < (setRetN g false t).curds.length := (curds_length_setRetN ..).symm ▸ hg
  have hservo : (modServo g f (setRetN g false t)).servo g = f ((setRetN g false t).servo g) := servo_modServo_self hlow
  rw [curd_setSv]
  exact Prod.ext ((retN_modServo ..).trans (retN_setRetN hg)) ((congrArg Servo.mayLoad hservo).trans (hf _))

theorem svState_lowered (hs : t.regsWf = true) (hst : st < 16) : (setSv g st (modServo g f (setRetN g false t))).svState g = st :=
  svState_setSv (regsWf_setRetN hs) hst

end

/-! ## A load fails (R345, R354) -/

theorem hold_curdRaise (k j detail : Nat) (s : State) (g : Nat) : ((curdRaise k j detail s).curd g).hold = (s.curd g).hold := by
  have hend (t : State) (e : LinkEnd) (f : FvEnd → FvEnd) : ((t.modEnd e f).curd g).hold = (t.curd g).hold := by
    cases e with
    | curd n d => exact getD_modAt_field CurdDie.hold fun _ => rfl
    | rind d n => cases d <;> rfl
  have htold (cls eseq : Nat) (ws : List Word) : ((fromCurd k cls eseq ws s).curd g).hold = (s.curd g).hold :=
    fromCurd_field (π := fun t => (t.curd g).hold) hend (fun _ _ => rfl) (fun _ _ _ _ => rfl) ..
  unfold curdRaise
  extract_lets told
  split <;> exact htold ..

theorem hold_groupOffline (k : Nat) (s : State) (g : Nat) : ((groupOffline k s).curd g).hold = (s.curd g).hold := by
  unfold groupOffline
  split <;> rfl

theorem hold_servoFailure (k : Nat) (s : State) (g : Nat) : ((servoFailure k s).curd g).hold = (s.curd g).hold := by
  unfold servoFailure
  extract_lets counted
  have hcounted : (counted.curd g).hold = (s.curd g).hold := getD_modAt_field CurdDie.hold fun _ => rfl
  split
  · rw [hold_groupOffline, hold_curdRaise]
    split <;> exact hcounted
  · exact hcounted

theorem failLoad_holds {g : Nat} {s : State} (hheld : g < s.curds.length) :
    ((failLoad g s).curd g).retN = false ∧ ((failLoad g s).servo g).mayLoad = false := by
  have hleft : g < (actFrame g 3 0 ((leaveMedia g s).incC g R.SERVO_ECNT_LOADFAIL)).curds.length := by
    rw [curds_length_actFrame, State.curds_length_incC, curds_length_leaveMedia]
    exact hheld
  exact Prod.mk.inj ((hold_servoFailure ..).trans (hold_lowered hleft fun _ => rfl))

/-! ## Retracts and unloads (R351 to R354) -/

theorem emergencyRetract_holds {g : Nat} {s : State} (hheld : g < s.curds.length) (hs : s.regsWf = true) (hret : (s.curd g).retN = true) :
    ((emergencyRetract g s).curd g).retN = false ∧ (emergencyRetract g s).svState g = svRetract ∧ ((emergencyRetract g s).servo g).mayLoad = false := by
  have hleft : g < (leaveMedia g (s.incC g R.SERVO_ECNT_EMRET)).curds.length := by
    rw [curds_length_leaveMedia, State.curds_length_incC]
    exact hheld
  have hwf : (leaveMedia g (s.incC g R.SERVO_ECNT_EMRET)).regsWf = true := regsWf_leaveMedia (State.regsWf_wrC hs)
  rw [emergencyRetract, if_pos hret]
  obtain ⟨hlow, hload⟩ := Prod.mk.inj (hold_lowered (st := svRetract) (f := fun v => { v with mayLoad := false, reload := false }) hleft fun _ => rfl)
  exact ⟨hlow, svState_lowered hwf (by decide), hload⟩

theorem endUnload_holds {g : Nat} {s : State} (hheld : g < s.curds.length) (hs : s.regsWf = true) : ((endUnload g s).curd g).retN = false ∧
    (endUnload g s).svState g = (if 3 ≤ (s.servo g).fails then svOffline else svParked) ∧ ∃ f, (endUnload g s).out = .act g f :: s.out := by
  have hsent : g < (actFrame g 3 0 s).curds.length := (curds_length_actFrame ..).symm ▸ hheld
  have hfails : ((setRetN g false (actFrame g 3 0 s)).servo g).fails = (s.servo g).fails := by rw [servo_setRetN, fails_actFrame]
  have hcode : (if 3 ≤ (s.servo g).fails then svOffline else svParked) < 16 := by split <;> decide
  rw [endUnload, hfails]
  exact ⟨(Prod.mk.inj (hold_lowered hsent fun _ => rfl)).1, svState_lowered (regsWf_actFrame hs) hcode, _, rfl⟩

/-! ## The commands -/

section
variable {g : Nat} {s : State} (hg : s.hasCurd g = true)
include hg

theorem loadStable_ends (hheld : g < s.curds.length) (hloaded : s.svLoaded g = true) :
    ∃ t, exec (.loadStable g) s = .next t ∧ (t.servo g).fails = 0 ∧ t.regs = s.regs ∧ t.out = s.out ∧ t.cmds = s.cmds :=
  ⟨modServo g (fun v => { v with fails := 0 }) s, if_pos ⟨hg, hloaded⟩, congrArg Servo.fails (servo_modServo_self hheld), rfl, rfl, rfl⟩

theorem retractHoldExpire_allows (hheld : g < s.curds.length) (hret : (s.curd g).retN = false) :
    ∃ v, (v.servo g).mayLoad = true ∧ v.regs = s.regs ∧ v.out = s.out ∧
      exec (.retractHoldExpire g) s = .next (settle (if s.svState g = svRetract then showFmt g (setSv g svParked v) else v)) :=
  ⟨modServo g (fun v => { v with mayLoad := true }) s, congrArg Servo.mayLoad (servo_modServo_self hheld), rfl, rfl, if_pos ⟨hg, by simp [hret]⟩⟩

theorem exec_unload : exec (.unload g) s = .next (settle (startUnload g s)) := by
  show Host.Outcome.next (settle _) = _
  rw [if_pos hg]

end

/-- Settles O38: each command by its guard, and what it leaves of RET_N, the servo's state and the next load by the updates it ends with; a failure
that takes the group offline changes neither RET_N nor whether the group may load. -/
theorem servoLoadsAndRetracts : Obligations.ServoLoadsAndRetracts := by
  refine ⟨fun _ _ hg hload hwanted => if_pos ⟨hg, hload, hwanted⟩, fun _ _ => startLoad_raises, fun _ _ hg hloading => if_pos ⟨hg, hloading⟩,
    fun _ _ => failLoad_holds, fun _ _ hg => loadStable_ends hg, fun _ _ hg => retractHoldExpire_allows hg, fun _ _ => exec_unload,
    fun _ _ hg hunloading => if_pos ⟨hg, hunloading⟩, fun _ _ hg hf0 hf1 => if_pos ⟨hg, by simp [hf0], by simp [hf1]⟩,
    fun _ _ hg hret => if_pos ⟨hg, hret⟩, fun _ _ => emergencyRetract_holds, fun _ _ hheld hs _ => endUnload_holds hheld hs⟩

end Sys2Proof.Machine
end

section
/-! The spindle's keeper leaves rest, and its protection: O40 and O41. -/

namespace Sys2Proof.Machine

/-! ## What the keeper's reports leave

A state entered and a fault raised are told on C0's links. -/

theorem MediaFree.curdRaise {β : Type} {π : State → β} (hπ : MediaFree π) (htodo : ∀ (s : State) l, π { s with todo := l } = π s)
    (g j detail : Nat) (s : State) : π (curdRaise g j detail s) = π s := by
  unfold Machine.curdRaise
  extract_lets told
  have htold : π told = π s := hπ.fromCurd ..
  split
  · exact (htodo ..).trans htold
  · exact htold

theorem mediaFree_spin : MediaFree State.spin where
  wrC _ _ _ _ _ := rfl
  modEnd s e f := by cases e <;> simp [State.modEnd]
  modFmt _ _ _ := rfl
  emit _ _ := rfl

theorem spin_curdRaise (g j detail : Nat) (s : State) : (curdRaise g j detail s).spin = s.spin := mediaFree_spin.curdRaise (fun _ _ => rfl) ..

theorem spin_setSp (st : Nat) (s : State) : (setSp st s).spin = s.spin := by
  unfold setSp
  split
  · rfl
  · exact mediaFree_spin.fromCurd ..

theorem rdC_modSpin (f : Spin → Spin) (s : State) (g : Nat) (x : Fld) : (modSpin f s).rdC g x = s.rdC g x := rfl

/-! ## Estimates (R370) -/

/-- A signed number comes back from the field that holds it. -/
theorem sgn_unsgn {t : Int} (hlow : -32768 ≤ t) (hhigh : t < 32768) : sgn 16 (unsgn 16 t) = t := by
  unfold sgn unsgn
  split <;> omega

theorem unsgn_lt (t : Int) : unsgn 16 t < 2 ^ 16 := by
  unfold unsgn
  omega

/-- The stores after the temperature and its valid bit reach neither. -/
theorem rdC_storeEstimate {t : Int} {res src : Nat} {s : State} {f : Fld} (hs : s.regsWf = true) (hf : f.Ok) (hoff : f.off = R.SPIN_HDA_TEMP.off)
    (hlo : R.SPIN_HDA_SRC.hi < f.lo) :
    (storeEstimate t res src s).rdC 0 f = ((s.wrC 0 R.SPIN_HDA_TEMP (unsgn 16 t)).wrC 0 R.SPIN_HDA_VALID 1).rdC 0 f := by
  have hwf : ((s.wrC 0 R.SPIN_HDA_TEMP (unsgn 16 t)).wrC 0 R.SPIN_HDA_VALID 1).regsWf = true := State.regsWf_wrC (State.regsWf_wrC hs)
  have hres : R.SPIN_RES_RES.off ≠ f.off := by rw [hoff]; decide
  rw [storeEstimate, rdC_modSpin, State.rdC_wrC_apart (State.regsWf_wrC hwf) (by decide) hf (.inl hres),
    State.rdC_wrC_apart hwf (by decide) hf (.inr (.inl hlo))]

theorem temp_storeEstimate {t : Int} {res src : Nat} {s : State} (hs : s.regsWf = true) :
    (storeEstimate t res src s).rdC 0 R.SPIN_HDA_TEMP = unsgn 16 t :=
  calc (storeEstimate t res src s).rdC 0 R.SPIN_HDA_TEMP
    _ = ((s.wrC 0 R.SPIN_HDA_TEMP (unsgn 16 t)).wrC 0 R.SPIN_HDA_VALID 1).rdC 0 R.SPIN_HDA_TEMP := rdC_storeEstimate hs (by decide) rfl (by decide)
    _ = (s.wrC 0 R.SPIN_HDA_TEMP (unsgn 16 t)).rdC 0 R.SPIN_HDA_TEMP :=
      State.rdC_wrC_apart (State.regsWf_wrC hs) (by decide) (by decide) (.inr (.inl (by decide)))
    _ = unsgn 16 t % 2 ^ 16 := State.rdC_wrC_self hs (by decide)
    _ = unsgn 16 t := Nat.mod_eq_of_lt (unsgn_lt t)

theorem valid_storeEstimate {t : Int} {res src : Nat} {s : State} (hs : s.regsWf = true) : (storeEstimate t res src s).rdC 0 R.SPIN_HDA_VALID = 1 := by
  rw [rdC_storeEstimate (f := R.SPIN_HDA_VALID) hs (by decide) rfl (by decide), State.rdC_wrC_self (State.regsWf_wrC hs) (by decide)]
  rfl

theorem exec_hdaReestimate {rp : Nat} {c : HdaCal} {s : State} (hcal : s.boot.cal = some c) (hrun : s.spState = spRunning)
    (hsteady : s.spin.speedRef = 1000 * s.rdC 0 R.SPIN_TARGET_APPLIED) (hfw : s.bitC 0 R.SPIN_STAT_FW = false) :
    exec (.hdaReestimate rp) s = .next (storeEstimate (pairTemp c (2 * rp) ((c.resab + c.resbc + c.resca) / 3)) (2 * rp) 1 s) := by
  show execHdaReestimate rp s = _
  unfold execHdaReestimate
  simp [hcal, hrun, hsteady, hfw]

/-! ## Cooking (R372, R373) -/

/-- The cooking power in force is taken from its register. -/
def cookPwrTaken (s : State) : State := modSpin (fun p => { p with cookPwr := s.rdC 0 R.SPIN_COOK_COOKPWR }) s

/-- The current of cooking, which rests in a sag of the supply. -/
def State.cookDrive (s : State) (r : Nat) : Nat := if s.pins.sagPause then 0 else s.cookCurrent r

/-- Cooking begins on the first pair. -/
def cookingBegun (rab : Nat) (s : State) : State :=
  modSpin (fun p => { p with pair := 0, bridge := true, still := (cookPwrTaken s).cookDrive rab }) (cookPwrTaken s)

/-- Cooking goes on with the next pair. -/
def nextPair (r : Nat) (s : State) : State :=
  modSpin (fun p => { p with pair := (p.pair + 1) % 3, still := (cookPwrTaken s).cookDrive r }) (cookPwrTaken s)

/-- Cooking goes on with the pair it was on. -/
def samePair (rab rbc rca : Nat) (s : State) : State :=
  modSpin (fun p => { p with still := s.cookDrive ([rab, rbc, rca].getD p.pair rab) }) s

/-- A pair's current stays within the limit, and heats it with no more than the cooking power. -/
theorem cookCurrent_within {r : Nat} {s : State} (hr : 0 < r) :
    s.cookCurrent r ≤ s.rdC 0 R.SPIN_LIM_ILIM ∧ s.cookCurrent r * s.cookCurrent r * r ≤ s.spin.cookPwr * 100000000000 := by
  have hroot : s.cookCurrent r ≤ Nat.sqrt (s.spin.cookPwr * 100000000000 / r) := by
    rw [State.cookCurrent, if_neg hr.ne']
    exact min_le_right ..
  refine ⟨?_, ?_⟩
  · rw [State.cookCurrent, if_neg hr.ne']
    exact min_le_left ..
  · calc s.cookCurrent r * s.cookCurrent r * r
      _ ≤ Nat.sqrt (s.spin.cookPwr * 100000000000 / r) * Nat.sqrt (s.spin.cookPwr * 100000000000 / r) * r :=
        Nat.mul_le_mul_right r (Nat.mul_le_mul hroot hroot)
      _ ≤ s.spin.cookPwr * 100000000000 / r * r := Nat.mul_le_mul_right r (Nat.sqrt_le _)
      _ ≤ s.spin.cookPwr * 100000000000 := Nat.div_mul_le_self ..

section
variable {a b c : Nat} {s : State} (hfree : s.spinFree = true)
include hfree

theorem exec_resistanceMeasured (hst : s.spState = spMeasuring) : exec (.resistanceMeasured a b c) s =
    if (restMeasure a b c s).warmEnough ∨ ((restMeasure a b c s).spin.stored ∧ (restMeasure a b c s).rdC 0 R.SPIN_TARGET_SETPT = 0) then
      .next (settle (standstill (restMeasure a b c s)))
    else .next (settle (setSp spCooking (cookingBegun a (restMeasure a b c s)))) := by
  show execResistanceMeasured a b c s = _
  exact if_pos ⟨hst, hfree⟩

theorem exec_cookCheck (hst : s.spState = spCooking) : exec (.cookCheck a b c) s =
    if (restMeasure a b c s).warmEnough then .next (settle (standstill (restMeasure a b c s)))
    else .next (samePair a b c (restMeasure a b c s)) := by
  show execCookCheck a b c s = _
  exact if_pos ⟨hst, hfree⟩

theorem exec_cookPairChange (hst : s.spState = spCooking) : exec (.cookPairChange a) s = .next (nextPair a s) := by
  show execCookPairChange a s = _
  exact if_pos ⟨hst, hfree⟩

theorem exec_cookTimeout (hst : s.spState = spCooking) : exec .cookTimeout s =
    .next (settle (standstill (if s.bitC 0 R.SPIN_HDA_VALID = true then curdRaise 0 0x2A (s.rdC 0 R.SPIN_HDA_TEMP) s else s))) := by
  show execCookTimeout s = _
  exact if_pos ⟨hst, hfree⟩

end

theorem still_nextPair {r : Nat} {s : State} (hsag : s.pins.sagPause = false) : (nextPair r s).spin.still = (cookPwrTaken s).cookCurrent r :=
  if_neg (by simpa [cookPwrTaken, modSpin] using hsag)

/-! ## The float and the chopper's test (R374, R377, R385) -/

/-- The outputs float for a start decision. -/
def floatBegun (s : State) : State :=
  modSpin (fun p => { p with due := false, floats := 0, attempts := 0, bridge := false, brk := false, still := 0 }) s

theorem exec_startDecision {s : State} (hdue : s.spin.due = true) (hfree : s.spinFree = true) :
    exec .startDecision s = .next (settle (setSp spFloating (floatBegun s))) := by
  show execStartDecision s = _
  exact if_pos ⟨hdue, hfree⟩

/-- The chopper lowered VMOT far enough each time, and each time VMOT came back. -/
def State.chopPasses (s : State) (dips rets : List Nat) : Prop := (∀ x ∈ dips, s.boot.board.chopDip ≤ x) ∧ ∀ x ∈ rets, x ≤ s.boot.board.chopDip

section
variable {dips rets : List Nat} {s : State} (hdue : s.spin.due = true) (hfree : s.spinFree = true)
  (hvmot : s.rdC 0 R.SPIN_VTHR2_VMOTUV ≤ s.rdC 0 R.SPIN_VMOT_VMOT) (hdips : dips.length = 3) (hrets : rets.length = 3)
include hdue hfree hvmot hdips hrets

theorem exec_chopperTest_pass (h : s.chopPasses dips rets) :
    exec (.chopperTest dips rets) s = .next (settle (s.wrC 0 R.SPIN_STAT_CHOPOK 1)) := by
  obtain ⟨hdip, hret⟩ := h
  show execChopperTest dips rets s = _
  unfold execChopperTest
  extract_lets d pass stored
  have hpass : pass = true := by simpa [pass, d, hdips, hrets] using ⟨hdip, hret⟩
  rw [if_pos ⟨hdue, hfree, hvmot⟩, if_pos hpass]
  simp only [stored, hpass, bit, if_true]

theorem exec_chopperTest_fail (h : ¬ s.chopPasses dips rets) :
    exec (.chopperTest dips rets) s = .next (settle (curdRaise 0 0x2B 0 (s.wrC 0 R.SPIN_STAT_CHOPOK 0))) := by
  show execChopperTest dips rets s = _
  unfold execChopperTest
  extract_lets d pass stored
  have hpass : pass = false := by
    refine Bool.eq_false_iff.mpr fun hp => h ?_
    simpa [pass, d, hdips, hrets, State.chopPasses] using hp
  rw [if_pos ⟨hdue, hfree, hvmot⟩, if_neg (by simp [hpass])]
  simp only [stored, hpass, bit, Bool.false_eq_true, if_false]

end

section
variable {s : State} (hst : s.spState = spFloating) (hfree : s.spinFree = true)
include hst hfree

theorem exec_floatEnd : exec .floatEnd s = .next (settle (
    if s.aboveFloor s.spin.bemf = false then atRest s
    else if 300 ≤ s.rpm ∧ s.bitC 0 R.SPIN_STAT_DIR = false then
      if s.bitC 0 R.SPIN_STAT_LOCK = true then catchRotor s
      else if s.spin.floats < 4 then modSpin (fun p => { p with floats := p.floats + 1 }) s else coast s
    else coast s)) := by
  show execFloatEnd s = _
  unfold execFloatEnd
  rw [if_pos ⟨hst, hfree⟩]
  by_cases hfast : 300 ≤ s.rpm ∧ s.bitC 0 R.SPIN_STAT_DIR = false
  · simp [hfast]
  · have hslow : (decide (300 ≤ s.rpm) && ! s.bitC 0 R.SPIN_STAT_DIR) = false := by simpa using hfast
    simp [hfast, hslow]

theorem floatEnd_rests (hbemf : s.aboveFloor s.spin.bemf = false) : exec .floatEnd s = .next (settle (atRest s)) := by
  rw [exec_floatEnd hst hfree, if_pos hbemf]

variable (hbemf : s.aboveFloor s.spin.bemf = true)
include hbemf

theorem floatEnd_catches (hrpm : 300 ≤ s.rpm) (hdir : s.bitC 0 R.SPIN_STAT_DIR = false) (hlock : s.bitC 0 R.SPIN_STAT_LOCK = true) :
    exec .floatEnd s = .next (settle (catchRotor s)) := by
  rw [exec_floatEnd hst hfree, if_neg (by simp [hbemf]), if_pos ⟨hrpm, hdir⟩, if_pos hlock]

theorem floatEnd_repeats (hrpm : 300 ≤ s.rpm) (hdir : s.bitC 0 R.SPIN_STAT_DIR = false) (hlock : s.bitC 0 R.SPIN_STAT_LOCK = false) :
    exec .floatEnd s = .next (settle (if s.spin.floats < 4 then { s with spin := { s.spin with floats := s.spin.floats + 1 } } else coast s)) := by
  rw [exec_floatEnd hst hfree, if_neg (by simp [hbemf]), if_pos ⟨hrpm, hdir⟩, if_neg (by simp [hlock])]
  rfl

theorem floatEnd_coasts (hslow : s.rpm < 300 ∨ s.bitC 0 R.SPIN_STAT_DIR = true) : exec .floatEnd s = .next (settle (coast s)) := by
  rw [exec_floatEnd hst hfree, if_neg (by simp [hbemf]), if_neg]
  rintro ⟨hrpm, hdir⟩
  exact hslow.elim (fun h => absurd hrpm (Nat.not_le.mpr h)) (fun h => by simp [hdir] at h)

end

theorem exec_coastDone {s : State} (hst : s.spState = spCoasting) (hbelow : s.spin.belowSince.isSome = true) (hdue : s.spin.due = false)
    (hfree : s.spinFree = true) : exec .coastDone s = .next (settle (atRest s)) := by
  show execCoastDone s = _
  exact if_pos ⟨hst, hbelow, by simp [hdue], hfree⟩

/-! ## The axis and the hand-over (R375, R376) -/

/-- The minimum that a fold finds from the head on is an element, and the least. -/
theorem foldl_min_least (y : Nat) (l : List Nat) : (y :: l).foldl min y ∈ y :: l ∧ ∀ x ∈ y :: l, (y :: l).foldl min y ≤ x := by
  have hmin : (y :: y :: l).min? = some ((y :: l).foldl min y) := List.min?_cons'
  obtain ⟨hmem, hle⟩ := List.min?_eq_some_iff.mp hmin
  exact ⟨by simpa using hmem, fun x hx => hle x (List.mem_cons_of_mem y hx)⟩

theorem leastIndex_least (l : List Nat) (hl : l ≠ []) : leastIndex l < l.length ∧ ∀ x ∈ l, l.getD (leastIndex l) 0 ≤ x := by
  fun_induction leastIndex l with
  | case1 => exact absurd rfl hl
  | case2 y => simp
  | case3 x y l hx =>
    refine ⟨by simp, fun z hz => ?_⟩
    rcases List.mem_cons.mp hz with rfl | hz
    · exact le_rfl
    · exact hx.trans ((foldl_min_least y l).2 z hz)
  | case4 x y l hx ih =>
    obtain ⟨hlt, hle⟩ := ih (by simp)
    rw [Nat.add_comm, List.getD_cons_succ]
    refine ⟨Nat.succ_lt_succ hlt, fun z hz => ?_⟩
    rcases List.mem_cons.mp hz with rfl | hz
    · exact (hle _ (foldl_min_least y l).1).trans (Nat.le_of_not_le hx)
    · exact hle z hz

/-- The open-loop ramp begins on the axis of the shortest rise. -/
def rampBegun (rises : List Nat) (s : State) : State :=
  modSpin (fun p => { p with axis := some (leastIndex rises), openRpm := 0, leadRun := 0, bridge := true, still := s.boot.board.istart }) s

theorem exec_positionSensed {rises : List Nat} {s : State} (hst : s.spState = spSensing) (hfree : s.spinFree = true) (hsix : rises.length = 6) :
    exec (.positionSensed rises) s = .next (settle (setSp spOpenLoop (rampBegun rises s))) := by
  show execPositionSensed rises s = _
  exact if_pos ⟨hst, hfree, hsix⟩

/-- A start attempt has failed. -/
def attemptFailed (s : State) : State :=
  (modSpin (fun p => { p with attempts := s.spin.attempts + 1, bridge := false, still := 0 }) s).incC 0 R.SPIN_EVT_STARTFAIL

theorem exec_handoverTimeout {s : State} (hst : s.spState = spOpenLoop) (hramp : 240000 ≤ s.spin.openRpm) : exec .handoverTimeout s =
    .next (settle (if 2 ≤ s.spin.attempts then curdRaise 0 0x28 (s.spin.attempts + 1) (setSp spFailed (attemptFailed s)) else coast (attemptFailed s))) := by
  have hthird : 3 ≤ s.spin.attempts + 1 ↔ 2 ≤ s.spin.attempts := by omega
  show execHandoverTimeout s = _
  unfold execHandoverTimeout
  rw [if_pos ⟨hst, hramp⟩]
  simp only [hthird, attemptFailed]

/-- Settles O40: each command by its guard, with what it leaves of the keeper; the estimate read back field by field, the cooking current by the
square root that bounds it, and the axis by induction on the rises. -/
theorem spindleStarts : Obligations.SpindleStarts := by
  refine ⟨fun a b c n s hst hfree hn => ?measured, fun _ _ _ => exec_hdaReestimate,
    fun t r src s hs hlow hhigh => ⟨(temp_storeEstimate hs).symm ▸ sgn_unsgn hlow hhigh, valid_storeEstimate hs, rfl⟩,
    fun r u s hst hfree hu => ?pair, fun _ _ => cookCurrent_within, fun a b c n s hst hfree hn => ?check,
    fun s hst hfree => exec_cookTimeout hfree hst, fun s hdue hfree => ⟨floatBegun s, rfl, rfl, rfl, rfl, exec_startDecision hdue hfree⟩,
    fun dips rets s hdue hfree hvmot hdips hrets => ⟨fun hdip hret => exec_chopperTest_pass hdue hfree hvmot hdips hrets ⟨hdip, hret⟩, ?chopper⟩,
    fun s hst hfree => ⟨floatEnd_rests hst hfree, floatEnd_catches hst hfree, floatEnd_repeats hst hfree, floatEnd_coasts hst hfree⟩,
    fun _ => exec_coastDone, fun rises s hst hfree hsix => ?sensed,
    fun s hst hramp => ⟨attemptFailed s, rfl, rfl, rfl, exec_handoverTimeout hst hramp⟩⟩
  case measured =>
    subst hn
    rw [exec_resistanceMeasured hfree hst]
    refine ⟨fun hgo => if_pos hgo, fun hcold htarget => ⟨cookingBegun a (restMeasure a b c s), rfl, rfl, rfl, rfl, if_neg ?_⟩⟩
    rintro (hwarm | ⟨hstored, hzero⟩)
    · simp [hcold] at hwarm
    · exact htarget.elim (fun h => by simp [h] at hstored) (fun h => h hzero)
  case pair =>
    exact ⟨nextPair r s, exec_cookPairChange hfree hst, rfl, fun hsag => hu ▸ still_nextPair hsag, rfl, rfl⟩
  case check =>
    subst hn
    rw [exec_cookCheck hfree hst]
    exact ⟨fun hwarm => if_pos hwarm, fun hcold => ⟨samePair a b c (restMeasure a b c s), if_neg (by simp [hcold]), rfl, rfl, rfl⟩⟩
  case chopper =>
    rintro (⟨x, hx, hlow⟩ | ⟨x, hx, hhigh⟩)
    · exact exec_chopperTest_fail hdue hfree hvmot hdips hrets fun hpass => absurd (hpass.1 x hx) (Nat.not_le.mpr hlow)
    · exact exec_chopperTest_fail hdue hfree hvmot hdips hrets fun hpass => absurd (hpass.2 x hx) (Nat.not_le.mpr hhigh)
  case sensed =>
    obtain ⟨hlt, hle⟩ := leastIndex_least rises (List.ne_nil_of_length_pos (by omega))
    exact ⟨rampBegun rises s, leastIndex rises, rfl, hsix ▸ hlt, hle, rfl, rfl, rfl, exec_positionSensed hst hfree hsix⟩

/-! ## The bridge goes off (R383) -/

theorem spin_coast (s : State) :
    (coast s).spin = { s.spin with bridge := false, brk := false, idRef := 0, iqRef := 0, brakeEnd := false } := spin_setSp ..

theorem spin_loseBridge (s : State) :
    (loseBridge s).spin = { s.spin with bridge := false, brk := false, idRef := 0, iqRef := 0, brakeEnd := false, due := true } := spin_coast ..

/-- An overcurrent event is counted; the events of the last 10 ms stay noted, or none does. -/
def overcurrentNoted (events : List Nat) (s : State) : State := modSpin (fun p => { p with ovc := events }) (s.incC 0 R.SPIN_EVT_OVC)

/-- The events of the last 10 ms, before the one that comes now. -/
def State.recentOvc (s : State) : List Nat := s.spin.ovc.filter (fun t => s.now < t + 10000)

theorem exec_overcurrent {s : State} (hbridge : s.spin.bridge = true) : exec .overcurrent s =
    .next (settle (if 2 ≤ s.recentOvc.length then loseBridge (overcurrentNoted [] s) else overcurrentNoted (s.now :: s.recentOvc) s)) := by
  have hthird : 3 ≤ (s.now :: s.recentOvc).length ↔ 2 ≤ s.recentOvc.length := Nat.succ_le_succ_iff
  simp only [← hthird]
  show execOvercurrent s = _
  exact if_pos hbridge

theorem overcurrent_few {s : State} (hbridge : s.spin.bridge = true) (hfew : s.recentOvc.length < 2) :
    exec .overcurrent s = .next (settle (overcurrentNoted (s.now :: s.recentOvc) s)) := by
  rw [exec_overcurrent hbridge, if_neg (Nat.not_le.mpr hfew)]

theorem overcurrent_third {s : State} (hbridge : s.spin.bridge = true) (hthird : 2 ≤ s.recentOvc.length) :
    exec .overcurrent s = .next (settle (loseBridge (overcurrentNoted [] s))) := by
  rw [exec_overcurrent hbridge, if_pos hthird]

theorem exec_vmotUndervoltage (s : State) : exec .vmotUndervoltage s =
    .next (settle (if s.spin.bridge then loseBridge (s.wrC 0 R.SPIN_STAT_VMOTLOW 1) else s.wrC 0 R.SPIN_STAT_VMOTLOW 1)) := by
  show execVmotUndervoltage s = _
  rfl

theorem exec_vmotRecovered (s : State) : exec .vmotRecovered s = .next (settle (s.wrC 0 R.SPIN_STAT_VMOTLOW 0)) := by
  show execVmotRecovered s = _
  rfl

theorem exec_spinHeartbeatLoss {s : State} (hdriven : s.spin.bridge = true ∨ s.spin.brk = true) :
    exec .spinHeartbeatLoss s = .next (settle (loseBridge s)) := by
  show execSpinHeartbeatLoss s = _
  exact if_pos hdriven

/-! ## VMOT too high (R387, R388) -/

/-- The overvoltage latch is open. -/
def latchOpened (s : State) : State := modSpin (fun p => { p with latched := false }) s

theorem exec_overvoltageRelease {s : State} (hlatched : s.spin.latched = true) (hvmot : s.rdC 0 R.SPIN_VMOT_VMOT < s.rdC 0 R.SPIN_VTHR1_VBRK1) :
    exec .overvoltageRelease s = .next (settle (loseBridge (latchOpened s))) := by
  show execOvervoltageRelease s = _
  exact if_pos ⟨hlatched, hvmot⟩

theorem spin_latchOff (s : State) :
    (latchOff s).spin = { s.spin with bridge := false, brk := false, latched := true, idRef := 0, iqRef := 0 } :=
  (spin_setSp ..).trans (spin_curdRaise ..)

theorem spin_endBraking (s : State) : (endBraking s).spin = { s.spin with iqRef := 0, brakeEnd := true } := spin_curdRaise ..

theorem brkdis_endBraking {s : State} (hs : s.regsWf = true) : (endBraking s).rdC 0 R.SPIN_STAT_BRKDIS = 1 := by
  have hfree : MediaFree (fun t => t.rdC 0 R.SPIN_STAT_BRKDIS) := mediaFree_rdC (by decide)
  have hcounted (t : State) : (t.incC 0 R.SPIN_EVT_OVV1).rdC 0 R.SPIN_STAT_BRKDIS = t.rdC 0 R.SPIN_STAT_BRKDIS :=
    State.rd_wr_other (by decide) (by decide) (.inr (by decide))
  rw [endBraking, hfree.curdRaise (fun _ _ => rfl), rdC_modSpin, hcounted, State.rdC_wrC_self hs (by decide)]
  rfl

/-- Settles O41: each input by its guard; the bridge-off, the latch and the end of braking by the one change of the keeper that is left when a state
is entered and a fault told. -/
theorem spindleProtection : Obligations.SpindleProtection := by
  refine ⟨fun s hbridge hfew => ⟨overcurrentNoted (s.now :: s.recentOvc) s, overcurrent_few hbridge hfew, hbridge, List.mem_cons_self .., rfl, rfl⟩,
    fun s hbridge hthird => ⟨overcurrentNoted [] s, rfl, rfl, rfl, overcurrent_third hbridge hthird⟩,
    fun s => by simp [spin_loseBridge], fun s hbridge => by rw [exec_vmotUndervoltage, if_pos hbridge],
    fun s hoff => by rw [exec_vmotUndervoltage, if_neg (by simp [hoff])], exec_vmotRecovered, fun _ => exec_spinHeartbeatLoss,
    fun s hlatched hvmot => ⟨latchOpened s, rfl, rfl, exec_overvoltageRelease hlatched hvmot⟩, fun s => by simp [spin_latchOff],
    fun s hs => ⟨brkdis_endBraking hs, by simp [spin_endBraking]⟩⟩

end Sys2Proof.Machine
end

section
/-! The symbol code of buffer memory: O42. -/

namespace Sys2Proof.Machine

open Polynomial

/-! ## The field of the code (R396)

The numbers below 256 stand for the classes of the polynomials over GF(2) modulo x^8 + x^4 + x^3 + x^2 + 1: in that ring sums and products are those
of algebra. -/

/-- The polynomial of the code. -/
noncomputable def gfPoly : (ZMod 2)[X] := X ^ 8 + X ^ 4 + X ^ 3 + X ^ 2 + 1

/-- The ring of the symbols. -/
abbrev Gf : Type := AdjoinRoot gfPoly

/-- The class of x. -/
noncomputable def gfX : Gf := AdjoinRoot.root gfPoly

/-- The class that the low `n` bits of a number stand for. -/
noncomputable def gfBits (n a : Nat) : Gf := ∑ i ∈ Finset.range n, if a.testBit i then gfX ^ i else 0

/-- The class that a symbol, or twice a symbol, stands for. -/
noncomputable def gfOf (a : Nat) : Gf := gfBits 9 a

theorem gf_add_self (y : Gf) : y + y = 0 := ZModModule.add_self y

theorem gfOf_zero : gfOf 0 = 0 := by simp [gfOf, gfBits]

theorem gfOf_one : gfOf 1 = 1 := by
  simp [gfOf, gfBits, Finset.sum_range_succ', Nat.testBit_succ]

theorem gfOf_xor (a b : Nat) : gfOf (a ^^^ b) = gfOf a + gfOf b := by
  rw [gfOf, gfOf, gfOf, gfBits, gfBits, gfBits, ← Finset.sum_add_distrib]
  refine Finset.sum_congr rfl fun i _ => ?_
  rw [Nat.testBit_xor]
  cases a.testBit i <;> cases b.testBit i <;> simp [gf_add_self]

theorem gfBits_succ (n a : Nat) : gfBits (n + 1) a = gfX * gfBits n (a / 2) + if a % 2 = 1 then 1 else 0 := by
  simp [gfBits, Finset.sum_range_succ', Nat.testBit_succ, Finset.mul_sum, pow_succ', Nat.testBit_zero]

theorem gfBits_low {n a : Nat} (h : a < 2 ^ n) : gfBits (n + 1) a = gfBits n a := by
  simp [gfBits, Finset.sum_range_succ, Nat.testBit_lt_two_pow h]

theorem gfX_root : gfX ^ 8 + gfX ^ 4 + gfX ^ 3 + gfX ^ 2 + 1 = 0 :=
  calc gfX ^ 8 + gfX ^ 4 + gfX ^ 3 + gfX ^ 2 + 1 = AdjoinRoot.mk gfPoly (X ^ 8 + X ^ 4 + X ^ 3 + X ^ 2 + 1) := by simp [gfX]
    _ = 0 := AdjoinRoot.mk_self

theorem gfOf_poly : gfOf 0x11D = 0 := by
  have h := gfX_root
  rw [← h]
  simp [gfOf, gfBits, Finset.sum_range_succ, Nat.testBit_eq_decide_div_mod_eq]
  ring

theorem gfDouble_lt {a : Nat} (h : a < 256) : gfDouble a < 256 := by
  unfold gfDouble
  split
  next hbig =>
    refine Nat.lt_pow_two_of_testBit (n := 8) _ fun i hi => ?_
    obtain rfl | hi := hi.eq_or_lt
    · have : (2 * a).testBit 8 = true := by rw [Nat.testBit_eq_decide_div_mod_eq]; simp; omega
      rw [Nat.testBit_xor, this]
      rfl
    · have : 2 * a < 2 ^ i := lt_of_lt_of_le (by omega) (Nat.pow_le_pow_right (by decide) hi)
      have : 0x11D < 2 ^ i := lt_of_lt_of_le (by omega) (Nat.pow_le_pow_right (by decide) hi)
      simp [Nat.testBit_xor, Nat.testBit_lt_two_pow, *]
  next hsmall => omega

theorem gfOf_double {a : Nat} (h : a < 256) : gfOf (gfDouble a) = gfX * gfOf a := by
  have hdouble : gfOf (2 * a) = gfX * gfOf a := by
    rw [gfOf, gfBits_succ 8, Nat.mul_div_cancel_left a (by decide), gfOf, gfBits_low (n := 8) h]
    simp
  unfold gfDouble
  split
  · rw [gfOf_xor, gfOf_poly, hdouble, add_zero]
  · exact hdouble

theorem gfMulFrom_spec {a : Nat} (ha : a < 256) (n b : Nat) : gfMulFrom a b n < 256 ∧ gfOf (gfMulFrom a b n) = gfOf a * gfBits n b := by
  induction n generalizing b with
  | zero => exact ⟨by simp [gfMulFrom], by simp [gfMulFrom, gfOf_zero, gfBits]⟩
  | succ n ih =>
    obtain ⟨hlt, hval⟩ := ih (b / 2)
    refine ⟨Nat.xor_lt_two_pow (n := 8) (gfDouble_lt hlt) (by split <;> omega), ?_⟩
    rw [gfMulFrom, gfOf_xor, gfOf_double hlt, hval, gfBits_succ]
    split
    · ring
    · rw [gfOf_zero]; ring

theorem gfMul_lt {a : Nat} (ha : a < 256) (b : Nat) : gfMul a b < 256 := (gfMulFrom_spec ha 8 b).1

theorem gfOf_mul {a b : Nat} (ha : a < 256) (hb : b < 256) : gfOf (gfMul a b) = gfOf a * gfOf b := by
  rw [gfMul, (gfMulFrom_spec ha 8 b).2, gfOf, gfOf, gfBits_low (n := 8) hb]

theorem gfPow_spec {a : Nat} (ha : a < 256) (n : Nat) : gfPow a n < 256 ∧ gfOf (gfPow a n) = gfOf a ^ n := by
  induction n with
  | zero => exact ⟨by simp [gfPow], by simp [gfPow, gfOf_one]⟩
  | succ n ih => exact ⟨gfMul_lt ha _, by rw [gfPow, gfOf_mul ha ih.1, ih.2, pow_succ']⟩

theorem alpha_lt (i : Nat) : alpha i < 256 := (gfPow_spec (by decide) _).1

theorem gfOf_alpha {i : Nat} (hi : i < 255) : gfOf (alpha i) = gfX ^ i := by
  have htwo : gfOf 2 = gfX := by simp [gfOf, gfBits, Finset.sum_range_succ, Nat.testBit_eq_decide_div_mod_eq]
  rw [alpha, Nat.mod_eq_of_lt hi, (gfPow_spec (by decide) i).2, htwo]

/-- Symbols that stand for one class are one symbol: a polynomial of degree below 8 is 0 where that of the code divides it. -/
theorem gfOf_injective {a b : Nat} (ha : a < 256) (hb : b < 256) (h : gfOf a = gfOf b) : a = b := by
  have hxor : a ^^^ b < 2 ^ 8 := Nat.xor_lt_two_pow ha hb
  have hzero : gfOf (a ^^^ b) = 0 := by rw [gfOf_xor, h, gf_add_self]
  set p : (ZMod 2)[X] := ∑ i ∈ Finset.range 8, if (a ^^^ b).testBit i then X ^ i else 0 with hp
  have hclass : AdjoinRoot.mk gfPoly p = 0 := by
    rw [← hzero, gfOf, gfBits_low hxor, gfBits, hp, map_sum]
    exact Finset.sum_congr rfl fun i _ => by split <;> simp [gfX]
  have hdeg : gfPoly.degree = 8 := by unfold gfPoly; compute_degree!
  have hpzero : p = 0 := by
    refine eq_zero_of_dvd_of_degree_lt (AdjoinRoot.mk_eq_zero.mp hclass) ?_
    rw [hdeg]
    refine lt_of_le_of_lt (degree_sum_le _ _) ((Finset.sup_lt_iff (by decide)).mpr fun i hi => ?_)
    split
    · rw [degree_X_pow]; exact_mod_cast Finset.mem_range.mp hi
    · rw [degree_zero]; exact WithBot.bot_lt_coe 8
  refine Nat.eq_of_testBit_eq fun i => ?_
  have hbit : (a ^^^ b).testBit i = false := by
    by_cases hi : i < 8
    · have := congrArg (fun q => coeff q i) hpzero
      rw [hp] at this
      simp only [finsetSum_coeff, coeff_zero, apply_ite (fun q : (ZMod 2)[X] => q.coeff i), coeff_X_pow] at this
      simpa [Finset.sum_ite, hi, Finset.filter_and] using this
    · exact Nat.testBit_lt_two_pow (lt_of_lt_of_le hxor (Nat.pow_le_pow_right (by decide) (by omega)))
  simpa using hbit

/-! ## Sums of errors -/

/-- The share of errors, each a position and a value, in syndrome `j`. -/
noncomputable def errorSum (l : List (Nat × Nat)) (j : Nat) : Gf := (l.map (fun q => gfOf q.2 * gfX ^ (q.1 * j))).sum

theorem errorSum_append (l m : List (Nat × Nat)) (j : Nat) : errorSum (l ++ m) j = errorSum l j + errorSum m j := by simp [errorSum]

theorem gfOf_foldl_xor {α : Type} (g : α → Nat) (l : List α) (z : Nat) :
    gfOf (l.foldl (fun a q => a ^^^ g q) z) = gfOf z + (l.map (fun q => gfOf (g q))).sum := by
  induction l generalizing z with
  | nil => simp
  | cons q l ih => rw [List.foldl_cons, ih, gfOf_xor, List.map_cons, List.sum_cons, add_assoc]

theorem foldl_xor_lt {α : Type} {g : α → Nat} {l : List α} {z : Nat} (hz : z < 256) (hg : ∀ q ∈ l, g q < 256) :
    l.foldl (fun a q => a ^^^ g q) z < 256 :=
  List.foldlRecOn (motive := (· < 256)) l _ hz fun _ ha q hq => Nat.xor_lt_two_pow (n := 8) ha (hg q hq)

/-- The symbols of a codeword with their positions. -/
def placed (c : List Nat) : List (Nat × Nat) := c.zipIdx.map Prod.swap

theorem mem_placed {c : List Nat} {q : Nat × Nat} (h : q ∈ placed c) : q.2 ∈ c ∧ q.1 < c.length := by
  obtain ⟨⟨x, i⟩, hx, rfl⟩ := List.mem_map.mp h
  exact ⟨List.fst_mem_of_mem_zipIdx hx, by simpa using List.snd_lt_of_mem_zipIdx hx⟩

theorem syndrome_spec {c : List Nat} {j : Nat} (hlen : c.length ≤ 20) (hj : j < 4) (hc : ∀ x ∈ c, x < 256) :
    syndrome c j < 256 ∧ gfOf (syndrome c j) = errorSum (placed c) j := by
  have hat : ∀ p ∈ c.zipIdx, p.1 < 256 ∧ p.2 * j < 255 := fun p hp => by
    obtain ⟨hx, hi⟩ := mem_placed (List.mem_map_of_mem (f := Prod.swap) hp)
    have hi : p.2 < 20 := hi.trans_le hlen
    exact ⟨hc _ hx, by nlinarith⟩
  refine ⟨foldl_xor_lt (by decide) fun p hp => gfMul_lt (hat p hp).1 _, ?_⟩
  rw [syndrome, gfOf_foldl_xor, gfOf_zero, zero_add, errorSum, placed, List.map_map]
  exact congrArg List.sum (List.map_congr_left fun p hp => by
    rw [gfOf_mul (hat p hp).1 (alpha_lt _), gfOf_alpha (hat p hp).2]
    rfl)

/-! ## Errors solved for (R396)

For the first of the positions the syndromes lose its share when each has the one before it, times the position's power of x, added to it: what is left
is accounted for by the others alone. -/

/-- The powers of two positions differ by a number whose power 255, taken as the power 17 of the power 15, is 1. -/
def apart (p q : Nat) : Bool := decide (gfPow (gfPow (alpha q ^^^ alpha p) 15) 17 = 1)

theorem gf_mul_inv {p q : Nat} (h : apart p q = true) : gfOf (alpha q ^^^ alpha p) * gfOf (gfInv (alpha q ^^^ alpha p)) = 1 := by
  have hu : alpha q ^^^ alpha p < 256 := Nat.xor_lt_two_pow (n := 8) (alpha_lt q) (alpha_lt p)
  have hone := congrArg gfOf (of_decide_eq_true h)
  rw [(gfPow_spec (gfPow_spec hu 15).1 17).2, (gfPow_spec hu 15).2, ← pow_mul, gfOf_one] at hone
  rw [gfInv, (gfPow_spec hu 254).2, ← pow_succ', hone]

theorem apart_positions : (List.range 20).Pairwise (fun p q => apart p q = true) := by decide +kernel

theorem zip_map_zip {α β γ : Type} (h : α × β → γ) (l : List α) (m : List β) :
    l.zip ((l.zip m).map h) = (l.zip m).map (fun q => (q.1, h q)) := by
  induction l generalizing m with
  | nil => rfl
  | cons a l ih =>
    cases m with
    | nil => rfl
    | cons b m => exact congrArg _ (ih m)

theorem length_dropPos (p x : Nat) (s : List Nat) : (dropPos p (x :: s)).length = s.length := by simp [dropPos]

theorem getD_dropPos {p j : Nat} {s : List Nat} (hj : j + 1 < s.length) :
    (dropPos p s).getD j 0 = s.getD (j + 1) 0 ^^^ gfMul (alpha p) (s.getD j 0) := by
  have hj' : j < s.length := by omega
  rw [List.getD_eq_getElem _ _ (by simp [dropPos]; omega), List.getD_eq_getElem _ _ hj, List.getD_eq_getElem _ _ hj']
  simp [dropPos]

/-- The value of an error after the first position, from the value that accounts for the syndromes without the share of that position. -/
def rescale (p : Nat) (q : Nat × Nat) : Nat × Nat := (q.1, gfMul q.2 (gfInv (alpha q.1 ^^^ alpha p)))

/-- The errors given for the positions after the first. -/
def restErrs (p : Nat) (ps s : List Nat) : List (Nat × Nat) := (ps.zip (solveErrs ps (dropPos p s))).map (rescale p)

/-- The error value given for the first position. -/
def firstErr (p : Nat) (ps s : List Nat) : Nat := (restErrs p ps s).foldl (fun a q => a ^^^ q.2) (s.headD 0)

theorem solveErrs_cons (p : Nat) (ps s : List Nat) : solveErrs (p :: ps) s = firstErr p ps s :: (restErrs p ps s).map Prod.snd := by
  rw [firstErr, restErrs, List.foldl_map, List.map_map, solveErrs, List.foldl_map]
  rfl

theorem zip_solveErrs_cons (p : Nat) (ps s : List Nat) : (p :: ps).zip (solveErrs (p :: ps) s) = (p, firstErr p ps s) :: restErrs p ps s := by
  rw [solveErrs_cons, List.zip_cons_cons, restErrs, List.map_map]
  exact congrArg _ (zip_map_zip (fun q => (rescale p q).2) ps _)

theorem gfInv_lt {a : Nat} (ha : a < 256) : gfInv a < 256 := by
  rw [gfInv]
  exact (gfPow_spec ha 254).1

theorem gfOf_firstErr (p : Nat) (ps s : List Nat) : gfOf (firstErr p ps s) = gfOf (s.headD 0) + errorSum (restErrs p ps s) 0 := by
  rw [firstErr, gfOf_foldl_xor]
  simp [errorSum]

section
variable {p : Nat} {ps s : List Nat} (hg : ∀ x ∈ solveErrs ps (dropPos p s), x < 256)
include hg

theorem restErrs_lt {q : Nat × Nat} (hq : q ∈ restErrs p ps s) : q.2 < 256 := by
  obtain ⟨r, hr, rfl⟩ := List.mem_map.mp hq
  rw [rescale]
  exact gfMul_lt (hg _ (List.of_mem_zip hr).2) _

variable (hp : p < 20) (hps : ∀ q ∈ ps, q < 20 ∧ apart p q = true)
include hp hps

/-- Of the rest, too, the share of the first position falls out, and the unscaled errors are left. -/
theorem errorSum_restErrs (j : Nat) : errorSum (restErrs p ps s) (j + 1) + gfX ^ p * errorSum (restErrs p ps s) j =
    errorSum (ps.zip (solveErrs ps (dropPos p s))) j := by
  rw [errorSum, errorSum, ← List.sum_map_mul_left, ← List.sum_map_add, restErrs, List.map_map, errorSum]
  refine congrArg List.sum (List.map_congr_left fun q hq => ?_)
  obtain ⟨hpos, hval⟩ := List.of_mem_zip hq
  obtain ⟨hq20, hapart⟩ := hps _ hpos
  have hinv := gf_mul_inv hapart
  rw [gfOf_xor, gfOf_alpha (by omega), gfOf_alpha (by omega)] at hinv
  rw [Function.comp_apply, rescale, gfOf_mul (hg _ hval) (gfInv_lt (Nat.xor_lt_two_pow (n := 8) (alpha_lt _) (alpha_lt _)))]
  linear_combination (gfOf q.2 * gfX ^ (q.1 * j)) * hinv

end

theorem getD_lt {s : List Nat} (hs : ∀ x ∈ s, x < 256) (k : Nat) : s.getD k 0 < 256 := by
  by_cases hk : k < s.length
  · rw [List.getD_eq_getElem _ _ hk]
    exact hs _ (List.getElem_mem hk)
  · rw [List.getD_eq_default _ _ (by omega)]
    decide

theorem dropPos_lt {p : Nat} {s : List Nat} (hs : ∀ x ∈ s, x < 256) : ∀ y ∈ dropPos p s, y < 256 := by
  intro y hy
  obtain ⟨q, hq, rfl⟩ := List.mem_map.mp hy
  obtain ⟨-, hq2⟩ := List.of_mem_zip hq
  exact Nat.xor_lt_two_pow (n := 8) (hs _ (List.mem_of_mem_tail hq2)) (gfMul_lt (alpha_lt p) _)

/-- The errors given for as many positions as there are syndromes account for each of them: for the first by the first error, for each later one because
both sides lose the share of the first position alike. -/
theorem errorSum_solveErrs : ∀ {ps s : List Nat}, ps.Pairwise (fun p q => apart p q = true) → (∀ p ∈ ps, p < 20) → s.length = ps.length →
    (∀ x ∈ s, x < 256) → (∀ x ∈ solveErrs ps s, x < 256) ∧ ∀ j < s.length, errorSum (ps.zip (solveErrs ps s)) j = gfOf (s.getD j 0)
  | [], s, _, _, hlen, _ => ⟨by simp [solveErrs], fun j hj => absurd hj (by simp_all)⟩
  | p :: ps, s, hapart, hps, hlen, hs => by
    obtain ⟨hp, hapart⟩ := List.pairwise_cons.mp hapart
    have hpos : s.length = ps.length + 1 := hlen
    have hdrop : (dropPos p s).length = ps.length := by simp [dropPos, hpos]
    obtain ⟨hg, hsum⟩ := errorSum_solveErrs hapart (fun q hq => hps q (List.mem_cons_of_mem p hq)) hdrop (dropPos_lt (p := p) hs)
    have hp20 : p < 20 := hps p List.mem_cons_self
    have hstep := errorSum_restErrs hg hp20 fun q hq => ⟨hps q (List.mem_cons_of_mem p hq), hp q hq⟩
    have hhead : s.headD 0 = s.getD 0 0 := by cases s <;> rfl
    have hfirst : firstErr p ps s < 256 := foldl_xor_lt (hhead ▸ getD_lt hs 0) fun q hq => restErrs_lt hg hq
    have htwo := gf_add_self 1
    refine ⟨fun y hy => ?_, fun j hj => ?_⟩
    · rw [solveErrs_cons, List.mem_cons, List.mem_map] at hy
      obtain rfl | ⟨q, hq, rfl⟩ := hy
      · exact hfirst
      · exact restErrs_lt hg hq
    · have hcons (j : Nat) : errorSum ((p, firstErr p ps s) :: restErrs p ps s) j =
          gfOf (firstErr p ps s) * gfX ^ (p * j) + errorSum (restErrs p ps s) j := by simp [errorSum]
      rw [zip_solveErrs_cons, hcons]
      induction j with
      | zero =>
        rw [gfOf_firstErr, hhead, Nat.mul_zero, pow_zero, mul_one]
        linear_combination errorSum (restErrs p ps s) 0 * htwo
      | succ j ih =>
        have hdropped := hsum j (by omega)
        rw [getD_dropPos hj, gfOf_xor, gfOf_mul (alpha_lt p) (getD_lt hs j), gfOf_alpha (by omega), ← hstep j] at hdropped
        linear_combination gfX ^ p * ih (by omega) + hdropped + gfX ^ p * (gfOf (s.getD j 0) - errorSum (restErrs p ps s) j) * htwo

theorem length_solveErrs : ∀ (ps s : List Nat), (solveErrs ps s).length = ps.length
  | [], _ => rfl
  | p :: ps, s => by simp [solveErrs_cons, restErrs, length_solveErrs ps]

/-! ## Check symbols -/

theorem mem_syndromes_lt {c : List Nat} (hlen : c.length ≤ 20) (hc : ∀ x ∈ c, x < 256) : ∀ x ∈ syndromes c, x < 256 := by
  intro x hx
  obtain ⟨j, hj, rfl⟩ := List.mem_map.mp hx
  exact (syndrome_spec hlen (List.mem_range.mp hj) hc).1

/-- The symbols put after 16 data symbols add their own sum to that of the data. -/
theorem errorSum_placed_append {data es : List Nat} (hlen : data.length = 16) (hes : es.length = 4) (j : Nat) :
    errorSum (placed (data ++ es)) j = errorSum (placed data) j + errorSum ([16, 17, 18, 19].zip es) j := by
  obtain ⟨a, b, c, d, rfl⟩ := List.length_eq_four.mp hes
  rw [placed, List.zipIdx_append, List.map_append, errorSum_append, hlen]
  rfl

section
variable {data : List Nat} (hlen : data.length = 16) (hdata : ∀ x ∈ data, x < 256)
include hlen hdata

theorem syndromes_encodeCw : syndromes (encodeCw data) = [0, 0, 0, 0] := by
  have hzero : errorSum ([16, 17, 18, 19].zip [0, 0, 0, 0]) = 0 := by funext j; simp [errorSum, gfOf_zero]
  have hpadlen : (data ++ [0, 0, 0, 0]).length ≤ 20 := by simp [hlen]
  have hpad : ∀ x ∈ data ++ [0, 0, 0, 0], x < 256 := fun x hx => (List.mem_append.mp hx).elim (hdata x) (by simp +contextual)
  obtain ⟨hes, hsum⟩ := errorSum_solveErrs (ps := [16, 17, 18, 19]) (apart_positions.sublist (by decide)) (by decide)
    (s := syndromes (data ++ [0, 0, 0, 0])) rfl (mem_syndromes_lt hpadlen hpad)
  have hcwlen : (encodeCw data).length ≤ 20 := by simp [encodeCw, hlen, length_solveErrs]
  have hcw : ∀ x ∈ encodeCw data, x < 256 := fun x hx => (List.mem_append.mp hx).elim (hdata x) (hes x)
  have hnone : ∀ j < 4, syndrome (encodeCw data) j = 0 := fun j hj => by
    obtain ⟨hlt, hval⟩ := syndrome_spec hcwlen hj hcw
    obtain ⟨hltpad, hvalpad⟩ := syndrome_spec hpadlen hj hpad
    have hget : (syndromes (data ++ [0, 0, 0, 0])).getD j 0 = syndrome (data ++ [0, 0, 0, 0]) j := by simp [syndromes, hj]
    refine gfOf_injective hlt (by decide) ?_
    rw [hval, encodeCw, errorSum_placed_append hlen (length_solveErrs ..), hsum j (by simpa [syndromes] using hj), hget, hvalpad,
      errorSum_placed_append hlen rfl, hzero, Pi.zero_apply, add_zero, gf_add_self, gfOf_zero]
  exact List.map_congr_left (g := fun _ => 0) fun j hj => hnone j (List.mem_range.mp hj)


end

/-! ## A single error -/

theorem gf_exists_inv {i p : Nat} (hi : i < 20) (hp : p < 20) (hne : i ≠ p) : ∃ v, (gfX ^ i + gfX ^ p) * v = 1 := by
  have hinv {a b : Nat} (hb : b < 20) (hlt : a < b) : ∃ v, (gfX ^ b + gfX ^ a) * v = 1 := by
    have hapart := List.pairwise_iff_getElem.mp apart_positions a b (List.length_range.symm ▸ hlt.trans hb) (List.length_range.symm ▸ hb) hlt
    rw [List.getElem_range, List.getElem_range] at hapart
    have h := gf_mul_inv hapart
    rw [gfOf_xor, gfOf_alpha (by omega), gfOf_alpha (by omega)] at h
    exact ⟨_, h⟩
  obtain hlt | hlt := Nat.lt_or_gt_of_ne hne
  · rw [add_comm]
    exact hinv hp hlt
  · exact hinv hi hlt

/-- The syndromes of one error. -/
def oneError (p e : Nat) : List Nat := (List.range 4).map (fun j => gfMul e (alpha (p * j)))

section
variable {p e : Nat} (hp : p < 20) (hpos : 0 < e) (he : e < 256)
include he

theorem gfMul_alpha_zero : gfMul e (alpha 0) = e :=
  gfOf_injective (gfMul_lt he _) he (by rw [gfOf_mul he (alpha_lt 0), gfOf_alpha (by decide), pow_zero, mul_one])

theorem oneError_eq : oneError p e = e :: (oneError p e).tail := by
  have hhead : oneError p e = gfMul e (alpha 0) :: (oneError p e).tail := by simp [oneError, List.range_succ_eq_map]
  rwa [gfMul_alpha_zero he] at hhead

theorem solveErrs_oneError (i : Nat) : solveErrs [i] (oneError p e) = [e] := by
  rw [oneError_eq he]
  simp [solveErrs]

include hp hpos

/-- An error elsewhere has another second syndrome: the powers of two positions differ by a unit. -/
theorem explains_oneError {i : Nat} (hi : i < 20) : explains [i] (solveErrs [i] (oneError p e)) (oneError p e) = true ↔ i = p := by
  rw [solveErrs_oneError he, explains, decide_eq_true_iff, oneError, List.map_inj_left]
  refine ⟨fun h => ?_, fun h j _ => by simp [h]⟩
  have hsecond : gfMul e (alpha i) = gfMul e (alpha p) := by simpa using h 1 (by decide)
  by_contra hne
  obtain ⟨v, hv⟩ := gf_exists_inv hi hp hne
  have hzero : gfOf e * (gfX ^ i + gfX ^ p) = 0 := by
    rw [mul_add, ← gfOf_alpha (i := i) (by omega), ← gfOf_alpha (i := p) (by omega), ← gfOf_mul he (alpha_lt i), ← gfOf_mul he (alpha_lt p), hsecond,
      gf_add_self]
  have : gfOf e = gfOf 0 := by
    rw [gfOf_zero]
    linear_combination v * hzero - gfOf e * hv
  exact hpos.ne' (gfOf_injective he (by decide) this)

theorem decodeErrs_oneError : decodeErrs [] (oneError p e) = some [(p, e)] := by
  have hne : oneError p e ≠ [0, 0, 0, 0] := fun h => hpos.ne' (List.head_eq_of_cons_eq (h.symm.trans (oneError_eq he))).symm
  have hsingles : ((List.range 20).map (fun i => [i])).find? (fun ps => explains ps (solveErrs ps (oneError p e)) (oneError p e)) = some [p] := by
    have hfind : (List.range 20).find? (fun i => explains [i] (solveErrs [i] (oneError p e)) (oneError p e)) = some p := by
      rw [List.find?_range_eq_some]
      refine ⟨(explains_oneError hp hpos he hp).mpr rfl, List.mem_range.mpr hp, fun i hi => ?_⟩
      have := mt (explains_oneError hp hpos he (hi.trans hp)).mp hi.ne
      simpa using this
    rw [List.find?_map]
    exact congrArg (Option.map fun i => [i]) hfind
  have hnone : explains [] (solveErrs [] (oneError p e)) (oneError p e) = false := decide_eq_false fun h => hne h.symm
  rw [decodeErrs, if_neg hne, errorSets, List.find?_cons_of_neg (by rw [hnone]; decide), List.find?_append, hsingles, Option.some_or, Option.map_some,
    solveErrs_oneError he]
  simp [hpos.ne']

end

/-- Settles O42: the check symbols add to the sum of the data what cancels it; one error is explained at its own position alone. -/
theorem symbolCode : Obligations.SymbolCode :=
  ⟨fun _ hlen hdata => ⟨syndromes_encodeCw hlen hdata, by simp [encodeCw, hlen, length_solveErrs], List.take_left' hlen⟩,
    fun _ _ hp hpos he => decodeErrs_oneError hp hpos he, by decide⟩

end Sys2Proof.Machine
end

section
/-! A step and the queue: O56. -/

namespace Sys2Proof.Machine

/-- Settles O56: `step` by what the queue holds, the end of a meaning by what is left to do, completion by `exec_completes`. -/
theorem stepTakesTheFront : Obligations.StepTakesTheFront := by
  refine ⟨fun c rest s => rfl, fun s hempty => ?_, fun s => settle_quiet, settle_todo, fun c s => ?_⟩
  · simp only [step, hempty, idle]
  · obtain ⟨-, t, ht, -⟩ := exec_completes c s
    exact ⟨t, ht⟩

end Sys2Proof.Machine
end

section
/-! The arithmetic of the engines' words: O50. -/

namespace Sys2Proof.Machine

/-! ## The results of the ALU (R467, R468) -/

theorem bmod_ne_iff {x : Int} (hlow : -(2 ^ 64) ≤ x) (hhigh : x < 2 ^ 64) : x.bmod (2 ^ 64) ≠ x ↔ x < -(2 ^ 63) ∨ 2 ^ 63 ≤ x := by
  rw [Int.bmod_def]
  norm_num at *
  split <;> omega

theorem overflow_add_iff (a b : BitVec 64) : (a + b).toInt ≠ a.toInt + b.toInt ↔ a.toInt + b.toInt < -(2 ^ 63) ∨ 2 ^ 63 ≤ a.toInt + b.toInt := by
  have ha := a.toInt_lt; have ha' := a.le_toInt; have hb := b.toInt_lt; have hb' := b.le_toInt
  rw [BitVec.toInt_add]
  exact bmod_ne_iff (by omega) (by omega)

theorem overflow_sub_iff (a b : BitVec 64) : (a - b).toInt ≠ a.toInt - b.toInt ↔ a.toInt - b.toInt < -(2 ^ 63) ∨ 2 ^ 63 ≤ a.toInt - b.toInt := by
  have ha := a.toInt_lt; have ha' := a.le_toInt; have hb := b.toInt_lt; have hb' := b.le_toInt
  rw [BitVec.toInt_sub]
  exact bmod_ne_iff (by omega) (by omega)

theorem alu_add (sh : Nat) (a b old : BitVec 64) : alu 0x03 sh a b old =
    ⟨(a + b) <<< sh, decide (2 ^ 64 ≤ a.toNat + b.toNat), decide ((a + b).toInt ≠ a.toInt + b.toInt)⟩ := rfl

theorem alu_sub (sh : Nat) (a b old : BitVec 64) : alu 0x04 sh a b old =
    ⟨(a - b) <<< sh, openFlag 1 0x04 a b, decide ((a - b).toInt ≠ a.toInt - b.toInt)⟩ := rfl

theorem alu_min (a b old : BitVec 64) : (alu 0x0B 0 a b old).value = if a.toNat ≤ b.toNat then a else b := BitVec.shiftLeft_zero _

theorem alu_max (a b old : BitVec 64) : (alu 0x0C 0 a b old).value = if a.toNat ≤ b.toNat then b else a := BitVec.shiftLeft_zero _

theorem alu_ext (sh : Nat) (a b old : BitVec 64) : (alu 0x0E sh a b old).value = BitVec.ofNat 64 (a.toNat / 2 ^ sh % 2 ^ (b.toNat % 64)) := rfl

theorem alu_ins (sh : Nat) (a b old : BitVec 64) : (alu 0x0F sh a b old).value =
    old - BitVec.ofNat 64 (old.toNat / 2 ^ sh % 2 ^ (b.toNat % 64) * 2 ^ sh) + BitVec.ofNat 64 (a.toNat % 2 ^ (b.toNat % 64) * 2 ^ sh) := rfl

theorem alu_clz (a b old : BitVec 64) : (alu 0x10 0 a b old).value = BitVec.ofNat 64 (clzFrom a 64) := BitVec.shiftLeft_zero _

/-- A number with the field of `k` bits at `sh` replaced: bit by bit, the field's bits come from the new value, the others stay. -/
theorem testBit_replace_field (o a sh k i : Nat) :
    (o - o / 2 ^ sh % 2 ^ k * 2 ^ sh + a % 2 ^ k * 2 ^ sh).testBit i = if sh ≤ i ∧ i < sh + k then a.testBit (i - sh) else o.testBit i := by
  have hlow : o % 2 ^ sh < 2 ^ sh := Nat.mod_lt _ (Nat.two_pow_pos sh)
  have hmid (x : Nat) : x % 2 ^ k < 2 ^ k := Nat.mod_lt _ (Nat.two_pow_pos k)
  have ho : o = 2 ^ sh * (2 ^ k * (o / 2 ^ sh / 2 ^ k) + o / 2 ^ sh % 2 ^ k) + o % 2 ^ sh := by
    rw [Nat.div_add_mod, Nat.div_add_mod]
  have hnew : o - o / 2 ^ sh % 2 ^ k * 2 ^ sh + a % 2 ^ k * 2 ^ sh = 2 ^ sh * (2 ^ k * (o / 2 ^ sh / 2 ^ k) + a % 2 ^ k) + o % 2 ^ sh := by
    rw [Nat.mul_add, Nat.mul_comm _ (_ % _)] at ho ⊢
    generalize 2 ^ sh * (2 ^ k * (o / 2 ^ sh / 2 ^ k)) = high at *
    omega
  rw [hnew, Nat.testBit_two_pow_mul_add _ hlow, Nat.testBit_two_pow_mul_add _ (hmid a)]
  conv_rhs => rw [ho, Nat.testBit_two_pow_mul_add _ hlow, Nat.testBit_two_pow_mul_add _ (hmid _)]
  by_cases hi : i < sh
  · simp [hi, Nat.not_le.mpr hi]
  · by_cases hk : i - sh < k
    · simp [hi, hk, show sh ≤ i ∧ i < sh + k by omega, Nat.testBit_mod_two_pow]
    · simp [hi, hk, show ¬ (sh ≤ i ∧ i < sh + k) by omega]

theorem clzFrom_le (v : BitVec 64) (n : Nat) : clzFrom v n ≤ n := by
  induction n with
  | zero => exact Nat.le_refl 0
  | succ n ih => rw [clzFrom]; split <;> omega

theorem clzFrom_counts {v : BitVec 64} {n : Nat} (h : clzFrom v n < n) : v.getLsbD (n - 1 - clzFrom v n) = true ∧
    ∀ i, n - 1 - clzFrom v n < i → i < n → v.getLsbD i = false := by
  induction n with
  | zero => exact absurd h (by omega)
  | succ n ih =>
    rw [clzFrom] at h ⊢
    split
    next hset => exact ⟨by simpa using hset, fun i hi hn => by omega⟩
    next hclear =>
      rw [if_neg hclear] at h
      obtain ⟨hbit, habove⟩ := ih (by omega)
      have hsame : n + 1 - 1 - (1 + clzFrom v n) = n - 1 - clzFrom v n := by omega
      rw [hsame]
      refine ⟨hbit, fun i hi hn => ?_⟩
      obtain rfl | hlt := (Nat.lt_succ_iff.mp hn).eq_or_lt
      · simpa using hclear
      · exact habove i hi hlt

/-! ## An engine's registers (R463) -/

theorem Engine.reg_setReg_self {g : Engine} {i : Nat} (v : BitVec 64) (hi : i ≠ 0) : (g.setReg i v).reg i = v := by
  rw [Engine.setReg, if_neg hi, Engine.reg, if_neg hi]
  exact assocGet_assocPut_self ..

theorem Engine.reg_setReg_other {g : Engine} {i j : Nat} (v : BitVec 64) (hj : j ≠ i) : (g.setReg i v).reg j = g.reg j := by
  rw [Engine.setReg]
  split
  · rfl
  · rw [Engine.reg, Engine.reg]
    exact if_congr Iff.rfl rfl (assocGet_assocPut_other _ _ _ hj)

/-- Settles O50: sums by their exact value, fields bit by bit, leading zeros by the scan that counts them. -/
theorem engineArithmetic : Obligations.EngineArithmetic := by
  refine ⟨fun sh a b old => ?_, fun sh a b old => ?_, fun sh a b old => ⟨rfl, rfl, rfl, rfl, rfl⟩, fun a b old => ?_, fun a b old => ?_,
    fun sh a b old i hi => ?_, fun sh a b old i hi hfit => ?_, fun a b old => ?_, fun g i j v => ?_⟩
  · rw [alu_add]
    exact ⟨rfl, decide_eq_true_iff, decide_eq_true_iff.trans (overflow_add_iff a b)⟩
  · rw [alu_sub]
    exact ⟨rfl, decide_eq_true_iff.trans (overflow_sub_iff a b)⟩
  · exact ⟨BitVec.shiftLeft_zero _, BitVec.shiftLeft_zero _, BitVec.shiftLeft_zero _⟩
  · rw [alu_min, alu_max]
    constructor <;> split <;> omega
  · rw [alu_ext, BitVec.getLsbD_ofNat, Nat.testBit_mod_two_pow, Nat.testBit_div_two_pow, decide_eq_true hi, Bool.true_and]
    rfl
  · have hvalue : (alu 0x0F sh a b old).value.toNat =
        (old.toNat - old.toNat / 2 ^ sh % 2 ^ (b.toNat % 64) * 2 ^ sh + a.toNat % 2 ^ (b.toNat % 64) * 2 ^ sh) % 2 ^ 64 := by
      have hfield : old.toNat / 2 ^ sh % 2 ^ (b.toNat % 64) * 2 ^ sh ≤ old.toNat :=
        (Nat.mul_le_mul_right _ (Nat.mod_le _ _)).trans (Nat.div_mul_le_self _ _)
      have hold := old.isLt
      rw [alu_ins, BitVec.toNat_add, BitVec.toNat_sub, BitVec.toNat_ofNat, BitVec.toNat_ofNat]
      generalize old.toNat / 2 ^ sh % 2 ^ (b.toNat % 64) * 2 ^ sh = m at *
      omega
    rw [BitVec.getLsbD, hvalue, Nat.testBit_mod_two_pow, decide_eq_true hi, Bool.true_and, testBit_replace_field]
    rfl
  · have hle := clzFrom_le a 64
    have hvalue : (alu 0x10 0 a b old).value.toNat = clzFrom a 64 := by
      rw [alu_clz, BitVec.toNat_ofNat]
      omega
    rw [hvalue]
    refine ⟨hle, fun n hn hlt => ?_⟩
    obtain ⟨hbit, habove⟩ := clzFrom_counts (v := a) (n := 64) (by omega)
    rw [hn] at hbit habove
    refine ⟨hbit, fun i hi => ?_⟩
    by_cases hin : i < 64
    · exact habove i hi hin
    · exact BitVec.getLsbD_of_ge a i (by omega)
  · exact ⟨rfl, rfl, Engine.reg_setReg_self v, Engine.reg_setReg_other v⟩

end Sys2Proof.Machine
end

section
/-! What an event leaves of the dies: all but the island of each, the registers, ALIVE and the actions due (R542 to R549). -/

namespace Sys2Proof.Machine

/-- A part of the state that no event reaches: it may look at the Rind dies, but at no island. -/
structure IslandFree {β : Type} (π : State → β) : Prop where
  wr : ∀ s die f v, π (State.wr s die f v) = π s
  modRind : ∀ s d h, (∀ r, ∃ i, h r = { r with island := i }) → π (State.modRind s d h) = π s
  stopAlive : ∀ s, π (stopAlive s) = π s
  todo : ∀ (s : State) l, π { s with todo := l } = π s

theorem islandFree_rind {β : Type} {π : RindDie → β} (h : ∀ (r : RindDie) i, π { r with island := i } = π r) (d : RSlot) :
    IslandFree (fun s => π (s.rind d)) where
  wr s die f v := congrArg π (State.rind_wr ..)
  modRind s e f hf := by
    by_cases hde : d = e
    · subst hde
      obtain ⟨i, hi⟩ := hf (s.rind d)
      exact (congrArg π ((State.rind_modRind ..).trans hi)).trans (h ..)
    · exact congrArg π (State.rind_modRind_other hde)
  stopAlive s := by cases d <;> rfl
  todo s l := by cases d <;> rfl

theorem EventFree.islandFree {β : Type} {π : State → β} (hπ : EventFree π) : IslandFree π :=
  ⟨hπ.wr, fun s d h _ => hπ.modRind s d h, hπ.stopAlive, hπ.todo⟩

section
variable {β : Type} {π : State → β} (hπ : IslandFree π)
include hπ

theorem IslandFree.wrR (s : State) (d : RSlot) (f : Fld) (v : Nat) : π (s.wrR d f v) = π s := hπ.wr ..

theorem IslandFree.incR (s : State) (d : RSlot) (f : Fld) (n : Nat) : π (s.incR d f n) = π s := hπ.wr ..

theorem IslandFree.bump (s : State) (die : Nat) (f : Fld) (n : Nat) : π (s.bump die f n) = π s := hπ.wr ..

theorem IslandFree.stageRec (d : RSlot) (r : LogRec) (s : State) : π (stageRec d r s) = π s := by
  fun_cases Machine.stageRec <;> simp +zetaDelta [hπ.wrR, hπ.bump, hπ.modRind]

theorem IslandFree.enterFault (die src sev : Nat) (s : State) : π (enterFault die src sev s) = π s := by
  rw [Machine.enterFault, hπ.stopAlive]
  exact foldl_field π fun t d => by
    rw [hπ.modRind _ _ _ fun r => ⟨_, rfl⟩, hπ.wrR, hπ.wrR, hπ.wrR, hπ.wrR]
    split
    · exact hπ.wrR ..
    · rfl

theorem IslandFree.fatalAction (d : RSlot) (src : Nat) (s : State) : π (fatalAction d src s) = π s := by
  unfold Machine.fatalAction
  split
  · rfl
  · split
    · exact hπ.todo ..
    · split
      · exact hπ.todo ..
      · rfl

theorem IslandFree.raiseFull (d : RSlot) (die src : Nat) (detail : List Nat) (fix : Option Nat) (s : State) : π (raiseFull d die src detail fix s) = π s := by
  simp [Machine.raiseFull, apply_ite π, hπ.fatalAction, hπ.enterFault, hπ.stageRec, hπ.wrR, hπ.modRind, hπ.incR]

theorem IslandFree.raise (d : RSlot) (src : Nat) (detail : List Nat) (s : State) : π (raise d src detail s) = π s := hπ.raiseFull ..

end

end Sys2Proof.Machine
end

section
/-! The Vat: handles and requests: O44 and O45. -/

namespace Sys2Proof.Machine

/-! ## Handles (R418) -/

theorem handle_fields {h p gen i : Nat} (hh : h = p * 2 ^ 30 + gen * 2 ^ 22 + i) (hp : p < 4) (hgen : gen < 256) (hi : i < 2 ^ 22) :
    h < 2 ^ 32 ∧ h / 2 ^ 30 % 4 = p ∧ h / 2 ^ 22 % 256 = gen ∧ h % 2 ^ 22 = i := by omega

theorem handleParts_vatHandle {p gen i : Nat} (hp : p < 4) (hgen : gen < 256) (hi : i < 2 ^ 22) :
    vatHandle p gen i < 2 ^ 32 ∧ handleParts (vatHandle p gen i) = (p, gen, i) := by
  obtain ⟨hlt, hpool, hgeneration, hindex⟩ := handle_fields (rfl : vatHandle p gen i = _) hp hgen hi
  refine ⟨hlt, ?_⟩
  rw [handleParts, hpool, hgeneration, hindex]

theorem extractLsb'_vatHandle {p gen i : Nat} (hp : p < 4) (hgen : gen < 256) (hi : i < 2 ^ 22) :
    (BitVec.ofNat 32 (vatHandle p gen i)).extractLsb' 30 2 = BitVec.ofNat 2 p ∧
    (BitVec.ofNat 32 (vatHandle p gen i)).extractLsb' 22 8 = BitVec.ofNat 8 gen ∧
    (BitVec.ofNat 32 (vatHandle p gen i)).extractLsb' 0 22 = BitVec.ofNat 22 i := by
  obtain ⟨hlt, hpool, hgeneration, hindex⟩ := handle_fields (rfl : vatHandle p gen i = _) hp hgen hi
  have hnat : (BitVec.ofNat 32 (vatHandle p gen i)).toNat = vatHandle p gen i := by rw [BitVec.toNat_ofNat, Nat.mod_eq_of_lt hlt]
  refine ⟨BitVec.eq_of_toNat_eq ?_, BitVec.eq_of_toNat_eq ?_, BitVec.eq_of_toNat_eq ?_⟩ <;>
    rw [BitVec.extractLsb'_toNat, hnat, BitVec.toNat_ofNat, Nat.shiftRight_eq_div_pow]
  · rw [hpool, Nat.mod_eq_of_lt hp]
  · rw [hgeneration, Nat.mod_eq_of_lt hgen]
  · rw [pow_zero, Nat.div_one, hindex, Nat.mod_eq_of_lt hi]

/-! ## Buffers -/

theorem Vat.buf_cons_self (v : Vat) (b : VatBuf) (l : List VatBuf) : ({ v with bufs := b :: l } : Vat).buf b.pool b.index = b := by
  simp [Vat.buf]

theorem rind_putBuf (d : RSlot) (b : VatBuf) (s : State) : ((putBuf d b s).rind d).vat =
    { (s.rind d).vat with bufs := b :: (s.rind d).vat.bufs.filter (fun x => ! decide (x.pool = b.pool ∧ x.index = b.index)) } := by
  rw [putBuf, modVat, State.rind_modRind]

theorem buf_putBuf_self (d : RSlot) (b : VatBuf) (s : State) : ((putBuf d b s).rind d).vat.buf b.pool b.index = b := by
  rw [rind_putBuf]
  exact Vat.buf_cons_self ..

theorem buf_putBuf_other {d : RSlot} {b : VatBuf} {s : State} {q j : Nat} (h : q ≠ b.pool ∨ j ≠ b.index) :
    ((putBuf d b s).rind d).vat.buf q j = (s.rind d).vat.buf q j := by
  have hne : ¬ (b.pool = q ∧ b.index = j) := by omega
  rw [rind_putBuf, Vat.buf, Vat.buf, List.find?_cons_of_neg (by simpa using hne), List.find?_filter]
  congr 2
  funext x
  by_cases hx : x.pool = q ∧ x.index = j
  · simp [hx]
    omega
  · simp [hx]

theorem waits_putBuf (d : RSlot) (b : VatBuf) (s : State) : ((putBuf d b s).rind d).vat.waits = (s.rind d).vat.waits := by rw [rind_putBuf]

theorem buf_grantBuf (d : RSlot) (p i owner : Nat) (s : State) : (((grantBuf d p i owner s).2.rind d).vat.buf p i) =
    ⟨p, i, (((s.rind d).vat.buf p i).gen + 1) % 256, some (1, owner)⟩ := buf_putBuf_self ..

theorem buf_grantBuf_other {d : RSlot} {p i owner q j : Nat} {s : State} (h : q ≠ p ∨ j ≠ i) :
    ((grantBuf d p i owner s).2.rind d).vat.buf q j = (s.rind d).vat.buf q j := buf_putBuf_other h

theorem vat_showPools (d e : RSlot) (s : State) : ((showPools d s).rind e).vat = (s.rind e).vat :=
  foldl_field (fun t : State => (t.rind e).vat) fun t p => by rw [State.rind_wrR, State.rind_wrR]

theorem vat_modVat (d : RSlot) (f : Vat → Vat) (s : State) : ((modVat d f s).rind d).vat = f (s.rind d).vat := by rw [modVat, State.rind_modRind]

/-! ## Refusals (R426) -/

theorem vat_refuse (d : RSlot) (op owner handle status term : Nat) (s : State) : (refuse d op owner handle status term s).1.status = status ∧
    ((refuse d op owner handle status term s).2.rind d).vat = { (s.rind d).vat with refused := modAt term (· + 1) (s.rind d).vat.refused } := by
  refine ⟨rfl, ?_⟩
  rw [refuse]
  refine ((islandFree_rind (π := RindDie.vat) (fun _ _ => rfl) d).raise ..).trans ?_
  rw [vat_modVat, State.rind_wrR, State.rind_wrR, State.rind_wrR, State.incR, State.inc, State.rind_wr]

/-! ## Requests that name a handle (R420, R425) -/

section
variable {d : RSlot} {op owner handle term p gen i : Nat} {f : VatBuf → Nat → Nat → State → VatResp × State} {s : State} (hparts : handleParts handle = (p, gen, i))
  (howner : ownerOk owner = true) (hi : i < s.poolCount d p)
include hparts howner hi

theorem withBuf_valid : withBuf d op owner handle term f s = match ((s.rind d).vat.buf p i).held with
    | none => refuse d op owner handle 0x10 term s
    | some (n, last) => if ((s.rind d).vat.buf p i).gen = gen then f ((s.rind d).vat.buf p i) n last s else refuse d op owner handle 0x10 term s := by
  simp only [withBuf, hparts]
  exact if_neg (by simp [howner, hi])

theorem withBuf_stale (hgen : ((s.rind d).vat.buf p i).gen ≠ gen) : withBuf d op owner handle term f s = refuse d op owner handle 0x10 term s := by
  rw [withBuf_valid hparts howner hi]
  split
  · rfl
  · exact if_neg hgen

theorem withBuf_held {n last : Nat} (hbuf : (s.rind d).vat.buf p i = ⟨p, i, gen, some (n, last)⟩) :
    withBuf d op owner handle term f s = f ⟨p, i, gen, some (n, last)⟩ n last s := by
  rw [withBuf_valid hparts howner hi, hbuf]
  exact if_pos rfl

variable {n last : Nat} (hbuf : (s.rind d).vat.buf p i = ⟨p, i, gen, some (n, last)⟩)
include hbuf

theorem vatShare_held (rename : Bool) : vatShare d owner handle rename s = if n = 255 then refuse d 2 owner handle 0x15 1 s
    else (⟨0, handle⟩, putBuf d ⟨p, i, gen, some (n + 1, if rename then owner else last)⟩ s) := withBuf_held hparts howner hi hbuf

theorem vatRelease_held : vatRelease d owner handle s = if last = owner then refuse d 3 owner handle 0x13 2 s
    else if n = 1 then refuse d 3 owner handle 0x14 2 s else (⟨0, handle⟩, putBuf d ⟨p, i, gen, some (n - 1, last)⟩ s) :=
  withBuf_held hparts howner hi hbuf

theorem vatFree_foreign (h : last ≠ owner) : vatFree d owner handle s = refuse d 4 owner handle 0x11 3 s :=
  (withBuf_held hparts howner hi hbuf).trans (if_pos h)

theorem vatFree_shared (hlast : last = owner) (hn : n ≠ 1) : vatFree d owner handle s = refuse d 4 owner handle 0x12 3 s :=
  (withBuf_held hparts howner hi hbuf).trans ((if_neg (not_not.mpr hlast)).trans (if_pos hn))

/-- The buffer returned by its last owner, alone, goes to the next waiter of its pool, or stays free. -/
theorem vatFree_returns (hlast : last = owner) (hn : n = 1) : vatFree d owner handle s =
    match (putBuf d ⟨p, i, gen, none⟩ s).nextWaiter d p ((putBuf d ⟨p, i, gen, none⟩ s).poolFree d p) with
    | some w => (⟨0, handle⟩, showPools d (modVat d (fun v => { v with
        waits := v.waits.erase w, granted := (w.owner, BitVec.ofNat 32 (grantBuf d p i w.owner (putBuf d ⟨p, i, gen, none⟩ s)).1) :: v.granted })
        (grantBuf d p i w.owner (putBuf d ⟨p, i, gen, none⟩ s)).2))
    | none => (⟨0, handle⟩, showPools d (putBuf d ⟨p, i, gen, none⟩ s)) :=
  (withBuf_held hparts howner hi hbuf).trans ((if_neg (not_not.mpr hlast)).trans ((if_neg (not_not.mpr hn)).trans rfl))

end

theorem nextWaiter_none {d : RSlot} {p free : Nat} {s : State} (h : (s.rind d).vat.waits = []) : s.nextWaiter d p free = none := by
  simp [State.nextWaiter, Vat.waiting, h]

/-- Settles O44: the fields of a handle by their places, a grant by the record it stores, a stale handle by the check of its generation. -/
theorem bufferHandles : Obligations.BufferHandles := by
  refine ⟨fun p gen i hp hgen hi => ?_, fun d p i owner s => ?_, fun d owner handle rename s howner hi hgen => ?_⟩
  · obtain ⟨hlt, hparts⟩ := handleParts_vatHandle hp hgen hi
    exact ⟨hlt, hparts, extractLsb'_vatHandle hp hgen hi⟩
  · rw [buf_grantBuf]
    exact ⟨rfl, rfl, rfl, fun q j => buf_grantBuf_other⟩
  · refine ⟨?_, ?_, ?_⟩
    · rw [vatShare, withBuf_stale rfl howner hi hgen, (vat_refuse ..).1]
    · rw [vatRelease, withBuf_stale rfl howner hi hgen, (vat_refuse ..).1]
    · rw [vatFree, withBuf_stale rfl howner hi hgen, (vat_refuse ..).1]

/-! ## ALLOC (R419 to R422) -/

/-- Of one index more than there are buffers allocated, one names a buffer that is not. -/
theorem lowestFree_free (v : Vat) (p : Nat) : (v.buf p (v.lowestFree p)).held = none ∧ v.lowestFree p ≤ (v.allocated p).length := by
  rw [Vat.lowestFree]
  cases hfind : (List.range ((v.allocated p).length + 1)).find? (fun i => (v.buf p i).held.isNone) with
  | some i => exact ⟨by simpa using List.find?_some hfind, Nat.lt_succ_iff.mp (List.mem_range.mp (List.mem_of_find?_eq_some hfind))⟩
  | none =>
    have hsub : List.range ((v.allocated p).length + 1) ⊆ (v.allocated p).map VatBuf.index := fun i hi => by
      have hheld := List.find?_eq_none.mp hfind i hi
      cases hbuf : v.bufs.find? (fun b => b.pool = p ∧ b.index = i) with
      | none => exact absurd (by rw [Vat.buf, hbuf]; rfl) hheld
      | some b =>
        have hat := List.find?_some hbuf
        rw [Vat.buf, hbuf, Option.getD_some] at hheld
        simp only [decide_eq_true_eq] at hat
        refine List.mem_map.mpr ⟨b, List.mem_filter.mpr ⟨List.mem_of_find?_eq_some hbuf, ?_⟩, hat.2⟩
        simpa [hat.1, Option.isSome_iff_ne_none] using hheld
    have hlen := (List.nodup_range.subperm hsub).length_le
    rw [List.length_range, List.length_map] at hlen
    exact absurd hlen (by omega)

theorem poolAvail_free {d : RSlot} {owner q : Nat} {s : State} (h : s.poolAvail d owner q = true) : ((s.rind d).vat.allocated q).length < s.poolCount d q := by
  have hfree : 0 < s.poolFree d q := by
    simp only [State.poolAvail] at h
    split at h
    · simp only [Bool.and_eq_true, decide_eq_true_eq] at h
      exact h.2
    · simp only [Bool.and_eq_true, decide_eq_true_eq] at h
      omega
  exact Nat.lt_of_sub_pos hfree

theorem mem_poolsFor {d : RSlot} {size q : Nat} {s : State} (h : q ∈ s.poolsFor d size) : q < 4 ∧ size ≤ s.poolSize d q := by
  simpa [State.poolsFor] using h

/-- A granted ALLOC: the lowest free buffer of a pool that is available and whose buffers hold the size. -/
theorem vatAlloc_granted {d : RSlot} {owner size : Nat} {promote wait : Bool} {s : State} (h : (vatAlloc d owner size promote wait s).1.status = 0) :
    ∃ q ∈ s.poolsFor d size, s.poolAvail d owner q = true ∧ vatAlloc d owner size promote wait s =
      (⟨0, (grantBuf d q ((s.rind d).vat.lowestFree q) owner s).1⟩, showPools d (grantBuf d q ((s.rind d).vat.lowestFree q) owner s).2) := by
  rw [vatAlloc] at h ⊢
  split at h
  · exact absurd h (by rw [(vat_refuse ..).1]; decide)
  next hvalid =>
    rw [if_neg hvalid]
    split at h
    · exact absurd h (by rw [(vat_refuse ..).1]; decide)
    next p larger hpools =>
      rw [hpools]
      split at h
      next q hq =>
        refine ⟨q, ?_, List.find?_some hq, rfl⟩
        obtain rfl | hlarger := List.mem_cons.mp (List.mem_of_find?_eq_some hq)
        · exact List.mem_cons_self
        · exact List.mem_cons_of_mem _ (by split at hlarger; exacts [hlarger, absurd hlarger (by simp)])
      · split at h
        · split at h <;> exact absurd h (Nat.succ_ne_zero _)
        · exact absurd h (Nat.succ_ne_zero _)

theorem vatAlloc_gives {d : RSlot} {owner size : Nat} {promote wait : Bool} {s : State} (h : (vatAlloc d owner size promote wait s).1.status = 0) :
    ∃ p gen i, (vatAlloc d owner size promote wait s).1.value = vatHandle p gen i ∧ p < 4 ∧ gen < 256 ∧ i < s.poolCount d p ∧ size ≤ s.poolSize d p ∧
      ((s.rind d).vat.buf p i).held = none ∧ (((vatAlloc d owner size promote wait s).2.rind d).vat.buf p i).held = some (1, owner) ∧
      ∀ q j, (q ≠ p ∨ j ≠ i) → ((vatAlloc d owner size promote wait s).2.rind d).vat.buf q j = (s.rind d).vat.buf q j := by
  obtain ⟨p, hp, havail, heq⟩ := vatAlloc_granted h
  obtain ⟨hlt, hsize⟩ := mem_poolsFor hp
  obtain ⟨hfree, hle⟩ := lowestFree_free (s.rind d).vat p
  rw [heq, vat_showPools]
  exact ⟨p, _, _, rfl, hlt, Nat.mod_lt _ (by decide), hle.trans_lt (poolAvail_free havail), hsize, hfree, congrArg VatBuf.held (buf_grantBuf ..),
    fun q j => buf_grantBuf_other⟩

/-! ## The commands -/

theorem vat_modEng (d : RSlot) (e : Eng) (f : Engine → Engine) (s : State) : ((modEng e f s).rind d).vat = (s.rind d).vat := by
  cases e with
  | rind c i =>
    by_cases h : d = c
    · subst h
      rw [modEng, State.rind_modRind]
    · exact congrArg RindDie.vat (State.rind_modRind_other h)
  | curd g => cases d <;> rfl

theorem vat_postEvent (d : RSlot) (e : Eng) (cls : Nat) (data : BitVec 64) (s : State) : ((postEvent e cls data s).rind d).vat = (s.rind d).vat := by
  unfold postEvent
  split
  · rw [State.rind_wr, vat_modEng]
  · rfl

theorem vat_tellGrant (d : RSlot) (before : List VatWait) (s : State) : ((tellGrant d before s).rind d).vat = (s.rind d).vat := by
  rw [tellGrant]
  split
  · split
    · exact vat_postEvent ..
    · rfl
  · rfl

/-- Settles O45: an ALLOC by the pool it finds, the others by the record of the buffer that the handle names; a refusal by what it writes. -/
theorem vatRequests : Obligations.VatRequests := by
  refine ⟨fun _ _ _ _ _ => rfl, fun _ _ _ _ => rfl, fun _ _ _ => rfl, fun owner handle s => ⟨_, rfl, fun d t => ⟨rfl, ?_⟩⟩, fun _ _ _ => rfl,
    fun d owner size promote wait s => vatAlloc_gives, fun d op owner handle status term s => ?_,
    fun d owner p i gen n last rename s howner hp hgen hi hcount hbuf => ?_⟩
  · dsimp only
    split
    · exact vat_tellGrant ..
    · rfl
  · obtain ⟨hstatus, hvat⟩ := vat_refuse d op owner handle status term s
    exact ⟨hstatus, by rw [hvat], by rw [hvat]⟩
  · have hparts := (handleParts_vatHandle hp hgen hi).2
    have hself (b : Option (Nat × Nat)) : (((putBuf d ⟨p, i, gen, b⟩ s).rind d).vat.buf p i).held = b := by
      rw [show ((putBuf d ⟨p, i, gen, b⟩ s).rind d).vat.buf p i = ⟨p, i, gen, b⟩ from buf_putBuf_self ..]
    refine ⟨fun hn => ?_, fun hn => ?_, fun h => ?_, fun h hn => ?_, fun h hn => ?_, fun h => ?_, fun h hn => ?_, fun h hn => ⟨?_, fun hwaits => ?_⟩⟩
    · rw [vatShare_held hparts howner hcount hbuf, if_neg hn.ne]
      exact ⟨rfl, hself _⟩
    · rw [vatShare_held hparts howner hcount hbuf, if_pos hn, (vat_refuse ..).1]
    · rw [vatRelease_held hparts howner hcount hbuf, if_pos h.symm, (vat_refuse ..).1]
    · rw [vatRelease_held hparts howner hcount hbuf, if_neg (Ne.symm h), if_pos hn, (vat_refuse ..).1]
    · rw [vatRelease_held hparts howner hcount hbuf, if_neg (Ne.symm h), if_neg hn]
      exact hself _
    · rw [vatFree_foreign hparts howner hcount hbuf (Ne.symm h), (vat_refuse ..).1]
    · rw [vatFree_shared hparts howner hcount hbuf h.symm hn, (vat_refuse ..).1]
    · rw [vatFree_returns hparts howner hcount hbuf h.symm hn]
      split <;> rfl
    · rw [vatFree_returns hparts howner hcount hbuf h.symm hn, nextWaiter_none (by rw [waits_putBuf, hwaits])]
      dsimp only
      rw [vat_showPools]
      exact hself none

end Sys2Proof.Machine
end

section
/-! Set-up writes to the registers with a rule of their own: O11, O12 and O47. -/

namespace Sys2Proof.Machine

/-! ## Which rule a register goes to -/

section
variable {ts : List RSlot} {d : RSlot} {r : Requester} {v : Word} {s : State} (hf : s.fenced d = false)
include hf

theorem writeReg_caveCtl (hw : s.mayWrite d r 0x78000 = true) (hopen : s.pageOpen d 0x78000 = true) : writeReg ts d r 0x78000 v s = caveCtlWrite ts v s := by
  have hrd : (regDef d.code 0x78000).isSome = true := by cases d <;> decide
  obtain ⟨rd, hrd⟩ := Option.isSome_iff_exists.mp hrd
  simp [writeReg, hf, hw, curdWindow, hrd, hopen]

theorem writeReg_caveMaint (hw : s.mayWrite d r 0x78004 = true) (hopen : s.pageOpen d 0x78004 = true) :
    ∃ rd, ∀ v, writeReg ts d r 0x78004 v s = caveMaintWrite ts rd v s := by
  have hrd : (regDef d.code 0x78004).isSome = true := by cases d <;> decide
  obtain ⟨rd, hrd⟩ := Option.isSome_iff_exists.mp hrd
  exact ⟨rd, fun v => by simp [writeReg, hf, hw, curdWindow, hrd, hopen]⟩

theorem writeReg_caveRange {addr : Nat} (haddr : addr = 0x78008 ∨ addr = 0x7800C) (hw : s.mayWrite d r addr = true) (hopen : s.pageOpen d addr = true) :
    writeReg ts d r addr v s = caveRangeWrite ts addr v s := by
  have hrd : (regDef d.code addr).isSome = true := by obtain rfl | rfl := haddr <;> cases d <;> decide
  obtain ⟨rd, hrd⟩ := Option.isSome_iff_exists.mp hrd
  obtain rfl | rfl := haddr <;> simp [writeReg, hf, hw, curdWindow, hrd, hopen]

theorem writeReg_stepCtl (hw : s.mayWrite d r 0xB8004 = true) (hopen : s.pageOpen d 0xB8004 = true) : writeReg ts d r 0xB8004 v s = stepCtlWrite v s := by
  have hrd : (regDef d.code 0xB8004).isSome = true := by cases d <;> decide
  obtain ⟨rd, hrd⟩ := Option.isSome_iff_exists.mp hrd
  simp [writeReg, hf, hw, curdWindow, hrd, hopen]

theorem writeReg_faultCtl (hw : s.mayWrite d r 0xD0030 = true) : writeReg ts d r 0xD0030 v s = faultCtlWrite ts v s := by
  have hrd : (regDef d.code 0xD0030).isSome = true := by cases d <;> decide
  obtain ⟨rd, hrd⟩ := Option.isSome_iff_exists.mp hrd
  simp [writeReg, hf, hw, curdWindow, hrd]

theorem writeReg_logCtl (hw : s.mayWrite d r 0xE0004 = true) : writeReg ts d r 0xE0004 v s = logCtlWrite ts v s := by
  have hrd : (regDef d.code 0xE0004).isSome = true := by cases d <;> decide
  obtain ⟨rd, hrd⟩ := Option.isSome_iff_exists.mp hrd
  simp [writeReg, hf, hw, curdWindow, hrd]

theorem writeReg_faultInj (hw : s.mayWrite d r 0xD8010 = true) (hopen : s.pageOpen d 0xD8010 = true) :
    writeReg ts d r 0xD8010 v s = faultInjWrite ts v s := by
  have hrd : (regDef d.code 0xD8010).isSome = true := by cases d <;> decide
  obtain ⟨rd, hrd⟩ := Option.isSome_iff_exists.mp hrd
  simp [writeReg, hf, hw, curdWindow, hrd, hopen]

end

/-- A row's write, by what the register's rule makes of the state at the input's step. -/
theorem rowWrite_rule {d : RSlot} {r : Requester} {addr k : Nat} {v : Word} {s n u : State} (hn : n = newStep 0x03 0 0 s) (hd : s.hasRind d = true)
    (h4 : addr % 4 = 0) (hlo : 0x20000 ≤ addr) (hrule : writeReg n.serving d r addr v n = (u, k)) : rowWrite d r addr v s = .next (settle u) := by
  subst hn
  rw [rowWrite_shared hd h4 hlo, hrule]

/-- A rule that goes over the dies one by one, where each die's turn keeps what the others' turns look at. -/
theorem foldl_congr_kept {σ α : Type} {I : σ → List α → Prop} {f g : σ → α → σ} (hsame : ∀ t a l, I t (a :: l) → f t a = g t a)
    (hkept : ∀ t a l, I t (a :: l) → I (g t a) l) : ∀ {l : List α} {t : σ}, I t l → l.foldl f t = l.foldl g t
  | [], _, _ => rfl
  | a :: l, t, h => by
    rw [List.foldl_cons, List.foldl_cons, hsame t a l h]
    exact foldl_congr_kept hsame hkept (hkept t a l h)

/-! ## CAVE_CTL and CAVE_MAINT (R437, R440, R442) -/

theorem caveCtlWrite_enables (v : Word) (n : State) : caveCtlWrite n.serving (R.CAVE_CTL_EN.put 1 v) n =
    (inStep (fun e t => if t.bitR e R.CAVE_STAT_INVDONE ∨ t.caveOn e then caveEnableNow e t else raise e 0x034 [0x78000] t) n, 0) := by
  have hen : R.CAVE_CTL_EN.get (R.CAVE_CTL_EN.put 1 v) = 1 := Fld.get_put_self _ _ _ (by decide)
  simp only [caveCtlWrite, hen, if_true]
  rfl

/-- The dies of a list are apart, and on none of them does a maintenance operation run, or on all. -/
def BusyAre (b : Bool) (t : State) (l : List RSlot) : Prop := l.Nodup ∧ ∀ e ∈ l, t.bitR e R.CAVE_STAT_BUSY = b

theorem BusyAre.next {b : Bool} {t u : State} {d : RSlot} {l : List RSlot} (h : BusyAre b t (d :: l))
    (hother : ∀ e, e ≠ d → u.bitR e R.CAVE_STAT_BUSY = t.bitR e R.CAVE_STAT_BUSY) : BusyAre b u l := by
  obtain ⟨hnodup, hbusy⟩ := h
  obtain ⟨hd, hl⟩ := List.nodup_cons.mp hnodup
  exact ⟨hl, fun e he => (hother e fun hed => hd (hed ▸ he)).trans (hbusy e (List.mem_cons_of_mem d he))⟩

theorem bitR_wrR_other {d e : RSlot} {f g : Fld} {v : Nat} {t : State} (hf : f.Ok) (hg : g.Ok) (h : e ≠ d) : (t.wrR d f v).bitR e g = t.bitR e g := by
  rw [State.bitR, State.bitR, State.rdR_wrR_die hf hg (Ne.symm h)]

theorem bitR_modRind (d e : RSlot) (f : RindDie → RindDie) (g : Fld) (t : State) : (t.modRind d f).bitR e g = t.bitR e g := by
  rw [State.bitR, State.bitR, State.rdR_modRind]

theorem bitR_raise {d e : RSlot} {src : Nat} {detail : List Nat} {g : Fld} {t : State} (hsrc : src < 0x280) (hg : g.Ok ∧ g.off < 0xD0000) :
    (raise d src detail t).bitR e g = t.bitR e g := by
  rw [State.bitR, State.bitR, rdR_raise hg d hsrc]

theorem busy_maintStart_other {d e : RSlot} {op : Nat} {spare : Bool} {t : State} (h : e ≠ d) :
    (maintStart d op spare t).bitR e R.CAVE_STAT_BUSY = t.bitR e R.CAVE_STAT_BUSY := by
  rw [maintStart]
  split
  · exact (bitR_raise (by decide) (by decide)).trans (bitR_wrR_other (by decide) (by decide) h)
  · split
    · rfl
    · exact (bitR_modRind ..).trans (bitR_wrR_other (by decide) (by decide) h)

/-- What a write of CAVE_MAINT with GO does on a die on which no operation runs. -/
def maintBegun (op : Nat) (spare : Bool) (e : RSlot) (t : State) : State :=
  maintStart e op spare ((t.wrR e R.CAVE_MAINT_OP op).wrR e R.CAVE_MAINT_SPARE_LOCKED (bit spare))

theorem maintWord_fields {op : Nat} {spare : Bool} (hop : op < 4) : R.CAVE_MAINT_OP.get (maintWord op spare) = op ∧
    R.CAVE_MAINT_SPARE_LOCKED.get (maintWord op spare) = bit spare ∧ R.CAVE_MAINT_GO.get (maintWord op spare) = 1 := by
  interval_cases op <;> cases spare <;> decide

theorem caveMaintWrite_begins {ts : List RSlot} {rd : RegDef} {op : Nat} {spare : Bool} {n : State} (hop : op < 4) (hidle : BusyAre false n ts) :
    caveMaintWrite ts rd (maintWord op spare) n = (ts.foldl (fun t e => maintBegun op spare e t) n, 0) := by
  obtain ⟨hopw, hspare, hgo⟩ := maintWord_fields (spare := spare) hop
  have hbit : decide (bit spare = 1) = spare := by cases spare <;> rfl
  simp only [caveMaintWrite, hopw, hspare, hgo, if_true, hbit]
  refine congrArg (·, 0) (foldl_congr_kept (I := BusyAre false) (fun t e l h => ?_) (fun t e l h => h.next fun c hc => ?_) hidle)
  · rw [if_neg (by rw [h.2 e List.mem_cons_self]; decide)]
    rfl
  · rw [maintBegun, busy_maintStart_other hc, bitR_wrR_other (by decide) (by decide) hc, bitR_wrR_other (by decide) (by decide) hc]

/-- The die notes that it refused a write to the maintenance registers. -/
def maintRefused (addr : Nat) (e : RSlot) (t : State) : State := raise e 0x034 [addr] (t.incR e R.CAVE_MAINTCNT_REFUSED)

theorem busy_maintRefused_other {addr : Nat} {d e : RSlot} {t : State} (h : e ≠ d) :
    (maintRefused addr d t).bitR e R.CAVE_STAT_BUSY = t.bitR e R.CAVE_STAT_BUSY :=
  (bitR_raise (by decide) (by decide)).trans (bitR_wrR_other (by decide) (by decide) h)

theorem caveMaintWrite_refused {ts : List RSlot} {rd : RegDef} {v : Word} {n : State} (hbusy : BusyAre true n ts) :
    caveMaintWrite ts rd v n = (ts.foldl (fun t e => maintRefused 0x78004 e t) n, 0) :=
  congrArg (·, 0) (foldl_congr_kept (I := BusyAre true) (fun _ e _ h => if_pos (h.2 e List.mem_cons_self))
    (fun _ _ _ h => h.next fun _ hc => busy_maintRefused_other hc) hbusy)

theorem caveRangeWrite_refused {ts : List RSlot} {addr : Nat} {v : Word} {n : State} (hbusy : BusyAre true n ts) :
    caveRangeWrite ts addr v n = (ts.foldl (fun t e => maintRefused addr e t) n, 0) :=
  congrArg (·, 0) (foldl_congr_kept (I := BusyAre true) (fun _ e _ h => if_pos (h.2 e List.mem_cons_self))
    (fun _ _ _ h => h.next fun _ hc => busy_maintRefused_other hc) hbusy)

/-! ## STEP_CTL, FAULT_CTL and LOG_CTL (R509, R516, R547, R555, R561) -/

theorem stepCtlWrite_turns {n : State} (hpart : n.part.f = 2) : stepCtlWrite (R.STEP_CTL_TURNNOW.put 1 0) n = (proposeTurning n, 0) := by
  have hturn : R.STEP_CTL_TURNNOW.get (R.STEP_CTL_TURNNOW.put 1 0) = 1 := by decide
  have hresync : R.STEP_CTL_RESYNC.get (R.STEP_CTL_TURNNOW.put 1 0) ≠ 1 := by decide
  simp only [stepCtlWrite, hpart, hturn, hresync, if_true, if_false]
  rfl

theorem stepCtlWrite_resyncs {n : State} (hpart : n.part.f = 2) : stepCtlWrite (R.STEP_CTL_RESYNC.put 1 0) n = (startResync n, 0) := by
  have hturn : R.STEP_CTL_TURNNOW.get (R.STEP_CTL_RESYNC.put 1 0) ≠ 1 := by decide
  have hresync : R.STEP_CTL_RESYNC.get (R.STEP_CTL_RESYNC.put 1 0) = 1 := by decide
  simp only [stepCtlWrite, hpart, hturn, hresync, if_true, if_false]
  rfl

theorem faultCtlWrite_unlatches (n : State) : faultCtlWrite n.serving (R.FAULT_CTL_UNLATCH.put 1 0) n = (inStep unlatch n, 0) := by
  have hunlatch : R.FAULT_CTL_UNLATCH.get (R.FAULT_CTL_UNLATCH.put 1 0) = 1 := by decide
  have habandon : R.FAULT_CTL_ABANDON.get (R.FAULT_CTL_UNLATCH.put 1 0) ≠ 1 := by decide
  rw [faultCtlWrite, if_pos hunlatch, if_neg habandon]
  rfl

theorem faultCtlWrite_abandons (n : State) : faultCtlWrite n.serving (R.FAULT_CTL_ABANDON.put 1 0) n = (abandonCloseOut n, 0) := by
  have hunlatch : R.FAULT_CTL_UNLATCH.get (R.FAULT_CTL_ABANDON.put 1 0) ≠ 1 := by decide
  have habandon : R.FAULT_CTL_ABANDON.get (R.FAULT_CTL_ABANDON.put 1 0) = 1 := by decide
  rw [faultCtlWrite, if_neg hunlatch, if_pos habandon]

theorem logCtlWrite_eq (on : Bool) (n : State) : logCtlWrite n.serving (R.LOG_CTL_FREEZE.put (bit on) 0) n = (inStep (setFreeze on) n, 0) := by
  have hon : decide (R.LOG_CTL_FREEZE.get (R.LOG_CTL_FREEZE.put (bit on) 0) = 1) = on := by cases on <;> decide
  rw [logCtlWrite, hon]
  rfl

/-- LOG_CTL and LOG_STAT of a die show the freeze, or its end, and a die that froze remembers when. -/
structure State.Froze (e : RSlot) (on : Bool) (t : State) : Prop where
  wf : t.regsWf = true
  ctl : t.rdR e R.LOG_CTL_FREEZE = bit on
  stat : t.rdR e R.LOG_STAT_FROZEN = bit on
  at_ : on = true → (t.rind e).island.frozenAt = t.now

theorem rdR_setFreeze {on : Bool} {d e : RSlot} {g : Fld} {t : State} :
    (setFreeze on d t).rdR e g = ((t.wrR d R.LOG_CTL_FREEZE (bit on)).wrR d R.LOG_STAT_FROZEN (bit on)).rdR e g := by
  cases on
  · rfl
  · exact State.rdR_modRind ..

theorem regsWf_setFreeze {on : Bool} {d : RSlot} {t : State} (h : t.regsWf = true) : (setFreeze on d t).regsWf = true :=
  (setFreeze_kept (Kept.refl t)).regs h

theorem now_setFreeze {on : Bool} {d : RSlot} {t : State} : (setFreeze on d t).now = t.now := (setFreeze_kept (Kept.refl t)).now

theorem froze_setFreeze_self {on : Bool} {d : RSlot} {t : State} (h : t.regsWf = true) : (setFreeze on d t).Froze d on := by
  have hbit : bit on % 2 = bit on := by cases on <;> rfl
  refine ⟨regsWf_setFreeze h, ?_, ?_, ?_⟩
  · rw [rdR_setFreeze, State.rdR_wrR_apart (State.regsWf_wrR h) (by decide) (by decide) (by decide), State.rdR_wrR_self h (by decide)]
    exact hbit
  · rw [rdR_setFreeze, State.rdR_wrR_self (State.regsWf_wrR h) (by decide)]
    exact hbit
  · rintro rfl
    rw [now_setFreeze, setFreeze, if_pos rfl, modIsland, State.rind_modRind]
    rfl

theorem froze_setFreeze_other {on : Bool} {d e : RSlot} {t : State} (hed : e ≠ d) (h : t.Froze e on) : (setFreeze on d t).Froze e on := by
  obtain ⟨hwf, hctl, hstat, hat⟩ := h
  have hrd {g : Fld} (hg : g.Ok) : (setFreeze on d t).rdR e g = t.rdR e g := by
    rw [rdR_setFreeze, State.rdR_wrR_die (by decide) hg hed.symm, State.rdR_wrR_die (by decide) hg hed.symm]
  refine ⟨regsWf_setFreeze hwf, (hrd (by decide)).trans hctl, (hrd (by decide)).trans hstat, fun hon => ?_⟩
  rw [now_setFreeze, ← hat hon, setFreeze, if_pos hon, modIsland, State.rind_modRind_other hed]
  rfl

/-- Every serving die shows the freeze that was written in step. -/
theorem froze_inStep {on : Bool} {n : State} (h : n.regsWf = true) {e : RSlot} (he : e ∈ n.serving) :
    (inStep (setFreeze on) n).Froze e on :=
  foldl_of_mem_kept (I := fun t => t.regsWf = true) (fun t d => setFreeze on d t) (fun _ _ => regsWf_setFreeze) (fun _ => froze_setFreeze_self)
    (fun _ d ht => if hed : e = d then hed ▸ froze_setFreeze_self ht.wf else froze_setFreeze_other hed ht) he h

theorem now_inStep_setFreeze {on : Bool} {n : State} : (inStep (setFreeze on) n).now = n.now :=
  inStep_field (fun t => t.now) (fun _ _ => now_setFreeze) n

/-- Settles O11: each row's write reaches its register's rule at the input's step, and the rule's effect on every serving die is its own equation. -/
theorem setupRowsOfUnits : Obligations.SetupRowsOfUnits := by
  unfold Obligations.SetupRowsOfUnits
  refine ⟨fun d r v s n hn hd hf hw hopen => ?_, fun d r sp s n hn hd hf hw hopen hwf hbusy => ?_, fun d r s n hn hpart hd hf hw hopen => ⟨?_, ?_⟩,
    fun d r s n hn hd hf hw => ⟨?_, ?_⟩, fun d r s n hn hd hwf hf hw => ?_⟩
  · exact rowWrite_rule hn hd (by decide) (by decide) ((writeReg_caveCtl hf hw hopen).trans (caveCtlWrite_enables v n))
  · have hidle : BusyAre false n n.serving := ⟨n.serving_nodup, hbusy⟩
    obtain ⟨rd, hrd⟩ : ∃ rd, ∀ v, writeReg n.serving d r 0x78004 v n = caveMaintWrite n.serving rd v n := writeReg_caveMaint hf hw hopen
    have hrow (op : Nat) (hop : op < 4) : rowWrite d r 0x78004 (maintWord op sp) s = .next (settle (inStep (maintBegun op sp) n)) :=
      rowWrite_rule hn hd (by decide) (by decide) ((hrd _).trans (caveMaintWrite_begins hop hidle))
    exact ⟨hrow 1 (by decide), hrow 2 (by decide), hrow 3 (by decide)⟩
  · exact rowWrite_rule hn hd (by decide) (by decide) ((writeReg_stepCtl hf hw hopen).trans (stepCtlWrite_turns hpart))
  · exact rowWrite_rule hn hd (by decide) (by decide) ((writeReg_stepCtl hf hw hopen).trans (stepCtlWrite_resyncs hpart))
  · exact rowWrite_rule hn hd (by decide) (by decide) ((writeReg_faultCtl hf hw).trans (faultCtlWrite_unlatches n))
  · exact rowWrite_rule hn hd (by decide) (by decide) ((writeReg_faultCtl hf hw).trans (faultCtlWrite_abandons n))
  · have hnow : n.now = s.now := by rw [hn]; exact (newStep_kept (Kept.refl s)).now
    have hn_wf : n.regsWf = true := by rw [hn]; exact State.regsWf_newStep hwf
    have hrow (on : Bool) : rowWrite d r 0xE0004 (R.LOG_CTL_FREEZE.put (bit on) 0) s = .next (settle (inStep (setFreeze on) n)) :=
      rowWrite_rule hn hd (by decide) (by decide) ((writeReg_logCtl hf hw).trans (logCtlWrite_eq on n))
    refine ⟨⟨_, hrow true, fun e he => ?_⟩, ⟨_, hrow false, fun e he => ?_⟩⟩
    · have h := froze_inStep (on := true) hn_wf he
      exact ⟨h.ctl, h.stat, (h.at_ rfl).trans (now_inStep_setFreeze.trans hnow)⟩
    · have h := froze_inStep (on := false) hn_wf he
      exact ⟨h.ctl, h.stat⟩

/-! ## A maintenance operation that is refused -/

theorem setupWrite_maintRefused {d : RSlot} {r : Requester} {addr : Nat} {v : Word} {s n : State} (hn : n = newStep 0x03 0 0 s) (hd : s.hasRind d = true)
    (haddr : addr ∈ [0x78004, 0x78008, 0x7800C]) (hf : n.fenced d = false) (hw : n.mayWrite d r addr = true) (hopen : n.pageOpen d addr = true)
    (hbusy : BusyAre true n n.serving) : exec (.setupWrite d r addr 4 v) s = .next (settle (inStep (maintRefused addr) n)) := by
  subst hn
  have hrule : writeReg (newStep 0x03 0 0 s).serving d r addr v (newStep 0x03 0 0 s) = (inStep (maintRefused addr) (newStep 0x03 0 0 s), 0) := by
    simp only [List.mem_cons, List.not_mem_nil, or_false] at haddr
    obtain rfl | haddr := haddr
    · obtain ⟨rd, hrd⟩ := writeReg_caveMaint (ts := (newStep 0x03 0 0 s).serving) hf hw hopen
      exact (hrd v).trans (caveMaintWrite_refused hbusy)
    · exact (writeReg_caveRange hf haddr hw hopen).trans (caveRangeWrite_refused hbusy)
  have hwhole : addr % 4 = 0 ∧ 0x20000 ≤ addr := by
    simp only [List.mem_cons, List.not_mem_nil, or_false] at haddr
    omega
  show execSetupWrite d r addr 4 v s = _
  rw [execSetupWrite_of_hasRind hd, setupWrite_shared hwhole.1 hwhole.2, hrule]

theorem cave_maintRefused (d : RSlot) (detail : List Nat) (s : State) :
    ((raise d 0x034 detail (s.incR d R.CAVE_MAINTCNT_REFUSED)).rind d).cave = (s.rind d).cave := by
  have hfree : IslandFree (fun t : State => (t.rind d).cave) := islandFree_rind (fun _ _ => rfl) d
  exact (hfree.raise ..).trans (hfree.incR ..)

theorem maintStart_noop {d : RSlot} {spare : Bool} {s : State} (h : s.bitR d R.CAVE_STAT_BUSY = false) : maintStart d 0 spare s = s := by
  rw [maintStart, if_neg (by rw [h]; decide), if_pos (Or.inl rfl)]

/-- Settles O47: the registers' rules on the busy dies, each of which counts and notes the refusal. -/
theorem caveMaintenanceWhileBusy : Obligations.CaveMaintenanceWhileBusy := by
  unfold Obligations.CaveMaintenanceWhileBusy
  have hone {d : RSlot} {s : State} (h : s.bitR d R.CAVE_STAT_BUSY = true) : BusyAre true s [d] :=
    ⟨List.nodup_singleton d, fun e he => List.mem_singleton.mp he ▸ h⟩
  refine ⟨fun d r addr v s n hn hd _ haddr hf hw hopen hbusy => setupWrite_maintRefused hn hd haddr hf hw hopen ⟨n.serving_nodup, hbusy⟩,
    fun d rd v s h => caveMaintWrite_refused (hone h), fun d addr v s h => caveRangeWrite_refused (hone h), cave_maintRefused,
    fun d s hs => State.rd_inc hs (by decide), fun d => ?_, fun d spare s => maintStart_noop⟩
  cases d <;> decide

/-! ## FAULT_INJ (R568) -/

/-- The die takes a word that is written to FAULT_INJ into its fields. -/
def injTaken (v : Word) (e : RSlot) (t : State) : State :=
  (((t.wrR e R.FAULT_INJ_ARM (R.FAULT_INJ_ARM.get v)).wrR e R.FAULT_INJ_DIE (R.FAULT_INJ_DIE.get v)).wrR e R.FAULT_INJ_MODE (R.FAULT_INJ_MODE.get v)).wrR e
    R.FAULT_INJ_SOURCE (R.FAULT_INJ_SOURCE.get v)

theorem faultInjWrite_arms {v : Word} {n : State} (hwas : n.bitR n.senior R.FAULT_INJ_ARM = false) (harm : R.FAULT_INJ_ARM.get v = 1)
    (hgo : R.FAULT_INJ_GO.get v = 0) :
    faultInjWrite n.serving v n = (inStep (fun e t => (raise e 0x0C5 [] (injTaken v e t)).wrR e R.FAULT_INJ_USED 1) n, 0) := by
  simp only [faultInjWrite, hwas, harm, hgo]
  simp [injTaken, harm, inStep]

theorem faultInjWrite_goes {v : Word} {n : State} (hwas : n.bitR n.senior R.FAULT_INJ_ARM = true) (hgo : R.FAULT_INJ_GO.get v = 1)
    (hdie : R.FAULT_INJ_DIE.get v = 0) (hf0 : .f0 ∈ n.serving) : faultInjWrite n.serving v n = (plant .f0 (inStep (injTaken v) n), 0) := by
  simp only [faultInjWrite, hwas, hgo, hdie]
  simp [injTaken, inStep, hdie, hf0]

/-- Of two fields of FAULT_INJ, a write of one leaves the other, and the fields that a GO looks at are those of its word. -/
theorem injWord_fields {mode : Nat} {v : Word} (hmode : mode < 16) : R.FAULT_INJ_ARM.get (injWord mode v) = 1 ∧ R.FAULT_INJ_GO.get (injWord mode v) = 1 ∧
    R.FAULT_INJ_MODE.get (injWord mode v) = mode ∧ R.FAULT_INJ_DIE.get (injWord mode v) = R.FAULT_INJ_DIE.get v := by
  refine ⟨Fld.get_put_self _ _ _ (by decide), ?_, ?_, ?_⟩
  · rw [injWord, Fld.get_put_other _ _ _ _ (by decide) (by decide) (by decide), Fld.get_put_self _ _ _ (by decide)]
    rfl
  · rw [injWord, Fld.get_put_other _ _ _ _ (by decide) (by decide) (by decide), Fld.get_put_other _ _ _ _ (by decide) (by decide) (by decide),
      Fld.get_put_self _ _ _ (by decide)]
    exact Nat.mod_eq_of_lt hmode
  · rw [injWord, Fld.get_put_other _ _ _ _ (by decide) (by decide) (by decide), Fld.get_put_other _ _ _ _ (by decide) (by decide) (by decide),
      Fld.get_put_other _ _ _ _ (by decide) (by decide) (by decide)]

theorem armWord_fields (v : Word) : R.FAULT_INJ_ARM.get (R.FAULT_INJ_ARM.put 1 v) = 1 ∧ R.FAULT_INJ_GO.get (R.FAULT_INJ_ARM.put 1 v) = R.FAULT_INJ_GO.get v ∧
    R.FAULT_INJ_DIE.get (R.FAULT_INJ_ARM.put 1 v) = R.FAULT_INJ_DIE.get v ∧ R.FAULT_INJ_MODE.get (R.FAULT_INJ_ARM.put 1 v) = R.FAULT_INJ_MODE.get v ∧
    R.FAULT_INJ_SOURCE.get (R.FAULT_INJ_ARM.put 1 v) = R.FAULT_INJ_SOURCE.get v :=
  ⟨Fld.get_put_self _ _ _ (by decide), Fld.get_put_other _ _ _ _ (by decide) (by decide) (by decide),
    Fld.get_put_other _ _ _ _ (by decide) (by decide) (by decide), Fld.get_put_other _ _ _ _ (by decide) (by decide) (by decide),
    Fld.get_put_other _ _ _ _ (by decide) (by decide) (by decide)⟩

theorem regsWf_injTaken {v : Word} {e : RSlot} {t : State} (h : t.regsWf = true) : (injTaken v e t).regsWf = true :=
  State.regsWf_wrR (State.regsWf_wrR (State.regsWf_wrR (State.regsWf_wrR h)))

theorem mode_injTaken_self {v : Word} {e : RSlot} {t : State} (h : t.regsWf = true) :
    (injTaken v e t).rdR e R.FAULT_INJ_MODE = R.FAULT_INJ_MODE.get v % 16 := by
  have hwf : ((t.wrR e R.FAULT_INJ_ARM (R.FAULT_INJ_ARM.get v)).wrR e R.FAULT_INJ_DIE (R.FAULT_INJ_DIE.get v)).regsWf = true :=
    State.regsWf_wrR (State.regsWf_wrR h)
  rw [injTaken, State.rdR_wrR_apart (State.regsWf_wrR hwf) (by decide) (by decide) (by decide), State.rdR_wrR_self hwf (by decide)]
  rfl

theorem mode_injTaken_other {v : Word} {d e : RSlot} {t : State} (h : e ≠ d) : (injTaken v e t).rdR d R.FAULT_INJ_MODE = t.rdR d R.FAULT_INJ_MODE := by
  rw [injTaken, State.rdR_wrR_die (by decide) (by decide) h, State.rdR_wrR_die (by decide) (by decide) h, State.rdR_wrR_die (by decide) (by decide) h,
    State.rdR_wrR_die (by decide) (by decide) h]

theorem mode_inStep_injTaken {v : Word} {d : RSlot} {n : State} (hn : n.regsWf = true) (hd : d ∈ n.serving) :
    (inStep (injTaken v) n).rdR d R.FAULT_INJ_MODE = R.FAULT_INJ_MODE.get v % 16 :=
  (foldl_of_mem_kept (I := fun t => t.regsWf = true) (motive := fun t => t.regsWf = true ∧ t.rdR d R.FAULT_INJ_MODE = R.FAULT_INJ_MODE.get v % 16)
    (fun t e => injTaken v e t) (fun _ _ => regsWf_injTaken) (fun _ ht => ⟨regsWf_injTaken ht, mode_injTaken_self ht⟩)
    (fun _ e ht => ⟨regsWf_injTaken ht.1,
      if hed : e = d then hed ▸ mode_injTaken_self ht.1 else (mode_injTaken_other hed).trans ht.2⟩) hd hn).2

section
variable {d : RSlot} {r : Requester} {v : Word} {s n : State} (hn : n = newStep 0x03 0 0 s) (hd : s.hasRind d = true) (hf : n.fenced d = false)
  (hw : n.mayWrite d r 0xD8010 = true) (hopen : n.pageOpen d 0xD8010 = true)
include hn hd hf hw hopen

theorem faultInjArm_arms (hwas : n.bitR n.senior R.FAULT_INJ_ARM = false) (hgo : R.FAULT_INJ_GO.get v = 0) : exec (.faultInjArm d r v) s =
    .next (settle (inStep (fun e t => (raise e 0x0C5 [] ((((t.wrR e R.FAULT_INJ_ARM 1).wrR e R.FAULT_INJ_DIE
      (R.FAULT_INJ_DIE.get v)).wrR e R.FAULT_INJ_MODE (R.FAULT_INJ_MODE.get v)).wrR e R.FAULT_INJ_SOURCE (R.FAULT_INJ_SOURCE.get v))).wrR e R.FAULT_INJ_USED 1) n)) := by
  obtain ⟨harm, hgo', hdie, hmode, hsource⟩ := armWord_fields v
  refine rowWrite_rule (k := 0) hn hd (by decide) (by decide) ?_
  rw [writeReg_faultInj hf hw hopen, faultInjWrite_arms hwas harm (hgo'.trans hgo)]
  simp only [injTaken, harm, hdie, hmode, hsource]

theorem injWord_plants {mode : Nat} (hmode : mode < 16) (hwas : n.bitR n.senior R.FAULT_INJ_ARM = true) (hdie : R.FAULT_INJ_DIE.get v = 0)
    (hf0 : .f0 ∈ n.serving) (hs : s.regsWf = true) : ∃ w, w.rdR .f0 R.FAULT_INJ_MODE = mode ∧ w.f0 = n.f0 ∧ w.out = n.out ∧
      rowWrite d r 0xD8010 (injWord mode v) s = .next (settle (plant .f0 w)) := by
  obtain ⟨-, hgo, hmode', hdie'⟩ := injWord_fields (v := v) hmode
  refine ⟨inStep (injTaken (injWord mode v)) n, ?_, inStep_field (f := injTaken _) (fun t => t.f0) (fun _ _ => rfl) n,
    inStep_field (f := injTaken _) (fun t => t.out) (fun _ _ => rfl) n,
    rowWrite_rule hn hd (by decide) (by decide) ((writeReg_faultInj hf hw hopen).trans (faultInjWrite_goes hwas hgo (hdie'.trans hdie) hf0))⟩
  rw [mode_inStep_injTaken (hn ▸ State.regsWf_newStep hs) hf0, hmode', Nat.mod_eq_of_lt hmode]

end

/-- Settles O12: the write's fields are those of its word; each mode's GO plants on die F0, as the mode says. -/
theorem faultInjection : Obligations.FaultInjection := by
  unfold Obligations.FaultInjection
  refine ⟨fun d r v s n hn hd hf hw hopen => faultInjArm_arms hn hd hf hw hopen, fun d r v s n hn hd hf hw hopen hwas hdie hf0 hs => ?_,
    fun d s => ⟨fun hm hsrc => ?_, fun hm => ?_, fun hm => ?_⟩⟩
  · have hplants {mode : Nat} (hmode : mode < 16) := injWord_plants hn hd hf hw hopen hmode hwas hdie hf0 hs
    exact ⟨hplants (by decide), hplants (by decide), hplants (by decide), hplants (by decide), hplants (by decide)⟩
  · simp [plant, hm, hsrc]
  · simp [plant, hm]
  · simp [plant, hm]

end Sys2Proof.Machine
end

section
/-! Leases and splits: O28 (R505 to R508, R512, R513, R515). -/

namespace Sys2Proof.Machine

/-! ## A lease message at a die -/

theorem cmds_markLive (g : Nat) (d : RSlot) (s : State) : (markLive g d s).cmds = s.cmds := State.cmds_modEnd ..

theorem out_markLive (g : Nat) (d : RSlot) (s : State) : (markLive g d s).out = s.out := State.out_modEnd ..

theorem regsWf_markLive {g : Nat} {d : RSlot} {s : State} (h : s.regsWf = true) : (markLive g d s).regsWf = true :=
  State.regsWf_wrC (by rw [State.regsWf, State.regs_modEnd]; exact h)

theorem rdC_leaseTaken (e : LinkEnd) (op : Nat) (s : State) (g : Nat) (f : Fld) : (leaseTaken e op s).rdC g f = s.rdC g f := by
  simp only [State.rdC, State.rd, State.word, leaseTaken, regs_takeWhere]

theorem cmds_leaseTaken (e : LinkEnd) (op : Nat) (s : State) : (leaseTaken e op s).cmds = s.cmds := takeWhere_field State.cmds fun _ _ _ => cmds_takeMsg ..

theorem out_leaseTaken (e : LinkEnd) (op : Nat) (s : State) : (leaseTaken e op s).out = s.out := takeWhere_field State.out fun _ _ _ => out_takeMsg ..

theorem rdR_leaseTaken (e : LinkEnd) (op : Nat) (s : State) (d : RSlot) (f : Fld) : (leaseTaken e op s).rdR d f = s.rdR d f := rdR_takeWhere ..

theorem step_leaseTaken (e : LinkEnd) (op : Nat) (s : State) (d : RSlot) : ((leaseTaken e op s).rind d).step = (s.rind d).step := step_takeWhere ..

/-- A lease message has come to a Curd die, from a live link, and leaves its buffer. -/
def leaseMet (g op : Nat) (d : RSlot) (s : State) : State := leaseTaken (.curd g d) op (markLive g d s)

theorem cmds_leaseMet (g op : Nat) (d : RSlot) (s : State) : (leaseMet g op d s).cmds = s.cmds := (cmds_leaseTaken ..).trans (cmds_markLive ..)

theorem out_leaseMet (g op : Nat) (d : RSlot) (s : State) : (leaseMet g op d s).out = s.out := (out_leaseTaken ..).trans (out_markLive ..)

theorem regsWf_leaseMet {g op : Nat} {d : RSlot} {s : State} (h : s.regsWf = true) : (leaseMet g op d s).regsWf = true := by
  rw [leaseMet, leaseTaken, State.regsWf, regs_takeWhere]
  exact regsWf_markLive h

/-- HOLDER, SINGLE and the epoch are as they were. -/
theorem lease_leaseMet {g op : Nat} {d : RSlot} {s : State} (h : s.regsWf = true) :
    (leaseMet g op d s).rdC g R.CDIE_LEASE_HOLDER = s.rdC g R.CDIE_LEASE_HOLDER ∧
    (leaseMet g op d s).rdC g R.CDIE_LEASE_SINGLE = s.rdC g R.CDIE_LEASE_SINGLE ∧
    (leaseMet g op d s).rdC g R.CDIE_EPOCH_EPOCH = s.rdC g R.CDIE_EPOCH_EPOCH := by
  have hend : (s.modEnd (.curd g d) (fun e => { e with silent := false })).regsWf = true := by rw [State.regsWf, State.regs_modEnd]; exact h
  have hepoch : (markLive g d s).rdC g R.CDIE_EPOCH_EPOCH = s.rdC g R.CDIE_EPOCH_EPOCH := by
    rw [markLive, State.rdC_wrC_apart hend (by cases d <;> decide) (by decide) (by cases d <;> decide)]
    simp only [State.rdC, State.rd, State.word, State.regs_modEnd]
  exact ⟨(rdC_leaseTaken ..).trans (rdC_markLive h (by decide) (by decide)), (rdC_leaseTaken ..).trans (rdC_markLive h (by decide) (by decide)),
    (rdC_leaseTaken ..).trans hepoch⟩

/-! ## The record -/

theorem lease_installLease {g holder single epoch : Nat} {s : State} (h : s.regsWf = true) (hholder : holder < 2) (hsingle : single < 2) (hepoch : epoch < 2 ^ 32) :
    (installLease g holder single epoch s).rdC g R.CDIE_LEASE_HOLDER = holder ∧ (installLease g holder single epoch s).rdC g R.CDIE_LEASE_SINGLE = single ∧
    (installLease g holder single epoch s).rdC g R.CDIE_EPOCH_EPOCH = epoch := by
  have h1 : (s.wrC g R.CDIE_LEASE_HOLDER holder).regsWf = true := State.regsWf_wrC h
  have h2 : ((s.wrC g R.CDIE_LEASE_HOLDER holder).wrC g R.CDIE_LEASE_SINGLE single).regsWf = true := State.regsWf_wrC h1
  refine ⟨?_, ?_, ?_⟩
  · rw [installLease, State.rdC_wrC_apart h2 (by decide) (by decide) (by decide), State.rdC_wrC_apart h1 (by decide) (by decide) (by decide),
      State.rdC_wrC_self h (by decide)]
    exact Nat.mod_eq_of_lt hholder
  · rw [installLease, State.rdC_wrC_apart h2 (by decide) (by decide) (by decide), State.rdC_wrC_self h1 (by decide)]
    exact Nat.mod_eq_of_lt hsingle
  · rw [installLease, State.rdC_wrC_self h2 (by decide)]
    exact Nat.mod_eq_of_lt hepoch

/-- A record that is there already is the second slot's copy, counted as whey (R504). -/
def leaseWhey (g w0 epoch : Nat) (s : State) : State :=
  if decide (s.rdC g R.CDIE_LEASE_HOLDER = w0 % 2 ∧ s.rdC g R.CDIE_LEASE_SINGLE = w0 / 2 % 2 ∧ w0 / 2 % 2 = 0 ∧ s.rdC g R.CDIE_EPOCH_EPOCH = epoch) then
    s.incC g R.CDIE_WHEY_COUNT
  else s

theorem leaseWhey_fields {g w0 epoch : Nat} {s : State} (h : s.regsWf = true) :
    (leaseWhey g w0 epoch s).regsWf = true ∧ (leaseWhey g w0 epoch s).cmds = s.cmds ∧ (leaseWhey g w0 epoch s).out = s.out := by
  unfold leaseWhey
  split
  · exact ⟨State.regsWf_wrC h, rfl, rfl⟩
  · exact ⟨h, rfl, rfl⟩

/-- The record of a LEASE message in force at a Curd die. -/
def leaseRecorded (g : Nat) (d : RSlot) (w0 epoch : Nat) (s : State) : State :=
  installLease g (w0 % 2) (w0 / 2 % 2) epoch (leaseWhey g w0 epoch (leaseMet g 0x60 d s))

section
variable {g : Nat} {d : RSlot} {epoch w0 : Nat} {s : State} (hg : s.hasCurd g = true)
include hg

theorem exec_lease_installs (hle : (leaseMet g 0x60 d s).rdC g R.CDIE_EPOCH_EPOCH ≤ epoch) : exec (.lease g d w0 epoch) s =
    .next (settle (if w0 / 2 % 2 = 1 then endPairWaits g (leaseRecorded g d w0 epoch s) else leaseRecorded g d w0 epoch s)) := by
  rw [show exec (.lease g d w0 epoch) s = execLease g d w0 epoch s from rfl, execLease, if_pos hg]
  exact if_pos hle

theorem exec_lease_older (hlt : ¬ (leaseMet g 0x60 d s).rdC g R.CDIE_EPOCH_EPOCH ≤ epoch) :
    exec (.lease g d w0 epoch) s = .next (settle (leaseMet g 0x60 d s)) := by
  rw [show exec (.lease g d w0 epoch) s = execLease g d w0 epoch s from rfl, execLease, if_pos hg]
  exact if_neg hlt

theorem exec_leaseConfirm (hs : s.regsWf = true) : exec (.leaseConfirm g d epoch) s =
    .next (settle (leaseAnswer g d (decide (s.holder g = d ∧ s.rdC g R.CDIE_EPOCH_EPOCH = epoch)) (leaseMet g 0x61 d s))) := by
  obtain ⟨hholder, -, hepoch⟩ := lease_leaseMet (g := g) (op := 0x61) (d := d) hs
  have hkept : (leaseMet g 0x61 d s).holder g = s.holder g := by rw [State.holder, hholder, State.holder]
  rw [show exec (.leaseConfirm g d epoch) s = execLeaseConfirm g d epoch s from rfl, execLeaseConfirm, if_pos hg, ← hkept, ← hepoch]
  rfl

theorem exec_leaseClaim_granted (hepoch : epoch = (leaseMet g 0x62 d s).rdC g R.CDIE_EPOCH_EPOCH + 1)
    (hsilent : (leaseMet g 0x62 d s).silentLink g ((leaseMet g 0x62 d s).holder g) = true) :
    exec (.leaseClaim g d epoch) s = .next (settle (leaseAnswer g d true (endPairWaits g (installLease g (RSlotBit d) 1 epoch (leaseMet g 0x62 d s))))) := by
  rw [show exec (.leaseClaim g d epoch) s = execLeaseClaim g d epoch s from rfl, execLeaseClaim, if_pos hg]
  exact if_pos ⟨hsilent, hepoch⟩

theorem exec_leaseClaim_refused (hlive : (leaseMet g 0x62 d s).silentLink g ((leaseMet g 0x62 d s).holder g) = false) :
    exec (.leaseClaim g d epoch) s = .next (settle (leaseAnswer g d false (leaseMet g 0x62 d s))) := by
  rw [show exec (.leaseClaim g d epoch) s = execLeaseClaim g d epoch s from rfl, execLeaseClaim, if_pos hg]
  exact if_neg fun h => Bool.false_ne_true (hlive.symm.trans h.1)

end

/-! ## Answers at a Rind die (R507, R508, R512) -/

/-- An ANSWER has come to a Rind die: it leaves its buffer, and a die that claims nothing takes over a higher epoch. -/
def answerMet (d : RSlot) (g epoch : Nat) (s : State) : State :=
  if (s.rind d).step.claim.isSome then leaseTaken (.rind d g) 0x68 s
  else (leaseTaken (.rind d g) 0x68 s).wrR d R.STEP_EPOCH_EPOCH (max (s.rdR d R.STEP_EPOCH_EPOCH) epoch)

theorem answerMet_fields (d : RSlot) (g epoch : Nat) (s : State) : ((answerMet d g epoch s).rind d).step = (s.rind d).step ∧
    (answerMet d g epoch s).cmds = s.cmds ∧ (answerMet d g epoch s).out = s.out := by
  unfold answerMet
  split
  · exact ⟨step_leaseTaken .., cmds_leaseTaken .., out_leaseTaken ..⟩
  · exact ⟨by rw [State.rind_wrR, step_leaseTaken], cmds_leaseTaken .., out_leaseTaken ..⟩

theorem ite_bnot {α : Type} (b : Bool) (x y : α) : (if (!b) = true then x else y) = if b = true then y else x := by
  cases b <;> rfl

section
variable {d : RSlot} {g w0 epoch at_ : Nat} {s : State} (hpart : s.part.f = 2) (hg : g < 6) (hf : s.fenced d = false)
include hpart hg hf

omit hg hf in
theorem State.hasRind_of_two : s.hasRind d = true := decide_eq_true (.inr hpart)

theorem exec_leaseAnswer_grant (hsplit : (s.rind d).step.split.isSome = true) (hgrant : w0 / 2 ^ 15 % 2 = 1) :
    ∃ v, (v.rind d).step.grants = g :: (s.rind d).step.grants.filter (· ≠ g) ∧ v.cmds = s.cmds ∧ v.out = s.out ∧
      exec (.leaseAnswer d g w0 epoch) s = .next (settle (if quorum (v.presentCurds d) (v.rind d).step.grants = true then becomeSole d v else v)) := by
  obtain ⟨hstep, hcmds, hout⟩ := answerMet_fields d g epoch s
  refine ⟨modStep d (fun x => { x with grants := g :: x.grants.filter (· ≠ g) }) (answerMet d g epoch s), ?_, ?_, ?_, ?_⟩
  · rw [rind_modStep, hstep]
  · exact (show State.cmds (modStep d _ _) = _ by cases d <;> rfl).trans hcmds
  · exact (show State.out (modStep d _ _) = _ by cases d <;> rfl).trans hout
  · have hactive : ((s.rind d).step.split.isSome || (s.rind d).step.claim.isSome) = true := by rw [hsplit]; rfl
    rw [show exec (.leaseAnswer d g w0 epoch) s = execLeaseAnswer d g w0 epoch s from rfl, execLeaseAnswer, if_pos ⟨hpart, State.hasRind_of_two hpart, hg, by rw [hf]; rfl⟩]
    simp only [step_leaseTaken, rdR_leaseTaken, hactive, hgrant, if_true, Bool.not_true, Bool.false_eq_true, if_false]
    rfl

theorem exec_leaseAnswer_overtaken (hsplit : (s.rind d).step.split = some (at_, true)) (hclaim : (s.rind d).step.claim = none) (hrefused : w0 / 2 ^ 15 % 2 = 0)
    (hlt : s.rdR d R.STEP_EPOCH_EPOCH < epoch) :
    exec (.leaseAnswer d g w0 epoch) s = .next (settle (fenceDie d ((leaseTaken (.rind d g) 0x68 s).wrR d R.STEP_EPOCH_EPOCH epoch))) := by
  rw [show exec (.leaseAnswer d g w0 epoch) s = execLeaseAnswer d g w0 epoch s from rfl, execLeaseAnswer, if_pos ⟨hpart, State.hasRind_of_two hpart, hg, by rw [hf]; rfl⟩]
  have hno : ¬ w0 / 2 ^ 15 % 2 = 1 := by omega
  simp only [step_leaseTaken, rdR_leaseTaken, hsplit, hclaim, hno, hlt, Nat.max_eq_right hlt.le]
  rfl

theorem exec_leaseAnswer_refused (hsplit : (s.rind d).step.split = some (at_, false)) (hrefused : w0 / 2 ^ 15 % 2 = 0) :
    ∃ v, (v.rind d).step.refusals = g :: (s.rind d).step.refusals.filter (· ≠ g) ∧ v.cmds = s.cmds ∧ v.out = s.out ∧
      exec (.leaseAnswer d g w0 epoch) s = .next (settle (if quorum (v.presentCurds d)
        ((v.presentCurds d).filter (fun g => g ∉ (v.rind d).step.refusals)) = true then v else fenceDie d v)) := by
  obtain ⟨hstep, hcmds, hout⟩ := answerMet_fields d g epoch s
  refine ⟨modStep d (fun x => { x with refusals := g :: x.refusals.filter (· ≠ g) }) (answerMet d g epoch s), ?_, ?_, ?_, ?_⟩
  · rw [rind_modStep, hstep]
  · exact (show State.cmds (modStep d _ _) = _ by cases d <;> rfl).trans hcmds
  · exact (show State.out (modStep d _ _) = _ by cases d <;> rfl).trans hout
  · rw [show exec (.leaseAnswer d g w0 epoch) s = execLeaseAnswer d g w0 epoch s from rfl, execLeaseAnswer, if_pos ⟨hpart, State.hasRind_of_two hpart, hg, by rw [hf]; rfl⟩]
    have hno : ¬ w0 / 2 ^ 15 % 2 = 1 := by omega
    simp only [step_leaseTaken, rdR_leaseTaken, hsplit, hno, Option.isSome_some, Bool.true_or, Bool.not_true, Bool.false_eq_true, false_and, if_false,
      Bool.not_false, true_and]
    exact congrArg (fun t => Host.Outcome.next (settle t)) (ite_bnot ..)

end

/-! ## The other commands -/

theorem curdLinkSilent_marks {g : Nat} {d : RSlot} {s : State} (hg : s.hasCurd g = true) (hend : s.EndOk (.curd g d)) (hs : s.regsWf = true) :
    ∃ t, exec (.curdLinkSilent g d) s = .next t ∧ t.silentLink g d = true ∧
      t.rdC g (if d = .f0 then R.CDIE_LEASE_F0LIVE else R.CDIE_LEASE_F1LIVE) = 0 ∧ t.cmds = s.cmds ∧ t.out = s.out := by
  refine ⟨_, if_pos hg, ?_, ?_, State.cmds_modEnd .., State.out_modEnd ..⟩
  · rw [State.silentLink, State.fvEnd_wrC, State.fvEnd_modEnd_self hend.endHeld]
  · rw [State.rdC_wrC_self (by rw [State.regsWf, State.regs_modEnd]; exact hs) (by cases d <;> decide), Nat.zero_mod]

theorem claimRetry_claims {d : RSlot} {at_ : Nat} {s : State} (hpart : s.part.f = 2) (hf : s.fenced d = false) (hsplit : (s.rind d).step.split = some (at_, false)) :
    ∃ v, (v.rind d).step.claim = some (s.rdR d R.STEP_EPOCH_EPOCH + 1) ∧ (v.rind d).step.grants = [] ∧ v.regs = s.regs ∧
      exec (.claimRetry d) s = .next (leaseTraffic d 0x62 (RSlotBit d) (s.rdR d R.STEP_EPOCH_EPOCH + 1) v) := by
  refine ⟨modStep d (fun x => { x with claim := some (s.rdR d R.STEP_EPOCH_EPOCH + 1), grants := [], refusals := [] }) s, ?_, ?_, regs_modStep .., ?_⟩
  · rw [rind_modStep]
  · rw [rind_modStep]
  · rw [show exec (.claimRetry d) s = execClaimRetry d s from rfl, execClaimRetry]
    simp [hpart, hf, hsplit]

theorem splitReinit_reinitialises {s : State} (hpart : s.part.f = 2) (hall : ∀ d, s.fenced d = true ∨ (s.rind d).step.split.isSome = true) :
    exec .splitReinit s = .next (settle { onGroups emergencyRetract s with todo := (onGroups emergencyRetract s).todo ++ [.reinit] }) :=
  if_pos ⟨hpart, List.all_eq_true.mpr fun d _ => by rw [Bool.or_eq_true]; exact hall d⟩

/-- Settles O28: the record's rules at a Curd die, the answers and the deadlines at a Rind die. -/
theorem leasesAndSplits : Obligations.LeasesAndSplits := by
  unfold Obligations.LeasesAndSplits
  refine ⟨fun g src w0 epoch s hg hle hepoch hs => ?_, fun g src w0 epoch s hg hlt hs => ?_, fun g d epoch s hg hs => exec_leaseConfirm hg hs,
    fun g d epoch s n hg hn hepoch => ?_, fun d s hd hf => ?_, fun d g w0 epoch s hpart hg hf hsplit hgrant => exec_leaseAnswer_grant hpart hg hf hsplit hgrant,
    fun d g w0 epoch at_ s hpart hg hf hsplit hclaim hrefused hlt => exec_leaseAnswer_overtaken hpart hg hf hsplit hclaim hrefused hlt,
    fun d g w0 epoch at_ s hpart hg hf hsplit hrefused => exec_leaseAnswer_refused hpart hg hf hsplit hrefused,
    fun g d s => curdLinkSilent_marks, fun d at_ s hpart hf hsplit => claimRetry_claims hpart hf hsplit, fun d s hsplit => ?_, fun s => splitReinit_reinitialises⟩
  · obtain ⟨-, -, hepoch'⟩ := lease_leaseMet (g := g) (op := 0x60) (d := src) hs
    obtain ⟨hwf, hcmds, hout⟩ := leaseWhey_fields (g := g) (w0 := w0) (epoch := epoch) (regsWf_leaseMet (g := g) (op := 0x60) (d := src) hs)
    obtain ⟨hholder, hsingle, hinstalled⟩ := lease_installLease (g := g) hwf (Nat.mod_lt w0 (by decide)) (Nat.mod_lt (w0 / 2) (by decide)) hepoch
    exact ⟨_, hholder, hsingle, hinstalled, hcmds.trans (cmds_leaseMet ..), hout.trans (out_leaseMet ..), exec_lease_installs hg (hepoch'.le.trans hle)⟩
  · obtain ⟨hholder, hsingle, hepoch⟩ := lease_leaseMet (g := g) (op := 0x60) (d := src) hs
    exact ⟨_, exec_lease_older hg (by omega), hholder, hsingle, hepoch, out_leaseMet ..⟩
  · subst hn
    exact ⟨exec_leaseClaim_granted hg hepoch, exec_leaseClaim_refused hg⟩
  · exact congrArg Host.Outcome.next (if_pos ⟨hd, by rw [hf]; rfl⟩)
  · exact congrArg (fun t => Host.Outcome.next (settle t)) (if_pos hsplit)

end Sys2Proof.Machine
end

section
/-! What the operations of the buffer memory controller leave: all but the buffer memory of a die, the free values, and what an event reaches (R395 to R405). -/

namespace Sys2Proof.Machine

/-- A part of the state that the buffer memory controllers do not reach. -/
structure BmemFree {β : Type} (π : State → β) : Prop extends IslandFree π where
  modBmem : ∀ d f s, π (modBmem d f s) = π s
  fresh : ∀ s : State, π s.fresh.2 = π s

theorem bmemFree_rind {β : Type} {π : RindDie → β} (hi : ∀ (r : RindDie) i, π { r with island := i } = π r) (hb : ∀ (r : RindDie) b, π { r with bmem := b } = π r)
    (d : RSlot) : BmemFree (fun s => π (s.rind d)) where
  toIslandFree := islandFree_rind hi d
  modBmem e f s := by
    by_cases hde : d = e
    · subst hde
      exact (congrArg π (State.rind_modRind ..)).trans (hb ..)
    · exact congrArg π (State.rind_modRind_other hde)
  fresh s := by cases d <;> rfl

theorem bmemFree_host : BmemFree State.host where
  toIslandFree := eventFree_host.islandFree
  modBmem _ _ _ := State.host_modRind ..
  fresh _ := rfl

section
variable {β : Type} {π : State → β} (hπ : BmemFree π)
include hπ

theorem BmemFree.openRow (d : RSlot) (cw : Nat) (s : State) : π (openRow d cw s) = π s := by
  rw [Machine.openRow, hπ.modBmem]

theorem BmemFree.writeRow (d : RSlot) (cw : Nat) (s : State) : π (writeRow d cw s) = π s := by
  rw [Machine.writeRow, hπ.modBmem]

theorem BmemFree.readRow (d : RSlot) (cw : Nat) (s : State) : π (readRow d cw s) = π s := by
  unfold Machine.readRow
  dsimp only
  split
  · split
    · rw [hπ.incR, hπ.fresh, hπ.modBmem]
    · rw [hπ.fresh, hπ.modBmem]
  · exact hπ.modBmem ..

theorem BmemFree.writeCw (d : RSlot) (cw : Nat) (data : List Byte) (s : State) : π (writeCw d cw data s) = π s := by
  rw [Machine.writeCw, hπ.writeRow, hπ.modBmem]

theorem BmemFree.uncorrectable (d : RSlot) (cw : Nat) (s : State) : π (uncorrectable d cw s) = π s := by
  rw [Machine.uncorrectable]
  exact (hπ.raise ..).trans ((hπ.wrR ..).trans ((hπ.wrR ..).trans (hπ.incR ..)))

theorem BmemFree.countDevice (d : RSlot) (c k : Nat) (s : State) : π (countDevice d c k s) = π s := by
  unfold Machine.countDevice
  simp only [apply_ite π, hπ.raise, hπ.wrR, hπ.modBmem, hπ.incR, ite_self]

theorem BmemFree.corrected (d : RSlot) (cw : Nat) (data : List Byte) (fix : List (Nat × Nat)) (s : State) : π (corrected d cw data fix s) = π s := by
  rw [Machine.corrected, hπ.writeRow, hπ.modBmem, foldl_field π fun t k => hπ.countDevice .., hπ.incR]

theorem BmemFree.decodeCw (d : RSlot) (cw : Nat) (syms : List Nat) (s : State) : π (decodeCw d cw syms s).2.2 = π s := by
  unfold Machine.decodeCw
  split
  · exact hπ.uncorrectable ..
  · split
    · exact hπ.uncorrectable ..
    · rfl
    · exact hπ.corrected ..

theorem BmemFree.readCw (d : RSlot) (cw : Nat) (s : State) : π (readCw d cw s).2.2 = π s := by
  unfold Machine.readCw
  dsimp only
  split <;> exact (hπ.decodeCw ..).trans (hπ.readRow ..)

theorem BmemFree.readCws (d : RSlot) : ∀ (n cw : Nat) (s : State), π (readCws d cw n s).2.2 = π s
  | 0, _, _ => rfl
  | n + 1, cw, s => (BmemFree.readCws d n (cw + 1) _).trans (hπ.readCw d cw s)

theorem BmemFree.bmemRead (d : RSlot) (addr len : Nat) (s : State) : π (bmemRead d addr len s).2.2 = π s := hπ.readCws ..

theorem BmemFree.enterPoison (d : RSlot) (cw : Nat) (s : State) : π (enterPoison d cw s) = π s := by
  unfold Machine.enterPoison
  simp only [apply_ite π, hπ.raise, hπ.modBmem, ite_self]

theorem BmemFree.mergeOut (d : RSlot) (e : MergeEntry) (s : State) : π (mergeOut d e s) = π s := by
  unfold Machine.mergeOut
  simp only [apply_ite π, hπ.enterPoison, hπ.modBmem, hπ.writeRow, hπ.decodeCw, hπ.incR, ite_self]

theorem BmemFree.mergeWrite (d : RSlot) (cw : Nat) (bytes : List (Option Byte)) (s : State) : π (mergeWrite d cw bytes s) = π s := by
  unfold Machine.mergeWrite
  dsimp only
  split
  · rw [hπ.incR, hπ.writeCw, hπ.modBmem]
  · split
    · exact hπ.modBmem ..
    · rw [hπ.modBmem]
      split
      · simp only [apply_ite π, hπ.mergeOut, ite_self]
      · rfl

theorem BmemFree.writeBytes (d : RSlot) (cw : Nat) (bytes : List (Option Byte)) (s : State) : π (writeBytes d cw bytes s) = π s := by
  unfold Machine.writeBytes
  simp only [apply_ite π, hπ.writeCw, hπ.mergeWrite, hπ.modBmem, ite_self]

theorem BmemFree.bmemWrite (d : RSlot) (addr : Nat) (data : List Byte) (s : State) : π (bmemWrite d addr data s) = π s :=
  foldl_field π fun _ _ => hπ.writeBytes ..

theorem BmemFree.bmemPlace (d : RSlot) (addr : Nat) (data : List Byte) (poison : Bool) (s : State) : π (bmemPlace d addr data poison s) = π s := by
  unfold Machine.bmemPlace
  dsimp only
  split
  · rw [foldl_field π fun t i => hπ.enterPoison .., hπ.bmemWrite]
  · exact hπ.bmemWrite ..

end

end Sys2Proof.Machine
end

section
/-! An event in its two stages: what is counted and kept of it on its die, and what its severity calls for (R542, R543, R545, R546, R554). -/

namespace Sys2Proof.Machine

/-- The source is configured as counted, and no rule fixes its severity (R543, R545). -/
def State.srcCounted (s : State) (d : RSlot) (src : Nat) (fix : Option Nat) : Bool :=
  s.bitR d (R.FAULT_SRCCFG_COUNTED src) && decide (s.rdR d (R.FAULT_SRCCFG_SEV src) ≠ 0) && fix.isNone

/-- The event fills its source's window (R545). -/
def State.srcFull (s : State) (d : RSlot) (src : Nat) (fix : Option Nat) : Bool :=
  s.srcCounted d src fix &&
    decide ((s.incR d (R.FAULT_SRC_EVENTS src)).rdR d (R.FAULT_SRCCFG_N src) ≤
      assocGet src 0 ((s.incR d (R.FAULT_SRC_EVENTS src)).rind d).island.windows + 1)

/-- The effective severity of a source once an event of it has been counted (R545). -/
def State.srcEff (s : State) (d : RSlot) (src : Nat) (fix : Option Nat) : Nat :=
  if s.srcFull d src fix then min (s.rdR d (R.FAULT_SRCCFG_SEV src)) ((s.incR d (R.FAULT_SRC_EVENTS src)).rdR d (R.FAULT_SRC_EFF src) + 1)
  else (s.incR d (R.FAULT_SRC_EVENTS src)).rdR d (R.FAULT_SRC_EFF src)

/-- The severity of an event (R543, R545). -/
def State.srcSev (s : State) (d : RSlot) (src : Nat) (fix : Option Nat) : Nat :=
  match fix with
  | some v => v
  | none => if s.srcCounted d src fix then s.srcEff d src fix else s.rdR d (R.FAULT_SRCCFG_SEV src)

/-- What the island of a die keeps of an event. -/
def Island.noted (src win : Nat) (counted full : Bool) (i : Island) : Island :=
  { i with
    totals := assocPut src (satAdd 0xFFFFFFFF (assocGet src 0 i.totals) 1) i.totals
    windows := if counted then (if full then assocDel src i.windows else assocPut src win i.windows) else i.windows
    ownNow := i.ownNow || decide (src ∈ ownSources)
    ownSince := i.ownSince || decide (src ∈ ownSources) }

/-- The event is counted on its die. -/
def eventCounted (d : RSlot) (src win eff : Nat) (counted full : Bool) (s : State) : State :=
  if full then ((s.incR d (R.FAULT_SRC_EVENTS src)).modRind d (fun r => { r with island := r.island.noted src win counted full })).wrR d (R.FAULT_SRC_EFF src) eff
  else (s.incR d (R.FAULT_SRC_EVENTS src)).modRind d (fun r => { r with island := r.island.noted src win counted full })

/-- A record of the event, where its severity is not Ignore (R558). -/
def eventStaged (d : RSlot) (die src sev wincnt : Nat) (detail : List Nat) (s : State) : State :=
  if sev = 0 then s else stageRec d (s.makeRec d die src sev wincnt (s.rungOf src sev) detail) s

/-- What the severity of an event calls for (R546, R549, R554). -/
def eventActed (d : RSlot) (die src sev wincnt : Nat) (detail : List Nat) (s : State) : State :=
  if sev = 4 then fatalAction d src (if 3 ≤ sev then enterFault die src sev (eventStaged d die src sev wincnt detail s) else eventStaged d die src sev wincnt detail s)
  else (if 3 ≤ sev then enterFault die src sev (eventStaged d die src sev wincnt detail s) else eventStaged d die src sev wincnt detail s)

theorem raiseFull_unused {d : RSlot} {die src : Nat} {detail : List Nat} {fix : Option Nat} {s : State} (h : sourceUsed src = false) :
    raiseFull d die src detail fix s = s := by
  rw [raiseFull, if_pos (by rw [h]; rfl)]

theorem raiseFull_used {d : RSlot} {die src : Nat} {detail : List Nat} {fix : Option Nat} {s : State} (h : sourceUsed src = true) :
    raiseFull d die src detail fix s = eventActed d die src (s.srcSev d src fix)
      (if s.srcCounted d src fix then assocGet src 0 ((s.incR d (R.FAULT_SRC_EVENTS src)).rind d).island.windows + 1 else 0) detail
      (eventCounted d src (assocGet src 0 ((s.incR d (R.FAULT_SRC_EVENTS src)).rind d).island.windows + 1) (s.srcEff d src fix) (s.srcCounted d src fix)
        (s.srcFull d src fix) s) := by
  rw [raiseFull, if_neg (by rw [h]; decide)]
  rfl

end Sys2Proof.Machine
end

section
/-! Resync, and the engines' reads of the step interface and the budget manager: O29 (R470, R516, R517, R540). -/

namespace Sys2Proof.Machine

/-! ## Buffer memory looks at no link -/

/-- The state with other link ends on a Rind die. -/
def relinked (e : RSlot) (l : List FvEnd) (s : State) : State := s.modRind e (fun r => { r with links := l })

section
variable (e : RSlot) (l : List FvEnd)

theorem wr_relinked (s : State) (die : Nat) (f : Fld) (v : Nat) : (relinked e l s).wr die f v = relinked e l (s.wr die f v) := by cases e <;> rfl

theorem rd_relinked (s : State) (die : Nat) (f : Fld) : (relinked e l s).rd die f = s.rd die f := by cases e <;> rfl

theorem island_relinked (s : State) (d : RSlot) : ((relinked e l s).rind d).island = (s.rind d).island := by cases e <;> cases d <;> rfl

theorem bmem_relinked (s : State) (d : RSlot) : ((relinked e l s).rind d).bmem = (s.rind d).bmem := by cases e <;> cases d <;> rfl

theorem modBmem_relinked (s : State) (d : RSlot) (f : Bmem → Bmem) : modBmem d f (relinked e l s) = relinked e l (modBmem d f s) := by
  cases e <;> cases d <;> rfl

theorem modRind_relinked {h : RindDie → RindDie} (hh : ∀ r, h { r with links := l } = { h r with links := l }) (s : State) (d : RSlot) :
    (relinked e l s).modRind d h = relinked e l (s.modRind d h) := by
  cases e with
  | f0 =>
    cases d with
    | f0 => simp [relinked, State.modRind, hh]
    | f1 => rfl
  | f1 =>
    cases d with
    | f0 => rfl
    | f1 => simp [relinked, State.modRind, hh]

theorem fatalAction_relinked (d : RSlot) (src : Nat) (s : State) : fatalAction d src (relinked e l s) = relinked e l (fatalAction d src s) := by
  cases e <;> simp only [fatalAction, apply_ite (relinked _ l)] <;> rfl

theorem ite_relinked (c : Prop) [Decidable c] (s t : State) : (if c then relinked e l s else relinked e l t) = relinked e l (if c then s else t) :=
  (apply_ite ..).symm

theorem stageRec_relinked (d : RSlot) (r : LogRec) (s : State) : stageRec d r (relinked e l s) = relinked e l (stageRec d r s) := by
  unfold stageRec
  simp (disch := exact fun _ => rfl) only [State.bump, State.wrR, State.rdR, wr_relinked, rd_relinked, island_relinked, modRind_relinked]
  refine (if_congr Iff.rfl rfl ?_).trans (apply_ite (relinked e l) _ _ _).symm
  split <;> rfl

theorem enterFault_relinked (die src sev : Nat) (s : State) : enterFault die src sev (relinked e l s) = relinked e l (enterFault die src sev s) := by
  have hstop (t : State) : stopAlive (relinked e l t) = relinked e l (stopAlive t) := by cases e <;> rfl
  have hrinds : (relinked e l s).rinds = s.rinds := by cases e <;> rfl
  have hnow (t : State) : (relinked e l t).now = t.now := by cases e <;> rfl
  rw [enterFault, enterFault, ← hstop, hrinds]
  refine congrArg stopAlive (List.foldl_hom (relinked e l) fun t d => ?_)
  dsimp only
  simp (disch := exact fun _ => rfl) only [State.wrR, State.rdR, wr_relinked, rd_relinked, modRind_relinked, ite_relinked, hnow]
  rfl

theorem eventCounted_relinked (d : RSlot) (src win eff : Nat) (counted full : Bool) (s : State) :
    eventCounted d src win eff counted full (relinked e l s) = relinked e l (eventCounted d src win eff counted full s) := by
  unfold eventCounted
  simp (disch := exact fun _ => rfl) only [State.wrR, State.incR, State.inc, wr_relinked, rd_relinked, modRind_relinked, ite_relinked]

theorem eventActed_relinked (d : RSlot) (die src sev wincnt : Nat) (detail : List Nat) (s : State) :
    eventActed d die src sev wincnt detail (relinked e l s) = relinked e l (eventActed d die src sev wincnt detail s) := by
  have hrec (t : State) : (relinked e l t).makeRec d die src = t.makeRec d die src := by cases e <;> rfl
  have hrung (t : State) : (relinked e l t).rungOf = t.rungOf := by cases e <;> rfl
  simp only [eventActed, eventStaged, hrec, hrung, stageRec_relinked, ite_relinked, enterFault_relinked, fatalAction_relinked]

theorem raiseFull_relinked (d : RSlot) (die src : Nat) (detail : List Nat) (fix : Option Nat) (s : State) :
    raiseFull d die src detail fix (relinked e l s) = relinked e l (raiseFull d die src detail fix s) := by
  cases hused : sourceUsed src with
  | false => rw [raiseFull_unused hused, raiseFull_unused hused]
  | true =>
    have hinc (f : Fld) : (relinked e l s).incR d f = relinked e l (s.incR d f) := by rw [State.incR, State.inc, wr_relinked, rd_relinked]; rfl
    have hcounted : (relinked e l s).srcCounted d src fix = s.srcCounted d src fix := by cases e <;> rfl
    have hfull : (relinked e l s).srcFull d src fix = s.srcFull d src fix := by
      rw [State.srcFull, hcounted, hinc, island_relinked, State.rdR, rd_relinked]; rfl
    have heff : (relinked e l s).srcEff d src fix = s.srcEff d src fix := by
      simp only [State.srcEff, State.rdR, hfull, hinc, rd_relinked]
    have hsev : (relinked e l s).srcSev d src fix = s.srcSev d src fix := by
      simp only [State.srcSev, State.rdR, hcounted, heff, rd_relinked]
    rw [raiseFull_used hused, raiseFull_used hused, hsev, heff, hfull, hcounted, hinc, island_relinked, eventCounted_relinked, eventActed_relinked]

theorem raise_relinked (d : RSlot) (src : Nat) (detail : List Nat) (s : State) : raise d src detail (relinked e l s) = relinked e l (raise d src detail s) :=
  raiseFull_relinked ..

theorem writeRow_relinked (d : RSlot) (cw : Nat) (s : State) : writeRow d cw (relinked e l s) = relinked e l (writeRow d cw s) := by
  have hbank : (relinked e l s).bankRow d cw = s.bankRow d cw := by cases e <;> rfl
  rw [writeRow, writeRow, hbank, modBmem_relinked]

theorem writeCw_relinked (d : RSlot) (cw : Nat) (data : List Byte) (s : State) : writeCw d cw data (relinked e l s) = relinked e l (writeCw d cw data s) := by
  rw [writeCw, writeCw, modBmem_relinked, writeRow_relinked]

theorem uncorrectable_relinked (d : RSlot) (cw : Nat) (s : State) : uncorrectable d cw (relinked e l s) = relinked e l (uncorrectable d cw s) := by
  have hxlat (t : State) : (relinked e l t).inXlat d (16 * cw) = t.inXlat d (16 * cw) := by cases e <;> rfl
  simp only [uncorrectable, State.wrR, State.incR, State.inc, rd_relinked, wr_relinked, hxlat, raise_relinked]
  rfl

theorem countDevice_relinked (d : RSlot) (c k : Nat) (s : State) : countDevice d c k (relinked e l s) = relinked e l (countDevice d c k s) := by
  simp only [countDevice, State.marked, State.rdR, State.wrR, State.incR, State.inc, rd_relinked, wr_relinked, bmem_relinked, modBmem_relinked, raise_relinked,
    ite_relinked]
  rfl

theorem corrected_relinked (d : RSlot) (cw : Nat) (data : List Byte) (fix : List (Nat × Nat)) (s : State) :
    corrected d cw data fix (relinked e l s) = relinked e l (corrected d cw data fix s) := by
  have hcount (t : State) : ((fix.map (fun q => symDevice q.1)).dedup).foldl (fun u k => countDevice d (cwChan cw) k u) (relinked e l t) =
      relinked e l (((fix.map (fun q => symDevice q.1)).dedup).foldl (fun u k => countDevice d (cwChan cw) k u) t) :=
    List.foldl_hom (relinked e l) fun u k => countDevice_relinked ..
  simp only [corrected, State.incR, State.inc, rd_relinked, wr_relinked, hcount, modBmem_relinked, writeRow_relinked]

theorem decodeCw_relinked (d : RSlot) (cw : Nat) (syms : List Nat) (s : State) : decodeCw d cw syms (relinked e l s) =
    ((decodeCw d cw syms s).1, (decodeCw d cw syms s).2.1, relinked e l (decodeCw d cw syms s).2.2) := by
  unfold decodeCw
  simp only [State.marked, State.rdR, rd_relinked, bmem_relinked, uncorrectable_relinked, corrected_relinked]
  split
  · rfl
  · split <;> rfl

theorem enterPoison_relinked (d : RSlot) (cw : Nat) (s : State) : enterPoison d cw (relinked e l s) = relinked e l (enterPoison d cw s) := by
  simp only [enterPoison, bmem_relinked, modBmem_relinked, raise_relinked, ite_relinked]

theorem cwSyms_relinked (d : RSlot) (cw : Nat) (s : State) : (relinked e l s).cwSyms d cw = s.cwSyms d cw := by
  simp only [State.cwSyms, State.cwData, bmem_relinked]

theorem mergeOut_relinked (d : RSlot) (m : MergeEntry) (s : State) : mergeOut d m (relinked e l s) = relinked e l (mergeOut d m s) := by
  simp only [mergeOut, State.incR, State.inc, rd_relinked, wr_relinked, modBmem_relinked, cwSyms_relinked, decodeCw_relinked,
    writeRow_relinked, enterPoison_relinked, ite_relinked]
  rfl

theorem mergeWrite_relinked (d : RSlot) (cw : Nat) (bytes : List (Option Byte)) (s : State) :
    mergeWrite d cw bytes (relinked e l s) = relinked e l (mergeWrite d cw bytes s) := by
  unfold mergeWrite
  simp only [State.incR, State.inc, rd_relinked, wr_relinked, bmem_relinked, modBmem_relinked, writeCw_relinked]
  refine (if_congr Iff.rfl rfl ?_).trans (apply_ite (relinked e l) _ _ _).symm
  split
  · rfl
  · split
    · rw [mergeOut_relinked, ite_relinked, modBmem_relinked]
    · rw [modBmem_relinked]

theorem writeBytes_relinked (d : RSlot) (cw : Nat) (bytes : List (Option Byte)) (s : State) :
    writeBytes d cw bytes (relinked e l s) = relinked e l (writeBytes d cw bytes s) := by
  simp only [writeBytes, modBmem_relinked, writeCw_relinked, mergeWrite_relinked, ite_relinked]

theorem bmemPlace_relinked (d : RSlot) (addr : Nat) (data : List Byte) (poison : Bool) (s : State) :
    bmemPlace d addr data poison (relinked e l s) = relinked e l (bmemPlace d addr data poison s) := by
  have hwrite : bmemWrite d addr data (relinked e l s) = relinked e l (bmemWrite d addr data s) :=
    List.foldl_hom (relinked e l) fun t i => writeBytes_relinked ..
  have hpoison (t : State) : (List.range (data.length / 16)).foldl (fun u i => enterPoison d (addr / 16 + i) u) (relinked e l t) =
      relinked e l ((List.range (data.length / 16)).foldl (fun u i => enterPoison d (addr / 16 + i) u) t) :=
    List.foldl_hom (relinked e l) fun u i => enterPoison_relinked ..
  simp only [bmemPlace, hwrite, hpoison, ite_relinked]

end

theorem modEnd_relinks (d : RSlot) (n : Nat) (f : FvEnd → FvEnd) (s : State) : s.modEnd (.rind d n) f = relinked d (modAt n f (s.rind d).links) s := by
  cases d <;> rfl

/-- A message that leaves its buffer changes the link ends of its die alone. -/
theorem takeWhere_relinks (d : RSlot) (n c : Nat) (p : Msg → Bool) (s : State) : ∃ l, takeWhere (.rind d n) c p s = relinked d l s := by
  unfold takeWhere
  split
  · exact ⟨_, modEnd_relinks ..⟩
  · exact ⟨(s.rind d).links, by cases d <;> rfl⟩

/-! ## The copy pass (R516) -/

theorem copyMessage_places {d : RSlot} {addr : Nat} {data : List Byte} {poison : Bool} {s : State} (hpart : s.part.f = 2) (hrole : s.role d = roleResync) :
    ∃ t, exec (.copyMessage d addr data poison) s = .next (settle t) ∧ (t.rind d).bmem = ((bmemPlace d addr data poison s).rind d).bmem ∧
      t.cmds = s.cmds ∧ t.out = s.out := by
  obtain ⟨l, hl⟩ := takeWhere_relinks d 6 3 (fun _ => true) s
  refine ⟨_, if_pos ⟨hpart, hrole⟩, ?_, State.host_eq.mp ?_⟩
  · refine (foldl_field (fun t : State => (t.rind d).bmem) fun t e => by rw [State.rind_wrR]).trans ?_
    rw [hl, bmemPlace_relinked, bmem_relinked]
  · refine (foldl_field State.host fun t e => State.host_wrR ..).trans ?_
    rw [bmemFree_host.bmemPlace, host_takeWhere]

/-- The phase and the cursor of the copy pass, as a die shows them when it is done. -/
def copyShown (s : State) (t : RSlot) (u : State) (d : RSlot) : State := (u.wrR d R.STEP_RESYNC_PHASE 3).wrR d R.STEP_RESYNC_MIB (s.dataBytes t / 2 ^ 20)

theorem rdR_copyShown {s u : State} {t d : RSlot} (h : u.regsWf = true) : (copyShown s t u d).rdR d R.STEP_RESYNC_PHASE = 3 := by
  rw [copyShown, State.rdR_wrR_apart (State.regsWf_wrR h) (by decide) (by decide) (by decide), State.rdR_wrR_self h (by decide)]
  rfl

theorem resyncCopyDone_copies {t : RSlot} {s : State} (hpart : s.part.f = 2) (hfind : s.rinds.find? (fun d => s.role d = roleResync) = some t)
    (hphase : s.rdR t R.STEP_RESYNC_PHASE = 2) (hs : s.regsWf = true) :
    ∃ u, exec .resyncCopyDone s = .next u ∧ (u.rind t).bmem.cells = (s.rind t.peer).bmem.cells ∧ (u.rind t).bmem.poison = (s.rind t.peer).bmem.poison ∧
      (∀ d, u.rdR d R.STEP_RESYNC_PHASE = 3) ∧ u.cmds = s.cmds ∧ u.out = s.out := by
  have hbmem : (((copyBufferMemory t.peer t s).rinds.foldl (copyShown (copyBufferMemory t.peer t s) t) (copyBufferMemory t.peer t s)).rind t).bmem =
      ((copyBufferMemory t.peer t s).rind t).bmem :=
    foldl_field (fun u : State => (u.rind t).bmem) fun u d => by rw [copyShown, State.rind_wrR, State.rind_wrR]
  have hhost : ((copyBufferMemory t.peer t s).rinds.foldl (copyShown (copyBufferMemory t.peer t s) t) (copyBufferMemory t.peer t s)).host = s.host :=
    (foldl_field State.host (f := copyShown _ _) fun _ _ => rfl).trans (State.host_modRind ..)
  refine ⟨(copyBufferMemory t.peer t s).rinds.foldl (copyShown (copyBufferMemory t.peer t s) t) (copyBufferMemory t.peer t s), ?_, ?_, ?_, fun d => ?_,
    State.host_eq.mp hhost⟩
  · rw [show exec .resyncCopyDone s = execResyncCopyDone s from rfl, execResyncCopyDone, hfind]
    exact if_pos hphase
  · rw [hbmem, copyBufferMemory, State.rind_modRind]
  · rw [hbmem, copyBufferMemory, State.rind_modRind]
  · have hwf : (copyBufferMemory t.peer t s).regsWf = true := by cases t <;> exact hs
    have hhas : (copyBufferMemory t.peer t s).hasRind d = true := by cases t <;> exact decide_eq_true (.inr hpart)
    obtain ⟨u, hu, hread⟩ := rdR_foldl_rinds (F := copyShown (copyBufferMemory t.peer t s) t) (g := R.STEP_RESYNC_PHASE) hwf hhas
      (fun _ _ h => State.regsWf_wrR (State.regsWf_wrR h)) (fun u e x hne => by
        rw [copyShown, State.rdR_wrR_die (by decide) (by decide) hne, State.rdR_wrR_die (by decide) (by decide) hne])
    exact hread.trans (rdR_copyShown hu)

/-! ## The state copy (R516) -/

/-- Roles and lease when both resume: the server senior with the lease, the target junior. -/
def rolesTaken (t : RSlot) (s : State) : State :=
  (((s.wrR t.peer R.STEP_STAT_ROLE roleSenior).wrR t.peer R.STEP_STAT_LEASE 1).wrR t R.STEP_STAT_ROLE roleJunior).wrR t R.STEP_STAT_LEASE 0

/-- What a die shows when the resync has ended well. -/
def resyncShown (u : State) (d : RSlot) : State :=
  (((u.wrR d R.STEP_STAT_REDUND 1).wrR d R.STEP_STAT_LINKUP 1).wrR d R.STEP_RESYNC_PHASE 0).incR d R.STEP_EVT_RESYNCS

/-- The dies that show the end of the resync. -/
def allResyncShown (t : RSlot) (s : State) : State := (rolesTaken t s).rinds.foldl resyncShown (rolesTaken t s)

/-- The dies resume in step: roles, registers and the turning interval. -/
def resumed (t : RSlot) (s : State) : State :=
  let v := (allResyncShown t s).wrR t R.STEP_EPOCH_EPOCH ((allResyncShown t s).rdR t.peer R.STEP_EPOCH_EPOCH)
  modStep t.peer (fun x => { x with turnAt := some (v.now + 60000000 * max 1 (v.rdR t.peer R.STEP_CFG_TURNMIN)) }) v

theorem rolesTaken_fields {t : RSlot} {s : State} (h : s.regsWf = true) : (rolesTaken t s).regsWf = true ∧
    (rolesTaken t s).rdR t.peer R.STEP_STAT_ROLE = roleSenior ∧ (rolesTaken t s).rdR t.peer R.STEP_STAT_LEASE = 1 ∧
    (rolesTaken t s).rdR t R.STEP_STAT_ROLE = roleJunior ∧ (rolesTaken t s).rdR t R.STEP_STAT_LEASE = 0 := by
  have h1 : (s.wrR t.peer R.STEP_STAT_ROLE roleSenior).regsWf = true := State.regsWf_wrR h
  have h2 : ((s.wrR t.peer R.STEP_STAT_ROLE roleSenior).wrR t.peer R.STEP_STAT_LEASE 1).regsWf = true := State.regsWf_wrR h1
  have h3 : (((s.wrR t.peer R.STEP_STAT_ROLE roleSenior).wrR t.peer R.STEP_STAT_LEASE 1).wrR t R.STEP_STAT_ROLE roleJunior).regsWf = true := State.regsWf_wrR h2
  have hne : t ≠ t.peer := RSlot.ne_peer t
  refine ⟨State.regsWf_wrR h3, ?_, ?_, ?_, ?_⟩
  · rw [rolesTaken, State.rdR_wrR_die (by decide) (by decide) hne, State.rdR_wrR_die (by decide) (by decide) hne,
      State.rdR_wrR_apart h1 (by decide) (by decide) (by decide), State.rdR_wrR_self h (by decide)]
    rfl
  · rw [rolesTaken, State.rdR_wrR_die (by decide) (by decide) hne, State.rdR_wrR_die (by decide) (by decide) hne, State.rdR_wrR_self h1 (by decide)]
    rfl
  · rw [rolesTaken, State.rdR_wrR_apart h3 (by decide) (by decide) (by decide), State.rdR_wrR_self h2 (by decide)]
    rfl
  · rw [rolesTaken, State.rdR_wrR_self h3 (by decide)]
    rfl

theorem regsWf_resyncShown {u : State} {d : RSlot} (h : u.regsWf = true) : (resyncShown u d).regsWf = true :=
  State.regsWf_wrR (State.regsWf_wrR (State.regsWf_wrR (State.regsWf_wrR h)))

/-- The roles and the lease lie in no field that the end of a resync stores. -/
theorem rdR_resyncShown {u : State} {d e : RSlot} {g : Fld} (hg : g = R.STEP_STAT_ROLE ∨ g = R.STEP_STAT_LEASE) (h : u.regsWf = true) :
    (resyncShown u d).rdR e g = u.rdR e g := by
  have h1 : (u.wrR d R.STEP_STAT_REDUND 1).regsWf = true := State.regsWf_wrR h
  have h2 : ((u.wrR d R.STEP_STAT_REDUND 1).wrR d R.STEP_STAT_LINKUP 1).regsWf = true := State.regsWf_wrR h1
  have h3 : (((u.wrR d R.STEP_STAT_REDUND 1).wrR d R.STEP_STAT_LINKUP 1).wrR d R.STEP_RESYNC_PHASE 0).regsWf = true := State.regsWf_wrR h2
  obtain rfl | rfl := hg <;>
    rw [resyncShown, State.incR, State.inc, ← State.wrR, State.rdR_wrR_apart h3 (by decide) (by decide) (by decide),
      State.rdR_wrR_apart h2 (by decide) (by decide) (by decide), State.rdR_wrR_apart h1 (by decide) (by decide) (by decide),
      State.rdR_wrR_apart h (by decide) (by decide) (by decide)]

theorem phase_resyncShown_self {u : State} {d : RSlot} (h : u.regsWf = true) : (resyncShown u d).rdR d R.STEP_RESYNC_PHASE = 0 := by
  have h2 : ((u.wrR d R.STEP_STAT_REDUND 1).wrR d R.STEP_STAT_LINKUP 1).regsWf = true := State.regsWf_wrR (State.regsWf_wrR h)
  rw [resyncShown, State.incR, State.inc, ← State.wrR, State.rdR_wrR_apart (State.regsWf_wrR h2) (by decide) (by decide) (by decide),
    State.rdR_wrR_self h2 (by decide)]
  rfl

theorem rdR_resyncShown_die {u : State} {d e : RSlot} {g : Fld} (hg : g.Ok) (h : d ≠ e) : (resyncShown u d).rdR e g = u.rdR e g := by
  rw [resyncShown, State.incR, State.inc, ← State.wrR, State.rdR_wrR_die (by decide) hg h, State.rdR_wrR_die (by decide) hg h,
    State.rdR_wrR_die (by decide) hg h, State.rdR_wrR_die (by decide) hg h]

theorem regsWf_allResyncShown {t : RSlot} {s : State} (h : s.regsWf = true) : (allResyncShown t s).regsWf = true :=
  List.foldlRecOn (motive := fun u : State => u.regsWf = true) _ _ (rolesTaken_fields h).1 fun _ hu _ _ => regsWf_resyncShown hu

theorem rdR_resumed {t e : RSlot} {g : Fld} {s : State} (hg : g = R.STEP_STAT_ROLE ∨ g = R.STEP_STAT_LEASE) (h : s.regsWf = true) :
    (resumed t s).rdR e g = (rolesTaken t s).rdR e g := by
  have hall : (allResyncShown t s).regsWf = true ∧ (allResyncShown t s).rdR e g = (rolesTaken t s).rdR e g :=
    List.foldlRecOn (motive := fun u : State => u.regsWf = true ∧ u.rdR e g = (rolesTaken t s).rdR e g) _ _ ⟨(rolesTaken_fields h).1, rfl⟩
      fun u hu d _ => ⟨regsWf_resyncShown hu.1, (rdR_resyncShown hg hu.1).trans hu.2⟩
  refine (rdR_modStep ..).trans (Eq.trans ?_ hall.2)
  exact State.rdR_wrR_apart hall.1 (by decide) (by obtain rfl | rfl := hg <;> decide) (by obtain rfl | rfl := hg <;> decide)

theorem phase_resumed {t : RSlot} {s : State} (h : s.regsWf = true) (hpart : s.part.f = 2) (d : RSlot) : (resumed t s).rdR d R.STEP_RESYNC_PHASE = 0 := by
  have hhas : (rolesTaken t s).hasRind d = true := decide_eq_true (.inr hpart)
  obtain ⟨u, hu, hread⟩ := rdR_foldl_rinds (F := resyncShown) (g := R.STEP_RESYNC_PHASE) (rolesTaken_fields (t := t) h).1 hhas (fun _ _ => regsWf_resyncShown)
    (fun _ _ _ hne => rdR_resyncShown_die (by decide) hne)
  refine (rdR_modStep ..).trans (Eq.trans ?_ (hread.trans (phase_resyncShown_self hu)))
  exact State.rdR_wrR_apart (regsWf_allResyncShown h) (by decide) (by decide) (by decide)

theorem rind_modStep_field {β : Type} (π : RindDie → β) (hπ : ∀ (r : RindDie) x, π { r with step := x } = π r) (d t : RSlot) (f : StepLogic → StepLogic)
    (s : State) : π ((modStep d f s).rind t) = π (s.rind t) := by
  rw [modStep]
  by_cases h : t = d
  · rw [h, State.rind_modRind, hπ]
  · rw [State.rind_modRind_other h]

/-- What is neither a register nor step logic stays as the copy left it. -/
theorem resumed_field {β : Type} (π : State → β) (hwr : ∀ u die f v, π (State.wr u die f v) = π u) (hstep : ∀ u d f, π (modStep d f u) = π u)
    (t : RSlot) (s : State) : π (resumed t s) = π s := by
  have hall : π (allResyncShown t s) = π (rolesTaken t s) := foldl_field π fun u d => by
    rw [resyncShown, State.incR, State.inc, State.wrR, State.wrR, State.wrR, hwr, hwr, hwr, hwr]
  rw [resumed, hstep, State.wrR, hwr, hall, rolesTaken, State.wrR, State.wrR, State.wrR, State.wrR, hwr, hwr, hwr, hwr]

theorem host_copyDieState (srv t : RSlot) (s : State) : (copyDieState srv t s).host = s.host := by
  have hregs (l : List (Nat × Word)) (u : State) : (l.foldl (fun u r => u.setWord (regKey t.code (keyOff r.1)) r.2) u).host = u.host :=
    foldl_field State.host (f := fun u (r : Nat × Word) => u.setWord (regKey t.code (keyOff r.1)) r.2) fun _ _ => rfl
  rw [copyDieState]
  refine (State.host_modRind ..).trans ((hregs ..).trans ?_)
  exact State.host_modRind ..

theorem units_copyDieState (t : RSlot) (s : State) : ((copyDieState t.peer t s).rind t).engines = (s.rind t.peer).engines ∧
    ((copyDieState t.peer t s).rind t).cave = (s.rind t.peer).cave ∧ ((copyDieState t.peer t s).rind t).vat = (s.rind t.peer).vat := by
  have hregs (l : List (Nat × Word)) (u : State) : (l.foldl (fun u r => u.setWord (regKey t.code (keyOff r.1)) r.2) u).rind t.peer = u.rind t.peer :=
    foldl_field (fun u : State => u.rind t.peer) fun u r => by cases t <;> rfl
  have hsrv : (copyBufferMemory t.peer t s).rind t.peer = s.rind t.peer := State.rind_modRind_other (RSlot.ne_peer t).symm
  rw [copyDieState, State.rind_modRind, hregs]
  cases t <;> exact ⟨rfl, rfl, rfl⟩

/-- Settles O29: the copy pass places what comes, the end of it copies the rest, and the state copy resumes both dies; the engines' reads are their rows. -/
theorem resyncAndStateReads : Obligations.ResyncAndStateReads := by
  unfold Obligations.ResyncAndStateReads
  refine ⟨fun d addr data poison s => copyMessage_places, fun t s => resyncCopyDone_copies, fun t s hpart hfind hphase hs => ?_, fun d e s => rfl, fun d e s => rfl,
    fun e port op v ok s h => if_neg (by simpa using h)⟩
  have hwf : (copyDieState t.peer t s).regsWf = true := (copyDieState_kept (Kept.refl s)).regs hs
  have hpart' : (copyDieState t.peer t s).part.f = 2 := by rw [(copyDieState_kept (Kept.refl s)).part]; exact hpart
  obtain ⟨-, hrole, hlease, hrole', hlease'⟩ := rolesTaken_fields (t := t) hwf
  obtain ⟨hengines, hcave, hvat⟩ := units_copyDieState t s
  have hhost : (resumed t (copyDieState t.peer t s)).host = s.host :=
    (resumed_field State.host (fun _ _ _ _ => rfl) (fun _ _ _ => State.host_modRind ..) t _).trans (host_copyDieState ..)
  have hunit {β : Type} (π : RindDie → β) (hπ : ∀ (r : RindDie) x, π { r with step := x } = π r) :
      π ((resumed t (copyDieState t.peer t s)).rind t) = π ((copyDieState t.peer t s).rind t) :=
    resumed_field (fun u => π (u.rind t)) (fun u die f v => by rw [State.rind_wr]) (fun u d f => rind_modStep_field π hπ d t f u) t _
  refine ⟨resumed t (copyDieState t.peer t s), _, _, (rdR_resumed (.inl rfl) hwf).trans hrole, (rdR_resumed (.inr rfl) hwf).trans hlease,
    (rdR_resumed (.inl rfl) hwf).trans hrole', (rdR_resumed (.inr rfl) hwf).trans hlease', phase_resumed hwf hpart',
    (hunit RindDie.engines fun _ _ => rfl).trans hengines, (hunit RindDie.cave fun _ _ => rfl).trans hcave, (hunit RindDie.vat fun _ _ => rfl).trans hvat,
    (State.host_eq.mp hhost).1, (State.host_eq.mp hhost).2, rfl, rfl, ?_⟩
  rw [show exec .resyncStateCopy s = execResyncStateCopy s from rfl, execResyncStateCopy, hfind]
  exact if_pos hphase

end Sys2Proof.Machine
end

section
/-! Events and their windows, the fault state and the close-out: O54 (R541 to R549, R555). -/

namespace Sys2Proof.Machine

theorem lt_of_sourceUsed {src : Nat} (h : sourceUsed src = true) : src < 0x280 := by
  by_contra hge
  rw [sourceUsed, sourceDefault, if_neg (by omega), if_neg hge] at h
  exact Bool.false_ne_true h

theorem assocGet_assocDel_self {α : Type} (k : Nat) (d : α) (l : List (Nat × α)) : assocGet k d (assocDel k l) = d := by
  have hnone : (assocDel k l).find? (fun p => p.1 = k) = none := by simp [assocDel]
  rw [assocGet, hnone]

/-! ## What a record and the fault state leave -/

section
variable {e : RSlot} {g : Fld}

theorem rdR_wrR_off {f : Fld} (hf : f.Ok) (hg : g.Ok) (h : f.off ≠ g.off) (d : RSlot) (v : Nat) (s : State) : (s.wrR d f v).rdR e g = s.rdR e g :=
  State.rd_wr_other hf hg (.inr h)

/-- A record changes the log's block alone. -/
theorem rdR_stageRec_below_log (hg : g.Ok ∧ g.off < 0xE0000) (d : RSlot) {r : LogRec} (hr : r.sev ≤ 7) (s : State) : (stageRec d r s).rdR e g = s.rdR e g := by
  have hkeep (f : Fld) (hf : f.Ok ∧ 0xE0000 ≤ f.off) (v : Nat) (t : State) : (t.wrR d f v).rdR e g = t.rdR e g :=
    rdR_wrR_off hf.1 hg.1 (by have := hf.2; have := hg.2; omega) d v t
  have hbump (f : Fld) (hf : f.Ok ∧ 0xE0000 ≤ f.off) (n : Nat) (t : State) : (t.bump d.code f n).rdR e g = t.rdR e g := hkeep f hf _ t
  have hcounter {k n : Nat} (hk : 0xE0000 ≤ k ∧ k < 0xF0000) (hn : n ≤ 7) : Fld.Ok ⟨k + 16 * (n - 1), 31, 0⟩ ∧ 0xE0000 ≤ k + 16 * (n - 1) :=
    ⟨(logCounter_ofEvents hk hn).1, by omega⟩
  have hraised := hcounter (k := 0xE0020) (by decide) hr
  have hqueued {n : Nat} (hn : n ≤ 7) : (R.LOG_CNT_QUEUED (n - 1)).Ok ∧ 0xE0000 ≤ (R.LOG_CNT_QUEUED (n - 1)).off := hcounter (by decide) hn
  have hdropped {n : Nat} (hn : n ≤ 7) : (R.LOG_CNT_DROPPED (n - 1)).Ok ∧ 0xE0000 ≤ (R.LOG_CNT_DROPPED (n - 1)).off := hcounter (by decide) hn
  unfold stageRec
  extract_lets counted q take
  have hcounted : counted.rdR e g = s.rdR e g := hbump _ hraised 1 s
  have htake (t : State) (l : List LogRec) : (take t l).rdR e g = t.rdR e g := by
    dsimp only [take]
    rw [hkeep _ (by decide), hbump _ (hqueued hr), hkeep _ (by decide), State.rdR_modRind]
  split
  · rw [htake, hcounted]
  · split
    · next v hv =>
      have hsev : v.sev ≤ 7 := Nat.le_trans (by simpa using List.find?_some hv) hr
      rw [htake, hkeep _ (hqueued hsev), hbump _ (hdropped hsev), hcounted]
    · rw [hbump _ (hdropped hr), hcounted]

/-- The fault state shows in FAULT_STAT and FAULT_LAST alone. -/
theorem rdR_enterFault_past (hg : g.Ok ∧ 0xD0004 < g.off) (die src sev : Nat) (s : State) : (enterFault die src sev s).rdR e g = s.rdR e g := by
  have hkeep (t : State) (d : RSlot) (f : Fld) (v : Nat) (hf : f.Ok ∧ f.off ≤ 0xD0004) : (t.wrR d f v).rdR e g = t.rdR e g :=
    rdR_wrR_off hf.1 hg.1 (by have := hf.2; have := hg.2; omega) d v t
  refine foldl_field (fun t => State.rdR t e g) fun t d => ?_
  dsimp only
  rw [State.rdR_modRind, hkeep _ _ _ _ (by decide), hkeep _ _ _ _ (by decide), hkeep _ _ _ _ (by decide), hkeep _ _ _ _ (by decide)]
  split
  · exact hkeep _ _ _ _ (by decide)
  · rfl

end

theorem stageRec_room {d : RSlot} {r : LogRec} {s : State} (h : (s.rind d).island.queue.length < 256) :
    ((stageRec d r s).rind d).island.queue =
      (s.rind d).island.queue ++ [{ r with rseq := (s.bump d.code (R.LOG_CNT_RAISED (r.sev - 1))).rdR d R.LOG_RSEQ_NEXT }] := by
  have hqueue : ((s.bump d.code (R.LOG_CNT_RAISED (r.sev - 1))).rind d).island.queue = (s.rind d).island.queue := by rw [State.bump, State.rind_wr]
  rw [stageRec]
  dsimp only
  rw [if_pos (by rw [hqueue]; exact h), hqueue, State.rind_wrR, State.bump, State.rind_wr, State.rind_wrR, State.rind_modRind]

/-- The queue is no part of the fault state, nor of the actions due. -/
theorem queue_enterFault (die src sev : Nat) (s : State) (d : RSlot) : ((enterFault die src sev s).rind d).island.queue = (s.rind d).island.queue := by
  have hstop (t : State) : ((stopAlive t).rind d).island.queue = (t.rind d).island.queue := by cases d <;> rfl
  rw [enterFault, hstop]
  refine foldl_field (fun t : State => (t.rind d).island.queue) fun t e => ?_
  dsimp only
  by_cases hde : d = e
  · subst hde
    rw [State.rind_modRind, State.rind_wrR, State.rind_wrR, State.rind_wrR, State.rind_wrR]
    split
    · rw [State.rind_wrR]
    · rfl
  · rw [State.rind_modRind_other hde, State.rind_wrR, State.rind_wrR, State.rind_wrR, State.rind_wrR]
    split
    · rw [State.rind_wrR]
    · rfl

theorem rind_fatalAction (d : RSlot) (src : Nat) (s : State) (e : RSlot) : (fatalAction d src s).rind e = s.rind e := by
  have htodo (l : List Todo) : State.rind { s with todo := l } e = s.rind e := by cases e <;> rfl
  unfold fatalAction
  split
  · rfl
  · split
    · exact htodo _
    · split
      · exact htodo _
      · rfl

theorem pins_fatalAction (d : RSlot) (src : Nat) (s : State) : (fatalAction d src s).pins = s.pins := by
  unfold fatalAction
  simp only [apply_ite State.pins, ite_self]

/-! ## An event of a source that is not counted (R542, R543) -/

/-- What stays of such an event before its severity is looked at: its count, and what the island keeps. -/
def eventKept (d : RSlot) (src : Nat) (s : State) : State :=
  eventCounted d src (assocGet src 0 ((s.incR d (R.FAULT_SRC_EVENTS src)).rind d).island.windows + 1) (s.srcEff d src none) false false s

theorem raise_uncounted {d : RSlot} {src : Nat} {detail : List Nat} {s : State} (hused : sourceUsed src = true)
    (hcount : s.bitR d (R.FAULT_SRCCFG_COUNTED src) = false) :
    raise d src detail s = eventActed d d.code src (s.rdR d (R.FAULT_SRCCFG_SEV src)) 0 detail (eventKept d src s) := by
  have hcounted : s.srcCounted d src none = false := by rw [State.srcCounted, hcount]; rfl
  have hfull : s.srcFull d src none = false := by rw [State.srcFull, hcounted]; rfl
  have hsev : s.srcSev d src none = s.rdR d (R.FAULT_SRCCFG_SEV src) := by simp only [State.srcSev, hcounted]; rfl
  rw [raise, raiseFull_used hused, hcounted, hfull, hsev]
  rfl

section
variable {d : RSlot} {src : Nat} {s : State}

theorem eventKept_eq : eventKept d src s = (s.incR d (R.FAULT_SRC_EVENTS src)).modRind d (fun r => { r with
    island := r.island.noted src (assocGet src 0 ((s.incR d (R.FAULT_SRC_EVENTS src)).rind d).island.windows + 1) false false }) := rfl

theorem regsWf_eventKept (hs : s.regsWf = true) : (eventKept d src s).regsWf = true := by
  have hinc : (s.incR d (R.FAULT_SRC_EVENTS src)).regsWf = true := State.regsWf_wrR hs
  rw [eventKept_eq, State.regsWf]
  cases d <;> exact hinc

theorem queue_eventKept : ((eventKept d src s).rind d).island.queue = (s.rind d).island.queue := by
  rw [eventKept_eq, State.rind_modRind, State.incR, State.inc, State.rind_wr]
  rfl

theorem todo_eventKept : (eventKept d src s).todo = s.todo := by cases d <;> rfl

theorem events_eventKept (hs : s.regsWf = true) :
    (eventKept d src s).rdR d (R.FAULT_SRC_EVENTS src) = satAdd (R.FAULT_SRC_EVENTS src).top (s.rdR d (R.FAULT_SRC_EVENTS src)) 1 := by
  rw [eventKept_eq, State.rdR_modRind]
  exact State.rd_inc hs (show 16 ≤ 31 ∧ 31 < 32 by decide)

theorem rdR_eventKept_below {e : RSlot} {g : Fld} (hsrc : src < 0x280) (hg : g.Ok ∧ g.off < 0xD1000) : (eventKept d src s).rdR e g = s.rdR e g := by
  have hevents : (R.FAULT_SRC_EVENTS src).OfEvents := faultSrc_ofEvents (by decide) hsrc
  have hoff : (R.FAULT_SRC_EVENTS src).off = 0xD1000 + 4 * src := rfl
  rw [eventKept_eq, State.rdR_modRind, State.incR, State.inc, ← State.wrR, rdR_wrR_off hevents.1 hg.1 (by omega)]

end

theorem kept_eventKept (d : RSlot) (src : Nat) (s : State) : Kept s (eventKept d src s) := by
  rw [eventKept_eq]
  exact Kept.modRind (fun _ h => h) (Kept.setWord (Kept.refl s))

section
variable {d : RSlot} {die src sev wincnt : Nat} {detail : List Nat} {t : State}

theorem kept_eventStaged {a : State} (h : Kept a t) : Kept a (eventStaged d die src sev wincnt detail t) := by
  unfold eventStaged
  split
  · exact h
  · exact stageRec_kept h

theorem rdR_eventStaged {e : RSlot} {g : Fld} (hg : g.Ok ∧ g.off < 0xE0000) (hsev : sev ≤ 7) :
    (eventStaged d die src sev wincnt detail t).rdR e g = t.rdR e g := by
  unfold eventStaged
  split
  · rfl
  · exact rdR_stageRec_below_log hg d hsev t

theorem rdR_eventActed {e : RSlot} {g : Fld} (hg : g.Ok ∧ 0xD0004 < g.off ∧ g.off < 0xE0000) (hsev : sev ≤ 7) :
    (eventActed d die src sev wincnt detail t).rdR e g = t.rdR e g := by
  have hentered : (if 3 ≤ sev then enterFault die src sev (eventStaged d die src sev wincnt detail t) else eventStaged d die src sev wincnt detail t).rdR e g =
      t.rdR e g := by
    split
    · rw [rdR_enterFault_past ⟨hg.1, hg.2.1⟩, rdR_eventStaged ⟨hg.1, hg.2.2⟩ hsev]
    · exact rdR_eventStaged ⟨hg.1, hg.2.2⟩ hsev
  unfold eventActed
  split
  · rw [rdR_fatalAction, hentered]
  · exact hentered

theorem queue_eventActed : ((eventActed d die src sev wincnt detail t).rind d).island.queue = ((eventStaged d die src sev wincnt detail t).rind d).island.queue := by
  have hentered : ((if 3 ≤ sev then enterFault die src sev (eventStaged d die src sev wincnt detail t) else eventStaged d die src sev wincnt detail t).rind d).island.queue =
      ((eventStaged d die src sev wincnt detail t).rind d).island.queue := by
    split
    · exact queue_enterFault ..
    · rfl
  unfold eventActed
  split
  · rw [rind_fatalAction, hentered]
  · exact hentered

end

theorem todo_stageRec (d : RSlot) (r : LogRec) (s : State) : (stageRec d r s).todo = s.todo := by
  fun_cases stageRec <;> simp +zetaDelta [State.bump]

theorem todo_enterFault (die src sev : Nat) (s : State) : (enterFault die src sev s).todo = s.todo :=
  foldl_field State.todo fun t d => by
    simp only [State.todo_modRind, State.todo_wrR]
    split <;> rfl

theorem todo_eventActed {d : RSlot} {die src sev wincnt : Nat} {detail : List Nat} {t : State} (hsev : sev ≤ 3) :
    (eventActed d die src sev wincnt detail t).todo = t.todo := by
  have hstaged : (eventStaged d die src sev wincnt detail t).todo = t.todo := by
    unfold eventStaged
    split
    · rfl
    · exact todo_stageRec ..
  unfold eventActed
  rw [if_neg (by omega)]
  split
  · rw [todo_enterFault, hstaged]
  · exact hstaged

/-! ## The fault state (R546, R549) -/

theorem alive_eventActed {d : RSlot} {die src sev wincnt : Nat} {detail : List Nat} {t : State} (hsev : 3 ≤ sev) :
    (eventActed d die src sev wincnt detail t).pins.aliveOn = false := by
  unfold eventActed
  rw [if_pos hsev]
  split
  · rw [pins_fatalAction]
    rfl
  · rfl

/-- A die's turn at an event that brings the fault state. -/
def faultEntered (die src sev : Nat) (t : State) (d : RSlot) : State :=
  let t := if t.rdR d R.FAULT_STAT_STATE = 0 then t.wrR d R.FAULT_STAT_STATE 1 else t
  let t := t.wrR d R.FAULT_STAT_QUIET (10 * t.rdR d R.FAULT_CFG_QUIET)
  let t := ((t.wrR d R.FAULT_LAST_SOURCE src).wrR d R.FAULT_LAST_DIE die).wrR d R.FAULT_LAST_SEV sev
  t.modRind d (fun r => { r with island := { r.island with lastBad := t.now } })

theorem regsWf_faultEntered {die src sev : Nat} {t : State} {d : RSlot} (h : t.regsWf = true) : (faultEntered die src sev t d).regsWf = true := by
  have hfirst : (if t.rdR d R.FAULT_STAT_STATE = 0 then t.wrR d R.FAULT_STAT_STATE 1 else t).regsWf = true := by
    split
    · exact State.regsWf_wrR h
    · exact h
  rw [faultEntered]
  dsimp only
  rw [State.regsWf, State.regs_modRind]
  exact State.regsWf_wrR (State.regsWf_wrR (State.regsWf_wrR (State.regsWf_wrR hfirst)))

theorem state_faultEntered {die src sev : Nat} {t : State} {d e : RSlot} (h : t.regsWf = true) : (faultEntered die src sev t d).rdR e R.FAULT_STAT_STATE =
    if e = d ∧ t.rdR d R.FAULT_STAT_STATE = 0 then 1 else t.rdR e R.FAULT_STAT_STATE := by
  have hfirst : (if t.rdR d R.FAULT_STAT_STATE = 0 then t.wrR d R.FAULT_STAT_STATE 1 else t).regsWf = true := by
    split
    · exact State.regsWf_wrR h
    · exact h
  rw [faultEntered]
  dsimp only
  rw [State.rdR_modRind, rdR_wrR_off (by decide) (by decide) (by decide), rdR_wrR_off (by decide) (by decide) (by decide),
    rdR_wrR_off (by decide) (by decide) (by decide), State.rdR_wrR_apart hfirst (by decide) (by decide) (by decide)]
  by_cases hzero : t.rdR d R.FAULT_STAT_STATE = 0
  · rw [if_pos hzero]
    by_cases hed : e = d
    · subst hed
      rw [State.rdR_wrR_self h (by decide), if_pos ⟨rfl, hzero⟩]
      rfl
    · rw [State.rdR_wrR_die (by decide) (by decide) (Ne.symm hed), if_neg (fun hand => hed hand.1)]
  · rw [if_neg hzero, if_neg (fun hand => hzero hand.2)]

theorem state_enterFault {die src sev : Nat} {s : State} {d : RSlot} (hs : s.regsWf = true) (hd : s.hasRind d = true) (hzero : s.rdR d R.FAULT_STAT_STATE = 0) :
    (enterFault die src sev s).rdR d R.FAULT_STAT_STATE = 1 := by
  have hmem : d ∈ s.rinds := by
    unfold State.rinds
    cases d with
    | f0 => split <;> simp
    | f1 => simp [show s.part.f = 2 by simpa [State.hasRind] using hd]
  have hfold : (s.rinds.foldl (faultEntered die src sev) s).regsWf = true ∧ (s.rinds.foldl (faultEntered die src sev) s).rdR d R.FAULT_STAT_STATE = 1 := by
    refine foldl_of_mem_kept (I := fun t => t.regsWf = true ∧ t.rdR d R.FAULT_STAT_STATE ≤ 1)
      (motive := fun t => t.regsWf = true ∧ t.rdR d R.FAULT_STAT_STATE = 1) (faultEntered die src sev) (fun t e ht => ?_) (fun t ht => ?_) (fun t e ht => ?_)
      hmem ⟨hs, by omega⟩
    · obtain ⟨hwf, hle⟩ := ht
      refine ⟨regsWf_faultEntered hwf, ?_⟩
      rw [state_faultEntered hwf]
      split <;> omega
    · obtain ⟨hwf, hle⟩ := ht
      refine ⟨regsWf_faultEntered hwf, ?_⟩
      rw [state_faultEntered hwf]
      split
      · rfl
      · next hnot => exact Nat.le_antisymm hle (Nat.one_le_iff_ne_zero.mpr fun h0 => hnot ⟨rfl, h0⟩)
    · obtain ⟨hwf, hone⟩ := ht
      refine ⟨regsWf_faultEntered hwf, ?_⟩
      rw [state_faultEntered hwf]
      split
      · rfl
      · exact hone
  exact hfold.2

/-! ## Windows and the quiet period (R545 to R547) -/

theorem countWindowExpire_closes {d : RSlot} {src : Nat} {quiet : Bool} {s : State} (hs : s.regsWf = true) (hd : s.hasRind d = true)
    (hused : sourceUsed src = true) (hcount : s.bitR d (R.FAULT_SRCCFG_COUNTED src) = true) :
    ∃ t, exec (.countWindowExpire d src quiet) s = .next t ∧ assocGet src 0 (t.rind d).island.windows = 0 ∧
      t.rdR d (R.FAULT_SRC_EFF src) = (if quiet then min 1 (s.rdR d (R.FAULT_SRCCFG_SEV src)) else s.rdR d (R.FAULT_SRC_EFF src)) ∧
      t.rdR d (R.FAULT_SRC_EVENTS src) = s.rdR d (R.FAULT_SRC_EVENTS src) ∧ t.out = s.out := by
  have hsrc := lt_of_sourceUsed hused
  have heff : (R.FAULT_SRC_EFF src).Ok := (faultSrc_ofEvents (by decide) hsrc).1
  have hevents : (R.FAULT_SRC_EVENTS src).Ok := (faultSrc_ofEvents (by decide) hsrc).1
  have hwf : (modIsland d (fun i => { i with windows := assocDel src i.windows }) s).regsWf = true := by
    rw [modIsland, State.regsWf, State.regs_modRind]
    exact hs
  refine ⟨_, if_pos ⟨hd, hused, hcount⟩, ?_⟩
  cases quiet with
  | false =>
    refine ⟨?_, State.rdR_modRind .., State.rdR_modRind .., State.out_modRind ..⟩
    rw [if_neg Bool.false_ne_true, modIsland, State.rind_modRind]
    exact assocGet_assocDel_self ..
  | true =>
    refine ⟨?_, ?_, ?_, State.out_modRind ..⟩
    · rw [if_pos rfl, State.rind_wrR, modIsland, State.rind_modRind]
      exact assocGet_assocDel_self ..
    · rw [if_pos rfl, if_pos rfl, State.rdR_wrR_self hwf heff]
      refine (Nat.mod_eq_of_lt (Nat.lt_of_le_of_lt (Nat.min_le_left ..) (show 1 < 2 ^ (15 + 1 - 13) by decide))).trans ?_
      rw [modIsland, State.rdR_modRind]
    · rw [if_pos rfl, State.rdR_wrR_apart hwf heff hevents (.inr (.inl (show 15 < 16 by decide)))]
      exact State.rdR_modRind ..

/-- What a step over the Rind dies makes of a die's own view is what its turn there makes of it. -/
theorem foldl_rinds_at {β : Type} {I : State → Prop} {V : State → β} {F : State → RSlot → State} {s : State} {d : RSlot} (hd : d ∈ s.rinds) (hs : I s)
    (hkept : ∀ t e, I t → I (F t e)) (hother : ∀ t e, I t → e ≠ d → V (F t e) = V t) :
    ∃ t, I t ∧ V t = V s ∧ V (s.rinds.foldl F s) = V (F t d) := by
  unfold State.rinds at hd ⊢
  split
  · cases d with
    | f0 => exact ⟨s, hs, rfl, hother _ _ (hkept _ _ hs) (by decide)⟩
    | f1 => exact ⟨F s .f0, hkept _ _ hs, hother _ _ hs (by decide), rfl⟩
  · next hpart =>
    rw [if_neg hpart, List.mem_singleton] at hd
    subst hd
    exact ⟨s, hs, rfl, rfl⟩

/-- What the end of the quiet period looks at on a die. -/
def State.quietView (d : RSlot) (s : State) : Nat × Nat × Bool × List Nat × Nat :=
  (s.rdR d R.FAULT_STAT_STATE, s.rdR d R.FAULT_CFG_LATCHN, (s.rind d).island.freeExit, (s.rind d).island.exits, s.now)

theorem quietView_wrR_other {d e : RSlot} {f : Fld} {v : Nat} {t : State} (hf : f.Ok) (h : e ≠ d) : (t.wrR e f v).quietView d = t.quietView d := by
  rw [State.quietView, State.quietView, State.rdR_wrR_die hf (by decide) h, State.rdR_wrR_die hf (by decide) h, State.rind_wrR]
  rfl

theorem quietView_modIsland_other {d e : RSlot} {f : Island → Island} {t : State} (h : e ≠ d) : (modIsland e f t).quietView d = t.quietView d := by
  rw [State.quietView, State.quietView, modIsland, State.rdR_modRind, State.rdR_modRind, State.rind_modRind_other h.symm, State.now_modRind]

theorem quietView_leaveFault_other {d e : RSlot} {t : State} (h : e ≠ d) : (leaveFault e t).quietView d = t.quietView d := by
  unfold leaveFault
  dsimp only
  split
  · rw [quietView_modIsland_other h, quietView_wrR_other (by decide) h]
  · split
    · exact quietView_wrR_other (by decide) h
    · rw [quietView_wrR_other (by decide) h, quietView_modIsland_other h, State.incR, State.inc, ← State.wrR, quietView_wrR_other (by decide) h,
        quietView_wrR_other (by decide) h]

theorem regsWf_leaveFault {d : RSlot} {t : State} (h : t.regsWf = true) : (leaveFault d t).regsWf = true := (leaveFault_kept (Kept.refl t)).regs h

/-- How many recoveries of a die lie within the hour. -/
def State.recentExits (s : State) (d : RSlot) : Nat := ((s.rind d).island.exits.filter (fun x => s.now < x + 3600000000)).length

theorem state_leaveFault {d : RSlot} {t : State} (h : t.regsWf = true) : (leaveFault d t).rdR d R.FAULT_STAT_STATE =
    if (t.rind d).island.freeExit then 0 else if t.rdR d R.FAULT_CFG_LATCHN ≤ t.recentExits d then 2 else 0 := by
  have hzero : (t.wrR d R.FAULT_STAT_STATE 0).rdR d R.FAULT_STAT_STATE = 0 := by
    rw [State.rdR_wrR_self h (by decide), Nat.zero_mod]
  unfold leaveFault
  dsimp only
  split
  · rw [modIsland, State.rdR_modRind, hzero]
  · rw [State.recentExits]
    split
    · rw [State.rdR_wrR_self h (by decide)]
      rfl
    · have hwf : ((t.wrR d R.FAULT_STAT_STATE 0).incR d R.FAULT_RECOV_COUNT).regsWf = true := State.regsWf_wrR (State.regsWf_wrR h)
      rw [State.rdR_wrR_apart (by rw [modIsland, State.regsWf, State.regs_modRind]; exact hwf) (by decide) (by decide) (by decide), modIsland, State.rdR_modRind,
        State.incR, State.inc, ← State.wrR, rdR_wrR_off (by decide) (by decide) (by decide), hzero]

/-- A die's turn at the end of the quiet period. -/
def quietTurn (t : State) (d : RSlot) : State := if t.rdR d R.FAULT_STAT_STATE = 1 then leaveFault d t else t

theorem quietExpire_leaves {s : State} (hs : s.regsWf = true) : ∃ t, exec .quietExpire s = .next t ∧ ∀ d ∈ s.rinds,
    (s.rdR d R.FAULT_STAT_STATE ≠ 1 → t.rdR d R.FAULT_STAT_STATE = s.rdR d R.FAULT_STAT_STATE) ∧
    (s.rdR d R.FAULT_STAT_STATE = 1 → t.rdR d R.FAULT_STAT_STATE = (if (s.rind d).island.freeExit then 0
      else if s.rdR d R.FAULT_CFG_LATCHN ≤ ((s.rind d).island.exits.filter (fun x => s.now < x + 3600000000)).length then 2 else 0)) := by
  refine ⟨s.rinds.foldl quietTurn s, rfl, fun d hd => ?_⟩
  obtain ⟨t, ht, hview, hfold⟩ := foldl_rinds_at (I := fun t => t.regsWf = true) (V := State.quietView d) (F := quietTurn) hd hs
    (fun t e ht => by
      unfold quietTurn
      split
      · exact regsWf_leaveFault ht
      · exact ht)
    (fun t e _ he => by
      unfold quietTurn
      split
      · exact quietView_leaveFault_other he
      · rfl)
  simp only [State.quietView, Prod.mk.injEq] at hview hfold
  obtain ⟨hstate, hlatchn, hfree, hexits, hnow⟩ := hview
  rw [hfold.1, quietTurn, ← hstate, ← hlatchn, ← hfree, ← hexits, ← hnow]
  refine ⟨fun hne => by rw [if_neg hne], fun hone => ?_⟩
  rw [if_pos hone]
  exact state_leaveFault ht

/-- Settles O54: the stages of an event, the windows, and the dies' turns at the end of the quiet period. -/
theorem faultsAndWindows : Obligations.FaultsAndWindows := by
  unfold Obligations.FaultsAndWindows
  refine ⟨fun d src detail s hd hsrc => ?_, fun d src detail s hd hsrc => ?_, fun d die src detail fix s => raiseFull_unused,
    fun d src detail s hs hused hcount => ?_, fun d src quiet s => countWindowExpire_closes, fun s => quietExpire_leaves,
    fun s => ⟨fun h => if_pos h, fun h => if_neg h⟩, fun s => ⟨rfl, fun h => if_neg h⟩⟩
  · rw [show exec (.faultRaise d src detail) s = execFaultRaise d src detail s from rfl, execFaultRaise, if_pos hd, if_pos hsrc]
  · rw [show exec (.faultRaise d src detail) s = execFaultRaise d src detail s from rfl, execFaultRaise, if_pos hd, if_neg (by omega)]
  · have hsrc := lt_of_sourceUsed hused
    have hsev : s.rdR d (R.FAULT_SRCCFG_SEV src) ≤ 7 := Nat.le_of_lt_succ (Fld.get_lt _ _ (show 29 ≤ 31 ∧ 31 < 32 by decide))
    have hevents : (R.FAULT_SRC_EVENTS src).OfEvents := faultSrc_ofEvents (by decide) hsrc
    have hoff : (R.FAULT_SRC_EVENTS src).off = 0xD1000 + 4 * src := rfl
    rw [raise_uncounted hused hcount]
    refine ⟨?_, fun h => ?_, fun h hroom => ?_, fun h => ?_, fun h => ⟨alive_eventActed h, fun hd hzero => ?_⟩⟩
    · rw [rdR_eventActed ⟨hevents.1, by omega, by omega⟩ hsev, events_eventKept hs]
    · rw [queue_eventActed, eventStaged, if_pos h, queue_eventKept]
    · rw [queue_eventActed, eventStaged, if_neg (by omega), stageRec_room (by rw [queue_eventKept]; exact hroom), queue_eventKept]
      exact ⟨_, rfl, rfl, rfl, rfl⟩
    · rw [todo_eventActed h, todo_eventKept]
    · have hstaged : (eventStaged d d.code src (s.rdR d (R.FAULT_SRCCFG_SEV src)) 0 detail (eventKept d src s)).rdR d R.FAULT_STAT_STATE = 0 := by
        rw [rdR_eventStaged (by decide) hsev, rdR_eventKept_below hsrc (by decide), hzero]
      have hkept := kept_eventStaged (d := d) (die := d.code) (src := src) (sev := s.rdR d (R.FAULT_SRCCFG_SEV src)) (wincnt := 0) (detail := detail) (kept_eventKept d src s)
      have hentered := state_enterFault (die := d.code) (src := src) (sev := s.rdR d (R.FAULT_SRCCFG_SEV src)) (hkept.regs hs)
        (by rw [State.hasRind, hkept.part]; exact hd) hstaged
      rw [eventActed, if_pos h]
      split
      · rw [rdR_fatalAction, hentered]
      · exact hentered

end Sys2Proof.Machine
end

section
/-! The ripening log's writer and the tallies: O55 (R558 to R567). -/

namespace Sys2Proof.Machine

/-! ## The writer (R559, R560) -/

/-- The slot of a record is used, and a good read-back leaves the record in it. -/
def logProgrammed (r : LogRec) (i : Nat) (good : Bool) (s : State) : State :=
  ({ s with flash := { s.flash with
      log := modAt i (fun x => { x with used := x.used + 1, recs := if good then x.recs ++ [r] else x.recs }) s.flash.log } }.emit
    (.logProgram r (s.logAddr (s.flash.log.getD i {}) (s.flash.log.getD i {}).used))).wrR s.flashOwner R.LOG_STAT_RESERVE
      (bit (0 < erasedSectors (modAt i (fun x => { x with used := x.used + 1, recs := if good then x.recs ++ [r] else x.recs }) s.flash.log)))

section
variable {r : LogRec} {i : Nat} {s : State} (hdriven : s.pins.sfDriven = true) (hnext : nextRecord s.flashOwner s = some r)
include hdriven hnext

theorem exec_logRecordProgrammed (good : Bool) (hslot : logSlot (r.sev = 4) s.flash.log = some i) : exec (.logRecordProgrammed good) s =
    .next (if good then unstage s.flashOwner r true (logProgrammed r i good s)
      else if 3 ≤ ((logProgrammed r i good s).rind s.flashOwner).island.tries + 1 then unstage s.flashOwner r false (logProgrammed r i good s)
      else modIsland s.flashOwner (fun i => { i with tries := i.tries + 1 }) (logProgrammed r i good s)) := by
  rw [show exec (.logRecordProgrammed good) s = execLogRecordProgrammed good s from rfl, execLogRecordProgrammed]
  simp only [hdriven, hnext, hslot, apply_ite Host.Outcome.next]
  rfl

end

theorem island_logProgrammed (r : LogRec) (i : Nat) (good : Bool) (s : State) (d : RSlot) : ((logProgrammed r i good s).rind d).island = (s.rind d).island := by
  cases d <;> rfl

/-- A record that leaves the queue changes the island of its die and registers alone. -/
theorem unstage_field {β : Type} (π : State → β) (hwr : ∀ s die f v, π (State.wr s die f v) = π s) (hmod : ∀ s d h, π (State.modRind s d h) = π s)
    (d : RSlot) (r : LogRec) (stored : Bool) (s : State) : π (unstage d r stored s) = π s := by
  rw [unstage, State.bump, hwr, State.wrR, hwr, State.wrR, hwr, modIsland, hmod]

theorem queue_unstage (d : RSlot) (r : LogRec) (stored : Bool) (s : State) : ((unstage d r stored s).rind d).island.queue = (s.rind d).island.queue.erase r := by
  rw [unstage, State.bump, State.rind_wr, State.rind_wrR, State.rind_wrR, modIsland, State.rind_modRind]

section
variable {r : LogRec} {i : Nat} {s : State} (hdriven : s.pins.sfDriven = true) (hnext : nextRecord s.flashOwner s = some r)
include hdriven hnext

theorem logRecordProgrammed_good (hslot : logSlot (r.sev = 4) s.flash.log = some i) :
    ∃ t, exec (.logRecordProgrammed true) s = .next t ∧
      t.out = .logProgram r (s.logAddr (s.flash.log.getD i {}) (s.flash.log.getD i {}).used) :: s.out ∧
      (t.rind s.flashOwner).island.queue = (s.rind s.flashOwner).island.queue.erase r ∧
      t.flash.log = modAt i (fun x => { x with used := x.used + 1, recs := x.recs ++ [r] }) s.flash.log ∧ t.cmds = s.cmds := by
  refine ⟨_, exec_logRecordProgrammed hdriven hnext true hslot, ?_⟩
  rw [if_pos rfl]
  refine ⟨?_, ?_, ?_, ?_⟩
  · rw [unstage_field State.out (fun _ _ _ _ => rfl) (fun _ _ _ => State.out_modRind ..)]
    rfl
  · rw [queue_unstage, island_logProgrammed]
  · rw [unstage_field (fun t => t.flash.log) (fun _ _ _ _ => rfl) (fun _ _ _ => by rw [State.flash_modRind])]
    rfl
  · rw [unstage_field State.cmds (fun _ _ _ _ => rfl) (fun _ _ _ => State.cmds_modRind ..)]
    rfl

theorem logRecordProgrammed_bad (hslot : logSlot (r.sev = 4) s.flash.log = some i) :
    ∃ t, exec (.logRecordProgrammed false) s = .next t ∧
      t.out = .logProgram r (s.logAddr (s.flash.log.getD i {}) (s.flash.log.getD i {}).used) :: s.out ∧
      t.flash.log = modAt i (fun x => { x with used := x.used + 1 }) s.flash.log ∧
      ((s.rind s.flashOwner).island.tries + 1 < 3 → (t.rind s.flashOwner).island.queue = (s.rind s.flashOwner).island.queue ∧
        (t.rind s.flashOwner).island.tries = (s.rind s.flashOwner).island.tries + 1) ∧
      (3 ≤ (s.rind s.flashOwner).island.tries + 1 → (t.rind s.flashOwner).island.queue = (s.rind s.flashOwner).island.queue.erase r) := by
  refine ⟨_, exec_logRecordProgrammed hdriven hnext false hslot, ?_⟩
  rw [if_neg Bool.false_ne_true, island_logProgrammed]
  by_cases htries : 3 ≤ (s.rind s.flashOwner).island.tries + 1
  · rw [if_pos htries]
    refine ⟨?_, ?_, fun h => absurd htries (by omega), fun _ => by rw [queue_unstage, island_logProgrammed]⟩
    · rw [unstage_field State.out (fun _ _ _ _ => rfl) (fun _ _ _ => State.out_modRind ..)]
      rfl
    · rw [unstage_field (fun t => t.flash.log) (fun _ _ _ _ => rfl) (fun _ _ _ => by rw [State.flash_modRind])]
      rfl
  · rw [if_neg htries]
    refine ⟨State.out_modRind .., ?_, fun _ => ?_, fun h => absurd h htries⟩
    · rw [modIsland, State.flash_modRind]
      rfl
    · rw [modIsland, State.rind_modRind]
      have hisland := island_logProgrammed r i false s s.flashOwner
      exact ⟨congrArg (fun x => x.queue) hisland, congrArg (fun x => x.tries + 1) hisland⟩

theorem logSectorErased_erases {v : LogSector} (hslot : logSlot (r.sev = 4) s.flash.log = none)
    (hold : oldestSector (fun x => x.recs.all (fun q => q.sev ≤ r.sev)) s.flash.log = some v) :
    ∃ t, exec .logSectorErased s = .next t ∧ t.out = .logErase (s.logAddr v 0) :: s.out ∧ t.flash.log = s.flash.log.erase v ++ [({ pos := v.pos } : LogSector)] ∧
      (t.rind s.flashOwner).island.queue = (s.rind s.flashOwner).island.queue := by
  refine ⟨(({ s with flash := { s.flash with log := s.flash.log.erase v ++ [({ pos := v.pos } : LogSector)] } }).emit (.logErase (s.logAddr v 0))).wrR s.flashOwner
      R.LOG_STAT_RESERVE 1, ?_, rfl, rfl, by rw [State.rind_wrR, State.rind_emit]; cases s.flashOwner <;> rfl⟩
  rw [show exec .logSectorErased s = execLogSectorErased s from rfl, execLogSectorErased]
  simp only [hdriven, hnext, hslot, hold]
  rfl

end

/-! ## The scan (R559, R562) -/

theorem flashOwner_congr {s t : State} (hpart : t.part = s.part) (h : ∀ d, t.rdR d R.DEV_PINSTAT_SFOWN = s.rdR d R.DEV_PINSTAT_SFOWN) :
    t.flashOwner = s.flashOwner := by
  simp only [State.flashOwner, State.bitR, hpart, h]
  rfl

/-- The numbers that go on from the highest found, with the queue. -/
def scanRead (d : RSlot) (s : State) : State :=
  let s := modIsland d (fun i => { i with scanned := true }) s
  let recs := s.flash.log.flatMap LogSector.recs
  let base := if recs.isEmpty then 0 else nextRseq ((recs.map LogRec.rseq).foldl max 0)
  let s := s.wrR d R.LOG_PCYC_COUNT ((recs.map LogRec.pcyc).foldl max 0 + 1)
  let s := s.wrR d R.LOG_OPSEC_SEC ((recs.map LogRec.opsec).foldl max 0)
  let s := modIsland d (fun i => { i with queue := i.queue.map (fun r => { r with rseq := r.rseq + base }) }) s
  s.wrR d R.LOG_RSEQ_NEXT (s.rdR d R.LOG_RSEQ_NEXT + base)

/-- What the first scan since power-on reset makes of a die. -/
def scanTaken (d : RSlot) (s : State) : State :=
  ((scanRead d s).wrR d R.LOG_STAT_SCANNED 1).wrR d R.LOG_STAT_RESERVE (bit (0 < erasedSectors (scanRead d s).flash.log))

theorem regsWf_modIsland {d : RSlot} {f : Island → Island} {s : State} (h : s.regsWf = true) : (modIsland d f s).regsWf = true := by
  rw [modIsland, State.regsWf, State.regs_modRind]
  exact h

theorem regsWf_scanRead {d : RSlot} {s : State} (h : s.regsWf = true) : (scanRead d s).regsWf = true := by
  unfold scanRead
  exact State.regsWf_wrR (regsWf_modIsland (State.regsWf_wrR (State.regsWf_wrR (regsWf_modIsland h))))

theorem scanned_scanTaken {d : RSlot} {s : State} (h : s.regsWf = true) : (scanTaken d s).bitR d R.LOG_STAT_SCANNED = true := by
  have hone : (scanTaken d s).rdR d R.LOG_STAT_SCANNED = 1 := by
    rw [scanTaken, State.rdR_wrR_apart (State.regsWf_wrR (regsWf_scanRead h)) (by decide) (by decide) (by decide),
      State.rdR_wrR_self (regsWf_scanRead h) (by decide)]
    rfl
  rw [State.bitR, hone]
  rfl

theorem flashOwner_scanTaken (d : RSlot) (s : State) : (scanTaken d s).flashOwner = s.flashOwner := by
  refine flashOwner_congr (by simp [scanTaken, scanRead, modIsland]) fun e => ?_
  simp only [scanTaken, scanRead, modIsland, State.rdR_modRind]
  rw [rdR_wrR_off (by decide) (by decide) (by decide), rdR_wrR_off (by decide) (by decide) (by decide), rdR_wrR_off (by decide) (by decide) (by decide),
    State.rdR_modRind, rdR_wrR_off (by decide) (by decide) (by decide), rdR_wrR_off (by decide) (by decide) (by decide), State.rdR_modRind]

theorem logScanDone_scans {d : RSlot} {s : State} (hs : s.regsWf = true) (hd : s.hasRind d = true) (hscanned : (s.rind d).island.scanned = false) :
    ∃ v, v.cmds = s.cmds ∧ v.bitR d R.LOG_STAT_SCANNED = true ∧ (v.rind d).island.queue.map LogRec.source = (s.rind d).island.queue.map LogRec.source ∧
      exec (.logScanDone d) s = .next (settle (if s.flashOwner = d then raise d 0x0C4 [] v else v)) := by
  refine ⟨scanTaken d s, by simp [scanTaken, scanRead, modIsland], scanned_scanTaken hs, ?_, ?_⟩
  · have hqueue : ((scanTaken d s).rind d).island.queue = (s.rind d).island.queue.map (fun r => { r with rseq := r.rseq +
        (if (s.flash.log.flatMap LogSector.recs).isEmpty then 0 else nextRseq (((s.flash.log.flatMap LogSector.recs).map LogRec.rseq).foldl max 0)) }) := by
      cases d <;> rfl
    rw [hqueue, List.map_map]
    rfl
  · rw [show exec (.logScanDone d) s = execLogScanDone d s from rfl, execLogScanDone, if_neg (by simp [hscanned]), if_pos hd, ← flashOwner_scanTaken d s]
    rfl

theorem logWriterTakeover_hands {s : State} (hs : s.regsWf = true) (hpart : s.part.f = 2) :
    ∃ t, exec .logWriterTakeover s = .next t ∧ t.bitR s.flashOwner.peer R.DEV_PINSTAT_SFOWN = true ∧
      t.bitR s.flashOwner R.DEV_PINSTAT_SFOWN = false ∧ t.flashOwner = s.flashOwner.peer ∧ t.flash = s.flash := by
  have htaken (d : RSlot) : ((s.wrR d.peer R.DEV_PINSTAT_SFOWN 1).wrR d R.DEV_PINSTAT_SFOWN 0).bitR d.peer R.DEV_PINSTAT_SFOWN = true := by
    rw [State.bitR, State.rdR_wrR_die (by decide) (by decide) (RSlot.ne_peer d), State.rdR_wrR_self hs (by decide)]
    rfl
  have hleft (d : RSlot) : ((s.wrR d.peer R.DEV_PINSTAT_SFOWN 1).wrR d R.DEV_PINSTAT_SFOWN 0).bitR d R.DEV_PINSTAT_SFOWN = false := by
    rw [State.bitR, State.rdR_wrR_self (State.regsWf_wrR hs) (by decide)]
    rfl
  have hpeer : s.flashOwner.peer.peer = s.flashOwner := by cases s.flashOwner <;> rfl
  refine ⟨(s.wrR s.flashOwner.peer R.DEV_PINSTAT_SFOWN 1).wrR s.flashOwner R.DEV_PINSTAT_SFOWN 0, ?_, htaken _, hleft _, ?_, rfl⟩
  · rw [show exec .logWriterTakeover s = execLogWriterTakeover s from rfl, execLogWriterTakeover, if_pos hpart]
    dsimp only
    rw [hpeer]
  · cases howner : s.flashOwner with
    | f0 =>
      have hf1 := htaken .f0
      have hf0 := hleft .f0
      exact if_pos ⟨hpart, hf1, by rw [hf0]; rfl⟩
    | f1 =>
      have hf0 := htaken .f1
      exact if_neg fun h => by simp [show ((s.wrR RSlot.f1.peer R.DEV_PINSTAT_SFOWN 1).wrR .f1 R.DEV_PINSTAT_SFOWN 0).bitR .f0 R.DEV_PINSTAT_SFOWN = true from hf0] at h

/-! ## The freeze (R561) -/

theorem logFreezeLapse_unfreezes {s : State} (hs : s.regsWf = true) : ∃ t, exec .logFreezeLapse s = .next t ∧
    (∀ d ∈ s.rinds, t.bitR d R.LOG_STAT_FROZEN = false ∧ t.bitR d R.LOG_CTL_FREEZE = false) ∧ t.flash = s.flash ∧ t.out = s.out := by
  refine ⟨s.rinds.foldl (fun t d => setFreeze false d t) s, rfl, fun d hd => ?_, foldl_field (fun t => t.flash) (f := fun t d => setFreeze false d t) fun _ _ => rfl,
    foldl_field State.out (f := fun t d => setFreeze false d t) fun _ _ => rfl⟩
  have hfroze : (s.rinds.foldl (fun t d => setFreeze false d t) s).Froze d false :=
    foldl_of_mem_kept (I := fun t => t.regsWf = true) (fun t d => setFreeze false d t) (fun _ _ => regsWf_setFreeze) (fun _ => froze_setFreeze_self)
      (fun _ e ht => if hde : d = e then hde ▸ froze_setFreeze_self ht.wf else froze_setFreeze_other hde ht) hd hs
  exact ⟨by rw [State.bitR, hfroze.stat]; rfl, by rw [State.bitR, hfroze.ctl]; rfl⟩

theorem nextRecord_frozen {d : RSlot} {r : LogRec} {s : State} (hfrozen : s.bitR d R.LOG_STAT_FROZEN = true) (hnext : nextRecord d s = some r) : r.sev = 4 := by
  rw [nextRecord] at hnext
  split at hnext
  · cases hnext
  · rw [hfrozen, Bool.true_or, if_pos rfl] at hnext
    simpa using List.find?_some hnext

/-! ## The tallies (R564 to R567) -/

theorem eventLedger_holds {d : RSlot} {s : State} {v : Nat} : (eventLedger d s v).holds = true ↔
    (s.rdR d (R.LOG_CNT_STORED (v - 1)) + s.rdR d (R.LOG_CNT_DROPPED (v - 1)) + s.rdR d (R.LOG_CNT_QUEUED (v - 1))) % 2 ^ 32 =
      s.rdR d (R.LOG_CNT_RAISED (v - 1)) % 2 ^ 32 := by
  simp [eventLedger, Ledger.holds, Ledger.sum]

/-- A record that finds room is counted as raised and as queued; the rest of its staging lies in other registers and in the island. -/
theorem stageRec_counts {d : RSlot} {r : LogRec} {s : State} (hroom : (s.rind d).island.queue.length < 256) :
    ∃ (h : RindDie → RindDie) (n k : Nat) (u : State),
      u = ((s.wrR d (R.LOG_CNT_RAISED (r.sev - 1)) (s.rdR d (R.LOG_CNT_RAISED (r.sev - 1)) + 1)).modRind d h).wrR d R.LOG_RSEQ_NEXT n ∧
      stageRec d r s = (u.wrR d (R.LOG_CNT_QUEUED (r.sev - 1)) (u.rdR d (R.LOG_CNT_QUEUED (r.sev - 1)) + 1)).wrR d R.LOG_STAT_QUEUED k := by
  have hqueue : ((s.bump d.code (R.LOG_CNT_RAISED (r.sev - 1))).rind d).island.queue.length < 256 := by rw [State.bump, State.rind_wr]; exact hroom
  exact ⟨_, _, _, _, rfl, if_pos hqueue⟩

/-- The counters of a severity as a record of it is staged in a queue with room. -/
theorem rdR_stageRec_room {d : RSlot} {r : LogRec} {s : State} (hs : s.regsWf = true) (hsev : r.sev ≤ 4) (hroom : (s.rind d).island.queue.length < 256) :
    (stageRec d r s).rdR d (R.LOG_CNT_RAISED (r.sev - 1)) = (s.rdR d (R.LOG_CNT_RAISED (r.sev - 1)) + 1) % 2 ^ 32 ∧
    (stageRec d r s).rdR d (R.LOG_CNT_QUEUED (r.sev - 1)) = (s.rdR d (R.LOG_CNT_QUEUED (r.sev - 1)) + 1) % 2 ^ 32 ∧
    (stageRec d r s).rdR d (R.LOG_CNT_STORED (r.sev - 1)) = s.rdR d (R.LOG_CNT_STORED (r.sev - 1)) ∧
    (stageRec d r s).rdR d (R.LOG_CNT_DROPPED (r.sev - 1)) = s.rdR d (R.LOG_CNT_DROPPED (r.sev - 1)) := by
  have hok (k : Nat) (hk : k < 0xF0000) : Fld.Ok ⟨k + 16 * (r.sev - 1), 31, 0⟩ := ⟨Nat.zero_le _, Nat.le_refl 32, by dsimp only; omega⟩
  have hraised : (R.LOG_CNT_RAISED (r.sev - 1)).Ok ∧ (R.LOG_CNT_RAISED (r.sev - 1)).off = 0xE0020 + 16 * (r.sev - 1) := ⟨hok _ (by decide), rfl⟩
  have hstored : (R.LOG_CNT_STORED (r.sev - 1)).Ok ∧ (R.LOG_CNT_STORED (r.sev - 1)).off = 0xE0024 + 16 * (r.sev - 1) := ⟨hok _ (by decide), rfl⟩
  have hdropped : (R.LOG_CNT_DROPPED (r.sev - 1)).Ok ∧ (R.LOG_CNT_DROPPED (r.sev - 1)).off = 0xE0028 + 16 * (r.sev - 1) := ⟨hok _ (by decide), rfl⟩
  have hqueued : (R.LOG_CNT_QUEUED (r.sev - 1)).Ok ∧ (R.LOG_CNT_QUEUED (r.sev - 1)).off = 0xE002C + 16 * (r.sev - 1) := ⟨hok _ (by decide), rfl⟩
  have hnext : R.LOG_RSEQ_NEXT.Ok ∧ R.LOG_RSEQ_NEXT.off = 0xE0008 := by decide
  have hshown : R.LOG_STAT_QUEUED.Ok ∧ R.LOG_STAT_QUEUED.off = 0xE0000 := by decide
  obtain ⟨h, n, k, u, hu, hstage⟩ := stageRec_counts (r := r) hroom
  have hwf : u.regsWf = true := by
    rw [hu]
    refine State.regsWf_wrR ?_
    rw [State.regsWf, State.regs_modRind]
    exact State.regsWf_wrR hs
  have hread (f : Fld) (hf : f.Ok) (hfar : f.off ≠ 0xE0008 ∧ f.off ≠ 0xE0020 + 16 * (r.sev - 1)) : u.rdR d f = s.rdR d f := by
    rw [hu, rdR_wrR_off hnext.1 hf (by omega), State.rdR_modRind, rdR_wrR_off hraised.1 hf (by omega)]
  rw [hstage]
  refine ⟨?_, ?_, ?_, ?_⟩
  · rw [rdR_wrR_off hshown.1 hraised.1 (by omega), rdR_wrR_off hqueued.1 hraised.1 (by omega), hu, rdR_wrR_off hnext.1 hraised.1 (by omega), State.rdR_modRind,
      State.rdR_wrR_self hs hraised.1]
    rfl
  · rw [rdR_wrR_off hshown.1 hqueued.1 (by omega), State.rdR_wrR_self hwf hqueued.1, hread _ hqueued.1 (by omega)]
    rfl
  · rw [rdR_wrR_off hshown.1 hstored.1 (by omega), rdR_wrR_off hqueued.1 hstored.1 (by omega), hread _ hstored.1 (by omega)]
  · rw [rdR_wrR_off hshown.1 hdropped.1 (by omega), rdR_wrR_off hqueued.1 hdropped.1 (by omega), hread _ hdropped.1 (by omega)]

theorem eventLedger_stageRec {d : RSlot} {r : LogRec} {s : State} (hs : s.regsWf = true) (hsev : r.sev ≤ 4) (hroom : (s.rind d).island.queue.length < 256)
    (hholds : (eventLedger d s r.sev).holds = true) : (eventLedger d (stageRec d r s) r.sev).holds = true := by
  obtain ⟨hraised, hqueued, hstored, hdropped⟩ := rdR_stageRec_room hs hsev hroom
  rw [eventLedger_holds] at hholds ⊢
  rw [hraised, hqueued, hstored, hdropped]
  omega

theorem rind_putLedgers (d : RSlot) (l : List (List Nat)) (s : State) (e : RSlot) : (putLedgers d l s).rind e = s.rind e := by
  have hrun (die : Nat) : ∀ (ws : List Nat) (off : Nat) (t : State), (wrRun die off ws t).rind e = t.rind e := by
    intro ws
    induction ws with
    | nil => exact fun _ _ => rfl
    | cons w ws ih => exact fun off t => (ih _ _).trans (State.rind_setWord ..)
  rw [putLedgers]
  exact (State.rind_wrR ..).trans (hrun ..)

theorem cmds_putLedgers (d : RSlot) (l : List (List Nat)) (s : State) : (putLedgers d l s).cmds = s.cmds := by
  have hrun (die : Nat) : ∀ (ws : List Nat) (off : Nat) (t : State), (wrRun die off ws t).cmds = t.cmds := by
    intro ws
    induction ws with
    | nil => exact fun _ _ => rfl
    | cons w ws ih => exact fun off t => ih _ _
  exact hrun ..

theorem tallySnapshot_counts (d : RSlot) (s : State) :
    ((tallySnapshot d s).rind d).island.snaps = (s.rind d).island.snaps + 1 ∧ (tallySnapshot d s).cmds = s.cmds := by
  constructor
  · simp only [tallySnapshot, State.rind_wrR, State.rind_modRind, rind_putLedgers]
  · simp only [tallySnapshot, State.cmds_wrR, State.cmds_modRind, cmds_putLedgers]

/-- Settles O55: the writer's commands by their branches, the lapse on every die, and the event ledger by the counters of a staged record. -/
theorem ripeningLogAndTallies : Obligations.RipeningLogAndTallies := by
  unfold Obligations.RipeningLogAndTallies
  refine ⟨fun r i s => logRecordProgrammed_good, fun r i s => logRecordProgrammed_bad, fun r v s hdriven hnext => logSectorErased_erases hdriven hnext, fun d s hd hscanned => if_pos ⟨hd, hscanned⟩,
    fun d s => logScanDone_scans, fun s => logWriterTakeover_hands, fun d s hd howner => ?_, fun s => logFreezeLapse_unfreezes, fun d r s => nextRecord_frozen,
    fun d r s hs _ hsev hroom _ => eventLedger_stageRec hs hsev hroom, fun d s hd hf halone => ?_, fun d s hd hf => ?_, tallySnapshot_counts⟩
  · exact congrArg (fun t => Host.Outcome.next (settle t)) (if_pos ⟨hd, howner⟩)
  · exact congrArg Host.Outcome.next (if_pos ⟨hd, by rw [hf]; rfl, halone⟩)
  · exact if_pos ⟨hd, by rw [hf]; rfl⟩

end Sys2Proof.Machine
end

section
/-! Buffer memory: O43 (R396 to R399, R402 to R406, R408, R410 to R412). -/

namespace Sys2Proof.Machine

/-! ## The buffer memory of a die after a change of it -/

theorem bmem_modBmem (d : RSlot) (f : Bmem → Bmem) (s : State) : ((modBmem d f s).rind d).bmem = f (s.rind d).bmem := by rw [modBmem, State.rind_modRind]

theorem regs_modBmem (d : RSlot) (f : Bmem → Bmem) (s : State) : (modBmem d f s).regs = s.regs := State.regs_modRind ..

theorem bmemFree_fills (d : RSlot) : BmemFree (fun s => (s.rind d).cave.fills) := bmemFree_rind (π := fun r => r.cave.fills) (fun _ _ => rfl) (fun _ _ => rfl) d

/-! ## Reading what was written (R396, R397, R402, R405) -/

theorem Sparse.getRun_congr {α : Type} {dflt : Nat → α} {l m : List (Nat × α)} : ∀ {n k : Nat}, (∀ a, k ≤ a → a < k + n → Sparse.get dflt a l = Sparse.get dflt a m) →
    Sparse.getRun dflt k n l = Sparse.getRun dflt k n m
  | 0, _, _ => rfl
  | n + 1, k, h => congrArg₂ List.cons (h k (Nat.le_refl k) (by omega)) (Sparse.getRun_congr fun a hk ha => h a (by omega) (by omega))

section
variable {d : RSlot} {cw : Nat} {data : List Byte} {s : State}

theorem bmem_writeCw : ((writeCw d cw data s).rind d).bmem = { (s.rind d).bmem with
    cells := Sparse.putRun zeroByte (16 * cw) data (s.rind d).bmem.cells
    errs := assocDel cw (s.rind d).bmem.errs
    poison := (s.rind d).bmem.poison.filter (· ≠ cw)
    rows := assocPut (s.bankRow d cw).1 (s.bankRow d cw).2 (s.rind d).bmem.rows
    wrote := assocPut (s.bankRow d cw).1 (s.bankRow d cw).2 (s.rind d).bmem.wrote } := by
  have hbank (f : Bmem → Bmem) : (modBmem d f s).bankRow d cw = s.bankRow d cw := by cases d <;> rfl
  rw [writeCw, writeRow, bmem_modBmem, bmem_modBmem, hbank]

theorem cwData_writeCw_self (hlen : data.length = 16) (hwf : Memory.wf (s.rind d).bmem.cells = true) : (writeCw d cw data s).cwData d cw = data := by
  rw [State.cwData, bmem_writeCw]
  have hself := Sparse.getRun_putRun_self (dflt := zeroByte) data (k := 16 * cw) hwf
  rwa [hlen] at hself

theorem cwData_writeCw_other (hlen : data.length = 16) {x : Nat} (hx : x ≠ cw) : (writeCw d cw data s).cwData d x = s.cwData d x := by
  rw [State.cwData, bmem_writeCw]
  exact Sparse.getRun_congr fun a hle hlt => Sparse.get_putRun_other data (by omega)

theorem not_poisoned_writeCw : cw ∉ ((writeCw d cw data s).rind d).bmem.poison := by
  rw [bmem_writeCw]
  simp

theorem cwSyms_writeCw (hlen : data.length = 16) (hwf : Memory.wf (s.rind d).bmem.cells = true) :
    (writeCw d cw data s).cwSyms d cw = encodeCw (data.map BitVec.toNat) := by
  have hclean : ((writeCw d cw data s).rind d).bmem.errs.find? (fun p => p.1 = cw) = none := by
    rw [bmem_writeCw]
    simp [assocDel]
  rw [State.cwSyms, hclean, cwData_writeCw_self hlen hwf]

end

theorem decodeCw_poisoned {d : RSlot} {cw : Nat} {syms : List Nat} {s : State} (h : cw ∈ (s.rind d).bmem.poison) :
    decodeCw d cw syms s = ((syms.take 16).map (BitVec.ofNat 8), true, uncorrectable d cw s) := if_pos h

theorem decodeCw_clean {d : RSlot} {cw : Nat} {syms : List Nat} {s : State} (h : cw ∉ (s.rind d).bmem.poison) (hsyn : syndromes syms = [0, 0, 0, 0]) :
    decodeCw d cw syms s = ((syms.take 16).map (BitVec.ofNat 8), false, s) := by
  have herrs (marked : List Nat) : decodeErrs marked (syndromes syms) = some [] := by rw [hsyn]; exact if_pos rfl
  rw [decodeCw]
  dsimp only
  rw [if_neg h, herrs]

theorem decodeCw_encoded {d : RSlot} {cw : Nat} {data : List Byte} {s : State} (hlen : data.length = 16) (h : cw ∉ (s.rind d).bmem.poison) :
    decodeCw d cw (encodeCw (data.map BitVec.toNat)) s = (data, false, s) := by
  have hsmall : ∀ x ∈ data.map BitVec.toNat, x < 256 := fun x hx => by
    obtain ⟨b, -, rfl⟩ := List.mem_map.mp hx
    exact b.isLt
  obtain ⟨hsyn, -, htake⟩ := symbolCode.1 _ (by rw [List.length_map]; exact hlen) hsmall
  rw [decodeCw_clean h hsyn, htake, List.map_map]
  simp [Function.comp_def]

/-- A read opens a row, and may take a free value; cells, poison and merge entries stay. -/
theorem bmem_readRow (d : RSlot) (cw : Nat) (s : State) : ∃ rows wrote, ((readRow d cw s).rind d).bmem = { (s.rind d).bmem with rows := rows, wrote := wrote } := by
  have hfresh (t : State) : (t.fresh.2.rind d) = t.rind d := by cases d <;> rfl
  unfold readRow
  dsimp only
  split
  · split
    · exact ⟨_, _, by rw [State.incR, State.inc, State.rind_wr, hfresh, bmem_modBmem]⟩
    · exact ⟨_, _, by rw [hfresh, bmem_modBmem]⟩
  · exact ⟨_, _, by rw [bmem_modBmem]⟩

theorem readCw_writeCw {d : RSlot} {cw : Nat} {data : List Byte} {s : State} (hlen : data.length = 16) (hwf : Memory.wf (s.rind d).bmem.cells = true)
    (hmerges : (s.rind d).bmem.merges = []) : (readCw d cw (writeCw d cw data s)).1 = data ∧ (readCw d cw (writeCw d cw data s)).2.1 = false := by
  obtain ⟨rows, wrote, hread⟩ := bmem_readRow d cw (writeCw d cw data s)
  have hpoison : cw ∉ ((readRow d cw (writeCw d cw data s)).rind d).bmem.poison := by rw [hread]; exact not_poisoned_writeCw
  have hnone : ((writeCw d cw data s).rind d).bmem.merges.find? (fun e => e.cw = cw) = none := by rw [bmem_writeCw]; simp [hmerges]
  rw [readCw, hnone, cwSyms_writeCw hlen hwf, decodeCw_encoded hlen hpoison]
  exact ⟨rfl, rfl⟩

/-! ## Bursts and merge entries (R399, R403, R404, R406) -/

theorem exec_bmemReadComplete {d : RSlot} {cw : Nat} {syms : List Byte} {s : State} (hd : s.hasRind d = true) (hlen : syms.length = 20)
    (hin : 16 * cw < s.dataBytes d) : exec (.bmemReadComplete d cw syms) s = .next (settle
      (if (s.rind d).cave.fills.any (fun f => f.line = cw / 8) then
        modBmem d (fun m => { m with arrived := (cw, (decodeCw d cw (syms.map BitVec.toNat) (openRow d cw s)).1,
          (decodeCw d cw (syms.map BitVec.toNat) (openRow d cw s)).2.1) :: m.arrived.filter (fun p => p.1 ≠ cw) })
          (modBmem d (fun m => { m with replay := m.replay.erase (cwChan cw) }) (decodeCw d cw (syms.map BitVec.toNat) (openRow d cw s)).2.2)
      else modBmem d (fun m => { m with replay := m.replay.erase (cwChan cw) }) (decodeCw d cw (syms.map BitVec.toNat) (openRow d cw s)).2.2)) := by
  have hfills : ((modBmem d (fun m => { m with replay := m.replay.erase (cwChan cw) })
      (decodeCw d cw (syms.map BitVec.toNat) (openRow d cw s)).2.2).rind d).cave.fills = (s.rind d).cave.fills :=
    ((bmemFree_fills d).modBmem ..).trans (((bmemFree_fills d).decodeCw ..).trans ((bmemFree_fills d).openRow ..))
  rw [show exec (.bmemReadComplete d cw syms) s = execBmemReadComplete d cw syms s from rfl, execBmemReadComplete,
    if_neg (by rw [hd]; simp [hlen, hin])]
  dsimp only
  rw [hfills]

section
variable {d : RSlot}

theorem bmem_raise (src : Nat) (detail : List Nat) (s : State) : ((raise d src detail s).rind d).bmem = (s.rind d).bmem :=
  (islandFree_rind (π := fun r => r.bmem) (fun _ _ => rfl) d).raise ..

theorem bmem_uncorrectable (cw : Nat) (s : State) : ((uncorrectable d cw s).rind d).bmem = (s.rind d).bmem := by
  have hfree : IslandFree (fun s : State => (s.rind d).bmem) := islandFree_rind (π := fun r => r.bmem) (fun _ _ => rfl) d
  exact (bmem_raise ..).trans ((hfree.wrR ..).trans ((hfree.wrR ..).trans (hfree.incR ..)))

theorem merges_countDevice (c k : Nat) (s : State) : ((countDevice d c k s).rind d).bmem.merges = (s.rind d).bmem.merges := by
  have hcounted (n : Nat) : ((modBmem d (fun m => { m with window := assocPut (10 * c + k) n m.window })
      (s.incR d (R.BMEM_DEVCNT_COUNT c k))).rind d).bmem.merges = (s.rind d).bmem.merges := by
    rw [bmem_modBmem, State.incR, State.inc, State.rind_wr]
  unfold countDevice
  dsimp only
  split
  · split
    · rw [bmem_raise, State.rind_wrR, hcounted]
    · split
      · exact hcounted _
      · rw [bmem_raise, hcounted]
  · exact hcounted _

theorem merges_writeRow (cw : Nat) (s : State) : ((writeRow d cw s).rind d).bmem.merges = (s.rind d).bmem.merges := by rw [writeRow, bmem_modBmem]

theorem merges_corrected (cw : Nat) (data : List Byte) (fix : List (Nat × Nat)) (s : State) :
    ((corrected d cw data fix s).rind d).bmem.merges = (s.rind d).bmem.merges := by
  rw [corrected, merges_writeRow, bmem_modBmem]
  refine (foldl_field (fun t : State => (t.rind d).bmem.merges) fun t k => merges_countDevice ..).trans ?_
  rw [State.incR, State.inc, State.rind_wr]

theorem merges_decodeCw (cw : Nat) (syms : List Nat) (s : State) : ((decodeCw d cw syms s).2.2.rind d).bmem.merges = (s.rind d).bmem.merges := by
  unfold decodeCw
  split
  · exact congrArg Bmem.merges (bmem_uncorrectable ..)
  · split
    · exact congrArg Bmem.merges (bmem_uncorrectable ..)
    · rfl
    · exact merges_corrected ..

theorem merges_enterPoison (cw : Nat) (s : State) : ((enterPoison d cw s).rind d).bmem.merges = (s.rind d).bmem.merges := by
  unfold enterPoison
  simp only [apply_ite (fun s : State => (s.rind d).bmem.merges), bmem_raise, bmem_modBmem, ite_self]

theorem merges_mergeOut (e : MergeEntry) (s : State) : ((mergeOut d e s).rind d).bmem.merges = (s.rind d).bmem.merges.erase e := by
  unfold mergeOut
  simp only [apply_ite (fun s : State => (s.rind d).bmem.merges), merges_enterPoison, bmem_modBmem, merges_writeRow, merges_decodeCw, ite_self]
  rw [State.incR, State.inc, State.rind_wr]

end

/-! ## Windows, refreshes, alerts and pages (R398, R408, R410 to R412) -/

theorem mem_assocDel {α : Type} {k n : Nat} {v : α} {l : List (Nat × α)} : (n, v) ∈ assocDel k l ↔ (n, v) ∈ l ∧ n ≠ k := by
  rw [assocDel, List.mem_filter, decide_eq_true_iff]

theorem exec_markWindowExpire (d : RSlot) (c : Nat) (s : State) : exec (.markWindowExpire d c) s = .next (modBmem d (fun m =>
    { m with window := m.window.filter (fun p => p.1 / 10 ≠ c), thr := assocPut c (s.rdR d R.BMEM_MARKCFG_THR) m.thr }) s) := rfl

theorem markWindowExpire_effect (d : RSlot) (c : Nat) (s : State) : ∃ t, exec (.markWindowExpire d c) s = .next t ∧ t.regs = s.regs ∧ t.out = s.out ∧
    assocGet c 0x40 (t.rind d).bmem.thr = s.rdR d R.BMEM_MARKCFG_THR ∧
    ∀ k n, (k, n) ∈ (t.rind d).bmem.window ↔ (k, n) ∈ (s.rind d).bmem.window ∧ k / 10 ≠ c := by
  refine ⟨_, exec_markWindowExpire d c s, regs_modBmem .., State.out_modRind .., ?_, fun k n => ?_⟩
  · rw [bmem_modBmem, assocGet_assocPut_self]
  · rw [bmem_modBmem, List.mem_filter, decide_eq_true_iff]

section
variable {d : RSlot} {c set : Nat} {s : State}

theorem execRefreshDue_of_served (hd : s.hasRind d = true) (hc : c < 2) (hset : set < 8) : exec (.refreshDue d c set) s = .next
    (if s.setIdle d (8 * c + set) then s
    else if 4 ≤ assocGet (8 * c + set) 0 (s.rind d).bmem.owed then
      (modBmem d (fun m => { m with rows := m.rows.filter (fun p => ! inBankSet (8 * c + set) p.1) }) s).incR d R.BMEM_REF_FORCED
    else modBmem d (fun m => { m with owed := assocPut (8 * c + set) (assocGet (8 * c + set) 0 (s.rind d).bmem.owed + 1) m.owed }) s) := by
  rw [show exec (.refreshDue d c set) s = execRefreshDue d c set s from rfl, execRefreshDue, if_neg (by rw [hd]; simp; omega)]
  dsimp only
  split
  · rfl
  · split <;> rfl

theorem refreshDue_owes (hd : s.hasRind d = true) (hc : c < 2) (hset : set < 8) (hidle : s.setIdle d (8 * c + set) = false)
    (howed : assocGet (8 * c + set) 0 (s.rind d).bmem.owed < 4) :
    ∃ t, exec (.refreshDue d c set) s = .next t ∧ t.regs = s.regs ∧ (t.rind d).bmem.rows = (s.rind d).bmem.rows ∧
      assocGet (8 * c + set) 0 (t.rind d).bmem.owed = assocGet (8 * c + set) 0 (s.rind d).bmem.owed + 1 := by
  rw [execRefreshDue_of_served hd hc hset, hidle, if_neg Bool.false_ne_true, if_neg (by omega)]
  exact ⟨_, rfl, regs_modBmem .., by rw [bmem_modBmem], by rw [bmem_modBmem, assocGet_assocPut_self]⟩

theorem refreshDue_forces (hs : s.regsWf = true) (hd : s.hasRind d = true) (hc : c < 2) (hset : set < 8) (hidle : s.setIdle d (8 * c + set) = false)
    (howed : 4 ≤ assocGet (8 * c + set) 0 (s.rind d).bmem.owed) :
    ∃ t, exec (.refreshDue d c set) s = .next t ∧ t.setIdle d (8 * c + set) = true ∧
      t.rdR d R.BMEM_REF_FORCED = satAdd R.BMEM_REF_FORCED.top (s.rdR d R.BMEM_REF_FORCED) 1 ∧
      ∀ k r, inBankSet (8 * c + set) k = false → ((k, r) ∈ (t.rind d).bmem.rows ↔ (k, r) ∈ (s.rind d).bmem.rows) := by
  have hrows : (((modBmem d (fun m => { m with rows := m.rows.filter (fun p => ! inBankSet (8 * c + set) p.1) }) s).incR d R.BMEM_REF_FORCED).rind d).bmem.rows =
      (s.rind d).bmem.rows.filter (fun p => ! inBankSet (8 * c + set) p.1) := by
    rw [State.incR, State.inc, State.rind_wr, bmem_modBmem]
  rw [execRefreshDue_of_served hd hc hset, hidle, if_neg Bool.false_ne_true, if_pos howed]
  refine ⟨_, rfl, ?_, ?_, fun k r hk => ?_⟩
  · rw [State.setIdle, hrows]
    simp
  · have hregs := regs_modBmem d (fun m => { m with rows := m.rows.filter (fun p => ! inBankSet (8 * c + set) p.1) }) s
    have hrd : (modBmem d (fun m => { m with rows := m.rows.filter (fun p => ! inBankSet (8 * c + set) p.1) }) s).rdR d R.BMEM_REF_FORCED =
        s.rdR d R.BMEM_REF_FORCED := State.rdR_modRind ..
    rw [State.rdR, State.incR, State.rd_inc (by rw [State.regsWf, hregs]; exact hs) (by decide), ← State.rdR, hrd, satAdd]
  · rw [hrows, List.mem_filter, hk]
    simp

theorem refreshRate_bits (c : Nat) (hc : c < 2) (on : Bool) (old : Nat) (hold : old < 4) :
    (if on then old ||| 2 ^ c else old &&& (3 - 2 ^ c)) < 4 ∧ (if on then old ||| 2 ^ c else old &&& (3 - 2 ^ c)).testBit c = on ∧
    (if on then old ||| 2 ^ c else old &&& (3 - 2 ^ c)).testBit (1 - c) = old.testBit (1 - c) := by
  decide +revert

theorem refreshRatePoll_effect (hot : List Bool) (hs : s.regsWf = true) (hd : s.hasRind d = true) (hc : c < 2) :
    ∃ t, exec (.refreshRatePoll d c hot) s = .next t ∧ (t.rdR d R.BMEM_REF_FAST).testBit c = hot.any id ∧
      (t.rdR d R.BMEM_REF_FAST).testBit (1 - c) = (s.rdR d R.BMEM_REF_FAST).testBit (1 - c) ∧ t.rdR d R.BMEM_REF_FORCED = s.rdR d R.BMEM_REF_FORCED := by
  have hold : s.rdR d R.BMEM_REF_FAST < 4 := Fld.get_lt _ _ (by decide)
  obtain ⟨hsmall, hown, hother⟩ := refreshRate_bits c hc (hot.any id) (s.rdR d R.BMEM_REF_FAST) hold
  have hfast (v : Nat) (hv : v < 4) : (s.wrR d R.BMEM_REF_FAST v).rdR d R.BMEM_REF_FAST = v := (State.rd_wr_mod hs (by decide)).trans (Nat.mod_eq_of_lt hv)
  rw [show exec (.refreshRatePoll d c hot) s = execRefreshRatePoll d c hot s from rfl, execRefreshRatePoll, if_neg (by rw [hd]; simp; omega)]
  refine ⟨_, rfl, ?_, ?_, State.rd_wr_apart hs (by decide) (by decide) (by decide)⟩
  · rw [hfast _ hsmall, hown]
  · rw [hfast _ hsmall, hother]

end

theorem execDramAlert_of_served {d : RSlot} {c : Nat} {s : State} (hd : s.hasRind d = true) (hc : c < 2) : exec (.dramAlert d c) s =
    if c ∈ (s.rind d).bmem.replay then .next (settle (functionReset d .bmem (raise d 0x083 [c] (s.incR d R.BMEM_ORDER_ALERT))))
    else .next (modBmem d (fun m => { m with replay := c :: m.replay }) (s.incR d R.BMEM_ORDER_ALERT)) := by
  have hrind : (s.incR d R.BMEM_ORDER_ALERT).rind d = s.rind d := State.rind_wr ..
  rw [show exec (.dramAlert d c) s = execDramAlert d c s from rfl, execDramAlert, if_neg (by rw [hd]; simp; omega)]
  dsimp only
  rw [hrind]

theorem dramAlert_replays {d : RSlot} {c : Nat} {s : State} (hd : s.hasRind d = true) (hc : c < 2) (hnew : c ∉ (s.rind d).bmem.replay) :
    ∃ t, exec (.dramAlert d c) s = .next t ∧ (t.rind d).bmem.replay = c :: (s.rind d).bmem.replay ∧
      t.regs = (s.incR d R.BMEM_ORDER_ALERT).regs ∧ (t.rind d).bmem.cells = (s.rind d).bmem.cells := by
  have hrind : (s.incR d R.BMEM_ORDER_ALERT).rind d = s.rind d := State.rind_wr ..
  rw [execDramAlert_of_served hd hc, if_neg hnew]
  exact ⟨_, rfl, by rw [bmem_modBmem, hrind], regs_modBmem .., by rw [bmem_modBmem, hrind]⟩

/-- A closed row of a bank. -/
def closeBank (d : RSlot) (key : Nat) (s : State) : State := modBmem d (fun m => { m with rows := assocDel key m.rows, wrote := assocDel key m.wrote }) s

theorem exec_pageIdle {d : RSlot} {c bank : Nat} {s : State} (hc : c < 2) (hbank : bank < 64) : exec (.pageIdle d c bank) s = .next
    (if (closeBank d (64 * c + bank) s).setIdle d (8 * c + 4 * (bank / 32) + bank / 8 % 4) then
      modBmem d (fun m => { m with owed := assocDel (8 * c + 4 * (bank / 32) + bank / 8 % 4) m.owed }) (closeBank d (64 * c + bank) s)
    else closeBank d (64 * c + bank) s) := by
  rw [show exec (.pageIdle d c bank) s = execPageIdle d c bank s from rfl, execPageIdle, if_neg (by omega)]
  rfl

theorem bmem_closeBank (d : RSlot) (key : Nat) (s : State) : ((closeBank d key s).rind d).bmem =
    { (s.rind d).bmem with rows := assocDel key (s.rind d).bmem.rows, wrote := assocDel key (s.rind d).bmem.wrote } := bmem_modBmem ..

theorem pageIdle_effect (d : RSlot) {c bank : Nat} (s : State) (hc : c < 2) (hbank : bank < 64) :
    ∃ t, exec (.pageIdle d c bank) s = .next t ∧ t.regs = s.regs ∧ (t.rind d).bmem.cells = (s.rind d).bmem.cells ∧
      (∀ k r, (k, r) ∈ (t.rind d).bmem.rows ↔ (k, r) ∈ (s.rind d).bmem.rows ∧ k ≠ 64 * c + bank) ∧
      (t.setIdle d (8 * c + 4 * (bank / 32) + bank / 8 % 4) = true → assocGet (8 * c + 4 * (bank / 32) + bank / 8 % 4) 0 (t.rind d).bmem.owed = 0) := by
  rw [exec_pageIdle hc hbank]
  refine ⟨_, rfl, ?_⟩
  split
  · refine ⟨(regs_modBmem ..).trans (regs_modBmem ..), ?_, fun k r => ?_, fun _ => ?_⟩
    · rw [bmem_modBmem, bmem_closeBank]
    · rw [bmem_modBmem, bmem_closeBank]
      exact mem_assocDel
    · rw [bmem_modBmem]
      exact assocGet_assocDel_self ..
  · next hbusy =>
    refine ⟨regs_modBmem .., ?_, fun k r => ?_, fun hidle => absurd hidle hbusy⟩
    · rw [bmem_closeBank]
    · rw [bmem_closeBank]
      exact mem_assocDel

theorem mergeAgeExpire_known {d : RSlot} {cw : Nat} {e : MergeEntry} {s : State} (h : (s.rind d).bmem.merges.find? (fun e => e.cw = cw) = some e) :
    exec (.mergeAgeExpire d cw) s = .next (settle (mergeOut d e s)) := by
  rw [show exec (.mergeAgeExpire d cw) s = execMergeAgeExpire d cw s from rfl, execMergeAgeExpire, h]

theorem mergeAgeExpire_unknown {d : RSlot} {cw : Nat} {s : State} (h : (s.rind d).bmem.merges.find? (fun e => e.cw = cw) = none) :
    exec (.mergeAgeExpire d cw) s = .next s := by
  rw [show exec (.mergeAgeExpire d cw) s = execMergeAgeExpire d cw s from rfl, execMergeAgeExpire, h]

/-- Settles O43: what a codeword's write leaves in the cells and on the poison list decides every read, and the decoder takes the encoder's check symbols for clean. -/
theorem bufferMemory : Obligations.BufferMemory := by
  unfold Obligations.BufferMemory
  refine ⟨fun d cw syms s hd hlen hin hfill => ?_, fun d cw syms s hd hlen hin hfill => ?_, fun d cw syms s => ⟨decodeCw_clean, decodeCw_poisoned⟩,
    fun d cw data s hlen hwf hmerges => ?_, markWindowExpire_effect, fun d cw e s h => ⟨mergeAgeExpire_known h, merges_mergeOut ..⟩,
    fun d cw s => mergeAgeExpire_unknown, fun d c set s hs hd hc hset => ⟨fun hidle => ?_, refreshDue_owes hd hc hset, refreshDue_forces hs hd hc hset⟩,
    fun d c hot s hs hd hc => refreshRatePoll_effect hot hs hd hc, fun d c s hd hc => ⟨dramAlert_replays hd hc, fun hin => ?_⟩,
    fun d c bank s hc hbank => pageIdle_effect d s hc hbank⟩
  · rw [exec_bmemReadComplete hd hlen hin, hfill, if_neg Bool.false_ne_true]
  · rw [exec_bmemReadComplete hd hlen hin, if_pos hfill]
    refine ⟨_, rfl, (regs_modBmem ..).trans (regs_modBmem ..), ?_⟩
    rw [bmem_modBmem]
    rfl
  · obtain ⟨hdata, hclean⟩ := readCw_writeCw hlen hwf hmerges
    exact ⟨cwData_writeCw_self hlen hwf, not_poisoned_writeCw, hdata, hclean, fun x => cwData_writeCw_other hlen⟩
  · rw [execRefreshDue_of_served hd hc hset, if_pos hidle]
  · rw [execDramAlert_of_served hd hc, if_pos hin]

end Sys2Proof.Machine
end

section
/-! Accesses through the Cave and its maintenance: O46 (R430 to R432, R434 to R438, R440, R441, R470). -/

namespace Sys2Proof.Machine

/-! ## Pseudo-LRU bits (R431, R432) -/

theorem getLsbD_plruSet (b : BitVec 15) (v : Bool) {i n : Nat} (hn : n < 15) : (plruSet b i v).getLsbD n = if n = i then v else b.getLsbD n := by
  have hbit : (BitVec.ofNat 15 (2 ^ i)).getLsbD n = decide (n = i) := by
    rw [BitVec.getLsbD_ofNat, Nat.testBit_two_pow]
    simp [hn, eq_comm]
  cases v
  · rw [plruSet, if_neg Bool.false_ne_true, BitVec.getLsbD_and, BitVec.getLsbD_not, hbit]
    by_cases h : n = i <;> simp [h, hn]
  · rw [plruSet, if_pos rfl, BitVec.getLsbD_or, hbit]
    by_cases h : n = i <;> simp [h]

/-- The nodes of a way lie one on each level of the tree. -/
theorem getLsbD_plruTouch (b : BitVec 15) {w n : Nat} (hn : n < 15) : (plruTouch b w).getLsbD n =
    if n = 7 + w / 2 then decide (w % 2 = 0) else if n = 3 + w / 4 then decide (w / 2 % 2 = 0)
    else if n = 1 + w / 8 then decide (w / 4 % 2 = 0) else if n = 0 then decide (w / 8 % 2 = 0) else b.getLsbD n := by
  have hnodes : 8 + w / 2 - 1 = 7 + w / 2 ∧ 4 + w / 4 - 1 = 3 + w / 4 ∧ 2 + w / 8 - 1 = 1 + w / 8 := by omega
  obtain ⟨h8, h4, h2⟩ := hnodes
  simp only [plruTouch, plruPath, List.foldl_cons, List.foldl_nil, getLsbD_plruSet _ _ hn, h8, h4, h2, Nat.sub_self]

theorem plruTouch_path (b : BitVec 15) {w : Nat} (hw : w < 16) : ∀ p ∈ plruPath w, (plruTouch b w).getLsbD (p.1 - 1) = p.2 := by
  intro p hp
  simp only [plruPath, List.mem_cons, List.not_mem_nil, or_false] at hp
  obtain rfl | rfl | rfl | rfl := hp
  · rw [getLsbD_plruTouch b (by omega), if_neg (by omega), if_neg (by omega), if_neg (by omega), if_pos (Nat.sub_self 1)]
  · rw [getLsbD_plruTouch b (by omega), if_neg (by omega), if_neg (by omega), if_pos (by omega)]
  · rw [getLsbD_plruTouch b (by omega), if_neg (by omega), if_pos (by omega)]
  · rw [getLsbD_plruTouch b (by omega), if_pos (by omega)]

theorem plruTouch_off_path (b : BitVec 15) {w n : Nat} (hn : n < 15) (h : ∀ p ∈ plruPath w, p.1 - 1 ≠ n) : (plruTouch b w).getLsbD n = b.getLsbD n := by
  simp only [plruPath, List.forall_mem_cons] at h
  obtain ⟨h0, h1, h3, h7, -⟩ := h
  rw [getLsbD_plruTouch b hn, if_neg (by omega), if_neg (by omega), if_neg (by omega), if_neg (by omega)]

theorem plruWalk_range (b : BitVec 15) (elig : List Nat) : ∀ n node lo, lo ≤ plruWalk b elig n node lo ∧ plruWalk b elig n node lo < lo + 2 ^ n
  | 0, _, lo => ⟨Nat.le_refl lo, Nat.lt_succ_self lo⟩
  | n + 1, node, lo => by
    have hup := plruWalk_range b elig n (2 * node + 1) (lo + 2 ^ n)
    have hlow := plruWalk_range b elig n (2 * node) lo
    rw [plruWalk]
    rw [Nat.pow_succ]
    split <;> split <;> omega

/-- With every way eligible the root's bit decides the half that the walk goes to. -/
theorem plruWalk_half (b : BitVec 15) : 8 ≤ plruWalk b (List.range 16) 4 1 0 ↔ b.getLsbD 0 = true := by
  have hlow : (List.range 16).any (fun w => decide (0 ≤ w ∧ w < 0 + 2 ^ 3)) = true := by decide
  have hhigh : (List.range 16).any (fun w => decide (0 + 2 ^ 3 ≤ w ∧ w < 0 + 2 * 2 ^ 3)) = true := by decide
  have hupper := plruWalk_range b (List.range 16) 3 3 8
  have hlower := plruWalk_range b (List.range 16) 3 2 0
  rw [plruWalk]
  rw [hlow, hhigh]
  cases b.getLsbD 0 <;> simp <;> omega

theorem plruWalk_plruTouch_ne (b : BitVec 15) {w : Nat} (hw : w < 16) : plruWalk (plruTouch b w) (List.range 16) 4 1 0 ≠ w := by
  have hroot : (plruTouch b w).getLsbD 0 = decide (w / 8 % 2 = 0) := plruTouch_path b hw (1, decide (w / 8 % 2 = 0)) (.head _)
  have hhalf := plruWalk_half (plruTouch b w)
  rw [hroot, decide_eq_true_iff] at hhalf
  omega

/-! ## Reads, fills and evictions (R430, R435, R436) -/

theorem cave_modCave (d : RSlot) (f : Cave → Cave) (s : State) : ((modCave d f s).rind d).cave = f (s.rind d).cave := by rw [modCave, State.rind_modRind]

section
variable {d : RSlot} {who : AccWho} {addr line : Nat} {noalloc : Bool} {s : State}

theorem exec_caveRead_served (hd : s.hasRind d = true) (haddr : addr < s.dataBytes d) (h : s.caveOn d = false ∨ s.caveServes d (addr / 128) = true) :
    exec (.caveRead d who addr noalloc) s = .next (settle ((caveReadLine d who.cls (addr / 128) (! noalloc) s).2.2.emit
      (.load (caveReadLine d who.cls (addr / 128) (! noalloc) s).1 (caveReadLine d who.cls (addr / 128) (! noalloc) s).2.1))) := by
  rw [show exec (.caveRead d who addr noalloc) s = execCaveRead d who addr noalloc s from rfl, execCaveRead, if_neg (by rw [hd]; simp; omega),
    if_pos (by simpa using h)]

theorem exec_caveRead_missed (hd : s.hasRind d = true) (haddr : addr < s.dataBytes d) (hon : s.caveOn d = true) (hmiss : s.caveServes d (addr / 128) = false) :
    exec (.caveRead d who addr noalloc) s = .next (settle (joinFill d who (addr / 128) noalloc (countLookup d (addr / 128) (maintRun d s)))) := by
  rw [show exec (.caveRead d who addr noalloc) s = execCaveRead d who addr noalloc s from rfl, execCaveRead, if_neg (by rw [hd]; simp; omega),
    if_neg (by simp [hon, hmiss])]

theorem joinFill_waits (d : RSlot) (who : AccWho) (line : Nat) (noalloc : Bool) (s : State) :
    ∃ f ∈ ((joinFill d who line noalloc s).rind d).cave.fills, f.line = line ∧ who ∈ f.waiters := by
  rw [joinFill]
  split
  · next hjoin =>
    obtain ⟨f, hf, hline⟩ := List.any_eq_true.mp hjoin
    rw [decide_eq_true_iff] at hline
    rw [cave_modCave]
    exact ⟨_, List.mem_map_of_mem hf, by rw [if_pos hline]; exact hline, by rw [if_pos hline]; simp⟩
  · rw [cave_modCave]
    exact ⟨⟨line, who.cls, ! noalloc, [who]⟩, by simp, rfl, .head _⟩

theorem exec_caveWrite {data : List Byte} (hd : s.hasRind d = true) (hin : addr + data.length ≤ s.dataBytes d) :
    exec (.caveWrite d who addr data) s = .next (settle (caveWrite d who addr data false s)) := by
  rw [show exec (.caveWrite d who addr data) s = execCaveWrite d who addr data s from rfl, execCaveWrite, if_neg (by rw [hd]; simp; omega)]

theorem exec_caveFillComplete_unknown (h : ((s.rind d).cave.fills.take maxFills).find? (fun f => f.line = line) = none) :
    exec (.caveFillComplete d line) s = .next s := by
  rw [show exec (.caveFillComplete d line) s = execCaveFillComplete d line s from rfl, execCaveFillComplete, h]

theorem foldl_emit {α : Type} (o : Out) : ∀ (l : List α) (s : State),
    (l.foldl (fun t _ => t.emit o) s).out = List.replicate l.length o ++ s.out ∧ (l.foldl (fun t _ => t.emit o) s).rind d = s.rind d
  | [], _ => ⟨rfl, rfl⟩
  | _ :: l, s => by
    obtain ⟨hout, hrind⟩ := foldl_emit o l (s.emit o)
    refine ⟨hout.trans ?_, hrind.trans (State.rind_emit ..)⟩
    rw [State.out_emit, List.length_cons, List.replicate_succ', List.append_assoc, List.singleton_append]

theorem caveFillComplete_answers {f : Fill} (h : ((s.rind d).cave.fills.take maxFills).find? (fun f => f.line = line) = some f) :
    ∃ u data bad, exec (.caveFillComplete d line) s = .next (settle u) ∧ ((u.rind d).bmem.arrived.all (fun p => p.1 / 8 ≠ line)) = true ∧
      ∃ pre, u.out = List.replicate f.waiters.length (.load data bad) ++ pre := by
  rw [show exec (.caveFillComplete d line) s = execCaveFillComplete d line s from rfl, execCaveFillComplete, h]
  dsimp only
  generalize readLine d f.cls line f.alloc (fillData d line) (modCave d (fun c => { c with fills := c.fills.erase f }) (maintRun d s)) = r
  obtain ⟨data, bad, v⟩ := r
  obtain ⟨hout, hrind⟩ := foldl_emit (d := d) (.load data bad) f.waiters (modBmem d (fun m => { m with arrived := m.arrived.filter (fun p => p.1 / 8 ≠ line) }) v)
  refine ⟨_, data, bad, rfl, ?_, _, hout⟩
  rw [hrind, bmem_modBmem]
  simp

theorem exec_evictionDrain (hd : s.hasRind d = true) : exec (.evictionDrain d) s = .next (settle (evictDrain d s)) := by
  rw [show exec (.evictionDrain d) s = execEvictionDrain d s from rfl, execEvictionDrain, if_pos hd]

theorem evictDrain_issued (h : (s.rind d).cave.evict.all (fun e => e.issued) = true) : ((evictDrain d s).rind d).cave.evict = [] := by
  have hnone : (s.rind d).cave.evict.filter (fun e => ! e.issued) = [] := by
    rw [List.filter_eq_nil_iff]
    intro e he
    simp [List.all_eq_true.mp h e he]
  rw [evictDrain, hnone, cave_modCave]

theorem evictDrain_oldest {e : Evicted} {rest : List Evicted} (h : (s.rind d).cave.evict = e :: rest) (hwait : ∀ x ∈ e :: rest, x.issued = false) :
    ((evictDrain d s).rind d).cave.evict = { e with issued := true } :: rest := by
  have hall : (s.rind d).cave.evict.filter (fun e => ! e.issued) = e :: rest := by
    rw [h, List.filter_eq_self]
    intro x hx
    simp [hwait x hx]
  rw [evictDrain, hall, cave_modCave]

end

/-! ## Range maintenance (R437, R440, R441, R470) -/

section
variable {d : RSlot} {op : Nat} {spare : Bool} {s : State}

theorem exec_caveMaintStart (hd : s.hasRind d = true) (hop : op < 4) : exec (.caveMaintStart d op spare) s =
    .next (settle (answerAny d 0x0D 1 (openReply 0x0D 1 [bit (! s.bitR d R.CAVE_STAT_BUSY)]) (! s.bitR d R.CAVE_STAT_BUSY) (maintStart d op spare s))) := by
  rw [show exec (.caveMaintStart d op spare) s = execCaveMaintStart d op spare s from rfl, execCaveMaintStart, if_neg (by rw [hd]; simp; omega)]

theorem maintStart_starts (hbusy : s.bitR d R.CAVE_STAT_BUSY = false) (hop : op ≠ 0) (hrange : s.rdR d R.CAVE_MBASE_LINE ≤ s.rdR d R.CAVE_MLIMIT_LINE) :
    maintStart d op spare s =
      modCave d (fun c => { c with maint := some ⟨op, s.rdR d R.CAVE_MBASE_LINE, s.rdR d R.CAVE_MLIMIT_LINE, spare, 0⟩ }) (s.wrR d R.CAVE_STAT_BUSY 1) := by
  rw [maintStart, if_neg (by simp [hbusy]), if_neg (by omega)]

theorem maintStart_started (hs : s.regsWf = true) (hbusy : s.bitR d R.CAVE_STAT_BUSY = false) (hop : op ≠ 0)
    (hrange : s.rdR d R.CAVE_MBASE_LINE ≤ s.rdR d R.CAVE_MLIMIT_LINE) :
    (maintStart d op spare s).bitR d R.CAVE_STAT_BUSY = true ∧ ((maintStart d op spare s).rind d).cave.lines = (s.rind d).cave.lines ∧
    ((maintStart d op spare s).rind d).cave.maint = some ⟨op, s.rdR d R.CAVE_MBASE_LINE, s.rdR d R.CAVE_MLIMIT_LINE, spare, 0⟩ := by
  have hread : (s.wrR d R.CAVE_STAT_BUSY 1).rdR d R.CAVE_STAT_BUSY = 1 := State.rd_wr_mod hs (by decide)
  rw [maintStart_starts hbusy hop hrange]
  refine ⟨?_, ?_, ?_⟩
  · rw [State.bitR, modCave, State.rdR_modRind, hread]
    rfl
  · rw [cave_modCave, State.rind_wrR]
  · rw [cave_modCave]

theorem maintDone_none (h : (s.rind d).cave.maint = none) : maintDone d s = s := by rw [maintDone, h]

theorem maintDone_ends {m : Maint} (h : (s.rind d).cave.maint = some m) : ((maintDone d s).rind d).cave.maint = none := by
  rw [maintDone, h]
  dsimp only
  split
  · rw [State.rind_wrR, cave_modCave]
  · rw [cave_modCave]

theorem maint_visits_every_set (m : Maint) : m.total ≤ 8192 ∧ ∀ set, set < 8192 → m.place set < 8192 ∧ (m.base % 8192 + m.place set) % 8192 = set := by
  refine ⟨Nat.min_le_right .., fun set hset => ?_⟩
  rw [Maint.place]
  omega

end

/-- Settles O46, clause by clause: a touch turns the root's bit away from the way, and the accesses are cases of the model's equations. -/
theorem caveAccessesAndMaintenance : Obligations.CaveAccessesAndMaintenance := by
  unfold Obligations.CaveAccessesAndMaintenance
  exact ⟨fun b w hw => ⟨plruTouch_path b hw, fun n hn => plruTouch_off_path b hn, plruWalk_plruTouch_ne b hw⟩,
    fun d who addr noalloc s hd haddr => ⟨exec_caveRead_served hd haddr, exec_caveRead_missed hd haddr⟩, joinFill_waits,
    fun d who addr data s => exec_caveWrite, fun d line s => exec_caveFillComplete_unknown, fun d line f s => caveFillComplete_answers,
    fun d s => exec_evictionDrain, fun d s => evictDrain_issued, fun d e rest s => evictDrain_oldest, fun d op spare s => exec_caveMaintStart,
    fun d op spare s => maintStart_started, fun d s => rfl, fun d m s => maintDone_ends, fun d s => maintDone_none, maint_visits_every_set⟩

end Sys2Proof.Machine
end

section
/-! The Ladle: O48 (R448, R450 to R455, R457, R458, R460, R472, R581). -/

namespace Sys2Proof.Machine

/-! ## The Ladle's registers -/

section
variable {d e : RSlot} {c : Nat} {s : State}

/-- A field of a channel's registers. -/
theorem channelField_ok {o hi lo : Nat} (hc : c < 32) (ho : o ≤ 0x9003C) (h : lo ≤ hi ∧ hi < 32) : Fld.Ok ⟨o + 64 * c, hi, lo⟩ :=
  ⟨h.1, h.2, by dsimp only; omega⟩

/-- Another register of the same channel. -/
theorem rdR_wrR_channel {o p hi lo hi' lo' v : Nat} (hc : c < 32) (h : o ≠ p ∧ (o ≤ 0x9003C ∧ p ≤ 0x9003C) ∧ (lo ≤ hi ∧ hi < 32) ∧ (lo' ≤ hi' ∧ hi' < 32)) :
    (s.wrR d ⟨o + 64 * c, hi, lo⟩ v).rdR e ⟨p + 64 * c, hi', lo'⟩ = s.rdR e ⟨p + 64 * c, hi', lo'⟩ := by
  obtain ⟨hne, ⟨ho, hp⟩, hf, hg⟩ := h
  exact rdR_wrR_off (channelField_ok hc ho hf) (channelField_ok hc hp hg) (by dsimp only; omega) d v s

/-- A channel's register after a write of a register of the whole Ladle. -/
theorem rdR_wrR_ladle {f : Fld} {p hi lo v : Nat} (hf : f.Ok ∧ 0x90800 ≤ f.off) (hc : c < 32) (h : p ≤ 0x9003C ∧ lo ≤ hi ∧ hi < 32) :
    (s.wrR d f v).rdR e ⟨p + 64 * c, hi, lo⟩ = s.rdR e ⟨p + 64 * c, hi, lo⟩ :=
  rdR_wrR_off hf.1 (channelField_ok hc h.1 h.2) (by have := hf.2; dsimp only; omega) d v s

/-- A register of the whole Ladle after a write of a channel's register. -/
theorem rdR_wrR_of_channel {g : Fld} {p hi lo v : Nat} (hg : g.Ok ∧ 0x90800 ≤ g.off) (hc : c < 32) (h : p ≤ 0x9003C ∧ lo ≤ hi ∧ hi < 32) :
    (s.wrR d ⟨p + 64 * c, hi, lo⟩ v).rdR e g = s.rdR e g :=
  rdR_wrR_off (channelField_ok hc h.1 h.2) hg.1 (by have := hg.2; dsimp only; omega) d v s

/-! ## PEND (R453) -/

theorem setPend_eq_wrR (d : RSlot) (c : Nat) (on : Bool) (s : State) : ∃ v, setPend d c on s = s.wrR d R.LADLE_SHADOW_PEND_PEND v := ⟨_, rfl⟩

theorem rdR_setPend (on : Bool) {p hi lo : Nat} (hc : c < 32) (h : p ≤ 0x9003C ∧ lo ≤ hi ∧ hi < 32) :
    (setPend d c on s).rdR e ⟨p + 64 * c, hi, lo⟩ = s.rdR e ⟨p + 64 * c, hi, lo⟩ := by
  obtain ⟨v, hv⟩ := setPend_eq_wrR d c on s
  rw [hv, rdR_wrR_ladle (by decide) hc h]

theorem regsWf_setPend (on : Bool) (hs : s.regsWf = true) : (setPend d c on s).regsWf = true := State.regsWf_wrR hs

theorem testBit_sub_two_pow {p c : Nat} (h : p.testBit c = true) : (p - 2 ^ c).testBit c = false := by
  rw [Nat.testBit_eq_decide_div_mod_eq, decide_eq_true_iff] at h
  have hdiv : (p - 2 ^ c * 1) / 2 ^ c = p / 2 ^ c - 1 := Nat.sub_mul_div ..
  rw [Nat.mul_one] at hdiv
  rw [Nat.testBit_eq_decide_div_mod_eq, hdiv, decide_eq_false_iff_not]
  omega

theorem pend_setPend (hs : s.regsWf = true) (hc : c < 32) (on : Bool) : (setPend d c on s).pend d c = on := by
  rw [State.pend, setPend]
  rw [State.rdR_wrR_self hs (by decide), show R.LADLE_SHADOW_PEND_PEND.hi + 1 - R.LADLE_SHADOW_PEND_PEND.lo = 32 from rfl, Nat.testBit_mod_two_pow, decide_eq_true hc,
    Bool.true_and]
  cases on
  · rw [if_neg Bool.false_ne_true]
    split
    · next h => exact testBit_sub_two_pow h
    · next h => exact Bool.eq_false_iff.mpr h
  · rw [if_pos rfl, Nat.testBit_or, Nat.testBit_two_pow_self, Bool.or_true]

/-! ## The words of a descriptor (R448, R453) -/

/-- Word `i` of a channel's active set. -/
def actWord (c i : Nat) : Fld := ⟨0x90010 + 4 * i + 64 * c, 31, 0⟩

/-- Word `i` of a channel's shadow set. -/
def shdWord (c i : Nat) : Fld := ⟨0x90028 + 4 * i + 64 * c, 31, 0⟩

theorem actWord_ok {i : Nat} (hc : c < 32) (hi : i < 6) : (actWord c i).Ok := channelField_ok hc (by omega) (by decide)

theorem ladleAct_eq : s.ladleAct d c = ldesc (s.rdR d (actWord c 0)) (s.rdR d (actWord c 1)) (s.rdR d (actWord c 2)) (s.rdR d (actWord c 3)) (s.rdR d (actWord c 4))
    (s.rdR d (actWord c 5)) := rfl

theorem ladleShd_eq : s.ladleShd d c = ldesc (s.rdR d (shdWord c 0)) (s.rdR d (shdWord c 1)) (s.rdR d (shdWord c 2)) (s.rdR d (shdWord c 3)) (s.rdR d (shdWord c 4))
    (s.rdR d (shdWord c 5)) := rfl

theorem ladleAct_congr {t : State} (h : ∀ i < 6, t.rdR d (actWord c i) = s.rdR d (actWord c i)) : t.ladleAct d c = s.ladleAct d c := by
  rw [ladleAct_eq, ladleAct_eq, h 0 (by decide), h 1 (by decide), h 2 (by decide), h 3 (by decide), h 4 (by decide), h 5 (by decide)]

theorem ladleShd_congr {t : State} (h : ∀ i < 6, t.rdR d (shdWord c i) = s.rdR d (shdWord c i)) : t.ladleShd d c = s.ladleShd d c := by
  rw [ladleShd_eq, ladleShd_eq, h 0 (by decide), h 1 (by decide), h 2 (by decide), h 3 (by decide), h 4 (by decide), h 5 (by decide)]

theorem ladleShd_setPend (on : Bool) (hc : c < 32) : (setPend d c on s).ladleShd d c = s.ladleShd d c :=
  ladleShd_congr fun _ hi => rdR_setPend on hc ⟨by omega, by decide⟩

/-- The first `n` words of the shadow set copied to the active set. -/
def wordsCopied (d : RSlot) (c n : Nat) (s : State) : State := (List.range n).foldl (fun t i => t.wrR d (actWord c i) (t.rdR d (shdWord c i))) s

theorem wordsCopied_succ (n : Nat) : wordsCopied d c (n + 1) s =
    (wordsCopied d c n s).wrR d (actWord c n) ((wordsCopied d c n s).rdR d (shdWord c n)) := by
  rw [wordsCopied, List.range_succ, List.foldl_append]
  rfl

theorem regsWf_wordsCopied (hs : s.regsWf = true) : ∀ n, (wordsCopied d c n s).regsWf = true
  | 0 => hs
  | n + 1 => by
    rw [wordsCopied_succ]
    exact State.regsWf_wrR (regsWf_wordsCopied hs n)

theorem rdR_wordsCopied_shd (hc : c < 32) {i : Nat} (hi : i < 6) : ∀ n ≤ 6, (wordsCopied d c n s).rdR d (shdWord c i) = s.rdR d (shdWord c i)
  | 0, _ => rfl
  | n + 1, hn => by
    rw [wordsCopied_succ]
    exact (rdR_wrR_channel hc ⟨by omega, ⟨by omega, by omega⟩, by decide, by decide⟩).trans (rdR_wordsCopied_shd hc hi n (by omega))

theorem rdR_wordsCopied_act (hs : s.regsWf = true) (hc : c < 32) {i : Nat} : ∀ n ≤ 6, i < n → (wordsCopied d c n s).rdR d (actWord c i) = s.rdR d (shdWord c i)
  | n + 1, hn, hi => by
    have hshd := rdR_wordsCopied_shd (d := d) (s := s) hc (show n < 6 by omega) n (by omega)
    rw [wordsCopied_succ]
    by_cases h : i = n
    · subst h
      have hsmall : s.rdR d (shdWord c i) < 2 ^ 32 := Fld.get_lt _ _ ⟨Nat.zero_le 31, Nat.lt_succ_self 31⟩
      rw [State.rdR_wrR_self (regsWf_wordsCopied hs i) (actWord_ok hc (by omega)), hshd]
      exact Nat.mod_eq_of_lt hsmall
    · exact (rdR_wrR_channel hc ⟨by omega, ⟨by omega, by omega⟩, by decide, by decide⟩).trans (rdR_wordsCopied_act hs hc n (by omega) (by omega))

theorem ladleAct_wordsCopied (hs : s.regsWf = true) (hc : c < 32) : (wordsCopied d c 6 s).ladleAct d c = s.ladleShd d c := by
  have hword {i : Nat} (hi : i < 6) : (wordsCopied d c 6 s).rdR d (actWord c i) = s.rdR d (shdWord c i) := rdR_wordsCopied_act hs hc 6 (Nat.le_refl 6) hi
  rw [ladleAct_eq, ladleShd_eq, hword (by decide), hword (by decide), hword (by decide), hword (by decide), hword (by decide), hword (by decide)]

/-! ## A channel starts (R449, R453) -/

/-- The shadow set has become the active one, with nothing acknowledged. -/
def channelTaken (d : RSlot) (c : Nat) (s : State) : State :=
  setPend d c false (((wordsCopied d c 6 s).wrR d (R.LADLE_CHACK_BYTES c) 0).wrR d (R.LADLE_CHSTAT_STATE c) chActive)

/-- A transfer begins with its first descriptor. -/
def transferBegun (d : RSlot) (c : Nat) (s : State) : State :=
  ((channelTaken d c s).wrR d (R.LADLE_CHSTAT_DESCS c) 0).wrR d (R.LADLE_XFER_HOPCNT c) 0

theorem regs_modCh (d : RSlot) (c : Nat) (f : LadleCh → LadleCh) (s : State) : (modCh d c f s).regs = s.regs := State.regs_modRind ..

theorem regs_copyShadow (h : (s.ladleShd d c).cont = false) : (copyShadow d c s).regs = (transferBegun d c s).regs := by
  rw [copyShadow]
  dsimp only
  rw [if_neg (by rw [h]; decide), regs_modCh]
  rfl

theorem rdR_transferBegun {p hi lo : Nat} (hc : c < 32) (hp : p ≤ 0x9003C ∧ lo ≤ hi ∧ hi < 32) (hoff : p ≠ 0x90000 ∧ p ≠ 0x90004 ∧ p ≠ 0x90008) :
    (transferBegun d c s).rdR d ⟨p + 64 * c, hi, lo⟩ = (wordsCopied d c 6 s).rdR d ⟨p + 64 * c, hi, lo⟩ := by
  obtain ⟨hp, hbits⟩ := hp
  obtain ⟨hstat, hxfer, hack⟩ := hoff
  exact (rdR_wrR_channel hc ⟨Ne.symm hxfer, ⟨by decide, hp⟩, by decide, hbits⟩).trans ((rdR_wrR_channel hc ⟨Ne.symm hstat, ⟨by decide, hp⟩, by decide, hbits⟩).trans
    ((rdR_setPend false hc ⟨hp, hbits⟩).trans ((rdR_wrR_channel hc ⟨Ne.symm hstat, ⟨by decide, hp⟩, by decide, hbits⟩).trans
      (rdR_wrR_channel hc ⟨Ne.symm hack, ⟨by decide, hp⟩, by decide, hbits⟩))))

theorem ladleAct_transferBegun (hs : s.regsWf = true) (hc : c < 32) : (transferBegun d c s).ladleAct d c = s.ladleShd d c :=
  (ladleAct_congr fun _ hi => rdR_transferBegun hc ⟨by omega, by decide⟩ (by omega)).trans (ladleAct_wordsCopied hs hc)

theorem chState_transferBegun (hs : s.regsWf = true) (hc : c < 32) : (transferBegun d c s).chState d c = chActive := by
  have hack := State.regsWf_wrR (d := d) (f := R.LADLE_CHACK_BYTES c) (v := 0) (regsWf_wordsCopied (d := d) (c := c) hs 6)
  have htaken : (channelTaken d c s).rdR d (R.LADLE_CHSTAT_STATE c) = chActive :=
    (rdR_setPend false hc (by decide)).trans (State.rdR_wrR_self hack (channelField_ok hc (by decide) (by decide)))
  exact (rdR_wrR_channel hc (by decide)).trans ((State.rdR_wrR_apart (regsWf_setPend false (State.regsWf_wrR hack)) (channelField_ok hc (by decide) (by decide))
    (channelField_ok hc (by decide) (by decide)) (.inr (.inl (show 15 < 30 by decide)))).trans htaken)

theorem pend_transferBegun (hs : s.regsWf = true) (hc : c < 32) : (transferBegun d c s).pend d c = false := by
  have hkept : (transferBegun d c s).rdR d R.LADLE_SHADOW_PEND_PEND = (channelTaken d c s).rdR d R.LADLE_SHADOW_PEND_PEND :=
    (rdR_wrR_of_channel (by decide) hc (by decide)).trans (rdR_wrR_of_channel (by decide) hc (by decide))
  rw [State.pend, hkept]
  exact pend_setPend (State.regsWf_wrR (State.regsWf_wrR (regsWf_wordsCopied hs 6))) hc false

theorem ackBytes_transferBegun (hs : s.regsWf = true) (hc : c < 32) : (transferBegun d c s).rdR d (R.LADLE_CHACK_BYTES c) = 0 :=
  (rdR_wrR_channel hc (by decide)).trans ((rdR_wrR_channel hc (by decide)).trans ((rdR_setPend false hc (by decide)).trans ((rdR_wrR_channel hc (by decide)).trans
    (State.rdR_wrR_self (regsWf_wordsCopied hs 6) (channelField_ok hc (by decide) (by decide))))))

theorem tryStart_idle (hpend : s.pend d c = true) (hidle : s.chState d c = chIdle) (hrun : s.ladleStopped d = false) : tryStart d c s = copyShadow d c s := by
  rw [tryStart, if_neg (by rw [hpend]; decide), if_neg (by rw [hidle]; exact fun h => absurd h.1 (by decide)), if_neg (by rw [hrun]; decide), if_pos (Or.inl hidle)]

theorem armChannel_starts (hs : s.regsWf = true) (hc : c < 32) (hok : (s.ladleShd d c).ok = true) (hcont : (s.ladleShd d c).cont = false)
    (hrun : s.ladleStopped d = false) (hidle : s.chState d c = chIdle) :
    (armChannel d c s).1 = true ∧ (armChannel d c s).2.chState d c = chActive ∧ (armChannel d c s).2.pend d c = false ∧
    (armChannel d c s).2.ladleAct d c = s.ladleShd d c ∧ (armChannel d c s).2.rdR d (R.LADLE_CHACK_BYTES c) = 0 := by
  have hwf : (setPend d c true s).regsWf = true := regsWf_setPend true hs
  have hstopped : (setPend d c true s).ladleStopped d = false := by
    obtain ⟨v, hv⟩ := setPend_eq_wrR d c true s
    rw [State.ladleStopped, State.bitR, hv, rdR_wrR_off (by decide) (by decide) (by decide)]
    exact hrun
  have hshd := ladleShd_setPend (d := d) (s := s) true hc
  have hregs := regs_copyShadow (hshd ▸ hcont : ((setPend d c true s).ladleShd d c).cont = false)
  have hread (g : Fld) : (copyShadow d c (setPend d c true s)).rdR d g = (transferBegun d c (setPend d c true s)).rdR d g := State.rdR_congr hregs d g
  rw [armChannel, if_pos hok, tryStart_idle (pend_setPend hs hc true) ((rdR_setPend true hc (by decide)).trans hidle) hstopped]
  refine ⟨rfl, (hread _).trans (chState_transferBegun hwf hc), ?_, ?_, (hread _).trans (ackBytes_transferBegun hwf hc)⟩
  · rw [State.pend, hread]
    exact pend_transferBegun hwf hc
  · exact (ladleAct_congr fun i _ => hread _).trans ((ladleAct_transferBegun hwf hc).trans hshd)

/-! ## Shadow pairs (R453, R472) -/

theorem shadowWrite_refused {pair : Nat} {v : BitVec 64} (h : (shadowWrite d c pair v s).1 = false) : (shadowWrite d c pair v s).2 = s := by
  revert h
  unfold shadowWrite
  split
  · exact nofun
  · dsimp only
    split
    · exact nofun
    · exact fun _ => rfl
  · dsimp only
    split
    · exact nofun
    · exact fun _ => rfl
  · exact fun _ => rfl

theorem shadowWrite_address (v : BitVec 64) (hs : s.regsWf = true) (hc : c < 32) :
    (shadowWrite d c 0 v s).1 = true ∧ ((shadowWrite d c 0 v s).2.ladleShd d c).haddr = v.toNat ∧
    ((shadowWrite d c 0 v s).2.ladleShd d c).len = (s.ladleShd d c).len ∧ (shadowWrite d c 0 v s).2.ladleAct d c = s.ladleAct d c := by
  have hlow : ((s.wrR d (shdWord c 0) (v.toNat % 2 ^ 32)).wrR d (shdWord c 1) (v.toNat / 2 ^ 32)).rdR d (shdWord c 0) = v.toNat % 2 ^ 32 := by
    refine (rdR_wrR_channel hc (by decide)).trans ((State.rdR_wrR_self hs (channelField_ok hc (by decide) (by decide))).trans ?_)
    exact Nat.mod_mod ..
  have hsmall : v.toNat / 2 ^ 32 < 2 ^ 32 := by have := v.isLt; omega
  have hhigh : ((s.wrR d (shdWord c 0) (v.toNat % 2 ^ 32)).wrR d (shdWord c 1) (v.toNat / 2 ^ 32)).rdR d (shdWord c 1) = v.toNat / 2 ^ 32 :=
    (State.rdR_wrR_self (State.regsWf_wrR hs) (channelField_ok hc (by decide) (by decide))).trans
      (Nat.mod_eq_of_lt hsmall)
  refine ⟨rfl, ?_, ?_, ladleAct_congr fun i hi => ?_⟩
  · show ((s.wrR d (shdWord c 0) (v.toNat % 2 ^ 32)).wrR d (shdWord c 1) (v.toNat / 2 ^ 32)).rdR d (shdWord c 0) +
      ((s.wrR d (shdWord c 0) (v.toNat % 2 ^ 32)).wrR d (shdWord c 1) (v.toNat / 2 ^ 32)).rdR d (shdWord c 1) * 2 ^ 32 = v.toNat
    rw [hlow, hhigh]
    exact Nat.mod_add_div' ..
  · exact (rdR_wrR_channel hc (by decide)).trans (rdR_wrR_channel hc (by decide))
  · exact (rdR_wrR_channel hc ⟨by omega, ⟨by decide, by omega⟩, by decide, by decide⟩).trans
      (rdR_wrR_channel hc ⟨by omega, ⟨by decide, by omega⟩, by decide, by decide⟩)

end

/-! ## Lists and data (R450 to R452, R455) -/

theorem walkList_hops (top need block : Nat) (bytes : List Byte) : ∀ (n : Nat) (w : Walk),
    (walkList top need block bytes n w).hops ≤ w.hops + n ∧ w.hops ≤ (walkList top need block bytes n w).hops
  | 0, w => ⟨Nat.le_refl _, Nat.le_refl _⟩
  | n + 1, w => by
    have hstay : w.hops ≤ w.hops + (n + 1) ∧ w.hops ≤ w.hops := ⟨Nat.le_add_right .., Nat.le_refl _⟩
    have hone : w.hops + 1 ≤ w.hops + (n + 1) ∧ w.hops ≤ w.hops + 1 := by omega
    unfold walkList
    dsimp only
    split
    · split <;> exact hstay
    · split
      · exact hstay
      · split
        · exact hstay
        · split
          · exact hone
          · split
            · exact hone
            · split
              · exact hone
              · have hrest (next : Option Nat) (segs : List (Nat × Nat)) (skip : Nat) :=
                  walkList_hops top need block bytes n { w with hops := w.hops + 1, next := next, segs := segs, skip := skip }
                exact ⟨Nat.le_trans (hrest _ _ _).1 (by dsimp only; omega), Nat.le_trans (by dsimp only; omega) (hrest _ _ _).2⟩

theorem hostData_answered {d : RSlot} {c : Nat} {data : List Byte} {s : State} (hruns : s.chRuns d c = true) (hdir : (s.ladleAct d c).dir = 1)
    (hlist : (s.ladleCh d c).listed = false) (hlen : data.length ≤ s.ladleLeft d c) :
    hostData d c data s = ladleAck d c data.length
      (caveWrite d (.ladle c) ((s.ladleAct d c).baddr + s.rdR d (R.LADLE_CHACK_BYTES c)) data (s.ladleAct d c).noalloc s) := by
  have hall : data.take (min (s.ladleLeft d c) data.length) = data := List.take_of_length_le (by omega)
  rw [hostData]
  dsimp only
  rw [if_pos ⟨hruns, hdir⟩, hlist, if_neg Bool.false_ne_true, hall]

/-! ## Bus errors (R457, R458) -/

section
variable {d : RSlot} {c : Nat} {s : State}

/-- An active channel stops. -/
def stopOne (d : RSlot) (s : State) (c : Nat) : State := if s.chState d c = chActive then s.wrR d (R.LADLE_CHSTAT_STATE c) chStopped else s

theorem regsWf_stopOne (hs : s.regsWf = true) : (stopOne d s c).regsWf = true := by
  unfold stopOne
  split
  · exact State.regsWf_wrR hs
  · exact hs

theorem chState_stopOne_self (hs : s.regsWf = true) (hc : c < 32) : (stopOne d s c).chState d c ≠ chActive := by
  unfold stopOne
  split
  · have hread : (s.wrR d (R.LADLE_CHSTAT_STATE c) chStopped).chState d c = chStopped := State.rdR_wrR_self hs (channelField_ok hc (by decide) (by decide))
    rw [hread]
    decide
  · assumption

theorem chState_stopOne_other {x : Nat} (hx : x < 32) (hc : c < 32) (h : x ≠ c) : (stopOne d s x).chState d c = s.chState d c := by
  unfold stopOne
  split
  · exact rdR_wrR_off (channelField_ok hx (by decide) (by decide)) (channelField_ok hc (by decide) (by decide)) (by dsimp only; omega) ..
  · rfl

theorem chState_foldl_stopOne (hc : c < 32) : ∀ {l : List Nat} {s : State}, (∀ x ∈ l, x < 32) → s.regsWf = true → c ∈ l ∨ s.chState d c ≠ chActive →
    (l.foldl (stopOne d) s).chState d c ≠ chActive
  | [], _, _, _, h => h.resolve_left List.not_mem_nil
  | x :: l, s, hl, hs, h => by
    obtain ⟨hx, hl⟩ := List.forall_mem_cons.mp hl
    refine chState_foldl_stopOne (s := stopOne d s x) hc hl (regsWf_stopOne hs) ?_
    by_cases hxc : x = c
    · exact .inr (hxc ▸ chState_stopOne_self hs hx)
    · rw [chState_stopOne_other hx hc hxc]
      exact h.imp_left fun hmem => (List.mem_cons.mp hmem).resolve_left (Ne.symm hxc)

theorem stopChannels_eq (d : RSlot) (s : State) : stopChannels d s = raise d 0x090 []
    ((((List.range 32).foldl (stopOne d) s).modRind d (fun r => { r with ladle := { r.ladle with pass := none } })).wrR d R.LADLE_STAT_STOPPED 1) := rfl

theorem ladleStopped_stopChannels (hs : s.regsWf = true) : (stopChannels d s).ladleStopped d = true := by
  have hwf : ((List.range 32).foldl (stopOne d) s).regsWf = true := List.foldlRecOn (motive := fun t => State.regsWf t = true) _ _ hs fun _ h _ _ => regsWf_stopOne h
  have hwritten := State.rdR_wrR_self (s := ((List.range 32).foldl (stopOne d) s).modRind d (fun r => { r with ladle := { r.ladle with pass := none } }))
    (d := d) (f := R.LADLE_STAT_STOPPED) (v := 1) (by rw [State.regsWf, State.regs_modRind]; exact hwf) (by decide)
  rw [State.ladleStopped, State.bitR, stopChannels_eq, rdR_raise (by decide) d (by decide), hwritten]
  rfl

theorem chState_stopChannels (hs : s.regsWf = true) (hc : c < 32) : (stopChannels d s).chState d c ≠ chActive := by
  have hfold := chState_foldl_stopOne (d := d) hc (fun x hx => List.mem_range.mp hx) hs (.inl (List.mem_range.mpr hc))
  have hkept : (stopChannels d s).chState d c = ((List.range 32).foldl (stopOne d) s).chState d c := by
    rw [stopChannels_eq, State.chState, R.LADLE_CHSTAT_STATE, rdR_raise ⟨channelField_ok hc (by decide) (by decide), by dsimp only; omega⟩ d (by decide),
      rdR_wrR_ladle (by decide) hc (by decide), State.rdR_modRind]
    rfl
  rw [hkept]
  exact hfold

theorem ladleStopped_wrR {f : Fld} {v : Nat} (hf : f.Ok) (h : f.off ≠ R.LADLE_STAT_STOPPED.off) : (s.wrR d f v).ladleStopped d = s.ladleStopped d := by
  rw [State.ladleStopped, State.bitR, rdR_wrR_off hf (by decide) h]
  rfl

theorem ladleStopped_incR {f : Fld} (hf : f.Ok) (h : f.off ≠ R.LADLE_STAT_STOPPED.off) : (s.incR d f).ladleStopped d = s.ladleStopped d := ladleStopped_wrR hf h

/-- An event of an engine leaves the registers below the culture engines. -/
theorem rdR_postEvent {e : Nat} (he : e < 8) {cls : Nat} {data : BitVec 64} {g : Fld} (hg : g.Ok ∧ g.off < 0xA0000) :
    (postEvent (.rind d e) cls data s).rdR d g = s.rdR d g := by
  obtain ⟨hg, hoff⟩ := hg
  unfold postEvent
  split
  · refine (rdR_wrR_off ⟨Nat.zero_le 4, show 4 < 32 by decide, ?_⟩ hg ?_ d _ _).trans (State.rdR_congr (regs_modEng ..) d g)
    · show 0xA0014 + 8 * e < 0x1000000
      omega
    · show 0xA0014 + 8 * e ≠ g.off
      omega
  · rfl

theorem rdR_ladleEvent {status bytes : Nat} {g : Fld} (hg : g.Ok ∧ g.off < 0xA0000) :
    (ladleEvent d c status bytes s).rdR d g = (s.wrR d (R.LADLE_CHSTAT_LASTEVT c) status).rdR d g := by
  unfold ladleEvent
  dsimp only
  split
  · exact rdR_postEvent (by omega) hg
  · rfl

/-- A channel in ERROR, its pending continuation discarded. -/
def errorEntered (d : RSlot) (c : Nat) (s : State) : State :=
  if (s.wrR d (R.LADLE_CHSTAT_STATE c) chError).pend d c ∧ ((s.wrR d (R.LADLE_CHSTAT_STATE c) chError).ladleShd d c).cont then
    setPend d c false (s.wrR d (R.LADLE_CHSTAT_STATE c) chError)
  else s.wrR d (R.LADLE_CHSTAT_STATE c) chError

theorem enterError_eq (d : RSlot) (c status : Nat) (s : State) :
    enterError d c status s = ladleEvent d c status ((errorEntered d c s).rdR d (R.LADLE_CHACK_BYTES c)) (errorEntered d c s) := rfl

theorem regsWf_errorEntered (hs : s.regsWf = true) : (errorEntered d c s).regsWf = true := by
  unfold errorEntered
  split
  · exact regsWf_setPend false (State.regsWf_wrR hs)
  · exact State.regsWf_wrR hs

theorem chState_errorEntered (hs : s.regsWf = true) (hc : c < 32) : (errorEntered d c s).chState d c = chError := by
  have hwritten : (s.wrR d (R.LADLE_CHSTAT_STATE c) chError).chState d c = chError := State.rdR_wrR_self hs (channelField_ok hc (by decide) (by decide))
  unfold errorEntered
  split
  · exact (rdR_setPend false hc (by decide)).trans hwritten
  · exact hwritten

theorem ladleStopped_errorEntered (hc : c < 32) : (errorEntered d c s).ladleStopped d = s.ladleStopped d := by
  have hwritten : (s.wrR d (R.LADLE_CHSTAT_STATE c) chError).ladleStopped d = s.ladleStopped d :=
    ladleStopped_wrR (channelField_ok hc (by decide) (by decide)) (by show 0x90000 + 64 * c ≠ 0x91000; omega)
  unfold errorEntered
  split
  · obtain ⟨v, hv⟩ := setPend_eq_wrR d c false (s.wrR d (R.LADLE_CHSTAT_STATE c) chError)
    rw [hv, ladleStopped_wrR (by decide) (by decide), hwritten]
  · exact hwritten

theorem chState_enterError {status : Nat} (hs : s.regsWf = true) (hc : c < 32) : (enterError d c status s).chState d c = chError := by
  rw [enterError_eq]
  exact (rdR_ladleEvent ⟨channelField_ok hc (by decide) (by decide), by show 0x90000 + 64 * c < 0xA0000; omega⟩).trans
    ((State.rdR_wrR_apart (regsWf_errorEntered hs) (channelField_ok hc (by decide) (by decide)) (channelField_ok hc (by decide) (by decide))
      (.inr (.inl (show 29 < 30 by decide)))).trans (chState_errorEntered hs hc))

theorem ladleStopped_enterError {status : Nat} (hc : c < 32) : (enterError d c status s).ladleStopped d = s.ladleStopped d := by
  have hevent : (enterError d c status s).ladleStopped d = ((errorEntered d c s).wrR d (R.LADLE_CHSTAT_LASTEVT c) status).ladleStopped d := by
    rw [State.ladleStopped, State.bitR, enterError_eq, rdR_ladleEvent (by decide)]
    rfl
  have hstatus : ((errorEntered d c s).wrR d (R.LADLE_CHSTAT_LASTEVT c) status).ladleStopped d = (errorEntered d c s).ladleStopped d :=
    ladleStopped_wrR (channelField_ok hc (by decide) (by decide)) (by show 0x90000 + 64 * c ≠ 0x91000; omega)
  rw [hevent, hstatus, ladleStopped_errorEntered hc]

theorem busError_first (hs : s.regsWf = true) (hruns : s.chRuns d c = true) (hstopped : s.ladleStopped d = false) :
    busError d c s = stopChannels d (s.incR d R.LADLE_ERRCNT_BUSERR) ∧ (busError d c s).ladleStopped d = true ∧
    ∀ k, k < 32 → (busError d c s).chState d k ≠ chActive := by
  have hstop : busError d c s = stopChannels d (s.incR d R.LADLE_ERRCNT_BUSERR) := by
    rw [busError, if_neg (by rw [hruns]; decide)]
    exact if_neg (by rw [ladleStopped_incR (by decide) (by decide), hstopped]; decide)
  rw [hstop]
  exact ⟨rfl, ladleStopped_stopChannels (State.regsWf_wrR hs), fun _ hk => chState_stopChannels (State.regsWf_wrR hs) hk⟩

/-- The pass has found its culprit, and counts it. -/
def culpritCounted (d : RSlot) (s : State) : State :=
  ((s.incR d R.LADLE_ERRCNT_BUSERR).modRind d (fun r => { r with ladle := { r.ladle with pass := r.ladle.pass.map (fun p => (p.1, true)) } })).incR d
    R.LADLE_ERRCNT_CULPRIT

theorem ladleStopped_culpritCounted : (culpritCounted d s).ladleStopped d = s.ladleStopped d := by
  rw [culpritCounted, ladleStopped_incR (by decide) (by decide), State.ladleStopped, State.bitR, State.rdR_modRind]
  exact ladleStopped_incR (by decide) (by decide)

theorem regsWf_culpritCounted (hs : s.regsWf = true) : (culpritCounted d s).regsWf = true := by
  refine State.regsWf_wrR ?_
  rw [State.regsWf, State.regs_modRind]
  exact State.regsWf_wrR hs

theorem busError_culprit (hs : s.regsWf = true) (hc : c < 32) (hruns : s.chRuns d c = true) (hstopped : s.ladleStopped d = true) :
    (busError d c s).chState d c = chError ∧ (busError d c s).ladleStopped d = true := by
  have hculprit : busError d c s = enterError d c 2 (culpritCounted d s) := by
    rw [busError, if_neg (by rw [hruns]; decide)]
    exact if_pos (by rw [ladleStopped_incR (by decide) (by decide), hstopped])
  rw [hculprit]
  exact ⟨chState_enterError (regsWf_culpritCounted hs) hc, (ladleStopped_enterError hc).trans (ladleStopped_culpritCounted.trans hstopped)⟩

/-! ## The commands of the Ladle -/

theorem ladleShadowWrite_owned {eng pair : Nat} {v : BitVec 64} (h : s.hasCh d c = true) (hpair : pair < 3) (heng : c / 4 = eng) :
    exec (.ladleShadowWrite d eng c pair v) s = .next (settle (reply (.rind d eng) 0x21 (pair + 1)
      (openReply 0x21 (pair + 1) [bit (shadowWrite d c pair v s).1]) (shadowWrite d c pair v s).1 (shadowWrite d c pair v s).2)) := by
  rw [show exec (.ladleShadowWrite d eng c pair v) s = execLadleShadowWrite d eng c pair v s from rfl, execLadleShadowWrite, if_pos ⟨h, hpair⟩,
    if_pos (show ownsChannel eng c = true from decide_eq_true heng)]

theorem ladleShadowWrite_foreign {eng pair : Nat} {v : BitVec 64} (h : s.hasCh d c = true) (hpair : pair < 3) (heng : c / 4 ≠ eng) :
    exec (.ladleShadowWrite d eng c pair v) s = .next (settle (reply (.rind d eng) 0x21 (pair + 1) (openReply 0x21 (pair + 1) [0]) false s)) := by
  rw [show exec (.ladleShadowWrite d eng c pair v) s = execLadleShadowWrite d eng c pair v s from rfl, execLadleShadowWrite, if_pos ⟨h, hpair⟩,
    if_neg (by simpa [ownsChannel] using heng)]

theorem ladleArm_owned {eng : Nat} (h : s.hasCh d c = true) (heng : c / 4 = eng) :
    exec (.ladleArm d eng c) s = .next (settle (reply (.rind d eng) 0x21 4 (openReply 0x21 4 [bit (armChannel d c s).1]) (armChannel d c s).1
      (noteError d St.sglError s (armChannel d c s).2))) := by
  rw [show exec (.ladleArm d eng c) s = execLadleArm d eng c s from rfl, execLadleArm, if_pos h, if_pos (show ownsChannel eng c = true from decide_eq_true heng)]

theorem ladleArm_foreign {eng : Nat} (h : s.hasCh d c = true) (heng : c / 4 ≠ eng) :
    exec (.ladleArm d eng c) s = .next (settle (reply (.rind d eng) 0x21 4 (openReply 0x21 4 [0]) false s)) := by
  rw [show exec (.ladleArm d eng c) s = execLadleArm d eng c s from rfl, execLadleArm, if_pos h, if_neg (by simpa [ownsChannel] using heng)]

/-- The input of a descriptor's end is in step where the descriptor has read host memory (R460, R494). -/
def descriptorStep (d : RSlot) (c : Nat) (s : State) : State :=
  if d = s.senior ∧ (s.ladleAct d c).dir = 1 then newStep 0x06 (32 * s.rdR d (R.LADLE_CHSTAT_DESCS c) + c) 0 s else s

theorem ladleDescriptorEnd_ends (h : s.hasCh d c = true) (hend : s.canEnd d c = true) :
    exec (.ladleDescriptorEnd d c) s = .next (settle (noteError d St.sglError (descriptorStep d c s) (noteDescriptor d c (descriptorStep d c s)
      (endDescriptor d c (moveRest d (((descriptorStep d c s).transferCmd d c).map (fun p => p.1.uid)) c ((descriptorStep d c s).delivers d c)
        (descriptorStep d c s)).2)))) := by
  rw [show exec (.ladleDescriptorEnd d c) s = execLadleDescriptorEnd d c s from rfl, execLadleDescriptorEnd, if_pos (by rw [h, hend]; rfl)]
  rfl

theorem ladleDescriptorEnd_early (hend : s.canEnd d c = false) : exec (.ladleDescriptorEnd d c) s = .next s := by
  rw [show exec (.ladleDescriptorEnd d c) s = execLadleDescriptorEnd d c s from rfl, execLadleDescriptorEnd, if_neg (by simp [hend])]

end

/-- Settles O48: the commands are cases of the model's equations; arming copies the six words; a fold over the channels stops each of them. -/
theorem ladleTransfers : Obligations.LadleTransfers := by
  unfold Obligations.LadleTransfers
  refine ⟨fun d eng ch pair v s => ladleShadowWrite_owned, fun d ch pair v s => shadowWrite_refused, fun d ch v s => shadowWrite_address v,
    fun d eng ch s => ladleArm_owned, fun d ch s hbad => if_neg (by rw [hbad]; decide), fun d ch s => armChannel_starts, fun d eng ch s h => if_pos h,
    fun d ch block s h => if_pos h, walkList_hops, fun d ch data s h => if_pos h,
    fun d ch data s hruns hdir hlist hlen => ⟨_, hostData_answered hruns hdir hlist hlen, rfl⟩,
    fun d ch s h hend => ⟨descriptorStep d ch s, rfl, ladleDescriptorEnd_ends h hend⟩, fun d ch s => ladleDescriptorEnd_early,
    fun d ch s h hd hruns => if_pos ⟨h, hd, hruns⟩, fun d ch s => busError_first, fun d ch s => busError_culprit, fun d skip s hd => if_pos hd,
    fun d skip s h => if_pos (by rw [h]; rfl), fun d eng ch pair v s => ladleShadowWrite_foreign, fun d eng ch s => ladleArm_foreign⟩

end Sys2Proof.Machine
end

section
/-! The words of the culture engines: O49 (R464 to R469, R474, R476, R488). -/

namespace Sys2Proof.Machine

/-! ## An engine's status register (R462, R492) -/

/-- STATE, CPC or PC of an engine. -/
def EngStatus (e : Eng) (f : Fld) : Prop := f = e.fState ∨ f = e.fCpc ∨ f = e.fPc

/-- TRACECTL.EN of an engine's unit. -/
def traceOnField (e : Eng) : Fld := e.pick R.CULT_TRACECTL_EN R.CDIE_FCTRACECTL_EN

section
variable {e : Eng} {f : Fld} {s : State}

theorem engStatus_ok (he : s.hasEng e = true) (hf : EngStatus e f) : f.Ok ∧ f.off ≠ R.STEP_STAT_ROLE.off ∧ f.off ≠ (traceOnField e).off := by
  cases e with
  | curd g =>
    have hoff : 0x200 < 0x1000000 ∧ 0x200 ≠ 0xB0000 ∧ 0x200 ≠ 0x210 := by decide
    obtain rfl | rfl | rfl := hf
    · exact ⟨⟨show 30 ≤ 31 by decide, show 31 < 32 by decide, hoff.1⟩, hoff.2⟩
    · exact ⟨⟨show 16 ≤ 29 by decide, show 29 < 32 by decide, hoff.1⟩, hoff.2⟩
    · exact ⟨⟨show 0 ≤ 13 by decide, show 13 < 32 by decide, hoff.1⟩, hoff.2⟩
  | rind d i =>
    have hi : i < 8 := by simpa [State.hasEng] using (Bool.and_eq_true_iff.mp he).2
    have hoff : 0xA0010 + 8 * i < 0x1000000 ∧ 0xA0010 + 8 * i ≠ 0xB0000 ∧ 0xA0010 + 8 * i ≠ 0xA0060 := by omega
    obtain rfl | rfl | rfl := hf
    · exact ⟨⟨show 30 ≤ 31 by decide, show 31 < 32 by decide, hoff.1⟩, hoff.2⟩
    · exact ⟨⟨show 16 ≤ 29 by decide, show 29 < 32 by decide, hoff.1⟩, hoff.2⟩
    · exact ⟨⟨show 0 ≤ 13 by decide, show 13 < 32 by decide, hoff.1⟩, hoff.2⟩

theorem fState_status (e : Eng) : EngStatus e e.fState := .inl rfl
theorem fCpc_status (e : Eng) : EngStatus e e.fCpc := .inr (.inl rfl)
theorem fPc_status (e : Eng) : EngStatus e e.fPc := .inr (.inr rfl)

/-- The bits of STATE, CPC and PC lie apart, in this order. -/
theorem engStatus_bits (e : Eng) : e.fPc.lo = 0 ∧ e.fPc.hi = 13 ∧ e.fCpc.lo = 16 ∧ e.fCpc.hi = 29 ∧ e.fState.lo = 30 ∧ e.fState.hi = 31 := by
  cases e <;> exact ⟨rfl, rfl, rfl, rfl, rfl, rfl⟩

theorem rd_wr_pc (he : s.hasEng e = true) {t : State} (ht : t.regsWf = true) {v : Nat} (hv : v < 2 ^ 14) :
    (t.wr e.die e.fPc v).rd e.die e.fPc = v := by
  obtain ⟨hlo, hhi, -⟩ := engStatus_bits e
  rw [State.rd_wr_self ht (engStatus_ok he (fPc_status e)).1, hlo, hhi]
  exact Nat.mod_eq_of_lt hv

theorem rd_wr_cpc (he : s.hasEng e = true) {t : State} (ht : t.regsWf = true) {v : Nat} (hv : v < 2 ^ 14) :
    (t.wr e.die e.fCpc v).rd e.die e.fCpc = v := by
  obtain ⟨-, -, hlo, hhi, -⟩ := engStatus_bits e
  rw [State.rd_wr_self ht (engStatus_ok he (fCpc_status e)).1, hlo, hhi]
  exact Nat.mod_eq_of_lt hv

theorem rd_wr_state (he : s.hasEng e = true) {t : State} (ht : t.regsWf = true) {v : Nat} (hv : v < 4) :
    (t.wr e.die e.fState v).rd e.die e.fState = v := by
  obtain ⟨-, -, -, -, hlo, hhi⟩ := engStatus_bits e
  rw [State.rd_wr_self ht (engStatus_ok he (fState_status e)).1, hlo, hhi]
  exact Nat.mod_eq_of_lt hv

theorem rd_wr_status (he : s.hasEng e = true) {g : Fld} (hf : EngStatus e f) (hg : EngStatus e g) (h : f.hi < g.lo ∨ g.hi < f.lo) {t : State} (ht : t.regsWf = true) {v : Nat} :
    (t.wr e.die f v).rd e.die g = t.rd e.die g := State.rd_wr_apart ht (engStatus_ok he hf).1 (engStatus_ok he hg).1 (.inr h)

theorem traceOn_ok (e : Eng) : (traceOnField e).Ok := by
  cases e with
  | rind d i =>
    show R.CULT_TRACECTL_EN.Ok
    decide
  | curd g =>
    show R.CDIE_FCTRACECTL_EN.Ok
    decide

theorem traceOn_wr (he : s.hasEng e = true) (hf : EngStatus e f) {t : State} {v : Nat} : (t.wr e.die f v).rd e.die (traceOnField e) = t.rd e.die (traceOnField e) :=
  State.rd_wr_other (engStatus_ok he hf).1 (traceOn_ok e) (.inr (engStatus_ok he hf).2.2)

theorem traceRec_off {kind addr data : Nat} (h : s.rd e.die (traceOnField e) = 0) : traceRec e kind addr data s = s := by
  rw [traceRec]
  exact if_neg fun hon => absurd (hon.1.symm.trans h) (by decide)

theorem regsWf_modEng {g : Engine → Engine} (hs : s.regsWf = true) : (modEng e g s).regsWf = true := by rwa [State.regsWf, regs_modEng]

theorem rd_modEng {g : Engine → Engine} {die : Nat} : (modEng e g s).rd die f = s.rd die f := by rw [State.rd, State.word, regs_modEng]; rfl

theorem out_modEng (g : Engine → Engine) : (modEng e g s).out = s.out := by cases e <;> simp [modEng]

theorem cmds_modEng (g : Engine → Engine) : (modEng e g s).cmds = s.cmds := by cases e <;> simp [modEng]

theorem modEng_unchanged {g : Engine → Engine} (h : ∀ x, g x = x) : modEng e g s = s := by
  obtain rfl : g = id := funext h
  cases e with
  | rind d i => cases d <;> simp [modEng, State.modRind, modAt]
  | curd c => exact congrArg (fun l => ({ s with curds := l } : State)) (List.modify_id c s.curds)

end

/-! ## What a word leaves (R466 to R469) -/

section
variable (s : State) (e : Eng) (pc : Nat) (m : Micro)

/-- Where the next word lies, before it is cut to the store (R466). -/
def State.wordNext : Nat :=
  match m.nac with
  | 1 => m.naddr
  | 2 => if s.wordTaken e m then m.naddr else pc + 1
  | 3 => m.naddr
  | 4 => if s.wordTaken e m then m.naddr else pc + 1
  | 5 => (s.eng e).stack.headD 0
  | 6 => if decide (m.nac = 6 ∧ s.wordLoop e m ≠ 0) then m.naddr else pc + 1
  | 7 => m.naddr + ((s.eng e).reg m.srca).toNat % 16
  | _ => pc + 1

/-- The stack after a word (R466, R474). -/
def State.wordStack : List Nat :=
  match m.nac with
  | 3 => (pc + 1) :: (s.eng e).stack
  | 4 => if s.wordTaken e m then (pc + 1) :: (s.eng e).stack else (s.eng e).stack
  | 5 => (s.eng e).stack.tail
  | _ => (s.eng e).stack

/-- The registers after the ALU's result is written (R468). -/
def State.wordResult : Engine := if m.aluop = 0 ∨ m.aluop = 0x0D then s.eng e else (s.eng e).setReg m.dest (s.wordOut e m).value

/-- The registers after the word's move (R464). -/
def State.wordMoved : Engine := if m.mvdst = 0 then s.wordResult e m else (s.wordResult e m).setReg m.mvdst ((s.eng e).reg m.mvsrc)

/-- The engine after a word. -/
def State.wordEngine : Engine := { s.wordMoved e m with
  loop := if decide (m.nac = 6 ∧ s.wordLoop e m ≠ 0) then s.wordLoop e m - 1 else s.wordLoop e m
  stack := s.wordStack e pc m
  waiting := none
  timer := match m.tmrop with
    | 1 => some (s.now + ((s.eng e).reg m.srcb).toNat)
    | 2 => none
    | _ => (s.eng e).timer }

/-- The state in which a word has completed, before it leads on. -/
def State.wordDone : State := setEngState e engRunning (modEng e (fun _ => s.wordEngine e pc m) s)

end

section
variable {e : Eng} {nac pc : Nat} {m : Micro} {s : State}

theorem finishWord_completes (hstack : m.stackOk (s.eng e) (s.wordTaken e m) = true) (htrace : (s.wordDone e pc m).rd e.die (traceOnField e) = 0) :
    finishWord e pc m s = endWord e pc (s.wordNext e pc m % storeTop e) m (s.wordDone e pc m) := by
  have hsame (kind addr data : Nat) : traceRec e kind addr data (s.wordDone e pc m) = s.wordDone e pc m := traceRec_off htrace
  have hbranch : ¬ (! m.stackOk (s.eng e) (s.wordTaken e m)) = true := by rw [hstack]; decide
  refine (if_neg hbranch).trans ?_
  show endWord e pc (s.wordNext e pc m % storeTop e) m (if _ then traceRec e 1 pc _ (s.wordDone e pc m) else s.wordDone e pc m) = _
  rw [hsame, ite_self]

theorem finishWord_overflows (hstack : m.stackOk (s.eng e) (s.wordTaken e m) = false) (hrev : m.irreversible e.isCurd = 0) : finishWord e pc m s = syncFault e 1 pc s := by
  have hbranch : (! m.stackOk (s.eng e) (s.wordTaken e m)) = true := by rw [hstack]; rfl
  refine (if_pos hbranch).trans ?_
  rw [if_neg (by omega)]

theorem nextEvent_none {g : Engine} (h : g.events = []) (sample : Nat) : g.nextEvent sample = none := by rw [Engine.nextEvent, h]; rfl

section
variable {next : Nat} {t : State} (hcommit : m.commit = false) (hevents : (t.eng e).events = [])
include hcommit hevents

theorem endWord_leads (hnac : m.nac < 8) : endWord e pc next m t = setPc e next t := by
  rw [endWord, hcommit]
  simp only [nextEvent_none hevents, ite_self, Bool.false_eq_true, if_false]
  generalize m.nac = k at hnac ⊢
  interval_cases k <;> rfl

theorem endWord_waits (hnac : m.nac = 8) :
    endWord e pc next m t = setEngState e engWaiting (setPc e pc (modEng e (fun g => { g with parked := some pc }) t)) := by
  rw [endWord, hcommit, hnac]
  simp only [nextEvent_none hevents, ite_self, Bool.false_eq_true, if_false]

theorem endWord_ends (hnac : m.nac = 9) : endWord e pc next m t = enterVector e 7 (modEng e (fun g => { g with stack := [] }) t) := by
  rw [endWord, hcommit, hnac]
  simp only [nextEvent_none hevents, ite_self, Bool.false_eq_true, if_false]

end

end

theorem stackOk_untaken {g : Engine} {m : Micro} {taken : Bool} (hstack : m.stackOk g taken = true) : m.stackOk g false = true := by
  revert hstack
  cases taken
  · exact id
  · simp only [Micro.stackOk, Bool.and_true, Bool.and_false, Bool.or_false]
    grind

/-! ## Plain words (R464, R470, R474) -/

section
variable {e : Eng} {nac pc : Nat} {m : Micro} {s : State} (h : s.PlainWord e nac pc m)
include h

theorem plainWord_irreversible : m.irreversible e.isCurd = 0 := by
  obtain ⟨-, -, -, -, -, -, -, -, -, -, -, -, -, -, -, -, -, -, hissues, hvat, hld, -, -⟩ := h
  simp [Micro.irreversible, hissues, hvat, hld]

theorem plainWord_requests (g : Engine) : m.requests g e.isCurd pc = [] := by
  obtain ⟨-, -, -, -, -, -, -, -, -, -, -, -, -, -, -, -, -, -, hissues, hvat, hld, hmem, -⟩ := h
  simp [Micro.requests, hissues, hvat, hld, hmem]

/-- The checks before a word's completion, but for the stack, pass at a plain word. -/
theorem plainWord_checks : runWord nac e s = if m.stackOk (s.eng e) false then finishWord e pc m s else syncFault e 1 pc s := by
  have hrequests := plainWord_requests h
  obtain ⟨-, -, he, -, hrun, hwait, hpark, hreqs, -, hbad, hbadStack, -, rfl, rfl, hwrong, hconfig, rfl, hlegal, -, -, -, hmem, -⟩ := h
  have hparity : (microFields ((s.storeOf e).word (s.rd e.die e.fPc))).parity (s.eng e) = false := by simp [Micro.parity, hbad, hbadStack]
  have hsame (l : List EngReq) (hl : l = []) : modEng e (fun g => { g with reqs := g.reqs ++ l }) s = s :=
    modEng_unchanged fun g => by rw [hl, List.append_nil]
  unfold runWord
  dsimp only
  rw [if_neg (by simp [he, hrun, hwait]), if_neg (by simp [hpark]), hwrong, if_neg (by decide), if_neg Nat.zero_ne_one]
  by_cases hstack : (microFields ((s.storeOf e).word (s.rd e.die e.fPc))).stackOk (s.eng e) false = true
  · rw [if_pos hstack, if_neg (by simp [hlegal, hconfig, hmem, hstack]), if_neg (by simp [hparity]), if_neg (by simp [hreqs]), hsame _ (hrequests _),
      if_neg (by simp [hreqs])]
  · rw [if_neg hstack, if_pos (by simp [hstack])]

theorem plainWord_faults (hstack : m.stackOk (s.eng e) (s.wordTaken e m) = false) : runWord nac e s = syncFault e 1 pc s := by
  rw [plainWord_checks h]
  split
  · exact finishWord_overflows hstack (plainWord_irreversible h)
  · rfl

theorem eng_wordDone : (s.wordDone e pc m).eng e = s.wordEngine e pc m := by
  obtain ⟨-, -, -, hheld, -⟩ := h
  rw [State.wordDone, setEngState, eng_wr, eng_modEng_self hheld]

theorem regsWf_wordDone : (s.wordDone e pc m).regsWf = true := by
  obtain ⟨-, hs, -⟩ := h
  exact State.regsWf_wr (regsWf_modEng hs)

theorem traceOn_wordDone : (s.wordDone e pc m).rd e.die (traceOnField e) = 0 := by
  obtain ⟨-, -, he, -, -, -, -, -, -, -, -, htrace, -⟩ := h
  rw [State.wordDone, setEngState, traceOn_wr he (fState_status e), rd_modEng]
  exact htrace

theorem quiet_wordDone : (s.wordDone e pc m).Quiet := by
  obtain ⟨hq, -, he, -⟩ := h
  obtain ⟨hok, hoff, -⟩ := engStatus_ok he (fState_status e)
  exact hq.modEng.wr hok hoff

theorem wordMoved_events : (s.wordMoved e m).events = [] := by
  obtain ⟨-, -, -, -, -, -, -, -, hevents, -⟩ := h
  have hset (g : Engine) (i : Nat) (v : BitVec 64) : (g.setReg i v).events = g.events := by
    unfold Engine.setReg
    split <;> rfl
  unfold State.wordMoved State.wordResult
  split <;> split <;> simp only [hset, hevents]

theorem events_wordDone : ((s.wordDone e pc m).eng e).events = [] := by
  rw [eng_wordDone h]
  exact wordMoved_events h

theorem runWord_completes (hstack : m.stackOk (s.eng e) (s.wordTaken e m) = true) :
    runWord nac e s = endWord e pc (s.wordNext e pc m % storeTop e) m (s.wordDone e pc m) := by
  rw [plainWord_checks h, if_pos (stackOk_untaken hstack), finishWord_completes hstack (traceOn_wordDone h)]

/-- A word whose NAC is below 8 leaves the engine at the next word. -/
theorem runWord_leads (hnac : nac < 8) (hstack : m.stackOk (s.eng e) (s.wordTaken e m) = true) :
    runWord nac e s = setPc e (s.wordNext e pc m % storeTop e) (s.wordDone e pc m) := by
  rw [runWord_completes h hstack]
  obtain ⟨-, -, -, -, -, -, -, -, -, -, -, -, -, -, -, -, rfl, -, -, -, -, -, hcommit⟩ := id h
  exact endWord_leads hcommit (events_wordDone h) hnac

end

theorem wordNext_lt (e : Eng) (n : Nat) : n % storeTop e < 2 ^ 14 := by
  unfold storeTop
  split
  · exact Nat.lt_of_lt_of_le (Nat.mod_lt _ (by decide)) (by decide)
  · exact Nat.mod_lt _ (by decide)

/-- A word that leads on: the program counter, the engine, and nothing on the pins or for the commands. -/
theorem plainWord_leads {e : Eng} {nac pc : Nat} {m : Micro} {s : State} (h : s.PlainWord e nac pc m) (hnac : nac < 8)
    (hstack : m.stackOk (s.eng e) (s.wordTaken e m) = true) :
    ∃ t, settle (runWord nac e s) = t ∧ t.rd e.die e.fPc = s.wordNext e pc m % storeTop e ∧ t.eng e = s.wordEngine e pc m ∧ t.out = s.out ∧ t.cmds = s.cmds := by
  obtain ⟨-, -, he, -⟩ := id h
  obtain ⟨hok, hoff, -⟩ := engStatus_ok he (fPc_status e)
  rw [runWord_leads h hnac hstack]
  refine ⟨_, settle_quiet ((quiet_wordDone h).wr hok hoff), rd_wr_pc he (regsWf_wordDone h) (wordNext_lt ..), ?_, ?_, ?_⟩
  · rw [setPc, eng_wr, eng_wordDone h]
  · exact out_modEng _
  · exact cmds_modEng _

/-! ## WAIT and END (R466, R476, R479, R488) -/

/-- The engine stands parked at its word. -/
def State.wordParked (s : State) (e : Eng) (pc : Nat) (m : Micro) : State :=
  setEngState e engWaiting (setPc e pc (modEng e (fun g => { g with parked := some pc }) (s.wordDone e pc m)))

/-- The engine runs at a vector. -/
def vectorEntered (e : Eng) (k : Nat) (s : State) : State :=
  setEngState e engRunning (setPc e (s.vector e k) (modEng e (fun g => { g with waiting := none, parked := none }) s))

/-- A commit without its trace record (R479). -/
def commitSaved (e : Eng) (a : Nat) (s : State) : State :=
  (modEng e (fun g => { g with saved := ⟨a, g.regs, g.loop, g.stack, g.latch, g.timer, false⟩, resumes := 0, drains := [], since := s.now }) s).wr e.die e.fCpc a

/-- An engine at a vector, with its commit there. -/
def vectorTaken (e : Eng) (k : Nat) (s : State) : State := commitSaved e (s.vector e k) (vectorEntered e k s)

section
variable {e : Eng} {k : Nat} {s : State}

theorem vector_modEng (f : Engine → Engine) : (modEng e f s).vector e k = s.vector e k := by
  cases e with
  | rind d i => cases d <;> rfl
  | curd g =>
    have hstore : ((s.modCurd g (fun c => { c with eng := f c.eng })).curd g).store = (s.curd g).store := getD_modAt_field CurdDie.store fun _ => rfl
    simp only [State.vector, modEng, hstore]

theorem vector_wr (die : Nat) (f : Fld) (v : Nat) : (s.wr die f v).vector e k = s.vector e k := by
  cases e with
  | rind d i => cases d <;> rfl
  | curd g => rfl

theorem vector_lt (s : State) (e : Eng) (k : Nat) : s.vector e k < 2 ^ 14 := by
  cases e with
  | rind d i => exact Nat.mod_lt _ (Nat.two_pow_pos 14)
  | curd g => exact Nat.lt_of_lt_of_le (Nat.mod_lt _ (Nat.two_pow_pos 12)) (Nat.pow_le_pow_right (by decide) (by decide))

theorem eng_modEng_field {α : Type} (π : Engine → α) {f : Engine → Engine} (h : ∀ g, π (f g) = π g) : π ((modEng e f s).eng e) = π (s.eng e) := by
  cases e with
  | rind d i =>
    rw [modEng, State.eng, State.rind_modRind]
    exact getD_modAt_field π h
  | curd g => exact getD_modAt_field (fun c : CurdDie => π c.eng) fun c => h c.eng

theorem hasEng_modEng {f : Engine → Engine} {x : Eng} : (modEng e f s).hasEng x = s.hasEng x := by
  cases e with
  | rind d i => cases d <;> cases x <;> rfl
  | curd g => cases x <;> rfl

theorem engHeld_wr {die v : Nat} {f : Fld} (h : s.EngHeld e) : (s.wr die f v).EngHeld e := by
  cases e with
  | rind d i => rwa [State.EngHeld, State.rind_wr]
  | curd g => exact h

theorem engHeld_modEng {f : Engine → Engine} (h : s.EngHeld e) : (modEng e f s).EngHeld e := by
  cases e with
  | rind d i =>
    rw [State.EngHeld, modEng, State.rind_modRind]
    exact Nat.lt_of_lt_of_eq h length_modAt.symm
  | curd g => exact Nat.lt_of_lt_of_eq h length_modAt.symm

section
variable (he : s.hasEng e = true)
include he

theorem enterVector_untraced (htrace : s.rd e.die (traceOnField e) = 0) : enterVector e k s = vectorTaken e k s := by
  refine traceRec_off (s := vectorTaken e k s) ?_
  rw [vectorTaken, commitSaved, traceOn_wr he (fCpc_status e), rd_modEng, vectorEntered, setEngState, traceOn_wr he (fState_status e), setPc,
    traceOn_wr he (fPc_status e), rd_modEng, htrace]

theorem quiet_vectorTaken (hq : s.Quiet) : (vectorTaken e k s).Quiet := by
  obtain ⟨hpc, hpcOff, -⟩ := engStatus_ok he (fPc_status e)
  obtain ⟨hcpc, hcpcOff, -⟩ := engStatus_ok he (fCpc_status e)
  obtain ⟨hstate, hstateOff, -⟩ := engStatus_ok he (fState_status e)
  exact ((hq.modEng.wr hpc hpcOff).wr hstate hstateOff).modEng.wr hcpc hcpcOff

theorem rd_vectorEntered (hs : s.regsWf = true) :
    (vectorEntered e k s).rd e.die e.fPc = s.vector e k ∧ (vectorEntered e k s).rd e.die e.fState = engRunning := by
  obtain ⟨-, hpchi, -, -, hstatelo, -⟩ := engStatus_bits e
  have hpc : (setPc e (s.vector e k) (modEng e (fun g => { g with waiting := none, parked := none }) s)).regsWf = true := State.regsWf_wr (regsWf_modEng hs)
  refine ⟨?_, rd_wr_state he hpc (by decide)⟩
  rw [vectorEntered, setEngState, rd_wr_status he (fState_status e) (fPc_status e) (by omega) hpc]
  exact rd_wr_pc he (regsWf_modEng hs) (vector_lt ..)

theorem rd_vectorTaken (hs : s.regsWf = true) : (vectorTaken e k s).rd e.die e.fPc = s.vector e k ∧
    (vectorTaken e k s).rd e.die e.fCpc = s.vector e k ∧ (vectorTaken e k s).rd e.die e.fState = engRunning := by
  obtain ⟨-, hpchi, hcpclo, hcpchi, hstatelo, -⟩ := engStatus_bits e
  obtain ⟨hpc, hstate⟩ := rd_vectorEntered (k := k) he hs
  have hentered : (vectorEntered e k s).regsWf = true := State.regsWf_wr (State.regsWf_wr (regsWf_modEng hs))
  refine ⟨?_, rd_wr_cpc he (regsWf_modEng hentered) (vector_lt ..), ?_⟩
  · rw [vectorTaken, commitSaved, rd_wr_status he (fCpc_status e) (fPc_status e) (by omega) (regsWf_modEng hentered), rd_modEng, hpc]
  · rw [vectorTaken, commitSaved, rd_wr_status he (fCpc_status e) (fState_status e) (by omega) (regsWf_modEng hentered), rd_modEng, hstate]

end

theorem stack_vectorTaken : ((vectorTaken e k s).eng e).stack = (s.eng e).stack := by
  have hentered : ((vectorEntered e k s).eng e).stack = (s.eng e).stack :=
    (congrArg Engine.stack ((eng_wr ..).trans (eng_wr ..))).trans (eng_modEng_field Engine.stack fun _ => rfl)
  refine (congrArg Engine.stack (eng_wr ..)).trans ((eng_modEng_field Engine.stack ?_).trans hentered)
  exact fun _ => rfl

theorem host_vectorTaken : (vectorTaken e k s).out = s.out ∧ (vectorTaken e k s).cmds = s.cmds :=
  ⟨(out_modEng _).trans (out_modEng _), (cmds_modEng _).trans (cmds_modEng _)⟩

end

section
variable {e : Eng} {pc : Nat} {m : Micro} {s : State}

theorem engHeld_wordDone {nac : Nat} (h : s.PlainWord e nac pc m) : (s.wordDone e pc m).EngHeld e := by
  obtain ⟨-, -, -, hheld, -⟩ := h
  exact engHeld_wr (engHeld_modEng hheld)

theorem stackOk_other (g : Engine) (taken : Bool) (h3 : m.nac ≠ 3) (h4 : m.nac ≠ 4) (h5 : m.nac ≠ 5) : m.stackOk g taken = true := by
  simp [Micro.stackOk, h3, h4, h5]

theorem plainWord_waits (h : s.PlainWord e 8 pc m) : ∃ t, exec (.waitOp e) s = .next t ∧ t.rd e.die e.fState = engWaiting ∧ t.rd e.die e.fPc = pc ∧
    (t.eng e).parked = some pc ∧ t.out = s.out ∧ t.cmds = s.cmds := by
  obtain ⟨-, -, he, -, -, -, -, -, -, -, -, -, hpc, -, -, -, hnac, -, -, -, -, -, hcommit⟩ := id h
  obtain ⟨hpcOk, hpcOff, -⟩ := engStatus_ok he (fPc_status e)
  obtain ⟨hstateOk, hstateOff, -⟩ := engStatus_ok he (fState_status e)
  obtain ⟨hpclo, hpchi, -, -, hstatelo, -⟩ := engStatus_bits e
  have hparked : (modEng e (fun g => { g with parked := some pc }) (s.wordDone e pc m)).regsWf = true := regsWf_modEng (regsWf_wordDone h)
  have hplaced : (setPc e pc (modEng e (fun g => { g with parked := some pc }) (s.wordDone e pc m))).regsWf = true := State.regsWf_wr hparked
  have hpcSmall : pc < 2 ^ 14 := by
    rw [hpc]
    refine Nat.lt_of_lt_of_eq (Fld.get_lt _ _ ⟨hpcOk.1, hpcOk.2.1⟩) ?_
    rw [hpclo, hpchi]
  have hrun : runWord 8 e s = s.wordParked e pc m :=
    (runWord_completes h (stackOk_other _ _ (by omega) (by omega) (by omega))).trans (endWord_waits hcommit (events_wordDone h) hnac)
  refine ⟨s.wordParked e pc m, congrArg Host.Outcome.next ((congrArg settle hrun).trans (settle_quiet ?_)), rd_wr_state he hplaced (by decide), ?_, ?_,
    (out_modEng _).trans (out_modEng _), (cmds_modEng _).trans (cmds_modEng _)⟩
  · exact ((quiet_wordDone h).modEng.wr hpcOk hpcOff).wr hstateOk hstateOff
  · rw [State.wordParked, setEngState, rd_wr_status he (fState_status e) (fPc_status e) (by omega) hplaced]
    exact rd_wr_pc he hparked hpcSmall
  · rw [State.wordParked, setEngState, eng_wr, setPc, eng_wr, eng_modEng_self (engHeld_wordDone h)]

theorem plainWord_ends (h : s.PlainWord e 9 pc m) : ∃ t, exec (.endOp e) s = .next t ∧ t.rd e.die e.fPc = s.vector e 7 ∧ t.rd e.die e.fCpc = s.vector e 7 ∧
    t.rd e.die e.fState = engRunning ∧ (t.eng e).stack = [] ∧ t.out = s.out ∧ t.cmds = s.cmds := by
  obtain ⟨-, -, he, -, -, -, -, -, -, -, -, -, -, -, -, -, hnac, -, -, -, -, -, hcommit⟩ := id h
  have hhas : (modEng e (fun g => { g with stack := [] }) (s.wordDone e pc m)).hasEng e = true := hasEng_modEng.trans (hasEng_modEng.trans he)
  have htrace : (modEng e (fun g => { g with stack := [] }) (s.wordDone e pc m)).rd e.die (traceOnField e) = 0 := rd_modEng.trans (traceOn_wordDone h)
  have hvector : (modEng e (fun g => { g with stack := [] }) (s.wordDone e pc m)).vector e 7 = s.vector e 7 :=
    (vector_modEng _).trans ((vector_wr ..).trans (vector_modEng _))
  have hrun : runWord 9 e s = vectorTaken e 7 (modEng e (fun g => { g with stack := [] }) (s.wordDone e pc m)) := by
    rw [runWord_completes h (stackOk_other _ _ (by omega) (by omega) (by omega)), endWord_ends hcommit (events_wordDone h) hnac, enterVector_untraced hhas htrace]
  obtain ⟨hpc, hcpc, hstate⟩ := rd_vectorTaken (k := 7) hhas (regsWf_modEng (regsWf_wordDone h))
  obtain ⟨hout, hcmds⟩ := host_vectorTaken (e := e) (k := 7) (s := modEng e (fun g => { g with stack := [] }) (s.wordDone e pc m))
  refine ⟨_, congrArg Host.Outcome.next ((congrArg settle hrun).trans (settle_quiet (quiet_vectorTaken hhas (quiet_wordDone h).modEng))), hpc.trans hvector,
    hcpc.trans hvector, hstate, ?_, ?_, ?_⟩
  · rw [stack_vectorTaken, eng_modEng_self (engHeld_wordDone h)]
  · exact hout.trans ((out_modEng _).trans (out_modEng _))
  · exact hcmds.trans ((cmds_modEng _).trans (cmds_modEng _))

theorem wordStack_kept (h3 : m.nac ≠ 3) (h4 : m.nac ≠ 4) (h5 : m.nac ≠ 5) : s.wordStack e pc m = (s.eng e).stack := by
  unfold State.wordStack
  split
  · exact absurd ‹_› h3
  · exact absurd ‹_› h4
  · exact absurd ‹_› h5
  · rfl

theorem plainWord_nac {nac : Nat} (h : s.PlainWord e nac pc m) : m.nac = nac := by
  obtain ⟨-, -, -, -, -, -, -, -, -, -, -, -, -, -, -, -, hnac, -⟩ := h
  exact hnac

/-- A word that leads on, its next word and its stack given. -/
theorem plainWord_steps {nac next : Nat} {stack : List Nat} (h : s.PlainWord e nac pc m) (hnac : nac < 8) (hok : m.stackOk (s.eng e) (s.wordTaken e m) = true)
    (hnext : s.wordNext e pc m = next) (hstack : s.wordStack e pc m = stack) :
    ∃ t, Host.Outcome.next (settle (runWord nac e s)) = (.next t : Host.Outcome State Fault Refusal) ∧ t.rd e.die e.fPc = next % storeTop e ∧ (t.eng e).stack = stack ∧
      t.out = s.out ∧ t.cmds = s.cmds := by
  obtain ⟨t, ht, hpc, heng, hhost⟩ := plainWord_leads h hnac hok
  exact ⟨t, congrArg Host.Outcome.next ht, hnext ▸ hpc, (congrArg Engine.stack heng).trans hstack, hhost⟩

theorem plainWord_next (h : s.PlainWord e 0 pc m) : ∃ t, exec (.next e) s = .next t ∧ t.rd e.die e.fPc = (pc + 1) % storeTop e ∧
    (t.eng e).stack = (s.eng e).stack ∧ (t.eng e).loop = s.wordLoop e m ∧ t.out = s.out ∧ t.cmds = s.cmds := by
  have hnac := plainWord_nac h
  have hnext : s.wordNext e pc m = pc + 1 := by simp only [State.wordNext, hnac]
  have hloop : (s.wordEngine e pc m).loop = s.wordLoop e m := by simp [State.wordEngine, hnac]
  obtain ⟨t, ht, hpc, heng, hhost⟩ := plainWord_leads h (by decide) (stackOk_other _ _ (by omega) (by omega) (by omega))
  exact ⟨t, congrArg Host.Outcome.next ht, hnext ▸ hpc, (congrArg Engine.stack heng).trans (wordStack_kept (by omega) (by omega) (by omega)),
    (congrArg Engine.loop heng).trans hloop, hhost⟩

theorem plainWord_jump (h : s.PlainWord e 1 pc m) : ∃ t, exec (.jump e) s = .next t ∧ t.rd e.die e.fPc = m.naddr % storeTop e ∧
    (t.eng e).stack = (s.eng e).stack ∧ t.out = s.out ∧ t.cmds = s.cmds := by
  have hnac := plainWord_nac h
  exact plainWord_steps h (by decide) (stackOk_other _ _ (by omega) (by omega) (by omega)) (by simp only [State.wordNext, hnac])
    (wordStack_kept (by omega) (by omega) (by omega))

theorem plainWord_branch (h : s.PlainWord e 2 pc m) : ∃ t, exec (.branch e) s = .next t ∧
    t.rd e.die e.fPc = (if s.wordTaken e m then m.naddr else pc + 1) % storeTop e ∧ (t.eng e).stack = (s.eng e).stack ∧ t.out = s.out ∧ t.cmds = s.cmds := by
  have hnac := plainWord_nac h
  exact plainWord_steps h (by decide) (stackOk_other _ _ (by omega) (by omega) (by omega)) (by simp only [State.wordNext, hnac])
    (wordStack_kept (by omega) (by omega) (by omega))

theorem plainWord_call (h : s.PlainWord e 3 pc m) (hroom : (s.eng e).stack.length < 8) : ∃ t, exec (.call e) s = .next t ∧
    t.rd e.die e.fPc = m.naddr % storeTop e ∧ (t.eng e).stack = (pc + 1) :: (s.eng e).stack ∧ t.out = s.out ∧ t.cmds = s.cmds := by
  have hnac := plainWord_nac h
  exact plainWord_steps h (by decide) (by simp [Micro.stackOk, hnac, hroom]) (by simp only [State.wordNext, hnac]) (by simp only [State.wordStack, hnac])

theorem plainWord_callc (h : s.PlainWord e 4 pc m) (hroom : s.wordTaken e m = true → (s.eng e).stack.length < 8) : ∃ t, exec (.callc e) s = .next t ∧
    t.rd e.die e.fPc = (if s.wordTaken e m then m.naddr else pc + 1) % storeTop e ∧
    (t.eng e).stack = (if s.wordTaken e m then [pc + 1] else []) ++ (s.eng e).stack ∧ t.out = s.out ∧ t.cmds = s.cmds := by
  have hnac := plainWord_nac h
  have hok : m.stackOk (s.eng e) (s.wordTaken e m) = true := by
    cases htaken : s.wordTaken e m
    · simp [Micro.stackOk, hnac]
    · simp [Micro.stackOk, hnac, hroom htaken]
  refine plainWord_steps h (by decide) hok (by simp only [State.wordNext, hnac]) ?_
  simp only [State.wordStack, hnac]
  split <;> rfl

theorem plainWord_return {a : Nat} {rest : List Nat} (h : s.PlainWord e 5 pc m) (htop : (s.eng e).stack = a :: rest) : ∃ t, exec (.returnOp e) s = .next t ∧
    t.rd e.die e.fPc = a % storeTop e ∧ (t.eng e).stack = rest ∧ t.out = s.out ∧ t.cmds = s.cmds := by
  have hnac := plainWord_nac h
  exact plainWord_steps h (by decide) (by simp [Micro.stackOk, hnac, htop]) (by simp only [State.wordNext, hnac, htop, List.headD_cons])
    (by simp only [State.wordStack, hnac, htop, List.tail_cons])

theorem plainWord_loop (h : s.PlainWord e 6 pc m) : ∃ t, exec (.loop e) s = .next t ∧
    t.rd e.die e.fPc = (if s.wordLoop e m ≠ 0 then m.naddr else pc + 1) % storeTop e ∧ (t.eng e).loop = s.wordLoop e m - 1 ∧
    (t.eng e).stack = (s.eng e).stack ∧ t.out = s.out ∧ t.cmds = s.cmds := by
  have hnac := plainWord_nac h
  have hnext : s.wordNext e pc m = if s.wordLoop e m ≠ 0 then m.naddr else pc + 1 := by simp [State.wordNext, hnac]
  have hloop : (s.wordEngine e pc m).loop = s.wordLoop e m - 1 := by
    by_cases hzero : s.wordLoop e m = 0 <;> simp [State.wordEngine, hnac, hzero]
  obtain ⟨t, ht, hpc, heng, hhost⟩ := plainWord_leads h (by decide) (stackOk_other _ _ (by omega) (by omega) (by omega))
  exact ⟨t, congrArg Host.Outcome.next ht, hnext ▸ hpc, (congrArg Engine.loop heng).trans hloop,
    (congrArg Engine.stack heng).trans (wordStack_kept (by omega) (by omega) (by omega)), hhost⟩

theorem plainWord_dispatch (h : s.PlainWord e 7 pc m) : ∃ t, exec (.dispatch e) s = .next t ∧
    t.rd e.die e.fPc = (m.naddr + ((s.eng e).reg m.srca).toNat % 16) % storeTop e ∧ (t.eng e).stack = (s.eng e).stack ∧ t.out = s.out ∧ t.cmds = s.cmds := by
  have hnac := plainWord_nac h
  exact plainWord_steps h (by decide) (stackOk_other _ _ (by omega) (by omega) (by omega)) (by simp only [State.wordNext, hnac])
    (wordStack_kept (by omega) (by omega) (by omega))

/-! ## The registers after a word (R464, R468) -/

theorem wordMoved_eq (i : Nat) (h : i ≠ m.mvdst ∨ m.mvdst = 0) : (s.wordMoved e m).reg i = (s.wordResult e m).reg i := by
  rw [State.wordMoved]
  split
  · rfl
  · next hmv => exact Engine.reg_setReg_other _ (h.resolve_right hmv)

/-- A legal word does not move into the register that takes its result. -/
theorem dest_ne_mvdst {curd : Bool} (hlegal : m.illegal curd = false) : m.dest ≠ m.mvdst ∨ m.mvdst = 0 := by
  by_contra hboth
  push Not at hboth
  simp [Micro.illegal, hboth.1, hboth.2] at hlegal

theorem plainWord_registers {nac : Nat} (hnac : nac < 8) (h : s.PlainWord e nac pc m) (hstack : m.stackOk (s.eng e) (s.wordTaken e m) = true) (hdest : m.dest ≠ 0)
    (hnop : m.aluop ≠ 0) (hcmp : m.aluop ≠ 0x0D) : ((runWord nac e s).eng e).reg m.dest = (s.wordOut e m).value ∧
      ∀ i, i ≠ m.dest → i ≠ m.mvdst → ((runWord nac e s).eng e).reg i = (s.eng e).reg i := by
  obtain ⟨-, -, -, -, -, -, -, -, -, -, -, -, -, -, -, -, -, hlegal, -⟩ := id h
  have hresult : s.wordResult e m = (s.eng e).setReg m.dest (s.wordOut e m).value := if_neg (by simp [hnop, hcmp])
  have heng : (runWord nac e s).eng e = s.wordEngine e pc m := by
    rw [runWord_leads h hnac hstack, setPc, eng_wr, eng_wordDone h]
  have hreg (i : Nat) : ((runWord nac e s).eng e).reg i = (s.wordMoved e m).reg i :=
    (congrArg (fun g => g.reg i) heng).trans (show (s.wordEngine e pc m).reg i = (s.wordMoved e m).reg i from rfl)
  refine ⟨?_, fun i hi hmv => ?_⟩
  · rw [hreg, wordMoved_eq _ (dest_ne_mvdst hlegal), hresult, Engine.reg_setReg_self _ hdest]
  · rw [hreg, wordMoved_eq _ (.inl hmv), hresult, Engine.reg_setReg_other _ hi]

end

/-- Settles O49: a plain word passes every check, completes without a trace, a commit or an event, and leads on by its NAC. -/
theorem engineWords : Obligations.EngineWords := by
  unfold Obligations.EngineWords
  exact ⟨fun e pc m s => plainWord_next, fun e pc m s => plainWord_jump, fun e pc m s => plainWord_branch, fun e pc m s => plainWord_call,
    fun e pc m s => plainWord_callc, fun e pc a rest m s => plainWord_return, fun e pc m s => plainWord_loop, fun e pc m s => plainWord_dispatch,
    fun e pc m s => plainWord_waits, fun e pc m s => plainWord_ends, fun e nac pc m s => plainWord_faults, fun e nac pc m s => plainWord_registers⟩

end Sys2Proof.Machine
end
